-- ==== Sys2Proof/Word.lean ====
section
/-!
DEFINITION. Sys2Proof/Word.lean: the 32-bit register word (R440), and nothing else.
-/

namespace Sys2Proof

/-- A 32-bit register word (R440: every register is 32 bits wide). -/
abbrev Word := BitVec 32

/-- One byte of HBM or flash. -/
abbrev Byte := BitVec 8

end Sys2Proof
end

