-- ==== Sys2Proof/Syntax.lean ====
section
/-!
DEFINITION. Sys2Proof/Syntax.lean: the commands of the block, one constructor per row of spec/opcode_table.json, and the
data they carry: in the table's order, those with operands first (compiled Lean can build at most 245 constructors that
have fields, so none of these may stand later), then those without.
-/

namespace Sys2Proof

/-- The binding that a PTP message carries: port, transport, domain number, VLAN (R52), the identity of the port that sent it, and its source MAC
address (R283). -/
structure PtpHdr where
  port : Nat
  transport : Nat
  domain : Nat
  vlan : Nat
  source : Nat := 0
  mac : Nat := 0
  deriving DecidableEq, Repr

/-- The data set of an Announce message that the BMCA compares (R51). -/
structure Announce where
  pri1 : Nat
  cls : Nat
  acc : Nat
  var : Nat
  pri2 : Nat
  ident : Nat
  steps : Nat
  utcOfs : Nat
  logInt : Int
  deriving DecidableEq, Repr

/-- The words of a Staord time flit (R274). -/
structure TimeFlit where
  frame : Nat
  src : Nat
  state : Nat
  echoValid : Bool
  line : Nat
  frac : Nat
  num : Nat
  den : Nat
  lines : Nat
  tSend : Nat
  tEcho : Nat
  tHeld : Nat
  deriving DecidableEq, Repr

/-- A PLL: one of the 11 core PLLs or of the 16 lane PLLs (R68, R69). -/
inductive Pll where
  | core (m : Nat)
  | lane (q : Nat)
  deriving DecidableEq, Repr

/-- One pixel of three components (Y or G, Cb or B, Cr or R); subsampled chroma is read at the positions that carry it. -/
structure Px where
  a : Nat
  b : Nat
  c : Nat
  deriving DecidableEq, Repr

/-- A run of pixels of one picture line that an ST 2110-20 packet carries: line, first sample, pixels. -/
structure Seg where
  line : Nat
  x : Nat
  px : List Px
  deriving DecidableEq, Repr

/-- What a received RTP packet carries, by the flow types of R85. Sequence numbers and timestamps are as in the packet;
ST 2110-20 has the 32-bit extended number. -/
inductive RtpBody where
  | video20 (seq ts : Nat) (fbits : Bool) (segs : List Seg)
  | anc40 (seq ts : Nat) (fbits : Bool) (data : List Nat)
  | audio30 (seq ts : Nat) (samples : List (List Int))
  | unit (seq ts : Nat) (marker : Bool) (data : List Nat)
  | pes (seq pts : Nat) (pid : Nat) (start : Bool) (data : List Nat)
  deriving DecidableEq, Repr

/-- A received UDP packet: where it came in, its addresses (128-bit, byte 0 in bits [7:0]), the length of its Ethernet
frame, its RTP content. -/
structure IngPacket where
  port : Nat
  vlan : Nat
  ipv6 : Bool
  dst : Nat
  src : Nat
  dport : Nat
  len : Nat
  body : RtpBody
  deriving DecidableEq, Repr

/-- What an engine finds in an access unit: its picture order count, its kind of entry point, the picture order counts it
refers to, what was lost, and the format of its picture (R96-R102). `idr`: an IRAP picture that ends all reference to earlier ones; `lost`: the
ranges of CTU addresses, first to last, that no slice gave or that follow an error, with the CTU size `ctu`. -/
structure AuInfo where
  poc : Int
  irap : Bool
  idr : Bool
  gdrRecovery : Option Nat
  rpSei : Option Nat
  refs : List Int
  missingSlice : Bool
  lost : List (Nat × Nat)
  ctu : Nat
  error : Bool
  unsupported : Bool
  width : Nat
  height : Nat
  chroma422 : Bool
  depth10 : Bool
  deriving DecidableEq, Repr

/-- What the patrol scrubber finds in a granule (R314). -/
inductive ScrubResult where
  | clean
  | corrected
  | uncorrectable
  deriving DecidableEq, Repr


/-- A request that a pseudo-channel receives: its requester, its offset in the stack, whether it writes, how many ns before the command it
arrived (R303, R304). -/
structure HbmAcc where
  id : Nat
  ofs : Nat
  write : Bool
  ago : Nat
  deriving DecidableEq, Repr

/-- A refresh that falls due: its bank, whether it is the last one of its window, and the requests that have arrived at the pseudo-channel
(R304, R307). -/
structure RefreshDue where
  bank : Nat
  last : Bool
  reqs : List HbmAcc
  deriving DecidableEq, Repr

/-- The requester of a request that reaches its age limit, and the requests that have arrived at the pseudo-channel (R304, R305). -/
structure AgeLimit where
  requester : Nat
  reqs : List HbmAcc
  deriving DecidableEq, Repr

/-- Uncorrectable and corrected codewords that a receiver reports (R290). -/
structure FecWords where
  uncorr : Nat
  corr : Nat
  deriving DecidableEq, Repr

/-- A reference read: the pipe that makes it, and whether it fills the staging store of the pipe's next job (R161, R168). -/
structure RefRead where
  pipe : Nat
  staged : Bool
  deriving DecidableEq, Repr

/-- The paths over which registers are written and read (R445): PCIe BAR0, a Sextant client, the service port, the
Basgar image's application. -/
inductive BusPath where
  | pcie
  | sextant (client : Nat)
  | service
  | basgar
  deriving DecidableEq, Repr

/-- What a pipe hands over with a completed job: the slice's bits and bytes, its CTUs coded in floor mode, the sum of its
CTUs' QPs (R184, R186, R263); `desc`: all that its reconstruction depends on. -/
structure SliceOut where
  bits : Nat
  floorCtu : Nat
  qpSum : Nat
  data : List Nat
  desc : List Nat := []
  deriving DecidableEq, Repr

/-- The kinds of non-slice NAL units (R144–R146). The prefix SEI messages of an access unit travel in one unit (R220). -/
inductive NalKind where
  | aud | vps | sps | pps | alf | prefixSei | pictureHeader | picHash | eos
  deriving DecidableEq, Repr

/-- A non-slice NAL unit: its kind and the values of R144–R146 and R176 that vary, from which its bytes follow. -/
structure Nal where
  kind : NalKind
  vals : List Nat
  deriving DecidableEq, Repr

/-- One entry of a Twin digest flit (R242). -/
structure TwinEntry where
  ch : Nat
  slice : Nat
  floorCtu : Nat
  standIn : Bool
  k : Nat
  bits : Nat
  digest : Nat
  deriving DecidableEq, Repr

/-- A Twin digest flit: its role word, the sender's pair tag, its entries (R242). -/
structure TwinFlit where
  role : Nat
  helmOut : Bool
  helmIn : Bool
  first : Bool
  sync : Bool
  tag : Nat
  entries : List TwinEntry
  deriving DecidableEq, Repr

/-- A Staord flit (R270): type, sequence number and ACK (12 bits each), NAK, ACK_VALID, sender's MID, payload words, CRC word. -/
structure Flit where
  ty : Nat
  seq : Nat
  ack : Nat
  nak : Bool
  ackValid : Bool
  mid : Nat
  payload : List Nat
  crc : Nat
  deriving DecidableEq, Repr

/-- A report record of a canvas budget flit (R263, R271). -/
structure CnvReport where
  member : Nat
  x : Nat
  t : Nat
  floor : Nat
  cap : Nat
  prev : Nat
  gdig : Nat
  deriving DecidableEq, Repr

/-- A mask record of a canvas budget flit (R266, R271). -/
structure CnvMask where
  member : Nat
  mask : Nat
  adig : Nat
  deriving DecidableEq, Repr

/-- A canvas budget flit (R271): group tag, k + 1 mod 65,536, its report or mask records. -/
structure BudgetFlit where
  tag : Nat
  k16 : Nat
  reports : List CnvReport
  masks : List CnvMask
  deriving DecidableEq, Repr

/-- A management (5) or parcel (6) relay flit (R275). -/
structure RelayFlit where
  ty : Nat
  dest : Nat
  orig : Nat
  hops : Nat
  msg : Nat
  frag : Nat
  last : Bool
  data : List Nat
  deriving DecidableEq, Repr

/-- A received AES3 frame (R326, R327): the 24-bit samples of subframes A and B, their validity bits, whether the parity of each
failed. -/
structure AesFrame where
  a : Nat
  b : Nat
  va : Bool
  vb : Bool
  pa : Bool
  pb : Bool
  deriving DecidableEq, Repr

/-- What the header of a verified firmware image gives: its version and its settings format (R362). -/
structure FwHdr where
  version : Nat
  fmt : Nat
  deriving DecidableEq, Repr

/-- Where a Sextant datagram came from: management port (0 A, 1 B), IP address and UDP port of the client, and the originator's
MID when it was relayed. -/
structure SxFrom where
  mgt : Nat
  ip : Nat
  udp : Nat
  relay : Option Nat
  deriving DecidableEq, Repr

/-- The commands of the block. Each constructor's docstring gives its row: mnemonic, rule, effect. -/
inductive Instr where
  /-- REGISTER_WRITE (R4): A write reaches a register or field that has no row of its own and is applied according to
      its access code. -/
  | registerWrite (path : BusPath) (addr : Nat) (value : Word) (size : Nat)
  /-- RC_REGISTER_READ (R4): A read of an RC register returns its value and then clears it. -/
  | rcRegisterRead (path : BusPath) (addr : Nat)
  /-- WIDE_VALUE_LOW_READ (R9): A read of the lowest word of a multi-word value latches the remaining words for later
      reads. -/
  | wideValueLowRead (path : BusPath) (addr : Nat)
  /-- SHADOW_READ (R427): A read at 0x0040_0000 plus A returns register A from the snapshot bank of the current epoch.
      -/
  | shadowRead (path : BusPath) (addr : Nat)
  /-- DEPENDENCY_NOT_READY (R14): A function leaves READY, and each dependent either stays READY under its substitution
      rules or passes to FAULT. -/
  | dependencyNotReady (fn : Nat)
  /-- FUNCTION_READY (R14): A STARTING function enters READY once its own start and every dependency are complete, and
      event 0x0003 is raised. -/
  | functionReady (fn : Nat)
  /-- STAGED_SETTINGS_APPLY (R15): At a channel frame start, the staged writes made before it take effect, in decision
      class 2. -/
  | stagedSettingsApply (ch : Nat)
  /-- REF_IN_PULSE (R38): A REF_IN edge is stamped and used for lock counting, phase error and any pending frame load.
      -/
  | refInPulse (rising : Bool)
  /-- TIME_FLIT_RECEIVE (R48): A received time flit is compared with the local position and cadence, and the peer flags
      are updated. -/
  | timeFlitReceive (port : Nat) (flit : TimeFlit)
  /-- SYNC_RECEIVE (R55): A Sync sample yields the offset o, which is accepted, rejected as an outlier, or counted
      toward a jump. -/
  | syncReceive (h : PtpHdr) (t1 : Nat) (cf : Int) (logInt : Int)
  /-- ANNOUNCE_RECEIVE (R51): A received Announce message feeds the BMCA of its domain. -/
  | announceReceive (h : PtpHdr) (a : Announce)
  /-- DELAY_RESP_RECEIVE (R55): A Delay_Resp message supplies t4 and updates the averaged path delay. -/
  | delayRespReceive (h : PtpHdr) (t4 : Nat) (cf : Int) (logMin : Int)
  /-- DELAY_REQ_SEND (R51): The Delay_Req interval expires and a Delay_Req is sent. -/
  | delayReqSend (dom : Nat)
  /-- PDELAY_REQ_SEND (R51): Every 2^(PDELAY_LOG − 3) seconds a Pdelay_Req is sent. -/
  | pdelayReqSend (dom : Nat)
  /-- PDELAY_REQ_RECEIVE (R51): A Pdelay_Req is answered as a two-step peer-delay responder. -/
  | pdelayReqReceive (h : PtpHdr) (seq : Nat)
  /-- PDELAY_RESP_RECEIVE (R55): Peer-delay responses complete a peer-to-peer path delay measurement. -/
  | pdelayRespReceive (h : PtpHdr) (t2p t3p : Nat) (cf : Int)
  /-- ANNOUNCE_TIMEOUT (R57): No Announce arrives within ANNOUNCE_TO intervals, and the domain enters HOLDOVER. -/
  | announceTimeout (dom : Nat)
  /-- SYNC_TIMEOUT (R57): No usable Sync arrives within SYNC_TO intervals, and the domain enters HOLDOVER. -/
  | syncTimeout (dom : Nat)
  /-- PTP_DOMAIN_ENABLE (R52): A write of PTP_x_CTL.EN starts or stops a domain, subject to the binding checks. -/
  | ptpDomainEnable (dom : Nat) (en : Bool)
  /-- TOUT_ARM (R62): A write of PTP_TOUT_k_CTL with MODE not 0b00 samples the pulse parameters and arms the output. -/
  | toutArm (k : Nat) (value : Word)
  /-- TOUT_DISARM (R63): A write with MODE 0b00 disarms the output, and any pulse in progress completes its width. -/
  | toutDisarm (k : Nat)
  /-- TOUT_PULSE (R64): A pulse edge is placed at START + OFFSET, or one period after the previous pulse. -/
  | toutPulse (k : Nat)
  /-- TOUT_PULSE_END (R62): The pulse's WIDTH expires and the output returns to its idle level. -/
  | toutPulseEnd (k : Nat)
  /-- TIN_CAPTURE (R65): A selected TIN edge outside the hold-off is stamped into the 16-entry FIFO, or is lost when the
      FIFO is full. -/
  | tinCapture (j : Nat) (rising : Bool)
  /-- TIN_CAPTURE_POP (R65): A read of PTP_TIN_j_CAP_0 pops the oldest capture and latches its remaining words. -/
  | tinCapturePop (path : BusPath) (j : Nat)
  /-- PLL_LOCK (R70): The phase error stays within the window for LOCK_CNT reference cycles, and the PLL declares lock.
      -/
  | pllLock (p : Pll)
  /-- PLL_RESYNC (R75): At the resynchronisation edge the dividers are released, and the outputs leave the bypass
      reference. -/
  | pllResync (p : Pll)
  /-- PLL_LOSS_OF_LOCK (R71): The phase error stays outside the window for LOSS_CNT cycles; the sticky bit and LOL_CNT
      move and an event is raised. -/
  | pllLossOfLock (p : Pll) (err : Int)
  /-- PLL_LOSS_OF_REFERENCE (R71): REF_MISS expected reference edges are missing, and the PLL holds its control word. -/
  | pllLossOfReference (p : Pll)
  /-- RELOCK (R77): CKG_CMD with RELOCK set switches a core PLL to bypass and relocks it, when R77 allows. -/
  | relock (m : Nat)
  /-- PLL_FREQ_WRITE (R78): A write that changes CKG_CPLL_m_FREQ relocks the PLL at the new frequency. -/
  | pllFreqWrite (m : Nat) (freq : Word)
  /-- CLKOUT_ENABLE (R80): A clock output starts at the end of a low phase, after the format checks. -/
  | clkoutEnable (k : Nat)
  /-- CLKOUT_DISABLE (R80): A clock output stops at the end of a low phase and becomes high-impedance. -/
  | clkoutDisable (k : Nat)
  /-- CLKOUT_REALIGN (R80): After an STC step, an aligned output realigns at the next whole second by lengthening one
      low phase. -/
  | clkoutRealign (k : Nat)
  /-- INGEST_PACKET_RECEIVE (R84): A received UDP packet is matched to a flow, policed and merged, and its data is
      stored. -/
  | ingestPacketReceive (p : IngPacket)
  /-- ING_FT_READ (R85): ING_FT_CMD with READ loads ingest flow entry f into the buffer. -/
  | ingFtRead (flow : Nat)
  /-- ING_FT_WRITE (R85): ING_FT_CMD with WRITE writes the buffer into ingest flow entry f, subject to the checks. -/
  | ingFtWrite (flow : Nat)
  /-- LEG_LOSS (R88): A leg that delivers nothing for a whole Meridian frame while the other leg delivers sets LEG_LOSS.
      -/
  | legLoss (ty target : Nat)
  /-- INPUT_ENABLE (R89): An input enable is checked against its timing channel and raster. -/
  | inputEnable (i : Nat)
  /-- INPUT_START (R103): An enabled input starts at the first frame start of its timing channel. -/
  | inputStart (i : Nat)
  /-- ACCEPTANCE_WINDOW_CLOSE (R92): The window of a picture line closes, and the line is accepted or found missing. -/
  | acceptanceWindowClose (i : Nat)
  /-- INPUT_RESTART (R90): A stopped input restarts at its channel's first frame start after the channel leaves OFF. -/
  | inputRestart (i : Nat)
  /-- DECODE_CONTEXT_ENABLE (R97): A decode context enable is checked against its engine's load and the format limits.
      -/
  | decodeContextEnable (x : Nat)
  /-- ACCESS_UNIT_START (R98): An engine starts decoding a complete access unit, chosen by earliest acceptance deadline.
      -/
  | accessUnitStart (engine : Nat)
  /-- ACCESS_UNIT_DECODED (R98): An engine completes the decode of an access unit. -/
  | accessUnitDecoded (x : Nat) (info : AuInfo)
  /-- DECODED_PICTURE_DECISION (R99): At D, a decoded picture is accepted, or the whole picture is substituted. -/
  | decodedPictureDecision (i : Nat)
  /-- COMPOSITION_ENABLE (R108): A channel's composition enable is checked for fetch load, source availability and
      matrix. -/
  | compositionEnable (c : Nat)
  /-- COMPOSITION_DISABLE (R14): EN = 0 makes composition finish the started pictures and then enter OFF. -/
  | compositionDisable (c : Nat)
  /-- COMMIT (R109): A COMMIT makes a pending set current at once, or holds it for a flip. -/
  | commit (c set : Nat) (fence : Option Nat)
  /-- CANCEL (R109): A CANCEL drops the pending set. -/
  | cancel (c set : Nat)
  /-- FENCE_WRITE (R110): A write of COMP_FENCE_k_HI completes a fence value and stamps it. -/
  | fenceWrite (k value : Nat)
  /-- FLIP_EVALUATION (R111): At the flip line, every pending set whose commit and fence are ready flips; the others are
      held. -/
  | flipEvaluation (c : Nat)
  /-- MESH_CHECK_COMPLETE (R125): The mesh check of a committed range ends, and the commit is allowed or cancelled. -/
  | meshCheckComplete (c : Nat)
  /-- ROW_COMPOSITION (R127): Composition of output row r starts at A_r, and the row is written once for the encoder and
      the uncompressed outputs. -/
  | rowComposition (c : Nat)
  /-- SET_RETIRE (R113): The last picture governed by a replaced set is composed, and the set retires. -/
  | setRetire (c : Nat)
  /-- COMPOSITION_DRAINED (R14): A draining composition completes its last rows and enters OFF. -/
  | compositionDrained (c : Nat)
  /-- CHANNEL_ENABLE (R147): An encode channel enable passes the admission checks, and the channel becomes STARTING. -/
  | channelEnable (n : Nat)
  /-- CHANNEL_READY (R147): The first channel frame after every dependency is READY starts the first picture and a coded
      video sequence. -/
  | channelReady (n : Nat)
  /-- PICTURE_START (R139): At a channel frame start, the picture's k is fixed and the sequence, restart and phase are
      decided. -/
  | pictureStart (n : Nat)
  /-- RESTART (R141): ENC_CH_n_CMD.RESTART requests a GDR restart at the next channel frame start. -/
  | restart (n : Nat)
  /-- CHANNEL_DISABLE (R149): EN = 0 fixes the channel's last picture, and the channel becomes DRAINING. -/
  | channelDisable (n : Nat)
  /-- CHANNEL_DRAINED (R149): The last slice of the last picture is released, and the channel enters OFF. -/
  | channelDrained (n : Nat)
  /-- ROW_BUDGET (R181): At A_r, row r receives its budget from the picture target, the floors and the bucket. -/
  | rowBudget (n : Nat)
  /-- JOB_START (R195): A pipe starts its next job at the later of D and the completion of its running job. -/
  | jobStart (p : Nat)
  /-- LATEST_START (R195): At the latest start, a job not yet started is recorded as DL_MISS and raises event 0x0A07. -/
  | latestStart (job : Nat)
  /-- COMPLETION_DEADLINE (R203): A job still running at its completion deadline is a class 5 fault. -/
  | completionDeadline (p : Nat)
  /-- JOB_COMPLETE (R201): A job completes and its slice enters its release slot, or a budget overrun is a class 4
      fault: `overrun`: the pipe reports more bits than the budget. -/
  | jobComplete (p : Nat) (overrun : Bool)
  /-- PIPE_FAULT_REPORT (R203): A pipe reports a fault; the pipe is stopped and the job is replayed or stood in. -/
  | pipeFaultReport (p cls : Nat)
  /-- REFERENCE_READ_UNCORRECTABLE (R168): An uncorrectable reference read fails the job without replay and schedules a
      GDR restart. -/
  | referenceReadUncorrectable (read : RefRead)
  /-- STAND_IN_DECISION (R202): At P_s, every empty release slot receives a stand-in slice. -/
  | standInDecision (n : Nat)
  /-- SLICE_RELEASE (R201): At the release position, the sequence hands its slices to egress, or to the Lookout's hold,
      in slice order. -/
  | sliceRelease (n : Nat)
  /-- SEQUENCE_FREE (R200): 72,000 ns after a row's release, its ordered release sequence is freed. -/
  | sequenceFree (n : Nat)
  /-- UNRETIRE (R199): DIS_CMD.UNRETIRE returns a retired pipe. -/
  | unretire (p : Nat)
  /-- PARK (R197): A write of PARK = 1 stops a quadrant's pipes from taking new jobs, when the checks allow. -/
  | park (q : Nat)
  /-- UNPARK (R197): A write of PARK = 0 returns the quadrant's pipes at once. -/
  | unpark (q : Nat)
  /-- QUADRANT_PARKED (R197): All 16 pipes of a parking quadrant are idle, and PARKED reads 1. -/
  | quadrantParked (q : Nat)
  /-- THERMAL_PLACEMENT (R351): Each Meridian frame, the loop reads the pipe diodes and sets or clears cool requests. -/
  | thermalPlacement (temps : List Int)
  /-- PIPE_START_TEST_COMPLETE (R360): The pipe start test ends; failing pipes are retired, and DIS enters READY or
      FAULT. -/
  | pipeStartTestComplete (failed : List Nat)
  /-- EGS_FT_READ (R216): EGS_FT_CMD with READ loads egress flow entry f into the buffer. -/
  | egsFtRead (flow : Nat)
  /-- EGS_FT_WRITE (R216): EGS_FT_CMD with WRITE writes egress flow entry f, subject to the checks and PIR_MIN. -/
  | egsFtWrite (flow : Nat)
  /-- PORT_FREE (R225): A port finishes a frame and picks the next paced or WFQ packet. -/
  | portFree (p : Nat)
  /-- PACED_DEPARTURE (R232): At its departure time, a TYPE 3 packet is built from the composed row and sent, or
      discarded. -/
  | pacedDeparture (flow : Nat)
  /-- HELM_IN_CHANGE (R240): The filtered HELM_IN level changes, which may cause contention or a claim. -/
  | helmInChange (level : Bool)
  /-- DIGEST_FLIT_RECEIVE (R243): A received digest entry matches a held slice and releases it, or mismatches and quiets
      the channel. -/
  | digestFlitReceive (flit : TwinFlit)
  /-- DIGEST_TIMEOUT (R243): At t_r + T_D without an entry, the Lookout claims or marks the slice late. -/
  | digestTimeout (n : Nat)
  /-- LATE_WINDOW_END (R243): At the end of the late window without an entry, the held slice is discarded. -/
  | lateWindowEnd (n : Nat)
  /-- CYCLE_RECORD_RECEIVE (R249): The Helm's Cycle record completes with a good CRC on the Lookout, possibly late. -/
  | cycleRecordReceive (words : List Nat)
  /-- CHANNEL_RESYNC (R254): A QUIET channel with P matched pictures becomes LOOKOUT at its next frame start. -/
  | channelResync (n : Nat)
  /-- DIGEST_ENGINE_DISAGREEMENT (R250): The two digest engines of the release unit disagree, and the module gives up.
      -/
  | digestEngineDisagreement (n : Nat)
  /-- BUDGET_FLIT_RECEIVE (R265): A canvas budget flit's reports or masks are kept and forwarded along the row or
      column. -/
  | budgetFlitReceive (port : Nat) (flit : BudgetFlit)
  /-- FLIT_RECEIVE (R273): A Staord flit is checked by CRC and sequence, then accepted or answered by NAK. -/
  | flitReceive (port : Nat) (flit : Flit)
  /-- REPLAY_TIMEOUT (R273): ACK does not advance for REPLAY_TO, and the sender replays. -/
  | replayTimeout (port : Nat)
  /-- LINK_DELAY_MEASURE (R274): Before READY, 16 time flits are exchanged, and CNV_LINK_p_DELAY is set. -/
  | linkDelayMeasure (port : Nat) (rx : List (Nat × Nat × Nat))
  /-- RELAY_FLIT_RECEIVE (R275): A management or parcel relay flit is routed onward, dropped or reassembled. -/
  | relayFlitReceive (port : Nat) (flit : RelayFlit)
  /-- QUAD_ENABLE (R278): A quad enable is checked against its role and Lane Table, and its lanes start bring-up. -/
  | quadEnable (q : Nat)
  /-- QUAD_DISABLE (R278): EN = 0 stops the quad, unless a user still names its port. -/
  | quadDisable (q : Nat)
  /-- SIGNAL_DETECT (R288): Signal detected for 100 µs moves a lane to stage 2. -/
  | signalDetect (lane : Nat)
  /-- CDR_LOCK (R288): The CDR locks and the start Sighting completes, and the lane enters training. -/
  | cdrLock (lane : Nat) (first second : List Int) (eye : List Nat) (temp : Int)
  /-- TRAINING_WORD_RECEIVE (R289): A Staord training word is checked for marker and PRBS, and drives LANES_OK and
      SWITCH. -/
  | trainingWordReceive (lane : Nat) (marker : List Nat) (errs : Nat)
  /-- DESKEW_COMPLETE (R288): All lanes of a port are trained and skew is measured within limits. -/
  | deskewComplete (staord : Bool) (port skew rxlat : Nat) (ok : Bool)
  /-- FEC_LOCK (R290): FEC lock is found, and the port becomes READY. -/
  | fecLock (staord : Bool) (port : Nat)
  /-- FEC_LOSS (R290): Missing skip codewords or uncorrectable codewords lose FEC lock. -/
  | fecLoss (staord : Bool) (port missing : Nat) (words : FecWords)
  /-- STAGE_TIMEOUT (R288): A stage not left within TIMEOUT restarts every lane of the port. -/
  | stageTimeout (staord : Bool) (port : Nat)
  /-- LANE_LOSS (R291): A lane loses signal or CDR lock and restarts at stage 1. -/
  | laneLoss (lane : Nat)
  /-- ETH_FRAME_RECEIVE (R284): A received Ethernet frame is accepted and passed on, or discarded and counted. -/
  | ethFrameReceive (port : Nat) (fcsOk : Bool) (len vlan : Nat) (dstMac : Nat)
  /-- ARP_REQUEST (R285): An ARP request for the port's IPv4 address is answered. -/
  | arpRequest (port vlan target sender : Nat)
  /-- NEIGHBOUR_SOLICITATION (R285): A neighbour solicitation for either IPv6 address is answered. -/
  | neighbourSolicitation (port vlan target sender : Nat)
  /-- ECHO_REQUEST (R285): An ICMP or ICMPv6 echo request is answered within the rate limit. -/
  | echoRequest (port vlan : Nat) (ipv6 : Bool) (dst sender len : Nat)
  /-- MEMBERSHIP_QUERY (R286): An IGMP or MLD query schedules responses and may switch to older-version rules. -/
  | membershipQuery (port vlan : Nat) (ipv6 older : Bool) (group : Option Nat) (maxMs timeoutMs : Nat)
  /-- QUERY_RESPONSE (R286): A query response is sent after its random delay. -/
  | queryResponse (port : Nat)
  /-- STATE_CHANGE_REPORT (R286): A change of joined set sends a state-change report, repeated ROBUST times URI apart.
      -/
  | stateChangeReport (port : Nat)
  /-- ETH_FAULT (R287): A local or remote fault begins or ends without stopping egress. -/
  | ethFault (port : Nat) (remote present : Bool)
  /-- HBM_STACK_ENABLE (R315): HBM_s_CTL.EN = 1 starts training of the stack. -/
  | hbmStackEnable (st : Nat)
  /-- HBM_TRAINING_COMPLETE (R315): Training ends, and the stack enters READY or, after three failures, FAULT. -/
  | hbmTrainingComplete (st : Nat) (ok : Bool) (ms repairs : Nat)
  /-- HBM_STACK_DISABLE (R318): EN = 0 puts the stack in self-refresh, unless a dependent is not OFF. -/
  | hbmStackDisable (st : Nat)
  /-- REFRESH (R307): A per-bank refresh falls due within the refresh window. -/
  | refresh (st pc : Nat) (due : RefreshDue)
  /-- HBM_HOT_CHANGE (R307): The stack sensor crosses 85 °C or 82 °C, and the refresh window changes. -/
  | hbmHotChange (st : Nat) (celsius : Int)
  /-- REFRESH_MANAGEMENT (R308): A row's activation count reaches THR, and an RFM is issued and the counts reset. -/
  | refreshManagement (st pc bank : Nat) (reqs : List HbmAcc)
  /-- THROTTLE_END (R309): After HOLD windows without offence, a throttle ends. -/
  | throttleEnd (st pc requester : Nat)
  /-- PROMOTION (R305): A request reaches its class's age limit and is promoted. -/
  | promotion (st pc : Nat) (due : AgeLimit)
  /-- ECC_CORRECTION (R312): A read burst with one bad symbol is corrected and written back. -/
  | eccCorrection (addr : Nat)
  /-- UNCORRECTABLE_READ (R313): An uncorrectable burst is returned poisoned and its address recorded. -/
  | uncorrectableRead (addr requester : Nat)
  /-- PATROL_SCRUB (R314): The patrol scrubber reads a granule and writes back corrected bursts. -/
  | patrolScrub (st : Nat) (result : ScrubResult)
  /-- CA_PARITY_ERROR (R316): A command parity error is retried, and more than 16 in 1 ms put the stack in FAULT. -/
  | caParityError (st pc : Nat)
  /-- AUDIO_LOOP_EVALUATE (R324): The audio clock loop evaluates e, updates f, and locks or unlocks. -/
  | audioLoopEvaluate (obs : Int)
  /-- AES3_BLOCK (R326): An AES3 input block is stamped, placed in the store, and its channel status captured. -/
  | aes3Block (i stamp frames : Nat) (ppm : Int) (data : List AesFrame) (csA csB : List Nat)
  /-- TDM_BLOCK (R326): A TDM input block is stamped and placed in the store. -/
  | tdmBlock (t stamp : Nat) (data : List (List Nat))
  /-- TDM_SLAVE_LOCK_LOSS (R334): A TDM slave whose frames change length or stop loses lock. -/
  | tdmSlaveLockLoss (t : Nat)
  /-- AUDIO_BLOCK_DECISION (R331): At a block boundary, the output fixes routing, TRIM, channel status and mute for the
      block. -/
  | audioBlockDecision (u : Nat)
  /-- TDM_MASK_COMMIT (R335): A COMMIT makes MASK_PEND pending until the next FS edge. -/
  | tdmMaskCommit (t : Nat)
  /-- TDM_MASK_APPLY (R335): At the first FS edge after the commit, the pending mask comes into force. -/
  | tdmMaskApply (t : Nat)
  /-- AUDIO_OUTPUT_ENABLE (R336): An audio output starts its framing and sends 0 until its first routed block. -/
  | audioOutputEnable (u : Nat)
  /-- AUDIO_OUTPUT_DISABLE (R336): EN = 0 makes the output send 0 for 64 frames while DRAINING. -/
  | audioOutputDisable (u : Nat)
  /-- AUDIO_OUTPUT_DRAINED (R336): After 64 frames, the output stops and enters OFF. -/
  | audioOutputDrained (u : Nat)
  /-- WRITE_TX (R337): AUD_CMD.WRITE_TX copies the buffer into a TYPE 4 egress flow. -/
  | writeTx (t : Nat)
  /-- AUDIO_PACKET_DEPARTURE (R337): An ST 2110-30 packet leaves in the paced tier at T(p0 + n) + dly. -/
  | audioPacketDeparture (t : Nat)
  /-- SIGHTING_RUN (R342): CAL_CMD with RUN triggers a Sighting of one instance. -/
  | sightingRun (kind inst : Nat)
  /-- SIGHTING_TEMPERATURE_TRIGGER (R342): The nearest sensor moves more than TEMP_DELTA, and a Sighting is triggered.
      -/
  | sightingTemperatureTrigger (kind inst : Nat) (temp : Int)
  /-- SIGHTING_COMPLETE (R344): A Sighting's measurement ends and its result is accepted or rejected. -/
  | sightingComplete (kind inst : Nat) (first second : List Int) (quality : List Nat) (temp : Int)
  /-- SIGHTING_STEP (R345): An accepted code moves by one step, no faster than STEP_US. -/
  | sightingStep (kind inst : Nat)
  /-- AVS_EVALUATE (R347): Every 1 µs, the voltage loop moves a quadrant's supply by the margin error. -/
  | avsEvaluate (q margin : Nat)
  /-- FUNCTION_RESET (R358): A GLB_FRESET bit stops a function at once and returns it to OFF. -/
  | functionReset (fn : Nat)
  /-- LOADER_START (R359): At the later of PWR_GOOD and RST_N, the loader starts and reads the flash directory. -/
  | loaderStart (active fallback staged : Option FwHdr) (moveOk copyOk bootOk : Bool)
  /-- FIRMWARE_START (R362): The loader verifies and starts the firmware named by the boot decision. -/
  | firmwareStart (bad : List Nat)
  /-- UPD_OPEN (R379): An UPD_OPEN message opens, resumes or refuses an update session. -/
  | updOpen (svOk : Bool)
  /-- UPD_PARCEL (R384): A parcel is checked, written to its Hamper slot and marked in the bitmap. -/
  | updParcel (flashOk svOk : Bool)
  /-- IDLE_MINUTE (R380): Each powered minute without a parcel advances IDLE_MIN and may abandon the session. -/
  | idleMinute (svOk : Bool)
  /-- FAULT_RECORD_WRITE (R401): A queued fault record is written to the Souvenir store. -/
  | faultRecordWrite (ok : Bool)
  /-- SENSOR_READ (R398): Every 10 µs Binnacle reads the die and HBM sensors. -/
  | sensorRead (die hbm : List Int) (vin vstby : Nat) (rails : List Nat)
  /-- SUPPLY_FAULT (R398): VIN or a rail out of range for 20 µs causes a power shutdown. -/
  | supplyFault (vin : Nat) (rail : Bool)
  /-- SVC_READ (R404): A service-port READ returns an island register, or another register through the status port. -/
  | svcRead (addr early : Nat) (pecOk : Bool)
  /-- SVC_WRITE (R404): A service-port WRITE writes an island register. -/
  | svcWrite (addr : Nat) (value : Word) (pecOk : Bool)
  /-- ACTION_MUTE (R404): Service-port ACTION 1 starts a soft mute. -/
  | actionMute (key : Nat) (pecOk : Bool)
  /-- ACTION_UNMUTE (R404): Service-port ACTION 2 ends a soft mute. -/
  | actionUnmute (key : Nat) (pecOk : Bool)
  /-- ACTION_GIVE_UP (R404): Service-port ACTION 3 makes the module give up control. -/
  | actionGiveUp (key : Nat) (pecOk : Bool)
  /-- ACTION_WARM (R404): Service-port ACTION 4 starts a warm reset. -/
  | actionWarm (key : Nat) (pecOk : Bool)
  /-- ACTION_COLD (R398): Service-port ACTION 5 starts a cold reset, also out of a shutdown. -/
  | actionCold (key : Nat) (pecOk : Bool)
  /-- ACTION_SHUTDOWN (R404): Service-port ACTION 6 shuts the module down. -/
  | actionShutdown (key : Nat) (pecOk : Bool)
  /-- SVC_FAULT (R404): A service-port FAULT command returns one fault record. -/
  | svcFault (idx : Nat) (pecOk : Bool)
  /-- KEYSLOT (R405): A service-port KEYSLOT command starts programming a one-time key slot. -/
  | keyslot (slot : Nat) (digest : List Nat) (pecOk : Bool)
  /-- MDIO_COMMAND (R407): BIN_MDIO_CMD with GO starts a Clause 22 access. -/
  | mdioCommand (phy reg : Nat) (rd : Bool) (data : Nat)
  /-- MDIO_COMPLETE (R407): The MDIO access ends and GO reads 0. -/
  | mdioComplete (data : Nat)
  /-- SEXTANT_DATAGRAM (R409): A Sextant datagram is authenticated, checked for replay and reassembled. -/
  | sextantDatagram (src : SxFrom) (bytes : List Nat)
  /-- EVENT_SEND (R419): Pending log entries go to a subscriber in an EVENT message. -/
  | eventSend (i : Nat)
  /-- BAR4_ACCESS (R421): A PCIe BAR4 access reads or writes HBM as requester 75. -/
  | bar4Access (addr : Nat) (write : Bool) (len : Nat) (data : List Nat)
  /-- MSIX_VECTOR_FIRE (R422): An MSI-X vector fires for a fault or an event, at most once per BIN_MSIX_GAP. -/
  | msixVectorFire (vector : Nat)
  /-- CHECK_START (R433): CHK_u_CMD.START makes a check unit BUSY over its region. -/
  | checkStart (u : Nat)
  /-- CHECK_ABORT (R434): CHK_u_CMD.ABORT ends a running check as ABORTED. -/
  | checkAbort (u : Nat)
  /-- CHECK_COMPLETE (R434): The last byte of the region is processed and RESULT becomes valid. -/
  | checkComplete (u : Nat)
  /-- WINDOW_READ (R446): A read in an indirect table window returns a word of the Mesh Table, flow tables, Logbook or
      Track buffer. -/
  | windowRead (path : BusPath) (addr : Nat)
  /-- MESH_WINDOW_WRITE (R446): A 32-bit write in the Mesh Table window is written to HBM at once. -/
  | meshWindowWrite (path : BusPath) (addr : Nat) (value : Word)
  /-- SHAPER_ELIGIBLE (R227): On an idle port, the peak-rate bucket of a WFQ leg refills until its head packet is
      eligible, and the port starts that packet. -/
  | shaperEligible (p : Nat)
  /-- ALIGNMENT_MARKER_LOCK (R288): An Ethernet lane finds the IEEE 802.3 alignment markers, or their inverse, sets its
      polarity and completes stage 3. -/
  | alignmentMarkerLock (lane : Nat) (inv : Bool)
  /-- AES3_INPUT_LOSS (R327): An AES3 input whose signal stops, or whose preambles stop arriving 192 frames apart, loses
      lock and raises event 0x1402. -/
  | aes3InputLoss (i : Nat)
  /-- PCIE_LINK_CHANGE (R420): The PCIe link trains up or goes down, BIN_PCIE_STATUS changes and event 0x010C is raised.
      -/
  | pcieLinkChange (up : Bool) (width speed : Nat)
  /-- MGT_LINK_CHANGE (R407): The link of MGT_A or MGT_B comes up or goes down, and BIN_MGT_STATUS changes. -/
  | mgtLinkChange (m : Nat) (up : Bool)
  /-- OLDER_QUERIER_TIMEOUT (R286): The older-version querier timeout of RFC 3376 or RFC 3810 expires, and the port
      returns to IGMPv3 or MLDv2 with INCLUDE joins. -/
  | olderQuerierTimeout (port : Nat)
  /-- MERIDIAN_ENABLE (R40): A write of MER_CTL.EN = 1 starts the Meridian at (0, 0), either READY on dead reckoning or
      STARTING until a source locks. -/
  | meridianEnable
  /-- REF_IN_MISS (R44): No REF_IN pulse arrives around MISS consecutive expected positions, and a stop is confirmed. -/
  | refInMiss
  /-- MERIDIAN_FAILURE_ACTION (R46): At a Meridian frame start, the Meridian acts on one pending failure: a stop, a rate
      change or a phase jump. -/
  | meridianFailureAction
  /-- MERIDIAN_RESUME (R41): After the hold of a step, the Meridian resumes as (n', 0) at the source's next frame start.
      -/
  | meridianResume
  /-- SOURCE_REVERT (R39): A higher-priority source that has held lock for MER_REVERT_HOLD frames is taken back at the
      next frame start. -/
  | sourceRevert
  /-- FRAME_LOAD (R38): MER_CMD.LOAD arms the frame count in MER_FRAME_LOAD, which the Meridian takes at the next REF_IN
      pulse. -/
  | frameLoad
  /-- TIME_FLIT_SEND (R48): At line 0 of every Meridian frame, a time flit goes out on each Staord port. -/
  | timeFlitSend
  /-- ACCEPT_A (R61): PTP_CMD.ACCEPT_A makes domain A take the refused jump. -/
  | acceptA
  /-- JOB_NAMED (R194): A ready job is named to a first-run pipe whose next slot is empty, and its window is staged. -/
  | jobNamed
  /-- REPLAY_START (R204): A replayable job starts cold on the spare, or on the first pipe that empties. -/
  | replayStart
  /-- SPARE_NAMING (R192): An available pipe with both slots empty is named the spare. -/
  | spareNaming
  /-- TRACK_CLEAR (R212): DIS_TRK_CMD.CLEAR empties the Track buffer and clears STOPPED and TRIGGERED. -/
  | trackClear
  /-- DIS_ENABLE (R210): A DIS enable initialises or keeps the Logbook and starts the pipe start test after a cold
      start. -/
  | disEnable
  /-- EGRESS_ENABLE (R465): EGS_CTL.EN = 1 makes every egress port function STARTING. -/
  | egressEnable
  /-- EGRESS_DISABLE (R465): EGS_CTL.EN = 0 stops every egress port function, and is refused while a flow is enabled. -/
  | egressDisable
  /-- QUEUE_SAMPLE (R233): At each sampling line, port and leg queue depth and delay are sampled. -/
  | queueSample
  /-- TWIN_ENABLE (R238): TWN_CTL.EN = 1 is checked and starts the twin function. -/
  | twinEnable
  /-- TWIN_ROLE_START (R240): When the twin function enters READY, the module becomes Lookout, claims, or waits
      START_WAIT. -/
  | twinRoleStart
  /-- START_WAIT_EXPIRY (R240): After START_WAIT frames, the module claims if HELM_IN is still low, otherwise it becomes
      Lookout. -/
  | startWaitExpiry
  /-- CLAIM_COMPLETE (R240): 4 µs without contention make the claimant Helm and raise event 0x0C02. -/
  | claimComplete
  /-- EMPTY_DIGEST_FLIT (R242): A Twin digest flit without entries is sent after 4 µs without one. -/
  | emptyDigestFlit
  /-- TWIN_LINK_LOST (R242): No Twin flit arrives for 16 µs, and every twinned channel of a Lookout becomes QUIET. -/
  | twinLinkLost
  /-- CYCLE_RECORD_CUT (R245): At (n + 1, 0), each module builds its Cycle record, and a Helm starts sending it. -/
  | cycleRecordCut
  /-- CYCLE_RECORD_ADOPT (R246): At (n + 1, ADOPT), the Lookout adopts decided fields and compares checked fields. -/
  | cycleRecordAdopt
  /-- GIVE_UP (R250): TWN_CMD.GIVE_UP makes Binnacle mute, record a fault and lower HELM_OUT. -/
  | giveUp
  /-- TWIN_WATCHDOG_EXPIRY (R250): TWN fails to refresh Binnacle's twin watchdog for 4 µs, and the module gives up. -/
  | twinWatchdogExpiry
  /-- CANVAS_ENABLE (R259): CNV_CTL.EN = 1 is checked and makes the channel a canvas member. -/
  | canvasEnable
  /-- CANVAS_REPORT (R262): At (n, REPORT), the member builds its budget report and sends it east. -/
  | canvasReport
  /-- ROW_BUNDLE_SEND (R265): The row bundle goes south when all row reports are held or at the half-window point. -/
  | rowBundleSend
  /-- CANVAS_MASK_DEADLINE (R262): At D1, the member records its on-time mask and sends it east. -/
  | canvasMaskDeadline
  /-- MASK_BUNDLE_SEND (R265): The mask bundle goes south when complete or at D1 + WINDOW / 2. -/
  | maskBundleSend
  /-- CANVAS_ALLOCATION (R267): At D2, the on-time set is fixed and every member's allocation is computed. -/
  | canvasAllocation
  /-- RELAY_REASSEMBLY_TIMEOUT (R275): 10 ms without a fragment discards the message being reassembled. -/
  | relayReassemblyTimeout
  /-- AUDIO_ENABLE (R322): AUD_CTL.EN = 1 is checked against CPLL_10 and starts the audio function. -/
  | audioEnable
  /-- CALIBRATION_WINDOW_OPEN (R343): At (n, START), the window opens and pending HBM Sightings run. -/
  | calibrationWindowOpen
  /-- CALIBRATION_WINDOW_CLOSE (R343): LEN lines later the window closes, and HBM Sightings pause after their step. -/
  | calibrationWindowClose
  /-- PLL_SIGHTING_PARK (R343): At each frame start, CAL tries to park the quadrant for a pending PLL Sighting. -/
  | pllSightingPark
  /-- CLOCK_LOOP (R349): At each frame start, the clock loop chooses each quadrant's divider D. -/
  | clockLoop
  /-- POWER_ON_RESET (R356): VIN or VSTBY rising from below its minimum resets everything but the Souvenir store. -/
  | powerOnReset
  /-- RST_N_LOW (R356): RST_N held low for 1 µs causes a cold reset. -/
  | rstNLow
  /-- PERST_N (R356): PERST_N resets the PCIe endpoint alone. -/
  | perstN
  /-- GLB_RESET_WARM (R356): GLB_RESET with WARM and the key starts a warm reset. -/
  | glbResetWarm
  /-- GLB_RESET_COLD (R356): GLB_RESET with COLD and the key starts a cold reset. -/
  | glbResetCold
  /-- SELF_REFRESH_CONFIRM (R395): Every READY stack confirms self-refresh, and the warm reset proceeds. -/
  | selfRefreshConfirm
  /-- SELF_REFRESH_TIMEOUT (R395): A stack not confirmed within 1 ms turns the warm reset into a cold one. -/
  | selfRefreshTimeout
  /-- PWR_GOOD_RISE (R359): Every rail is in regulation, and PWR_GOOD rises. -/
  | pwrGoodRise
  /-- FEATURE_COMMIT (R370): GLB_FEAT_CTL.COMMIT accepts the host's feature set and closes the window. -/
  | featureCommit
  /-- HOST_WINDOW_CLOSE (R370): The host window ends, and the accepted feature set locks. -/
  | hostWindowClose
  /-- RECORD_APPLY (R368): The firmware applies one Basgar record, and stops at a refused write or a failure. -/
  | recordApply
  /-- REG_WAIT_TIMEOUT (R368): A REG_WAIT record times out, and application stops. -/
  | regWaitTimeout
  /-- TABLE_LOAD_TIMEOUT (R365): A TABLE_LOAD that waits 2,000 ms for its stack fails. -/
  | tableLoadTimeout
  /-- CFG_LOCK (R368): CFG_CMD.LOCK locks the configuration after a failed application. -/
  | cfgLock
  /-- UPD_STATUS (R385): An UPD_STATUS message returns the session reply. -/
  | updStatus
  /-- UPD_CANCEL (R381): An UPD_CANCEL message from the owner ends the session. -/
  | updCancel
  /-- UPD_CMD_CANCEL (R381): UPD_CMD.CANCEL ends the session from any register agent. -/
  | updCmdCancel
  /-- CONFIRM (R390): UPD_CMD.CONFIRM confirms a healthy running trial. -/
  | confirm
  /-- REJECT (R390): UPD_CMD.REJECT sets ATTEMPTS to K so that the next start falls back. -/
  | reject
  /-- TRIAL_HEALTHY (R388): The trial firmware locks within HEALTH_S and passes its self-checks. -/
  | trialHealthy
  /-- TRIAL_WATCHDOG_EXPIRY (R388): HEALTHY is not set HEALTH_S after firmware start, and Binnacle cold-resets the
      module. -/
  | trialWatchdogExpiry
  /-- TRIAL_MINUTE (R388): Each healthy minute advances TRIAL_ELAPSED and may confirm the trial. -/
  | trialMinute
  /-- UNREADABLE_RESET (R389): 1 s after unreadable settings in a trial, Binnacle cold-resets the module. -/
  | unreadableReset
  /-- BIN_CMD_MUTE (R397): BIN_CMD.MUTE starts a soft mute. -/
  | binCmdMute
  /-- BIN_CMD_UNMUTE (R397): BIN_CMD.UNMUTE ends a soft mute. -/
  | binCmdUnmute
  /-- BIN_CMD_GIVE_UP (R250): BIN_CMD.GIVE_UP makes the module give up control. -/
  | binCmdGiveUp
  /-- BIN_CMD_WARM (R356): BIN_CMD.WARM starts a warm reset. -/
  | binCmdWarm
  /-- BIN_CMD_COLD (R356): BIN_CMD.COLD starts a cold reset. -/
  | binCmdCold
  /-- BIN_CMD_SHUTDOWN (R398): BIN_CMD.SHUTDOWN performs a thermal-class shutdown without recovery. -/
  | binCmdShutdown
  /-- SHUTDOWN_RECOVERY (R398): With AUTO_REC, after the recovery condition holds, Binnacle performs a cold reset. -/
  | shutdownRecovery
  /-- FIRMWARE_WATCHDOG_EXPIRY (R399): The firmware watchdog expires and acts by ACTION. -/
  | firmwareWatchdogExpiry
  /-- WATCHDOG_KICK (R399): A write of BIN_WDOG_KICK restarts the watchdog. -/
  | watchdogKick
  /-- KEYSLOT_PROGRAMMED (R405): After 20 ms the slot is programmed and event 0x010D is raised. -/
  | keyslotProgrammed
  /-- SVC_BUS_TIMEOUT (R403): SCL held low for 25 ms makes Binnacle release the bus and discard the transaction. -/
  | svcBusTimeout
  /-- ALERT_RESPONSE (R406): A read of the Alert Response Address returns ADDR and releases SVC_ALERT_N. -/
  | alertResponse
  /-- SEXTANT_REASSEMBLY_TIMEOUT (R411): A fragment missing for 100 ms discards the message. -/
  | sextantReassemblyTimeout
  /-- HELLO (R413): A HELLO message returns identity, features and key state. -/
  | hello
  /-- SEXTANT_READ (R415): A READ message returns COUNT consecutive register words. -/
  | sextantRead
  /-- SEXTANT_WRITE (R415): A WRITE message applies pairs in order and stops at the first refused one. -/
  | sextantWrite
  /-- GROUP_WRITE (R416): A GROUP_WRITE is held for its Meridian position, or answered LATE, RANGE or FULL. -/
  | groupWrite
  /-- GROUP_WRITE_APPLY (R416): At its position, a held group write commits its pairs and replies. -/
  | groupWriteApply
  /-- EVENT_SUBSCRIBE (R419): An EVENT_SUBSCRIBE grants, renews or cancels a subscription. -/
  | eventSubscribe
  /-- EVENT_READ (R413): An EVENT_READ returns entries of the event log. -/
  | eventRead
  /-- LEASE_EXPIRY (R419): A subscription's lease expires without renewal. -/
  | leaseExpiry
  /-- SEXTANT_RESET_WARM (R413): A RESET message with code 1 replies and then starts a warm reset. -/
  | sextantResetWarm
  /-- SEXTANT_RESET_COLD (R413): A RESET message with code 2 replies and then starts a cold reset. -/
  | sextantResetCold
  /-- BINNACLE_MUTE (R413): A BINNACLE message with code 1 starts a soft mute. -/
  | binnacleMute
  /-- BINNACLE_UNMUTE (R413): A BINNACLE message with code 2 ends a soft mute. -/
  | binnacleUnmute
  /-- BINNACLE_GIVE_UP (R413): A BINNACLE message with code 3 makes the module give up control. -/
  | binnacleGiveUp
  /-- FAULT_READ (R413): A FAULT_READ message returns fault records. -/
  | faultRead
  /-- SETTINGS_READ (R413): A SETTINGS_READ message returns a settings block. -/
  | settingsRead
  /-- SNAPSHOT_COMMAND (R425): GLB_SNAP_CMD.NOW requests a snapshot at the next line start, or is merged. -/
  | snapshotCommand
  /-- SNAPSHOT (R426): At the snapshot position, every latched counter is copied into the next bank. -/
  | snapshot
  /-- SNAPSHOT_EPOCH_ADVANCE (R426): When every unit has latched, the epoch increments and the bank switches. -/
  | snapshotEpochAdvance
  /-- ISLAND_HOLD_UP_END (R394): With VIN below 4.5 V and no VSTBY, the island runs on its hold-up for 200 µs and then
      stops, taking the whole module down. -/
  | islandHoldUpEnd
  /-- SLEW_COMPLETE (R41): The Meridian's phase error reaches zero during a slew, the rate offset ends and
      MER_STATUS.STATE leaves SLEWING. -/
  | slewComplete
  deriving DecidableEq, Repr

end Sys2Proof
end

