-- ==== Sys2Proof/Config.lean ====
section
/-!
DEFINITION. Sys2Proof/Config.lean: what the manufacture of one module fixes and what the spec leaves open. Every constant here is
opaque and has no body: nothing can be proved about its value, so a claim holds whatever it is.
-/

namespace Sys2Proof

/-- A motion vector of an inter CU: the entry of the reference list and the two components in 1/4 luma sample (R156). -/
structure MvCode where
  ref : Nat
  x : Int
  y : Int
  deriving DecidableEq, Repr, Inhabited

/-- How a CU is predicted: intra; a merge candidate, with an MMVD offset or without; or AMVP with a vector precision: 0 quarter, 1 integer, 2 four
samples (R156). -/
inductive CuKind where
  | intra
  | merge (cand : Nat)
  | mmvd (cand : Nat)
  | amvp (amvr : Nat)
  deriving DecidableEq, Repr, Inhabited

/-- A CU of a CTU: its place in the CTU and its size in luma samples, its prediction with the vectors that result, and whatever else is coded. -/
structure CuCode where
  x : Nat
  y : Nat
  w : Nat
  h : Nat
  kind : CuKind
  mvs : List MvCode
  rest : List Nat
  deriving DecidableEq, Repr, Inhabited

/-- A coded CTU: its QP, its bits, whether it is coded in floor mode (R185), its CUs, its SAO parameters and its ALF CTB flags. -/
structure CtuCode where
  qp : Nat
  bits : Nat
  floor : Bool
  cus : List CuCode
  sao : List Nat
  alf : List Nat
  deriving DecidableEq, Repr, Inhabited

end Sys2Proof

namespace Sys2Proof.Config

/-- A free value: the n-th value the spec leaves open (`State.fctr` counts them). Assumption 3. -/
opaque freeNat : Nat → Nat

/-- The serial number of GLB_SERIAL_LO and _HI, fixed at manufacture (R441). -/
opaque serial : Nat

/-- The Vendor ID of BIN_PCIE_ID, fixed at manufacture (R441). -/
opaque vendorId : Nat

/-- The random BOOT_ID of the n-th loader start (R410). -/
opaque bootId : Nat → Nat

/-- HMAC-SHA-256 of a message under a key, both as byte lists (R409, R379). -/
opaque hmac : List Nat → List Nat → List Nat

/-- SHA-384 of a byte list (R384, R387). -/
opaque sha384 : List Nat → List Nat

/-- AES-256-GCM: the tag of a ciphertext under a key and nonce, with additional authenticated data (R383). -/
opaque gcmTag : List Nat → List Nat → List Nat → List Nat → List Nat

/-- AES-256-GCM: the plaintext of a ciphertext under a key and nonce (R383). -/
opaque gcmPlain : List Nat → List Nat → List Nat → List Nat

/-- The random 16-byte NONCE of the n-th session opened (R382). -/
opaque nonce : Nat → List Nat

/-- ECDSA P-384: does this signature verify a digest under this public key (R362, R367)? -/
opaque sigOk : List Nat → List Nat → List Nat → Bool

/-- The name of the picture that an access unit decodes to, by the names of the pictures it refers to and its bytes (R96, R101). -/
opaque decTag : List Nat → Nat

/-- A sample of the picture of a name: (name, line, position, component) (R96, R101). -/
opaque decSample : Nat → Nat → Nat → Nat → Nat

/-- The HBM address of a job's first composed sample (R207), by channel, row number and column: placement in the pool is the
module's own (R302). -/
opaque inAddr : Nat → Nat → Nat → Nat

/-- The buffer that the module picks for the n-th picture of a channel among the free ones: which one is internal to the module (R164). -/
opaque refBuf : Nat → Nat → Nat

/-- The pipe's choice for a CTU (R157): from what R157 lets it depend on, and the CTUs coded before it in the job. -/
opaque codeCtu : List Nat → List CtuCode → CtuCode

/-- The merge candidates of a whole CTU under the codec's standard, from the same and the CTUs before it (R185). -/
opaque mergeCands : List Nat → List CtuCode → List (List MvCode)

/-- The bits of the NAL unit header, the slice header and the trailing bits of a slice (R179). -/
opaque headBits : List Nat → Nat

/-- Byte i of a slice, after its NAL unit header, under the syntax of the codec's standard: from the values of its header and its coded CTUs. -/
opaque sliceByte : List Nat → Nat → Nat

/-- A reconstructed sample after the loop filters, under the decoding process of the codec's standard: from the slice above, its own and the one
below in the subpicture, and the component, line and position. -/
opaque recSample : List Nat → List Nat → List Nat → Nat → Nat → Nat → Nat

/-- Byte i of the ALF APS that the statistics of these samples give, and its length (R144). -/
opaque alfByte : List Nat → Nat → Nat
opaque alfLen : List Nat → Nat

/-- The bytes of a non-slice NAL unit after its header: its kind and the values of R144–R146, under the syntax of the codec's standard. -/
opaque nalBytes : Nat → List Nat → List Nat

end Sys2Proof.Config
end

