-- ==== Sys2Proof/Machine/Tab.lean ====
section
/-!
DEFINITION. Sys2Proof/Machine/Tab.lean: a sparse table from natural numbers to plain data, in one canonical form: keys strictly
rising and no entry equal to what an unlisted key reads as. Registers, HBM bytes, channels, flows and queues that the
spec numbers are held so; equal tables are equal data.
-/

namespace Sys2Proof.Machine

/-- A sparse table: (key, value) pairs. What an unlisted key reads as is an argument of the operations. -/
abbrev Tab (α : Type) := List (Nat × α)

/-- The value at a key; `d` says what an unlisted key reads as. -/
def Tab.get {α : Type} (d : Nat → α) : Tab α → Nat → α
  | [], k => d k
  | (k', v) :: r, k => if k' = k then v else Tab.get d r k

/-- The table without a key. -/
def Tab.erase {α : Type} : Tab α → Nat → Tab α
  | [], _ => []
  | (k', v) :: r, k => if k' = k then Tab.erase r k else (k', v) :: Tab.erase r k

/-- Insert an entry before the first larger key. -/
def Tab.insert {α : Type} : Tab α → Nat → α → Tab α
  | [], k, v => [(k, v)]
  | (k', w) :: r, k, v => if k < k' then (k, v) :: (k', w) :: r else (k', w) :: Tab.insert r k v

/-- Write a key: writing what an unlisted key reads as removes the entry. -/
def Tab.put {α : Type} [DecidableEq α] (d : Nat → α) (t : Tab α) (k : Nat) (v : α) : Tab α :=
  if v = d k then Tab.erase t k else Tab.insert (Tab.erase t k) k v

/-- Every key of the table is above `n`. -/
def Tab.above {α : Type} (n : Nat) (t : Tab α) : Bool := t.all fun e => decide (n < e.1)

/-- The canonical form: keys strictly rising, no entry equal to what an unlisted key reads as. -/
def Tab.wf {α : Type} [DecidableEq α] (d : Nat → α) : Tab α → Bool
  | [] => true
  | (k, v) :: r => decide (v ≠ d k) && Tab.above k r && Tab.wf d r

/-- Write consecutive keys from `k` on. -/
def Tab.putList {α : Type} [DecidableEq α] (d : Nat → α) (t : Tab α) (k : Nat) : List α → Tab α
  | [] => t
  | v :: r => Tab.putList d (Tab.put d t k v) (k + 1) r

/-- Read `n` consecutive keys from `k` on. -/
def Tab.getList {α : Type} (d : Nat → α) (t : Tab α) (k : Nat) : Nat → List α
  | 0 => []
  | n + 1 => Tab.get d t k :: Tab.getList d t (k + 1) n

end Sys2Proof.Machine
end

