-- ==== Sys2Proof/Machine/RegMap.lean ====
section
/-!
DEFINITION. Sys2Proof/Machine/RegMap.lean: the register map, row for row as the register and field tables of spec/ give it (R439-R442): the address of every
register (`R.<NAME>`), the place of every field (`F.<REGISTER>_<FIELD>`), and the descriptor table that says each register's access
codes, reset value, field ranges (R4, R7) and whether a snapshot latches it (R426).
-/

namespace Sys2Proof.Machine

/-- The access codes of R4. -/
inductive Acc where
  | ro | rw | w1c | w1s | wo | rc | rwl
  deriving DecidableEq, Repr

/-- The values a field definition admits (R7). `signed n` reads the field as two's complement and bounds its
magnitude; `bytes a b` bounds each byte of the word that the write changes. -/
inductive Rng where
  | any
  | range (lo hi : Nat)
  | signed (n : Nat)
  | mult (m : Nat)
  | multRange (m lo hi : Nat)
  | oneOf (l : List Nat)
  | bytes (lo hi : Nat)
  | zeroOr (lo hi : Nat)
  deriving DecidableEq, Repr

/-- A field of a register: its top and bottom bit, its access code (R441), whether it is staged (R15), its range. -/
structure FieldDef where
  hi : Nat
  lo : Nat
  acc : Acc
  staged : Bool
  rng : Rng
  deriving DecidableEq, Repr

/-- One row of a register table: base address, one (stride, count) pair per index, reset value, whether a snapshot
latches it (R426), and its fields. -/
structure RegDef where
  base : Nat
  dims : List (Nat × Nat)
  reset : Nat
  latched : Bool
  fields : List FieldDef
  deriving DecidableEq, Repr

/-- A field by name: the address of its register and its bit range. -/
structure Fld where
  addr : Nat
  hi : Nat
  lo : Nat
  deriving DecidableEq, Repr


/-! ## Addresses -/
namespace R
abbrev MER_CTL : Nat := 0x20000
abbrev MER_STATUS : Nat := 0x20004
abbrev MER_FLAGS : Nat := 0x20008
abbrev MER_CAD_NUM : Nat := 0x20010
abbrev MER_CAD_DEN : Nat := 0x20014
abbrev MER_CAD_LINES : Nat := 0x20018
abbrev MER_ALT_NUM : Nat := 0x20020
abbrev MER_ALT_DEN : Nat := 0x20024
abbrev MER_SRC_PRI : Nat := 0x20028
abbrev MER_SRC_SEL : Nat := 0x2002C
abbrev MER_REF_CTL : Nat := 0x20030
abbrev MER_REF_OFS : Nat := 0x20034
abbrev MER_PLAUS : Nat := 0x20038
abbrev MER_RATE_TOL : Nat := 0x2003C
abbrev MER_POS_FRAME_LO : Nat := 0x20040
abbrev MER_POS_FRAME_HI : Nat := 0x20044
abbrev MER_POS_LINE : Nat := 0x20048
abbrev MER_REACQ : Nat := 0x2004C
abbrev MER_PHASE_ERR : Nat := 0x20050
abbrev MER_GLITCH_CNT : Nat := 0x20054
abbrev MER_STOP_CNT : Nat := 0x20058
abbrev MER_RATE_CNT : Nat := 0x2005C
abbrev MER_STEP_CNT : Nat := 0x20060
abbrev MER_REVERT_HOLD : Nat := 0x20064
abbrev MER_FRAME_LOAD_LO : Nat := 0x20068
abbrev MER_FRAME_LOAD_HI : Nat := 0x2006C
abbrev MER_CMD : Nat := 0x20070
abbrev MER_PEER_TOL : Nat := 0x20074
abbrev MER_PEER_ERR : Nat := 0x20078
abbrev MER_CH_ORIGIN (c : Nat) : Nat := 0x20100 + 0x4 * c
abbrev MER_CH_LINES (c : Nat) : Nat := 0x20180 + 0x4 * c
abbrev MER_CH_UNIT (c : Nat) : Nat := 0x20200 + 0x4 * c
abbrev PTP_CTL : Nat := 0x30000
abbrev PTP_STATUS : Nat := 0x30004
abbrev PTP_FLAGS : Nat := 0x30008
abbrev PTP_SW_TOL : Nat := 0x3000C
abbrev PTP_STC_NS : Nat := 0x30010
abbrev PTP_STC_SEC_LO : Nat := 0x30014
abbrev PTP_STC_SEC_HI : Nat := 0x30018
abbrev PTP_DCO_ADJ : Nat := 0x3001C
abbrev PTP_JUMP_THR : Nat := 0x30020
abbrev PTP_CMD : Nat := 0x30024
abbrev PTP_PORT_ASYM (p : Nat) : Nat := 0x30040 + 0x4 * p
abbrev PTP_X_CTL (x : Nat) : Nat := 0x30100 + 0x100 * x
abbrev PTP_X_STATUS (x : Nat) : Nat := 0x30104 + 0x100 * x
abbrev PTP_X_GM_LO (x : Nat) : Nat := 0x30108 + 0x100 * x
abbrev PTP_X_GM_HI (x : Nat) : Nat := 0x3010C + 0x100 * x
abbrev PTP_X_OFFSET (x : Nat) : Nat := 0x30110 + 0x100 * x
abbrev PTP_X_MPD (x : Nat) : Nat := 0x30114 + 0x100 * x
abbrev PTP_X_FREQ (x : Nat) : Nat := 0x30118 + 0x100 * x
abbrev PTP_X_SERVO (x : Nat) : Nat := 0x3011C + 0x100 * x
abbrev PTP_X_LOCK (x : Nat) : Nat := 0x30120 + 0x100 * x
abbrev PTP_X_STEP_THR (x : Nat) : Nat := 0x30124 + 0x100 * x
abbrev PTP_X_OUTLIER (x : Nat) : Nat := 0x30128 + 0x100 * x
abbrev PTP_X_TIMEOUT (x : Nat) : Nat := 0x3012C + 0x100 * x
abbrev PTP_X_SYNC_CNT (x : Nat) : Nat := 0x30130 + 0x100 * x
abbrev PTP_X_OUTLIER_CNT (x : Nat) : Nat := 0x30134 + 0x100 * x
abbrev PTP_X_STEP_CNT (x : Nat) : Nat := 0x30138 + 0x100 * x
abbrev PTP_X_UTC_OFS (x : Nat) : Nat := 0x3013C + 0x100 * x
abbrev PTP_TOUT_CTL (k : Nat) : Nat := 0x30400 + 0x40 * k
abbrev PTP_TOUT_START_LO (k : Nat) : Nat := 0x30404 + 0x40 * k
abbrev PTP_TOUT_START_MID (k : Nat) : Nat := 0x30408 + 0x40 * k
abbrev PTP_TOUT_START_HI (k : Nat) : Nat := 0x3040C + 0x40 * k
abbrev PTP_TOUT_PERIOD_LO (k : Nat) : Nat := 0x30410 + 0x40 * k
abbrev PTP_TOUT_PERIOD_HI (k : Nat) : Nat := 0x30414 + 0x40 * k
abbrev PTP_TOUT_WIDTH (k : Nat) : Nat := 0x30418 + 0x40 * k
abbrev PTP_TOUT_OFFSET (k : Nat) : Nat := 0x3041C + 0x40 * k
abbrev PTP_TOUT_PULSE_CNT (k : Nat) : Nat := 0x30420 + 0x40 * k
abbrev PTP_TIN_CTL (j : Nat) : Nat := 0x30600 + 0x40 * j
abbrev PTP_TIN_CAP_0 (j : Nat) : Nat := 0x30604 + 0x40 * j
abbrev PTP_TIN_CAP (j w : Nat) : Nat := 0x30608 + 0x40 * j + 0x4 * w
abbrev PTP_TIN_LOST (j : Nat) : Nat := 0x3061C + 0x40 * j
abbrev PTP_TIN_LEVEL (j : Nat) : Nat := 0x30620 + 0x40 * j
abbrev CKG_CORE_STATUS : Nat := 0x40000
abbrev CKG_LANE_STATUS : Nat := 0x40004
abbrev CKG_CORE_FLAGS : Nat := 0x40008
abbrev CKG_LANE_FLAGS : Nat := 0x4000C
abbrev CKG_LOCK : Nat := 0x40010
abbrev CKG_LOSS : Nat := 0x40014
abbrev CKG_CMD : Nat := 0x40018
abbrev CKG_CPLL_STATUS (m : Nat) : Nat := 0x40100 + 0x20 * m
abbrev CKG_CPLL_FREQ (m : Nat) : Nat := 0x40104 + 0x20 * m
abbrev CKG_CPLL_PHASE (m : Nat) : Nat := 0x40108 + 0x20 * m
abbrev CKG_CPLL_LOL_CNT (m : Nat) : Nat := 0x4010C + 0x20 * m
abbrev CKG_CPLL_RELOCK_CNT (m : Nat) : Nat := 0x40110 + 0x20 * m
abbrev CKG_LPLL_CTL (q : Nat) : Nat := 0x40400 + 0x20 * q
abbrev CKG_LPLL_STATUS (q : Nat) : Nat := 0x40404 + 0x20 * q
abbrev CKG_LPLL_LOL_CNT (q : Nat) : Nat := 0x40408 + 0x20 * q
abbrev CKG_CLKOUT_CTL (k : Nat) : Nat := 0x40600 + 0x10 * k
abbrev CKG_CLKOUT_DIV (k : Nat) : Nat := 0x40604 + 0x10 * k
abbrev ING_CTL : Nat := 0x50000
abbrev ING_FLAGS : Nat := 0x50004
abbrev ING_UNMATCHED_CNT : Nat := 0x50008
abbrev ING_PORT_OVH (p : Nat) : Nat := 0x50020 + 0x4 * p
abbrev ING_FT_DATA (w : Nat) : Nat := 0x50040 + 0x4 * w
abbrev ING_FT_CMD : Nat := 0x50080
abbrev ING_IN_CTL (i : Nat) : Nat := 0x51000 + 0x40 * i
abbrev ING_IN_SIZE (i : Nat) : Nat := 0x51004 + 0x40 * i
abbrev ING_IN_ORIGIN (i : Nat) : Nat := 0x51008 + 0x40 * i
abbrev ING_IN_LINES (i : Nat) : Nat := 0x5100C + 0x40 * i
abbrev ING_IN_UNIT (i : Nat) : Nat := 0x51010 + 0x40 * i
abbrev ING_IN_SUBST (i : Nat) : Nat := 0x51014 + 0x40 * i
abbrev ING_IN_FLAT_0 (i : Nat) : Nat := 0x51018 + 0x40 * i
abbrev ING_IN_FLAT_1 (i : Nat) : Nat := 0x5101C + 0x40 * i
abbrev ING_IN_STATUS (i : Nat) : Nat := 0x51020 + 0x40 * i
abbrev ING_IN_LINES_OK (i : Nat) : Nat := 0x51024 + 0x40 * i
abbrev ING_IN_LINES_SUB (i : Nat) : Nat := 0x51028 + 0x40 * i
abbrev ING_IN_PIC_SUB (i : Nat) : Nat := 0x5102C + 0x40 * i
abbrev DEC_CTL : Nat := 0x60000
abbrev DEC_ENG_LOAD (e : Nat) : Nat := 0x60010 + 0x4 * e
abbrev DEC_CTX_CTL (x : Nat) : Nat := 0x60100 + 0x40 * x
abbrev DEC_CTX_PID (x : Nat) : Nat := 0x60104 + 0x40 * x
abbrev DEC_CTX_SIZE (x : Nat) : Nat := 0x60108 + 0x40 * x
abbrev DEC_CTX_RATE (x : Nat) : Nat := 0x6010C + 0x40 * x
abbrev DEC_CTX_STATUS (x : Nat) : Nat := 0x60110 + 0x40 * x
abbrev DEC_CTX_PIC_CNT (x : Nat) : Nat := 0x60114 + 0x40 * x
abbrev DEC_CTX_CONC_CNT (x : Nat) : Nat := 0x60118 + 0x40 * x
abbrev DEC_CTX_MISSREF_CNT (x : Nat) : Nat := 0x6011C + 0x40 * x
abbrev DEC_CTX_ERR_CNT (x : Nat) : Nat := 0x60120 + 0x40 * x
abbrev DEC_CTX_LATE_CNT (x : Nat) : Nat := 0x60124 + 0x40 * x
abbrev COMP_CTL : Nat := 0x70000
abbrev COMP_FLAGS : Nat := 0x70004
abbrev COMP_LOAD : Nat := 0x70008
abbrev COMP_FENCE_LO (k : Nat) : Nat := 0x70800 + 0x8 * k
abbrev COMP_FENCE_HI (k : Nat) : Nat := 0x70804 + 0x8 * k
abbrev COMP_CH_CTL (c : Nat) : Nat := 0x71000 + 0x20 * c
abbrev COMP_CH_CANVAS (c : Nat) : Nat := 0x71004 + 0x20 * c
abbrev COMP_CH_FLIP (c : Nat) : Nat := 0x71008 + 0x20 * c
abbrev COMP_CH_STATUS (c : Nat) : Nat := 0x7100C + 0x20 * c
abbrev COMP_CH_PIC_CNT (c : Nat) : Nat := 0x71010 + 0x20 * c
abbrev COMP_CH_LOAD (c : Nat) : Nat := 0x71014 + 0x20 * c
abbrev COMP_CH_SET_CTL (c : Nat) : Nat := 0x71400 + 0x40 * c
abbrev COMP_CH_SET_ZORDER (c : Nat) : Nat := 0x71404 + 0x40 * c
abbrev COMP_CH_SET_BG_0 (c : Nat) : Nat := 0x71408 + 0x40 * c
abbrev COMP_CH_SET_BG_1 (c : Nat) : Nat := 0x7140C + 0x40 * c
abbrev COMP_CH_SET_MESH (c : Nat) : Nat := 0x71410 + 0x40 * c
abbrev COMP_CH_COMMIT (c : Nat) : Nat := 0x71414 + 0x40 * c
abbrev COMP_CH_TARGET_LO (c : Nat) : Nat := 0x71418 + 0x40 * c
abbrev COMP_CH_TARGET_HI (c : Nat) : Nat := 0x7141C + 0x40 * c
abbrev COMP_CH_SET_STATUS (c : Nat) : Nat := 0x71420 + 0x40 * c
abbrev COMP_CH_HELD_CNT (c : Nat) : Nat := 0x71424 + 0x40 * c
abbrev COMP_CH_RETIRE_CNT (c : Nat) : Nat := 0x71428 + 0x40 * c
abbrev COMP_CH_L_CTL (c g : Nat) : Nat := 0x72000 + 0x400 * c + 0x80 * g
abbrev COMP_CH_L_SRC_XY (c g : Nat) : Nat := 0x72004 + 0x400 * c + 0x80 * g
abbrev COMP_CH_L_SRC_WH (c g : Nat) : Nat := 0x72008 + 0x400 * c + 0x80 * g
abbrev COMP_CH_L_DST_XY (c g : Nat) : Nat := 0x7200C + 0x400 * c + 0x80 * g
abbrev COMP_CH_L_ALPHA (c g : Nat) : Nat := 0x72010 + 0x400 * c + 0x80 * g
abbrev COMP_CH_L_ADDR_LO (c g : Nat) : Nat := 0x72014 + 0x400 * c + 0x80 * g
abbrev COMP_CH_L_ADDR_HI (c g : Nat) : Nat := 0x72018 + 0x400 * c + 0x80 * g
abbrev COMP_CH_L_PITCH (c g : Nat) : Nat := 0x7201C + 0x400 * c + 0x80 * g
abbrev COMP_CH_L_COMMIT (c g : Nat) : Nat := 0x72020 + 0x400 * c + 0x80 * g
abbrev COMP_CH_L_TARGET_LO (c g : Nat) : Nat := 0x72024 + 0x400 * c + 0x80 * g
abbrev COMP_CH_L_TARGET_HI (c g : Nat) : Nat := 0x72028 + 0x400 * c + 0x80 * g
abbrev COMP_CH_L_STATUS (c g : Nat) : Nat := 0x7202C + 0x400 * c + 0x80 * g
abbrev COMP_CH_L_HELD_CNT (c g : Nat) : Nat := 0x72030 + 0x400 * c + 0x80 * g
abbrev COMP_CH_L_RETIRE_CNT (c g : Nat) : Nat := 0x72034 + 0x400 * c + 0x80 * g
abbrev COMP_CLIP_CTL (d : Nat) : Nat := 0x7A000 + 0x20 * d
abbrev COMP_CLIP_SIZE (d : Nat) : Nat := 0x7A004 + 0x20 * d
abbrev COMP_CLIP_ADDR_LO (d : Nat) : Nat := 0x7A008 + 0x20 * d
abbrev COMP_CLIP_ADDR_HI (d : Nat) : Nat := 0x7A00C + 0x20 * d
abbrev COMP_CLIP_LINE_PITCH (d : Nat) : Nat := 0x7A010 + 0x20 * d
abbrev COMP_CLIP_PIC_PITCH (d : Nat) : Nat := 0x7A014 + 0x20 * d
abbrev COMP_CLIP_FRAMES (d : Nat) : Nat := 0x7A018 + 0x20 * d
abbrev ENC_CH_CTL (n : Nat) : Nat := 0x80000 + 0x800 * n
abbrev ENC_CH_SIZE (n : Nat) : Nat := 0x80004 + 0x800 * n
abbrev ENC_CH_FORMAT (n : Nat) : Nat := 0x80008 + 0x800 * n
abbrev ENC_CH_RATE (n : Nat) : Nat := 0x8000C + 0x800 * n
abbrev ENC_CH_GDR (n : Nat) : Nat := 0x80010 + 0x800 * n
abbrev ENC_CH_DBK (n : Nat) : Nat := 0x80014 + 0x800 * n
abbrev ENC_CH_CQP (n : Nat) : Nat := 0x80018 + 0x800 * n
abbrev ENC_CH_LAYOUT (n : Nat) : Nat := 0x8001C + 0x800 * n
abbrev ENC_CH_COLW (n j : Nat) : Nat := 0x80020 + 0x800 * n + 0x4 * j
abbrev ENC_CH_ROWH (n j : Nat) : Nat := 0x80030 + 0x800 * n + 0x4 * j
abbrev ENC_CH_MDCV (n j : Nat) : Nat := 0x80040 + 0x800 * n + 0x4 * j
abbrev ENC_CH_CLL (n : Nat) : Nat := 0x80058 + 0x800 * n
abbrev ENC_CH_STATUS (n : Nat) : Nat := 0x80060 + 0x800 * n
abbrev ENC_CH_CMD (n : Nat) : Nat := 0x80064 + 0x800 * n
abbrev ENC_CH_PIC_CNT (n : Nat) : Nat := 0x80068 + 0x800 * n
abbrev ENC_CH_SLICE_CNT (n : Nat) : Nat := 0x8006C + 0x800 * n
abbrev ENC_CH_RESTART_CNT (n : Nat) : Nat := 0x80070 + 0x800 * n
abbrev ENC_CH_CLVS_CNT (n : Nat) : Nat := 0x80074 + 0x800 * n
abbrev ENC_CH_K_LO (n : Nat) : Nat := 0x80078 + 0x800 * n
abbrev ENC_CH_K_HI (n : Nat) : Nat := 0x8007C + 0x800 * n
abbrev ENC_CTL : Nat := 0x90000
abbrev ENC_FLAGS : Nat := 0x90004
abbrev ENC_LOAD_PIX : Nat := 0x90008
abbrev ENC_LOAD_SMP : Nat := 0x9000C
abbrev ENC_CH_ME_RANGE (n : Nat) : Nat := 0x80200 + 0x800 * n
abbrev ENC_CH_REF_ADDR_LO (n : Nat) : Nat := 0x80204 + 0x800 * n
abbrev ENC_CH_REF_ADDR_HI (n : Nat) : Nat := 0x80208 + 0x800 * n
abbrev ENC_CH_REF_SIZE (n : Nat) : Nat := 0x8020C + 0x800 * n
abbrev ENC_CH_REF_BUFS (n : Nat) : Nat := 0x80210 + 0x800 * n
abbrev ENC_CH_REF_ERR_CNT (n : Nat) : Nat := 0x80214 + 0x800 * n
abbrev ENC_PIPE_WARM_CNT (p : Nat) : Nat := 0x90100 + 0x10 * p
abbrev ENC_PIPE_COLD_CNT (p : Nat) : Nat := 0x90104 + 0x10 * p
abbrev ENC_PIPE_FILL_SMP (p : Nat) : Nat := 0x90108 + 0x10 * p
abbrev ENC_PIPE_PAR_CNT (p : Nat) : Nat := 0x9010C + 0x10 * p
abbrev ENC_CH_RC_LAT (n : Nat) : Nat := 0x80100 + 0x800 * n
abbrev ENC_CH_RC_MINLAT (n : Nat) : Nat := 0x80104 + 0x800 * n
abbrev ENC_CH_RC_RATE (n : Nat) : Nat := 0x80108 + 0x800 * n
abbrev ENC_CH_RC_QP (n : Nat) : Nat := 0x8010C + 0x800 * n
abbrev ENC_CH_RC_FLOOR (n : Nat) : Nat := 0x80110 + 0x800 * n
abbrev ENC_CH_RC_RECOV (n : Nat) : Nat := 0x80114 + 0x800 * n
abbrev ENC_CH_RC_CPB (n : Nat) : Nat := 0x80118 + 0x800 * n
abbrev ENC_CH_RC_TARGET (n : Nat) : Nat := 0x8011C + 0x800 * n
abbrev ENC_CH_RC_BITS (n : Nat) : Nat := 0x80120 + 0x800 * n
abbrev ENC_CH_RC_DEFICIT (n : Nat) : Nat := 0x80124 + 0x800 * n
abbrev ENC_CH_RC_VMAX (n : Nat) : Nat := 0x80128 + 0x800 * n
abbrev ENC_CH_RC_DIP_CNT (n : Nat) : Nat := 0x8012C + 0x800 * n
abbrev ENC_CH_RC_FLOOR_CTU (n : Nat) : Nat := 0x80130 + 0x800 * n
abbrev ENC_CH_RC_CAP_CNT (n : Nat) : Nat := 0x80134 + 0x800 * n
abbrev DIS_CTL : Nat := 0xA0000
abbrev DIS_STATUS : Nat := 0xA0004
abbrev DIS_FLAGS : Nat := 0xA0008
abbrev DIS_LAG : Nat := 0xA000C
abbrev DIS_RETIRE : Nat := 0xA0010
abbrev DIS_CMD : Nat := 0xA0014
abbrev DIS_LB_ADDR_LO : Nat := 0xA0018
abbrev DIS_LB_ADDR_HI : Nat := 0xA001C
abbrev DIS_LB_HEAD : Nat := 0xA0020
abbrev DIS_LB_WARM_FIRST : Nat := 0xA0024
abbrev DIS_LB_WARM_CNT : Nat := 0xA0028
abbrev DIS_JOB_CNT : Nat := 0xA002C
abbrev DIS_REPLAY_CNT : Nat := 0xA0030
abbrev DIS_STANDIN_CNT : Nat := 0xA0034
abbrev DIS_DLMISS_CNT : Nat := 0xA0038
abbrev DIS_MIGRATE_CNT : Nat := 0xA003C
abbrev DIS_QUAD_CTL (q : Nat) : Nat := 0xA0040 + 0x4 * q
abbrev DIS_CH_CTL (n : Nat) : Nat := 0xA0080 + 0x4 * n
abbrev DIS_TRK_CTL : Nat := 0xA0100
abbrev DIS_TRK_MASK : Nat := 0xA0104
abbrev DIS_TRK_STATUS : Nat := 0xA0108
abbrev DIS_TRK_NEXT : Nat := 0xA010C
abbrev DIS_TRK_CMD : Nat := 0xA0110
abbrev DIS_PIPE_STATUS (p : Nat) : Nat := 0xA0400 + 0x10 * p
abbrev DIS_PIPE_JOB_CNT (p : Nat) : Nat := 0xA0404 + 0x10 * p
abbrev DIS_PIPE_FAULT_CNT (p : Nat) : Nat := 0xA0408 + 0x10 * p
abbrev DIS_PIPE_LAST_FAULT (p : Nat) : Nat := 0xA040C + 0x10 * p
abbrev EGS_CTL : Nat := 0xB0000
abbrev EGS_FLAGS : Nat := 0xB0004
abbrev EGS_SAMPLE : Nat := 0xB0008
abbrev EGS_FT_DATA (w : Nat) : Nat := 0xB0040 + 0x4 * w
abbrev EGS_FT_CMD : Nat := 0xB00C0
abbrev EGS_PORT_OVH (p : Nat) : Nat := 0xB0100 + 0x40 * p
abbrev EGS_PORT_RESV (p : Nat) : Nat := 0xB0104 + 0x40 * p
abbrev EGS_PORT_PIRSUM (p : Nat) : Nat := 0xB0108 + 0x40 * p
abbrev EGS_PORT_PBOUND (p : Nat) : Nat := 0xB010C + 0x40 * p
abbrev EGS_PORT_DBOUND (p : Nat) : Nat := 0xB0110 + 0x40 * p
abbrev EGS_PORT_QDEPTH (p : Nat) : Nat := 0xB0114 + 0x40 * p
abbrev EGS_PORT_QDELAY (p : Nat) : Nat := 0xB0118 + 0x40 * p
abbrev EGS_PORT_QDELAY_MAX (p : Nat) : Nat := 0xB011C + 0x40 * p
abbrev EGS_PORT_TX_CNT (p : Nat) : Nat := 0xB0120 + 0x40 * p
abbrev EGS_PORT_DOWN_CNT (p : Nat) : Nat := 0xB0124 + 0x40 * p
abbrev EGS_CH_DONDIFF (c : Nat) : Nat := 0xB0400 + 0x4 * c
abbrev TWN_CTL : Nat := 0xC0000
abbrev TWN_STATUS : Nat := 0xC0004
abbrev TWN_FLAGS : Nat := 0xC0008
abbrev TWN_CH_MASK : Nat := 0xC000C
abbrev TWN_DIG_TO : Nat := 0xC0010
abbrev TWN_ADOPT : Nat := 0xC0014
abbrev TWN_PAIR_TAG : Nat := 0xC0018
abbrev TWN_CMD : Nat := 0xC001C
abbrev TWN_REC_MAX : Nat := 0xC0020
abbrev TWN_REC_WORDS : Nat := 0xC0024
abbrev TWN_HOLD_MAX : Nat := 0xC0028
abbrev TWN_MATCH_CNT : Nat := 0xC0040
abbrev TWN_MISMATCH_CNT : Nat := 0xC0044
abbrev TWN_LATE_CNT : Nat := 0xC0048
abbrev TWN_DISCARD_CNT : Nat := 0xC004C
abbrev TWN_TAKEOVER_CNT : Nat := 0xC0050
abbrev TWN_YIELD_CNT : Nat := 0xC0054
abbrev TWN_REC_LATE_CNT : Nat := 0xC0058
abbrev TWN_QUIET_CNT : Nat := 0xC005C
abbrev TWN_CH_STATUS (c : Nat) : Nat := 0xC0100 + 0x4 * c
abbrev CNV_CTL : Nat := 0xD0000
abbrev CNV_STATUS : Nat := 0xD0004
abbrev CNV_FLAGS : Nat := 0xD0008
abbrev CNV_GRID : Nat := 0xD000C
abbrev CNV_PORTS : Nat := 0xD0010
abbrev CNV_GROUP_TAG : Nat := 0xD0014
abbrev CNV_TIMING : Nat := 0xD0018
abbrev CNV_GRATE : Nat := 0xD001C
abbrev CNV_GDIGEST : Nat := 0xD0020
abbrev CNV_ALLOC : Nat := 0xD0024
abbrev CNV_LATE_LO : Nat := 0xD0028
abbrev CNV_LATE_HI : Nat := 0xD002C
abbrev CNV_ROUND_CNT : Nat := 0xD0030
abbrev CNV_LATE_CNT : Nat := 0xD0034
abbrev CNV_CAP_CNT : Nat := 0xD0038
abbrev CNV_SPLIT_CNT : Nat := 0xD003C
abbrev CNV_IGNORED_CNT : Nat := 0xD0040
abbrev CNV_RELAY_DROP_CNT : Nat := 0xD0044
abbrev CNV_TC_NCOL (j : Nat) : Nat := 0xD0100 + 0x20 * j
abbrev CNV_TC_COLW (j h : Nat) : Nat := 0xD0104 + 0x20 * j + 0x4 * h
abbrev CNV_TR_NROW (i : Nat) : Nat := 0xD0200 + 0x10 * i
abbrev CNV_TR_ROWH (i g : Nat) : Nat := 0xD0204 + 0x10 * i + 0x4 * g
abbrev CNV_MAP (m : Nat) : Nat := 0xD0300 + 0x4 * m
abbrev CNV_LINK_CTL (p : Nat) : Nat := 0xD0400 + 0x40 * p
abbrev CNV_LINK_STATUS (p : Nat) : Nat := 0xD0404 + 0x40 * p
abbrev CNV_LINK_DELAY (p : Nat) : Nat := 0xD0408 + 0x40 * p
abbrev CNV_LINK_TX_CNT (p : Nat) : Nat := 0xD040C + 0x40 * p
abbrev CNV_LINK_RX_CNT (p : Nat) : Nat := 0xD0410 + 0x40 * p
abbrev CNV_LINK_CRC_CNT (p : Nat) : Nat := 0xD0414 + 0x40 * p
abbrev CNV_LINK_REPLAY_CNT (p : Nat) : Nat := 0xD0418 + 0x40 * p
abbrev CNV_LINK_DOWN_CNT (p : Nat) : Nat := 0xD041C + 0x40 * p
abbrev CNV_LINK_DISCARD_CNT (p : Nat) : Nat := 0xD0420 + 0x40 * p
abbrev LNE_FLAGS : Nat := 0xE0000
abbrev LNE_TRAIN : Nat := 0xE0004
abbrev LNE_FEC : Nat := 0xE0008
abbrev LNE_QUAD_CTL (q : Nat) : Nat := 0xE0100 + 0x4 * q
abbrev LNE_EPORT_STATUS (p : Nat) : Nat := 0xE0200 + 0x20 * p
abbrev LNE_SPORT_STATUS (p : Nat) : Nat := 0xE0300 + 0x20 * p
abbrev LNE_XPORT_SKEW (y p : Nat) : Nat := 0xE0204 + 0x100 * y + 0x20 * p
abbrev LNE_XPORT_RXLAT (y p : Nat) : Nat := 0xE0208 + 0x100 * y + 0x20 * p
abbrev LNE_XPORT_FEC_CORR_CNT (y p : Nat) : Nat := 0xE020C + 0x100 * y + 0x20 * p
abbrev LNE_XPORT_FEC_UNCORR_CNT (y p : Nat) : Nat := 0xE0210 + 0x100 * y + 0x20 * p
abbrev LNE_XPORT_RETRAIN_CNT (y p : Nat) : Nat := 0xE0214 + 0x100 * y + 0x20 * p
abbrev LNE_LANE_CFG (l w : Nat) : Nat := 0xE1000 + 0x40 * l + 0x4 * w
abbrev LNE_LANE_STATUS (l : Nat) : Nat := 0xE1010 + 0x40 * l
abbrev LNE_LANE_TRIM (l : Nat) : Nat := 0xE1014 + 0x40 * l
abbrev LNE_LANE_EYE (l : Nat) : Nat := 0xE1018 + 0x40 * l
abbrev LNE_LANE_PRBS_ERR (l : Nat) : Nat := 0xE101C + 0x40 * l
abbrev LNE_LANE_LOSS_CNT (l : Nat) : Nat := 0xE1020 + 0x40 * l
abbrev LNE_LANE_TEST (l : Nat) : Nat := 0xE1024 + 0x40 * l
abbrev ETH_FLAGS : Nat := 0xF0000
abbrev ETH_IGMP : Nat := 0xF0004
abbrev ETH_PORT_CTL (p : Nat) : Nat := 0xF0100 + 0x80 * p
abbrev ETH_PORT_STATUS (p : Nat) : Nat := 0xF0104 + 0x80 * p
abbrev ETH_PORT_MAC_LO (p : Nat) : Nat := 0xF0108 + 0x80 * p
abbrev ETH_PORT_MAC_HI (p : Nat) : Nat := 0xF010C + 0x80 * p
abbrev ETH_PORT_IPV4 (p : Nat) : Nat := 0xF0110 + 0x80 * p
abbrev ETH_PORT_IPV6_LL (p w : Nat) : Nat := 0xF0114 + 0x80 * p + 0x4 * w
abbrev ETH_PORT_IPV6_GL (p w : Nat) : Nat := 0xF0124 + 0x80 * p + 0x4 * w
abbrev ETH_PORT_RX_FRAME_CNT (p : Nat) : Nat := 0xF0134 + 0x80 * p
abbrev ETH_PORT_RX_FCS_CNT (p : Nat) : Nat := 0xF0138 + 0x80 * p
abbrev ETH_PORT_RX_DISCARD_CNT (p : Nat) : Nat := 0xF013C + 0x80 * p
abbrev ETH_PORT_TX_FRAME_CNT (p : Nat) : Nat := 0xF0140 + 0x80 * p
abbrev ETH_PORT_RESP_CNT (p : Nat) : Nat := 0xF0144 + 0x80 * p
abbrev ETH_PORT_JOIN_CNT (p : Nat) : Nat := 0xF0148 + 0x80 * p
abbrev HBM_S_CTL (s : Nat) : Nat := 0x100000 + 0x10000 * s
abbrev HBM_S_STATUS (s : Nat) : Nat := 0x100004 + 0x10000 * s
abbrev HBM_S_FLAGS (s : Nat) : Nat := 0x100008 + 0x10000 * s
abbrev HBM_S_POOL (s : Nat) : Nat := 0x10000C + 0x10000 * s
abbrev HBM_S_POOL_NEED (s : Nat) : Nat := 0x100010 + 0x10000 * s
abbrev HBM_S_AGE (s : Nat) : Nat := 0x100014 + 0x10000 * s
abbrev HBM_S_SCHED (s : Nat) : Nat := 0x100018 + 0x10000 * s
abbrev HBM_S_RH (s : Nat) : Nat := 0x10001C + 0x10000 * s
abbrev HBM_S_RH_HOLD (s : Nat) : Nat := 0x100020 + 0x10000 * s
abbrev HBM_S_SCRUB (s : Nat) : Nat := 0x100024 + 0x10000 * s
abbrev HBM_S_TEMP (s : Nat) : Nat := 0x100028 + 0x10000 * s
abbrev HBM_S_CE_CNT (s : Nat) : Nat := 0x10002C + 0x10000 * s
abbrev HBM_S_UE_CNT (s : Nat) : Nat := 0x100030 + 0x10000 * s
abbrev HBM_S_UE_ADDR_LO (s : Nat) : Nat := 0x100034 + 0x10000 * s
abbrev HBM_S_UE_ADDR_HI (s : Nat) : Nat := 0x100038 + 0x10000 * s
abbrev HBM_S_RFM_CNT (s : Nat) : Nat := 0x10003C + 0x10000 * s
abbrev HBM_S_THROTTLE_CNT (s : Nat) : Nat := 0x100040 + 0x10000 * s
abbrev HBM_S_ISO_RH_CNT (s : Nat) : Nat := 0x100044 + 0x10000 * s
abbrev HBM_S_THROTTLED (s : Nat) : Nat := 0x100048 + 0x10000 * s
abbrev HBM_S_REPAIR (s : Nat) : Nat := 0x10004C + 0x10000 * s
abbrev HBM_S_TRAIN_MS (s : Nat) : Nat := 0x100050 + 0x10000 * s
abbrev HBM_S_PC_EYE (s p : Nat) : Nat := 0x100100 + 0x10000 * s + 0x10 * p
abbrev HBM_S_PC_CE_CNT (s p : Nat) : Nat := 0x100104 + 0x10000 * s + 0x10 * p
abbrev HBM_S_PC_ACT_CNT (s p : Nat) : Nat := 0x100108 + 0x10000 * s + 0x10 * p
abbrev HBM_S_PC_RFM_CNT (s p : Nat) : Nat := 0x10010C + 0x10000 * s + 0x10 * p
abbrev HBM_CTL : Nat := 0x10F000
abbrev HBM_MESH_ADDR_LO : Nat := 0x10F004
abbrev HBM_MESH_ADDR_HI : Nat := 0x10F008
abbrev HBM_HOLE_CNT : Nat := 0x10F00C
abbrev AUD_CTL : Nat := 0x140000
abbrev AUD_STATUS : Nat := 0x140004
abbrev AUD_FLAGS : Nat := 0x140008
abbrev AUD_CLK : Nat := 0x14000C
abbrev AUD_ERR : Nat := 0x140010
abbrev AUD_FREQ : Nat := 0x140014
abbrev AUD_POS_LO : Nat := 0x140018
abbrev AUD_POS_HI : Nat := 0x14001C
abbrev AUD_NEED : Nat := 0x140020
abbrev AUD_CMD : Nat := 0x140024
abbrev AUD_AIN_CTL (i : Nat) : Nat := 0x140100 + 0x80 * i
abbrev AUD_AIN_STATUS (i : Nat) : Nat := 0x140104 + 0x80 * i
abbrev AUD_AIN_PAR_CNT (i : Nat) : Nat := 0x140108 + 0x80 * i
abbrev AUD_AIN_CRC_CNT (i : Nat) : Nat := 0x14010C + 0x80 * i
abbrev AUD_AIN_SLIP_CNT (i : Nat) : Nat := 0x140110 + 0x80 * i
abbrev AUD_AIN_TS_NS (i : Nat) : Nat := 0x140114 + 0x80 * i
abbrev AUD_AIN_TS_SEC_LO (i : Nat) : Nat := 0x140118 + 0x80 * i
abbrev AUD_AIN_TS_SEC_HI (i : Nat) : Nat := 0x14011C + 0x80 * i
abbrev AUD_AIN_CS_A (i w : Nat) : Nat := 0x140120 + 0x80 * i + 0x4 * w
abbrev AUD_AIN_CS_B (i w : Nat) : Nat := 0x140138 + 0x80 * i + 0x4 * w
abbrev AUD_AOUT_CTL (o : Nat) : Nat := 0x140500 + 0x80 * o
abbrev AUD_AOUT_TRIM (o : Nat) : Nat := 0x140504 + 0x80 * o
abbrev AUD_AOUT_STATUS (o : Nat) : Nat := 0x140508 + 0x80 * o
abbrev AUD_AOUT_DELAY (o : Nat) : Nat := 0x14050C + 0x80 * o
abbrev AUD_AOUT_MUTE_CNT (o : Nat) : Nat := 0x140510 + 0x80 * o
abbrev AUD_AOUT_UNDER_CNT (o : Nat) : Nat := 0x140514 + 0x80 * o
abbrev AUD_AOUT_UNMUTE (o : Nat) : Nat := 0x140518 + 0x80 * o
abbrev AUD_AOUT_CS (o w : Nat) : Nat := 0x140520 + 0x80 * o + 0x4 * w
abbrev AUD_TDM_CTL (t : Nat) : Nat := 0x140900 + 0x80 * t
abbrev AUD_TDM_MASK (t : Nat) : Nat := 0x140904 + 0x80 * t
abbrev AUD_TDM_MASK_PEND (t : Nat) : Nat := 0x140908 + 0x80 * t
abbrev AUD_TDM_CMD (t : Nat) : Nat := 0x14090C + 0x80 * t
abbrev AUD_TDM_STATUS (t : Nat) : Nat := 0x140910 + 0x80 * t
abbrev AUD_TDM_TRIM (t : Nat) : Nat := 0x140914 + 0x80 * t
abbrev AUD_TDM_DELAY (t : Nat) : Nat := 0x140918 + 0x80 * t
abbrev AUD_TDM_SLIP_CNT (t : Nat) : Nat := 0x14091C + 0x80 * t
abbrev AUD_TDM_SRC (t w : Nat) : Nat := 0x140920 + 0x80 * t + 0x4 * w
abbrev AUD_TDM_UNDER_CNT (t : Nat) : Nat := 0x140940 + 0x80 * t
abbrev AUD_RXS_CTL (r : Nat) : Nat := 0x141000 + 0x20 * r
abbrev AUD_RXS_STATUS (r : Nat) : Nat := 0x141004 + 0x20 * r
abbrev AUD_RXS_PKT_CNT (r : Nat) : Nat := 0x141008 + 0x20 * r
abbrev AUD_RXS_LATE_CNT (r : Nat) : Nat := 0x14100C + 0x20 * r
abbrev AUD_TXS_CTL (s : Nat) : Nat := 0x141800 + 0x20 * s
abbrev AUD_TXS_FLOW (s : Nat) : Nat := 0x141804 + 0x20 * s
abbrev AUD_TXS_TRIM (s : Nat) : Nat := 0x141808 + 0x20 * s
abbrev AUD_TXS_DELAY (s : Nat) : Nat := 0x14180C + 0x20 * s
abbrev AUD_TXS_PKT_CNT (s : Nat) : Nat := 0x141810 + 0x20 * s
abbrev AUD_TXS_UNDER_CNT (s : Nat) : Nat := 0x141814 + 0x20 * s
abbrev AUD_NTX_SRC (k : Nat) : Nat := 0x142000 + 0x4 * k
abbrev CAL_CTL : Nat := 0x150000
abbrev CAL_STATUS : Nat := 0x150004
abbrev CAL_FLAGS : Nat := 0x150008
abbrev CAL_TRIG : Nat := 0x15000C
abbrev CAL_WIN : Nat := 0x150010
abbrev CAL_STEP : Nat := 0x150014
abbrev CAL_CMD : Nat := 0x150018
abbrev CAL_CHK (k : Nat) : Nat := 0x150020 + 0x4 * k
abbrev CAL_RUN_CNT : Nat := 0x150040
abbrev CAL_REJECT_CNT : Nat := 0x150044
abbrev CAL_PLL_PEND : Nat := 0x150048
abbrev CAL_AVS_CTL (q : Nat) : Nat := 0x150100 + 0x20 * q
abbrev CAL_AVS_VOLT (q : Nat) : Nat := 0x150104 + 0x20 * q
abbrev CAL_AVS_RESID (q : Nat) : Nat := 0x150108 + 0x20 * q
abbrev CAL_FS_CTL (q : Nat) : Nat := 0x15010C + 0x20 * q
abbrev CAL_FS_STATUS (q : Nat) : Nat := 0x150110 + 0x20 * q
abbrev CAL_FS_CHG_CNT (q : Nat) : Nat := 0x150114 + 0x20 * q
abbrev CAL_TP : Nat := 0x150200
abbrev CAL_JIT_CTL : Nat := 0x150204
abbrev CAL_PIPE_TEMP (p : Nat) : Nat := 0x150400 + 0x4 * p
abbrev CAL_SENSE (v : Nat) : Nat := 0x150500 + 0x4 * v
abbrev CAL_JIT_MARGIN (i : Nat) : Nat := 0x150800 + 0x10 * i
abbrev CAL_JIT_THR (i : Nat) : Nat := 0x150804 + 0x10 * i
abbrev CAL_JIT_WARN_CNT (i : Nat) : Nat := 0x150808 + 0x10 * i
abbrev GLB_ID_PART : Nat := 0x0
abbrev GLB_ID_REV : Nat := 0x4
abbrev GLB_MID : Nat := 0x8
abbrev GLB_SERIAL_LO : Nat := 0xC
abbrev GLB_SERIAL_HI : Nat := 0x10
abbrev GLB_FW_VERSION : Nat := 0x14
abbrev GLB_RESET_CAUSE : Nat := 0x18
abbrev GLB_RESET : Nat := 0x1C
abbrev GLB_FRESET (w : Nat) : Nat := 0x20 + 0x4 * w
abbrev GLB_FEAT_OFFER (w : Nat) : Nat := 0x40 + 0x4 * w
abbrev GLB_FEAT_ACCEPT (w : Nat) : Nat := 0x50 + 0x4 * w
abbrev GLB_FEAT_CTL : Nat := 0x60
abbrev GLB_LAST_FAULT_FN : Nat := 0x64
abbrev GLB_RDY (x : Nat) : Nat := 0x100 + 0x4 * x
abbrev CFG_STATUS : Nat := 0x190000
abbrev CFG_FLAGS : Nat := 0x190004
abbrev CFG_CMD : Nat := 0x190008
abbrev CFG_IMG_LEN : Nat := 0x19000C
abbrev CFG_BUILD_ID : Nat := 0x190010
abbrev CFG_REC_CNT : Nat := 0x190014
abbrev CFG_SKIP_CNT : Nat := 0x190018
abbrev CFG_ERR_REC : Nat := 0x19001C
abbrev CFG_ERR_ADDR : Nat := 0x190020
abbrev CFG_ERR_CODE : Nat := 0x190024
abbrev CFG_SET_FMT : Nat := 0x190028
abbrev CFG_KEYSLOT : Nat := 0x19002C
abbrev CFG_FLASH : Nat := 0x190030
abbrev UPD_CTL : Nat := 0x160000
abbrev UPD_STATUS : Nat := 0x160004
abbrev UPD_FLAGS : Nat := 0x160008
abbrev UPD_IDLE : Nat := 0x16000C
abbrev UPD_TRIAL : Nat := 0x160010
abbrev UPD_PARCELS : Nat := 0x160014
abbrev UPD_CMD : Nat := 0x160018
abbrev UPD_TRIAL_STATUS : Nat := 0x16001C
abbrev UPD_REFUSE_CNT : Nat := 0x160020
abbrev UPD_LAST_REFUSE : Nat := 0x160024
abbrev UPD_IDLE_MIN : Nat := 0x160028
abbrev UPD_ERR : Nat := 0x16002C
abbrev UPD_DIGEST (w : Nat) : Nat := 0x160030 + 0x4 * w
abbrev UPD_FB_VERSION : Nat := 0x160060
abbrev BIN_STATUS : Nat := 0x10000
abbrev BIN_FAULT : Nat := 0x10004
abbrev BIN_FAULT_MASK : Nat := 0x10008
abbrev BIN_CMD : Nat := 0x1000C
abbrev BIN_THERM : Nat := 0x10010
abbrev BIN_TEMP : Nat := 0x10014
abbrev BIN_VIN : Nat := 0x10018
abbrev BIN_WDOG : Nat := 0x1001C
abbrev BIN_WDOG_KICK : Nat := 0x10020
abbrev BIN_UPTIME_LO : Nat := 0x10024
abbrev BIN_UPTIME_HI : Nat := 0x10028
abbrev BIN_STC_SEC : Nat := 0x1002C
abbrev BIN_SVC_CTL : Nat := 0x10030
abbrev BIN_FH_HEAD : Nat := 0x10034
abbrev BIN_FH_CNT : Nat := 0x10038
abbrev BIN_FH_LOST : Nat := 0x1003C
abbrev BIN_FH_SEL : Nat := 0x10040
abbrev BIN_FH_DATA (j : Nat) : Nat := 0x10044 + 0x4 * j
abbrev BIN_BOOT_CNT : Nat := 0x10064
abbrev BIN_MGT_CTL : Nat := 0x11000
abbrev BIN_MGT_STATUS : Nat := 0x11004
abbrev BIN_MGT_MAC_LO (m : Nat) : Nat := 0x11010 + 0x20 * m
abbrev BIN_MGT_MAC_HI (m : Nat) : Nat := 0x11014 + 0x20 * m
abbrev BIN_MGT_IPV4 (m : Nat) : Nat := 0x11018 + 0x20 * m
abbrev BIN_MGT_IPV6 (m w : Nat) : Nat := 0x1101C + 0x20 * m + 0x4 * w
abbrev BIN_MDIO_CMD : Nat := 0x11050
abbrev BIN_SX_BOOT_ID : Nat := 0x11060
abbrev BIN_SX_KEY : Nat := 0x11064
abbrev BIN_SX_RX_CNT : Nat := 0x11068
abbrev BIN_SX_AUTH_CNT : Nat := 0x1106C
abbrev BIN_SX_REPLAY_CNT : Nat := 0x11070
abbrev BIN_SX_GW_PEND : Nat := 0x11074
abbrev BIN_SX_SUBS : Nat := 0x11078
abbrev BIN_EVT_HEAD : Nat := 0x11100
abbrev BIN_EVT_LOST : Nat := 0x11104
abbrev BIN_MSIX_GAP : Nat := 0x11108
abbrev BIN_PCIE_STATUS : Nat := 0x1110C
abbrev BIN_PCIE_ID : Nat := 0x11110
abbrev BIN_PCIE_DROP_CNT : Nat := 0x11114
abbrev BIN_VEC (b : Nat) : Nat := 0x11200 + 0x4 * b
abbrev BIN_EVT (e w : Nat) : Nat := 0x14000 + 0x10 * e + 0x4 * w
abbrev GLB_SNAP_CTL : Nat := 0x200
abbrev GLB_SNAP_CMD : Nat := 0x204
abbrev GLB_SNAP_EPOCH : Nat := 0x208
abbrev GLB_SNAP_STATUS : Nat := 0x20C
abbrev GLB_SNAP_FRAME_LO : Nat := 0x210
abbrev GLB_SNAP_FRAME_HI : Nat := 0x214
abbrev GLB_SNAP_LINE : Nat := 0x218
abbrev GLB_SNAP_MERGED : Nat := 0x21C
abbrev MON_FLAGS : Nat := 0x170000
abbrev MON_CTL (m : Nat) : Nat := 0x171000 + 0x100 * m
abbrev MON_INST (m : Nat) : Nat := 0x171004 + 0x100 * m
abbrev MON_BASE (m : Nat) : Nat := 0x171008 + 0x100 * m
abbrev MON_MIN (m : Nat) : Nat := 0x17100C + 0x100 * m
abbrev MON_MAX (m : Nat) : Nat := 0x171010 + 0x100 * m
abbrev MON_COUNT (m : Nat) : Nat := 0x171014 + 0x100 * m
abbrev MON_STATUS (m : Nat) : Nat := 0x171018 + 0x100 * m
abbrev MON_HIST (m b : Nat) : Nat := 0x171080 + 0x100 * m + 0x4 * b
abbrev CHK_FLAGS : Nat := 0x180000
abbrev CHK_CTL (u : Nat) : Nat := 0x180100 + 0x40 * u
abbrev CHK_START_LO (u : Nat) : Nat := 0x180104 + 0x40 * u
abbrev CHK_START_HI (u : Nat) : Nat := 0x180108 + 0x40 * u
abbrev CHK_LEN (u : Nat) : Nat := 0x18010C + 0x40 * u
abbrev CHK_SEED_LO (u : Nat) : Nat := 0x180110 + 0x40 * u
abbrev CHK_SEED_HI (u : Nat) : Nat := 0x180114 + 0x40 * u
abbrev CHK_SEQ (u : Nat) : Nat := 0x180118 + 0x40 * u
abbrev CHK_CMD (u : Nat) : Nat := 0x18011C + 0x40 * u
abbrev CHK_STATUS (u : Nat) : Nat := 0x180120 + 0x40 * u
abbrev CHK_DONE_BYTES (u : Nat) : Nat := 0x180124 + 0x40 * u
abbrev CHK_RESULT_LO (u : Nat) : Nat := 0x180128 + 0x40 * u
abbrev CHK_RESULT_HI (u : Nat) : Nat := 0x18012C + 0x40 * u
abbrev CHK_SEQ_USED (u : Nat) : Nat := 0x180130 + 0x40 * u
abbrev CHK_RUN_CNT (u : Nat) : Nat := 0x180134 + 0x40 * u
abbrev GLB_WIN_CTL : Nat := 0x300
end R

/-! ## Fields -/
namespace F
abbrev MER_CTL_EN : Fld := ⟨R.MER_CTL, 0, 0⟩
abbrev MER_CTL_START_DR : Fld := ⟨R.MER_CTL, 1, 1⟩
abbrev MER_CTL_AUTO : Fld := ⟨R.MER_CTL, 2, 2⟩
abbrev MER_CTL_REVERT : Fld := ⟨R.MER_CTL, 3, 3⟩
abbrev MER_CTL_STEP_POL : Fld := ⟨R.MER_CTL, 5, 4⟩
abbrev MER_CTL_RATE_POL : Fld := ⟨R.MER_CTL, 6, 6⟩
abbrev MER_STATUS_SRC : Fld := ⟨R.MER_STATUS, 1, 0⟩
abbrev MER_STATUS_STATE : Fld := ⟨R.MER_STATUS, 4, 2⟩
abbrev MER_STATUS_ALT : Fld := ⟨R.MER_STATUS, 5, 5⟩
abbrev MER_FLAGS_STOP : Fld := ⟨R.MER_FLAGS, 0, 0⟩
abbrev MER_FLAGS_GLITCH : Fld := ⟨R.MER_FLAGS, 1, 1⟩
abbrev MER_FLAGS_RATE_CHG : Fld := ⟨R.MER_FLAGS, 2, 2⟩
abbrev MER_FLAGS_STEP : Fld := ⟨R.MER_FLAGS, 3, 3⟩
abbrev MER_FLAGS_SWITCH : Fld := ⟨R.MER_FLAGS, 4, 4⟩
abbrev MER_FLAGS_PEER : Fld := ⟨R.MER_FLAGS, 5, 5⟩
abbrev MER_FLAGS_FOLLOW_REF : Fld := ⟨R.MER_FLAGS, 6, 6⟩
abbrev MER_CAD_NUM_VAL : Fld := ⟨R.MER_CAD_NUM, 31, 0⟩
abbrev MER_CAD_LINES_L_M : Fld := ⟨R.MER_CAD_LINES, 15, 0⟩
abbrev MER_SRC_PRI_FIRST : Fld := ⟨R.MER_SRC_PRI, 1, 0⟩
abbrev MER_SRC_PRI_SECOND : Fld := ⟨R.MER_SRC_PRI, 3, 2⟩
abbrev MER_SRC_PRI_THIRD : Fld := ⟨R.MER_SRC_PRI, 5, 4⟩
abbrev MER_SRC_SEL_SRC : Fld := ⟨R.MER_SRC_SEL, 1, 0⟩
abbrev MER_REF_CTL_PERIOD : Fld := ⟨R.MER_REF_CTL, 7, 0⟩
abbrev MER_REF_CTL_EDGE : Fld := ⟨R.MER_REF_CTL, 8, 8⟩
abbrev MER_REF_CTL_MISS : Fld := ⟨R.MER_REF_CTL, 15, 12⟩
abbrev MER_REF_CTL_CONFIRM : Fld := ⟨R.MER_REF_CTL, 19, 16⟩
abbrev MER_PLAUS_PLAUS : Fld := ⟨R.MER_PLAUS, 15, 0⟩
abbrev MER_RATE_TOL_TOL : Fld := ⟨R.MER_RATE_TOL, 15, 0⟩
abbrev MER_POS_FRAME_LO_B31_0 : Fld := ⟨R.MER_POS_FRAME_LO, 31, 0⟩
abbrev MER_POS_FRAME_HI_FRAME : Fld := ⟨R.MER_POS_FRAME_HI, 15, 0⟩
abbrev MER_POS_LINE_LINE : Fld := ⟨R.MER_POS_LINE, 31, 16⟩
abbrev MER_POS_LINE_FRACTION : Fld := ⟨R.MER_POS_LINE, 15, 0⟩
abbrev MER_REACQ_STEP_THR : Fld := ⟨R.MER_REACQ, 23, 0⟩
abbrev MER_REACQ_SLEW : Fld := ⟨R.MER_REACQ, 31, 24⟩
abbrev MER_REVERT_HOLD_HOLD : Fld := ⟨R.MER_REVERT_HOLD, 15, 0⟩
abbrev MER_FRAME_LOAD_LO_VAL : Fld := ⟨R.MER_FRAME_LOAD_LO, 31, 0⟩
abbrev MER_FRAME_LOAD_HI_VAL : Fld := ⟨R.MER_FRAME_LOAD_HI, 15, 0⟩
abbrev MER_CMD_LOAD : Fld := ⟨R.MER_CMD, 0, 0⟩
abbrev MER_PEER_TOL_TOL : Fld := ⟨R.MER_PEER_TOL, 16, 0⟩
abbrev MER_CH_ORIGIN_LINES (c : Nat) : Fld := ⟨R.MER_CH_ORIGIN c, 31, 16⟩
abbrev MER_CH_ORIGIN_FRAC (c : Nat) : Fld := ⟨R.MER_CH_ORIGIN c, 15, 0⟩
abbrev MER_CH_LINES_L_C (c : Nat) : Fld := ⟨R.MER_CH_LINES c, 15, 0⟩
abbrev PTP_CTL_EN : Fld := ⟨R.PTP_CTL, 0, 0⟩
abbrev PTP_CTL_STEER : Fld := ⟨R.PTP_CTL, 1, 1⟩
abbrev PTP_STATUS_STEERING : Fld := ⟨R.PTP_STATUS, 0, 0⟩
abbrev PTP_STATUS_COMPAT : Fld := ⟨R.PTP_STATUS, 1, 1⟩
abbrev PTP_FLAGS_LOSS_A : Fld := ⟨R.PTP_FLAGS, 0, 0⟩
abbrev PTP_FLAGS_LOSS_B : Fld := ⟨R.PTP_FLAGS, 1, 1⟩
abbrev PTP_FLAGS_STEP_A : Fld := ⟨R.PTP_FLAGS, 2, 2⟩
abbrev PTP_FLAGS_STEP_B : Fld := ⟨R.PTP_FLAGS, 3, 3⟩
abbrev PTP_FLAGS_JUMP_REF : Fld := ⟨R.PTP_FLAGS, 4, 4⟩
abbrev PTP_FLAGS_DISAGREE : Fld := ⟨R.PTP_FLAGS, 5, 5⟩
abbrev PTP_FLAGS_GM_CHG : Fld := ⟨R.PTP_FLAGS, 6, 6⟩
abbrev PTP_FLAGS_TOUT_MISS_K : Fld := ⟨R.PTP_FLAGS, 11, 8⟩
abbrev PTP_FLAGS_TIN_OVF_J : Fld := ⟨R.PTP_FLAGS, 13, 12⟩
abbrev PTP_STC_NS_STC : Fld := ⟨R.PTP_STC_NS, 29, 0⟩
abbrev PTP_STC_SEC_LO_B31_0 : Fld := ⟨R.PTP_STC_SEC_LO, 31, 0⟩
abbrev PTP_STC_SEC_HI_STC : Fld := ⟨R.PTP_STC_SEC_HI, 15, 0⟩
abbrev PTP_CMD_ACCEPT_A : Fld := ⟨R.PTP_CMD, 0, 0⟩
abbrev PTP_X_CTL_EN (x : Nat) : Fld := ⟨R.PTP_X_CTL x, 0, 0⟩
abbrev PTP_X_CTL_TRANSPORT (x : Nat) : Fld := ⟨R.PTP_X_CTL x, 2, 1⟩
abbrev PTP_X_CTL_DELAY (x : Nat) : Fld := ⟨R.PTP_X_CTL x, 3, 3⟩
abbrev PTP_X_CTL_HYBRID (x : Nat) : Fld := ⟨R.PTP_X_CTL x, 4, 4⟩
abbrev PTP_X_CTL_PORT (x : Nat) : Fld := ⟨R.PTP_X_CTL x, 7, 5⟩
abbrev PTP_X_CTL_DOMAIN (x : Nat) : Fld := ⟨R.PTP_X_CTL x, 15, 8⟩
abbrev PTP_X_CTL_VLAN (x : Nat) : Fld := ⟨R.PTP_X_CTL x, 27, 16⟩
abbrev PTP_X_STATUS_STATE (x : Nat) : Fld := ⟨R.PTP_X_STATUS x, 2, 0⟩
abbrev PTP_X_STATUS_AGREE (x : Nat) : Fld := ⟨R.PTP_X_STATUS x, 3, 3⟩
abbrev PTP_X_STATUS_STEERING (x : Nat) : Fld := ⟨R.PTP_X_STATUS x, 4, 4⟩
abbrev PTP_X_GM_LO_B31_0 (x : Nat) : Fld := ⟨R.PTP_X_GM_LO x, 31, 0⟩
abbrev PTP_X_SERVO_KP (x : Nat) : Fld := ⟨R.PTP_X_SERVO x, 3, 0⟩
abbrev PTP_X_SERVO_KI (x : Nat) : Fld := ⟨R.PTP_X_SERVO x, 7, 4⟩
abbrev PTP_X_SERVO_DELAY_AVG (x : Nat) : Fld := ⟨R.PTP_X_SERVO x, 11, 8⟩
abbrev PTP_X_SERVO_STEP_CONFIRM (x : Nat) : Fld := ⟨R.PTP_X_SERVO x, 15, 12⟩
abbrev PTP_X_LOCK_LOCK_THR (x : Nat) : Fld := ⟨R.PTP_X_LOCK x, 15, 0⟩
abbrev PTP_X_LOCK_LOCK_CNT (x : Nat) : Fld := ⟨R.PTP_X_LOCK x, 23, 16⟩
abbrev PTP_X_TIMEOUT_ANNOUNCE_TO (x : Nat) : Fld := ⟨R.PTP_X_TIMEOUT x, 3, 0⟩
abbrev PTP_X_TIMEOUT_SYNC_TO (x : Nat) : Fld := ⟨R.PTP_X_TIMEOUT x, 7, 4⟩
abbrev PTP_X_TIMEOUT_PDELAY_LOG (x : Nat) : Fld := ⟨R.PTP_X_TIMEOUT x, 11, 8⟩
abbrev PTP_X_UTC_OFS_CURRENTUTCOFFSET (x : Nat) : Fld := ⟨R.PTP_X_UTC_OFS x, 15, 0⟩
abbrev PTP_TOUT_CTL_MODE (k : Nat) : Fld := ⟨R.PTP_TOUT_CTL k, 1, 0⟩
abbrev PTP_TOUT_CTL_BASE (k : Nat) : Fld := ⟨R.PTP_TOUT_CTL k, 2, 2⟩
abbrev PTP_TOUT_CTL_POL (k : Nat) : Fld := ⟨R.PTP_TOUT_CTL k, 3, 3⟩
abbrev PTP_TOUT_CTL_STATE (k : Nat) : Fld := ⟨R.PTP_TOUT_CTL k, 5, 4⟩
abbrev PTP_TOUT_START_LO_LINE (k : Nat) : Fld := ⟨R.PTP_TOUT_START_LO k, 31, 16⟩
abbrev PTP_TOUT_START_LO_FRAC (k : Nat) : Fld := ⟨R.PTP_TOUT_START_LO k, 15, 0⟩
abbrev PTP_TOUT_START_MID_VAL (k : Nat) : Fld := ⟨R.PTP_TOUT_START_MID k, 31, 0⟩
abbrev PTP_TOUT_START_HI_VAL (k : Nat) : Fld := ⟨R.PTP_TOUT_START_HI k, 15, 0⟩
abbrev PTP_TOUT_PERIOD_HI_VAL (k : Nat) : Fld := ⟨R.PTP_TOUT_PERIOD_HI k, 15, 0⟩
abbrev PTP_TIN_CTL_EN (j : Nat) : Fld := ⟨R.PTP_TIN_CTL j, 0, 0⟩
abbrev PTP_TIN_CTL_EDGE (j : Nat) : Fld := ⟨R.PTP_TIN_CTL j, 2, 1⟩
abbrev PTP_TIN_CTL_EVT (j : Nat) : Fld := ⟨R.PTP_TIN_CTL j, 3, 3⟩
abbrev PTP_TIN_CTL_HOLDOFF (j : Nat) : Fld := ⟨R.PTP_TIN_CTL j, 31, 16⟩
abbrev PTP_TIN_CAP_0_STC (j : Nat) : Fld := ⟨R.PTP_TIN_CAP_0 j, 29, 0⟩
abbrev PTP_TIN_CAP_0_B30_30 (j : Nat) : Fld := ⟨R.PTP_TIN_CAP_0 j, 30, 30⟩
abbrev PTP_TIN_CAP_0_VALID (j : Nat) : Fld := ⟨R.PTP_TIN_CAP_0 j, 31, 31⟩
abbrev PTP_TIN_CAP_B31_0 (j w : Nat) : Fld := ⟨R.PTP_TIN_CAP j w, 31, 0⟩
abbrev PTP_TIN_CAP_SECONDS (j w : Nat) : Fld := ⟨R.PTP_TIN_CAP j w, 15, 0⟩
abbrev PTP_TIN_CAP_B31_0_31 (j w : Nat) : Fld := ⟨R.PTP_TIN_CAP j w, 31, 0⟩
abbrev PTP_TIN_CAP_FRAME (j w : Nat) : Fld := ⟨R.PTP_TIN_CAP j w, 15, 0⟩
abbrev PTP_TIN_LEVEL_ENTRIES (j : Nat) : Fld := ⟨R.PTP_TIN_LEVEL j, 4, 0⟩
abbrev CKG_CORE_STATUS_LOCKED : Fld := ⟨R.CKG_CORE_STATUS, 10, 0⟩
abbrev CKG_CORE_STATUS_ON : Fld := ⟨R.CKG_CORE_STATUS, 26, 16⟩
abbrev CKG_LANE_STATUS_LOCKED : Fld := ⟨R.CKG_LANE_STATUS, 15, 0⟩
abbrev CKG_CORE_FLAGS_LOSS : Fld := ⟨R.CKG_CORE_FLAGS, 10, 0⟩
abbrev CKG_CORE_FLAGS_LOSS_26 : Fld := ⟨R.CKG_CORE_FLAGS, 26, 16⟩
abbrev CKG_LANE_FLAGS_LOSS : Fld := ⟨R.CKG_LANE_FLAGS, 15, 0⟩
abbrev CKG_LANE_FLAGS_LOSS_31 : Fld := ⟨R.CKG_LANE_FLAGS, 31, 16⟩
abbrev CKG_LOCK_WIN_PS : Fld := ⟨R.CKG_LOCK, 9, 0⟩
abbrev CKG_LOCK_LOCK_CNT : Fld := ⟨R.CKG_LOCK, 31, 16⟩
abbrev CKG_LOSS_LOSS_CNT : Fld := ⟨R.CKG_LOSS, 7, 0⟩
abbrev CKG_LOSS_REF_MISS : Fld := ⟨R.CKG_LOSS, 15, 8⟩
abbrev CKG_CMD_PLL : Fld := ⟨R.CKG_CMD, 3, 0⟩
abbrev CKG_CMD_RELOCK : Fld := ⟨R.CKG_CMD, 8, 8⟩
abbrev CKG_CPLL_STATUS_STATE (m : Nat) : Fld := ⟨R.CKG_CPLL_STATUS m, 2, 0⟩
abbrev CKG_CPLL_STATUS_SYNC (m : Nat) : Fld := ⟨R.CKG_CPLL_STATUS m, 3, 3⟩
abbrev CKG_CPLL_STATUS_DIV (m : Nat) : Fld := ⟨R.CKG_CPLL_STATUS m, 7, 4⟩
abbrev CKG_CPLL_STATUS_BAND (m : Nat) : Fld := ⟨R.CKG_CPLL_STATUS m, 15, 8⟩
abbrev CKG_LPLL_CTL_REF_SEL (q : Nat) : Fld := ⟨R.CKG_LPLL_CTL q, 0, 0⟩
abbrev CKG_LPLL_STATUS_STATE (q : Nat) : Fld := ⟨R.CKG_LPLL_STATUS q, 2, 0⟩
abbrev CKG_LPLL_STATUS_SYNC (q : Nat) : Fld := ⟨R.CKG_LPLL_STATUS q, 3, 3⟩
abbrev CKG_CLKOUT_CTL_EN (k : Nat) : Fld := ⟨R.CKG_CLKOUT_CTL k, 0, 0⟩
abbrev CKG_CLKOUT_CTL_SRC (k : Nat) : Fld := ⟨R.CKG_CLKOUT_CTL k, 3, 1⟩
abbrev CKG_CLKOUT_CTL_FMT (k : Nat) : Fld := ⟨R.CKG_CLKOUT_CTL k, 5, 4⟩
abbrev CKG_CLKOUT_CTL_SWING (k : Nat) : Fld := ⟨R.CKG_CLKOUT_CTL k, 7, 6⟩
abbrev CKG_CLKOUT_CTL_ALIGN (k : Nat) : Fld := ⟨R.CKG_CLKOUT_CTL k, 8, 8⟩
abbrev CKG_CLKOUT_CTL_CMOS_M (k : Nat) : Fld := ⟨R.CKG_CLKOUT_CTL k, 9, 9⟩
abbrev CKG_CLKOUT_CTL_LANE (k : Nat) : Fld := ⟨R.CKG_CLKOUT_CTL k, 15, 10⟩
abbrev CKG_CLKOUT_DIV_DIV (k : Nat) : Fld := ⟨R.CKG_CLKOUT_DIV k, 15, 0⟩
abbrev ING_CTL_EN : Fld := ⟨R.ING_CTL, 0, 0⟩
abbrev ING_FLAGS_POLICED : Fld := ⟨R.ING_FLAGS, 0, 0⟩
abbrev ING_FLAGS_LATE : Fld := ⟨R.ING_FLAGS, 1, 1⟩
abbrev ING_FLAGS_SUBST : Fld := ⟨R.ING_FLAGS, 2, 2⟩
abbrev ING_FLAGS_LEG_LOSS : Fld := ⟨R.ING_FLAGS, 3, 3⟩
abbrev ING_FLAGS_UNMATCHED : Fld := ⟨R.ING_FLAGS, 4, 4⟩
abbrev ING_PORT_OVH_OVH (p : Nat) : Fld := ⟨R.ING_PORT_OVH p, 5, 0⟩
abbrev ING_FT_CMD_FLOW : Fld := ⟨R.ING_FT_CMD, 11, 0⟩
abbrev ING_FT_CMD_READ : Fld := ⟨R.ING_FT_CMD, 12, 12⟩
abbrev ING_FT_CMD_WRITE : Fld := ⟨R.ING_FT_CMD, 13, 13⟩
abbrev ING_IN_CTL_EN (i : Nat) : Fld := ⟨R.ING_IN_CTL i, 0, 0⟩
abbrev ING_IN_CTL_SRC (i : Nat) : Fld := ⟨R.ING_IN_CTL i, 1, 1⟩
abbrev ING_IN_CTL_CH (i : Nat) : Fld := ⟨R.ING_IN_CTL i, 6, 2⟩
abbrev ING_IN_CTL_DELAY (i : Nat) : Fld := ⟨R.ING_IN_CTL i, 9, 7⟩
abbrev ING_IN_CTL_POLICY (i : Nat) : Fld := ⟨R.ING_IN_CTL i, 11, 10⟩
abbrev ING_IN_CTL_CLIP_LAYER (i : Nat) : Fld := ⟨R.ING_IN_CTL i, 12, 12⟩
abbrev ING_IN_CTL_CONC_SUB (i : Nat) : Fld := ⟨R.ING_IN_CTL i, 13, 13⟩
abbrev ING_IN_CTL_FMT (i : Nat) : Fld := ⟨R.ING_IN_CTL i, 15, 14⟩
abbrev ING_IN_CTL_DEPTH (i : Nat) : Fld := ⟨R.ING_IN_CTL i, 17, 16⟩
abbrev ING_IN_CTL_BPM (i : Nat) : Fld := ⟨R.ING_IN_CTL i, 18, 18⟩
abbrev ING_IN_CTL_DEC_CTX (i : Nat) : Fld := ⟨R.ING_IN_CTL i, 22, 19⟩
abbrev ING_IN_CTL_STACK (i : Nat) : Fld := ⟨R.ING_IN_CTL i, 24, 23⟩
abbrev ING_IN_SIZE_W (i : Nat) : Fld := ⟨R.ING_IN_SIZE i, 15, 0⟩
abbrev ING_IN_SIZE_H (i : Nat) : Fld := ⟨R.ING_IN_SIZE i, 31, 16⟩
abbrev ING_IN_ORIGIN_LINES (i : Nat) : Fld := ⟨R.ING_IN_ORIGIN i, 31, 16⟩
abbrev ING_IN_ORIGIN_FRAC (i : Nat) : Fld := ⟨R.ING_IN_ORIGIN i, 15, 0⟩
abbrev ING_IN_LINES_L_IN (i : Nat) : Fld := ⟨R.ING_IN_LINES i, 15, 0⟩
abbrev ING_IN_SUBST_PIC_THR (i : Nat) : Fld := ⟨R.ING_IN_SUBST i, 15, 0⟩
abbrev ING_IN_FLAT_0_Y (i : Nat) : Fld := ⟨R.ING_IN_FLAT_0 i, 11, 0⟩
abbrev ING_IN_FLAT_0_CB (i : Nat) : Fld := ⟨R.ING_IN_FLAT_0 i, 27, 16⟩
abbrev ING_IN_FLAT_1_CR (i : Nat) : Fld := ⟨R.ING_IN_FLAT_1 i, 11, 0⟩
abbrev ING_IN_STATUS_RUN (i : Nat) : Fld := ⟨R.ING_IN_STATUS i, 0, 0⟩
abbrev ING_IN_STATUS_SUBST (i : Nat) : Fld := ⟨R.ING_IN_STATUS i, 1, 1⟩
abbrev ING_IN_STATUS_FULL (i : Nat) : Fld := ⟨R.ING_IN_STATUS i, 2, 2⟩
abbrev ING_IN_STATUS_CONCEALED (i : Nat) : Fld := ⟨R.ING_IN_STATUS i, 3, 3⟩
abbrev ING_IN_STATUS_LEG_A (i : Nat) : Fld := ⟨R.ING_IN_STATUS i, 4, 4⟩
abbrev ING_IN_STATUS_LEG_B (i : Nat) : Fld := ⟨R.ING_IN_STATUS i, 5, 5⟩
abbrev DEC_CTL_EN : Fld := ⟨R.DEC_CTL, 0, 0⟩
abbrev DEC_CTX_CTL_EN (x : Nat) : Fld := ⟨R.DEC_CTX_CTL x, 0, 0⟩
abbrev DEC_CTX_CTL_CODEC (x : Nat) : Fld := ⟨R.DEC_CTX_CTL x, 1, 1⟩
abbrev DEC_CTX_CTL_TS (x : Nat) : Fld := ⟨R.DEC_CTX_CTL x, 2, 2⟩
abbrev DEC_CTX_CTL_ENGINE (x : Nat) : Fld := ⟨R.DEC_CTX_CTL x, 4, 3⟩
abbrev DEC_CTX_CTL_STACK (x : Nat) : Fld := ⟨R.DEC_CTX_CTL x, 6, 5⟩
abbrev DEC_CTX_PID_PID (x : Nat) : Fld := ⟨R.DEC_CTX_PID x, 12, 0⟩
abbrev DEC_CTX_SIZE_W (x : Nat) : Fld := ⟨R.DEC_CTX_SIZE x, 15, 0⟩
abbrev DEC_CTX_SIZE_H (x : Nat) : Fld := ⟨R.DEC_CTX_SIZE x, 31, 16⟩
abbrev DEC_CTX_RATE_NUM (x : Nat) : Fld := ⟨R.DEC_CTX_RATE x, 19, 0⟩
abbrev DEC_CTX_RATE_DEN (x : Nat) : Fld := ⟨R.DEC_CTX_RATE x, 29, 20⟩
abbrev DEC_CTX_STATUS_B2_0 (x : Nat) : Fld := ⟨R.DEC_CTX_STATUS x, 2, 0⟩
abbrev DEC_CTX_STATUS_LAST (x : Nat) : Fld := ⟨R.DEC_CTX_STATUS x, 3, 3⟩
abbrev COMP_CTL_EN : Fld := ⟨R.COMP_CTL, 0, 0⟩
abbrev COMP_FLAGS_HELD : Fld := ⟨R.COMP_FLAGS, 0, 0⟩
abbrev COMP_FLAGS_CHECK_FAIL : Fld := ⟨R.COMP_FLAGS, 1, 1⟩
abbrev COMP_FLAGS_NOSRC : Fld := ⟨R.COMP_FLAGS, 2, 2⟩
abbrev COMP_FENCE_LO_VAL (k : Nat) : Fld := ⟨R.COMP_FENCE_LO k, 31, 0⟩
abbrev COMP_FENCE_HI_VAL (k : Nat) : Fld := ⟨R.COMP_FENCE_HI k, 31, 0⟩
abbrev COMP_CH_CTL_EN (c : Nat) : Fld := ⟨R.COMP_CH_CTL c, 0, 0⟩
abbrev COMP_CH_CTL_MATRIX (c : Nat) : Fld := ⟨R.COMP_CH_CTL c, 1, 1⟩
abbrev COMP_CH_CTL_REACH (c : Nat) : Fld := ⟨R.COMP_CH_CTL c, 11, 2⟩
abbrev COMP_CH_CANVAS_W (c : Nat) : Fld := ⟨R.COMP_CH_CANVAS c, 15, 0⟩
abbrev COMP_CH_CANVAS_H (c : Nat) : Fld := ⟨R.COMP_CH_CANVAS c, 31, 16⟩
abbrev COMP_CH_FLIP_LINE (c : Nat) : Fld := ⟨R.COMP_CH_FLIP c, 15, 0⟩
abbrev COMP_CH_STATUS_RUN (c : Nat) : Fld := ⟨R.COMP_CH_STATUS c, 0, 0⟩
abbrev COMP_CH_STATUS_WARP (c : Nat) : Fld := ⟨R.COMP_CH_STATUS c, 1, 1⟩
abbrev COMP_CH_SET_CTL_WARP_EN (c : Nat) : Fld := ⟨R.COMP_CH_SET_CTL c, 0, 0⟩
abbrev COMP_CH_SET_ZORDER_L0 (c : Nat) : Fld := ⟨R.COMP_CH_SET_ZORDER c, 2, 0⟩
abbrev COMP_CH_SET_ZORDER_L1 (c : Nat) : Fld := ⟨R.COMP_CH_SET_ZORDER c, 5, 3⟩
abbrev COMP_CH_SET_ZORDER_L2 (c : Nat) : Fld := ⟨R.COMP_CH_SET_ZORDER c, 8, 6⟩
abbrev COMP_CH_SET_ZORDER_L3 (c : Nat) : Fld := ⟨R.COMP_CH_SET_ZORDER c, 11, 9⟩
abbrev COMP_CH_SET_ZORDER_L4 (c : Nat) : Fld := ⟨R.COMP_CH_SET_ZORDER c, 14, 12⟩
abbrev COMP_CH_SET_ZORDER_L5 (c : Nat) : Fld := ⟨R.COMP_CH_SET_ZORDER c, 17, 15⟩
abbrev COMP_CH_SET_ZORDER_L6 (c : Nat) : Fld := ⟨R.COMP_CH_SET_ZORDER c, 20, 18⟩
abbrev COMP_CH_SET_BG_0_R (c : Nat) : Fld := ⟨R.COMP_CH_SET_BG_0 c, 15, 0⟩
abbrev COMP_CH_SET_BG_0_G (c : Nat) : Fld := ⟨R.COMP_CH_SET_BG_0 c, 31, 16⟩
abbrev COMP_CH_SET_BG_1_B (c : Nat) : Fld := ⟨R.COMP_CH_SET_BG_1 c, 15, 0⟩
abbrev COMP_CH_SET_MESH_BASE (c : Nat) : Fld := ⟨R.COMP_CH_SET_MESH c, 21, 0⟩
abbrev COMP_CH_COMMIT_FENCE (c : Nat) : Fld := ⟨R.COMP_CH_COMMIT c, 7, 0⟩
abbrev COMP_CH_COMMIT_USE_FENCE (c : Nat) : Fld := ⟨R.COMP_CH_COMMIT c, 8, 8⟩
abbrev COMP_CH_COMMIT_COMMIT (c : Nat) : Fld := ⟨R.COMP_CH_COMMIT c, 9, 9⟩
abbrev COMP_CH_COMMIT_CANCEL (c : Nat) : Fld := ⟨R.COMP_CH_COMMIT c, 10, 10⟩
abbrev COMP_CH_TARGET_LO_VAL (c : Nat) : Fld := ⟨R.COMP_CH_TARGET_LO c, 31, 0⟩
abbrev COMP_CH_TARGET_HI_VAL (c : Nat) : Fld := ⟨R.COMP_CH_TARGET_HI c, 31, 0⟩
abbrev COMP_CH_SET_STATUS_PENDING (c : Nat) : Fld := ⟨R.COMP_CH_SET_STATUS c, 0, 0⟩
abbrev COMP_CH_SET_STATUS_EN (c : Nat) : Fld := ⟨R.COMP_CH_SET_STATUS c, 1, 1⟩
abbrev COMP_CH_SET_STATUS_HELD (c : Nat) : Fld := ⟨R.COMP_CH_SET_STATUS c, 2, 2⟩
abbrev COMP_CH_SET_STATUS_NOSRC (c : Nat) : Fld := ⟨R.COMP_CH_SET_STATUS c, 3, 3⟩
abbrev COMP_CH_SET_STATUS_CHECKING (c : Nat) : Fld := ⟨R.COMP_CH_SET_STATUS c, 4, 4⟩
abbrev COMP_CH_SET_STATUS_FAIL (c : Nat) : Fld := ⟨R.COMP_CH_SET_STATUS c, 5, 5⟩
abbrev COMP_CH_L_CTL_EN (c g : Nat) : Fld := ⟨R.COMP_CH_L_CTL c g, 0, 0⟩
abbrev COMP_CH_L_CTL_SRC (c g : Nat) : Fld := ⟨R.COMP_CH_L_CTL c g, 19, 12⟩
abbrev COMP_CH_L_CTL_REP_X (c g : Nat) : Fld := ⟨R.COMP_CH_L_CTL c g, 21, 20⟩
abbrev COMP_CH_L_CTL_REP_Y (c g : Nat) : Fld := ⟨R.COMP_CH_L_CTL c g, 23, 22⟩
abbrev COMP_CH_L_CTL_FMT (c g : Nat) : Fld := ⟨R.COMP_CH_L_CTL c g, 24, 24⟩
abbrev COMP_CH_L_CTL_PREMUL (c g : Nat) : Fld := ⟨R.COMP_CH_L_CTL c g, 25, 25⟩
abbrev COMP_CH_L_CTL_LOOP (c g : Nat) : Fld := ⟨R.COMP_CH_L_CTL c g, 26, 26⟩
abbrev COMP_CH_L_SRC_XY_X (c g : Nat) : Fld := ⟨R.COMP_CH_L_SRC_XY c g, 15, 0⟩
abbrev COMP_CH_L_SRC_XY_Y (c g : Nat) : Fld := ⟨R.COMP_CH_L_SRC_XY c g, 31, 16⟩
abbrev COMP_CH_L_SRC_WH_W (c g : Nat) : Fld := ⟨R.COMP_CH_L_SRC_WH c g, 15, 0⟩
abbrev COMP_CH_L_SRC_WH_H (c g : Nat) : Fld := ⟨R.COMP_CH_L_SRC_WH c g, 31, 16⟩
abbrev COMP_CH_L_DST_XY_X (c g : Nat) : Fld := ⟨R.COMP_CH_L_DST_XY c g, 15, 0⟩
abbrev COMP_CH_L_DST_XY_Y (c g : Nat) : Fld := ⟨R.COMP_CH_L_DST_XY c g, 31, 16⟩
abbrev COMP_CH_L_ALPHA_ALPHA (c g : Nat) : Fld := ⟨R.COMP_CH_L_ALPHA c g, 15, 0⟩
abbrev COMP_CH_L_ADDR_LO_VAL (c g : Nat) : Fld := ⟨R.COMP_CH_L_ADDR_LO c g, 31, 0⟩
abbrev COMP_CH_L_ADDR_HI_VAL (c g : Nat) : Fld := ⟨R.COMP_CH_L_ADDR_HI c g, 5, 0⟩
abbrev COMP_CH_L_COMMIT_FENCE (c g : Nat) : Fld := ⟨R.COMP_CH_L_COMMIT c g, 7, 0⟩
abbrev COMP_CH_L_COMMIT_USE_FENCE (c g : Nat) : Fld := ⟨R.COMP_CH_L_COMMIT c g, 8, 8⟩
abbrev COMP_CH_L_COMMIT_COMMIT (c g : Nat) : Fld := ⟨R.COMP_CH_L_COMMIT c g, 9, 9⟩
abbrev COMP_CH_L_COMMIT_CANCEL (c g : Nat) : Fld := ⟨R.COMP_CH_L_COMMIT c g, 10, 10⟩
abbrev COMP_CH_L_TARGET_LO_VAL (c g : Nat) : Fld := ⟨R.COMP_CH_L_TARGET_LO c g, 31, 0⟩
abbrev COMP_CH_L_TARGET_HI_VAL (c g : Nat) : Fld := ⟨R.COMP_CH_L_TARGET_HI c g, 31, 0⟩
abbrev COMP_CH_L_STATUS_PENDING (c g : Nat) : Fld := ⟨R.COMP_CH_L_STATUS c g, 0, 0⟩
abbrev COMP_CH_L_STATUS_EN (c g : Nat) : Fld := ⟨R.COMP_CH_L_STATUS c g, 1, 1⟩
abbrev COMP_CH_L_STATUS_HELD (c g : Nat) : Fld := ⟨R.COMP_CH_L_STATUS c g, 2, 2⟩
abbrev COMP_CH_L_STATUS_NOSRC (c g : Nat) : Fld := ⟨R.COMP_CH_L_STATUS c g, 3, 3⟩
abbrev COMP_CH_L_STATUS_CHECKING (c g : Nat) : Fld := ⟨R.COMP_CH_L_STATUS c g, 4, 4⟩
abbrev COMP_CH_L_STATUS_FAIL (c g : Nat) : Fld := ⟨R.COMP_CH_L_STATUS c g, 5, 5⟩
abbrev COMP_CLIP_CTL_VALID (d : Nat) : Fld := ⟨R.COMP_CLIP_CTL d, 0, 0⟩
abbrev COMP_CLIP_CTL_FMT (d : Nat) : Fld := ⟨R.COMP_CLIP_CTL d, 2, 1⟩
abbrev COMP_CLIP_CTL_DEPTH (d : Nat) : Fld := ⟨R.COMP_CLIP_CTL d, 4, 3⟩
abbrev COMP_CLIP_SIZE_W (d : Nat) : Fld := ⟨R.COMP_CLIP_SIZE d, 15, 0⟩
abbrev COMP_CLIP_SIZE_H (d : Nat) : Fld := ⟨R.COMP_CLIP_SIZE d, 31, 16⟩
abbrev COMP_CLIP_ADDR_LO_VAL (d : Nat) : Fld := ⟨R.COMP_CLIP_ADDR_LO d, 31, 0⟩
abbrev COMP_CLIP_ADDR_HI_VAL (d : Nat) : Fld := ⟨R.COMP_CLIP_ADDR_HI d, 5, 0⟩
abbrev ENC_CH_CTL_EN (n : Nat) : Fld := ⟨R.ENC_CH_CTL n, 0, 0⟩
abbrev ENC_CH_CTL_CODEC (n : Nat) : Fld := ⟨R.ENC_CH_CTL n, 1, 1⟩
abbrev ENC_CH_CTL_TIER (n : Nat) : Fld := ⟨R.ENC_CH_CTL n, 2, 2⟩
abbrev ENC_CH_CTL_SLICE_B (n : Nat) : Fld := ⟨R.ENC_CH_CTL n, 3, 3⟩
abbrev ENC_CH_CTL_NUM_REF (n : Nat) : Fld := ⟨R.ENC_CH_CTL n, 5, 4⟩
abbrev ENC_CH_CTL_PS_EVERY (n : Nat) : Fld := ⟨R.ENC_CH_CTL n, 6, 6⟩
abbrev ENC_CH_CTL_HASH (n : Nat) : Fld := ⟨R.ENC_CH_CTL n, 7, 7⟩
abbrev ENC_CH_CTL_HDR_SEI (n : Nat) : Fld := ⟨R.ENC_CH_CTL n, 8, 8⟩
abbrev ENC_CH_CTL_LEVEL_MIN (n : Nat) : Fld := ⟨R.ENC_CH_CTL n, 23, 16⟩
abbrev ENC_CH_SIZE_W (n : Nat) : Fld := ⟨R.ENC_CH_SIZE n, 15, 0⟩
abbrev ENC_CH_SIZE_H (n : Nat) : Fld := ⟨R.ENC_CH_SIZE n, 31, 16⟩
abbrev ENC_CH_FORMAT_CHROMA (n : Nat) : Fld := ⟨R.ENC_CH_FORMAT n, 1, 0⟩
abbrev ENC_CH_FORMAT_DEPTH (n : Nat) : Fld := ⟨R.ENC_CH_FORMAT n, 3, 2⟩
abbrev ENC_CH_FORMAT_COLOUR (n : Nat) : Fld := ⟨R.ENC_CH_FORMAT n, 5, 4⟩
abbrev ENC_CH_RATE_NUM (n : Nat) : Fld := ⟨R.ENC_CH_RATE n, 19, 0⟩
abbrev ENC_CH_RATE_DEN (n : Nat) : Fld := ⟨R.ENC_CH_RATE n, 29, 20⟩
abbrev ENC_CH_GDR_PERIOD (n : Nat) : Fld := ⟨R.ENC_CH_GDR n, 10, 0⟩
abbrev ENC_CH_DBK_LUMA_BETA (n : Nat) : Fld := ⟨R.ENC_CH_DBK n, 4, 0⟩
abbrev ENC_CH_DBK_LUMA_TC (n : Nat) : Fld := ⟨R.ENC_CH_DBK n, 9, 5⟩
abbrev ENC_CH_DBK_CHROMA_BETA (n : Nat) : Fld := ⟨R.ENC_CH_DBK n, 14, 10⟩
abbrev ENC_CH_DBK_CHROMA_TC (n : Nat) : Fld := ⟨R.ENC_CH_DBK n, 19, 15⟩
abbrev ENC_CH_CQP_CB_OFS (n : Nat) : Fld := ⟨R.ENC_CH_CQP n, 4, 0⟩
abbrev ENC_CH_CQP_CR_OFS (n : Nat) : Fld := ⟨R.ENC_CH_CQP n, 9, 5⟩
abbrev ENC_CH_LAYOUT_NCOL (n : Nat) : Fld := ⟨R.ENC_CH_LAYOUT n, 5, 0⟩
abbrev ENC_CH_LAYOUT_NROW (n : Nat) : Fld := ⟨R.ENC_CH_LAYOUT n, 11, 8⟩
abbrev ENC_CH_CLL_MAX (n : Nat) : Fld := ⟨R.ENC_CH_CLL n, 15, 0⟩
abbrev ENC_CH_CLL_AVG (n : Nat) : Fld := ⟨R.ENC_CH_CLL n, 31, 16⟩
abbrev ENC_CH_STATUS_LEVEL (n : Nat) : Fld := ⟨R.ENC_CH_STATUS n, 7, 0⟩
abbrev ENC_CH_STATUS_PROFILE (n : Nat) : Fld := ⟨R.ENC_CH_STATUS n, 15, 8⟩
abbrev ENC_CH_STATUS_PHASE (n : Nat) : Fld := ⟨R.ENC_CH_STATUS n, 26, 16⟩
abbrev ENC_CH_STATUS_CLEAN (n : Nat) : Fld := ⟨R.ENC_CH_STATUS n, 27, 27⟩
abbrev ENC_CH_CMD_RESTART (n : Nat) : Fld := ⟨R.ENC_CH_CMD n, 0, 0⟩
abbrev ENC_CH_K_LO_B31_0 (n : Nat) : Fld := ⟨R.ENC_CH_K_LO n, 31, 0⟩
abbrev ENC_CH_K_HI_K (n : Nat) : Fld := ⟨R.ENC_CH_K_HI n, 15, 0⟩
abbrev ENC_CTL_EN : Fld := ⟨R.ENC_CTL, 0, 0⟩
abbrev ENC_FLAGS_RESTART : Fld := ⟨R.ENC_FLAGS, 0, 0⟩
abbrev ENC_FLAGS_CLVS : Fld := ⟨R.ENC_FLAGS, 1, 1⟩
abbrev ENC_FLAGS_LEVEL_UNC : Fld := ⟨R.ENC_FLAGS, 2, 2⟩
abbrev ENC_CH_ME_RANGE_RANGE_X (n : Nat) : Fld := ⟨R.ENC_CH_ME_RANGE n, 8, 0⟩
abbrev ENC_CH_ME_RANGE_RANGE_Y (n : Nat) : Fld := ⟨R.ENC_CH_ME_RANGE n, 22, 16⟩
abbrev ENC_CH_REF_ADDR_LO_VAL (n : Nat) : Fld := ⟨R.ENC_CH_REF_ADDR_LO n, 31, 0⟩
abbrev ENC_CH_REF_ADDR_HI_VAL (n : Nat) : Fld := ⟨R.ENC_CH_REF_ADDR_HI n, 5, 0⟩
abbrev ENC_CH_REF_BUFS_B (n : Nat) : Fld := ⟨R.ENC_CH_REF_BUFS n, 3, 0⟩
abbrev ENC_CH_RC_LAT_LAT (n : Nat) : Fld := ⟨R.ENC_CH_RC_LAT n, 12, 0⟩
abbrev ENC_CH_RC_MINLAT_LAT_MIN (n : Nat) : Fld := ⟨R.ENC_CH_RC_MINLAT n, 12, 0⟩
abbrev ENC_CH_RC_RATE_BR (n : Nat) : Fld := ⟨R.ENC_CH_RC_RATE n, 26, 0⟩
abbrev ENC_CH_RC_QP_QP_MIN (n : Nat) : Fld := ⟨R.ENC_CH_RC_QP n, 5, 0⟩
abbrev ENC_CH_RC_QP_QP_MAX (n : Nat) : Fld := ⟨R.ENC_CH_RC_QP n, 13, 8⟩
abbrev ENC_CH_RC_QP_DQ_MAX (n : Nat) : Fld := ⟨R.ENC_CH_RC_QP n, 19, 16⟩
abbrev ENC_CH_RC_FLOOR_FLOOR_I (n : Nat) : Fld := ⟨R.ENC_CH_RC_FLOOR n, 15, 0⟩
abbrev ENC_CH_RC_RECOV_HEAD (n : Nat) : Fld := ⟨R.ENC_CH_RC_RECOV n, 7, 0⟩
abbrev ENC_CH_RC_RECOV_REC (n : Nat) : Fld := ⟨R.ENC_CH_RC_RECOV n, 15, 8⟩
abbrev DIS_CTL_EN : Fld := ⟨R.DIS_CTL, 0, 0⟩
abbrev DIS_CTL_MAX_REPLAY : Fld := ⟨R.DIS_CTL, 2, 1⟩
abbrev DIS_CTL_LB_KEEP : Fld := ⟨R.DIS_CTL, 3, 3⟩
abbrev DIS_STATUS_P : Fld := ⟨R.DIS_STATUS, 6, 0⟩
abbrev DIS_STATUS_RETIRED : Fld := ⟨R.DIS_STATUS, 13, 7⟩
abbrev DIS_STATUS_COOLING : Fld := ⟨R.DIS_STATUS, 20, 14⟩
abbrev DIS_STATUS_SPARE : Fld := ⟨R.DIS_STATUS, 21, 21⟩
abbrev DIS_STATUS_SPARE_PIPE : Fld := ⟨R.DIS_STATUS, 27, 22⟩
abbrev DIS_FLAGS_FAULT : Fld := ⟨R.DIS_FLAGS, 0, 0⟩
abbrev DIS_FLAGS_STAND_IN : Fld := ⟨R.DIS_FLAGS, 1, 1⟩
abbrev DIS_FLAGS_RETIRE : Fld := ⟨R.DIS_FLAGS, 2, 2⟩
abbrev DIS_FLAGS_SHED : Fld := ⟨R.DIS_FLAGS, 3, 3⟩
abbrev DIS_FLAGS_DL_MISS : Fld := ⟨R.DIS_FLAGS, 4, 4⟩
abbrev DIS_FLAGS_COOL_DEFER : Fld := ⟨R.DIS_FLAGS, 5, 5⟩
abbrev DIS_FLAGS_LB_CRC : Fld := ⟨R.DIS_FLAGS, 6, 6⟩
abbrev DIS_FLAGS_WARM : Fld := ⟨R.DIS_FLAGS, 7, 7⟩
abbrev DIS_LAG_LAG_LINES : Fld := ⟨R.DIS_LAG, 12, 0⟩
abbrev DIS_RETIRE_THR : Fld := ⟨R.DIS_RETIRE, 3, 0⟩
abbrev DIS_RETIRE_WIN : Fld := ⟨R.DIS_RETIRE, 31, 16⟩
abbrev DIS_CMD_PIPE : Fld := ⟨R.DIS_CMD, 5, 0⟩
abbrev DIS_CMD_UNRETIRE : Fld := ⟨R.DIS_CMD, 8, 8⟩
abbrev DIS_LB_ADDR_LO_VAL : Fld := ⟨R.DIS_LB_ADDR_LO, 31, 0⟩
abbrev DIS_LB_ADDR_HI_VAL : Fld := ⟨R.DIS_LB_ADDR_HI, 5, 0⟩
abbrev DIS_LB_HEAD_NEXT : Fld := ⟨R.DIS_LB_HEAD, 17, 0⟩
abbrev DIS_LB_WARM_FIRST_R210 : Fld := ⟨R.DIS_LB_WARM_FIRST, 17, 0⟩
abbrev DIS_LB_WARM_CNT_R210 : Fld := ⟨R.DIS_LB_WARM_CNT, 17, 0⟩
abbrev DIS_QUAD_CTL_PARK (q : Nat) : Fld := ⟨R.DIS_QUAD_CTL q, 0, 0⟩
abbrev DIS_QUAD_CTL_PARKED (q : Nat) : Fld := ⟨R.DIS_QUAD_CTL q, 1, 1⟩
abbrev DIS_CH_CTL_PRI (n : Nat) : Fld := ⟨R.DIS_CH_CTL n, 2, 0⟩
abbrev DIS_CH_CTL_SHED (n : Nat) : Fld := ⟨R.DIS_CH_CTL n, 8, 8⟩
abbrev DIS_TRK_CTL_EN : Fld := ⟨R.DIS_TRK_CTL, 0, 0⟩
abbrev DIS_TRK_CTL_MODE : Fld := ⟨R.DIS_TRK_CTL, 1, 1⟩
abbrev DIS_TRK_CTL_CH_FILT : Fld := ⟨R.DIS_TRK_CTL, 2, 2⟩
abbrev DIS_TRK_CTL_CH : Fld := ⟨R.DIS_TRK_CTL, 7, 3⟩
abbrev DIS_TRK_CTL_TRIG_KIND : Fld := ⟨R.DIS_TRK_CTL, 11, 8⟩
abbrev DIS_TRK_CTL_POST : Fld := ⟨R.DIS_TRK_CTL, 31, 16⟩
abbrev DIS_TRK_MASK_KINDS : Fld := ⟨R.DIS_TRK_MASK, 15, 0⟩
abbrev DIS_TRK_STATUS_RECORDS : Fld := ⟨R.DIS_TRK_STATUS, 16, 0⟩
abbrev DIS_TRK_STATUS_STOPPED : Fld := ⟨R.DIS_TRK_STATUS, 17, 17⟩
abbrev DIS_TRK_STATUS_TRIGGERED : Fld := ⟨R.DIS_TRK_STATUS, 18, 18⟩
abbrev DIS_TRK_NEXT_INDEX : Fld := ⟨R.DIS_TRK_NEXT, 15, 0⟩
abbrev DIS_TRK_CMD_CLEAR : Fld := ⟨R.DIS_TRK_CMD, 0, 0⟩
abbrev DIS_PIPE_STATUS_RUN (p : Nat) : Fld := ⟨R.DIS_PIPE_STATUS p, 0, 0⟩
abbrev DIS_PIPE_STATUS_NEXT (p : Nat) : Fld := ⟨R.DIS_PIPE_STATUS p, 1, 1⟩
abbrev DIS_PIPE_STATUS_COOL_REQ (p : Nat) : Fld := ⟨R.DIS_PIPE_STATUS p, 2, 2⟩
abbrev DIS_PIPE_STATUS_COOLING (p : Nat) : Fld := ⟨R.DIS_PIPE_STATUS p, 3, 3⟩
abbrev DIS_PIPE_STATUS_RETIRED (p : Nat) : Fld := ⟨R.DIS_PIPE_STATUS p, 4, 4⟩
abbrev DIS_PIPE_STATUS_PARKED (p : Nat) : Fld := ⟨R.DIS_PIPE_STATUS p, 5, 5⟩
abbrev DIS_PIPE_STATUS_CH (p : Nat) : Fld := ⟨R.DIS_PIPE_STATUS p, 10, 6⟩
abbrev DIS_PIPE_LAST_FAULT_CLASS (p : Nat) : Fld := ⟨R.DIS_PIPE_LAST_FAULT p, 3, 0⟩
abbrev EGS_CTL_EN : Fld := ⟨R.EGS_CTL, 0, 0⟩
abbrev EGS_FLAGS_DROP : Fld := ⟨R.EGS_FLAGS, 0, 0⟩
abbrev EGS_FLAGS_DOWN : Fld := ⟨R.EGS_FLAGS, 1, 1⟩
abbrev EGS_FLAGS_PIR_LOW : Fld := ⟨R.EGS_FLAGS, 2, 2⟩
abbrev EGS_SAMPLE_INTERVAL : Fld := ⟨R.EGS_SAMPLE, 12, 0⟩
abbrev EGS_SAMPLE_PHASE : Fld := ⟨R.EGS_SAMPLE, 28, 16⟩
abbrev EGS_FT_CMD_FLOW : Fld := ⟨R.EGS_FT_CMD, 15, 0⟩
abbrev EGS_FT_CMD_READ : Fld := ⟨R.EGS_FT_CMD, 16, 16⟩
abbrev EGS_FT_CMD_WRITE : Fld := ⟨R.EGS_FT_CMD, 17, 17⟩
abbrev EGS_PORT_OVH_OVH (p : Nat) : Fld := ⟨R.EGS_PORT_OVH p, 5, 0⟩
abbrev EGS_PORT_RESV_R_P (p : Nat) : Fld := ⟨R.EGS_PORT_RESV p, 19, 0⟩
abbrev EGS_PORT_PIRSUM_PIR (p : Nat) : Fld := ⟨R.EGS_PORT_PIRSUM p, 19, 0⟩
abbrev EGS_PORT_PBOUND_PBOUND_P (p : Nat) : Fld := ⟨R.EGS_PORT_PBOUND p, 15, 0⟩
abbrev EGS_CH_DONDIFF_R221 (c : Nat) : Fld := ⟨R.EGS_CH_DONDIFF c, 15, 0⟩
abbrev TWN_CTL_EN : Fld := ⟨R.TWN_CTL, 0, 0⟩
abbrev TWN_CTL_PORT : Fld := ⟨R.TWN_CTL, 3, 1⟩
abbrev TWN_CTL_START_WAIT : Fld := ⟨R.TWN_CTL, 15, 8⟩
abbrev TWN_STATUS_ROLE : Fld := ⟨R.TWN_STATUS, 2, 0⟩
abbrev TWN_STATUS_HELM_OUT : Fld := ⟨R.TWN_STATUS, 3, 3⟩
abbrev TWN_STATUS_HELM_IN : Fld := ⟨R.TWN_STATUS, 4, 4⟩
abbrev TWN_STATUS_TWIN_FIRST : Fld := ⟨R.TWN_STATUS, 5, 5⟩
abbrev TWN_STATUS_LINK : Fld := ⟨R.TWN_STATUS, 6, 6⟩
abbrev TWN_STATUS_PARTNER_SYNC : Fld := ⟨R.TWN_STATUS, 7, 7⟩
abbrev TWN_STATUS_REDUNDANT : Fld := ⟨R.TWN_STATUS, 8, 8⟩
abbrev TWN_FLAGS_TAKEOVER : Fld := ⟨R.TWN_FLAGS, 0, 0⟩
abbrev TWN_FLAGS_YIELD : Fld := ⟨R.TWN_FLAGS, 1, 1⟩
abbrev TWN_FLAGS_LATE : Fld := ⟨R.TWN_FLAGS, 2, 2⟩
abbrev TWN_FLAGS_DISCARD : Fld := ⟨R.TWN_FLAGS, 3, 3⟩
abbrev TWN_FLAGS_MISMATCH : Fld := ⟨R.TWN_FLAGS, 4, 4⟩
abbrev TWN_FLAGS_REC_LATE : Fld := ⟨R.TWN_FLAGS, 5, 5⟩
abbrev TWN_FLAGS_REC_MISMATCH : Fld := ⟨R.TWN_FLAGS, 6, 6⟩
abbrev TWN_FLAGS_LINK_LOST : Fld := ⟨R.TWN_FLAGS, 7, 7⟩
abbrev TWN_FLAGS_TAG : Fld := ⟨R.TWN_FLAGS, 8, 8⟩
abbrev TWN_FLAGS_STRAP : Fld := ⟨R.TWN_FLAGS, 9, 9⟩
abbrev TWN_DIG_TO_T_D : Fld := ⟨R.TWN_DIG_TO, 5, 0⟩
abbrev TWN_ADOPT_ADOPT : Fld := ⟨R.TWN_ADOPT, 6, 0⟩
abbrev TWN_CMD_GIVE_UP : Fld := ⟨R.TWN_CMD, 0, 0⟩
abbrev TWN_CH_STATUS_STATE (c : Nat) : Fld := ⟨R.TWN_CH_STATUS c, 1, 0⟩
abbrev TWN_CH_STATUS_CAUSE (c : Nat) : Fld := ⟨R.TWN_CH_STATUS c, 3, 2⟩
abbrev TWN_CH_STATUS_MATCH (c : Nat) : Fld := ⟨R.TWN_CH_STATUS c, 14, 4⟩
abbrev CNV_CTL_EN : Fld := ⟨R.CNV_CTL, 0, 0⟩
abbrev CNV_CTL_CH : Fld := ⟨R.CNV_CTL, 5, 1⟩
abbrev CNV_CTL_SHADOW : Fld := ⟨R.CNV_CTL, 6, 6⟩
abbrev CNV_STATUS_ONTIME : Fld := ⟨R.CNV_STATUS, 6, 0⟩
abbrev CNV_STATUS_SPLIT : Fld := ⟨R.CNV_STATUS, 7, 7⟩
abbrev CNV_STATUS_CONFIG : Fld := ⟨R.CNV_STATUS, 8, 8⟩
abbrev CNV_FLAGS_LATE : Fld := ⟨R.CNV_FLAGS, 0, 0⟩
abbrev CNV_FLAGS_CONFIG : Fld := ⟨R.CNV_FLAGS, 1, 1⟩
abbrev CNV_FLAGS_SPLIT : Fld := ⟨R.CNV_FLAGS, 2, 2⟩
abbrev CNV_FLAGS_CAP : Fld := ⟨R.CNV_FLAGS, 3, 3⟩
abbrev CNV_FLAGS_LINK_DOWN : Fld := ⟨R.CNV_FLAGS, 4, 4⟩
abbrev CNV_FLAGS_RELAY_DROP : Fld := ⟨R.CNV_FLAGS, 5, 5⟩
abbrev CNV_GRID_ROWS_M1 : Fld := ⟨R.CNV_GRID, 2, 0⟩
abbrev CNV_GRID_COLS_M1 : Fld := ⟨R.CNV_GRID, 6, 4⟩
abbrev CNV_GRID_MY_ROW : Fld := ⟨R.CNV_GRID, 10, 8⟩
abbrev CNV_GRID_MY_COL : Fld := ⟨R.CNV_GRID, 14, 12⟩
abbrev CNV_PORTS_EAST : Fld := ⟨R.CNV_PORTS, 2, 0⟩
abbrev CNV_PORTS_WEST : Fld := ⟨R.CNV_PORTS, 6, 4⟩
abbrev CNV_PORTS_SOUTH : Fld := ⟨R.CNV_PORTS, 10, 8⟩
abbrev CNV_PORTS_NORTH : Fld := ⟨R.CNV_PORTS, 14, 12⟩
abbrev CNV_TIMING_REPORT : Fld := ⟨R.CNV_TIMING, 15, 0⟩
abbrev CNV_TIMING_WINDOW : Fld := ⟨R.CNV_TIMING, 23, 16⟩
abbrev CNV_GRATE_RATE : Fld := ⟨R.CNV_GRATE, 22, 0⟩
abbrev CNV_LATE_LO_OF : Fld := ⟨R.CNV_LATE_LO, 31, 0⟩
abbrev CNV_TC_NCOL_NCOL (j : Nat) : Fld := ⟨R.CNV_TC_NCOL j, 5, 0⟩
abbrev CNV_TR_NROW_NROW (i : Nat) : Fld := ⟨R.CNV_TR_NROW i, 3, 0⟩
abbrev CNV_MAP_MID (m : Nat) : Fld := ⟨R.CNV_MAP m, 9, 0⟩
abbrev CNV_MAP_VALID (m : Nat) : Fld := ⟨R.CNV_MAP m, 31, 31⟩
abbrev CNV_LINK_CTL_REPLAY_TO (p : Nat) : Fld := ⟨R.CNV_LINK_CTL p, 15, 0⟩
abbrev CNV_LINK_CTL_RETRY (p : Nat) : Fld := ⟨R.CNV_LINK_CTL p, 19, 16⟩
abbrev CNV_LINK_STATUS_B1_0 (p : Nat) : Fld := ⟨R.CNV_LINK_STATUS p, 1, 0⟩
abbrev LNE_FLAGS_LANE_LOSS : Fld := ⟨R.LNE_FLAGS, 0, 0⟩
abbrev LNE_FLAGS_PORT_DOWN : Fld := ⟨R.LNE_FLAGS, 1, 1⟩
abbrev LNE_FLAGS_TIMEOUT : Fld := ⟨R.LNE_FLAGS, 2, 2⟩
abbrev LNE_FLAGS_SKEW : Fld := ⟨R.LNE_FLAGS, 3, 3⟩
abbrev LNE_FLAGS_UNCORR : Fld := ⟨R.LNE_FLAGS, 4, 4⟩
abbrev LNE_TRAIN_MARKERS : Fld := ⟨R.LNE_TRAIN, 7, 0⟩
abbrev LNE_TRAIN_BITS_LOG2 : Fld := ⟨R.LNE_TRAIN, 13, 8⟩
abbrev LNE_TRAIN_TIMEOUT : Fld := ⟨R.LNE_TRAIN, 31, 16⟩
abbrev LNE_FEC_LOCK_CNT : Fld := ⟨R.LNE_FEC, 3, 0⟩
abbrev LNE_FEC_LOSS_CNT : Fld := ⟨R.LNE_FEC, 7, 4⟩
abbrev LNE_FEC_UNCORR : Fld := ⟨R.LNE_FEC, 15, 8⟩
abbrev LNE_QUAD_CTL_EN (q : Nat) : Fld := ⟨R.LNE_QUAD_CTL q, 0, 0⟩
abbrev LNE_QUAD_CTL_ROLE (q : Nat) : Fld := ⟨R.LNE_QUAD_CTL q, 2, 1⟩
abbrev LNE_QUAD_CTL_PORT (q : Nat) : Fld := ⟨R.LNE_QUAD_CTL q, 6, 4⟩
abbrev LNE_EPORT_STATUS_STATE (p : Nat) : Fld := ⟨R.LNE_EPORT_STATUS p, 2, 0⟩
abbrev LNE_EPORT_STATUS_W800 (p : Nat) : Fld := ⟨R.LNE_EPORT_STATUS p, 3, 3⟩
abbrev LNE_EPORT_STATUS_ORDER (p : Nat) : Fld := ⟨R.LNE_EPORT_STATUS p, 11, 4⟩
abbrev LNE_EPORT_STATUS_QUAD (p : Nat) : Fld := ⟨R.LNE_EPORT_STATUS p, 15, 12⟩
abbrev LNE_SPORT_STATUS_STATE (p : Nat) : Fld := ⟨R.LNE_SPORT_STATUS p, 2, 0⟩
abbrev LNE_SPORT_STATUS_W800 (p : Nat) : Fld := ⟨R.LNE_SPORT_STATUS p, 3, 3⟩
abbrev LNE_SPORT_STATUS_ORDER (p : Nat) : Fld := ⟨R.LNE_SPORT_STATUS p, 11, 4⟩
abbrev LNE_SPORT_STATUS_QUAD (p : Nat) : Fld := ⟨R.LNE_SPORT_STATUS p, 15, 12⟩
abbrev LNE_LANE_STATUS_STAGE (l : Nat) : Fld := ⟨R.LNE_LANE_STATUS l, 2, 0⟩
abbrev LNE_LANE_STATUS_RX_INV (l : Nat) : Fld := ⟨R.LNE_LANE_STATUS l, 3, 3⟩
abbrev LNE_LANE_STATUS_SIG (l : Nat) : Fld := ⟨R.LNE_LANE_STATUS l, 4, 4⟩
abbrev LNE_LANE_STATUS_CDR_LOCK (l : Nat) : Fld := ⟨R.LNE_LANE_STATUS l, 5, 5⟩
abbrev LNE_LANE_TRIM_PHASE (l : Nat) : Fld := ⟨R.LNE_LANE_TRIM l, 7, 0⟩
abbrev LNE_LANE_TRIM_OFFSET (l : Nat) : Fld := ⟨R.LNE_LANE_TRIM l, 15, 8⟩
abbrev LNE_LANE_EYE_EYE (l : Nat) : Fld := ⟨R.LNE_LANE_EYE l, 15, 0⟩
abbrev LNE_LANE_EYE_EYE_31 (l : Nat) : Fld := ⟨R.LNE_LANE_EYE l, 31, 16⟩
abbrev LNE_LANE_TEST_PATTERN (l : Nat) : Fld := ⟨R.LNE_LANE_TEST l, 1, 0⟩
abbrev LNE_LANE_TEST_GEN (l : Nat) : Fld := ⟨R.LNE_LANE_TEST l, 2, 2⟩
abbrev LNE_LANE_TEST_CHK (l : Nat) : Fld := ⟨R.LNE_LANE_TEST l, 3, 3⟩
abbrev ETH_FLAGS_FAULT : Fld := ⟨R.ETH_FLAGS, 0, 0⟩
abbrev ETH_FLAGS_OLD_QUERIER : Fld := ⟨R.ETH_FLAGS, 1, 1⟩
abbrev ETH_FLAGS_ICMP_LIMIT : Fld := ⟨R.ETH_FLAGS, 2, 2⟩
abbrev ETH_IGMP_ROBUST : Fld := ⟨R.ETH_IGMP, 3, 0⟩
abbrev ETH_IGMP_URI : Fld := ⟨R.ETH_IGMP, 15, 8⟩
abbrev ETH_IGMP_ICMP_RATE : Fld := ⟨R.ETH_IGMP, 31, 16⟩
abbrev ETH_PORT_CTL_ARP_EN (p : Nat) : Fld := ⟨R.ETH_PORT_CTL p, 0, 0⟩
abbrev ETH_PORT_CTL_ND_EN (p : Nat) : Fld := ⟨R.ETH_PORT_CTL p, 1, 1⟩
abbrev ETH_PORT_CTL_ICMP_EN (p : Nat) : Fld := ⟨R.ETH_PORT_CTL p, 2, 2⟩
abbrev ETH_PORT_CTL_IGMP_EN (p : Nat) : Fld := ⟨R.ETH_PORT_CTL p, 3, 3⟩
abbrev ETH_PORT_CTL_MLD_EN (p : Nat) : Fld := ⟨R.ETH_PORT_CTL p, 4, 4⟩
abbrev ETH_PORT_STATUS_TX_READY (p : Nat) : Fld := ⟨R.ETH_PORT_STATUS p, 0, 0⟩
abbrev ETH_PORT_STATUS_RX_UP (p : Nat) : Fld := ⟨R.ETH_PORT_STATUS p, 1, 1⟩
abbrev ETH_PORT_STATUS_LOCAL_FAULT (p : Nat) : Fld := ⟨R.ETH_PORT_STATUS p, 2, 2⟩
abbrev ETH_PORT_STATUS_REMOTE_FAULT (p : Nat) : Fld := ⟨R.ETH_PORT_STATUS p, 3, 3⟩
abbrev ETH_PORT_MAC_LO_VAL (p : Nat) : Fld := ⟨R.ETH_PORT_MAC_LO p, 31, 0⟩
abbrev ETH_PORT_MAC_HI_VAL (p : Nat) : Fld := ⟨R.ETH_PORT_MAC_HI p, 15, 0⟩
abbrev ETH_PORT_IPV4_VAL (p : Nat) : Fld := ⟨R.ETH_PORT_IPV4 p, 31, 0⟩
abbrev ETH_PORT_IPV6_LL_VAL (p w : Nat) : Fld := ⟨R.ETH_PORT_IPV6_LL p w, 31, 0⟩
abbrev ETH_PORT_JOIN_CNT_GROUPS (p : Nat) : Fld := ⟨R.ETH_PORT_JOIN_CNT p, 9, 0⟩
abbrev HBM_S_CTL_EN (s : Nat) : Fld := ⟨R.HBM_S_CTL s, 0, 0⟩
abbrev HBM_S_STATUS_STATE (s : Nat) : Fld := ⟨R.HBM_S_STATUS s, 2, 0⟩
abbrev HBM_S_STATUS_SELF_REFRESH (s : Nat) : Fld := ⟨R.HBM_S_STATUS s, 3, 3⟩
abbrev HBM_S_FLAGS_CE (s : Nat) : Fld := ⟨R.HBM_S_FLAGS s, 0, 0⟩
abbrev HBM_S_FLAGS_UE (s : Nat) : Fld := ⟨R.HBM_S_FLAGS s, 1, 1⟩
abbrev HBM_S_FLAGS_THROTTLE (s : Nat) : Fld := ⟨R.HBM_S_FLAGS s, 2, 2⟩
abbrev HBM_S_FLAGS_ISO_RH (s : Nat) : Fld := ⟨R.HBM_S_FLAGS s, 3, 3⟩
abbrev HBM_S_FLAGS_TRAIN_FAIL (s : Nat) : Fld := ⟨R.HBM_S_FLAGS s, 4, 4⟩
abbrev HBM_S_FLAGS_CA_PARITY (s : Nat) : Fld := ⟨R.HBM_S_FLAGS s, 5, 5⟩
abbrev HBM_S_FLAGS_HOT (s : Nat) : Fld := ⟨R.HBM_S_FLAGS s, 6, 6⟩
abbrev HBM_S_POOL_BASE (s : Nat) : Fld := ⟨R.HBM_S_POOL s, 15, 0⟩
abbrev HBM_S_POOL_SIZE (s : Nat) : Fld := ⟨R.HBM_S_POOL s, 31, 16⟩
abbrev HBM_S_POOL_NEED_POOL (s : Nat) : Fld := ⟨R.HBM_S_POOL_NEED s, 15, 0⟩
abbrev HBM_S_AGE_AGE_1 (s : Nat) : Fld := ⟨R.HBM_S_AGE s, 7, 0⟩
abbrev HBM_S_AGE_AGE_2 (s : Nat) : Fld := ⟨R.HBM_S_AGE s, 15, 8⟩
abbrev HBM_S_AGE_AGE_3 (s : Nat) : Fld := ⟨R.HBM_S_AGE s, 23, 16⟩
abbrev HBM_S_SCHED_HIT_CAP (s : Nat) : Fld := ⟨R.HBM_S_SCHED s, 3, 0⟩
abbrev HBM_S_SCHED_IDLE (s : Nat) : Fld := ⟨R.HBM_S_SCHED s, 15, 8⟩
abbrev HBM_S_SCHED_PROMO_GAP (s : Nat) : Fld := ⟨R.HBM_S_SCHED s, 23, 16⟩
abbrev HBM_S_RH_THR (s : Nat) : Fld := ⟨R.HBM_S_RH s, 15, 0⟩
abbrev HBM_S_RH_RATE (s : Nat) : Fld := ⟨R.HBM_S_RH s, 23, 16⟩
abbrev HBM_S_RH_BURST (s : Nat) : Fld := ⟨R.HBM_S_RH s, 31, 24⟩
abbrev HBM_S_RH_HOLD_HOLD (s : Nat) : Fld := ⟨R.HBM_S_RH_HOLD s, 7, 0⟩
abbrev HBM_S_SCRUB_HOURS (s : Nat) : Fld := ⟨R.HBM_S_SCRUB s, 15, 0⟩
abbrev HBM_S_TEMP_SENSOR (s : Nat) : Fld := ⟨R.HBM_S_TEMP s, 7, 0⟩
abbrev HBM_S_TEMP_HOT (s : Nat) : Fld := ⟨R.HBM_S_TEMP s, 8, 8⟩
abbrev HBM_S_UE_ADDR_LO_B31_0 (s : Nat) : Fld := ⟨R.HBM_S_UE_ADDR_LO s, 31, 0⟩
abbrev HBM_S_UE_ADDR_HI_ADDRESS (s : Nat) : Fld := ⟨R.HBM_S_UE_ADDR_HI s, 5, 0⟩
abbrev HBM_S_UE_ADDR_HI_REQUESTER (s : Nat) : Fld := ⟨R.HBM_S_UE_ADDR_HI s, 14, 8⟩
abbrev HBM_S_THROTTLED_ID (s : Nat) : Fld := ⟨R.HBM_S_THROTTLED s, 6, 0⟩
abbrev HBM_S_THROTTLED_THROTTLES (s : Nat) : Fld := ⟨R.HBM_S_THROTTLED s, 11, 8⟩
abbrev HBM_S_REPAIR_DQ (s : Nat) : Fld := ⟨R.HBM_S_REPAIR s, 7, 0⟩
abbrev HBM_S_TRAIN_MS_DURATION (s : Nat) : Fld := ⟨R.HBM_S_TRAIN_MS s, 15, 0⟩
abbrev HBM_S_PC_EYE_READ_EYE (s p : Nat) : Fld := ⟨R.HBM_S_PC_EYE s p, 15, 0⟩
abbrev HBM_S_PC_EYE_WRITE_EYE (s p : Nat) : Fld := ⟨R.HBM_S_PC_EYE s p, 31, 16⟩
abbrev HBM_CTL_RATIO : Fld := ⟨R.HBM_CTL, 0, 0⟩
abbrev HBM_MESH_ADDR_LO_VAL : Fld := ⟨R.HBM_MESH_ADDR_LO, 31, 0⟩
abbrev HBM_MESH_ADDR_HI_VAL : Fld := ⟨R.HBM_MESH_ADDR_HI, 5, 0⟩
abbrev AUD_CTL_EN : Fld := ⟨R.AUD_CTL, 0, 0⟩
abbrev AUD_CTL_FS : Fld := ⟨R.AUD_CTL, 3, 1⟩
abbrev AUD_CTL_MCLK_DIV : Fld := ⟨R.AUD_CTL, 5, 4⟩
abbrev AUD_CTL_MCLK_OUT_EN : Fld := ⟨R.AUD_CTL, 6, 6⟩
abbrev AUD_CTL_STACK : Fld := ⟨R.AUD_CTL, 8, 7⟩
abbrev AUD_CTL_DEPTH : Fld := ⟨R.AUD_CTL, 19, 10⟩
abbrev AUD_STATUS_STATE : Fld := ⟨R.AUD_STATUS, 2, 0⟩
abbrev AUD_STATUS_LOCKED : Fld := ⟨R.AUD_STATUS, 3, 3⟩
abbrev AUD_FLAGS_UNLOCK : Fld := ⟨R.AUD_FLAGS, 0, 0⟩
abbrev AUD_FLAGS_SLIP : Fld := ⟨R.AUD_FLAGS, 1, 1⟩
abbrev AUD_FLAGS_UNDER : Fld := ⟨R.AUD_FLAGS, 2, 2⟩
abbrev AUD_FLAGS_MUTE : Fld := ⟨R.AUD_FLAGS, 3, 3⟩
abbrev AUD_FLAGS_LATE : Fld := ⟨R.AUD_FLAGS, 4, 4⟩
abbrev AUD_FLAGS_CS_ERR : Fld := ⟨R.AUD_FLAGS, 5, 5⟩
abbrev AUD_CLK_MODE : Fld := ⟨R.AUD_CLK, 1, 0⟩
abbrev AUD_CLK_SRC : Fld := ⟨R.AUD_CLK, 4, 2⟩
abbrev AUD_CLK_KP : Fld := ⟨R.AUD_CLK, 11, 8⟩
abbrev AUD_CLK_KI : Fld := ⟨R.AUD_CLK, 15, 12⟩
abbrev AUD_CLK_TARGET : Fld := ⟨R.AUD_CLK, 23, 16⟩
abbrev AUD_POS_LO_B31_0 : Fld := ⟨R.AUD_POS_LO, 31, 0⟩
abbrev AUD_POS_HI_P_T : Fld := ⟨R.AUD_POS_HI, 15, 0⟩
abbrev AUD_NEED_POOL : Fld := ⟨R.AUD_NEED, 15, 0⟩
abbrev AUD_CMD_TXS : Fld := ⟨R.AUD_CMD, 5, 0⟩
abbrev AUD_CMD_WRITE_TX : Fld := ⟨R.AUD_CMD, 8, 8⟩
abbrev AUD_AIN_CTL_EN (i : Nat) : Fld := ⟨R.AUD_AIN_CTL i, 0, 0⟩
abbrev AUD_AIN_CTL_CRC_CHK (i : Nat) : Fld := ⟨R.AUD_AIN_CTL i, 1, 1⟩
abbrev AUD_AIN_STATUS_LOCK (i : Nat) : Fld := ⟨R.AUD_AIN_STATUS i, 0, 0⟩
abbrev AUD_AIN_STATUS_V_A (i : Nat) : Fld := ⟨R.AUD_AIN_STATUS i, 1, 1⟩
abbrev AUD_AIN_STATUS_V_B (i : Nat) : Fld := ⟨R.AUD_AIN_STATUS i, 2, 2⟩
abbrev AUD_AIN_STATUS_NONAUDIO (i : Nat) : Fld := ⟨R.AUD_AIN_STATUS i, 3, 3⟩
abbrev AUD_AIN_TS_NS_STC (i : Nat) : Fld := ⟨R.AUD_AIN_TS_NS i, 29, 0⟩
abbrev AUD_AIN_TS_SEC_LO_B31_0 (i : Nat) : Fld := ⟨R.AUD_AIN_TS_SEC_LO i, 31, 0⟩
abbrev AUD_AIN_TS_SEC_HI_SECONDS (i : Nat) : Fld := ⟨R.AUD_AIN_TS_SEC_HI i, 15, 0⟩
abbrev AUD_AIN_CS_A_OF (i w : Nat) : Fld := ⟨R.AUD_AIN_CS_A i w, 31, 0⟩
abbrev AUD_AOUT_CTL_EN (o : Nat) : Fld := ⟨R.AUD_AOUT_CTL o, 0, 0⟩
abbrev AUD_AOUT_CTL_PROTECT (o : Nat) : Fld := ⟨R.AUD_AOUT_CTL o, 1, 1⟩
abbrev AUD_AOUT_CTL_CS_SRC (o : Nat) : Fld := ⟨R.AUD_AOUT_CTL o, 2, 2⟩
abbrev AUD_AOUT_CTL_CRC_GEN (o : Nat) : Fld := ⟨R.AUD_AOUT_CTL o, 3, 3⟩
abbrev AUD_AOUT_CTL_NOVID (o : Nat) : Fld := ⟨R.AUD_AOUT_CTL o, 4, 4⟩
abbrev AUD_AOUT_CTL_SRC_A (o : Nat) : Fld := ⟨R.AUD_AOUT_CTL o, 16, 8⟩
abbrev AUD_AOUT_CTL_SRC_B (o : Nat) : Fld := ⟨R.AUD_AOUT_CTL o, 25, 17⟩
abbrev AUD_AOUT_CTL_VCH (o : Nat) : Fld := ⟨R.AUD_AOUT_CTL o, 30, 26⟩
abbrev AUD_AOUT_TRIM_TRIM (o : Nat) : Fld := ⟨R.AUD_AOUT_TRIM o, 15, 0⟩
abbrev AUD_AOUT_STATUS_RUN (o : Nat) : Fld := ⟨R.AUD_AOUT_STATUS o, 0, 0⟩
abbrev AUD_AOUT_STATUS_MUTED (o : Nat) : Fld := ⟨R.AUD_AOUT_STATUS o, 1, 1⟩
abbrev AUD_AOUT_STATUS_LATE_MUTE (o : Nat) : Fld := ⟨R.AUD_AOUT_STATUS o, 2, 2⟩
abbrev AUD_AOUT_DELAY_DLY (o : Nat) : Fld := ⟨R.AUD_AOUT_DELAY o, 15, 0⟩
abbrev AUD_AOUT_UNMUTE_UNMUTE (o : Nat) : Fld := ⟨R.AUD_AOUT_UNMUTE o, 3, 0⟩
abbrev AUD_TDM_CTL_RX_EN (t : Nat) : Fld := ⟨R.AUD_TDM_CTL t, 0, 0⟩
abbrev AUD_TDM_CTL_TX_EN (t : Nat) : Fld := ⟨R.AUD_TDM_CTL t, 1, 1⟩
abbrev AUD_TDM_CTL_MASTER (t : Nat) : Fld := ⟨R.AUD_TDM_CTL t, 2, 2⟩
abbrev AUD_TDM_CTL_DELAY1 (t : Nat) : Fld := ⟨R.AUD_TDM_CTL t, 3, 3⟩
abbrev AUD_TDM_CTL_NOVID (t : Nat) : Fld := ⟨R.AUD_TDM_CTL t, 4, 4⟩
abbrev AUD_TDM_CTL_SLOTS (t : Nat) : Fld := ⟨R.AUD_TDM_CTL t, 9, 5⟩
abbrev AUD_TDM_CTL_VCH (t : Nat) : Fld := ⟨R.AUD_TDM_CTL t, 14, 10⟩
abbrev AUD_TDM_CTL_EDGE (t : Nat) : Fld := ⟨R.AUD_TDM_CTL t, 15, 15⟩
abbrev AUD_TDM_CTL_BLK (t : Nat) : Fld := ⟨R.AUD_TDM_CTL t, 19, 16⟩
abbrev AUD_TDM_MASK_TX (t : Nat) : Fld := ⟨R.AUD_TDM_MASK t, 15, 0⟩
abbrev AUD_TDM_MASK_RX (t : Nat) : Fld := ⟨R.AUD_TDM_MASK t, 31, 16⟩
abbrev AUD_TDM_CMD_COMMIT (t : Nat) : Fld := ⟨R.AUD_TDM_CMD t, 0, 0⟩
abbrev AUD_TDM_STATUS_RUN (t : Nat) : Fld := ⟨R.AUD_TDM_STATUS t, 0, 0⟩
abbrev AUD_TDM_STATUS_PENDING (t : Nat) : Fld := ⟨R.AUD_TDM_STATUS t, 1, 1⟩
abbrev AUD_TDM_STATUS_FS_LOCK (t : Nat) : Fld := ⟨R.AUD_TDM_STATUS t, 2, 2⟩
abbrev AUD_TDM_TRIM_TRIM (t : Nat) : Fld := ⟨R.AUD_TDM_TRIM t, 15, 0⟩
abbrev AUD_TDM_DELAY_DLY (t : Nat) : Fld := ⟨R.AUD_TDM_DELAY t, 15, 0⟩
abbrev AUD_TDM_SRC_SRC0 (t w : Nat) : Fld := ⟨R.AUD_TDM_SRC t w, 8, 0⟩
abbrev AUD_TDM_SRC_SRC1 (t w : Nat) : Fld := ⟨R.AUD_TDM_SRC t w, 24, 16⟩
abbrev AUD_RXS_CTL_EN (r : Nat) : Fld := ⟨R.AUD_RXS_CTL r, 0, 0⟩
abbrev AUD_RXS_CTL_CHANS (r : Nat) : Fld := ⟨R.AUD_RXS_CTL r, 7, 1⟩
abbrev AUD_RXS_CTL_L24 (r : Nat) : Fld := ⟨R.AUD_RXS_CTL r, 8, 8⟩
abbrev AUD_RXS_CTL_PT125 (r : Nat) : Fld := ⟨R.AUD_RXS_CTL r, 9, 9⟩
abbrev AUD_RXS_CTL_BASE (r : Nat) : Fld := ⟨R.AUD_RXS_CTL r, 23, 16⟩
abbrev AUD_RXS_STATUS_RUN (r : Nat) : Fld := ⟨R.AUD_RXS_STATUS r, 0, 0⟩
abbrev AUD_RXS_STATUS_LEG_A (r : Nat) : Fld := ⟨R.AUD_RXS_STATUS r, 1, 1⟩
abbrev AUD_RXS_STATUS_LEG_B (r : Nat) : Fld := ⟨R.AUD_RXS_STATUS r, 2, 2⟩
abbrev AUD_TXS_CTL_EN (s : Nat) : Fld := ⟨R.AUD_TXS_CTL s, 0, 0⟩
abbrev AUD_TXS_CTL_CHANS (s : Nat) : Fld := ⟨R.AUD_TXS_CTL s, 7, 1⟩
abbrev AUD_TXS_CTL_L24 (s : Nat) : Fld := ⟨R.AUD_TXS_CTL s, 8, 8⟩
abbrev AUD_TXS_CTL_PT125 (s : Nat) : Fld := ⟨R.AUD_TXS_CTL s, 9, 9⟩
abbrev AUD_TXS_CTL_NOVID (s : Nat) : Fld := ⟨R.AUD_TXS_CTL s, 10, 10⟩
abbrev AUD_TXS_CTL_VCH (s : Nat) : Fld := ⟨R.AUD_TXS_CTL s, 15, 11⟩
abbrev AUD_TXS_CTL_BASE (s : Nat) : Fld := ⟨R.AUD_TXS_CTL s, 23, 16⟩
abbrev AUD_TXS_FLOW_FLOW (s : Nat) : Fld := ⟨R.AUD_TXS_FLOW s, 15, 0⟩
abbrev AUD_TXS_TRIM_TRIM (s : Nat) : Fld := ⟨R.AUD_TXS_TRIM s, 15, 0⟩
abbrev AUD_TXS_DELAY_DLY (s : Nat) : Fld := ⟨R.AUD_TXS_DELAY s, 15, 0⟩
abbrev AUD_NTX_SRC_SRC (k : Nat) : Fld := ⟨R.AUD_NTX_SRC k, 8, 0⟩
abbrev CAL_CTL_EN : Fld := ⟨R.CAL_CTL, 0, 0⟩
abbrev CAL_CTL_AVS_EN : Fld := ⟨R.CAL_CTL, 1, 1⟩
abbrev CAL_CTL_FS_EN : Fld := ⟨R.CAL_CTL, 2, 2⟩
abbrev CAL_CTL_TP_EN : Fld := ⟨R.CAL_CTL, 3, 3⟩
abbrev CAL_CTL_JIT_EN : Fld := ⟨R.CAL_CTL, 4, 4⟩
abbrev CAL_CTL_AUTO_PARK : Fld := ⟨R.CAL_CTL, 5, 5⟩
abbrev CAL_STATUS_STATE : Fld := ⟨R.CAL_STATUS, 2, 0⟩
abbrev CAL_STATUS_WINDOW : Fld := ⟨R.CAL_STATUS, 3, 3⟩
abbrev CAL_FLAGS_REJECT : Fld := ⟨R.CAL_FLAGS, 0, 0⟩
abbrev CAL_FLAGS_AVS_LIMIT : Fld := ⟨R.CAL_FLAGS, 1, 1⟩
abbrev CAL_FLAGS_PLL_DEFER : Fld := ⟨R.CAL_FLAGS, 2, 2⟩
abbrev CAL_FLAGS_JIT_WARN : Fld := ⟨R.CAL_FLAGS, 3, 3⟩
abbrev CAL_TRIG_TEMP_DELTA : Fld := ⟨R.CAL_TRIG, 4, 0⟩
abbrev CAL_WIN_START : Fld := ⟨R.CAL_WIN, 15, 0⟩
abbrev CAL_WIN_LEN : Fld := ⟨R.CAL_WIN, 31, 16⟩
abbrev CAL_STEP_STEP_US : Fld := ⟨R.CAL_STEP, 7, 0⟩
abbrev CAL_CMD_KIND : Fld := ⟨R.CAL_CMD, 1, 0⟩
abbrev CAL_CMD_INSTANCE : Fld := ⟨R.CAL_CMD, 8, 2⟩
abbrev CAL_CMD_RUN : Fld := ⟨R.CAL_CMD, 15, 15⟩
abbrev CAL_CHK_MODE (k : Nat) : Fld := ⟨R.CAL_CHK k, 0, 0⟩
abbrev CAL_CHK_TOL (k : Nat) : Fld := ⟨R.CAL_CHK k, 7, 4⟩
abbrev CAL_CHK_LIM (k : Nat) : Fld := ⟨R.CAL_CHK k, 15, 8⟩
abbrev CAL_CHK_QMIN (k : Nat) : Fld := ⟨R.CAL_CHK k, 31, 16⟩
abbrev CAL_PLL_PEND_PLL : Fld := ⟨R.CAL_PLL_PEND, 10, 0⟩
abbrev CAL_AVS_CTL_VMIN (q : Nat) : Fld := ⟨R.CAL_AVS_CTL q, 9, 0⟩
abbrev CAL_AVS_CTL_VMAX (q : Nat) : Fld := ⟨R.CAL_AVS_CTL q, 19, 10⟩
abbrev CAL_AVS_CTL_TARGET (q : Nat) : Fld := ⟨R.CAL_AVS_CTL q, 27, 20⟩
abbrev CAL_AVS_VOLT_SUPPLY (q : Nat) : Fld := ⟨R.CAL_AVS_VOLT q, 9, 0⟩
abbrev CAL_AVS_RESID_E (q : Nat) : Fld := ⟨R.CAL_AVS_RESID q, 7, 0⟩
abbrev CAL_FS_CTL_D_MAX (q : Nat) : Fld := ⟨R.CAL_FS_CTL q, 3, 0⟩
abbrev CAL_FS_STATUS_D (q : Nat) : Fld := ⟨R.CAL_FS_STATUS q, 3, 0⟩
abbrev CAL_TP_COOL_ON : Fld := ⟨R.CAL_TP, 7, 0⟩
abbrev CAL_TP_COOL_OFF : Fld := ⟨R.CAL_TP, 15, 8⟩
abbrev CAL_TP_COOL_MAX : Fld := ⟨R.CAL_TP, 19, 16⟩
abbrev CAL_JIT_CTL_K : Fld := ⟨R.CAL_JIT_CTL, 3, 0⟩
abbrev CAL_JIT_CTL_AVG : Fld := ⟨R.CAL_JIT_CTL, 7, 4⟩
abbrev CAL_JIT_CTL_FLOOR : Fld := ⟨R.CAL_JIT_CTL, 31, 16⟩
abbrev CAL_PIPE_TEMP_C (p : Nat) : Fld := ⟨R.CAL_PIPE_TEMP p, 7, 0⟩
abbrev CAL_PIPE_TEMP_OFFSET (p : Nat) : Fld := ⟨R.CAL_PIPE_TEMP p, 15, 8⟩
abbrev GLB_ID_PART_PART : Fld := ⟨R.GLB_ID_PART, 15, 0⟩
abbrev GLB_ID_PART_FAMILY : Fld := ⟨R.GLB_ID_PART, 31, 16⟩
abbrev GLB_ID_REV_LETTER : Fld := ⟨R.GLB_ID_REV, 7, 4⟩
abbrev GLB_ID_REV_NUMBER : Fld := ⟨R.GLB_ID_REV, 3, 0⟩
abbrev GLB_MID_MID_0 : Fld := ⟨R.GLB_MID, 9, 0⟩
abbrev GLB_SERIAL_LO_B31_0 : Fld := ⟨R.GLB_SERIAL_LO, 31, 0⟩
abbrev GLB_RESET_CAUSE_KIND : Fld := ⟨R.GLB_RESET_CAUSE, 1, 0⟩
abbrev GLB_RESET_CAUSE_SOURCE : Fld := ⟨R.GLB_RESET_CAUSE, 5, 2⟩
abbrev GLB_RESET_WARM : Fld := ⟨R.GLB_RESET, 0, 0⟩
abbrev GLB_RESET_COLD : Fld := ⟨R.GLB_RESET, 1, 1⟩
abbrev GLB_RESET_KEY : Fld := ⟨R.GLB_RESET, 31, 16⟩
abbrev GLB_FEAT_CTL_COMMIT : Fld := ⟨R.GLB_FEAT_CTL, 0, 0⟩
abbrev GLB_FEAT_CTL_LOCKED : Fld := ⟨R.GLB_FEAT_CTL, 1, 1⟩
abbrev GLB_FEAT_CTL_WINDOW : Fld := ⟨R.GLB_FEAT_CTL, 2, 2⟩
abbrev GLB_FEAT_CTL_BY_HOST : Fld := ⟨R.GLB_FEAT_CTL, 3, 3⟩
abbrev GLB_LAST_FAULT_FN_LAST : Fld := ⟨R.GLB_LAST_FAULT_FN, 6, 0⟩
abbrev CFG_STATUS_STATE : Fld := ⟨R.CFG_STATUS, 3, 0⟩
abbrev CFG_STATUS_SIGNED : Fld := ⟨R.CFG_STATUS, 4, 4⟩
abbrev CFG_STATUS_FALLBACK : Fld := ⟨R.CFG_STATUS, 5, 5⟩
abbrev CFG_FLAGS_REFUSED : Fld := ⟨R.CFG_FLAGS, 0, 0⟩
abbrev CFG_FLAGS_FAILED : Fld := ⟨R.CFG_FLAGS, 1, 1⟩
abbrev CFG_FLAGS_UNREADABLE : Fld := ⟨R.CFG_FLAGS, 2, 2⟩
abbrev CFG_FLAGS_LOCKED : Fld := ⟨R.CFG_FLAGS, 3, 3⟩
abbrev CFG_CMD_LOCK : Fld := ⟨R.CFG_CMD, 0, 0⟩
abbrev CFG_SET_FMT_SETTINGS : Fld := ⟨R.CFG_SET_FMT, 15, 0⟩
abbrev CFG_KEYSLOT_SLOT : Fld := ⟨R.CFG_KEYSLOT, 0, 0⟩
abbrev CFG_KEYSLOT_SLOT_1 : Fld := ⟨R.CFG_KEYSLOT, 1, 1⟩
abbrev CFG_FLASH_DENSITY : Fld := ⟨R.CFG_FLASH, 7, 0⟩
abbrev CFG_FLASH_SECOND : Fld := ⟨R.CFG_FLASH, 8, 8⟩
abbrev UPD_CTL_ACCEPT : Fld := ⟨R.UPD_CTL, 0, 0⟩
abbrev UPD_STATUS_STATE : Fld := ⟨R.UPD_STATUS, 2, 0⟩
abbrev UPD_STATUS_KIND : Fld := ⟨R.UPD_STATUS, 3, 3⟩
abbrev UPD_STATUS_SRC_KIND : Fld := ⟨R.UPD_STATUS, 4, 4⟩
abbrev UPD_STATUS_TRIAL : Fld := ⟨R.UPD_STATUS, 6, 5⟩
abbrev UPD_STATUS_RUN_FB : Fld := ⟨R.UPD_STATUS, 7, 7⟩
abbrev UPD_FLAGS_REFUSE : Fld := ⟨R.UPD_FLAGS, 0, 0⟩
abbrev UPD_FLAGS_ABANDON : Fld := ⟨R.UPD_FLAGS, 1, 1⟩
abbrev UPD_FLAGS_INSTALL_FAIL : Fld := ⟨R.UPD_FLAGS, 2, 2⟩
abbrev UPD_FLAGS_FALLBACK : Fld := ⟨R.UPD_FLAGS, 3, 3⟩
abbrev UPD_IDLE_HOURS : Fld := ⟨R.UPD_IDLE, 13, 0⟩
abbrev UPD_TRIAL_TRIAL_MIN : Fld := ⟨R.UPD_TRIAL, 15, 0⟩
abbrev UPD_TRIAL_K : Fld := ⟨R.UPD_TRIAL, 18, 16⟩
abbrev UPD_TRIAL_HEALTH_S : Fld := ⟨R.UPD_TRIAL, 31, 24⟩
abbrev UPD_PARCELS_PARCELS : Fld := ⟨R.UPD_PARCELS, 11, 0⟩
abbrev UPD_PARCELS_NPARCELS : Fld := ⟨R.UPD_PARCELS, 27, 16⟩
abbrev UPD_CMD_CANCEL : Fld := ⟨R.UPD_CMD, 0, 0⟩
abbrev UPD_CMD_CONFIRM : Fld := ⟨R.UPD_CMD, 1, 1⟩
abbrev UPD_CMD_REJECT : Fld := ⟨R.UPD_CMD, 2, 2⟩
abbrev UPD_CMD_KEY : Fld := ⟨R.UPD_CMD, 31, 16⟩
abbrev UPD_TRIAL_STATUS_ATTEMPTS : Fld := ⟨R.UPD_TRIAL_STATUS, 3, 0⟩
abbrev UPD_TRIAL_STATUS_HEALTHY : Fld := ⟨R.UPD_TRIAL_STATUS, 4, 4⟩
abbrev UPD_TRIAL_STATUS_TRIAL_ELAPSED : Fld := ⟨R.UPD_TRIAL_STATUS, 31, 16⟩
abbrev UPD_LAST_REFUSE_STATUS : Fld := ⟨R.UPD_LAST_REFUSE, 7, 0⟩
abbrev UPD_ERR_REASON : Fld := ⟨R.UPD_ERR, 7, 0⟩
abbrev BIN_STATUS_MUTED : Fld := ⟨R.BIN_STATUS, 0, 0⟩
abbrev BIN_STATUS_MUTE_HOLD : Fld := ⟨R.BIN_STATUS, 1, 1⟩
abbrev BIN_STATUS_HELM_OUT : Fld := ⟨R.BIN_STATUS, 2, 2⟩
abbrev BIN_STATUS_GIVEN_UP : Fld := ⟨R.BIN_STATUS, 3, 3⟩
abbrev BIN_STATUS_SHUTDOWN : Fld := ⟨R.BIN_STATUS, 4, 4⟩
abbrev BIN_STATUS_VSTBY : Fld := ⟨R.BIN_STATUS, 5, 5⟩
abbrev BIN_STATUS_FAULT_N : Fld := ⟨R.BIN_STATUS, 6, 6⟩
abbrev BIN_FAULT_TWIN_WD : Fld := ⟨R.BIN_FAULT, 0, 0⟩
abbrev BIN_FAULT_PLL : Fld := ⟨R.BIN_FAULT, 1, 1⟩
abbrev BIN_FAULT_DIGEST : Fld := ⟨R.BIN_FAULT, 2, 2⟩
abbrev BIN_FAULT_THERM_WARN : Fld := ⟨R.BIN_FAULT, 3, 3⟩
abbrev BIN_FAULT_THERM_SHUT : Fld := ⟨R.BIN_FAULT, 4, 4⟩
abbrev BIN_FAULT_POWER : Fld := ⟨R.BIN_FAULT, 5, 5⟩
abbrev BIN_FAULT_GIVE_UP : Fld := ⟨R.BIN_FAULT, 6, 6⟩
abbrev BIN_FAULT_FW_WD : Fld := ⟨R.BIN_FAULT, 7, 7⟩
abbrev BIN_FAULT_TRIAL_WD : Fld := ⟨R.BIN_FAULT, 8, 8⟩
abbrev BIN_FAULT_FUNC_FAULT : Fld := ⟨R.BIN_FAULT, 9, 9⟩
abbrev BIN_FAULT_FH_LOST : Fld := ⟨R.BIN_FAULT, 10, 10⟩
abbrev BIN_CMD_MUTE : Fld := ⟨R.BIN_CMD, 0, 0⟩
abbrev BIN_CMD_UNMUTE : Fld := ⟨R.BIN_CMD, 1, 1⟩
abbrev BIN_CMD_GIVE_UP : Fld := ⟨R.BIN_CMD, 2, 2⟩
abbrev BIN_CMD_WARM : Fld := ⟨R.BIN_CMD, 3, 3⟩
abbrev BIN_CMD_COLD : Fld := ⟨R.BIN_CMD, 4, 4⟩
abbrev BIN_CMD_SHUTDOWN : Fld := ⟨R.BIN_CMD, 5, 5⟩
abbrev BIN_CMD_KEY : Fld := ⟨R.BIN_CMD, 31, 16⟩
abbrev BIN_THERM_WARN : Fld := ⟨R.BIN_THERM, 7, 0⟩
abbrev BIN_THERM_SHUT : Fld := ⟨R.BIN_THERM, 15, 8⟩
abbrev BIN_THERM_AUTO_REC : Fld := ⟨R.BIN_THERM, 16, 16⟩
abbrev BIN_TEMP_HOTTEST : Fld := ⟨R.BIN_TEMP, 7, 0⟩
abbrev BIN_TEMP_HOTTEST_15 : Fld := ⟨R.BIN_TEMP, 15, 8⟩
abbrev BIN_VIN_VIN : Fld := ⟨R.BIN_VIN, 15, 0⟩
abbrev BIN_VIN_VSTBY : Fld := ⟨R.BIN_VIN, 31, 16⟩
abbrev BIN_WDOG_PERIOD : Fld := ⟨R.BIN_WDOG, 15, 0⟩
abbrev BIN_WDOG_ACTION : Fld := ⟨R.BIN_WDOG, 17, 16⟩
abbrev BIN_UPTIME_LO_B31_0 : Fld := ⟨R.BIN_UPTIME_LO, 31, 0⟩
abbrev BIN_STC_SEC_VAL : Fld := ⟨R.BIN_STC_SEC, 31, 0⟩
abbrev BIN_SVC_CTL_ADDR : Fld := ⟨R.BIN_SVC_CTL, 6, 0⟩
abbrev BIN_SVC_CTL_PEC : Fld := ⟨R.BIN_SVC_CTL, 7, 7⟩
abbrev BIN_FH_HEAD_NEXT : Fld := ⟨R.BIN_FH_HEAD, 15, 0⟩
abbrev BIN_FH_SEL_SEL : Fld := ⟨R.BIN_FH_SEL, 10, 0⟩
abbrev BIN_MGT_CTL_A_EN : Fld := ⟨R.BIN_MGT_CTL, 0, 0⟩
abbrev BIN_MGT_CTL_B_EN : Fld := ⟨R.BIN_MGT_CTL, 1, 1⟩
abbrev BIN_MGT_CTL_A_1000X : Fld := ⟨R.BIN_MGT_CTL, 2, 2⟩
abbrev BIN_MGT_CTL_B_1000X : Fld := ⟨R.BIN_MGT_CTL, 3, 3⟩
abbrev BIN_MGT_CTL_RESP : Fld := ⟨R.BIN_MGT_CTL, 4, 4⟩
abbrev BIN_MGT_STATUS_LINK : Fld := ⟨R.BIN_MGT_STATUS, 0, 0⟩
abbrev BIN_MGT_STATUS_LINK_1 : Fld := ⟨R.BIN_MGT_STATUS, 1, 1⟩
abbrev BIN_MGT_MAC_LO_VAL (m : Nat) : Fld := ⟨R.BIN_MGT_MAC_LO m, 31, 0⟩
abbrev BIN_MGT_MAC_HI_VAL (m : Nat) : Fld := ⟨R.BIN_MGT_MAC_HI m, 15, 0⟩
abbrev BIN_MGT_IPV6_VAL (m w : Nat) : Fld := ⟨R.BIN_MGT_IPV6 m w, 31, 0⟩
abbrev BIN_MDIO_CMD_PHY : Fld := ⟨R.BIN_MDIO_CMD, 4, 0⟩
abbrev BIN_MDIO_CMD_REG : Fld := ⟨R.BIN_MDIO_CMD, 9, 5⟩
abbrev BIN_MDIO_CMD_READ : Fld := ⟨R.BIN_MDIO_CMD, 10, 10⟩
abbrev BIN_MDIO_CMD_GO : Fld := ⟨R.BIN_MDIO_CMD, 11, 11⟩
abbrev BIN_MDIO_CMD_DATA : Fld := ⟨R.BIN_MDIO_CMD, 31, 16⟩
abbrev BIN_SX_KEY_KEY_ID : Fld := ⟨R.BIN_SX_KEY, 7, 0⟩
abbrev BIN_SX_KEY_PRESENT : Fld := ⟨R.BIN_SX_KEY, 8, 8⟩
abbrev BIN_SX_GW_PEND_GROUP : Fld := ⟨R.BIN_SX_GW_PEND, 4, 0⟩
abbrev BIN_SX_SUBS_SUBSCRIBERS : Fld := ⟨R.BIN_SX_SUBS, 3, 0⟩
abbrev BIN_MSIX_GAP_US : Fld := ⟨R.BIN_MSIX_GAP, 15, 0⟩
abbrev BIN_PCIE_STATUS_LINK : Fld := ⟨R.BIN_PCIE_STATUS, 0, 0⟩
abbrev BIN_PCIE_STATUS_WIDTH : Fld := ⟨R.BIN_PCIE_STATUS, 4, 1⟩
abbrev BIN_PCIE_STATUS_SPEED : Fld := ⟨R.BIN_PCIE_STATUS, 7, 5⟩
abbrev BIN_PCIE_ID_VENDOR : Fld := ⟨R.BIN_PCIE_ID, 15, 0⟩
abbrev BIN_PCIE_ID_DEVICE : Fld := ⟨R.BIN_PCIE_ID, 31, 16⟩
abbrev BIN_VEC_VECTOR (b : Nat) : Fld := ⟨R.BIN_VEC b, 4, 0⟩
abbrev BIN_VEC_EN (b : Nat) : Fld := ⟨R.BIN_VEC b, 7, 7⟩
abbrev GLB_SNAP_CTL_AUTO : Fld := ⟨R.GLB_SNAP_CTL, 0, 0⟩
abbrev GLB_SNAP_CTL_EVERY : Fld := ⟨R.GLB_SNAP_CTL, 15, 8⟩
abbrev GLB_SNAP_CTL_LINE : Fld := ⟨R.GLB_SNAP_CTL, 31, 16⟩
abbrev GLB_SNAP_CMD_NOW : Fld := ⟨R.GLB_SNAP_CMD, 0, 0⟩
abbrev GLB_SNAP_STATUS_BANK : Fld := ⟨R.GLB_SNAP_STATUS, 0, 0⟩
abbrev GLB_SNAP_STATUS_PENDING : Fld := ⟨R.GLB_SNAP_STATUS, 1, 1⟩
abbrev GLB_SNAP_STATUS_SOURCE : Fld := ⟨R.GLB_SNAP_STATUS, 2, 2⟩
abbrev GLB_SNAP_FRAME_LO_OF : Fld := ⟨R.GLB_SNAP_FRAME_LO, 31, 0⟩
abbrev GLB_SNAP_FRAME_HI_FRAME : Fld := ⟨R.GLB_SNAP_FRAME_HI, 15, 0⟩
abbrev GLB_SNAP_LINE_LINE : Fld := ⟨R.GLB_SNAP_LINE, 31, 16⟩
abbrev GLB_SNAP_LINE_FRACTION : Fld := ⟨R.GLB_SNAP_LINE, 15, 0⟩
abbrev MON_FLAGS_SAT : Fld := ⟨R.MON_FLAGS, 0, 0⟩
abbrev MON_CTL_EN (m : Nat) : Fld := ⟨R.MON_CTL m, 0, 0⟩
abbrev MON_CTL_PROBE (m : Nat) : Fld := ⟨R.MON_CTL m, 4, 1⟩
abbrev MON_CTL_SHIFT (m : Nat) : Fld := ⟨R.MON_CTL m, 9, 5⟩
abbrev MON_CTL_LOG2 (m : Nat) : Fld := ⟨R.MON_CTL m, 10, 10⟩
abbrev MON_CTL_DECIM (m : Nat) : Fld := ⟨R.MON_CTL m, 14, 11⟩
abbrev MON_STATUS_RUN (m : Nat) : Fld := ⟨R.MON_STATUS m, 0, 0⟩
abbrev MON_STATUS_SAT (m : Nat) : Fld := ⟨R.MON_STATUS m, 1, 1⟩
abbrev CHK_FLAGS_ERROR : Fld := ⟨R.CHK_FLAGS, 0, 0⟩
abbrev CHK_FLAGS_ABORTED : Fld := ⟨R.CHK_FLAGS, 1, 1⟩
abbrev CHK_CTL_ALG (u : Nat) : Fld := ⟨R.CHK_CTL u, 1, 0⟩
abbrev CHK_CTL_SPACE (u : Nat) : Fld := ⟨R.CHK_CTL u, 2, 2⟩
abbrev CHK_CTL_FOLD (u : Nat) : Fld := ⟨R.CHK_CTL u, 3, 3⟩
abbrev CHK_CTL_SEQ_INC (u : Nat) : Fld := ⟨R.CHK_CTL u, 4, 4⟩
abbrev CHK_START_LO_VAL (u : Nat) : Fld := ⟨R.CHK_START_LO u, 31, 0⟩
abbrev CHK_START_HI_VAL (u : Nat) : Fld := ⟨R.CHK_START_HI u, 5, 0⟩
abbrev CHK_SEED_LO_VAL (u : Nat) : Fld := ⟨R.CHK_SEED_LO u, 31, 0⟩
abbrev CHK_SEED_HI_VAL (u : Nat) : Fld := ⟨R.CHK_SEED_HI u, 31, 0⟩
abbrev CHK_CMD_START (u : Nat) : Fld := ⟨R.CHK_CMD u, 0, 0⟩
abbrev CHK_CMD_ABORT (u : Nat) : Fld := ⟨R.CHK_CMD u, 1, 1⟩
abbrev CHK_STATUS_STATE (u : Nat) : Fld := ⟨R.CHK_STATUS u, 2, 0⟩
abbrev CHK_RESULT_LO_B31_0 (u : Nat) : Fld := ⟨R.CHK_RESULT_LO u, 31, 0⟩
abbrev GLB_WIN_CTL_MESH_PAGE : Fld := ⟨R.GLB_WIN_CTL, 3, 0⟩
abbrev GLB_WIN_CTL_EFT_PAGE : Fld := ⟨R.GLB_WIN_CTL, 9, 8⟩
abbrev GLB_WIN_CTL_LB_PAGE : Fld := ⟨R.GLB_WIN_CTL, 19, 16⟩
abbrev GLB_WIN_CTL_EFT_SHADOW : Fld := ⟨R.GLB_WIN_CTL, 24, 24⟩
abbrev GLB_WIN_CTL_IFT_SHADOW : Fld := ⟨R.GLB_WIN_CTL, 25, 25⟩
end F

/-! ## Descriptors, block by block (R442) -/
def regsGlb0 : List RegDef := [
  ⟨0x0, [], 0x48584160, false, [⟨15, 0, .ro, false, .any⟩, ⟨31, 16, .ro, false, .any⟩]⟩,
  ⟨0x4, [], 0x21, false, [⟨7, 4, .ro, false, .any⟩, ⟨3, 0, .ro, false, .any⟩]⟩,
  ⟨0x8, [], 0x0, false, [⟨9, 0, .ro, false, .any⟩]⟩,
  ⟨0xC, [], 0x0, false, [⟨31, 0, .ro, false, .any⟩]⟩,
  ⟨0x10, [], 0x0, false, [⟨31, 0, .ro, false, .any⟩]⟩,
  ⟨0x14, [], 0x0, false, [⟨31, 0, .ro, false, .any⟩]⟩,
  ⟨0x18, [], 0x0, false, [⟨1, 0, .ro, false, .any⟩, ⟨5, 2, .ro, false, .any⟩]⟩,
  ⟨0x1C, [], 0x0, false, [⟨0, 0, .wo, false, .any⟩, ⟨1, 1, .wo, false, .any⟩, ⟨31, 16, .wo, false, .any⟩]⟩,
  ⟨0x20, [(4, 4)], 0x0, false, [⟨31, 0, .wo, false, .any⟩]⟩,
  ⟨0x40, [(4, 4)], 0x0, false, [⟨31, 0, .ro, false, .any⟩]⟩,
  ⟨0x50, [(4, 4)], 0x0, false, [⟨31, 0, .rw, false, .any⟩]⟩,
  ⟨0x60, [], 0x0, false, [⟨0, 0, .wo, false, .any⟩, ⟨1, 1, .ro, false, .any⟩, ⟨2, 2, .ro, false, .any⟩, ⟨3, 3, .ro, false, .any⟩]⟩,
  ⟨0x64, [], 0x0, false, [⟨6, 0, .ro, false, .any⟩]⟩,
  ⟨0x100, [(4, 16)], 0x0, false, [⟨31, 0, .ro, false, .any⟩]⟩,
  ⟨0x200, [], 0x100, false, [⟨0, 0, .rw, false, .any⟩, ⟨15, 8, .rw, false, .range 1 255⟩, ⟨31, 16, .rw, false, .any⟩]⟩,
  ⟨0x204, [], 0x0, false, [⟨0, 0, .wo, false, .any⟩]⟩,
  ⟨0x208, [], 0x0, false, [⟨31, 0, .ro, false, .any⟩]⟩,
  ⟨0x20C, [], 0x0, false, [⟨0, 0, .ro, false, .any⟩, ⟨1, 1, .ro, false, .any⟩, ⟨2, 2, .ro, false, .any⟩]⟩,
  ⟨0x210, [], 0x0, false, [⟨31, 0, .ro, false, .any⟩]⟩,
  ⟨0x214, [], 0x0, false, [⟨15, 0, .ro, false, .any⟩]⟩,
  ⟨0x218, [], 0x0, false, [⟨31, 16, .ro, false, .any⟩, ⟨15, 0, .ro, false, .any⟩]⟩,
  ⟨0x21C, [], 0x0, false, [⟨31, 0, .ro, false, .any⟩]⟩,
  ⟨0x300, [], 0x0, false, [⟨3, 0, .rw, false, .any⟩, ⟨9, 8, .rw, false, .any⟩, ⟨19, 16, .rw, false, .range 0 10⟩, ⟨24, 24, .rw, false, .any⟩, ⟨25, 25, .rw, false, .any⟩]⟩]
def regsGlb : List RegDef := regsGlb0

def regsBin0 : List RegDef := [
  ⟨0x10000, [], 0x0, false, [⟨0, 0, .ro, false, .any⟩, ⟨1, 1, .ro, false, .any⟩, ⟨2, 2, .ro, false, .any⟩, ⟨3, 3, .ro, false, .any⟩, ⟨4, 4, .ro, false, .any⟩, ⟨5, 5, .ro, false, .any⟩, ⟨6, 6, .ro, false, .any⟩]⟩,
  ⟨0x10004, [], 0x0, false, [⟨0, 0, .w1c, false, .any⟩, ⟨1, 1, .w1c, false, .any⟩, ⟨2, 2, .w1c, false, .any⟩, ⟨3, 3, .w1c, false, .any⟩, ⟨4, 4, .w1c, false, .any⟩, ⟨5, 5, .w1c, false, .any⟩, ⟨6, 6, .w1c, false, .any⟩, ⟨7, 7, .w1c, false, .any⟩, ⟨8, 8, .w1c, false, .any⟩, ⟨9, 9, .w1c, false, .any⟩, ⟨10, 10, .w1c, false, .any⟩]⟩,
  ⟨0x10008, [], 0x7FF, false, [⟨31, 0, .rw, false, .any⟩]⟩,
  ⟨0x1000C, [], 0x0, false, [⟨0, 0, .wo, false, .any⟩, ⟨1, 1, .wo, false, .any⟩, ⟨2, 2, .wo, false, .any⟩, ⟨3, 3, .wo, false, .any⟩, ⟨4, 4, .wo, false, .any⟩, ⟨5, 5, .wo, false, .any⟩, ⟨31, 16, .wo, false, .any⟩]⟩,
  ⟨0x10010, [], 0x16E64, false, [⟨7, 0, .rw, false, .range 80 110⟩, ⟨15, 8, .rw, false, .range 95 120⟩, ⟨16, 16, .rw, false, .any⟩]⟩,
  ⟨0x10014, [], 0x0, false, [⟨7, 0, .ro, false, .any⟩, ⟨15, 8, .ro, false, .any⟩]⟩,
  ⟨0x10018, [], 0x0, false, [⟨15, 0, .ro, false, .any⟩, ⟨31, 16, .ro, false, .any⟩]⟩,
  ⟨0x1001C, [], 0x0, false, [⟨15, 0, .rw, false, .zeroOr 10 60000⟩, ⟨17, 16, .rw, false, .range 0 2⟩]⟩,
  ⟨0x10020, [], 0x0, false, [⟨31, 0, .wo, false, .any⟩]⟩,
  ⟨0x10024, [], 0x0, false, [⟨31, 0, .ro, false, .any⟩]⟩,
  ⟨0x10028, [], 0x0, false, [⟨31, 0, .ro, false, .any⟩]⟩,
  ⟨0x1002C, [], 0x0, false, [⟨31, 0, .rw, false, .any⟩]⟩,
  ⟨0x10030, [], 0x4C, false, [⟨6, 0, .rw, false, .range 8 119⟩, ⟨7, 7, .rw, false, .any⟩]⟩,
  ⟨0x10034, [], 0x0, false, [⟨15, 0, .ro, false, .any⟩]⟩,
  ⟨0x10038, [], 0x0, false, [⟨31, 0, .ro, false, .any⟩]⟩,
  ⟨0x1003C, [], 0x0, false, [⟨31, 0, .ro, false, .any⟩]⟩,
  ⟨0x10040, [], 0x0, false, [⟨10, 0, .rw, false, .range 0 2028⟩]⟩,
  ⟨0x10044, [(4, 8)], 0x0, false, [⟨31, 0, .ro, false, .any⟩]⟩,
  ⟨0x10064, [], 0x0, false, [⟨31, 0, .ro, false, .any⟩]⟩,
  ⟨0x11000, [], 0x13, false, [⟨0, 0, .rw, false, .any⟩, ⟨1, 1, .rw, false, .any⟩, ⟨2, 2, .rw, false, .any⟩, ⟨3, 3, .rw, false, .any⟩, ⟨4, 4, .rw, false, .any⟩]⟩,
  ⟨0x11004, [], 0x0, false, [⟨0, 0, .ro, false, .any⟩, ⟨1, 1, .ro, false, .any⟩]⟩,
  ⟨0x11010, [(32, 2)], 0x0, false, [⟨31, 0, .rw, false, .any⟩]⟩,
  ⟨0x11014, [(32, 2)], 0x0, false, [⟨15, 0, .rw, false, .any⟩]⟩,
  ⟨0x11018, [(32, 2)], 0x0, false, [⟨31, 0, .rw, false, .any⟩]⟩,
  ⟨0x1101C, [(32, 2), (4, 4)], 0x0, false, [⟨31, 0, .rw, false, .any⟩]⟩,
  ⟨0x11050, [], 0x0, false, [⟨4, 0, .rw, false, .any⟩, ⟨9, 5, .rw, false, .any⟩, ⟨10, 10, .rw, false, .any⟩, ⟨11, 11, .rw, false, .any⟩, ⟨31, 16, .rw, false, .any⟩]⟩,
  ⟨0x11060, [], 0x0, false, [⟨31, 0, .ro, false, .any⟩]⟩,
  ⟨0x11064, [], 0x0, false, [⟨7, 0, .ro, false, .any⟩, ⟨8, 8, .ro, false, .any⟩]⟩,
  ⟨0x11068, [], 0x0, true, [⟨31, 0, .ro, false, .any⟩]⟩,
  ⟨0x1106C, [], 0x0, true, [⟨31, 0, .ro, false, .any⟩]⟩,
  ⟨0x11070, [], 0x0, true, [⟨31, 0, .ro, false, .any⟩]⟩,
  ⟨0x11074, [], 0x0, false, [⟨4, 0, .ro, false, .any⟩]⟩,
  ⟨0x11078, [], 0x0, false, [⟨3, 0, .ro, false, .any⟩]⟩,
  ⟨0x11100, [], 0x0, false, [⟨31, 0, .ro, false, .any⟩]⟩,
  ⟨0x11104, [], 0x0, true, [⟨31, 0, .ro, false, .any⟩]⟩,
  ⟨0x11108, [], 0xA, false, [⟨15, 0, .rw, false, .any⟩]⟩,
  ⟨0x1110C, [], 0x0, false, [⟨0, 0, .ro, false, .any⟩, ⟨4, 1, .ro, false, .any⟩, ⟨7, 5, .ro, false, .any⟩]⟩,
  ⟨0x11110, [], 0x0, false, [⟨15, 0, .ro, false, .any⟩, ⟨31, 16, .ro, false, .any⟩]⟩,
  ⟨0x11114, [], 0x0, true, [⟨31, 0, .ro, false, .any⟩]⟩,
  ⟨0x11200, [(4, 32)], 0x1, false, [⟨4, 0, .rw, false, .range 1 31⟩, ⟨7, 7, .rw, false, .any⟩]⟩]
def regsBin1 : List RegDef := [
  ⟨0x14000, [(16, 1024), (4, 4)], 0x0, false, [⟨31, 0, .ro, false, .any⟩]⟩]
def regsBin : List RegDef := regsBin0 ++ regsBin1

def regsMer0 : List RegDef := [
  ⟨0x20000, [], 0x16, false, [⟨0, 0, .rw, false, .any⟩, ⟨1, 1, .rw, false, .any⟩, ⟨2, 2, .rw, false, .any⟩, ⟨3, 3, .rw, false, .any⟩, ⟨5, 4, .rw, false, .range 0 1⟩, ⟨6, 6, .rw, false, .any⟩]⟩,
  ⟨0x20004, [], 0x0, false, [⟨1, 0, .ro, false, .any⟩, ⟨4, 2, .ro, false, .any⟩, ⟨5, 5, .ro, false, .any⟩]⟩,
  ⟨0x20008, [], 0x0, false, [⟨0, 0, .w1c, false, .any⟩, ⟨1, 1, .w1c, false, .any⟩, ⟨2, 2, .w1c, false, .any⟩, ⟨3, 3, .w1c, false, .any⟩, ⟨4, 4, .w1c, false, .any⟩, ⟨5, 5, .w1c, false, .any⟩, ⟨6, 6, .w1c, false, .any⟩]⟩,
  ⟨0x20010, [], 0x78, false, [⟨31, 0, .rwl, false, .any⟩]⟩,
  ⟨0x20014, [], 0x1, false, [⟨31, 0, .rwl, false, .oneOf [1, 1001]⟩]⟩,
  ⟨0x20018, [], 0x1194, false, [⟨15, 0, .rwl, false, .any⟩]⟩,
  ⟨0x20020, [], 0x0, false, [⟨31, 0, .rwl, false, .any⟩]⟩,
  ⟨0x20024, [], 0x1, false, [⟨31, 0, .rwl, false, .oneOf [1, 1001]⟩]⟩,
  ⟨0x20028, [], 0x39, false, [⟨1, 0, .rw, false, .any⟩, ⟨3, 2, .rw, false, .any⟩, ⟨5, 4, .rw, false, .any⟩]⟩,
  ⟨0x2002C, [], 0x1, false, [⟨1, 0, .rw, false, .any⟩]⟩,
  ⟨0x20030, [], 0x33001, false, [⟨7, 0, .rw, false, .range 1 255⟩, ⟨8, 8, .rw, false, .any⟩, ⟨15, 12, .rw, false, .range 1 15⟩, ⟨19, 16, .rw, false, .range 2 15⟩]⟩,
  ⟨0x20034, [], 0x0, false, [⟨31, 0, .rw, false, .signed 1048576⟩]⟩,
  ⟨0x20038, [], 0x400, false, [⟨15, 0, .rw, false, .range 64 32768⟩]⟩,
  ⟨0x2003C, [], 0x64, false, [⟨15, 0, .rw, false, .range 10 2000⟩]⟩,
  ⟨0x20040, [], 0x0, false, [⟨31, 0, .ro, false, .any⟩]⟩,
  ⟨0x20044, [], 0x0, false, [⟨15, 0, .ro, false, .any⟩]⟩,
  ⟨0x20048, [], 0x0, false, [⟨31, 16, .ro, false, .any⟩, ⟨15, 0, .ro, false, .any⟩]⟩,
  ⟨0x2004C, [], 0xA010000, false, [⟨23, 0, .rw, false, .range 0 4194304⟩, ⟨31, 24, .rw, false, .range 1 100⟩]⟩,
  ⟨0x20050, [], 0x0, false, [⟨31, 0, .ro, false, .any⟩]⟩,
  ⟨0x20054, [], 0x0, true, [⟨31, 0, .ro, false, .any⟩]⟩,
  ⟨0x20058, [], 0x0, true, [⟨31, 0, .ro, false, .any⟩]⟩,
  ⟨0x2005C, [], 0x0, true, [⟨31, 0, .ro, false, .any⟩]⟩,
  ⟨0x20060, [], 0x0, true, [⟨31, 0, .ro, false, .any⟩]⟩,
  ⟨0x20064, [], 0x4B0, false, [⟨15, 0, .rw, false, .range 1 65535⟩]⟩,
  ⟨0x20068, [], 0x0, false, [⟨31, 0, .rw, false, .any⟩]⟩,
  ⟨0x2006C, [], 0x0, false, [⟨15, 0, .rw, false, .any⟩]⟩,
  ⟨0x20070, [], 0x0, false, [⟨0, 0, .wo, false, .any⟩]⟩,
  ⟨0x20074, [], 0x800, false, [⟨16, 0, .rw, false, .range 256 65536⟩]⟩,
  ⟨0x20078, [], 0x0, false, [⟨31, 0, .rc, false, .any⟩]⟩,
  ⟨0x20100, [(4, 32)], 0x0, false, [⟨31, 16, .rw, true, .any⟩, ⟨15, 0, .rw, true, .any⟩]⟩,
  ⟨0x20180, [(4, 32)], 0x0, false, [⟨15, 0, .rw, false, .any⟩]⟩,
  ⟨0x20200, [(4, 32)], 0x0, false, [⟨31, 0, .ro, false, .any⟩]⟩]
def regsMer : List RegDef := regsMer0

def regsPtp0 : List RegDef := [
  ⟨0x30000, [], 0x0, false, [⟨0, 0, .rw, false, .any⟩, ⟨1, 1, .rw, false, .any⟩]⟩,
  ⟨0x30004, [], 0x0, false, [⟨0, 0, .ro, false, .any⟩, ⟨1, 1, .ro, false, .any⟩]⟩,
  ⟨0x30008, [], 0x0, false, [⟨0, 0, .w1c, false, .any⟩, ⟨1, 1, .w1c, false, .any⟩, ⟨2, 2, .w1c, false, .any⟩, ⟨3, 3, .w1c, false, .any⟩, ⟨4, 4, .w1c, false, .any⟩, ⟨5, 5, .w1c, false, .any⟩, ⟨6, 6, .w1c, false, .any⟩, ⟨11, 8, .w1c, false, .any⟩, ⟨13, 12, .w1c, false, .any⟩]⟩,
  ⟨0x3000C, [], 0x19, false, [⟨31, 0, .rw, false, .range 1 1000⟩]⟩,
  ⟨0x30010, [], 0x0, false, [⟨29, 0, .ro, false, .any⟩]⟩,
  ⟨0x30014, [], 0x0, false, [⟨31, 0, .ro, false, .any⟩]⟩,
  ⟨0x30018, [], 0x0, false, [⟨15, 0, .ro, false, .any⟩]⟩,
  ⟨0x3001C, [], 0x0, false, [⟨31, 0, .ro, false, .any⟩]⟩,
  ⟨0x30020, [], 0x3E8, false, [⟨31, 0, .rw, false, .range 100 100000000⟩]⟩,
  ⟨0x30024, [], 0x0, false, [⟨0, 0, .wo, false, .any⟩]⟩,
  ⟨0x30040, [(4, 8)], 0x0, false, [⟨31, 0, .rw, false, .signed 32767⟩]⟩,
  ⟨0x30100, [(256, 2)], 0x7F02, false, [⟨0, 0, .rw, false, .any⟩, ⟨2, 1, .rw, false, .range 0 2⟩, ⟨3, 3, .rw, false, .any⟩, ⟨4, 4, .rw, false, .any⟩, ⟨7, 5, .rw, false, .any⟩, ⟨15, 8, .rw, false, .range 0 127⟩, ⟨27, 16, .rw, false, .any⟩]⟩,
  ⟨0x30104, [(256, 2)], 0x0, false, [⟨2, 0, .ro, false, .any⟩, ⟨3, 3, .ro, false, .any⟩, ⟨4, 4, .ro, false, .any⟩]⟩,
  ⟨0x30108, [(256, 2)], 0x0, false, [⟨31, 0, .ro, false, .any⟩]⟩,
  ⟨0x3010C, [(256, 2)], 0x0, false, [⟨31, 0, .ro, false, .any⟩]⟩,
  ⟨0x30110, [(256, 2)], 0x0, false, [⟨31, 0, .ro, false, .any⟩]⟩,
  ⟨0x30114, [(256, 2)], 0x0, false, [⟨31, 0, .ro, false, .any⟩]⟩,
  ⟨0x30118, [(256, 2)], 0x0, false, [⟨31, 0, .ro, false, .any⟩]⟩,
  ⟨0x3011C, [(256, 2)], 0x4430, false, [⟨3, 0, .rw, false, .any⟩, ⟨7, 4, .rw, false, .any⟩, ⟨11, 8, .rw, false, .range 0 8⟩, ⟨15, 12, .rw, false, .range 2 15⟩]⟩,
  ⟨0x30120, [(256, 2)], 0x100064, false, [⟨15, 0, .rw, false, .range 1 65535⟩, ⟨23, 16, .rw, false, .range 1 255⟩]⟩,
  ⟨0x30124, [(256, 2)], 0xF4240, false, [⟨31, 0, .rw, false, .range 1000 1000000000⟩]⟩,
  ⟨0x30128, [(256, 2)], 0x2710, false, [⟨31, 0, .rw, false, .range 50 1000000⟩]⟩,
  ⟨0x3012C, [(256, 2)], 0x363, false, [⟨3, 0, .rw, false, .range 2 10⟩, ⟨7, 4, .rw, false, .range 2 15⟩, ⟨11, 8, .rw, false, .range 0 6⟩]⟩,
  ⟨0x30130, [(256, 2)], 0x0, true, [⟨31, 0, .ro, false, .any⟩]⟩,
  ⟨0x30134, [(256, 2)], 0x0, true, [⟨31, 0, .ro, false, .any⟩]⟩,
  ⟨0x30138, [(256, 2)], 0x0, true, [⟨31, 0, .ro, false, .any⟩]⟩,
  ⟨0x3013C, [(256, 2)], 0x0, false, [⟨15, 0, .ro, false, .any⟩]⟩,
  ⟨0x30400, [(64, 4)], 0x0, false, [⟨1, 0, .rw, false, .range 0 2⟩, ⟨2, 2, .rw, false, .any⟩, ⟨3, 3, .rw, false, .any⟩, ⟨5, 4, .ro, false, .any⟩]⟩,
  ⟨0x30404, [(64, 4)], 0x0, false, [⟨31, 16, .rw, false, .any⟩, ⟨15, 0, .rw, false, .any⟩]⟩,
  ⟨0x30408, [(64, 4)], 0x0, false, [⟨31, 0, .rw, false, .any⟩]⟩,
  ⟨0x3040C, [(64, 4)], 0x0, false, [⟨15, 0, .rw, false, .any⟩]⟩,
  ⟨0x30410, [(64, 4)], 0x0, false, [⟨31, 0, .rw, false, .any⟩]⟩,
  ⟨0x30414, [(64, 4)], 0x0, false, [⟨15, 0, .rw, false, .any⟩]⟩,
  ⟨0x30418, [(64, 4)], 0x3E8, false, [⟨31, 0, .rw, false, .range 8 1000000000⟩]⟩,
  ⟨0x3041C, [(64, 4)], 0x0, false, [⟨31, 0, .rw, false, .signed 1000⟩]⟩,
  ⟨0x30420, [(64, 4)], 0x0, true, [⟨31, 0, .ro, false, .any⟩]⟩,
  ⟨0x30600, [(64, 2)], 0x0, false, [⟨0, 0, .rw, false, .any⟩, ⟨2, 1, .rw, false, .range 1 3⟩, ⟨3, 3, .rw, false, .any⟩, ⟨31, 16, .rw, false, .any⟩]⟩,
  ⟨0x30604, [(64, 2)], 0x0, false, [⟨29, 0, .ro, false, .any⟩, ⟨30, 30, .ro, false, .any⟩, ⟨31, 31, .ro, false, .any⟩]⟩,
  ⟨0x30608, [(64, 2)], 0x0, false, [⟨31, 0, .ro, false, .any⟩]⟩,
  ⟨0x3060C, [(64, 2)], 0x0, false, [⟨15, 0, .ro, false, .any⟩]⟩,
  ⟨0x30610, [(64, 2)], 0x0, false, [⟨31, 0, .ro, false, .any⟩]⟩,
  ⟨0x30614, [(64, 2)], 0x0, false, [⟨31, 0, .ro, false, .any⟩]⟩,
  ⟨0x30618, [(64, 2)], 0x0, false, [⟨15, 0, .ro, false, .any⟩]⟩,
  ⟨0x3061C, [(64, 2)], 0x0, true, [⟨31, 0, .rc, false, .any⟩]⟩]
def regsPtp1 : List RegDef := [
  ⟨0x30620, [(64, 2)], 0x0, false, [⟨4, 0, .ro, false, .any⟩]⟩]
def regsPtp : List RegDef := regsPtp0 ++ regsPtp1

def regsCkg0 : List RegDef := [
  ⟨0x40000, [], 0x0, false, [⟨10, 0, .ro, false, .any⟩, ⟨26, 16, .ro, false, .any⟩]⟩,
  ⟨0x40004, [], 0x0, false, [⟨15, 0, .ro, false, .any⟩]⟩,
  ⟨0x40008, [], 0x0, false, [⟨10, 0, .w1c, false, .any⟩, ⟨26, 16, .w1c, false, .any⟩]⟩,
  ⟨0x4000C, [], 0x0, false, [⟨15, 0, .w1c, false, .any⟩, ⟨31, 16, .w1c, false, .any⟩]⟩,
  ⟨0x40010, [], 0x100000C8, false, [⟨9, 0, .rw, false, .range 50 1000⟩, ⟨31, 16, .rw, false, .range 256 65535⟩]⟩,
  ⟨0x40014, [], 0x810, false, [⟨7, 0, .rw, false, .range 4 255⟩, ⟨15, 8, .rw, false, .range 2 255⟩]⟩,
  ⟨0x40018, [], 0x0, false, [⟨3, 0, .wo, false, .range 0 10⟩, ⟨8, 8, .wo, false, .any⟩]⟩,
  ⟨0x40100, [(32, 11)], 0x0, false, [⟨2, 0, .ro, false, .any⟩, ⟨3, 3, .ro, false, .any⟩, ⟨7, 4, .ro, false, .any⟩, ⟨15, 8, .ro, false, .any⟩]⟩,
  ⟨0x40104, [], 0x2FAF0800, false, [⟨31, 0, .rwl, false, .range 800000000 800000000⟩]⟩,
  ⟨0x40124, [], 0x5F5E1000, false, [⟨31, 0, .rwl, false, .range 1600000000 1600000000⟩]⟩,
  ⟨0x40144, [], 0x4A817C80, false, [⟨31, 0, .rwl, false, .range 625000000 1250000000⟩]⟩,
  ⟨0x40164, [], 0x4A817C80, false, [⟨31, 0, .rwl, false, .range 625000000 1250000000⟩]⟩,
  ⟨0x40184, [], 0x4A817C80, false, [⟨31, 0, .rwl, false, .range 625000000 1250000000⟩]⟩,
  ⟨0x401A4, [], 0x4A817C80, false, [⟨31, 0, .rwl, false, .range 625000000 1250000000⟩]⟩,
  ⟨0x401C4, [], 0x3B9ACA00, false, [⟨31, 0, .rwl, false, .range 1000000000 1000000000⟩]⟩,
  ⟨0x401E4, [], 0x47868C00, false, [⟨31, 0, .rwl, false, .range 1000000000 1200000000⟩]⟩,
  ⟨0x40204, [], 0x3B9ACA00, false, [⟨31, 0, .rwl, false, .range 1000000000 1000000000⟩]⟩,
  ⟨0x40224, [], 0x3B9ACA00, false, [⟨31, 0, .rwl, false, .range 1000000000 1000000000⟩]⟩,
  ⟨0x40244, [], 0x5DC0000, false, [⟨31, 0, .rwl, false, .range 11289600 98304000⟩]⟩,
  ⟨0x40108, [(32, 11)], 0x0, false, [⟨31, 0, .ro, false, .any⟩]⟩,
  ⟨0x4010C, [(32, 11)], 0x0, true, [⟨31, 0, .ro, false, .any⟩]⟩,
  ⟨0x40110, [(32, 11)], 0x0, true, [⟨31, 0, .ro, false, .any⟩]⟩,
  ⟨0x40400, [(32, 16)], 0x0, false, [⟨0, 0, .rw, false, .any⟩]⟩,
  ⟨0x40404, [(32, 16)], 0x0, false, [⟨2, 0, .ro, false, .any⟩, ⟨3, 3, .ro, false, .any⟩]⟩,
  ⟨0x40408, [(32, 16)], 0x0, true, [⟨31, 0, .ro, false, .any⟩]⟩,
  ⟨0x40600, [(16, 4)], 0x0, false, [⟨0, 0, .rw, false, .any⟩, ⟨3, 1, .rw, false, .range 0 3⟩, ⟨5, 4, .rw, false, .any⟩, ⟨7, 6, .rw, false, .range 0 2⟩, ⟨8, 8, .rw, false, .any⟩, ⟨9, 9, .rw, false, .any⟩, ⟨15, 10, .rw, false, .any⟩]⟩,
  ⟨0x40604, [(16, 4)], 0x1, false, [⟨15, 0, .rw, false, .range 1 65535⟩]⟩]
def regsCkg : List RegDef := regsCkg0

def regsIng0 : List RegDef := [
  ⟨0x50000, [], 0x0, false, [⟨0, 0, .rw, false, .any⟩]⟩,
  ⟨0x50004, [], 0x0, false, [⟨0, 0, .w1c, false, .any⟩, ⟨1, 1, .w1c, false, .any⟩, ⟨2, 2, .w1c, false, .any⟩, ⟨3, 3, .w1c, false, .any⟩, ⟨4, 4, .w1c, false, .any⟩]⟩,
  ⟨0x50008, [], 0x0, true, [⟨31, 0, .ro, false, .any⟩]⟩,
  ⟨0x50020, [(4, 8)], 0x14, false, [⟨5, 0, .rw, false, .any⟩]⟩,
  ⟨0x50040, [(4, 16)], 0x0, false, [⟨31, 0, .rw, false, .any⟩]⟩,
  ⟨0x50080, [], 0x0, false, [⟨11, 0, .wo, false, .any⟩, ⟨12, 12, .wo, false, .any⟩, ⟨13, 13, .wo, false, .any⟩]⟩,
  ⟨0x51000, [(64, 64)], 0x0, false, [⟨0, 0, .rw, false, .any⟩, ⟨1, 1, .rw, false, .any⟩, ⟨6, 2, .rw, false, .any⟩, ⟨9, 7, .rw, false, .any⟩, ⟨11, 10, .rw, true, .range 0 2⟩, ⟨12, 12, .rw, true, .any⟩, ⟨13, 13, .rw, true, .any⟩, ⟨15, 14, .rw, false, .any⟩, ⟨17, 16, .rw, false, .range 0 2⟩, ⟨18, 18, .rw, false, .any⟩, ⟨22, 19, .rw, false, .any⟩, ⟨24, 23, .rw, false, .any⟩]⟩,
  ⟨0x51004, [(64, 64)], 0x0, false, [⟨15, 0, .rw, false, .any⟩, ⟨31, 16, .rw, false, .any⟩]⟩,
  ⟨0x51008, [(64, 64)], 0x0, false, [⟨31, 16, .rw, true, .any⟩, ⟨15, 0, .rw, true, .any⟩]⟩,
  ⟨0x5100C, [(64, 64)], 0x0, false, [⟨15, 0, .rw, false, .any⟩]⟩,
  ⟨0x51010, [(64, 64)], 0x0, false, [⟨31, 0, .ro, false, .any⟩]⟩,
  ⟨0x51014, [(64, 64)], 0x0, false, [⟨15, 0, .rw, false, .range 0 4352⟩]⟩,
  ⟨0x51018, [(64, 64)], 0x0, false, [⟨11, 0, .rw, true, .any⟩, ⟨27, 16, .rw, true, .any⟩]⟩,
  ⟨0x5101C, [(64, 64)], 0x0, false, [⟨11, 0, .rw, true, .any⟩]⟩,
  ⟨0x51020, [(64, 64)], 0x0, false, [⟨0, 0, .ro, false, .any⟩, ⟨1, 1, .ro, false, .any⟩, ⟨2, 2, .ro, false, .any⟩, ⟨3, 3, .ro, false, .any⟩, ⟨4, 4, .ro, false, .any⟩, ⟨5, 5, .ro, false, .any⟩]⟩,
  ⟨0x51024, [(64, 64)], 0x0, true, [⟨31, 0, .ro, false, .any⟩]⟩,
  ⟨0x51028, [(64, 64)], 0x0, true, [⟨31, 0, .ro, false, .any⟩]⟩,
  ⟨0x5102C, [(64, 64)], 0x0, true, [⟨31, 0, .ro, false, .any⟩]⟩]
def regsIng : List RegDef := regsIng0

def regsDec0 : List RegDef := [
  ⟨0x60000, [], 0x0, false, [⟨0, 0, .rw, false, .any⟩]⟩,
  ⟨0x60010, [(4, 4)], 0x0, false, [⟨31, 0, .ro, false, .any⟩]⟩,
  ⟨0x60100, [(64, 16)], 0x0, false, [⟨0, 0, .rw, false, .any⟩, ⟨1, 1, .rw, false, .any⟩, ⟨2, 2, .rw, false, .any⟩, ⟨4, 3, .rw, false, .any⟩, ⟨6, 5, .rw, false, .any⟩]⟩,
  ⟨0x60104, [(64, 16)], 0x0, false, [⟨12, 0, .rw, false, .range 0 8190⟩]⟩,
  ⟨0x60108, [(64, 16)], 0x0, false, [⟨15, 0, .rw, false, .range 64 8192⟩, ⟨31, 16, .rw, false, .range 64 4352⟩]⟩,
  ⟨0x6010C, [(64, 16)], 0x10003C, false, [⟨19, 0, .rw, false, .any⟩, ⟨29, 20, .rw, false, .oneOf [1, 1001]⟩]⟩,
  ⟨0x60110, [(64, 16)], 0x0, false, [⟨2, 0, .ro, false, .any⟩, ⟨3, 3, .ro, false, .any⟩]⟩,
  ⟨0x60114, [(64, 16)], 0x0, true, [⟨31, 0, .ro, false, .any⟩]⟩,
  ⟨0x60118, [(64, 16)], 0x0, true, [⟨31, 0, .ro, false, .any⟩]⟩,
  ⟨0x6011C, [(64, 16)], 0x0, true, [⟨31, 0, .ro, false, .any⟩]⟩,
  ⟨0x60120, [(64, 16)], 0x0, true, [⟨31, 0, .ro, false, .any⟩]⟩,
  ⟨0x60124, [(64, 16)], 0x0, true, [⟨31, 0, .ro, false, .any⟩]⟩]
def regsDec : List RegDef := regsDec0

def regsComp0 : List RegDef := [
  ⟨0x70000, [], 0x0, false, [⟨0, 0, .rw, false, .any⟩]⟩,
  ⟨0x70004, [], 0x0, false, [⟨0, 0, .w1c, false, .any⟩, ⟨1, 1, .w1c, false, .any⟩, ⟨2, 2, .w1c, false, .any⟩]⟩,
  ⟨0x70008, [], 0x0, false, [⟨31, 0, .ro, false, .any⟩]⟩,
  ⟨0x70800, [(8, 256)], 0x0, false, [⟨31, 0, .rw, false, .any⟩]⟩,
  ⟨0x70804, [(8, 256)], 0x0, false, [⟨31, 0, .rw, false, .any⟩]⟩,
  ⟨0x71000, [(32, 32)], 0x0, false, [⟨0, 0, .rw, false, .any⟩, ⟨1, 1, .rw, false, .any⟩, ⟨11, 2, .rw, false, .range 0 512⟩]⟩,
  ⟨0x71004, [(32, 32)], 0x0, false, [⟨15, 0, .rw, false, .range 64 8192⟩, ⟨31, 16, .rw, false, .range 64 4352⟩]⟩,
  ⟨0x71008, [(32, 32)], 0x0, false, [⟨15, 0, .rw, false, .any⟩]⟩,
  ⟨0x7100C, [(32, 32)], 0x0, false, [⟨0, 0, .ro, false, .any⟩, ⟨1, 1, .ro, false, .any⟩]⟩,
  ⟨0x71010, [(32, 32)], 0x0, true, [⟨31, 0, .ro, false, .any⟩]⟩,
  ⟨0x71014, [(32, 32)], 0x0, false, [⟨31, 0, .ro, false, .any⟩]⟩,
  ⟨0x71400, [(64, 32)], 0x0, false, [⟨0, 0, .rw, false, .any⟩]⟩,
  ⟨0x71404, [(64, 32)], 0x1AC688, false, [⟨2, 0, .rw, false, .any⟩, ⟨5, 3, .rw, false, .any⟩, ⟨8, 6, .rw, false, .any⟩, ⟨11, 9, .rw, false, .any⟩, ⟨14, 12, .rw, false, .any⟩, ⟨17, 15, .rw, false, .any⟩, ⟨20, 18, .rw, false, .any⟩]⟩,
  ⟨0x71408, [(64, 32)], 0x0, false, [⟨15, 0, .rw, false, .any⟩, ⟨31, 16, .rw, false, .any⟩]⟩,
  ⟨0x7140C, [(64, 32)], 0x0, false, [⟨15, 0, .rw, false, .any⟩]⟩,
  ⟨0x71410, [(64, 32)], 0x0, false, [⟨21, 0, .rw, false, .any⟩]⟩,
  ⟨0x71414, [(64, 32)], 0x0, false, [⟨7, 0, .wo, false, .any⟩, ⟨8, 8, .wo, false, .any⟩, ⟨9, 9, .wo, false, .any⟩, ⟨10, 10, .wo, false, .any⟩]⟩,
  ⟨0x71418, [(64, 32)], 0x0, false, [⟨31, 0, .rw, false, .any⟩]⟩,
  ⟨0x7141C, [(64, 32)], 0x0, false, [⟨31, 0, .rw, false, .any⟩]⟩,
  ⟨0x71420, [(64, 32)], 0x0, false, [⟨0, 0, .ro, false, .any⟩, ⟨1, 1, .ro, false, .any⟩, ⟨2, 2, .ro, false, .any⟩, ⟨3, 3, .ro, false, .any⟩, ⟨4, 4, .ro, false, .any⟩, ⟨5, 5, .ro, false, .any⟩]⟩,
  ⟨0x71424, [(64, 32)], 0x0, true, [⟨31, 0, .ro, false, .any⟩]⟩,
  ⟨0x71428, [(64, 32)], 0x0, true, [⟨31, 0, .ro, false, .any⟩]⟩,
  ⟨0x72000, [(1024, 32), (128, 8)], 0x0, false, [⟨0, 0, .rw, false, .any⟩, ⟨19, 12, .rw, false, .any⟩, ⟨21, 20, .rw, false, .range 0 2⟩, ⟨23, 22, .rw, false, .range 0 2⟩, ⟨24, 24, .rw, false, .any⟩, ⟨25, 25, .rw, false, .any⟩, ⟨26, 26, .rw, false, .any⟩]⟩,
  ⟨0x72004, [(1024, 32), (128, 8)], 0x0, false, [⟨15, 0, .rw, false, .any⟩, ⟨31, 16, .rw, false, .any⟩]⟩,
  ⟨0x72008, [(1024, 32), (128, 8)], 0x0, false, [⟨15, 0, .rw, false, .range 1 8192⟩, ⟨31, 16, .rw, false, .range 1 4352⟩]⟩,
  ⟨0x7200C, [(1024, 32), (128, 8)], 0x0, false, [⟨15, 0, .rw, false, .any⟩, ⟨31, 16, .rw, false, .any⟩]⟩,
  ⟨0x72010, [(1024, 32), (128, 8)], 0xFFFF, false, [⟨15, 0, .rw, false, .any⟩]⟩,
  ⟨0x72014, [(1024, 32), (128, 8)], 0x0, false, [⟨31, 0, .rw, false, .any⟩]⟩,
  ⟨0x72018, [(1024, 32), (128, 8)], 0x0, false, [⟨5, 0, .rw, false, .any⟩]⟩,
  ⟨0x7201C, [(1024, 32), (128, 8)], 0x0, false, [⟨31, 0, .rw, false, .any⟩]⟩,
  ⟨0x72020, [(1024, 32), (128, 8)], 0x0, false, [⟨7, 0, .wo, false, .any⟩, ⟨8, 8, .wo, false, .any⟩, ⟨9, 9, .wo, false, .any⟩, ⟨10, 10, .wo, false, .any⟩]⟩,
  ⟨0x72024, [(1024, 32), (128, 8)], 0x0, false, [⟨31, 0, .rw, false, .any⟩]⟩,
  ⟨0x72028, [(1024, 32), (128, 8)], 0x0, false, [⟨31, 0, .rw, false, .any⟩]⟩,
  ⟨0x7202C, [(1024, 32), (128, 8)], 0x0, false, [⟨0, 0, .ro, false, .any⟩, ⟨1, 1, .ro, false, .any⟩, ⟨2, 2, .ro, false, .any⟩, ⟨3, 3, .ro, false, .any⟩, ⟨4, 4, .ro, false, .any⟩, ⟨5, 5, .ro, false, .any⟩]⟩,
  ⟨0x72030, [(1024, 32), (128, 8)], 0x0, true, [⟨31, 0, .ro, false, .any⟩]⟩,
  ⟨0x72034, [(1024, 32), (128, 8)], 0x0, true, [⟨31, 0, .ro, false, .any⟩]⟩,
  ⟨0x7A000, [(32, 256)], 0x0, false, [⟨0, 0, .rw, false, .any⟩, ⟨2, 1, .rw, false, .any⟩, ⟨4, 3, .rw, false, .range 0 2⟩]⟩,
  ⟨0x7A004, [(32, 256)], 0x0, false, [⟨15, 0, .rw, false, .range 64 8192⟩, ⟨31, 16, .rw, false, .range 64 4352⟩]⟩,
  ⟨0x7A008, [(32, 256)], 0x0, false, [⟨31, 0, .rw, false, .mult 256⟩]⟩,
  ⟨0x7A00C, [(32, 256)], 0x0, false, [⟨5, 0, .rw, false, .any⟩]⟩]
def regsComp1 : List RegDef := [
  ⟨0x7A010, [(32, 256)], 0x0, false, [⟨31, 0, .rw, false, .mult 256⟩]⟩,
  ⟨0x7A014, [(32, 256)], 0x0, false, [⟨31, 0, .rw, false, .mult 256⟩]⟩,
  ⟨0x7A018, [(32, 256)], 0x0, false, [⟨31, 0, .rw, false, .range 1 16777215⟩]⟩]
def regsComp : List RegDef := regsComp0 ++ regsComp1

def regsEnc0 : List RegDef := [
  ⟨0x80000, [(2048, 32)], 0x18, false, [⟨0, 0, .rw, false, .any⟩, ⟨1, 1, .rw, false, .any⟩, ⟨2, 2, .rw, false, .any⟩, ⟨3, 3, .rw, true, .any⟩, ⟨5, 4, .rw, true, .any⟩, ⟨6, 6, .rw, true, .any⟩, ⟨7, 7, .rw, true, .any⟩, ⟨8, 8, .rw, true, .any⟩, ⟨23, 16, .rw, false, .any⟩]⟩,
  ⟨0x80004, [(2048, 32)], 0x0, false, [⟨15, 0, .rw, false, .multRange 8 64 8192⟩, ⟨31, 16, .rw, false, .multRange 8 64 4352⟩]⟩,
  ⟨0x80008, [(2048, 32)], 0x5, false, [⟨1, 0, .rw, false, .range 0 2⟩, ⟨3, 2, .rw, false, .range 0 2⟩, ⟨5, 4, .rw, false, .any⟩]⟩,
  ⟨0x8000C, [(2048, 32)], 0x100078, false, [⟨19, 0, .rw, false, .any⟩, ⟨29, 20, .rw, false, .oneOf [1, 1001]⟩]⟩,
  ⟨0x80010, [(2048, 32)], 0x20, false, [⟨10, 0, .rw, true, .range 8 1024⟩]⟩,
  ⟨0x80014, [(2048, 32)], 0x0, false, [⟨4, 0, .rw, true, .signed 12⟩, ⟨9, 5, .rw, true, .signed 12⟩, ⟨14, 10, .rw, true, .signed 12⟩, ⟨19, 15, .rw, true, .signed 12⟩]⟩,
  ⟨0x80018, [(2048, 32)], 0x0, false, [⟨4, 0, .rw, true, .signed 12⟩, ⟨9, 5, .rw, true, .signed 12⟩]⟩,
  ⟨0x8001C, [(2048, 32)], 0x101, false, [⟨5, 0, .rw, false, .range 1 32⟩, ⟨11, 8, .rw, false, .range 1 8⟩]⟩,
  ⟨0x80020, [(2048, 32), (4, 4)], 0x0, false, [⟨31, 0, .rw, false, .any⟩]⟩,
  ⟨0x80030, [(2048, 32), (4, 2)], 0x0, false, [⟨31, 0, .rw, false, .bytes 1 68⟩]⟩,
  ⟨0x80040, [(2048, 32), (4, 6)], 0x0, false, [⟨31, 0, .rw, true, .any⟩]⟩,
  ⟨0x80058, [(2048, 32)], 0x0, false, [⟨15, 0, .rw, true, .any⟩, ⟨31, 16, .rw, true, .any⟩]⟩,
  ⟨0x80060, [(2048, 32)], 0x0, false, [⟨7, 0, .ro, false, .any⟩, ⟨15, 8, .ro, false, .any⟩, ⟨26, 16, .ro, false, .any⟩, ⟨27, 27, .ro, false, .any⟩]⟩,
  ⟨0x80064, [(2048, 32)], 0x0, false, [⟨0, 0, .wo, false, .any⟩]⟩,
  ⟨0x80068, [(2048, 32)], 0x0, true, [⟨31, 0, .ro, false, .any⟩]⟩,
  ⟨0x8006C, [(2048, 32)], 0x0, true, [⟨31, 0, .ro, false, .any⟩]⟩,
  ⟨0x80070, [(2048, 32)], 0x0, true, [⟨31, 0, .ro, false, .any⟩]⟩,
  ⟨0x80074, [(2048, 32)], 0x0, true, [⟨31, 0, .ro, false, .any⟩]⟩,
  ⟨0x80078, [(2048, 32)], 0x0, false, [⟨31, 0, .ro, false, .any⟩]⟩,
  ⟨0x8007C, [(2048, 32)], 0x0, false, [⟨15, 0, .ro, false, .any⟩]⟩,
  ⟨0x90000, [], 0x0, false, [⟨0, 0, .rw, false, .any⟩]⟩,
  ⟨0x90004, [], 0x0, false, [⟨0, 0, .w1c, false, .any⟩, ⟨1, 1, .w1c, false, .any⟩, ⟨2, 2, .w1c, false, .any⟩]⟩,
  ⟨0x90008, [], 0x0, false, [⟨31, 0, .ro, false, .any⟩]⟩,
  ⟨0x9000C, [], 0x0, false, [⟨31, 0, .ro, false, .any⟩]⟩,
  ⟨0x80200, [(2048, 32)], 0x600100, false, [⟨8, 0, .rw, true, .multRange 16 16 256⟩, ⟨22, 16, .rw, true, .multRange 16 16 96⟩]⟩,
  ⟨0x80204, [(2048, 32)], 0x0, false, [⟨31, 0, .rw, false, .mult 4096⟩]⟩,
  ⟨0x80208, [(2048, 32)], 0x0, false, [⟨5, 0, .rw, false, .any⟩]⟩,
  ⟨0x8020C, [(2048, 32)], 0x0, false, [⟨31, 0, .ro, false, .any⟩]⟩,
  ⟨0x80210, [(2048, 32)], 0x0, false, [⟨3, 0, .ro, false, .any⟩]⟩,
  ⟨0x80214, [(2048, 32)], 0x0, true, [⟨31, 0, .ro, false, .any⟩]⟩,
  ⟨0x90100, [(16, 64)], 0x0, true, [⟨31, 0, .ro, false, .any⟩]⟩,
  ⟨0x90104, [(16, 64)], 0x0, true, [⟨31, 0, .ro, false, .any⟩]⟩,
  ⟨0x90108, [(16, 64)], 0x0, true, [⟨31, 0, .ro, false, .any⟩]⟩,
  ⟨0x9010C, [(16, 64)], 0x0, true, [⟨31, 0, .ro, false, .any⟩]⟩,
  ⟨0x80100, [(2048, 32)], 0x100, false, [⟨12, 0, .rw, false, .range 128 4096⟩]⟩,
  ⟨0x80104, [(2048, 32)], 0x0, false, [⟨12, 0, .ro, false, .any⟩]⟩,
  ⟨0x80108, [(2048, 32)], 0x0, false, [⟨26, 0, .rw, false, .range 1000 100000000⟩]⟩,
  ⟨0x8010C, [(2048, 32)], 0x4330A, false, [⟨5, 0, .rw, true, .any⟩, ⟨13, 8, .rw, true, .any⟩, ⟨19, 16, .rw, true, .range 1 12⟩]⟩,
  ⟨0x80110, [(2048, 32)], 0x1000, false, [⟨15, 0, .rw, true, .range 512 32768⟩]⟩,
  ⟨0x80114, [(2048, 32)], 0x810, false, [⟨7, 0, .rw, true, .range 0 64⟩, ⟨15, 8, .rw, true, .range 1 64⟩]⟩]
def regsEnc1 : List RegDef := [
  ⟨0x80118, [(2048, 32)], 0x0, false, [⟨31, 0, .ro, false, .any⟩]⟩,
  ⟨0x8011C, [(2048, 32)], 0x0, false, [⟨31, 0, .ro, false, .any⟩]⟩,
  ⟨0x80120, [(2048, 32)], 0x0, false, [⟨31, 0, .ro, false, .any⟩]⟩,
  ⟨0x80124, [(2048, 32)], 0x0, false, [⟨31, 0, .ro, false, .any⟩]⟩,
  ⟨0x80128, [(2048, 32)], 0x0, false, [⟨31, 0, .rc, false, .any⟩]⟩,
  ⟨0x8012C, [(2048, 32)], 0x0, true, [⟨31, 0, .ro, false, .any⟩]⟩,
  ⟨0x80130, [(2048, 32)], 0x0, true, [⟨31, 0, .ro, false, .any⟩]⟩,
  ⟨0x80134, [(2048, 32)], 0x0, true, [⟨31, 0, .ro, false, .any⟩]⟩]
def regsEnc : List RegDef := regsEnc0 ++ regsEnc1

def regsDis0 : List RegDef := [
  ⟨0xA0000, [], 0x4, false, [⟨0, 0, .rw, false, .any⟩, ⟨2, 1, .rw, false, .range 1 3⟩, ⟨3, 3, .rw, false, .any⟩]⟩,
  ⟨0xA0004, [], 0x0, false, [⟨6, 0, .ro, false, .any⟩, ⟨13, 7, .ro, false, .any⟩, ⟨20, 14, .ro, false, .any⟩, ⟨21, 21, .ro, false, .any⟩, ⟨27, 22, .ro, false, .any⟩]⟩,
  ⟨0xA0008, [], 0x0, false, [⟨0, 0, .w1c, false, .any⟩, ⟨1, 1, .w1c, false, .any⟩, ⟨2, 2, .w1c, false, .any⟩, ⟨3, 3, .w1c, false, .any⟩, ⟨4, 4, .w1c, false, .any⟩, ⟨5, 5, .w1c, false, .any⟩, ⟨6, 6, .w1c, false, .any⟩, ⟨7, 7, .w1c, false, .any⟩]⟩,
  ⟨0xA000C, [], 0x0, false, [⟨12, 0, .ro, false, .any⟩]⟩,
  ⟨0xA0010, [], 0x1C200003, false, [⟨3, 0, .rw, false, .range 1 15⟩, ⟨31, 16, .rw, false, .range 1 65535⟩]⟩,
  ⟨0xA0014, [], 0x0, false, [⟨5, 0, .wo, false, .any⟩, ⟨8, 8, .wo, false, .any⟩]⟩,
  ⟨0xA0018, [], 0x0, false, [⟨31, 0, .rwl, false, .mult 4096⟩]⟩,
  ⟨0xA001C, [], 0x0, false, [⟨5, 0, .rwl, false, .any⟩]⟩,
  ⟨0xA0020, [], 0x0, false, [⟨17, 0, .ro, false, .any⟩]⟩,
  ⟨0xA0024, [], 0x0, false, [⟨17, 0, .ro, false, .any⟩]⟩,
  ⟨0xA0028, [], 0x0, true, [⟨17, 0, .ro, false, .any⟩]⟩,
  ⟨0xA002C, [], 0x0, true, [⟨31, 0, .ro, false, .any⟩]⟩,
  ⟨0xA0030, [], 0x0, true, [⟨31, 0, .ro, false, .any⟩]⟩,
  ⟨0xA0034, [], 0x0, true, [⟨31, 0, .ro, false, .any⟩]⟩,
  ⟨0xA0038, [], 0x0, true, [⟨31, 0, .ro, false, .any⟩]⟩,
  ⟨0xA003C, [], 0x0, true, [⟨31, 0, .ro, false, .any⟩]⟩,
  ⟨0xA0040, [(4, 4)], 0x0, false, [⟨0, 0, .rw, false, .any⟩, ⟨1, 1, .ro, false, .any⟩]⟩,
  ⟨0xA0080, [(4, 32)], 0x4, false, [⟨2, 0, .rw, false, .range 1 7⟩, ⟨8, 8, .ro, false, .any⟩]⟩,
  ⟨0xA0100, [], 0x0, false, [⟨0, 0, .rw, false, .any⟩, ⟨1, 1, .rw, false, .any⟩, ⟨2, 2, .rw, false, .any⟩, ⟨7, 3, .rw, false, .any⟩, ⟨11, 8, .rw, false, .range 0 14⟩, ⟨31, 16, .rw, false, .any⟩]⟩,
  ⟨0xA0104, [], 0x7FFE, false, [⟨15, 0, .rw, false, .any⟩]⟩,
  ⟨0xA0108, [], 0x0, false, [⟨16, 0, .ro, false, .any⟩, ⟨17, 17, .ro, false, .any⟩, ⟨18, 18, .ro, false, .any⟩]⟩,
  ⟨0xA010C, [], 0x0, false, [⟨15, 0, .ro, false, .any⟩]⟩,
  ⟨0xA0110, [], 0x0, false, [⟨0, 0, .wo, false, .any⟩]⟩,
  ⟨0xA0400, [(16, 64)], 0x0, false, [⟨0, 0, .ro, false, .any⟩, ⟨1, 1, .ro, false, .any⟩, ⟨2, 2, .ro, false, .any⟩, ⟨3, 3, .ro, false, .any⟩, ⟨4, 4, .ro, false, .any⟩, ⟨5, 5, .ro, false, .any⟩, ⟨10, 6, .ro, false, .any⟩]⟩,
  ⟨0xA0404, [(16, 64)], 0x0, true, [⟨31, 0, .ro, false, .any⟩]⟩,
  ⟨0xA0408, [(16, 64)], 0x0, true, [⟨31, 0, .ro, false, .any⟩]⟩,
  ⟨0xA040C, [(16, 64)], 0x0, false, [⟨3, 0, .ro, false, .any⟩]⟩]
def regsDis : List RegDef := regsDis0

def regsEgs0 : List RegDef := [
  ⟨0xB0000, [], 0x0, false, [⟨0, 0, .rw, false, .any⟩]⟩,
  ⟨0xB0004, [], 0x0, false, [⟨0, 0, .w1c, false, .any⟩, ⟨1, 1, .w1c, false, .any⟩, ⟨2, 2, .w1c, false, .any⟩]⟩,
  ⟨0xB0008, [], 0x40, false, [⟨12, 0, .rw, false, .any⟩, ⟨28, 16, .rw, false, .any⟩]⟩,
  ⟨0xB0040, [(4, 32)], 0x0, false, [⟨31, 0, .rw, false, .any⟩]⟩,
  ⟨0xB00C0, [], 0x0, false, [⟨15, 0, .wo, false, .any⟩, ⟨16, 16, .wo, false, .any⟩, ⟨17, 17, .wo, false, .any⟩]⟩,
  ⟨0xB0100, [(64, 8)], 0x14, false, [⟨5, 0, .rw, false, .any⟩]⟩,
  ⟨0xB0104, [(64, 8)], 0x0, false, [⟨19, 0, .ro, false, .any⟩]⟩,
  ⟨0xB0108, [(64, 8)], 0x0, false, [⟨19, 0, .ro, false, .any⟩]⟩,
  ⟨0xB010C, [(64, 8)], 0x0, false, [⟨15, 0, .ro, false, .any⟩]⟩,
  ⟨0xB0110, [(64, 8)], 0x0, false, [⟨31, 0, .ro, false, .any⟩]⟩,
  ⟨0xB0114, [(64, 8)], 0x0, false, [⟨31, 0, .ro, false, .any⟩]⟩,
  ⟨0xB0118, [(64, 8)], 0x0, false, [⟨31, 0, .ro, false, .any⟩]⟩,
  ⟨0xB011C, [(64, 8)], 0x0, false, [⟨31, 0, .rc, false, .any⟩]⟩,
  ⟨0xB0120, [(64, 8)], 0x0, true, [⟨31, 0, .ro, false, .any⟩]⟩,
  ⟨0xB0124, [(64, 8)], 0x0, true, [⟨31, 0, .ro, false, .any⟩]⟩,
  ⟨0xB0400, [(4, 32)], 0x0, false, [⟨15, 0, .ro, false, .any⟩]⟩]
def regsEgs : List RegDef := regsEgs0

def regsTwn0 : List RegDef := [
  ⟨0xC0000, [], 0x200, false, [⟨0, 0, .rw, false, .any⟩, ⟨3, 1, .rw, false, .any⟩, ⟨15, 8, .rw, false, .range 1 255⟩]⟩,
  ⟨0xC0004, [], 0x0, false, [⟨2, 0, .ro, false, .any⟩, ⟨3, 3, .ro, false, .any⟩, ⟨4, 4, .ro, false, .any⟩, ⟨5, 5, .ro, false, .any⟩, ⟨6, 6, .ro, false, .any⟩, ⟨7, 7, .ro, false, .any⟩, ⟨8, 8, .ro, false, .any⟩]⟩,
  ⟨0xC0008, [], 0x0, false, [⟨0, 0, .w1c, false, .any⟩, ⟨1, 1, .w1c, false, .any⟩, ⟨2, 2, .w1c, false, .any⟩, ⟨3, 3, .w1c, false, .any⟩, ⟨4, 4, .w1c, false, .any⟩, ⟨5, 5, .w1c, false, .any⟩, ⟨6, 6, .w1c, false, .any⟩, ⟨7, 7, .w1c, false, .any⟩, ⟨8, 8, .w1c, false, .any⟩, ⟨9, 9, .w1c, false, .any⟩]⟩,
  ⟨0xC000C, [], 0x0, false, [⟨31, 0, .rw, false, .any⟩]⟩,
  ⟨0xC0010, [], 0x18, false, [⟨5, 0, .rw, false, .range 8 40⟩]⟩,
  ⟨0xC0014, [], 0xC, false, [⟨6, 0, .rw, false, .range 4 64⟩]⟩,
  ⟨0xC0018, [], 0x0, false, [⟨31, 0, .rw, false, .any⟩]⟩,
  ⟨0xC001C, [], 0x0, false, [⟨0, 0, .wo, false, .any⟩]⟩,
  ⟨0xC0020, [], 0x0, false, [⟨31, 0, .ro, false, .any⟩]⟩,
  ⟨0xC0024, [], 0x0, false, [⟨31, 0, .ro, false, .any⟩]⟩,
  ⟨0xC0028, [], 0x0, false, [⟨31, 0, .rc, false, .any⟩]⟩,
  ⟨0xC0040, [], 0x0, true, [⟨31, 0, .ro, false, .any⟩]⟩,
  ⟨0xC0044, [], 0x0, true, [⟨31, 0, .ro, false, .any⟩]⟩,
  ⟨0xC0048, [], 0x0, true, [⟨31, 0, .ro, false, .any⟩]⟩,
  ⟨0xC004C, [], 0x0, true, [⟨31, 0, .ro, false, .any⟩]⟩,
  ⟨0xC0050, [], 0x0, true, [⟨31, 0, .ro, false, .any⟩]⟩,
  ⟨0xC0054, [], 0x0, true, [⟨31, 0, .ro, false, .any⟩]⟩,
  ⟨0xC0058, [], 0x0, true, [⟨31, 0, .ro, false, .any⟩]⟩,
  ⟨0xC005C, [], 0x0, true, [⟨31, 0, .ro, false, .any⟩]⟩,
  ⟨0xC0100, [(4, 32)], 0x0, false, [⟨1, 0, .ro, false, .any⟩, ⟨3, 2, .ro, false, .any⟩, ⟨14, 4, .ro, false, .any⟩]⟩]
def regsTwn : List RegDef := regsTwn0

def regsCnv0 : List RegDef := [
  ⟨0xD0000, [], 0x0, false, [⟨0, 0, .rw, false, .any⟩, ⟨5, 1, .rw, false, .any⟩, ⟨6, 6, .rw, false, .any⟩]⟩,
  ⟨0xD0004, [], 0x0, false, [⟨6, 0, .ro, false, .any⟩, ⟨7, 7, .ro, false, .any⟩, ⟨8, 8, .ro, false, .any⟩]⟩,
  ⟨0xD0008, [], 0x0, false, [⟨0, 0, .w1c, false, .any⟩, ⟨1, 1, .w1c, false, .any⟩, ⟨2, 2, .w1c, false, .any⟩, ⟨3, 3, .w1c, false, .any⟩, ⟨4, 4, .w1c, false, .any⟩, ⟨5, 5, .w1c, false, .any⟩]⟩,
  ⟨0xD000C, [], 0x0, false, [⟨2, 0, .rw, false, .any⟩, ⟨6, 4, .rw, false, .any⟩, ⟨10, 8, .rw, false, .any⟩, ⟨14, 12, .rw, false, .any⟩]⟩,
  ⟨0xD0010, [], 0x3210, false, [⟨2, 0, .rw, false, .any⟩, ⟨6, 4, .rw, false, .any⟩, ⟨10, 8, .rw, false, .any⟩, ⟨14, 12, .rw, false, .any⟩]⟩,
  ⟨0xD0014, [], 0x0, false, [⟨31, 0, .rw, false, .any⟩]⟩,
  ⟨0xD0018, [], 0x201108, false, [⟨15, 0, .rw, false, .any⟩, ⟨23, 16, .rw, false, .range 8 255⟩]⟩,
  ⟨0xD001C, [], 0x0, false, [⟨22, 0, .rw, false, .range 1 6400000⟩]⟩,
  ⟨0xD0020, [], 0x0, false, [⟨31, 0, .ro, false, .any⟩]⟩,
  ⟨0xD0024, [], 0x0, false, [⟨31, 0, .ro, false, .any⟩]⟩,
  ⟨0xD0028, [], 0x0, false, [⟨31, 0, .ro, false, .any⟩]⟩,
  ⟨0xD002C, [], 0x0, false, [⟨31, 0, .ro, false, .any⟩]⟩,
  ⟨0xD0030, [], 0x0, true, [⟨31, 0, .ro, false, .any⟩]⟩,
  ⟨0xD0034, [], 0x0, true, [⟨31, 0, .ro, false, .any⟩]⟩,
  ⟨0xD0038, [], 0x0, true, [⟨31, 0, .ro, false, .any⟩]⟩,
  ⟨0xD003C, [], 0x0, true, [⟨31, 0, .ro, false, .any⟩]⟩,
  ⟨0xD0040, [], 0x0, true, [⟨31, 0, .ro, false, .any⟩]⟩,
  ⟨0xD0044, [], 0x0, true, [⟨31, 0, .ro, false, .any⟩]⟩,
  ⟨0xD0100, [(32, 8)], 0x1, false, [⟨5, 0, .rw, false, .range 1 32⟩]⟩,
  ⟨0xD0104, [(32, 8), (4, 4)], 0x0, false, [⟨31, 0, .rw, false, .any⟩]⟩,
  ⟨0xD0200, [(16, 8)], 0x1, false, [⟨3, 0, .rw, false, .range 1 8⟩]⟩,
  ⟨0xD0204, [(16, 8), (4, 2)], 0x0, false, [⟨31, 0, .rw, false, .bytes 1 68⟩]⟩,
  ⟨0xD0300, [(4, 64)], 0x0, false, [⟨9, 0, .rw, false, .any⟩, ⟨31, 31, .rw, false, .any⟩]⟩,
  ⟨0xD0400, [(64, 8)], 0x807D0, false, [⟨15, 0, .rw, false, .range 500 65535⟩, ⟨19, 16, .rw, false, .range 1 15⟩]⟩,
  ⟨0xD0404, [(64, 8)], 0x0, false, [⟨1, 0, .ro, false, .any⟩]⟩,
  ⟨0xD0408, [(64, 8)], 0x0, false, [⟨31, 0, .ro, false, .any⟩]⟩,
  ⟨0xD040C, [(64, 8)], 0x0, true, [⟨31, 0, .ro, false, .any⟩]⟩,
  ⟨0xD0410, [(64, 8)], 0x0, true, [⟨31, 0, .ro, false, .any⟩]⟩,
  ⟨0xD0414, [(64, 8)], 0x0, true, [⟨31, 0, .ro, false, .any⟩]⟩,
  ⟨0xD0418, [(64, 8)], 0x0, true, [⟨31, 0, .ro, false, .any⟩]⟩,
  ⟨0xD041C, [(64, 8)], 0x0, true, [⟨31, 0, .ro, false, .any⟩]⟩,
  ⟨0xD0420, [(64, 8)], 0x0, true, [⟨31, 0, .ro, false, .any⟩]⟩]
def regsCnv : List RegDef := regsCnv0

def regsLne0 : List RegDef := [
  ⟨0xE0000, [], 0x0, false, [⟨0, 0, .w1c, false, .any⟩, ⟨1, 1, .w1c, false, .any⟩, ⟨2, 2, .w1c, false, .any⟩, ⟨3, 3, .w1c, false, .any⟩, ⟨4, 4, .w1c, false, .any⟩]⟩,
  ⟨0xE0004, [], 0x3E82010, false, [⟨7, 0, .rw, false, .range 4 255⟩, ⟨13, 8, .rw, false, .range 24 36⟩, ⟨31, 16, .rw, false, .range 10 65535⟩]⟩,
  ⟨0xE0008, [], 0x833, false, [⟨3, 0, .rw, false, .range 2 15⟩, ⟨7, 4, .rw, false, .range 2 15⟩, ⟨15, 8, .rw, false, .range 2 255⟩]⟩,
  ⟨0xE0100, [(4, 16)], 0x0, false, [⟨0, 0, .rw, false, .any⟩, ⟨2, 1, .rw, false, .any⟩, ⟨6, 4, .rw, false, .any⟩]⟩,
  ⟨0xE0200, [(32, 8)], 0x0, false, [⟨2, 0, .ro, false, .any⟩, ⟨3, 3, .ro, false, .any⟩, ⟨11, 4, .ro, false, .any⟩, ⟨15, 12, .ro, false, .any⟩]⟩,
  ⟨0xE0300, [(32, 8)], 0x0, false, [⟨2, 0, .ro, false, .any⟩, ⟨3, 3, .ro, false, .any⟩, ⟨11, 4, .ro, false, .any⟩, ⟨15, 12, .ro, false, .any⟩]⟩,
  ⟨0xE0204, [(256, 2), (32, 8)], 0x0, false, [⟨31, 0, .ro, false, .any⟩]⟩,
  ⟨0xE0208, [(256, 2), (32, 8)], 0x0, false, [⟨31, 0, .ro, false, .any⟩]⟩,
  ⟨0xE020C, [(256, 2), (32, 8)], 0x0, true, [⟨31, 0, .ro, false, .any⟩]⟩,
  ⟨0xE0210, [(256, 2), (32, 8)], 0x0, true, [⟨31, 0, .ro, false, .any⟩]⟩,
  ⟨0xE0214, [(256, 2), (32, 8)], 0x0, true, [⟨31, 0, .ro, false, .any⟩]⟩,
  ⟨0xE1000, [(64, 64), (4, 4)], 0x0, false, [⟨31, 0, .rw, false, .any⟩]⟩,
  ⟨0xE1010, [(64, 64)], 0x0, false, [⟨2, 0, .ro, false, .any⟩, ⟨3, 3, .ro, false, .any⟩, ⟨4, 4, .ro, false, .any⟩, ⟨5, 5, .ro, false, .any⟩]⟩,
  ⟨0xE1014, [(64, 64)], 0x0, false, [⟨7, 0, .ro, false, .any⟩, ⟨15, 8, .ro, false, .any⟩]⟩,
  ⟨0xE1018, [(64, 64)], 0x0, false, [⟨15, 0, .ro, false, .any⟩, ⟨31, 16, .ro, false, .any⟩]⟩,
  ⟨0xE101C, [(64, 64)], 0x0, false, [⟨31, 0, .ro, false, .any⟩]⟩,
  ⟨0xE1020, [(64, 64)], 0x0, true, [⟨31, 0, .ro, false, .any⟩]⟩,
  ⟨0xE1024, [(64, 64)], 0x0, false, [⟨1, 0, .rw, false, .any⟩, ⟨2, 2, .rw, false, .any⟩, ⟨3, 3, .rw, false, .any⟩]⟩]
def regsLne : List RegDef := regsLne0

def regsEth0 : List RegDef := [
  ⟨0xF0000, [], 0x0, false, [⟨0, 0, .w1c, false, .any⟩, ⟨1, 1, .w1c, false, .any⟩, ⟨2, 2, .w1c, false, .any⟩]⟩,
  ⟨0xF0004, [], 0x3E80A02, false, [⟨3, 0, .rw, false, .range 1 7⟩, ⟨15, 8, .rw, false, .range 1 255⟩, ⟨31, 16, .rw, false, .any⟩]⟩,
  ⟨0xF0100, [(128, 8)], 0x1F, false, [⟨0, 0, .rw, false, .any⟩, ⟨1, 1, .rw, false, .any⟩, ⟨2, 2, .rw, false, .any⟩, ⟨3, 3, .rw, false, .any⟩, ⟨4, 4, .rw, false, .any⟩]⟩,
  ⟨0xF0104, [(128, 8)], 0x0, false, [⟨0, 0, .ro, false, .any⟩, ⟨1, 1, .ro, false, .any⟩, ⟨2, 2, .ro, false, .any⟩, ⟨3, 3, .ro, false, .any⟩]⟩,
  ⟨0xF0108, [(128, 8)], 0x0, false, [⟨31, 0, .rw, false, .any⟩]⟩,
  ⟨0xF010C, [(128, 8)], 0x0, false, [⟨15, 0, .rw, false, .any⟩]⟩,
  ⟨0xF0110, [(128, 8)], 0x0, false, [⟨31, 0, .rw, false, .any⟩]⟩,
  ⟨0xF0114, [(128, 8), (4, 4)], 0x0, false, [⟨31, 0, .rw, false, .any⟩]⟩,
  ⟨0xF0124, [(128, 8), (4, 4)], 0x0, false, [⟨31, 0, .rw, false, .any⟩]⟩,
  ⟨0xF0134, [(128, 8)], 0x0, true, [⟨31, 0, .ro, false, .any⟩]⟩,
  ⟨0xF0138, [(128, 8)], 0x0, true, [⟨31, 0, .ro, false, .any⟩]⟩,
  ⟨0xF013C, [(128, 8)], 0x0, true, [⟨31, 0, .ro, false, .any⟩]⟩,
  ⟨0xF0140, [(128, 8)], 0x0, true, [⟨31, 0, .ro, false, .any⟩]⟩,
  ⟨0xF0144, [(128, 8)], 0x0, true, [⟨31, 0, .ro, false, .any⟩]⟩,
  ⟨0xF0148, [(128, 8)], 0x0, true, [⟨9, 0, .ro, false, .any⟩]⟩]
def regsEth : List RegDef := regsEth0

def regsHbm0 : List RegDef := [
  ⟨0x100000, [(65536, 4)], 0x0, false, [⟨0, 0, .rw, false, .any⟩]⟩,
  ⟨0x100004, [(65536, 4)], 0x0, false, [⟨2, 0, .ro, false, .any⟩, ⟨3, 3, .ro, false, .any⟩]⟩,
  ⟨0x100008, [(65536, 4)], 0x0, false, [⟨0, 0, .w1c, false, .any⟩, ⟨1, 1, .w1c, false, .any⟩, ⟨2, 2, .w1c, false, .any⟩, ⟨3, 3, .w1c, false, .any⟩, ⟨4, 4, .w1c, false, .any⟩, ⟨5, 5, .w1c, false, .any⟩, ⟨6, 6, .w1c, false, .any⟩]⟩,
  ⟨0x10000C, [(65536, 4)], 0x0, false, [⟨15, 0, .rw, false, .any⟩, ⟨31, 16, .rw, false, .any⟩]⟩,
  ⟨0x100010, [(65536, 4)], 0x0, false, [⟨15, 0, .ro, false, .any⟩]⟩,
  ⟨0x100014, [(65536, 4)], 0x401008, false, [⟨7, 0, .rw, false, .range 1 255⟩, ⟨15, 8, .rw, false, .range 1 255⟩, ⟨23, 16, .rw, false, .range 1 255⟩]⟩,
  ⟨0x100018, [(65536, 4)], 0x402008, false, [⟨3, 0, .rw, false, .range 1 15⟩, ⟨15, 8, .rw, false, .range 1 255⟩, ⟨23, 16, .rw, false, .range 16 255⟩]⟩,
  ⟨0x10001C, [(65536, 4)], 0x10040400, false, [⟨15, 0, .rw, false, .range 256 16384⟩, ⟨23, 16, .rw, false, .range 1 64⟩, ⟨31, 24, .rw, false, .range 1 255⟩]⟩,
  ⟨0x100020, [(65536, 4)], 0x4, false, [⟨7, 0, .rw, false, .range 1 255⟩]⟩,
  ⟨0x100024, [(65536, 4)], 0x18, false, [⟨15, 0, .rw, false, .range 0 1000⟩]⟩,
  ⟨0x100028, [(65536, 4)], 0x0, false, [⟨7, 0, .ro, false, .any⟩, ⟨8, 8, .ro, false, .any⟩]⟩,
  ⟨0x10002C, [(65536, 4)], 0x0, true, [⟨31, 0, .ro, false, .any⟩]⟩,
  ⟨0x100030, [(65536, 4)], 0x0, true, [⟨31, 0, .ro, false, .any⟩]⟩,
  ⟨0x100034, [(65536, 4)], 0x0, false, [⟨31, 0, .ro, false, .any⟩]⟩,
  ⟨0x100038, [(65536, 4)], 0x0, false, [⟨5, 0, .ro, false, .any⟩, ⟨14, 8, .ro, false, .any⟩]⟩,
  ⟨0x10003C, [(65536, 4)], 0x0, true, [⟨31, 0, .ro, false, .any⟩]⟩,
  ⟨0x100040, [(65536, 4)], 0x0, true, [⟨31, 0, .ro, false, .any⟩]⟩,
  ⟨0x100044, [(65536, 4)], 0x0, true, [⟨31, 0, .ro, false, .any⟩]⟩,
  ⟨0x100048, [(65536, 4)], 0x0, false, [⟨6, 0, .ro, false, .any⟩, ⟨11, 8, .ro, false, .any⟩]⟩,
  ⟨0x10004C, [(65536, 4)], 0x0, false, [⟨7, 0, .ro, false, .any⟩]⟩,
  ⟨0x100050, [(65536, 4)], 0x0, false, [⟨15, 0, .ro, false, .any⟩]⟩,
  ⟨0x100100, [(65536, 4), (16, 32)], 0x0, false, [⟨15, 0, .ro, false, .any⟩, ⟨31, 16, .ro, false, .any⟩]⟩,
  ⟨0x100104, [(65536, 4), (16, 32)], 0x0, true, [⟨31, 0, .ro, false, .any⟩]⟩,
  ⟨0x100108, [(65536, 4), (16, 32)], 0x0, true, [⟨31, 0, .ro, false, .any⟩]⟩,
  ⟨0x10010C, [(65536, 4), (16, 32)], 0x0, true, [⟨31, 0, .ro, false, .any⟩]⟩,
  ⟨0x10F000, [], 0x0, false, [⟨0, 0, .rwl, false, .any⟩]⟩,
  ⟨0x10F004, [], 0x0, false, [⟨31, 0, .rwl, false, .mult 4096⟩]⟩,
  ⟨0x10F008, [], 0x0, false, [⟨5, 0, .rwl, false, .any⟩]⟩,
  ⟨0x10F00C, [], 0x0, true, [⟨31, 0, .ro, false, .any⟩]⟩]
def regsHbm : List RegDef := regsHbm0

def regsAud0 : List RegDef := [
  ⟨0x140000, [], 0x8032, false, [⟨0, 0, .rw, false, .any⟩, ⟨3, 1, .rw, false, .range 0 5⟩, ⟨5, 4, .rw, false, .any⟩, ⟨6, 6, .rw, false, .any⟩, ⟨8, 7, .rw, false, .any⟩, ⟨19, 10, .rw, false, .range 1 1000⟩]⟩,
  ⟨0x140004, [], 0x0, false, [⟨2, 0, .ro, false, .any⟩, ⟨3, 3, .ro, false, .any⟩]⟩,
  ⟨0x140008, [], 0x0, false, [⟨0, 0, .w1c, false, .any⟩, ⟨1, 1, .w1c, false, .any⟩, ⟨2, 2, .w1c, false, .any⟩, ⟨3, 3, .w1c, false, .any⟩, ⟨4, 4, .w1c, false, .any⟩, ⟨5, 5, .w1c, false, .any⟩]⟩,
  ⟨0x14000C, [], 0x208400, false, [⟨1, 0, .rw, false, .any⟩, ⟨4, 2, .rw, false, .any⟩, ⟨11, 8, .rw, false, .any⟩, ⟨15, 12, .rw, false, .any⟩, ⟨23, 16, .rw, false, .range 8 128⟩]⟩,
  ⟨0x140010, [], 0x0, false, [⟨31, 0, .ro, false, .any⟩]⟩,
  ⟨0x140014, [], 0x0, false, [⟨31, 0, .ro, false, .any⟩]⟩,
  ⟨0x140018, [], 0x0, false, [⟨31, 0, .ro, false, .any⟩]⟩,
  ⟨0x14001C, [], 0x0, false, [⟨15, 0, .ro, false, .any⟩]⟩,
  ⟨0x140020, [], 0x0, false, [⟨15, 0, .ro, false, .any⟩]⟩,
  ⟨0x140024, [], 0x0, false, [⟨5, 0, .wo, false, .any⟩, ⟨8, 8, .wo, false, .any⟩]⟩,
  ⟨0x140100, [(128, 8)], 0x0, false, [⟨0, 0, .rw, false, .any⟩, ⟨1, 1, .rw, false, .any⟩]⟩,
  ⟨0x140104, [(128, 8)], 0x0, false, [⟨0, 0, .ro, false, .any⟩, ⟨1, 1, .ro, false, .any⟩, ⟨2, 2, .ro, false, .any⟩, ⟨3, 3, .ro, false, .any⟩]⟩,
  ⟨0x140108, [(128, 8)], 0x0, true, [⟨31, 0, .ro, false, .any⟩]⟩,
  ⟨0x14010C, [(128, 8)], 0x0, true, [⟨31, 0, .ro, false, .any⟩]⟩,
  ⟨0x140110, [(128, 8)], 0x0, true, [⟨31, 0, .ro, false, .any⟩]⟩,
  ⟨0x140114, [(128, 8)], 0x0, false, [⟨29, 0, .ro, false, .any⟩]⟩,
  ⟨0x140118, [(128, 8)], 0x0, false, [⟨31, 0, .ro, false, .any⟩]⟩,
  ⟨0x14011C, [(128, 8)], 0x0, false, [⟨15, 0, .ro, false, .any⟩]⟩,
  ⟨0x140120, [(128, 8), (4, 6)], 0x0, false, [⟨31, 0, .ro, false, .any⟩]⟩,
  ⟨0x140138, [(128, 8), (4, 6)], 0x0, false, [⟨31, 0, .ro, false, .any⟩]⟩,
  ⟨0x140500, [(128, 8)], 0x3FFFF00, false, [⟨0, 0, .rw, false, .any⟩, ⟨1, 1, .rw, false, .any⟩, ⟨2, 2, .rw, true, .any⟩, ⟨3, 3, .rw, true, .any⟩, ⟨4, 4, .rw, false, .any⟩, ⟨16, 8, .rw, true, .any⟩, ⟨25, 17, .rw, true, .any⟩, ⟨30, 26, .rw, false, .any⟩]⟩,
  ⟨0x140504, [(128, 8)], 0x0, false, [⟨15, 0, .rw, true, .any⟩]⟩,
  ⟨0x140508, [(128, 8)], 0x0, false, [⟨0, 0, .ro, false, .any⟩, ⟨1, 1, .ro, false, .any⟩, ⟨2, 2, .ro, false, .any⟩]⟩,
  ⟨0x14050C, [(128, 8)], 0x0, false, [⟨15, 0, .ro, false, .any⟩]⟩,
  ⟨0x140510, [(128, 8)], 0x0, true, [⟨31, 0, .ro, false, .any⟩]⟩,
  ⟨0x140514, [(128, 8)], 0x0, true, [⟨31, 0, .ro, false, .any⟩]⟩,
  ⟨0x140518, [(128, 8)], 0x2, false, [⟨3, 0, .rw, false, .range 1 15⟩]⟩,
  ⟨0x140520, [(128, 8), (4, 6)], 0x0, false, [⟨31, 0, .rw, true, .any⟩]⟩,
  ⟨0x140900, [(128, 4)], 0x30200, false, [⟨0, 0, .rw, false, .any⟩, ⟨1, 1, .rw, false, .any⟩, ⟨2, 2, .rw, false, .any⟩, ⟨3, 3, .rw, false, .any⟩, ⟨4, 4, .rw, false, .any⟩, ⟨9, 5, .rw, false, .range 1 16⟩, ⟨14, 10, .rw, false, .any⟩, ⟨15, 15, .rw, false, .any⟩, ⟨19, 16, .rw, false, .range 3 8⟩]⟩,
  ⟨0x140904, [(128, 4)], 0x0, false, [⟨15, 0, .ro, false, .any⟩, ⟨31, 16, .ro, false, .any⟩]⟩,
  ⟨0x140908, [(128, 4)], 0x0, false, [⟨31, 0, .rw, false, .any⟩]⟩,
  ⟨0x14090C, [(128, 4)], 0x0, false, [⟨0, 0, .wo, false, .any⟩]⟩,
  ⟨0x140910, [(128, 4)], 0x0, false, [⟨0, 0, .ro, false, .any⟩, ⟨1, 1, .ro, false, .any⟩, ⟨2, 2, .ro, false, .any⟩]⟩,
  ⟨0x140914, [(128, 4)], 0x0, false, [⟨15, 0, .rw, true, .any⟩]⟩,
  ⟨0x140918, [(128, 4)], 0x0, false, [⟨15, 0, .ro, false, .any⟩]⟩,
  ⟨0x14091C, [(128, 4)], 0x0, true, [⟨31, 0, .ro, false, .any⟩]⟩,
  ⟨0x140920, [(128, 4), (4, 8)], 0x1FF01FF, false, [⟨8, 0, .rw, true, .any⟩, ⟨24, 16, .rw, true, .any⟩]⟩,
  ⟨0x140940, [(128, 4)], 0x0, true, [⟨31, 0, .ro, false, .any⟩]⟩,
  ⟨0x141000, [(32, 64)], 0x2, false, [⟨0, 0, .rw, false, .any⟩, ⟨7, 1, .rw, false, .range 1 64⟩, ⟨8, 8, .rw, false, .any⟩, ⟨9, 9, .rw, false, .any⟩, ⟨23, 16, .rw, false, .any⟩]⟩,
  ⟨0x141004, [(32, 64)], 0x0, false, [⟨0, 0, .ro, false, .any⟩, ⟨1, 1, .ro, false, .any⟩, ⟨2, 2, .ro, false, .any⟩]⟩]
def regsAud1 : List RegDef := [
  ⟨0x141008, [(32, 64)], 0x0, true, [⟨31, 0, .ro, false, .any⟩]⟩,
  ⟨0x14100C, [(32, 64)], 0x0, true, [⟨31, 0, .ro, false, .any⟩]⟩,
  ⟨0x141800, [(32, 64)], 0x2, false, [⟨0, 0, .rw, false, .any⟩, ⟨7, 1, .rw, false, .range 1 64⟩, ⟨8, 8, .rw, false, .any⟩, ⟨9, 9, .rw, false, .any⟩, ⟨10, 10, .rw, false, .any⟩, ⟨15, 11, .rw, false, .any⟩, ⟨23, 16, .rw, false, .any⟩]⟩,
  ⟨0x141804, [(32, 64)], 0x0, false, [⟨15, 0, .rw, false, .any⟩]⟩,
  ⟨0x141808, [(32, 64)], 0x0, false, [⟨15, 0, .rw, true, .any⟩]⟩,
  ⟨0x14180C, [(32, 64)], 0x0, false, [⟨15, 0, .ro, false, .any⟩]⟩,
  ⟨0x141810, [(32, 64)], 0x0, true, [⟨31, 0, .ro, false, .any⟩]⟩,
  ⟨0x141814, [(32, 64)], 0x0, true, [⟨31, 0, .ro, false, .any⟩]⟩,
  ⟨0x142000, [(4, 256)], 0x1FF, false, [⟨8, 0, .rw, true, .any⟩]⟩]
def regsAud : List RegDef := regsAud0 ++ regsAud1

def regsCal0 : List RegDef := [
  ⟨0x150000, [], 0x3E, false, [⟨0, 0, .rw, false, .any⟩, ⟨1, 1, .rw, false, .any⟩, ⟨2, 2, .rw, false, .any⟩, ⟨3, 3, .rw, false, .any⟩, ⟨4, 4, .rw, false, .any⟩, ⟨5, 5, .rw, false, .any⟩]⟩,
  ⟨0x150004, [], 0x0, false, [⟨2, 0, .ro, false, .any⟩, ⟨3, 3, .ro, false, .any⟩]⟩,
  ⟨0x150008, [], 0x0, false, [⟨0, 0, .w1c, false, .any⟩, ⟨1, 1, .w1c, false, .any⟩, ⟨2, 2, .w1c, false, .any⟩, ⟨3, 3, .w1c, false, .any⟩]⟩,
  ⟨0x15000C, [], 0x8, false, [⟨4, 0, .rw, false, .range 2 30⟩]⟩,
  ⟨0x150010, [], 0x8010E0, false, [⟨15, 0, .rw, false, .any⟩, ⟨31, 16, .rw, false, .range 1 1024⟩]⟩,
  ⟨0x150014, [], 0x4, false, [⟨7, 0, .rw, false, .range 4 255⟩]⟩,
  ⟨0x150018, [], 0x0, false, [⟨1, 0, .wo, false, .any⟩, ⟨8, 2, .wo, false, .any⟩, ⟨15, 15, .wo, false, .any⟩]⟩,
  ⟨0x150020, [(4, 4)], 0x12C1020, false, [⟨0, 0, .rw, false, .any⟩, ⟨7, 4, .rw, false, .range 1 15⟩, ⟨15, 8, .rw, false, .range 1 255⟩, ⟨31, 16, .rw, false, .any⟩]⟩,
  ⟨0x150040, [], 0x0, true, [⟨31, 0, .ro, false, .any⟩]⟩,
  ⟨0x150044, [], 0x0, true, [⟨31, 0, .ro, false, .any⟩]⟩,
  ⟨0x150048, [], 0x0, false, [⟨10, 0, .ro, false, .any⟩]⟩,
  ⟨0x150100, [(32, 4)], 0x18D4A8A, false, [⟨9, 0, .rw, false, .range 600 900⟩, ⟨19, 10, .rw, false, .range 600 900⟩, ⟨27, 20, .rw, false, .range 1 255⟩]⟩,
  ⟨0x150104, [(32, 4)], 0x352, false, [⟨9, 0, .ro, false, .any⟩]⟩,
  ⟨0x150108, [(32, 4)], 0x0, false, [⟨7, 0, .ro, false, .any⟩]⟩,
  ⟨0x15010C, [(32, 4)], 0x8, false, [⟨3, 0, .rw, false, .range 4 8⟩]⟩,
  ⟨0x150110, [(32, 4)], 0x4, false, [⟨3, 0, .ro, false, .any⟩]⟩,
  ⟨0x150114, [(32, 4)], 0x0, true, [⟨31, 0, .ro, false, .any⟩]⟩,
  ⟨0x150200, [], 0x25C64, false, [⟨7, 0, .rw, false, .any⟩, ⟨15, 8, .rw, false, .any⟩, ⟨19, 16, .rw, false, .range 0 8⟩]⟩,
  ⟨0x150204, [], 0x1F40044, false, [⟨3, 0, .rw, false, .range 1 8⟩, ⟨7, 4, .rw, false, .range 1 8⟩, ⟨31, 16, .rw, false, .any⟩]⟩,
  ⟨0x150400, [(4, 64)], 0x0, false, [⟨7, 0, .ro, false, .any⟩, ⟨15, 8, .ro, false, .any⟩]⟩,
  ⟨0x150500, [(4, 8)], 0x0, false, [⟨31, 0, .ro, false, .any⟩]⟩,
  ⟨0x150800, [(16, 64)], 0x0, false, [⟨31, 0, .ro, false, .any⟩]⟩,
  ⟨0x150804, [(16, 64)], 0x0, false, [⟨31, 0, .ro, false, .any⟩]⟩,
  ⟨0x150808, [(16, 64)], 0x0, true, [⟨31, 0, .ro, false, .any⟩]⟩]
def regsCal : List RegDef := regsCal0

def regsUpd0 : List RegDef := [
  ⟨0x160000, [], 0x1, false, [⟨0, 0, .rw, false, .any⟩]⟩,
  ⟨0x160004, [], 0x0, false, [⟨2, 0, .ro, false, .any⟩, ⟨3, 3, .ro, false, .any⟩, ⟨4, 4, .ro, false, .any⟩, ⟨6, 5, .ro, false, .any⟩, ⟨7, 7, .ro, false, .any⟩]⟩,
  ⟨0x160008, [], 0x0, false, [⟨0, 0, .w1c, false, .any⟩, ⟨1, 1, .w1c, false, .any⟩, ⟨2, 2, .w1c, false, .any⟩, ⟨3, 3, .w1c, false, .any⟩]⟩,
  ⟨0x16000C, [], 0x48, false, [⟨13, 0, .rw, false, .range 1 8760⟩]⟩,
  ⟨0x160010, [], 0x1E03003C, false, [⟨15, 0, .rw, false, .range 0 10080⟩, ⟨18, 16, .rw, false, .range 1 7⟩, ⟨31, 24, .rw, false, .range 5 255⟩]⟩,
  ⟨0x160014, [], 0x0, false, [⟨11, 0, .ro, false, .any⟩, ⟨27, 16, .ro, false, .any⟩]⟩,
  ⟨0x160018, [], 0x0, false, [⟨0, 0, .wo, false, .any⟩, ⟨1, 1, .wo, false, .any⟩, ⟨2, 2, .wo, false, .any⟩, ⟨31, 16, .wo, false, .any⟩]⟩,
  ⟨0x16001C, [], 0x0, false, [⟨3, 0, .ro, false, .any⟩, ⟨4, 4, .ro, false, .any⟩, ⟨31, 16, .ro, false, .any⟩]⟩,
  ⟨0x160020, [], 0x0, true, [⟨31, 0, .ro, false, .any⟩]⟩,
  ⟨0x160024, [], 0x0, false, [⟨7, 0, .ro, false, .any⟩]⟩,
  ⟨0x160028, [], 0x0, false, [⟨31, 0, .ro, false, .any⟩]⟩,
  ⟨0x16002C, [], 0x0, false, [⟨7, 0, .ro, false, .any⟩]⟩,
  ⟨0x160030, [(4, 12)], 0x0, false, [⟨31, 0, .ro, false, .any⟩]⟩,
  ⟨0x160060, [], 0x0, false, [⟨31, 0, .ro, false, .any⟩]⟩]
def regsUpd : List RegDef := regsUpd0

def regsMon0 : List RegDef := [
  ⟨0x170000, [], 0x0, false, [⟨0, 0, .w1c, false, .any⟩]⟩,
  ⟨0x171000, [(256, 64)], 0x0, false, [⟨0, 0, .rw, false, .any⟩, ⟨4, 1, .rw, false, .any⟩, ⟨9, 5, .rw, false, .any⟩, ⟨10, 10, .rw, false, .any⟩, ⟨14, 11, .rw, false, .any⟩]⟩,
  ⟨0x171004, [(256, 64)], 0x0, false, [⟨31, 0, .rw, false, .any⟩]⟩,
  ⟨0x171008, [(256, 64)], 0x0, false, [⟨31, 0, .rw, false, .any⟩]⟩,
  ⟨0x17100C, [(256, 64)], 0x7FFFFFFF, true, [⟨31, 0, .ro, false, .any⟩]⟩,
  ⟨0x171010, [(256, 64)], 0x80000000, true, [⟨31, 0, .ro, false, .any⟩]⟩,
  ⟨0x171014, [(256, 64)], 0x0, true, [⟨31, 0, .ro, false, .any⟩]⟩,
  ⟨0x171018, [(256, 64)], 0x0, true, [⟨0, 0, .ro, false, .any⟩, ⟨1, 1, .ro, false, .any⟩]⟩,
  ⟨0x171080, [(256, 64), (4, 32)], 0x0, true, [⟨31, 0, .ro, false, .any⟩]⟩]
def regsMon : List RegDef := regsMon0

def regsChk0 : List RegDef := [
  ⟨0x180000, [], 0x0, false, [⟨0, 0, .w1c, false, .any⟩, ⟨1, 1, .w1c, false, .any⟩]⟩,
  ⟨0x180100, [(64, 4)], 0x0, false, [⟨1, 0, .rw, false, .range 0 2⟩, ⟨2, 2, .rw, false, .any⟩, ⟨3, 3, .rw, false, .any⟩, ⟨4, 4, .rw, false, .any⟩]⟩,
  ⟨0x180104, [(64, 4)], 0x0, false, [⟨31, 0, .rw, false, .any⟩]⟩,
  ⟨0x180108, [(64, 4)], 0x0, false, [⟨5, 0, .rw, false, .any⟩]⟩,
  ⟨0x18010C, [(64, 4)], 0x0, false, [⟨31, 0, .rw, false, .range 1 4294967295⟩]⟩,
  ⟨0x180110, [(64, 4)], 0x0, false, [⟨31, 0, .rw, false, .any⟩]⟩,
  ⟨0x180114, [(64, 4)], 0x0, false, [⟨31, 0, .rw, false, .any⟩]⟩,
  ⟨0x180118, [(64, 4)], 0x0, false, [⟨31, 0, .rw, false, .any⟩]⟩,
  ⟨0x18011C, [(64, 4)], 0x0, false, [⟨0, 0, .wo, false, .any⟩, ⟨1, 1, .wo, false, .any⟩]⟩,
  ⟨0x180120, [(64, 4)], 0x0, false, [⟨2, 0, .ro, false, .any⟩]⟩,
  ⟨0x180124, [(64, 4)], 0x0, false, [⟨31, 0, .ro, false, .any⟩]⟩,
  ⟨0x180128, [(64, 4)], 0x0, false, [⟨31, 0, .ro, false, .any⟩]⟩,
  ⟨0x18012C, [(64, 4)], 0x0, false, [⟨31, 0, .ro, false, .any⟩]⟩,
  ⟨0x180130, [(64, 4)], 0x0, false, [⟨31, 0, .ro, false, .any⟩]⟩,
  ⟨0x180134, [(64, 4)], 0x0, true, [⟨31, 0, .ro, false, .any⟩]⟩]
def regsChk : List RegDef := regsChk0

def regsCfg0 : List RegDef := [
  ⟨0x190000, [], 0x0, false, [⟨3, 0, .ro, false, .any⟩, ⟨4, 4, .ro, false, .any⟩, ⟨5, 5, .ro, false, .any⟩]⟩,
  ⟨0x190004, [], 0x0, false, [⟨0, 0, .w1c, false, .any⟩, ⟨1, 1, .w1c, false, .any⟩, ⟨2, 2, .w1c, false, .any⟩, ⟨3, 3, .w1c, false, .any⟩]⟩,
  ⟨0x190008, [], 0x0, false, [⟨0, 0, .wo, false, .any⟩]⟩,
  ⟨0x19000C, [], 0x0, false, [⟨31, 0, .ro, false, .any⟩]⟩,
  ⟨0x190010, [], 0x0, false, [⟨31, 0, .ro, false, .any⟩]⟩,
  ⟨0x190014, [], 0x0, false, [⟨31, 0, .ro, false, .any⟩]⟩,
  ⟨0x190018, [], 0x0, false, [⟨31, 0, .ro, false, .any⟩]⟩,
  ⟨0x19001C, [], 0x0, false, [⟨31, 0, .ro, false, .any⟩]⟩,
  ⟨0x190020, [], 0x0, false, [⟨31, 0, .ro, false, .any⟩]⟩,
  ⟨0x190024, [], 0x0, false, [⟨31, 0, .ro, false, .any⟩]⟩,
  ⟨0x190028, [], 0x0, false, [⟨15, 0, .ro, false, .any⟩]⟩,
  ⟨0x19002C, [], 0x0, false, [⟨0, 0, .ro, false, .any⟩, ⟨1, 1, .ro, false, .any⟩]⟩,
  ⟨0x190030, [], 0x0, false, [⟨7, 0, .ro, false, .any⟩, ⟨8, 8, .ro, false, .any⟩]⟩]
def regsCfg : List RegDef := regsCfg0

/-- Does a row with these (stride, count) pairs, outermost first, occupy offset `o`?  Only at an index within its
stated range (R442). -/
def dimsHit : Nat → List (Nat × Nat) → Bool
  | o, [] => o == 0
  | o, (st, c) :: r => decide (o / st < c) && dimsHit (o % st) r

/-- Does the row occupy address `a`? -/
def RegDef.hits (d : RegDef) (a : Nat) : Bool := d.base ≤ a && dimsHit (a - d.base) d.dims

/-- The ID of the block an address lies in (R8, R442); ENC spans two 64 KiB ranges and HBM four. -/
def blockOf (a : Nat) : Nat :=
  let b := a / 0x10000
  if b = 9 then 8 else if 0x10 ≤ b ∧ b ≤ 0x13 then 0x10 else b

/-- The rows of the block with this ID. -/
def blockRegs (b : Nat) : List RegDef :=
  match b with
  | 0x00 => regsGlb | 0x01 => regsBin | 0x02 => regsMer | 0x03 => regsPtp | 0x04 => regsCkg | 0x05 => regsIng
  | 0x06 => regsDec | 0x07 => regsComp | 0x08 => regsEnc | 0x0A => regsDis | 0x0B => regsEgs | 0x0C => regsTwn
  | 0x0D => regsCnv | 0x0E => regsLne | 0x0F => regsEth | 0x10 => regsHbm | 0x14 => regsAud | 0x15 => regsCal
  | 0x16 => regsUpd | 0x17 => regsMon | 0x18 => regsChk | 0x19 => regsCfg
  | _ => []

/-- The row that occupies an address, if any (R6, R442). -/
def regDef (a : Nat) : Option RegDef := (blockRegs (blockOf a)).find? (·.hits a)

/-- The reset value of the register at an address; 0 where no register lies (R6). -/
def resetOf (a : Nat) : Word :=
  match regDef a with
  | some d => BitVec.ofNat 32 d.reset
  | none => 0

end Sys2Proof.Machine
end

