-- ==== Sys2Proof/Machine/State.lean ====
section
/-!
DEFINITION. Sys2Proof/Machine/State.lean: everything the spec gives the block, as plain data, and the block right after reset. Registers
are held by address in `regs` (an unlisted address holds its reset value); what no register holds is in a structure per
unit; `pending` is the queue of waiting commands.
-/

namespace Sys2Proof.Machine

/-- The states a function reports in GLB_RDY (R372). -/
inductive FnState where
  | off | starting | ready | draining | pendingRestart | fault
  deriving DecidableEq, Repr

/-- The 3-bit code of a function state (R372). -/
def FnState.code : FnState → Nat
  | .off => 0 | .starting => 1 | .ready => 2 | .draining => 3 | .pendingRestart => 4 | .fault => 5

/-- An event as raised: its 16-bit code (R8) and DETAIL, the instance that raised it (R418). -/
structure Ev where
  code : Nat
  detail : Nat
  deriving DecidableEq, Repr

/-- One entry of the event log (R418). -/
structure LogEntry where
  code : Nat := 0
  detail : Nat := 0
  seq : Nat := 0
  frame : Nat := 0
  line : Nat := 0
  frac : Nat := 0
  deriving DecidableEq, Repr

/-- The event log: the ring of 1,024 entries by SEQ mod 1,024, the SEQ of the next entry, the count of BIN_EVT_LOST (R418), the vectors due to fire (R422). -/
structure LogSt where
  ring : Tab LogEntry
  head : Nat
  lost : Nat
  vecs : List Nat
  deriving DecidableEq, Repr

/-- A staged register (R15): the value in force and the accepted writes still to take effect, each with its stamp. The
register itself reads back the last value written. -/
structure Held where
  inForce : Word := 0
  pend : List (Nat × Word) := []
  deriving DecidableEq, Repr

/-- A fault record as triggered, before it is written (R401). -/
structure FaultRec where
  cause : Nat
  block : Nat
  event : Nat
  fn : Nat
  detail : Nat
  uptime : Nat
  stcSec : Nat
  muted : Bool
  helm : Bool
  boots : Nat
  deriving DecidableEq, Repr

/-- Time. `hpos` counts units of 2^-48 line (16 visible and 32 hidden bits below the line, R32) and never runs back: each enable and disable of the
Meridian takes it on to a later frame start, so that every stamp keeps its place; the visible frame is its frame plus `frameOfs`, so that a step (R42) rebases every
scheduled position by changing `frameOfs` alone. `res` is the rounding residue of R32, `slew` the rate offset of R41 in
ppm, `holdAt` the virtual position at which the Meridian waits while a step is pending. `num`, `den`, `lm` are the
cadence in force (R33). `ns` is the local time since power-on, `stc` the STC in ns. `cls` is the last decision class
that acted at `clsAt` (R31). -/
structure Clock where
  ns : Nat
  stc : Nat
  run : Bool
  hpos : Nat
  res : Nat
  frameOfs : Int
  num : Nat
  den : Nat
  lm : Nat
  slew : Int
  holdAt : Option Nat
  clsAt : Nat
  cls : Nat
  deriving DecidableEq, Repr

/-- State of the Meridian that no register holds: the REF_IN lock run, the runs that confirm a failure (R44), the
failures waiting for a frame start (R46), the armed frame load (R38), the pending step (R41), how long a
higher-priority source has held lock (R39), the runs of peer mismatches (R48), the frame start at which a failure was last acted on (R46),
and per encode channel the position before which a step lets no channel frame start (R42). -/
structure MerSt where
  refRun : Nat
  refLast : Option Nat
  refLocked : Bool
  jumpRun : Nat
  rateRun : Nat
  returnRun : Nat
  measNs : Nat
  pendStop : Bool
  pendRate : Bool
  pendJump : Bool
  loadArmed : Bool
  firstLock : Bool
  lockSince : Tab Nat
  peerRun : Tab Nat
  actedV : Option Nat
  minStart : Tab Nat
  deriving DecidableEq, Repr

/-- A grandmaster data set as the BMCA compares it (R51). -/
structure GmData where
  pri1 : Nat := 255
  cls : Nat := 255
  acc : Nat := 255
  var : Nat := 65535
  pri2 : Nat := 255
  ident : Nat := 0
  steps : Nat := 0
  deriving DecidableEq, Repr

/-- A master that a PTP domain hears Announce messages from (R51): the port that sends them, its data set, the interval and the time of the latest. -/
structure Master where
  source : Nat
  data : GmData
  annLog : Int
  annAt : Nat
  deriving DecidableEq, Repr

/-- State of one PTP domain that no register holds (R51-R61): `masters` are those it hears, `parent` the one selected; `reqAt` and `pdAt` say when the
next Delay_Req and Pdelay_Req are due (ns), `syncMac` is the source MAC of the latest Sync (R283). -/
structure DomSt where
  ofs : Int := 0
  lastOfs : Option Int := none
  integ : Int := 0
  mpd : Int := 0
  mpdSeen : Bool := false
  firstLock : Bool := false
  lockRun : Nat := 0
  jumpRun : List Int := []
  gm : Option GmData := none
  syncT1 : Int := 0
  syncT2 : Int := 0
  syncCf : Int := 0
  syncSeen : Bool := false
  lastUsed : Option Nat := none
  t3 : Option Nat := none
  t1p : Option Nat := none
  reqLog : Int := 0
  refusedOfs : Option Int := none
  agree : Bool := false
  annLog : Int := 0
  annAt : Option Nat := none
  syncLog : Int := 0
  masters : List Master := []
  parent : Option Nat := none
  reqAt : Option Nat := none
  pdAt : Option Nat := none
  syncMac : Nat := 0
  deriving DecidableEq, Repr

/-- A TOUT output: the parameters sampled at arming (R62), the exact time of the next pulse, the end of a pulse in
progress, the count of pulses fired since arming. -/
structure ToutSt where
  periodic : Bool := false
  stcBase : Bool := false
  start : Nat := 0
  period : Nat := 0
  width : Nat := 0
  offset : Int := 0
  activeLow : Bool := false
  armed : Bool := false
  pulseEnd : Option Nat := none
  level : Bool := false
  deriving DecidableEq, Repr

/-- One capture of a TIN input (R65). -/
structure TinCap where
  stc : Nat
  frame : Nat
  pos : Nat
  rising : Bool
  deriving DecidableEq, Repr

/-- A TIN input: its 16-entry FIFO, the time of the last captured edge, the words 1 to 5 latched by the last pop. -/
structure TinSt where
  fifo : List TinCap := []
  last : Option Nat := none
  latched : List Nat := []
  deriving DecidableEq, Repr

/-- PTP state that no register holds. `f` is the servo's frequency in 1/256 ppb, toward which the DCO moves from `f0`, where it stood at local time
`fAt` (R56). -/
structure PtpSt where
  doms : Tab DomSt
  f : Int
  f0 : Int
  fAt : Nat
  steer : Nat
  touts : Tab ToutSt
  tins : Tab TinSt
  deriving DecidableEq, Repr

/-- CKG state that no register holds: when each core PLL began its relock (ns), and the outputs waiting to realign at the given STC second
(R80). -/
structure CkgSt where
  relockAt : Tab Nat
  realign : Tab (Option Nat)
  deriving DecidableEq, Repr

/-- State of the Binnacle island that no register holds: the fault record queue (R395), the BIN_FAULT bits that hold SVC_ALERT_N low (R406), the
hottest sensor of the last sample as DETAIL shows it (R401), the samples in a row at or above SHUT, the causes of the shutdown in force, since when the recovery conditions have held (ns), since when VIN
has been below 4.5 V (ns), when the watchdog expires (ns), the key slot being programmed with its digest and end (R405), whether the
island itself has no supply. -/
structure IslandSt where
  queue : List FaultRec
  alert : Nat
  hot : Nat
  hotRun : Nat
  shutThermal : Bool
  shutPower : Bool
  shutCmd : Bool
  coolSince : Option Nat
  vinSince : Option Nat
  vinLow : Option Nat
  wdogAt : Option Nat
  keyAt : Option (Nat × List Nat × Nat)
  dead : Bool
  deriving DecidableEq, Repr

/-- One line of an input picture: the pixels received, whether its window has closed, whether it was substituted, the stamp of the packet that last
added pixels. -/
structure LineSt where
  px : Tab (Option Px) := []
  closed : Bool := false
  sub : Bool := false
  at_ : Nat := 0
  deriving DecidableEq, Repr

/-- Where the samples of a decoded picture come from (R100, R101): the names of decoded pictures, each with the ranges of CTU addresses it does not
give, in the order in which they are asked; the CTU size and the CTUs of a row. -/
structure DecSrc where
  srcs : List (Nat × List (Nat × Nat)) := []
  ctu : Nat := 64
  cols : Nat := 1
  deriving DecidableEq, Repr

/-- What the pixels of a picture are where no line of its own holds them: nothing, flat colour, or a decoded picture. -/
inductive PicBase where
  | absent
  | flat (p : Px)
  | decoded (src : DecSrc)
  deriving DecidableEq, Repr

/-- An input picture: its lines, its base, and the flags of R95; the ancillary packets stored with it (R91). -/
structure Pic where
  lines : Tab LineSt := []
  base : PicBase := .absent
  subst : Bool := false
  full : Bool := false
  conc : Bool := false
  anc : List (List Nat) := []
  deriving DecidableEq, Repr

/-- A video input (R89-R95): waiting for its first frame start, the frame in progress (start position, index, next line to
close, missing lines so far), the picture of this frame and those of later frames by index, the stored picture, the position of the last change of
RUN, the staged registers (origin, control, flat colour) in force for the frame in progress and whether they have been taken (R15), the position
at which the timing channel entered OFF during the frame in progress (R90), and the stamp of the enable. -/
structure InputSt where
  waiting : Bool := false
  startV : Nat := 0
  idx : Nat := 0
  nextLine : Nat := 0
  missing : Nat := 0
  cur : Pic := {}
  nxt : Tab Pic := []
  prev : Option Pic := none
  jitMin : Option Int := none
  runV : Nat := 0
  org : Nat := 0
  ctl : Nat := 0
  flat0 : Nat := 0
  flat1 : Nat := 0
  latched : Bool := false
  stopV : Option Nat := none
  enV : Option Nat := none
  deriving DecidableEq, Repr

/-- The policer and counters' partner of one ingest flow (R86, R87): tokens in millibits, last arrival, the frame of its
last drop event. -/
structure FlowSt where
  tok : Nat := 0
  tLast : Nat := 0
  dropFrame : Option Nat := none
  deriving DecidableEq, Repr

/-- The merge of one target (R88): the highest number seen, the numbers seen in the window below it, the Meridian frame in
which each leg last admitted a packet and the one in which it did before, the numbers that leg B gave at the stamp `bAt`, each with its flow. -/
structure MergeSt where
  seen : Bool := false
  hi : Int := 0
  nums : List Int := []
  legA : Option Nat := none
  legB : Option Nat := none
  legA1 : Option Nat := none
  legB1 : Option Nat := none
  bAt : Nat := 0
  bNums : List (Int × Nat) := []
  deriving DecidableEq, Repr

/-- A waiting access unit of a decode context: its media timestamp, the bytes of its packets in the order of their sequence numbers, whether its end
has been received (R98). -/
structure AuSt where
  ts : Nat := 0
  pkts : List (Int × List Nat) := []
  complete : Bool := false
  deriving DecidableEq, Repr

/-- A decoded picture of a context (R99-R102): its order count within the pictures since the `ep`-th IDR, the frame it serves from, when its decode
ended, its name, its samples, its format. -/
structure DecPic where
  poc : Int
  ep : Nat
  frame : Nat
  doneV : Nat
  doneNs : Nat
  tag : Nat
  src : DecSrc
  width : Nat
  height : Nat
  chroma422 : Bool
  depth10 : Bool
  concealed : Bool
  deriving DecidableEq, Repr

/-- A decode stream context: units received, the unit being decoded, decoded pictures, the count of IDRs, the highest sequence number of the units
taken, the POC at which concealment ends; `entry` while pictures before the
recovery point of the entry are concealed (R100). -/
structure DecSt where
  units : List AuSt := []
  running : Option AuSt := none
  pics : List DecPic := []
  ep : Nat := 0
  taken : Option Int := none
  concealUntil : Option Int := none
  concealing : Bool := false
  entry : Bool := false
  deriving DecidableEq, Repr

/-- ING and DEC state that no register holds. `ft` is the ingest flow table: word w of entry f is at key 16 × f + w. -/
structure IngSt where
  ft : Tab Nat
  ftSnap0 : Tab Nat
  ftSnap1 : Tab Nat
  flows : Tab FlowSt
  merges : Tab MergeSt
  inputs : Tab InputSt
  dec : Tab DecSt
  deriving DecidableEq, Repr

/-- A throttle of R309: requester, pseudo-channel, bank, the time of its last offence (ns), the level of its bucket (tokens × HCLK) at
cycle `at_`. -/
structure Throttle where
  id : Nat
  pc : Nat
  bank : Nat
  since : Nat
  level0 : Nat := 0
  at_ : Nat := 0
  deriving DecidableEq, Repr

/-- The page-policy hints of R303. -/
inductive PageHint where
  | opened
  | close
  | auto
  deriving DecidableEq, Repr

/-- A request that waits at a pseudo-channel: its requester, its offset in the stack, whether it writes, the HCLK cycle of its arrival
(R303, R304). -/
structure HbmReq where
  id : Nat
  ofs : Nat
  write : Bool
  arr : Nat
  deriving DecidableEq, Repr

/-- One bank of a pseudo-channel: its open row with the hint and the cycle of the last access, the hits served while an older request
waits (R304, R306), postponed refreshes and whether the window's last is among them (R307), the activations of each row, and those of
each requester, since the window boundary or the last RFM (R308). -/
structure BankSt where
  row : Option Nat := none
  hint : PageHint := .opened
  lastHit : Nat := 0
  hits : Nat := 0
  post : Nat := 0
  postLast : Bool := false
  rows : Tab Nat := []
  tally : Tab Nat := []
  deriving DecidableEq, Repr

/-- One pseudo-channel: the requests that wait (in order of arrival), its banks, the next cycle free for a column command, the cycle of the
last promoted request of class 3 (R304, R305). -/
structure PcSt where
  queue : List HbmReq := []
  banks : Tab BankSt := []
  next : Nat := 0
  promAt : Option Nat := none
  deriving DecidableEq, Repr

/-- One HBM stack: failed trainings on end, throttles (oldest first), its pseudo-channels, the times of the recent parity errors by
pseudo-channel (ns), the frame of the last correction event by pseudo-channel, the next granule to scrub and when it is due (ns),
the position at which the stack last became READY or left it. -/
structure StackSt where
  fails : Nat := 0
  throttles : List Throttle := []
  pcs : Tab PcSt := []
  parity : Tab (List Nat) := []
  ceFrame : Tab (Option Nat) := []
  scrub : Nat := 0
  scrubAt : Nat := 0
  readyV : Nat := 0
  deriving DecidableEq, Repr

/-- The HBM: its bytes by 38-bit address, its stacks, and each object's demand on its stack's pool in MiB with the stack
(R302). -/
structure HbmSt where
  mem : Tab Byte
  stks : Tab StackSt
  demand : Tab (Nat × Nat)
  deriving DecidableEq, Repr

/-- The values of one composition set: a layer's registers, or the channel set's (R109); `k0` is the first channel frame it
governs (R119), `used` says that it has governed a picture. -/
structure SetVal where
  ctl : Nat := 0
  srcXY : Nat := 0
  srcWH : Nat := 0
  dstXY : Nat := 0
  alpha : Nat := 0xFFFF
  addr : Nat := 0
  pitch : Nat := 0
  zorder : Nat := 0x001AC688
  bg0 : Nat := 0
  bg1 : Nat := 0
  mesh : Nat := 0
  k0 : Option Nat := none
  used : Bool := false
  deriving DecidableEq, Repr

/-- A committed set that waits for a flip (R109): its values, its fence and target, its stamp, its commit
number since the channel's enable (R245). -/
structure PendSet where
  val : SetVal
  fence : Option (Nat × Nat)
  stamp : Nat
  num : Nat := 0
  deriving DecidableEq, Repr

/-- A composed output row: the lines of each component, at the coded format and depth (R126, R127). -/
structure RowPix where
  y : List (List Nat) := []
  cb : List (List Nat) := []
  cr : List (List Nat) := []
  deriving DecidableEq, Repr

/-- The outcome of one flip evaluation (R111, R112): its position, the sets that flipped and those held (bit j: set j), the commit number of
each set that flipped, whether the channel set's mesh check was running, and whether an outcome has been applied. -/
structure FlipEval where
  v : Nat := 0
  flips : Nat := 0
  held : Nat := 0
  nums : List Nat := []
  chk : Bool := false
  done : Bool := false
  deriving DecidableEq, Repr

/-- A composition function: for each set (layers 0–7, 8 the channel set) the values in force with the position from which
each governs, oldest first; pending sets; the picture under composition (start, index, next row), its rows with the start they belong to and those
of the picture before with theirs, the layers without a source; the outcomes of the last two evaluations, the later one first; the commits since the enable;
the mesh check's end; the draining bound; when the last picture's composition completes; the origin in force for the picture under
composition (R36). -/
structure CompCh where
  hist : Tab (List (Nat × SetVal)) := []
  pend : Tab (Option PendSet) := []
  started : Bool := false
  startV : Nat := 0
  idx : Nat := 0
  row : Nat := 0
  rows : Tab RowPix := []
  rowsV : Nat := 0
  prevRows : Tab RowPix := []
  prevV : Nat := 0
  noSrc : Nat := 0
  evals : List FlipEval := []
  commits : Nat := 0
  checkEnd : Option Nat := none
  stopV : Option Nat := none
  endV : Option Nat := none
  org : Nat := 0
  deriving DecidableEq, Repr

/-- COMP state that no register holds. `fencePrev` gives, for each fence, the stamp of its last write and its value before
every write of that stamp (R29, R110). -/
structure CompSt where
  chs : Tab CompCh
  fencePrev : Tab (Option (Nat × Nat))
  deriving DecidableEq, Repr

/-- Where a job stands (R191–R204). -/
inductive JobState where
  | ready | named | running | done | failed | standIn | released | dropped
  deriving DecidableEq, Repr

/-- A job: one slice of one CTU row (R134), its Logbook index, its positions (R191), where it ran and what it gave;
`moved`: named away from its affinity pipe (R194); `src`: the composed row that its record names; `doneV`: the timestamp of its completion (R30); `helm`, `helmV`: the Helm's size and count of floor-mode
CTUs with the timestamp of their arrival (R244). -/
structure Job where
  idx : Nat := 0
  ch : Nat := 0
  k : Nat := 0
  col : Nat := 0
  row : Nat := 0
  rho : Nat := 0
  slice : Nat := 0
  budget : Nat := 0
  floor : Nat := 0
  nI : Nat := 0
  dPos : Nat := 0
  latest : Nat := 0
  deadline : Nat := 0
  ps : Nat := 0
  rel : Nat := 0
  st : JobState := .ready
  pipe : Option Nat := none
  ran : List Nat := []
  moved : Bool := false
  replays : Nat := 0
  isReplay : Bool := false
  fault : Nat := 0
  missed : Bool := false
  out : Option SliceOut := none
  helm : Option (Nat × Nat) := none
  helmV : Nat := 0
  record : List Nat := []
  src : RowPix := {}
  doneV : Nat := 0
  deriving DecidableEq, Repr

/-- A CTU row of a picture: its number since the enable, its position A_r, its release position, its floor and budget, its
jobs by Logbook index, and how far it has come. `charged`: its budget counts for good (R181). -/
structure RowSt where
  rho : Nat := 0
  r : Nat := 0
  a : Nat := 0
  rel : Nat := 0
  fl : Nat := 0
  bud : Nat := 0
  budgeted : Bool := false
  released : Bool := false
  freed : Bool := false
  charged : Bool := false
  counted : Bool := false
  psDone : Bool := false
  jobs : List Nat := []
  deriving DecidableEq, Repr

/-- A picture of an encode channel: index, start, phase and period in force, the words in force (R208), its references, its POC (R138), its buffer
and those of its list (R164), its ALF APS, the actual bits loaded for its rows before a row number (R247), its prefix units, its target (R178) with the floor-mode CTUs counted for it (R186), its rows. -/
structure PicSt where
  k : Nat := 0
  startV : Nat := 0
  phase : Nat := 0
  per : Nat := 32
  kg : Nat := 0
  seqStart : Bool := false
  edgeFrom : Option Nat := none
  words : List Nat := []
  e : Nat := 1
  diffs : List Nat := []
  refPhases : List (Option Nat) := []
  poc : Nat := 0
  buf : Nat := 0
  refBufs : List Nat := []
  aps : List Nat := []
  spent : Option (Nat × Nat) := none
  recov : Nat := 0
  prefixUnits : List Nal := []
  suffixUnits : List Nal := []
  last : Bool := false
  canvas : Bool := false
  q : Nat := 0
  d : Nat := 0
  bF : Nat := 0
  hd : Nat := 0
  t0 : Nat := 0
  eK : Nat := 0
  rec_ : Nat := 1
  cnt : Nat := 0
  target : Nat := 0
  rows : List RowSt := []
  dipDone : Bool := false
  deriving DecidableEq, Repr

/-- A picture that later ones refer to (R140): its index, the index of its period's phase-0 picture, its buffer; `gray`: the picture that does not
exist, whose every sample is 1 << (depth − 1) (R167). -/
structure RefEnt where
  k : Nat
  p0 : Nat
  buf : Nat
  gray : Bool := false
  deriving DecidableEq, Repr

/-- A buffer of the reference region in use, and the release position of the last slice of its picture (R166). -/
structure BufEnt where
  buf : Nat
  rel : Nat
  gray : Bool := false
  deriving DecidableEq, Repr

/-- An encode channel: the stamps of the pending restarts (R141), k, k_g, k_I, the pictures since the sequence start and the
last five references, the buffers in use, the later first, the region in use (R165), the period in force, the stop (R149), the row count (R200), the rate control's q, D and bucket
checkpoint (R178, R182), the pictures in flight; `owed`: the disable fell on a frame start whose picture is still
to come (R149). -/
structure EncCh where
  restart : List Nat := []
  started : Bool := false
  k : Nat := 0
  kg : Nat := 0
  kI : Nat := 0
  i : Nat := 0
  ks : List RefEnt := []
  held : List BufEnt := []
  region : Option Nat := none
  per : Nat := 32
  stopV : Option Nat := none
  seqDue : Bool := false
  owed : Bool := false
  rho : Nat := 0
  q : Nat := 0
  d : Nat := 0
  vChk : Nat := 0
  chkRho : Nat := 0
  chkValid : Bool := false
  psWords : List Nat := []
  sinceBp : Nat := 0
  pics : List PicSt := []
  cut : Bool := false
  member : Bool := false
  nextT : Option Nat := none
  deriving DecidableEq, Repr

/-- A rectangle of luma samples, from x0 and y0 up to but without x1 and y1. -/
structure Box where
  x0 : Nat := 0
  x1 : Nat := 0
  y0 : Nat := 0
  y1 : Nat := 0
  deriving DecidableEq, Repr

/-- An encode pipe: its running and next jobs by Logbook index, its last job (channel, k, row, column), since when the
running job is coded and whether it started warm, the frames of its charged faults (R199), the window samples below
1,024 (R170), until when its window is being filled; what its window store and its staging store hold (R159, R194) and since when the
next job's window is being loaded. -/
structure PipeSt where
  running : Option Nat := none
  next : Option Nat := none
  last : Option (Nat × Nat × Nat × Nat) := none
  startV : Nat := 0
  warm : Bool := false
  faults : List Nat := []
  smpRem : Nat := 0
  fillNs : Nat := 0
  startNs : Nat := 0
  store : Option Box := none
  stage : Option Box := none
  namedNs : Nat := 0
  deriving DecidableEq, Repr

/-- A Track buffer record (R211). -/
structure TrkRec where
  line : Nat := 0
  frac : Nat := 0
  frame : Nat := 0
  kind : Nat := 0
  pipe : Nat := 0
  warm : Bool := false
  ch : Nat := 0
  lb : Nat := 0
  col : Nat := 0
  row : Nat := 0
  detail : Nat := 0
  tseq : Nat := 0
  deriving DecidableEq, Repr

/-- DIS state that no register holds: the jobs by Logbook index, the pipes, the spare, the lag in force and the lag from a
later frame start (R196), the Track buffer with the record count, the records still to store after a trigger, the frame of
the last missed start by channel, the pipe start test; `lastPipe`: the pipe named for each row of a band (R194), by 128 × (32 × channel + column) +
row number mod 128; `keepAddr`: the region that a warm reset kept, until the next enable (R210). -/
structure DisSt where
  jobs : Tab (Option Job)
  pipes : Tab PipeSt
  spare : Option Nat
  lagNow : Nat
  lagNext : Nat
  lagFrom : Nat
  lastPipe : Tab (Option Nat)
  track : Tab TrkRec
  tseq : Nat
  post : Option Nat
  missFrame : Tab (Option Nat)
  testing : Bool
  tested : Bool
  headerDue : Bool
  keepAddr : Option Nat
  coolSaid : List Nat
  deriving DecidableEq, Repr

/-- What an MPEG-2 TS packet of a TYPE 2 flow carries (R222): PAT, PMT, or a piece of the PES, with its PTS where a PES packet
starts and its PCR (base, extension) where a slice starts. -/
inductive TsBody where
  | pat (program pmtPid : Nat)
  | pmt (program vidPid streamType : Nat)
  | pes (pts : Option Nat) (pcr : Option (Nat × Nat)) (data : List Nat)
  deriving DecidableEq, Repr

/-- A TS packet: PID, continuity counter, payload_unit_start, bytes of adaptation-field stuffing, content. -/
structure TsPkt where
  pid : Nat
  cc : Nat
  start : Bool
  stuff : Nat
  body : TsBody
  deriving DecidableEq, Repr

/-- The payload of an egress RTP packet (R220, R222, R231, R337): a whole NAL unit, a fragment of one (first, last), each with
its DONL where it has one; TS packets; samples of one picture line with its SRD offset; audio, channel by channel
for each position. -/
inductive Payload where
  | nal (donl : Option Nat) (data : List Nat)
  | fu (donl : Option Nat) (first last : Bool) (data : List Nat)
  | ts (pkts : List TsPkt)
  | row (line ofs : Nat) (samples : List Nat)
  | audio (l24 : Bool) (samples : List (List Nat))
  deriving DecidableEq, Repr

/-- The Ethernet, IP and UDP headers of an egress packet (R217, R219, R283): MAC addresses, 802.1Q tag (VLAN ID, PCP), IP version and addresses, DSCP, TTL
or hop limit, UDP ports, identification, DF, and whether it carries a UDP checksum. -/
structure NetHdr where
  dmac : List Nat
  smac : List Nat
  tag : Option (Nat × Nat)
  v6 : Bool
  src : List Nat
  dst : List Nat
  dscp : Nat
  ttl : Nat
  sport : Nat
  dport : Nat
  ident : Nat
  df : Bool
  sum : Bool
  deriving DecidableEq, Repr

/-- An egress packet after the UDP header, the same on both legs (R219): flow, extended sequence number, timestamp, marker,
payload type, SSRC, bytes of RTP payload, payload. -/
structure Packet where
  flow : Nat
  seq : Nat
  ts : Nat
  marker : Bool
  pt : Nat
  ssrc : Nat
  size : Nat
  body : Payload
  deriving DecidableEq, Repr

/-- A queued packet of a leg: charged length without OVH, enqueue time (STC ns and position); for a first
packet that probe 3 measures, its channel and A_r (R430). -/
structure QEnt where
  len : Nat
  enq : Nat
  enqV : Nat
  pkt : Packet
  lat : Option (Nat × Nat) := none
  deriving DecidableEq, Repr

/-- A flow leg (R226, R227): its queue; the entries that departed at position `goneV`; tokens in millibits and when
they were last brought up to date; the finish tag of its head packet and of the packet before; the peak rate at which its tokens count. -/
structure LegSt where
  queue : List QEnt := []
  gone : List QEnt := []
  goneV : Nat := 0
  tok : Nat := 0
  tLast : Nat := 0
  fin : Nat := 0
  finPrev : Nat := 0
  pir : Nat := 0
  deriving DecidableEq, Repr

/-- An egress flow (R218–R222): EN in force; the spans of picture starts for which it was on, newest first; waiting for
parameter sets; the start of the first picture it carries; EN writes not yet in force with their stamps; whether its
numbers restart at the next enable; DON bases of the next, this and the last picture; TS continuity counters; the
frame of its last discard event; the next paced packet (picture start, k, j); the picture whose first slice it has
sent. -/
structure EFlow where
  on : Bool := false
  runs : List (Nat × Option Nat) := []
  waiting : Bool := false
  firstV : Nat := 0
  pend : List (Nat × Bool) := []
  fresh : Bool := true
  don : Nat := 0
  curB : Nat := 0
  prevB : Nat := 0
  prevSuf : Nat := 0
  ccPat : Nat := 0
  ccPmt : Nat := 0
  ccVid : Nat := 0
  dropFrame : Option Nat := none
  paced : Option (Nat × Nat × Nat) := none
  curV : Option Nat := none
  deriving DecidableEq, Repr

/-- A paced packet due at a port (R225): departure position, flow, leg, the packet. -/
structure PacedEnt where
  due : Nat
  leg : Nat
  pkt : Packet
  len : Nat
  deriving DecidableEq, Repr

/-- A joined multicast group (R286): VLAN, address, sources (none: EXCLUDE with no sources). -/
structure Group where
  vlan : Nat
  ipv6 : Bool
  addr : Nat
  sources : Option (List Nat)
  deriving DecidableEq, Repr

/-- A responder frame of an Ethernet port (R285, R286): its VLAN and whom it answers, or the groups it reports. -/
inductive Resp where
  | arpReply (vlan dst : Nat)
  | neighbourAdvert (vlan dst target : Nat)
  | echoReply (vlan dst len : Nat)
  | membershipReport (vlan : Nat) (ipv6 old : Bool) (groups : List Group)
  deriving DecidableEq, Repr

/-- An egress port (R225, R226, R285): virtual time, the ns until which a frame is in transmission, paced packets that are due,
responder frames that wait with their lengths. -/
structure EPort where
  v : Nat := 0
  busy : Nat := 0
  due : List PacedEnt := []
  resp : List (Nat × Resp) := []
  deriving DecidableEq, Repr

/-- EGS state that no register holds. `ft`: word w of entry f is at key 32 × f + w; legs at 2 × f + leg. -/
structure EgsSt where
  ft : Tab Nat
  flows : Tab EFlow
  legs : Tab LegSt
  ports : Tab EPort
  deriving DecidableEq, Repr

/-- One slice with the units that leave with it (R220, R146): units before it (each with whether it is the end-of-sequence
unit of R139), its own bytes, its subpicture's hash, and the units that follow the picture's last slice. -/
structure SliceUnits where
  ch : Nat := 0
  k : Nat := 0
  startV : Nat := 0
  rel : Nat := 0
  row : Nat := 0
  col : Nat := 0
  slice : Nat := 0
  first : Bool := false
  last : Bool := false
  ps : Bool := false
  eos139 : Option (List Nat) := none
  pre : List (List Nat) := []
  data : List Nat := []
  hash : Option (List Nat) := none
  suf : List (List Nat) := []
  bits : Nat := 0
  floorCtu : Nat := 0
  standIn : Bool := false
  deriving DecidableEq, Repr

/-- How a held slice stands (R243): waiting for its entry, late, matched, discarded, or kept for a claim. -/
inductive HoldState where
  | wait | late | ok | drop | claim
  deriving DecidableEq, Repr

/-- A slice in the hold of a Lookout (R243): its units, the packets already numbered for its flows, its release time in
ns, how it stands. -/
structure HeldSlice where
  u : SliceUnits
  pkts : List (Nat × List Packet)
  ns : Nat
  st : HoldState
  deriving DecidableEq, Repr

/-- A module's own digest of a released slice (R241), kept for 72 µs: when it was released, whether an entry has matched it. -/
structure OwnDigest where
  k : Nat
  slice : Nat
  digest : Nat
  standIn : Bool
  ns : Nat
  last : Bool
  done : Bool := false
  deriving DecidableEq, Repr

/-- A picture of a QUIET channel under comparison (R254): k, slices matched, whether anything failed. -/
structure MatchPic where
  k : Nat
  n : Nat
  bad : Bool
  deriving DecidableEq, Repr

/-- A twinned channel: its hold, the entries that came before their slices with their arrival in ns, its own recent
digests, pictures under comparison, whether it turns LOOKOUT at its next frame start, the latest picture in flight at a record mismatch. -/
structure TwinCh where
  hold : List HeldSlice := []
  early : List (Nat × TwinEntry) := []
  own : List OwnDigest := []
  pics : List MatchPic := []
  resync : Bool := false
  badK : Option Nat := none
  deriving DecidableEq, Repr

/-- What the partner's last role word said (R242). -/
structure TwinPeer where
  role : Nat
  sync : Bool
  first : Bool
  tag : Nat
  deriving DecidableEq, Repr

/-- TWN state that no register holds: the end of START_WAIT (position), the claim in progress (ns, position) and whether it is a
takeover (R251), the times of the last Twin flit sent and received, the partner's role word, the channels, the Cycle records
built and sent, its own record of the last cut with the cut's position, whether the adoption after it is done, the records received with
their frames and timestamps, and the frame for which own decided values were used for want of a record, with the own record of it (R249). -/
structure TwnSt where
  waitV : Option Nat
  claim : Option (Nat × Nat)
  takeover : Bool
  lastTx : Nat
  lastRx : Nat
  lost : Bool
  peer : Option TwinPeer
  chs : Tab TwinCh
  recSeq : Nat
  own : Option (Nat × List Nat)
  adopted : Bool
  rx : List (Nat × Nat × List Nat)
  late : Option (Nat × List Nat)
  deriving DecidableEq, Repr

/-- The levels at the module's pads that it samples: the MID straps, TWIN_FIRST, RST_N, HELM_IN after its filter (R240, R453), VIN and
VSTBY present, the level at the tests' inputs. -/
structure PinSt where
  mid : Nat
  twinFirst : Bool
  rstN : Bool
  helmIn : Bool
  deriving DecidableEq, Repr

/-- A serial lane in bring-up (R288, R289): when it entered its stage, good markers and clean PRBS bits in stage 3, the
index its markers carry, the last state byte received (1 TRAINING, 2 LANES_OK, 3 SWITCH). -/
structure LaneSt where
  at_ : Nat := 0
  good : Nat := 0
  bits : Nat := 0
  idx : Nat := 0
  said : Nat := 0
  deriving DecidableEq, Repr

/-- A port in bring-up: when it entered its state, whether it has sent LANES_OK and SWITCH, the frame of its last
uncorrectable-codeword event. -/
structure LPortSt where
  at_ : Nat := 0
  ok : Bool := false
  switch : Bool := false
  uncFrame : Option Nat := none
  deriving DecidableEq, Repr

/-- LNE state that no register holds; Ethernet ports 0–7, Staord ports at 8 + p. -/
structure LneSt where
  lanes : Tab LaneSt
  ports : Tab LPortSt
  deriving DecidableEq, Repr

/-- A Staord link above READY (R272–R274): the next sequence number to send, the unacknowledged flits, what waits for room in
the replay buffer (type, payload), the expected number, whether a flit has been accepted, when the last NAK went out and
ACK last advanced (ns), replays without progress, the partner's MID, the last time flit received (T_SEND, STC ns). -/
structure LinkSt where
  tx : Nat := 0
  buf : List Flit := []
  wait : List (Nat × List Nat) := []
  rx : Nat := 0
  rxAny : Bool := false
  nakAt : Option Nat := none
  lastAdv : Nat := 0
  retries : Nat := 0
  peerMid : Option Nat := none
  lastTime : Option (Nat × Nat) := none
  deriving DecidableEq, Repr

/-- An Ethernet port's responders: groups joined, state-change reports still to send with the time of the next (ns), the groups a
query asks about with the time its response is due (ns), the end of the time of an older-version IPv4 (IGMP) and IPv6 (MLD)
querier (ns), echo answers in the second that began at `echoNs`, the frame of the last echo-limit event. -/
structure EthSt where
  groups : List Group := []
  reports : Nat := 0
  reportAt : Nat := 0
  resps : List (Nat × List Group) := []
  old4 : Option Nat := none
  old6 : Option Nat := none
  echoNs : Nat := 0
  echoCnt : Nat := 0
  echoFrame : Option Nat := none
  deriving DecidableEq, Repr

/-- A relay message under reassembly (R275): originator, message number, next fragment, data so far, time of the last fragment. -/
structure Assembler where
  orig : Nat
  msg : Nat
  next : Nat
  data : List Nat
  at_ : Nat
  deriving DecidableEq, Repr

/-- CNV state that no register holds: whether this round's report has been built, the reports and mask records held, the own
mask, whether the row and mask bundles have gone, the allocations applied to picture k, PREV of each member's last report in O, the own
allocation applied to picture k, the relay assemblers and the broadcasts already delivered (originator, message, fragment). -/
structure CnvSt where
  open_ : Bool
  k1 : Nat
  reps : List CnvReport
  mask : Option Nat
  masks : List CnvMask
  rowSent : Bool
  maskSent : Bool
  applied : List Nat
  prevs : Tab Nat
  own : Option Nat
  asms : List Assembler
  seen : List (Nat × Nat × Nat)
  deriving DecidableEq, Repr

/-- A sample in the source store (R326, R329): its 24 bits, its validity bit, the media time (ns) at which it was written. -/
structure AudSmp where
  val : Nat
  v : Bool
  at_ : Nat
  deriving DecidableEq, Repr

/-- A block of an AES3 input: its first position, the channel status of both subframes, when its byte 0 was known (media ns). -/
structure AesBlk where
  pos : Nat
  csA : List Nat
  csB : List Nat
  at_ : Nat
  deriving DecidableEq, Repr

/-- An audio input (AES3 input i at i, TDM port t at 8 + t): consecutive good blocks or frames toward lock, the position that
follows the last placed block, the last sample of each channel, recent AES3 blocks. -/
structure AinSt where
  good : Nat := 0
  next : Option Nat := none
  prev : List Nat := []
  blocks : List AesBlk := []
  deriving DecidableEq, Repr

/-- A decided output block (R331): output frames [x0, x1), its effective delay, its sources, channel status settings; the TX masks
in force, latest first, each with the frame from which it is (R335). -/
structure AudBlk where
  x0 : Nat
  x1 : Nat
  d : Int
  srcs : List Nat
  cs : List Nat
  csSrc : Bool
  crcGen : Bool
  masks : List (Nat × Nat)
  deriving DecidableEq, Repr

/-- An audio output, numbered as R338 (AES3 0–7, TDM 8–11, transmit streams 16–79). Output frame x is presented at T(x) and
carries position x − d. `next` is the first position of the next block; `zeros` are spans of frames sent as 0 (R335); `shift` an
adopted offset (R338) with the one to come. -/
structure AoutSt where
  st : FnState := .off
  firstX : Nat := 0
  next : Nat := 0
  d : Int := 0
  blks : List AudBlk := []
  zeros : List (Nat × Nat) := []
  stopX : Option Nat := none
  muted : Bool := false
  muteX : Option Nat := none
  clean : Nat := 0
  underFrame : Option Nat := none
  shift : Int := 0
  shiftNext : Option Int := none
  deriving DecidableEq, Repr

/-- AUD state that no register holds: the source store (channel × 2^48 + position), inputs, outputs, the loop (R324): i, f, the runs of good
and bad evaluations, the position of the next evaluation, the follow-mode base (2^-24 samples, media ns); the stamps of TDM mask
commits (ns); the frame of each receive stream's last late event. -/
structure AudSt where
  store : Tab AudSmp
  ins : Tab AinSt
  outs : Tab AoutSt
  i : Int
  f : Int
  okRun : Nat
  badRun : Nat
  evalAt : Nat
  base : Option (Nat × Nat)
  commits : Tab (Option Nat)
  lateFrame : Tab (Option Nat)
  deriving DecidableEq, Repr

/-- The Sighting of one instance (R341-R346): a start Sighting, being measured (HBM steps in a window, PLL relocking), the goal of
accepted codes still being applied with the time of the last step (ns), a trigger that came meanwhile. -/
structure Sight where
  start : Bool := false
  run : Bool := false
  again : Bool := false
  goal : List Int := []
  stepNs : Nat := 0
  deriving DecidableEq, Repr

/-- The arrival threshold of one input (R352). -/
structure JitSt where
  pics : Nat := 0
  mean : Int := 0
  dev : Int := 0
  deriving DecidableEq, Repr

/-- CAL state that no register holds. Instances are at key 256 × kind + instance: Sightings pending or running, the temperature of the last
accepted one (°C); the delay codes of each pseudo-channel (32 read, 32 write); when the window opened; the PLL Sightings that have
raised event 0x1504; the quadrants CAL has parked; per quadrant the supply in 0.5 mV, the run of evaluations at VMAX without margin,
the time of the last evaluation (ns). -/
structure CalSt where
  sights : Tab (Option Sight)
  temps : Tab (Option Int)
  dq : Tab (List Int)
  winAt : Option Nat
  shutNs : Nat
  pllSaid : List Nat
  parked : List Nat
  volt : Tab Nat
  vmaxRun : Tab Nat
  avsAt : Tab Nat
  jit : Tab JitSt
  deriving DecidableEq, Repr

/-- What the active slot and the Fallback area hold: the header of an image that verifies, or none (R362). -/
structure Slot where
  active : Option FwHdr := none
  fallback : Option FwHdr := none
  deriving DecidableEq, Repr

/-- The configuration flash (R361): its bytes by offset (an erased byte is 0xFF), its density code. -/
structure FlashSt where
  mem : Tab Byte
  density : Nat
  deriving DecidableEq, Repr

/-- A warm or cold reset in progress (R356, R395): its kind (1 cold, 2 warm) and source, when it began (ns). -/
structure ResetSt where
  kind : Nat
  source : Nat
  since : Nat
  deriving DecidableEq, Repr

/-- CFG and reset state that no register holds: whether nothing runs, the loader or the firmware (0, 1, 2), PWR_GOOD, the
loader start (ns), what the two firmware slots hold, the firmware start (ns), the end of the host window (ns), whether a
good image is negotiated with its REQ and WANT, whether application has stopped, the offset and index of the next record,
the deadline of a waiting record (ns), the management key with its ID, when unreadable settings were declared in a trial (ns), the reset
in progress, the management address registers written, when HEALTHY began its present minute (ns), whether this start was found healthy (R388), when the last parcel came (ns), the key slots as they
stood at the loader start (R405). -/
structure CfgSt where
  stage : Nat
  pwrGood : Bool
  t1 : Nat
  slots : Slot
  fwAt : Nat
  closeAt : Option Nat
  img : Bool
  req : Nat
  want : Nat
  halt : Bool
  off : Nat
  idx : Nat
  wait : Option Nat
  key : Option (Nat × List Nat)
  unreadAt : Option Nat
  reset : Option ResetSt
  mgtSet : List Nat
  healthyAt : Nat
  healthySaid : Bool
  parcelAt : Option Nat
  keys1 : Tab (List Nat)
  deriving DecidableEq, Repr

/-- A Sextant client (R410, R445): its IP address, the highest SEQ accepted, its copy of GLB_WIN_CTL. -/
structure SxClient where
  ip : Nat
  seq : Nat
  win : Nat := 0
  deriving DecidableEq, Repr

/-- A whole Sextant request (R408): where it came from, VERSION, TYPE, SEQ, its body. -/
structure SxMsg where
  src : SxFrom
  ver : Nat
  ty : Nat
  seq : Nat
  body : List Nat
  deriving DecidableEq, Repr

/-- A request under reassembly (R411): its fragments so far, the index of the last one if known, the time of the last fragment. -/
structure SxAsm where
  msg : SxMsg
  frags : List (Nat × List Nat)
  last : Option Nat
  at_ : Nat
  deriving DecidableEq, Repr

/-- A held group write (R416): its virtual Meridian position, the request, the pairs. -/
structure GroupWr where
  pos : Nat
  msg : SxMsg
  pairs : List (Nat × Nat)
  deriving DecidableEq, Repr

/-- An event subscriber (R419): whom, the block mask, the end of its lease (ns), the SEQ of the next entry to send, when
the last EVENT message went (ns). -/
structure SxSub where
  src : SxFrom
  ver : Nat
  mask : Nat
  until_ : Nat
  next : Nat
  sent : Option Nat
  deriving DecidableEq, Repr

/-- Management access that no register holds: clients (least recently used first), the floor of R410, assemblers, requests that
wait for the engine, held group writes, subscribers, the time of the last event 0x010A, the number of the next relayed message; PCIe's copy of
GLB_WIN_CTL, when each vector last fired (ns). -/
structure SxSt where
  clients : List SxClient
  floor : Nat
  asms : List SxAsm
  msgs : List SxMsg
  groups : List GroupWr
  subs : List SxSub
  authAt : Option Nat
  relayMsg : Nat
  pcieWin : Nat
  msix : Tab (Option Nat)
  deriving DecidableEq, Repr

/-- A snapshot (R425): its position or none while the Meridian is OFF or STARTING, whether a command was served. -/
structure SnapTake where
  pos : Option Nat
  cmd : Bool
  deriving DecidableEq, Repr

/-- Snapshots (R425-R427): the two banks of latched registers (none before the first snapshot into it), the two banks of the ingest and egress flow counters (words 12–15 of
entry f at 16 f + w, words 24–26 at 32 f + w), the virtual position of the last snapshot, the waiting command with its position, the latch
whose epoch has not advanced yet. -/
structure SnapSt where
  bank0 : Option (Tab Word)
  bank1 : Option (Tab Word)
  egs0 : Tab Nat
  egs1 : Tab Nat
  last : Option Nat
  cmd : Option SnapTake
  taken : Option SnapTake
  deriving DecidableEq, Repr

/-- What the last command gave out. A Delay_Req names the MAC it goes to in hybrid mode (R283), a packet the headers of its leg. -/
inductive Out where
  | mgtResp (m : Nat) (r : Resp)
  | helmOut (hi : Bool)
  | ptpDelayReq (x : Nat) (dst : Option Nat)
  | ptpPdelayReq (x : Nat)
  | ptpPdelayResp (x seq t2 t3 : Nat)
  | tout (k : Nat) (level : Bool)
  | clkout (k : Nat) (en : Bool)
  | clkoutRealign (k : Nat)
  | packet (port leg : Nat) (h : NetHdr) (p : Packet)
  | flit (port : Nat) (f : Flit)
  | training (port kind : Nat)
  | relayed (ty orig msg : Nat) (data : List Nat)
  | responder (port : Nat) (r : Resp)
  | promoted (st pc requester : Nat)
  /-- Column commands of a pseudo-channel, oldest first: HCLK cycle and request (R304). -/
  | columns (st pc : Nat) (l : List (Nat × HbmReq))
  | aes3 (o : Nat) (csA csB : List Nat) (frames : List ((Nat × Bool) × (Nat × Bool)))
  | tdm (t : Nat) (frames : List (List (Option Nat)))
  | read (path : BusPath) (addr : Nat) (value : Word)
  | datagram (mgt ip udp : Nat) (bytes : List Nat)
  | svc (status : Nat) (data : List Nat)
  | svcRelease
  | alertAddr (addr : Nat)
  | mdio (phy reg : Nat) (rd : Bool) (data : Nat)
  | msix (vector : Nat)
  | bar4 (data : List Nat)
  deriving DecidableEq, Repr

/-- The block. -/
structure State where
  pending : List Instr
  regs : Tab Word
  held : Tab Held
  wpend : Tab (Option Word)
  latch : Tab (Option Word)
  fns : Tab FnState
  fnAt : Tab Nat
  evNow : List Ev
  out : List Out
  fctr : Nat
  log : LogSt
  clk : Clock
  isl : IslandSt
  mer : MerSt
  ptp : PtpSt
  ckg : CkgSt
  ing : IngSt
  comp : CompSt
  hbm : HbmSt
  enc : Tab EncCh
  dis : DisSt
  egs : EgsSt
  lne : LneSt
  links : Tab LinkSt
  twn : TwnSt
  cnv : CnvSt
  eth : Tab EthSt
  aud : AudSt
  mon : Tab Nat
  cal : CalSt
  flash : FlashSt
  souv : Tab Nat
  keys : Tab (List Nat)
  cfg : CfgSt
  sx : SxSt
  snap : SnapSt
  pins : PinSt
  deriving DecidableEq, Repr


/-- No meaning of a command ends in a fault: the spec gives no command that stops the block. Closed on purpose. -/
inductive Fault where
  /-- Raised by no command; safe. It names what a step would answer that the spec calls impossible. -/
  | impossible
  deriving DecidableEq, Repr

/-- Refusals. -/
inductive Refusal where
  /-- A command whose meaning is not written; raised only by an arm of `exec`; safe. -/
  | notModelled (mnemonic : String)
  deriving DecidableEq, Repr

/-- The block right after a power-on reset (R356, R441): every register at its reset value, every function OFF, nothing waits. The
flash and the Souvenir store hold nothing (they are loaded from outside and over runs). -/
def State.reset : State :=
  { pending := [], regs := [], held := [], wpend := [], latch := [], fns := [], fnAt := [], evNow := [], out := [], fctr := 0
    log := { ring := [], head := 0, lost := 0, vecs := [] }
    clk := { ns := 0, stc := 0, run := false, hpos := 0, res := 0, frameOfs := 0, num := 120, den := 1, lm := 4500, slew := 0,
             holdAt := none, clsAt := 0, cls := 0 }
    isl := { queue := [], alert := 0, hot := 0, hotRun := 0, shutThermal := false, shutPower := false, shutCmd := false, coolSince := none,
             vinSince := none, vinLow := none, wdogAt := none, keyAt := none, dead := false }
    mer := { refRun := 0, refLast := none, refLocked := false, jumpRun := 0, rateRun := 0, returnRun := 0, measNs := 0,
             pendStop := false, pendRate := false, pendJump := false, loadArmed := false, firstLock := false, lockSince := [],
             peerRun := [], actedV := none, minStart := [] }
    ptp := { doms := [], f := 0, f0 := 0, fAt := 0, steer := 0, touts := [], tins := [] }
    ckg := { relockAt := [], realign := [] }
    ing := { ft := [], ftSnap0 := [], ftSnap1 := [], flows := [], merges := [], inputs := [], dec := [] }
    comp := { chs := [], fencePrev := [] }
    hbm := { mem := [], stks := [], demand := [] }
    enc := []
    dis := { jobs := [], pipes := [], spare := none, lagNow := 0, lagNext := 0, lagFrom := 0, lastPipe := [], track := [], tseq := 0,
             post := none, missFrame := [], testing := false, tested := false, headerDue := false, keepAddr := none, coolSaid := [] }
    egs := { ft := [], flows := [], legs := [], ports := [] }
    lne := { lanes := [], ports := [] }
    links := []
    twn := { waitV := none, claim := none, takeover := false, lastTx := 0, lastRx := 0, lost := false, peer := none, chs := [],
             recSeq := 0, own := none, adopted := false, rx := [], late := none }
    cnv := { open_ := false, k1 := 0, reps := [], mask := none, masks := [], rowSent := false, maskSent := false, applied := [],
             prevs := [], own := none, asms := [], seen := [] }
    eth := []
    aud := { store := [], ins := [], outs := [], i := 0, f := 0, okRun := 0, badRun := 0, evalAt := 0, base := none, commits := [],
             lateFrame := [] }
    mon := []
    cal := { sights := [], temps := [], dq := [], winAt := none, shutNs := 0, pllSaid := [], parked := [], volt := [], vmaxRun := [], avsAt := [],
             jit := [] }
    flash := { mem := [], density := 2 }
    souv := []
    keys := []
    cfg := { stage := 0, pwrGood := false, t1 := 0, slots := {}, fwAt := 0, closeAt := none, img := false, req := 0, want := 0,
             halt := false, off := 0, idx := 0, wait := none, key := none, unreadAt := none, reset := none, mgtSet := [],
             healthyAt := 0, healthySaid := false, keys1 := [], parcelAt := none }
    sx := { clients := [], floor := 0, asms := [], msgs := [], groups := [], subs := [], authAt := none, relayMsg := 0, pcieWin := 0,
            msix := [] }
    snap := { bank0 := none, bank1 := none, egs0 := [], egs1 := [], last := none, cmd := none, taken := none }
    pins := { mid := 0x3FF, twinFirst := true, rstN := true, helmIn := false } }

end Sys2Proof.Machine
end

