-- ==== Sys2Proof/Machine/Ops.lean ====
section
/-!
DEFINITION. Sys2Proof/Machine/Ops.lean: the named operations every meaning is written over: bit fields, registers and their fields,
staged registers (R15), events and their log (R418), time and scheduled positions (R27-R32), function states (R372, R373),
fault records (R395, R401), free values, outputs.
-/

namespace Sys2Proof.Machine

/-! ## Bit fields and number formats -/

/-- Bits [hi:lo] of a number. -/
def bitsOf (n hi lo : Nat) : Nat := n / 2 ^ lo % 2 ^ (hi + 1 - lo)

/-- A number with bits [hi:lo] replaced by `v`. -/
def setBits (n hi lo v : Nat) : Nat :=
  n % 2 ^ lo + v % 2 ^ (hi + 1 - lo) * 2 ^ lo + n / 2 ^ (lo + (hi + 1 - lo)) * 2 ^ (lo + (hi + 1 - lo))

/-- The two's complement reading of the low `w` bits. -/
def signedOf (w n : Nat) : Int := if n % 2 ^ w < 2 ^ (w - 1) then (n % 2 ^ w : Nat) else (n % 2 ^ w : Nat) - (2 ^ w : Nat)

/-- The low `w` bits of a signed value. -/
def ofSigned (w : Nat) (i : Int) : Nat := (i % (2 ^ w : Nat)).toNat

/-- Clamp a signed value. -/
def clampI (lo hi i : Int) : Int := max lo (min hi i)

/-- A signed value saturated to 32 bits, as a register shows it. -/
def sat32 (i : Int) : Nat := ofSigned 32 (clampI (-2147483648) 2147483647 i)

/-- Arithmetic right shift, rounding toward minus infinity. -/
def sar (i : Int) (k : Nat) : Int := i / (2 ^ k : Nat)

/-- Division rounded up. -/
def ceilDiv (a b : Nat) : Nat := (a + b - 1) / b

/-- The n-th byte of a list of bytes; 0 beyond its end. -/
def byteAt (l : List Nat) (i : Nat) : Nat := l.getD i 0

/-- The little-endian number of `n` bytes from byte `i` on (R10). -/
def leNat (l : List Nat) (i : Nat) : Nat → Nat
  | 0 => 0
  | n + 1 => byteAt l i + 256 * leNat l (i + 1) n

/-- The `n` little-endian bytes of a number (R10). -/
def leBytes (v : Nat) : Nat → List Nat
  | 0 => []
  | n + 1 => v % 256 :: leBytes (v / 256) n

/-! ## Registers -/

/-- The value a register holds (the last one written or set; R4). -/
def State.rd (s : State) (a : Nat) : Word := Tab.get resetOf s.regs a

/-- The value a register holds, as a number. -/
def State.rdn (s : State) (a : Nat) : Nat := (s.rd a).toNat

/-- Set what a register holds. -/
def State.wr (s : State) (a : Nat) (v : Word) : State := { s with regs := Tab.put resetOf s.regs a v }

/-- Set what a register holds, from a number modulo 2^32. -/
def State.wrn (s : State) (a n : Nat) : State := s.wr a (BitVec.ofNat 32 n)

/-- The value of a field. -/
def State.f (s : State) (x : Fld) : Nat := bitsOf (s.rdn x.addr) x.hi x.lo

/-- Is a one-bit field 1? -/
def State.on (s : State) (x : Fld) : Bool := s.f x == 1

/-- Set a field. -/
def State.setF (s : State) (x : Fld) (v : Nat) : State := s.wrn x.addr (setBits (s.rdn x.addr) x.hi x.lo v)

/-- Increment a counter register, wrapping (R66 and the like). -/
def State.bump (s : State) (a : Nat) : State := s.wrn a (s.rdn a + 1)

/-- Add to a counter register, wrapping. -/
def State.bumpBy (s : State) (a n : Nat) : State := s.wrn a (s.rdn a + n)

/-- A register raised to a new maximum. -/
def State.wrMax (s : State) (a n : Nat) : State := if s.rdn a < n then s.wrn a n else s

/-- A 64-bit value held as a low and a high register (R9). -/
def State.rd64 (s : State) (lo hi : Nat) : Nat := s.rdn lo + 4294967296 * s.rdn hi

/-- Set a value held as a low and a high register (R9). -/
def State.wr64 (s : State) (lo hi n : Nat) : State := (s.wrn lo n).wrn hi (n / 4294967296)

/-! ## Staged registers (R15) -/

/-- The word of a staged register that is in force. -/
def State.inForce (s : State) (a : Nat) : Word :=
  let h := Tab.get (fun _ => ({} : Held)) s.held a
  if h.pend = [] then s.rd a else h.inForce

/-- The value in force of a staged field. -/
def State.fs (s : State) (x : Fld) : Nat := bitsOf (s.inForce x.addr).toNat x.hi x.lo

/-- Is a staged one-bit field in force 1? -/
def State.ons (s : State) (x : Fld) : Bool := s.fs x == 1

/-- A write to a staged register, held until the next frame start after its stamp (R15). -/
def State.stage (s : State) (a : Nat) (v : Word) (stamp : Nat) : State :=
  let h := Tab.get (fun _ => ({} : Held)) s.held a
  { (s.wr a v) with held := Tab.put (fun _ => ({} : Held)) s.held a { inForce := s.inForce a, pend := h.pend ++ [(stamp, v)] } }

/-- At a frame start D, the staged writes stamped strictly before D take effect (R15, R29). -/
def State.applyHeld (s : State) (a d : Nat) : State :=
  let h := Tab.get (fun _ => ({} : Held)) s.held a
  let due := h.pend.filter (fun p => decide (p.1 < d))
  let rest := h.pend.filter (fun p => decide (¬ p.1 < d))
  let v := match due.getLast? with | some p => p.2 | none => h.inForce
  { s with held := Tab.put (fun _ => ({} : Held)) s.held a (if rest = [] then {} else { inForce := v, pend := rest }) }

/-- The function of the `n` bytes of registers from `lo` on is OFF: what was held is in force at once (R15). -/
def State.flushHeld (s : State) (lo n : Nat) : State := { s with held := s.held.filter (fun e => !(decide (lo ≤ e.1) && decide (e.1 < lo + n))) }

/-! ## Outputs, events, free values -/

/-- Add to what the last command gave out. -/
def State.emit (s : State) (o : Out) : State := { s with out := s.out ++ [o] }

/-- Raise an event (R8); `detail` is the instance that raised it (R418). -/
def State.raise (s : State) (code detail : Nat) : State := { s with evNow := s.evNow ++ [⟨code, detail⟩] }

/-- Refuse a register write: the event whose lower byte is 0x01 under the block's ID (R7). -/
def State.refuse (s : State) (block : Nat) : State := s.raise (block * 256 + 1) 0

/-- The next free value (an open value of the spec), and the state that has used it. -/
def State.free (s : State) : Nat × State := (Config.freeNat s.fctr, { s with fctr := s.fctr + 1 })

/-! ## Time (R27-R32) -/

/-- Fraction units per Meridian frame. -/
def Clock.fu (c : Clock) : Nat := c.lm * 65536

/-- The Meridian's virtual position in fraction units; it never runs back. -/
def Clock.vpos (c : Clock) : Nat := c.hpos / 4294967296

/-- The 48-bit visible frame count. -/
def Clock.frame (c : Clock) : Nat := (((c.vpos / c.fu : Nat) : Int) + c.frameOfs).toNat % 2 ^ 48

/-- The visible frame count of a virtual position. -/
def Clock.frameOf (c : Clock) (v : Nat) : Nat := (((v / c.fu : Nat) : Int) + c.frameOfs).toNat

/-- The line within the frame. -/
def Clock.line (c : Clock) : Nat := c.vpos % c.fu / 65536

/-- The sub-line fraction. -/
def Clock.frac (c : Clock) : Nat := c.vpos % 65536

/-- The denominator of the residue (R32), scaled for a slew in ppm. -/
def Clock.resDen (c : Clock) : Nat := c.den * 250000000 * 1000000

/-- The advance per MTCLK edge, over `resDen`, in hidden units (R32, R41). -/
def Clock.inc (c : Clock) : Nat := c.num * c.lm * 2 ^ 48 * (1000000 + c.slew).toNat

/-- `n` ns, edges of TCLK (R64), pass: the STC and the local time advance by them; at each edge of MTCLK, every fourth, the Meridian
advances by the exact count, its residue carried (R32); it waits at `holdAt` while a step is pending (R41). -/
def Clock.elapseNs (c : Clock) (n : Nat) : Clock :=
  let c1 := { c with ns := c.ns + n, stc := c.stc + n }
  if c.run then
    let k := (c.ns + n) / 4 - c.ns / 4
    let tot := c.res + k * c.inc
    let hp := c.hpos + tot / c.resDen
    match c.holdAt with
    | some h =>
      if h * 4294967296 ≤ hp then { c1 with hpos := max c.hpos (h * 4294967296), res := 0 }
      else { c1 with hpos := hp, res := tot % c.resDen }
    | none => { c1 with hpos := hp, res := tot % c.resDen }
  else c1

/-- Time runs on to the `k`-th next edge of MTCLK. -/
def Clock.elapse (c : Clock) (k : Nat) : Clock := c.elapseNs (4 * k - c.ns % 4)

/-- How many edges of MTCLK until the Meridian is at or after a virtual position (R32). -/
def Clock.ticksTo (c : Clock) (t : Nat) : Nat :=
  if t * 4294967296 ≤ c.hpos then 0 else ceilDiv ((t * 4294967296 - c.hpos) * c.resDen - c.res) c.inc

/-- Is this edge the first at or after the virtual position, so that what is scheduled there acts now (R32)? -/
def Clock.isAt (c : Clock) (t : Nat) : Bool :=
  decide (t * 4294967296 ≤ c.hpos) && (decide (c.hpos = 0) || decide ((c.hpos - t * 4294967296) * c.resDen + c.res < c.inc))

/-- May a decision of this class still act at this position? Classes act in the order of R31. -/
def Clock.classOk (c : Clock) (cls t : Nat) : Bool := c.isAt t && !(decide (c.clsAt = t + 1) && decide (cls < c.cls))

/-- A length in fraction units in ns. -/
def Clock.nsOf (c : Clock) (d : Nat) : Nat := d * c.den * 1000000000 / (c.num * c.lm * 65536)

/-- A time in ns as fraction units at the cadence in force, rounded down. -/
def Clock.nsToUnits (c : Clock) (t : Nat) : Nat := t * c.num * c.lm * 65536 / (c.den * 1000000000)

/-- The exact local time of a virtual position, rounded up to the next edge of TCLK (R64), at the rate now in force. -/
def Clock.nsAt (c : Clock) (t : Nat) : Int :=
  ((c.ns / 4 * 4 : Nat) : Int) - -((((t * 4294967296 : Nat) : Int) - (c.hpos : Int)) * (c.resDen : Int) - (c.res : Int)) * 4 / (c.inc : Int)

/-- Time runs on to the `k`-th next edge of MTCLK. -/
def State.elapse (s : State) (k : Nat) : State := { s with clk := s.clk.elapse k }

/-- Time runs on by `n` ns. -/
def State.elapseNs (s : State) (n : Nat) : State := { s with clk := s.clk.elapseNs n }

/-- Time runs on to a local time in ns, unless it has passed. -/
def State.toNs (s : State) (t : Nat) : State := s.elapseNs (t - s.clk.ns)

/-- Time runs on to an STC time in ns, unless it has passed. -/
def State.toStc (s : State) (t : Nat) : State := s.elapseNs (t - s.clk.stc)

/-- Is the Meridian in a hold: has it reached the position at which a pending step holds it (R41, R42)? -/
def Clock.inHold (c : Clock) : Bool :=
  match c.holdAt with
  | some h => decide (h * 4294967296 ≤ c.hpos)
  | none => false

/-- Time runs on to a virtual Meridian position, where a decision of class `cls` acts; a position already passed acts
now. None while the Meridian does not run, or where a pending step holds it before the position (R41, R42). -/
def State.toPos (s : State) (cls t : Nat) : Option State :=
  if !s.clk.run then none
  else if (match s.clk.holdAt with | some h => decide (h ≤ t) | none => false) then none
  else
    let c := s.clk.elapse (s.clk.ticksTo t)
    some { s with clk := { c with clsAt := t + 1, cls := cls } }

/-- The next virtual position, now or later, that lies `ph` fraction units into a period of `per` units counted from
`org`, for a decision of class `cls`. -/
def Clock.nextOf (c : Clock) (cls org per ph : Nat) : Nat :=
  let v := c.vpos
  let base := org + (v - org) / per * per + ph
  if per ≤ base ∧ org ≤ base - per ∧ c.classOk cls (base - per) = true then base - per
  else if c.classOk cls base = true ∨ v < base then base
  else base + per

/-- Time runs on to the next place `ph` units into a Meridian frame (a line start, a flip line, a frame start). -/
def State.toPhase (s : State) (cls ph : Nat) : Option State := s.toPos cls (s.clk.nextOf cls 0 s.clk.fu ph)

/-! ## Functions and fault records -/

/-- The state of function `f` (R372). -/
def State.fn (s : State) (f : Nat) : FnState := Tab.get (fun _ => FnState.off) s.fns f

/-- The BIN_FAULT bit that a cause sets (R423), if any. -/
def faultBit (cause : Nat) : Option Nat := if 1 ≤ cause ∧ cause ≤ 10 then some (cause - 1) else none

/-- A BIN_FAULT bit sets: vector 0 is due (R422); where it was 0 and BIN_FAULT_MASK names it, SVC_ALERT_N goes low (R406). -/
def State.faultSet (s : State) (b : Nat) : State :=
  let new := bitsOf (s.rdn R.BIN_FAULT) b b == 0 && bitsOf (s.rdn R.BIN_FAULT_MASK) b b == 1
  { (s.wrn R.BIN_FAULT (setBits (s.rdn R.BIN_FAULT) b b 1)) with
    log := { s.log with vecs := if 0 ∈ s.log.vecs then s.log.vecs else 0 :: s.log.vecs }
    isl := { s.isl with alert := if new then setBits s.isl.alert b b 1 else s.isl.alert } }

/-- A fault record is lost: FH_LOST sets, BIN_FH_LOST counts it, event 0x0109 is raised (R396, R463). -/
def State.recordLost (s : State) : State := ((s.faultSet 10).bump R.BIN_FH_LOST).raise 0x0109 0

/-- Queue a fault record (R395, R396): its BIN_FAULT bit is set; with 8 records waiting the new one is lost. -/
def State.pushFault (s : State) (cause block event fn detail : Nat) : State :=
  let r : FaultRec :=
    { cause := cause, block := block, event := event, fn := fn, detail := detail, uptime := s.clk.ns / 1000,
      stcSec := s.rdn R.BIN_STC_SEC, muted := s.on F.BIN_STATUS_MUTED, helm := s.on F.BIN_STATUS_HELM_OUT,
      boots := s.rdn R.BIN_BOOT_CNT }
  let s := match faultBit cause with
    | some b => s.faultSet b
    | none => s
  if s.isl.queue.length < 8 then { s with isl := { s.isl with queue := s.isl.queue ++ [r] } } else s.recordLost

/-- Move a function to a state: READY raises event 0x0003; FAULT raises event 0x0002, records the function in
GLB_LAST_FAULT_FN and writes a fault record of cause 10 (R373, R401). -/
def State.setFn (s : State) (f : Nat) (st : FnState) : State :=
  if s.fn f = st then s else
  let s1 := { s with fns := Tab.put (fun _ => FnState.off) s.fns f st, fnAt := Tab.put (fun _ => 0) s.fnAt f s.clk.vpos }
  match st with
  | .ready => s1.raise 0x0003 f
  | .fault => ((s1.raise 0x0002 f).wrn R.GLB_LAST_FAULT_FN f).pushFault 10 0 0x0002 f 0
  | _ => s1

/-- The Meridian position of the last change of a function's state. -/
def State.fnSince (s : State) (f : Nat) : Nat := Tab.get (fun _ => 0) s.fnAt f

/-- Is a function READY? -/
def State.ready (s : State) (f : Nat) : Bool := s.fn f == .ready

/-- Has the function been enabled and not yet drained (it is not OFF)? -/
def State.active (s : State) (f : Nat) : Bool := s.fn f != .off

/-! Function numbers (R372). -/
def fnMer : Nat := 0
def fnPtp : Nat := 1
def fnDis : Nat := 2
def fnTwn : Nat := 3
def fnCnv : Nat := 4
def fnAud : Nat := 5
def fnCal : Nat := 6
def fnCfg : Nat := 7
def fnHbm (s : Nat) : Nat := 8 + s
def fnEth (p : Nat) : Nat := 12 + p
def fnStaord (p : Nat) : Nat := 20 + p
def fnIng (p : Nat) : Nat := 28 + p
def fnDec (x : Nat) : Nat := 36 + x
def fnComp (c : Nat) : Nat := 52 + c
def fnEnc (n : Nat) : Nat := 84 + n
def fnEgs (p : Nat) : Nat := 116 + p

/-! ## A command's frame: begin and finish -/

/-- A command starts: what the last one gave out is gone. -/
def State.begin (s : State) : State := { s with out := [], evNow := [] }

/-- Insert an event in ascending block ID, then code (R418). -/
def evInsert (e : Ev) : List Ev → List Ev
  | [] => [e]
  | x :: r => if e.code < x.code then e :: x :: r else x :: evInsert e r

/-- The events of one MCLK cycle in ascending block ID, then code (R418). -/
def evSort : List Ev → List Ev
  | [] => []
  | e :: r => evInsert e (evSort r)

/-- Append events to the log ring, overwriting the oldest (R418). -/
def LogSt.add (l : LogSt) (c : Clock) : List Ev → LogSt
  | [] => l
  | e :: r => LogSt.add { l with
      ring := Tab.put (fun _ => ({} : LogEntry)) l.ring (l.head % 1024)
        { code := e.code, detail := e.detail % 65536, seq := l.head, frame := c.frame % 2 ^ 32, line := c.line, frac := c.frac }
      head := (l.head + 1) % 2 ^ 32 } c r

/-- Insert a vector that is to fire, once. -/
def vecInsert (v : Nat) (l : List Nat) : List Nat := if v ∈ l then l else l ++ [v]

/-- A command ends: the first four events of its cycle enter the log, the others are counted as lost (R418); each event
of a block whose BIN_VEC is enabled makes its vector due (R422). -/
def State.finish (s : State) : State :=
  let evs := evSort s.evNow
  let l := s.log.add s.clk (evs.take 4)
  let vecs := evs.foldl (fun a e =>
    if s.on (F.BIN_VEC_EN (e.code / 256)) then vecInsert (s.f (F.BIN_VEC_VECTOR (e.code / 256))) a else a) s.log.vecs
  { s with log := { l with lost := if evs.length ≤ 4 then s.log.lost else (s.log.lost + (evs.length - 4)) % 2 ^ 32, vecs := vecs }, evNow := [] }

/-- The answer of a meaning: the command's effect, between begin and finish. No command reaches the queue, and none but KEYSLOT_PROGRAMMED
the one-time key slots (R405). -/
def State.run (s : State) (op : State → State) : Host.Outcome State Fault Refusal :=
  .next { (op s.begin).finish with pending := s.pending, keys := s.keys }

/-- The answer of KEYSLOT_PROGRAMMED: a slot that holds a digest keeps it (R405). -/
def State.runKey (s : State) (op : State → State) : Host.Outcome State Fault Refusal :=
  .next { (op s.begin).finish with pending := s.pending }

end Sys2Proof.Machine
end

