-- ==== Sys2Proof/Machine/Mon.lean ====
section
/-!
DEFINITION. Sys2Proof/Machine/Mon.lean: the monitor units (R429-R431): a probe's sample goes into every running unit that watches it.
-/

namespace Sys2Proof.Machine

/-- The index of the highest set bit of a positive number (R431). -/
def msb (q : Nat) : Nat := Nat.log2 q

/-- The histogram bin of a sample (R431). -/
def monBin (base v : Int) (shift : Nat) (log2_ : Bool) : Nat :=
  let d := v - base
  if d < 0 then 0
  else
    let q := d.toNat / 2 ^ shift
    if !log2_ then min 31 (1 + q) else if q = 0 then 1 else min 31 (2 + msb q)

/-- A counter register that saturates at 0xFFFF_FFFF: its new state, and whether it was full (R431). -/
def State.bumpSat (s : State) (a : Nat) : State × Bool := if s.rdn a = 0xFFFFFFFF then (s, true) else (s.bump a, false)

/-- R431: unit m takes the sample v. -/
def State.monTake (s : State) (m : Nat) (v : Int) : State :=
  let v := clampI (-2147483648) 2147483647 v
  let bin := monBin (signedOf 32 (s.rdn (R.MON_BASE m))) v (s.f (F.MON_CTL_SHIFT m)) (s.on (F.MON_CTL_LOG2 m))
  let c := s.bumpSat (R.MON_COUNT m)
  let h := c.1.bumpSat (R.MON_HIST m bin)
  let s := h.1
  let s := if v < signedOf 32 (s.rdn (R.MON_MIN m)) then s.wrn (R.MON_MIN m) (ofSigned 32 v) else s
  let s := if signedOf 32 (s.rdn (R.MON_MAX m)) < v then s.wrn (R.MON_MAX m) (ofSigned 32 v) else s
  if (c.2 || h.2) && !s.on (F.MON_STATUS_SAT m) then ((s.setF (F.MON_STATUS_SAT m) 1).setF F.MON_FLAGS_SAT 1).raise 0x1703 m else s

/-- A sample opportunity of unit m: with DECIM d it takes the first of each run of 2^d (R430). -/
def State.monSample (s : State) (m : Nat) (v : Int) : State :=
  let n := Tab.get (fun _ => 0) s.mon m
  let u := { s with mon := Tab.put (fun _ => 0) s.mon m (n + 1) }
  if n % 2 ^ s.f (F.MON_CTL_DECIM m) = 0 then u.monTake m v else u

/-- R429, R430: a sample opportunity of a probe, for the running units whose INST satisfies `at_`. -/
def State.probe (s : State) (probe : Nat) (at_ : Nat → Bool) (v : Int) : State :=
  (List.range 64).foldl (fun (t : State) m =>
    if t.on (F.MON_STATUS_RUN m) && t.f (F.MON_CTL_PROBE m) == probe && at_ (t.rdn (R.MON_INST m)) then t.monSample m v else t) s

/-- The instances that a probe has (R430). -/
def monInstOk (probe inst : Nat) : Bool :=
  if probe = 1 ∨ probe = 2 then
    let k := bitsOf inst 17 16
    decide (inst < 2 ^ 18) && (if k = 0 then decide (inst < 8) else decide (k ≤ 2))
  else if probe = 3 then decide (inst < 32)
  else if probe = 4 then decide (inst < 16)
  else if probe = 5 then decide (inst < 12)
  else if probe = 6 then decide (inst < 2)
  else if probe = 7 then decide (inst < 6)
  else if probe = 8 then decide (inst < 76)
  else if probe = 9 then decide (inst < 32) || inst == 63
  else if probe = 10 then decide (inst < 64)
  else probe == 11 && inst == 0

/-- A write of MON_m_CTL (R429, R430): an enable is checked, and the unit then waits for a snapshot position; while EN is 1 only EN may
change; a disable stops the unit. -/
def State.monWrite (s : State) (m : Nat) (new : Word) : State :=
  let en := s.on (F.MON_CTL_EN m)
  let want := bitsOf new.toNat 0 0 == 1
  let a := R.MON_CTL m
  if en && decide (bitsOf new.toNat 31 1 ≠ bitsOf (s.rdn a) 31 1) then s.refuse 0x17
  else if want && !en then (if monInstOk (bitsOf new.toNat 4 1) (s.rdn (R.MON_INST m)) then s.wr a new else s.refuse 0x17)
  else if en && !want then { (s.wr a new).setF (F.MON_STATUS_RUN m) 0 with mon := Tab.put (fun _ => 0) s.mon m 0 }
  else s.wr a new

/-- At a snapshot position each enabled unit restarts with empty results, the SAT of the interval gone; one that waited for it starts
(R429). -/
def State.monRestart (s : State) : State :=
  (List.range 64).foldl (fun (t : State) m =>
    if !t.on (F.MON_CTL_EN m) then t else
    let t := if t.on (F.MON_STATUS_RUN m) then t else (t.setF (F.MON_STATUS_RUN m) 1).raise 0x1702 m
    let t := ((t.wrn (R.MON_MIN m) 0x7FFFFFFF).wrn (R.MON_MAX m) 0x80000000).wrn (R.MON_COUNT m) 0
    (List.range 32).foldl (fun (t : State) b => t.wrn (R.MON_HIST m b) 0) (t.setF (F.MON_STATUS_SAT m) 0)) s

/-- Writes of MON registers that have rules of their own. -/
def State.monReg (s : State) (a : Nat) (v : Word) : Option State :=
  if R.MON_CTL 0 ≤ a ∧ a < R.MON_CTL 64 then
    let m := (a - R.MON_CTL 0) / 0x100
    let o := (a - R.MON_CTL 0) % 0x100
    if o = 0 then some (s.monWrite m v)
    else if (o = 4 ∨ o = 8) ∧ s.on (F.MON_CTL_EN m) = true then some (s.refuse 0x17)
    else none
  else none

end Sys2Proof.Machine
end

