-- ==== Sys2Proof/Machine/Sight.lean ====
section
/-!
DEFINITION. Sys2Proof/Machine/Sight.lean: Sightings (R341-R346): triggers, the check of a result, the steps that apply accepted codes.
Kinds: 0 LANE, 1 HBM, 2 PLL, 3 SENSOR.
-/

namespace Sys2Proof.Machine

/-- The Sighting of an instance, if one is pending or running. -/
def State.sight (s : State) (k i : Nat) : Option Sight := Tab.get (fun _ => (none : Option Sight)) s.cal.sights (256 * k + i)

/-- Set it. -/
def State.setSight (s : State) (k i : Nat) (x : Option Sight) : State :=
  { s with cal := { s.cal with sights := Tab.put (fun _ => (none : Option Sight)) s.cal.sights (256 * k + i) x } }

/-- Is the instance in the range of its kind (R341)? -/
def sightOk (k i : Nat) : Bool := if k = 0 then decide (i < 64) else if k = 1 then decide (i < 128) else if k = 2 then decide (i ≤ 10) else decide (k = 3) && decide (i < 72)

/-- A trigger (R342): merged into a pending or running Sighting; during the application of codes, kept for after it (R346). CPLL_0, CPLL_1
and CPLL_9 are never triggered after start (R343). -/
def State.sightTrigger (s : State) (k i : Nat) : State :=
  if k = 2 ∧ (i = 0 ∨ i = 1 ∨ i = 9) then s else
  match s.sight k i with
  | none => s.setSight k i (some {})
  | some x => if x.goal.isEmpty then s else s.setSight k i (some { x with again := true })

/-- The instance's pending and running Sightings are abandoned (R346). -/
def State.sightDrop (s : State) (k i : Nat) : State := s.setSight k i none

/-- The signed field read as a two's complement number of its width. -/
def State.fSigned (s : State) (x : Fld) : Int := signedOf (x.hi + 1 - x.lo) (s.f x)

/-- The register of a sensor's temperature and offset (R354). -/
def senseReg (i : Nat) : Nat := if i < 64 then R.CAL_PIPE_TEMP i else R.CAL_SENSE (i - 64)

/-- The codes in force of an instance, in the order in which they move (R341, R345). -/
def State.sightCodes (s : State) (k i : Nat) : List Int :=
  if k = 0 then [(s.f (F.LNE_LANE_TRIM_PHASE i) : Int), s.fSigned (F.LNE_LANE_TRIM_OFFSET i)]
  else if k = 1 then Tab.get (fun _ => List.replicate 64 (0 : Int)) s.cal.dq i
  else if k = 2 then [(s.f (F.CKG_CPLL_STATUS_BAND i) : Int)]
  else [signedOf 8 (bitsOf (s.rdn (senseReg i)) 15 8)]

/-- Set the codes in force of an instance. -/
def State.setCodes (s : State) (k i : Nat) (c : List Int) : State :=
  if k = 0 then (s.setF (F.LNE_LANE_TRIM_PHASE i) (ofSigned 8 (c.getD 0 0))).setF (F.LNE_LANE_TRIM_OFFSET i) (ofSigned 8 (c.getD 1 0))
  else if k = 1 then { s with cal := { s.cal with dq := Tab.put (fun _ => List.replicate 64 (0 : Int)) s.cal.dq i c } }
  else if k = 2 then s.setF (F.CKG_CPLL_STATUS_BAND i) (c.getD 0 0).toNat
  else s.wrn (senseReg i) (setBits (s.rdn (senseReg i)) 15 8 (ofSigned 8 (c.getD 0 0)))

/-- The figures of the last Sighting that registers report (R280, R341). -/
def State.sightReport (s : State) (k i : Nat) (q : List Nat) : State :=
  if k = 0 then s.wrn (R.LNE_LANE_EYE i) (byteAt q 0 % 65536 + byteAt q 1 % 65536 * 65536)
  else if k = 1 then s.wrn (R.HBM_S_PC_EYE (i / 32) (i % 32)) (byteAt q 0 % 65536 + byteAt q 1 % 65536 * 65536)
  else s

/-- Every code lies within `d` of its partner. -/
def codesWithin (d : Nat) (a b : List Int) : Bool := (a.zip b).all (fun p => decide ((p.1 - p.2).natAbs ≤ d))

/-- Is a result accepted (R344)? `first` and `second` are the two measurements, `q` the quality figures; a start Sighting has no code in
force. -/
def State.sightPasses (s : State) (k i : Nat) (start : Bool) (first second : List Int) (q : List Nat) : Bool :=
  if s.f (F.CAL_CHK_MODE k) = 0 then codesWithin (s.f (F.CAL_CHK_TOL k)) first second
  else
    (start || codesWithin (s.f (F.CAL_CHK_LIM k)) first (s.sightCodes k i))
      && (!(k == 0 || k == 1) || (q.take (if k = 0 then 1 else 2)).all (fun x => decide (s.f (F.CAL_CHK_QMIN k) ≤ x)))

/-- An accepted result (R344): its temperature, counter and event; a start Sighting's codes are set at once, others move step by step
(R345), and none when they equal the codes in force (R346). -/
def State.sightAccept (s : State) (k i : Nat) (start : Bool) (codes : List Int) (temp : Int) : State :=
  let s := { s with cal := { s.cal with temps := Tab.put (fun _ => (none : Option Int)) s.cal.temps (256 * k + i) (some temp) } }
  let s := (s.bump R.CAL_RUN_CNT).raise 0x1502 i
  if start then (s.setCodes k i codes).setSight k i none
  else if codes = s.sightCodes k i then s.setSight k i none
  else s.setSight k i (some { goal := codes, stepNs := s.clk.ns })

/-- A rejected result: the old codes are kept (R344). -/
def State.sightReject (s : State) (k i : Nat) : State :=
  (((s.setSight k i none).bump R.CAL_REJECT_CNT).setF F.CAL_FLAGS_REJECT 1).raise 0x1503 i

/-- Codes one step nearer their goal: the first that differs moves by one (R345). -/
def stepCodes : List Int → List Int → List Int
  | a :: r, g :: t => if a = g then a :: stepCodes r t else (if a < g then a + 1 else a - 1) :: r
  | r, _ => r

/-- SIGHTING_STEP (R345): one code moves by one, STEP_US after the last step at the earliest; after the last step a trigger that came
meanwhile makes the Sighting pending again (R346). -/
def State.sightStep (s : State) (k i : Nat) : State :=
  match s.sight k i with
  | none => s
  | some x =>
    if x.goal.isEmpty then s else
    let s := s.toNs (x.stepNs + s.f F.CAL_STEP_STEP_US * 1000)
    let c := stepCodes (s.sightCodes k i) x.goal
    let s := s.setCodes k i c
    if c = x.goal then s.setSight k i (if x.again then some {} else none)
    else s.setSight k i (some { x with stepNs := s.clk.ns })

end Sys2Proof.Machine
end

