-- ==== Sys2Proof/Machine/Island.lean ====
section
/-!
DEFINITION. Sys2Proof/Machine/Island.lean: what the Binnacle island does for every other unit: muting (R397) and giving up control
(R250, R396).
-/

namespace Sys2Proof.Machine

/-- Drive HELM_OUT. -/
def State.driveHelm (s : State) (hi : Bool) : State :=
  if s.on F.BIN_STATUS_HELM_OUT = hi then s
  else ((s.setF F.BIN_STATUS_HELM_OUT (if hi then 1 else 0)).setF F.TWN_STATUS_HELM_OUT (if hi then 1 else 0)).emit (.helmOut hi)

/-- Start a mute, soft or hold (R397). -/
def State.mute (s : State) (hold : Bool) : State :=
  let s1 := if s.on F.BIN_STATUS_MUTED then s else (s.setF F.BIN_STATUS_MUTED 1).raise 0x0103 0
  if hold then s1.setF F.BIN_STATUS_MUTE_HOLD 1 else s1

/-- End a soft mute; refused under R7 during a hold mute (R397). -/
def State.unmute (s : State) : State :=
  if s.on F.BIN_STATUS_MUTE_HOLD then s.refuse 0x01
  else if s.on F.BIN_STATUS_MUTED then (s.setF F.BIN_STATUS_MUTED 0).raise 0x0104 0
  else s

/-- Give up control, in the order of R250: mute, fault record, HELM_OUT low; event 0x0102, GIVEN_UP (R396). -/
def State.giveUp (s : State) (cause block event detail : Nat) : State :=
  ((((s.mute true).pushFault cause block event 0x7F detail).driveHelm false).setF F.BIN_STATUS_GIVEN_UP 1).raise 0x0102 0

/-- Give up before a reset or a shutdown, without a record of cause 7: the record is the trigger's own (R250, R356). -/
def State.hasGivenUp (s : State) : Bool := s.on F.BIN_STATUS_GIVEN_UP

end Sys2Proof.Machine
end

