-- ==== Sys2Proof/Machine/Operands.lean ====
section
/-!
DEFINITION. Sys2Proof/Machine/Operands.lean: formulas of the spec that several units use: rasters and line units (R34, R35), the encode
admission sums (R23), requests that one unit makes of another.
-/

namespace Sys2Proof.Machine

/-- Total lines of a raster by its active height (R34); none where the table has no row. -/
def totalLines (h : Nat) : Option Nat :=
  if h = 720 then some 750 else if h = 1080 then some 1125 else if h = 2160 then some 2250
  else if h = 4320 then some 4500 else if h = 4352 then some 4500 else none

/-- Total lines from a lines register and an active height: the register, or the table of R34 where it is 0; a written
total is at least the height plus 8. -/
def rasterLines (reg h : Nat) : Option Nat :=
  if reg = 0 then totalLines h else if h + 8 ≤ reg ∧ reg ≤ 65535 then some reg else none

/-- The relation of a raster's rate to the cadence (R35): (1, m) where the raster runs at the cadence rate divided by m,
(m, 1) where at the rate multiplied by m. -/
def rateRelation (numM denM numC denC : Nat) : Option (Nat × Nat) :=
  if denM ≠ denC then none
  else if numC = 0 ∨ numM = 0 then none
  else if numM % numC = 0 ∧ numM / numC ≤ 8 then some (1, numM / numC)
  else if numC % numM = 0 ∧ numC / numM ≤ 8 then some (numC / numM, 1)
  else none

/-- The channel line unit u of R35, where it is an integer. -/
def lineUnit (lm numM denM lc numC denC : Nat) : Option Nat :=
  let a := 65536 * lm * numM * denC
  let b := lc * numC * denM
  if b = 0 then none else if a % b = 0 then some (a / b) else none

/-- Samples-per-pixel factor k of R23: 3 for 4:2:0, 4 for 4:2:2, 6 for 4:4:4. -/
def chromaK (chroma : Nat) : Nat := if chroma = 0 then 3 else if chroma = 1 then 4 else 6

/-- Luma samples per second of one channel, rounded up (R23), with the rate scaled by sn/sd. -/
def State.encLumaRate (s : State) (n sn sd : Nat) : Nat :=
  ceilDiv (s.f (F.ENC_CH_SIZE_W n) * s.f (F.ENC_CH_SIZE_H n) * s.f (F.ENC_CH_RATE_NUM n) * sn) (s.f (F.ENC_CH_RATE_DEN n) * sd)

/-- The two sums of R23 over the channels of a list. -/
def State.encSums (s : State) (sn sd : Nat) : List Nat → Nat × Nat
  | [] => (0, 0)
  | n :: r =>
    let t := State.encSums s sn sd r
    if s.on (F.ENC_CH_CTL_EN n) then
      let q := s.encLumaRate n sn sd
      (t.1 + q, t.2 + q * chromaK (s.f (F.ENC_CH_FORMAT_CHROMA n)))
    else t

/-- Both budgets of R23 hold over every enabled channel. -/
def State.encBudgetOk (s : State) (sn sd : Nat) : Bool :=
  let t := s.encSums sn sd (List.range 32)
  decide (t.1 ≤ 16000000000) && decide (t.2 ≤ 64000000000)

/-- Total lines of encode channel n (R34). -/
def State.encLines (s : State) (n : Nat) : Option Nat := rasterLines (s.f (F.MER_CH_LINES_L_C n)) (s.f (F.ENC_CH_SIZE_H n))

/-- The rate of encode channel n, num/den: that of ENC_CH_n_RATE; at the alternate cadence it scales with the cadence (R45). -/
def State.chanRate (s : State) (n : Nat) : Nat × Nat :=
  let num := s.f (F.ENC_CH_RATE_NUM n)
  let den := s.f (F.ENC_CH_RATE_DEN n)
  if s.on F.MER_STATUS_ALT then
    let a := num * s.clk.num * s.rdn R.MER_CAD_DEN
    let b := den * s.clk.den * s.rdn R.MER_CAD_NUM
    (a / Nat.gcd a b, b / Nat.gcd a b)
  else (num, den)

/-- u of encode channel n against the cadence (R35); an adopted alternate rate keeps it, because channel rates scale with the cadence (R45). -/
def State.encUnit (s : State) (n : Nat) : Option Nat :=
  match s.encLines n with
  | none => none
  | some lc =>
    match rateRelation (s.rdn R.MER_CAD_NUM) (s.rdn R.MER_CAD_DEN) (s.f (F.ENC_CH_RATE_NUM n)) (s.f (F.ENC_CH_RATE_DEN n)) with
    | none => none
    | some _ => lineUnit s.clk.lm (s.rdn R.MER_CAD_NUM) (s.rdn R.MER_CAD_DEN) lc (s.f (F.ENC_CH_RATE_NUM n)) (s.f (F.ENC_CH_RATE_DEN n))

/-- Is feature bit b in the accepted and locked set (R369, R370)? -/
def State.feature (s : State) (b : Nat) : Bool :=
  s.on F.GLB_FEAT_CTL_LOCKED && (bitsOf (s.rdn (R.GLB_FEAT_ACCEPT (b / 32))) (b % 32) (b % 32) == 1)

/-- Is the configuration locked (CFG_STATUS.STATE, R376)? -/
def State.cfgLocked (s : State) : Bool := s.f F.CFG_STATUS_STATE == 3

/-- On a Lookout the Helm's outcome of a flip evaluation is used in place of the module's own (R112). Role codes: R256. -/
def State.usesHelmFlips (s : State) : Bool := s.f F.TWN_STATUS_ROLE == 2

/-- A twinned channel on a Lookout: the module does not use its own evaluation of flips (R112). -/
def State.helmFlips (s : State) (c : Nat) : Bool := s.usesHelmFlips && bitsOf (s.rdn R.TWN_CH_MASK) c c == 1

/-- The encode channel n. -/
def State.encCh (s : State) (n : Nat) : EncCh := Tab.get (fun _ => ({} : EncCh)) s.enc n

/-- Set the encode channel n. -/
def State.setEnc (s : State) (n : Nat) (x : EncCh) : State := { s with enc := Tab.put (fun _ => ({} : EncCh)) s.enc n x }

/-- A GDR restart is requested of encode channel n at a stamp (R141). -/
def State.requestRestart (s : State) (n stamp : Nat) : State :=
  let x := s.encCh n
  s.setEnc n { x with restart := if stamp ∈ x.restart then x.restart else x.restart ++ [stamp] }

/-- A step or a followed rate change asks for a restart with the first frame after it (R42, R45). -/
def State.setRestart (s : State) (n : Nat) (b : Bool) : State := if b then s.requestRestart n 0 else s

/-! ## Channel frames (R35, R36) -/

/-- (mult, div) of encode channel n against the cadence; (1, 1) where there is none. -/
def State.chanRel (s : State) (n : Nat) : Nat × Nat :=
  (rateRelation (s.rdn R.MER_CAD_NUM) (s.rdn R.MER_CAD_DEN) (s.f (F.ENC_CH_RATE_NUM n)) (s.f (F.ENC_CH_RATE_DEN n))).getD (1, 1)

/-- The virtual start of channel frame k (its ST 2059-1 index): a Meridian frame whose count is a multiple of m, or line
k × L_M / m of one (R35). -/
def State.chanStart (s : State) (n k : Nat) : Nat :=
  let r := s.chanRel n
  ((((k / r.1 * r.2 : Nat) : Int) - s.clk.frameOfs) * (s.clk.fu : Int)).toNat + k % r.1 * s.clk.fu / r.1

/-- The index of the channel frame in progress at a virtual position. -/
def State.chanIdx (s : State) (n v : Nat) : Nat :=
  let r := s.chanRel n
  s.clk.frameOf v / r.2 * r.1 + v % s.clk.fu * r.1 / s.clk.fu

/-- The position before which no frame of encode channel n starts: after a step, the rebased start of the frame that would have followed (R42). -/
def State.minStart (s : State) (n : Nat) : Nat := Tab.get (fun _ => 0) s.mer.minStart n

/-- The first channel frame that starts at or after a virtual position: (index, start). The Meridian frames that a step leaves in between start
none (R42). -/
def State.chanFrom (s : State) (n v : Nat) : Nat × Nat :=
  let v := max v (s.minStart n)
  let k := s.chanIdx n v
  if v ≤ s.chanStart n k then (k, s.chanStart n k) else (k + 1, s.chanStart n (k + 1))

/-- Time runs on to a channel frame start, for a decision of class `cls`: the state there, the frame's index and start. -/
def State.toChanStart (s : State) (cls n : Nat) : Option (State × Nat × Nat) :=
  if !s.clk.run then none else
  let k := s.chanIdx n s.clk.vpos
  let v := s.chanStart n k
  let kv := if s.clk.classOk cls v then (k, v) else (k + 1, s.chanStart n (k + 1))
  let kv := if kv.2 < s.minStart n then s.chanFrom n kv.2 else kv
  (s.toPos cls kv.2).map (fun t => (t, kv.1, kv.2))

/-- Time runs on to the first channel frame start that is also after a position. -/
def State.toChanAfter (s : State) (cls n v0 : Nat) : Option (State × Nat × Nat) :=
  match s.toChanStart cls n with
  | none => none
  | some (t, k, v) =>
    if v0 < v then some (t, k, v)
    else let kv := s.chanFrom n (v0 + 1); (s.toPos cls kv.2).map (fun t => (t, kv.1, kv.2))

/-- Has the Meridian a position: is it neither OFF nor STARTING (R425)? -/
def State.merRuns (s : State) : Bool := s.clk.run && s.fn fnMer != .off && s.fn fnMer != .starting

/-- The word of a held register `a` that is in force in the Meridian frame that starts at `d` (R233, R425). -/
def State.wordAt (s : State) (a d : Nat) : Nat :=
  let h := Tab.get (fun _ => ({} : Held)) s.held a
  if h.pend = [] then s.rdn a
  else match (h.pend.filter (fun p => decide (p.1 < d))).getLast? with
    | some p => p.2.toNat
    | none => h.inForce.toNat

/-- An origin register [31:16] lines, [15:0] fraction, as fraction units: it is the word itself. -/
def State.originOf (s : State) (a : Nat) : Nat := (s.inForce a).toNat

/-- T of R91: the time the Meridian follows, ns: the followed PTP domain's, or the STC. -/
def State.mediaTime (s : State) : Nat :=
  match s.f F.MER_STATUS_SRC with
  | 1 => ((s.clk.stc : Int) + (Tab.get (fun _ => ({} : DomSt)) s.ptp.doms 0).ofs).toNat
  | 2 => ((s.clk.stc : Int) + (Tab.get (fun _ => ({} : DomSt)) s.ptp.doms 1).ofs).toNat
  | _ => s.clk.stc

/-- R91: the input frame k nearest to a media timestamp of `bits` bits at time t, rate num/den. -/
def mediaFrame (t ts bits num den : Nat) : Nat :=
  let now90 := t * 9 / 100000
  let age := (now90 + 2 ^ bits - ts % 2 ^ bits) % 2 ^ bits
  ((now90 - age) * num + 45000 * den) / (90000 * den)

end Sys2Proof.Machine
end

