-- ==== Sys2Proof/Machine/Mer.lean ====
section
/-!
DEFINITION. Sys2Proof/Machine/Mer.lean: the Meridian (spec/02_meridian_timebase.md): sources and their choice, phase error,
slewing, steps and the hold, dead reckoning, reference failures, peer comparison. MER_STATUS.STATE codes: 0 ACQUIRING,
1 LOCKED, 2 SLEWING, 3 STEP_PENDING, 4 DEAD_RECKONING, 5 RATE_HOLD (R49).
-/

namespace Sys2Proof.Machine

/-! ## PTP domains as the Meridian sees them -/

/-- State of PTP domain x (0 A, 1 B). -/
def State.dom (s : State) (x : Nat) : DomSt := Tab.get (fun _ => ({} : DomSt)) s.ptp.doms x

/-- Set the state of PTP domain x. -/
def State.setDom (s : State) (x : Nat) (d : DomSt) : State :=
  { s with ptp := { s.ptp with doms := Tab.put (fun _ => ({} : DomSt)) s.ptp.doms x d } }

/-- Domain time T_d = STC + o_d, ns (R55). -/
def State.domTime (s : State) (x : Nat) : Nat := ((s.clk.stc : Int) + (s.dom x).ofs).toNat

/-- The domain that steers the DCO (R56): the one the Meridian follows, else PTP_CTL.STEER. -/
def State.steerWanted (s : State) : Nat :=
  match s.f F.MER_STATUS_SRC with | 1 => 0 | 2 => 1 | _ => s.f F.PTP_CTL_STEER

/-- The agreement tolerance of R58, ns: the smaller of PTP_SW_TOL and MER_PLAUS at the cadence, rounded down. -/
def State.agreeTol (s : State) : Nat :=
  min (s.rdn R.PTP_SW_TOL) (s.f F.MER_PLAUS_PLAUS * s.clk.den * 1000000000 / (65536 * s.clk.num * s.clk.lm))

/-- Does domain x agree with the steering domain (R58)? -/
def State.agrees (s : State) (x : Nat) : Bool :=
  decide (((s.dom x).ofs - (s.dom s.ptp.steer).ofs).natAbs ≤ s.agreeTol)

/-- AGREE of a domain brought up to date; a fall to 0 sets DISAGREE (R58). -/
def State.updateAgree (s : State) (x : Nat) : State :=
  if s.f (F.PTP_X_STATUS_STATE x) = 0 then s else
  let a := s.agrees x
  let was := s.on (F.PTP_X_STATUS_AGREE x)
  let s := s.setF (F.PTP_X_STATUS_AGREE x) (if a then 1 else 0)
  if was && !a then s.setF F.PTP_FLAGS_DISAGREE 1 else s

/-- AGREE of both domains brought up to date (R58). -/
def State.agreeNow (s : State) : State := (s.updateAgree 0).updateAgree 1

/-- Is domain x reported as locked to the Meridian (R58)? -/
def State.domReports (s : State) (x : Nat) : Bool :=
  let st := s.f (F.PTP_X_STATUS_STATE x)
  (st == 3 || st == 5) && (s.ptp.steer == x || s.f F.MER_STATUS_SRC != (if x = 0 then 2 else 1) || s.agrees x)

/-- The DCO frequency in force: it moves toward the servo's f at no more than 10 ppm/µs, 2,560 units of 1/256 ppb per ns (R56). -/
def State.dcoNow (s : State) : Int :=
  let m : Int := 2560 * ((s.clk.ns - s.ptp.fAt : Nat) : Int)
  s.ptp.f0 + clampI (-m) m (s.ptp.f - s.ptp.f0)

/-- Steering passes to the domain R56 names: the new integrator starts at the f in force, FREQ of the other reads 0, and
event 0x0307 is raised (R56, R59). -/
def State.updateSteer (s : State) : State :=
  let w := s.steerWanted
  if w = s.ptp.steer then s else
  let old := s.ptp.steer
  let s := { s with ptp := { s.ptp with steer := w } }
  let s := s.setDom w { s.dom w with integ := s.dcoNow }
  let s := (s.setF F.PTP_STATUS_STEERING w).setF (F.PTP_X_STATUS_STEERING old) 0
  let s := if s.f (F.PTP_X_STATUS_STATE w) ≠ 0 then (s.setF (F.PTP_X_STATUS_STEERING w) 1).wrn (R.PTP_X_FREQ w) (ofSigned 32 s.ptp.f) else s
  ((s.wrn (R.PTP_X_FREQ old) 0).agreeNow).raise 0x0307 w

/-! ## Sources (R37-R39) -/

/-- The source position at PTP time t (R37): frame count and position within the frame in fraction units. -/
def ptpPosition (num den lm t : Nat) : Nat × Nat :=
  (t * num / (den * 1000000000), t * num % (den * 1000000000) * lm * 65536 / (den * 1000000000))

/-- Does a source report lock (R39, R58)? Codes as MER_STATUS.SRC. -/
def State.srcLocked (s : State) (src : Nat) : Bool :=
  match src with
  | 1 => s.on F.PTP_CTL_EN && s.domReports 0
  | 2 => s.on F.PTP_CTL_EN && s.domReports 1
  | 3 => s.mer.refLocked
  | _ => false

/-- The source the Meridian is to follow (R39): the first locked one of MER_SRC_PRI with AUTO 1, else MER_SRC_SEL while it
is locked; 0 for none. -/
def State.chooseSrc (s : State) : Nat :=
  if s.on F.MER_CTL_AUTO then
    ([s.f F.MER_SRC_PRI_FIRST, s.f F.MER_SRC_PRI_SECOND, s.f F.MER_SRC_PRI_THIRD].find? (fun c => s.srcLocked c)).getD 0
  else if s.srcLocked (s.f F.MER_SRC_SEL_SRC) then s.f F.MER_SRC_SEL_SRC else 0

/-- A difference of positions reduced to the nearest multiple of `per`, in (−per/2, per/2]. -/
def nearest (per : Nat) (d : Int) : Int :=
  let r := d % (per : Int)
  if 2 * r ≤ per then r else r - per

/-- The phase error e of a source against the Meridian now, in fraction units (R41). REF_IN marks frame starts whose
count is a multiple of PERIOD; its stamp is corrected by MER_REF_OFS (R30, R38); since its last pulse it runs on at the cadence (R44). -/
def State.phaseError (s : State) (src : Nat) : Int :=
  match src with
  | 3 =>
    let per := s.f F.MER_REF_CTL_PERIOD * s.clk.fu
    let since := match s.mer.refLast with | some t => s.clk.nsToUnits (s.clk.ns - t) | none => 0
    nearest per ((since : Int) - (((s.clk.frame * s.clk.fu + s.clk.vpos % s.clk.fu : Nat) : Int) - signedOf 32 (s.rdn R.MER_REF_OFS)))
  | _ =>
    let t := s.domTime (if src = 2 then 1 else 0)
    let p := ptpPosition s.clk.num s.clk.den s.clk.lm t
    ((p.1 * s.clk.fu + p.2 : Nat) : Int) - ((s.clk.frame * s.clk.fu + s.clk.vpos % s.clk.fu : Nat) : Int)

/-- The first virtual frame start strictly after now. -/
def Clock.nextFrameV (c : Clock) : Nat := (c.vpos / c.fu + 1) * c.fu

/-- Slew toward a phase error (R41): no more than SLEW ppm; LOCKED when it is 0. -/
def State.slewBy (s : State) (e : Int) : State :=
  let r : Int := s.f F.MER_REACQ_SLEW
  let s := s.wrn R.MER_PHASE_ERR (sat32 e)
  if e = 0 then { (s.setF F.MER_STATUS_STATE 1) with clk := { s.clk with slew := 0 } }
  else { (s.setF F.MER_STATUS_STATE 2) with clk := { s.clk with slew := if 0 < e then r else -r } }

/-- Take the step path: complete the frame, then hold (R41). -/
def State.stepPending (s : State) (at_ : Nat) : State :=
  { (s.setF F.MER_STATUS_STATE 3) with clk := { s.clk with slew := 0, holdAt := some at_ } }

/-- Act on the phase error of the source now followed (R41): slew within STEP_THR or under the slew policy, else step; the
first lock after start always steps. -/
def State.acquire (s : State) (src : Nat) : State :=
  let e := s.phaseError src
  let s := ((s.setF F.MER_STATUS_SRC src).updateSteer).probe 11 (fun _ => true) e
  if s.mer.firstLock && (decide (e.natAbs ≤ s.f F.MER_REACQ_STEP_THR) || s.f F.MER_CTL_STEP_POL == 0) then s.slewBy e
  else (s.wrn R.MER_PHASE_ERR (sat32 e)).stepPending s.clk.nextFrameV

/-- Reacquire a source under R41: event 0x0206, except on the first lock after start, which acquires (R40). -/
def State.reacquire (s : State) (src : Nat) : State :=
  if s.mer.firstLock then (s.acquire src).raise 0x0206 src else s.acquire src

/-- The source followed is another one: the runs and the failures that concerned the old one are gone (R46). -/
def MerSt.dropFailures (m : MerSt) : MerSt :=
  { m with jumpRun := 0, rateRun := 0, returnRun := 0, pendStop := false, pendRate := false, pendJump := false }

/-- MER_PHASE_ERR keeps the last e of a PTP source, which is evaluated at every edge of MTCLK (R41, R49). -/
def State.keepErr (s : State) : State :=
  if s.f F.MER_STATUS_SRC = 1 ∨ s.f F.MER_STATUS_SRC = 2 then s.wrn R.MER_PHASE_ERR (sat32 (s.phaseError (s.f F.MER_STATUS_SRC))) else s

/-- Enter dead reckoning (R43): phase and rate kept, no slew offset; event 0x0202. -/
def State.deadReckon (s : State) (st : Nat) : State :=
  let s := ((s.keepErr.setF F.MER_STATUS_SRC 0).setF F.MER_STATUS_STATE st).updateSteer
  { s with clk := { s.clk with slew := 0, holdAt := none }, mer := s.mer.dropFailures }

/-- Follow another source (R39): SWITCH and event 0x0207; between PTP domains the phase is continuous and the error is
slewed (R59), otherwise it is a reacquisition. -/
def State.switchSrc (s : State) (src : Nat) : State :=
  let old := s.f F.MER_STATUS_SRC
  let s := if old ≠ src then (s.setF F.MER_FLAGS_SWITCH 1).raise 0x0207 src else s
  let s := { s with mer := if old = src then { s.mer with jumpRun := 0, rateRun := 0 } else s.mer.dropFailures }
  if (old = 1 ∨ old = 2) ∧ (src = 1 ∨ src = 2) ∧ s.mer.firstLock = true then
    let s := (s.setF F.MER_STATUS_SRC src).updateSteer
    (s.probe 11 (fun _ => true) (s.phaseError src)).slewBy (s.phaseError src)
  else s.reacquire src

/-- A Meridian that follows no source takes the one that R39 names, where there is one. A REF_IN whose rate has
changed is not taken while the old rate is held (R45). -/
def State.followUp (s : State) : State :=
  if !s.active fnMer then s else
  let want := s.chooseSrc
  if want = 0 ∨ s.f F.MER_STATUS_SRC ≠ 0 ∨ (want = 3 ∧ s.f F.MER_STATUS_STATE = 5) then s else s.switchSrc want

/-- A source has begun to report lock: since when is kept (R39); the Meridian takes it where it follows none. -/
def State.sourceUp (s : State) (src : Nat) : State :=
  if !s.active fnMer then s else
  { s with mer := { s.mer with lockSince := Tab.put (fun _ => 0) s.mer.lockSince src (s.clk.vpos / s.clk.fu) } }.followUp

/-- A source has stopped (R44): for the one followed, a stop is confirmed and waits for a frame start. -/
def State.sourceDown (s : State) (src : Nat) : State :=
  if src ≠ 0 ∧ s.f F.MER_STATUS_SRC = src then { s with mer := { s.mer with pendStop := true } } else s

/-! ## Commands -/

/-- The first frame start after every stamp so far: where the Meridian stands, at (0, 0), once enabled or disabled. -/
def State.freshV (s : State) (lm : Nat) : Nat := (s.clk.vpos / (lm * 65536) + 1) * (lm * 65536)

/-- The frame offset that makes a virtual position frame 0. -/
def zeroOfs (v lm : Nat) : Int := -((v / (lm * 65536) : Nat) : Int)

/-- While the Meridian is not enabled, the cadence that positions and line units are reckoned with is that of the registers (R33). -/
def State.cadSet (s : State) : State :=
  let lm := s.f F.MER_CAD_LINES_L_M
  let v := s.freshV lm
  { s with clk := { s.clk with num := s.rdn R.MER_CAD_NUM, den := s.rdn R.MER_CAD_DEN, lm := lm, hpos := v * 4294967296, frameOfs := zeroOfs v lm } }

/-- R40: MER_CTL.EN = 1 starts the Meridian at (0, 0) with the cadence registers (R33), READY on dead reckoning with
START_DR, else STARTING; a source already locked is acquired. `new` is the whole new MER_CTL. -/
def State.merEnable (s : State) (new : Word) : State :=
  let s := s.wr R.MER_CTL new
  if s.active fnMer then s else
  let s := s.cadSet
  let s := { s with
    clk := { s.clk with run := true, res := 0, slew := 0, holdAt := none, clsAt := 0, cls := 0 }
    mer := { s.mer.dropFailures with firstLock := false, lockSince := [1, 2, 3].map (fun x => (x, s.clk.vpos / s.clk.fu)), minStart := [] } }
  let s := s.setF F.MER_STATUS_ALT 0
  let s := s.setFn fnMer .starting
  let s := if s.on F.MER_CTL_START_DR then ((s.setF F.MER_STATUS_STATE 4).setFn fnMer .ready) else s.setF F.MER_STATUS_STATE 0
  if s.chooseSrc = 0 then s else s.switchSrc s.chooseSrc

/-- EN = 0: the Meridian stops and enters OFF (R373); PTP_CTL.STEER names the steering domain again (R56). Whether REF_IN is locked is kept
(assumption 89). -/
def State.merDisable (s : State) (new : Word) : State :=
  let s := ((((s.keepErr.wr R.MER_CTL new).wrn R.MER_STATUS 0).setFn fnMer .off).updateSteer).cadSet
  { s with clk := { s.clk with run := false, res := 0, slew := 0, holdAt := none, clsAt := 0 }
           mer := { s.mer.dropFailures with firstLock := false, loadArmed := false, minStart := [] } }

/-- The interval between two REF_IN pulses against PERIOD frames of the cadence, in fraction units (R39). -/
def State.refInterval (s : State) (dns : Nat) : Int :=
  ((dns * s.clk.num * s.clk.lm * 65536 / (s.clk.den * 1000000000) : Nat) : Int)
    - ((s.f F.MER_REF_CTL_PERIOD * s.clk.fu : Nat) : Int)

/-- Is a measured pulse period within MER_RATE_TOL of a rate (R44, R45)? -/
def State.rateMatches (s : State) (dns num den : Nat) : Bool :=
  let want := s.f F.MER_REF_CTL_PERIOD * den * 1000000000
  decide (((dns * num : Nat) - (want : Int)).natAbs * 1000000 ≤ s.f F.MER_RATE_TOL_TOL * want)

/-- R38: an armed load sets the count of the frame that this pulse starts. -/
def State.takeLoad (s : State) : State :=
  if s.mer.loadArmed then
    let n : Nat := s.rd64 R.MER_FRAME_LOAD_LO R.MER_FRAME_LOAD_HI
    let v := (s.clk.vpos + s.clk.fu / 2) / s.clk.fu
    { s with clk := { s.clk with frameOfs := (n : Int) - (v : Int) }, mer := { s.mer with loadArmed := false } }
  else s

/-- A pulse while REF_IN is not locked: lock counting (R39). -/
def State.refCount (s : State) (dns : Option Nat) : State :=
  let ok := match dns with
    | some d => decide ((s.refInterval d).natAbs ≤ s.f F.MER_PLAUS_PLAUS)
    | none => false
  let run := if ok then s.mer.refRun + 1 else 1
  if s.f F.MER_REF_CTL_CONFIRM ≤ run then
    { s with mer := { s.mer with refRun := run, refLocked := true, jumpRun := 0, rateRun := 0 } }.sourceUp 3
  else { s with mer := { s.mer with refRun := run } }

/-- One glitch counted (R44). -/
def State.glitch (s : State) : State := ((s.bump R.MER_GLITCH_CNT).setF F.MER_FLAGS_GLITCH 1).raise 0x0203 0

/-- A confirmed rate change (R44): counted, flagged, event 0x0204. -/
def State.rateConfirmed (s : State) : State := ((s.bump R.MER_RATE_CNT).setF F.MER_FLAGS_RATE_CHG 1).raise 0x0204 0

/-- The state of the Meridian that no register holds, changed. -/
def State.updMer (s : State) (f : MerSt → MerSt) : State := { s with mer := f s.mer }

/-- A measured period outside the cadence starts or lengthens the run that confirms a rate change (R44). -/
def MerSt.rateSeen (m : MerSt) (confirm dns : Nat) (ok : Bool) : MerSt :=
  if ok then { m with measNs := dns, rateRun := 0 }
  else { m with measNs := dns, rateRun := m.rateRun + 1, pendRate := m.pendRate || decide (confirm ≤ m.rateRun + 1) }

/-- A phase error beyond PLAUS starts or lengthens the run that confirms a jump (R44). -/
def MerSt.jumpSeen (m : MerSt) (confirm : Nat) (inRate : Bool) : MerSt :=
  { m with jumpRun := m.jumpRun + 1, pendJump := m.pendJump || (inRate && decide (confirm ≤ m.jumpRun + 1)) }

/-- A pulse of the followed, locked REF_IN is classified (R44): rate change, phase jump, glitch, or an error to slew. One error beyond PLAUS
with the next back inside is a glitch; more than one but fewer than CONFIRM are none (assumption 89). MER_PHASE_ERR shows every e (R49). -/
def State.refObserve (s : State) (dns : Nat) : State :=
  let e := s.phaseError 3
  let s := (s.probe 11 (fun _ => true) e).wrn R.MER_PHASE_ERR (sat32 e)
  let inRate := s.rateMatches dns s.clk.num s.clk.den
  let t := s.updMer (fun m => m.rateSeen (s.f F.MER_REF_CTL_CONFIRM) dns inRate)
  if s.f F.MER_PLAUS_PLAUS < e.natAbs then t.updMer (fun m => m.jumpSeen (s.f F.MER_REF_CTL_CONFIRM) inRate)
  else
    let g := if s.mer.jumpRun = 1 then t.glitch else t
    let u := g.updMer (fun m => { m with jumpRun := 0, pendJump := false })
    if s.clk.holdAt.isSome then u
    else if e.natAbs ≤ s.f F.MER_REACQ_STEP_THR then u.slewBy e
    else if s.f F.MER_CTL_STEP_POL = 0 then u.slewBy e
    else u

/-- A pulse during RATE_HOLD: CONFIRM periods back within MER_RATE_TOL are a confirmed rate change (R45). -/
def State.refReturn (s : State) (dns : Nat) : State :=
  if s.rateMatches dns s.clk.num s.clk.den then
    { s with mer := { s.mer with returnRun := s.mer.returnRun + 1,
                                 pendRate := s.mer.pendRate || decide (s.f F.MER_REF_CTL_CONFIRM ≤ s.mer.returnRun + 1) } }
  else { s with mer := { s.mer with returnRun := 0, pendRate := false } }

/-- R38, R39, R44, R45: a REF_IN edge. Only the edge that EDGE selects marks a frame start. -/
def State.refInPulse (s : State) (rising : Bool) : State :=
  if !s.clk.run || (s.on F.MER_REF_CTL_EDGE == rising) then s else
  let dns := s.mer.refLast.map (fun t => s.clk.ns - t)
  let s := { s with mer := { s.mer with refLast := some s.clk.ns } }
  let s := s.takeLoad
  if !s.mer.refLocked then s.refCount dns
  else match dns with
    | none => s
    | some d =>
      if s.f F.MER_STATUS_SRC = 3 then s.refObserve d
      else if s.f F.MER_STATUS_STATE = 5 then s.refReturn d
      else s

/-- R44: no pulse within the window around MISS consecutive expected positions: REF_IN has stopped. Time runs on to the
end of the last of those windows, which are counted from the last pulse of any kind (assumption 89). -/
def State.refInMiss (s : State) : State :=
  if !s.clk.run then s else
  match s.mer.refLast with
  | none => s
  | some t =>
    let frames := s.f F.MER_REF_CTL_MISS * s.f F.MER_REF_CTL_PERIOD
    let win := s.f F.MER_PLAUS_PLAUS * s.clk.den * 1000000000 / (65536 * s.clk.num * s.clk.lm)
    let s := s.toNs (t + frames * s.clk.den * 1000000000 / s.clk.num + win + 1)
    let was := s.mer.refLocked
    let s := { s with mer := { s.mer with refLocked := false, refRun := 0, refLast := none, jumpRun := 0, rateRun := 0, returnRun := 0 } }
    if was then s.sourceDown 3 else s

/-- R59: where the Meridian would pass from one PTP domain to the other, which is locked and does not agree: event 0x0308. -/
def State.disagreeEvent (s : State) : State :=
  let cur := s.f F.MER_STATUS_SRC
  let other := if cur = 1 then 2 else 1
  let st := s.f (F.PTP_X_STATUS_STATE (other - 1))
  if (cur = 1 ∨ cur = 2) ∧ (st = 3 ∨ st = 5) ∧ s.srcLocked other = false then s.raise 0x0308 0 else s

/-- R46, first: a stop whose source is still selected and still stopped. Event 0x0202; the next locked source, else dead
reckoning. -/
def State.actStop (s : State) : State :=
  let cur := s.f F.MER_STATUS_SRC
  let s := { s with mer := { s.mer with pendStop := false } }
  let s := ((s.bump R.MER_STOP_CNT).setF F.MER_FLAGS_STOP 1).raise 0x0202 cur
  let s := if s.on F.MER_CTL_AUTO then s.disagreeEvent else s
  if s.on F.MER_CTL_AUTO = true ∧ s.chooseSrc ≠ 0 then s.switchSrc s.chooseSrc else s.deadReckon 4

/-- R45: a followed rate change needs the measured rate to match the other rate and every enabled channel to pass R23 and
R35 at it; R35 holds again because channel rates scale with the cadence. -/
def State.followOk (s : State) (num den : Nat) : Bool :=
  decide (num ≠ 0) && s.rateMatches s.mer.measNs num den
    && s.encBudgetOk (num * s.rdn R.MER_CAD_DEN) (den * s.rdn R.MER_CAD_NUM)

/-- R45: a confirmed rate change acts: counted, flagged, event 0x0204; hold at the old rate, or adopt the other rate with
a step. -/
def State.actRate (s : State) : State :=
  let s := s.rateConfirmed
  let s := { s with mer := { s.mer with pendRate := false, pendJump := false } }
  if s.on F.MER_CTL_RATE_POL then
    let alt := s.on F.MER_STATUS_ALT
    let num := if alt then s.rdn R.MER_CAD_NUM else s.rdn R.MER_ALT_NUM
    let den := if alt then s.rdn R.MER_CAD_DEN else s.rdn R.MER_ALT_DEN
    if s.followOk num den then
      let s := s.setF F.MER_STATUS_ALT (if alt then 0 else 1)
      let s := { s with clk := { s.clk with num := num, den := den }, mer := { s.mer with rateRun := 0, jumpRun := 0 } }.agreeNow
      s.stepPending (s.clk.vpos / s.clk.fu * s.clk.fu)
    else ((s.deadReckon 5).setF F.MER_FLAGS_FOLLOW_REF 1).raise 0x0209 0
  else s.deadReckon 5

/-- A failure has been acted on at this frame start (R46). -/
def State.acted (s : State) (v : Nat) : State := { s with mer := { s.mer with actedV := some v } }

/-- The next frame start at which no failure has yet been acted on (R46). -/
def State.failureV (s : State) : Nat :=
  let v := s.clk.nextOf 1 0 s.clk.fu 0
  if s.mer.actedV = some v then v + s.clk.fu else v

/-- R46: at a frame start, the first failure of stop, rate change, phase jump that still holds is acted on; those that no
longer hold are discarded. A stop while a step is pending cancels the step; the Meridian then takes a source that is locked (R39). -/
def State.failureAction (s : State) : State :=
  match s.clk.holdAt with
  | some h =>
    if s.mer.pendStop && !s.srcLocked (s.f F.MER_STATUS_SRC) then
      let s := s.elapse (s.clk.ticksTo h)
      ((((s.acted h).bump R.MER_STOP_CNT).setF F.MER_FLAGS_STOP 1).raise 0x0202 (s.f F.MER_STATUS_SRC)).deadReckon 4 |>.followUp
    else s
  | none =>
    let v := s.failureV
    match s.toPos 1 v with
    | none => s
    | some s =>
      let cur := s.f F.MER_STATUS_SRC
      if s.mer.pendStop && decide (cur ≠ 0) && !s.srcLocked cur then (s.acted v).actStop
      else
        let s := { s with mer := { s.mer with pendStop := false } }
        if s.mer.pendRate && decide (s.f F.MER_STATUS_STATE = 5) then
          let s := { s.rateConfirmed with mer := { s.mer with pendRate := false, returnRun := 0, rateRun := 0, jumpRun := 0, actedV := some v } }
          let src := if s.srcLocked 3 then 3 else s.chooseSrc
          if src == 0 then s.setF F.MER_STATUS_STATE 4 else s.switchSrc src
        else if s.mer.pendRate && decide (cur = 3) && !s.rateMatches s.mer.measNs s.clk.num s.clk.den then (s.acted v).actRate
        else
          let s := { s with mer := { s.mer with pendRate := false } }
          if s.mer.pendJump && decide (cur ≠ 0) && decide (s.f F.MER_PLAUS_PLAUS < (s.phaseError cur).natAbs) then
            ({ s with mer := { s.mer with pendJump := false, jumpRun := 0, actedV := some v } }).reacquire cur
          else { s with mer := { s.mer with pendJump := false } }

/-- Frame starts of the followed source: (wait in ns until the next one, its count n') (R41). REF_IN keeps the Meridian's
own count, with pulses on multiples of PERIOD (R38), a pulse's stamp corrected by MER_REF_OFS (R30). -/
def State.sourceFrame (s : State) (own : Nat) : Nat × Nat :=
  let d := s.clk.den * 1000000000
  match s.f F.MER_STATUS_SRC with
  | 3 =>
    let per : Int := ((max 1 (s.f F.MER_REF_CTL_PERIOD) : Nat) : Int)
    let ofs : Int := signedOf 32 (s.rdn R.MER_REF_OFS) * (d : Int) / ((s.clk.num * s.clk.fu : Nat) : Int)
    let t : Int := ((s.clk.ns - s.mer.refLast.getD s.clk.ns : Nat) : Int) + ofs
    let j : Int := -((-(t * (s.clk.num : Int))) / (d : Int))
    ((-((-(j * (d : Int))) / (s.clk.num : Int)) - t).toNat, own + ((j - (own : Int)) % per).toNat)
  | src =>
    let t := s.domTime (if src = 2 then 1 else 0)
    let n := ceilDiv (t * s.clk.num) d
    (ceilDiv (n * d) s.clk.num - t, n)

/-- A GDR restart is requested on every running encode channel (R42). -/
def State.restartAll (s : State) : State :=
  (List.range 32).foldl (fun s n => if s.active (fnEnc n) then s.setRestart n true else s) s

/-- R42: per channel whose rate is the cadence rate divided by m, the start that its next frame would have had, at or after the held position. -/
def State.minStarts (s : State) (h : Nat) : Tab Nat :=
  (List.range 32).foldl (fun t n =>
    if 1 < (s.chanRel n).2 then Tab.put (fun _ => 0) t n (s.chanStart n (s.chanIdx n (h - 1) + 1)) else t) []

/-- R41, R42: after the hold, the Meridian resumes as (n', 0) at the source's next frame start; positions already scheduled
keep their line distance (they are virtual). Event 0x0205; channels restart; a STARTING Meridian enters READY. -/
def State.meridianResume (s : State) : State :=
  match s.clk.holdAt with
  | none => s
  | some h =>
    let s := s.elapse (s.clk.ticksTo h)
    let sf := s.sourceFrame (s.clk.frameOf h)
    let s := s.elapse (ceilDiv (sf.1 + s.clk.ns % 4) 4)
    let mins := s.minStarts h
    let first := !s.mer.firstLock
    let s := { s with
      clk := { s.clk with hpos := h * 4294967296, holdAt := none, res := 0, frameOfs := (sf.2 : Int) - ((h / s.clk.fu : Nat) : Int), clsAt := h + 1, cls := 1 }
      mer := { s.mer with firstLock := true, pendJump := false, jumpRun := 0, minStart := mins } }
    let s := (((s.wrn R.MER_PHASE_ERR 0).setF F.MER_STATUS_STATE 1).bump R.MER_STEP_CNT).setF F.MER_FLAGS_STEP 1
    let s := (s.raise 0x0205 0).restartAll
    if first && s.fn fnMer == .starting then s.setFn fnMer .ready else s

/-- R39: with REVERT 1, the first locked source, where it is not the one followed, is taken at the next frame start once it has held lock for
MER_REVERT_HOLD frames. A source followed that has itself stopped is left to the failure's action (R46). -/
def State.sourceRevert (s : State) : State :=
  let want := s.chooseSrc
  let cur := s.f F.MER_STATUS_SRC
  if !(s.on F.MER_CTL_REVERT && s.on F.MER_CTL_AUTO && s.srcLocked cur) || decide (want = cur) then s.followUp else
  let due := (Tab.get (fun _ => 0) s.mer.lockSince want + s.f F.MER_REVERT_HOLD_HOLD) * s.clk.fu
  let next := s.clk.nextOf 1 0 s.clk.fu 0
  match s.toPos 1 (max due next) with
  | none => s
  | some s => s.switchSrc want

/-- R38: MER_CMD.LOAD arms the frame load; a count that is not a multiple of PERIOD is refused. -/
def State.frameLoad (s : State) : State :=
  if s.rd64 R.MER_FRAME_LOAD_LO R.MER_FRAME_LOAD_HI % max 1 (s.f F.MER_REF_CTL_PERIOD) = 0 then
    { s with mer := { s.mer with loadArmed := true } }
  else s.refuse 0x02

/-- How many fraction units of the phase error the slew has still to remove; none once it has passed 0 (R41). -/
def State.slewLeft (s : State) : Nat :=
  let e := s.phaseError (s.f F.MER_STATUS_SRC)
  if 0 < s.clk.slew then e.toNat else (-e).toNat

/-- R41: the phase error has been slewed to zero; the rate offset ends and STATE leaves SLEWING. Time runs on until the
error that remains is gone at SLEW ppm. -/
def State.slewComplete (s : State) : State :=
  if s.f F.MER_STATUS_STATE = 2 then
    let s := s.elapse (ceilDiv (s.slewLeft * s.clk.den * 250000000 * 1000000) (s.clk.num * s.clk.lm * 65536 * s.clk.slew.natAbs))
    { ((s.setF F.MER_STATUS_STATE 1).wrn R.MER_PHASE_ERR 0) with clk := { s.clk with slew := 0 } }
  else s

/-- R48: a received time flit: its position, advanced by the link delay, against the own position; and its cadence. A
difference above MER_PEER_TOL in 8 flits on end, or any difference of cadence, sets PEER and raises event 0x0208. -/
def State.timeFlitCompare (s : State) (p : Nat) (t : TimeFlit) : State :=
  if !s.clk.run then s else
  let adv := s.rdn (R.CNV_LINK_DELAY p) * s.clk.num * s.clk.lm * 65536 / (s.clk.den * 1000000000)
  let theirs : Int := ((t.frame * s.clk.fu + t.line * 65536 + t.frac + adv : Nat) : Int)
  let mine : Int := ((s.clk.frame * s.clk.fu + s.clk.vpos % s.clk.fu : Nat) : Int)
  let d := (theirs - mine).natAbs
  let s := s.wrMax R.MER_PEER_ERR (min d 4294967295)
  let run := if s.f F.MER_PEER_TOL_TOL < d then Tab.get (fun _ => 0) s.mer.peerRun p + 1 else 0
  let cad := decide (t.num ≠ s.clk.num ∨ t.den ≠ s.clk.den ∨ t.lines ≠ s.clk.lm)
  let s := { s with mer := { s.mer with peerRun := Tab.put (fun _ => 0) s.mer.peerRun p (if run = 8 then 0 else run) } }
  if cad || run == 8 then (s.setF F.MER_FLAGS_PEER 1).raise 0x0208 p else s

end Sys2Proof.Machine
end

