-- ==== Sys2Proof/Machine/Ptp.lean ====
section
/-!
DEFINITION. Sys2Proof/Machine/Ptp.lean: network time (spec/03_network_time.md): the slave-only clock of two domains, the servo, steps
and jumps, the TOUT pulses and the TIN captures. PTP_x_STATUS.STATE codes: 0 OFF, 1 LISTENING, 2 ACQUIRING, 3 LOCKED,
4 HOLDOVER, 5 JUMP_REFUSED (R66).
-/

namespace Sys2Proof.Machine

/-- Compatibility mode: feature bit 9 is accepted (R61). -/
def State.compat (s : State) : Bool := s.feature 9

/-- Does a message reach domain x: PTP and the domain enabled, and the binding of PTP_x_CTL is the message's (R52)? -/
def State.bound (s : State) (x : Nat) (h : PtpHdr) : Bool :=
  s.on F.PTP_CTL_EN && s.on (F.PTP_X_CTL_EN x) && s.f (F.PTP_X_CTL_PORT x) == h.port
    && s.f (F.PTP_X_CTL_TRANSPORT x) == h.transport && s.f (F.PTP_X_CTL_DOMAIN x) == h.domain
    && s.f (F.PTP_X_CTL_VLAN x) == h.vlan

/-- Does a message come from the master that domain x has selected (R51)? -/
def State.fromParent (s : State) (x : Nat) (h : PtpHdr) : Bool := (s.dom x).parent == some h.source

/-- Act on every domain a message reaches. -/
def State.perDom (s : State) (h : PtpHdr) (op : State → Nat → State) : State :=
  let s := if s.bound 0 h then op s 0 else s
  if s.bound 1 h then op s 1 else s

/-- The asymmetry of the domain's port, signed ns (R53). -/
def State.asym (s : State) (x : Nat) : Int := signedOf 32 (s.rdn (R.PTP_PORT_ASYM (s.f (F.PTP_X_CTL_PORT x))))

/-- The offset o of a Sync sample received now (R55): domain time minus STC. -/
def State.sampleOffset (s : State) (x t1 : Nat) (cf : Int) : Int :=
  (t1 : Int) + cf + (s.dom x).mpd + s.asym x - (s.clk.stc : Int)

/-- The servo of the steering domain (R56): the new integrator and the new f, both clamped at ±250 ppm. -/
def servo (i o : Int) (kp ki : Nat) : Int × Int :=
  let i' := clampI (-64000000) 64000000 (i + sar (o * 256) ki)
  (i', clampI (-64000000) 64000000 (i' + sar (o * 256) kp))

/-- Run the servo for an accepted sample of the steering domain; a target beyond ±250 ppm raises event 0x0407 (R73). -/
def State.runServo (s : State) (x : Nat) (o : Int) : State :=
  let d := s.dom x
  let r := servo d.integ o (s.f (F.PTP_X_SERVO_KP x)) (s.f (F.PTP_X_SERVO_KI x))
  let raw := r.1 + sar (o * 256) (s.f (F.PTP_X_SERVO_KP x))
  let s := s.setDom x { d with integ := r.1 }
  let s := { s with ptp := { s.ptp with f0 := s.dcoNow, fAt := s.clk.ns, f := r.2 } }
  let s := s.wrn (R.PTP_X_FREQ x) (ofSigned 32 r.2)
  if raw < -64000000 ∨ 64000000 < raw then s.raise 0x0407 9 else s

/-- The Meridian observes the domain it follows at each accepted sample (R44; assumption 89): CONFIRM consecutive errors beyond MER_PLAUS are a
phase jump, one with the next back inside is a glitch, an error inside is slewed. MER_PHASE_ERR shows the last e (R49). -/
def State.observePtp (s : State) (x : Nat) : State :=
  if !s.clk.run || decide (s.f F.MER_STATUS_SRC ≠ x + 1) then s else
  let e := s.phaseError (x + 1)
  let s := (s.probe 11 (fun _ => true) e).wrn R.MER_PHASE_ERR (sat32 e)
  if s.f F.MER_PLAUS_PLAUS < e.natAbs then s.updMer (fun m => m.jumpSeen (s.f F.MER_REF_CTL_CONFIRM) true)
  else
    let g := if s.mer.jumpRun = 1 then s.glitch else s
    let u := g.updMer (fun m => { m with jumpRun := 0, pendJump := false })
    if s.clk.holdAt.isSome then u
    else if e.natAbs ≤ s.f F.MER_REACQ_STEP_THR ∨ s.f F.MER_CTL_STEP_POL = 0 then u.slewBy e
    else u

/-- The lock test of R57 after an accepted sample: |o| of a steering domain, |o_d − o_s| of the other, within LOCK_THR for
LOCK_CNT samples. -/
def State.lockTest (s : State) (x : Nat) (o : Int) : State :=
  let e := if s.ptp.steer = x then o else (s.dom x).ofs - (s.dom s.ptp.steer).ofs
  let run := if e.natAbs ≤ s.f (F.PTP_X_LOCK_LOCK_THR x) then (s.dom x).lockRun + 1 else 0
  let s := s.setDom x { s.dom x with lockRun := run }
  let st := s.f (F.PTP_X_STATUS_STATE x)
  let s := if st = 1 then s.setF (F.PTP_X_STATUS_STATE x) 2 else s
  if s.f (F.PTP_X_LOCK_LOCK_CNT x) ≤ run ∧ st ≠ 3 then
    let s := s.setDom x { s.dom x with firstLock := true }
    (s.setF (F.PTP_X_STATUS_STATE x) 3).raise 0x0302 x
  else s

/-- A domain that is reported as locked now and was not before (R58) comes up as a source of the Meridian. -/
def State.reportUp (s : State) (was : Bool) (src : Nat) : State := if !was && s.srcLocked src then s.sourceUp src else s

/-- What enters the agreement has changed, from `s0` to `s`: AGREE is brought up to date, and a domain that is reported as locked from now on comes up
(R58). -/
def State.agreeSince (s s0 : State) : State := (s.agreeNow.reportUp (s0.srcLocked 1) 1).reportUp (s0.srcLocked 2) 2

/-- The offsets of a domain, measured against the STC, after the STC has stepped by o. -/
def DomSt.shift (d : DomSt) (o : Int) : DomSt :=
  { d with ofs := d.ofs - o, lastOfs := d.lastOfs.map (fun l => l - o), jumpRun := d.jumpRun.map (fun l => l - o)
           refusedOfs := d.refusedOfs.map (fun l => l - o) }

/-- PTP_x_OFFSET of a domain that runs shows its o_d (R66). -/
def State.showOffset (s : State) (x : Nat) : State :=
  if s.f (F.PTP_X_STATUS_STATE x) = 0 then s else s.wrn (R.PTP_X_OFFSET x) (sat32 (s.dom x).ofs)

/-- The STC steps by o (R60): T_d is unchanged by the step, so o_d takes the opposite change (assumption 21); the flag, STEP_CNT and event
0x0305. Aligned clock outputs are to realign (R80). -/
def State.stcStep (s : State) (x : Nat) (o : Int) : State :=
  let s := { s with
    clk := { s.clk with stc := ((s.clk.stc : Int) + o).toNat }
    ckg := { s.ckg with realign := (List.range 4).foldl (fun t k =>
      if s.on (F.CKG_CLKOUT_CTL_EN k) && s.on (F.CKG_CLKOUT_CTL_ALIGN k) && decide (s.f (F.CKG_CLKOUT_CTL_SRC k) = 1)
      then Tab.put (fun _ => (none : Option Nat)) t k (some (ceilDiv ((s.clk.stc : Int) + o).toNat 1000000000)) else t) s.ckg.realign } }
  let s := (s.setDom x ((s.dom x).shift o)).setDom (1 - x) ((s.dom (1 - x)).shift o) |>.showOffset (1 - x)
  ((s.bump (R.PTP_X_STEP_CNT x)).setF (if x = 0 then F.PTP_FLAGS_STEP_A else F.PTP_FLAGS_STEP_B) 1).raise 0x0305 x

/-- Accept a sample (R55): o_d is its o; the servo runs or, on a jump beyond STEP_THR of the steering domain, the STC steps
(R60). -/
def State.acceptSample (s : State) (x : Nat) (o : Int) (jump : Bool) : State :=
  let d := s.dom x
  let was1 := s.srcLocked 1
  let was2 := s.srcLocked 2
  let s := (s.setDom x { d with ofs := o, lastOfs := some o, jumpRun := [], refusedOfs := none, lastUsed := some s.clk.ns }).probe 6 (fun i => i == x) o
  let s := s.bump (R.PTP_X_SYNC_CNT x)
  let s := if s.ptp.steer = x then
      if jump ∧ s.rdn (R.PTP_X_STEP_THR x) < o.natAbs then s.stcStep x o else s.runServo x o
    else s
  let s := (s.wrn (R.PTP_X_OFFSET x) (sat32 (s.dom x).ofs)).agreeNow
  ((((s.lockTest x o).reportUp was1 1).reportUp was2 2).observePtp x)

/-- The run of samples that may confirm a jump, with one more (R60): the latest consecutive ones that lie within OUTLIER of it, and so of one
another. -/
def jumpWith (lim : Nat) (run : List Int) (o : Int) : List Int := (run.reverse.takeWhile (fun p => decide ((o - p).natAbs ≤ lim))).reverse ++ [o]

/-- A rejected sample is counted and lengthens the run (R55, R60). It is a usable Sync and the last used one (assumption 89). -/
def State.rejectSample (s : State) (x : Nat) (o : Int) : State :=
  let d := s.dom x
  (s.bump (R.PTP_X_OUTLIER_CNT x)).setDom x { d with jumpRun := jumpWith (s.rdn (R.PTP_X_OUTLIER x)) d.jumpRun o, lastUsed := some s.clk.ns }

/-- A confirmed jump is taken (R60), or refused in compatibility mode (R61). -/
def State.takeJump (s : State) (x : Nat) (o : Int) : State :=
  let d := s.dom x
  if s.compat && d.firstLock && decide (s.rdn R.PTP_JUMP_THR < (o - d.ofs).natAbs) then
    let s := s.setDom x { d with jumpRun := [], refusedOfs := some o, lastUsed := some s.clk.ns }
    ((s.setF (F.PTP_X_STATUS_STATE x) 5).setF F.PTP_FLAGS_JUMP_REF 1).raise 0x0306 x
  else (if s.f (F.PTP_X_STATUS_STATE x) = 5 then s.setF (F.PTP_X_STATUS_STATE x) 3 else s).acceptSample x o true

/-- A Sync sample of domain x (R55, R60, R61). A domain that has selected no grandmaster, a sample of another master, or one closer than 7.8125 ms
to the last used one, uses none (R51). The sample that confirms a jump is accepted and not counted as rejected. -/
def State.syncSample (s : State) (h : PtpHdr) (t1 : Nat) (cf logInt : Int) (x : Nat) : State :=
  let s := s.setDom x { s.dom x with syncMac := h.mac }
  let d := s.dom x
  if !s.fromParent x h || (match d.lastUsed with | some t => decide (s.clk.ns - t < 7812500) | none => false) then s else
  let o := s.sampleOffset x t1 cf
  let s := s.setDom x { d with syncT1 := t1, syncT2 := s.clk.stc, syncCf := cf, syncSeen := true, syncLog := logInt }
  match d.lastOfs with
  | none => s.acceptSample x o true
  | some l =>
    if (o - l).natAbs ≤ s.rdn (R.PTP_X_OUTLIER x) then
      (if s.f (F.PTP_X_STATUS_STATE x) = 5 then s.setF (F.PTP_X_STATUS_STATE x) 3 else s).acceptSample x o false
    else if s.f (F.PTP_X_SERVO_STEP_CONFIRM x) ≤ (jumpWith (s.rdn (R.PTP_X_OUTLIER x)) d.jumpRun o).length then s.takeJump x o
    else s.rejectSample x o

/-- The comparison order of the BMCA data sets (R51). -/
def GmData.key (g : GmData) : List Nat := [g.pri1, g.cls, g.acc, g.var, g.pri2, g.ident, g.steps]

/-- Lexicographic order of two lists of numbers. -/
def listLt : List Nat → List Nat → Bool
  | a :: r, b :: t => decide (a < b) || (decide (a = b) && listLt r t)
  | _, _ => false

/-- Interval 2^log seconds in ns, for the logarithmic intervals of R51. -/
def logNs (l : Int) : Nat := if 0 ≤ l then 1000000000 * 2 ^ l.toNat else 1000000000 / 2 ^ (-l).toNat

/-- The best of the masters a domain hears (R51). -/
def bestMaster : List Master → Option Master
  | [] => none
  | m :: r => match bestMaster r with
    | some b => if listLt b.data.key m.data.key then some b else some m
    | none => some m

/-- The domain follows a master (R51, R66): a change of grandmaster raises event 0x0304 and keeps the last accepted o_d (R60). -/
def State.follow (s : State) (x : Nat) (m : Master) : State :=
  let d := s.dom x
  let changed := match d.gm with
    | none => s.rd64 (R.PTP_X_GM_LO x) (R.PTP_X_GM_HI x) != m.data.ident && d.lastOfs.isSome
    | some g0 => g0.ident != m.data.ident
  let s := s.setDom x { d with gm := some m.data, parent := some m.source, annLog := m.annLog, annAt := some m.annAt }
  let s := s.wr64 (R.PTP_X_GM_LO x) (R.PTP_X_GM_HI x) m.data.ident
  if changed then (s.setF F.PTP_FLAGS_GM_CHG 1).raise 0x0304 x else s

/-- An Announce of domain x feeds the BMCA (R51): the sender's data set is brought up to date, masters not heard for ANNOUNCE_TO intervals are
forgotten, and the best of the others is the master; UTC_OFS shows the latest Announce (R66). One Announce makes a master known (assumption 90). -/
def State.announce (s : State) (h : PtpHdr) (a : Announce) (x : Nat) : State :=
  let g : GmData := { pri1 := a.pri1, cls := a.cls, acc := a.acc, var := a.var, pri2 := a.pri2, ident := a.ident, steps := a.steps }
  let d := s.dom x
  let m : Master := { source := h.source, data := g, annLog := a.logInt, annAt := s.clk.ns }
  let fresh := d.masters.filter (fun y => y.source != h.source && decide (s.clk.ns < y.annAt + s.f (F.PTP_X_TIMEOUT_ANNOUNCE_TO x) * logNs y.annLog))
  let ms := m :: fresh
  let s := (s.setDom x { d with masters := ms }).wrn (R.PTP_X_UTC_OFS x) (a.utcOfs % 65536)
  match bestMaster ms with
  | some b => s.follow x b
  | none => s

/-- The averaged path delay takes a new measurement (R55). -/
def State.pathDelay (s : State) (x : Nat) (m : Int) : State :=
  let d := s.dom x
  let avg := if d.mpdSeen then d.mpd + sar (m - d.mpd) (s.f (F.PTP_X_SERVO_DELAY_AVG x)) else m
  (s.setDom x { d with mpd := avg, mpdSeen := true }).wrn (R.PTP_X_MPD x) (ofSigned 32 avg)

/-- R55 end-to-end: Delay_Resp supplies t4. -/
def State.delayResp (s : State) (h : PtpHdr) (t4 : Nat) (cf logMin : Int) (x : Nat) : State :=
  let d := s.dom x
  match d.t3 with
  | none => s
  | some t3 =>
    if s.on (F.PTP_X_CTL_DELAY x) || !d.syncSeen || !s.fromParent x h then s else
    let m := sar (((d.syncT2 : Int) - d.syncT1 - d.syncCf) + ((t4 : Int) - (t3 : Int) - cf)) 1
    (s.setDom x { d with t3 := none, reqLog := logMin }).pathDelay x m

/-- R55 peer-to-peer: the responder's t2p and t3p, and t4p now. -/
def State.pdelayResp (s : State) (t2p t3p : Nat) (cf : Int) (x : Nat) : State :=
  let d := s.dom x
  match d.t1p with
  | none => s
  | some t1p =>
    if !s.on (F.PTP_X_CTL_DELAY x) then s else
    let m := sar (((s.clk.stc : Int) - (t1p : Int)) - ((t3p : Int) - (t2p : Int)) - cf) 1
    (s.setDom x { d with t1p := none }).pathDelay x m

/-- R51: the Delay_Req interval expires and a Delay_Req leaves, unless the ports are muted (R397). Time runs on to the end of the interval; the next one
is a free value of up to twice 2^logMinDelayReqInterval s (assumption 90). -/
def State.delayReqSend (s : State) (x : Nat) : State :=
  if s.on F.PTP_CTL_EN && s.on (F.PTP_X_CTL_EN x) && !s.on (F.PTP_X_CTL_DELAY x) && (s.dom x).gm.isSome && !s.on F.BIN_STATUS_MUTED then
    let s := match (s.dom x).reqAt with | some t => s.toNs t | none => s
    let w := s.free
    let s := w.2
    (s.setDom x { s.dom x with t3 := some s.clk.stc, reqAt := some (s.clk.ns + w.1 % (2 * logNs (s.dom x).reqLog)) }).emit
      (.ptpDelayReq x (if s.on (F.PTP_X_CTL_HYBRID x) then some (s.dom x).syncMac else none))
  else s

/-- R51: a Pdelay_Req leaves every 2^(PDELAY_LOG - 3) s, unless the ports are muted (R397). Time runs on to that end. -/
def State.pdelayReqSend (s : State) (x : Nat) : State :=
  if s.on F.PTP_CTL_EN && s.on (F.PTP_X_CTL_EN x) && s.on (F.PTP_X_CTL_DELAY x) && !s.on F.BIN_STATUS_MUTED then
    let s := match (s.dom x).pdAt with | some t => s.toNs t | none => s
    (s.setDom x { s.dom x with t1p := some s.clk.stc,
                               pdAt := some (s.clk.ns + logNs ((s.f (F.PTP_X_TIMEOUT_PDELAY_LOG x) : Int) - 3)) }).emit (.ptpPdelayReq x)
  else s

/-- R51: a Pdelay_Req is answered as a two-step responder: the receipt stamp, then the sending stamp in a follow-up. -/
def State.pdelayReqReceive (s : State) (seq x : Nat) : State :=
  if s.on (F.PTP_X_CTL_DELAY x) && !s.on F.BIN_STATUS_MUTED then s.emit (.ptpPdelayResp x seq s.clk.stc s.clk.stc) else s

/-- A domain loses its source (R57): from LOCKED or JUMP_REFUSED it enters HOLDOVER, o_d held; the Meridian is told. From ACQUIRING it returns to
LISTENING (assumption 89). -/
def State.domLoss (s : State) (x : Nat) : State :=
  let st := s.f (F.PTP_X_STATUS_STATE x)
  let s := s.setDom x { s.dom x with lockRun := 0, jumpRun := [] }
  if st = 3 ∨ st = 5 then
    let s := ((s.setF (F.PTP_X_STATUS_STATE x) 4).setF (if x = 0 then F.PTP_FLAGS_LOSS_A else F.PTP_FLAGS_LOSS_B) 1).raise 0x0303 x
    s.sourceDown (x + 1)
  else if st = 2 then s.setF (F.PTP_X_STATUS_STATE x) 1
  else s

/-- R57: no Announce within ANNOUNCE_TO announce intervals; time runs on to the end of them. -/
def State.announceTimeout (s : State) (x : Nat) : State :=
  let d := s.dom x
  match d.annAt with
  | none => s
  | some t =>
    let s := s.toNs (t + s.f (F.PTP_X_TIMEOUT_ANNOUNCE_TO x) * logNs d.annLog)
    (s.setDom x { d with gm := none, annAt := none, parent := none, masters := d.masters.filter (fun y => decide (some y.source ≠ d.parent)) }).domLoss x

/-- R57: no usable Sync within SYNC_TO sync intervals; time runs on to the end of them. -/
def State.syncTimeout (s : State) (x : Nat) : State :=
  let d := s.dom x
  match d.lastUsed with
  | none => s
  | some t =>
    let s := s.toNs (t + s.f (F.PTP_X_TIMEOUT_SYNC_TO x) * logNs d.syncLog)
    (s.setDom x { d with lastUsed := none }).domLoss x

/-- R61: PTP_CMD.ACCEPT_A makes domain A take the refused jump under R60. -/
def State.acceptA (s : State) : State :=
  match (s.dom 0).refusedOfs with
  | some o =>
    if s.f (F.PTP_X_STATUS_STATE 0) = 5 then (s.setF (F.PTP_X_STATUS_STATE 0) 3).acceptSample 0 o true else s
  | none => s

/-- R52, R37, R61: may domain x be enabled with the binding in `new`? -/
def State.domMayEnable (s : State) (x : Nat) (new : Word) : Bool :=
  let y := 1 - x
  let f := fun (fl : Fld) => bitsOf new.toNat fl.hi fl.lo
  let clash := s.on (F.PTP_X_CTL_EN y) && f (F.PTP_X_CTL_PORT x) == s.f (F.PTP_X_CTL_PORT y)
    && f (F.PTP_X_CTL_TRANSPORT x) == s.f (F.PTP_X_CTL_TRANSPORT y) && f (F.PTP_X_CTL_DOMAIN x) == s.f (F.PTP_X_CTL_DOMAIN y)
  !clash && (decide (x = 0) || (s.feature 8 && !s.compat)) && decide (f (F.PTP_X_CTL_TRANSPORT x) ≤ 2) && decide (f (F.PTP_X_CTL_DOMAIN x) ≤ 127)

/-- A domain starts, LISTENING, where it and the PTP function are enabled; else it is OFF (R66). -/
def State.domRun (s : State) (x : Nat) : State :=
  let s := s.setDom x {}
  if s.on F.PTP_CTL_EN && s.on (F.PTP_X_CTL_EN x) then (s.wrn (R.PTP_X_STATUS x) (1 + (if s.ptp.steer = x then 16 else 0))).agreeNow
  else (((s.wrn (R.PTP_X_STATUS x) 0).wrn (R.PTP_X_OFFSET x) 0).wrn (R.PTP_X_FREQ x) 0).agreeNow

/-- R52: a write of PTP_x_CTL whose new value is `new`: EN starts or stops the domain, subject to the binding checks. -/
def State.domWrite (s : State) (x : Nat) (new : Word) : State :=
  let en := s.on (F.PTP_X_CTL_EN x)
  let want := bitsOf new.toNat 0 0 == 1
  if en && decide (bitsOf new.toNat 31 1 ≠ bitsOf (s.rdn (R.PTP_X_CTL x)) 31 1) then s.refuse 0x03
  else if !en && want then
    if s.domMayEnable x new then (s.wr (R.PTP_X_CTL x) new).domRun x else s.refuse 0x03
  else if en && !want then ((s.wr (R.PTP_X_CTL x) new).domRun x).sourceDown (x + 1)
  else s.wr (R.PTP_X_CTL x) new

/-- PTP_CTL: EN starts or stops the PTP function, which depends on nothing (R14, R373); STEER names the steering domain. -/
def State.ptpWrite (s : State) (new : Word) : State :=
  let s := (s.wr R.PTP_CTL new)
  let s := s.setF F.PTP_STATUS_COMPAT (if s.compat then 1 else 0)
  let s := s.updateSteer
  if s.on F.PTP_CTL_EN then
    (if s.active fnPtp then s else (((s.setFn fnPtp .starting).setFn fnPtp .ready).domRun 0).domRun 1)
  else if s.active fnPtp then ((((s.setFn fnPtp .off).domRun 0).domRun 1).sourceDown 1).sourceDown 2
  else s

/-! ## TOUT (R62-R64) -/

/-- The TOUT output k. -/
def State.tout (s : State) (k : Nat) : ToutSt := Tab.get (fun _ => ({} : ToutSt)) s.ptp.touts k

/-- Set TOUT output k. -/
def State.setTout (s : State) (k : Nat) (t : ToutSt) : State :=
  { s with ptp := { s.ptp with touts := Tab.put (fun _ => ({} : ToutSt)) s.ptp.touts k t } }

/-- START of TOUT k on its base: a virtual Meridian position, or STC ns (R62). -/
def State.toutStart (s : State) (k : Nat) (stcBase : Bool) : Int :=
  let lo := s.rdn (R.PTP_TOUT_START_LO k)
  let n : Nat := s.rdn (R.PTP_TOUT_START_MID k) + 4294967296 * (s.rdn (R.PTP_TOUT_START_HI k) % 65536)
  if stcBase then ((n * 1000000000 + lo % 2 ^ 30 : Nat) : Int)
  else ((n : Int) - s.clk.frameOfs) * (s.clk.fu : Int) + (lo : Int)

/-- PERIOD of TOUT k on its base: fraction units, or ns (R62). -/
def State.toutPeriod (s : State) (k : Nat) (stcBase : Bool) : Nat :=
  let hi := s.f (F.PTP_TOUT_PERIOD_HI_VAL k)
  let lo := s.rdn (R.PTP_TOUT_PERIOD_LO k)
  if stcBase then hi * 1000000000 + lo else hi * s.clk.fu + lo

/-- The checks of R62 on the values sampled at the commit; a Meridian period is compared exactly. -/
def State.toutOk (s : State) (k : Nat) (stcBase : Bool) : Bool :=
  let per := s.toutPeriod k stcBase
  let num := if stcBase then per else per * s.clk.den * 1000000000
  let den := if stcBase then 1 else s.clk.num * s.clk.lm * 65536
  decide (s.rdn (R.PTP_TOUT_WIDTH k) * den < num) && decide (64 * den ≤ num)
    && (!stcBase || decide (s.rdn (R.PTP_TOUT_PERIOD_LO k) < 1000000000))

/-- R62, R63: a write of PTP_TOUT_k_CTL with MODE not 0b00 samples the parameters and arms the output. A once-mode start
not after the commit is missed; a periodic one starts at the first START + j × period strictly after it. -/
def State.toutArm (s : State) (k : Nat) (v : Word) : State :=
  let mode := bitsOf v.toNat 1 0
  let stcBase := bitsOf v.toNat 2 2 == 1
  if decide (2 < mode) || !s.toutOk k stcBase then s.refuse 0x03 else
  let t := s.tout k
  let now : Int := if stcBase then s.clk.stc else s.clk.vpos
  let st := s.toutStart k stcBase
  let per := s.toutPeriod k stcBase
  let s := s.setF (F.PTP_TOUT_CTL_MODE k) mode
  let s := (s.setF (F.PTP_TOUT_CTL_BASE k) (bitsOf v.toNat 2 2)).setF (F.PTP_TOUT_CTL_POL k) (bitsOf v.toNat 3 3)
  let base : ToutSt := { t with periodic := mode == 2, stcBase := stcBase, period := per, width := s.rdn (R.PTP_TOUT_WIDTH k),
                                offset := signedOf 32 (s.rdn (R.PTP_TOUT_OFFSET k)), activeLow := bitsOf v.toNat 3 3 == 1 }
  let busy := t.pulseEnd.isSome
  if now < st then
    (s.setTout k { base with start := st.toNat, armed := true }).setF (F.PTP_TOUT_CTL_STATE k) (if busy then 2 else 1)
  else if mode = 2 then
    let j := ((now - st) / (per : Int) + 1).toNat
    (s.setTout k { base with start := (st + ((j * per : Nat) : Int)).toNat, armed := true }).setF (F.PTP_TOUT_CTL_STATE k) (if busy then 2 else 1)
  else
    let s := (s.setTout k { base with armed := false }).setF (F.PTP_TOUT_CTL_STATE k) (if busy then 2 else 0)
    (s.setF ⟨R.PTP_FLAGS, 8 + k, 8 + k⟩ 1).raise 0x0309 k

/-- R63: MODE 0b00 disarms; a pulse in progress completes its WIDTH. -/
def State.toutDisarm (s : State) (k : Nat) : State :=
  let t := s.tout k
  let s := (s.setTout k { t with armed := false }).setF (F.PTP_TOUT_CTL_MODE k) 0
  s.setF (F.PTP_TOUT_CTL_STATE k) (if t.pulseEnd.isSome then 2 else 0)

/-- R64: when the pulse rises, at the first edge of TCLK (1 ns) at or after START + OFFSET: the local time, and the state there. On the Meridian base it
acts in decision class 10 (R31), and none while a step holds the Meridian (R42). -/
def State.toutRise (s : State) (t : ToutSt) : Option State :=
  if t.stcBase then some (s.toStc ((t.start : Int) + t.offset).toNat)
  else if !s.clk.run || (match s.clk.holdAt with | some h => decide (h ≤ t.start) | none => false) then none
  else
    let u := s.toNs (s.clk.nsAt t.start + t.offset).toNat
    some { u with clk := { u.clk with clsAt := t.start + 1, cls := 10 } }

/-- R62, R64: the pulse's first edge. A periodic output schedules the next pulse one period later. -/
def State.toutPulse (s : State) (k : Nat) : State :=
  let t := s.tout k
  if !t.armed then s else
  match s.toutRise t with
  | none => s
  | some s =>
    let s := s.setTout k { t with start := if t.periodic then t.start + t.period else t.start, armed := t.periodic,
                                  pulseEnd := some (s.clk.ns + t.width), level := true }
    ((s.bump (R.PTP_TOUT_PULSE_CNT k)).setF (F.PTP_TOUT_CTL_STATE k) 2).emit (.tout k (!t.activeLow))

/-- R62: WIDTH expires and the output returns to its idle level. -/
def State.toutPulseEnd (s : State) (k : Nat) : State :=
  let t := s.tout k
  match t.pulseEnd with
  | none => s
  | some e =>
    let s := s.toNs e
    ((s.setTout k { t with pulseEnd := none, level := false }).setF (F.PTP_TOUT_CTL_STATE k) (if t.armed then 1 else 0)).emit
      (.tout k t.activeLow)

/-! ## TIN (R65) -/

/-- The TIN input j. -/
def State.tin (s : State) (j : Nat) : TinSt := Tab.get (fun _ => ({} : TinSt)) s.ptp.tins j

/-- Set TIN input j. -/
def State.setTin (s : State) (j : Nat) (t : TinSt) : State :=
  { s with ptp := { s.ptp with tins := Tab.put (fun _ => ({} : TinSt)) s.ptp.tins j t } }

/-- R65: a selected edge outside the hold-off is stamped into the FIFO of 16, or lost when it is full. -/
def State.tinCapture (s : State) (j : Nat) (rising : Bool) : State :=
  let t := s.tin j
  let sel := bitsOf (s.f (F.PTP_TIN_CTL_EDGE j)) (if rising then 0 else 1) (if rising then 0 else 1) == 1
  let clear := match t.last with | some l => decide (s.f (F.PTP_TIN_CTL_HOLDOFF j) ≤ s.clk.ns - l) | none => true
  if !(s.on (F.PTP_TIN_CTL_EN j) && sel && clear) then s else
  let s := if s.on (F.PTP_TIN_CTL_EVT j) then s.raise 0x030A j else s
  if t.fifo.length < 16 then
    let c : TinCap := { stc := s.clk.stc, frame := s.clk.frame, pos := s.clk.vpos % s.clk.fu, rising := rising }
    (s.setTin j { t with fifo := t.fifo ++ [c], last := some s.clk.ns }).wrn (R.PTP_TIN_LEVEL j) (t.fifo.length + 1)
  else
    let s := s.setTin j { t with last := some s.clk.ns }
    ((s.bump (R.PTP_TIN_LOST j)).setF ⟨R.PTP_FLAGS, 12 + j, 12 + j⟩ 1).raise 0x030B j

/-- R65: a read of PTP_TIN_j_CAP_0 pops the oldest capture and latches its words 1 to 5; an empty FIFO reads VALID 0. -/
def State.tinPop (s : State) (j : Nat) : Word × State :=
  let t := s.tin j
  match t.fifo with
  | [] => (0, s)
  | c :: r =>
    let sec := c.stc / 1000000000
    let ws := [sec % 2 ^ 32, sec / 2 ^ 32 % 65536, c.pos, c.frame % 2 ^ 32, c.frame / 2 ^ 32 % 65536]
    (BitVec.ofNat 32 (c.stc % 1000000000 + (if c.rising then 2 ^ 30 else 0) + 2 ^ 31),
      (s.setTin j { t with fifo := r, latched := ws }).wrn (R.PTP_TIN_LEVEL j) r.length)

end Sys2Proof.Machine
end

