-- ==== Sys2Proof/Machine/Ckg.lean ====
section
/-!
DEFINITION. Sys2Proof/Machine/Ckg.lean: clock synthesis (spec/04_clock_synthesis.md): lock, loss, relock, resynchronisation and the
clock outputs. STATE codes of a PLL: 0 OFF, 1 BYPASS, 2 ACQUIRING, 3 SYNC_WAIT, 4 LOCKED, 5 UNLOCKED, 6 NO_REFERENCE
(R81).
-/

namespace Sys2Proof.Machine

/-- The STATE field of a PLL. -/
def pllStateF : Pll → Fld
  | .core m => F.CKG_CPLL_STATUS_STATE m
  | .lane q => F.CKG_LPLL_STATUS_STATE q

/-- The SYNC field of a PLL. -/
def pllSyncF : Pll → Fld
  | .core m => F.CKG_CPLL_STATUS_SYNC m
  | .lane q => F.CKG_LPLL_STATUS_SYNC q

/-- The PLL's LOCKED bit (R81). -/
def pllLockedF : Pll → Fld
  | .core m => ⟨R.CKG_CORE_STATUS, m, m⟩
  | .lane q => ⟨R.CKG_LANE_STATUS, q, q⟩

/-- The PLL's sticky loss-of-lock bit (R81). -/
def pllLolF : Pll → Fld
  | .core m => ⟨R.CKG_CORE_FLAGS, m, m⟩
  | .lane q => ⟨R.CKG_LANE_FLAGS, q, q⟩

/-- The PLL's sticky loss-of-reference bit (R81). -/
def pllLorF : Pll → Fld
  | .core m => ⟨R.CKG_CORE_FLAGS, 16 + m, 16 + m⟩
  | .lane q => ⟨R.CKG_LANE_FLAGS, 16 + q, 16 + q⟩

/-- The PLL's loss-of-lock counter (R81). -/
def pllLolCnt : Pll → Nat
  | .core m => R.CKG_CPLL_LOL_CNT m
  | .lane q => R.CKG_LPLL_LOL_CNT q

/-- The number of the PLL within its kind. -/
def pllIdx : Pll → Nat
  | .core m => m
  | .lane q => q

/-- Does the PLL exist (R68, R69)? -/
def pllValid : Pll → Bool
  | .core m => decide (m ≤ 10)
  | .lane q => decide (q ≤ 15)

/-- Is a function STARTING, READY or DRAINING (R77)? -/
def State.busyFn (s : State) (f : Nat) : Bool :=
  match s.fn f with | .starting | .ready | .draining => true | _ => false

/-- Does core PLL m clock a busy function (R25, R77)? For CPLL_2 to CPLL_5 the quadrant's pipes count as one, unless the
quadrant is parked or DIS is OFF (R78). -/
def State.pllClocksBusy (s : State) (m : Nat) : Bool :=
  if 2 ≤ m ∧ m ≤ 5 then s.active fnDis && !s.on (F.DIS_QUAD_CTL_PARKED (m - 2))
  else if m = 6 then (List.range 48).any (fun i => s.busyFn (36 + i)) || (List.range 8).any (fun p => s.busyFn (fnEgs p))
  else if m = 7 then (List.range 4).any (fun i => s.busyFn (fnHbm i))
  else if m = 10 then s.busyFn fnAud
  else false

/-- Is a core PLL relocking (R76)? -/
def State.pllRelocking (s : State) (m : Nat) : Bool :=
  let st := s.f (F.CKG_CPLL_STATUS_STATE m)
  st == 1 || st == 2 || st == 3

/-- R77: may core PLL m be relocked by command or by Sighting? -/
def State.relockOk (s : State) (m : Nat) : Bool :=
  decide (m ≤ 10) && !(m == 0 || m == 1 || m == 9) && !s.pllClocksBusy m && !s.pllRelocking m

/-- A relock is under way: it satisfies a Sighting of the PLL that is pending (R76). -/
def State.relockSights (s : State) (m : Nat) : State :=
  match s.sight 2 m with
  | some x => if x.goal.isEmpty then s.setSight 2 m (some { x with run := true }) else s
  | none => s

/-- A relock has ended: the Sighting that it was, or that it satisfied, is over (R76). -/
def State.relockSighted (s : State) (m : Nat) : State :=
  match s.sight 2 m with
  | some x => if x.run && x.goal.isEmpty then s.setSight 2 m none else s
  | none => s

/-- A relock begins now. -/
def State.relockBegin (s : State) (m : Nat) : State :=
  { s with ckg := { s.ckg with relockAt := Tab.put (fun _ => 0) s.ckg.relockAt m s.clk.ns } }

/-- R76: a relock starts: outputs on the bypass reference, D back to 4 on CPLL_2 to CPLL_5 (R74, R349). -/
def State.startRelock (s : State) (m : Nat) : State :=
  let s := (s.relockBegin m).relockSights m
  let s := (s.setF (F.CKG_CPLL_STATUS_STATE m) 1).setF ⟨R.CKG_CORE_STATUS, m, m⟩ 0
  let s := s.setF ⟨R.CKG_CORE_STATUS, 16 + m, 16 + m⟩ 1
  if 2 ≤ m ∧ m ≤ 5 then
    let s := if s.f (F.CAL_FS_STATUS_D (m - 2)) = 4 then s else (s.bump (R.CAL_FS_CHG_CNT (m - 2))).raise 0x1506 (m - 2)
    (s.setF (F.CKG_CPLL_STATUS_DIV m) 4).setF (F.CAL_FS_STATUS_D (m - 2)) 4
  else s

/-- STATE of core PLL m as it reads: from 0.1 µs after a relock began, BYPASS has given way to ACQUIRING (R78, R81; assumption 92). -/
def State.pllShown (s : State) (m : Nat) : Nat :=
  let st := s.f (F.CKG_CPLL_STATUS_STATE m)
  if st = 1 ∧ Tab.get (fun _ => 0) s.ckg.relockAt m + 100 ≤ s.clk.ns then 2 else st

/-- R77: CKG_CMD with RELOCK set. -/
def State.relock (s : State) (m : Nat) : State := if s.relockOk m then s.startRelock m else s.refuse 0x04

/-- R70: the phase error stayed within WIN_PS for LOCK_CNT reference cycles: the PLL declares lock. A relocking or starting
PLL holds its dividers for the resynchronisation edge (R75); a running one is LOCKED again and is never resynchronised. -/
def State.pllLock (s : State) (p : Pll) : State :=
  if !(pllValid p) then s else
  let st := s.f (pllStateF p)
  if st = 1 ∨ st = 2 then s.setF (pllStateF p) 3
  else if st = 5 ∨ st = 6 then (s.setF (pllStateF p) 4).setF (pllLockedF p) 1
  else s

/-- R75: the resynchronisation edge: for CPLL_8 and CPLL_9 after the lock count; for the others at the next Meridian frame
start while the Meridian is READY. The dividers are released and the outputs leave the bypass reference. The lanes of a Staord quad send training words
from then on (R288). -/
def State.pllResync (s : State) (p : Pll) : State :=
  if !(pllValid p) || decide (s.f (pllStateF p) ≠ 3) then s else
  let own := match p with | .core m => m == 8 || m == 9 | .lane _ => false
  let atFrame := !own && s.ready fnMer
  let s? := if atFrame then s.toPhase 1 0 else some s
  match s? with
  | none => s
  | some s =>
    let s := ((s.setF (pllStateF p) 4).setF (pllLockedF p) 1).setF (pllSyncF p) (if atFrame then 1 else 0)
    match p with
    | .core m => ((s.setF ⟨R.CKG_CORE_STATUS, 16 + m, 16 + m⟩ 0).bump (R.CKG_CPLL_RELOCK_CNT m)).raise 0x0406 m |>.relockSighted m
    | .lane q =>
      if s.on (F.LNE_QUAD_CTL_EN q) && s.f (F.LNE_QUAD_CTL_ROLE q) == 2 then s.emit (.training (s.f (F.LNE_QUAD_CTL_PORT q)) 1) else s

/-- A loss on CPLL_0, CPLL_1 or CPLL_6 makes Binnacle give up control, with cause 2 (R250, R401). -/
def State.pllGiveUp (s : State) (p : Pll) (event : Nat) : State :=
  match p with
  | .core m => if m = 0 ∨ m = 1 ∨ m = 6 then s.giveUp 2 0x04 event m else s
  | .lane _ => s

/-- R71: a LOCKED PLL stays outside the window for LOSS_CNT cycles: sticky bit, LOL_CNT, event; nothing else in CKG. The phase error of that
moment is the one that CKG_CPLL_m_PHASE shows (assumption 92). -/
def State.pllLossOfLock (s : State) (p : Pll) (err : Int) : State :=
  if !(pllValid p) || decide (s.f (pllStateF p) ≠ 4) then s else
  let ev := match p with | .core _ => 0x0402 | .lane _ => 0x0404
  let s := ((s.setF (pllStateF p) 5).setF (pllLockedF p) 0).setF (pllLolF p) 1
  let s := (s.bump (pllLolCnt p)).raise ev (pllIdx p)
  let s := match p with | .core m => s.wrn (R.CKG_CPLL_PHASE m) (sat32 err) | .lane _ => s
  s.pllGiveUp p ev

/-- R71: REF_MISS reference edges are missing: the PLL holds its control word; sticky bit and event. -/
def State.pllLossOfRef (s : State) (p : Pll) : State :=
  let st := s.f (pllStateF p)
  if !(pllValid p) || !(st == 4 || st == 5) then s else
  let ev := match p with | .core _ => 0x0403 | .lane _ => 0x0405
  let s := (((s.setF (pllStateF p) 6).setF (pllLockedF p) 0).setF (pllLorF p) 1).raise ev (pllIdx p)
  s.pllGiveUp p ev

/-- The frequencies that core PLL m accepts (R68). -/
def pllFreqOk (m f : Nat) : Bool :=
  match m with
  | 0 => f == 800000000
  | 1 => f == 1600000000
  | 2 | 3 | 4 | 5 => decide (625000000 ≤ f) && decide (f ≤ 1250000000)
  | 6 | 8 | 9 => f == 1000000000
  | 7 => decide (1000000000 ≤ f) && decide (f ≤ 1200000000)
  | 10 => decide (11289600 ≤ f) && decide (f ≤ 98304000)
  | _ => false

/-- R78: a write of CKG_CPLL_m_FREQ: refused after the lock; without effect where it changes nothing; refused out of range,
where R77 refuses a relock, and for CPLL_7 while any stack is not OFF (R363); else the PLL relocks at the new
frequency. CPLL_0, CPLL_1 and CPLL_9 accept only the value they hold. -/
def State.pllFreqWrite (s : State) (m : Nat) (v : Word) : State :=
  if s.cfgLocked then s.refuse 0x04
  else if s.rd (R.CKG_CPLL_FREQ m) = v then s
  else if pllFreqOk m v.toNat && s.relockOk m && !(m == 7 && (List.range 4).any (fun i => s.active (fnHbm i))) then
    (s.wr (R.CKG_CPLL_FREQ m) v).startRelock m
  else s.refuse 0x04

/-- The source frequency of a clock output, Hz (R79, R81, R281). -/
def State.clkoutSrcHz (s : State) (k : Nat) : Nat :=
  match s.f (F.CKG_CLKOUT_CTL_SRC k) with
  | 0 => 54000000
  | 1 => s.rdn (R.CKG_CPLL_FREQ 9)
  | 2 => s.rdn (R.CKG_CPLL_FREQ 10)
  | _ =>
    let cfg := s.rdn (R.LNE_LANE_CFG (s.f (F.CKG_CLKOUT_CTL_LANE k)) 0)
    let rate := bitsOf cfg 16 0 * 1000000
    (if bitsOf cfg 17 17 = 1 then rate / 2 else rate) / 256

/-- The highest output frequency of a format, Hz (R79). -/
def clkoutMaxHz (fmt : Nat) : Nat :=
  match fmt with | 0 => 800000000 | 1 => 400000000 | 2 => 200000000 | _ => 125000000

/-- The checks of R79 and of the field tables on an enable. -/
def State.clkoutOk (s : State) (k : Nat) : Bool :=
  let div := s.f (F.CKG_CLKOUT_DIV_DIV k)
  let src := s.f (F.CKG_CLKOUT_CTL_SRC k)
  decide (div ≠ 0) && decide (src ≤ 3) && decide (s.f (F.CKG_CLKOUT_CTL_SWING k) ≤ 2)
    && decide (s.clkoutSrcHz k ≤ clkoutMaxHz (s.f (F.CKG_CLKOUT_CTL_FMT k)) * div)
    && (!s.on (F.CKG_CLKOUT_CTL_ALIGN k) || (src == 1 && 1000000000 % div == 0))

/-- R80: CKG_CLKOUT_k_CTL takes the value `new`: an enable is checked; while EN is 1 no other field may change; a disable
makes the output high-impedance. -/
def State.clkoutWrite (s : State) (k : Nat) (new : Word) : State :=
  let en := s.on (F.CKG_CLKOUT_CTL_EN k)
  let want := bitsOf new.toNat 0 0 == 1
  let s1 := s.wr (R.CKG_CLKOUT_CTL k) new
  if en && decide (bitsOf new.toNat 31 1 ≠ bitsOf (s.rdn (R.CKG_CLKOUT_CTL k)) 31 1) then s.refuse 0x04
  else if !en && want then (if s1.clkoutOk k then s1.emit (.clkout k true) else s.refuse 0x04)
  else if en && !want then
    ({ s1 with ckg := { s1.ckg with realign := Tab.put (fun _ => (none : Option Nat)) s1.ckg.realign k none } }).emit (.clkout k false)
  else if bitsOf new.toNat 8 8 = 1 ∧ bitsOf new.toNat 3 1 ≠ 1 then s.refuse 0x04
  else s1

/-- R80: after an STC step, an aligned output realigns at the next whole second by lengthening one low phase. -/
def State.clkoutRealign (s : State) (k : Nat) : State :=
  match Tab.get (fun _ => (none : Option Nat)) s.ckg.realign k with
  | none => s
  | some sec =>
    let s := s.toStc (sec * 1000000000)
    ({ s with ckg := { s.ckg with realign := Tab.put (fun _ => (none : Option Nat)) s.ckg.realign k none } }).emit (.clkoutRealign k)

end Sys2Proof.Machine
end

