-- ==== Sys2Proof/Machine/Mem.lean ====
section
/-!
DEFINITION. Sys2Proof/Machine/Mem.lean: HBM as addressed memory (R297-R300): bytes at 38-bit addresses, holes, little-endian words,
placement of regions, the pools of the stacks (R301, R302).
-/

namespace Sys2Proof.Machine

/-- What a byte of HBM that nothing has written reads as: 0 (assumption 5). -/
def memEmpty : Nat → Byte := fun _ => 0

/-- The stack an address selects: bits [37:36] (R299). -/
def stackOf (a : Nat) : Nat := a / 2 ^ 36 % 4

/-- Is the address in the stack's hole: offset at or above 36 GiB (R299)? -/
def inHole (a : Nat) : Bool := decide (0x900000000 ≤ a % 2 ^ 36)

/-- The pseudo-channel of an address (R300). -/
def pcOf (a : Nat) : Nat :=
  let o := a % 2 ^ 36
  ((o >>> 8) ^^^ (o >>> 13) ^^^ (o >>> 18)) &&& 31

/-- Does a region of `n` bytes lie within one stack: first and last byte share bits [37:36] and both offsets are valid
(R299)? -/
def oneStack (a n : Nat) : Bool :=
  decide (a < 2 ^ 38) && (n == 0 || (stackOf a == stackOf (a + n - 1) && decide (a + n - 1 < 2 ^ 38) && !inHole a && !inHole (a + n - 1)))

/-- The byte of HBM at an address; a hole holds nothing and reads 0 (R299). -/
def State.hbmByte (s : State) (a : Nat) : Byte := if inHole a then 0 else Tab.get memEmpty s.hbm.mem (a % 2 ^ 38)

/-- Write one byte of HBM; a write into a hole is ignored (R299). -/
def State.hbmSet (s : State) (a : Nat) (b : Byte) : State :=
  if inHole a then s else { s with hbm := { s.hbm with mem := Tab.put memEmpty s.hbm.mem (a % 2 ^ 38) b } }

/-- `n` bytes of HBM as a little-endian number (R10). -/
def State.hbmNat (s : State) (a : Nat) : Nat → Nat
  | 0 => 0
  | n + 1 => (s.hbmByte a).toNat + 256 * State.hbmNat s (a + 1) n

/-- Write the low `n` bytes of a number, little-endian (R10). -/
def State.hbmPut (s : State) (a v : Nat) : Nat → State
  | 0 => s
  | n + 1 => State.hbmPut (s.hbmSet a (BitVec.ofNat 8 v)) (a + 1) (v / 256) n

/-- `n` bytes of HBM as a list. -/
def State.hbmBytes (s : State) (a : Nat) : Nat → List Nat
  | 0 => []
  | n + 1 => (s.hbmByte a).toNat :: State.hbmBytes s (a + 1) n

/-- Write a list of bytes. -/
def State.hbmPutBytes (s : State) (a : Nat) : List Nat → State
  | [] => s
  | b :: r => State.hbmPutBytes (s.hbmSet a (BitVec.ofNat 8 b)) (a + 1) r

/-- Picture bytes pb (R164): planes in sequence, pitch rounded up to 256, the sum rounded up to 4,096. `chroma` codes:
0 4:2:0, 1 4:2:2, 2 4:4:4. -/
def picBytes (w h chroma depth : Nat) : Nat :=
  let bps := if depth = 0 then 1 else 2
  let pitch := fun x => ceilDiv (x * bps) 256 * 256
  let cw := if chroma = 2 then w else w / 2
  let ch := if chroma = 0 then h / 2 else h
  ceilDiv (pitch w * h + 2 * (pitch cw * ch)) 4096 * 4096

/-- Bytes rounded up to whole MiB (R302). -/
def toMiB (b : Nat) : Nat := ceilDiv b 1048576

/-- The demand an object holds on a pool: (stack, MiB). -/
def State.demandOf (s : State) (obj : Nat) : Nat × Nat := Tab.get (fun _ => (0, 0)) s.hbm.demand obj

/-- Would a demand of `mib` fit the pool of stack `st`, above what is already needed (R302)? -/
def State.poolFits (s : State) (st mib : Nat) : Bool :=
  decide (s.rdn (R.HBM_S_POOL_NEED st) + mib ≤ s.f (F.HBM_S_POOL_SIZE st))

/-- An object takes its demand on a pool (R302). Inputs are objects 1000 + i; functions are their own number. -/
def State.poolTake (s : State) (obj st mib : Nat) : State :=
  ({ s with hbm := { s.hbm with demand := Tab.put (fun _ => (0, 0)) s.hbm.demand obj (st, mib) } }).bumpBy (R.HBM_S_POOL_NEED st) mib

/-- An object returns its demand (R302). -/
def State.poolReturn (s : State) (obj : Nat) : State :=
  let d := s.demandOf obj
  ({ s with hbm := { s.hbm with demand := Tab.put (fun _ => (0, 0)) s.hbm.demand obj (0, 0) } }).wrn
    (R.HBM_S_POOL_NEED d.1) (s.rdn (R.HBM_S_POOL_NEED d.1) - d.2)

/-- An access to a hole through a register window: counted, event 0x100B (R299). -/
def State.holeAccess (s : State) : State := (s.bump R.HBM_HOLE_CNT).raise 0x100B 0

end Sys2Proof.Machine
end

