-- ==== Sys2Proof/Machine/Pixel.lean ====
section
/-!
DEFINITION. Sys2Proof/Machine/Pixel.lean: the integer arithmetic of composition (R115-R126): colour conversion, chroma, blending,
mesh warp, output conversion; and the samples of input pictures, clips and surfaces.
-/

namespace Sys2Proof.Machine

/-- clamp() of R115: a result limited to 0–65,535. -/
def clamp16 (i : Int) : Nat := (clampI 0 65535 i).toNat

/-- The coefficients (ky, krv, kgu, kgv, kbu) of R116; MATRIX 0 is BT.709, 1 BT.2020. -/
def inCoef (m : Nat) : Int × Int × Int × Int × Int :=
  if m = 0 then (19152, 29487, 3508, 8765, 34745) else (19152, 27611, 3081, 10698, 35228)

/-- R116: a narrow-range Y'CbCr triple, left-justified to 16 bits, to working R'G'B'. -/
def yccToRgb (m : Nat) (p : Px) : Px :=
  let k := inCoef m
  let y := (p.a : Int) - 4096
  let cb := (p.b : Int) - 32768
  let cr := (p.c : Int) - 32768
  { a := clamp16 (sar (k.1 * y + k.2.1 * cr + 8192) 14)
    b := clamp16 (sar (k.1 * y - k.2.2.1 * cb - k.2.2.2.1 * cr + 8192) 14)
    c := clamp16 (sar (k.1 * y + k.2.2.2.2 * cb + 8192) 14) }

/-- R116: a narrow-range R'G'B' component, left-justified to 16 bits, to the working range. -/
def rgbIn (v : Nat) : Nat := clamp16 (sar (19152 * ((v : Int) - 4096) + 8192) 14)

/-- R117: horizontal chroma interpolation of a line `c` of ⌈w/2⌉ samples at position x of w. -/
def chromaAt (c : Nat → Nat) (w x : Nat) : Nat :=
  if x % 2 = 0 then c (x / 2)
  else if (x + 1) / 2 < ceilDiv w 2 then (c (x / 2) + c (x / 2 + 1) + 1) / 2
  else c (x / 2)

/-- div() of R120: the division by 65,535, in 32-bit unsigned arithmetic. -/
def div65535 (x : Nat) : Nat := let x1 := (x + 32768) % 2 ^ 32; (x1 + x1 / 65536) % 2 ^ 32 / 65536

/-- R120, one component of one layer over p. -/
def overPx (p c a : Nat) : Nat := c + div65535 (p * (65535 - a))

/-- A covering layer's premultiplied pixel: its components and its alpha. -/
structure LayerPx where
  px : Px
  a : Nat
  deriving DecidableEq, Repr

/-- R120: a layer pixel over what lies beneath. -/
def blendOver (p : Px) (l : LayerPx) : Px := { a := overPx p.a l.px.a l.a, b := overPx p.b l.px.b l.a, c := overPx p.c l.px.c l.a }

/-- R120: a video or clip pixel under its global alpha. -/
def premulVideo (p : Px) (ga : Nat) : LayerPx :=
  { px := { a := div65535 (p.a * ga), b := div65535 (p.b * ga), c := div65535 (p.c * ga) }, a := ga }

/-- R118, R120: a graphics or cursor pixel with alpha a; a premultiplied component is clamped to the alpha. -/
def premulGfx (premul : Bool) (p : Px) (a ga : Nat) : LayerPx :=
  let one := fun v => if premul then min v a else div65535 (v * a)
  { px := { a := div65535 (one p.a * ga), b := div65535 (one p.b * ga), c := div65535 (one p.c * ga) }, a := div65535 (a * ga) }

/-- R124: a bilinear sample; `p` gives a component by (line, position), clamped to the canvas by the caller. -/
def bilinear (p : Int → Int → Nat) (sx sy : Int) : Nat :=
  let xi := sar sx 6
  let yi := sar sy 6
  let fx := (sx % 64).toNat
  let fy := (sy % 64).toNat
  let h0 := p yi xi * (64 - fx) + p yi (xi + 1) * fx
  let h1 := p (yi + 1) xi * (64 - fx) + p (yi + 1) (xi + 1) * fx
  (h0 * (64 - fy) + h1 * fy + 2048) / 4096

/-- R123: the source position of pixel (i, j) of a block from its corners, in 1/64 pel. -/
def meshPos (e00 e10 e01 e11 : Int) (i j : Nat) : Int :=
  let top := e00 * (8 - i) + e10 * i
  let bot := e01 * (8 - i) + e11 * i
  sar (top * (8 - j) + bot * j + 32) 6

/-- The coefficients of R126, rows Y', Cb, Cr. -/
def outCoef (m : Nat) : (Int × Int × Int) × (Int × Int × Int) × (Int × Int × Int) :=
  if m = 0 then ((11919, 40097, 4048), (-6570, -22102, 28672), (28672, -26043, -2629))
  else ((14728, 38012, 3325), (-8007, -20665, 28672), (28672, -26366, -2306))

/-- R126: a working pixel to narrow-range Y'CbCr in 16-bit form. -/
def rgbToYcc (m : Nat) (p : Px) : Px :=
  let k := outCoef m
  let dot := fun (c : Int × Int × Int) => sar (c.1 * p.a + c.2.1 * p.b + c.2.2 * p.c + 32768) 16
  { a := (4096 + dot k.1).toNat, b := (32768 + dot k.2.1).toNat, c := (32768 + dot k.2.2).toNat }

/-- R126: horizontal chroma subsampling of a line at sample k, with edges replicated. -/
def subsampleH (c : List Nat) (k : Nat) : Nat :=
  let at_ := fun i => c.getD (min i (c.length - 1)) 0
  (at_ (2 * k - 1) + 2 * at_ (2 * k) + at_ (2 * k + 1) + 2) / 4

/-- R126: a component rounded to the output depth of n bits. -/
def toDepth (n v : Nat) : Nat := min ((v + 2 ^ (15 - n)) / 2 ^ (16 - n)) (2 ^ n - 1)

/-- Average vertical pairs of chroma lines, for 4:2:0 (R126). -/
def pairLines : List (List Nat) → List (List Nat)
  | a :: b :: r => a.zipWith (fun x y => (x + y + 1) / 2) b :: pairLines r
  | l => l

/-- R126: converted lines of a row at the coded chroma format (0 4:2:0, 1 4:2:2, 2 4:4:4) and depth of n bits. -/
def outputRow (m chroma n : Nat) (lines : List (List Px)) : RowPix :=
  let conv := lines.map (fun l => l.map (rgbToYcc m))
  let sub := fun (l : List Nat) => if chroma = 2 then l else (List.range (ceilDiv l.length 2)).map (subsampleH l)
  let cb := conv.map (fun l => sub (l.map Px.b))
  let cr := conv.map (fun l => sub (l.map Px.c))
  let v := fun (ls : List (List Nat)) => if chroma = 0 then pairLines ls else ls
  { y := conv.map (fun l => l.map (fun p => toDepth n p.a)), cb := (v cb).map (fun l => l.map (toDepth n)),
    cr := (v cr).map (fun l => l.map (toDepth n)) }

/-! ## Source samples -/

/-- The bits of a DEPTH code: 0 8, 1 10, 2 12 (R103, R150). -/
def depthBits (d : Nat) : Nat := 8 + 2 * d

/-- The name of the decoded picture that gives a sample of another one: the first that gives its CTU (R100, R101); where none does, the first. -/
def DecSrc.at_ (d : DecSrc) (q x : Nat) : Nat :=
  let c := q / d.ctu * d.cols + x / d.ctu
  match d.srcs.find? (fun e => !e.2.any (fun r => decide (r.1 ≤ c) && decide (c ≤ r.2))) with
  | some e => e.1
  | none => (d.srcs.map (fun e => e.1)).headD 0

/-- A pixel of a picture: its own line where it has one, else the picture's base. -/
def Pic.pixel (p : Pic) (q x : Nat) : Px :=
  let l := Tab.get (fun _ => ({} : LineSt)) p.lines q
  match Tab.get (fun _ => (none : Option Px)) l.px x with
  | some v => v
  | none =>
    match p.base with
    | .absent => { a := 0, b := 0, c := 0 }
    | .flat v => v
    | .decoded d => let t := d.at_ q x; { a := Config.decSample t q x 0, b := Config.decSample t q x 1, c := Config.decSample t q x 2 }

/-- The working pixel of a source in format `fmt` (0 4:2:2, 1 4:4:4, 2 4:2:0, 3 RGB) and `n` bits at (x, y); `get` gives a
raw sample by component and plane position (R116, R117). -/
def sourcePixel (m fmt n w : Nat) (get : Nat → Nat → Nat → Nat) (x y : Nat) : Px :=
  let s16 := fun c i j => get c i j * 2 ^ (16 - n)
  if fmt = 3 then { a := rgbIn (s16 0 x y), b := rgbIn (s16 1 x y), c := rgbIn (s16 2 x y) }
  else if fmt = 1 then yccToRgb m { a := s16 0 x y, b := s16 1 x y, c := s16 2 x y }
  else
    let cy := if fmt = 2 then y / 2 else y
    yccToRgb m { a := s16 0 x y, b := chromaAt (fun i => s16 1 i cy) w x, c := chromaAt (fun i => s16 2 i cy) w x }

/-- A raw sample of an input picture by component and plane position: subsampled chroma is held at the even positions. -/
def Pic.sample (p : Pic) (fmt : Nat) (c i j : Nat) : Nat :=
  let sub := decide (c ≠ 0) && (fmt == 0 || fmt == 2)
  let v := p.pixel (if c ≠ 0 ∧ fmt = 2 then 2 * j else j) (if sub then 2 * i else i)
  if c = 0 then v.a else if c = 1 then v.b else v.c

/-- The address of picture `f` of clip descriptor d (R119). -/
def State.clipPic (s : State) (d f : Nat) : Nat :=
  s.rd64 (R.COMP_CLIP_ADDR_LO d) (R.COMP_CLIP_ADDR_HI d) + f * s.rdn (R.COMP_CLIP_PIC_PITCH d)

/-- A raw sample of picture f of clip d by component and plane position: planar, 16-bit little-endian (R119). -/
def State.clipSample (s : State) (d f c i j : Nat) : Nat :=
  let h := s.f (F.COMP_CLIP_SIZE_H d)
  let ch := if s.f (F.COMP_CLIP_CTL_FMT d) = 2 then h / 2 else h
  let line := if c = 0 then j else h + (c - 1) * ch + j
  s.hbmNat (s.clipPic d f + line * s.rdn (R.COMP_CLIP_LINE_PITCH d) + 2 * i) 2 % 2 ^ depthBits (s.f (F.COMP_CLIP_CTL_DEPTH d))

/-- A surface pixel and its alpha at (x, y) (R118): FMT 0 expands 8 bits by 257, FMT 1 has 16 bits. -/
def State.surfacePixel (s : State) (addr pitch : Nat) (fmt64 : Bool) (x y : Nat) : Px × Nat :=
  if fmt64 then
    let v := s.hbmNat (addr + y * pitch + 8 * x) 8
    ({ a := bitsOf v 47 32, b := bitsOf v 31 16, c := bitsOf v 15 0 }, bitsOf v 63 48)
  else
    let v := s.hbmNat (addr + y * pitch + 4 * x) 4
    ({ a := bitsOf v 23 16 * 257, b := bitsOf v 15 8 * 257, c := bitsOf v 7 0 * 257 }, bitsOf v 31 24 * 257)

/-- A Mesh Table entry (R122): X, Y in 1/64 pel, FILL. -/
def State.meshEntry (s : State) (i : Nat) : Int × Int × Bool :=
  let v := s.hbmNat (s.rd64 R.HBM_MESH_ADDR_LO R.HBM_MESH_ADDR_HI + 8 * i) 8
  (signedOf 22 (bitsOf v 21 0), signedOf 22 (bitsOf v 43 22), bitsOf v 44 44 == 1)

end Sys2Proof.Machine
end

