-- ==== Sys2Proof/Machine/Ing.lean ====
section
/-!
DEFINITION. Sys2Proof/Machine/Ing.lean: ingest and contribution decode (spec/05_ingest.md): the flow table, the policer, the
seamless merge, inputs, acceptance windows and substitution, access units and decoded pictures.
-/

namespace Sys2Proof.Machine

/-! ## The flow table (R84, R85) -/

/-- Word w of ingest flow entry f. -/
def State.ftw (s : State) (f w : Nat) : Nat := Tab.get (fun _ => 0) s.ing.ft (16 * f + w)

/-- Set word w of ingest flow entry f. -/
def State.setFtw (s : State) (f w v : Nat) : State :=
  { s with ing := { s.ing with ft := Tab.put (fun _ => 0) s.ing.ft (16 * f + w) (v % 4294967296) } }

/-- Increment a counter word of a flow entry, wrapping. -/
def State.bumpFtw (s : State) (f w : Nat) : State := s.setFtw f w (s.ftw f w + 1)

/-- Fields of an entry (R85), from its words 0 and 1. -/
def ftEn (w0 : Nat) : Bool := w0 % 2 == 1
def ftType (w0 : Nat) : Nat := bitsOf w0 3 1
def ftPort (w0 : Nat) : Nat := bitsOf w0 6 4
def ftLeg (w0 : Nat) : Nat := bitsOf w0 9 9
def ftTarget (w1 : Nat) : Nat := bitsOf w1 23 16

/-- The enabled ingest flows. -/
def State.ingFlows (s : State) : List Nat :=
  (s.ing.ft.filter (fun e => decide (e.1 % 16 = 0) && ftEn e.2)).map (fun e => e.1 / 16)

/-- The match of an entry (R84): port, VLAN, addresses, UDP port, with the source address under SRC_FILT. Words 0 to 9. -/
def ftMatchKey (w : Nat → Nat) : List Nat :=
  let v6 := bitsOf (w 0) 7 7
  let sf := bitsOf (w 0) 8 8
  [ftPort (w 0), v6, sf, bitsOf (w 0) 23 12, bitsOf (w 1) 15 0, w 2]
    ++ (if v6 = 1 then [w 3, w 4, w 5] else [0, 0, 0])
    ++ (if sf = 1 then (if v6 = 1 then [w 6, w 7, w 8, w 9] else [w 6, 0, 0, 0]) else [0, 0, 0, 0])

/-- Does a packet match flow f (R84)? -/
def State.ingMatch (s : State) (p : IngPacket) (f : Nat) : Bool :=
  let w := s.ftw f
  let v6 := bitsOf (w 0) 7 7 == 1
  let word := fun (a i : Nat) => a / 2 ^ (32 * i) % 2 ^ 32
  ftPort (w 0) == p.port && v6 == p.ipv6 && bitsOf (w 0) 23 12 == p.vlan && bitsOf (w 1) 15 0 == p.dport
    && w 2 == word p.dst 0 && (!v6 || (w 3 == word p.dst 1 && w 4 == word p.dst 2 && w 5 == word p.dst 3))
    && (bitsOf (w 0) 8 8 == 0
        || (w 6 == word p.src 0 && (!v6 || (w 7 == word p.src 1 && w 8 == word p.src 2 && w 9 == word p.src 3))))

/-- R85: every field of the buffered entry lies inside its range. -/
def ftRangesOk (w : Nat → Nat) : Bool :=
  let ty := ftType (w 0)
  let tg := ftTarget (w 1)
  decide (ty ≤ 5) && (if ty ≤ 2 then decide (tg < 64) else decide (tg < 16))
    && decide (1 ≤ bitsOf (w 10) 19 0) && decide (bitsOf (w 10) 19 0 ≤ 800000) && decide (1600 ≤ bitsOf (w 11) 23 0)

/-- R85: each buffered value fits the bits of its field: nothing stands in a reserved bit. -/
def ftFits (w : Nat → Nat) : Bool :=
  bitsOf (w 0) 11 10 == 0 && bitsOf (w 0) 31 24 == 0 && bitsOf (w 1) 31 24 == 0 && bitsOf (w 10) 31 20 == 0 && bitsOf (w 11) 31 24 == 0

/-- R84, R85: may the buffer `w` be written into entry f? -/
def State.ftWriteOk (s : State) (f : Nat) (w : Nat → Nat) : Bool :=
  let en := ftEn (w 0)
  let was := ftEn (s.ftw f 0)
  let others := s.ingFlows.filter (fun g => g != f)
  ftFits w && (!en || ftRangesOk w)
    && (!was || (w 0 / 2 == s.ftw f 0 / 2 && (List.range 9).all (fun i => w (i + 1) == s.ftw f (i + 1))))
    && (!en || others.all (fun g =>
        !(ftType (s.ftw g 0) == ftType (w 0) && ftLeg (s.ftw g 0) == ftLeg (w 0) && ftTarget (s.ftw g 1) == ftTarget (w 1))
        && ftMatchKey (s.ftw g) != ftMatchKey w))

/-- R85: entry f into the buffer. -/
def State.ingFtRead (s : State) (f : Nat) : State :=
  (List.range 16).foldl (fun t w => t.wrn (R.ING_FT_DATA w) (s.ftw f w)) s

/-- The policer of flow f. -/
def State.flowSt (s : State) (f : Nat) : FlowSt := Tab.get (fun _ => ({} : FlowSt)) s.ing.flows f

/-- Set the policer of flow f. -/
def State.setFlowSt (s : State) (f : Nat) (x : FlowSt) : State :=
  { s with ing := { s.ing with flows := Tab.put (fun _ => ({} : FlowSt)) s.ing.flows f x } }

/-- R85, R86: the buffer into entry f, subject to the checks; the bucket is full at the enable and clipped to a new CBS. -/
def State.ingFtWrite (s : State) (f : Nat) : State :=
  let w := fun i => s.rdn (R.ING_FT_DATA i)
  if !s.ftWriteOk f w then s.refuse 0x05 else
  let was := ftEn (s.ftw f 0)
  let t := (List.range 12).foldl (fun t i => t.setFtw f i (w i)) s
  let cap := bitsOf (w 11) 23 0 * 8000
  let x := s.flowSt f
  if ftEn (w 0) && !was then t.setFlowSt f { x with tok := cap, tLast := s.clk.stc } else t.setFlowSt f { x with tok := min x.tok cap }

/-! ## Policer and merge (R86-R88) -/

/-- The policer's arithmetic (R86): tokens left, and whether the packet is admitted. -/
def police (tok tLast t cir cbs len ovh : Nat) : Nat × Bool :=
  let tok := min (cbs * 8000) (tok + (t - tLast) * cir)
  let need := (len + ovh) * 8000
  if need ≤ tok then (tok - need, true) else (tok, false)

/-- R86, R87: the policer acts on a matched packet; the first drop of a flow in a Meridian frame raises event 0x0505. -/
def State.policeFlow (s : State) (f len port : Nat) : State × Bool :=
  let x := s.flowSt f
  let r := police x.tok x.tLast s.clk.stc (bitsOf (s.ftw f 10) 19 0) (bitsOf (s.ftw f 11) 23 0) len (s.f (F.ING_PORT_OVH_OVH port))
  if r.2 then ((s.setFlowSt f { x with tok := r.1, tLast := s.clk.stc }).bumpFtw f 12, true)
  else
    let fr := s.clk.vpos / s.clk.fu
    let s1 := ((s.setFlowSt f { x with tok := r.1, tLast := s.clk.stc, dropFrame := some fr }).bumpFtw f 13).setF F.ING_FLAGS_POLICED 1
    (if x.dropFrame = some fr then s1 else s1.raise 0x0505 f, false)

/-- The merge of one type and target. -/
def State.merge (s : State) (ty target : Nat) : MergeSt := Tab.get (fun _ => ({} : MergeSt)) s.ing.merges (64 * ty + target)

/-- Set the merge of one type and target. -/
def State.setMerge (s : State) (ty target : Nat) (m : MergeSt) : State :=
  { s with ing := { s.ing with merges := Tab.put (fun _ => ({} : MergeSt)) s.ing.merges (64 * ty + target) m } }

/-- Unwrap a sequence number of `bits` bits against the highest number seen (R88). -/
def unwrapSeq (bits : Nat) (m : MergeSt) (seq : Nat) : Int :=
  if !m.seen then (seq : Int) else
  let d := ((seq : Int) - m.hi) % (2 ^ bits : Nat)
  if 2 * d < (2 ^ bits : Nat) then m.hi + d else m.hi + d - (2 ^ bits : Nat)

/-- What the merge makes of a copy (R88): it is kept; it is a duplicate, or leg B's copy of the same stamp is, which the number names by its flow; it
lies below the window. -/
inductive MergeRes where
  | keep
  | dup (instead : Option Nat)
  | old
  deriving DecidableEq, Repr

/-- A leg has admitted a packet in a Meridian frame. -/
def MergeSt.heard (m : MergeSt) (leg frame : Nat) : MergeSt :=
  if leg = 0 then (if m.legA = some frame then m else { m with legA := some frame, legA1 := m.legA })
  else if m.legB = some frame then m else { m with legB := some frame, legB1 := m.legB }

/-- Did a leg admit a packet in the frame before `frame`? -/
def heardBefore (last before : Option Nat) (frame : Nat) : Bool :=
  frame != 0 && (last == some (frame - 1) || (last == some frame && before == some (frame - 1)))

/-- R88: keep the first copy of each number; a later copy is a duplicate; one below the 32,768 numbers under the highest is
out of window. Of two copies of one stamp, leg A's is kept: the two are the same packet, so only the count tells them apart (assumption 18). -/
def mergeStep (bits : Nat) (m : MergeSt) (leg frame stamp flow seq : Nat) : MergeRes × Int × MergeSt :=
  let n := unwrapSeq bits m seq
  let m1 := m.heard leg frame
  if m.seen ∧ n < m.hi - 32768 then (.old, n, m1)
  else if n ∈ m.nums then
    (match (if leg = 0 ∧ m.bAt = stamp then m.bNums.find? (fun e => e.1 == n) else none) with
    | some e => (.dup (some e.2), n, { m1 with bNums := m.bNums.filter (fun e => e.1 != n) })
    | none => (.dup none, n, m1))
  else
    let hi := if m.seen then max m.hi n else n
    let b := if m.bAt = stamp then m.bNums else []
    (.keep, n, { m1 with seen := true, hi := hi, nums := (n :: m.nums).filter (fun x => decide (hi - 32768 ≤ x)), bAt := stamp,
                         bNums := if leg = 0 then b else (n, flow) :: b })

/-- The merge acts on an admitted packet of flow f (R88): duplicates are counted in DUP_CNT, old copies in DISCARD_CNT; what it keeps is handed on
with its unwrapped number. -/
def State.mergeFlow (s : State) (f bits seq : Nat) : State × Option Int :=
  let ty := ftType (s.ftw f 0)
  let tg := ftTarget (s.ftw f 1)
  let r := mergeStep bits (s.merge ty tg) (ftLeg (s.ftw f 0)) (s.clk.vpos / s.clk.fu) s.clk.vpos f seq
  let s := s.setMerge ty tg r.2.2
  match r.1 with
  | .keep => (s, some r.2.1)
  | .dup b => (s.bumpFtw (b.getD f) 14, none)
  | .old => (s.bumpFtw f 15, none)

/-- R88: at a frame start, a pair of which one leg admitted nothing for the whole frame before while the other did. -/
def State.legLoss (s : State) (ty target : Nat) : State :=
  match s.toPhase 2 0 with
  | none => s
  | some s =>
    let m := s.merge ty target
    let pair := [0, 1].all (fun leg => s.ingFlows.any (fun f =>
      ftType (s.ftw f 0) == ty && ftTarget (s.ftw f 1) == target && ftLeg (s.ftw f 0) == leg))
    let fr := s.clk.vpos / s.clk.fu
    if pair && heardBefore m.legA m.legA1 fr != heardBefore m.legB m.legB1 fr then (s.setF F.ING_FLAGS_LEG_LOSS 1).raise 0x0506 target else s

/-! ## Inputs (R89-R95) -/

/-- The flow type a context takes: 3 HEVC, 4 VVC, 5 TS (R105). -/
def State.ctxType (s : State) (x : Nat) : Nat := if s.on (F.DEC_CTX_CTL_TS x) then 5 else 3 + s.f (F.DEC_CTX_CTL_CODEC x)

/-- The input i. -/
def State.inp (s : State) (i : Nat) : InputSt := Tab.get (fun _ => ({} : InputSt)) s.ing.inputs i

/-- Set the input i. -/
def State.setInp (s : State) (i : Nat) (x : InputSt) : State :=
  { s with ing := { s.ing with inputs := Tab.put (fun _ => ({} : InputSt)) s.ing.inputs i x } }

/-- The values of a composition set that govern a frame starting at v: the last with its position at or before v (R111). -/
def CompCh.setAt (x : CompCh) (j v : Nat) : SetVal :=
  match ((Tab.get (fun _ => ([] : List (Nat × SetVal))) x.hist j).filter (fun e => decide (e.1 ≤ v))).getLast? with
  | some e => e.2
  | none => {}

/-- The composition function of channel c. -/
def State.cmp (s : State) (c : Nat) : CompCh := Tab.get (fun _ => ({} : CompCh)) s.comp.chs c

/-- The picture of a clip that layer g of channel c shows in channel frame k (R119). -/
def State.clipShown (s : State) (sv : SetVal) (k : Nat) : Nat :=
  let n := k - sv.k0.getD k
  let frames := max 1 (s.rdn (R.COMP_CLIP_FRAMES (bitsOf sv.ctl 19 12)))
  if bitsOf sv.ctl 26 26 = 1 then n % frames else min n (frames - 1)

/-- The picture of frame k that has been received so far. -/
def InputSt.later (x : InputSt) (k : Nat) : Pic := Tab.get (fun _ => ({} : Pic)) x.nxt k

/-- The frame after the one in progress becomes the frame in progress, with what has been received for it. -/
def InputSt.advance (x : InputSt) (k v : Nat) : InputSt :=
  { x with startV := v, idx := k, nextLine := 0, missing := 0, latched := false, cur := x.later k, nxt := x.nxt.filter (fun e => decide (k < e.1)) }

/-- The staged registers in force for a frame are those that were at its start (R15), before any later frame's. A step since may have given the frame
another index and start (R42). -/
def State.inputLatch (s : State) (i : Nat) : State :=
  let st := s.inp i
  if st.latched then s else
  let kv := s.chanFrom (s.f (F.ING_IN_CTL_CH i)) st.startV
  let st := if st.stopV.isSome ∨ kv = (st.idx, st.startV) then st else if kv.1 = st.idx then { st with startV := kv.2 } else st.advance kv.1 kv.2
  s.setInp i { st with latched := true, org := s.wordAt (R.ING_IN_ORIGIN i) st.startV, ctl := s.wordAt (R.ING_IN_CTL i) st.startV,
                       flat0 := s.wordAt (R.ING_IN_FLAT_0 i) st.startV, flat1 := s.wordAt (R.ING_IN_FLAT_1 i) st.startV }

/-- The inputs that channel c times take what is in force for a frame that started before `d` (R15, R93). -/
def State.inputLatches (s : State) (c d : Nat) : State :=
  (List.range 64).foldl (fun (t : State) i =>
    if t.on (F.ING_IN_STATUS_RUN i) && t.f (F.ING_IN_CTL_CH i) == c && decide ((t.inp i).startV < d) then t.inputLatch i else t) s

/-- Channel c enters OFF (R90): an input that it times completes the frame in progress and then stops; one whose next frame has not started stops now. -/
def State.stopInputs (s : State) (c : Nat) : State :=
  (List.range 64).foldl (fun (t : State) i =>
    let st := t.inp i
    if !(t.on (F.ING_IN_STATUS_RUN i) && t.f (F.ING_IN_CTL_CH i) == c) then t
    else if st.startV ≤ t.clk.vpos then t.setInp i { st with stopV := some t.clk.vpos, nxt := [] }
    else (t.setInp i { runV := t.clk.vpos }).setF (F.ING_IN_STATUS_RUN i) 0) s

/-- The flat colour of input i, in its own depth (R93). -/
def State.flatPx (s : State) (i : Nat) : Px :=
  let sh := 12 - depthBits (s.f (F.ING_IN_CTL_DEPTH i))
  let st := s.inp i
  { a := bitsOf st.flat0 11 0 / 2 ^ sh, b := bitsOf st.flat0 27 16 / 2 ^ sh, c := bitsOf st.flat1 11 0 / 2 ^ sh }

/-- Line q of the clip that input i substitutes from, at position x; flat colour where the clip has none (R93). -/
def State.clipSubPx (s : State) (i q x : Nat) : Px :=
  let ch := s.f (F.ING_IN_CTL_CH i)
  let st := s.inp i
  let sv := (s.cmp ch).setAt (4 + bitsOf st.ctl 12 12) st.startV
  let d := bitsOf sv.ctl 19 12
  let fmt := s.f (F.ING_IN_CTL_FMT i)
  if sv.ctl % 2 = 0 ∨ s.on (F.COMP_CLIP_CTL_VALID d) = false ∨ s.f (F.COMP_CLIP_CTL_FMT d) ≠ fmt
      ∨ s.f (F.COMP_CLIP_CTL_DEPTH d) ≠ s.f (F.ING_IN_CTL_DEPTH i) ∨ s.f (F.COMP_CLIP_SIZE_W d) ≤ x ∨ s.f (F.COMP_CLIP_SIZE_H d) ≤ q
  then s.flatPx i
  else
    let f := s.clipShown sv st.idx
    let cx := if fmt = 0 ∨ fmt = 2 then x / 2 else x
    let cy := if fmt = 2 then q / 2 else q
    { a := s.clipSample d f 0 x q, b := s.clipSample d f 1 cx cy, c := s.clipSample d f 2 cx cy }

/-- The pixels of a substituted line, by the policy in force (R93). -/
def State.substLine (s : State) (i q : Nat) : Tab (Option Px) :=
  let w := s.f (F.ING_IN_SIZE_W i)
  let px := fun x => match bitsOf (s.inp i).ctl 11 10 with
    | 0 => (match (s.inp i).prev with | some p => p.pixel q x | none => s.flatPx i)
    | 1 => s.clipSubPx i q x
    | _ => s.flatPx i
  (List.range w).map (fun x => (x, some (px x)))

/-- u_in of input i (R89): the u of R35 with L_in. -/
def State.inputUnit (s : State) (i : Nat) : Option Nat :=
  let ch := s.f (F.ING_IN_CTL_CH i)
  match rasterLines (s.f (F.ING_IN_LINES_L_IN i)) (s.f (F.ING_IN_SIZE_H i)) with
  | none => none
  | some l => lineUnit s.clk.lm (s.rdn R.MER_CAD_NUM) (s.rdn R.MER_CAD_DEN) l (s.f (F.ENC_CH_RATE_NUM ch)) (s.f (F.ENC_CH_RATE_DEN ch))

/-- The divisor m of a decoded input: the channel rate over the context's rate, an integer from 1 to 8 (R97). -/
def State.ctxDivisor (s : State) (i : Nat) : Option Nat :=
  let ch := s.f (F.ING_IN_CTL_CH i)
  let x := s.f (F.ING_IN_CTL_DEC_CTX i)
  let a := s.f (F.ENC_CH_RATE_NUM ch) * s.f (F.DEC_CTX_RATE_DEN x)
  let b := s.f (F.ENC_CH_RATE_DEN ch) * s.f (F.DEC_CTX_RATE_NUM x)
  if b = 0 then none else if a % b = 0 ∧ 1 ≤ a / b ∧ a / b ≤ 8 then some (a / b) else none

/-- The chroma code of pb (0 4:2:0, 1 4:2:2, 2 4:4:4) of an input format code. -/
def fmtChroma (fmt : Nat) : Nat := if fmt = 0 then 1 else if fmt = 2 then 0 else 2

/-- The pool demand of input i, MiB (R302). -/
def State.inputDemand (s : State) (i : Nat) : Nat :=
  let pb := picBytes (s.f (F.ING_IN_SIZE_W i)) (s.f (F.ING_IN_SIZE_H i)) (fmtChroma (s.f (F.ING_IN_CTL_FMT i))) (s.f (F.ING_IN_CTL_DEPTH i))
  if s.on (F.ING_IN_CTL_SRC i) then toMiB (2 * pb)
  else
    let anc := s.ingFlows.any (fun f => ftType (s.ftw f 0) == 1 && ftTarget (s.ftw f 1) == i)
    toMiB (3 * pb + (if anc then 131072 else 0))

/-- R89, R97, R302: the checks of an input's enable. -/
def State.inputOk (s : State) (i : Nat) : Bool :=
  let w := s.f (F.ING_IN_SIZE_W i)
  let h := s.f (F.ING_IN_SIZE_H i)
  let src := s.on (F.ING_IN_CTL_SRC i)
  let fmt := s.f (F.ING_IN_CTL_FMT i)
  (s.inputUnit i).isSome && s.active (fnEnc (s.f (F.ING_IN_CTL_CH i))) && decide (s.rdn (R.ING_IN_ORIGIN i) < s.clk.fu)
    && decide (64 ≤ w) && decide (w ≤ 8192) && decide (64 ≤ h) && decide (h ≤ 4352)
    && decide (s.f (F.ING_IN_CTL_POLICY i) ≤ 2) && decide (s.f (F.ING_IN_CTL_DEPTH i) ≤ 2) && decide (s.f (F.ING_IN_SUBST_PIC_THR i) ≤ 4352)
    && (!src || (!s.on (F.ING_IN_CTL_BPM i) && (s.ctxDivisor i).isSome && (fmt == 0 || fmt == 2) && decide (s.f (F.ING_IN_CTL_DEPTH i) ≠ 2)))
    && s.poolFits (s.f (F.ING_IN_CTL_STACK i)) (s.inputDemand i)

/-- An input's enable: its threshold trains anew (R352). -/
def State.jitReset (s : State) (i : Nat) : State :=
  ({ s with cal := { s.cal with jit := Tab.put (fun _ => ({} : JitSt)) s.cal.jit i {} } }).wrn (R.CAL_JIT_THR i) 0

/-- ING_IN_i_CTL takes the value `new`: an enable is checked (R89); while EN is 1 only EN and the staged fields may change
(R103), and these are held (R15). -/
def State.inputWrite (s : State) (i : Nat) (new : Word) : State :=
  let a := R.ING_IN_CTL i
  let en := s.on (F.ING_IN_CTL_EN i)
  let want := bitsOf new.toNat 0 0 == 1
  let fixed := fun n => bitsOf n 9 1 + 1024 * bitsOf n 31 14
  if bitsOf new.toNat 18 18 = 1 ∧ bitsOf new.toNat 1 1 = 1 then s.refuse 0x05
  else if en && decide (fixed new.toNat ≠ fixed (s.rdn a)) then s.refuse 0x05
  else if en && want then s.stage a new s.clk.vpos
  else if en then
    (((s.wr a new).flushHeld a 0x40).wrn (R.ING_IN_STATUS i) 0 |>.setInp i { runV := s.clk.vpos } |>.wrn (R.ING_IN_UNIT i) 0).poolReturn (1000 + i)
  else if want then
    let s1 := s.wr a new
    if s1.inputOk i then
      ((s1.setInp i { waiting := true, enV := some s.clk.vpos }).jitReset i |>.wrn (R.ING_IN_UNIT i) ((s1.inputUnit i).getD 0)).poolTake (1000 + i) (s1.f (F.ING_IN_CTL_STACK i)) (s1.inputDemand i)
    else s.refuse 0x05
  else s.wr a new

/-- R103: an enabled input starts at the first frame start of its timing channel after its enable (R29); RUN reads 1. -/
def State.inputStart (s : State) (i : Nat) : State :=
  let ch := s.f (F.ING_IN_CTL_CH i)
  let x := s.inp i
  if !(s.on (F.ING_IN_CTL_EN i) && x.waiting && s.active (fnEnc ch)) then s else
  match (match x.enV with | some v0 => s.toChanAfter 2 ch v0 | none => s.toChanStart 2 ch) with
  | none => s
  | some (s, k, v) => (s.setInp i { x.advance k v with waiting := false, runV := v }).setF (F.ING_IN_STATUS_RUN i) 1

/-- R90: a stopped input restarts at its channel's first frame start after the channel leaves OFF; its stored picture is
absent. Its line unit is that of the channel's rate now; an input without one stays stopped (assumption 16). -/
def State.inputRestart (s : State) (i : Nat) : State :=
  let ch := s.f (F.ING_IN_CTL_CH i)
  if !s.on (F.ING_IN_CTL_EN i) || s.on (F.ING_IN_STATUS_RUN i) || (s.inp i).waiting || !s.active (fnEnc ch) then s
  else match s.inputUnit i with
    | none => s
    | some u => ((s.setInp i { waiting := true, enV := none }).wrn (R.ING_IN_UNIT i) u).inputStart i

/-- R352: the arrival threshold of input i learns the margin `m` of a picture, ns; after 16 pictures a margin below it warns. -/
def State.jitLoop (s : State) (i : Nat) (m : Int) : State :=
  if !(s.active fnCal && s.on F.CAL_CTL_JIT_EN) then s else
  let x := Tab.get (fun _ => ({} : JitSt)) s.cal.jit i
  let thr := signedOf 32 (s.rdn (R.CAL_JIT_THR i))
  let ka := s.f F.CAL_JIT_CTL_AVG
  let s := if decide (16 ≤ x.pics) && decide (m < thr) then ((s.bump (R.CAL_JIT_WARN_CNT i)).setF F.CAL_FLAGS_JIT_WARN 1).raise 0x1507 i else s
  let mean := x.mean + sar (m - x.mean) ka
  let dev := x.dev + sar (((m - mean).natAbs : Int) - x.dev) ka
  let s := (s.wrn (R.CAL_JIT_MARGIN i) (sat32 m)).wrn (R.CAL_JIT_THR i) (sat32 (max (s.f F.CAL_JIT_CTL_FLOOR : Int) (mean - (s.f F.CAL_JIT_CTL_K : Int) * dev)))
  { s with cal := { s.cal with jit := Tab.put (fun _ => ({} : JitSt)) s.cal.jit i { pics := x.pics + 1, mean := mean, dev := dev } } }

/-- The picture in progress is complete (R90, R95): its flags are reported, it becomes the stored picture, and the next
frame's begins; or the input stops where its timing channel has entered OFF. -/
def State.inputNext (s : State) (i : Nat) : State :=
  let st := s.inp i
  let ch := s.f (F.ING_IN_CTL_CH i)
  let fr := s.clk.vpos / s.clk.fu
  let x := s.f (F.ING_IN_CTL_DEC_CTX i)
  let m := if s.on (F.ING_IN_CTL_SRC i) then s.merge (s.ctxType x) x else s.merge 0 i
  let fl := fun (b : Bool) => if b then 1 else 0
  let s := ((s.setF (F.ING_IN_STATUS_SUBST i) (fl st.cur.subst)).setF (F.ING_IN_STATUS_FULL i) (fl st.cur.full)).setF (F.ING_IN_STATUS_CONCEALED i) (fl st.cur.conc)
  let recent := fun (o : Option Nat) => match o with | some f => decide (fr ≤ f + 1) | none => false
  let s := (s.setF (F.ING_IN_STATUS_LEG_A i) (fl (recent m.legA))).setF (F.ING_IN_STATUS_LEG_B i) (fl (recent m.legB))
  let s := match st.jitMin with | some m => (s.probe 10 (fun x => x == i) m).jitLoop i m | none => s
  if st.stopV.isNone && s.active (fnEnc ch) then
    let nx := s.chanFrom ch (st.startV + 1)
    s.setInp i { st.advance nx.1 nx.2 with jitMin := none, prev := some st.cur }
  else (s.setInp i { runV := s.clk.vpos }).setF (F.ING_IN_STATUS_RUN i) 0

/-- Line q of the picture in progress is substituted (R93-R95): the first of a picture raises event 0x0502. -/
def State.substituteLine (s : State) (i q : Nat) : State :=
  let st := s.inp i
  let first := !st.cur.subst
  let l : LineSt := { px := s.substLine i q, closed := true, sub := true }
  let cur := { st.cur with lines := Tab.put (fun _ => ({} : LineSt)) st.cur.lines q l, subst := true }
  let thr := s.f (F.ING_IN_SUBST_PIC_THR i)
  let s := (s.setInp i { st with cur := cur, missing := st.missing + 1 }).bump (R.ING_IN_LINES_SUB i)
  let s := s.setF F.ING_FLAGS_SUBST 1
  let s := if first then (s.bump (R.ING_IN_PIC_SUB i)).raise 0x0502 i else s
  if thr ≠ 0 ∧ st.missing + 1 = thr then s.raise 0x0503 i else s

/-- R92, R93: the window of the next line of a network input closes, in decision class 4: the line is accepted when every
sample of it was carried by packets stamped strictly before the window's end, else substituted. -/
def State.windowClose (s : State) (i : Nat) : State :=
  if !s.on (F.ING_IN_STATUS_RUN i) || s.on (F.ING_IN_CTL_SRC i) then s else
  let s := s.inputLatch i
  let st := s.inp i
  let q := st.nextLine
  let d := st.startV + st.org + (q + 1) * s.rdn (R.ING_IN_UNIT i)
  match s.toPos 4 d with
  | none => s
  | some s =>
    let l := Tab.get (fun _ => ({} : LineSt)) st.cur.lines q
    let thr := s.f (F.ING_IN_SUBST_PIC_THR i)
    let whole := decide (l.px.length = s.f (F.ING_IN_SIZE_W i)) && decide (l.at_ < d)
    let mg := s.clk.nsOf (d - l.at_)
    let s := if whole && !(decide (thr ≠ 0) && decide (thr ≤ st.missing)) then
        (s.setInp i { st with jitMin := some (match st.jitMin with | some m => min m mg | none => (mg : Int)), cur := { st.cur with lines := Tab.put (fun _ => ({} : LineSt)) st.cur.lines q { l with closed := true } } }).bump (R.ING_IN_LINES_OK i)
      else s.substituteLine i q
    let st := s.inp i
    let h := s.f (F.ING_IN_SIZE_H i)
    let s := s.setInp i { st with nextLine := q + 1, cur := { st.cur with full := decide (st.missing = h) } }
    if q + 1 = h then s.inputNext i else s

/-- Store the pixels of a packet stamped `v` in a line (R92); the packet that completes the line gives its stamp (R352). -/
def putSeg (v : Nat) (w : Tab LineSt) (g : Seg) : Tab LineSt :=
  let l := Tab.get (fun _ => ({} : LineSt)) w g.line
  let px := Tab.putList (fun _ => (none : Option Px)) l.px g.x (g.px.map some)
  Tab.put (fun _ => ({} : LineSt)) w g.line { l with px := px, at_ := if px.length = l.px.length then l.at_ else v }

/-- Data of flow f discarded (R85). -/
def State.discard (s : State) (f : Nat) : State := s.bumpFtw f 15

/-- R91: the channel frame an input's media timestamp names. -/
def State.assign (s : State) (i ts bits : Nat) : Nat :=
  let ch := s.f (F.ING_IN_CTL_CH i)
  let delay := s.f (F.ING_IN_CTL_DELAY i)
  if s.on (F.ING_IN_CTL_SRC i) then
    let x := s.f (F.ING_IN_CTL_DEC_CTX i)
    mediaFrame s.mediaTime ts bits (s.f (F.DEC_CTX_RATE_NUM x)) (s.f (F.DEC_CTX_RATE_DEN x)) * (s.ctxDivisor i).getD 1 + delay
  else mediaFrame s.mediaTime ts bits (s.chanRate ch).1 (s.chanRate ch).2 + delay

/-- What R91 makes of data for frame k of an input. -/
inductive DataFor where
  | current
  | next (k : Nat)
  | past
  | outside
  deriving DecidableEq, Repr

/-- R91, R92: data for the current or the next frame of the timing channel is kept, also by an input that waits for its first frame; the input's picture
of an earlier frame takes data while one of its windows is open (assumption 16), and data for a picture whose windows have closed is late. -/
def State.dataFor (s : State) (i k : Nat) : DataFor :=
  let st := s.inp i
  let cur := s.chanIdx (s.f (F.ING_IN_CTL_CH i)) s.clk.vpos
  if !s.on (F.ING_IN_STATUS_RUN i) then (if k = cur ∨ k = cur + 1 then .next k else .outside)
  else if k = st.idx then .current
  else if st.idx < k ∧ k ≤ cur + 1 ∧ st.stopV = none then .next k
  else if k < st.idx ∧ cur ≤ k then .past
  else .outside

/-- Does an input take data: does it run, or wait for a frame of a timing channel that is not OFF, outside a hold (R42, R90, R91)? -/
def State.takesData (s : State) (i : Nat) : Bool :=
  !s.clk.inHold && (s.on (F.ING_IN_STATUS_RUN i) || ((s.inp i).waiting && s.active (fnEnc (s.f (F.ING_IN_CTL_CH i)))))

/-- The end of the window of line q of frame k of an input (R92). -/
def State.lineEnd (s : State) (i k q : Nat) : Nat :=
  let st := s.inp i
  let mine := s.on (F.ING_IN_STATUS_RUN i) && k == st.idx
  let v := if mine then st.startV else s.chanStart (s.f (F.ING_IN_CTL_CH i)) k
  v + (if mine && st.latched then st.org else s.wordAt (R.ING_IN_ORIGIN i) v) + (q + 1) * s.rdn (R.ING_IN_UNIT i)

/-- Has the window of a line of frame k closed, as far as a packet stamped now is concerned (R29, R92)? -/
def State.lineShut (s : State) (i k q : Nat) : Bool :=
  let st := s.inp i
  (s.on (F.ING_IN_STATUS_RUN i) && k == st.idx && decide (q < st.nextLine)) || decide (s.lineEnd i k q ≤ s.clk.vpos)

/-- The picture of an input with the samples of a packet. -/
def Pic.take (p : Pic) (v : Nat) (segs : List Seg) : Pic := { p with lines := segs.foldl (putSeg v) p.lines }

/-- The picture of frame k, of those to come, takes new data. -/
def InputSt.updLater (x : InputSt) (k : Nat) (f : Pic → Pic) : InputSt := { x with nxt := Tab.put (fun _ => ({} : Pic)) x.nxt k (f (x.later k)) }

/-- R91, R92: a merged ST 2110-20 packet: malformed, out of frame, late, or stored with its frame's picture. A packet that names a line with a closed
window is late as a whole (assumption 93). -/
def State.videoData (s : State) (f i ts : Nat) (segs : List Seg) : State :=
  let st := s.inp i
  let w := s.f (F.ING_IN_SIZE_W i)
  let h := s.f (F.ING_IN_SIZE_H i)
  if !s.takesData i then s.discard f
  else if segs.any (fun g => decide (h ≤ g.line) || decide (w < g.x + g.px.length)) then s.discard f
  else
    match s.dataFor i (s.assign i ts 32) with
    | .current =>
      if segs.any (fun g => s.lineShut i st.idx g.line) then (s.discard f).setF F.ING_FLAGS_LATE 1
      else s.setInp i { st with cur := st.cur.take s.clk.vpos segs }
    | .next k =>
      if segs.any (fun g => s.lineShut i k g.line) then (s.discard f).setF F.ING_FLAGS_LATE 1
      else s.setInp i (st.updLater k (fun p => p.take s.clk.vpos segs))
    | .past => (s.discard f).setF F.ING_FLAGS_LATE 1
    | .outside => (s.discard f).raise 0x0504 i

/-- The ancillary packets of a picture with one more, up to 65,536 bytes of a picture (R83). -/
def Pic.addAnc (p : Pic) (data : List Nat) : Option Pic :=
  if (p.anc.map List.length).sum + data.length ≤ 65536 then some { p with anc := p.anc ++ [data] } else none

/-- R91: a merged ST 2110-40 packet is stored with its frame's picture. -/
def State.ancData (s : State) (f i ts : Nat) (data : List Nat) : State :=
  let st := s.inp i
  if !s.takesData i then s.discard f else
  match s.dataFor i (s.assign i ts 32) with
  | .current => (match st.cur.addAnc data with | some p => s.setInp i { st with cur := p } | none => s.discard f)
  | .next k => (match (st.later k).addAnc data with | some p => s.setInp i (st.updLater k (fun _ => p)) | none => s.discard f)
  | .past =>
    (match st.prev.bind (fun p => p.addAnc data) with
    | some p => s.setInp i { st with prev := some p }
    | none => s.discard f)
  | .outside => (s.discard f).raise 0x0504 i

/-! ## NAL units of layers above 0 (R96) -/

/-- nuh_layer_id of a NAL unit header (HEVC, VVC). -/
def nalLayer (vvc : Bool) (b0 b1 : Nat) : Nat := if vvc then b0 % 64 else b0 % 2 * 32 + b1 / 8

/-- nal_unit_type of a NAL unit header (HEVC, VVC). -/
def nalTypeOf (vvc : Bool) (b0 b1 : Nat) : Nat := if vvc then b1 / 8 else b0 / 2 % 64

/-- The NAL units of layer 0 of an aggregation packet (RFC 7798, RFC 9328): each has its length in two bytes before it. -/
def apBase (vvc : Bool) : Nat → List Nat → List Nat
  | n + 1, a :: b :: r =>
    let nal := r.take (256 * a + b)
    (if nalLayer vvc (byteAt nal 0) (byteAt nal 1) = 0 then a :: b :: nal else []) ++ apBase vvc n (r.drop (256 * a + b))
  | _, _ => []

/-- What an RTP payload holds of layer 0: NAL units above it are discarded (R96). -/
def basePayload (vvc : Bool) (d : List Nat) : List Nat :=
  if nalTypeOf vvc (byteAt d 0) (byteAt d 1) = (if vvc then 28 else 48) then d.take 2 ++ apBase vvc d.length (d.drop 2)
  else if nalLayer vvc (byteAt d 0) (byteAt d 1) = 0 then d else []

/-- What a byte stream holds of layer 0, NAL unit by NAL unit from its start codes on; `keep`: the bytes now belong to layer 0. -/
def baseStream (vvc : Bool) (keep : Bool) : List Nat → List Nat
  | 0 :: 0 :: 1 :: b0 :: b1 :: r =>
    (if nalLayer vvc b0 b1 = 0 then [0, 0, 1, b0, b1] else []) ++ baseStream vvc (nalLayer vvc b0 b1 == 0) r
  | b :: r => (if keep then [b] else []) ++ baseStream vvc keep r
  | [] => []

/-! ## Contribution decode (R96-R102) -/

/-- The decode context x. -/
def State.ctx (s : State) (x : Nat) : DecSt := Tab.get (fun _ => ({} : DecSt)) s.ing.dec x

/-- Set the decode context x. -/
def State.setCtx (s : State) (x : Nat) (d : DecSt) : State :=
  { s with ing := { s.ing with dec := Tab.put (fun _ => ({} : DecSt)) s.ing.dec x d } }

/-- The enabled input that reads context x, if any. -/
def State.inputOfCtx (s : State) (x : Nat) : Option Nat :=
  (List.range 64).find? (fun i => s.on (F.ING_IN_CTL_EN i) && s.on (F.ING_IN_CTL_SRC i) && s.f (F.ING_IN_CTL_DEC_CTX i) == x)

/-- The load of context x, luma samples per second, rounded up (R97). -/
def State.ctxLoad (s : State) (x : Nat) : Nat :=
  ceilDiv (s.f (F.DEC_CTX_SIZE_W x) * s.f (F.DEC_CTX_SIZE_H x) * s.f (F.DEC_CTX_RATE_NUM x)) (s.f (F.DEC_CTX_RATE_DEN x))

/-- The load of engine e over its enabled contexts (R97). -/
def State.engineLoad (s : State) (e : Nat) : Nat :=
  ((List.range 16).map (fun x => if s.on (F.DEC_CTX_CTL_EN x) && s.f (F.DEC_CTX_CTL_ENGINE x) == e then s.ctxLoad x else 0)).sum

/-- The pool demand of context x, MiB (R302), of its largest 4:2:2 10-bit picture. -/
def State.ctxDemand (s : State) (x : Nat) : Nat := toMiB (7 * picBytes (s.f (F.DEC_CTX_SIZE_W x)) (s.f (F.DEC_CTX_SIZE_H x)) 1 1 + 4194304)

/-- R97, R105, R302: the checks of a context's enable; EN of the context is already 1 in `s`. A rate of 0 is refused (assumption 93). -/
def State.ctxOk (s : State) (x : Nat) : Bool :=
  let w := s.f (F.DEC_CTX_SIZE_W x)
  let h := s.f (F.DEC_CTX_SIZE_H x)
  let den := s.f (F.DEC_CTX_RATE_DEN x)
  s.feature 7 && decide (64 ≤ w) && decide (w ≤ 8192) && decide (64 ≤ h) && decide (h ≤ 4352) && decide (w * h ≤ 8912896)
    && (den == 1 || den == 1001) && decide (1 ≤ s.f (F.DEC_CTX_RATE_NUM x)) && decide (s.f (F.DEC_CTX_RATE_NUM x) ≤ 240 * den)
    && decide (s.engineLoad (s.f (F.DEC_CTX_CTL_ENGINE x)) ≤ 1050000000)
    && s.ingFlows.all (fun f => decide (ftType (s.ftw f 0) < 3) || ftTarget (s.ftw f 1) != x || ftType (s.ftw f 0) == s.ctxType x)
    && s.poolFits (s.f (F.DEC_CTX_CTL_STACK x)) (s.ctxDemand x)

/-- DEC_ENG_e_LOAD of every engine, in units of 1,000 luma samples per second (R105). -/
def State.engineLoads (s : State) : State :=
  (List.range 4).foldl (fun t e => t.wrn (R.DEC_ENG_LOAD e) (s.engineLoad e / 1000)) s

/-- DEC_CTX_x_CTL takes the value `new` (R97, R105). -/
def State.ctxWrite (s : State) (x : Nat) (new : Word) : State :=
  let a := R.DEC_CTX_CTL x
  let en := s.on (F.DEC_CTX_CTL_EN x)
  let want := bitsOf new.toNat 0 0 == 1
  if en && want then (if new = s.rd a then s else s.refuse 0x06)
  else if en then
    if bitsOf new.toNat 31 1 ≠ bitsOf (s.rdn a) 31 1 then s.refuse 0x06 else
    (((((s.wr a new).setCtx x {}).setF (F.DEC_CTX_STATUS_B2_0 x) 0).setFn (fnDec x) .off).poolReturn (fnDec x)).engineLoads
  else if want then
    let s1 := s.wr a new
    if s1.ctxOk x then
      ((((s1.setCtx x {}).setF (F.DEC_CTX_STATUS_B2_0 x) 1).setFn (fnDec x) .starting).poolTake (fnDec x) (s1.f (F.DEC_CTX_CTL_STACK x)) (s1.ctxDemand x)).engineLoads
    else s.refuse 0x06
  else s.wr a new

/-- Insert a packet's bytes in the order of sequence numbers. -/
def insPkt (n : Int) (d : List Nat) : List (Int × List Nat) → List (Int × List Nat)
  | [] => [(n, d)]
  | e :: r => if n < e.1 then (n, d) :: e :: r else e :: insPkt n d r

/-- The lowest sequence number of a unit. -/
def AuSt.first (u : AuSt) : Int := (u.pkts.map (fun e => e.1)).headD 0

/-- A packet of an access unit (R98): it joins the unit of its timestamp, in the order of the sequence numbers, or begins a new one; the marker, or the
first packet of the next unit, ends a unit. -/
def addUnit (us : List AuSt) (n : Int) (ts : Nat) (marker : Bool) (data : List Nat) : List AuSt :=
  if us.any (fun u => u.ts == ts) then
    us.map (fun u => if u.ts = ts then { u with pkts := insPkt n data u.pkts, complete := u.complete || marker } else u)
  else
    let old := us.filter (fun u => decide (u.first < n))
    let new := us.filter (fun u => !decide (u.first < n))
    old.map (fun u => { u with complete := true }) ++ { ts := ts, pkts := [(n, data)], complete := marker || !new.isEmpty } :: new

/-- R91, R98: merged data of context x; data of another frame than the current or the next is discarded, as is data stamped in a hold (R42), for a
context in FAULT (R14), or of a unit already taken. A context that no running input reads keeps data of every frame (assumption 93). -/
def State.unitData (s : State) (f x : Nat) (n : Int) (ts bits : Nat) (marker : Bool) (data : List Nat) : State :=
  let d := s.ctx x
  let late := match d.taken with | some m => decide (n ≤ m) | none => false
  if !(s.ready (fnDec x) || s.fn (fnDec x) == .starting) || s.clk.inHold || late then s.discard f else
  let keep := match s.inputOfCtx x with
    | none => true
    | some i =>
      let k := s.assign i ts bits
      let cur := s.chanIdx (s.f (F.ING_IN_CTL_CH i)) s.clk.vpos
      !s.on (F.ING_IN_STATUS_RUN i) || k == cur || k == cur + 1
  if keep then s.setCtx x { d with units := addUnit d.units n ts marker data }
  else (s.discard f).raise 0x0504 x

/-- The frame that a context's unit serves from, by R91; 0 where no input reads the context. -/
def State.unitFrame (s : State) (x : Nat) (u : AuSt) : Nat :=
  match s.inputOfCtx x with
  | some i => s.assign i u.ts (if s.on (F.DEC_CTX_CTL_TS x) then 33 else 32)
  | none => 0

/-- The acceptance deadline of a unit's picture: D = S + O_in of its frame (R98, R99); 0 where no input reads the context (assumption 93). -/
def State.unitDeadline (s : State) (x : Nat) (u : AuSt) : Nat :=
  match s.inputOfCtx x with
  | some i => s.chanStart (s.f (F.ING_IN_CTL_CH i)) (s.unitFrame x u) + s.originOf (R.ING_IN_ORIGIN i)
  | none => 0

/-- R98: engine e, idle, starts the complete unit with the earliest acceptance deadline; a tie goes to the lower context. -/
def State.unitStart (s : State) (e : Nat) : State :=
  let mine := (List.range 16).filter (fun x => s.on (F.DEC_CTX_CTL_EN x) && s.f (F.DEC_CTX_CTL_ENGINE x) == e && s.ready (fnDec x))
  if mine.any (fun x => (s.ctx x).running.isSome) then s else
  let cand := mine.filterMap (fun x => ((s.ctx x).units.find? (fun u => u.complete)).map (fun u => (s.unitDeadline x u, x, u)))
  let best := cand.foldl (fun (b : Option (Nat × Nat × AuSt)) c => match b with
    | none => some c
    | some b0 => if c.1 < b0.1 then some c else some b0) none
  match best with
  | none => s
  | some (_, x, u) =>
    s.setCtx x { s.ctx x with running := some u, units := (s.ctx x).units.erase u, taken := (u.pkts.map (fun e => e.1)).getLast? }

/-- Is a decoded picture nearer in output order to order count `poc` of IDR period `ep` than another; the earlier of two at equal distance
(R101)? Pictures of earlier periods come before all of this one. -/
def DecPic.nearer (ep : Nat) (poc : Int) (a b : DecPic) : Bool :=
  if a.ep = ep ∧ b.ep = ep then
    decide ((a.poc - poc).natAbs < (b.poc - poc).natAbs) || (decide ((a.poc - poc).natAbs = (b.poc - poc).natAbs) && decide (a.poc < b.poc))
  else decide (b.ep < a.ep) || (decide (a.ep = b.ep) && decide (b.poc < a.poc))

/-- The nearest decoded picture in output order (R101). -/
def nearestPic (ep : Nat) (poc : Int) : List DecPic → Option DecPic
  | [] => none
  | p :: r => match nearestPic ep poc r with
    | some q => if p.nearer ep poc q then some p else some q
    | none => some p

/-- The name of the picture that a reference names: the picture itself, or the nearest one where it was never received (R101). -/
def refTag (ep : Nat) (pics : List DecPic) (poc : Int) : Nat :=
  match pics.find? (fun p => decide (p.ep = ep) && decide (p.poc = poc)) with
  | some p => p.tag
  | none => ((nearestPic ep poc pics).map (fun p => p.tag)).getD 0

/-- The bytes of a unit that are decoded: layer 0 of its packets' payloads, or of its byte stream in TS (R96). -/
def State.unitBytes (s : State) (x : Nat) (u : AuSt) : List Nat :=
  let vvc := s.on (F.DEC_CTX_CTL_CODEC x)
  if s.on (F.DEC_CTX_CTL_TS x) then baseStream vvc true (u.pkts.flatMap (fun e => e.2)) else u.pkts.flatMap (fun e => basePayload vvc e.2)

/-- The samples of a decoded picture (R100, R101): its own CTUs, and for each lost one the co-located CTU of the nearest decoded picture. `own` is the
name of what its bytes decode to. -/
def concealed (own : Nat) (info : AuInfo) (near : Option DecPic) : DecSrc :=
  { srcs := (own, info.lost) :: (if info.lost = [] then [] else match near with | some p => p.src.srcs | none => [])
    ctu := info.ctu, cols := ceilDiv info.width info.ctu }

/-- The name of a picture with its concealed CTUs, by which later pictures refer to it. -/
def concealedTag (own : Nat) (info : AuInfo) (near : Option DecPic) : Nat :=
  if info.lost = [] then own
  else Config.decTag ((own :: info.lost.flatMap (fun r => [r.1, r.2])) ++ [match near with | some p => p.tag | none => 0])

/-- R96-R102: an engine completes an access unit of context x, with what it found in it; a context that is not READY completes none (R14). -/
def State.unitDecoded (s : State) (x : Nat) (info : AuInfo) : State :=
  let d := s.ctx x
  match d.running with
  | none => s
  | some u =>
    if !s.ready (fnDec x) then s else
    let s := s.setCtx x { d with running := none }
    if info.unsupported then s.raise 0x0607 x else
    let st := s.f (F.DEC_CTX_STATUS_B2_0 x)
    let vvc := s.on (F.DEC_CTX_CTL_CODEC x)
    let gdr := if vvc then info.gdrRecovery else none
    let rp := if vvc then none else info.rpSei
    let entry := info.irap || gdr.isSome || rp.isSome
    if st = 1 ∧ entry = false then s else
    let s := if st = 1 then s.raise 0x0606 x else s
    let s := if info.error then (s.bump (R.DEC_CTX_ERR_CNT x)).raise 0x0604 x else s
    let ep := if info.idr then d.ep + 1 else d.ep
    let have_ := fun (r : Int) => d.pics.any (fun p => decide (p.ep = ep) && decide (p.poc = r))
    let missing := if info.irap || st == 1 then [] else info.refs.filter (fun r => !have_ r)
    let s := missing.foldl (fun s _ => (s.bump (R.DEC_CTX_MISSREF_CNT x)).raise 0x0602 x) s
    let tainted := !info.irap && info.refs.any (fun r => d.pics.any (fun p => decide (p.ep = ep) && p.poc == r && p.concealed))
    let lossNow := info.missingSlice || info.error || info.lost != [] || missing != []
    let point := match gdr, rp with
      | some n, _ => some (info.poc + n)
      | none, some n => some (info.poc + n)
      | none, none => none
    let until_ := match point with | some p => some p | none => d.concealUntil
    let entry := d.entry || (st == 1 && !info.irap)
    let was := d.concealing || entry
    let ends := was && !lossNow && (info.irap || (match until_ with | some p => decide (p ≤ info.poc) | none => false))
    let conc := lossNow || (entry && !ends) || (tainted && !ends)
    let on := conc || (was && !ends)
    let s := if conc && !was && missing == [] then s.raise 0x0602 x else s
    let s := if ends then s.raise 0x0603 x else s
    let own := Config.decTag (info.refs.length :: info.refs.map (refTag ep d.pics) ++ s.unitBytes x u)
    let near := nearestPic ep info.poc d.pics
    let pic : DecPic :=
      { poc := info.poc, ep := ep, frame := s.unitFrame x u, doneV := s.clk.vpos, doneNs := s.clk.ns, tag := concealedTag own info near,
        src := concealed own info near, width := info.width, height := info.height, chroma422 := info.chroma422, depth10 := info.depth10,
        concealed := conc }
    let pics := (d.pics ++ [pic]).drop (d.pics.length + 1 - 24)
    let s := s.setCtx x { s.ctx x with pics := pics, ep := ep, concealing := on, concealUntil := if on then until_ else none, entry := entry && !ends }
    let s := (s.bump (R.DEC_CTX_PIC_CNT x)).setF (F.DEC_CTX_STATUS_B2_0 x) (if on then 3 else 2)
    let s := s.setF (F.DEC_CTX_STATUS_LAST x) (if conc then 1 else 0)
    if conc then s.bump (R.DEC_CTX_CONC_CNT x) else s

/-- A whole picture of input i is substituted under R93. -/
def State.substitutePicture (s : State) (i : Nat) (conc : Bool) : State :=
  let st := s.inp i
  let h := s.f (F.ING_IN_SIZE_H i)
  let pic : Pic := match bitsOf st.ctl 11 10 with
    | 0 => (match st.prev with | some p => { p with anc := [] } | none => { base := .flat (s.flatPx i) })
    | 1 => { lines := (List.range h).map (fun q => (q, { px := s.substLine i q, closed := true, sub := true })) }
    | _ => { base := .flat (s.flatPx i) }
  let s := s.setInp i { st with cur := { pic with subst := true, full := true, conc := conc }, missing := h }
  (((s.bumpBy (R.ING_IN_LINES_SUB i) h).bump (R.ING_IN_PIC_SUB i)).setF F.ING_FLAGS_SUBST 1).raise 0x0502 i

/-- R99, R102: at D = S + O_in, in decision class 4, the decoded picture of the span is accepted when its decode completed
strictly before D and it matches the input; else the whole picture is substituted. -/
def State.pictureDecision (s : State) (i : Nat) : State :=
  if !s.on (F.ING_IN_STATUS_RUN i) || !s.on (F.ING_IN_CTL_SRC i) then s else
  let s := s.inputLatch i
  let st := s.inp i
  let d := st.startV + st.org
  match s.toPos 4 d with
  | none => s
  | some s =>
    let x := s.f (F.ING_IN_CTL_DEC_CTX i)
    let m := (s.ctxDivisor i).getD 1
    let pic := ((s.ctx x).pics.filter (fun p => decide (p.frame ≤ st.idx) && decide (st.idx < p.frame + m) && decide (p.doneV < d))).getLast?
    let first := decide ((st.idx + 8 * m - s.f (F.ING_IN_CTL_DELAY i)) % m = 0)
    let s := match pic with
      | none =>
        let s := if first && (s.f (F.DEC_CTX_STATUS_B2_0 x) == 2 || s.f (F.DEC_CTX_STATUS_B2_0 x) == 3) then (s.bump (R.DEC_CTX_LATE_CNT x)).raise 0x0605 x else s
        s.substitutePicture i false
      | some p =>
        let fits := p.width == s.f (F.ING_IN_SIZE_W i) && p.height == s.f (F.ING_IN_SIZE_H i)
          && p.chroma422 == (s.f (F.ING_IN_CTL_FMT i) == 0) && p.depth10 == (s.f (F.ING_IN_CTL_DEPTH i) == 1)
        if !fits then (s.substitutePicture i false).raise 0x0507 i
        else if p.concealed && bitsOf st.ctl 13 13 == 1 then s.substitutePicture i true
        else
          let s := s.setInp i { s.inp i with cur := { base := .decoded p.src, conc := p.concealed, anc := (s.inp i).cur.anc } }
          s.bumpBy (R.ING_IN_LINES_OK i) (s.f (F.ING_IN_SIZE_H i))
    s.inputNext i

/-! ## The receive path -/

/-- ING_CTL takes the value `v`: EN starts and stops the flow groups of all ports together (R373; assumption 23). -/
def State.ingCtlWrite (s : State) (v : Word) : State :=
  let was := s.on F.ING_CTL_EN
  let t := s.wr R.ING_CTL v
  if t.on F.ING_CTL_EN && !was then (List.range 8).foldl (fun (t : State) p => if t.fn (fnIng p) == .off then t.setFn (fnIng p) .starting else t) t
  else if !t.on F.ING_CTL_EN && was then (List.range 8).foldl (fun (t : State) p => t.setFn (fnIng p) .off) t
  else t

/-- The sample row data headers of a packet: in 4:2:0 one header covers the two lines of a pair (R83). -/
def headerCount (fmt : Nat) (segs : List Seg) : Nat :=
  if fmt = 2 then ((segs.map (fun g => (g.line / 2, g.x))).eraseDups).length else segs.length

/-- R84-R92: a UDP packet that reached an ingest flow group: matched, policed, merged; video, ancillary and coded data are
stored. What the merge keeps of an ST 2110-30 flow is handed on, with the flow. Of two flows that match, one with SRC_FILT and one without, the first
entry takes the packet (assumption 93). -/
def State.ingPacket (s : State) (p : IngPacket) : State × Option (Nat × Nat × List (List Int)) :=
  if !s.ready (fnIng p.port) then (s, none) else
  match s.ingFlows.find? (s.ingMatch p) with
  | none => ((s.bump R.ING_UNMATCHED_CNT).setF F.ING_FLAGS_UNMATCHED 1, none)
  | some f =>
    let r := s.policeFlow f p.len p.port
    if !r.2 then (r.1, none) else
    let s := r.1
    let ty := ftType (s.ftw f 0)
    let tg := ftTarget (s.ftw f 1)
    match p.body with
    | .video20 seq ts fb segs =>
      if ty ≠ 0 ∨ fb = true ∨ 3 < headerCount (s.f (F.ING_IN_CTL_FMT tg)) segs then (s.discard f, none) else
      let r := s.mergeFlow f 32 seq
      (if r.2.isSome then r.1.videoData f tg ts segs else r.1, none)
    | .anc40 seq ts fb data =>
      if ty ≠ 1 ∨ fb = true then (s.discard f, none) else
      let r := s.mergeFlow f 16 seq
      (if r.2.isSome then r.1.ancData f tg ts data else r.1, none)
    | .audio30 seq ts samples =>
      if ty ≠ 2 then (s.discard f, none) else
      let r := s.mergeFlow f 16 seq
      (r.1, if r.2.isSome then some (f, ts, samples) else none)
    | .unit seq ts marker data =>
      if ty ≠ 3 ∧ ty ≠ 4 then (s.discard f, none) else
      let r := s.mergeFlow f 16 seq
      (match r.2 with | some n => r.1.unitData f tg n ts 32 marker data | none => r.1, none)
    | .pes seq pts pid _ data =>
      if ty ≠ 5 ∨ pid ≠ s.f (F.DEC_CTX_PID_PID tg) then (s.discard f, none) else
      let r := s.mergeFlow f 16 seq
      (match r.2 with | some n => r.1.unitData f tg n pts 33 false data | none => r.1, none)

end Sys2Proof.Machine
end

