-- ==== Sys2Proof/Machine/Comp.lean ====
section
/-!
DEFINITION. Sys2Proof/Machine/Comp.lean: composition (spec/06_composition.md): sets, fences and flips, the checks of an enable and a
commit, the mesh check, the composition of output rows, draining and retirement. Set j of a channel is layer j for j from
0 to 7 and the channel set for j = 8.
-/

namespace Sys2Proof.Machine

/-- Set the composition function of channel c. -/
def State.setCmp (s : State) (c : Nat) (x : CompCh) : State :=
  { s with comp := { s.comp with chs := Tab.put (fun _ => ({} : CompCh)) s.comp.chs c x } }

/-- The history of set j. -/
def CompCh.histOf (x : CompCh) (j : Nat) : List (Nat × SetVal) := Tab.get (fun _ => ([] : List (Nat × SetVal))) x.hist j

/-- The history of set j replaced. -/
def CompCh.setHist (x : CompCh) (j : Nat) (h : List (Nat × SetVal)) : CompCh :=
  { x with hist := Tab.put (fun _ => ([] : List (Nat × SetVal))) x.hist j h }

/-- The set last made current: the last to flip. -/
def CompCh.current (x : CompCh) (j : Nat) : SetVal := match (x.histOf j).getLast? with | some e => e.2 | none => {}

/-- The pending set j. -/
def CompCh.pendOf (x : CompCh) (j : Nat) : Option PendSet := Tab.get (fun _ => (none : Option PendSet)) x.pend j

/-- The pending set j replaced. -/
def CompCh.setPend (x : CompCh) (j : Nat) (p : Option PendSet) : CompCh :=
  { x with pend := Tab.put (fun _ => (none : Option PendSet)) x.pend j p }

/-- The set that counts as named: the pending one where there is one, else the current one. -/
def CompCh.latest (x : CompCh) (j : Nat) : SetVal := match x.pendOf j with | some p => p.val | none => x.current j

/-- The status register of set j, and its counters. -/
def setStatusReg (c j : Nat) : Nat := if j = 8 then R.COMP_CH_SET_STATUS c else R.COMP_CH_L_STATUS c j
def setHeldReg (c j : Nat) : Nat := if j = 8 then R.COMP_CH_HELD_CNT c else R.COMP_CH_L_HELD_CNT c j
def setRetireReg (c j : Nat) : Nat := if j = 8 then R.COMP_CH_RETIRE_CNT c else R.COMP_CH_L_RETIRE_CNT c j

/-- Set a bit of the status register of set j. -/
def State.setStat (s : State) (c j b : Nat) (v : Bool) : State :=
  s.setF ⟨setStatusReg c j, b, b⟩ (if v then 1 else 0)

/-- The values of the pending registers of set j (R109). -/
def State.pendRegs (s : State) (c j : Nat) : SetVal :=
  if j = 8 then
    { ctl := s.rdn (R.COMP_CH_SET_CTL c), zorder := s.rdn (R.COMP_CH_SET_ZORDER c), bg0 := s.rdn (R.COMP_CH_SET_BG_0 c),
      bg1 := s.rdn (R.COMP_CH_SET_BG_1 c), mesh := s.rdn (R.COMP_CH_SET_MESH c) }
  else
    { ctl := s.rdn (R.COMP_CH_L_CTL c j), srcXY := s.rdn (R.COMP_CH_L_SRC_XY c j), srcWH := s.rdn (R.COMP_CH_L_SRC_WH c j),
      dstXY := s.rdn (R.COMP_CH_L_DST_XY c j), alpha := s.rdn (R.COMP_CH_L_ALPHA c j),
      addr := s.rd64 (R.COMP_CH_L_ADDR_LO c j) (R.COMP_CH_L_ADDR_HI c j), pitch := s.rdn (R.COMP_CH_L_PITCH c j) }

/-! ## Geometry (R107) -/

/-- A layer's fields. -/
def SetVal.en (v : SetVal) : Bool := v.ctl % 2 == 1
def SetVal.src (v : SetVal) : Nat := bitsOf v.ctl 19 12
def SetVal.repX (v : SetVal) : Nat := 2 ^ bitsOf v.ctl 21 20
def SetVal.repY (v : SetVal) : Nat := 2 ^ bitsOf v.ctl 23 22
def SetVal.fmt (v : SetVal) : Nat := bitsOf v.ctl 24 24
def SetVal.premul (v : SetVal) : Bool := bitsOf v.ctl 25 25 == 1
def SetVal.sx (v : SetVal) : Nat := bitsOf v.srcXY 15 0
def SetVal.sy (v : SetVal) : Nat := bitsOf v.srcXY 31 16
def SetVal.dx (v : SetVal) : Int := signedOf 16 (bitsOf v.dstXY 15 0)
def SetVal.dy (v : SetVal) : Int := signedOf 16 (bitsOf v.dstXY 31 16)
/-- Source width and height; the cursor is 256 × 256 and ignores SRC_WH (R121). -/
def SetVal.sw (g : Nat) (v : SetVal) : Nat := if g = 7 then 256 else bitsOf v.srcWH 15 0
def SetVal.sh (g : Nat) (v : SetVal) : Nat := if g = 7 then 256 else bitsOf v.srcWH 31 16

/-- The covered canvas interval of one axis: [start, end), clipped to n. -/
def clipSpan (d : Int) (len n : Nat) : Nat × Nat := ((clampI 0 n d).toNat, (clampI 0 n (d + len)).toNat)

/-- The clipped area of a layer, canvas pixels (R108). -/
def SetVal.area (g w h : Nat) (v : SetVal) : Nat :=
  if !v.en then 0 else
  let x := clipSpan v.dx (v.sw g * v.repX) w
  let y := clipSpan v.dy (v.sh g * v.repY) h
  (x.2 - x.1) * (y.2 - y.1)

/-- Bytes of one line of a surface (R118): up to the last column that is shown; the cursor ignores SRC_XY (R121). Counting the columns before
SRC_XY.X is a reading (assumption 94). -/
def SetVal.lineBytes (g : Nat) (v : SetVal) : Nat := (if g = 7 then 256 else v.sx + v.sw g) * (if v.fmt = 0 then 4 else 8)

/-- Lines of a surface that a set reads (R118, R121). -/
def SetVal.surfLines (g : Nat) (v : SetVal) : Nat := if g = 7 then 256 else v.sy + v.sh g

/-! ## The checks (R107, R108, R114, R115, R118, R119, R122) -/

/-- The fetch load of channel c, pix/s (R108). -/
def State.compLoadOf (s : State) (c : Nat) : Nat :=
  let x := s.cmp c
  let w := s.f (F.COMP_CH_CANVAS_W c)
  let h := s.f (F.COMP_CH_CANVAS_H c)
  ((List.range 8).map (fun g =>
    let a := max ((x.current g).area g w h) (match x.pendOf g with | some p => p.val.area g w h | none => 0)
    ceilDiv (a * (s.chanRate c).1) (s.chanRate c).2)).sum

/-- The load of every channel that is not OFF, with channel `with_` (R108). -/
def State.compLoad (s : State) (with_ : Nat) : Nat :=
  ((List.range 32).map (fun c => if s.active (fnComp c) || c == with_ then s.compLoadOf c else 0)).sum

/-- The share of channel c in COMP_LOAD, in units of 1,000,000 pix/s (R108, R128). -/
def State.compShare (s : State) (c : Nat) : Nat := if s.active (fnComp c) then s.compLoadOf c / 1000000 else 0

/-- u of channel c and its origin, where it has one (R35, R36). -/
def State.chanWin (s : State) (c : Nat) : Option (Nat × Nat) := (s.encUnit c).map (fun u => (u, s.rdn (R.MER_CH_ORIGIN c)))

/-- R114, for one video layer: every covered canvas line is ready when it is due. A layer whose input or channel has no line unit is not ready. -/
def State.layerReady (s : State) (c g : Nat) (v : SetVal) (warp : Bool) : Bool :=
  if !v.en || decide (3 < g) then true else
  match s.chanWin c, s.inputUnit v.src with
  | some (u, o), some ui =>
    let oi := s.rdn (R.ING_IN_ORIGIN v.src)
    let hOut := s.f (F.ENC_CH_SIZE_H c)
    let rw := if warp then s.f (F.COMP_CH_CTL_REACH c) else 0
    let y := clipSpan v.dy (v.sh g * v.repY) (s.f (F.COMP_CH_CANVAS_H c))
    (List.range (y.2 - y.1)).all (fun k =>
      let yy := y.1 + k
      let p := min (yy - rw) (hOut - 1)
      let due := o + (p + 1) * u
      let q := v.sy + ((yy : Int) - v.dy).toNat / v.repY
      let ready := if s.on (F.ING_IN_CTL_SRC v.src) then oi else oi + (q + 1) * ui
      decide (ready ≤ due))
  | _, _ => false

/-- R119, R7: may a set name clip descriptor d: is it VALID, with every register of it in its range? -/
def State.clipOk (s : State) (d : Nat) : Bool :=
  let w := s.f (F.COMP_CLIP_SIZE_W d)
  let h := s.f (F.COMP_CLIP_SIZE_H d)
  let n := s.rdn (R.COMP_CLIP_FRAMES d)
  s.on (F.COMP_CLIP_CTL_VALID d) && decide (64 ≤ w) && decide (w ≤ 8192) && decide (64 ≤ h) && decide (h ≤ 4352)
    && decide (1 ≤ n) && decide (n ≤ 16777215)

/-- A layer's own rules (R107, R118, R119, R121): the source exists, the rectangle lies within it, the memory is well placed. -/
def State.layerOk (s : State) (c g : Nat) (v : SetVal) : Bool :=
  if !v.en then true else
  let repOk := decide (bitsOf v.ctl 21 20 ≤ 2) && decide (bitsOf v.ctl 23 22 ≤ 2)
  let whOk := g == 7 || (decide (1 ≤ v.sw g) && decide (v.sw g ≤ 8192) && decide (1 ≤ v.sh g) && decide (v.sh g ≤ 4352))
  let srcOk :=
    if g ≤ 3 then
      let ch := s.f (F.ING_IN_CTL_CH v.src)
      decide (v.src < 64) && s.f (F.ENC_CH_RATE_NUM ch) == s.f (F.ENC_CH_RATE_NUM c) && s.f (F.ENC_CH_RATE_DEN ch) == s.f (F.ENC_CH_RATE_DEN c)
        && decide (v.sx + v.sw g ≤ s.f (F.ING_IN_SIZE_W v.src)) && decide (v.sy + v.sh g ≤ s.f (F.ING_IN_SIZE_H v.src))
    else if g ≤ 5 then
      s.clipOk v.src
        && decide (v.sx + v.sw g ≤ s.f (F.COMP_CLIP_SIZE_W v.src)) && decide (v.sy + v.sh g ≤ s.f (F.COMP_CLIP_SIZE_H v.src))
    else
      v.addr % 256 == 0 && v.pitch % 256 == 0 && decide (v.lineBytes g ≤ v.pitch)
        && oneStack v.addr (v.pitch * v.surfLines g)
        && (g != 7 || bitsOf v.ctl 21 20 == bitsOf v.ctl 23 22)
  repOk && whOk && srcOk

/-- The seven fields of SET_ZORDER name layers 0 to 6 once each. -/
def zorderOk (z : Nat) : Bool := (List.range 7).all (fun g => (List.range 7).any (fun k => bitsOf z (3 * k + 2) (3 * k) == g))

/-- Mesh blocks of channel c: columns and rows (R122). -/
def State.meshDims (s : State) (c : Nat) : Nat × Nat := (s.f (F.ENC_CH_SIZE_W c) / 8, s.f (F.ENC_CH_SIZE_H c) / 8)

/-- The channel set's own rules (R107, R122). -/
def State.chanSetOk (s : State) (c : Nat) (v : SetVal) : Bool :=
  zorderOk v.zorder && (!v.en ||
    (s.feature 6 && s.f (F.ENC_CH_SIZE_W c) % 8 == 0 && s.f (F.ENC_CH_SIZE_H c) % 8 == 0
      && decide (bitsOf v.mesh 21 0 + (s.meshDims c).1 * (s.meshDims c).2 ≤ 4194304)))

/-- A set's own rules. -/
def State.setOk (s : State) (c j : Nat) (v : SetVal) : Bool := if j = 8 then s.chanSetOk c v else s.layerOk c j v

/-- The values of set j that may be in force: the current one and the pending one. -/
def CompCh.vals (x : CompCh) (j : Nat) : List SetVal := x.current j :: (match x.pendOf j with | some p => [p.val] | none => [])

/-- The checks of an enable and of a commit that would change the result: fetch (R108) and availability (R114), over every set that may be in
force; a layer is judged with each warp that may govern with it (assumption 94). `s` already holds the new set. -/
def State.compAdmit (s : State) (c with_ : Nat) : Bool :=
  let x := s.cmp c
  decide (s.compLoad with_ ≤ 48000000000)
    && (List.range 4).all (fun g => (x.vals g).all (fun v => (x.vals 8).all (fun w => s.layerReady c g v w.en)))

/-- R107: with the warp off the canvas is the output picture. -/
def State.canvasOk (s : State) (c : Nat) : Bool :=
  ((s.cmp c).vals 8).all (fun w => w.en)
    || (s.f (F.COMP_CH_CANVAS_W c) == s.f (F.ENC_CH_SIZE_W c) && s.f (F.COMP_CH_CANVAS_H c) == s.f (F.ENC_CH_SIZE_H c))

/-- R107, R108, R114, R115: the checks of a channel's enable. -/
def State.compEnableOk (s : State) (c : Nat) : Bool :=
  let x := s.cmp c
  let w := s.f (F.COMP_CH_CANVAS_W c)
  let h := s.f (F.COMP_CH_CANVAS_H c)
  decide (64 ≤ w) && decide (w ≤ 8192) && decide (64 ≤ h) && decide (h ≤ 4352)
    && decide (s.f (F.COMP_CH_CTL_REACH c) ≤ 512)
    && (s.f (F.COMP_CH_CTL_MATRIX c) == 0) == (s.f (F.ENC_CH_FORMAT_COLOUR c) == 0)
    && decide (s.fs (F.COMP_CH_FLIP_LINE c) < s.clk.lm)
    && (List.range 9).all (fun j => s.setOk c j (x.latest j)) && s.compAdmit c c && s.canvasOk c

/-! ## Making sets current, retiring them (R109, R111, R113) -/

/-- The set's memory is free: RETIRE_CNT and event 0x0706 (R113). -/
def State.retired (s : State) (c j : Nat) : State := (s.bump (setRetireReg c j)).raise 0x0706 c

/-- The first picture of channel c that is not composed whole: the one under composition, or the next (after a step, the rebased one; R42). -/
def State.compNext (s : State) (c : Nat) : CompCh :=
  let x := s.cmp c
  if x.started && x.row != 0 then x
  else let k := s.chanFrom c x.startV; { x with started := true, idx := k.1, startV := k.2, row := 0 }

/-- R113: the replaced sets that no picture from position `v` on uses retire. -/
def State.retireBefore (s : State) (c v : Nat) : State :=
  (List.range 9).foldl (fun s j =>
    let x := s.cmp c
    let h := x.histOf j
    let keep := (h.filter (fun e => decide (e.1 ≤ v))).length - 1
    let gone := (h.take keep).filter (fun e => e.2.used)
    gone.foldl (fun s _ => s.retired c j) (if keep = 0 then s else s.setCmp c (x.setHist j (h.drop keep)))) s

/-- A set becomes current at once (R109); the set it replaces, if it has governed a picture, retires. -/
def State.makeCurrent (s : State) (c j : Nat) (v : SetVal) : State :=
  let x := s.cmp c
  let old := (x.histOf j).filter (fun e => e.2.used)
  let s := s.setCmp c ((x.setHist j [(s.clk.vpos, v)]).setPend j none)
  let s := ((s.setStat c j 0 false).setStat c j 1 v.en).setStat c j 2 false
  old.foldl (fun s _ => s.retired c j) s

/-- A pending set flips: it governs every channel frame from position `v` on (R111). -/
def State.flipSet (s : State) (c j v : Nat) : State :=
  let x := s.cmp c
  match x.pendOf j with
  | none => s
  | some p =>
    let s := s.setCmp c ((x.setHist j (x.histOf j ++ [(v, p.val)])).setPend j none)
    ((s.setStat c j 0 false).setStat c j 1 p.val.en).setStat c j 2 false

/-- A held set: HELD_CNT, STATUS.HELD, the flags and the event (R111, R125). -/
def State.holdSet (s : State) (c j event : Nat) : State :=
  (((s.bump (setHeldReg c j)).setStat c j 2 true).setF F.COMP_FLAGS_HELD 1).raise event c

/-- The value of fence k as an evaluation at `d` reads it: writes stamped at or after `d` are not seen (R29, R110). -/
def State.fenceAt (s : State) (k d : Nat) : Nat :=
  match Tab.get (fun _ => (none : Option (Nat × Nat))) s.comp.fencePrev k with
  | some (st, old) => if d ≤ st then old else s.rd64 (R.COMP_FENCE_LO k) (R.COMP_FENCE_HI k)
  | none => s.rd64 (R.COMP_FENCE_LO k) (R.COMP_FENCE_HI k)

/-- R111: would pending set `p` flip at an evaluation at `d`? -/
def State.flipReady (s : State) (p : PendSet) (d : Nat) : Bool :=
  decide (p.stamp < d) && (match p.fence with | none => true | some (k, t) => decide (t ≤ s.fenceAt k d))

/-- A write of COMP_FENCE_k_HI completes a fence's value (R110). -/
def State.fenceWrite (s : State) (k value : Nat) : State :=
  let now := s.clk.vpos
  let old := match Tab.get (fun _ => (none : Option (Nat × Nat))) s.comp.fencePrev k with
    | some (st, o) => if st = now then o else s.rd64 (R.COMP_FENCE_LO k) (R.COMP_FENCE_HI k)
    | none => s.rd64 (R.COMP_FENCE_LO k) (R.COMP_FENCE_HI k)
  { (s.wr64 (R.COMP_FENCE_LO k) (R.COMP_FENCE_HI k) value) with
    comp := { s.comp with fencePrev := Tab.put (fun _ => (none : Option (Nat × Nat))) s.comp.fencePrev k (some (now, old)) } }

/-- R109: COMMIT of set j. While the channel is OFF it becomes current at once; else it waits for a flip. A commit with
WARP_EN starts the mesh check at one entry per ns (R125), which a set must pass first. -/
def State.commit (s : State) (c j : Nat) (fence : Option Nat) : State :=
  let x := s.cmp c
  let v := s.pendRegs c j
  let tgt := if j = 8 then s.rd64 (R.COMP_CH_TARGET_LO c) (R.COMP_CH_TARGET_HI c) else s.rd64 (R.COMP_CH_L_TARGET_LO c j) (R.COMP_CH_L_TARGET_HI c j)
  let p : PendSet := { val := v, fence := fence.map (fun k => (k, tgt)), stamp := s.clk.vpos, num := (x.commits + 1) % 65536 }
  let t := s.setCmp c { x.setPend j (some p) with commits := x.commits + 1 }
  if (x.pendOf j).isSome || !s.setOk c j v || !t.compAdmit c 32 || (s.active (fnComp c) && !t.canvasOk c) then s.refuse 0x07
  else
    let check := j == 8 && v.en
    let t := if check then
        let n := (s.meshDims c).1 * (s.meshDims c).2
        (t.setCmp c { t.cmp c with checkEnd := some (s.clk.ns + n) } |>.setStat c 8 4 true).setStat c 8 5 false
      else t
    if s.active (fnComp c) || check then t.setStat c j 0 true else t.makeCurrent c j v

/-- R109: CANCEL drops the pending set. -/
def State.cancel (s : State) (c j : Nat) : State :=
  let x := s.cmp c
  let x := if j = 8 then { x with checkEnd := none } else x
  let s := ((s.setCmp c (x.setPend j none)).setStat c j 0 false).setStat c j 2 false
  if j = 8 then s.setStat c 8 4 false else s

/-- A write of a COMMIT register: [7:0] FENCE, [8] USE_FENCE, [9] COMMIT, [10] CANCEL, refused together (R128). -/
def State.commitWrite (s : State) (c j v : Nat) : State :=
  if bitsOf v 9 9 = 1 ∧ bitsOf v 10 10 = 1 then s.refuse 0x07
  else if bitsOf v 9 9 = 1 then s.commit c j (if bitsOf v 8 8 = 1 then some (bitsOf v 7 0) else none)
  else if bitsOf v 10 10 = 1 then s.cancel c j
  else s

/-- The evaluation at `d` (R111): the sets committed before it flip, or are held by their fence or by a running mesh check (R125). The sets of
`busy` are left out. -/
def State.flipEval (s : State) (c d busy : Nat) : FlipEval :=
  let x := s.cmp c
  let at_ := (List.range 9).filter (fun j => bitsOf busy j j == 0 && (match x.pendOf j with | some p => decide (p.stamp < d) | none => false))
  let go := at_.filter (fun j => match x.pendOf j with
    | some p => s.flipReady p d && !(j == 8 && x.checkEnd.isSome)
    | none => false)
  { v := d, flips := (go.map (2 ^ ·)).sum, held := ((at_.filter (fun j => !go.contains j)).map (2 ^ ·)).sum,
    nums := (List.range 9).map (fun j => match x.pendOf j with | some p => if go.contains j then p.num else 0 | none => 0),
    chk := x.checkEnd.isSome }

/-- Apply an evaluation to the sets still pending (R111, R112): each flips, where its commit number is still the one named, or is held. -/
def State.applyFlips (s : State) (c : Nat) (e : FlipEval) (govern : Nat) : State :=
  let s := (List.range 9).foldl (fun (s : State) j => match (s.cmp c).pendOf j with
    | none => s
    | some p =>
      if bitsOf e.flips j j = 1 then (if p.num = e.nums.getD j 0 then s.flipSet c j govern else s)
      else if bitsOf e.held j j = 1 ∧ p.stamp < e.v then s.holdSet c j (if j = 8 ∧ e.chk = true then 0x0703 else 0x0702)
      else s) s
  let s := s.setCmp c { s.cmp c with evals := (s.cmp c).evals.map (fun (q : FlipEval) => if q.v = e.v then { q with done := true } else q) }
  if (s.cmp c).endV.isSome then s else s.retireBefore c (s.compNext c).startV

/-- The evaluation of the frame that ends at the cut `v`, on a channel. -/
def CompCh.evalIn (x : CompCh) (fu v : Nat) : Option FlipEval := x.evals.find? (fun e => decide (v ≤ e.v + fu) && decide (e.v < v))

/-- The sets that an evaluation not yet applied found to flip, while the record of its frame is still to be adopted (R246). -/
def State.flipBusy (s : State) (c : Nat) : Nat :=
  match (s.cmp c).evals.find? (fun e => !e.done) with
  | some e => e.flips
  | none => 0

/-- A module that leaves the Lookout role adopts no further record: its own evaluations of channel c not yet applied take effect (R112, R249, R251). -/
def State.ownFlips (s : State) (c : Nat) : State :=
  if !s.active (fnComp c) then s else
  ((s.cmp c).evals.filter (fun e => !e.done)).reverse.foldl (fun t e => t.applyFlips c e ((e.v / s.clk.fu + 1) * s.clk.fu)) s

/-- Time runs on to the next flip line of channel c. A write of FLIP takes effect at the first Meridian frame start strictly after its commit (R128). -/
def State.toFlip (s : State) (c : Nat) : Option State :=
  let base := s.clk.vpos / s.clk.fu * s.clk.fu
  let s0 := s.applyHeld (R.COMP_CH_FLIP c) base
  let p0 := base + s0.fs (F.COMP_CH_FLIP_LINE c) * 65536
  if s.clk.classOk 5 p0 || decide (s.clk.vpos < p0) then s0.toPos 5 p0
  else
    let s1 := s0.applyHeld (R.COMP_CH_FLIP c) (base + s.clk.fu)
    s1.toPos 5 (base + s.clk.fu + s1.fs (F.COMP_CH_FLIP_LINE c) * 65536)

/-- R111: at (n, F), in decision class 5. A set that flips governs every frame that starts at or after (n + 1, 0). On a
Lookout the own outcome of a twinned channel is only kept: the Helm's is applied (R112, R246, R249). -/
def State.flipEvaluation (s : State) (c : Nat) : State :=
  if !s.active (fnComp c) then s else
  match s.toFlip c with
  | none => s
  | some s =>
    let d := s.clk.vpos
    let defer := s.helmFlips c
    let e := s.flipEval c d (if defer then s.flipBusy c else 0)
    let x := s.cmp c
    let s := s.setCmp c { x with evals := e :: x.evals.take 1 }
    if defer then s else s.applyFlips c e ((d / s.clk.fu + 1) * s.clk.fu)

/-! ## Mesh (R122-R125) -/

/-- The position component of corner (bx, by), extrapolated beyond the last block (R123). -/
def State.meshCorner (s : State) (base nx ny : Nat) (isY : Bool) (bx by_ : Nat) : Int :=
  let e := fun (x y : Nat) => let m := s.meshEntry (base + y * nx + x); if isY then m.2.1 else m.1
  let right := fun (y : Nat) => 2 * e (nx - 1) y - e (nx - 2) y
  let below := fun (x : Nat) => 2 * e x (ny - 1) - e x (ny - 2)
  if bx < nx ∧ by_ < ny then e bx by_
  else if by_ < ny then right by_
  else if bx < nx then below bx
  else right (ny - 1) + below (nx - 1) - e (nx - 1) (ny - 1)

/-- Is block (bx, by) a FILL block? -/
def State.meshFill (s : State) (base nx bx by_ : Nat) : Bool := (s.meshEntry (base + by_ * nx + bx)).2.2

/-- R125: does output CTU row r pass? -/
def State.meshRowOk (s : State) (c base r : Nat) : Bool :=
  let d := s.meshDims c
  let h := s.f (F.COMP_CH_CANVAS_H c)
  let cl := fun (i : Int) => clampI 0 ((h : Int) - 1) i
  let ys := (List.range (min 8 (d.2 - 8 * r))).flatMap (fun b => (List.range d.1).flatMap (fun bx =>
    let by_ := 8 * r + b
    if s.meshFill base d.1 bx by_ then []
    else [(bx, by_), (bx + 1, by_), (bx, by_ + 1), (bx + 1, by_ + 1)].map (fun p => sar (s.meshCorner base d.1 d.2 true p.1 p.2) 6)))
  match ys with
  | [] => true
  | y0 :: ry =>
    let ymax := cl (ry.foldl max y0 + 1)
    let ymin := cl (ry.foldl min y0)
    decide (ymax ≤ 64 * (r : Int) + 63 + s.f (F.COMP_CH_CTL_REACH c)) && decide (ymax - ymin ≤ 511)

/-- R125: the mesh check of channel c ends: the commit is allowed, or cancelled with FAIL and event 0x0704. -/
def State.meshCheckComplete (s : State) (c : Nat) : State :=
  match (s.cmp c).checkEnd, (s.cmp c).pendOf 8 with
  | some e, some p =>
    let s := s.toNs e
    let s := (s.setCmp c { s.cmp c with checkEnd := none }).setStat c 8 4 false
    let rows := ceilDiv (s.meshDims c).2 8
    if (List.range rows).all (fun r => s.meshRowOk c (bitsOf p.val.mesh 21 0) r) then
      if s.active (fnComp c) then s else s.makeCurrent c 8 p.val
    else ((s.cancel c 8).setStat c 8 5 true |>.setF F.COMP_FLAGS_CHECK_FAIL 1).raise 0x0704 c
  | _, _ => s

/-! ## Pixels (R107, R115-R126) -/

/-- A component of a pixel. -/
def pxComp (k : Nat) (p : Px) : Nat := if k = 0 then p.a else if k = 1 then p.b else p.c

/-- The premultiplied pixel of layer g at canvas (x, y), if it covers it. -/
def State.layerPx (s : State) (c g : Nat) (v : SetVal) (startV k x y : Nat) : Option LayerPx :=
  let xr := (x : Int) - v.dx
  let yr := (y : Int) - v.dy
  if xr < 0 ∨ yr < 0 ∨ v.sw g * v.repX ≤ xr.toNat ∨ v.sh g * v.repY ≤ yr.toNat then none
  else
    let m := s.f (F.COMP_CH_CTL_MATRIX c)
    let qx := xr.toNat / v.repX
    let qy := yr.toNat / v.repY
    let ga := bitsOf v.alpha 15 0
    if g ≤ 3 then
      let st := s.inp v.src
      let pic := if st.startV ≤ startV then st.cur else st.prev.getD {}
      let fmt := s.f (F.ING_IN_CTL_FMT v.src)
      some (premulVideo (sourcePixel m fmt (depthBits (s.f (F.ING_IN_CTL_DEPTH v.src))) (s.f (F.ING_IN_SIZE_W v.src))
        (pic.sample fmt) (v.sx + qx) (v.sy + qy)) ga)
    else if g ≤ 5 then
      some (premulVideo (sourcePixel m (s.f (F.COMP_CLIP_CTL_FMT v.src)) (depthBits (s.f (F.COMP_CLIP_CTL_DEPTH v.src)))
        (s.f (F.COMP_CLIP_SIZE_W v.src)) (s.clipSample v.src (s.clipShown v k)) (v.sx + qx) (v.sy + qy)) ga)
    else
      let at_ := if g = 7 then (qx, qy) else (v.sx + qx, v.sy + qy)
      let sp := s.surfacePixel v.addr v.pitch (v.fmt == 1) at_.1 at_.2
      some (premulGfx v.premul sp.1 sp.2 ga)

/-- The layers from bottom to top: SET_ZORDER, then layer 7 (R120, R121). -/
def layerOrder (z : Nat) : List Nat := (List.range 7).map (fun k => bitsOf z (3 * k + 2) (3 * k)) ++ [7]

/-- Canvas pixel (x, y) of the picture that starts at `startV` (R120); `noSrc` masks the layers without a source. -/
def State.canvasPx (s : State) (c startV k noSrc x y : Nat) : Px :=
  let ch := s.cmp c
  let cs := ch.setAt 8 startV
  let bg : Px := { a := bitsOf cs.bg0 15 0, b := bitsOf cs.bg0 31 16, c := bitsOf cs.bg1 15 0 }
  (layerOrder cs.zorder).foldl (fun p g =>
    let v := ch.setAt g startV
    if !v.en || bitsOf noSrc g g == 1 then p else
    match s.layerPx c g v startV k x y with
    | some l => blendOver p l
    | none => p) bg

/-- Output pixel (x, y): the canvas, or its warp (R123, R124). -/
def State.outputPx (s : State) (c startV k noSrc x y : Nat) : Px :=
  let cs := (s.cmp c).setAt 8 startV
  if !cs.en then s.canvasPx c startV k noSrc x y else
  let base := bitsOf cs.mesh 21 0
  let d := s.meshDims c
  let bx := x / 8
  let by_ := y / 8
  if s.meshFill base d.1 bx by_ then { a := bitsOf cs.bg0 15 0, b := bitsOf cs.bg0 31 16, c := bitsOf cs.bg1 15 0 } else
  let pos := fun isY => meshPos (s.meshCorner base d.1 d.2 isY bx by_) (s.meshCorner base d.1 d.2 isY (bx + 1) by_)
    (s.meshCorner base d.1 d.2 isY bx (by_ + 1)) (s.meshCorner base d.1 d.2 isY (bx + 1) (by_ + 1)) (x % 8) (y % 8)
  let w := s.f (F.COMP_CH_CANVAS_W c)
  let h := s.f (F.COMP_CH_CANVAS_H c)
  let p := fun comp (yi xi : Int) =>
    pxComp comp (s.canvasPx c startV k noSrc (clampI 0 ((w : Int) - 1) xi).toNat (clampI 0 ((h : Int) - 1) yi).toNat)
  let one := fun comp => bilinear (p comp) (pos false) (pos true)
  { a := one 0, b := one 1, c := one 2 }

/-! ## Rows (R36, R113, R127) -/

/-- A_r of channel c in the picture that starts at `sv`: the end of the channel window of the row's last line (R36). -/
def State.rowA (s : State) (c sv r : Nat) : Nat :=
  let u := (s.encUnit c).getD 0
  sv + s.originOf (R.MER_CH_ORIGIN c) + min (64 * (r + 1)) (s.f (F.ENC_CH_SIZE_H c)) * u

/-- CTU rows of channel c. -/
def State.rowsOf (s : State) (c : Nat) : Nat := ceilDiv (s.f (F.ENC_CH_SIZE_H c)) 64

/-- Did input i run at position v? -/
def State.ranAt (s : State) (i v : Nat) : Bool :=
  if (s.inp i).runV ≤ v then s.on (F.ING_IN_STATUS_RUN i) else !s.on (F.ING_IN_STATUS_RUN i)

/-- Was stack st READY at position v? -/
def State.stackReadyAt (s : State) (st v : Nat) : Bool :=
  if (Tab.get (fun _ => ({} : StackSt)) s.hbm.stks st).readyV ≤ v then s.ready (fnHbm st) else !s.ready (fnHbm st)

/-- R120: has the layer no source at the start of the frame? -/
def State.layerNoSrc (s : State) (g : Nat) (v : SetVal) (startV : Nat) : Bool :=
  v.en && (if g ≤ 3 then !s.ranAt v.src startV || !s.stackReadyAt (s.f (F.ING_IN_CTL_STACK v.src)) startV
    else if g ≤ 5 then !s.stackReadyAt (stackOf (s.rd64 (R.COMP_CLIP_ADDR_LO v.src) (R.COMP_CLIP_ADDR_HI v.src))) startV
    else !s.stackReadyAt (stackOf v.addr) startV)

/-- A picture of channel c starts to be composed: the sets that govern it are fixed (R111), the first frame a set governs
is its k0 (R119), and the layers without a source are found (R120). A set never committed is its reset value, and counts as governing. -/
def State.compPicture (s : State) (c : Nat) : State :=
  let x := s.cmp c
  let x := (List.range 9).foldl (fun (x : CompCh) j =>
    let x := if x.histOf j = [] then x.setHist j [(0, {})] else x
    let last := (((x.histOf j).filter (fun e => decide (e.1 ≤ x.startV))).length)
    x.setHist j ((x.histOf j).zipIdx.map (fun e => if e.2 + 1 = last then (e.1.1, { e.1.2 with used := true, k0 := some (e.1.2.k0.getD x.idx) }) else e.1))) x
  let no := (List.range 8).filter (fun g => s.layerNoSrc g (x.setAt g x.startV) x.startV)
  let s := s.setCmp c { x with noSrc := (no.map (2 ^ ·)).sum, rows := [], rowsV := x.startV, prevRows := x.rows, prevV := x.rowsV }
  let s := (List.range 8).foldl (fun s g => s.setStat c g 3 (no.contains g)) s
  let s := s.setF (F.COMP_CH_STATUS_WARP c) (if (x.setAt 8 x.startV).en then 1 else 0)
  no.foldl (fun s _ => (s.setF F.COMP_FLAGS_NOSRC 1).raise 0x0705 c) s

/-- R127: output row r of channel c is composed and written once, at A_r. After the last row the picture is counted. -/
def State.rowComposition (s : State) (c : Nat) : State :=
  if !(s.ready (fnComp c) || s.fn (fnComp c) == .draining || s.fn (fnComp c) == .pendingRestart) then s else
  let x := s.compNext c
  if (match x.stopV with | some v => decide (v ≤ x.startV) | none => false) then s else
  let x := if x.row = 0 then { x with org := s.originOf (R.MER_CH_ORIGIN c) } else x
  let aR := s.rowA c x.startV x.row + x.org - s.originOf (R.MER_CH_ORIGIN c)
  match s.toPos 4 aR with
  | none => s
  | some s =>
    let s := s.setCmp c x
    let s := if x.row = 0 then (s.compPicture c).setF (F.COMP_CH_STATUS_RUN c) 1 else s
    let y := s.cmp c
    let h := s.f (F.ENC_CH_SIZE_H c)
    let lines := (List.range (min 64 (h - 64 * x.row))).map (fun l =>
      (List.range (s.f (F.ENC_CH_SIZE_W c))).map (fun px => s.outputPx c x.startV x.idx y.noSrc px (64 * x.row + l)))
    let pic := outputRow (s.f (F.COMP_CH_CTL_MATRIX c)) (s.f (F.ENC_CH_FORMAT_CHROMA c)) (depthBits (s.f (F.ENC_CH_FORMAT_DEPTH c))) lines
    let y := { y with rows := Tab.put (fun _ => ({} : RowPix)) y.rows x.row pic, row := x.row + 1 }
    if x.row + 1 < s.rowsOf c then s.setCmp c y
    else
      let e := aR + 64 * (s.encUnit c).getD 0
      (s.setCmp c { y with row := 0, idx := x.idx + 1, startV := s.chanStart c (x.idx + 1), endV := some e }).bump (R.COMP_CH_PIC_CNT c)

/-- R113: the composition of the last picture that replaced sets governed completes; they retire. -/
def State.setRetire (s : State) (c : Nat) : State :=
  let x := s.cmp c
  match x.endV with
  | none => s
  | some e =>
    match s.toPos 4 e with
    | none => s
    | some s => (s.setCmp c { x with endV := none }).retireBefore c x.startV

/-! ## Enable, disable, drain (R14, R373) -/

/-- The composition of channel c enters OFF: the sets still pending become current at once (R109). -/
def State.compOff (s : State) (c : Nat) : State :=
  let s := (s.setFn (fnComp c) .off).flushHeld (R.COMP_CH_FLIP c) 4
  let s := s.setF (F.COMP_CH_STATUS_RUN c) 0
  let s := s.setCmp c { s.cmp c with started := false, row := 0, stopV := none, endV := none }
  let s := (List.range 9).foldl (fun s j => match (s.cmp c).pendOf j with
    | some p => if j = 8 ∧ (s.cmp c).checkEnd.isSome = true then s else s.makeCurrent c j p.val
    | none => s) s
  (List.range 9).foldl (fun s j =>
    let x := s.cmp c
    let h := x.histOf j
    let gone := (h.take (h.length - 1)).filter (fun e => e.2.used)
    gone.foldl (fun s _ => s.retired c j) (s.setCmp c (x.setHist j (h.drop (h.length - 1))))) s

/-- Is a picture of channel c still to be completed after a stop at `v`? -/
def State.compBusy (s : State) (c v : Nat) : Bool :=
  let x := s.cmp c
  decide ((s.compNext c).startV < v) || (x.started && x.endV.isSome)

/-- COMP_CH_c_CTL takes the value `new` (R128, R373). -/
def State.compWrite (s : State) (c : Nat) (new : Word) : State :=
  let a := R.COMP_CH_CTL c
  let en := s.on (F.COMP_CH_CTL_EN c)
  let want := bitsOf new.toNat 0 0 == 1
  if en && bitsOf new.toNat 31 1 ≠ bitsOf (s.rdn a) 31 1 then s.refuse 0x07
  else match s.fn (fnComp c), want with
  | .off, true =>
    let t := s.wr a new
    if t.compEnableOk c then
      (t.setCmp c { t.cmp c with started := false, row := 0, stopV := none, endV := none, commits := 0, evals := [] }).setFn (fnComp c) .starting
    else s.refuse 0x07
  | .off, false => s.wr a new
  | .starting, false => (s.wr a new).compOff c
  | .ready, false =>
    let v := s.clk.vpos
    if s.compBusy c v then ((s.wr a new).setFn (fnComp c) .draining).setCmp c { s.cmp c with stopV := some v }
    else (s.wr a new).compOff c
  | .draining, true => (s.wr a new).setFn (fnComp c) .pendingRestart
  | .pendingRestart, false => (s.wr a new).setFn (fnComp c) .draining
  | .fault, false => (s.wr a new).compOff c
  | _, _ => s.wr a new

/-- R14: the rows of the started pictures are complete: OFF, and a pending restart runs the enable's checks (R373). -/
def State.compDrained (s : State) (c : Nat) : State :=
  let st := s.fn (fnComp c)
  if !(st == .draining || st == .pendingRestart) then s else
  let x := s.cmp c
  let s1 := match x.endV with
    | some e => if (match x.stopV with | some v => decide (v ≤ (s.compNext c).startV) | none => false) then s.toPos 4 e else none
    | none => if s.compBusy c (x.stopV.getD 0) then none else some s
  match s1 with
  | none => s
  | some s =>
    let s := s.compOff c
    if st == .draining then s
    else if s.compEnableOk c then (s.setCmp c { s.cmp c with commits := 0, evals := [] }).setFn (fnComp c) .starting
    else (s.setF (F.COMP_CH_CTL_EN c) 0).refuse 0x07

/-- Is clip descriptor d named by a current or pending set of any channel (R119)? -/
def State.clipNamed (s : State) (d : Nat) : Bool :=
  (List.range 32).any (fun c =>
    let x := s.cmp c
    [4, 5].any (fun g =>
      let hit := fun (v : SetVal) => v.en && v.src == d
      (x.histOf g).any (fun e => hit e.2) || (match x.pendOf g with | some p => hit p.val | none => false)))

/-- Writes of COMP registers that have rules of their own; none where the register follows its row alone. -/
def State.compReg (s : State) (a : Nat) (v : Word) : Option State :=
  let o := a - 0x70000
  if 0x0800 ≤ o ∧ o < 0x1000 then
    let k := (o - 0x0800) / 8
    if o % 8 = 4 then some (s.fenceWrite k (((Tab.get (fun _ => (none : Option Word)) s.wpend (a - 4)).getD (s.rd (a - 4))).toNat + 4294967296 * v.toNat))
    else some { s with wpend := Tab.put (fun _ => (none : Option Word)) s.wpend a (some v) }
  else if 0x1000 ≤ o ∧ o < 0x1400 then
    let c := (o - 0x1000) / 0x20
    match (o - 0x1000) % 0x20 with
    | 0x00 => some (s.compWrite c v)
    | 0x04 => if s.on (F.COMP_CH_CTL_EN c) && v != s.rd a then some (s.refuse 0x07) else none
    | 0x08 => if s.clk.lm ≤ bitsOf v.toNat 15 0 then some (s.refuse 0x07)
        else if s.active (fnComp c) then some (s.stage a (BitVec.ofNat 32 (bitsOf v.toNat 15 0)) s.clk.vpos) else none
    | _ => none
  else if 0x1400 ≤ o ∧ o < 0x1C00 then
    let c := (o - 0x1400) / 0x40
    let r := (o - 0x1400) % 0x40
    if r = 0x14 then some (s.commitWrite c 8 v.toNat)
    else if r ≤ 0x1C ∧ ((s.cmp c).pendOf 8).isSome = true then some (s.refuse 0x07)
    else if r = 0x04 ∧ zorderOk v.toNat = false then some (s.refuse 0x07)
    else none
  else if 0x2000 ≤ o ∧ o < 0xA000 then
    let c := (o - 0x2000) / 0x400
    let g := (o - 0x2000) % 0x400 / 0x80
    let r := (o - 0x2000) % 0x80
    if r = 0x20 then some (s.commitWrite c g v.toNat)
    else if r ≤ 0x28 ∧ ((s.cmp c).pendOf g).isSome = true then some (s.refuse 0x07)
    else if r = 0x00 ∧ g ≤ 3 ∧ 64 ≤ bitsOf v.toNat 19 12 then some (s.refuse 0x07)
    else if r = 0x00 ∧ g = 7 ∧ bitsOf v.toNat 21 20 ≠ bitsOf v.toNat 23 22 then some (s.refuse 0x07)
    else if r = 0x14 ∧ 6 ≤ g ∧ v.toNat % 256 ≠ 0 then some (s.refuse 0x07)
    else if r = 0x1C ∧ 6 ≤ g ∧ (v.toNat % 256 ≠ 0 ∨ v.toNat < (s.pendRegs c g).lineBytes g) then some (s.refuse 0x07)
    else none
  else if 0xA000 ≤ o ∧ o < 0xC000 then
    if s.clipNamed ((o - 0xA000) / 0x20) then some (s.refuse 0x07) else none
  else none

end Sys2Proof.Machine
end

