-- ==== Sys2Proof/Machine/Rc.lean ====
section
/-!
DEFINITION. Sys2Proof/Machine/Rc.lean: the formulas of encoding and rate control (spec/07_encoding_core.md, 08_motion_and_references.md,
09_rate_control_and_latency.md): profile and level, the job grid, the refresh schedule, release latency, the CPB, floors,
the start lag, reference regions.
-/

namespace Sys2Proof.Machine

/-! ## The job grid (R132-R134) -/

/-- The widths of a layout's subpicture columns in CTUs, from its COLW words. -/
def layoutWidths (ncol : Nat) (w : Nat → Nat) : List Nat := (List.range ncol).map (fun c => bitsOf (w (c / 8)) (4 * (c % 8) + 3) (4 * (c % 8)) + 1)

/-- The heights of a layout's subpicture rows in CTUs, from its ROWH words. -/
def layoutHeights (nrow : Nat) (w : Nat → Nat) : List Nat := (List.range nrow).map (fun r => bitsOf (w (r / 4)) (8 * (r % 4) + 7) (8 * (r % 4)))

/-- Subpicture column widths of channel n in CTUs. -/
def State.colW (s : State) (n : Nat) : List Nat := layoutWidths (s.f (F.ENC_CH_LAYOUT_NCOL n)) (fun j => s.rdn (R.ENC_CH_COLW n j))

/-- Subpicture row heights of channel n in CTUs. -/
def State.rowH (s : State) (n : Nat) : List Nat := layoutHeights (s.f (F.ENC_CH_LAYOUT_NROW n)) (fun j => s.rdn (R.ENC_CH_ROWH n j))

/-- The band of subpicture rows that holds CTU row r: (index, first row, height). -/
def bandOf : List Nat → Nat → Nat → Nat → Nat × Nat × Nat
  | [], i, y, _ => (i, y, 1)
  | h :: t, i, y, r => if r < y + h then (i, y, h) else bandOf t (i + 1) (y + h) r

/-- CTU columns and rows of channel n (R132). -/
def State.ctuC (s : State) (n : Nat) : Nat := ceilDiv (s.f (F.ENC_CH_SIZE_W n)) 64
def State.ctuN (s : State) (n : Nat) : Nat := ceilDiv (s.f (F.ENC_CH_SIZE_H n)) 64

/-- The luma spans (x0, width) of columns of the given CTU widths in a picture of `w` samples. -/
def lumaSpans (w : Nat) : Nat → List Nat → List (Nat × Nat)
  | _, [] => []
  | x, c :: r => (x * 64, min (64 * (x + c)) w - 64 * x) :: lumaSpans w (x + c) r

/-- The luma spans of the columns of channel n. -/
def State.colSpans (s : State) (n : Nat) : List (Nat × Nat) := lumaSpans (s.f (F.ENC_CH_SIZE_W n)) 0 (s.colW n)

/-- R133: does the layout of channel n fit its CTU grid? -/
def State.layoutOk (s : State) (n : Nat) : Bool :=
  let ws := s.colW n
  let hs := s.rowH n
  decide (1 ≤ ws.length) && decide (ws.length ≤ 32) && ws.all (fun w => decide (1 ≤ w) && decide (w ≤ 16)) && ws.sum == s.ctuC n
    && decide (1 ≤ hs.length) && decide (hs.length ≤ 8) && hs.all (fun h => decide (1 ≤ h) && decide (h ≤ s.ctuN n)) && hs.sum == s.ctuN n
    && (!s.on (F.ENC_CH_CTL_CODEC n) || (s.colSpans n).all (fun p => decide (256 ≤ p.2)))

/-! ## Profile and level (R130, R131) -/

/-- general_profile_idc of the profile that R130 names. The idc values are the standards' (assumption 20). -/
def profileIdc (hevc : Bool) (chroma depth : Nat) : Nat :=
  if hevc then (if chroma = 0 ∧ depth = 0 then 1 else if chroma = 0 ∧ depth = 1 then 2 else 4)
  else if chroma = 0 then (if depth = 2 then 2 else 1) else if depth = 2 then 34 else 33

/-- The constraint flags of the HEVC format range extensions profiles (R130): at most 12, 10 and 8 bits, at most 4:2:2, 4:2:0 and monochrome, intra, one
picture only, lower bit rate; the values are the standard's (assumption 20). -/
def rangeFlags (chroma depth : Nat) : List Nat :=
  if depth = 2 then [1, 0, 0, 0, 0, 0, 0, 0, 1] else if chroma = 1 then [1, 1, 0, 1, 0, 0, 0, 0, 1] else if chroma = 2 then [1, 1, 0, 0, 0, 0, 0, 0, 1] else []

/-- The candidate levels of R131: MaxLumaPs, MaxLumaSr, idc, and the standards' limits that R131 names but does not give
(assumption 20): rate and CPB size in 1,000 bits in the Main and the High tier, slices, tiles (VVC: per picture; HEVC: rows),
tile columns. -/
def levelTable (hevc : Bool) : List (Nat × Nat × Nat × Nat × Nat × Nat × Nat × Nat) :=
  if hevc then
    [(2228224, 66846720, 120, 12000, 30000, 75, 5, 5), (2228224, 133693440, 123, 20000, 50000, 75, 5, 5),
     (8912896, 267386880, 150, 25000, 100000, 200, 11, 10), (8912896, 534773760, 153, 40000, 160000, 200, 11, 10),
     (8912896, 1069547520, 156, 60000, 240000, 200, 11, 10), (35651584, 1069547520, 180, 60000, 240000, 600, 22, 20),
     (35651584, 2139095040, 183, 120000, 480000, 600, 22, 20), (35651584, 4278190080, 186, 240000, 800000, 600, 22, 20)]
  else
    [(2228224, 66846720, 64, 12000, 30000, 75, 25, 5), (2228224, 133693440, 67, 20000, 50000, 75, 25, 5),
     (8912896, 267386880, 80, 25000, 100000, 200, 110, 10), (8912896, 534773760, 83, 40000, 160000, 200, 110, 10),
     (8912896, 1069547520, 86, 60000, 240000, 200, 110, 10), (35651584, 1069547520, 96, 80000, 240000, 600, 440, 20),
     (35651584, 2139095040, 99, 120000, 480000, 600, 440, 20), (35651584, 4278190080, 102, 180000, 800000, 600, 440, 20)]

/-- The standards' NAL factor on the rate and CPB limits (assumption 20). -/
def nalFactor (hevc : Bool) (chroma depth : Nat) : Nat :=
  if hevc then (if depth = 2 then 3300 else if chroma = 0 then 1100 else if chroma = 1 then 1833 else 2750)
  else if chroma = 0 then (if depth = 2 then 1320 else 1100) else if depth = 2 then 3300 else 2750

/-- R131: the lowest level that admits the picture and is not below `lmin`; none when none does. -/
def pickLevel (hevc tier : Bool) (chroma depth lmin w h luma slices ncol nrow br cpb : Nat) : Option Nat :=
  ((levelTable hevc).find? (fun l =>
    let cap := (if tier then l.2.2.2.2.1 else l.2.2.2.1) * nalFactor hevc chroma depth
    decide (lmin ≤ l.2.2.1) && decide (w * h ≤ l.1) && decide (w * w ≤ 8 * l.1) && decide (h * h ≤ 8 * l.1) && decide (luma ≤ l.2.1)
      && decide (slices ≤ l.2.2.2.2.2.1) && decide (ncol ≤ l.2.2.2.2.2.2.2)
      && decide ((if hevc then nrow else ncol * nrow) ≤ l.2.2.2.2.2.2.1) && decide (br ≤ cap) && decide (cpb ≤ cap))).map (fun l => l.2.2.1)

/-- A non-zero LEVEL_MIN is a level of the codec (R131). -/
def levelMinOk (hevc : Bool) (l : Nat) : Bool := l == 0 || (levelTable hevc).any (fun x => x.2.2.1 == l)

/-! ## Time in lines (R173, R196) -/

/-- Nanoseconds in Meridian lines, rounded up (R173). -/
def State.toLines (s : State) (t : Nat) : Nat := (t * s.clk.num * s.clk.lm + s.clk.den * 1000000000 - 1) / (s.clk.den * 1000000000)

/-- Nanoseconds in fraction units, rounded up (R196). -/
def State.toFu (s : State) (t : Nat) : Nat := ceilDiv (t * s.clk.num * s.clk.lm * 65536) (s.clk.den * 1000000000)

/-- The time of one job of a column of `lw` luma samples at 1,250 MHz (R173). -/
def tJob (lw chroma : Nat) : Nat := lw * 64 * (if chroma = 2 then 6 else 4)

/-- The samples of the largest cold window of channel n (R173). -/
def State.coldSamples (s : State) (n : Nat) : Nat :=
  let ww := ((s.colW n).zip (s.colSpans n)).foldl (fun m p => max m (if p.1 ≤ 9 then p.2.2 else min 640 p.2.2)) 0
  ww * min 256 (s.f (F.ENC_CH_SIZE_H n)) * chromaK (s.f (F.ENC_CH_FORMAT_CHROMA n)) * 2

/-- The fill time of `smp` samples, ns (R161, R173). -/
def tFill (smp : Nat) : Nat := (smp * 10 + 1023) / 1024

/-- The widest column of channel n in luma samples (R173). -/
def State.widest (s : State) (n : Nat) : Nat := (s.colSpans n).foldl (fun m p => max m p.2) 0

/-- The terms of R173 in lines, with the job time scaled by dw/4 (R349): (capture, job, margin, pkt). -/
def State.latTerms (s : State) (n dw : Nat) : Nat × Nat × Nat × Nat :=
  let job := s.toLines (tJob (s.widest n) (s.f (F.ENC_CH_FORMAT_CHROMA n)) * dw / 4)
  ((64 * (s.encUnit n).getD 0 + 65535) / 65536, job, job + s.toLines (800 + tFill (s.coldSamples n)), s.toLines 22000)

/-- lat_min of R173, the job terms scaled by dw/4. -/
def State.latMin (s : State) (n dw : Nat) : Nat := let t := s.latTerms n dw; t.1 + t.2.1 + t.2.2.1 + t.2.2.2

/-- sprop-max-don-diff of channel n (R221): 0 for VVC, and for HEVC with one column. -/
def State.donDiff (s : State) (n : Nat) : Nat :=
  if s.on (F.ENC_CH_CTL_CODEC n) then (s.f (F.ENC_CH_LAYOUT_NCOL n) - 1) * (s.rowH n).foldl max 0 - 1 else 0

/-- ENC_CH_n_RC_MINLAT (R174) and EGS_CH_n_DONDIFF (R221) of every channel. -/
def State.minLats (s : State) : State :=
  (List.range 32).foldl (fun t n =>
    (t.wrn (R.ENC_CH_RC_MINLAT n) (min 8191 (t.latMin n 4))).wrn (R.EGS_CH_DONDIFF n) (t.donDiff n % 65536)) s

/-! ## The coded-picture buffer (R175, R176) -/

/-- BR in bits/s (R175). -/
def State.chanBr (s : State) (n : Nat) : Nat := s.f (F.ENC_CH_RC_RATE_BR n) * 1000

/-- z of R175. -/
def State.zUnit (s : State) : Nat := s.clk.num * s.clk.lm * 65536

/-- cpb in bits (R175). -/
def State.cpbBits (s : State) (n : Nat) : Nat := s.chanBr n * s.clk.den * s.f (F.ENC_CH_RC_LAT_LAT n) * 65536 / s.zUnit

/-- Is DU HRD signalled (R176, R260)? -/
def State.duHrd (s : State) (n : Nat) : Bool :=
  !(s.encCh n).member && (!s.on (F.ENC_CH_CTL_CODEC n) || s.f (F.ENC_CH_LAYOUT_NCOL n) == 1)

/-- (i90, cpb_s) from a rate, a height and whether DU HRD is present (R175, R176); the standards'
granularity of a CPB size is 16 bits (assumption 20). -/
def State.hrdOf (s : State) (n br h : Nat) (du : Bool) : Nat × Nat :=
  let lat := s.f (F.ENC_CH_RC_LAT_LAT n) * 65536 + (if du then 0 else (h - 64) * (s.encUnit n).getD 0)
  let den := s.clk.num * s.clk.lm * 65536
  let cpb := br * s.clk.den * lat / den
  let i90 := (lat * s.clk.den * 90000 + den - 1) / den
  (i90, ceilDiv (max cpb ((i90 * br + 89999) / 90000)) 16 * 16)

/-- (i90, cpb_s) of channel n alone. -/
def State.hrd (s : State) (n : Nat) : Nat × Nat := s.hrdOf n (s.chanBr n) (s.f (F.ENC_CH_SIZE_H n)) (s.duHrd n)

/-! ## The refresh schedule (R142, R154) -/

/-- Columns of a subpicture of `w` CTUs that are clean at phase φ. -/
def cleanCols (w p phi : Nat) : Nat := ((List.range w).filter (fun c => decide (c * p / w ≤ phi))).length

/-- Columns of a subpicture refreshed at phase φ (R142). -/
def refreshCols (w p phi : Nat) : List Nat := (List.range w).filter (fun c => c * p / w == phi)

/-- The recovery count of R142. -/
def recoveryCount (ws : List Nat) (p : Nat) : Nat := ws.foldl (fun m w => max m ((w - 1) * p / w)) 0

/-- The edge column of R179, given the phase of picture k − 1 in the same period. -/
def edgeCol (w p : Nat) (prev : Option Nat) : Option Nat :=
  match prev with
  | none => none
  | some phi => let c := cleanCols w p phi; if 0 < c ∧ c < w then some (c - 1) else none

/-- n_i of a job (R179). -/
def nIntra (w p phi : Nat) (prev : Option Nat) : Nat :=
  let rc := refreshCols w p phi
  rc.length + (match edgeCol w p prev with | some e => if e ∈ rc then 0 else 1 | none => 0)

/-- fl_job of R179. -/
def floorJob (w nI floorI : Nat) : Nat := 1024 + nI * floorI + (w - nI) * 64

/-- fl[r] of R179: the sum over the jobs of a row. -/
def floorRow (ws : List Nat) (p phi : Nat) (prev : Option Nat) (floorI : Nat) : Nat :=
  (ws.map (fun w => floorJob w (nIntra w p phi prev) floorI)).sum

/-- The largest row floor that any phase can produce (R180). -/
def maxFloor (ws : List Nat) (p floorI : Nat) : Nat :=
  (List.range p).foldl (fun m phi => max m (floorRow ws p phi (if phi = 0 then none else some (phi - 1)) floorI)) 0

/-- B_f of R178 with carry q, and the carry for the next picture. -/
def nominal (br denC numC q : Nat) : Nat × Nat := ((br * denC + q) / numC, (br * denC + q) % numC)

/-- R180, from a period, FLOOR_I and HEAD. -/
def State.floorsOk (s : State) (n per floorI head : Nat) : Bool :=
  let fl := maxFloor (s.colW n) per floorI
  let nn := s.ctuN n
  let bf := (nominal (s.chanBr n) (s.chanRate n).2 (s.chanRate n).1 0).1
  let t0 := bf - bf * head / 256
  let gap := min 64 (s.f (F.ENC_CH_SIZE_H n) - 64 * (nn - 1)) * (s.encUnit n).getD 0
  let drain := s.chanBr n * s.clk.den * gap / s.zUnit
  decide (nn * fl ≤ t0) && decide (fl ≤ drain)

/-- R180 over the last written values of the staged fields. -/
def State.floorsOkNow (s : State) (n : Nat) : Bool :=
  s.floorsOk n (s.f (F.ENC_CH_GDR_PERIOD n)) (s.f (F.ENC_CH_RC_FLOOR_FLOOR_I n)) (s.f (F.ENC_CH_RC_RECOV_HEAD n))

/-! ## The start lag (R196) -/

/-- The lag in fraction units with `p` pipes for first runs, over the channels in `cs`, job times scaled by dw/4. -/
def State.lagFu (s : State) (p dw : Nat) (cs : List Nat) : Nat :=
  let rows := cs.map (fun c =>
    let jobs := (s.colSpans c).map (fun x => s.toFu (tJob x.2 (s.f (F.ENC_CH_FORMAT_CHROMA c)) * dw / 4))
    (64 * (s.encUnit c).getD 0, jobs, s.ctuN c))
  let conc := (rows.map (fun x => (x.2.1.map (fun j => ceilDiv j x.1)).sum)).sum
  let t := rows.foldl (fun m x => max m (x.2.2 * x.1)) 0
  let tmax := rows.foldl (fun m x => x.2.1.foldl max m) 0
  if conc ≤ p then 0
  else
    let ovr := (rows.map (fun x => ceilDiv (x.2.1.sum * t) x.1)).sum - p * t
    (ovr + p - 1) / p + tmax

/-- lag_lines of R196. -/
def lagLines (lag : Nat) : Nat := (lag + 65535) / 65536

/-- The encode channels that are not OFF. -/
def State.liveChans (s : State) : List Nat := (List.range 32).filter (fun n => s.active (fnEnc n))

/-- The channels that the check of R196 covers: those that are not OFF and not shed (R199; assumption 85). -/
def State.lagChans (s : State) : List Nat := s.liveChans.filter (fun n => !s.on (F.DIS_CH_CTL_SHED n))

/-- R196: the check over a set of channels with `p` pipes. -/
def State.lagOk (s : State) (p : Int) (cs : List Nat) : Bool :=
  cs.isEmpty || (decide (1 ≤ p) &&
    (let l := lagLines (s.lagFu p.toNat 4 cs)
     cs.all (fun c => decide (s.f (F.ENC_CH_RC_MINLAT_LAT_MIN c) + l ≤ s.f (F.ENC_CH_RC_LAT_LAT c)))))

/-! ## The clock loop's test (R349, R350) -/

/-- Does the clock loop run? -/
def State.fsOn (s : State) : Bool := s.active fnCal && s.on F.CAL_CTL_FS_EN

/-- The divider in force of quadrant q. -/
def State.dcur (s : State) (q : Nat) : Nat := s.f (F.CAL_FS_STATUS_D q)

/-- Every channel's release latency covers the minimum at the clock dw/4 and the lag there, with `p` pipes for first runs (R349). -/
def State.clockOk (s : State) (p : Int) (dw : Nat) : Bool :=
  let cs := s.lagChans
  cs.isEmpty || (decide (1 ≤ p) &&
    (let l := lagLines (s.lagFu p.toNat dw cs)
     cs.all (fun c => decide (s.latMin c dw + l ≤ s.f (F.ENC_CH_RC_LAT_LAT c)))))

/-- The divider of a quadrant changes (R349). -/
def State.setD (s : State) (q d : Nat) : State :=
  if s.dcur q = d then s
  else (((s.setF (F.CAL_FS_STATUS_D q) d).setF (F.CKG_CPLL_STATUS_DIV (2 + q)) d).bump (R.CAL_FS_CHG_CNT q)).raise 0x1506 q

/-! ## The supply that a clock change needs (R347-R350) -/

/-- The supply of quadrant q in 0.5 mV. -/
def State.volt (s : State) (q : Nat) : Nat := Tab.get (fun _ => 1700) s.cal.volt q

/-- Set it; CAL_AVS_q_VOLT shows whole mV. -/
def State.setVolt (s : State) (q v : Nat) : State :=
  ({ s with cal := { s.cal with volt := Tab.put (fun _ => 1700) s.cal.volt q v } }).setF (F.CAL_AVS_VOLT_SUPPLY q) (v / 2)

/-- Does the voltage loop run? -/
def State.avsOn (s : State) : Bool := s.active fnCal && s.on F.CAL_CTL_AVS_EN

/-- The supply of quadrant q at VMAX: the loop is off (R347), or its clock is raised (R349). -/
def State.voltMax (s : State) (q : Nat) : State := s.setVolt q (2 * s.f (F.CAL_AVS_CTL_VMAX q))

/-- The loop moves quadrant q to D d: a raised clock has the supply at VMAX first (R349). -/
def State.moveD (s : State) (q d : Nat) : State := (if d < s.dcur q ∧ s.avsOn = true then s.voltMax q else s).setD q d

/-- R350: an enable, a retirement, a park or a write of D_MAX: a quadrant above its D_MAX or whose D fails returns to D 4. -/
def State.clockCheck (s : State) (p : Int) : State :=
  if !s.fsOn then s else
  let dw := (List.range 4).foldl (fun m q => max m (s.dcur q)) 4
  let ok := s.clockOk p dw
  (List.range 4).foldl (fun (t : State) q => if !ok || decide (t.f (F.CAL_FS_CTL_D_MAX q) < t.dcur q) then t.moveD q 4 else t) s

/-! ## Reference regions (R163-R165) -/

/-- B of R163. -/
def State.refBufs (s : State) (n : Nat) : Nat :=
  let u := (s.encUnit n).getD 0
  let span := s.originOf (R.MER_CH_ORIGIN n) + s.f (F.ENC_CH_SIZE_H n) * u + s.f (F.ENC_CH_RC_LAT_LAT n) * 65536
  let fr := (s.encLines n).getD 0 * u
  4 + (span + fr - 1) / fr

/-- Picture bytes of channel n (R164). -/
def State.encPicBytes (s : State) (n : Nat) : Nat :=
  picBytes (s.f (F.ENC_CH_SIZE_W n)) (s.f (F.ENC_CH_SIZE_H n)) (s.f (F.ENC_CH_FORMAT_CHROMA n)) (s.f (F.ENC_CH_FORMAT_DEPTH n))

/-- The address that ENC_CH_n_REF_ADDR names. -/
def State.refReg (s : State) (n : Nat) : Nat := s.rd64 (R.ENC_CH_REF_ADDR_LO n) (R.ENC_CH_REF_ADDR_HI n) % 2 ^ 38

/-- The reference region's address: while the channel is not OFF the one in use, which a write while it drains leaves alone (R165, R170). -/
def State.refAddr (s : State) (n : Nat) : Nat := (s.encCh n).region.getD (s.refReg n)

/-- R165: the reference region of channel n is aligned, within one stack, and apart from every other. -/
def State.refRegionOk (s : State) (n : Nat) : Bool :=
  let a := s.refReg n
  let len := s.refBufs n * s.encPicBytes n
  a % 4096 == 0 && oneStack a len && (s.liveChans.filter (fun m => m != n)).all (fun m =>
    decide (a + len ≤ s.refAddr m) || decide (s.refAddr m + s.rdn (R.ENC_CH_REF_SIZE m) ≤ a))

/-- The pool demand of channel n, MiB (R302). -/
def State.encDemand (s : State) (n : Nat) : Nat := toMiB (2 * s.encPicBytes n + 2 * ceilDiv (s.hrd n).2 8)

/-- R200: sequences that a channel holds at once. -/
def State.seqNeed (s : State) (n : Nat) : Nat :=
  let sp := 64 * (s.encUnit n).getD 0
  (s.f (F.ENC_CH_RC_LAT_LAT n) * 65536 + s.toFu 72000 + sp - 1) / sp + 1

/-! ## Row budgets (R178, R181-R183) -/

/-- R181: the budget of a row, before the bucket: fl + sur / (n − r). -/
def rowShare (target spent res fl left : Nat) : Nat :=
  let rem : Int := (target : Int) - spent
  let sur : Int := rem - res - fl
  fl + (max 0 sur).toNat / left

/-- R181: the budget of a row with `space` bits free in the bucket, and whether the bucket limited it. -/
def rowBud (b space fl : Nat) : Nat × Bool := (max fl (min b space), decide (space < b))

/-- R182: the level one row later: `bits` charged, drained over `gap` fraction units. -/
def bucketStep (v bits z gap drain : Nat) : Nat := v + bits * z - gap * drain

/-- R183: the cumulative share of a job. -/
def jobShare (x cum0 cum1 all : Nat) : Nat := x * cum1 / all - x * cum0 / all

/-! ## CRC-32C (R206) -/

/-- Eight steps of the reflected CRC-32C. -/
def crcStep : Nat → Nat → Nat
  | 0, c => c
  | n + 1, c => crcStep n (if c % 2 = 1 then (c / 2) ^^^ 0x82F63B78 else c / 2)

/-- CRC-32C of a list of bytes: reflected, initial value and final XOR 0xFFFF_FFFF. -/
def crc32c (l : List Nat) : Nat := (l.foldl (fun c b => crcStep 8 (c ^^^ (b % 256))) 0xFFFFFFFF) ^^^ 0xFFFFFFFF

/-- CRC-32C of 32-bit little-endian words. -/
def crcWords (l : List Nat) : Nat := crc32c (l.flatMap (fun w => leBytes w 4))

end Sys2Proof.Machine
end

