-- ==== Sys2Proof/Machine/Code.lean ====
section
/-!
DEFINITION. Sys2Proof/Machine/Code.lean: the coding of a job (spec/07_encoding_core.md, 08_motion_and_references.md, 09_rate_control_and_latency.md):
what a CTU may read and how it may be coded (R136, R142, R143, R152–R158, R183–R185), the slice that results, stand-ins (R202), the
reconstruction in HBM (R164, R167), NAL units, the decoded picture hash (R145).

The choice among what the rules allow is the pipe's own (R158): `Config.codeCtu` proposes, and a proposal that a rule forbids is coded in floor
mode, as R184 codes a CTU that would break a bound.
-/

namespace Sys2Proof.Machine

/-! ## NAL unit headers -/

/-- A number for each kind of unit, as `Config.nalBytes` takes it. -/
def nalCode : NalKind → Nat
  | .aud => 0 | .vps => 1 | .sps => 2 | .pps => 3 | .alf => 4 | .prefixSei => 5 | .pictureHeader => 6 | .picHash => 7 | .eos => 8

/-- nal_unit_type of a non-slice unit: the standards' numbers (assumption 20). -/
def nalType (hevc : Bool) : NalKind → Nat
  | .aud => if hevc then 35 else 20
  | .vps => if hevc then 32 else 14
  | .sps => if hevc then 33 else 15
  | .pps => if hevc then 34 else 16
  | .alf => 17
  | .prefixSei => if hevc then 39 else 23
  | .pictureHeader => 19
  | .picHash => if hevc then 40 else 24
  | .eos => if hevc then 36 else 21

/-- nal_unit_type of the slices of a picture (R137): GDR_NUT or TRAIL_NUT; IDR_N_LP or TRAIL_R. -/
def sliceType (hevc seqStart : Bool) (phase : Nat) : Nat :=
  if hevc then (if seqStart then 20 else 1) else if phase = 0 then 10 else 0

/-- The NAL unit header of a type, layer 0, TemporalId 0 (R137). -/
def nalHeader (hevc : Bool) (ty : Nat) : List Nat := if hevc then [2 * ty, 1] else [0, 8 * ty + 1]

/-- The bytes of a non-slice unit; an ALF APS is given by its RBSP. -/
def nalUnit (hevc : Bool) (u : Nal) : List Nat :=
  nalHeader hevc (nalType hevc u.kind) ++ (if u.kind = .alf then u.vals else Config.nalBytes (nalCode u.kind) u.vals)

/-! ## What a prediction may read (R152-R156) -/

/-- The subpicture that holds CTU row `row` of column `col` (R133). -/
def State.subRect (s : State) (n row col : Nat) : Box :=
  let sp := (s.colSpans n).getD col (0, 0)
  let b := bandOf (s.rowH n) 0 0 row
  { x0 := sp.1, x1 := sp.1 + sp.2, y0 := 64 * b.2.1, y1 := min (64 * (b.2.1 + b.2.2)) (s.f (F.ENC_CH_SIZE_H n)) }

/-- R152, R153: where a CU of the CTU at (x0, y0) may read: the window of ME_RANGE, within the subpicture. -/
def readBox (me : Nat) (sub : Box) (x0 y0 : Nat) : Box :=
  let rx := bitsOf me 8 0
  let ry := bitsOf me 22 16
  { x0 := max sub.x0 (x0 - rx), x1 := min sub.x1 (x0 + 64 + rx), y0 := max sub.y0 (y0 - ry), y1 := min sub.y1 (y0 + 64 + ry) }

/-- R154: a CU of a clean CTU, in a reference of which `c` of the `w` columns are clean: nothing where none is; left of X_j − 16 where not all are. -/
def cleanBox (b sub : Box) (w c : Nat) : Box :=
  if c = 0 then { b with x1 := b.x0 }
  else if c < w then { b with x1 := min b.x1 (sub.x0 + 64 * c - 16) }
  else b

/-- The samples [from, to) that a block of `len` samples at `p` reads in one axis, under a vector in 1/`den` samples, with the taps of a fractional
one before and after it (R152). -/
def readSpan (p len : Nat) (v : Int) (den before after : Nat) : Int × Int :=
  let o := v / (den : Int)
  let frac := v % (den : Int) != 0
  ((p : Int) + o - (if frac then before else 0), (p : Int) + len + o + (if frac then after else 0))

/-- Horizontal and vertical chroma subsampling of a chroma code. -/
def subX (chroma : Nat) : Nat := if chroma = 2 then 1 else 2
def subY (chroma : Nat) : Nat := if chroma = 0 then 2 else 1

/-- Does a span lie within [lo, hi)? -/
def spanIn (r : Int × Int) (lo hi : Nat) : Bool := decide ((lo : Int) ≤ r.1) && decide (r.2 ≤ (hi : Int))

/-- R152–R154: do the luma and the chroma reads of a block at (px, py) lie in the box, the chroma box rounded outward? -/
def mvOk (chroma : Nat) (b : Box) (px py w h : Nat) (m : MvCode) : Bool :=
  let fx := subX chroma
  let fy := subY chroma
  spanIn (readSpan px w m.x 4 3 4) b.x0 b.x1 && spanIn (readSpan py h m.y 4 3 4) b.y0 b.y1
    && spanIn (readSpan (px / fx) (w / fx) m.x (4 * fx) 1 2) (b.x0 / fx) (ceilDiv b.x1 fx)
    && spanIn (readSpan (py / fy) (h / fy) m.y (4 * fy) 1 2) (b.y0 / fy) (ceilDiv b.y1 fy)

/-! ## A job (R157) -/

/-- What the coding of a job depends on, but for samples: codec and format, its place, its references with their clean columns, the refresh and edge
columns, whether the picture is coded intra throughout (R137), the bounds of R184 and the words of the record and of the frame parameter block that carry content. -/
structure JobIn where
  hevc : Bool := false
  isB : Bool := false
  chroma : Nat := 0
  me : Nat := 0
  sub : Box := {}
  w : Nat := 1
  y0 : Nat := 0
  e : Nat := 0
  refresh : List Nat := []
  allIntra : Bool := false
  edge : Option Nat := none
  cleanCur : Nat := 0
  cleanRefs : List Nat := []
  qpMin : Nat := 0
  qpMax : Nat := 0
  dq : Nat := 0
  floorI : Nat := 0
  budget : Nat := 0
  floor : Nat := 0
  words : List Nat := []
  deriving DecidableEq, Repr

/-- Is the CTU of column c intra-floor (R179)? -/
def JobIn.intraFloor (x : JobIn) (c : Nat) : Bool := x.refresh.contains c || x.edge == some c

/-- The floor cost of the CTU of column c (R179). -/
def JobIn.cost (x : JobIn) (c : Nat) : Nat := if x.intraFloor c then x.floorI else 64

/-- The floor cost of the columns after c. -/
def JobIn.restCost (x : JobIn) (c : Nat) : Nat := (((List.range x.w).filter (fun d => decide (c < d))).map x.cost).sum

/-- Where the CTU of column c may read in list entry i (R152–R155). -/
def JobIn.box (x : JobIn) (c i : Nat) : Box :=
  let b := readBox x.me x.sub (x.sub.x0 + 64 * c) x.y0
  if c < x.cleanCur then cleanBox b x.sub x.w (x.cleanRefs.getD i 0) else b

/-- Width and height of the CTU of column c, cut by the picture's edge. -/
def JobIn.size (x : JobIn) (c : Nat) : Nat × Nat := (min 64 (x.sub.x1 - (x.sub.x0 + 64 * c)), min 64 (x.sub.y1 - x.y0))

/-- May a CU of the CTU of column c use these vectors (R140, R152–R156)? One, or two in a B slice, each to an entry of the list. -/
def JobIn.mvsOk (x : JobIn) (c : Nat) (u : CuCode) : Bool :=
  decide (1 ≤ u.mvs.length) && decide (u.mvs.length ≤ if x.isB then 2 else 1)
    && u.mvs.all (fun m => decide (m.ref < x.e) && mvOk x.chroma (x.box c m.ref) (x.sub.x0 + 64 * c + u.x) (x.y0 + u.y) u.w u.h m)

/-- Is every CU of the CTU of column c intra (R137, R142)? -/
def JobIn.intraOnly (x : JobIn) (c : Nat) : Bool := x.allIntra || x.refresh.contains c

/-- May a CU be coded so (R142, R143, R155, R156, R158)? In the refresh column it is intra. AMVR and MMVD are VVC's; AMVR is never half. -/
def JobIn.cuOk (x : JobIn) (c : Nat) (u : CuCode) : Bool :=
  decide (1 ≤ u.w) && decide (1 ≤ u.h) && decide (u.x + u.w ≤ (x.size c).1) && decide (u.y + u.h ≤ (x.size c).2)
    && (match u.kind with
      | .intra => u.mvs == []
      | .merge _ => !x.intraOnly c && x.mvsOk c u
      | .mmvd _ => !x.hevc && !x.intraOnly c && x.mvsOk c u
      | .amvp r => !x.intraOnly c && x.mvsOk c u && (r == 0 || (!x.hevc && decide (r ≤ 2)
          && u.mvs.all (fun m => m.x % (4 ^ r : Nat) == 0 && m.y % (4 ^ r : Nat) == 0))))

/-- R184: may the CTU of column c be coded so, after `used` bits and the CTUs `before`? -/
def JobIn.ctuOk (x : JobIn) (c used : Nat) (before : List CtuCode) (q : CtuCode) : Bool :=
  !q.floor && decide (x.qpMin ≤ q.qp) && decide (q.qp ≤ x.qpMax)
    && (match before.getLast? with | some p => decide (q.qp ≤ p.qp + x.dq) && decide (p.qp ≤ q.qp + x.dq) | none => true)
    && decide (used + q.bits + x.restCost c ≤ x.budget)
    && q.cus != [] && q.cus.all (x.cuOk c)

/-- R185: the CTU of column c in floor mode: intra at QP_MAX within FLOOR_I bits; or one CU in skip mode with the first merge candidate allowed, and where
none is, AMVP with the zero vector on entry 0. SAO is off and the ALF flags are 0. In a picture coded intra throughout every CTU is intra
(assumption 95). -/
def JobIn.floorCtu (x : JobIn) (c : Nat) (inp : List Nat) (before : List CtuCode) : CtuCode :=
  let q := Config.codeCtu (1 :: inp) before
  let cu : CuCode := { x := 0, y := 0, w := (x.size c).1, h := (x.size c).2, kind := .amvp 0, mvs := [{ ref := 0, x := 0, y := 0 }], rest := [] }
  let cus :=
    if x.intraFloor c || x.allIntra then q.cus.map (fun u => { u with kind := .intra, mvs := [] })
    else match (Config.mergeCands inp before).zipIdx.find? (fun e => x.mvsOk c { cu with mvs := e.1 }) with
      | some e => [{ cu with kind := .merge e.2, mvs := e.1 }]
      | none => [cu]
  { qp := x.qpMax, bits := min q.bits (x.cost c), floor := true, cus := cus, sao := [], alf := [] }

/-- R184: the CTU of column c: the pipe's choice where every bound holds; else floor mode, as in every later CTU, and throughout where the budget
is the floor. -/
def JobIn.nextCtu (x : JobIn) (c : Nat) (inp : List Nat) (before : List CtuCode) : CtuCode :=
  let used := 1024 + (before.map (fun p => p.bits)).sum
  let q := Config.codeCtu (0 :: inp) before
  if decide (x.budget = x.floor) || before.any (fun p => p.floor) || !x.ctuOk c used before q then x.floorCtu c inp before else q

/-- The first n CTUs of a job; `inp` gives what the choice for each may depend on. -/
def JobIn.ctus (x : JobIn) (inp : Nat → List Nat) : Nat → List CtuCode
  | 0 => []
  | n + 1 => let p := JobIn.ctus x inp n; p ++ [x.nextCtu n (inp n) p]

/-- R202: the CTUs of a stand-in: one CU in skip mode with merge index 0, which gives vector (0, 0) on entry 0. -/
def JobIn.standIn (x : JobIn) : List CtuCode :=
  (List.range x.w).map (fun c =>
    { qp := x.qpMax, bits := 0, floor := false, sao := [], alf := [],
      cus := [{ x := 0, y := 0, w := (x.size c).1, h := (x.size c).2, kind := .merge 0, mvs := [{ ref := 0, x := 0, y := 0 }], rest := [] }] })

/-! ## As numbers -/

/-- An integer as a natural number. -/
def natOfInt (i : Int) : Nat := if i < 0 then 2 * i.natAbs + 1 else 2 * i.toNat

/-- A CU and a CTU as lists of numbers. -/
def CuCode.nums (u : CuCode) : List Nat :=
  [u.x, u.y, u.w, u.h] ++ (match u.kind with | .intra => [0, 0] | .merge i => [1, i] | .mmvd i => [2, i] | .amvp r => [3, r])
    ++ u.mvs.length :: u.mvs.flatMap (fun m => [m.ref, natOfInt m.x, natOfInt m.y]) ++ u.rest.length :: u.rest

def CtuCode.nums (q : CtuCode) : List Nat :=
  [q.qp, q.cus.length] ++ q.cus.flatMap CuCode.nums ++ q.sao.length :: q.sao ++ q.alf.length :: q.alf

/-! ## Reference buffers (R164, R166, R167) -/

/-- Plane `comp` of a stored picture: its offset, its pitch in bytes, its width and its lines. -/
def planeOf (w h chroma depth comp : Nat) : Nat × Nat × Nat × Nat :=
  let bps := if depth = 0 then 1 else 2
  let pitch := fun x => ceilDiv (x * bps) 256 * 256
  let cw := w / subX chroma
  let ch := h / subY chroma
  if comp = 0 then (0, pitch w, w, h) else (pitch w * h + (comp - 1) * (pitch cw * ch), pitch cw, cw, ch)

/-- The plane of channel n. -/
def State.refPlane (s : State) (n comp : Nat) : Nat × Nat × Nat × Nat :=
  planeOf (s.f (F.ENC_CH_SIZE_W n)) (s.f (F.ENC_CH_SIZE_H n)) (s.f (F.ENC_CH_FORMAT_CHROMA n)) (s.f (F.ENC_CH_FORMAT_DEPTH n)) comp

/-- Bytes of a stored sample of channel n. -/
def State.refBps (s : State) (n : Nat) : Nat := if s.f (F.ENC_CH_FORMAT_DEPTH n) = 0 then 1 else 2

/-- The address of a buffer of channel n. -/
def State.bufAddr (s : State) (n buf : Nat) : Nat := s.refAddr n + buf * s.encPicBytes n

/-- The address of sample (x, y) of a component in a buffer (R164). -/
def State.refAt (s : State) (n buf comp y x : Nat) : Nat :=
  let p := s.refPlane n comp
  s.bufAddr n buf + p.1 + y * p.2.1 + x * s.refBps n

/-- The samples of a component in a box of luma samples of a buffer, the chroma box rounded outward. -/
def State.refSamples (s : State) (n buf comp : Nat) (b : Box) : List Nat :=
  let fx := if comp = 0 then 1 else subX (s.f (F.ENC_CH_FORMAT_CHROMA n))
  let fy := if comp = 0 then 1 else subY (s.f (F.ENC_CH_FORMAT_CHROMA n))
  (List.range (ceilDiv b.y1 fy - b.y0 / fy)).flatMap (fun j => (List.range (ceilDiv b.x1 fx - b.x0 / fx)).map (fun i =>
    s.hbmNat (s.refAt n buf comp (b.y0 / fy + j) (b.x0 / fx + i)) (s.refBps n)))

/-- Write the samples of a box of luma samples in a buffer; `v` gives a sample by component, line and position. -/
def State.putSamples (s : State) (n buf : Nat) (b : Box) (v : Nat → Nat → Nat → Nat) : State :=
  (List.range 3).foldl (fun (s : State) comp =>
    let fx := if comp = 0 then 1 else subX (s.f (F.ENC_CH_FORMAT_CHROMA n))
    let fy := if comp = 0 then 1 else subY (s.f (F.ENC_CH_FORMAT_CHROMA n))
    (List.range (b.y1 / fy - b.y0 / fy)).foldl (fun (s : State) j => (List.range (b.x1 / fx - b.x0 / fx)).foldl (fun (s : State) i =>
      s.hbmPut (s.refAt n buf comp (b.y0 / fy + j) (b.x0 / fx + i)) (v comp (b.y0 / fy + j) (b.x0 / fx + i)) (s.refBps n)) s) s) s

/-- The whole picture of channel n. -/
def State.picBox (s : State) (n : Nat) : Box := { x1 := s.f (F.ENC_CH_SIZE_W n), y1 := s.f (F.ENC_CH_SIZE_H n) }

/-- R167: a buffer is filled with 1 << (depth − 1) in every component. -/
def State.fillGray (s : State) (n buf : Nat) : State :=
  s.putSamples n buf (s.picBox n) (fun _ _ _ => 2 ^ (depthBits (s.f (F.ENC_CH_FORMAT_DEPTH n)) - 1))

/-- R166: the entries whose buffers may not be reused at `v`: those of a picture for which the last slice of the fourth picture after it has not
passed its release position. -/
def heldBufs (v : Nat) : List BufEnt → List Nat → List BufEnt
  | [], _ => []
  | e :: r, newer =>
    let keep := match newer[3]? with | some rel => decide (v ≤ rel) | none => true
    let rest := heldBufs v r (if e.gray then newer else e.rel :: newer)
    if keep then e :: rest else rest

/-- A free buffer for the n-th picture of channel c since its enable, of the `b` buffers of its region: the module's own choice among the free ones (R164). -/
def pickBuf (c n b : Nat) (held : List BufEnt) : Nat :=
  let free := (List.range b).filter (fun i => !held.any (fun e => e.buf == i))
  let i := Config.refBuf c n
  if free = [] then i % max 1 b else free.getD (i % free.length) 0

/-! ## Coding (R136, R144, R157, R183-R185, R201, R202) -/

/-- The composed row `row` of the picture of channel c that starts at `v`, of the two that the module keeps (R127, R302). -/
def State.composedRow (s : State) (c v row : Nat) : RowPix :=
  let x := s.cmp c
  Tab.get (fun _ => ({} : RowPix)) (if x.rowsV ≤ v then x.rows else x.prevRows) row

/-- Word i of a picture's words in force (R208): 0 CTL, 1 FORMAT, 2 GDR, 3 DBK, 4 CQP, 5 LAYOUT, 6–9 COLW, 10–11 ROWH,
12 RC_QP, 13 RC_FLOOR, 14 ME_RANGE. -/
def PicSt.w (p : PicSt) (i : Nat) : Nat := p.words.getD i 0

/-- Is a picture an HEVC IDR picture (R137)? -/
def PicSt.idr (p : PicSt) : Bool := bitsOf (p.w 0) 1 1 == 1 && p.seqStart

/-- Are the slices of a picture B slices (R137)? -/
def PicSt.isB (p : PicSt) : Bool := bitsOf (p.w 0) 3 3 == 1 && !p.idr

/-- What the coding of job b of picture p depends on, but for samples. The words are those of its record and frame parameter block that carry
content: ring index, sequence, release position and addresses have no effect on the bits (R20). -/
def State.jobIn (s : State) (p : PicSt) (b : Job) : JobIn :=
  let w := (s.colW b.ch).getD b.col 1
  let r := fun i => b.record.getD i 0
  { hevc := bitsOf (p.w 0) 1 1 == 1, isB := p.isB, chroma := bitsOf (p.w 1) 1 0, me := r 12 % 512 + bitsOf (r 12) 15 9 * 2 ^ 16,
    sub := s.subRect b.ch b.row b.col, w := w, y0 := 64 * b.row, e := p.e,
    refresh := refreshCols w p.per p.phase, allIntra := p.idr, edge := edgeCol w p.per p.edgeFrom, cleanCur := bitsOf (r 13) 4 0,
    cleanRefs := (List.range 4).map (fun i => bitsOf (r 13) (5 * i + 9) (5 * i + 5)),
    qpMin := bitsOf (r 11) 5 0, qpMax := bitsOf (r 11) 11 6, dq := bitsOf (r 11) 15 12, floorI := bitsOf (r 11) 31 16,
    budget := r 9, floor := bitsOf (r 10) 19 0,
    words := [b.row, b.col, b.k % 2 ^ 48, p.phase, p.e, r 9, r 10, r 11, r 12, r 13] ++ p.words ++ p.aps.length :: p.aps }

/-- The source samples of the job: its columns of the composed row. -/
def Job.srcSamples (b : Job) (chroma : Nat) (sub : Box) : List Nat :=
  let cut := fun (fx : Nat) (l : List Nat) => (l.drop (sub.x0 / fx)).take (sub.x1 / fx - sub.x0 / fx)
  b.src.y.flatMap (cut 1) ++ b.src.cb.flatMap (cut (subX chroma)) ++ b.src.cr.flatMap (cut (subX chroma))

/-- What the choice for the CTU of column c may depend on (R157): the record, the current picture's samples that it names, and the reference samples
that R152–R155 let it read. -/
def State.ctuIn (s : State) (p : PicSt) (b : Job) (x : JobIn) (c : Nat) : List Nat :=
  x.words ++ c :: b.srcSamples x.chroma x.sub
    ++ (List.range x.e).flatMap (fun i => (List.range 3).flatMap (fun comp => s.refSamples b.ch (p.refBufs.getD i 0) comp (x.box c i)))

/-- The values of the slice header (R144), with the slice QP: VVC in the order of its table; HEVC likewise, after slice_pic_order_cnt_lsb (R138). The list of
R140 is signalled by its structure where the differences are −1 to −e, else explicitly. -/
def State.sliceHeader (s : State) (p : PicSt) (b : Job) (qp : Nat) : List Nat :=
  let hevc := bitsOf (p.w 0) 1 1 == 1
  let band := bandOf (s.rowH b.ch) 0 0 b.row
  let plain := p.diffs == (List.range p.e).map (· + 1)
  let list := if plain then [1, p.e - 1] else [0, p.e] ++ p.diffs
  let ty := if p.idr then 2 else if p.isB then 0 else 1
  let numRef := bitsOf (p.w 0) 5 4 + 1
  [sliceType hevc p.seqStart p.phase]
    ++ (if hevc then [p.poc % 65536, ty] ++ list ++ [0, 1, 1, natOfInt ((qp : Int) - 26), 0]
      else [band.1 * (s.colW b.ch).length + b.col, b.row - band.2.1, ty] ++ list
        ++ [if p.e < numRef then 1 else 0, p.e, natOfInt ((qp : Int) - 26), 1])

/-- The samples that the vectors of a CTU read, on which its reconstruction depends. -/
def State.ctuReads (s : State) (p : PicSt) (b : Job) (x : JobIn) (c : Nat) (q : CtuCode) : List Nat :=
  q.cus.flatMap (fun u => u.mvs.flatMap (fun m =>
    let h := readSpan (x.sub.x0 + 64 * c + u.x) u.w m.x 4 3 4
    let v := readSpan (x.y0 + u.y) u.h m.y 4 3 4
    let box : Box := { x0 := h.1.toNat, x1 := h.2.toNat, y0 := v.1.toNat, y1 := v.2.toNat }
    (List.range 3).flatMap (fun comp => s.refSamples b.ch (p.refBufs.getD m.ref 0) comp box)))

/-- All that a slice's bytes and its reconstruction depend on. -/
def State.sliceDesc (s : State) (p : PicSt) (b : Job) (x : JobIn) (qs : List CtuCode) : List Nat :=
  s.sliceHeader p b ((qs.head?.map (fun q => q.qp)).getD x.qpMax) ++ x.words ++ qs.flatMap CtuCode.nums
    ++ qs.zipIdx.flatMap (fun e => s.ctuReads p b x e.2 e.1)

/-- The bits of a slice whose CTUs take `ctu` bits: header and trailing bits within the term of 1,024 (R179), in whole bytes. -/
def sliceBits (desc : List Nat) (ctu : Nat) : Nat := ceilDiv (16 + Config.headBits desc % 1001 + ctu) 8 * 8

/-- A slice from its description: NAL unit header and payload. -/
def sliceData (hevc : Bool) (ty bits : Nat) (desc : List Nat) : List Nat :=
  nalHeader hevc ty ++ (List.range (bits / 8 - 2)).map (fun i => Config.sliceByte desc i % 256)

/-- The slice that a pipe codes for job b of picture p (R157, R183–R185): the same on every pipe, in a first run and in a replay (R20, R21). -/
def State.codeJob (s : State) (p : PicSt) (b : Job) : SliceOut :=
  let x := s.jobIn p b
  let qs := x.ctus (s.ctuIn p b x) x.w
  let desc := s.sliceDesc p b x qs
  let bits := sliceBits desc (qs.map (fun q => q.bits)).sum
  { bits := bits, floorCtu := (qs.filter (fun q => q.floor)).length, qpSum := (qs.map (fun q => q.qp)).sum,
    data := sliceData x.hevc (sliceType x.hevc p.seqStart p.phase) bits desc, desc := desc }

/-- R202: the stand-in of job b of picture p. Its row is charged its budget, and its bytes are those of its skip CUs. -/
def State.codeStandIn (s : State) (p : PicSt) (b : Job) : SliceOut :=
  let x := s.jobIn p b
  let qs := x.standIn
  let desc := s.sliceDesc p b x qs
  { bits := b.budget, floorCtu := 0, qpSum := x.qpMax * x.w,
    data := sliceData x.hevc (sliceType x.hevc p.seqStart p.phase) (sliceBits desc (64 * x.w)) desc, desc := desc }

/-! ## The decoded picture hash (R145) -/

/-- One byte of the CRC of the picture hash SEI: x^16 + x^12 + x^5 + 1, the most significant bit first (assumption 20). -/
def crc16Byte (c v : Nat) : Nat :=
  (List.range 8).foldl (fun c i => ((2 * c + v / 2 ^ (7 - i) % 2) % 65536) ^^^ (if c / 32768 % 2 = 1 then 0x1021 else 0)) c

/-- The CRC of a plane's samples, each as one or two bytes, the low byte first, and 16 zero bits. -/
def planeCrc (bps : Nat) (l : List Nat) : Nat := ((l.flatMap (fun v => leBytes v bps)) ++ [0, 0]).foldl crc16Byte 0xFFFF

/-- The values of a picture hash SEI over a box of a buffer: method 1, CRC, and the CRC of each component. -/
def State.hashVals (s : State) (n buf : Nat) (b : Box) : List Nat :=
  1 :: (List.range 3).map (fun comp => planeCrc (s.refBps n) (s.refSamples n buf comp b))

end Sys2Proof.Machine
end

