-- ==== Sys2Proof/Machine/Dis.lean ====
section
/-!
DEFINITION. Sys2Proof/Machine/Dis.lean: the Dispatcher (spec/10_dispatcher_and_logbook.md) and the row budgets of rate control (R178,
R181-R183, R186): Logbook, Track buffer, pipes, ready lists, faults and replays, retirement, stand-ins.
-/

namespace Sys2Proof.Machine

/-! ## Jobs and pipes -/

/-- The job at Logbook index j. -/
def State.job (s : State) (j : Nat) : Option Job := Tab.get (fun _ => (none : Option Job)) s.dis.jobs j

/-- Set the job at Logbook index j. -/
def State.setJob (s : State) (j : Nat) (x : Option Job) : State :=
  { s with dis := { s.dis with jobs := Tab.put (fun _ => (none : Option Job)) s.dis.jobs j x } }

/-- Every job held. -/
def State.allJobs (s : State) : List Job := s.dis.jobs.filterMap (fun e => e.2)

/-- Pipe p. -/
def State.pipe (s : State) (p : Nat) : PipeSt := Tab.get (fun _ => ({} : PipeSt)) s.dis.pipes p

/-- Set pipe p; DIS_PIPE_p_STATUS shows its slots (R213). -/
def State.setPipe (s : State) (p : Nat) (x : PipeSt) : State :=
  let s := { s with dis := { s.dis with pipes := Tab.put (fun _ => ({} : PipeSt)) s.dis.pipes p x } }
  let s := s.setF (F.DIS_PIPE_STATUS_RUN p) (if x.running.isSome then 1 else 0)
  let s := s.setF (F.DIS_PIPE_STATUS_NEXT p) (if x.next.isSome then 1 else 0)
  s.setF (F.DIS_PIPE_STATUS_CH p) (match x.running with | some j => (match s.job j with | some b => b.ch | none => 0) | none => 0)

/-- Is pipe p available: neither parked, cooling nor retired (R192)? -/
def State.pipeAvail (s : State) (p : Nat) : Bool :=
  !s.on (F.DIS_QUAD_CTL_PARK (p / 16)) && !s.on (F.DIS_PIPE_STATUS_COOLING p) && !s.on (F.DIS_PIPE_STATUS_RETIRED p)

/-- The number of pipes with a property. -/
def countPipes (f : Nat → Bool) : Nat := ((List.range 64).filter f).length

/-- P of R192: the pipes for first runs. -/
def State.firstRunPipes (s : State) : Int := (countPipes s.pipeAvail : Int) - 1

/-- Pipe p is available and both its slots are empty. -/
def State.pipeFree (s : State) (p : Nat) : Bool := s.pipeAvail p && (s.pipe p).running.isNone && (s.pipe p).next.isNone

/-- The lag for a job that becomes ready at `v` (R196). -/
def State.lagAt (s : State) (v : Nat) : Nat := if s.dis.lagFrom ≤ v then s.dis.lagNext else s.dis.lagNow

/-- The counts of DIS_STATUS (R213). -/
def State.disUpdate (s : State) : State :=
  let s := s.setF F.DIS_STATUS_P (if s.active fnDis then s.firstRunPipes.toNat else 0)
  let s := s.setF F.DIS_STATUS_RETIRED (countPipes (fun i => s.on (F.DIS_PIPE_STATUS_RETIRED i)))
  let s := s.setF F.DIS_STATUS_COOLING (countPipes (fun i => s.on (F.DIS_PIPE_STATUS_COOLING i)))
  let s := s.setF F.DIS_STATUS_SPARE (if s.dis.spare.isSome then 1 else 0)
  s.setF F.DIS_STATUS_SPARE_PIPE (s.dis.spare.getD 0)

/-- R196: at a channel enable, a park, a cool request and a retirement the lag is computed anew; it applies to jobs that become ready from the next
Meridian frame start. With fewer than one pipe for first runs DIS_LAG reads 0x1FFF. -/
def State.lagUpdate (s : State) : State :=
  let p := s.firstRunPipes
  let cs := s.lagChans
  let lag := if cs = [] ∨ p < 1 then 0 else s.lagFu p.toNat 4 cs
  let s := s.disUpdate.setF F.DIS_LAG_LAG_LINES (if s.liveChans ≠ [] ∧ p < 1 then 0x1FFF else min 0x1FFF (lagLines lag))
  if lag = s.dis.lagNext then s
  else { s with dis := { s.dis with lagNow := s.lagAt s.clk.vpos, lagNext := lag, lagFrom := (s.clk.vpos / s.clk.fu + 1) * s.clk.fu } }

/-! ## Track buffer (R211, R212) -/

/-- Record a decision of a kind: in the buffer when enabled, unmasked and not filtered out (R212). -/
def State.trk (s : State) (kind pipe : Nat) (warm : Bool) (j : Option Job) (detail : Nat) : State :=
  let b := j.getD {}
  if !s.on F.DIS_TRK_CTL_EN || s.on F.DIS_TRK_STATUS_STOPPED || bitsOf (s.rdn R.DIS_TRK_MASK) kind kind == 0
      || (s.on F.DIS_TRK_CTL_CH_FILT && (j.isNone || b.ch != s.f F.DIS_TRK_CTL_CH)) then s
  else
    let at_ := s.f F.DIS_TRK_NEXT_INDEX
    let rec_ : TrkRec :=
      { line := s.clk.line, frac := s.clk.frac, frame := s.clk.frame % 65536, kind := kind, pipe := pipe, warm := warm,
        ch := b.ch, lb := b.idx, col := b.col, row := b.row, detail := detail, tseq := s.dis.tseq % 65536 }
    let held := min 65536 (s.f F.DIS_TRK_STATUS_RECORDS + 1)
    let trig := s.f F.DIS_TRK_CTL_TRIG_KIND
    let fire := trig != 0 && trig == kind && !s.on F.DIS_TRK_STATUS_TRIGGERED
    let post := if fire then some (s.f F.DIS_TRK_CTL_POST) else s.dis.post.map (· - 1)
    let stop := (s.on F.DIS_TRK_CTL_MODE && held == 65536) || post == some 0
    let s := { s with dis := { s.dis with track := Tab.put (fun _ => ({} : TrkRec)) s.dis.track at_ rec_, tseq := s.dis.tseq + 1, post := post } }
    let s := (s.setF F.DIS_TRK_NEXT_INDEX (at_ + 1)).setF F.DIS_TRK_STATUS_RECORDS held
    let s := if fire then s.setF F.DIS_TRK_STATUS_TRIGGERED 1 else s
    if stop then (s.setF F.DIS_TRK_STATUS_STOPPED 1).raise 0x0A0B 0 else s

/-- DIS_TRK_CMD.CLEAR (R212). -/
def State.trackClear (s : State) : State :=
  ({ s with dis := { s.dis with track := [], post := none } }.wrn R.DIS_TRK_STATUS 0).wrn R.DIS_TRK_NEXT 0

/-! ## Logbook (R206-R210) -/

/-- The Logbook region's address. -/
def State.lbAddr (s : State) : Nat := s.rd64 R.DIS_LB_ADDR_LO R.DIS_LB_ADDR_HI % 2 ^ 38

/-- Write the header: magic, next index, wraps, CRC (R206). -/
def State.lbHeader (s : State) (next wraps : Nat) : State :=
  let ws := [0x4C420001, next % 262144, wraps % 2 ^ 32]
  let s := (ws ++ [crcWords ws]).zipIdx.foldl (fun s e => s.hbmPut (s.lbAddr + 4 * e.2) e.1 4) s
  s.wrn R.DIS_LB_HEAD (next % 262144)

/-- The address of record i. -/
def State.lbRec (s : State) (i : Nat) : Nat := s.lbAddr + 0x401000 + 64 * i

/-- Word 14 of a job's record (R207). -/
def Job.word14 (b : Job) : Nat :=
  let st := match b.st with | .ready | .named => 0 | .running => 1 | .done => 2 | .released => 3 | .standIn => 4 | .failed => 0 | .dropped => 0
  st + b.pipe.getD 0 * 8 + b.replays * 512 + b.fault * 2048

/-- A job changes: the held copy, and word 14 of its record. -/
def State.updJob (s : State) (b : Job) : State := (s.setJob b.idx (some b)).hbmPut (s.lbRec b.idx + 56) b.word14 4

/-- The first 14 words of a job's record (R207). -/
def recordWords (s : State) (p : PicSt) (b : Job) (w : Nat) : List Nat :=
  let seq := 128 * b.ch + b.rho % 128
  let fr := s.clk.frameOf b.rel
  let pos := b.rel % s.clk.fu
  let inA := Config.inAddr b.ch b.rho b.col % 2 ^ 38
  let refs := p.refBufs.map (· % 16)
  let rc := (refreshCols w p.per p.phase).headD 31
  let ec := (edgeCol w p.per p.edgeFrom).getD 31
  let clean := fun (o : Option Nat) => match o with | some phi => cleanCols w p.per phi | none => 0
  [b.idx + 2 ^ 24, b.ch + b.col * 2 ^ 5 + b.row * 2 ^ 10 + b.slice * 2 ^ 17, b.k % 2 ^ 32, b.k / 2 ^ 32 % 2 ^ 16 + seq * 2 ^ 16,
   pos / 65536 * 2 ^ 16 + pos % 65536, fr % 2 ^ 32,
   fr / 2 ^ 32 % 2 ^ 16 + p.phase * 2 ^ 16 + (if p.isB then 2 ^ 27 else 0) + (p.e - 1) * 2 ^ 28,
   inA % 2 ^ 32, inA / 2 ^ 32 + (refs.zipIdx.map (fun e => e.1 * 2 ^ (6 + 4 * e.2))).sum + p.k % 128 * 2 ^ 22,
   b.budget, b.floor + b.nI * 2 ^ 20,
   bitsOf (p.w 12) 5 0 + bitsOf (p.w 12) 13 8 * 2 ^ 6 + bitsOf (p.w 12) 19 16 * 2 ^ 12 + bitsOf (p.w 13) 15 0 * 2 ^ 16,
   bitsOf (p.w 14) 8 0 + bitsOf (p.w 14) 22 16 * 2 ^ 9 + rc * 2 ^ 16 + ec * 2 ^ 21,
   cleanCols w p.per p.phase + ((p.refPhases.zipIdx.map (fun e => clean e.1 * 2 ^ (5 * (e.2 + 1)))).sum)]

/-- The place of a job in `lastPipe`: its band and its row. -/
def bandKey (ch col rho : Nat) : Nat := 128 * (32 * ch + col) + rho % 128

/-- The pipe named for a job's row of its band (R194). -/
def State.setLastPipe (s : State) (b : Job) (p : Option Nat) : State :=
  { s with dis := { s.dis with lastPipe := Tab.put (fun _ => (none : Option Nat)) s.dis.lastPipe (bandKey b.ch b.col b.rho) p } }

/-- Write a job's record at its index (R207, R209). -/
def State.writeRecord (s : State) (b : Job) : State :=
  (b.record ++ [b.word14, crcWords b.record]).zipIdx.foldl (fun s e => s.hbmPut (s.lbRec b.idx + 4 * e.2) e.1 4) s

/-- The frame parameter block of a picture, written at its channel frame start (R208). -/
def State.writeFpb (s : State) (n : Nat) (p : PicSt) (alf : List Nat) : State :=
  let alf := alf.take 948
  let body := [p.k % 2 ^ 32, p.k / 2 ^ 32 % 2 ^ 16] ++ p.words ++ [alf.length] ++ (List.range 237).map (fun i => leNat alf (4 * i) 4)
  let a := s.lbAddr + 0x1000 + 0x20000 * n + 0x400 * (p.k % 128)
  (body ++ [crcWords body]).zipIdx.foldl (fun s e => s.hbmPut (a + 4 * e.2) e.1 4) s

/-- Read `n` words of HBM. -/
def State.hbmWords (s : State) (a n : Nat) : List Nat := (List.range n).map (fun i => s.hbmNat (a + 4 * i) 4)

/-- Are a job's record and its frame parameter block readable with good CRCs (R203 class 6, R204)? -/
def State.lbReadOk (s : State) (b : Job) : Bool :=
  let r := s.hbmWords (s.lbRec b.idx) 16
  let f := s.hbmWords (s.lbAddr + 0x1000 + 0x20000 * b.ch + 0x400 * (b.k % 128)) 256
  s.ready (fnHbm (stackOf s.lbAddr)) && r.getD 15 0 == crcWords (r.take 14) && f.getD 255 0 == crcWords (f.take 255)

/-- R210: the header at a DIS start: kept, at the first enable after a warm reset with the same address, or initialised at index 0. -/
def State.lbStart (s : State) : State :=
  let h := s.hbmWords s.lbAddr 4
  if s.on F.DIS_CTL_LB_KEEP && s.dis.keepAddr == some s.lbAddr && h.getD 0 0 == 0x4C420001 && h.getD 3 0 == crcWords (h.take 3) then
    let at_ := h.getD 1 0 % 262144
    let held := ((List.range 262144).map (fun i => (at_ + i) % 262144)).filter (fun i => decide (s.hbmNat (s.lbRec i + 56) 4 % 8 ≤ 2) && s.hbmNat (s.lbRec i + 3) 1 == 1)
    let s := (((s.wrn R.DIS_LB_HEAD at_).wrn R.DIS_LB_WARM_FIRST (held.headD 0)).wrn R.DIS_LB_WARM_CNT held.length).setF F.DIS_FLAGS_WARM 1
    { s with dis := { s.dis with headerDue := false, keepAddr := none } }
  else
    let s := s.lbHeader 0 0
    { s with dis := { s.dis with headerDue := false, keepAddr := none } }

/-! ## Rows and pictures of a channel -/

/-- Change row `rho` of a channel. -/
def EncCh.mapRow (x : EncCh) (rho : Nat) (f : RowSt → RowSt) : EncCh :=
  { x with pics := x.pics.map (fun p => { p with rows := p.rows.map (fun r => if r.rho = rho then f r else r) }) }

/-- The rows in flight, oldest first. -/
def EncCh.rows (x : EncCh) : List RowSt := x.pics.flatMap (fun p => p.rows)

/-- The picture of row `rho`. -/
def EncCh.picOf (x : EncCh) (rho : Nat) : Option PicSt := x.pics.find? (fun p => p.rows.any (fun r => r.rho == rho))

/-- The bits of a slice and its floor-mode CTUs, as a decision at `v` reads them: the Helm's entry where one arrived strictly before it (R244),
else its own. -/
def Job.sizesAt (b : Job) (v : Nat) : Nat × Nat :=
  let own := match b.out with | some o => (o.bits, o.floorCtu) | none => (b.budget, 0)
  match b.helm with | some h => if b.helmV < v then h else own | none => own

/-- The actual bits of a row and its floor-mode CTUs. -/
def State.rowSizes (s : State) (r : RowSt) : Nat × Nat :=
  r.jobs.foldl (fun t j => match s.job j with | some b => (t.1 + (b.sizesAt s.clk.vpos).1, t.2 + (b.sizesAt s.clk.vpos).2) | none => t) (0, 0)

/-- What R181 and R182 charge a row whose release position has passed: its bits, or its budget for good. -/
def State.rowCharge (s : State) (r : RowSt) : Nat := if r.released && !r.charged then (s.rowSizes r).1 else r.bud

/-! ## Rate control (R178, R181, R182, R186) -/

/-- R186, R178: at `a`, the floor-mode CTUs of the rows released strictly before `a` and not yet counted give s_k, and D moves
on past the last picture; a clamp raises event 0x0822. -/
def State.advanceDeficit (s : State) (n a : Nat) : State :=
  let x := s.encCh n
  match x.pics.reverse.find? (fun p => p.rows.any (fun r => r.budgeted)) with
  | none => s
  | some p =>
    let due := x.rows.filter (fun r => r.budgeted && r.released && !r.counted && decide (r.rel < a))
    let cnt := (due.map (fun r => (s.rowSizes r).2)).sum
    let all := p.cnt + cnt
    let sk := p.t0 * all / (s.ctuC n * s.ctuN n)
    let cap := p.rec_ * p.hd
    let d := p.d - p.eK + sk
    let x := due.foldl (fun (x : EncCh) r => x.mapRow r.rho (fun r => { r with counted := true })) x
    let pics := x.pics.map (fun (q : PicSt) => if q.k = p.k ∧ q.startV = p.startV then { q with cnt := all } else q)
    let s := (s.setEnc n { x with d := min d cap, pics := pics }).wrn (R.ENC_CH_RC_DEFICIT n) (min d cap)
    if cap < d then s.raise 0x0822 n else s

/-- R178: B_f, headroom, T0, e and T of the next picture. -/
def State.targetOf (s : State) (n : Nat) (x : EncCh) : Nat × Nat × Nat × Nat × Nat × Nat :=
  let b := nominal (s.chanBr n) (s.chanRate n).2 (s.chanRate n).1 x.q
  let hd := b.1 * s.fs (F.ENC_CH_RC_RECOV_HEAD n) / 256
  let e := min hd (x.d / max 1 (s.fs (F.ENC_CH_RC_RECOV_REC n)))
  (b.1, b.2, hd, b.1 - hd, e, b.1 - hd + e)

/-- The target of the picture at position i of the list, at its A_0 (R178); a canvas member takes its allocation (R188). -/
def State.pictureTarget (s : State) (n : Nat) (p : PicSt) (a : Nat) : State × PicSt :=
  let s := if p.canvas then s else s.advanceDeficit n a
  let x := s.encCh n
  let t := s.targetOf n x
  let fl := (p.rows.headD {}).fl
  let target := if p.canvas then max (p.rows.length * fl) (x.nextT.getD t.2.2.2.2.2) else t.2.2.2.2.2
  let p := { p with q := x.q, d := x.d, bF := t.1, hd := t.2.2.1, t0 := t.2.2.2.1, eK := t.2.2.2.2.1, rec_ := s.fs (F.ENC_CH_RC_RECOV_REC n), target := target }
  ((s.setEnc n { x with q := t.2.1 }).wrn (R.ENC_CH_RC_TARGET n) target, p)

/-- R182: the bucket level at `a`, with the checkpoint moved to the last row released strictly before `a`. -/
def State.bucket (s : State) (n : Nat) (x : EncCh) (a : Nat) : EncCh × Nat :=
  let z := s.zUnit
  let drain := s.chanBr n * s.clk.den
  let rows := x.rows.filter (fun r => r.budgeted && decide (x.chkRho ≤ r.rho))
  let past := rows.takeWhile (fun r => decide (r.rel < a))
  let rest := rows.drop past.length
  let nextA := fun (i : Nat) => match rows[i + 1]? with | some r => r.a | none => a
  let v := past.zipIdx.foldl (fun v e => bucketStep v (s.rowCharge e.1) z (nextA e.2 - e.1.a) drain) x.vChk
  let x := match past.getLast? with
    | some l => { x with vChk := v, chkRho := l.rho + 1, chkValid := true }
    | none => x
  (x, rest.zipIdx.foldl (fun v e => bucketStep v e.1.bud z (nextA (past.length + e.2) - e.1.a) drain) v)

/-- The jobs of a row, with their budgets (R183), positions (R191) and records (R207). -/
def State.rowJobs (s : State) (n : Nat) (p : PicSt) (r : RowSt) (bud : Nat) : List Job :=
  let ws := s.colW n
  let spans := s.colSpans n
  let t := s.latTerms n 4
  let lag := s.lagAt r.a
  let rows := min 64 (s.f (F.ENC_CH_SIZE_H n) - 64 * r.r)
  let lum := spans.map (fun x => x.2 * rows)
  let all := lum.sum
  let head := s.rdn R.DIS_LB_HEAD
  (ws.zip spans).zipIdx.map (fun e =>
    let col := e.2
    let w := e.1.1
    let nI := nIntra w p.per p.phase p.edgeFrom
    let fl := floorJob w nI (bitsOf (p.w 13) 15 0)
    let c0 := (lum.take col).sum
    let d := r.a + t.1 * 65536
    let b : Job :=
      { idx := (head + col) % 262144, ch := n, k := p.k, col := col, row := r.r, rho := r.rho, slice := r.r * ws.length + col,
        budget := fl + jobShare (bud - r.fl) c0 (c0 + lum.getD col 0) all, floor := fl, nI := nI, dPos := d, latest := d + lag,
        deadline := d + lag + t.2.1 * 65536, ps := r.rel - t.2.2.2 * 65536, rel := r.rel }
    { b with record := recordWords s p b w })

/-- R181: the budget of row r of picture p, with the bucket at `vr` bits, and whether the bucket limited it. Rows whose actual bits a QUIET channel
has loaded count with what it loaded (R247). -/
def State.budgetAt (s : State) (n : Nat) (p : PicSt) (r : RowSt) (vr : Nat) : Nat × Bool :=
  let before := p.rows.filter (fun j => decide (j.r < r.r))
  let own := fun (j : RowSt) => if j.rel < r.a then s.rowCharge j else j.bud
  let spent := match p.spent with
    | some e => e.2 + ((before.filter (fun j => decide (e.1 ≤ j.rho))).map own).sum
    | none => (before.map own).sum
  let res := ((p.rows.filter (fun j => decide (r.r < j.r))).map (fun j => j.fl)).sum
  rowBud (rowShare p.target spent res r.fl (p.rows.length - r.r)) (s.cpbBits n - vr) r.fl

/-- R181–R183, R191: row r of channel n receives its budget at A_r; its jobs' records are written and they become ready. -/
def State.rowBudget (s : State) (n : Nat) : State :=
  if !(s.ready (fnEnc n) || s.fn (fnEnc n) == .draining || s.fn (fnEnc n) == .pendingRestart) then s else
  match (s.encCh n).pics.find? (fun p => p.rows.any (fun r => !r.budgeted)) with
  | none => s
  | some p =>
    match p.rows.find? (fun r => !r.budgeted) with
    | none => s
    | some r =>
      match s.toPos 7 r.a with
      | none => s
      | some s =>
        let sp := if r.r = 0 then s.pictureTarget n p r.a else (s, p)
        let s := sp.1
        let p := sp.2
        let bk := s.bucket n (s.encCh n) r.a
        let x : EncCh := { bk.1 with pics := bk.1.pics.map (fun (q : PicSt) => if q.k = p.k ∧ q.startV = p.startV then { p with rows := q.rows } else q) }
        let p := (x.picOf r.rho).getD p
        let vr := bk.2 / s.zUnit
        let bl := s.budgetAt n p r vr
        let jobs := s.rowJobs n p r bl.1
        let x := x.mapRow r.rho (fun r => { r with bud := bl.1, budgeted := true, jobs := jobs.map (fun (b : Job) => b.idx) })
        let s := (s.setEnc n x).wrMax (R.ENC_CH_RC_VMAX n) vr
        let s := if bl.2 then (s.bump (R.ENC_CH_RC_CAP_CNT n)).raise 0x0821 n else s
        let pri := s.f (F.DIS_CH_CTL_PRI n)
        let s := jobs.foldl (fun s b => (((s.setJob b.idx (some b)).setLastPipe b none).writeRecord b).trk 1 0 false (some b) pri) s
        let h := s.rdn R.DIS_LB_HEAD + jobs.length
        let wraps := s.hbmNat (s.lbAddr + 8) 4
        s.lbHeader h (if 262144 ≤ h then wraps + 1 else wraps)

/-- R186: a picture whose last row is coded reports its bits, and a dip where CTUs were coded in floor mode. -/
def State.checkDip (s : State) (n : Nat) : State :=
  let x := s.encCh n
  match x.pics.find? (fun p => !p.dipDone && p.rows != [] && p.rows.all (fun r => r.budgeted && r.jobs.all (fun j =>
      match s.job j with | some b => (match b.st with | .done | .standIn | .released => true | _ => false) | none => true))) with
  | none => s
  | some p =>
    let x : EncCh := { x with pics := x.pics.map (fun (q : PicSt) => if q.k = p.k ∧ q.startV = p.startV then { q with dipDone := true } else q) }
    let t := p.rows.foldl (fun t r => let z := s.rowSizes r; (t.1 + z.1, t.2 + z.2)) (0, 0)
    let s := (s.setEnc n x).wrn (R.ENC_CH_RC_BITS n) t.1
    if t.2 = 0 then s
    else ((s.bump (R.ENC_CH_RC_DIP_CNT n)).bumpBy (R.ENC_CH_RC_FLOOR_CTU n) t.2).raise 0x0820 n

/-! ## The spare (R192) -/

/-- Set the spare. -/
def State.setSpare (s : State) (o : Option Nat) : State := { s with dis := { s.dis with spare := o } }.disUpdate

/-- Pipe p leaves the role: the first free available pipe above it, wrapping, becomes the spare. -/
def State.passSpare (s : State) (p : Nat) : State :=
  s.setSpare (((List.range 63).map (fun i => (p + 1 + i) % 64)).find? s.pipeFree)

/-- R192: with no spare, the lowest free available pipe is named. -/
def State.spareNaming (s : State) : State :=
  if s.dis.spare.isSome || !s.active fnDis then s
  else match (List.range 64).find? s.pipeFree with
    | some p => s.setSpare (some p)
    | none => s

/-- The spare became cooling, parked or retired: a successor is found. -/
def State.dropSpare (s : State) : State :=
  match s.dis.spare with
  | some p => if s.pipeAvail p then s else s.passSpare p
  | none => s

/-! ## Naming, starting and completing jobs (R192-R195) -/

/-- A width in CTUs of a job's column. -/
def State.jobWidth (s : State) (b : Job) : Nat := (s.colW b.ch).getD b.col 1

/-- The affinity pipe of a job: the pipe named for the row above it (R194). -/
def State.affinity (s : State) (b : Job) : Option Nat :=
  if b.row = 0 ∨ 9 < s.jobWidth b then none else Tab.get (fun _ => (none : Option Nat)) s.dis.lastPipe (bandKey b.ch b.col (b.rho + 127))

/-- Is job a taken before job b from the first-run lists (R193)? -/
def State.jobBefore (s : State) (p : Option Nat) (a b : Job) : Bool :=
  let ka := fun (x : Job) => [s.f (F.DIS_CH_CTL_PRI x.ch), x.latest, (if p.isSome && s.affinity x == p then 0 else 1), x.ch, x.slice]
  decide (ka a < ka b)

/-- The job taken first from a list (R193). -/
def State.bestJob (s : State) (p : Option Nat) (l : List Job) : Option Job :=
  l.foldl (fun o b => match o with | none => some b | some a => if s.jobBefore p b a then some b else some a) none

/-- The pipes in the order in which R194 searches them for a channel. -/
def State.pipeOrder (s : State) (n : Nat) : List Nat :=
  (List.range 4).flatMap (fun i => (List.range 16).map (fun k => (stackOf (s.refAddr n) + i) % 4 * 16 + k))

/-- The start window of a job (R159): the subpicture's width, or from 10 CTUs on the window of its first CTU; lines outside the subpicture are never
loaded. -/
def State.startBox (s : State) (b : Job) : Box :=
  let sub := s.subRect b.ch b.row b.col
  let rx := bitsOf (b.record.getD 12 0) 8 0
  let ry := bitsOf (b.record.getD 12 0) 15 9
  { x0 := sub.x0, x1 := if s.jobWidth b ≤ 9 then sub.x1 else min sub.x1 (sub.x0 + 64 + rx),
    y0 := max sub.y0 (64 * b.row - ry), y1 := min sub.y1 (64 * b.row + 64 + ry) }

/-- Lines that a job loads (R160): all of its window, or, warm, those that the window of the row above does not hold. -/
def State.loadLines (s : State) (b : Job) (warm : Bool) : Nat :=
  let x := s.startBox b
  let y := s.startBox { b with row := b.row - 1 }
  if warm then (x.y1 - x.y0) - (min x.y1 y.y1 - max x.y0 y.y0) else x.y1 - x.y0

/-- Samples of `cols` columns of a job's window, over its references and components (R159–R161). -/
def State.loadSamples (s : State) (b : Job) (cols : Nat) (warm : Bool) : Nat :=
  let e := (match (s.encCh b.ch).picOf b.rho with | some p => p.e | none => 1)
  cols * s.loadLines b warm * chromaK (s.f (F.ENC_CH_FORMAT_CHROMA b.ch)) * e / 2

/-- Samples of a job's start window. -/
def State.startSamples (s : State) (b : Job) (warm : Bool) : Nat :=
  let x := s.startBox b
  s.loadSamples b (x.x1 - x.x0) warm

/-- Samples are loaded into the store of pipe p; ENC_PIPE_p_FILL_SMP counts units of 1,024 (R170). -/
def State.countFill (s : State) (p smp : Nat) : State :=
  let x := s.pipe p
  (s.setPipe p { x with smpRem := (x.smpRem + smp) % 1024 }).bumpBy (R.ENC_PIPE_FILL_SMP p) ((x.smpRem + smp) / 1024)

/-- Name job b to pipe p: its next slot, its window in the staging store from now on (R161), affinity and migration (R194). A replay is no migration. -/
def State.nameTo (s : State) (b : Job) (p : Nat) : State :=
  let mig := !b.isReplay && (match s.affinity b with | some a => a != p | none => false)
  let b := { b with st := .named, pipe := some p, moved := mig }
  let s := s.updJob b
  let s := s.setPipe p { s.pipe p with next := some b.idx, stage := some (s.startBox b), namedNs := s.clk.ns }
  let s := if b.isReplay then s else s.setLastPipe b (some p)
  let s := s.trk 2 p false (some b) 0
  if mig then (s.bump R.DIS_MIGRATE_CNT).trk 9 p false (some b) 0 else s

/-- The first-run pipes whose next slot is empty (R194). -/
def State.openPipes (s : State) : List Nat :=
  (List.range 64).filter (fun p => s.pipeAvail p && s.dis.spare != some p && (s.pipe p).next.isNone)

/-- R194: a first-run job is named. -/
def State.firstNamed (s : State) : State :=
  let wait := s.allJobs.filter (fun b => b.st == .ready && !b.isReplay)
  let open_ := s.openPipes
  match open_ with
  | [] => s
  | [p] => (match s.bestJob (some p) wait with | some b => s.nameTo b p | none => s)
  | _ =>
    match s.bestJob none wait with
    | none => s
    | some b =>
      let aff := match s.affinity b with | some a => if open_.contains a then some a else none | none => none
      let order := (s.pipeOrder b.ch).filter (fun p => open_.contains p)
      let idle := order.find? (fun p => (s.pipe p).running.isNone)
      match aff, idle, order.head? with
      | some p, _, _ => s.nameTo b p
      | none, some p, _ => s.nameTo b p
      | none, none, some p => s.nameTo b p
      | none, none, none => s

/-- R204: the pipe for a waiting replay: the spare, if it is idle; else the first pipe that empties: a wholly empty one, or one with an empty next slot
(assumption 95). Pipes that ran the job are left out. -/
def State.replayPipe (s : State) (b : Job) : Option Nat :=
  let open_ := s.openPipes.filter (fun p => !b.ran.contains p)
  match s.dis.spare with
  | some p => if s.pipeFree p ∧ p ∉ b.ran then some p else (match open_.find? s.pipeFree with | some q => some q | none => open_.head?)
  | none => match open_.find? s.pipeFree with | some q => some q | none => open_.head?

/-- The waiting replay with the earliest P_s among those for which there is a pipe (R193). -/
def State.nextReplay (s : State) : Option (Job × Nat) :=
  (s.allJobs.filter (fun b => b.st == .ready && b.isReplay)).foldl (fun o b => match s.replayPipe b with
    | none => o
    | some p => (match o with | none => some (b, p) | some a => if b.ps < a.1.ps then some (b, p) else some a)) none

/-- A replay is named to pipe p: its record and frame parameter block are read first (class 6, R203); the spare that takes it leaves the role (R192). -/
def State.nameReplay (s : State) (b : Job) (p : Nat) : State :=
  if !s.lbReadOk b then
    let s := (s.bump (R.DIS_PIPE_FAULT_CNT p)).wrn (R.DIS_PIPE_LAST_FAULT p) 6
    let s := (((s.setF F.DIS_FLAGS_FAULT 1).setF F.DIS_FLAGS_LB_CRC 1).raise 0x0A02 p).raise 0x0A0A b.ch
    (s.trk 5 p false (some b) 6).updJob { b with st := .failed, fault := 6 }
  else
    let s := s.nameTo { b with replays := b.replays + 1, record := s.hbmWords (s.lbRec b.idx) 14 } p
    if s.dis.spare = some p then s.passSpare p else s

/-- R193, R194: one naming decision; where a spare is to be named in the same cycle, that acts first (R192). A replay on level 0 is taken before a first
run, unless the spare is there for it. -/
def State.jobNamed (s : State) : State :=
  let s := s.spareNaming
  match s.nextReplay with
  | some (b, p) => if s.dis.spare = some p then s.firstNamed else s.nameReplay b p
  | none => s.firstNamed

/-- R195: the first miss of a channel in a Meridian frame raises event 0x0A07; every miss is counted. -/
def State.missedStart (s : State) (b : Job) : State :=
  let fr := s.clk.vpos / s.clk.fu
  let said := Tab.get (fun _ => (none : Option Nat)) s.dis.missFrame b.ch == some fr
  let s := ((s.setJob b.idx (some { b with missed := true })).bump R.DIS_DLMISS_CNT).setF F.DIS_FLAGS_DL_MISS 1
  let s := (s.trk 14 (b.pipe.getD 0) false (some b) 0)
  if said then s
  else { (s.raise 0x0A07 b.ch) with dis := { s.dis with missFrame := Tab.put (fun _ => (none : Option Nat)) s.dis.missFrame b.ch (some fr) } }

/-- Pipe p starts to code job b now: warm or cold (R160); its window is loaded from its naming on, and counted (R161, R170). -/
def State.startOn (s : State) (p : Nat) (b : Job) : State :=
  let x := s.pipe p
  let warm := !b.isReplay && !b.moved && decide (s.jobWidth b ≤ 9) && decide (0 < b.row) && x.last == some (b.ch, b.k, b.row - 1, b.col)
  let smp := s.startSamples b warm
  let late := !b.isReplay && decide (b.latest < s.clk.vpos) && !s.clk.isAt b.latest && !b.missed
  let s := if late then s.missedStart b else s
  let b := (s.job b.idx).getD b
  let pic := (s.encCh b.ch).picOf b.rho
  let src := if b.src = {} then (match pic with | some q => s.composedRow b.ch q.startV b.row | none => {}) else b.src
  let b := { b with st := .running, pipe := some p, ran := p :: b.ran, src := src }
  let s := s.updJob b
  let y : PipeSt :=
    { x with running := some b.idx, next := if x.next = some b.idx then none else x.next, stage := none, store := some (s.startBox b),
             startV := s.clk.vpos, startNs := s.clk.ns, warm := warm, fillNs := max s.clk.ns (x.namedNs + tFill smp) }
  let s := (s.setPipe p y).countFill p smp
  let s := s.bump (if warm then R.ENC_PIPE_WARM_CNT p else R.ENC_PIPE_COLD_CNT p)
  let s := s.bump (R.DIS_PIPE_JOB_CNT p)
  let s := if b.isReplay then s.trk 6 p warm (some b) b.replays else s.bump R.DIS_JOB_CNT
  s.trk 3 p warm (some b) 0

/-- R195: pipe p starts its next job at the later of D and the completion of its running job. -/
def State.jobStart (s : State) (p : Nat) : State :=
  let x := s.pipe p
  match x.running, x.next with
  | none, some j =>
    match s.job j with
    | none => s
    | some b => (match s.toPos 7 b.dPos with | none => s | some s => s.startOn p b)
  | _, _ => s

/-- R195: at the latest start, a job not yet started is recorded as missed. -/
def State.latestStart (s : State) (j : Nat) : State :=
  match s.job j with
  | none => s
  | some b =>
    if b.isReplay || b.missed || !(b.st == .ready || b.st == .named) then s else
    match s.toPos 7 b.latest with
    | none => s
    | some s => s.missedStart b

/-! ## Faults, retirement, shedding (R199, R203, R204) -/

/-- Has the job's slot been filled? -/
def Job.complete (b : Job) : Bool := match b.st with | .done | .standIn | .released => true | _ => false

/-- An encode channel fails (R14, R199): it releases its complete slices up to its first incomplete one, nothing after it. -/
def State.encFault (s : State) (n : Nat) : State :=
  let x := s.encCh n
  let ids := (x.rows.filter (fun r => r.budgeted && !r.released)).flatMap (fun r => r.jobs)
  let keep := ids.takeWhile (fun j => match s.job j with | some b => b.complete | none => false)
  let s := ids.foldl (fun s j =>
    if keep.contains j then s else match s.job j with
      | some b =>
        let s := match b.pipe with
          | some p => if (s.pipe p).next = some j then s.setPipe p { s.pipe p with next := none, stage := none } else s
          | none => s
        s.setJob j (some { b with st := .dropped })
      | none => s) s
  (s.setEnc n { s.encCh n with cut := true }).setFn (fnEnc n) .fault

/-- Shed channel n (R199). -/
def State.shed (s : State) (n : Nat) : State :=
  let s := (s.encFault n).setF (F.DIS_CH_CTL_SHED n) 1
  ((s.setF F.DIS_FLAGS_SHED 1).trk 13 0 false (some { ch := n }) 0).raise 0x0A06 n

/-- The channels that are not OFF and not shed, in shedding order: the highest PRI first, then the highest index. -/
def State.shedOrder (s : State) : List Nat :=
  let cs := s.lagChans.reverse
  (List.range 8).reverse.flatMap (fun pri => cs.filter (fun n => s.f (F.DIS_CH_CTL_PRI n) == pri))

/-- Shed channels one at a time until the check of R196 passes. -/
def State.shedLoop (s : State) : List Nat → State
  | [] => s
  | n :: r => if s.lagOk s.firstRunPipes (n :: r) then s else State.shedLoop (s.shed n) r

/-- Pipes that are neither parked nor retired. -/
def State.pipesIn (s : State) : Nat := countPipes (fun p => !s.on (F.DIS_QUAD_CTL_PARK (p / 16)) && !s.on (F.DIS_PIPE_STATUS_RETIRED p))

/-- Fewer than two pipes are left. -/
def State.tooFewPipes (s : State) : Bool := decide (s.pipesIn < 2)

/-- A pending cool request of pipe p is honoured while the check of R196 passes without it; else deferred (R198). A band whose
affinity pipe it was loses that affinity: its entry names no pipe from then on, so its next job counts as a migration. -/
def State.coolTry (s : State) (p : Nat) : State :=
  if !s.on (F.DIS_PIPE_STATUS_COOL_REQ p) || s.on (F.DIS_PIPE_STATUS_COOLING p) then s else
  let t := s.setF (F.DIS_PIPE_STATUS_COOLING p) 1
  if t.lagOk t.firstRunPipes t.lagChans then
    let lost := t.dis.lastPipe.map (fun e => if e.2 = some p then (e.1, some 64) else e)
    ({ t with dis := { t.dis with lastPipe := lost, coolSaid := t.dis.coolSaid.filter (· != p) } }.dropSpare.lagUpdate).trk 10 p false none 0
  else if s.dis.coolSaid.contains p then s
  else ({ s with dis := { s.dis with coolSaid := p :: s.dis.coolSaid } }.setF F.DIS_FLAGS_COOL_DEFER 1).raise 0x0A08 p

/-- Requests that stayed pending are looked at again where the check of R196 may now pass (R198). -/
def State.coolRetry (s : State) : State := (List.range 64).foldl State.coolTry s

/-- Pipe p is retired (R199). -/
def State.retire (s : State) (p : Nat) : State :=
  let x := s.pipe p
  let s := (((s.setF (F.DIS_PIPE_STATUS_RETIRED p) 1).setF F.DIS_FLAGS_RETIRE 1).raise 0x0A05 p).trk 12 p false none 0
  let s := match x.next with
    | some j => (match s.job j with
      | some b => (s.setJob j (some { b with st := .ready, pipe := none })).setPipe p { s.pipe p with next := none, stage := none }
      | none => s)
    | none => s
  let s := (s.dropSpare.lagUpdate).clockCheck s.firstRunPipes
  if s.tooFewPipes then (s.shedOrder.foldl State.shed s).setFn fnDis .fault
  else (s.shedLoop s.shedOrder).lagUpdate.coolRetry

/-- What a job leaves behind in a pipe: it was the pipe's previous job (R160). -/
def Job.mark (b : Job) : Nat × Nat × Nat × Nat := (b.ch, b.k, b.row, b.col)

/-- R203: a fault of a class is detected on pipe p, running job b, or with job b in its next slot (`staged`). A parity error clears the store (R162). -/
def State.faultOn (s : State) (p : Nat) (b : Job) (cls : Nat) (staged : Bool) : State :=
  let x := s.pipe p
  let fr := s.clk.vpos / s.clk.fu
  let win := s.f F.DIS_RETIRE_WIN
  let faults := if cls ≤ 5 then (fr :: x.faults).filter (fun f => decide (fr < f + win)) else x.faults
  let x : PipeSt := if staged then { x with next := none, stage := none }
    else { x with running := none, last := if cls = 1 then none else some b.mark, store := if cls = 1 then none else x.store }
  let s := s.setPipe p { x with faults := faults }
  let s := (s.bump (R.DIS_PIPE_FAULT_CNT p)).wrn (R.DIS_PIPE_LAST_FAULT p) cls
  let s := ((s.setF F.DIS_FLAGS_FAULT 1).raise 0x0A02 p).trk 5 p x.warm (some b) cls
  let s := if cls = 1 then s.bump (R.ENC_PIPE_PAR_CNT p) else s
  let again := decide (cls ≤ 5) && decide (b.replays < s.f F.DIS_CTL_MAX_REPLAY)
  let s := if b.st == .dropped || b.complete then s
    else
      let s := s.updJob { b with st := if again then .ready else .failed, isReplay := again || b.isReplay, fault := cls, pipe := some p }
      if again then s.trk 1 p false (some b) 0 else s
  if decide (cls ≤ 5) && decide (s.f F.DIS_RETIRE_THR ≤ faults.length) && !s.on (F.DIS_PIPE_STATUS_RETIRED p) then s.retire p else s

/-- The job that pipe p runs. -/
def State.runningJob (s : State) (p : Nat) : Option Job := match (s.pipe p).running with | some j => s.job j | none => none

/-- R203: a pipe reports a fault of class 1, 2, 3 or 8. -/
def State.pipeFault (s : State) (p cls : Nat) : State :=
  match s.runningJob p with
  | some b => if cls = 1 ∨ cls = 2 ∨ cls = 3 ∨ cls = 8 then s.faultOn p b cls false else s
  | none => s

/-- R168: an uncorrectable reference read for the running job of pipe p, or for the job whose window is being staged (R194): class 7, no replay, and a
GDR restart at the next channel frame. -/
def State.refUncorrectable (s : State) (p : Nat) (staged : Bool) : State :=
  match (if staged then (match (s.pipe p).next with | some j => s.job j | none => none) else s.runningJob p) with
  | some b => (((s.faultOn p b 7 staged).bump (R.ENC_CH_REF_ERR_CNT b.ch)).raise 0x0810 b.ch).requestRestart b.ch s.clk.vpos
  | none => s

/-- The completion deadline of the job that pipe p runs as a first run (R191); after a missed start, its start plus job (R195). -/
def State.deadlineOf (s : State) (p : Nat) (b : Job) : Nat :=
  if b.missed then (s.pipe p).startV + (b.deadline - b.latest) else b.deadline

/-- R203: a first run still running at its completion deadline is a class 5 fault. -/
def State.completionDeadline (s : State) (p : Nat) : State :=
  match s.runningJob p with
  | none => s
  | some b =>
    if b.isReplay then s else
    match s.toPos 7 (s.deadlineOf p b) with
    | none => s
    | some s => s.faultOn p b 5 false

/-- The slice description of a complete job of row number rho of a column; none of others. -/
def State.descOf (s : State) (n rho col : Nat) : List Nat :=
  match s.allJobs.find? (fun b => b.ch == n && b.rho == rho && b.col == col) with
  | some b => (match b.out with | some o => o.desc | none => [])
  | none => []

/-- The reconstruction of CTU row r of a column is written to the picture's buffer (R164): after the loop filters, which act across the edges to the
slices above and below in the subpicture (R136). -/
def State.reconRow (s : State) (n : Nat) (p : PicSt) (r col : Nat) : State :=
  let rho := (p.rows.headD {}).rho + r
  let band := bandOf (s.rowH n) 0 0 r
  let sub := s.subRect n r col
  let here := s.descOf n rho col
  let up := if band.2.1 < r then s.descOf n (rho - 1) col else []
  let down := if r + 1 < band.2.1 + band.2.2 then s.descOf n (rho + 1) col else []
  if here = [] then s
  else s.putSamples n p.buf { sub with y0 := 64 * r, y1 := min (64 * r + 64) sub.y1 }
    (fun comp y x => Config.recSample up here down comp y x % 2 ^ depthBits (s.f (F.ENC_CH_FORMAT_DEPTH n)))

/-- Job b has its slice: the rows that its loop filters touch are written. -/
def State.recon (s : State) (b : Job) : State :=
  match (s.encCh b.ch).picOf b.rho with
  | none => s
  | some p =>
    let s := if b.row = 0 then s else s.reconRow b.ch p (b.row - 1) b.col
    (s.reconRow b.ch p b.row b.col).reconRow b.ch p (b.row + 1) b.col

/-- The columns of a wide job that slid into the store after its start window are counted (R159, R170), and the store holds its last window. -/
def State.slideDone (s : State) (p : Nat) (b : Job) : State :=
  let sub := s.subRect b.ch b.row b.col
  let x := s.startBox b
  if sub.x1 ≤ x.x1 then s
  else
    let s := s.countFill p (s.loadSamples b (sub.x1 - x.x1) false)
    s.setPipe p { s.pipe p with store := some { x with x0 := sub.x0 + 64 * (s.jobWidth b - 1) - bitsOf (b.record.getD 12 0) 8 0, x1 := sub.x1 } }

/-- R201, R203, R204: pipe p completes its running job. A completion stamped at or after a deadline counts after its decision (R191): a first run past its
completion deadline is a class 5 fault, and a job past P_s is abandoned to its stand-in. `overrun`: more bits than the budget are reported. -/
def State.jobComplete (s : State) (p : Nat) (overrun : Bool) : State :=
  match (s.pipe p).running with
  | none => s
  | some j =>
    match s.job j with
    | none => s.setPipe p { s.pipe p with running := none }
    | some b =>
      let startNs := (s.pipe p).startNs
      let s := s.toNs (s.pipe p).fillNs
      let idle : PipeSt := { s.pipe p with running := none, last := some b.mark }
      if b.st != .running then s.setPipe p idle
      else if !b.isReplay && decide (s.deadlineOf p b ≤ s.clk.vpos) then s.faultOn p b 5 false
      else if b.ps ≤ s.clk.vpos then (s.setPipe p idle).updJob { b with st := .failed }
      else if overrun then s.faultOn p b 4 false
      else
        let out := s.codeJob (((s.encCh b.ch).picOf b.rho).getD {}) b
        let s := (s.setPipe p idle).slideDone p b
        let s := s.probe 9 (fun i => i == b.ch || i == 63) (s.clk.ns - startNs : Nat)
        let b := { b with st := .done, out := some out, doneV := s.clk.vpos }
        let s := ((s.updJob b).recon b).trk 4 p (s.pipe p).warm (some b) 0
        let s := if b.isReplay then (s.bump R.DIS_REPLAY_CNT).raise 0x0A03 p else s
        s.checkDip b.ch

/-- R204: a waiting replay is named to its pipe, and starts there cold at once where the pipe runs no job. -/
def State.replayStart (s : State) : State :=
  match s.nextReplay with
  | none => s
  | some (b, p) => (s.nameReplay b p).jobStart p

/-! ## Stand-ins and sequences (R200-R202) -/

/-- R202: at P_s of the next row, every empty slot receives a stand-in. -/
def State.standInDecision (s : State) (n : Nat) : State :=
  match (s.encCh n).rows.find? (fun r => r.budgeted && !r.psDone && !r.released) with
  | none => s
  | some r =>
    let ps := match r.jobs.head? with | some j => (match s.job j with | some b => b.ps | none => r.rel) | none => r.rel
    match s.toPos 7 ps with
    | none => s
    | some s =>
      let s := s.setEnc n ((s.encCh n).mapRow r.rho (fun r => { r with psDone := true }))
      let s := r.jobs.foldl (fun s j => match s.job j with
        | none => s
        | some b =>
          if b.complete || b.st == .dropped then s else
          let s := match b.pipe with
            | some p =>
              let x := s.pipe p
              let x := if x.next = some j then { x with next := none, stage := none } else x
              s.setPipe p (if b.isReplay ∧ x.running = some j then { x with running := none, last := some b.mark } else x)
            | none => s
          let b := { b with st := .standIn, out := some (s.codeStandIn (((s.encCh n).picOf b.rho).getD {}) b), doneV := s.clk.vpos }
          let s := ((s.updJob b).recon b).setEnc n ((s.encCh n).mapRow r.rho (fun r => { r with charged := true }))
          let s := ((s.bump R.DIS_STANDIN_CNT).setF F.DIS_FLAGS_STAND_IN 1).raise 0x0A04 n
          (s.trk 7 (b.pipe.getD 0) false (some b) 0).requestRestart n ps) s
      s.checkDip n

/-- R200: 72,000 ns after its release position, a row's sequence is freed; pictures wholly freed and no longer read by the
rate control leave. -/
def State.sequenceFree (s : State) (n : Nat) : State :=
  match (s.encCh n).rows.find? (fun r => r.released && !r.freed) with
  | none => s
  | some r =>
    match s.toPos 8 (r.rel + s.toFu 72000) with
    | none => s
    | some s =>
      let x := (s.encCh n).mapRow r.rho (fun r => { r with freed := true })
      let gone := fun (p : PicSt) => p.rows != [] && p.rows.all (fun r => r.freed && r.counted && decide (r.rho + 1 < x.chkRho)) && decide (1 < x.pics.length)
      let dead := ((x.pics.filter gone).flatMap (fun p => p.rows)).flatMap (fun r => r.jobs)
      let s := s.setEnc n { x with pics := x.pics.filter (fun p => !gone p) }
      dead.foldl (fun s j => s.setJob j none) s

/-! ## Parking, cooling, returning pipes, start (R197-R199, R210, R360) -/

/-- DIS_QUAD_q_CTL takes the value `new` (R197). -/
def State.quadWrite (s : State) (q : Nat) (new : Word) : State :=
  let want := bitsOf new.toNat 0 0 == 1
  let have_ := s.on (F.DIS_QUAD_CTL_PARK q)
  if want && !have_ then
    let t := s.setF (F.DIS_QUAD_CTL_PARK q) 1
    if !t.lagOk t.firstRunPipes t.lagChans || (s.active fnDis && decide (countPipes t.pipeAvail ≤ 1)) then s.refuse 0x0A
    else (t.dropSpare.lagUpdate).clockCheck t.firstRunPipes
  else if !want && have_ then
    let t := (s.setF (F.DIS_QUAD_CTL_PARK q) 0).setF (F.DIS_QUAD_CTL_PARKED q) 0
    let t := (List.range 16).foldl (fun t i =>
      let p := 16 * q + i
      (t.setF (F.DIS_PIPE_STATUS_PARKED p) 0).setPipe p { t.pipe p with last := none }) t
    t.spareNaming.disUpdate.coolRetry
  else s

/-- R197: all 16 pipes of a parking quadrant are idle: PARKED. -/
def State.quadrantParked (s : State) (q : Nat) : State :=
  if s.on (F.DIS_QUAD_CTL_PARK q) && !s.on (F.DIS_QUAD_CTL_PARKED q)
      && (List.range 16).all (fun i => (s.pipe (16 * q + i)).running.isNone && (s.pipe (16 * q + i)).next.isNone) then
    let t := (List.range 16).foldl (fun t i => t.setF (F.DIS_PIPE_STATUS_PARKED (16 * q + i)) 1) (s.setF (F.DIS_QUAD_CTL_PARKED q) 1)
    (t.raise 0x0A09 q).trk 11 (16 * q) false none 0
  else s

/-- The thermal loop sets or clears the cool request of pipe p (R198, R351). -/
def State.coolSet (s : State) (p : Nat) (on_ : Bool) : State :=
  if on_ then (s.setF (F.DIS_PIPE_STATUS_COOL_REQ p) 1).coolTry p
  else
    let s := (s.setF (F.DIS_PIPE_STATUS_COOL_REQ p) 0).setF (F.DIS_PIPE_STATUS_COOLING p) 0
    { s with dis := { s.dis with coolSaid := s.dis.coolSaid.filter (· != p) } }.spareNaming.disUpdate.coolRetry

/-- DIS_CMD.UNRETIRE (R199). -/
def State.unretire (s : State) (p : Nat) : State :=
  if !s.on (F.DIS_PIPE_STATUS_RETIRED p) then s.refuse 0x0A
  else ((s.setF (F.DIS_PIPE_STATUS_RETIRED p) 0).setPipe p { s.pipe p with last := none }).spareNaming.disUpdate.coolRetry

/-- DIS_CTL takes the value `new` (R199, R206, R210, R213, R360). -/
def State.disWrite (s : State) (new : Word) : State :=
  let want := bitsOf new.toNat 0 0 == 1
  if bitsOf new.toNat 2 1 = 0 then s.refuse 0x0A
  else match s.fn fnDis, want with
  | .off, true =>
    if s.tooFewPipes || s.lbAddr % 4096 != 0 || !oneStack s.lbAddr 0x1401000 then s.refuse 0x0A
    else
      let t := (s.wr R.DIS_CTL new).setFn fnDis .starting
      let t := { t with dis := { t.dis with testing := !t.dis.tested, headerDue := true } }
      t.setSpare ((List.range 64).reverse.find? t.pipeAvail)
  | .off, false => s.wr R.DIS_CTL new
  | _, false =>
    let t := (s.wr R.DIS_CTL new).setFn fnDis .off
    let t := (List.range 64).foldl (fun t p => t.setPipe p { faults := (t.pipe p).faults }) t
    { t with dis := { t.dis with jobs := [], spare := none, lastPipe := [], testing := false, headerDue := false, keepAddr := none } }.disUpdate
  | _, true => s.wr R.DIS_CTL new

/-- R360: the pipe start test ends: the pipes that failed are retired; with fewer than two left, FAULT. -/
def State.pipeTestDone (s : State) (failed : List Nat) : State :=
  if !(s.fn fnDis == .starting && s.dis.testing) then s else
  let s := { s with dis := { s.dis with testing := false, tested := true } }
  let s := (failed.filter (· < 64)).foldl (fun s p =>
    (((s.setF (F.DIS_PIPE_STATUS_RETIRED p) 1).setF F.DIS_FLAGS_RETIRE 1).raise 0x0A05 p).trk 12 p false none 0) s
  if s.tooFewPipes then s.disUpdate.setFn fnDis .fault
  else
    let s := s.dropSpare.lagUpdate
    if s.ready (fnHbm (stackOf s.lbAddr)) then s.lbStart.setFn fnDis .ready else s

/-- Writes of DIS registers that have rules of their own. -/
def State.disReg (s : State) (a : Nat) (v : Word) : Option State :=
  if a = R.DIS_CTL then some (s.disWrite v)
  else if a = R.DIS_CMD then some (if bitsOf v.toNat 8 8 = 1 then s.unretire (bitsOf v.toNat 5 0) else s)
  else if a = R.DIS_TRK_CMD then some (if bitsOf v.toNat 0 0 = 1 then s.trackClear else s)
  else if R.DIS_QUAD_CTL 0 ≤ a ∧ a < R.DIS_QUAD_CTL 4 then some (s.quadWrite ((a - R.DIS_QUAD_CTL 0) / 4) v)
  else if R.DIS_CH_CTL 0 ≤ a ∧ a < R.DIS_CH_CTL 32 ∧ bitsOf v.toNat 2 0 = 0 then some (s.refuse 0x0A)
  else none

end Sys2Proof.Machine
end

