-- ==== Sys2Proof/Machine/Egs.lean ====
section
/-!
DEFINITION. Sys2Proof/Machine/Egs.lean: egress flows, scheduling and shaping (spec/11_egress.md): the flow table and its checks, building
packets, queues, the two tiers of a port, uncompressed outputs, queue sampling.
-/

namespace Sys2Proof.Machine

/-! ## Flow entries (R215-R217) -/

/-- Word w of egress flow entry f. -/
def State.egw (s : State) (f w : Nat) : Nat := Tab.get (fun _ => 0) s.egs.ft (32 * f + w)

/-- Set word w of egress flow entry f, modulo 2^32. -/
def State.setEgw (s : State) (f w v : Nat) : State :=
  { s with egs := { s.egs with ft := Tab.put (fun _ => 0) s.egs.ft (32 * f + w) (v % 2 ^ 32) } }

/-- The words of entry f. -/
def State.egWords (s : State) (f : Nat) : Nat → Nat := s.egw f

/-! Fields of an entry, from its words (R217). -/
def efEn (w : Nat → Nat) : Bool := w 0 % 2 == 1
def efType (w : Nat → Nat) : Nat := bitsOf (w 0) 3 1
def efCh (w : Nat → Nat) : Nat := bitsOf (w 0) 8 4
def efPortA (w : Nat → Nat) : Nat := bitsOf (w 0) 11 9
def efPortB (w : Nat → Nat) : Nat := bitsOf (w 0) 14 12
def efBEn (w : Nat → Nat) : Bool := bitsOf (w 0) 15 15 == 1
def efIpv6 (w : Nat → Nat) : Bool := bitsOf (w 0) 16 16 == 1
def efLinear (w : Nat → Nat) : Bool := bitsOf (w 0) 17 17 == 1
def efPt (w : Nat → Nat) : Nat := bitsOf (w 0) 30 24
def efMax (w : Nat → Nat) : Nat := bitsOf (w 4) 13 0
def efSeq0 (w : Nat → Nat) : Nat := bitsOf (w 4) 31 16
def efWeight (w : Nat → Nat) : Nat := bitsOf (w 5) 31 16
def efPir (w : Nat → Nat) : Nat := bitsOf (w 6) 19 0
def efPbs (w : Nat → Nat) : Nat := bitsOf (w 7) 23 0
def efQlim (w : Nat → Nat) : Nat := bitsOf (w 8) 23 0
def efTro (w : Nat → Nat) : Nat := w 10
def efWfq (w : Nat → Nat) : Bool := decide (efType w ≤ 2)

/-- The weight of R226. -/
def efWt (w : Nat → Nat) : Nat := if efWeight w = 0 then efPir w else efWeight w

/-- The enabled legs of an entry: (leg, port). -/
def efLegs (w : Nat → Nat) : List (Nat × Nat) := (0, efPortA w) :: (if efBEn w then [(1, efPortB w)] else [])

/-- VLAN of a leg. -/
def efVlan (w : Nat → Nat) (leg : Nat) : Nat := if leg = 0 then bitsOf (w 1) 11 0 else bitsOf (w 1) 23 12

/-- The flow entries that some word lists, rising. -/
def State.egsAll (s : State) : List Nat :=
  (s.egs.ft.filter (fun e => e.1 % 32 == 0)).map (fun e => e.1 / 32)

/-- The enabled flow entries. -/
def State.egsFlows (s : State) : List Nat := s.egsAll.filter (fun f => efEn (s.egWords f))

/-- Flow state f. -/
def State.eflow (s : State) (f : Nat) : EFlow := Tab.get (fun _ => ({} : EFlow)) s.egs.flows f

/-- Set flow state f. -/
def State.setEflow (s : State) (f : Nat) (x : EFlow) : State :=
  { s with egs := { s.egs with flows := Tab.put (fun _ => ({} : EFlow)) s.egs.flows f x } }

/-- Leg l of flow f. -/
def State.leg (s : State) (f l : Nat) : LegSt := Tab.get (fun _ => ({} : LegSt)) s.egs.legs (2 * f + l)

/-- Set leg l of flow f. -/
def State.setLeg (s : State) (f l : Nat) (x : LegSt) : State :=
  { s with egs := { s.egs with legs := Tab.put (fun _ => ({} : LegSt)) s.egs.legs (2 * f + l) x } }

/-- Egress port p. -/
def State.eport (s : State) (p : Nat) : EPort := Tab.get (fun _ => ({} : EPort)) s.egs.ports p

/-- Set egress port p. -/
def State.setEport (s : State) (p : Nat) (x : EPort) : State :=
  { s with egs := { s.egs with ports := Tab.put (fun _ => ({} : EPort)) s.egs.ports p x } }

/-- The MAC rate C of port p in Mb/s: 400,000 on one quad, 800,000 on two (R278). -/
def State.macRate (s : State) (p : Nat) : Nat :=
  if ((List.range 16).filter (fun q => s.on (F.LNE_QUAD_CTL_EN q) && s.f (F.LNE_QUAD_CTL_ROLE q) == 1 && s.f (F.LNE_QUAD_CTL_PORT q) == p)).length = 2
  then 800000 else 400000

/-! ## Lengths and rates (R226, R228-R231) -/

/-- Bytes of an Ethernet frame beyond its RTP payload: header, VLAN tag, IP, UDP, RTP, FCS. -/
def frameHdr (w : Nat → Nat) (leg : Nat) : Nat :=
  14 + (if efVlan w leg = 0 then 0 else 4) + (if efIpv6 w then 40 else 20) + 8 + 12 + 4

/-- Charged bytes of a packet beyond its payload (R226, R230). -/
def State.hdrOf (s : State) (w : Nat → Nat) (leg : Nat) : Nat :=
  frameHdr w leg + s.f (F.EGS_PORT_OVH_OVH (if leg = 0 then efPortA w else efPortB w))

/-- The sample group of R231: (bytes, pixels). -/
def pgroup (chroma depth : Nat) : Nat × Nat :=
  if chroma = 1 then (if depth = 0 then (4, 2) else if depth = 1 then (5, 2) else (6, 2))
  else (if depth = 0 then (3, 1) else if depth = 1 then (15, 4) else (9, 2))

/-- (pg bytes, pixels, pb, line bytes, ppl) of a TYPE 3 flow (R231). -/
def State.rowPack (s : State) (w : Nat → Nat) : Nat × Nat × Nat × Nat × Nat :=
  let c := efCh w
  let g := pgroup (s.f (F.ENC_CH_FORMAT_CHROMA c)) (s.f (F.ENC_CH_FORMAT_DEPTH c))
  let pb := (efMax w - 8) / g.1 * g.1
  let line := ceilDiv (s.f (F.ENC_CH_SIZE_W c)) g.2 * g.1
  (g.1, g.2, pb, line, ceilDiv line (max 1 pb))

/-- The audio transmit stream that names flow f. -/
def State.txsOf (s : State) (f : Nat) : Option Nat := (List.range 64).find? (fun t => s.rdn (R.AUD_TXS_FLOW t) % 65536 == f)

/-- Samples per packet and payload bytes of a transmit stream (R337). -/
def State.txsPack (s : State) (t : Nat) : Nat × Nat :=
  let n := if s.on (F.AUD_TXS_CTL_PT125 t) then 6 else 48
  (n, n * s.f (F.AUD_TXS_CTL_CHANS t) * (if s.on (F.AUD_TXS_CTL_L24 t) then 3 else 2))

/-- The largest RTP payload of a flow. -/
def State.maxPay (s : State) (f : Nat) (w : Nat → Nat) : Nat :=
  if efType w ≤ 1 then efMax w
  else if efType w = 2 then min (efMax w) 1316
  else if efType w = 3 then (let r := s.rowPack w; 8 + min r.2.2.1 r.2.2.2.1)
  else match s.txsOf f with | some t => (s.txsPack t).2 | none => 0

/-- The paced rate of a leg in Mb/s, rounded up (R228, R337); 0 for a WFQ leg. -/
def State.pacedMbps (s : State) (f : Nat) (w : Nat → Nat) (leg : Nat) : Nat :=
  let h := s.hdrOf w leg
  if efType w = 3 then
    let c := efCh w
    let r := s.rowPack w
    let bytes := s.f (F.ENC_CH_SIZE_H c) * (r.2.2.2.2 * (8 + h) + r.2.2.2.1)
    ceilDiv (bytes * 8 * (s.chanRate c).1) ((s.chanRate c).2 * 1000000)
  else if efType w = 4 then
    match s.txsOf f with
    | some t => ceilDiv (((s.txsPack t).2 + h) * 8 * (if s.on (F.AUD_TXS_CTL_PT125 t) then 8000 else 1000)) 1000000
    | none => 0
  else 0

/-- The entries to count for the ports: every enabled flow, with entry f replaced by words `w` where given. -/
def State.portEntries (s : State) (repl : Option (Nat × (Nat → Nat))) : List (Nat × (Nat → Nat)) :=
  let base := (s.egsFlows.filter (fun f => match repl with | some r => r.1 != f | none => true)).map (fun f => (f, s.egWords f))
  match repl with
  | some r => if efEn r.2 then base ++ [r] else base
  | none => base

/-- The legs of a port: (flow, words, leg). -/
def portLegs (es : List (Nat × (Nat → Nat))) (p : Nat) : List (Nat × (Nat → Nat) × Nat) :=
  es.flatMap (fun e => ((efLegs e.2).filter (fun l => l.2 == p)).map (fun l => (e.1, e.2, l.1)))

/-- R_p, the PIR sum and pbound_p of a port (R228). -/
def State.portSums (s : State) (es : List (Nat × (Nat → Nat))) (p : Nat) : Nat × Nat × Nat :=
  let ls := portLegs es p
  let lmax := fun (l : Nat × (Nat → Nat) × Nat) => s.maxPay l.1 l.2.1 + s.hdrOf l.2.1 l.2.2
  let paced := ls.filter (fun l => !efWfq l.2.1)
  let wfq := ls.filter (fun l => efWfq l.2.1)
  let rp := (paced.map (fun l => s.pacedMbps l.1 l.2.1 l.2.2)).sum
  (rp, (wfq.map (fun l => efPir l.2.1)).sum, ceilDiv (8000 * ((wfq.map lmax).foldl max 0 + (paced.map lmax).sum)) (s.macRate p))

/-- The largest D_f of a port, ns (R229). -/
def State.portDbound (s : State) (es : List (Nat × (Nat → Nat))) (p : Nat) : Nat :=
  let t := s.portSums es p
  let wfq := (portLegs es p).filter (fun l => efWfq l.2.1)
  let lmax := fun (l : Nat × (Nat → Nat) × Nat) => s.maxPay l.1 l.2.1 + s.hdrOf l.2.1 l.2.2
  let cw := max 1 (s.macRate p - t.1)
  let sum := (wfq.map lmax).sum
  let plain := wfq.all (fun l => efWeight l.2.1 == 0)
  let wAll := (wfq.map (fun l => efWt l.2.1)).sum
  (wfq.map (fun l =>
    (if plain then 8000 * lmax l / max 1 (efPir l.2.1) else 8000 * lmax l * wAll / (max 1 (efWt l.2.1) * cw))
      + 8000 * sum / cw + t.2.2)).foldl max 0

/-- What register `o` of port p, an offset within its registers, reads of R228 and R229; none where it is another register. -/
def State.portFigure (s : State) (p o : Nat) : Option Nat :=
  let es := s.portEntries none
  if o = 4 then some (s.portSums es p).1
  else if o = 8 then some (s.portSums es p).2.1
  else if o = 12 then some (s.portSums es p).2.2
  else if o = 16 then some (s.portDbound es p)
  else none

/-- span of R232 in fraction units, and npk. -/
def State.pacing (s : State) (w : Nat → Nat) : Nat × Nat :=
  let c := efCh w
  let u := (s.encUnit c).getD 0
  ((if efLinear w then (s.encLines c).getD 0 else s.f (F.ENC_CH_SIZE_H c)) * u, s.f (F.ENC_CH_SIZE_H c) * (s.rowPack w).2.2.2.2)

/-- R228 holds on every port, with the entries given: R_p and the PIRs fit, PBOUND is within the smallest TRS. -/
def State.portsOk (s : State) (es : List (Nat × (Nat → Nat))) (ps : List Nat) : Bool :=
  ps.all (fun p =>
    let x := s.portSums es p
    decide (x.1 + x.2.1 ≤ s.macRate p) &&
      ((portLegs es p).filter (fun l => efType l.2.1 == 3)).all (fun l =>
        let g := s.pacing l.2.1
        decide (x.2.2 * g.2 * (s.clk.num * s.clk.lm * 65536) ≤ g.1 * s.clk.den * 1000000000)))

/-- R232: TRO fits the frame, and no packet is due before its row is composed. -/
def State.troOk (s : State) (w : Nat → Nat) : Bool :=
  let c := efCh w
  let u := (s.encUnit c).getD 0
  let g := s.pacing w
  let ppl := (s.rowPack w).2.2.2.2
  decide (efTro w < (s.encLines c).getD 0 * u) &&
    (List.range (s.ctuN c)).all (fun r => decide (s.rowA c 0 r + 64 * u ≤ efTro w + 64 * r * ppl * g.1 / max 1 g.2))

/-- R232 at the enable, with the origin that a staged write has set for the flow's first frame. -/
def State.troOkNext (s : State) (w : Nat → Nat) : Bool := (s.flushHeld (R.MER_CH_ORIGIN (efCh w)) 4).troOk w

/-- R36, R232: every enabled TYPE 3 flow of channel c still meets the row check. -/
def State.originFlowsOk (s : State) (c : Nat) : Bool :=
  s.egsFlows.all (fun f => let w := s.egWords f; efType w != 3 || efCh w != c || s.troOk w)

/-- Decoded picture hash units a flow carries per picture, S_h (R220). -/
def State.hashUnits (s : State) (w : Nat → Nat) : Nat :=
  let c := efCh w
  if s.fs (F.ENC_CH_CTL_HASH c) = 0 then 0
  else if s.on (F.ENC_CH_CTL_CODEC c) then 1
  else (bitsOf (w 5) 9 5 + 1 - bitsOf (w 5) 4 0) * (bitsOf (w 5) 15 13 + 1 - bitsOf (w 5) 12 10)

/-- Slices of the flow's rectangle per picture. -/
def State.flowSlices (s : State) (w : Nat → Nat) : Nat :=
  let hs := s.rowH (efCh w)
  let a := bitsOf (w 5) 12 10
  let b := bitsOf (w 5) 15 13
  (bitsOf (w 5) 9 5 + 1 - bitsOf (w 5) 4 0) * ((hs.take (b + 1)).drop a).sum

/-- A flow with DONL (R221). -/
def State.hasDonl (s : State) (w : Nat → Nat) : Bool :=
  efType w == 1 && decide (1 < s.f (F.ENC_CH_LAYOUT_NCOL (efCh w)))

/-- PIR_MIN of R230, Mb/s. -/
def State.pirMin (s : State) (w : Nat → Nat) : Nat :=
  let c := efCh w
  let br := s.chanBr c
  let num := (s.chanRate c).1
  let den := max 1 (s.chanRate c).2
  let ns := s.flowSlices w
  let sh := s.hashUnits w
  let fu := if s.hasDonl w then 5 else 3
  ((efLegs w).map (fun l =>
    let h := s.hdrOf w l.1
    let t := if efType w = 2 then (br * (28 + h), 1288, 8 * (188 + h) * ns + 8 * (3 * 188 + 2 * h))
      else (br * (h + fu), max 1 (efMax w - fu), 8 * (h + fu) * ns + 8 * (4096 + 64 * sh + (8 + sh) * h))
    ceilDiv ((br * t.2.1 + t.1) * den + t.2.2 * num * t.2.1) (t.2.1 * den * 1000000))).foldl max 0

/-! ## The flow table (R216, R218, R465) -/

/-- The bits of word w that carry named fields (R217); words 10 hold TYPE 2 or TYPE 3 fields. -/
def egsFits (w : Nat → Nat) : Bool :=
  decide (w 0 < 2 ^ 31) && decide (w 1 < 2 ^ 27) && decide (bitsOf (w 4) 15 14 = 0) && decide (w 6 < 2 ^ 28) && decide (w 7 < 2 ^ 24)
    && decide (w 8 < 2 ^ 24) && (efType w == 3 || decide (bitsOf (w 10) 15 13 = 0 ∧ bitsOf (w 10) 31 29 = 0))
    && decide (w 11 < 2 ^ 16) && decide (w 13 < 2 ^ 16) && decide (w 15 < 2 ^ 16)

/-- The ranges of an enabled entry (R217). -/
def State.egsRanges (s : State) (f : Nat) (w : Nat → Nat) : Bool :=
  let ty := efType w
  let pt := efPt w
  let pid := fun (x : Nat) => decide (16 ≤ x) && decide (x ≤ 8190)
  let pmt := bitsOf (w 10) 12 0
  let vid := bitsOf (w 10) 28 16
  let ovh := (efLegs w).map (fun l => s.f (F.EGS_PORT_OVH_OVH l.2))
  decide (ty ≤ 4) && (!efBEn w || efPortA w != efPortB w) && ((decide (96 ≤ pt) && decide (pt ≤ 127)) || (ty == 2 && pt == 33))
    && decide (bitsOf (w 6) 27 20 ≠ 0)
    && (ty == 4 || (decide (256 ≤ efMax w) && decide (efMax w ≤ 8952) && decide (1 ≤ efPir w) && decide (efPir w ≤ 800000)
      && decide (efMax w + 112 + ovh.foldl max 0 ≤ efPbs w) && decide (16384 ≤ efQlim w)))
    && (ty != 2 || (pid pmt && pid vid && pmt != vid && decide (1 ≤ bitsOf (w 11) 15 0)))
    && decide (f < 65536)

/-- R218, R222, R231, R232: what an enable of a flow that is not TYPE 4 is checked for beyond its ranges. -/
def State.egsTypeOk (s : State) (w : Nat → Nat) : Bool :=
  let c := efCh w
  let hevc := s.on (F.ENC_CH_CTL_CODEC c)
  let ncol := s.f (F.ENC_CH_LAYOUT_NCOL c)
  let nrow := s.f (F.ENC_CH_LAYOUT_NROW c)
  let c0 := bitsOf (w 5) 4 0
  let c1 := bitsOf (w 5) 9 5
  let r0 := bitsOf (w 5) 12 10
  let r1 := bitsOf (w 5) 15 13
  if efType w = 3 then
    s.f (F.ENC_CH_FORMAT_CHROMA c) != 0 && decide ((s.rowPack w).1 ≤ efMax w - 8) && s.troOkNext w
  else
    decide (c0 ≤ c1) && decide (c1 < ncol) && decide (r0 ≤ r1) && decide (r1 < nrow)
      && (efType w == 2 || (efType w == 1) == hevc)
      && (efType w != 2 || (c0 == 0 && c1 + 1 == ncol && r0 == 0 && r1 + 1 == nrow && !(hevc && decide (1 < ncol)) && decide (1316 ≤ efMax w)))

/-- The rules for a change of the entry that an enabled flow may take: only EN, PIR, PBS, WEIGHT and QLIM (R216). -/
def enabledChangeOk (old new : Nat → Nat) : Bool :=
  (List.range 24).all (fun i =>
    let mask := fun (x : Nat) => if i = 0 then x / 2 else if i = 5 then x % 65536 else if i = 6 then x / 2 ^ 20 else if i = 7 ∨ i = 8 then 0 else x
    mask (old i) == mask (new i))

/-- Read entry f into the buffer (R216). -/
def State.egsRead (s : State) (f : Nat) : State := (List.range 32).foldl (fun t w => t.wrn (R.EGS_FT_DATA w) (s.egw f w)) s

/-- Is a write of an entry accepted (R216, R218, R228, R248, R465)? `recOk` is the record check of R248. -/
def State.egsWriteOk (s : State) (f : Nat) (w : Nat → Nat) (recOk : Bool) : Bool :=
  let old := s.egWords f
  egsFits w && efType w != 4 && efType old != 4
    && (!efEn old || enabledChangeOk old w)
    && (!efEn w || (s.egsRanges f w && s.on F.EGS_CTL_EN
      && (efEn old || (s.egsTypeOk w && recOk))
      && ((efEn old && efPir old == efPir w) || s.portsOk (s.portEntries (some (f, w))) ((efLegs w).map (fun l => l.2)))))

/-- PIR_MIN and its flag at an enable or a PIR change (R230). -/
def State.checkPir (s : State) (f : Nat) (w : Nat → Nat) : State :=
  let m := s.pirMin w
  let s := s.setEgw f 28 m
  if efPir w < m then (s.setF F.EGS_FLAGS_PIR_LOW 1).raise 0x0B05 (f % 65536) else s

/-- Copy words 0 to 23 into entry f. -/
def State.egsStore (s : State) (f : Nat) (w : Nat → Nat) : State := (List.range 24).foldl (fun t i => t.setEgw f i (w i)) s

/-- Tokens clipped to a new PBS (R216). -/
def State.clipTokens (s : State) (f : Nat) (w : Nat → Nat) : State :=
  [0, 1].foldl (fun t l => let x := t.leg f l; t.setLeg f l { x with tok := min x.tok (efPbs w * 8000) }) s

/-- EGS_FT_CMD with WRITE: the buffer becomes entry f (R216); a change of EN takes effect at the channel's next frame start
(R218). -/
def State.egsWrite (s : State) (f : Nat) (recOk : Bool) : State :=
  let w := fun i => s.rdn (R.EGS_FT_DATA i)
  let old := s.egWords f
  if !s.egsWriteOk f w recOk then s.refuse 0x0B
  else
    let x := s.eflow f
    let x := if efSeq0 w != efSeq0 old then { x with fresh := true } else x
    let x := if efEn old == efEn w then x else { x with pend := x.pend ++ [(s.clk.vpos, efEn w)] }
    let t := ((s.setEflow f x).egsStore f w).clipTokens f w
    if efEn w && efWfq w && (!efEn old || efPir old != efPir w) then t.checkPir f w else if efEn w && !efWfq w then t.setEgw f 28 0 else t

/-! ## Starting and stopping flows (R218) -/

/-- At frame start D of channel c, the EN writes stamped before it take effect on the flows of the channel. -/
def State.egsFlowApply (s : State) (f d : Nat) : State :=
  let x := s.eflow f
  let due := x.pend.filter (fun p => decide (p.1 < d))
  match due.getLast? with
  | none => s
  | some e =>
    let x := { x with pend := x.pend.filter (fun p => decide (¬ p.1 < d)) }
    let w := s.egWords f
    if e.2 == x.on then s.setEflow f x
    else if e.2 then
      let fresh := x.fresh
      let x := { x with on := true, runs := (d, none) :: x.runs.take 1, waiting := efWfq w, firstV := d, fresh := false,
                        don := if fresh then 0 else x.don, paced := none, curV := none }
      let s := if fresh then s.setEgw f 27 (efSeq0 w) else s
      let s := [0, 1].foldl (fun t l => t.setLeg f l { t.leg f l with tok := efPbs w * 8000, tLast := t.clk.stc, pir := efPir w }) s
      let s := s.setEflow f x
      if efWfq w then s else s.raise 0x0B03 (f % 65536)
    else
      let runs := match x.runs with | (a, none) :: r => (a, some d) :: r | r => r
      (s.setEflow f { x with on := false, runs := runs }).raise 0x0B04 (f % 65536)

/-- Every flow of channel c at its frame start D. -/
def State.egsApply (s : State) (c d : Nat) : State :=
  (s.egsAll.filter (fun f => efCh (s.egWords f) == c && efType (s.egWords f) != 4)).foldl (fun t f => t.egsFlowApply f d) s

/-- Does a flow carry the picture that starts at `v` (R218)? -/
def EFlow.carries (x : EFlow) (v : Nat) : Bool :=
  !x.waiting && decide (x.firstV ≤ v)
    && x.runs.any (fun r => decide (r.1 ≤ v) && (match r.2 with | some e => decide (v < e) | none => true))

/-- A picture with parameter sets starts: the waiting flows of its channel start with it (R218). -/
def State.egsPicture (s : State) (n v : Nat) (ps : Bool) : State :=
  if !ps then s else
  (s.egsAll.filter (fun f => efCh (s.egWords f) == n && efWfq (s.egWords f))).foldl (fun t f =>
    let x := t.eflow f
    if x.on && x.waiting then (t.setEflow f { x with waiting := false, firstV := v }).raise 0x0B03 (f % 65536) else t) s

/-! ## Building coded packets (R219-R222) -/

/-- The RTP timestamp of picture k (R219). -/
def State.rtpTs (s : State) (w : Nat → Nat) (k : Nat) : Nat :=
  let c := efCh w
  (k * 90000 * (s.chanRate c).2 / max 1 (s.chanRate c).1 + w 9) % 2 ^ 32

/-- Cut a list into pieces of `n`; the first of `n0`. -/
def chunks (n : Nat) : Nat → List Nat → List (List Nat)
  | 0, _ => []
  | fuel + 1, l => if l.length ≤ n then [l] else l.take n :: chunks n fuel (l.drop n)

/-- The payloads of a NAL unit (R220): whole, or fragments that each but the last fill MAX_PAYLOAD. A fragment has a 2-byte
payload header and a 1-byte FU header in place of the unit's 2-byte header; DONL takes 2 bytes. -/
def nalPayloads (mp : Nat) (donl : Option Nat) (u : List Nat) : List (Nat × Payload) :=
  let d := if donl.isSome then 2 else 0
  if u.length + d ≤ mp then [(u.length + d, .nal donl u)]
  else
    let body := u.drop 2
    let c0 := body.take (mp - 3 - d)
    let rest := chunks (mp - 3) body.length (body.drop (mp - 3 - d))
    (3 + d + c0.length, .fu donl true false c0) ::
      rest.zipIdx.map (fun e => (3 + e.1.length, .fu none false (e.2 + 1 == rest.length) e.1))

/-- The decoding-order index of slice (r, col) in HEVC (R135). -/
def State.decOrder (s : State) (n r col : Nat) : Nat :=
  let b := bandOf (s.rowH n) 0 0 r
  s.f (F.ENC_CH_LAYOUT_NCOL n) * b.2.1 + col * b.2.2 + (r - b.2.1)

/-- Is slice (r, col) of channel n in the flow's rectangle? -/
def State.inRect (s : State) (w : Nat → Nat) (r col : Nat) : Bool :=
  let b := (bandOf (s.rowH (efCh w)) 0 0 r).1
  decide (bitsOf (w 5) 4 0 ≤ col) && decide (col ≤ bitsOf (w 5) 9 5) && decide (bitsOf (w 5) 12 10 ≤ b) && decide (b ≤ bitsOf (w 5) 15 13)

/-- The slice number of the last slice a flow carries of a picture. -/
def State.lastCarried (s : State) (w : Nat → Nat) : Nat :=
  let hs := s.rowH (efCh w)
  ((hs.take (bitsOf (w 5) 15 13 + 1)).sum - 1) * s.f (F.ENC_CH_LAYOUT_NCOL (efCh w)) + bitsOf (w 5) 9 5

/-- The NAL units that a flow carries with a slice, each with its DON offset kind: (unit, DON). `first` says that it is the
flow's first slice of the picture. -/
def State.flowUnits (s : State) (x : EFlow) (u : SliceUnits) (pre : List (List Nat)) (first carried : Bool) :
    List (List Nat × Nat) :=
  let n := u.ch
  let all := s.f (F.ENC_CH_LAYOUT_NCOL n) * s.ctuN n
  let eos := match u.eos139 with
    | some e => if first && x.firstV != u.startV then [(e, x.prevB + 8 + all + x.prevSuf)] else []
    | none => []
  let pf := if first then pre.zipIdx.map (fun e => (e.1, x.curB + e.2)) else []
  let sl := if carried then [(u.data, x.curB + 8 + s.decOrder n u.row u.col)] else []
  let hs := match u.hash with | some h => if carried then [h] else [] | none => []
  let sf := (hs ++ u.suf).zipIdx.map (fun e => (e.1, x.curB + 8 + all + e.2))
  (eos ++ pf ++ sl ++ sf).map (fun e => (e.1, e.2 % 65536))

/-- A packet of a flow from its payload. -/
def mkPacket (f : Nat) (w : Nat → Nat) (seq ts : Nat) (p : Nat × Payload) (marker : Bool) : Packet :=
  { flow := f, seq := seq % 2 ^ 32, ts := ts, marker := marker, pt := efPt w, ssrc := w 3, size := p.1, body := p.2 }

/-- Number the payloads of a flow from its next sequence number; the marker goes on the last where `mark` (R219). -/
def State.numberPackets (s : State) (f k : Nat) (ps : List (Nat × Payload)) (mark : Bool) : State × List Packet :=
  let w := s.egWords f
  let q := s.egw f 27
  let ts := s.rtpTs w k
  (s.setEgw f 27 (q + ps.length), ps.zipIdx.map (fun e => mkPacket f w (q + e.2) ts e.1 (mark && e.2 + 1 == ps.length)))

/-! ## TS (R222) -/

/-- PCR of a slice released at position `rel`: base mod 2^33 and extension. -/
def State.pcrOf (s : State) (rel : Nat) : Nat × Nat :=
  let v := ((rel : Int) + s.clk.frameOfs * (s.clk.fu : Int)).toNat
  let pcr := v * s.clk.den * 27000000 / (s.clk.num * s.clk.lm * 65536)
  (pcr / 300 % 2 ^ 33, pcr % 300)

/-- PTS of picture k (R222). -/
def State.ptsOf (s : State) (c k : Nat) : Nat :=
  let nm := s.clk.num * s.clk.lm * 65536
  let d := s.originOf (R.MER_CH_ORIGIN c) + s.f (F.ENC_CH_SIZE_H c) * (s.encUnit c).getD 0 + 2 * s.f (F.ENC_CH_RC_LAT_LAT c) * 65536
  (k * 90000 * (s.chanRate c).2 / max 1 (s.chanRate c).1 + (d * s.clk.den * 90000 + nm - 1) / nm) % 2 ^ 33

/-- The TS packets of a slice's bytes: the first with the PCR (8 bytes of adaptation field) and, where a PES packet starts, its
14-byte header; the last filled out by stuffing. -/
def tsSlice (pid cc : Nat) (pts : Option Nat) (pcr : Nat × Nat) (data : List Nat) : List TsPkt :=
  let room := 184 - 8 - (if pts.isSome then 14 else 0)
  let d0 := data.take room
  let rest := if data.length ≤ room then [] else chunks 184 data.length (data.drop room)
  { pid := pid, cc := cc % 16, start := pts.isSome, stuff := room - d0.length, body := .pes pts (some pcr) d0 } ::
    rest.zipIdx.map (fun e =>
      { pid := pid, cc := (cc + 1 + e.2) % 16, start := false, stuff := 184 - e.1.length, body := .pes none none e.1 })

/-- Cut TS packets into groups of seven. -/
def groups7 : Nat → List TsPkt → List (List TsPkt)
  | 0, _ => []
  | fuel + 1, l => if l.length ≤ 7 then [l] else l.take 7 :: groups7 fuel (l.drop 7)

/-- The payloads of a TYPE 2 flow for a slice (R222), and its new continuity counters. -/
def State.tsPayloads (s : State) (w : Nat → Nat) (x : EFlow) (u : SliceUnits) (units : List (List Nat)) (first : Bool) :
    EFlow × List (Nat × Payload) :=
  let pmt := bitsOf (w 10) 12 0
  let vid := bitsOf (w 10) 28 16
  let prog := bitsOf (w 11) 15 0
  let psi := first && u.ps
  let tables : List (Nat × Payload) := if psi then
      [(376, .ts [{ pid := 0, cc := x.ccPat % 16, start := true, stuff := 0, body := .pat prog pmt },
                  { pid := pmt, cc := x.ccPmt % 16, start := true, stuff := 0,
                    body := .pmt prog vid (if s.on (F.ENC_CH_CTL_CODEC u.ch) then 0x24 else 0x33) }])]
    else []
  let bytes := units.flatMap (fun b => [0, 0, 0, 1] ++ b)
  let pk := tsSlice vid x.ccVid (if first then some (s.ptsOf u.ch u.k) else none) (s.pcrOf u.rel) bytes
  let x := { x with ccVid := (x.ccVid + pk.length) % 16, ccPat := if psi then (x.ccPat + 1) % 16 else x.ccPat,
                    ccPmt := if psi then (x.ccPmt + 1) % 16 else x.ccPmt }
  (x, tables ++ (groups7 pk.length pk).map (fun g => (188 * g.length, .ts g)))

/-! ## Queues (R223, R224) -/

/-- Count a discard of a flow (R224). -/
def State.dropPacket (s : State) (f : Nat) (port : Nat) (down : Bool) : State :=
  let s := s.setEgw f 26 (s.egw f 26 + 1)
  let s := if down then (s.setF F.EGS_FLAGS_DOWN 1).bump (R.EGS_PORT_DOWN_CNT port) else s.setF F.EGS_FLAGS_DROP 1
  let x := s.eflow f
  let fr := s.clk.vpos / s.clk.fu
  if x.dropFrame = some fr then s else (s.setEflow f { x with dropFrame := some fr }).raise 0x0B02 (f % 65536)

/-- a before b in 64-bit serial-number arithmetic (R226). -/
def serialBefore (a b : Nat) : Bool := let d := (b + 2 ^ 64 - a % 2 ^ 64) % 2 ^ 64; decide (1 ≤ d) && decide (d < 2 ^ 63)

/-- The later of two 64-bit tags (R226). -/
def serialMax (a b : Nat) : Nat := if serialBefore a b then b else a

/-- Tokens of a leg at STC time t (R227). -/
def LegSt.refill (x : LegSt) (pir pbs t : Nat) : LegSt :=
  { x with tok := min (pbs * 8000) (x.tok + (t - x.tLast) * pir), tLast := max t x.tLast }

/-- The head packet of a leg takes its finish tag (R226), and its tokens count at the peak rate now in force (R216). -/
def State.tagHead (s : State) (f l port : Nat) : State :=
  let x := s.leg f l
  match x.queue with
  | [] => s
  | e :: _ =>
    let w := s.egWords f
    let start := serialMax (s.eport port).v x.finPrev
    let fin := (start + ((e.len + s.f (F.EGS_PORT_OVH_OVH port)) * 65536 + efWt w - 1) / max 1 (efWt w)) % 2 ^ 64
    s.setLeg f l { x.refill x.pir (efPbs w) s.clk.stc with fin := fin, pir := efPir w }

/-- Charged bytes of a leg's queue. -/
def LegSt.depth (x : LegSt) (ovh : Nat) : Nat := (x.queue.map (fun e => e.len + ovh)).sum

/-- A packet joins the queue of one leg, or is discarded (R223, R224). -/
def State.enqueueLeg (s : State) (f l port : Nat) (p : Packet) (lat : Option (Nat × Nat)) : State :=
  let w := s.egWords f
  let ovh := s.f (F.EGS_PORT_OVH_OVH port)
  let len := p.size + frameHdr w l
  let x := s.leg f l
  if !s.ready (fnEgs port) then s.dropPacket f port true
  else if efQlim w < x.depth ovh + len + ovh then s.dropPacket f port false
  else
    let t := s.setLeg f l { x with queue := x.queue ++ [{ len := len, enq := s.clk.stc, enqV := s.clk.vpos, pkt := p, lat := lat }] }
    if x.queue = [] then t.tagHead f l port else t

/-- Packets join every enabled leg, in ascending sequence number (R223); `lat` marks the first of them on leg A. -/
def State.enqueue (s : State) (f : Nat) (ps : List Packet) (lat : Option (Nat × Nat)) : State :=
  (efLegs (s.egWords f)).foldl (fun t l =>
    ps.zipIdx.foldl (fun t p => t.enqueueLeg f l.1 l.2 p.1 (if p.2 = 0 ∧ l.1 = 0 then lat else none)) t) s

/-- Port p leaves READY: what its legs hold is discarded (R224). -/
def State.portDown (s : State) (p : Nat) : State :=
  let ls := portLegs (s.egsAll.map (fun f => (f, s.egWords f))) p
  let t := ls.foldl (fun t l =>
    let x := t.leg l.1 l.2.2
    let t := x.queue.foldl (fun t _ => t.dropPacket l.1 p true) t
    t.setLeg l.1 l.2.2 { x with queue := [] }) s
  let q := t.eport p
  let t := q.due.foldl (fun t e => t.dropPacket e.pkt.flow p true) t
  t.setEport p { q with due := [] }

/-- EGS_CTL takes the value `new` (R465). -/
def State.egsCtl (s : State) (new : Word) : State :=
  let want := bitsOf new.toNat 0 0 == 1
  if !want && s.egsFlows != [] then s.refuse 0x0B
  else
    let t := s.wr R.EGS_CTL new
    if want == s.on F.EGS_CTL_EN then t
    else (List.range 8).foldl (fun t p =>
      if want then (if t.fn (fnEgs p) == .off then t.setFn (fnEgs p) .starting else t) else (t.portDown p).setFn (fnEgs p) .off) t

/-! ## The scheduler (R225-R227, R397) -/

/-- Refill every WFQ leg of a port. -/
def State.refillPort (s : State) (p : Nat) : State :=
  (portLegs (s.egsAll.map (fun f => (f, s.egWords f))) p).foldl (fun t l =>
    if efWfq l.2.1 then t.setLeg l.1 l.2.2 ((t.leg l.1 l.2.2).refill (t.leg l.1 l.2.2).pir (efPbs l.2.1) t.clk.stc) else t) s

/-- Tokens the head packet needs (R227). -/
def State.needOf (s : State) (p : Nat) (e : QEnt) : Nat := (e.len + s.f (F.EGS_PORT_OVH_OVH p)) * 8000

/-- The WFQ legs of a port that hold a packet: (flow, leg, the peak rate its tokens count at), rising. -/
def State.wfqLegs (s : State) (p : Nat) : List (Nat × Nat × Nat) :=
  ((portLegs (s.egsAll.map (fun f => (f, s.egWords f))) p).filter (fun l => efWfq l.2.1 && (s.leg l.1 l.2.2).queue != [])).map
    (fun l => (l.1, l.2.2, (s.leg l.1 l.2.2).pir))

/-- Is the head of a leg eligible now (R227)? -/
def State.eligible (s : State) (p f l : Nat) : Bool :=
  match (s.leg f l).queue with | e :: _ => decide (s.needOf p e ≤ (s.leg f l).tok) | [] => false

/-- The leg that R226 selects. -/
def State.selectLeg (s : State) (p : Nat) : Option (Nat × Nat) :=
  ((s.wfqLegs p).filter (fun l => s.eligible p l.1 l.2.1)).foldl (fun o l =>
    match o with
    | none => some (l.1, l.2.1)
    | some b => if serialBefore (s.leg l.1 l.2.1).fin (s.leg b.1 b.2).fin then some (l.1, l.2.1) else o) none

/-- Bytes of entry or register words, byte 0 in bits [7:0] (R217, R283). -/
def netBytes (n : Nat) (ws : List Nat) : List Nat := (ws.flatMap (fun w => (List.range 4).map (fun i => w / 256 ^ i % 256))).take n

/-- Is an address a multicast one, or of link-local scope? -/
def netMulti (v6 : Bool) (a : List Nat) : Bool := if v6 then a.headD 0 == 255 else a.headD 0 / 16 == 14
def netLocal (a : List Nat) : Bool := (a.headD 0 == 254 && a.getD 1 0 / 64 == 2) || (a.headD 0 == 255 && a.getD 1 0 % 16 == 2)

/-- The destination MAC: of the entry, or for a multicast address by the standard mapping (R217). -/
def netDmac (v6 : Bool) (dst mac : List Nat) : List Nat :=
  if !netMulti v6 dst then mac
  else if v6 then [0x33, 0x33] ++ dst.drop 12
  else [0x01, 0x00, 0x5E, dst.getD 1 0 % 128, dst.getD 2 0, dst.getD 3 0]

/-- The headers of a packet of entry `w` on a leg and its port (R217, R219); an IPv6 source is the link-local address towards a link-local destination
(assumption 96). -/
def State.netHdr (s : State) (w : Nat → Nat) (leg p : Nat) : NetHdr :=
  let v6 := efIpv6 w
  let dst := netBytes (if v6 then 16 else 4) ((List.range 4).map (fun i => w ((if leg = 0 then 16 else 20) + i)))
  let mac := netBytes 6 [w (if leg = 0 then 12 else 14), w (if leg = 0 then 13 else 15)]
  let reg := fun (r : Nat → Nat) => netBytes 16 ((List.range 4).map (fun i => s.rdn (r i)))
  { dmac := netDmac v6 dst mac, smac := netBytes 6 [s.rdn (R.ETH_PORT_MAC_LO p), s.rdn (R.ETH_PORT_MAC_HI p)],
    tag := if efVlan w leg = 0 then none else some (efVlan w leg, bitsOf (w 1) 26 24), v6 := v6,
    src := if !v6 then netBytes 4 [s.rdn (R.ETH_PORT_IPV4 p)] else if netLocal dst then reg (R.ETH_PORT_IPV6_LL p) else reg (R.ETH_PORT_IPV6_GL p),
    dst := dst, dscp := bitsOf (w 0) 23 18, ttl := bitsOf (w 6) 27 20, sport := bitsOf (w 2) 31 16, dport := bitsOf (w 2) 15 0,
    ident := 0, df := !v6, sum := v6 }

/-- A frame starts on a port: it goes out unless the module is muted (R397), is counted on its leg and its port, and occupies
the port for its charged length. -/
def State.transmit (s : State) (p leg len : Nat) (k : Packet) : State :=
  let muted := s.on F.BIN_STATUS_MUTED
  let ns := ceilDiv ((len + s.f (F.EGS_PORT_OVH_OVH p)) * 8000) (s.macRate p)
  let x := s.eport p
  let s := s.setEport p { x with busy := s.clk.ns + ns }
  if muted then s
  else
    let s := (s.setEgw k.flow (24 + leg) (s.egw k.flow (24 + leg) + 1)).bump (R.EGS_PORT_TX_CNT p)
    (s.bump (R.ETH_PORT_TX_FRAME_CNT p)).emit (.packet p leg (s.netHdr (s.egWords k.flow) leg p) k)

/-- The earliest due paced packet of a port: the lower flow index at equal times (R225). -/
def bestDue (l : List PacedEnt) : Option PacedEnt :=
  l.foldl (fun o e => match o with
    | none => some e
    | some b => if e.due < b.due ∨ (e.due = b.due ∧ e.pkt.flow < b.pkt.flow) then some e else o) none

/-- A responder frame starts on a port that has no media frame to send: the WFQ tier's lowest priority (R285); a muted port sends none
(R397). -/
def State.respPick (s : State) (p : Nat) : State :=
  let q := s.eport p
  if !s.ready (fnEth p) || decide (s.clk.ns < q.busy) then s
  else
    match q.resp with
    | [] => s
    | (len, r) :: rest =>
      let ns := ceilDiv ((len + s.f (F.EGS_PORT_OVH_OVH p)) * 8000) (s.macRate p)
      let s := s.setEport p { q with busy := s.clk.ns + ns, resp := rest }
      if s.on F.BIN_STATUS_MUTED then s
      else ((s.bump (R.ETH_PORT_TX_FRAME_CNT p)).bump (R.ETH_PORT_RESP_CNT p)).emit (.responder p r)

/-- A free port takes its next packet, if any may go (R225). -/
def State.portPick (s : State) (p : Nat) : State :=
  if s.clk.ns < (s.eport p).busy then s
  else if !s.ready (fnEgs p) then s.respPick p
  else
    let q := s.eport p
    match bestDue q.due with
    | some e => (s.setEport p { q with due := q.due.erase e }).transmit p e.leg e.len e.pkt
    | none =>
      let s := s.refillPort p
      match s.selectLeg p with
      | none => s.respPick p
      | some (f, l) =>
        let x := s.leg f l
        match x.queue with
        | [] => s
        | e :: r =>
          let s := s.setEport p { s.eport p with v := x.fin }
          let gone := if x.goneV = s.clk.vpos then x.gone else []
          let s := s.setLeg f l { x with queue := r, gone := gone ++ [e], goneV := s.clk.vpos, tok := x.tok - s.needOf p e, finPrev := x.fin }
          let s := match e.lat with
            | some (c, a) => if s.on F.BIN_STATUS_MUTED then s else s.probe 3 (fun i => i == c) (s.clk.nsOf (s.clk.vpos - a))
            | none => s
          (s.tagHead f l p).transmit p l e.len e.pkt

/-- Every idle port may start a packet that has just joined a queue. -/
def State.pickAll (s : State) : State := (List.range 8).foldl State.portPick s

/-- PORT_FREE: the frame in transmission ends and the port takes its next packet (R225). -/
def State.portFree (s : State) (p : Nat) : State :=
  if s.clk.ns < (s.eport p).busy then (s.toNs (s.eport p).busy).portPick p else s.portPick p

/-- SHAPER_ELIGIBLE: on an idle port with no paced packet due, time runs on until the first head packet is eligible, and the
port starts it (R227). -/
def State.shaperEligible (s : State) (p : Nat) : State :=
  if !s.ready (fnEgs p) || decide (s.clk.ns < (s.eport p).busy) || (s.eport p).due != [] then s
  else
    let s := s.refillPort p
    let waits := (s.wfqLegs p).filterMap (fun l =>
      match (s.leg l.1 l.2.1).queue with
      | e :: _ => if s.needOf p e ≤ efPbs (s.egWords l.1) * 8000 then some (ceilDiv (s.needOf p e - (s.leg l.1 l.2.1).tok) (max 1 l.2.2)) else none
      | [] => none)
    match waits with
    | [] => s
    | a :: r => (s.toStc (s.clk.stc + r.foldl min a)).portPick p

/-! ## Slices into flows (R220, R223) -/

/-- Does the picture of channel c that starts at `v` end with units that every flow carries (R146, R219)? -/
def State.pictureSuffix (s : State) (c v : Nat) : Bool :=
  match (s.encCh c).pics.find? (fun (p : PicSt) => p.startV == v) with
  | some p => p.last || (s.on (F.ENC_CH_CTL_CODEC c) && bitsOf (p.w 0) 7 7 == 1)
  | none => false

/-- A released slice as flow f carries it: the flow's numbers move on and its packets are built; none where it carries nothing. -/
def State.flowSlice (s : State) (f : Nat) (u : SliceUnits) : State × List Packet :=
  let w := s.egWords f
  let x := s.eflow f
  if !x.carries u.startV || efCh w != u.ch || !efWfq w then (s, [])
  else
    let carried := s.inRect w u.row u.col
    let first := x.curV != some u.startV
    if !carried && (first || u.suf == []) then (s, [])
    else
      let all := s.f (F.ENC_CH_LAYOUT_NCOL u.ch) * s.ctuN u.ch
      let x := if first then { x with curV := some u.startV, prevB := x.curB, curB := x.don, don := (x.don + all + 10) % 65536 } else x
      let units := s.flowUnits x u u.pre first carried
      let x := { x with prevSuf := if u.last then u.suf.length + (if u.hash.isSome then 1 else 0) else x.prevSuf }
      let donl := s.hasDonl w
      let r : EFlow × List (Nat × Payload) :=
        if efType w = 2 then s.tsPayloads w x u (units.map (fun e => e.1)) first
        else (x, units.flatMap (fun e => nalPayloads (efMax w) (if donl then some e.2 else none) e.1))
      let mark := u.last || (u.suf == [] && s.lastCarried w == u.slice && !s.pictureSuffix u.ch u.startV)
      (s.setEflow f r.1).numberPackets f u.k r.2 mark

/-- A released slice: the packets of every flow that carries it are built and numbered (R223). -/
def State.slicePackets (s : State) (u : SliceUnits) : State × List (Nat × List Packet) :=
  (s.egsAll.filter (fun f => efCh (s.egWords f) == u.ch && efWfq (s.egWords f))).foldl (fun t f =>
    let r := t.1.flowSlice f u
    (r.1, if r.2 = [] then t.2 else t.2 ++ [(f, r.2)])) (s, [])

/-- Packets of a slice go to the queues of their flows (R223), and idle ports start; the lowest flow's first packet on leg A is the one
that probe 3 measures from A_r on (R430). -/
def State.queueSlice (s : State) (u : SliceUnits) (ps : List (Nat × List Packet)) : State :=
  let lat := some (u.ch, u.rel - s.f (F.ENC_CH_RC_LAT_LAT u.ch) * 65536)
  (ps.zipIdx.foldl (fun t e => t.enqueue e.1.1 e.1.2 (if e.2 = 0 then lat else none)) s).pickAll

/-! ## Uncompressed outputs (R231, R232) -/

/-- The samples of packet j of a TYPE 3 picture, from the composed rows: for 4:2:2 Cb, Y, Cr, Y of each pair; for 4:4:4 Cb, Y, Cr. -/
def rowSamples (r : RowPix) (chroma y x0 n : Nat) : List Nat :=
  let ly := r.y.getD y []
  let lb := r.cb.getD y []
  let lr := r.cr.getD y []
  if chroma = 1 then (List.range (n / 2)).flatMap (fun i =>
    let x := x0 + 2 * i
    [lb.getD (x / 2) 0, ly.getD x 0, lr.getD (x / 2) 0, ly.getD (x + 1) 0])
  else (List.range n).flatMap (fun i => [lb.getD (x0 + i) 0, ly.getD (x0 + i) 0, lr.getD (x0 + i) 0])

/-- Packet j of a TYPE 3 flow's picture that starts at `v`: (bytes of payload, payload). Its rows are those of the composed picture, or of the one before
where the next is already being composed (R302 keeps two). -/
def State.pacedPayload (s : State) (w : Nat → Nat) (v j : Nat) : Nat × Payload :=
  let c := efCh w
  let r := s.rowPack w
  let ppl := max 1 r.2.2.2.2
  let y := j / ppl
  let i := j % ppl
  let bytes := min r.2.2.1 (r.2.2.2.1 - i * r.2.2.1)
  let px := r.2.2.1 / max 1 r.1 * r.2.1
  let n := min px (s.f (F.ENC_CH_SIZE_W c) - i * px)
  let row := s.composedRow c v (y / 64)
  (8 + bytes, .row y (i * px) (rowSamples row (s.f (F.ENC_CH_FORMAT_CHROMA c)) (y % 64) (i * px) n))

/-- The departure position of packet j of the picture that starts at S (R232). -/
def State.pacedAt (s : State) (w : Nat → Nat) (sv j : Nat) : Nat :=
  let g := s.pacing w
  sv + efTro w + j * g.1 / max 1 g.2

/-- The first picture start at or after `v` among the output pictures of channel c that the module keeps, the one being composed and the one before (R302). -/
def State.pictureFrom (s : State) (c v : Nat) : Option Nat :=
  let x := s.cmp c
  ((if x.prevRows = [] then [] else [x.prevV]) ++ (if x.rows = [] then [] else [x.rowsV])).find? (fun a => decide (v ≤ a))

/-- The next packet of a TYPE 3 flow: (picture start, k, j, departure). The first is packet 0 of the first picture the flow
carries; while the channel is OFF there is no picture (R218). -/
def State.pacedNext (s : State) (f : Nat) : Option (Nat × Nat × Nat × Nat) :=
  let w := s.egWords f
  let c := efCh w
  let x := s.eflow f
  let fresh := fun (v : Nat) => (s.pictureFrom c v).map (fun a => (a, s.chanIdx c a, 0))
  let cand : Option (Nat × Nat × Nat) := match x.paced with
    | some (v, k, j) => if j < (s.pacing w).2 then some (v, k, j) else fresh (v + 1)
    | none => match x.runs with
      | (a, _) :: _ => fresh a
      | [] => none
  match cand with
  | some (v, k, j) => if x.carries v then some (v, k, j, s.pacedAt w v j) else none
  | none => none

/-- A paced packet is built at its departure and offered to the ports of its legs, or discarded where a port is not READY
(R224, R232). -/
def State.offerPaced (s : State) (p : Packet) (due : Nat) : State :=
  let f := p.flow
  let w := s.egWords f
  (efLegs w).foldl (fun t l =>
    if !t.ready (fnEgs l.2) then t.dropPacket f l.2 true
    else
      let q := t.eport l.2
      (t.setEport l.2 { q with due := q.due ++ [{ due := due, leg := l.1, pkt := p, len := p.size + frameHdr w l.1 }] }).portPick l.2) s

/-- PACED_DEPARTURE: the next packet of TYPE 3 flow f at its departure time (R232). -/
def State.pacedDeparture (s : State) (f : Nat) : State :=
  if efType (s.egWords f) != 3 then s else
  match s.pacedNext f with
  | none => s
  | some (v, k, j, at_) =>
    match s.toPos 8 at_ with
    | none => s
    | some s =>
      let w := s.egWords f
      let pl := s.pacedPayload w v j
      let s := s.setEflow f { s.eflow f with paced := some (v, k, j + 1) }
      let n := s.numberPackets f k [pl] (j + 1 == (s.pacing w).2)
      n.2.foldl (fun t p => t.offerPaced p at_) n.1

/-! ## Queue sampling (R233) -/

/-- The entries of a leg as of strictly before position v. -/
def LegSt.before (x : LegSt) (v : Nat) : List QEnt :=
  ((if x.goneV = v then x.gone else []) ++ x.queue).filter (fun e => decide (e.enqV < v))

/-- Depth in charged bytes and delay in ns of a list of queued packets. -/
def queueSample (l : List QEnt) (ovh now : Nat) : Nat × Nat :=
  ((l.map (fun e => e.len + ovh)).sum, (l.map (fun e => now - e.enq)).foldl max 0)

/-- The sample of one flow leg (R233). -/
def State.legSample (s : State) (f l : Nat) : Nat × Nat :=
  let w := s.egWords f
  queueSample ((s.leg f l).before s.clk.vpos) (s.f (F.EGS_PORT_OVH_OVH (if l = 0 then efPortA w else efPortB w))) s.clk.stc

/-- The sample of port p's WFQ tier (R233). -/
def State.portSample (s : State) (p : Nat) : Nat × Nat :=
  let ls := portLegs (s.egsAll.map (fun f => (f, s.egWords f))) p
  let es := ls.flatMap (fun l => if efWfq l.2.1 then (s.leg l.1 l.2.2).before s.clk.vpos else [])
  queueSample es (s.f (F.EGS_PORT_OVH_OVH p)) s.clk.stc

/-- The sampling positions of the frame that starts at `d`: lines l with (l − PHASE) mod INTERVAL = 0, by the word in force there (R233). -/
def State.samplesIn (s : State) (d : Nat) : List Nat :=
  let w := s.wordAt R.EGS_SAMPLE d
  let iv := max 1 (bitsOf w 12 0)
  ((List.range (s.clk.lm / iv + 1)).map (fun i => bitsOf w 28 16 + i * iv)).filterMap (fun l => if l < s.clk.lm then some (d + l * 65536) else none)

/-- The next sampling position, in the present Meridian frame or the next (R233). -/
def State.nextSample (s : State) : Nat :=
  let d := s.clk.vpos / s.clk.fu * s.clk.fu
  match (s.samplesIn d).find? (fun t => s.clk.classOk 10 t || decide (s.clk.vpos < t)) with
  | some t => t
  | none => (s.samplesIn (d + s.clk.fu)).headD (d + s.clk.fu)

/-- Samples of probes 1 and 2 (R430): the queues of the ports and of the flow legs that a running unit watches. -/
def State.probeQueues (s : State) : State :=
  (List.range 64).foldl (fun (t : State) m =>
    let pr := t.f (F.MON_CTL_PROBE m)
    let i := t.rdn (R.MON_INST m)
    if t.on (F.MON_STATUS_RUN m) && (pr == 1 || pr == 2) then
      let q := if bitsOf i 17 16 = 0 then t.portSample (i % 8) else t.legSample (i % 65536) (bitsOf i 17 16 - 1)
      t.monSample m (if pr = 1 then q.2 else q.1)
    else t) s

/-- The registers of a queue sample (R233), at the present position, and the monitors' samples. -/
def State.sampleQueues (s : State) : State :=
  (List.range 8).foldl (fun t p =>
    let q := t.portSample p
    ((t.wrn (R.EGS_PORT_QDEPTH p) q.1).wrn (R.EGS_PORT_QDELAY p) q.2).wrMax (R.EGS_PORT_QDELAY_MAX p) q.2) s.probeQueues

/-! ## Registers -/

/-- Writes of EGS registers that have rules of their own; `recOk` is the record check of R248. -/
def State.egsReg (s : State) (recOk : Nat → Bool) (a : Nat) (v : Word) : Option State :=
  if a = R.EGS_CTL then some (s.egsCtl v)
  else if a = R.EGS_FT_CMD then
    let f := bitsOf v.toNat 15 0
    let rd := bitsOf v.toNat 16 16 == 1
    let wr := bitsOf v.toNat 17 17 == 1
    some (if rd && wr then s.refuse 0x0B else if rd then s.egsRead f else if wr then s.egsWrite f (recOk f) else s)
  else if R.EGS_PORT_OVH 0 ≤ a ∧ a < R.EGS_PORT_OVH 8 ∧ (a - R.EGS_PORT_OVH 0) % 0x40 = 0 then
    let p := (a - R.EGS_PORT_OVH 0) / 0x40
    some (if !(portLegs (s.portEntries none) p).isEmpty then s.refuse 0x0B else s.wrn a (v.toNat % 64))
  else if a = R.EGS_SAMPLE then
    let iv := bitsOf v.toNat 12 0
    some (if iv = 0 ∨ s.clk.lm < iv ∨ iv ≤ bitsOf v.toNat 28 16 then s.refuse 0x0B else if s.merRuns then s.stage a v s.clk.vpos else s.wr a v)
  else none

end Sys2Proof.Machine
end

