-- ==== Sys2Proof/Machine/Lne.lean ====
section
/-!
DEFINITION. Sys2Proof/Machine/Lne.lean: quads, lanes and bring-up (spec/14_serial_lanes.md, R278-R294). A port is named by `st` (false
Ethernet, true Staord) and its number. Lane stages: 0 OFF, 1 SIGNAL, 2 CDR, 3 TRAINING, 4 DONE; port states: 0 OFF, 1
LANES, 2 DESKEW, 3 FEC, 4 READY.
-/

namespace Sys2Proof.Machine

/-! ## Ports, quads, lanes -/

/-- STATE of a port. -/
def portStateF (st : Bool) (p : Nat) : Fld := if st then F.LNE_SPORT_STATUS_STATE p else F.LNE_EPORT_STATUS_STATE p

/-- STATUS, SKEW, RXLAT, FEC counts and RETRAIN_CNT of a port: the register at offset `o` of LNE_xPORT_p. -/
def portReg (st : Bool) (p o : Nat) : Nat := (if st then R.LNE_SPORT_STATUS p else R.LNE_EPORT_STATUS p) + o

/-- State of a port that no register holds. -/
def State.lport (s : State) (st : Bool) (p : Nat) : LPortSt := Tab.get (fun _ => ({} : LPortSt)) s.lne.ports (if st then 8 + p else p)

/-- Set it. -/
def State.setLport (s : State) (st : Bool) (p : Nat) (x : LPortSt) : State :=
  { s with lne := { s.lne with ports := Tab.put (fun _ => ({} : LPortSt)) s.lne.ports (if st then 8 + p else p) x } }

/-- State of lane l that no register holds. -/
def State.lane (s : State) (l : Nat) : LaneSt := Tab.get (fun _ => ({} : LaneSt)) s.lne.lanes l

/-- Set it. -/
def State.setLane (s : State) (l : Nat) (x : LaneSt) : State :=
  { s with lne := { s.lne with lanes := Tab.put (fun _ => ({} : LaneSt)) s.lne.lanes l x } }

/-- The enabled quads of a port. -/
def State.portQuads (s : State) (st : Bool) (p : Nat) : List Nat :=
  (List.range 16).filter (fun q => s.on (F.LNE_QUAD_CTL_EN q) && s.f (F.LNE_QUAD_CTL_ROLE q) == (if st then 2 else 1) && s.f (F.LNE_QUAD_CTL_PORT q) == p)

/-- The lanes of a port. -/
def State.portLanes (s : State) (st : Bool) (p : Nat) : List Nat := (s.portQuads st p).flatMap (fun q => (List.range 4).map (fun i => 4 * q + i))

/-- The port of lane l, if its quad is enabled and carries one. -/
def State.lanePort (s : State) (l : Nat) : Option (Bool × Nat) :=
  let q := l / 4
  if l < 64 ∧ s.on (F.LNE_QUAD_CTL_EN q) = true then
    match s.f (F.LNE_QUAD_CTL_ROLE q) with
    | 1 => some (false, s.f (F.LNE_QUAD_CTL_PORT q))
    | 2 => some (true, s.f (F.LNE_QUAD_CTL_PORT q))
    | _ => none
  else none

/-- STAGE of lane l. -/
def State.stage_ (s : State) (l : Nat) : Nat := s.f (F.LNE_LANE_STATUS_STAGE l)

/-- Lane l enters a stage. -/
def State.toStage (s : State) (l n : Nat) : State :=
  ((if n = 4 then s else s.sightDrop 0 l).setF (F.LNE_LANE_STATUS_STAGE l) n).setLane l { at_ := s.clk.ns, idx := (s.lane l).idx }

/-- Lane l starts again at stage 1. -/
def State.laneRestart (s : State) (l : Nat) : State := ((s.toStage l 1).setF (F.LNE_LANE_STATUS_SIG l) 0).setF (F.LNE_LANE_STATUS_CDR_LOCK l) 0

/-- RX_UP of an Ethernet port: READY with no local or remote fault (R287). -/
def State.rxUpdate (s : State) (p : Nat) : State :=
  s.setF (F.ETH_PORT_STATUS_RX_UP p)
    (if s.f (F.LNE_EPORT_STATUS_STATE p) = 4 ∧ s.on (F.ETH_PORT_STATUS_LOCAL_FAULT p) = false ∧ s.on (F.ETH_PORT_STATUS_REMOTE_FAULT p) = false then 1 else 0)

/-- The link of Staord port p leaves what it held (R273): nothing is in its buffer, it is DOWN, its function STARTING. -/
def State.linkReset (s : State) (p : Nat) : State :=
  let s := { s with links := Tab.put (fun _ => ({} : LinkSt)) s.links p {} }
  let s := s.setF (F.CNV_LINK_STATUS_B1_0 p) 0
  if s.fn (fnStaord p) == .ready then s.setFn (fnStaord p) .starting else s

/-- A port goes to a state; leaving READY is counted, flagged and raised (R291). -/
def State.portTo (s : State) (st : Bool) (p n : Nat) : State :=
  let was := s.f (portStateF st p)
  let x := s.lport st p
  let s := (s.setF (portStateF st p) n).setLport st p { x with at_ := s.clk.ns, ok := decide (3 ≤ n) && x.ok, switch := decide (2 ≤ n) && x.switch }
  let s := if was = 4 ∧ n ≠ 4 then ((s.bump (portReg st p 0x14)).setF F.LNE_FLAGS_PORT_DOWN 1).raise 0x0E05 (if st then 8 + p else p) else s
  let s := if st then (if was = 4 ∧ n ≠ 4 then s.linkReset p else s) else s.rxUpdate p
  if n = 4 ∧ was ≠ 4 then s.raise 0x0E04 (if st then 8 + p else p) else s

/-- Every lane of a port starts again at stage 1 (R288, R291). -/
def State.portRestart (s : State) (st : Bool) (p : Nat) : State := (s.portLanes st p).foldl State.laneRestart (s.portTo st p 1)

/-! ## Enabling quads (R278, R279) -/

/-- May quad q be enabled with this role and port? -/
def State.quadOk (s : State) (q role port : Nat) : Bool :=
  let cfg := fun (l : Nat) => s.rdn (R.LNE_LANE_CFG l 0)
  let ls := (List.range 4).map (fun i => 4 * q + i)
  let rm := ls.map (fun l => bitsOf (cfg l) 17 0)
  let want := if role = 1 then 106250 + 2 ^ 17 else 112500 + 2 ^ 17
  let others := (List.range 16).filter (fun r => r != q && s.on (F.LNE_QUAD_CTL_EN r) && s.f (F.LNE_QUAD_CTL_ROLE r) == role)
  let same := others.filter (fun r => s.f (F.LNE_QUAD_CTL_PORT r) == port)
  ls.all (fun l => bitsOf (cfg l) 16 0 != 0) && rm.all (fun x => x == rm.headD 0)
    && (role == 0 || role == 3 || rm.all (fun x => x == want))
    && (role != 2 || (same.isEmpty && decide (others.length < 8)))
    && (role != 1 || (decide (others.length < 8) && decide (same.length ≤ 1)
      && same.all (fun r => (q % 2 == 0 && r == q + 1) || (r % 2 == 0 && q == r + 1))))

/-- Does anything name the port of quad q, so that its disable is refused (R278)? -/
def State.quadUsed (s : State) (q : Nat) : Bool :=
  let p := s.f (F.LNE_QUAD_CTL_PORT q)
  match s.f (F.LNE_QUAD_CTL_ROLE q) with
  | 1 => s.ingFlows.any (fun f => ftPort (s.ftw f 0) == p)
      || s.egsFlows.any (fun f => (efLegs (s.egWords f)).any (fun l => l.2 == p))
      || (List.range 2).any (fun x => s.on (F.PTP_X_CTL_EN x) && s.f (F.PTP_X_CTL_PORT x) == p)
  | 2 => (s.active fnTwn && s.f F.TWN_CTL_PORT == p)
      || (s.active fnCnv && [bitsOf (s.rdn R.CNV_PORTS) 2 0, bitsOf (s.rdn R.CNV_PORTS) 6 4, bitsOf (s.rdn R.CNV_PORTS) 10 8, bitsOf (s.rdn R.CNV_PORTS) 14 12].contains p)
  | _ => false

/-- The first quad and W800 of a port's STATUS. -/
def State.portShape (s : State) (st : Bool) (p : Nat) : State :=
  let qs := s.portQuads st p
  let s := if st then s.setF (F.LNE_SPORT_STATUS_QUAD p) (qs.headD 0) else s.setF (F.LNE_EPORT_STATUS_QUAD p) (qs.headD 0)
  if st then s else s.setF (F.LNE_EPORT_STATUS_W800 p) (if qs.length = 2 then 1 else 0)

/-- A function that is OFF starts. -/
def State.startFn (s : State) (f : Nat) : State := if s.fn f == .off then s.setFn f .starting else s

/-- Quad q starts: its lane PLL acquires, its lanes start bring-up, its port functions start (R69, R278, R288). -/
def State.quadStart (s : State) (q role port : Nat) : State :=
  let s := s.setF (F.CKG_LPLL_STATUS_STATE q) 2
  let s := ((List.range 4).map (fun i => 4 * q + i)).foldl State.laneRestart s
  if role = 1 then
    ((s.portTo false port 1).portShape false port).startFn (fnEth port)
  else if role = 2 then ((s.portTo true port 1).portShape true port).startFn (fnStaord port)
  else s

/-- Quad q stops (R278). -/
def State.quadStop (s : State) (q role port : Nat) : State :=
  let s := (s.setF (F.CKG_LPLL_STATUS_STATE q) 0).setF ⟨R.CKG_LANE_STATUS, q, q⟩ 0
  let s := (List.range 4).foldl (fun (t : State) i => (t.wrn (R.LNE_LANE_STATUS (4 * q + i)) 0).setLane (4 * q + i) {}) s
  if role = 1 then
    let s := s.portTo false port (if (s.portQuads false port).isEmpty then 0 else 1)
    let s := s.portShape false port
    if (s.portQuads false port).isEmpty then (s.setF (F.ETH_PORT_STATUS_TX_READY port) 0).setFn (fnEth port) .off else s
  else if role = 2 then (((s.portTo true port 0).portShape true port).linkReset port).setFn (fnStaord port) .off
  else s

/-- LNE_QUAD_q_CTL takes the value `new` (R278). -/
def State.quadWriteLne (s : State) (q : Nat) (new : Word) : State :=
  let want := bitsOf new.toNat 0 0 == 1
  let have_ := s.on (F.LNE_QUAD_CTL_EN q)
  let role := bitsOf new.toNat 2 1
  let port := bitsOf new.toNat 6 4
  let same := decide (role = s.f (F.LNE_QUAD_CTL_ROLE q)) && decide (port = s.f (F.LNE_QUAD_CTL_PORT q))
  if have_ && !same then s.refuse 0x0E
  else if want && !have_ then
    if s.quadOk q role port then (s.wr (R.LNE_QUAD_CTL q) new).quadStart q role port else s.refuse 0x0E
  else if !want && have_ then
    if s.quadUsed q then s.refuse 0x0E else (s.wr (R.LNE_QUAD_CTL q) new).quadStop q role port
  else s.wr (R.LNE_QUAD_CTL q) new

/-! ## Bring-up (R288-R290) -/

/-- Stage 1: signal for 100 µs. -/
def State.signalDetect (s : State) (l : Nat) : State :=
  if s.stage_ l = 1 then ((s.toNs ((s.lane l).at_ + 100000)).setF (F.LNE_LANE_STATUS_SIG l) 1).toStage l 2 else s

/-- Does the lane PLL of lane l run, so that the lane may become ready: a lane is not ready while its PLL acquires or relocks (R76)? -/
def State.lanePllRuns (s : State) (l : Nat) : Bool := decide (4 ≤ s.f (F.CKG_LPLL_STATUS_STATE (l / 4)))

/-- Stage 2: the CDR locks and the start Sighting ends: `first` and `second` are its measurements of phase and offset. Accepted, the lane
enters training; rejected, it restarts at stage 1 (R280, R288, R344). -/
def State.cdrLock (s : State) (l : Nat) (first second : List Int) (eye : List Nat) (temp : Int) : State :=
  if s.stage_ l ≠ 2 || !s.lanePllRuns l then s else
  let s := (s.setF (F.LNE_LANE_STATUS_CDR_LOCK l) 1).sightReport 0 l eye
  if s.sightPasses 0 l true first second eye then (s.sightAccept 0 l true first temp).toStage l 3 else (s.sightReject 0 l).laneRestart l

/-- Every lane of the port has completed stage 3. -/
def State.lanesDone (s : State) (st : Bool) (p : Nat) : Bool := (s.portLanes st p).all (fun l => s.stage_ l == 4)

/-- A lane completes stage 3 (R288). -/
def State.laneDone (s : State) (l : Nat) : State := ((s.setF (F.LNE_LANE_STATUS_STAGE l) 4).raise 0x0E02 l)

/-- Stage 3 of an Ethernet lane: the alignment markers, or their inverse, are found; a port whose lanes are all done goes to
DESKEW (R288). -/
def State.alignmentLock (s : State) (l : Nat) (inv : Bool) : State :=
  match s.lanePort l with
  | some (false, p) =>
    if s.stage_ l ≠ 3 then s else
    let s := (s.setF (F.LNE_LANE_STATUS_RX_INV l) (if inv then 1 else 0)).laneDone l
    if s.lanesDone false p && s.f (F.LNE_EPORT_STATUS_STATE p) == 1 then s.portTo false p 2 else s
  | _ => s

/-- The sync bytes of a marker, upright and inverted (R289). -/
def syncBytes : List Nat := [0x4D, 0xB2, 0x69, 0x1E]

/-- Is a marker of eight bytes good (R289)? -/
def markerGood (m : List Nat) : Bool :=
  m.take 4 == syncBytes && decide (byteAt m 4 ≤ 3) && byteAt m 5 == 255 - byteAt m 4 && (byteAt m 6 == 1 || byteAt m 6 == 2 || byteAt m 6 == 3)
    && byteAt m 7 == (byteAt m 4 ^^^ byteAt m 5 ^^^ byteAt m 6)

/-- Lane l returns to the start of stage 3 and its port sends TRAINING again (R289). -/
def State.trainAgain (s : State) (l p : Nat) : State :=
  let x := s.lport true p
  let s := (s.toStage l 3).setLport true p { x with ok := false }
  if x.ok then s.emit (.training p 1) else s

/-- When every lane of a Staord port has passed, the port holds its order and sends LANES_OK; when each lane then brings LANES_OK or
SWITCH it sends SWITCH and starts PCS transmission (R289). -/
def State.trainPort (s : State) (p : Nat) : State :=
  let ls := s.portLanes true p
  let x := s.lport true p
  let ids := ls.map (fun l => (s.lane l).idx)
  if !(s.f (F.LNE_SPORT_STATUS_STATE p) == 1 || s.f (F.LNE_SPORT_STATUS_STATE p) == 2) || x.switch || !s.lanesDone true p || !((List.range 4).all ids.contains) then s
  else
    let order := (ids.zipIdx.map (fun e => e.1 * 4 ^ e.2)).sum
    let s := if x.ok then s
      else (((s.setF (F.LNE_SPORT_STATUS_ORDER p) order).setLport true p { x with ok := true }).emit (.training p 2))
    if ls.all (fun l => decide (2 ≤ (s.lane l).said)) then
      let s := (s.setLport true p { s.lport true p with ok := true, switch := true }).emit (.training p 3)
      s.portTo true p 2
    else s

/-- A Staord training word: its marker and the PRBS errors that followed it (R289). -/
def State.trainingWord (s : State) (l : Nat) (marker : List Nat) (errs : Nat) : State :=
  match s.lanePort l with
  | some (true, p) =>
    if !(s.stage_ l == 3 || s.stage_ l == 4) || !(s.f (F.LNE_SPORT_STATUS_STATE p) == 1 || s.f (F.LNE_SPORT_STATUS_STATE p) == 2)
        || (s.lport true p).switch then s else
    let inv := s.on (F.LNE_LANE_STATUS_RX_INV l)
    let m := marker.map (fun b => if inv then 255 - b % 256 else b % 256)
    let flip := m.take 4 == syncBytes.map (fun b => 255 - b)
    let s := if flip then s.setF (F.LNE_LANE_STATUS_RX_INV l) (if inv then 0 else 1) else s
    let m := if flip then m.map (fun b => 255 - b) else m
    let s := s.bumpBy (R.LNE_LANE_PRBS_ERR l) errs
    if !markerGood m || errs != 0 then s.trainAgain l p
    else
      let x := s.lane l
      let x := { x with good := x.good + 1, bits := x.bits + 32704, idx := byteAt m 4, said := byteAt m 6 }
      let s := s.setLane l x
      let s := if s.stage_ l = 3 ∧ s.f F.LNE_TRAIN_MARKERS ≤ x.good ∧ 2 ^ s.f F.LNE_TRAIN_BITS_LOG2 ≤ x.bits then s.laneDone l else s
      s.trainPort p
  | _ => s

/-- Stage 4: the skew is measured, in ps; `ok` says that an Ethernet skew is within the limits of IEEE 802.3 (R288, R292). Outside its limit the port
stays in DESKEW until TIMEOUT restarts it. -/
def State.deskew (s : State) (st : Bool) (p skew rxlat : Nat) (ok : Bool) : State :=
  if s.f (portStateF st p) ≠ 2 || !s.lanesDone st p then s
  else
    let s := s.wrn (portReg st p 0x04) skew
    if (if st then decide (skew ≤ 128000) else ok) then (s.wrn (portReg st p 0x08) rxlat).portTo st p 3
    else (s.setF F.LNE_FLAGS_SKEW 1).raise 0x0E08 (if st then 8 + p else p)

/-- Stage 5: FEC lock; a Staord link then measures its delay (R274, R288, R290). -/
def State.fecLock (s : State) (st : Bool) (p : Nat) : State :=
  if s.f (portStateF st p) ≠ 3 then s
  else
    let s := s.portTo st p 4
    if st then (s.linkReset p).setF (F.CNV_LINK_STATUS_B1_0 p) 1 else s

/-- Corrected codewords, and consecutive missing skip codewords and uncorrectable codewords (R290): counted; at their limits FEC lock is lost, and
the port returns to DESKEW, on Staord with every lane at stage 3. -/
def State.fecLoss (s : State) (st : Bool) (p missing uncorr corr : Nat) : State :=
  if s.f (portStateF st p) ≠ 4 then s
  else
    let d := if st then 8 + p else p
    let fr := s.clk.vpos / s.clk.fu
    let x := s.lport st p
    let s := if corr = 0 then s else s.bumpBy (portReg st p 0x0C) corr
    let s := if uncorr = 0 then s else
      let s := (s.bumpBy (portReg st p 0x10) uncorr).setF F.LNE_FLAGS_UNCORR 1
      if x.uncFrame = some fr then s else (s.setLport st p { x with uncFrame := some fr }).raise 0x0E07 d
    if s.f F.LNE_FEC_LOSS_CNT ≤ missing ∨ s.f F.LNE_FEC_UNCORR ≤ uncorr then
      let s := s.portTo st p 2
      if !st then s
      else
        let s := (s.setLport true p { s.lport true p with ok := false, switch := false }).emit (.training p 1)
        (s.portLanes true p).foldl (fun (t : State) l => t.toStage l 3) s
    else s

/-- A stage not left within TIMEOUT restarts every lane of the port (R288). -/
def State.stageTimeout (s : State) (st : Bool) (p : Nat) : State :=
  let n := s.f (portStateF st p)
  if n = 0 ∨ n = 4 then s
  else
    let ats := if n = 1 then ((s.portLanes st p).filter (fun l => s.stage_ l != 4)).map (fun l => (s.lane l).at_) else []
    let t0 := match ats with | a :: r => r.foldl min a | [] => (s.lport st p).at_
    let s := (s.toNs (t0 + s.f F.LNE_TRAIN_TIMEOUT * 1000000)).portRestart st p
    ((s.bump (portReg st p 0x14)).setF F.LNE_FLAGS_TIMEOUT 1).raise 0x0E06 (if st then 8 + p else p)

/-- R291: a lane loses signal or CDR lock. -/
def State.laneLoss (s : State) (l : Nat) : State :=
  if s.stage_ l < 2 then s else
  let s := ((s.bump (R.LNE_LANE_LOSS_CNT l)).setF F.LNE_FLAGS_LANE_LOSS 1).raise 0x0E03 l
  match s.lanePort l with
  | none => s.laneRestart l
  | some (st, p) =>
    let s := (s.portTo st p 1).laneRestart l
    if st then ((s.portLanes true p).filter (fun m => m != l && decide (3 ≤ s.stage_ m))).foldl (fun (t : State) m => t.toStage m 3) s else s

/-! ## Registers -/

/-- The fields of a Lane Table word `v` are within R279; a RATE left at its reset value 0 does not change. -/
def laneCfgOk (w old v : Nat) : Bool :=
  let t := fun (hi lo : Nat) => (signedOf 7 (bitsOf v hi lo)).natAbs
  match w with
  | 0 =>
    let r := bitsOf v 16 0
    (r == 0 && bitsOf old 16 0 == 0) || (if bitsOf v 17 17 = 0 then decide (1250 ≤ r) && decide (r ≤ 56250) else decide (20000 ≤ r) && decide (r ≤ 112500))
  | 1 => decide (t 6 0 ≤ 63) && decide (t 14 8 ≤ 63) && decide (t 30 24 ≤ 63) && decide (t 6 0 + t 14 8 + bitsOf v 21 16 + t 30 24 ≤ 63)
  | _ => true

/-- Writes of LNE registers that have rules of their own. -/
def State.lneReg (s : State) (a : Nat) (v : Word) : Option State :=
  if R.LNE_QUAD_CTL 0 ≤ a ∧ a < R.LNE_QUAD_CTL 16 then some (s.quadWriteLne ((a - R.LNE_QUAD_CTL 0) / 4) v)
  else if R.LNE_LANE_CFG 0 0 ≤ a ∧ a < R.LNE_LANE_CFG 64 0 then
    let l := (a - R.LNE_LANE_CFG 0 0) / 0x40
    let o := (a - R.LNE_LANE_CFG 0 0) % 0x40
    if o < 16 then
      (if s.on (F.LNE_QUAD_CTL_EN (l / 4)) || !laneCfgOk (o / 4) (s.rdn a) v.toNat then some (s.refuse 0x0E) else none)
    else if o = 0x24 then (if s.f (F.LNE_QUAD_CTL_ROLE (l / 4)) = 3 then none else some (s.refuse 0x0E))
    else none
  else none

end Sys2Proof.Machine
end

