-- ==== Sys2Proof/Machine/Link.lean ====
section
/-!
DEFINITION. Sys2Proof/Machine/Link.lean: the Staord link layer (R270-R274): flits, their CRC, go-back-N with replays, link delay.
-/

namespace Sys2Proof.Machine

/-- The link of Staord port p. -/
def State.link (s : State) (p : Nat) : LinkSt := Tab.get (fun _ => ({} : LinkSt)) s.links p

/-- Set it. -/
def State.setLink (s : State) (p : Nat) (x : LinkSt) : State := { s with links := Tab.put (fun _ => ({} : LinkSt)) s.links p x }

/-- Is the link READY (CNV_LINK_p_STATUS)? -/
def State.linkUp (s : State) (p : Nat) : Bool := s.f (F.CNV_LINK_STATUS_B1_0 p) == 2

/-- Is a flit type sequenced (R271)? -/
def flitSequenced (ty : Nat) : Bool := ty == 1 || ty == 2 || ty == 3 || ty == 5 || ty == 6

/-- The sending priority of a sequenced type (R271). -/
def flitPriority (ty : Nat) : Nat := match ty with | 2 => 3 | 3 => 4 | 1 => 5 | 5 => 6 | 6 => 7 | 4 => 2 | _ => 8

/-- Bytes 0 to 251 of a flit (R270). -/
def flitBytes (f : Flit) : List Nat :=
  let w0 := f.ty % 16 + f.seq % 4096 * 2 ^ 4 + f.ack % 4096 * 2 ^ 16 + (if f.nak then 2 ^ 28 else 0) + (if f.ackValid then 2 ^ 29 else 0)
  let w1 := f.mid % 1024 + f.payload.length % 256 * 2 ^ 16
  ([w0, w1] ++ (List.range 61).map (fun i => f.payload.getD i 0)).flatMap (fun w => leBytes w 4)

/-- R272: the CRC of a flit with a fold value. -/
def flitCrc (fold : Nat) (f : Flit) : Nat := crc32c (leBytes fold 4 ++ flitBytes f)

/-- A flit goes out: its ACK fields are those of now, TX_CNT counts it. -/
def State.putFlit (s : State) (p fold : Nat) (f : Flit) : State :=
  let x := s.link p
  let f := { f with ack := (x.rx + 4294967295) % 4294967296 % 4096, ackValid := x.rxAny, mid := s.pins.mid }
  (s.bump (R.CNV_LINK_TX_CNT p)).emit (.flit p { f with crc := flitCrc fold f })

/-- An unsequenced flit: idle (0) or time (4). -/
def State.sendPlain (s : State) (p ty : Nat) (nak : Bool) (payload : List Nat) : State :=
  s.putFlit p 0xFFFFFFFF { ty := ty, seq := 0, ack := 0, nak := nak, ackValid := false, mid := 0, payload := payload, crc := 0 }

/-- A sequenced flit takes the next sequence number and a place in the replay buffer (R273). `seq` keeps the full number. -/
def State.sendNew (s : State) (p ty : Nat) (payload : List Nat) : State :=
  let x := s.link p
  let f : Flit := { ty := ty, seq := x.tx, ack := 0, nak := false, ackValid := false, mid := 0, payload := payload, crc := 0 }
  let s := s.setLink p { x with tx := (x.tx + 1) % 2 ^ 32, buf := x.buf ++ [f], lastAdv := if x.buf = [] then s.clk.ns else x.lastAdv }
  s.putFlit p x.tx f

/-- A sequenced payload for the link of port p: sent when the link is READY and its buffer has room, else it waits; a link
that is not READY takes nothing. -/
def State.linkSend (s : State) (p ty : Nat) (payload : List Nat) : State :=
  let x := s.link p
  if !s.linkUp p then s
  else if x.buf.length < 1024 then s.sendNew p ty payload
  else s.setLink p { x with wait := x.wait ++ [(ty, payload)] }

/-- The waiting payload that goes first: the best priority, then the oldest (R271). -/
def bestWait (l : List (Nat × List Nat)) : Option (Nat × List Nat) :=
  l.foldl (fun o e => match o with | none => some e | some b => if flitPriority e.1 < flitPriority b.1 then some e else o) none

/-- Waiting payloads go out while the buffer has room. -/
def State.drainWait (s : State) (p : Nat) : Nat → State
  | 0 => s
  | n + 1 =>
    let x := s.link p
    match bestWait x.wait with
    | none => s
    | some e => if x.buf.length < 1024 then State.drainWait ((s.setLink p { x with wait := x.wait.erase e }).sendNew p e.1 e.2) p n else s

/-- Unacknowledged flits up to and with the 12-bit number `ack` are done (R273). -/
def dropAcked (ack : Nat) (buf : List Flit) : List Flit :=
  match buf.findIdx? (fun f => f.seq % 4096 == ack) with
  | some i => buf.drop (i + 1)
  | none => buf

/-- ACK of a received flit: the buffer gives up what is acknowledged; progress resets the replay count (R273). -/
def State.takeAck (s : State) (p : Nat) (f : Flit) : State :=
  if !f.ackValid then s else
  let x := s.link p
  let buf := dropAcked (f.ack % 4096) x.buf
  if buf.length = x.buf.length then s
  else (s.setLink p { x with buf := buf, lastAdv := s.clk.ns, retries := 0 }).drainWait p x.wait.length

/-- The link gives up after RETRY replays without progress: it leaves READY, its buffer is emptied, every lane of the port
restarts at stage 1 (R273, R291). -/
def State.linkGiveUp (s : State) (p : Nat) : State :=
  let s := ((s.bump (R.CNV_LINK_DOWN_CNT p)).setF F.CNV_FLAGS_LINK_DOWN 1).raise 0x0D07 p
  (s.portRestart true p).linkReset p

/-- A replay: every unacknowledged flit again, in order (R273). -/
def State.replay (s : State) (p : Nat) : State :=
  let x := s.link p
  if x.buf = [] then s
  else if s.f (F.CNV_LINK_CTL_RETRY p) ≤ x.retries then s.linkGiveUp p
  else
    let s := s.setLink p { x with retries := x.retries + 1, lastAdv := s.clk.ns }
    let s := (s.bump (R.CNV_LINK_REPLAY_CNT p)).raise 0x0D06 p
    x.buf.foldl (fun (t : State) f => t.putFlit p f.seq f) s

/-- REPLAY_TIMEOUT: ACK has not advanced for REPLAY_TO while flits are unacknowledged (R273). -/
def State.replayTimeout (s : State) (p : Nat) : State :=
  let x := s.link p
  if !s.linkUp p || x.buf == [] then s else (s.toNs (x.lastAdv + s.f (F.CNV_LINK_CTL_REPLAY_TO p))).replay p

/-- A failed flit: counted, and answered by NAK, at most once until progress or 2 × REPLAY_TO; a time flit draws no NAK
(R273, R274). -/
def State.badFlit (s : State) (p ty : Nat) : State :=
  let s := s.bump (R.CNV_LINK_CRC_CNT p)
  let x := s.link p
  let may := match x.nakAt with | some t => decide (t + 2 * s.f (F.CNV_LINK_CTL_REPLAY_TO p) ≤ s.clk.ns) | none => true
  if ty = 4 ∨ may = false then s
  else (s.setLink p { x with nakAt := some s.clk.ns }).sendPlain p 0 true []

/-- FLIT_RECEIVE: the CRC with the expected number, ACK and NAK, the expected number moves on (R272, R273). -/
def State.flitReceive (s : State) (p : Nat) (f : Flit) : State :=
  if !s.linkUp p then s else
  let x := s.link p
  let sq := flitSequenced f.ty
  if f.crc ≠ flitCrc (if sq then x.rx else 0xFFFFFFFF) f then s.badFlit p f.ty
  else if 7 ≤ f.ty then s.bump (R.CNV_LINK_DISCARD_CNT p)
  else
    let x := { x with peerMid := some f.mid }
    let x := if sq then { x with rx := (x.rx + 1) % 2 ^ 32, rxAny := true, nakAt := none } else x
    let x := if f.ty = 4 then { x with lastTime := some (f.payload.getD 5 0, s.clk.stc) } else x
    let s := ((s.setLink p x).bump (R.CNV_LINK_RX_CNT p)).takeAck p f
    let s := if (f.ty = 1 ∨ f.ty = 2) ∧ s.f F.TWN_CTL_PORT = p ∧ s.f F.TWN_STATUS_ROLE ≠ 0 then { s with twn := { s.twn with lastRx := s.clk.ns } } else s
    if f.nak then s.replay p else s

/-- The words of a time flit (R274). -/
def State.timeFlit (s : State) (p : Nat) : List Nat :=
  let x := s.link p
  let fr := s.clk.frame
  let ec := x.lastTime.getD (0, s.clk.stc)
  [fr % 2 ^ 32, fr / 2 ^ 32 % 2 ^ 16 + s.f F.MER_STATUS_SRC % 4 * 2 ^ 16 + s.f F.MER_STATUS_STATE % 8 * 2 ^ 18 + (if x.lastTime.isSome then 2 ^ 21 else 0),
   s.clk.line % 65536 * 65536 + s.clk.frac, s.clk.num, s.clk.den % 2048 + s.clk.lm % 65536 * 2 ^ 16, s.clk.stc % 2 ^ 32, ec.1, (s.clk.stc - ec.2) % 2 ^ 32]

/-- TIME_FLIT_SEND: at line 0 of a Meridian frame, a time flit on each READY Staord port (R48). -/
def State.timeFlitSend (s : State) : State :=
  if !s.ready fnMer then s else
  match s.toPhase 8 0 with
  | none => s
  | some s => ((List.range 8).filter s.linkUp).foldl (fun (t : State) p => t.sendPlain p 4 false (t.timeFlit p)) s

/-- LINK_DELAY_MEASURE: the 16 time flits of the bring-up, each received one as (t_rx, T_ECHO, T_HELD) where it had ECHO_VALID; the mean
half round trip becomes the delay and the link is READY (R274). -/
def State.linkMeasure (s : State) (p : Nat) (rx : List (Nat × Nat × Nat)) : State :=
  if s.f (F.CNV_LINK_STATUS_B1_0 p) ≠ 1 then s else
  let s := (List.range 16).foldl (fun (t : State) i => let t := if i = 0 then t else t.toNs (t.clk.ns + 1000); t.sendPlain p 4 false (t.timeFlit p)) s
  let ds : List Int := rx.map (fun e => ((e.1 : Int) - (e.2.1 : Int) - (e.2.2 : Int)) % 4294967296)
  let d : Int := ds.sum / ((2 * max 1 rx.length : Nat) : Int)
  let s := (s.wrn (R.CNV_LINK_DELAY p) d.toNat).setF (F.CNV_LINK_STATUS_B1_0 p) 2
  let s := s.setLink p { lastAdv := s.clk.ns, lastTime := (s.link p).lastTime }
  if s.fn (fnStaord p) == .starting then s.setFn (fnStaord p) .ready else s

end Sys2Proof.Machine
end

