-- ==== Sys2Proof/Machine/Twn.lean ====
section
/-!
DEFINITION. Sys2Proof/Machine/Twn.lean: twin operation (spec/12_twin_operation.md) but for the Cycle record: the interlock, digests, the
hold, QUIET channels, and the release of slices to egress (R201).
-/

namespace Sys2Proof.Machine

/-! ## Helpers -/

/-- TWN_STATUS.ROLE: 0 OFF, 1 STARTING, 2 LOOKOUT, 3 CLAIMING, 4 HELM. -/
def State.role (s : State) : Nat := s.f F.TWN_STATUS_ROLE

/-- Twinned channel c. -/
def State.tch (s : State) (c : Nat) : TwinCh := Tab.get (fun _ => ({} : TwinCh)) s.twn.chs c

/-- Set twinned channel c. -/
def State.setTch (s : State) (c : Nat) (x : TwinCh) : State :=
  { s with twn := { s.twn with chs := Tab.put (fun _ => ({} : TwinCh)) s.twn.chs c x } }

/-- The channels of TWN_CH_MASK. -/
def State.twinChans (s : State) : List Nat := (List.range 32).filter (fun c => bitsOf (s.rdn R.TWN_CH_MASK) c c == 1)

/-- Is channel c twinned now? -/
def State.twinned (s : State) (c : Nat) : Bool := decide (s.role ≠ 0) && bitsOf (s.rdn R.TWN_CH_MASK) c c == 1

/-- STATE of twinned channel c: 1 LOOKOUT, 2 HELM, 3 QUIET. -/
def State.twinState (s : State) (c : Nat) : Nat := s.f (F.TWN_CH_STATUS_STATE c)

/-- SYNC of the role word: every twinned channel is LOOKOUT (R242). -/
def State.twinSync (s : State) : Bool := s.twinChans.all (fun c => s.twinState c == 1)

/-- LINK, PARTNER_SYNC and REDUNDANT of TWN_STATUS (R256). -/
def State.twnUpdate (s : State) : State :=
  let link := decide (s.role ≠ 0) && !s.twn.lost
  let ps := match s.twn.peer with | some p => p.sync | none => false
  let pl := match s.twn.peer with | some p => p.role == 1 | none => false
  let red := if s.role = 4 then link && pl && ps else if s.role = 2 then link && s.pins.helmIn && s.twinSync else false
  let s := s.setF F.TWN_STATUS_LINK (if link then 1 else 0)
  let s := s.setF F.TWN_STATUS_PARTNER_SYNC (if ps then 1 else 0)
  let s := s.setF F.TWN_STATUS_HELM_IN (if s.pins.helmIn then 1 else 0)
  s.setF F.TWN_STATUS_REDUNDANT (if red then 1 else 0)

/-- The ROLE of the role word (R242). -/
def State.roleWord (s : State) : Nat := if s.hasGivenUp then 0 else match s.role with | 2 => 1 | 4 => 2 | 3 => 3 | _ => 0

/-- The payload words of a Twin digest flit (R242). -/
def digestWords (f : TwinFlit) : List Nat :=
  let b := fun (x : Bool) => if x then 1 else 0
  let ent := fun (e : TwinEntry) =>
    [e.ch % 32 + e.slice % 4096 * 2 ^ 5 + e.floorCtu % 32 * 2 ^ 17 + b e.standIn * 2 ^ 22, e.k % 2 ^ 32, e.k / 2 ^ 32 % 2 ^ 16, e.bits % 2 ^ 32, e.digest % 2 ^ 32]
  [f.role % 4 + b f.helmOut * 4 + b f.helmIn * 8 + b f.first * 16 + b f.sync * 32 + f.entries.length % 16 * 2 ^ 8, f.tag] ++ f.entries.flatMap ent

/-- A Twin digest flit with entries goes out on the Twin link (R242). -/
def State.sendDigest (s : State) (es : List TwinEntry) : State :=
  let f : TwinFlit :=
    { role := s.roleWord, helmOut := s.on F.BIN_STATUS_HELM_OUT, helmIn := s.pins.helmIn, first := s.pins.twinFirst, sync := s.twinSync,
      tag := s.rdn R.TWN_PAIR_TAG, entries := es }
  let s := s.linkSend (s.f F.TWN_CTL_PORT) 2 (digestWords f)
  { s with twn := { s.twn with lastTx := s.clk.ns } }

/-- A counter, a flag and an event of TWN together. -/
def State.twnNote (s : State) (cnt : Nat) (flag : Fld) (code ch : Nat) : State := ((s.bump cnt).setF flag 1).raise code ch

/-! ## The hold (R243) -/

/-- Slices at the front of the hold that have been decided leave it, in order; TWN_HOLD_MAX takes the longest hold. -/
def State.drainHold (s : State) (c : Nat) : List HeldSlice → State
  | [] => let x := s.tch c; s.setTch c { x with hold := [] }
  | h :: r =>
    let x := s.tch c
    if h.st = .ok then State.drainHold ((s.queueSlice h.u h.pkts).wrMax R.TWN_HOLD_MAX (s.clk.ns - h.ns)) c r
    else if h.st = .drop then State.drainHold (s.wrMax R.TWN_HOLD_MAX (s.clk.ns - h.ns)) c r
    else s.setTch c { x with hold := h :: r }

/-- Drain the hold of channel c. -/
def State.drain (s : State) (c : Nat) : State := s.drainHold c (s.tch c).hold

/-- Change how the held slices of channel c stand. -/
def State.mapHold (s : State) (c : Nat) (f : HeldSlice → HeldSlice) : State :=
  let x := s.tch c
  s.setTch c { x with hold := x.hold.map f }

/-- Channel c becomes QUIET, with a cause (R253); one that is QUIET already starts its count again (R254). -/
def State.quiet (s : State) (c cause : Nat) : State :=
  let was := s.twinState c == 3
  let s := if was then s else ((s.setF (F.TWN_CH_STATUS_STATE c) 3).setF (F.TWN_CH_STATUS_CAUSE c) cause).bump R.TWN_QUIET_CNT
  let s := s.setF (F.TWN_CH_STATUS_MATCH c) 0
  let x := s.tch c
  let s := s.setTch c { x with resync := false, pics := x.pics.map (fun (p : MatchPic) => { p with bad := true }) }
  ((s.mapHold c (fun h => if h.st = .ok then h else { h with st := .drop })).drain c).twnUpdate

/-- A mismatch of a digest (R253). -/
def State.mismatch (s : State) (c : Nat) : State := (s.twnNote R.TWN_MISMATCH_CNT F.TWN_FLAGS_MISMATCH 0x0C06 c).quiet c 0

/-! ## Roles (R240, R251) -/

/-- The module becomes Lookout with every twinned channel QUIET (R240). -/
def State.joinLookout (s : State) : State :=
  let s := { (s.setF F.TWN_STATUS_ROLE 2) with twn := { s.twn with waitV := none } }
  (s.twinChans.foldl (fun t c => t.quiet c 3) s).twnUpdate

/-- The claim completes: the module is Helm of every twinned channel (R240); after a takeover QUIET channels restart with the
first frame that starts strictly after the claim, and held slices go to the queues (R251). -/
def State.becomeHelm (s : State) : State :=
  let cv := match s.twn.claim with | some p => p.2 | none => s.clk.vpos
  let tk := s.twn.takeover
  let s := { ((s.setF F.TWN_STATUS_ROLE 4).raise 0x0C02 0) with twn := { s.twn with claim := none, takeover := false } }
  let s := s.twinChans.foldl (fun t c =>
    let t := t.ownFlips c
    let t := if tk && t.twinState c == 3 then (t.requestRestart c cv).raise 0x0C0C c else t
    let t := t.setF (F.TWN_CH_STATUS_STATE c) 2
    let x := t.tch c
    let t := t.setTch c { x with resync := false, pics := [] }
    (t.mapHold c (fun h => if h.st = .drop then h else { h with st := .ok })).drain c) s
  let s := if tk then (s.bump R.TWN_TAKEOVER_CNT).setF F.TWN_FLAGS_TAKEOVER 1 else s
  s.twnUpdate

/-- The module strapped low yields on contention: it becomes Lookout and keeps each channel's state; a channel it was
Helm of is LOOKOUT, and one that never had a state joins QUIET (R240). What was held for the claim is held under R243 again. -/
def State.yieldHelm (s : State) : State :=
  let s := { ((s.driveHelm false).setF F.TWN_STATUS_ROLE 2) with twn := { s.twn with claim := none, takeover := false } }
  let s := s.twnNote R.TWN_YIELD_CNT F.TWN_FLAGS_YIELD 0x0C03 0
  let s := s.twinChans.foldl (fun t c =>
    let t := if t.twinState c = 2 then t.setF (F.TWN_CH_STATUS_STATE c) 1 else if t.twinState c = 0 then t.quiet c 3 else t
    t.mapHold c (fun h => if h.st = .claim then { h with st := if t.clk.ns < h.ns + t.f F.TWN_DIG_TO_T_D * 1000 then .wait else .late } else h)) s
  s.twnUpdate

/-- Contention (R240): the module strapped high stays, or becomes, Helm. -/
def State.contend (s : State) : State :=
  if s.hasGivenUp || !(s.role == 3 || s.role == 4) then s
  else if !s.pins.twinFirst then s.yieldHelm
  else if s.role = 3 then s.becomeHelm
  else s

/-- A claim (R240): HELM_OUT goes high; no claim after a give-up (R250). -/
def State.claim (s : State) (takeover : Bool) : State :=
  if s.hasGivenUp || s.role == 3 || s.role == 4 then s
  else
    let s := { ((s.driveHelm true).setF F.TWN_STATUS_ROLE 3) with
      twn := { s.twn with claim := some (s.clk.ns, s.clk.vpos), takeover := takeover, waitV := none } }
    let s := if takeover then s.twinChans.foldl (fun t c => t.mapHold c (fun h => if h.st = .wait ∨ h.st = .late then { h with st := .claim } else h)) s
      else s
    let s := s.twnUpdate
    if s.pins.helmIn then s.contend else s

/-- R239: may the twin function be READY? -/
def State.twinReadyOk (s : State) : Bool :=
  s.ready (fnStaord (s.f F.TWN_CTL_PORT)) && s.twinChans.all (fun c => s.ready (fnEnc c))
    && (match s.twn.peer with | some p => p.tag == s.rdn R.TWN_PAIR_TAG && p.first != s.pins.twinFirst | none => false)

/-- R239, R240: the twin function enters READY and takes its first role. -/
def State.twinRoleStart (s : State) : State :=
  if !(s.fn fnTwn == .starting) || !s.twinReadyOk then s
  else
    let s := s.setFn fnTwn .ready
    if s.pins.helmIn then s.joinLookout
    else if s.pins.twinFirst then s.claim false
    else { s with twn := { s.twn with waitV := some (s.clk.vpos + s.f F.TWN_CTL_START_WAIT * s.clk.fu) } }

/-- R240: START_WAIT frames have passed. -/
def State.startWaitExpiry (s : State) : State :=
  match s.twn.waitV with
  | none => s
  | some v =>
    match s.toPos 8 v with
    | none => s
    | some s =>
      let s := { s with twn := { s.twn with waitV := none } }
      if s.role ≠ 1 then s else if s.pins.helmIn then s.joinLookout else s.claim false

/-- R240: 4 µs after the claim without contention. -/
def State.claimComplete (s : State) : State :=
  match s.twn.claim with
  | none => s
  | some p => if s.role = 3 then (s.toNs (p.1 + 4000)).becomeHelm else s

/-- R240, R243: the filtered HELM_IN level changes. -/
def State.helmInChange (s : State) (level : Bool) : State :=
  if s.pins.helmIn = level then s
  else
    let s := { s with pins := { s.pins with helmIn := level } }
    let s := s.twnUpdate
    if level then (if s.on F.BIN_STATUS_HELM_OUT then s.contend else s)
    else if s.role = 2 ∧ (s.twinChans.any (fun c => (s.tch c).hold.any (fun h => h.st == .late))) = true then s.claim true
    else s

/-! ## Enable (R238, R248) -/

/-- Enabled audio outputs: one audio entry each (R338). -/
def State.audioEntries (s : State) : Nat :=
  ((List.range 8).filter (fun o => s.on (F.AUD_AOUT_CTL_EN o))).length + ((List.range 4).filter (fun t => s.on (F.AUD_TDM_CTL_TX_EN t))).length
    + ((List.range 64).filter (fun t => s.on (F.AUD_TXS_CTL_EN t))).length

/-- w_max of R248, with one more flow on channel `extra`. -/
def State.recMax (s : State) (extra : Option Nat) : Nat :=
  let fl := (s.egsFlows.filter (fun f => efType (s.egWords f) != 4)).map (fun f => efCh (s.egWords f))
  9 + ((s.twinChans.map (fun c =>
    let sp := 64 * (s.encUnit c).getD 0
    let rows := (s.f (F.ENC_CH_RC_LAT_LAT c) * 65536 + sp - 1) / max 1 sp + 2
    24 + 4 * rows + 3 * (fl.count c + (if extra = some c then 1 else 0)))).sum) + 3 * s.audioEntries

/-- The record check of R248. -/
def State.recFits (s : State) (extra : Option Nat) : Bool :=
  let ns := s.f F.TWN_ADOPT_ADOPT * s.clk.den * 1000000000 / max 1 (s.clk.num * s.clk.lm)
  decide (s.recMax extra * 32 ≤ (ns - 4000) * 380)

/-- R248 for the enable of flow f as the buffer holds it: checked when its channel is twinned. -/
def State.flowRecOk (s : State) (f : Nat) : Bool :=
  let c := bitsOf (s.rdn (R.EGS_FT_DATA 0)) 8 4
  !s.twinned c || efEn (s.egWords f) || s.recFits (some c)

/-- R238: may EN be set, with PORT as in the written value? -/
def State.twinEnableOk (s : State) (port : Nat) : Bool :=
  s.feature 4
    && ((List.range 16).any (fun q => s.f (F.LNE_QUAD_CTL_ROLE q) == 2 && s.f (F.LNE_QUAD_CTL_PORT q) == port))
    && s.rdn R.TWN_PAIR_TAG != 0
    && s.twinChans.all (fun c => decide (s.f F.TWN_ADOPT_ADOPT * 65536 ≤ s.originOf (R.MER_CH_ORIGIN c) + 64 * (s.encUnit c).getD 0))
    && s.recFits none

/-- The twin function stops: no channel is twinned any more, so what is held goes to the queues; HELM_OUT goes low. -/
def State.twinStop (s : State) : State :=
  let s := s.twinChans.foldl (fun t c => ((t.ownFlips c).mapHold c (fun h => if h.st = .drop then h else { h with st := .ok })).drain c) s
  let s := s.driveHelm false
  let s := (List.range 32).foldl (fun t c => t.wrn (R.TWN_CH_STATUS c) 0) s
  let s := { (s.setF F.TWN_STATUS_ROLE 0) with twn := { s.twn with waitV := none, claim := none, takeover := false, lost := false, peer := none, chs := [], own := none, rx := [], late := none } }
  (s.setFn fnTwn .off).twnUpdate

/-- TWN_CTL takes the value `new` (R238). -/
def State.twinWrite (s : State) (new : Word) : State :=
  let want := bitsOf new.toNat 0 0 == 1
  let have_ := s.on F.TWN_CTL_EN
  let port := bitsOf new.toNat 3 1
  if bitsOf new.toNat 15 8 = 0 then s.refuse 0x0C
  else if have_ && port != s.f F.TWN_CTL_PORT then s.refuse 0x0C
  else if want && !have_ then
    if !s.twinEnableOk port then s.refuse 0x0C
    else
      let s := ((s.wr R.TWN_CTL new).wrn R.TWN_REC_MAX (s.recMax none)).setFn fnTwn .starting
      let s := { (s.setF F.TWN_STATUS_ROLE 1) with twn := { s.twn with lastTx := s.clk.ns, lastRx := s.clk.ns, lost := false } }
      s.twnUpdate
  else if !want && have_ then (s.wr R.TWN_CTL new).twinStop
  else s.wr R.TWN_CTL new

/-! ## Slices and their digests (R201, R241-R243) -/

/-- The byte string of R241 and its CRC. -/
def SliceUnits.digest (u : SliceUnits) : Nat :=
  let pre := if u.first then (match u.eos139 with | some e => [e] | none => []) ++ u.pre else []
  let units := pre ++ [u.data] ++ (match u.hash with | some h => [h] | none => []) ++ u.suf
  crc32c ([u.ch % 256] ++ leBytes u.k 6 ++ leBytes u.slice 2 ++ units.flatten)

/-- The digest entry of a slice (R242). -/
def SliceUnits.entry (u : SliceUnits) : TwinEntry :=
  { ch := u.ch, slice := u.slice, floorCtu := u.floorCtu, standIn := u.standIn, k := u.k, bits := u.bits, digest := u.digest }

/-- Remember a released slice's own digest; those older than 72 µs are forgotten. -/
def State.rememberDigest (s : State) (u : SliceUnits) : State :=
  let x := s.tch u.ch
  let d : OwnDigest := { k := u.k, slice := u.slice, digest := u.digest, standIn := u.standIn, ns := s.clk.ns, last := u.last }
  s.setTch u.ch { x with own := x.own.filter (fun (o : OwnDigest) => decide (s.clk.ns ≤ o.ns + 72000)) ++ [d],
                         early := x.early.filter (fun e => decide (s.clk.ns ≤ e.1 + 72000)) }

/-- Slices of a picture of channel c. -/
def State.picSlices (s : State) (c : Nat) : Nat := s.f (F.ENC_CH_LAYOUT_NCOL c) * s.ctuN c

/-- P in force for channel c. -/
def State.chanPer (s : State) (c : Nat) : Nat := (s.encCh c).per

/-- R254: a slice of picture k matched or failed on a QUIET channel; a picture whose every slice matched counts. -/
def State.matchSlice (s : State) (c k : Nat) (ok : Bool) : State :=
  if s.twinState c ≠ 3 then s else
  let x := s.tch c
  let p := (x.pics.find? (fun (p : MatchPic) => p.k == k)).getD { k := k, n := 0, bad := (match x.badK with | some b => decide (k ≤ b) | none => false) }
  let p : MatchPic := { p with n := if ok then p.n + 1 else p.n, bad := p.bad || !ok }
  let others := x.pics.filter (fun (q : MatchPic) => q.k != k)
  if p.bad then (s.setTch c { x with pics := others ++ [p], resync := false }).setF (F.TWN_CH_STATUS_MATCH c) 0
  else if p.n = s.picSlices c then
    let m := min 1024 (s.f (F.TWN_CH_STATUS_MATCH c) + 1)
    (s.setTch c { x with pics := others, resync := x.resync || decide (s.chanPer c ≤ m) }).setF (F.TWN_CH_STATUS_MATCH c) m
  else s.setTch c { x with pics := others ++ [p] }

/-- Does an entry match a slice's own digest? A stand-in on either module is a mismatch (R253). -/
def entryOk (e : TwinEntry) (digest : Nat) (standIn : Bool) : Bool := e.digest == digest && !e.standIn && !standIn

/-- R244: the job of an entry takes the Helm's size and floor-mode count, with the stamp of their arrival. -/
def State.helmSizes (s : State) (e : TwinEntry) : State :=
  match s.allJobs.find? (fun (b : Job) => b.ch == e.ch && b.k % 2 ^ 48 == e.k && b.slice == e.slice) with
  | some b => s.setJob b.idx (some { b with helm := some (e.bits, e.floorCtu), helmV := s.clk.vpos })
  | none => s

/-- An entry meets the own slice that it names, which has been released (R243, R254). -/
def State.meetEntry (s : State) (c : Nat) (o : OwnDigest) (e : TwinEntry) : State :=
  let ok := entryOk e o.digest o.standIn
  let x := s.tch c
  let s := s.setTch c { x with own := x.own.map (fun (q : OwnDigest) => if q.k = o.k ∧ q.slice = o.slice then { q with done := true } else q) }
  let held := (s.tch c).hold.any (fun h => h.u.k % 2 ^ 48 == o.k % 2 ^ 48 && h.u.slice == o.slice && (h.st == .wait || h.st == .late))
  if ok then
    let s := if held then (s.bump R.TWN_MATCH_CNT) else s
    let s := s.mapHold c (fun h => if h.u.k = o.k ∧ h.u.slice = o.slice ∧ (h.st = .wait ∨ h.st = .late) then { h with st := .ok } else h)
    (s.drain c).matchSlice c o.k true
  else
    let s := s.mapHold c (fun h => if h.u.k = o.k ∧ h.u.slice = o.slice ∧ h.st ≠ .ok then { h with st := .drop } else h)
    (s.mismatch c).matchSlice c o.k false

/-- One entry of a received flit (R243). -/
def State.takeEntry (s : State) (e : TwinEntry) : State :=
  if !s.twinned e.ch then s else
  if s.role = 3 then s else
  let s := if s.role = 2 then s.helmSizes e else s
  let x := s.tch e.ch
  match x.own.find? (fun (o : OwnDigest) => o.k % 2 ^ 48 == e.k && o.slice == e.slice && decide (s.clk.ns ≤ o.ns + 72000)) with
  | some o => if s.role = 2 ∧ o.done = false then s.meetEntry e.ch o e else s
  | none => s.setTch e.ch { x with early := x.early ++ [(s.clk.ns, e)] }

/-- R201, R242, R243, R251, R253: a slice is released: to the queues, to the hold, or discarded with its numbers consumed. -/
def State.releaseSlice (s : State) (u : SliceUnits) : State :=
  let b := s.slicePackets u
  let s := b.1
  let c := u.ch
  if !s.twinned c then s.queueSlice u b.2
  else if s.hasGivenUp then s
  else if s.role = 4 then ((s.queueSlice u b.2).rememberDigest u)
  else
    let h : HeldSlice := { u := u, pkts := b.2, ns := s.clk.ns, st := if s.role = 3 then .claim else .wait }
    let x := s.tch c
    if s.role = 3 then
      (if s.twn.takeover || x.hold != [] then s.setTch c { x with hold := x.hold ++ [h] } else s.queueSlice u b.2).rememberDigest u
    else if s.role = 2 then
      let s := s.rememberDigest u
      let s := if s.twinState c = 3 then s else (let x := s.tch c; s.setTch c { x with hold := x.hold ++ [h] })
      let x := s.tch c
      match x.early.find? (fun e => e.2.k == u.k % 2 ^ 48 && e.2.slice == u.slice && decide (s.clk.ns ≤ e.1 + 72000)) with
      | some e =>
        let s := s.setTch c { x with early := x.early.filter (fun q => q.2 != e.2) }
        s.meetEntry c { k := u.k, slice := u.slice, digest := u.digest, standIn := u.standIn, ns := s.clk.ns, last := u.last } e.2
      | none => s
    else s.queueSlice u b.2

/-- The units of slice b of picture p (R146, R220). -/
def State.unitsOf (s : State) (n : Nat) (p : PicSt) (b : Job) (hash : List Nat) (eos : List Nat) : SliceUnits :=
  let w := s.colW n
  let hevc := s.on (F.ENC_CH_CTL_CODEC n)
  let band := bandOf (s.rowH n) 0 0 b.row
  let bytes := nalUnit hevc
  let e139 := match p.prefixUnits with | u :: _ => if u.kind = .eos then some (bytes u) else none | [] => none
  let pre := ((if e139.isSome then p.prefixUnits.tail else p.prefixUnits)).map bytes
  let hashOn := bitsOf (p.w 0) 7 7 == 1
  let last := b.row + 1 == s.ctuN n && b.col + 1 == w.length
  let data := match b.out with | some o => o.data | none => []
  let suf := (if last && hevc && hashOn then [hash] else []) ++ (if last && p.last then [eos] else [])
  { ch := n, k := p.k, startV := p.startV, rel := b.rel, row := b.row, col := b.col, slice := b.slice, first := b.slice == 0, last := last,
    ps := p.prefixUnits.any (fun (u : Nal) => u.kind == .sps), eos139 := e139, pre := pre, data := data,
    hash := if !hevc && hashOn && b.row + 1 == band.2.1 + band.2.2 then some hash else none, suf := suf,
    bits := (b.sizesAt s.clk.vpos).1, floorCtu := (b.sizesAt s.clk.vpos).2, standIn := b.st == .standIn }

/-- The decoded picture hash that slice b may bring (R145): of its subpicture, in a scalable nesting SEI that names it; in HEVC of the picture. -/
def State.hashNal (s : State) (n : Nat) (p : PicSt) (b : Job) : List Nat :=
  let hevc := s.on (F.ENC_CH_CTL_CODEC n)
  let band := bandOf (s.rowH n) 0 0 b.row
  nalUnit hevc { kind := .picHash, vals := if hevc then s.hashVals n p.buf (s.picBox n)
    else (band.1 * (s.colW n).length + b.col) :: s.hashVals n p.buf (s.subRect n b.row b.col) }

/-- One slice of a row is released: SLICE_CNT, its state, the release itself. -/
def State.releaseJob (s : State) (n : Nat) (p : PicSt) (b : Job) : State :=
  let u := s.unitsOf n p b (s.hashNal n p b) (nalUnit (s.on (F.ENC_CH_CTL_CODEC n)) { kind := .eos, vals := [] })
  let s := s.bump (R.ENC_CH_SLICE_CNT n)
  let s := if b.st = .standIn then s else s.updJob { b with st := .released }
  (s.trk 8 (b.pipe.getD 0) false (some b) 0).releaseSlice u

/-- The digest entries of a row go out, up to 11 in a flit (R242). -/
def State.sendEntries (s : State) : Nat → List TwinEntry → State
  | 0, _ => s
  | fuel + 1, es => if es = [] then s else State.sendEntries (s.sendDigest (es.take 11)) fuel (es.drop 11)

/-- The slices of a row that may leave: all, or on a channel that failed those before the first incomplete one (R199). -/
def leaving (cut : Bool) (bs : List Job) : List Job := if cut then bs.takeWhile Job.complete else bs

/-- R201: at its release position, the next row of channel n hands its slices over, in slice order. -/
def State.sliceRelease (s : State) (n : Nat) : State :=
  let x := s.encCh n
  match x.rows.find? (fun r => !r.released) with
  | none => s
  | some r =>
    let bs := r.jobs.filterMap s.job
    if !r.budgeted || !(x.cut || bs.all Job.complete) then s else
    match s.toPos 8 r.rel, x.picOf r.rho with
    | some s, some p =>
      let go := leaving x.cut bs
      let s := s.setEnc n (x.mapRow r.rho (fun (q : RowSt) => { q with released := true }))
      let s := if go.length < bs.length then s.setEnc n { s.encCh n with cut := true } else s
      let s := go.foldl (fun t b => t.releaseJob n p b) s
      if s.twinned n && s.role == 4 && !s.hasGivenUp then
        let es := go.map (fun (b : Job) => ((s.unitsOf n p b [] []).entry))
        let ds := (s.tch n).own.filter (fun (o : OwnDigest) => o.k == p.k)
        s.sendEntries es.length (es.map (fun (e : TwinEntry) =>
          { e with digest := match ds.find? (fun (o : OwnDigest) => o.slice == e.slice) with | some o => o.digest | none => e.digest }))
      else s
    | _, _ => s

/-! ## Flits, timeouts (R239, R242, R243) -/

/-- A digest flit is received: the partner's role word, then its entries. -/
def State.digestReceive (s : State) (f : TwinFlit) : State :=
  if s.role = 0 then s else
  let tagBad := f.tag != s.rdn R.TWN_PAIR_TAG
  let strapBad := f.first == s.pins.twinFirst
  let was := s.twn.peer
  let newTag := tagBad && (match was with | some p => p.tag == s.rdn R.TWN_PAIR_TAG | none => true)
  let newStrap := strapBad && (match was with | some p => p.first != s.pins.twinFirst | none => true)
  let s := { s with twn := { s.twn with lastRx := s.clk.ns, lost := false, peer := some { role := f.role, sync := f.sync, first := f.first, tag := f.tag } } }
  let s := if newTag then s.setF F.TWN_FLAGS_TAG 1 else s
  let s := if newStrap then s.setF F.TWN_FLAGS_STRAP 1 else s
  let s := if newTag || newStrap then s.raise 0x0C0B 0 else s
  let s := s.twnUpdate
  let s := if (f.role == 2 || f.role == 3) && (s.role == 3 || s.role == 4) then s.contend else s
  f.entries.foldl State.takeEntry s

/-- R242: 4 µs without a digest flit: one without entries goes out. -/
def State.emptyDigest (s : State) : State := if s.role = 0 then s else (s.toNs (s.twn.lastTx + 4000)).sendDigest []

/-- R242: no Twin flit for 16 µs: the link is lost. -/
def State.twinLinkLost (s : State) : State :=
  if s.role = 0 || s.twn.lost then s else
  let s := s.toNs (s.twn.lastRx + 16000)
  let s := { ((s.setF F.TWN_FLAGS_LINK_LOST 1).raise 0x0C0A 0) with twn := { s.twn with lost := true } }
  (if s.role == 2 then s.twinChans.foldl (fun (t : State) c => t.quiet c 2) s else s).twnUpdate

/-- R243: t_r + T_D passes for the oldest waiting slice of channel n: a claim when HELM_IN is low, else it is late. -/
def State.digestTimeout (s : State) (n : Nat) : State :=
  if s.role ≠ 2 then s else
  match (s.tch n).hold.find? (fun h => h.st == .wait) with
  | none => s
  | some h =>
    let s := s.toNs (h.ns + s.f F.TWN_DIG_TO_T_D * 1000)
    if !s.pins.helmIn && !s.hasGivenUp then s.claim true
    else
      let s := s.mapHold n (fun q => if q.u.k = h.u.k ∧ q.u.slice = h.u.slice then { q with st := .late } else q)
      s.twnNote R.TWN_LATE_CNT F.TWN_FLAGS_LATE 0x0C04 n

/-- R243, R254: the late window of channel n's oldest late slice ends: it is discarded; on a QUIET channel the picture of the
oldest slice without an entry is not matched. -/
def State.lateWindowEnd (s : State) (n : Nat) : State :=
  if s.role ≠ 2 then s else
  let win := s.f F.TWN_DIG_TO_T_D * 1000 + 32000
  match (s.tch n).hold.find? (fun h => h.st == .late) with
  | some h =>
    let s := s.toNs (h.ns + win)
    let s := s.mapHold n (fun q => if q.u.k = h.u.k ∧ q.u.slice = h.u.slice then { q with st := .drop } else q)
    (s.twnNote R.TWN_DISCARD_CNT F.TWN_FLAGS_DISCARD 0x0C05 n).drain n
  | none =>
    if s.twinState n ≠ 3 then s else
    match (s.tch n).own.find? (fun (o : OwnDigest) => !o.done) with
    | none => s
    | some o =>
      let s := s.toNs (o.ns + win)
      let x := s.tch n
      let s := s.setTch n { x with own := x.own.map (fun (q : OwnDigest) => if q.k = o.k ∧ q.slice = o.slice then { q with done := true } else q) }
      s.matchSlice n o.k false

/-- R254: at its next frame start, a channel with P matched pictures becomes LOOKOUT. -/
def State.channelResync (s : State) (n : Nat) : State :=
  if s.role ≠ 2 || s.twinState n ≠ 3 || !(s.tch n).resync then s else
  match s.toChanStart 2 n with
  | none => s
  | some (s, _, _) =>
    let x := s.tch n
    ((s.setTch n { x with resync := false, pics := [] }).setF (F.TWN_CH_STATUS_STATE n) 1).raise 0x0C07 n |>.twnUpdate

/-! ## Giving up (R250) -/

/-- TWN_CMD.GIVE_UP. -/
def State.twinGiveUp (s : State) : State := s.giveUp 7 0xFF 0 9

/-- The twin watchdog of Binnacle expires; it watches a module whose twin function runs. -/
def State.twinWatchdog (s : State) : State := if s.role = 0 then s else s.giveUp 1 0xFF 0 0

/-- The two digest engines disagree on a slice of channel n. -/
def State.digestDisagree (s : State) (n : Nat) : State := if s.twinned n then s.giveUp 3 0xFF 0 n else s

/-! ## Registers -/

/-- Writes of TWN registers that have rules of their own. -/
def State.twnReg (s : State) (a : Nat) (v : Word) : Option State :=
  if a = R.TWN_CTL then some (s.twinWrite v)
  else if a = R.TWN_CMD then some (if bitsOf v.toNat 0 0 = 1 then s.twinGiveUp else s)
  else if (a == R.TWN_CH_MASK || a == R.TWN_PAIR_TAG || a == R.TWN_ADOPT) && s.on F.TWN_CTL_EN then some (s.refuse 0x0C)
  else none

end Sys2Proof.Machine
end

