-- ==== Sys2Proof/Machine/Ps.lean ====
section
/-!
DEFINITION. Sys2Proof/Machine/Ps.lean: what the non-slice units of an access unit say (R130, R131, R136, R144–R146, R176): the group picture of a
canvas member, the level, the values of VPS, SPS, PPS, picture header and SEI messages, each list in the order of its table of the spec.
-/

namespace Sys2Proof.Machine

/-! ## The group picture of a canvas member (R258, R260) -/

/-- Grid of the group: rows, columns. -/
def State.cnvRows (s : State) : Nat := s.f F.CNV_GRID_ROWS_M1 + 1
def State.cnvCols (s : State) : Nat := s.f F.CNV_GRID_COLS_M1 + 1

/-- Subpicture column widths of torus column j, and row heights of torus row i. -/
def State.tcWidths (s : State) (j : Nat) : List Nat := layoutWidths (s.rdn (R.CNV_TC_NCOL j) % 64) (fun h => s.rdn (R.CNV_TC_COLW j h))
def State.trHeights (s : State) (i : Nat) : List Nat := layoutHeights (s.rdn (R.CNV_TR_NROW i) % 16) (fun g => s.rdn (R.CNV_TR_ROWH i g))

/-- The group subpicture grid (R258). -/
def State.groupCols (s : State) : List Nat := (List.range s.cnvCols).flatMap s.tcWidths
def State.groupRows (s : State) : List Nat := (List.range s.cnvRows).flatMap s.trHeights

/-- The layout that a channel's parameter sets describe: its own, or the group's (R260). -/
def State.sigCols (s : State) (n : Nat) : List Nat := if (s.encCh n).member then s.groupCols else s.colW n
def State.sigRows (s : State) (n : Nat) : List Nat := if (s.encCh n).member then s.groupRows else s.rowH n

/-- The picture size that the parameter sets signal: for a member the sum over its torus (R259, R260), its own last column and
row giving the partial CTU where it has them. -/
def State.sigSize (s : State) (n : Nat) : Nat × Nat :=
  let w := s.f (F.ENC_CH_SIZE_W n)
  let h := s.f (F.ENC_CH_SIZE_H n)
  if (s.encCh n).member then
    let cols := (List.range s.cnvCols).map (fun j => if j = s.f F.CNV_GRID_MY_COL then w else 64 * (s.tcWidths j).sum)
    let rows := (List.range s.cnvRows).map (fun i => if i = s.f F.CNV_GRID_MY_ROW then h else 64 * (s.trHeights i).sum)
    (cols.sum, rows.sum)
  else (w, h)

/-- The rate and CPB that the HRD signals (R175, R176, R260): bit rate, i90, cpb_s. -/
def State.sigHrd (s : State) (n : Nat) : Nat × Nat × Nat :=
  if (s.encCh n).member then
    let br := s.rdn R.CNV_GRATE % 2 ^ 23 * 1000000
    let hs := (List.range s.cnvRows).map (fun i => if i = s.f F.CNV_GRID_MY_ROW then s.f (F.ENC_CH_SIZE_H n) else 64 * (s.trHeights i).sum)
    let x := s.hrdOf n br (hs.foldl max 0) false
    (br, x.1, x.2)
  else (s.chanBr n, (s.hrd n).1, (s.hrd n).2)

/-! ## Level (R131) -/

/-- The level that channel n signals (R131): none where no level up to 6.2 admits it. -/
def State.encLevel (s : State) (n : Nat) : Option Nat :=
  let sz := s.sigSize n
  let cols := s.sigCols n
  let rows := s.sigRows n
  let h := s.sigHrd n
  let slices := cols.length * (rows.sum)
  let luma := ceilDiv (sz.1 * sz.2 * s.f (F.ENC_CH_RATE_NUM n)) (max 1 (s.f (F.ENC_CH_RATE_DEN n)))
  pickLevel (s.on (F.ENC_CH_CTL_CODEC n)) (s.on (F.ENC_CH_CTL_TIER n)) (s.f (F.ENC_CH_FORMAT_CHROMA n)) (s.f (F.ENC_CH_FORMAT_DEPTH n))
    (s.f (F.ENC_CH_CTL_LEVEL_MIN n)) sz.1 sz.2 luma slices cols.length rows.length h.1 h.2.2

/-- The lowest level that admits each subpicture by its size, its sample rate and its slices, in raster order (R131; assumption 84). -/
def State.subpicLevels (s : State) (n : Nat) : List Nat :=
  let sz := s.sigSize n
  let cols := s.sigCols n
  let rows := s.sigRows n
  let left := fun (l : List Nat) (i : Nat) => 64 * (l.take i).sum
  (List.range rows.length).flatMap (fun y => (List.range cols.length).map (fun x =>
    let w := min (64 * cols.getD x 0) (sz.1 - left cols x)
    let h := min (64 * rows.getD y 0) (sz.2 - left rows y)
    let luma := ceilDiv (w * h * s.f (F.ENC_CH_RATE_NUM n)) (max 1 (s.f (F.ENC_CH_RATE_DEN n)))
    (pickLevel (s.on (F.ENC_CH_CTL_CODEC n)) (s.on (F.ENC_CH_CTL_TIER n)) (s.f (F.ENC_CH_FORMAT_CHROMA n)) (s.f (F.ENC_CH_FORMAT_DEPTH n))
      0 w h luma (rows.getD y 0) 1 1 0 0).getD 255))

/-! ## Parameter sets (R136, R144, R176) -/

/-- The values that bring the parameter sets when a staged change of them takes effect (R146). -/
def State.psFields (s : State) (n : Nat) : List Nat :=
  [s.fs (F.ENC_CH_CTL_NUM_REF n), s.fs (F.ENC_CH_CTL_HDR_SEI n), (s.inForce (R.ENC_CH_CQP n)).toNat, (s.inForce (R.ENC_CH_DBK n)).toNat]
    ++ (List.range 6).map (fun j => (s.inForce (R.ENC_CH_MDCV n j)).toNat) ++ [(s.inForce (R.ENC_CH_CLL n)).toNat]

/-- general_profile_idc, the tier, general_level_idc and, for the HEVC format range extensions profiles, the constraint flags (R130, R131); all other
constraint flags are 0. -/
def State.ptlVals (s : State) (n : Nat) : List Nat :=
  [s.f (F.ENC_CH_STATUS_PROFILE n), s.f (F.ENC_CH_CTL_TIER n), s.f (F.ENC_CH_STATUS_LEVEL n)]
    ++ (if s.on (F.ENC_CH_CTL_CODEC n) && s.f (F.ENC_CH_STATUS_PROFILE n) == 4 then rangeFlags (s.f (F.ENC_CH_FORMAT_CHROMA n)) (s.f (F.ENC_CH_FORMAT_DEPTH n)) else [])

/-- The HRD of R176: tick and time scale; NAL 1, VCL 0, one CPB, cbr_flag 0, low_delay_hrd_flag 0; bit rate, CPB size, and those of the DUs; fixed picture
rate 1 and elemental duration; DU HRD, tick_divisor_minus2 0, DU parameters in the picture timing SEI 1; the 32-bit delay lengths. -/
def State.hrdVals (s : State) (n : Nat) : List Nat :=
  let h := s.sigHrd n
  let lc := (s.encLines n).getD 0
  [(s.chanRate n).2, (s.chanRate n).1 * lc, 1, 0, 1, 0, 0, h.1, h.2.2, h.1, h.2.2, 1, lc - 1]
    ++ (if s.duHrd n then [1, 0, 1] else [0]) ++ [32, 32, 32]

/-- Colour primaries, transfer characteristics and matrix coefficients of COLOUR (R144), full range 0, chroma location 0. -/
def State.vuiVals (s : State) (n : Nat) : List Nat :=
  (match s.f (F.ENC_CH_FORMAT_COLOUR n) with
    | 0 => [1, 1, 1]
    | 1 => [9, if s.f (F.ENC_CH_FORMAT_DEPTH n) = 2 then 15 else 14, 9]
    | 2 => [9, 16, 9]
    | _ => [9, 18, 9]) ++ [0, 0]

/-- The parameter-set structures of the reference lists (R140, R144): structure j holds j + 1 entries of delta POC −1. -/
def listStructs : List Nat := 4 :: (List.range 4).flatMap (fun j => (j + 1) :: List.replicate (j + 1) 1)

/-- The VPS of HEVC: its ID, sub-layers, picture buffering, reordering, then profile, tier and level (R144). -/
def State.vpsVals (s : State) (n : Nat) : List Nat := [0, 0, 4, 0] ++ s.ptlVals n

/-- The SPS of VVC (R136, R144): IDs, sub-layers, profile, format, CTU and coding block sizes, picture size; subpictures, each treated as a picture with no
loop filter across its edge; GDR, POC, picture buffering, lists, HRD; the tools that are on, the explicit MTS flags, six_minus_max_num_merge_cand, the
tools that are off; VUI. -/
def State.spsVvc (s : State) (n : Nat) : List Nat :=
  let sz := s.sigSize n
  let subs := (s.sigCols n).length * (s.sigRows n).length
  [0, 0, 0] ++ s.ptlVals n ++ [s.f (F.ENC_CH_FORMAT_CHROMA n), 2 * s.f (F.ENC_CH_FORMAT_DEPTH n), 1, 1, sz.1, sz.2]
    ++ (if subs ≤ 1 then [0] else [1, 1] ++ (List.replicate subs [1, 0]).flatten ++ [Nat.log2 (subs - 1), 0])
    ++ [1, 12, 4, 0, 0] ++ listStructs ++ [1, 1] ++ s.hrdVals n ++ List.replicate 14 1 ++ [0, 0, 0] ++ List.replicate 31 0 ++ s.vuiVals n

/-- The SPS of HEVC (R144): ID, sub-layers, buffering, reordering, profile, format, size, block sizes, hierarchy depths, POC, lists; the flags that are 1, those
that are 0; VUI with field_seq_flag 0; HRD. -/
def State.spsHevc (s : State) (n : Nat) : List Nat :=
  [0, 0, 4, 0] ++ s.ptlVals n ++ [s.f (F.ENC_CH_FORMAT_CHROMA n), 2 * s.f (F.ENC_CH_FORMAT_DEPTH n), 2 * s.f (F.ENC_CH_FORMAT_DEPTH n),
    s.f (F.ENC_CH_SIZE_W n), s.f (F.ENC_CH_SIZE_H n), 0, 3, 0, 3, 1, 1, 12] ++ listStructs ++ [1, 1, 1, 1] ++ [0, 0, 0, 0, 0]
    ++ s.vuiVals n ++ [0, 1] ++ s.hrdVals n

/-- The SPS (R144). -/
def State.spsVals (s : State) (n : Nat) : List Nat := if s.on (F.ENC_CH_CTL_CODEC n) then s.spsHevc n else s.spsVvc n

/-- The deblocking offsets of ENC_CH_n_DBK in force, and the chroma QP offsets of ENC_CH_n_CQP (R150): the fields as they are. -/
def State.dbkField (s : State) (n i : Nat) : Nat := bitsOf (s.inForce (R.ENC_CH_DBK n)).toNat (5 * i + 4) (5 * i)
def State.cqpField (s : State) (n i : Nat) : Nat := bitsOf (s.inForce (R.ENC_CH_CQP n)).toNat (5 * i + 4) (5 * i)

/-- The PPS of VVC (R133, R136, R144): ID, partition, tiles, slices per tile, loop filters across tiles and slices, active references, QP, deblocking, what
the picture header carries. -/
def State.ppsVvc (s : State) (n : Nat) : List Nat :=
  let cs := s.sigCols n
  let rs := s.sigRows n
  [0, 0, cs.length - 1, rs.length - 1] ++ cs.map (· - 1) ++ rs.map (· - 1) ++ [1, 0] ++ (List.replicate (cs.length * rs.length) [1, 0]).flatten ++ [0, 1]
    ++ [s.fs (F.ENC_CH_CTL_NUM_REF n), s.fs (F.ENC_CH_CTL_NUM_REF n), 0, 1, s.cqpField n 0, s.cqpField n 1, 1, 0, 0]
    ++ (List.range 4).map (s.dbkField n) ++ [1, 1, 0, 0]

/-- The PPS of HEVC (R133, R136, R144): ID, tiles, loop filters across tiles and slices, the flags that are set, those that are 0, active references, QP,
deblocking, parallel merge. -/
def State.ppsHevc (s : State) (n : Nat) : List Nat :=
  let cs := s.colW n
  let rs := s.rowH n
  [0] ++ (if cs.length * rs.length ≤ 1 then [0] else [1, 0, cs.length - 1, rs.length - 1] ++ cs.map (· - 1) ++ rs.map (· - 1) ++ [0]) ++ [1, 1, 1, 0]
    ++ List.replicate 6 0 ++ [s.fs (F.ENC_CH_CTL_NUM_REF n), s.fs (F.ENC_CH_CTL_NUM_REF n), 0, s.cqpField n 0, s.cqpField n 1, 1, 0]
    ++ (List.range 2).map (s.dbkField n) ++ [0]

/-- The PPS (R144). -/
def State.ppsVals (s : State) (n : Nat) : List Nat := if s.on (F.ENC_CH_CTL_CODEC n) then s.ppsHevc n else s.ppsVvc n

/-- The picture header of VVC (R137, R138, R144): GDR or IRAP, GDR, the POC's low bits, the recovery count, inter slices, intra slices, ALF with its APS, its chroma
flags, cu_qp_delta_subdiv, SAO. -/
def headerVals (k phase recov : Nat) (alf : Bool) : List Nat :=
  let g := if phase = 0 then 1 else 0
  let a := if alf then 1 else 0
  [g, g, k % 65536, recov, 1, 0, 1, a, 0, a, a, 0, 1, 1]

/-! ## SEI messages (R145, R176) -/

/-- The prefix SEI messages of an access unit, each as its place in the table of R145 with its values; the DUs where DU HRD is present. -/
def State.seiVals (s : State) (n : Nat) (bp ps rp : Bool) (since recov : Nat) : List Nat :=
  let hevc := s.on (F.ENC_CH_CTL_CODEC n)
  let h := s.sigHrd n
  let lc := (s.encLines n).getD 0
  let u := max 1 ((s.encUnit n).getD 0)
  let nn := s.ctuN n
  let du := if s.duHrd n then nn :: 0 :: (List.range (nn - 1)).map (fun i => 2 * ((s.rowA n 0 (i + 1) - s.rowA n 0 i) / u) - 1) else []
  let subs := (s.sigCols n).length * (s.sigRows n).length
  (if bp then [1, h.2.1, 0] else []) ++ [2, lc * since - 1, 0] ++ du ++ (if rp then [3, recov, 1, 0] else [])
    ++ (if ps && !hevc && decide (1 < subs) then 4 :: s.subpicLevels n else []) ++ (if ps && hevc && decide (1 < subs) then [5, 1] else [])
    ++ (if ps && s.fs (F.ENC_CH_CTL_HDR_SEI n) == 1 then
      6 :: (List.range 6).map (fun j => (s.inForce (R.ENC_CH_MDCV n j)).toNat) ++ [7, (s.inForce (R.ENC_CH_CLL n)).toNat] else [])

end Sys2Proof.Machine
end

