-- ==== Sys2Proof/Machine/Enc.lean ====
section
/-!
DEFINITION. Sys2Proof/Machine/Enc.lean: the life of encode channels and the start of pictures (spec/07_encoding_core.md, with the enable
checks of chapters 1, 8, 9 and 10): admission, READY, coded video sequences, restarts, refresh, references, the non-slice
units of an access unit, disable and drain.
-/

namespace Sys2Proof.Machine

/-! ## Admission (R23, R24, R130-R133, R147, R163-R165, R172-R176, R180, R196, R200, R302) -/

/-- Format, size and rate of channel n (R24, R35, R130, R132). -/
def State.encFormatOk (s : State) (n : Nat) : Bool :=
  let w := s.f (F.ENC_CH_SIZE_W n)
  let h := s.f (F.ENC_CH_SIZE_H n)
  let num := s.f (F.ENC_CH_RATE_NUM n)
  let den := s.f (F.ENC_CH_RATE_DEN n)
  s.feature (if s.on (F.ENC_CH_CTL_CODEC n) then 1 else 0)
    && (s.f (F.COMP_CH_CTL_MATRIX n) == 0) == (s.f (F.ENC_CH_FORMAT_COLOUR n) == 0)
    && (s.f (F.ENC_CH_FORMAT_CHROMA n) != 2 || s.feature 2) && (s.f (F.ENC_CH_FORMAT_DEPTH n) != 2 || s.feature 3)
    && w % 8 == 0 && h % 8 == 0 && decide (64 ≤ w) && decide (w ≤ 8192) && decide (64 ≤ h) && decide (h ≤ 4352)
    && decide (w * h ≤ 35651584) && decide (num ≤ 240 * den) && (decide (w * h ≤ 8912896) || decide (num ≤ 120 * den))
    && (s.encUnit n).isSome

/-- The checks of an enable of channel n, the fetch limit of R108 at its rate among them; `s` already holds EN = 1. -/
def State.encEnableOk (s : State) (n : Nat) : Bool :=
  let hevc := s.on (F.ENC_CH_CTL_CODEC n)
  let st := stackOf (s.refAddr n)
  s.encFormatOk n && s.encBudgetOk 1 1 && s.layoutOk n
    && (!hevc || (s.encLevel n).isSome)
    && decide (s.latMin n 4 ≤ s.f (F.ENC_CH_RC_LAT_LAT n)) && s.f (F.ENC_CH_RC_RATE_BR n) != 0
    && (!hevc || decide (s.f (F.ENC_CH_RC_QP_QP_MAX n) ≤ 51))
    && decide (s.f (F.ENC_CH_RATE_NUM n) * (s.encLines n).getD 0 ≤ 4294967295)
    && s.floorsOkNow n && s.lagOk s.firstRunPipes ((List.range 32).filter (fun m => m == n || s.lagChans.contains m))
    && s.refRegionOk n && s.poolFits st (s.encDemand n) && decide (s.seqNeed n ≤ 128)
    && (!s.twinned n || s.recFits none) && decide (s.compLoad 32 ≤ 48000000000)

/-- The load registers of R23. -/
def State.encLoads (s : State) : State :=
  let t := s.encSums 1 1 (List.range 32)
  (s.wrn R.ENC_LOAD_PIX (t.1 / 1000000)).wrn R.ENC_LOAD_SMP (t.2 / 2 / 1000000)

/-- STATUS.LEVEL and PROFILE of a channel that signals (R130, R131). -/
def State.encSignal (s : State) (n : Nat) : State :=
  let p := profileIdc (s.on (F.ENC_CH_CTL_CODEC n)) (s.f (F.ENC_CH_FORMAT_CHROMA n)) (s.f (F.ENC_CH_FORMAT_DEPTH n))
  (s.setF (F.ENC_CH_STATUS_LEVEL n) ((s.encLevel n).getD 255)).setF (F.ENC_CH_STATUS_PROFILE n) p

/-- An admitted channel becomes STARTING: what it signals, its region and its pool demand (R147, R163, R302). -/
def State.encStart (s : State) (n : Nat) : State :=
  let lv := s.encLevel n
  let s := s.encSignal n
  let s := if lv.isNone then (s.setF F.ENC_FLAGS_LEVEL_UNC 1).raise 0x0806 n else s
  let s := (s.wrn (R.ENC_CH_REF_BUFS n) (s.refBufs n)).wrn (R.ENC_CH_REF_SIZE n) (s.refBufs n * s.encPicBytes n)
  let s := s.wrn (R.ENC_CH_RC_CPB n) (s.cpbBits n)
  let s := (s.poolTake (fnEnc n) (stackOf (s.refAddr n)) (s.encDemand n)).setFn (fnEnc n) .starting
  let s := s.setEnc n { member := (s.encCh n).member, per := s.fs (F.ENC_CH_GDR_PERIOD n), region := some (s.refReg n) }
  let s := s.encLoads.lagUpdate
  s.clockCheck s.firstRunPipes

/-- A channel enters OFF: its region, pool demand and jobs are given back, and the inputs of its pictures stop (R90). -/
def State.encOff (s : State) (n : Nat) : State :=
  let mem := (s.encCh n).member
  let dead := (s.allJobs.filter (fun (b : Job) => b.ch == n)).map (fun (b : Job) => b.idx)
  let s := (List.range 64).foldl (fun (t : State) p =>
    let x := t.pipe p
    let x := if (match x.running with | some j => dead.contains j | none => false) then { x with running := none, last := none } else x
    let x := if (match x.next with | some j => dead.contains j | none => false) then { x with next := none, stage := none } else x
    if x = t.pipe p then t else t.setPipe p x) s
  let s := dead.foldl (fun (t : State) j => t.setJob j none) s
  let s := (s.setEnc n { member := mem }).poolReturn (fnEnc n)
  let s := (s.setFn (fnEnc n) .off).wrn (R.ENC_CH_RC_CPB n) 0
  let s := (s.wrn (R.ENC_CH_REF_BUFS n) 0).wrn (R.ENC_CH_REF_SIZE n) 0
  let s := (s.setF (F.ENC_CH_STATUS_LEVEL n) 0).setF (F.DIS_CH_CTL_SHED n) 0
  let s := (s.flushHeld (R.ENC_CH_CTL n) 0x800).flushHeld (R.MER_CH_ORIGIN n) 4
  (s.encLoads.coolRetry).stopInputs n

/-- A disable stamped exactly at a channel frame start, whose picture has not started yet: that picture is still to come
and is the last (R149). -/
def State.encOwed (s : State) (n : Nat) : Bool :=
  let v := s.chanStart n (s.chanIdx n s.clk.vpos)
  s.clk.run && decide (v ≤ s.clk.vpos) && s.clk.classOk 2 v && !(s.encCh n).pics.any (fun (p : PicSt) => p.startV == v)

/-- Mark the newest picture of a channel as its last. -/
def EncCh.markLast (x : EncCh) : EncCh :=
  let last := (x.pics.getLast?).map (fun (p : PicSt) => p.startV)
  { x with owed := false, pics := x.pics.map (fun (p : PicSt) => if some p.startV = last then { p with last := true } else p) }

/-- The last picture of a channel that is disabled now (R149): that of the channel frame in progress. -/
def State.encDrain (s : State) (n : Nat) : State :=
  let x := { s.encCh n with stopV := some s.clk.vpos }
  let x : EncCh := if s.encOwed n then { x with owed := true } else x.markLast
  (s.setEnc n x).setFn (fnEnc n) .draining

/-- Does channel n still hold a row to release? -/
def State.encBusy (s : State) (n : Nat) : Bool := (s.encCh n).rows.any (fun r => !r.released)

/-- ENC_CH_n_CTL takes the value `new` (R131, R147–R149, R373). -/
def State.encWrite (s : State) (n : Nat) (new : Word) : State :=
  let want := bitsOf new.toNat 0 0 == 1
  let have_ := s.on (F.ENC_CH_CTL_EN n)
  let old := s.rdn (R.ENC_CH_CTL n)
  let fixed := fun (v : Nat) => (bitsOf v 2 1, bitsOf v 23 16)
  let hevc := bitsOf new.toNat 1 1 == 1
  let lvl := bitsOf new.toNat 23 16
  let t := (s.wr (R.ENC_CH_CTL n) new)
  if !levelMinOk hevc lvl then s.refuse 0x08
  else if have_ && fixed old != fixed new.toNat then s.refuse 0x08
  else if hevc && lvl != 0 && lvl != bitsOf old 23 16 && (t.encLevel n).isNone then s.refuse 0x08
  else
    let st := s.fn (fnEnc n)
    let put := if st = .off then t else s.stage (R.ENC_CH_CTL n) new s.clk.vpos
    match st, want && !have_, !want && have_ with
    | .off, true, _ => if t.encEnableOk n then t.encStart n else s.refuse 0x08
    | .draining, true, _ => put.setFn (fnEnc n) .pendingRestart
    | .pendingRestart, _, true => put.setFn (fnEnc n) .draining
    | .starting, _, true => put.encOff n
    | .fault, _, true => put.encOff n
    | .ready, _, true => if put.encBusy n || put.encOwed n then put.encDrain n else (put.encOff n).raise 0x0805 n
    | _, _, _ => put

/-- R149: the last slice of the last picture is released: OFF; a pending enable is checked again (R373). -/
def State.encDrained (s : State) (n : Nat) : State :=
  let st := s.fn (fnEnc n)
  if !(st == .draining || st == .pendingRestart) || s.encBusy n || (s.encCh n).owed then s
  else
    let t := (s.encOff n).raise 0x0805 n
    if st == .draining then t
    else if t.encEnableOk n then t.encStart n
    else (t.setF (F.ENC_CH_CTL_EN n) 0).refuse 0x08

/-! ## Pictures (R137-R146) -/

/-- The words of R208 in force for the picture that starts now. -/
def State.fpbWords (s : State) (n : Nat) : List Nat :=
  ([R.ENC_CH_CTL n, R.ENC_CH_FORMAT n, R.ENC_CH_GDR n, R.ENC_CH_DBK n, R.ENC_CH_CQP n, R.ENC_CH_LAYOUT n]
    ++ (List.range 4).map (fun j => R.ENC_CH_COLW n j) ++ (List.range 2).map (fun j => R.ENC_CH_ROWH n j)
    ++ [R.ENC_CH_RC_QP n, R.ENC_CH_RC_FLOOR n, R.ENC_CH_ME_RANGE n]).map (fun a => (s.inForce a).toNat)

/-- R144: the picture whose released rows give the ALF statistics: the latest earlier picture of the sequence with a row
whose release position lies strictly before `v`, with the number of such rows. -/
def EncCh.alfSource (x : EncCh) (v seqV : Nat) : Option (PicSt × Nat) :=
  x.pics.reverse.findSome? (fun (p : PicSt) =>
    let c := (p.rows.filter (fun (r : RowSt) => decide (r.rel < v))).length
    if seqV ≤ p.startV ∧ 0 < c then some (p, c) else none)

/-- The samples that the statistics are gathered over: of the first c rows of a picture, those above each row's bottom 8 luma lines, reconstructed and
source (R144). -/
def State.alfStats (s : State) (n : Nat) (q : PicSt) (c : Nat) : List Nat :=
  (q.rows.take c).flatMap (fun (r : RowSt) =>
    let box : Box := { x1 := s.f (F.ENC_CH_SIZE_W n), y0 := 64 * r.r, y1 := min (64 * r.r + 64) (s.f (F.ENC_CH_SIZE_H n)) - 8 }
    let k := (box.y1 - box.y0) / subY (s.f (F.ENC_CH_FORMAT_CHROMA n))
    (List.range 3).flatMap (fun comp => s.refSamples n q.buf comp box) ++ (r.jobs.filterMap s.job).flatMap (fun (b : Job) =>
      (b.src.y.take (box.y1 - box.y0)).flatten ++ (b.src.cb.take k).flatten ++ (b.src.cr.take k).flatten))

/-- The ALF APS that those statistics give, up to 948 bytes (R144, R208). -/
def alfAps (st : List Nat) : List Nat := (List.range (min 948 (Config.alfLen st))).map (fun i => Config.alfByte st i % 256)

/-- The rows of a picture (R134, R172, R179). -/
def State.picRows (s : State) (n rho v phase per : Nat) (edge : Option Nat) : List RowSt :=
  let fl := floorRow (s.colW n) per phase edge (bitsOf (s.inForce (R.ENC_CH_RC_FLOOR n)).toNat 15 0)
  (List.range (s.ctuN n)).map (fun r =>
    let a := s.rowA n v r
    { rho := rho + r, r := r, a := a, rel := a + s.f (F.ENC_CH_RC_LAT_LAT n) * 65536, fl := fl })

/-- What a picture's start decides (R139, R141): does it start a sequence, does it restart, does it take a new period. -/
structure StartKind where
  newSeq : Bool
  restart : Bool
  period : Bool
  deriving DecidableEq, Repr

/-- The decisions of R139 and R141 at the start of frame k at `v`. -/
def State.startKind (s : State) (n k v : Nat) : StartKind :=
  let x := s.encCh n
  let adv : Int := (k : Int) - x.k
  let newSeq := !x.started || x.seqDue || decide (adv ≤ 0) || decide (8192 ≤ adv)
  let want := x.restart.any (fun t => t == 0 || decide (t < v))
  let perNew := s.fs (F.ENC_CH_GDR_PERIOD n)
  let at0 := if x.member then k % max x.per perNew == 0 else (k + x.per - x.kg % x.per) % x.per == 0
  let may := !x.member || k % max x.per perNew == 0
  let rs := want && may && !newSeq
  { newSeq := newSeq, restart := rs, period := perNew != x.per && (newSeq || rs || at0) }

/-- A canvas member holds a sequence start to a k that is a multiple of P (R141). -/
def State.seqHeld (s : State) (n k : Nat) (kd : StartKind) : Bool :=
  kd.newSeq && (s.encCh n).member && k % max 1 (s.fs (F.ENC_CH_GDR_PERIOD n)) != 0

/-- The counters, flags and events of a start (R139, R141, R149). -/
def State.startEvents (s : State) (n : Nat) (kd : StartKind) : State :=
  if kd.newSeq then
    let s := s.bump (R.ENC_CH_CLVS_CNT n)
    if (s.encCh n).started then (s.setF F.ENC_FLAGS_CLVS 1).raise 0x0803 n else s
  else if kd.restart then ((s.bump (R.ENC_CH_RESTART_CNT n)).setF F.ENC_FLAGS_RESTART 1).raise 0x0802 n
  else s

/-- The buffers at the start of a picture at `v` (R166, R167): those still held, at a sequence start one filled with mid-grey, and the picture's own. -/
def State.takeBufs (s : State) (n v : Nat) (newSeq : Bool) (rel : Nat) : State × Option Nat × Nat :=
  let x := s.encCh n
  let b := s.rdn (R.ENC_CH_REF_BUFS n)
  let held := heldBufs v x.held []
  let g := pickBuf n (2 * x.rho) b held
  let held := if newSeq then { buf := g, rel := 0, gray := true } :: held else held
  let i := pickBuf n (2 * x.rho + 1) b held
  let s := s.setEnc n { x with held := { buf := i, rel := rel } :: held }
  if newSeq then (s.fillGray n g, some g, i) else (s, none, i)

/-- The non-slice units ahead of a picture's first slice (R139, R144–R146). -/
def State.picUnits (s : State) (n k : Nat) (kd : StartKind) (phase recov : Nat) (ps bp : Bool) (aps : Option (List Nat)) : List Nal :=
  let x := s.encCh n
  let hevc := s.on (F.ENC_CH_CTL_CODEC n)
  (if kd.newSeq && x.started then [{ kind := .eos, vals := [] }] else []) ++ [{ kind := .aud, vals := [s.f (F.ENC_CH_CTL_CODEC n)] }]
    ++ (if ps && hevc then [{ kind := .vps, vals := s.vpsVals n }] else [])
    ++ (if ps then [{ kind := .sps, vals := s.spsVals n }, { kind := .pps, vals := s.ppsVals n }] else [])
    ++ (match aps with | some l => [{ kind := .alf, vals := l }] | none => [])
    ++ [{ kind := .prefixSei, vals := s.seiVals n bp ps (hevc && phase == 0) x.sinceBp recov }]
    ++ (if hevc then [] else [{ kind := .pictureHeader, vals := headerVals k phase recov aps.isSome }])

/-- The picture of frame k that starts at `v` (R137–R146), with the state after it. -/
def State.newPicture (s : State) (n k v : Nat) (kd : StartKind) : State :=
  let x := s.encCh n
  let hevc := s.on (F.ENC_CH_CTL_CODEC n)
  let per := if kd.period || kd.newSeq then s.fs (F.ENC_CH_GDR_PERIOD n) else x.per
  let kg := if kd.newSeq || kd.restart || kd.period then k else x.kg
  let phase := (k - kg) % max 1 per
  let kI := if kd.newSeq then k else x.kI
  let i := if kd.newSeq then 0 else x.i
  let p0 := k - phase
  let edge := if phase = 0 || kd.newSeq then none else match x.ks.head? with | some r => if r.p0 = p0 ∧ r.gray = false then some (r.k - r.p0) else none | none => none
  let rows := s.picRows n x.rho v phase per edge
  let recov := if x.member then recoveryCount s.groupCols per else recoveryCount (s.colW n) per
  let pf := s.psFields n
  let ps := phase == 0 || kd.newSeq || s.fs (F.ENC_CH_CTL_PS_EVERY n) == 1 || pf != x.psWords
  let bp := phase == 0 || kd.newSeq
  let alf := if hevc || x.member || kd.newSeq then none else x.alfSource v (match x.pics.reverse.find? (fun (p : PicSt) => p.seqStart) with | some p => p.startV | none => 0)
  let aps := alf.map (fun a => alfAps (s.alfStats n a.1 a.2))
  let units := s.picUnits n k kd phase recov ps bp aps
  let tb := s.takeBufs n v kd.newSeq ((rows.getLast?.map (fun (r : RowSt) => r.rel)).getD v)
  let s := tb.1
  let x := s.encCh n
  let ks : List RefEnt := match tb.2.1 with | some g => [{ k := k - 1, p0 := 0, buf := g, gray := true }] | none => x.ks
  let e := if i = 0 then (if hevc then 0 else 1) else min (s.fs (F.ENC_CH_CTL_NUM_REF n) + 1) i
  let refs := ks.take e
  let p : PicSt :=
    { k := k, startV := v, phase := phase, per := per, kg := kg, seqStart := kd.newSeq, edgeFrom := edge, words := s.fpbWords n, e := e,
      diffs := refs.map (fun r => if r.gray then 1 else k - r.k), refPhases := refs.map (fun r => if r.p0 = p0 ∧ r.gray = false then some (r.k - r.p0) else none),
      poc := if hevc then k - kI else k % 65536, buf := tb.2.2, refBufs := refs.map (fun r => r.buf), aps := aps.getD [],
      recov := recov, prefixUnits := units, canvas := x.member, rows := rows }
  let y : EncCh :=
    { x with started := true, k := k, kg := kg, kI := kI, i := i + 1, ks := ({ k := k, p0 := p0, buf := tb.2.2 } :: ks).take 5, per := per,
             restart := if kd.newSeq || kd.restart then x.restart.filter (fun t => !(t == 0 || decide (t < v))) else x.restart,
             seqDue := false, rho := x.rho + rows.length, psWords := pf, sinceBp := if bp then 1 else x.sinceBp + 1, pics := x.pics ++ [p] }
  let s := (s.setEnc n y).bump (R.ENC_CH_PIC_CNT n)
  let s := s.wr64 (R.ENC_CH_K_LO n) (R.ENC_CH_K_HI n) (k % 2 ^ 48)
  let s := (s.setF (F.ENC_CH_STATUS_PHASE n) phase).setF (F.ENC_CH_STATUS_CLEAN n) (if recov ≤ phase then 1 else 0)
  (s.writeFpb n p p.aps).egsPicture n v ps

/-- Picture k of channel n starts at `v`, where the spec lets it start (R139, R141). -/
def State.startPicture (s : State) (n k v : Nat) : State :=
  let kd := s.startKind n k v
  if s.seqHeld n k kd then s.setEnc n { s.encCh n with seqDue := true }
  else (s.startEvents n kd).newPicture n k v kd

/-- R139: at a channel frame start, the picture of a READY channel starts; R149: a disable at that very start leaves it the
last. -/
def State.pictureStart (s : State) (n : Nat) : State :=
  let owed := (s.fn (fnEnc n) == .draining || s.fn (fnEnc n) == .pendingRestart) && (s.encCh n).owed
  if !(s.ready (fnEnc n) || owed) then s else
  match s.toChanStart 2 n with
  | none => s
  | some (t, k, v) =>
    if !owed then t.startPicture n k v
    else if (match (s.encCh n).stopV with | some x => decide (v ≤ x) | none => false) then
      let t := t.startPicture n k v
      t.setEnc n (t.encCh n).markLast
    else s

/-- The functions that channel n depends on (R14). -/
def State.encDeps (s : State) (n : Nat) : List Nat :=
  [fnComp n, fnDis, fnHbm (stackOf (s.refAddr n)), fnHbm (stackOf s.lbAddr)]

/-- R147: the first channel frame that starts strictly after every dependency is READY: READY, event 0x0804, first picture. -/
def State.channelReady (s : State) (n : Nat) : State :=
  if !(s.fn (fnEnc n) == .starting) || !(s.encDeps n).all s.ready then s else
  let v0 := ((s.encDeps n).map s.fnSince).foldl max 0
  match s.toChanStart 2 n with
  | none => s
  | some (t, k, v) =>
    let r : Option (State × Nat × Nat) :=
      if v0 < v then some (t, k, v)
      else let kv := s.chanFrom n (v0 + 1); (s.toPos 2 kv.2).map (fun t => (t, kv.1, kv.2))
    match r with
    | none => s
    | some (t, k, v) => ((t.setFn (fnEnc n) .ready).raise 0x0804 n).startPicture n k v

/-! ## Registers -/

/-- The register offset of address `a` within channel n of the ENC block, for n below 32. -/
def encIndex (a : Nat) : Option (Nat × Nat) :=
  if 0x80000 ≤ a ∧ a < 0x90000 then some ((a - 0x80000) / 0x800, (a - 0x80000) % 0x800) else none

/-- A staged write of a rate-control or refresh register is refused where R180 then fails on an enabled channel; a member's
P stays a power of two. -/
def State.encStagedOk (s : State) (n o : Nat) (v : Word) : Bool :=
  let t := s.wr (0x80000 + 0x800 * n + o) v
  let p := bitsOf v.toNat 10 0
  (!s.on (F.ENC_CH_CTL_EN n) || t.floorsOkNow n)
    && (o != 0x10 || !(s.encCh n).member || decide (p &&& (p - 1) = 0))

/-- Writes of ENC registers that have rules of their own (R148, R165, R172, R175, R180, R189). -/
def State.encReg (s : State) (a : Nat) (v : Word) : Option State :=
  match encIndex a with
  | none => none
  | some (n, o) =>
    let en := s.on (F.ENC_CH_CTL_EN n)
    if o = 0 then some (s.encWrite n v)
    else if o = 0x64 then some (if bitsOf v.toNat 0 0 = 1 ∧ s.active (fnEnc n) = true then s.requestRestart n s.clk.vpos else s)
    else if en && (o == 4 || o == 8 || o == 0xC || (0x1C ≤ o && o < 0x38)) && s.rd a != v then some (s.refuse 0x08)
    else if en && (o == 0x100 || o == 0x108 || o == 0x204 || o == 0x208) then some (s.refuse 0x08)
    else if o = 0x10C then
      let mn := bitsOf v.toNat 5 0
      let mx := bitsOf v.toNat 13 8
      if mx < mn ∨ (en = true ∧ s.on (F.ENC_CH_CTL_CODEC n) = true ∧ 51 < mx) ∨ s.encStagedOk n o v = false then some (s.refuse 0x08) else none
    else if (o == 0x10 || o == 0x110 || o == 0x114) && !s.encStagedOk n o v then some (s.refuse 0x08)
    else none

end Sys2Proof.Machine
end

