-- ==== Sys2Proof/Machine/Cnv.lean ====
section
/-!
DEFINITION. Sys2Proof/Machine/Cnv.lean: canvas groups (R258-R269) and relay flits (R275): membership, the budget exchange, the
allocation, routing and reassembly.
-/

namespace Sys2Proof.Machine

/-! ## Membership (R258-R261) -/

/-- The member channel. -/
def State.cnvCh (s : State) : Nat := s.f F.CNV_CTL_CH

/-- Own member index. -/
def State.cnvMe (s : State) : Nat := s.f F.CNV_GRID_MY_ROW * s.cnvCols + s.f F.CNV_GRID_MY_COL

/-- The ports EAST, WEST, SOUTH, NORTH (R261). -/
def State.cnvPort (s : State) (i : Nat) : Nat := bitsOf (s.rdn R.CNV_PORTS) (4 * i + 2) (4 * i)

/-- The ports that the group's dimensions use: two per dimension above 2, one for a dimension of 2, none for 1 (R261). -/
def State.cnvUsed (s : State) : List Nat :=
  if s.on F.CNV_CTL_SHADOW then [] else
  (if 1 < s.cnvCols then [s.cnvPort 0] else []) ++ (if 2 < s.cnvCols then [s.cnvPort 1] else [])
    ++ (if 1 < s.cnvRows then [s.cnvPort 2] else []) ++ (if 2 < s.cnvRows then [s.cnvPort 3] else [])

/-- The checks of R259; `s` holds the written CNV_CTL. -/
def State.cnvOk (s : State) : Bool :=
  let c := s.cnvCh
  let p := s.f (F.ENC_CH_GDR_PERIOD c)
  let col := s.f F.CNV_GRID_MY_COL
  let row := s.f F.CNV_GRID_MY_ROW
  let named := fun (q : Nat) => (List.range 16).any (fun r => s.f (F.LNE_QUAD_CTL_ROLE r) == 2 && s.f (F.LNE_QUAD_CTL_PORT r) == q)
  s.feature 5 && !s.on (F.ENC_CH_CTL_CODEC c)
    && (rateRelation (s.rdn R.MER_CAD_NUM) (s.rdn R.MER_CAD_DEN) (s.f (F.ENC_CH_RATE_NUM c)) (s.f (F.ENC_CH_RATE_DEN c)) == some (1, 1))
    && p != 0 && decide (p &&& (p - 1) = 0)
    && decide (col < s.cnvCols) && decide (row < s.cnvRows)
    && decide (s.colW c = s.tcWidths col) && decide (s.rowH c = s.trHeights row)
    && (col + 1 == s.cnvCols || s.f (F.ENC_CH_SIZE_W c) == 64 * (s.tcWidths col).sum)
    && (row + 1 == s.cnvRows || s.f (F.ENC_CH_SIZE_H c) == 64 * (s.trHeights row).sum)
    && decide (s.cnvRows * s.cnvCols ≤ 64) && decide (s.groupCols.length * s.groupRows.length ≤ 1024)
    && s.cnvUsed.all (fun q => named q && !(s.on F.TWN_CTL_EN && s.f F.TWN_CTL_PORT == q))
    && decide (s.f F.CNV_TIMING_REPORT + 2 * s.f F.CNV_TIMING_WINDOW < s.clk.lm)
    && s.rdn R.CNV_GROUP_TAG != 0 && s.rdn R.CNV_GRATE % 2 ^ 23 != 0

/-- Channel c is, or is no longer, a member: what it signals changes with it (R260); a channel that is not OFF takes a restart at its
first k that is a multiple of P (R141). -/
def State.setMember (s : State) (c : Nat) (b : Bool) : State :=
  let s := s.setEnc c { s.encCh c with member := b, nextT := none }
  if s.active (fnEnc c) then (let s := s.encSignal c; if b then s.requestRestart c 0 else s) else s

/-- GDIG: the configuration digest (R264). -/
def State.gdig (s : State) : Nat :=
  let c := s.cnvCh
  let tc := (List.range 8).flatMap (fun j => s.rdn (R.CNV_TC_NCOL j) :: (List.range 4).map (fun h => s.rdn (R.CNV_TC_COLW j h)))
  let tr := (List.range 8).flatMap (fun i => s.rdn (R.CNV_TR_NROW i) :: (List.range 2).map (fun g => s.rdn (R.CNV_TR_ROWH i g)))
  let ctl := setBits (setBits (s.rdn (R.ENC_CH_CTL c)) 0 0 0) 23 16 0
  crcWords ([setBits (setBits (s.rdn R.CNV_GRID) 10 8 0) 14 12 0, s.rdn R.CNV_GROUP_TAG, s.rdn R.CNV_GRATE] ++ tc ++ tr
    ++ [s.rdn R.MER_CAD_NUM, s.rdn R.MER_CAD_DEN, s.rdn R.MER_CAD_LINES, s.rdn (R.MER_CH_ORIGIN c), ctl,
        s.rdn (R.ENC_CH_FORMAT c), s.rdn (R.ENC_CH_RATE c), s.rdn (R.ENC_CH_GDR c), s.rdn (R.ENC_CH_DBK c), s.rdn (R.ENC_CH_CQP c)]
    ++ (List.range 6).map (fun j => s.rdn (R.ENC_CH_MDCV c j)) ++ [s.rdn (R.ENC_CH_CLL c), s.rdn (R.ENC_CH_RC_LAT c)])

/-- CNV_CTL takes the value `new` (R259, R373). -/
def State.cnvWrite (s : State) (new : Word) : State :=
  let want := bitsOf new.toNat 0 0 == 1
  let have_ := s.on F.CNV_CTL_EN
  let t := s.wr R.CNV_CTL new
  if have_ && want then (if s.rd R.CNV_CTL = new then s else s.refuse 0x0D)
  else if want then
    if !t.cnvOk then s.refuse 0x0D
    else ((t.setFn fnCnv .starting).setMember (bitsOf new.toNat 5 1) true).wrn R.CNV_GDIGEST t.gdig
  else if have_ then
    let t := (s.setF F.CNV_CTL_EN 0).setMember s.cnvCh false
    { (t.setFn fnCnv .off) with cnv := { t.cnv with open_ := false, k1 := 0, reps := [], mask := none, masks := [], rowSent := false, maskSent := false, applied := [], prevs := [], own := none } }
  else t

/-! ## The budget exchange (R262-R266) -/

/-- X of R263 for the working picture at `v`. -/
def State.complexity (s : State) (n v : Nat) : Nat :=
  let x := s.encCh n
  match x.pics.reverse.find? (fun (p : PicSt) => p.rows.any (fun r => r.budgeted)) with
  | none => 0
  | some p =>
    let rows := p.rows.filter (fun (r : RowSt) => r.budgeted)
    let rel := fun (r : RowSt) => r.released && decide (r.rel < v)
    let bits := (rows.map (fun (r : RowSt) => if rel r then s.rowCharge r else r.bud)).sum
    let jobs := (rows.filter rel).flatMap (fun (r : RowSt) => r.jobs.filterMap s.job)
    let nctu := (jobs.map s.jobWidth).sum
    let qs := (jobs.map (fun (b : Job) => match b.out with | some o => o.qpSum | none => 0)).sum
    let qavg := if nctu = 0 then 26 else (qs + nctu / 2) / nctu
    let bn := bits * p.rows.length / max 1 rows.length
    let t := [256, 287, 323, 362, 406, 456].getD (qavg % 6) 256 * 2 ^ (qavg / 6)
    bn / 16 * t / 256

/-- The words of a report record, of a mask record and of a budget flit (R271). -/
def reportWords (r : CnvReport) : List Nat := [r.member % 64 + r.x / 2 ^ 32 % 256 * 2 ^ 8, r.x % 2 ^ 32, r.t, r.floor, r.cap, r.prev, r.gdig]
def maskWords (m : CnvMask) : List Nat := [m.member, m.mask % 2 ^ 32, m.mask / 2 ^ 32 % 2 ^ 32, m.adig]
def budgetWords (f : BudgetFlit) : List Nat :=
  let n := f.reports.length + f.masks.length
  [(if f.masks = [] then 1 else 2) + n * 4, f.tag, f.k16] ++ f.reports.flatMap reportWords ++ f.masks.flatMap maskWords

/-- Send a budget flit on port i of the torus (0 EAST, 2 SOUTH), where the dimension has one. -/
def State.budgetSend (s : State) (i : Nat) (f : BudgetFlit) : State :=
  let size := if i = 0 then s.cnvCols else s.cnvRows
  if size ≤ 1 ∨ s.on F.CNV_CTL_SHADOW = true then s else s.linkSend (s.cnvPort i) 3 (budgetWords f)

/-- A flit of this round with records. -/
def State.roundFlit (s : State) (rs : List CnvReport) (ms : List CnvMask) : BudgetFlit :=
  { tag := s.rdn R.CNV_GROUP_TAG, k16 := s.cnv.k1 % 65536, reports := rs, masks := ms }

/-- Is the canvas function running? -/
def State.cnvActive (s : State) : Bool := s.on F.CNV_CTL_EN && s.active fnCnv && (s.encCh s.cnvCh).started

/-- The next position `ph` lines and `half` half-lines into a frame, class 7. -/
def State.cnvAt (s : State) (halfLines : Nat) : Option State := s.toPhase 7 (halfLines * 32768)

/-- The picture that the round of this frame decides: k + 1 of the member channel (R262). -/
def State.cnvPic (s : State) : Nat := (s.encCh s.cnvCh).k + 1

/-- The round for picture k + 1 begins, with the member's report or with the first flit of it that arrives: nothing is held, and GDIG is
that of picture k + 1 (R264). -/
def State.openRound (s : State) : State :=
  if s.cnv.k1 = s.cnvPic then s
  else
    let s := (s.wrn R.CNV_GDIGEST s.gdig).setF F.CNV_STATUS_CONFIG 0
    { s with cnv := { s.cnv with open_ := true, k1 := s.cnvPic, reps := [], mask := none, masks := [], rowSent := false, maskSent := false } }

/-- CANVAS_REPORT: at (n, REPORT) the member builds its report from state strictly before, and sends it east (R262, R263). -/
def State.canvasReport (s : State) : State :=
  if !s.cnvActive then s else
  match s.cnvAt (2 * s.f F.CNV_TIMING_REPORT) with
  | none => s
  | some s =>
    let c := s.cnvCh
    let v := s.clk.vpos / s.clk.fu * s.clk.fu + s.f F.CNV_TIMING_REPORT * 65536
    let s := s.advanceDeficit c v
    let s := s.openRound
    let x := s.encCh c
    let tt := s.targetOf c x
    let ph := (s.cnv.k1 - x.kg) % max 1 x.per
    let fl := floorRow (s.colW c) x.per ph (if ph = 0 then none else some (ph - 1)) (s.fs (F.ENC_CH_RC_FLOOR_FLOOR_I c)) * s.ctuN c
    let r : CnvReport :=
      { member := s.cnvMe, x := s.complexity c v % 2 ^ 40, t := tt.2.2.2.2.2, floor := fl, cap := tt.1,
        prev := s.cnv.own.getD (s.rdn (R.ENC_CH_RC_TARGET c)), gdig := s.rdn R.CNV_GDIGEST }
    let s := { s with cnv := { s.cnv with reps := r :: s.cnv.reps.filter (fun q => q.member != s.cnvMe) } }
    s.budgetSend 0 (s.roundFlit [r] [])

/-- Torus row and column of a member. -/
def State.memRow (s : State) (m : Nat) : Nat := m / s.cnvCols
def State.memCol (s : State) (m : Nat) : Nat := m % s.cnvCols

/-- Did a flit on port `p` come along the row? In a dimension of size 2 both directions share one port (R261). -/
def State.fromRow (s : State) (p : Nat) : Bool := decide (1 < s.cnvCols) && p == (if s.cnvCols = 2 then s.cnvPort 0 else s.cnvPort 1)

/-- Did it come along the column? -/
def State.fromCol (s : State) (p : Nat) : Bool := decide (1 < s.cnvRows) && p == (if s.cnvRows = 2 then s.cnvPort 2 else s.cnvPort 3)

/-- Forward a received budget flit: along the row unless EAST is the origin, down the column unless SOUTH is the bundle's origin
(R265). -/
def State.budgetForward (s : State) (p : Nat) (f : BudgetFlit) : State :=
  let ms := f.reports.map (fun r => r.member) ++ f.masks.map (fun m => m.member)
  let o := ms.headD 0
  if s.fromRow p then (if s.memCol o = (s.f F.CNV_GRID_MY_COL + 1) % s.cnvCols then s else s.budgetSend 0 f)
  else if s.fromCol p then (if s.memRow o = (s.f F.CNV_GRID_MY_ROW + 1) % s.cnvRows then s else s.budgetSend 2 f)
  else s

/-- A received report is kept, unless its GDIG differs or D1 has passed (R264, R265). -/
def State.takeReport (s : State) (r : CnvReport) : State :=
  if s.cnv.mask.isSome || s.cnvMe == r.member || decide (s.cnvRows * s.cnvCols ≤ r.member) then s
  else if r.gdig ≠ s.rdn R.CNV_GDIGEST then ((s.setF F.CNV_FLAGS_CONFIG 1).setF F.CNV_STATUS_CONFIG 1).raise 0x0D03 (r.member % 64)
  else if s.cnv.reps.any (fun q => q.member == r.member) then s
  else { s with cnv := { s.cnv with reps := s.cnv.reps ++ [r] } }

/-- A received mask record is kept until D2. -/
def State.takeMask (s : State) (m : CnvMask) : State :=
  if s.cnvMe == m.member || decide (s.cnvRows * s.cnvCols ≤ m.member) || s.cnv.masks.any (fun q => q.member == m.member) then s else { s with cnv := { s.cnv with masks := s.cnv.masks ++ [m] } }

/-- Has the position `lines` of the present Meridian frame come, so that what arrives now is stamped at or after it (R29)? -/
def State.cnvPast (s : State) (lines : Nat) : Bool := s.clk.run && decide (lines * 65536 ≤ s.clk.vpos % s.clk.fu)

/-- Has the deadline of a flit passed: D1 for reports, D2 for masks (R262, R265)? -/
def State.budgetLate (s : State) (f : BudgetFlit) : Bool :=
  if f.masks = [] then s.cnv.mask.isSome || s.cnvPast (s.f F.CNV_TIMING_REPORT + s.f F.CNV_TIMING_WINDOW)
  else s.cnvPast (s.f F.CNV_TIMING_REPORT + 2 * s.f F.CNV_TIMING_WINDOW)

/-- BUDGET_FLIT_RECEIVE (R265, R271): a flit of another tag or picture is ignored and counted; one stamped at or after its deadline is discarded. -/
def State.budgetReceive (s : State) (p : Nat) (f : BudgetFlit) : State :=
  if !s.on F.CNV_CTL_EN || f.tag != s.rdn R.CNV_GROUP_TAG || f.k16 != s.cnvPic % 65536 then s.bump R.CNV_IGNORED_CNT
  else
    let s := s.openRound
    if !s.cnv.open_ || s.budgetLate f then s
    else (f.masks.foldl State.takeMask (f.reports.foldl State.takeReport s)).budgetForward p f

/-- The reports, or masks, of the own torus row. -/
def State.ownRow (s : State) (ms : List Nat) : List Nat := ms.filter (fun m => s.memRow m == s.f F.CNV_GRID_MY_ROW)

/-- ROW_BUNDLE_SEND: once all reports of the row are held, or at the half-window point (R265). -/
def State.rowBundle (s : State) : State :=
  if !s.cnvActive || !s.cnv.open_ || s.cnv.rowSent then s else
  let full := (s.ownRow (s.cnv.reps.map (fun r => r.member))).length = s.cnvCols
  let s? := if full then some s else s.cnvAt (2 * s.f F.CNV_TIMING_REPORT + s.f F.CNV_TIMING_WINDOW)
  match s? with
  | none => s
  | some s =>
    let rs := s.cnv.reps.filter (fun r => s.memRow r.member == s.f F.CNV_GRID_MY_ROW)
    let s := { s with cnv := { s.cnv with rowSent := true } }
    s.budgetSend 2 (s.roundFlit rs [])

/-- The allocation digest of a vector over 64 members (R268). -/
def adigOf (a : List Nat) : Nat := crcWords ((List.range 64).map (fun i => a.getD i 0))

/-- CANVAS_MASK_DEADLINE: D1: the reports held make the on-time mask, which goes east with ADIG (R262, R268). -/
def State.maskDeadline (s : State) : State :=
  if !s.cnvActive || !s.cnv.open_ || s.cnv.mask.isSome then s else
  match s.cnvAt (2 * (s.f F.CNV_TIMING_REPORT + s.f F.CNV_TIMING_WINDOW)) with
  | none => s
  | some s =>
    let m := (s.cnv.reps.map (fun r => 2 ^ r.member)).sum
    let r : CnvMask := { member := s.cnvMe, mask := m, adig := adigOf s.cnv.applied }
    let s := { s with cnv := { s.cnv with mask := some m, masks := r :: s.cnv.masks.filter (fun q => q.member != s.cnvMe) } }
    s.budgetSend 0 (s.roundFlit [] [r])

/-- MASK_BUNDLE_SEND: complete, or at D1 + WINDOW / 2 (R265). -/
def State.maskBundle (s : State) : State :=
  if !s.cnvActive || s.cnv.mask.isNone || s.cnv.maskSent then s else
  let full := (s.ownRow (s.cnv.masks.map (fun m => m.member))).length = s.cnvCols
  let s? := if full then some s else s.cnvAt (2 * s.f F.CNV_TIMING_REPORT + 3 * s.f F.CNV_TIMING_WINDOW)
  match s? with
  | none => s
  | some s =>
    let ms := s.cnv.masks.filter (fun m => s.memRow m.member == s.f F.CNV_GRID_MY_ROW)
    let s := { s with cnv := { s.cnv with maskSent := true } }
    s.budgetSend 2 (s.roundFlit [] ms)

/-! ## The allocation (R266-R268) -/

/-- One pass over the live members in ascending order: (member, allocation). -/
def allocPass (pool wsum : Nat) : Nat → List CnvReport → List (CnvReport × Nat)
  | _, [] => []
  | cum, r :: l =>
    let w := max r.x 1
    (r, r.floor + pool * (cum + w) / wsum - pool * cum / wsum) :: allocPass pool wsum (cum + w) l

/-- R267: the allocations of the members of O; `cap` says that a cap bound. -/
def allocate : Nat → Nat → List CnvReport → List (Nat × Nat) × Bool
  | 0, _, _ => ([], false)
  | fuel + 1, pool, live =>
    let wsum := (live.map (fun r => max r.x 1)).sum
    let as := allocPass pool (max 1 wsum) 0 live
    let over_ := as.filter (fun e => decide (e.1.cap < e.2))
    let rest := as.filter (fun e => decide (¬ e.1.cap < e.2))
    if over_ = [] then (rest.map (fun e => (e.1.member, e.2)), false)
    else
      let t := allocate fuel (pool + (over_.map (fun e => e.1.floor)).sum - (over_.map (fun e => e.1.cap)).sum) (rest.map (fun e => e.1))
      (over_.map (fun e => (e.1.member, e.1.cap)) ++ t.1, true)

/-- Insert a report by member. -/
def repInsert (r : CnvReport) : List CnvReport → List CnvReport
  | [] => [r]
  | q :: l => if r.member < q.member then r :: q :: l else q :: repInsert r l

/-- Reports in ascending member index. -/
def repSort (l : List CnvReport) : List CnvReport := l.foldr repInsert []

/-- The on-time set O as a mask (R266): the AND of the own mask with every mask received, without the members whose mask did
not arrive. -/
def State.onTime (s : State) : Nat :=
  let ms := s.cnv.masks
  let inAll := fun (i : Nat) => ms.all (fun m => bitsOf m.mask i i == 1) && ms.any (fun m => m.member == i) && s.cnv.reps.any (fun r => r.member == i)
  ((List.range 64).map (fun i => if inAll i then 2 ^ i else 0)).sum

/-- CANVAS_ALLOCATION: D2: O is fixed and every allocation computed (R262, R266–R268). -/
def State.canvasAllocation (s : State) : State :=
  if !s.cnvActive || s.cnv.mask.isNone then s else
  match s.cnvAt (2 * (s.f F.CNV_TIMING_REPORT + 2 * s.f F.CNV_TIMING_WINDOW)) with
  | none => s
  | some s =>
    let me := s.cnvMe
    let n := s.cnvRows * s.cnvCols
    let o := s.onTime
    let on := fun (i : Nat) => bitsOf o i i == 1
    let rs := repSort (s.cnv.reps.filter (fun r => on r.member))
    let g := (rs.map (fun r => r.t)).sum
    let pool := g - (rs.map (fun r => r.floor)).sum
    let al := allocate 65 pool rs
    let mine := s.cnv.reps.find? (fun r => r.member == me)
    let t1 := match mine with | some r => r.t | none => 0
    let cap := match mine with | some r => r.cap | none => 0
    let prevs := rs.foldl (fun (q : Tab Nat) r => Tab.put (fun _ => 0) q r.member r.prev) s.cnv.prevs
    let share := fun (i : Nat) => match al.1.find? (fun e => e.1 == i) with | some e => e.2 | none => Tab.get (fun _ => 0) prevs i
    let adig := adigOf s.cnv.applied
    let split := s.cnv.masks.any (fun m => on m.member && m.adig != adig)
    let own := if split then min t1 cap else if on me then share me else s.cnv.own.getD t1
    let vec := (List.range n).map (fun i => if i = me then own else share i)
    let late := 2 ^ n - 1 - o % 2 ^ n
    let s := (((s.wrn R.CNV_ALLOC own).wrn R.CNV_LATE_LO (late % 2 ^ 32)).wrn R.CNV_LATE_HI (late / 2 ^ 32)).bump R.CNV_ROUND_CNT
    let s := (s.setF F.CNV_STATUS_ONTIME rs.length).setF F.CNV_STATUS_SPLIT (if split then 1 else 0)
    let s := if late = 0 then s else ((s.bump R.CNV_LATE_CNT).setF F.CNV_FLAGS_LATE 1).raise 0x0D02 0
    let s := if al.2 then ((s.bump R.CNV_CAP_CNT).setF F.CNV_FLAGS_CAP 1).raise 0x0D05 0 else s
    let s := if split then ((s.bump R.CNV_SPLIT_CNT).setF F.CNV_FLAGS_SPLIT 1).raise 0x0D04 0 else s
    let s := s.setEnc s.cnvCh { s.encCh s.cnvCh with nextT := some own }
    { s with cnv := { s.cnv with open_ := false, reps := [], mask := none, masks := [], applied := vec, prevs := prevs, own := some own } }

/-! ## Relay (R275) -/

/-- The words of a relay flit. -/
def relayWords (f : RelayFlit) : List Nat :=
  [f.dest % 1024 + f.orig % 1024 * 2 ^ 10 + f.hops % 16 * 2 ^ 20, f.msg % 65536 + f.frag % 128 * 2 ^ 16 + (if f.last then 2 ^ 23 else 0)]
    ++ (List.range (ceilDiv f.data.length 4)).map (fun i => leNat f.data (4 * i) 4)

/-- A relay flit is dropped. -/
def State.relayDrop (s : State) : State := ((s.bump R.CNV_RELAY_DROP_CNT).setF F.CNV_FLAGS_RELAY_DROP 1).raise 0x0D08 0

/-- The shorter direction along a ring of n from a to b; a tie goes forward (EAST or SOUTH). -/
def ringForward (n a b : Nat) : Bool := decide ((b + n - a) % n ≤ (a + n - b) % n)

/-- The port on which a relay flit for a MID goes on, if it is known. -/
def State.relayPort (s : State) (mid : Nat) : Option Nat :=
  let tp := s.f F.TWN_CTL_PORT
  if s.on F.TWN_CTL_EN && (s.link tp).peerMid == some mid then some tp
  else match (List.range 64).find? (fun m => s.on (F.CNV_MAP_VALID m) && s.f (F.CNV_MAP_MID m) == mid) with
    | none => none
    | some m =>
      let col := s.f F.CNV_GRID_MY_COL
      let row := s.f F.CNV_GRID_MY_ROW
      if s.memCol m ≠ col then some (if s.cnvCols = 2 ∨ ringForward s.cnvCols col (s.memCol m) = true then s.cnvPort 0 else s.cnvPort 1)
      else if s.memRow m ≠ row then some (if s.cnvRows = 2 ∨ ringForward s.cnvRows row (s.memRow m) = true then s.cnvPort 2 else s.cnvPort 3)
      else none

/-- Reassembly, keyed by originator and message (R275): in order, at most 16 at once; a complete message is delivered. -/
def State.assemble (s : State) (f : RelayFlit) : State :=
  let key := fun (a : Assembler) => a.orig == f.orig && a.msg == f.msg
  let others := s.cnv.asms.filter (fun a => !key a)
  let cur := s.cnv.asms.find? key
  let next := match cur with | some a => a.next | none => 0
  if f.frag ≠ next then { s with cnv := { s.cnv with asms := others } }
  else if cur.isNone && decide (16 ≤ s.cnv.asms.length) then s
  else
    let data := (match cur with | some a => a.data | none => []) ++ f.data
    if f.last then ({ s with cnv := { s.cnv with asms := others } }).emit (.relayed f.ty f.orig f.msg data)
    else { s with cnv := { s.cnv with asms := others ++ [{ orig := f.orig, msg := f.msg, next := next + 1, data := data, at_ := s.clk.ns }] } }

/-- A broadcast goes on: along the row from the originator, and from every member of that row down its column. -/
def State.broadcast (s : State) (p : Nat) (f : RelayFlit) : State :=
  let g := { f with hops := f.hops + 1 }
  let om := (List.range 64).find? (fun m => s.on (F.CNV_MAP_VALID m) && s.f (F.CNV_MAP_MID m) == f.orig)
  let east := match om with | some m => s.memCol m != (s.f F.CNV_GRID_MY_COL + 1) % s.cnvCols | none => true
  let south := match om with | some m => s.memRow m != (s.f F.CNV_GRID_MY_ROW + 1) % s.cnvRows | none => true
  let row := s.fromRow p
  let s := if row && east then s.linkSend (s.cnvPort 0) f.ty (relayWords g) else s
  if decide (1 < s.cnvRows) && south && (row || s.fromCol p) then s.linkSend (s.cnvPort 2) f.ty (relayWords g) else s

/-- RELAY_FLIT_RECEIVE (R275). -/
def State.relayReceive (s : State) (p : Nat) (f : RelayFlit) : State :=
  if f.dest = 0x3FF then
    let key := (f.orig, f.msg, f.frag)
    if s.cnv.seen.contains key || f.orig == s.pins.mid then s
    else
      let s := ({ s with cnv := { s.cnv with seen := (key :: s.cnv.seen).take 256 } }).assemble f
      if 14 ≤ f.hops then s.relayDrop else s.broadcast p f
  else if f.dest = s.pins.mid then s.assemble f
  else if 14 ≤ f.hops then s.relayDrop
  else match s.relayPort f.dest with
    | none => s.relayDrop
    | some q => s.linkSend q f.ty (relayWords { f with hops := f.hops + 1 })

/-- RELAY_REASSEMBLY_TIMEOUT: 10 ms without a fragment discards the oldest message (R275). -/
def State.relayTimeout (s : State) : State :=
  match s.cnv.asms with
  | [] => s
  | a :: r =>
    let t := (r.map (fun x => x.at_)).foldl min a.at_
    let s := s.toNs (t + 10000000)
    { s with cnv := { s.cnv with asms := s.cnv.asms.filter (fun x => decide (s.clk.ns < x.at_ + 10000000)) } }

/-! ## Registers -/

/-- May this CNV register be written while CNV_CTL.EN is 1 (R259)? -/
def cnvOpen (a : Nat) : Bool :=
  (decide (R.CNV_MAP 0 ≤ a) && decide (a < R.CNV_LINK_CTL 0)) || (decide (R.CNV_LINK_CTL 0 ≤ a) && (a - R.CNV_LINK_CTL 0) % 0x40 == 0)

/-- Writes of CNV registers that have rules of their own (R259, R276). -/
def State.cnvReg (s : State) (a : Nat) (v : Word) : Option State :=
  if a = R.CNV_CTL then some (s.cnvWrite v)
  else if s.on F.CNV_CTL_EN && !cnvOpen a then some (s.refuse 0x0D)
  else if a = R.CNV_GRID ∧ (bitsOf v.toNat 2 0 < bitsOf v.toNat 10 8 ∨ bitsOf v.toNat 6 4 < bitsOf v.toNat 14 12) then some (s.refuse 0x0D)
  else none

end Sys2Proof.Machine
end

