-- ==== Sys2Proof/Machine/Eth.lean ====
section
/-!
DEFINITION. Sys2Proof/Machine/Eth.lean: the Ethernet receive filter, the responders and the multicast joins (spec/14_serial_lanes.md,
R282-R287). Addresses are numbers with byte 0 least significant, as the registers hold them (R295).
-/

namespace Sys2Proof.Machine

/-- The responders of port p. -/
def State.eth_ (s : State) (p : Nat) : EthSt := Tab.get (fun _ => ({} : EthSt)) s.eth p

/-- Set them. -/
def State.setEth (s : State) (p : Nat) (x : EthSt) : State := { s with eth := Tab.put (fun _ => ({} : EthSt)) s.eth p x }

/-! ## Joined groups (R286) -/

/-- Is an IP address a multicast one? -/
def isMulticast (ipv6 : Bool) (addr : Nat) : Bool :=
  if ipv6 then addr % 256 == 0xFF else decide (0xE0 ≤ addr % 256) && decide (addr % 256 ≤ 0xEF)

/-- Four address words as one number. -/
def addrOf (ipv6 : Bool) (w : Nat → Nat) (i : Nat) : Nat :=
  if ipv6 then w i + w (i + 1) * 2 ^ 32 + w (i + 2) * 2 ^ 64 + w (i + 3) * 2 ^ 96 else w i

/-- What one enabled flow of port p asks to join: its group with one source, or with any (SRC_FILT). -/
def State.flowJoin (s : State) (f : Nat) : Option Group :=
  let w := s.ftw f
  let v6 := bitsOf (w 0) 7 7 == 1
  let a := addrOf v6 w 2
  if isMulticast v6 a then
    some { vlan := bitsOf (w 0) 23 12, ipv6 := v6, addr := a, sources := if bitsOf (w 0) 8 8 = 1 then some [addrOf v6 w 6] else none }
  else none

/-- The multicast groups of a PTP domain's UDP transport: 224.0.1.129 and 224.0.0.107, or FF0E::181 and FF02::6B; the peer
delay group with the peer-to-peer mechanism (R51, R52). -/
def State.domJoins (s : State) (x : Nat) : List Group :=
  let vlan := s.f (F.PTP_X_CTL_VLAN x)
  let peer := s.f (F.PTP_X_CTL_DELAY x) == 1
  match s.f (F.PTP_X_CTL_TRANSPORT x) with
  | 1 => { vlan := vlan, ipv6 := false, addr := 0x810100E0, sources := none }
      :: (if peer then [{ vlan := vlan, ipv6 := false, addr := 0x6B0000E0, sources := none }] else [])
  | 2 => { vlan := vlan, ipv6 := true, addr := 0x0EFF + 0x8101 * 2 ^ 112, sources := none }
      :: (if peer then [{ vlan := vlan, ipv6 := true, addr := 0x02FF + 0x6B * 2 ^ 120, sources := none }] else [])
  | _ => []

/-- Everything asked of port p. -/
def State.portJoins (s : State) (p : Nat) : List Group :=
  (s.ingFlows.filter (fun f => ftPort (s.ftw f 0) == p)).filterMap s.flowJoin
    ++ ((List.range 2).filter (fun x => s.on (F.PTP_X_CTL_EN x) && s.f (F.PTP_X_CTL_PORT x) == p)).flatMap s.domJoins

/-- The union of two source sets; none stands for any source. -/
def joinSources (a b : Option (List Nat)) : Option (List Nat) :=
  match a, b with
  | some x, some y => some (x ++ y.filter (fun v => !x.contains v))
  | _, _ => none

/-- Add one request to the groups. -/
def addGroup (l : List Group) (g : Group) : List Group :=
  match l with
  | [] => [g]
  | h :: r => if h.vlan == g.vlan && h.ipv6 == g.ipv6 && h.addr == g.addr then { h with sources := joinSources h.sources g.sources } :: r else h :: addGroup r g

/-- Is an older-version querier in force for IPv4 or IPv6? -/
def EthSt.old (x : EthSt) (ipv6 : Bool) (ns : Nat) : Bool := match (if ipv6 then x.old6 else x.old4) with | some t => decide (ns < t) | none => false

/-- The groups port p joins now: INCLUDE with the union of up to 32 sources, else EXCLUDE with none (R286). -/
def State.groupsOf (s : State) (p : Nat) : List Group :=
  ((s.portJoins p).foldl addGroup []).map (fun g =>
    match g.sources with
    | some l => if 32 < l.length || (s.eth_ p).old g.ipv6 s.clk.ns then { g with sources := none } else g
    | none => g)

/-- The joined set of port p follows its flows and domains: a change starts ROBUST state-change reports (R286). -/
def State.joinUpdate (s : State) (p : Nat) : State :=
  let g := s.groupsOf p
  let x := s.eth_ p
  if g = x.groups then s
  else (s.setEth p { x with groups := g, reports := s.f F.ETH_IGMP_ROBUST, reportAt := s.clk.ns }).wrn (R.ETH_PORT_JOIN_CNT p) (g.length % 1024)

/-- Every port. -/
def State.joinAll (s : State) : State := (List.range 8).foldl State.joinUpdate s

/-! ## Responders (R285, R286) -/

/-- A responder frame joins the port's tier at the lowest priority. -/
def State.respond (s : State) (p len : Nat) (r : Resp) : State :=
  let q := s.eport p
  (s.setEport p { q with resp := q.resp ++ [(len, r)] }).portPick p

/-- The receive half of a port is UP (R287). -/
def State.rxUp (s : State) (p : Nat) : Bool := s.on (F.ETH_PORT_STATUS_RX_UP p)

/-- A request is discarded and counted. -/
def State.ethDiscard (s : State) (p : Nat) : State := s.bump (R.ETH_PORT_RX_DISCARD_CNT p)

/-- Bytes a VLAN tag adds. -/
def tagLen (vlan : Nat) : Nat := if vlan = 0 then 0 else 4

/-- ARP_REQUEST: answered for the port's IPv4 address (R285). -/
def State.arpRequest (s : State) (p vlan target sender : Nat) : State :=
  if !s.rxUp p || !s.on (F.ETH_PORT_CTL_ARP_EN p) || target != s.rdn (R.ETH_PORT_IPV4 p) then s
  else s.respond p (64 + tagLen vlan) (.arpReply vlan sender)

/-- The port's IPv6 link-local or global address as a number. -/
def State.portV6 (s : State) (p : Nat) (global : Bool) : Nat :=
  addrOf true (fun w => s.rdn (if global then R.ETH_PORT_IPV6_GL p w else R.ETH_PORT_IPV6_LL p w)) 0

/-- NEIGHBOUR_SOLICITATION: answered for either IPv6 address (R285). -/
def State.neighbourSol (s : State) (p vlan target sender : Nat) : State :=
  if !s.rxUp p || !s.on (F.ETH_PORT_CTL_ND_EN p) || !(target == s.portV6 p false || target == s.portV6 p true) then s
  else s.respond p (90 + tagLen vlan) (.neighbourAdvert vlan sender target)

/-- Is the address one of the port's own? -/
def State.ownAddr (s : State) (p : Nat) (ipv6 : Bool) (a : Nat) : Bool :=
  if ipv6 then a == s.portV6 p false || a == s.portV6 p true else a == s.rdn (R.ETH_PORT_IPV4 p)

/-- ECHO_REQUEST: a request of up to 1,500 bytes of IP packet is answered within ICMP_RATE per second; beyond it, discarded and
counted, with event 0x0F04 for the first of the port in a Meridian frame (R285, R296). -/
def State.echoRequest (s : State) (p vlan : Nat) (ipv6 : Bool) (dst sender len : Nat) : State :=
  if !s.rxUp p || !s.on (F.ETH_PORT_CTL_ICMP_EN p) || !s.ownAddr p ipv6 dst then s
  else if 1500 < len then s.ethDiscard p
  else
    let x := s.eth_ p
    let x := if x.echoNs + 1000000000 ≤ s.clk.ns then { x with echoNs := s.clk.ns, echoCnt := 0 } else x
    if x.echoCnt < s.f F.ETH_IGMP_ICMP_RATE then
      (s.setEth p { x with echoCnt := x.echoCnt + 1 }).respond p (max 64 (len + 18) + tagLen vlan) (.echoReply vlan sender len)
    else
      let fr := s.clk.vpos / s.clk.fu
      let s := ((s.setEth p { x with echoFrame := some fr }).ethDiscard p).setF F.ETH_FLAGS_ICMP_LIMIT 1
      if x.echoFrame = some fr then s else s.raise 0x0F04 p

/-- Is IGMP (IPv4) or MLD (IPv6) switched on at the port? -/
def State.mcastOn (s : State) (p : Nat) (ipv6 : Bool) : Bool := if ipv6 then s.on (F.ETH_PORT_CTL_MLD_EN p) else s.on (F.ETH_PORT_CTL_IGMP_EN p)

/-- MEMBERSHIP_QUERY: the groups asked for are answered after a random delay within the maximum response time; an older-version
query starts or renews the older-version rules for the querier's timeout (R286). -/
def State.membershipQuery (s : State) (p vlan : Nat) (ipv6 older : Bool) (group : Option Nat) (maxMs timeoutMs : Nat) : State :=
  if !s.rxUp p || !s.mcastOn p ipv6 then s
  else
    let s := if !older then s else
      let x := s.eth_ p
      let till := some (s.clk.ns + timeoutMs * 1000000)
      let x := if ipv6 then { x with old6 := till } else { x with old4 := till }
      ((s.setEth p x).setF F.ETH_FLAGS_OLD_QUERIER 1).raise 0x0F03 p
    let s := s.joinUpdate p
    let x := s.eth_ p
    let gs := x.groups.filter (fun g => g.vlan == vlan && g.ipv6 == ipv6 && (match group with | some a => g.addr == a | none => true))
    if gs = [] then s
    else
      let d := s.free
      let s := d.2
      s.setEth p { x with resps := x.resps ++ [(s.clk.ns + d.1 % (maxMs * 1000000 + 1), gs)] }

/-- A report of the groups of one VLAN and version. -/
def State.sendReport (s : State) (p : Nat) (gs : List Group) : State :=
  let keys := (gs.map (fun g => (g.vlan, g.ipv6))).dedup
  keys.foldl (fun (t : State) k =>
    if !t.mcastOn p k.2 then t
    else
      let l := gs.filter (fun g => g.vlan == k.1 && g.ipv6 == k.2)
      t.respond p (max 64 (46 + l.length * 8) + tagLen k.1) (.membershipReport k.1 k.2 ((t.eth_ p).old k.2 t.clk.ns) l)) s

/-- QUERY_RESPONSE: the earliest response due is sent (R286). -/
def State.queryResponse (s : State) (p : Nat) : State :=
  let x := s.eth_ p
  match x.resps with
  | [] => s
  | e0 :: r =>
    let e := r.foldl (fun b e => if e.1 < b.1 then e else b) e0
    let s := s.toNs e.1
    let s := s.setEth p { x with resps := x.resps.erase e }
    s.sendReport p (e.2.filter (fun g => (s.groupsOf p).any (fun h => h.vlan == g.vlan && h.ipv6 == g.ipv6 && h.addr == g.addr)))

/-- STATE_CHANGE_REPORT: the next of the ROBUST reports, URI apart (R286). -/
def State.stateChangeReport (s : State) (p : Nat) : State :=
  let x := s.eth_ p
  if x.reports = 0 then s
  else
    let s := s.toNs x.reportAt
    let s := s.setEth p { x with reports := x.reports - 1, reportAt := s.clk.ns + s.f F.ETH_IGMP_URI * 100000000 }
    s.sendReport p x.groups

/-- OLDER_QUERIER_TIMEOUT: the port returns to IGMPv3 or MLDv2 and to INCLUDE joins (R286). -/
def State.olderTimeout (s : State) (p : Nat) : State :=
  let x := s.eth_ p
  let r : Option (State × EthSt) := match x.old4, x.old6 with
    | none, none => none
    | some a, none => some (s.toNs a, { x with old4 := none })
    | none, some b => some (s.toNs b, { x with old6 := none })
    | some a, some b => if a ≤ b then some (s.toNs a, { x with old4 := none }) else some (s.toNs b, { x with old6 := none })
  match r with
  | none => s
  | some (s, x) => (s.setEth p x).joinUpdate p

/-! ## The receive filter (R284) and faults (R287) -/

/-- The Ethernet address of an IP multicast group: 01-00-5E and its low 23 bits, or 33-33 and its last four bytes. -/
def groupMac (g : Group) : Nat :=
  if g.ipv6 then 0x3333 + g.addr / 2 ^ 96 * 2 ^ 16
  else 0x5E0001 + (g.addr / 2 ^ 8 % 128) * 2 ^ 24 + (g.addr / 2 ^ 16) * 2 ^ 32

/-- The multicast addresses of a domain that uses Layer 2: 01-1B-19-00-00-00 and 01-80-C2-00-00-0E (R51). -/
def ptpMacs : List Nat := [0x191B01, 0x0E0000C28001]

/-- Is a VLAN named on port p by an enabled ingest flow, a PTP domain or an egress leg? -/
def State.vlanNamed (s : State) (p vlan : Nat) : Bool :=
  vlan == 0 || s.ingFlows.any (fun f => ftPort (s.ftw f 0) == p && bitsOf (s.ftw f 0) 23 12 == vlan)
    || (List.range 2).any (fun x => s.on (F.PTP_X_CTL_EN x) && s.f (F.PTP_X_CTL_PORT x) == p && s.f (F.PTP_X_CTL_VLAN x) == vlan)
    || s.egsFlows.any (fun f => (efLegs (s.egWords f)).any (fun l => l.2 == p && efVlan (s.egWords f) l.1 == vlan))

/-- Is a destination address accepted on port p? -/
def State.macOk (s : State) (p mac : Nat) : Bool :=
  mac == s.rdn (R.ETH_PORT_MAC_LO p) + bitsOf (s.rdn (R.ETH_PORT_MAC_HI p)) 15 0 * 2 ^ 32 || mac == 0xFFFFFFFFFFFF
    || (s.groupsOf p).any (fun g => groupMac g == mac)
    || (List.range 2).any (fun x => s.on (F.PTP_X_CTL_EN x) && s.f (F.PTP_X_CTL_PORT x) == p
        && (if s.f (F.PTP_X_CTL_TRANSPORT x) = 0 then ptpMacs.contains mac else (s.domJoins x).any (fun g => groupMac g == mac)))

/-- ETH_FRAME_RECEIVE: the four conditions of R284; `len` counts the FCS. What an accepted frame carries acts through the command
of its own row. -/
def State.ethFrame (s : State) (p : Nat) (fcsOk : Bool) (len vlan mac : Nat) : State :=
  if !s.rxUp p then s
  else if !fcsOk then s.bump (R.ETH_PORT_RX_FCS_CNT p)
  else if decide (64 ≤ len) && decide (len ≤ 9216) && s.vlanNamed p vlan && s.macOk p mac then s.bump (R.ETH_PORT_RX_FRAME_CNT p)
  else s.ethDiscard p

/-- ETH_FAULT: a local or remote fault begins or ends; the transmit half is unchanged (R287). -/
def State.ethFault (s : State) (p : Nat) (remote present : Bool) : State :=
  let x := if remote then F.ETH_PORT_STATUS_REMOTE_FAULT p else F.ETH_PORT_STATUS_LOCAL_FAULT p
  if s.on x = present then s
  else (((s.setF x (if present then 1 else 0)).setF F.ETH_FLAGS_FAULT 1).raise 0x0F02 p).rxUpdate p

/-- Writes of ETH registers that have rules of their own: addresses are refused while a quad of the port is enabled (R283). -/
def State.ethReg (s : State) (a : Nat) (v : Word) : Option State :=
  if R.ETH_PORT_CTL 0 ≤ a ∧ a < R.ETH_PORT_CTL 8 then
    let p := (a - R.ETH_PORT_CTL 0) / 0x80
    let o := (a - R.ETH_PORT_CTL 0) % 0x80
    if 0x08 ≤ o ∧ o ≤ 0x30 ∧ (s.portQuads false p).isEmpty = false then some (s.refuse 0x0F)
    else if o = 0x0C ∧ bitsOf v.toNat 31 16 ≠ 0 then some (s.wrn a (bitsOf v.toNat 15 0))
    else none
  else none

end Sys2Proof.Machine
end

