-- ==== Sys2Proof/Machine/Hbs.lean ====
section
/-!
DEFINITION. Sys2Proof/Machine/Hbs.lean: the scheduler of one HBM pseudo-channel: its request queue, the open rows of its banks, the
activation counts of their rows and the token buckets of its throttles (spec/15_hbm_memory.md, R300, R303-R309). Time is counted in
HCLK cycles of the stack.
-/

namespace Sys2Proof.Machine

/-- The service class of a requester (R303). -/
def requesterClass (id : Nat) : Nat :=
  if id ≤ 63 then 1 else if id ≤ 69 then 2 else if id ≤ 72 then 0 else if id = 73 then 1 else 3

/-- The page-policy hint of a requester (R303). -/
def requesterHint (id : Nat) : PageHint :=
  if id ≤ 63 then .opened
  else if id ≤ 67 then .auto
  else if id = 68 then .opened
  else if id = 69 then .auto
  else if id ≤ 72 then .opened
  else if id = 73 then .auto
  else if id = 74 then .opened
  else if id ≤ 76 then .auto
  else .close

/-- The bank (16 × SID + bank) of an offset in its pseudo-channel (R300). -/
def bankOf (o : Nat) : Nat := (o / 2 ^ 13 * 256 + o % 256) / 2 ^ 14 % 3 * 16 + (o / 2 ^ 13 * 256 + o % 256) / 2 ^ 10 % 16

/-- The row of an offset in its bank (R300). -/
def rowOf (o : Nat) : Nat := (o / 2 ^ 13 * 256 + o % 256) / 2 ^ 14 / 3

/-- What the registers of a stack give its schedulers: HCLK in Hz, the age limits of classes 1 to 3 in cycles, HIT_CAP, IDLE and
PROMO_GAP of HBM_s_SCHED, THR, RATE and BURST of HBM_s_RH (R304-R309). -/
structure SchedCfg where
  hz : Nat
  age1 : Nat
  age2 : Nat
  age3 : Nat
  cap : Nat
  idle : Nat
  gap : Nat
  thr : Nat
  rate : Nat
  burst : Nat

/-- The age limit of a class in cycles (R305). -/
def SchedCfg.age (g : SchedCfg) (cls : Nat) : Nat := if cls = 1 then g.age1 else if cls = 2 then g.age2 else g.age3

/-- A scheduler at work: the pseudo-channel, the stack's throttles, the activations made and the column commands issued (cycle
and request), latest first. -/
structure SchedRun where
  x : PcSt
  thr : List Throttle
  acts : Nat := 0
  cols : List (Nat × HbmReq) := []

/-- A bank of the pseudo-channel. -/
def PcSt.bank (x : PcSt) (b : Nat) : BankSt := Tab.get (fun _ => ({} : BankSt)) x.banks b

/-- Set it. -/
def PcSt.setBank (x : PcSt) (b : Nat) (y : BankSt) : PcSt := { x with banks := Tab.put (fun _ => ({} : BankSt)) x.banks b y }

/-- The row of a bank that is open at a cycle: under the hint auto it stays open while a queued request hits it, and is else
precharged IDLE cycles after the last hit (R306). -/
def openRow (g : SchedCfg) (x : PcSt) (b t : Nat) : Option Nat :=
  let y := x.bank b
  match y.row with
  | none => none
  | some r =>
    if y.hint = .auto ∧ y.lastHit + g.idle ≤ t
        ∧ !x.queue.any (fun q => bankOf q.ofs == b && rowOf q.ofs == r && decide (q.arr < y.lastHit + g.idle)) then none
    else some r

/-- Does a request hit the open row of its bank? -/
def hits (g : SchedCfg) (x : PcSt) (t : Nat) (q : HbmReq) : Bool := openRow g x (bankOf q.ofs) t == some (rowOf q.ofs)

/-- The activations of a row since its bank's window boundary or RFM (R308). -/
def BankSt.count (y : BankSt) (row : Nat) : Nat := Tab.get (fun _ => 0) y.rows row

/-- Has a row of the bank reached THR: is an RFM due (R308)? -/
def rfmDue (g : SchedCfg) (y : BankSt) : Bool := y.rows.any (fun e => decide (g.thr ≤ e.2))

/-- The level of a throttle's bucket at a cycle, in tokens × HCLK: RATE tokens per µs up to BURST (R309). -/
def Throttle.level (g : SchedCfg) (h : Throttle) (t : Nat) : Nat := min (g.burst * g.hz) (h.level0 + (t - h.at_) * g.rate * 1000000)

/-- The throttle of a requester in a pseudo-channel. -/
def throttleOf (l : List Throttle) (pc id : Nat) : Option Throttle := l.find? (fun h => h.id == id && h.pc == pc)

/-- May a request's row be activated at a cycle: no RFM is due at its bank, and a throttled requester finds a token (R308, R309)? -/
def mayActivate (g : SchedCfg) (pc : Nat) (w : SchedRun) (t : Nat) (q : HbmReq) : Bool :=
  !rfmDue g (w.x.bank (bankOf q.ofs)) &&
  (match throttleOf w.thr pc q.id with
   | none => true
   | some h => decide (g.hz ≤ h.level g t))

/-- Has a request reached its class's age limit (R305)? -/
def promotedAt (g : SchedCfg) (t : Nat) (q : HbmReq) : Bool :=
  decide (requesterClass q.id ≠ 0) && decide (q.arr + g.age (requesterClass q.id) ≤ t)

/-- A request's place in the order of service: class 0, then the promoted ones, then classes 1 to 3 (R304, R305). -/
def serviceRank (g : SchedCfg) (t : Nat) (q : HbmReq) : Nat :=
  if requesterClass q.id = 0 then 0 else if promotedAt g t q then 1 else requesterClass q.id + 1

/-- Is a request ready at a cycle? One promoted request of class 3 is served every PROMO_GAP cycles (R305). -/
def readyAt (g : SchedCfg) (pc : Nat) (w : SchedRun) (t : Nat) (q : HbmReq) : Bool :=
  decide (q.arr ≤ t) && (hits g w.x t q || mayActivate g pc w t q) &&
  (!(promotedAt g t q && requesterClass q.id == 3) ||
   match w.x.promAt with
   | none => true
   | some p => decide (p + g.gap ≤ t))

/-- Is request a before b: older, then of the lower requester (R304)? -/
def reqBefore (a b : HbmReq) : Bool := decide (a.arr < b.arr) || (a.arr == b.arr && decide (a.id < b.id))

/-- The first request of a list by age and requester. -/
def oldest : List HbmReq → Option HbmReq
  | [] => none
  | q :: l =>
    match oldest l with
    | none => some q
    | some r => if reqBefore r q then some r else some q

/-- The requests of the highest class that has one ready (R304). -/
def topClass (g : SchedCfg) (pc : Nat) (w : SchedRun) (t : Nat) : List HbmReq :=
  let l := w.x.queue.filter (readyAt g pc w t)
  l.filter (fun q => l.all (fun r => decide (serviceRank g t q ≤ serviceRank g t r)))

/-- The request the scheduler picks at a cycle (R304): the older request that HIT_CAP hits have kept waiting, else the oldest hit, else
the oldest. -/
def pick (g : SchedCfg) (pc : Nat) (w : SchedRun) (t : Nat) : Option HbmReq :=
  let l := topClass g pc w t
  match oldest (l.filter (fun q => !hits g w.x t q && decide (g.cap ≤ (w.x.bank (bankOf q.ofs)).hits))) with
  | some q => some q
  | none =>
    match oldest (l.filter (hits g w.x t)) with
    | some q => some q
    | none => oldest l

/-- Does an older request of q's class wait for another row of its bank? -/
def olderWaits (g : SchedCfg) (x : PcSt) (t : Nat) (q : HbmReq) : Bool :=
  x.queue.any (fun r => decide (r.arr ≤ t) && reqBefore r q && bankOf r.ofs == bankOf q.ofs && rowOf r.ofs != rowOf q.ofs
    && serviceRank g t r == serviceRank g t q)

/-- A token is taken from the bucket of a throttled requester. -/
def takeToken (g : SchedCfg) (l : List Throttle) (pc id t : Nat) : List Throttle :=
  l.map (fun h => if h.id = id ∧ h.pc = pc then { h with level0 := h.level g t - g.hz, at_ := t } else h)

/-- A bank serves a request at a cycle: a hit, or an activation of its row, counted for the row and for the requester; the hint decides
what becomes of the row (R306, R308). -/
def BankSt.serve (y : BankSt) (hit older : Bool) (t : Nat) (q : HbmReq) : BankSt :=
  let row := rowOf q.ofs
  let y := if hit then { y with hits := if older then y.hits + 1 else 0 }
    else { y with hits := 0, rows := Tab.put (fun _ => 0) y.rows row (y.count row + 1),
                  tally := Tab.put (fun _ => 0) y.tally q.id (Tab.get (fun _ => 0) y.tally q.id + 1) }
  { y with row := if requesterHint q.id = .close then none else some row, hint := requesterHint q.id, lastHit := t }

/-- The column command for a request is issued at a cycle. -/
def SchedRun.serve (g : SchedCfg) (pc : Nat) (w : SchedRun) (t : Nat) (q : HbmReq) : SchedRun :=
  let hit := hits g w.x t q
  let y := (w.x.bank (bankOf q.ofs)).serve hit (olderWaits g w.x t q) t q
  let prom := promotedAt g t q && requesterClass q.id == 3
  { x := { (w.x.setBank (bankOf q.ofs) y) with
             queue := w.x.queue.erase q, next := t + 1, promAt := if prom then some t else w.x.promAt },
    thr := if hit then w.thr else takeToken g w.thr pc q.id t,
    acts := if hit then w.acts else w.acts + 1,
    cols := (t, q) :: w.cols }

/-- The least of two cycles, where there are two. -/
def sooner (a b : Option Nat) : Option Nat :=
  match a, b with
  | none, b => b
  | a, none => a
  | some x, some y => some (min x y)

/-- The next cycle after t at which a queued request can become ready: its arrival, its token, its turn of PROMO_GAP. -/
def wakeAt (g : SchedCfg) (pc : Nat) (w : SchedRun) (t : Nat) (q : HbmReq) : Option Nat :=
  if t < q.arr then some q.arr
  else if rfmDue g (w.x.bank (bankOf q.ofs)) then none
  else
    let tok := match throttleOf w.thr pc q.id with
      | none => t
      | some h => t + ceilDiv (g.hz - h.level g t) (max 1 (g.rate * 1000000))
    let gap := match w.x.promAt with
      | none => t
      | some p => if requesterClass q.id = 3 then p + g.gap else t
    if t < max tok gap then some (max tok gap) else none

/-- Run a scheduler up to a cycle: one column command a cycle; each turn serves a request or passes to the next cycle at which one
becomes ready. -/
def SchedRun.upTo (g : SchedCfg) (pc now : Nat) : Nat → SchedRun → SchedRun
  | 0, w => w
  | n + 1, w =>
    if now ≤ w.x.next then w
    else
      match pick g pc w w.x.next with
      | some q => SchedRun.upTo g pc now n (w.serve g pc w.x.next q)
      | none =>
        match w.x.queue.foldl (fun a q => sooner a (wakeAt g pc w w.x.next q)) none with
        | none => w
        | some t => SchedRun.upTo g pc now n { w with x := { w.x with next := t } }

/-- The offender of a bank: the requester with the most activations, the lower ID at a tie (R308). -/
def BankSt.offender (y : BankSt) : Nat :=
  (y.tally.foldl (fun (a : Nat × Nat) e => if a.2 < e.2 then e else a) (0, 0)).1

/-- The row counts of a bank and the activations of its requesters start again, and its row is closed (R308). -/
def BankSt.recount (y : BankSt) : BankSt := { y with rows := [], tally := [], row := none, hits := 0 }

end Sys2Proof.Machine
end

