-- ==== Sys2Proof/Machine/Hbm.lean ====
section
/-!
DEFINITION. Sys2Proof/Machine/Hbm.lean: the HBM stacks as functions: training, refresh, row disturbance, throttles, ECC, scrubbing
(spec/15_hbm_memory.md, R297-R320). Addressed memory itself is in Machine/Mem.lean.
-/

namespace Sys2Proof.Machine

/-- Stack st's state that no register holds. -/
def State.stk (s : State) (st : Nat) : StackSt := Tab.get (fun _ => ({} : StackSt)) s.hbm.stks st

/-- Set it. -/
def State.setStk (s : State) (st : Nat) (x : StackSt) : State :=
  { s with hbm := { s.hbm with stks := Tab.put (fun _ => ({} : StackSt)) s.hbm.stks st x } }

/-- The function of a stack moves; the position of its last change from or to READY is kept (R120), and its schedulers start empty. -/
def State.stackTo (s : State) (st : Nat) (f : FnState) : State :=
  let s := if (s.fn (fnHbm st) == .ready) != (f == .ready) then s.setStk st { s.stk st with readyV := s.clk.vpos, pcs := [] } else s
  let s := if f == .ready then s else (List.range 32).foldl (fun (t : State) p => t.sightDrop 1 (32 * st + p)) s
  s.setFn (fnHbm st) f

/-! ## Dependents of a stack (R14, R318) -/

/-- The stacks that hold the memory of the layers and the Mesh Table of channel c, by the sets in force and pending (R14). -/
def State.compStacks (s : State) (c : Nat) : List Nat :=
  let x := s.cmp c
  (List.range 9).flatMap (fun j =>
    let vs := (((x.histOf j).getLast?.map (fun e => e.2)).toList ++ ((x.pendOf j).map (fun p => p.val)).toList).filter (fun v => v.en)
    vs.map (fun v =>
      if j ≤ 3 then s.f (F.ING_IN_CTL_STACK v.src)
      else if j ≤ 5 then stackOf (s.rd64 (R.COMP_CLIP_ADDR_LO v.src) (R.COMP_CLIP_ADDR_HI v.src))
      else if j ≤ 7 then stackOf v.addr
      else stackOf (s.rd64 R.HBM_MESH_ADDR_LO R.HBM_MESH_ADDR_HI)))

/-- Is a function that depends on the stack not OFF? -/
def State.stackUsed (s : State) (st : Nat) : Bool :=
  (List.range 16).any (fun x => s.active (fnDec x) && s.f (F.DEC_CTX_CTL_STACK x) == st)
    || (List.range 32).any (fun c => s.active (fnComp c) && (s.compStacks c).contains st)
    || (List.range 32).any (fun n => s.active (fnEnc n) && (stackOf (s.refAddr n) == st || stackOf s.lbAddr == st))

/-! ## Enable and disable (R298, R315, R318) -/

/-- The combination of RATIO and the frequency of CPLL_7 is one of R298. -/
def State.pinRateOk (s : State) : Bool :=
  let f := s.rdn (R.CKG_CPLL_FREQ 7)
  if s.f F.HBM_CTL_RATIO = 0 then f == 1200000000 else decide (1000000000 ≤ f) && decide (f ≤ 1200000000)

/-- HBM_s_CTL takes the value `new`. -/
def State.hbmWrite (s : State) (st : Nat) (new : Word) : State :=
  let want := bitsOf new.toNat 0 0 == 1
  match s.fn (fnHbm st), want with
  | .off, true =>
    if s.pinRateOk then ((s.wr (R.HBM_S_CTL st) new).stackTo st .starting).setF (F.HBM_S_STATUS_SELF_REFRESH st) 0 else s.refuse 0x10
  | .off, false => s.wr (R.HBM_S_CTL st) new
  | f, false =>
    if s.stackUsed st then s.refuse 0x10
    else
      let s := (s.wr (R.HBM_S_CTL st) new).stackTo st .off
      let s := s.setStk st { readyV := (s.stk st).readyV, scrub := (s.stk st).scrub }
      let s := s.setF (F.HBM_S_THROTTLED_THROTTLES st) 0
      if f == .ready then s.setF (F.HBM_S_STATUS_SELF_REFRESH st) 1 else s
  | _, true => s.wr (R.HBM_S_CTL st) new

/-- HBM_TRAINING_COMPLETE: repaired lanes, and READY, or FAULT at the third failure in a row (R315). -/
def State.hbmTrained (s : State) (st : Nat) (ok : Bool) (ms repairs : Nat) : State :=
  if !(s.fn (fnHbm st) == .starting) then s else
  let s := (List.range repairs).foldl (fun (t : State) _ => (t.setF (F.HBM_S_REPAIR_DQ st) (t.f (F.HBM_S_REPAIR_DQ st) + 1)).raise 0x1009 st) s
  let s := s.setF (F.HBM_S_TRAIN_MS_DURATION st) ms
  if ok then ((s.setStk st { s.stk st with fails := 0 }).stackTo st .ready).raise 0x1002 st
  else
    let n := (s.stk st).fails + 1
    let s := s.setF (F.HBM_S_FLAGS_TRAIN_FAIL st) 1
    if n < 3 then s.setStk st { s.stk st with fails := n }
    else ((s.setStk st { s.stk st with fails := 0 }).stackTo st .fault).raise 0x1003 st

/-! ## Refresh and row disturbance (R307-R311) -/

/-- The refresh window in ns (R307). -/
def State.refreshWindow (s : State) (st : Nat) : Nat := if s.on (F.HBM_S_TEMP_HOT st) then 16000000 else 32000000

/-- What the registers of stack st give its schedulers (R304-R309). -/
def State.schedCfg (s : State) (st : Nat) : SchedCfg :=
  let hz := s.rdn (R.CKG_CPLL_FREQ 7)
  let age (n : Nat) := ceilDiv (n * 64 * hz) 1000000000
  { hz := hz, age1 := age (s.f (F.HBM_S_AGE_AGE_1 st)), age2 := age (s.f (F.HBM_S_AGE_AGE_2 st)), age3 := age (s.f (F.HBM_S_AGE_AGE_3 st)),
    cap := s.f (F.HBM_S_SCHED_HIT_CAP st), idle := s.f (F.HBM_S_SCHED_IDLE st), gap := s.f (F.HBM_S_SCHED_PROMO_GAP st),
    thr := s.f (F.HBM_S_RH_THR st), rate := s.f (F.HBM_S_RH_RATE st), burst := s.f (F.HBM_S_RH_BURST st) }

/-- The scheduler state of a pseudo-channel. -/
def State.pcSt (s : State) (st pc : Nat) : PcSt := Tab.get (fun _ => ({} : PcSt)) (s.stk st).pcs pc

/-- Set it. -/
def State.setPcSt (s : State) (st pc : Nat) (x : PcSt) : State :=
  s.setStk st { s.stk st with pcs := Tab.put (fun _ => ({} : PcSt)) (s.stk st).pcs pc x }

/-- The HCLK cycle of a stack at a time in ns (R25). -/
def State.hcycle (s : State) (ns : Nat) : Nat := ns * s.rdn (R.CKG_CPLL_FREQ 7) / 1000000000

/-- The requests of a list that are requests of the pseudo-channel: a requester of R303, a valid offset that R300 maps to it. -/
def hbmReqs (pc : Nat) (l : List HbmAcc) : List HbmAcc :=
  l.filter (fun q => decide (q.id ≤ 77) && decide (q.ofs < 0x900000000) && pcOf q.ofs == pc)

/-- A read burst is a sample of probe 4: its wait at the scheduler, and the way to the stack and back to the crossbar port, for which the
spec gives no time: a free value (R430). -/
def State.readSample (s : State) (st : Nat) (e : Nat × HbmReq) : State :=
  if e.2.write then s else
  let v := s.free
  v.2.probe 4 (fun x => x == st + 4 * requesterClass e.2.id)
    (((e.1 - e.2.arr) * 1000000000 / max 1 (s.rdn (R.CKG_CPLL_FREQ 7)) + v.1 : Nat) : Int)

/-- Requests arrive at a pseudo-channel, and its scheduler runs to the present cycle (R304). -/
def State.hbmServe (s : State) (st pc : Nat) (reqs : List HbmAcc) : State :=
  let x := s.pcSt st pc
  let q := x.queue ++ (hbmReqs pc reqs).map (fun r => { id := r.id, ofs := r.ofs, write := r.write, arr := s.hcycle (s.clk.ns - r.ago) })
  let w := SchedRun.upTo (s.schedCfg st) pc (s.hcycle s.clk.ns) (3 * q.length + 8) { x := { x with queue := q }, thr := (s.stk st).throttles }
  let s := (s.setStk st { s.stk st with throttles := w.thr }).setPcSt st pc w.x
  let s := s.bumpBy (R.HBM_S_PC_ACT_CNT st pc) w.acts
  let s := w.cols.reverse.foldl (fun (t : State) e => t.readSample st e) s
  if w.cols.isEmpty then s else s.emit (.columns st pc w.cols.reverse)

/-- The stack's sensor reads a temperature: HOT sets at 85 °C and clears below 82 °C (R307). -/
def State.hbmTemp (s : State) (st : Nat) (celsius : Int) : State :=
  let s := s.setF (F.HBM_S_TEMP_SENSOR st) (ofSigned 8 (clampI (-128) 127 celsius))
  if !s.on (F.HBM_S_TEMP_HOT st) && decide (85 ≤ celsius) then
    ((s.setF (F.HBM_S_TEMP_HOT st) 1).setF (F.HBM_S_FLAGS_HOT st) 1).raise 0x100A st
  else if s.on (F.HBM_S_TEMP_HOT st) && decide (celsius < 82) then (s.setF (F.HBM_S_TEMP_HOT st) 0).raise 0x100A st
  else s

/-- A throttle of the offender starts with a full bucket, or restarts its HOLD (R309, R311). -/
def State.throttle (s : State) (st pc bank id : Nat) : State :=
  let x := s.stk st
  if x.throttles.any (fun t => t.id == id && t.pc == pc) then
    s.setStk st { x with throttles := x.throttles.map (fun t => if t.id = id ∧ t.pc = pc then { t with bank := bank, since := s.clk.ns } else t) }
  else
    let g := s.schedCfg st
    let h : Throttle := { id := id, pc := pc, bank := bank, since := s.clk.ns, level0 := g.burst * g.hz, at_ := s.hcycle s.clk.ns }
    let l := (if x.throttles.length < 8 then x.throttles else x.throttles.drop 1) ++ [h]
    let s := (s.setStk st { x with throttles := l }).bump (R.HBM_S_THROTTLE_CNT st)
    let s := (s.setF (F.HBM_S_THROTTLED_ID st) id).setF (F.HBM_S_THROTTLED_THROTTLES st) l.length
    (s.setF (F.HBM_S_FLAGS_THROTTLE st) 1).raise 0x1007 (32 * st + pc)

/-- An RFM that is due at a bank is issued: the counts of the bank start again, and the offender is throttled, or, of class 0, recorded
(R308-R311). -/
def State.rfmIssue (s : State) (st pc bank : Nat) : State :=
  let x := s.pcSt st pc
  let y := x.bank bank
  if !rfmDue (s.schedCfg st) y then s else
  let s := s.setPcSt st pc (x.setBank bank y.recount)
  let s := ((s.bump (R.HBM_S_RFM_CNT st)).bump (R.HBM_S_PC_RFM_CNT st pc)).raise 0x1006 (32 * st + pc)
  if requesterClass y.offender = 0 then
    ((s.setF (F.HBM_S_FLAGS_ISO_RH st) 1).bump (R.HBM_S_ISO_RH_CNT st)).raise 0x1008 (32 * st + pc)
  else s.throttle st pc bank y.offender

/-- REFRESH_MANAGEMENT: the requests that have arrived are served; where a row of the bank has reached THR, the RFM is issued (R308). -/
def State.hbmRfm (s : State) (st pc bank : Nat) (reqs : List HbmAcc) : State :=
  if s.ready (fnHbm st) then (s.hbmServe st pc reqs).rfmIssue st pc bank else s

/-- REFRESH: a regular refresh of a bank falls due; `last`: the last of its window. While a class 0 request waits at the bank it is
postponed, at most four times. At the window's last one an RFM that is due follows the refresh, and the counts restart (R307,
R308, R311). -/
def State.hbmRefresh (s : State) (st pc bank : Nat) (last : Bool) (reqs : List HbmAcc) : State :=
  if !s.ready (fnHbm st) then s else
  let s := s.hbmServe st pc reqs
  let x := s.pcSt st pc
  let y := x.bank bank
  let waits := x.queue.any (fun q => requesterClass q.id == 0 && bankOf q.ofs == bank && decide (q.arr ≤ s.hcycle s.clk.ns))
  if waits && decide (y.post < 4) then s.setPcSt st pc (x.setBank bank { y with post := y.post + 1, postLast := y.postLast || last })
  else
    let s := s.setPcSt st pc (x.setBank bank { y with row := none, hits := 0, post := 0, postLast := false })
    if last || y.postLast then
      let s := s.rfmIssue st pc bank
      let x := s.pcSt st pc
      s.setPcSt st pc (x.setBank bank (x.bank bank).recount)
    else s

/-- THROTTLE_END: HOLD refresh windows after the last offence, the throttle ends (R309). -/
def State.throttleEnd (s : State) (st pc requester : Nat) : State :=
  let x := s.stk st
  match x.throttles.find? (fun t => t.id == requester && t.pc == pc) with
  | none => s
  | some t =>
    let s := s.toNs (t.since + s.f (F.HBM_S_RH_HOLD_HOLD st) * s.refreshWindow st)
    let l := x.throttles.erase t
    (s.setStk st { x with throttles := l }).setF (F.HBM_S_THROTTLED_THROTTLES st) l.length

/-- Does a request wait for a token of its requester's throttle (R309)? -/
def State.waitsToken (s : State) (st pc : Nat) (q : HbmReq) : Bool :=
  let g := s.schedCfg st
  !hits g (s.pcSt st pc) (s.hcycle s.clk.ns) q &&
  (match throttleOf (s.stk st).throttles pc q.id with
   | none => false
   | some h => decide (h.level g (s.hcycle s.clk.ns) < g.hz))

/-- PROMOTION: the oldest request of the requester that has not reached its age limit waits until it does. It is then promoted: the
scheduler serves it after the ready class 0 requests (R305). One that waits for a token is not (R309). -/
def State.promote (s : State) (st pc requester : Nat) (reqs : List HbmAcc) : State :=
  if !s.ready (fnHbm st) || requesterClass requester == 0 then s else
  let s := s.hbmServe st pc reqs
  let g := s.schedCfg st
  match oldest ((s.pcSt st pc).queue.filter (fun q => q.id == requester && !promotedAt g (s.hcycle s.clk.ns) q)) with
  | none => s
  | some q =>
    let s := s.toNs (ceilDiv ((q.arr + g.age (requesterClass requester)) * 1000000000) (max 1 g.hz))
    let s := s.hbmServe st pc []
    if (s.pcSt st pc).queue.contains q && !s.waitsToken st pc q then s.emit (.promoted st pc requester) else s

/-! ## ECC, scrubbing, parity (R312-R316) -/

/-- A burst at an address is corrected (R312). -/
def State.eccCorrect (s : State) (a : Nat) : State :=
  let st := stackOf a
  let pc := pcOf a
  let fr := s.clk.vpos / s.clk.fu
  let x := s.stk st
  let s := ((s.bump (R.HBM_S_CE_CNT st)).bump (R.HBM_S_PC_CE_CNT st pc)).setF (F.HBM_S_FLAGS_CE st) 1
  if Tab.get (fun _ => (none : Option Nat)) x.ceFrame pc = some fr then s
  else (s.setStk st { x with ceFrame := Tab.put (fun _ => (none : Option Nat)) x.ceFrame pc (some fr) }).raise 0x1004 (32 * st + pc)

/-- An uncorrectable burst is recorded with its requester (R313). -/
def State.eccUncorrectable (s : State) (a requester : Nat) : State :=
  let st := stackOf a
  let s := (s.wrn (R.HBM_S_UE_ADDR_LO st) a).wrn (R.HBM_S_UE_ADDR_HI st) (a / 2 ^ 32 % 64 + requester % 128 * 256)
  ((s.bump (R.HBM_S_UE_CNT st)).setF (F.HBM_S_FLAGS_UE st) 1).raise 0x1005 st

/-- PATROL_SCRUB: the next granule of the stack is read at its time, one pass of the 150,994,944 granules every HOURS; its eight bursts
are requests of requester 77. What the scrubber finds is corrected or recorded with ID 127 (R303, R314). -/
def State.patrolScrub (s : State) (st : Nat) (r : ScrubResult) : State :=
  if !s.ready (fnHbm st) || s.f (F.HBM_S_SCRUB_HOURS st) == 0 then s else
  let s := s.toNs (s.stk st).scrubAt
  let x := s.stk st
  let o := x.scrub * 256
  let a := st * 2 ^ 36 + o
  let s := s.setStk st { x with scrub := (x.scrub + 1) % 150994944,
                                scrubAt := s.clk.ns + s.f (F.HBM_S_SCRUB_HOURS st) * 3600000000000 / 150994944 }
  let y := s.pcSt st (pcOf a)
  let s := s.setPcSt st (pcOf a)
    { y with queue := y.queue ++ (List.range 8).map (fun i => { id := 77, ofs := o + 32 * i, write := false, arr := s.hcycle s.clk.ns }) }
  match r with
  | .clean => s
  | .corrected => s.eccCorrect a
  | .uncorrectable => s.eccUncorrectable a 127

/-- CA_PARITY_ERROR: the command is retried; more than 16 in one pseudo-channel within 1 ms take the stack to FAULT (R316). -/
def State.caParity (s : State) (st pc : Nat) : State :=
  if !s.ready (fnHbm st) then s else
  let x := s.stk st
  let l := s.clk.ns :: (Tab.get (fun _ => ([] : List Nat)) x.parity pc).filter (fun t => decide (s.clk.ns < t + 1000000))
  let s := s.setF (F.HBM_S_FLAGS_CA_PARITY st) 1
  if 16 < l.length then ((s.setStk st { x with parity := Tab.put (fun _ => ([] : List Nat)) x.parity pc [] }).stackTo st .fault).raise 0x1003 st
  else s.setStk st { x with parity := Tab.put (fun _ => ([] : List Nat)) x.parity pc l }

/-! ## Registers -/

/-- Writes of HBM registers that have rules of their own. -/
def State.hbmReg (s : State) (a : Nat) (v : Word) : Option State :=
  let st := (a - R.HBM_S_CTL 0) / 0x10000
  let o := (a - R.HBM_S_CTL 0) % 0x10000
  if a < R.HBM_S_CTL 0 ∨ R.HBM_S_CTL 4 ≤ a then none
  else if o = 0 then some (s.hbmWrite st (v &&& 1))
  else if o = 0x0C then
    (if s.f (F.HBM_S_POOL_NEED_POOL st) ≠ 0 ∨ 36864 < bitsOf v.toNat 15 0 + bitsOf v.toNat 31 16 then some (s.refuse 0x10) else none)
  else if a = R.HBM_CTL then (if (List.range 4).any (fun i => s.active (fnHbm i)) then some (s.refuse 0x10) else none)
  else none

end Sys2Proof.Machine
end

