-- ==== Sys2Proof/Machine/Aud.lean ====
section
/-!
DEFINITION. Sys2Proof/Machine/Aud.lean: the audio function (spec/16_audio.md, R321-R340): positions, the clock loop, sources, the store,
outputs and their block decisions, protected outputs, TDM masks, ST 2110-30. Outputs are numbered as R338 numbers streams: AES3 0–7,
TDM transmit 8–11, transmit streams 16–79.
-/

namespace Sys2Proof.Machine

/-! ## Rates and positions (R322-R324) -/

/-- fs by AUD_CTL.FS (R322). -/
def audRate (code : Nat) : Nat :=
  match code with | 0 => 44100 | 1 => 48000 | 2 => 88200 | 3 => 96000 | 4 => 176400 | 5 => 192000 | _ => 0

/-- fs. -/
def State.fsA (s : State) : Nat := audRate (s.f F.AUD_CTL_FS)

/-- ⌈DEPTH × fs / 1,000⌉: the samples a channel keeps (R329). -/
def State.audDepth (s : State) : Nat := ceilDiv (s.f F.AUD_CTL_DEPTH * s.fsA) 1000

/-- p(T): in MODE 0, and before the first lock in the other modes, T × fs; from then on it advances with the ACLK frames, whose rate
is fs adjusted by f (R323, R324). -/
def State.posAt (s : State) (t : Nat) : Nat :=
  match s.aud.base with
  | none => t * s.fsA / 1000000000
  | some (q0, t0) => (q0 + (t - t0) * s.fsA * (256000000000 + s.aud.f).toNat * 2 ^ 24 / (256000000000 * 1000000000)) / 2 ^ 24

/-- p now. -/
def State.audPos (s : State) : Nat := s.posAt s.mediaTime

/-- T(q): the first ns with p(T) = q (R323). -/
def State.timeOf (s : State) (q : Nat) : Nat :=
  match s.aud.base with
  | none => ceilDiv (q * 1000000000) (max 1 s.fsA)
  | some (q0, t0) =>
    let n := fun (d : Nat) => d * (256000000000 * 1000000000)
    let k := max 1 (s.fsA * (256000000000 + s.aud.f).toNat * 2 ^ 24)
    t0 + ceilDiv (n (q * 2 ^ 24 - q0)) k - n (q0 - q * 2 ^ 24) / k

/-- Time runs on to a media time, unless it has passed. -/
def State.toMedia (s : State) (t : Nat) : State := s.toStc (s.clk.stc + (t - s.mediaTime))

/-- An audio input's state. -/
def State.ain (s : State) (i : Nat) : AinSt := Tab.get (fun _ => ({} : AinSt)) s.aud.ins i

/-- Set it. -/
def State.setAin (s : State) (i : Nat) (x : AinSt) : State := { s with aud := { s.aud with ins := Tab.put (fun _ => ({} : AinSt)) s.aud.ins i x } }

/-- An audio output's state. -/
def State.aout (s : State) (u : Nat) : AoutSt := Tab.get (fun _ => ({} : AoutSt)) s.aud.outs u

/-- Set it. -/
def State.setAout (s : State) (u : Nat) (x : AoutSt) : State := { s with aud := { s.aud with outs := Tab.put (fun _ => ({} : AoutSt)) s.aud.outs u x } }

/-- The outputs that exist. -/
def audOuts : List Nat := List.range 12 ++ (List.range 64).map (fun i => 16 + i)

/-- The frequency of AUD_MCLK_OUT in Hz, ACLK at its programmed frequency; none while it is not driven (R322). -/
def State.mclkOut (s : State) : Option Nat :=
  if s.on F.AUD_CTL_MCLK_OUT_EN then some (s.rdn (R.CKG_CPLL_FREQ 10) / 2 ^ s.f F.AUD_CTL_MCLK_DIV) else none

/-! ## The demand of the store (R329) -/

/-- The enabled source channels. -/
def State.audChans (s : State) : Nat :=
  2 * ((List.range 8).filter (fun i => s.on (F.AUD_AIN_CTL_EN i))).length
    + ((List.range 4).map (fun t => if s.on (F.AUD_TDM_CTL_RX_EN t) then s.f (F.AUD_TDM_CTL_SLOTS t) else 0)).sum
    + ((List.range 64).map (fun r => if s.on (F.AUD_RXS_CTL_EN r) then s.f (F.AUD_RXS_CTL_CHANS r) else 0)).sum

/-- The pool demand, MiB; none while the function is OFF. -/
def State.audNeed (s : State) : Nat := if s.on F.AUD_CTL_EN then toMiB (s.audDepth * 4 * s.audChans) else 0

/-- Does the demand of the settings in `s` fit the pool of the store's stack (R302)? -/
def State.audFits (s : State) : Bool :=
  let st := s.f F.AUD_CTL_STACK
  let d := s.demandOf fnAud
  let have_ := if d.1 = st then d.2 else 0
  decide (s.audNeed ≤ have_) || decide (s.rdn (R.HBM_S_POOL_NEED st) - have_ + s.audNeed ≤ s.f (F.HBM_S_POOL_SIZE st))

/-- The demand follows the settings. -/
def State.audPool (s : State) : State :=
  ((s.poolReturn fnAud).poolTake fnAud (s.f F.AUD_CTL_STACK) s.audNeed).wrn R.AUD_NEED s.audNeed

/-! ## Output parameters (R330, R331) -/

/-- The control register of an output and its enable bit. -/
def outCtl (u : Nat) : Fld :=
  if u < 8 then F.AUD_AOUT_CTL_EN u else if u < 16 then F.AUD_TDM_CTL_TX_EN (u - 8) else F.AUD_TXS_CTL_EN (u - 16)

/-- TRIM of an output. -/
def outTrim (u : Nat) : Fld :=
  if u < 8 then F.AUD_AOUT_TRIM_TRIM u else if u < 16 then F.AUD_TDM_TRIM_TRIM (u - 8) else F.AUD_TXS_TRIM_TRIM (u - 16)

/-- NOVID of an output. -/
def State.outNovid (s : State) (u : Nat) : Bool :=
  s.on (if u < 8 then F.AUD_AOUT_CTL_NOVID u else if u < 16 then F.AUD_TDM_CTL_NOVID (u - 8) else F.AUD_TXS_CTL_NOVID (u - 16))

/-- VCH of an output. -/
def State.outVch (s : State) (u : Nat) : Nat :=
  s.f (if u < 8 then F.AUD_AOUT_CTL_VCH u else if u < 16 then F.AUD_TDM_CTL_VCH (u - 8) else F.AUD_TXS_CTL_VCH (u - 16))

/-- The block of an output in frames (R331). -/
def State.outBlock (s : State) (u : Nat) : Nat :=
  if u < 8 then 192 else if u < 16 then 2 ^ s.f (F.AUD_TDM_CTL_BLK (u - 8)) else (s.txsPack (u - 16)).1

/-- dly of R330. -/
def State.outDly (s : State) (u : Nat) : Int :=
  let trim := signedOf 16 (s.fs (outTrim u))
  if s.outNovid u then trim
  else
    let c := s.outVch u
    let nm := s.clk.num * s.clk.lm * 65536
    let du := s.originOf (R.MER_CH_ORIGIN c) + 64 * (s.encUnit c).getD 0 + s.f (F.ENC_CH_RC_LAT_LAT c) * 65536
    (((du * s.clk.den * s.fsA + nm - 1) / nm : Nat) : Int) + trim

/-- The checks of R330 on an output's delay and channel. -/
def State.outDlyOk (s : State) (u : Nat) : Bool :=
  let d := s.outDly u
  decide (1 ≤ d) && decide (d ≤ (s.audDepth : Int) - 192)
    && !(decide (u < 8) && s.on (F.AUD_AOUT_CTL_PROTECT u) && decide (d < 16))
    && (s.outNovid u || s.active (fnEnc (s.outVch u)))

/-- Does every enabled output keep its dly from `s` to `t` (R330)? -/
def State.audDlyKept (s t : State) : Bool := audOuts.all (fun u => !s.on (outCtl u) || s.outDly u == t.outDly u)

/-- The sources of an output, in force: subframes A and B; the slots; the channels of the stream (R325). -/
def State.outSrcs (s : State) (u : Nat) : List Nat :=
  if u < 8 then [s.fs (F.AUD_AOUT_CTL_SRC_A u), s.fs (F.AUD_AOUT_CTL_SRC_B u)]
  else if u < 16 then (List.range (s.f (F.AUD_TDM_CTL_SLOTS (u - 8)))).map (fun k =>
    s.fs (if k % 2 = 0 then F.AUD_TDM_SRC_SRC0 (u - 8) (k / 2) else F.AUD_TDM_SRC_SRC1 (u - 8) (k / 2)))
  else (List.range (s.f (F.AUD_TXS_CTL_CHANS (u - 16)))).map (fun c =>
    let k := s.f (F.AUD_TXS_CTL_BASE (u - 16)) + c
    if k < 256 then s.fs (F.AUD_NTX_SRC_SRC k) else 511)

/-- The staged registers of an output. -/
def State.outStaged (s : State) (u : Nat) : List Nat :=
  if u < 8 then R.AUD_AOUT_CTL u :: R.AUD_AOUT_TRIM u :: (List.range 6).map (R.AUD_AOUT_CS u)
  else if u < 16 then R.AUD_TDM_TRIM (u - 8) :: (List.range 8).map (R.AUD_TDM_SRC (u - 8))
  else R.AUD_TXS_TRIM (u - 16) :: (List.range (s.f (F.AUD_TXS_CTL_CHANS (u - 16)))).map (fun c => R.AUD_NTX_SRC (s.f (F.AUD_TXS_CTL_BASE (u - 16)) + c))

/-! ## The source store (R325-R329) -/

/-- Channel index of network receive channel k. -/
def netChan (k : Nat) : Nat := 80 + k

/-- The receive stream that holds network channel k. -/
def State.rxsOf (s : State) (k : Nat) : Option Nat :=
  (List.range 64).find? (fun r => s.on (F.AUD_RXS_CTL_EN r) && decide (s.f (F.AUD_RXS_CTL_BASE r) ≤ k)
    && decide (k < s.f (F.AUD_RXS_CTL_BASE r) + s.f (F.AUD_RXS_CTL_CHANS r)))

/-- Does a source channel read as silence now (R325, R334)? -/
def State.srcSilent (s : State) (ch : Nat) : Bool :=
  if ch < 16 then !s.on (F.AUD_AIN_CTL_EN (ch / 2))
  else if ch < 80 then
    let t := (ch - 16) / 16
    let k := (ch - 16) % 16
    !s.on (F.AUD_TDM_CTL_RX_EN t) || bitsOf (s.f (F.AUD_TDM_MASK_RX t)) k k == 0 || (!s.on (F.AUD_TDM_CTL_MASTER t) && !s.on (F.AUD_TDM_STATUS_FS_LOCK t))
  else if ch < 336 then (s.rxsOf (ch - 80)).isNone
  else true

/-- The sample of a channel at a position, if the store holds one; silence is a sample of 0. -/
def State.smp (s : State) (ch q : Nat) : Option AudSmp :=
  if s.srcSilent ch then some { val := 0, v := false, at_ := 0 }
  else Tab.get (fun _ => (none : Option AudSmp)) (s.aud.store.map (fun e => (e.1, some e.2))) (ch * 2 ^ 48 + q)

/-- Store a sample, and forget what lies beyond the depth (R329). -/
def State.putSmp (s : State) (ch q : Nat) (x : AudSmp) : State :=
  let key := ch * 2 ^ 48 + q
  let old := s.aud.store.filter (fun e => !(e.1 / 2 ^ 48 == ch && decide (e.1 % 2 ^ 48 + s.audDepth ≤ q)))
  { s with aud := { s.aud with store := Tab.insert (Tab.erase old key) key x } }

/-- Store consecutive samples from position q on, the j-th written at `at_ j`. -/
def State.putRun (s : State) (ch q : Nat) (l : List (Nat × Bool)) (at_ : Nat → Nat) : State :=
  l.zipIdx.foldl (fun (t : State) e => t.putSmp ch (q + e.2) { val := e.1.1 % 2 ^ 24, v := e.1.2, at_ := at_ e.2 }) s

/-- The channels of an input: two of an AES3 input, the slots of a TDM port. -/
def State.ainChans (s : State) (i : Nat) : List Nat :=
  if i < 8 then [2 * i, 2 * i + 1] else (List.range (s.f (F.AUD_TDM_CTL_SLOTS (i - 8)))).map (fun k => 16 + 16 * (i - 8) + k)

/-- Is input i the one that the clock follows (R324)? -/
def State.followed (s : State) (i : Nat) : Bool :=
  (s.f F.AUD_CLK_MODE == 1 && decide (i < 8) && s.f F.AUD_CLK_SRC == i) || (s.f F.AUD_CLK_MODE == 2 && decide (8 ≤ i) && s.f F.AUD_CLK_SRC == i - 8)

/-- The position of a block of `n` frames stamped at media time t (R326): the first block goes to the rounded position of its stamp, each
later one after the one before it; more than 2 samples apart, it is re-placed, counted, and what it skips reads as silence. The
state after, and the position. Probe 5 samples the store level: of an input that steers no loop the spec gives no figure, so it is a
free value (R430). -/
def State.placeBlock (s : State) (i n t slipReg : Nat) : State × Nat :=
  let s := if s.followed i then s else (let v := s.free; v.2.probe 5 (fun x => x == i) (v.1 : Int))
  let x := s.ain i
  let p := if s.aud.base.isSome then s.posAt t else (t * s.fsA + 500000000) / 1000000000
  match x.next with
  | none => (s.setAin i { x with next := some (p + n) }, p)
  | some q =>
    if s.followed i || (decide (p ≤ q + 2) && decide (q ≤ p + 2)) then (s.setAin i { x with next := some (q + n) }, q)
    else
      let s := s.setAin i { x with next := some (p + n) }
      let gap := if q < p then min (p - q) s.audDepth else 0
      let s := (s.ainChans i).foldl (fun (u : State) ch => u.putRun ch (p - gap) (List.replicate gap (0, false)) (fun _ => t)) s
      (((s.bump slipReg).setF F.AUD_FLAGS_SLIP 1).raise 0x1403 (if i < 8 then i else 8 + (i - 8)), p)

/-- The media time of an STC stamp. -/
def State.mediaOf (s : State) (stamp : Nat) : Nat := s.mediaTime - (s.clk.stc - stamp)

/-- The AES3 channel-status CRC over bytes 0 to 22 (R327, R332), bits taken least significant first, as AES3 sends them. -/
def aesCrc (l : List Nat) : Nat :=
  (l.take 23).foldl (fun c b => (List.range 8).foldl (fun (c : Nat) _ => if c % 2 = 1 then (c / 2) ^^^ 0xB8 else c / 2) (c ^^^ (b % 256))) 0xFF

/-- Words of channel-status bytes into six registers. -/
def State.putCs (s : State) (r : Nat → Nat) (l : List Nat) : State := (List.range 6).foldl (fun (t : State) w => t.wrn (r w) (leNat l (4 * w) 4)) s

/-- Samples with the subframes whose parity failed replaced by the sample before; the last sample, and the failures. -/
def parityFix (prev : Nat) : List (Nat × Bool × Bool) → List (Nat × Bool) × Nat × Nat
  | [] => ([], prev, 0)
  | e :: r =>
    let v := if e.2.2 then prev else e.1 % 2 ^ 24
    let t := parityFix v r
    ((v, e.2.1) :: t.1, t.2.1, t.2.2 + (if e.2.2 then 1 else 0))

/-- An input gains or loses lock (R327, R334). -/
def State.ainLock (s : State) (i : Nat) (on_ : Bool) : State :=
  let x := if i < 8 then F.AUD_AIN_STATUS_LOCK i else F.AUD_TDM_STATUS_FS_LOCK (i - 8)
  let s := if on_ then s else s.setAin i {}
  if s.on x = on_ then s else (s.setF x (if on_ then 1 else 0)).raise 0x1402 i

/-- AES3_BLOCK: a block whose Z preamble came `frames` frames after the one before, at a frame rate `ppm` off fs, first frame stamped
at STC `stamp` (R326, R327). -/
def State.aes3Block (s : State) (i stamp frames : Nat) (ppm : Int) (data : List AesFrame) (csA csB : List Nat) : State :=
  if !s.on (F.AUD_AIN_CTL_EN i) || !s.active fnAud then s
  else if !(frames == 192) || decide (1000 < ppm.natAbs) then s.ainLock i false
  else if !s.on (F.AUD_AIN_STATUS_LOCK i) then
    let n := (s.ain i).good + 1
    let s := s.setAin i { s.ain i with good := n }
    if 2 ≤ n then s.ainLock i true else s
  else
    let t := s.mediaOf stamp
    let data := data.take 192
    let pl := s.placeBlock i 192 t (R.AUD_AIN_SLIP_CNT i)
    let s := pl.1
    let p := pl.2
    let x := s.ain i
    let fa := parityFix (x.prev.getD 0 0) (data.map (fun (f : AesFrame) => (f.a, f.va, f.pa)))
    let fb := parityFix (x.prev.getD 1 0) (data.map (fun (f : AesFrame) => (f.b, f.vb, f.pb)))
    let at_ := fun (j : Nat) => t + ceilDiv ((j + 1) * 1000000000) (max 1 s.fsA)
    let s := ((s.putRun (2 * i) p fa.1 at_).putRun (2 * i + 1) p fb.1 at_).bumpBy (R.AUD_AIN_PAR_CNT i) (fa.2.2 + fb.2.2)
    let bad := fun (cs : List Nat) => s.on (F.AUD_AIN_CTL_CRC_CHK i) && byteAt cs 0 % 2 == 1 && aesCrc cs != byteAt cs 23
    let errs := (if bad csA then 1 else 0) + (if bad csB then 1 else 0)
    let s := if bad csA then s else s.putCs (R.AUD_AIN_CS_A i) csA
    let s := if bad csB then s else s.putCs (R.AUD_AIN_CS_B i) csB
    let s := s.bumpBy (R.AUD_AIN_CRC_CNT i) errs
    let s := if fa.2.2 + fb.2.2 + errs = 0 then s else s.setF F.AUD_FLAGS_CS_ERR 1
    let blk : AesBlk := { pos := p, csA := csA, csB := csB, at_ := t + ceilDiv 2000000000 (max 1 s.fsA) }
    let s := s.setAin i { s.ain i with prev := [fa.2.1, fb.2.1], blocks := (x.blocks ++ [blk]).drop (x.blocks.length + 1 - (s.audDepth / 192 + 3)) }
    let s := s.setF (F.AUD_AIN_STATUS_V_A i) (if data.any (fun (f : AesFrame) => f.va) then 1 else 0)
    let s := s.setF (F.AUD_AIN_STATUS_V_B i) (if data.any (fun (f : AesFrame) => f.vb) then 1 else 0)
    let s := s.setF (F.AUD_AIN_STATUS_NONAUDIO i) (bitsOf (byteAt csA 0) 1 1)
    let s := s.wrn (R.AUD_AIN_TS_NS i) (stamp % 1000000000)
    (s.wrn (R.AUD_AIN_TS_SEC_LO i) (stamp / 1000000000)).wrn (R.AUD_AIN_TS_SEC_HI i) (stamp / 1000000000 / 2 ^ 32 % 65536)

/-- AES3_INPUT_LOSS (R327). -/
def State.aes3Loss (s : State) (i : Nat) : State := s.ainLock i false

/-- TDM_BLOCK: the frames of a block, slot by slot (R326, R334). A slave locks after 16 frames. -/
def State.tdmBlock (s : State) (t stamp : Nat) (data : List (List Nat)) : State :=
  let i := 8 + t
  if !(s.on (F.AUD_TDM_CTL_RX_EN t) || s.on (F.AUD_TDM_CTL_TX_EN t)) || !s.active fnAud then s
  else if !s.on (F.AUD_TDM_CTL_MASTER t) && !s.on (F.AUD_TDM_STATUS_FS_LOCK t) then
    let n := (s.ain i).good + data.length
    let s := s.setAin i { s.ain i with good := n }
    if 16 ≤ n then s.ainLock i true else s
  else if !s.on (F.AUD_TDM_CTL_RX_EN t) then s
  else
    let m := s.mediaOf stamp
    let pl := s.placeBlock i data.length m (R.AUD_TDM_SLIP_CNT t)
    let fs := max 1 s.fsA
    (List.range (s.f (F.AUD_TDM_CTL_SLOTS t))).foldl (fun (u : State) k =>
      u.putRun (16 + 16 * t + k) pl.2 (data.map (fun fr => (fr.getD k 0, false))) (fun j => m + ceilDiv ((j + 1) * 1000000000) fs)) pl.1

/-- TDM_SLAVE_LOCK_LOSS (R334). -/
def State.tdmLoss (s : State) (t : Nat) : State := if s.on (F.AUD_TDM_CTL_MASTER t) then s else s.ainLock (8 + t) false

/-- A packet of receive stream r that the merge has kept (R328). -/
def State.rxPacket (s : State) (r ts : Nat) (samples : List (List Int)) : State :=
  if !s.on (F.AUD_RXS_CTL_EN r) || !s.active fnAud then s
  else
    let now := s.audPos
    let p0 := now - (now + 2 ^ 32 - ts % 2 ^ 32) % 2 ^ 32
    let n := samples.length
    let base := s.f (F.AUD_RXS_CTL_BASE r)
    let chans := s.f (F.AUD_RXS_CTL_CHANS r)
    let readers := audOuts.filter (fun u => s.on (outCtl u) && (s.outSrcs u).any (fun c => decide (netChan base ≤ c) && decide (c < netChan base + chans)))
    if readers.isEmpty = false ∧ readers.all (fun u =>
        let x := ((p0 + n : Nat) : Int) - 1 + s.outDly u
        decide (x < 0) || decide (s.timeOf x.toNat < s.mediaTime)) = true then
      let fr := s.clk.vpos / s.clk.fu
      let s := ((s.bump (R.AUD_RXS_LATE_CNT r)).setF F.AUD_FLAGS_LATE 1)
      if Tab.get (fun _ => (none : Option Nat)) s.aud.lateFrame r = some fr then s
      else ({ s with aud := { s.aud with lateFrame := Tab.put (fun _ => (none : Option Nat)) s.aud.lateFrame r (some fr) } }).raise 0x1409 r
    else
      let t := s.mediaTime
      let wide := s.on (F.AUD_RXS_CTL_L24 r)
      let s := (List.range chans).foldl (fun (u : State) c =>
        u.putRun (netChan (base + c)) p0 (samples.map (fun f => (ofSigned 24 (f.getD c 0 * (if wide then 1 else 256)), false))) (fun _ => t)) s
      s.bump (R.AUD_RXS_PKT_CNT r)

/-! ## The clock loop (R324) -/

/-- The phase error e of an evaluation: from the ACLK frame count in MODE 0; the store level in 1/256 frame in MODES 1 and 2; the phase
itself in MODE 3. -/
def State.audErr (s : State) (obs : Int) : Int :=
  match s.f F.AUD_CLK_MODE with
  | 0 => (s.audPos : Int) * 256 - obs * 256
  | 3 => obs
  | _ => obs - (s.f F.AUD_CLK_TARGET : Int) * 256

/-- An output's RUN. -/
def State.setRun (s : State) (u : Nat) (b : Bool) : State :=
  if u < 8 then s.setF (F.AUD_AOUT_STATUS_RUN u) (if b then 1 else 0)
  else if u < 16 then s.setF (F.AUD_TDM_STATUS_RUN (u - 8)) (if b || s.on (F.AUD_TDM_CTL_RX_EN (u - 8)) then 1 else 0)
  else s

/-- Output u starts its frames; its blocks carry 0 until the first boundary at least 256 frames later, where its first routed sample goes
out (R336). -/
def State.outStart (s : State) (u : Nat) : State :=
  let d := s.outDly u
  let blk := max 1 (s.outBlock u)
  let boundary := fun (x : Int) => ceilDiv (x - d).toNat blk * blk
  (s.setAout u { st := .ready, next := boundary ((s.audPos : Int) + 1), d := d,
                 firstX := ((boundary ((s.audPos : Int) + 256) : Int) + d).toNat }).setRun u true

/-- The audio function enters READY, and the enabled outputs start. -/
def State.audReady (s : State) : State :=
  if s.fn fnAud == .starting && s.on F.AUD_STATUS_LOCKED && s.ready fnMer && (s.f (F.CKG_CPLL_STATUS_STATE 10) == 4) then
    let s := s.setFn fnAud .ready
    audOuts.foldl (fun (t : State) u => if (t.aout u).st == .starting then t.outStart u else t) s
  else s

/-- The function leaves READY for STARTING: its outputs stop and wait (R14, R324). -/
def State.audFall (s : State) : State :=
  if s.fn fnAud == .ready then
    audOuts.foldl (fun (t : State) u =>
      match (t.aout u).st with
      | .ready | .pendingRestart => (t.setAout u { st := .starting }).setRun u false
      | .draining => (t.setAout u {}).setRun u false
      | _ => t) (s.setFn fnAud .starting)
  else s

/-- What steers CPLL_10: f, and in MODE 0 the PTP DCO adjustment in force with it (R324), before it is clamped (R73). -/
def State.aclkTarget (s : State) (raw : Int) : Int := if s.f F.AUD_CLK_MODE = 0 then s.dcoNow + raw else raw

/-- The frequency CPLL_10 is steered to, in 1/256 ppb off its programmed one (R73, R324). -/
def State.aclkSteer (s : State) : Int := clampI (-64000000) 64000000 (s.aclkTarget s.aud.f)

/-- AUDIO_LOOP_EVALUATE: e updates i and f; a steering target of CPLL_10 beyond ±250 ppm is clamped and raises event 0x0407 (R73); sixteen small or large errors in a row lock or unlock the loop (R324). -/
def State.audLoop (s : State) (obs : Int) : State :=
  if !s.active fnAud then s else
  let mode := s.f F.AUD_CLK_MODE
  let timed := mode == 0 || mode == 3
  let s := if timed then s.toMedia (s.timeOf s.aud.evalAt) else s
  let e := s.audErr obs
  let src := s.f F.AUD_CLK_SRC
  let s := if mode = 1 ∨ mode = 2 then s.probe 5 (fun x => x == (if mode = 1 then src else 8 + src)) obs else s
  let lim := fun (x : Int) => clampI (-64000000) 64000000 x
  let i := lim (s.aud.i + sar (e * 256) (s.f F.AUD_CLK_KI))
  let raw : Int := i + sar (e * 256) (s.f F.AUD_CLK_KP)
  let f := lim raw
  let now := s.mediaTime
  let base := s.aud.base.map (fun b => (b.1 + (now - b.2) * s.fsA * (256000000000 + s.aud.f).toNat * 2 ^ 24 / (256000000000 * 1000000000), now))
  let ok := if e.natAbs ≤ 64 then s.aud.okRun + 1 else 0
  let bad := if 1024 < e.natAbs then s.aud.badRun + 1 else 0
  let s := { s with aud := { s.aud with i := i, f := f, okRun := ok, badRun := bad, base := base, evalAt := s.audPos / 192 * 192 + 192 } }
  let s := (s.wrn R.AUD_ERR (sat32 e)).wrn R.AUD_FREQ (ofSigned 32 f)
  let target := State.aclkTarget s raw
  let s := if decide (target < -64000000) || decide (64000000 < target) then s.raise 0x0407 10 else s
  if 16 ≤ ok && !s.on F.AUD_STATUS_LOCKED then
    let s := if mode != 0 && s.aud.base.isNone then { s with aud := { s.aud with base := some (s.audPos * 2 ^ 24, now) } } else s
    ((s.setF F.AUD_STATUS_LOCKED 1).raise 0x1404 0).audReady
  else if 16 ≤ bad && s.on F.AUD_STATUS_LOCKED then
    (((s.setF F.AUD_STATUS_LOCKED 0).setF F.AUD_FLAGS_UNLOCK 1).raise 0x1404 0).audFall
  else s

/-! ## Output blocks (R331-R333) -/

/-- Is output frame x sent as 0 before any source is looked at: before the first routed block, after EN = 0, beside a TRIM
change (R335, R336)? -/
def AoutSt.zeroAt (o : AoutSt) (x : Nat) : Bool :=
  decide (x < o.firstX) || (match o.stopX with | some e => decide (e ≤ x) | none => false) || o.zeros.any (fun z => decide (z.1 ≤ x) && decide (x < z.2))

/-- The sample that frame x of a block carries from a source: (value, validity), or none where the store holds none in time. -/
def State.outSmp (s : State) (b : AudBlk) (ch x : Nat) : Option (Nat × Bool) :=
  let q := (x : Int) - b.d
  if ch = 511 then some (0, false)
  else if q < 0 then none
  else match s.smp ch q.toNat with
    | some y => if y.at_ ≤ s.timeOf x then some (y.val, y.v) else none
    | none => none

/-- The block's samples, frame by frame, source by source; and how many were missing (R331). -/
def State.outFrames (s : State) (o : AoutSt) (b : AudBlk) : List (List (Nat × Bool)) × Nat :=
  let rows := (List.range (b.x1 - b.x0)).map (fun j =>
    let x := b.x0 + j
    if o.zeroAt x then b.srcs.map (fun _ => ((0, false), false))
    else b.srcs.map (fun ch => match s.outSmp b ch x with | some v => (v, false) | none => ((0, false), true)))
  (rows.map (fun r => r.map (fun e => e.1)), (rows.map (fun r => (r.filter (fun e => e.2)).length)).sum)

/-- Count samples sent as 0 under R331. -/
def State.outUnder (s : State) (u n : Nat) : State :=
  if n = 0 then s else
  let reg := if u < 8 then R.AUD_AOUT_UNDER_CNT u else if u < 16 then R.AUD_TDM_UNDER_CNT (u - 8) else R.AUD_TXS_UNDER_CNT (u - 16)
  let fr := s.clk.vpos / s.clk.fu
  let o := s.aout u
  let s := (s.bumpBy reg n).setF F.AUD_FLAGS_UNDER 1
  if o.underFrame = some fr then s else (s.setAout u { o with underFrame := some fr }).raise 0x1407 u

/-- The AES3 block of a source that holds position q. -/
def State.aesBlkAt (s : State) (ch q : Nat) : Option AesBlk :=
  if ch < 16 then (s.ain (ch / 2)).blocks.find? (fun b => decide (b.pos ≤ q) && decide (q < b.pos + 192)) else none

/-- The channel status of a subframe (R332). -/
def State.outCs (s : State) (b : AudBlk) (sub : Nat) : List Nat :=
  let ch := b.srcs.getD sub 511
  let own := match s.aesBlkAt ch ((b.x0 : Int) - b.d).toNat with
    | some k => if b.csSrc then (if ch % 2 = 0 then k.csA else k.csB) else b.cs
    | none => b.cs
  if b.crcGen then own.take 23 ++ [aesCrc own] else own

/-- Is the pair a SMPTE ST 337 sync pair in its 16-, 20- or 24-bit mode (R333)? -/
def syncPair (a b : Nat) : Bool :=
  (a == 0xF87200 && b == 0x4E1F00) || (a == 0x6F8720 && b == 0x54E1F0) || (a == 0x96F872 && b == 0xA54E1F)

/-- The detections of ST 337 pairs and non-audio source blocks in a block: each the frame from which it mutes and the time it was
complete (R333). -/
def State.detections (s : State) (b : AudBlk) : List (Nat × Nat) :=
  (List.range (b.x1 - b.x0)).flatMap (fun j =>
    let x := b.x0 + j
    let q := ((x : Int) - b.d).toNat
    b.srcs.flatMap (fun ch =>
      (match s.smp ch q, s.smp ch (q + 1) with
        | some p, some r => if ch < 336 ∧ syncPair p.val r.val = true then [(x, r.at_)] else []
        | _, _ => [])
      ++ (match s.aesBlkAt ch q with
        | some k => if bitsOf (byteAt (if ch % 2 = 0 then k.csA else k.csB) 0) 1 1 = 1 ∧ (j = 0 ∨ k.pos = q) then [(x, k.at_)] else []
        | none => [])))

/-- The frame from which a detection mutes, and whether it is late (R333). -/
def State.muteStart (s : State) (e : Nat × Nat) : Nat × Bool :=
  if e.2 < s.timeOf e.1 then (e.1, false) else (max e.1 (s.posAt e.2 + 1), true)

/-- The mute of protected output u over a block that ends now: the frame from which the block is muted; at its end the mute may be over
(R333). -/
def State.protect (s : State) (u : Nat) (b : AudBlk) : State × Option Nat :=
  let det := s.detections b
  let starts := det.map s.muteStart
  let o := s.aout u
  let cand := (o.muteX.toList ++ starts.map (fun e => e.1))
  let first := match cand with | [] => none | a :: r => some (r.foldl min a)
  let late := starts.any (fun e => e.2)
  let s := if late && decide (u < 8) then s.setF (F.AUD_AOUT_STATUS_LATE_MUTE u) 1 else s
  if o.muted then
    let more := s.detections { b with x0 := b.x1, x1 := b.x1 + 1 }
    let clean := if det.isEmpty then o.clean + 1 else 0
    if s.f (F.AUD_AOUT_UNMUTE_UNMUTE u) ≤ clean ∧ more.isEmpty = true then
      (((s.setAout u { o with muted := false, clean := 0, muteX := none }).setF (F.AUD_AOUT_STATUS_MUTED u) 0).raise 0x1406 u, some b.x0)
    else (s.setAout u { o with clean := clean }, some b.x0)
  else match first with
    | none => (s, none)
    | some x =>
      if b.x1 ≤ x then (s.setAout u { o with muteX := some x }, none)
      else
        let s := (s.setAout u { o with muted := true, clean := 0, muteX := none }).setF (F.AUD_AOUT_STATUS_MUTED u) 1
        (((s.bump (R.AUD_AOUT_MUTE_CNT u)).setF F.AUD_FLAGS_MUTE 1).raise 0x1405 u, some x)

/-- The TX mask in force in a frame of a block (R335). -/
def AudBlk.maskAt (b : AudBlk) (x : Nat) : Nat :=
  match b.masks.find? (fun e => decide (e.1 ≤ x)) with
  | some e => e.2
  | none => 0

/-- A block of an AES3 output or of a TDM port has been sent: what it carried is given out (R331-R334, R397). -/
def State.outSent (s : State) (u : Nat) (b : AudBlk) : State :=
  let o := s.aout u
  let fr := s.outFrames o b
  let s := s.outUnder u fr.2
  let hush := s.on F.BIN_STATUS_MUTED
  if u < 8 then
    let m : State × Option Nat := if s.on (F.AUD_AOUT_CTL_PROTECT u) then s.protect u b else (s, none)
    let rows := fr.1.zipIdx.map (fun e =>
      let z := hush || (match m.2 with | some x => decide (x ≤ b.x0 + e.2) | none => false)
      if z then ((0, false), (0, false)) else (e.1.getD 0 (0, false), e.1.getD 1 (0, false)))
    m.1.emit (.aes3 u (s.outCs b 0) (s.outCs b 1) rows)
  else
    s.emit (.tdm (u - 8) (fr.1.zipIdx.map (fun r => r.1.zipIdx.map (fun e =>
      if bitsOf (b.maskAt (b.x0 + r.2)) e.2 e.2 = 0 then none else some (if hush then 0 else e.1.1)))))

/-- AUDIO_BLOCK_DECISION: at the boundary, the block before is complete, and routing, TRIM and channel status are fixed for the next
(R331, R335). -/
def State.audDecide (s : State) (u : Nat) : State :=
  let o := s.aout u
  if !(o.st == .ready || o.st == .draining || o.st == .pendingRestart) || !s.ready fnAud then s
  else
    let xb := ((o.next : Int) + o.d).toNat
    let s := s.toMedia (s.timeOf xb)
    let s := if u < 16 then o.blks.foldl (fun (t : State) b => t.outSent u b) s else s
    let s := (s.outStaged u).foldl (fun (t : State) a => t.applyHeld a (xb - 63)) s
    let o := s.aout u
    let sh := o.shift + o.shiftNext.getD 0
    let d := s.outDly u - sh
    let n := max 1 (s.outBlock u)
    let nx := if u < 16 then ((((xb : Int) - d).toNat) / n + 1) * n else o.next + n
    let x0 := if u < 16 then xb else ((o.next : Int) + d).toNat
    let x1 := ((nx : Int) + d).toNat
    let b : AudBlk := { x0 := x0, x1 := x1, d := d, srcs := s.outSrcs u,
                        cs := if u < 8 then (List.range 6).flatMap (fun w => leBytes (s.inForce (R.AUD_AOUT_CS u w)).toNat 4) else [],
                        csSrc := decide (u < 8) && s.ons (F.AUD_AOUT_CTL_CS_SRC u), crcGen := decide (u < 8) && s.ons (F.AUD_AOUT_CTL_CRC_GEN u),
                        masks := if 8 ≤ u ∧ u < 16 then [(x0, s.f (F.AUD_TDM_MASK_TX (u - 8)))] else [] }
    s.setAout u { o with next := nx, d := d, shift := sh, shiftNext := none, blks := if u < 16 then [b] else o.blks ++ [b],
                         zeros := o.zeros.filter (fun z => decide (xb ≤ z.2 + n)) }

/-- AUDIO_PACKET_DEPARTURE: the packet of the oldest decided block of stream t leaves at T(p0 + n) + dly (R337). -/
def State.audDepart (s : State) (t : Nat) : State :=
  let u := 16 + t
  let o := s.aout u
  match o.blks with
  | [] => s
  | b :: r =>
    if !s.ready fnAud then s else
    let s := s.toMedia (s.timeOf b.x1)
    let fr := s.outFrames o b
    let s := (s.setAout u { s.aout u with blks := r }).outUnder u fr.2
    let f := s.f (F.AUD_TXS_FLOW_FLOW t)
    let w := s.egWords f
    let p0 := ((b.x0 : Int) - b.d).toNat
    let n := max 1 (s.txsPack t).1
    let seq := (p0 / n + efSeq0 w) % 65536
    let wide := s.on (F.AUD_TXS_CTL_L24 t)
    let body : Nat × Payload := ((s.txsPack t).2, .audio wide (fr.1.map (fun row => row.map (fun e => if wide then e.1 else e.1 / 256))))
    let s := (s.setEgw f 27 (seq + 1)).bump (R.AUD_TXS_PKT_CNT t)
    s.offerPaced (mkPacket f w seq ((p0 + w 9) % 2 ^ 32) body false) s.clk.vpos

/-! ## Enables (R322, R328, R330, R336, R337) -/

/-- CKG_CPLL_10_FREQ is fs × 2^m (R322). -/
def State.audFreqOk (s : State) : Bool := (List.range 32).any (fun m => s.rdn (R.CKG_CPLL_FREQ 10) == s.fsA * 2 ^ m)

/-- AUD_CTL takes the value `v`. -/
def State.audWrite (s : State) (v : Word) : State :=
  let want := bitsOf v.toNat 0 0 == 1
  let t := s.wr R.AUD_CTL v
  let locked := s.f F.AUD_CTL_FS == t.f F.AUD_CTL_FS && s.f F.AUD_CTL_STACK == t.f F.AUD_CTL_STACK && s.f F.AUD_CTL_DEPTH == t.f F.AUD_CTL_DEPTH
  if 5 < t.f F.AUD_CTL_FS ∨ (s.on F.AUD_CTL_EN && !locked) = true then s.refuse 0x14
  else if want && !s.on F.AUD_CTL_EN then
    if t.audFreqOk && t.audFits then
      let t := t.audPool.setFn fnAud .starting
      { t with aud := { t.aud with evalAt := t.audPos / 192 * 192 + 192 } }
    else s.refuse 0x14
  else if !want && s.on F.AUD_CTL_EN then
    let t := (t.audFall.setFn fnAud .off).setF F.AUD_STATUS_LOCKED 0
    let t := { t with aud := { t.aud with store := [], ins := [], i := 0, f := 0, okRun := 0, badRun := 0, base := none } }
    ((List.range 8).foldl (fun (t : State) i => t.setF (F.AUD_AIN_STATUS_LOCK i) 0) t).audPool
  else t

/-- May output u be enabled, with the registers as `s` has them (R322, R330, R333, R371)? -/
def State.outEnableOk (s : State) (u : Nat) : Bool :=
  s.outDlyOk u &&
  (if u < 8 then
    s.feature 11 && decide (((List.range 8).filter (fun o => s.on (F.AUD_AOUT_CTL_EN o) && s.on (F.AUD_AOUT_CTL_PROTECT o))).length ≤ 4)
  else if u < 16 then true
  else
    let t := u - 16
    let f := s.f (F.AUD_TXS_FLOW_FLOW t)
    let w := fun i => if i = 0 then s.egWords f 0 / 2 * 2 + 1 else s.egWords f i
    s.feature 12 && s.fsA == 48000 && s.f F.AUD_CLK_MODE == 0 && s.on F.EGS_CTL_EN && efType w == 4
      && decide (((List.range 64).map (fun r => if s.on (F.AUD_TXS_CTL_EN r) then s.f (F.AUD_TXS_CTL_CHANS r) else 0)).sum ≤ 256)
      && s.portsOk (s.portEntries (some (f, w))) ((efLegs w).map (fun l => l.2)))

/-- Output u starts, or waits for the function (R336, R373); a stream's flow follows its EN (R337). -/
def State.outEnable (s : State) (u : Nat) : State :=
  let s := if u < 16 then s else
    let f := s.f (F.AUD_TXS_FLOW_FLOW (u - 16))
    s.setEgw f 0 (s.egw f 0 / 2 * 2 + 1)
  if s.ready fnAud then s.outStart u else (s.setAout u { st := .starting }).setRun u false

/-- Output u is OFF; a stream's flow goes with it. -/
def State.outOff (s : State) (u : Nat) : State :=
  let s := (s.setAout u {}).setRun u false
  let s := if u < 8 then s.setF (F.AUD_AOUT_STATUS_MUTED u) 0 else s
  if u < 16 then s else
    let f := s.f (F.AUD_TXS_FLOW_FLOW (u - 16))
    s.setEgw f 0 (s.egw f 0 / 2 * 2)

/-- EN of output u is written, the register already holding it in `t`; `s` is the state before (R373). -/
def State.outWrite (s t : State) (u : Nat) : State :=
  let want := t.on (outCtl u)
  match (s.aout u).st, want with
  | .off, true => if t.outEnableOk u then t.outEnable u else s.refuse 0x14
  | .starting, false => t.outOff u
  | .ready, false => t.setAout u { s.aout u with st := .draining, stopX := some s.audPos }
  | .draining, true => t.setAout u { s.aout u with st := .pendingRestart }
  | .pendingRestart, false => t.setAout u { s.aout u with st := .draining }
  | _, _ => t

/-- AUDIO_OUTPUT_DRAINED: 64 frames after EN = 0 the output stops; a pending restart runs the checks (R336, R373). -/
def State.outDrained (s : State) (u : Nat) : State :=
  let o := s.aout u
  match o.stopX with
  | none => s
  | some x =>
    if !(o.st == .draining || o.st == .pendingRestart) then s else
    let s := s.toMedia (s.timeOf (x + 64))
    let s := if u < 16 then o.blks.foldl (fun (t : State) b => t.outSent u { b with x1 := max b.x0 (min b.x1 (x + 64)) }) s else s
    let t := (s.outStaged u).foldl (fun (t : State) a => t.flushHeld a 4) (s.outOff u)
    if o.st == .draining then t
    else if t.outEnableOk u then t.outEnable u
    else (t.setF (outCtl u) 0).refuse 0x14

/-- WRITE_TX: the buffer goes into the stream's flow with TYPE 4 (R337). -/
def State.writeTx (s : State) (t : Nat) : State :=
  let w := fun i => s.rdn (R.EGS_FT_DATA i)
  let f := s.f (F.AUD_TXS_FLOW_FLOW t)
  let w0 := setBits (w 0) 3 1 4 / 2 * 2
  let w' := fun i => if i = 0 then w0 else w i
  if s.on (F.AUD_TXS_CTL_EN t) || efEn (s.egWords f) || !egsFits w' || !s.egsRanges f w' then s.refuse 0x14
  else
    let x := s.eflow f
    (s.setEflow f (if efSeq0 w' != efSeq0 (s.egWords f) then { x with fresh := true } else x)).egsStore f w'

/-! ## TDM masks (R335) -/

/-- COMMIT of TDM port t. -/
def State.tdmCommit (s : State) (t : Nat) : State :=
  if s.on (F.AUD_TDM_STATUS_PENDING t) then s.refuse 0x14
  else { s.setF (F.AUD_TDM_STATUS_PENDING t) 1 with aud := { s.aud with commits := Tab.put (fun _ => (none : Option Nat)) s.aud.commits t (some s.mediaTime) } }

/-- TDM_MASK_APPLY: at the first FS edge strictly after the commit, MASK_PEND comes into force, within the block being sent too (R335). -/
def State.tdmApply (s : State) (t : Nat) : State :=
  match Tab.get (fun _ => (none : Option Nat)) s.aud.commits t with
  | none => s
  | some c =>
    let s := if s.on (F.AUD_TDM_CTL_MASTER t) then s.toMedia (s.timeOf (s.posAt c + 1)) else s
    if s.mediaTime ≤ c then s
    else
      let s := { s with aud := { s.aud with commits := Tab.put (fun _ => (none : Option Nat)) s.aud.commits t none } }
      let o := s.aout (8 + t)
      let x := if s.on (F.AUD_TDM_CTL_MASTER t) then s.posAt c + 1 else s.audPos
      let s := if o.blks.isEmpty then s
        else s.setAout (8 + t) { o with blks := o.blks.map (fun b => { b with masks := (x, bitsOf (s.rdn (R.AUD_TDM_MASK_PEND t)) 15 0) :: b.masks }) }
      ((s.wrn (R.AUD_TDM_MASK t) (s.rdn (R.AUD_TDM_MASK_PEND t))).setF (F.AUD_TDM_STATUS_PENDING t) 0).raise 0x1408 t

/-! ## Registers -/

/-- Is a 9-bit source one that R325 lists? -/
def srcOk (v : Nat) : Bool := decide (v < 336) || v == 511

/-- A staged write of an output's register: held while the output is not OFF (R15, R335). A TRIM that changes mutes 64 frames on each side
of its boundary. -/
def State.outStage (s : State) (u a : Nat) (v : Word) : State :=
  let o := s.aout u
  if o.st == .off || o.st == .starting then s.wr a v
  else
    let p := s.audPos
    let n := max 1 (s.outBlock u)
    let q := ceilDiv (((p : Int) + 64 - o.d).toNat) n * n
    let b := ((q : Int) + o.d).toNat
    let s := if a = (outTrim u).addr ∧ s.rd a ≠ v then s.setAout u { o with zeros := o.zeros ++ [(b - 64, b + 64)] } else s
    s.stage a v p

/-- The output that owns network transmit channel k: the enabled stream that carries it. -/
def State.ntxOut (s : State) (k : Nat) : Option Nat :=
  ((List.range 64).find? (fun t => (s.aout (16 + t)).st != .off && decide (s.f (F.AUD_TXS_CTL_BASE t) ≤ k)
    && decide (k < s.f (F.AUD_TXS_CTL_BASE t) + s.f (F.AUD_TXS_CTL_CHANS t)))).map (fun t => 16 + t)

/-- AUD_AOUT_o_CTL takes the value `v`. -/
def State.aoutWrite (s : State) (o : Nat) (v : Word) : State :=
  let a := R.AUD_AOUT_CTL o
  let fixed := fun (x : Nat) => (bitsOf x 1 1, bitsOf x 4 4, bitsOf x 30 26)
  if !srcOk (bitsOf v.toNat 16 8) || !srcOk (bitsOf v.toNat 25 17) || (s.on (F.AUD_AOUT_CTL_EN o) && fixed v.toNat != fixed (s.rdn a)) then s.refuse 0x14
  else s.outWrite (s.outStage o a v) o

/-- AUD_TDM_t_CTL takes the value `v`. -/
def State.tdmWrite (s : State) (t : Nat) (v : Word) : State :=
  let a := R.AUD_TDM_CTL t
  let n := s.wr a v
  let was := s.on (F.AUD_TDM_CTL_RX_EN t) || s.on (F.AUD_TDM_CTL_TX_EN t) || (s.aout (8 + t)).st != .off
  let start := (n.on (F.AUD_TDM_CTL_RX_EN t) && !s.on (F.AUD_TDM_CTL_RX_EN t)) || (n.on (F.AUD_TDM_CTL_TX_EN t) && !s.on (F.AUD_TDM_CTL_TX_EN t))
  let blk := n.f (F.AUD_TDM_CTL_BLK t)
  let sl := n.f (F.AUD_TDM_CTL_SLOTS t)
  if blk < 3 ∨ 8 < blk ∨ sl < 1 ∨ 16 < sl ∨ (was && bitsOf v.toNat 31 2 != bitsOf (s.rdn a) 31 2) = true
      ∨ (start && (!s.feature 10 || decide (24576000 < sl * 32 * s.fsA) || !n.audFits)) = true then s.refuse 0x14
  else
    let r := s.outWrite n (8 + t)
    if r.on (F.AUD_TDM_CTL_RX_EN t) = n.on (F.AUD_TDM_CTL_RX_EN t) ∧ r.rd a = v then
      let r := if s.on (F.AUD_TDM_CTL_RX_EN t) && !n.on (F.AUD_TDM_CTL_RX_EN t) then (r.setAin (8 + t) {}).setF (F.AUD_TDM_STATUS_FS_LOCK t) 0 else r
      (r.setRun (8 + t) ((r.aout (8 + t)).st == .ready || (r.aout (8 + t)).st == .draining || (r.aout (8 + t)).st == .pendingRestart)).audPool
    else r

/-- AUD_RXS_r_CTL takes the value `v` (R328). -/
def State.rxsWrite (s : State) (r : Nat) (v : Word) : State :=
  let a := R.AUD_RXS_CTL r
  let n := s.wr a v
  let on_ := n.on (F.AUD_RXS_CTL_EN r)
  let ch := n.f (F.AUD_RXS_CTL_CHANS r)
  let b := n.f (F.AUD_RXS_CTL_BASE r)
  let clash := (List.range 64).any (fun q => q != r && s.on (F.AUD_RXS_CTL_EN q)
    && decide (s.f (F.AUD_RXS_CTL_BASE q) < b + ch) && decide (b < s.f (F.AUD_RXS_CTL_BASE q) + s.f (F.AUD_RXS_CTL_CHANS q)))
  if ch < 1 ∨ 64 < ch ∨ (s.on (F.AUD_RXS_CTL_EN r) && bitsOf v.toNat 31 1 != bitsOf (s.rdn a) 31 1) = true
      ∨ (on_ && !s.on (F.AUD_RXS_CTL_EN r) && (!s.feature 12 || s.fsA != 48000 || s.f F.AUD_CLK_MODE != 0 || decide (256 < b + ch) || clash || !n.audFits)) = true
  then s.refuse 0x14
  else (n.setF (F.AUD_RXS_STATUS_RUN r) (if on_ then 1 else 0)).audPool

/-- AUD_AIN_i_CTL takes the value `v` (R371). -/
def State.ainWrite (s : State) (i : Nat) (v : Word) : State :=
  let a := R.AUD_AIN_CTL i
  let n := s.wr a v
  let on_ := n.on (F.AUD_AIN_CTL_EN i)
  if (s.on (F.AUD_AIN_CTL_EN i) && bitsOf v.toNat 31 1 != bitsOf (s.rdn a) 31 1) = true
      ∨ (on_ && !s.on (F.AUD_AIN_CTL_EN i) && (!s.feature 11 || !n.audFits)) = true then s.refuse 0x14
  else (if on_ then n else (n.setAin i {}).setF (F.AUD_AIN_STATUS_LOCK i) 0).audPool

/-- AUD_TXS_s_CTL takes the value `v`. -/
def State.txsWrite (s : State) (t : Nat) (v : Word) : State :=
  let a := R.AUD_TXS_CTL t
  let ch := bitsOf v.toNat 7 1
  if ch < 1 ∨ 64 < ch ∨ ((s.on (F.AUD_TXS_CTL_EN t) || (s.aout (16 + t)).st != .off) && bitsOf v.toNat 31 1 != bitsOf (s.rdn a) 31 1) = true then s.refuse 0x14
  else s.outWrite (s.wr a v) (16 + t)

/-- Writes of AUD registers that have rules of their own. -/
def State.audReg (s : State) (a : Nat) (v : Word) : Option State :=
  if a = R.AUD_CTL then some (s.audWrite v)
  else if a = R.AUD_CLK then
    (if s.on F.AUD_CTL_EN && bitsOf v.toNat 1 0 != s.f F.AUD_CLK_MODE then some (s.refuse 0x14) else none)
  else if a = R.AUD_CMD then some (if bitsOf v.toNat 8 8 = 1 then s.writeTx (bitsOf v.toNat 5 0) else s)
  else if R.AUD_AIN_CTL 0 ≤ a ∧ a < R.AUD_AIN_CTL 8 then (if (a - R.AUD_AIN_CTL 0) % 0x80 = 0 then some (s.ainWrite ((a - R.AUD_AIN_CTL 0) / 0x80) v) else none)
  else if R.AUD_AOUT_CTL 0 ≤ a ∧ a < R.AUD_AOUT_CTL 8 then
    let o := (a - R.AUD_AOUT_CTL 0) / 0x80
    let k := (a - R.AUD_AOUT_CTL 0) % 0x80
    if k = 0 then some (s.aoutWrite o v) else if k = 4 ∨ 0x20 ≤ k then some (s.outStage o a v) else none
  else if R.AUD_TDM_CTL 0 ≤ a ∧ a < R.AUD_TDM_CTL 4 then
    let t := (a - R.AUD_TDM_CTL 0) / 0x80
    let k := (a - R.AUD_TDM_CTL 0) % 0x80
    if k = 0 then some (s.tdmWrite t v)
    else if k = 0x08 then (if s.on (F.AUD_TDM_STATUS_PENDING t) then some (s.refuse 0x14) else none)
    else if k = 0x0C then some (if bitsOf v.toNat 0 0 = 1 then s.tdmCommit t else s)
    else if k = 0x14 then some (s.outStage (8 + t) a v)
    else if 0x20 ≤ k ∧ k < 0x40 then
      some (if srcOk (bitsOf v.toNat 8 0) && srcOk (bitsOf v.toNat 24 16) then s.outStage (8 + t) a v else s.refuse 0x14)
    else none
  else if R.AUD_RXS_CTL 0 ≤ a ∧ a < R.AUD_RXS_CTL 64 then (if (a - R.AUD_RXS_CTL 0) % 0x20 = 0 then some (s.rxsWrite ((a - R.AUD_RXS_CTL 0) / 0x20) v) else none)
  else if R.AUD_TXS_CTL 0 ≤ a ∧ a < R.AUD_TXS_CTL 64 then
    let t := (a - R.AUD_TXS_CTL 0) / 0x20
    let k := (a - R.AUD_TXS_CTL 0) % 0x20
    if k = 0 then some (s.txsWrite t v)
    else if k = 4 then (if s.on (F.AUD_TXS_CTL_EN t) || (s.aout (16 + t)).st != .off then some (s.refuse 0x14) else none)
    else if k = 8 then some (s.outStage (16 + t) a v)
    else none
  else if R.AUD_NTX_SRC 0 ≤ a ∧ a < R.AUD_NTX_SRC 256 then
    some (if !srcOk (bitsOf v.toNat 8 0) then s.refuse 0x14 else
      match s.ntxOut ((a - R.AUD_NTX_SRC 0) / 4) with | some u => s.outStage u a v | none => s.wr a v)
  else none

/-! ## The Cycle record (R338) -/

/-- The audio entries: (STREAM, POS), POS the first position whose output time lies at or after now. -/
def State.audioRecs (s : State) : List (Nat × Nat) :=
  let p := s.audPos
  let x := if s.timeOf p < s.mediaTime then p + 1 else p
  (audOuts.filter (fun u => s.on (outCtl u))).map (fun u => (u, ((x : Int) - (s.aout u).d).toNat % 2 ^ 48))

/-- The Lookout's output u continues from the Helm's position at its next boundary, with 64 frames of 0 on each side (R338). -/
def State.audioAdopt (s : State) (u own helm : Nat) : State :=
  let o := s.aout u
  let b := ((o.next : Int) + o.d).toNat
  s.setAout u { o with shiftNext := some ((helm : Int) - (own : Int)), zeros := o.zeros ++ [(b - 64, b + 64)] }

end Sys2Proof.Machine
end

