-- ==== Sys2Proof/Machine/Cyc.lean ====
section
/-!
DEFINITION. Sys2Proof/Machine/Cyc.lean: the Cycle record (spec/12_twin_operation.md, R245-R249): built and sent at the cut, received,
adopted by a Lookout, compared when late.
-/

namespace Sys2Proof.Machine

/-- Cut a list into pieces of 61 words: the payloads of Twin cycle flits (R270, R271). -/
def cut61 : Nat → List Nat → List (List Nat)
  | 0, _ => []
  | fuel + 1, l => if l = [] then [] else l.take 61 :: cut61 fuel (l.drop 61)

/-! ## Building (R245) -/

/-- The working picture: the latest with a budgeted row. -/
def EncCh.workPic (x : EncCh) : PicSt := (x.pics.reverse.find? (fun (p : PicSt) => p.rows.any (fun r => r.budgeted))).getD {}

/-- Is every job of a row complete, strictly before the cut `v`? -/
def State.rowComplete (s : State) (r : RowSt) (v : Nat) : Bool :=
  r.budgeted && (r.jobs.filterMap s.job).all (fun b => b.complete && decide (b.doneV < v))

/-- The row entries of a channel at the cut `v`: every budgeted row after the checkpoint row. -/
def State.recRows (s : State) (x : EncCh) (v : Nat) : List (List Nat) :=
  x.pics.flatMap (fun (p : PicSt) => (p.rows.filter (fun r => r.budgeted && decide (x.chkRho ≤ r.rho))).map (fun r =>
    let z := s.rowSizes r
    let ok := s.rowComplete r v
    [p.k % 65536 + r.r % 128 * 2 ^ 16, r.bud % 2 ^ 32, if ok then z.1 % 2 ^ 32 else 0xFFFFFFFF, if ok then z.2 % 4096 else 0]))

/-- The flow entries of a channel. -/
def State.recFlows (s : State) (c : Nat) : List (List Nat) :=
  (s.egsFlows.filter (fun f => efCh (s.egWords f) == c && efType (s.egWords f) != 4)).map (fun f =>
    let x := s.eflow f
    [f % 65536 + x.ccPat % 16 * 2 ^ 16 + x.ccPmt % 16 * 2 ^ 20 + x.ccVid % 16 * 2 ^ 24, s.egw f 27 % 2 ^ 32, x.don % 65536])

/-- The section of twinned channel c at the cut position v. -/
def State.recSection (s : State) (c v : Nat) : List Nat :=
  let x := s.encCh c
  let p := x.workPic
  let rows := s.recRows x v
  let flows := s.recFlows c
  let spent := ((p.rows.filter (fun r => r.budgeted && decide (r.rho < x.chkRho))).map s.rowCharge).sum
  let chk := (x.pics.findSome? (fun (q : PicSt) => (q.rows.find? (fun r => r.rho + 1 == x.chkRho)).map (fun r => (q.k, r.r)))).getD (0, 0)
  let dip := ((p.rows.filter (fun r => r.budgeted && decide (r.rel < v))).map (fun r => (s.rowSizes r).2)).sum
  let want := s.f (F.ENC_CH_GDR_PERIOD c)
  let f := ((s.cmp c).evalIn s.clk.fu v).getD {}
  let num := fun (i : Nat) => f.nums.getD i 0 % 65536
  let me := x.member
  [c + rows.length % 128 * 2 ^ 8 + flows.length % 65536 * 2 ^ 16,
    p.k % 2 ^ 32, p.k / 2 ^ 32 % 65536 + x.per % 2048 * 2 ^ 16,
    x.kg % 2 ^ 32, x.kg / 2 ^ 32 % 65536 + (if want = x.per then 0 else want % 2048) * 2 ^ 16 + (if x.restart = [] then 0 else 2 ^ 27),
    p.q % 2 ^ 32, p.d % 2 ^ 32, p.target % 2 ^ 32, spent % 2 ^ 32,
    (if x.chkValid then chk.1 % 65536 + chk.2 % 128 * 2 ^ 16 + 2 ^ 31 else 0),
    x.vChk % 2 ^ 32, x.vChk / 2 ^ 32 % 2 ^ 32, x.vChk / 2 ^ 64 % 2 ^ 32, dip % 65536,
    f.flips % 512 + f.held % 512 * 2 ^ 9,
    num 0 + num 1 * 65536, num 2 + num 3 * 65536, num 4 + num 5 * 65536, num 6 + num 7 * 65536, num 8,
    (if me then x.nextT.getD 0 % 2 ^ 32 else 0), (if me then s.rdn R.CNV_LATE_LO else 0), (if me then s.rdn R.CNV_LATE_HI else 0), (if me then 1 else 0)]
    ++ rows.flatten ++ flows.flatten

/-- The record of frame n, built at the cut position v. -/
def State.buildRecord (s : State) (n v : Nat) : List Nat :=
  let secs := s.twinChans.map (fun c => s.recSection c v)
  let aud := s.audioRecs.map (fun e => [e.1 % 256, e.2 % 2 ^ 32, e.2 / 2 ^ 32 % 65536])
  let len := 9 + (secs.map List.length).sum + 3 * aud.length
  let w := [0x43590001, n % 2 ^ 32, n / 2 ^ 32 % 65536 + secs.length % 64 * 2 ^ 16 + aud.length % 256 * 2 ^ 24, len, s.rdn R.TWN_PAIR_TAG,
    s.roleWord, s.twn.recSeq % 2 ^ 32, 0] ++ secs.flatten ++ aud.flatten
  w ++ [crcWords w]

/-- CYCLE_RECORD_CUT: at (n + 1, 0) the module builds its record of frame n, and a Helm sends it (R245). -/
def State.cycleCut (s : State) : State :=
  match s.toPhase 0 0 with
  | none => s
  | some s =>
    let v := s.clk.vpos
    let w := s.buildRecord ((s.clk.frame + 2 ^ 48 - 1) % 2 ^ 48) v
    let s := s.wrn R.TWN_REC_WORDS w.length
    let s := { s with twn := { s.twn with own := some (v, w), adopted := false } }
    if s.role = 4 && !s.hasGivenUp then
        let s := (cut61 w.length w).foldl (fun (t : State) l => t.linkSend (t.f F.TWN_CTL_PORT) 1 l) s
        { s with twn := { s.twn with recSeq := s.twn.recSeq + 1 } }
      else s

/-! ## Reading a record -/

/-- A channel section as read: its 24 words, row entries, flow entries. -/
structure RecSec where
  w : List Nat
  rows : List (List Nat)
  flows : List (List Nat)
  deriving DecidableEq, Repr

/-- Cut a list into `n` pieces of `k`. -/
def pieces (k : Nat) : Nat → List Nat → List (List Nat)
  | 0, _ => []
  | n + 1, l => l.take k :: pieces k n (l.drop k)

/-- The sections of a record from its word 8 on. -/
def recSections : Nat → List Nat → List RecSec × List Nat
  | 0, l => ([], l)
  | n + 1, l =>
    let nr := bitsOf (l.getD 0 0) 14 8
    let nf := bitsOf (l.getD 0 0) 31 16
    let a := l.drop 24
    let b := a.drop (4 * nr)
    let r := recSections n (b.drop (3 * nf))
    ({ w := l.take 24, rows := pieces 4 nr a, flows := pieces 3 nf b } :: r.1, r.2)

/-- The section of channel c and the audio entries of a record. -/
def recOf (l : List Nat) (c : Nat) : Option RecSec :=
  (recSections (bitsOf (l.getD 2 0) 21 16) (l.drop 8)).1.find? (fun r => r.w.getD 0 0 % 32 == c)

/-- The audio entries of a record: (STREAM, POS). -/
def recAudio (l : List Nat) : List (Nat × Nat) :=
  (pieces 3 (bitsOf (l.getD 2 0) 31 24) (recSections (bitsOf (l.getD 2 0) 21 16) (l.drop 8)).2).map
    (fun e => (e.getD 0 0 % 256, e.getD 1 0 + e.getD 2 0 % 65536 * 2 ^ 32))

/-- The frame of a record. -/
def recFrame (l : List Nat) : Nat := l.getD 1 0 + l.getD 2 0 % 65536 * 2 ^ 32

/-- Is a record complete with a good CRC (R245, R249)? -/
def recGood (l : List Nat) : Bool :=
  decide (9 ≤ l.length) && l.getD 0 0 == 0x43590001 && l.getD 3 0 == l.length && l.getD (l.length - 1) 0 == crcWords (l.take (l.length - 1))

/-- Two row entries agree: the row, the budget, and the sizes where both are complete. -/
def rowAgree (a b : List Nat) : Bool :=
  a.getD 0 0 == b.getD 0 0 && a.getD 1 0 == b.getD 1 0
    && (a.getD 2 0 == 0xFFFFFFFF || b.getD 2 0 == 0xFFFFFFFF || (a.getD 2 0 == b.getD 2 0 && a.getD 3 0 == b.getD 3 0))

/-- The checked fields of two sections agree (R246). -/
def RecSec.agree (a b : RecSec) : Bool :=
  (a.w.take 14).drop 1 == (b.w.take 14).drop 1 && a.rows.length == b.rows.length && (a.rows.zip b.rows).all (fun e => rowAgree e.1 e.2)
    && a.flows == b.flows

/-! ## Adoption (R246, R247) -/

/-- A record mismatch of channel c (R246, R253, R254). -/
def State.recMismatch (s : State) (c : Nat) : State :=
  let s := (s.setF F.TWN_FLAGS_REC_MISMATCH 1).raise 0x0C09 c
  let s := s.setTch c { s.tch c with badK := some (s.encCh c).k }
  s.quiet c 1

/-- The flips of a section: the Helm's outcome is applied to each set. Whether a pending set carried the commit number of every set marked FLIPPED.
Sets marked HELD are held where they stood pending at the own evaluation. -/
def State.adoptFlips (s : State) (c : Nat) (r : RecSec) (govern : Nat) : State × Bool :=
  let e : FlipEval :=
    { v := (((s.cmp c).evalIn s.clk.fu govern).getD { v := govern }).v, flips := bitsOf (r.w.getD 14 0) 8 0, held := bitsOf (r.w.getD 14 0) 17 9,
      nums := (List.range 9).map (fun j => r.w.getD (15 + j / 2) 0 / 65536 ^ (j % 2) % 65536),
      chk := (((s.cmp c).evalIn s.clk.fu govern).getD {}).chk }
  (s.applyFlips c e govern,
    (List.range 9).all (fun j => bitsOf e.flips j j == 0 || (match (s.cmp c).pendOf j with | some p => p.num == e.nums.getD j 0 | none => false)))

/-- The canvas fields replace the Lookout's own (R246). -/
def State.adoptCanvas (s : State) (c : Nat) (r : RecSec) : State :=
  if r.w.getD 23 0 % 2 = 0 || !(s.encCh c).member then s
  else
    let a := r.w.getD 20 0
    let s := ((s.wrn R.CNV_ALLOC a).wrn R.CNV_LATE_LO (r.w.getD 21 0)).wrn R.CNV_LATE_HI (r.w.getD 22 0)
    let s := s.setEnc c { s.encCh c with nextT := some a }
    { s with cnv := { s.cnv with own := some a } }

/-- The own record's decided values, where they differ from those of a record that came late (R249). -/
def RecSec.decided (a : RecSec) : List Nat := a.w.drop 14

/-- A row takes a loaded budget and, where complete, loaded sizes, charged to its first job (R247). -/
def State.loadRow (s : State) (x : EncCh) (e : List Nat) : State × EncCh :=
  let key := e.getD 0 0
  match x.pics.findSome? (fun (p : PicSt) => if p.k % 65536 = key % 65536 then p.rows.find? (fun r => r.r == bitsOf key 22 16) else none) with
  | none => (s, x)
  | some r =>
    let s := if e.getD 2 0 = 0xFFFFFFFF then s else
      r.jobs.zipIdx.foldl (fun (t : State) j => match t.job j.1 with
        | some b => t.setJob j.1 (some { b with helm := some (if j.2 = 0 then (e.getD 2 0, e.getD 3 0 % 4096) else (0, 0)), helmV := 0 })
        | none => t) s
    (s, x.mapRow r.rho (fun (q : RowSt) => { q with bud := e.getD 1 0 }))

/-- Every budget decided from the cut on is decided again from the loaded values, and with row 0 the picture's target; jobs keep theirs (R247). The rows
stand as not budgeted when they come up. -/
def State.redecide (s : State) (n : Nat) : List Nat → State
  | [] => s
  | rho :: rest =>
    match (s.encCh n).picOf rho, (s.encCh n).rows.find? (fun r => r.rho == rho) with
    | some p, some r =>
      let sp := if r.r = 0 then s.pictureTarget n p r.a else (s, p)
      let bk := sp.1.bucket n (sp.1.encCh n) r.a
      let x : EncCh := { bk.1 with pics := bk.1.pics.map (fun (q : PicSt) => if q.k = p.k ∧ q.startV = p.startV then { sp.2 with rows := q.rows } else q) }
      let b := sp.1.budgetAt n ((x.picOf rho).getD p) r (bk.2 / s.zUnit)
      State.redecide (sp.1.setEnc n (x.mapRow rho (fun (q : RowSt) => { q with bud := b.1, budgeted := true }))) n rest
    | _, _ => State.redecide s n rest

/-- A QUIET channel loads every checked field of its section (R247); `own` is its own section, `v` the cut. -/
def State.loadSection (s : State) (c v : Nat) (own r : RecSec) : State :=
  let w := fun (i : Nat) => r.w.getD i 0
  let x := s.encCh c
  let wk := w 1 + w 2 % 65536 * 2 ^ 32
  let pend := bitsOf (w 4) 26 16
  let valid := bitsOf (w 9) 31 31 == 1
  let chk := x.pics.findSome? (fun (p : PicSt) =>
    if p.k % 65536 = w 9 % 65536 then (p.rows.find? (fun q => q.r == bitsOf (w 9) 22 16)).map (fun q => q.rho + 1) else none)
  let chkRho := if valid then chk.getD x.chkRho else x.chkRho
  let pics := x.pics.map (fun (p : PicSt) =>
    if p.k % 2 ^ 48 ≠ wk then p else
    let mine := ((p.rows.filter (fun q => q.budgeted && q.counted)).map (fun q => (s.rowSizes q).2)).sum
    { p with q := w 5, d := w 6, target := w 7, eK := w 7 - p.t0, spent := some (chkRho, w 8), cnt := p.cnt - mine + w 13 % 65536,
             rows := p.rows.map (fun q => if q.budgeted then { q with counted := decide (q.rel < v) } else q) })
  let carry := (nominal (s.chanBr c) (s.chanRate c).2 (max 1 (s.chanRate c).1) (w 5)).2
  let x := { x with kg := w 3 + w 4 % 65536 * 2 ^ 32, per := bitsOf (w 2) 26 16, restart := (if bitsOf (w 4) 27 27 = 0 then [] else [0]) ++ x.restart.filter (fun a => decide (v ≤ a)),
                    pics := pics, q := carry, d := w 6, vChk := w 10 + w 11 * 2 ^ 32 + w 12 * 2 ^ 64, chkValid := valid,
                    chkRho := chkRho }
  let lr := r.rows.foldl (fun (t : State × EncCh) e => t.1.loadRow t.2 e) (s, x)
  let s := lr.1.setEnc c lr.2
  let pend := if pend = 0 then bitsOf (w 2) 26 16 else pend
  let s := if pend = s.f (F.ENC_CH_GDR_PERIOD c) then s else
    s.stage (R.ENC_CH_GDR c) (BitVec.ofNat 32 (setBits (s.rdn (R.ENC_CH_GDR c)) (F.ENC_CH_GDR_PERIOD c).hi (F.ENC_CH_GDR_PERIOD c).lo pend)) (v - 1)
  let again := (lr.2.rows.filter (fun q => q.budgeted && decide (v ≤ q.a))).map (fun q => q.rho)
  let s := (s.setEnc c (again.foldl (fun x rho => x.mapRow rho (fun (q : RowSt) => { q with budgeted := false, counted := false })) (s.encCh c))).redecide c again
  r.flows.foldl (fun (t : State) e =>
    let f := e.getD 0 0 % 65536
    match own.flows.find? (fun o => o.getD 0 0 % 65536 == f) with
    | none => t
    | some o =>
      let y := t.eflow f
      let cc := fun (now hi lo : Nat) => (bitsOf (e.getD 0 0) hi lo + now + 16 - bitsOf (o.getD 0 0) hi lo % 16) % 16
      let y := { y with don := (e.getD 2 0 + y.don + 65536 - o.getD 2 0 % 65536) % 65536, ccPat := cc y.ccPat 19 16, ccPmt := cc y.ccPmt 23 20, ccVid := cc y.ccVid 27 24 }
      (t.setEflow f y).setEgw f 27 (e.getD 1 0 + (t.egw f 27 + 2 ^ 32 - o.getD 1 0 % 2 ^ 32) % 2 ^ 32)) s

/-- A QUIET channel whose section agrees takes the sizes of the rows that only the Helm had complete (R247). -/
def State.loadRows (s : State) (c : Nat) (r : RecSec) : State :=
  let lr := r.rows.foldl (fun (t : State × EncCh) e => t.1.loadRow t.2 e) (s, s.encCh c)
  lr.1.setEnc c lr.2

/-- One channel adopts its section (R246, R247). -/
def State.adoptChan (s : State) (v : Nat) (own l : List Nat) (c : Nat) : State :=
  match recOf l c, recOf own c with
  | some r, some o =>
    let fl := s.adoptFlips c r v
    let s := fl.1.adoptCanvas c r
    let same := o.agree r
    let s := if same && fl.2 then s else s.recMismatch c
    if s.twinState c ≠ 3 then s else if same then s.loadRows c r else s.loadSection c v o r
  | some r, none => ((s.adoptFlips c r v).1.adoptCanvas c r).recMismatch c
  | none, _ => s

/-- The audio entries: a differing one raises event 0x0C09, and the output continues from the Helm's position (R246, R338). -/
def State.adoptAudio (s : State) (own l : List Nat) : State :=
  let mine := recAudio own
  (recAudio l).foldl (fun (t : State) e =>
    match mine.find? (fun o => o.1 == e.1) with
    | some o => if o.2 = e.2 then t else ((t.setF F.TWN_FLAGS_REC_MISMATCH 1).raise 0x0C09 0).audioAdopt e.1 o.2 e.2
    | none => t) s

/-- A record that came late is only compared: a decided field that differs from the value used, or a checked field, makes the channel
QUIET (R249). -/
def State.lateCompare (s : State) (own l : List Nat) : State :=
    s.twinChans.foldl (fun (t : State) c => match recOf l c, recOf own c with
      | some r, some o => if o.agree r && o.decided == r.decided then t else t.recMismatch c
      | _, _ => t) { s with twn := { s.twn with late := none } }

/-- CYCLE_RECORD_ADOPT: at (n + 1, ADOPT) a Lookout adopts the Helm's record of frame n; without it, its own outcomes hold (R246, R249). -/
def State.cycleAdopt (s : State) : State :=
  match s.twn.own with
  | none => s
  | some (v, own) =>
    if s.role ≠ 2 || s.twn.adopted then s else
    match s.toPos 1 (v + s.f F.TWN_ADOPT_ADOPT * 65536) with
    | none => s
    | some s =>
      let n := recFrame own
      let s := { s with twn := { s.twn with adopted := true } }
      match s.twn.rx.find? (fun e => e.1 == n && decide (e.2.1 < v + s.f F.TWN_ADOPT_ADOPT * 65536)) with
      | some e =>
        let s := { s with twn := { s.twn with late := none, rx := [] } }
        (s.twinChans.foldl (fun (t : State) c => t.adoptChan v own e.2.2 c) s).adoptAudio own e.2.2
      | none =>
        let s := s.twnNote R.TWN_REC_LATE_CNT F.TWN_FLAGS_REC_LATE 0x0C08 0
        let s := s.twinChans.foldl (fun (t : State) c => match (t.cmp c).evalIn t.clk.fu v with
          | some e => if t.active (fnComp c) then t.applyFlips c e v else t
          | none => t) s
        match s.twn.rx.find? (fun e => e.1 == n) with
        | some e => s.lateCompare own e.2.2
        | none => { s with twn := { s.twn with late := some (n, own) } }

/-- CYCLE_RECORD_RECEIVE: a record that arrived on the Twin link, its words joined (R245, R249). -/
def State.cycleReceive (s : State) (l : List Nat) : State :=
  if s.role = 0 then s
  else
    let s : State := { s with twn := { s.twn with lastRx := s.clk.ns, lost := false } }.twnUpdate
    let n := recFrame l
    if !recGood l || l.getD 4 0 != s.rdn R.TWN_PAIR_TAG then s
    else match s.twn.late.filter (fun e => e.1 == n) with
    | some e => s.lateCompare e.2 l
    | none => { s with twn := { s.twn with rx := (s.twn.rx.filter (fun e => decide (n ≤ e.1 + 1))) ++ [(n, s.clk.vpos, l)] } }

end Sys2Proof.Machine
end

