-- ==== Sys2Proof/Machine/Cal.lean ====
section
/-!
DEFINITION. Sys2Proof/Machine/Cal.lean: calibration and the adaptive loops (spec/17_calibration_and_adaptive_control.md, R341-R355).
The primitives of a Sighting are in Machine/Sight.lean, the clock test in Machine/Rc.lean, the arrival threshold in
Machine/Ing.lean.
-/

namespace Sys2Proof.Machine

/-! ## Triggers and windows (R342, R343) -/

/-- The window is open: in each stack without a running HBM Sighting, the pending one with the lowest index runs (R343). -/
def State.hbmSightings (s : State) : State :=
  if !s.on F.CAL_STATUS_WINDOW then s else
  (List.range 4).foldl (fun (t : State) st =>
    let gs := (List.range 32).map (fun p => 32 * st + p)
    if !t.ready (fnHbm st) || gs.any (fun g => match t.sight 1 g with | some x => x.run && x.goal.isEmpty | none => false) then t
    else match gs.find? (fun g => match t.sight 1 g with | some x => x.goal.isEmpty | none => false) with
      | some g => (match t.sight 1 g with | some x => t.setSight 1 g (some { x with run := true }) | none => t)
      | none => t) s

/-- A pending PLL Sighting runs where R77 accepts the relock; in a quadrant that CAL is to park, only once it is PARKED (R343). -/
def State.pllTry (s : State) (m : Nat) : State :=
  match s.sight 2 m with
  | none => s
  | some x =>
    if x.run || !x.goal.isEmpty then s
    else if s.relockOk m then
      let s := { s with cal := { s.cal with pllSaid := s.cal.pllSaid.filter (· != m) } }
      (s.setSight 2 m (some { x with run := true })).startRelock m
    else s

/-- A trigger (R342), after which an HBM or PLL Sighting runs at once where it may (R343). -/
def State.sightBegin (s : State) (k i : Nat) : State :=
  let s := s.sightTrigger k i
  let s := if k = 2 ∧ s.pllRelocking i = true then s.relockSights i else s
  if k = 1 then s.hbmSightings else if k = 2 then s.pllTry i else s

/-- CAL_CMD (R342): with RUN set it triggers a Sighting; an instance out of range is refused. -/
def State.calCmd (s : State) (v : Word) : State :=
  let k := bitsOf v.toNat 1 0
  let i := bitsOf v.toNat 8 2
  if !sightOk k i then s.refuse 0x15
  else if bitsOf v.toNat 15 15 = 1 then s.sightBegin k i else s

/-- SIGHTING_TEMPERATURE_TRIGGER: the instance's nearest sensor reads `temp` °C (R342). -/
def State.tempTrigger (s : State) (k i : Nat) (temp : Int) : State :=
  if !sightOk k i then s else
  match Tab.get (fun _ => (none : Option Int)) s.cal.temps (256 * k + i) with
  | none => s
  | some t => if s.f F.CAL_TRIG_TEMP_DELTA < (temp - t).natAbs then s.sightBegin k i else s

/-- CALIBRATION_WINDOW_OPEN, at (n, START) in decision class 6 (R343). -/
def State.windowOpen (s : State) : State :=
  if !s.active fnCal || s.on F.CAL_STATUS_WINDOW then s else
  match s.toPhase 6 (s.f F.CAL_WIN_START * 65536) with
  | none => s
  | some s => ({ s with cal := { s.cal with winAt := some s.clk.vpos } }.setF F.CAL_STATUS_WINDOW 1).hbmSightings

/-- CALIBRATION_WINDOW_CLOSE, LEN lines later; a running HBM Sighting pauses after its step (R343). -/
def State.windowShut (s : State) : State :=
  match s.cal.winAt with
  | none => s
  | some v =>
    match s.toPos 6 (v + s.f F.CAL_WIN_LEN * 65536) with
    | none => s
    | some s => { s with cal := { s.cal with winAt := none, shutNs := s.clk.ns } }.setF F.CAL_STATUS_WINDOW 0

/-! ## Results (R344) -/

/-- Is a Sighting of the instance being measured, and is it a start Sighting (R342, R343, R346)? One of HBM ends inside the window, or with the step
of at most 4 µs that was in progress at its close. -/
def State.sightRunning (s : State) (k i : Nat) : Option Bool :=
  let x := s.sight k i
  let mine := match x with | some y => y.goal.isEmpty | none => false
  if k = 0 then (if s.stage_ i = 2 then some true else if mine && s.stage_ i == 4 then some false else none)
  else if k = 1 then
    (if s.fn (fnHbm (i / 32)) == .starting then some true
     else match x with
       | some y =>
         if y.run && y.goal.isEmpty && (s.on F.CAL_STATUS_WINDOW || decide (s.clk.ns ≤ s.cal.shutNs + 4000)) then some false else none
       | none => none)
  else if k = 2 then
    (if s.pllRelocking i then some (Tab.get (fun _ => (none : Option Int)) s.cal.temps (256 * 2 + i)).isNone else none)
  else match x with | some y => if y.goal.isEmpty then some y.start else none | none => none

/-- SIGHTING_COMPLETE: the measurement of an instance ends: two measurements of every code, the quality figures, the temperature of
the nearest sensor (R344). -/
def State.sightComplete (s : State) (k i : Nat) (first second : List Int) (q : List Nat) (temp : Int) : State :=
  if !sightOk k i then s else
  let n := (s.sightCodes k i).length
  let first := (List.range n).map (first.getD · 0)
  let second := (List.range n).map (second.getD · 0)
  match s.sightRunning k i with
  | none => s
  | some start =>
    if k = 0 ∧ start = true then s.cdrLock i first second q temp
    else
      let s := s.sightReport k i q
      if s.sightPasses k i start first second q then (s.sightAccept k i start first temp).hbmSightings
      else
        let s := s.sightReject k i
        if k = 1 ∧ start = true then s.hbmTrained (i / 32) false (s.f (F.HBM_S_TRAIN_MS_DURATION (i / 32))) 0 else s.hbmSightings

/-! ## PLL Sightings (R343) -/

/-- A PLL Sighting of core PLL m waits. -/
def State.pllWaits (s : State) (m : Nat) : Bool := match s.sight 2 m with | some x => !x.run && x.goal.isEmpty | none => false

/-- Has the relock of CPLL_2 to CPLL_5 that CAL parked a quadrant for ended? -/
def State.unparkDue (s : State) (m : Nat) : Bool :=
  s.cal.parked.contains m && s.f (F.CKG_CPLL_STATUS_STATE m) == 4 && decide (2 ≤ m) && !s.pllWaits m

/-- The relock that CAL parked a quadrant for has ended: PARK is cleared (R343). -/
def State.pllUnpark (s : State) (m : Nat) : State :=
  if s.unparkDue m then
    let s := { s with cal := { s.cal with parked := s.cal.parked.filter (· != m) } }
    s.quadWrite (m - 2) (BitVec.ofNat 32 0)
  else s

/-- One pending PLL Sighting at a Meridian frame start: CAL asks for the park; a Sighting that stays pending says so once. -/
def State.pllSighting (s : State) (m : Nat) : State :=
  match s.sight 2 m with
  | none => s
  | some x =>
    if x.run || !x.goal.isEmpty then s else
    let park := decide (2 ≤ m) && decide (m ≤ 5) && s.on F.CAL_CTL_AUTO_PARK
    let s := if park && !s.on (F.DIS_QUAD_CTL_PARK (m - 2)) then
        let t := s.quadWrite (m - 2) (BitVec.ofNat 32 1)
        if t.on (F.DIS_QUAD_CTL_PARK (m - 2)) then { t with cal := { t.cal with parked := m :: t.cal.parked } } else t
      else s
    if s.relockOk m then s.pllTry m
    else
      let s := s.setF F.CAL_FLAGS_PLL_DEFER 1
      if s.cal.pllSaid.contains m then s else ({ s with cal := { s.cal with pllSaid := m :: s.cal.pllSaid } }).raise 0x1504 m

/-- PLL_SIGHTING_PARK: a pending PLL Sighting that R77 now accepts runs, and a quadrant whose relock has ended is released, at once;
where there is none, every pending one is tried at the next Meridian frame start (R343). -/
def State.pllSightings (s : State) : State :=
  if !s.active fnCal then s
  else if (List.range 11).any (fun m => (s.pllWaits m && s.relockOk m) || s.unparkDue m) then
    (List.range 11).foldl (fun (t : State) m => (t.pllUnpark m).pllTry m) s
  else match s.toPhase 6 0 with
  | none => s
  | some s => (List.range 11).foldl (fun (t : State) m => (t.pllUnpark m).pllSighting m) s

/-! ## Voltage (R347, R348) -/

/-- AVS_EVALUATE: 1 µs after the last evaluation of quadrant q; `m` is the smallest margin code of its monitors. The supply moves by 2.5 mV at
most, toward a new VMIN or VMAX too (R347, R348). -/
def State.avsEvaluate (s : State) (q m : Nat) : State :=
  if !s.avsOn || decide (4 ≤ q) then s else
  let s := s.toNs (Tab.get (fun _ => 0) s.cal.avsAt q + 1000)
  let e : Int := (m : Int) - s.f (F.CAL_AVS_CTL_TARGET q)
  let lo := 2 * s.f (F.CAL_AVS_CTL_VMIN q)
  let hi := 2 * s.f (F.CAL_AVS_CTL_VMAX q)
  let v := s.volt q
  let v2 := if 0 < e then v - 5 else if e < 0 then v + 5 else v
  let n := if e < 0 ∧ hi ≤ v then Tab.get (fun _ => 0) s.cal.vmaxRun q + 1 else 0
  let s := { s with cal := { s.cal with avsAt := Tab.put (fun _ => 0) s.cal.avsAt q s.clk.ns, vmaxRun := Tab.put (fun _ => 0) s.cal.vmaxRun q n } }
  let s := (s.setF (F.CAL_AVS_RESID_E q) (ofSigned 8 (clampI (-128) 127 e))).setVolt q (max (v - 5) (min (v + 5) (max lo (min hi v2))))
  if n = 1000 then (s.setF F.CAL_FLAGS_AVS_LIMIT 1).raise 0x1505 q else s

/-! ## Clock (R349) -/

/-- The dividers tried from D_MAX down to 4. -/
def dividers (dmax : Nat) : List Nat := (List.range (dmax + 1 - 4)).map (fun i => dmax - i)

/-- Quadrant q's choice, given the dividers in force of the others (R349). -/
def State.chooseD (s : State) (q : Nat) : Option Nat :=
  let others := (List.range 4).foldl (fun m j => if j = q then m else max m (s.dcur j)) 0
  (dividers (s.f (F.CAL_FS_CTL_D_MAX q))).find? (fun d => s.clockOk s.firstRunPipes (max d others))

/-- CLOCK_LOOP: at a Meridian frame start, quadrants 0 to 3 in turn; a raised clock has the supply at VMAX first (R349). -/
def State.clockLoop (s : State) : State :=
  if !s.fsOn then s else
  match s.toPhase 6 0 with
  | none => s
  | some s => (List.range 4).foldl (fun (t : State) q =>
      match t.chooseD q with
      | some d => t.moveD q d
      | none => t) s

/-! ## Thermal placement (R351) -/

/-- The temperature that sensor i reports from the reading `t`, in 1/8 °C: its offset corrects it (R341). -/
def State.sensed (s : State) (i : Nat) (t : Int) : Int := t + signedOf 8 (bitsOf (s.rdn (senseReg i)) 15 8)

/-- Sensor i reads `t`, in 1/8 °C: its register shows whole °C, and probe 8 samples it (R354, R430). -/
def State.sensorRead (s : State) (i : Nat) (t : Int) : State :=
  let v := s.sensed i t
  let s := s.wrn (senseReg i) (setBits (s.rdn (senseReg i)) 7 0 (ofSigned 8 (clampI (-128) 127 (sar v 3))))
  s.probe 8 (fun x => x == i) v

/-- The hottest pipe of a list of (pipe, temperature); a tie goes to the lower index. -/
def hottest : List (Nat × Int) → Option (Nat × Int)
  | [] => none
  | x :: r => match hottest r with | some y => if x.2 < y.2 then some y else some x | none => some x

/-- New cool requests in one quadrant: up to `n` of the candidates, the hottest first. -/
def State.coolPick (s : State) (l : List (Nat × Int)) : Nat → State
  | 0 => s
  | n + 1 => match hottest l with
    | none => s
    | some x => ((s.coolSet x.1 true).raise 0x1508 x.1).coolPick (l.filter (fun y => y.1 != x.1)) n

/-- THERMAL_PLACEMENT: each Meridian frame, the readings of the pipe diodes in 1/8 °C: requests clear below COOL_OFF, and the pipes at
COOL_ON or above get one while the quadrant holds fewer than COOL_MAX (R351). -/
def State.thermalPlacement (s : State) (temps : List Int) : State :=
  match s.toPhase 6 0 with
  | none => s
  | some s =>
    let rd := (temps.take 64).zipIdx.map (fun e => (e.2, s.sensed e.2 e.1))
    let s := (temps.take 64).zipIdx.foldl (fun (t : State) e => t.sensorRead e.2 e.1) s
    if !(s.active fnCal && s.on F.CAL_CTL_TP_EN) then s else
    let s := rd.foldl (fun (t : State) x =>
      if t.on (F.DIS_PIPE_STATUS_COOL_REQ x.1) && decide (x.2 < 8 * (t.f F.CAL_TP_COOL_OFF : Int)) then t.coolSet x.1 false else t) s
    (List.range 4).foldl (fun (t : State) q =>
      let held := ((List.range 16).filter (fun i => t.on (F.DIS_PIPE_STATUS_COOL_REQ (16 * q + i)))).length
      let cand := rd.filter (fun x => x.1 / 16 == q && !t.on (F.DIS_PIPE_STATUS_COOL_REQ x.1) && decide (8 * (t.f F.CAL_TP_COOL_ON : Int) ≤ x.2))
      t.coolPick cand (t.f F.CAL_TP_COOL_MAX - held)) s

/-! ## Registers (R354) -/

/-- The loops that are off leave their targets at rest: the supply at VMAX (R347), every quadrant at D 4 (R350). -/
def State.calRest (s : State) : State :=
  let s := if s.avsOn then s else (List.range 4).foldl State.voltMax s
  if s.fsOn then s else (List.range 4).foldl (fun (t : State) q => t.moveD q 4) s

/-- CAL_CTL takes the value `new`: EN = 1 starts the function and the start Sighting of every sensor (R342, R354). -/
def State.calWrite (s : State) (new : Word) : State :=
  let want := bitsOf new.toNat 0 0 == 1
  let t := s.wr R.CAL_CTL new
  let t := match s.fn fnCal, want with
    | .off, true => (List.range 72).foldl (fun (t : State) i => t.setSight 3 i (some { start := true })) (t.setFn fnCal .starting)
    | .off, false => t
    | _, false =>
      let t := { t.setFn fnCal .off with cal := { t.cal with winAt := none } }.setF F.CAL_STATUS_WINDOW 0
      let t := (List.range 128).foldl (fun (t : State) i => t.sightDrop 1 i) t
      let t := (List.range 64).foldl (fun (t : State) i => t.sightDrop 0 i) t
      let t := (List.range 72).foldl (fun (t : State) i => t.sightDrop 3 i) t
      let t := (List.range 11).foldl (fun (t : State) i => t.sightDrop 2 i) t
      let t := t.cal.parked.foldl (fun (t : State) m => t.quadWrite (m - 2) (BitVec.ofNat 32 0)) t
      { t with cal := { t.cal with parked := [] } }
    | _, true => t
  t.calRest

/-- Is every start Sighting of the sensors done, so that the function is READY? -/
def State.calReady (s : State) : Bool := (List.range 72).all (fun i => (s.sight 3 i).isNone)

/-- Writes of CAL registers that have rules of their own. -/
def State.calReg (s : State) (a : Nat) (v : Word) : Option State :=
  if a = R.CAL_CTL then some (s.calWrite v)
  else if a = R.CAL_CMD then some (s.calCmd v)
  else if a = R.CAL_WIN then (if s.clk.lm ≤ bitsOf v.toNat 15 0 then some (s.refuse 0x15) else none)
  else if a = R.CAL_TP then (if bitsOf v.toNat 7 0 ≤ bitsOf v.toNat 15 8 then some (s.refuse 0x15) else none)
  else if R.CAL_AVS_CTL 0 ≤ a ∧ a < R.CAL_AVS_CTL 4 then
    let q := (a - R.CAL_AVS_CTL 0) / 0x20
    let o := (a - R.CAL_AVS_CTL 0) % 0x20
    if o = 0 then
      (if bitsOf v.toNat 19 10 < bitsOf v.toNat 9 0 then some (s.refuse 0x15)
       else let t := s.wr a v; some (if t.avsOn then t else t.voltMax q))
    else if o = 0xC then some ((s.wr a v).clockCheck s.firstRunPipes)
    else none
  else none

end Sys2Proof.Machine
end

