-- ==== Sys2Proof/Machine/Souv.lean ====
section
/-!
DEFINITION. Sys2Proof/Machine/Souv.lean: the Souvenir store (R386, R400, R463), the configuration flash (R361), and the words of the session and
boot records that live there.
-/

namespace Sys2Proof.Machine

/-! ## The Souvenir store -/

/-- A 64-bit word of the Souvenir store. -/
def State.sv (s : State) (w : Nat) : Nat := Tab.get (fun _ => 0) s.souv w

/-- Write a word of the Souvenir store; each word write is atomic (R386). -/
def State.svPut (s : State) (w v : Nat) : State :=
  if w < 8192 then { s with souv := Tab.put (fun _ => 0) s.souv w (v % 2 ^ 64) } else s

/-- Bits [hi:lo] of a word of the Souvenir store. -/
def State.svf (s : State) (w hi lo : Nat) : Nat := bitsOf (s.sv w) hi lo

/-- Set bits [hi:lo] of a word of the Souvenir store, in one word write. -/
def State.svSet (s : State) (w hi lo v : Nat) : State := s.svPut w (setBits (s.sv w) hi lo v)

/-- Bytes 8w to 8w + 8n − 1 of the Souvenir store. -/
def State.svBytes (s : State) (w n : Nat) : List Nat := (List.range n).flatMap (fun i => leBytes (s.sv (w + i)) 8)

/-- Write bytes into words from `w` on, eight a word. -/
def State.svPutBytes (s : State) (w n : Nat) (l : List Nat) : State :=
  (List.range n).foldl (fun (t : State) i => t.svPut (w + i) (leNat l (8 * i) 8)) s

/-! ## The session record (words 0–63, R386) -/

def State.updState (s : State) : Nat := s.svf 15 2 0
def State.updKind (s : State) : Nat := s.svf 0 0 0
def State.updSrcKind (s : State) : Nat := s.svf 0 1 1
def State.updParcels (s : State) : Nat := s.svf 0 13 2
def State.updLen (s : State) : Nat := s.svf 0 63 32
def State.updSource (s : State) : Nat := s.sv 1 + 2 ^ 64 * s.sv 2
def State.updDigest (s : State) : List Nat := s.svBytes 3 6
def State.updNonce (s : State) : List Nat := s.svBytes 9 2
def State.updKs (s : State) : List Nat := s.svBytes 11 4
def State.updIdle (s : State) : Nat := s.svf 15 63 32

/-- Is parcel i in the Hamper (bit i mod 64 of word 16 + i / 64)? -/
def State.updHas (s : State) (i : Nat) : Bool := s.svf (16 + i / 64) (i % 64) (i % 64) == 1

/-- The parcels held. -/
def State.updHeld (s : State) : Nat := ((List.range s.updParcels).filter s.updHas).length

/-- The CRC of words 0–14, as word 66 holds it since the OPEN. -/
def State.updCrc (s : State) : Nat := crc32c (s.svBytes 0 15)

/-- The session ends: STATE NONE and an IDLE_MIN of 0, in one word write (R381, R387). -/
def State.updNone (s : State) : State := s.svPut 15 0

/-! ## The boot record (words 64–66) -/

def State.trial (s : State) : Nat := s.svf 64 1 0
def State.runFb (s : State) : Bool := s.svf 64 2 2 == 1
def State.updStep (s : State) : Nat := s.svf 64 5 3
def State.attempts (s : State) : Nat := s.svf 64 9 6
def State.trialK (s : State) : Nat := s.svf 64 13 10
def State.healthy (s : State) : Bool := s.svf 64 14 14 == 1
def State.healthS (s : State) : Nat := s.svf 64 31 16
def State.trialLimit (s : State) : Nat := s.svf 65 31 0
def State.trialElapsed (s : State) : Nat := s.svf 65 63 32

/-! ## Flash (R361) -/

/-- An erased byte reads 0xFF. -/
def flashEmpty : Nat → Byte := fun _ => 0xFF

/-- The size of the device in bytes: 2 Gbit for density code 1, doubling with each code. -/
def State.flashSize (s : State) : Nat := 2 ^ 27 * 2 ^ s.flash.density

/-- One byte of the flash. -/
def State.flashByte (s : State) (a : Nat) : Nat := (Tab.get flashEmpty s.flash.mem a).toNat

/-- `n` bytes of the flash from `a` on. -/
def State.flashBytes (s : State) (a : Nat) : Nat → List Nat
  | 0 => []
  | n + 1 => s.flashByte a :: State.flashBytes s (a + 1) n

/-- A little-endian 32-bit word of the flash. -/
def State.flashWord (s : State) (a : Nat) : Nat := leNat (s.flashBytes a 4) 0 4

/-- Erase and write bytes from `a` on. -/
def State.flashPut (s : State) (a : Nat) (l : List Nat) : State :=
  { s with flash := { s.flash with mem := Tab.putList flashEmpty s.flash.mem a (l.map (BitVec.ofNat 8)) } }

/-- Copy `n` bytes from `src` to `dst`; areas do not overlap. -/
def State.flashCopy (s : State) (src dst n : Nat) : State :=
  let m := s.flash.mem.filter (fun e => !(decide (dst ≤ e.1) && decide (e.1 < dst + n)))
  let c := s.flash.mem.filter (fun e => decide (src ≤ e.1) && decide (e.1 < src + n))
  { s with flash := { s.flash with mem := c.foldl (fun (t : Tab Byte) e => Tab.put flashEmpty t (e.1 - src + dst) e.2) m } }

/-- The areas of the layout (R361, R386). -/
def flashActive : Nat := 0x00010000
def flashFallback : Nat := 0x03010000
def flashConfig : Nat := 0x09210000
def slotLen : Nat := 0x03000000
def hamperSlot (i : Nat) : Nat := 0x06010000 + 0x4000 * i
def hamperTag (i : Nat) : Nat := 0x09010000 + 16 * i

/-- Is a directory copy good, with a density that agrees with the device (R361)? -/
def State.dirGood (s : State) (a : Nat) : Bool :=
  s.flashWord a == 0x52494458 && s.flashWord (a + 4) % 256 == 1 && s.flashWord (a + 4) / 256 % 256 == s.flash.density
    && s.flashWord (a + 8) == 0 && s.flashWord (a + 12) == crc32c (s.flashBytes a 12)

/-- The directory copy that the loader uses: 0 the first, 1 the second, if either is good (R361). -/
def State.dirCopy (s : State) : Option Nat := if s.dirGood 0 then some 0 else if s.dirGood 0x8000 then some 1 else none

end Sys2Proof.Machine
end

