-- ==== Sys2Proof/Machine/Image.lean ====
section
/-!
DEFINITION. Sys2Proof/Machine/Image.lean: the Basgar image (R363-R367): its header and records in the configuration area, the checks of
the whole image (R366), its signature (R367), its settings blocks (R369).
-/

namespace Sys2Proof.Machine

/-- A record of a Basgar image (R364): its offset in the image, type, payload bytes, MIDs, parameter. -/
structure BasRec where
  off : Nat
  ty : Nat
  len : Nat
  first : Nat
  last : Nat
  param : Nat
  deriving DecidableEq, Repr

/-- A byte of an image that stands in the flash from the configuration area's start on. -/
def State.imgByte (s : State) (i : Nat) : Nat := s.flashByte (flashConfig + i)

/-- `n` bytes of an image. -/
def imgBytes (b : Nat → Nat) (a n : Nat) : List Nat := (List.range n).map (fun i => b (a + i))

/-- A little-endian word of an image (R10). -/
def imgWord (b : Nat → Nat) (a : Nat) : Nat := b a + 256 * b (a + 1) + 65536 * b (a + 2) + 16777216 * b (a + 3)

/-- The record at an offset. -/
def recAt (b : Nat → Nat) (o : Nat) : BasRec :=
  { off := o, ty := b o, len := imgWord b o / 256, first := imgWord b (o + 4) % 1024, last := imgWord b (o + 4) / 65536 % 1024,
    param := imgWord b (o + 8) }

/-- The records from an offset to the end of the image; none where they do not end exactly there. `n` bounds their number. -/
def recsFrom (b : Nat → Nat) (fin : Nat) : Nat → Nat → Option (List BasRec)
  | _, 0 => none
  | o, n + 1 =>
    if o = fin then some []
    else if fin < o + 16 then none
    else
      let r := recAt b o
      match recsFrom b fin (o + 16 + r.len) n with
      | some l => some (r :: l)
      | none => none

/-- IMAGE_LEN of the header (R363). -/
def imgLen (b : Nat → Nat) : Nat := imgWord b 8

/-- Does a module apply a record (R364)? -/
def BasRec.applies (mid : Nat) (r : BasRec) : Bool := decide (r.first ≤ mid) && decide (mid ≤ r.last)

/-- Is the header right (R363, R366)? `room` is the configuration area's size. -/
def headerOk (b : Nat → Nat) (room : Nat) : Bool :=
  imgWord b 0 == 0x52475342 && imgWord b 252 == crc32c (imgBytes b 0 252) && imgWord b 4 == 0x01000001
    && imgWord b 16 % 65536 == 0x4160 && decide (imgWord b 16 / 65536 % 256 ≤ 0x21)
    && imgLen b % 4 == 0 && decide (256 ≤ imgLen b) && decide (imgLen b ≤ room)
    && decide (imgWord b 20 % 65536 ≤ 10000)
    && (let r := imgWord b 20 / 65536; r == 0 || (decide (8000 ≤ r) && decide (r ≤ 9600)))

/-- Are a record's CRC, type and length right (R364-R366)? -/
def recOk (b : Nat → Nat) (r : BasRec) : Bool :=
  imgWord b (r.off + 12) == crc32c (imgBytes b r.off 12 ++ imgBytes b (r.off + 16) r.len) && r.len % 4 == 0
    && (match r.ty with
      | 0x01 => r.len == 32
      | 0x02 => r.len % 8 == 0
      | 0x03 => r.len == 16
      | 0x04 | 0x05 => true
      | 0x06 => r.len == 32
      | 0x0F => r.len == 196
      | _ => false)

/-- The order of the records (R366): one FEATURE record, the first, for every module; a SIGNATURE record only last. -/
def orderOk : List BasRec → Bool
  | [] => false
  | r :: l => r.ty == 0x01 && r.first == 0 && r.last == 1023 && l.all (fun x => x.ty != 0x01)
      && (l.dropLast).all (fun x => x.ty != 0x0F)

/-- REQ and WANT of the FEATURE record (R365). -/
def imgReq (b : Nat → Nat) (r : BasRec) : Nat := leNat (imgBytes b (r.off + 16) 16) 0 16
def imgWant (b : Nat → Nat) (r : BasRec) : Nat := leNat (imgBytes b (r.off + 32) 16) 0 16

/-- Offered features at revision B1: bits 0 to 13 (R371). -/
def offered : Nat := 0x3FFF

/-- The signature check of R367 against the key slots as they stood at this start (R405): passed, and with a signature? -/
def State.sigCheck (s : State) (b : Nat → Nat) (rs : List BasRec) : Option Bool :=
  let slots := (List.range 2).map (fun k => Tab.get (fun _ => ([] : List Nat)) s.cfg.keys1 k)
  let any_ := slots.any (fun k => !k.isEmpty)
  match rs.getLast? with
  | none => none
  | some r =>
    if r.ty ≠ 0x0F then (if any_ then none else some false)
    else
      let key := imgBytes b (r.off + 16) 97
      let sig := imgBytes b (r.off + 16 + 100) 96
      let dig := Config.sha384 (imgBytes b 0 r.off)
      let keyOk := !any_ || (let want := slots.getD (r.param % 4) []; !want.isEmpty && Config.sha384 key == want)
      if keyOk && Config.sigOk key sig dig then some true else none

/-- The check of a whole image (R366), features apart: its records and whether it is signed, or the CFG_ERR_CODE. -/
def State.imageCheck (s : State) (b : Nat → Nat) : Except Nat (List BasRec × Bool) :=
  if !headerOk b (s.flashSize - flashConfig) then .error 1
  else match recsFrom b (imgLen b) 256 (imgLen b / 16 + 1) with
    | none => .error 2
    | some rs =>
      if !rs.all (recOk b) then .error 2
      else if !orderOk rs then .error 3
      else if 1 < (rs.filter (fun r => r.ty == 0x06 && r.applies s.pins.mid)).length then .error 3
      else match s.sigCheck b rs with
        | none => .error 4
        | some g => .ok (rs, g)

/-- Can the features of the image be met as R370 requires before the window's end: no bit beyond those offered, and bits 8 and 9 not
both? -/
def featOk (req want : Nat) : Bool :=
  decide (req ≤ offered) && !(bitsOf (req ||| want) 8 8 == 1 && bitsOf (req ||| want) 9 9 == 1)

/-- The settings blocks of an image that apply to a module: ID, format, offset, length (R365, R369). -/
def settingsOf (mid : Nat) (rs : List BasRec) : List (Nat × Nat × Nat × Nat) :=
  (rs.filter (fun r => r.ty == 0x05 && r.applies mid)).map (fun r => (r.param % 65536, r.param / 65536 % 65536, r.off + 16, r.len))

/-- Does every ID that the applying records hold have a block of this format (R369, R387)? -/
def formatsOk (fmt : Nat) (l : List (Nat × Nat × Nat × Nat)) : Bool := l.all (fun x => l.any (fun y => y.1 == x.1 && y.2.1 == fmt))

end Sys2Proof.Machine
end

