-- ==== Sys2Proof/Machine/Rst.lean ====
section
/-!
DEFINITION. Sys2Proof/Machine/Rst.lean: the Binnacle island (R394-R402): resets (R356-R358), shutdowns and recovery (R398), the firmware watchdog
(R399), sensors, the fault history (R400, R401).
-/

namespace Sys2Proof.Machine

/-! ## Resets (R356, R357) -/

/-- Is an address that of an island register that a warm or cold reset keeps (R394)? -/
def islandKept (a : Nat) : Bool := decide (0x10000 ≤ a) && decide (a < 0x10100) && a != R.BIN_WDOG

/-- The core after a reset: every register outside the island and every piece of state returns to its reset value; the island, the Souvenir
store, the key slots and the flash are kept; a warm reset also keeps the HBM's bytes, and needs no pipe start test (R356, R359). The event
log is lost with the core. -/
def State.coreReset (s : State) (warm : Bool) : State :=
  let r := State.reset
  { r with
    pending := s.pending
    out := s.out
    fctr := s.fctr
    regs := s.regs.filter (fun e => islandKept e.1)
    clk := { r.clk with ns := s.clk.ns }
    isl := { s.isl with wdogAt := none }
    hbm := { r.hbm with mem := if warm then s.hbm.mem else [] }
    dis := { r.dis with tested := warm && s.dis.tested, keepAddr := if !warm then none else if s.active fnDis then some s.lbAddr else some (s.dis.keepAddr.getD s.lbAddr) }
    flash := s.flash
    souv := s.souv
    keys := s.keys
    pins := s.pins
    cfg := { r.cfg with pwrGood := s.cfg.pwrGood } }

/-- A reset takes effect: the core resets, GIVEN_UP falls, GLB_RESET_CAUSE records kind and source (R357, R396). A cold reset
is held for 1 ms (R395). -/
def State.resetNow (s : State) (kind source : Nat) : State :=
  let t := ((s.coreReset (kind == 2)).setF F.BIN_STATUS_GIVEN_UP 0).wrn R.GLB_RESET_CAUSE (kind + 4 * source)
  { t with cfg := { t.cfg with reset := some { kind := kind, source := source, since := s.clk.ns } } }

/-- Is any stack READY, so that a warm reset waits for its self-refresh (R395)? -/
def State.anyStack (s : State) : Bool := (List.range 4).any (fun k => s.ready (fnHbm k))

/-- Is the core still waiting for its stacks to confirm self-refresh? -/
def State.warmWaits (s : State) : Bool := match s.cfg.reset with | some r => r.kind == 2 && decide (s.cfg.stage ≠ 0) | none => false

/-- A trigger of a warm (2) or cold (1) reset: the module gives up control with a record of cause 11 (R250, R356, R396). With the rails off
nothing else follows. The broader reset wins; one that meets an equal or broader one in progress is absorbed (R357). A warm
reset waits for the READY stacks (R395). -/
def State.resetTrigger (s : State) (kind source : Nat) : State :=
  let s := s.giveUp 11 0xFF 0 (kind + 4 * source)
  if s.on F.BIN_STATUS_SHUTDOWN then s
  else match s.cfg.reset with
    | some r => if r.kind = 2 ∧ kind = 1 then s.resetNow 1 source else s
    | none =>
      if kind = 2 ∧ s.anyStack = true ∧ s.cfg.stage ≠ 0 then
        { s with cfg := { s.cfg with reset := some { kind := 2, source := source, since := s.clk.ns } } }
      else s.resetNow kind source

/-- SELF_REFRESH_CONFIRM: every READY stack has confirmed, and the warm reset proceeds (R395, R317). -/
def State.selfRefreshConfirm (s : State) : State :=
  match s.cfg.reset with
  | some r => if s.warmWaits then s.resetNow 2 r.source else s
  | none => s

/-- SELF_REFRESH_TIMEOUT: 1 ms after the start of a warm reset that still waits, Binnacle makes it a cold one, with the same source
(R357, R395). -/
def State.selfRefreshTimeout (s : State) : State :=
  match s.cfg.reset with
  | some r => if s.warmWaits then (s.toNs (r.since + 1000000)).resetNow 1 r.source else s
  | none => s

/-- A write of GLB_RESET: refused without the key, or with both actions or none (R356). -/
def State.glbReset (s : State) (v : Nat) : State :=
  if bitsOf v 31 16 ≠ 0xA5C3 then s.refuse 0x00
  else match bitsOf v 0 0, bitsOf v 1 1 with
    | 1, 0 => s.resetTrigger 2 2
    | 0, 1 => s.resetTrigger 1 2
    | _, _ => s.refuse 0x00

/-- RST_N held low for 1 µs: a cold reset; the loader waits for its rise (R356, R359). -/
def State.rstLow (s : State) : State :=
  ({ s with pins := { s.pins with rstN := false } }).resetTrigger 1 1

/-- POWER_ON_RESET: VIN or VSTBY rises from below its minimum: everything is at its reset value but the Souvenir store, the flash and the
one-time key slots (R356, R394); a fault record that had not been written is lost with the island. -/
def State.powerOn (s : State) : State :=
  let r := State.reset
  { r with pending := s.pending, fctr := s.fctr, flash := s.flash, souv := s.souv, keys := s.keys,
           pins := { s.pins with rstN := true } }

/-- ISLAND_HOLD_UP_END: 200 µs after VIN fell below 4.5 V with no VSTBY, the island stops, and the whole module is down (R394). -/
def State.holdUpEnd (s : State) : State :=
  match s.isl.vinLow with
  | none => s
  | some t =>
    if s.on F.BIN_STATUS_VSTBY then s
    else
      let s := (s.toNs (t + 200000)).driveHelm false
      let p := s.powerOn
      { p with out := s.out, clk := { p.clk with ns := s.clk.ns }, isl := { p.isl with dead := true } }

/-- PWR_GOOD rises: every rail is in regulation (R359); no rail is on in a shutdown or without supply. -/
def State.pwrGoodRise (s : State) : State :=
  if s.on F.BIN_STATUS_SHUTDOWN || s.isl.dead then s else { s with cfg := { s.cfg with pwrGood := true } }

/-! ## Shutdowns (R398) -/

/-- A shutdown: the module gives up with a record of its cause, event 0x0106 or 0x0107 is raised, and every rail but the island's goes off:
the core is lost as at a cold reset. GIVEN_UP stays until the next reset. -/
def State.shutdown (s : State) (cause event detail : Nat) (cmd : Bool) : State :=
  let s := (s.giveUp cause 0x01 event detail).raise event 0
  let s := { s with isl := { s.isl with shutThermal := s.isl.shutThermal || (cause == 5 && !cmd)
                                        shutPower := s.isl.shutPower || cause == 6
                                        shutCmd := s.isl.shutCmd || cmd, hotRun := 0 } }
  let t := (s.coreReset false).setF F.BIN_STATUS_SHUTDOWN 1
  { t with cfg := { t.cfg with pwrGood := false } }

/-- BIN_CMD.SHUTDOWN and its like: a thermal-class shutdown without recovery; DETAIL is the hottest sensor of the last sample (R398). -/
def State.shutdownCmd (s : State) : State := s.shutdown 5 0x0106 s.isl.hot true

/-- The module comes back from a shutdown: the rails are restored, a record of cause 13 names the cause, and a cold reset follows (R398). -/
def State.recover (s : State) (source : Nat) : State :=
  let c := if s.isl.shutThermal || s.isl.shutCmd then 5 else 6
  let s := s.pushFault 13 0xFF 0 0x7F c
  let s := s.setF F.BIN_STATUS_SHUTDOWN 0
  let s := { s with isl := { s.isl with shutThermal := false, shutPower := false, shutCmd := false } }
  s.resetTrigger 1 source

/-- The time at which a recovery condition that has held since `t` is met. -/
def since (on_ : Bool) (t : Option Nat) (ns : Nat) : Option Nat := if on_ then t.map (fun x => x + ns) else some 0

/-- SHUTDOWN_RECOVERY: with AUTO_REC, once the hottest sensor has stayed below SHUT − 15 °C for 10 s after a thermal shutdown and VIN within
5.5–48 V for 100 ms after a power shutdown; both after both (R398). -/
def State.shutdownRecovery (s : State) : State :=
  if !s.on F.BIN_STATUS_SHUTDOWN || !s.on F.BIN_THERM_AUTO_REC || s.isl.shutCmd then s
  else match since s.isl.shutThermal s.isl.coolSince 10000000000, since s.isl.shutPower s.isl.vinSince 100000000 with
    | some a, some b => (s.toNs (max a b)).recover 5
    | _, _ => s

/-- SUPPLY_FAULT: for 20 µs VIN has been below 5.2 V or above 52 V, or a rail out of regulation: a power shutdown, DETAIL the VIN in mV
(R398, R450). -/
def State.supplyFault (s : State) (vin : Nat) (rail : Bool) : State :=
  if !s.isl.dead && (rail || decide (vin < 5200) || decide (52000 < vin)) then
    (s.setF F.BIN_VIN_VIN (min 65535 vin)).shutdown 6 0x0107 vin false
  else s

/-! ## Sensors (R398) -/

/-- The hottest of the readings, in 1/8 °C, with its sensor. -/
def hottestOf (l : List Int) (base : Nat) : Option (Nat × Int) := hottest (l.zipIdx.map (fun e => (base + e.2, e.1)))

/-- A temperature as BIN_TEMP and DETAIL show it: whole °C, signed 8 bits. -/
def degrees (t : Int) : Nat := ofSigned 8 (clampI (-128) 127 (sar t 3))

/-- The registers that show the readings while the core runs: the die and HBM sensors and the rails, for the probes 7 and 8 (R430). -/
def State.coreSensors (s : State) (die hbm : List Int) (vin vstby : Nat) (rails : List Nat) : State :=
  let s := die.zipIdx.foldl (fun (t : State) e => t.sensorRead (64 + e.2) e.1) s
  let s := hbm.zipIdx.foldl (fun (t : State) e => t.probe 8 (fun x => x == 72 + e.2) e.1) s
  let s := (s.probe 7 (fun x => x == 0) vin).probe 7 (fun x => x == 1) vstby
  rails.zipIdx.foldl (fun (t : State) e => t.probe 7 (fun x => x == 2 + e.2) e.1) s

/-- SENSOR_READ: the samples of 10 µs: eight die and four HBM sensors in 1/8 °C, VIN, VSTBY and the quadrants' supplies in mV. At WARN the bit,
the event and a record follow where the bit is clear (R402); SHUT in 3 samples on end shuts down (R398). -/
def State.sensorSample (s : State) (die hbm : List Int) (vin vstby : Nat) (rails : List Nat) : State :=
  let die := die.take 8
  let hbm := hbm.take 4
  if s.isl.dead then s else
  let off := s.on F.BIN_STATUS_SHUTDOWN
  let now := s.clk.ns
  let s := if off then s else s.coreSensors die hbm vin vstby rails
  let s := match hottestOf die 0 with | some x => s.setF F.BIN_TEMP_HOTTEST (degrees x.2) | none => s
  let s := match hottestOf hbm 8 with | some x => s.setF F.BIN_TEMP_HOTTEST_15 (degrees x.2) | none => s
  let s := ((s.setF F.BIN_VIN_VIN (min 65535 vin)).setF F.BIN_VIN_VSTBY (min 65535 vstby)).setF F.BIN_STATUS_VSTBY (if 0 < vstby then 1 else 0)
  let keep := fun (on_ : Bool) (o : Option Nat) => if on_ then some (o.getD now) else none
  match hottestOf (die ++ hbm) 0 with
  | none => s
  | some (i, t) =>
    let shut : Int := 8 * (s.f F.BIN_THERM_SHUT : Int)
    let det := i + 256 * degrees t
    let s := { s with isl := { s.isl with hot := det
                                          coolSince := keep (decide (t < shut - 120)) s.isl.coolSince
                                          vinSince := keep (decide (5500 ≤ vin) && decide (vin ≤ 48000)) s.isl.vinSince
                                          vinLow := keep (decide (vin < 4500)) s.isl.vinLow
                                          hotRun := if shut ≤ t then s.isl.hotRun + 1 else 0 } }
    let s := if decide (8 * (s.f F.BIN_THERM_WARN : Int) ≤ t) && s.f F.BIN_FAULT_THERM_WARN == 0
      then (s.raise 0x0105 i).pushFault 4 0x01 0x0105 0x7F det else s
    if decide (3 ≤ s.isl.hotRun) && !s.isl.shutThermal then s.shutdown 5 0x0106 det false else s

/-! ## Actions of the island -/

/-- BIN_CMD (R423): refused without the key or with more than one action. `source` is that of R374: 6 by a register write, 4 by the
service port. -/
def State.binCmd (s : State) (source v : Nat) : State :=
  if bitsOf v 31 16 ≠ 0xA5C3 then s.refuse 0x01
  else match bitsOf v 5 0 with
    | 0 => s
    | 1 => s.mute false
    | 2 => s.unmute
    | 4 => s.giveUp 7 0xFF 0 source
    | 8 => if s.on F.BIN_STATUS_SHUTDOWN then s.refuse 0x01 else s.resetTrigger 2 source
    | 16 => if s.on F.BIN_STATUS_SHUTDOWN then s.recover source else s.resetTrigger 1 source
    | 32 => s.shutdownCmd
    | _ => s.refuse 0x01

/-- The value that performs an action of BIN_CMD. -/
def binCmdWord (action : Nat) : Nat := 0xA5C30000 + 2 ^ action

/-! ## The watchdogs (R388, R399) -/

/-- A write of BIN_WDOG arms or disarms the firmware watchdog; one of BIN_WDOG_KICK restarts it. -/
def State.wdogArm (s : State) : State :=
  let p := s.f F.BIN_WDOG_PERIOD
  { s with isl := { s.isl with wdogAt := if p = 0 then none else some (s.clk.ns + 1000000 * p) } }

/-- FIRMWARE_WATCHDOG_EXPIRY: PERIOD has passed since the last kick: the bit, a record and event 0x0108; then ACTION (R399). -/
def State.wdogExpiry (s : State) : State :=
  match s.isl.wdogAt with
  | none => s
  | some t =>
    let s := (s.toNs t).wdogArm
    let a := s.f F.BIN_WDOG_ACTION
    let s := s.raise 0x0108 0
    if a = 1 then s.giveUp 8 0x01 0x0108 a
    else
      let s := s.pushFault 8 0x01 0x0108 0x7F a
      if a = 2 then s.resetTrigger 2 7 else s

/-- The trial watchdog resets the module (R388, R389): a record of cause 9, then the cold reset. -/
def State.trialReset (s : State) : State := (s.pushFault 9 0xFF 0 0x7F s.attempts).resetTrigger 1 8

/-- TRIAL_WATCHDOG_EXPIRY: HEALTHY is not set HEALTH_S seconds after the firmware's start in a running trial (R388). -/
def State.trialWatchdog (s : State) : State :=
  if s.cfg.stage = 2 ∧ s.trial = 1 ∧ s.healthy = false then (s.toNs (s.cfg.fwAt + 1000000000 * s.healthS)).trialReset else s

/-- UNREADABLE_RESET: 1 s after settings were declared unreadable in a trial (R389). -/
def State.unreadableReset (s : State) : State :=
  match s.cfg.unreadAt with
  | some t => (s.toNs (t + 1000000000)).trialReset
  | none => s

/-! ## The fault history (R400, R401) -/

/-- The four words of a fault record with its SEQ. -/
def FaultRec.words (r : FaultRec) (seq : Nat) : List Nat :=
  let w0 := seq % 2 ^ 32 + r.cause % 256 * 2 ^ 32 + r.block % 256 * 2 ^ 40 + r.event % 65536 * 2 ^ 48
  let w1 := r.uptime % 2 ^ 64
  let w2 := r.stcSec % 2 ^ 32 + r.fn % 128 * 2 ^ 32 + (if r.muted then 2 ^ 39 else 0) + (if r.helm then 2 ^ 40 else 0) + r.boots % 65536 * 2 ^ 48
  let d := r.detail % 2 ^ 32
  let crc := crc32c (leBytes w0 8 ++ leBytes w1 8 ++ leBytes w2 8 ++ leBytes d 4)
  [w0, w1, w2, d + crc * 2 ^ 32]

/-- FAULT_RECORD_WRITE: the oldest queued record goes into the ring of 2,029, and word 72 advances. Where all three attempts to write
fail, the record is lost (R463). -/
def State.faultWrite (s : State) (ok : Bool) : State :=
  match s.isl.queue with
  | [] => s
  | r :: q =>
    let s := { s with isl := { s.isl with queue := q } }
    if !ok then s.recordLost
    else
      let i := s.svf 72 15 0
      let n := s.svf 72 47 16
      let w := r.words n
      let s := (List.range 4).foldl (fun (t : State) j => t.svPut (76 + 4 * i + j) (w.getD j 0)) s
      s.svPut 72 ((i + 1) % 2029 + (n + 1) % 2 ^ 32 * 65536)

/-- The 32 bytes of record i of the ring (R400). -/
def State.faultBytes (s : State) (i : Nat) : List Nat := s.svBytes (76 + 4 * i) 4

/-- Is FAULT_N low (R402)? -/
def State.faultN (s : State) : Bool := decide (s.rdn R.BIN_FAULT &&& s.rdn R.BIN_FAULT_MASK ≠ 0) || s.on F.BIN_STATUS_SHUTDOWN

/-- Is SVC_ALERT_N low (R406)? -/
def State.alertN (s : State) : Bool := s.isl.alert != 0

/-- ALERT_RESPONSE: a read of the Alert Response Address returns ADDR and releases SVC_ALERT_N (R406). -/
def State.alertResponse (s : State) : State :=
  if s.alertN then ({ s with isl := { s.isl with alert := 0 } }).emit (.alertAddr (s.f (⟨R.BIN_SVC_CTL, 6, 0⟩))) else s

/-- A write of BIN_FAULT clears the bits written as 1, and what they held of SVC_ALERT_N (R402, R406). -/
def State.faultClear (s : State) (v : Nat) : State :=
  { (s.wrn R.BIN_FAULT (s.rdn R.BIN_FAULT &&& (0xFFFFFFFF ^^^ v))) with isl := { s.isl with alert := s.isl.alert &&& (0xFFFFFFFF ^^^ v) } }

end Sys2Proof.Machine
end

