-- ==== Sys2Proof/Machine/Upd.lean ====
section
/-!
DEFINITION. Sys2Proof/Machine/Upd.lean: update sessions (R378-R386), the install (R387), the trial (R388-R391), the UPD commands (R392).
-/

namespace Sys2Proof.Machine

/-- The management key in force, or 32 zero bytes (R382, R412). -/
def State.mgmtKey (s : State) : List Nat := match s.cfg.key with | some k => k.2 | none => List.replicate 32 0

/-- The 16 bytes of a NONCE drawn now (R382). -/
def State.drawNonce (s : State) : List Nat × State :=
  ((List.range 16).map (fun i => (Config.nonce s.fctr).getD i 0 % 256), { s with fctr := s.fctr + 1 })

/-- The update source of a request: kind 0 and the IP address, or kind 1 and the originator's MID (R378, R386). -/
def sxSource (f : SxFrom) : Nat × Nat := match f.relay with | some m => (1, m) | none => (0, f.ip)

/-- Does the open session belong to this source? -/
def State.updOwner (s : State) (src : Nat × Nat) : Bool := s.updSrcKind == src.1 && s.updSource == src.2

/-! ## Status codes (R385) -/
def upOk : Nat := 0
def upBusy : Nat := 1
def upCrc : Nat := 2
def upTag : Nat := 3
def upSeq : Nat := 4
def upNoSession : Nat := 5
def upSize : Nat := 6
def upDisabled : Nat := 7
def upTrial : Nat := 8
def upFlash : Nat := 9

/-- A refused parcel or OPEN: counted, its status kept, event 0x1603 (R384). -/
def State.updRefuse (s : State) (st : Nat) : State :=
  (((s.bump R.UPD_REFUSE_CNT).wrn R.UPD_LAST_REFUSE st).setF F.UPD_FLAGS_REFUSE 1).raise 0x1603 0

/-- The words of a session reply (R385). -/
def State.sessionReply (s : State) (st : Nat) : List Nat :=
  [st + s.updState * 2 ^ 8 + s.updKind * 2 ^ 11 + s.updParcels * 2 ^ 12, s.updHeld]
    ++ (List.range 4).map (fun i => leNat s.updNonce (4 * i) 4)
    ++ (List.range 48).flatMap (fun i => [s.sv (16 + i) % 2 ^ 32, s.sv (16 + i) / 2 ^ 32])

/-! ## Sessions -/

/-- Where a word of the session record could not be written in three attempts, the record fails its CRC at the next start (R463, R386). -/
def State.svSpoil (s : State) (svOk : Bool) : State := if svOk then s else s.svPut 66 (0xFFFFFFFF - s.updCrc)

/-- A new session (R382): its record, a fresh NONCE and K_s, an empty bitmap, the CRC of words 0–14. -/
def State.updStart (s : State) (src : Nat × Nat) (kind len : Nat) (digest : List Nat) : State :=
  let (nonce, s) := s.drawNonce
  let ks := Config.hmac s.mgmtKey ([0x48, 0x58, 0x55, 0x50, 0x44, kind] ++ digest ++ nonce)
  let s := s.svPut 0 (kind + src.1 * 2 + ceilDiv len 16384 * 4 + len * 2 ^ 32)
  let s := (s.svPut 1 src.2).svPut 2 (src.2 / 2 ^ 64)
  let s := ((s.svPutBytes 3 6 digest).svPutBytes 9 2 nonce).svPutBytes 11 4 ((List.range 32).map (fun i => ks.getD i 0 % 256))
  let s := (List.range 48).foldl (fun (t : State) i => t.svPut (16 + i) 0) s
  let s := s.svPut 66 s.updCrc
  (s.svPut 15 1).raise 0x1602 0

/-- UPD_OPEN (R379, R385): its status, and the state after it. An OPEN of the session's own source, digest and kind is a resumption and
changes nothing. -/
def State.updOpen (s : State) (src : Nat × Nat) (body : List Nat) (svOk : Bool) : Nat × State :=
  let kind := byteAt body 0 % 2
  let len := leNat body 4 4
  let digest := (List.range 48).map (fun i => byteAt body (8 + i))
  let no := fun (st : Nat) => (st, s.updRefuse st)
  if !s.on F.UPD_CTL_ACCEPT then no upDisabled
  else if s.trial = 1 then no upTrial
  else if len = 0 ∨ 50331648 < len then no upSize
  else if s.updState ≠ 0 then
    if s.updOwner src && s.updDigest == digest && s.updKind == kind then (upOk, s) else no upBusy
  else (upOk, (s.updStart src kind len digest).svSpoil svOk)

/-- The bytes authenticated with parcel i: its header (R383). -/
def State.parcelAad (s : State) (i : Nat) : List Nat :=
  leBytes 0x4C435250 4 ++ leBytes i 4 ++ leBytes (min 16384 (s.updLen - 16384 * i)) 4 ++ [0, 0, 0, 0] ++ s.updDigest

/-- The 16 bytes of a GCM tag (R383). -/
def gcmTag16 (ks iv aad data : List Nat) : List Nat :=
  let x := Config.gcmTag ks iv aad data
  (List.range 16).map (fun i => x.getD i 0 % 256)

/-- The GCM nonce of parcel i (R383). -/
def parcelIv (i : Nat) : List Nat := leBytes i 4 ++ List.replicate 8 0

/-- The status of a parcel, by the checks of R384 in their order. -/
def State.parcelStatus (s : State) (src : Nat × Nat) (p : List Nat) : Nat :=
  let seq := leNat p 4 4
  if !s.on F.UPD_CTL_ACCEPT then upDisabled
  else if p.length ≠ 16468 ∨ leNat p 16464 4 ≠ crc32c (p.take 16464) ∨ leNat p 0 4 ≠ 0x4C435250 then upCrc
  else if s.updState = 0 then upNoSession
  else if (p.drop 16).take 48 ≠ s.updDigest ∨ s.updOwner src = false then upBusy
  else if s.updParcels ≤ seq ∨ leNat p 8 4 ≠ min 16384 (s.updLen - 16384 * seq) then upSeq
  else if gcmTag16 s.updKs (parcelIv seq) (p.take 64) ((p.drop 64).take 16384) ≠ (p.drop 16448).take 16 then upTag
  else upOk

/-- The session becomes STAGED, its trial settings latched by the same write (R386). -/
def State.updStage (s : State) : State :=
  (s.svPut 15 (2 + s.f F.UPD_TRIAL_K * 2 ^ 3 + s.f F.UPD_TRIAL_HEALTH_S * 2 ^ 8 + s.f F.UPD_TRIAL_TRIAL_MIN * 2 ^ 16)).raise 0x1604 0

/-- UPD_PARCEL (R384): a good parcel goes into its slot with its tag, is read back (`flashOk`), and only then its bit is set; the last one
stages the session. -/
def State.updParcel (s : State) (src : Nat × Nat) (p : List Nat) (flashOk svOk : Bool) : Nat × State :=
  let st := s.parcelStatus src p
  let seq := leNat p 4 4
  let old := s.cfg.parcelAt
  if st ≠ upOk then (st, s.updRefuse st)
  else
    let got : State := { s with cfg := { s.cfg with parcelAt := some s.clk.ns } }
    if s.updHas seq then (upOk, if s.updState = 1 then got.svSet 15 63 32 0 else got)
    else
      let s := (got.flashPut (hamperSlot seq) ((p.drop 64).take 16384)).flashPut (hamperTag seq) ((p.drop 16448).take 16)
      if !flashOk then (upFlash, { s with cfg := { s.cfg with parcelAt := old } }.updRefuse upFlash)
      else
        let s := (s.svSet (16 + seq / 64) (seq % 64) (seq % 64) 1).svSet 15 63 32 0
        (upOk, (if s.updHeld = s.updParcels then s.updStage else s).svSpoil svOk)

/-- The session ends by a cancel or an abandonment: event 0x1605 (R380, R381). An install that was to be repeated is not. -/
def State.updEnd (s : State) : State := (s.updNone.svSet 64 5 3 0).raise 0x1605 0

/-- UPD_CANCEL (R381, R385). -/
def State.updCancel (s : State) (src : Nat × Nat) (body : List Nat) : Nat × State :=
  if s.updState = 0 then (upNoSession, s)
  else if s.updOwner src && s.updDigest == body.take 48 then (upOk, s.updEnd)
  else (upBusy, s)

/-- The trial is confirmed (R390). -/
def State.trialConfirm (s : State) : State := (s.svSet 64 1 0 0).raise 0x1609 0

/-- UPD_CMD (R392): refused without the key or with more than one action; CONFIRM as R390 allows. -/
def State.updCmd (s : State) (v : Nat) : State :=
  if bitsOf v 31 16 ≠ 0x5A3C then s.refuse 0x16
  else match bitsOf v 2 0 with
    | 0 => s
    | 1 => if s.updState = 0 then s else s.updEnd
    | 2 => if s.trial ≠ 1 ∨ s.healthy = false ∨ s.f F.CFG_STATUS_STATE = 6 then s.refuse 0x16 else s.trialConfirm
    | 4 => if s.trial = 1 then s.svSet 64 9 6 s.trialK else s
    | _ => s.refuse 0x16

/-- IDLE_MINUTE: the running minute of uptime ends; with the session OPEN and no parcel in it, IDLE_MIN advances, and at the limit the session
is abandoned (R380). -/
def State.idleMinute (s : State) (svOk : Bool) : State :=
  if s.isl.dead then s else
  let m := s.clk.ns / 60000000000
  let s := s.toNs ((m + 1) * 60000000000)
  let busy := match s.cfg.parcelAt with | some t => decide (m * 60000000000 ≤ t) | none => false
  if s.updState ≠ 1 ∨ busy = true then s
  else
    let n := s.updIdle + 1
    let s := (s.svSet 15 63 32 n).svSpoil svOk
    if 60 * s.rdn R.UPD_IDLE ≤ n then (s.setF F.UPD_FLAGS_ABANDON 1).updEnd else s

/-! ## Install (R387) -/

/-- The tag that parcel i's slot holds verifies. -/
def State.slotGood (s : State) (i : Nat) : Bool :=
  gcmTag16 s.updKs (parcelIv i) (s.parcelAad i) (s.flashBytes (hamperSlot i) 16384) == s.flashBytes (hamperTag i) 16

/-- The plaintext image in the Hamper: its first IMAGE_LEN bytes. -/
def State.hamperImage (s : State) : List Nat :=
  ((List.range s.updParcels).flatMap (fun i => Config.gcmPlain s.updKs (parcelIv i) (s.flashBytes (hamperSlot i) 16384))).take s.updLen

/-- The settings format of the firmware that the boot record names. -/
def State.bootFmt (s : State) : Nat :=
  match (if s.runFb then s.cfg.slots.fallback else s.cfg.slots.active) with | some h => h.fmt | none => 0

/-- Step 1: the reason of UPD_ERR for which the staged image fails, if any. `staged` is what its firmware signature check finds. -/
def State.installCheck (s : State) (img : List Nat) (staged : Option FwHdr) : Option Nat :=
  if !(List.range s.updParcels).all s.slotGood then some 1
  else if Config.sha384 img ≠ s.updDigest then some 2
  else if s.updKind = 0 then (if staged.isSome then none else some 3)
  else match s.imageCheck (fun i => byteAt img i) with
    | .error 4 => some 3
    | .error _ => some 4
    | .ok (rs, _) => if formatsOk s.bootFmt (settingsOf s.pins.mid rs) then none else some 5

/-- A failed step 1: the session ends and the running image is kept. -/
def State.installFail (s : State) (err : Nat) : State :=
  (((s.updNone.svSet 64 5 3 0).wrn R.UPD_ERR err).setF F.UPD_FLAGS_INSTALL_FAIL 1).raise 0x1607 0

/-- The end of step 3: the session is gone and STEP 0; for firmware the trial begins (R387). -/
def State.installDone (s : State) (staged : Option FwHdr) : State :=
  let k := s.svf 15 5 3
  let hs := s.svf 15 15 8
  let tm := s.svf 15 31 16
  let fw := s.updKind = 0
  let s := s.updNone
  let s := if fw then ({ s with cfg := { s.cfg with slots := { s.cfg.slots with active := staged } } }.svPut 64 (1 + k * 2 ^ 10 + hs * 2 ^ 16)).svPut 65 tm
           else s.svSet 64 5 3 0
  s.raise 0x1606 0

/-- Step 3: the Hamper is decrypted into the active slot or the configuration area; a copy that fails is repeated at the next start. -/
def State.installCopy (s : State) (staged : Option FwHdr) (copyOk : Bool) : State :=
  let img := s.hamperImage
  let s := s.svSet 64 5 3 3
  let s := s.flashPut (if s.updKind = 0 then flashActive else flashConfig) img
  if copyOk && Config.sha384 img == s.updDigest then s.installDone staged
  else if s.updKind = 0 then { s with cfg := { s.cfg with slots := { s.cfg.slots with active := none } } }
  else s

/-- Step 2: the active slot is kept in the Fallback area, for firmware that runs from a verified active slot; a copy that fails is repeated
at the next start. -/
def State.installMove (s : State) (staged : Option FwHdr) (moveOk copyOk : Bool) : State :=
  if s.updKind = 0 ∧ s.runFb = false ∧ s.cfg.slots.active.isSome = true then
    let s := (s.svSet 64 5 3 2).flashCopy flashActive flashFallback slotLen
    if moveOk then { s with cfg := { s.cfg with slots := { s.cfg.slots with fallback := s.cfg.slots.active } } }.installCopy staged copyOk
    else { s with cfg := { s.cfg with slots := { s.cfg.slots with fallback := none } } }
  else s.installCopy staged copyOk

/-- INSTALL: a start that finds a STAGED session installs it, from the step that STEP names (R387). -/
def State.install (s : State) (staged : Option FwHdr) (moveOk copyOk : Bool) : State :=
  if s.updState ≠ 2 then s
  else if s.updStep = 3 then s.installCopy staged copyOk
  else if s.updStep = 2 then s.installMove staged moveOk copyOk
  else
    let s := s.svSet 64 5 3 1
    match s.installCheck s.hamperImage staged with
    | some e => s.installFail e
    | none => s.installMove staged moveOk copyOk

/-! ## The trial (R388-R391) -/

/-- UPD_FB_VERSION: the version of the firmware in the Fallback area, 0 when none is valid (R392). -/
def State.fbVersion (s : State) : Nat := match s.cfg.slots.fallback with | some h => h.version | none => 0

/-- TRIAL_BOOT_DECISION: during a trial the loader counts the attempt, or falls back with event 0x160A and a record of cause 12 (R388). Where
the boot record cannot be written, the trial counts as FAILED (R463). -/
def State.bootDecision (s : State) (bootOk : Bool) : State :=
  if s.trial ≠ 1 then s
  else if s.trialK ≤ s.attempts ∨ bootOk = false then
    ((((s.svSet 64 1 0 2).svSet 64 2 2 1).setF F.UPD_FLAGS_FALLBACK 1).raise 0x160A 0).pushFault 12 0x16 0x160A 0x7F s.fbVersion
  else s.svSet 64 9 6 (s.attempts + 1)

/-- TRIAL_HEALTHY: the trial firmware has reached LOCKED within HEALTH_S of its start, and its self-checks passed (R388). -/
def State.trialHealthy (s : State) : State :=
  if s.cfg.stage = 2 ∧ s.trial = 1 ∧ s.cfg.healthySaid = false ∧ s.f F.CFG_STATUS_STATE = 3 ∧ s.clk.ns ≤ s.cfg.fwAt + 1000000000 * s.healthS then
    let at_ := if s.healthy then s.cfg.healthyAt else s.clk.ns
    { (s.svPut 64 (setBits (setBits (s.sv 64) 14 14 1) 9 6 0)) with cfg := { s.cfg with healthyAt := at_, healthySaid := true } }.raise 0x1608 0
  else s

/-- TRIAL_MINUTE: a whole healthy minute of running ends; the minutes count across starts, and at the limit the trial is
confirmed (R388), unless a REJECT has acted (R390). -/
def State.trialMinute (s : State) : State :=
  if s.cfg.stage = 2 ∧ s.trial = 1 ∧ s.healthy = true then
    let t := s.cfg.healthyAt + 60000000000
    let s := s.toNs t
    let s : State := { (s.svSet 65 63 32 (s.trialElapsed + 1)) with cfg := { s.cfg with healthyAt := t } }
    if s.trialLimit ≠ 0 ∧ s.trialLimit ≤ s.trialElapsed ∧ s.attempts < s.trialK then s.trialConfirm else s
  else s

end Sys2Proof.Machine
end

