-- ==== Sys2Proof/Machine/Snap.lean ====
section
/-!
DEFINITION. Sys2Proof/Machine/Snap.lean: snapshots (R425-R428) and check units (R432-R434).
-/

namespace Sys2Proof.Machine

/-! ## Snapshots -/

/-- Does a snapshot latch this register (R426)? -/
def isLatched (a : Nat) : Bool := match regDef a with | some d => d.latched | none => false

/-- The latched registers as they stand. BIN_EVT_LOST is counted with the event log. -/
def State.latchedRegs (s : State) : Tab Word :=
  Tab.put resetOf (s.regs.filter (fun e => isLatched e.1)) R.BIN_EVT_LOST (BitVec.ofNat 32 s.log.lost)

/-- The automatic position of the frame that starts at `d`, if it has one (R425). -/
def State.autoIn (s : State) (d : Nat) : Option Nat :=
  let c := s.wordAt R.GLB_SNAP_CTL d
  if bitsOf c 0 0 = 1 ∧ s.clk.frameOf d % max 1 (bitsOf c 15 8) = 0 then some (d + bitsOf c 31 16 * 65536) else none

/-- The next automatic position, now or later. -/
def State.nextAuto (s : State) : Option Nat :=
  if !s.merRuns then none
  else
    let d0 := s.clk.vpos / s.clk.fu * s.clk.fu
    ((List.range 257).filterMap (fun i => s.autoIn (d0 + i * s.clk.fu))).find? (fun t => s.clk.classOk 3 t || decide (s.clk.vpos < t))

/-- SNAPSHOT_COMMAND: a write of GLB_SNAP_CMD.NOW (R425): the first line start strictly after it and at least 2 µs after the last snapshot;
at once while the Meridian is OFF or STARTING; one more while a command waits is merged. -/
def State.snapNow (s : State) : State :=
  if s.snap.cmd.isSome then s.bump R.GLB_SNAP_MERGED
  else
    let lo := match s.snap.last with | some p => p + s.toFu 2000 | none => 0
    let pos := if s.merRuns then some (max ((s.clk.vpos / 65536 + 1) * 65536) (ceilDiv lo 65536 * 65536)) else none
    { (s.setF F.GLB_SNAP_STATUS_PENDING 1) with snap := { s.snap with cmd := some { pos := pos, cmd := true } } }

/-- SNAPSHOT_EPOCH_ADVANCE: every unit has latched: the epoch increments, the bank switches, the position is recorded (R426). -/
def State.epochAdvance (s : State) : State :=
  match s.snap.taken with
  | none => s
  | some t =>
    let e := s.rdn R.GLB_SNAP_EPOCH + 1
    let s := ((s.wrn R.GLB_SNAP_EPOCH e).setF F.GLB_SNAP_STATUS_BANK (e % 2)).setF F.GLB_SNAP_STATUS_SOURCE (if t.cmd then 1 else 0)
    let (frame, line) := match t.pos with
      | some p => (s.clk.frameOf p, p % s.clk.fu / 65536 * 65536 + p % 65536)
      | none => (s.clk.frame, 0xFFFFFFFF)
    let s := (s.wr64 R.GLB_SNAP_FRAME_LO R.GLB_SNAP_FRAME_HI (frame % 2 ^ 48)).wrn R.GLB_SNAP_LINE line
    { s with snap := { s.snap with taken := none } }

/-- Every unit latches: the counters go to the bank of the next epoch, and the monitor units restart (R426, R429). -/
def State.latchAll (s : State) (t : SnapTake) : State :=
  let odd := (s.rdn R.GLB_SNAP_EPOCH + 1) % 2 = 1
  let ing := s.ing.ft.filter (fun e => decide (12 ≤ e.1 % 16))
  let egs := s.egs.ft.filter (fun e => decide (24 ≤ e.1 % 32) && decide (e.1 % 32 ≤ 26))
  let regs := s.latchedRegs
  let s := if odd then { s with ing := { s.ing with ftSnap1 := ing }, snap := { s.snap with bank1 := some regs, egs1 := egs } }
           else { s with ing := { s.ing with ftSnap0 := ing }, snap := { s.snap with bank0 := some regs, egs0 := egs } }
  { s.monRestart with snap := { s.snap with taken := some t, last := some s.clk.vpos } }

/-- The waiting command is served. -/
def State.snapServed (s : State) : State := { (s.setF F.GLB_SNAP_STATUS_PENDING 0) with snap := { s.snap with cmd := none } }

/-- SNAPSHOT: time runs to the next snapshot position, automatic or commanded, and every unit latches there; both on one position are one
snapshot, with SOURCE 1 (R425, R426). -/
def State.snapshot (s : State) : State :=
  let s := s.epochAdvance
  let auto := s.nextAuto
  match s.snap.cmd, auto with
  | none, none => s
  | some { pos := none, cmd := c }, _ => s.snapServed.latchAll { pos := none, cmd := c }
  | cmd, auto =>
    let cp := match cmd with | some t => t.pos | none => none
    let p := match cp, auto with | some a, some b => min a b | some a, none => a | none, some b => b | none, none => 0
    match s.toPos 3 p with
    | none => s
    | some s =>
      let s := s.applyHeld R.GLB_SNAP_CTL (p / s.clk.fu * s.clk.fu)
      if cp = some p then s.snapServed.latchAll { pos := some p, cmd := true } else s.latchAll { pos := some p, cmd := false }

/-! ## Check units -/

/-- One bit of a CRC that is not reflected, of width w. -/
def msbStep (w poly : Nat) : Nat → Nat → Nat
  | 0, c => c
  | n + 1, c => msbStep w poly n (let d := c * 2 % 2 ^ w; if 2 ^ (w - 1) ≤ c then d ^^^ poly else d)

/-- One byte through the algorithm (R432): 0 CRC-32C, 1 CRC-64/ECMA-182, 2 CRC-16/CCITT. -/
def checkByte (alg c b : Nat) : Nat :=
  match alg with
  | 0 => crcStep 8 (c ^^^ b)
  | 1 => msbStep 64 0x42F0E1EBA9EA3693 8 (c ^^^ (b * 2 ^ 56))
  | _ => msbStep 16 0x1021 8 (c ^^^ (b * 2 ^ 8))

/-- The bytes of a space (flash or HBM) from an address on, through the algorithm. -/
def State.checkRun (s : State) (alg : Nat) (flash : Bool) (a : Nat) : Nat → Nat → Nat
  | 0, c => c
  | n + 1, c => State.checkRun s alg flash (a + 1) n (checkByte alg c (if flash then s.flashByte a else (s.hbmByte a).toNat))

/-- The region of check unit u: start and length. -/
def State.chkStart (s : State) (u : Nat) : Nat := s.rd64 (R.CHK_START_LO u) (R.CHK_START_HI u) % 2 ^ 38
def State.chkLen (s : State) (u : Nat) : Nat := s.rdn (R.CHK_LEN u)
def State.chkFlash (s : State) (u : Nat) : Bool := s.on (F.CHK_CTL_SPACE u)
def State.chkBusy (s : State) (u : Nat) : Bool := s.f (F.CHK_STATUS_STATE u) == 1

/-- The result over the region, after the prefix of R432 where FOLD is set. -/
def State.checkResult (s : State) (u : Nat) : Nat :=
  let alg := s.f (F.CHK_CTL_ALG u)
  let start := s.chkStart u
  let pre := if s.on (F.CHK_CTL_FOLD u) then
      leBytes (start + (if s.chkFlash u then 2 ^ 63 else 0)) 8 ++ leBytes (s.chkLen u) 4 ++ leBytes (s.rdn (R.CHK_SEQ_USED u)) 4
    else []
  let c0 := pre.foldl (checkByte alg) (s.rd64 (R.CHK_SEED_LO u) (R.CHK_SEED_HI u))
  let c := s.checkRun alg (s.chkFlash u) start (s.chkLen u) c0
  if alg = 0 then c ^^^ 0xFFFFFFFF else c

/-- Is a start admitted (R433)? -/
def State.checkOk (s : State) (u : Nat) : Bool :=
  let alg := s.f (F.CHK_CTL_ALG u)
  let w := if alg = 0 then 32 else if alg = 1 then 64 else 16
  !s.chkBusy u && s.chkLen u != 0 && decide (s.rd64 (R.CHK_SEED_LO u) (R.CHK_SEED_HI u) < 2 ^ w)
    && (if s.chkFlash u then decide (s.chkStart u + s.chkLen u ≤ s.flashSize) else oneStack (s.chkStart u) (s.chkLen u))

/-- A job ends without a result (R434). -/
def State.checkEnd (s : State) (u st done event : Nat) (flag : Fld) : State :=
  ((((s.setF (F.CHK_STATUS_STATE u) st).wr64 (R.CHK_RESULT_LO u) (R.CHK_RESULT_HI u) 0).wrn (R.CHK_DONE_BYTES u) done).setF flag 1).raise event u

/-- CHK_u_CMD: START and ABORT (R433, R434). -/
def State.checkCmd (s : State) (u v : Nat) : State :=
  match bitsOf v 0 0, bitsOf v 1 1 with
  | 1, 1 => s.refuse 0x18
  | 1, _ =>
    if !s.checkOk u then s.refuse 0x18
    else (((s.setF (F.CHK_STATUS_STATE u) 1).wrn (R.CHK_SEQ_USED u) (s.rdn (R.CHK_SEQ u))).wrn (R.CHK_DONE_BYTES u) 0).bump (R.CHK_RUN_CNT u)
  | _, 1 => if s.chkBusy u then s.checkEnd u 4 (s.rdn (R.CHK_DONE_BYTES u)) 0x1804 F.CHK_FLAGS_ABORTED else s
  | _, _ => s

/-- CHECK_COMPLETE: the last byte of the region is processed (R434). -/
def State.checkComplete (s : State) (u : Nat) : State :=
  if !s.chkBusy u then s
  else
    let s := (s.wr64 (R.CHK_RESULT_LO u) (R.CHK_RESULT_HI u) (s.checkResult u)).wrn (R.CHK_DONE_BYTES u) (s.chkLen u)
    let s := if s.on (F.CHK_CTL_SEQ_INC u) then s.bump (R.CHK_SEQ u) else s
    (s.setF (F.CHK_STATUS_STATE u) 2).raise 0x1802 u

/-- CHECK_ERROR: an uncorrectable burst of 32 bytes read by the scan engine ends the jobs whose region holds it (R313, R434). -/
def State.checkError (s : State) (a : Nat) : State :=
  (List.range 4).foldl (fun (t : State) u =>
    let b := a / 32 * 32
    if t.chkBusy u && !t.chkFlash u && decide (b < t.chkStart u + t.chkLen u) && decide (t.chkStart u < b + 32) then
      t.checkEnd u 3 (b - t.chkStart u) 0x1803 F.CHK_FLAGS_ERROR else t) s

/-- Writes of CHK registers that have rules of their own. -/
def State.chkReg (s : State) (a : Nat) (v : Word) : Option State :=
  if R.CHK_CTL 0 ≤ a ∧ a < R.CHK_CTL 4 then
    let u := (a - R.CHK_CTL 0) / 0x40
    let o := (a - R.CHK_CTL 0) % 0x40
    if o = 0x1C then some (s.checkCmd u v.toNat)
    else if o ≤ 0x18 ∧ s.chkBusy u = true then some (s.refuse 0x18)
    else none
  else none

end Sys2Proof.Machine
end

