-- ==== Sys2Proof/Machine/Func.lean ====
section
/-!
DEFINITION. Sys2Proof/Machine/Func.lean: function resets (R358): GLB_FRESET stops a function at once and returns its registers to their reset
values.
-/

namespace Sys2Proof.Machine

/-- The `n` bytes of registers from `lo` on take their reset values; nothing held, half written or latched is left of them (R358). -/
def State.clearRegs (s : State) (lo n : Nat) : State :=
  let out := fun (a : Nat) => !(decide (lo ≤ a) && decide (a < lo + n))
  { s with regs := s.regs.filter (fun e => out e.1), held := s.held.filter (fun e => out e.1)
           wpend := s.wpend.filter (fun e => out e.1), latch := s.latch.filter (fun e => out e.1) }

/-- Function reset of HBM stack st: what it held is lost, and no demand stays placed on its pool (R302, R358). -/
def State.stackReset (s : State) (st : Nat) : State :=
  let t := ((s.stackTo st .off).setStk st { readyV := (s.stk st).readyV }).clearRegs (R.HBM_S_CTL st) 0xF000
  { t with hbm := { t.hbm with mem := t.hbm.mem.filter (fun e => decide (stackOf e.1 ≠ st)), demand := t.hbm.demand.filter (fun e => decide (e.2.1 ≠ st)) } }

/-- Function reset of the functions that run the whole block of a register range. -/
def State.blockReset (s : State) (f : Nat) : State :=
  let r := State.reset
  match f with
  | 0 => ((s.merDisable 0).clearRegs 0x20000 0x10000).cadSet
  | 1 => { (s.ptpWrite 0).clearRegs 0x30000 0x10000 with ptp := r.ptp }
  | 2 =>
    let t := ((s.setFn fnDis .off).clearRegs 0xA0000 0x10000)
    { t with dis := { r.dis with tested := s.dis.tested, keepAddr := s.dis.keepAddr } }.disUpdate
  | 3 => s.twinStop.clearRegs 0xC0000 0x10000
  | 4 => { ((if s.on F.CNV_CTL_EN then s.setMember s.cnvCh false else s).setFn fnCnv .off).clearRegs 0xD0000 0x400 with cnv := r.cnv }
  | 5 =>
    let s := (List.range 64).foldl (fun (t : State) i => if (t.aout (16 + i)).st == .off then t else t.outOff (16 + i)) s
    { ((s.poolReturn fnAud).setFn fnAud .off).clearRegs 0x140000 0x10000 with aud := r.aud }
  | 6 => { (s.calWrite 0).clearRegs 0x150000 0x10000 with cal := r.cal }.calRest
  | _ => s

/-- The reset of one function (R358). Function 7 is refused before. -/
def State.functionReset (s : State) (f : Nat) : State :=
  if f < 7 then s.blockReset f
  else if f < 8 then s
  else if f < 12 then s.stackReset (f - 8)
  else if f < 20 then
    let p := f - 12
    ((s.setFn f .off).clearRegs (R.ETH_PORT_CTL p) 0x80).setEth p {}
  else if f < 28 then
    let p := f - 20
    (((s.portTo true p 0).linkReset p).setFn f .off).clearRegs (R.LNE_SPORT_STATUS p) 0x20 |>.clearRegs (R.CNV_LINK_CTL p) 0x40
  else if f < 36 then (s.setFn f .off).clearRegs (R.ING_PORT_OVH (f - 28)) 4
  else if f < 52 then
    let x := f - 36
    (((s.setCtx x {}).setFn f .off).poolReturn f).clearRegs (R.DEC_CTX_CTL x) 0x40 |>.engineLoads
  else if f < 84 then
    let c := f - 52
    (((s.compOff c).setCmp c {}).clearRegs (R.COMP_CH_CTL c) 0x20).clearRegs (R.COMP_CH_SET_CTL c) 0x40 |>.clearRegs (R.COMP_CH_L_CTL c 0) 0x400
  else if f < 116 then
    let n := f - 84
    ((s.encOff n).clearRegs (R.ENC_CH_CTL n) 0x800).encLoads
  else if f < 124 then
    let p := f - 116
    ((s.portDown p).setFn f .off).clearRegs (R.EGS_PORT_OVH p) 0x40
  else s

/-- A write of GLB_FRESET_w with `v`: the functions of its set bits are reset; with function 7 among them the write is refused (R358). A
reset of the core in progress absorbs it (R357). -/
def State.fresetWrite (s : State) (w v : Nat) : State :=
  let fs := ((List.range 32).filter (fun i => bitsOf v i i == 1)).map (fun i => 32 * w + i)
  if fs.contains 7 then s.refuse 0x00
  else if s.cfg.reset.isSome then s
  else fs.foldl State.functionReset s

end Sys2Proof.Machine
end

