-- ==== Sys2Proof/Machine/Feat.lean ====
section
/-!
DEFINITION. Sys2Proof/Machine/Feat.lean: feature negotiation (R370, R371) and the lock of the configuration (R368, R372).
-/

namespace Sys2Proof.Machine

/-- The 128 bits of four registers from `a` on. -/
def State.bits128 (s : State) (a : Nat) : Nat := s.rd64 a (a + 4) + 2 ^ 64 * s.rd64 (a + 8) (a + 12)

/-- The offered and the accepted set (R370). -/
def State.featOffer (s : State) : Nat := s.bits128 (R.GLB_FEAT_OFFER 0)
def State.featAccept (s : State) : Nat := s.bits128 (R.GLB_FEAT_ACCEPT 0)

/-- The host window is open: the time is before its end (R370, R28). -/
def State.hostWindow (s : State) : Bool :=
  s.on F.GLB_FEAT_CTL_WINDOW && (match s.cfg.closeAt with | some t => decide (s.clk.ns < t) | none => false)

/-- The image is refused as a whole (R366): nothing is applied, event 0x1903, function 7 in FAULT (R372). -/
def State.refuseImage (s : State) (code : Nat) : State :=
  ((((s.setF F.CFG_STATUS_STATE 5).setF F.CFG_FLAGS_REFUSED 1).wrn R.CFG_ERR_CODE code).raise 0x1903 0).setFn fnCfg .fault

/-- The accepted set locks (R370): event 0x0004. Records are applied next, unless REQ is not inside the set. -/
def State.lockFeatures (s : State) (acc : Nat) (byHost : Bool) : State :=
  let s := (List.range 4).foldl (fun (t : State) w => t.wrn (R.GLB_FEAT_ACCEPT w) (acc / 2 ^ (32 * w))) s
  let s := ((s.setF F.GLB_FEAT_CTL_LOCKED 1).setF F.GLB_FEAT_CTL_WINDOW 0).setF F.GLB_FEAT_CTL_BY_HOST (if byHost then 1 else 0)
  let s := (s.setF F.PTP_STATUS_COMPAT (bitsOf acc 9 9)).raise 0x0004 0
  let s : State := { s with cfg := { s.cfg with closeAt := none } }
  if s.f F.CFG_STATUS_STATE = 1 then
    (if s.cfg.req &&& acc = s.cfg.req then s.setF F.CFG_STATUS_STATE 2 else s.refuseImage 5)
  else s

/-- GLB_FEAT_CTL.COMMIT (R370): refused outside the window, save while the image is REFUSED or NO_FLASH and nothing is locked; refused with a
bit that is not offered, or with bits 8 and 9 together. -/
def State.featCommit (s : State) : State :=
  let acc := s.featAccept
  let st := s.f F.CFG_STATUS_STATE
  let may := s.hostWindow || ((st == 5 || st == 7) && !s.on F.GLB_FEAT_CTL_LOCKED)
  if may && acc &&& s.featOffer == acc && !(bitsOf acc 8 8 == 1 && bitsOf acc 9 9 == 1) then s.lockFeatures acc true
  else s.refuse 0x00

/-- HOST_WINDOW_CLOSE: the window ends without a commit: OFFER ∧ (REQ ∨ WANT) locks (R370). -/
def State.windowEnd (s : State) : State :=
  match s.cfg.closeAt with
  | none => s
  | some t =>
    if !s.on F.GLB_FEAT_CTL_WINDOW then s
    else
      let s := s.toNs t
      s.lockFeatures (s.featOffer &&& (s.cfg.req ||| s.cfg.want)) false

/-- The configuration locks (R368): LOCKED, event 0x1905; function 7 enters READY, unless the image was REFUSED or UNREADABLE or there was
none (R372). -/
def State.lockConfig (s : State) : State :=
  let st := s.f F.CFG_STATUS_STATE
  let s := ((s.setF F.CFG_STATUS_STATE 3).setF F.CFG_FLAGS_LOCKED 1).raise 0x1905 0
  if 5 ≤ st then s else s.setFn fnCfg .ready

/-- CFG_CMD.LOCK: refused while STATE is LOCKED (R376). -/
def State.cfgCmdLock (s : State) : State := if s.cfgLocked then s.refuse 0x19 else s.lockConfig

/-- Application stops at a record (R368): FAILED with the record's index, the address and the reason; event 0x1904, function 7 in FAULT. -/
def State.applyFail (s : State) (rec_ addr code : Nat) : State :=
  let s := (s.setF F.CFG_STATUS_STATE 4).setF F.CFG_FLAGS_FAILED 1
  let s := ((s.wrn R.CFG_ERR_REC rec_).wrn R.CFG_ERR_ADDR addr).wrn R.CFG_ERR_CODE code
  { (s.raise 0x1904 0).setFn fnCfg .fault with cfg := { s.cfg with halt := true, wait := none } }

end Sys2Proof.Machine
end

