-- ==== Sys2Proof/Machine/Bus.lean ====
section
/-!
DEFINITION. Sys2Proof/Machine/Bus.lean: a register write and a register read on each path (R4-R9, R15, R439-R447): which register an address
names, what a write may change, refusals, wide values, what a read returns, shadow aliases and table windows.
-/

namespace Sys2Proof.Machine

/-! ## Fields (R4, R6, R7) -/

/-- Does a changed field value lie in its field's range (R7)? `w` is the field's width. -/
def rngOk (r : Rng) (w old new : Nat) : Bool :=
  match r with
  | .any => true
  | .range lo hi => decide (lo ≤ new) && decide (new ≤ hi)
  | .signed n => decide ((signedOf w new).natAbs ≤ n)
  | .mult m => new % m == 0
  | .multRange m lo hi => new % m == 0 && decide (lo ≤ new) && decide (new ≤ hi)
  | .oneOf l => l.contains new
  | .bytes lo hi => (List.range 4).all (fun k =>
      let x := bitsOf new (8 * k + 7) (8 * k)
      x == bitsOf old (8 * k + 7) (8 * k) || (decide (lo ≤ x) && decide (x ≤ hi)))
  | .zeroOr lo hi => new == 0 || (decide (lo ≤ new) && decide (new ≤ hi))

/-- Is a field one that a write sets? -/
def FieldDef.sets (x : FieldDef) : Bool := match x.acc with | .rw | .rwl => true | _ => false

/-- The range check of R7 over the fields that a write changes; a WO field stands at 0 (R4). -/
def fieldsOk (fs : List FieldDef) (old new : Nat) : Bool :=
  fs.all (fun x =>
    let o := if x.acc = .wo then 0 else bitsOf old x.hi x.lo
    let n := bitsOf new x.hi x.lo
    !(x.sets || x.acc == .wo) || o == n || rngOk x.rng (x.hi + 1 - x.lo) o n)

/-- What a field holds after a write, and what the write hands to an action (R4): `act` keeps the bits of WO fields. -/
def fieldNew (act : Bool) (x : FieldDef) (old new : Nat) : Nat :=
  let o := bitsOf old x.hi x.lo
  let n := bitsOf new x.hi x.lo
  match x.acc with
  | .rw | .rwl => n
  | .wo => if act then n else 0
  | .w1c => o - (o &&& n)
  | .w1s => o ||| n
  | .ro | .rc => o

/-- A register's word after a write; reserved bits stay 0 (R6). -/
def mergeWord (act : Bool) (fs : List FieldDef) (old new : Nat) : Nat := fs.foldl (fun t x => t + fieldNew act x old new * 2 ^ x.lo) 0

/-- A register's word as a read shows it: reserved bits and WO fields read 0 (R4, R6). -/
def showWord (fs : List FieldDef) (v : Nat) : Nat :=
  fs.foldl (fun t x => t + (if x.acc = .wo then 0 else bitsOf v x.hi x.lo) * 2 ^ x.lo) 0

/-! ## Wide values (R9) -/

/-- The writable values of more than 32 bits: base of the lowest word, (stride, count) of its index, words. -/
def wideWrites : List (Nat × List (Nat × Nat) × Nat) := [
  (R.MER_FRAME_LOAD_LO, [], 2), (R.PTP_TOUT_START_LO 0, [(0x40, 4)], 3), (R.PTP_TOUT_PERIOD_LO 0, [(0x40, 4)], 2),
  (R.COMP_FENCE_LO 0, [(8, 256)], 2), (R.COMP_CH_TARGET_LO 0, [(0x40, 32)], 2), (R.COMP_CH_L_ADDR_LO 0 0, [(0x400, 32), (0x80, 8)], 2),
  (R.COMP_CH_L_TARGET_LO 0 0, [(0x400, 32), (0x80, 8)], 2), (R.COMP_CLIP_ADDR_LO 0, [(0x20, 256)], 2),
  (R.ENC_CH_REF_ADDR_LO 0, [(0x800, 32)], 2), (R.DIS_LB_ADDR_LO, [], 2), (R.HBM_MESH_ADDR_LO, [], 2),
  (R.ETH_PORT_MAC_LO 0, [(0x80, 8)], 2), (R.ETH_PORT_IPV6_LL 0 0, [(0x80, 8)], 4), (R.ETH_PORT_IPV6_GL 0 0, [(0x80, 8)], 4),
  (R.BIN_MGT_MAC_LO 0, [(0x20, 2)], 2), (R.BIN_MGT_IPV6 0 0, [(0x20, 2)], 4), (R.CHK_START_LO 0, [(0x40, 4)], 2), (R.CHK_SEED_LO 0, [(0x40, 4)], 2)]

/-- The values of more than 32 bits that are only read. -/
def wideReads : List (Nat × List (Nat × Nat) × Nat) := [
  (R.MER_POS_FRAME_LO, [], 3), (R.PTP_STC_NS, [], 3), (R.PTP_X_GM_LO 0, [(0x100, 2)], 2), (R.ENC_CH_K_LO 0, [(0x800, 32)], 2),
  (R.HBM_S_UE_ADDR_LO 0, [(0x10000, 4)], 2), (R.AUD_POS_LO, [], 2), (R.AUD_AIN_TS_NS 0, [(0x80, 8)], 3), (R.GLB_SERIAL_LO, [], 2),
  (R.BIN_UPTIME_LO, [], 2), (R.GLB_SNAP_FRAME_LO, [], 3), (R.CHK_RESULT_LO 0, [(0x40, 4)], 2), (R.CNV_LATE_LO, [], 2)]

/-- The value that a word belongs to: the address of its lowest word, and its length in words. -/
def wideOf (l : List (Nat × List (Nat × Nat) × Nat)) (a : Nat) : Option (Nat × Nat) :=
  l.findSome? (fun g => ((List.range g.2.2).find? (fun i => decide (g.1 + 4 * i ≤ a) && dimsHit (a - 4 * i - g.1) g.2.1)).map (fun i => (a - 4 * i, g.2.2)))

/-- The words after the lowest of a value at `lo`. -/
def upperWords (lo n : Nat) : List Nat := (List.range (n - 1)).map (fun i => lo + 4 * (i + 1))

/-! ## What registers show -/

/-- The MAC address of management port m until the image writes it, byte 0 lowest (R407). -/
def mgtMac (m : Nat) : Nat :=
  let b := fun (i : Nat) => Config.serial / 2 ^ (8 * i) % 256
  leNat [0x02, 0x48, 0x58, b 2, b 1, b 0 / 2 * 2 + m] 0 6

/-- The IPv6 link-local address of management port m until the image writes it, formed from that MAC by EUI-64 (R407). -/
def mgtIpv6 (m : Nat) : Nat :=
  let b := fun (i : Nat) => Config.serial / 2 ^ (8 * i) % 256
  leNat [0xFE, 0x80, 0, 0, 0, 0, 0, 0, 0x00, 0x48, 0x58, 0xFF, 0xFE, b 2, b 1, b 0 / 2 * 2 + m] 0 16

/-- A BIN register as it stands. -/
def State.binView (s : State) (a : Nat) : Nat :=
  if R.BIN_EVT 0 0 ≤ a ∧ a < R.BIN_EVT 1024 0 then
    let e := Tab.get (fun _ => ({} : LogEntry)) s.log.ring ((a - R.BIN_EVT 0 0) / 16)
    match (a - R.BIN_EVT 0 0) % 16 with
    | 0 => e.code + 65536 * e.detail
    | 4 => e.seq
    | 8 => e.frame
    | _ => e.line * 65536 + e.frac
  else if a = R.BIN_STATUS then setBits (s.rdn a) 6 6 (if s.faultN then 1 else 0)
  else if a = R.BIN_UPTIME_LO then s.clk.ns / 1000
  else if a = R.BIN_UPTIME_HI then s.clk.ns / 1000 / 2 ^ 32
  else if a = R.BIN_FH_HEAD then s.svf 72 15 0
  else if a = R.BIN_FH_CNT then s.svf 72 47 16
  else if R.BIN_FH_DATA 0 ≤ a ∧ a < R.BIN_FH_DATA 8 then leNat (s.faultBytes (s.f F.BIN_FH_SEL_SEL)) (a - R.BIN_FH_DATA 0) 4
  else if a = R.BIN_SX_KEY then (match s.cfg.key with | some k => k.1 + 256 | none => 0)
  else if a = R.BIN_SX_GW_PEND then s.sx.groups.length
  else if a = R.BIN_SX_SUBS then s.sx.subs.length
  else if a = R.BIN_EVT_HEAD then s.log.head
  else if a = R.BIN_EVT_LOST then s.log.lost
  else if a = R.BIN_PCIE_ID then 0x41600000 + Config.vendorId % 65536
  else if R.BIN_MGT_MAC_LO 0 ≤ a ∧ a < R.BIN_MGT_MAC_LO 2 then
    let m := (a - R.BIN_MGT_MAC_LO 0) / 0x20
    let o := (a - R.BIN_MGT_MAC_LO 0) % 0x20
    if o < 8 ∧ !s.cfg.mgtSet.contains (R.BIN_MGT_MAC_LO m) then mgtMac m / 2 ^ (8 * o)
    else if 0xC ≤ o ∧ !s.cfg.mgtSet.contains (R.BIN_MGT_IPV6 m 0) then mgtIpv6 m / 2 ^ (8 * (o - 0xC))
    else s.rdn a
  else s.rdn a

/-- A UPD register as it stands: the session and boot records hold it (R386, R392). -/
def State.updView (s : State) (a : Nat) : Nat :=
  if a = R.UPD_STATUS then
    s.updState + 8 * (if s.updState = 0 then 0 else s.updKind + 2 * s.updSrcKind) + 32 * s.trial + (if s.runFb then 128 else 0)
  else if a = R.UPD_PARCELS then (if s.updState = 0 then 0 else s.updHeld + 65536 * s.updParcels)
  else if a = R.UPD_TRIAL_STATUS then s.attempts + (if s.healthy then 16 else 0) + 65536 * min 65535 s.trialElapsed
  else if a = R.UPD_IDLE_MIN then s.updIdle
  else if R.UPD_DIGEST 0 ≤ a ∧ a < R.UPD_DIGEST 12 then (if s.updState = 0 then 0 else leNat s.updDigest (a - R.UPD_DIGEST 0) 4)
  else if a = R.UPD_FB_VERSION then s.fbVersion
  else s.rdn a

/-- An AUD register as it stands. -/
def State.audView (s : State) (a : Nat) : Nat :=
  let o := a - 0x140000
  if a = R.AUD_STATUS then setBits (s.rdn a) 2 0 (s.fn fnAud).code
  else if a = R.AUD_POS_LO then s.audPos
  else if a = R.AUD_POS_HI then s.audPos / 2 ^ 32
  else if 0x500 ≤ o ∧ o < 0x900 ∧ o % 0x80 = 0x0C then ofSigned 16 (s.outDly ((o - 0x500) / 0x80))
  else if 0x900 ≤ o ∧ o < 0xB00 ∧ o % 0x80 = 0x18 then ofSigned 16 (s.outDly (8 + (o - 0x900) / 0x80))
  else if 0x1000 ≤ o ∧ o < 0x1800 ∧ o % 0x20 = 0x04 then
    let m := s.merge 2 ((o - 0x1000) / 0x20)
    let fr := s.clk.vpos / s.clk.fu
    s.rdn a % 2 + (if heardBefore m.legA m.legA1 fr then 2 else 0) + (if heardBefore m.legB m.legB1 fr then 4 else 0)
  else if 0x1800 ≤ o ∧ o < 0x2000 ∧ o % 0x20 = 0x0C then ofSigned 16 (s.outDly (16 + (o - 0x1800) / 0x20))
  else s.rdn a

/-- The word that a register holds or shows now, WO fields not yet masked. -/
def State.liveWord (s : State) (a : Nat) : Nat :=
  match blockOf a with
  | 0x00 =>
    if R.GLB_RDY 0 ≤ a ∧ a < R.GLB_RDY 16 then
      (List.range 8).foldl (fun t i => t + (s.fn (8 * ((a - R.GLB_RDY 0) / 4) + i)).code * 16 ^ i) 0
    else if a = R.GLB_SERIAL_LO then Config.serial
    else if a = R.GLB_SERIAL_HI then Config.serial / 2 ^ 32
    else s.rdn a
  | 0x01 => s.binView a
  | 0x02 =>
    if a = R.MER_POS_FRAME_LO then s.clk.frame
    else if a = R.MER_POS_FRAME_HI then s.clk.frame / 2 ^ 32
    else if a = R.MER_POS_LINE then s.clk.vpos % s.clk.fu
    else if R.MER_CH_UNIT 0 ≤ a ∧ a < R.MER_CH_UNIT 32 then
      let c := (a - R.MER_CH_UNIT 0) / 4
      if s.active (fnEnc c) then (s.encUnit c).getD 0 else 0
    else if a = R.MER_PHASE_ERR ∧ s.clk.run = true ∧ (s.f F.MER_STATUS_SRC = 1 ∨ s.f F.MER_STATUS_SRC = 2) then
      sat32 (s.phaseError (s.f F.MER_STATUS_SRC))
    else s.rdn a
  | 0x07 =>
    if a = R.COMP_LOAD then s.compLoad 32 / 1000000
    else if R.COMP_CH_LOAD 0 ≤ a ∧ a < R.COMP_CH_LOAD 32 ∧ (a - R.COMP_CH_LOAD 0) % 0x20 = 0 then s.compShare ((a - R.COMP_CH_LOAD 0) / 0x20)
    else s.rdn a
  | 0x03 =>
    if a = R.PTP_STC_NS then s.clk.stc % 1000000000
    else if a = R.PTP_STC_SEC_LO then s.clk.stc / 1000000000
    else if a = R.PTP_STC_SEC_HI then s.clk.stc / 1000000000 / 2 ^ 32 % 65536
    else if a = R.PTP_DCO_ADJ then ofSigned 32 s.dcoNow
    else if R.PTP_TIN_CTL 0 ≤ a ∧ a < R.PTP_TIN_CTL 2 then
      let j := (a - R.PTP_TIN_CTL 0) / 0x40
      let o := (a - R.PTP_TIN_CTL 0) % 0x40
      if o = 4 then (s.tinPop j).1.toNat
      else if 8 ≤ o ∧ o ≤ 0x18 then (s.tin j).latched.getD (o / 4 - 2) 0
      else s.rdn a
    else s.rdn a
  | 0x04 =>
    if R.CKG_CPLL_STATUS 0 ≤ a ∧ a < R.CKG_CPLL_STATUS 11 ∧ (a - R.CKG_CPLL_STATUS 0) % 0x20 = 0 then
      setBits (s.rdn a) 2 0 (s.pllShown ((a - R.CKG_CPLL_STATUS 0) / 0x20))
    else s.rdn a
  | 0x0B =>
    if R.EGS_PORT_OVH 0 ≤ a ∧ a < R.EGS_PORT_OVH 8 then
      (s.portFigure ((a - R.EGS_PORT_OVH 0) / 0x40) ((a - R.EGS_PORT_OVH 0) % 0x40)).getD (s.rdn a)
    else s.rdn a
  | 0x10 =>
    if (a - R.HBM_S_CTL 0) % 0x10000 = 4 then setBits (s.rdn a) 2 0 (s.fn (fnHbm ((a - R.HBM_S_CTL 0) / 0x10000))).code else s.rdn a
  | 0x14 => s.audView a
  | 0x15 =>
    if a = R.CAL_PLL_PEND then
      (List.range 11).foldl (fun t m => t + (match s.sight 2 m with | some x => if x.run || !x.goal.isEmpty then 0 else 2 ^ m | none => 0)) 0
    else if a = R.CAL_STATUS then setBits (s.rdn a) 2 0 (s.fn fnCal).code else s.rdn a
  | 0x16 => s.updView a
  | 0x19 =>
    if a = R.CFG_KEYSLOT then
      (if (Tab.get (fun _ => ([] : List Nat)) s.keys 0).isEmpty then 0 else 1) + (if (Tab.get (fun _ => ([] : List Nat)) s.keys 1).isEmpty then 0 else 2)
    else s.rdn a
  | _ => s.rdn a

/-- The word that a read of an address shows, before what the read itself does (R4, R6). -/
def State.view (s : State) (a : Nat) : Word :=
  match regDef a with
  | none => 0
  | some d => BitVec.ofNat 32 (showWord d.fields (s.liveWord a))

/-! ## Copies of GLB_WIN_CTL (R444, R445) -/

/-- The copy of GLB_WIN_CTL that an access path uses. -/
def State.winCtl (s : State) (path : BusPath) : Nat :=
  match path with
  | .pcie => s.sx.pcieWin
  | .sextant ip => (match s.sx.clients.find? (fun c => c.ip == ip) with | some c => c.win | none => 0)
  | .service | .basgar => 0

/-- Set it. A path without a copy has nothing to set. -/
def State.setWinCtl (s : State) (path : BusPath) (v : Nat) : State :=
  match path with
  | .pcie => { s with sx := { s.sx with pcieWin := v } }
  | .sextant ip => { s with sx := { s.sx with clients := s.sx.clients.map (fun c => if c.ip = ip then { c with win := v } else c) } }
  | .service | .basgar => s

/-! ## Units with rules of their own -/

/-- The values of a cadence numerator: 24 to 240 for denominator 1, 24,000 to 240,240 for 1,001 (R33). -/
def cadNumOk (v : Nat) : Bool := (decide (24 ≤ v) && decide (v ≤ 240)) || (decide (24000 ≤ v) && decide (v ≤ 240240))

/-- Does a rate lie between 24,000/1,001 and 240 (R33)? -/
def cadOk (num den lm : Nat) : Bool :=
  (den == 1 || den == 1001) && decide (24000 * den ≤ 1001 * num) && decide (num ≤ 240 * den) && lm != 0

/-- The Meridian chooses its source anew after a write of AUTO or MER_SRC_SEL (R39); a PTP domain selected that is locked and does not agree is not
taken (R59). -/
def State.chooseAgain (s : State) : State :=
  if !s.active fnMer then s
  else
    let w := s.chooseSrc
    let sel := s.f F.MER_SRC_SEL_SRC
    if w = s.f F.MER_STATUS_SRC ∨ (w = 3 ∧ s.f F.MER_STATUS_STATE = 5) then s
    else if w = 0 then (if !s.on F.MER_CTL_AUTO && (sel == 1 || sel == 2) then s.disagreeEvent else s).deadReckon 4
    else s.switchSrc w

/-- MER_CTL takes the value `v` (R33, R40, R373). -/
def State.merCtl (s : State) (v : Word) : State :=
  let want := bitsOf v.toNat 0 0 == 1
  if want && !s.active fnMer then
    (if cadOk (s.rdn R.MER_CAD_NUM) (s.rdn R.MER_CAD_DEN) (s.f F.MER_CAD_LINES_L_M) then s.merEnable v else s.refuse 0x02)
  else if !want && s.active fnMer then s.merDisable v
  else
    let auto := bitsOf v.toNat 2 2 != bitsOf (s.rdn R.MER_CTL) 2 2
    let t := s.wr R.MER_CTL v
    if auto then t.chooseAgain else t

/-- MER_CH_ORIGIN_c takes the value `v` (R15, R36, R232, R330). -/
def State.originWrite (s : State) (c : Nat) (v : Word) : State :=
  let a := R.MER_CH_ORIGIN c
  let t := (s.wr a v).flushHeld a 4
  if s.clk.fu ≤ v.toNat ∨ t.originFlowsOk c = false ∨ s.audDlyKept t = false then s.refuse 0x02
  else if s.active (fnEnc c) then s.stage a v s.clk.vpos
  else s.wr a v

/-- Writes of MER registers that have rules of their own. -/
def State.merReg (s : State) (a : Nat) (v : Word) : Option State :=
  let n := v.toNat
  let en := s.on F.MER_CTL_EN
  let changes := s.rd a != v
  if a = R.MER_CTL then some (s.merCtl v)
  else if a = R.MER_CAD_NUM ∨ a = R.MER_CAD_DEN ∨ a = R.MER_CAD_LINES then
    some (if (en && changes) || (decide (a = R.MER_CAD_NUM) && !cadNumOk n) || n == 0 then s.refuse 0x02
      else if en then s else (s.wr a v).cadSet)
  else if a = R.MER_SRC_PRI then some (if s.on F.MER_CTL_AUTO then (s.wr a v).followUp else s.wr a v)
  else if a = R.MER_PLAUS then some ((s.wr a v).agreeSince s)
  else if a = R.MER_ALT_NUM then (if n != 0 && !cadNumOk n then some (s.refuse 0x02) else none)
  else if a = R.MER_SRC_SEL then
    (if n = 2 ∧ (s.feature 8 = false ∨ s.compat = true) then some (s.refuse 0x02)
     else some (if s.on F.MER_CTL_AUTO then s.wr a v else (s.wr a v).chooseAgain))
  else if a = R.MER_CMD then some (if bitsOf n 0 0 = 1 then s.frameLoad else s)
  else if R.MER_CH_ORIGIN 0 ≤ a ∧ a < R.MER_CH_ORIGIN 32 then some (s.originWrite ((a - R.MER_CH_ORIGIN 0) / 4) v)
  else if R.MER_CH_LINES 0 ≤ a ∧ a < R.MER_CH_LINES 32 then
    let c := (a - R.MER_CH_LINES 0) / 4
    if s.on (F.ENC_CH_CTL_EN c) || (n != 0 && decide (n < s.f (F.ENC_CH_SIZE_H c) + 8)) then some (s.refuse 0x02) else none
  else none

/-- Writes of PTP registers that have rules of their own. -/
def State.ptpReg (s : State) (a : Nat) (v : Word) : Option State :=
  let n := v.toNat
  if a = R.PTP_CTL then some (s.ptpWrite v).joinAll
  else if a = R.PTP_SW_TOL then some ((s.wr a v).agreeSince s)
  else if a = R.PTP_X_CTL 0 then some (s.domWrite 0 v).joinAll
  else if a = R.PTP_X_CTL 1 then some (s.domWrite 1 v).joinAll
  else if a = R.PTP_CMD then some (if bitsOf n 0 0 = 1 then s.acceptA else s)
  else if R.PTP_TOUT_CTL 0 ≤ a ∧ a < R.PTP_TOUT_CTL 4 ∧ (a - R.PTP_TOUT_CTL 0) % 0x40 = 0 then
    let k := (a - R.PTP_TOUT_CTL 0) / 0x40
    some (if bitsOf n 1 0 = 0 then
        ((s.toutDisarm k).setF (F.PTP_TOUT_CTL_BASE k) (bitsOf n 2 2)).setF (F.PTP_TOUT_CTL_POL k) (bitsOf n 3 3)
      else s.toutArm k v)
  else if R.PTP_TIN_CTL 0 ≤ a ∧ a < R.PTP_TIN_CTL 2 ∧ (a - R.PTP_TIN_CTL 0) % 0x40 = 0 then
    (if bitsOf n 2 1 = 0 ∧ (bitsOf n 0 0 = 1 ∨ bitsOf (s.rdn a) 2 1 ≠ 0) then some (s.refuse 0x03) else none)
  else none

/-- Writes of CKG registers that have rules of their own. -/
def State.ckgReg (s : State) (a : Nat) (v : Word) : Option State :=
  let n := v.toNat
  if a = R.CKG_CMD then some (if bitsOf n 8 8 = 0 then s else s.relock (bitsOf n 3 0))
  else if R.CKG_LPLL_CTL 0 ≤ a ∧ a < R.CKG_LPLL_CTL 16 ∧ (a - R.CKG_LPLL_CTL 0) % 0x20 = 0 then
    let q := (a - R.CKG_LPLL_CTL 0) / 0x20
    if s.rd a ≠ v ∧ (List.range 4).any (fun i => s.stage_ (4 * q + i) != 0) = true then some (s.refuse 0x04) else none
  else if R.CKG_CPLL_FREQ 0 ≤ a ∧ a < R.CKG_CPLL_FREQ 11 ∧ (a - R.CKG_CPLL_FREQ 0) % 0x20 = 0 then
    some (s.pllFreqWrite ((a - R.CKG_CPLL_FREQ 0) / 0x20) v)
  else if R.CKG_CLKOUT_CTL 0 ≤ a ∧ a < R.CKG_CLKOUT_CTL 4 then
    let k := (a - R.CKG_CLKOUT_CTL 0) / 0x10
    if (a - R.CKG_CLKOUT_CTL 0) % 0x10 = 0 then some (s.clkoutWrite k v)
    else if s.on (F.CKG_CLKOUT_CTL_EN k) && decide (s.rd a ≠ v) then some (s.refuse 0x04)
    else none
  else none

/-- Writes of ING registers that have rules of their own. -/
def State.ingReg (s : State) (a : Nat) (v : Word) : Option State :=
  let n := v.toNat
  if a = R.ING_CTL then some (s.ingCtlWrite v)
  else if a = R.ING_FT_CMD then
    some (match bitsOf n 12 12, bitsOf n 13 13 with
      | 1, 1 => s.refuse 0x05
      | 1, _ => s.ingFtRead (bitsOf n 11 0)
      | _, 1 => (s.ingFtWrite (bitsOf n 11 0)).joinAll
      | _, _ => s)
  else if R.ING_IN_CTL 0 ≤ a ∧ a < R.ING_IN_CTL 64 then
    let i := (a - R.ING_IN_CTL 0) / 0x40
    match (a - R.ING_IN_CTL 0) % 0x40 with
    | 0x00 => some (s.inputWrite i v)
    | 0x04 => if s.on (F.ING_IN_CTL_EN i) then some (s.refuse 0x05) else none
    | 0x0C => if s.on (F.ING_IN_CTL_EN i) || (n != 0 && decide (n < s.f (F.ING_IN_SIZE_H i) + 8)) then some (s.refuse 0x05) else none
    | 0x08 => if s.on (F.ING_IN_CTL_EN i) then some (if s.clk.fu ≤ n then s.refuse 0x05 else s.stage a v s.clk.vpos) else none
    | 0x18 | 0x1C => if s.on (F.ING_IN_CTL_EN i) then some (s.stage a v s.clk.vpos) else none
    | _ => none
  else none

/-- Writes of DEC registers that have rules of their own. -/
def State.decReg (s : State) (a : Nat) (v : Word) : Option State :=
  if R.DEC_CTX_CTL 0 ≤ a ∧ a < R.DEC_CTX_CTL 16 then
    let x := (a - R.DEC_CTX_CTL 0) / 0x40
    if (a - R.DEC_CTX_CTL 0) % 0x40 = 0 then some (s.ctxWrite x v)
    else if s.on (F.DEC_CTX_CTL_EN x) then some (s.refuse 0x06)
    else none
  else none

/-- Writes of GLB registers that have rules of their own. -/
def State.glbReg (s : State) (path : BusPath) (a : Nat) (v : Word) : Option State :=
  let n := v.toNat
  if a = R.GLB_RESET then some (s.glbReset n)
  else if R.GLB_FRESET 0 ≤ a ∧ a < R.GLB_FRESET 4 then some (s.fresetWrite ((a - R.GLB_FRESET 0) / 4) n)
  else if R.GLB_FEAT_ACCEPT 0 ≤ a ∧ a < R.GLB_FEAT_ACCEPT 4 then (if s.on F.GLB_FEAT_CTL_LOCKED then some (s.refuse 0x00) else none)
  else if a = R.GLB_FEAT_CTL then some (if bitsOf n 0 0 = 1 then s.featCommit else s)
  else if a = R.GLB_SNAP_CTL then
    some (if s.clk.lm ≤ bitsOf n 31 16 then s.refuse 0x00 else if s.merRuns then s.stage a v s.clk.vpos else s.wr a v)
  else if a = R.GLB_SNAP_CMD then some (if bitsOf n 0 0 = 1 then s.snapNow else s)
  else if a = R.GLB_WIN_CTL then some (s.setWinCtl path n)
  else none

/-- MDIO_COMMAND: a write of BIN_MDIO_CMD with GO starts the access; one while an access runs is ignored (R407). -/
def State.mdioWrite (s : State) (v : Word) : State :=
  if s.on F.BIN_MDIO_CMD_GO then s
  else
    let t := s.wr R.BIN_MDIO_CMD v
    if t.on F.BIN_MDIO_CMD_GO then t.emit (.mdio (t.f F.BIN_MDIO_CMD_PHY) (t.f F.BIN_MDIO_CMD_REG) (t.on F.BIN_MDIO_CMD_READ) (t.f F.BIN_MDIO_CMD_DATA))
    else t

/-- Writes of BIN registers that have rules of their own; `raw` is the value written. -/
def State.binReg (s : State) (path : BusPath) (a : Nat) (v raw : Word) : Option State :=
  let n := v.toNat
  if a = R.BIN_CMD then some (s.binCmd (if path = .service then 4 else 6) raw.toNat)
  else if a = R.BIN_FAULT then some (s.faultClear raw.toNat)
  else if a = R.BIN_THERM then (if bitsOf n 15 8 ≤ bitsOf n 7 0 then some (s.refuse 0x01) else none)
  else if a = R.BIN_WDOG then some (s.wr a v).wdogArm
  else if a = R.BIN_WDOG_KICK then some s.wdogArm
  else if a = R.BIN_MDIO_CMD then some (s.mdioWrite v)
  else none

/-- An accepted enable of a flow of a twinned channel shows the largest record again (R248). -/
def State.recMaxShown (t s : State) (a : Nat) (v : Word) : State :=
  let f := bitsOf v.toNat 15 0
  if a = R.EGS_FT_CMD ∧ s.egsFlows.length < t.egsFlows.length ∧ t.twinned (efCh (t.egWords f)) = true then t.wrn R.TWN_REC_MAX (t.recMax none) else t

/-- The unit's own rule for a write, where it has one. `v` is the word the register would hold, with the WO bits written. -/
def State.unitReg (s : State) (path : BusPath) (a : Nat) (v raw : Word) : Option State :=
  match blockOf a with
  | 0x00 => s.glbReg path a v
  | 0x01 => s.binReg path a v raw
  | 0x02 => s.merReg a v
  | 0x03 => s.ptpReg a v
  | 0x04 => s.ckgReg a v
  | 0x05 => s.ingReg a v
  | 0x06 => s.decReg a v
  | 0x07 => s.compReg a v
  | 0x08 => s.encReg a v
  | 0x0A => s.disReg a v
  | 0x0B => (s.egsReg s.flowRecOk a v).map (fun t => t.recMaxShown s a v)
  | 0x0C => s.twnReg a v
  | 0x0D => s.cnvReg a v
  | 0x0E => s.lneReg a v
  | 0x0F => s.ethReg a v
  | 0x10 => s.hbmReg a v
  | 0x14 => s.audReg a v
  | 0x15 => s.calReg a v
  | 0x16 => if a = R.UPD_CMD then some (s.updCmd raw.toNat) else none
  | 0x17 => s.monReg a v
  | 0x18 => s.chkReg a v
  | 0x19 => if a = R.CFG_CMD then some (if bitsOf v.toNat 0 0 = 1 then s.cfgCmdLock else s) else none
  | _ => none

/-! ## A register write -/

/-- How many writes have been refused in this command (R7). -/
def State.refusals (s : State) : Nat := (s.evNow.filter (fun e => e.code % 256 == 1)).length

/-- The word a write is compared with: the copy of the path for GLB_WIN_CTL, else what the register shows or holds. -/
def State.oldWord (s : State) (path : BusPath) (a : Nat) : Nat := if a = R.GLB_WIN_CTL then s.winCtl path else s.liveWord a

/-- The word of a wide value at `a` that is to take effect: the one written and waiting, else the one in force. -/
def State.waitWord (s : State) (a : Nat) : Nat :=
  match Tab.get (fun _ => (none : Option Word)) s.wpend a with
  | some v => v.toNat
  | none => s.liveWord a

/-- The waiting words of a wide value are gone: it has taken effect, or the write of its top word was refused (assumption 91). What a read has
latched stays until the next one (R9). -/
def State.dropWide (s : State) (lo n : Nat) : State :=
  { s with wpend := s.wpend.filter (fun e => !((List.range n).map (fun i => lo + 4 * i)).contains e.1) }

/-- A write to a top word drops the waiting words, where the address is one. -/
def State.dropTop (s : State) (a : Nat) : State :=
  match wideOf wideWrites a with
  | some (lo, n) => if a + 4 = lo + 4 * n then s.dropWide lo n else s
  | none => s

/-- A wide value takes effect as a whole (R9). -/
def State.commitWide (s : State) (lo n : Nat) (top : Nat) : State :=
  let s := (List.range n).foldl (fun (t : State) i => t.wrn (lo + 4 * i) (if i + 1 = n then top else s.waitWord (lo + 4 * i))) s
  let s := s.dropWide lo n
  if blockOf lo = 1 then { s with cfg := { s.cfg with mgtSet := if s.cfg.mgtSet.contains lo then s.cfg.mgtSet else lo :: s.cfg.mgtSet } } else s

/-- Does the staged field of a row wait: is the function it belongs to not OFF (R15)? Units with rules of their own hold theirs. -/
def State.heldRow (s : State) (d : RegDef) (a : Nat) : Bool :=
  d.fields.any (fun x => x.staged) && (match encIndex a with | some (n, _) => s.active (fnEnc n) | none => false)

/-- The write has passed the checks of R7: the unit's own rule, or the register takes the value (R4, R9, R15). -/
def State.writeWord (s : State) (path : BusPath) (d : RegDef) (a : Nat) (raw : Word) : State :=
  let old := s.oldWord path a
  let act := BitVec.ofNat 32 (mergeWord true d.fields old raw.toNat)
  let new := mergeWord false d.fields old raw.toNat
  match wideOf wideWrites a with
  | some (lo, n) =>
    (match s.unitReg path a act raw with
    | some t => if a + 4 = lo + 4 * n then t.dropWide lo n else t
    | none =>
      if a + 4 = lo + 4 * n then s.commitWide lo n new
      else { s with wpend := Tab.put (fun _ => (none : Option Word)) s.wpend a (some (BitVec.ofNat 32 new)) })
  | none =>
    match s.unitReg path a act raw with
    | some t => t
    | none => if s.heldRow d a then s.stage a (BitVec.ofNat 32 new) s.clk.vpos else s.wrn a new

/-- The registers that enter the minimum release latency (R176–R179): an accepted write of one brings ENC_CH_n_RC_LAT_MIN up to date. -/
def latInput (a : Nat) : Bool :=
  blockOf a == 0x08 || (decide (R.MER_CH_LINES 0 ≤ a) && decide (a < R.MER_CH_LINES 32)) || (decide (R.MER_CAD_NUM ≤ a) && decide (a ≤ R.MER_CAD_LINES))
    || a == R.MER_CTL

/-- A write of a register block address: ignored where no register lies (R6); refused under R7 for a changed field out of range or an RWL
field after the lock, the whole register unchanged; else it takes effect. -/
def State.regWrite (s : State) (path : BusPath) (a : Nat) (v : Word) : State :=
  match regDef a with
  | none => s
  | some d =>
    if (d.fields.any (fun x => x.acc == .rwl) && s.cfgLocked) || !fieldsOk d.fields (s.oldWord path a) v.toNat then
      (s.dropTop a).refuse (blockOf a)
    else
      let t := s.writeWord path d a v
      if latInput a && t.refusals == s.refusals then t.minLats else t

/-- Is the core dark: in a shutdown, or with the island itself without supply? -/
def State.dark (s : State) : Bool := s.on F.BIN_STATUS_SHUTDOWN || s.isl.dead

/-! ## Windows (R443-R447) -/

/-- The HBM address of an access in the Mesh Table or Logbook window, if it is available (R446); a hole is counted (R299). -/
def State.winHbm (s : State) (path : BusPath) (a : Nat) : Option Nat × State :=
  let w := s.winCtl path
  let x : Nat × Nat :=
    if a < 0xA00000 then (s.rd64 R.HBM_MESH_ADDR_LO R.HBM_MESH_ADDR_HI % 2 ^ 38, bitsOf w 3 0 * 0x200000 + (a - 0x800000))
    else (s.lbAddr, bitsOf w 19 16 * 0x200000 + (a - 0xC00000))
  let p := x.1 + x.2
  if 0xC00000 ≤ a ∧ 0x1401000 ≤ x.2 then (none, s)
  else if 2 ^ 38 ≤ p ∨ stackOf p ≠ stackOf x.1 then (none, s)
  else if inHole p then (none, s.holeAccess)
  else if s.ready (fnHbm (stackOf p)) then (some p, s)
  else (none, s)

/-- The words of a Track buffer record (R211). -/
def TrkRec.word (r : TrkRec) (w : Nat) : Nat :=
  match w with
  | 0 => r.line * 65536 + r.frac
  | 1 => r.frame + r.kind * 2 ^ 16 + r.pipe * 2 ^ 20 + (if r.warm then 2 ^ 26 else 0) + r.ch * 2 ^ 27
  | 2 => r.lb + r.col * 2 ^ 18 + r.row * 2 ^ 23
  | _ => r.detail % 256 + r.tseq * 65536

/-- Is the current snapshot bank the odd one? -/
def State.bankOdd (s : State) : Bool := s.rdn R.GLB_SNAP_EPOCH % 2 == 1

/-- A read in a table window (R443, R446). -/
def State.windowRead (s : State) (path : BusPath) (a : Nat) : Nat × State :=
  let w := s.winCtl path
  if a < 0xA00000 ∨ (0xC00000 ≤ a ∧ a < 0xE00000) then
    (match s.winHbm path a with
    | (some p, t) => (t.hbmNat p 4, t)
    | (none, t) => (0, t))
  else if a < 0xC00000 then
    let o := a - 0xA00000
    let f := bitsOf w 9 8 * 16384 + o / 128
    let i := o % 128 / 4
    if bitsOf w 24 24 = 1 ∧ 24 ≤ i ∧ i ≤ 26 then
      (Tab.get (fun _ => 0) (if s.bankOdd then s.snap.egs1 else s.snap.egs0) (32 * f + i), s)
    else (s.egw f i, s)
  else if a < 0xF00000 then
    let o := a - 0xE00000
    ((Tab.get (fun _ => ({} : TrkRec)) s.dis.track (o / 16)).word (o % 16 / 4), s)
  else if a < 0xF40000 then
    let o := a - 0xF00000
    let i := o % 64 / 4
    if bitsOf w 25 25 = 1 ∧ 12 ≤ i then
      (Tab.get (fun _ => 0) (if s.bankOdd then s.ing.ftSnap1 else s.ing.ftSnap0) (16 * (o / 64) + i), s)
    else (s.ftw (o / 64) i, s)
  else (0, s)

/-- MESH_WINDOW_WRITE: a 32-bit write in the Mesh Table window goes to HBM at once (R446); the other windows ignore writes (R443). -/
def State.windowWrite (s : State) (path : BusPath) (a : Nat) (v : Word) : State :=
  if a < 0xA00000 then
    (match s.winHbm path a with
    | (some p, t) => t.hbmPut p v.toNat 4
    | (none, t) => t)
  else s

/-! ## Accesses by path (R440) -/

/-- REGISTER_WRITE: `size` bytes of `v` at an address of the register space. PCIe ignores and counts a write of fewer than 4 bytes (R421); an
address that is no multiple of 4 is answered by Sextant and the service port without effect (R440), and in a Basgar record, as a
window address is, treated as refused (the record stops, R368). In a shutdown only the island answers. -/
def State.busWrite (s : State) (path : BusPath) (a : Nat) (v : Word) (size : Nat) : State :=
  let island := decide (0x10000 ≤ a) && decide (a < 0x10100)
  if s.isl.dead then s
  else if path = .service then (if island && a % 4 == 0 then s.regWrite path a v else s)
  else if s.dark then s
  else if path = .pcie ∧ size < 4 then s.bump R.BIN_PCIE_DROP_CNT
  else if a % 4 ≠ 0 ∧ path ≠ .pcie then s
  else
    let a := a / 4 * 4
    if a < 0x1A0000 then s.regWrite path a v
    else if 0x800000 ≤ a ∧ a < 0x1000000 ∧ path ≠ .basgar then s.windowWrite path a v
    else s

/-- A shadow alias shows the register in the current snapshot bank (R427): 0 before the first snapshot and for a register that is not
latched. -/
def State.shadowWord (s : State) (a : Nat) : Word :=
  if !isLatched a then 0
  else match (if s.bankOdd then s.snap.bank1 else s.snap.bank0) with
    | some b => Tab.get resetOf b a
    | none => 0

/-- What a read of a register does beside showing it: RC fields clear (R4), the lowest word of a wide value latches the others (R9), a TIN
capture is popped (R65). -/
def State.readEffect (s : State) (a : Nat) : State :=
  match regDef a with
  | none => s
  | some d =>
    let s := if d.fields.any (fun x => x.acc == .rc) then
        s.wrn a (d.fields.foldl (fun t x => t + (if x.acc = .rc then 0 else bitsOf (s.rdn a) x.hi x.lo) * 2 ^ x.lo) 0) else s
    let s := if a = R.PTP_TIN_CTL 0 + 4 then (s.tinPop 0).2 else if a = R.PTP_TIN_CTL 1 + 4 then (s.tinPop 1).2 else s
    match wideOf (wideReads ++ wideWrites) a with
    | some (lo, n) =>
      if a = lo then
        { s with latch := (upperWords lo n).foldl (fun t b => Tab.put (fun _ => (none : Option Word)) t b (some (s.view b))) s.latch }
      else s
    | none => s

/-- What a path reads at a block address: the latched word of a wide value, the path's copy of GLB_WIN_CTL, else what the register shows. -/
def State.readWord (s : State) (path : BusPath) (a : Nat) : Word :=
  if a = R.GLB_WIN_CTL then BitVec.ofNat 32 (s.winCtl path)
  else match Tab.get (fun _ => (none : Option Word)) s.latch a with
    | some v => v
    | none => s.view a

/-- A read of an address of the register space by a path: its word, and the state after it. The service port clears nothing and latches nothing
(R404). -/
def State.busRead (s : State) (path : BusPath) (a : Nat) : Word × State :=
  let a := a / 4 * 4
  if s.isl.dead then (0, s)
  else if path = .service then
    (if a < 0x1A0000 then (if s.dark && !(decide (0x10000 ≤ a) && decide (a < 0x10100)) then 0 else s.view a)
     else if 0x400000 ≤ a ∧ a < 0x600000 then s.shadowWord (a - 0x400000) else 0, s)
  else if s.dark then (0, s)
  else if a < 0x1A0000 then (s.readWord path a, s.readEffect a)
  else if 0x400000 ≤ a ∧ a < 0x600000 then (s.shadowWord (a - 0x400000), s)
  else if 0x800000 ≤ a ∧ a < 0x1000000 then let r := s.windowRead path a; (BitVec.ofNat 32 r.1, r.2)
  else (0, s)

/-- A read command: the word read is given out. -/
def State.readOut (s : State) (path : BusPath) (a : Nat) : State :=
  let r := s.busRead path a
  r.2.emit (.read path a r.1)

/-- A control register takes its present value with one field changed, written on the host's path. -/
def State.ctlWrite (s : State) (x : Fld) (v : Nat) : State := s.busWrite .pcie x.addr (BitVec.ofNat 32 (setBits (s.rdn x.addr) x.hi x.lo v)) 4

end Sys2Proof.Machine
end

