-- ==== Sys2Proof/Machine/Cfg.lean ====
section
/-!
DEFINITION. Sys2Proof/Machine/Cfg.lean: the loader's start (R359, R361, R386, R387, R388) and the firmware's (R362, R363, R366, R369, R370).
-/

namespace Sys2Proof.Machine

/-! ## The loader -/

/-- May the loader start: PWR_GOOD is high, no reset still waits for self-refresh, nothing runs yet (R359)? -/
def State.loaderMay (s : State) : Bool :=
  s.cfg.pwrGood && !s.isl.dead && !s.on F.BIN_STATUS_SHUTDOWN && s.cfg.stage == 0

/-- Every mute ends (R397). -/
def State.mutesEnd (s : State) : State :=
  let t := if s.on F.BIN_STATUS_MUTED then s.raise 0x0104 0 else s
  (t.setF F.BIN_STATUS_MUTED 0).setF F.BIN_STATUS_MUTE_HOLD 0

/-- The start itself at t1: the straps are sampled, the BOOT_ID drawn (R410), the loader start counted, every mute ends, the core PLLs
acquire lock (R76), function 7 is STARTING (R372). -/
def State.loaderInit (s : State) (slots : Slot) : State :=
  let s : State := { s with cfg := { s.cfg with reset := none, stage := 1, t1 := s.clk.ns, slots := slots, keys1 := s.keys }, pins := { s.pins with rstN := true } }
  let s := (s.mutesEnd.bump R.BIN_BOOT_CNT).wrn R.GLB_MID s.pins.mid
  let s := (s.setF F.TWN_STATUS_TWIN_FIRST (if s.pins.twinFirst then 1 else 0)).setF F.TWN_STATUS_HELM_IN (if s.pins.helmIn then 1 else 0)
  let s := { s with fctr := s.fctr + 1 }.wrn R.BIN_SX_BOOT_ID (Config.bootId s.fctr)
  ((List.range 11).foldl State.startRelock s).setFn fnCfg .starting

/-- The session record is checked: one whose words fail their CRC counts as no session (R386). -/
def State.sessionCheck (s : State) : State := if s.updState ≠ 0 ∧ s.svf 66 31 0 ≠ s.updCrc then s.updEnd else s

/-- LOADER_START: at the later of PWR_GOOD and RST_N; a cold reset is held for 1 ms (R359, R395). The directory is read (R361); a STAGED
session is installed (R387); the boot decision is made (R388). `slots` is what the two firmware slots hold, `staged` the header of the
image in the Hamper where its signature verifies. -/
def State.loaderStart (s : State) (slots : Slot) (staged : Option FwHdr) (moveOk copyOk bootOk : Bool) : State :=
  if !s.loaderMay then s
  else
    let s := match s.cfg.reset with | some r => if r.kind = 1 then s.toNs (r.since + 1000000) else s | none => s
    let s := s.loaderInit slots
    match s.dirCopy with
    | none => (((s.setF F.CFG_STATUS_STATE 7).raise 0x1907 0).sessionCheck).setFn fnCfg .fault
    | some k =>
      let s := (s.setF F.CFG_FLASH_DENSITY s.flash.density).setF F.CFG_FLASH_SECOND k
      ((s.sessionCheck).install staged moveOk copyOk).bootDecision bootOk

/-! ## The firmware -/

/-- The firmware that starts, and whether it is the one of the Fallback area: the one the boot record names, or else the other (R362). -/
def State.bootPick (s : State) : Option (FwHdr × Bool) :=
  let a := s.cfg.slots.active.map (fun h => (h, false))
  let f := s.cfg.slots.fallback.map (fun h => (h, true))
  if s.runFb then f.orElse (fun _ => a) else a.orElse (fun _ => f)

/-- A write by the firmware: its state, each write in a cycle of its own (R418), and whether it was refused (R7). -/
def State.imgWrite (s : State) (a : Nat) (v : Word) : State × Bool :=
  let t := s.finish.regWrite .basgar a v
  (t, t.refusals != 0)

/-- Pairs of address and value in order, up to the first that is refused or names an address a Basgar record may not (R368, R440), or that
resets the core. -/
def State.imgWrites (s : State) (rec_ : Nat) : List (Nat × Nat) → State
  | [] => s
  | p :: r =>
    if p.1 % 4 ≠ 0 ∨ 0x800000 ≤ p.1 then s.applyFail rec_ p.1 6
    else
      let w := if p.1 < 0x1A0000 then s.imgWrite p.1 (BitVec.ofNat 32 p.2) else (s, false)
      if w.2 then w.1.applyFail rec_ p.1 6 else if w.1.cfg.stage ≠ 2 then w.1 else State.imgWrites w.1 rec_ r

/-- The early writes of the firmware (R363): RATIO and CPLL_7's frequency from HBM_RATE, then the stacks of HBM_STACKS. -/
def earlyWrites (rate stacks_ : Nat) : List (Nat × Nat) :=
  if rate = 0 then []
  else
    let pair := if rate = 8000 then (0, 1200000000) else (1, rate * 125000)
    [(R.HBM_CTL, pair.1), (R.CKG_CPLL_FREQ 7, pair.2)]
      ++ ((List.range 4).filter (fun i => bitsOf stacks_ i i == 1)).map (fun i => (R.HBM_S_CTL i, 1))

/-- The settings are unreadable (R369); in a running trial the next start falls back, and Binnacle resets in 1 s (R389). -/
def State.unreadable (s : State) : State :=
  let s := ((((s.setF F.CFG_STATUS_STATE 6).setF F.CFG_FLAGS_UNREADABLE 1).wrn R.CFG_ERR_CODE 9).raise 0x1906 0).setFn fnCfg .fault
  if s.trial = 1 then { s.svSet 64 9 6 s.trialK with cfg := { s.cfg with unreadAt := some s.clk.ns } } else s

/-- The firmware starts: its header, the offered features, event 0x1902 (R362, R370). -/
def State.firmwareInit (s : State) (h : FwHdr) (fb : Bool) : State :=
  let s := (s.setF F.CFG_STATUS_FALLBACK (if fb then 1 else 0)).wrn R.GLB_FW_VERSION h.version
  let s := (s.setF F.CFG_SET_FMT_SETTINGS h.fmt).wrn (R.GLB_FEAT_OFFER 0) offered
  { s with cfg := { s.cfg with stage := 2, fwAt := s.clk.ns, healthyAt := s.clk.ns, healthySaid := false } }.raise 0x1902 0

/-- FIRMWARE_START: the loader starts the firmware; the whole image is checked (R366), then its settings (R369); the host window opens (R370)
and the early writes are made (R363). `bad` holds the IDs of the settings blocks that fail the firmware's own check. -/
def State.firmwareStart (s : State) (bad : List Nat) : State :=
  if s.cfg.stage ≠ 1 ∨ s.f F.CFG_STATUS_STATE ≠ 0 then s
  else match s.bootPick with
  | none => s
  | some (h, fb) =>
    let s := s.firmwareInit h fb
    let b := s.imgByte
    let s := if headerOk b (s.flashSize - flashConfig) then (s.wrn R.CFG_IMG_LEN (imgLen b)).wrn R.CFG_BUILD_ID (imgWord b 28) else s
    match s.imageCheck b with
    | .error c => s.refuseImage c
    | .ok (rs, signed) =>
      let s := s.setF F.CFG_STATUS_SIGNED (if signed then 1 else 0)
      let req := match rs with | r :: _ => imgReq b r | [] => 0
      let want := match rs with | r :: _ => imgWant b r | [] => 0
      if !featOk req want then s.refuseImage 5
      else
        let l := settingsOf s.pins.mid rs
        let s : State := { s with cfg := { s.cfg with
          req := req, want := want, img := true, off := 256, idx := 0
          closeAt := some (s.clk.ns + 1000000 * (imgWord b 20 % 65536)) } }
        let s := s.setF F.GLB_FEAT_CTL_WINDOW 1
        if !formatsOk h.fmt l || l.any (fun x => x.2.1 == h.fmt && bad.contains x.1) then s.unreadable
        else (s.setF F.CFG_STATUS_STATE 1).imgWrites 0xFFFFFFFF (earlyWrites (imgWord b 20 / 65536) (imgWord b 24 % 16))

end Sys2Proof.Machine
end

