-- ==== Sys2Proof/Machine/Apply.lean ====
section
/-!
DEFINITION. Sys2Proof/Machine/Apply.lean: the records of a Basgar image take effect one by one (R364, R365, R368).
-/

namespace Sys2Proof.Machine

/-- The words of a record's payload. -/
def BasRec.words (r : BasRec) (b : Nat → Nat) : List Nat := (List.range (r.len / 4)).map (fun i => imgWord b (r.off + 16 + 4 * i))

/-- Words in pairs: address and value. -/
def pairsOf : List Nat → List (Nat × Nat)
  | a :: v :: r => (a, v) :: pairsOf r
  | _ => []

/-- A list cut into pieces of n. -/
def cutList (n : Nat) : Nat → List Nat → List (List Nat)
  | 0, _ => []
  | k + 1, l => if n ≤ l.length then l.take n :: cutList n k (l.drop n) else []

/-- The registers that write one entry of a TABLE_LOAD target (R365): the Lane Table's words, or a flow table's buffer and command. -/
def entryWrites (target idx : Nat) (e : List Nat) : List (Nat × Nat) :=
  match target with
  | 1 => e.zipIdx.map (fun x => (R.LNE_LANE_CFG idx x.2, x.1))
  | 3 => e.zipIdx.map (fun x => (R.ING_FT_DATA x.2, x.1)) ++ [(R.ING_FT_CMD, idx + 2 ^ 13)]
  | _ => e.zipIdx.map (fun x => (R.EGS_FT_DATA x.2, x.1)) ++ [(R.EGS_FT_CMD, idx + 2 ^ 17)]

/-- Writes up to the first that is refused. -/
def State.tryWrites (s : State) : List (Nat × Nat) → State × Bool
  | [] => (s, false)
  | p :: r => let w := s.imgWrite p.1 (BitVec.ofNat 32 p.2); if w.2 then w else State.tryWrites w.1 r

/-- The entries of a target that registers write, each one register write under R7: a refused entry leaves nothing of it (R365). -/
def State.tableEntries (s : State) (rec_ target : Nat) : Nat → List (List Nat) → State
  | _, [] => s
  | i, e :: r =>
    let w := s.tryWrites (entryWrites target i e)
    if w.2 then ({ s with evNow := w.1.evNow, log := w.1.log }).applyFail rec_ i 6 else State.tableEntries w.1 rec_ target (i + 1) r

/-- The words of an entry of a target. -/
def entryLen (target : Nat) : Nat := match target with | 1 => 4 | 2 => 2 | 3 => 12 | 4 => 24 | _ => 1

/-- How many entries a target has. -/
def tableSize (target : Nat) : Nat := match target with | 1 => 64 | 3 => 4096 | _ => 65536

/-- A record takes effect, or waits: the state and whether it is done. A record that fails stops the application itself. -/
def State.applyRecord (s : State) (b : Nat → Nat) (r : BasRec) : State × Bool :=
  let w := r.words b
  let idx := s.cfg.idx
  match r.ty with
  | 0x02 => (s.imgWrites idx (pairsOf w), true)
  | 0x03 =>
    let a := w.getD 0 0
    if a % 4 ≠ 0 ∨ 0x800000 ≤ a then (s.applyFail idx a 6, true)
    else
      let v := s.busRead .basgar a
      if v.1.toNat &&& w.getD 1 0 = w.getD 2 0 then (v.2, true)
      else ({ v.2 with cfg := { v.2.cfg with wait := some (v.2.cfg.wait.getD (s.clk.ns + 1000000 * w.getD 3 0)) } }, false)
  | 0x04 =>
    let t := r.param % 256
    let start := w.getD 0 0
    if w.length < 2 ∨ t = 0 ∨ 5 < t ∨ (t = 2 ∧ r.len % 8 ≠ 0) then (s.applyFail idx start 8, true)
    else if t = 2 ∨ t = 5 then
      let addr := if t = 2 then s.rd64 R.HBM_MESH_ADDR_LO R.HBM_MESH_ADDR_HI % 2 ^ 38 + 8 * start else start + 2 ^ 32 * (w.getD 1 0 % 64)
      if !oneStack addr (r.len - 8) then (s.applyFail idx start 8, true)
      else if s.ready (fnHbm (stackOf addr)) then (s.hbmPutBytes addr ((imgBytes b (r.off + 24) (r.len - 8))), true)
      else ({ s with cfg := { s.cfg with wait := some (s.cfg.wait.getD (s.clk.ns + 2000000000)) } }, false)
    else
      let es := cutList (entryLen t) w.length (w.drop 2)
      if tableSize t < start + es.length ∨ entryLen t * es.length + 2 ≠ w.length then (s.applyFail idx start 8, true)
      else (s.tableEntries idx t start es, true)
  | 0x06 => ({ s with cfg := { s.cfg with key := some (r.param % 256, imgBytes b (r.off + 16) 32) } }, true)
  | _ => (s, true)

/-- Is the firmware applying records? -/
def State.applying (s : State) : Bool := s.cfg.stage == 2 && s.cfg.img && !s.cfg.halt && s.f F.CFG_STATUS_STATE == 2

/-- The next record is due; after the last one the configuration locks (R368). -/
def State.nextRecord (s : State) (b : Nat → Nat) (r : BasRec) : State :=
  let off := r.off + 16 + r.len
  let s : State := { s with cfg := { s.cfg with off := off, idx := s.cfg.idx + 1, wait := none } }
  if imgLen b ≤ off then s.lockConfig else s

/-- RECORD_APPLY: the next record of the image is skipped by its MIDs, or applied; a REG_WAIT or a TABLE_LOAD that waits is tried again by the
next command (R364, R368). -/
def State.recordApply (s : State) : State :=
  if !s.applying then s
  else
    let b := s.imgByte
    let r := recAt b s.cfg.off
    if !r.applies s.pins.mid then (s.bump R.CFG_SKIP_CNT).nextRecord b r
    else
      let x := s.applyRecord b r
      if !x.2 || !x.1.applying then x.1 else (x.1.bump R.CFG_REC_CNT).nextRecord b r

/-- The record that waits, where one of this type does, with the end of its time. -/
def State.waitingRecord (s : State) (ty : Nat) : Option (BasRec × Nat) :=
  let r := recAt s.imgByte s.cfg.off
  match s.cfg.wait with
  | some t => if s.applying && r.ty == ty then some (r, t) else none
  | none => none

/-- REG_WAIT_TIMEOUT: the record's timeout passes (R368). -/
def State.regWaitTimeout (s : State) : State :=
  match s.waitingRecord 0x03 with
  | some (r, t) => (s.toNs t).applyFail s.cfg.idx ((r.words s.imgByte).getD 0 0) 7
  | none => s

/-- TABLE_LOAD_TIMEOUT: the stack is not READY after 2,000 ms (R365). -/
def State.tableLoadTimeout (s : State) : State :=
  match s.waitingRecord 0x04 with
  | some (r, t) => (s.toNs t).applyFail s.cfg.idx ((r.words s.imgByte).getD 0 0) 8
  | none => s

end Sys2Proof.Machine
end

