-- ==== Sys2Proof/Machine/Sx.lean ====
section
/-!
DEFINITION. Sys2Proof/Machine/Sx.lean: Sextant (R408-R419, R385): datagrams, their authentication and replay checks, reassembly, relay, the
messages and their replies.
-/

namespace Sys2Proof.Machine

/-! ## Datagrams (R408, R409) -/

/-- A datagram as read: its header, its body. -/
structure SxGram where
  ver : Nat
  flags : Nat
  ty : Nat
  dest : Nat
  seq : Nat
  boot : Nat
  frag : Nat
  last : Bool
  key : Nat
  body : List Nat
  deriving DecidableEq, Repr

/-- The datagram that some bytes spell; none where MAGIC or the lengths are wrong, or a version 1 datagram is a fragment (R408, R411). -/
def sxParse (l : List Nat) : Option SxGram :=
  let n := leNat l 20 2
  let fr := byteAt l 22
  if leNat l 0 2 = 0x5853 ∧ n ≤ 1400 ∧ l.length = 40 + n ∧ (byteAt l 2 = 1 → fr = 0x80) then
    some { ver := byteAt l 2, flags := byteAt l 3, ty := leNat l 4 2, dest := leNat l 6 2 % 1024, seq := leNat l 8 8, boot := leNat l 16 4,
           frag := fr % 128, last := decide (128 ≤ fr), key := byteAt l 23, body := (l.drop 24).take n }
  else none

/-- KEY_ID of the key in force; 0 without one. -/
def State.keyId (s : State) : Nat := match s.cfg.key with | some k => k.1 | none => 0

/-- The tag of a header and body (R409). -/
def State.sxTag (s : State) (l : List Nat) : List Nat :=
  let h := Config.hmac s.mgmtKey l
  (List.range 16).map (fun i => h.getD i 0 % 256)

/-- A datagram of the module: its own MID as DEST, the BOOT_ID and KEY_ID in force, and the tag. -/
def State.sxGram (s : State) (ver flags ty seq frag : Nat) (body : List Nat) : List Nat :=
  let l := leBytes 0x5853 2 ++ [ver % 256, flags] ++ leBytes ty 2 ++ leBytes s.pins.mid 2 ++ leBytes seq 8 ++ leBytes (s.rdn R.BIN_SX_BOOT_ID) 4
    ++ leBytes body.length 2 ++ [frag, s.keyId] ++ body
  l ++ s.sxTag l

/-- A body cut for its datagrams: 1,400 bytes each (R411). -/
def sxCut : Nat → List Nat → List (List Nat)
  | 0, l => [l]
  | n + 1, l => if l.length ≤ 1400 then [l] else l.take 1400 :: sxCut n (l.drop 1400)

/-! ## Relay (R417, R275) -/

/-- Does a message travel in parcel relay flits (6), or in management relay flits (5)? -/
def relayTy (ty : Nat) : Nat := if 0x40 ≤ ty ∧ ty ≤ 0x43 then 6 else 5

/-- One relay flit of the module's own leaves: toward its destination, or along row and column as a broadcast. -/
def State.relayOne (s : State) (f : RelayFlit) : State :=
  if f.dest = 0x3FF then
    let s := if 1 < s.cnvCols then s.linkSend (s.cnvPort 0) f.ty (relayWords f) else s
    if 1 < s.cnvRows then s.linkSend (s.cnvPort 2) f.ty (relayWords f) else s
  else match s.relayPort f.dest with
    | none => s.relayDrop
    | some p => s.linkSend p f.ty (relayWords f)

/-- Bytes cut for relay flits: 236 each. -/
def relayCut : Nat → List Nat → List (List Nat)
  | 0, l => [l]
  | n + 1, l => if l.length ≤ 236 then [l] else l.take 236 :: relayCut n (l.drop 236)

/-- A message goes out as relay flits. -/
def State.relaySend (s : State) (ty dest : Nat) (data : List Nat) : State :=
  let ps := relayCut 127 data
  let n := ps.length
  let msg := s.sx.relayMsg
  let s : State := { s with sx := { s.sx with relayMsg := (msg + 1) % 65536 } }
  ps.zipIdx.foldl (fun (t : State) e => t.relayOne
    { ty := relayTy ty, dest := dest, orig := t.pins.mid, hops := 0, msg := msg, frag := e.2, last := e.2 + 1 == n, data := e.1 }) s

/-- A datagram goes to a client: on the port its request came from, or by the relay path (R407, R417). -/
def State.sxOut (s : State) (src : SxFrom) (ty : Nat) (l : List Nat) : State :=
  match src.relay with
  | none => s.emit (.datagram src.mgt src.ip src.udp l)
  | some orig => s.relaySend ty orig l

/-- A reply or an EVENT message, in as many datagrams as it takes. -/
def State.sxSend (s : State) (src : SxFrom) (ver flags ty seq : Nat) (body : List Nat) : State :=
  let ps := sxCut 127 body
  ps.zipIdx.foldl (fun (t : State) e => t.sxOut src ty (t.sxGram ver flags ty seq (e.2 + (if e.2 + 1 = ps.length then 128 else 0)) e.1)) s

/-- The reply to a request: the status word, then the rest of the body (R413). -/
def State.sxReply (s : State) (m : SxMsg) (status : Nat) (body : List Nat) : State :=
  s.sxSend m.src m.ver 1 m.ty m.seq (leBytes status 4 ++ body)

/-- A reply body of words. -/
def wordBytes (l : List Nat) : List Nat := l.flatMap (fun w => leBytes w 4)

/-! ## Statuses (R414) -/
def sxOk : Nat := 0
def sxRefused : Nat := 16
def sxNoKey : Nat := 17
def sxLate : Nat := 18
def sxRange : Nat := 19
def sxUnknown : Nat := 20
def sxVersion : Nat := 21
def sxStale : Nat := 22
def sxFull : Nat := 23

/-! ## Receiving (R409–R412) -/

/-- A datagram fails R409: counted, event 0x010A at most once per second. -/
def State.sxAuthFail (s : State) : State :=
  let s := s.bump R.BIN_SX_AUTH_CNT
  match s.sx.authAt with
  | some t => if s.clk.ns < t + 1000000000 then s else { s with sx := { s.sx with authAt := some s.clk.ns } }.raise 0x010A 0
  | none => { s with sx := { s.sx with authAt := some s.clk.ns } }.raise 0x010A 0

/-- The SEQ that a client's next request must exceed (R410). -/
def State.sxFloor (s : State) (ip : Nat) : Nat := match s.sx.clients.find? (fun c => c.ip == ip) with | some c => c.seq | none => s.sx.floor

/-- A client's request is accepted: its SEQ is kept, and it is the one used last; a 65th client evicts the least recently used (R410). A client
that enters the table has GLB_WIN_CTL at its reset value (R445). -/
def State.sxTake (s : State) (ip seq : Nat) : State :=
  let old := s.sx.clients.find? (fun c => c.ip == ip)
  let rest := s.sx.clients.filter (fun c => c.ip != ip)
  let c : SxClient := { ip := ip, seq := seq, win := match old with | some o => o.win | none => 0 }
  if rest.length < 64 then { s with sx := { s.sx with clients := rest ++ [c] } }
  else { s with sx := { s.sx with clients := rest.drop 1 ++ [c], floor := max s.sx.floor (rest.headD c).seq } }

/-- The version that a message first stands in (R412, R413). -/
def sxTypeVer (ty : Nat) : Option Nat :=
  if [0x01, 0x02, 0x03, 0x11, 0x20, 0x21, 0x22, 0x30].contains ty then some 1
  else if [0x04, 0x10, 0x40, 0x41, 0x42, 0x43].contains ty then some 2
  else none

/-- The messages answered without a management key (R412). -/
def sxKeyless (ty : Nat) : Bool := [0x01, 0x02, 0x11, 0x22, 0x30, 0x20, 0x40, 0x41, 0x42, 0x43].contains ty

/-- Is a request of this version answered (R412)? -/
def State.sxVerOk (s : State) (ver : Nat) : Bool := ver == 1 || (ver == 2 && (s.feature 13 || !s.on F.GLB_FEAT_CTL_LOCKED))

/-- The pairs of a WRITE or a GROUP_WRITE from word i on. -/
def bodyPairs (b : List Nat) (i n : Nat) : List (Nat × Nat) := (List.range n).map (fun k => (leNat b (4 * i + 8 * k) 4, leNat b (4 * i + 8 * k + 4) 4))

/-- Are the addresses of all pairs multiples of 4 in the register space (R440)? -/
def pairsOk (l : List (Nat × Nat)) : Bool := l.all (fun p => p.1 % 4 == 0 && decide (p.1 < 0x1000000))

/-- Are the fields of a whole request in their ranges, apart from a group write's position (R413, R415, R416)? -/
def sxBodyOk (ty : Nat) (b : List Nat) : Bool :=
  let w := fun (i : Nat) => leNat b (4 * i) 4
  match ty with
  | 0x01 | 0x42 => b.length == 0
  | 0x02 => b.length == 8 && w 0 % 4 == 0 && decide (1 ≤ w 1) && decide (w 1 ≤ 256) && decide (w 0 + 4 * w 1 ≤ 0x1000000)
  | 0x03 => decide (1 ≤ w 0) && decide (w 0 ≤ 128) && b.length == 4 + 8 * w 0 && pairsOk (bodyPairs b 1 (w 0))
  | 0x04 => decide (1 ≤ w 2) && decide (w 2 ≤ 128) && b.length == 12 + 8 * w 2 && pairsOk (bodyPairs b 3 (w 2))
  | 0x10 => b.length == 8 && decide (w 1 ≤ 600)
  | 0x11 => b.length == 8 && decide (1 ≤ w 1) && decide (w 1 ≤ 64)
  | 0x20 => b.length == 4 && (w 0 == 0xA5C30001 || w 0 == 0xA5C30002)
  | 0x21 => b.length == 4 && decide (1 ≤ w 0) && decide (w 0 ≤ 3)
  | 0x22 => b.length == 8 && decide (1 ≤ w 1) && decide (w 1 ≤ 32) && decide (w 0 + w 1 ≤ 2029)
  | 0x30 => b.length == 4 && decide (w 0 < 65536)
  | 0x40 => b.length == 56
  | 0x43 => b.length == 48
  | _ => true

/-- A whole request: its version, key, type and fields are checked in this order; then it waits for the engine (R412–R414). -/
def State.sxRequest (s : State) (m : SxMsg) : State :=
  let s := s.bump R.BIN_SX_RX_CNT
  if s.cfg.key.isNone && !sxKeyless m.ty then s.sxReply m sxNoKey []
  else match sxTypeVer m.ty with
    | none => s.sxReply m sxUnknown []
    | some v =>
      if m.ver < v then s.sxReply m sxUnknown []
      else if !sxBodyOk m.ty m.body then s.sxReply m sxRange []
      else { s with sx := { s.sx with msgs := s.sx.msgs ++ [m] } }

/-- The whole body of fragments 0 to k, once all are there. -/
def fragBody (l : List (Nat × List Nat)) (k : Nat) : Option (List Nat) :=
  let ps := (List.range (k + 1)).map (fun i => l.find? (fun e => e.1 == i))
  if ps.all Option.isSome then some (ps.flatMap (fun o => match o with | some e => e.2 | none => [])) else none

/-- A fragment joins the message under reassembly of its client and SEQ; the last missing one completes it; more than 30,208 bytes discard it
(R411). -/
def State.sxFragment (s : State) (a : SxAsm) (g : SxGram) : State :=
  let others := s.sx.asms.filter (fun x => !(x.msg.src.ip == a.msg.src.ip && x.msg.seq == a.msg.seq))
  let a := { a with frags := if a.frags.any (fun e => e.1 == g.frag) then a.frags else a.frags ++ [(g.frag, g.body)]
                    last := if g.last then some g.frag else a.last, at_ := s.clk.ns }
  let t : State := { s with sx := { s.sx with asms := others } }
  if 30208 < (a.frags.map (fun e => e.2.length)).sum then t
  else match a.last.bind (fragBody a.frags) with
    | some b => t.sxRequest { a.msg with body := b }
    | none => { s with sx := { s.sx with asms := others ++ [a] } }

/-- A datagram that passed R409 and is for this module: BOOT_ID, SEQ, version, fragments (R410–R412). -/
def State.sxAccept (s : State) (src : SxFrom) (g : SxGram) : State :=
  let m : SxMsg := { src := src, ver := g.ver, ty := g.ty, seq := g.seq, body := g.body }
  let cur := s.sx.asms.find? (fun x => x.msg.src.ip == src.ip && x.msg.seq == g.seq && x.msg.ty == g.ty)
  if g.ty ≠ 0x01 ∧ g.boot ≠ s.rdn R.BIN_SX_BOOT_ID then s.sxReply m sxStale []
  else match cur with
    | some a => s.sxFragment a g
    | none =>
      if g.seq ≤ s.sxFloor src.ip then s.bump R.BIN_SX_REPLAY_CNT
      else
        let s := s.sxTake src.ip g.seq
        if !s.sxVerOk g.ver then s.sxReply m sxVersion []
        else if g.frag = 0 ∧ g.last = true then s.sxRequest m
        else if 8 ≤ s.sx.asms.length then s
        else s.sxFragment { msg := { m with body := [] }, frags := [], last := none, at_ := s.clk.ns } g

/-- Is the management port that a datagram came on in use (BIN_MGT_CTL), and does anything answer on it (R359, R423)? -/
def State.mgtListens (s : State) (src : SxFrom) : Bool :=
  !s.dark && decide (s.cfg.stage ≠ 0) && (src.relay.isSome || (if src.mgt = 0 then s.on F.BIN_MGT_CTL_A_EN else s.on F.BIN_MGT_CTL_B_EN))

/-- SEXTANT_DATAGRAM: a datagram for another MID is relayed unchecked, one for the group is relayed and acted on (R416, R417); a reply that came
by relay goes on to its client; the rest is authenticated (R409) and taken. -/
def State.sxReceive (s : State) (src : SxFrom) (l : List Nat) : State :=
  if !s.mgtListens src then s
  else match sxParse l with
    | none => s.sxAuthFail
    | some g =>
      if bitsOf g.flags 0 0 = 1 ∨ bitsOf g.flags 1 1 = 1 then
        (if src.relay.isSome then s.emit (.datagram src.mgt src.ip src.udp l) else s.sxAuthFail)
      else if g.dest ≠ s.pins.mid ∧ g.dest ≠ 0x3FE ∧ g.dest ≠ 0x3FF then
        (if src.relay.isSome then s else s.relaySend g.ty g.dest l)
      else
        let s := if g.dest = 0x3FF ∧ src.relay.isNone = true then s.relaySend g.ty 0x3FF l else s
        if (l.drop (l.length - 16)) ≠ s.sxTag (l.take (l.length - 16)) ∨ g.key ≠ s.keyId then s.sxAuthFail
        else s.sxAccept src g

/-- SEXTANT_REASSEMBLY_TIMEOUT: a fragment has been missing for 100 ms: the message is discarded (R411). -/
def State.sxReassemblyTimeout (s : State) : State :=
  match s.sx.asms with
  | [] => s
  | a :: r =>
    let t := (r.map (fun x => x.at_)).foldl min a.at_
    let s := s.toNs (t + 100000000)
    { s with sx := { s.sx with asms := s.sx.asms.filter (fun x => decide (s.clk.ns < x.at_ + 100000000)) } }

/-! ## The messages (R413) -/

/-- The first request of a type that waits, with a condition on its body, and the state without it. -/
def State.sxNext (s : State) (ty : Nat) (ok : List Nat → Bool) : Option (SxMsg × State) :=
  match s.sx.msgs.find? (fun m => m.ty == ty && ok m.body) with
  | some m => some (m, { s with sx := { s.sx with msgs := s.sx.msgs.erase m } })
  | none => none

/-- Act on the first waiting request of a type. -/
def State.sxServe (s : State) (ty : Nat) (ok : List Nat → Bool) (op : State → SxMsg → State) : State :=
  match s.sxNext ty ok with
  | some (m, s) => op s m
  | none => s

/-- Any body. -/
def anyBody : List Nat → Bool := fun _ => true

/-- HELLO: identity, BOOT_ID, the accepted features or before the lock the offered ones, CFG_STATUS, the key's state. -/
def State.hello (s : State) : State :=
  s.sxServe 0x01 anyBody (fun s m =>
    let feat := if s.on F.GLB_FEAT_CTL_LOCKED then R.GLB_FEAT_ACCEPT else R.GLB_FEAT_OFFER
    let v := fun (a : Nat) => (s.view a).toNat
    s.sxReply m sxOk (wordBytes ([v R.GLB_ID_PART, v R.GLB_ID_REV, v R.GLB_MID, v R.GLB_SERIAL_LO, v R.GLB_SERIAL_HI, v R.GLB_FW_VERSION,
      v R.BIN_SX_BOOT_ID] ++ (List.range 4).map (fun w => v (feat w)) ++ [v R.CFG_STATUS, v R.BIN_SX_KEY])))

/-- Words from consecutive addresses, one read at a time. -/
def State.sxReads (s : State) (ip : Nat) : Nat → Nat → List Nat → List Nat × State
  | _, 0, l => (l, s)
  | a, n + 1, l => let r := s.busRead (.sextant ip) a; State.sxReads r.2 ip (a + 4) n (l ++ [r.1.toNat])

/-- READ (R415). -/
def State.sxRead (s : State) : State :=
  s.sxServe 0x02 anyBody (fun s m =>
    let r := s.sxReads m.src.ip (leNat m.body 0 4) (leNat m.body 4 4) []
    r.2.sxReply m sxOk (wordBytes r.1))

/-- Pairs in order up to the first refused (R415): how many were written, and whether all were. Each is in a cycle of its own. -/
def State.sxWrites (s : State) (ip : Nat) : Nat → List (Nat × Nat) → State × Nat × Bool
  | i, [] => (s, i, true)
  | i, p :: r =>
    let t := s.finish.busWrite (.sextant ip) p.1 (BitVec.ofNat 32 p.2) 4
    if t.refusals ≠ 0 then (t, i, false) else State.sxWrites t ip (i + 1) r

/-- Pairs are written and answered; a pair that resets the core leaves no one to answer. -/
def State.sxCommit (s : State) (m : SxMsg) (ps : List (Nat × Nat)) : State :=
  let r := s.sxWrites m.src.ip 0 ps
  if r.1.cfg.stage = 0 then r.1 else r.1.sxReply m (if r.2.2 then sxOk else sxRefused) (leBytes r.2.1 4)

/-- WRITE (R415). -/
def State.sxWrite (s : State) : State := s.sxServe 0x03 anyBody (fun s m => s.sxCommit m (bodyPairs m.body 1 (leNat m.body 0 4)))

/-- GROUP_WRITE: held for its position, or answered LATE, RANGE or FULL (R416). -/
def State.groupWrite (s : State) : State :=
  s.sxServe 0x04 anyBody (fun s m =>
    let line := leNat m.body 6 2
    let pos : Int := ((leNat m.body 0 6 : Nat) - s.clk.frameOfs) * (s.clk.fu : Int) + (65536 * line : Nat)
    if !s.clk.run ∨ s.clk.lm ≤ line ∨ ((s.clk.vpos + 1024 * s.clk.fu : Nat) : Int) < pos then s.sxReply m sxRange [0, 0, 0, 0]
    else if pos ≤ (s.clk.vpos : Int) then (s.sxReply m sxLate [0, 0, 0, 0]).raise 0x010B 0
    else if 16 ≤ s.sx.groups.length then s.sxReply m sxFull [0, 0, 0, 0]
    else { s with sx := { s.sx with groups := s.sx.groups ++ [{ pos := pos.toNat, msg := m, pairs := bodyPairs m.body 3 (leNat m.body 8 4) }] } })

/-- Which of two group writes applies first: position, SEQ, source address byte by byte from its first (R416). -/
def GroupWr.key (g : GroupWr) : List Nat := [g.pos, g.msg.seq] ++ leBytes g.msg.src.ip 16

/-- The group write that is due first. -/
def firstGroup : List GroupWr → Option GroupWr
  | [] => none
  | g :: r => match firstGroup r with
    | some h => some (if listLt h.key g.key then h else g)
    | none => some g

/-- GROUP_WRITE_APPLY: at its position, after every decision there, a held message commits its pairs and is answered (R29, R416). -/
def State.groupApply (s : State) : State :=
  match firstGroup s.sx.groups with
  | none => s
  | some g =>
    match s.toPos 11 g.pos with
    | none => s
    | some s => ({ s with sx := { s.sx with groups := s.sx.groups.erase g } }).sxCommit g.msg g.pairs

/-- The words of a log entry (R418). -/
def LogEntry.words (e : LogEntry) : List Nat := [e.code + 65536 * e.detail, e.seq, e.frame, e.line * 65536 + e.frac]

/-- The log entry with a SEQ, while the ring holds it. -/
def State.logAt (s : State) (q : Nat) : Option LogEntry :=
  match s.log.ring.find? (fun e => e.1 == q % 1024) with
  | some (_, e) => if e.seq = q then some e else none
  | none => none

/-- EVENT_SUBSCRIBE: a subscription of an address and port is granted, renewed or, with a lease of 0, cancelled; a ninth is answered FULL
(R419). -/
def State.eventSubscribe (s : State) : State :=
  s.sxServe 0x10 anyBody (fun s m =>
    let lease := leNat m.body 4 4
    let mine := fun (x : SxSub) => x.src.ip == m.src.ip && x.src.udp == m.src.udp
    let old := s.sx.subs.find? mine
    let rest := s.sx.subs.filter (fun x => !mine x)
    if lease = 0 then ({ s with sx := { s.sx with subs := rest } }).sxReply m sxOk (leBytes 0 4)
    else if old.isNone ∧ 8 ≤ rest.length then s.sxReply m sxFull (leBytes 0 4)
    else
      let x : SxSub := { src := m.src, ver := m.ver, mask := leNat m.body 0 4, until_ := s.clk.ns + 1000000000 * lease
                         next := match old with | some o => o.next | none => s.log.head
                         sent := match old with | some o => o.sent | none => none }
      ({ s with sx := { s.sx with subs := rest ++ [x] } }).sxReply m sxOk (leBytes lease 4))

/-- EVENT_READ: the entries from a SEQ on that the ring still holds. -/
def State.eventRead (s : State) : State :=
  s.sxServe 0x11 anyBody (fun s m =>
    let es := (List.range (leNat m.body 4 4)).filterMap (fun i => s.logAt ((leNat m.body 0 4 + i) % 2 ^ 32))
    s.sxReply m sxOk (wordBytes (es.flatMap LogEntry.words)))

/-- EVENT_SEND: the entries that wait for subscriber i go out, at most 64, 10 ms or more after its last message (R419). The SEQ of an EVENT
message is open. -/
def State.eventSend (s : State) (i : Nat) : State :=
  match s.sx.subs[i]? with
  | none => s
  | some x =>
    let behind := min 1024 ((s.log.head + 2 ^ 32 - x.next) % 2 ^ 32)
    let first := (s.log.head + 2 ^ 32 - behind) % 2 ^ 32
    let qs := (List.range behind).map (fun k => (first + k) % 2 ^ 32)
    let es := (qs.filterMap s.logAt).filter (fun e => bitsOf x.mask (e.code / 256) (e.code / 256) == 1)
    let out := es.take 64
    match out.getLast? with
    | none => s
    | some e =>
      let s := match x.sent with | some t => s.toNs (t + 10000000) | none => s
      let x' := { x with next := if es.length ≤ 64 then s.log.head else (e.seq + 1) % 2 ^ 32, sent := some s.clk.ns }
      let s : State := { s with sx := { s.sx with subs := s.sx.subs.set i x' } }
      let (q, s) := s.free
      s.sxSend x.src x.ver 2 0x12 (q % 2 ^ 64) (leBytes sxOk 4 ++ wordBytes (out.flatMap LogEntry.words))

/-- LEASE_EXPIRY: a subscription ends with its lease (R419). -/
def State.leaseExpiry (s : State) : State :=
  match s.sx.subs with
  | [] => s
  | x :: r =>
    let s := s.toNs ((r.map (fun y => y.until_)).foldl min x.until_)
    { s with sx := { s.sx with subs := s.sx.subs.filter (fun y => decide (s.clk.ns < y.until_)) } }

/-- RESET: the reply, then the reset (R356, R413). -/
def State.sxReset (s : State) (code kind : Nat) : State :=
  s.sxServe 0x20 (fun b => leNat b 0 2 == code) (fun s m => (s.sxReply m sxOk []).resetTrigger kind 3)

/-- BINNACLE: an action of the island; a refused one is answered REFUSED (R397, R413). -/
def State.sxBinnacle (s : State) (code : Nat) : State :=
  s.sxServe 0x21 (fun b => leNat b 0 4 == code) (fun s m =>
    let t := match code with | 1 => s.mute false | 2 => s.unmute | _ => s.giveUp 7 0xFF 0 3
    t.sxReply m (if t.refusals = s.refusals then sxOk else sxRefused) [])

/-- FAULT_READ: records of the fault history (R400, R401). -/
def State.faultRead (s : State) : State :=
  s.sxServe 0x22 anyBody (fun s m =>
    s.sxReply m sxOk ((List.range (leNat m.body 4 4)).flatMap (fun i => s.faultBytes (leNat m.body 0 4 + i))))

/-- SETTINGS_READ: a block of the image that applies to this module, in the firmware's format where it has one (R369, R413). -/
def State.settingsRead (s : State) : State :=
  s.sxServe 0x30 anyBody (fun s m =>
    let b := s.imgByte
    let rs := (recsFrom b (imgLen b) 256 (imgLen b / 16 + 1)).getD []
    let l := (settingsOf s.pins.mid rs).filter (fun x => x.1 == leNat m.body 0 4)
    let pick := if s.cfg.img then (l.find? (fun x => x.2.1 == s.f F.CFG_SET_FMT_SETTINGS)).orElse (fun _ => l.head?) else none
    match pick with
    | none => s.sxReply m sxRange []
    | some (_, fmt, off, len) =>
      if (if m.ver = 1 then 1392 else 30200) < len then s.sxReply m sxRange []
      else s.sxReply m sxOk (leBytes fmt 4 ++ imgBytes b off len))

/-! ## Update messages (R385) -/

/-- UPD_OPEN. -/
def State.sxUpdOpen (s : State) (svOk : Bool) : State :=
  s.sxServe 0x40 anyBody (fun s m =>
    let r := s.updOpen (sxSource m.src) m.body svOk
    r.2.sxSend m.src m.ver 1 m.ty m.seq (wordBytes (r.2.sessionReply r.1)))

/-- UPD_PARCEL. -/
def State.sxUpdParcel (s : State) (flashOk svOk : Bool) : State :=
  s.sxServe 0x41 anyBody (fun s m =>
    let r := s.updParcel (sxSource m.src) m.body flashOk svOk
    r.2.sxSend m.src m.ver 1 m.ty m.seq (wordBytes [r.1 + 65536 * (leNat m.body 4 4 % 4096), if r.2.updState = 0 then 0 else r.2.updHeld]))

/-- UPD_STATUS. -/
def State.sxUpdStatus (s : State) : State :=
  s.sxServe 0x42 anyBody (fun s m => s.sxSend m.src m.ver 1 m.ty m.seq (wordBytes (s.sessionReply upOk)))

/-- UPD_CANCEL. -/
def State.sxUpdCancel (s : State) : State :=
  s.sxServe 0x43 anyBody (fun s m =>
    let r := s.updCancel (sxSource m.src) m.body
    r.2.sxReply m r.1 [])

end Sys2Proof.Machine
end

