-- ==== Sys2Proof/Machine/Svc.lean ====
section
/-!
DEFINITION. Sys2Proof/Machine/Svc.lean: the service port (R403-R406), MDIO and the management links (R407), the PCIe endpoint (R420-R422).
-/

namespace Sys2Proof.Machine

/-! ## Service port (R403, R404) -/

/-! Status codes of a read phase (R404). -/
def svcOk : Nat := 0
def svcNotReady : Nat := 2
def svcNoAccess : Nat := 3
def svcRefused : Nat := 4
def svcPec : Nat := 5
def svcKey : Nat := 6

/-- A transaction: the port answers from t0 + 5 ms (R403); with BIN_SVC_CTL.PEC a bad PEC byte discards the command (R403). -/
def State.svcDo (s : State) (pecOk : Bool) (op : State → State) : State :=
  if s.isl.dead then s
  else
    let s := s.toNs 5000000
    if s.on F.BIN_SVC_CTL_PEC && !pecOk then s.emit (.svc svcPec []) else op s

/-- Is an address that of an island register (R404)? -/
def isIsland (a : Nat) : Bool := decide (0x10000 ≤ a) && decide (a < 0x10100)

/-- SVC_READ (R404): an island register at once; any other below 0x0080_0000 after `early` read phases that find it NOT_READY; with the
core rails off NO_ACCESS (R398); a window or an address that is no multiple of 4 NO_ACCESS (R440). -/
def State.svcRead (s : State) (a early : Nat) : State :=
  if a % 4 ≠ 0 ∨ 0x800000 ≤ a then s.emit (.svc svcNoAccess [])
  else if isIsland a then s.emit (.svc svcOk (leBytes (s.busRead .service a).1.toNat 4))
  else if s.dark then s.emit (.svc svcNoAccess [])
  else ({ s with out := s.out ++ List.replicate early (Out.svc svcNotReady []) }).emit (.svc svcOk (leBytes (s.busRead .service a).1.toNat 4))

/-- A write of an island register over the service port, answered OK or, where it is refused under R7, REFUSED (R404). -/
def State.svcPut (s : State) (a : Nat) (v : Word) : State :=
  let t := s.busWrite .service a v 4
  t.emit (.svc (if t.refusals = s.refusals then svcOk else svcRefused) [])

/-- SVC_WRITE (R404): island registers only. -/
def State.svcWrite (s : State) (a : Nat) (v : Word) : State :=
  if isIsland a && a % 4 == 0 then s.svcPut a v else s.emit (.svc svcNoAccess [])

/-- An ACTION (R404): with its key 0xA5, 0xC3 it acts as BIN_CMD's bit does; a wrong key is answered KEY. -/
def State.svcAction (s : State) (action key : Nat) : State :=
  if key = 0xC3A5 then s.svcPut R.BIN_CMD (BitVec.ofNat 32 (binCmdWord action)) else s.emit (.svc svcKey [])

/-- SVC_FAULT: record i of the ring (R401, R404). -/
def State.svcFault (s : State) (i : Nat) : State :=
  if 2028 < i then s.emit (.svc svcNoAccess []) else s.emit (.svc svcOk (s.faultBytes i))

/-- The digest that a key slot holds; none while it is blank. -/
def State.keySlot (s : State) (k : Nat) : List Nat := Tab.get (fun _ => ([] : List Nat)) s.keys k

/-- KEYSLOT (R405): a programmed slot is answered REFUSED; else 20 ms of programming start, in which read phases return NOT_READY. The
answer for a slot number other than 0 and 1 is open. -/
def State.svcKeyslot (s : State) (k : Nat) (digest : List Nat) : State :=
  if 1 < k then let (v, s) := s.free; s.emit (.svc (v % 256) [])
  else if !(s.keySlot k).isEmpty then s.emit (.svc svcRefused [])
  else if s.isl.keyAt.isSome then s.emit (.svc svcNotReady [])
  else ({ s with isl := { s.isl with keyAt := some (k, (List.range 48).map (fun i => digest.getD i 0 % 256), s.clk.ns + 20000000) } }).emit
    (.svc svcNotReady [])

/-- KEYSLOT_PROGRAMMED: the slot holds the digest, event 0x010D is raised, and the next read phase returns OK (R405). -/
def State.keyslotDone (s : State) : State :=
  match s.isl.keyAt with
  | none => s
  | some (k, d, t) =>
    let s := s.toNs t
    ((({ s with isl := { s.isl with keyAt := none }, keys := if (s.keySlot k).isEmpty then Tab.put (fun _ => ([] : List Nat)) s.keys k d else s.keys }).raise 0x010D k)).emit (.svc svcOk [])

/-- SVC_BUS_TIMEOUT: SCL has been low for 25 ms: the bus is released and the transaction discarded (R403). -/
def State.svcTimeout (s : State) : State := if s.isl.dead then s else s.emit .svcRelease

/-! ## MDIO and the management links (R407) -/

/-- MDIO_COMPLETE: the access ends: GO reads 0; a read access leaves the PHY's word in DATA. -/
def State.mdioDone (s : State) (data : Nat) : State :=
  if !s.on F.BIN_MDIO_CMD_GO then s
  else
    let s := s.setF F.BIN_MDIO_CMD_GO 0
    if s.on F.BIN_MDIO_CMD_READ then s.setF F.BIN_MDIO_CMD_DATA data else s

/-- The word of BIN_MDIO_CMD that starts an access. -/
def mdioWord (phy reg : Nat) (read : Bool) (data : Nat) : Word :=
  BitVec.ofNat 32 (phy % 32 + reg % 32 * 32 + (if read then 1024 else 0) + 2048 + data % 65536 * 65536)

/-- MGT_LINK_CHANGE: the link of a management port; with the core rails off the ports are down (R398, R407). -/
def State.mgtLink (s : State) (m : Nat) (up : Bool) : State :=
  if s.dark then s
  else match m with
    | 0 => s.setF F.BIN_MGT_STATUS_LINK (if up then 1 else 0)
    | 1 => s.setF F.BIN_MGT_STATUS_LINK_1 (if up then 1 else 0)
    | _ => s

/-- Does management port m answer ARP, ND and echo requests (R407)? -/
def State.mgtResponds (s : State) (m : Nat) : Bool :=
  !s.dark && decide (s.cfg.stage ≠ 0) && s.on F.BIN_MGT_CTL_RESP && (if m = 0 then s.on F.BIN_MGT_CTL_A_EN else s.on F.BIN_MGT_CTL_B_EN)

/-- An address of management port m: its IPv4 address, which 0 leaves out, or its IPv6 address (R407, R423). -/
def State.mgtOwn (s : State) (m : Nat) (ipv6 : Bool) (a : Nat) : Bool :=
  if ipv6 then a == addrOf true (fun w => (s.view (R.BIN_MGT_IPV6 m w)).toNat) 0 else a != 0 && a == s.rdn (R.BIN_MGT_IPV4 m)

/-- A management port answers a request, untagged (R407). -/
def State.mgtAnswer (s : State) (m vlan : Nat) (own : Bool) (r : Resp) : State :=
  if s.mgtResponds m && own && vlan == 0 then s.emit (.mgtResp m r) else s

/-- ARP_REQUEST on a port: 0 to 7 the Ethernet ports, 8 and 9 MGT_A and MGT_B (R285, R407). -/
def State.arpIn (s : State) (p vlan target sender : Nat) : State :=
  if p < 8 then s.arpRequest p vlan target sender else s.mgtAnswer (p - 8) vlan (s.mgtOwn (p - 8) false target) (.arpReply 0 sender)

/-- NEIGHBOUR_SOLICITATION on a port, numbered in the same way (R285, R407). -/
def State.solicitIn (s : State) (p vlan target sender : Nat) : State :=
  if p < 8 then s.neighbourSol p vlan target sender else s.mgtAnswer (p - 8) vlan (s.mgtOwn (p - 8) true target) (.neighbourAdvert 0 sender target)

/-- ECHO_REQUEST on a port, numbered in the same way; a management port answers ICMP_RATE requests a second too (R285, R407). -/
def State.echoIn (s : State) (p vlan : Nat) (ipv6 : Bool) (dst sender len : Nat) : State :=
  if p < 8 then s.echoRequest p vlan ipv6 dst sender len
  else
    let x := s.eth_ p
    let x := if x.echoNs + 1000000000 ≤ s.clk.ns then { x with echoNs := s.clk.ns, echoCnt := 0 } else x
    if decide (1500 < len) || !decide (x.echoCnt < s.f F.ETH_IGMP_ICMP_RATE) then s
    else if s.mgtResponds (p - 8) && s.mgtOwn (p - 8) ipv6 dst && vlan == 0 then
      (s.setEth p { x with echoCnt := x.echoCnt + 1 }).emit (.mgtResp (p - 8) (.echoReply 0 sender len))
    else s

/-! ## PCIe (R420–R422) -/

/-- PCIE_LINK_CHANGE: the link trains to a width (1, 2, 4 or 8) and a speed (1–5), or goes down; event 0x010C on a change (R420, R423). A link
that is down has width and speed 0. -/
def State.pcieLink (s : State) (up : Bool) (width speed : Nat) : State :=
  if s.dark then s
  else
    let v := if up then 1 + width % 16 * 2 + speed % 8 * 32 else 0
    if s.rdn R.BIN_PCIE_STATUS = v then s else (s.wrn R.BIN_PCIE_STATUS v).raise 0x010C 0

/-- PERST_N: the endpoint alone is reset: its copy of GLB_WIN_CTL, what its vectors have sent (R356, R421, R445). -/
def State.perst (s : State) : State := { s with sx := { s.sx with pcieWin := 0, msix := [] }, log := { s.log with vecs := [] } }

/-- Is the byte of HBM in a stack that answers? -/
def State.hbmUp (s : State) (a : Nat) : Bool := s.ready (fnHbm (stackOf a))

/-- The bytes of a BAR4 read: a hole reads 0 (R299); what a stack that is not READY returns is open. -/
def State.bar4Bytes (s : State) (a : Nat) : Nat → List Nat × State
  | 0 => ([], s)
  | n + 1 =>
    if inHole a || s.hbmUp a then let r := State.bar4Bytes s (a + 1) n; ((s.hbmByte a).toNat :: r.1, r.2)
    else
      let (v, t) := s.free
      let r := State.bar4Bytes t (a + 1) n
      (v % 256 :: r.1, r.2)

/-- The bytes of a BAR4 write: ignored in a hole (R299) and in a stack that is not READY. -/
def State.bar4Put (s : State) (a : Nat) : List Nat → State
  | [] => s
  | b :: r => State.bar4Put (if s.hbmUp a then s.hbmSet a (BitVec.ofNat 8 b) else s) (a + 1) r

/-- BAR4_ACCESS: a read of `n` bytes, or a write of `data`, at an HBM byte address (R420, R421); an access that reaches a hole is counted
(R299). -/
def State.bar4 (s : State) (a : Nat) (write : Bool) (n : Nat) (data : List Nat) : State :=
  if s.dark then s
  else
    let len := if write then data.length else n
    let s := if (List.range len).any (fun i => inHole (a + i)) then s.holeAccess else s
    if write then s.bar4Put a data
    else
      let r := s.bar4Bytes a n
      r.2.emit (.bar4 r.1)

/-- MSIX_VECTOR_FIRE: a vector that is due fires, no sooner than BIN_MSIX_GAP µs after its last message; what came within the gap shares the
message (R422). -/
def State.msixFire (s : State) (v : Nat) : State :=
  if s.dark || !s.log.vecs.contains v then s
  else
    let s := match Tab.get (fun _ => (none : Option Nat)) s.sx.msix v with
      | some t => s.toNs (t + 1000 * s.f F.BIN_MSIX_GAP_US)
      | none => s
    ({ s with log := { s.log with vecs := s.log.vecs.filter (fun x => x != v) }
              sx := { s.sx with msix := Tab.put (fun _ => (none : Option Nat)) s.sx.msix v (some s.clk.ns) } }).emit (.msix v)

end Sys2Proof.Machine
end

