-- ==== Sys2Proof/Machine/Dep.lean ====
section
/-!
DEFINITION. Sys2Proof/Machine/Dep.lean: functions that start once their dependencies are READY, and what becomes of them when one is lost (R14,
R373); staged settings at a frame start (R15).
-/

namespace Sys2Proof.Machine

/-! ## FUNCTION_READY (R14, R373) -/

/-- A function that depends on nothing but what `ok` says enters READY. -/
def State.readyIf (s : State) (f : Nat) (ok : Bool) : State := if s.fn f == .starting && ok then s.setFn f .ready else s

/-- The Meridian is STARTING until a source locks (R40). -/
def State.merReady (s : State) : State := if s.fn fnMer == .starting && s.f F.MER_STATUS_SRC == 0 then s.chooseAgain else s

/-- The Dispatcher, once the start test is over and the stack of its Logbook is READY; its region is kept or initialised first (R210). -/
def State.disReady (s : State) : State :=
  if s.fn fnDis == .starting && !s.dis.testing && s.ready (fnHbm (stackOf s.lbAddr)) then
    (if s.dis.headerDue then s.lbStart else s).setFn fnDis .ready
  else s

/-- A port's transmit half: the lane PLL of each of its quads is LOCKED (R287). -/
def State.ethReady (s : State) (p : Nat) : State :=
  let qs := s.portQuads false p
  if s.fn (fnEth p) == .starting && !qs.isEmpty && qs.all (fun q => s.f (F.CKG_LPLL_STATUS_STATE q) == 4) then
    (s.setF (F.ETH_PORT_STATUS_TX_READY p) 1).setFn (fnEth p) .ready
  else s

/-- The flow groups that a decode context's flows come in on. -/
def State.ctxGroups (s : State) (x : Nat) : List Nat :=
  (s.ingFlows.filter (fun f => bitsOf (s.ftw f 0) 3 1 == s.ctxType x && ftTarget (s.ftw f 1) == x)).map (fun f => fnIng (ftPort (s.ftw f 0)))

/-- A decode context, once its flow groups and its stack are READY. -/
def State.ctxReady (s : State) (x : Nat) : State :=
  if s.fn (fnDec x) == .starting && s.ready (fnHbm (s.f (F.DEC_CTX_CTL_STACK x))) && (s.ctxGroups x).all s.ready then
    s.setFn (fnDec x) .ready
  else s

/-- A composition, once the Meridian and every stack of its layers and its Mesh Table are READY; its pictures start with the next
frame (R14, R126). -/
def State.compReady (s : State) (c : Nat) : State :=
  if s.fn (fnComp c) == .starting && s.ready fnMer && (s.compStacks c).all (fun st => s.ready (fnHbm st)) then
    (s.setCmp c { s.cmp c with startV := s.clk.vpos, started := false }).setFn (fnComp c) .ready
  else s

/-- FUNCTION_READY: function f enters READY once its own start and every dependency are complete. The functions that another row starts
(PTP, configuration, the stacks, the Staord ports) do not move here. -/
def State.functionReady (s : State) (f : Nat) : State :=
  if f = fnMer then s.merReady
  else if f = fnDis then s.disReady
  else if f = fnTwn then s.twinRoleStart
  else if f = fnCnv then s.readyIf fnCnv (s.ready fnMer && s.cnvUsed.all (fun p => s.ready (fnStaord p)))
  else if f = fnAud then s.audReady
  else if f = fnCal then s.readyIf fnCal s.calReady
  else if f < 12 then s
  else if f < 20 then s.ethReady (f - 12)
  else if f < 28 then s
  else if f < 36 then s.readyIf f (s.rxUp (f - 28))
  else if f < 52 then s.ctxReady (f - 36)
  else if f < 84 then s.compReady (f - 52)
  else if f < 116 then s.channelReady (f - 84)
  else if f < 124 then s.readyIf f (s.ready (fnEth (f - 116)) && s.ready fnMer)
  else s

/-! ## DEPENDENCY_NOT_READY (R14) -/

/-- Has function f taken up its work, so that a lost dependency reaches it? -/
def State.working (s : State) (f : Nat) : Bool := s.fn f == .ready || s.fn f == .draining || s.fn f == .pendingRestart

/-- Does the channel set in force of channel c warp? -/
def State.warps (s : State) (c : Nat) : Bool := ((s.cmp c).current 8).en

/-- DEPENDENCY_NOT_READY: what function f does where a dependency of it is not READY. Ingest groups, and a layer's stack, have their
substitution rules; the twin function has rules of its own (R239, R242, R253). -/
def State.dependencyLost (s : State) (f : Nat) : State :=
  if f = fnCnv then
    (if s.working f && !(s.ready fnMer && s.cnvUsed.all (fun p => s.ready (fnStaord p))) then s.setFn f .starting else s)
  else if f = fnAud then (if !(s.ready fnMer && s.f (F.CKG_CPLL_STATUS_STATE 10) == 4) then s.audFall else s)
  else if 36 ≤ f ∧ f < 52 then
    (if s.working f && !s.ready (fnHbm (s.f (F.DEC_CTX_CTL_STACK (f - 36)))) then
      ((s.setCtx (f - 36) { s.ctx (f - 36) with running := none }).setF (F.DEC_CTX_STATUS_B2_0 (f - 36)) 4).setFn f .fault
    else s)
  else if 52 ≤ f ∧ f < 84 then
    let mesh := s.warps (f - 52) && !s.ready (fnHbm (stackOf (s.rd64 R.HBM_MESH_ADDR_LO R.HBM_MESH_ADDR_HI)))
    if s.working f && (!s.ready fnMer || mesh) then s.setFn f .fault else s
  else if 84 ≤ f ∧ f < 116 then (if s.working f && !(s.encDeps (f - 84)).all s.ready then s.encFault (f - 84) else s)
  else if 116 ≤ f ∧ f < 124 then
    (if s.working f && !(s.ready (fnEth (f - 116)) && s.ready fnMer) then (s.portDown (f - 116)).setFn f .starting else s)
  else s

/-! ## Staged settings (R15, R29, R218) -/

/-- The staged registers that take effect at a frame start of channel c: the channel's own, its origin, those of the inputs
it times. -/
def State.stagedOf (s : State) (c : Nat) : List Nat :=
  let mine := fun (a : Nat) =>
    (decide (R.ENC_CH_CTL c ≤ a) && decide (a < R.ENC_CH_CTL (c + 1))) || a == R.MER_CH_ORIGIN c
      || (List.range 64).any (fun i => s.f (F.ING_IN_CTL_CH i) == c && decide (R.ING_IN_CTL i ≤ a) && decide (a < R.ING_IN_CTL (i + 1)))
  (s.held.map (fun e => e.1)).filter mine

/-- STAGED_SETTINGS_APPLY: at the next frame start of channel c, in decision class 2, what was written strictly before it takes effect, and
flows start and stop (R15, R218). -/
def State.stagedApply (s : State) (c : Nat) : State :=
  match s.toChanStart 2 c with
  | none => s
  | some (t, _, d) => (((t.inputLatches c d).stagedOf c).foldl (fun (t : State) a => t.applyHeld a d) (t.inputLatches c d)).egsApply c d

end Sys2Proof.Machine
end

