-- ==== Sys2Proof/Machine/Run.lean ====
section
/-!
DEFINITION. Sys2Proof/Machine/Run.lean: the last operations that meanings are written over: index operands, the COMMIT registers, a packet from
the network, a poisoned burst.
-/

namespace Sys2Proof.Machine

/-- An operand that names an instance acts where that instance exists; a command for an instance that does not exist changes nothing
(assumption 14). -/
def State.idx (s : State) (i n : Nat) (op : State → State) : State := if i < n then op s else s

/-- The COMMIT register of set j of channel c: 0 to 7 the layers, 8 the channel set (R128). -/
def commitAddr (c j : Nat) : Nat := if j = 8 then R.COMP_CH_COMMIT c else R.COMP_CH_L_COMMIT c j

/-- COMMIT, with a fence or without (R110, R128). -/
def commitWord (fence : Option Nat) : Word :=
  match fence with
  | some k => BitVec.ofNat 32 (0x300 + k % 256)
  | none => 0x200

/-- A packet of an ingest flow (R84–R92); audio that the merge kept goes to its stream (R328). -/
def State.packetIn (s : State) (p : IngPacket) : State :=
  match s.ingPacket p with
  | (t, some (r, ts, samples)) => t.rxPacket r ts samples
  | (t, none) => t

/-- Does an address name a burst of a READY stack? -/
def State.burstIn (s : State) (a : Nat) : Bool := decide (a < 2 ^ 38) && !inHole a && s.ready (fnHbm (stackOf a))

/-- UNCORRECTABLE_READ: the burst is recorded; it reads as zeros from then on until it is written (R313, R446); a check's scan ends (R434). -/
def State.poisoned (s : State) (a requester : Nat) : State :=
  if !s.burstIn a then s
  else
    let t := (s.eccUncorrectable a requester).hbmPutBytes (a / 32 * 32) (List.replicate 32 0)
    if requester = 74 then t.checkError a else t

/-- Nothing waits: one edge of MTCLK passes (R32; assumption 1). -/
def State.tick (s : State) : State := s.begin.elapse 1

end Sys2Proof.Machine
end

