-- ==== Sys2Proof/Machine/ExecAud.lean ====
section
/-!
DEFINITION. Sys2Proof/Machine/ExecAud.lean: the meanings of the commands of audio (R321-R339).
-/

namespace Sys2Proof.Machine

/-- AUDIO_ENABLE (R322). -/
def execAudioEnable (s : State) : Host.Outcome State Fault Refusal := s.run fun s => s.ctlWrite F.AUD_CTL_EN 1

/-- AUDIO_LOOP_EVALUATE (R324). -/
def execAudioLoopEvaluate (obs : Int) (s : State) : Host.Outcome State Fault Refusal := s.run fun s => s.audLoop obs

/-- AES3_BLOCK (R326). -/
def execAes3Block (i stamp frames : Nat) (ppm : Int) (data : List AesFrame) (csA csB : List Nat) (s : State) : Host.Outcome State Fault Refusal :=
  s.run fun s => s.idx i 8 fun s => s.aes3Block i stamp frames ppm data csA csB

/-- TDM_BLOCK (R326). -/
def execTdmBlock (t stamp : Nat) (data : List (List Nat)) (s : State) : Host.Outcome State Fault Refusal :=
  s.run fun s => s.idx t 4 fun s => s.tdmBlock t stamp data

/-- TDM_SLAVE_LOCK_LOSS (R334). -/
def execTdmSlaveLockLoss (t : Nat) (s : State) : Host.Outcome State Fault Refusal := s.run fun s => s.idx t 4 fun s => s.tdmLoss t

/-- AUDIO_BLOCK_DECISION (R331). -/
def execAudioBlockDecision (u : Nat) (s : State) : Host.Outcome State Fault Refusal := s.run fun s => s.idx u 80 fun s => s.audDecide u

/-- TDM_MASK_COMMIT (R335). -/
def execTdmMaskCommit (t : Nat) (s : State) : Host.Outcome State Fault Refusal :=
  s.run fun s => s.idx t 4 fun s => s.ctlWrite (F.AUD_TDM_CMD_COMMIT t) 1

/-- TDM_MASK_APPLY (R335). -/
def execTdmMaskApply (t : Nat) (s : State) : Host.Outcome State Fault Refusal := s.run fun s => s.idx t 4 fun s => s.tdmApply t

/-- AUDIO_OUTPUT_ENABLE (R336). -/
def execAudioOutputEnable (u : Nat) (s : State) : Host.Outcome State Fault Refusal :=
  s.run fun s => s.idx u 80 fun s => s.ctlWrite (outCtl u) 1

/-- AUDIO_OUTPUT_DISABLE (R336). -/
def execAudioOutputDisable (u : Nat) (s : State) : Host.Outcome State Fault Refusal :=
  s.run fun s => s.idx u 80 fun s => s.ctlWrite (outCtl u) 0

/-- AUDIO_OUTPUT_DRAINED (R336). -/
def execAudioOutputDrained (u : Nat) (s : State) : Host.Outcome State Fault Refusal := s.run fun s => s.idx u 80 fun s => s.outDrained u

/-- WRITE_TX (R337). -/
def execWriteTx (t : Nat) (s : State) : Host.Outcome State Fault Refusal :=
  s.run fun s => s.idx t 64 fun s => s.busWrite .pcie R.AUD_CMD (BitVec.ofNat 32 (0x100 + t)) 4

/-- AUDIO_PACKET_DEPARTURE (R337). -/
def execAudioPacketDeparture (t : Nat) (s : State) : Host.Outcome State Fault Refusal := s.run fun s => s.idx t 64 fun s => s.audDepart t

/-- AES3_INPUT_LOSS (R327). -/
def execAes3InputLoss (i : Nat) (s : State) : Host.Outcome State Fault Refusal := s.run fun s => s.idx i 8 fun s => s.aes3Loss i

end Sys2Proof.Machine
end

