-- ==== Sys2Proof/Machine/ExecBin.lean ====
section
/-!
DEFINITION. Sys2Proof/Machine/ExecBin.lean: the meanings of the commands of Binnacle and the service port (R394-R407).
-/

namespace Sys2Proof.Machine

/-- BIN_CMD_MUTE (R397). -/
def execBinCmdMute (s : State) : Host.Outcome State Fault Refusal := s.run fun s => s.busWrite .pcie R.BIN_CMD 0xA5C30001 4

/-- BIN_CMD_UNMUTE (R397). -/
def execBinCmdUnmute (s : State) : Host.Outcome State Fault Refusal := s.run fun s => s.busWrite .pcie R.BIN_CMD 0xA5C30002 4

/-- BIN_CMD_GIVE_UP (R250). -/
def execBinCmdGiveUp (s : State) : Host.Outcome State Fault Refusal := s.run fun s => s.busWrite .pcie R.BIN_CMD 0xA5C30004 4

/-- BIN_CMD_WARM (R356). -/
def execBinCmdWarm (s : State) : Host.Outcome State Fault Refusal := s.run fun s => s.busWrite .pcie R.BIN_CMD 0xA5C30008 4

/-- BIN_CMD_COLD (R356). -/
def execBinCmdCold (s : State) : Host.Outcome State Fault Refusal := s.run fun s => s.busWrite .pcie R.BIN_CMD 0xA5C30010 4

/-- BIN_CMD_SHUTDOWN (R398). -/
def execBinCmdShutdown (s : State) : Host.Outcome State Fault Refusal := s.run fun s => s.busWrite .pcie R.BIN_CMD 0xA5C30020 4

/-- FAULT_RECORD_WRITE (R401). -/
def execFaultRecordWrite (ok : Bool) (s : State) : Host.Outcome State Fault Refusal := s.run fun s => s.faultWrite ok

/-- SENSOR_READ (R398). -/
def execSensorRead (die hbm : List Int) (vin vstby : Nat) (rails : List Nat) (s : State) : Host.Outcome State Fault Refusal :=
  s.run fun s => s.sensorSample die hbm vin vstby rails

/-- SUPPLY_FAULT (R398). -/
def execSupplyFault (vin : Nat) (rail : Bool) (s : State) : Host.Outcome State Fault Refusal := s.run fun s => s.supplyFault vin rail

/-- SHUTDOWN_RECOVERY (R398). -/
def execShutdownRecovery (s : State) : Host.Outcome State Fault Refusal := s.run fun s => s.shutdownRecovery

/-- FIRMWARE_WATCHDOG_EXPIRY (R399). -/
def execFirmwareWatchdogExpiry (s : State) : Host.Outcome State Fault Refusal := s.run fun s => s.wdogExpiry

/-- WATCHDOG_KICK (R399). -/
def execWatchdogKick (s : State) : Host.Outcome State Fault Refusal := s.run fun s => s.busWrite .pcie R.BIN_WDOG_KICK 0 4

/-- SVC_READ (R404). -/
def execSvcRead (addr early : Nat) (pecOk : Bool) (s : State) : Host.Outcome State Fault Refusal :=
  s.run fun s => s.svcDo pecOk (fun t => t.svcRead addr early)

/-- SVC_WRITE (R404). -/
def execSvcWrite (addr : Nat) (value : Word) (pecOk : Bool) (s : State) : Host.Outcome State Fault Refusal :=
  s.run fun s => s.svcDo pecOk (fun t => t.svcWrite addr value)

/-- ACTION_MUTE (R404). -/
def execActionMute (key : Nat) (pecOk : Bool) (s : State) : Host.Outcome State Fault Refusal :=
  s.run fun s => s.svcDo pecOk (fun t => t.svcAction 0 key)

/-- ACTION_UNMUTE (R404). -/
def execActionUnmute (key : Nat) (pecOk : Bool) (s : State) : Host.Outcome State Fault Refusal :=
  s.run fun s => s.svcDo pecOk (fun t => t.svcAction 1 key)

/-- ACTION_GIVE_UP (R404). -/
def execActionGiveUp (key : Nat) (pecOk : Bool) (s : State) : Host.Outcome State Fault Refusal :=
  s.run fun s => s.svcDo pecOk (fun t => t.svcAction 2 key)

/-- ACTION_WARM (R404). -/
def execActionWarm (key : Nat) (pecOk : Bool) (s : State) : Host.Outcome State Fault Refusal :=
  s.run fun s => s.svcDo pecOk (fun t => t.svcAction 3 key)

/-- ACTION_COLD (R398). -/
def execActionCold (key : Nat) (pecOk : Bool) (s : State) : Host.Outcome State Fault Refusal :=
  s.run fun s => s.svcDo pecOk (fun t => t.svcAction 4 key)

/-- ACTION_SHUTDOWN (R404). -/
def execActionShutdown (key : Nat) (pecOk : Bool) (s : State) : Host.Outcome State Fault Refusal :=
  s.run fun s => s.svcDo pecOk (fun t => t.svcAction 5 key)

/-- SVC_FAULT (R404). -/
def execSvcFault (idx : Nat) (pecOk : Bool) (s : State) : Host.Outcome State Fault Refusal :=
  s.run fun s => s.svcDo pecOk (fun t => t.svcFault idx)

/-- KEYSLOT (R405). -/
def execKeyslot (slot : Nat) (digest : List Nat) (pecOk : Bool) (s : State) : Host.Outcome State Fault Refusal :=
  s.run fun s => s.svcDo pecOk (fun t => t.svcKeyslot slot digest)

/-- KEYSLOT_PROGRAMMED (R405). -/
def execKeyslotProgrammed (s : State) : Host.Outcome State Fault Refusal := s.runKey fun s => s.keyslotDone

/-- SVC_BUS_TIMEOUT (R403). -/
def execSvcBusTimeout (s : State) : Host.Outcome State Fault Refusal := s.run fun s => s.svcTimeout

/-- ALERT_RESPONSE (R406). -/
def execAlertResponse (s : State) : Host.Outcome State Fault Refusal := s.run fun s => s.alertResponse

/-- MDIO_COMMAND (R407). -/
def execMdioCommand (phy reg : Nat) (rd : Bool) (data : Nat) (s : State) : Host.Outcome State Fault Refusal :=
  s.run fun s => s.busWrite .pcie R.BIN_MDIO_CMD (mdioWord phy reg rd data) 4

/-- MDIO_COMPLETE (R407). -/
def execMdioComplete (data : Nat) (s : State) : Host.Outcome State Fault Refusal := s.run fun s => s.mdioDone data

/-- MGT_LINK_CHANGE (R407). -/
def execMgtLinkChange (m : Nat) (up : Bool) (s : State) : Host.Outcome State Fault Refusal := s.run fun s => s.mgtLink m up

end Sys2Proof.Machine
end

