-- ==== Sys2Proof/Machine/ExecCal.lean ====
section
/-!
DEFINITION. Sys2Proof/Machine/ExecCal.lean: the meanings of the commands of calibration and adaptive control (R340-R354).
-/

namespace Sys2Proof.Machine

/-- SIGHTING_RUN (R342). -/
def execSightingRun (kind inst : Nat) (s : State) : Host.Outcome State Fault Refusal :=
  s.run fun s => s.idx kind 4 fun s => s.idx inst 128 fun s => s.busWrite .pcie R.CAL_CMD (BitVec.ofNat 32 (0x8000 + 4 * inst + kind)) 4

/-- SIGHTING_TEMPERATURE_TRIGGER (R342). -/
def execSightingTemperatureTrigger (kind inst : Nat) (temp : Int) (s : State) : Host.Outcome State Fault Refusal :=
  s.run fun s => s.idx kind 4 fun s => s.idx inst 128 fun s => s.tempTrigger kind inst temp

/-- CALIBRATION_WINDOW_OPEN (R343). -/
def execCalibrationWindowOpen (s : State) : Host.Outcome State Fault Refusal := s.run fun s => s.windowOpen

/-- CALIBRATION_WINDOW_CLOSE (R343). -/
def execCalibrationWindowClose (s : State) : Host.Outcome State Fault Refusal := s.run fun s => s.windowShut

/-- SIGHTING_COMPLETE (R344). -/
def execSightingComplete (kind inst : Nat) (first second : List Int) (quality : List Nat) (temp : Int) (s : State) : Host.Outcome State Fault Refusal :=
  s.run fun s => s.idx kind 4 fun s => s.idx inst 128 fun s => s.sightComplete kind inst first second quality temp

/-- SIGHTING_STEP (R345). -/
def execSightingStep (kind inst : Nat) (s : State) : Host.Outcome State Fault Refusal :=
  s.run fun s => s.idx kind 4 fun s => s.idx inst 128 fun s => s.sightStep kind inst

/-- PLL_SIGHTING_PARK (R343). -/
def execPllSightingPark (s : State) : Host.Outcome State Fault Refusal := s.run fun s => s.pllSightings

/-- AVS_EVALUATE (R347). -/
def execAvsEvaluate (q margin : Nat) (s : State) : Host.Outcome State Fault Refusal :=
  s.run fun s => s.idx q 4 fun s => s.avsEvaluate q margin

/-- CLOCK_LOOP (R349). -/
def execClockLoop (s : State) : Host.Outcome State Fault Refusal := s.run fun s => s.clockLoop

end Sys2Proof.Machine
end

