-- ==== Sys2Proof/Machine/ExecCkg.lean ====
section
/-!
DEFINITION. Sys2Proof/Machine/ExecCkg.lean: the meanings of the commands of clock synthesis (R67-R81).
-/

namespace Sys2Proof.Machine

/-- PLL_LOCK (R70). -/
def execPllLock (p : Pll) (s : State) : Host.Outcome State Fault Refusal := s.run fun s => s.pllLock p

/-- PLL_RESYNC (R75). -/
def execPllResync (p : Pll) (s : State) : Host.Outcome State Fault Refusal := s.run fun s => s.pllResync p

/-- PLL_LOSS_OF_LOCK (R71). -/
def execPllLossOfLock (p : Pll) (err : Int) (s : State) : Host.Outcome State Fault Refusal := s.run fun s => s.pllLossOfLock p err

/-- PLL_LOSS_OF_REFERENCE (R71). -/
def execPllLossOfReference (p : Pll) (s : State) : Host.Outcome State Fault Refusal := s.run fun s => s.pllLossOfRef p

/-- RELOCK (R77). -/
def execRelock (m : Nat) (s : State) : Host.Outcome State Fault Refusal :=
  s.run fun s => s.busWrite .pcie R.CKG_CMD (BitVec.ofNat 32 (0x100 + m % 16)) 4

/-- PLL_FREQ_WRITE (R78). -/
def execPllFreqWrite (m : Nat) (freq : Word) (s : State) : Host.Outcome State Fault Refusal :=
  s.run fun s => s.idx m 11 fun s => s.busWrite .pcie (R.CKG_CPLL_FREQ m) freq 4

/-- CLKOUT_ENABLE (R80). -/
def execClkoutEnable (k : Nat) (s : State) : Host.Outcome State Fault Refusal :=
  s.run fun s => s.idx k 4 fun s => s.ctlWrite (F.CKG_CLKOUT_CTL_EN k) 1

/-- CLKOUT_DISABLE (R80). -/
def execClkoutDisable (k : Nat) (s : State) : Host.Outcome State Fault Refusal :=
  s.run fun s => s.idx k 4 fun s => s.ctlWrite (F.CKG_CLKOUT_CTL_EN k) 0

/-- CLKOUT_REALIGN (R80). -/
def execClkoutRealign (k : Nat) (s : State) : Host.Outcome State Fault Refusal := s.run fun s => s.idx k 4 fun s => s.clkoutRealign k

end Sys2Proof.Machine
end

