-- ==== Sys2Proof/Machine/ExecCnv.lean ====
section
/-!
DEFINITION. Sys2Proof/Machine/ExecCnv.lean: the meanings of the commands of canvas groups and Staord (R257-R276).
-/

namespace Sys2Proof.Machine

/-- CANVAS_ENABLE (R259). -/
def execCanvasEnable (s : State) : Host.Outcome State Fault Refusal := s.run fun s => s.ctlWrite F.CNV_CTL_EN 1

/-- CANVAS_REPORT (R262). -/
def execCanvasReport (s : State) : Host.Outcome State Fault Refusal := s.run fun s => s.canvasReport

/-- BUDGET_FLIT_RECEIVE (R265). -/
def execBudgetFlitReceive (port : Nat) (flit : BudgetFlit) (s : State) : Host.Outcome State Fault Refusal :=
  s.run fun s => s.idx port 8 fun s => s.budgetReceive port flit

/-- ROW_BUNDLE_SEND (R265). -/
def execRowBundleSend (s : State) : Host.Outcome State Fault Refusal := s.run fun s => s.rowBundle

/-- CANVAS_MASK_DEADLINE (R262). -/
def execCanvasMaskDeadline (s : State) : Host.Outcome State Fault Refusal := s.run fun s => s.maskDeadline

/-- MASK_BUNDLE_SEND (R265). -/
def execMaskBundleSend (s : State) : Host.Outcome State Fault Refusal := s.run fun s => s.maskBundle

/-- CANVAS_ALLOCATION (R267). -/
def execCanvasAllocation (s : State) : Host.Outcome State Fault Refusal := s.run fun s => s.canvasAllocation

/-- FLIT_RECEIVE (R273). -/
def execFlitReceive (port : Nat) (flit : Flit) (s : State) : Host.Outcome State Fault Refusal :=
  s.run fun s => s.idx port 8 fun s => s.flitReceive port flit

/-- REPLAY_TIMEOUT (R273). -/
def execReplayTimeout (port : Nat) (s : State) : Host.Outcome State Fault Refusal :=
  s.run fun s => s.idx port 8 fun s => s.replayTimeout port

/-- LINK_DELAY_MEASURE (R274). -/
def execLinkDelayMeasure (port : Nat) (rx : List (Nat × Nat × Nat)) (s : State) : Host.Outcome State Fault Refusal :=
  s.run fun s => s.idx port 8 fun s => s.linkMeasure port rx

/-- RELAY_FLIT_RECEIVE (R275). -/
def execRelayFlitReceive (port : Nat) (flit : RelayFlit) (s : State) : Host.Outcome State Fault Refusal :=
  s.run fun s => s.idx port 8 fun s => s.relayReceive port flit

/-- RELAY_REASSEMBLY_TIMEOUT (R275). -/
def execRelayReassemblyTimeout (s : State) : Host.Outcome State Fault Refusal := s.run fun s => s.relayTimeout

end Sys2Proof.Machine
end

