-- ==== Sys2Proof/Machine/ExecComp.lean ====
section
/-!
DEFINITION. Sys2Proof/Machine/ExecComp.lean: the meanings of the commands of composition (R106-R128).
-/

namespace Sys2Proof.Machine

/-- COMPOSITION_ENABLE (R108). -/
def execCompositionEnable (c : Nat) (s : State) : Host.Outcome State Fault Refusal :=
  s.run fun s => s.idx c 32 fun s => s.ctlWrite (F.COMP_CH_CTL_EN c) 1

/-- COMPOSITION_DISABLE (R14). -/
def execCompositionDisable (c : Nat) (s : State) : Host.Outcome State Fault Refusal :=
  s.run fun s => s.idx c 32 fun s => s.ctlWrite (F.COMP_CH_CTL_EN c) 0

/-- COMMIT (R109). -/
def execCommit (c set : Nat) (fence : Option Nat) (s : State) : Host.Outcome State Fault Refusal :=
  s.run fun s => s.idx c 32 fun s => s.idx set 9 fun s => s.busWrite .pcie (commitAddr c set) (commitWord fence) 4

/-- CANCEL (R109). -/
def execCancel (c set : Nat) (s : State) : Host.Outcome State Fault Refusal :=
  s.run fun s => s.idx c 32 fun s => s.idx set 9 fun s => s.busWrite .pcie (commitAddr c set) 0x400 4

/-- FENCE_WRITE (R110). -/
def execFenceWrite (k value : Nat) (s : State) : Host.Outcome State Fault Refusal :=
  s.run fun s => s.idx k 256 fun s => (s.busWrite .pcie (R.COMP_FENCE_LO k) (BitVec.ofNat 32 value) 4).busWrite .pcie (R.COMP_FENCE_HI k) (BitVec.ofNat 32 (value / 2 ^ 32)) 4

/-- FLIP_EVALUATION (R111). -/
def execFlipEvaluation (c : Nat) (s : State) : Host.Outcome State Fault Refusal := s.run fun s => s.idx c 32 fun s => s.flipEvaluation c

/-- MESH_CHECK_COMPLETE (R125). -/
def execMeshCheckComplete (c : Nat) (s : State) : Host.Outcome State Fault Refusal :=
  s.run fun s => s.idx c 32 fun s => s.meshCheckComplete c

/-- ROW_COMPOSITION (R127). -/
def execRowComposition (c : Nat) (s : State) : Host.Outcome State Fault Refusal := s.run fun s => s.idx c 32 fun s => s.rowComposition c

/-- SET_RETIRE (R113). -/
def execSetRetire (c : Nat) (s : State) : Host.Outcome State Fault Refusal := s.run fun s => s.idx c 32 fun s => s.setRetire c

/-- COMPOSITION_DRAINED (R14). -/
def execCompositionDrained (c : Nat) (s : State) : Host.Outcome State Fault Refusal := s.run fun s => s.idx c 32 fun s => s.compDrained c

end Sys2Proof.Machine
end

