-- ==== Sys2Proof/Machine/ExecEgs.lean ====
section
/-!
DEFINITION. Sys2Proof/Machine/ExecEgs.lean: the meanings of the commands of egress (R214-R234).
-/

namespace Sys2Proof.Machine

/-- EGRESS_ENABLE (R465). -/
def execEgressEnable (s : State) : Host.Outcome State Fault Refusal := s.run fun s => s.ctlWrite F.EGS_CTL_EN 1

/-- EGRESS_DISABLE (R465). -/
def execEgressDisable (s : State) : Host.Outcome State Fault Refusal := s.run fun s => s.ctlWrite F.EGS_CTL_EN 0

/-- EGS_FT_READ (R216). -/
def execEgsFtRead (flow : Nat) (s : State) : Host.Outcome State Fault Refusal :=
  s.run fun s => s.idx flow 65536 fun s => s.busWrite .pcie R.EGS_FT_CMD (BitVec.ofNat 32 (0x10000 + flow)) 4

/-- EGS_FT_WRITE (R216). -/
def execEgsFtWrite (flow : Nat) (s : State) : Host.Outcome State Fault Refusal :=
  s.run fun s => s.idx flow 65536 fun s => s.busWrite .pcie R.EGS_FT_CMD (BitVec.ofNat 32 (0x20000 + flow)) 4

/-- PORT_FREE (R225). -/
def execPortFree (p : Nat) (s : State) : Host.Outcome State Fault Refusal := s.run fun s => s.idx p 8 fun s => s.portFree p

/-- PACED_DEPARTURE (R232). -/
def execPacedDeparture (flow : Nat) (s : State) : Host.Outcome State Fault Refusal :=
  s.run fun s => s.idx flow 65536 fun s => s.pacedDeparture flow

/-- QUEUE_SAMPLE (R233). -/
def execQueueSample (s : State) : Host.Outcome State Fault Refusal :=
  s.run fun s => match s.toPos 10 s.nextSample with | some t => (t.applyHeld R.EGS_SAMPLE (t.clk.vpos / t.clk.fu * t.clk.fu)).sampleQueues | none => s

/-- SHAPER_ELIGIBLE (R227). -/
def execShaperEligible (p : Nat) (s : State) : Host.Outcome State Fault Refusal := s.run fun s => s.idx p 8 fun s => s.shaperEligible p

end Sys2Proof.Machine
end

