-- ==== Sys2Proof/Machine/ExecEnc.lean ====
section
/-!
DEFINITION. Sys2Proof/Machine/ExecEnc.lean: the meanings of the commands of encode channels, jobs and pipes (R129-R213).
-/

namespace Sys2Proof.Machine

/-- CHANNEL_ENABLE (R147). -/
def execChannelEnable (n : Nat) (s : State) : Host.Outcome State Fault Refusal :=
  s.run fun s => s.idx n 32 fun s => s.ctlWrite (F.ENC_CH_CTL_EN n) 1

/-- CHANNEL_READY (R147). -/
def execChannelReady (n : Nat) (s : State) : Host.Outcome State Fault Refusal := s.run fun s => s.idx n 32 fun s => s.channelReady n

/-- PICTURE_START (R139). -/
def execPictureStart (n : Nat) (s : State) : Host.Outcome State Fault Refusal := s.run fun s => s.idx n 32 fun s => s.pictureStart n

/-- RESTART (R141). -/
def execRestart (n : Nat) (s : State) : Host.Outcome State Fault Refusal :=
  s.run fun s => s.idx n 32 fun s => s.ctlWrite (F.ENC_CH_CMD_RESTART n) 1

/-- CHANNEL_DISABLE (R149). -/
def execChannelDisable (n : Nat) (s : State) : Host.Outcome State Fault Refusal :=
  s.run fun s => s.idx n 32 fun s => s.ctlWrite (F.ENC_CH_CTL_EN n) 0

/-- CHANNEL_DRAINED (R149). -/
def execChannelDrained (n : Nat) (s : State) : Host.Outcome State Fault Refusal := s.run fun s => s.idx n 32 fun s => s.encDrained n

/-- ROW_BUDGET (R181). -/
def execRowBudget (n : Nat) (s : State) : Host.Outcome State Fault Refusal := s.run fun s => s.idx n 32 fun s => s.rowBudget n

/-- JOB_NAMED (R194). -/
def execJobNamed (s : State) : Host.Outcome State Fault Refusal := s.run fun s => s.jobNamed

/-- JOB_START (R195). -/
def execJobStart (p : Nat) (s : State) : Host.Outcome State Fault Refusal := s.run fun s => s.idx p 64 fun s => s.jobStart p

/-- LATEST_START (R195). -/
def execLatestStart (job : Nat) (s : State) : Host.Outcome State Fault Refusal := s.run fun s => s.latestStart job

/-- COMPLETION_DEADLINE (R203). -/
def execCompletionDeadline (p : Nat) (s : State) : Host.Outcome State Fault Refusal :=
  s.run fun s => s.idx p 64 fun s => s.completionDeadline p

/-- JOB_COMPLETE (R201). -/
def execJobComplete (p : Nat) (overrun : Bool) (s : State) : Host.Outcome State Fault Refusal :=
  s.run fun s => s.idx p 64 fun s => s.jobComplete p overrun

/-- PIPE_FAULT_REPORT (R203). -/
def execPipeFaultReport (p cls : Nat) (s : State) : Host.Outcome State Fault Refusal := s.run fun s => s.idx p 64 fun s => s.pipeFault p cls

/-- REFERENCE_READ_UNCORRECTABLE (R168). -/
def execReferenceReadUncorrectable (read : RefRead) (s : State) : Host.Outcome State Fault Refusal :=
  s.run fun s => s.idx read.pipe 64 fun s => s.refUncorrectable read.pipe read.staged

/-- REPLAY_START (R204). -/
def execReplayStart (s : State) : Host.Outcome State Fault Refusal := s.run fun s => s.replayStart

/-- SPARE_NAMING (R192). -/
def execSpareNaming (s : State) : Host.Outcome State Fault Refusal := s.run fun s => s.spareNaming

/-- STAND_IN_DECISION (R202). -/
def execStandInDecision (n : Nat) (s : State) : Host.Outcome State Fault Refusal := s.run fun s => s.idx n 32 fun s => s.standInDecision n

/-- SLICE_RELEASE (R201). -/
def execSliceRelease (n : Nat) (s : State) : Host.Outcome State Fault Refusal := s.run fun s => s.idx n 32 fun s => s.sliceRelease n

/-- SEQUENCE_FREE (R200). -/
def execSequenceFree (n : Nat) (s : State) : Host.Outcome State Fault Refusal := s.run fun s => s.idx n 32 fun s => s.sequenceFree n

/-- UNRETIRE (R199). -/
def execUnretire (p : Nat) (s : State) : Host.Outcome State Fault Refusal :=
  s.run fun s => s.idx p 64 fun s => s.busWrite .pcie R.DIS_CMD (BitVec.ofNat 32 (0x100 + p)) 4

/-- PARK (R197). -/
def execPark (q : Nat) (s : State) : Host.Outcome State Fault Refusal :=
  s.run fun s => s.idx q 4 fun s => s.ctlWrite (F.DIS_QUAD_CTL_PARK q) 1

/-- UNPARK (R197). -/
def execUnpark (q : Nat) (s : State) : Host.Outcome State Fault Refusal :=
  s.run fun s => s.idx q 4 fun s => s.ctlWrite (F.DIS_QUAD_CTL_PARK q) 0

/-- QUADRANT_PARKED (R197). -/
def execQuadrantParked (q : Nat) (s : State) : Host.Outcome State Fault Refusal := s.run fun s => s.idx q 4 fun s => s.quadrantParked q

/-- THERMAL_PLACEMENT (R351). -/
def execThermalPlacement (temps : List Int) (s : State) : Host.Outcome State Fault Refusal := s.run fun s => s.thermalPlacement temps

/-- TRACK_CLEAR (R212). -/
def execTrackClear (s : State) : Host.Outcome State Fault Refusal := s.run fun s => s.ctlWrite F.DIS_TRK_CMD_CLEAR 1

/-- DIS_ENABLE (R210). -/
def execDisEnable (s : State) : Host.Outcome State Fault Refusal := s.run fun s => s.ctlWrite F.DIS_CTL_EN 1

/-- PIPE_START_TEST_COMPLETE (R360). -/
def execPipeStartTestComplete (failed : List Nat) (s : State) : Host.Outcome State Fault Refusal := s.run fun s => s.pipeTestDone failed

end Sys2Proof.Machine
end

