-- ==== Sys2Proof/Machine/ExecHbm.lean ====
section
/-!
DEFINITION. Sys2Proof/Machine/ExecHbm.lean: the meanings of the commands of the HBM stacks (R297-R320).
-/

namespace Sys2Proof.Machine

/-- HBM_STACK_ENABLE (R315). -/
def execHbmStackEnable (st : Nat) (s : State) : Host.Outcome State Fault Refusal :=
  s.run fun s => s.idx st 4 fun s => s.ctlWrite (F.HBM_S_CTL_EN st) 1

/-- HBM_TRAINING_COMPLETE (R315). -/
def execHbmTrainingComplete (st : Nat) (ok : Bool) (ms repairs : Nat) (s : State) : Host.Outcome State Fault Refusal :=
  s.run fun s => s.idx st 4 fun s => s.hbmTrained st ok ms repairs

/-- HBM_STACK_DISABLE (R318). -/
def execHbmStackDisable (st : Nat) (s : State) : Host.Outcome State Fault Refusal :=
  s.run fun s => s.idx st 4 fun s => s.ctlWrite (F.HBM_S_CTL_EN st) 0

/-- REFRESH (R307). -/
def execRefresh (st pc : Nat) (due : RefreshDue) (s : State) : Host.Outcome State Fault Refusal :=
  s.run fun s => s.idx st 4 fun s => s.idx pc 32 fun s => s.hbmRefresh st pc due.bank due.last due.reqs

/-- HBM_HOT_CHANGE (R307). -/
def execHbmHotChange (st : Nat) (celsius : Int) (s : State) : Host.Outcome State Fault Refusal :=
  s.run fun s => s.idx st 4 fun s => s.hbmTemp st celsius

/-- REFRESH_MANAGEMENT (R308). -/
def execRefreshManagement (st pc bank : Nat) (reqs : List HbmAcc) (s : State) : Host.Outcome State Fault Refusal :=
  s.run fun s => s.idx st 4 fun s => s.idx pc 32 fun s => s.hbmRfm st pc bank reqs

/-- THROTTLE_END (R309). -/
def execThrottleEnd (st pc requester : Nat) (s : State) : Host.Outcome State Fault Refusal :=
  s.run fun s => s.idx st 4 fun s => s.idx pc 32 fun s => s.throttleEnd st pc requester

/-- PROMOTION (R305). -/
def execPromotion (st pc : Nat) (due : AgeLimit) (s : State) : Host.Outcome State Fault Refusal :=
  s.run fun s => s.idx st 4 fun s => s.idx pc 32 fun s => s.promote st pc due.requester due.reqs

/-- ECC_CORRECTION (R312). -/
def execEccCorrection (addr : Nat) (s : State) : Host.Outcome State Fault Refusal :=
  s.run fun s => if s.burstIn addr then s.eccCorrect addr else s

/-- UNCORRECTABLE_READ (R313). -/
def execUncorrectableRead (addr requester : Nat) (s : State) : Host.Outcome State Fault Refusal := s.run fun s => s.poisoned addr requester

/-- PATROL_SCRUB (R314). -/
def execPatrolScrub (st : Nat) (result : ScrubResult) (s : State) : Host.Outcome State Fault Refusal :=
  s.run fun s => s.idx st 4 fun s => s.patrolScrub st result

/-- CA_PARITY_ERROR (R316). -/
def execCaParityError (st pc : Nat) (s : State) : Host.Outcome State Fault Refusal :=
  s.run fun s => s.idx st 4 fun s => s.idx pc 32 fun s => s.caParity st pc

end Sys2Proof.Machine
end

