-- ==== Sys2Proof/Machine/ExecIng.lean ====
section
/-!
DEFINITION. Sys2Proof/Machine/ExecIng.lean: the meanings of the commands of ingest and decode (R82-R105).
-/

namespace Sys2Proof.Machine

/-- INGEST_PACKET_RECEIVE (R84). -/
def execIngestPacketReceive (p : IngPacket) (s : State) : Host.Outcome State Fault Refusal := s.run fun s => s.packetIn p

/-- ING_FT_READ (R85). -/
def execIngFtRead (flow : Nat) (s : State) : Host.Outcome State Fault Refusal :=
  s.run fun s => s.idx flow 4096 fun s => s.busWrite .pcie R.ING_FT_CMD (BitVec.ofNat 32 (0x1000 + flow)) 4

/-- ING_FT_WRITE (R85). -/
def execIngFtWrite (flow : Nat) (s : State) : Host.Outcome State Fault Refusal :=
  s.run fun s => s.idx flow 4096 fun s => s.busWrite .pcie R.ING_FT_CMD (BitVec.ofNat 32 (0x2000 + flow)) 4

/-- LEG_LOSS (R88). -/
def execLegLoss (ty target : Nat) (s : State) : Host.Outcome State Fault Refusal :=
  s.run fun s => s.idx target 64 fun s => s.legLoss ty target

/-- INPUT_ENABLE (R89). -/
def execInputEnable (i : Nat) (s : State) : Host.Outcome State Fault Refusal :=
  s.run fun s => s.idx i 64 fun s => s.ctlWrite (F.ING_IN_CTL_EN i) 1

/-- INPUT_START (R103). -/
def execInputStart (i : Nat) (s : State) : Host.Outcome State Fault Refusal := s.run fun s => s.idx i 64 fun s => s.inputStart i

/-- ACCEPTANCE_WINDOW_CLOSE (R92). -/
def execAcceptanceWindowClose (i : Nat) (s : State) : Host.Outcome State Fault Refusal := s.run fun s => s.idx i 64 fun s => s.windowClose i

/-- INPUT_RESTART (R90). -/
def execInputRestart (i : Nat) (s : State) : Host.Outcome State Fault Refusal := s.run fun s => s.idx i 64 fun s => s.inputRestart i

/-- DECODE_CONTEXT_ENABLE (R97). -/
def execDecodeContextEnable (x : Nat) (s : State) : Host.Outcome State Fault Refusal :=
  s.run fun s => s.idx x 16 fun s => s.ctlWrite (F.DEC_CTX_CTL_EN x) 1

/-- ACCESS_UNIT_START (R98). -/
def execAccessUnitStart (engine : Nat) (s : State) : Host.Outcome State Fault Refusal :=
  s.run fun s => s.idx engine 4 fun s => s.unitStart engine

/-- ACCESS_UNIT_DECODED (R98). -/
def execAccessUnitDecoded (x : Nat) (info : AuInfo) (s : State) : Host.Outcome State Fault Refusal :=
  s.run fun s => s.idx x 16 fun s => s.unitDecoded x info

/-- DECODED_PICTURE_DECISION (R99). -/
def execDecodedPictureDecision (i : Nat) (s : State) : Host.Outcome State Fault Refusal :=
  s.run fun s => s.idx i 64 fun s => s.pictureDecision i

end Sys2Proof.Machine
end

