-- ==== Sys2Proof/Machine/ExecLne.lean ====
section
/-!
DEFINITION. Sys2Proof/Machine/ExecLne.lean: the meanings of the commands of serial lanes and Ethernet (R277-R296).
-/

namespace Sys2Proof.Machine

/-- QUAD_ENABLE (R278). -/
def execQuadEnable (q : Nat) (s : State) : Host.Outcome State Fault Refusal :=
  s.run fun s => s.idx q 16 fun s => s.ctlWrite (F.LNE_QUAD_CTL_EN q) 1

/-- QUAD_DISABLE (R278). -/
def execQuadDisable (q : Nat) (s : State) : Host.Outcome State Fault Refusal :=
  s.run fun s => s.idx q 16 fun s => s.ctlWrite (F.LNE_QUAD_CTL_EN q) 0

/-- SIGNAL_DETECT (R288). -/
def execSignalDetect (lane : Nat) (s : State) : Host.Outcome State Fault Refusal :=
  s.run fun s => s.idx lane 64 fun s => s.signalDetect lane

/-- CDR_LOCK (R288). -/
def execCdrLock (lane : Nat) (first second : List Int) (eye : List Nat) (temp : Int) (s : State) : Host.Outcome State Fault Refusal :=
  s.run fun s => s.idx lane 64 fun s => s.cdrLock lane first second eye temp

/-- TRAINING_WORD_RECEIVE (R289). -/
def execTrainingWordReceive (lane : Nat) (marker : List Nat) (errs : Nat) (s : State) : Host.Outcome State Fault Refusal :=
  s.run fun s => s.idx lane 64 fun s => s.trainingWord lane marker errs

/-- DESKEW_COMPLETE (R288). -/
def execDeskewComplete (staord : Bool) (port skew rxlat : Nat) (ok : Bool) (s : State) : Host.Outcome State Fault Refusal :=
  s.run fun s => s.idx port 8 fun s => s.deskew staord port skew rxlat ok

/-- FEC_LOCK (R290). -/
def execFecLock (staord : Bool) (port : Nat) (s : State) : Host.Outcome State Fault Refusal :=
  s.run fun s => s.idx port 8 fun s => s.fecLock staord port

/-- FEC_LOSS (R290). -/
def execFecLoss (staord : Bool) (port missing : Nat) (words : FecWords) (s : State) : Host.Outcome State Fault Refusal :=
  s.run fun s => s.idx port 8 fun s => s.fecLoss staord port missing words.uncorr words.corr

/-- STAGE_TIMEOUT (R288). -/
def execStageTimeout (staord : Bool) (port : Nat) (s : State) : Host.Outcome State Fault Refusal :=
  s.run fun s => s.idx port 8 fun s => s.stageTimeout staord port

/-- LANE_LOSS (R291). -/
def execLaneLoss (lane : Nat) (s : State) : Host.Outcome State Fault Refusal := s.run fun s => s.idx lane 64 fun s => s.laneLoss lane

/-- ALIGNMENT_MARKER_LOCK (R288). -/
def execAlignmentMarkerLock (lane : Nat) (inv : Bool) (s : State) : Host.Outcome State Fault Refusal :=
  s.run fun s => s.idx lane 64 fun s => s.alignmentLock lane inv

/-- ETH_FRAME_RECEIVE (R284). -/
def execEthFrameReceive (port : Nat) (fcsOk : Bool) (len vlan : Nat) (dstMac : Nat) (s : State) : Host.Outcome State Fault Refusal :=
  s.run fun s => s.idx port 8 fun s => s.ethFrame port fcsOk len vlan dstMac

/-- ARP_REQUEST (R285). -/
def execArpRequest (port vlan target sender : Nat) (s : State) : Host.Outcome State Fault Refusal :=
  s.run fun s => s.idx port 10 fun s => s.arpIn port vlan target sender

/-- NEIGHBOUR_SOLICITATION (R285). -/
def execNeighbourSolicitation (port vlan target sender : Nat) (s : State) : Host.Outcome State Fault Refusal :=
  s.run fun s => s.idx port 10 fun s => s.solicitIn port vlan target sender

/-- ECHO_REQUEST (R285). -/
def execEchoRequest (port vlan : Nat) (ipv6 : Bool) (dst sender len : Nat) (s : State) : Host.Outcome State Fault Refusal :=
  s.run fun s => s.idx port 10 fun s => s.echoIn port vlan ipv6 dst sender len

/-- MEMBERSHIP_QUERY (R286). -/
def execMembershipQuery (port vlan : Nat) (ipv6 older : Bool) (group : Option Nat) (maxMs timeoutMs : Nat) (s : State) : Host.Outcome State Fault Refusal :=
  s.run fun s => s.idx port 8 fun s => s.membershipQuery port vlan ipv6 older group maxMs timeoutMs

/-- QUERY_RESPONSE (R286). -/
def execQueryResponse (port : Nat) (s : State) : Host.Outcome State Fault Refusal :=
  s.run fun s => s.idx port 8 fun s => s.queryResponse port

/-- STATE_CHANGE_REPORT (R286). -/
def execStateChangeReport (port : Nat) (s : State) : Host.Outcome State Fault Refusal :=
  s.run fun s => s.idx port 8 fun s => s.stateChangeReport port

/-- ETH_FAULT (R287). -/
def execEthFault (port : Nat) (remote present : Bool) (s : State) : Host.Outcome State Fault Refusal :=
  s.run fun s => s.idx port 8 fun s => s.ethFault port remote present

/-- OLDER_QUERIER_TIMEOUT (R286). -/
def execOlderQuerierTimeout (port : Nat) (s : State) : Host.Outcome State Fault Refusal :=
  s.run fun s => s.idx port 8 fun s => s.olderTimeout port

end Sys2Proof.Machine
end

