-- ==== Sys2Proof/Machine/ExecMer.lean ====
section
/-!
DEFINITION. Sys2Proof/Machine/ExecMer.lean: the meanings of the commands of the Meridian and network time (R33-R66).
-/

namespace Sys2Proof.Machine

/-- MERIDIAN_ENABLE (R40). -/
def execMeridianEnable (s : State) : Host.Outcome State Fault Refusal := s.run fun s => s.ctlWrite F.MER_CTL_EN 1

/-- REF_IN_PULSE (R38). -/
def execRefInPulse (rising : Bool) (s : State) : Host.Outcome State Fault Refusal := s.run fun s => s.refInPulse rising

/-- REF_IN_MISS (R44). -/
def execRefInMiss (s : State) : Host.Outcome State Fault Refusal := s.run fun s => s.refInMiss

/-- MERIDIAN_FAILURE_ACTION (R46). -/
def execMeridianFailureAction (s : State) : Host.Outcome State Fault Refusal := s.run fun s => s.failureAction

/-- MERIDIAN_RESUME (R41). -/
def execMeridianResume (s : State) : Host.Outcome State Fault Refusal := s.run fun s => s.meridianResume

/-- SOURCE_REVERT (R39). -/
def execSourceRevert (s : State) : Host.Outcome State Fault Refusal := s.run fun s => s.sourceRevert

/-- FRAME_LOAD (R38). -/
def execFrameLoad (s : State) : Host.Outcome State Fault Refusal := s.run fun s => s.ctlWrite F.MER_CMD_LOAD 1

/-- SLEW_COMPLETE (R41). -/
def execSlewComplete (s : State) : Host.Outcome State Fault Refusal := s.run fun s => s.slewComplete

/-- TIME_FLIT_SEND (R48). -/
def execTimeFlitSend (s : State) : Host.Outcome State Fault Refusal := s.run fun s => s.timeFlitSend

/-- TIME_FLIT_RECEIVE (R48). -/
def execTimeFlitReceive (port : Nat) (flit : TimeFlit) (s : State) : Host.Outcome State Fault Refusal :=
  s.run fun s => s.idx port 8 fun s => s.timeFlitCompare port flit

/-- SYNC_RECEIVE (R55). -/
def execSyncReceive (h : PtpHdr) (t1 : Nat) (cf : Int) (logInt : Int) (s : State) : Host.Outcome State Fault Refusal :=
  s.run fun s => s.perDom h (fun t x => t.syncSample h t1 cf logInt x)

/-- ANNOUNCE_RECEIVE (R51). -/
def execAnnounceReceive (h : PtpHdr) (a : Announce) (s : State) : Host.Outcome State Fault Refusal :=
  s.run fun s => s.perDom h (fun t x => t.announce h a x)

/-- DELAY_RESP_RECEIVE (R55). -/
def execDelayRespReceive (h : PtpHdr) (t4 : Nat) (cf : Int) (logMin : Int) (s : State) : Host.Outcome State Fault Refusal :=
  s.run fun s => s.perDom h (fun t x => t.delayResp h t4 cf logMin x)

/-- DELAY_REQ_SEND (R51). -/
def execDelayReqSend (dom : Nat) (s : State) : Host.Outcome State Fault Refusal := s.run fun s => s.idx dom 2 fun s => s.delayReqSend dom

/-- PDELAY_REQ_SEND (R51). -/
def execPdelayReqSend (dom : Nat) (s : State) : Host.Outcome State Fault Refusal := s.run fun s => s.idx dom 2 fun s => s.pdelayReqSend dom

/-- PDELAY_REQ_RECEIVE (R51). -/
def execPdelayReqReceive (h : PtpHdr) (seq : Nat) (s : State) : Host.Outcome State Fault Refusal :=
  s.run fun s => s.perDom h (fun t x => t.pdelayReqReceive seq x)

/-- PDELAY_RESP_RECEIVE (R55). -/
def execPdelayRespReceive (h : PtpHdr) (t2p t3p : Nat) (cf : Int) (s : State) : Host.Outcome State Fault Refusal :=
  s.run fun s => s.perDom h (fun t x => t.pdelayResp t2p t3p cf x)

/-- ANNOUNCE_TIMEOUT (R57). -/
def execAnnounceTimeout (dom : Nat) (s : State) : Host.Outcome State Fault Refusal :=
  s.run fun s => s.idx dom 2 fun s => s.announceTimeout dom

/-- SYNC_TIMEOUT (R57). -/
def execSyncTimeout (dom : Nat) (s : State) : Host.Outcome State Fault Refusal := s.run fun s => s.idx dom 2 fun s => s.syncTimeout dom

/-- ACCEPT_A (R61). -/
def execAcceptA (s : State) : Host.Outcome State Fault Refusal := s.run fun s => s.ctlWrite F.PTP_CMD_ACCEPT_A 1

/-- PTP_DOMAIN_ENABLE (R52). -/
def execPtpDomainEnable (dom : Nat) (en : Bool) (s : State) : Host.Outcome State Fault Refusal :=
  s.run fun s => s.idx dom 2 fun s => s.ctlWrite (F.PTP_X_CTL_EN dom) (if en then 1 else 0)

/-- TOUT_ARM (R62). -/
def execToutArm (k : Nat) (value : Word) (s : State) : Host.Outcome State Fault Refusal :=
  s.run fun s => s.idx k 4 fun s => s.busWrite .pcie (R.PTP_TOUT_CTL k) value 4

/-- TOUT_DISARM (R63). -/
def execToutDisarm (k : Nat) (s : State) : Host.Outcome State Fault Refusal :=
  s.run fun s => s.idx k 4 fun s => s.ctlWrite (F.PTP_TOUT_CTL_MODE k) 0

/-- TOUT_PULSE (R64). -/
def execToutPulse (k : Nat) (s : State) : Host.Outcome State Fault Refusal := s.run fun s => s.idx k 4 fun s => s.toutPulse k

/-- TOUT_PULSE_END (R62). -/
def execToutPulseEnd (k : Nat) (s : State) : Host.Outcome State Fault Refusal := s.run fun s => s.idx k 4 fun s => s.toutPulseEnd k

/-- TIN_CAPTURE (R65). -/
def execTinCapture (j : Nat) (rising : Bool) (s : State) : Host.Outcome State Fault Refusal :=
  s.run fun s => s.idx j 2 fun s => s.tinCapture j rising

/-- TIN_CAPTURE_POP (R65). -/
def execTinCapturePop (path : BusPath) (j : Nat) (s : State) : Host.Outcome State Fault Refusal :=
  s.run fun s => s.idx j 2 fun s => s.readOut path (R.PTP_TIN_CTL j + 4)

end Sys2Proof.Machine
end

