-- ==== Sys2Proof/Machine/ExecObs.lean ====
section
/-!
DEFINITION. Sys2Proof/Machine/ExecObs.lean: the meanings of the commands of PCIe, snapshots, check units, windows (R420-R447).
-/

namespace Sys2Proof.Machine

/-- BAR4_ACCESS (R421). -/
def execBar4Access (addr : Nat) (write : Bool) (len : Nat) (data : List Nat) (s : State) : Host.Outcome State Fault Refusal :=
  s.run fun s => s.bar4 addr write len data

/-- MSIX_VECTOR_FIRE (R422). -/
def execMsixVectorFire (vector : Nat) (s : State) : Host.Outcome State Fault Refusal := s.run fun s => s.msixFire vector

/-- PCIE_LINK_CHANGE (R420). -/
def execPcieLinkChange (up : Bool) (width speed : Nat) (s : State) : Host.Outcome State Fault Refusal :=
  s.run fun s => s.pcieLink up width speed

/-- SNAPSHOT_COMMAND (R425). -/
def execSnapshotCommand (s : State) : Host.Outcome State Fault Refusal := s.run fun s => s.ctlWrite F.GLB_SNAP_CMD_NOW 1

/-- SNAPSHOT (R426). -/
def execSnapshot (s : State) : Host.Outcome State Fault Refusal := s.run fun s => s.snapshot

/-- SNAPSHOT_EPOCH_ADVANCE (R426). -/
def execSnapshotEpochAdvance (s : State) : Host.Outcome State Fault Refusal := s.run fun s => s.epochAdvance

/-- CHECK_START (R433). -/
def execCheckStart (u : Nat) (s : State) : Host.Outcome State Fault Refusal :=
  s.run fun s => s.idx u 4 fun s => s.ctlWrite (F.CHK_CMD_START u) 1

/-- CHECK_ABORT (R434). -/
def execCheckAbort (u : Nat) (s : State) : Host.Outcome State Fault Refusal :=
  s.run fun s => s.idx u 4 fun s => s.ctlWrite (F.CHK_CMD_ABORT u) 1

/-- CHECK_COMPLETE (R434). -/
def execCheckComplete (u : Nat) (s : State) : Host.Outcome State Fault Refusal := s.run fun s => s.idx u 4 fun s => s.checkComplete u

/-- WINDOW_READ (R446). -/
def execWindowRead (path : BusPath) (addr : Nat) (s : State) : Host.Outcome State Fault Refusal := s.run fun s => s.readOut path addr

/-- MESH_WINDOW_WRITE (R446). -/
def execMeshWindowWrite (path : BusPath) (addr : Nat) (value : Word) (s : State) : Host.Outcome State Fault Refusal :=
  s.run fun s => s.busWrite path addr value 4

end Sys2Proof.Machine
end

