-- ==== Sys2Proof/Machine/ExecReg.lean ====
section
/-!
DEFINITION. Sys2Proof/Machine/ExecReg.lean: the meanings of the commands of register writes and reads (R4-R9, R427), dependencies and staged settings (R14, R15).
-/

namespace Sys2Proof.Machine

/-- REGISTER_WRITE (R4). -/
def execRegisterWrite (path : BusPath) (addr : Nat) (value : Word) (size : Nat) (s : State) : Host.Outcome State Fault Refusal :=
  s.run fun s => s.busWrite path addr value size

/-- RC_REGISTER_READ (R4). -/
def execRcRegisterRead (path : BusPath) (addr : Nat) (s : State) : Host.Outcome State Fault Refusal := s.run fun s => s.readOut path addr

/-- WIDE_VALUE_LOW_READ (R9). -/
def execWideValueLowRead (path : BusPath) (addr : Nat) (s : State) : Host.Outcome State Fault Refusal := s.run fun s => s.readOut path addr

/-- SHADOW_READ (R427). -/
def execShadowRead (path : BusPath) (addr : Nat) (s : State) : Host.Outcome State Fault Refusal :=
  s.run fun s => s.readOut path (0x400000 + addr % 0x200000)

/-- DEPENDENCY_NOT_READY (R14). -/
def execDependencyNotReady (fn : Nat) (s : State) : Host.Outcome State Fault Refusal :=
  s.run fun s => s.idx fn 124 fun s => s.dependencyLost fn

/-- FUNCTION_READY (R14). -/
def execFunctionReady (fn : Nat) (s : State) : Host.Outcome State Fault Refusal := s.run fun s => s.idx fn 124 fun s => s.functionReady fn

/-- STAGED_SETTINGS_APPLY (R15). -/
def execStagedSettingsApply (ch : Nat) (s : State) : Host.Outcome State Fault Refusal :=
  s.run fun s => s.idx ch 32 fun s => s.stagedApply ch

end Sys2Proof.Machine
end

