-- ==== Sys2Proof/Machine/ExecRst.lean ====
section
/-!
DEFINITION. Sys2Proof/Machine/ExecRst.lean: the meanings of the commands of resets, start-up and configuration (R356-R375).
-/

namespace Sys2Proof.Machine

/-- POWER_ON_RESET (R356). -/
def execPowerOnReset (s : State) : Host.Outcome State Fault Refusal := s.run fun s => s.powerOn

/-- RST_N_LOW (R356). -/
def execRstNLow (s : State) : Host.Outcome State Fault Refusal := s.run fun s => s.rstLow

/-- PERST_N (R356). -/
def execPerstN (s : State) : Host.Outcome State Fault Refusal := s.run fun s => s.perst

/-- GLB_RESET_WARM (R356). -/
def execGlbResetWarm (s : State) : Host.Outcome State Fault Refusal := s.run fun s => s.busWrite .pcie R.GLB_RESET 0xA5C30001 4

/-- GLB_RESET_COLD (R356). -/
def execGlbResetCold (s : State) : Host.Outcome State Fault Refusal := s.run fun s => s.busWrite .pcie R.GLB_RESET 0xA5C30002 4

/-- FUNCTION_RESET (R358). -/
def execFunctionReset (fn : Nat) (s : State) : Host.Outcome State Fault Refusal :=
  s.run fun s => s.idx fn 128 fun s => s.busWrite .pcie (R.GLB_FRESET (fn / 32)) (BitVec.ofNat 32 (2 ^ (fn % 32))) 4

/-- SELF_REFRESH_CONFIRM (R395). -/
def execSelfRefreshConfirm (s : State) : Host.Outcome State Fault Refusal := s.run fun s => s.selfRefreshConfirm

/-- SELF_REFRESH_TIMEOUT (R395). -/
def execSelfRefreshTimeout (s : State) : Host.Outcome State Fault Refusal := s.run fun s => s.selfRefreshTimeout

/-- PWR_GOOD_RISE (R359). -/
def execPwrGoodRise (s : State) : Host.Outcome State Fault Refusal := s.run fun s => s.pwrGoodRise

/-- LOADER_START (R359). -/
def execLoaderStart (active fallback staged : Option FwHdr) (moveOk copyOk bootOk : Bool) (s : State) : Host.Outcome State Fault Refusal :=
  s.run fun s => s.loaderStart { active := active, fallback := fallback } staged moveOk copyOk bootOk

/-- FIRMWARE_START (R362). -/
def execFirmwareStart (bad : List Nat) (s : State) : Host.Outcome State Fault Refusal := s.run fun s => s.firmwareStart bad

/-- FEATURE_COMMIT (R370). -/
def execFeatureCommit (s : State) : Host.Outcome State Fault Refusal := s.run fun s => s.ctlWrite F.GLB_FEAT_CTL_COMMIT 1

/-- HOST_WINDOW_CLOSE (R370). -/
def execHostWindowClose (s : State) : Host.Outcome State Fault Refusal := s.run fun s => s.windowEnd

/-- RECORD_APPLY (R368). -/
def execRecordApply (s : State) : Host.Outcome State Fault Refusal := s.run fun s => s.recordApply

/-- REG_WAIT_TIMEOUT (R368). -/
def execRegWaitTimeout (s : State) : Host.Outcome State Fault Refusal := s.run fun s => s.regWaitTimeout

/-- TABLE_LOAD_TIMEOUT (R365). -/
def execTableLoadTimeout (s : State) : Host.Outcome State Fault Refusal := s.run fun s => s.tableLoadTimeout

/-- CFG_LOCK (R368). -/
def execCfgLock (s : State) : Host.Outcome State Fault Refusal := s.run fun s => s.ctlWrite F.CFG_CMD_LOCK 1

/-- ISLAND_HOLD_UP_END (R394). -/
def execIslandHoldUpEnd (s : State) : Host.Outcome State Fault Refusal := s.run fun s => s.holdUpEnd

end Sys2Proof.Machine
end

