-- ==== Sys2Proof/Machine/ExecSxt.lean ====
section
/-!
DEFINITION. Sys2Proof/Machine/ExecSxt.lean: the meanings of the commands of Sextant (R408-R419).
-/

namespace Sys2Proof.Machine

/-- SEXTANT_DATAGRAM (R409). -/
def execSextantDatagram (src : SxFrom) (bytes : List Nat) (s : State) : Host.Outcome State Fault Refusal :=
  s.run fun s => s.sxReceive src bytes

/-- SEXTANT_REASSEMBLY_TIMEOUT (R411). -/
def execSextantReassemblyTimeout (s : State) : Host.Outcome State Fault Refusal := s.run fun s => s.sxReassemblyTimeout

/-- HELLO (R413). -/
def execHello (s : State) : Host.Outcome State Fault Refusal := s.run fun s => s.hello

/-- SEXTANT_READ (R415). -/
def execSextantRead (s : State) : Host.Outcome State Fault Refusal := s.run fun s => s.sxRead

/-- SEXTANT_WRITE (R415). -/
def execSextantWrite (s : State) : Host.Outcome State Fault Refusal := s.run fun s => s.sxWrite

/-- GROUP_WRITE (R416). -/
def execGroupWrite (s : State) : Host.Outcome State Fault Refusal := s.run fun s => s.groupWrite

/-- GROUP_WRITE_APPLY (R416). -/
def execGroupWriteApply (s : State) : Host.Outcome State Fault Refusal := s.run fun s => s.groupApply

/-- EVENT_SUBSCRIBE (R419). -/
def execEventSubscribe (s : State) : Host.Outcome State Fault Refusal := s.run fun s => s.eventSubscribe

/-- EVENT_READ (R413). -/
def execEventRead (s : State) : Host.Outcome State Fault Refusal := s.run fun s => s.eventRead

/-- EVENT_SEND (R419). -/
def execEventSend (i : Nat) (s : State) : Host.Outcome State Fault Refusal := s.run fun s => s.eventSend i

/-- LEASE_EXPIRY (R419). -/
def execLeaseExpiry (s : State) : Host.Outcome State Fault Refusal := s.run fun s => s.leaseExpiry

/-- SEXTANT_RESET_WARM (R413). -/
def execSextantResetWarm (s : State) : Host.Outcome State Fault Refusal := s.run fun s => s.sxReset 1 2

/-- SEXTANT_RESET_COLD (R413). -/
def execSextantResetCold (s : State) : Host.Outcome State Fault Refusal := s.run fun s => s.sxReset 2 1

/-- BINNACLE_MUTE (R413). -/
def execBinnacleMute (s : State) : Host.Outcome State Fault Refusal := s.run fun s => s.sxBinnacle 1

/-- BINNACLE_UNMUTE (R413). -/
def execBinnacleUnmute (s : State) : Host.Outcome State Fault Refusal := s.run fun s => s.sxBinnacle 2

/-- BINNACLE_GIVE_UP (R413). -/
def execBinnacleGiveUp (s : State) : Host.Outcome State Fault Refusal := s.run fun s => s.sxBinnacle 3

/-- FAULT_READ (R413). -/
def execFaultRead (s : State) : Host.Outcome State Fault Refusal := s.run fun s => s.faultRead

/-- SETTINGS_READ (R413). -/
def execSettingsRead (s : State) : Host.Outcome State Fault Refusal := s.run fun s => s.settingsRead

end Sys2Proof.Machine
end

