-- ==== Sys2Proof/Machine/ExecTwn.lean ====
section
/-!
DEFINITION. Sys2Proof/Machine/ExecTwn.lean: the meanings of the commands of Twin operation (R235-R256).
-/

namespace Sys2Proof.Machine

/-- TWIN_ENABLE (R238). -/
def execTwinEnable (s : State) : Host.Outcome State Fault Refusal := s.run fun s => s.ctlWrite F.TWN_CTL_EN 1

/-- TWIN_ROLE_START (R240). -/
def execTwinRoleStart (s : State) : Host.Outcome State Fault Refusal := s.run fun s => s.twinRoleStart

/-- START_WAIT_EXPIRY (R240). -/
def execStartWaitExpiry (s : State) : Host.Outcome State Fault Refusal := s.run fun s => s.startWaitExpiry

/-- CLAIM_COMPLETE (R240). -/
def execClaimComplete (s : State) : Host.Outcome State Fault Refusal := s.run fun s => s.claimComplete

/-- HELM_IN_CHANGE (R240). -/
def execHelmInChange (level : Bool) (s : State) : Host.Outcome State Fault Refusal := s.run fun s => s.helmInChange level

/-- EMPTY_DIGEST_FLIT (R242). -/
def execEmptyDigestFlit (s : State) : Host.Outcome State Fault Refusal := s.run fun s => s.emptyDigest

/-- DIGEST_FLIT_RECEIVE (R243). -/
def execDigestFlitReceive (flit : TwinFlit) (s : State) : Host.Outcome State Fault Refusal := s.run fun s => s.digestReceive flit

/-- TWIN_LINK_LOST (R242). -/
def execTwinLinkLost (s : State) : Host.Outcome State Fault Refusal := s.run fun s => s.twinLinkLost

/-- DIGEST_TIMEOUT (R243). -/
def execDigestTimeout (n : Nat) (s : State) : Host.Outcome State Fault Refusal := s.run fun s => s.idx n 32 fun s => s.digestTimeout n

/-- LATE_WINDOW_END (R243). -/
def execLateWindowEnd (n : Nat) (s : State) : Host.Outcome State Fault Refusal := s.run fun s => s.idx n 32 fun s => s.lateWindowEnd n

/-- CYCLE_RECORD_CUT (R245). -/
def execCycleRecordCut (s : State) : Host.Outcome State Fault Refusal := s.run fun s => s.cycleCut

/-- CYCLE_RECORD_RECEIVE (R249). -/
def execCycleRecordReceive (words : List Nat) (s : State) : Host.Outcome State Fault Refusal := s.run fun s => s.cycleReceive words

/-- CYCLE_RECORD_ADOPT (R246). -/
def execCycleRecordAdopt (s : State) : Host.Outcome State Fault Refusal := s.run fun s => s.cycleAdopt

/-- CHANNEL_RESYNC (R254). -/
def execChannelResync (n : Nat) (s : State) : Host.Outcome State Fault Refusal := s.run fun s => s.idx n 32 fun s => s.channelResync n

/-- GIVE_UP (R250). -/
def execGiveUp (s : State) : Host.Outcome State Fault Refusal := s.run fun s => s.ctlWrite F.TWN_CMD_GIVE_UP 1

/-- TWIN_WATCHDOG_EXPIRY (R250). -/
def execTwinWatchdogExpiry (s : State) : Host.Outcome State Fault Refusal := s.run fun s => s.twinWatchdog

/-- DIGEST_ENGINE_DISAGREEMENT (R250). -/
def execDigestEngineDisagreement (n : Nat) (s : State) : Host.Outcome State Fault Refusal :=
  s.run fun s => s.idx n 32 fun s => s.digestDisagree n

end Sys2Proof.Machine
end

