-- ==== Sys2Proof/Machine/ExecUpd.lean ====
section
/-!
DEFINITION. Sys2Proof/Machine/ExecUpd.lean: the meanings of the commands of field update through the Hamper (R376-R393).
-/

namespace Sys2Proof.Machine

/-- UPD_OPEN (R379). -/
def execUpdOpen (svOk : Bool) (s : State) : Host.Outcome State Fault Refusal := s.run fun s => s.sxUpdOpen svOk

/-- UPD_PARCEL (R384). -/
def execUpdParcel (flashOk svOk : Bool) (s : State) : Host.Outcome State Fault Refusal := s.run fun s => s.sxUpdParcel flashOk svOk

/-- UPD_STATUS (R385). -/
def execUpdStatus (s : State) : Host.Outcome State Fault Refusal := s.run fun s => s.sxUpdStatus

/-- UPD_CANCEL (R381). -/
def execUpdCancel (s : State) : Host.Outcome State Fault Refusal := s.run fun s => s.sxUpdCancel

/-- UPD_CMD_CANCEL (R381). -/
def execUpdCmdCancel (s : State) : Host.Outcome State Fault Refusal := s.run fun s => s.busWrite .pcie R.UPD_CMD 0x5A3C0001 4

/-- CONFIRM (R390). -/
def execConfirm (s : State) : Host.Outcome State Fault Refusal := s.run fun s => s.busWrite .pcie R.UPD_CMD 0x5A3C0002 4

/-- REJECT (R390). -/
def execReject (s : State) : Host.Outcome State Fault Refusal := s.run fun s => s.busWrite .pcie R.UPD_CMD 0x5A3C0004 4

/-- IDLE_MINUTE (R380). -/
def execIdleMinute (svOk : Bool) (s : State) : Host.Outcome State Fault Refusal := s.run fun s => s.idleMinute svOk

/-- TRIAL_HEALTHY (R388). -/
def execTrialHealthy (s : State) : Host.Outcome State Fault Refusal := s.run fun s => s.trialHealthy

/-- TRIAL_WATCHDOG_EXPIRY (R388). -/
def execTrialWatchdogExpiry (s : State) : Host.Outcome State Fault Refusal := s.run fun s => s.trialWatchdog

/-- TRIAL_MINUTE (R388). -/
def execTrialMinute (s : State) : Host.Outcome State Fault Refusal := s.run fun s => s.trialMinute

/-- UNREADABLE_RESET (R389). -/
def execUnreadableReset (s : State) : Host.Outcome State Fault Refusal := s.run fun s => s.unreadableReset

end Sys2Proof.Machine
end

