-- ==== Sys2Proof/Machine/Dispatch.lean ====
section
/-!
DEFINITION. Sys2Proof/Machine/Dispatch.lean: one arm per command, each one direct call of its meaning.
-/

namespace Sys2Proof.Machine

/-- The effect of a command (every rule of its row in spec/opcode_table.json) on everything but the queue. -/
def exec (i : Instr) (s : State) : Host.Outcome State Fault Refusal :=
  match i with
  | .registerWrite path addr value size => Sys2Proof.Machine.execRegisterWrite path addr value size s
  | .rcRegisterRead path addr => Sys2Proof.Machine.execRcRegisterRead path addr s
  | .wideValueLowRead path addr => Sys2Proof.Machine.execWideValueLowRead path addr s
  | .shadowRead path addr => Sys2Proof.Machine.execShadowRead path addr s
  | .dependencyNotReady fn => Sys2Proof.Machine.execDependencyNotReady fn s
  | .functionReady fn => Sys2Proof.Machine.execFunctionReady fn s
  | .stagedSettingsApply ch => Sys2Proof.Machine.execStagedSettingsApply ch s
  | .meridianEnable => Sys2Proof.Machine.execMeridianEnable s
  | .refInPulse rising => Sys2Proof.Machine.execRefInPulse rising s
  | .refInMiss => Sys2Proof.Machine.execRefInMiss s
  | .meridianFailureAction => Sys2Proof.Machine.execMeridianFailureAction s
  | .meridianResume => Sys2Proof.Machine.execMeridianResume s
  | .sourceRevert => Sys2Proof.Machine.execSourceRevert s
  | .frameLoad => Sys2Proof.Machine.execFrameLoad s
  | .timeFlitSend => Sys2Proof.Machine.execTimeFlitSend s
  | .timeFlitReceive port flit => Sys2Proof.Machine.execTimeFlitReceive port flit s
  | .syncReceive h t1 cf logInt => Sys2Proof.Machine.execSyncReceive h t1 cf logInt s
  | .announceReceive h a => Sys2Proof.Machine.execAnnounceReceive h a s
  | .delayRespReceive h t4 cf logMin => Sys2Proof.Machine.execDelayRespReceive h t4 cf logMin s
  | .delayReqSend dom => Sys2Proof.Machine.execDelayReqSend dom s
  | .pdelayReqSend dom => Sys2Proof.Machine.execPdelayReqSend dom s
  | .pdelayReqReceive h seq => Sys2Proof.Machine.execPdelayReqReceive h seq s
  | .pdelayRespReceive h t2p t3p cf => Sys2Proof.Machine.execPdelayRespReceive h t2p t3p cf s
  | .announceTimeout dom => Sys2Proof.Machine.execAnnounceTimeout dom s
  | .syncTimeout dom => Sys2Proof.Machine.execSyncTimeout dom s
  | .acceptA => Sys2Proof.Machine.execAcceptA s
  | .ptpDomainEnable dom en => Sys2Proof.Machine.execPtpDomainEnable dom en s
  | .toutArm k value => Sys2Proof.Machine.execToutArm k value s
  | .toutDisarm k => Sys2Proof.Machine.execToutDisarm k s
  | .toutPulse k => Sys2Proof.Machine.execToutPulse k s
  | .toutPulseEnd k => Sys2Proof.Machine.execToutPulseEnd k s
  | .tinCapture j rising => Sys2Proof.Machine.execTinCapture j rising s
  | .tinCapturePop path j => Sys2Proof.Machine.execTinCapturePop path j s
  | .pllLock p => Sys2Proof.Machine.execPllLock p s
  | .pllResync p => Sys2Proof.Machine.execPllResync p s
  | .pllLossOfLock p err => Sys2Proof.Machine.execPllLossOfLock p err s
  | .pllLossOfReference p => Sys2Proof.Machine.execPllLossOfReference p s
  | .relock m => Sys2Proof.Machine.execRelock m s
  | .pllFreqWrite m freq => Sys2Proof.Machine.execPllFreqWrite m freq s
  | .clkoutEnable k => Sys2Proof.Machine.execClkoutEnable k s
  | .clkoutDisable k => Sys2Proof.Machine.execClkoutDisable k s
  | .clkoutRealign k => Sys2Proof.Machine.execClkoutRealign k s
  | .ingestPacketReceive p => Sys2Proof.Machine.execIngestPacketReceive p s
  | .ingFtRead flow => Sys2Proof.Machine.execIngFtRead flow s
  | .ingFtWrite flow => Sys2Proof.Machine.execIngFtWrite flow s
  | .legLoss ty target => Sys2Proof.Machine.execLegLoss ty target s
  | .inputEnable n => Sys2Proof.Machine.execInputEnable n s
  | .inputStart n => Sys2Proof.Machine.execInputStart n s
  | .acceptanceWindowClose n => Sys2Proof.Machine.execAcceptanceWindowClose n s
  | .inputRestart n => Sys2Proof.Machine.execInputRestart n s
  | .decodeContextEnable x => Sys2Proof.Machine.execDecodeContextEnable x s
  | .accessUnitStart engine => Sys2Proof.Machine.execAccessUnitStart engine s
  | .accessUnitDecoded x info => Sys2Proof.Machine.execAccessUnitDecoded x info s
  | .decodedPictureDecision n => Sys2Proof.Machine.execDecodedPictureDecision n s
  | .compositionEnable c => Sys2Proof.Machine.execCompositionEnable c s
  | .compositionDisable c => Sys2Proof.Machine.execCompositionDisable c s
  | .commit c set fence => Sys2Proof.Machine.execCommit c set fence s
  | .cancel c set => Sys2Proof.Machine.execCancel c set s
  | .fenceWrite k value => Sys2Proof.Machine.execFenceWrite k value s
  | .flipEvaluation c => Sys2Proof.Machine.execFlipEvaluation c s
  | .meshCheckComplete c => Sys2Proof.Machine.execMeshCheckComplete c s
  | .rowComposition c => Sys2Proof.Machine.execRowComposition c s
  | .setRetire c => Sys2Proof.Machine.execSetRetire c s
  | .compositionDrained c => Sys2Proof.Machine.execCompositionDrained c s
  | .channelEnable n => Sys2Proof.Machine.execChannelEnable n s
  | .channelReady n => Sys2Proof.Machine.execChannelReady n s
  | .pictureStart n => Sys2Proof.Machine.execPictureStart n s
  | .restart n => Sys2Proof.Machine.execRestart n s
  | .channelDisable n => Sys2Proof.Machine.execChannelDisable n s
  | .channelDrained n => Sys2Proof.Machine.execChannelDrained n s
  | .rowBudget n => Sys2Proof.Machine.execRowBudget n s
  | .jobNamed => Sys2Proof.Machine.execJobNamed s
  | .jobStart p => Sys2Proof.Machine.execJobStart p s
  | .latestStart job => Sys2Proof.Machine.execLatestStart job s
  | .completionDeadline p => Sys2Proof.Machine.execCompletionDeadline p s
  | .jobComplete p overrun => Sys2Proof.Machine.execJobComplete p overrun s
  | .pipeFaultReport p cls => Sys2Proof.Machine.execPipeFaultReport p cls s
  | .referenceReadUncorrectable read => Sys2Proof.Machine.execReferenceReadUncorrectable read s
  | .replayStart => Sys2Proof.Machine.execReplayStart s
  | .spareNaming => Sys2Proof.Machine.execSpareNaming s
  | .standInDecision n => Sys2Proof.Machine.execStandInDecision n s
  | .sliceRelease n => Sys2Proof.Machine.execSliceRelease n s
  | .sequenceFree n => Sys2Proof.Machine.execSequenceFree n s
  | .unretire p => Sys2Proof.Machine.execUnretire p s
  | .park q => Sys2Proof.Machine.execPark q s
  | .unpark q => Sys2Proof.Machine.execUnpark q s
  | .quadrantParked q => Sys2Proof.Machine.execQuadrantParked q s
  | .thermalPlacement temps => Sys2Proof.Machine.execThermalPlacement temps s
  | .trackClear => Sys2Proof.Machine.execTrackClear s
  | .disEnable => Sys2Proof.Machine.execDisEnable s
  | .pipeStartTestComplete failed => Sys2Proof.Machine.execPipeStartTestComplete failed s
  | .egressEnable => Sys2Proof.Machine.execEgressEnable s
  | .egressDisable => Sys2Proof.Machine.execEgressDisable s
  | .egsFtRead flow => Sys2Proof.Machine.execEgsFtRead flow s
  | .egsFtWrite flow => Sys2Proof.Machine.execEgsFtWrite flow s
  | .portFree p => Sys2Proof.Machine.execPortFree p s
  | .pacedDeparture flow => Sys2Proof.Machine.execPacedDeparture flow s
  | .queueSample => Sys2Proof.Machine.execQueueSample s
  | .twinEnable => Sys2Proof.Machine.execTwinEnable s
  | .twinRoleStart => Sys2Proof.Machine.execTwinRoleStart s
  | .startWaitExpiry => Sys2Proof.Machine.execStartWaitExpiry s
  | .claimComplete => Sys2Proof.Machine.execClaimComplete s
  | .helmInChange level => Sys2Proof.Machine.execHelmInChange level s
  | .emptyDigestFlit => Sys2Proof.Machine.execEmptyDigestFlit s
  | .digestFlitReceive flit => Sys2Proof.Machine.execDigestFlitReceive flit s
  | .twinLinkLost => Sys2Proof.Machine.execTwinLinkLost s
  | .digestTimeout n => Sys2Proof.Machine.execDigestTimeout n s
  | .lateWindowEnd n => Sys2Proof.Machine.execLateWindowEnd n s
  | .cycleRecordCut => Sys2Proof.Machine.execCycleRecordCut s
  | .cycleRecordReceive words => Sys2Proof.Machine.execCycleRecordReceive words s
  | .cycleRecordAdopt => Sys2Proof.Machine.execCycleRecordAdopt s
  | .channelResync n => Sys2Proof.Machine.execChannelResync n s
  | .giveUp => Sys2Proof.Machine.execGiveUp s
  | .twinWatchdogExpiry => Sys2Proof.Machine.execTwinWatchdogExpiry s
  | .digestEngineDisagreement n => Sys2Proof.Machine.execDigestEngineDisagreement n s
  | .canvasEnable => Sys2Proof.Machine.execCanvasEnable s
  | .canvasReport => Sys2Proof.Machine.execCanvasReport s
  | .budgetFlitReceive port flit => Sys2Proof.Machine.execBudgetFlitReceive port flit s
  | .rowBundleSend => Sys2Proof.Machine.execRowBundleSend s
  | .canvasMaskDeadline => Sys2Proof.Machine.execCanvasMaskDeadline s
  | .maskBundleSend => Sys2Proof.Machine.execMaskBundleSend s
  | .canvasAllocation => Sys2Proof.Machine.execCanvasAllocation s
  | .flitReceive port flit => Sys2Proof.Machine.execFlitReceive port flit s
  | .replayTimeout port => Sys2Proof.Machine.execReplayTimeout port s
  | .linkDelayMeasure port rx => Sys2Proof.Machine.execLinkDelayMeasure port rx s
  | .relayFlitReceive port flit => Sys2Proof.Machine.execRelayFlitReceive port flit s
  | .relayReassemblyTimeout => Sys2Proof.Machine.execRelayReassemblyTimeout s
  | .quadEnable q => Sys2Proof.Machine.execQuadEnable q s
  | .quadDisable q => Sys2Proof.Machine.execQuadDisable q s
  | .signalDetect lane => Sys2Proof.Machine.execSignalDetect lane s
  | .cdrLock lane first second eye temp => Sys2Proof.Machine.execCdrLock lane first second eye temp s
  | .trainingWordReceive lane marker errs => Sys2Proof.Machine.execTrainingWordReceive lane marker errs s
  | .deskewComplete staord port skew rxlat ok => Sys2Proof.Machine.execDeskewComplete staord port skew rxlat ok s
  | .fecLock staord port => Sys2Proof.Machine.execFecLock staord port s
  | .fecLoss staord port missing words => Sys2Proof.Machine.execFecLoss staord port missing words s
  | .stageTimeout staord port => Sys2Proof.Machine.execStageTimeout staord port s
  | .laneLoss lane => Sys2Proof.Machine.execLaneLoss lane s
  | .ethFrameReceive port fcsOk len vlan dstMac => Sys2Proof.Machine.execEthFrameReceive port fcsOk len vlan dstMac s
  | .arpRequest port vlan target sender => Sys2Proof.Machine.execArpRequest port vlan target sender s
  | .neighbourSolicitation port vlan target sender => Sys2Proof.Machine.execNeighbourSolicitation port vlan target sender s
  | .echoRequest port vlan ipv6 dst sender len => Sys2Proof.Machine.execEchoRequest port vlan ipv6 dst sender len s
  | .membershipQuery port vlan ipv6 older group maxMs timeoutMs => Sys2Proof.Machine.execMembershipQuery port vlan ipv6 older group maxMs timeoutMs s
  | .queryResponse port => Sys2Proof.Machine.execQueryResponse port s
  | .stateChangeReport port => Sys2Proof.Machine.execStateChangeReport port s
  | .ethFault port remote present => Sys2Proof.Machine.execEthFault port remote present s
  | .hbmStackEnable st => Sys2Proof.Machine.execHbmStackEnable st s
  | .hbmTrainingComplete st ok ms repairs => Sys2Proof.Machine.execHbmTrainingComplete st ok ms repairs s
  | .hbmStackDisable st => Sys2Proof.Machine.execHbmStackDisable st s
  | .refresh st pc due => Sys2Proof.Machine.execRefresh st pc due s
  | .hbmHotChange st celsius => Sys2Proof.Machine.execHbmHotChange st celsius s
  | .refreshManagement st pc bank reqs => Sys2Proof.Machine.execRefreshManagement st pc bank reqs s
  | .throttleEnd st pc requester => Sys2Proof.Machine.execThrottleEnd st pc requester s
  | .promotion st pc due => Sys2Proof.Machine.execPromotion st pc due s
  | .eccCorrection addr => Sys2Proof.Machine.execEccCorrection addr s
  | .uncorrectableRead addr requester => Sys2Proof.Machine.execUncorrectableRead addr requester s
  | .patrolScrub st result => Sys2Proof.Machine.execPatrolScrub st result s
  | .caParityError st pc => Sys2Proof.Machine.execCaParityError st pc s
  | .audioEnable => Sys2Proof.Machine.execAudioEnable s
  | .audioLoopEvaluate obs => Sys2Proof.Machine.execAudioLoopEvaluate obs s
  | .aes3Block n stamp frames ppm data csA csB => Sys2Proof.Machine.execAes3Block n stamp frames ppm data csA csB s
  | .tdmBlock t stamp data => Sys2Proof.Machine.execTdmBlock t stamp data s
  | .tdmSlaveLockLoss t => Sys2Proof.Machine.execTdmSlaveLockLoss t s
  | .audioBlockDecision u => Sys2Proof.Machine.execAudioBlockDecision u s
  | .tdmMaskCommit t => Sys2Proof.Machine.execTdmMaskCommit t s
  | .tdmMaskApply t => Sys2Proof.Machine.execTdmMaskApply t s
  | .audioOutputEnable u => Sys2Proof.Machine.execAudioOutputEnable u s
  | .audioOutputDisable u => Sys2Proof.Machine.execAudioOutputDisable u s
  | .audioOutputDrained u => Sys2Proof.Machine.execAudioOutputDrained u s
  | .writeTx t => Sys2Proof.Machine.execWriteTx t s
  | .audioPacketDeparture t => Sys2Proof.Machine.execAudioPacketDeparture t s
  | .sightingRun kind inst => Sys2Proof.Machine.execSightingRun kind inst s
  | .sightingTemperatureTrigger kind inst temp => Sys2Proof.Machine.execSightingTemperatureTrigger kind inst temp s
  | .calibrationWindowOpen => Sys2Proof.Machine.execCalibrationWindowOpen s
  | .calibrationWindowClose => Sys2Proof.Machine.execCalibrationWindowClose s
  | .sightingComplete kind inst first second quality temp => Sys2Proof.Machine.execSightingComplete kind inst first second quality temp s
  | .sightingStep kind inst => Sys2Proof.Machine.execSightingStep kind inst s
  | .pllSightingPark => Sys2Proof.Machine.execPllSightingPark s
  | .avsEvaluate q margin => Sys2Proof.Machine.execAvsEvaluate q margin s
  | .clockLoop => Sys2Proof.Machine.execClockLoop s
  | .powerOnReset => Sys2Proof.Machine.execPowerOnReset s
  | .rstNLow => Sys2Proof.Machine.execRstNLow s
  | .perstN => Sys2Proof.Machine.execPerstN s
  | .glbResetWarm => Sys2Proof.Machine.execGlbResetWarm s
  | .glbResetCold => Sys2Proof.Machine.execGlbResetCold s
  | .functionReset fn => Sys2Proof.Machine.execFunctionReset fn s
  | .selfRefreshConfirm => Sys2Proof.Machine.execSelfRefreshConfirm s
  | .selfRefreshTimeout => Sys2Proof.Machine.execSelfRefreshTimeout s
  | .pwrGoodRise => Sys2Proof.Machine.execPwrGoodRise s
  | .loaderStart active fallback staged moveOk copyOk bootOk => Sys2Proof.Machine.execLoaderStart active fallback staged moveOk copyOk bootOk s
  | .firmwareStart bad => Sys2Proof.Machine.execFirmwareStart bad s
  | .featureCommit => Sys2Proof.Machine.execFeatureCommit s
  | .hostWindowClose => Sys2Proof.Machine.execHostWindowClose s
  | .recordApply => Sys2Proof.Machine.execRecordApply s
  | .regWaitTimeout => Sys2Proof.Machine.execRegWaitTimeout s
  | .tableLoadTimeout => Sys2Proof.Machine.execTableLoadTimeout s
  | .cfgLock => Sys2Proof.Machine.execCfgLock s
  | .updOpen svOk => Sys2Proof.Machine.execUpdOpen svOk s
  | .updParcel flashOk svOk => Sys2Proof.Machine.execUpdParcel flashOk svOk s
  | .updStatus => Sys2Proof.Machine.execUpdStatus s
  | .updCancel => Sys2Proof.Machine.execUpdCancel s
  | .updCmdCancel => Sys2Proof.Machine.execUpdCmdCancel s
  | .confirm => Sys2Proof.Machine.execConfirm s
  | .reject => Sys2Proof.Machine.execReject s
  | .idleMinute svOk => Sys2Proof.Machine.execIdleMinute svOk s
  | .trialHealthy => Sys2Proof.Machine.execTrialHealthy s
  | .trialWatchdogExpiry => Sys2Proof.Machine.execTrialWatchdogExpiry s
  | .trialMinute => Sys2Proof.Machine.execTrialMinute s
  | .unreadableReset => Sys2Proof.Machine.execUnreadableReset s
  | .binCmdMute => Sys2Proof.Machine.execBinCmdMute s
  | .binCmdUnmute => Sys2Proof.Machine.execBinCmdUnmute s
  | .binCmdGiveUp => Sys2Proof.Machine.execBinCmdGiveUp s
  | .binCmdWarm => Sys2Proof.Machine.execBinCmdWarm s
  | .binCmdCold => Sys2Proof.Machine.execBinCmdCold s
  | .binCmdShutdown => Sys2Proof.Machine.execBinCmdShutdown s
  | .faultRecordWrite ok => Sys2Proof.Machine.execFaultRecordWrite ok s
  | .sensorRead die hbm vin vstby rails => Sys2Proof.Machine.execSensorRead die hbm vin vstby rails s
  | .supplyFault vin rail => Sys2Proof.Machine.execSupplyFault vin rail s
  | .shutdownRecovery => Sys2Proof.Machine.execShutdownRecovery s
  | .firmwareWatchdogExpiry => Sys2Proof.Machine.execFirmwareWatchdogExpiry s
  | .watchdogKick => Sys2Proof.Machine.execWatchdogKick s
  | .svcRead addr early pecOk => Sys2Proof.Machine.execSvcRead addr early pecOk s
  | .svcWrite addr value pecOk => Sys2Proof.Machine.execSvcWrite addr value pecOk s
  | .actionMute key pecOk => Sys2Proof.Machine.execActionMute key pecOk s
  | .actionUnmute key pecOk => Sys2Proof.Machine.execActionUnmute key pecOk s
  | .actionGiveUp key pecOk => Sys2Proof.Machine.execActionGiveUp key pecOk s
  | .actionWarm key pecOk => Sys2Proof.Machine.execActionWarm key pecOk s
  | .actionCold key pecOk => Sys2Proof.Machine.execActionCold key pecOk s
  | .actionShutdown key pecOk => Sys2Proof.Machine.execActionShutdown key pecOk s
  | .svcFault idx pecOk => Sys2Proof.Machine.execSvcFault idx pecOk s
  | .keyslot slot digest pecOk => Sys2Proof.Machine.execKeyslot slot digest pecOk s
  | .keyslotProgrammed => Sys2Proof.Machine.execKeyslotProgrammed s
  | .svcBusTimeout => Sys2Proof.Machine.execSvcBusTimeout s
  | .alertResponse => Sys2Proof.Machine.execAlertResponse s
  | .mdioCommand phy reg rd data => Sys2Proof.Machine.execMdioCommand phy reg rd data s
  | .mdioComplete data => Sys2Proof.Machine.execMdioComplete data s
  | .sextantDatagram src bytes => Sys2Proof.Machine.execSextantDatagram src bytes s
  | .sextantReassemblyTimeout => Sys2Proof.Machine.execSextantReassemblyTimeout s
  | .hello => Sys2Proof.Machine.execHello s
  | .sextantRead => Sys2Proof.Machine.execSextantRead s
  | .sextantWrite => Sys2Proof.Machine.execSextantWrite s
  | .groupWrite => Sys2Proof.Machine.execGroupWrite s
  | .groupWriteApply => Sys2Proof.Machine.execGroupWriteApply s
  | .eventSubscribe => Sys2Proof.Machine.execEventSubscribe s
  | .eventRead => Sys2Proof.Machine.execEventRead s
  | .eventSend n => Sys2Proof.Machine.execEventSend n s
  | .leaseExpiry => Sys2Proof.Machine.execLeaseExpiry s
  | .sextantResetWarm => Sys2Proof.Machine.execSextantResetWarm s
  | .sextantResetCold => Sys2Proof.Machine.execSextantResetCold s
  | .binnacleMute => Sys2Proof.Machine.execBinnacleMute s
  | .binnacleUnmute => Sys2Proof.Machine.execBinnacleUnmute s
  | .binnacleGiveUp => Sys2Proof.Machine.execBinnacleGiveUp s
  | .faultRead => Sys2Proof.Machine.execFaultRead s
  | .settingsRead => Sys2Proof.Machine.execSettingsRead s
  | .bar4Access addr write len data => Sys2Proof.Machine.execBar4Access addr write len data s
  | .msixVectorFire vector => Sys2Proof.Machine.execMsixVectorFire vector s
  | .snapshotCommand => Sys2Proof.Machine.execSnapshotCommand s
  | .snapshot => Sys2Proof.Machine.execSnapshot s
  | .snapshotEpochAdvance => Sys2Proof.Machine.execSnapshotEpochAdvance s
  | .checkStart u => Sys2Proof.Machine.execCheckStart u s
  | .checkAbort u => Sys2Proof.Machine.execCheckAbort u s
  | .checkComplete u => Sys2Proof.Machine.execCheckComplete u s
  | .windowRead path addr => Sys2Proof.Machine.execWindowRead path addr s
  | .meshWindowWrite path addr value => Sys2Proof.Machine.execMeshWindowWrite path addr value s
  | .shaperEligible p => Sys2Proof.Machine.execShaperEligible p s
  | .alignmentMarkerLock lane inv => Sys2Proof.Machine.execAlignmentMarkerLock lane inv s
  | .aes3InputLoss n => Sys2Proof.Machine.execAes3InputLoss n s
  | .pcieLinkChange up width speed => Sys2Proof.Machine.execPcieLinkChange up width speed s
  | .mgtLinkChange m up => Sys2Proof.Machine.execMgtLinkChange m up s
  | .islandHoldUpEnd => Sys2Proof.Machine.execIslandHoldUpEnd s
  | .olderQuerierTimeout port => Sys2Proof.Machine.execOlderQuerierTimeout port s
  | .slewComplete => Sys2Proof.Machine.execSlewComplete s

end Sys2Proof.Machine
end

