-- ==== Sys2Proof/WellFormed.lean ====
section
/-!
DEFINITION. Sys2Proof/WellFormed.lean: the operands that a command may carry: instances that exist (R372 and the index ranges of the register
tables), addresses in their space (R439, R299), bytes and fields of their width.
-/

namespace Sys2Proof

/-- A request of pseudo-channel pc: a requester of R303, a valid offset that R300 maps to pc. -/
def hbmAccOk (pc : Nat) (q : HbmAcc) : Bool :=
  decide (q.id ≤ 77) && decide (q.ofs < 0x900000000) && ((q.ofs >>> 8) ^^^ (q.ofs >>> 13) ^^^ (q.ofs >>> 18)) &&& 31 == pc

/-- A PLL that exists: 11 core PLLs, 16 lane PLLs (R67, R69). -/
def pllOk (p : Pll) : Bool := match p with | .core m => decide (m < 11) | .lane q => decide (q < 16)

/-- Is a command well formed? -/
def Instr.wf (i : Instr) : Bool :=
  match i with
  | .registerWrite _ addr _ size => decide (addr < 0x1000000) && decide (1 ≤ size) && decide (size ≤ 4)
  | .rcRegisterRead _ addr => decide (addr < 0x1000000)
  | .wideValueLowRead _ addr => decide (addr < 0x1000000)
  | .shadowRead _ addr => decide (addr < 0x200000)
  | .dependencyNotReady fn => decide (fn < 124)
  | .functionReady fn => decide (fn < 124)
  | .stagedSettingsApply ch => decide (ch < 32)
  | .meridianEnable => true
  | .refInPulse _ => true
  | .refInMiss => true
  | .meridianFailureAction => true
  | .meridianResume => true
  | .sourceRevert => true
  | .frameLoad => true
  | .timeFlitSend => true
  | .timeFlitReceive port _ => decide (port < 8)
  | .syncReceive _ _ _ _ => true
  | .announceReceive _ _ => true
  | .delayRespReceive _ _ _ _ => true
  | .delayReqSend dom => decide (dom < 2)
  | .pdelayReqSend dom => decide (dom < 2)
  | .pdelayReqReceive _ _ => true
  | .pdelayRespReceive _ _ _ _ => true
  | .announceTimeout dom => decide (dom < 2)
  | .syncTimeout dom => decide (dom < 2)
  | .acceptA => true
  | .ptpDomainEnable dom _ => decide (dom < 2)
  | .toutArm k _ => decide (k < 4)
  | .toutDisarm k => decide (k < 4)
  | .toutPulse k => decide (k < 4)
  | .toutPulseEnd k => decide (k < 4)
  | .tinCapture j _ => decide (j < 2)
  | .tinCapturePop _ j => decide (j < 2)
  | .pllLock p => pllOk p
  | .pllResync p => pllOk p
  | .pllLossOfLock p _ => pllOk p
  | .pllLossOfReference p => pllOk p
  | .relock m => decide (m < 16)
  | .pllFreqWrite m _ => decide (m < 11)
  | .clkoutEnable k => decide (k < 4)
  | .clkoutDisable k => decide (k < 4)
  | .clkoutRealign k => decide (k < 4)
  | .ingestPacketReceive p => decide (p.port < 8) && decide (p.vlan < 4096) && decide (p.dport < 65536)
  | .ingFtRead flow => decide (flow < 4096)
  | .ingFtWrite flow => decide (flow < 4096)
  | .legLoss ty target => decide (target < 64) && decide (ty < 6)
  | .inputEnable i => decide (i < 64)
  | .inputStart i => decide (i < 64)
  | .acceptanceWindowClose i => decide (i < 64)
  | .inputRestart i => decide (i < 64)
  | .decodeContextEnable x => decide (x < 16)
  | .accessUnitStart engine => decide (engine < 4)
  | .accessUnitDecoded x _ => decide (x < 16)
  | .decodedPictureDecision i => decide (i < 64)
  | .compositionEnable c => decide (c < 32)
  | .compositionDisable c => decide (c < 32)
  | .commit c set fence => decide (c < 32) && decide (set < 9) && fence.all (fun k => decide (k < 256))
  | .cancel c set => decide (c < 32) && decide (set < 9)
  | .fenceWrite k value => decide (k < 256) && decide (value < 2 ^ 64)
  | .flipEvaluation c => decide (c < 32)
  | .meshCheckComplete c => decide (c < 32)
  | .rowComposition c => decide (c < 32)
  | .setRetire c => decide (c < 32)
  | .compositionDrained c => decide (c < 32)
  | .hbmStackEnable st => decide (st < 4)
  | .hbmTrainingComplete st _ _ _ => decide (st < 4)
  | .hbmStackDisable st => decide (st < 4)
  | .refresh st pc due => decide (st < 4) && decide (pc < 32) && decide (due.bank < 48) && due.reqs.all (hbmAccOk pc)
  | .hbmHotChange st _ => decide (st < 4)
  | .refreshManagement st pc bank reqs => decide (st < 4) && decide (pc < 32) && decide (bank < 48) && reqs.all (hbmAccOk pc)
  | .throttleEnd st pc requester => decide (st < 4) && decide (pc < 32) && decide (requester < 128)
  | .promotion st pc due => decide (st < 4) && decide (pc < 32) && decide (due.requester < 78) && due.reqs.all (hbmAccOk pc)
  | .eccCorrection addr => decide (addr < 2 ^ 38)
  | .uncorrectableRead addr requester => decide (addr < 2 ^ 38) && decide (requester < 128)
  | .patrolScrub st _ => decide (st < 4)
  | .caParityError st pc => decide (st < 4) && decide (pc < 32)
  | .channelEnable n => decide (n < 32)
  | .channelReady n => decide (n < 32)
  | .pictureStart n => decide (n < 32)
  | .restart n => decide (n < 32)
  | .channelDisable n => decide (n < 32)
  | .channelDrained n => decide (n < 32)
  | .rowBudget n => decide (n < 32)
  | .jobNamed => true
  | .jobStart p => decide (p < 64)
  | .latestStart job => decide (job < 65536)
  | .completionDeadline p => decide (p < 64)
  | .jobComplete p _ => decide (p < 64)
  | .pipeFaultReport p cls => decide (p < 64) && [1, 2, 3, 8].contains cls
  | .referenceReadUncorrectable read => decide (read.pipe < 64)
  | .replayStart => true
  | .spareNaming => true
  | .standInDecision n => decide (n < 32)
  | .sliceRelease n => decide (n < 32)
  | .sequenceFree n => decide (n < 32)
  | .unretire p => decide (p < 64)
  | .park q => decide (q < 4)
  | .unpark q => decide (q < 4)
  | .quadrantParked q => decide (q < 4)
  | .thermalPlacement temps => decide (temps.length = 64)
  | .trackClear => true
  | .disEnable => true
  | .pipeStartTestComplete _ => true
  | .egressEnable => true
  | .egressDisable => true
  | .egsFtRead flow => decide (flow < 65536)
  | .egsFtWrite flow => decide (flow < 65536)
  | .portFree p => decide (p < 8)
  | .pacedDeparture flow => decide (flow < 65536)
  | .queueSample => true
  | .shaperEligible p => decide (p < 8)
  | .twinEnable => true
  | .twinRoleStart => true
  | .startWaitExpiry => true
  | .claimComplete => true
  | .helmInChange _ => true
  | .emptyDigestFlit => true
  | .digestFlitReceive _ => true
  | .twinLinkLost => true
  | .digestTimeout n => decide (n < 32)
  | .lateWindowEnd n => decide (n < 32)
  | .cycleRecordCut => true
  | .cycleRecordReceive _ => true
  | .cycleRecordAdopt => true
  | .channelResync n => decide (n < 32)
  | .giveUp => true
  | .twinWatchdogExpiry => true
  | .digestEngineDisagreement n => decide (n < 32)
  | .canvasEnable => true
  | .canvasReport => true
  | .budgetFlitReceive port _ => decide (port < 8)
  | .rowBundleSend => true
  | .canvasMaskDeadline => true
  | .maskBundleSend => true
  | .canvasAllocation => true
  | .flitReceive port _ => decide (port < 8)
  | .replayTimeout port => decide (port < 8)
  | .linkDelayMeasure port _ => decide (port < 8)
  | .relayFlitReceive port _ => decide (port < 8)
  | .relayReassemblyTimeout => true
  | .quadEnable q => decide (q < 16)
  | .quadDisable q => decide (q < 16)
  | .signalDetect lane => decide (lane < 64)
  | .cdrLock lane _ _ _ _ => decide (lane < 64)
  | .trainingWordReceive lane _ _ => decide (lane < 64)
  | .deskewComplete _ port _ _ _ => decide (port < 8)
  | .fecLock _ port => decide (port < 8)
  | .fecLoss _ port _ _ => decide (port < 8)
  | .stageTimeout _ port => decide (port < 8)
  | .laneLoss lane => decide (lane < 64)
  | .alignmentMarkerLock lane _ => decide (lane < 64)
  | .ethFrameReceive port _ _ _ _ => decide (port < 8)
  | .arpRequest port _ _ _ => decide (port < 10)
  | .neighbourSolicitation port _ _ _ => decide (port < 10)
  | .echoRequest port _ _ _ _ _ => decide (port < 10)
  | .membershipQuery port _ _ _ _ _ _ => decide (port < 8)
  | .queryResponse port => decide (port < 8)
  | .stateChangeReport port => decide (port < 8)
  | .ethFault port _ _ => decide (port < 8)
  | .olderQuerierTimeout port => decide (port < 8)
  | .audioEnable => true
  | .audioLoopEvaluate _ => true
  | .aes3Block i _ _ _ _ _ _ => decide (i < 8)
  | .tdmBlock t _ _ => decide (t < 4)
  | .tdmSlaveLockLoss t => decide (t < 4)
  | .audioBlockDecision u => decide (u < 80)
  | .tdmMaskCommit t => decide (t < 4)
  | .tdmMaskApply t => decide (t < 4)
  | .audioOutputEnable u => decide (u < 80)
  | .audioOutputDisable u => decide (u < 80)
  | .audioOutputDrained u => decide (u < 80)
  | .writeTx t => decide (t < 64)
  | .audioPacketDeparture t => decide (t < 64)
  | .aes3InputLoss i => decide (i < 8)
  | .sightingRun kind inst => decide (kind < 4) && decide (inst < 128)
  | .sightingTemperatureTrigger kind inst _ => decide (kind < 4) && decide (inst < 128)
  | .calibrationWindowOpen => true
  | .calibrationWindowClose => true
  | .sightingComplete kind inst _ _ _ _ => decide (kind < 4) && decide (inst < 128)
  | .sightingStep kind inst => decide (kind < 4) && decide (inst < 128)
  | .pllSightingPark => true
  | .avsEvaluate q _ => decide (q < 4)
  | .clockLoop => true
  | .powerOnReset => true
  | .rstNLow => true
  | .perstN => true
  | .glbResetWarm => true
  | .glbResetCold => true
  | .functionReset fn => decide (fn < 128)
  | .selfRefreshConfirm => true
  | .selfRefreshTimeout => true
  | .pwrGoodRise => true
  | .loaderStart _ _ _ _ _ _ => true
  | .firmwareStart _ => true
  | .featureCommit => true
  | .hostWindowClose => true
  | .recordApply => true
  | .regWaitTimeout => true
  | .tableLoadTimeout => true
  | .cfgLock => true
  | .updOpen _ => true
  | .updParcel _ _ => true
  | .updStatus => true
  | .updCancel => true
  | .updCmdCancel => true
  | .confirm => true
  | .reject => true
  | .idleMinute _ => true
  | .trialHealthy => true
  | .trialWatchdogExpiry => true
  | .trialMinute => true
  | .unreadableReset => true
  | .binCmdMute => true
  | .binCmdUnmute => true
  | .binCmdGiveUp => true
  | .binCmdWarm => true
  | .binCmdCold => true
  | .binCmdShutdown => true
  | .faultRecordWrite _ => true
  | .sensorRead die hbm _ _ _ => decide (die.length = 8) && decide (hbm.length = 4)
  | .supplyFault _ _ => true
  | .shutdownRecovery => true
  | .firmwareWatchdogExpiry => true
  | .watchdogKick => true
  | .svcRead addr _ _ => decide (addr < 2 ^ 32)
  | .svcWrite addr _ _ => decide (addr < 2 ^ 32)
  | .actionMute key _ => decide (key < 65536)
  | .actionUnmute key _ => decide (key < 65536)
  | .actionGiveUp key _ => decide (key < 65536)
  | .actionWarm key _ => decide (key < 65536)
  | .actionCold key _ => decide (key < 65536)
  | .actionShutdown key _ => decide (key < 65536)
  | .svcFault idx _ => decide (idx < 65536)
  | .keyslot slot digest _ => decide (slot < 256) && decide (digest.length = 48) && digest.all (fun b => decide (b < 256))
  | .keyslotProgrammed => true
  | .svcBusTimeout => true
  | .alertResponse => true
  | .mdioCommand phy reg _ data => decide (phy < 32) && decide (reg < 32) && decide (data < 65536)
  | .mdioComplete data => decide (data < 65536)
  | .sextantDatagram src bytes => decide (src.mgt < 2) && bytes.all (fun b => decide (b < 256))
  | .sextantReassemblyTimeout => true
  | .hello => true
  | .sextantRead => true
  | .sextantWrite => true
  | .groupWrite => true
  | .groupWriteApply => true
  | .eventSubscribe => true
  | .eventRead => true
  | .eventSend i => decide (i < 8)
  | .leaseExpiry => true
  | .sextantResetWarm => true
  | .sextantResetCold => true
  | .binnacleMute => true
  | .binnacleUnmute => true
  | .binnacleGiveUp => true
  | .faultRead => true
  | .settingsRead => true
  | .bar4Access addr _ _ data => decide (addr < 2 ^ 38) && data.all (fun b => decide (b < 256))
  | .msixVectorFire vector => decide (vector < 32)
  | .snapshotCommand => true
  | .snapshot => true
  | .snapshotEpochAdvance => true
  | .checkStart u => decide (u < 4)
  | .checkAbort u => decide (u < 4)
  | .checkComplete u => decide (u < 4)
  | .windowRead _ addr => decide (0x800000 ≤ addr) && decide (addr < 0x1000000)
  | .meshWindowWrite _ addr _ => decide (0x800000 ≤ addr) && decide (addr < 0x1000000)
  | .pcieLinkChange up width speed => (!up || ([1, 2, 4, 8].contains width && decide (1 ≤ speed) && decide (speed ≤ 5)))
  | .mgtLinkChange m _ => decide (m < 2)
  | .islandHoldUpEnd => true
  | .slewComplete => true

end Sys2Proof
end

