-- ==== Sys2Proof/Safety.lean ====
section
/-!
DEFINITION. Sys2Proof/Safety.lean: the terms in which claims about the block are stated: a command that completes, what it leaves unchanged, the events
it logs, a step that is safe, and what every step keeps.
-/

namespace Sys2Proof.Machine

/-- A command completes in a state, and the next state has a property. -/
def Completes (i : Instr) (s : State) (P : State → Prop) : Prop := ∃ t, exec i s = .next t ∧ P t

/-- A step is safe: it ends in a next state, in no fault and no refusal. -/
def State.Safe (s : State) : Prop := ∃ t, step s = .next t

/-! ## Frames -/

/-- The parts of State beside registers, function states, the queue and the key slots. -/
inductive Part where
  | held | wpend | latch | fnAt | fctr | out | log | clk | isl | mer | ptp | ckg | ing | comp | hbm | enc | dis | egs | lne | links | twn | cnv | eth | aud
  | mem | mon | cal | flash | souv | cfg | sx | snap | pins
  deriving DecidableEq, Repr

/-- A part is the same in two states; for `out`, that the command gave nothing out. -/
def Part.same (p : Part) (s t : State) : Prop :=
  match p with
  | .held => t.held = s.held | .wpend => t.wpend = s.wpend | .latch => t.latch = s.latch | .fnAt => t.fnAt = s.fnAt | .fctr => t.fctr = s.fctr
  | .out => t.out = [] | .log => t.log = s.log | .clk => t.clk = s.clk | .isl => t.isl = s.isl | .mer => t.mer = s.mer | .ptp => t.ptp = s.ptp
  | .ckg => t.ckg = s.ckg | .ing => t.ing = s.ing | .comp => t.comp = s.comp | .hbm => t.hbm = s.hbm | .mem => t.hbm.mem = s.hbm.mem | .enc => t.enc = s.enc | .dis => t.dis = s.dis
  | .egs => t.egs = s.egs | .lne => t.lne = s.lne | .links => t.links = s.links | .twn => t.twn = s.twn | .cnv => t.cnv = s.cnv | .eth => t.eth = s.eth
  | .aud => t.aud = s.aud | .mon => t.mon = s.mon | .cal => t.cal = s.cal | .flash => t.flash = s.flash | .souv => t.souv = s.souv | .cfg => t.cfg = s.cfg
  | .sx => t.sx = s.sx | .snap => t.snap = s.snap | .pins => t.pins = s.pins

/-- The frame of a command: every register but those of `regs` holds what it held, every function but those of `fns` is in the state it was in,
every part but those of `parts` is the same (`mem` is every byte of the HBM stacks), and so are the queue and the key slots. -/
def Keeps (regs fns : List Nat) (parts : List Part) (s t : State) : Prop :=
  (∀ a, a ∉ regs → t.rd a = s.rd a) ∧ (∀ f, f ∉ fns → t.fn f = s.fn f) ∧ t.pending = s.pending ∧ t.keys = s.keys ∧ ∀ p, p ∉ parts → p.same s t

/-- Every byte of the HBM stacks is unchanged outside ranges, each an address and a number of bytes. -/
def KeepsMem (ranges : List (Nat × Nat)) (s t : State) : Prop :=
  ∀ b, b < 2 ^ 38 → (∀ r ∈ ranges, b < r.1 ∨ r.1 + r.2 ≤ b) → t.hbmByte b = s.hbmByte b

/-- The code and DETAIL of log entry `n` (R418). -/
def LogSt.evAt (l : LogSt) (n : Nat) : Ev :=
  let e := Tab.get (fun _ => ({} : LogEntry)) l.ring (n % 1024)
  ⟨e.code, e.detail⟩

/-- A command logs these events, in this order (R418). -/
def Logged (evs : List Ev) (s t : State) : Prop :=
  t.log.head = evs.foldl (fun h _ => (h + 1) % 2 ^ 32) s.log.head ∧ ∀ i e, evs[i]? = some e → t.log.evAt (s.log.head + i) = e

/-! ## Conditions on a state -/

/-- No monitor unit runs (R429). -/
def State.NoMon (s : State) : Prop := ∀ m, m < 64 → s.on (F.MON_STATUS_RUN m) = false

/-- The good bytes of parcel `i` of a session with an image of `len` bytes, a digest and a session key: header, digest, 16,384 bytes `d`, the
tag and the CRC (R383, R384). -/
def parcelBytes (len : Nat) (digest ks : List Nat) (i : Nat) (d : List Nat) : List Nat :=
  let h := leBytes 0x4C435250 4 ++ leBytes i 4 ++ leBytes (min 16384 (len - 16384 * i)) 4 ++ [0, 0, 0, 0] ++ digest
  let a := h ++ d ++ gcmTag16 ks (parcelIv i) h d
  a ++ leBytes (crc32c a) 4

/-! ## What every step keeps -/

/-- The bytes of the HBM stacks are in canonical form: addresses of 38 bits strictly rising, none in a hole, no byte that reads as an unlisted
one does (R299; assumption 5). -/
def Memory.wf (m : Tab Byte) : Bool := Tab.wf memEmpty m && m.all (fun e => decide (e.1 < 2 ^ 38) && !inHole e.1)

/-- What a blank key slot holds. -/
def keyBlank : Nat → List Nat := fun _ => []

/-- The one-time key slots are in canonical form (R405). -/
def State.KeysWf (s : State) : Prop := Tab.wf keyBlank s.keys = true

/-- Every programmed key slot of `s` holds the same digest in `t` (R405). -/
def KeysKept (s t : State) : Prop := ∀ k, s.keySlot k ≠ [] → t.keySlot k = s.keySlot k

end Sys2Proof.Machine
end

