-- ==== Sys2Proof/Certificates/Slice0/Obligations.lean ====
section
/-!
DEFINITION. Sys2Proof/Certificates/Slice0/Obligations.lean: the statements for the provers.
-/

section

set_option linter.all false

open Sys2Proof Sys2Proof.Machine


/-- A step with a command at the front of the queue is exec of that command, with the rest of the queue behind it, and every command answers a next
state. -/
def Obligations.StepRunsFront : Prop :=
  ∀ (s : State) (c : Instr) (r : List Instr), step { s with pending := c :: r } = exec c { s with pending := r } ∧
    ∃ t, exec c { s with pending := r } = .next t ∧ t.pending = r


/-- The model's choice (assumption 1): with no command waiting, time runs on to the next 4 ns edge of MTCLK (R32), and nothing but the clock changes. -/
def Obligations.EmptyQueueTick : Prop :=
  ∀ s : State, s.pending = [] →
    ∃ t, step s = .next t ∧ t.clk.ns = s.clk.ns + (4 - s.clk.ns % 4) ∧ t.clk.stc = s.clk.stc + (4 - s.clk.ns % 4) ∧ s.clk.hpos ≤ t.clk.hpos ∧ Keeps [] [] [.clk] s t


/-- The state after reset: the reset columns of the registers (R2), every function OFF (R372), nothing waiting. That unwritten HBM bytes read 0 is the
model's choice (assumption 5). -/
def Obligations.ResetState : Prop :=
  (∀ a d, regDef a = some d → State.reset.rd a = BitVec.ofNat 32 d.reset) ∧ (∀ f, State.reset.fn f = .off) ∧ State.reset.pending = [] ∧
  (∀ k, State.reset.keySlot k = []) ∧ (∀ a, State.reset.hbmByte a = 0) ∧ State.reset.alertN = false ∧
  State.reset.NoMon ∧ Memory.wf State.reset.hbm.mem = true ∧ State.reset.KeysWf


/-- Register accesses, dependencies and staged settings complete (R4, R9, R427, R14, R15). Where a clause fixes what the spec leaves open, it is the
model's choice: assumption 8, 19, 72, 75, 91. -/
def Obligations.RegisterCommandsComplete : Prop :=
  -- REGISTER_WRITE
  (∀ (s : State) (path : BusPath) (a : Nat) (v : Word) (d : RegDef), s.dark = false → path ≠ .service → a % 4 = 0 → a < 0x1A0000 → regDef a = some d →
    d.fields.any (fun x => x.acc == .rwl) = false → fieldsOk d.fields (s.begin.oldWord path a) v.toNat = true → wideOf wideWrites a = none →
    s.begin.unitReg path a (BitVec.ofNat 32 (mergeWord true d.fields (s.begin.oldWord path a) v.toNat)) v = none → s.begin.heldRow d a = false → latInput a = false →
    Completes (.registerWrite path a v 4) s fun t => t.rd a = BitVec.ofNat 32 (mergeWord false d.fields (s.begin.oldWord path a) v.toNat) ∧ Keeps [a] [] [] s t) ∧
  -- RC_REGISTER_READ
  (∀ (s : State) (path : BusPath), s.dark = false → path ≠ .service → Tab.get (fun _ => (none : Option Word)) s.latch R.MER_PEER_ERR = none →
    Completes (.rcRegisterRead path R.MER_PEER_ERR) s fun t => t.out = [.read path R.MER_PEER_ERR (s.rd R.MER_PEER_ERR)] ∧ t.rdn R.MER_PEER_ERR = 0 ∧
    Keeps [R.MER_PEER_ERR] [] [.out] s t) ∧
  -- WIDE_VALUE_LOW_READ
  (∀ (s : State) (path : BusPath), s.dark = false → path ≠ .service → Tab.get (fun _ => (none : Option Word)) s.latch R.BIN_UPTIME_LO = none →
    Completes (.wideValueLowRead path R.BIN_UPTIME_LO) s fun t => t.out = [.read path R.BIN_UPTIME_LO (BitVec.ofNat 32 (s.clk.ns / 1000))] ∧
    Tab.get (fun _ => (none : Option Word)) t.latch R.BIN_UPTIME_HI = some (BitVec.ofNat 32 (s.clk.ns / 1000 / 2 ^ 32)) ∧ Keeps [] [] [.out, .latch] s t) ∧
  -- SHADOW_READ
  (∀ (s : State) (path : BusPath) (a : Nat), s.dark = false → path ≠ .service → a % 4 = 0 → a < 0x200000 →
    Completes (.shadowRead path a) s fun t => t.out = [.read path (0x400000 + a) (s.begin.shadowWord a)] ∧ Keeps [] [] [.out] s t) ∧
  -- DEPENDENCY_NOT_READY
  (∀ s : State, s.working fnCnv = true → s.ready fnMer = false → Completes (.dependencyNotReady fnCnv) s fun t => t.fn fnCnv = .starting ∧ Keeps [] [fnCnv] [.fnAt] s t) ∧
  -- FUNCTION_READY
  (∀ (s : State) (p : Nat), p < 8 → s.fn (fnIng p) = .starting → s.rxUp p = true → Completes (.functionReady (fnIng p)) s fun t => t.fn (fnIng p) = .ready ∧
    Logged [⟨0x0003, fnIng p⟩] s t ∧ Keeps [] [fnIng p] [.fnAt, .log] s t) ∧
  -- STAGED_SETTINGS_APPLY
  (∀ (s : State) (c k d p : Nat) (v : Word) (q : Clock), c < 32 → s.begin.toChanStart 2 c = some ({ s.begin with clk := q }, k, d) → s.egsAll = [] →
    s.held = [(R.MER_CH_ORIGIN c, { inForce := 0, pend := [(p, v)] })] → p < d →
    Completes (.stagedSettingsApply c) s fun t => t.inForce (R.MER_CH_ORIGIN c) = s.rd (R.MER_CH_ORIGIN c) ∧ t.held = [] ∧ t.clk = q ∧ Keeps [] [] [.held, .clk] s t)

/-- Commands of the Meridian and its reference input complete (R40, R38, R44, R46, R41). Where a clause fixes what the spec leaves open, it is the
model's choice: assumption 2, 8, 11, 89. -/
def Obligations.MeridianReferenceCommandsComplete : Prop :=
  -- MERIDIAN_ENABLE
  (∀ s : State, s.dark = false → s.active fnMer = false → cadOk (s.rdn R.MER_CAD_NUM) (s.rdn R.MER_CAD_DEN) (s.f F.MER_CAD_LINES_L_M) = true → s.on F.PTP_CTL_EN = false →
    s.mer.refLocked = false → Completes (.meridianEnable) s fun t => t.on F.MER_CTL_EN = true ∧ t.clk.run = true ∧ t.clk.vpos % t.clk.fu = 0 ∧ t.clk.frame = 0 ∧
    t.clk.num = s.rdn R.MER_CAD_NUM ∧ t.clk.den = s.rdn R.MER_CAD_DEN ∧ t.clk.lm = s.f F.MER_CAD_LINES_L_M ∧
    (t.fn fnMer = if s.on F.MER_CTL_START_DR then .ready else .starting) ∧
    Keeps ([R.MER_CTL, R.MER_STATUS] ++ (List.range 32).map R.ENC_CH_RC_MINLAT) [fnMer] [.clk, .mer, .fnAt, .log] s t) ∧
  -- REF_IN_PULSE
  (∀ (s : State) (r : Bool) (t0 : Nat), s.clk.run = true → s.on F.MER_REF_CTL_EDGE = !r → s.mer.loadArmed = false → s.mer.refLocked = false → s.mer.refLast = some t0 →
    (s.refInterval (s.clk.ns - t0)).natAbs ≤ s.f F.MER_PLAUS_PLAUS → s.mer.refRun + 1 < s.f F.MER_REF_CTL_CONFIRM →
    Completes (.refInPulse r) s fun t => t.mer.refRun = s.mer.refRun + 1 ∧ t.mer.refLast = some s.clk.ns ∧ t.mer.refLocked = false ∧ Keeps [] [] [.mer] s t) ∧
  -- REF_IN_MISS
  (∀ (s : State) (t0 : Nat), s.clk.run = true → s.mer.refLast = some t0 → s.mer.refLocked = true → s.f F.MER_STATUS_SRC = 3 →
    Completes (.refInMiss) s fun t => t.mer.refLocked = false ∧ t.mer.pendStop = true ∧
    t0 + s.f F.MER_REF_CTL_MISS * s.f F.MER_REF_CTL_PERIOD * s.clk.den * 1000000000 / s.clk.num < t.clk.ns ∧ Keeps [] [] [.mer, .clk] s t) ∧
  -- MERIDIAN_FAILURE_ACTION
  (∀ (s : State) (q : Clock), s.clk.holdAt = none → s.begin.toPhase 1 0 = some { s.begin with clk := q } → s.mer.pendStop = true → s.f F.MER_STATUS_SRC = 3 →
    s.mer.refLocked = false → s.on F.MER_CTL_AUTO = false → s.ptp.steer = s.f F.PTP_CTL_STEER → Completes (.meridianFailureAction) s fun t => t.f F.MER_STATUS_SRC = 0 ∧
    t.f F.MER_STATUS_STATE = 4 ∧ t.on F.MER_FLAGS_STOP = true ∧ t.rdn R.MER_STOP_CNT = (s.rdn R.MER_STOP_CNT + 1) % 2 ^ 32 ∧ t.clk.slew = 0 ∧ t.clk.vpos = q.vpos ∧
    t.mer.pendStop = false ∧ Logged [⟨0x0202, 3⟩] s t ∧ Keeps [R.MER_STATUS, R.MER_FLAGS, R.MER_STOP_CNT] [] [.clk, .mer, .log] s t) ∧
  -- MERIDIAN_RESUME
  (∀ (s : State) (h : Nat), s.clk.holdAt = some h → s.mer.firstLock = false → s.fn fnMer = .starting → (∀ n : Nat, n < 32 → s.active (fnEnc n) = false) →
    Completes (.meridianResume) s fun t => t.clk.holdAt = none ∧ t.mer.firstLock = true ∧ t.rdn R.MER_PHASE_ERR = 0 ∧ t.f F.MER_STATUS_STATE = 1 ∧
    t.rdn R.MER_STEP_CNT = (s.rdn R.MER_STEP_CNT + 1) % 2 ^ 32 ∧ t.on F.MER_FLAGS_STEP = true ∧ t.fn fnMer = .ready ∧ Logged [⟨0x0003, fnMer⟩, ⟨0x0205, 0⟩] s t ∧
    Keeps [R.MER_PHASE_ERR, R.MER_STATUS, R.MER_STEP_CNT, R.MER_FLAGS] [fnMer] [.clk, .mer, .fnAt, .log] s t)

/-- Commands that change the Meridian source, its frame count and its time flits complete (R39, R38, R41, R48). Where a clause fixes what the spec leaves
open, it is the model's choice: assumption 2, 6, 12, 69, 89. -/
def Obligations.MeridianTimeCommandsComplete : Prop :=
  -- SOURCE_REVERT
  (∀ (s : State) (q : Clock), s.NoMon → s.on F.MER_CTL_REVERT = true → s.on F.MER_CTL_AUTO = true → s.f F.MER_STATUS_SRC = 3 → s.srcLocked 3 = true → s.begin.chooseSrc = 1 →
    s.begin.toPos 1 (max ((Tab.get (fun _ => 0) s.mer.lockSince 1 + s.f F.MER_REVERT_HOLD_HOLD) * s.clk.fu) (s.clk.nextOf 1 0 s.clk.fu 0)) = some { s.begin with clk := q } →
    s.ptp.steer = 0 → s.mer.firstLock = true → Completes (.sourceRevert) s fun t => t.f F.MER_STATUS_SRC = 1 ∧ t.on F.MER_FLAGS_SWITCH = true ∧
    Logged [⟨0x0206, 1⟩, ⟨0x0207, 1⟩] s t ∧ Keeps [R.MER_STATUS, R.MER_FLAGS, R.MER_PHASE_ERR] [] [.clk, .mer, .log] s t) ∧
  -- FRAME_LOAD
  (∀ s : State, s.dark = false → s.rd64 R.MER_FRAME_LOAD_LO R.MER_FRAME_LOAD_HI % max 1 (s.f F.MER_REF_CTL_PERIOD) = 0 →
    Completes (.frameLoad) s fun t => t.mer.loadArmed = true ∧ Keeps [] [] [.mer] s t) ∧
  -- SLEW_COMPLETE
  (∀ s : State, s.f F.MER_STATUS_STATE = 2 → Completes (.slewComplete) s fun t => t.f F.MER_STATUS_STATE = 1 ∧ t.rdn R.MER_PHASE_ERR = 0 ∧ t.clk.slew = 0 ∧
    Keeps [R.MER_STATUS, R.MER_PHASE_ERR] [] [.clk] s t) ∧
  -- TIME_FLIT_SEND
  (∀ (s : State) (p : Nat) (q : Clock), s.ready fnMer = true → s.begin.toPhase 8 0 = some { s.begin with clk := q } → (List.range 8).filter s.linkUp = [p] →
    Completes (.timeFlitSend) s fun t => (∃ g, t.out = [.flit p g] ∧ g.ty = 4 ∧ g.payload = State.timeFlit { s with clk := q } p) ∧ t.clk = q ∧
    t.rdn (R.CNV_LINK_TX_CNT p) = (s.rdn (R.CNV_LINK_TX_CNT p) + 1) % 2 ^ 32 ∧ Keeps [R.CNV_LINK_TX_CNT p] [] [.clk, .out] s t) ∧
  -- TIME_FLIT_RECEIVE
  (∀ (s : State) (p : Nat) (g : TimeFlit), p < 8 → s.clk.run = true → g.num ≠ s.clk.num → Completes (.timeFlitReceive p g) s fun t => t.on F.MER_FLAGS_PEER = true ∧
    s.rdn R.MER_PEER_ERR ≤ t.rdn R.MER_PEER_ERR ∧ Logged [⟨0x0208, p⟩] s t ∧ Keeps [R.MER_PEER_ERR, R.MER_FLAGS] [] [.mer, .log] s t)

/-- Commands of PTP messages complete (R55, R51). Where a clause fixes what the spec leaves open, it is the model's choice: assumption 2, 3, 15, 18, 89,
90. -/
def Obligations.PtpMessageCommandsComplete : Prop :=
  -- SYNC_RECEIVE
  (∀ (s : State) (h : PtpHdr) (t1 : Nat) (cf logInt o l : Int), s.NoMon → s.bound 0 h = true → s.bound 1 h = false → (s.dom 0).parent = some h.source →
    (s.dom 0).lastUsed = none → o = s.sampleOffset 0 t1 cf → (s.dom 0).lastOfs = some l → (o - l).natAbs ≤ s.rdn (R.PTP_X_OUTLIER 0) → s.f (F.PTP_X_STATUS_STATE 0) = 3 →
    s.f (F.PTP_X_STATUS_STATE 1) = 0 → s.ptp.steer = 0 → s.clk.run = false →
    -64000000 ≤ (servo (s.dom 0).integ o (s.f (F.PTP_X_SERVO_KP 0)) (s.f (F.PTP_X_SERVO_KI 0))).1 + sar (o * 256) (s.f (F.PTP_X_SERVO_KP 0)) →
    (servo (s.dom 0).integ o (s.f (F.PTP_X_SERVO_KP 0)) (s.f (F.PTP_X_SERVO_KI 0))).1 + sar (o * 256) (s.f (F.PTP_X_SERVO_KP 0)) ≤ 64000000 →
    Completes (.syncReceive h t1 cf logInt) s fun t => (t.dom 0).ofs = o ∧ t.rdn (R.PTP_X_SYNC_CNT 0) = (s.rdn (R.PTP_X_SYNC_CNT 0) + 1) % 2 ^ 32 ∧
    t.rd (R.PTP_X_OFFSET 0) = BitVec.ofNat 32 (sat32 o) ∧ t.ptp.f = (servo (s.dom 0).integ o (s.f (F.PTP_X_SERVO_KP 0)) (s.f (F.PTP_X_SERVO_KI 0))).2 ∧ t.ptp.f0 = s.dcoNow ∧
    t.ptp.fAt = s.clk.ns ∧ t.rd (R.PTP_X_FREQ 0) = BitVec.ofNat 32 (ofSigned 32 t.ptp.f) ∧
    Keeps [R.PTP_X_SYNC_CNT 0, R.PTP_X_OFFSET 0, R.PTP_X_FREQ 0, R.PTP_X_STATUS 0] [] [.ptp] s t) ∧
  -- ANNOUNCE_RECEIVE
  (∀ (s : State) (h : PtpHdr) (a : Announce), s.bound 0 h = true → s.bound 1 h = false → (s.dom 0).gm = none → (s.dom 0).lastOfs = none → (s.dom 0).masters = [] →
    Completes (.announceReceive h a) s fun t => (t.dom 0).gm = some ⟨a.pri1, a.cls, a.acc, a.var, a.pri2, a.ident, a.steps⟩ ∧ (t.dom 0).annAt = some s.clk.ns ∧
    t.rd (R.PTP_X_GM_LO 0) = BitVec.ofNat 32 a.ident ∧ t.rd (R.PTP_X_GM_HI 0) = BitVec.ofNat 32 (a.ident / 4294967296) ∧ t.rdn (R.PTP_X_UTC_OFS 0) = a.utcOfs % 65536 ∧
    Keeps [R.PTP_X_GM_LO 0, R.PTP_X_GM_HI 0, R.PTP_X_UTC_OFS 0] [] [.ptp] s t) ∧
  -- DELAY_RESP_RECEIVE
  (∀ (s : State) (h : PtpHdr) (t4 t3 : Nat) (cf lm : Int), s.bound 0 h = true → s.bound 1 h = false → (s.dom 0).t3 = some t3 → s.on (F.PTP_X_CTL_DELAY 0) = false →
    (s.dom 0).syncSeen = true → (s.dom 0).mpdSeen = false → (s.dom 0).parent = some h.source →
    Completes (.delayRespReceive h t4 cf lm) s fun t => (t.dom 0).mpd = sar (((s.dom 0).syncT2 - (s.dom 0).syncT1 - (s.dom 0).syncCf) + ((t4 : Int) - t3 - cf)) 1 ∧
    t.rd (R.PTP_X_MPD 0) = BitVec.ofNat 32 (ofSigned 32 (t.dom 0).mpd) ∧ (t.dom 0).t3 = none ∧ Keeps [R.PTP_X_MPD 0] [] [.ptp] s t) ∧
  -- DELAY_REQ_SEND
  (∀ (s : State) (x w : Nat), (s.dom x).reqAt = some w → x < 2 → s.on F.PTP_CTL_EN = true → s.on (F.PTP_X_CTL_EN x) = true → s.on (F.PTP_X_CTL_DELAY x) = false →
    (s.dom x).gm.isSome = true → s.on F.BIN_STATUS_MUTED = false → Completes (.delayReqSend x) s fun t => (t.dom x).t3 = some t.clk.stc ∧
    t.out = [.ptpDelayReq x (if s.on (F.PTP_X_CTL_HYBRID x) then some (s.dom x).syncMac else none)] ∧ t.clk.ns = max s.clk.ns w ∧ Keeps [] [] [.ptp, .out, .clk, .fctr] s t) ∧
  -- PDELAY_REQ_SEND
  (∀ (s : State) (x w : Nat), (s.dom x).pdAt = some w → x < 2 → s.on F.PTP_CTL_EN = true → s.on (F.PTP_X_CTL_EN x) = true → s.on (F.PTP_X_CTL_DELAY x) = true →
    s.on F.BIN_STATUS_MUTED = false → Completes (.pdelayReqSend x) s fun t => (t.dom x).t1p = some t.clk.stc ∧ t.out = [.ptpPdelayReq x] ∧ t.clk.ns = max s.clk.ns w ∧
    (t.dom x).pdAt = some (t.clk.ns + logNs ((s.f (F.PTP_X_TIMEOUT_PDELAY_LOG x) : Int) - 3)) ∧ Keeps [] [] [.ptp, .out, .clk] s t) ∧
  -- PDELAY_REQ_RECEIVE
  (∀ (s : State) (h : PtpHdr) (n : Nat), s.bound 0 h = true → s.bound 1 h = false → s.on (F.PTP_X_CTL_DELAY 0) = true → s.on F.BIN_STATUS_MUTED = false →
    Completes (.pdelayReqReceive h n) s fun t => t.out = [.ptpPdelayResp 0 n s.clk.stc s.clk.stc] ∧ Keeps [] [] [.out] s t) ∧
  -- PDELAY_RESP_RECEIVE
  (∀ (s : State) (h : PtpHdr) (t2p t3p t1p : Nat) (cf : Int), s.bound 0 h = true → s.bound 1 h = false → (s.dom 0).t1p = some t1p → s.on (F.PTP_X_CTL_DELAY 0) = true →
    (s.dom 0).mpdSeen = false → Completes (.pdelayRespReceive h t2p t3p cf) s fun t => (t.dom 0).mpd = sar (((s.clk.stc : Int) - t1p) - ((t3p : Int) - t2p) - cf) 1 ∧
    t.rd (R.PTP_X_MPD 0) = BitVec.ofNat 32 (ofSigned 32 (t.dom 0).mpd) ∧ (t.dom 0).t1p = none ∧ Keeps [R.PTP_X_MPD 0] [] [.ptp] s t)

/-- Commands of PTP domains complete (R57, R61, R52). Where a clause fixes what the spec leaves open, it is the model's choice: assumption 2, 8, 21, 89. -/
def Obligations.PtpDomainCommandsComplete : Prop :=
  -- ANNOUNCE_TIMEOUT
  (∀ (s : State) (x t0 : Nat), x < 2 → (s.dom x).annAt = some t0 → s.f (F.PTP_X_STATUS_STATE x) = 3 → s.f F.MER_STATUS_SRC ≠ x + 1 →
    Completes (.announceTimeout x) s fun t => (t.dom x).gm = none ∧ t.f (F.PTP_X_STATUS_STATE x) = 4 ∧
    t.on (if x = 0 then F.PTP_FLAGS_LOSS_A else F.PTP_FLAGS_LOSS_B) = true ∧ t0 + s.f (F.PTP_X_TIMEOUT_ANNOUNCE_TO x) * logNs (s.dom x).annLog ≤ t.clk.ns ∧
    (t.dom x).ofs = (s.dom x).ofs ∧ Logged [⟨0x0303, x⟩] s t ∧ Keeps [R.PTP_X_STATUS x, R.PTP_FLAGS] [] [.ptp, .clk, .log] s t) ∧
  -- SYNC_TIMEOUT
  (∀ (s : State) (x t0 : Nat), x < 2 → (s.dom x).lastUsed = some t0 → s.f (F.PTP_X_STATUS_STATE x) = 3 → s.f F.MER_STATUS_SRC ≠ x + 1 →
    Completes (.syncTimeout x) s fun t => t.f (F.PTP_X_STATUS_STATE x) = 4 ∧ t.on (if x = 0 then F.PTP_FLAGS_LOSS_A else F.PTP_FLAGS_LOSS_B) = true ∧
    t0 + s.f (F.PTP_X_TIMEOUT_SYNC_TO x) * logNs (s.dom x).syncLog ≤ t.clk.ns ∧ (t.dom x).ofs = (s.dom x).ofs ∧ Logged [⟨0x0303, x⟩] s t ∧
    Keeps [R.PTP_X_STATUS x, R.PTP_FLAGS] [] [.ptp, .clk, .log] s t) ∧
  -- ACCEPT_A
  (∀ (s : State) (o : Int), s.NoMon → s.dark = false → (s.dom 0).refusedOfs = some o → s.f (F.PTP_X_STATUS_STATE 0) = 5 → s.f (F.PTP_X_STATUS_STATE 1) = 0 →
    s.ptp.steer = 1 → s.active fnMer = false → s.clk.run = false → Completes (.acceptA) s fun t => (t.dom 0).ofs = o ∧ t.f (F.PTP_X_STATUS_STATE 0) = 3 ∧
    t.rdn (R.PTP_X_SYNC_CNT 0) = (s.rdn (R.PTP_X_SYNC_CNT 0) + 1) % 2 ^ 32 ∧ t.rd (R.PTP_X_OFFSET 0) = BitVec.ofNat 32 (sat32 o) ∧
    Keeps [R.PTP_X_SYNC_CNT 0, R.PTP_X_OFFSET 0, R.PTP_X_STATUS 0, R.PTP_FLAGS] [] [.ptp] s t) ∧
  -- PTP_DOMAIN_ENABLE
  (∀ (s : State) (x : Nat), s.dark = false → x < 2 → (x = 0 ∨ (s.feature 8 = true ∧ s.compat = false)) → s.on F.PTP_CTL_EN = true → s.on (F.PTP_X_CTL_EN x) = false →
    s.on (F.PTP_X_CTL_EN (1 - x)) = false → s.f (F.PTP_X_STATUS_STATE (1 - x)) = 0 → s.f (F.PTP_X_CTL_TRANSPORT x) ≤ 2 → s.f (F.PTP_X_CTL_DOMAIN x) ≤ 127 →
    Completes (.ptpDomainEnable x true) s fun t => t.on (F.PTP_X_CTL_EN x) = true ∧ t.f (F.PTP_X_STATUS_STATE x) = 1 ∧ t.dom x = {} ∧
    Keeps ([R.PTP_X_CTL x, R.PTP_X_STATUS x] ++ (List.range 8).map R.ETH_PORT_JOIN_CNT) [] [.ptp, .eth] s t)

/-- Commands of the TOUT pulses and TIN captures complete (R62, R63, R64, R65). Where a clause fixes what the spec leaves open, it is the model's choice:
assumption 2, 6, 8. -/
def Obligations.PulseAndCaptureCommandsComplete : Prop :=
  -- TOUT_ARM
  (∀ (s : State) (k : Nat) (v : Word), s.dark = false → k < 4 → bitsOf v.toNat 1 0 = 1 → bitsOf v.toNat 2 2 = 1 → s.toutOk k true = true →
    (s.clk.stc : Int) < s.toutStart k true → (s.tout k).pulseEnd = none → Completes (.toutArm k v) s fun t => (t.tout k).armed = true ∧
    ((t.tout k).start : Int) = s.toutStart k true ∧ (t.tout k).width = s.rdn (R.PTP_TOUT_WIDTH k) ∧ t.f (F.PTP_TOUT_CTL_MODE k) = 1 ∧ t.f (F.PTP_TOUT_CTL_STATE k) = 1 ∧
    t.f (F.PTP_TOUT_CTL_POL k) = bitsOf v.toNat 3 3 ∧ Keeps [R.PTP_TOUT_CTL k] [] [.ptp] s t) ∧
  -- TOUT_DISARM
  (∀ (s : State) (k : Nat), s.dark = false → k < 4 → (s.tout k).pulseEnd = none → Completes (.toutDisarm k) s fun t => (t.tout k).armed = false ∧
    t.f (F.PTP_TOUT_CTL_MODE k) = 0 ∧ t.f (F.PTP_TOUT_CTL_STATE k) = 0 ∧ Keeps [R.PTP_TOUT_CTL k] [] [.ptp] s t) ∧
  -- TOUT_PULSE
  (∀ (s : State) (k : Nat), k < 4 → (s.tout k).armed = true → (s.tout k).stcBase = true → (s.tout k).periodic = false → 0 ≤ ((s.tout k).start : Int) + (s.tout k).offset →
    Completes (.toutPulse k) s fun t => t.out = [.tout k (!(s.tout k).activeLow)] ∧ t.rdn (R.PTP_TOUT_PULSE_CNT k) = (s.rdn (R.PTP_TOUT_PULSE_CNT k) + 1) % 2 ^ 32 ∧
    t.f (F.PTP_TOUT_CTL_STATE k) = 2 ∧ (t.tout k).armed = false ∧ (t.tout k).pulseEnd = some (t.clk.ns + (s.tout k).width) ∧
    ((s.tout k).start : Int) + (s.tout k).offset ≤ t.clk.stc ∧ Keeps [R.PTP_TOUT_PULSE_CNT k, R.PTP_TOUT_CTL k] [] [.ptp, .clk, .out] s t) ∧
  -- TOUT_PULSE_END
  (∀ (s : State) (k e0 : Nat), k < 4 → (s.tout k).pulseEnd = some e0 → (s.tout k).armed = false →
    Completes (.toutPulseEnd k) s fun t => t.out = [.tout k (s.tout k).activeLow] ∧ (t.tout k).pulseEnd = none ∧ t.f (F.PTP_TOUT_CTL_STATE k) = 0 ∧ e0 ≤ t.clk.ns ∧
    Keeps [R.PTP_TOUT_CTL k] [] [.ptp, .clk, .out] s t) ∧
  -- TIN_CAPTURE
  (∀ (s : State) (j : Nat) (r : Bool), j < 2 → s.on (F.PTP_TIN_CTL_EN j) = true → s.f (F.PTP_TIN_CTL_EDGE j) = 3 → s.on (F.PTP_TIN_CTL_EVT j) = false →
    (s.tin j).last = none → (s.tin j).fifo.length < 16 →
    Completes (.tinCapture j r) s fun t => (t.tin j).fifo = (s.tin j).fifo ++ [⟨s.clk.stc, s.clk.frame, s.clk.vpos % s.clk.fu, r⟩] ∧
    t.rdn (R.PTP_TIN_LEVEL j) = (s.tin j).fifo.length + 1 ∧ Keeps [R.PTP_TIN_LEVEL j] [] [.ptp] s t) ∧
  -- TIN_CAPTURE_POP
  (∀ (s : State) (path : BusPath) (j : Nat) (c : TinCap) (r : List TinCap), s.dark = false → path ≠ .service → j < 2 → (s.tin j).fifo = c :: r → s.latch = [] →
    Completes (.tinCapturePop path j) s fun t => t.out = [.read path (R.PTP_TIN_CTL j + 4) (BitVec.ofNat 32 (c.stc % 1000000000 + (if c.rising then 2 ^ 30 else 0) + 2 ^ 31))] ∧
    (t.tin j).fifo = r ∧ (t.tin j).latched = [c.stc / 1000000000 % 2 ^ 32, c.stc / 1000000000 / 2 ^ 32 % 65536, c.pos, c.frame % 2 ^ 32, c.frame / 2 ^ 32 % 65536] ∧
    Keeps [R.PTP_TIN_LEVEL j] [] [.ptp, .out] s t)

/-- Commands of the PLLs complete (R70, R75, R71, R77, R78). Where a clause fixes what the spec leaves open, it is the model's choice: assumption 2, 8,
92. -/
def Obligations.PllCommandsComplete : Prop :=
  -- PLL_LOCK
  (∀ (s : State) (m : Nat), m ≤ 10 → s.f (F.CKG_CPLL_STATUS_STATE m) = 1 → Completes (.pllLock (.core m)) s fun t => t.f (F.CKG_CPLL_STATUS_STATE m) = 3 ∧
    Keeps [R.CKG_CPLL_STATUS m] [] [] s t) ∧
  -- PLL_RESYNC
  (∀ (s : State) (m : Nat), (m = 8 ∨ m = 9) → s.f (F.CKG_CPLL_STATUS_STATE m) = 3 → Completes (.pllResync (.core m)) s fun t => t.f (F.CKG_CPLL_STATUS_STATE m) = 4 ∧
    t.f (F.CKG_CPLL_STATUS_SYNC m) = 0 ∧ t.on ⟨R.CKG_CORE_STATUS, m, m⟩ = true ∧ t.on ⟨R.CKG_CORE_STATUS, 16 + m, 16 + m⟩ = false ∧
    t.rdn (R.CKG_CPLL_RELOCK_CNT m) = (s.rdn (R.CKG_CPLL_RELOCK_CNT m) + 1) % 2 ^ 32 ∧ Logged [⟨0x0406, m⟩] s t ∧
    Keeps [R.CKG_CPLL_STATUS m, R.CKG_CORE_STATUS, R.CKG_CPLL_RELOCK_CNT m] [] [.log] s t) ∧
  -- PLL_LOSS_OF_LOCK
  (∀ (s : State) (m : Nat) (err : Int), m ≤ 10 → m ≠ 0 ∧ m ≠ 1 ∧ m ≠ 6 → s.f (F.CKG_CPLL_STATUS_STATE m) = 4 →
    Completes (.pllLossOfLock (.core m) err) s fun t => t.f (F.CKG_CPLL_STATUS_STATE m) = 5 ∧ t.on ⟨R.CKG_CORE_STATUS, m, m⟩ = false ∧ t.on ⟨R.CKG_CORE_FLAGS, m, m⟩ = true ∧
    t.rdn (R.CKG_CPLL_LOL_CNT m) = (s.rdn (R.CKG_CPLL_LOL_CNT m) + 1) % 2 ^ 32 ∧ t.rd (R.CKG_CPLL_PHASE m) = BitVec.ofNat 32 (sat32 err) ∧ Logged [⟨0x0402, m⟩] s t ∧
    Keeps [R.CKG_CPLL_STATUS m, R.CKG_CORE_STATUS, R.CKG_CORE_FLAGS, R.CKG_CPLL_LOL_CNT m, R.CKG_CPLL_PHASE m] [] [.log] s t) ∧
  -- PLL_LOSS_OF_REFERENCE
  (∀ (s : State) (q : Nat), q ≤ 15 → s.f (F.CKG_LPLL_STATUS_STATE q) = 4 → Completes (.pllLossOfReference (.lane q)) s fun t => t.f (F.CKG_LPLL_STATUS_STATE q) = 6 ∧
    t.on ⟨R.CKG_LANE_STATUS, q, q⟩ = false ∧ t.on ⟨R.CKG_LANE_FLAGS, 16 + q, 16 + q⟩ = true ∧ Logged [⟨0x0405, q⟩] s t ∧
    Keeps [R.CKG_LPLL_STATUS q, R.CKG_LANE_STATUS, R.CKG_LANE_FLAGS] [] [.log] s t) ∧
  -- RELOCK
  (∀ s : State, s.dark = false → s.relockOk 8 = true → Completes (.relock 8) s fun t => t.f (F.CKG_CPLL_STATUS_STATE 8) = 1 ∧ t.on ⟨R.CKG_CORE_STATUS, 8, 8⟩ = false ∧
    t.on ⟨R.CKG_CORE_STATUS, 24, 24⟩ = true ∧ Tab.get (fun _ => 0) t.ckg.relockAt 8 = s.clk.ns ∧ Keeps [R.CKG_CPLL_STATUS 8, R.CKG_CORE_STATUS] [] [.ckg, .cal] s t) ∧
  -- PLL_FREQ_WRITE
  (∀ (s : State) (v : Word), s.dark = false → s.cfgLocked = false → 11289600 ≤ v.toNat ∧ v.toNat ≤ 98304000 → s.rd (R.CKG_CPLL_FREQ 10) ≠ v → s.relockOk 10 = true →
    Completes (.pllFreqWrite 10 v) s fun t => t.rd (R.CKG_CPLL_FREQ 10) = v ∧ t.f (F.CKG_CPLL_STATUS_STATE 10) = 1 ∧ t.on ⟨R.CKG_CORE_STATUS, 10, 10⟩ = false ∧
    t.on ⟨R.CKG_CORE_STATUS, 26, 26⟩ = true ∧ Keeps [R.CKG_CPLL_FREQ 10, R.CKG_CPLL_STATUS 10, R.CKG_CORE_STATUS] [] [.ckg, .cal] s t)

/-- Commands of the clock outputs complete (R80). Where a clause fixes what the spec leaves open, it is the model's choice: assumption 2, 8. -/
def Obligations.ClockOutputCommandsComplete : Prop :=
  -- CLKOUT_ENABLE
  (∀ (s : State) (k : Nat), s.dark = false → k < 4 → s.on (F.CKG_CLKOUT_CTL_EN k) = false → s.clkoutOk k = true →
    Completes (.clkoutEnable k) s fun t => t.on (F.CKG_CLKOUT_CTL_EN k) = true ∧ t.f (F.CKG_CLKOUT_CTL_SRC k) = s.f (F.CKG_CLKOUT_CTL_SRC k) ∧ t.out = [.clkout k true] ∧
    Keeps [R.CKG_CLKOUT_CTL k] [] [.out] s t) ∧
  -- CLKOUT_DISABLE
  (∀ (s : State) (k : Nat), s.dark = false → k < 4 → s.on (F.CKG_CLKOUT_CTL_EN k) = true → s.rdn (R.CKG_CLKOUT_CTL k) < 0x10000 →
    Completes (.clkoutDisable k) s fun t => t.on (F.CKG_CLKOUT_CTL_EN k) = false ∧ t.out = [.clkout k false] ∧ Tab.get (fun _ => (none : Option Nat)) t.ckg.realign k = none ∧
    Keeps [R.CKG_CLKOUT_CTL k] [] [.out, .ckg] s t) ∧
  -- CLKOUT_REALIGN
  (∀ (s : State) (k sec : Nat), k < 4 → Tab.get (fun _ => (none : Option Nat)) s.ckg.realign k = some sec →
    Completes (.clkoutRealign k) s fun t => t.out = [.clkoutRealign k] ∧ Tab.get (fun _ => (none : Option Nat)) t.ckg.realign k = none ∧ sec * 1000000000 ≤ t.clk.stc ∧
    Keeps [] [] [.out, .ckg, .clk] s t)

/-- Commands of ingest flows complete (R84, R85, R88). Where a clause fixes what the spec leaves open, it is the model's choice: assumption 16, 17, 18,
23, 93. -/
def Obligations.IngestFlowCommandsComplete : Prop :=
  -- INGEST_PACKET_RECEIVE
  (∀ (s : State) (p : IngPacket) (f i n ts k : Nat) (data : List Nat) (nn : Int) (m : MergeSt), s.ready (fnIng p.port) = true → s.ingFlows.find? (s.ingMatch p) = some f →
    (police (s.flowSt f).tok (s.flowSt f).tLast s.clk.stc (bitsOf (s.ftw f 10) 19 0) (bitsOf (s.ftw f 11) 23 0) p.len (s.f (F.ING_PORT_OVH_OVH p.port))) = (k, true) →
    p.body = .anc40 n ts false data → ftType (s.ftw f 0) = 1 → ftTarget (s.ftw f 1) = i →
    mergeStep 16 (s.merge 1 i) (ftLeg (s.ftw f 0)) (s.clk.vpos / s.clk.fu) s.clk.vpos f n = (MergeRes.keep, nn, m) → s.clk.inHold = false →
    s.on (F.ING_IN_STATUS_RUN i) = true → s.assign i ts 32 = (s.inp i).idx → ((s.inp i).cur.anc.map List.length).sum + data.length ≤ 65536 →
    Completes (.ingestPacketReceive p) s fun t => (t.inp i).cur.anc = (s.inp i).cur.anc ++ [data] ∧ t.merge 1 i = m ∧ (t.flowSt f).tok = k ∧ (t.flowSt f).tLast = s.clk.stc ∧
    t.ftw f 12 = (s.ftw f 12 + 1) % 2 ^ 32 ∧ Keeps [] [] [.ing] s t) ∧
  -- ING_FT_READ
  (∀ (s : State) (f : Nat), s.dark = false → f < 4096 → Completes (.ingFtRead f) s fun t => (∀ w : Nat, w < 16 → t.rd (R.ING_FT_DATA w) = BitVec.ofNat 32 (s.ftw f w)) ∧
    Keeps ((List.range 16).map R.ING_FT_DATA) [] [] s t) ∧
  -- ING_FT_WRITE
  (∀ (s : State) (f : Nat), s.dark = false → f < 4096 → ftEn (s.ftw f 0) = false → s.ftWriteOk f (fun i => s.rdn (R.ING_FT_DATA i)) = true →
    ftEn (s.rdn (R.ING_FT_DATA 0)) = true → Completes (.ingFtWrite f) s fun t => (∀ w : Nat, w < 12 → t.ftw f w = s.rdn (R.ING_FT_DATA w)) ∧ (∀ w : Nat, 12 ≤ w → w < 16 →
    t.ftw f w = s.ftw f w) ∧ (t.flowSt f).tok = bitsOf (s.rdn (R.ING_FT_DATA 11)) 23 0 * 8000 ∧ (t.flowSt f).tLast = s.clk.stc ∧
    Keeps ((List.range 8).map R.ETH_PORT_JOIN_CNT) [] [.ing, .eth] s t) ∧
  -- LEG_LOSS
  (∀ (s : State) (y i : Nat) (q : Clock), i < 64 → s.begin.toPhase 2 0 = some { s.begin with clk := q } →
    s.ingFlows.any (fun f => ftType (s.ftw f 0) == y && ftTarget (s.ftw f 1) == i && ftLeg (s.ftw f 0) == 0) = true →
    s.ingFlows.any (fun f => ftType (s.ftw f 0) == y && ftTarget (s.ftw f 1) == i && ftLeg (s.ftw f 0) == 1) = true → (s.merge y i).legA = some (q.vpos / q.fu - 1) →
    (s.merge y i).legB = none → 0 < q.vpos / q.fu → Completes (.legLoss y i) s fun t => t.on F.ING_FLAGS_LEG_LOSS = true ∧ t.clk = q ∧ Logged [⟨0x0506, i⟩] s t ∧
    Keeps [R.ING_FLAGS] [] [.clk, .log] s t)

/-- Commands of inputs and decode contexts complete (R89, R103, R92, R90, R97, R98, R99). Where a clause fixes what the spec leaves open, it is the
model's choice: assumption 2, 8, 16, 17, 93. -/
def Obligations.IngestInputCommandsComplete : Prop :=
  -- INPUT_ENABLE
  (∀ (s : State) (i : Nat), s.dark = false → i < 64 → s.on (F.ING_IN_CTL_EN i) = false → (s.setF (F.ING_IN_CTL_EN i) 1).inputOk i = true →
    Completes (.inputEnable i) s fun t => t.on (F.ING_IN_CTL_EN i) = true ∧ t.inp i = { waiting := true, enV := some s.clk.vpos } ∧
    t.rdn (R.ING_IN_UNIT i) = (s.inputUnit i).getD 0 % 2 ^ 32 ∧ t.rdn (R.CAL_JIT_THR i) = 0 ∧
    t.rdn (R.HBM_S_POOL_NEED (s.f (F.ING_IN_CTL_STACK i))) = s.rdn (R.HBM_S_POOL_NEED (s.f (F.ING_IN_CTL_STACK i))) + s.inputDemand i ∧
    Keeps [R.ING_IN_CTL i, R.ING_IN_UNIT i, R.CAL_JIT_THR i, R.HBM_S_POOL_NEED (s.f (F.ING_IN_CTL_STACK i))] [] [.ing, .cal, .hbm] s t) ∧
  -- INPUT_START
  (∀ (s : State) (i k v e : Nat) (q : Clock), i < 64 → s.on (F.ING_IN_CTL_EN i) = true → (s.inp i).waiting = true → s.active (fnEnc (s.f (F.ING_IN_CTL_CH i))) = true →
    (s.inp i).enV = some e → s.begin.toChanAfter 2 (s.f (F.ING_IN_CTL_CH i)) e = some ({ s.begin with clk := q }, k, v) →
    Completes (.inputStart i) s fun t => t.on (F.ING_IN_STATUS_RUN i) = true ∧ (t.inp i).startV = v ∧ (t.inp i).idx = k ∧ (t.inp i).waiting = false ∧ t.clk = q ∧
    Keeps [R.ING_IN_STATUS i] [] [.ing, .clk] s t) ∧
  -- ACCEPTANCE_WINDOW_CLOSE
  (∀ (s : State) (i n d : Nat) (q : Clock) (l : LineSt), i < 64 → s.on (F.ING_IN_STATUS_RUN i) = true → s.on (F.ING_IN_CTL_SRC i) = false → (s.inp i).nextLine = n → 0 < n →
    n + 1 < s.f (F.ING_IN_SIZE_H i) → (s.inp i).latched = true → d = (s.inp i).startV + (s.inp i).org + (n + 1) * s.rdn (R.ING_IN_UNIT i) →
    s.begin.toPos 4 d = some { s.begin with clk := q } → Tab.get (fun _ => ({} : LineSt)) (s.inp i).cur.lines n = l → l.px.length = s.f (F.ING_IN_SIZE_W i) → l.at_ < d →
    s.f (F.ING_IN_SUBST_PIC_THR i) = 0 → Completes (.acceptanceWindowClose i) s fun t => (t.inp i).nextLine = n + 1 ∧
    (Tab.get (fun _ => ({} : LineSt)) (t.inp i).cur.lines n).closed = true ∧ (Tab.get (fun _ => ({} : LineSt)) (t.inp i).cur.lines n).px = l.px ∧
    (t.inp i).missing = (s.inp i).missing ∧ t.rdn (R.ING_IN_LINES_OK i) = (s.rdn (R.ING_IN_LINES_OK i) + 1) % 2 ^ 32 ∧ t.clk = q ∧
    Keeps [R.ING_IN_LINES_OK i] [] [.ing, .clk] s t) ∧
  -- INPUT_RESTART
  (∀ (s : State) (i k v u : Nat) (q : Clock), s.inputUnit i = some u → i < 64 → s.on (F.ING_IN_CTL_EN i) = true → s.on (F.ING_IN_STATUS_RUN i) = false →
    (s.inp i).waiting = false → s.active (fnEnc (s.f (F.ING_IN_CTL_CH i))) = true → s.begin.toChanStart 2 (s.f (F.ING_IN_CTL_CH i)) = some ({ s.begin with clk := q }, k, v) →
    Completes (.inputRestart i) s fun t => t.on (F.ING_IN_STATUS_RUN i) = true ∧ t.inp i = { startV := v, idx := k, runV := v } ∧ t.rdn (R.ING_IN_UNIT i) = u % 2 ^ 32 ∧
    t.clk = q ∧ Keeps [R.ING_IN_STATUS i, R.ING_IN_UNIT i] [] [.ing, .clk] s t) ∧
  -- DECODE_CONTEXT_ENABLE
  (∀ (s : State) (x : Nat), s.dark = false → x < 16 → s.on (F.DEC_CTX_CTL_EN x) = false → (s.setF (F.DEC_CTX_CTL_EN x) 1).ctxOk x = true → s.fn (fnDec x) = .off →
    Completes (.decodeContextEnable x) s fun t => t.on (F.DEC_CTX_CTL_EN x) = true ∧ t.fn (fnDec x) = .starting ∧ t.f (F.DEC_CTX_STATUS_B2_0 x) = 1 ∧ t.ctx x = {} ∧
    t.rdn (R.HBM_S_POOL_NEED (s.f (F.DEC_CTX_CTL_STACK x))) = s.rdn (R.HBM_S_POOL_NEED (s.f (F.DEC_CTX_CTL_STACK x))) + s.ctxDemand x ∧
    Keeps ([R.DEC_CTX_CTL x, R.DEC_CTX_STATUS x, R.HBM_S_POOL_NEED (s.f (F.DEC_CTX_CTL_STACK x))] ++ (List.range 4).map R.DEC_ENG_LOAD) [fnDec x] [.ing, .hbm, .fnAt] s t) ∧
  -- ACCESS_UNIT_START
  (∀ (s : State) (e x : Nat) (u : AuSt), e < 4 →
    (List.range 16).filter (fun y => s.on (F.DEC_CTX_CTL_EN y) && s.f (F.DEC_CTX_CTL_ENGINE y) == e && s.ready (fnDec y)) = [x] → (s.ctx x).running = none →
    (s.ctx x).units.find? (fun v => v.complete) = some u → Completes (.accessUnitStart e) s fun t => (t.ctx x).running = some u ∧ (t.ctx x).units = (s.ctx x).units.erase u ∧
    (t.ctx x).taken = (u.pkts.map (fun w => w.1)).getLast? ∧ Keeps [] [] [.ing] s t) ∧
  -- ACCESS_UNIT_DECODED
  (∀ (s : State) (x : Nat) (a : AuInfo) (u : AuSt), x < 16 → (s.ctx x).running = some u → s.ready (fnDec x) = true → (s.ctx x).pics.length < 24 → a.unsupported = false →
    a.error = false → a.missingSlice = false → a.lost = [] → a.irap = true → a.gdrRecovery = none → a.rpSei = none → (s.ctx x).concealing = false → (s.ctx x).entry = false →
    s.f (F.DEC_CTX_STATUS_B2_0 x) = 2 → Completes (.accessUnitDecoded x a) s fun t => (t.ctx x).running = none ∧ (t.ctx x).pics.dropLast = (s.ctx x).pics ∧
    (t.ctx x).pics.getLast?.map (fun p => (p.poc, p.frame, p.doneV, p.width, p.height, p.concealed)) = some (a.poc, s.unitFrame x u, s.clk.vpos, a.width, a.height, false) ∧
    t.rdn (R.DEC_CTX_PIC_CNT x) = (s.rdn (R.DEC_CTX_PIC_CNT x) + 1) % 2 ^ 32 ∧ t.f (F.DEC_CTX_STATUS_B2_0 x) = 2 ∧ t.f (F.DEC_CTX_STATUS_LAST x) = 0 ∧
    Keeps [R.DEC_CTX_PIC_CNT x, R.DEC_CTX_STATUS x] [] [.ing, .fctr] s t) ∧
  -- DECODED_PICTURE_DECISION
  (∀ (s : State) (i x : Nat) (q : Clock) (p : DecPic), i < 64 → s.on (F.ING_IN_STATUS_RUN i) = true → s.on (F.ING_IN_CTL_SRC i) = true → (s.inp i).nextLine = 1 →
    s.begin.toPos 4 ((s.inp i).startV + (s.inp i).org) = some { s.begin with clk := q } → s.f (F.ING_IN_CTL_DEC_CTX i) = x → (s.ctx x).pics = [p] → (s.inp i).latched = true →
    (s.inp i).stopV = none → p.frame ≤ (s.inp i).idx → (s.inp i).idx < p.frame + (s.ctxDivisor i).getD 1 → p.doneV < (s.inp i).startV + (s.inp i).org →
    p.width = s.f (F.ING_IN_SIZE_W i) → p.height = s.f (F.ING_IN_SIZE_H i) → p.chroma422 = (s.f (F.ING_IN_CTL_FMT i) == 0) → p.depth10 = (s.f (F.ING_IN_CTL_DEPTH i) == 1) →
    p.concealed = false → (s.inp i).jitMin = none → s.active (fnEnc (s.f (F.ING_IN_CTL_CH i))) = true →
    Completes (.decodedPictureDecision i) s fun t => ((t.inp i).prev).map (fun c => (c.base, c.subst, c.conc)) = some (.decoded p.src, false, false) ∧
    (t.inp i).startV = (({ s with clk := q } : State).chanFrom (s.f (F.ING_IN_CTL_CH i)) ((s.inp i).startV + 1)).2 ∧
    t.rdn (R.ING_IN_LINES_OK i) = (s.rdn (R.ING_IN_LINES_OK i) + s.f (F.ING_IN_SIZE_H i)) % 2 ^ 32 ∧ t.clk = q ∧
    Keeps [R.ING_IN_LINES_OK i, R.ING_IN_STATUS i] [] [.ing, .clk] s t)

/-- Commands of composition sets complete (R108, R109, R110, R111). Where a clause fixes what the spec leaves open, it is the model's choice: assumption
2, 8, 18, 19, 27, 94. -/
def Obligations.CompositionSetCommandsComplete : Prop :=
  -- COMPOSITION_ENABLE
  (∀ (s : State) (c : Nat), s.dark = false → c < 32 → s.on (F.COMP_CH_CTL_EN c) = false → s.fn (fnComp c) = .off → (s.setF (F.COMP_CH_CTL_EN c) 1).compEnableOk c = true →
    Completes (.compositionEnable c) s fun t => t.on (F.COMP_CH_CTL_EN c) = true ∧ t.fn (fnComp c) = .starting ∧ (t.cmp c).commits = 0 ∧ (t.cmp c).started = false ∧
    Keeps ([R.COMP_CH_CTL c, R.COMP_LOAD] ++ (List.range 32).map R.COMP_CH_LOAD) [fnComp c] [.comp, .fnAt] s t) ∧
  -- COMMIT
  (∀ (s : State) (c j : Nat) (d : Option Nat), (j = 8 ∧ (s.begin.pendRegs c j).en = true) = False → s.dark = false → c < 32 → j < 9 → s.fn (fnComp c) = .off →
    (s.cmp c).pendOf j = none → (s.cmp c).histOf j = [] → s.begin.setOk c j (s.begin.pendRegs c j) = true →
    Completes (.commit c j d) s fun t => (t.cmp c).histOf j = [(s.clk.vpos, s.begin.pendRegs c j)] ∧ (t.cmp c).pendOf j = none ∧ t.f ⟨setStatusReg c j, 0, 0⟩ = 0 ∧
    (t.f ⟨setStatusReg c j, 1, 1⟩ = if (s.begin.pendRegs c j).en then 1 else 0) ∧ (t.cmp c).commits = (s.cmp c).commits + 1 ∧ Keeps [setStatusReg c j] [] [.comp] s t) ∧
  -- CANCEL
  (∀ (s : State) (c j : Nat), s.dark = false → c < 32 → j < 8 → Completes (.cancel c j) s fun t => (t.cmp c).pendOf j = none ∧ (t.cmp c).histOf j = (s.cmp c).histOf j ∧
    t.f ⟨setStatusReg c j, 0, 0⟩ = 0 ∧ t.f ⟨setStatusReg c j, 2, 2⟩ = 0 ∧ Keeps ([setStatusReg c j, R.COMP_LOAD] ++ (List.range 32).map R.COMP_CH_LOAD) [] [.comp] s t) ∧
  -- FENCE_WRITE
  (∀ (s : State) (k v : Nat), s.dark = false → k < 256 → Tab.get (fun _ => (none : Option (Nat × Nat))) s.comp.fencePrev k = none →
    Completes (.fenceWrite k v) s fun t => t.rd (R.COMP_FENCE_LO k) = BitVec.ofNat 32 v ∧ t.rd (R.COMP_FENCE_HI k) = BitVec.ofNat 32 (v / 2 ^ 32) ∧
    Tab.get (fun _ => (none : Option (Nat × Nat))) t.comp.fencePrev k = some (s.clk.vpos, s.rd64 (R.COMP_FENCE_LO k) (R.COMP_FENCE_HI k)) ∧
    Keeps [R.COMP_FENCE_LO k, R.COMP_FENCE_HI k] [] [.comp, .wpend, .latch] s t) ∧
  -- FLIP_EVALUATION
  (∀ (s : State) (c j : Nat) (p : PendSet) (q : Clock), c < 32 → j < 8 → s.active (fnComp c) = true → s.begin.toFlip c = some { s.begin with clk := q } →
    s.usesHelmFlips = false → (s.cmp c).pend = [(j, some p)] → p.fence = none → p.stamp < q.vpos →
    Completes (.flipEvaluation c) s fun t => (t.cmp c).histOf j = (s.cmp c).histOf j ++ [((q.vpos / q.fu + 1) * q.fu, p.val)] ∧ (t.cmp c).pendOf j = none ∧
    t.f ⟨setStatusReg c j, 0, 0⟩ = 0 ∧ (t.f ⟨setStatusReg c j, 1, 1⟩ = if p.val.en then 1 else 0) ∧
    ((t.cmp c).evals.head?.map (fun w => (w.v, w.flips, w.held, w.done))) = some (q.vpos, 2 ^ j, 0, true) ∧ t.clk = q ∧
    Keeps ([setStatusReg c j, R.COMP_LOAD] ++ (List.range 32).map R.COMP_CH_LOAD) [] [.comp, .clk] s t)

/-- Commands of composed rows and of a composition channel that stops complete (R14, R125, R127, R113). Where a clause fixes what the spec leaves open,
it is the model's choice: assumption 2, 8, 27, 94. -/
def Obligations.CompositionRowCommandsComplete : Prop :=
  -- COMPOSITION_DISABLE
  (∀ (s : State) (c : Nat), s.dark = false → c < 32 → s.on (F.COMP_CH_CTL_EN c) = true → s.rdn (R.COMP_CH_CTL c) < 2 ^ 12 → s.fn (fnComp c) = .ready →
    s.compBusy c s.clk.vpos = true → Completes (.compositionDisable c) s fun t => t.on (F.COMP_CH_CTL_EN c) = false ∧ t.fn (fnComp c) = .draining ∧
    (t.cmp c).stopV = some s.clk.vpos ∧ Keeps [R.COMP_CH_CTL c] [fnComp c] [.comp, .fnAt] s t) ∧
  -- MESH_CHECK_COMPLETE
  (∀ (s : State) (c e : Nat) (p : PendSet), c < 32 → (s.cmp c).checkEnd = some e → (s.cmp c).pendOf 8 = some p →
    (List.range (ceilDiv (s.meshDims c).2 8)).all (fun r => s.begin.meshRowOk c (bitsOf p.val.mesh 21 0) r) = true → s.active (fnComp c) = true →
    Completes (.meshCheckComplete c) s fun t => (t.cmp c).checkEnd = none ∧ (t.cmp c).pendOf 8 = some p ∧ t.f ⟨R.COMP_CH_SET_STATUS c, 4, 4⟩ = 0 ∧ e ≤ t.clk.ns ∧
    Keeps [R.COMP_CH_SET_STATUS c] [] [.comp, .clk] s t) ∧
  -- ROW_COMPOSITION
  (∀ (s : State) (c r : Nat) (q : Clock), c < 32 → s.ready (fnComp c) = true → (s.cmp c).started = true → (s.cmp c).stopV = none → (s.cmp c).row = r → 0 < r →
    r + 1 < s.rowsOf c → s.begin.toPos 4 (s.rowA c (s.cmp c).startV r + (s.cmp c).org - s.originOf (R.MER_CH_ORIGIN c)) = some { s.begin with clk := q } →
    Completes (.rowComposition c) s fun t => (t.cmp c).row = r + 1 ∧
    Tab.get (fun _ => ({} : RowPix)) (t.cmp c).rows r = outputRow (s.f (F.COMP_CH_CTL_MATRIX c)) (s.f (F.ENC_CH_FORMAT_CHROMA c)) (depthBits (s.f (F.ENC_CH_FORMAT_DEPTH c))) ((List.range (min 64 (s.f (F.ENC_CH_SIZE_H c) - 64 * r))).map (fun l => (List.range (s.f (F.ENC_CH_SIZE_W c))).map (fun x => s.begin.outputPx c (s.cmp c).startV (s.cmp c).idx (s.cmp c).noSrc x (64 * r + l)))) ∧
    t.clk = q ∧ Keeps [] [] [.comp, .clk] s t) ∧
  -- SET_RETIRE
  (∀ (s : State) (c e v0 v1 : Nat) (a b : SetVal) (q : Clock), c < 32 → (s.cmp c).endV = some e → s.begin.toPos 4 e = some { s.begin with clk := q } →
    (s.cmp c).hist = [(0, [(v0, a), (v1, b)])] → a.used = true → v0 ≤ v1 → v1 ≤ (s.cmp c).startV → Completes (.setRetire c) s fun t => (t.cmp c).histOf 0 = [(v1, b)] ∧
    (t.cmp c).endV = none ∧ t.rdn (setRetireReg c 0) = (s.rdn (setRetireReg c 0) + 1) % 2 ^ 32 ∧ t.clk = q ∧ Logged [⟨0x0706, c⟩] s t ∧
    Keeps [setRetireReg c 0] [] [.comp, .clk, .log] s t) ∧
  -- COMPOSITION_DRAINED
  (∀ (s : State) (c e w : Nat) (q : Clock), c < 32 → s.fn (fnComp c) = .draining → (s.cmp c).endV = some e → (s.cmp c).stopV = some w → w ≤ (s.cmp c).startV →
    s.begin.toPos 4 e = some { s.begin with clk := q } → (s.cmp c).pend = [] → (s.cmp c).hist = [] → Completes (.compositionDrained c) s fun t => t.fn (fnComp c) = .off ∧
    t.f (F.COMP_CH_STATUS_RUN c) = 0 ∧ (t.cmp c).started = false ∧ (t.cmp c).endV = none ∧ t.clk = q ∧
    Keeps ([R.COMP_CH_STATUS c, R.COMP_LOAD] ++ (List.range 32).map R.COMP_CH_LOAD) [fnComp c] [.comp, .clk, .fnAt, .held] s t)

/-- Commands of the HBM stacks and their refresh complete (R315, R318, R307, R308). Where a clause fixes what the spec leaves open, it is the model's
choice: assumption 2, 8, 48, 98. -/
def Obligations.MemoryStackCommandsComplete : Prop :=
  -- HBM_STACK_ENABLE
  (∀ (s : State) (n : Nat), s.dark = false → n < 4 → s.fn (fnHbm n) = .off → s.pinRateOk = true → s.cal.sights = [] →
    Completes (.hbmStackEnable n) s fun t => t.on (F.HBM_S_CTL_EN n) = true ∧ t.fn (fnHbm n) = .starting ∧ t.on (F.HBM_S_STATUS_SELF_REFRESH n) = false ∧
    Keeps [R.HBM_S_CTL n, R.HBM_S_STATUS n] [fnHbm n] [.fnAt] s t) ∧
  -- HBM_TRAINING_COMPLETE
  (∀ (s : State) (n ms : Nat), n < 4 → s.fn (fnHbm n) = .starting → Completes (.hbmTrainingComplete n true ms 0) s fun t => t.fn (fnHbm n) = .ready ∧
    t.f (F.HBM_S_TRAIN_MS_DURATION n) = ms % 2 ^ 16 ∧ (t.stk n).fails = 0 ∧ (t.stk n).readyV = s.clk.vpos ∧ Logged [⟨0x0003, fnHbm n⟩, ⟨0x1002, n⟩] s t ∧
    Keeps [R.HBM_S_TRAIN_MS n] [fnHbm n] [.fnAt, .hbm, .log] s t) ∧
  -- HBM_TRAINING_COMPLETE
  (∀ (s : State) (n ms : Nat), n < 4 → s.fn (fnHbm n) = .starting → (s.stk n).fails < 2 →
    Completes (.hbmTrainingComplete n false ms 0) s fun t => t.fn (fnHbm n) = .starting ∧ t.f (F.HBM_S_TRAIN_MS_DURATION n) = ms % 2 ^ 16 ∧
    t.on (F.HBM_S_FLAGS_TRAIN_FAIL n) = true ∧ t.stk n = { s.stk n with fails := (s.stk n).fails + 1 } ∧ Keeps [R.HBM_S_TRAIN_MS n, R.HBM_S_FLAGS n] [] [.hbm] s t) ∧
  -- HBM_TRAINING_COMPLETE
  (∀ (s : State) (n ms : Nat), n < 4 → s.fn (fnHbm n) = .starting → (s.stk n).fails = 2 → s.isl.queue.length < 8 →
    Completes (.hbmTrainingComplete n false ms 0) s fun t => t.fn (fnHbm n) = .fault ∧ t.rdn R.GLB_LAST_FAULT_FN = fnHbm n ∧ t.f (F.HBM_S_TRAIN_MS_DURATION n) = ms % 2 ^ 16 ∧
    t.on (F.HBM_S_FLAGS_TRAIN_FAIL n) = true ∧ (t.stk n).fails = 0 ∧ Logged [⟨0x0002, fnHbm n⟩, ⟨0x1003, n⟩] s t ∧
    Keeps [R.HBM_S_TRAIN_MS n, R.HBM_S_FLAGS n, R.GLB_LAST_FAULT_FN, R.BIN_FAULT] [fnHbm n] [.hbm, .fnAt, .isl, .log] s t) ∧
  -- HBM_STACK_DISABLE
  (∀ (s : State) (n : Nat), s.dark = false → n < 4 → s.fn (fnHbm n) = .ready → s.stackUsed n = false → s.cal.sights = [] →
    Completes (.hbmStackDisable n) s fun t => t.on (F.HBM_S_CTL_EN n) = false ∧ t.fn (fnHbm n) = .off ∧ t.on (F.HBM_S_STATUS_SELF_REFRESH n) = true ∧
    (t.stk n).throttles = [] ∧ Keeps [R.HBM_S_CTL n, R.HBM_S_STATUS n, R.HBM_S_THROTTLED n] [fnHbm n] [.fnAt, .hbm] s t) ∧
  -- REFRESH
  (∀ (s : State) (n p b : Nat) (last : Bool) (reqs : List HbmAcc), n < 4 → p < 32 → s.ready (fnHbm n) = true → hbmReqs p reqs = [] → (s.pcSt n p).queue = [] →
    rfmDue (s.schedCfg n) ((s.pcSt n p).bank b) = false → Completes (.refresh n p ⟨b, last, reqs⟩) s fun t => ((t.pcSt n p).bank b).row = none ∧
    ((t.pcSt n p).bank b).post = 0 ∧ (((t.pcSt n p).bank b).rows = if last || ((s.pcSt n p).bank b).postLast then [] else ((s.pcSt n p).bank b).rows) ∧ Keeps [] [] [.hbm] s t) ∧
  -- HBM_HOT_CHANGE
  (∀ (s : State) (n : Nat) (c : Int), n < 4 → s.on (F.HBM_S_TEMP_HOT n) = false → 85 ≤ c → c ≤ 127 →
    Completes (.hbmHotChange n c) s fun t => t.on (F.HBM_S_TEMP_HOT n) = true ∧ t.f (F.HBM_S_TEMP_SENSOR n) = c.toNat ∧ t.on (F.HBM_S_FLAGS_HOT n) = true ∧
    Logged [⟨0x100A, n⟩] s t ∧ Keeps [R.HBM_S_TEMP n, R.HBM_S_FLAGS n] [] [.log] s t) ∧
  -- REFRESH_MANAGEMENT
  (∀ (s : State) (n p b : Nat) (reqs : List HbmAcc), n < 4 → p < 32 → s.ready (fnHbm n) = true → hbmReqs p reqs = [] → (s.pcSt n p).queue = [] →
    rfmDue (s.schedCfg n) ((s.pcSt n p).bank b) = true → requesterClass ((s.pcSt n p).bank b).offender = 0 →
    Completes (.refreshManagement n p b reqs) s fun t => ((t.pcSt n p).bank b).rows = [] ∧ ((t.pcSt n p).bank b).tally = [] ∧ ((t.pcSt n p).bank b).row = none ∧
    t.rdn (R.HBM_S_RFM_CNT n) = (s.rdn (R.HBM_S_RFM_CNT n) + 1) % 2 ^ 32 ∧ t.rdn (R.HBM_S_PC_RFM_CNT n p) = (s.rdn (R.HBM_S_PC_RFM_CNT n p) + 1) % 2 ^ 32 ∧
    t.rdn (R.HBM_S_ISO_RH_CNT n) = (s.rdn (R.HBM_S_ISO_RH_CNT n) + 1) % 2 ^ 32 ∧ t.on (F.HBM_S_FLAGS_ISO_RH n) = true ∧
    Logged [⟨0x1006, 32 * n + p⟩, ⟨0x1008, 32 * n + p⟩] s t ∧ Keeps [R.HBM_S_RFM_CNT n, R.HBM_S_PC_RFM_CNT n p, R.HBM_S_ISO_RH_CNT n, R.HBM_S_FLAGS n] [] [.hbm, .log] s t)

/-- Commands of HBM throttling, promotion and errors complete (R309, R305, R312, R313, R314, R316). Where a clause fixes what the spec leaves open, it is
the model's choice: assumption 2, 5, 48, 98. -/
def Obligations.MemoryErrorCommandsComplete : Prop :=
  -- THROTTLE_END
  (∀ (s : State) (n p r : Nat) (x : Throttle), n < 4 → p < 32 → (s.stk n).throttles.find? (fun y => y.id == r && y.pc == p) = some x →
    Completes (.throttleEnd n p r) s fun t => (t.stk n).throttles = (s.stk n).throttles.erase x ∧
    t.f (F.HBM_S_THROTTLED_THROTTLES n) = ((s.stk n).throttles.erase x).length % 16 ∧ x.since + s.f (F.HBM_S_RH_HOLD_HOLD n) * s.refreshWindow n ≤ t.clk.ns ∧
    Keeps [R.HBM_S_THROTTLED n] [] [.hbm, .clk] s t) ∧
  -- PROMOTION
  (∀ (s : State) (n p r : Nat) (reqs : List HbmAcc) (y : HbmReq), n < 4 → p < 32 → s.ready (fnHbm n) = true → requesterClass r ≠ 0 → hbmReqs p reqs = [] →
    (s.pcSt n p).queue = [y] → y.id = r → promotedAt (s.schedCfg n) (s.hcycle s.clk.ns) y = false → (s.stk n).throttles = [] → ((s.pcSt n p).bank (bankOf y.ofs)).row = none →
    rfmDue (s.schedCfg n) ((s.pcSt n p).bank (bankOf y.ofs)) = true → Completes (.promotion n p ⟨r, reqs⟩) s fun t => t.out = [.promoted n p r] ∧ (t.pcSt n p).queue = [y] ∧
    t.clk.ns = max s.clk.ns (ceilDiv ((y.arr + (s.schedCfg n).age (requesterClass r)) * 1000000000) (max 1 (s.schedCfg n).hz)) ∧ Keeps [] [] [.out, .hbm, .clk] s t) ∧
  -- ECC_CORRECTION
  (∀ (s : State) (a : Nat), s.burstIn a = true → Tab.get (fun _ => (none : Option Nat)) (s.stk (stackOf a)).ceFrame (pcOf a) ≠ some (s.clk.vpos / s.clk.fu) →
    Completes (.eccCorrection a) s fun t => t.rdn (R.HBM_S_CE_CNT (stackOf a)) = (s.rdn (R.HBM_S_CE_CNT (stackOf a)) + 1) % 2 ^ 32 ∧
    t.rdn (R.HBM_S_PC_CE_CNT (stackOf a) (pcOf a)) = (s.rdn (R.HBM_S_PC_CE_CNT (stackOf a) (pcOf a)) + 1) % 2 ^ 32 ∧ t.on (F.HBM_S_FLAGS_CE (stackOf a)) = true ∧
    Tab.get (fun _ => (none : Option Nat)) (t.stk (stackOf a)).ceFrame (pcOf a) = some (s.clk.vpos / s.clk.fu) ∧ Logged [⟨0x1004, 32 * stackOf a + pcOf a⟩] s t ∧
    Keeps [R.HBM_S_CE_CNT (stackOf a), R.HBM_S_PC_CE_CNT (stackOf a) (pcOf a), R.HBM_S_FLAGS (stackOf a)] [] [.hbm, .log] s t) ∧
  -- UNCORRECTABLE_READ
  (∀ (s : State) (a r : Nat), s.burstIn a = true → r ≠ 74 → r < 128 → Completes (.uncorrectableRead a r) s fun t => (∀ b : Nat, a / 32 * 32 ≤ b → b < a / 32 * 32 + 32 →
    t.hbmByte b = 0) ∧ KeepsMem [(a / 32 * 32, 32)] s t ∧ t.rd (R.HBM_S_UE_ADDR_LO (stackOf a)) = BitVec.ofNat 32 a ∧
    t.rdn (R.HBM_S_UE_ADDR_HI (stackOf a)) = a / 2 ^ 32 % 64 + r * 256 ∧ t.rdn (R.HBM_S_UE_CNT (stackOf a)) = (s.rdn (R.HBM_S_UE_CNT (stackOf a)) + 1) % 2 ^ 32 ∧
    t.on (F.HBM_S_FLAGS_UE (stackOf a)) = true ∧ Logged [⟨0x1005, stackOf a⟩] s t ∧
    Keeps [R.HBM_S_UE_ADDR_LO (stackOf a), R.HBM_S_UE_ADDR_HI (stackOf a), R.HBM_S_UE_CNT (stackOf a), R.HBM_S_FLAGS (stackOf a)] [] [.hbm, .mem, .log] s t) ∧
  -- PATROL_SCRUB
  (∀ (s : State) (n p : Nat), n < 4 → s.ready (fnHbm n) = true → s.f (F.HBM_S_SCRUB_HOURS n) ≠ 0 → p = pcOf (n * 2 ^ 36 + (s.stk n).scrub * 256) →
    Completes (.patrolScrub n .clean) s fun t => (t.stk n).scrub = ((s.stk n).scrub + 1) % 150994944 ∧ (t.stk n).throttles = (s.stk n).throttles ∧
    t.clk.ns = max s.clk.ns (s.stk n).scrubAt ∧ (t.stk n).scrubAt = t.clk.ns + s.f (F.HBM_S_SCRUB_HOURS n) * 3600000000000 / 150994944 ∧
    (t.pcSt n p).queue.map (fun w => (w.id, w.ofs)) = (s.pcSt n p).queue.map (fun w => (w.id, w.ofs)) ++ (List.range 8).map (fun w => (77, (s.stk n).scrub * 256 + 32 * w)) ∧
    Keeps [] [] [.hbm, .clk] s t) ∧
  -- CA_PARITY_ERROR
  (∀ (s : State) (n p : Nat), n < 4 → p < 32 → s.ready (fnHbm n) = true → Tab.get (fun _ => ([] : List Nat)) (s.stk n).parity p = [] →
    Completes (.caParityError n p) s fun t => t.on (F.HBM_S_FLAGS_CA_PARITY n) = true ∧ Tab.get (fun _ => ([] : List Nat)) (t.stk n).parity p = [s.clk.ns] ∧
    t.fn (fnHbm n) = .ready ∧ Keeps [R.HBM_S_FLAGS n] [] [.hbm] s t)

/-- Commands that enable, start and stop an encode channel complete (R147, R139, R141, R149). Where a clause fixes what the spec leaves open, it is the
model's choice: assumption 2, 4, 8, 24, 100. -/
def Obligations.ChannelStartCommandsComplete : Prop :=
  -- CHANNEL_ENABLE
  (∀ (s : State) (n lv : Nat), s.dark = false → n < 32 → s.on (F.ENC_CH_CTL_EN n) = false →
    levelMinOk (s.on (F.ENC_CH_CTL_CODEC n)) (s.f (F.ENC_CH_CTL_LEVEL_MIN n)) = true → s.fn (fnEnc n) = .off → (s.setF (F.ENC_CH_CTL_EN n) 1).encEnableOk n = true →
    s.encLevel n = some lv → s.fsOn = false → s.cfgLocked = false → Completes (.channelEnable n) s fun t => t.on (F.ENC_CH_CTL_EN n) = true ∧ t.fn (fnEnc n) = .starting ∧
    t.f (F.ENC_CH_STATUS_LEVEL n) = lv % 256 ∧ t.rdn (R.ENC_CH_REF_BUFS n) = s.refBufs n % 2 ^ 32 ∧
    t.rdn (R.HBM_S_POOL_NEED (stackOf (s.refAddr n))) = (s.rdn (R.HBM_S_POOL_NEED (stackOf (s.refAddr n))) + s.encDemand n) % 2 ^ 32 ∧ (t.encCh n).started = false ∧
    Keeps ([R.ENC_CH_CTL n, R.ENC_CH_STATUS n, R.ENC_CH_REF_BUFS n, R.ENC_CH_REF_SIZE n, R.ENC_CH_RC_CPB n, R.HBM_S_POOL_NEED (stackOf (s.refAddr n)), R.ENC_LOAD_PIX, R.ENC_LOAD_SMP, R.DIS_STATUS, R.DIS_LAG] ++ (List.range 32).map R.ENC_CH_RC_MINLAT ++ (List.range 32).map R.EGS_CH_DONDIFF) [fnEnc n] [.enc, .hbm, .fnAt, .dis] s t) ∧
  -- CHANNEL_READY
  (∀ (s : State) (n k v : Nat) (q : Clock), n < 32 → s.fn (fnEnc n) = .starting → (s.encDeps n).all s.ready = true →
    s.begin.toChanStart 2 n = some ({ s.begin with clk := q }, k, v) → ((s.encDeps n).map s.fnSince).foldl max 0 < v → (s.encCh n).started = false →
    (s.encCh n).member = false → (s.encCh n).restart = [] → oneStack s.lbAddr 0x1401000 = true → 0 < s.rdn (R.ENC_CH_REF_BUFS n) →
    s.refAddr n + s.rdn (R.ENC_CH_REF_BUFS n) * s.encPicBytes n ≤ 2 ^ 38 → Completes (.channelReady n) s fun t => t.fn (fnEnc n) = .ready ∧ (t.encCh n).started = true ∧
    (t.encCh n).k = k ∧ (t.encCh n).pics.map (fun p => p.startV) = (s.encCh n).pics.map (fun p => p.startV) ++ [v] ∧
    (t.encCh n).pics.getLast?.map (fun p => (p.k, p.phase, p.seqStart)) = some (k, 0, true) ∧ t.rdn (R.ENC_CH_CLVS_CNT n) = (s.rdn (R.ENC_CH_CLVS_CNT n) + 1) % 2 ^ 32 ∧
    t.rdn (R.ENC_CH_PIC_CNT n) = (s.rdn (R.ENC_CH_PIC_CNT n) + 1) % 2 ^ 32 ∧ t.rdn (R.ENC_CH_K_LO n) = k % 2 ^ 32 ∧ t.clk = q ∧
    KeepsMem [(s.lbAddr + 0x1000 + 0x20000 * n + 0x400 * (k % 128), 1024), (s.refAddr n, s.rdn (R.ENC_CH_REF_BUFS n) * s.encPicBytes n)] s t ∧
    Logged [⟨0x0003, fnEnc n⟩, ⟨0x0804, n⟩] s t ∧
    Keeps [R.ENC_CH_CLVS_CNT n, R.ENC_CH_PIC_CNT n, R.ENC_CH_K_LO n, R.ENC_CH_K_HI n, R.ENC_CH_STATUS n] [fnEnc n] [.enc, .hbm, .mem, .fnAt, .log, .clk, .egs] s t) ∧
  -- PICTURE_START
  (∀ (s : State) (n k v : Nat) (q : Clock), n < 32 → s.ready (fnEnc n) = true → s.begin.toChanStart 2 n = some ({ s.begin with clk := q }, k, v) →
    ({ s with clk := q } : State).startKind n k v = ⟨false, false, false⟩ → (s.encCh n).member = false → oneStack s.lbAddr 0x1401000 = true →
    Completes (.pictureStart n) s fun t => t.ready (fnEnc n) = true ∧ (t.encCh n).k = k ∧ (t.encCh n).i = (s.encCh n).i + 1 ∧
    (t.encCh n).pics.map (fun p => p.startV) = (s.encCh n).pics.map (fun p => p.startV) ++ [v] ∧
    (t.encCh n).pics.getLast?.map (fun p => (p.k, p.phase, p.seqStart)) = some (k, (k - (s.encCh n).kg) % max 1 (s.encCh n).per, false) ∧
    t.rdn (R.ENC_CH_PIC_CNT n) = (s.rdn (R.ENC_CH_PIC_CNT n) + 1) % 2 ^ 32 ∧ t.rdn (R.ENC_CH_K_LO n) = k % 2 ^ 32 ∧ t.clk = q ∧
    KeepsMem [(s.lbAddr + 0x1000 + 0x20000 * n + 0x400 * (k % 128), 1024)] s t ∧
    Keeps [R.ENC_CH_PIC_CNT n, R.ENC_CH_K_LO n, R.ENC_CH_K_HI n, R.ENC_CH_STATUS n] [] [.enc, .hbm, .mem, .clk, .egs] s t) ∧
  -- RESTART
  (∀ (s : State) (n : Nat), s.dark = false → n < 32 → s.active (fnEnc n) = true → s.clk.vpos ∉ (s.encCh n).restart →
    Completes (.restart n) s fun t => (t.encCh n).restart = (s.encCh n).restart ++ [s.clk.vpos] ∧ (t.encCh n).pics = (s.encCh n).pics ∧
    Keeps ((List.range 32).map R.ENC_CH_RC_MINLAT ++ (List.range 32).map R.EGS_CH_DONDIFF) [] [.enc] s t) ∧
  -- CHANNEL_DISABLE
  (∀ (s : State) (n : Nat), s.dark = false → n < 32 → s.on (F.ENC_CH_CTL_EN n) = true → levelMinOk (s.on (F.ENC_CH_CTL_CODEC n)) (s.f (F.ENC_CH_CTL_LEVEL_MIN n)) = true →
    s.fn (fnEnc n) = .ready → s.encBusy n = true → s.encOwed n = false → s.rdn (R.ENC_CH_CTL n) < 2 ^ 9 →
    Completes (.channelDisable n) s fun t => t.on (F.ENC_CH_CTL_EN n) = false ∧ t.fn (fnEnc n) = .draining ∧ (t.encCh n).stopV = some s.clk.vpos ∧
    (t.encCh n).rows = (s.encCh n).rows ∧ (t.encCh n).pics.getLast?.map (fun p => p.last) = some true ∧
    Keeps ([R.ENC_CH_CTL n] ++ (List.range 32).map R.ENC_CH_RC_MINLAT ++ (List.range 32).map R.EGS_CH_DONDIFF) [fnEnc n] [.enc, .held, .fnAt] s t) ∧
  -- CHANNEL_DRAINED
  (∀ (s : State) (n : Nat), n < 32 → s.fn (fnEnc n) = .draining → s.encBusy n = false → (s.encCh n).owed = false → s.allJobs.filter (fun b => b.ch == n) = [] →
    (List.range 64).all (fun p => !s.on (F.DIS_PIPE_STATUS_COOL_REQ p)) = true → (s.demandOf (fnEnc n)).1 < 4 →
    Completes (.channelDrained n) s fun t => t.fn (fnEnc n) = .off ∧ t.rdn (R.ENC_CH_REF_BUFS n) = 0 ∧ t.rdn (R.ENC_CH_REF_SIZE n) = 0 ∧ t.f (F.ENC_CH_STATUS_LEVEL n) = 0 ∧
    t.demandOf (fnEnc n) = (0, 0) ∧ t.rdn (R.HBM_S_POOL_NEED (s.demandOf (fnEnc n)).1) = s.rdn (R.HBM_S_POOL_NEED (s.demandOf (fnEnc n)).1) - (s.demandOf (fnEnc n)).2 ∧
    (t.encCh n).pics = [] ∧ Logged [⟨0x0805, n⟩] s t ∧
    Keeps [R.ENC_CH_REF_BUFS n, R.ENC_CH_REF_SIZE n, R.ENC_CH_RC_CPB n, R.ENC_CH_STATUS n, R.DIS_CH_CTL n, R.HBM_S_POOL_NEED (s.demandOf (fnEnc n)).1, R.ENC_LOAD_PIX, R.ENC_LOAD_SMP, R.DIS_STATUS, R.DIS_LAG] [fnEnc n] [.enc, .hbm, .held, .fnAt, .dis, .log] s t)

/-- Commands of budgets, stand-ins and released slices complete (R181, R202, R201, R200). Where a clause fixes what the spec leaves open, it is the
model's choice: assumption 2, 4, 28, 95. -/
def Obligations.ChannelRowCommandsComplete : Prop :=
  -- ROW_BUDGET
  (∀ (s : State) (n w : Nat) (pc : PicSt) (ro : RowSt) (q : Clock), n < 32 → s.ready (fnEnc n) = true →
    (s.encCh n).pics.find? (fun p => p.rows.any (fun r => !r.budgeted)) = some pc → (s.encCh n).picOf ro.rho = some pc → pc.rows.find? (fun r => !r.budgeted) = some ro →
    ro.r ≠ 0 → s.begin.toPos 7 ro.a = some { s.begin with clk := q } →
    (({ s with clk := q } : State).budgetAt n pc ro ((({ s with clk := q } : State).bucket n (s.encCh n) ro.a).2 / s.zUnit)).2 = false → s.f (F.ENC_CH_LAYOUT_NCOL n) = w →
    s.rdn R.DIS_LB_HEAD + w < 262144 → s.on F.DIS_TRK_CTL_EN = false → oneStack s.lbAddr 0x1401000 = true →
    Completes (.rowBudget n) s fun t => ((t.encCh n).rows.find? (fun x => x.rho == ro.rho)).map (fun x => (x.budgeted, x.bud)) = some (true, (({ s with clk := q } : State).budgetAt n pc ro ((({ s with clk := q } : State).bucket n (s.encCh n) ro.a).2 / s.zUnit)).1) ∧
    t.rdn R.DIS_LB_HEAD = s.rdn R.DIS_LB_HEAD + w ∧ (∀ i : Nat, i < w →
    (t.job (s.rdn R.DIS_LB_HEAD + i)).map (fun b => ([b.ch, b.k, b.row, b.col], b.st)) = some ([n, pc.k, ro.r, i], .ready)) ∧ t.clk = q ∧
    KeepsMem [(s.lbAddr, 16), (s.lbRec (s.rdn R.DIS_LB_HEAD), 64 * w)] s t ∧ Keeps [R.DIS_LB_HEAD, R.ENC_CH_RC_VMAX n] [] [.enc, .dis, .hbm, .mem, .clk] s t) ∧
  -- STAND_IN_DECISION
  (∀ (s : State) (n j : Nat) (ro : RowSt) (jb : Job) (pc : PicSt) (q : Clock), n < 32 → (s.encCh n).rows.find? (fun r => r.budgeted && !r.psDone && !r.released) = some ro →
    (s.encCh n).picOf jb.rho = some pc → s.bufAddr n pc.buf + s.encPicBytes n ≤ 2 ^ 38 → ro.jobs = [j] → s.job j = some jb → jb.idx = j → j < 262144 → jb.ch = n →
    jb.st = .ready → jb.pipe = none → s.begin.toPos 7 jb.ps = some { s.begin with clk := q } → (s.encCh n).restart = [] →
    (s.encCh n).pics.all (fun p => p.dipDone || p.rows.any (fun x => !x.budgeted)) = true → s.on F.DIS_TRK_CTL_EN = false → oneStack s.lbAddr 0x1401000 = true →
    Completes (.standInDecision n) s fun t => (t.job j).map (fun x => (x.st, x.out, x.doneV)) = some (.standIn, some (({ s with clk := q } : State).codeStandIn pc jb), q.vpos) ∧
    t.rdn R.DIS_STANDIN_CNT = (s.rdn R.DIS_STANDIN_CNT + 1) % 2 ^ 32 ∧ t.on F.DIS_FLAGS_STAND_IN = true ∧ (t.encCh n).restart = [jb.ps] ∧ t.clk = q ∧
    KeepsMem [(s.lbRec j + 56, 4), (s.bufAddr n pc.buf, s.encPicBytes n)] s t ∧ Logged [⟨0x0A04, n⟩] s t ∧
    Keeps [R.DIS_STANDIN_CNT, R.DIS_FLAGS] [] [.enc, .dis, .hbm, .mem, .clk, .log] s t) ∧
  -- SLICE_RELEASE
  (∀ (s : State) (n j : Nat) (ro : RowSt) (pc : PicSt) (jb : Job) (q : Clock), n < 32 → (s.encCh n).rows.find? (fun r => !r.released) = some ro → ro.budgeted = true →
    (s.encCh n).cut = false → ro.jobs = [j] → s.job j = some jb → jb.idx = j → j < 262144 → jb.ch = n → jb.st = .done → (s.encCh n).picOf ro.rho = some pc →
    s.begin.toPos 8 ro.rel = some { s.begin with clk := q } → s.twinned n = false → s.egsAll = [] → (List.range 8).all (fun p => decide (q.ns < (s.eport p).busy)) = true →
    s.on F.DIS_TRK_CTL_EN = false → oneStack s.lbAddr 0x1401000 = true →
    Completes (.sliceRelease n) s fun t => ((t.encCh n).rows.find? (fun x => x.rho == ro.rho)).map (fun x => x.released) = some true ∧
    (t.job j).map (fun x => (x.st, x.out)) = some (.released, jb.out) ∧ t.rdn (R.ENC_CH_SLICE_CNT n) = (s.rdn (R.ENC_CH_SLICE_CNT n) + 1) % 2 ^ 32 ∧ t.clk = q ∧
    KeepsMem [(s.lbRec j + 56, 4)] s t ∧ Keeps [R.ENC_CH_SLICE_CNT n] [] [.enc, .dis, .hbm, .mem, .clk, .fctr] s t) ∧
  -- SEQUENCE_FREE
  (∀ (s : State) (n : Nat) (ro : RowSt) (pc : PicSt) (q : Clock), n < 32 → (s.encCh n).pics = [pc] → pc.rows.find? (fun r => r.released && !r.freed) = some ro →
    s.begin.toPos 8 (ro.rel + s.toFu 72000) = some { s.begin with clk := q } →
    Completes (.sequenceFree n) s fun t => ((t.encCh n).rows.find? (fun x => x.rho == ro.rho)).map (fun x => x.freed) = some true ∧
    (t.encCh n).rows.map (fun x => x.rho) = pc.rows.map (fun x => x.rho) ∧ t.clk = q ∧ Keeps [] [] [.enc, .clk] s t)

/-- Commands that name and start jobs complete (R194, R195, R203). Where a clause fixes what the spec leaves open, it is the model's choice: assumption
2, 28, 30. -/
def Obligations.JobStartCommandsComplete : Prop :=
  -- JOB_NAMED
  (∀ (s : State) (j p : Nat) (jb : Job), s.allJobs = [jb] → jb.idx = j → j < 262144 → jb.st = .ready → jb.isReplay = false → s.dis.spare.isSome = true → jb.row = 0 →
    (List.range 64).filter (fun x => s.pipeAvail x && s.dis.spare != some x && (s.pipe x).next.isNone) = [p] → s.on F.DIS_TRK_CTL_EN = false →
    oneStack s.lbAddr 0x1401000 = true → Completes (.jobNamed) s fun t => (t.job j).map (fun x => (x.st, x.pipe, x.moved)) = some (.named, some p, false) ∧
    (t.pipe p).next = some j ∧ (t.pipe p).running = (s.pipe p).running ∧ t.on (F.DIS_PIPE_STATUS_NEXT p) = true ∧
    Tab.get (fun _ => (none : Option Nat)) t.dis.lastPipe (bandKey jb.ch jb.col jb.rho) = some p ∧ (t.pipe p).stage = some (s.startBox jb) ∧ (t.pipe p).namedNs = s.clk.ns ∧
    KeepsMem [(s.lbRec j + 56, 4)] s t ∧ Keeps [R.DIS_PIPE_STATUS p] [] [.dis, .hbm, .mem] s t) ∧
  -- JOB_START
  (∀ (s : State) (p j : Nat) (jb : Job) (q : Clock), p < 64 → (s.pipe p).running = none → (s.pipe p).next = some j → s.job j = some jb → jb.idx = j → j < 262144 →
    jb.isReplay = false → jb.row = 0 → s.begin.toPos 7 jb.dPos = some { s.begin with clk := q } → q.vpos ≤ jb.latest → s.on F.DIS_TRK_CTL_EN = false →
    oneStack s.lbAddr 0x1401000 = true → Completes (.jobStart p) s fun t => (t.job j).map (fun x => (x.st, x.pipe, x.ran)) = some (.running, some p, p :: jb.ran) ∧
    (t.pipe p).running = some j ∧ (t.pipe p).next = none ∧ (t.pipe p).startV = q.vpos ∧ (t.pipe p).warm = false ∧
    t.rdn (R.ENC_PIPE_COLD_CNT p) = (s.rdn (R.ENC_PIPE_COLD_CNT p) + 1) % 2 ^ 32 ∧ t.rdn (R.DIS_PIPE_JOB_CNT p) = (s.rdn (R.DIS_PIPE_JOB_CNT p) + 1) % 2 ^ 32 ∧
    t.rdn R.DIS_JOB_CNT = (s.rdn R.DIS_JOB_CNT + 1) % 2 ^ 32 ∧ t.f (F.DIS_PIPE_STATUS_CH p) = jb.ch % 32 ∧ t.clk = q ∧ KeepsMem [(s.lbRec j + 56, 4)] s t ∧
    Keeps [R.DIS_PIPE_STATUS p, R.ENC_PIPE_FILL_SMP p, R.ENC_PIPE_COLD_CNT p, R.DIS_PIPE_JOB_CNT p, R.DIS_JOB_CNT] [] [.dis, .hbm, .mem, .clk] s t) ∧
  -- LATEST_START
  (∀ (s : State) (j : Nat) (jb : Job) (q : Clock), s.job j = some jb → jb.idx = j → jb.isReplay = false → jb.missed = false → jb.st = .ready → jb.ch < 32 →
    s.begin.toPos 7 jb.latest = some { s.begin with clk := q } → Tab.get (fun _ => (none : Option Nat)) s.dis.missFrame jb.ch ≠ some (q.vpos / q.fu) →
    s.on F.DIS_TRK_CTL_EN = false → Completes (.latestStart j) s fun t => (t.job j).map (fun x => (x.missed, x.st)) = some (true, .ready) ∧
    t.rdn R.DIS_DLMISS_CNT = (s.rdn R.DIS_DLMISS_CNT + 1) % 2 ^ 32 ∧ t.on F.DIS_FLAGS_DL_MISS = true ∧ t.clk = q ∧ Logged [⟨0x0A07, jb.ch⟩] s t ∧
    Keeps [R.DIS_DLMISS_CNT, R.DIS_FLAGS] [] [.dis, .clk, .log] s t) ∧
  -- COMPLETION_DEADLINE
  (∀ (s : State) (p j : Nat) (jb : Job) (q : Clock), p < 64 → (s.pipe p).running = some j → s.job j = some jb → jb.idx = j → j < 262144 → jb.st = .running →
    jb.replays < s.f F.DIS_CTL_MAX_REPLAY → (s.pipe p).faults = [] → 1 < s.f F.DIS_RETIRE_THR → s.on F.DIS_TRK_CTL_EN = false → oneStack s.lbAddr 0x1401000 = true →
    jb.isReplay = false → jb.missed = false → s.begin.toPos 7 jb.deadline = some { s.begin with clk := q } →
    Completes (.completionDeadline p) s fun t => (t.pipe p).running = none ∧ (t.job j).map (fun x => (x.st, x.isReplay, x.fault)) = some (.ready, true, 5) ∧
    t.rdn (R.DIS_PIPE_FAULT_CNT p) = (s.rdn (R.DIS_PIPE_FAULT_CNT p) + 1) % 2 ^ 32 ∧ t.rdn (R.DIS_PIPE_LAST_FAULT p) = 5 ∧ t.on F.DIS_FLAGS_FAULT = true ∧
    KeepsMem [(s.lbRec j + 56, 4)] s t ∧ Logged [⟨0x0A02, p⟩] s t ∧ t.clk = q ∧
    Keeps [R.DIS_PIPE_STATUS p, R.DIS_PIPE_FAULT_CNT p, R.DIS_PIPE_LAST_FAULT p, R.DIS_FLAGS] [] [.dis, .hbm, .mem, .clk, .log] s t)

/-- Commands of job results, faults and replays complete (R201, R203, R168, R204, R192). Where a clause fixes what the spec leaves open, it is the
model's choice: assumption 2, 4, 28, 30, 95. -/
def Obligations.JobResultCommandsComplete : Prop :=
  -- JOB_COMPLETE
  (∀ (s : State) (p j : Nat) (jb : Job) (pc : PicSt), s.NoMon → p < 64 → (s.pipe p).running = some j → s.job j = some jb → jb.idx = j → j < 262144 → jb.st = .running →
    jb.isReplay = false → (s.encCh jb.ch).picOf jb.rho = some pc → s.jobWidth jb ≤ 9 → (s.toNs (s.pipe p).fillNs).clk.vpos < s.deadlineOf p jb →
    (s.toNs (s.pipe p).fillNs).clk.vpos < jb.ps → s.bufAddr jb.ch pc.buf + s.encPicBytes jb.ch ≤ 2 ^ 38 →
    (s.encCh jb.ch).pics.all (fun x => x.dipDone || x.rows.any (fun y => !y.budgeted)) = true → s.on F.DIS_TRK_CTL_EN = false → oneStack s.lbAddr 0x1401000 = true →
    Completes (.jobComplete p false) s fun t => (t.job j).map (fun x => (x.st, x.out, x.doneV)) = some (.done, some (s.codeJob pc jb), t.clk.vpos) ∧
    (t.pipe p).running = none ∧ (t.pipe p).last = some (jb.ch, jb.k, jb.row, jb.col) ∧ t.clk = (s.toNs (s.pipe p).fillNs).clk ∧
    KeepsMem [(s.lbRec j + 56, 4), (s.bufAddr jb.ch pc.buf, s.encPicBytes jb.ch)] s t ∧ Keeps [R.DIS_PIPE_STATUS p] [] [.dis, .hbm, .mem, .clk] s t) ∧
  -- JOB_COMPLETE
  (∀ (s : State) (p j : Nat) (jb : Job), p < 64 → (s.pipe p).running = some j → s.job j = some jb → jb.idx = j → j < 262144 → jb.st = .running →
    jb.replays < s.f F.DIS_CTL_MAX_REPLAY → (s.pipe p).faults = [] → 1 < s.f F.DIS_RETIRE_THR → s.on F.DIS_TRK_CTL_EN = false → oneStack s.lbAddr 0x1401000 = true →
    jb.isReplay = false → (s.toNs (s.pipe p).fillNs).clk.vpos < s.deadlineOf p jb → (s.toNs (s.pipe p).fillNs).clk.vpos < jb.ps →
    Completes (.jobComplete p true) s fun t => (t.pipe p).running = none ∧ (t.job j).map (fun x => (x.st, x.isReplay, x.fault)) = some (.ready, true, 4) ∧
    t.rdn (R.DIS_PIPE_FAULT_CNT p) = (s.rdn (R.DIS_PIPE_FAULT_CNT p) + 1) % 2 ^ 32 ∧ t.rdn (R.DIS_PIPE_LAST_FAULT p) = 4 ∧ t.on F.DIS_FLAGS_FAULT = true ∧
    KeepsMem [(s.lbRec j + 56, 4)] s t ∧ Logged [⟨0x0A02, p⟩] s t ∧ t.clk = (s.toNs (s.pipe p).fillNs).clk ∧
    Keeps [R.DIS_PIPE_STATUS p, R.DIS_PIPE_FAULT_CNT p, R.DIS_PIPE_LAST_FAULT p, R.DIS_FLAGS] [] [.dis, .hbm, .mem, .clk, .log] s t) ∧
  -- PIPE_FAULT_REPORT
  (∀ (s : State) (p c j : Nat) (jb : Job), p < 64 → (s.pipe p).running = some j → s.job j = some jb → jb.idx = j → j < 262144 → jb.st = .running →
    jb.replays < s.f F.DIS_CTL_MAX_REPLAY → (s.pipe p).faults = [] → 1 < s.f F.DIS_RETIRE_THR → s.on F.DIS_TRK_CTL_EN = false → oneStack s.lbAddr 0x1401000 = true →
    (c = 1 ∨ c = 2 ∨ c = 3) → Completes (.pipeFaultReport p c) s fun t => (t.pipe p).running = none ∧
    (t.job j).map (fun x => (x.st, x.isReplay, x.fault)) = some (.ready, true, c) ∧ t.rdn (R.DIS_PIPE_FAULT_CNT p) = (s.rdn (R.DIS_PIPE_FAULT_CNT p) + 1) % 2 ^ 32 ∧
    t.rdn (R.DIS_PIPE_LAST_FAULT p) = c ∧ t.on F.DIS_FLAGS_FAULT = true ∧ KeepsMem [(s.lbRec j + 56, 4)] s t ∧ Logged [⟨0x0A02, p⟩] s t ∧
    t.rdn (R.ENC_PIPE_PAR_CNT p) = (s.rdn (R.ENC_PIPE_PAR_CNT p) + (if c = 1 then 1 else 0)) % 2 ^ 32 ∧
    Keeps [R.DIS_PIPE_STATUS p, R.DIS_PIPE_FAULT_CNT p, R.DIS_PIPE_LAST_FAULT p, R.DIS_FLAGS, R.ENC_PIPE_PAR_CNT p] [] [.dis, .hbm, .mem, .log] s t) ∧
  -- REFERENCE_READ_UNCORRECTABLE
  (∀ (s : State) (p j : Nat) (jb : Job), p < 64 → (s.pipe p).running = some j → s.job j = some jb → jb.idx = j → j < 262144 → jb.st = .running → jb.ch < 32 →
    (s.encCh jb.ch).restart = [] → s.on F.DIS_TRK_CTL_EN = false → oneStack s.lbAddr 0x1401000 = true →
    Completes (.referenceReadUncorrectable ⟨p, false⟩) s fun t => (t.pipe p).running = none ∧ (t.job j).map (fun x => (x.st, x.fault)) = some (.failed, 7) ∧
    t.rdn (R.DIS_PIPE_LAST_FAULT p) = 7 ∧ t.rdn (R.ENC_CH_REF_ERR_CNT jb.ch) = (s.rdn (R.ENC_CH_REF_ERR_CNT jb.ch) + 1) % 2 ^ 32 ∧ (t.encCh jb.ch).restart = [s.clk.vpos] ∧
    KeepsMem [(s.lbRec j + 56, 4)] s t ∧ Logged [⟨0x0810, jb.ch⟩, ⟨0x0A02, p⟩] s t ∧
    Keeps [R.DIS_PIPE_STATUS p, R.DIS_PIPE_FAULT_CNT p, R.DIS_PIPE_LAST_FAULT p, R.DIS_FLAGS, R.ENC_CH_REF_ERR_CNT jb.ch] [] [.dis, .enc, .hbm, .mem, .log] s t) ∧
  -- REFERENCE_READ_UNCORRECTABLE
  (∀ (s : State) (p j : Nat) (jb : Job), p < 64 → (s.pipe p).next = some j → s.job j = some jb → jb.idx = j → j < 262144 → jb.st = .named → jb.ch < 32 →
    (s.encCh jb.ch).restart = [] → s.on F.DIS_TRK_CTL_EN = false → oneStack s.lbAddr 0x1401000 = true →
    Completes (.referenceReadUncorrectable ⟨p, true⟩) s fun t => (t.pipe p).next = none ∧ (t.pipe p).stage = none ∧ (t.pipe p).running = (s.pipe p).running ∧
    (t.job j).map (fun x => (x.st, x.fault)) = some (.failed, 7) ∧ t.rdn (R.DIS_PIPE_LAST_FAULT p) = 7 ∧
    t.rdn (R.ENC_CH_REF_ERR_CNT jb.ch) = (s.rdn (R.ENC_CH_REF_ERR_CNT jb.ch) + 1) % 2 ^ 32 ∧ (t.encCh jb.ch).restart = [s.clk.vpos] ∧ KeepsMem [(s.lbRec j + 56, 4)] s t ∧
    Logged [⟨0x0810, jb.ch⟩, ⟨0x0A02, p⟩] s t ∧
    Keeps [R.DIS_PIPE_STATUS p, R.DIS_PIPE_FAULT_CNT p, R.DIS_PIPE_LAST_FAULT p, R.DIS_FLAGS, R.ENC_CH_REF_ERR_CNT jb.ch] [] [.dis, .enc, .hbm, .mem, .log] s t) ∧
  -- REPLAY_START
  (∀ (s : State) (j p : Nat) (jb : Job) (q : Clock), s.allJobs = [jb] → s.job j = some jb → jb.idx = j → j < 262144 → jb.st = .ready → jb.isReplay = true →
    s.lbReadOk jb = true → s.dis.spare = none → s.replayPipe jb = some p → (s.pipe p).running = none → s.begin.toPos 7 jb.dPos = some { s.begin with clk := q } →
    s.on F.DIS_TRK_CTL_EN = false → oneStack s.lbAddr 0x1401000 = true →
    Completes (.replayStart) s fun t => (t.job j).map (fun x => (x.st, x.pipe, x.replays)) = some (.running, some p, jb.replays + 1) ∧ (t.pipe p).running = some j ∧
    (t.pipe p).warm = false ∧ (t.pipe p).startV = q.vpos ∧ (t.pipe p).next = none ∧ t.clk = q ∧ t.rdn (R.ENC_PIPE_COLD_CNT p) = (s.rdn (R.ENC_PIPE_COLD_CNT p) + 1) % 2 ^ 32 ∧
    t.rdn (R.DIS_PIPE_JOB_CNT p) = (s.rdn (R.DIS_PIPE_JOB_CNT p) + 1) % 2 ^ 32 ∧ KeepsMem [(s.lbRec j + 56, 4)] s t ∧
    Keeps [R.DIS_PIPE_STATUS p, R.ENC_PIPE_FILL_SMP p, R.ENC_PIPE_COLD_CNT p, R.DIS_PIPE_JOB_CNT p] [] [.dis, .hbm, .mem, .clk] s t) ∧
  -- SPARE_NAMING
  (∀ (s : State) (p : Nat), s.dis.spare = none → s.active fnDis = true → (List.range 64).find? s.pipeFree = some p →
    Completes (.spareNaming) s fun t => t.dis.spare = some p ∧ t.on F.DIS_STATUS_SPARE = true ∧ t.f F.DIS_STATUS_SPARE_PIPE = p ∧ t.dis.jobs = s.dis.jobs ∧
    t.dis.pipes = s.dis.pipes ∧ Keeps [R.DIS_STATUS, R.DIS_LAG] [] [.dis] s t)

/-- Commands of the pipes and the Dispatcher complete (R199, R197, R351, R212, R210, R360). Where a clause fixes what the spec leaves open, it is the
model's choice: assumption 2, 8, 29, 31. -/
def Obligations.PipeCommandsComplete : Prop :=
  -- UNRETIRE
  (∀ (s : State) (p x : Nat), s.dark = false → p < 64 → s.on (F.DIS_PIPE_STATUS_RETIRED p) = true → s.dis.spare = some x →
    (List.range 64).all (fun y => !s.on (F.DIS_PIPE_STATUS_COOL_REQ y)) = true → Completes (.unretire p) s fun t => t.on (F.DIS_PIPE_STATUS_RETIRED p) = false ∧
    (t.pipe p).faults = (s.pipe p).faults ∧ (t.pipe p).last = none ∧ (t.pipe p).running = (s.pipe p).running ∧ t.dis.spare = some x ∧ t.dis.jobs = s.dis.jobs ∧
    Keeps [R.DIS_PIPE_STATUS p, R.DIS_STATUS, R.DIS_LAG] [] [.dis] s t) ∧
  -- PARK
  (∀ (s : State) (q : Nat), s.dark = false → q < 4 → s.on (F.DIS_QUAD_CTL_PARK q) = false →
    (s.setF (F.DIS_QUAD_CTL_PARK q) 1).lagOk (s.setF (F.DIS_QUAD_CTL_PARK q) 1).firstRunPipes s.liveChans = true →
    (s.active fnDis = false ∨ 1 < countPipes (s.setF (F.DIS_QUAD_CTL_PARK q) 1).pipeAvail) →
    (match s.dis.spare with | some x => (s.setF (F.DIS_QUAD_CTL_PARK q) 1).pipeAvail x | none => true) = true → s.fsOn = false → s.cfgLocked = false →
    Completes (.park q) s fun t => t.on (F.DIS_QUAD_CTL_PARK q) = true ∧ t.on (F.DIS_QUAD_CTL_PARKED q) = s.on (F.DIS_QUAD_CTL_PARKED q) ∧
    t.f F.DIS_STATUS_P = (if s.active fnDis then (s.setF (F.DIS_QUAD_CTL_PARK q) 1).firstRunPipes.toNat else 0) ∧ t.dis.pipes = s.dis.pipes ∧
    Keeps [R.DIS_QUAD_CTL q, R.DIS_STATUS, R.DIS_LAG] [] [.dis] s t) ∧
  -- UNPARK
  (∀ (s : State) (q x : Nat), s.dark = false → q < 4 → s.on (F.DIS_QUAD_CTL_PARK q) = true → s.dis.spare = some x →
    (List.range 64).all (fun y => !s.on (F.DIS_PIPE_STATUS_COOL_REQ y)) = true → s.cfgLocked = false → s.rdn (R.DIS_QUAD_CTL q) < 4 →
    Completes (.unpark q) s fun t => t.on (F.DIS_QUAD_CTL_PARK q) = false ∧ t.on (F.DIS_QUAD_CTL_PARKED q) = false ∧
    (List.range 16).all (fun i => !t.on (F.DIS_PIPE_STATUS_PARKED (16 * q + i)) && (t.pipe (16 * q + i)).last.isNone) = true ∧ t.dis.jobs = s.dis.jobs ∧
    Keeps ([R.DIS_QUAD_CTL q, R.DIS_STATUS, R.DIS_LAG] ++ (List.range 16).map (fun i => R.DIS_PIPE_STATUS (16 * q + i))) [] [.dis] s t) ∧
  -- QUADRANT_PARKED
  (∀ (s : State) (q : Nat), q < 4 → s.on (F.DIS_QUAD_CTL_PARK q) = true → s.on (F.DIS_QUAD_CTL_PARKED q) = false →
    (List.range 16).all (fun i => (s.pipe (16 * q + i)).running.isNone && (s.pipe (16 * q + i)).next.isNone) = true → s.on F.DIS_TRK_CTL_EN = false →
    Completes (.quadrantParked q) s fun t => t.on (F.DIS_QUAD_CTL_PARKED q) = true ∧ (List.range 16).all (fun i => t.on (F.DIS_PIPE_STATUS_PARKED (16 * q + i))) = true ∧
    Logged [⟨0x0A09, q⟩] s t ∧ Keeps ([R.DIS_QUAD_CTL q] ++ (List.range 16).map (fun i => R.DIS_PIPE_STATUS (16 * q + i))) [] [.log] s t) ∧
  -- THERMAL_PLACEMENT
  (∀ (s : State) (x : Int) (q : Clock), s.NoMon → s.active fnCal = true → s.on F.CAL_CTL_TP_EN = true → s.begin.toPhase 6 0 = some { s.begin with clk := q } →
    (List.range 64).all (fun y => !s.on (F.DIS_PIPE_STATUS_COOL_REQ y)) = true → 0 < s.f F.CAL_TP_COOL_MAX → 8 * (s.f F.CAL_TP_COOL_ON : Int) ≤ s.sensed 0 x →
    s.on (F.DIS_PIPE_STATUS_COOLING 0) = false → s.liveChans = [] → s.dis.spare = none → s.on F.DIS_TRK_CTL_EN = false →
    Completes (.thermalPlacement [x]) s fun t => t.on (F.DIS_PIPE_STATUS_COOL_REQ 0) = true ∧ t.on (F.DIS_PIPE_STATUS_COOLING 0) = true ∧
    t.f ⟨R.CAL_PIPE_TEMP 0, 7, 0⟩ = ofSigned 8 (clampI (-128) 127 (sar (s.sensed 0 x) 3)) ∧ t.clk = q ∧ Logged [⟨0x1508, 0⟩] s t ∧
    Keeps [R.CAL_PIPE_TEMP 0, R.DIS_PIPE_STATUS 0, R.DIS_STATUS, R.DIS_LAG] [] [.dis, .clk, .log] s t) ∧
  -- TRACK_CLEAR
  (∀ s : State, s.dark = false → s.rdn R.DIS_TRK_CMD = 0 → Completes (.trackClear) s fun t => t.rdn R.DIS_TRK_STATUS = 0 ∧ t.rdn R.DIS_TRK_NEXT = 0 ∧ t.dis.track = [] ∧
    t.dis.post = none ∧ t.dis.jobs = s.dis.jobs ∧ Keeps [R.DIS_TRK_STATUS, R.DIS_TRK_NEXT] [] [.dis] s t) ∧
  -- DIS_ENABLE
  (∀ s : State, s.dark = false → s.on F.DIS_CTL_EN = false → s.f F.DIS_CTL_MAX_REPLAY ≠ 0 → s.fn fnDis = .off → s.tooFewPipes = false → s.lbAddr % 4096 = 0 →
    oneStack s.lbAddr 0x1401000 = true → s.cfgLocked = false → Completes (.disEnable) s fun t => t.on F.DIS_CTL_EN = true ∧ t.fn fnDis = .starting ∧
    t.dis.spare = (List.range 64).reverse.find? s.pipeAvail ∧ t.dis.headerDue = true ∧ t.dis.testing = !s.dis.tested ∧
    Keeps [R.DIS_CTL, R.DIS_STATUS, R.DIS_LAG] [fnDis] [.dis, .fnAt] s t) ∧
  -- PIPE_START_TEST_COMPLETE
  (∀ (s : State) (p : Nat), p < 64 → s.fn fnDis = .starting → s.dis.testing = true → s.dis.spare = some 63 → s.dis.pipes = [] →
    ((List.range 4).map (fun q => s.on (F.DIS_QUAD_CTL_PARK q))).all (!·) = true →
    (List.range 64).all (fun x => !s.on (F.DIS_PIPE_STATUS_RETIRED x) && !s.on (F.DIS_PIPE_STATUS_COOLING x)) = true → s.ready (fnHbm (stackOf s.lbAddr)) = true →
    s.on F.DIS_CTL_LB_KEEP = false → oneStack s.lbAddr 0x1401000 = true → s.on F.DIS_TRK_CTL_EN = false →
    Completes (.pipeStartTestComplete [p]) s fun t => t.fn fnDis = .ready ∧ t.on (F.DIS_PIPE_STATUS_RETIRED p) = true ∧ t.dis.tested = true ∧
    t.dis.spare = some (if p = 63 then 0 else 63) ∧ t.rdn R.DIS_LB_HEAD = 0 ∧ t.hbmNat s.lbAddr 4 = 0x4C420001 ∧ KeepsMem [(s.lbAddr, 16)] s t ∧
    Logged [⟨0x0003, fnDis⟩, ⟨0x0A05, p⟩] s t ∧ Keeps [R.DIS_PIPE_STATUS p, R.DIS_FLAGS, R.DIS_STATUS, R.DIS_LAG, R.DIS_LB_HEAD] [fnDis] [.dis, .hbm, .mem, .fnAt, .log] s t)

/-- Commands of egress and its flow table complete (R465, R216). Where a clause fixes what the spec leaves open, it is the model's choice: assumption 8,
33, 96. -/
def Obligations.EgressTableCommandsComplete : Prop :=
  -- EGRESS_ENABLE
  (∀ s : State, s.dark = false → s.on F.EGS_CTL_EN = false → (List.range 8).all (fun p => s.fn (fnEgs p) == .off && !s.ready (fnEth p)) = true → s.cfgLocked = false →
    Completes (.egressEnable) s fun t => t.on F.EGS_CTL_EN = true ∧ (∀ p : Nat, p < 8 → t.fn (fnEgs p) = .starting) ∧ Keeps [R.EGS_CTL] ((List.range 8).map fnEgs) [.fnAt] s t) ∧
  -- EGRESS_DISABLE
  (∀ s : State, s.dark = false → s.on F.EGS_CTL_EN = true → s.egsAll = [] → (List.range 8).all (fun p => (s.eport p).due.isEmpty) = true →
    Completes (.egressDisable) s fun t => t.on F.EGS_CTL_EN = false ∧ (∀ p : Nat, p < 8 → t.fn (fnEgs p) = .off) ∧ Keeps [R.EGS_CTL] ((List.range 8).map fnEgs) [.fnAt] s t) ∧
  -- EGS_FT_READ
  (∀ (s : State) (f : Nat), s.dark = false → f < 65536 → Completes (.egsFtRead f) s fun t => (∀ w : Nat, w < 32 → t.rd (R.EGS_FT_DATA w) = BitVec.ofNat 32 (s.egw f w)) ∧
    Keeps ((List.range 32).map R.EGS_FT_DATA) [] [] s t) ∧
  -- EGS_FT_WRITE
  (∀ (s : State) (f : Nat), s.dark = false → f < 65536 → s.egsWriteOk f (fun i => s.rdn (R.EGS_FT_DATA i)) (s.flowRecOk f) = true → efEn (s.egWords f) = false →
    efEn (fun i => s.rdn (R.EGS_FT_DATA i)) = true → efWfq (fun i => s.rdn (R.EGS_FT_DATA i)) = true →
    s.pirMin (fun i => s.rdn (R.EGS_FT_DATA i)) ≤ efPir (fun i => s.rdn (R.EGS_FT_DATA i)) → Completes (.egsFtWrite f) s fun t => (∀ i : Nat, i < 24 →
    t.egw f i = s.rdn (R.EGS_FT_DATA i)) ∧ (t.eflow f).pend = (s.eflow f).pend ++ [(s.clk.vpos, true)] ∧ t.egw f 28 = s.pirMin (fun i => s.rdn (R.EGS_FT_DATA i)) % 2 ^ 32 ∧
    (t.leg f 0).queue = (s.leg f 0).queue ∧ (t.leg f 0).tok = min (s.leg f 0).tok (efPbs (fun i => s.rdn (R.EGS_FT_DATA i)) * 8000) ∧
    Keeps ((List.range 8).map R.EGS_PORT_RESV ++ (List.range 8).map R.EGS_PORT_PIRSUM ++ (List.range 8).map R.EGS_PORT_PBOUND ++ (List.range 8).map R.EGS_PORT_DBOUND) [] [.egs] s t)

/-- Commands of the egress ports and their schedulers complete (R225, R232, R233, R227). Where a clause fixes what the spec leaves open, it is the
model's choice: assumption 2, 32, 35, 36, 87, 96. -/
def Obligations.EgressPortCommandsComplete : Prop :=
  -- PORT_FREE
  (∀ (s : State) (p : Nat) (d : PacedEnt), p < 8 → (s.eport p).busy ≤ s.clk.ns → s.ready (fnEgs p) = true → (s.eport p).due = [d] → s.on F.BIN_STATUS_MUTED = false →
    d.leg < 2 → Completes (.portFree p) s fun t => t.out = [.packet p d.leg (s.netHdr (s.egWords d.pkt.flow) d.leg p) d.pkt] ∧ (t.eport p).due = [] ∧
    (t.eport p).busy = s.clk.ns + ceilDiv ((d.len + s.f (F.EGS_PORT_OVH_OVH p)) * 8000) (s.macRate p) ∧
    t.rdn (R.EGS_PORT_TX_CNT p) = (s.rdn (R.EGS_PORT_TX_CNT p) + 1) % 2 ^ 32 ∧ t.rdn (R.ETH_PORT_TX_FRAME_CNT p) = (s.rdn (R.ETH_PORT_TX_FRAME_CNT p) + 1) % 2 ^ 32 ∧
    t.egw d.pkt.flow (24 + d.leg) = (s.egw d.pkt.flow (24 + d.leg) + 1) % 2 ^ 32 ∧ Keeps [R.EGS_PORT_TX_CNT p, R.ETH_PORT_TX_FRAME_CNT p] [] [.egs, .out] s t) ∧
  -- PACED_DEPARTURE
  (∀ (s : State) (f v k j a p : Nat) (q : Clock), f < 65536 → efType (s.egWords f) = 3 → efLegs (s.egWords f) = [(0, p)] → s.pacedNext f = some (v, k, j, a) →
    s.begin.toPos 8 a = some { s.begin with clk := q } → s.ready (fnEgs p) = true → q.ns < (s.eport p).busy →
    Completes (.pacedDeparture f) s fun t => (t.eflow f).paced = some (v, k, j + 1) ∧ t.egw f 27 = (s.egw f 27 + 1) % 2 ^ 32 ∧
    (t.eport p).due.map (fun e => (e.due, e.leg)) = (s.eport p).due.map (fun e => (e.due, e.leg)) ++ [(a, 0)] ∧
    (t.eport p).due.getLast?.map (fun e => (e.pkt.flow, e.pkt.seq, e.pkt.size, e.pkt.body)) = some (f, s.egw f 27, (s.pacedPayload (s.egWords f) v j).1, (s.pacedPayload (s.egWords f) v j).2) ∧
    (t.eport p).busy = (s.eport p).busy ∧ t.clk = q ∧ Keeps [] [] [.egs, .clk] s t) ∧
  -- QUEUE_SAMPLE
  (∀ (s : State) (q : Clock), s.NoMon → s.begin.toPos 10 s.nextSample = some { s.begin with clk := q } → s.held = [] →
    Completes (.queueSample) s fun t => (∀ p : Nat, p < 8 → t.rdn (R.EGS_PORT_QDEPTH p) = (({ s with clk := q } : State).portSample p).1 % 2 ^ 32) ∧ (∀ p : Nat, p < 8 →
    t.rdn (R.EGS_PORT_QDELAY p) = (({ s with clk := q } : State).portSample p).2 % 2 ^ 32) ∧ (∀ p : Nat, p < 8 →
    s.rdn (R.EGS_PORT_QDELAY_MAX p) ≤ t.rdn (R.EGS_PORT_QDELAY_MAX p) ∨ 2 ^ 32 ≤ (({ s with clk := q } : State).portSample p).2) ∧ t.clk = q ∧
    Keeps ((List.range 8).map R.EGS_PORT_QDEPTH ++ (List.range 8).map R.EGS_PORT_QDELAY ++ (List.range 8).map R.EGS_PORT_QDELAY_MAX) [] [.clk] s t) ∧
  -- SHAPER_ELIGIBLE
  (∀ (s : State) (p f : Nat) (e : QEnt), p < 8 → s.ready (fnEgs p) = true → (s.eport p).busy ≤ s.clk.ns → (s.eport p).due = [] → s.egsAll = [f] →
    efLegs (s.egWords f) = [(0, p)] → efWfq (s.egWords f) = true → 0 < (s.leg f 0).pir → (s.leg f 0).queue = [e] → e.lat = none → s.needOf p e ≤ efPbs (s.egWords f) * 8000 →
    s.on F.BIN_STATUS_MUTED = false → Completes (.shaperEligible p) s fun t => t.out = [.packet p 0 (s.netHdr (s.egWords e.pkt.flow) 0 p) e.pkt] ∧ (t.leg f 0).queue = [] ∧
    s.clk.stc + ceilDiv (s.needOf p e - ((s.leg f 0).refill (s.leg f 0).pir (efPbs (s.egWords f)) s.clk.stc).tok) (s.leg f 0).pir = t.clk.stc ∧
    (t.eport p).v = (s.leg f 0).fin ∧ t.rdn (R.EGS_PORT_TX_CNT p) = (s.rdn (R.EGS_PORT_TX_CNT p) + 1) % 2 ^ 32 ∧ t.egw e.pkt.flow 24 = (s.egw e.pkt.flow 24 + 1) % 2 ^ 32 ∧
    Keeps [R.EGS_PORT_TX_CNT p, R.ETH_PORT_TX_FRAME_CNT p] [] [.egs, .out, .clk] s t)

/-- Commands of the twin roles complete (R238, R240). Where a clause fixes what the spec leaves open, it is the model's choice: assumption 2, 8, 39, 40. -/
def Obligations.TwinRoleCommandsComplete : Prop :=
  -- TWIN_ENABLE
  (∀ s : State, s.dark = false → s.on F.TWN_CTL_EN = false → bitsOf (s.rdn R.TWN_CTL) 15 8 ≠ 0 → s.twinEnableOk (s.f F.TWN_CTL_PORT) = true → s.fn fnTwn = .off →
    s.cfgLocked = false → Completes (.twinEnable) s fun t => t.on F.TWN_CTL_EN = true ∧ t.fn fnTwn = .starting ∧ t.role = 1 ∧ t.rdn R.TWN_REC_MAX = s.recMax none % 2 ^ 32 ∧
    t.twn.lastRx = s.clk.ns ∧ t.twn.lost = false ∧ t.twn.chs = s.twn.chs ∧ Keeps [R.TWN_CTL, R.TWN_REC_MAX, R.TWN_STATUS] [fnTwn] [.twn, .fnAt] s t) ∧
  -- TWIN_ROLE_START
  (∀ s : State, s.fn fnTwn = .starting → s.twinReadyOk = true → s.pins.helmIn = false → s.pins.twinFirst = true → s.hasGivenUp = false → s.role = 1 →
    s.on F.BIN_STATUS_HELM_OUT = false → Completes (.twinRoleStart) s fun t => t.fn fnTwn = .ready ∧ t.role = 3 ∧ t.on F.BIN_STATUS_HELM_OUT = true ∧
    t.on F.TWN_STATUS_HELM_OUT = true ∧ t.twn.claim = some (s.clk.ns, s.clk.vpos) ∧ t.out = [.helmOut true] ∧ t.twn.takeover = false ∧ Logged [⟨0x0003, fnTwn⟩] s t ∧
    Keeps [R.TWN_STATUS, R.BIN_STATUS] [fnTwn] [.twn, .fnAt, .out, .log] s t) ∧
  -- START_WAIT_EXPIRY
  (∀ (s : State) (v : Nat) (q : Clock), s.twn.waitV = some v → s.begin.toPos 8 v = some { s.begin with clk := q } → s.role = 1 → s.pins.helmIn = false →
    s.hasGivenUp = false → s.on F.BIN_STATUS_HELM_OUT = false → Completes (.startWaitExpiry) s fun t => t.role = 3 ∧ t.on F.BIN_STATUS_HELM_OUT = true ∧
    t.on F.TWN_STATUS_HELM_OUT = true ∧ t.twn.claim = some (q.ns, q.vpos) ∧ t.out = [.helmOut true] ∧ t.twn.waitV = none ∧ t.clk = q ∧
    Keeps [R.TWN_STATUS, R.BIN_STATUS] [] [.twn, .out, .clk] s t) ∧
  -- CLAIM_COMPLETE
  (∀ (s : State) (a b : Nat), s.twn.claim = some (a, b) → s.role = 3 → s.twn.takeover = false → (List.range 32).all (fun c => (s.tch c).hold.isEmpty) = true →
    Completes (.claimComplete) s fun t => t.role = 4 ∧ (List.range 32).all (fun c => !s.twinChans.contains c || t.twinState c == 2) = true ∧ t.twn.claim = none ∧
    a + 4000 ≤ t.clk.ns ∧ t.twn.recSeq = s.twn.recSeq ∧ Logged [⟨0x0C02, 0⟩] s t ∧ Keeps ([R.TWN_STATUS] ++ s.twinChans.map R.TWN_CH_STATUS) [] [.twn, .clk, .log] s t) ∧
  -- HELM_IN_CHANGE
  (∀ (s : State) (l : Bool), s.pins.helmIn ≠ l → s.on F.BIN_STATUS_HELM_OUT = false → s.role = 2 →
    (l = true ∨ s.twinChans.any (fun c => (s.tch c).hold.any (fun h => h.st == .late)) = false) →
    Completes (.helmInChange l) s fun t => t.pins = { s.pins with helmIn := l } ∧ t.on F.TWN_STATUS_HELM_IN = l ∧ t.role = 2 ∧ Keeps [R.TWN_STATUS] [] [.pins] s t)

/-- Commands of twin digests complete (R242, R243). Where a clause fixes what the spec leaves open, it is the model's choice: assumption 2, 39. -/
def Obligations.TwinDigestCommandsComplete : Prop :=
  -- EMPTY_DIGEST_FLIT
  (∀ (s : State) (p : Nat), s.role ≠ 0 → s.f F.TWN_CTL_PORT = p → s.linkUp p = true → (s.link p).buf.length < 1024 →
    Completes (.emptyDigestFlit) s fun t => s.twn.lastTx + 4000 ≤ t.clk.ns ∧ t.twn.lastTx = t.clk.ns ∧ (t.link p).tx = ((s.link p).tx + 1) % 2 ^ 32 ∧
    (t.link p).buf.length = (s.link p).buf.length + 1 ∧
    (t.link p).buf.getLast?.map (fun f => [f.ty, f.seq, f.payload.length, f.payload.getD 1 0]) = some [2, (s.link p).tx, 2, s.rdn R.TWN_PAIR_TAG] ∧
    t.rdn (R.CNV_LINK_TX_CNT p) = (s.rdn (R.CNV_LINK_TX_CNT p) + 1) % 2 ^ 32 ∧ t.out.length = 1 ∧ Keeps [R.CNV_LINK_TX_CNT p] [] [.twn, .links, .clk, .out] s t) ∧
  -- DIGEST_FLIT_RECEIVE
  (∀ (s : State) (g : TwinFlit) (e : TwinEntry), s.role = 2 → g.tag = s.rdn R.TWN_PAIR_TAG → g.first ≠ s.pins.twinFirst → g.entries = [e] → s.twinned e.ch = true →
    s.allJobs = [] → (s.tch e.ch).own = [] → Completes (.digestFlitReceive g) s fun t => (t.tch e.ch).early = (s.tch e.ch).early ++ [(s.clk.ns, e)] ∧
    t.twn.peer = some { role := g.role, sync := g.sync, first := g.first, tag := g.tag } ∧ t.twn.lastRx = s.clk.ns ∧ t.twn.lost = false ∧ t.on F.TWN_STATUS_LINK = true ∧
    t.on F.TWN_STATUS_PARTNER_SYNC = g.sync ∧ Keeps [R.TWN_STATUS] [] [.twn] s t) ∧
  -- TWIN_LINK_LOST
  (∀ s : State, s.role ≠ 0 → s.role ≠ 2 → s.twn.lost = false → Completes (.twinLinkLost) s fun t => t.twn.lost = true ∧ t.on F.TWN_FLAGS_LINK_LOST = true ∧
    s.twn.lastRx + 16000 ≤ t.clk.ns ∧ t.on F.TWN_STATUS_LINK = false ∧ t.on F.TWN_STATUS_REDUNDANT = false ∧ t.twn.chs = s.twn.chs ∧ Logged [⟨0x0C0A, 0⟩] s t ∧
    Keeps [R.TWN_FLAGS, R.TWN_STATUS] [] [.twn, .clk, .log] s t) ∧
  -- DIGEST_TIMEOUT
  (∀ (s : State) (n : Nat) (h : HeldSlice), n < 32 → s.role = 2 → (s.tch n).hold = [h] → h.st = .wait → s.pins.helmIn = true →
    Completes (.digestTimeout n) s fun t => (t.tch n).hold = [{ h with st := .late }] ∧ h.ns + s.f F.TWN_DIG_TO_T_D * 1000 ≤ t.clk.ns ∧
    t.rdn R.TWN_LATE_CNT = (s.rdn R.TWN_LATE_CNT + 1) % 2 ^ 32 ∧ t.on F.TWN_FLAGS_LATE = true ∧ Logged [⟨0x0C04, n⟩] s t ∧
    Keeps [R.TWN_LATE_CNT, R.TWN_FLAGS] [] [.twn, .clk, .log] s t) ∧
  -- LATE_WINDOW_END
  (∀ (s : State) (n : Nat) (h : HeldSlice), n < 32 → s.role = 2 → (s.tch n).hold = [h] → h.st = .late → Completes (.lateWindowEnd n) s fun t => (t.tch n).hold = [] ∧
    h.ns + s.f F.TWN_DIG_TO_T_D * 1000 + 32000 ≤ t.clk.ns ∧ t.rdn R.TWN_DISCARD_CNT = (s.rdn R.TWN_DISCARD_CNT + 1) % 2 ^ 32 ∧ t.on F.TWN_FLAGS_DISCARD = true ∧
    Logged [⟨0x0C05, n⟩] s t ∧ Keeps [R.TWN_DISCARD_CNT, R.TWN_FLAGS, R.TWN_HOLD_MAX] [] [.twn, .clk, .log] s t)

/-- Commands of the Cycle record complete (R245, R249, R246, R254). Where a clause fixes what the spec leaves open, it is the model's choice: assumption
2, 6, 38. -/
def Obligations.CycleRecordCommandsComplete : Prop :=
  -- CYCLE_RECORD_CUT
  (∀ (s : State) (w : List Nat) (q : Clock), s.begin.toPhase 0 0 = some { s.begin with clk := q } → s.role = 2 → s.usesHelmFlips = true →
    w = ({ s with clk := q } : State).buildRecord ((q.frame + 2 ^ 48 - 1) % 2 ^ 48) q.vpos → Completes (.cycleRecordCut) s fun t => t.twn.own = some (q.vpos, w) ∧
    t.twn.adopted = false ∧ t.rdn R.TWN_REC_WORDS = w.length % 2 ^ 32 ∧ t.twn.recSeq = s.twn.recSeq ∧ t.clk = q ∧ Keeps [R.TWN_REC_WORDS] [] [.twn, .clk] s t) ∧
  -- CYCLE_RECORD_CUT
  (∀ (s : State) (w : List Nat) (p : Nat) (q : Clock), s.begin.toPhase 0 0 = some { s.begin with clk := q } → s.role = 4 → s.hasGivenUp = false → s.f F.TWN_CTL_PORT = p →
    s.linkUp p = true → (s.link p).buf.length < 1024 → w = ({ s with clk := q } : State).buildRecord ((q.frame + 2 ^ 48 - 1) % 2 ^ 48) q.vpos → w.length ≤ 61 →
    Completes (.cycleRecordCut) s fun t => t.twn.own = some (q.vpos, w) ∧ t.twn.recSeq = s.twn.recSeq + 1 ∧
    (t.link p).buf.getLast?.map (fun f => (f.ty, f.seq, f.payload)) = some (1, (s.link p).tx, w) ∧ t.out.length = 1 ∧ t.rdn R.TWN_REC_WORDS = w.length % 2 ^ 32 ∧ t.clk = q ∧
    Keeps [R.TWN_REC_WORDS, R.CNV_LINK_TX_CNT p] [] [.twn, .links, .comp, .clk, .out] s t) ∧
  -- CYCLE_RECORD_RECEIVE
  (∀ (s : State) (w : List Nat), s.role ≠ 0 → recGood w = true → w.getD 4 0 = s.rdn R.TWN_PAIR_TAG → s.twn.late = none →
    Completes (.cycleRecordReceive w) s fun t => t.twn.rx = (s.twn.rx.filter (fun e => decide (recFrame w ≤ e.1 + 1))) ++ [(recFrame w, s.clk.vpos, w)] ∧
    t.twn.lastRx = s.clk.ns ∧ t.twn.lost = false ∧ t.twn.chs = s.twn.chs ∧ Keeps [R.TWN_STATUS] [] [.twn] s t) ∧
  -- CYCLE_RECORD_ADOPT
  (∀ (s : State) (c v st : Nat) (o l : List Nat) (x : PendSet) (ev : FlipEval) (r y : RecSec) (q : Clock), s.twn.own = some (v, o) → s.role = 2 → s.twn.adopted = false →
    s.begin.toPos 1 (v + s.f F.TWN_ADOPT_ADOPT * 65536) = some { s.begin with clk := q } → s.twn.rx = [(recFrame o, st, l)] → st < v + s.f F.TWN_ADOPT_ADOPT * 65536 →
    s.twinChans = [c] → recOf l c = some r → recOf o c = some y → y.agree r = true → bitsOf (r.w.getD 14 0) 8 0 = 1 → r.w.getD 23 0 % 2 = 0 → r.w.getD 14 0 < 512 →
    s.twinState c ≠ 3 → (s.cmp c).endV.isSome = true → (s.cmp c).evals = [ev] → v ≤ ev.v + q.fu → ev.v < v → (s.cmp c).pendOf 0 = some x → x.num = r.w.getD 15 0 % 65536 →
    recAudio l = [] → Completes (.cycleRecordAdopt) s fun t => (t.cmp c).histOf 0 = (s.cmp c).histOf 0 ++ [(v, x.val)] ∧ (t.cmp c).pendOf 0 = none ∧
    t.f ⟨setStatusReg c 0, 0, 0⟩ = 0 ∧ (t.cmp c).evals = [{ ev with done := true }] ∧ t.twn.adopted = true ∧ t.twn.rx = [] ∧ t.twinState c = s.twinState c ∧ t.clk = q ∧
    Keeps ([setStatusReg c 0, R.COMP_LOAD] ++ (List.range 32).map R.COMP_CH_LOAD) [] [.twn, .comp, .clk] s t) ∧
  -- CHANNEL_RESYNC
  (∀ (s : State) (n k v : Nat) (q : Clock), n < 32 → s.role = 2 → s.twinState n = 3 → (s.tch n).resync = true →
    s.begin.toChanStart 2 n = some ({ s.begin with clk := q }, k, v) → Completes (.channelResync n) s fun t => t.twinState n = 1 ∧ (t.tch n).resync = false ∧
    (t.tch n).hold = (s.tch n).hold ∧ t.clk = q ∧ Logged [⟨0x0C07, n⟩] s t ∧ Keeps [R.TWN_CH_STATUS n, R.TWN_STATUS] [] [.twn, .clk, .log] s t)

/-- Commands of giving up control complete (R250). Where a clause fixes what the spec leaves open, it is the model's choice: assumption 2, 39, 60. -/
def Obligations.TwinFaultCommandsComplete : Prop :=
  -- GIVE_UP
  (∀ s : State, s.dark = false → s.rdn R.TWN_CMD = 0 → s.on F.BIN_STATUS_MUTED = false → s.on F.BIN_STATUS_HELM_OUT = true → s.isl.queue.length < 8 →
    s.rdn R.BIN_FAULT_MASK = 0 → Completes (.giveUp) s fun t => t.on F.BIN_STATUS_GIVEN_UP = true ∧ t.on F.BIN_STATUS_MUTED = true ∧ t.on F.BIN_STATUS_MUTE_HOLD = true ∧
    t.on F.BIN_STATUS_HELM_OUT = false ∧ t.out = [.helmOut false] ∧ t.on ⟨R.BIN_FAULT, 6, 6⟩ = true ∧ t.isl.queue.length = s.isl.queue.length + 1 ∧
    t.isl.queue.getLast?.map (fun r => (r.cause, r.detail)) = some (7, 9) ∧ Logged [⟨0x0102, 0⟩, ⟨0x0103, 0⟩] s t ∧
    Keeps [R.BIN_STATUS, R.TWN_STATUS, R.BIN_FAULT] [] [.isl, .log, .out] s t) ∧
  -- TWIN_WATCHDOG_EXPIRY
  (∀ s : State, s.role ≠ 0 → s.on F.BIN_STATUS_MUTED = false → s.on F.BIN_STATUS_HELM_OUT = true → s.isl.queue.length < 8 → s.rdn R.BIN_FAULT_MASK = 0 →
    Completes (.twinWatchdogExpiry) s fun t => t.on F.BIN_STATUS_GIVEN_UP = true ∧ t.on F.BIN_STATUS_MUTED = true ∧ t.on F.BIN_STATUS_MUTE_HOLD = true ∧
    t.on F.BIN_STATUS_HELM_OUT = false ∧ t.out = [.helmOut false] ∧ t.on ⟨R.BIN_FAULT, 0, 0⟩ = true ∧ t.isl.queue.length = s.isl.queue.length + 1 ∧
    t.isl.queue.getLast?.map (fun r => (r.cause, r.detail)) = some (1, 0) ∧ Logged [⟨0x0102, 0⟩, ⟨0x0103, 0⟩] s t ∧
    Keeps [R.BIN_STATUS, R.TWN_STATUS, R.BIN_FAULT] [] [.isl, .log, .out] s t) ∧
  -- DIGEST_ENGINE_DISAGREEMENT
  (∀ (s : State) (n : Nat), n < 32 → s.twinned n = true → s.on F.BIN_STATUS_MUTED = false → s.on F.BIN_STATUS_HELM_OUT = true → s.isl.queue.length < 8 →
    s.rdn R.BIN_FAULT_MASK = 0 → Completes (.digestEngineDisagreement n) s fun t => t.on F.BIN_STATUS_GIVEN_UP = true ∧ t.on F.BIN_STATUS_MUTED = true ∧
    t.on F.BIN_STATUS_MUTE_HOLD = true ∧ t.on F.BIN_STATUS_HELM_OUT = false ∧ t.out = [.helmOut false] ∧ t.on ⟨R.BIN_FAULT, 2, 2⟩ = true ∧
    t.isl.queue.length = s.isl.queue.length + 1 ∧ t.isl.queue.getLast?.map (fun r => (r.cause, r.detail)) = some (3, n) ∧ Logged [⟨0x0102, 0⟩, ⟨0x0103, 0⟩] s t ∧
    Keeps [R.BIN_STATUS, R.TWN_STATUS, R.BIN_FAULT] [] [.isl, .log, .out] s t)

/-- Commands of the canvas and its budgets complete (R259, R262, R265, R267). Where a clause fixes what the spec leaves open, it is the model's choice:
assumption 2, 8, 41, 42. -/
def Obligations.CanvasBudgetCommandsComplete : Prop :=
  -- CANVAS_ENABLE
  (∀ (s : State) (c : Nat), s.dark = false → s.on F.CNV_CTL_EN = false → (s.setF F.CNV_CTL_EN 1).cnvOk = true → s.fn fnCnv = .off → s.cnvCh = c →
    s.active (fnEnc c) = false → Completes (.canvasEnable) s fun t => t.on F.CNV_CTL_EN = true ∧ t.fn fnCnv = .starting ∧ (t.encCh c).member = true ∧
    (t.encCh c).nextT = none ∧ t.rdn R.CNV_GDIGEST = s.gdig % 2 ^ 32 ∧ Keeps [R.CNV_CTL, R.CNV_GDIGEST] [fnCnv] [.enc, .fnAt] s t) ∧
  -- CANVAS_REPORT
  (∀ (s : State) (p : Nat) (q : Clock), s.on F.CNV_CTL_EN = true → s.active fnCnv = true → (s.encCh s.cnvCh).started = true → 1 < s.cnvCols → s.cnvPort 0 = p →
    s.on F.CNV_CTL_SHADOW = false → s.linkUp p = true → (s.link p).buf.length < 1024 → s.begin.cnvAt (2 * s.f F.CNV_TIMING_REPORT) = some { s.begin with clk := q } →
    (s.encCh s.cnvCh).pics = [] → s.cnv.k1 ≠ s.cnvPic → Completes (.canvasReport) s fun t => t.cnv.k1 = s.cnvPic ∧ t.cnv.open_ = true ∧
    t.cnv.reps.map (fun r => (r.member, r.gdig)) = [(s.cnvMe, s.gdig % 2 ^ 32)] ∧ t.cnv.masks = [] ∧ t.clk = q ∧
    (t.link p).buf.getLast?.map (fun f => (f.ty, f.seq, f.payload)) = some (3, (s.link p).tx, budgetWords { tag := s.rdn R.CNV_GROUP_TAG, k16 := s.cnvPic % 65536, reports := t.cnv.reps, masks := [] }) ∧
    t.rdn (R.CNV_LINK_TX_CNT p) = (s.rdn (R.CNV_LINK_TX_CNT p) + 1) % 2 ^ 32 ∧ t.out.length = 1 ∧
    Keeps [R.CNV_GDIGEST, R.CNV_STATUS, R.CNV_LINK_TX_CNT p] [] [.cnv, .links, .out, .clk] s t) ∧
  -- BUDGET_FLIT_RECEIVE
  (∀ (s : State) (p : Nat) (g : BudgetFlit) (r : CnvReport), p < 8 → s.on F.CNV_CTL_EN = true → g.tag = s.rdn R.CNV_GROUP_TAG → g.k16 = s.cnvPic % 65536 →
    s.cnv.k1 = s.cnvPic → s.cnv.open_ = true → g.masks = [] → g.reports = [r] → s.cnv.mask = none → r.member ≠ s.cnvMe → r.member < s.cnvRows * s.cnvCols →
    r.gdig = s.rdn R.CNV_GDIGEST → s.cnv.reps.any (fun x => x.member == r.member) = false → s.fromRow p = false → s.fromCol p = false →
    Completes (.budgetFlitReceive p g) s fun t => t.cnv.reps = s.cnv.reps ++ [r] ∧ t.cnv.masks = s.cnv.masks ∧ t.cnv.k1 = s.cnv.k1 ∧ Keeps [] [] [.cnv] s t) ∧
  -- ROW_BUNDLE_SEND
  (∀ (s : State) (p : Nat), s.on F.CNV_CTL_EN = true → s.active fnCnv = true → (s.encCh s.cnvCh).started = true → 1 < s.cnvRows → s.cnvPort 2 = p →
    s.on F.CNV_CTL_SHADOW = false → s.linkUp p = true → (s.link p).buf.length < 1024 → s.cnv.open_ = true → s.cnv.rowSent = false →
    (s.ownRow (s.cnv.reps.map (fun r => r.member))).length = s.cnvCols → Completes (.rowBundleSend) s fun t => t.cnv.rowSent = true ∧ t.cnv.reps = s.cnv.reps ∧
    (t.link p).buf.getLast?.map (fun f => (f.ty, f.seq, f.payload)) = some (3, (s.link p).tx, budgetWords (s.roundFlit (s.cnv.reps.filter (fun r => s.memRow r.member == s.f F.CNV_GRID_MY_ROW)) [])) ∧
    t.rdn (R.CNV_LINK_TX_CNT p) = (s.rdn (R.CNV_LINK_TX_CNT p) + 1) % 2 ^ 32 ∧ t.out.length = 1 ∧ Keeps [R.CNV_LINK_TX_CNT p] [] [.cnv, .links, .out] s t) ∧
  -- CANVAS_MASK_DEADLINE
  (∀ (s : State) (p : Nat) (q : Clock), s.on F.CNV_CTL_EN = true → s.active fnCnv = true → (s.encCh s.cnvCh).started = true → 1 < s.cnvCols → s.cnvPort 0 = p →
    s.on F.CNV_CTL_SHADOW = false → s.linkUp p = true → (s.link p).buf.length < 1024 → s.cnv.open_ = true → s.cnv.mask = none →
    s.begin.cnvAt (2 * (s.f F.CNV_TIMING_REPORT + s.f F.CNV_TIMING_WINDOW)) = some { s.begin with clk := q } →
    Completes (.canvasMaskDeadline) s fun t => t.cnv.mask = some ((s.cnv.reps.map (fun r => 2 ^ r.member)).sum) ∧
    t.cnv.masks.head?.map (fun m => (m.member, m.adig)) = some (s.cnvMe, adigOf s.cnv.applied) ∧ t.cnv.reps = s.cnv.reps ∧ t.clk = q ∧
    (t.link p).buf.getLast?.map (fun f => (f.ty, f.seq, f.payload)) = some (3, (s.link p).tx, budgetWords (s.roundFlit [] [{ member := s.cnvMe, mask := (s.cnv.reps.map (fun r => 2 ^ r.member)).sum, adig := adigOf s.cnv.applied }])) ∧
    t.rdn (R.CNV_LINK_TX_CNT p) = (s.rdn (R.CNV_LINK_TX_CNT p) + 1) % 2 ^ 32 ∧ t.out.length = 1 ∧ Keeps [R.CNV_LINK_TX_CNT p] [] [.cnv, .links, .out, .clk] s t) ∧
  -- MASK_BUNDLE_SEND
  (∀ (s : State) (p : Nat), s.on F.CNV_CTL_EN = true → s.active fnCnv = true → (s.encCh s.cnvCh).started = true → 1 < s.cnvRows → s.cnvPort 2 = p →
    s.on F.CNV_CTL_SHADOW = false → s.linkUp p = true → (s.link p).buf.length < 1024 → s.cnv.mask.isSome = true → s.cnv.maskSent = false →
    (s.ownRow (s.cnv.masks.map (fun m => m.member))).length = s.cnvCols → Completes (.maskBundleSend) s fun t => t.cnv.maskSent = true ∧ t.cnv.masks = s.cnv.masks ∧
    (t.link p).buf.getLast?.map (fun f => (f.ty, f.seq, f.payload)) = some (3, (s.link p).tx, budgetWords (s.roundFlit [] (s.cnv.masks.filter (fun m => s.memRow m.member == s.f F.CNV_GRID_MY_ROW)))) ∧
    t.rdn (R.CNV_LINK_TX_CNT p) = (s.rdn (R.CNV_LINK_TX_CNT p) + 1) % 2 ^ 32 ∧ t.out.length = 1 ∧ Keeps [R.CNV_LINK_TX_CNT p] [] [.cnv, .links, .out] s t) ∧
  -- CANVAS_ALLOCATION
  (∀ (s : State) (r : CnvReport) (q : Clock), s.on F.CNV_CTL_EN = true → s.active fnCnv = true → (s.encCh s.cnvCh).started = true → s.cnvRows * s.cnvCols = 1 → s.cnvMe = 0 →
    s.begin.cnvAt (2 * (s.f F.CNV_TIMING_REPORT + 2 * s.f F.CNV_TIMING_WINDOW)) = some { s.begin with clk := q } → s.cnv.mask = some 1 →
    s.cnv.masks = [{ member := 0, mask := 1, adig := adigOf s.cnv.applied }] → s.cnv.reps = [r] → r.member = 0 → r.floor ≤ r.t → r.t ≤ r.cap → s.cnvCh < 32 →
    Completes (.canvasAllocation) s fun t => t.rdn R.CNV_ALLOC = r.t % 2 ^ 32 ∧ t.rdn R.CNV_LATE_LO = 0 ∧ t.rdn R.CNV_LATE_HI = 0 ∧
    t.rdn R.CNV_ROUND_CNT = (s.rdn R.CNV_ROUND_CNT + 1) % 2 ^ 32 ∧ t.f F.CNV_STATUS_ONTIME = 1 ∧ t.f F.CNV_STATUS_SPLIT = 0 ∧ (t.encCh s.cnvCh).nextT = some r.t ∧
    t.cnv.own = some r.t ∧ t.cnv.applied = [r.t] ∧ t.cnv.reps = [] ∧ t.clk = q ∧
    Keeps [R.CNV_ALLOC, R.CNV_LATE_LO, R.CNV_LATE_HI, R.CNV_ROUND_CNT, R.CNV_STATUS] [] [.cnv, .enc, .clk] s t)

/-- Commands of Staord links and relayed messages complete (R273, R274, R275). Where a clause fixes what the spec leaves open, it is the model's choice:
assumption 2, 44, 88. -/
def Obligations.LinkFlitCommandsComplete : Prop :=
  -- FLIT_RECEIVE
  (∀ (s : State) (p : Nat) (g : Flit), p < 8 → s.linkUp p = true → g.crc = flitCrc (s.link p).rx g → g.ty = 1 → g.nak = false → g.ackValid = false →
    s.f F.TWN_STATUS_ROLE = 0 → Completes (.flitReceive p g) s fun t => (t.link p).rx = ((s.link p).rx + 1) % 2 ^ 32 ∧ (t.link p).rxAny = true ∧
    (t.link p).peerMid = some g.mid ∧ (t.link p).buf = (s.link p).buf ∧ t.rdn (R.CNV_LINK_RX_CNT p) = (s.rdn (R.CNV_LINK_RX_CNT p) + 1) % 2 ^ 32 ∧
    Keeps [R.CNV_LINK_RX_CNT p] [] [.links] s t) ∧
  -- REPLAY_TIMEOUT
  (∀ (s : State) (p : Nat), p < 8 → s.linkUp p = true → (s.link p).buf ≠ [] → (s.link p).retries < s.f (F.CNV_LINK_CTL_RETRY p) →
    Completes (.replayTimeout p) s fun t => (s.link p).lastAdv + s.f (F.CNV_LINK_CTL_REPLAY_TO p) ≤ t.clk.ns ∧ (t.link p).retries = (s.link p).retries + 1 ∧
    (t.link p).buf = (s.link p).buf ∧ t.out.length = (s.link p).buf.length ∧ t.rdn (R.CNV_LINK_REPLAY_CNT p) = (s.rdn (R.CNV_LINK_REPLAY_CNT p) + 1) % 2 ^ 32 ∧
    t.rdn (R.CNV_LINK_TX_CNT p) = (s.rdn (R.CNV_LINK_TX_CNT p) + (s.link p).buf.length) % 2 ^ 32 ∧ Logged [⟨0x0D06, p⟩] s t ∧
    Keeps [R.CNV_LINK_REPLAY_CNT p, R.CNV_LINK_TX_CNT p] [] [.links, .out, .clk, .log] s t) ∧
  -- LINK_DELAY_MEASURE
  (∀ (s : State) (p : Nat) (rx : List (Nat × Nat × Nat)), p < 8 → s.f (F.CNV_LINK_STATUS_B1_0 p) = 1 → s.fn (fnStaord p) = .starting → rx ≠ [] →
    Completes (.linkDelayMeasure p rx) s fun t => t.rdn (R.CNV_LINK_DELAY p) = ((rx.map (fun e => ((e.1 : Int) - (e.2.1 : Int) - (e.2.2 : Int)) % 4294967296)).sum / ((2 * rx.length : Nat) : Int)).toNat % 2 ^ 32 ∧
    t.linkUp p = true ∧ t.fn (fnStaord p) = .ready ∧ t.out.length = 16 ∧ (t.link p).tx = 0 ∧ (t.link p).buf = [] ∧
    t.rdn (R.CNV_LINK_TX_CNT p) = (s.rdn (R.CNV_LINK_TX_CNT p) + 16) % 2 ^ 32 ∧ Logged [⟨0x0003, fnStaord p⟩] s t ∧ t.clk.ns = s.clk.ns + 15000 ∧
    Keeps [R.CNV_LINK_DELAY p, R.CNV_LINK_STATUS p, R.CNV_LINK_TX_CNT p] [fnStaord p] [.links, .out, .clk, .fnAt, .log] s t) ∧
  -- RELAY_FLIT_RECEIVE
  (∀ (s : State) (p : Nat) (g : RelayFlit), p < 8 → g.dest = s.pins.mid → g.dest ≠ 0x3FF → g.frag = 0 → g.last = true → s.cnv.asms.length < 16 →
    s.cnv.asms.find? (fun a => a.orig == g.orig && a.msg == g.msg) = none → Completes (.relayFlitReceive p g) s fun t => t.out = [.relayed g.ty g.orig g.msg g.data] ∧
    t.cnv.asms = s.cnv.asms.filter (fun a => !(a.orig == g.orig && a.msg == g.msg)) ∧ t.cnv.seen = s.cnv.seen ∧ Keeps [] [] [.cnv, .out] s t) ∧
  -- RELAY_REASSEMBLY_TIMEOUT
  (∀ (s : State) (a : Assembler), s.cnv.asms = [a] → Completes (.relayReassemblyTimeout) s fun t => t.cnv.asms = [] ∧ a.at_ + 10000000 ≤ t.clk.ns ∧ t.cnv.seen = s.cnv.seen ∧
    Keeps [] [] [.cnv, .clk] s t)

/-- Commands of quads and of lanes that train complete (R278, R288, R289). Where a clause fixes what the spec leaves open, it is the model's choice:
assumption 2, 8, 45, 46, 97. -/
def Obligations.LaneTrainingCommandsComplete : Prop :=
  -- QUAD_ENABLE
  (∀ (s : State) (q p : Nat), s.dark = false → q < 16 → s.on (F.LNE_QUAD_CTL_EN q) = false → s.f (F.LNE_QUAD_CTL_ROLE q) = 2 → s.f (F.LNE_QUAD_CTL_PORT q) = p →
    s.quadOk q 2 p = true → s.f (F.LNE_SPORT_STATUS_STATE p) ≠ 4 → s.fn (fnStaord p) = .off → s.cfgLocked = false →
    Completes (.quadEnable q) s fun t => t.on (F.LNE_QUAD_CTL_EN q) = true ∧ t.f (F.CKG_LPLL_STATUS_STATE q) = 2 ∧ (∀ i : Nat, i < 4 → t.stage_ (4 * q + i) = 1) ∧
    t.f (F.LNE_SPORT_STATUS_STATE p) = 1 ∧ t.f (F.LNE_SPORT_STATUS_QUAD p) = q ∧ t.fn (fnStaord p) = .starting ∧
    Keeps ([R.LNE_QUAD_CTL q, R.CKG_LPLL_STATUS q, R.LNE_SPORT_STATUS p] ++ (List.range 4).map (fun i => R.LNE_LANE_STATUS (4 * q + i))) [fnStaord p] [.lne, .cal, .fnAt] s t) ∧
  -- QUAD_DISABLE
  (∀ (s : State) (q p : Nat), s.dark = false → q < 16 → s.on (F.LNE_QUAD_CTL_EN q) = true → s.f (F.LNE_QUAD_CTL_ROLE q) = 2 → s.f (F.LNE_QUAD_CTL_PORT q) = p →
    s.quadUsed q = false → s.f (F.LNE_SPORT_STATUS_STATE p) ≠ 4 → s.portQuads true p = [q] → s.fn (fnStaord p) = .starting → s.rdn (R.LNE_QUAD_CTL q) < 2 ^ 7 →
    Completes (.quadDisable q) s fun t => t.on (F.LNE_QUAD_CTL_EN q) = false ∧ t.f (F.CKG_LPLL_STATUS_STATE q) = 0 ∧ (∀ i : Nat, i < 4 →
    t.rdn (R.LNE_LANE_STATUS (4 * q + i)) = 0) ∧ t.f (F.LNE_SPORT_STATUS_STATE p) = 0 ∧ t.fn (fnStaord p) = .off ∧ t.link p = {} ∧
    Keeps ([R.LNE_QUAD_CTL q, R.CKG_LPLL_STATUS q, R.CKG_LANE_STATUS, R.LNE_SPORT_STATUS p, R.CNV_LINK_STATUS p] ++ (List.range 4).map (fun i => R.LNE_LANE_STATUS (4 * q + i))) [fnStaord p] [.lne, .links, .fnAt] s t) ∧
  -- SIGNAL_DETECT
  (∀ (s : State) (l : Nat), l < 64 → s.stage_ l = 1 → Completes (.signalDetect l) s fun t => t.stage_ l = 2 ∧ t.on (F.LNE_LANE_STATUS_SIG l) = true ∧
    (s.lane l).at_ + 100000 ≤ t.clk.ns ∧ (t.lane l).at_ = t.clk.ns ∧ Keeps [R.LNE_LANE_STATUS l] [] [.lne, .cal, .clk] s t) ∧
  -- CDR_LOCK
  (∀ (s : State) (l : Nat) (a b : List Int) (e : List Nat) (c : Int), l < 64 → s.stage_ l = 2 → s.lanePllRuns l = true → s.sightPasses 0 l true a b e = true →
    Completes (.cdrLock l a b e c) s fun t => t.stage_ l = 3 ∧ t.on (F.LNE_LANE_STATUS_CDR_LOCK l) = true ∧ t.sight 0 l = none ∧
    t.f (F.LNE_LANE_TRIM_PHASE l) = ofSigned 8 (a.getD 0 0) ∧ t.f (F.LNE_LANE_TRIM_OFFSET l) = ofSigned 8 (a.getD 1 0) ∧
    t.rdn R.CAL_RUN_CNT = (s.rdn R.CAL_RUN_CNT + 1) % 2 ^ 32 ∧ Logged [⟨0x1502, l⟩] s t ∧
    Keeps [R.LNE_LANE_STATUS l, R.LNE_LANE_EYE l, R.LNE_LANE_TRIM l, R.CAL_RUN_CNT] [] [.lne, .cal, .log] s t) ∧
  -- TRAINING_WORD_RECEIVE
  (∀ (s : State) (l p : Nat) (m : List Nat), l < 64 → s.lanePort l = some (true, p) → s.stage_ l = 3 → s.f (F.LNE_SPORT_STATUS_STATE p) = 1 →
    (s.lport true p).switch = false → s.on (F.LNE_LANE_STATUS_RX_INV l) = false → m.all (fun b => decide (b < 256)) = true → markerGood m = true →
    (s.lane l).good + 1 < s.f F.LNE_TRAIN_MARKERS → Completes (.trainingWordReceive l m 0) s fun t => (t.lane l).good = (s.lane l).good + 1 ∧
    (t.lane l).bits = (s.lane l).bits + 32704 ∧ (t.lane l).idx = byteAt m 4 ∧ (t.lane l).said = byteAt m 6 ∧ t.stage_ l = 3 ∧ Keeps [] [] [.lne] s t) ∧
  -- TRAINING_WORD_RECEIVE
  (∀ (s : State) (l p e : Nat) (m : List Nat), l < 64 → s.lanePort l = some (true, p) → s.stage_ l = 3 → s.f (F.LNE_SPORT_STATUS_STATE p) = 1 →
    (s.lport true p).switch = false → (s.lport true p).ok = false → s.on (F.LNE_LANE_STATUS_RX_INV l) = false → m.all (fun b => decide (b < 256)) = true →
    m.take 4 = [0x4D, 0xB2, 0x69, 0x1E] → e ≠ 0 → Completes (.trainingWordReceive l m e) s fun t => (t.lane l).good = 0 ∧ (t.lane l).bits = 0 ∧ t.stage_ l = 3 ∧
    t.rdn (R.LNE_LANE_PRBS_ERR l) = (s.rdn (R.LNE_LANE_PRBS_ERR l) + e) % 2 ^ 32 ∧ Keeps [R.LNE_LANE_PRBS_ERR l] [] [.lne, .cal] s t) ∧
  -- DESKEW_COMPLETE
  (∀ (s : State) (p k x : Nat), p < 8 → s.f (F.LNE_SPORT_STATUS_STATE p) = 2 → s.lanesDone true p = true → k ≤ 128000 →
    Completes (.deskewComplete true p k x true) s fun t => t.f (F.LNE_SPORT_STATUS_STATE p) = 3 ∧ t.rdn (portReg true p 0x04) = k ∧ t.rdn (portReg true p 0x08) = x % 2 ^ 32 ∧
    Keeps [R.LNE_SPORT_STATUS p, portReg true p 0x04, portReg true p 0x08] [] [.lne] s t) ∧
  -- DESKEW_COMPLETE
  (∀ (s : State) (p k x : Nat), p < 8 → s.f (F.LNE_EPORT_STATUS_STATE p) = 2 → s.lanesDone false p = true →
    Completes (.deskewComplete false p k x true) s fun t => t.f (F.LNE_EPORT_STATUS_STATE p) = 3 ∧ t.rdn (portReg false p 0x04) = k % 2 ^ 32 ∧
    t.rdn (portReg false p 0x08) = x % 2 ^ 32 ∧ t.on (F.ETH_PORT_STATUS_RX_UP p) = false ∧
    Keeps [R.LNE_EPORT_STATUS p, portReg false p 0x04, portReg false p 0x08, R.ETH_PORT_STATUS p] [] [.lne] s t) ∧
  -- DESKEW_COMPLETE
  (∀ (s : State) (p k x : Nat) (o : Bool), p < 8 → s.f (F.LNE_SPORT_STATUS_STATE p) = 2 → s.lanesDone true p = true → 128000 < k →
    Completes (.deskewComplete true p k x o) s fun t => t.f (F.LNE_SPORT_STATUS_STATE p) = 2 ∧ t.rdn (portReg true p 0x04) = k % 2 ^ 32 ∧ t.on F.LNE_FLAGS_SKEW = true ∧
    Logged [⟨0x0E08, 8 + p⟩] s t ∧ Keeps [R.LNE_FLAGS, portReg true p 0x04] [] [.log] s t)

/-- Commands of the lock and loss of lanes and ports complete (R290, R288, R291). Where a clause fixes what the spec leaves open, it is the model's
choice: assumption 2, 46. -/
def Obligations.LaneLockCommandsComplete : Prop :=
  -- FEC_LOCK
  (∀ (s : State) (p : Nat), p < 8 → s.f (F.LNE_SPORT_STATUS_STATE p) = 3 → s.fn (fnStaord p) = .starting →
    Completes (.fecLock true p) s fun t => t.f (F.LNE_SPORT_STATUS_STATE p) = 4 ∧ t.f (F.CNV_LINK_STATUS_B1_0 p) = 1 ∧ t.link p = {} ∧ t.fn (fnStaord p) = .starting ∧
    Logged [⟨0x0E04, 8 + p⟩] s t ∧ Keeps [R.LNE_SPORT_STATUS p, R.CNV_LINK_STATUS p] [] [.lne, .links, .log] s t) ∧
  -- FEC_LOCK
  (∀ (s : State) (p : Nat), p < 8 → s.f (F.LNE_EPORT_STATUS_STATE p) = 3 → s.on (F.ETH_PORT_STATUS_LOCAL_FAULT p) = false → s.on (F.ETH_PORT_STATUS_REMOTE_FAULT p) = false →
    Completes (.fecLock false p) s fun t => t.f (F.LNE_EPORT_STATUS_STATE p) = 4 ∧ t.on (F.ETH_PORT_STATUS_RX_UP p) = true ∧ Logged [⟨0x0E04, p⟩] s t ∧
    Keeps [R.LNE_EPORT_STATUS p, R.ETH_PORT_STATUS p] [] [.lne, .log] s t) ∧
  -- FEC_LOSS
  (∀ (s : State) (p m : Nat), p < 8 → s.f (F.LNE_EPORT_STATUS_STATE p) = 4 → s.f F.LNE_FEC_LOSS_CNT ≤ m →
    Completes (.fecLoss false p m ⟨0, 0⟩) s fun t => t.f (F.LNE_EPORT_STATUS_STATE p) = 2 ∧ t.on (F.ETH_PORT_STATUS_RX_UP p) = false ∧ t.on F.LNE_FLAGS_PORT_DOWN = true ∧
    t.rdn (portReg false p 0x14) = (s.rdn (portReg false p 0x14) + 1) % 2 ^ 32 ∧ Logged [⟨0x0E05, p⟩] s t ∧
    Keeps [R.LNE_EPORT_STATUS p, portReg false p 0x14, R.LNE_FLAGS, R.ETH_PORT_STATUS p] [] [.lne, .log] s t) ∧
  -- FEC_LOSS
  (∀ (s : State) (p m : Nat), p < 8 → s.f (F.LNE_SPORT_STATUS_STATE p) = 4 → s.f F.LNE_FEC_LOSS_CNT ≤ m → s.fn (fnStaord p) = .ready →
    Completes (.fecLoss true p m ⟨0, 0⟩) s fun t => t.f (F.LNE_SPORT_STATUS_STATE p) = 2 ∧ (s.portLanes true p).all (fun l => t.stage_ l == 3) = true ∧ t.link p = {} ∧
    t.f (F.CNV_LINK_STATUS_B1_0 p) = 0 ∧ t.fn (fnStaord p) = .starting ∧ t.on F.LNE_FLAGS_PORT_DOWN = true ∧
    t.rdn (portReg true p 0x14) = (s.rdn (portReg true p 0x14) + 1) % 2 ^ 32 ∧ t.out = [.training p 1] ∧ Logged [⟨0x0E05, 8 + p⟩] s t ∧
    Keeps ([R.LNE_SPORT_STATUS p, portReg true p 0x14, R.LNE_FLAGS, R.CNV_LINK_STATUS p] ++ (s.portLanes true p).map R.LNE_LANE_STATUS) [fnStaord p] [.lne, .links, .cal, .fnAt, .out, .log] s t) ∧
  -- FEC_LOSS
  (∀ (s : State) (p m c : Nat), p < 8 → s.f (F.LNE_EPORT_STATUS_STATE p) = 4 → m < s.f F.LNE_FEC_LOSS_CNT → 0 < s.f F.LNE_FEC_UNCORR →
    Completes (.fecLoss false p m ⟨0, c⟩) s fun t => t.f (F.LNE_EPORT_STATUS_STATE p) = 4 ∧ t.rdn (portReg false p 0x0C) = (s.rdn (portReg false p 0x0C) + c) % 2 ^ 32 ∧
    Keeps [portReg false p 0x0C] [] [] s t) ∧
  -- STAGE_TIMEOUT
  (∀ (s : State) (p : Nat), p < 8 → s.f (F.LNE_SPORT_STATUS_STATE p) = 2 → Completes (.stageTimeout true p) s fun t => t.f (F.LNE_SPORT_STATUS_STATE p) = 1 ∧
    (s.portLanes true p).all (fun l => t.stage_ l == 1) = true ∧ (s.lport true p).at_ + s.f F.LNE_TRAIN_TIMEOUT * 1000000 ≤ t.clk.ns ∧ t.on F.LNE_FLAGS_TIMEOUT = true ∧
    t.rdn (portReg true p 0x14) = (s.rdn (portReg true p 0x14) + 1) % 2 ^ 32 ∧ Logged [⟨0x0E06, 8 + p⟩] s t ∧
    Keeps ([R.LNE_SPORT_STATUS p, portReg true p 0x14, R.LNE_FLAGS] ++ (s.portLanes true p).map R.LNE_LANE_STATUS) [] [.lne, .cal, .clk, .log] s t) ∧
  -- STAGE_TIMEOUT
  (∀ (s : State) (p : Nat), p < 8 → s.f (F.LNE_EPORT_STATUS_STATE p) = 2 → Completes (.stageTimeout false p) s fun t => t.f (F.LNE_EPORT_STATUS_STATE p) = 1 ∧
    (s.portLanes false p).all (fun l => t.stage_ l == 1) = true ∧ (s.lport false p).at_ + s.f F.LNE_TRAIN_TIMEOUT * 1000000 ≤ t.clk.ns ∧ t.on F.LNE_FLAGS_TIMEOUT = true ∧
    t.rdn (portReg false p 0x14) = (s.rdn (portReg false p 0x14) + 1) % 2 ^ 32 ∧ t.on (F.ETH_PORT_STATUS_RX_UP p) = false ∧ Logged [⟨0x0E06, p⟩] s t ∧
    Keeps ([R.LNE_EPORT_STATUS p, portReg false p 0x14, R.LNE_FLAGS, R.ETH_PORT_STATUS p] ++ (s.portLanes false p).map R.LNE_LANE_STATUS) [] [.lne, .cal, .clk, .log] s t) ∧
  -- LANE_LOSS
  (∀ (s : State) (l p : Nat), l < 64 → 2 ≤ s.stage_ l → s.lanePort l = some (false, p) → p < 8 → s.f (F.LNE_EPORT_STATUS_STATE p) = 1 →
    Completes (.laneLoss l) s fun t => t.stage_ l = 1 ∧ t.f (F.LNE_EPORT_STATUS_STATE p) = 1 ∧ t.on (F.LNE_LANE_STATUS_SIG l) = false ∧
    t.on (F.LNE_LANE_STATUS_CDR_LOCK l) = false ∧ t.on F.LNE_FLAGS_LANE_LOSS = true ∧ t.rdn (R.LNE_LANE_LOSS_CNT l) = (s.rdn (R.LNE_LANE_LOSS_CNT l) + 1) % 2 ^ 32 ∧
    Logged [⟨0x0E03, l⟩] s t ∧ Keeps [R.LNE_LANE_STATUS l, R.LNE_LANE_LOSS_CNT l, R.LNE_FLAGS, R.LNE_EPORT_STATUS p, R.ETH_PORT_STATUS p] [] [.lne, .cal, .log] s t) ∧
  -- ALIGNMENT_MARKER_LOCK
  (∀ (s : State) (l p : Nat) (v : Bool), l < 64 → s.lanePort l = some (false, p) → s.stage_ l = 3 → (s.portLanes false p).any (fun m => m != l && s.stage_ m != 4) = true →
    Completes (.alignmentMarkerLock l v) s fun t => t.stage_ l = 4 ∧ t.on (F.LNE_LANE_STATUS_RX_INV l) = v ∧
    t.f (F.LNE_EPORT_STATUS_STATE p) = s.f (F.LNE_EPORT_STATUS_STATE p) ∧ Logged [⟨0x0E02, l⟩] s t ∧ Keeps [R.LNE_LANE_STATUS l] [] [.log] s t)

/-- Commands of Ethernet frames and the responders complete (R284, R285, R287). Where a clause fixes what the spec leaves open, it is the model's choice:
assumption 9, 36. -/
def Obligations.ResponderCommandsComplete : Prop :=
  -- ETH_FRAME_RECEIVE
  (∀ (s : State) (p n v a : Nat), p < 8 → s.rxUp p = true → 64 ≤ n → n ≤ 9216 → s.vlanNamed p v = true → s.macOk p a = true →
    Completes (.ethFrameReceive p true n v a) s fun t => t.rdn (R.ETH_PORT_RX_FRAME_CNT p) = (s.rdn (R.ETH_PORT_RX_FRAME_CNT p) + 1) % 2 ^ 32 ∧
    Keeps [R.ETH_PORT_RX_FRAME_CNT p] [] [] s t) ∧
  -- ETH_FRAME_RECEIVE
  (∀ (s : State) (p n v a : Nat), p < 8 → s.rxUp p = true →
    Completes (.ethFrameReceive p false n v a) s fun t => t.rdn (R.ETH_PORT_RX_FCS_CNT p) = (s.rdn (R.ETH_PORT_RX_FCS_CNT p) + 1) % 2 ^ 32 ∧
    Keeps [R.ETH_PORT_RX_FCS_CNT p] [] [] s t) ∧
  -- ARP_REQUEST
  (∀ (s : State) (p v a x : Nat), p < 8 → s.rxUp p = true → s.on (F.ETH_PORT_CTL_ARP_EN p) = true → a = s.rdn (R.ETH_PORT_IPV4 p) → s.clk.ns < (s.eport p).busy →
    Completes (.arpRequest p v a x) s fun t => (t.eport p).resp = (s.eport p).resp ++ [(64 + tagLen v, .arpReply v x)] ∧ (t.eport p).busy = (s.eport p).busy ∧
    (t.eport p).due = (s.eport p).due ∧ Keeps [] [] [.egs] s t) ∧
  -- NEIGHBOUR_SOLICITATION
  (∀ (s : State) (p v a x : Nat), p < 8 → s.rxUp p = true → s.on (F.ETH_PORT_CTL_ND_EN p) = true → (a = s.portV6 p false ∨ a = s.portV6 p true) →
    s.clk.ns < (s.eport p).busy → Completes (.neighbourSolicitation p v a x) s fun t => (t.eport p).resp = (s.eport p).resp ++ [(90 + tagLen v, .neighbourAdvert v x a)] ∧
    (t.eport p).busy = (s.eport p).busy ∧ (t.eport p).due = (s.eport p).due ∧ Keeps [] [] [.egs] s t) ∧
  -- ECHO_REQUEST
  (∀ (s : State) (p v a x n : Nat), p < 8 → s.rxUp p = true → s.on (F.ETH_PORT_CTL_ICMP_EN p) = true → a = s.rdn (R.ETH_PORT_IPV4 p) → n ≤ 1500 →
    s.clk.ns < (s.eth_ p).echoNs + 1000000000 → (s.eth_ p).echoCnt < s.f F.ETH_IGMP_ICMP_RATE → s.clk.ns < (s.eport p).busy →
    Completes (.echoRequest p v false a x n) s fun t => (t.eport p).resp = (s.eport p).resp ++ [(max 64 (n + 18) + tagLen v, .echoReply v x n)] ∧
    (t.eport p).busy = (s.eport p).busy ∧ (t.eport p).due = (s.eport p).due ∧ t.eth_ p = { s.eth_ p with echoCnt := (s.eth_ p).echoCnt + 1 } ∧ Keeps [] [] [.egs, .eth] s t) ∧
  -- ECHO_REQUEST
  (∀ (s : State) (p v a x n : Nat), p < 8 → s.rxUp p = true → s.on (F.ETH_PORT_CTL_ICMP_EN p) = true → (a = s.portV6 p false ∨ a = s.portV6 p true) → n ≤ 1500 →
    s.clk.ns < (s.eth_ p).echoNs + 1000000000 → (s.eth_ p).echoCnt < s.f F.ETH_IGMP_ICMP_RATE → s.clk.ns < (s.eport p).busy →
    Completes (.echoRequest p v true a x n) s fun t => (t.eport p).resp = (s.eport p).resp ++ [(max 64 (n + 18) + tagLen v, .echoReply v x n)] ∧
    (t.eport p).busy = (s.eport p).busy ∧ (t.eport p).due = (s.eport p).due ∧ t.eth_ p = { s.eth_ p with echoCnt := (s.eth_ p).echoCnt + 1 } ∧ Keeps [] [] [.egs, .eth] s t) ∧
  -- ETH_FAULT
  (∀ (s : State) (p : Nat) (r x : Bool), p < 8 → s.on (if r then F.ETH_PORT_STATUS_REMOTE_FAULT p else F.ETH_PORT_STATUS_LOCAL_FAULT p) = !x →
    Completes (.ethFault p r x) s fun t => t.on (if r then F.ETH_PORT_STATUS_REMOTE_FAULT p else F.ETH_PORT_STATUS_LOCAL_FAULT p) = x ∧
    t.on (F.ETH_PORT_STATUS_TX_READY p) = s.on (F.ETH_PORT_STATUS_TX_READY p) ∧
    t.rxUp p = (s.f (F.LNE_EPORT_STATUS_STATE p) == 4 && !t.on (F.ETH_PORT_STATUS_REMOTE_FAULT p) && !t.on (F.ETH_PORT_STATUS_LOCAL_FAULT p)) ∧
    t.on F.ETH_FLAGS_FAULT = true ∧ Logged [⟨0x0F02, p⟩] s t ∧ Keeps [R.ETH_PORT_STATUS p, R.ETH_FLAGS] [] [.log] s t)

/-- Commands of multicast joins complete (R286). Where a clause fixes what the spec leaves open, it is the model's choice: assumption 2, 3. -/
def Obligations.MulticastCommandsComplete : Prop :=
  -- MEMBERSHIP_QUERY
  (∀ (s : State) (p v x y : Nat) (w : Bool) (d : Option Nat) (g : Group) (gs : List Group), p < 8 → s.rxUp p = true → s.mcastOn p w = true →
    s.groupsOf p = (s.eth_ p).groups → (s.eth_ p).groups.filter (fun h => h.vlan == v && h.ipv6 == w && (match d with | some a => h.addr == a | none => true)) = g :: gs →
    Completes (.membershipQuery p v w false d x y) s fun t => (t.eth_ p).resps.map (fun e => e.2) = (s.eth_ p).resps.map (fun e => e.2) ++ [g :: gs] ∧
    ((t.eth_ p).resps.getLast?.map (fun e => decide (s.clk.ns ≤ e.1) && decide (e.1 ≤ s.clk.ns + x * 1000000))) = some true ∧ (t.eth_ p).groups = (s.eth_ p).groups ∧
    Keeps [] [] [.eth, .fctr] s t) ∧
  -- MEMBERSHIP_QUERY
  (∀ (s : State) (p v x y : Nat) (d : Option Nat), p < 8 → s.rxUp p = true → s.mcastOn p false = true → s.groupsOf p = (s.eth_ p).groups → (s.eth_ p).groups = [] →
    Completes (.membershipQuery p v false true d x y) s fun t => t.eth_ p = { s.eth_ p with old4 := some (s.clk.ns + y * 1000000) } ∧ t.on F.ETH_FLAGS_OLD_QUERIER = true ∧
    Logged [⟨0x0F03, p⟩] s t ∧ Keeps [R.ETH_FLAGS] [] [.eth, .log] s t) ∧
  -- QUERY_RESPONSE
  (∀ (s : State) (p a : Nat) (g : Group), p < 8 → (s.eth_ p).resps = [(a, [g])] → s.mcastOn p g.ipv6 = true →
    (s.groupsOf p).any (fun h => h.vlan == g.vlan && h.ipv6 == g.ipv6 && h.addr == g.addr) = true → max s.clk.ns a + 4 ≤ (s.eport p).busy → (s.eth_ p).old4 = none →
    (s.eth_ p).old6 = none → Completes (.queryResponse p) s fun t => (t.eth_ p).resps = [] ∧ a ≤ t.clk.ns ∧
    (t.eport p).resp = (s.eport p).resp ++ [(64 + tagLen g.vlan, .membershipReport g.vlan g.ipv6 false [g])] ∧ Keeps [] [] [.eth, .egs, .clk] s t) ∧
  -- STATE_CHANGE_REPORT
  (∀ (s : State) (p : Nat) (g : Group), p < 8 → 0 < (s.eth_ p).reports → (s.eth_ p).groups = [g] → s.mcastOn p g.ipv6 = true →
    max s.clk.ns (s.eth_ p).reportAt + 4 ≤ (s.eport p).busy → (s.eth_ p).old4 = none → (s.eth_ p).old6 = none →
    Completes (.stateChangeReport p) s fun t => (t.eth_ p).reports = (s.eth_ p).reports - 1 ∧ (s.eth_ p).reportAt ≤ t.clk.ns ∧
    (t.eth_ p).reportAt = t.clk.ns + s.f F.ETH_IGMP_URI * 100000000 ∧
    (t.eport p).resp = (s.eport p).resp ++ [(64 + tagLen g.vlan, .membershipReport g.vlan g.ipv6 false [g])] ∧ Keeps [] [] [.eth, .egs, .clk] s t) ∧
  -- OLDER_QUERIER_TIMEOUT
  (∀ (s : State) (p a : Nat), p < 8 → (s.eth_ p).old4 = some a → (s.eth_ p).old6 = none → s.portJoins p = [] → (s.eth_ p).groups = [] →
    Completes (.olderQuerierTimeout p) s fun t => (t.eth_ p).old4 = none ∧ a ≤ t.clk.ns ∧ (t.eth_ p).resps = (s.eth_ p).resps ∧ Keeps [] [] [.eth, .clk] s t)

/-- Commands of audio inputs and the audio clock complete (R322, R324, R326, R334, R327). Where a clause fixes what the spec leaves open, it is the
model's choice: assumption 2, 3, 8, 49. -/
def Obligations.AudioInputCommandsComplete : Prop :=
  -- AUDIO_ENABLE
  (∀ s : State, s.dark = false → s.on F.AUD_CTL_EN = false → s.f F.AUD_CTL_FS ≤ 5 → s.audFreqOk = true → (s.setF F.AUD_CTL_EN 1).audFits = true → s.demandOf fnAud = (0, 0) →
    s.fn fnAud = .off → Completes (.audioEnable) s fun t => t.on F.AUD_CTL_EN = true ∧ t.fn fnAud = .starting ∧ t.rdn R.AUD_NEED = (s.setF F.AUD_CTL_EN 1).audNeed % 2 ^ 32 ∧
    t.demandOf fnAud = (s.f F.AUD_CTL_STACK, (s.setF F.AUD_CTL_EN 1).audNeed) ∧ t.aud.evalAt = s.audPos / 192 * 192 + 192 ∧
    Keeps [R.AUD_CTL, R.AUD_NEED, R.HBM_S_POOL_NEED (s.f F.AUD_CTL_STACK)] [fnAud] [.hbm, .aud, .fnAt] s t) ∧
  -- AUDIO_LOOP_EVALUATE
  (∀ (s : State) (o e i f : Int), s.NoMon → s.active fnAud = true → s.f F.AUD_CLK_MODE = 1 → e = o - (s.f F.AUD_CLK_TARGET : Int) * 256 →
    i = clampI (-64000000) 64000000 (s.aud.i + sar (e * 256) (s.f F.AUD_CLK_KI)) → f = clampI (-64000000) 64000000 (i + sar (e * 256) (s.f F.AUD_CLK_KP)) → s.aud.okRun < 15 →
    s.aud.badRun < 15 → Completes (.audioLoopEvaluate o) s fun t => t.aud.i = i ∧ t.aud.f = f ∧ t.rdn R.AUD_ERR = sat32 e ∧ t.rdn R.AUD_FREQ = ofSigned 32 f ∧
    t.aud.okRun = (if e.natAbs ≤ 64 then s.aud.okRun + 1 else 0) ∧ t.aud.badRun = (if 1024 < e.natAbs then s.aud.badRun + 1 else 0) ∧ t.aud.store = s.aud.store ∧
    Keeps [R.AUD_ERR, R.AUD_FREQ] [] [.aud] s t) ∧
  -- AES3_BLOCK
  (∀ (s : State) (i m q : Nat) (e : Int) (d : List AesFrame) (u v : List Nat), i < 8 → s.on (F.AUD_AIN_CTL_EN i) = true → s.active fnAud = true → e.natAbs ≤ 1000 →
    s.on (F.AUD_AIN_STATUS_LOCK i) = true → s.on (F.AUD_AIN_CTL_CRC_CHK i) = false → s.followed i = true → (s.ain i).next = some q → d.length = 192 →
    d.all (fun x => !x.pa && !x.pb) = true → 192 ≤ s.audDepth → Completes (.aes3Block i m 192 e d u v) s fun t => (t.ain i).next = some (q + 192) ∧ (∀ j : Nat, j < 192 →
    (t.smp (2 * i) (q + j)).map (fun x => (x.val, x.v)) = d[j]?.map (fun x => (x.a % 2 ^ 24, x.va))) ∧ (∀ j : Nat, j < 192 →
    (t.smp (2 * i + 1) (q + j)).map (fun x => (x.val, x.v)) = d[j]?.map (fun x => (x.b % 2 ^ 24, x.vb))) ∧ (∀ w : Nat, w < 6 →
    t.rdn (R.AUD_AIN_CS_A i w) = leNat u (4 * w) 4 % 2 ^ 32 ∧ t.rdn (R.AUD_AIN_CS_B i w) = leNat v (4 * w) 4 % 2 ^ 32) ∧
    t.on (F.AUD_AIN_STATUS_V_A i) = d.any (fun x => x.va) ∧ t.on (F.AUD_AIN_STATUS_V_B i) = d.any (fun x => x.vb) ∧ t.rdn (R.AUD_AIN_TS_NS i) = m % 1000000000 ∧
    Keeps ([R.AUD_AIN_STATUS i, R.AUD_AIN_TS_NS i, R.AUD_AIN_TS_SEC_LO i, R.AUD_AIN_TS_SEC_HI i] ++ (List.range 6).map (R.AUD_AIN_CS_A i) ++ (List.range 6).map (R.AUD_AIN_CS_B i)) [] [.aud] s t) ∧
  -- TDM_BLOCK
  (∀ (s : State) (n m q k : Nat) (d : List (List Nat)), n < 4 → s.on (F.AUD_TDM_CTL_RX_EN n) = true → s.active fnAud = true → s.on (F.AUD_TDM_CTL_MASTER n) = true →
    s.followed (8 + n) = true → (s.ain (8 + n)).next = some q → k < s.f (F.AUD_TDM_CTL_SLOTS n) → s.f (F.AUD_TDM_CTL_SLOTS n) ≤ 16 → s.srcSilent (16 + 16 * n + k) = false →
    d.length ≤ s.audDepth → Completes (.tdmBlock n m d) s fun t => (t.ain (8 + n)).next = some (q + d.length) ∧ (∀ j : Nat, j < d.length →
    t.smp (16 + 16 * n + k) (q + j) = some { val := (d.getD j []).getD k 0 % 2 ^ 24, v := false, at_ := s.mediaOf m + ceilDiv ((j + 1) * 1000000000) (max 1 s.fsA) }) ∧
    Keeps [] [] [.aud] s t) ∧
  -- TDM_SLAVE_LOCK_LOSS
  (∀ (s : State) (n : Nat), n < 4 → s.on (F.AUD_TDM_CTL_MASTER n) = false → s.on (F.AUD_TDM_STATUS_FS_LOCK n) = true →
    Completes (.tdmSlaveLockLoss n) s fun t => t.on (F.AUD_TDM_STATUS_FS_LOCK n) = false ∧ t.ain (8 + n) = {} ∧ t.aud.store = s.aud.store ∧ Logged [⟨0x1402, 8 + n⟩] s t ∧
    Keeps [R.AUD_TDM_STATUS n] [] [.aud, .log] s t) ∧
  -- AES3_INPUT_LOSS
  (∀ (s : State) (i : Nat), i < 8 → s.on (F.AUD_AIN_STATUS_LOCK i) = true → Completes (.aes3InputLoss i) s fun t => t.on (F.AUD_AIN_STATUS_LOCK i) = false ∧ t.ain i = {} ∧
    t.aud.store = s.aud.store ∧ Logged [⟨0x1402, i⟩] s t ∧ Keeps [R.AUD_AIN_STATUS i] [] [.aud, .log] s t)

/-- Commands of audio outputs complete (R331, R336). Where a clause fixes what the spec leaves open, it is the model's choice: assumption 2, 6, 8, 49,
50. -/
def Obligations.AudioOutputCommandsComplete : Prop :=
  -- AUDIO_BLOCK_DECISION
  (∀ (s : State) (u : Nat) (o : AoutSt), u < 8 → s.aout u = o → o.st = .ready → s.ready fnAud = true → o.blks = [] → o.shift = 0 → o.shiftNext = none → s.held = [] →
    s.outNovid u = true → s.outDly u = o.d → 0 ≤ o.d → o.next % 192 = 0 → Completes (.audioBlockDecision u) s fun t => (t.aout u).next = o.next + 192 ∧ (t.aout u).d = o.d ∧
    (t.aout u).blks.map (fun b => (b.x0, b.x1, b.d)) = [(o.next + o.d.toNat, o.next + 192 + o.d.toNat, o.d)] ∧
    (t.aout u).blks.map (fun b => b.srcs) = [[s.fs (F.AUD_AOUT_CTL_SRC_A u), s.fs (F.AUD_AOUT_CTL_SRC_B u)]] ∧ (t.aout u).st = .ready ∧
    s.timeOf (o.next + o.d.toNat) ≤ t.mediaTime ∧ Keeps [] [] [.aud, .clk] s t) ∧
  -- AUDIO_OUTPUT_ENABLE
  (∀ (s : State) (u : Nat), s.dark = false → u < 8 → s.on (F.AUD_AOUT_CTL_EN u) = false → (s.aout u).st = .off → srcOk (s.f (F.AUD_AOUT_CTL_SRC_A u)) = true →
    srcOk (s.f (F.AUD_AOUT_CTL_SRC_B u)) = true → (s.setF (F.AUD_AOUT_CTL_EN u) 1).outEnableOk u = true → s.ready fnAud = true →
    Completes (.audioOutputEnable u) s fun t => t.on (F.AUD_AOUT_CTL_EN u) = true ∧ (t.aout u).st = .ready ∧ t.on (F.AUD_AOUT_STATUS_RUN u) = true ∧
    (t.aout u).next % 192 = 0 ∧ (s.audPos : Int) < (t.aout u).next + (t.aout u).d ∧ s.audPos + 256 ≤ (t.aout u).firstX ∧
    (((t.aout u).firstX : Int) - (t.aout u).d) % 192 = 0 ∧ ((t.aout u).firstX : Int) < max ((s.audPos : Int) + 256) (t.aout u).d + 192 ∧
    Keeps [R.AUD_AOUT_CTL u, R.AUD_AOUT_STATUS u] [] [.aud] s t) ∧
  -- AUDIO_OUTPUT_DISABLE
  (∀ (s : State) (u : Nat), s.dark = false → u < 8 → s.on (F.AUD_AOUT_CTL_EN u) = true → (s.aout u).st = .ready → srcOk (s.f (F.AUD_AOUT_CTL_SRC_A u)) = true →
    srcOk (s.f (F.AUD_AOUT_CTL_SRC_B u)) = true → Completes (.audioOutputDisable u) s fun t => t.on (F.AUD_AOUT_CTL_EN u) = false ∧
    t.aout u = { s.aout u with st := .draining, stopX := some s.audPos } ∧ Keeps [R.AUD_AOUT_CTL u] [] [.aud, .held] s t) ∧
  -- AUDIO_OUTPUT_DRAINED
  (∀ (s : State) (u x : Nat), u < 8 → (s.aout u).stopX = some x → (s.aout u).st = .draining → (s.aout u).blks = [] → s.held = [] →
    Completes (.audioOutputDrained u) s fun t => t.aout u = {} ∧ t.on (F.AUD_AOUT_STATUS_RUN u) = false ∧ t.on (F.AUD_AOUT_STATUS_MUTED u) = false ∧
    s.timeOf (x + 64) ≤ t.mediaTime ∧ Keeps [R.AUD_AOUT_STATUS u] [] [.aud, .clk] s t)

/-- Commands of TDM masks and audio transmit streams complete (R335, R337). Where a clause fixes what the spec leaves open, it is the model's choice:
assumption 2, 37, 49. -/
def Obligations.AudioStreamCommandsComplete : Prop :=
  -- TDM_MASK_COMMIT
  (∀ (s : State) (n : Nat), s.dark = false → n < 4 → s.on (F.AUD_TDM_STATUS_PENDING n) = false →
    Completes (.tdmMaskCommit n) s fun t => t.on (F.AUD_TDM_STATUS_PENDING n) = true ∧ Tab.get (fun _ => none) t.aud.commits n = some s.mediaTime ∧
    t.rd (R.AUD_TDM_MASK n) = s.rd (R.AUD_TDM_MASK n) ∧ Keeps [R.AUD_TDM_STATUS n] [] [.aud] s t) ∧
  -- TDM_MASK_APPLY
  (∀ (s : State) (n c : Nat), n < 4 → Tab.get (fun _ => none) s.aud.commits n = some c → s.on (F.AUD_TDM_CTL_MASTER n) = false → c < s.mediaTime →
    Completes (.tdmMaskApply n) s fun t => t.rd (R.AUD_TDM_MASK n) = s.rd (R.AUD_TDM_MASK_PEND n) ∧ t.on (F.AUD_TDM_STATUS_PENDING n) = false ∧
    Tab.get (fun _ => none) t.aud.commits n = none ∧ Logged [⟨0x1408, n⟩] s t ∧ Keeps [R.AUD_TDM_STATUS n, R.AUD_TDM_MASK n] [] [.aud, .log] s t) ∧
  -- WRITE_TX
  (∀ (s : State) (r f : Nat), s.dark = false → r < 64 → s.f (F.AUD_TXS_FLOW_FLOW r) = f → s.on (F.AUD_TXS_CTL_EN r) = false → efEn (s.egWords f) = false →
    (egsFits (fun i => if i = 0 then setBits (s.rdn (R.EGS_FT_DATA 0)) 3 1 4 / 2 * 2 else s.rdn (R.EGS_FT_DATA i)) = true) →
    (s.egsRanges f (fun i => if i = 0 then setBits (s.rdn (R.EGS_FT_DATA 0)) 3 1 4 / 2 * 2 else s.rdn (R.EGS_FT_DATA i)) = true) →
    Completes (.writeTx r) s fun t => (∀ i : Nat, i < 24 →
    t.egw f i = (fun i => if i = 0 then setBits (s.rdn (R.EGS_FT_DATA 0)) 3 1 4 / 2 * 2 else s.rdn (R.EGS_FT_DATA i)) i) ∧ efType (t.egWords f) = 4 ∧
    efEn (t.egWords f) = false ∧ Keeps [] [] [.egs] s t) ∧
  -- AUDIO_PACKET_DEPARTURE
  (∀ (s : State) (r f p : Nat) (b : AudBlk), r < 64 → (s.aout (16 + r)).blks = [b] → s.ready fnAud = true → s.f (F.AUD_TXS_FLOW_FLOW r) = f →
    efLegs (s.egWords f) = [(0, p)] → s.ready (fnEgs p) = true → (s.outFrames (s.aout (16 + r)) b).2 = 0 → (s.eport p).due = [] → 10 ^ 17 ≤ (s.eport p).busy →
    s.clk.ns + 4 * ceilDiv (s.timeOf b.x1 - s.mediaTime) 4 < 10 ^ 17 → 0 ≤ b.d → Completes (.audioPacketDeparture r) s fun t => (t.aout (16 + r)).blks = [] ∧
    t.rdn (R.AUD_TXS_PKT_CNT r) = (s.rdn (R.AUD_TXS_PKT_CNT r) + 1) % 2 ^ 32 ∧ s.timeOf b.x1 ≤ t.mediaTime ∧
    (t.eport p).due.map (fun e => (e.pkt.flow, e.pkt.seq, e.pkt.ts)) = [(f, ((b.x0 - b.d.toNat) / (s.txsPack r).1 + efSeq0 (s.egWords f)) % 65536, (b.x0 - b.d.toNat + s.egw f 9) % 2 ^ 32)] ∧
    t.egw f 27 = ((b.x0 - b.d.toNat) / (s.txsPack r).1 + efSeq0 (s.egWords f)) % 65536 + 1 ∧ Keeps [R.AUD_TXS_PKT_CNT r] [] [.aud, .egs, .clk] s t)

/-- Commands of Sightings and calibration windows complete (R342, R343, R344, R345). Where a clause fixes what the spec leaves open, it is the model's
choice: assumption 2, 47, 51, 99. -/
def Obligations.SightingCommandsComplete : Prop :=
  -- SIGHTING_RUN
  (∀ (s : State) (k i : Nat), s.dark = false → (k = 0 ∨ k = 3) → sightOk k i = true → s.sight k i = none → Completes (.sightingRun k i) s fun t => t.sight k i = some {} ∧
    t.sightCodes k i = s.sightCodes k i ∧ Keeps [] [] [.cal] s t) ∧
  -- SIGHTING_TEMPERATURE_TRIGGER
  (∀ (s : State) (k i : Nat) (x a : Int), (k = 0 ∨ k = 3) → sightOk k i = true → s.sight k i = none →
    Tab.get (fun _ => (none : Option Int)) s.cal.temps (256 * k + i) = some a → s.f F.CAL_TRIG_TEMP_DELTA < (x - a).natAbs →
    Completes (.sightingTemperatureTrigger k i x) s fun t => t.sight k i = some {} ∧ t.cal.temps = s.cal.temps ∧ Keeps [] [] [.cal] s t) ∧
  -- CALIBRATION_WINDOW_OPEN
  (∀ (s : State) (g : Nat) (q : Clock), s.active fnCal = true → s.on F.CAL_STATUS_WINDOW = false →
    s.begin.toPhase 6 (s.f F.CAL_WIN_START * 65536) = some { s.begin with clk := q } → g < 128 → s.cal.sights = [(256 + g, some {})] → s.ready (fnHbm (g / 32)) = true →
    Completes (.calibrationWindowOpen) s fun t => t.on F.CAL_STATUS_WINDOW = true ∧ t.cal.winAt = some q.vpos ∧ t.sight 1 g = some { run := true } ∧ t.clk = q ∧
    Keeps [R.CAL_STATUS] [] [.cal, .clk] s t) ∧
  -- CALIBRATION_WINDOW_CLOSE
  (∀ (s : State) (v : Nat) (q : Clock), s.cal.winAt = some v → s.begin.toPos 6 (v + s.f F.CAL_WIN_LEN * 65536) = some { s.begin with clk := q } →
    Completes (.calibrationWindowClose) s fun t => t.on F.CAL_STATUS_WINDOW = false ∧ t.cal = { s.cal with winAt := none, shutNs := q.ns } ∧ t.clk = q ∧
    Keeps [R.CAL_STATUS] [] [.cal, .clk] s t) ∧
  -- SIGHTING_COMPLETE
  (∀ (s : State) (i : Nat) (a b : List Int) (x : Int) (y : Sight), i < 72 → s.sight 3 i = some y → y.goal = [] → y.start = false → a.length = 1 → b.length = 1 →
    a ≠ s.sightCodes 3 i → s.sightPasses 3 i false a b [] = true → s.on F.CAL_STATUS_WINDOW = false →
    Completes (.sightingComplete 3 i a b [] x) s fun t => t.sight 3 i = some { goal := a, stepNs := s.clk.ns } ∧ t.sightCodes 3 i = s.sightCodes 3 i ∧
    Tab.get (fun _ => (none : Option Int)) t.cal.temps (768 + i) = some x ∧ t.rdn R.CAL_RUN_CNT = (s.rdn R.CAL_RUN_CNT + 1) % 2 ^ 32 ∧ Logged [⟨0x1502, i⟩] s t ∧
    Keeps [R.CAL_RUN_CNT] [] [.cal, .log] s t) ∧
  -- SIGHTING_STEP
  (∀ (s : State) (i : Nat) (a g : Int) (y : Sight), i < 72 → s.sight 3 i = some y → y.goal = [g] → y.again = false → s.sightCodes 3 i = [a] → a ≠ g → -128 ≤ g ∧ g < 128 →
    Completes (.sightingStep 3 i) s fun t => t.sightCodes 3 i = [if a < g then a + 1 else a - 1] ∧ y.stepNs + s.f F.CAL_STEP_STEP_US * 1000 ≤ t.clk.ns ∧
    t.sight 3 i = (if (a - g).natAbs = 1 then none else some { y with stepNs := t.clk.ns }) ∧ Keeps [senseReg i] [] [.cal, .clk] s t) ∧
  -- PLL_SIGHTING_PARK
  (∀ (s : State) (m : Nat), s.active fnCal = true → 6 ≤ m → m ≤ 10 → m ≠ 9 → s.cal.sights = [(512 + m, some {})] → s.cal.parked = [] → s.relockOk m = true →
    Completes (.pllSightingPark) s fun t => t.sight 2 m = some { run := true } ∧ t.f (F.CKG_CPLL_STATUS_STATE m) = 1 ∧ t.f ⟨R.CKG_CORE_STATUS, 16 + m, 16 + m⟩ = 1 ∧
    t.f ⟨R.CKG_CORE_STATUS, m, m⟩ = 0 ∧ Tab.get (fun _ => 0) t.ckg.relockAt m = s.clk.ns ∧ Keeps [R.CKG_CPLL_STATUS m, R.CKG_CORE_STATUS] [] [.cal, .ckg] s t)

/-- Commands of the voltage and clock loops complete (R347, R349). Where a clause fixes what the spec leaves open, it is the model's choice: assumption
2, 52, 99. -/
def Obligations.AdaptiveLoopCommandsComplete : Prop :=
  -- AVS_EVALUATE
  (∀ (s : State) (q m v : Nat) (e : Int), q < 4 → s.avsOn = true → e = (m : Int) - s.f (F.CAL_AVS_CTL_TARGET q) → v = s.volt q → Tab.get (fun _ => 0) s.cal.vmaxRun q < 999 →
    Completes (.avsEvaluate q m) s fun t => (t.volt q = max (2 * s.f (F.CAL_AVS_CTL_VMIN q)) (min (2 * s.f (F.CAL_AVS_CTL_VMAX q)) (if 0 < e then v - 5 else if e < 0 then v + 5 else v))) ∧
    t.f (F.CAL_AVS_VOLT_SUPPLY q) = t.volt q / 2 ∧ signedOf 8 (t.f (F.CAL_AVS_RESID_E q)) = clampI (-128) 127 e ∧ Tab.get (fun _ => 0) s.cal.avsAt q + 1000 ≤ t.clk.ns ∧
    Tab.get (fun _ => 0) t.cal.vmaxRun q = (if e < 0 ∧ 2 * s.f (F.CAL_AVS_CTL_VMAX q) ≤ v then Tab.get (fun _ => 0) s.cal.vmaxRun q + 1 else 0) ∧ (∀ r : Nat, r ≠ q →
    t.volt r = s.volt r) ∧ Keeps [R.CAL_AVS_RESID q, R.CAL_AVS_VOLT q] [] [.cal, .clk] s t) ∧
  -- CLOCK_LOOP
  (∀ (s : State) (q : Clock), s.fsOn = true → s.begin.toPhase 6 0 = some { s.begin with clk := q } → s.liveChans = [] →
    (List.range 4).all (fun j => decide (4 ≤ s.f (F.CAL_FS_CTL_D_MAX j))) = true → Completes (.clockLoop) s fun t => (∀ j : Nat, j < 4 →
    t.dcur j = s.f (F.CAL_FS_CTL_D_MAX j)) ∧ (∀ j : Nat, j < 4 → t.dcur j = s.dcur j ∨ t.f (F.CKG_CPLL_STATUS_DIV (2 + j)) = t.dcur j) ∧ (∀ j : Nat, j < 4 →
    t.volt j = (if t.dcur j < s.dcur j ∧ s.avsOn = true then 2 * s.f (F.CAL_AVS_CTL_VMAX j) else s.volt j)) ∧ t.clk = q ∧
    Keeps ((List.range 4).map R.CAL_FS_STATUS ++ (List.range 4).map R.CAL_FS_CHG_CNT ++ (List.range 4).map R.CAL_AVS_VOLT ++ (List.range 4).map (fun j => R.CKG_CPLL_STATUS (2 + j))) [] [.cal, .clk, .log] s t)

/-- Resets of the core and of a function complete (R356, R358). Where a clause fixes what the spec leaves open, it is the model's choice: assumption 9,
58, 60, 77. -/
def Obligations.CoreResetCommandsComplete : Prop :=
  -- RST_N_LOW
  (∀ s : State, s.on F.BIN_STATUS_SHUTDOWN = false → s.cfg.reset = none → s.isl.queue.length < 8 → Completes (.rstNLow) s fun t => (∀ a, islandKept a = false →
    a ≠ R.GLB_RESET_CAUSE → t.rd a = resetOf a) ∧ (∀ a, islandKept a = true → a ∉ [R.BIN_STATUS, R.BIN_FAULT] → t.rd a = s.rd a) ∧ (∀ f, t.fn f = .off) ∧
    t.rdn R.GLB_RESET_CAUSE = 1 + 4 * 1 ∧ t.cfg.reset = some { kind := 1, source := 1, since := s.clk.ns } ∧ t.cfg.stage = 0 ∧ t.hbm.mem = [] ∧ t.souv = s.souv ∧
    t.keys = s.keys ∧ t.flash = s.flash ∧ t.pending = s.pending ∧ t.clk.run = false ∧ t.clk.ns = s.clk.ns ∧
    t.isl.queue.map (fun r => (r.cause, r.detail)) = s.isl.queue.map (fun r => (r.cause, r.detail)) ++ [(11, 1 + 4 * 1)] ∧ t.on F.BIN_STATUS_MUTED = true ∧
    t.on F.BIN_STATUS_MUTE_HOLD = true ∧ t.on F.BIN_STATUS_HELM_OUT = false ∧ t.on F.BIN_STATUS_GIVEN_UP = false ∧ t.pins = { s.pins with rstN := false }) ∧
  -- PERST_N
  (∀ s : State, Completes (.perstN) s fun t => t.sx = { s.sx with pcieWin := 0, msix := [] } ∧ t.log = { s.log with vecs := [] } ∧ Keeps [] [] [.sx, .log] s t) ∧
  -- GLB_RESET_WARM
  (∀ s : State, s.dark = false → s.cfg.reset = none → s.isl.queue.length < 8 → s.anyStack = false → Completes (.glbResetWarm) s fun t => (∀ a, islandKept a = false →
    a ≠ R.GLB_RESET_CAUSE → t.rd a = resetOf a) ∧ (∀ a, islandKept a = true → a ∉ [R.BIN_STATUS, R.BIN_FAULT] → t.rd a = s.rd a) ∧ (∀ f, t.fn f = .off) ∧
    t.rdn R.GLB_RESET_CAUSE = 2 + 4 * 2 ∧ t.cfg.reset = some { kind := 2, source := 2, since := s.clk.ns } ∧ t.cfg.stage = 0 ∧ t.hbm.mem = s.hbm.mem ∧ t.souv = s.souv ∧
    t.keys = s.keys ∧ t.flash = s.flash ∧ t.pending = s.pending ∧ t.clk.run = false ∧ t.clk.ns = s.clk.ns ∧
    t.isl.queue.map (fun r => (r.cause, r.detail)) = s.isl.queue.map (fun r => (r.cause, r.detail)) ++ [(11, 2 + 4 * 2)] ∧ t.on F.BIN_STATUS_MUTED = true ∧
    t.on F.BIN_STATUS_MUTE_HOLD = true ∧ t.on F.BIN_STATUS_HELM_OUT = false ∧ t.on F.BIN_STATUS_GIVEN_UP = false ∧ t.pins = s.pins) ∧
  -- GLB_RESET_COLD
  (∀ s : State, s.dark = false → s.cfg.reset = none → s.isl.queue.length < 8 → Completes (.glbResetCold) s fun t => (∀ a, islandKept a = false → a ≠ R.GLB_RESET_CAUSE →
    t.rd a = resetOf a) ∧ (∀ a, islandKept a = true → a ∉ [R.BIN_STATUS, R.BIN_FAULT] → t.rd a = s.rd a) ∧ (∀ f, t.fn f = .off) ∧ t.rdn R.GLB_RESET_CAUSE = 1 + 4 * 2 ∧
    t.cfg.reset = some { kind := 1, source := 2, since := s.clk.ns } ∧ t.cfg.stage = 0 ∧ t.hbm.mem = [] ∧ t.souv = s.souv ∧ t.keys = s.keys ∧ t.flash = s.flash ∧
    t.pending = s.pending ∧ t.clk.run = false ∧ t.clk.ns = s.clk.ns ∧
    t.isl.queue.map (fun r => (r.cause, r.detail)) = s.isl.queue.map (fun r => (r.cause, r.detail)) ++ [(11, 1 + 4 * 2)] ∧ t.on F.BIN_STATUS_MUTED = true ∧
    t.on F.BIN_STATUS_MUTE_HOLD = true ∧ t.on F.BIN_STATUS_HELM_OUT = false ∧ t.on F.BIN_STATUS_GIVEN_UP = false ∧ t.pins = s.pins) ∧
  -- FUNCTION_RESET
  (∀ (s : State) (f : Nat), s.dark = false → 28 ≤ f → f < 36 → s.cfg.reset = none → s.held = [] → s.wpend = [] → s.latch = [] →
    Completes (.functionReset f) s fun t => t.fn f = .off ∧ t.rd (R.ING_PORT_OVH (f - 28)) = resetOf (R.ING_PORT_OVH (f - 28)) ∧
    Keeps [R.ING_PORT_OVH (f - 28)] [f] [.fnAt] s t)

/-- Power-on resets and the time limits of resets complete (R356, R395, R394). Where a clause fixes what the spec leaves open, it is the model's choice:
assumption 7, 10, 58, 59, 60. -/
def Obligations.SupplyResetCommandsComplete : Prop :=
  -- POWER_ON_RESET
  (∀ s : State, Completes (.powerOnReset) s fun t => (∀ a, t.rd a = resetOf a) ∧ (∀ f, t.fn f = .off) ∧ t.souv = s.souv ∧ t.keys = s.keys ∧ t.flash = s.flash ∧
    t.isl.queue = [] ∧ t.hbm.mem = [] ∧ t.pins = { s.pins with rstN := true } ∧ t.pending = s.pending ∧ t.clk.ns = 0 ∧ t.cfg.pwrGood = false) ∧
  -- SELF_REFRESH_CONFIRM
  (∀ (s : State) (x n : Nat), s.cfg.reset = some { kind := 2, source := x, since := n } → s.warmWaits = true → x < 16 →
    Completes (.selfRefreshConfirm) s fun t => (∀ a, islandKept a = false → a ≠ R.GLB_RESET_CAUSE → t.rd a = resetOf a) ∧ (∀ a, islandKept a = true →
    a ∉ [R.BIN_STATUS, R.BIN_FAULT] → t.rd a = s.rd a) ∧ (∀ f, t.fn f = .off) ∧ t.rdn R.GLB_RESET_CAUSE = 2 + 4 * x ∧
    t.cfg.reset = some { kind := 2, source := x, since := s.clk.ns } ∧ t.cfg.stage = 0 ∧ t.hbm.mem = s.hbm.mem ∧ t.souv = s.souv ∧ t.keys = s.keys ∧ t.flash = s.flash ∧
    t.pending = s.pending ∧ t.clk.run = false ∧ t.clk.ns = s.clk.ns ∧ t.on F.BIN_STATUS_GIVEN_UP = false) ∧
  -- SELF_REFRESH_TIMEOUT
  (∀ (s : State) (x n : Nat), s.cfg.reset = some { kind := 2, source := x, since := n } → s.warmWaits = true → x < 16 →
    Completes (.selfRefreshTimeout) s fun t => (∀ a, islandKept a = false → a ≠ R.GLB_RESET_CAUSE → t.rd a = resetOf a) ∧ (∀ a, islandKept a = true →
    a ∉ [R.BIN_STATUS, R.BIN_FAULT] → t.rd a = s.rd a) ∧ (∀ f, t.fn f = .off) ∧ t.rdn R.GLB_RESET_CAUSE = 1 + 4 * x ∧
    t.cfg.reset = some { kind := 1, source := x, since := max s.clk.ns (n + 1000000) } ∧ t.cfg.stage = 0 ∧ t.hbm.mem = [] ∧ t.souv = s.souv ∧ t.keys = s.keys ∧
    t.flash = s.flash ∧ t.pending = s.pending ∧ t.clk.run = false ∧ t.clk.ns = max s.clk.ns (n + 1000000) ∧ t.on F.BIN_STATUS_GIVEN_UP = false) ∧
  -- ISLAND_HOLD_UP_END
  (∀ (s : State) (x : Nat), s.isl.vinLow = some x → s.on F.BIN_STATUS_VSTBY = false → Completes (.islandHoldUpEnd) s fun t => t.isl.dead = true ∧ (∀ a, t.rd a = resetOf a) ∧
    (∀ f, t.fn f = .off) ∧ t.souv = s.souv ∧ t.keys = s.keys ∧ t.flash = s.flash ∧ t.hbm.mem = [] ∧ x + 200000 ≤ t.clk.ns ∧ t.pending = s.pending ∧ t.cfg.pwrGood = false)

/-- Commands of start-up and feature negotiation complete (R359, R362, R370). Where a clause fixes what the spec leaves open, it is the model's choice:
assumption 2, 53, 54, 55. -/
def Obligations.StartCommandsComplete : Prop :=
  -- PWR_GOOD_RISE
  (∀ s : State, s.dark = false → Completes (.pwrGoodRise) s fun t => t.cfg = { s.cfg with pwrGood := true } ∧ Keeps [] [] [.cfg] s t) ∧
  -- LOADER_START
  (∀ (s : State) (a b e : Option FwHdr) (m c o : Bool) (k : Nat), s.loaderMay = true → s.cfg.reset = none → s.updState = 0 → s.trial ≠ 1 → s.dirCopy = some k →
    s.fn fnCfg = .off →
    Completes (.loaderStart a b e m c o) s fun t => t.cfg = { s.cfg with stage := 1, t1 := s.clk.ns, slots := { active := a, fallback := b }, keys1 := s.keys } ∧
    t.fn fnCfg = .starting ∧ t.rdn R.BIN_BOOT_CNT = (s.rdn R.BIN_BOOT_CNT + 1) % 2 ^ 32 ∧ t.rdn R.GLB_MID = s.pins.mid % 2 ^ 32 ∧ t.on F.BIN_STATUS_MUTED = false ∧
    t.on F.BIN_STATUS_MUTE_HOLD = false ∧ t.rdn R.BIN_SX_BOOT_ID = Config.bootId s.fctr % 2 ^ 32 ∧ t.on F.TWN_STATUS_TWIN_FIRST = s.pins.twinFirst ∧
    t.on F.TWN_STATUS_HELM_IN = s.pins.helmIn ∧ (∀ p : Nat, p < 11 → t.f (F.CKG_CPLL_STATUS_STATE p) = 1) ∧ t.f F.CFG_FLASH_SECOND = k % 2 ∧
    Keeps ([R.BIN_STATUS, R.BIN_BOOT_CNT, R.GLB_MID, R.TWN_STATUS, R.BIN_SX_BOOT_ID, R.CFG_FLASH, R.CKG_CORE_STATUS] ++ (List.range 11).map R.CKG_CPLL_STATUS ++ (List.range 4).map R.CAL_FS_STATUS ++ (List.range 4).map R.CAL_FS_CHG_CNT) [fnCfg] [.cfg, .pins, .ckg, .fctr, .fnAt, .log] s t) ∧
  -- FIRMWARE_START
  (∀ (s : State) (l : List Nat) (h : FwHdr) (b g : Bool) (r : BasRec), s.cfg.stage = 1 → s.f F.CFG_STATUS_STATE = 0 → s.bootPick = some (h, b) →
    headerOk s.imgByte (s.flashSize - flashConfig) = true → recsFrom s.imgByte (imgLen s.imgByte) 256 (imgLen s.imgByte / 16 + 1) = some [r] → recOk s.imgByte r = true →
    orderOk [r] = true → s.sigCheck s.imgByte [r] = some g → featOk (imgReq s.imgByte r) (imgWant s.imgByte r) = true → imgWord s.imgByte 20 / 65536 = 0 →
    Completes (.firmwareStart l) s fun t => t.cfg.stage = 2 ∧ t.cfg.img = true ∧ t.cfg.req = imgReq s.imgByte r ∧ t.cfg.want = imgWant s.imgByte r ∧
    t.cfg.closeAt = some (s.clk.ns + 1000000 * (imgWord s.imgByte 20 % 65536)) ∧ t.f F.CFG_STATUS_STATE = 1 ∧ t.on F.CFG_STATUS_SIGNED = g ∧ t.on F.CFG_STATUS_FALLBACK = b ∧
    t.on F.GLB_FEAT_CTL_WINDOW = true ∧ t.rdn (R.GLB_FEAT_OFFER 0) = 0x3FFF ∧ t.rdn R.GLB_FW_VERSION = h.version % 2 ^ 32 ∧ t.rdn R.CFG_IMG_LEN = imgLen s.imgByte % 2 ^ 32 ∧
    Logged [⟨0x1902, 0⟩] s t ∧ Keeps [R.CFG_STATUS, R.GLB_FW_VERSION, R.CFG_SET_FMT, R.GLB_FEAT_OFFER 0, R.CFG_IMG_LEN, R.CFG_BUILD_ID, R.GLB_FEAT_CTL] [] [.cfg, .log] s t) ∧
  -- FEATURE_COMMIT
  (∀ s : State, s.dark = false → s.hostWindow = true → s.featAccept &&& s.featOffer = s.featAccept → bitsOf s.featAccept 8 8 = 0 → bitsOf s.featAccept 9 9 = 0 →
    s.f F.CFG_STATUS_STATE = 1 → s.cfg.req &&& s.featAccept = s.cfg.req → Completes (.featureCommit) s fun t => t.on F.GLB_FEAT_CTL_LOCKED = true ∧
    t.on F.GLB_FEAT_CTL_WINDOW = false ∧ t.on F.GLB_FEAT_CTL_BY_HOST = true ∧ t.featAccept = s.featAccept ∧ t.on F.PTP_STATUS_COMPAT = false ∧
    t.cfg = { s.cfg with closeAt := none } ∧ t.f F.CFG_STATUS_STATE = 2 ∧ Logged [⟨0x0004, 0⟩] s t ∧ Keeps [R.GLB_FEAT_CTL, R.PTP_STATUS, R.CFG_STATUS] [] [.cfg, .log] s t) ∧
  -- HOST_WINDOW_CLOSE
  (∀ (s : State) (x : Nat), s.cfg.closeAt = some x → s.on F.GLB_FEAT_CTL_WINDOW = true → s.f F.CFG_STATUS_STATE = 1 →
    s.cfg.req &&& (s.featOffer &&& (s.cfg.req ||| s.cfg.want)) = s.cfg.req → Completes (.hostWindowClose) s fun t => t.on F.GLB_FEAT_CTL_LOCKED = true ∧
    t.on F.GLB_FEAT_CTL_WINDOW = false ∧ t.on F.GLB_FEAT_CTL_BY_HOST = false ∧ t.featAccept = (s.featOffer &&& (s.cfg.req ||| s.cfg.want)) ∧
    t.on F.PTP_STATUS_COMPAT = (bitsOf (s.featOffer &&& (s.cfg.req ||| s.cfg.want)) 9 9 == 1) ∧ x ≤ t.clk.ns ∧ t.f F.CFG_STATUS_STATE = 2 ∧ Logged [⟨0x0004, 0⟩] s t ∧
    Keeps ([R.GLB_FEAT_CTL, R.PTP_STATUS, R.CFG_STATUS] ++ (List.range 4).map R.GLB_FEAT_ACCEPT) [] [.cfg, .clk, .log] s t)

/-- Commands of Basgar records and of the configuration lock complete (R368, R365). Where a clause fixes what the spec leaves open, it is the model's
choice: assumption 2, 9, 53, 55, 56, 57. -/
def Obligations.ImageRecordCommandsComplete : Prop :=
  -- RECORD_APPLY
  (∀ (s : State) (r : BasRec), s.applying = true → r = recAt s.imgByte s.cfg.off → r.applies s.pins.mid = true → s.cfg.off + 16 + r.len < imgLen s.imgByte → r.ty = 6 →
    Completes (.recordApply) s fun t => t.cfg = { s.cfg with key := some (r.param % 256, imgBytes s.imgByte (r.off + 16) 32), off := s.cfg.off + 16 + r.len, idx := s.cfg.idx + 1, wait := none } ∧
    t.rdn R.CFG_REC_CNT = (s.rdn R.CFG_REC_CNT + 1) % 2 ^ 32 ∧ Keeps [R.CFG_REC_CNT] [] [.cfg] s t) ∧
  -- RECORD_APPLY
  (∀ (s : State) (r : BasRec) (v : Nat), s.applying = true → r = recAt s.imgByte s.cfg.off → r.applies s.pins.mid = true → s.cfg.off + 16 + r.len < imgLen s.imgByte →
    r.ty = 2 → r.words s.imgByte = [R.CAL_STEP, v] → 4 ≤ v → v ≤ 255 → Completes (.recordApply) s fun t => t.rdn R.CAL_STEP = v ∧
    t.cfg = { s.cfg with off := s.cfg.off + 16 + r.len, idx := s.cfg.idx + 1, wait := none } ∧ t.rdn R.CFG_REC_CNT = (s.rdn R.CFG_REC_CNT + 1) % 2 ^ 32 ∧
    Keeps [R.CFG_REC_CNT, R.CAL_STEP] [] [.cfg] s t) ∧
  -- REG_WAIT_TIMEOUT
  (∀ (s : State) (r : BasRec) (x : Nat), s.waitingRecord 0x03 = some (r, x) → s.fn fnCfg = .starting → s.isl.queue.length < 8 →
    Completes (.regWaitTimeout) s fun t => t.f F.CFG_STATUS_STATE = 4 ∧ t.on F.CFG_FLAGS_FAILED = true ∧ t.rdn R.CFG_ERR_REC = s.cfg.idx % 2 ^ 32 ∧
    t.rdn R.CFG_ERR_ADDR = (r.words s.imgByte).getD 0 0 % 2 ^ 32 ∧ t.rdn R.CFG_ERR_CODE = 7 ∧ t.cfg = { s.cfg with halt := true, wait := none } ∧ t.fn fnCfg = .fault ∧
    t.rdn R.GLB_LAST_FAULT_FN = 7 ∧ x ≤ t.clk.ns ∧ Logged [⟨0x0002, 7⟩, ⟨0x1904, 0⟩] s t ∧
    Keeps [R.CFG_STATUS, R.CFG_FLAGS, R.CFG_ERR_REC, R.CFG_ERR_ADDR, R.CFG_ERR_CODE, R.GLB_LAST_FAULT_FN, R.BIN_FAULT, R.BIN_FH_LOST] [fnCfg] [.cfg, .isl, .clk, .fnAt, .log] s t) ∧
  -- TABLE_LOAD_TIMEOUT
  (∀ (s : State) (r : BasRec) (x : Nat), s.waitingRecord 0x04 = some (r, x) → s.fn fnCfg = .starting → s.isl.queue.length < 8 →
    Completes (.tableLoadTimeout) s fun t => t.f F.CFG_STATUS_STATE = 4 ∧ t.on F.CFG_FLAGS_FAILED = true ∧ t.rdn R.CFG_ERR_REC = s.cfg.idx % 2 ^ 32 ∧
    t.rdn R.CFG_ERR_ADDR = (r.words s.imgByte).getD 0 0 % 2 ^ 32 ∧ t.rdn R.CFG_ERR_CODE = 8 ∧ t.cfg = { s.cfg with halt := true, wait := none } ∧ t.fn fnCfg = .fault ∧
    t.rdn R.GLB_LAST_FAULT_FN = 7 ∧ x ≤ t.clk.ns ∧ Logged [⟨0x0002, 7⟩, ⟨0x1904, 0⟩] s t ∧
    Keeps [R.CFG_STATUS, R.CFG_FLAGS, R.CFG_ERR_REC, R.CFG_ERR_ADDR, R.CFG_ERR_CODE, R.GLB_LAST_FAULT_FN, R.BIN_FAULT, R.BIN_FH_LOST] [fnCfg] [.cfg, .isl, .clk, .fnAt, .log] s t) ∧
  -- CFG_LOCK
  (∀ s : State, s.dark = false → s.f F.CFG_STATUS_STATE = 2 → s.fn fnCfg = .starting → Completes (.cfgLock) s fun t => s.cfgLocked = false ∧ t.cfgLocked = true ∧
    t.on F.CFG_FLAGS_LOCKED = true ∧ t.fn fnCfg = .ready ∧ Logged [⟨0x0003, 7⟩, ⟨0x1905, 0⟩] s t ∧ Keeps [R.CFG_STATUS, R.CFG_FLAGS] [fnCfg] [.fnAt, .log] s t)

/-- Commands of an update session complete (R379, R384, R385, R381, R380). Where a clause fixes what the spec leaves open, it is the model's choice:
assumption 3, 4, 70, 71. -/
def Obligations.UpdateSessionCommandsComplete : Prop :=
  -- UPD_OPEN
  (∀ (s : State) (m : SxMsg) (n : Nat), s.sx.msgs = [m] → m.src.relay = none → m.ty = 0x40 → m.body.length = 56 → m.body.all (fun b => decide (b < 256)) = true →
    leNat m.body 4 4 = n → 1 ≤ n → n ≤ 50331648 → m.src.ip < 2 ^ 128 → s.on F.UPD_CTL_ACCEPT = true → s.trial ≠ 1 → s.updState = 0 →
    Completes (.updOpen true) s fun t => t.updState = 1 ∧ t.updIdle = 0 ∧ t.updKind = byteAt m.body 0 % 2 ∧ t.updLen = n ∧ t.updParcels = ceilDiv n 16384 ∧
    t.updDigest = ((List.range 48).map (fun i => byteAt m.body (8 + i))) ∧ t.updSource = m.src.ip ∧ t.updSrcKind = 0 ∧ t.updHeld = 0 ∧
    t.updNonce = (List.range 16).map (fun i => (Config.nonce s.fctr).getD i 0 % 256) ∧
    t.updKs = (List.range 32).map (fun i => (Config.hmac s.mgmtKey ([0x48, 0x58, 0x55, 0x50, 0x44, t.updKind] ++ t.updDigest ++ t.updNonce)).getD i 0 % 256) ∧
    t.svf 66 31 0 = t.updCrc % 2 ^ 32 ∧ (∀ w, 67 ≤ w ∨ w = 64 ∨ w = 65 → t.sv w = s.sv w) ∧
    t.out = [.datagram m.src.mgt m.src.ip m.src.udp (t.sxGram m.ver 1 m.ty m.seq 128 (wordBytes (t.sessionReply 0)))] ∧ t.sx = { s.sx with msgs := [] } ∧
    Logged [⟨0x1602, 0⟩] s t ∧ Keeps [] [] [.sx, .souv, .fctr, .out, .log] s t) ∧
  -- UPD_PARCEL
  (∀ (s : State) (m : SxMsg) (i : Nat) (d : List Nat), s.sx.msgs = [m] → m.src.relay = none → m.ty = 0x41 → d.length = 16384 → d.all (fun b => decide (b < 256)) = true →
    m.body = parcelBytes s.updLen s.updDigest s.updKs i d → s.on F.UPD_CTL_ACCEPT = true → s.updState = 1 → i < s.updParcels → s.updHas i = false →
    s.updHeld + 1 < s.updParcels → s.updLen ≤ 50331648 → s.updParcels = ceilDiv s.updLen 16384 → s.updOwner (0, m.src.ip) = true →
    Completes (.updParcel true true) s fun t => t.updHas i = true ∧ (∀ j, j ≠ i → j < 3072 → t.updHas j = s.updHas j) ∧ (∀ j : Nat, j < 16384 →
    t.flashByte (hamperSlot i + j) = d.getD j 0) ∧ t.flashBytes (hamperTag i) 16 = (m.body.drop 16448).take 16 ∧ t.updState = 1 ∧ t.updIdle = 0 ∧ t.updHeld = s.updHeld + 1 ∧
    t.cfg = { s.cfg with parcelAt := some s.clk.ns } ∧ (∀ w, w ≠ 15 → w ≠ 16 + i / 64 → t.sv w = s.sv w) ∧
    t.out = [.datagram m.src.mgt m.src.ip m.src.udp (s.sxGram m.ver 1 m.ty m.seq 128 (wordBytes [65536 * (i % 4096), s.updHeld + 1]))] ∧ t.sx = { s.sx with msgs := [] } ∧
    Keeps [] [] [.sx, .souv, .flash, .cfg, .out] s t) ∧
  -- UPD_STATUS
  (∀ (s : State) (m : SxMsg), s.sx.msgs = [m] → m.src.relay = none → m.ty = 0x42 →
    Completes (.updStatus) s fun t => t.out = [.datagram m.src.mgt m.src.ip m.src.udp (s.sxGram m.ver 1 m.ty m.seq 128 (wordBytes (s.sessionReply 0)))] ∧
    t.sx = { s.sx with msgs := [] } ∧ Keeps [] [] [.sx, .out] s t) ∧
  -- UPD_CANCEL
  (∀ (s : State) (m : SxMsg), s.sx.msgs = [m] → m.src.relay = none → m.ty = 0x43 → s.updState ≠ 0 → s.updOwner (0, m.src.ip) = true → s.updDigest = m.body.take 48 →
    Completes (.updCancel) s fun t => t.updState = 0 ∧ t.updStep = 0 ∧ t.trial = s.trial ∧ (∀ w, w ≠ 15 → w ≠ 64 → t.sv w = s.sv w) ∧
    t.out = [.datagram m.src.mgt m.src.ip m.src.udp (s.sxGram m.ver 1 m.ty m.seq 128 (leBytes 0 4))] ∧ t.sx = { s.sx with msgs := [] } ∧ Logged [⟨0x1605, 0⟩] s t ∧
    Keeps [] [] [.sx, .souv, .out, .log] s t) ∧
  -- UPD_CMD_CANCEL
  (∀ s : State, s.dark = false → s.updState ≠ 0 → Completes (.updCmdCancel) s fun t => t.updState = 0 ∧ t.updStep = 0 ∧ t.trial = s.trial ∧ (∀ w, w ≠ 15 → w ≠ 64 →
    t.sv w = s.sv w) ∧ Logged [⟨0x1605, 0⟩] s t ∧ Keeps [] [] [.souv, .log] s t) ∧
  -- IDLE_MINUTE
  (∀ s : State, s.isl.dead = false → s.updState = 1 → s.cfg.parcelAt = none → s.updIdle + 1 < 60 * s.rdn R.UPD_IDLE → s.updIdle + 1 < 2 ^ 32 →
    Completes (.idleMinute true) s fun t => t.updIdle = s.updIdle + 1 ∧ t.updState = 1 ∧ (s.clk.ns / 60000000000 + 1) * 60000000000 ≤ t.clk.ns ∧ (∀ w, w ≠ 15 →
    t.sv w = s.sv w) ∧ Keeps [] [] [.souv, .clk] s t) ∧
  -- IDLE_MINUTE
  (∀ s : State, s.isl.dead = false → s.updState = 1 → s.cfg.parcelAt = none → s.updIdle + 1 < 60 * s.rdn R.UPD_IDLE → s.updIdle + 1 < 2 ^ 32 →
    Completes (.idleMinute false) s fun t => t.updIdle = s.updIdle + 1 ∧ t.updState = 1 ∧ (s.clk.ns / 60000000000 + 1) * 60000000000 ≤ t.clk.ns ∧
    t.svf 66 31 0 ≠ t.updCrc % 2 ^ 32 ∧ (∀ w, w ≠ 15 → w ≠ 66 → t.sv w = s.sv w) ∧ Keeps [] [] [.souv, .clk] s t)

/-- Commands of a trial complete (R390, R388, R389). Where a clause fixes what the spec leaves open, it is the model's choice: assumption 2, 58, 60, 71. -/
def Obligations.TrialCommandsComplete : Prop :=
  -- CONFIRM
  (∀ s : State, s.dark = false → s.trial = 1 → s.healthy = true → s.f F.CFG_STATUS_STATE ≠ 6 → Completes (.confirm) s fun t => t.trial = 0 ∧ t.attempts = s.attempts ∧
    t.runFb = s.runFb ∧ (∀ w, w ≠ 64 → t.sv w = s.sv w) ∧ Logged [⟨0x1609, 0⟩] s t ∧ Keeps [] [] [.souv, .log] s t) ∧
  -- REJECT
  (∀ s : State, s.dark = false → s.trial = 1 → Completes (.reject) s fun t => t.trial = 1 ∧ t.attempts = s.trialK ∧ t.trialK = s.trialK ∧ t.healthy = s.healthy ∧
    (∀ w, w ≠ 64 → t.sv w = s.sv w) ∧ Keeps [] [] [.souv] s t) ∧
  -- TRIAL_HEALTHY
  (∀ s : State, s.cfg.stage = 2 → s.trial = 1 → s.cfg.healthySaid = false → s.f F.CFG_STATUS_STATE = 3 → s.clk.ns ≤ s.cfg.fwAt + 1000000000 * s.healthS →
    Completes (.trialHealthy) s fun t => t.healthy = true ∧ t.attempts = 0 ∧ t.trial = 1 ∧
    t.cfg = { s.cfg with healthyAt := (if s.healthy then s.cfg.healthyAt else s.clk.ns), healthySaid := true } ∧ (∀ w, w ≠ 64 → t.sv w = s.sv w) ∧ Logged [⟨0x1608, 0⟩] s t ∧
    Keeps [] [] [.souv, .cfg, .log] s t) ∧
  -- TRIAL_WATCHDOG_EXPIRY
  (∀ s : State, s.cfg.stage = 2 → s.trial = 1 → s.healthy = false → s.on F.BIN_STATUS_SHUTDOWN = false → s.cfg.reset = none → s.isl.queue.length < 7 →
    Completes (.trialWatchdogExpiry) s fun t => (∀ a, islandKept a = false → a ≠ R.GLB_RESET_CAUSE → t.rd a = resetOf a) ∧ (∀ a, islandKept a = true →
    a ∉ [R.BIN_STATUS, R.BIN_FAULT] → t.rd a = s.rd a) ∧ (∀ f, t.fn f = .off) ∧ t.rdn R.GLB_RESET_CAUSE = 1 + 4 * 8 ∧
    t.cfg.reset = some { kind := 1, source := 8, since := max s.clk.ns (s.cfg.fwAt + 1000000000 * s.healthS) } ∧ t.cfg.stage = 0 ∧ t.hbm.mem = [] ∧ t.souv = s.souv ∧
    t.keys = s.keys ∧ t.flash = s.flash ∧ t.pending = s.pending ∧ t.clk.run = false ∧ t.clk.ns = max s.clk.ns (s.cfg.fwAt + 1000000000 * s.healthS) ∧
    t.isl.queue.map (fun r => (r.cause, r.detail)) = s.isl.queue.map (fun r => (r.cause, r.detail)) ++ [(9, s.attempts), (11, 33)] ∧ t.on F.BIN_STATUS_MUTED = true ∧
    t.on F.BIN_STATUS_MUTE_HOLD = true ∧ t.on F.BIN_STATUS_HELM_OUT = false ∧ t.on F.BIN_STATUS_GIVEN_UP = false ∧ t.on F.BIN_FAULT_TRIAL_WD = true) ∧
  -- TRIAL_MINUTE
  (∀ s : State, s.cfg.stage = 2 → s.trial = 1 → s.healthy = true → s.trialLimit = 0 → s.trialElapsed + 1 < 2 ^ 32 →
    Completes (.trialMinute) s fun t => t.trialElapsed = s.trialElapsed + 1 ∧ t.trialLimit = 0 ∧ t.trial = 1 ∧ s.cfg.healthyAt + 60000000000 ≤ t.clk.ns ∧
    t.cfg = { s.cfg with healthyAt := s.cfg.healthyAt + 60000000000 } ∧ (∀ w, w ≠ 65 → t.sv w = s.sv w) ∧ Keeps [] [] [.souv, .cfg, .clk] s t) ∧
  -- UNREADABLE_RESET
  (∀ (s : State) (x : Nat), s.cfg.unreadAt = some x → s.on F.BIN_STATUS_SHUTDOWN = false → s.cfg.reset = none → s.isl.queue.length < 7 →
    Completes (.unreadableReset) s fun t => (∀ a, islandKept a = false → a ≠ R.GLB_RESET_CAUSE → t.rd a = resetOf a) ∧ (∀ a, islandKept a = true →
    a ∉ [R.BIN_STATUS, R.BIN_FAULT] → t.rd a = s.rd a) ∧ (∀ f, t.fn f = .off) ∧ t.rdn R.GLB_RESET_CAUSE = 1 + 4 * 8 ∧
    t.cfg.reset = some { kind := 1, source := 8, since := max s.clk.ns (x + 1000000000) } ∧ t.cfg.stage = 0 ∧ t.hbm.mem = [] ∧ t.souv = s.souv ∧ t.keys = s.keys ∧
    t.flash = s.flash ∧ t.pending = s.pending ∧ t.clk.run = false ∧ t.clk.ns = max s.clk.ns (x + 1000000000) ∧
    t.isl.queue.map (fun r => (r.cause, r.detail)) = s.isl.queue.map (fun r => (r.cause, r.detail)) ++ [(9, s.attempts), (11, 33)] ∧ t.on F.BIN_STATUS_MUTED = true ∧
    t.on F.BIN_STATUS_MUTE_HOLD = true ∧ t.on F.BIN_STATUS_HELM_OUT = false ∧ t.on F.BIN_STATUS_GIVEN_UP = false ∧ t.on F.BIN_FAULT_TRIAL_WD = true)

/-- Actions of BIN_CMD complete (R397, R250, R356, R398). Where a clause fixes what the spec leaves open, it is the model's choice: assumption 58, 60,
61, 63. -/
def Obligations.BinnacleActionCommandsComplete : Prop :=
  -- BIN_CMD_MUTE
  (∀ s : State, s.dark = false → s.on F.BIN_STATUS_MUTED = false → Completes (.binCmdMute) s fun t => t.on F.BIN_STATUS_MUTED = true ∧
    t.on F.BIN_STATUS_MUTE_HOLD = s.on F.BIN_STATUS_MUTE_HOLD ∧ Logged [⟨0x0103, 0⟩] s t ∧ Keeps [R.BIN_STATUS] [] [.log] s t) ∧
  -- BIN_CMD_UNMUTE
  (∀ s : State, s.dark = false → s.on F.BIN_STATUS_MUTE_HOLD = false → s.on F.BIN_STATUS_MUTED = true →
    Completes (.binCmdUnmute) s fun t => t.on F.BIN_STATUS_MUTED = false ∧ Logged [⟨0x0104, 0⟩] s t ∧ Keeps [R.BIN_STATUS] [] [.log] s t) ∧
  -- BIN_CMD_GIVE_UP
  (∀ s : State, s.dark = false → s.isl.queue.length < 8 → s.on F.BIN_STATUS_MUTED = false → s.on F.BIN_STATUS_HELM_OUT = true →
    Completes (.binCmdGiveUp) s fun t => t.on F.BIN_STATUS_MUTED = true ∧ t.on F.BIN_STATUS_MUTE_HOLD = true ∧ t.on F.BIN_STATUS_HELM_OUT = false ∧
    t.on F.TWN_STATUS_HELM_OUT = false ∧ t.on F.BIN_STATUS_GIVEN_UP = true ∧
    t.isl.queue.map (fun r => (r.cause, r.detail)) = s.isl.queue.map (fun r => (r.cause, r.detail)) ++ [(7, 6)] ∧ Logged [⟨0x0102, 0⟩, ⟨0x0103, 0⟩] s t ∧
    t.on F.BIN_FAULT_GIVE_UP = true ∧ t.out = [.helmOut false] ∧ Keeps [R.BIN_STATUS, R.BIN_FAULT, R.TWN_STATUS] [] [.isl, .log, .out] s t) ∧
  -- BIN_CMD_WARM
  (∀ s : State, s.dark = false → s.cfg.reset = none → s.isl.queue.length < 8 → s.anyStack = false → Completes (.binCmdWarm) s fun t => (∀ a, islandKept a = false →
    a ≠ R.GLB_RESET_CAUSE → t.rd a = resetOf a) ∧ (∀ a, islandKept a = true → a ∉ [R.BIN_STATUS, R.BIN_FAULT] → t.rd a = s.rd a) ∧ (∀ f, t.fn f = .off) ∧
    t.rdn R.GLB_RESET_CAUSE = 2 + 4 * 6 ∧ t.cfg.reset = some { kind := 2, source := 6, since := s.clk.ns } ∧ t.cfg.stage = 0 ∧ t.hbm.mem = s.hbm.mem ∧ t.souv = s.souv ∧
    t.keys = s.keys ∧ t.flash = s.flash ∧ t.pending = s.pending ∧ t.clk.run = false ∧ t.clk.ns = s.clk.ns ∧
    t.isl.queue.map (fun r => (r.cause, r.detail)) = s.isl.queue.map (fun r => (r.cause, r.detail)) ++ [(11, 2 + 4 * 6)] ∧ t.on F.BIN_STATUS_MUTED = true ∧
    t.on F.BIN_STATUS_MUTE_HOLD = true ∧ t.on F.BIN_STATUS_HELM_OUT = false ∧ t.on F.BIN_STATUS_GIVEN_UP = false) ∧
  -- BIN_CMD_COLD
  (∀ s : State, s.dark = false → s.cfg.reset = none → s.isl.queue.length < 8 → Completes (.binCmdCold) s fun t => (∀ a, islandKept a = false → a ≠ R.GLB_RESET_CAUSE →
    t.rd a = resetOf a) ∧ (∀ a, islandKept a = true → a ∉ [R.BIN_STATUS, R.BIN_FAULT] → t.rd a = s.rd a) ∧ (∀ f, t.fn f = .off) ∧ t.rdn R.GLB_RESET_CAUSE = 1 + 4 * 6 ∧
    t.cfg.reset = some { kind := 1, source := 6, since := s.clk.ns } ∧ t.cfg.stage = 0 ∧ t.hbm.mem = [] ∧ t.souv = s.souv ∧ t.keys = s.keys ∧ t.flash = s.flash ∧
    t.pending = s.pending ∧ t.clk.run = false ∧ t.clk.ns = s.clk.ns ∧
    t.isl.queue.map (fun r => (r.cause, r.detail)) = s.isl.queue.map (fun r => (r.cause, r.detail)) ++ [(11, 1 + 4 * 6)] ∧ t.on F.BIN_STATUS_MUTED = true ∧
    t.on F.BIN_STATUS_MUTE_HOLD = true ∧ t.on F.BIN_STATUS_HELM_OUT = false ∧ t.on F.BIN_STATUS_GIVEN_UP = false) ∧
  -- BIN_CMD_SHUTDOWN
  (∀ s : State, s.dark = false → s.isl.queue.length < 8 → Completes (.binCmdShutdown) s fun t => (∀ a, islandKept a = false → t.rd a = resetOf a) ∧
    (∀ a, islandKept a = true → a ∉ [R.BIN_STATUS, R.BIN_FAULT] → t.rd a = s.rd a) ∧ (∀ f, t.fn f = .off) ∧ t.on F.BIN_STATUS_SHUTDOWN = true ∧
    t.on F.BIN_STATUS_GIVEN_UP = true ∧ t.on F.BIN_STATUS_MUTED = true ∧ t.on F.BIN_STATUS_HELM_OUT = false ∧
    t.isl.queue.map (fun r => (r.cause, r.detail)) = s.isl.queue.map (fun r => (r.cause, r.detail)) ++ [(5, s.isl.hot)] ∧ t.cfg.pwrGood = false ∧ t.cfg.reset = none ∧
    t.hbm.mem = [] ∧ t.souv = s.souv ∧ t.keys = s.keys ∧ t.flash = s.flash ∧ t.pending = s.pending ∧ t.clk.run = false ∧ t.isl.shutCmd = true)

/-- Commands of sensors, watchdog and fault history complete (R401, R398, R399, R406). Where a clause fixes what the spec leaves open, it is the model's
choice: assumption 2, 3, 60, 61, 63. -/
def Obligations.BinnacleSensorCommandsComplete : Prop :=
  -- FAULT_RECORD_WRITE
  (∀ (s : State) (i n : Nat) (r : FaultRec) (l : List FaultRec), s.isl.queue = r :: l → s.svf 72 15 0 = i → i < 2029 → s.svf 72 47 16 = n →
    Completes (.faultRecordWrite true) s fun t => t.isl = { s.isl with queue := l } ∧ t.faultBytes i = (r.words n).flatMap (fun w => leBytes w 8) ∧
    t.svf 72 15 0 = (i + 1) % 2029 ∧ t.svf 72 47 16 = (n + 1) % 2 ^ 32 ∧ (∀ w, w ≠ 72 → (w < 76 + 4 * i ∨ 80 + 4 * i ≤ w) → t.sv w = s.sv w) ∧ Keeps [] [] [.isl, .souv] s t) ∧
  -- FAULT_RECORD_WRITE
  (∀ (s : State) (r : FaultRec) (l : List FaultRec), s.isl.queue = r :: l → Completes (.faultRecordWrite false) s fun t => t.isl.queue = l ∧
    t.rdn R.BIN_FH_LOST = (s.rdn R.BIN_FH_LOST + 1) % 2 ^ 32 ∧ bitsOf (t.rdn R.BIN_FAULT) 10 10 = 1 ∧ Logged [⟨0x0109, 0⟩] s t ∧
    Keeps [R.BIN_FH_LOST, R.BIN_FAULT] [] [.isl, .log] s t) ∧
  -- SENSOR_READ
  (∀ (s : State) (d h : List Int) (v w i j k : Nat) (a b c : Int), s.NoMon → s.isl.dead = false → s.on F.BIN_STATUS_SHUTDOWN = false → d.length = 8 → h.length = 4 →
    hottestOf d 0 = some (i, a) → hottestOf h 8 = some (j, b) → hottestOf (d ++ h) 0 = some (k, c) → c < 8 * (s.f F.BIN_THERM_WARN : Int) →
    c < 8 * (s.f F.BIN_THERM_SHUT : Int) → 4500 ≤ v → v < 65536 → w < 65536 → Completes (.sensorRead d h v w []) s fun t => t.f F.BIN_TEMP_HOTTEST = degrees a ∧
    t.f F.BIN_TEMP_HOTTEST_15 = degrees b ∧ t.f F.BIN_VIN_VIN = v ∧ t.f F.BIN_VIN_VSTBY = w ∧ t.on F.BIN_STATUS_VSTBY = decide (0 < w) ∧ (∀ x : Nat, x < 8 →
    bitsOf (t.rdn (R.CAL_SENSE x)) 7 0 = ofSigned 8 (clampI (-128) 127 (sar (s.sensed (64 + x) (d.getD x 0)) 3))) ∧ t.isl.hot = k + 256 * degrees c ∧ t.isl.hotRun = 0 ∧
    t.isl.queue = s.isl.queue ∧ t.isl.vinLow = none ∧ Keeps ([R.BIN_TEMP, R.BIN_VIN, R.BIN_STATUS] ++ (List.range 8).map R.CAL_SENSE) [] [.isl] s t) ∧
  -- SUPPLY_FAULT
  (∀ (s : State) (v : Nat) (rl : Bool), s.isl.dead = false → (rl = true ∨ v < 5200 ∨ 52000 < v) → v < 65536 → s.isl.queue.length < 8 →
    Completes (.supplyFault v rl) s fun t => (∀ a, islandKept a = false → t.rd a = resetOf a) ∧ (∀ a, islandKept a = true → a ∉ [R.BIN_STATUS, R.BIN_FAULT, R.BIN_VIN] →
    t.rd a = s.rd a) ∧ (∀ f, t.fn f = .off) ∧ t.on F.BIN_STATUS_SHUTDOWN = true ∧ t.on F.BIN_STATUS_GIVEN_UP = true ∧ t.on F.BIN_STATUS_MUTED = true ∧
    t.on F.BIN_STATUS_HELM_OUT = false ∧ t.isl.queue.map (fun r => (r.cause, r.detail)) = s.isl.queue.map (fun r => (r.cause, r.detail)) ++ [(6, v)] ∧ t.cfg.pwrGood = false ∧
    t.cfg.reset = none ∧ t.hbm.mem = [] ∧ t.souv = s.souv ∧ t.keys = s.keys ∧ t.flash = s.flash ∧ t.pending = s.pending ∧ t.clk.run = false ∧ t.f F.BIN_VIN_VIN = v ∧
    t.isl.shutPower = true) ∧
  -- SHUTDOWN_RECOVERY
  (∀ (s : State) (x : Nat), s.on F.BIN_STATUS_SHUTDOWN = true → s.on F.BIN_THERM_AUTO_REC = true → s.isl.shutCmd = false → s.isl.shutThermal = true →
    s.isl.shutPower = false → s.isl.coolSince = some x → s.cfg.reset = none → s.isl.queue.length < 7 → Completes (.shutdownRecovery) s fun t => (∀ a, islandKept a = false →
    a ≠ R.GLB_RESET_CAUSE → t.rd a = resetOf a) ∧ (∀ a, islandKept a = true → a ∉ [R.BIN_STATUS, R.BIN_FAULT] → t.rd a = s.rd a) ∧ (∀ f, t.fn f = .off) ∧
    t.rdn R.GLB_RESET_CAUSE = 1 + 4 * 5 ∧ t.cfg.reset = some { kind := 1, source := 5, since := max s.clk.ns (x + 10000000000) } ∧ t.cfg.stage = 0 ∧ t.hbm.mem = [] ∧
    t.souv = s.souv ∧ t.keys = s.keys ∧ t.flash = s.flash ∧ t.pending = s.pending ∧ t.clk.run = false ∧ t.clk.ns = max s.clk.ns (x + 10000000000) ∧
    t.isl.queue.map (fun r => (r.cause, r.detail)) = s.isl.queue.map (fun r => (r.cause, r.detail)) ++ [(13, 5), (11, 21)] ∧ t.on F.BIN_STATUS_MUTED = true ∧
    t.on F.BIN_STATUS_MUTE_HOLD = true ∧ t.on F.BIN_STATUS_HELM_OUT = false ∧ t.on F.BIN_STATUS_GIVEN_UP = false ∧ t.on F.BIN_STATUS_SHUTDOWN = false ∧
    t.isl.shutThermal = false) ∧
  -- FIRMWARE_WATCHDOG_EXPIRY
  (∀ (s : State) (x : Nat), s.isl.wdogAt = some x → s.f F.BIN_WDOG_ACTION = 1 → s.f F.BIN_WDOG_PERIOD ≠ 0 → s.isl.queue.length < 8 → s.on F.BIN_STATUS_MUTED = false →
    s.on F.BIN_STATUS_HELM_OUT = true → Completes (.firmwareWatchdogExpiry) s fun t => t.on F.BIN_STATUS_MUTED = true ∧ t.on F.BIN_STATUS_MUTE_HOLD = true ∧
    t.on F.BIN_STATUS_HELM_OUT = false ∧ t.on F.TWN_STATUS_HELM_OUT = false ∧ t.on F.BIN_STATUS_GIVEN_UP = true ∧
    t.isl.queue.map (fun r => (r.cause, r.detail)) = s.isl.queue.map (fun r => (r.cause, r.detail)) ++ [(8, 1)] ∧ Logged [⟨0x0102, 0⟩, ⟨0x0103, 0⟩, ⟨0x0108, 0⟩] s t ∧
    t.on F.BIN_FAULT_FW_WD = true ∧ x ≤ t.clk.ns ∧ t.isl.wdogAt = some (t.clk.ns + 1000000 * s.f F.BIN_WDOG_PERIOD) ∧
    Keeps [R.BIN_STATUS, R.BIN_FAULT, R.TWN_STATUS] [] [.isl, .log, .out, .clk] s t) ∧
  -- WATCHDOG_KICK
  (∀ s : State, s.dark = false → s.f F.BIN_WDOG_PERIOD ≠ 0 →
    Completes (.watchdogKick) s fun t => t.isl = { s.isl with wdogAt := some (s.clk.ns + 1000000 * s.f F.BIN_WDOG_PERIOD) } ∧ Keeps [] [] [.isl] s t) ∧
  -- ALERT_RESPONSE
  (∀ s : State, s.isl.alert ≠ 0 → Completes (.alertResponse) s fun t => t.alertN = false ∧ t.isl = { s.isl with alert := 0 } ∧
    t.out = [.alertAddr (bitsOf (s.rdn R.BIN_SVC_CTL) 6 0)] ∧ Keeps [] [] [.isl, .out] s t)

/-- Actions of the service port complete (R404, R398). Where a clause fixes what the spec leaves open, it is the model's choice: assumption 58, 60, 63,
65. -/
def Obligations.ServiceActionCommandsComplete : Prop :=
  -- ACTION_MUTE
  (∀ (s : State) (o : Bool), s.isl.dead = false → (s.on F.BIN_SVC_CTL_PEC = false ∨ o = true) → 5000000 ≤ s.clk.ns → s.on F.BIN_STATUS_MUTED = false →
    Completes (.actionMute 0xC3A5 o) s fun t => t.on F.BIN_STATUS_MUTED = true ∧ t.on F.BIN_STATUS_MUTE_HOLD = s.on F.BIN_STATUS_MUTE_HOLD ∧ Logged [⟨0x0103, 0⟩] s t ∧
    t.out = [.svc 0 []] ∧ Keeps [R.BIN_STATUS] [] [.log, .clk, .out] s t) ∧
  -- ACTION_UNMUTE
  (∀ (s : State) (o : Bool), s.isl.dead = false → (s.on F.BIN_SVC_CTL_PEC = false ∨ o = true) → 5000000 ≤ s.clk.ns → s.on F.BIN_STATUS_MUTE_HOLD = false →
    s.on F.BIN_STATUS_MUTED = true → Completes (.actionUnmute 0xC3A5 o) s fun t => t.on F.BIN_STATUS_MUTED = false ∧ Logged [⟨0x0104, 0⟩] s t ∧ t.out = [.svc 0 []] ∧
    Keeps [R.BIN_STATUS] [] [.log, .clk, .out] s t) ∧
  -- ACTION_GIVE_UP
  (∀ (s : State) (o : Bool), s.isl.dead = false → (s.on F.BIN_SVC_CTL_PEC = false ∨ o = true) → 5000000 ≤ s.clk.ns → s.isl.queue.length < 8 →
    s.on F.BIN_STATUS_MUTED = false → s.on F.BIN_STATUS_HELM_OUT = true → Completes (.actionGiveUp 0xC3A5 o) s fun t => t.on F.BIN_STATUS_MUTED = true ∧
    t.on F.BIN_STATUS_MUTE_HOLD = true ∧ t.on F.BIN_STATUS_HELM_OUT = false ∧ t.on F.TWN_STATUS_HELM_OUT = false ∧ t.on F.BIN_STATUS_GIVEN_UP = true ∧
    t.isl.queue.map (fun r => (r.cause, r.detail)) = s.isl.queue.map (fun r => (r.cause, r.detail)) ++ [(7, 4)] ∧ Logged [⟨0x0102, 0⟩, ⟨0x0103, 0⟩] s t ∧
    t.out = [.helmOut false, .svc 0 []] ∧ Keeps [R.BIN_STATUS, R.BIN_FAULT, R.TWN_STATUS] [] [.isl, .log, .out, .clk] s t) ∧
  -- ACTION_WARM
  (∀ (s : State) (o : Bool), s.isl.dead = false → (s.on F.BIN_SVC_CTL_PEC = false ∨ o = true) → 5000000 ≤ s.clk.ns → s.on F.BIN_STATUS_SHUTDOWN = false →
    s.cfg.reset = none → s.isl.queue.length < 8 → s.anyStack = false → Completes (.actionWarm 0xC3A5 o) s fun t => (∀ a, islandKept a = false → a ≠ R.GLB_RESET_CAUSE →
    t.rd a = resetOf a) ∧ (∀ a, islandKept a = true → a ∉ [R.BIN_STATUS, R.BIN_FAULT] → t.rd a = s.rd a) ∧ (∀ f, t.fn f = .off) ∧ t.rdn R.GLB_RESET_CAUSE = 2 + 4 * 4 ∧
    t.cfg.reset = some { kind := 2, source := 4, since := s.clk.ns } ∧ t.cfg.stage = 0 ∧ t.hbm.mem = s.hbm.mem ∧ t.souv = s.souv ∧ t.keys = s.keys ∧ t.flash = s.flash ∧
    t.pending = s.pending ∧ t.clk.run = false ∧ t.clk.ns = s.clk.ns ∧
    t.isl.queue.map (fun r => (r.cause, r.detail)) = s.isl.queue.map (fun r => (r.cause, r.detail)) ++ [(11, 2 + 4 * 4)] ∧ t.on F.BIN_STATUS_MUTED = true ∧
    t.on F.BIN_STATUS_MUTE_HOLD = true ∧ t.on F.BIN_STATUS_HELM_OUT = false ∧ t.on F.BIN_STATUS_GIVEN_UP = false ∧ t.out.getLast? = some (.svc 0 [])) ∧
  -- ACTION_COLD
  (∀ (s : State) (o : Bool), s.isl.dead = false → (s.on F.BIN_SVC_CTL_PEC = false ∨ o = true) → 5000000 ≤ s.clk.ns → s.on F.BIN_STATUS_SHUTDOWN = false →
    s.cfg.reset = none → s.isl.queue.length < 8 → Completes (.actionCold 0xC3A5 o) s fun t => (∀ a, islandKept a = false → a ≠ R.GLB_RESET_CAUSE → t.rd a = resetOf a) ∧
    (∀ a, islandKept a = true → a ∉ [R.BIN_STATUS, R.BIN_FAULT] → t.rd a = s.rd a) ∧ (∀ f, t.fn f = .off) ∧ t.rdn R.GLB_RESET_CAUSE = 1 + 4 * 4 ∧
    t.cfg.reset = some { kind := 1, source := 4, since := s.clk.ns } ∧ t.cfg.stage = 0 ∧ t.hbm.mem = [] ∧ t.souv = s.souv ∧ t.keys = s.keys ∧ t.flash = s.flash ∧
    t.pending = s.pending ∧ t.clk.run = false ∧ t.clk.ns = s.clk.ns ∧
    t.isl.queue.map (fun r => (r.cause, r.detail)) = s.isl.queue.map (fun r => (r.cause, r.detail)) ++ [(11, 1 + 4 * 4)] ∧ t.on F.BIN_STATUS_MUTED = true ∧
    t.on F.BIN_STATUS_MUTE_HOLD = true ∧ t.on F.BIN_STATUS_HELM_OUT = false ∧ t.on F.BIN_STATUS_GIVEN_UP = false ∧ t.out.getLast? = some (.svc 0 [])) ∧
  -- ACTION_SHUTDOWN
  (∀ (s : State) (o : Bool), s.isl.dead = false → (s.on F.BIN_SVC_CTL_PEC = false ∨ o = true) → 5000000 ≤ s.clk.ns → s.isl.queue.length < 8 →
    Completes (.actionShutdown 0xC3A5 o) s fun t => (∀ a, islandKept a = false → t.rd a = resetOf a) ∧ (∀ a, islandKept a = true → a ∉ [R.BIN_STATUS, R.BIN_FAULT] →
    t.rd a = s.rd a) ∧ (∀ f, t.fn f = .off) ∧ t.on F.BIN_STATUS_SHUTDOWN = true ∧ t.on F.BIN_STATUS_GIVEN_UP = true ∧ t.on F.BIN_STATUS_MUTED = true ∧
    t.on F.BIN_STATUS_HELM_OUT = false ∧ t.isl.queue.map (fun r => (r.cause, r.detail)) = s.isl.queue.map (fun r => (r.cause, r.detail)) ++ [(5, s.isl.hot)] ∧
    t.cfg.pwrGood = false ∧ t.cfg.reset = none ∧ t.hbm.mem = [] ∧ t.souv = s.souv ∧ t.keys = s.keys ∧ t.flash = s.flash ∧ t.pending = s.pending ∧ t.clk.run = false ∧
    t.isl.shutCmd = true ∧ t.out.getLast? = some (.svc 0 []))

/-- Reads and key slots of the service port, MDIO and the management links complete (R404, R405, R403, R407). Where a clause fixes what the spec leaves
open, it is the model's choice: assumption 2, 64, 65, 66. -/
def Obligations.ServicePortCommandsComplete : Prop :=
  -- SVC_READ
  (∀ (s : State) (a : Nat) (o : Bool), s.isl.dead = false → (s.on F.BIN_SVC_CTL_PEC = false ∨ o = true) → 5000000 ≤ s.clk.ns → isIsland a = true → a % 4 = 0 →
    Completes (.svcRead a 0 o) s fun t => t.out = [.svc 0 (leBytes (s.view a).toNat 4)] ∧ Keeps [] [] [.clk, .out] s t) ∧
  -- SVC_WRITE
  (∀ (s : State) (v : Nat) (o : Bool), s.isl.dead = false → (s.on F.BIN_SVC_CTL_PEC = false ∨ o = true) → 5000000 ≤ s.clk.ns → v < 2 ^ 11 →
    Completes (.svcWrite R.BIN_FAULT_MASK (BitVec.ofNat 32 v) o) s fun t => t.rdn R.BIN_FAULT_MASK = v ∧ t.out = [.svc 0 []] ∧ Keeps [R.BIN_FAULT_MASK] [] [.clk, .out] s t) ∧
  -- SVC_FAULT
  (∀ (s : State) (i : Nat) (o : Bool), s.isl.dead = false → (s.on F.BIN_SVC_CTL_PEC = false ∨ o = true) → 5000000 ≤ s.clk.ns → i ≤ 2028 →
    Completes (.svcFault i o) s fun t => t.out = [.svc 0 (s.faultBytes i)] ∧ Keeps [] [] [.clk, .out] s t) ∧
  -- KEYSLOT
  (∀ (s : State) (k : Nat) (d : List Nat) (o : Bool), s.isl.dead = false → (s.on F.BIN_SVC_CTL_PEC = false ∨ o = true) → 5000000 ≤ s.clk.ns → k < 2 → s.keySlot k = [] →
    s.isl.keyAt = none → Completes (.keyslot k d o) s fun t => t.isl.keyAt.map (fun x => (x.1, x.2.1)) = some (k, (List.range 48).map (fun i => d.getD i 0 % 256)) ∧
    t.isl.keyAt.map (fun x => x.2.2) = some (s.clk.ns + 20000000) ∧ t.isl = { s.isl with keyAt := t.isl.keyAt } ∧ t.out = [.svc 2 []] ∧ Keeps [] [] [.isl, .out, .clk] s t) ∧
  -- KEYSLOT_PROGRAMMED
  (∀ (s : State) (k x : Nat) (d : List Nat), s.isl.keyAt = some (k, d, x) → s.keySlot k = [] → d ≠ [] → Completes (.keyslotProgrammed) s fun t => t.keySlot k = d ∧
    (∀ j, j ≠ k → t.keySlot j = s.keySlot j) ∧ x ≤ t.clk.ns ∧ t.isl = { s.isl with keyAt := none } ∧ t.out = [.svc 0 []] ∧ t.regs = s.regs ∧ t.fns = s.fns ∧
    t.pending = s.pending ∧ (∀ p : Part, p ∉ [.isl, .out, .clk, .log] → p.same s t) ∧ Logged [⟨0x010D, k⟩] s t) ∧
  -- SVC_BUS_TIMEOUT
  (∀ s : State, s.isl.dead = false → Completes (.svcBusTimeout) s fun t => t.out = [.svcRelease] ∧ Keeps [] [] [.out] s t) ∧
  -- MDIO_COMMAND
  (∀ (s : State) (p r d : Nat) (x : Bool), s.dark = false → p < 32 → r < 32 → d < 65536 → s.on F.BIN_MDIO_CMD_GO = false →
    Completes (.mdioCommand p r x d) s fun t => t.on F.BIN_MDIO_CMD_GO = true ∧ t.f F.BIN_MDIO_CMD_PHY = p ∧ t.f F.BIN_MDIO_CMD_REG = r ∧ t.on F.BIN_MDIO_CMD_READ = x ∧
    t.out = [.mdio p r x d] ∧ Keeps [R.BIN_MDIO_CMD] [] [.out] s t) ∧
  -- MDIO_COMPLETE
  (∀ (s : State) (d : Nat), s.on F.BIN_MDIO_CMD_GO = true → s.on F.BIN_MDIO_CMD_READ = true → d < 65536 →
    Completes (.mdioComplete d) s fun t => t.on F.BIN_MDIO_CMD_GO = false ∧ t.f F.BIN_MDIO_CMD_DATA = d ∧ Keeps [R.BIN_MDIO_CMD] [] [] s t) ∧
  -- MGT_LINK_CHANGE
  (∀ (s : State) (m : Nat) (u : Bool), s.dark = false → m < 2 →
    Completes (.mgtLinkChange m u) s fun t => (t.on F.BIN_MGT_STATUS_LINK_1 = if m = 1 then u else s.on F.BIN_MGT_STATUS_LINK_1) ∧
    (t.on F.BIN_MGT_STATUS_LINK = if m = 0 then u else s.on F.BIN_MGT_STATUS_LINK) ∧ Keeps [R.BIN_MGT_STATUS] [] [] s t)

/-- Datagrams, reads and writes of Sextant complete (R409, R411, R413, R415). Where a clause fixes what the spec leaves open, it is the model's choice:
assumption 2, 67, 68. -/
def Obligations.SextantAccessCommandsComplete : Prop :=
  -- SEXTANT_DATAGRAM
  (∀ (s : State) (c : SxFrom) (l h : List Nat) (g : SxGram) (v : Nat), l = h ++ s.sxTag h → s.mgtListens c = true → c.relay = none → sxParse l = some g →
    bitsOf g.flags 0 0 = 0 → bitsOf g.flags 1 1 = 0 → g.dest = s.pins.mid → s.pins.mid ≠ 0x3FF → g.key = s.keyId → (g.ty = 0x01 ∨ g.boot = s.rdn R.BIN_SX_BOOT_ID) →
    s.sx.asms = [] → s.sxFloor c.ip < g.seq → s.sx.clients.length < 64 → s.sxVerOk g.ver = true → g.frag = 0 → g.last = true →
    (s.cfg.key.isSome = true ∨ sxKeyless g.ty = true) → sxTypeVer g.ty = some v → v ≤ g.ver → sxBodyOk g.ty g.body = true →
    Completes (.sextantDatagram c l) s fun t => t.sx.msgs = s.sx.msgs ++ [{ src := c, ver := g.ver, ty := g.ty, seq := g.seq, body := g.body }] ∧ t.sxFloor c.ip = g.seq ∧
    t.rdn R.BIN_SX_RX_CNT = (s.rdn R.BIN_SX_RX_CNT + 1) % 2 ^ 32 ∧ t.sx = { s.sx with msgs := t.sx.msgs, clients := t.sx.clients } ∧ Keeps [R.BIN_SX_RX_CNT] [] [.sx] s t) ∧
  -- SEXTANT_REASSEMBLY_TIMEOUT
  (∀ (s : State) (a : SxAsm), s.sx.asms = [a] → Completes (.sextantReassemblyTimeout) s fun t => t.sx = { s.sx with asms := [] } ∧ a.at_ + 100000000 ≤ t.clk.ns ∧
    Keeps [] [] [.sx, .clk] s t) ∧
  -- HELLO
  (∀ (s : State) (m : SxMsg), s.sx.msgs = [m] → m.src.relay = none → m.ty = 0x01 → s.on F.GLB_FEAT_CTL_LOCKED = true →
    Completes (.hello) s fun t => t.out = [.datagram m.src.mgt m.src.ip m.src.udp (s.sxGram m.ver 1 m.ty m.seq 128 (leBytes 0 4 ++ wordBytes [(s.view R.GLB_ID_PART).toNat, (s.view R.GLB_ID_REV).toNat, (s.view R.GLB_MID).toNat, (s.view R.GLB_SERIAL_LO).toNat, (s.view R.GLB_SERIAL_HI).toNat, (s.view R.GLB_FW_VERSION).toNat, (s.view R.BIN_SX_BOOT_ID).toNat, (s.view (R.GLB_FEAT_ACCEPT 0)).toNat, (s.view (R.GLB_FEAT_ACCEPT 1)).toNat, (s.view (R.GLB_FEAT_ACCEPT 2)).toNat, (s.view (R.GLB_FEAT_ACCEPT 3)).toNat, (s.view R.CFG_STATUS).toNat, (s.view R.BIN_SX_KEY).toNat]))] ∧
    t.sx = { s.sx with msgs := [] } ∧ Keeps [] [] [.sx, .out] s t) ∧
  -- SEXTANT_READ
  (∀ (s : State) (m : SxMsg) (a : Nat), s.dark = false → s.sx.msgs = [m] → m.src.relay = none → m.ty = 0x02 → m.body = leBytes a 4 ++ leBytes 1 4 → a < 0x1A0000 →
    a % 4 = 0 → s.readEffect a = s →
    Completes (.sextantRead) s fun t => t.out = [.datagram m.src.mgt m.src.ip m.src.udp (s.sxGram m.ver 1 m.ty m.seq 128 (leBytes 0 4 ++ leBytes (s.readWord (.sextant m.src.ip) a).toNat 4))] ∧
    t.sx = { s.sx with msgs := [] } ∧ Keeps [] [] [.sx, .out] s t) ∧
  -- SEXTANT_WRITE
  (∀ (s : State) (m : SxMsg) (v : Nat), s.dark = false → s.sx.msgs = [m] → m.src.relay = none → m.ty = 0x03 → m.body = leBytes 1 4 ++ leBytes R.CAL_STEP 4 ++ leBytes v 4 →
    4 ≤ v → v ≤ 255 → s.cfg.stage ≠ 0 → Completes (.sextantWrite) s fun t => t.rdn R.CAL_STEP = v ∧
    t.out = [.datagram m.src.mgt m.src.ip m.src.udp (s.sxGram m.ver 1 m.ty m.seq 128 (leBytes 0 4 ++ leBytes 1 4))] ∧ t.sx = { s.sx with msgs := [] } ∧
    Keeps [R.CAL_STEP] [] [.sx, .out] s t) ∧
  -- FAULT_READ
  (∀ (s : State) (m : SxMsg) (i n : Nat), s.sx.msgs = [m] → m.src.relay = none → m.ty = 0x22 → leNat m.body 0 4 = i → leNat m.body 4 4 = n → n ≤ 32 →
    Completes (.faultRead) s fun t => t.out = [.datagram m.src.mgt m.src.ip m.src.udp (s.sxGram m.ver 1 m.ty m.seq 128 (leBytes 0 4 ++ (List.range n).flatMap (fun k => s.faultBytes (i + k))))] ∧
    t.sx = { s.sx with msgs := [] } ∧ Keeps [] [] [.sx, .out] s t) ∧
  -- SETTINGS_READ
  (∀ (s : State) (m : SxMsg) (x b o n : Nat), s.sx.msgs = [m] → m.src.relay = none → m.ty = 0x30 → s.cfg.img = true → leNat m.body 0 4 = x →
    settingsOf s.pins.mid ((recsFrom s.imgByte (imgLen s.imgByte) 256 (imgLen s.imgByte / 16 + 1)).getD []) = [(x, b, o, n)] → n ≤ 1392 →
    Completes (.settingsRead) s fun t => t.out = [.datagram m.src.mgt m.src.ip m.src.udp (s.sxGram m.ver 1 m.ty m.seq 128 (leBytes 0 4 ++ leBytes b 4 ++ imgBytes s.imgByte o n))] ∧
    t.sx = { s.sx with msgs := [] } ∧ Keeps [] [] [.sx, .out] s t)

/-- Group writes and events of Sextant complete (R416, R419, R413). Where a clause fixes what the spec leaves open, it is the model's choice: assumption
2, 6, 68. -/
def Obligations.GroupWriteAndEventCommandsComplete : Prop :=
  -- GROUP_WRITE
  (∀ (s : State) (m : SxMsg) (p : Nat), s.sx.msgs = [m] → m.src.relay = none → m.ty = 0x04 → s.clk.run = true → leNat m.body 6 2 < s.clk.lm →
    ((leNat m.body 0 6 : Nat) - s.clk.frameOfs) * (s.clk.fu : Int) + (65536 * leNat m.body 6 2 : Nat) = (p : Int) → s.clk.vpos < p → p ≤ s.clk.vpos + 1024 * s.clk.fu →
    s.sx.groups.length < 16 →
    Completes (.groupWrite) s fun t => t.sx = { s.sx with msgs := [], groups := s.sx.groups ++ [{ pos := p, msg := m, pairs := bodyPairs m.body 3 (leNat m.body 8 4) }] } ∧
    Keeps [] [] [.sx] s t) ∧
  -- GROUP_WRITE_APPLY
  (∀ (s : State) (m : SxMsg) (p v : Nat) (q : Clock), s.dark = false → s.sx.groups = [{ pos := p, msg := m, pairs := [(R.CAL_STEP, v)] }] → m.src.relay = none →
    s.begin.toPos 11 p = some { s.begin with clk := q } → 4 ≤ v → v ≤ 255 → s.cfg.stage ≠ 0 → Completes (.groupWriteApply) s fun t => t.rdn R.CAL_STEP = v ∧
    t.sx = { s.sx with groups := [] } ∧ t.clk = q ∧ t.out = [.datagram m.src.mgt m.src.ip m.src.udp (s.sxGram m.ver 1 m.ty m.seq 128 (leBytes 0 4 ++ leBytes 1 4))] ∧
    Keeps [R.CAL_STEP] [] [.sx, .clk, .out] s t) ∧
  -- EVENT_SUBSCRIBE
  (∀ (s : State) (m : SxMsg) (k n : Nat), s.sx.msgs = [m] → m.src.relay = none → m.ty = 0x10 → leNat m.body 0 4 = k → leNat m.body 4 4 = n → n ≠ 0 → s.sx.subs = [] →
    Completes (.eventSubscribe) s fun t => t.sx = { s.sx with msgs := [], subs := [{ src := m.src, ver := m.ver, mask := k, until_ := s.clk.ns + 1000000000 * n, next := s.log.head, sent := none }] } ∧
    t.out = [.datagram m.src.mgt m.src.ip m.src.udp (s.sxGram m.ver 1 m.ty m.seq 128 (leBytes 0 4 ++ leBytes n 4))] ∧ Keeps [] [] [.sx, .out] s t) ∧
  -- EVENT_READ
  (∀ (s : State) (m : SxMsg) (a n : Nat), s.sx.msgs = [m] → m.src.relay = none → m.ty = 0x11 → leNat m.body 0 4 = a → leNat m.body 4 4 = n → n ≤ 64 →
    Completes (.eventRead) s fun t => t.out = [.datagram m.src.mgt m.src.ip m.src.udp (s.sxGram m.ver 1 m.ty m.seq 128 (leBytes 0 4 ++ wordBytes (((List.range n).filterMap (fun i => s.logAt ((a + i) % 2 ^ 32))).flatMap LogEntry.words)))] ∧
    t.sx = { s.sx with msgs := [] } ∧ Keeps [] [] [.sx, .out] s t) ∧
  -- EVENT_SEND
  (∀ (s : State) (i : Nat) (x : SxSub) (l : List LogEntry), s.sx.subs[i]? = some x → x.src.relay = none → x.sent = none → x.next ≤ s.log.head → s.log.head < x.next + 65 →
    l = ((List.range (s.log.head - x.next)).filterMap (fun k => s.logAt (x.next + k))).filter (fun e => bitsOf x.mask (e.code / 256) (e.code / 256) == 1) → l ≠ [] →
    s.log.head < 2 ^ 32 →
    Completes (.eventSend i) s fun t => t.out = [.datagram x.src.mgt x.src.ip x.src.udp (s.sxGram x.ver 2 0x12 (Config.freeNat s.fctr % 2 ^ 64) 128 (leBytes 0 4 ++ wordBytes (l.flatMap LogEntry.words)))] ∧
    t.sx = { s.sx with subs := s.sx.subs.set i { x with next := s.log.head, sent := some s.clk.ns } } ∧ t.fctr = s.fctr + 1 ∧ Keeps [] [] [.sx, .out, .fctr] s t) ∧
  -- LEASE_EXPIRY
  (∀ (s : State) (x : SxSub), s.sx.subs = [x] → Completes (.leaseExpiry) s fun t => t.sx = { s.sx with subs := [] } ∧ x.until_ ≤ t.clk.ns ∧ Keeps [] [] [.sx, .clk] s t)

/-- Resets and Binnacle actions of Sextant complete (R413). Where a clause fixes what the spec leaves open, it is the model's choice: assumption 58, 60,
67, 68. -/
def Obligations.SextantActionCommandsComplete : Prop :=
  -- SEXTANT_RESET_WARM
  (∀ (s : State) (m : SxMsg), s.sx.msgs = [m] → m.src.relay = none → m.ty = 0x20 → leNat m.body 0 2 = 1 → s.on F.BIN_STATUS_SHUTDOWN = false → s.cfg.reset = none →
    s.isl.queue.length < 8 → s.anyStack = false → Completes (.sextantResetWarm) s fun t => (∀ a, islandKept a = false → a ≠ R.GLB_RESET_CAUSE → t.rd a = resetOf a) ∧
    (∀ a, islandKept a = true → a ∉ [R.BIN_STATUS, R.BIN_FAULT] → t.rd a = s.rd a) ∧ (∀ f, t.fn f = .off) ∧ t.rdn R.GLB_RESET_CAUSE = 2 + 4 * 3 ∧
    t.cfg.reset = some { kind := 2, source := 3, since := s.clk.ns } ∧ t.cfg.stage = 0 ∧ t.hbm.mem = s.hbm.mem ∧ t.souv = s.souv ∧ t.keys = s.keys ∧ t.flash = s.flash ∧
    t.pending = s.pending ∧ t.clk.run = false ∧ t.clk.ns = s.clk.ns ∧
    t.isl.queue.map (fun r => (r.cause, r.detail)) = s.isl.queue.map (fun r => (r.cause, r.detail)) ++ [(11, 2 + 4 * 3)] ∧ t.on F.BIN_STATUS_MUTED = true ∧
    t.on F.BIN_STATUS_MUTE_HOLD = true ∧ t.on F.BIN_STATUS_HELM_OUT = false ∧ t.on F.BIN_STATUS_GIVEN_UP = false ∧
    t.out.head? = some (.datagram m.src.mgt m.src.ip m.src.udp (s.sxGram m.ver 1 m.ty m.seq 128 (leBytes 0 4)))) ∧
  -- SEXTANT_RESET_COLD
  (∀ (s : State) (m : SxMsg), s.sx.msgs = [m] → m.src.relay = none → m.ty = 0x20 → leNat m.body 0 2 = 2 → s.on F.BIN_STATUS_SHUTDOWN = false → s.cfg.reset = none →
    s.isl.queue.length < 8 → Completes (.sextantResetCold) s fun t => (∀ a, islandKept a = false → a ≠ R.GLB_RESET_CAUSE → t.rd a = resetOf a) ∧ (∀ a, islandKept a = true →
    a ∉ [R.BIN_STATUS, R.BIN_FAULT] → t.rd a = s.rd a) ∧ (∀ f, t.fn f = .off) ∧ t.rdn R.GLB_RESET_CAUSE = 1 + 4 * 3 ∧
    t.cfg.reset = some { kind := 1, source := 3, since := s.clk.ns } ∧ t.cfg.stage = 0 ∧ t.hbm.mem = [] ∧ t.souv = s.souv ∧ t.keys = s.keys ∧ t.flash = s.flash ∧
    t.pending = s.pending ∧ t.clk.run = false ∧ t.clk.ns = s.clk.ns ∧
    t.isl.queue.map (fun r => (r.cause, r.detail)) = s.isl.queue.map (fun r => (r.cause, r.detail)) ++ [(11, 1 + 4 * 3)] ∧ t.on F.BIN_STATUS_MUTED = true ∧
    t.on F.BIN_STATUS_MUTE_HOLD = true ∧ t.on F.BIN_STATUS_HELM_OUT = false ∧ t.on F.BIN_STATUS_GIVEN_UP = false ∧
    t.out.head? = some (.datagram m.src.mgt m.src.ip m.src.udp (s.sxGram m.ver 1 m.ty m.seq 128 (leBytes 0 4)))) ∧
  -- BINNACLE_MUTE
  (∀ (s : State) (m : SxMsg), s.sx.msgs = [m] → m.src.relay = none → m.ty = 0x21 → leNat m.body 0 4 = 1 → s.on F.BIN_STATUS_MUTED = false →
    Completes (.binnacleMute) s fun t => t.on F.BIN_STATUS_MUTED = true ∧ Logged [⟨0x0103, 0⟩] s t ∧
    t.out = [.datagram m.src.mgt m.src.ip m.src.udp (s.sxGram m.ver 1 m.ty m.seq 128 (leBytes 0 4))] ∧ t.sx = { s.sx with msgs := [] } ∧
    Keeps [R.BIN_STATUS] [] [.sx, .out, .log] s t) ∧
  -- BINNACLE_UNMUTE
  (∀ (s : State) (m : SxMsg), s.sx.msgs = [m] → m.src.relay = none → m.ty = 0x21 → leNat m.body 0 4 = 2 → s.on F.BIN_STATUS_MUTED = true →
    s.on F.BIN_STATUS_MUTE_HOLD = false → Completes (.binnacleUnmute) s fun t => t.on F.BIN_STATUS_MUTED = false ∧ Logged [⟨0x0104, 0⟩] s t ∧
    t.out = [.datagram m.src.mgt m.src.ip m.src.udp (s.sxGram m.ver 1 m.ty m.seq 128 (leBytes 0 4))] ∧ t.sx = { s.sx with msgs := [] } ∧
    Keeps [R.BIN_STATUS] [] [.sx, .out, .log] s t) ∧
  -- BINNACLE_GIVE_UP
  (∀ (s : State) (m : SxMsg), s.sx.msgs = [m] → m.src.relay = none → m.ty = 0x21 → leNat m.body 0 4 = 3 → s.isl.queue.length < 8 → s.on F.BIN_STATUS_MUTED = false →
    s.on F.BIN_STATUS_HELM_OUT = true → Completes (.binnacleGiveUp) s fun t => t.on F.BIN_STATUS_MUTED = true ∧ t.on F.BIN_STATUS_MUTE_HOLD = true ∧
    t.on F.BIN_STATUS_HELM_OUT = false ∧ t.on F.BIN_STATUS_GIVEN_UP = true ∧
    t.isl.queue.map (fun r => (r.cause, r.detail)) = s.isl.queue.map (fun r => (r.cause, r.detail)) ++ [(7, 3)] ∧ Logged [⟨0x0102, 0⟩, ⟨0x0103, 0⟩] s t ∧
    t.out = [.helmOut false, .datagram m.src.mgt m.src.ip m.src.udp (s.sxGram m.ver 1 m.ty m.seq 128 (leBytes 0 4))] ∧ t.sx = { s.sx with msgs := [] } ∧
    Keeps [R.BIN_STATUS, R.BIN_FAULT, R.TWN_STATUS] [] [.sx, .out, .log, .isl] s t)

/-- Commands of the PCIe endpoint and the table windows complete (R4, R421, R422, R420, R446). Where a clause fixes what the spec leaves open, it is the
model's choice: assumption 3, 72, 73. -/
def Obligations.HostAccessCommandsComplete : Prop :=
  -- BAR4_ACCESS
  (∀ (s : State) (a n : Nat), s.dark = false → (List.range n).all (fun i => !inHole (a + i) && s.hbmUp (a + i)) = true →
    Completes (.bar4Access a false n []) s fun t => t.out = [.bar4 (s.hbmBytes a n)] ∧ Keeps [] [] [.out] s t) ∧
  -- BAR4_ACCESS
  (∀ (s : State) (a : Nat) (d : List Nat), s.dark = false → a + d.length ≤ 2 ^ 38 → (List.range d.length).all (fun i => !inHole (a + i) && s.hbmUp (a + i)) = true →
    Completes (.bar4Access a true 0 d) s fun t => (∀ i : Nat, i < d.length → t.hbmByte (a + i) = BitVec.ofNat 8 (d.getD i 0)) ∧ KeepsMem [(a, d.length)] s t ∧
    t.hbm = { s.hbm with mem := t.hbm.mem } ∧ Keeps [] [] [.hbm, .mem] s t) ∧
  -- MSIX_VECTOR_FIRE
  (∀ (s : State) (v : Nat), s.dark = false → s.log.vecs.contains v = true → Tab.get (fun _ => (none : Option Nat)) s.sx.msix v = none →
    Completes (.msixVectorFire v) s fun t => t.out = [.msix v] ∧ t.log = { s.log with vecs := s.log.vecs.filter (fun x => x != v) } ∧
    Tab.get (fun _ => (none : Option Nat)) t.sx.msix v = some s.clk.ns ∧ Keeps [] [] [.out, .log, .sx] s t) ∧
  -- PCIE_LINK_CHANGE
  (∀ (s : State) (u : Bool) (w g : Nat), s.dark = false → w < 16 → g < 8 → (s.rdn R.BIN_PCIE_STATUS ≠ if u then 1 + w * 2 + g * 32 else 0) →
    Completes (.pcieLinkChange u w g) s fun t => t.on F.BIN_PCIE_STATUS_LINK = u ∧ (t.f F.BIN_PCIE_STATUS_WIDTH = if u then w else 0) ∧
    (t.f F.BIN_PCIE_STATUS_SPEED = if u then g else 0) ∧ Logged [⟨0x010C, 0⟩] s t ∧ Keeps [R.BIN_PCIE_STATUS] [] [.log] s t) ∧
  -- WINDOW_READ
  (∀ (s : State) (a p : Nat), s.dark = false → 0x800000 ≤ a → a < 0xA00000 → a % 4 = 0 → (s.winHbm .pcie a).1 = some p →
    Completes (.windowRead .pcie a) s fun t => t.out = [.read .pcie a (BitVec.ofNat 32 (s.hbmNat p 4))] ∧ Keeps [] [] [.out] s t) ∧
  -- MESH_WINDOW_WRITE
  (∀ (s : State) (a p : Nat) (v : Word), s.dark = false → 0x800000 ≤ a → a < 0xA00000 → a % 4 = 0 → (s.winHbm .pcie a).1 = some p → p + 4 ≤ 2 ^ 38 → inHole (p + 3) = false →
    Completes (.meshWindowWrite .pcie a v) s fun t => t.hbmNat p 4 = v.toNat ∧ KeepsMem [(p, 4)] s t ∧ t.hbm = { s.hbm with mem := t.hbm.mem } ∧ Keeps [] [] [.hbm, .mem] s t)

/-- Commands of snapshots and check units complete (R425, R426, R433, R434). Where a clause fixes what the spec leaves open, it is the model's choice:
assumption 2, 6, 76, 83. -/
def Obligations.SnapshotAndCheckCommandsComplete : Prop :=
  -- SNAPSHOT_COMMAND
  (∀ s : State, s.dark = false → s.snap.cmd = none → s.snap.last = none → s.merRuns = true → Completes (.snapshotCommand) s fun t => t.on F.GLB_SNAP_STATUS_PENDING = true ∧
    t.snap = { s.snap with cmd := some { pos := some ((s.clk.vpos / 65536 + 1) * 65536), cmd := true } } ∧ Keeps [R.GLB_SNAP_STATUS] [] [.snap] s t) ∧
  -- SNAPSHOT
  (∀ (s : State) (p : Nat) (q : Clock), s.snap.taken = none → s.snap.cmd = some { pos := some p, cmd := true } → s.nextAuto = none →
    s.begin.toPos 3 p = some { s.begin with clk := q } → s.held = [] → (List.range 64).all (fun m => !s.on (F.MON_CTL_EN m)) = true → s.bankOdd = false →
    Completes (.snapshot) s fun t => (∀ a, isLatched a = true → a ≠ R.BIN_EVT_LOST → a ≠ R.GLB_SNAP_STATUS →
    t.snap.bank1.map (fun b => Tab.get resetOf b a) = some (s.rd a)) ∧ t.snap.bank0 = s.snap.bank0 ∧ t.on F.GLB_SNAP_STATUS_PENDING = false ∧
    t.snap.taken = some { pos := some p, cmd := true } ∧ t.snap.last = some q.vpos ∧ t.snap.cmd = none ∧ t.ing.ft = s.ing.ft ∧ t.egs = s.egs ∧ t.clk = q ∧
    Keeps [R.GLB_SNAP_STATUS] [] [.snap, .ing, .clk] s t) ∧
  -- SNAPSHOT_EPOCH_ADVANCE
  (∀ (s : State) (p : Nat) (c : Bool), s.snap.taken = some { pos := some p, cmd := c } →
    Completes (.snapshotEpochAdvance) s fun t => t.rdn R.GLB_SNAP_EPOCH = (s.rdn R.GLB_SNAP_EPOCH + 1) % 2 ^ 32 ∧
    t.f F.GLB_SNAP_STATUS_BANK = (s.rdn R.GLB_SNAP_EPOCH + 1) % 2 ∧ t.on F.GLB_SNAP_STATUS_SOURCE = c ∧
    t.rd64 R.GLB_SNAP_FRAME_LO R.GLB_SNAP_FRAME_HI = s.clk.frameOf p % 2 ^ 48 ∧ t.f F.GLB_SNAP_LINE_LINE = p % s.clk.fu / 65536 % 65536 ∧
    t.f F.GLB_SNAP_LINE_FRACTION = p % s.clk.fu % 65536 ∧ t.snap = { s.snap with taken := none } ∧
    Keeps [R.GLB_SNAP_EPOCH, R.GLB_SNAP_STATUS, R.GLB_SNAP_FRAME_LO, R.GLB_SNAP_FRAME_HI, R.GLB_SNAP_LINE] [] [.snap] s t) ∧
  -- CHECK_START
  (∀ (s : State) (u : Nat), s.dark = false → u < 4 → s.checkOk u = true → s.rdn (R.CHK_CMD u) = 0 → Completes (.checkStart u) s fun t => t.f (F.CHK_STATUS_STATE u) = 1 ∧
    t.rd (R.CHK_SEQ_USED u) = s.rd (R.CHK_SEQ u) ∧ t.rdn (R.CHK_DONE_BYTES u) = 0 ∧ t.rdn (R.CHK_RUN_CNT u) = (s.rdn (R.CHK_RUN_CNT u) + 1) % 2 ^ 32 ∧
    Keeps [R.CHK_STATUS u, R.CHK_SEQ_USED u, R.CHK_DONE_BYTES u, R.CHK_RUN_CNT u] [] [] s t) ∧
  -- CHECK_ABORT
  (∀ (s : State) (u : Nat), s.dark = false → u < 4 → s.chkBusy u = true → s.rdn (R.CHK_CMD u) = 0 → Completes (.checkAbort u) s fun t => t.f (F.CHK_STATUS_STATE u) = 4 ∧
    t.rd64 (R.CHK_RESULT_LO u) (R.CHK_RESULT_HI u) = 0 ∧ t.on F.CHK_FLAGS_ABORTED = true ∧ Logged [⟨0x1804, u⟩] s t ∧
    Keeps [R.CHK_STATUS u, R.CHK_RESULT_LO u, R.CHK_RESULT_HI u, R.CHK_FLAGS] [] [.log] s t) ∧
  -- CHECK_COMPLETE
  (∀ (s : State) (u : Nat), u < 4 → s.chkBusy u = true → s.on (F.CHK_CTL_SEQ_INC u) = true → Completes (.checkComplete u) s fun t => t.f (F.CHK_STATUS_STATE u) = 2 ∧
    t.rd64 (R.CHK_RESULT_LO u) (R.CHK_RESULT_HI u) = s.checkResult u % 2 ^ 64 ∧ t.rd (R.CHK_DONE_BYTES u) = s.rd (R.CHK_LEN u) ∧
    t.rdn (R.CHK_SEQ u) = (s.rdn (R.CHK_SEQ u) + 1) % 2 ^ 32 ∧ Logged [⟨0x1802, u⟩] s t ∧
    Keeps [R.CHK_STATUS u, R.CHK_RESULT_LO u, R.CHK_RESULT_HI u, R.CHK_DONE_BYTES u, R.CHK_SEQ u] [] [.log] s t)

/-- The one-time key slots (R405): KEYSLOT, its 20 ms of programming, what the slot then shows, what image checks use, and that no other path programs a
slot and nothing erases one. -/
def Obligations.KeySlots : Prop :=
  -- KEYSLOT to a blank slot: 20 ms of programming begin, the read phase returns NOT_READY
  (∀ (s : State) (k : Nat) (d : List Nat), s.isl.dead = false → s.on F.BIN_SVC_CTL_PEC = false → 5000000 ≤ s.clk.ns → k < 2 → s.keySlot k = [] →
    s.isl.keyAt = none → Completes (.keyslot k d false) s fun t =>
      t.isl.keyAt = some (k, (List.range 48).map (fun i => d.getD i 0 % 256), s.clk.ns + 20000000) ∧ t.out = [.svc svcNotReady []] ∧ Keeps [] [] [.isl, .out, .clk] s t) ∧
  -- until it ends, read phases return NOT_READY
  (∀ (s : State) (k : Nat) (d : List Nat) (x : Nat × List Nat × Nat), s.isl.dead = false → s.on F.BIN_SVC_CTL_PEC = false → 5000000 ≤ s.clk.ns → k < 2 →
    s.keySlot k = [] → s.isl.keyAt = some x → Completes (.keyslot k d false) s fun t => t.out = [.svc svcNotReady []] ∧ Keeps [] [] [.out, .clk] s t) ∧
  -- then the slot holds the digest, CFG_KEYSLOT shows it, event 0x010D is raised; the slots that govern image checks are as they were
  (∀ (s : State) (k x : Nat) (d : List Nat), s.isl.keyAt = some (k, d, x) → k < 2 → s.keySlot k = [] → d ≠ [] →
    Completes .keyslotProgrammed s fun t => x ≤ t.clk.ns ∧ t.keySlot k = d ∧ (∀ j, j ≠ k → t.keySlot j = s.keySlot j) ∧
      bitsOf (t.view R.CFG_KEYSLOT).toNat k k = 1 ∧ t.cfg.keys1 = s.cfg.keys1 ∧ t.out = [.svc svcOk []] ∧ Logged [⟨0x010D, k⟩] s t) ∧
  -- image checks use the slots as they stood at the last start
  (∀ (s : State) (a : Slot) (e : Option FwHdr) (m c o : Bool), s.loaderMay = true →
    Completes (.loaderStart a.active a.fallback e m c o) s fun t => t.cfg.keys1 = s.keys) ∧
  (∀ (s : State) (keys : Tab (List Nat)) (b : Nat → Nat) (rs : List BasRec), ({ s with keys := keys } : State).sigCheck b rs = s.sigCheck b rs) ∧
  -- a KEYSLOT to a programmed slot returns REFUSED
  (∀ (s : State) (k : Nat) (d : List Nat), s.isl.dead = false → s.on F.BIN_SVC_CTL_PEC = false → 5000000 ≤ s.clk.ns → k < 2 → s.keySlot k ≠ [] →
    Completes (.keyslot k d false) s fun t => t.out = [.svc svcRefused []] ∧ Keeps [] [] [.out, .clk] s t) ∧
  -- no other path programs a slot, and nothing erases one
  (∀ (i : Instr) (s : State), i ≠ .keyslotProgrammed → Completes i s fun t => t.keys = s.keys) ∧
  (∀ (i : Instr) (s : State), Completes i s fun t => KeysKept s t)


/-- What every step keeps, from every state: the canonical form of the key slots and every programmed digest (R405); a slot changes only by
KEYSLOT_PROGRAMMED; no command enters the queue. -/
def Obligations.EveryStepKeepsKeySlots : Prop :=
  ∀ s : State, s.KeysWf → ∃ t, step s = .next t ∧ t.KeysWf ∧ KeysKept s t ∧ t.pending = s.pending.tail ∧
    (∀ k, t.keySlot k ≠ s.keySlot k → s.pending.head? = some .keyslotProgrammed ∧ ∃ d x, s.isl.keyAt = some (k, d, x) ∧ t.keySlot k = d)


/-- SVC_ALERT_N (R406): low when a masked BIN_FAULT bit sets, high when the Alert Response Address is read, which returns ADDR, or when the bit is
cleared. -/
def Obligations.AlertLine : Prop :=
  -- low when a masked BIN_FAULT bit changes from 0 to 1
  (∀ (s : State) (b : Nat), b < 32 → bitsOf (s.rdn R.BIN_FAULT) b b = 0 → bitsOf (s.rdn R.BIN_FAULT_MASK) b b = 1 →
    (s.faultSet b).alertN = true ∧ bitsOf ((s.faultSet b).rdn R.BIN_FAULT) b b = 1) ∧
  (∀ (s : State) (b : Nat), b < 32 → bitsOf (s.rdn R.BIN_FAULT) b b = 1 ∨ bitsOf (s.rdn R.BIN_FAULT_MASK) b b = 0 → (s.faultSet b).alertN = s.alertN) ∧
  -- high when the Alert Response Address is read, which returns ADDR
  (∀ s : State, s.alertN = true → Completes .alertResponse s fun t =>
    t.alertN = false ∧ t.out = [.alertAddr (bitsOf (s.rdn R.BIN_SVC_CTL) 6 0)] ∧ t.isl = { s.isl with alert := 0 } ∧ Keeps [] [] [.isl, .out] s t) ∧
  -- high when the bit is cleared
  (∀ (s : State) (path : BusPath) (b : Nat), s.dark = false → path ≠ .service → b < 11 → s.isl.alert = 2 ^ b →
    Completes (.registerWrite path R.BIN_FAULT (BitVec.ofNat 32 (2 ^ b)) 4) s fun t =>
      t.alertN = false ∧ bitsOf (t.rdn R.BIN_FAULT) b b = 0 ∧ (∀ c, c < 11 → c ≠ b → bitsOf (t.rdn R.BIN_FAULT) c c = bitsOf (s.rdn R.BIN_FAULT) c c) ∧
      Keeps [R.BIN_FAULT] [] [.isl] s t)


/-- A refused register write (R7): every register, function and part but the log keeps its value, but for waiting low words of a wide value whose top
word it was (assumption 91), and the block's event 0x01 (R8) is logged; a field left at its present value is not checked. -/
def Obligations.RefusedWriteChangesNothing : Prop :=
  (∀ (s : State) (path : BusPath) (a : Nat) (v : Word) (d : RegDef), s.dark = false → path ≠ .service → a % 4 = 0 → a < 0x1A0000 → regDef a = some d →
    (∃ x ∈ d.fields, x.sets = true ∧ bitsOf v.toNat x.hi x.lo ≠ bitsOf (s.begin.oldWord path a) x.hi x.lo ∧
      rngOk x.rng (x.hi + 1 - x.lo) (bitsOf (s.begin.oldWord path a) x.hi x.lo) (bitsOf v.toNat x.hi x.lo) = false) ∨
    ((∃ x ∈ d.fields, x.acc = .rwl) ∧ s.begin.cfgLocked = true) →
    Completes (.registerWrite path a v 4) s fun t => Logged [⟨blockOf a * 256 + 1, 0⟩] s t ∧ Keeps [] [] [.log, .wpend] s t ∧
      (wideOf wideWrites a = none → t.wpend = s.wpend)) ∧
  (∀ (fs : List FieldDef) (old new : Nat), (∀ x ∈ fs, bitsOf new x.hi x.lo = if x.acc = .wo then 0 else bitsOf old x.hi x.lo) → fieldsOk fs old new = true)


/-- A monitor unit takes a sample (R431). That SAT sets at the first sample that finds COUNT or the bin at 0xFFFF_FFFF is the reading of assumption 80. -/
def Obligations.MonitorBins : Prop :=
  -- the bin of a sample
  (∀ (base v : Int) (shift : Nat) (log2 : Bool), v < base → monBin base v shift log2 = 0) ∧
  (∀ (base : Int) (d shift : Nat), monBin base (base + d) shift false = min 31 (1 + d / 2 ^ shift)) ∧
  (∀ (base : Int) (d shift : Nat), d < 2 ^ shift → monBin base (base + d) shift true = 1) ∧
  (∀ (base : Int) (d shift k : Nat), 2 ^ k * 2 ^ shift ≤ d → d < 2 ^ (k + 1) * 2 ^ shift → monBin base (base + d) shift true = min 31 (2 + k)) ∧
  -- a sample counts once, in its bin, and moves MIN and MAX; COUNT and the bins saturate
  (∀ (s : State) (m : Nat) (v : Int), m < 64 → -2 ^ 31 ≤ v → v < 2 ^ 31 →
    let t := s.monTake m v
    let b := monBin (signedOf 32 (s.rdn (R.MON_BASE m))) v (s.f (F.MON_CTL_SHIFT m)) (s.on (F.MON_CTL_LOG2 m))
    let full := s.rdn (R.MON_COUNT m) = 0xFFFFFFFF ∨ s.rdn (R.MON_HIST m b) = 0xFFFFFFFF
    t.rdn (R.MON_COUNT m) = min 0xFFFFFFFF (s.rdn (R.MON_COUNT m) + 1) ∧ t.rdn (R.MON_HIST m b) = min 0xFFFFFFFF (s.rdn (R.MON_HIST m b) + 1) ∧
    signedOf 32 (t.rdn (R.MON_MIN m)) = min (signedOf 32 (s.rdn (R.MON_MIN m))) v ∧
    signedOf 32 (t.rdn (R.MON_MAX m)) = max (signedOf 32 (s.rdn (R.MON_MAX m))) v ∧
    (t.on (F.MON_STATUS_SAT m) = true ↔ s.on (F.MON_STATUS_SAT m) = true ∨ full) ∧
    t.evNow = (if full ∧ s.on (F.MON_STATUS_SAT m) = false then s.evNow ++ [⟨0x1703, m⟩] else s.evNow) ∧
    (full → s.on (F.MON_STATUS_SAT m) = false → t.on F.MON_FLAGS_SAT = true) ∧
    (∀ a, a ∉ [R.MON_COUNT m, R.MON_HIST m b, R.MON_MIN m, R.MON_MAX m, R.MON_STATUS m, R.MON_FLAGS] → t.rd a = s.rd a))


/-- The allocations of R267, for any members with floor <= cap: one for each member, between floor and cap, the whole pool given out unless every cap
binds. -/
def Obligations.CanvasAllocations : Prop :=
  ∀ (rs : List CnvReport) (n pool : Nat), rs.length < n → (∀ r ∈ rs, r.floor ≤ r.cap) →
    let al := (allocate n pool rs).1
    -- one allocation for each member, from its floor up to its cap
    (al.map (fun e => e.1)).Perm (rs.map (fun r => r.member)) ∧
    (∀ e ∈ al, ∃ r ∈ rs, r.member = e.1 ∧ r.floor ≤ e.2 ∧ e.2 ≤ r.cap) ∧
    -- the whole pool is given out, unless every cap binds
    (al.map (fun e => e.2)).sum = min (pool + (rs.map (fun r => r.floor)).sum) (rs.map (fun r => r.cap)).sum ∧
    -- with nothing above the floors, every member receives its floor
    (pool = 0 → al = rs.map (fun r => (r.member, r.floor)))


end
end

