-- ==== Sys2Proof/Laws/Tab.lean ====
section
/-!
SUPPORT. Sys2Proof/Laws/Tab.lean: the laws of sparse tables: what a key reads after a write, and that every operation keeps the canonical form.
-/

namespace Sys2Proof.Machine

theorem Tab.get_erase_ne {α : Type} (d : Nat → α) (t : Tab α) {j k : Nat} (h : j ≠ k) : Tab.get d (Tab.erase t k) j = Tab.get d t j := by
  induction t with
  | nil => rfl
  | cons e r ih =>
    obtain ⟨k', v⟩ := e
    by_cases hk : k' = k
    · simp [Tab.erase, Tab.get, hk, ih, Ne.symm h]
    · simp [Tab.erase, Tab.get, hk, ih]

theorem Tab.get_erase_same {α : Type} (d : Nat → α) (t : Tab α) (k : Nat) : Tab.get d (Tab.erase t k) k = d k := by
  induction t with
  | nil => rfl
  | cons e r ih =>
    obtain ⟨k', v⟩ := e
    by_cases hk : k' = k
    · simp [Tab.erase, hk, ih]
    · simp [Tab.erase, Tab.get, hk, ih]

theorem Tab.get_insert {α : Type} (d : Nat → α) (t : Tab α) (k : Nat) (v : α) (h : ∀ e ∈ t, e.1 ≠ k) (j : Nat) :
    Tab.get d (Tab.insert t k v) j = if j = k then v else Tab.get d t j := by
  induction t with
  | nil =>
    by_cases hj : j = k
    · simp [Tab.insert, Tab.get, hj]
    · simp [Tab.insert, Tab.get, hj, Ne.symm hj]
  | cons e r ih =>
    obtain ⟨k', w⟩ := e
    have hk : k' ≠ k := h (k', w) (by simp)
    have ih := ih (fun e he => h e (by simp [he]))
    by_cases hlt : k < k'
    · by_cases hj : j = k
      · simp [Tab.insert, hlt, Tab.get, hj]
      · simp [Tab.insert, hlt, Tab.get, hj, Ne.symm hj]
    · by_cases hj : k' = j
      · subst hj; simp [Tab.insert, hlt, Tab.get, hk]
      · simp [Tab.insert, hlt, Tab.get, hj, ih]

theorem Tab.erase_keys {α : Type} (t : Tab α) (k : Nat) : ∀ e ∈ Tab.erase t k, e.1 ≠ k := by
  induction t with
  | nil => simp [Tab.erase]
  | cons e r ih =>
    obtain ⟨k', v⟩ := e
    by_cases hk : k' = k
    · simpa [Tab.erase, hk] using ih
    · intro x hx
      simp [Tab.erase, hk] at hx
      rcases hx with rfl | hx
      · exact hk
      · exact ih x hx

/-- A key reads what was written to it. -/
@[simp] theorem Tab.get_put_same {α : Type} [DecidableEq α] (d : Nat → α) (t : Tab α) (k : Nat) (v : α) : Tab.get d (Tab.put d t k v) k = v := by
  unfold Tab.put
  split
  · rename_i h; simp [Tab.get_erase_same, h]
  · simp [Tab.get_insert d _ k v (Tab.erase_keys t k)]

/-- A write leaves every other key alone. -/
theorem Tab.get_put_ne {α : Type} [DecidableEq α] (d : Nat → α) (t : Tab α) {j k : Nat} (v : α) (h : j ≠ k) :
    Tab.get d (Tab.put d t k v) j = Tab.get d t j := by
  unfold Tab.put
  split
  · exact Tab.get_erase_ne d t h
  · rw [Tab.get_insert d _ k v (Tab.erase_keys t k), if_neg h, Tab.get_erase_ne d t h]

theorem Tab.get_put {α : Type} [DecidableEq α] (d : Nat → α) (t : Tab α) (j k : Nat) (v : α) :
    Tab.get d (Tab.put d t k v) j = if j = k then v else Tab.get d t j := by
  by_cases h : j = k
  · subst h; simp
  · simp [h, Tab.get_put_ne d t v h]

/-! ## The canonical form -/

theorem Tab.above_iff {α : Type} (n : Nat) (t : Tab α) : Tab.above n t = true ↔ ∀ e ∈ t, n < e.1 := by simp [Tab.above]

theorem Tab.wf_tail {α : Type} [DecidableEq α] {d : Nat → α} {e : Nat × α} {r : Tab α} (h : Tab.wf d (e :: r) = true) : Tab.wf d r = true := by
  obtain ⟨k, v⟩ := e
  simp [Tab.wf] at h
  exact h.2

theorem Tab.erase_sub {α : Type} (t : Tab α) (k : Nat) : ∀ e ∈ Tab.erase t k, e ∈ t := by
  induction t with
  | nil => simp [Tab.erase]
  | cons e r ih =>
    obtain ⟨k', v⟩ := e
    by_cases hk : k' = k
    · intro x hx; simp [Tab.erase, hk] at hx; exact List.mem_cons_of_mem _ (ih x hx)
    · intro x hx
      simp [Tab.erase, hk] at hx
      rcases hx with rfl | hx
      · simp
      · exact List.mem_cons_of_mem _ (ih x hx)

theorem Tab.wf_erase {α : Type} [DecidableEq α] (d : Nat → α) (t : Tab α) (k : Nat) (h : Tab.wf d t = true) : Tab.wf d (Tab.erase t k) = true := by
  induction t with
  | nil => rfl
  | cons e r ih =>
    obtain ⟨k', v⟩ := e
    simp [Tab.wf] at h
    by_cases hk : k' = k
    · simpa [Tab.erase, hk] using ih h.2
    · simp [Tab.erase, hk, Tab.wf, h.1.1, ih h.2, Tab.above_iff]
      intro a b hx
      exact (Tab.above_iff k' r).mp h.1.2 _ (Tab.erase_sub r k _ hx)

theorem Tab.wf_insert {α : Type} [DecidableEq α] (d : Nat → α) (t : Tab α) (k : Nat) (v : α) (hv : v ≠ d k) (hk : ∀ e ∈ t, e.1 ≠ k)
    (h : Tab.wf d t = true) : Tab.wf d (Tab.insert t k v) = true := by
  induction t with
  | nil => simp [Tab.insert, Tab.wf, Tab.above, hv]
  | cons e r ih =>
    obtain ⟨k', w⟩ := e
    have hne : k' ≠ k := hk (k', w) (by simp)
    have hr := ih (fun e he => hk e (by simp [he])) (Tab.wf_tail h)
    simp [Tab.wf] at h
    have ha := (Tab.above_iff k' r).mp h.1.2
    by_cases hlt : k < k'
    · simp [Tab.insert, hlt, Tab.wf, hv, h, Tab.above_iff]
      intro a b hx
      exact Nat.lt_trans hlt (ha _ hx)
    · have hgt : k' < k := by omega
      simp [Tab.insert, hlt, Tab.wf, h.1.1, hr, Tab.above_iff]
      intro a b hx
      have : (a, b) = (k, v) ∨ (a, b) ∈ r := by
        clear ih hr h ha hk
        induction r with
        | nil => simpa [Tab.insert] using hx
        | cons f q ih2 =>
          obtain ⟨k2, w2⟩ := f
          by_cases h2 : k < k2
          · simp [Tab.insert, h2] at hx ⊢
            rcases hx with hx | hx | hx
            · exact .inl hx
            · exact .inr (.inl hx)
            · exact .inr (.inr hx)
          · simp [Tab.insert, h2] at hx ⊢
            rcases hx with hx | hx
            · exact .inr (.inl hx)
            · have := ih2 hx
              simp at this
              rcases this with h3 | h3
              · exact .inl h3
              · exact .inr (.inr h3)
      rcases this with h1 | h1
      · simp at h1; omega
      · exact ha _ h1

/-- A write keeps the canonical form. -/
theorem Tab.wf_put {α : Type} [DecidableEq α] (d : Nat → α) (t : Tab α) (k : Nat) (v : α) (h : Tab.wf d t = true) :
    Tab.wf d (Tab.put d t k v) = true := by
  unfold Tab.put
  split
  · exact Tab.wf_erase d t k h
  · rename_i hv
    exact Tab.wf_insert d _ k v hv (Tab.erase_keys t k) (Tab.wf_erase d t k h)

/-- Leaving out entries keeps the canonical form. -/
theorem Tab.wf_filter {α : Type} [DecidableEq α] (d : Nat → α) (t : Tab α) (p : Nat × α → Bool) (h : Tab.wf d t = true) :
    Tab.wf d (t.filter p) = true := by
  induction t with
  | nil => rfl
  | cons e r ih =>
    obtain ⟨k, v⟩ := e
    have hr := ih (Tab.wf_tail h)
    simp [Tab.wf] at h
    by_cases hp : p (k, v) = true
    · simp [hp, Tab.wf, h.1.1, hr, Tab.above_iff]
      intro a b hx _
      exact (Tab.above_iff k r).mp h.1.2 _ hx
    · simpa [hp] using hr

/-- Writing consecutive keys keeps the canonical form. -/
theorem Tab.wf_putList {α : Type} [DecidableEq α] (d : Nat → α) (l : List α) (t : Tab α) (k : Nat) (h : Tab.wf d t = true) :
    Tab.wf d (Tab.putList d t k l) = true := by
  induction l generalizing t k with
  | nil => exact h
  | cons v r ih => exact ih _ _ (Tab.wf_put d t k v h)

end Sys2Proof.Machine
end

