-- ==== Sys2Proof/Laws/State.lean ====
section
/-!
SUPPORT. Sys2Proof/Laws/State.lean: what each update of State leaves in each field, so that no proof unfolds a record update, and what a register
or a field reads after an update of registers.
-/

namespace Sys2Proof.Machine

/-! ## Fields after updates -/

@[simp] theorem begin_pending (s : State) : (s.begin).pending = s.pending := rfl
@[simp] theorem begin_regs (s : State) : (s.begin).regs = s.regs := rfl
@[simp] theorem begin_held (s : State) : (s.begin).held = s.held := rfl
@[simp] theorem begin_wpend (s : State) : (s.begin).wpend = s.wpend := rfl
@[simp] theorem begin_latch (s : State) : (s.begin).latch = s.latch := rfl
@[simp] theorem begin_fns (s : State) : (s.begin).fns = s.fns := rfl
@[simp] theorem begin_fnAt (s : State) : (s.begin).fnAt = s.fnAt := rfl
@[simp] theorem begin_fctr (s : State) : (s.begin).fctr = s.fctr := rfl
@[simp] theorem begin_log (s : State) : (s.begin).log = s.log := rfl
@[simp] theorem begin_clk (s : State) : (s.begin).clk = s.clk := rfl
@[simp] theorem begin_isl (s : State) : (s.begin).isl = s.isl := rfl
@[simp] theorem begin_mer (s : State) : (s.begin).mer = s.mer := rfl
@[simp] theorem begin_ptp (s : State) : (s.begin).ptp = s.ptp := rfl
@[simp] theorem begin_ckg (s : State) : (s.begin).ckg = s.ckg := rfl
@[simp] theorem begin_ing (s : State) : (s.begin).ing = s.ing := rfl
@[simp] theorem begin_comp (s : State) : (s.begin).comp = s.comp := rfl
@[simp] theorem begin_hbm (s : State) : (s.begin).hbm = s.hbm := rfl
@[simp] theorem begin_enc (s : State) : (s.begin).enc = s.enc := rfl
@[simp] theorem begin_dis (s : State) : (s.begin).dis = s.dis := rfl
@[simp] theorem begin_egs (s : State) : (s.begin).egs = s.egs := rfl
@[simp] theorem begin_lne (s : State) : (s.begin).lne = s.lne := rfl
@[simp] theorem begin_links (s : State) : (s.begin).links = s.links := rfl
@[simp] theorem begin_twn (s : State) : (s.begin).twn = s.twn := rfl
@[simp] theorem begin_cnv (s : State) : (s.begin).cnv = s.cnv := rfl
@[simp] theorem begin_eth (s : State) : (s.begin).eth = s.eth := rfl
@[simp] theorem begin_aud (s : State) : (s.begin).aud = s.aud := rfl
@[simp] theorem begin_mon (s : State) : (s.begin).mon = s.mon := rfl
@[simp] theorem begin_cal (s : State) : (s.begin).cal = s.cal := rfl
@[simp] theorem begin_flash (s : State) : (s.begin).flash = s.flash := rfl
@[simp] theorem begin_souv (s : State) : (s.begin).souv = s.souv := rfl
@[simp] theorem begin_keys (s : State) : (s.begin).keys = s.keys := rfl
@[simp] theorem begin_cfg (s : State) : (s.begin).cfg = s.cfg := rfl
@[simp] theorem begin_sx (s : State) : (s.begin).sx = s.sx := rfl
@[simp] theorem begin_snap (s : State) : (s.begin).snap = s.snap := rfl
@[simp] theorem begin_pins (s : State) : (s.begin).pins = s.pins := rfl
@[simp] theorem finish_pending (s : State) : (s.finish).pending = s.pending := rfl
@[simp] theorem finish_regs (s : State) : (s.finish).regs = s.regs := rfl
@[simp] theorem finish_held (s : State) : (s.finish).held = s.held := rfl
@[simp] theorem finish_wpend (s : State) : (s.finish).wpend = s.wpend := rfl
@[simp] theorem finish_latch (s : State) : (s.finish).latch = s.latch := rfl
@[simp] theorem finish_fns (s : State) : (s.finish).fns = s.fns := rfl
@[simp] theorem finish_fnAt (s : State) : (s.finish).fnAt = s.fnAt := rfl
@[simp] theorem finish_out (s : State) : (s.finish).out = s.out := rfl
@[simp] theorem finish_fctr (s : State) : (s.finish).fctr = s.fctr := rfl
@[simp] theorem finish_clk (s : State) : (s.finish).clk = s.clk := rfl
@[simp] theorem finish_isl (s : State) : (s.finish).isl = s.isl := rfl
@[simp] theorem finish_mer (s : State) : (s.finish).mer = s.mer := rfl
@[simp] theorem finish_ptp (s : State) : (s.finish).ptp = s.ptp := rfl
@[simp] theorem finish_ckg (s : State) : (s.finish).ckg = s.ckg := rfl
@[simp] theorem finish_ing (s : State) : (s.finish).ing = s.ing := rfl
@[simp] theorem finish_comp (s : State) : (s.finish).comp = s.comp := rfl
@[simp] theorem finish_hbm (s : State) : (s.finish).hbm = s.hbm := rfl
@[simp] theorem finish_enc (s : State) : (s.finish).enc = s.enc := rfl
@[simp] theorem finish_dis (s : State) : (s.finish).dis = s.dis := rfl
@[simp] theorem finish_egs (s : State) : (s.finish).egs = s.egs := rfl
@[simp] theorem finish_lne (s : State) : (s.finish).lne = s.lne := rfl
@[simp] theorem finish_links (s : State) : (s.finish).links = s.links := rfl
@[simp] theorem finish_twn (s : State) : (s.finish).twn = s.twn := rfl
@[simp] theorem finish_cnv (s : State) : (s.finish).cnv = s.cnv := rfl
@[simp] theorem finish_eth (s : State) : (s.finish).eth = s.eth := rfl
@[simp] theorem finish_aud (s : State) : (s.finish).aud = s.aud := rfl
@[simp] theorem finish_mon (s : State) : (s.finish).mon = s.mon := rfl
@[simp] theorem finish_cal (s : State) : (s.finish).cal = s.cal := rfl
@[simp] theorem finish_flash (s : State) : (s.finish).flash = s.flash := rfl
@[simp] theorem finish_souv (s : State) : (s.finish).souv = s.souv := rfl
@[simp] theorem finish_keys (s : State) : (s.finish).keys = s.keys := rfl
@[simp] theorem finish_cfg (s : State) : (s.finish).cfg = s.cfg := rfl
@[simp] theorem finish_sx (s : State) : (s.finish).sx = s.sx := rfl
@[simp] theorem finish_snap (s : State) : (s.finish).snap = s.snap := rfl
@[simp] theorem finish_pins (s : State) : (s.finish).pins = s.pins := rfl
@[simp] theorem wr_pending (s : State) (a : Nat) (v : Word) : (s.wr a v).pending = s.pending := rfl
@[simp] theorem wr_held (s : State) (a : Nat) (v : Word) : (s.wr a v).held = s.held := rfl
@[simp] theorem wr_wpend (s : State) (a : Nat) (v : Word) : (s.wr a v).wpend = s.wpend := rfl
@[simp] theorem wr_latch (s : State) (a : Nat) (v : Word) : (s.wr a v).latch = s.latch := rfl
@[simp] theorem wr_fns (s : State) (a : Nat) (v : Word) : (s.wr a v).fns = s.fns := rfl
@[simp] theorem wr_fnAt (s : State) (a : Nat) (v : Word) : (s.wr a v).fnAt = s.fnAt := rfl
@[simp] theorem wr_evNow (s : State) (a : Nat) (v : Word) : (s.wr a v).evNow = s.evNow := rfl
@[simp] theorem wr_out (s : State) (a : Nat) (v : Word) : (s.wr a v).out = s.out := rfl
@[simp] theorem wr_fctr (s : State) (a : Nat) (v : Word) : (s.wr a v).fctr = s.fctr := rfl
@[simp] theorem wr_log (s : State) (a : Nat) (v : Word) : (s.wr a v).log = s.log := rfl
@[simp] theorem wr_clk (s : State) (a : Nat) (v : Word) : (s.wr a v).clk = s.clk := rfl
@[simp] theorem wr_isl (s : State) (a : Nat) (v : Word) : (s.wr a v).isl = s.isl := rfl
@[simp] theorem wr_mer (s : State) (a : Nat) (v : Word) : (s.wr a v).mer = s.mer := rfl
@[simp] theorem wr_ptp (s : State) (a : Nat) (v : Word) : (s.wr a v).ptp = s.ptp := rfl
@[simp] theorem wr_ckg (s : State) (a : Nat) (v : Word) : (s.wr a v).ckg = s.ckg := rfl
@[simp] theorem wr_ing (s : State) (a : Nat) (v : Word) : (s.wr a v).ing = s.ing := rfl
@[simp] theorem wr_comp (s : State) (a : Nat) (v : Word) : (s.wr a v).comp = s.comp := rfl
@[simp] theorem wr_hbm (s : State) (a : Nat) (v : Word) : (s.wr a v).hbm = s.hbm := rfl
@[simp] theorem wr_enc (s : State) (a : Nat) (v : Word) : (s.wr a v).enc = s.enc := rfl
@[simp] theorem wr_dis (s : State) (a : Nat) (v : Word) : (s.wr a v).dis = s.dis := rfl
@[simp] theorem wr_egs (s : State) (a : Nat) (v : Word) : (s.wr a v).egs = s.egs := rfl
@[simp] theorem wr_lne (s : State) (a : Nat) (v : Word) : (s.wr a v).lne = s.lne := rfl
@[simp] theorem wr_links (s : State) (a : Nat) (v : Word) : (s.wr a v).links = s.links := rfl
@[simp] theorem wr_twn (s : State) (a : Nat) (v : Word) : (s.wr a v).twn = s.twn := rfl
@[simp] theorem wr_cnv (s : State) (a : Nat) (v : Word) : (s.wr a v).cnv = s.cnv := rfl
@[simp] theorem wr_eth (s : State) (a : Nat) (v : Word) : (s.wr a v).eth = s.eth := rfl
@[simp] theorem wr_aud (s : State) (a : Nat) (v : Word) : (s.wr a v).aud = s.aud := rfl
@[simp] theorem wr_mon (s : State) (a : Nat) (v : Word) : (s.wr a v).mon = s.mon := rfl
@[simp] theorem wr_cal (s : State) (a : Nat) (v : Word) : (s.wr a v).cal = s.cal := rfl
@[simp] theorem wr_flash (s : State) (a : Nat) (v : Word) : (s.wr a v).flash = s.flash := rfl
@[simp] theorem wr_souv (s : State) (a : Nat) (v : Word) : (s.wr a v).souv = s.souv := rfl
@[simp] theorem wr_keys (s : State) (a : Nat) (v : Word) : (s.wr a v).keys = s.keys := rfl
@[simp] theorem wr_cfg (s : State) (a : Nat) (v : Word) : (s.wr a v).cfg = s.cfg := rfl
@[simp] theorem wr_sx (s : State) (a : Nat) (v : Word) : (s.wr a v).sx = s.sx := rfl
@[simp] theorem wr_snap (s : State) (a : Nat) (v : Word) : (s.wr a v).snap = s.snap := rfl
@[simp] theorem wr_pins (s : State) (a : Nat) (v : Word) : (s.wr a v).pins = s.pins := rfl
@[simp] theorem wrn_pending (s : State) (a n : Nat) : (s.wrn a n).pending = s.pending := rfl
@[simp] theorem wrn_held (s : State) (a n : Nat) : (s.wrn a n).held = s.held := rfl
@[simp] theorem wrn_wpend (s : State) (a n : Nat) : (s.wrn a n).wpend = s.wpend := rfl
@[simp] theorem wrn_latch (s : State) (a n : Nat) : (s.wrn a n).latch = s.latch := rfl
@[simp] theorem wrn_fns (s : State) (a n : Nat) : (s.wrn a n).fns = s.fns := rfl
@[simp] theorem wrn_fnAt (s : State) (a n : Nat) : (s.wrn a n).fnAt = s.fnAt := rfl
@[simp] theorem wrn_evNow (s : State) (a n : Nat) : (s.wrn a n).evNow = s.evNow := rfl
@[simp] theorem wrn_out (s : State) (a n : Nat) : (s.wrn a n).out = s.out := rfl
@[simp] theorem wrn_fctr (s : State) (a n : Nat) : (s.wrn a n).fctr = s.fctr := rfl
@[simp] theorem wrn_log (s : State) (a n : Nat) : (s.wrn a n).log = s.log := rfl
@[simp] theorem wrn_clk (s : State) (a n : Nat) : (s.wrn a n).clk = s.clk := rfl
@[simp] theorem wrn_isl (s : State) (a n : Nat) : (s.wrn a n).isl = s.isl := rfl
@[simp] theorem wrn_mer (s : State) (a n : Nat) : (s.wrn a n).mer = s.mer := rfl
@[simp] theorem wrn_ptp (s : State) (a n : Nat) : (s.wrn a n).ptp = s.ptp := rfl
@[simp] theorem wrn_ckg (s : State) (a n : Nat) : (s.wrn a n).ckg = s.ckg := rfl
@[simp] theorem wrn_ing (s : State) (a n : Nat) : (s.wrn a n).ing = s.ing := rfl
@[simp] theorem wrn_comp (s : State) (a n : Nat) : (s.wrn a n).comp = s.comp := rfl
@[simp] theorem wrn_hbm (s : State) (a n : Nat) : (s.wrn a n).hbm = s.hbm := rfl
@[simp] theorem wrn_enc (s : State) (a n : Nat) : (s.wrn a n).enc = s.enc := rfl
@[simp] theorem wrn_dis (s : State) (a n : Nat) : (s.wrn a n).dis = s.dis := rfl
@[simp] theorem wrn_egs (s : State) (a n : Nat) : (s.wrn a n).egs = s.egs := rfl
@[simp] theorem wrn_lne (s : State) (a n : Nat) : (s.wrn a n).lne = s.lne := rfl
@[simp] theorem wrn_links (s : State) (a n : Nat) : (s.wrn a n).links = s.links := rfl
@[simp] theorem wrn_twn (s : State) (a n : Nat) : (s.wrn a n).twn = s.twn := rfl
@[simp] theorem wrn_cnv (s : State) (a n : Nat) : (s.wrn a n).cnv = s.cnv := rfl
@[simp] theorem wrn_eth (s : State) (a n : Nat) : (s.wrn a n).eth = s.eth := rfl
@[simp] theorem wrn_aud (s : State) (a n : Nat) : (s.wrn a n).aud = s.aud := rfl
@[simp] theorem wrn_mon (s : State) (a n : Nat) : (s.wrn a n).mon = s.mon := rfl
@[simp] theorem wrn_cal (s : State) (a n : Nat) : (s.wrn a n).cal = s.cal := rfl
@[simp] theorem wrn_flash (s : State) (a n : Nat) : (s.wrn a n).flash = s.flash := rfl
@[simp] theorem wrn_souv (s : State) (a n : Nat) : (s.wrn a n).souv = s.souv := rfl
@[simp] theorem wrn_keys (s : State) (a n : Nat) : (s.wrn a n).keys = s.keys := rfl
@[simp] theorem wrn_cfg (s : State) (a n : Nat) : (s.wrn a n).cfg = s.cfg := rfl
@[simp] theorem wrn_sx (s : State) (a n : Nat) : (s.wrn a n).sx = s.sx := rfl
@[simp] theorem wrn_snap (s : State) (a n : Nat) : (s.wrn a n).snap = s.snap := rfl
@[simp] theorem wrn_pins (s : State) (a n : Nat) : (s.wrn a n).pins = s.pins := rfl
@[simp] theorem setF_pending (s : State) (x : Fld) (v : Nat) : (s.setF x v).pending = s.pending := rfl
@[simp] theorem setF_held (s : State) (x : Fld) (v : Nat) : (s.setF x v).held = s.held := rfl
@[simp] theorem setF_wpend (s : State) (x : Fld) (v : Nat) : (s.setF x v).wpend = s.wpend := rfl
@[simp] theorem setF_latch (s : State) (x : Fld) (v : Nat) : (s.setF x v).latch = s.latch := rfl
@[simp] theorem setF_fns (s : State) (x : Fld) (v : Nat) : (s.setF x v).fns = s.fns := rfl
@[simp] theorem setF_fnAt (s : State) (x : Fld) (v : Nat) : (s.setF x v).fnAt = s.fnAt := rfl
@[simp] theorem setF_evNow (s : State) (x : Fld) (v : Nat) : (s.setF x v).evNow = s.evNow := rfl
@[simp] theorem setF_out (s : State) (x : Fld) (v : Nat) : (s.setF x v).out = s.out := rfl
@[simp] theorem setF_fctr (s : State) (x : Fld) (v : Nat) : (s.setF x v).fctr = s.fctr := rfl
@[simp] theorem setF_log (s : State) (x : Fld) (v : Nat) : (s.setF x v).log = s.log := rfl
@[simp] theorem setF_clk (s : State) (x : Fld) (v : Nat) : (s.setF x v).clk = s.clk := rfl
@[simp] theorem setF_isl (s : State) (x : Fld) (v : Nat) : (s.setF x v).isl = s.isl := rfl
@[simp] theorem setF_mer (s : State) (x : Fld) (v : Nat) : (s.setF x v).mer = s.mer := rfl
@[simp] theorem setF_ptp (s : State) (x : Fld) (v : Nat) : (s.setF x v).ptp = s.ptp := rfl
@[simp] theorem setF_ckg (s : State) (x : Fld) (v : Nat) : (s.setF x v).ckg = s.ckg := rfl
@[simp] theorem setF_ing (s : State) (x : Fld) (v : Nat) : (s.setF x v).ing = s.ing := rfl
@[simp] theorem setF_comp (s : State) (x : Fld) (v : Nat) : (s.setF x v).comp = s.comp := rfl
@[simp] theorem setF_hbm (s : State) (x : Fld) (v : Nat) : (s.setF x v).hbm = s.hbm := rfl
@[simp] theorem setF_enc (s : State) (x : Fld) (v : Nat) : (s.setF x v).enc = s.enc := rfl
@[simp] theorem setF_dis (s : State) (x : Fld) (v : Nat) : (s.setF x v).dis = s.dis := rfl
@[simp] theorem setF_egs (s : State) (x : Fld) (v : Nat) : (s.setF x v).egs = s.egs := rfl
@[simp] theorem setF_lne (s : State) (x : Fld) (v : Nat) : (s.setF x v).lne = s.lne := rfl
@[simp] theorem setF_links (s : State) (x : Fld) (v : Nat) : (s.setF x v).links = s.links := rfl
@[simp] theorem setF_twn (s : State) (x : Fld) (v : Nat) : (s.setF x v).twn = s.twn := rfl
@[simp] theorem setF_cnv (s : State) (x : Fld) (v : Nat) : (s.setF x v).cnv = s.cnv := rfl
@[simp] theorem setF_eth (s : State) (x : Fld) (v : Nat) : (s.setF x v).eth = s.eth := rfl
@[simp] theorem setF_aud (s : State) (x : Fld) (v : Nat) : (s.setF x v).aud = s.aud := rfl
@[simp] theorem setF_mon (s : State) (x : Fld) (v : Nat) : (s.setF x v).mon = s.mon := rfl
@[simp] theorem setF_cal (s : State) (x : Fld) (v : Nat) : (s.setF x v).cal = s.cal := rfl
@[simp] theorem setF_flash (s : State) (x : Fld) (v : Nat) : (s.setF x v).flash = s.flash := rfl
@[simp] theorem setF_souv (s : State) (x : Fld) (v : Nat) : (s.setF x v).souv = s.souv := rfl
@[simp] theorem setF_keys (s : State) (x : Fld) (v : Nat) : (s.setF x v).keys = s.keys := rfl
@[simp] theorem setF_cfg (s : State) (x : Fld) (v : Nat) : (s.setF x v).cfg = s.cfg := rfl
@[simp] theorem setF_sx (s : State) (x : Fld) (v : Nat) : (s.setF x v).sx = s.sx := rfl
@[simp] theorem setF_snap (s : State) (x : Fld) (v : Nat) : (s.setF x v).snap = s.snap := rfl
@[simp] theorem setF_pins (s : State) (x : Fld) (v : Nat) : (s.setF x v).pins = s.pins := rfl
@[simp] theorem bump_pending (s : State) (a : Nat) : (s.bump a).pending = s.pending := rfl
@[simp] theorem bump_held (s : State) (a : Nat) : (s.bump a).held = s.held := rfl
@[simp] theorem bump_wpend (s : State) (a : Nat) : (s.bump a).wpend = s.wpend := rfl
@[simp] theorem bump_latch (s : State) (a : Nat) : (s.bump a).latch = s.latch := rfl
@[simp] theorem bump_fns (s : State) (a : Nat) : (s.bump a).fns = s.fns := rfl
@[simp] theorem bump_fnAt (s : State) (a : Nat) : (s.bump a).fnAt = s.fnAt := rfl
@[simp] theorem bump_evNow (s : State) (a : Nat) : (s.bump a).evNow = s.evNow := rfl
@[simp] theorem bump_out (s : State) (a : Nat) : (s.bump a).out = s.out := rfl
@[simp] theorem bump_fctr (s : State) (a : Nat) : (s.bump a).fctr = s.fctr := rfl
@[simp] theorem bump_log (s : State) (a : Nat) : (s.bump a).log = s.log := rfl
@[simp] theorem bump_clk (s : State) (a : Nat) : (s.bump a).clk = s.clk := rfl
@[simp] theorem bump_isl (s : State) (a : Nat) : (s.bump a).isl = s.isl := rfl
@[simp] theorem bump_mer (s : State) (a : Nat) : (s.bump a).mer = s.mer := rfl
@[simp] theorem bump_ptp (s : State) (a : Nat) : (s.bump a).ptp = s.ptp := rfl
@[simp] theorem bump_ckg (s : State) (a : Nat) : (s.bump a).ckg = s.ckg := rfl
@[simp] theorem bump_ing (s : State) (a : Nat) : (s.bump a).ing = s.ing := rfl
@[simp] theorem bump_comp (s : State) (a : Nat) : (s.bump a).comp = s.comp := rfl
@[simp] theorem bump_hbm (s : State) (a : Nat) : (s.bump a).hbm = s.hbm := rfl
@[simp] theorem bump_enc (s : State) (a : Nat) : (s.bump a).enc = s.enc := rfl
@[simp] theorem bump_dis (s : State) (a : Nat) : (s.bump a).dis = s.dis := rfl
@[simp] theorem bump_egs (s : State) (a : Nat) : (s.bump a).egs = s.egs := rfl
@[simp] theorem bump_lne (s : State) (a : Nat) : (s.bump a).lne = s.lne := rfl
@[simp] theorem bump_links (s : State) (a : Nat) : (s.bump a).links = s.links := rfl
@[simp] theorem bump_twn (s : State) (a : Nat) : (s.bump a).twn = s.twn := rfl
@[simp] theorem bump_cnv (s : State) (a : Nat) : (s.bump a).cnv = s.cnv := rfl
@[simp] theorem bump_eth (s : State) (a : Nat) : (s.bump a).eth = s.eth := rfl
@[simp] theorem bump_aud (s : State) (a : Nat) : (s.bump a).aud = s.aud := rfl
@[simp] theorem bump_mon (s : State) (a : Nat) : (s.bump a).mon = s.mon := rfl
@[simp] theorem bump_cal (s : State) (a : Nat) : (s.bump a).cal = s.cal := rfl
@[simp] theorem bump_flash (s : State) (a : Nat) : (s.bump a).flash = s.flash := rfl
@[simp] theorem bump_souv (s : State) (a : Nat) : (s.bump a).souv = s.souv := rfl
@[simp] theorem bump_keys (s : State) (a : Nat) : (s.bump a).keys = s.keys := rfl
@[simp] theorem bump_cfg (s : State) (a : Nat) : (s.bump a).cfg = s.cfg := rfl
@[simp] theorem bump_sx (s : State) (a : Nat) : (s.bump a).sx = s.sx := rfl
@[simp] theorem bump_snap (s : State) (a : Nat) : (s.bump a).snap = s.snap := rfl
@[simp] theorem bump_pins (s : State) (a : Nat) : (s.bump a).pins = s.pins := rfl
@[simp] theorem bumpBy_pending (s : State) (a n : Nat) : (s.bumpBy a n).pending = s.pending := rfl
@[simp] theorem bumpBy_held (s : State) (a n : Nat) : (s.bumpBy a n).held = s.held := rfl
@[simp] theorem bumpBy_wpend (s : State) (a n : Nat) : (s.bumpBy a n).wpend = s.wpend := rfl
@[simp] theorem bumpBy_latch (s : State) (a n : Nat) : (s.bumpBy a n).latch = s.latch := rfl
@[simp] theorem bumpBy_fns (s : State) (a n : Nat) : (s.bumpBy a n).fns = s.fns := rfl
@[simp] theorem bumpBy_fnAt (s : State) (a n : Nat) : (s.bumpBy a n).fnAt = s.fnAt := rfl
@[simp] theorem bumpBy_evNow (s : State) (a n : Nat) : (s.bumpBy a n).evNow = s.evNow := rfl
@[simp] theorem bumpBy_out (s : State) (a n : Nat) : (s.bumpBy a n).out = s.out := rfl
@[simp] theorem bumpBy_fctr (s : State) (a n : Nat) : (s.bumpBy a n).fctr = s.fctr := rfl
@[simp] theorem bumpBy_log (s : State) (a n : Nat) : (s.bumpBy a n).log = s.log := rfl
@[simp] theorem bumpBy_clk (s : State) (a n : Nat) : (s.bumpBy a n).clk = s.clk := rfl
@[simp] theorem bumpBy_isl (s : State) (a n : Nat) : (s.bumpBy a n).isl = s.isl := rfl
@[simp] theorem bumpBy_mer (s : State) (a n : Nat) : (s.bumpBy a n).mer = s.mer := rfl
@[simp] theorem bumpBy_ptp (s : State) (a n : Nat) : (s.bumpBy a n).ptp = s.ptp := rfl
@[simp] theorem bumpBy_ckg (s : State) (a n : Nat) : (s.bumpBy a n).ckg = s.ckg := rfl
@[simp] theorem bumpBy_ing (s : State) (a n : Nat) : (s.bumpBy a n).ing = s.ing := rfl
@[simp] theorem bumpBy_comp (s : State) (a n : Nat) : (s.bumpBy a n).comp = s.comp := rfl
@[simp] theorem bumpBy_hbm (s : State) (a n : Nat) : (s.bumpBy a n).hbm = s.hbm := rfl
@[simp] theorem bumpBy_enc (s : State) (a n : Nat) : (s.bumpBy a n).enc = s.enc := rfl
@[simp] theorem bumpBy_dis (s : State) (a n : Nat) : (s.bumpBy a n).dis = s.dis := rfl
@[simp] theorem bumpBy_egs (s : State) (a n : Nat) : (s.bumpBy a n).egs = s.egs := rfl
@[simp] theorem bumpBy_lne (s : State) (a n : Nat) : (s.bumpBy a n).lne = s.lne := rfl
@[simp] theorem bumpBy_links (s : State) (a n : Nat) : (s.bumpBy a n).links = s.links := rfl
@[simp] theorem bumpBy_twn (s : State) (a n : Nat) : (s.bumpBy a n).twn = s.twn := rfl
@[simp] theorem bumpBy_cnv (s : State) (a n : Nat) : (s.bumpBy a n).cnv = s.cnv := rfl
@[simp] theorem bumpBy_eth (s : State) (a n : Nat) : (s.bumpBy a n).eth = s.eth := rfl
@[simp] theorem bumpBy_aud (s : State) (a n : Nat) : (s.bumpBy a n).aud = s.aud := rfl
@[simp] theorem bumpBy_mon (s : State) (a n : Nat) : (s.bumpBy a n).mon = s.mon := rfl
@[simp] theorem bumpBy_cal (s : State) (a n : Nat) : (s.bumpBy a n).cal = s.cal := rfl
@[simp] theorem bumpBy_flash (s : State) (a n : Nat) : (s.bumpBy a n).flash = s.flash := rfl
@[simp] theorem bumpBy_souv (s : State) (a n : Nat) : (s.bumpBy a n).souv = s.souv := rfl
@[simp] theorem bumpBy_keys (s : State) (a n : Nat) : (s.bumpBy a n).keys = s.keys := rfl
@[simp] theorem bumpBy_cfg (s : State) (a n : Nat) : (s.bumpBy a n).cfg = s.cfg := rfl
@[simp] theorem bumpBy_sx (s : State) (a n : Nat) : (s.bumpBy a n).sx = s.sx := rfl
@[simp] theorem bumpBy_snap (s : State) (a n : Nat) : (s.bumpBy a n).snap = s.snap := rfl
@[simp] theorem bumpBy_pins (s : State) (a n : Nat) : (s.bumpBy a n).pins = s.pins := rfl
@[simp] theorem wr64_pending (s : State) (lo hi n : Nat) : (s.wr64 lo hi n).pending = s.pending := rfl
@[simp] theorem wr64_held (s : State) (lo hi n : Nat) : (s.wr64 lo hi n).held = s.held := rfl
@[simp] theorem wr64_wpend (s : State) (lo hi n : Nat) : (s.wr64 lo hi n).wpend = s.wpend := rfl
@[simp] theorem wr64_latch (s : State) (lo hi n : Nat) : (s.wr64 lo hi n).latch = s.latch := rfl
@[simp] theorem wr64_fns (s : State) (lo hi n : Nat) : (s.wr64 lo hi n).fns = s.fns := rfl
@[simp] theorem wr64_fnAt (s : State) (lo hi n : Nat) : (s.wr64 lo hi n).fnAt = s.fnAt := rfl
@[simp] theorem wr64_evNow (s : State) (lo hi n : Nat) : (s.wr64 lo hi n).evNow = s.evNow := rfl
@[simp] theorem wr64_out (s : State) (lo hi n : Nat) : (s.wr64 lo hi n).out = s.out := rfl
@[simp] theorem wr64_fctr (s : State) (lo hi n : Nat) : (s.wr64 lo hi n).fctr = s.fctr := rfl
@[simp] theorem wr64_log (s : State) (lo hi n : Nat) : (s.wr64 lo hi n).log = s.log := rfl
@[simp] theorem wr64_clk (s : State) (lo hi n : Nat) : (s.wr64 lo hi n).clk = s.clk := rfl
@[simp] theorem wr64_isl (s : State) (lo hi n : Nat) : (s.wr64 lo hi n).isl = s.isl := rfl
@[simp] theorem wr64_mer (s : State) (lo hi n : Nat) : (s.wr64 lo hi n).mer = s.mer := rfl
@[simp] theorem wr64_ptp (s : State) (lo hi n : Nat) : (s.wr64 lo hi n).ptp = s.ptp := rfl
@[simp] theorem wr64_ckg (s : State) (lo hi n : Nat) : (s.wr64 lo hi n).ckg = s.ckg := rfl
@[simp] theorem wr64_ing (s : State) (lo hi n : Nat) : (s.wr64 lo hi n).ing = s.ing := rfl
@[simp] theorem wr64_comp (s : State) (lo hi n : Nat) : (s.wr64 lo hi n).comp = s.comp := rfl
@[simp] theorem wr64_hbm (s : State) (lo hi n : Nat) : (s.wr64 lo hi n).hbm = s.hbm := rfl
@[simp] theorem wr64_enc (s : State) (lo hi n : Nat) : (s.wr64 lo hi n).enc = s.enc := rfl
@[simp] theorem wr64_dis (s : State) (lo hi n : Nat) : (s.wr64 lo hi n).dis = s.dis := rfl
@[simp] theorem wr64_egs (s : State) (lo hi n : Nat) : (s.wr64 lo hi n).egs = s.egs := rfl
@[simp] theorem wr64_lne (s : State) (lo hi n : Nat) : (s.wr64 lo hi n).lne = s.lne := rfl
@[simp] theorem wr64_links (s : State) (lo hi n : Nat) : (s.wr64 lo hi n).links = s.links := rfl
@[simp] theorem wr64_twn (s : State) (lo hi n : Nat) : (s.wr64 lo hi n).twn = s.twn := rfl
@[simp] theorem wr64_cnv (s : State) (lo hi n : Nat) : (s.wr64 lo hi n).cnv = s.cnv := rfl
@[simp] theorem wr64_eth (s : State) (lo hi n : Nat) : (s.wr64 lo hi n).eth = s.eth := rfl
@[simp] theorem wr64_aud (s : State) (lo hi n : Nat) : (s.wr64 lo hi n).aud = s.aud := rfl
@[simp] theorem wr64_mon (s : State) (lo hi n : Nat) : (s.wr64 lo hi n).mon = s.mon := rfl
@[simp] theorem wr64_cal (s : State) (lo hi n : Nat) : (s.wr64 lo hi n).cal = s.cal := rfl
@[simp] theorem wr64_flash (s : State) (lo hi n : Nat) : (s.wr64 lo hi n).flash = s.flash := rfl
@[simp] theorem wr64_souv (s : State) (lo hi n : Nat) : (s.wr64 lo hi n).souv = s.souv := rfl
@[simp] theorem wr64_keys (s : State) (lo hi n : Nat) : (s.wr64 lo hi n).keys = s.keys := rfl
@[simp] theorem wr64_cfg (s : State) (lo hi n : Nat) : (s.wr64 lo hi n).cfg = s.cfg := rfl
@[simp] theorem wr64_sx (s : State) (lo hi n : Nat) : (s.wr64 lo hi n).sx = s.sx := rfl
@[simp] theorem wr64_snap (s : State) (lo hi n : Nat) : (s.wr64 lo hi n).snap = s.snap := rfl
@[simp] theorem wr64_pins (s : State) (lo hi n : Nat) : (s.wr64 lo hi n).pins = s.pins := rfl
@[simp] theorem emit_pending (s : State) (o : Out) : (s.emit o).pending = s.pending := rfl
@[simp] theorem emit_regs (s : State) (o : Out) : (s.emit o).regs = s.regs := rfl
@[simp] theorem emit_held (s : State) (o : Out) : (s.emit o).held = s.held := rfl
@[simp] theorem emit_wpend (s : State) (o : Out) : (s.emit o).wpend = s.wpend := rfl
@[simp] theorem emit_latch (s : State) (o : Out) : (s.emit o).latch = s.latch := rfl
@[simp] theorem emit_fns (s : State) (o : Out) : (s.emit o).fns = s.fns := rfl
@[simp] theorem emit_fnAt (s : State) (o : Out) : (s.emit o).fnAt = s.fnAt := rfl
@[simp] theorem emit_evNow (s : State) (o : Out) : (s.emit o).evNow = s.evNow := rfl
@[simp] theorem emit_fctr (s : State) (o : Out) : (s.emit o).fctr = s.fctr := rfl
@[simp] theorem emit_log (s : State) (o : Out) : (s.emit o).log = s.log := rfl
@[simp] theorem emit_clk (s : State) (o : Out) : (s.emit o).clk = s.clk := rfl
@[simp] theorem emit_isl (s : State) (o : Out) : (s.emit o).isl = s.isl := rfl
@[simp] theorem emit_mer (s : State) (o : Out) : (s.emit o).mer = s.mer := rfl
@[simp] theorem emit_ptp (s : State) (o : Out) : (s.emit o).ptp = s.ptp := rfl
@[simp] theorem emit_ckg (s : State) (o : Out) : (s.emit o).ckg = s.ckg := rfl
@[simp] theorem emit_ing (s : State) (o : Out) : (s.emit o).ing = s.ing := rfl
@[simp] theorem emit_comp (s : State) (o : Out) : (s.emit o).comp = s.comp := rfl
@[simp] theorem emit_hbm (s : State) (o : Out) : (s.emit o).hbm = s.hbm := rfl
@[simp] theorem emit_enc (s : State) (o : Out) : (s.emit o).enc = s.enc := rfl
@[simp] theorem emit_dis (s : State) (o : Out) : (s.emit o).dis = s.dis := rfl
@[simp] theorem emit_egs (s : State) (o : Out) : (s.emit o).egs = s.egs := rfl
@[simp] theorem emit_lne (s : State) (o : Out) : (s.emit o).lne = s.lne := rfl
@[simp] theorem emit_links (s : State) (o : Out) : (s.emit o).links = s.links := rfl
@[simp] theorem emit_twn (s : State) (o : Out) : (s.emit o).twn = s.twn := rfl
@[simp] theorem emit_cnv (s : State) (o : Out) : (s.emit o).cnv = s.cnv := rfl
@[simp] theorem emit_eth (s : State) (o : Out) : (s.emit o).eth = s.eth := rfl
@[simp] theorem emit_aud (s : State) (o : Out) : (s.emit o).aud = s.aud := rfl
@[simp] theorem emit_mon (s : State) (o : Out) : (s.emit o).mon = s.mon := rfl
@[simp] theorem emit_cal (s : State) (o : Out) : (s.emit o).cal = s.cal := rfl
@[simp] theorem emit_flash (s : State) (o : Out) : (s.emit o).flash = s.flash := rfl
@[simp] theorem emit_souv (s : State) (o : Out) : (s.emit o).souv = s.souv := rfl
@[simp] theorem emit_keys (s : State) (o : Out) : (s.emit o).keys = s.keys := rfl
@[simp] theorem emit_cfg (s : State) (o : Out) : (s.emit o).cfg = s.cfg := rfl
@[simp] theorem emit_sx (s : State) (o : Out) : (s.emit o).sx = s.sx := rfl
@[simp] theorem emit_snap (s : State) (o : Out) : (s.emit o).snap = s.snap := rfl
@[simp] theorem emit_pins (s : State) (o : Out) : (s.emit o).pins = s.pins := rfl
@[simp] theorem raise_pending (s : State) (code detail : Nat) : (s.raise code detail).pending = s.pending := rfl
@[simp] theorem raise_regs (s : State) (code detail : Nat) : (s.raise code detail).regs = s.regs := rfl
@[simp] theorem raise_held (s : State) (code detail : Nat) : (s.raise code detail).held = s.held := rfl
@[simp] theorem raise_wpend (s : State) (code detail : Nat) : (s.raise code detail).wpend = s.wpend := rfl
@[simp] theorem raise_latch (s : State) (code detail : Nat) : (s.raise code detail).latch = s.latch := rfl
@[simp] theorem raise_fns (s : State) (code detail : Nat) : (s.raise code detail).fns = s.fns := rfl
@[simp] theorem raise_fnAt (s : State) (code detail : Nat) : (s.raise code detail).fnAt = s.fnAt := rfl
@[simp] theorem raise_out (s : State) (code detail : Nat) : (s.raise code detail).out = s.out := rfl
@[simp] theorem raise_fctr (s : State) (code detail : Nat) : (s.raise code detail).fctr = s.fctr := rfl
@[simp] theorem raise_log (s : State) (code detail : Nat) : (s.raise code detail).log = s.log := rfl
@[simp] theorem raise_clk (s : State) (code detail : Nat) : (s.raise code detail).clk = s.clk := rfl
@[simp] theorem raise_isl (s : State) (code detail : Nat) : (s.raise code detail).isl = s.isl := rfl
@[simp] theorem raise_mer (s : State) (code detail : Nat) : (s.raise code detail).mer = s.mer := rfl
@[simp] theorem raise_ptp (s : State) (code detail : Nat) : (s.raise code detail).ptp = s.ptp := rfl
@[simp] theorem raise_ckg (s : State) (code detail : Nat) : (s.raise code detail).ckg = s.ckg := rfl
@[simp] theorem raise_ing (s : State) (code detail : Nat) : (s.raise code detail).ing = s.ing := rfl
@[simp] theorem raise_comp (s : State) (code detail : Nat) : (s.raise code detail).comp = s.comp := rfl
@[simp] theorem raise_hbm (s : State) (code detail : Nat) : (s.raise code detail).hbm = s.hbm := rfl
@[simp] theorem raise_enc (s : State) (code detail : Nat) : (s.raise code detail).enc = s.enc := rfl
@[simp] theorem raise_dis (s : State) (code detail : Nat) : (s.raise code detail).dis = s.dis := rfl
@[simp] theorem raise_egs (s : State) (code detail : Nat) : (s.raise code detail).egs = s.egs := rfl
@[simp] theorem raise_lne (s : State) (code detail : Nat) : (s.raise code detail).lne = s.lne := rfl
@[simp] theorem raise_links (s : State) (code detail : Nat) : (s.raise code detail).links = s.links := rfl
@[simp] theorem raise_twn (s : State) (code detail : Nat) : (s.raise code detail).twn = s.twn := rfl
@[simp] theorem raise_cnv (s : State) (code detail : Nat) : (s.raise code detail).cnv = s.cnv := rfl
@[simp] theorem raise_eth (s : State) (code detail : Nat) : (s.raise code detail).eth = s.eth := rfl
@[simp] theorem raise_aud (s : State) (code detail : Nat) : (s.raise code detail).aud = s.aud := rfl
@[simp] theorem raise_mon (s : State) (code detail : Nat) : (s.raise code detail).mon = s.mon := rfl
@[simp] theorem raise_cal (s : State) (code detail : Nat) : (s.raise code detail).cal = s.cal := rfl
@[simp] theorem raise_flash (s : State) (code detail : Nat) : (s.raise code detail).flash = s.flash := rfl
@[simp] theorem raise_souv (s : State) (code detail : Nat) : (s.raise code detail).souv = s.souv := rfl
@[simp] theorem raise_keys (s : State) (code detail : Nat) : (s.raise code detail).keys = s.keys := rfl
@[simp] theorem raise_cfg (s : State) (code detail : Nat) : (s.raise code detail).cfg = s.cfg := rfl
@[simp] theorem raise_sx (s : State) (code detail : Nat) : (s.raise code detail).sx = s.sx := rfl
@[simp] theorem raise_snap (s : State) (code detail : Nat) : (s.raise code detail).snap = s.snap := rfl
@[simp] theorem raise_pins (s : State) (code detail : Nat) : (s.raise code detail).pins = s.pins := rfl
@[simp] theorem refuse_pending (s : State) (b : Nat) : (s.refuse b).pending = s.pending := rfl
@[simp] theorem refuse_regs (s : State) (b : Nat) : (s.refuse b).regs = s.regs := rfl
@[simp] theorem refuse_held (s : State) (b : Nat) : (s.refuse b).held = s.held := rfl
@[simp] theorem refuse_wpend (s : State) (b : Nat) : (s.refuse b).wpend = s.wpend := rfl
@[simp] theorem refuse_latch (s : State) (b : Nat) : (s.refuse b).latch = s.latch := rfl
@[simp] theorem refuse_fns (s : State) (b : Nat) : (s.refuse b).fns = s.fns := rfl
@[simp] theorem refuse_fnAt (s : State) (b : Nat) : (s.refuse b).fnAt = s.fnAt := rfl
@[simp] theorem refuse_out (s : State) (b : Nat) : (s.refuse b).out = s.out := rfl
@[simp] theorem refuse_fctr (s : State) (b : Nat) : (s.refuse b).fctr = s.fctr := rfl
@[simp] theorem refuse_log (s : State) (b : Nat) : (s.refuse b).log = s.log := rfl
@[simp] theorem refuse_clk (s : State) (b : Nat) : (s.refuse b).clk = s.clk := rfl
@[simp] theorem refuse_isl (s : State) (b : Nat) : (s.refuse b).isl = s.isl := rfl
@[simp] theorem refuse_mer (s : State) (b : Nat) : (s.refuse b).mer = s.mer := rfl
@[simp] theorem refuse_ptp (s : State) (b : Nat) : (s.refuse b).ptp = s.ptp := rfl
@[simp] theorem refuse_ckg (s : State) (b : Nat) : (s.refuse b).ckg = s.ckg := rfl
@[simp] theorem refuse_ing (s : State) (b : Nat) : (s.refuse b).ing = s.ing := rfl
@[simp] theorem refuse_comp (s : State) (b : Nat) : (s.refuse b).comp = s.comp := rfl
@[simp] theorem refuse_hbm (s : State) (b : Nat) : (s.refuse b).hbm = s.hbm := rfl
@[simp] theorem refuse_enc (s : State) (b : Nat) : (s.refuse b).enc = s.enc := rfl
@[simp] theorem refuse_dis (s : State) (b : Nat) : (s.refuse b).dis = s.dis := rfl
@[simp] theorem refuse_egs (s : State) (b : Nat) : (s.refuse b).egs = s.egs := rfl
@[simp] theorem refuse_lne (s : State) (b : Nat) : (s.refuse b).lne = s.lne := rfl
@[simp] theorem refuse_links (s : State) (b : Nat) : (s.refuse b).links = s.links := rfl
@[simp] theorem refuse_twn (s : State) (b : Nat) : (s.refuse b).twn = s.twn := rfl
@[simp] theorem refuse_cnv (s : State) (b : Nat) : (s.refuse b).cnv = s.cnv := rfl
@[simp] theorem refuse_eth (s : State) (b : Nat) : (s.refuse b).eth = s.eth := rfl
@[simp] theorem refuse_aud (s : State) (b : Nat) : (s.refuse b).aud = s.aud := rfl
@[simp] theorem refuse_mon (s : State) (b : Nat) : (s.refuse b).mon = s.mon := rfl
@[simp] theorem refuse_cal (s : State) (b : Nat) : (s.refuse b).cal = s.cal := rfl
@[simp] theorem refuse_flash (s : State) (b : Nat) : (s.refuse b).flash = s.flash := rfl
@[simp] theorem refuse_souv (s : State) (b : Nat) : (s.refuse b).souv = s.souv := rfl
@[simp] theorem refuse_keys (s : State) (b : Nat) : (s.refuse b).keys = s.keys := rfl
@[simp] theorem refuse_cfg (s : State) (b : Nat) : (s.refuse b).cfg = s.cfg := rfl
@[simp] theorem refuse_sx (s : State) (b : Nat) : (s.refuse b).sx = s.sx := rfl
@[simp] theorem refuse_snap (s : State) (b : Nat) : (s.refuse b).snap = s.snap := rfl
@[simp] theorem refuse_pins (s : State) (b : Nat) : (s.refuse b).pins = s.pins := rfl
@[simp] theorem stage_pending (s : State) (a : Nat) (v : Word) (p : Nat) : (s.stage a v p).pending = s.pending := rfl
@[simp] theorem stage_wpend (s : State) (a : Nat) (v : Word) (p : Nat) : (s.stage a v p).wpend = s.wpend := rfl
@[simp] theorem stage_latch (s : State) (a : Nat) (v : Word) (p : Nat) : (s.stage a v p).latch = s.latch := rfl
@[simp] theorem stage_fns (s : State) (a : Nat) (v : Word) (p : Nat) : (s.stage a v p).fns = s.fns := rfl
@[simp] theorem stage_fnAt (s : State) (a : Nat) (v : Word) (p : Nat) : (s.stage a v p).fnAt = s.fnAt := rfl
@[simp] theorem stage_evNow (s : State) (a : Nat) (v : Word) (p : Nat) : (s.stage a v p).evNow = s.evNow := rfl
@[simp] theorem stage_out (s : State) (a : Nat) (v : Word) (p : Nat) : (s.stage a v p).out = s.out := rfl
@[simp] theorem stage_fctr (s : State) (a : Nat) (v : Word) (p : Nat) : (s.stage a v p).fctr = s.fctr := rfl
@[simp] theorem stage_log (s : State) (a : Nat) (v : Word) (p : Nat) : (s.stage a v p).log = s.log := rfl
@[simp] theorem stage_clk (s : State) (a : Nat) (v : Word) (p : Nat) : (s.stage a v p).clk = s.clk := rfl
@[simp] theorem stage_isl (s : State) (a : Nat) (v : Word) (p : Nat) : (s.stage a v p).isl = s.isl := rfl
@[simp] theorem stage_mer (s : State) (a : Nat) (v : Word) (p : Nat) : (s.stage a v p).mer = s.mer := rfl
@[simp] theorem stage_ptp (s : State) (a : Nat) (v : Word) (p : Nat) : (s.stage a v p).ptp = s.ptp := rfl
@[simp] theorem stage_ckg (s : State) (a : Nat) (v : Word) (p : Nat) : (s.stage a v p).ckg = s.ckg := rfl
@[simp] theorem stage_ing (s : State) (a : Nat) (v : Word) (p : Nat) : (s.stage a v p).ing = s.ing := rfl
@[simp] theorem stage_comp (s : State) (a : Nat) (v : Word) (p : Nat) : (s.stage a v p).comp = s.comp := rfl
@[simp] theorem stage_hbm (s : State) (a : Nat) (v : Word) (p : Nat) : (s.stage a v p).hbm = s.hbm := rfl
@[simp] theorem stage_enc (s : State) (a : Nat) (v : Word) (p : Nat) : (s.stage a v p).enc = s.enc := rfl
@[simp] theorem stage_dis (s : State) (a : Nat) (v : Word) (p : Nat) : (s.stage a v p).dis = s.dis := rfl
@[simp] theorem stage_egs (s : State) (a : Nat) (v : Word) (p : Nat) : (s.stage a v p).egs = s.egs := rfl
@[simp] theorem stage_lne (s : State) (a : Nat) (v : Word) (p : Nat) : (s.stage a v p).lne = s.lne := rfl
@[simp] theorem stage_links (s : State) (a : Nat) (v : Word) (p : Nat) : (s.stage a v p).links = s.links := rfl
@[simp] theorem stage_twn (s : State) (a : Nat) (v : Word) (p : Nat) : (s.stage a v p).twn = s.twn := rfl
@[simp] theorem stage_cnv (s : State) (a : Nat) (v : Word) (p : Nat) : (s.stage a v p).cnv = s.cnv := rfl
@[simp] theorem stage_eth (s : State) (a : Nat) (v : Word) (p : Nat) : (s.stage a v p).eth = s.eth := rfl
@[simp] theorem stage_aud (s : State) (a : Nat) (v : Word) (p : Nat) : (s.stage a v p).aud = s.aud := rfl
@[simp] theorem stage_mon (s : State) (a : Nat) (v : Word) (p : Nat) : (s.stage a v p).mon = s.mon := rfl
@[simp] theorem stage_cal (s : State) (a : Nat) (v : Word) (p : Nat) : (s.stage a v p).cal = s.cal := rfl
@[simp] theorem stage_flash (s : State) (a : Nat) (v : Word) (p : Nat) : (s.stage a v p).flash = s.flash := rfl
@[simp] theorem stage_souv (s : State) (a : Nat) (v : Word) (p : Nat) : (s.stage a v p).souv = s.souv := rfl
@[simp] theorem stage_keys (s : State) (a : Nat) (v : Word) (p : Nat) : (s.stage a v p).keys = s.keys := rfl
@[simp] theorem stage_cfg (s : State) (a : Nat) (v : Word) (p : Nat) : (s.stage a v p).cfg = s.cfg := rfl
@[simp] theorem stage_sx (s : State) (a : Nat) (v : Word) (p : Nat) : (s.stage a v p).sx = s.sx := rfl
@[simp] theorem stage_snap (s : State) (a : Nat) (v : Word) (p : Nat) : (s.stage a v p).snap = s.snap := rfl
@[simp] theorem stage_pins (s : State) (a : Nat) (v : Word) (p : Nat) : (s.stage a v p).pins = s.pins := rfl
@[simp] theorem applyHeld_pending (s : State) (a d : Nat) : (s.applyHeld a d).pending = s.pending := rfl
@[simp] theorem applyHeld_regs (s : State) (a d : Nat) : (s.applyHeld a d).regs = s.regs := rfl
@[simp] theorem applyHeld_wpend (s : State) (a d : Nat) : (s.applyHeld a d).wpend = s.wpend := rfl
@[simp] theorem applyHeld_latch (s : State) (a d : Nat) : (s.applyHeld a d).latch = s.latch := rfl
@[simp] theorem applyHeld_fns (s : State) (a d : Nat) : (s.applyHeld a d).fns = s.fns := rfl
@[simp] theorem applyHeld_fnAt (s : State) (a d : Nat) : (s.applyHeld a d).fnAt = s.fnAt := rfl
@[simp] theorem applyHeld_evNow (s : State) (a d : Nat) : (s.applyHeld a d).evNow = s.evNow := rfl
@[simp] theorem applyHeld_out (s : State) (a d : Nat) : (s.applyHeld a d).out = s.out := rfl
@[simp] theorem applyHeld_fctr (s : State) (a d : Nat) : (s.applyHeld a d).fctr = s.fctr := rfl
@[simp] theorem applyHeld_log (s : State) (a d : Nat) : (s.applyHeld a d).log = s.log := rfl
@[simp] theorem applyHeld_clk (s : State) (a d : Nat) : (s.applyHeld a d).clk = s.clk := rfl
@[simp] theorem applyHeld_isl (s : State) (a d : Nat) : (s.applyHeld a d).isl = s.isl := rfl
@[simp] theorem applyHeld_mer (s : State) (a d : Nat) : (s.applyHeld a d).mer = s.mer := rfl
@[simp] theorem applyHeld_ptp (s : State) (a d : Nat) : (s.applyHeld a d).ptp = s.ptp := rfl
@[simp] theorem applyHeld_ckg (s : State) (a d : Nat) : (s.applyHeld a d).ckg = s.ckg := rfl
@[simp] theorem applyHeld_ing (s : State) (a d : Nat) : (s.applyHeld a d).ing = s.ing := rfl
@[simp] theorem applyHeld_comp (s : State) (a d : Nat) : (s.applyHeld a d).comp = s.comp := rfl
@[simp] theorem applyHeld_hbm (s : State) (a d : Nat) : (s.applyHeld a d).hbm = s.hbm := rfl
@[simp] theorem applyHeld_enc (s : State) (a d : Nat) : (s.applyHeld a d).enc = s.enc := rfl
@[simp] theorem applyHeld_dis (s : State) (a d : Nat) : (s.applyHeld a d).dis = s.dis := rfl
@[simp] theorem applyHeld_egs (s : State) (a d : Nat) : (s.applyHeld a d).egs = s.egs := rfl
@[simp] theorem applyHeld_lne (s : State) (a d : Nat) : (s.applyHeld a d).lne = s.lne := rfl
@[simp] theorem applyHeld_links (s : State) (a d : Nat) : (s.applyHeld a d).links = s.links := rfl
@[simp] theorem applyHeld_twn (s : State) (a d : Nat) : (s.applyHeld a d).twn = s.twn := rfl
@[simp] theorem applyHeld_cnv (s : State) (a d : Nat) : (s.applyHeld a d).cnv = s.cnv := rfl
@[simp] theorem applyHeld_eth (s : State) (a d : Nat) : (s.applyHeld a d).eth = s.eth := rfl
@[simp] theorem applyHeld_aud (s : State) (a d : Nat) : (s.applyHeld a d).aud = s.aud := rfl
@[simp] theorem applyHeld_mon (s : State) (a d : Nat) : (s.applyHeld a d).mon = s.mon := rfl
@[simp] theorem applyHeld_cal (s : State) (a d : Nat) : (s.applyHeld a d).cal = s.cal := rfl
@[simp] theorem applyHeld_flash (s : State) (a d : Nat) : (s.applyHeld a d).flash = s.flash := rfl
@[simp] theorem applyHeld_souv (s : State) (a d : Nat) : (s.applyHeld a d).souv = s.souv := rfl
@[simp] theorem applyHeld_keys (s : State) (a d : Nat) : (s.applyHeld a d).keys = s.keys := rfl
@[simp] theorem applyHeld_cfg (s : State) (a d : Nat) : (s.applyHeld a d).cfg = s.cfg := rfl
@[simp] theorem applyHeld_sx (s : State) (a d : Nat) : (s.applyHeld a d).sx = s.sx := rfl
@[simp] theorem applyHeld_snap (s : State) (a d : Nat) : (s.applyHeld a d).snap = s.snap := rfl
@[simp] theorem applyHeld_pins (s : State) (a d : Nat) : (s.applyHeld a d).pins = s.pins := rfl
@[simp] theorem flushHeld_pending (s : State) (lo n : Nat) : (s.flushHeld lo n).pending = s.pending := rfl
@[simp] theorem flushHeld_regs (s : State) (lo n : Nat) : (s.flushHeld lo n).regs = s.regs := rfl
@[simp] theorem flushHeld_wpend (s : State) (lo n : Nat) : (s.flushHeld lo n).wpend = s.wpend := rfl
@[simp] theorem flushHeld_latch (s : State) (lo n : Nat) : (s.flushHeld lo n).latch = s.latch := rfl
@[simp] theorem flushHeld_fns (s : State) (lo n : Nat) : (s.flushHeld lo n).fns = s.fns := rfl
@[simp] theorem flushHeld_fnAt (s : State) (lo n : Nat) : (s.flushHeld lo n).fnAt = s.fnAt := rfl
@[simp] theorem flushHeld_evNow (s : State) (lo n : Nat) : (s.flushHeld lo n).evNow = s.evNow := rfl
@[simp] theorem flushHeld_out (s : State) (lo n : Nat) : (s.flushHeld lo n).out = s.out := rfl
@[simp] theorem flushHeld_fctr (s : State) (lo n : Nat) : (s.flushHeld lo n).fctr = s.fctr := rfl
@[simp] theorem flushHeld_log (s : State) (lo n : Nat) : (s.flushHeld lo n).log = s.log := rfl
@[simp] theorem flushHeld_clk (s : State) (lo n : Nat) : (s.flushHeld lo n).clk = s.clk := rfl
@[simp] theorem flushHeld_isl (s : State) (lo n : Nat) : (s.flushHeld lo n).isl = s.isl := rfl
@[simp] theorem flushHeld_mer (s : State) (lo n : Nat) : (s.flushHeld lo n).mer = s.mer := rfl
@[simp] theorem flushHeld_ptp (s : State) (lo n : Nat) : (s.flushHeld lo n).ptp = s.ptp := rfl
@[simp] theorem flushHeld_ckg (s : State) (lo n : Nat) : (s.flushHeld lo n).ckg = s.ckg := rfl
@[simp] theorem flushHeld_ing (s : State) (lo n : Nat) : (s.flushHeld lo n).ing = s.ing := rfl
@[simp] theorem flushHeld_comp (s : State) (lo n : Nat) : (s.flushHeld lo n).comp = s.comp := rfl
@[simp] theorem flushHeld_hbm (s : State) (lo n : Nat) : (s.flushHeld lo n).hbm = s.hbm := rfl
@[simp] theorem flushHeld_enc (s : State) (lo n : Nat) : (s.flushHeld lo n).enc = s.enc := rfl
@[simp] theorem flushHeld_dis (s : State) (lo n : Nat) : (s.flushHeld lo n).dis = s.dis := rfl
@[simp] theorem flushHeld_egs (s : State) (lo n : Nat) : (s.flushHeld lo n).egs = s.egs := rfl
@[simp] theorem flushHeld_lne (s : State) (lo n : Nat) : (s.flushHeld lo n).lne = s.lne := rfl
@[simp] theorem flushHeld_links (s : State) (lo n : Nat) : (s.flushHeld lo n).links = s.links := rfl
@[simp] theorem flushHeld_twn (s : State) (lo n : Nat) : (s.flushHeld lo n).twn = s.twn := rfl
@[simp] theorem flushHeld_cnv (s : State) (lo n : Nat) : (s.flushHeld lo n).cnv = s.cnv := rfl
@[simp] theorem flushHeld_eth (s : State) (lo n : Nat) : (s.flushHeld lo n).eth = s.eth := rfl
@[simp] theorem flushHeld_aud (s : State) (lo n : Nat) : (s.flushHeld lo n).aud = s.aud := rfl
@[simp] theorem flushHeld_mon (s : State) (lo n : Nat) : (s.flushHeld lo n).mon = s.mon := rfl
@[simp] theorem flushHeld_cal (s : State) (lo n : Nat) : (s.flushHeld lo n).cal = s.cal := rfl
@[simp] theorem flushHeld_flash (s : State) (lo n : Nat) : (s.flushHeld lo n).flash = s.flash := rfl
@[simp] theorem flushHeld_souv (s : State) (lo n : Nat) : (s.flushHeld lo n).souv = s.souv := rfl
@[simp] theorem flushHeld_keys (s : State) (lo n : Nat) : (s.flushHeld lo n).keys = s.keys := rfl
@[simp] theorem flushHeld_cfg (s : State) (lo n : Nat) : (s.flushHeld lo n).cfg = s.cfg := rfl
@[simp] theorem flushHeld_sx (s : State) (lo n : Nat) : (s.flushHeld lo n).sx = s.sx := rfl
@[simp] theorem flushHeld_snap (s : State) (lo n : Nat) : (s.flushHeld lo n).snap = s.snap := rfl
@[simp] theorem flushHeld_pins (s : State) (lo n : Nat) : (s.flushHeld lo n).pins = s.pins := rfl
@[simp] theorem elapse_pending (s : State) (k : Nat) : (s.elapse k).pending = s.pending := rfl
@[simp] theorem elapse_regs (s : State) (k : Nat) : (s.elapse k).regs = s.regs := rfl
@[simp] theorem elapse_held (s : State) (k : Nat) : (s.elapse k).held = s.held := rfl
@[simp] theorem elapse_wpend (s : State) (k : Nat) : (s.elapse k).wpend = s.wpend := rfl
@[simp] theorem elapse_latch (s : State) (k : Nat) : (s.elapse k).latch = s.latch := rfl
@[simp] theorem elapse_fns (s : State) (k : Nat) : (s.elapse k).fns = s.fns := rfl
@[simp] theorem elapse_fnAt (s : State) (k : Nat) : (s.elapse k).fnAt = s.fnAt := rfl
@[simp] theorem elapse_evNow (s : State) (k : Nat) : (s.elapse k).evNow = s.evNow := rfl
@[simp] theorem elapse_out (s : State) (k : Nat) : (s.elapse k).out = s.out := rfl
@[simp] theorem elapse_fctr (s : State) (k : Nat) : (s.elapse k).fctr = s.fctr := rfl
@[simp] theorem elapse_log (s : State) (k : Nat) : (s.elapse k).log = s.log := rfl
@[simp] theorem elapse_isl (s : State) (k : Nat) : (s.elapse k).isl = s.isl := rfl
@[simp] theorem elapse_mer (s : State) (k : Nat) : (s.elapse k).mer = s.mer := rfl
@[simp] theorem elapse_ptp (s : State) (k : Nat) : (s.elapse k).ptp = s.ptp := rfl
@[simp] theorem elapse_ckg (s : State) (k : Nat) : (s.elapse k).ckg = s.ckg := rfl
@[simp] theorem elapse_ing (s : State) (k : Nat) : (s.elapse k).ing = s.ing := rfl
@[simp] theorem elapse_comp (s : State) (k : Nat) : (s.elapse k).comp = s.comp := rfl
@[simp] theorem elapse_hbm (s : State) (k : Nat) : (s.elapse k).hbm = s.hbm := rfl
@[simp] theorem elapse_enc (s : State) (k : Nat) : (s.elapse k).enc = s.enc := rfl
@[simp] theorem elapse_dis (s : State) (k : Nat) : (s.elapse k).dis = s.dis := rfl
@[simp] theorem elapse_egs (s : State) (k : Nat) : (s.elapse k).egs = s.egs := rfl
@[simp] theorem elapse_lne (s : State) (k : Nat) : (s.elapse k).lne = s.lne := rfl
@[simp] theorem elapse_links (s : State) (k : Nat) : (s.elapse k).links = s.links := rfl
@[simp] theorem elapse_twn (s : State) (k : Nat) : (s.elapse k).twn = s.twn := rfl
@[simp] theorem elapse_cnv (s : State) (k : Nat) : (s.elapse k).cnv = s.cnv := rfl
@[simp] theorem elapse_eth (s : State) (k : Nat) : (s.elapse k).eth = s.eth := rfl
@[simp] theorem elapse_aud (s : State) (k : Nat) : (s.elapse k).aud = s.aud := rfl
@[simp] theorem elapse_mon (s : State) (k : Nat) : (s.elapse k).mon = s.mon := rfl
@[simp] theorem elapse_cal (s : State) (k : Nat) : (s.elapse k).cal = s.cal := rfl
@[simp] theorem elapse_flash (s : State) (k : Nat) : (s.elapse k).flash = s.flash := rfl
@[simp] theorem elapse_souv (s : State) (k : Nat) : (s.elapse k).souv = s.souv := rfl
@[simp] theorem elapse_keys (s : State) (k : Nat) : (s.elapse k).keys = s.keys := rfl
@[simp] theorem elapse_cfg (s : State) (k : Nat) : (s.elapse k).cfg = s.cfg := rfl
@[simp] theorem elapse_sx (s : State) (k : Nat) : (s.elapse k).sx = s.sx := rfl
@[simp] theorem elapse_snap (s : State) (k : Nat) : (s.elapse k).snap = s.snap := rfl
@[simp] theorem elapse_pins (s : State) (k : Nat) : (s.elapse k).pins = s.pins := rfl
@[simp] theorem toNs_pending (s : State) (t : Nat) : (s.toNs t).pending = s.pending := rfl
@[simp] theorem toNs_regs (s : State) (t : Nat) : (s.toNs t).regs = s.regs := rfl
@[simp] theorem toNs_held (s : State) (t : Nat) : (s.toNs t).held = s.held := rfl
@[simp] theorem toNs_wpend (s : State) (t : Nat) : (s.toNs t).wpend = s.wpend := rfl
@[simp] theorem toNs_latch (s : State) (t : Nat) : (s.toNs t).latch = s.latch := rfl
@[simp] theorem toNs_fns (s : State) (t : Nat) : (s.toNs t).fns = s.fns := rfl
@[simp] theorem toNs_fnAt (s : State) (t : Nat) : (s.toNs t).fnAt = s.fnAt := rfl
@[simp] theorem toNs_evNow (s : State) (t : Nat) : (s.toNs t).evNow = s.evNow := rfl
@[simp] theorem toNs_out (s : State) (t : Nat) : (s.toNs t).out = s.out := rfl
@[simp] theorem toNs_fctr (s : State) (t : Nat) : (s.toNs t).fctr = s.fctr := rfl
@[simp] theorem toNs_log (s : State) (t : Nat) : (s.toNs t).log = s.log := rfl
@[simp] theorem toNs_isl (s : State) (t : Nat) : (s.toNs t).isl = s.isl := rfl
@[simp] theorem toNs_mer (s : State) (t : Nat) : (s.toNs t).mer = s.mer := rfl
@[simp] theorem toNs_ptp (s : State) (t : Nat) : (s.toNs t).ptp = s.ptp := rfl
@[simp] theorem toNs_ckg (s : State) (t : Nat) : (s.toNs t).ckg = s.ckg := rfl
@[simp] theorem toNs_ing (s : State) (t : Nat) : (s.toNs t).ing = s.ing := rfl
@[simp] theorem toNs_comp (s : State) (t : Nat) : (s.toNs t).comp = s.comp := rfl
@[simp] theorem toNs_hbm (s : State) (t : Nat) : (s.toNs t).hbm = s.hbm := rfl
@[simp] theorem toNs_enc (s : State) (t : Nat) : (s.toNs t).enc = s.enc := rfl
@[simp] theorem toNs_dis (s : State) (t : Nat) : (s.toNs t).dis = s.dis := rfl
@[simp] theorem toNs_egs (s : State) (t : Nat) : (s.toNs t).egs = s.egs := rfl
@[simp] theorem toNs_lne (s : State) (t : Nat) : (s.toNs t).lne = s.lne := rfl
@[simp] theorem toNs_links (s : State) (t : Nat) : (s.toNs t).links = s.links := rfl
@[simp] theorem toNs_twn (s : State) (t : Nat) : (s.toNs t).twn = s.twn := rfl
@[simp] theorem toNs_cnv (s : State) (t : Nat) : (s.toNs t).cnv = s.cnv := rfl
@[simp] theorem toNs_eth (s : State) (t : Nat) : (s.toNs t).eth = s.eth := rfl
@[simp] theorem toNs_aud (s : State) (t : Nat) : (s.toNs t).aud = s.aud := rfl
@[simp] theorem toNs_mon (s : State) (t : Nat) : (s.toNs t).mon = s.mon := rfl
@[simp] theorem toNs_cal (s : State) (t : Nat) : (s.toNs t).cal = s.cal := rfl
@[simp] theorem toNs_flash (s : State) (t : Nat) : (s.toNs t).flash = s.flash := rfl
@[simp] theorem toNs_souv (s : State) (t : Nat) : (s.toNs t).souv = s.souv := rfl
@[simp] theorem toNs_keys (s : State) (t : Nat) : (s.toNs t).keys = s.keys := rfl
@[simp] theorem toNs_cfg (s : State) (t : Nat) : (s.toNs t).cfg = s.cfg := rfl
@[simp] theorem toNs_sx (s : State) (t : Nat) : (s.toNs t).sx = s.sx := rfl
@[simp] theorem toNs_snap (s : State) (t : Nat) : (s.toNs t).snap = s.snap := rfl
@[simp] theorem toNs_pins (s : State) (t : Nat) : (s.toNs t).pins = s.pins := rfl
@[simp] theorem toStc_pending (s : State) (t : Nat) : (s.toStc t).pending = s.pending := rfl
@[simp] theorem toStc_regs (s : State) (t : Nat) : (s.toStc t).regs = s.regs := rfl
@[simp] theorem toStc_held (s : State) (t : Nat) : (s.toStc t).held = s.held := rfl
@[simp] theorem toStc_wpend (s : State) (t : Nat) : (s.toStc t).wpend = s.wpend := rfl
@[simp] theorem toStc_latch (s : State) (t : Nat) : (s.toStc t).latch = s.latch := rfl
@[simp] theorem toStc_fns (s : State) (t : Nat) : (s.toStc t).fns = s.fns := rfl
@[simp] theorem toStc_fnAt (s : State) (t : Nat) : (s.toStc t).fnAt = s.fnAt := rfl
@[simp] theorem toStc_evNow (s : State) (t : Nat) : (s.toStc t).evNow = s.evNow := rfl
@[simp] theorem toStc_out (s : State) (t : Nat) : (s.toStc t).out = s.out := rfl
@[simp] theorem toStc_fctr (s : State) (t : Nat) : (s.toStc t).fctr = s.fctr := rfl
@[simp] theorem toStc_log (s : State) (t : Nat) : (s.toStc t).log = s.log := rfl
@[simp] theorem toStc_isl (s : State) (t : Nat) : (s.toStc t).isl = s.isl := rfl
@[simp] theorem toStc_mer (s : State) (t : Nat) : (s.toStc t).mer = s.mer := rfl
@[simp] theorem toStc_ptp (s : State) (t : Nat) : (s.toStc t).ptp = s.ptp := rfl
@[simp] theorem toStc_ckg (s : State) (t : Nat) : (s.toStc t).ckg = s.ckg := rfl
@[simp] theorem toStc_ing (s : State) (t : Nat) : (s.toStc t).ing = s.ing := rfl
@[simp] theorem toStc_comp (s : State) (t : Nat) : (s.toStc t).comp = s.comp := rfl
@[simp] theorem toStc_hbm (s : State) (t : Nat) : (s.toStc t).hbm = s.hbm := rfl
@[simp] theorem toStc_enc (s : State) (t : Nat) : (s.toStc t).enc = s.enc := rfl
@[simp] theorem toStc_dis (s : State) (t : Nat) : (s.toStc t).dis = s.dis := rfl
@[simp] theorem toStc_egs (s : State) (t : Nat) : (s.toStc t).egs = s.egs := rfl
@[simp] theorem toStc_lne (s : State) (t : Nat) : (s.toStc t).lne = s.lne := rfl
@[simp] theorem toStc_links (s : State) (t : Nat) : (s.toStc t).links = s.links := rfl
@[simp] theorem toStc_twn (s : State) (t : Nat) : (s.toStc t).twn = s.twn := rfl
@[simp] theorem toStc_cnv (s : State) (t : Nat) : (s.toStc t).cnv = s.cnv := rfl
@[simp] theorem toStc_eth (s : State) (t : Nat) : (s.toStc t).eth = s.eth := rfl
@[simp] theorem toStc_aud (s : State) (t : Nat) : (s.toStc t).aud = s.aud := rfl
@[simp] theorem toStc_mon (s : State) (t : Nat) : (s.toStc t).mon = s.mon := rfl
@[simp] theorem toStc_cal (s : State) (t : Nat) : (s.toStc t).cal = s.cal := rfl
@[simp] theorem toStc_flash (s : State) (t : Nat) : (s.toStc t).flash = s.flash := rfl
@[simp] theorem toStc_souv (s : State) (t : Nat) : (s.toStc t).souv = s.souv := rfl
@[simp] theorem toStc_keys (s : State) (t : Nat) : (s.toStc t).keys = s.keys := rfl
@[simp] theorem toStc_cfg (s : State) (t : Nat) : (s.toStc t).cfg = s.cfg := rfl
@[simp] theorem toStc_sx (s : State) (t : Nat) : (s.toStc t).sx = s.sx := rfl
@[simp] theorem toStc_snap (s : State) (t : Nat) : (s.toStc t).snap = s.snap := rfl
@[simp] theorem toStc_pins (s : State) (t : Nat) : (s.toStc t).pins = s.pins := rfl

/-! ## Registers after updates that touch none -/

@[simp] theorem rd_begin (s : State) (r : Nat) : (s.begin).rd r = s.rd r := rfl
@[simp] theorem rdn_begin (s : State) (r : Nat) : (s.begin).rdn r = s.rdn r := rfl
@[simp] theorem f_begin (s : State) (y : Fld) : (s.begin).f y = s.f y := rfl
@[simp] theorem on_begin (s : State) (y : Fld) : (s.begin).on y = s.on y := rfl
@[simp] theorem rd_finish (s : State) (r : Nat) : (s.finish).rd r = s.rd r := rfl
@[simp] theorem rdn_finish (s : State) (r : Nat) : (s.finish).rdn r = s.rdn r := rfl
@[simp] theorem f_finish (s : State) (y : Fld) : (s.finish).f y = s.f y := rfl
@[simp] theorem on_finish (s : State) (y : Fld) : (s.finish).on y = s.on y := rfl
@[simp] theorem rd_emit (s : State) (o : Out) (r : Nat) : (s.emit o).rd r = s.rd r := rfl
@[simp] theorem rdn_emit (s : State) (o : Out) (r : Nat) : (s.emit o).rdn r = s.rdn r := rfl
@[simp] theorem f_emit (s : State) (o : Out) (y : Fld) : (s.emit o).f y = s.f y := rfl
@[simp] theorem on_emit (s : State) (o : Out) (y : Fld) : (s.emit o).on y = s.on y := rfl
@[simp] theorem rd_raise (s : State) (code detail : Nat) (r : Nat) : (s.raise code detail).rd r = s.rd r := rfl
@[simp] theorem rdn_raise (s : State) (code detail : Nat) (r : Nat) : (s.raise code detail).rdn r = s.rdn r := rfl
@[simp] theorem f_raise (s : State) (code detail : Nat) (y : Fld) : (s.raise code detail).f y = s.f y := rfl
@[simp] theorem on_raise (s : State) (code detail : Nat) (y : Fld) : (s.raise code detail).on y = s.on y := rfl
@[simp] theorem rd_refuse (s : State) (b : Nat) (r : Nat) : (s.refuse b).rd r = s.rd r := rfl
@[simp] theorem rdn_refuse (s : State) (b : Nat) (r : Nat) : (s.refuse b).rdn r = s.rdn r := rfl
@[simp] theorem f_refuse (s : State) (b : Nat) (y : Fld) : (s.refuse b).f y = s.f y := rfl
@[simp] theorem on_refuse (s : State) (b : Nat) (y : Fld) : (s.refuse b).on y = s.on y := rfl
@[simp] theorem rd_applyHeld (s : State) (a d : Nat) (r : Nat) : (s.applyHeld a d).rd r = s.rd r := rfl
@[simp] theorem rdn_applyHeld (s : State) (a d : Nat) (r : Nat) : (s.applyHeld a d).rdn r = s.rdn r := rfl
@[simp] theorem f_applyHeld (s : State) (a d : Nat) (y : Fld) : (s.applyHeld a d).f y = s.f y := rfl
@[simp] theorem on_applyHeld (s : State) (a d : Nat) (y : Fld) : (s.applyHeld a d).on y = s.on y := rfl
@[simp] theorem rd_flushHeld (s : State) (lo n : Nat) (r : Nat) : (s.flushHeld lo n).rd r = s.rd r := rfl
@[simp] theorem rdn_flushHeld (s : State) (lo n : Nat) (r : Nat) : (s.flushHeld lo n).rdn r = s.rdn r := rfl
@[simp] theorem f_flushHeld (s : State) (lo n : Nat) (y : Fld) : (s.flushHeld lo n).f y = s.f y := rfl
@[simp] theorem on_flushHeld (s : State) (lo n : Nat) (y : Fld) : (s.flushHeld lo n).on y = s.on y := rfl
@[simp] theorem rd_elapse (s : State) (k : Nat) (r : Nat) : (s.elapse k).rd r = s.rd r := rfl
@[simp] theorem rdn_elapse (s : State) (k : Nat) (r : Nat) : (s.elapse k).rdn r = s.rdn r := rfl
@[simp] theorem f_elapse (s : State) (k : Nat) (y : Fld) : (s.elapse k).f y = s.f y := rfl
@[simp] theorem on_elapse (s : State) (k : Nat) (y : Fld) : (s.elapse k).on y = s.on y := rfl
@[simp] theorem rd_toNs (s : State) (t : Nat) (r : Nat) : (s.toNs t).rd r = s.rd r := rfl
@[simp] theorem rdn_toNs (s : State) (t : Nat) (r : Nat) : (s.toNs t).rdn r = s.rdn r := rfl
@[simp] theorem f_toNs (s : State) (t : Nat) (y : Fld) : (s.toNs t).f y = s.f y := rfl
@[simp] theorem on_toNs (s : State) (t : Nat) (y : Fld) : (s.toNs t).on y = s.on y := rfl
@[simp] theorem rd_toStc (s : State) (t : Nat) (r : Nat) : (s.toStc t).rd r = s.rd r := rfl
@[simp] theorem rdn_toStc (s : State) (t : Nat) (r : Nat) : (s.toStc t).rdn r = s.rdn r := rfl
@[simp] theorem f_toStc (s : State) (t : Nat) (y : Fld) : (s.toStc t).f y = s.f y := rfl
@[simp] theorem on_toStc (s : State) (t : Nat) (y : Fld) : (s.toStc t).on y = s.on y := rfl
@[simp] theorem fn_begin (s : State) (g : Nat) : (s.begin).fn g = s.fn g := rfl
@[simp] theorem active_begin (s : State) (g : Nat) : (s.begin).active g = s.active g := rfl
@[simp] theorem ready_begin (s : State) (g : Nat) : (s.begin).ready g = s.ready g := rfl
@[simp] theorem fn_finish (s : State) (g : Nat) : (s.finish).fn g = s.fn g := rfl
@[simp] theorem active_finish (s : State) (g : Nat) : (s.finish).active g = s.active g := rfl
@[simp] theorem ready_finish (s : State) (g : Nat) : (s.finish).ready g = s.ready g := rfl
@[simp] theorem fn_wr (s : State) (a : Nat) (v : Word) (g : Nat) : (s.wr a v).fn g = s.fn g := rfl
@[simp] theorem active_wr (s : State) (a : Nat) (v : Word) (g : Nat) : (s.wr a v).active g = s.active g := rfl
@[simp] theorem ready_wr (s : State) (a : Nat) (v : Word) (g : Nat) : (s.wr a v).ready g = s.ready g := rfl
@[simp] theorem fn_wrn (s : State) (a n : Nat) (g : Nat) : (s.wrn a n).fn g = s.fn g := rfl
@[simp] theorem active_wrn (s : State) (a n : Nat) (g : Nat) : (s.wrn a n).active g = s.active g := rfl
@[simp] theorem ready_wrn (s : State) (a n : Nat) (g : Nat) : (s.wrn a n).ready g = s.ready g := rfl
@[simp] theorem fn_setF (s : State) (x : Fld) (v : Nat) (g : Nat) : (s.setF x v).fn g = s.fn g := rfl
@[simp] theorem active_setF (s : State) (x : Fld) (v : Nat) (g : Nat) : (s.setF x v).active g = s.active g := rfl
@[simp] theorem ready_setF (s : State) (x : Fld) (v : Nat) (g : Nat) : (s.setF x v).ready g = s.ready g := rfl
@[simp] theorem fn_bump (s : State) (a : Nat) (g : Nat) : (s.bump a).fn g = s.fn g := rfl
@[simp] theorem active_bump (s : State) (a : Nat) (g : Nat) : (s.bump a).active g = s.active g := rfl
@[simp] theorem ready_bump (s : State) (a : Nat) (g : Nat) : (s.bump a).ready g = s.ready g := rfl
@[simp] theorem fn_bumpBy (s : State) (a n : Nat) (g : Nat) : (s.bumpBy a n).fn g = s.fn g := rfl
@[simp] theorem active_bumpBy (s : State) (a n : Nat) (g : Nat) : (s.bumpBy a n).active g = s.active g := rfl
@[simp] theorem ready_bumpBy (s : State) (a n : Nat) (g : Nat) : (s.bumpBy a n).ready g = s.ready g := rfl
@[simp] theorem fn_wr64 (s : State) (lo hi n : Nat) (g : Nat) : (s.wr64 lo hi n).fn g = s.fn g := rfl
@[simp] theorem active_wr64 (s : State) (lo hi n : Nat) (g : Nat) : (s.wr64 lo hi n).active g = s.active g := rfl
@[simp] theorem ready_wr64 (s : State) (lo hi n : Nat) (g : Nat) : (s.wr64 lo hi n).ready g = s.ready g := rfl
@[simp] theorem fn_emit (s : State) (o : Out) (g : Nat) : (s.emit o).fn g = s.fn g := rfl
@[simp] theorem active_emit (s : State) (o : Out) (g : Nat) : (s.emit o).active g = s.active g := rfl
@[simp] theorem ready_emit (s : State) (o : Out) (g : Nat) : (s.emit o).ready g = s.ready g := rfl
@[simp] theorem fn_raise (s : State) (code detail : Nat) (g : Nat) : (s.raise code detail).fn g = s.fn g := rfl
@[simp] theorem active_raise (s : State) (code detail : Nat) (g : Nat) : (s.raise code detail).active g = s.active g := rfl
@[simp] theorem ready_raise (s : State) (code detail : Nat) (g : Nat) : (s.raise code detail).ready g = s.ready g := rfl
@[simp] theorem fn_refuse (s : State) (b : Nat) (g : Nat) : (s.refuse b).fn g = s.fn g := rfl
@[simp] theorem active_refuse (s : State) (b : Nat) (g : Nat) : (s.refuse b).active g = s.active g := rfl
@[simp] theorem ready_refuse (s : State) (b : Nat) (g : Nat) : (s.refuse b).ready g = s.ready g := rfl
@[simp] theorem fn_stage (s : State) (a : Nat) (v : Word) (p : Nat) (g : Nat) : (s.stage a v p).fn g = s.fn g := rfl
@[simp] theorem active_stage (s : State) (a : Nat) (v : Word) (p : Nat) (g : Nat) : (s.stage a v p).active g = s.active g := rfl
@[simp] theorem ready_stage (s : State) (a : Nat) (v : Word) (p : Nat) (g : Nat) : (s.stage a v p).ready g = s.ready g := rfl
@[simp] theorem fn_applyHeld (s : State) (a d : Nat) (g : Nat) : (s.applyHeld a d).fn g = s.fn g := rfl
@[simp] theorem active_applyHeld (s : State) (a d : Nat) (g : Nat) : (s.applyHeld a d).active g = s.active g := rfl
@[simp] theorem ready_applyHeld (s : State) (a d : Nat) (g : Nat) : (s.applyHeld a d).ready g = s.ready g := rfl
@[simp] theorem fn_flushHeld (s : State) (lo n : Nat) (g : Nat) : (s.flushHeld lo n).fn g = s.fn g := rfl
@[simp] theorem active_flushHeld (s : State) (lo n : Nat) (g : Nat) : (s.flushHeld lo n).active g = s.active g := rfl
@[simp] theorem ready_flushHeld (s : State) (lo n : Nat) (g : Nat) : (s.flushHeld lo n).ready g = s.ready g := rfl
@[simp] theorem fn_elapse (s : State) (k : Nat) (g : Nat) : (s.elapse k).fn g = s.fn g := rfl
@[simp] theorem active_elapse (s : State) (k : Nat) (g : Nat) : (s.elapse k).active g = s.active g := rfl
@[simp] theorem ready_elapse (s : State) (k : Nat) (g : Nat) : (s.elapse k).ready g = s.ready g := rfl
@[simp] theorem fn_toNs (s : State) (t : Nat) (g : Nat) : (s.toNs t).fn g = s.fn g := rfl
@[simp] theorem active_toNs (s : State) (t : Nat) (g : Nat) : (s.toNs t).active g = s.active g := rfl
@[simp] theorem ready_toNs (s : State) (t : Nat) (g : Nat) : (s.toNs t).ready g = s.ready g := rfl
@[simp] theorem fn_toStc (s : State) (t : Nat) (g : Nat) : (s.toStc t).fn g = s.fn g := rfl
@[simp] theorem active_toStc (s : State) (t : Nat) (g : Nat) : (s.toStc t).active g = s.active g := rfl
@[simp] theorem ready_toStc (s : State) (t : Nat) (g : Nat) : (s.toStc t).ready g = s.ready g := rfl

/-! ## Bit fields -/

theorem setBits_eq (n hi lo v : Nat) :
    setBits n hi lo v = n % 2 ^ lo + (v % 2 ^ (hi + 1 - lo) + n / 2 ^ (lo + (hi + 1 - lo)) * 2 ^ (hi + 1 - lo)) * 2 ^ lo := by
  unfold setBits
  rw [Nat.add_mul, Nat.mul_assoc, ← Nat.pow_add, Nat.add_comm (hi + 1 - lo) lo, ← Nat.add_assoc]

theorem bitsOf_setBits_same (n hi lo v : Nat) : bitsOf (setBits n hi lo v) hi lo = v % 2 ^ (hi + 1 - lo) := by
  rw [setBits_eq]
  unfold bitsOf
  have h0 : 0 < 2 ^ lo := Nat.two_pow_pos lo
  rw [Nat.add_mul_div_right _ _ h0, Nat.div_eq_of_lt (Nat.mod_lt _ h0), Nat.zero_add, Nat.add_mul_mod_self_right, Nat.mod_mod]

theorem bitsOf_above (n hi lo v hi' lo' : Nat) (hl : lo ≤ hi) (h : hi < lo') : bitsOf (setBits n hi lo v) hi' lo' = bitsOf n hi' lo' := by
  have hd : setBits n hi lo v / 2 ^ (lo + (hi + 1 - lo)) = n / 2 ^ (lo + (hi + 1 - lo)) := by
    have hA : n % 2 ^ lo < 2 ^ lo := Nat.mod_lt _ (Nat.two_pow_pos lo)
    have hB : v % 2 ^ (hi + 1 - lo) < 2 ^ (hi + 1 - lo) := Nat.mod_lt _ (Nat.two_pow_pos _)
    have hAB : n % 2 ^ lo + v % 2 ^ (hi + 1 - lo) * 2 ^ lo < 2 ^ (lo + (hi + 1 - lo)) := by
      have : v % 2 ^ (hi + 1 - lo) * 2 ^ lo + 2 ^ lo ≤ 2 ^ (lo + (hi + 1 - lo)) := by
        rw [Nat.pow_add, Nat.mul_comm (2 ^ lo), ← Nat.succ_mul]
        exact Nat.mul_le_mul_right _ hB
      omega
    unfold setBits
    rw [Nat.add_mul_div_right _ _ (Nat.two_pow_pos _), Nat.div_eq_of_lt hAB, Nat.zero_add]
  unfold bitsOf
  obtain ⟨k, rfl⟩ : ∃ k, lo' = lo + (hi + 1 - lo) + k := ⟨lo' - (hi + 1), by omega⟩
  rw [Nat.pow_add 2 (lo + (hi + 1 - lo)) k, ← Nat.div_div_eq_div_mul, ← Nat.div_div_eq_div_mul, hd]

theorem bitsOf_mod (n hi lo m : Nat) (h : hi < m) : bitsOf (n % 2 ^ m) hi lo = bitsOf n hi lo := by
  unfold bitsOf
  rcases Nat.lt_or_ge hi lo with hlt | hge
  · have : hi + 1 - lo = 0 := by omega
    simp [this, Nat.mod_one]
  · obtain ⟨k, rfl⟩ : ∃ k, m = lo + (hi + 1 - lo) + k := ⟨m - (hi + 1), by omega⟩
    rw [Nat.add_assoc, Nat.pow_add 2 lo, Nat.mod_mul_right_div_self, Nat.pow_add, Nat.mod_mul_right_mod]

theorem bitsOf_below (n hi lo v hi' lo' : Nat) (h : hi' < lo) : bitsOf (setBits n hi lo v) hi' lo' = bitsOf n hi' lo' := by
  rw [← bitsOf_mod (setBits n hi lo v) hi' lo' lo h, ← bitsOf_mod n hi' lo' lo h, setBits_eq, Nat.add_mul_mod_self_right, Nat.mod_mod]

/-! ## Registers after updates of registers -/

@[simp] theorem rd_wr_same (s : State) (a : Nat) (v : Word) : (s.wr a v).rd a = v := by simp [State.rd, State.wr]
theorem rd_wr_ne (s : State) {a b : Nat} (v : Word) (h : b ≠ a) : (s.wr a v).rd b = s.rd b := Tab.get_put_ne _ _ _ h
theorem rd_wr (s : State) (a b : Nat) (v : Word) : (s.wr a v).rd b = if b = a then v else s.rd b := Tab.get_put _ _ _ _ _
@[simp] theorem rdn_wr_same (s : State) (a : Nat) (v : Word) : (s.wr a v).rdn a = v.toNat := by simp [State.rdn]
theorem rdn_wr_ne (s : State) {a b : Nat} (v : Word) (h : b ≠ a) : (s.wr a v).rdn b = s.rdn b := by simp [State.rdn, rd_wr_ne s v h]
@[simp] theorem rd_wrn_same (s : State) (a n : Nat) : (s.wrn a n).rd a = BitVec.ofNat 32 n := by simp [State.wrn]
theorem rd_wrn_ne (s : State) {a b : Nat} (n : Nat) (h : b ≠ a) : (s.wrn a n).rd b = s.rd b := rd_wr_ne s _ h
@[simp] theorem rdn_wrn_same (s : State) (a n : Nat) : (s.wrn a n).rdn a = n % 2 ^ 32 := by simp [State.wrn]
theorem rdn_wrn_ne (s : State) {a b : Nat} (n : Nat) (h : b ≠ a) : (s.wrn a n).rdn b = s.rdn b := rdn_wr_ne s _ h
theorem rd_setF_ne (s : State) {x : Fld} {b : Nat} (v : Nat) (h : b ≠ x.addr) : (s.setF x v).rd b = s.rd b := rd_wrn_ne s _ h
theorem rdn_setF_ne (s : State) {x : Fld} {b : Nat} (v : Nat) (h : b ≠ x.addr) : (s.setF x v).rdn b = s.rdn b := rdn_wrn_ne s _ h
theorem rd_bump_ne (s : State) {a b : Nat} (h : b ≠ a) : (s.bump a).rd b = s.rd b := rd_wrn_ne s _ h
theorem rdn_bump_ne (s : State) {a b : Nat} (h : b ≠ a) : (s.bump a).rdn b = s.rdn b := rdn_wrn_ne s _ h
@[simp] theorem rdn_bump_same (s : State) (a : Nat) : (s.bump a).rdn a = (s.rdn a + 1) % 2 ^ 32 := by simp [State.bump]
@[simp] theorem rdn_bumpBy_same (s : State) (a n : Nat) : (s.bumpBy a n).rdn a = (s.rdn a + n) % 2 ^ 32 := by simp [State.bumpBy]
theorem rd_bumpBy_ne (s : State) {a b : Nat} (n : Nat) (h : b ≠ a) : (s.bumpBy a n).rd b = s.rd b := rd_wrn_ne s _ h

theorem rdn_lt (s : State) (a : Nat) : s.rdn a < 2 ^ 32 := (s.rd a).isLt

/-! ## Fields after updates of registers -/

theorem f_wr_ne (s : State) {a : Nat} {y : Fld} (v : Word) (h : y.addr ≠ a) : (s.wr a v).f y = s.f y := by simp [State.f, rdn_wr_ne s v h]
theorem f_wrn_ne (s : State) {a : Nat} {y : Fld} (n : Nat) (h : y.addr ≠ a) : (s.wrn a n).f y = s.f y := f_wr_ne s _ h
theorem f_bump_ne (s : State) {a : Nat} {y : Fld} (h : y.addr ≠ a) : (s.bump a).f y = s.f y := f_wr_ne s _ h
theorem f_setF_addr (s : State) {x y : Fld} (v : Nat) (h : y.addr ≠ x.addr) : (s.setF x v).f y = s.f y := f_wrn_ne s _ h
theorem on_setF_addr (s : State) {x y : Fld} (v : Nat) (h : y.addr ≠ x.addr) : (s.setF x v).on y = s.on y := by
  simp [State.on, f_setF_addr s v h]
theorem on_wrn_ne (s : State) {a : Nat} {y : Fld} (n : Nat) (h : y.addr ≠ a) : (s.wrn a n).on y = s.on y := by simp [State.on, f_wrn_ne s n h]
theorem on_wr_ne (s : State) {a : Nat} {y : Fld} (v : Word) (h : y.addr ≠ a) : (s.wr a v).on y = s.on y := by simp [State.on, f_wr_ne s v h]
theorem on_bump_ne (s : State) {a : Nat} {y : Fld} (h : y.addr ≠ a) : (s.bump a).on y = s.on y := by simp [State.on, f_bump_ne s h]

/-- A field reads what was set, modulo its width. -/
theorem f_setF_same (s : State) (x : Fld) (v : Nat) (h : x.hi < 32) : (s.setF x v).f x = v % 2 ^ (x.hi + 1 - x.lo) := by
  simp only [State.f, State.setF, rdn_wrn_same]
  rw [bitsOf_mod _ _ _ _ h, bitsOf_setBits_same]

/-- Another field of the same register is unchanged. -/
theorem f_setF_bits (s : State) {x y : Fld} (v : Nat) (ha : y.addr = x.addr) (hx : x.lo ≤ x.hi) (hy : y.hi < 32)
    (h : x.hi < y.lo ∨ y.hi < x.lo) : (s.setF x v).f y = s.f y := by
  simp only [State.f, State.setF, ha, rdn_wrn_same]
  rw [bitsOf_mod _ _ _ _ hy]
  rcases h with h | h
  · exact bitsOf_above _ _ _ _ _ _ hx h
  · exact bitsOf_below _ _ _ _ _ _ h


end Sys2Proof.Machine
end

