-- ==== Sys2Proof/Laws/Bus.lean ====
section
/-!
SUPPORT. Sys2Proof/Laws/Bus.lean: what a register write does once and for all: the word a write leaves, field by field (R4), and the way of an accepted
write to the unit's own rule or to the register.
-/

namespace Sys2Proof.Machine

/-! ## The word a write leaves -/

/-- No two fields of a list share a bit, and each lies in a word. -/
def fieldsApart : List FieldDef → Bool
  | [] => true
  | x :: r => decide (x.lo ≤ x.hi) && decide (x.hi < 32) && r.all (fun y => decide (x.hi < y.lo) || decide (y.hi < x.lo)) && fieldsApart r

theorem fieldNew_lt (act : Bool) (x : FieldDef) (old new : Nat) : fieldNew act x old new < 2 ^ (x.hi + 1 - x.lo) := by
  have h (n : Nat) : bitsOf n x.hi x.lo < 2 ^ (x.hi + 1 - x.lo) := Nat.mod_lt _ (Nat.two_pow_pos _)
  have h0 : 0 < 2 ^ (x.hi + 1 - x.lo) := Nat.two_pow_pos _
  unfold fieldNew
  cases x.acc <;> simp only
  · exact h _
  · exact h _
  · exact Nat.lt_of_le_of_lt (Nat.sub_le _ _) (h _)
  · exact Nat.or_lt_two_pow (h _) (h _)
  · split
    · exact h _
    · exact h0
  · exact h _
  · exact h _

theorem setBits_of_zero {t hi lo n : Nat} (hz : bitsOf t hi lo = 0) (hn : n < 2 ^ (hi + 1 - lo)) : t + n * 2 ^ lo = setBits t hi lo n := by
  rw [setBits_eq, Nat.mod_eq_of_lt hn]
  unfold bitsOf at hz
  have h1 : t = t % 2 ^ lo + t / 2 ^ lo * 2 ^ lo := by
    have := Nat.mod_add_div t (2 ^ lo)
    rw [Nat.mul_comm] at this
    exact this.symm
  have h2 : t / 2 ^ lo = t / 2 ^ (lo + (hi + 1 - lo)) * 2 ^ (hi + 1 - lo) := by
    have := Nat.mod_add_div (t / 2 ^ lo) (2 ^ (hi + 1 - lo))
    rw [hz, Nat.zero_add, Nat.div_div_eq_div_mul, ← Nat.pow_add, Nat.mul_comm] at this
    exact this.symm
  rw [Nat.add_mul, ← h2]
  omega

/-- What a fold of `mergeWord` leaves in a range of bits that none of its fields touches. -/
theorem merge_other (act : Bool) (old new : Nat) (fs : List FieldDef) (t hi lo : Nat)
    (hf : fieldsApart fs = true) (hz : ∀ x ∈ fs, bitsOf t x.hi x.lo = 0) (ho : ∀ x ∈ fs, x.hi < lo ∨ hi < x.lo) :
    bitsOf (fs.foldl (fun t x => t + fieldNew act x old new * 2 ^ x.lo) t) hi lo = bitsOf t hi lo := by
  induction fs generalizing t with
  | nil => rfl
  | cons x r ih =>
    simp only [fieldsApart, Bool.and_eq_true, decide_eq_true_eq, List.all_eq_true, Bool.or_eq_true] at hf
    obtain ⟨⟨⟨h1, h2⟩, h3⟩, h4⟩ := hf
    have hx := hz x (by simp)
    simp only [List.foldl]
    rw [setBits_of_zero hx (fieldNew_lt act x old new), ih _ h4]
    · rcases ho x (by simp) with h | h
      · exact bitsOf_above _ _ _ _ _ _ h1 h
      · exact bitsOf_below _ _ _ _ _ _ h
    · intro y hy
      have := hz y (by simp [hy])
      rcases h3 y hy with h | h
      · rw [bitsOf_above _ _ _ _ _ _ h1 h, this]
      · rw [bitsOf_below _ _ _ _ _ _ h, this]
    · exact fun y hy => ho y (by simp [hy])

theorem merge_same (act : Bool) (old new : Nat) (fs : List FieldDef) (t : Nat) (hf : fieldsApart fs = true)
    (hz : ∀ x ∈ fs, bitsOf t x.hi x.lo = 0) (x : FieldDef) (hx : x ∈ fs) :
    bitsOf (fs.foldl (fun t x => t + fieldNew act x old new * 2 ^ x.lo) t) x.hi x.lo = fieldNew act x old new := by
  induction fs generalizing t with
  | nil => simp at hx
  | cons y r ih =>
    have hf' := hf
    simp only [fieldsApart, Bool.and_eq_true, decide_eq_true_eq, List.all_eq_true, Bool.or_eq_true] at hf
    obtain ⟨⟨⟨h1, h2⟩, h3⟩, h4⟩ := hf
    simp only [List.foldl]
    have hz' : ∀ z ∈ r, bitsOf (t + fieldNew act y old new * 2 ^ y.lo) z.hi z.lo = 0 := by
      intro z hzr
      rw [setBits_of_zero (hz y (by simp)) (fieldNew_lt act y old new)]
      rcases h3 z hzr with h | h
      · rw [bitsOf_above _ _ _ _ _ _ h1 h, hz z (by simp [hzr])]
      · rw [bitsOf_below _ _ _ _ _ _ h, hz z (by simp [hzr])]
    rcases List.mem_cons.1 hx with rfl | hxr
    · rw [merge_other act old new r _ _ _ h4 hz' (fun z hzr => by rcases h3 z hzr with h | h; exact .inr h; exact .inl h)]
      rw [setBits_of_zero (hz x (by simp)) (fieldNew_lt act x old new), bitsOf_setBits_same, Nat.mod_eq_of_lt (fieldNew_lt _ _ _ _)]
    · exact ih _ h4 hz' hxr

/-- A field of the word that a write leaves (R4). -/
theorem bitsOf_mergeWord (act : Bool) {fs : List FieldDef} (old new : Nat) (hf : fieldsApart fs = true) (x : FieldDef) (hx : x ∈ fs) :
    bitsOf (mergeWord act fs old new) x.hi x.lo = fieldNew act x old new :=
  merge_same act old new fs 0 hf (fun x _ => by simp [bitsOf]) x hx

/-- The same, read from the 32-bit word. -/
theorem bitsOf_mergeWord32 (act : Bool) {fs : List FieldDef} (old new : Nat) (hf : fieldsApart fs = true) (x : FieldDef) (hx : x ∈ fs) :
    bitsOf (BitVec.ofNat 32 (mergeWord act fs old new)).toNat x.hi x.lo = fieldNew act x old new := by
  have hlt : x.hi < 32 := by
    clear old new act
    induction fs with
    | nil => simp at hx
    | cons y r ih =>
      simp only [fieldsApart, Bool.and_eq_true, decide_eq_true_eq] at hf
      rcases List.mem_cons.1 hx with rfl | h
      · exact hf.1.1.2
      · exact ih hf.2 h
  rw [BitVec.toNat_ofNat, bitsOf_mod _ _ _ _ hlt, bitsOf_mergeWord act old new hf x hx]

/-! ## An accepted write -/

theorem dead_of_dark {s : State} (h : s.dark = false) : s.isl.dead = false := by
  simp only [State.dark, Bool.or_eq_false_iff] at h
  exact h.2

/-- A register write by a host's path reaches the register (R440). -/
theorem busWrite_reg {s : State} {path : BusPath} {a : Nat} (v : Word) (hp : path ≠ .service) (hd : s.dark = false) (ha : a % 4 = 0)
    (hlt : a < 0x1A0000) : s.busWrite path a v 4 = s.regWrite path a v := by
  have hdead : s.isl.dead = false := by
    simp only [State.dark, Bool.or_eq_false_iff] at hd
    exact hd.2
  have h4 : a / 4 * 4 = a := by omega
  simp [State.busWrite, hdead, hp, hd, ha, h4, hlt]

/-- An accepted write of a register of one word, whose unit has a rule of its own. -/
theorem regWrite_unit {s t : State} {path : BusPath} {a : Nat} {v : Word} {d : RegDef} (hd : regDef a = some d)
    (hl : d.fields.any (fun x => x.acc == .rwl) = false) (hf : fieldsOk d.fields (s.oldWord path a) v.toNat = true)
    (hw : wideOf wideWrites a = none) (hn : latInput a = false)
    (hu : s.unitReg path a (BitVec.ofNat 32 (mergeWord true d.fields (s.oldWord path a) v.toNat)) v = some t) :
    s.regWrite path a v = t := by
  simp [State.regWrite, hd, hl, hf, hn, State.writeWord, hw, hu]

/-- An accepted write of a register of one word, where the unit has no rule of its own and nothing holds the row. -/
theorem regWrite_plain {s : State} {path : BusPath} {a : Nat} {v : Word} {d : RegDef} (hd : regDef a = some d)
    (hl : d.fields.any (fun x => x.acc == .rwl) = false) (hf : fieldsOk d.fields (s.oldWord path a) v.toNat = true)
    (hw : wideOf wideWrites a = none) (hn : latInput a = false)
    (hu : s.unitReg path a (BitVec.ofNat 32 (mergeWord true d.fields (s.oldWord path a) v.toNat)) v = none) (hh : s.heldRow d a = false) :
    s.regWrite path a v = s.wrn a (mergeWord false d.fields (s.oldWord path a) v.toNat) := by
  simp [State.regWrite, hd, hl, hf, hn, State.writeWord, hw, hu, hh]

/-! ## A control register written with one field changed -/

theorem bitsOf_ctl_same (n hi lo v : Nat) (h : hi < 32) : bitsOf (BitVec.ofNat 32 (setBits n hi lo v)).toNat hi lo = v % 2 ^ (hi + 1 - lo) := by
  rw [BitVec.toNat_ofNat, bitsOf_mod _ _ _ _ h, bitsOf_setBits_same]

theorem bitsOf_ctl_other (n hi lo v hi' lo' : Nat) (h1 : lo ≤ hi) (h2 : hi' < 32) (h : hi < lo' ∨ hi' < lo) :
    bitsOf (BitVec.ofNat 32 (setBits n hi lo v)).toNat hi' lo' = bitsOf n hi' lo' := by
  rw [BitVec.toNat_ofNat, bitsOf_mod _ _ _ _ h2]
  rcases h with h | h
  · exact bitsOf_above _ _ _ _ _ _ h1 h
  · exact bitsOf_below _ _ _ _ _ _ h

theorem fieldsOk_any {fs : List FieldDef} (h : fs.all (fun x => x.rng == .any || !(x.sets || x.acc == .wo)) = true) (old new : Nat) : fieldsOk fs old new = true := by
  simp only [fieldsOk, List.all_eq_true] at *
  intro x hx
  have := h x hx
  simp only [Bool.or_eq_true, beq_iff_eq] at this ⊢
  rcases this with h | h
  · exact .inr (by simp [h, rngOk])
  · exact .inl (.inl h)

/-- A write that changes one field passes R7 where that field takes any value and no other field shares its bits. -/
theorem fieldsOk_ctl {fs : List FieldDef} (n hi lo v : Nat) (hlo : lo ≤ hi)
    (h : fs.all (fun y => y.rng == .any || !(y.sets || y.acc == .wo) ||
      (y.acc != .wo && decide (y.hi < 32) && (decide (hi < y.lo) || decide (y.hi < lo)))) = true) :
    fieldsOk fs n (BitVec.ofNat 32 (setBits n hi lo v)).toNat = true := by
  simp only [fieldsOk, List.all_eq_true] at *
  intro x hx
  have := h x hx
  simp only [Bool.or_eq_true, beq_iff_eq, bne_iff_ne, Bool.and_eq_true, decide_eq_true_eq] at this ⊢
  rcases this with (h | h) | h
  · exact .inr (by simp [h, rngOk])
  · exact .inl (.inl h)
  · refine .inl (.inr ?_)
    rw [if_neg h.1.1, bitsOf_ctl_other n hi lo v x.hi x.lo hlo h.1.2 h.2]

/-- A control register of the host's path, written with one field changed, reaches its unit's rule. -/
theorem ctlWrite_unit {s t : State} {x : Fld} {v : Nat} {d : RegDef} (hk : s.dark = false) (ha : x.addr % 4 = 0 ∧ x.addr < 0x1A0000)
    (hd : regDef x.addr = some d) (hl : d.fields.any (fun x => x.acc == .rwl) = false)
    (hf : fieldsOk d.fields (s.oldWord .pcie x.addr) (BitVec.ofNat 32 (setBits (s.rdn x.addr) x.hi x.lo v)).toNat = true)
    (hw : wideOf wideWrites x.addr = none) (hn : latInput x.addr = false)
    (hu : s.unitReg .pcie x.addr (BitVec.ofNat 32 (mergeWord true d.fields (s.oldWord .pcie x.addr)
      (BitVec.ofNat 32 (setBits (s.rdn x.addr) x.hi x.lo v)).toNat)) (BitVec.ofNat 32 (setBits (s.rdn x.addr) x.hi x.lo v)) = some t) :
    s.ctlWrite x v = t := by
  unfold State.ctlWrite
  rw [busWrite_reg _ (by decide) hk ha.1 ha.2]
  exact regWrite_unit hd hl hf hw hn hu

/-- The changed field of the word that reaches the rule. -/
theorem ctl_act_same {fs : List FieldDef} (old n hi lo v : Nat) (y : FieldDef) (hy : y ∈ fs) (hs : y.hi = hi ∧ y.lo = lo) (h32 : hi < 32)
    (hf : fieldsApart fs = true) (ha : y.acc = .wo ∨ y.acc = .rw ∨ y.acc = .rwl) :
    bitsOf (BitVec.ofNat 32 (mergeWord true fs old (BitVec.ofNat 32 (setBits n hi lo v)).toNat)).toNat hi lo = v % 2 ^ (hi + 1 - lo) := by
  obtain ⟨rfl, rfl⟩ := hs
  rw [bitsOf_mergeWord32 true old _ hf y hy]
  rcases ha with ha | ha | ha <;> simp only [fieldNew, ha, ↓reduceIte] <;> exact bitsOf_ctl_same _ _ _ _ h32

/-- Another writable field of the word that reaches the rule. -/
theorem ctl_act_other {fs : List FieldDef} (old n hi lo v : Nat) (y : FieldDef) (hy : y ∈ fs) (hlo : lo ≤ hi) (h32 : y.hi < 32)
    (hs : hi < y.lo ∨ y.hi < lo) (hf : fieldsApart fs = true) (ha : y.acc = .wo ∨ y.acc = .rw ∨ y.acc = .rwl) :
    bitsOf (BitVec.ofNat 32 (mergeWord true fs old (BitVec.ofNat 32 (setBits n hi lo v)).toNat)).toNat y.hi y.lo = bitsOf n y.hi y.lo := by
  rw [bitsOf_mergeWord32 true old _ hf y hy]
  rcases ha with ha | ha | ha <;> simp only [fieldNew, ha, ↓reduceIte] <;> exact bitsOf_ctl_other _ _ _ _ _ _ hlo h32 hs

end Sys2Proof.Machine
end

