-- ==== Sys2Proof/Laws/Mem.lean ====
section
/-!
SUPPORT. Sys2Proof/Laws/Mem.lean: the laws of the HBM stacks as memory: what a byte reads after a write, and that every operation on memory keeps
its canonical form; the same form for the flash.
-/

namespace Sys2Proof.Machine

theorem inHole_mod (a : Nat) : inHole (a % 2 ^ 38) = inHole a := by
  simp only [inHole]
  congr 2
  omega

/-! ## Reads after writes -/

/-- A byte that exists reads what was written to it. -/
theorem hbmByte_hbmSet_same (s : State) (a : Nat) (b : Byte) (h : inHole a = false) : (s.hbmSet a b).hbmByte a = b := by
  simp [State.hbmByte, State.hbmSet, h]

/-- A write leaves every other byte as it was. -/
theorem hbmByte_hbmSet_ne (s : State) (a c : Nat) (b : Byte) (h : c % 2 ^ 38 ≠ a % 2 ^ 38) : (s.hbmSet a b).hbmByte c = s.hbmByte c := by
  unfold State.hbmSet
  split
  · rfl
  · simp only [State.hbmByte]
    rw [Tab.get_put_ne _ _ _ h]

/-- A byte outside a written list is as it was. -/
theorem hbmByte_hbmPutBytes_ne (l : List Nat) (s : State) (a c : Nat) (hc : c < 2 ^ 38) (ha : a + l.length ≤ 2 ^ 38) (h : c < a ∨ a + l.length ≤ c) :
    (s.hbmPutBytes a l).hbmByte c = s.hbmByte c := by
  induction l generalizing s a with
  | nil => rfl
  | cons b r ih =>
    simp only [List.length_cons] at ha h
    rw [State.hbmPutBytes, ih _ _ (by omega) (by omega), hbmByte_hbmSet_ne]
    omega

/-- Byte `i` of a written list reads what the list holds there. -/
theorem hbmByte_hbmPutBytes_get (l : List Nat) (s : State) (a i : Nat) (ha : a + l.length ≤ 2 ^ 38) (hi : i < l.length) (hh : inHole (a + i) = false) :
    (s.hbmPutBytes a l).hbmByte (a + i) = BitVec.ofNat 8 (l.getD i 0) := by
  induction l generalizing s a i with
  | nil => simp at hi
  | cons b r ih =>
    simp only [List.length_cons] at ha hi
    cases i with
    | zero =>
      rw [State.hbmPutBytes, hbmByte_hbmPutBytes_ne r _ _ _ (by omega) (by omega) (by omega)]
      simpa using hbmByte_hbmSet_same s a _ hh
    | succ i =>
      have e : a + (i + 1) = a + 1 + i := by omega
      rw [State.hbmPutBytes, e, ih _ _ _ (by omega) (by omega) (by rwa [← e])]
      simp

/-! ## The canonical form -/

theorem Tab.put_mem {α : Type} [DecidableEq α] (d : Nat → α) (t : Tab α) (k : Nat) (v : α) : ∀ e ∈ Tab.put d t k v, e.1 = k ∨ e ∈ t := by
  have ins : ∀ (u : Tab α), ∀ e ∈ Tab.insert u k v, e.1 = k ∨ e ∈ u := by
    intro u
    induction u with
    | nil => simp [Tab.insert]
    | cons x r ih =>
      intro e he
      obtain ⟨k', w⟩ := x
      unfold Tab.insert at he
      split at he
      · rcases List.mem_cons.mp he with rfl | h
        · exact .inl rfl
        · exact .inr h
      · rcases List.mem_cons.mp he with rfl | h
        · exact .inr (by simp)
        · exact (ih e h).imp id (fun h => by simp [h])
  intro e he
  unfold Tab.put at he
  split at he
  · exact .inr (Tab.erase_sub t k e he)
  · exact (ins _ e he).imp id (fun h => Tab.erase_sub t k e h)

theorem hbmSet_wf (s : State) (a : Nat) (b : Byte) (h : Memory.wf s.hbm.mem = true) : Memory.wf (s.hbmSet a b).hbm.mem = true := by
  unfold State.hbmSet
  split
  · exact h
  · rename_i hh
    simp only [Memory.wf, Bool.and_eq_true, List.all_eq_true] at h ⊢
    refine ⟨Tab.wf_put _ _ _ _ h.1, fun e he => ?_⟩
    rcases Tab.put_mem _ _ _ _ e he with hk | hm
    · rw [hk, inHole_mod]
      simp [hh, Nat.mod_lt]
    · exact h.2 e hm

theorem hbmPut_wf (n : Nat) (s : State) (a v : Nat) (h : Memory.wf s.hbm.mem = true) : Memory.wf (s.hbmPut a v n).hbm.mem = true := by
  induction n generalizing s a v with
  | zero => exact h
  | succ n ih => exact ih _ _ _ (hbmSet_wf s a _ h)

theorem hbmPutBytes_wf (l : List Nat) (s : State) (a : Nat) (h : Memory.wf s.hbm.mem = true) : Memory.wf (s.hbmPutBytes a l).hbm.mem = true := by
  induction l generalizing s a with
  | nil => exact h
  | cons b r ih => exact ih _ _ (hbmSet_wf s a _ h)

/-- A function reset that loses the bytes of one stack keeps the form. -/
theorem mem_filter_wf (m : Tab Byte) (p : Nat × Byte → Bool) (h : Memory.wf m = true) : Memory.wf (m.filter p) = true := by
  simp only [Memory.wf, Bool.and_eq_true, List.all_eq_true] at h ⊢
  exact ⟨Tab.wf_filter _ _ _ h.1, fun e he => h.2 e (List.mem_of_mem_filter he)⟩

theorem reset_mem_wf : Memory.wf State.reset.hbm.mem = true := rfl

/-! ## The flash -/

theorem flashPut_wf (s : State) (a : Nat) (l : List Nat) (h : Tab.wf flashEmpty s.flash.mem = true) :
    Tab.wf flashEmpty (s.flashPut a l).flash.mem = true := Tab.wf_putList _ _ _ _ h

theorem flashCopy_wf (s : State) (src dst n : Nat) (h : Tab.wf flashEmpty s.flash.mem = true) :
    Tab.wf flashEmpty (s.flashCopy src dst n).flash.mem = true := by
  have fold : ∀ (c : List (Nat × Byte)) (t : Tab Byte), Tab.wf flashEmpty t = true →
      Tab.wf flashEmpty (c.foldl (fun (t : Tab Byte) e => Tab.put flashEmpty t (e.1 - src + dst) e.2) t) = true := by
    intro c
    induction c with
    | nil => exact fun _ h => h
    | cons e r ih => exact fun t h => ih _ (Tab.wf_put _ _ _ _ h)
  exact fold _ _ (Tab.wf_filter _ _ _ h)

theorem reset_flash_wf : Tab.wf flashEmpty State.reset.flash.mem = true := rfl

end Sys2Proof.Machine
end

