-- ==== Sys2Proof/Laws/Run.lean ====
section
/-!
SUPPORT. Sys2Proof/Laws/Run.lean: what a command's begin and finish do once and for all: the completion of a command from the state its operation
leaves, the events it logs, and what a probe does while no monitor unit runs.
-/

namespace Sys2Proof.Machine

/-- A command answers what its operation leaves, where that keeps the queue and the key slots. -/
theorem run_of {s u : State} {op : State → State} {P : State → Prop} (e : op s.begin = u) (hq : u.pending = s.pending) (hk : u.keys = s.keys)
    (hp : P u.finish) : ∃ t, s.run op = .next t ∧ P t := by
  refine ⟨_, rfl, ?_⟩
  have hu : ({ (op s.begin).finish with pending := s.pending, keys := s.keys } : State) = u.finish := by
    rw [e, ← hq, ← hk]
    rfl
  rw [hu]
  exact hp

@[simp] theorem finish_evNow (s : State) : s.finish.evNow = [] := rfl

/-- A command that raised nothing leaves the log as its operation left it (R418). -/
theorem finish_log_nil {u : State} (h : u.evNow = []) : u.finish.log = u.log := by
  simp [State.finish, h, evSort, LogSt.add]

theorem LogSt.add_head (l : LogSt) (c : Clock) (es : List Ev) : (l.add c es).head = es.foldl (fun h _ => (h + 1) % 2 ^ 32) l.head := by
  induction es generalizing l with
  | nil => rfl
  | cons e r ih => simp only [LogSt.add, List.foldl]; rw [ih]

/-- An entry that no event of the list overwrites is kept. -/
theorem LogSt.add_evAt_ne (l : LogSt) (c : Clock) (es : List Ev) (n : Nat) (h : ∀ i, i < es.length → n % 1024 ≠ (l.head + i) % 1024) :
    (l.add c es).evAt n = l.evAt n := by
  induction es generalizing l with
  | nil => rfl
  | cons e r ih =>
    simp only [LogSt.add]
    rw [ih]
    · have h0 := h 0 (by simp)
      simp only [LogSt.evAt]
      rw [Tab.get_put_ne]
      simpa using h0
    · intro i hi
      have := h (i + 1) (by simpa using hi)
      simp only
      omega

theorem LogSt.add_evAt (l : LogSt) (c : Clock) (es : List Ev) (h4 : es.length ≤ 4) (hd : ∀ e ∈ es, e.detail < 65536) :
    ∀ i e, es[i]? = some e → (l.add c es).evAt (l.head + i) = e := by
  induction es generalizing l with
  | nil => intro i e h; simp at h
  | cons x r ih =>
    intro i e h
    cases i with
    | zero =>
      simp only [List.getElem?_cons_zero, Option.some.injEq] at h
      subst h
      simp only [LogSt.add]
      rw [LogSt.add_evAt_ne]
      · simp only [LogSt.evAt, Nat.add_zero, Tab.get_put_same]
        have := hd x (by simp)
        rw [Nat.mod_eq_of_lt this]
      · intro i hi
        have : r.length + 1 ≤ 4 := by simpa using h4
        simp only
        omega
    | succ j =>
      simp only [List.getElem?_cons_succ] at h
      simp only [LogSt.add]
      have h3 : r.length ≤ 4 := by
        have : r.length + 1 ≤ 4 := by simpa using h4
        omega
      rw [← ih _ h3 (fun e he => hd e (by simp [he])) j e h]
      simp only [LogSt.evAt]
      have hm : (l.head + (j + 1)) % 1024 = ((l.head + 1) % 2 ^ 32 + j) % 1024 := by omega
      rw [hm]

/-- A command's events enter the log (R418). -/
theorem finish_logged {s u : State} {evs : List Ev} (he : evSort u.evNow = evs) (hl : u.log.ring = s.log.ring ∧ u.log.head = s.log.head)
    (h4 : evs.length ≤ 4) (hd : ∀ e ∈ evs, e.detail < 65536) : Logged evs s u.finish := by
  have hr : u.finish.log.ring = (u.log.add u.clk evs).ring := by
    simp only [State.finish, he, List.take_of_length_le h4]
  have hh : u.finish.log.head = (u.log.add u.clk evs).head := by
    simp only [State.finish, he, List.take_of_length_le h4]
  constructor
  · rw [hh, LogSt.add_head, hl.2]
  · intro i e h
    have := LogSt.add_evAt u.log u.clk evs h4 hd i e h
    rw [← this, hl.2]
    simp only [LogSt.evAt, hr]

/-- The local clock after `n` ns, whatever the Meridian does meanwhile. -/
@[simp] theorem elapseNs_ns (s : State) (n : Nat) : (s.elapseNs n).clk.ns = s.clk.ns + n := by
  simp only [State.elapseNs, Clock.elapseNs]
  split
  · split
    · split <;> rfl
    · rfl
  · rfl

/-- The local clock after waiting for a local time: that time, or the present one where it has passed. -/
theorem toNs_ns (s : State) (t : Nat) : (s.toNs t).clk.ns = max s.clk.ns t := by
  rw [State.toNs, elapseNs_ns]
  omega

/-- Time runs on at least to the time asked for. -/
theorem le_toNs (s : State) (t : Nat) : t ≤ (s.toNs t).clk.ns := by
  rw [toNs_ns]
  omega

theorem lt_toNs (s : State) (n t : Nat) (h : n < t) : n < (s.toNs t).clk.ns := Nat.lt_of_lt_of_le h (le_toNs s t)

theorem monStatus_reset : ∀ m, m < 64 → bitsOf (resetOf (R.MON_STATUS m)).toNat (F.MON_STATUS_RUN m).hi (F.MON_STATUS_RUN m).lo = 0 := by decide

/-- No monitor unit runs where no register from MON on is listed. -/
theorem noMon_of_regs {s : State} (h : s.regs.all (fun e => decide (e.1 < 0x170000)) = true) : s.NoMon := by
  intro m hm
  have hg : ∀ l : Tab Word, l.all (fun e => decide (e.1 < 0x170000)) = true → Tab.get resetOf l (R.MON_STATUS m) = resetOf (R.MON_STATUS m) := by
    intro l
    induction l with
    | nil => intro _; rfl
    | cons e r ih =>
      intro hl
      simp only [List.all_cons, Bool.and_eq_true, decide_eq_true_eq] at hl
      have hne : e.1 ≠ R.MON_STATUS m := by
        have : 0x170000 ≤ R.MON_STATUS m := by simp only [R.MON_STATUS]; omega
        omega
      simp only [Tab.get, hne, if_false]
      exact ih hl.2
  have hr : s.rdn (R.MON_STATUS m) = (resetOf (R.MON_STATUS m)).toNat := by
    simp only [State.rdn, State.rd, hg s.regs h]
  have h0 := monStatus_reset m hm
  simp only [State.on, State.f]
  rw [show s.rdn (F.MON_STATUS_RUN m).addr = (resetOf (R.MON_STATUS m)).toNat from hr, h0]
  rfl

/-- A probe samples nothing while no monitor unit runs (R429). -/
theorem probe_noMon {s : State} (h : s.NoMon) (p : Nat) (at_ : Nat → Bool) (v : Int) : s.probe p at_ v = s := by
  unfold State.probe
  have : ∀ l : List Nat, (∀ m ∈ l, m < 64) → l.foldl (fun (t : State) m =>
      if t.on (F.MON_STATUS_RUN m) && t.f (F.MON_CTL_PROBE m) == p && at_ (t.rdn (R.MON_INST m)) then t.monSample m v else t) s = s := by
    intro l
    induction l with
    | nil => intro _; rfl
    | cons m r ih =>
      intro hl
      simp only [List.foldl]
      rw [h m (hl m (by simp))]
      simpa using ih (fun k hk => hl k (by simp [hk]))
  exact this _ (by intro m hm; simpa using hm)

/-- Every command but the programming of a key slot completes, and touches neither a key slot nor the queue (R405). -/
theorem exec_keys (i : Instr) (s : State) (h : i ≠ .keyslotProgrammed) : ∃ u, exec i s = .next u ∧ u.keys = s.keys ∧ u.pending = s.pending := by
  cases i
  case keyslotProgrammed => exact absurd rfl h
  all_goals exact ⟨_, rfl, rfl, rfl⟩

end Sys2Proof.Machine
end

