-- ==== Sys2Proof/Tests/Slice0.lean ====
section
/-!
SUPPORT. Sys2Proof/Tests/Slice0.lean: tests: ill-formed commands that WellFormed refuses, one step on small states, and for every statement with
hypotheses a state and operands that meet those of each of its clauses.
-/

namespace Sys2Proof.Machine

set_option linter.all false
set_option Elab.async false
set_option maxRecDepth 100000

/-! ## Small states -/


/-- The state after reset with registers' fields set. -/
def mk (l : List (Fld × Nat)) (s : State := State.reset) : State := l.foldl (fun s p => s.setF p.1 p.2) s
/-- A state with functions put into states. -/
def withFns (l : List (Nat × FnState)) (s : State) : State := { s with fns := l.foldl (fun t p => Tab.put (fun _ => FnState.off) t p.1 p.2) s.fns }
/-- A state with the Meridian running at a virtual position. -/
def merAt (v : Nat) (s : State) : State := { s with clk := { s.clk with run := true, hpos := v * 4294967296 } }
/-- The clock at a scheduled position. -/
def posClk (s : State) (cls v : Nat) : Clock := match s.toPos cls v with | some t => t.clk | none => s.clk
/-- The clock at a phase of the Meridian frame. -/
def phaseClk (s : State) (cls v : Nat) : Clock := match s.toPhase cls v with | some t => t.clk | none => s.clk
/-- The clock at a channel's next frame start. -/
def chanClk (s : State) (cls n : Nat) : Clock := match s.toChanStart cls n with | some t => t.1.clk | none => s.clk
/-- The index and start of a channel's next frame. -/
def chanK (s : State) (cls n : Nat) : Nat := match s.toChanStart cls n with | some t => t.2.1 | none => 0
def chanV (s : State) (cls n : Nat) : Nat := match s.toChanStart cls n with | some t => t.2.2 | none => 0

/-- A record of a Basgar image for every module, with its CRC (R364). -/
def mkRec (ty param : Nat) (payload : List Nat) : List Nat :=
  let a := wordBytes [ty + 256 * payload.length, 1023 * 65536, param]
  a ++ leBytes (crc32c (a ++ payload)) 4 ++ payload
/-- A Basgar image: its header with its CRC, then its records (R363). -/
def mkImage (recs : List Nat) : List Nat :=
  let h := wordBytes ([0x52475342, 0x01000001, 256 + recs.length, 0, 0x4160, 500, 0, 77] ++ List.replicate 55 0)
  h ++ leBytes (crc32c h) 4 ++ recs
/-- The directory of the flash (R361). -/
def mkDir : List Nat := let a := wordBytes [0x52494458, 0x201, 0]; a ++ leBytes (crc32c a) 4
/-- A FEATURE record: REQ and WANT (R365). -/
def featRec : List Nat := mkRec 1 0 (leBytes 1 16 ++ leBytes 3 16)
/-- A state whose flash holds bytes from an offset on. -/
def withFlash (a : Nat) (l : List Nat) (s : State) : State :=
  { s with flash := { s.flash with mem := l.zipIdx.map (fun e => (a + e.2, BitVec.ofNat 8 e.1)) } }
/-- A parcel's bytes, and the state that has received it in an open session. -/
def parcelData : List Nat := List.replicate 16384 200
def parcelMsg : SxMsg := { src := { mgt := 0, ip := 5, udp := 900, relay := none }, ver := 2, ty := 65, seq := 77, body := parcelBytes 40000 (List.replicate 48 0) (List.replicate 32 0) 1 parcelData }
def parcelState : State := { mk [(F.UPD_CTL_ACCEPT, 1)] with
  souv := [(0, 3 * 4 + 40000 * 2 ^ 32), (1, 5), (15, 1 + 7 * 2 ^ 32)], sx := { State.reset.sx with floor := 1, msgs := [parcelMsg] } }
theorem parcelState_body : parcelMsg.body = parcelBytes parcelState.updLen parcelState.updDigest parcelState.updKs 1 parcelData := by
  have a : parcelState.updLen = 40000 := by decide +kernel
  have b : parcelState.updDigest = List.replicate 48 0 := by decide +kernel
  have c : parcelState.updKs = List.replicate 32 0 := by decide +kernel
  rw [a, b, c, parcelMsg]


end Sys2Proof.Machine

namespace Sys2Proof.Tests

open Sys2Proof.Machine

set_option linter.all false
set_option Elab.async false
set_option maxRecDepth 100000


/-- Channel n as the worked examples at 8K120 have it: 7680 × 4320, 4:2:2 10-bit, 15 columns of 8 CTUs (spec/07, 09). -/
def ch8k (n : Nat) (s : State) : State :=
  (List.range 2).foldl (fun (t : State) j => t.wrn (R.ENC_CH_COLW n j) 0x77777777)
    (mk [(F.ENC_CH_SIZE_W n, 7680), (F.ENC_CH_SIZE_H n, 4320), (F.ENC_CH_FORMAT_CHROMA n, 1), (F.ENC_CH_FORMAT_DEPTH n, 1), (F.ENC_CH_RATE_NUM n, 120),
      (F.ENC_CH_RATE_DEN n, 1), (F.ENC_CH_LAYOUT_NCOL n, 15), (F.ENC_CH_LAYOUT_NROW n, 1), (⟨R.ENC_CH_ROWH n 0, 7, 0⟩, 68), (F.ENC_CH_RC_RATE_BR n, 3780000),
      (F.ENC_CH_RC_LAT_LAT n, 256), (F.ENC_CH_GDR_PERIOD n, 32), (F.ENC_CH_RC_FLOOR_FLOOR_I n, 4096), (F.ENC_CH_RC_RECOV_HEAD n, 16), (F.ENC_CH_CTL_EN n, 1)] s)

/-! ## Worked examples of the spec -/

/-- spec/09: cpb and the floor of a row at phase 8; spec/10: lat_min 224; spec/17: lmin at D 8, 7, 6. -/
theorem test_worked_latency :
    let s := ch8k 0 State.reset
    s.cpbBits 0 = 1792000 ∧ floorRow (s.colW 0) 32 8 (some 7) 4096 = 144000 ∧ s.latMin 0 4 = 224 ∧ s.latMin 0 8 = 366 ∧ s.latMin 0 7 = 330 ∧ s.latMin 0 6 = 296 := by
  decide +kernel

/-- spec/10, worked lag at 8K120. -/
theorem test_worked_lag :
    let s := ch8k 3 (ch8k 2 (ch8k 1 (ch8k 0 State.reset)))
    lagLines (s.lagFu 63 4 [0, 1]) = 0 ∧ lagLines (s.lagFu 63 4 [0, 1, 2]) = 71 ∧ lagLines (s.lagFu 63 4 [0, 1, 2, 3]) = 303
      ∧ lagLines (s.lagFu 62 4 [0, 1, 2, 3]) = 377 ∧ lagLines (s.lagFu 62 4 [0, 1, 2]) = 71 := by
  decide +kernel

/-- spec/01, first part of the worked check: four channels fit, and their sums. -/
theorem test_worked_budget :
    let s := ch8k 3 (ch8k 2 (ch8k 1 (ch8k 0 State.reset)))
    s.encSums 1 1 (List.range 32) = (15925248000, 63700992000) ∧ s.encBudgetOk 1 1 = true := by
  decide +kernel

/-- spec/08: the worked region (origin 87 lines) and the cold and warm fill. -/
theorem test_worked_region :
    let s := (ch8k 0 State.reset).wrn (R.MER_CH_ORIGIN 0) (87 * 65536)
    s.refBufs 0 = 6 ∧ s.encPicBytes 0 = 132710400 ∧ 6 * s.encPicBytes 0 = 796262400 ∧ s.coldSamples 0 = 1048576 ∧ tFill 1048576 = 10240 ∧ tFill 262144 = 2560 := by
  decide +kernel

/-- spec/07: 1,020 slices exceed level 6.2, 544 slices are signalled at 6.2 (102); columns of 5 CTUs are refreshed at 0, 6, 12, 19, 25. -/
theorem test_worked_layout :
    pickLevel false false 1 1 0 7680 4320 3981312000 1020 15 1 0 0 = none ∧ pickLevel false false 1 1 0 7680 4320 3981312000 544 8 1 0 0 = some 102
      ∧ recoveryCount [8, 5] 32 = 28 ∧ [0, 6, 12, 19, 25].map (refreshCols 5 32) = [[0], [1], [2], [3], [4]] := by
  decide +kernel

/-- spec/06: the worked blend. -/
theorem test_worked_blend :
    (premulGfx false ⟨65535, 0, 0⟩ 32896 65535) = { px := ⟨32896, 0, 0⟩, a := 32896 } ∧ overPx 40000 32896 32896 = 52818 := by decide +kernel

/-- spec/06: the worked pixel of a mesh. -/
theorem test_worked_mesh :
    meshPos 64016 64528 64000 64512 3 5 = 64198 ∧ meshPos 32000 32032 32512 32544 3 5 = 32332
      ∧ bilinear (fun y x => if y = 505 then (if x = 1003 then 40000 else 40640) else if x = 1003 then 41000 else 42000) 64198 32332 = 40254 := by
  decide +kernel

/-- spec/13: the worked round at 8K120. -/
theorem test_worked_allocation :
    let r (m x : Nat) : CnvReport := { member := m, x := x, t := 29531250, floor := 1566720, cap := 31500000, prev := 0, gdig := 0 }
    (allocate 65 83893590 [r 0 10000000, r 1 60000000, r 2 12000000]).1 = [(1, 31500000), (0, 26094133), (2, 30999617)] := by decide +kernel

/-- spec/15: the worked decode. -/
theorem test_worked_decode : stackOf 0x1040002345 = 1 ∧ pcOf 0x1040002345 = 2 ∧ inHole 0x1040002345 = false ∧ inHole 0x1900000000 = true := by decide

/-- spec/21: the two binnings. -/
theorem test_worked_bins : monBin (-64) 3 2 false = 17 ∧ monBin (-64) (-70) 2 false = 0 ∧ monBin (-64) 60 2 false = 31 ∧ monBin 0 131072 10 true = 9 := by decide

/-- spec/02, spec/05: the line units of the worked examples. -/
theorem test_worked_units : lineUnit 4500 120 1 2250 120 1 = some 131072 ∧ lineUnit 4500 120 1 1125 120 1 = some 262144 := by decide

/-- The check value of CRC-32C over "123456789". -/
theorem test_crc32c : crc32c [0x31, 0x32, 0x33, 0x34, 0x35, 0x36, 0x37, 0x38, 0x39] = 0xE3069283 := by decide

/-- A command from outside runs as the first step from reset: a register of the island takes the word written (R4). -/
theorem test_step_write :
    (match step { State.reset with pending := [.registerWrite .pcie R.BIN_STC_SEC 7 4] } with
      | .next t => t.rdn R.BIN_STC_SEC == 7 && t.pending == []
      | _ => false) = true := by
  decide +kernel

/-- A write of an address without a register is ignored (R6). -/
theorem test_write_nowhere :
    (match exec (.registerWrite .pcie 0x0001FFFC 7 4) State.reset with | .next t => t.regs == State.reset.regs && t.log.head == 0 | _ => false) = true := by
  decide +kernel

/-! ## Ill-formed commands are refused: one for each check -/

theorem test_wf_refuses_1 :
    (∀ (path : BusPath) (value : Word) (size : Nat), Instr.wf (.registerWrite path (0x1000000) value size) = false) ∧
    (∀ (path : BusPath) (addr : Nat) (value : Word), Instr.wf (.registerWrite path addr value (0)) = false) ∧
    (∀ (path : BusPath) (addr : Nat) (value : Word), Instr.wf (.registerWrite path addr value (5)) = false) ∧
    (∀ (path : BusPath), Instr.wf (.rcRegisterRead path (0x1000000)) = false) ∧
    (∀ (path : BusPath), Instr.wf (.wideValueLowRead path (0x1000000)) = false) ∧
    (∀ (path : BusPath), Instr.wf (.shadowRead path (0x200000)) = false) ∧
    (Instr.wf (.dependencyNotReady (124)) = false) ∧
    (Instr.wf (.functionReady (124)) = false) ∧
    (Instr.wf (.stagedSettingsApply (32)) = false) ∧
    (∀ (flit : TimeFlit), Instr.wf (.timeFlitReceive (8) flit) = false) ∧
    (Instr.wf (.delayReqSend (2)) = false) ∧
    (Instr.wf (.pdelayReqSend (2)) = false) ∧
    (Instr.wf (.announceTimeout (2)) = false) ∧
    (Instr.wf (.syncTimeout (2)) = false) ∧
    (∀ (en : Bool), Instr.wf (.ptpDomainEnable (2) en) = false) ∧
    (∀ (value : Word), Instr.wf (.toutArm (4) value) = false) ∧
    (Instr.wf (.toutDisarm (4)) = false) ∧
    (Instr.wf (.toutPulse (4)) = false) ∧
    (Instr.wf (.toutPulseEnd (4)) = false) ∧
    (∀ (rising : Bool), Instr.wf (.tinCapture (2) rising) = false) ∧
    (∀ (path : BusPath), Instr.wf (.tinCapturePop path (2)) = false) ∧
    (Instr.wf (.relock (16)) = false) ∧
    (∀ (freq : Word), Instr.wf (.pllFreqWrite (11) freq) = false) ∧
    (Instr.wf (.clkoutEnable (4)) = false) ∧
    (Instr.wf (.clkoutDisable (4)) = false) ∧
    (Instr.wf (.clkoutRealign (4)) = false) ∧
    (∀ (p : IngPacket), Instr.wf (.ingestPacketReceive ({ p with port := 8 })) = false) ∧
    (∀ (p : IngPacket), Instr.wf (.ingestPacketReceive ({ p with vlan := 4096 })) = false) ∧
    (∀ (p : IngPacket), Instr.wf (.ingestPacketReceive ({ p with dport := 65536 })) = false) ∧
    (Instr.wf (.ingFtRead (4096)) = false) ∧
    (Instr.wf (.ingFtWrite (4096)) = false) ∧
    (∀ (ty : Nat), Instr.wf (.legLoss ty (64)) = false) ∧
    (∀ (target : Nat), Instr.wf (.legLoss (6) target) = false) ∧
    (Instr.wf (.inputEnable (64)) = false) ∧
    (Instr.wf (.inputStart (64)) = false) ∧
    (Instr.wf (.acceptanceWindowClose (64)) = false) ∧
    (Instr.wf (.inputRestart (64)) = false) ∧
    (Instr.wf (.decodeContextEnable (16)) = false) ∧
    (Instr.wf (.accessUnitStart (4)) = false) ∧
    (∀ (info : AuInfo), Instr.wf (.accessUnitDecoded (16) info) = false) := by
  and_intros <;> intros <;> simp [Instr.wf, pllOk]

theorem test_wf_refuses_2 :
    (Instr.wf (.decodedPictureDecision (64)) = false) ∧
    (Instr.wf (.compositionEnable (32)) = false) ∧
    (Instr.wf (.compositionDisable (32)) = false) ∧
    (∀ (set : Nat) (fence : Option Nat), Instr.wf (.commit (32) set fence) = false) ∧
    (∀ (c : Nat) (fence : Option Nat), Instr.wf (.commit c (9) fence) = false) ∧
    (∀ (set : Nat), Instr.wf (.cancel (32) set) = false) ∧
    (∀ (c : Nat), Instr.wf (.cancel c (9)) = false) ∧
    (∀ (value : Nat), Instr.wf (.fenceWrite (256) value) = false) ∧
    (∀ (k : Nat), Instr.wf (.fenceWrite k (2 ^ 64)) = false) ∧
    (Instr.wf (.flipEvaluation (32)) = false) ∧
    (Instr.wf (.meshCheckComplete (32)) = false) ∧
    (Instr.wf (.rowComposition (32)) = false) ∧
    (Instr.wf (.setRetire (32)) = false) ∧
    (Instr.wf (.compositionDrained (32)) = false) ∧
    (Instr.wf (.hbmStackEnable (4)) = false) ∧
    (∀ (ok : Bool) (ms : Nat) (repairs : Nat), Instr.wf (.hbmTrainingComplete (4) ok ms repairs) = false) ∧
    (Instr.wf (.hbmStackDisable (4)) = false) ∧
    (∀ (pc : Nat) (due : RefreshDue), Instr.wf (.refresh (4) pc due) = false) ∧
    (∀ (st : Nat) (due : RefreshDue), Instr.wf (.refresh st (32) due) = false) ∧
    (∀ (st : Nat) (pc : Nat) (due : RefreshDue), Instr.wf (.refresh st pc ({ due with bank := 48 })) = false) ∧
    (∀ (celsius : Int), Instr.wf (.hbmHotChange (4) celsius) = false) ∧
    (∀ (pc : Nat) (bank : Nat) (reqs : List HbmAcc), Instr.wf (.refreshManagement (4) pc bank reqs) = false) ∧
    (∀ (st : Nat) (bank : Nat) (reqs : List HbmAcc), Instr.wf (.refreshManagement st (32) bank reqs) = false) ∧
    (∀ (st : Nat) (pc : Nat) (reqs : List HbmAcc), Instr.wf (.refreshManagement st pc (48) reqs) = false) ∧
    (∀ (pc : Nat) (requester : Nat), Instr.wf (.throttleEnd (4) pc requester) = false) ∧
    (∀ (st : Nat) (requester : Nat), Instr.wf (.throttleEnd st (32) requester) = false) ∧
    (∀ (st : Nat) (pc : Nat), Instr.wf (.throttleEnd st pc (128)) = false) ∧
    (∀ (pc : Nat) (due : AgeLimit), Instr.wf (.promotion (4) pc due) = false) ∧
    (∀ (st : Nat) (due : AgeLimit), Instr.wf (.promotion st (32) due) = false) ∧
    (∀ (st : Nat) (pc : Nat) (due : AgeLimit), Instr.wf (.promotion st pc ({ due with requester := 78 })) = false) ∧
    (Instr.wf (.eccCorrection (2 ^ 38)) = false) ∧
    (∀ (requester : Nat), Instr.wf (.uncorrectableRead (2 ^ 38) requester) = false) ∧
    (∀ (addr : Nat), Instr.wf (.uncorrectableRead addr (128)) = false) ∧
    (∀ (result : ScrubResult), Instr.wf (.patrolScrub (4) result) = false) ∧
    (∀ (pc : Nat), Instr.wf (.caParityError (4) pc) = false) ∧
    (∀ (st : Nat), Instr.wf (.caParityError st (32)) = false) ∧
    (Instr.wf (.channelEnable (32)) = false) ∧
    (Instr.wf (.channelReady (32)) = false) ∧
    (Instr.wf (.pictureStart (32)) = false) ∧
    (Instr.wf (.restart (32)) = false) := by
  and_intros <;> intros <;> simp [Instr.wf, pllOk]

theorem test_wf_refuses_3 :
    (Instr.wf (.channelDisable (32)) = false) ∧
    (Instr.wf (.channelDrained (32)) = false) ∧
    (Instr.wf (.rowBudget (32)) = false) ∧
    (Instr.wf (.jobStart (64)) = false) ∧
    (Instr.wf (.latestStart (65536)) = false) ∧
    (Instr.wf (.completionDeadline (64)) = false) ∧
    (∀ (overrun : Bool), Instr.wf (.jobComplete (64) overrun) = false) ∧
    (∀ (cls : Nat), Instr.wf (.pipeFaultReport (64) cls) = false) ∧
    (∀ (read : RefRead), Instr.wf (.referenceReadUncorrectable ({ read with pipe := 64 })) = false) ∧
    (Instr.wf (.standInDecision (32)) = false) ∧
    (Instr.wf (.sliceRelease (32)) = false) ∧
    (Instr.wf (.sequenceFree (32)) = false) ∧
    (Instr.wf (.unretire (64)) = false) ∧
    (Instr.wf (.park (4)) = false) ∧
    (Instr.wf (.unpark (4)) = false) ∧
    (Instr.wf (.quadrantParked (4)) = false) ∧
    (Instr.wf (.thermalPlacement ([])) = false) ∧
    (Instr.wf (.egsFtRead (65536)) = false) ∧
    (Instr.wf (.egsFtWrite (65536)) = false) ∧
    (Instr.wf (.portFree (8)) = false) ∧
    (Instr.wf (.pacedDeparture (65536)) = false) ∧
    (Instr.wf (.shaperEligible (8)) = false) ∧
    (Instr.wf (.digestTimeout (32)) = false) ∧
    (Instr.wf (.lateWindowEnd (32)) = false) ∧
    (Instr.wf (.channelResync (32)) = false) ∧
    (Instr.wf (.digestEngineDisagreement (32)) = false) ∧
    (∀ (flit : BudgetFlit), Instr.wf (.budgetFlitReceive (8) flit) = false) ∧
    (∀ (flit : Flit), Instr.wf (.flitReceive (8) flit) = false) ∧
    (Instr.wf (.replayTimeout (8)) = false) ∧
    (∀ (rx : List (Nat × Nat × Nat)), Instr.wf (.linkDelayMeasure (8) rx) = false) ∧
    (∀ (flit : RelayFlit), Instr.wf (.relayFlitReceive (8) flit) = false) ∧
    (Instr.wf (.quadEnable (16)) = false) ∧
    (Instr.wf (.quadDisable (16)) = false) ∧
    (Instr.wf (.signalDetect (64)) = false) ∧
    (∀ (first : List Int) (second : List Int) (eye : List Nat) (temp : Int), Instr.wf (.cdrLock (64) first second eye temp) = false) ∧
    (∀ (marker : List Nat) (errs : Nat), Instr.wf (.trainingWordReceive (64) marker errs) = false) ∧
    (∀ (staord : Bool) (skew : Nat) (rxlat : Nat) (ok : Bool), Instr.wf (.deskewComplete staord (8) skew rxlat ok) = false) ∧
    (∀ (staord : Bool), Instr.wf (.fecLock staord (8)) = false) ∧
    (∀ (staord : Bool) (missing : Nat) (words : FecWords), Instr.wf (.fecLoss staord (8) missing words) = false) ∧
    (∀ (staord : Bool), Instr.wf (.stageTimeout staord (8)) = false) := by
  and_intros <;> intros <;> simp [Instr.wf, pllOk]

theorem test_wf_refuses_4 :
    (Instr.wf (.laneLoss (64)) = false) ∧
    (∀ (inv : Bool), Instr.wf (.alignmentMarkerLock (64) inv) = false) ∧
    (∀ (fcsOk : Bool) (len : Nat) (vlan : Nat) (dstMac : Nat), Instr.wf (.ethFrameReceive (8) fcsOk len vlan dstMac) = false) ∧
    (∀ (vlan : Nat) (target : Nat) (sender : Nat), Instr.wf (.arpRequest (10) vlan target sender) = false) ∧
    (∀ (vlan : Nat) (target : Nat) (sender : Nat), Instr.wf (.neighbourSolicitation (10) vlan target sender) = false) ∧
    (∀ (vlan : Nat) (ipv6 : Bool) (dst : Nat) (sender : Nat) (len : Nat), Instr.wf (.echoRequest (10) vlan ipv6 dst sender len) = false) ∧
    (∀ (vlan : Nat) (ipv6 : Bool) (older : Bool) (group : Option Nat) (maxMs : Nat) (timeoutMs : Nat), Instr.wf (.membershipQuery (8) vlan ipv6 older group maxMs timeoutMs) = false) ∧
    (Instr.wf (.queryResponse (8)) = false) ∧
    (Instr.wf (.stateChangeReport (8)) = false) ∧
    (∀ (remote : Bool) (present : Bool), Instr.wf (.ethFault (8) remote present) = false) ∧
    (Instr.wf (.olderQuerierTimeout (8)) = false) ∧
    (∀ (stamp : Nat) (frames : Nat) (ppm : Int) (data : List AesFrame) (csA : List Nat) (csB : List Nat), Instr.wf (.aes3Block (8) stamp frames ppm data csA csB) = false) ∧
    (∀ (stamp : Nat) (data : List (List Nat)), Instr.wf (.tdmBlock (4) stamp data) = false) ∧
    (Instr.wf (.tdmSlaveLockLoss (4)) = false) ∧
    (Instr.wf (.audioBlockDecision (80)) = false) ∧
    (Instr.wf (.tdmMaskCommit (4)) = false) ∧
    (Instr.wf (.tdmMaskApply (4)) = false) ∧
    (Instr.wf (.audioOutputEnable (80)) = false) ∧
    (Instr.wf (.audioOutputDisable (80)) = false) ∧
    (Instr.wf (.audioOutputDrained (80)) = false) ∧
    (Instr.wf (.writeTx (64)) = false) ∧
    (Instr.wf (.audioPacketDeparture (64)) = false) ∧
    (Instr.wf (.aes3InputLoss (8)) = false) ∧
    (∀ (inst : Nat), Instr.wf (.sightingRun (4) inst) = false) ∧
    (∀ (kind : Nat), Instr.wf (.sightingRun kind (128)) = false) ∧
    (∀ (inst : Nat) (temp : Int), Instr.wf (.sightingTemperatureTrigger (4) inst temp) = false) ∧
    (∀ (kind : Nat) (temp : Int), Instr.wf (.sightingTemperatureTrigger kind (128) temp) = false) ∧
    (∀ (inst : Nat) (first : List Int) (second : List Int) (quality : List Nat) (temp : Int), Instr.wf (.sightingComplete (4) inst first second quality temp) = false) ∧
    (∀ (kind : Nat) (first : List Int) (second : List Int) (quality : List Nat) (temp : Int), Instr.wf (.sightingComplete kind (128) first second quality temp) = false) ∧
    (∀ (inst : Nat), Instr.wf (.sightingStep (4) inst) = false) ∧
    (∀ (kind : Nat), Instr.wf (.sightingStep kind (128)) = false) ∧
    (∀ (margin : Nat), Instr.wf (.avsEvaluate (4) margin) = false) ∧
    (Instr.wf (.functionReset (128)) = false) ∧
    (∀ (hbm : List Int) (vin : Nat) (vstby : Nat) (rails : List Nat), Instr.wf (.sensorRead ([]) hbm vin vstby rails) = false) ∧
    (∀ (die : List Int) (vin : Nat) (vstby : Nat) (rails : List Nat), Instr.wf (.sensorRead die ([]) vin vstby rails) = false) ∧
    (∀ (early : Nat) (pecOk : Bool), Instr.wf (.svcRead (2 ^ 32) early pecOk) = false) ∧
    (∀ (value : Word) (pecOk : Bool), Instr.wf (.svcWrite (2 ^ 32) value pecOk) = false) ∧
    (∀ (pecOk : Bool), Instr.wf (.actionMute (65536) pecOk) = false) ∧
    (∀ (pecOk : Bool), Instr.wf (.actionUnmute (65536) pecOk) = false) ∧
    (∀ (pecOk : Bool), Instr.wf (.actionGiveUp (65536) pecOk) = false) := by
  and_intros <;> intros <;> simp [Instr.wf, pllOk]

theorem test_wf_refuses_5 :
    (∀ (pecOk : Bool), Instr.wf (.actionWarm (65536) pecOk) = false) ∧
    (∀ (pecOk : Bool), Instr.wf (.actionCold (65536) pecOk) = false) ∧
    (∀ (pecOk : Bool), Instr.wf (.actionShutdown (65536) pecOk) = false) ∧
    (∀ (pecOk : Bool), Instr.wf (.svcFault (65536) pecOk) = false) ∧
    (∀ (digest : List Nat) (pecOk : Bool), Instr.wf (.keyslot (256) digest pecOk) = false) ∧
    (∀ (slot : Nat) (pecOk : Bool), Instr.wf (.keyslot slot ([]) pecOk) = false) ∧
    (∀ (reg : Nat) (rd : Bool) (data : Nat), Instr.wf (.mdioCommand (32) reg rd data) = false) ∧
    (∀ (phy : Nat) (rd : Bool) (data : Nat), Instr.wf (.mdioCommand phy (32) rd data) = false) ∧
    (∀ (phy : Nat) (reg : Nat) (rd : Bool), Instr.wf (.mdioCommand phy reg rd (65536)) = false) ∧
    (Instr.wf (.mdioComplete (65536)) = false) ∧
    (∀ (bytes : List Nat) (src : SxFrom), Instr.wf (.sextantDatagram ({ src with mgt := 2 }) bytes) = false) ∧
    (Instr.wf (.eventSend (8)) = false) ∧
    (∀ (write : Bool) (len : Nat) (data : List Nat), Instr.wf (.bar4Access (2 ^ 38) write len data) = false) ∧
    (Instr.wf (.msixVectorFire (32)) = false) ∧
    (Instr.wf (.checkStart (4)) = false) ∧
    (Instr.wf (.checkAbort (4)) = false) ∧
    (Instr.wf (.checkComplete (4)) = false) ∧
    (∀ (path : BusPath), Instr.wf (.windowRead path (0x1000000)) = false) ∧
    (∀ (path : BusPath), Instr.wf (.windowRead path (0x7FFFFF)) = false) ∧
    (∀ (path : BusPath) (value : Word), Instr.wf (.meshWindowWrite path (0x1000000) value) = false) ∧
    (∀ (path : BusPath) (value : Word), Instr.wf (.meshWindowWrite path (0x7FFFFF) value) = false) ∧
    (∀ (up : Bool), Instr.wf (.mgtLinkChange (2) up) = false) ∧
    (∀ (p : Nat), Instr.wf (.pipeFaultReport p 4) = false) ∧
    (∀ (s f : Nat), Instr.wf (.pcieLinkChange true 3 f) = false) ∧
    (∀ (w : Nat), Instr.wf (.pcieLinkChange true w 0) = false) ∧
    (∀ (w : Nat), Instr.wf (.pcieLinkChange true w 6) = false) ∧
    (∀ (a n : Nat) (w : Bool) (d : List Nat), Instr.wf (.bar4Access a w n (256 :: d)) = false) ∧
    (∀ (s : SxFrom) (d : List Nat), Instr.wf (.sextantDatagram s (256 :: d)) = false) ∧
    (∀ (k : Nat) (d : List Nat) (b : Bool), Instr.wf (.keyslot k (256 :: d) b) = false) ∧
    (∀ (st b : Nat) (l : Bool) (o : Nat) (w : Bool) (a : Nat) (r : List HbmAcc), Instr.wf (.refresh st 0 ⟨b, l, { id := 78, ofs := o, write := w, ago := a } :: r⟩) = false) ∧
    (∀ (st b i : Nat) (w : Bool) (a : Nat) (r : List HbmAcc), Instr.wf (.refreshManagement st 0 b ({ id := i, ofs := 0x900000000, write := w, ago := a } :: r)) = false) ∧
    (∀ (st q i : Nat) (w : Bool) (a : Nat) (r : List HbmAcc), Instr.wf (.promotion st 1 ⟨q, { id := i, ofs := 0, write := w, ago := a } :: r⟩) = false) ∧
    (∀ (c j : Nat), Instr.wf (.commit c j (some 256)) = false) ∧
    (Instr.wf (.pllLock (.core 11)) = false) ∧
    (Instr.wf (.pllLock (.lane 16)) = false) := by
  and_intros <;> intros <;> simp [Instr.wf, pllOk, hbmAccOk]

theorem test_wf_accepts : [Instr.inputEnable 63, .registerWrite .pcie 0x10 0 4, .pllLock (.lane 15), .pcieLinkChange true 8 5, .commit 31 8 (some 255)].all Instr.wf = true := by decide



/-! ## The hypotheses of the statements can be met -/


theorem witness_RegisterCommandsComplete :
    (∃ (s : State) (path : BusPath) (a : Nat) (v : Word) (d : RegDef), (s.dark = false) ∧ (path ≠ .service) ∧ (a % 4 = 0) ∧ (a < 0x1A0000) ∧ (regDef a = some d) ∧ (d.fields.any (fun x => x.acc == .rwl) = false) ∧ (fieldsOk d.fields (s.begin.oldWord path a) v.toNat = true) ∧ (wideOf wideWrites a = none) ∧ (s.begin.unitReg path a (BitVec.ofNat 32 (mergeWord true d.fields (s.begin.oldWord path a) v.toNat)) v = none) ∧ (s.begin.heldRow d a = false) ∧ (latInput a = false)) ∧
    (∃ (s : State) (path : BusPath), (s.dark = false) ∧ (path ≠ .service) ∧ (Tab.get (fun _ => (none : Option Word)) s.latch R.MER_PEER_ERR = none)) ∧
    (∃ (s : State) (path : BusPath), (s.dark = false) ∧ (path ≠ .service) ∧ (Tab.get (fun _ => (none : Option Word)) s.latch R.BIN_UPTIME_LO = none)) ∧
    (∃ (s : State) (path : BusPath) (a : Nat), (s.dark = false) ∧ (path ≠ .service) ∧ (a % 4 = 0) ∧ (a < 0x200000)) ∧
    (∃ (s : State) , (s.working fnCnv = true) ∧ (s.ready fnMer = false)) ∧
    (∃ (s : State) (p : Nat), (p < 8) ∧ (s.fn (fnIng p) = .starting) ∧ (s.rxUp p = true)) ∧
    (∃ (s : State) (c k d p : Nat) (v : Word) (q : Clock), (c < 32) ∧ (s.begin.toChanStart 2 c = some ({ s.begin with clk := q }, k, d)) ∧ (s.egsAll = []) ∧ (s.held = [(R.MER_CH_ORIGIN c, { inForce := 0, pend := [(p, v)] })]) ∧ (p < d)) :=
  ⟨⟨State.reset, .pcie, R.BIN_STC_SEC, 0x12345678, ⟨0x1002C, [], 0x0, false, [⟨31, 0, .rw, false, .any⟩]⟩, by decide +kernel⟩,
   ⟨State.reset.wrn R.MER_PEER_ERR 77, .pcie, by decide +kernel⟩,
   ⟨(State.reset.toNs 5000000000000000), .pcie, by decide +kernel⟩,
   ⟨State.reset, .sextant 7, R.MER_STOP_CNT, by decide +kernel⟩,
   ⟨withFns [(fnCnv, .ready)] State.reset, by decide +kernel⟩,
   ⟨withFns [(fnIng 3, .starting)] (mk [(F.ETH_PORT_STATUS_RX_UP 3, 1)]), 3, by decide +kernel⟩,
   ⟨{ merAt 500 (mk [(F.MER_CH_ORIGIN_LINES 3, 7)]) with held := [(R.MER_CH_ORIGIN 3, { inForce := 0, pend := [(5, 9)] })] }, 3, chanK ({ merAt 500 (mk [(F.MER_CH_ORIGIN_LINES 3, 7)]) with held := [(R.MER_CH_ORIGIN 3, { inForce := 0, pend := [(5, 9)] })] }).begin 2 3, chanV ({ merAt 500 (mk [(F.MER_CH_ORIGIN_LINES 3, 7)]) with held := [(R.MER_CH_ORIGIN 3, { inForce := 0, pend := [(5, 9)] })] }).begin 2 3, 5, 9, chanClk ({ merAt 500 (mk [(F.MER_CH_ORIGIN_LINES 3, 7)]) with held := [(R.MER_CH_ORIGIN 3, { inForce := 0, pend := [(5, 9)] })] }).begin 2 3, by decide +kernel⟩⟩

theorem witness_MeridianReferenceCommandsComplete :
    (∃ (s : State) , (s.dark = false) ∧ (s.active fnMer = false) ∧ (cadOk (s.rdn R.MER_CAD_NUM) (s.rdn R.MER_CAD_DEN) (s.f F.MER_CAD_LINES_L_M) = true) ∧ (s.on F.PTP_CTL_EN = false) ∧ (s.mer.refLocked = false)) ∧
    (∃ (s : State) (r : Bool) (t0 : Nat), (s.clk.run = true) ∧ (s.on F.MER_REF_CTL_EDGE = !r) ∧ (s.mer.loadArmed = false) ∧ (s.mer.refLocked = false) ∧ (s.mer.refLast = some t0) ∧ ((s.refInterval (s.clk.ns - t0)).natAbs ≤ s.f F.MER_PLAUS_PLAUS) ∧ (s.mer.refRun + 1 < s.f F.MER_REF_CTL_CONFIRM)) ∧
    (∃ (s : State) (t0 : Nat), (s.clk.run = true) ∧ (s.mer.refLast = some t0) ∧ (s.mer.refLocked = true) ∧ (s.f F.MER_STATUS_SRC = 3)) ∧
    (∃ (s : State) (q : Clock), (s.clk.holdAt = none) ∧ (s.begin.toPhase 1 0 = some { s.begin with clk := q }) ∧ (s.mer.pendStop = true) ∧ (s.f F.MER_STATUS_SRC = 3) ∧ (s.mer.refLocked = false) ∧ (s.on F.MER_CTL_AUTO = false) ∧ (s.ptp.steer = s.f F.PTP_CTL_STEER)) ∧
    (∃ (s : State) (h : Nat), (s.clk.holdAt = some h) ∧ (s.mer.firstLock = false) ∧ (s.fn fnMer = .starting) ∧ (∀ n : Nat, n < 32 → s.active (fnEnc n) = false)) :=
  ⟨⟨State.reset, by decide +kernel⟩,
   ⟨{ merAt 500 State.reset with mer := { State.reset.mer with refLast := some 0, refRun := 1 }, clk := { (merAt 500 State.reset).clk with ns := 8333333 } }, true, 0, by decide +kernel⟩,
   ⟨{ (mk [(F.MER_STATUS_SRC, 3)] (merAt 500 State.reset)) with mer := { State.reset.mer with refLast := some 100, refLocked := true } }, 100, by decide +kernel⟩,
   ⟨{ (mk [(F.MER_STATUS_SRC, 3), (F.MER_CTL_AUTO, 0)] (merAt 500 State.reset)) with mer := { State.reset.mer with pendStop := true } }, phaseClk (merAt 500 State.reset) 1 0, by decide +kernel⟩,
   ⟨withFns [(fnMer, .starting)] { (merAt 500 State.reset) with clk := { (merAt 500 State.reset).clk with holdAt := some 294912000 } }, 294912000, by decide +kernel⟩⟩

theorem witness_MeridianTimeCommandsComplete :
    (∃ (s : State) (q : Clock), (s.NoMon) ∧ (s.on F.MER_CTL_REVERT = true) ∧ (s.on F.MER_CTL_AUTO = true) ∧ (s.f F.MER_STATUS_SRC = 3) ∧ (s.srcLocked 3 = true) ∧ (s.begin.chooseSrc = 1) ∧ (s.begin.toPos 1 (max ((Tab.get (fun _ => 0) s.mer.lockSince 1 + s.f F.MER_REVERT_HOLD_HOLD) * s.clk.fu) (s.clk.nextOf 1 0 s.clk.fu 0)) = some { s.begin with clk := q }) ∧ (s.ptp.steer = 0) ∧ (s.mer.firstLock = true)) ∧
    (∃ (s : State) , (s.dark = false) ∧ (s.rd64 R.MER_FRAME_LOAD_LO R.MER_FRAME_LOAD_HI % max 1 (s.f F.MER_REF_CTL_PERIOD) = 0)) ∧
    (∃ (s : State) , (s.f F.MER_STATUS_STATE = 2)) ∧
    (∃ (s : State) (p : Nat) (q : Clock), (s.ready fnMer = true) ∧ (s.begin.toPhase 8 0 = some { s.begin with clk := q }) ∧ ((List.range 8).filter s.linkUp = [p])) ∧
    (∃ (s : State) (p : Nat) (g : TimeFlit), (p < 8) ∧ (s.clk.run = true) ∧ (g.num ≠ s.clk.num)) :=
  ⟨⟨{ (mk [(F.MER_STATUS_SRC, 3), (F.MER_CTL_AUTO, 1), (F.MER_CTL_REVERT, 1), (F.PTP_CTL_EN, 1), (F.PTP_X_STATUS_STATE 0, 3)] (merAt 500 State.reset)) with mer := { State.reset.mer with firstLock := true, refLocked := true } }, posClk (merAt 500 State.reset) 1 (1200 * (merAt 500 State.reset).clk.fu), noMon_of_regs (by decide), by decide +kernel⟩,
   ⟨State.reset, by decide +kernel⟩,
   ⟨{ (mk [(F.MER_STATUS_STATE, 2)] ((merAt 500 State.reset).wrn R.MER_PHASE_ERR 30)) with clk := { (merAt 500 State.reset).clk with slew := 100 } }, by decide +kernel⟩,
   ⟨withFns [(fnMer, .ready)] (merAt 500 (mk [(F.CNV_LINK_STATUS_B1_0 5, 2)])), 5, phaseClk (merAt 500 State.reset) 8 0, by decide +kernel⟩,
   ⟨merAt 500 State.reset, 3, { frame := 0, src := 0, state := 1, echoValid := false, line := 2, frac := 0, num := 60, den := 1, lines := 4500, tSend := 0, tEcho := 0, tHeld := 0 }, by decide +kernel⟩⟩

theorem witness_PtpMessageCommandsComplete :
    (∃ (s : State) (h : PtpHdr) (t1 : Nat) (cf logInt o l : Int), (s.NoMon) ∧ (s.bound 0 h = true) ∧ (s.bound 1 h = false) ∧ ((s.dom 0).parent = some h.source) ∧ ((s.dom 0).lastUsed = none) ∧ (o = s.sampleOffset 0 t1 cf) ∧ ((s.dom 0).lastOfs = some l) ∧ ((o - l).natAbs ≤ s.rdn (R.PTP_X_OUTLIER 0)) ∧ (s.f (F.PTP_X_STATUS_STATE 0) = 3) ∧ (s.f (F.PTP_X_STATUS_STATE 1) = 0) ∧ (s.ptp.steer = 0) ∧ (s.clk.run = false) ∧ (-64000000 ≤ (servo (s.dom 0).integ o (s.f (F.PTP_X_SERVO_KP 0)) (s.f (F.PTP_X_SERVO_KI 0))).1 + sar (o * 256) (s.f (F.PTP_X_SERVO_KP 0))) ∧ ((servo (s.dom 0).integ o (s.f (F.PTP_X_SERVO_KP 0)) (s.f (F.PTP_X_SERVO_KI 0))).1 + sar (o * 256) (s.f (F.PTP_X_SERVO_KP 0)) ≤ 64000000)) ∧
    (∃ (s : State) (h : PtpHdr) (a : Announce), (s.bound 0 h = true) ∧ (s.bound 1 h = false) ∧ ((s.dom 0).gm = none) ∧ ((s.dom 0).lastOfs = none) ∧ ((s.dom 0).masters = [])) ∧
    (∃ (s : State) (h : PtpHdr) (t4 t3 : Nat) (cf lm : Int), (s.bound 0 h = true) ∧ (s.bound 1 h = false) ∧ ((s.dom 0).t3 = some t3) ∧ (s.on (F.PTP_X_CTL_DELAY 0) = false) ∧ ((s.dom 0).syncSeen = true) ∧ ((s.dom 0).mpdSeen = false) ∧ ((s.dom 0).parent = some h.source)) ∧
    (∃ (s : State) (x w : Nat), ((s.dom x).reqAt = some w) ∧ (x < 2) ∧ (s.on F.PTP_CTL_EN = true) ∧ (s.on (F.PTP_X_CTL_EN x) = true) ∧ (s.on (F.PTP_X_CTL_DELAY x) = false) ∧ ((s.dom x).gm.isSome = true) ∧ (s.on F.BIN_STATUS_MUTED = false)) ∧
    (∃ (s : State) (x w : Nat), ((s.dom x).pdAt = some w) ∧ (x < 2) ∧ (s.on F.PTP_CTL_EN = true) ∧ (s.on (F.PTP_X_CTL_EN x) = true) ∧ (s.on (F.PTP_X_CTL_DELAY x) = true) ∧ (s.on F.BIN_STATUS_MUTED = false)) ∧
    (∃ (s : State) (h : PtpHdr) (n : Nat), (s.bound 0 h = true) ∧ (s.bound 1 h = false) ∧ (s.on (F.PTP_X_CTL_DELAY 0) = true) ∧ (s.on F.BIN_STATUS_MUTED = false)) ∧
    (∃ (s : State) (h : PtpHdr) (t2p t3p t1p : Nat) (cf : Int), (s.bound 0 h = true) ∧ (s.bound 1 h = false) ∧ ((s.dom 0).t1p = some t1p) ∧ (s.on (F.PTP_X_CTL_DELAY 0) = true) ∧ ((s.dom 0).mpdSeen = false)) :=
  ⟨⟨(mk [(F.PTP_CTL_EN, 1), (F.PTP_X_CTL_EN 0, 1), (F.PTP_X_CTL_TRANSPORT 0, 1), (F.PTP_X_CTL_DOMAIN 0, 0), (F.PTP_X_STATUS_STATE 0, 3)]).setDom 0 { parent := some 0x77, lastOfs := some 70, mpd := 50 }, ⟨0, 1, 0, 0, 0x77, 0⟩, 20, 5, 0, 75, 70, noMon_of_regs (by decide), by decide +kernel⟩,
   ⟨mk [(F.PTP_CTL_EN, 1), (F.PTP_X_CTL_EN 0, 1), (F.PTP_X_CTL_TRANSPORT 0, 1), (F.PTP_X_CTL_DOMAIN 0, 0)], ⟨0, 1, 0, 0, 0x77, 0⟩, ⟨128, 6, 33, 100, 128, 0x123456789ABCDEF0, 1, 37, 1⟩, by decide +kernel⟩,
   ⟨(mk [(F.PTP_CTL_EN, 1), (F.PTP_X_CTL_EN 0, 1), (F.PTP_X_CTL_TRANSPORT 0, 1), (F.PTP_X_CTL_DOMAIN 0, 0)]).setDom 0 { parent := some 0x77, t3 := some 900, syncSeen := true, syncT1 := 100, syncT2 := 160 }, ⟨0, 1, 0, 0, 0x77, 0⟩, 1000, 900, 4, 0, by decide +kernel⟩,
   ⟨(mk [(F.PTP_CTL_EN, 1), (F.PTP_X_CTL_EN 0, 1), (F.PTP_X_CTL_TRANSPORT 0, 1), (F.PTP_X_CTL_DOMAIN 0, 0), (F.PTP_X_CTL_HYBRID 0, 1)]).setDom 0 { gm := some {}, reqAt := some 7001, syncMac := 0x1234 }, 0, 7001, by decide +kernel⟩,
   ⟨(mk [(F.PTP_CTL_EN, 1), (F.PTP_X_CTL_EN 0, 1), (F.PTP_X_CTL_TRANSPORT 0, 1), (F.PTP_X_CTL_DOMAIN 0, 0), (F.PTP_X_CTL_DELAY 0, 1)]).setDom 0 { pdAt := some 7001 }, 0, 7001, by decide +kernel⟩,
   ⟨(mk [(F.PTP_CTL_EN, 1), (F.PTP_X_CTL_EN 0, 1), (F.PTP_X_CTL_TRANSPORT 0, 1), (F.PTP_X_CTL_DOMAIN 0, 0), (F.PTP_X_CTL_DELAY 0, 1)]), ⟨0, 1, 0, 0, 0x77, 0⟩, 7, by decide +kernel⟩,
   ⟨((mk [(F.PTP_CTL_EN, 1), (F.PTP_X_CTL_EN 0, 1), (F.PTP_X_CTL_TRANSPORT 0, 1), (F.PTP_X_CTL_DOMAIN 0, 0), (F.PTP_X_CTL_DELAY 0, 1)]).setDom 0 { t1p := some 900 }).toStc 2000, ⟨0, 1, 0, 0, 0x77, 0⟩, 100, 300, 900, 4, by decide +kernel⟩⟩

theorem witness_PtpDomainCommandsComplete :
    (∃ (s : State) (x t0 : Nat), (x < 2) ∧ ((s.dom x).annAt = some t0) ∧ (s.f (F.PTP_X_STATUS_STATE x) = 3) ∧ (s.f F.MER_STATUS_SRC ≠ x + 1)) ∧
    (∃ (s : State) (x t0 : Nat), (x < 2) ∧ ((s.dom x).lastUsed = some t0) ∧ (s.f (F.PTP_X_STATUS_STATE x) = 3) ∧ (s.f F.MER_STATUS_SRC ≠ x + 1)) ∧
    (∃ (s : State) (o : Int), (s.NoMon) ∧ (s.dark = false) ∧ ((s.dom 0).refusedOfs = some o) ∧ (s.f (F.PTP_X_STATUS_STATE 0) = 5) ∧ (s.f (F.PTP_X_STATUS_STATE 1) = 0) ∧ (s.ptp.steer = 1) ∧ (s.active fnMer = false) ∧ (s.clk.run = false)) ∧
    (∃ (s : State) (x : Nat), (s.dark = false) ∧ (x < 2) ∧ (x = 0 ∨ (s.feature 8 = true ∧ s.compat = false)) ∧ (s.on F.PTP_CTL_EN = true) ∧ (s.on (F.PTP_X_CTL_EN x) = false) ∧ (s.on (F.PTP_X_CTL_EN (1 - x)) = false) ∧ (s.f (F.PTP_X_STATUS_STATE (1 - x)) = 0) ∧ (s.f (F.PTP_X_CTL_TRANSPORT x) ≤ 2) ∧ (s.f (F.PTP_X_CTL_DOMAIN x) ≤ 127)) :=
  ⟨⟨(mk [(F.PTP_CTL_EN, 1), (F.PTP_X_CTL_EN 0, 1), (F.PTP_X_CTL_TRANSPORT 0, 1), (F.PTP_X_CTL_DOMAIN 0, 0), (F.PTP_X_STATUS_STATE 0, 3)]).setDom 0 { gm := some {}, ofs := 9, annAt := some 5, lastUsed := some 6 }, 0, 5, by decide +kernel⟩,
   ⟨(mk [(F.PTP_CTL_EN, 1), (F.PTP_X_CTL_EN 0, 1), (F.PTP_X_CTL_TRANSPORT 0, 1), (F.PTP_X_CTL_DOMAIN 0, 0), (F.PTP_X_STATUS_STATE 0, 3)]).setDom 0 { gm := some {}, ofs := 9, annAt := some 5, lastUsed := some 6 }, 0, 6, by decide +kernel⟩,
   ⟨{ ((mk [(F.PTP_CTL_EN, 1), (F.PTP_X_CTL_EN 0, 1), (F.PTP_X_CTL_TRANSPORT 0, 1), (F.PTP_X_CTL_DOMAIN 0, 0), (F.PTP_X_STATUS_STATE 0, 5)]).setDom 0 { refusedOfs := some 5000 }) with ptp := { ((mk [(F.PTP_CTL_EN, 1), (F.PTP_X_CTL_EN 0, 1), (F.PTP_X_CTL_TRANSPORT 0, 1), (F.PTP_X_CTL_DOMAIN 0, 0)]).setDom 0 { refusedOfs := some 5000 }).ptp with steer := 1 } }, 5000, noMon_of_regs (by decide), by decide +kernel⟩,
   ⟨mk [(F.PTP_CTL_EN, 1), (F.GLB_FEAT_CTL_LOCKED, 1), (⟨R.GLB_FEAT_ACCEPT 0, 8, 8⟩, 1)], 1, by decide +kernel⟩⟩

theorem witness_PulseAndCaptureCommandsComplete :
    (∃ (s : State) (k : Nat) (v : Word), (s.dark = false) ∧ (k < 4) ∧ (bitsOf v.toNat 1 0 = 1) ∧ (bitsOf v.toNat 2 2 = 1) ∧ (s.toutOk k true = true) ∧ ((s.clk.stc : Int) < s.toutStart k true) ∧ ((s.tout k).pulseEnd = none)) ∧
    (∃ (s : State) (k : Nat), (s.dark = false) ∧ (k < 4) ∧ ((s.tout k).pulseEnd = none)) ∧
    (∃ (s : State) (k : Nat), (k < 4) ∧ ((s.tout k).armed = true) ∧ ((s.tout k).stcBase = true) ∧ ((s.tout k).periodic = false) ∧ (0 ≤ ((s.tout k).start : Int) + (s.tout k).offset)) ∧
    (∃ (s : State) (k e0 : Nat), (k < 4) ∧ ((s.tout k).pulseEnd = some e0) ∧ ((s.tout k).armed = false)) ∧
    (∃ (s : State) (j : Nat) (r : Bool), (j < 2) ∧ (s.on (F.PTP_TIN_CTL_EN j) = true) ∧ (s.f (F.PTP_TIN_CTL_EDGE j) = 3) ∧ (s.on (F.PTP_TIN_CTL_EVT j) = false) ∧ ((s.tin j).last = none) ∧ ((s.tin j).fifo.length < 16)) ∧
    (∃ (s : State) (path : BusPath) (j : Nat) (c : TinCap) (r : List TinCap), (s.dark = false) ∧ (path ≠ .service) ∧ (j < 2) ∧ ((s.tin j).fifo = c :: r) ∧ (s.latch = [])) :=
  ⟨⟨mk [(F.PTP_TOUT_PERIOD_HI_VAL 2, 1), (⟨R.PTP_TOUT_START_MID 2, 31, 0⟩, 9)], 2, 0x5, by decide +kernel⟩,
   ⟨(mk [(F.PTP_TOUT_CTL_MODE 1, 2), (F.PTP_TOUT_CTL_STATE 1, 1)]).setTout 1 { armed := true }, 1, by decide +kernel⟩,
   ⟨(mk [(F.PTP_TOUT_CTL_MODE 1, 2), (F.PTP_TOUT_CTL_STATE 1, 1)]).setTout 1 { armed := true, stcBase := true, start := 900, width := 40, offset := -3 }, 1, by decide +kernel⟩,
   ⟨(mk [(F.PTP_TOUT_CTL_STATE 1, 2)]).setTout 1 { pulseEnd := some 333, level := true }, 1, 333, by decide +kernel⟩,
   ⟨mk [(F.PTP_TIN_CTL_EN 1, 1), (F.PTP_TIN_CTL_EDGE 1, 3)], 1, true, by decide +kernel⟩,
   ⟨State.reset.setTin 1 { fifo := [⟨5000000123, 7, 99, true⟩, ⟨6, 8, 9, false⟩] }, .pcie, 1, ⟨5000000123, 7, 99, true⟩, [⟨6, 8, 9, false⟩], by decide +kernel⟩⟩

theorem witness_PllCommandsComplete :
    (∃ (s : State) (m : Nat), (m ≤ 10) ∧ (s.f (F.CKG_CPLL_STATUS_STATE m) = 1)) ∧
    (∃ (s : State) (m : Nat), (m = 8 ∨ m = 9) ∧ (s.f (F.CKG_CPLL_STATUS_STATE m) = 3)) ∧
    (∃ (s : State) (m : Nat) (err : Int), (m ≤ 10) ∧ (m ≠ 0 ∧ m ≠ 1 ∧ m ≠ 6) ∧ (s.f (F.CKG_CPLL_STATUS_STATE m) = 4)) ∧
    (∃ (s : State) (q : Nat), (q ≤ 15) ∧ (s.f (F.CKG_LPLL_STATUS_STATE q) = 4)) ∧
    (∃ (s : State) , (s.dark = false) ∧ (s.relockOk 8 = true)) ∧
    (∃ (s : State) (v : Word), (s.dark = false) ∧ (s.cfgLocked = false) ∧ (11289600 ≤ v.toNat ∧ v.toNat ≤ 98304000) ∧ (s.rd (R.CKG_CPLL_FREQ 10) ≠ v) ∧ (s.relockOk 10 = true)) :=
  ⟨⟨mk [(F.CKG_CPLL_STATUS_STATE 3, 1)], 3, by decide +kernel⟩,
   ⟨mk [(F.CKG_CPLL_STATUS_STATE 8, 3)], 8, by decide +kernel⟩,
   ⟨mk [(F.CKG_CPLL_STATUS_STATE 3, 4)], 3, -99, by decide +kernel⟩,
   ⟨mk [(F.CKG_LPLL_STATUS_STATE 11, 4)], 11, by decide +kernel⟩,
   ⟨mk [(F.CKG_CPLL_STATUS_STATE 8, 4)], by decide +kernel⟩,
   ⟨mk [(F.CKG_CPLL_STATUS_STATE 10, 4)], 22579200, by decide +kernel⟩⟩

theorem witness_ClockOutputCommandsComplete :
    (∃ (s : State) (k : Nat), (s.dark = false) ∧ (k < 4) ∧ (s.on (F.CKG_CLKOUT_CTL_EN k) = false) ∧ (s.clkoutOk k = true)) ∧
    (∃ (s : State) (k : Nat), (s.dark = false) ∧ (k < 4) ∧ (s.on (F.CKG_CLKOUT_CTL_EN k) = true) ∧ (s.rdn (R.CKG_CLKOUT_CTL k) < 0x10000)) ∧
    (∃ (s : State) (k sec : Nat), (k < 4) ∧ (Tab.get (fun _ => (none : Option Nat)) s.ckg.realign k = some sec)) :=
  ⟨⟨mk [(F.CKG_CLKOUT_DIV_DIV 2, 27)], 2, by decide +kernel⟩,
   ⟨mk [(F.CKG_CLKOUT_DIV_DIV 2, 27), (F.CKG_CLKOUT_CTL_EN 2, 1)], 2, by decide +kernel⟩,
   ⟨{ State.reset with ckg := { relockAt := [], realign := [(1, some 3)] } }, 1, 3, by decide +kernel⟩⟩

theorem witness_IngestFlowCommandsComplete :
    (∃ (s : State) (p : IngPacket) (f i n ts k : Nat) (data : List Nat) (nn : Int) (m : MergeSt), (s.ready (fnIng p.port) = true) ∧ (s.ingFlows.find? (s.ingMatch p) = some f) ∧ ((police (s.flowSt f).tok (s.flowSt f).tLast s.clk.stc (bitsOf (s.ftw f 10) 19 0) (bitsOf (s.ftw f 11) 23 0) p.len (s.f (F.ING_PORT_OVH_OVH p.port))) = (k, true)) ∧ (p.body = .anc40 n ts false data) ∧ (ftType (s.ftw f 0) = 1) ∧ (ftTarget (s.ftw f 1) = i) ∧ (mergeStep 16 (s.merge 1 i) (ftLeg (s.ftw f 0)) (s.clk.vpos / s.clk.fu) s.clk.vpos f n = (MergeRes.keep, nn, m)) ∧ (s.clk.inHold = false) ∧ (s.on (F.ING_IN_STATUS_RUN i) = true) ∧ (s.assign i ts 32 = (s.inp i).idx) ∧ (((s.inp i).cur.anc.map List.length).sum + data.length ≤ 65536)) ∧
    (∃ (s : State) (f : Nat), (s.dark = false) ∧ (f < 4096)) ∧
    (∃ (s : State) (f : Nat), (s.dark = false) ∧ (f < 4096) ∧ (ftEn (s.ftw f 0) = false) ∧ (s.ftWriteOk f (fun i => s.rdn (R.ING_FT_DATA i)) = true) ∧ (ftEn (s.rdn (R.ING_FT_DATA 0)) = true)) ∧
    (∃ (s : State) (y i : Nat) (q : Clock), (i < 64) ∧ (s.begin.toPhase 2 0 = some { s.begin with clk := q }) ∧ (s.ingFlows.any (fun f => ftType (s.ftw f 0) == y && ftTarget (s.ftw f 1) == i && ftLeg (s.ftw f 0) == 0) = true) ∧ (s.ingFlows.any (fun f => ftType (s.ftw f 0) == y && ftTarget (s.ftw f 1) == i && ftLeg (s.ftw f 0) == 1) = true) ∧ ((s.merge y i).legA = some (q.vpos / q.fu - 1)) ∧ ((s.merge y i).legB = none) ∧ (0 < q.vpos / q.fu)) :=
  ⟨⟨withFns [(fnIng 0, .ready)] { (mk [(F.ING_IN_STATUS_RUN 3, 1), (F.ING_IN_CTL_EN 3, 1), (F.ING_IN_SIZE_W 3, 64), (F.ING_IN_SIZE_H 3, 64), (F.ENC_CH_RATE_NUM 0, 60), (F.ENC_CH_RATE_DEN 0, 1)] (merAt 500 State.reset)) with ing := { State.reset.ing with ft := [(0, 0x3), (1, 0x30000 + 5000), (2, 0xC0A80001), (10, 1000), (11, 1600)], flows := [(0, { tok := 12000000 })], inputs := [(3, { idx := 0 })] } }, { port := 0, vlan := 0, ipv6 := false, dst := 0xC0A80001, src := 9, dport := 5000, len := 100, body := .anc40 7 0 false [1, 2] }, 0, 3, 7, 0, 11040000, [1, 2], 7, { seen := true, hi := 7, nums := [7], legA := some 0, bAt := 500 }, by decide +kernel⟩,
   ⟨withFns [(fnIng 0, .ready)] { (mk [(F.ING_IN_STATUS_RUN 3, 1), (F.ING_IN_CTL_EN 3, 1), (F.ING_IN_SIZE_W 3, 64), (F.ING_IN_SIZE_H 3, 64), (F.ENC_CH_RATE_NUM 0, 60), (F.ENC_CH_RATE_DEN 0, 1)] (merAt 500 State.reset)) with ing := { State.reset.ing with ft := [(0, 0x3), (1, 0x30000 + 5000), (2, 0xC0A80001), (10, 1000), (11, 1600)], flows := [(0, { tok := 12000000 })], inputs := [(3, { idx := 0 })] } }, 0, by decide +kernel⟩,
   ⟨((((State.reset.wrn (R.ING_FT_DATA 0) 3).wrn (R.ING_FT_DATA 1) (0x30000 + 5000)).wrn (R.ING_FT_DATA 2) 0xEF000001).wrn (R.ING_FT_DATA 10) 1000).wrn (R.ING_FT_DATA 11) 1600, 17, by decide +kernel⟩,
   ⟨{ merAt 300000000 State.reset with ing := { State.reset.ing with ft := [(0, 0x3), (1, 0x30000), (16, 0x203), (17, 0x30001)], merges := [(67, { legA := some 1 })] } }, 1, 3, phaseClk ({ merAt 300000000 State.reset with ing := { State.reset.ing with ft := [(0, 0x3), (1, 0x30000), (16, 0x203), (17, 0x30001)], merges := [(67, { legA := some 1 })] } }).begin 2 0, by decide +kernel⟩⟩

theorem witness_IngestInputCommandsComplete :
    (∃ (s : State) (i : Nat), (s.dark = false) ∧ (i < 64) ∧ (s.on (F.ING_IN_CTL_EN i) = false) ∧ ((s.setF (F.ING_IN_CTL_EN i) 1).inputOk i = true)) ∧
    (∃ (s : State) (i k v e : Nat) (q : Clock), (i < 64) ∧ (s.on (F.ING_IN_CTL_EN i) = true) ∧ ((s.inp i).waiting = true) ∧ (s.active (fnEnc (s.f (F.ING_IN_CTL_CH i))) = true) ∧ ((s.inp i).enV = some e) ∧ (s.begin.toChanAfter 2 (s.f (F.ING_IN_CTL_CH i)) e = some ({ s.begin with clk := q }, k, v))) ∧
    (∃ (s : State) (i n d : Nat) (q : Clock) (l : LineSt), (i < 64) ∧ (s.on (F.ING_IN_STATUS_RUN i) = true) ∧ (s.on (F.ING_IN_CTL_SRC i) = false) ∧ ((s.inp i).nextLine = n) ∧ (0 < n) ∧ (n + 1 < s.f (F.ING_IN_SIZE_H i)) ∧ ((s.inp i).latched = true) ∧ (d = (s.inp i).startV + (s.inp i).org + (n + 1) * s.rdn (R.ING_IN_UNIT i)) ∧ (s.begin.toPos 4 d = some { s.begin with clk := q }) ∧ (Tab.get (fun _ => ({} : LineSt)) (s.inp i).cur.lines n = l) ∧ (l.px.length = s.f (F.ING_IN_SIZE_W i)) ∧ (l.at_ < d) ∧ (s.f (F.ING_IN_SUBST_PIC_THR i) = 0)) ∧
    (∃ (s : State) (i k v u : Nat) (q : Clock), (s.inputUnit i = some u) ∧ (i < 64) ∧ (s.on (F.ING_IN_CTL_EN i) = true) ∧ (s.on (F.ING_IN_STATUS_RUN i) = false) ∧ ((s.inp i).waiting = false) ∧ (s.active (fnEnc (s.f (F.ING_IN_CTL_CH i))) = true) ∧ (s.begin.toChanStart 2 (s.f (F.ING_IN_CTL_CH i)) = some ({ s.begin with clk := q }, k, v))) ∧
    (∃ (s : State) (x : Nat), (s.dark = false) ∧ (x < 16) ∧ (s.on (F.DEC_CTX_CTL_EN x) = false) ∧ ((s.setF (F.DEC_CTX_CTL_EN x) 1).ctxOk x = true) ∧ (s.fn (fnDec x) = .off)) ∧
    (∃ (s : State) (e x : Nat) (u : AuSt), (e < 4) ∧ ((List.range 16).filter (fun y => s.on (F.DEC_CTX_CTL_EN y) && s.f (F.DEC_CTX_CTL_ENGINE y) == e && s.ready (fnDec y)) = [x]) ∧ ((s.ctx x).running = none) ∧ ((s.ctx x).units.find? (fun v => v.complete) = some u)) ∧
    (∃ (s : State) (x : Nat) (a : AuInfo) (u : AuSt), (x < 16) ∧ ((s.ctx x).running = some u) ∧ (s.ready (fnDec x) = true) ∧ ((s.ctx x).pics.length < 24) ∧ (a.unsupported = false) ∧ (a.error = false) ∧ (a.missingSlice = false) ∧ (a.lost = []) ∧ (a.irap = true) ∧ (a.gdrRecovery = none) ∧ (a.rpSei = none) ∧ ((s.ctx x).concealing = false) ∧ ((s.ctx x).entry = false) ∧ (s.f (F.DEC_CTX_STATUS_B2_0 x) = 2)) ∧
    (∃ (s : State) (i x : Nat) (q : Clock) (p : DecPic), (i < 64) ∧ (s.on (F.ING_IN_STATUS_RUN i) = true) ∧ (s.on (F.ING_IN_CTL_SRC i) = true) ∧ ((s.inp i).nextLine = 1) ∧ (s.begin.toPos 4 ((s.inp i).startV + (s.inp i).org) = some { s.begin with clk := q }) ∧ (s.f (F.ING_IN_CTL_DEC_CTX i) = x) ∧ ((s.ctx x).pics = [p]) ∧ ((s.inp i).latched = true) ∧ ((s.inp i).stopV = none) ∧ (p.frame ≤ (s.inp i).idx) ∧ ((s.inp i).idx < p.frame + (s.ctxDivisor i).getD 1) ∧ (p.doneV < (s.inp i).startV + (s.inp i).org) ∧ (p.width = s.f (F.ING_IN_SIZE_W i)) ∧ (p.height = s.f (F.ING_IN_SIZE_H i)) ∧ (p.chroma422 = (s.f (F.ING_IN_CTL_FMT i) == 0)) ∧ (p.depth10 = (s.f (F.ING_IN_CTL_DEPTH i) == 1)) ∧ (p.concealed = false) ∧ ((s.inp i).jitMin = none) ∧ (s.active (fnEnc (s.f (F.ING_IN_CTL_CH i))) = true)) :=
  ⟨⟨withFns [(fnEnc 0, .ready)] (mk [(F.ING_IN_SIZE_W 3, 1920), (F.ING_IN_SIZE_H 3, 1080), (F.ENC_CH_RATE_NUM 0, 60), (F.ENC_CH_RATE_DEN 0, 1), (F.HBM_S_POOL_SIZE 0, 4096)]), 3, by decide +kernel⟩,
   ⟨withFns [(fnEnc 0, .ready)] { (mk [(F.ING_IN_STATUS_RUN 3, 1), (F.ING_IN_CTL_EN 3, 1), (F.ING_IN_SIZE_W 3, 64), (F.ING_IN_SIZE_H 3, 64), (F.ENC_CH_RATE_NUM 0, 60), (F.ENC_CH_RATE_DEN 0, 1)] (merAt 500 State.reset)) with ing := { State.reset.ing with inputs := [(3, { waiting := true, enV := some 70 })] } }, 3, chanK (withFns [(fnEnc 0, .ready)] { (mk [(F.ING_IN_STATUS_RUN 3, 1), (F.ING_IN_CTL_EN 3, 1), (F.ING_IN_SIZE_W 3, 64), (F.ING_IN_SIZE_H 3, 64), (F.ENC_CH_RATE_NUM 0, 60), (F.ENC_CH_RATE_DEN 0, 1)] (merAt 500 State.reset)) with ing := { State.reset.ing with inputs := [(3, { waiting := true, enV := some 70 })] } }).begin 2 0, chanV (withFns [(fnEnc 0, .ready)] { (mk [(F.ING_IN_STATUS_RUN 3, 1), (F.ING_IN_CTL_EN 3, 1), (F.ING_IN_SIZE_W 3, 64), (F.ING_IN_SIZE_H 3, 64), (F.ENC_CH_RATE_NUM 0, 60), (F.ENC_CH_RATE_DEN 0, 1)] (merAt 500 State.reset)) with ing := { State.reset.ing with inputs := [(3, { waiting := true, enV := some 70 })] } }).begin 2 0, 70, chanClk (withFns [(fnEnc 0, .ready)] { (mk [(F.ING_IN_STATUS_RUN 3, 1), (F.ING_IN_CTL_EN 3, 1), (F.ING_IN_SIZE_W 3, 64), (F.ING_IN_SIZE_H 3, 64), (F.ENC_CH_RATE_NUM 0, 60), (F.ENC_CH_RATE_DEN 0, 1)] (merAt 500 State.reset)) with ing := { State.reset.ing with inputs := [(3, { waiting := true, enV := some 70 })] } }).begin 2 0, by decide +kernel⟩,
   ⟨({ (mk [(F.ING_IN_STATUS_RUN 3, 1), (F.ING_IN_CTL_EN 3, 1), (F.ING_IN_SIZE_W 3, 64), (F.ING_IN_SIZE_H 3, 64), (F.ENC_CH_RATE_NUM 0, 60), (F.ENC_CH_RATE_DEN 0, 1)] (merAt 500 State.reset)) with ing := { State.reset.ing with inputs := [(3, { nextLine := 1, latched := true, cur := { lines := [(1, { px := (List.range 64).map (fun x => (x, some ⟨1, 2, 3⟩)) })] } })] } }).wrn (R.ING_IN_UNIT 3) 65536, 3, 1, 131072, posClk (({ (mk [(F.ING_IN_STATUS_RUN 3, 1), (F.ING_IN_CTL_EN 3, 1), (F.ING_IN_SIZE_W 3, 64), (F.ING_IN_SIZE_H 3, 64), (F.ENC_CH_RATE_NUM 0, 60), (F.ENC_CH_RATE_DEN 0, 1)] (merAt 500 State.reset)) with ing := { State.reset.ing with inputs := [(3, { nextLine := 1, latched := true, cur := { lines := [(1, { px := (List.range 64).map (fun x => (x, some ⟨1, 2, 3⟩)) })] } })] } }).wrn (R.ING_IN_UNIT 3) 65536).begin 4 131072, { px := (List.range 64).map (fun x => (x, some ⟨1, 2, 3⟩)) }, by decide +kernel⟩,
   ⟨withFns [(fnEnc 0, .ready)] { (mk [(F.ING_IN_STATUS_RUN 3, 1), (F.ING_IN_CTL_EN 3, 1), (F.ING_IN_SIZE_W 3, 64), (F.ING_IN_SIZE_H 3, 64), (F.ENC_CH_RATE_NUM 0, 60), (F.ENC_CH_RATE_DEN 0, 1), (F.ING_IN_STATUS_RUN 3, 0), (F.ING_IN_SIZE_W 3, 1920), (F.ING_IN_SIZE_H 3, 1080)] (merAt 500 State.reset)) with ing := { State.reset.ing with inputs := [(3, { prev := some {} })] } }, 3, chanK (withFns [(fnEnc 0, .ready)] { (mk [(F.ING_IN_STATUS_RUN 3, 1), (F.ING_IN_CTL_EN 3, 1), (F.ING_IN_SIZE_W 3, 64), (F.ING_IN_SIZE_H 3, 64), (F.ENC_CH_RATE_NUM 0, 60), (F.ENC_CH_RATE_DEN 0, 1), (F.ING_IN_STATUS_RUN 3, 0), (F.ING_IN_SIZE_W 3, 1920), (F.ING_IN_SIZE_H 3, 1080)] (merAt 500 State.reset)) with ing := { State.reset.ing with inputs := [(3, { prev := some {} })] } }).begin 2 0, chanV (withFns [(fnEnc 0, .ready)] { (mk [(F.ING_IN_STATUS_RUN 3, 1), (F.ING_IN_CTL_EN 3, 1), (F.ING_IN_SIZE_W 3, 64), (F.ING_IN_SIZE_H 3, 64), (F.ENC_CH_RATE_NUM 0, 60), (F.ENC_CH_RATE_DEN 0, 1), (F.ING_IN_STATUS_RUN 3, 0), (F.ING_IN_SIZE_W 3, 1920), (F.ING_IN_SIZE_H 3, 1080)] (merAt 500 State.reset)) with ing := { State.reset.ing with inputs := [(3, { prev := some {} })] } }).begin 2 0, ((withFns [(fnEnc 0, .ready)] { (mk [(F.ING_IN_STATUS_RUN 3, 1), (F.ING_IN_CTL_EN 3, 1), (F.ING_IN_SIZE_W 3, 64), (F.ING_IN_SIZE_H 3, 64), (F.ENC_CH_RATE_NUM 0, 60), (F.ENC_CH_RATE_DEN 0, 1), (F.ING_IN_STATUS_RUN 3, 0), (F.ING_IN_SIZE_W 3, 1920), (F.ING_IN_SIZE_H 3, 1080)] (merAt 500 State.reset)) with ing := { State.reset.ing with inputs := [(3, { prev := some {} })] } }).inputUnit 3).getD 0, chanClk (withFns [(fnEnc 0, .ready)] { (mk [(F.ING_IN_STATUS_RUN 3, 1), (F.ING_IN_CTL_EN 3, 1), (F.ING_IN_SIZE_W 3, 64), (F.ING_IN_SIZE_H 3, 64), (F.ENC_CH_RATE_NUM 0, 60), (F.ENC_CH_RATE_DEN 0, 1), (F.ING_IN_STATUS_RUN 3, 0), (F.ING_IN_SIZE_W 3, 1920), (F.ING_IN_SIZE_H 3, 1080)] (merAt 500 State.reset)) with ing := { State.reset.ing with inputs := [(3, { prev := some {} })] } }).begin 2 0, by decide +kernel⟩,
   ⟨mk [(F.GLB_FEAT_CTL_LOCKED, 1), (⟨R.GLB_FEAT_ACCEPT 0, 7, 7⟩, 1), (F.DEC_CTX_SIZE_W 2, 1920), (F.DEC_CTX_SIZE_H 2, 1080), (F.DEC_CTX_RATE_NUM 2, 60), (F.DEC_CTX_RATE_DEN 2, 1), (F.HBM_S_POOL_SIZE 0, 4096)], 2, by decide +kernel⟩,
   ⟨withFns [(fnDec 2, .ready)] { mk [(F.DEC_CTX_CTL_EN 2, 1), (F.DEC_CTX_CTL_ENGINE 2, 1), (F.DEC_CTX_STATUS_B2_0 2, 2)] with ing := { State.reset.ing with dec := [(2, { units := [{ ts := 9, pkts := [(4, [38, 1, 9])], complete := true }] })] } }, 1, 2, { ts := 9, pkts := [(4, [38, 1, 9])], complete := true }, by decide +kernel⟩,
   ⟨withFns [(fnDec 2, .ready)] { mk [(F.DEC_CTX_CTL_EN 2, 1), (F.DEC_CTX_CTL_ENGINE 2, 1), (F.DEC_CTX_STATUS_B2_0 2, 2)] with ing := { State.reset.ing with dec := [(2, { running := some { ts := 9, pkts := [(4, [38, 1, 9])], complete := true } })] } }, 2, ⟨4, true, true, none, none, [], false, [], 64, false, false, 1920, 1080, true, true⟩, { ts := 9, pkts := [(4, [38, 1, 9])], complete := true }, by decide +kernel⟩,
   ⟨withFns [(fnEnc 0, .ready)] { (mk [(F.ING_IN_STATUS_RUN 3, 1), (F.ING_IN_CTL_EN 3, 1), (F.ING_IN_SIZE_W 3, 64), (F.ING_IN_SIZE_H 3, 64), (F.ENC_CH_RATE_NUM 0, 60), (F.ENC_CH_RATE_DEN 0, 1), (F.ING_IN_CTL_SRC 3, 1), (F.ING_IN_CTL_DEC_CTX 3, 2), (F.DEC_CTX_RATE_NUM 2, 60), (F.DEC_CTX_RATE_DEN 2, 1)] (merAt 500 State.reset)) with ing := { State.reset.ing with inputs := [(3, { nextLine := 1, org := 3000, idx := 0, latched := true })], dec := [(2, { pics := [⟨4, 0, 0, 400, 0, 1, { srcs := [(1, [])] }, 64, 64, true, false, false⟩] })] } }, 3, 2, posClk (withFns [(fnEnc 0, .ready)] { (mk [(F.ING_IN_STATUS_RUN 3, 1), (F.ING_IN_CTL_EN 3, 1), (F.ING_IN_SIZE_W 3, 64), (F.ING_IN_SIZE_H 3, 64), (F.ENC_CH_RATE_NUM 0, 60), (F.ENC_CH_RATE_DEN 0, 1), (F.ING_IN_CTL_SRC 3, 1), (F.ING_IN_CTL_DEC_CTX 3, 2), (F.DEC_CTX_RATE_NUM 2, 60), (F.DEC_CTX_RATE_DEN 2, 1)] (merAt 500 State.reset)) with ing := { State.reset.ing with inputs := [(3, { nextLine := 1, org := 3000, idx := 0, latched := true })], dec := [(2, { pics := [⟨4, 0, 0, 400, 0, 1, { srcs := [(1, [])] }, 64, 64, true, false, false⟩] })] } }).begin 4 3000, ⟨4, 0, 0, 400, 0, 1, { srcs := [(1, [])] }, 64, 64, true, false, false⟩, by decide +kernel⟩⟩

theorem witness_CompositionSetCommandsComplete :
    (∃ (s : State) (c : Nat), (s.dark = false) ∧ (c < 32) ∧ (s.on (F.COMP_CH_CTL_EN c) = false) ∧ (s.fn (fnComp c) = .off) ∧ ((s.setF (F.COMP_CH_CTL_EN c) 1).compEnableOk c = true)) ∧
    (∃ (s : State) (c j : Nat) (d : Option Nat), ((j = 8 ∧ (s.begin.pendRegs c j).en = true) = False) ∧ (s.dark = false) ∧ (c < 32) ∧ (j < 9) ∧ (s.fn (fnComp c) = .off) ∧ ((s.cmp c).pendOf j = none) ∧ ((s.cmp c).histOf j = []) ∧ (s.begin.setOk c j (s.begin.pendRegs c j) = true)) ∧
    (∃ (s : State) (c j : Nat), (s.dark = false) ∧ (c < 32) ∧ (j < 8)) ∧
    (∃ (s : State) (k v : Nat), (s.dark = false) ∧ (k < 256) ∧ (Tab.get (fun _ => (none : Option (Nat × Nat))) s.comp.fencePrev k = none)) ∧
    (∃ (s : State) (c j : Nat) (p : PendSet) (q : Clock), (c < 32) ∧ (j < 8) ∧ (s.active (fnComp c) = true) ∧ (s.begin.toFlip c = some { s.begin with clk := q }) ∧ (s.usesHelmFlips = false) ∧ ((s.cmp c).pend = [(j, some p)]) ∧ (p.fence = none) ∧ (p.stamp < q.vpos)) :=
  ⟨⟨mk [(F.COMP_CH_CANVAS_W 5, 64), (F.COMP_CH_CANVAS_H 5, 128), (F.ENC_CH_SIZE_W 5, 64), (F.ENC_CH_SIZE_H 5, 128), (F.ENC_CH_RATE_NUM 5, 60), (F.ENC_CH_RATE_DEN 5, 1), (⟨R.COMP_CH_SET_ZORDER 5, 20, 0⟩, 0x1AC688), (F.MER_CH_LINES_L_C 5, 150)], 5, by decide +kernel⟩,
   ⟨State.reset, 5, 6, none, by simp, by decide +kernel⟩,
   ⟨{ mk [(F.COMP_CH_CANVAS_W 5, 64), (F.COMP_CH_CANVAS_H 5, 128), (F.ENC_CH_SIZE_W 5, 64), (F.ENC_CH_SIZE_H 5, 128), (F.ENC_CH_RATE_NUM 5, 60), (F.ENC_CH_RATE_DEN 5, 1), (⟨R.COMP_CH_SET_ZORDER 5, 20, 0⟩, 0x1AC688), (F.MER_CH_LINES_L_C 5, 150)] with comp := { State.reset.comp with chs := [(5, { pend := [(2, some { val := {}, fence := none, stamp := 0 })] })] } }, 5, 2, by decide +kernel⟩,
   ⟨State.reset.wrn (R.COMP_FENCE_LO 9) 4, 9, 0x500000007, by decide +kernel⟩,
   ⟨withFns [(fnComp 5, .ready)] { merAt 500 (mk [(F.COMP_CH_CANVAS_W 5, 64), (F.COMP_CH_CANVAS_H 5, 128), (F.ENC_CH_SIZE_W 5, 64), (F.ENC_CH_SIZE_H 5, 128), (F.ENC_CH_RATE_NUM 5, 60), (F.ENC_CH_RATE_DEN 5, 1), (⟨R.COMP_CH_SET_ZORDER 5, 20, 0⟩, 0x1AC688), (F.MER_CH_LINES_L_C 5, 150)]) with comp := { State.reset.comp with chs := [(5, { pend := [(2, some { val := { ctl := 1 }, fence := none, stamp := 0 })] })] } }, 5, 2, { val := { ctl := 1 }, fence := none, stamp := 0 }, (match (withFns [(fnComp 5, .ready)] { merAt 500 (mk [(F.COMP_CH_CANVAS_W 5, 64), (F.COMP_CH_CANVAS_H 5, 128), (F.ENC_CH_SIZE_W 5, 64), (F.ENC_CH_SIZE_H 5, 128), (F.ENC_CH_RATE_NUM 5, 60), (F.ENC_CH_RATE_DEN 5, 1), (⟨R.COMP_CH_SET_ZORDER 5, 20, 0⟩, 0x1AC688), (F.MER_CH_LINES_L_C 5, 150)]) with comp := { State.reset.comp with chs := [(5, { pend := [(2, some { val := { ctl := 1 }, fence := none, stamp := 0 })] })] } }).begin.toFlip 5 with | some t => t.clk | none => State.reset.clk), by decide +kernel⟩⟩

theorem witness_CompositionRowCommandsComplete :
    (∃ (s : State) (c : Nat), (s.dark = false) ∧ (c < 32) ∧ (s.on (F.COMP_CH_CTL_EN c) = true) ∧ (s.rdn (R.COMP_CH_CTL c) < 2 ^ 12) ∧ (s.fn (fnComp c) = .ready) ∧ (s.compBusy c s.clk.vpos = true)) ∧
    (∃ (s : State) (c e : Nat) (p : PendSet), (c < 32) ∧ ((s.cmp c).checkEnd = some e) ∧ ((s.cmp c).pendOf 8 = some p) ∧ ((List.range (ceilDiv (s.meshDims c).2 8)).all (fun r => s.begin.meshRowOk c (bitsOf p.val.mesh 21 0) r) = true) ∧ (s.active (fnComp c) = true)) ∧
    (∃ (s : State) (c r : Nat) (q : Clock), (c < 32) ∧ (s.ready (fnComp c) = true) ∧ ((s.cmp c).started = true) ∧ ((s.cmp c).stopV = none) ∧ ((s.cmp c).row = r) ∧ (0 < r) ∧ (r + 1 < s.rowsOf c) ∧ (s.begin.toPos 4 (s.rowA c (s.cmp c).startV r + (s.cmp c).org - s.originOf (R.MER_CH_ORIGIN c)) = some { s.begin with clk := q })) ∧
    (∃ (s : State) (c e v0 v1 : Nat) (a b : SetVal) (q : Clock), (c < 32) ∧ ((s.cmp c).endV = some e) ∧ (s.begin.toPos 4 e = some { s.begin with clk := q }) ∧ ((s.cmp c).hist = [(0, [(v0, a), (v1, b)])]) ∧ (a.used = true) ∧ (v0 ≤ v1) ∧ (v1 ≤ (s.cmp c).startV)) ∧
    (∃ (s : State) (c e w : Nat) (q : Clock), (c < 32) ∧ (s.fn (fnComp c) = .draining) ∧ ((s.cmp c).endV = some e) ∧ ((s.cmp c).stopV = some w) ∧ (w ≤ (s.cmp c).startV) ∧ (s.begin.toPos 4 e = some { s.begin with clk := q }) ∧ ((s.cmp c).pend = []) ∧ ((s.cmp c).hist = [])) :=
  ⟨⟨withFns [(fnComp 5, .ready)] { merAt 500 (mk [(F.COMP_CH_CANVAS_W 5, 64), (F.COMP_CH_CANVAS_H 5, 128), (F.ENC_CH_SIZE_W 5, 64), (F.ENC_CH_SIZE_H 5, 128), (F.ENC_CH_RATE_NUM 5, 60), (F.ENC_CH_RATE_DEN 5, 1), (⟨R.COMP_CH_SET_ZORDER 5, 20, 0⟩, 0x1AC688), (F.MER_CH_LINES_L_C 5, 150), (F.COMP_CH_CTL_EN 5, 1)]) with comp := { State.reset.comp with chs := [(5, { started := true })] } }, 5, by decide +kernel⟩,
   ⟨withFns [(fnComp 5, .ready)] { merAt 500 (mk [(⟨R.COMP_CH_SET_STATUS 5, 4, 4⟩, 1)]) with comp := { State.reset.comp with chs := [(5, { checkEnd := some 99, pend := [(8, some { val := { ctl := 1 }, fence := none, stamp := 0 })] })] } }, 5, 99, { val := { ctl := 1 }, fence := none, stamp := 0 }, by decide +kernel⟩,
   ⟨withFns [(fnComp 5, .ready)] { merAt 500 (mk [(F.COMP_CH_CANVAS_W 5, 64), (F.COMP_CH_CANVAS_H 5, 128), (F.ENC_CH_SIZE_W 5, 64), (F.ENC_CH_SIZE_H 5, 128), (F.ENC_CH_RATE_NUM 5, 60), (F.ENC_CH_RATE_DEN 5, 1), (⟨R.COMP_CH_SET_ZORDER 5, 20, 0⟩, 0x1AC688), (F.MER_CH_LINES_L_C 5, 150), (F.ENC_CH_SIZE_W 5, 2), (F.ENC_CH_SIZE_H 5, 180), (F.MER_CH_LINES_L_C 5, 225)]) with comp := { State.reset.comp with chs := [(5, { started := true, row := 1 })] } }, 5, 1, posClk (withFns [(fnComp 5, .ready)] { merAt 500 (mk [(F.COMP_CH_CANVAS_W 5, 64), (F.COMP_CH_CANVAS_H 5, 128), (F.ENC_CH_SIZE_W 5, 64), (F.ENC_CH_SIZE_H 5, 128), (F.ENC_CH_RATE_NUM 5, 60), (F.ENC_CH_RATE_DEN 5, 1), (⟨R.COMP_CH_SET_ZORDER 5, 20, 0⟩, 0x1AC688), (F.MER_CH_LINES_L_C 5, 150), (F.ENC_CH_SIZE_W 5, 2), (F.ENC_CH_SIZE_H 5, 180), (F.MER_CH_LINES_L_C 5, 225)]) with comp := { State.reset.comp with chs := [(5, { started := true, row := 1 })] } }).begin 4 ((withFns [(fnComp 5, .ready)] { merAt 500 (mk [(F.COMP_CH_CANVAS_W 5, 64), (F.COMP_CH_CANVAS_H 5, 128), (F.ENC_CH_SIZE_W 5, 64), (F.ENC_CH_SIZE_H 5, 128), (F.ENC_CH_RATE_NUM 5, 60), (F.ENC_CH_RATE_DEN 5, 1), (⟨R.COMP_CH_SET_ZORDER 5, 20, 0⟩, 0x1AC688), (F.MER_CH_LINES_L_C 5, 150), (F.ENC_CH_SIZE_W 5, 2), (F.ENC_CH_SIZE_H 5, 180), (F.MER_CH_LINES_L_C 5, 225)]) with comp := { State.reset.comp with chs := [(5, { started := true, row := 1 })] } }).rowA 5 0 1), by decide +kernel⟩,
   ⟨{ merAt 500 State.reset with comp := { State.reset.comp with chs := [(5, { endV := some 9000, startV := 700, hist := [(0, [(10, { used := true }), (600, { ctl := 1 })])] })] } }, 5, 9000, 10, 600, { used := true }, { ctl := 1 }, posClk ({ merAt 500 State.reset with comp := { State.reset.comp with chs := [(5, { endV := some 9000, startV := 700, hist := [(0, [(10, { used := true }), (600, { ctl := 1 })])] })] } }).begin 4 9000, by decide +kernel⟩,
   ⟨withFns [(fnComp 5, .draining)] { merAt 500 State.reset with comp := { State.reset.comp with chs := [(5, { endV := some 9000, startV := 700, stopV := some 600, started := true })] } }, 5, 9000, 600, posClk (withFns [(fnComp 5, .draining)] { merAt 500 State.reset with comp := { State.reset.comp with chs := [(5, { endV := some 9000, startV := 700, stopV := some 600, started := true })] } }).begin 4 9000, by decide +kernel⟩⟩

theorem witness_MemoryStackCommandsComplete :
    (∃ (s : State) (n : Nat), (s.dark = false) ∧ (n < 4) ∧ (s.fn (fnHbm n) = .off) ∧ (s.pinRateOk = true) ∧ (s.cal.sights = [])) ∧
    (∃ (s : State) (n ms : Nat), (n < 4) ∧ (s.fn (fnHbm n) = .starting)) ∧
    (∃ (s : State) (n ms : Nat), (n < 4) ∧ (s.fn (fnHbm n) = .starting) ∧ ((s.stk n).fails < 2)) ∧
    (∃ (s : State) (n ms : Nat), (n < 4) ∧ (s.fn (fnHbm n) = .starting) ∧ ((s.stk n).fails = 2) ∧ (s.isl.queue.length < 8)) ∧
    (∃ (s : State) (n : Nat), (s.dark = false) ∧ (n < 4) ∧ (s.fn (fnHbm n) = .ready) ∧ (s.stackUsed n = false) ∧ (s.cal.sights = [])) ∧
    (∃ (s : State) (n p b : Nat) (last : Bool) (reqs : List HbmAcc), (n < 4) ∧ (p < 32) ∧ (s.ready (fnHbm n) = true) ∧ (hbmReqs p reqs = []) ∧ ((s.pcSt n p).queue = []) ∧ (rfmDue (s.schedCfg n) ((s.pcSt n p).bank b) = false)) ∧
    (∃ (s : State) (n : Nat) (c : Int), (n < 4) ∧ (s.on (F.HBM_S_TEMP_HOT n) = false) ∧ (85 ≤ c) ∧ (c ≤ 127)) ∧
    (∃ (s : State) (n p b : Nat) (reqs : List HbmAcc), (n < 4) ∧ (p < 32) ∧ (s.ready (fnHbm n) = true) ∧ (hbmReqs p reqs = []) ∧ ((s.pcSt n p).queue = []) ∧ (rfmDue (s.schedCfg n) ((s.pcSt n p).bank b) = true) ∧ (requesterClass ((s.pcSt n p).bank b).offender = 0)) :=
  ⟨⟨State.reset, 2, by decide +kernel⟩,
   ⟨withFns [(fnHbm 2, .starting)] (merAt 500 State.reset), 2, 150, by decide +kernel⟩,
   ⟨withFns [(fnHbm 2, .starting)] (merAt 500 State.reset), 2, 150, by decide +kernel⟩,
   ⟨(withFns [(fnHbm 2, .starting)] (merAt 500 State.reset)).setStk 2 { fails := 2 }, 2, 150, by decide +kernel⟩,
   ⟨withFns [(fnHbm 2, .ready)] (mk [(F.HBM_S_CTL_EN 2, 1)]), 2, by decide +kernel⟩,
   ⟨(withFns [(fnHbm 2, .ready)] (mk [(F.HBM_S_RH_THR 2, 100)])).setPcSt 2 9 { banks := [(7, { row := some 5, post := 2, rows := [(5, 40)] })] }, 2, 9, 7, true, [], by decide +kernel⟩,
   ⟨State.reset, 2, 91, by decide +kernel⟩,
   ⟨(withFns [(fnHbm 2, .ready)] (mk [(F.HBM_S_RH_THR 2, 100)])).setPcSt 2 9 { banks := [(3, { row := some 5, rows := [(5, 100)], tally := [(70, 60), (71, 40)] })] }, 2, 9, 3, [], by decide +kernel⟩⟩

theorem witness_MemoryErrorCommandsComplete :
    (∃ (s : State) (n p r : Nat) (x : Throttle), (n < 4) ∧ (p < 32) ∧ ((s.stk n).throttles.find? (fun y => y.id == r && y.pc == p) = some x)) ∧
    (∃ (s : State) (n p r : Nat) (reqs : List HbmAcc) (y : HbmReq), (n < 4) ∧ (p < 32) ∧ (s.ready (fnHbm n) = true) ∧ (requesterClass r ≠ 0) ∧ (hbmReqs p reqs = []) ∧ ((s.pcSt n p).queue = [y]) ∧ (y.id = r) ∧ (promotedAt (s.schedCfg n) (s.hcycle s.clk.ns) y = false) ∧ ((s.stk n).throttles = []) ∧ (((s.pcSt n p).bank (bankOf y.ofs)).row = none) ∧ (rfmDue (s.schedCfg n) ((s.pcSt n p).bank (bankOf y.ofs)) = true)) ∧
    (∃ (s : State) (a : Nat), (s.burstIn a = true) ∧ (Tab.get (fun _ => (none : Option Nat)) (s.stk (stackOf a)).ceFrame (pcOf a) ≠ some (s.clk.vpos / s.clk.fu))) ∧
    (∃ (s : State) (a r : Nat), (s.burstIn a = true) ∧ (r ≠ 74) ∧ (r < 128)) ∧
    (∃ (s : State) (n p : Nat), (n < 4) ∧ (s.ready (fnHbm n) = true) ∧ (s.f (F.HBM_S_SCRUB_HOURS n) ≠ 0) ∧ (p = pcOf (n * 2 ^ 36 + (s.stk n).scrub * 256))) ∧
    (∃ (s : State) (n p : Nat), (n < 4) ∧ (p < 32) ∧ (s.ready (fnHbm n) = true) ∧ (Tab.get (fun _ => ([] : List Nat)) (s.stk n).parity p = [])) :=
  ⟨⟨State.reset.setStk 2 { throttles := [{ id := 80, pc := 9, bank := 3, since := 77 }] }, 2, 9, 80, { id := 80, pc := 9, bank := 3, since := 77 }, by decide +kernel⟩,
   ⟨(withFns [(fnHbm 2, .ready)] (mk [(F.HBM_S_RH_THR 2, 100), (F.HBM_S_AGE_AGE_1 2, 9), (F.HBM_S_AGE_AGE_2 2, 9)])).setPcSt 2 9 { queue := [⟨64, 0x900, false, 5⟩], banks := [(bankOf 0x900, { rows := [(3, 100)] })] }, 2, 9, 64, [], ⟨64, 0x900, false, 5⟩, by decide +kernel⟩,
   ⟨withFns [(fnHbm 2, .ready)] (merAt 500 State.reset), 0x2012345660, by decide +kernel⟩,
   ⟨withFns [(fnHbm 2, .ready)] (State.reset.hbmPut 0x2012345660 0x55667788 4), 0x2012345664, 70, by decide +kernel⟩,
   ⟨(withFns [(fnHbm 2, .ready)] State.reset).setStk 2 { scrub := 30, scrubAt := 4001 }, 2, pcOf (2 * 2 ^ 36 + 30 * 256), by decide +kernel⟩,
   ⟨withFns [(fnHbm 2, .ready)] State.reset, 2, 9, by decide +kernel⟩⟩

theorem witness_ChannelStartCommandsComplete :
    (∃ (s : State) (n lv : Nat), (s.dark = false) ∧ (n < 32) ∧ (s.on (F.ENC_CH_CTL_EN n) = false) ∧ (levelMinOk (s.on (F.ENC_CH_CTL_CODEC n)) (s.f (F.ENC_CH_CTL_LEVEL_MIN n)) = true) ∧ (s.fn (fnEnc n) = .off) ∧ ((s.setF (F.ENC_CH_CTL_EN n) 1).encEnableOk n = true) ∧ (s.encLevel n = some lv) ∧ (s.fsOn = false) ∧ (s.cfgLocked = false)) ∧
    (∃ (s : State) (n k v : Nat) (q : Clock), (n < 32) ∧ (s.fn (fnEnc n) = .starting) ∧ ((s.encDeps n).all s.ready = true) ∧ (s.begin.toChanStart 2 n = some ({ s.begin with clk := q }, k, v)) ∧ (((s.encDeps n).map s.fnSince).foldl max 0 < v) ∧ ((s.encCh n).started = false) ∧ ((s.encCh n).member = false) ∧ ((s.encCh n).restart = []) ∧ (oneStack s.lbAddr 0x1401000 = true) ∧ (0 < s.rdn (R.ENC_CH_REF_BUFS n)) ∧ (s.refAddr n + s.rdn (R.ENC_CH_REF_BUFS n) * s.encPicBytes n ≤ 2 ^ 38)) ∧
    (∃ (s : State) (n k v : Nat) (q : Clock), (n < 32) ∧ (s.ready (fnEnc n) = true) ∧ (s.begin.toChanStart 2 n = some ({ s.begin with clk := q }, k, v)) ∧ (({ s with clk := q } : State).startKind n k v = ⟨false, false, false⟩) ∧ ((s.encCh n).member = false) ∧ (oneStack s.lbAddr 0x1401000 = true)) ∧
    (∃ (s : State) (n : Nat), (s.dark = false) ∧ (n < 32) ∧ (s.active (fnEnc n) = true) ∧ (s.clk.vpos ∉ (s.encCh n).restart)) ∧
    (∃ (s : State) (n : Nat), (s.dark = false) ∧ (n < 32) ∧ (s.on (F.ENC_CH_CTL_EN n) = true) ∧ (levelMinOk (s.on (F.ENC_CH_CTL_CODEC n)) (s.f (F.ENC_CH_CTL_LEVEL_MIN n)) = true) ∧ (s.fn (fnEnc n) = .ready) ∧ (s.encBusy n = true) ∧ (s.encOwed n = false) ∧ (s.rdn (R.ENC_CH_CTL n) < 2 ^ 9)) ∧
    (∃ (s : State) (n : Nat), (n < 32) ∧ (s.fn (fnEnc n) = .draining) ∧ (s.encBusy n = false) ∧ ((s.encCh n).owed = false) ∧ (s.allJobs.filter (fun b => b.ch == n) = []) ∧ ((List.range 64).all (fun p => !s.on (F.DIS_PIPE_STATUS_COOL_REQ p)) = true) ∧ ((s.demandOf (fnEnc n)).1 < 4)) :=
  ⟨⟨mk [(F.GLB_FEAT_CTL_LOCKED, 1), (⟨R.GLB_FEAT_ACCEPT 0, 1, 0⟩, 3), (F.ENC_CH_SIZE_W 5, 64), (F.ENC_CH_SIZE_H 5, 128), (F.ENC_CH_RATE_NUM 5, 60), (F.ENC_CH_RATE_DEN 5, 1), (F.ENC_CH_LAYOUT_NCOL 5, 1), (F.ENC_CH_LAYOUT_NROW 5, 1), (⟨R.ENC_CH_ROWH 5 0, 7, 0⟩, 2), (F.HBM_S_POOL_SIZE 0, 4096), (F.ENC_CH_RC_RATE_BR 5, 20000), (F.ENC_CH_RC_LAT_LAT 5, 4500), (F.ENC_CH_GDR_PERIOD 5, 4), (F.MER_CH_LINES_L_C 5, 150), (F.ENC_CH_RC_FLOOR_FLOOR_I 5, 100)], 5, 64, by decide +kernel⟩,
   ⟨withFns [(fnComp 5, .ready), (fnDis, .ready), (fnHbm 0, .ready), (fnEnc 5, .starting)] (merAt 500 (mk [(F.GLB_FEAT_CTL_LOCKED, 1), (⟨R.GLB_FEAT_ACCEPT 0, 1, 0⟩, 3), (F.ENC_CH_SIZE_W 5, 64), (F.ENC_CH_SIZE_H 5, 128), (F.ENC_CH_RATE_NUM 5, 60), (F.ENC_CH_RATE_DEN 5, 1), (F.ENC_CH_LAYOUT_NCOL 5, 1), (F.ENC_CH_LAYOUT_NROW 5, 1), (⟨R.ENC_CH_ROWH 5 0, 7, 0⟩, 2), (F.HBM_S_POOL_SIZE 0, 4096), (F.ENC_CH_RC_RATE_BR 5, 20000), (F.ENC_CH_RC_LAT_LAT 5, 4500), (F.ENC_CH_GDR_PERIOD 5, 4), (F.MER_CH_LINES_L_C 5, 150), (F.ENC_CH_RC_FLOOR_FLOOR_I 5, 100), (⟨R.ENC_CH_REF_BUFS 5, 31, 0⟩, 7), (F.ENC_CH_SIZE_W 5, 8), (F.ENC_CH_SIZE_H 5, 8), (F.ENC_CH_CTL_EN 5, 1)])), 5, chanK (withFns [(fnComp 5, .ready), (fnDis, .ready), (fnHbm 0, .ready), (fnEnc 5, .starting)] (merAt 500 (mk [(F.GLB_FEAT_CTL_LOCKED, 1), (⟨R.GLB_FEAT_ACCEPT 0, 1, 0⟩, 3), (F.ENC_CH_SIZE_W 5, 64), (F.ENC_CH_SIZE_H 5, 128), (F.ENC_CH_RATE_NUM 5, 60), (F.ENC_CH_RATE_DEN 5, 1), (F.ENC_CH_LAYOUT_NCOL 5, 1), (F.ENC_CH_LAYOUT_NROW 5, 1), (⟨R.ENC_CH_ROWH 5 0, 7, 0⟩, 2), (F.HBM_S_POOL_SIZE 0, 4096), (F.ENC_CH_RC_RATE_BR 5, 20000), (F.ENC_CH_RC_LAT_LAT 5, 4500), (F.ENC_CH_GDR_PERIOD 5, 4), (F.MER_CH_LINES_L_C 5, 150), (F.ENC_CH_RC_FLOOR_FLOOR_I 5, 100), (⟨R.ENC_CH_REF_BUFS 5, 31, 0⟩, 7), (F.ENC_CH_SIZE_W 5, 8), (F.ENC_CH_SIZE_H 5, 8), (F.ENC_CH_CTL_EN 5, 1)]))).begin 2 5, chanV (withFns [(fnComp 5, .ready), (fnDis, .ready), (fnHbm 0, .ready), (fnEnc 5, .starting)] (merAt 500 (mk [(F.GLB_FEAT_CTL_LOCKED, 1), (⟨R.GLB_FEAT_ACCEPT 0, 1, 0⟩, 3), (F.ENC_CH_SIZE_W 5, 64), (F.ENC_CH_SIZE_H 5, 128), (F.ENC_CH_RATE_NUM 5, 60), (F.ENC_CH_RATE_DEN 5, 1), (F.ENC_CH_LAYOUT_NCOL 5, 1), (F.ENC_CH_LAYOUT_NROW 5, 1), (⟨R.ENC_CH_ROWH 5 0, 7, 0⟩, 2), (F.HBM_S_POOL_SIZE 0, 4096), (F.ENC_CH_RC_RATE_BR 5, 20000), (F.ENC_CH_RC_LAT_LAT 5, 4500), (F.ENC_CH_GDR_PERIOD 5, 4), (F.MER_CH_LINES_L_C 5, 150), (F.ENC_CH_RC_FLOOR_FLOOR_I 5, 100), (⟨R.ENC_CH_REF_BUFS 5, 31, 0⟩, 7), (F.ENC_CH_SIZE_W 5, 8), (F.ENC_CH_SIZE_H 5, 8), (F.ENC_CH_CTL_EN 5, 1)]))).begin 2 5, chanClk (withFns [(fnComp 5, .ready), (fnDis, .ready), (fnHbm 0, .ready), (fnEnc 5, .starting)] (merAt 500 (mk [(F.GLB_FEAT_CTL_LOCKED, 1), (⟨R.GLB_FEAT_ACCEPT 0, 1, 0⟩, 3), (F.ENC_CH_SIZE_W 5, 64), (F.ENC_CH_SIZE_H 5, 128), (F.ENC_CH_RATE_NUM 5, 60), (F.ENC_CH_RATE_DEN 5, 1), (F.ENC_CH_LAYOUT_NCOL 5, 1), (F.ENC_CH_LAYOUT_NROW 5, 1), (⟨R.ENC_CH_ROWH 5 0, 7, 0⟩, 2), (F.HBM_S_POOL_SIZE 0, 4096), (F.ENC_CH_RC_RATE_BR 5, 20000), (F.ENC_CH_RC_LAT_LAT 5, 4500), (F.ENC_CH_GDR_PERIOD 5, 4), (F.MER_CH_LINES_L_C 5, 150), (F.ENC_CH_RC_FLOOR_FLOOR_I 5, 100), (⟨R.ENC_CH_REF_BUFS 5, 31, 0⟩, 7), (F.ENC_CH_SIZE_W 5, 8), (F.ENC_CH_SIZE_H 5, 8), (F.ENC_CH_CTL_EN 5, 1)]))).begin 2 5, by decide +kernel⟩,
   ⟨withFns [(fnComp 5, .ready), (fnDis, .ready), (fnHbm 0, .ready), (fnEnc 5, .ready)] { merAt 300000000 (mk [(F.GLB_FEAT_CTL_LOCKED, 1), (⟨R.GLB_FEAT_ACCEPT 0, 1, 0⟩, 3), (F.ENC_CH_SIZE_W 5, 64), (F.ENC_CH_SIZE_H 5, 128), (F.ENC_CH_RATE_NUM 5, 60), (F.ENC_CH_RATE_DEN 5, 1), (F.ENC_CH_LAYOUT_NCOL 5, 1), (F.ENC_CH_LAYOUT_NROW 5, 1), (⟨R.ENC_CH_ROWH 5 0, 7, 0⟩, 2), (F.HBM_S_POOL_SIZE 0, 4096), (F.ENC_CH_RC_RATE_BR 5, 20000), (F.ENC_CH_RC_LAT_LAT 5, 4500), (F.ENC_CH_GDR_PERIOD 5, 4), (F.MER_CH_LINES_L_C 5, 150), (F.ENC_CH_RC_FLOOR_FLOOR_I 5, 100), (F.ENC_CH_CTL_EN 5, 1)]) with enc := [(5, { started := true, k := 0, kg := 0, i := 1, ks := [⟨0, 0, 0, false⟩], per := 4, rho := 2 })] }, 5, chanK (withFns [(fnComp 5, .ready), (fnDis, .ready), (fnHbm 0, .ready), (fnEnc 5, .ready)] { merAt 300000000 (mk [(F.GLB_FEAT_CTL_LOCKED, 1), (⟨R.GLB_FEAT_ACCEPT 0, 1, 0⟩, 3), (F.ENC_CH_SIZE_W 5, 64), (F.ENC_CH_SIZE_H 5, 128), (F.ENC_CH_RATE_NUM 5, 60), (F.ENC_CH_RATE_DEN 5, 1), (F.ENC_CH_LAYOUT_NCOL 5, 1), (F.ENC_CH_LAYOUT_NROW 5, 1), (⟨R.ENC_CH_ROWH 5 0, 7, 0⟩, 2), (F.HBM_S_POOL_SIZE 0, 4096), (F.ENC_CH_RC_RATE_BR 5, 20000), (F.ENC_CH_RC_LAT_LAT 5, 4500), (F.ENC_CH_GDR_PERIOD 5, 4), (F.MER_CH_LINES_L_C 5, 150), (F.ENC_CH_RC_FLOOR_FLOOR_I 5, 100), (F.ENC_CH_CTL_EN 5, 1)]) with enc := [(5, { started := true, k := 0, kg := 0, i := 1, ks := [⟨0, 0, 0, false⟩], per := 4, rho := 2 })] }).begin 2 5, chanV (withFns [(fnComp 5, .ready), (fnDis, .ready), (fnHbm 0, .ready), (fnEnc 5, .ready)] { merAt 300000000 (mk [(F.GLB_FEAT_CTL_LOCKED, 1), (⟨R.GLB_FEAT_ACCEPT 0, 1, 0⟩, 3), (F.ENC_CH_SIZE_W 5, 64), (F.ENC_CH_SIZE_H 5, 128), (F.ENC_CH_RATE_NUM 5, 60), (F.ENC_CH_RATE_DEN 5, 1), (F.ENC_CH_LAYOUT_NCOL 5, 1), (F.ENC_CH_LAYOUT_NROW 5, 1), (⟨R.ENC_CH_ROWH 5 0, 7, 0⟩, 2), (F.HBM_S_POOL_SIZE 0, 4096), (F.ENC_CH_RC_RATE_BR 5, 20000), (F.ENC_CH_RC_LAT_LAT 5, 4500), (F.ENC_CH_GDR_PERIOD 5, 4), (F.MER_CH_LINES_L_C 5, 150), (F.ENC_CH_RC_FLOOR_FLOOR_I 5, 100), (F.ENC_CH_CTL_EN 5, 1)]) with enc := [(5, { started := true, k := 0, kg := 0, i := 1, ks := [⟨0, 0, 0, false⟩], per := 4, rho := 2 })] }).begin 2 5, chanClk (withFns [(fnComp 5, .ready), (fnDis, .ready), (fnHbm 0, .ready), (fnEnc 5, .ready)] { merAt 300000000 (mk [(F.GLB_FEAT_CTL_LOCKED, 1), (⟨R.GLB_FEAT_ACCEPT 0, 1, 0⟩, 3), (F.ENC_CH_SIZE_W 5, 64), (F.ENC_CH_SIZE_H 5, 128), (F.ENC_CH_RATE_NUM 5, 60), (F.ENC_CH_RATE_DEN 5, 1), (F.ENC_CH_LAYOUT_NCOL 5, 1), (F.ENC_CH_LAYOUT_NROW 5, 1), (⟨R.ENC_CH_ROWH 5 0, 7, 0⟩, 2), (F.HBM_S_POOL_SIZE 0, 4096), (F.ENC_CH_RC_RATE_BR 5, 20000), (F.ENC_CH_RC_LAT_LAT 5, 4500), (F.ENC_CH_GDR_PERIOD 5, 4), (F.MER_CH_LINES_L_C 5, 150), (F.ENC_CH_RC_FLOOR_FLOOR_I 5, 100), (F.ENC_CH_CTL_EN 5, 1)]) with enc := [(5, { started := true, k := 0, kg := 0, i := 1, ks := [⟨0, 0, 0, false⟩], per := 4, rho := 2 })] }).begin 2 5, by decide +kernel⟩,
   ⟨withFns [(fnComp 5, .ready), (fnDis, .ready), (fnHbm 0, .ready), (fnEnc 5, .ready)] { merAt 500 (mk [(F.GLB_FEAT_CTL_LOCKED, 1), (⟨R.GLB_FEAT_ACCEPT 0, 1, 0⟩, 3), (F.ENC_CH_SIZE_W 5, 64), (F.ENC_CH_SIZE_H 5, 128), (F.ENC_CH_RATE_NUM 5, 60), (F.ENC_CH_RATE_DEN 5, 1), (F.ENC_CH_LAYOUT_NCOL 5, 1), (F.ENC_CH_LAYOUT_NROW 5, 1), (⟨R.ENC_CH_ROWH 5 0, 7, 0⟩, 2), (F.HBM_S_POOL_SIZE 0, 4096), (F.ENC_CH_RC_RATE_BR 5, 20000), (F.ENC_CH_RC_LAT_LAT 5, 4500), (F.ENC_CH_GDR_PERIOD 5, 4), (F.MER_CH_LINES_L_C 5, 150), (F.ENC_CH_RC_FLOOR_FLOOR_I 5, 100), (F.ENC_CH_CTL_EN 5, 1)]) with enc := [(5, { started := true })] }, 5, by decide +kernel⟩,
   ⟨withFns [(fnComp 5, .ready), (fnDis, .ready), (fnHbm 0, .ready), (fnEnc 5, .ready)] { merAt 500 (mk [(F.GLB_FEAT_CTL_LOCKED, 1), (⟨R.GLB_FEAT_ACCEPT 0, 1, 0⟩, 3), (F.ENC_CH_SIZE_W 5, 64), (F.ENC_CH_SIZE_H 5, 128), (F.ENC_CH_RATE_NUM 5, 60), (F.ENC_CH_RATE_DEN 5, 1), (F.ENC_CH_LAYOUT_NCOL 5, 1), (F.ENC_CH_LAYOUT_NROW 5, 1), (⟨R.ENC_CH_ROWH 5 0, 7, 0⟩, 2), (F.HBM_S_POOL_SIZE 0, 4096), (F.ENC_CH_RC_RATE_BR 5, 20000), (F.ENC_CH_RC_LAT_LAT 5, 4500), (F.ENC_CH_GDR_PERIOD 5, 4), (F.MER_CH_LINES_L_C 5, 150), (F.ENC_CH_RC_FLOOR_FLOOR_I 5, 100), (F.ENC_CH_CTL_EN 5, 1)]) with enc := [(5, { started := true, pics := [{ rows := [{}] }] })] }, 5, by decide +kernel⟩,
   ⟨({ withFns [(fnComp 5, .ready), (fnDis, .ready), (fnHbm 0, .ready), (fnEnc 5, .draining)] { merAt 500 (mk [(F.GLB_FEAT_CTL_LOCKED, 1), (⟨R.GLB_FEAT_ACCEPT 0, 1, 0⟩, 3), (F.ENC_CH_SIZE_W 5, 64), (F.ENC_CH_SIZE_H 5, 128), (F.ENC_CH_RATE_NUM 5, 60), (F.ENC_CH_RATE_DEN 5, 1), (F.ENC_CH_LAYOUT_NCOL 5, 1), (F.ENC_CH_LAYOUT_NROW 5, 1), (⟨R.ENC_CH_ROWH 5 0, 7, 0⟩, 2), (F.HBM_S_POOL_SIZE 0, 4096), (F.ENC_CH_RC_RATE_BR 5, 20000), (F.ENC_CH_RC_LAT_LAT 5, 4500), (F.ENC_CH_GDR_PERIOD 5, 4), (F.MER_CH_LINES_L_C 5, 150), (F.ENC_CH_RC_FLOOR_FLOOR_I 5, 100), (F.ENC_CH_CTL_EN 5, 1)]) with enc := [(5, { started := true, pics := [{ rows := [{ released := true }] }], stopV := some 100 })] } with hbm := { State.reset.hbm with demand := [(89, (1, 12))] } }).wrn (R.HBM_S_POOL_NEED 1) 30, 5, by decide +kernel⟩⟩

theorem witness_ChannelRowCommandsComplete :
    (∃ (s : State) (n w : Nat) (pc : PicSt) (ro : RowSt) (q : Clock), (n < 32) ∧ (s.ready (fnEnc n) = true) ∧ ((s.encCh n).pics.find? (fun p => p.rows.any (fun r => !r.budgeted)) = some pc) ∧ ((s.encCh n).picOf ro.rho = some pc) ∧ (pc.rows.find? (fun r => !r.budgeted) = some ro) ∧ (ro.r ≠ 0) ∧ (s.begin.toPos 7 ro.a = some { s.begin with clk := q }) ∧ ((({ s with clk := q } : State).budgetAt n pc ro ((({ s with clk := q } : State).bucket n (s.encCh n) ro.a).2 / s.zUnit)).2 = false) ∧ (s.f (F.ENC_CH_LAYOUT_NCOL n) = w) ∧ (s.rdn R.DIS_LB_HEAD + w < 262144) ∧ (s.on F.DIS_TRK_CTL_EN = false) ∧ (oneStack s.lbAddr 0x1401000 = true)) ∧
    (∃ (s : State) (n j : Nat) (ro : RowSt) (jb : Job) (pc : PicSt) (q : Clock), (n < 32) ∧ ((s.encCh n).rows.find? (fun r => r.budgeted && !r.psDone && !r.released) = some ro) ∧ ((s.encCh n).picOf jb.rho = some pc) ∧ (s.bufAddr n pc.buf + s.encPicBytes n ≤ 2 ^ 38) ∧ (ro.jobs = [j]) ∧ (s.job j = some jb) ∧ (jb.idx = j) ∧ (j < 262144) ∧ (jb.ch = n) ∧ (jb.st = .ready) ∧ (jb.pipe = none) ∧ (s.begin.toPos 7 jb.ps = some { s.begin with clk := q }) ∧ ((s.encCh n).restart = []) ∧ ((s.encCh n).pics.all (fun p => p.dipDone || p.rows.any (fun x => !x.budgeted)) = true) ∧ (s.on F.DIS_TRK_CTL_EN = false) ∧ (oneStack s.lbAddr 0x1401000 = true)) ∧
    (∃ (s : State) (n j : Nat) (ro : RowSt) (pc : PicSt) (jb : Job) (q : Clock), (n < 32) ∧ ((s.encCh n).rows.find? (fun r => !r.released) = some ro) ∧ (ro.budgeted = true) ∧ ((s.encCh n).cut = false) ∧ (ro.jobs = [j]) ∧ (s.job j = some jb) ∧ (jb.idx = j) ∧ (j < 262144) ∧ (jb.ch = n) ∧ (jb.st = .done) ∧ ((s.encCh n).picOf ro.rho = some pc) ∧ (s.begin.toPos 8 ro.rel = some { s.begin with clk := q }) ∧ (s.twinned n = false) ∧ (s.egsAll = []) ∧ ((List.range 8).all (fun p => decide (q.ns < (s.eport p).busy)) = true) ∧ (s.on F.DIS_TRK_CTL_EN = false) ∧ (oneStack s.lbAddr 0x1401000 = true)) ∧
    (∃ (s : State) (n : Nat) (ro : RowSt) (pc : PicSt) (q : Clock), (n < 32) ∧ ((s.encCh n).pics = [pc]) ∧ (pc.rows.find? (fun r => r.released && !r.freed) = some ro) ∧ (s.begin.toPos 8 (ro.rel + s.toFu 72000) = some { s.begin with clk := q })) :=
  ⟨⟨withFns [(fnComp 5, .ready), (fnDis, .ready), (fnHbm 0, .ready), (fnEnc 5, .ready)] { merAt 500 (mk [(F.GLB_FEAT_CTL_LOCKED, 1), (⟨R.GLB_FEAT_ACCEPT 0, 1, 0⟩, 3), (F.ENC_CH_SIZE_W 5, 64), (F.ENC_CH_SIZE_H 5, 128), (F.ENC_CH_RATE_NUM 5, 60), (F.ENC_CH_RATE_DEN 5, 1), (F.ENC_CH_LAYOUT_NCOL 5, 1), (F.ENC_CH_LAYOUT_NROW 5, 1), (⟨R.ENC_CH_ROWH 5 0, 7, 0⟩, 2), (F.HBM_S_POOL_SIZE 0, 4096), (F.ENC_CH_RC_RATE_BR 5, 20000), (F.ENC_CH_RC_LAT_LAT 5, 4500), (F.ENC_CH_GDR_PERIOD 5, 4), (F.MER_CH_LINES_L_C 5, 150), (F.ENC_CH_RC_FLOOR_FLOOR_I 5, 100), (F.ENC_CH_CTL_EN 5, 1)]) with enc := [(5, { started := true, pics := [{ k := 7, target := 90000, rows := [{ budgeted := true, a := 600, rel := 90000 }, { rho := 1, r := 1, a := 900, rel := 91000, fl := 1100 }], words := [] }], rho := 2 })] }, 5, 1, { k := 7, target := 90000, rows := [{ budgeted := true, a := 600, rel := 90000 }, { rho := 1, r := 1, a := 900, rel := 91000, fl := 1100 }], words := [] }, { rho := 1, r := 1, a := 900, rel := 91000, fl := 1100 }, posClk (withFns [(fnComp 5, .ready), (fnDis, .ready), (fnHbm 0, .ready), (fnEnc 5, .ready)] { merAt 500 (mk [(F.GLB_FEAT_CTL_LOCKED, 1), (⟨R.GLB_FEAT_ACCEPT 0, 1, 0⟩, 3), (F.ENC_CH_SIZE_W 5, 64), (F.ENC_CH_SIZE_H 5, 128), (F.ENC_CH_RATE_NUM 5, 60), (F.ENC_CH_RATE_DEN 5, 1), (F.ENC_CH_LAYOUT_NCOL 5, 1), (F.ENC_CH_LAYOUT_NROW 5, 1), (⟨R.ENC_CH_ROWH 5 0, 7, 0⟩, 2), (F.HBM_S_POOL_SIZE 0, 4096), (F.ENC_CH_RC_RATE_BR 5, 20000), (F.ENC_CH_RC_LAT_LAT 5, 4500), (F.ENC_CH_GDR_PERIOD 5, 4), (F.MER_CH_LINES_L_C 5, 150), (F.ENC_CH_RC_FLOOR_FLOOR_I 5, 100), (F.ENC_CH_CTL_EN 5, 1)]) with enc := [(5, { started := true, pics := [{ k := 7, target := 90000, rows := [{ budgeted := true, a := 600, rel := 90000 }, { rho := 1, r := 1, a := 900, rel := 91000, fl := 1100 }], words := [] }], rho := 2 })] }).begin 7 900, by decide +kernel⟩,
   ⟨withFns [(fnComp 5, .ready), (fnDis, .ready), (fnHbm 0, .ready), (fnEnc 5, .ready)] { merAt 500 (mk [(F.GLB_FEAT_CTL_LOCKED, 1), (⟨R.GLB_FEAT_ACCEPT 0, 1, 0⟩, 3), (F.ENC_CH_SIZE_W 5, 64), (F.ENC_CH_SIZE_H 5, 128), (F.ENC_CH_RATE_NUM 5, 60), (F.ENC_CH_RATE_DEN 5, 1), (F.ENC_CH_LAYOUT_NCOL 5, 1), (F.ENC_CH_LAYOUT_NROW 5, 1), (⟨R.ENC_CH_ROWH 5 0, 7, 0⟩, 2), (F.HBM_S_POOL_SIZE 0, 4096), (F.ENC_CH_RC_RATE_BR 5, 20000), (F.ENC_CH_RC_LAT_LAT 5, 4500), (F.ENC_CH_GDR_PERIOD 5, 4), (F.MER_CH_LINES_L_C 5, 150), (F.ENC_CH_RC_FLOOR_FLOOR_I 5, 100), (F.ENC_CH_SIZE_W 5, 8), (F.ENC_CH_SIZE_H 5, 8), (F.ENC_CH_CTL_EN 5, 1)]) with enc := [(5, { started := true, pics := [{ rows := [{ rho := 3, budgeted := true, rel := 9000, jobs := [77] }, {}] }] })], dis := { State.reset.dis with jobs := [(77, some { idx := 77, ch := 5, rho := 3, ps := 8000, budget := 4000, st := .ready })] } }, 5, 77, { rho := 3, budgeted := true, rel := 9000, jobs := [77] }, { idx := 77, ch := 5, rho := 3, ps := 8000, budget := 4000, st := .ready }, { rows := [{ rho := 3, budgeted := true, rel := 9000, jobs := [77] }, {}] }, posClk (withFns [(fnComp 5, .ready), (fnDis, .ready), (fnHbm 0, .ready), (fnEnc 5, .ready)] { merAt 500 (mk [(F.GLB_FEAT_CTL_LOCKED, 1), (⟨R.GLB_FEAT_ACCEPT 0, 1, 0⟩, 3), (F.ENC_CH_SIZE_W 5, 64), (F.ENC_CH_SIZE_H 5, 128), (F.ENC_CH_RATE_NUM 5, 60), (F.ENC_CH_RATE_DEN 5, 1), (F.ENC_CH_LAYOUT_NCOL 5, 1), (F.ENC_CH_LAYOUT_NROW 5, 1), (⟨R.ENC_CH_ROWH 5 0, 7, 0⟩, 2), (F.HBM_S_POOL_SIZE 0, 4096), (F.ENC_CH_RC_RATE_BR 5, 20000), (F.ENC_CH_RC_LAT_LAT 5, 4500), (F.ENC_CH_GDR_PERIOD 5, 4), (F.MER_CH_LINES_L_C 5, 150), (F.ENC_CH_RC_FLOOR_FLOOR_I 5, 100), (F.ENC_CH_SIZE_W 5, 8), (F.ENC_CH_SIZE_H 5, 8), (F.ENC_CH_CTL_EN 5, 1)]) with enc := [(5, { started := true, pics := [{ rows := [{ rho := 3, budgeted := true, rel := 9000, jobs := [77] }, {}] }] })], dis := { State.reset.dis with jobs := [(77, some { idx := 77, ch := 5, rho := 3, ps := 8000, budget := 4000, st := .ready })] } }).begin 7 8000, by decide +kernel⟩,
   ⟨withFns [(fnComp 5, .ready), (fnDis, .ready), (fnHbm 0, .ready), (fnEnc 5, .ready)] { merAt 500 (mk [(F.GLB_FEAT_CTL_LOCKED, 1), (⟨R.GLB_FEAT_ACCEPT 0, 1, 0⟩, 3), (F.ENC_CH_SIZE_W 5, 64), (F.ENC_CH_SIZE_H 5, 128), (F.ENC_CH_RATE_NUM 5, 60), (F.ENC_CH_RATE_DEN 5, 1), (F.ENC_CH_LAYOUT_NCOL 5, 1), (F.ENC_CH_LAYOUT_NROW 5, 1), (⟨R.ENC_CH_ROWH 5 0, 7, 0⟩, 2), (F.HBM_S_POOL_SIZE 0, 4096), (F.ENC_CH_RC_RATE_BR 5, 20000), (F.ENC_CH_RC_LAT_LAT 5, 4500), (F.ENC_CH_GDR_PERIOD 5, 4), (F.MER_CH_LINES_L_C 5, 150), (F.ENC_CH_RC_FLOOR_FLOOR_I 5, 100), (F.ENC_CH_SIZE_W 5, 8), (F.ENC_CH_SIZE_H 5, 8), (F.ENC_CH_CTL_EN 5, 1)]) with enc := [(5, { started := true, pics := [{ rows := [{ rho := 3, budgeted := true, rel := 9000, jobs := [77] }, {}] }] })], dis := { State.reset.dis with jobs := [(77, some { idx := 77, ch := 5, ps := 8000, rel := 9000, budget := 4000, st := .done, out := some { bits := 3000, floorCtu := 0, qpSum := 0, data := [1, 2] } })] }, egs := { State.reset.egs with ports := (List.range 8).map (fun p => (p, { busy := 10 ^ 15 })) } }, 5, 77, { rho := 3, budgeted := true, rel := 9000, jobs := [77] }, { rows := [{ rho := 3, budgeted := true, rel := 9000, jobs := [77] }, {}] }, { idx := 77, ch := 5, ps := 8000, rel := 9000, budget := 4000, st := .done, out := some { bits := 3000, floorCtu := 0, qpSum := 0, data := [1, 2] } }, posClk (withFns [(fnComp 5, .ready), (fnDis, .ready), (fnHbm 0, .ready), (fnEnc 5, .ready)] { merAt 500 (mk [(F.GLB_FEAT_CTL_LOCKED, 1), (⟨R.GLB_FEAT_ACCEPT 0, 1, 0⟩, 3), (F.ENC_CH_SIZE_W 5, 64), (F.ENC_CH_SIZE_H 5, 128), (F.ENC_CH_RATE_NUM 5, 60), (F.ENC_CH_RATE_DEN 5, 1), (F.ENC_CH_LAYOUT_NCOL 5, 1), (F.ENC_CH_LAYOUT_NROW 5, 1), (⟨R.ENC_CH_ROWH 5 0, 7, 0⟩, 2), (F.HBM_S_POOL_SIZE 0, 4096), (F.ENC_CH_RC_RATE_BR 5, 20000), (F.ENC_CH_RC_LAT_LAT 5, 4500), (F.ENC_CH_GDR_PERIOD 5, 4), (F.MER_CH_LINES_L_C 5, 150), (F.ENC_CH_RC_FLOOR_FLOOR_I 5, 100), (F.ENC_CH_SIZE_W 5, 8), (F.ENC_CH_SIZE_H 5, 8), (F.ENC_CH_CTL_EN 5, 1)]) with enc := [(5, { started := true, pics := [{ rows := [{ rho := 3, budgeted := true, rel := 9000, jobs := [77] }, {}] }] })], dis := { State.reset.dis with jobs := [(77, some { idx := 77, ch := 5, ps := 8000, rel := 9000, budget := 4000, st := .done, out := some { bits := 3000, floorCtu := 0, qpSum := 0, data := [1, 2] } })] }, egs := { State.reset.egs with ports := (List.range 8).map (fun p => (p, { busy := 10 ^ 15 })) } }).begin 8 9000, by decide +kernel⟩,
   ⟨withFns [(fnComp 5, .ready), (fnDis, .ready), (fnHbm 0, .ready), (fnEnc 5, .ready)] { merAt 500 (mk [(F.GLB_FEAT_CTL_LOCKED, 1), (⟨R.GLB_FEAT_ACCEPT 0, 1, 0⟩, 3), (F.ENC_CH_SIZE_W 5, 64), (F.ENC_CH_SIZE_H 5, 128), (F.ENC_CH_RATE_NUM 5, 60), (F.ENC_CH_RATE_DEN 5, 1), (F.ENC_CH_LAYOUT_NCOL 5, 1), (F.ENC_CH_LAYOUT_NROW 5, 1), (⟨R.ENC_CH_ROWH 5 0, 7, 0⟩, 2), (F.HBM_S_POOL_SIZE 0, 4096), (F.ENC_CH_RC_RATE_BR 5, 20000), (F.ENC_CH_RC_LAT_LAT 5, 4500), (F.ENC_CH_GDR_PERIOD 5, 4), (F.MER_CH_LINES_L_C 5, 150), (F.ENC_CH_RC_FLOOR_FLOOR_I 5, 100), (F.ENC_CH_SIZE_W 5, 8), (F.ENC_CH_SIZE_H 5, 8), (F.ENC_CH_CTL_EN 5, 1)]) with enc := [(5, { started := true, pics := [{ rows := [{ rho := 3, budgeted := true, rel := 9000, jobs := [77], released := true }, {}] }] })] }, 5, { rho := 3, budgeted := true, rel := 9000, jobs := [77], released := true }, { rows := [{ rho := 3, budgeted := true, rel := 9000, jobs := [77], released := true }, {}] }, posClk (withFns [(fnComp 5, .ready), (fnDis, .ready), (fnHbm 0, .ready), (fnEnc 5, .ready)] { merAt 500 (mk [(F.GLB_FEAT_CTL_LOCKED, 1), (⟨R.GLB_FEAT_ACCEPT 0, 1, 0⟩, 3), (F.ENC_CH_SIZE_W 5, 64), (F.ENC_CH_SIZE_H 5, 128), (F.ENC_CH_RATE_NUM 5, 60), (F.ENC_CH_RATE_DEN 5, 1), (F.ENC_CH_LAYOUT_NCOL 5, 1), (F.ENC_CH_LAYOUT_NROW 5, 1), (⟨R.ENC_CH_ROWH 5 0, 7, 0⟩, 2), (F.HBM_S_POOL_SIZE 0, 4096), (F.ENC_CH_RC_RATE_BR 5, 20000), (F.ENC_CH_RC_LAT_LAT 5, 4500), (F.ENC_CH_GDR_PERIOD 5, 4), (F.MER_CH_LINES_L_C 5, 150), (F.ENC_CH_RC_FLOOR_FLOOR_I 5, 100), (F.ENC_CH_SIZE_W 5, 8), (F.ENC_CH_SIZE_H 5, 8), (F.ENC_CH_CTL_EN 5, 1)]) with enc := [(5, { started := true, pics := [{ rows := [{ rho := 3, budgeted := true, rel := 9000, jobs := [77], released := true }, {}] }] })] }).begin 8 (9000 + (withFns [(fnComp 5, .ready), (fnDis, .ready), (fnHbm 0, .ready), (fnEnc 5, .ready)] { merAt 500 (mk [(F.GLB_FEAT_CTL_LOCKED, 1), (⟨R.GLB_FEAT_ACCEPT 0, 1, 0⟩, 3), (F.ENC_CH_SIZE_W 5, 64), (F.ENC_CH_SIZE_H 5, 128), (F.ENC_CH_RATE_NUM 5, 60), (F.ENC_CH_RATE_DEN 5, 1), (F.ENC_CH_LAYOUT_NCOL 5, 1), (F.ENC_CH_LAYOUT_NROW 5, 1), (⟨R.ENC_CH_ROWH 5 0, 7, 0⟩, 2), (F.HBM_S_POOL_SIZE 0, 4096), (F.ENC_CH_RC_RATE_BR 5, 20000), (F.ENC_CH_RC_LAT_LAT 5, 4500), (F.ENC_CH_GDR_PERIOD 5, 4), (F.MER_CH_LINES_L_C 5, 150), (F.ENC_CH_RC_FLOOR_FLOOR_I 5, 100), (F.ENC_CH_SIZE_W 5, 8), (F.ENC_CH_SIZE_H 5, 8), (F.ENC_CH_CTL_EN 5, 1)]) with enc := [(5, { started := true, pics := [{ rows := [{ rho := 3, budgeted := true, rel := 9000, jobs := [77], released := true }, {}] }] })] }).toFu 72000), by decide +kernel⟩⟩

theorem witness_JobStartCommandsComplete :
    (∃ (s : State) (j p : Nat) (jb : Job), (s.allJobs = [jb]) ∧ (jb.idx = j) ∧ (j < 262144) ∧ (jb.st = .ready) ∧ (jb.isReplay = false) ∧ (s.dis.spare.isSome = true) ∧ (jb.row = 0) ∧ ((List.range 64).filter (fun x => s.pipeAvail x && s.dis.spare != some x && (s.pipe x).next.isNone) = [p]) ∧ (s.on F.DIS_TRK_CTL_EN = false) ∧ (oneStack s.lbAddr 0x1401000 = true)) ∧
    (∃ (s : State) (p j : Nat) (jb : Job) (q : Clock), (p < 64) ∧ ((s.pipe p).running = none) ∧ ((s.pipe p).next = some j) ∧ (s.job j = some jb) ∧ (jb.idx = j) ∧ (j < 262144) ∧ (jb.isReplay = false) ∧ (jb.row = 0) ∧ (s.begin.toPos 7 jb.dPos = some { s.begin with clk := q }) ∧ (q.vpos ≤ jb.latest) ∧ (s.on F.DIS_TRK_CTL_EN = false) ∧ (oneStack s.lbAddr 0x1401000 = true)) ∧
    (∃ (s : State) (j : Nat) (jb : Job) (q : Clock), (s.job j = some jb) ∧ (jb.idx = j) ∧ (jb.isReplay = false) ∧ (jb.missed = false) ∧ (jb.st = .ready) ∧ (jb.ch < 32) ∧ (s.begin.toPos 7 jb.latest = some { s.begin with clk := q }) ∧ (Tab.get (fun _ => (none : Option Nat)) s.dis.missFrame jb.ch ≠ some (q.vpos / q.fu)) ∧ (s.on F.DIS_TRK_CTL_EN = false)) ∧
    (∃ (s : State) (p j : Nat) (jb : Job) (q : Clock), (p < 64) ∧ ((s.pipe p).running = some j) ∧ (s.job j = some jb) ∧ (jb.idx = j) ∧ (j < 262144) ∧ (jb.st = .running) ∧ (jb.replays < s.f F.DIS_CTL_MAX_REPLAY) ∧ ((s.pipe p).faults = []) ∧ (1 < s.f F.DIS_RETIRE_THR) ∧ (s.on F.DIS_TRK_CTL_EN = false) ∧ (oneStack s.lbAddr 0x1401000 = true) ∧ (jb.isReplay = false) ∧ (jb.missed = false) ∧ (s.begin.toPos 7 jb.deadline = some { s.begin with clk := q })) :=
  ⟨⟨withFns [(fnDis, .ready), (fnHbm 0, .ready)] { merAt 500 (mk [(F.DIS_QUAD_CTL_PARK 0, 1), (F.DIS_QUAD_CTL_PARK 1, 1), (F.DIS_QUAD_CTL_PARK 2, 1)]) with dis := { State.reset.dis with jobs := [(77, some { idx := 77, ch := 5, k := 9, dPos := 8000, latest := 20000, deadline := 40000, ps := 50000, rel := 90000, budget := 4000 })], pipes := (List.range 14).map (fun i => (49 + i, { next := some 3 })), spare := some 63 } }, 77, 48, { idx := 77, ch := 5, k := 9, dPos := 8000, latest := 20000, deadline := 40000, ps := 50000, rel := 90000, budget := 4000 }, by decide +kernel⟩,
   ⟨withFns [(fnDis, .ready), (fnHbm 0, .ready)] { merAt 500 (mk [(F.ENC_CH_LAYOUT_NCOL 5, 1), (F.ENC_CH_SIZE_W 5, 64), (F.ENC_CH_SIZE_H 5, 128), (F.MER_CH_LINES_L_C 5, 150), (F.ENC_CH_RATE_NUM 5, 60), (F.ENC_CH_RATE_DEN 5, 1)]) with dis := { State.reset.dis with jobs := [(77, some { idx := 77, ch := 5, k := 9, dPos := 8000, latest := 20000, deadline := 40000, ps := 50000, rel := 90000, budget := 4000, st := .named, pipe := some 9 })], pipes := [(9, { next := some 77 })] } }, 9, 77, { idx := 77, ch := 5, k := 9, dPos := 8000, latest := 20000, deadline := 40000, ps := 50000, rel := 90000, budget := 4000, st := .named, pipe := some 9 }, posClk (withFns [(fnDis, .ready), (fnHbm 0, .ready)] { merAt 500 (mk [(F.ENC_CH_LAYOUT_NCOL 5, 1), (F.ENC_CH_SIZE_W 5, 64), (F.ENC_CH_SIZE_H 5, 128), (F.MER_CH_LINES_L_C 5, 150), (F.ENC_CH_RATE_NUM 5, 60), (F.ENC_CH_RATE_DEN 5, 1)]) with dis := { State.reset.dis with jobs := [(77, some { idx := 77, ch := 5, k := 9, dPos := 8000, latest := 20000, deadline := 40000, ps := 50000, rel := 90000, budget := 4000, st := .named, pipe := some 9 })], pipes := [(9, { next := some 77 })] } }).begin 7 8000, by decide +kernel⟩,
   ⟨withFns [(fnDis, .ready), (fnHbm 0, .ready)] { merAt 500 (mk [(F.ENC_CH_LAYOUT_NCOL 5, 1), (F.ENC_CH_SIZE_W 5, 64), (F.ENC_CH_SIZE_H 5, 128), (F.MER_CH_LINES_L_C 5, 150), (F.ENC_CH_RATE_NUM 5, 60), (F.ENC_CH_RATE_DEN 5, 1)]) with dis := { State.reset.dis with jobs := [(77, some { idx := 77, ch := 5, k := 9, dPos := 8000, latest := 20000, deadline := 40000, ps := 50000, rel := 90000, budget := 4000 })], pipes := [] } }, 77, { idx := 77, ch := 5, k := 9, dPos := 8000, latest := 20000, deadline := 40000, ps := 50000, rel := 90000, budget := 4000 }, posClk (withFns [(fnDis, .ready), (fnHbm 0, .ready)] { merAt 500 (mk [(F.ENC_CH_LAYOUT_NCOL 5, 1), (F.ENC_CH_SIZE_W 5, 64), (F.ENC_CH_SIZE_H 5, 128), (F.MER_CH_LINES_L_C 5, 150), (F.ENC_CH_RATE_NUM 5, 60), (F.ENC_CH_RATE_DEN 5, 1)]) with dis := { State.reset.dis with jobs := [(77, some { idx := 77, ch := 5, k := 9, dPos := 8000, latest := 20000, deadline := 40000, ps := 50000, rel := 90000, budget := 4000 })], pipes := [] } }).begin 7 20000, by decide +kernel⟩,
   ⟨withFns [(fnDis, .ready), (fnHbm 0, .ready)] { merAt 500 (mk [(F.ENC_CH_LAYOUT_NCOL 5, 1), (F.ENC_CH_SIZE_W 5, 64), (F.ENC_CH_SIZE_H 5, 128), (F.MER_CH_LINES_L_C 5, 150), (F.ENC_CH_RATE_NUM 5, 60), (F.ENC_CH_RATE_DEN 5, 1)]) with dis := { State.reset.dis with jobs := [(77, some { idx := 77, ch := 5, k := 9, dPos := 8000, latest := 20000, deadline := 40000, ps := 50000, rel := 90000, budget := 4000, st := .running, pipe := some 9, ran := [9] })], pipes := [(9, { running := some 77, startV := 400, startNs := 60, fillNs := 99, faults := [] })] } }, 9, 77, { idx := 77, ch := 5, k := 9, dPos := 8000, latest := 20000, deadline := 40000, ps := 50000, rel := 90000, budget := 4000, st := .running, pipe := some 9, ran := [9] }, posClk (withFns [(fnDis, .ready), (fnHbm 0, .ready)] { merAt 500 (mk [(F.ENC_CH_LAYOUT_NCOL 5, 1), (F.ENC_CH_SIZE_W 5, 64), (F.ENC_CH_SIZE_H 5, 128), (F.MER_CH_LINES_L_C 5, 150), (F.ENC_CH_RATE_NUM 5, 60), (F.ENC_CH_RATE_DEN 5, 1)]) with dis := { State.reset.dis with jobs := [(77, some { idx := 77, ch := 5, k := 9, dPos := 8000, latest := 20000, deadline := 40000, ps := 50000, rel := 90000, budget := 4000, st := .running, pipe := some 9, ran := [9] })], pipes := [(9, { running := some 77, startV := 400, startNs := 60, fillNs := 99, faults := [] })] } }).begin 7 40000, by decide +kernel⟩⟩

theorem witness_JobResultCommandsComplete :
    (∃ (s : State) (p j : Nat) (jb : Job) (pc : PicSt), (s.NoMon) ∧ (p < 64) ∧ ((s.pipe p).running = some j) ∧ (s.job j = some jb) ∧ (jb.idx = j) ∧ (j < 262144) ∧ (jb.st = .running) ∧ (jb.isReplay = false) ∧ ((s.encCh jb.ch).picOf jb.rho = some pc) ∧ (s.jobWidth jb ≤ 9) ∧ ((s.toNs (s.pipe p).fillNs).clk.vpos < s.deadlineOf p jb) ∧ ((s.toNs (s.pipe p).fillNs).clk.vpos < jb.ps) ∧ (s.bufAddr jb.ch pc.buf + s.encPicBytes jb.ch ≤ 2 ^ 38) ∧ ((s.encCh jb.ch).pics.all (fun x => x.dipDone || x.rows.any (fun y => !y.budgeted)) = true) ∧ (s.on F.DIS_TRK_CTL_EN = false) ∧ (oneStack s.lbAddr 0x1401000 = true)) ∧
    (∃ (s : State) (p j : Nat) (jb : Job), (p < 64) ∧ ((s.pipe p).running = some j) ∧ (s.job j = some jb) ∧ (jb.idx = j) ∧ (j < 262144) ∧ (jb.st = .running) ∧ (jb.replays < s.f F.DIS_CTL_MAX_REPLAY) ∧ ((s.pipe p).faults = []) ∧ (1 < s.f F.DIS_RETIRE_THR) ∧ (s.on F.DIS_TRK_CTL_EN = false) ∧ (oneStack s.lbAddr 0x1401000 = true) ∧ (jb.isReplay = false) ∧ ((s.toNs (s.pipe p).fillNs).clk.vpos < s.deadlineOf p jb) ∧ ((s.toNs (s.pipe p).fillNs).clk.vpos < jb.ps)) ∧
    (∃ (s : State) (p c j : Nat) (jb : Job), (p < 64) ∧ ((s.pipe p).running = some j) ∧ (s.job j = some jb) ∧ (jb.idx = j) ∧ (j < 262144) ∧ (jb.st = .running) ∧ (jb.replays < s.f F.DIS_CTL_MAX_REPLAY) ∧ ((s.pipe p).faults = []) ∧ (1 < s.f F.DIS_RETIRE_THR) ∧ (s.on F.DIS_TRK_CTL_EN = false) ∧ (oneStack s.lbAddr 0x1401000 = true) ∧ (c = 1 ∨ c = 2 ∨ c = 3)) ∧
    (∃ (s : State) (p j : Nat) (jb : Job), (p < 64) ∧ ((s.pipe p).running = some j) ∧ (s.job j = some jb) ∧ (jb.idx = j) ∧ (j < 262144) ∧ (jb.st = .running) ∧ (jb.ch < 32) ∧ ((s.encCh jb.ch).restart = []) ∧ (s.on F.DIS_TRK_CTL_EN = false) ∧ (oneStack s.lbAddr 0x1401000 = true)) ∧
    (∃ (s : State) (p j : Nat) (jb : Job), (p < 64) ∧ ((s.pipe p).next = some j) ∧ (s.job j = some jb) ∧ (jb.idx = j) ∧ (j < 262144) ∧ (jb.st = .named) ∧ (jb.ch < 32) ∧ ((s.encCh jb.ch).restart = []) ∧ (s.on F.DIS_TRK_CTL_EN = false) ∧ (oneStack s.lbAddr 0x1401000 = true)) ∧
    (∃ (s : State) (j p : Nat) (jb : Job) (q : Clock), (s.allJobs = [jb]) ∧ (s.job j = some jb) ∧ (jb.idx = j) ∧ (j < 262144) ∧ (jb.st = .ready) ∧ (jb.isReplay = true) ∧ (s.lbReadOk jb = true) ∧ (s.dis.spare = none) ∧ (s.replayPipe jb = some p) ∧ ((s.pipe p).running = none) ∧ (s.begin.toPos 7 jb.dPos = some { s.begin with clk := q }) ∧ (s.on F.DIS_TRK_CTL_EN = false) ∧ (oneStack s.lbAddr 0x1401000 = true)) ∧
    (∃ (s : State) (p : Nat), (s.dis.spare = none) ∧ (s.active fnDis = true) ∧ ((List.range 64).find? s.pipeFree = some p)) :=
  ⟨⟨withFns [(fnDis, .ready), (fnHbm 0, .ready)] { merAt 500 (mk [(F.ENC_CH_LAYOUT_NCOL 5, 1), (F.ENC_CH_SIZE_W 5, 8), (F.ENC_CH_SIZE_H 5, 8), (F.MER_CH_LINES_L_C 5, 150), (F.ENC_CH_RATE_NUM 5, 60), (F.ENC_CH_RATE_DEN 5, 1)]) with enc := [(5, { pics := [{ rows := [{ budgeted := true, jobs := [77] }, {}] }] })], dis := { State.reset.dis with jobs := [(77, some { idx := 77, ch := 5, k := 9, dPos := 8000, latest := 20000, deadline := 40000, ps := 50000, rel := 90000, budget := 4000, st := .running, pipe := some 9, ran := [9] })], pipes := [(9, { running := some 77, startV := 400, startNs := 60, fillNs := 99, faults := [] })] } }, 9, 77, { idx := 77, ch := 5, k := 9, dPos := 8000, latest := 20000, deadline := 40000, ps := 50000, rel := 90000, budget := 4000, st := .running, pipe := some 9, ran := [9] }, { rows := [{ budgeted := true, jobs := [77] }, {}] }, noMon_of_regs (by decide), by decide +kernel⟩,
   ⟨withFns [(fnDis, .ready), (fnHbm 0, .ready)] { merAt 500 (mk [(F.ENC_CH_LAYOUT_NCOL 5, 1), (F.ENC_CH_SIZE_W 5, 64), (F.ENC_CH_SIZE_H 5, 128), (F.MER_CH_LINES_L_C 5, 150), (F.ENC_CH_RATE_NUM 5, 60), (F.ENC_CH_RATE_DEN 5, 1)]) with dis := { State.reset.dis with jobs := [(77, some { idx := 77, ch := 5, k := 9, dPos := 8000, latest := 20000, deadline := 40000, ps := 50000, rel := 90000, budget := 4000, st := .running, pipe := some 9, ran := [9] })], pipes := [(9, { running := some 77, startV := 400, startNs := 60, fillNs := 99, faults := [] })] } }, 9, 77, { idx := 77, ch := 5, k := 9, dPos := 8000, latest := 20000, deadline := 40000, ps := 50000, rel := 90000, budget := 4000, st := .running, pipe := some 9, ran := [9] }, by decide +kernel⟩,
   ⟨withFns [(fnDis, .ready), (fnHbm 0, .ready)] { merAt 500 (mk [(F.ENC_CH_LAYOUT_NCOL 5, 1), (F.ENC_CH_SIZE_W 5, 64), (F.ENC_CH_SIZE_H 5, 128), (F.MER_CH_LINES_L_C 5, 150), (F.ENC_CH_RATE_NUM 5, 60), (F.ENC_CH_RATE_DEN 5, 1)]) with dis := { State.reset.dis with jobs := [(77, some { idx := 77, ch := 5, k := 9, dPos := 8000, latest := 20000, deadline := 40000, ps := 50000, rel := 90000, budget := 4000, st := .running, pipe := some 9, ran := [9] })], pipes := [(9, { running := some 77, startV := 400, startNs := 60, fillNs := 99, faults := [] })] } }, 9, 1, 77, { idx := 77, ch := 5, k := 9, dPos := 8000, latest := 20000, deadline := 40000, ps := 50000, rel := 90000, budget := 4000, st := .running, pipe := some 9, ran := [9] }, by decide +kernel⟩,
   ⟨withFns [(fnDis, .ready), (fnHbm 0, .ready)] { merAt 500 (mk [(F.ENC_CH_LAYOUT_NCOL 5, 1), (F.ENC_CH_SIZE_W 5, 64), (F.ENC_CH_SIZE_H 5, 128), (F.MER_CH_LINES_L_C 5, 150), (F.ENC_CH_RATE_NUM 5, 60), (F.ENC_CH_RATE_DEN 5, 1)]) with dis := { State.reset.dis with jobs := [(77, some { idx := 77, ch := 5, k := 9, dPos := 8000, latest := 20000, deadline := 40000, ps := 50000, rel := 90000, budget := 4000, st := .running, pipe := some 9, ran := [9] })], pipes := [(9, { running := some 77, startV := 400, startNs := 60, fillNs := 99, faults := [] })] } }, 9, 77, { idx := 77, ch := 5, k := 9, dPos := 8000, latest := 20000, deadline := 40000, ps := 50000, rel := 90000, budget := 4000, st := .running, pipe := some 9, ran := [9] }, by decide +kernel⟩,
   ⟨withFns [(fnDis, .ready), (fnHbm 0, .ready)] { merAt 500 (mk [(F.ENC_CH_LAYOUT_NCOL 5, 1), (F.ENC_CH_SIZE_W 5, 64), (F.ENC_CH_SIZE_H 5, 128), (F.MER_CH_LINES_L_C 5, 150), (F.ENC_CH_RATE_NUM 5, 60), (F.ENC_CH_RATE_DEN 5, 1)]) with dis := { State.reset.dis with jobs := [(77, some { idx := 77, ch := 5, k := 9, dPos := 8000, latest := 20000, deadline := 40000, ps := 50000, rel := 90000, budget := 4000, st := .named, pipe := some 9 })], pipes := [(9, { next := some 77 })] } }, 9, 77, { idx := 77, ch := 5, k := 9, dPos := 8000, latest := 20000, deadline := 40000, ps := 50000, rel := 90000, budget := 4000, st := .named, pipe := some 9 }, by decide +kernel⟩,
   ⟨(((withFns [(fnDis, .ready), (fnHbm 0, .ready)] { merAt 500 (mk [(F.ENC_CH_LAYOUT_NCOL 5, 1), (F.ENC_CH_SIZE_W 5, 64), (F.ENC_CH_SIZE_H 5, 128), (F.MER_CH_LINES_L_C 5, 150), (F.ENC_CH_RATE_NUM 5, 60), (F.ENC_CH_RATE_DEN 5, 1)]) with dis := { State.reset.dis with jobs := [(77, some { idx := 77, ch := 5, k := 9, dPos := 8000, latest := 20000, deadline := 40000, ps := 50000, rel := 90000, budget := 4000, st := .ready, isReplay := true, ran := [9], fault := 5, pipe := some 9 })], pipes := [] } }).hbmPut 4203388 357026462 4).hbmPut 669692 3057765858 4), 77, 0, { idx := 77, ch := 5, k := 9, dPos := 8000, latest := 20000, deadline := 40000, ps := 50000, rel := 90000, budget := 4000, st := .ready, isReplay := true, ran := [9], fault := 5, pipe := some 9 }, posClk ((((withFns [(fnDis, .ready), (fnHbm 0, .ready)] { merAt 500 (mk [(F.ENC_CH_LAYOUT_NCOL 5, 1), (F.ENC_CH_SIZE_W 5, 64), (F.ENC_CH_SIZE_H 5, 128), (F.MER_CH_LINES_L_C 5, 150), (F.ENC_CH_RATE_NUM 5, 60), (F.ENC_CH_RATE_DEN 5, 1)]) with dis := { State.reset.dis with jobs := [(77, some { idx := 77, ch := 5, k := 9, dPos := 8000, latest := 20000, deadline := 40000, ps := 50000, rel := 90000, budget := 4000, st := .ready, isReplay := true, ran := [9], fault := 5, pipe := some 9 })], pipes := [] } }).hbmPut 4203388 357026462 4).hbmPut 669692 3057765858 4)).begin 7 8000, by decide +kernel⟩,
   ⟨withFns [(fnDis, .ready), (fnHbm 0, .ready)] { merAt 500 (mk [(F.ENC_CH_LAYOUT_NCOL 5, 1), (F.ENC_CH_SIZE_W 5, 64), (F.ENC_CH_SIZE_H 5, 128), (F.MER_CH_LINES_L_C 5, 150), (F.ENC_CH_RATE_NUM 5, 60), (F.ENC_CH_RATE_DEN 5, 1)]) with dis := { State.reset.dis with jobs := [], pipes := [] } }, 0, by decide +kernel⟩⟩

theorem witness_PipeCommandsComplete :
    (∃ (s : State) (p x : Nat), (s.dark = false) ∧ (p < 64) ∧ (s.on (F.DIS_PIPE_STATUS_RETIRED p) = true) ∧ (s.dis.spare = some x) ∧ ((List.range 64).all (fun y => !s.on (F.DIS_PIPE_STATUS_COOL_REQ y)) = true)) ∧
    (∃ (s : State) (q : Nat), (s.dark = false) ∧ (q < 4) ∧ (s.on (F.DIS_QUAD_CTL_PARK q) = false) ∧ ((s.setF (F.DIS_QUAD_CTL_PARK q) 1).lagOk (s.setF (F.DIS_QUAD_CTL_PARK q) 1).firstRunPipes s.liveChans = true) ∧ (s.active fnDis = false ∨ 1 < countPipes (s.setF (F.DIS_QUAD_CTL_PARK q) 1).pipeAvail) ∧ ((match s.dis.spare with | some x => (s.setF (F.DIS_QUAD_CTL_PARK q) 1).pipeAvail x | none => true) = true) ∧ (s.fsOn = false) ∧ (s.cfgLocked = false)) ∧
    (∃ (s : State) (q x : Nat), (s.dark = false) ∧ (q < 4) ∧ (s.on (F.DIS_QUAD_CTL_PARK q) = true) ∧ (s.dis.spare = some x) ∧ ((List.range 64).all (fun y => !s.on (F.DIS_PIPE_STATUS_COOL_REQ y)) = true) ∧ (s.cfgLocked = false) ∧ (s.rdn (R.DIS_QUAD_CTL q) < 4)) ∧
    (∃ (s : State) (q : Nat), (q < 4) ∧ (s.on (F.DIS_QUAD_CTL_PARK q) = true) ∧ (s.on (F.DIS_QUAD_CTL_PARKED q) = false) ∧ ((List.range 16).all (fun i => (s.pipe (16 * q + i)).running.isNone && (s.pipe (16 * q + i)).next.isNone) = true) ∧ (s.on F.DIS_TRK_CTL_EN = false)) ∧
    (∃ (s : State) (x : Int) (q : Clock), (s.NoMon) ∧ (s.active fnCal = true) ∧ (s.on F.CAL_CTL_TP_EN = true) ∧ (s.begin.toPhase 6 0 = some { s.begin with clk := q }) ∧ ((List.range 64).all (fun y => !s.on (F.DIS_PIPE_STATUS_COOL_REQ y)) = true) ∧ (0 < s.f F.CAL_TP_COOL_MAX) ∧ (8 * (s.f F.CAL_TP_COOL_ON : Int) ≤ s.sensed 0 x) ∧ (s.on (F.DIS_PIPE_STATUS_COOLING 0) = false) ∧ (s.liveChans = []) ∧ (s.dis.spare = none) ∧ (s.on F.DIS_TRK_CTL_EN = false)) ∧
    (∃ (s : State) , (s.dark = false) ∧ (s.rdn R.DIS_TRK_CMD = 0)) ∧
    (∃ (s : State) , (s.dark = false) ∧ (s.on F.DIS_CTL_EN = false) ∧ (s.f F.DIS_CTL_MAX_REPLAY ≠ 0) ∧ (s.fn fnDis = .off) ∧ (s.tooFewPipes = false) ∧ (s.lbAddr % 4096 = 0) ∧ (oneStack s.lbAddr 0x1401000 = true) ∧ (s.cfgLocked = false)) ∧
    (∃ (s : State) (p : Nat), (p < 64) ∧ (s.fn fnDis = .starting) ∧ (s.dis.testing = true) ∧ (s.dis.spare = some 63) ∧ (s.dis.pipes = []) ∧ (((List.range 4).map (fun q => s.on (F.DIS_QUAD_CTL_PARK q))).all (!·) = true) ∧ ((List.range 64).all (fun x => !s.on (F.DIS_PIPE_STATUS_RETIRED x) && !s.on (F.DIS_PIPE_STATUS_COOLING x)) = true) ∧ (s.ready (fnHbm (stackOf s.lbAddr)) = true) ∧ (s.on F.DIS_CTL_LB_KEEP = false) ∧ (oneStack s.lbAddr 0x1401000 = true) ∧ (s.on F.DIS_TRK_CTL_EN = false)) :=
  ⟨⟨{ mk [(F.DIS_PIPE_STATUS_RETIRED 9, 1)] with dis := { State.reset.dis with spare := some 63, pipes := [(9, { faults := [4, 3] })] } }, 9, 63, by decide +kernel⟩,
   ⟨withFns [(fnDis, .ready)] { State.reset with dis := { State.reset.dis with spare := some 63 } }, 2, by decide +kernel⟩,
   ⟨withFns [(fnDis, .ready)] { mk [(F.DIS_QUAD_CTL_PARK 2, 1), (F.DIS_QUAD_CTL_PARKED 2, 1), (F.DIS_PIPE_STATUS_PARKED 33, 1)] with dis := { State.reset.dis with spare := some 63 } }, 2, 63, by decide +kernel⟩,
   ⟨withFns [(fnDis, .ready)] (mk [(F.DIS_QUAD_CTL_PARK 2, 1)]), 2, by decide +kernel⟩,
   ⟨withFns [(fnCal, .ready)] (merAt 500 (mk [(F.CAL_CTL_TP_EN, 1), (F.CAL_TP_COOL_MAX, 2), (F.CAL_TP_COOL_ON, 90)])), 721, phaseClk (withFns [(fnCal, .ready)] (merAt 500 (mk [(F.CAL_CTL_TP_EN, 1), (F.CAL_TP_COOL_MAX, 2), (F.CAL_TP_COOL_ON, 90)]))).begin 6 0, noMon_of_regs (by decide), by decide +kernel⟩,
   ⟨{ mk [(F.DIS_TRK_STATUS_RECORDS, 9)] with dis := { State.reset.dis with track := [(0, { line := 3 })] } }, by decide +kernel⟩,
   ⟨State.reset, by decide +kernel⟩,
   ⟨withFns [(fnDis, .starting), (fnHbm 0, .ready)] { State.reset with dis := { State.reset.dis with testing := true, spare := some 63 } }, 9, by decide +kernel⟩⟩

theorem witness_EgressTableCommandsComplete :
    (∃ (s : State) , (s.dark = false) ∧ (s.on F.EGS_CTL_EN = false) ∧ ((List.range 8).all (fun p => s.fn (fnEgs p) == .off && !s.ready (fnEth p)) = true) ∧ (s.cfgLocked = false)) ∧
    (∃ (s : State) , (s.dark = false) ∧ (s.on F.EGS_CTL_EN = true) ∧ (s.egsAll = []) ∧ ((List.range 8).all (fun p => (s.eport p).due.isEmpty) = true)) ∧
    (∃ (s : State) (f : Nat), (s.dark = false) ∧ (f < 65536)) ∧
    (∃ (s : State) (f : Nat), (s.dark = false) ∧ (f < 65536) ∧ (s.egsWriteOk f (fun i => s.rdn (R.EGS_FT_DATA i)) (s.flowRecOk f) = true) ∧ (efEn (s.egWords f) = false) ∧ (efEn (fun i => s.rdn (R.EGS_FT_DATA i)) = true) ∧ (efWfq (fun i => s.rdn (R.EGS_FT_DATA i)) = true) ∧ (s.pirMin (fun i => s.rdn (R.EGS_FT_DATA i)) ≤ efPir (fun i => s.rdn (R.EGS_FT_DATA i)))) :=
  ⟨⟨State.reset, by decide +kernel⟩,
   ⟨withFns [(fnEgs 1, .ready), (fnEgs 2, .starting)] (mk [(F.EGS_CTL_EN, 1)]), by decide +kernel⟩,
   ⟨{ State.reset with egs := { State.reset.egs with ft := [(0, 0x60000051), (3, 77), (4, 1400), (6, 0x4000000 + 2000), (7, 4000), (8, 60000)] } }, 0, by decide +kernel⟩,
   ⟨mk [(F.EGS_CTL_EN, 1), (⟨R.EGS_FT_DATA 0, 31, 0⟩, 0x60000051), (⟨R.EGS_FT_DATA 3, 31, 0⟩, 77), (⟨R.EGS_FT_DATA 4, 31, 0⟩, 1400), (⟨R.EGS_FT_DATA 6, 31, 0⟩, 0x4000000 + 2000), (⟨R.EGS_FT_DATA 7, 31, 0⟩, 4000), (⟨R.EGS_FT_DATA 8, 31, 0⟩, 60000), (F.ENC_CH_LAYOUT_NCOL 5, 1), (F.ENC_CH_LAYOUT_NROW 5, 1), (⟨R.ENC_CH_ROWH 5 0, 7, 0⟩, 2), (F.ENC_CH_RC_RATE_BR 5, 20000), (F.ENC_CH_RATE_NUM 5, 60), (F.ENC_CH_RATE_DEN 5, 1)], 3, by decide +kernel⟩⟩

theorem witness_EgressPortCommandsComplete :
    (∃ (s : State) (p : Nat) (d : PacedEnt), (p < 8) ∧ ((s.eport p).busy ≤ s.clk.ns) ∧ (s.ready (fnEgs p) = true) ∧ ((s.eport p).due = [d]) ∧ (s.on F.BIN_STATUS_MUTED = false) ∧ (d.leg < 2)) ∧
    (∃ (s : State) (f v k j a p : Nat) (q : Clock), (f < 65536) ∧ (efType (s.egWords f) = 3) ∧ (efLegs (s.egWords f) = [(0, p)]) ∧ (s.pacedNext f = some (v, k, j, a)) ∧ (s.begin.toPos 8 a = some { s.begin with clk := q }) ∧ (s.ready (fnEgs p) = true) ∧ (q.ns < (s.eport p).busy)) ∧
    (∃ (s : State) (q : Clock), (s.NoMon) ∧ (s.begin.toPos 10 s.nextSample = some { s.begin with clk := q }) ∧ (s.held = [])) ∧
    (∃ (s : State) (p f : Nat) (e : QEnt), (p < 8) ∧ (s.ready (fnEgs p) = true) ∧ ((s.eport p).busy ≤ s.clk.ns) ∧ ((s.eport p).due = []) ∧ (s.egsAll = [f]) ∧ (efLegs (s.egWords f) = [(0, p)]) ∧ (efWfq (s.egWords f) = true) ∧ (0 < (s.leg f 0).pir) ∧ ((s.leg f 0).queue = [e]) ∧ (e.lat = none) ∧ (s.needOf p e ≤ efPbs (s.egWords f) * 8000) ∧ (s.on F.BIN_STATUS_MUTED = false)) :=
  ⟨⟨withFns [(fnEgs 2, .ready), (fnEth 2, .ready)] { merAt 500 (mk [(F.EGS_CTL_EN, 1)]) with egs := { State.reset.egs with ports := [(2, { due := [{ due := 9, leg := 0, pkt := { flow := 3, seq := 9, ts := 1, marker := false, pt := 96, ssrc := 7, size := 4, body := .nal none [1, 2, 3, 4] }, len := 70 }] })] } }, 2, { due := 9, leg := 0, pkt := { flow := 3, seq := 9, ts := 1, marker := false, pt := 96, ssrc := 7, size := 4, body := .nal none [1, 2, 3, 4] }, len := 70 }, by decide +kernel⟩,
   ⟨withFns [(fnEgs 2, .ready), (fnEth 2, .ready)] { merAt 500 (mk [(F.EGS_CTL_EN, 1), (F.ENC_CH_LAYOUT_NCOL 5, 1), (F.ENC_CH_SIZE_W 5, 64), (F.ENC_CH_SIZE_H 5, 128), (F.MER_CH_LINES_L_C 5, 150), (F.ENC_CH_RATE_NUM 5, 60), (F.ENC_CH_RATE_DEN 5, 1), (F.ENC_CH_FORMAT_CHROMA 5, 1)]) with comp := { State.reset.comp with chs := [(5, { rows := [(0, { y := [[1, 2]] })] })] }, egs := { State.reset.egs with ports := [(2, { busy := 10 ^ 15 })], ft := [(96, 0x60000457), (100, 1400), (102, 0x4000000 + 2000), (106, 4000)], flows := [(3, { on := true, runs := [(0, none)] })] } }, 3, 0, 0, 0, 4000, 2, posClk (withFns [(fnEgs 2, .ready), (fnEth 2, .ready)] { merAt 500 (mk [(F.EGS_CTL_EN, 1), (F.ENC_CH_LAYOUT_NCOL 5, 1), (F.ENC_CH_SIZE_W 5, 64), (F.ENC_CH_SIZE_H 5, 128), (F.MER_CH_LINES_L_C 5, 150), (F.ENC_CH_RATE_NUM 5, 60), (F.ENC_CH_RATE_DEN 5, 1), (F.ENC_CH_FORMAT_CHROMA 5, 1)]) with comp := { State.reset.comp with chs := [(5, { rows := [(0, { y := [[1, 2]] })] })] }, egs := { State.reset.egs with ports := [(2, { busy := 10 ^ 15 })], ft := [(96, 0x60000457), (100, 1400), (102, 0x4000000 + 2000), (106, 4000)], flows := [(3, { on := true, runs := [(0, none)] })] } }).begin 8 4000, by decide +kernel⟩,
   ⟨merAt 500 (mk [(F.EGS_SAMPLE_INTERVAL, 10)]), posClk (merAt 500 (mk [(F.EGS_SAMPLE_INTERVAL, 10)])).begin 10 (merAt 500 (mk [(F.EGS_SAMPLE_INTERVAL, 10)])).nextSample, noMon_of_regs (by decide), by decide +kernel⟩,
   ⟨withFns [(fnEgs 2, .ready), (fnEth 2, .ready)] { merAt 500 (mk [(F.EGS_CTL_EN, 1)]) with egs := { State.reset.egs with ports := [(2, {})], ft := [(96, 0x60000451), (100, 1400), (102, 0x4000000 + 2000), (103, 4000), (104, 60000)], legs := [(6, { pir := 4000, queue := [{ len := 70, enq := 0, enqV := 0, pkt := { flow := 3, seq := 9, ts := 1, marker := false, pt := 96, ssrc := 7, size := 4, body := .nal none [1, 2, 3, 4] } }], fin := 99 })] } }, 2, 3, { len := 70, enq := 0, enqV := 0, pkt := { flow := 3, seq := 9, ts := 1, marker := false, pt := 96, ssrc := 7, size := 4, body := .nal none [1, 2, 3, 4] } }, by decide +kernel⟩⟩

theorem witness_TwinRoleCommandsComplete :
    (∃ (s : State) , (s.dark = false) ∧ (s.on F.TWN_CTL_EN = false) ∧ (bitsOf (s.rdn R.TWN_CTL) 15 8 ≠ 0) ∧ (s.twinEnableOk (s.f F.TWN_CTL_PORT) = true) ∧ (s.fn fnTwn = .off) ∧ (s.cfgLocked = false)) ∧
    (∃ (s : State) , (s.fn fnTwn = .starting) ∧ (s.twinReadyOk = true) ∧ (s.pins.helmIn = false) ∧ (s.pins.twinFirst = true) ∧ (s.hasGivenUp = false) ∧ (s.role = 1) ∧ (s.on F.BIN_STATUS_HELM_OUT = false)) ∧
    (∃ (s : State) (v : Nat) (q : Clock), (s.twn.waitV = some v) ∧ (s.begin.toPos 8 v = some { s.begin with clk := q }) ∧ (s.role = 1) ∧ (s.pins.helmIn = false) ∧ (s.hasGivenUp = false) ∧ (s.on F.BIN_STATUS_HELM_OUT = false)) ∧
    (∃ (s : State) (a b : Nat), (s.twn.claim = some (a, b)) ∧ (s.role = 3) ∧ (s.twn.takeover = false) ∧ ((List.range 32).all (fun c => (s.tch c).hold.isEmpty) = true)) ∧
    (∃ (s : State) (l : Bool), (s.pins.helmIn ≠ l) ∧ (s.on F.BIN_STATUS_HELM_OUT = false) ∧ (s.role = 2) ∧ (l = true ∨ s.twinChans.any (fun c => (s.tch c).hold.any (fun h => h.st == .late)) = false)) :=
  ⟨⟨mk [(F.GLB_FEAT_CTL_LOCKED, 1), (⟨R.GLB_FEAT_ACCEPT 0, 4, 4⟩, 1), (F.LNE_QUAD_CTL_ROLE 3, 2), (F.TWN_ADOPT_ADOPT, 100), (⟨R.TWN_PAIR_TAG, 31, 0⟩, 7)], by decide +kernel⟩,
   ⟨withFns [(fnTwn, .starting), (fnStaord 0, .ready)] { merAt 500 (mk [(F.TWN_CTL_EN, 1), (⟨R.TWN_PAIR_TAG, 31, 0⟩, 7), (F.TWN_STATUS_ROLE, 1)]) with pins := { State.reset.pins with twinFirst := true }, twn := { State.reset.twn with peer := some { role := 1, sync := true, first := false, tag := 7 } } }, by decide +kernel⟩,
   ⟨withFns [(fnTwn, .ready), (fnStaord 0, .ready)] { merAt 500 (mk [(F.TWN_CTL_EN, 1), (⟨R.TWN_PAIR_TAG, 31, 0⟩, 7), (F.TWN_STATUS_ROLE, 1)]) with pins := { State.reset.pins with twinFirst := true }, twn := { State.reset.twn with peer := some { role := 1, sync := true, first := false, tag := 7 }, waitV := some 9000 } }, 9000, posClk (withFns [(fnTwn, .ready), (fnStaord 0, .ready)] { merAt 500 (mk [(F.TWN_CTL_EN, 1), (⟨R.TWN_PAIR_TAG, 31, 0⟩, 7), (F.TWN_STATUS_ROLE, 1)]) with pins := { State.reset.pins with twinFirst := true }, twn := { State.reset.twn with peer := some { role := 1, sync := true, first := false, tag := 7 }, waitV := some 9000 } }).begin 8 9000, by decide +kernel⟩,
   ⟨withFns [(fnTwn, .ready), (fnStaord 0, .ready)] { merAt 500 (mk [(F.TWN_CTL_EN, 1), (⟨R.TWN_PAIR_TAG, 31, 0⟩, 7), (F.TWN_STATUS_ROLE, 3), (⟨R.TWN_CH_MASK, 31, 0⟩, 0x21)]) with pins := { State.reset.pins with twinFirst := true }, twn := { State.reset.twn with peer := some { role := 1, sync := true, first := false, tag := 7 }, claim := some (4000, 9) } }, 4000, 9, by decide +kernel⟩,
   ⟨withFns [(fnTwn, .ready), (fnStaord 0, .ready)] { merAt 500 (mk [(F.TWN_CTL_EN, 1), (⟨R.TWN_PAIR_TAG, 31, 0⟩, 7), (F.TWN_STATUS_ROLE, 2)]) with pins := { State.reset.pins with twinFirst := true }, twn := { State.reset.twn with peer := some { role := 1, sync := true, first := false, tag := 7 } } }, true, by decide +kernel⟩⟩

theorem witness_TwinDigestCommandsComplete :
    (∃ (s : State) (p : Nat), (s.role ≠ 0) ∧ (s.f F.TWN_CTL_PORT = p) ∧ (s.linkUp p = true) ∧ ((s.link p).buf.length < 1024)) ∧
    (∃ (s : State) (g : TwinFlit) (e : TwinEntry), (s.role = 2) ∧ (g.tag = s.rdn R.TWN_PAIR_TAG) ∧ (g.first ≠ s.pins.twinFirst) ∧ (g.entries = [e]) ∧ (s.twinned e.ch = true) ∧ (s.allJobs = []) ∧ ((s.tch e.ch).own = [])) ∧
    (∃ (s : State) , (s.role ≠ 0) ∧ (s.role ≠ 2) ∧ (s.twn.lost = false)) ∧
    (∃ (s : State) (n : Nat) (h : HeldSlice), (n < 32) ∧ (s.role = 2) ∧ ((s.tch n).hold = [h]) ∧ (h.st = .wait) ∧ (s.pins.helmIn = true)) ∧
    (∃ (s : State) (n : Nat) (h : HeldSlice), (n < 32) ∧ (s.role = 2) ∧ ((s.tch n).hold = [h]) ∧ (h.st = .late)) :=
  ⟨⟨withFns [(fnTwn, .ready), (fnStaord 0, .ready)] { merAt 500 (mk [(F.TWN_CTL_EN, 1), (⟨R.TWN_PAIR_TAG, 31, 0⟩, 7), (F.TWN_STATUS_ROLE, 4), (F.CNV_LINK_STATUS_B1_0 0, 2)]) with pins := { State.reset.pins with twinFirst := true }, twn := { State.reset.twn with peer := some { role := 1, sync := true, first := false, tag := 7 } } }, 0, by decide +kernel⟩,
   ⟨withFns [(fnTwn, .ready), (fnStaord 0, .ready)] { merAt 500 (mk [(F.TWN_CTL_EN, 1), (⟨R.TWN_PAIR_TAG, 31, 0⟩, 7), (F.TWN_STATUS_ROLE, 2), (⟨R.TWN_CH_MASK, 31, 0⟩, 0x20)]) with pins := { State.reset.pins with twinFirst := true }, twn := { State.reset.twn with peer := some { role := 1, sync := true, first := false, tag := 7 } } }, { role := 2, helmOut := true, helmIn := false, first := false, sync := true, tag := 7, entries := [{ ch := 5, slice := 3, floorCtu := 0, standIn := false, k := 9, bits := 800, digest := 44 }] }, { ch := 5, slice := 3, floorCtu := 0, standIn := false, k := 9, bits := 800, digest := 44 }, by decide +kernel⟩,
   ⟨withFns [(fnTwn, .ready), (fnStaord 0, .ready)] { merAt 500 (mk [(F.TWN_CTL_EN, 1), (⟨R.TWN_PAIR_TAG, 31, 0⟩, 7), (F.TWN_STATUS_ROLE, 4), (F.TWN_STATUS_LINK, 1)]) with pins := { State.reset.pins with twinFirst := true }, twn := { State.reset.twn with peer := some { role := 1, sync := true, first := false, tag := 7 } } }, by decide +kernel⟩,
   ⟨withFns [(fnTwn, .ready), (fnStaord 0, .ready)] { merAt 500 (mk [(F.TWN_CTL_EN, 1), (⟨R.TWN_PAIR_TAG, 31, 0⟩, 7), (F.TWN_STATUS_ROLE, 2)]) with pins := { State.reset.pins with helmIn := true }, twn := { State.reset.twn with peer := some { role := 1, sync := true, first := false, tag := 7 }, chs := [(5, { hold := [{ u := { ch := 5, k := 9, startV := 400, rel := 500, row := 0, col := 0, slice := 3, first := false, last := false, ps := false, eos139 := none, pre := [], data := [1], hash := none, suf := [], bits := 800, floorCtu := 0, standIn := false }, pkts := [], ns := 40, st := .wait }] })] } }, 5, { u := { ch := 5, k := 9, startV := 400, rel := 500, row := 0, col := 0, slice := 3, first := false, last := false, ps := false, eos139 := none, pre := [], data := [1], hash := none, suf := [], bits := 800, floorCtu := 0, standIn := false }, pkts := [], ns := 40, st := .wait }, by decide +kernel⟩,
   ⟨withFns [(fnTwn, .ready), (fnStaord 0, .ready)] { merAt 500 (mk [(F.TWN_CTL_EN, 1), (⟨R.TWN_PAIR_TAG, 31, 0⟩, 7), (F.TWN_STATUS_ROLE, 2)]) with pins := { State.reset.pins with helmIn := true }, twn := { State.reset.twn with peer := some { role := 1, sync := true, first := false, tag := 7 }, chs := [(5, { hold := [{ u := { ch := 5, k := 9, startV := 400, rel := 500, row := 0, col := 0, slice := 3, first := false, last := false, ps := false, eos139 := none, pre := [], data := [1], hash := none, suf := [], bits := 800, floorCtu := 0, standIn := false }, pkts := [], ns := 40, st := .late }] })] } }, 5, { u := { ch := 5, k := 9, startV := 400, rel := 500, row := 0, col := 0, slice := 3, first := false, last := false, ps := false, eos139 := none, pre := [], data := [1], hash := none, suf := [], bits := 800, floorCtu := 0, standIn := false }, pkts := [], ns := 40, st := .late }, by decide +kernel⟩⟩

theorem witness_CycleRecordCommandsComplete :
    (∃ (s : State) (w : List Nat) (q : Clock), (s.begin.toPhase 0 0 = some { s.begin with clk := q }) ∧ (s.role = 2) ∧ (s.usesHelmFlips = true) ∧ (w = ({ s with clk := q } : State).buildRecord ((q.frame + 2 ^ 48 - 1) % 2 ^ 48) q.vpos)) ∧
    (∃ (s : State) (w : List Nat) (p : Nat) (q : Clock), (s.begin.toPhase 0 0 = some { s.begin with clk := q }) ∧ (s.role = 4) ∧ (s.hasGivenUp = false) ∧ (s.f F.TWN_CTL_PORT = p) ∧ (s.linkUp p = true) ∧ ((s.link p).buf.length < 1024) ∧ (w = ({ s with clk := q } : State).buildRecord ((q.frame + 2 ^ 48 - 1) % 2 ^ 48) q.vpos) ∧ (w.length ≤ 61)) ∧
    (∃ (s : State) (w : List Nat), (s.role ≠ 0) ∧ (recGood w = true) ∧ (w.getD 4 0 = s.rdn R.TWN_PAIR_TAG) ∧ (s.twn.late = none)) ∧
    (∃ (s : State) (c v st : Nat) (o l : List Nat) (x : PendSet) (ev : FlipEval) (r y : RecSec) (q : Clock), (s.twn.own = some (v, o)) ∧ (s.role = 2) ∧ (s.twn.adopted = false) ∧ (s.begin.toPos 1 (v + s.f F.TWN_ADOPT_ADOPT * 65536) = some { s.begin with clk := q }) ∧ (s.twn.rx = [(recFrame o, st, l)]) ∧ (st < v + s.f F.TWN_ADOPT_ADOPT * 65536) ∧ (s.twinChans = [c]) ∧ (recOf l c = some r) ∧ (recOf o c = some y) ∧ (y.agree r = true) ∧ (bitsOf (r.w.getD 14 0) 8 0 = 1) ∧ (r.w.getD 23 0 % 2 = 0) ∧ (r.w.getD 14 0 < 512) ∧ (s.twinState c ≠ 3) ∧ ((s.cmp c).endV.isSome = true) ∧ ((s.cmp c).evals = [ev]) ∧ (v ≤ ev.v + q.fu) ∧ (ev.v < v) ∧ ((s.cmp c).pendOf 0 = some x) ∧ (x.num = r.w.getD 15 0 % 65536) ∧ (recAudio l = [])) ∧
    (∃ (s : State) (n k v : Nat) (q : Clock), (n < 32) ∧ (s.role = 2) ∧ (s.twinState n = 3) ∧ ((s.tch n).resync = true) ∧ (s.begin.toChanStart 2 n = some ({ s.begin with clk := q }, k, v))) :=
  ⟨⟨withFns [(fnTwn, .ready), (fnStaord 0, .ready)] { merAt 500 (mk [(F.TWN_CTL_EN, 1), (⟨R.TWN_PAIR_TAG, 31, 0⟩, 7), (F.TWN_STATUS_ROLE, 2)]) with pins := { State.reset.pins with twinFirst := true }, twn := { State.reset.twn with peer := some { role := 1, sync := true, first := false, tag := 7 } } }, ({ (withFns [(fnTwn, .ready), (fnStaord 0, .ready)] { merAt 500 (mk [(F.TWN_CTL_EN, 1), (⟨R.TWN_PAIR_TAG, 31, 0⟩, 7), (F.TWN_STATUS_ROLE, 2)]) with pins := { State.reset.pins with twinFirst := true }, twn := { State.reset.twn with peer := some { role := 1, sync := true, first := false, tag := 7 } } }) with clk := phaseClk (withFns [(fnTwn, .ready), (fnStaord 0, .ready)] { merAt 500 (mk [(F.TWN_CTL_EN, 1), (⟨R.TWN_PAIR_TAG, 31, 0⟩, 7), (F.TWN_STATUS_ROLE, 2)]) with pins := { State.reset.pins with twinFirst := true }, twn := { State.reset.twn with peer := some { role := 1, sync := true, first := false, tag := 7 } } }).begin 0 0 } : State).buildRecord (((phaseClk (withFns [(fnTwn, .ready), (fnStaord 0, .ready)] { merAt 500 (mk [(F.TWN_CTL_EN, 1), (⟨R.TWN_PAIR_TAG, 31, 0⟩, 7), (F.TWN_STATUS_ROLE, 2)]) with pins := { State.reset.pins with twinFirst := true }, twn := { State.reset.twn with peer := some { role := 1, sync := true, first := false, tag := 7 } } }).begin 0 0).frame + 2 ^ 48 - 1) % 2 ^ 48) (phaseClk (withFns [(fnTwn, .ready), (fnStaord 0, .ready)] { merAt 500 (mk [(F.TWN_CTL_EN, 1), (⟨R.TWN_PAIR_TAG, 31, 0⟩, 7), (F.TWN_STATUS_ROLE, 2)]) with pins := { State.reset.pins with twinFirst := true }, twn := { State.reset.twn with peer := some { role := 1, sync := true, first := false, tag := 7 } } }).begin 0 0).vpos, phaseClk (withFns [(fnTwn, .ready), (fnStaord 0, .ready)] { merAt 500 (mk [(F.TWN_CTL_EN, 1), (⟨R.TWN_PAIR_TAG, 31, 0⟩, 7), (F.TWN_STATUS_ROLE, 2)]) with pins := { State.reset.pins with twinFirst := true }, twn := { State.reset.twn with peer := some { role := 1, sync := true, first := false, tag := 7 } } }).begin 0 0, by decide +kernel⟩,
   ⟨withFns [(fnTwn, .ready), (fnStaord 0, .ready)] { merAt 500 (mk [(F.TWN_CTL_EN, 1), (⟨R.TWN_PAIR_TAG, 31, 0⟩, 7), (F.TWN_STATUS_ROLE, 4), (F.CNV_LINK_STATUS_B1_0 0, 2)]) with pins := { State.reset.pins with twinFirst := true }, twn := { State.reset.twn with peer := some { role := 1, sync := true, first := false, tag := 7 } } }, ({ (withFns [(fnTwn, .ready), (fnStaord 0, .ready)] { merAt 500 (mk [(F.TWN_CTL_EN, 1), (⟨R.TWN_PAIR_TAG, 31, 0⟩, 7), (F.TWN_STATUS_ROLE, 4), (F.CNV_LINK_STATUS_B1_0 0, 2)]) with pins := { State.reset.pins with twinFirst := true }, twn := { State.reset.twn with peer := some { role := 1, sync := true, first := false, tag := 7 } } }) with clk := phaseClk (withFns [(fnTwn, .ready), (fnStaord 0, .ready)] { merAt 500 (mk [(F.TWN_CTL_EN, 1), (⟨R.TWN_PAIR_TAG, 31, 0⟩, 7), (F.TWN_STATUS_ROLE, 4), (F.CNV_LINK_STATUS_B1_0 0, 2)]) with pins := { State.reset.pins with twinFirst := true }, twn := { State.reset.twn with peer := some { role := 1, sync := true, first := false, tag := 7 } } }).begin 0 0 } : State).buildRecord (((phaseClk (withFns [(fnTwn, .ready), (fnStaord 0, .ready)] { merAt 500 (mk [(F.TWN_CTL_EN, 1), (⟨R.TWN_PAIR_TAG, 31, 0⟩, 7), (F.TWN_STATUS_ROLE, 4), (F.CNV_LINK_STATUS_B1_0 0, 2)]) with pins := { State.reset.pins with twinFirst := true }, twn := { State.reset.twn with peer := some { role := 1, sync := true, first := false, tag := 7 } } }).begin 0 0).frame + 2 ^ 48 - 1) % 2 ^ 48) (phaseClk (withFns [(fnTwn, .ready), (fnStaord 0, .ready)] { merAt 500 (mk [(F.TWN_CTL_EN, 1), (⟨R.TWN_PAIR_TAG, 31, 0⟩, 7), (F.TWN_STATUS_ROLE, 4), (F.CNV_LINK_STATUS_B1_0 0, 2)]) with pins := { State.reset.pins with twinFirst := true }, twn := { State.reset.twn with peer := some { role := 1, sync := true, first := false, tag := 7 } } }).begin 0 0).vpos, 0, phaseClk (withFns [(fnTwn, .ready), (fnStaord 0, .ready)] { merAt 500 (mk [(F.TWN_CTL_EN, 1), (⟨R.TWN_PAIR_TAG, 31, 0⟩, 7), (F.TWN_STATUS_ROLE, 4), (F.CNV_LINK_STATUS_B1_0 0, 2)]) with pins := { State.reset.pins with twinFirst := true }, twn := { State.reset.twn with peer := some { role := 1, sync := true, first := false, tag := 7 } } }).begin 0 0, by decide +kernel⟩,
   ⟨withFns [(fnTwn, .ready), (fnStaord 0, .ready)] { merAt 500 (mk [(F.TWN_CTL_EN, 1), (⟨R.TWN_PAIR_TAG, 31, 0⟩, 7), (F.TWN_STATUS_ROLE, 2)]) with pins := { State.reset.pins with twinFirst := true }, twn := { State.reset.twn with peer := some { role := 1, sync := true, first := false, tag := 7 } } }, (let x := [0x43590001, 5, 0, 9, 7, 2, 4, 0]; x ++ [crcWords x]), by decide +kernel⟩,
   ⟨withFns [(fnTwn, .ready), (fnStaord 0, .ready)] { merAt 500 (mk [(F.TWN_CTL_EN, 1), (⟨R.TWN_PAIR_TAG, 31, 0⟩, 7), (F.TWN_STATUS_ROLE, 2), (⟨R.TWN_CH_MASK, 31, 0⟩, 0x20)]) with pins := { State.reset.pins with twinFirst := true }, twn := { State.reset.twn with peer := some { role := 1, sync := true, first := false, tag := 7 }, own := some (400, ([0x43590001, 5, 65536, 33, 7, 2, 4, 0] ++ [5, 7, 0, 7, 0, 1, 2, 3, 4, 0, 0, 0, 0, 0, 1, 12, 0, 0, 0, 0, 0, 0, 0, 0] ++ [9])), rx := [(5, 300, ([0x43590001, 5, 65536, 33, 7, 2, 4, 0] ++ [5, 7, 0, 7, 0, 1, 2, 3, 4, 0, 0, 0, 0, 0, 1, 12, 0, 0, 0, 0, 0, 0, 0, 0] ++ [9]))] }, comp := { State.reset.comp with chs := [(5, { endV := some 70000, evals := [{ v := 390, flips := 1 }], pend := [(0, some { val := { ctl := 1 }, fence := none, stamp := 0, num := 12 })] })] } }, 5, 400, 300, ([0x43590001, 5, 65536, 33, 7, 2, 4, 0] ++ [5, 7, 0, 7, 0, 1, 2, 3, 4, 0, 0, 0, 0, 0, 1, 12, 0, 0, 0, 0, 0, 0, 0, 0] ++ [9]), ([0x43590001, 5, 65536, 33, 7, 2, 4, 0] ++ [5, 7, 0, 7, 0, 1, 2, 3, 4, 0, 0, 0, 0, 0, 1, 12, 0, 0, 0, 0, 0, 0, 0, 0] ++ [9]), { val := { ctl := 1 }, fence := none, stamp := 0, num := 12 }, { v := 390, flips := 1 }, { w := [5, 7, 0, 7, 0, 1, 2, 3, 4, 0, 0, 0, 0, 0, 1, 12, 0, 0, 0, 0, 0, 0, 0, 0], rows := [], flows := [] }, { w := [5, 7, 0, 7, 0, 1, 2, 3, 4, 0, 0, 0, 0, 0, 1, 12, 0, 0, 0, 0, 0, 0, 0, 0], rows := [], flows := [] }, posClk (withFns [(fnTwn, .ready), (fnStaord 0, .ready)] { merAt 500 (mk [(F.TWN_CTL_EN, 1), (⟨R.TWN_PAIR_TAG, 31, 0⟩, 7), (F.TWN_STATUS_ROLE, 2), (⟨R.TWN_CH_MASK, 31, 0⟩, 0x20)]) with pins := { State.reset.pins with twinFirst := true }, twn := { State.reset.twn with peer := some { role := 1, sync := true, first := false, tag := 7 }, own := some (400, ([0x43590001, 5, 65536, 33, 7, 2, 4, 0] ++ [5, 7, 0, 7, 0, 1, 2, 3, 4, 0, 0, 0, 0, 0, 1, 12, 0, 0, 0, 0, 0, 0, 0, 0] ++ [9])), rx := [(5, 300, ([0x43590001, 5, 65536, 33, 7, 2, 4, 0] ++ [5, 7, 0, 7, 0, 1, 2, 3, 4, 0, 0, 0, 0, 0, 1, 12, 0, 0, 0, 0, 0, 0, 0, 0] ++ [9]))] }, comp := { State.reset.comp with chs := [(5, { endV := some 70000, evals := [{ v := 390, flips := 1 }], pend := [(0, some { val := { ctl := 1 }, fence := none, stamp := 0, num := 12 })] })] } }).begin 1 (400 + (withFns [(fnTwn, .ready), (fnStaord 0, .ready)] { merAt 500 (mk [(F.TWN_CTL_EN, 1), (⟨R.TWN_PAIR_TAG, 31, 0⟩, 7), (F.TWN_STATUS_ROLE, 2), (⟨R.TWN_CH_MASK, 31, 0⟩, 0x20)]) with pins := { State.reset.pins with twinFirst := true }, twn := { State.reset.twn with peer := some { role := 1, sync := true, first := false, tag := 7 }, own := some (400, ([0x43590001, 5, 65536, 33, 7, 2, 4, 0] ++ [5, 7, 0, 7, 0, 1, 2, 3, 4, 0, 0, 0, 0, 0, 1, 12, 0, 0, 0, 0, 0, 0, 0, 0] ++ [9])), rx := [(5, 300, ([0x43590001, 5, 65536, 33, 7, 2, 4, 0] ++ [5, 7, 0, 7, 0, 1, 2, 3, 4, 0, 0, 0, 0, 0, 1, 12, 0, 0, 0, 0, 0, 0, 0, 0] ++ [9]))] }, comp := { State.reset.comp with chs := [(5, { endV := some 70000, evals := [{ v := 390, flips := 1 }], pend := [(0, some { val := { ctl := 1 }, fence := none, stamp := 0, num := 12 })] })] } }).f F.TWN_ADOPT_ADOPT * 65536), by decide +kernel⟩,
   ⟨withFns [(fnTwn, .ready), (fnStaord 0, .ready)] { merAt 500 (mk [(F.TWN_CTL_EN, 1), (⟨R.TWN_PAIR_TAG, 31, 0⟩, 7), (F.TWN_STATUS_ROLE, 2), (F.TWN_CH_STATUS_STATE 5, 3), (F.ENC_CH_RATE_NUM 5, 60), (F.ENC_CH_RATE_DEN 5, 1)]) with pins := { State.reset.pins with twinFirst := true }, twn := { State.reset.twn with peer := some { role := 1, sync := true, first := false, tag := 7 }, chs := [(5, { resync := true })] } }, 5, chanK (withFns [(fnTwn, .ready), (fnStaord 0, .ready)] { merAt 500 (mk [(F.TWN_CTL_EN, 1), (⟨R.TWN_PAIR_TAG, 31, 0⟩, 7), (F.TWN_STATUS_ROLE, 2), (F.TWN_CH_STATUS_STATE 5, 3), (F.ENC_CH_RATE_NUM 5, 60), (F.ENC_CH_RATE_DEN 5, 1)]) with pins := { State.reset.pins with twinFirst := true }, twn := { State.reset.twn with peer := some { role := 1, sync := true, first := false, tag := 7 }, chs := [(5, { resync := true })] } }).begin 2 5, chanV (withFns [(fnTwn, .ready), (fnStaord 0, .ready)] { merAt 500 (mk [(F.TWN_CTL_EN, 1), (⟨R.TWN_PAIR_TAG, 31, 0⟩, 7), (F.TWN_STATUS_ROLE, 2), (F.TWN_CH_STATUS_STATE 5, 3), (F.ENC_CH_RATE_NUM 5, 60), (F.ENC_CH_RATE_DEN 5, 1)]) with pins := { State.reset.pins with twinFirst := true }, twn := { State.reset.twn with peer := some { role := 1, sync := true, first := false, tag := 7 }, chs := [(5, { resync := true })] } }).begin 2 5, chanClk (withFns [(fnTwn, .ready), (fnStaord 0, .ready)] { merAt 500 (mk [(F.TWN_CTL_EN, 1), (⟨R.TWN_PAIR_TAG, 31, 0⟩, 7), (F.TWN_STATUS_ROLE, 2), (F.TWN_CH_STATUS_STATE 5, 3), (F.ENC_CH_RATE_NUM 5, 60), (F.ENC_CH_RATE_DEN 5, 1)]) with pins := { State.reset.pins with twinFirst := true }, twn := { State.reset.twn with peer := some { role := 1, sync := true, first := false, tag := 7 }, chs := [(5, { resync := true })] } }).begin 2 5, by decide +kernel⟩⟩

theorem witness_TwinFaultCommandsComplete :
    (∃ (s : State) , (s.dark = false) ∧ (s.rdn R.TWN_CMD = 0) ∧ (s.on F.BIN_STATUS_MUTED = false) ∧ (s.on F.BIN_STATUS_HELM_OUT = true) ∧ (s.isl.queue.length < 8) ∧ (s.rdn R.BIN_FAULT_MASK = 0)) ∧
    (∃ (s : State) , (s.role ≠ 0) ∧ (s.on F.BIN_STATUS_MUTED = false) ∧ (s.on F.BIN_STATUS_HELM_OUT = true) ∧ (s.isl.queue.length < 8) ∧ (s.rdn R.BIN_FAULT_MASK = 0)) ∧
    (∃ (s : State) (n : Nat), (n < 32) ∧ (s.twinned n = true) ∧ (s.on F.BIN_STATUS_MUTED = false) ∧ (s.on F.BIN_STATUS_HELM_OUT = true) ∧ (s.isl.queue.length < 8) ∧ (s.rdn R.BIN_FAULT_MASK = 0)) :=
  ⟨⟨withFns [(fnTwn, .ready), (fnStaord 0, .ready)] { merAt 500 (mk [(F.TWN_CTL_EN, 1), (⟨R.TWN_PAIR_TAG, 31, 0⟩, 7), (F.TWN_STATUS_ROLE, 4), (F.BIN_STATUS_HELM_OUT, 1), (⟨R.TWN_CH_MASK, 31, 0⟩, 0x20), (⟨R.BIN_FAULT_MASK, 31, 0⟩, 0)]) with pins := { State.reset.pins with twinFirst := true }, twn := { State.reset.twn with peer := some { role := 1, sync := true, first := false, tag := 7 } } }, by decide +kernel⟩,
   ⟨withFns [(fnTwn, .ready), (fnStaord 0, .ready)] { merAt 500 (mk [(F.TWN_CTL_EN, 1), (⟨R.TWN_PAIR_TAG, 31, 0⟩, 7), (F.TWN_STATUS_ROLE, 4), (F.BIN_STATUS_HELM_OUT, 1), (⟨R.TWN_CH_MASK, 31, 0⟩, 0x20), (⟨R.BIN_FAULT_MASK, 31, 0⟩, 0)]) with pins := { State.reset.pins with twinFirst := true }, twn := { State.reset.twn with peer := some { role := 1, sync := true, first := false, tag := 7 } } }, by decide +kernel⟩,
   ⟨withFns [(fnTwn, .ready), (fnStaord 0, .ready)] { merAt 500 (mk [(F.TWN_CTL_EN, 1), (⟨R.TWN_PAIR_TAG, 31, 0⟩, 7), (F.TWN_STATUS_ROLE, 4), (F.BIN_STATUS_HELM_OUT, 1), (⟨R.TWN_CH_MASK, 31, 0⟩, 0x20), (⟨R.BIN_FAULT_MASK, 31, 0⟩, 0)]) with pins := { State.reset.pins with twinFirst := true }, twn := { State.reset.twn with peer := some { role := 1, sync := true, first := false, tag := 7 } } }, 5, by decide +kernel⟩⟩

theorem witness_CanvasBudgetCommandsComplete :
    (∃ (s : State) (c : Nat), (s.dark = false) ∧ (s.on F.CNV_CTL_EN = false) ∧ ((s.setF F.CNV_CTL_EN 1).cnvOk = true) ∧ (s.fn fnCnv = .off) ∧ (s.cnvCh = c) ∧ (s.active (fnEnc c) = false)) ∧
    (∃ (s : State) (p : Nat) (q : Clock), (s.on F.CNV_CTL_EN = true) ∧ (s.active fnCnv = true) ∧ ((s.encCh s.cnvCh).started = true) ∧ (1 < s.cnvCols) ∧ (s.cnvPort 0 = p) ∧ (s.on F.CNV_CTL_SHADOW = false) ∧ (s.linkUp p = true) ∧ ((s.link p).buf.length < 1024) ∧ (s.begin.cnvAt (2 * s.f F.CNV_TIMING_REPORT) = some { s.begin with clk := q }) ∧ ((s.encCh s.cnvCh).pics = []) ∧ (s.cnv.k1 ≠ s.cnvPic)) ∧
    (∃ (s : State) (p : Nat) (g : BudgetFlit) (r : CnvReport), (p < 8) ∧ (s.on F.CNV_CTL_EN = true) ∧ (g.tag = s.rdn R.CNV_GROUP_TAG) ∧ (g.k16 = s.cnvPic % 65536) ∧ (s.cnv.k1 = s.cnvPic) ∧ (s.cnv.open_ = true) ∧ (g.masks = []) ∧ (g.reports = [r]) ∧ (s.cnv.mask = none) ∧ (r.member ≠ s.cnvMe) ∧ (r.member < s.cnvRows * s.cnvCols) ∧ (r.gdig = s.rdn R.CNV_GDIGEST) ∧ (s.cnv.reps.any (fun x => x.member == r.member) = false) ∧ (s.fromRow p = false) ∧ (s.fromCol p = false)) ∧
    (∃ (s : State) (p : Nat), (s.on F.CNV_CTL_EN = true) ∧ (s.active fnCnv = true) ∧ ((s.encCh s.cnvCh).started = true) ∧ (1 < s.cnvRows) ∧ (s.cnvPort 2 = p) ∧ (s.on F.CNV_CTL_SHADOW = false) ∧ (s.linkUp p = true) ∧ ((s.link p).buf.length < 1024) ∧ (s.cnv.open_ = true) ∧ (s.cnv.rowSent = false) ∧ ((s.ownRow (s.cnv.reps.map (fun r => r.member))).length = s.cnvCols)) ∧
    (∃ (s : State) (p : Nat) (q : Clock), (s.on F.CNV_CTL_EN = true) ∧ (s.active fnCnv = true) ∧ ((s.encCh s.cnvCh).started = true) ∧ (1 < s.cnvCols) ∧ (s.cnvPort 0 = p) ∧ (s.on F.CNV_CTL_SHADOW = false) ∧ (s.linkUp p = true) ∧ ((s.link p).buf.length < 1024) ∧ (s.cnv.open_ = true) ∧ (s.cnv.mask = none) ∧ (s.begin.cnvAt (2 * (s.f F.CNV_TIMING_REPORT + s.f F.CNV_TIMING_WINDOW)) = some { s.begin with clk := q })) ∧
    (∃ (s : State) (p : Nat), (s.on F.CNV_CTL_EN = true) ∧ (s.active fnCnv = true) ∧ ((s.encCh s.cnvCh).started = true) ∧ (1 < s.cnvRows) ∧ (s.cnvPort 2 = p) ∧ (s.on F.CNV_CTL_SHADOW = false) ∧ (s.linkUp p = true) ∧ ((s.link p).buf.length < 1024) ∧ (s.cnv.mask.isSome = true) ∧ (s.cnv.maskSent = false) ∧ ((s.ownRow (s.cnv.masks.map (fun m => m.member))).length = s.cnvCols)) ∧
    (∃ (s : State) (r : CnvReport) (q : Clock), (s.on F.CNV_CTL_EN = true) ∧ (s.active fnCnv = true) ∧ ((s.encCh s.cnvCh).started = true) ∧ (s.cnvRows * s.cnvCols = 1) ∧ (s.cnvMe = 0) ∧ (s.begin.cnvAt (2 * (s.f F.CNV_TIMING_REPORT + 2 * s.f F.CNV_TIMING_WINDOW)) = some { s.begin with clk := q }) ∧ (s.cnv.mask = some 1) ∧ (s.cnv.masks = [{ member := 0, mask := 1, adig := adigOf s.cnv.applied }]) ∧ (s.cnv.reps = [r]) ∧ (r.member = 0) ∧ (r.floor ≤ r.t) ∧ (r.t ≤ r.cap) ∧ (s.cnvCh < 32)) :=
  ⟨⟨mk [(F.ENC_CH_SIZE_W 5, 64), (F.ENC_CH_SIZE_H 5, 128), (F.ENC_CH_RATE_NUM 5, 120), (F.ENC_CH_RATE_DEN 5, 1), (F.ENC_CH_LAYOUT_NCOL 5, 1), (F.ENC_CH_LAYOUT_NROW 5, 1), (⟨R.ENC_CH_ROWH 5 0, 7, 0⟩, 2), (F.ENC_CH_RC_RATE_BR 5, 20000), (F.ENC_CH_GDR_PERIOD 5, 4), (F.MER_CH_LINES_L_C 5, 150), (⟨R.CNV_TC_NCOL 0, 5, 0⟩, 1), (⟨R.CNV_TR_NROW 0, 3, 0⟩, 1), (⟨R.CNV_TR_ROWH 0 0, 7, 0⟩, 2), (⟨R.CNV_GROUP_TAG, 31, 0⟩, 7), (⟨R.CNV_GRATE, 22, 0⟩, 20), (⟨R.CNV_CTL, 5, 1⟩, 5), (F.GLB_FEAT_CTL_LOCKED, 1), (⟨R.GLB_FEAT_ACCEPT 0, 5, 5⟩, 1)], 5, by decide +kernel⟩,
   ⟨withFns [(fnCnv, .ready), (fnEnc 5, .ready), (fnStaord 0, .ready)] { merAt 500 (mk [(F.ENC_CH_SIZE_W 5, 64), (F.ENC_CH_SIZE_H 5, 128), (F.ENC_CH_RATE_NUM 5, 120), (F.ENC_CH_RATE_DEN 5, 1), (F.ENC_CH_LAYOUT_NCOL 5, 1), (F.ENC_CH_LAYOUT_NROW 5, 1), (⟨R.ENC_CH_ROWH 5 0, 7, 0⟩, 2), (F.ENC_CH_RC_RATE_BR 5, 20000), (F.ENC_CH_GDR_PERIOD 5, 4), (F.MER_CH_LINES_L_C 5, 150), (⟨R.CNV_TC_NCOL 0, 5, 0⟩, 1), (⟨R.CNV_TR_NROW 0, 3, 0⟩, 1), (⟨R.CNV_TR_ROWH 0 0, 7, 0⟩, 2), (⟨R.CNV_GROUP_TAG, 31, 0⟩, 7), (⟨R.CNV_GRATE, 22, 0⟩, 20), (⟨R.CNV_CTL, 5, 1⟩, 5), (F.CNV_CTL_EN, 1), (F.CNV_LINK_STATUS_B1_0 0, 2), (F.CNV_GRID_COLS_M1, 1), (F.CNV_TIMING_REPORT, 100), (F.CNV_TIMING_WINDOW, 40)]) with enc := [(5, { started := true, member := true, k := 8, per := 4 })], cnv := { State.reset.cnv with k1 := 3 } }, 0, (match (withFns [(fnCnv, .ready), (fnEnc 5, .ready), (fnStaord 0, .ready)] { merAt 500 (mk [(F.ENC_CH_SIZE_W 5, 64), (F.ENC_CH_SIZE_H 5, 128), (F.ENC_CH_RATE_NUM 5, 120), (F.ENC_CH_RATE_DEN 5, 1), (F.ENC_CH_LAYOUT_NCOL 5, 1), (F.ENC_CH_LAYOUT_NROW 5, 1), (⟨R.ENC_CH_ROWH 5 0, 7, 0⟩, 2), (F.ENC_CH_RC_RATE_BR 5, 20000), (F.ENC_CH_GDR_PERIOD 5, 4), (F.MER_CH_LINES_L_C 5, 150), (⟨R.CNV_TC_NCOL 0, 5, 0⟩, 1), (⟨R.CNV_TR_NROW 0, 3, 0⟩, 1), (⟨R.CNV_TR_ROWH 0 0, 7, 0⟩, 2), (⟨R.CNV_GROUP_TAG, 31, 0⟩, 7), (⟨R.CNV_GRATE, 22, 0⟩, 20), (⟨R.CNV_CTL, 5, 1⟩, 5), (F.CNV_CTL_EN, 1), (F.CNV_LINK_STATUS_B1_0 0, 2), (F.CNV_GRID_COLS_M1, 1), (F.CNV_TIMING_REPORT, 100), (F.CNV_TIMING_WINDOW, 40)]) with enc := [(5, { started := true, member := true, k := 8, per := 4 })], cnv := { State.reset.cnv with k1 := 3 } }).begin.cnvAt (2 * (withFns [(fnCnv, .ready), (fnEnc 5, .ready), (fnStaord 0, .ready)] { merAt 500 (mk [(F.ENC_CH_SIZE_W 5, 64), (F.ENC_CH_SIZE_H 5, 128), (F.ENC_CH_RATE_NUM 5, 120), (F.ENC_CH_RATE_DEN 5, 1), (F.ENC_CH_LAYOUT_NCOL 5, 1), (F.ENC_CH_LAYOUT_NROW 5, 1), (⟨R.ENC_CH_ROWH 5 0, 7, 0⟩, 2), (F.ENC_CH_RC_RATE_BR 5, 20000), (F.ENC_CH_GDR_PERIOD 5, 4), (F.MER_CH_LINES_L_C 5, 150), (⟨R.CNV_TC_NCOL 0, 5, 0⟩, 1), (⟨R.CNV_TR_NROW 0, 3, 0⟩, 1), (⟨R.CNV_TR_ROWH 0 0, 7, 0⟩, 2), (⟨R.CNV_GROUP_TAG, 31, 0⟩, 7), (⟨R.CNV_GRATE, 22, 0⟩, 20), (⟨R.CNV_CTL, 5, 1⟩, 5), (F.CNV_CTL_EN, 1), (F.CNV_LINK_STATUS_B1_0 0, 2), (F.CNV_GRID_COLS_M1, 1), (F.CNV_TIMING_REPORT, 100), (F.CNV_TIMING_WINDOW, 40)]) with enc := [(5, { started := true, member := true, k := 8, per := 4 })], cnv := { State.reset.cnv with k1 := 3 } }).f F.CNV_TIMING_REPORT) with | some t => t.clk | none => State.reset.clk), by decide +kernel⟩,
   ⟨(withFns [(fnCnv, .ready), (fnEnc 5, .ready), (fnStaord 0, .ready)] { merAt 500 (mk [(F.ENC_CH_SIZE_W 5, 64), (F.ENC_CH_SIZE_H 5, 128), (F.ENC_CH_RATE_NUM 5, 120), (F.ENC_CH_RATE_DEN 5, 1), (F.ENC_CH_LAYOUT_NCOL 5, 1), (F.ENC_CH_LAYOUT_NROW 5, 1), (⟨R.ENC_CH_ROWH 5 0, 7, 0⟩, 2), (F.ENC_CH_RC_RATE_BR 5, 20000), (F.ENC_CH_GDR_PERIOD 5, 4), (F.MER_CH_LINES_L_C 5, 150), (⟨R.CNV_TC_NCOL 0, 5, 0⟩, 1), (⟨R.CNV_TR_NROW 0, 3, 0⟩, 1), (⟨R.CNV_TR_ROWH 0 0, 7, 0⟩, 2), (⟨R.CNV_GROUP_TAG, 31, 0⟩, 7), (⟨R.CNV_GRATE, 22, 0⟩, 20), (⟨R.CNV_CTL, 5, 1⟩, 5), (F.CNV_CTL_EN, 1), (F.CNV_LINK_STATUS_B1_0 0, 2), (F.CNV_GRID_COLS_M1, 1), (F.CNV_TIMING_REPORT, 100), (F.CNV_TIMING_WINDOW, 40)]) with enc := [(5, { started := true, member := true, k := 8, per := 4 })], cnv := { State.reset.cnv with k1 := 9, open_ := true } }).wrn R.CNV_GDIGEST 44, 3, { tag := 7, k16 := 9, reports := [{ member := 1, x := 9, t := 5000, floor := 900, cap := 8000, prev := 4000, gdig := 44 }], masks := [] }, { member := 1, x := 9, t := 5000, floor := 900, cap := 8000, prev := 4000, gdig := 44 }, by decide +kernel⟩,
   ⟨withFns [(fnCnv, .ready), (fnEnc 5, .ready), (fnStaord 0, .ready)] { merAt 500 (mk [(F.ENC_CH_SIZE_W 5, 64), (F.ENC_CH_SIZE_H 5, 128), (F.ENC_CH_RATE_NUM 5, 120), (F.ENC_CH_RATE_DEN 5, 1), (F.ENC_CH_LAYOUT_NCOL 5, 1), (F.ENC_CH_LAYOUT_NROW 5, 1), (⟨R.ENC_CH_ROWH 5 0, 7, 0⟩, 2), (F.ENC_CH_RC_RATE_BR 5, 20000), (F.ENC_CH_GDR_PERIOD 5, 4), (F.MER_CH_LINES_L_C 5, 150), (⟨R.CNV_TC_NCOL 0, 5, 0⟩, 1), (⟨R.CNV_TR_NROW 0, 3, 0⟩, 1), (⟨R.CNV_TR_ROWH 0 0, 7, 0⟩, 2), (⟨R.CNV_GROUP_TAG, 31, 0⟩, 7), (⟨R.CNV_GRATE, 22, 0⟩, 20), (⟨R.CNV_CTL, 5, 1⟩, 5), (F.CNV_CTL_EN, 1), (F.CNV_LINK_STATUS_B1_0 2, 2), (F.CNV_GRID_ROWS_M1, 1), (F.CNV_TIMING_REPORT, 100), (F.CNV_TIMING_WINDOW, 40)]) with enc := [(5, { started := true, member := true, k := 8, per := 4 })], cnv := { State.reset.cnv with k1 := 9, open_ := true, reps := [{ member := 0, x := 9, t := 5000, floor := 900, cap := 8000, prev := 4000, gdig := 44 }] } }, 2, by decide +kernel⟩,
   ⟨withFns [(fnCnv, .ready), (fnEnc 5, .ready), (fnStaord 0, .ready)] { merAt 500 (mk [(F.ENC_CH_SIZE_W 5, 64), (F.ENC_CH_SIZE_H 5, 128), (F.ENC_CH_RATE_NUM 5, 120), (F.ENC_CH_RATE_DEN 5, 1), (F.ENC_CH_LAYOUT_NCOL 5, 1), (F.ENC_CH_LAYOUT_NROW 5, 1), (⟨R.ENC_CH_ROWH 5 0, 7, 0⟩, 2), (F.ENC_CH_RC_RATE_BR 5, 20000), (F.ENC_CH_GDR_PERIOD 5, 4), (F.MER_CH_LINES_L_C 5, 150), (⟨R.CNV_TC_NCOL 0, 5, 0⟩, 1), (⟨R.CNV_TR_NROW 0, 3, 0⟩, 1), (⟨R.CNV_TR_ROWH 0 0, 7, 0⟩, 2), (⟨R.CNV_GROUP_TAG, 31, 0⟩, 7), (⟨R.CNV_GRATE, 22, 0⟩, 20), (⟨R.CNV_CTL, 5, 1⟩, 5), (F.CNV_CTL_EN, 1), (F.CNV_LINK_STATUS_B1_0 0, 2), (F.CNV_GRID_COLS_M1, 1), (F.CNV_TIMING_REPORT, 100), (F.CNV_TIMING_WINDOW, 40)]) with enc := [(5, { started := true, member := true, k := 8, per := 4 })], cnv := { State.reset.cnv with k1 := 9, open_ := true, reps := [{ member := 0, x := 9, t := 5000, floor := 900, cap := 8000, prev := 4000, gdig := 44 }] } }, 0, (match (withFns [(fnCnv, .ready), (fnEnc 5, .ready), (fnStaord 0, .ready)] { merAt 500 (mk [(F.ENC_CH_SIZE_W 5, 64), (F.ENC_CH_SIZE_H 5, 128), (F.ENC_CH_RATE_NUM 5, 120), (F.ENC_CH_RATE_DEN 5, 1), (F.ENC_CH_LAYOUT_NCOL 5, 1), (F.ENC_CH_LAYOUT_NROW 5, 1), (⟨R.ENC_CH_ROWH 5 0, 7, 0⟩, 2), (F.ENC_CH_RC_RATE_BR 5, 20000), (F.ENC_CH_GDR_PERIOD 5, 4), (F.MER_CH_LINES_L_C 5, 150), (⟨R.CNV_TC_NCOL 0, 5, 0⟩, 1), (⟨R.CNV_TR_NROW 0, 3, 0⟩, 1), (⟨R.CNV_TR_ROWH 0 0, 7, 0⟩, 2), (⟨R.CNV_GROUP_TAG, 31, 0⟩, 7), (⟨R.CNV_GRATE, 22, 0⟩, 20), (⟨R.CNV_CTL, 5, 1⟩, 5), (F.CNV_CTL_EN, 1), (F.CNV_LINK_STATUS_B1_0 0, 2), (F.CNV_GRID_COLS_M1, 1), (F.CNV_TIMING_REPORT, 100), (F.CNV_TIMING_WINDOW, 40)]) with enc := [(5, { started := true, member := true, k := 8, per := 4 })], cnv := { State.reset.cnv with k1 := 9, open_ := true, reps := [{ member := 0, x := 9, t := 5000, floor := 900, cap := 8000, prev := 4000, gdig := 44 }] } }).begin.cnvAt (2 * ((withFns [(fnCnv, .ready), (fnEnc 5, .ready), (fnStaord 0, .ready)] { merAt 500 (mk [(F.ENC_CH_SIZE_W 5, 64), (F.ENC_CH_SIZE_H 5, 128), (F.ENC_CH_RATE_NUM 5, 120), (F.ENC_CH_RATE_DEN 5, 1), (F.ENC_CH_LAYOUT_NCOL 5, 1), (F.ENC_CH_LAYOUT_NROW 5, 1), (⟨R.ENC_CH_ROWH 5 0, 7, 0⟩, 2), (F.ENC_CH_RC_RATE_BR 5, 20000), (F.ENC_CH_GDR_PERIOD 5, 4), (F.MER_CH_LINES_L_C 5, 150), (⟨R.CNV_TC_NCOL 0, 5, 0⟩, 1), (⟨R.CNV_TR_NROW 0, 3, 0⟩, 1), (⟨R.CNV_TR_ROWH 0 0, 7, 0⟩, 2), (⟨R.CNV_GROUP_TAG, 31, 0⟩, 7), (⟨R.CNV_GRATE, 22, 0⟩, 20), (⟨R.CNV_CTL, 5, 1⟩, 5), (F.CNV_CTL_EN, 1), (F.CNV_LINK_STATUS_B1_0 0, 2), (F.CNV_GRID_COLS_M1, 1), (F.CNV_TIMING_REPORT, 100), (F.CNV_TIMING_WINDOW, 40)]) with enc := [(5, { started := true, member := true, k := 8, per := 4 })], cnv := { State.reset.cnv with k1 := 9, open_ := true, reps := [{ member := 0, x := 9, t := 5000, floor := 900, cap := 8000, prev := 4000, gdig := 44 }] } }).f F.CNV_TIMING_REPORT + (withFns [(fnCnv, .ready), (fnEnc 5, .ready), (fnStaord 0, .ready)] { merAt 500 (mk [(F.ENC_CH_SIZE_W 5, 64), (F.ENC_CH_SIZE_H 5, 128), (F.ENC_CH_RATE_NUM 5, 120), (F.ENC_CH_RATE_DEN 5, 1), (F.ENC_CH_LAYOUT_NCOL 5, 1), (F.ENC_CH_LAYOUT_NROW 5, 1), (⟨R.ENC_CH_ROWH 5 0, 7, 0⟩, 2), (F.ENC_CH_RC_RATE_BR 5, 20000), (F.ENC_CH_GDR_PERIOD 5, 4), (F.MER_CH_LINES_L_C 5, 150), (⟨R.CNV_TC_NCOL 0, 5, 0⟩, 1), (⟨R.CNV_TR_NROW 0, 3, 0⟩, 1), (⟨R.CNV_TR_ROWH 0 0, 7, 0⟩, 2), (⟨R.CNV_GROUP_TAG, 31, 0⟩, 7), (⟨R.CNV_GRATE, 22, 0⟩, 20), (⟨R.CNV_CTL, 5, 1⟩, 5), (F.CNV_CTL_EN, 1), (F.CNV_LINK_STATUS_B1_0 0, 2), (F.CNV_GRID_COLS_M1, 1), (F.CNV_TIMING_REPORT, 100), (F.CNV_TIMING_WINDOW, 40)]) with enc := [(5, { started := true, member := true, k := 8, per := 4 })], cnv := { State.reset.cnv with k1 := 9, open_ := true, reps := [{ member := 0, x := 9, t := 5000, floor := 900, cap := 8000, prev := 4000, gdig := 44 }] } }).f F.CNV_TIMING_WINDOW)) with | some t => t.clk | none => State.reset.clk), by decide +kernel⟩,
   ⟨withFns [(fnCnv, .ready), (fnEnc 5, .ready), (fnStaord 0, .ready)] { merAt 500 (mk [(F.ENC_CH_SIZE_W 5, 64), (F.ENC_CH_SIZE_H 5, 128), (F.ENC_CH_RATE_NUM 5, 120), (F.ENC_CH_RATE_DEN 5, 1), (F.ENC_CH_LAYOUT_NCOL 5, 1), (F.ENC_CH_LAYOUT_NROW 5, 1), (⟨R.ENC_CH_ROWH 5 0, 7, 0⟩, 2), (F.ENC_CH_RC_RATE_BR 5, 20000), (F.ENC_CH_GDR_PERIOD 5, 4), (F.MER_CH_LINES_L_C 5, 150), (⟨R.CNV_TC_NCOL 0, 5, 0⟩, 1), (⟨R.CNV_TR_NROW 0, 3, 0⟩, 1), (⟨R.CNV_TR_ROWH 0 0, 7, 0⟩, 2), (⟨R.CNV_GROUP_TAG, 31, 0⟩, 7), (⟨R.CNV_GRATE, 22, 0⟩, 20), (⟨R.CNV_CTL, 5, 1⟩, 5), (F.CNV_CTL_EN, 1), (F.CNV_LINK_STATUS_B1_0 2, 2), (F.CNV_GRID_ROWS_M1, 1), (F.CNV_TIMING_REPORT, 100), (F.CNV_TIMING_WINDOW, 40)]) with enc := [(5, { started := true, member := true, k := 8, per := 4 })], cnv := { State.reset.cnv with k1 := 9, open_ := true, mask := some 1, masks := [{ member := 0, mask := 1, adig := 5 }] } }, 2, by decide +kernel⟩,
   ⟨withFns [(fnCnv, .ready), (fnEnc 5, .ready), (fnStaord 0, .ready)] { merAt 500 (mk [(F.ENC_CH_SIZE_W 5, 64), (F.ENC_CH_SIZE_H 5, 128), (F.ENC_CH_RATE_NUM 5, 120), (F.ENC_CH_RATE_DEN 5, 1), (F.ENC_CH_LAYOUT_NCOL 5, 1), (F.ENC_CH_LAYOUT_NROW 5, 1), (⟨R.ENC_CH_ROWH 5 0, 7, 0⟩, 2), (F.ENC_CH_RC_RATE_BR 5, 20000), (F.ENC_CH_GDR_PERIOD 5, 4), (F.MER_CH_LINES_L_C 5, 150), (⟨R.CNV_TC_NCOL 0, 5, 0⟩, 1), (⟨R.CNV_TR_NROW 0, 3, 0⟩, 1), (⟨R.CNV_TR_ROWH 0 0, 7, 0⟩, 2), (⟨R.CNV_GROUP_TAG, 31, 0⟩, 7), (⟨R.CNV_GRATE, 22, 0⟩, 20), (⟨R.CNV_CTL, 5, 1⟩, 5), (F.CNV_CTL_EN, 1), (F.CNV_TIMING_REPORT, 100), (F.CNV_TIMING_WINDOW, 40)]) with enc := [(5, { started := true, member := true, k := 8, per := 4 })], cnv := { State.reset.cnv with k1 := 9, open_ := true, mask := some 1, masks := [{ member := 0, mask := 1, adig := adigOf [] }], reps := [{ member := 0, x := 9, t := 5000, floor := 900, cap := 8000, prev := 4000, gdig := 44 }] } }, { member := 0, x := 9, t := 5000, floor := 900, cap := 8000, prev := 4000, gdig := 44 }, (match (withFns [(fnCnv, .ready), (fnEnc 5, .ready), (fnStaord 0, .ready)] { merAt 500 (mk [(F.ENC_CH_SIZE_W 5, 64), (F.ENC_CH_SIZE_H 5, 128), (F.ENC_CH_RATE_NUM 5, 120), (F.ENC_CH_RATE_DEN 5, 1), (F.ENC_CH_LAYOUT_NCOL 5, 1), (F.ENC_CH_LAYOUT_NROW 5, 1), (⟨R.ENC_CH_ROWH 5 0, 7, 0⟩, 2), (F.ENC_CH_RC_RATE_BR 5, 20000), (F.ENC_CH_GDR_PERIOD 5, 4), (F.MER_CH_LINES_L_C 5, 150), (⟨R.CNV_TC_NCOL 0, 5, 0⟩, 1), (⟨R.CNV_TR_NROW 0, 3, 0⟩, 1), (⟨R.CNV_TR_ROWH 0 0, 7, 0⟩, 2), (⟨R.CNV_GROUP_TAG, 31, 0⟩, 7), (⟨R.CNV_GRATE, 22, 0⟩, 20), (⟨R.CNV_CTL, 5, 1⟩, 5), (F.CNV_CTL_EN, 1), (F.CNV_TIMING_REPORT, 100), (F.CNV_TIMING_WINDOW, 40)]) with enc := [(5, { started := true, member := true, k := 8, per := 4 })], cnv := { State.reset.cnv with k1 := 9, open_ := true, mask := some 1, masks := [{ member := 0, mask := 1, adig := adigOf [] }], reps := [{ member := 0, x := 9, t := 5000, floor := 900, cap := 8000, prev := 4000, gdig := 44 }] } }).begin.cnvAt (2 * ((withFns [(fnCnv, .ready), (fnEnc 5, .ready), (fnStaord 0, .ready)] { merAt 500 (mk [(F.ENC_CH_SIZE_W 5, 64), (F.ENC_CH_SIZE_H 5, 128), (F.ENC_CH_RATE_NUM 5, 120), (F.ENC_CH_RATE_DEN 5, 1), (F.ENC_CH_LAYOUT_NCOL 5, 1), (F.ENC_CH_LAYOUT_NROW 5, 1), (⟨R.ENC_CH_ROWH 5 0, 7, 0⟩, 2), (F.ENC_CH_RC_RATE_BR 5, 20000), (F.ENC_CH_GDR_PERIOD 5, 4), (F.MER_CH_LINES_L_C 5, 150), (⟨R.CNV_TC_NCOL 0, 5, 0⟩, 1), (⟨R.CNV_TR_NROW 0, 3, 0⟩, 1), (⟨R.CNV_TR_ROWH 0 0, 7, 0⟩, 2), (⟨R.CNV_GROUP_TAG, 31, 0⟩, 7), (⟨R.CNV_GRATE, 22, 0⟩, 20), (⟨R.CNV_CTL, 5, 1⟩, 5), (F.CNV_CTL_EN, 1), (F.CNV_TIMING_REPORT, 100), (F.CNV_TIMING_WINDOW, 40)]) with enc := [(5, { started := true, member := true, k := 8, per := 4 })], cnv := { State.reset.cnv with k1 := 9, open_ := true, mask := some 1, masks := [{ member := 0, mask := 1, adig := adigOf [] }], reps := [{ member := 0, x := 9, t := 5000, floor := 900, cap := 8000, prev := 4000, gdig := 44 }] } }).f F.CNV_TIMING_REPORT + 2 * (withFns [(fnCnv, .ready), (fnEnc 5, .ready), (fnStaord 0, .ready)] { merAt 500 (mk [(F.ENC_CH_SIZE_W 5, 64), (F.ENC_CH_SIZE_H 5, 128), (F.ENC_CH_RATE_NUM 5, 120), (F.ENC_CH_RATE_DEN 5, 1), (F.ENC_CH_LAYOUT_NCOL 5, 1), (F.ENC_CH_LAYOUT_NROW 5, 1), (⟨R.ENC_CH_ROWH 5 0, 7, 0⟩, 2), (F.ENC_CH_RC_RATE_BR 5, 20000), (F.ENC_CH_GDR_PERIOD 5, 4), (F.MER_CH_LINES_L_C 5, 150), (⟨R.CNV_TC_NCOL 0, 5, 0⟩, 1), (⟨R.CNV_TR_NROW 0, 3, 0⟩, 1), (⟨R.CNV_TR_ROWH 0 0, 7, 0⟩, 2), (⟨R.CNV_GROUP_TAG, 31, 0⟩, 7), (⟨R.CNV_GRATE, 22, 0⟩, 20), (⟨R.CNV_CTL, 5, 1⟩, 5), (F.CNV_CTL_EN, 1), (F.CNV_TIMING_REPORT, 100), (F.CNV_TIMING_WINDOW, 40)]) with enc := [(5, { started := true, member := true, k := 8, per := 4 })], cnv := { State.reset.cnv with k1 := 9, open_ := true, mask := some 1, masks := [{ member := 0, mask := 1, adig := adigOf [] }], reps := [{ member := 0, x := 9, t := 5000, floor := 900, cap := 8000, prev := 4000, gdig := 44 }] } }).f F.CNV_TIMING_WINDOW)) with | some t => t.clk | none => State.reset.clk), by decide +kernel⟩⟩

theorem witness_LinkFlitCommandsComplete :
    (∃ (s : State) (p : Nat) (g : Flit), (p < 8) ∧ (s.linkUp p = true) ∧ (g.crc = flitCrc (s.link p).rx g) ∧ (g.ty = 1) ∧ (g.nak = false) ∧ (g.ackValid = false) ∧ (s.f F.TWN_STATUS_ROLE = 0)) ∧
    (∃ (s : State) (p : Nat), (p < 8) ∧ (s.linkUp p = true) ∧ ((s.link p).buf ≠ []) ∧ ((s.link p).retries < s.f (F.CNV_LINK_CTL_RETRY p))) ∧
    (∃ (s : State) (p : Nat) (rx : List (Nat × Nat × Nat)), (p < 8) ∧ (s.f (F.CNV_LINK_STATUS_B1_0 p) = 1) ∧ (s.fn (fnStaord p) = .starting) ∧ (rx ≠ [])) ∧
    (∃ (s : State) (p : Nat) (g : RelayFlit), (p < 8) ∧ (g.dest = s.pins.mid) ∧ (g.dest ≠ 0x3FF) ∧ (g.frag = 0) ∧ (g.last = true) ∧ (s.cnv.asms.length < 16) ∧ (s.cnv.asms.find? (fun a => a.orig == g.orig && a.msg == g.msg) = none)) ∧
    (∃ (s : State) (a : Assembler), (s.cnv.asms = [a])) :=
  ⟨⟨withFns [(fnStaord 3, .ready)] { merAt 500 (mk [(F.CNV_LINK_STATUS_B1_0 3, 2)]) with links := [(3, { rx := 5 })] }, 3, { ty := 1, seq := 5, ack := 0, nak := false, ackValid := false, mid := 77, payload := [1, 2], crc := flitCrc 5 ({ ty := 1, seq := 5, ack := 0, nak := false, ackValid := false, mid := 77, payload := [1, 2], crc := 0 }) }, by decide +kernel⟩,
   ⟨withFns [(fnStaord 3, .ready)] { merAt 500 (mk [(F.CNV_LINK_STATUS_B1_0 3, 2)]) with links := [(3, { buf := [{ ty := 1, seq := 5, ack := 0, nak := false, ackValid := false, mid := 77, payload := [1, 2], crc := 0 }], lastAdv := 7 })] }, 3, by decide +kernel⟩,
   ⟨withFns [(fnStaord 3, .starting)] { merAt 500 (mk [(F.CNV_LINK_STATUS_B1_0 3, 1)]) with links := [(3, { tx := 4 })] }, 3, [(9000, 500, 40), (9100, 600, 44)], by decide +kernel⟩,
   ⟨{ State.reset with pins := { State.reset.pins with mid := 77 } }, 3, { ty := 5, dest := 77, orig := 12, hops := 2, msg := 6, frag := 0, last := true, data := [1, 2, 3] }, by decide +kernel⟩,
   ⟨{ State.reset with cnv := { State.reset.cnv with asms := [{ orig := 3, msg := 4, next := 1, data := [5], at_ := 60 }] } }, { orig := 3, msg := 4, next := 1, data := [5], at_ := 60 }, by decide +kernel⟩⟩

theorem witness_LaneTrainingCommandsComplete :
    (∃ (s : State) (q p : Nat), (s.dark = false) ∧ (q < 16) ∧ (s.on (F.LNE_QUAD_CTL_EN q) = false) ∧ (s.f (F.LNE_QUAD_CTL_ROLE q) = 2) ∧ (s.f (F.LNE_QUAD_CTL_PORT q) = p) ∧ (s.quadOk q 2 p = true) ∧ (s.f (F.LNE_SPORT_STATUS_STATE p) ≠ 4) ∧ (s.fn (fnStaord p) = .off) ∧ (s.cfgLocked = false)) ∧
    (∃ (s : State) (q p : Nat), (s.dark = false) ∧ (q < 16) ∧ (s.on (F.LNE_QUAD_CTL_EN q) = true) ∧ (s.f (F.LNE_QUAD_CTL_ROLE q) = 2) ∧ (s.f (F.LNE_QUAD_CTL_PORT q) = p) ∧ (s.quadUsed q = false) ∧ (s.f (F.LNE_SPORT_STATUS_STATE p) ≠ 4) ∧ (s.portQuads true p = [q]) ∧ (s.fn (fnStaord p) = .starting) ∧ (s.rdn (R.LNE_QUAD_CTL q) < 2 ^ 7)) ∧
    (∃ (s : State) (l : Nat), (l < 64) ∧ (s.stage_ l = 1)) ∧
    (∃ (s : State) (l : Nat) (a b : List Int) (e : List Nat) (c : Int), (l < 64) ∧ (s.stage_ l = 2) ∧ (s.lanePllRuns l = true) ∧ (s.sightPasses 0 l true a b e = true)) ∧
    (∃ (s : State) (l p : Nat) (m : List Nat), (l < 64) ∧ (s.lanePort l = some (true, p)) ∧ (s.stage_ l = 3) ∧ (s.f (F.LNE_SPORT_STATUS_STATE p) = 1) ∧ ((s.lport true p).switch = false) ∧ (s.on (F.LNE_LANE_STATUS_RX_INV l) = false) ∧ (m.all (fun b => decide (b < 256)) = true) ∧ (markerGood m = true) ∧ ((s.lane l).good + 1 < s.f F.LNE_TRAIN_MARKERS)) ∧
    (∃ (s : State) (l p e : Nat) (m : List Nat), (l < 64) ∧ (s.lanePort l = some (true, p)) ∧ (s.stage_ l = 3) ∧ (s.f (F.LNE_SPORT_STATUS_STATE p) = 1) ∧ ((s.lport true p).switch = false) ∧ ((s.lport true p).ok = false) ∧ (s.on (F.LNE_LANE_STATUS_RX_INV l) = false) ∧ (m.all (fun b => decide (b < 256)) = true) ∧ (m.take 4 = [0x4D, 0xB2, 0x69, 0x1E]) ∧ (e ≠ 0)) ∧
    (∃ (s : State) (p k x : Nat), (p < 8) ∧ (s.f (F.LNE_SPORT_STATUS_STATE p) = 2) ∧ (s.lanesDone true p = true) ∧ (k ≤ 128000)) ∧
    (∃ (s : State) (p k x : Nat), (p < 8) ∧ (s.f (F.LNE_EPORT_STATUS_STATE p) = 2) ∧ (s.lanesDone false p = true)) ∧
    (∃ (s : State) (p k x : Nat) (o : Bool), (p < 8) ∧ (s.f (F.LNE_SPORT_STATUS_STATE p) = 2) ∧ (s.lanesDone true p = true) ∧ (128000 < k)) :=
  ⟨⟨mk [(⟨R.LNE_LANE_CFG 12 0, 17, 0⟩, 112500 + 2 ^ 17), (⟨R.LNE_LANE_CFG 13 0, 17, 0⟩, 112500 + 2 ^ 17), (⟨R.LNE_LANE_CFG 14 0, 17, 0⟩, 112500 + 2 ^ 17), (⟨R.LNE_LANE_CFG 15 0, 17, 0⟩, 112500 + 2 ^ 17), (F.LNE_QUAD_CTL_ROLE 3, 2), (F.LNE_QUAD_CTL_PORT 3, 5)], 3, 5, by decide +kernel⟩,
   ⟨withFns [(fnStaord 5, .starting)] (mk [(⟨R.LNE_LANE_CFG 12 0, 17, 0⟩, 112500 + 2 ^ 17), (⟨R.LNE_LANE_CFG 13 0, 17, 0⟩, 112500 + 2 ^ 17), (⟨R.LNE_LANE_CFG 14 0, 17, 0⟩, 112500 + 2 ^ 17), (⟨R.LNE_LANE_CFG 15 0, 17, 0⟩, 112500 + 2 ^ 17), (F.LNE_QUAD_CTL_ROLE 3, 2), (F.LNE_QUAD_CTL_PORT 3, 5), (F.LNE_QUAD_CTL_EN 3, 1), (F.LNE_SPORT_STATUS_STATE 5, 1)]), 3, 5, by decide +kernel⟩,
   ⟨mk [(F.LNE_LANE_STATUS_STAGE 13, 1)], 13, by decide +kernel⟩,
   ⟨mk [(F.LNE_LANE_STATUS_STAGE 13, 2), (F.CKG_LPLL_STATUS_STATE 3, 4)], 13, [40, -3], [40, -3], [90, 80], 51, by decide +kernel⟩,
   ⟨mk [(F.LNE_QUAD_CTL_EN 3, 1), (F.LNE_QUAD_CTL_ROLE 3, 2), (F.LNE_QUAD_CTL_PORT 3, 5), (F.LNE_LANE_STATUS_STAGE 12, 3), (F.LNE_LANE_STATUS_STAGE 13, 3), (F.LNE_LANE_STATUS_STAGE 14, 3), (F.LNE_LANE_STATUS_STAGE 15, 3), (F.LNE_SPORT_STATUS_STATE 5, 1)], 13, 5, [0x4D, 0xB2, 0x69, 0x1E, 2, 253, 1, 254], by decide +kernel⟩,
   ⟨mk [(F.LNE_QUAD_CTL_EN 3, 1), (F.LNE_QUAD_CTL_ROLE 3, 2), (F.LNE_QUAD_CTL_PORT 3, 5), (F.LNE_LANE_STATUS_STAGE 12, 3), (F.LNE_LANE_STATUS_STAGE 13, 3), (F.LNE_LANE_STATUS_STAGE 14, 3), (F.LNE_LANE_STATUS_STAGE 15, 3), (F.LNE_SPORT_STATUS_STATE 5, 1)], 13, 5, 6, [0x4D, 0xB2, 0x69, 0x1E, 2, 253, 1, 254], by decide +kernel⟩,
   ⟨mk [(F.LNE_QUAD_CTL_EN 3, 1), (F.LNE_QUAD_CTL_ROLE 3, 2), (F.LNE_QUAD_CTL_PORT 3, 5), (F.LNE_LANE_STATUS_STAGE 12, 4), (F.LNE_LANE_STATUS_STAGE 13, 4), (F.LNE_LANE_STATUS_STAGE 14, 4), (F.LNE_LANE_STATUS_STAGE 15, 4), (F.LNE_SPORT_STATUS_STATE 5, 2)], 5, 9000, 300, by decide +kernel⟩,
   ⟨mk [(F.LNE_QUAD_CTL_EN 3, 1), (F.LNE_QUAD_CTL_ROLE 3, 1), (F.LNE_QUAD_CTL_PORT 3, 5), (F.LNE_LANE_STATUS_STAGE 12, 4), (F.LNE_LANE_STATUS_STAGE 13, 4), (F.LNE_LANE_STATUS_STAGE 14, 4), (F.LNE_LANE_STATUS_STAGE 15, 4), (F.LNE_EPORT_STATUS_STATE 5, 2)], 5, 9000, 300, by decide +kernel⟩,
   ⟨mk [(F.LNE_QUAD_CTL_EN 3, 1), (F.LNE_QUAD_CTL_ROLE 3, 2), (F.LNE_QUAD_CTL_PORT 3, 5), (F.LNE_LANE_STATUS_STAGE 12, 4), (F.LNE_LANE_STATUS_STAGE 13, 4), (F.LNE_LANE_STATUS_STAGE 14, 4), (F.LNE_LANE_STATUS_STAGE 15, 4), (F.LNE_SPORT_STATUS_STATE 5, 2)], 5, 128001, 300, true, by decide +kernel⟩⟩

theorem witness_LaneLockCommandsComplete :
    (∃ (s : State) (p : Nat), (p < 8) ∧ (s.f (F.LNE_SPORT_STATUS_STATE p) = 3) ∧ (s.fn (fnStaord p) = .starting)) ∧
    (∃ (s : State) (p : Nat), (p < 8) ∧ (s.f (F.LNE_EPORT_STATUS_STATE p) = 3) ∧ (s.on (F.ETH_PORT_STATUS_LOCAL_FAULT p) = false) ∧ (s.on (F.ETH_PORT_STATUS_REMOTE_FAULT p) = false)) ∧
    (∃ (s : State) (p m : Nat), (p < 8) ∧ (s.f (F.LNE_EPORT_STATUS_STATE p) = 4) ∧ (s.f F.LNE_FEC_LOSS_CNT ≤ m)) ∧
    (∃ (s : State) (p m : Nat), (p < 8) ∧ (s.f (F.LNE_SPORT_STATUS_STATE p) = 4) ∧ (s.f F.LNE_FEC_LOSS_CNT ≤ m) ∧ (s.fn (fnStaord p) = .ready)) ∧
    (∃ (s : State) (p m c : Nat), (p < 8) ∧ (s.f (F.LNE_EPORT_STATUS_STATE p) = 4) ∧ (m < s.f F.LNE_FEC_LOSS_CNT) ∧ (0 < s.f F.LNE_FEC_UNCORR)) ∧
    (∃ (s : State) (p : Nat), (p < 8) ∧ (s.f (F.LNE_SPORT_STATUS_STATE p) = 2)) ∧
    (∃ (s : State) (p : Nat), (p < 8) ∧ (s.f (F.LNE_EPORT_STATUS_STATE p) = 2)) ∧
    (∃ (s : State) (l p : Nat), (l < 64) ∧ (2 ≤ s.stage_ l) ∧ (s.lanePort l = some (false, p)) ∧ (p < 8) ∧ (s.f (F.LNE_EPORT_STATUS_STATE p) = 1)) ∧
    (∃ (s : State) (l p : Nat) (v : Bool), (l < 64) ∧ (s.lanePort l = some (false, p)) ∧ (s.stage_ l = 3) ∧ ((s.portLanes false p).any (fun m => m != l && s.stage_ m != 4) = true)) :=
  ⟨⟨withFns [(fnStaord 5, .starting)] (mk [(F.LNE_QUAD_CTL_EN 3, 1), (F.LNE_QUAD_CTL_ROLE 3, 2), (F.LNE_QUAD_CTL_PORT 3, 5), (F.LNE_LANE_STATUS_STAGE 12, 4), (F.LNE_LANE_STATUS_STAGE 13, 4), (F.LNE_LANE_STATUS_STAGE 14, 4), (F.LNE_LANE_STATUS_STAGE 15, 4), (F.LNE_SPORT_STATUS_STATE 5, 3)]), 5, by decide +kernel⟩,
   ⟨mk [(F.LNE_QUAD_CTL_EN 3, 1), (F.LNE_QUAD_CTL_ROLE 3, 1), (F.LNE_QUAD_CTL_PORT 3, 5), (F.LNE_LANE_STATUS_STAGE 12, 4), (F.LNE_LANE_STATUS_STAGE 13, 4), (F.LNE_LANE_STATUS_STAGE 14, 4), (F.LNE_LANE_STATUS_STAGE 15, 4), (F.LNE_EPORT_STATUS_STATE 5, 3)], 5, by decide +kernel⟩,
   ⟨mk [(F.LNE_QUAD_CTL_EN 3, 1), (F.LNE_QUAD_CTL_ROLE 3, 1), (F.LNE_QUAD_CTL_PORT 3, 5), (F.LNE_LANE_STATUS_STAGE 12, 4), (F.LNE_LANE_STATUS_STAGE 13, 4), (F.LNE_LANE_STATUS_STAGE 14, 4), (F.LNE_LANE_STATUS_STAGE 15, 4), (F.LNE_EPORT_STATUS_STATE 5, 4)], 5, 99, by decide +kernel⟩,
   ⟨withFns [(fnStaord 5, .ready)] (mk [(F.LNE_QUAD_CTL_EN 3, 1), (F.LNE_QUAD_CTL_ROLE 3, 2), (F.LNE_QUAD_CTL_PORT 3, 5), (F.LNE_LANE_STATUS_STAGE 12, 4), (F.LNE_LANE_STATUS_STAGE 13, 4), (F.LNE_LANE_STATUS_STAGE 14, 4), (F.LNE_LANE_STATUS_STAGE 15, 4), (F.LNE_SPORT_STATUS_STATE 5, 4), (F.CNV_LINK_STATUS_B1_0 5, 2)]), 5, 99, by decide +kernel⟩,
   ⟨mk [(F.LNE_QUAD_CTL_EN 3, 1), (F.LNE_QUAD_CTL_ROLE 3, 1), (F.LNE_QUAD_CTL_PORT 3, 5), (F.LNE_LANE_STATUS_STAGE 12, 4), (F.LNE_LANE_STATUS_STAGE 13, 4), (F.LNE_LANE_STATUS_STAGE 14, 4), (F.LNE_LANE_STATUS_STAGE 15, 4), (F.LNE_EPORT_STATUS_STATE 5, 4)], 5, 1, 7, by decide +kernel⟩,
   ⟨mk [(F.LNE_QUAD_CTL_EN 3, 1), (F.LNE_QUAD_CTL_ROLE 3, 2), (F.LNE_QUAD_CTL_PORT 3, 5), (F.LNE_LANE_STATUS_STAGE 12, 4), (F.LNE_LANE_STATUS_STAGE 13, 4), (F.LNE_LANE_STATUS_STAGE 14, 4), (F.LNE_LANE_STATUS_STAGE 15, 4), (F.LNE_SPORT_STATUS_STATE 5, 2)], 5, by decide +kernel⟩,
   ⟨mk [(F.LNE_QUAD_CTL_EN 3, 1), (F.LNE_QUAD_CTL_ROLE 3, 1), (F.LNE_QUAD_CTL_PORT 3, 5), (F.LNE_LANE_STATUS_STAGE 12, 4), (F.LNE_LANE_STATUS_STAGE 13, 4), (F.LNE_LANE_STATUS_STAGE 14, 4), (F.LNE_LANE_STATUS_STAGE 15, 4), (F.LNE_EPORT_STATUS_STATE 5, 2)], 5, by decide +kernel⟩,
   ⟨mk [(F.LNE_QUAD_CTL_EN 3, 1), (F.LNE_QUAD_CTL_ROLE 3, 1), (F.LNE_QUAD_CTL_PORT 3, 5), (F.LNE_LANE_STATUS_STAGE 12, 3), (F.LNE_LANE_STATUS_STAGE 13, 3), (F.LNE_LANE_STATUS_STAGE 14, 3), (F.LNE_LANE_STATUS_STAGE 15, 3), (F.LNE_EPORT_STATUS_STATE 5, 1)], 13, 5, by decide +kernel⟩,
   ⟨mk [(F.LNE_QUAD_CTL_EN 3, 1), (F.LNE_QUAD_CTL_ROLE 3, 1), (F.LNE_QUAD_CTL_PORT 3, 5), (F.LNE_LANE_STATUS_STAGE 12, 3), (F.LNE_LANE_STATUS_STAGE 13, 3), (F.LNE_LANE_STATUS_STAGE 14, 3), (F.LNE_LANE_STATUS_STAGE 15, 3), (F.LNE_EPORT_STATUS_STATE 5, 1)], 13, 5, true, by decide +kernel⟩⟩

theorem witness_ResponderCommandsComplete :
    (∃ (s : State) (p n v a : Nat), (p < 8) ∧ (s.rxUp p = true) ∧ (64 ≤ n) ∧ (n ≤ 9216) ∧ (s.vlanNamed p v = true) ∧ (s.macOk p a = true)) ∧
    (∃ (s : State) (p n v a : Nat), (p < 8) ∧ (s.rxUp p = true)) ∧
    (∃ (s : State) (p v a x : Nat), (p < 8) ∧ (s.rxUp p = true) ∧ (s.on (F.ETH_PORT_CTL_ARP_EN p) = true) ∧ (a = s.rdn (R.ETH_PORT_IPV4 p)) ∧ (s.clk.ns < (s.eport p).busy)) ∧
    (∃ (s : State) (p v a x : Nat), (p < 8) ∧ (s.rxUp p = true) ∧ (s.on (F.ETH_PORT_CTL_ND_EN p) = true) ∧ (a = s.portV6 p false ∨ a = s.portV6 p true) ∧ (s.clk.ns < (s.eport p).busy)) ∧
    (∃ (s : State) (p v a x n : Nat), (p < 8) ∧ (s.rxUp p = true) ∧ (s.on (F.ETH_PORT_CTL_ICMP_EN p) = true) ∧ (a = s.rdn (R.ETH_PORT_IPV4 p)) ∧ (n ≤ 1500) ∧ (s.clk.ns < (s.eth_ p).echoNs + 1000000000) ∧ ((s.eth_ p).echoCnt < s.f F.ETH_IGMP_ICMP_RATE) ∧ (s.clk.ns < (s.eport p).busy)) ∧
    (∃ (s : State) (p v a x n : Nat), (p < 8) ∧ (s.rxUp p = true) ∧ (s.on (F.ETH_PORT_CTL_ICMP_EN p) = true) ∧ (a = s.portV6 p false ∨ a = s.portV6 p true) ∧ (n ≤ 1500) ∧ (s.clk.ns < (s.eth_ p).echoNs + 1000000000) ∧ ((s.eth_ p).echoCnt < s.f F.ETH_IGMP_ICMP_RATE) ∧ (s.clk.ns < (s.eport p).busy)) ∧
    (∃ (s : State) (p : Nat) (r x : Bool), (p < 8) ∧ (s.on (if r then F.ETH_PORT_STATUS_REMOTE_FAULT p else F.ETH_PORT_STATUS_LOCAL_FAULT p) = !x)) :=
  ⟨⟨{ merAt 500 (mk [(F.ETH_PORT_STATUS_RX_UP 2, 1), (F.ETH_PORT_CTL_ARP_EN 2, 1), (F.ETH_PORT_CTL_ND_EN 2, 1), (F.ETH_PORT_CTL_ICMP_EN 2, 1), (F.ETH_PORT_CTL_IGMP_EN 2, 1), (⟨R.ETH_PORT_IPV4 2, 31, 0⟩, 0xC0A80001)]) with eth := [(2, { echoCnt := 1 })], egs := { State.reset.egs with ports := [(2, { busy := 10 ^ 15 })] } }, 2, 64, 0, 0xFFFFFFFFFFFF, by decide +kernel⟩,
   ⟨{ merAt 500 (mk [(F.ETH_PORT_STATUS_RX_UP 2, 1), (F.ETH_PORT_CTL_ARP_EN 2, 1), (F.ETH_PORT_CTL_ND_EN 2, 1), (F.ETH_PORT_CTL_ICMP_EN 2, 1), (F.ETH_PORT_CTL_IGMP_EN 2, 1), (⟨R.ETH_PORT_IPV4 2, 31, 0⟩, 0xC0A80001)]) with eth := [(2, { echoCnt := 1 })], egs := { State.reset.egs with ports := [(2, { busy := 10 ^ 15 })] } }, 2, 64, 0, 0xFFFFFFFFFFFF, by decide +kernel⟩,
   ⟨{ merAt 500 (mk [(F.ETH_PORT_STATUS_RX_UP 2, 1), (F.ETH_PORT_CTL_ARP_EN 2, 1), (F.ETH_PORT_CTL_ND_EN 2, 1), (F.ETH_PORT_CTL_ICMP_EN 2, 1), (F.ETH_PORT_CTL_IGMP_EN 2, 1), (⟨R.ETH_PORT_IPV4 2, 31, 0⟩, 0xC0A80001)]) with eth := [(2, { echoCnt := 1 })], egs := { State.reset.egs with ports := [(2, { busy := 10 ^ 15 })] } }, 2, 3, 0xC0A80001, 9, by decide +kernel⟩,
   ⟨{ merAt 500 (mk [(F.ETH_PORT_STATUS_RX_UP 2, 1), (F.ETH_PORT_CTL_ARP_EN 2, 1), (F.ETH_PORT_CTL_ND_EN 2, 1), (F.ETH_PORT_CTL_ICMP_EN 2, 1), (F.ETH_PORT_CTL_IGMP_EN 2, 1), (⟨R.ETH_PORT_IPV4 2, 31, 0⟩, 0xC0A80001), (⟨R.ETH_PORT_IPV6_LL 2 0, 31, 0⟩, 99)]) with eth := [(2, { echoCnt := 1 })], egs := { State.reset.egs with ports := [(2, { busy := 10 ^ 15 })] } }, 2, 0, 99, 9, by decide +kernel⟩,
   ⟨{ merAt 500 (mk [(F.ETH_PORT_STATUS_RX_UP 2, 1), (F.ETH_PORT_CTL_ARP_EN 2, 1), (F.ETH_PORT_CTL_ND_EN 2, 1), (F.ETH_PORT_CTL_ICMP_EN 2, 1), (F.ETH_PORT_CTL_IGMP_EN 2, 1), (⟨R.ETH_PORT_IPV4 2, 31, 0⟩, 0xC0A80001)]) with eth := [(2, { echoCnt := 1 })], egs := { State.reset.egs with ports := [(2, { busy := 10 ^ 15 })] } }, 2, 0, 0xC0A80001, 9, 84, by decide +kernel⟩,
   ⟨{ merAt 500 (mk [(F.ETH_PORT_STATUS_RX_UP 2, 1), (F.ETH_PORT_CTL_ARP_EN 2, 1), (F.ETH_PORT_CTL_ND_EN 2, 1), (F.ETH_PORT_CTL_ICMP_EN 2, 1), (F.ETH_PORT_CTL_IGMP_EN 2, 1), (⟨R.ETH_PORT_IPV4 2, 31, 0⟩, 0xC0A80001), (⟨R.ETH_PORT_IPV6_LL 2 0, 31, 0⟩, 99)]) with eth := [(2, { echoCnt := 1 })], egs := { State.reset.egs with ports := [(2, { busy := 10 ^ 15 })] } }, 2, 0, 99, 9, 84, by decide +kernel⟩,
   ⟨{ merAt 500 (mk [(F.ETH_PORT_STATUS_RX_UP 2, 1), (F.ETH_PORT_CTL_ARP_EN 2, 1), (F.ETH_PORT_CTL_ND_EN 2, 1), (F.ETH_PORT_CTL_ICMP_EN 2, 1), (F.ETH_PORT_CTL_IGMP_EN 2, 1), (⟨R.ETH_PORT_IPV4 2, 31, 0⟩, 0xC0A80001)]) with eth := [(2, { echoCnt := 1 })], egs := { State.reset.egs with ports := [(2, { busy := 10 ^ 15 })] } }, 2, true, true, by decide +kernel⟩⟩

theorem witness_MulticastCommandsComplete :
    (∃ (s : State) (p v x y : Nat) (w : Bool) (d : Option Nat) (g : Group) (gs : List Group), (p < 8) ∧ (s.rxUp p = true) ∧ (s.mcastOn p w = true) ∧ (s.groupsOf p = (s.eth_ p).groups) ∧ ((s.eth_ p).groups.filter (fun h => h.vlan == v && h.ipv6 == w && (match d with | some a => h.addr == a | none => true)) = g :: gs)) ∧
    (∃ (s : State) (p v x y : Nat) (d : Option Nat), (p < 8) ∧ (s.rxUp p = true) ∧ (s.mcastOn p false = true) ∧ (s.groupsOf p = (s.eth_ p).groups) ∧ ((s.eth_ p).groups = [])) ∧
    (∃ (s : State) (p a : Nat) (g : Group), (p < 8) ∧ ((s.eth_ p).resps = [(a, [g])]) ∧ (s.mcastOn p g.ipv6 = true) ∧ ((s.groupsOf p).any (fun h => h.vlan == g.vlan && h.ipv6 == g.ipv6 && h.addr == g.addr) = true) ∧ (max s.clk.ns a + 4 ≤ (s.eport p).busy) ∧ ((s.eth_ p).old4 = none) ∧ ((s.eth_ p).old6 = none)) ∧
    (∃ (s : State) (p : Nat) (g : Group), (p < 8) ∧ (0 < (s.eth_ p).reports) ∧ ((s.eth_ p).groups = [g]) ∧ (s.mcastOn p g.ipv6 = true) ∧ (max s.clk.ns (s.eth_ p).reportAt + 4 ≤ (s.eport p).busy) ∧ ((s.eth_ p).old4 = none) ∧ ((s.eth_ p).old6 = none)) ∧
    (∃ (s : State) (p a : Nat), (p < 8) ∧ ((s.eth_ p).old4 = some a) ∧ ((s.eth_ p).old6 = none) ∧ (s.portJoins p = []) ∧ ((s.eth_ p).groups = [])) :=
  ⟨⟨{ { merAt 500 (mk [(F.ETH_PORT_STATUS_RX_UP 2, 1), (F.ETH_PORT_CTL_ARP_EN 2, 1), (F.ETH_PORT_CTL_ND_EN 2, 1), (F.ETH_PORT_CTL_ICMP_EN 2, 1), (F.ETH_PORT_CTL_IGMP_EN 2, 1), (⟨R.ETH_PORT_IPV4 2, 31, 0⟩, 0xC0A80001)]) with eth := [(2, { groups := [{ vlan := 3, ipv6 := false, addr := 0x050000EF, sources := none }] })], egs := { State.reset.egs with ports := [(2, { busy := 10 ^ 15 })] } } with ing := { State.reset.ing with ft := [(0, 0x3023), (2, 0x050000EF)] } }, 2, 3, 100, 0, false, none, { vlan := 3, ipv6 := false, addr := 0x050000EF, sources := none }, [], by decide +kernel⟩,
   ⟨{ merAt 500 (mk [(F.ETH_PORT_STATUS_RX_UP 2, 1), (F.ETH_PORT_CTL_ARP_EN 2, 1), (F.ETH_PORT_CTL_ND_EN 2, 1), (F.ETH_PORT_CTL_ICMP_EN 2, 1), (F.ETH_PORT_CTL_IGMP_EN 2, 1), (⟨R.ETH_PORT_IPV4 2, 31, 0⟩, 0xC0A80001)]) with eth := [(2, { echoCnt := 1 })], egs := { State.reset.egs with ports := [(2, { busy := 10 ^ 15 })] } }, 2, 3, 100, 7, none, by decide +kernel⟩,
   ⟨{ { merAt 500 (mk [(F.ETH_PORT_STATUS_RX_UP 2, 1), (F.ETH_PORT_CTL_ARP_EN 2, 1), (F.ETH_PORT_CTL_ND_EN 2, 1), (F.ETH_PORT_CTL_ICMP_EN 2, 1), (F.ETH_PORT_CTL_IGMP_EN 2, 1), (⟨R.ETH_PORT_IPV4 2, 31, 0⟩, 0xC0A80001)]) with eth := [(2, { groups := [{ vlan := 3, ipv6 := false, addr := 0x050000EF, sources := none }], resps := [(900, [{ vlan := 3, ipv6 := false, addr := 0x050000EF, sources := none }])] })], egs := { State.reset.egs with ports := [(2, { busy := 10 ^ 15 })] } } with ing := { State.reset.ing with ft := [(0, 0x3023), (2, 0x050000EF)] } }, 2, 900, { vlan := 3, ipv6 := false, addr := 0x050000EF, sources := none }, by decide +kernel⟩,
   ⟨{ { merAt 500 (mk [(F.ETH_PORT_STATUS_RX_UP 2, 1), (F.ETH_PORT_CTL_ARP_EN 2, 1), (F.ETH_PORT_CTL_ND_EN 2, 1), (F.ETH_PORT_CTL_ICMP_EN 2, 1), (F.ETH_PORT_CTL_IGMP_EN 2, 1), (⟨R.ETH_PORT_IPV4 2, 31, 0⟩, 0xC0A80001)]) with eth := [(2, { groups := [{ vlan := 3, ipv6 := false, addr := 0x050000EF, sources := none }], reports := 2, reportAt := 900 })], egs := { State.reset.egs with ports := [(2, { busy := 10 ^ 15 })] } } with ing := { State.reset.ing with ft := [(0, 0x3023), (2, 0x050000EF)] } }, 2, { vlan := 3, ipv6 := false, addr := 0x050000EF, sources := none }, by decide +kernel⟩,
   ⟨{ merAt 500 (mk [(F.ETH_PORT_STATUS_RX_UP 2, 1), (F.ETH_PORT_CTL_ARP_EN 2, 1), (F.ETH_PORT_CTL_ND_EN 2, 1), (F.ETH_PORT_CTL_ICMP_EN 2, 1), (F.ETH_PORT_CTL_IGMP_EN 2, 1), (⟨R.ETH_PORT_IPV4 2, 31, 0⟩, 0xC0A80001)]) with eth := [(2, { old4 := some 900 })], egs := { State.reset.egs with ports := [(2, { busy := 10 ^ 15 })] } }, 2, 900, by decide +kernel⟩⟩

theorem witness_AudioInputCommandsComplete :
    (∃ (s : State) , (s.dark = false) ∧ (s.on F.AUD_CTL_EN = false) ∧ (s.f F.AUD_CTL_FS ≤ 5) ∧ (s.audFreqOk = true) ∧ ((s.setF F.AUD_CTL_EN 1).audFits = true) ∧ (s.demandOf fnAud = (0, 0)) ∧ (s.fn fnAud = .off)) ∧
    (∃ (s : State) (o e i f : Int), (s.NoMon) ∧ (s.active fnAud = true) ∧ (s.f F.AUD_CLK_MODE = 1) ∧ (e = o - (s.f F.AUD_CLK_TARGET : Int) * 256) ∧ (i = clampI (-64000000) 64000000 (s.aud.i + sar (e * 256) (s.f F.AUD_CLK_KI))) ∧ (f = clampI (-64000000) 64000000 (i + sar (e * 256) (s.f F.AUD_CLK_KP))) ∧ (s.aud.okRun < 15) ∧ (s.aud.badRun < 15)) ∧
    (∃ (s : State) (i m q : Nat) (e : Int) (d : List AesFrame) (u v : List Nat), (i < 8) ∧ (s.on (F.AUD_AIN_CTL_EN i) = true) ∧ (s.active fnAud = true) ∧ (e.natAbs ≤ 1000) ∧ (s.on (F.AUD_AIN_STATUS_LOCK i) = true) ∧ (s.on (F.AUD_AIN_CTL_CRC_CHK i) = false) ∧ (s.followed i = true) ∧ ((s.ain i).next = some q) ∧ (d.length = 192) ∧ (d.all (fun x => !x.pa && !x.pb) = true) ∧ (192 ≤ s.audDepth)) ∧
    (∃ (s : State) (n m q k : Nat) (d : List (List Nat)), (n < 4) ∧ (s.on (F.AUD_TDM_CTL_RX_EN n) = true) ∧ (s.active fnAud = true) ∧ (s.on (F.AUD_TDM_CTL_MASTER n) = true) ∧ (s.followed (8 + n) = true) ∧ ((s.ain (8 + n)).next = some q) ∧ (k < s.f (F.AUD_TDM_CTL_SLOTS n)) ∧ (s.f (F.AUD_TDM_CTL_SLOTS n) ≤ 16) ∧ (s.srcSilent (16 + 16 * n + k) = false) ∧ (d.length ≤ s.audDepth)) ∧
    (∃ (s : State) (n : Nat), (n < 4) ∧ (s.on (F.AUD_TDM_CTL_MASTER n) = false) ∧ (s.on (F.AUD_TDM_STATUS_FS_LOCK n) = true)) ∧
    (∃ (s : State) (i : Nat), (i < 8) ∧ (s.on (F.AUD_AIN_STATUS_LOCK i) = true)) :=
  ⟨⟨mk [(⟨R.CKG_CPLL_FREQ 10, 31, 0⟩, 24576000), (F.AUD_AIN_CTL_EN 2, 1), (F.HBM_S_POOL_SIZE 0, 100)], by decide +kernel⟩,
   ⟨withFns [(fnAud, .ready)] { merAt 500 (mk [(F.AUD_CTL_EN, 1), (F.AUD_CLK_MODE, 1)]) with aud := { State.reset.aud with evalAt := 192 } }, 8000, (8000 - ((withFns [(fnAud, .ready)] { merAt 500 (mk [(F.AUD_CTL_EN, 1), (F.AUD_CLK_MODE, 1)]) with aud := { State.reset.aud with evalAt := 192 } }).f F.AUD_CLK_TARGET : Int) * 256), (clampI (-64000000) 64000000 ((withFns [(fnAud, .ready)] { merAt 500 (mk [(F.AUD_CTL_EN, 1), (F.AUD_CLK_MODE, 1)]) with aud := { State.reset.aud with evalAt := 192 } }).aud.i + sar ((8000 - ((withFns [(fnAud, .ready)] { merAt 500 (mk [(F.AUD_CTL_EN, 1), (F.AUD_CLK_MODE, 1)]) with aud := { State.reset.aud with evalAt := 192 } }).f F.AUD_CLK_TARGET : Int) * 256) * 256) ((withFns [(fnAud, .ready)] { merAt 500 (mk [(F.AUD_CTL_EN, 1), (F.AUD_CLK_MODE, 1)]) with aud := { State.reset.aud with evalAt := 192 } }).f F.AUD_CLK_KI))), (clampI (-64000000) 64000000 ((clampI (-64000000) 64000000 ((withFns [(fnAud, .ready)] { merAt 500 (mk [(F.AUD_CTL_EN, 1), (F.AUD_CLK_MODE, 1)]) with aud := { State.reset.aud with evalAt := 192 } }).aud.i + sar ((8000 - ((withFns [(fnAud, .ready)] { merAt 500 (mk [(F.AUD_CTL_EN, 1), (F.AUD_CLK_MODE, 1)]) with aud := { State.reset.aud with evalAt := 192 } }).f F.AUD_CLK_TARGET : Int) * 256) * 256) ((withFns [(fnAud, .ready)] { merAt 500 (mk [(F.AUD_CTL_EN, 1), (F.AUD_CLK_MODE, 1)]) with aud := { State.reset.aud with evalAt := 192 } }).f F.AUD_CLK_KI))) + sar ((8000 - ((withFns [(fnAud, .ready)] { merAt 500 (mk [(F.AUD_CTL_EN, 1), (F.AUD_CLK_MODE, 1)]) with aud := { State.reset.aud with evalAt := 192 } }).f F.AUD_CLK_TARGET : Int) * 256) * 256) ((withFns [(fnAud, .ready)] { merAt 500 (mk [(F.AUD_CTL_EN, 1), (F.AUD_CLK_MODE, 1)]) with aud := { State.reset.aud with evalAt := 192 } }).f F.AUD_CLK_KP))), noMon_of_regs (by decide), by decide +kernel⟩,
   ⟨{ withFns [(fnAud, .ready)] { merAt 500 (mk [(F.AUD_CTL_EN, 1), (F.AUD_CLK_MODE, 1), (F.AUD_CLK_SRC, 2), (F.AUD_AIN_CTL_EN 2, 1), (F.AUD_AIN_STATUS_LOCK 2, 1)]) with aud := { State.reset.aud with evalAt := 192, ins := [(2, { next := some 4000 })] } } with clk := { State.reset.clk with stc := 5000000000 } }, 2, 4990000000, 4000, 3, (List.replicate 192 { a := 5, b := 9, va := false, vb := true, pa := false, pb := false }), [1, 2], [4], by decide +kernel⟩,
   ⟨withFns [(fnAud, .ready)] { merAt 500 (mk [(F.AUD_CTL_EN, 1), (F.AUD_CLK_MODE, 2), (F.AUD_CLK_SRC, 3), (F.AUD_TDM_CTL_RX_EN 3, 1), (F.AUD_TDM_CTL_MASTER 3, 1), (F.AUD_TDM_CTL_SLOTS 3, 16), (⟨R.AUD_TDM_MASK 3, 31, 0⟩, 0xFFFFFFFF)]) with aud := { State.reset.aud with evalAt := 192, ins := [(11, { next := some 4000 })] } }, 3, 0, 4000, 5, [[1, 2, 3, 4, 5, 6], [0, 0, 0, 0, 0, 9]], by decide +kernel⟩,
   ⟨withFns [(fnAud, .ready)] { merAt 500 (mk [(F.AUD_CTL_EN, 1), (F.AUD_TDM_CTL_RX_EN 3, 1), (F.AUD_TDM_STATUS_FS_LOCK 3, 1)]) with aud := { State.reset.aud with evalAt := 192, ins := [(11, { next := some 4000 })] } }, 3, by decide +kernel⟩,
   ⟨withFns [(fnAud, .ready)] { merAt 500 (mk [(F.AUD_CTL_EN, 1), (F.AUD_AIN_STATUS_LOCK 5, 1)]) with aud := { State.reset.aud with evalAt := 192, ins := [(5, { next := some 4000 })] } }, 5, by decide +kernel⟩⟩

theorem witness_AudioOutputCommandsComplete :
    (∃ (s : State) (u : Nat) (o : AoutSt), (u < 8) ∧ (s.aout u = o) ∧ (o.st = .ready) ∧ (s.ready fnAud = true) ∧ (o.blks = []) ∧ (o.shift = 0) ∧ (o.shiftNext = none) ∧ (s.held = []) ∧ (s.outNovid u = true) ∧ (s.outDly u = o.d) ∧ (0 ≤ o.d) ∧ (o.next % 192 = 0)) ∧
    (∃ (s : State) (u : Nat), (s.dark = false) ∧ (u < 8) ∧ (s.on (F.AUD_AOUT_CTL_EN u) = false) ∧ ((s.aout u).st = .off) ∧ (srcOk (s.f (F.AUD_AOUT_CTL_SRC_A u)) = true) ∧ (srcOk (s.f (F.AUD_AOUT_CTL_SRC_B u)) = true) ∧ ((s.setF (F.AUD_AOUT_CTL_EN u) 1).outEnableOk u = true) ∧ (s.ready fnAud = true)) ∧
    (∃ (s : State) (u : Nat), (s.dark = false) ∧ (u < 8) ∧ (s.on (F.AUD_AOUT_CTL_EN u) = true) ∧ ((s.aout u).st = .ready) ∧ (srcOk (s.f (F.AUD_AOUT_CTL_SRC_A u)) = true) ∧ (srcOk (s.f (F.AUD_AOUT_CTL_SRC_B u)) = true)) ∧
    (∃ (s : State) (u x : Nat), (u < 8) ∧ ((s.aout u).stopX = some x) ∧ ((s.aout u).st = .draining) ∧ ((s.aout u).blks = []) ∧ (s.held = [])) :=
  ⟨⟨withFns [(fnAud, .ready)] { merAt 500 (mk [(F.AUD_CTL_EN, 1), (F.AUD_AOUT_CTL_EN 5, 1), (F.AUD_AOUT_CTL_NOVID 5, 1), (F.AUD_AOUT_TRIM_TRIM 5, 20)]) with aud := { State.reset.aud with evalAt := 192, outs := [(5, { st := .ready, next := 384, d := 20, firstX := 404 })] } }, 5, { st := .ready, next := 384, d := 20, firstX := 404 }, by decide +kernel⟩,
   ⟨withFns [(fnAud, .ready)] { merAt 500 (mk [(F.AUD_CTL_EN, 1), (F.GLB_FEAT_CTL_LOCKED, 1), (⟨R.GLB_FEAT_ACCEPT 0, 11, 11⟩, 1), (F.AUD_AOUT_CTL_NOVID 5, 1), (F.AUD_AOUT_TRIM_TRIM 5, 20), (F.AUD_AOUT_CTL_SRC_A 5, 511)]) with aud := { State.reset.aud with evalAt := 192 } }, 5, by decide +kernel⟩,
   ⟨withFns [(fnAud, .ready)] { merAt 500 (mk [(F.AUD_CTL_EN, 1), (F.AUD_AOUT_CTL_EN 5, 1), (F.AUD_AOUT_CTL_NOVID 5, 1)]) with aud := { State.reset.aud with evalAt := 192, outs := [(5, { st := .ready, next := 384, d := 20, firstX := 404 })] } }, 5, by decide +kernel⟩,
   ⟨withFns [(fnAud, .ready)] { merAt 500 (mk [(F.AUD_CTL_EN, 1), (F.AUD_AOUT_STATUS_RUN 5, 1)]) with aud := { State.reset.aud with evalAt := 192, outs := [(5, { st := .draining, stopX := some 400 })] } }, 5, 400, by decide +kernel⟩⟩

theorem witness_AudioStreamCommandsComplete :
    (∃ (s : State) (n : Nat), (s.dark = false) ∧ (n < 4) ∧ (s.on (F.AUD_TDM_STATUS_PENDING n) = false)) ∧
    (∃ (s : State) (n c : Nat), (n < 4) ∧ (Tab.get (fun _ => none) s.aud.commits n = some c) ∧ (s.on (F.AUD_TDM_CTL_MASTER n) = false) ∧ (c < s.mediaTime)) ∧
    (∃ (s : State) (r f : Nat), (s.dark = false) ∧ (r < 64) ∧ (s.f (F.AUD_TXS_FLOW_FLOW r) = f) ∧ (s.on (F.AUD_TXS_CTL_EN r) = false) ∧ (efEn (s.egWords f) = false) ∧ (egsFits (fun i => if i = 0 then setBits (s.rdn (R.EGS_FT_DATA 0)) 3 1 4 / 2 * 2 else s.rdn (R.EGS_FT_DATA i)) = true) ∧ (s.egsRanges f (fun i => if i = 0 then setBits (s.rdn (R.EGS_FT_DATA 0)) 3 1 4 / 2 * 2 else s.rdn (R.EGS_FT_DATA i)) = true)) ∧
    (∃ (s : State) (r f p : Nat) (b : AudBlk), (r < 64) ∧ ((s.aout (16 + r)).blks = [b]) ∧ (s.ready fnAud = true) ∧ (s.f (F.AUD_TXS_FLOW_FLOW r) = f) ∧ (efLegs (s.egWords f) = [(0, p)]) ∧ (s.ready (fnEgs p) = true) ∧ ((s.outFrames (s.aout (16 + r)) b).2 = 0) ∧ ((s.eport p).due = []) ∧ (10 ^ 17 ≤ (s.eport p).busy) ∧ (s.clk.ns + 4 * ceilDiv (s.timeOf b.x1 - s.mediaTime) 4 < 10 ^ 17) ∧ (0 ≤ b.d)) :=
  ⟨⟨withFns [(fnAud, .ready)] { merAt 500 (mk [(F.AUD_CTL_EN, 1)]) with aud := { State.reset.aud with evalAt := 192 } }, 3, by decide +kernel⟩,
   ⟨(let x := withFns [(fnAud, .ready)] { merAt 500 (mk [(F.AUD_CTL_EN, 1), (F.AUD_TDM_STATUS_PENDING 3, 1), (⟨R.AUD_TDM_MASK_PEND 3, 31, 0⟩, 0x00FF000F)]) with aud := { State.reset.aud with evalAt := 192, commits := [(3, some 80)] } }; { x with clk := { x.clk with stc := 90 } }), 3, 80, by decide +kernel⟩,
   ⟨withFns [(fnAud, .ready)] { merAt 500 (mk [(F.AUD_CTL_EN, 1), (⟨R.AUD_TXS_FLOW 9, 31, 0⟩, 70), (⟨R.EGS_FT_DATA 0, 31, 0⟩, 0x60000051), (⟨R.EGS_FT_DATA 3, 31, 0⟩, 77), (⟨R.EGS_FT_DATA 6, 31, 0⟩, 0x4000000 + 2000)]) with aud := { State.reset.aud with evalAt := 192 } }, 9, 70, by decide +kernel⟩,
   ⟨withFns [(fnAud, .ready), (fnEgs 2, .ready)] { merAt 500 (mk [(F.AUD_CTL_EN, 1), (⟨R.AUD_TXS_FLOW 9, 31, 0⟩, 70), (F.AUD_TXS_CTL_CHANS 9, 1)]) with aud := { State.reset.aud with evalAt := 192, outs := [(25, { st := .ready, next := 480, d := 20, blks := [{ x0 := 400, x1 := 448, d := 20, srcs := [511], cs := [], csSrc := false, crcGen := false, masks := [(0, 0)] }] })] }, egs := { State.reset.egs with ft := [(2240, 0x60000409)], ports := [(2, { busy := 10 ^ 18 })] } }, 9, 70, 2, { x0 := 400, x1 := 448, d := 20, srcs := [511], cs := [], csSrc := false, crcGen := false, masks := [(0, 0)] }, by decide +kernel⟩⟩

theorem witness_SightingCommandsComplete :
    (∃ (s : State) (k i : Nat), (s.dark = false) ∧ (k = 0 ∨ k = 3) ∧ (sightOk k i = true) ∧ (s.sight k i = none)) ∧
    (∃ (s : State) (k i : Nat) (x a : Int), (k = 0 ∨ k = 3) ∧ (sightOk k i = true) ∧ (s.sight k i = none) ∧ (Tab.get (fun _ => (none : Option Int)) s.cal.temps (256 * k + i) = some a) ∧ (s.f F.CAL_TRIG_TEMP_DELTA < (x - a).natAbs)) ∧
    (∃ (s : State) (g : Nat) (q : Clock), (s.active fnCal = true) ∧ (s.on F.CAL_STATUS_WINDOW = false) ∧ (s.begin.toPhase 6 (s.f F.CAL_WIN_START * 65536) = some { s.begin with clk := q }) ∧ (g < 128) ∧ (s.cal.sights = [(256 + g, some {})]) ∧ (s.ready (fnHbm (g / 32)) = true)) ∧
    (∃ (s : State) (v : Nat) (q : Clock), (s.cal.winAt = some v) ∧ (s.begin.toPos 6 (v + s.f F.CAL_WIN_LEN * 65536) = some { s.begin with clk := q })) ∧
    (∃ (s : State) (i : Nat) (a b : List Int) (x : Int) (y : Sight), (i < 72) ∧ (s.sight 3 i = some y) ∧ (y.goal = []) ∧ (y.start = false) ∧ (a.length = 1) ∧ (b.length = 1) ∧ (a ≠ s.sightCodes 3 i) ∧ (s.sightPasses 3 i false a b [] = true) ∧ (s.on F.CAL_STATUS_WINDOW = false)) ∧
    (∃ (s : State) (i : Nat) (a g : Int) (y : Sight), (i < 72) ∧ (s.sight 3 i = some y) ∧ (y.goal = [g]) ∧ (y.again = false) ∧ (s.sightCodes 3 i = [a]) ∧ (a ≠ g) ∧ (-128 ≤ g ∧ g < 128)) ∧
    (∃ (s : State) (m : Nat), (s.active fnCal = true) ∧ (6 ≤ m) ∧ (m ≤ 10) ∧ (m ≠ 9) ∧ (s.cal.sights = [(512 + m, some {})]) ∧ (s.cal.parked = []) ∧ (s.relockOk m = true)) :=
  ⟨⟨withFns [(fnCal, .ready)] { merAt 500 (mk [(F.CAL_CTL_EN, 1)]) with cal := { State.reset.cal with parked := [] } }, 3, 70, by decide +kernel⟩,
   ⟨withFns [(fnCal, .ready)] { merAt 500 (mk [(F.CAL_CTL_EN, 1)]) with cal := { State.reset.cal with parked := [], temps := [(838, some 40)] } }, 3, 70, 49, 40, by decide +kernel⟩,
   ⟨withFns [(fnCal, .ready), (fnHbm 2, .ready)] { merAt 500 (mk [(F.CAL_CTL_EN, 1)]) with cal := { State.reset.cal with parked := [], sights := [(256 + 70, some {})] } }, 70, phaseClk (withFns [(fnCal, .ready), (fnHbm 2, .ready)] { merAt 500 (mk [(F.CAL_CTL_EN, 1)]) with cal := { State.reset.cal with parked := [], sights := [(256 + 70, some {})] } }).begin 6 ((withFns [(fnCal, .ready), (fnHbm 2, .ready)] { merAt 500 (mk [(F.CAL_CTL_EN, 1)]) with cal := { State.reset.cal with parked := [], sights := [(256 + 70, some {})] } }).f F.CAL_WIN_START * 65536), by decide +kernel⟩,
   ⟨withFns [(fnCal, .ready)] { merAt 500 (mk [(F.CAL_CTL_EN, 1), (F.CAL_STATUS_WINDOW, 1)]) with cal := { State.reset.cal with parked := [], winAt := some 400 } }, 400, posClk (withFns [(fnCal, .ready)] { merAt 500 (mk [(F.CAL_CTL_EN, 1), (F.CAL_STATUS_WINDOW, 1)]) with cal := { State.reset.cal with parked := [], winAt := some 400 } }).begin 6 (400 + (withFns [(fnCal, .ready)] { merAt 500 (mk [(F.CAL_CTL_EN, 1), (F.CAL_STATUS_WINDOW, 1)]) with cal := { State.reset.cal with parked := [], winAt := some 400 } }).f F.CAL_WIN_LEN * 65536), by decide +kernel⟩,
   ⟨withFns [(fnCal, .ready)] { merAt 500 (mk [(F.CAL_CTL_EN, 1)]) with cal := { State.reset.cal with parked := [], sights := [(838, some {})] } }, 70, [2], [2], 45, {}, by decide +kernel⟩,
   ⟨withFns [(fnCal, .ready)] { merAt 500 (mk [(F.CAL_CTL_EN, 1)]) with cal := { State.reset.cal with parked := [], sights := [(838, some { goal := [5], stepNs := 900 })] } }, 70, 0, 5, { goal := [5], stepNs := 900 }, by decide +kernel⟩,
   ⟨withFns [(fnCal, .ready)] { merAt 500 (mk [(F.CAL_CTL_EN, 1)]) with cal := { State.reset.cal with parked := [], sights := [(519, some {})] } }, 7, by decide +kernel⟩⟩

theorem witness_AdaptiveLoopCommandsComplete :
    (∃ (s : State) (q m v : Nat) (e : Int), (q < 4) ∧ (s.avsOn = true) ∧ (e = (m : Int) - s.f (F.CAL_AVS_CTL_TARGET q)) ∧ (v = s.volt q) ∧ (Tab.get (fun _ => 0) s.cal.vmaxRun q < 999)) ∧
    (∃ (s : State) (q : Clock), (s.fsOn = true) ∧ (s.begin.toPhase 6 0 = some { s.begin with clk := q }) ∧ (s.liveChans = []) ∧ ((List.range 4).all (fun j => decide (4 ≤ s.f (F.CAL_FS_CTL_D_MAX j))) = true)) :=
  ⟨⟨withFns [(fnCal, .ready)] { merAt 500 (mk [(F.CAL_CTL_EN, 1), (F.CAL_AVS_CTL_TARGET 2, 20)]) with cal := { State.reset.cal with parked := [], avsAt := [(2, 800)] } }, 2, 33, 1700, 13, by decide +kernel⟩,
   ⟨withFns [(fnCal, .ready)] { merAt 500 (mk [(F.CAL_CTL_EN, 1), (F.CAL_FS_CTL_D_MAX 2, 7), (F.CAL_CTL_FS_EN, 1), (F.CAL_FS_STATUS_D 1, 8)]) with cal := { State.reset.cal with parked := [] } }, phaseClk (withFns [(fnCal, .ready)] { merAt 500 (mk [(F.CAL_CTL_EN, 1), (F.CAL_FS_CTL_D_MAX 2, 7), (F.CAL_CTL_FS_EN, 1), (F.CAL_FS_STATUS_D 1, 8)]) with cal := { State.reset.cal with parked := [] } }).begin 6 0, by decide +kernel⟩⟩

theorem witness_CoreResetCommandsComplete :
    (∃ (s : State) , (s.on F.BIN_STATUS_SHUTDOWN = false) ∧ (s.cfg.reset = none) ∧ (s.isl.queue.length < 8)) ∧
    (∃ (s : State) , True) ∧
    (∃ (s : State) , (s.dark = false) ∧ (s.cfg.reset = none) ∧ (s.isl.queue.length < 8) ∧ (s.anyStack = false)) ∧
    (∃ (s : State) , (s.dark = false) ∧ (s.cfg.reset = none) ∧ (s.isl.queue.length < 8)) ∧
    (∃ (s : State) (f : Nat), (s.dark = false) ∧ (28 ≤ f) ∧ (f < 36) ∧ (s.cfg.reset = none) ∧ (s.held = []) ∧ (s.wpend = []) ∧ (s.latch = [])) :=
  ⟨⟨withFns [(fnMer, .ready), (fnDis, .ready)] { merAt 500 (mk [(F.MER_CTL_EN, 1), (F.BIN_STATUS_HELM_OUT, 1), (F.GLB_FEAT_CTL_LOCKED, 1), (F.BIN_THERM_WARN, 80)]) with souv := [(4, 9)], keys := [(1, [7, 8])], hbm := { State.reset.hbm with mem := [(77, 5)] } }, by decide +kernel⟩,
   ⟨{ withFns [(fnMer, .ready), (fnDis, .ready)] { merAt 500 (mk [(F.MER_CTL_EN, 1), (F.BIN_STATUS_HELM_OUT, 1), (F.GLB_FEAT_CTL_LOCKED, 1), (F.BIN_THERM_WARN, 80)]) with souv := [(4, 9)], keys := [(1, [7, 8])], hbm := { State.reset.hbm with mem := [(77, 5)] } } with sx := { State.reset.sx with pcieWin := 5, msix := [(3, some 90)] } }, trivial⟩,
   ⟨withFns [(fnMer, .ready), (fnDis, .ready)] { merAt 500 (mk [(F.MER_CTL_EN, 1), (F.BIN_STATUS_HELM_OUT, 1), (F.GLB_FEAT_CTL_LOCKED, 1), (F.BIN_THERM_WARN, 80)]) with souv := [(4, 9)], keys := [(1, [7, 8])], hbm := { State.reset.hbm with mem := [(77, 5)] } }, by decide +kernel⟩,
   ⟨withFns [(fnMer, .ready), (fnDis, .ready)] { merAt 500 (mk [(F.MER_CTL_EN, 1), (F.BIN_STATUS_HELM_OUT, 1), (F.GLB_FEAT_CTL_LOCKED, 1), (F.BIN_THERM_WARN, 80)]) with souv := [(4, 9)], keys := [(1, [7, 8])], hbm := { State.reset.hbm with mem := [(77, 5)] } }, by decide +kernel⟩,
   ⟨withFns [(fnMer, .ready), (fnDis, .ready), (30, .ready)] { merAt 500 (mk [(F.MER_CTL_EN, 1), (F.BIN_STATUS_HELM_OUT, 1), (F.GLB_FEAT_CTL_LOCKED, 1), (F.BIN_THERM_WARN, 80), (⟨R.ING_PORT_OVH 2, 31, 0⟩, 9)]) with souv := [(4, 9)], keys := [(1, [7, 8])], hbm := { State.reset.hbm with mem := [(77, 5)] } }, 30, by decide +kernel⟩⟩

theorem witness_SupplyResetCommandsComplete :
    (∃ (s : State) , True) ∧
    (∃ (s : State) (x n : Nat), (s.cfg.reset = some { kind := 2, source := x, since := n }) ∧ (s.warmWaits = true) ∧ (x < 16)) ∧
    (∃ (s : State) (x n : Nat), (s.cfg.reset = some { kind := 2, source := x, since := n }) ∧ (s.warmWaits = true) ∧ (x < 16)) ∧
    (∃ (s : State) (x : Nat), (s.isl.vinLow = some x) ∧ (s.on F.BIN_STATUS_VSTBY = false)) :=
  ⟨⟨withFns [(fnMer, .ready), (fnDis, .ready)] { merAt 500 (mk [(F.MER_CTL_EN, 1), (F.BIN_STATUS_HELM_OUT, 1), (F.GLB_FEAT_CTL_LOCKED, 1), (F.BIN_THERM_WARN, 80)]) with souv := [(4, 9)], keys := [(1, [7, 8])], hbm := { State.reset.hbm with mem := [(77, 5)] } }, trivial⟩,
   ⟨withFns [(fnMer, .ready), (fnDis, .ready)] { merAt 500 (mk [(F.MER_CTL_EN, 1), (F.BIN_STATUS_HELM_OUT, 1), (F.GLB_FEAT_CTL_LOCKED, 1), (F.BIN_THERM_WARN, 80)]) with souv := [(4, 9)], keys := [(1, [7, 8])], hbm := { State.reset.hbm with mem := [(77, 5)] }, cfg := { State.reset.cfg with stage := 2, reset := some { kind := 2, source := 6, since := 800 } } }, 6, 800, by decide +kernel⟩,
   ⟨withFns [(fnMer, .ready), (fnDis, .ready)] { merAt 500 (mk [(F.MER_CTL_EN, 1), (F.BIN_STATUS_HELM_OUT, 1), (F.GLB_FEAT_CTL_LOCKED, 1), (F.BIN_THERM_WARN, 80)]) with souv := [(4, 9)], keys := [(1, [7, 8])], hbm := { State.reset.hbm with mem := [(77, 5)] }, cfg := { State.reset.cfg with stage := 2, reset := some { kind := 2, source := 6, since := 800 } } }, 6, 800, by decide +kernel⟩,
   ⟨withFns [(fnMer, .ready), (fnDis, .ready)] { merAt 500 (mk [(F.MER_CTL_EN, 1), (F.BIN_STATUS_HELM_OUT, 1), (F.GLB_FEAT_CTL_LOCKED, 1), (F.BIN_THERM_WARN, 80)]) with souv := [(4, 9)], keys := [(1, [7, 8])], hbm := { State.reset.hbm with mem := [(77, 5)] }, isl := { State.reset.isl with vinLow := some 40 } }, 40, by decide +kernel⟩⟩

theorem witness_StartCommandsComplete :
    (∃ (s : State) , (s.dark = false)) ∧
    (∃ (s : State) (a b e : Option FwHdr) (m c o : Bool) (k : Nat), (s.loaderMay = true) ∧ (s.cfg.reset = none) ∧ (s.updState = 0) ∧ (s.trial ≠ 1) ∧ (s.dirCopy = some k) ∧ (s.fn fnCfg = .off)) ∧
    (∃ (s : State) (l : List Nat) (h : FwHdr) (b g : Bool) (r : BasRec), (s.cfg.stage = 1) ∧ (s.f F.CFG_STATUS_STATE = 0) ∧ (s.bootPick = some (h, b)) ∧ (headerOk s.imgByte (s.flashSize - flashConfig) = true) ∧ (recsFrom s.imgByte (imgLen s.imgByte) 256 (imgLen s.imgByte / 16 + 1) = some [r]) ∧ (recOk s.imgByte r = true) ∧ (orderOk [r] = true) ∧ (s.sigCheck s.imgByte [r] = some g) ∧ (featOk (imgReq s.imgByte r) (imgWant s.imgByte r) = true) ∧ (imgWord s.imgByte 20 / 65536 = 0)) ∧
    (∃ (s : State) , (s.dark = false) ∧ (s.hostWindow = true) ∧ (s.featAccept &&& s.featOffer = s.featAccept) ∧ (bitsOf s.featAccept 8 8 = 0) ∧ (bitsOf s.featAccept 9 9 = 0) ∧ (s.f F.CFG_STATUS_STATE = 1) ∧ (s.cfg.req &&& s.featAccept = s.cfg.req)) ∧
    (∃ (s : State) (x : Nat), (s.cfg.closeAt = some x) ∧ (s.on F.GLB_FEAT_CTL_WINDOW = true) ∧ (s.f F.CFG_STATUS_STATE = 1) ∧ (s.cfg.req &&& (s.featOffer &&& (s.cfg.req ||| s.cfg.want)) = s.cfg.req)) :=
  ⟨⟨State.reset, by decide +kernel⟩,
   ⟨withFlash 0 mkDir { mk [(F.BIN_STATUS_MUTED, 1)] with cfg := { State.reset.cfg with pwrGood := true } }, some { version := 3, fmt := 1 }, none, none, true, true, true, 0, by decide +kernel⟩,
   ⟨withFns [(fnCfg, .starting)] (withFlash flashConfig (mkImage (featRec)) { mk [(F.CFG_FLAGS_REFUSED, 0)] with cfg := { State.reset.cfg with pwrGood := true, stage := 1, slots := { active := some { version := 3, fmt := 1 } } } }), [], { version := 3, fmt := 1 }, false, false, (recAt (State.imgByte (withFns [(fnCfg, .starting)] (withFlash flashConfig (mkImage (featRec)) { mk [(F.CFG_FLAGS_REFUSED, 0)] with cfg := { State.reset.cfg with pwrGood := true, stage := 1, slots := { active := some { version := 3, fmt := 1 } } } }))) 256), by decide +kernel⟩,
   ⟨withFns [(fnCfg, .starting)] (withFlash flashConfig (mkImage (featRec)) { mk [(F.CFG_FLAGS_REFUSED, 0), (F.GLB_FEAT_CTL_WINDOW, 1), (⟨R.GLB_FEAT_OFFER 0, 31, 0⟩, 0x3FFF), (⟨R.GLB_FEAT_ACCEPT 0, 31, 0⟩, 3), (F.CFG_STATUS_STATE, 1)] with cfg := { State.reset.cfg with pwrGood := true, stage := 2, closeAt := some 900, req := 1 } }), by decide +kernel⟩,
   ⟨withFns [(fnCfg, .starting)] (withFlash flashConfig (mkImage (featRec)) { mk [(F.CFG_FLAGS_REFUSED, 0), (F.GLB_FEAT_CTL_WINDOW, 1), (⟨R.GLB_FEAT_OFFER 0, 31, 0⟩, 0x3FFF), (F.CFG_STATUS_STATE, 1)] with cfg := { State.reset.cfg with pwrGood := true, stage := 2, closeAt := some 900, req := 1, want := 6 } }), 900, by decide +kernel⟩⟩

theorem witness_ImageRecordCommandsComplete :
    (∃ (s : State) (r : BasRec), (s.applying = true) ∧ (r = recAt s.imgByte s.cfg.off) ∧ (r.applies s.pins.mid = true) ∧ (s.cfg.off + 16 + r.len < imgLen s.imgByte) ∧ (r.ty = 6)) ∧
    (∃ (s : State) (r : BasRec) (v : Nat), (s.applying = true) ∧ (r = recAt s.imgByte s.cfg.off) ∧ (r.applies s.pins.mid = true) ∧ (s.cfg.off + 16 + r.len < imgLen s.imgByte) ∧ (r.ty = 2) ∧ (r.words s.imgByte = [R.CAL_STEP, v]) ∧ (4 ≤ v) ∧ (v ≤ 255)) ∧
    (∃ (s : State) (r : BasRec) (x : Nat), (s.waitingRecord 0x03 = some (r, x)) ∧ (s.fn fnCfg = .starting) ∧ (s.isl.queue.length < 8)) ∧
    (∃ (s : State) (r : BasRec) (x : Nat), (s.waitingRecord 0x04 = some (r, x)) ∧ (s.fn fnCfg = .starting) ∧ (s.isl.queue.length < 8)) ∧
    (∃ (s : State) , (s.dark = false) ∧ (s.f F.CFG_STATUS_STATE = 2) ∧ (s.fn fnCfg = .starting)) :=
  ⟨⟨withFns [(fnCfg, .starting)] (withFlash flashConfig (mkImage (featRec ++ mkRec 6 5 (List.replicate 32 7) ++ mkRec 2 0 [])) { mk [(F.CFG_FLAGS_REFUSED, 0), (F.CFG_STATUS_STATE, 2)] with cfg := { State.reset.cfg with pwrGood := true, stage := 2, img := true, off := 304, idx := 1 } }), (recAt (State.imgByte (withFns [(fnCfg, .starting)] (withFlash flashConfig (mkImage (featRec ++ mkRec 6 5 (List.replicate 32 7) ++ mkRec 2 0 [])) { mk [(F.CFG_FLAGS_REFUSED, 0), (F.CFG_STATUS_STATE, 2)] with cfg := { State.reset.cfg with pwrGood := true, stage := 2, img := true, off := 304, idx := 1 } }))) 304), by decide +kernel⟩,
   ⟨withFns [(fnCfg, .starting)] (withFlash flashConfig (mkImage (featRec ++ mkRec 2 0 (wordBytes [R.CAL_STEP, 9]) ++ mkRec 2 0 [])) { mk [(F.CFG_FLAGS_REFUSED, 0), (F.CFG_STATUS_STATE, 2)] with cfg := { State.reset.cfg with pwrGood := true, stage := 2, img := true, off := 304, idx := 1 } }), (recAt (State.imgByte (withFns [(fnCfg, .starting)] (withFlash flashConfig (mkImage (featRec ++ mkRec 2 0 (wordBytes [R.CAL_STEP, 9]) ++ mkRec 2 0 [])) { mk [(F.CFG_FLAGS_REFUSED, 0), (F.CFG_STATUS_STATE, 2)] with cfg := { State.reset.cfg with pwrGood := true, stage := 2, img := true, off := 304, idx := 1 } }))) 304), 9, by decide +kernel⟩,
   ⟨withFns [(fnCfg, .starting)] (withFlash flashConfig (mkImage (featRec ++ mkRec 3 0 (wordBytes [R.MER_STATUS, 7, 5, 100]))) { mk [(F.CFG_FLAGS_REFUSED, 0), (F.CFG_STATUS_STATE, 2)] with cfg := { State.reset.cfg with pwrGood := true, stage := 2, img := true, off := 304, idx := 1, wait := some 700 } }), (recAt (State.imgByte (withFns [(fnCfg, .starting)] (withFlash flashConfig (mkImage (featRec ++ mkRec 3 0 (wordBytes [R.MER_STATUS, 7, 5, 100]))) { mk [(F.CFG_FLAGS_REFUSED, 0), (F.CFG_STATUS_STATE, 2)] with cfg := { State.reset.cfg with pwrGood := true, stage := 2, img := true, off := 304, idx := 1, wait := some 700 } }))) 304), 700, by decide +kernel⟩,
   ⟨withFns [(fnCfg, .starting)] (withFlash flashConfig (mkImage (featRec ++ mkRec 4 5 (wordBytes [64, 0, 99]))) { mk [(F.CFG_FLAGS_REFUSED, 0), (F.CFG_STATUS_STATE, 2)] with cfg := { State.reset.cfg with pwrGood := true, stage := 2, img := true, off := 304, idx := 1, wait := some 700 } }), (recAt (State.imgByte (withFns [(fnCfg, .starting)] (withFlash flashConfig (mkImage (featRec ++ mkRec 4 5 (wordBytes [64, 0, 99]))) { mk [(F.CFG_FLAGS_REFUSED, 0), (F.CFG_STATUS_STATE, 2)] with cfg := { State.reset.cfg with pwrGood := true, stage := 2, img := true, off := 304, idx := 1, wait := some 700 } }))) 304), 700, by decide +kernel⟩,
   ⟨withFns [(fnCfg, .starting)] (withFlash flashConfig (mkImage (featRec)) { mk [(F.CFG_FLAGS_REFUSED, 0), (F.CFG_STATUS_STATE, 2)] with cfg := { State.reset.cfg with pwrGood := true, stage := 2, img := true, off := 304, idx := 1 } }), by decide +kernel⟩⟩

theorem witness_UpdateSessionCommandsComplete :
    (∃ (s : State) (m : SxMsg) (n : Nat), (s.sx.msgs = [m]) ∧ (m.src.relay = none) ∧ (m.ty = 0x40) ∧ (m.body.length = 56) ∧ (m.body.all (fun b => decide (b < 256)) = true) ∧ (leNat m.body 4 4 = n) ∧ (1 ≤ n) ∧ (n ≤ 50331648) ∧ (m.src.ip < 2 ^ 128) ∧ (s.on F.UPD_CTL_ACCEPT = true) ∧ (s.trial ≠ 1) ∧ (s.updState = 0)) ∧
    (∃ (s : State) (m : SxMsg) (i : Nat) (d : List Nat), (s.sx.msgs = [m]) ∧ (m.src.relay = none) ∧ (m.ty = 0x41) ∧ (d.length = 16384) ∧ (d.all (fun b => decide (b < 256)) = true) ∧ (m.body = parcelBytes s.updLen s.updDigest s.updKs i d) ∧ (s.on F.UPD_CTL_ACCEPT = true) ∧ (s.updState = 1) ∧ (i < s.updParcels) ∧ (s.updHas i = false) ∧ (s.updHeld + 1 < s.updParcels) ∧ (s.updLen ≤ 50331648) ∧ (s.updParcels = ceilDiv s.updLen 16384) ∧ (s.updOwner (0, m.src.ip) = true)) ∧
    (∃ (s : State) (m : SxMsg), (s.sx.msgs = [m]) ∧ (m.src.relay = none) ∧ (m.ty = 0x42)) ∧
    (∃ (s : State) (m : SxMsg), (s.sx.msgs = [m]) ∧ (m.src.relay = none) ∧ (m.ty = 0x43) ∧ (s.updState ≠ 0) ∧ (s.updOwner (0, m.src.ip) = true) ∧ (s.updDigest = m.body.take 48)) ∧
    (∃ (s : State) , (s.dark = false) ∧ (s.updState ≠ 0)) ∧
    (∃ (s : State) , (s.isl.dead = false) ∧ (s.updState = 1) ∧ (s.cfg.parcelAt = none) ∧ (s.updIdle + 1 < 60 * s.rdn R.UPD_IDLE) ∧ (s.updIdle + 1 < 2 ^ 32)) ∧
    (∃ (s : State) , (s.isl.dead = false) ∧ (s.updState = 1) ∧ (s.cfg.parcelAt = none) ∧ (s.updIdle + 1 < 60 * s.rdn R.UPD_IDLE) ∧ (s.updIdle + 1 < 2 ^ 32)) :=
  ⟨⟨{ merAt 500 (mk [(F.UPD_CTL_ACCEPT, 1)]) with souv := [], sx := { State.reset.sx with floor := 1, msgs := [{ src := { mgt := 0, ip := 5, udp := 900, relay := none }, ver := 2, ty := 64, seq := 77, body := (0 :: List.replicate 3 0 ++ leBytes 40000 4 ++ List.replicate 48 9) }] }, cfg := { State.reset.cfg with stage := 2 }, clk := { State.reset.clk with ns := 5000 } }, { src := { mgt := 0, ip := 5, udp := 900, relay := none }, ver := 2, ty := 64, seq := 77, body := (0 :: List.replicate 3 0 ++ leBytes 40000 4 ++ List.replicate 48 9) }, 40000, by decide +kernel⟩,
   ⟨parcelState, parcelMsg, 1, parcelData, rfl, rfl, rfl, List.length_replicate, by simp [parcelData], parcelState_body, by decide +kernel⟩,
   ⟨{ merAt 500 (mk [(F.UPD_CTL_ACCEPT, 1)]) with souv := [(0, 3 * 4 + 40000 * 2 ^ 32), (1, 5), (15, 1 + 7 * 2 ^ 32)], sx := { State.reset.sx with floor := 1, msgs := [{ src := { mgt := 0, ip := 5, udp := 900, relay := none }, ver := 2, ty := 66, seq := 77, body := [] }] }, cfg := { State.reset.cfg with stage := 2 }, clk := { State.reset.clk with ns := 5000 } }, { src := { mgt := 0, ip := 5, udp := 900, relay := none }, ver := 2, ty := 66, seq := 77, body := [] }, by decide +kernel⟩,
   ⟨{ merAt 500 (mk [(F.UPD_CTL_ACCEPT, 1)]) with souv := [(0, 3 * 4 + 40000 * 2 ^ 32), (1, 5), (15, 1 + 7 * 2 ^ 32)], sx := { State.reset.sx with floor := 1, msgs := [{ src := { mgt := 0, ip := 5, udp := 900, relay := none }, ver := 2, ty := 67, seq := 77, body := List.replicate 48 0 }] }, cfg := { State.reset.cfg with stage := 2 }, clk := { State.reset.clk with ns := 5000 } }, { src := { mgt := 0, ip := 5, udp := 900, relay := none }, ver := 2, ty := 67, seq := 77, body := List.replicate 48 0 }, by decide +kernel⟩,
   ⟨{ merAt 500 (mk [(F.UPD_CTL_ACCEPT, 1)]) with souv := [(0, 3 * 4 + 40000 * 2 ^ 32), (1, 5), (15, 1 + 7 * 2 ^ 32)], sx := { State.reset.sx with floor := 1 }, cfg := { State.reset.cfg with stage := 2 }, clk := { State.reset.clk with ns := 5000 } }, by decide +kernel⟩,
   ⟨{ merAt 500 (mk [(F.UPD_CTL_ACCEPT, 1)]) with souv := [(0, 3 * 4 + 40000 * 2 ^ 32), (1, 5), (15, 1 + 7 * 2 ^ 32)], sx := { State.reset.sx with floor := 1 }, cfg := { State.reset.cfg with stage := 2 }, clk := { State.reset.clk with ns := 5000 } }, by decide +kernel⟩,
   ⟨{ merAt 500 (mk [(F.UPD_CTL_ACCEPT, 1)]) with souv := [(0, 3 * 4 + 40000 * 2 ^ 32), (1, 5), (15, 1 + 7 * 2 ^ 32)], sx := { State.reset.sx with floor := 1 }, cfg := { State.reset.cfg with stage := 2 }, clk := { State.reset.clk with ns := 5000 } }, by decide +kernel⟩⟩

theorem witness_TrialCommandsComplete :
    (∃ (s : State) , (s.dark = false) ∧ (s.trial = 1) ∧ (s.healthy = true) ∧ (s.f F.CFG_STATUS_STATE ≠ 6)) ∧
    (∃ (s : State) , (s.dark = false) ∧ (s.trial = 1)) ∧
    (∃ (s : State) , (s.cfg.stage = 2) ∧ (s.trial = 1) ∧ (s.cfg.healthySaid = false) ∧ (s.f F.CFG_STATUS_STATE = 3) ∧ (s.clk.ns ≤ s.cfg.fwAt + 1000000000 * s.healthS)) ∧
    (∃ (s : State) , (s.cfg.stage = 2) ∧ (s.trial = 1) ∧ (s.healthy = false) ∧ (s.on F.BIN_STATUS_SHUTDOWN = false) ∧ (s.cfg.reset = none) ∧ (s.isl.queue.length < 7)) ∧
    (∃ (s : State) , (s.cfg.stage = 2) ∧ (s.trial = 1) ∧ (s.healthy = true) ∧ (s.trialLimit = 0) ∧ (s.trialElapsed + 1 < 2 ^ 32)) ∧
    (∃ (s : State) (x : Nat), (s.cfg.unreadAt = some x) ∧ (s.on F.BIN_STATUS_SHUTDOWN = false) ∧ (s.cfg.reset = none) ∧ (s.isl.queue.length < 7)) :=
  ⟨⟨{ merAt 500 (mk [(F.UPD_CTL_ACCEPT, 1)]) with souv := [(64, 1 + 3 * 2 ^ 10 + 1 * 2 ^ 6 + 16384 + 60 * 2 ^ 16), (65, 4 * 2 ^ 32 + 0)], sx := { State.reset.sx with floor := 1 }, cfg := { State.reset.cfg with stage := 2 }, clk := { State.reset.clk with ns := 5000 } }, by decide +kernel⟩,
   ⟨{ merAt 500 (mk [(F.UPD_CTL_ACCEPT, 1)]) with souv := [(64, 1 + 3 * 2 ^ 10 + 1 * 2 ^ 6 + 16384 + 60 * 2 ^ 16), (65, 4 * 2 ^ 32 + 0)], sx := { State.reset.sx with floor := 1 }, cfg := { State.reset.cfg with stage := 2 }, clk := { State.reset.clk with ns := 5000 } }, by decide +kernel⟩,
   ⟨{ merAt 500 (mk [(F.UPD_CTL_ACCEPT, 1), (F.CFG_STATUS_STATE, 3)]) with souv := [(64, 1 + 3 * 2 ^ 10 + 1 * 2 ^ 6 + 0 + 60 * 2 ^ 16), (65, 4 * 2 ^ 32 + 0)], sx := { State.reset.sx with floor := 1 }, cfg := { State.reset.cfg with stage := 2 }, clk := { State.reset.clk with ns := 5000 } }, by decide +kernel⟩,
   ⟨{ merAt 500 (mk [(F.UPD_CTL_ACCEPT, 1)]) with souv := [(64, 1 + 3 * 2 ^ 10 + 1 * 2 ^ 6 + 0 + 60 * 2 ^ 16), (65, 4 * 2 ^ 32 + 0)], sx := { State.reset.sx with floor := 1 }, cfg := { State.reset.cfg with stage := 2 }, clk := { State.reset.clk with ns := 5000 } }, by decide +kernel⟩,
   ⟨{ merAt 500 (mk [(F.UPD_CTL_ACCEPT, 1)]) with souv := [(64, 1 + 3 * 2 ^ 10 + 1 * 2 ^ 6 + 16384 + 60 * 2 ^ 16), (65, 4 * 2 ^ 32 + 0)], sx := { State.reset.sx with floor := 1 }, cfg := { State.reset.cfg with stage := 2 }, clk := { State.reset.clk with ns := 5000 } }, by decide +kernel⟩,
   ⟨{ merAt 500 (mk [(F.UPD_CTL_ACCEPT, 1)]) with souv := [(64, 1 + 3 * 2 ^ 10 + 1 * 2 ^ 6 + 0 + 60 * 2 ^ 16), (65, 4 * 2 ^ 32 + 0)], sx := { State.reset.sx with floor := 1 }, cfg := { State.reset.cfg with stage := 2, unreadAt := some 900 }, clk := { State.reset.clk with ns := 5000 } }, 900, by decide +kernel⟩⟩

theorem witness_BinnacleActionCommandsComplete :
    (∃ (s : State) , (s.dark = false) ∧ (s.on F.BIN_STATUS_MUTED = false)) ∧
    (∃ (s : State) , (s.dark = false) ∧ (s.on F.BIN_STATUS_MUTE_HOLD = false) ∧ (s.on F.BIN_STATUS_MUTED = true)) ∧
    (∃ (s : State) , (s.dark = false) ∧ (s.isl.queue.length < 8) ∧ (s.on F.BIN_STATUS_MUTED = false) ∧ (s.on F.BIN_STATUS_HELM_OUT = true)) ∧
    (∃ (s : State) , (s.dark = false) ∧ (s.cfg.reset = none) ∧ (s.isl.queue.length < 8) ∧ (s.anyStack = false)) ∧
    (∃ (s : State) , (s.dark = false) ∧ (s.cfg.reset = none) ∧ (s.isl.queue.length < 8)) ∧
    (∃ (s : State) , (s.dark = false) ∧ (s.isl.queue.length < 8)) :=
  ⟨⟨{ merAt 500 (mk [(F.BIN_STATUS_HELM_OUT, 1)]) with isl := { State.reset.isl with hot := 77 }, clk := { State.reset.clk with ns := 6000000 } }, by decide +kernel⟩,
   ⟨{ merAt 500 (mk [(F.BIN_STATUS_HELM_OUT, 1), (F.BIN_STATUS_MUTED, 1)]) with isl := { State.reset.isl with hot := 77 }, clk := { State.reset.clk with ns := 6000000 } }, by decide +kernel⟩,
   ⟨{ merAt 500 (mk [(F.BIN_STATUS_HELM_OUT, 1)]) with isl := { State.reset.isl with hot := 77 }, clk := { State.reset.clk with ns := 6000000 } }, by decide +kernel⟩,
   ⟨{ merAt 500 (mk [(F.BIN_STATUS_HELM_OUT, 1)]) with isl := { State.reset.isl with hot := 77 }, clk := { State.reset.clk with ns := 6000000 } }, by decide +kernel⟩,
   ⟨{ merAt 500 (mk [(F.BIN_STATUS_HELM_OUT, 1)]) with isl := { State.reset.isl with hot := 77 }, clk := { State.reset.clk with ns := 6000000 } }, by decide +kernel⟩,
   ⟨{ merAt 500 (mk [(F.BIN_STATUS_HELM_OUT, 1)]) with isl := { State.reset.isl with hot := 77 }, clk := { State.reset.clk with ns := 6000000 } }, by decide +kernel⟩⟩

theorem witness_BinnacleSensorCommandsComplete :
    (∃ (s : State) (i n : Nat) (r : FaultRec) (l : List FaultRec), (s.isl.queue = r :: l) ∧ (s.svf 72 15 0 = i) ∧ (i < 2029) ∧ (s.svf 72 47 16 = n)) ∧
    (∃ (s : State) (r : FaultRec) (l : List FaultRec), (s.isl.queue = r :: l)) ∧
    (∃ (s : State) (d h : List Int) (v w i j k : Nat) (a b c : Int), (s.NoMon) ∧ (s.isl.dead = false) ∧ (s.on F.BIN_STATUS_SHUTDOWN = false) ∧ (d.length = 8) ∧ (h.length = 4) ∧ (hottestOf d 0 = some (i, a)) ∧ (hottestOf h 8 = some (j, b)) ∧ (hottestOf (d ++ h) 0 = some (k, c)) ∧ (c < 8 * (s.f F.BIN_THERM_WARN : Int)) ∧ (c < 8 * (s.f F.BIN_THERM_SHUT : Int)) ∧ (4500 ≤ v) ∧ (v < 65536) ∧ (w < 65536)) ∧
    (∃ (s : State) (v : Nat) (rl : Bool), (s.isl.dead = false) ∧ (rl = true ∨ v < 5200 ∨ 52000 < v) ∧ (v < 65536) ∧ (s.isl.queue.length < 8)) ∧
    (∃ (s : State) (x : Nat), (s.on F.BIN_STATUS_SHUTDOWN = true) ∧ (s.on F.BIN_THERM_AUTO_REC = true) ∧ (s.isl.shutCmd = false) ∧ (s.isl.shutThermal = true) ∧ (s.isl.shutPower = false) ∧ (s.isl.coolSince = some x) ∧ (s.cfg.reset = none) ∧ (s.isl.queue.length < 7)) ∧
    (∃ (s : State) (x : Nat), (s.isl.wdogAt = some x) ∧ (s.f F.BIN_WDOG_ACTION = 1) ∧ (s.f F.BIN_WDOG_PERIOD ≠ 0) ∧ (s.isl.queue.length < 8) ∧ (s.on F.BIN_STATUS_MUTED = false) ∧ (s.on F.BIN_STATUS_HELM_OUT = true)) ∧
    (∃ (s : State) , (s.dark = false) ∧ (s.f F.BIN_WDOG_PERIOD ≠ 0)) ∧
    (∃ (s : State) , (s.isl.alert ≠ 0)) :=
  ⟨⟨{ merAt 500 (mk [(F.BIN_STATUS_HELM_OUT, 1)]) with isl := { State.reset.isl with hot := 77, queue := [{ cause := 7, block := 1, event := 3, fn := 0x7F, detail := 6, uptime := 9, stcSec := 8, muted := true, helm := false, boots := 4 }] }, clk := { State.reset.clk with ns := 6000000 }, souv := [(72, 2028 + 9 * 65536), (76, 5)] }, 2028, 9, { cause := 7, block := 1, event := 3, fn := 0x7F, detail := 6, uptime := 9, stcSec := 8, muted := true, helm := false, boots := 4 }, [], by decide +kernel⟩,
   ⟨{ merAt 500 (mk [(F.BIN_STATUS_HELM_OUT, 1)]) with isl := { State.reset.isl with hot := 77, queue := [{ cause := 7, block := 1, event := 3, fn := 0x7F, detail := 6, uptime := 9, stcSec := 8, muted := true, helm := false, boots := 4 }] }, clk := { State.reset.clk with ns := 6000000 } }, { cause := 7, block := 1, event := 3, fn := 0x7F, detail := 6, uptime := 9, stcSec := 8, muted := true, helm := false, boots := 4 }, [], by decide +kernel⟩,
   ⟨{ merAt 500 (mk [(F.BIN_STATUS_HELM_OUT, 1)]) with isl := { State.reset.isl with hot := 77 }, clk := { State.reset.clk with ns := 6000000 } }, [300, 310, 300, 300, 320, 320, 300, 300], [200, 330, 200, 200], 12000, 0, 4, 9, 9, 320, 330, 330, noMon_of_regs (by decide), by decide +kernel⟩,
   ⟨{ merAt 500 (mk [(F.BIN_STATUS_HELM_OUT, 1)]) with isl := { State.reset.isl with hot := 77 }, clk := { State.reset.clk with ns := 6000000 } }, 12000, true, by decide +kernel⟩,
   ⟨{ merAt 500 (mk [(F.BIN_STATUS_HELM_OUT, 1), (F.BIN_STATUS_SHUTDOWN, 1), (F.BIN_THERM_AUTO_REC, 1)]) with isl := { State.reset.isl with hot := 77, shutThermal := true, coolSince := some 800 }, clk := { State.reset.clk with ns := 6000000 } }, 800, by decide +kernel⟩,
   ⟨{ merAt 500 (mk [(F.BIN_STATUS_HELM_OUT, 1), (F.BIN_WDOG_ACTION, 1), (F.BIN_WDOG_PERIOD, 20)]) with isl := { State.reset.isl with hot := 77, wdogAt := some 7000000 }, clk := { State.reset.clk with ns := 6000000 } }, 7000000, by decide +kernel⟩,
   ⟨{ merAt 500 (mk [(F.BIN_STATUS_HELM_OUT, 1), (F.BIN_WDOG_PERIOD, 20)]) with isl := { State.reset.isl with hot := 77 }, clk := { State.reset.clk with ns := 6000000 } }, by decide +kernel⟩,
   ⟨{ merAt 500 (mk [(F.BIN_STATUS_HELM_OUT, 1)]) with isl := { State.reset.isl with hot := 77, alert := 4 }, clk := { State.reset.clk with ns := 6000000 } }, by decide +kernel⟩⟩

theorem witness_ServiceActionCommandsComplete :
    (∃ (s : State) (o : Bool), (s.isl.dead = false) ∧ (s.on F.BIN_SVC_CTL_PEC = false ∨ o = true) ∧ (5000000 ≤ s.clk.ns) ∧ (s.on F.BIN_STATUS_MUTED = false)) ∧
    (∃ (s : State) (o : Bool), (s.isl.dead = false) ∧ (s.on F.BIN_SVC_CTL_PEC = false ∨ o = true) ∧ (5000000 ≤ s.clk.ns) ∧ (s.on F.BIN_STATUS_MUTE_HOLD = false) ∧ (s.on F.BIN_STATUS_MUTED = true)) ∧
    (∃ (s : State) (o : Bool), (s.isl.dead = false) ∧ (s.on F.BIN_SVC_CTL_PEC = false ∨ o = true) ∧ (5000000 ≤ s.clk.ns) ∧ (s.isl.queue.length < 8) ∧ (s.on F.BIN_STATUS_MUTED = false) ∧ (s.on F.BIN_STATUS_HELM_OUT = true)) ∧
    (∃ (s : State) (o : Bool), (s.isl.dead = false) ∧ (s.on F.BIN_SVC_CTL_PEC = false ∨ o = true) ∧ (5000000 ≤ s.clk.ns) ∧ (s.on F.BIN_STATUS_SHUTDOWN = false) ∧ (s.cfg.reset = none) ∧ (s.isl.queue.length < 8) ∧ (s.anyStack = false)) ∧
    (∃ (s : State) (o : Bool), (s.isl.dead = false) ∧ (s.on F.BIN_SVC_CTL_PEC = false ∨ o = true) ∧ (5000000 ≤ s.clk.ns) ∧ (s.on F.BIN_STATUS_SHUTDOWN = false) ∧ (s.cfg.reset = none) ∧ (s.isl.queue.length < 8)) ∧
    (∃ (s : State) (o : Bool), (s.isl.dead = false) ∧ (s.on F.BIN_SVC_CTL_PEC = false ∨ o = true) ∧ (5000000 ≤ s.clk.ns) ∧ (s.isl.queue.length < 8)) :=
  ⟨⟨{ merAt 500 (mk [(F.BIN_STATUS_HELM_OUT, 1)]) with isl := { State.reset.isl with hot := 77 }, clk := { State.reset.clk with ns := 6000000 } }, false, by decide +kernel⟩,
   ⟨{ merAt 500 (mk [(F.BIN_STATUS_HELM_OUT, 1), (F.BIN_STATUS_MUTED, 1)]) with isl := { State.reset.isl with hot := 77 }, clk := { State.reset.clk with ns := 6000000 } }, false, by decide +kernel⟩,
   ⟨{ merAt 500 (mk [(F.BIN_STATUS_HELM_OUT, 1)]) with isl := { State.reset.isl with hot := 77 }, clk := { State.reset.clk with ns := 6000000 } }, false, by decide +kernel⟩,
   ⟨{ merAt 500 (mk [(F.BIN_STATUS_HELM_OUT, 1)]) with isl := { State.reset.isl with hot := 77 }, clk := { State.reset.clk with ns := 6000000 } }, false, by decide +kernel⟩,
   ⟨{ merAt 500 (mk [(F.BIN_STATUS_HELM_OUT, 1)]) with isl := { State.reset.isl with hot := 77 }, clk := { State.reset.clk with ns := 6000000 } }, false, by decide +kernel⟩,
   ⟨{ merAt 500 (mk [(F.BIN_STATUS_HELM_OUT, 1)]) with isl := { State.reset.isl with hot := 77 }, clk := { State.reset.clk with ns := 6000000 } }, false, by decide +kernel⟩⟩

theorem witness_ServicePortCommandsComplete :
    (∃ (s : State) (a : Nat) (o : Bool), (s.isl.dead = false) ∧ (s.on F.BIN_SVC_CTL_PEC = false ∨ o = true) ∧ (5000000 ≤ s.clk.ns) ∧ (isIsland a = true) ∧ (a % 4 = 0)) ∧
    (∃ (s : State) (v : Nat) (o : Bool), (s.isl.dead = false) ∧ (s.on F.BIN_SVC_CTL_PEC = false ∨ o = true) ∧ (5000000 ≤ s.clk.ns) ∧ (v < 2 ^ 11)) ∧
    (∃ (s : State) (i : Nat) (o : Bool), (s.isl.dead = false) ∧ (s.on F.BIN_SVC_CTL_PEC = false ∨ o = true) ∧ (5000000 ≤ s.clk.ns) ∧ (i ≤ 2028)) ∧
    (∃ (s : State) (k : Nat) (d : List Nat) (o : Bool), (s.isl.dead = false) ∧ (s.on F.BIN_SVC_CTL_PEC = false ∨ o = true) ∧ (5000000 ≤ s.clk.ns) ∧ (k < 2) ∧ (s.keySlot k = []) ∧ (s.isl.keyAt = none)) ∧
    (∃ (s : State) (k x : Nat) (d : List Nat), (s.isl.keyAt = some (k, d, x)) ∧ (s.keySlot k = []) ∧ (d ≠ [])) ∧
    (∃ (s : State) , (s.isl.dead = false)) ∧
    (∃ (s : State) (p r d : Nat) (x : Bool), (s.dark = false) ∧ (p < 32) ∧ (r < 32) ∧ (d < 65536) ∧ (s.on F.BIN_MDIO_CMD_GO = false)) ∧
    (∃ (s : State) (d : Nat), (s.on F.BIN_MDIO_CMD_GO = true) ∧ (s.on F.BIN_MDIO_CMD_READ = true) ∧ (d < 65536)) ∧
    (∃ (s : State) (m : Nat) (u : Bool), (s.dark = false) ∧ (m < 2)) :=
  ⟨⟨{ merAt 500 (mk [(F.BIN_STATUS_HELM_OUT, 1)]) with isl := { State.reset.isl with hot := 77 }, clk := { State.reset.clk with ns := 6000000 } }, R.BIN_FAULT_MASK, false, by decide +kernel⟩,
   ⟨{ merAt 500 (mk [(F.BIN_STATUS_HELM_OUT, 1)]) with isl := { State.reset.isl with hot := 77 }, clk := { State.reset.clk with ns := 6000000 } }, 9, false, by decide +kernel⟩,
   ⟨{ merAt 500 (mk [(F.BIN_STATUS_HELM_OUT, 1)]) with isl := { State.reset.isl with hot := 77 }, clk := { State.reset.clk with ns := 6000000 }, souv := [(80, 5)] }, 1, false, by decide +kernel⟩,
   ⟨{ merAt 500 (mk [(F.BIN_STATUS_HELM_OUT, 1)]) with isl := { State.reset.isl with hot := 77 }, clk := { State.reset.clk with ns := 6000000 } }, 1, [5, 6], false, by decide +kernel⟩,
   ⟨{ { merAt 500 (mk [(F.BIN_STATUS_HELM_OUT, 1)]) with isl := { State.reset.isl with hot := 77, keyAt := some (1, [7, 9], 9000) }, clk := { State.reset.clk with ns := 6000000 } } with keys := [(0, [8])] }, 1, 9000, [7, 9], by decide +kernel⟩,
   ⟨{ merAt 500 (mk [(F.BIN_STATUS_HELM_OUT, 1)]) with isl := { State.reset.isl with hot := 77 }, clk := { State.reset.clk with ns := 6000000 } }, by decide +kernel⟩,
   ⟨{ merAt 500 (mk [(F.BIN_STATUS_HELM_OUT, 1)]) with isl := { State.reset.isl with hot := 77 }, clk := { State.reset.clk with ns := 6000000 } }, 3, 9, 77, true, by decide +kernel⟩,
   ⟨{ merAt 500 (mk [(F.BIN_STATUS_HELM_OUT, 1), (F.BIN_MDIO_CMD_GO, 1), (F.BIN_MDIO_CMD_READ, 1)]) with isl := { State.reset.isl with hot := 77 }, clk := { State.reset.clk with ns := 6000000 } }, 77, by decide +kernel⟩,
   ⟨{ merAt 500 (mk [(F.BIN_STATUS_HELM_OUT, 1)]) with isl := { State.reset.isl with hot := 77 }, clk := { State.reset.clk with ns := 6000000 } }, 1, false, by decide +kernel⟩⟩

theorem witness_SextantAccessCommandsComplete :
    (∃ (s : State) (c : SxFrom) (l h : List Nat) (g : SxGram) (v : Nat), (l = h ++ s.sxTag h) ∧ (s.mgtListens c = true) ∧ (c.relay = none) ∧ (sxParse l = some g) ∧ (bitsOf g.flags 0 0 = 0) ∧ (bitsOf g.flags 1 1 = 0) ∧ (g.dest = s.pins.mid) ∧ (s.pins.mid ≠ 0x3FF) ∧ (g.key = s.keyId) ∧ (g.ty = 0x01 ∨ g.boot = s.rdn R.BIN_SX_BOOT_ID) ∧ (s.sx.asms = []) ∧ (s.sxFloor c.ip < g.seq) ∧ (s.sx.clients.length < 64) ∧ (s.sxVerOk g.ver = true) ∧ (g.frag = 0) ∧ (g.last = true) ∧ (s.cfg.key.isSome = true ∨ sxKeyless g.ty = true) ∧ (sxTypeVer g.ty = some v) ∧ (v ≤ g.ver) ∧ (sxBodyOk g.ty g.body = true)) ∧
    (∃ (s : State) (a : SxAsm), (s.sx.asms = [a])) ∧
    (∃ (s : State) (m : SxMsg), (s.sx.msgs = [m]) ∧ (m.src.relay = none) ∧ (m.ty = 0x01) ∧ (s.on F.GLB_FEAT_CTL_LOCKED = true)) ∧
    (∃ (s : State) (m : SxMsg) (a : Nat), (s.dark = false) ∧ (s.sx.msgs = [m]) ∧ (m.src.relay = none) ∧ (m.ty = 0x02) ∧ (m.body = leBytes a 4 ++ leBytes 1 4) ∧ (a < 0x1A0000) ∧ (a % 4 = 0) ∧ (s.readEffect a = s)) ∧
    (∃ (s : State) (m : SxMsg) (v : Nat), (s.dark = false) ∧ (s.sx.msgs = [m]) ∧ (m.src.relay = none) ∧ (m.ty = 0x03) ∧ (m.body = leBytes 1 4 ++ leBytes R.CAL_STEP 4 ++ leBytes v 4) ∧ (4 ≤ v) ∧ (v ≤ 255) ∧ (s.cfg.stage ≠ 0)) ∧
    (∃ (s : State) (m : SxMsg) (i n : Nat), (s.sx.msgs = [m]) ∧ (m.src.relay = none) ∧ (m.ty = 0x22) ∧ (leNat m.body 0 4 = i) ∧ (leNat m.body 4 4 = n) ∧ (n ≤ 32)) ∧
    (∃ (s : State) (m : SxMsg) (x b o n : Nat), (s.sx.msgs = [m]) ∧ (m.src.relay = none) ∧ (m.ty = 0x30) ∧ (s.cfg.img = true) ∧ (leNat m.body 0 4 = x) ∧ (settingsOf s.pins.mid ((recsFrom s.imgByte (imgLen s.imgByte) 256 (imgLen s.imgByte / 16 + 1)).getD []) = [(x, b, o, n)]) ∧ (n ≤ 1392)) :=
  ⟨⟨{ merAt 500 (mk [(F.BIN_STATUS_HELM_OUT, 1), (F.BIN_MGT_CTL_A_EN, 1)]) with sx := { State.reset.sx with floor := 1 }, cfg := { State.reset.cfg with stage := 2 }, pins := { State.reset.pins with mid := 9 } }, { mgt := 0, ip := 5, udp := 900, relay := none }, (let z := (leBytes 0x5853 2 ++ [1, 0] ++ leBytes 1 2 ++ leBytes 9 2 ++ leBytes 44 8 ++ leBytes 0 4 ++ leBytes 0 2 ++ [128, 0]); z ++ ({ merAt 500 (mk [(F.BIN_STATUS_HELM_OUT, 1), (F.BIN_MGT_CTL_A_EN, 1)]) with sx := { State.reset.sx with floor := 1 }, cfg := { State.reset.cfg with stage := 2 }, pins := { State.reset.pins with mid := 9 } } : State).sxTag z), (leBytes 0x5853 2 ++ [1, 0] ++ leBytes 1 2 ++ leBytes 9 2 ++ leBytes 44 8 ++ leBytes 0 4 ++ leBytes 0 2 ++ [128, 0]), { ver := 1, flags := 0, ty := 1, dest := 9, seq := 44, boot := 0, frag := 0, last := true, key := 0, body := [] }, 1, rfl, by decide +kernel⟩,
   ⟨{ merAt 500 (mk [(F.BIN_STATUS_HELM_OUT, 1), (F.BIN_MGT_CTL_A_EN, 1)]) with sx := { State.reset.sx with floor := 1, asms := [{ msg := { src := { mgt := 0, ip := 5, udp := 900, relay := none }, ver := 1, ty := 3, seq := 77, body := [] }, frags := [(0, [1])], last := some 2, at_ := 900 }] }, cfg := { State.reset.cfg with stage := 2 }, pins := { State.reset.pins with mid := 9 } }, { msg := { src := { mgt := 0, ip := 5, udp := 900, relay := none }, ver := 1, ty := 3, seq := 77, body := [] }, frags := [(0, [1])], last := some 2, at_ := 900 }, by decide +kernel⟩,
   ⟨{ merAt 500 (mk [(F.BIN_STATUS_HELM_OUT, 1), (F.BIN_MGT_CTL_A_EN, 1), (F.GLB_FEAT_CTL_LOCKED, 1)]) with sx := { State.reset.sx with floor := 1, msgs := [{ src := { mgt := 0, ip := 5, udp := 900, relay := none }, ver := 1, ty := 1, seq := 77, body := [] }] }, cfg := { State.reset.cfg with stage := 2 }, pins := { State.reset.pins with mid := 9 } }, { src := { mgt := 0, ip := 5, udp := 900, relay := none }, ver := 1, ty := 1, seq := 77, body := [] }, by decide +kernel⟩,
   ⟨{ merAt 500 (mk [(F.BIN_STATUS_HELM_OUT, 1), (F.BIN_MGT_CTL_A_EN, 1)]) with sx := { State.reset.sx with floor := 1, msgs := [{ src := { mgt := 0, ip := 5, udp := 900, relay := none }, ver := 1, ty := 2, seq := 77, body := (leBytes R.CAL_STEP 4 ++ leBytes 1 4) }] }, cfg := { State.reset.cfg with stage := 2 }, pins := { State.reset.pins with mid := 9 } }, { src := { mgt := 0, ip := 5, udp := 900, relay := none }, ver := 1, ty := 2, seq := 77, body := (leBytes R.CAL_STEP 4 ++ leBytes 1 4) }, R.CAL_STEP, by decide +kernel⟩,
   ⟨{ merAt 500 (mk [(F.BIN_STATUS_HELM_OUT, 1), (F.BIN_MGT_CTL_A_EN, 1)]) with sx := { State.reset.sx with floor := 1, msgs := [{ src := { mgt := 0, ip := 5, udp := 900, relay := none }, ver := 1, ty := 3, seq := 77, body := (leBytes 1 4 ++ leBytes R.CAL_STEP 4 ++ leBytes 9 4) }] }, cfg := { State.reset.cfg with stage := 2 }, pins := { State.reset.pins with mid := 9 } }, { src := { mgt := 0, ip := 5, udp := 900, relay := none }, ver := 1, ty := 3, seq := 77, body := (leBytes 1 4 ++ leBytes R.CAL_STEP 4 ++ leBytes 9 4) }, 9, by decide +kernel⟩,
   ⟨{ merAt 500 (mk [(F.BIN_STATUS_HELM_OUT, 1), (F.BIN_MGT_CTL_A_EN, 1)]) with sx := { State.reset.sx with floor := 1, msgs := [{ src := { mgt := 0, ip := 5, udp := 900, relay := none }, ver := 1, ty := 34, seq := 77, body := (leBytes 2027 4 ++ leBytes 2 4) }] }, cfg := { State.reset.cfg with stage := 2 }, pins := { State.reset.pins with mid := 9 }, souv := [(8184, 9)] }, { src := { mgt := 0, ip := 5, udp := 900, relay := none }, ver := 1, ty := 34, seq := 77, body := (leBytes 2027 4 ++ leBytes 2 4) }, 2027, 2, by decide +kernel⟩,
   ⟨withFlash flashConfig (mkImage (featRec ++ mkRec 5 (7 + 65536) [1, 2, 3, 4, 5, 6, 7, 8])) { { merAt 500 (mk [(F.BIN_STATUS_HELM_OUT, 1), (F.BIN_MGT_CTL_A_EN, 1)]) with sx := { State.reset.sx with floor := 1, msgs := [{ src := { mgt := 0, ip := 5, udp := 900, relay := none }, ver := 1, ty := 48, seq := 77, body := (leBytes 7 4) }] }, cfg := { State.reset.cfg with stage := 2 }, pins := { State.reset.pins with mid := 9 } } with cfg := { State.reset.cfg with stage := 2, img := true } }, { src := { mgt := 0, ip := 5, udp := 900, relay := none }, ver := 1, ty := 48, seq := 77, body := (leBytes 7 4) }, 7, 1, 320, 8, by decide +kernel⟩⟩

theorem witness_GroupWriteAndEventCommandsComplete :
    (∃ (s : State) (m : SxMsg) (p : Nat), (s.sx.msgs = [m]) ∧ (m.src.relay = none) ∧ (m.ty = 0x04) ∧ (s.clk.run = true) ∧ (leNat m.body 6 2 < s.clk.lm) ∧ (((leNat m.body 0 6 : Nat) - s.clk.frameOfs) * (s.clk.fu : Int) + (65536 * leNat m.body 6 2 : Nat) = (p : Int)) ∧ (s.clk.vpos < p) ∧ (p ≤ s.clk.vpos + 1024 * s.clk.fu) ∧ (s.sx.groups.length < 16)) ∧
    (∃ (s : State) (m : SxMsg) (p v : Nat) (q : Clock), (s.dark = false) ∧ (s.sx.groups = [{ pos := p, msg := m, pairs := [(R.CAL_STEP, v)] }]) ∧ (m.src.relay = none) ∧ (s.begin.toPos 11 p = some { s.begin with clk := q }) ∧ (4 ≤ v) ∧ (v ≤ 255) ∧ (s.cfg.stage ≠ 0)) ∧
    (∃ (s : State) (m : SxMsg) (k n : Nat), (s.sx.msgs = [m]) ∧ (m.src.relay = none) ∧ (m.ty = 0x10) ∧ (leNat m.body 0 4 = k) ∧ (leNat m.body 4 4 = n) ∧ (n ≠ 0) ∧ (s.sx.subs = [])) ∧
    (∃ (s : State) (m : SxMsg) (a n : Nat), (s.sx.msgs = [m]) ∧ (m.src.relay = none) ∧ (m.ty = 0x11) ∧ (leNat m.body 0 4 = a) ∧ (leNat m.body 4 4 = n) ∧ (n ≤ 64)) ∧
    (∃ (s : State) (i : Nat) (x : SxSub) (l : List LogEntry), (s.sx.subs[i]? = some x) ∧ (x.src.relay = none) ∧ (x.sent = none) ∧ (x.next ≤ s.log.head) ∧ (s.log.head < x.next + 65) ∧ (l = ((List.range (s.log.head - x.next)).filterMap (fun k => s.logAt (x.next + k))).filter (fun e => bitsOf x.mask (e.code / 256) (e.code / 256) == 1)) ∧ (l ≠ []) ∧ (s.log.head < 2 ^ 32)) ∧
    (∃ (s : State) (x : SxSub), (s.sx.subs = [x])) :=
  ⟨⟨{ merAt 500 (mk [(F.BIN_STATUS_HELM_OUT, 1), (F.BIN_MGT_CTL_A_EN, 1)]) with sx := { State.reset.sx with floor := 1, msgs := [{ src := { mgt := 0, ip := 5, udp := 900, relay := none }, ver := 2, ty := 4, seq := 77, body := (leBytes 7 6 ++ leBytes 20 2 ++ leBytes 1 4 ++ leBytes R.CAL_STEP 4 ++ leBytes 9 4) }] }, cfg := { State.reset.cfg with stage := 2 }, pins := { State.reset.pins with mid := 9 } }, { src := { mgt := 0, ip := 5, udp := 900, relay := none }, ver := 2, ty := 4, seq := 77, body := (leBytes 7 6 ++ leBytes 20 2 ++ leBytes 1 4 ++ leBytes R.CAL_STEP 4 ++ leBytes 9 4) }, (7 * 4500 * 65536 + 20 * 65536), by decide +kernel⟩,
   ⟨{ merAt 500 (mk [(F.BIN_STATUS_HELM_OUT, 1), (F.BIN_MGT_CTL_A_EN, 1)]) with sx := { State.reset.sx with floor := 1, groups := [{ pos := 9000, msg := { src := { mgt := 0, ip := 5, udp := 900, relay := none }, ver := 2, ty := 4, seq := 77, body := (leBytes 7 6 ++ leBytes 20 2 ++ leBytes 1 4 ++ leBytes R.CAL_STEP 4 ++ leBytes 9 4) }, pairs := [(R.CAL_STEP, 9)] }] }, cfg := { State.reset.cfg with stage := 2 }, pins := { State.reset.pins with mid := 9 } }, { src := { mgt := 0, ip := 5, udp := 900, relay := none }, ver := 2, ty := 4, seq := 77, body := (leBytes 7 6 ++ leBytes 20 2 ++ leBytes 1 4 ++ leBytes R.CAL_STEP 4 ++ leBytes 9 4) }, 9000, 9, posClk ({ merAt 500 (mk [(F.BIN_STATUS_HELM_OUT, 1), (F.BIN_MGT_CTL_A_EN, 1)]) with sx := { State.reset.sx with floor := 1, groups := [{ pos := 9000, msg := { src := { mgt := 0, ip := 5, udp := 900, relay := none }, ver := 2, ty := 4, seq := 77, body := (leBytes 7 6 ++ leBytes 20 2 ++ leBytes 1 4 ++ leBytes R.CAL_STEP 4 ++ leBytes 9 4) }, pairs := [(R.CAL_STEP, 9)] }] }, cfg := { State.reset.cfg with stage := 2 }, pins := { State.reset.pins with mid := 9 } }).begin 11 9000, by decide +kernel⟩,
   ⟨{ merAt 500 (mk [(F.BIN_STATUS_HELM_OUT, 1), (F.BIN_MGT_CTL_A_EN, 1)]) with sx := { State.reset.sx with floor := 1, msgs := [{ src := { mgt := 0, ip := 5, udp := 900, relay := none }, ver := 2, ty := 16, seq := 77, body := (leBytes 0x22 4 ++ leBytes 60 4) }] }, cfg := { State.reset.cfg with stage := 2 }, pins := { State.reset.pins with mid := 9 } }, { src := { mgt := 0, ip := 5, udp := 900, relay := none }, ver := 2, ty := 16, seq := 77, body := (leBytes 0x22 4 ++ leBytes 60 4) }, 0x22, 60, by decide +kernel⟩,
   ⟨{ merAt 500 (mk [(F.BIN_STATUS_HELM_OUT, 1), (F.BIN_MGT_CTL_A_EN, 1)]) with sx := { State.reset.sx with floor := 1, msgs := [{ src := { mgt := 0, ip := 5, udp := 900, relay := none }, ver := 1, ty := 17, seq := 77, body := (leBytes 3 4 ++ leBytes 5 4) }] }, cfg := { State.reset.cfg with stage := 2 }, pins := { State.reset.pins with mid := 9 }, log := { State.reset.log with head := 5, ring := [(3, { code := 0x0102, detail := 7, seq := 3, frame := 9, line := 8, frac := 7 }), (4, { code := 0x0502, detail := 1, seq := 4, frame := 9, line := 8, frac := 9 })] } }, { src := { mgt := 0, ip := 5, udp := 900, relay := none }, ver := 1, ty := 17, seq := 77, body := (leBytes 3 4 ++ leBytes 5 4) }, 3, 5, by decide +kernel⟩,
   ⟨{ merAt 500 (mk [(F.BIN_STATUS_HELM_OUT, 1), (F.BIN_MGT_CTL_A_EN, 1)]) with sx := { State.reset.sx with floor := 1, subs := [{ src := { mgt := 0, ip := 5, udp := 900, relay := none }, ver := 2, mask := 2, until_ := 60000000000, next := 3, sent := none }] }, cfg := { State.reset.cfg with stage := 2 }, pins := { State.reset.pins with mid := 9 }, log := { State.reset.log with head := 5, ring := [(3, { code := 0x0102, detail := 7, seq := 3, frame := 9, line := 8, frac := 7 }), (4, { code := 0x0502, detail := 1, seq := 4, frame := 9, line := 8, frac := 9 })] } }, 0, { src := { mgt := 0, ip := 5, udp := 900, relay := none }, ver := 2, mask := 2, until_ := 60000000000, next := 3, sent := none }, [{ code := 0x0102, detail := 7, seq := 3, frame := 9, line := 8, frac := 7 }], by decide +kernel⟩,
   ⟨{ merAt 500 (mk [(F.BIN_STATUS_HELM_OUT, 1), (F.BIN_MGT_CTL_A_EN, 1)]) with sx := { State.reset.sx with floor := 1, subs := [{ src := { mgt := 0, ip := 5, udp := 900, relay := none }, ver := 2, mask := 2, until_ := 60000000000, next := 3, sent := none }] }, cfg := { State.reset.cfg with stage := 2 }, pins := { State.reset.pins with mid := 9 } }, { src := { mgt := 0, ip := 5, udp := 900, relay := none }, ver := 2, mask := 2, until_ := 60000000000, next := 3, sent := none }, by decide +kernel⟩⟩

theorem witness_SextantActionCommandsComplete :
    (∃ (s : State) (m : SxMsg), (s.sx.msgs = [m]) ∧ (m.src.relay = none) ∧ (m.ty = 0x20) ∧ (leNat m.body 0 2 = 1) ∧ (s.on F.BIN_STATUS_SHUTDOWN = false) ∧ (s.cfg.reset = none) ∧ (s.isl.queue.length < 8) ∧ (s.anyStack = false)) ∧
    (∃ (s : State) (m : SxMsg), (s.sx.msgs = [m]) ∧ (m.src.relay = none) ∧ (m.ty = 0x20) ∧ (leNat m.body 0 2 = 2) ∧ (s.on F.BIN_STATUS_SHUTDOWN = false) ∧ (s.cfg.reset = none) ∧ (s.isl.queue.length < 8)) ∧
    (∃ (s : State) (m : SxMsg), (s.sx.msgs = [m]) ∧ (m.src.relay = none) ∧ (m.ty = 0x21) ∧ (leNat m.body 0 4 = 1) ∧ (s.on F.BIN_STATUS_MUTED = false)) ∧
    (∃ (s : State) (m : SxMsg), (s.sx.msgs = [m]) ∧ (m.src.relay = none) ∧ (m.ty = 0x21) ∧ (leNat m.body 0 4 = 2) ∧ (s.on F.BIN_STATUS_MUTED = true) ∧ (s.on F.BIN_STATUS_MUTE_HOLD = false)) ∧
    (∃ (s : State) (m : SxMsg), (s.sx.msgs = [m]) ∧ (m.src.relay = none) ∧ (m.ty = 0x21) ∧ (leNat m.body 0 4 = 3) ∧ (s.isl.queue.length < 8) ∧ (s.on F.BIN_STATUS_MUTED = false) ∧ (s.on F.BIN_STATUS_HELM_OUT = true)) :=
  ⟨⟨{ merAt 500 (mk [(F.BIN_STATUS_HELM_OUT, 1), (F.BIN_MGT_CTL_A_EN, 1)]) with sx := { State.reset.sx with floor := 1, msgs := [{ src := { mgt := 0, ip := 5, udp := 900, relay := none }, ver := 1, ty := 32, seq := 77, body := (leBytes 0xA5C30001 4) }] }, cfg := { State.reset.cfg with stage := 2 }, pins := { State.reset.pins with mid := 9 } }, { src := { mgt := 0, ip := 5, udp := 900, relay := none }, ver := 1, ty := 32, seq := 77, body := (leBytes 0xA5C30001 4) }, by decide +kernel⟩,
   ⟨{ merAt 500 (mk [(F.BIN_STATUS_HELM_OUT, 1), (F.BIN_MGT_CTL_A_EN, 1)]) with sx := { State.reset.sx with floor := 1, msgs := [{ src := { mgt := 0, ip := 5, udp := 900, relay := none }, ver := 1, ty := 32, seq := 77, body := (leBytes 0xA5C30002 4) }] }, cfg := { State.reset.cfg with stage := 2 }, pins := { State.reset.pins with mid := 9 } }, { src := { mgt := 0, ip := 5, udp := 900, relay := none }, ver := 1, ty := 32, seq := 77, body := (leBytes 0xA5C30002 4) }, by decide +kernel⟩,
   ⟨{ merAt 500 (mk [(F.BIN_STATUS_HELM_OUT, 1), (F.BIN_MGT_CTL_A_EN, 1)]) with sx := { State.reset.sx with floor := 1, msgs := [{ src := { mgt := 0, ip := 5, udp := 900, relay := none }, ver := 1, ty := 33, seq := 77, body := (leBytes 1 4) }] }, cfg := { State.reset.cfg with stage := 2 }, pins := { State.reset.pins with mid := 9 } }, { src := { mgt := 0, ip := 5, udp := 900, relay := none }, ver := 1, ty := 33, seq := 77, body := (leBytes 1 4) }, by decide +kernel⟩,
   ⟨{ merAt 500 (mk [(F.BIN_STATUS_HELM_OUT, 1), (F.BIN_MGT_CTL_A_EN, 1), (F.BIN_STATUS_MUTED, 1)]) with sx := { State.reset.sx with floor := 1, msgs := [{ src := { mgt := 0, ip := 5, udp := 900, relay := none }, ver := 1, ty := 33, seq := 77, body := (leBytes 2 4) }] }, cfg := { State.reset.cfg with stage := 2 }, pins := { State.reset.pins with mid := 9 } }, { src := { mgt := 0, ip := 5, udp := 900, relay := none }, ver := 1, ty := 33, seq := 77, body := (leBytes 2 4) }, by decide +kernel⟩,
   ⟨{ merAt 500 (mk [(F.BIN_STATUS_HELM_OUT, 1), (F.BIN_MGT_CTL_A_EN, 1)]) with sx := { State.reset.sx with floor := 1, msgs := [{ src := { mgt := 0, ip := 5, udp := 900, relay := none }, ver := 1, ty := 33, seq := 77, body := (leBytes 3 4) }] }, cfg := { State.reset.cfg with stage := 2 }, pins := { State.reset.pins with mid := 9 } }, { src := { mgt := 0, ip := 5, udp := 900, relay := none }, ver := 1, ty := 33, seq := 77, body := (leBytes 3 4) }, by decide +kernel⟩⟩

theorem witness_HostAccessCommandsComplete :
    (∃ (s : State) (a n : Nat), (s.dark = false) ∧ ((List.range n).all (fun i => !inHole (a + i) && s.hbmUp (a + i)) = true)) ∧
    (∃ (s : State) (a : Nat) (d : List Nat), (s.dark = false) ∧ (a + d.length ≤ 2 ^ 38) ∧ ((List.range d.length).all (fun i => !inHole (a + i) && s.hbmUp (a + i)) = true)) ∧
    (∃ (s : State) (v : Nat), (s.dark = false) ∧ (s.log.vecs.contains v = true) ∧ (Tab.get (fun _ => (none : Option Nat)) s.sx.msix v = none)) ∧
    (∃ (s : State) (u : Bool) (w g : Nat), (s.dark = false) ∧ (w < 16) ∧ (g < 8) ∧ (s.rdn R.BIN_PCIE_STATUS ≠ if u then 1 + w * 2 + g * 32 else 0)) ∧
    (∃ (s : State) (a p : Nat), (s.dark = false) ∧ (0x800000 ≤ a) ∧ (a < 0xA00000) ∧ (a % 4 = 0) ∧ ((s.winHbm .pcie a).1 = some p)) ∧
    (∃ (s : State) (a p : Nat) (v : Word), (s.dark = false) ∧ (0x800000 ≤ a) ∧ (a < 0xA00000) ∧ (a % 4 = 0) ∧ ((s.winHbm .pcie a).1 = some p) ∧ (p + 4 ≤ 2 ^ 38) ∧ (inHole (p + 3) = false)) :=
  ⟨⟨withFns [(fnMer, .ready), (fnHbm 1, .ready)] { merAt 500 (mk [(F.MER_CTL_EN, 1)]) with hbm := { State.reset.hbm with mem := [(2 ^ 36 + 77, 5), (2 ^ 36 + 80, 6)] } }, (2 ^ 36 + 75), 8, by decide +kernel⟩,
   ⟨withFns [(fnMer, .ready), (fnHbm 1, .ready)] { merAt 500 (mk [(F.MER_CTL_EN, 1)]) with hbm := { State.reset.hbm with mem := [(2 ^ 36 + 77, 5), (2 ^ 36 + 80, 6)] } }, (2 ^ 36 + 76), [9, 8, 7], by decide +kernel⟩,
   ⟨withFns [(fnMer, .ready), (fnHbm 1, .ready)] { merAt 500 (mk [(F.MER_CTL_EN, 1)]) with hbm := { State.reset.hbm with mem := [(2 ^ 36 + 77, 5), (2 ^ 36 + 80, 6)] }, log := { State.reset.log with vecs := [0, 7] } }, 7, by decide +kernel⟩,
   ⟨withFns [(fnMer, .ready), (fnHbm 1, .ready)] { merAt 500 (mk [(F.MER_CTL_EN, 1)]) with hbm := { State.reset.hbm with mem := [(2 ^ 36 + 77, 5), (2 ^ 36 + 80, 6)] } }, true, 8, 4, by decide +kernel⟩,
   ⟨withFns [(fnMer, .ready), (fnHbm 1, .ready)] { merAt 500 (mk [(F.MER_CTL_EN, 1), (⟨R.HBM_MESH_ADDR_LO, 31, 0⟩, 64), (⟨R.HBM_MESH_ADDR_HI, 31, 0⟩, 16)]) with hbm := { State.reset.hbm with mem := [(2 ^ 36 + 77, 5), (2 ^ 36 + 80, 6)] } }, (0x800000 + 12), (2 ^ 36 + 76), by decide +kernel⟩,
   ⟨withFns [(fnMer, .ready), (fnHbm 1, .ready)] { merAt 500 (mk [(F.MER_CTL_EN, 1), (⟨R.HBM_MESH_ADDR_LO, 31, 0⟩, 64), (⟨R.HBM_MESH_ADDR_HI, 31, 0⟩, 16)]) with hbm := { State.reset.hbm with mem := [(2 ^ 36 + 77, 5), (2 ^ 36 + 80, 6)] } }, (0x800000 + 12), (2 ^ 36 + 76), 0x12345678#32, by decide +kernel⟩⟩

theorem witness_SnapshotAndCheckCommandsComplete :
    (∃ (s : State) , (s.dark = false) ∧ (s.snap.cmd = none) ∧ (s.snap.last = none) ∧ (s.merRuns = true)) ∧
    (∃ (s : State) (p : Nat) (q : Clock), (s.snap.taken = none) ∧ (s.snap.cmd = some { pos := some p, cmd := true }) ∧ (s.nextAuto = none) ∧ (s.begin.toPos 3 p = some { s.begin with clk := q }) ∧ (s.held = []) ∧ ((List.range 64).all (fun m => !s.on (F.MON_CTL_EN m)) = true) ∧ (s.bankOdd = false)) ∧
    (∃ (s : State) (p : Nat) (c : Bool), (s.snap.taken = some { pos := some p, cmd := c })) ∧
    (∃ (s : State) (u : Nat), (s.dark = false) ∧ (u < 4) ∧ (s.checkOk u = true) ∧ (s.rdn (R.CHK_CMD u) = 0)) ∧
    (∃ (s : State) (u : Nat), (s.dark = false) ∧ (u < 4) ∧ (s.chkBusy u = true) ∧ (s.rdn (R.CHK_CMD u) = 0)) ∧
    (∃ (s : State) (u : Nat), (u < 4) ∧ (s.chkBusy u = true) ∧ (s.on (F.CHK_CTL_SEQ_INC u) = true)) :=
  ⟨⟨withFns [(fnMer, .ready), (fnHbm 1, .ready)] { merAt 500 (mk [(F.MER_CTL_EN, 1)]) with hbm := { State.reset.hbm with mem := [(2 ^ 36 + 77, 5), (2 ^ 36 + 80, 6)] } }, by decide +kernel⟩,
   ⟨withFns [(fnMer, .ready), (fnHbm 1, .ready)] { merAt 500 (mk [(F.MER_CTL_EN, 1), (⟨R.CAL_RUN_CNT, 31, 0⟩, 9)]) with hbm := { State.reset.hbm with mem := [(2 ^ 36 + 77, 5), (2 ^ 36 + 80, 6)] }, snap := { State.reset.snap with cmd := some { pos := some 65536, cmd := true } } }, 65536, posClk (withFns [(fnMer, .ready), (fnHbm 1, .ready)] { merAt 500 (mk [(F.MER_CTL_EN, 1), (⟨R.CAL_RUN_CNT, 31, 0⟩, 9)]) with hbm := { State.reset.hbm with mem := [(2 ^ 36 + 77, 5), (2 ^ 36 + 80, 6)] }, snap := { State.reset.snap with cmd := some { pos := some 65536, cmd := true } } }).begin 3 65536, by decide +kernel⟩,
   ⟨withFns [(fnMer, .ready), (fnHbm 1, .ready)] { merAt 500 (mk [(F.MER_CTL_EN, 1)]) with hbm := { State.reset.hbm with mem := [(2 ^ 36 + 77, 5), (2 ^ 36 + 80, 6)] }, snap := { State.reset.snap with taken := some { pos := some 400000000, cmd := true } } }, 400000000, true, by decide +kernel⟩,
   ⟨withFns [(fnMer, .ready), (fnHbm 1, .ready)] { merAt 500 (mk [(F.MER_CTL_EN, 1), (⟨R.CHK_START_LO 2, 31, 0⟩, 70), (⟨R.CHK_START_HI 2, 31, 0⟩, 16), (⟨R.CHK_LEN 2, 31, 0⟩, 12), (⟨R.CHK_SEED_LO 2, 31, 0⟩, 0xFFFFFFFF)]) with hbm := { State.reset.hbm with mem := [(2 ^ 36 + 77, 5), (2 ^ 36 + 80, 6)] } }, 2, by decide +kernel⟩,
   ⟨withFns [(fnMer, .ready), (fnHbm 1, .ready)] { merAt 500 (mk [(F.MER_CTL_EN, 1), (⟨R.CHK_START_LO 2, 31, 0⟩, 70), (⟨R.CHK_START_HI 2, 31, 0⟩, 16), (⟨R.CHK_LEN 2, 31, 0⟩, 12), (⟨R.CHK_SEED_LO 2, 31, 0⟩, 0xFFFFFFFF), (F.CHK_STATUS_STATE 2, 1)]) with hbm := { State.reset.hbm with mem := [(2 ^ 36 + 77, 5), (2 ^ 36 + 80, 6)] } }, 2, by decide +kernel⟩,
   ⟨withFns [(fnMer, .ready), (fnHbm 1, .ready)] { merAt 500 (mk [(F.MER_CTL_EN, 1), (⟨R.CHK_START_LO 2, 31, 0⟩, 70), (⟨R.CHK_START_HI 2, 31, 0⟩, 16), (⟨R.CHK_LEN 2, 31, 0⟩, 12), (⟨R.CHK_SEED_LO 2, 31, 0⟩, 0xFFFFFFFF), (F.CHK_STATUS_STATE 2, 1), (F.CHK_CTL_SEQ_INC 2, 1)]) with hbm := { State.reset.hbm with mem := [(2 ^ 36 + 77, 5), (2 ^ 36 + 80, 6)] } }, 2, by decide +kernel⟩⟩

theorem witness_EmptyQueueTick : ∃ s : State, s.pending = [] := ⟨State.reset, rfl⟩

theorem witness_ResetState : ∃ a d, regDef a = some d ∧ d.reset ≠ 0 := ⟨R.MER_CAD_NUM, _, rfl, by decide⟩

theorem witness_KeySlots :
    (∃ (s : State) (k : Nat), s.isl.dead = false ∧ s.on F.BIN_SVC_CTL_PEC = false ∧ 5000000 ≤ s.clk.ns ∧ k < 2 ∧ s.keySlot k = [] ∧ s.isl.keyAt = none) ∧
    (∃ (s : State) (k : Nat) (x : Nat × List Nat × Nat), s.isl.dead = false ∧ s.on F.BIN_SVC_CTL_PEC = false ∧ 5000000 ≤ s.clk.ns ∧ k < 2 ∧ s.keySlot k = [] ∧
      s.isl.keyAt = some x) ∧
    (∃ (s : State) (k x : Nat) (d : List Nat), s.isl.keyAt = some (k, d, x) ∧ k < 2 ∧ s.keySlot k = [] ∧ d ≠ []) ∧
    (∃ s : State, s.loaderMay = true) ∧
    (∃ (s : State) (k : Nat), s.isl.dead = false ∧ s.on F.BIN_SVC_CTL_PEC = false ∧ 5000000 ≤ s.clk.ns ∧ k < 2 ∧ s.keySlot k ≠ []) ∧
    (∃ i : Instr, i ≠ .keyslotProgrammed) := by
  refine ⟨⟨State.reset.toNs 5000000, 1, ?_⟩, ⟨{ State.reset.toNs 5000000 with isl := { State.reset.isl with keyAt := some (0, [7], 9000000) } }, 1, (0, [7], 9000000), ?_⟩,
    ⟨{ State.reset with isl := { State.reset.isl with keyAt := some (1, [7], 9000000) } }, 1, 9000000, [7], ?_⟩,
    ⟨{ State.reset with cfg := { State.reset.cfg with pwrGood := true } }, ?_⟩, ⟨{ State.reset.toNs 5000000 with keys := [(0, [7])] }, 0, ?_⟩, ⟨.meridianEnable, ?_⟩⟩ <;>
  decide +kernel

theorem witness_EveryStepKeepsKeySlots : ∃ s : State, s.KeysWf ∧ s.keySlot 1 ≠ [] ∧ s.pending = [.keyslotProgrammed] :=
  ⟨{ State.reset with keys := [(1, [7])], pending := [.keyslotProgrammed] }, by unfold State.KeysWf; decide +kernel, by decide +kernel, rfl⟩

theorem witness_AlertLine :
    (∃ (s : State) (b : Nat), b < 32 ∧ bitsOf (s.rdn R.BIN_FAULT) b b = 0 ∧ bitsOf (s.rdn R.BIN_FAULT_MASK) b b = 1) ∧
    (∃ (s : State) (b : Nat), b < 32 ∧ (bitsOf (s.rdn R.BIN_FAULT) b b = 1 ∨ bitsOf (s.rdn R.BIN_FAULT_MASK) b b = 0)) ∧
    (∃ s : State, s.alertN = true) ∧
    (∃ (s : State) (path : BusPath) (b : Nat), s.dark = false ∧ path ≠ .service ∧ b < 11 ∧ s.isl.alert = 2 ^ b) := by
  refine ⟨⟨State.reset.wrn R.BIN_FAULT_MASK 0x400, 10, ?_⟩, ⟨State.reset.wrn R.BIN_FAULT 0x401, 10, ?_⟩, ⟨{ State.reset with isl := { State.reset.isl with alert := 4 } }, ?_⟩,
    ⟨{ State.reset with isl := { State.reset.isl with alert := 2 ^ 10 } }, .pcie, 10, ?_⟩⟩ <;> decide +kernel

theorem witness_RefusedWriteChangesNothing :
    (∃ (s : State) (path : BusPath) (a : Nat) (v : Word) (d : RegDef), s.dark = false ∧ path ≠ .service ∧ a % 4 = 0 ∧ a < 0x1A0000 ∧ regDef a = some d ∧
      ∃ x ∈ d.fields, x.sets = true ∧ bitsOf v.toNat x.hi x.lo ≠ bitsOf (s.begin.oldWord path a) x.hi x.lo ∧
        rngOk x.rng (x.hi + 1 - x.lo) (bitsOf (s.begin.oldWord path a) x.hi x.lo) (bitsOf v.toNat x.hi x.lo) = false) ∧
    (∃ (s : State) (path : BusPath) (a : Nat) (d : RegDef), s.dark = false ∧ path ≠ .service ∧ a % 4 = 0 ∧ a < 0x1A0000 ∧ regDef a = some d ∧
      (∃ x ∈ d.fields, x.acc = .rwl) ∧ s.begin.cfgLocked = true) ∧
    (∃ (fs : List FieldDef) (old new : Nat), fs ≠ [] ∧ ∀ x ∈ fs, bitsOf new x.hi x.lo = bitsOf old x.hi x.lo) := by
  refine ⟨⟨State.reset, .pcie, 0x10030, 0x7F, _, by decide +kernel, by decide, by decide, by decide, rfl, ⟨6, 0, .rw, false, .range 8 119⟩, by decide, by decide, ?_, ?_⟩,
    ⟨mk [(F.CFG_STATUS_STATE, 3)], .pcie, R.MER_CAD_NUM, _, by decide +kernel, by decide, by decide, by decide, rfl, ⟨⟨31, 0, .rwl, false, .any⟩, by decide, rfl⟩, by decide +kernel⟩,
    ⟨[⟨6, 0, .rw, false, .range 8 119⟩], 0x17F, 0x7F, by decide, by decide⟩⟩ <;> decide +kernel

theorem witness_MonitorBins :
    (∃ base v : Int, v < base) ∧ (∃ d shift : Nat, d < 2 ^ shift) ∧ (∃ d shift k : Nat, 2 ^ k * 2 ^ shift ≤ d ∧ d < 2 ^ (k + 1) * 2 ^ shift) ∧
    (∃ (s : State) (m : Nat) (v : Int), m < 64 ∧ -2 ^ 31 ≤ v ∧ v < 2 ^ 31 ∧ s.rdn (R.MON_COUNT m) = 0xFFFFFFFF) :=
  ⟨⟨0, -1, by decide⟩, ⟨3, 2, by decide⟩, ⟨131072, 10, 7, by decide⟩, ⟨State.reset.wrn (R.MON_COUNT 63) 0xFFFFFFFF, 63, 2 ^ 31 - 1, by decide +kernel⟩⟩

theorem witness_CanvasAllocations : ∃ (rs : List CnvReport) (n : Nat), rs.length < n ∧ (∀ r ∈ rs, r.floor ≤ r.cap) ∧ rs ≠ [] :=
  ⟨[{ member := 3, x := 5, t := 9, floor := 2, cap := 9, prev := 0, gdig := 0 }], 65, by decide⟩


end Sys2Proof.Tests
end

section
/-!
SUPPORT. The frame of an operation inside a command: what it leaves alone, how frames compose, and the way from the frame of a command's operation to
the frame `Keeps` of the command.
-/

namespace Sys2Proof.Machine

/-- A part is left alone by an operation inside a command: outputs that the command gave before it stand. -/
def Part.kept (p : Part) (s t : State) : Prop :=
  match p with
  | .out => t.out = s.out
  | p => p.same s t

/-- The frame of an operation inside a command: as `Keeps`, but for outputs given before the operation. -/
def Frame (regs fns : List Nat) (parts : List Part) (s t : State) : Prop :=
  (∀ a, a ∉ regs → t.rd a = s.rd a) ∧ (∀ f, f ∉ fns → t.fn f = s.fn f) ∧ t.pending = s.pending ∧ t.keys = s.keys ∧ ∀ p, p ∉ parts → p.kept s t

theorem Part.kept_refl (p : Part) (s : State) : p.kept s s := by cases p <;> rfl

theorem Part.kept_trans {p : Part} {s t u : State} (h₁ : p.kept s t) (h₂ : p.kept t u) : p.kept s u := by
  cases p <;> exact Eq.trans h₂ h₁

theorem Frame.refl (s : State) : Frame [] [] [] s s := ⟨fun _ _ => rfl, fun _ _ => rfl, rfl, rfl, fun p _ => p.kept_refl s⟩

/-- Two operations in turn change at most what either may change. -/
theorem Frame.trans {r₁ r₂ f₁ f₂ : List Nat} {p₁ p₂ : List Part} {s t u : State} (h₁ : Frame r₁ f₁ p₁ s t) (h₂ : Frame r₂ f₂ p₂ t u) :
    Frame (r₁ ++ r₂) (f₁ ++ f₂) (p₁ ++ p₂) s u := by
  obtain ⟨hr₁, hf₁, hq₁, hk₁, hp₁⟩ := h₁
  obtain ⟨hr₂, hf₂, hq₂, hk₂, hp₂⟩ := h₂
  simp only [Frame, List.mem_append, not_or]
  exact ⟨fun a ha => (hr₂ a ha.2).trans (hr₁ a ha.1), fun f hf => (hf₂ f hf.2).trans (hf₁ f hf.1), hq₂.trans hq₁, hk₂.trans hk₁,
    fun p hp => Part.kept_trans (hp₁ p hp.1) (hp₂ p hp.2)⟩

/-- A frame that allows more. -/
theorem Frame.mono {r₁ r₂ f₁ f₂ : List Nat} {p₁ p₂ : List Part} {s t : State} (h : Frame r₁ f₁ p₁ s t) (hr : r₁ ⊆ r₂) (hf : f₁ ⊆ f₂)
    (hp : p₁ ⊆ p₂) : Frame r₂ f₂ p₂ s t := by
  obtain ⟨hregs, hfns, hq, hk, hparts⟩ := h
  exact ⟨fun a ha => hregs a (fun h => ha (hr h)), fun f h => hfns f (fun g => h (hf g)), hq, hk, fun p h => hparts p (fun g => h (hp g))⟩

/-! ## One operation -/

theorem frame_wr (s : State) (a : Nat) (v : Word) : Frame [a] [] [] s (s.wr a v) :=
  ⟨fun _ hb => rd_wr_ne s v (List.ne_of_not_mem_cons hb), fun _ _ => rfl, rfl, rfl, fun p _ => by cases p <;> rfl⟩

theorem frame_wrn (s : State) (a n : Nat) : Frame [a] [] [] s (s.wrn a n) := frame_wr s a _

theorem frame_raise (s : State) (code detail : Nat) : Frame [] [] [] s (s.raise code detail) :=
  ⟨fun _ _ => rfl, fun _ _ => rfl, rfl, rfl, fun p _ => by cases p <;> rfl⟩

theorem frame_refuse (s : State) (b : Nat) : Frame [] [] [] s (s.refuse b) := frame_raise s _ _

theorem frame_emit (s : State) (o : Out) : Frame [] [] [.out] s (s.emit o) := by
  refine ⟨fun _ _ => rfl, fun _ _ => rfl, rfl, rfl, fun p hp => ?_⟩
  cases p
  case out => exact absurd (List.mem_singleton.mpr rfl) hp
  all_goals rfl

theorem frame_hbmSet (s : State) (a : Nat) (b : Byte) : Frame [] [] [.hbm, .mem] s (s.hbmSet a b) := by
  unfold State.hbmSet
  split
  · exact (Frame.refl s).mono (by simp) (by simp) (by simp)
  · refine ⟨fun _ _ => rfl, fun _ _ => rfl, rfl, rfl, fun p hp => ?_⟩
    cases p
    case hbm | mem => simp at hp
    all_goals rfl

theorem frame_hbmPutBytes (l : List Nat) (s : State) (a : Nat) : Frame [] [] [.hbm, .mem] s (s.hbmPutBytes a l) := by
  induction l generalizing s a with
  | nil => exact (Frame.refl s).mono (by simp) (by simp) (by simp)
  | cons b r ih => exact ((frame_hbmSet s a _).trans (ih _ _)).mono (by simp) (by simp) (by simp)

/-! ## A command -/

@[simp] theorem dark_begin (s : State) : s.begin.dark = s.dark := rfl

/-- The frame of a command from that of its operation: the operation's own, where it raised no event or the log is not part of the frame. -/
theorem keeps_of_frame {regs fns : List Nat} {parts : List Part} {s u : State} (h : Frame regs fns parts s.begin u)
    (hlog : u.evNow = [] ∨ .log ∈ parts) : Keeps regs fns parts s u.finish := by
  obtain ⟨hr, hf, hq, hk, hp⟩ := h
  refine ⟨hr, hf, hq, hk, fun p hmem => ?_⟩
  have hkept := hp p hmem
  cases p
  case log =>
    have hnone : u.evNow = [] := hlog.resolve_right hmem
    exact (finish_log_nil hnone).trans hkept
  all_goals exact hkept

/-- A command completes in what its operation leaves, with the frame of the operation. -/
theorem completes_of_frame {i : Instr} {s u : State} {op : State → State} {P : State → Prop} {regs fns : List Nat} {parts : List Part}
    (hx : exec i s = s.run op) (hop : op s.begin = u) (hf : Frame regs fns parts s.begin u) (hlog : u.evNow = [] ∨ .log ∈ parts)
    (hp : Keeps regs fns parts s u.finish → P u.finish) : Completes i s P := by
  obtain ⟨t, ht, hP⟩ := run_of hop hf.2.2.1 hf.2.2.2.1 (hp (keeps_of_frame hf hlog))
  exact ⟨t, hx.trans ht, hP⟩

end Sys2Proof.Machine
end

section
/-!
PROOFS. A refused register write (R7), the state after reset (R2, R372), and why the staged settings of a channel do not apply alone (R15, R93).
-/

namespace Sys2Proof.Machine

/-! ## A refused register write -/

theorem frame_dropTop (s : State) (a : Nat) : Frame [] [] [.wpend] s (s.dropTop a) := by
  have hdrop (lo n : Nat) : Frame [] [] [.wpend] s (s.dropWide lo n) := by
    refine ⟨fun _ _ => rfl, fun _ _ => rfl, rfl, rfl, fun p hp => ?_⟩
    cases p
    case wpend => simp at hp
    all_goals rfl
  have hsame : Frame [] [] [.wpend] s s := (Frame.refl s).mono (by simp) (by simp) (by simp)
  unfold State.dropTop
  split
  · split
    · exact hdrop _ _
    · exact hsame
  · exact hsame

/-- A write drops no waiting words where its register is no word of a wide value. -/
theorem dropTop_of_narrow {s : State} {a : Nat} (h : wideOf wideWrites a = none) : s.dropTop a = s := by simp [State.dropTop, h]

@[simp] theorem dropTop_evNow (s : State) (a : Nat) : (s.dropTop a).evNow = s.evNow := by
  unfold State.dropTop
  split
  · split <;> rfl
  · rfl

@[simp] theorem dropTop_log (s : State) (a : Nat) : (s.dropTop a).log = s.log :=
  (frame_dropTop s a).2.2.2.2 .log (by decide)

/-- A field that a write changes to a value out of its range fails the check of R7. -/
theorem fieldsOk_eq_false {fs : List FieldDef} {old new : Nat} {x : FieldDef} (hx : x ∈ fs) (hs : x.sets = true)
    (hne : bitsOf new x.hi x.lo ≠ bitsOf old x.hi x.lo)
    (hr : rngOk x.rng (x.hi + 1 - x.lo) (bitsOf old x.hi x.lo) (bitsOf new x.hi x.lo) = false) : fieldsOk fs old new = false := by
  have hwo : x.acc ≠ .wo := by
    intro h
    simp [FieldDef.sets, h] at hs
  simp only [fieldsOk, List.all_eq_false]
  exact ⟨x, hx, by simp [hs, hwo, hne.symm, hr]⟩

/-- Fields that a write leaves as they are pass the check of R7, whatever their range; a WO field stands at 0. -/
theorem fieldsOk_of_unchanged {fs : List FieldDef} {old new : Nat}
    (h : ∀ x ∈ fs, bitsOf new x.hi x.lo = if x.acc = .wo then 0 else bitsOf old x.hi x.lo) : fieldsOk fs old new = true := by
  simp only [fieldsOk, List.all_eq_true]
  intro x hx
  simp [h x hx]

/-- A write that fails a check of R7 drops the waiting words of the wide value whose top word it is, and raises the block's event 0x01. -/
theorem regWrite_refused {s : State} {path : BusPath} {a : Nat} {v : Word} {d : RegDef} (hd : regDef a = some d)
    (h : fieldsOk d.fields (s.oldWord path a) v.toNat = false ∨ ((∃ x ∈ d.fields, x.acc = .rwl) ∧ s.cfgLocked = true)) :
    s.regWrite path a v = (s.dropTop a).refuse (blockOf a) := by
  rcases h with hf | ⟨⟨x, hx, hl⟩, hlock⟩
  · simp [State.regWrite, hd, hf]
  · have hany : d.fields.any (fun x => x.acc == .rwl) = true := List.any_eq_true.mpr ⟨x, hx, by simp [hl]⟩
    simp [State.regWrite, hd, hany, hlock]

/-- A host's write that fails a check of R7 logs the block's event 0x01 and changes nothing but waiting words of a wide value. -/
theorem registerWrite_refused {s : State} {path : BusPath} {a : Nat} {v : Word} {d : RegDef} (hk : s.dark = false) (hp : path ≠ .service)
    (ha : a % 4 = 0) (hlt : a < 0x1A0000) (hd : regDef a = some d)
    (h : fieldsOk d.fields (s.begin.oldWord path a) v.toNat = false ∨ ((∃ x ∈ d.fields, x.acc = .rwl) ∧ s.begin.cfgLocked = true)) :
    Completes (.registerWrite path a v 4) s fun t => Logged [⟨blockOf a * 256 + 1, 0⟩] s t ∧ Keeps [] [] [.log, .wpend] s t ∧
      (wideOf wideWrites a = none → t.wpend = s.wpend) := by
  have hop : s.begin.busWrite path a v 4 = (s.begin.dropTop a).refuse (blockOf a) :=
    (busWrite_reg (s := s.begin) v hp hk ha hlt).trans (regWrite_refused hd h)
  have hf : Frame [] [] [.log, .wpend] s.begin ((s.begin.dropTop a).refuse (blockOf a)) :=
    ((frame_dropTop s.begin a).trans (frame_refuse _ _)).mono (by simp) (by simp) (by simp)
  refine completes_of_frame (op := (·.busWrite path a v 4)) rfl hop hf (.inr (by simp)) fun hkeeps => ⟨?_, hkeeps, fun hn => ?_⟩
  · have hev : ((s.begin.dropTop a).refuse (blockOf a)).evNow = [⟨blockOf a * 256 + 1, 0⟩] := by
      simp [State.refuse, State.raise, State.begin]
    exact finish_logged (by rw [hev]; rfl) (by simp) (by simp) (by simp)
  · simp [dropTop_of_narrow hn]

/-- Settles O58: the two grounds of refusal of R7 lead to the same end. -/
theorem refusedWriteChangesNothing : Obligations.RefusedWriteChangesNothing := by
  unfold Obligations.RefusedWriteChangesNothing
  refine ⟨fun s path a v d hk hp ha hlt hd h => registerWrite_refused hk hp ha hlt hd ?_, fun _ _ _ => fieldsOk_of_unchanged⟩
  rcases h with ⟨x, hx, hs, hne, hr⟩ | hlocked
  · exact .inl (fieldsOk_eq_false hx hs hne hr)
  · exact .inr hlocked

/-! ## The state after reset -/

theorem rd_reset (a : Nat) : State.reset.rd a = resetOf a := rfl

theorem hbmByte_reset (a : Nat) : State.reset.hbmByte a = 0 := by
  unfold State.hbmByte
  split <;> rfl

/-- Settles O3: at reset every table is empty, so that each key reads as an unlisted one does. -/
theorem resetState : Obligations.ResetState := by
  unfold Obligations.ResetState
  refine ⟨fun a d hd => ?_, fun _ => rfl, rfl, fun _ => rfl, hbmByte_reset, rfl, noMon_of_regs rfl, reset_mem_wf, rfl⟩
  rw [rd_reset]
  simp [resetOf, hd]

/-! ## Staged settings and the inputs that a channel times -/

/-- Time that runs on to a position moves the clock alone. -/
theorem toPos_clk {s t : State} {cls v : Nat} (h : s.toPos cls v = some t) : t = { s with clk := t.clk } := by
  simp only [State.toPos, Option.ite_none_left_eq_some] at h
  obtain ⟨-, -, ht⟩ := h
  obtain rfl := Option.some.inj ht
  rfl

/-- Time that runs on to a channel's frame start moves the clock alone. -/
theorem toChanStart_clk {s t : State} {cls n k d : Nat} (h : s.toChanStart cls n = some (t, k, d)) : t = { s with clk := t.clk } := by
  unfold State.toChanStart at h
  split at h
  · exact absurd h (by simp)
  · obtain ⟨u, hu, he⟩ := Option.map_eq_some_iff.mp h
    obtain ⟨rfl, -⟩ := Prod.mk.inj he
    exact toPos_clk hu

/-- Channel 0 has a staged origin and times input 0, which runs and has not yet taken what is in force for the frame that it is in. -/
def stagedWithInput : State :=
  { State.reset.setF (F.ING_IN_STATUS_RUN 0) 1 with
    clk := { State.reset.clk with run := true, hpos := 500 * 2 ^ 32 }
    held := [(R.MER_CH_ORIGIN 0, { inForce := 0, pend := [(0, 0)] })] }

theorem stagedWithInput_frameStart : (stagedWithInput.begin.toChanStart 2 0).map (fun x => x.2.2) = some 294912000 := by decide +kernel

/-- At the frame start of channel 0 the input takes what is in force (R15, R93). -/
theorem stagedWithInput_latches {t : State} (h : exec (.stagedSettingsApply 0) stagedWithInput = .next t) : (t.inp 0).latched = true := by
  have hrun : (match exec (.stagedSettingsApply 0) stagedWithInput with | .next t => (t.inp 0).latched | _ => false) = true := by decide +kernel
  rwa [h] at hrun

/-- Refutes O4 by its clause of STAGED_SETTINGS_APPLY: the command is also where the inputs that the channel times take what is in force, so that the
units of ingest do not stay as they were where such an input runs. -/
theorem not_registerCommandsComplete : ¬ Obligations.RegisterCommandsComplete := by
  unfold Obligations.RegisterCommandsComplete
  rintro ⟨-, -, -, -, -, -, hApply⟩
  obtain ⟨⟨t, k, d⟩, hstart, hd⟩ := Option.map_eq_some_iff.mp stagedWithInput_frameStart
  obtain rfl : d = 294912000 := hd
  have hclk : stagedWithInput.begin.toChanStart 2 0 = some ({ stagedWithInput.begin with clk := t.clk }, k, 294912000) := by
    rw [← toChanStart_clk hstart, hstart]
  obtain ⟨u, hu, -, -, -, hkeeps⟩ := hApply stagedWithInput 0 k 294912000 0 0 t.clk (by decide) hclk rfl rfl (by decide)
  obtain ⟨-, -, -, -, hparts⟩ := hkeeps
  have hing : u.ing = stagedWithInput.ing := hparts .ing (by decide)
  have hbefore : (u.inp 0).latched = false := by
    rw [State.inp, hing]
    rfl
  exact absurd (stagedWithInput_latches hu) (by simp [hbefore])

end Sys2Proof.Machine
end

section
/-!
PROOFS. The PCIe endpoint and the table windows (R299, R420-R422, R446): BAR4 accesses, MSI-X vectors, the link's status, window accesses.
-/

namespace Sys2Proof.Machine

/-! ## Memory reads -/

@[simp] theorem hbmBytes_begin (s : State) (a n : Nat) : s.begin.hbmBytes a n = s.hbmBytes a n := by
  induction n generalizing a with
  | zero => rfl
  | succ n ih => exact congrArg _ (ih (a + 1))

@[simp] theorem hbmNat_begin (s : State) (a n : Nat) : s.begin.hbmNat a n = s.hbmNat a n := by
  induction n generalizing a with
  | zero => rfl
  | succ n ih => exact congrArg (fun m => (s.hbmByte a).toNat + 256 * m) (ih (a + 1))

@[simp] theorem hbmNat_finish (s : State) (a n : Nat) : s.finish.hbmNat a n = s.hbmNat a n := by
  induction n generalizing a with
  | zero => rfl
  | succ n ih => exact congrArg (fun m => (s.hbmByte a).toNat + 256 * m) (ih (a + 1))

/-! ## Memory writes -/

@[simp] theorem leBytes_length (v n : Nat) : (leBytes v n).length = n := by
  induction n generalizing v with
  | zero => rfl
  | succ n ih => exact congrArg Nat.succ (ih (v / 256))

/-- A number is written as the list of its little-endian bytes (R10). -/
theorem hbmPut_eq_putBytes (s : State) (a v n : Nat) : s.hbmPut a v n = s.hbmPutBytes a (leBytes v n) := by
  induction n generalizing s a v with
  | zero => rfl
  | succ n ih =>
    have hbyte : BitVec.ofNat 8 (v % 256) = BitVec.ofNat 8 v := BitVec.eq_of_toNat_eq (by simp)
    rw [State.hbmPut, ih, leBytes, State.hbmPutBytes, hbyte]

/-- A number written where there is no hole is read back, as far as its bytes go. -/
theorem hbmNat_hbmPut (s : State) (a v n : Nat) (ha : a + n ≤ 2 ^ 38) (hh : ∀ i, i < n → inHole (a + i) = false) :
    (s.hbmPut a v n).hbmNat a n = v % 256 ^ n := by
  induction n generalizing s a v with
  | zero => simp [State.hbmNat, Nat.mod_one]
  | succ n ih =>
    have hlow : ((s.hbmSet a (BitVec.ofNat 8 v)).hbmPut (a + 1) (v / 256) n).hbmByte a = BitVec.ofNat 8 v := by
      rw [hbmPut_eq_putBytes, hbmByte_hbmPutBytes_ne _ _ _ _ (by omega) (by simp; omega) (by omega)]
      exact hbmByte_hbmSet_same s a _ (hh 0 (by omega))
    have hhigh := ih (s.hbmSet a (BitVec.ofNat 8 v)) (a + 1) (v / 256) (by omega)
      (fun i hi => by rw [Nat.add_assoc, Nat.add_comm 1 i]; exact hh (i + 1) (by omega))
    rw [State.hbmPut, State.hbmNat, hlow, hhigh, Nat.pow_succ', Nat.mod_mul]
    simp

/-- Writing a list of bytes changes the bytes of HBM alone, of all that the stacks hold. -/
theorem hbmPutBytes_hbm (l : List Nat) (s : State) (a : Nat) : (s.hbmPutBytes a l).hbm = { s.hbm with mem := (s.hbmPutBytes a l).hbm.mem } := by
  induction l generalizing s a with
  | nil => rfl
  | cons b r ih =>
    have hset : (s.hbmSet a (BitVec.ofNat 8 b)).hbm = { s.hbm with mem := (s.hbmSet a (BitVec.ofNat 8 b)).hbm.mem } := by
      unfold State.hbmSet
      split <;> rfl
    rw [State.hbmPutBytes, ih, hset]

theorem hbmPutBytes_evNow (l : List Nat) (s : State) (a : Nat) : (s.hbmPutBytes a l).evNow = s.evNow := by
  induction l generalizing s a with
  | nil => rfl
  | cons b r ih =>
    rw [State.hbmPutBytes, ih]
    unfold State.hbmSet
    split <;> rfl

theorem keepsMem_hbmPutBytes (l : List Nat) (s : State) (a : Nat) (ha : a + l.length ≤ 2 ^ 38) :
    KeepsMem [(a, l.length)] s (s.begin.hbmPutBytes a l).finish := by
  intro b hb hout
  exact hbmByte_hbmPutBytes_ne l s.begin a b hb ha (hout _ (List.mem_singleton.mpr rfl))

/-! ## BAR4 -/

@[simp] theorem hbmUp_hbmSet (s : State) (a c : Nat) (b : Byte) : (s.hbmSet a b).hbmUp c = s.hbmUp c := by
  unfold State.hbmSet
  split <;> rfl

/-- A range that no hole touches, in stacks that answer. -/
theorem barRange {s : State} {a n : Nat} (h : (List.range n).all (fun i => !inHole (a + i) && s.hbmUp (a + i)) = true) :
    (∀ i, i < n → inHole (a + i) = false) ∧ (∀ i, i < n → s.hbmUp (a + i) = true) := by
  simp only [List.all_eq_true, List.mem_range, Bool.and_eq_true, Bool.not_eq_true'] at h
  exact ⟨fun i hi => (h i hi).1, fun i hi => (h i hi).2⟩

theorem any_inHole_eq_false {a n : Nat} (h : ∀ i, i < n → inHole (a + i) = false) : (List.range n).any (fun i => inHole (a + i)) = false := by
  simpa using h

/-- A read of stacks that answer gives their bytes and changes nothing. -/
theorem bar4Bytes_up {s : State} {a n : Nat} (h : ∀ i, i < n → s.hbmUp (a + i) = true) : s.bar4Bytes a n = (s.hbmBytes a n, s) := by
  induction n generalizing a with
  | zero => rfl
  | succ n ih =>
    have h0 : s.hbmUp a = true := h 0 (by omega)
    have hrest := ih (a := a + 1) (fun i hi => by rw [Nat.add_assoc, Nat.add_comm 1 i]; exact h (i + 1) (by omega))
    simp [State.bar4Bytes, State.hbmBytes, h0, hrest]

/-- A write to stacks that answer puts its bytes. -/
theorem bar4Put_up {s : State} {a : Nat} {l : List Nat} (h : ∀ i, i < l.length → s.hbmUp (a + i) = true) : s.bar4Put a l = s.hbmPutBytes a l := by
  induction l generalizing s a with
  | nil => rfl
  | cons b r ih =>
    have h0 : s.hbmUp a = true := h 0 (by simp)
    rw [State.bar4Put, if_pos h0, State.hbmPutBytes]
    refine ih fun i hi => ?_
    rw [hbmUp_hbmSet, Nat.add_assoc, Nat.add_comm 1 i]
    exact h (i + 1) (by simpa using hi)

/-- BAR4_ACCESS, a read. -/
theorem bar4Read_completes {s : State} {a n : Nat} (hk : s.dark = false)
    (h : (List.range n).all (fun i => !inHole (a + i) && s.hbmUp (a + i)) = true) :
    Completes (.bar4Access a false n []) s fun t => t.out = [.bar4 (s.hbmBytes a n)] ∧ Keeps [] [] [.out] s t := by
  obtain ⟨hhole, hup⟩ := barRange h
  have hbytes : s.begin.bar4Bytes a n = (s.hbmBytes a n, s.begin) := by
    rw [bar4Bytes_up (s := s.begin) hup, hbmBytes_begin]
  have hop : s.begin.bar4 a false n [] = s.begin.emit (.bar4 (s.hbmBytes a n)) := by
    simp [State.bar4, hk, any_inHole_eq_false hhole, hbytes, -List.any_eq_true, -List.any_eq_false]
  exact completes_of_frame (op := (·.bar4 a false n [])) rfl hop (frame_emit _ _) (.inl rfl) fun hkeeps => ⟨rfl, hkeeps⟩

/-- BAR4_ACCESS, a write. -/
theorem bar4Write_completes {s : State} {a : Nat} {l : List Nat} (hk : s.dark = false) (ha : a + l.length ≤ 2 ^ 38)
    (h : (List.range l.length).all (fun i => !inHole (a + i) && s.hbmUp (a + i)) = true) :
    Completes (.bar4Access a true 0 l) s fun t => (∀ i : Nat, i < l.length → t.hbmByte (a + i) = BitVec.ofNat 8 (l.getD i 0)) ∧
      KeepsMem [(a, l.length)] s t ∧ t.hbm = { s.hbm with mem := t.hbm.mem } ∧ Keeps [] [] [.hbm, .mem] s t := by
  obtain ⟨hhole, hup⟩ := barRange h
  have hput : s.begin.bar4Put a l = s.begin.hbmPutBytes a l := bar4Put_up hup
  have hop : s.begin.bar4 a true 0 l = s.begin.hbmPutBytes a l := by
    simp [State.bar4, hk, any_inHole_eq_false hhole, hput, -List.any_eq_true, -List.any_eq_false]
  refine completes_of_frame (op := (·.bar4 a true 0 l)) rfl hop (frame_hbmPutBytes _ _ _) (.inl (hbmPutBytes_evNow l _ a)) fun hkeeps =>
    ⟨fun i hi => ?_, keepsMem_hbmPutBytes l s a ha, hbmPutBytes_hbm l s.begin a, hkeeps⟩
  exact hbmByte_hbmPutBytes_get l s.begin a i ha hi (hhole i hi)

/-! ## MSI-X and the link -/

/-- Vector `v` is due no more, and its last message is of now (R422). -/
def State.msixSent (s : State) (v : Nat) : State :=
  { s with log := { s.log with vecs := s.log.vecs.filter (fun x => x != v) }
           sx := { s.sx with msix := Tab.put (fun _ => (none : Option Nat)) s.sx.msix v (some s.clk.ns) } }

theorem frame_msixSent (s : State) (v : Nat) : Frame [] [] [.log, .sx] s (s.msixSent v) := by
  refine ⟨fun _ _ => rfl, fun _ _ => rfl, rfl, rfl, fun p hp => ?_⟩
  cases p
  case log | sx => simp at hp
  all_goals rfl

theorem msixSent_msix (s : State) (v : Nat) : Tab.get (fun _ => (none : Option Nat)) (s.msixSent v).sx.msix v = some s.clk.ns :=
  Tab.get_put_same (fun _ => none) s.sx.msix v (some s.clk.ns)

/-- A vector that is due and has sent no message fires at once. -/
theorem msixFire_first {s : State} {v : Nat} (hk : s.dark = false) (hv : s.log.vecs.contains v = true)
    (hn : Tab.get (fun _ => (none : Option Nat)) s.sx.msix v = none) : s.msixFire v = (s.msixSent v).emit (.msix v) := by
  simp only [State.msixFire, hk, hv, hn]
  rfl

/-- MSIX_VECTOR_FIRE, for a vector that has sent no message. -/
theorem msixFirst_completes {s : State} {v : Nat} (hk : s.dark = false) (hv : s.log.vecs.contains v = true)
    (hn : Tab.get (fun _ => (none : Option Nat)) s.sx.msix v = none) :
    Completes (.msixVectorFire v) s fun t => t.out = [.msix v] ∧ t.log = { s.log with vecs := s.log.vecs.filter (fun x => x != v) } ∧
      Tab.get (fun _ => (none : Option Nat)) t.sx.msix v = some s.clk.ns ∧ Keeps [] [] [.out, .log, .sx] s t := by
  have hf : Frame [] [] [.out, .log, .sx] s.begin ((s.begin.msixSent v).emit (.msix v)) :=
    ((frame_msixSent _ v).trans (frame_emit _ _)).mono (by simp) (by simp) (by simp)
  exact completes_of_frame (op := (·.msixFire v)) rfl (msixFire_first (s := s.begin) hk hv hn) hf (.inl rfl) fun hkeeps =>
    ⟨rfl, finish_log_nil rfl, msixSent_msix s.begin v, hkeeps⟩

/-- What BIN_PCIE_STATUS holds for a link's state (R420). -/
def pcieStatusWord (up : Bool) (w g : Nat) : Nat := if up then 1 + w * 2 + g * 32 else 0

theorem pcieStatusWord_lt {up : Bool} {w g : Nat} (hw : w < 16) (hg : g < 8) : pcieStatusWord up w g < 256 := by
  unfold pcieStatusWord
  split <;> omega

/-- The fields of BIN_PCIE_STATUS: LINK, WIDTH, SPEED. -/
theorem pcieStatusWord_fields {up : Bool} {w g : Nat} (hw : w < 16) (hg : g < 8) :
    (bitsOf (pcieStatusWord up w g) 0 0 == 1) = up ∧ (bitsOf (pcieStatusWord up w g) 4 1 = if up then w else 0) ∧
      (bitsOf (pcieStatusWord up w g) 7 5 = if up then g else 0) := by
  cases up
  case false => simp [pcieStatusWord, bitsOf]
  case true =>
    simp only [pcieStatusWord, bitsOf, beq_iff_eq, ↓reduceIte]
    omega

/-- PCIE_LINK_CHANGE, for a change. -/
theorem pcieLinkChange_completes {s : State} {up : Bool} {w g : Nat} (hk : s.dark = false) (hw : w < 16) (hg : g < 8)
    (hne : s.rdn R.BIN_PCIE_STATUS ≠ if up then 1 + w * 2 + g * 32 else 0) :
    Completes (.pcieLinkChange up w g) s fun t => t.on F.BIN_PCIE_STATUS_LINK = up ∧ (t.f F.BIN_PCIE_STATUS_WIDTH = if up then w else 0) ∧
      (t.f F.BIN_PCIE_STATUS_SPEED = if up then g else 0) ∧ Logged [⟨0x010C, 0⟩] s t ∧ Keeps [R.BIN_PCIE_STATUS] [] [.log] s t := by
  have hop : s.begin.pcieLink up w g = (s.begin.wrn R.BIN_PCIE_STATUS (pcieStatusWord up w g)).raise 0x010C 0 := by
    simp only [State.pcieLink, dark_begin, hk, Nat.mod_eq_of_lt hw, Nat.mod_eq_of_lt hg, rdn_begin, if_neg hne]
    rfl
  have hf := ((frame_wrn s.begin R.BIN_PCIE_STATUS (pcieStatusWord up w g)).trans (frame_raise _ 0x010C 0)).mono (r₂ := [R.BIN_PCIE_STATUS])
    (f₂ := []) (p₂ := [.log]) (by simp) (by simp) (by simp)
  have hrd : (((s.begin.wrn R.BIN_PCIE_STATUS (pcieStatusWord up w g)).raise 0x010C 0).finish).rdn R.BIN_PCIE_STATUS = pcieStatusWord up w g := by
    rw [rdn_finish, rdn_raise, rdn_wrn_same]
    exact Nat.mod_eq_of_lt (Nat.lt_trans (pcieStatusWord_lt hw hg) (by decide))
  obtain ⟨hlink, hwidth, hspeed⟩ := pcieStatusWord_fields (up := up) hw hg
  refine completes_of_frame (op := (·.pcieLink up w g)) rfl hop hf (.inr (by simp)) fun hkeeps => ⟨?_, ?_, ?_, ?_, hkeeps⟩
  · rw [State.on, State.f, hrd, hlink]
  · rw [State.f, hrd, hwidth]
  · rw [State.f, hrd, hspeed]
  · exact finish_logged rfl ⟨rfl, rfl⟩ (by decide) (by decide)

/-! ## The Mesh Table window -/

/-- Where a window access reaches HBM, it reaches no hole and the check of its address changes nothing. -/
theorem winHbm_some {s : State} {path : BusPath} {a p : Nat} (h : (s.winHbm path a).1 = some p) : s.winHbm path a = (some p, s) ∧ inHole p = false := by
  -- every branch but the last answers no address, against `h`
  unfold State.winHbm at h ⊢
  dsimp only at h ⊢
  split_ifs at h ⊢ <;> simp_all

theorem winHbm_begin (s : State) (path : BusPath) (a : Nat) : (s.begin.winHbm path a).1 = (s.winHbm path a).1 := by
  simp only [State.winHbm, apply_ite Prod.fst]
  rfl

/-- WINDOW_READ in the Mesh Table window. -/
theorem windowRead_completes {s : State} {a p : Nat} (hk : s.dark = false) (hlo : 0x800000 ≤ a) (hhi : a < 0xA00000) (ha : a % 4 = 0)
    (hw : (s.winHbm .pcie a).1 = some p) :
    Completes (.windowRead .pcie a) s fun t => t.out = [.read .pcie a (BitVec.ofNat 32 (s.hbmNat p 4))] ∧ Keeps [] [] [.out] s t := by
  have hdead := dead_of_dark hk
  have ha4 : a / 4 * 4 = a := by omega
  obtain ⟨hwin, -⟩ := winHbm_some ((winHbm_begin s .pcie a).trans hw)
  have hbus : s.begin.busRead .pcie a = (BitVec.ofNat 32 (s.hbmNat p 4), s.begin) := by
    have h1 : ¬a < 0x1A0000 := by omega
    have h2 : ¬a < 0x600000 := by omega
    have h3 : a < 0x1000000 := by omega
    simp [State.busRead, State.windowRead, ha4, hdead, hk, h1, h2, h3, hlo, hhi, hwin]
  have hop : s.begin.readOut .pcie a = s.begin.emit (.read .pcie a (BitVec.ofNat 32 (s.hbmNat p 4))) := by
    rw [State.readOut, hbus]
  exact completes_of_frame (op := (·.readOut .pcie a)) rfl hop (frame_emit _ _) (.inl rfl) fun hkeeps => ⟨rfl, hkeeps⟩

/-- Four bytes whose first and last lie in no hole: a hole does not begin and end between them (R299). -/
theorem inHole_of_ends {p : Nat} (h0 : inHole p = false) (h3 : inHole (p + 3) = false) : ∀ i, i < 4 → inHole (p + i) = false := by
  simp only [inHole, decide_eq_false_iff_not] at *
  omega

/-- MESH_WINDOW_WRITE. -/
theorem meshWindowWrite_completes {s : State} {a p : Nat} {v : Word} (hk : s.dark = false) (hlo : 0x800000 ≤ a) (hhi : a < 0xA00000) (ha : a % 4 = 0)
    (hw : (s.winHbm .pcie a).1 = some p) (hp : p + 4 ≤ 2 ^ 38) (hend : inHole (p + 3) = false) :
    Completes (.meshWindowWrite .pcie a v) s fun t => t.hbmNat p 4 = v.toNat ∧ KeepsMem [(p, 4)] s t ∧ t.hbm = { s.hbm with mem := t.hbm.mem } ∧
      Keeps [] [] [.hbm, .mem] s t := by
  have hdead := dead_of_dark hk
  have ha4 : a / 4 * 4 = a := by omega
  obtain ⟨hwin, hhole⟩ := winHbm_some ((winHbm_begin s .pcie a).trans hw)
  have hop : s.begin.busWrite .pcie a v 4 = s.begin.hbmPut p v.toNat 4 := by
    have h1 : ¬a < 0x1A0000 := by omega
    have h3 : a < 0x1000000 := by omega
    simp [State.busWrite, State.windowWrite, ha4, hdead, hk, h1, h3, hlo, hhi, hwin]
  have hread : (s.begin.hbmPut p v.toNat 4).hbmNat p 4 = v.toNat := by
    rw [hbmNat_hbmPut _ _ _ _ hp (inHole_of_ends hhole hend)]
    exact Nat.mod_eq_of_lt v.isLt
  rw [hbmPut_eq_putBytes] at hop hread
  have hmem := keepsMem_hbmPutBytes (leBytes v.toNat 4) s p (by simpa using hp)
  rw [leBytes_length] at hmem
  exact completes_of_frame (op := (·.busWrite .pcie a v 4)) rfl hop (frame_hbmPutBytes _ _ _) (.inl (hbmPutBytes_evNow _ _ p)) fun hkeeps =>
    ⟨(hbmNat_finish _ _ _).trans hread, hmem, hbmPutBytes_hbm _ s.begin p, hkeeps⟩

/-- Settles O53, clause by clause. -/
theorem hostAccessCommandsComplete : Obligations.HostAccessCommandsComplete := by
  unfold Obligations.HostAccessCommandsComplete
  exact ⟨fun _ _ _ => bar4Read_completes, fun _ _ _ => bar4Write_completes, fun _ _ => msixFirst_completes,
    fun _ _ _ _ => pcieLinkChange_completes, fun _ _ _ => windowRead_completes, fun _ _ _ _ => meshWindowWrite_completes⟩

end Sys2Proof.Machine
end

section
/-!
PROOFS. The drain of a composition channel (R14): it waits while the next picture to compose starts before the stop, and where the cadence has no
lines every picture starts at position 0.
-/

namespace Sys2Proof.Machine

/-! ## Channel frames of a cadence without lines -/

/-- Where a Meridian frame has no lines, every channel frame starts at position 0. -/
theorem chanStart_of_no_lines {s : State} (h : s.clk.lm = 0) (n k : Nat) : s.chanStart n k = 0 := by
  simp [State.chanStart, Clock.fu, h]

theorem chanFrom_start_of_no_lines {s : State} (h : s.clk.lm = 0) (n v : Nat) : (s.chanFrom n v).2 = 0 := by
  unfold State.chanFrom
  dsimp only
  split <;> exact chanStart_of_no_lines h n _

/-- Between two pictures, the next one to compose then starts at position 0 too. -/
theorem compNext_start_of_no_lines {s : State} {c : Nat} (h : s.clk.lm = 0) (hrow : (s.cmp c).row = 0) : (s.compNext c).startV = 0 := by
  simp [State.compNext, hrow, chanFrom_start_of_no_lines h]

/-! ## A drain that waits -/

/-- The drain waits while the next picture to compose starts before the stop (R14). -/
theorem compDrained_of_next_before_stop {s : State} {c e w : Nat} (hend : (s.cmp c).endV = some e) (hstop : (s.cmp c).stopV = some w)
    (hnext : (s.compNext c).startV < w) : s.compDrained c = s := by
  simp [State.compDrained, hend, hstop, Nat.not_le.mpr hnext]

/-- COMPOSITION_DRAINED, for a drain that waits: the function stays in the state that it is in. -/
theorem compositionDrained_waits {s : State} {c : Nat} (hwaits : s.begin.compDrained c = s.begin) :
    Completes (.compositionDrained c) s fun t => t.fn (fnComp c) = s.fn (fnComp c) := by
  have hop : s.begin.idx c 32 (·.compDrained c) = s.begin := by simp [State.idx, hwaits]
  exact run_of (op := (·.idx c 32 (·.compDrained c))) hop rfl rfl rfl

/-- Channel 5 drains: it was stopped at 600, its last picture is composed by 9000, and the next one was to start at 700; the cadence has no lines. -/
def drainingNoLines : State :=
  { State.reset with
    clk := { State.reset.clk with run := true, lm := 0 }
    fns := [(fnComp 5, .draining)]
    comp := { State.reset.comp with chs := [(5, { started := true, startV := 700, stopV := some 600, endV := some 9000 })] } }

theorem drainingNoLines_waits : drainingNoLines.begin.compDrained 5 = drainingNoLines.begin := by
  have hstart : (drainingNoLines.begin.compNext 5).startV = 0 := compNext_start_of_no_lines rfl rfl
  exact compDrained_of_next_before_stop (e := 9000) (w := 600) rfl rfl (by rw [hstart]; decide)

/-- Refutes O15 by its clause of COMPOSITION_DRAINED: the clause asks that the start held in `startV` be no earlier than the stop, but between two
pictures the command reckons the next start anew from it. With no lines in the cadence, which the clause admits, that start is position 0, so that the
channel does not enter OFF. -/
theorem not_compositionRowCommandsComplete : ¬ Obligations.CompositionRowCommandsComplete := by
  unfold Obligations.CompositionRowCommandsComplete
  rintro ⟨-, -, -, -, hDrained⟩
  obtain ⟨t, ht, hoff, -⟩ := hDrained drainingNoLines 5 9000 600 _ (by decide) rfl rfl rfl (by decide) rfl rfl rfl
  obtain ⟨u, hu, hfn⟩ := compositionDrained_waits drainingNoLines_waits
  obtain rfl : t = u := Host.Outcome.next.inj (ht.symm.trans hu)
  have hdraining : drainingNoLines.fn (fnComp 5) = .draining := rfl
  rw [hoff, hdraining] at hfn
  exact absurd hfn (by decide)

end Sys2Proof.Machine
end

section
/-!
SUPPORT. Frames of the operations that commands are made of, and what a frame leaves readable.
-/

namespace Sys2Proof.Machine

/-! ## Frames of single operations -/

theorem frame_setF (s : State) (x : Fld) (v : Nat) : Frame [x.addr] [] [] s (s.setF x v) := frame_wrn s _ _

theorem frame_bump (s : State) (a : Nat) : Frame [a] [] [] s (s.bump a) := frame_wrn s _ _

theorem frame_wrMax (s : State) (a n : Nat) : Frame [a] [] [] s (s.wrMax a n) := by
  unfold State.wrMax
  split
  · exact frame_wrn s a n
  · exact (Frame.refl s).mono (by simp) (by simp) (by simp)

theorem frame_clk (s : State) (c : Clock) : Frame [] [] [.clk] s { s with clk := c } := by
  refine ⟨fun _ _ => rfl, fun _ _ => rfl, rfl, rfl, fun p hp => ?_⟩
  cases p
  case clk => simp at hp
  all_goals rfl

theorem frame_mer (s : State) (m : MerSt) : Frame [] [] [.mer] s { s with mer := m } := by
  refine ⟨fun _ _ => rfl, fun _ _ => rfl, rfl, rfl, fun p hp => ?_⟩
  cases p
  case mer => simp at hp
  all_goals rfl

/-! ## What a frame leaves readable -/

section
variable {regs fns : List Nat} {parts : List Part} {s t : State}

/-- A field of a register outside the frame reads as before. -/
theorem Frame.f_eq (h : Frame regs fns parts s t) {y : Fld} (hy : y.addr ∉ regs) : t.f y = s.f y := by
  obtain ⟨hregs, -⟩ := h
  rw [State.f, State.f, State.rdn, State.rdn, hregs _ hy]

theorem Frame.on_eq (h : Frame regs fns parts s t) {y : Fld} (hy : y.addr ∉ regs) : t.on y = s.on y := by
  rw [State.on, State.on, h.f_eq hy]

theorem Frame.part (h : Frame regs fns parts s t) {p : Part} (hp : p ∉ parts) : p.kept s t := by
  obtain ⟨-, -, -, -, hparts⟩ := h
  exact hparts p hp

/-- An operation whose registers lie below those of the monitor units starts no monitor unit. -/
theorem Frame.noMon (h : Frame regs fns parts s t) (hr : ∀ a ∈ regs, a < 0x170000) (hs : s.NoMon) : t.NoMon := by
  intro m hm
  have hout : (F.MON_STATUS_RUN m).addr ∉ regs := fun hmem => by
    have hlt : R.MON_STATUS m < 0x170000 := hr _ hmem
    simp only [R.MON_STATUS] at hlt
    omega
  rw [h.on_eq hout, hs m hm]

end

end Sys2Proof.Machine
end

section
/-!
PROOFS. Time that runs on with no command waiting (R32), and when a waiting failure of the Meridian is acted on (R46): once one has been acted on at a
frame start, the next one waits for the frame start after it.
-/

namespace Sys2Proof.Machine

/-! ## A tick (R32) -/

theorem Clock.elapseNs_stc (c : Clock) (n : Nat) : (c.elapseNs n).stc = c.stc + n := by
  simp only [Clock.elapseNs]
  split
  · split
    · split <;> rfl
    · rfl
  · rfl

/-- The Meridian never runs back (R32). -/
theorem Clock.hpos_le_elapseNs (c : Clock) (n : Nat) : c.hpos ≤ (c.elapseNs n).hpos := by
  simp only [Clock.elapseNs]
  split
  · split
    · split
      · exact Nat.le_max_left _ _
      · exact Nat.le_add_right _ _
    · exact Nat.le_add_right _ _
  · exact Nat.le_refl _

/-- A tick changes the clock alone. -/
theorem keeps_tick (s : State) : Keeps [] [] [.clk] s s.tick := by
  refine ⟨fun _ _ => rfl, fun _ _ => rfl, rfl, rfl, fun p hp => ?_⟩
  cases p
  case clk => simp at hp
  all_goals rfl

/-- Settles O2: the step is a tick, which is time that runs on to the next edge of MTCLK. -/
theorem emptyQueueTick : Obligations.EmptyQueueTick := by
  unfold Obligations.EmptyQueueTick
  intro s hq
  have hstep : step s = .next s.tick := by rw [step, hq]
  exact ⟨s.tick, hstep, elapseNs_ns s.begin _, Clock.elapseNs_stc s.clk _, Clock.hpos_le_elapseNs s.clk _, keeps_tick s⟩

/-! ## A failure after another (R46) -/

/-- At the frame start at which a failure has been acted on, no second one is (R46). -/
theorem failureV_of_acted {s : State} (h : s.mer.actedV = some (s.clk.nextOf 1 0 s.clk.fu 0)) :
    s.failureV = s.clk.nextOf 1 0 s.clk.fu 0 + s.clk.fu := by
  rw [State.failureV, if_pos h]

/-- A stop of the followed REF_IN waits, and the Meridian stands at the start of frame 1, where it has just acted on another failure. -/
def stopAfterAction : State :=
  { (State.reset.setF F.MER_STATUS_SRC 3).setF F.MER_CTL_AUTO 0 with
    clk := { State.reset.clk with run := true, hpos := 294912000 * 2 ^ 32, clsAt := 294912001, cls := 1 }
    mer := { State.reset.mer with pendStop := true, actedV := some 294912000 } }

theorem stopAfterAction_nextOf : stopAfterAction.clk.nextOf 1 0 stopAfterAction.clk.fu 0 = 294912000 := by decide +kernel

/-- The stop is acted on one frame of 294,912,000 fraction units later. -/
theorem stopAfterAction_failureV : stopAfterAction.failureV = 589824000 := by
  rw [failureV_of_acted (by rw [stopAfterAction_nextOf]; rfl), stopAfterAction_nextOf]
  rfl

theorem stopAfterAction_frameStart : (stopAfterAction.begin.toPhase 1 0).map (·.clk.vpos) = some 294912000 := by decide +kernel

/-- So that time has run on to there when the command completes. -/
theorem stopAfterAction_acts {t : State} (h : exec .meridianFailureAction stopAfterAction = .next t) : stopAfterAction.failureV ≤ t.clk.vpos := by
  have hrun : (match exec .meridianFailureAction stopAfterAction with | .next t => decide (589824000 ≤ t.clk.vpos) | _ => false) = true := by
    decide +kernel
  rw [h] at hrun
  rw [stopAfterAction_failureV]
  exact of_decide_eq_true hrun

/-- Refutes O5 by its clause of MERIDIAN_FAILURE_ACTION: the clause has the Meridian act at the first frame start not yet passed, but where a failure
has already been acted on at that frame start, the command waits for the one after it. -/
theorem not_meridianReferenceCommandsComplete : ¬ Obligations.MeridianReferenceCommandsComplete := by
  unfold Obligations.MeridianReferenceCommandsComplete
  rintro ⟨-, -, -, hAction, -⟩
  obtain ⟨u, hstart, hvpos⟩ := Option.map_eq_some_iff.mp stopAfterAction_frameStart
  have hclk : stopAfterAction.begin.toPhase 1 0 = some { stopAfterAction.begin with clk := u.clk } := by
    rw [← toPos_clk hstart, hstart]
  obtain ⟨t, ht, -, -, -, -, -, ht_vpos, -⟩ := hAction stopAfterAction u.clk rfl hclk rfl (by decide +kernel) rfl (by decide +kernel) (by decide +kernel)
  have hlate := stopAfterAction_acts ht
  rw [ht_vpos, hvpos, stopAfterAction_failureV] at hlate
  exact absurd hlate (by decide)

end Sys2Proof.Machine
end

section
/-!
PROOFS. Commands that change the Meridian's source, its frame count and its time flits (R38, R39, R41, R48).
-/

namespace Sys2Proof.Machine

/-! ## The phase error acted on (R41) -/

theorem frame_slewBy (s : State) (e : Int) : Frame [R.MER_STATUS, R.MER_PHASE_ERR] [] [.clk] s (s.slewBy e) := by
  unfold State.slewBy
  dsimp only
  split
  · exact (((frame_wrn s _ _).trans (frame_setF _ F.MER_STATUS_STATE 1)).trans (frame_clk _ _)).mono (by simp) (by simp) (by simp)
  · exact (((frame_wrn s _ _).trans (frame_setF _ F.MER_STATUS_STATE 2)).trans (frame_clk _ _)).mono (by simp) (by simp) (by simp)

theorem frame_stepPending (s : State) (v : Nat) : Frame [R.MER_STATUS] [] [.clk] s (s.stepPending v) :=
  ((frame_setF s F.MER_STATUS_STATE 3).trans (frame_clk _ _)).mono (by simp) (by simp) (by simp)

/-- STATE and SRC share no bit of MER_STATUS. -/
theorem f_src_setF_state (s : State) (v : Nat) : (s.setF F.MER_STATUS_STATE v).f F.MER_STATUS_SRC = s.f F.MER_STATUS_SRC :=
  f_setF_bits s v rfl (by decide) (by decide) (by decide)

theorem f_src_slewBy (s : State) (e : Int) : (s.slewBy e).f F.MER_STATUS_SRC = s.f F.MER_STATUS_SRC := by
  have hne : F.MER_STATUS_SRC.addr ≠ R.MER_PHASE_ERR := by decide
  unfold State.slewBy
  dsimp only
  split
  · exact (f_src_setF_state (s.wrn R.MER_PHASE_ERR (sat32 e)) 1).trans (f_wrn_ne s _ hne)
  · exact (f_src_setF_state (s.wrn R.MER_PHASE_ERR (sat32 e)) 2).trans (f_wrn_ne s _ hne)

theorem f_src_stepPending (s : State) (v : Nat) : (s.stepPending v).f F.MER_STATUS_SRC = s.f F.MER_STATUS_SRC := f_src_setF_state s 3

@[simp] theorem slewBy_evNow (s : State) (e : Int) : (s.slewBy e).evNow = s.evNow := by
  unfold State.slewBy
  dsimp only
  split <;> rfl

/-- Steering stays with a domain that is the one R56 names. -/
theorem updateSteer_of_wanted {s : State} (h : s.steerWanted = s.ptp.steer) : s.updateSteer = s := by simp [State.updateSteer, h]

/-- To act on the phase error of a source that brings no other steering is to slew or to take the step path. -/
theorem acquire_cases {s : State} {src : Nat} (hm : s.NoMon) (hsteer : (s.setF F.MER_STATUS_SRC src).steerWanted = s.ptp.steer) :
    s.acquire src = (s.setF F.MER_STATUS_SRC src).slewBy (s.phaseError src) ∨
      s.acquire src = ((s.setF F.MER_STATUS_SRC src).wrn R.MER_PHASE_ERR (sat32 (s.phaseError src))).stepPending s.clk.nextFrameV := by
  have hmon : (s.setF F.MER_STATUS_SRC src).NoMon := (frame_setF s F.MER_STATUS_SRC src).noMon (by decide) hm
  simp only [State.acquire, updateSteer_of_wanted (s := s.setF F.MER_STATUS_SRC src) hsteer, probe_noMon hmon]
  split
  · exact .inl rfl
  · exact .inr rfl

/-- The same, as what it changes: SRC names the source, and nothing is raised. -/
theorem acquire_spec {s : State} {src : Nat} (hm : s.NoMon) (hsteer : (s.setF F.MER_STATUS_SRC src).steerWanted = s.ptp.steer) :
    Frame [R.MER_STATUS, R.MER_PHASE_ERR] [] [.clk] s (s.acquire src) ∧ (s.acquire src).f F.MER_STATUS_SRC = src % 4 ∧
      (s.acquire src).evNow = s.evNow := by
  have hset := frame_setF s F.MER_STATUS_SRC src
  have hsrc : (s.setF F.MER_STATUS_SRC src).f F.MER_STATUS_SRC = src % 4 := f_setF_same s F.MER_STATUS_SRC src (by decide)
  rcases acquire_cases hm hsteer with h | h
  · rw [h]
    exact ⟨(hset.trans (frame_slewBy _ _)).mono (by simp) (by simp) (by simp), (f_src_slewBy _ _).trans hsrc, slewBy_evNow _ _⟩
  · rw [h]
    have hne : F.MER_STATUS_SRC.addr ≠ R.MER_PHASE_ERR := by decide
    exact ⟨((hset.trans (frame_wrn _ _ _)).trans (frame_stepPending _ _)).mono (by simp) (by simp) (by simp),
      (f_src_stepPending _ _).trans ((f_wrn_ne _ _ hne).trans hsrc), rfl⟩

/-! ## SOURCE_REVERT (R39) -/

/-- The mark of another source: SWITCH, its event, and no failure of the old one (R39, R46). -/
def State.sourceMarked (s : State) (src : Nat) : State :=
  { (s.setF F.MER_FLAGS_SWITCH 1).raise 0x0207 src with mer := s.mer.dropFailures }

theorem frame_sourceMarked (s : State) (src : Nat) : Frame [R.MER_FLAGS] [] [.mer] s (s.sourceMarked src) :=
  (((frame_setF s F.MER_FLAGS_SWITCH 1).trans (frame_raise _ 0x0207 src)).trans (frame_mer _ _)).mono (by simp) (by simp) (by simp)

/-- From REF_IN to another source is a reacquisition (R39, R41). -/
theorem switchSrc_of_refIn {s : State} {src : Nat} (hcur : s.f F.MER_STATUS_SRC = 3) (hsrc : src ≠ 3) (hlock : s.mer.firstLock = true) :
    s.switchSrc src = ((s.sourceMarked src).acquire src).raise 0x0206 src := by
  have hlock' : (s.sourceMarked src).mer.firstLock = true := hlock
  have hreacq : s.switchSrc src = (s.sourceMarked src).reacquire src := by
    simp [State.switchSrc, hcur, hsrc.symm, State.sourceMarked]
  rw [hreacq, State.reacquire, if_pos hlock']

/-- From REF_IN to PTP domain A, which steers. -/
theorem switchSrc_domainA {s : State} (hm : s.NoMon) (hcur : s.f F.MER_STATUS_SRC = 3) (hlock : s.mer.firstLock = true) (hsteer : s.ptp.steer = 0) :
    Frame [R.MER_STATUS, R.MER_FLAGS, R.MER_PHASE_ERR] [] [.clk, .mer] s (s.switchSrc 1) ∧ (s.switchSrc 1).f F.MER_STATUS_SRC = 1 ∧
      (s.switchSrc 1).on F.MER_FLAGS_SWITCH = true ∧ (s.switchSrc 1).evNow = s.evNow ++ [⟨0x0207, 1⟩, ⟨0x0206, 1⟩] := by
  have hmark := frame_sourceMarked s 1
  have hwanted : ((s.sourceMarked 1).setF F.MER_STATUS_SRC 1).steerWanted = (s.sourceMarked 1).ptp.steer := by
    rw [State.steerWanted, f_setF_same _ _ _ (by decide)]
    exact hsteer.symm
  have hflag : (s.sourceMarked 1).f F.MER_FLAGS_SWITCH = 1 := f_setF_same s F.MER_FLAGS_SWITCH 1 (by decide)
  obtain ⟨hacq, hsrc, hev⟩ := acquire_spec (hmark.noMon (by decide) hm) hwanted
  rw [switchSrc_of_refIn hcur (by decide) hlock]
  refine ⟨((hmark.trans hacq).trans (frame_raise _ 0x0206 1)).mono (by simp) (by simp) (by simp), hsrc, ?_, ?_⟩
  · rw [on_raise, hacq.on_eq (by decide), State.on, hflag]
    rfl
  · rw [State.raise, hev]
    exact List.append_assoc s.evNow [_] [_]

/-- A source that is to be taken instead of the one followed, once it is due. -/
theorem sourceRevert_of_want {s t : State} {want : Nat} (hrevert : s.on F.MER_CTL_REVERT = true) (hauto : s.on F.MER_CTL_AUTO = true)
    (hlocked : s.srcLocked (s.f F.MER_STATUS_SRC) = true) (hwant : s.chooseSrc = want) (hne : want ≠ s.f F.MER_STATUS_SRC)
    (hpos : s.toPos 1 (max ((Tab.get (fun _ => 0) s.mer.lockSince want + s.f F.MER_REVERT_HOLD_HOLD) * s.clk.fu) (s.clk.nextOf 1 0 s.clk.fu 0)) = some t) :
    s.sourceRevert = t.switchSrc want := by
  simp [State.sourceRevert, hrevert, hauto, hlocked, hwant, hne, hpos]

/-- SOURCE_REVERT, from REF_IN to PTP domain A, which steers. -/
theorem sourceRevert_completes {s : State} {q : Clock} (hm : s.NoMon) (hrevert : s.on F.MER_CTL_REVERT = true) (hauto : s.on F.MER_CTL_AUTO = true)
    (hcur : s.f F.MER_STATUS_SRC = 3) (hlocked : s.srcLocked 3 = true) (hwant : s.begin.chooseSrc = 1)
    (hpos : s.begin.toPos 1 (max ((Tab.get (fun _ => 0) s.mer.lockSince 1 + s.f F.MER_REVERT_HOLD_HOLD) * s.clk.fu) (s.clk.nextOf 1 0 s.clk.fu 0)) =
      some { s.begin with clk := q })
    (hsteer : s.ptp.steer = 0) (hlock : s.mer.firstLock = true) :
    Completes (.sourceRevert) s fun t => t.f F.MER_STATUS_SRC = 1 ∧ t.on F.MER_FLAGS_SWITCH = true ∧
      Logged [⟨0x0206, 1⟩, ⟨0x0207, 1⟩] s t ∧ Keeps [R.MER_STATUS, R.MER_FLAGS, R.MER_PHASE_ERR] [] [.clk, .mer, .log] s t := by
  obtain ⟨hswitch, hsrc, hflag, hev⟩ := switchSrc_domainA (s := { s.begin with clk := q }) hm hcur hlock hsteer
  have hop := sourceRevert_of_want (s := s.begin) hrevert hauto (hcur ▸ hlocked) hwant (hcur ▸ by decide) hpos
  have hf := (frame_clk s.begin q).trans hswitch
  refine completes_of_frame (op := (·.sourceRevert)) rfl hop (hf.mono (by simp) (by simp) (by simp)) (.inr (by simp)) fun hkeeps =>
    ⟨(f_finish _ _).trans hsrc, (on_finish _ _).trans hflag, ?_, hkeeps⟩
  have hlog : (State.switchSrc { s.begin with clk := q } 1).log = s.log := hf.part (p := .log) (by decide)
  exact finish_logged (by rw [hev]; rfl) (by rw [hlog]; exact ⟨rfl, rfl⟩) (by simp) (by simp)

/-! ## FRAME_LOAD (R38) -/

/-- A write of LOAD to MER_CMD reaches the frame load. -/
theorem ctlWrite_load {s : State} (hk : s.dark = false) : s.ctlWrite F.MER_CMD_LOAD 1 = s.frameLoad := by
  have hload := ctl_act_same (fs := [⟨0, 0, .wo, false, .any⟩]) (s.oldWord .pcie R.MER_CMD) (s.rdn R.MER_CMD) 0 0 1 ⟨0, 0, .wo, false, .any⟩
    (by simp) ⟨rfl, rfl⟩ (by decide) (by decide) (.inl rfl)
  refine ctlWrite_unit hk (by decide) (d := ⟨R.MER_CMD, [], 0x0, false, [⟨0, 0, .wo, false, .any⟩]⟩) rfl rfl (fieldsOk_any rfl _ _) (by decide) (by decide) ?_
  exact congrArg some (if_pos hload)

/-- FRAME_LOAD, of a count that is a multiple of PERIOD. -/
theorem frameLoad_completes {s : State} (hk : s.dark = false)
    (hcount : s.rd64 R.MER_FRAME_LOAD_LO R.MER_FRAME_LOAD_HI % max 1 (s.f F.MER_REF_CTL_PERIOD) = 0) :
    Completes (.frameLoad) s fun t => t.mer.loadArmed = true ∧ Keeps [] [] [.mer] s t := by
  have hop : s.begin.ctlWrite F.MER_CMD_LOAD 1 = { s.begin with mer := { s.mer with loadArmed := true } } :=
    (ctlWrite_load (s := s.begin) hk).trans (if_pos hcount)
  exact completes_of_frame (op := (·.ctlWrite F.MER_CMD_LOAD 1)) rfl hop (frame_mer _ _) (.inl rfl) fun hkeeps => ⟨rfl, hkeeps⟩

/-! ## SLEW_COMPLETE (R41) -/

/-- The Meridian is locked without a phase error at a clock without a rate offset. -/
def State.slewEnded (s : State) (c : Clock) : State :=
  { (s.setF F.MER_STATUS_STATE 1).wrn R.MER_PHASE_ERR 0 with clk := { c with slew := 0 } }

theorem slewComplete_of_slewing {s : State} (h : s.f F.MER_STATUS_STATE = 2) : ∃ c, s.slewComplete = s.slewEnded c := by
  rw [State.slewComplete, if_pos h]
  exact ⟨s.clk.elapse _, rfl⟩

theorem frame_slewEnded (s : State) (c : Clock) : Frame [R.MER_STATUS, R.MER_PHASE_ERR] [] [.clk] s (s.slewEnded c) :=
  (((frame_setF s F.MER_STATUS_STATE 1).trans (frame_wrn _ R.MER_PHASE_ERR 0)).trans (frame_clk _ _)).mono (by simp) (by simp) (by simp)

theorem f_state_slewEnded (s : State) (c : Clock) : (s.slewEnded c).f F.MER_STATUS_STATE = 1 := by
  have hne : F.MER_STATUS_STATE.addr ≠ R.MER_PHASE_ERR := by decide
  exact (f_wrn_ne (s.setF F.MER_STATUS_STATE 1) 0 hne).trans (f_setF_same s F.MER_STATUS_STATE 1 (by decide))

theorem rdn_phaseErr_slewEnded (s : State) (c : Clock) : (s.slewEnded c).rdn R.MER_PHASE_ERR = 0 :=
  rdn_wrn_same (s.setF F.MER_STATUS_STATE 1) R.MER_PHASE_ERR 0

/-- SLEW_COMPLETE, while SLEWING. -/
theorem slewComplete_completes {s : State} (h : s.f F.MER_STATUS_STATE = 2) :
    Completes (.slewComplete) s fun t => t.f F.MER_STATUS_STATE = 1 ∧ t.rdn R.MER_PHASE_ERR = 0 ∧ t.clk.slew = 0 ∧
      Keeps [R.MER_STATUS, R.MER_PHASE_ERR] [] [.clk] s t := by
  obtain ⟨c, hop⟩ := slewComplete_of_slewing (s := s.begin) h
  exact completes_of_frame (op := (·.slewComplete)) rfl hop (frame_slewEnded _ c) (.inl rfl) fun hkeeps =>
    ⟨(f_finish _ _).trans (f_state_slewEnded _ c), (rdn_finish _ _).trans (rdn_phaseErr_slewEnded _ c), rfl, hkeeps⟩

/-! ## TIME_FLIT_SEND, TIME_FLIT_RECEIVE (R48) -/

/-- An unsequenced flit is counted and given out; its type and payload are those asked for (R270). -/
theorem sendPlain_eq (s : State) (p ty : Nat) (nak : Bool) (payload : List Nat) :
    ∃ g, s.sendPlain p ty nak payload = (s.bump (R.CNV_LINK_TX_CNT p)).emit (.flit p g) ∧ g.ty = ty ∧ g.payload = payload :=
  ⟨_, rfl, rfl, rfl⟩

/-- Where one link is READY, one time flit goes out at the frame start. -/
theorem timeFlitSend_of_one {s t : State} {p : Nat} (hready : s.ready fnMer = true) (hpos : s.toPhase 8 0 = some t)
    (hone : (List.range 8).filter t.linkUp = [p]) : s.timeFlitSend = t.sendPlain p 4 false (t.timeFlit p) := by
  simp [State.timeFlitSend, hready, hpos, hone]

/-- TIME_FLIT_SEND, where one link is READY. -/
theorem timeFlitSend_completes {s : State} {p : Nat} {q : Clock} (hready : s.ready fnMer = true)
    (hpos : s.begin.toPhase 8 0 = some { s.begin with clk := q }) (hone : (List.range 8).filter s.linkUp = [p]) :
    Completes (.timeFlitSend) s fun t => (∃ g, t.out = [.flit p g] ∧ g.ty = 4 ∧ g.payload = State.timeFlit { s with clk := q } p) ∧ t.clk = q ∧
      t.rdn (R.CNV_LINK_TX_CNT p) = (s.rdn (R.CNV_LINK_TX_CNT p) + 1) % 2 ^ 32 ∧ Keeps [R.CNV_LINK_TX_CNT p] [] [.clk, .out] s t := by
  obtain ⟨g, hsend, hty, hpayload⟩ := sendPlain_eq { s.begin with clk := q } p 4 false (State.timeFlit { s.begin with clk := q } p)
  have hop := (timeFlitSend_of_one (s := s.begin) hready hpos hone).trans hsend
  have hf := ((frame_clk s.begin q).trans (frame_bump _ (R.CNV_LINK_TX_CNT p))).trans (frame_emit _ (.flit p g))
  refine completes_of_frame (op := (·.timeFlitSend)) rfl hop hf (.inl rfl) fun hkeeps => ⟨⟨g, rfl, hty, hpayload⟩, rfl, ?_, hkeeps⟩
  rw [rdn_finish, rdn_emit, rdn_bump_same]
  rfl

/-- A maximum register only grows, where the value fits it. -/
theorem rdn_le_wrMax (s : State) (a : Nat) {n : Nat} (hn : n < 2 ^ 32) : s.rdn a ≤ (s.wrMax a n).rdn a := by
  unfold State.wrMax
  split
  case isTrue h =>
    rw [rdn_wrn_same, Nat.mod_eq_of_lt hn]
    exact Nat.le_of_lt h
  case isFalse => exact Nat.le_refl _

@[simp] theorem wrMax_evNow (s : State) (a n : Nat) : (s.wrMax a n).evNow = s.evNow := by
  unfold State.wrMax
  split <;> rfl

/-- A peer on port `p` disagrees: the largest difference is `d` at least, PEER and event 0x0208 (R48). -/
def State.peerDiffers (s : State) (p d : Nat) (runs : Tab Nat) : State :=
  (State.setF { s.wrMax R.MER_PEER_ERR d with mer := { s.mer with peerRun := runs } } F.MER_FLAGS_PEER 1).raise 0x0208 p

/-- A time flit of another cadence is a difference at once. -/
theorem timeFlitCompare_of_cadence {s : State} {p : Nat} {g : TimeFlit} (hrun : s.clk.run = true) (hnum : g.num ≠ s.clk.num) :
    ∃ d runs, d < 2 ^ 32 ∧ s.timeFlitCompare p g = s.peerDiffers p d runs := by
  have hclk (n : Nat) : (s.wrMax R.MER_PEER_ERR n).clk = s.clk := (frame_wrMax s _ n).part (p := .clk) (by decide)
  have hmer (n : Nat) : (s.wrMax R.MER_PEER_ERR n).mer = s.mer := (frame_wrMax s _ n).part (p := .mer) (by decide)
  unfold State.timeFlitCompare State.peerDiffers
  simp only [hrun, hclk, hmer, ne_eq, hnum, not_false_eq_true, true_or, decide_true, Bool.true_or, Bool.not_true, Bool.false_eq_true, if_false, if_true]
  exact ⟨_, _, Nat.lt_succ_of_le (Nat.min_le_right _ _), rfl⟩

/-- What a disagreeing peer changes. -/
theorem frame_peerDiffers (s : State) (p d : Nat) (runs : Tab Nat) :
    Frame [R.MER_PEER_ERR, R.MER_FLAGS] [] [.mer] s (s.peerDiffers p d runs) :=
  ((((frame_wrMax s R.MER_PEER_ERR d).trans (frame_mer _ _)).trans (frame_setF _ F.MER_FLAGS_PEER 1)).trans (frame_raise _ 0x0208 p)).mono
    (by simp) (by simp) (by simp)

theorem on_peer_peerDiffers (s : State) (p d : Nat) (runs : Tab Nat) : (s.peerDiffers p d runs).on F.MER_FLAGS_PEER = true := by
  rw [State.peerDiffers, on_raise, State.on, f_setF_same _ _ _ (by decide)]
  rfl

theorem rdn_le_peerDiffers (s : State) (p : Nat) {d : Nat} (runs : Tab Nat) (hd : d < 2 ^ 32) :
    s.rdn R.MER_PEER_ERR ≤ (s.peerDiffers p d runs).rdn R.MER_PEER_ERR := by
  rw [State.peerDiffers, rdn_raise, rdn_setF_ne _ _ (by decide)]
  exact rdn_le_wrMax s _ hd

theorem peerDiffers_evNow (s : State) (p d : Nat) (runs : Tab Nat) : (s.peerDiffers p d runs).evNow = s.evNow ++ [⟨0x0208, p⟩] := by
  rw [State.peerDiffers, State.raise, setF_evNow, wrMax_evNow]

/-- TIME_FLIT_RECEIVE, from a module of another cadence. -/
theorem timeFlitReceive_completes {s : State} {p : Nat} {g : TimeFlit} (hp : p < 8) (hrun : s.clk.run = true) (hnum : g.num ≠ s.clk.num) :
    Completes (.timeFlitReceive p g) s fun t => t.on F.MER_FLAGS_PEER = true ∧ s.rdn R.MER_PEER_ERR ≤ t.rdn R.MER_PEER_ERR ∧
      Logged [⟨0x0208, p⟩] s t ∧ Keeps [R.MER_PEER_ERR, R.MER_FLAGS] [] [.mer, .log] s t := by
  obtain ⟨d, runs, hd, hcmp⟩ := timeFlitCompare_of_cadence (s := s.begin) (p := p) hrun hnum
  have hop : s.begin.idx p 8 (·.timeFlitCompare p g) = s.begin.peerDiffers p d runs := (if_pos hp).trans hcmp
  have hf := frame_peerDiffers s.begin p d runs
  refine completes_of_frame (op := (·.idx p 8 (·.timeFlitCompare p g))) rfl hop (hf.mono (by simp) (by simp) (by simp)) (.inr (by simp)) fun hkeeps =>
    ⟨?_, ?_, ?_, hkeeps⟩
  · rw [on_finish, on_peer_peerDiffers]
  · rw [rdn_finish]
    exact rdn_le_peerDiffers s.begin p runs hd
  · have hlog : (s.begin.peerDiffers p d runs).log = s.log := hf.part (p := .log) (by decide)
    exact finish_logged (by rw [peerDiffers_evNow]; rfl) (by rw [hlog]; exact ⟨rfl, rfl⟩) (by simp) (by simp; omega)

/-- Settles O6, clause by clause. -/
theorem meridianTimeCommandsComplete : Obligations.MeridianTimeCommandsComplete := by
  unfold Obligations.MeridianTimeCommandsComplete
  exact ⟨fun _ _ => sourceRevert_completes, fun _ => frameLoad_completes, fun _ => slewComplete_completes,
    fun _ _ _ => timeFlitSend_completes, fun _ _ _ => timeFlitReceive_completes⟩

end Sys2Proof.Machine
end

section
/-!
SUPPORT. The state of network time (PTP domains, TOUT outputs, TIN inputs) after updates, and the frames of the operations that change it.
-/

namespace Sys2Proof.Machine

/-! ## PTP domains after updates -/

@[simp] theorem dom_begin (s : State) (y : Nat) : s.begin.dom y = s.dom y := rfl
@[simp] theorem dom_finish (s : State) (y : Nat) : s.finish.dom y = s.dom y := rfl
@[simp] theorem dom_wrn (s : State) (a n y : Nat) : (s.wrn a n).dom y = s.dom y := rfl
@[simp] theorem dom_wr64 (s : State) (lo hi n y : Nat) : (s.wr64 lo hi n).dom y = s.dom y := rfl
@[simp] theorem dom_setF (s : State) (x : Fld) (v y : Nat) : (s.setF x v).dom y = s.dom y := rfl
@[simp] theorem dom_bump (s : State) (a y : Nat) : (s.bump a).dom y = s.dom y := rfl
@[simp] theorem dom_emit (s : State) (o : Out) (y : Nat) : (s.emit o).dom y = s.dom y := rfl
@[simp] theorem dom_raise (s : State) (code detail y : Nat) : (s.raise code detail).dom y = s.dom y := rfl
@[simp] theorem dom_setDom_same (s : State) (x : Nat) (d : DomSt) : (s.setDom x d).dom x = d := Tab.get_put_same _ _ x d

@[simp] theorem rdn_setDom (s : State) (x : Nat) (d : DomSt) (a : Nat) : (s.setDom x d).rdn a = s.rdn a := rfl
@[simp] theorem f_setDom (s : State) (x : Nat) (d : DomSt) (y : Fld) : (s.setDom x d).f y = s.f y := rfl
@[simp] theorem on_setDom (s : State) (x : Nat) (d : DomSt) (y : Fld) : (s.setDom x d).on y = s.on y := rfl
@[simp] theorem evNow_setDom (s : State) (x : Nat) (d : DomSt) : (s.setDom x d).evNow = s.evNow := rfl

/-! ## TOUT outputs and TIN inputs after updates -/

@[simp] theorem tout_finish (s : State) (k : Nat) : s.finish.tout k = s.tout k := rfl
@[simp] theorem tout_setF (s : State) (x : Fld) (v k : Nat) : (s.setF x v).tout k = s.tout k := rfl
@[simp] theorem tout_bump (s : State) (a k : Nat) : (s.bump a).tout k = s.tout k := rfl
@[simp] theorem tout_emit (s : State) (o : Out) (k : Nat) : (s.emit o).tout k = s.tout k := rfl
@[simp] theorem tout_setTout_same (s : State) (k : Nat) (t : ToutSt) : (s.setTout k t).tout k = t := Tab.get_put_same _ _ k t

@[simp] theorem f_setTout (s : State) (k : Nat) (t : ToutSt) (y : Fld) : (s.setTout k t).f y = s.f y := rfl

@[simp] theorem tin_finish (s : State) (j : Nat) : s.finish.tin j = s.tin j := rfl
@[simp] theorem tin_wrn (s : State) (a n j : Nat) : (s.wrn a n).tin j = s.tin j := rfl
@[simp] theorem tin_emit (s : State) (o : Out) (j : Nat) : (s.emit o).tin j = s.tin j := rfl
@[simp] theorem tin_setTin_same (s : State) (j : Nat) (t : TinSt) : (s.setTin j t).tin j = t := Tab.get_put_same _ _ j t

/-! ## Registers and fields after updates -/

theorem on_setF_same (s : State) (x : Fld) (h : x.hi < 32) (hw : x.hi = x.lo) : (s.setF x 1).on x = true := by
  have hwidth : x.hi + 1 - x.lo = 1 := by omega
  rw [State.on, f_setF_same s x 1 h, hwidth]
  rfl

@[simp] theorem rd_wr64_hi (s : State) (lo hi n : Nat) : (s.wr64 lo hi n).rd hi = BitVec.ofNat 32 (n / 4294967296) := rd_wrn_same _ _ _

theorem rd_wr64_lo (s : State) {lo hi : Nat} (n : Nat) (h : lo ≠ hi) : (s.wr64 lo hi n).rd lo = BitVec.ofNat 32 n :=
  (rd_wrn_ne _ _ h).trans (rd_wrn_same _ _ _)

/-! ## Frames -/

theorem frame_ptp (s : State) (p : PtpSt) : Frame [] [] [.ptp] s { s with ptp := p } := by
  refine ⟨fun _ _ => rfl, fun _ _ => rfl, rfl, rfl, fun p hp => ?_⟩
  cases p
  case ptp => simp at hp
  all_goals rfl

theorem frame_setDom (s : State) (x : Nat) (d : DomSt) : Frame [] [] [.ptp] s (s.setDom x d) := frame_ptp s _

theorem frame_setTout (s : State) (k : Nat) (t : ToutSt) : Frame [] [] [.ptp] s (s.setTout k t) := frame_ptp s _

theorem frame_setTin (s : State) (j : Nat) (t : TinSt) : Frame [] [] [.ptp] s (s.setTin j t) := frame_ptp s _

theorem frame_wr64 (s : State) (lo hi n : Nat) : Frame [lo, hi] [] [] s (s.wr64 lo hi n) := (frame_wrn s lo _).trans (frame_wrn _ hi _)

theorem frame_toNs (s : State) (t : Nat) : Frame [] [] [.clk] s (s.toNs t) := frame_clk s _

theorem frame_toStc (s : State) (t : Nat) : Frame [] [] [.clk] s (s.toStc t) := frame_clk s _

theorem frame_free (s : State) : Frame [] [] [.fctr] s s.free.2 := by
  refine ⟨fun _ _ => rfl, fun _ _ => rfl, rfl, rfl, fun p hp => ?_⟩
  cases p
  case fctr => simp at hp
  all_goals rfl

/-- Operations in turn, one for each member of a list, each with a register of its own. -/
theorem frame_foldl {op : State → Nat → State} {reg : Nat → Nat} {fns : List Nat} {parts : List Part}
    (h : ∀ s k, Frame [reg k] fns parts s (op s k)) (l : List Nat) (s : State) : Frame (l.map reg) fns parts s (l.foldl op s) := by
  induction l generalizing s with
  | nil => exact (Frame.refl s).mono (by simp) (by simp) (by simp)
  | cons k r ih => exact ((h s k).trans (ih _)).mono (by simp) (by simp) (by simp)

/-- A register that the operation left as it was is no part of its frame. -/
theorem Frame.drop {a : Nat} {regs fns : List Nat} {parts : List Part} {s t : State} (h : Frame (a :: regs) fns parts s t) (ha : t.rd a = s.rd a) :
    Frame regs fns parts s t := by
  obtain ⟨hregs, hrest⟩ := h
  refine ⟨fun b hb => ?_, hrest⟩
  by_cases hab : b = a
  · rw [hab, ha]
  · exact hregs b (by simp [hab, hb])

theorem Frame.rd_eq {regs fns : List Nat} {parts : List Part} {s t : State} (h : Frame regs fns parts s t) {a : Nat} (ha : a ∉ regs) : t.rd a = s.rd a := by
  obtain ⟨hregs, -⟩ := h
  exact hregs a ha

theorem Frame.rdn_eq {regs fns : List Nat} {parts : List Part} {s t : State} (h : Frame regs fns parts s t) {a : Nat} (ha : a ∉ regs) :
    t.rdn a = s.rdn a := by
  rw [State.rdn, State.rdn, h.rd_eq ha]

/-- A function outside the frame is as active as before. -/
theorem Frame.active_eq {regs fns : List Nat} {parts : List Part} {s t : State} (h : Frame regs fns parts s t) {g : Nat} (hg : g ∉ fns) :
    t.active g = s.active g := by
  obtain ⟨-, hfns, -⟩ := h
  rw [State.active, State.active, hfns g hg]

theorem Frame.dom_eq {regs fns : List Nat} {parts : List Part} {s t : State} (h : Frame regs fns parts s t) (hp : .ptp ∉ parts) (x : Nat) :
    t.dom x = s.dom x := by
  have hptp : t.ptp = s.ptp := h.part hp
  rw [State.dom, State.dom, hptp]

/-! ## A command for one domain, output or input -/

@[simp] theorem idx_of_lt {s : State} {i n : Nat} {op : State → State} (h : i < n) : s.idx i n op = op s := if_pos h

/-- A command that completes in a property completes in any weaker one. -/
theorem Completes.imp {i : Instr} {s : State} {P Q : State → Prop} (h : Completes i s P) (hpq : ∀ t, P t → Q t) : Completes i s Q := by
  obtain ⟨t, ht, hp⟩ := h
  exact ⟨t, ht, hpq t hp⟩

end Sys2Proof.Machine
end

section
/-!
PROOFS. The PTP messages of a domain (R51, R55): Announce, Delay_Req and Delay_Resp, Pdelay_Req and Pdelay_Resp.
-/

namespace Sys2Proof.Machine

/-! ## Messages that reach domain A alone (R52) -/

/-- An operation that leaves the bindings of a domain alone leaves the domain bound to the same messages. -/
theorem Frame.bound_eq {regs fns : List Nat} {parts : List Part} {s t : State} (hf : Frame regs fns parts s t) {x : Nat} {h : PtpHdr}
    (hptp : R.PTP_CTL ∉ regs) (hctl : R.PTP_X_CTL x ∉ regs) : t.bound x h = s.bound x h := by
  simp only [State.bound, hf.on_eq (y := F.PTP_CTL_EN) hptp, hf.on_eq (y := F.PTP_X_CTL_EN x) hctl, hf.f_eq (y := F.PTP_X_CTL_PORT x) hctl,
    hf.f_eq (y := F.PTP_X_CTL_TRANSPORT x) hctl, hf.f_eq (y := F.PTP_X_CTL_DOMAIN x) hctl, hf.f_eq (y := F.PTP_X_CTL_VLAN x) hctl]

/-- A message that reaches domain A alone is an operation of that domain, where this does not bind domain B. -/
theorem perDom_domainA {regs fns : List Nat} {parts : List Part} {s u : State} {h : PtpHdr} {op : State → Nat → State} (hA : s.bound 0 h = true)
    (hB : s.bound 1 h = false) (hop : op s 0 = u) (hf : Frame regs fns parts s u) (hptp : R.PTP_CTL ∉ regs) (hctl : R.PTP_X_CTL 1 ∉ regs) :
    s.perDom h op = u := by
  have hB' : u.bound 1 h = false := (hf.bound_eq hptp hctl).trans hB
  simp [State.perDom, hA, hop, hB']

/-! ## ANNOUNCE_RECEIVE (R51) -/

/-- The master that an Announce makes known. -/
def announced (h : PtpHdr) (a : Announce) (now : Nat) : Master :=
  { source := h.source, data := ⟨a.pri1, a.cls, a.acc, a.var, a.pri2, a.ident, a.steps⟩, annLog := a.logInt, annAt := now }

/-- Domain `x` hears master `m` alone. -/
def State.heardAlone (s : State) (x : Nat) (m : Master) (utcOfs : Nat) : State :=
  (s.setDom x { s.dom x with masters := [m] }).wrn (R.PTP_X_UTC_OFS x) (utcOfs % 65536)

/-- Domain `x` follows master `m`, with no change of grandmaster to tell. -/
def State.masterTaken (s : State) (x : Nat) (m : Master) : State :=
  (s.setDom x { s.dom x with gm := some m.data, parent := some m.source, annLog := m.annLog, annAt := some m.annAt }).wr64
    (R.PTP_X_GM_LO x) (R.PTP_X_GM_HI x) m.data.ident

theorem frame_heardAlone (s : State) (x : Nat) (m : Master) (utcOfs : Nat) : Frame [R.PTP_X_UTC_OFS x] [] [.ptp] s (s.heardAlone x m utcOfs) :=
  (frame_setDom s x _).trans (frame_wrn _ _ _)

theorem frame_masterTaken (s : State) (x : Nat) (m : Master) : Frame [R.PTP_X_GM_LO x, R.PTP_X_GM_HI x] [] [.ptp] s (s.masterTaken x m) :=
  (frame_setDom s x _).trans (frame_wr64 _ _ _ _)

/-- A domain that has neither a master nor an offset takes a master without an event (R51, R60). -/
theorem follow_first {s : State} {x : Nat} (m : Master) (hgm : (s.dom x).gm = none) (hlast : (s.dom x).lastOfs = none) :
    s.follow x m = s.masterTaken x m := by
  simp [State.follow, State.masterTaken, hgm, hlast]

/-- Where no other master is heard, the sender of an Announce is the best one. -/
theorem announce_alone {s : State} {x : Nat} {h : PtpHdr} {a : Announce} (hnone : (s.dom x).masters = []) :
    s.announce h a x = (s.heardAlone x (announced h a s.clk.ns) a.utcOfs).follow x (announced h a s.clk.ns) := by
  simp only [State.announce, hnone, List.filter_nil]
  rfl

/-- ANNOUNCE_RECEIVE, for a first master. -/
theorem announceReceive_completes {s : State} {h : PtpHdr} {a : Announce} (hA : s.bound 0 h = true) (hB : s.bound 1 h = false)
    (hgm : (s.dom 0).gm = none) (hlast : (s.dom 0).lastOfs = none) (hnone : (s.dom 0).masters = []) :
    Completes (.announceReceive h a) s fun t => (t.dom 0).gm = some ⟨a.pri1, a.cls, a.acc, a.var, a.pri2, a.ident, a.steps⟩ ∧
      (t.dom 0).annAt = some s.clk.ns ∧ t.rd (R.PTP_X_GM_LO 0) = BitVec.ofNat 32 a.ident ∧
      t.rd (R.PTP_X_GM_HI 0) = BitVec.ofNat 32 (a.ident / 4294967296) ∧ t.rdn (R.PTP_X_UTC_OFS 0) = a.utcOfs % 65536 ∧
      Keeps [R.PTP_X_GM_LO 0, R.PTP_X_GM_HI 0, R.PTP_X_UTC_OFS 0] [] [.ptp] s t := by
  have hheard := frame_heardAlone s.begin 0 (announced h a s.clk.ns) a.utcOfs
  have hfollow := frame_masterTaken (s.begin.heardAlone 0 (announced h a s.clk.ns) a.utcOfs) 0 (announced h a s.clk.ns)
  have hop := (announce_alone (s := s.begin) (x := 0) (h := h) (a := a) hnone).trans
    (follow_first _ (by simpa [State.heardAlone] using hgm) (by simpa [State.heardAlone] using hlast))
  have hf := hheard.trans hfollow
  have hutc : (a.utcOfs % 65536) % 2 ^ 32 = a.utcOfs % 65536 := by omega
  refine completes_of_frame (op := (·.perDom h (fun t x => t.announce h a x))) rfl (perDom_domainA hA hB hop hf (by decide) (by decide))
    (hf.mono (by simp) (by simp) (by simp)) (.inl rfl) fun hkeeps => ⟨?_, ?_, ?_, rd_wr64_hi _ _ _ _, ?_, hkeeps⟩
  · rw [dom_finish, State.masterTaken, dom_wr64, dom_setDom_same]
    rfl
  · rw [dom_finish, State.masterTaken, dom_wr64, dom_setDom_same]
    rfl
  · rw [rd_finish, State.masterTaken, rd_wr64_lo _ _ (by decide)]
    rfl
  · exact ((hfollow.rdn_eq (a := R.PTP_X_UTC_OFS 0) (by decide)).trans (rdn_wrn_same _ _ _)).trans hutc

/-! ## Path delay (R55) -/

theorem frame_pathDelay (s : State) (x : Nat) (m : Int) : Frame [R.PTP_X_MPD x] [] [.ptp] s (s.pathDelay x m) :=
  (frame_setDom s x _).trans (frame_wrn _ _ _)

/-- The first measurement is the path delay itself. -/
theorem pathDelay_first {s : State} {x : Nat} (m : Int) (h : (s.dom x).mpdSeen = false) :
    (s.pathDelay x m).dom x = { s.dom x with mpd := m, mpdSeen := true } ∧ (s.pathDelay x m).rd (R.PTP_X_MPD x) = BitVec.ofNat 32 (ofSigned 32 m) := by
  simp [State.pathDelay, h]

/-- A message to domain A that ends in its first measurement of the path delay. -/
theorem firstDelay_completes {i : Instr} {s : State} {h : PtpHdr} {op : State → Nat → State} {d : DomSt} {m : Int}
    (hx : exec i s = s.run (·.perDom h op)) (hA : s.bound 0 h = true) (hB : s.bound 1 h = false)
    (hop : op s.begin 0 = (s.begin.setDom 0 d).pathDelay 0 m) (hd : d.mpdSeen = false) :
    Completes i s fun t => t.dom 0 = { d with mpd := m, mpdSeen := true } ∧ t.rd (R.PTP_X_MPD 0) = BitVec.ofNat 32 (ofSigned 32 (t.dom 0).mpd) ∧
      Keeps [R.PTP_X_MPD 0] [] [.ptp] s t := by
  have hf := (frame_setDom s.begin 0 d).trans (frame_pathDelay _ 0 m)
  obtain ⟨hdom, hreg⟩ := pathDelay_first (s := s.begin.setDom 0 d) (x := 0) m (by simpa using hd)
  rw [dom_setDom_same] at hdom
  refine completes_of_frame hx (perDom_domainA hA hB hop hf (by decide) (by decide)) (hf.mono (by simp) (by simp) (by simp)) (.inl rfl)
    fun hkeeps => ⟨hdom, ?_, hkeeps⟩
  rw [dom_finish, hdom]
  exact hreg

/-- A Delay_Resp of the parent answers the Delay_Req that waits. -/
theorem delayResp_of_parent {s : State} {h : PtpHdr} {x t3 t4 : Nat} {cf lm : Int} (ht3 : (s.dom x).t3 = some t3) (he2e : s.on (F.PTP_X_CTL_DELAY x) = false)
    (hsync : (s.dom x).syncSeen = true) (hparent : (s.dom x).parent = some h.source) :
    s.delayResp h t4 cf lm x = (s.setDom x { s.dom x with t3 := none, reqLog := lm }).pathDelay x
      (sar (((s.dom x).syncT2 - (s.dom x).syncT1 - (s.dom x).syncCf) + ((t4 : Int) - t3 - cf)) 1) := by
  simp [State.delayResp, ht3, he2e, hsync, State.fromParent, hparent]

/-- DELAY_RESP_RECEIVE, for the first measurement. -/
theorem delayRespReceive_completes {s : State} {h : PtpHdr} {t4 t3 : Nat} {cf lm : Int} (hA : s.bound 0 h = true) (hB : s.bound 1 h = false)
    (ht3 : (s.dom 0).t3 = some t3) (he2e : s.on (F.PTP_X_CTL_DELAY 0) = false) (hsync : (s.dom 0).syncSeen = true)
    (hfirst : (s.dom 0).mpdSeen = false) (hparent : (s.dom 0).parent = some h.source) :
    Completes (.delayRespReceive h t4 cf lm) s fun t =>
      (t.dom 0).mpd = sar (((s.dom 0).syncT2 - (s.dom 0).syncT1 - (s.dom 0).syncCf) + ((t4 : Int) - t3 - cf)) 1 ∧
      t.rd (R.PTP_X_MPD 0) = BitVec.ofNat 32 (ofSigned 32 (t.dom 0).mpd) ∧ (t.dom 0).t3 = none ∧ Keeps [R.PTP_X_MPD 0] [] [.ptp] s t := by
  have hop := delayResp_of_parent (s := s.begin) (t4 := t4) (cf := cf) (lm := lm) ht3 he2e hsync hparent
  refine (firstDelay_completes (op := fun t x => t.delayResp h t4 cf lm x) rfl hA hB hop hfirst).imp ?_
  rintro t ⟨hdom, hreg, hkeeps⟩
  exact ⟨by rw [hdom]; rfl, hreg, by rw [hdom], hkeeps⟩

/-- A Pdelay_Resp answers the Pdelay_Req that waits. -/
theorem pdelayResp_of_waiting {s : State} {x t1p t2p t3p : Nat} {cf : Int} (ht1p : (s.dom x).t1p = some t1p) (hp2p : s.on (F.PTP_X_CTL_DELAY x) = true) :
    s.pdelayResp t2p t3p cf x = (s.setDom x { s.dom x with t1p := none }).pathDelay x
      (sar (((s.clk.stc : Int) - t1p) - ((t3p : Int) - t2p) - cf) 1) := by
  simp [State.pdelayResp, ht1p, hp2p]

/-- PDELAY_RESP_RECEIVE, for the first measurement. -/
theorem pdelayRespReceive_completes {s : State} {h : PtpHdr} {t2p t3p t1p : Nat} {cf : Int} (hA : s.bound 0 h = true) (hB : s.bound 1 h = false)
    (ht1p : (s.dom 0).t1p = some t1p) (hp2p : s.on (F.PTP_X_CTL_DELAY 0) = true) (hfirst : (s.dom 0).mpdSeen = false) :
    Completes (.pdelayRespReceive h t2p t3p cf) s fun t => (t.dom 0).mpd = sar (((s.clk.stc : Int) - t1p) - ((t3p : Int) - t2p) - cf) 1 ∧
      t.rd (R.PTP_X_MPD 0) = BitVec.ofNat 32 (ofSigned 32 (t.dom 0).mpd) ∧ (t.dom 0).t1p = none ∧ Keeps [R.PTP_X_MPD 0] [] [.ptp] s t := by
  have hop := pdelayResp_of_waiting (s := s.begin) (t2p := t2p) (t3p := t3p) (cf := cf) ht1p hp2p
  refine (firstDelay_completes (op := fun t x => t.pdelayResp t2p t3p cf x) rfl hA hB hop hfirst).imp ?_
  rintro t ⟨hdom, hreg, hkeeps⟩
  exact ⟨by rw [hdom]; rfl, hreg, by rw [hdom], hkeeps⟩

/-! ## Requests sent and answered (R51) -/

/-- PDELAY_REQ_RECEIVE: the answer of a two-step responder. -/
theorem pdelayReqReceive_completes {s : State} {h : PtpHdr} {n : Nat} (hA : s.bound 0 h = true) (hB : s.bound 1 h = false)
    (hp2p : s.on (F.PTP_X_CTL_DELAY 0) = true) (hmute : s.on F.BIN_STATUS_MUTED = false) :
    Completes (.pdelayReqReceive h n) s fun t => t.out = [.ptpPdelayResp 0 n s.clk.stc s.clk.stc] ∧ Keeps [] [] [.out] s t := by
  have hop : s.begin.pdelayReqReceive n 0 = s.begin.emit (.ptpPdelayResp 0 n s.clk.stc s.clk.stc) := by
    simp [State.pdelayReqReceive, hp2p, hmute]
  have hf := frame_emit s.begin (.ptpPdelayResp 0 n s.clk.stc s.clk.stc)
  exact completes_of_frame (op := (·.perDom h (fun t x => t.pdelayReqReceive n x))) rfl (perDom_domainA hA hB hop hf (by decide) (by decide)) hf
    (.inl rfl) fun hkeeps => ⟨rfl, hkeeps⟩

/-- The Delay_Req of domain `x` leaves now; the next one is due `n` ns later. -/
def State.delayReqSent (s : State) (x n : Nat) : State :=
  (s.setDom x { s.dom x with t3 := some s.clk.stc, reqAt := some (s.clk.ns + n) }).emit
    (.ptpDelayReq x (if s.on (F.PTP_X_CTL_HYBRID x) then some (s.dom x).syncMac else none))

theorem frame_delayReqSent (s : State) (x n : Nat) : Frame [] [] [.ptp, .out] s (s.delayReqSent x n) := (frame_setDom s x _).trans (frame_emit _ _)

/-- A Delay_Req that is due at `w` leaves then, and a free value says when the next one is due. -/
theorem delayReqSend_due {s : State} {x w : Nat} (hw : (s.dom x).reqAt = some w) (hen : s.on F.PTP_CTL_EN = true)
    (hdom : s.on (F.PTP_X_CTL_EN x) = true) (he2e : s.on (F.PTP_X_CTL_DELAY x) = false) (hgm : (s.dom x).gm.isSome = true)
    (hmute : s.on F.BIN_STATUS_MUTED = false) : ∃ n, s.delayReqSend x = (s.toNs w).free.2.delayReqSent x n := by
  simp only [State.delayReqSend, hw, hen, hdom, he2e, hgm, hmute]
  exact ⟨_, rfl⟩

/-- DELAY_REQ_SEND. -/
theorem delayReqSend_completes {s : State} {x w : Nat} (hw : (s.dom x).reqAt = some w) (hx : x < 2) (hen : s.on F.PTP_CTL_EN = true)
    (hdom : s.on (F.PTP_X_CTL_EN x) = true) (he2e : s.on (F.PTP_X_CTL_DELAY x) = false) (hgm : (s.dom x).gm.isSome = true)
    (hmute : s.on F.BIN_STATUS_MUTED = false) :
    Completes (.delayReqSend x) s fun t => (t.dom x).t3 = some t.clk.stc ∧
      t.out = [.ptpDelayReq x (if s.on (F.PTP_X_CTL_HYBRID x) then some (s.dom x).syncMac else none)] ∧ t.clk.ns = max s.clk.ns w ∧
      Keeps [] [] [.ptp, .out, .clk, .fctr] s t := by
  obtain ⟨n, hsend⟩ := delayReqSend_due (s := s.begin) hw hen hdom he2e hgm hmute
  have hf := ((frame_toNs s.begin w).trans (frame_free _)).trans (frame_delayReqSent _ x n)
  refine completes_of_frame (op := (·.idx x 2 (·.delayReqSend x))) rfl ((idx_of_lt hx).trans hsend)
    (hf.mono (by simp) (by simp) (by simp)) (.inl rfl) fun hkeeps => ⟨?_, rfl, toNs_ns s.begin w, hkeeps⟩
  rw [dom_finish, State.delayReqSent, dom_emit, dom_setDom_same]
  rfl

/-- The Pdelay_Req of domain `x` leaves now; the next one is due after the interval. -/
def State.pdelayReqSent (s : State) (x : Nat) : State :=
  (s.setDom x { s.dom x with t1p := some s.clk.stc, pdAt := some (s.clk.ns + logNs ((s.f (F.PTP_X_TIMEOUT_PDELAY_LOG x) : Int) - 3)) }).emit
    (.ptpPdelayReq x)

theorem frame_pdelayReqSent (s : State) (x : Nat) : Frame [] [] [.ptp, .out] s (s.pdelayReqSent x) := (frame_setDom s x _).trans (frame_emit _ _)

theorem dom_pdelayReqSent (s : State) (x : Nat) : (s.pdelayReqSent x).dom x =
    { s.dom x with t1p := some s.clk.stc, pdAt := some (s.clk.ns + logNs ((s.f (F.PTP_X_TIMEOUT_PDELAY_LOG x) : Int) - 3)) } := by
  rw [State.pdelayReqSent, dom_emit, dom_setDom_same]

theorem pdelayReqSend_due {s : State} {x w : Nat} (hw : (s.dom x).pdAt = some w) (hen : s.on F.PTP_CTL_EN = true)
    (hdom : s.on (F.PTP_X_CTL_EN x) = true) (hp2p : s.on (F.PTP_X_CTL_DELAY x) = true) (hmute : s.on F.BIN_STATUS_MUTED = false) :
    s.pdelayReqSend x = (s.toNs w).pdelayReqSent x := by
  simp only [State.pdelayReqSend, hw, hen, hdom, hp2p, hmute]
  rfl

/-- PDELAY_REQ_SEND. -/
theorem pdelayReqSend_completes {s : State} {x w : Nat} (hw : (s.dom x).pdAt = some w) (hx : x < 2) (hen : s.on F.PTP_CTL_EN = true)
    (hdom : s.on (F.PTP_X_CTL_EN x) = true) (hp2p : s.on (F.PTP_X_CTL_DELAY x) = true) (hmute : s.on F.BIN_STATUS_MUTED = false) :
    Completes (.pdelayReqSend x) s fun t => (t.dom x).t1p = some t.clk.stc ∧ t.out = [.ptpPdelayReq x] ∧ t.clk.ns = max s.clk.ns w ∧
      (t.dom x).pdAt = some (t.clk.ns + logNs ((s.f (F.PTP_X_TIMEOUT_PDELAY_LOG x) : Int) - 3)) ∧ Keeps [] [] [.ptp, .out, .clk] s t := by
  have hop := (idx_of_lt (op := (·.pdelayReqSend x)) hx).trans (pdelayReqSend_due (s := s.begin) hw hen hdom hp2p hmute)
  have hf := (frame_toNs s.begin w).trans (frame_pdelayReqSent _ x)
  refine completes_of_frame (op := (·.idx x 2 (·.pdelayReqSend x))) rfl hop (hf.mono (by simp) (by simp) (by simp)) (.inl rfl) fun hkeeps =>
    ⟨?_, rfl, toNs_ns s.begin w, ?_, hkeeps⟩
  · rw [dom_finish, dom_pdelayReqSent]
    rfl
  · rw [dom_finish, dom_pdelayReqSent]
    rfl

end Sys2Proof.Machine
end

section
/-!
PROOFS. A Sync sample that a domain accepts (R55-R58): the servo, the agreement and the lock test, and what the Meridian makes of it.
-/

namespace Sys2Proof.Machine

/-! ## Agreement (R58) -/

theorem updateAgree_of_off {s : State} {x : Nat} (h : s.f (F.PTP_X_STATUS_STATE x) = 0) : s.updateAgree x = s := if_pos h

theorem updateAgree_of_running {s : State} {x : Nat} (h : s.f (F.PTP_X_STATUS_STATE x) ≠ 0) :
    s.updateAgree x = if s.on (F.PTP_X_STATUS_AGREE x) && !s.agrees x then
      (s.setF (F.PTP_X_STATUS_AGREE x) (if s.agrees x then 1 else 0)).setF F.PTP_FLAGS_DISAGREE 1
      else s.setF (F.PTP_X_STATUS_AGREE x) (if s.agrees x then 1 else 0) := if_neg h

/-- Where the agreement of a domain does not fall, AGREE is all that changes. -/
theorem updateAgree_of_kept {s : State} {x : Nat} (h : s.f (F.PTP_X_STATUS_STATE x) ≠ 0)
    (hkept : s.on (F.PTP_X_STATUS_AGREE x) = false ∨ s.agrees x = true) :
    s.updateAgree x = s.setF (F.PTP_X_STATUS_AGREE x) (if s.agrees x then 1 else 0) := by
  rw [updateAgree_of_running h, if_neg]
  rcases hkept with hk | hk <;> simp [hk]

/-- The steering domain agrees with itself. -/
theorem agrees_of_steer {s : State} {x : Nat} (h : s.ptp.steer = x) : s.agrees x = true := by simp [State.agrees, h]

/-- To bring AGREE up to date is nothing, or to set AGREE, or to set DISAGREE too. -/
theorem updateAgree_cases (s : State) (x : Nat) : s.updateAgree x = s ∨ ∃ v, s.updateAgree x = s.setF (F.PTP_X_STATUS_AGREE x) v ∨
    s.updateAgree x = (s.setF (F.PTP_X_STATUS_AGREE x) v).setF F.PTP_FLAGS_DISAGREE 1 := by
  by_cases h : s.f (F.PTP_X_STATUS_STATE x) = 0
  · exact .inl (updateAgree_of_off h)
  · rw [updateAgree_of_running h]
    split
    · exact .inr ⟨_, .inr rfl⟩
    · exact .inr ⟨_, .inl rfl⟩

theorem frame_updateAgree (s : State) (x : Nat) : Frame [R.PTP_FLAGS, R.PTP_X_STATUS x] [] [] s (s.updateAgree x) := by
  obtain h | ⟨v, h | h⟩ := updateAgree_cases s x <;> rw [h]
  · exact (Frame.refl s).mono (by simp) (by simp) (by simp)
  · exact (frame_setF s _ v).mono (by simp) (by simp) (by simp)
  · exact ((frame_setF s _ v).trans (frame_setF _ F.PTP_FLAGS_DISAGREE 1)).mono (by simp) (by simp) (by simp)

@[simp] theorem updateAgree_ptp (s : State) (x : Nat) : (s.updateAgree x).ptp = s.ptp := by
  obtain h | ⟨v, h | h⟩ := updateAgree_cases s x <;> rw [h] <;> rfl

@[simp] theorem updateAgree_evNow (s : State) (x : Nat) : (s.updateAgree x).evNow = s.evNow := by
  obtain h | ⟨v, h | h⟩ := updateAgree_cases s x <;> rw [h] <;> rfl

/-- STATE and AGREE share no bit of PTP_x_STATUS. -/
theorem f_state_setF_agree (s : State) (x v : Nat) : (s.setF (F.PTP_X_STATUS_AGREE x) v).f (F.PTP_X_STATUS_STATE x) = s.f (F.PTP_X_STATUS_STATE x) :=
  f_setF_bits s v rfl (by simp) (by simp) (by simp)

theorem status_ne_flags (x : Nat) : R.PTP_X_STATUS x ≠ R.PTP_FLAGS := by
  simp only [R.PTP_X_STATUS, R.PTP_FLAGS]
  omega

theorem f_state_updateAgree (s : State) (x : Nat) : (s.updateAgree x).f (F.PTP_X_STATUS_STATE x) = s.f (F.PTP_X_STATUS_STATE x) := by
  obtain h | ⟨v, h | h⟩ := updateAgree_cases s x <;> rw [h]
  · exact f_state_setF_agree s x v
  · rw [f_setF_addr _ _ (status_ne_flags x), f_state_setF_agree]

/-- With the other domain OFF, the agreement of one domain is all that is brought up to date. -/
theorem agreeNow_of_other_off {s : State} {x : Nat} (hx : x < 2) (hoff : s.f (F.PTP_X_STATUS_STATE (1 - x)) = 0) : s.agreeNow = s.updateAgree x := by
  obtain rfl | rfl : x = 0 ∨ x = 1 := by omega
  · exact updateAgree_of_off (((frame_updateAgree s 0).f_eq (by decide)).trans hoff)
  · exact congrArg (State.updateAgree · 1) (updateAgree_of_off hoff)

/-! ## Reports to the Meridian (R58) -/

theorem reportUp_of_was (s : State) (src : Nat) : s.reportUp true src = s := rfl

theorem reportUp_of_unlocked {s : State} {src : Nat} (was : Bool) (h : s.srcLocked src = false) : s.reportUp was src = s := by
  simp [State.reportUp, h]

/-- A Meridian that is OFF takes no source. -/
theorem reportUp_of_merOff {s : State} (h : s.active fnMer = false) (was : Bool) (src : Nat) : s.reportUp was src = s := by
  simp [State.reportUp, State.sourceUp, h]

/-- A stopped Meridian observes no source. -/
theorem observePtp_of_stopped {s : State} (h : s.clk.run = false) (x : Nat) : s.observePtp x = s := by simp [State.observePtp, h]

/-! ## The lock test (R57) -/

/-- The run of samples within LOCK_THR is counted on, or ends. -/
def State.lockCounted (s : State) (x : Nat) (o : Int) : State :=
  let e := if s.ptp.steer = x then o else (s.dom x).ofs - (s.dom s.ptp.steer).ofs
  s.setDom x { s.dom x with lockRun := if e.natAbs ≤ s.f (F.PTP_X_LOCK_LOCK_THR x) then (s.dom x).lockRun + 1 else 0 }

/-- A domain that is LOCKED stays so. -/
theorem lockTest_of_locked {s : State} {x : Nat} (h : s.f (F.PTP_X_STATUS_STATE x) = 3) (o : Int) : s.lockTest x o = s.lockCounted x o := by
  simp [State.lockTest, State.lockCounted, h]

theorem ofs_lockCounted (s : State) (x : Nat) (o : Int) : ((s.lockCounted x o).dom x).ofs = (s.dom x).ofs := by
  rw [State.lockCounted, dom_setDom_same]

theorem frame_lockCounted (s : State) (x : Nat) (o : Int) : Frame [] [] [.ptp] s (s.lockCounted x o) := frame_setDom s x _

/-! ## An accepted sample, part by part (R55) -/

/-- The sample becomes the domain's offset and is counted. -/
def State.sampleTaken (s : State) (x : Nat) (o : Int) : State :=
  (s.setDom x { s.dom x with ofs := o, lastOfs := some o, jumpRun := [], refusedOfs := none, lastUsed := some s.clk.ns }).bump (R.PTP_X_SYNC_CNT x)

/-- The servo or a step follows, where the domain steers. -/
def State.sampleSteers (s : State) (x : Nat) (o : Int) (jump : Bool) : State :=
  if s.ptp.steer = x then (if jump ∧ s.rdn (R.PTP_X_STEP_THR x) < o.natAbs then s.stcStep x o else s.runServo x o) else s

/-- PTP_x_OFFSET, the agreement and the lock test follow. -/
def State.offsetTested (s : State) (x : Nat) (o : Int) : State := ((s.wrn (R.PTP_X_OFFSET x) (sat32 (s.dom x).ofs)).agreeNow).lockTest x o

theorem frame_sampleTaken (s : State) (x : Nat) (o : Int) : Frame [R.PTP_X_SYNC_CNT x] [] [.ptp] s (s.sampleTaken x o) :=
  (frame_setDom s x _).trans (frame_bump _ _)

theorem dom_sampleTaken (s : State) (x : Nat) (o : Int) : (s.sampleTaken x o).dom x =
    { s.dom x with ofs := o, lastOfs := some o, jumpRun := [], refusedOfs := none, lastUsed := some s.clk.ns } := by
  rw [State.sampleTaken, dom_bump, dom_setDom_same]

theorem acceptSample_eq {s : State} (hm : s.NoMon) (x : Nat) (o : Int) (jump : Bool) :
    s.acceptSample x o jump = (((((s.sampleTaken x o).sampleSteers x o jump).offsetTested x o).reportUp (s.srcLocked 1) 1).reportUp
      (s.srcLocked 2) 2).observePtp x := by
  have hset (d : DomSt) : (s.setDom x d).NoMon := (frame_setDom s x d).noMon (by simp) hm
  simp only [State.acceptSample, probe_noMon (hset _)]
  rfl

/-- PTP_x_OFFSET shows the offset, and AGREE what follows from it. -/
def State.offsetShown (s : State) (x : Nat) : State := (s.wrn (R.PTP_X_OFFSET x) (sat32 (s.dom x).ofs)).updateAgree x

theorem status_ne_offset (x y : Nat) : R.PTP_X_STATUS x ≠ R.PTP_X_OFFSET y := by
  simp only [R.PTP_X_STATUS, R.PTP_X_OFFSET]
  omega

theorem offset_ne_flags (x : Nat) : R.PTP_X_OFFSET x ≠ R.PTP_FLAGS := by
  simp only [R.PTP_X_OFFSET, R.PTP_FLAGS]
  omega

theorem f_state_offsetShown (s : State) (x : Nat) : (s.offsetShown x).f (F.PTP_X_STATUS_STATE x) = s.f (F.PTP_X_STATUS_STATE x) :=
  (f_state_updateAgree _ x).trans (f_wrn_ne s _ (status_ne_offset x x))

theorem frame_offsetShown (s : State) (x : Nat) : Frame [R.PTP_FLAGS, R.PTP_X_OFFSET x, R.PTP_X_STATUS x] [] [] s (s.offsetShown x) :=
  ((frame_wrn s (R.PTP_X_OFFSET x) _).trans (frame_updateAgree _ x)).mono (by simp) (by simp) (by simp)

theorem offsetShown_ptp (s : State) (x : Nat) : (s.offsetShown x).ptp = s.ptp := updateAgree_ptp _ x

theorem offsetShown_evNow (s : State) (x : Nat) : (s.offsetShown x).evNow = s.evNow := updateAgree_evNow _ x

theorem rd_offset_offsetShown (s : State) (x : Nat) : (s.offsetShown x).rd (R.PTP_X_OFFSET x) = BitVec.ofNat 32 (sat32 (s.dom x).ofs) := by
  have hout : R.PTP_X_OFFSET x ∉ [R.PTP_FLAGS, R.PTP_X_STATUS x] :=
    List.not_mem_cons_of_ne_of_not_mem (offset_ne_flags x) (mt List.mem_singleton.mp (status_ne_offset x x).symm)
  exact ((frame_updateAgree _ x).rd_eq hout).trans (rd_wrn_same _ _ _)

/-- The steering domain, which agrees with itself, raises no flag. -/
theorem rd_flags_offsetShown {s : State} {x : Nat} (hrun : s.f (F.PTP_X_STATUS_STATE x) ≠ 0) (hsteer : s.ptp.steer = x) :
    (s.offsetShown x).rd R.PTP_FLAGS = s.rd R.PTP_FLAGS := by
  have hshown : (s.wrn (R.PTP_X_OFFSET x) (sat32 (s.dom x).ofs)).f (F.PTP_X_STATUS_STATE x) ≠ 0 := by
    rwa [f_wrn_ne s _ (status_ne_offset x x)]
  rw [State.offsetShown, updateAgree_of_kept hshown (.inr (agrees_of_steer hsteer)), rd_setF_ne _ _ (status_ne_flags x).symm, rd_wrn_ne _ _ (offset_ne_flags x).symm]

/-- With the other domain OFF, a domain that is LOCKED shows its offset and counts its run on. -/
theorem offsetTested_of_locked {s : State} {x : Nat} (hx : x < 2) (hlocked : s.f (F.PTP_X_STATUS_STATE x) = 3)
    (hoff : s.f (F.PTP_X_STATUS_STATE (1 - x)) = 0) (o : Int) : s.offsetTested x o = (s.offsetShown x).lockCounted x o := by
  have hoff' := (f_wrn_ne s (sat32 (s.dom x).ofs) (status_ne_offset (1 - x) x)).trans hoff
  rw [State.offsetTested, agreeNow_of_other_off hx hoff']
  exact lockTest_of_locked ((f_state_offsetShown s x).trans hlocked) o

/-- A sample that brings up no source, while the Meridian stands still. -/
theorem acceptSample_of_quiet {s u v : State} {x : Nat} {o : Int} {jump : Bool} (hm : s.NoMon) (hsteer : (s.sampleTaken x o).sampleSteers x o jump = u)
    (htest : u.offsetTested x o = v) (hstop : v.clk.run = false) (hA : v.reportUp (s.srcLocked 1) 1 = v) (hB : v.reportUp (s.srcLocked 2) 2 = v) :
    s.acceptSample x o jump = v := by
  rw [acceptSample_eq hm, hsteer, htest, hA, hB, observePtp_of_stopped hstop]

/-! ## SYNC_RECEIVE (R55) -/

/-- The domain keeps what a sample of its parent tells. -/
def State.syncKept (s : State) (x : Nat) (h : PtpHdr) (t1 : Nat) (cf logInt : Int) : State :=
  let s := s.setDom x { s.dom x with syncMac := h.mac }
  s.setDom x { s.dom x with syncT1 := t1, syncT2 := s.clk.stc, syncCf := cf, syncSeen := true, syncLog := logInt }

theorem frame_syncKept (s : State) (x : Nat) (h : PtpHdr) (t1 : Nat) (cf logInt : Int) : Frame [] [] [.ptp] s (s.syncKept x h t1 cf logInt) :=
  frame_ptp s _

/-- The first used sample of a LOCKED domain, within OUTLIER of the last accepted one, is accepted. -/
theorem syncSample_within {s : State} {x : Nat} {h : PtpHdr} {t1 : Nat} {cf l : Int} (logInt : Int) (hparent : (s.dom x).parent = some h.source)
    (hused : (s.dom x).lastUsed = none) (hlast : (s.dom x).lastOfs = some l)
    (hnear : (s.sampleOffset x t1 cf - l).natAbs ≤ s.rdn (R.PTP_X_OUTLIER x)) (hlocked : s.f (F.PTP_X_STATUS_STATE x) = 3) :
    s.syncSample h t1 cf logInt x = (s.syncKept x h t1 cf logInt).acceptSample x (s.sampleOffset x t1 cf) false := by
  have hofs (d : DomSt) (hd : d.mpd = (s.dom x).mpd) : (s.setDom x d).sampleOffset x t1 cf = s.sampleOffset x t1 cf := by
    rw [State.sampleOffset, dom_setDom_same, hd]
    rfl
  simp [State.syncSample, State.syncKept, State.fromParent, hparent, hused, hlast, hlocked, hofs, hnear]

/-- What the servo of domain `x` makes of an offset: its integrator and its frequency (R56). -/
def State.servoOf (s : State) (x : Nat) (o : Int) : Int × Int :=
  servo (s.dom x).integ o (s.f (F.PTP_X_SERVO_KP x)) (s.f (F.PTP_X_SERVO_KI x))

/-- The target of the servo before it is limited (R73). -/
def State.servoTarget (s : State) (x : Nat) (o : Int) : Int := (s.servoOf x o).1 + sar (o * 256) (s.f (F.PTP_X_SERVO_KP x))

/-- The servo takes a sample whose target lies within the limits. -/
def State.servoRun (s : State) (x : Nat) (o : Int) : State :=
  let r := s.servoOf x o
  let s := s.setDom x { s.dom x with integ := r.1 }
  State.wrn { s with ptp := { s.ptp with f0 := s.dcoNow, fAt := s.clk.ns, f := r.2 } } (R.PTP_X_FREQ x) (ofSigned 32 r.2)

theorem frame_servoRun (s : State) (x : Nat) (o : Int) : Frame [R.PTP_X_FREQ x] [] [.ptp] s (s.servoRun x o) :=
  (frame_ptp s _).trans (frame_wrn _ _ _)

theorem dom_servoRun (s : State) (x : Nat) (o : Int) : (s.servoRun x o).dom x = { s.dom x with integ := (s.servoOf x o).1 } :=
  dom_setDom_same s x _

theorem runServo_of_within {s : State} {x : Nat} {o : Int} (hlo : -64000000 ≤ s.servoTarget x o) (hhi : s.servoTarget x o ≤ 64000000) :
    s.runServo x o = s.servoRun x o := if_neg (not_or.mpr ⟨not_lt.mpr hlo, not_lt.mpr hhi⟩)

/-- An operation that leaves the servo's parameters and its integrator alone leaves what it makes of an offset. -/
theorem Frame.servo_eq {regs fns : List Nat} {parts : List Part} {s t : State} (hf : Frame regs fns parts s t) {x : Nat} (hout : R.PTP_X_SERVO x ∉ regs)
    (hinteg : (t.dom x).integ = (s.dom x).integ) (o : Int) : t.servoOf x o = s.servoOf x o ∧ t.servoTarget x o = s.servoTarget x o := by
  have hkp : t.f (F.PTP_X_SERVO_KP x) = s.f (F.PTP_X_SERVO_KP x) := hf.f_eq hout
  have hki : t.f (F.PTP_X_SERVO_KI x) = s.f (F.PTP_X_SERVO_KI x) := hf.f_eq hout
  have hof : t.servoOf x o = s.servoOf x o := by rw [State.servoOf, hkp, hki, hinteg, State.servoOf]
  exact ⟨hof, by rw [State.servoTarget, hof, hkp, State.servoTarget]⟩

theorem servo_sampleTaken (s : State) (x : Nat) (o : Int) :
    (s.sampleTaken x o).servoOf x o = s.servoOf x o ∧ (s.sampleTaken x o).servoTarget x o = s.servoTarget x o :=
  (frame_sampleTaken s x o).servo_eq (by simp) (by rw [dom_sampleTaken]) o

theorem servo_syncKept (s : State) (x : Nat) (h : PtpHdr) (t1 : Nat) (cf logInt o : Int) :
    (s.syncKept x h t1 cf logInt).servoOf x o = s.servoOf x o ∧ (s.syncKept x h t1 cf logInt).servoTarget x o = s.servoTarget x o :=
  (frame_syncKept s x h t1 cf logInt).servo_eq (by simp) (by simp [State.syncKept]) o

theorem sampleSteers_of_steer {s : State} {x : Nat} (h : s.ptp.steer = x) (o : Int) : s.sampleSteers x o false = s.runServo x o := by
  simp [State.sampleSteers, h]

/-- A steering domain that is LOCKED reports so, where PTP is enabled (R58). -/
theorem srcLocked_of_steer {s : State} (hen : s.on F.PTP_CTL_EN = true) (hlocked : s.f (F.PTP_X_STATUS_STATE 0) = 3) (hsteer : s.ptp.steer = 0) :
    s.srcLocked 1 = true := by
  simp [State.srcLocked, State.domReports, hen, hlocked, hsteer]

/-- A domain that is OFF does not. -/
theorem srcLocked_of_off {s : State} (hoff : s.f (F.PTP_X_STATUS_STATE 1) = 0) : s.srcLocked 2 = false := by
  simp [State.srcLocked, State.domReports, hoff]

/-- What the accepted sample of a LOCKED domain that steers changes (R55-R58). -/
def State.steeredBy (s : State) (x : Nat) (o : Int) : State := (((s.sampleTaken x o).servoRun x o).offsetShown x).lockCounted x o

theorem frame_servoTaken (s : State) (x : Nat) (o : Int) :
    Frame [R.PTP_X_SYNC_CNT x, R.PTP_X_FREQ x] [] [.ptp] s ((s.sampleTaken x o).servoRun x o) :=
  ((frame_sampleTaken s x o).trans (frame_servoRun _ x o)).mono (by simp) (by simp) (by simp)

/-- The tests that follow the servo. -/
theorem frame_servoShown (s : State) (x : Nat) (o : Int) :
    Frame [R.PTP_FLAGS, R.PTP_X_OFFSET x, R.PTP_X_STATUS x] [] [.ptp] ((s.sampleTaken x o).servoRun x o) (s.steeredBy x o) :=
  ((frame_offsetShown _ x).trans (frame_lockCounted _ x o)).mono (by simp) (by simp) (by simp)

/-- A message reaches a domain only where PTP is enabled. -/
theorem on_en_of_bound {s : State} {x : Nat} {h : PtpHdr} (hb : s.bound x h = true) : s.on F.PTP_CTL_EN = true := by
  simp only [State.bound, Bool.and_eq_true] at hb
  obtain ⟨⟨⟨⟨⟨hen, -⟩, -⟩, -⟩, -⟩, -⟩ := hb
  exact hen

/-- The accepted sample of a LOCKED domain A that steers, while domain B is OFF and the Meridian stands still. -/
theorem acceptSample_steering {s : State} {o : Int} (hm : s.NoMon) (hen : s.on F.PTP_CTL_EN = true) (hlocked : s.f (F.PTP_X_STATUS_STATE 0) = 3)
    (hoff : s.f (F.PTP_X_STATUS_STATE 1) = 0) (hsteer : s.ptp.steer = 0) (hstop : s.clk.run = false)
    (hlo : -64000000 ≤ s.servoTarget 0 o) (hhi : s.servoTarget 0 o ≤ 64000000) :
    s.acceptSample 0 o false = s.steeredBy 0 o := by
  obtain ⟨-, htarget⟩ := servo_sampleTaken s 0 o
  have hservo : (s.sampleTaken 0 o).sampleSteers 0 o false = (s.sampleTaken 0 o).servoRun 0 o :=
    (sampleSteers_of_steer (s := s.sampleTaken 0 o) hsteer o).trans (runServo_of_within (by rwa [htarget]) (by rwa [htarget]))
  have hbefore := frame_servoTaken s 0 o
  have hlocked' : ((s.sampleTaken 0 o).servoRun 0 o).f (F.PTP_X_STATUS_STATE 0) = 3 := (hbefore.f_eq (by decide)).trans hlocked
  have hoff' : ((s.sampleTaken 0 o).servoRun 0 o).f (F.PTP_X_STATUS_STATE (1 - 0)) = 0 := (hbefore.f_eq (by decide)).trans hoff
  have hall := hbefore.trans (frame_servoShown s 0 o)
  have hclk : (s.steeredBy 0 o).clk = s.clk := hall.part (p := .clk) (by decide)
  refine acceptSample_of_quiet hm hservo (offsetTested_of_locked (by decide) hlocked' hoff' o) (by rw [hclk, hstop]) ?_ ?_
  · rw [srcLocked_of_steer hen hlocked hsteer, reportUp_of_was]
  · exact reportUp_of_unlocked _ (srcLocked_of_off ((hall.f_eq (by decide)).trans hoff))

/-- The same, without PTP_FLAGS: the steering domain agrees with itself. -/
theorem frame_steeredBy {s : State} (o : Int) (hlocked : s.f (F.PTP_X_STATUS_STATE 0) = 3) (hsteer : s.ptp.steer = 0) :
    Frame [R.PTP_X_SYNC_CNT 0, R.PTP_X_OFFSET 0, R.PTP_X_FREQ 0, R.PTP_X_STATUS 0] [] [.ptp] s (s.steeredBy 0 o) := by
  have hbefore := frame_servoTaken s 0 o
  have hrun : ((s.sampleTaken 0 o).servoRun 0 o).f (F.PTP_X_STATUS_STATE 0) ≠ 0 := by
    rw [hbefore.f_eq (by decide), hlocked]
    decide
  have hall := (hbefore.trans (frame_servoShown s 0 o)).mono (r₂ := [R.PTP_FLAGS, R.PTP_X_SYNC_CNT 0, R.PTP_X_OFFSET 0, R.PTP_X_FREQ 0, R.PTP_X_STATUS 0])
    (f₂ := []) (p₂ := [.ptp]) (by simp) (by simp) (by simp)
  exact hall.drop ((rd_flags_offsetShown hrun hsteer).trans (hbefore.rd_eq (by decide)))

theorem dom_offsetShown (s : State) (x y : Nat) : (s.offsetShown x).dom y = s.dom y := by rw [State.dom, offsetShown_ptp, State.dom]

theorem ofs_steeredBy (s : State) (x : Nat) (o : Int) : ((s.steeredBy x o).dom x).ofs = o := by
  rw [State.steeredBy, ofs_lockCounted, dom_offsetShown, dom_servoRun, dom_sampleTaken]

/-- The DCO moves from where it stands to the servo's new frequency (R56). -/
theorem dco_steeredBy (s : State) (x : Nat) (o : Int) :
    (s.steeredBy x o).ptp.f = (s.servoOf x o).2 ∧ (s.steeredBy x o).ptp.f0 = s.dcoNow ∧ (s.steeredBy x o).ptp.fAt = s.clk.ns := by
  have hptp := offsetShown_ptp ((s.sampleTaken x o).servoRun x o) x
  obtain ⟨hof, -⟩ := servo_sampleTaken s x o
  refine ⟨(congrArg PtpSt.f hptp).trans ?_, congrArg PtpSt.f0 hptp, congrArg PtpSt.fAt hptp⟩
  exact congrArg Prod.snd hof

/-- The registers that show the sample. -/
theorem rd_steeredBy (s : State) (o : Int) :
    (s.steeredBy 0 o).rdn (R.PTP_X_SYNC_CNT 0) = (s.rdn (R.PTP_X_SYNC_CNT 0) + 1) % 2 ^ 32 ∧
      (s.steeredBy 0 o).rd (R.PTP_X_OFFSET 0) = BitVec.ofNat 32 (sat32 o) ∧
      (s.steeredBy 0 o).rd (R.PTP_X_FREQ 0) = BitVec.ofNat 32 (ofSigned 32 (s.steeredBy 0 o).ptp.f) := by
  have hshown := frame_servoShown s 0 o
  have hservo := frame_servoRun (s.sampleTaken 0 o) 0 o
  obtain ⟨hdco, -, -⟩ := dco_steeredBy s 0 o
  obtain ⟨hof, -⟩ := servo_sampleTaken s 0 o
  refine ⟨?_, ?_, ?_⟩
  · rw [hshown.rdn_eq (by decide), hservo.rdn_eq (by decide)]
    exact rdn_bump_same (s.setDom 0 _) _
  · have hofs : (((s.sampleTaken 0 o).servoRun 0 o).dom 0).ofs = o := by rw [dom_servoRun, dom_sampleTaken]
    exact (rd_offset_offsetShown _ 0).trans (by rw [hofs])
  · rw [hshown.rd_eq (by decide), hdco, ← hof]
    exact rd_wrn_same _ _ _

/-- SYNC_RECEIVE, for a sample of a LOCKED, steering domain A within OUTLIER of the last one. -/
theorem syncReceive_completes {s : State} {h : PtpHdr} {t1 : Nat} {cf logInt o l : Int} (hm : s.NoMon) (hA : s.bound 0 h = true) (hB : s.bound 1 h = false)
    (hparent : (s.dom 0).parent = some h.source) (hused : (s.dom 0).lastUsed = none) (ho : o = s.sampleOffset 0 t1 cf) (hlast : (s.dom 0).lastOfs = some l)
    (hnear : (o - l).natAbs ≤ s.rdn (R.PTP_X_OUTLIER 0)) (hlocked : s.f (F.PTP_X_STATUS_STATE 0) = 3) (hoff : s.f (F.PTP_X_STATUS_STATE 1) = 0)
    (hsteer : s.ptp.steer = 0) (hstop : s.clk.run = false)
    (hlo : -64000000 ≤ (servo (s.dom 0).integ o (s.f (F.PTP_X_SERVO_KP 0)) (s.f (F.PTP_X_SERVO_KI 0))).1 + sar (o * 256) (s.f (F.PTP_X_SERVO_KP 0)))
    (hhi : (servo (s.dom 0).integ o (s.f (F.PTP_X_SERVO_KP 0)) (s.f (F.PTP_X_SERVO_KI 0))).1 + sar (o * 256) (s.f (F.PTP_X_SERVO_KP 0)) ≤ 64000000) :
    Completes (.syncReceive h t1 cf logInt) s fun t => (t.dom 0).ofs = o ∧ t.rdn (R.PTP_X_SYNC_CNT 0) = (s.rdn (R.PTP_X_SYNC_CNT 0) + 1) % 2 ^ 32 ∧
      t.rd (R.PTP_X_OFFSET 0) = BitVec.ofNat 32 (sat32 o) ∧
      t.ptp.f = (servo (s.dom 0).integ o (s.f (F.PTP_X_SERVO_KP 0)) (s.f (F.PTP_X_SERVO_KI 0))).2 ∧ t.ptp.f0 = s.dcoNow ∧ t.ptp.fAt = s.clk.ns ∧
      t.rd (R.PTP_X_FREQ 0) = BitVec.ofNat 32 (ofSigned 32 t.ptp.f) ∧
      Keeps [R.PTP_X_SYNC_CNT 0, R.PTP_X_OFFSET 0, R.PTP_X_FREQ 0, R.PTP_X_STATUS 0] [] [.ptp] s t := by
  have hkept := frame_syncKept s.begin 0 h t1 cf logInt
  obtain ⟨hof, htarget⟩ := servo_syncKept s.begin 0 h t1 cf logInt o
  have haccept : (s.begin.syncKept 0 h t1 cf logInt).acceptSample 0 o false = (s.begin.syncKept 0 h t1 cf logInt).steeredBy 0 o :=
    acceptSample_steering (hkept.noMon (by simp) hm) (on_en_of_bound hA) hlocked hoff hsteer hstop (htarget ▸ hlo) (htarget ▸ hhi)
  have hop : s.begin.syncSample h t1 cf logInt 0 = (s.begin.syncKept 0 h t1 cf logInt).steeredBy 0 o := by
    rw [← haccept, ho]
    exact syncSample_within (s := s.begin) logInt hparent hused hlast (ho ▸ hnear) hlocked
  have hf := hkept.trans (frame_steeredBy (s := s.begin.syncKept 0 h t1 cf logInt) o hlocked hsteer)
  obtain ⟨hcnt, hofs, hfreq⟩ := rd_steeredBy (s.begin.syncKept 0 h t1 cf logInt) o
  obtain ⟨hdco, hdco0, hdcoAt⟩ := dco_steeredBy (s.begin.syncKept 0 h t1 cf logInt) 0 o
  exact completes_of_frame (op := (·.perDom h (fun t x => t.syncSample h t1 cf logInt x))) rfl (perDom_domainA hA hB hop hf (by decide) (by decide))
    (hf.mono (by simp) (by simp) (by simp)) (.inl (offsetShown_evNow _ 0)) fun hkeeps =>
    ⟨ofs_steeredBy _ 0 o, hcnt, hofs, hdco.trans (congrArg Prod.snd hof), hdco0, hdcoAt, hfreq, hkeeps⟩

/-- Settles O7, clause by clause. -/
theorem ptpMessageCommandsComplete : Obligations.PtpMessageCommandsComplete := by
  unfold Obligations.PtpMessageCommandsComplete
  exact ⟨fun _ _ _ _ _ _ _ => syncReceive_completes, fun _ _ _ => announceReceive_completes, fun _ _ _ _ _ _ => delayRespReceive_completes,
    fun _ _ _ => delayReqSend_completes, fun _ _ _ => pdelayReqSend_completes, fun _ _ _ => pdelayReqReceive_completes,
    fun _ _ _ _ _ _ => pdelayRespReceive_completes⟩

end Sys2Proof.Machine
end

section
/-!
PROOFS. PTP domains: how one loses its source (R57), takes a refused jump (R61) and starts (R52).
-/

namespace Sys2Proof.Machine

/-! ## ANNOUNCE_TIMEOUT, SYNC_TIMEOUT (R57) -/

/-- The flag of a domain that loses its source. -/
def lossFlag (x : Nat) : Fld := if x = 0 then F.PTP_FLAGS_LOSS_A else F.PTP_FLAGS_LOSS_B

theorem lossFlag_addr (x : Nat) : (lossFlag x).addr = R.PTP_FLAGS := by
  unfold lossFlag
  split <;> rfl

theorem on_setF_lossFlag (s : State) (x : Nat) : (s.setF (lossFlag x) 1).on (lossFlag x) = true := by
  unfold lossFlag
  split
  · exact on_setF_same s F.PTP_FLAGS_LOSS_A (by decide) rfl
  · exact on_setF_same s F.PTP_FLAGS_LOSS_B (by decide) rfl

/-- A domain in HOLDOVER: its offset is held, its runs are gone. -/
def State.sourceLost (s : State) (x : Nat) : State :=
  (((s.setDom x { s.dom x with lockRun := 0, jumpRun := [] }).setF (F.PTP_X_STATUS_STATE x) 4).setF (lossFlag x) 1).raise 0x0303 x

theorem frame_sourceLost (s : State) (x : Nat) : Frame [R.PTP_X_STATUS x, R.PTP_FLAGS] [] [.ptp] s (s.sourceLost x) := by
  have hflag := frame_setF ((s.setDom x { s.dom x with lockRun := 0, jumpRun := [] }).setF (F.PTP_X_STATUS_STATE x) 4) (lossFlag x) 1
  rw [lossFlag_addr] at hflag
  exact (((frame_setDom s x _).trans (frame_setF _ (F.PTP_X_STATUS_STATE x) 4)).trans hflag).trans (frame_raise _ 0x0303 x)

theorem f_state_sourceLost (s : State) (x : Nat) : (s.sourceLost x).f (F.PTP_X_STATUS_STATE x) = 4 := by
  have hne : (F.PTP_X_STATUS_STATE x).addr ≠ (lossFlag x).addr := by
    rw [lossFlag_addr]
    exact status_ne_flags x
  rw [State.sourceLost, f_raise, f_setF_addr _ _ hne]
  exact f_setF_same _ (F.PTP_X_STATUS_STATE x) 4 (by simp)

theorem on_lossFlag_sourceLost (s : State) (x : Nat) : (s.sourceLost x).on (lossFlag x) = true := by
  rw [State.sourceLost, on_raise, on_setF_lossFlag]

theorem dom_sourceLost (s : State) (x : Nat) : (s.sourceLost x).dom x = { s.dom x with lockRun := 0, jumpRun := [] } := by
  rw [State.sourceLost, dom_raise, dom_setF, dom_setF, dom_setDom_same]

theorem sourceLost_evNow (s : State) (x : Nat) : (s.sourceLost x).evNow = s.evNow ++ [⟨0x0303, x⟩] := by
  rw [State.sourceLost, State.raise, setF_evNow, setF_evNow, evNow_setDom]

/-- A LOCKED domain that the Meridian does not follow loses its source. -/
theorem domLoss_of_locked {s : State} {x : Nat} (hlocked : s.f (F.PTP_X_STATUS_STATE x) = 3) (hsrc : s.f F.MER_STATUS_SRC ≠ x + 1) :
    s.domLoss x = s.sourceLost x := by
  have hne : R.MER_STATUS ≠ R.PTP_X_STATUS x := by
    simp only [R.MER_STATUS, R.PTP_X_STATUS]
    omega
  have hout : F.MER_STATUS_SRC.addr ∉ [R.PTP_X_STATUS x, R.PTP_FLAGS] := List.not_mem_cons_of_ne_of_not_mem hne (by decide)
  have hsrc' : (s.sourceLost x).f F.MER_STATUS_SRC ≠ x + 1 := by rwa [(frame_sourceLost s x).f_eq hout]
  have hdown : s.domLoss x = (s.sourceLost x).sourceDown (x + 1) := if_pos (.inl hlocked)
  rw [hdown, State.sourceDown, if_neg (fun h => hsrc' h.2)]

/-- A timeout of a LOCKED domain that the Meridian does not follow: time runs on to `due`, and `d` is what the domain holds then. -/
theorem timeout_completes {i : Instr} {s : State} {x due : Nat} {d : DomSt} {op : State → State} (hexec : exec i s = s.run (·.idx x 2 op)) (hx : x < 2)
    (hop : op s.begin = ((s.begin.toNs due).setDom x d).domLoss x) (hlocked : s.f (F.PTP_X_STATUS_STATE x) = 3) (hsrc : s.f F.MER_STATUS_SRC ≠ x + 1) :
    Completes i s fun t => t.dom x = { d with lockRun := 0, jumpRun := [] } ∧ t.f (F.PTP_X_STATUS_STATE x) = 4 ∧ t.on (lossFlag x) = true ∧
      due ≤ t.clk.ns ∧ Logged [⟨0x0303, x⟩] s t ∧ Keeps [R.PTP_X_STATUS x, R.PTP_FLAGS] [] [.ptp, .clk, .log] s t := by
  have hloss := hop.trans (domLoss_of_locked (s := (s.begin.toNs due).setDom x d) hlocked hsrc)
  have hset := (frame_toNs s.begin due).trans (frame_setDom (s.begin.toNs due) x d)
  have hlost := frame_sourceLost ((s.begin.toNs due).setDom x d) x
  have hclk : (((s.begin.toNs due).setDom x d).sourceLost x).clk = (s.begin.toNs due).clk := hlost.part (p := .clk) (by decide)
  have hlog : (((s.begin.toNs due).setDom x d).sourceLost x).log = s.log := (hset.trans hlost).part (p := .log) (by decide)
  refine completes_of_frame hexec ((idx_of_lt hx).trans hloss) ((hset.trans hlost).mono (by simp) (by simp) (by simp)) (.inr (by simp)) fun hkeeps =>
    ⟨?_, ?_, ?_, ?_, ?_, hkeeps⟩
  · rw [dom_finish, dom_sourceLost, dom_setDom_same]
  · rw [f_finish, f_state_sourceLost]
  · rw [on_finish, on_lossFlag_sourceLost]
  · rw [finish_clk, hclk]
    exact le_toNs s.begin due
  · exact finish_logged (by rw [sourceLost_evNow]; rfl) (by rw [hlog]; exact ⟨rfl, rfl⟩) (by simp) (by simp; omega)

/-- ANNOUNCE_TIMEOUT. -/
theorem announceTimeout_completes {s : State} {x t0 : Nat} (hx : x < 2) (hann : (s.dom x).annAt = some t0) (hlocked : s.f (F.PTP_X_STATUS_STATE x) = 3)
    (hsrc : s.f F.MER_STATUS_SRC ≠ x + 1) :
    Completes (.announceTimeout x) s fun t => (t.dom x).gm = none ∧ t.f (F.PTP_X_STATUS_STATE x) = 4 ∧
      t.on (if x = 0 then F.PTP_FLAGS_LOSS_A else F.PTP_FLAGS_LOSS_B) = true ∧ t0 + s.f (F.PTP_X_TIMEOUT_ANNOUNCE_TO x) * logNs (s.dom x).annLog ≤ t.clk.ns ∧
      (t.dom x).ofs = (s.dom x).ofs ∧ Logged [⟨0x0303, x⟩] s t ∧ Keeps [R.PTP_X_STATUS x, R.PTP_FLAGS] [] [.ptp, .clk, .log] s t := by
  have hop : s.begin.announceTimeout x = ((s.begin.toNs (t0 + s.f (F.PTP_X_TIMEOUT_ANNOUNCE_TO x) * logNs (s.dom x).annLog)).setDom x
      { s.dom x with gm := none, annAt := none, parent := none, masters := (s.dom x).masters.filter (fun y => decide (some y.source ≠ (s.dom x).parent)) }).domLoss x := by
    simp only [State.announceTimeout, dom_begin, f_begin, hann]
    rfl
  refine (timeout_completes (op := (·.announceTimeout x)) rfl hx hop hlocked hsrc).imp ?_
  rintro t ⟨hdom, hstate, hflag, hdue, hlog, hkeeps⟩
  exact ⟨by rw [hdom], hstate, hflag, hdue, by rw [hdom], hlog, hkeeps⟩

/-- SYNC_TIMEOUT. -/
theorem syncTimeout_completes {s : State} {x t0 : Nat} (hx : x < 2) (hused : (s.dom x).lastUsed = some t0) (hlocked : s.f (F.PTP_X_STATUS_STATE x) = 3)
    (hsrc : s.f F.MER_STATUS_SRC ≠ x + 1) :
    Completes (.syncTimeout x) s fun t => t.f (F.PTP_X_STATUS_STATE x) = 4 ∧ t.on (if x = 0 then F.PTP_FLAGS_LOSS_A else F.PTP_FLAGS_LOSS_B) = true ∧
      t0 + s.f (F.PTP_X_TIMEOUT_SYNC_TO x) * logNs (s.dom x).syncLog ≤ t.clk.ns ∧ (t.dom x).ofs = (s.dom x).ofs ∧ Logged [⟨0x0303, x⟩] s t ∧
      Keeps [R.PTP_X_STATUS x, R.PTP_FLAGS] [] [.ptp, .clk, .log] s t := by
  have hop : s.begin.syncTimeout x =
      ((s.begin.toNs (t0 + s.f (F.PTP_X_TIMEOUT_SYNC_TO x) * logNs (s.dom x).syncLog)).setDom x { s.dom x with lastUsed := none }).domLoss x := by
    simp only [State.syncTimeout, dom_begin, f_begin, hused]
  refine (timeout_completes (op := (·.syncTimeout x)) rfl hx hop hlocked hsrc).imp ?_
  rintro t ⟨hdom, hstate, hflag, hdue, hlog, hkeeps⟩
  exact ⟨hstate, hflag, hdue, by rw [hdom], hlog, hkeeps⟩

/-! ## ACCEPT_A (R61) -/

/-- A write of ACCEPT_A to PTP_CMD reaches the refused jump. -/
theorem ctlWrite_acceptA {s : State} (hk : s.dark = false) : s.ctlWrite F.PTP_CMD_ACCEPT_A 1 = s.acceptA := by
  have haccept := ctl_act_same (fs := [⟨0, 0, .wo, false, .any⟩]) (s.oldWord .pcie R.PTP_CMD) (s.rdn R.PTP_CMD) 0 0 1 ⟨0, 0, .wo, false, .any⟩
    (by simp) ⟨rfl, rfl⟩ (by decide) (by decide) (.inl rfl)
  refine ctlWrite_unit hk (by decide) (d := ⟨R.PTP_CMD, [], 0x0, false, [⟨0, 0, .wo, false, .any⟩]⟩) rfl rfl (fieldsOk_any rfl _ _) (by decide) (by decide) ?_
  exact congrArg some (if_pos haccept)

theorem acceptA_of_refused {s : State} {o : Int} (hrefused : (s.dom 0).refusedOfs = some o) (hstate : s.f (F.PTP_X_STATUS_STATE 0) = 5) :
    s.acceptA = (s.setF (F.PTP_X_STATUS_STATE 0) 3).acceptSample 0 o true := by simp [State.acceptA, hrefused, hstate]

theorem sampleSteers_of_other {s : State} {x : Nat} (h : s.ptp.steer ≠ x) (o : Int) (jump : Bool) : s.sampleSteers x o jump = s := if_neg h

/-- What the accepted sample of a LOCKED domain that does not steer changes (R55, R57, R58). -/
def State.followedBy (s : State) (x : Nat) (o : Int) : State := ((s.sampleTaken x o).offsetShown x).lockCounted x o

theorem frame_followedBy (s : State) (x : Nat) (o : Int) :
    Frame [R.PTP_X_SYNC_CNT x, R.PTP_X_OFFSET x, R.PTP_X_STATUS x, R.PTP_FLAGS] [] [.ptp] s (s.followedBy x o) :=
  (((frame_sampleTaken s x o).trans (frame_offsetShown _ x)).trans (frame_lockCounted _ x o)).mono (by simp) (by simp) (by simp)

theorem f_state_followedBy (s : State) (x : Nat) (o : Int) : (s.followedBy x o).f (F.PTP_X_STATUS_STATE x) = s.f (F.PTP_X_STATUS_STATE x) := by
  have hout : R.PTP_X_STATUS x ∉ [R.PTP_X_SYNC_CNT x] := by simp
  exact (f_state_offsetShown _ x).trans ((frame_sampleTaken s x o).f_eq hout)

theorem ofs_followedBy (s : State) (x : Nat) (o : Int) : ((s.followedBy x o).dom x).ofs = o := by
  rw [State.followedBy, ofs_lockCounted, dom_offsetShown, dom_sampleTaken]

/-- The registers that show the sample. -/
theorem rd_followedBy (s : State) (o : Int) : (s.followedBy 0 o).rdn (R.PTP_X_SYNC_CNT 0) = (s.rdn (R.PTP_X_SYNC_CNT 0) + 1) % 2 ^ 32 ∧
    (s.followedBy 0 o).rd (R.PTP_X_OFFSET 0) = BitVec.ofNat 32 (sat32 o) := by
  have hshown := (frame_offsetShown (s.sampleTaken 0 o) 0).trans (frame_lockCounted _ 0 o)
  refine ⟨(hshown.rdn_eq (by decide)).trans (rdn_bump_same (s.setDom 0 _) _), (rd_offset_offsetShown _ 0).trans ?_⟩
  rw [dom_sampleTaken]

/-- The accepted sample of a LOCKED domain A that does not steer, while domain B and the Meridian are OFF. -/
theorem acceptSample_following {s : State} (hm : s.NoMon) (hlocked : s.f (F.PTP_X_STATUS_STATE 0) = 3) (hoff : s.f (F.PTP_X_STATUS_STATE 1) = 0)
    (hsteer : s.ptp.steer = 1) (hmer : s.active fnMer = false) (hstop : s.clk.run = false) (o : Int) (jump : Bool) :
    s.acceptSample 0 o jump = s.followedBy 0 o := by
  have htaken := frame_sampleTaken s 0 o
  have hother : (s.sampleTaken 0 o).sampleSteers 0 o jump = s.sampleTaken 0 o :=
    sampleSteers_of_other (s := s.sampleTaken 0 o) (fun h => absurd (h.symm.trans hsteer) (by decide)) o jump
  have hall := frame_followedBy s 0 o
  have hclk : (s.followedBy 0 o).clk = s.clk := hall.part (p := .clk) (by decide)
  have hmer' : (s.followedBy 0 o).active fnMer = false := (hall.active_eq (by decide)).trans hmer
  refine acceptSample_of_quiet hm hother (offsetTested_of_locked (by decide) ((htaken.f_eq (by decide)).trans hlocked)
    ((htaken.f_eq (by decide)).trans hoff) o) (by rw [← hstop, ← hclk, State.followedBy]) ?_ ?_
  · exact reportUp_of_merOff hmer' _ _
  · exact reportUp_of_merOff hmer' _ _

/-- ACCEPT_A, while domain B steers and is OFF, and so is the Meridian. -/
theorem acceptA_completes {s : State} {o : Int} (hm : s.NoMon) (hk : s.dark = false) (hrefused : (s.dom 0).refusedOfs = some o)
    (hstate : s.f (F.PTP_X_STATUS_STATE 0) = 5) (hoff : s.f (F.PTP_X_STATUS_STATE 1) = 0) (hsteer : s.ptp.steer = 1) (hmer : s.active fnMer = false)
    (hstop : s.clk.run = false) :
    Completes (.acceptA) s fun t => (t.dom 0).ofs = o ∧ t.f (F.PTP_X_STATUS_STATE 0) = 3 ∧
      t.rdn (R.PTP_X_SYNC_CNT 0) = (s.rdn (R.PTP_X_SYNC_CNT 0) + 1) % 2 ^ 32 ∧ t.rd (R.PTP_X_OFFSET 0) = BitVec.ofNat 32 (sat32 o) ∧
      Keeps [R.PTP_X_SYNC_CNT 0, R.PTP_X_OFFSET 0, R.PTP_X_STATUS 0, R.PTP_FLAGS] [] [.ptp] s t := by
  have hset := frame_setF s.begin (F.PTP_X_STATUS_STATE 0) 3
  have hlocked : (s.begin.setF (F.PTP_X_STATUS_STATE 0) 3).f (F.PTP_X_STATUS_STATE 0) = 3 := f_setF_same _ _ _ (by decide)
  have haccept := acceptSample_following (s := s.begin.setF (F.PTP_X_STATUS_STATE 0) 3) (hset.noMon (by decide) hm) hlocked
    ((hset.f_eq (by decide)).trans hoff) hsteer hmer hstop o true
  have hop := ((ctlWrite_acceptA (s := s.begin) hk).trans (acceptA_of_refused (s := s.begin) hrefused hstate)).trans haccept
  have hf := hset.trans (frame_followedBy (s.begin.setF (F.PTP_X_STATUS_STATE 0) 3) 0 o)
  obtain ⟨hcnt, hofs⟩ := rd_followedBy (s.begin.setF (F.PTP_X_STATUS_STATE 0) 3) o
  have hlocked' : ((s.begin.setF (F.PTP_X_STATUS_STATE 0) 3).followedBy 0 o).f (F.PTP_X_STATUS_STATE 0) = 3 :=
    (f_state_followedBy _ 0 o).trans hlocked
  refine completes_of_frame (op := (·.ctlWrite F.PTP_CMD_ACCEPT_A 1)) rfl hop (hf.mono (by simp) (by simp) (by simp))
    (.inl (offsetShown_evNow _ 0)) fun hkeeps => ⟨ofs_followedBy _ 0 o, hlocked', ?_, hofs, hkeeps⟩
  rw [rdn_finish, hcnt, hset.rdn_eq (by decide), rdn_begin]

/-! ## PTP_DOMAIN_ENABLE (R52) -/

/-- The fields of PTP_x_CTL: EN, TRANSPORT, DELAY, HYBRID, PORT, DOMAIN, VLAN. -/
def domCtlFields : List FieldDef :=
  [⟨0, 0, .rw, false, .any⟩, ⟨2, 1, .rw, false, .range 0 2⟩, ⟨3, 3, .rw, false, .any⟩, ⟨4, 4, .rw, false, .any⟩, ⟨7, 5, .rw, false, .any⟩,
    ⟨15, 8, .rw, false, .range 0 127⟩, ⟨27, 16, .rw, false, .any⟩]

/-- PTP_x_CTL as it stands, with EN set. -/
def State.domCtlEnabled (s : State) (x : Nat) : Word :=
  BitVec.ofNat 32 (mergeWord true domCtlFields (s.rdn (R.PTP_X_CTL x)) (BitVec.ofNat 32 (setBits (s.rdn (R.PTP_X_CTL x)) 0 0 1)).toNat)

theorem domCtlEnabled_en (s : State) (x : Nat) : bitsOf (s.domCtlEnabled x).toNat 0 0 = 1 :=
  ctl_act_same _ _ 0 0 1 ⟨0, 0, .rw, false, .any⟩ (by simp [domCtlFields]) ⟨rfl, rfl⟩ (by decide) (by decide) (.inr (.inl rfl))

/-- PTP_x_CTL takes that word. -/
def State.domCtl (s : State) (x : Nat) : State := s.wr (R.PTP_X_CTL x) (s.domCtlEnabled x)

/-- The binding is as it stands. -/
theorem domCtlEnabled_binding (s : State) (x : Nat) : bitsOf (s.domCtlEnabled x).toNat 2 1 = s.f (F.PTP_X_CTL_TRANSPORT x) ∧
    bitsOf (s.domCtlEnabled x).toNat 15 8 = s.f (F.PTP_X_CTL_DOMAIN x) :=
  ⟨ctl_act_other _ _ 0 0 1 ⟨2, 1, .rw, false, .range 0 2⟩ (by simp [domCtlFields]) (by decide) (by decide) (by decide) (by decide) (.inr (.inl rfl)),
    ctl_act_other _ _ 0 0 1 ⟨15, 8, .rw, false, .range 0 127⟩ (by simp [domCtlFields]) (by decide) (by decide) (by decide) (by decide) (.inr (.inl rfl))⟩

/-- A write of EN to PTP_x_CTL reaches the domain, and the joins follow (R52, R286). -/
theorem ctlWrite_domEnable {s : State} {x : Nat} (hk : s.dark = false) (hx : x < 2) :
    s.ctlWrite (F.PTP_X_CTL_EN x) 1 = (s.domWrite x (s.domCtlEnabled x)).joinAll := by
  have hrow : regDef (R.PTP_X_CTL x) = some ⟨0x30100, [(256, 2)], 0x7F02, false, domCtlFields⟩ := by interval_cases x <;> rfl
  have hold : s.oldWord .pcie (R.PTP_X_CTL x) = s.rdn (R.PTP_X_CTL x) := by interval_cases x <;> rfl
  have hunit (v raw : Word) : s.unitReg .pcie (R.PTP_X_CTL x) v raw = some ((s.domWrite x v).joinAll) := by interval_cases x <;> rfl
  refine ctlWrite_unit hk (by interval_cases x <;> decide) hrow rfl ?_ (by interval_cases x <;> decide) (by interval_cases x <;> decide) ?_
  · rw [hold]
    exact fieldsOk_ctl _ 0 0 1 (by decide) (by decide)
  · rw [hunit, hold]
    rfl

/-- A domain that is off starts where its binding passes the checks. -/
theorem domWrite_start {s : State} {x : Nat} {v : Word} (hoff : s.on (F.PTP_X_CTL_EN x) = false) (hen : bitsOf v.toNat 0 0 = 1)
    (hmay : s.domMayEnable x v = true) : s.domWrite x v = (s.wr (R.PTP_X_CTL x) v).domRun x := by
  simp [State.domWrite, hoff, hen, hmay]

/-- The checks of a domain while the other one is disabled. -/
theorem domMayEnable_of_alone {s : State} {x : Nat} {v : Word} (hother : s.on (F.PTP_X_CTL_EN (1 - x)) = false)
    (hfeat : x = 0 ∨ (s.feature 8 = true ∧ s.compat = false)) (htransport : bitsOf v.toNat 2 1 ≤ 2) (hdomain : bitsOf v.toNat 15 8 ≤ 127) :
    s.domMayEnable x v = true := by
  rcases hfeat with rfl | ⟨hdual, hcompat⟩
  · simpa [State.domMayEnable, hother] using ⟨htransport, hdomain⟩
  · simpa [State.domMayEnable, hother, hdual, hcompat] using ⟨htransport, hdomain⟩

/-- A domain LISTENING with nothing heard, before its agreement is brought up to date. -/
def State.domListening (s : State) (x : Nat) : State :=
  (s.setDom x {}).wrn (R.PTP_X_STATUS x) (1 + (if s.ptp.steer = x then 16 else 0))

theorem status_domListening (s : State) (x : Nat) :
    (s.domListening x).f (F.PTP_X_STATUS_STATE x) = 1 ∧ (s.domListening x).on (F.PTP_X_STATUS_AGREE x) = false := by
  rw [State.on, State.f, State.f, State.domListening, rdn_wrn_same]
  split <;> simp [bitsOf]

/-- A domain that starts has nothing to disagree with yet, so that no flag is raised. -/
def State.domStarted (s : State) (x : Nat) : State :=
  (s.domListening x).setF (F.PTP_X_STATUS_AGREE x) (if (s.domListening x).agrees x then 1 else 0)

theorem frame_domStarted (s : State) (x : Nat) : Frame [R.PTP_X_STATUS x] [] [.ptp] s (s.domStarted x) :=
  (((frame_setDom s x _).trans (frame_wrn _ (R.PTP_X_STATUS x) _)).trans (frame_setF _ (F.PTP_X_STATUS_AGREE x) _)).mono (by simp) (by simp) (by simp)

theorem f_state_domStarted (s : State) (x : Nat) : (s.domStarted x).f (F.PTP_X_STATUS_STATE x) = 1 :=
  (f_state_setF_agree _ x _).trans (status_domListening s x).1

theorem dom_domStarted (s : State) (x : Nat) : (s.domStarted x).dom x = {} := by
  rw [State.domStarted, dom_setF, State.domListening, dom_wrn, dom_setDom_same]

theorem ptpCtl_ne_domCtl (x : Nat) : R.PTP_CTL ≠ R.PTP_X_CTL x := by
  simp only [R.PTP_CTL, R.PTP_X_CTL]
  omega

theorem status_ne_domCtl (x y : Nat) : R.PTP_X_STATUS x ≠ R.PTP_X_CTL y := by
  simp only [R.PTP_X_STATUS, R.PTP_X_CTL]
  omega

theorem domRun_of_enabled {s : State} {x : Nat} (hx : x < 2) (hptp : s.on F.PTP_CTL_EN = true) (hen : s.on (F.PTP_X_CTL_EN x) = true)
    (hother : s.f (F.PTP_X_STATUS_STATE (1 - x)) = 0) : s.domRun x = s.domStarted x := by
  obtain ⟨hstate, hagree⟩ := status_domListening s x
  have hne : (F.PTP_X_STATUS_STATE (1 - x)).addr ≠ R.PTP_X_STATUS x := by
    simp only [R.PTP_X_STATUS]
    omega
  have hother' : (s.domListening x).f (F.PTP_X_STATUS_STATE (1 - x)) = 0 := (f_wrn_ne (s.setDom x {}) _ hne).trans hother
  have hrun : s.domRun x = (s.domListening x).agreeNow := by
    simp only [State.domRun, on_setDom, hptp, hen]
    rfl
  rw [hrun, agreeNow_of_other_off hx hother', updateAgree_of_kept (by simp [hstate]) (.inl hagree), State.domStarted]

/-! ### The joins that follow a domain (R286) -/

theorem frame_setEth (s : State) (p : Nat) (e : EthSt) : Frame [] [] [.eth] s (s.setEth p e) := by
  refine ⟨fun _ _ => rfl, fun _ _ => rfl, rfl, rfl, fun p hp => ?_⟩
  cases p
  case eth => simp at hp
  all_goals rfl

theorem frame_joinUpdate (s : State) (p : Nat) : Frame [R.ETH_PORT_JOIN_CNT p] [] [.eth] s (s.joinUpdate p) := by
  simp only [State.joinUpdate]
  split
  · exact (Frame.refl s).mono (by simp) (by simp) (by simp)
  · exact (frame_setEth s p _).trans (frame_wrn _ _ _)

theorem frame_joinAll (s : State) : Frame ((List.range 8).map R.ETH_PORT_JOIN_CNT) [] [.eth] s s.joinAll :=
  frame_foldl (op := State.joinUpdate) frame_joinUpdate (List.range 8) s

@[simp] theorem joinUpdate_evNow (s : State) (p : Nat) : (s.joinUpdate p).evNow = s.evNow := by
  simp only [State.joinUpdate]
  split <;> rfl

theorem joinAll_evNow (s : State) : s.joinAll.evNow = s.evNow := by
  simp only [State.joinAll, List.range_succ, List.range_zero, List.foldl_append, List.foldl_nil, List.foldl_cons, joinUpdate_evNow, List.nil_append]

/-- No register of network time counts joins. -/
theorem notMem_joinCnt {a : Nat} (ha : a < 0x40000) : a ∉ (List.range 8).map R.ETH_PORT_JOIN_CNT := by
  simp only [List.mem_map, not_exists, not_and, R.ETH_PORT_JOIN_CNT]
  omega

/-- PTP_DOMAIN_ENABLE, while the other domain is disabled. -/
theorem ptpDomainEnable_completes {s : State} {x : Nat} (hk : s.dark = false) (hx : x < 2) (hfeat : x = 0 ∨ (s.feature 8 = true ∧ s.compat = false))
    (hptp : s.on F.PTP_CTL_EN = true) (hoff : s.on (F.PTP_X_CTL_EN x) = false) (hother : s.on (F.PTP_X_CTL_EN (1 - x)) = false)
    (hstate : s.f (F.PTP_X_STATUS_STATE (1 - x)) = 0) (htransport : s.f (F.PTP_X_CTL_TRANSPORT x) ≤ 2) (hdomain : s.f (F.PTP_X_CTL_DOMAIN x) ≤ 127) :
    Completes (.ptpDomainEnable x true) s fun t => t.on (F.PTP_X_CTL_EN x) = true ∧ t.f (F.PTP_X_STATUS_STATE x) = 1 ∧ t.dom x = {} ∧
      Keeps ([R.PTP_X_CTL x, R.PTP_X_STATUS x] ++ (List.range 8).map R.ETH_PORT_JOIN_CNT) [] [.ptp, .eth] s t := by
  obtain ⟨htr, hdo⟩ := domCtlEnabled_binding s.begin x
  have hmay := domMayEnable_of_alone (s := s.begin) hother hfeat (v := s.begin.domCtlEnabled x) (htr ▸ htransport) (hdo ▸ hdomain)
  have hen : (s.begin.domCtl x).on (F.PTP_X_CTL_EN x) = true := by
    rw [State.on, State.f, State.domCtl, rdn_wr_same, domCtlEnabled_en]
    rfl
  have hrun : (s.begin.domCtl x).domRun x = (s.begin.domCtl x).domStarted x :=
    domRun_of_enabled hx ((on_wr_ne s.begin _ (ptpCtl_ne_domCtl x)).trans hptp) hen ((f_wr_ne s.begin _ (status_ne_domCtl (1 - x) x)).trans hstate)
  have hop : s.begin.ctlWrite (F.PTP_X_CTL_EN x) 1 = ((s.begin.domCtl x).domStarted x).joinAll := by
    rw [ctlWrite_domEnable (s := s.begin) hk hx, domWrite_start (s := s.begin) hoff (domCtlEnabled_en _ x) hmay]
    exact congrArg State.joinAll hrun
  have hstart := frame_domStarted (s.begin.domCtl x) x
  have hjoin := frame_joinAll ((s.begin.domCtl x).domStarted x)
  have hf := ((frame_wr s.begin (R.PTP_X_CTL x) _).trans hstart).trans hjoin
  have hctl : R.PTP_X_CTL x < 0x40000 := by
    simp only [R.PTP_X_CTL]
    omega
  have hstatus : R.PTP_X_STATUS x < 0x40000 := by
    simp only [R.PTP_X_STATUS]
    omega
  have hev : ((s.begin.domCtl x).domStarted x).joinAll.evNow = [] := joinAll_evNow _
  refine completes_of_frame (op := (·.idx x 2 (·.ctlWrite (F.PTP_X_CTL_EN x) 1))) rfl ((idx_of_lt hx).trans hop) (hf.mono (by simp) (by simp) (by simp))
    (.inl hev) fun hkeeps => ⟨?_, ?_, ?_, hkeeps⟩
  · rw [on_finish, hjoin.on_eq (notMem_joinCnt hctl), hstart.on_eq (mt List.mem_singleton.mp (status_ne_domCtl x x).symm), hen]
  · rw [f_finish, hjoin.f_eq (notMem_joinCnt hstatus), f_state_domStarted]
  · rw [dom_finish, hjoin.dom_eq (by decide), dom_domStarted]

/-- Settles O8, clause by clause. -/
theorem ptpDomainCommandsComplete : Obligations.PtpDomainCommandsComplete := by
  unfold Obligations.PtpDomainCommandsComplete
  exact ⟨fun _ _ _ => announceTimeout_completes, fun _ _ _ => syncTimeout_completes, fun _ _ => acceptA_completes,
    fun _ _ => ptpDomainEnable_completes⟩

end Sys2Proof.Machine
end

section
/-!
PROOFS. The TOUT pulses (R62-R64) and the TIN captures (R65).
-/

namespace Sys2Proof.Machine

/-! ## Writes of PTP_TOUT_k_CTL (R62, R63) -/

/-- The fields of PTP_TOUT_k_CTL: MODE, BASE, POL, STATE. -/
def toutCtlFields : List FieldDef := [⟨1, 0, .rw, false, .range 0 2⟩, ⟨2, 2, .rw, false, .any⟩, ⟨3, 3, .rw, false, .any⟩, ⟨5, 4, .ro, false, .any⟩]

theorem regDef_toutCtl {k : Nat} (hk : k < 4) : regDef (R.PTP_TOUT_CTL k) = some ⟨0x30400, [(64, 4)], 0x0, false, toutCtlFields⟩ := by
  interval_cases k <;> rfl

/-- Any MODE but 3 passes the checks of R7. -/
theorem fieldsOk_toutCtl {old new : Nat} (h : bitsOf new 1 0 ≤ 2) : fieldsOk toutCtlFields old new = true := by
  simp [fieldsOk, toutCtlFields, FieldDef.sets, rngOk, h]

/-- What a write of PTP_TOUT_k_CTL does: MODE 0 disarms, any other arms (R62, R63). -/
def State.toutWrite (s : State) (k : Nat) (v : Word) : State :=
  if bitsOf v.toNat 1 0 = 0 then
    ((s.toutDisarm k).setF (F.PTP_TOUT_CTL_BASE k) (bitsOf v.toNat 2 2)).setF (F.PTP_TOUT_CTL_POL k) (bitsOf v.toNat 3 3)
  else s.toutArm k v

theorem unitReg_toutCtl (s : State) {k : Nat} (hk : k < 4) (path : BusPath) (v raw : Word) :
    s.unitReg path (R.PTP_TOUT_CTL k) v raw = some (s.toutWrite k v) := by
  interval_cases k <;> rfl

theorem toutCtl_narrow {k : Nat} (hk : k < 4) : wideOf wideWrites (R.PTP_TOUT_CTL k) = none ∧ latInput (R.PTP_TOUT_CTL k) = false := by
  interval_cases k <;> decide

/-- A write of PTP_TOUT_k_CTL reaches the output, with the MODE, BASE and POL that were written. -/
theorem busWrite_toutCtl {s : State} {k : Nat} {v : Word} (hd : s.dark = false) (hk : k < 4) (hmode : bitsOf v.toNat 1 0 ≤ 2) :
    ∃ w : Word, s.busWrite .pcie (R.PTP_TOUT_CTL k) v 4 = s.toutWrite k w ∧ bitsOf w.toNat 1 0 = bitsOf v.toNat 1 0 ∧
      bitsOf w.toNat 2 2 = bitsOf v.toNat 2 2 ∧ bitsOf w.toNat 3 3 = bitsOf v.toNat 3 3 := by
  have hmod4 : R.PTP_TOUT_CTL k % 4 = 0 := by
    simp only [R.PTP_TOUT_CTL]
    omega
  have hlt : R.PTP_TOUT_CTL k < 0x1A0000 := by
    simp only [R.PTP_TOUT_CTL]
    omega
  obtain ⟨hnarrow, hlat⟩ := toutCtl_narrow hk
  refine ⟨_, (busWrite_reg v (by decide) hd hmod4 hlt).trans
    (regWrite_unit (regDef_toutCtl hk) rfl (fieldsOk_toutCtl hmode) hnarrow hlat (unitReg_toutCtl s hk _ _ _)), ?_, ?_, ?_⟩
  · exact bitsOf_mergeWord32 true (fs := toutCtlFields) _ _ (by decide) ⟨1, 0, .rw, false, .range 0 2⟩ (by simp [toutCtlFields])
  · exact bitsOf_mergeWord32 true (fs := toutCtlFields) _ _ (by decide) ⟨2, 2, .rw, false, .any⟩ (by simp [toutCtlFields])
  · exact bitsOf_mergeWord32 true (fs := toutCtlFields) _ _ (by decide) ⟨3, 3, .rw, false, .any⟩ (by simp [toutCtlFields])

/-! ## TOUT_ARM (R62) -/

/-- PTP_TOUT_k_CTL holds a MODE, a BASE, a POL and a STATE. -/
def State.toutCtlSet (s : State) (k mode base pol : Nat) : State :=
  ((s.setF (F.PTP_TOUT_CTL_MODE k) mode).setF (F.PTP_TOUT_CTL_BASE k) base).setF (F.PTP_TOUT_CTL_POL k) pol

theorem frame_toutCtlSet (s : State) (k mode base pol : Nat) : Frame [R.PTP_TOUT_CTL k] [] [] s (s.toutCtlSet k mode base pol) :=
  (((frame_setF s (F.PTP_TOUT_CTL_MODE k) mode).trans (frame_setF _ (F.PTP_TOUT_CTL_BASE k) base)).trans
    (frame_setF _ (F.PTP_TOUT_CTL_POL k) pol)).mono (by simp) (by simp) (by simp)

/-- What an output samples when it is armed for one pulse on the STC. -/
def State.toutSampled (s : State) (k : Nat) (activeLow : Bool) : ToutSt :=
  { s.tout k with periodic := false, stcBase := true, period := s.toutPeriod k true, width := s.rdn (R.PTP_TOUT_WIDTH k),
                  offset := signedOf 32 (s.rdn (R.PTP_TOUT_OFFSET k)), activeLow := activeLow, start := (s.toutStart k true).toNat, armed := true }

/-- An output that is armed for one pulse on the STC, still to come. -/
def State.toutArmed (s : State) (k pol : Nat) : State :=
  ((s.toutCtlSet k 1 1 pol).setTout k (s.toutSampled k (pol == 1))).setF (F.PTP_TOUT_CTL_STATE k) 1

theorem frame_toutArmed (s : State) (k pol : Nat) : Frame [R.PTP_TOUT_CTL k] [] [.ptp] s (s.toutArmed k pol) :=
  (((frame_toutCtlSet s k 1 1 pol).trans (frame_setTout _ k (s.toutSampled k (pol == 1)))).trans (frame_setF _ (F.PTP_TOUT_CTL_STATE k) 1)).mono
    (by simp) (by simp) (by simp)

/-- MODE of an output that is armed. -/
theorem mode_toutArmed (s : State) (k pol : Nat) : (s.toutArmed k pol).f (F.PTP_TOUT_CTL_MODE k) = 1 := by
  simp [State.toutArmed, State.toutCtlSet, f_setF_bits, f_setF_same]

/-- POL of an output that is armed. -/
theorem pol_toutArmed (s : State) (k : Nat) {pol : Nat} (hpol : pol < 2) : (s.toutArmed k pol).f (F.PTP_TOUT_CTL_POL k) = pol := by
  simpa [State.toutArmed, State.toutCtlSet, f_setF_bits, f_setF_same] using hpol

/-- STATE of an output that is armed. -/
theorem state_toutArmed (s : State) (k pol : Nat) : (s.toutArmed k pol).f (F.PTP_TOUT_CTL_STATE k) = 1 :=
  f_setF_same _ (F.PTP_TOUT_CTL_STATE k) 1 (by simp)

theorem tout_toutArmed (s : State) (k pol : Nat) : (s.toutArmed k pol).tout k = s.toutSampled k (pol == 1) := by
  rw [State.toutArmed, tout_setF, tout_setTout_same]

/-- An output that is idle is armed for one pulse on the STC that is still to come. -/
theorem toutArm_once {s : State} {k : Nat} {v : Word} (hmode : bitsOf v.toNat 1 0 = 1) (hbase : bitsOf v.toNat 2 2 = 1) (hok : s.toutOk k true = true)
    (hstart : (s.clk.stc : Int) < s.toutStart k true) (hidle : (s.tout k).pulseEnd = none) :
    s.toutArm k v = s.toutArmed k (bitsOf v.toNat 3 3) := by
  have hset := frame_toutCtlSet s k 1 1 (bitsOf v.toNat 3 3)
  have hwidth := hset.rdn_eq (a := R.PTP_TOUT_WIDTH k) (by simp)
  have hoffset := hset.rdn_eq (a := R.PTP_TOUT_OFFSET k) (by simp)
  rw [State.toutCtlSet] at hwidth hoffset
  simp [State.toutArm, State.toutArmed, State.toutSampled, State.toutCtlSet, hmode, hbase, hok, hstart, hidle, hwidth, hoffset]

/-- TOUT_ARM, for one pulse on the STC that is still to come. -/
theorem toutArm_completes {s : State} {k : Nat} {v : Word} (hd : s.dark = false) (hk : k < 4) (hmode : bitsOf v.toNat 1 0 = 1)
    (hbase : bitsOf v.toNat 2 2 = 1) (hok : s.toutOk k true = true) (hstart : (s.clk.stc : Int) < s.toutStart k true)
    (hidle : (s.tout k).pulseEnd = none) :
    Completes (.toutArm k v) s fun t => (t.tout k).armed = true ∧ ((t.tout k).start : Int) = s.toutStart k true ∧
      (t.tout k).width = s.rdn (R.PTP_TOUT_WIDTH k) ∧ t.f (F.PTP_TOUT_CTL_MODE k) = 1 ∧ t.f (F.PTP_TOUT_CTL_STATE k) = 1 ∧
      t.f (F.PTP_TOUT_CTL_POL k) = bitsOf v.toNat 3 3 ∧ Keeps [R.PTP_TOUT_CTL k] [] [.ptp] s t := by
  obtain ⟨w, hwrite, hwmode, hwbase, hwpol⟩ := busWrite_toutCtl (s := s.begin) (v := v) hd hk (by omega)
  have harm := toutArm_once (s := s.begin) (k := k) (v := w) (hwmode.trans hmode) (hwbase.trans hbase) hok hstart hidle
  rw [hwpol] at harm
  have hop : s.begin.busWrite .pcie (R.PTP_TOUT_CTL k) v 4 = s.begin.toutArmed k (bitsOf v.toNat 3 3) := by
    rw [hwrite, State.toutWrite, if_neg (by rw [hwmode, hmode]; decide), harm]
  have hout := tout_toutArmed s.begin k (bitsOf v.toNat 3 3)
  have hctlMode := mode_toutArmed s.begin k (bitsOf v.toNat 3 3)
  have hctlState := state_toutArmed s.begin k (bitsOf v.toNat 3 3)
  have hctlPol := pol_toutArmed s.begin k (pol := bitsOf v.toNat 3 3) (Nat.mod_lt _ (by decide))
  refine completes_of_frame (op := (·.idx k 4 (·.busWrite .pcie (R.PTP_TOUT_CTL k) v 4))) rfl ((idx_of_lt hk).trans hop)
    (frame_toutArmed _ k _) (.inl rfl) fun hkeeps =>
      ⟨?_, ?_, ?_, (f_finish _ _).trans hctlMode, (f_finish _ _).trans hctlState, (f_finish _ _).trans hctlPol, hkeeps⟩
  · rw [tout_finish, hout, State.toutSampled]
  · rw [tout_finish, hout]
    have hpos : 0 ≤ s.begin.toutStart k true := (Int.natCast_nonneg _).trans hstart.le
    exact Int.toNat_of_nonneg hpos
  · rw [tout_finish, hout, State.toutSampled]
    rfl

/-! ## TOUT_DISARM (R63) -/

/-- A write of MODE to PTP_TOUT_k_CTL reaches the output. -/
theorem ctlWrite_toutMode {s : State} {k : Nat} (hd : s.dark = false) (hk : k < 4) : ∃ w : Word, s.ctlWrite (F.PTP_TOUT_CTL_MODE k) 0 = s.toutWrite k w ∧
    bitsOf w.toNat 1 0 = 0 := by
  have hmode := bitsOf_ctl_same (s.rdn (R.PTP_TOUT_CTL k)) 1 0 0 (by decide)
  obtain ⟨w, hwrite, hwmode, -, -⟩ := busWrite_toutCtl (v := BitVec.ofNat 32 (setBits (s.rdn (R.PTP_TOUT_CTL k)) 1 0 0)) hd hk (by rw [hmode]; decide)
  exact ⟨w, hwrite, hwmode.trans hmode⟩

/-- An idle output is disarmed: MODE and STATE read 0. -/
def State.toutOff (s : State) (k : Nat) : State :=
  ((s.setTout k { s.tout k with armed := false }).setF (F.PTP_TOUT_CTL_MODE k) 0).setF (F.PTP_TOUT_CTL_STATE k) 0

theorem frame_toutOff (s : State) (k : Nat) : Frame [R.PTP_TOUT_CTL k] [] [.ptp] s (s.toutOff k) :=
  (((frame_setTout s k _).trans (frame_setF _ (F.PTP_TOUT_CTL_MODE k) 0)).trans (frame_setF _ (F.PTP_TOUT_CTL_STATE k) 0)).mono
    (by simp) (by simp) (by simp)

theorem toutCtl_toutOff (s : State) (k : Nat) : (s.toutOff k).f (F.PTP_TOUT_CTL_MODE k) = 0 ∧ (s.toutOff k).f (F.PTP_TOUT_CTL_STATE k) = 0 := by
  refine ⟨?_, f_setF_same _ (F.PTP_TOUT_CTL_STATE k) 0 (by simp)⟩
  simp [State.toutOff, f_setF_bits, f_setF_same]

theorem toutDisarm_idle {s : State} {k : Nat} (hidle : (s.tout k).pulseEnd = none) : s.toutDisarm k = s.toutOff k := by
  simp [State.toutDisarm, State.toutOff, hidle]

/-- TOUT_DISARM, of an output that is idle. -/
theorem toutDisarm_completes {s : State} {k : Nat} (hd : s.dark = false) (hk : k < 4) (hidle : (s.tout k).pulseEnd = none) :
    Completes (.toutDisarm k) s fun t => (t.tout k).armed = false ∧ t.f (F.PTP_TOUT_CTL_MODE k) = 0 ∧ t.f (F.PTP_TOUT_CTL_STATE k) = 0 ∧
      Keeps [R.PTP_TOUT_CTL k] [] [.ptp] s t := by
  obtain ⟨w, hwrite, hwmode⟩ := ctlWrite_toutMode (s := s.begin) hd hk
  have hop : s.begin.ctlWrite (F.PTP_TOUT_CTL_MODE k) 0 =
      ((s.begin.toutOff k).setF (F.PTP_TOUT_CTL_BASE k) (bitsOf w.toNat 2 2)).setF (F.PTP_TOUT_CTL_POL k) (bitsOf w.toNat 3 3) := by
    rw [hwrite, State.toutWrite, if_pos hwmode, toutDisarm_idle (s := s.begin) hidle]
  have hf := ((frame_toutOff s.begin k).trans (frame_setF _ (F.PTP_TOUT_CTL_BASE k) (bitsOf w.toNat 2 2))).trans
    (frame_setF _ (F.PTP_TOUT_CTL_POL k) (bitsOf w.toNat 3 3))
  obtain ⟨hmode, hstate⟩ := toutCtl_toutOff s.begin k
  refine completes_of_frame (op := (·.idx k 4 (·.ctlWrite (F.PTP_TOUT_CTL_MODE k) 0))) rfl ((idx_of_lt hk).trans hop)
    (hf.mono (by simp) (by simp) (by simp)) (.inl rfl) fun hkeeps => ⟨?_, ?_, ?_, hkeeps⟩
  · rw [tout_finish, tout_setF, tout_setF, State.toutOff, tout_setF, tout_setF, tout_setTout_same]
  · simpa [f_setF_bits] using hmode
  · simpa [f_setF_bits] using hstate

/-! ## TOUT_PULSE, TOUT_PULSE_END (R62, R64) -/

/-- The pulse of an output that is armed for one pulse rises now. -/
def State.toutRisen (s : State) (k : Nat) (t : ToutSt) : State :=
  (((s.setTout k { t with armed := false, pulseEnd := some (s.clk.ns + t.width), level := true }).bump (R.PTP_TOUT_PULSE_CNT k)).setF
    (F.PTP_TOUT_CTL_STATE k) 2).emit (.tout k (!t.activeLow))

theorem frame_toutRisen (s : State) (k : Nat) (t : ToutSt) : Frame [R.PTP_TOUT_PULSE_CNT k, R.PTP_TOUT_CTL k] [] [.ptp, .out] s (s.toutRisen k t) :=
  (((frame_setTout s k _).trans (frame_bump _ (R.PTP_TOUT_PULSE_CNT k))).trans (frame_setF _ (F.PTP_TOUT_CTL_STATE k) 2)).trans (frame_emit _ _)

/-- One pulse on the STC rises at START + OFFSET. -/
theorem toutPulse_once {s : State} {k : Nat} (harmed : (s.tout k).armed = true) (hstc : (s.tout k).stcBase = true) (honce : (s.tout k).periodic = false) :
    s.toutPulse k = (s.toStc (((s.tout k).start : Int) + (s.tout k).offset).toNat).toutRisen k (s.tout k) := by
  simp [State.toutPulse, State.toutRise, State.toutRisen, harmed, hstc, honce]

/-- Time runs on at least to the STC time asked for. -/
theorem le_toStc (s : State) (t : Nat) : t ≤ (s.toStc t).clk.stc := by
  rw [State.toStc, State.elapseNs, Clock.elapseNs_stc]
  omega

theorem pulseCnt_ne_toutCtl (k : Nat) : R.PTP_TOUT_PULSE_CNT k ≠ R.PTP_TOUT_CTL k := by simp

/-- TOUT_PULSE, for one pulse on the STC. -/
theorem toutPulse_completes {s : State} {k : Nat} (hk : k < 4) (harmed : (s.tout k).armed = true) (hstc : (s.tout k).stcBase = true)
    (honce : (s.tout k).periodic = false) (hpos : 0 ≤ ((s.tout k).start : Int) + (s.tout k).offset) :
    Completes (.toutPulse k) s fun t => t.out = [.tout k (!(s.tout k).activeLow)] ∧
      t.rdn (R.PTP_TOUT_PULSE_CNT k) = (s.rdn (R.PTP_TOUT_PULSE_CNT k) + 1) % 2 ^ 32 ∧ t.f (F.PTP_TOUT_CTL_STATE k) = 2 ∧ (t.tout k).armed = false ∧
      (t.tout k).pulseEnd = some (t.clk.ns + (s.tout k).width) ∧ ((s.tout k).start : Int) + (s.tout k).offset ≤ t.clk.stc ∧
      Keeps [R.PTP_TOUT_PULSE_CNT k, R.PTP_TOUT_CTL k] [] [.ptp, .clk, .out] s t := by
  have hop := toutPulse_once (s := s.begin) harmed hstc honce
  have hf := (frame_toStc s.begin (((s.tout k).start : Int) + (s.tout k).offset).toNat).trans (frame_toutRisen _ k (s.tout k))
  have hrise := le_toStc s.begin (((s.tout k).start : Int) + (s.tout k).offset).toNat
  refine completes_of_frame (op := (·.idx k 4 (·.toutPulse k))) rfl ((idx_of_lt hk).trans hop) (hf.mono (by simp) (by simp) (by simp)) (.inl rfl)
    fun hkeeps => ⟨rfl, ?_, ?_, ?_, ?_, ?_, hkeeps⟩
  · rw [rdn_finish, State.toutRisen, rdn_emit, rdn_setF_ne _ _ (pulseCnt_ne_toutCtl k), rdn_bump_same]
    rfl
  · rw [f_finish, State.toutRisen, f_emit]
    exact f_setF_same _ (F.PTP_TOUT_CTL_STATE k) 2 (by simp)
  · rw [tout_finish, State.toutRisen, tout_emit, tout_setF, tout_bump, tout_setTout_same]
  · rw [tout_finish, State.toutRisen, tout_emit, tout_setF, tout_bump, tout_setTout_same]
    rfl
  · rw [← Int.toNat_of_nonneg hpos]
    exact Int.ofNat_le.mpr hrise

/-- The pulse of an output that is not armed again ends now. -/
def State.toutFallen (s : State) (k : Nat) (t : ToutSt) : State :=
  ((s.setTout k { t with pulseEnd := none, level := false }).setF (F.PTP_TOUT_CTL_STATE k) 0).emit (.tout k t.activeLow)

theorem frame_toutFallen (s : State) (k : Nat) (t : ToutSt) : Frame [R.PTP_TOUT_CTL k] [] [.ptp, .out] s (s.toutFallen k t) :=
  ((frame_setTout s k _).trans (frame_setF _ (F.PTP_TOUT_CTL_STATE k) 0)).trans (frame_emit _ _)

theorem toutPulseEnd_due {s : State} {k e : Nat} (hend : (s.tout k).pulseEnd = some e) (harmed : (s.tout k).armed = false) :
    s.toutPulseEnd k = (s.toNs e).toutFallen k (s.tout k) := by
  simp [State.toutPulseEnd, State.toutFallen, hend, harmed]

/-- TOUT_PULSE_END, of an output that is not armed again. -/
theorem toutPulseEnd_completes {s : State} {k e0 : Nat} (hk : k < 4) (hend : (s.tout k).pulseEnd = some e0) (harmed : (s.tout k).armed = false) :
    Completes (.toutPulseEnd k) s fun t => t.out = [.tout k (s.tout k).activeLow] ∧ (t.tout k).pulseEnd = none ∧ t.f (F.PTP_TOUT_CTL_STATE k) = 0 ∧
      e0 ≤ t.clk.ns ∧ Keeps [R.PTP_TOUT_CTL k] [] [.ptp, .clk, .out] s t := by
  have hop := toutPulseEnd_due (s := s.begin) hend harmed
  have hf := (frame_toNs s.begin e0).trans (frame_toutFallen _ k (s.tout k))
  refine completes_of_frame (op := (·.idx k 4 (·.toutPulseEnd k))) rfl ((idx_of_lt hk).trans hop) (hf.mono (by simp) (by simp) (by simp)) (.inl rfl)
    fun hkeeps => ⟨rfl, ?_, ?_, le_toNs s.begin e0, hkeeps⟩
  · rw [tout_finish, State.toutFallen, tout_emit, tout_setF, tout_setTout_same]
  · rw [f_finish, State.toutFallen, f_emit]
    exact f_setF_same _ (F.PTP_TOUT_CTL_STATE k) 0 (by simp)

/-! ## TIN_CAPTURE (R65) -/

/-- What an edge of a TIN input captures now. -/
def State.tinStamp (s : State) (rising : Bool) : TinCap := ⟨s.clk.stc, s.clk.frame, s.clk.vpos % s.clk.fu, rising⟩

/-- The capture enters the FIFO. -/
def State.tinStored (s : State) (j : Nat) (c : TinCap) : State :=
  (s.setTin j { s.tin j with fifo := (s.tin j).fifo ++ [c], last := some s.clk.ns }).wrn (R.PTP_TIN_LEVEL j) ((s.tin j).fifo.length + 1)

theorem frame_tinStored (s : State) (j : Nat) (c : TinCap) : Frame [R.PTP_TIN_LEVEL j] [] [.ptp] s (s.tinStored j c) :=
  (frame_setTin s j _).trans (frame_wrn _ _ _)

/-- With both edges selected, the first edge is captured. -/
theorem tinCapture_first {s : State} {j : Nat} (r : Bool) (hen : s.on (F.PTP_TIN_CTL_EN j) = true) (hedge : s.f (F.PTP_TIN_CTL_EDGE j) = 3)
    (hevt : s.on (F.PTP_TIN_CTL_EVT j) = false) (hlast : (s.tin j).last = none) (hroom : (s.tin j).fifo.length < 16) :
    s.tinCapture j r = s.tinStored j (s.tinStamp r) := by
  have hsel : (bitsOf 3 (if r then 0 else 1) (if r then 0 else 1) == 1) = true := by cases r <;> rfl
  simp [State.tinCapture, State.tinStored, State.tinStamp, hen, hedge, hevt, hlast, hroom, hsel]

/-- TIN_CAPTURE. -/
theorem tinCapture_completes {s : State} {j : Nat} {r : Bool} (hj : j < 2) (hen : s.on (F.PTP_TIN_CTL_EN j) = true)
    (hedge : s.f (F.PTP_TIN_CTL_EDGE j) = 3) (hevt : s.on (F.PTP_TIN_CTL_EVT j) = false) (hlast : (s.tin j).last = none)
    (hroom : (s.tin j).fifo.length < 16) :
    Completes (.tinCapture j r) s fun t => (t.tin j).fifo = (s.tin j).fifo ++ [⟨s.clk.stc, s.clk.frame, s.clk.vpos % s.clk.fu, r⟩] ∧
      t.rdn (R.PTP_TIN_LEVEL j) = (s.tin j).fifo.length + 1 ∧ Keeps [R.PTP_TIN_LEVEL j] [] [.ptp] s t := by
  have hop := tinCapture_first (s := s.begin) r hen hedge hevt hlast hroom
  have hlevel : ((s.tin j).fifo.length + 1) % 2 ^ 32 = (s.tin j).fifo.length + 1 := by omega
  refine completes_of_frame (op := (·.idx j 2 (·.tinCapture j r))) rfl ((idx_of_lt hj).trans hop) (frame_tinStored _ j _) (.inl rfl)
    fun hkeeps => ⟨?_, (rdn_wrn_same _ _ _).trans hlevel, hkeeps⟩
  rw [tin_finish, State.tinStored, tin_wrn, tin_setTin_same]
  rfl

/-! ## TIN_CAPTURE_POP (R65) -/

/-- Word 0 of a capture: its nanoseconds, its edge, and that it is valid. -/
def TinCap.word0 (c : TinCap) : Nat := c.stc % 1000000000 + (if c.rising then 2 ^ 30 else 0) + 2 ^ 31

/-- The words 1 to 5 of a capture. -/
def TinCap.words (c : TinCap) : List Nat :=
  [c.stc / 1000000000 % 2 ^ 32, c.stc / 1000000000 / 2 ^ 32 % 65536, c.pos, c.frame % 2 ^ 32, c.frame / 2 ^ 32 % 65536]

/-- The oldest capture leaves the FIFO, and its further words are latched. -/
def State.tinPopped (s : State) (j : Nat) (c : TinCap) (r : List TinCap) : State :=
  (s.setTin j { s.tin j with fifo := r, latched := c.words }).wrn (R.PTP_TIN_LEVEL j) r.length

theorem frame_tinPopped (s : State) (j : Nat) (c : TinCap) (r : List TinCap) : Frame [R.PTP_TIN_LEVEL j] [] [.ptp] s (s.tinPopped j c r) :=
  (frame_setTin s j _).trans (frame_wrn _ _ _)

theorem tinPop_cons {s : State} {j : Nat} {c : TinCap} {r : List TinCap} (h : (s.tin j).fifo = c :: r) :
    s.tinPop j = (BitVec.ofNat 32 c.word0, s.tinPopped j c r) := by
  simp only [State.tinPop, h]
  rfl

/-- The fields of PTP_TIN_j_CAP_0: nanoseconds, edge, VALID. -/
def tinCapFields : List FieldDef := [⟨29, 0, .ro, false, .any⟩, ⟨30, 30, .ro, false, .any⟩, ⟨31, 31, .ro, false, .any⟩]

/-- A word of three fields that can be read. -/
theorem showWord_three {x y z : FieldDef} (n : Nat) (hx : x.acc ≠ .wo) (hy : y.acc ≠ .wo) (hz : z.acc ≠ .wo) :
    showWord [x, y, z] n = bitsOf n x.hi x.lo * 2 ^ x.lo + bitsOf n y.hi y.lo * 2 ^ y.lo + bitsOf n z.hi z.lo * 2 ^ z.lo := by
  simp [showWord, hx, hy, hz]

/-- The fields cover the word. -/
theorem showWord_tinCap {n : Nat} (h : n < 2 ^ 32) : showWord tinCapFields n = n := by
  rw [tinCapFields, showWord_three n (by decide) (by decide) (by decide)]
  simp only [bitsOf]
  omega

/-- A read of PTP_TIN_j_CAP_0 shows the oldest capture. -/
theorem view_tinCap {s : State} {j : Nat} (hj : j < 2) : s.view (R.PTP_TIN_CTL j + 4) = (s.tinPop j).1 := by
  have hrow : regDef (R.PTP_TIN_CTL j + 4) = some ⟨0x30604, [(64, 2)], 0x0, false, tinCapFields⟩ := by interval_cases j <;> rfl
  have hlive : s.liveWord (R.PTP_TIN_CTL j + 4) = (s.tinPop j).1.toNat := by interval_cases j <;> rfl
  rw [State.view, hrow, hlive]
  change BitVec.ofNat 32 (showWord tinCapFields _) = _
  rw [showWord_tinCap (BitVec.isLt _), BitVec.ofNat_toNat, BitVec.setWidth_eq]

/-- It pops the capture and does nothing else. -/
theorem readEffect_tinCap {s : State} {j : Nat} (hj : j < 2) : s.readEffect (R.PTP_TIN_CTL j + 4) = (s.tinPop j).2 := by
  interval_cases j <;> rfl

/-- A host's read of PTP_TIN_j_CAP_0, where no read has latched a word. -/
theorem busRead_tinCap {s : State} {path : BusPath} {j : Nat} (hd : s.dark = false) (hpath : path ≠ .service) (hj : j < 2) (hlatch : s.latch = []) :
    s.busRead path (R.PTP_TIN_CTL j + 4) = s.tinPop j := by
  have haddr : (R.PTP_TIN_CTL j + 4) / 4 * 4 = R.PTP_TIN_CTL j + 4 := by
    simp only [R.PTP_TIN_CTL]
    omega
  have hlt : R.PTP_TIN_CTL j + 4 < 0x1A0000 := by
    simp only [R.PTP_TIN_CTL]
    omega
  have hwin : R.PTP_TIN_CTL j + 4 ≠ R.GLB_WIN_CTL := by
    simp only [R.PTP_TIN_CTL, R.GLB_WIN_CTL]
    omega
  have hword : s.readWord path (R.PTP_TIN_CTL j + 4) = (s.tinPop j).1 := by
    simp only [State.readWord, if_neg hwin, hlatch, Tab.get]
    exact view_tinCap hj
  have hdead := dead_of_dark hd
  simp only [State.busRead, haddr, hdead, hpath, hd, hlt, hword, readEffect_tinCap hj]
  rfl

/-- TIN_CAPTURE_POP, of a FIFO that holds a capture. -/
theorem tinCapturePop_completes {s : State} {path : BusPath} {j : Nat} {c : TinCap} {r : List TinCap} (hd : s.dark = false) (hpath : path ≠ .service)
    (hj : j < 2) (hfifo : (s.tin j).fifo = c :: r) (hlatch : s.latch = []) :
    Completes (.tinCapturePop path j) s fun t =>
      t.out = [.read path (R.PTP_TIN_CTL j + 4) (BitVec.ofNat 32 (c.stc % 1000000000 + (if c.rising then 2 ^ 30 else 0) + 2 ^ 31))] ∧
      (t.tin j).fifo = r ∧ (t.tin j).latched = [c.stc / 1000000000 % 2 ^ 32, c.stc / 1000000000 / 2 ^ 32 % 65536, c.pos, c.frame % 2 ^ 32, c.frame / 2 ^ 32 % 65536] ∧
      Keeps [R.PTP_TIN_LEVEL j] [] [.ptp, .out] s t := by
  have hread := (busRead_tinCap (s := s.begin) hd hpath hj hlatch).trans (tinPop_cons (s := s.begin) hfifo)
  have hop : s.begin.readOut path (R.PTP_TIN_CTL j + 4) =
      (s.begin.tinPopped j c r).emit (.read path (R.PTP_TIN_CTL j + 4) (BitVec.ofNat 32 c.word0)) := by
    rw [State.readOut, hread]
  have hf := (frame_tinPopped s.begin j c r).trans (frame_emit _ (.read path (R.PTP_TIN_CTL j + 4) (BitVec.ofNat 32 c.word0)))
  refine completes_of_frame (op := (·.idx j 2 (·.readOut path (R.PTP_TIN_CTL j + 4)))) rfl ((idx_of_lt hj).trans hop) hf (.inl rfl)
    fun hkeeps => ⟨rfl, ?_, ?_, hkeeps⟩
  · rw [tin_finish, tin_emit, State.tinPopped, tin_wrn, tin_setTin_same]
  · rw [tin_finish, tin_emit, State.tinPopped, tin_wrn, tin_setTin_same]
    rfl

/-- Settles O9, clause by clause. -/
theorem pulseAndCaptureCommandsComplete : Obligations.PulseAndCaptureCommandsComplete := by
  unfold Obligations.PulseAndCaptureCommandsComplete
  exact ⟨fun _ _ _ => toutArm_completes, fun _ _ => toutDisarm_completes, fun _ _ => toutPulse_completes, fun _ _ _ => toutPulseEnd_completes,
    fun _ _ _ => tinCapture_completes, fun _ _ _ _ _ => tinCapturePop_completes⟩

end Sys2Proof.Machine
end

section
/-!
PROOFS. The PLLs and the clock outputs (R70-R80): the resynchronisation of a PLL that a Sighting relocks (R75, R343), and how a clock output starts, stops
and realigns (R79, R80).
-/

namespace Sys2Proof.Machine

/-! ## PLL_RESYNC of CPLL_8 and CPLL_9 (R75) -/

/-- A core PLL is LOCKED and its outputs leave the bypass reference, at no frame start. -/
def State.resynced (s : State) (m : Nat) : State :=
  (((((s.setF (F.CKG_CPLL_STATUS_STATE m) 4).setF ⟨R.CKG_CORE_STATUS, m, m⟩ 1).setF (F.CKG_CPLL_STATUS_SYNC m) 0).setF
    ⟨R.CKG_CORE_STATUS, 16 + m, 16 + m⟩ 0).bump (R.CKG_CPLL_RELOCK_CNT m)).raise 0x0406 m

/-- CPLL_8 and CPLL_9 wait for no frame start; a Sighting of the PLL that the relock was ends with it. -/
theorem pllResync_own {s : State} {m : Nat} (hm : m = 8 ∨ m = 9) (hwait : s.f (F.CKG_CPLL_STATUS_STATE m) = 3) :
    s.pllResync (.core m) = (s.resynced m).relockSighted m := by
  have hvalid : m ≤ 10 := by omega
  have hown : (m == 8 || m == 9) = true := by simpa using hm
  simp only [State.pllResync, State.resynced, pllValid, pllStateF, pllLockedF, pllSyncF, hvalid, hwait, hown]
  rfl

@[simp] theorem sight_setSight_same (s : State) (k i : Nat) (x : Option Sight) : (s.setSight k i x).sight k i = x :=
  Tab.get_put_same (fun _ => none) s.cal.sights (256 * k + i) x

/-- The end of a relock that a Sighting runs ends the Sighting. -/
theorem sight_relockSighted {s : State} {m : Nat} {x : Sight} (hx : s.sight 2 m = some x) (hrun : x.run = true) (hgoal : x.goal = []) :
    (s.relockSighted m).sight 2 m = none := by
  simp [State.relockSighted, hx, hrun, hgoal]

/-- PLL_RESYNC of CPLL_8 or CPLL_9 ends the Sighting that relocked it. -/
theorem pllResync_ends_sighting {s t : State} {m : Nat} {x : Sight} (hm : m = 8 ∨ m = 9) (hwait : s.f (F.CKG_CPLL_STATUS_STATE m) = 3)
    (hx : s.sight 2 m = some x) (hrun : x.run = true) (hgoal : x.goal = []) (h : exec (.pllResync (.core m)) s = .next t) : t.sight 2 m = none := by
  have hend : (s.begin.pllResync (.core m)).sight 2 m = none := by
    rw [pllResync_own (s := s.begin) hm hwait]
    exact sight_relockSighted (s := s.begin.resynced m) hx hrun hgoal
  have ht : ({ (s.begin.pllResync (.core m)).finish with pending := s.pending, keys := s.keys } : State) = t := Host.Outcome.next.inj h
  rw [← ht]
  exact hend

/-- From reset on, a trigger of CPLL_8 relocks the PLL by Sighting, and the PLL has declared lock. -/
def sightedRelock : State := (State.reset.sightBegin 2 8).pllLock (.core 8)

theorem sightedRelock_waits : sightedRelock.f (F.CKG_CPLL_STATUS_STATE 8) = 3 := by decide +kernel

theorem sightedRelock_sight : sightedRelock.sight 2 8 = some { run := true } := by decide +kernel

/-- Refutes O10 by its clause of PLL_RESYNC: the clause keeps calibration as it was, but the resynchronisation that ends a relock by Sighting also ends
the Sighting. -/
theorem not_pllCommandsComplete : ¬ Obligations.PllCommandsComplete := by
  unfold Obligations.PllCommandsComplete
  rintro ⟨-, hResync, -⟩
  obtain ⟨t, ht, -, -, -, -, -, -, hkeeps⟩ := hResync sightedRelock 8 (.inl rfl) sightedRelock_waits
  obtain ⟨-, -, -, -, hparts⟩ := hkeeps
  have hcal : t.cal = sightedRelock.cal := hparts .cal (by decide)
  have hkept : t.sight 2 8 = some { run := true } := by
    rw [State.sight, hcal]
    exact sightedRelock_sight
  have hended := pllResync_ends_sighting (.inl rfl) sightedRelock_waits sightedRelock_sight rfl rfl ht
  rw [hended] at hkept
  exact absurd hkept (by simp)

/-! ## Writes of CKG_CLKOUT_k_CTL (R79, R80) -/

/-- The fields of CKG_CLKOUT_k_CTL: EN, SRC, FMT, SWING, ALIGN, CMOS_M, LANE. -/
def clkoutCtlFields : List FieldDef :=
  [⟨0, 0, .rw, false, .any⟩, ⟨3, 1, .rw, false, .range 0 3⟩, ⟨5, 4, .rw, false, .any⟩, ⟨7, 6, .rw, false, .range 0 2⟩, ⟨8, 8, .rw, false, .any⟩,
    ⟨9, 9, .rw, false, .any⟩, ⟨15, 10, .rw, false, .any⟩]

/-- CKG_CLKOUT_k_CTL as it stands, with EN set to `v`, as the output's rule takes it. -/
def State.clkoutCtlWord (s : State) (k v : Nat) : Word :=
  BitVec.ofNat 32 (mergeWord true clkoutCtlFields (s.rdn (R.CKG_CLKOUT_CTL k)) (BitVec.ofNat 32 (setBits (s.rdn (R.CKG_CLKOUT_CTL k)) 0 0 v)).toNat)

/-- A write of EN to CKG_CLKOUT_k_CTL reaches the output. -/
theorem ctlWrite_clkoutEn {s : State} {k : Nat} (v : Nat) (hd : s.dark = false) (hk : k < 4) :
    s.ctlWrite (F.CKG_CLKOUT_CTL_EN k) v = s.clkoutWrite k (s.clkoutCtlWord k v) := by
  have hrow : regDef (R.CKG_CLKOUT_CTL k) = some ⟨0x40600, [(16, 4)], 0x0, false, clkoutCtlFields⟩ := by interval_cases k <;> rfl
  have hold : s.oldWord .pcie (R.CKG_CLKOUT_CTL k) = s.rdn (R.CKG_CLKOUT_CTL k) := by interval_cases k <;> rfl
  have hunit (w raw : Word) : s.unitReg .pcie (R.CKG_CLKOUT_CTL k) w raw = some (s.clkoutWrite k w) := by interval_cases k <;> rfl
  refine ctlWrite_unit hd (by interval_cases k <;> decide) hrow rfl ?_ (by interval_cases k <;> decide) (by interval_cases k <;> decide) ?_
  · rw [hold]
    exact fieldsOk_ctl _ 0 0 v (by decide) (by decide)
  · rw [hunit, hold]
    rfl

theorem clkoutCtlWord_en (s : State) (k v : Nat) : bitsOf (s.clkoutCtlWord k v).toNat 0 0 = v % 2 :=
  ctl_act_same _ _ 0 0 v ⟨0, 0, .rw, false, .any⟩ (by simp [clkoutCtlFields]) ⟨rfl, rfl⟩ (by decide) (by decide) (.inr (.inl rfl))

/-- Every field but EN is written as it stands. -/
theorem clkoutCtlWord_other (s : State) (k v : Nat) {x : FieldDef} (hx : x ∈ clkoutCtlFields) (hlo : 0 < x.lo) :
    bitsOf (s.clkoutCtlWord k v).toNat x.hi x.lo = s.f ⟨R.CKG_CLKOUT_CTL k, x.hi, x.lo⟩ := by
  have hrw : ∀ y ∈ clkoutCtlFields, y.hi < 32 ∧ y.acc = .rw := by decide
  obtain ⟨h32, hacc⟩ := hrw x hx
  exact ctl_act_other _ _ 0 0 v x hx (by decide) h32 (.inl hlo) (by decide) (.inr (.inl hacc))

/-- The fields cover the low half of the word. -/
theorem mergeWord_clkoutCtl (old : Nat) {n : Nat} (h : n < 0x10000) : mergeWord true clkoutCtlFields old n = n := by
  simp only [mergeWord, clkoutCtlFields, fieldNew, bitsOf, List.foldl]
  omega

/-- Where the reserved bits stand at 0, the word written differs from the one that stands at most in EN. -/
theorem clkoutCtlWord_upper {s : State} {k : Nat} (v : Nat) (h : s.rdn (R.CKG_CLKOUT_CTL k) < 0x10000) :
    bitsOf (s.clkoutCtlWord k v).toNat 31 1 = bitsOf (s.rdn (R.CKG_CLKOUT_CTL k)) 31 1 := by
  have hlow : (BitVec.ofNat 32 (setBits (s.rdn (R.CKG_CLKOUT_CTL k)) 0 0 v)).toNat < 0x10000 := by
    simp only [BitVec.toNat_ofNat, setBits]
    omega
  rw [State.clkoutCtlWord, mergeWord_clkoutCtl _ hlow, BitVec.ofNat_toNat, BitVec.setWidth_eq]
  exact bitsOf_ctl_other _ 0 0 v 31 1 (by decide) (by decide) (.inl (by decide))

/-! ## CLKOUT_ENABLE (R79, R80) -/

/-- CKG_CLKOUT_k_CTL takes the word with EN set to `v`. -/
def State.clkoutCtl (s : State) (k v : Nat) : State := s.wr (R.CKG_CLKOUT_CTL k) (s.clkoutCtlWord k v)

theorem frame_clkoutCtl (s : State) (k v : Nat) : Frame [R.CKG_CLKOUT_CTL k] [] [] s (s.clkoutCtl k v) := frame_wr s _ _

theorem f_en_clkoutCtl (s : State) (k v : Nat) : (s.clkoutCtl k v).f (F.CKG_CLKOUT_CTL_EN k) = v % 2 := by
  rw [State.f, State.clkoutCtl, rdn_wr_same]
  exact clkoutCtlWord_en s k v

theorem f_clkoutCtl (s : State) (k v : Nat) {x : FieldDef} (hx : x ∈ clkoutCtlFields) (hlo : 0 < x.lo) :
    (s.clkoutCtl k v).f ⟨R.CKG_CLKOUT_CTL k, x.hi, x.lo⟩ = s.f ⟨R.CKG_CLKOUT_CTL k, x.hi, x.lo⟩ := by
  rw [State.f, State.clkoutCtl, rdn_wr_same]
  exact clkoutCtlWord_other s k v hx hlo

theorem f_src_clkoutCtl (s : State) (k v : Nat) : (s.clkoutCtl k v).f (F.CKG_CLKOUT_CTL_SRC k) = s.f (F.CKG_CLKOUT_CTL_SRC k) :=
  f_clkoutCtl s k v (x := ⟨3, 1, .rw, false, .range 0 3⟩) (by decide) (by decide)

/-- EN is no part of the source frequency. -/
theorem clkoutSrcHz_clkoutCtl (s : State) {k : Nat} (v : Nat) (hk : k < 4) : (s.clkoutCtl k v).clkoutSrcHz k = s.clkoutSrcHz k := by
  have hlane : (s.clkoutCtl k v).f (F.CKG_CLKOUT_CTL_LANE k) = s.f (F.CKG_CLKOUT_CTL_LANE k) :=
    f_clkoutCtl s k v (x := ⟨15, 10, .rw, false, .any⟩) (by decide) (by decide)
  have hreg {a : Nat} (ha : a ≠ R.CKG_CLKOUT_CTL k) : (s.clkoutCtl k v).rdn a = s.rdn a := (frame_clkoutCtl s k v).rdn_eq (by simpa using ha)
  have hcfg : R.LNE_LANE_CFG (s.f (F.CKG_CLKOUT_CTL_LANE k)) 0 ≠ R.CKG_CLKOUT_CTL k := by
    simp only [R.LNE_LANE_CFG, R.CKG_CLKOUT_CTL]
    omega
  have hfreq9 : R.CKG_CPLL_FREQ 9 ≠ R.CKG_CLKOUT_CTL k := by
    simp only [R.CKG_CPLL_FREQ, R.CKG_CLKOUT_CTL]
    omega
  have hfreq10 : R.CKG_CPLL_FREQ 10 ≠ R.CKG_CLKOUT_CTL k := by
    simp only [R.CKG_CPLL_FREQ, R.CKG_CLKOUT_CTL]
    omega
  simp only [State.clkoutSrcHz, f_src_clkoutCtl, hlane, hreg hcfg, hreg hfreq9, hreg hfreq10]

/-- EN is no part of the checks of an enable. -/
theorem clkoutOk_clkoutCtl (s : State) {k : Nat} (v : Nat) (hk : k < 4) : (s.clkoutCtl k v).clkoutOk k = s.clkoutOk k := by
  have hdiv : (s.clkoutCtl k v).f (F.CKG_CLKOUT_DIV_DIV k) = s.f (F.CKG_CLKOUT_DIV_DIV k) := (frame_clkoutCtl s k v).f_eq (by simp)
  have hfmt : (s.clkoutCtl k v).f (F.CKG_CLKOUT_CTL_FMT k) = s.f (F.CKG_CLKOUT_CTL_FMT k) :=
    f_clkoutCtl s k v (x := ⟨5, 4, .rw, false, .any⟩) (by decide) (by decide)
  have hswing : (s.clkoutCtl k v).f (F.CKG_CLKOUT_CTL_SWING k) = s.f (F.CKG_CLKOUT_CTL_SWING k) :=
    f_clkoutCtl s k v (x := ⟨7, 6, .rw, false, .range 0 2⟩) (by decide) (by decide)
  have halign : (s.clkoutCtl k v).f (F.CKG_CLKOUT_CTL_ALIGN k) = s.f (F.CKG_CLKOUT_CTL_ALIGN k) :=
    f_clkoutCtl s k v (x := ⟨8, 8, .rw, false, .any⟩) (by decide) (by decide)
  simp only [State.clkoutOk, State.on, hdiv, f_src_clkoutCtl, hswing, clkoutSrcHz_clkoutCtl s v hk, hfmt, halign]

/-- An output that is off and passes the checks starts. -/
theorem clkoutWrite_start {s : State} {k : Nat} (hk : k < 4) (hoff : s.on (F.CKG_CLKOUT_CTL_EN k) = false) (hok : s.clkoutOk k = true) :
    s.clkoutWrite k (s.clkoutCtlWord k 1) = (s.clkoutCtl k 1).emit (.clkout k true) := by
  have hpass := (clkoutOk_clkoutCtl s 1 hk).trans hok
  rw [State.clkoutCtl] at hpass
  simp [State.clkoutWrite, State.clkoutCtl, hoff, clkoutCtlWord_en, hpass]

/-- CLKOUT_ENABLE, of an output that is off. -/
theorem clkoutEnable_completes {s : State} {k : Nat} (hd : s.dark = false) (hk : k < 4) (hoff : s.on (F.CKG_CLKOUT_CTL_EN k) = false)
    (hok : s.clkoutOk k = true) :
    Completes (.clkoutEnable k) s fun t => t.on (F.CKG_CLKOUT_CTL_EN k) = true ∧ t.f (F.CKG_CLKOUT_CTL_SRC k) = s.f (F.CKG_CLKOUT_CTL_SRC k) ∧
      t.out = [.clkout k true] ∧ Keeps [R.CKG_CLKOUT_CTL k] [] [.out] s t := by
  have hop := (ctlWrite_clkoutEn (s := s.begin) 1 hd hk).trans (clkoutWrite_start (s := s.begin) hk hoff hok)
  have hf := (frame_clkoutCtl s.begin k 1).trans (frame_emit _ (.clkout k true))
  refine completes_of_frame (op := (·.idx k 4 (·.ctlWrite (F.CKG_CLKOUT_CTL_EN k) 1))) rfl ((idx_of_lt hk).trans hop) hf (.inl rfl)
    fun hkeeps => ⟨?_, f_src_clkoutCtl s.begin k 1, rfl, hkeeps⟩
  rw [on_finish, on_emit, State.on, f_en_clkoutCtl]
  rfl

/-! ## CLKOUT_DISABLE (R80) -/

theorem frame_ckg (s : State) (c : CkgSt) : Frame [] [] [.ckg] s { s with ckg := c } := by
  refine ⟨fun _ _ => rfl, fun _ _ => rfl, rfl, rfl, fun p hp => ?_⟩
  cases p
  case ckg => simp at hp
  all_goals rfl

/-- No realignment of an output waits, and the output gives `o`. -/
def State.clkoutSettled (s : State) (k : Nat) (o : Out) : State :=
  ({ s with ckg := { s.ckg with realign := Tab.put (fun _ => (none : Option Nat)) s.ckg.realign k none } }).emit o

theorem frame_clkoutSettled (s : State) (k : Nat) (o : Out) : Frame [] [] [.ckg, .out] s (s.clkoutSettled k o) :=
  (frame_ckg s _).trans (frame_emit _ o)

theorem realign_clkoutSettled (s : State) (k : Nat) (o : Out) : Tab.get (fun _ => (none : Option Nat)) (s.clkoutSettled k o).ckg.realign k = none :=
  Tab.get_put_same _ _ k none

/-- An output that is on stops. -/
theorem clkoutWrite_stop {s : State} {k : Nat} (hen : s.on (F.CKG_CLKOUT_CTL_EN k) = true) (hlow : s.rdn (R.CKG_CLKOUT_CTL k) < 0x10000) :
    s.clkoutWrite k (s.clkoutCtlWord k 0) = (s.clkoutCtl k 0).clkoutSettled k (.clkout k false) := by
  simp [State.clkoutWrite, State.clkoutSettled, State.clkoutCtl, hen, clkoutCtlWord_en, clkoutCtlWord_upper 0 hlow]

/-- CLKOUT_DISABLE, of an output that is on. -/
theorem clkoutDisable_completes {s : State} {k : Nat} (hd : s.dark = false) (hk : k < 4) (hen : s.on (F.CKG_CLKOUT_CTL_EN k) = true)
    (hlow : s.rdn (R.CKG_CLKOUT_CTL k) < 0x10000) :
    Completes (.clkoutDisable k) s fun t => t.on (F.CKG_CLKOUT_CTL_EN k) = false ∧ t.out = [.clkout k false] ∧
      Tab.get (fun _ => (none : Option Nat)) t.ckg.realign k = none ∧ Keeps [R.CKG_CLKOUT_CTL k] [] [.out, .ckg] s t := by
  have hop := (ctlWrite_clkoutEn (s := s.begin) 0 hd hk).trans (clkoutWrite_stop (s := s.begin) hen hlow)
  have hsettled := frame_clkoutSettled (s.begin.clkoutCtl k 0) k (.clkout k false)
  have hf := (frame_clkoutCtl s.begin k 0).trans hsettled
  refine completes_of_frame (op := (·.idx k 4 (·.ctlWrite (F.CKG_CLKOUT_CTL_EN k) 0))) rfl ((idx_of_lt hk).trans hop)
    (hf.mono (by simp) (by simp) (by simp)) (.inl rfl) fun hkeeps => ⟨?_, rfl, realign_clkoutSettled _ k _, hkeeps⟩
  rw [on_finish, hsettled.on_eq (by simp), State.on, f_en_clkoutCtl]
  rfl

/-! ## CLKOUT_REALIGN (R80) -/

theorem clkoutRealign_due {s : State} {k sec : Nat} (h : Tab.get (fun _ => (none : Option Nat)) s.ckg.realign k = some sec) :
    s.clkoutRealign k = (s.toStc (sec * 1000000000)).clkoutSettled k (.clkoutRealign k) := by
  simp only [State.clkoutRealign, h]
  rfl

/-- CLKOUT_REALIGN, of an output that is to realign at a whole second. -/
theorem clkoutRealign_completes {s : State} {k sec : Nat} (hk : k < 4) (hdue : Tab.get (fun _ => (none : Option Nat)) s.ckg.realign k = some sec) :
    Completes (.clkoutRealign k) s fun t => t.out = [.clkoutRealign k] ∧ Tab.get (fun _ => (none : Option Nat)) t.ckg.realign k = none ∧
      sec * 1000000000 ≤ t.clk.stc ∧ Keeps [] [] [.out, .ckg, .clk] s t := by
  have hop := clkoutRealign_due (s := s.begin) hdue
  have hf := (frame_toStc s.begin (sec * 1000000000)).trans (frame_clkoutSettled _ k (.clkoutRealign k))
  exact completes_of_frame (op := (·.idx k 4 (·.clkoutRealign k))) rfl ((idx_of_lt hk).trans hop) (hf.mono (by simp) (by simp) (by simp)) (.inl rfl)
    fun hkeeps => ⟨rfl, realign_clkoutSettled _ k _, le_toStc s.begin _, hkeeps⟩

/-- Settles O11, clause by clause. -/
theorem clockOutputCommandsComplete : Obligations.ClockOutputCommandsComplete := by
  unfold Obligations.ClockOutputCommandsComplete
  exact ⟨fun _ _ => clkoutEnable_completes, fun _ _ => clkoutDisable_completes, fun _ _ _ => clkoutRealign_completes⟩

end Sys2Proof.Machine
end

section
/-!
SUPPORT. The tables of ingest (flow entries, policers, merges, inputs, decode contexts) after updates, the frames of the operations that change them, and
what the timing of a channel and the position of a scheduled decision depend on.
-/

namespace Sys2Proof.Machine

/-! ## The tables of ingest after updates -/

@[simp] theorem ftw_setFtw_same (s : State) (f w v : Nat) : (s.setFtw f w v).ftw f w = v % 2 ^ 32 := Tab.get_put_same _ _ _ _

/-- Another word of an entry is as it was. -/
theorem ftw_setFtw_word (s : State) (f v : Nat) {w u : Nat} (h : u ≠ w) : (s.setFtw f w v).ftw f u = s.ftw f u :=
  Tab.get_put_ne _ _ _ (by omega)

@[simp] theorem ftw_setFlowSt (s : State) (f : Nat) (x : FlowSt) (g u : Nat) : (s.setFlowSt f x).ftw g u = s.ftw g u := rfl

@[simp] theorem ftw_finish (s : State) (f w : Nat) : s.finish.ftw f w = s.ftw f w := rfl
@[simp] theorem flowSt_finish (s : State) (f : Nat) : s.finish.flowSt f = s.flowSt f := rfl
@[simp] theorem flowSt_setFlowSt_same (s : State) (f : Nat) (x : FlowSt) : (s.setFlowSt f x).flowSt f = x := Tab.get_put_same _ _ f x
@[simp] theorem merge_setMerge_same (s : State) (ty tg : Nat) (m : MergeSt) : (s.setMerge ty tg m).merge ty tg = m := Tab.get_put_same _ _ _ m

@[simp] theorem inp_begin (s : State) (i : Nat) : s.begin.inp i = s.inp i := rfl
@[simp] theorem inp_finish (s : State) (i : Nat) : s.finish.inp i = s.inp i := rfl
@[simp] theorem inp_bump (s : State) (a i : Nat) : (s.bump a).inp i = s.inp i := rfl
@[simp] theorem inp_setInp_same (s : State) (i : Nat) (x : InputSt) : (s.setInp i x).inp i = x := Tab.get_put_same _ _ i x

@[simp] theorem ctx_begin (s : State) (x : Nat) : s.begin.ctx x = s.ctx x := rfl
@[simp] theorem ctx_finish (s : State) (x : Nat) : s.finish.ctx x = s.ctx x := rfl
@[simp] theorem ctx_setCtx_same (s : State) (x : Nat) (d : DecSt) : (s.setCtx x d).ctx x = d := Tab.get_put_same _ _ x d

/-! ## Registers after updates of the tables -/

@[simp] theorem rdn_setInp (s : State) (i : Nat) (x : InputSt) (a : Nat) : (s.setInp i x).rdn a = s.rdn a := rfl
@[simp] theorem rdn_setCtx (s : State) (x : Nat) (d : DecSt) (a : Nat) : (s.setCtx x d).rdn a = s.rdn a := rfl
@[simp] theorem f_setCtx (s : State) (x : Nat) (d : DecSt) (y : Fld) : (s.setCtx x d).f y = s.f y := rfl
@[simp] theorem on_setCtx (s : State) (x : Nat) (d : DecSt) (y : Fld) : (s.setCtx x d).on y = s.on y := rfl

/-! ## Frames -/

theorem frame_ing (s : State) (g : IngSt) : Frame [] [] [.ing] s { s with ing := g } := by
  refine ⟨fun _ _ => rfl, fun _ _ => rfl, rfl, rfl, fun p hp => ?_⟩
  cases p
  case ing => simp at hp
  all_goals rfl

/-- The frame that a media timestamp names depends on no table of ingest (R91). -/
theorem assign_ing (s : State) (g : IngSt) (i ts bits : Nat) : State.assign { s with ing := g } i ts bits = s.assign i ts bits := rfl

theorem frame_setMerge (s : State) (ty tg : Nat) (m : MergeSt) : Frame [] [] [.ing] s (s.setMerge ty tg m) := frame_ing s _

theorem frame_setInp (s : State) (i : Nat) (x : InputSt) : Frame [] [] [.ing] s (s.setInp i x) := frame_ing s _

theorem frame_setCtx (s : State) (x : Nat) (d : DecSt) : Frame [] [] [.ing] s (s.setCtx x d) := frame_ing s _

theorem frame_bumpBy (s : State) (a n : Nat) : Frame [a] [] [] s (s.bumpBy a n) := frame_wrn s a _

theorem frame_cal (s : State) (c : CalSt) : Frame [] [] [.cal] s { s with cal := c } := by
  refine ⟨fun _ _ => rfl, fun _ _ => rfl, rfl, rfl, fun p hp => ?_⟩
  cases p
  case cal => simp at hp
  all_goals rfl

/-- A demand on a pool changes no byte of the stack. -/
theorem frame_poolTake (s : State) (obj st mib : Nat) : Frame [R.HBM_S_POOL_NEED st] [] [.hbm] s (s.poolTake obj st mib) := by
  refine ⟨fun _ hb => rd_bumpBy_ne _ _ (List.ne_of_not_mem_cons hb), fun _ _ => rfl, rfl, rfl, fun p hp => ?_⟩
  cases p
  case hbm => simp at hp
  all_goals rfl

theorem poolTake_evNow (s : State) (obj st mib : Nat) : (s.poolTake obj st mib).evNow = s.evNow := rfl

/-- A demand that fits the pool is added in full (R302). -/
theorem rdn_poolTake_of_fits {s : State} {st mib : Nat} (obj : Nat) (h : s.poolFits st mib = true) :
    (s.poolTake obj st mib).rdn (R.HBM_S_POOL_NEED st) = s.rdn (R.HBM_S_POOL_NEED st) + mib := by
  have hfits : s.rdn (R.HBM_S_POOL_NEED st) + mib ≤ s.f (F.HBM_S_POOL_SIZE st) := of_decide_eq_true h
  have hsize : s.f (F.HBM_S_POOL_SIZE st) < 2 ^ 16 := Nat.mod_lt _ (Nat.two_pow_pos _)
  rw [State.poolTake, rdn_bumpBy_same]
  exact Nat.mod_eq_of_lt (by
    change s.rdn (R.HBM_S_POOL_NEED st) + mib < 2 ^ 32
    omega)

/-- A function that starts is STARTING from now on. -/
theorem setFn_starting {s : State} {g : Nat} (h : s.fn g ≠ .starting) : s.setFn g .starting =
    { s with fns := Tab.put (fun _ => FnState.off) s.fns g .starting, fnAt := Tab.put (fun _ => 0) s.fnAt g s.clk.vpos } := if_neg h

theorem fn_setFn_starting {s : State} {g : Nat} (h : s.fn g ≠ .starting) : (s.setFn g .starting).fn g = .starting := by
  rw [setFn_starting h]
  exact Tab.get_put_same (fun _ => FnState.off) s.fns g .starting

theorem frame_setFn_starting {s : State} {g : Nat} (h : s.fn g ≠ .starting) : Frame [] [g] [.fnAt] s (s.setFn g .starting) := by
  rw [setFn_starting h]
  refine ⟨fun _ _ => rfl, fun f hf => Tab.get_put_ne (fun _ => FnState.off) s.fns .starting (List.ne_of_not_mem_cons hf), rfl, rfl, fun p hp => ?_⟩
  cases p
  case fnAt => simp at hp
  all_goals rfl

theorem Frame.inp_eq {regs fns : List Nat} {parts : List Part} {s t : State} (h : Frame regs fns parts s t) (hp : .ing ∉ parts) (i : Nat) :
    t.inp i = s.inp i := by
  have hing : t.ing = s.ing := h.part hp
  rw [State.inp, State.inp, hing]

theorem Frame.ctx_eq {regs fns : List Nat} {parts : List Part} {s t : State} (h : Frame regs fns parts s t) (hp : .ing ∉ parts) (x : Nat) :
    t.ctx x = s.ctx x := by
  have hing : t.ing = s.ing := h.part hp
  rw [State.ctx, State.ctx, hing]

theorem Frame.ftw_eq {regs fns : List Nat} {parts : List Part} {s t : State} (h : Frame regs fns parts s t) (hp : .ing ∉ parts) (f w : Nat) :
    t.ftw f w = s.ftw f w := by
  have hing : t.ing = s.ing := h.part hp
  rw [State.ftw, State.ftw, hing]

theorem Frame.flowSt_eq {regs fns : List Nat} {parts : List Part} {s t : State} (h : Frame regs fns parts s t) (hp : .ing ∉ parts) (f : Nat) :
    t.flowSt f = s.flowSt f := by
  have hing : t.ing = s.ing := h.part hp
  rw [State.flowSt, State.flowSt, hing]

theorem Frame.fn_eq {regs fns : List Nat} {parts : List Part} {s t : State} (h : Frame regs fns parts s t) {g : Nat} (hg : g ∉ fns) :
    t.fn g = s.fn g := by
  obtain ⟨-, hfns, -⟩ := h
  exact hfns g hg

/-! ## The timing of channels (R35, R36, R42) -/

/-- Two states whose channels have the same frames: the Meridian, the relation of rates and what a step held back are the same. -/
def State.SameTiming (s t : State) : Prop := t.clk = s.clk ∧ t.mer = s.mer ∧ ∀ n, t.chanRel n = s.chanRel n

/-- Channels are timed by no register of ingest or decode. -/
theorem Frame.sameTiming {regs fns : List Nat} {parts : List Part} {s t : State} (h : Frame regs fns parts s t) (hclk : .clk ∉ parts)
    (hmer : .mer ∉ parts) (hregs : ∀ a ∈ regs, 0x50000 ≤ a ∧ a < 0x80000) : s.SameTiming t := by
  refine ⟨h.part hclk, h.part hmer, fun n => ?_⟩
  have hout {a : Nat} (ha : a < 0x50000 ∨ 0x80000 ≤ a) : a ∉ regs := fun hmem => by
    obtain ⟨hlo, hhi⟩ := hregs a hmem
    omega
  have hrate : R.ENC_CH_RATE n ∉ regs := hout (.inr (by simp only [R.ENC_CH_RATE]; omega))
  rw [State.chanRel, State.chanRel, h.rdn_eq (hout (.inl (by decide))), h.rdn_eq (hout (.inl (by decide))), h.f_eq (y := F.ENC_CH_RATE_NUM n) hrate,
    h.f_eq (y := F.ENC_CH_RATE_DEN n) hrate]

namespace State.SameTiming
variable {s t : State}

theorem chanStart_eq (h : s.SameTiming t) (n k : Nat) : t.chanStart n k = s.chanStart n k := by
  obtain ⟨hclk, -, hrel⟩ := h
  simp only [State.chanStart, hclk, hrel]

theorem chanIdx_eq (h : s.SameTiming t) (n v : Nat) : t.chanIdx n v = s.chanIdx n v := by
  obtain ⟨hclk, -, hrel⟩ := h
  simp only [State.chanIdx, hclk, hrel]

theorem minStart_eq (h : s.SameTiming t) (n : Nat) : t.minStart n = s.minStart n := by
  obtain ⟨-, hmer, -⟩ := h
  simp only [State.minStart, hmer]

theorem chanFrom_eq (h : s.SameTiming t) (n v : Nat) : t.chanFrom n v = s.chanFrom n v := by
  simp only [State.chanFrom, h.minStart_eq, h.chanIdx_eq, h.chanStart_eq]

/-- Time runs on to a position in the same way. -/
theorem toPos_eq (h : s.SameTiming t) {cls v : Nat} {q : Clock} (hs : s.toPos cls v = some { s with clk := q }) :
    t.toPos cls v = some { t with clk := q } := by
  obtain ⟨hclk, -, -⟩ := h
  simp only [State.toPos, Option.ite_none_left_eq_some] at hs ⊢
  obtain ⟨hrun, hhold, hq⟩ := hs
  have hc := congrArg State.clk (Option.some.inj hq)
  rw [hclk]
  exact ⟨hrun, hhold, congrArg some (congrArg (fun c => { t with clk := c }) hc)⟩

/-- Time runs on to a channel's frame start in the same way. -/
theorem toChanStart_eq (h : s.SameTiming t) {cls n k v : Nat} {q : Clock} (hs : s.toChanStart cls n = some ({ s with clk := q }, k, v)) :
    t.toChanStart cls n = some ({ t with clk := q }, k, v) := by
  simp only [State.toChanStart, Option.ite_none_left_eq_some] at hs ⊢
  obtain ⟨hrun, hstart⟩ := hs
  obtain ⟨u, hpos, hu⟩ := Option.map_eq_some_iff.mp hstart
  simp only [Prod.mk.injEq] at hu
  obtain ⟨rfl, hk, hv⟩ := hu
  have hclk : t.clk = s.clk := h.1
  refine ⟨by rwa [hclk], ?_⟩
  simp only [hclk, h.minStart_eq, h.chanIdx_eq, h.chanStart_eq, h.chanFrom_eq]
  rw [h.toPos_eq hpos, Option.map_some, hk, hv]

end State.SameTiming

end Sys2Proof.Machine
end

section
/-!
PROOFS. The ingest flows: a packet that is matched, admitted, merged and stored (R84-R91), the reads and writes of flow entries (R85), and the loss of a
leg (R88).
-/

namespace Sys2Proof.Machine

/-! ## INGEST_PACKET_RECEIVE (R84, R86, R88, R91) -/

/-- Flow `f` admits a packet, with `tok` tokens left. -/
def State.flowAdmitted (s : State) (f tok : Nat) : State :=
  (s.setFlowSt f { s.flowSt f with tok := tok, tLast := s.clk.stc }).bumpFtw f 12

theorem frame_flowAdmitted (s : State) (f tok : Nat) : Frame [] [] [.ing] s (s.flowAdmitted f tok) := frame_ing s _

/-- The packet is counted in word 12 alone. -/
theorem ftw_flowAdmitted (s : State) (f tok : Nat) {w : Nat} (h : w ≠ 12) : (s.flowAdmitted f tok).ftw f w = s.ftw f w :=
  ftw_setFtw_word _ f _ h

theorem cnt_flowAdmitted (s : State) (f tok : Nat) : (s.flowAdmitted f tok).ftw f 12 = (s.ftw f 12 + 1) % 2 ^ 32 := ftw_setFtw_same _ f 12 _

theorem flowSt_flowAdmitted (s : State) (f tok : Nat) : (s.flowAdmitted f tok).flowSt f = { s.flowSt f with tok := tok, tLast := s.clk.stc } :=
  flowSt_setFlowSt_same s f _

/-- A packet for which the policer has tokens is admitted (R86). -/
theorem policeFlow_of_tokens {s : State} {f len port tok : Nat}
    (h : police (s.flowSt f).tok (s.flowSt f).tLast s.clk.stc (bitsOf (s.ftw f 10) 19 0) (bitsOf (s.ftw f 11) 23 0) len (s.f (F.ING_PORT_OVH_OVH port)) =
      (tok, true)) :
    s.policeFlow f len port = (s.flowAdmitted f tok, true) := by
  simp only [State.policeFlow, h, if_true]
  rfl

/-- A number that the merge keeps is handed on (R88). -/
theorem mergeFlow_of_keep {s : State} {f bits seq ty tg : Nat} {n : Int} {m : MergeSt} (hty : ftType (s.ftw f 0) = ty) (htg : ftTarget (s.ftw f 1) = tg)
    (h : mergeStep bits (s.merge ty tg) (ftLeg (s.ftw f 0)) (s.clk.vpos / s.clk.fu) s.clk.vpos f seq = (.keep, n, m)) :
    s.mergeFlow f bits seq = (s.setMerge ty tg m, some n) := by
  simp only [State.mergeFlow, hty, htg, h]

/-- The picture in progress of input `i` takes an ancillary packet. -/
def State.ancTaken (s : State) (i : Nat) (data : List Nat) : State :=
  s.setInp i { s.inp i with cur := { (s.inp i).cur with anc := (s.inp i).cur.anc ++ [data] } }

theorem frame_ancTaken (s : State) (i : Nat) (data : List Nat) : Frame [] [] [.ing] s (s.ancTaken i data) := frame_setInp s i _

theorem anc_ancTaken (s : State) (i : Nat) (data : List Nat) : ((s.ancTaken i data).inp i).cur.anc = (s.inp i).cur.anc ++ [data] := by
  rw [State.ancTaken, inp_setInp_same]

/-- A running input takes an ancillary packet of the frame in progress (R91). -/
theorem ancData_of_current {s : State} {f i ts : Nat} {data : List Nat} (hhold : s.clk.inHold = false) (hrun : s.on (F.ING_IN_STATUS_RUN i) = true)
    (hframe : s.assign i ts 32 = (s.inp i).idx) (hroom : ((s.inp i).cur.anc.map List.length).sum + data.length ≤ 65536) :
    s.ancData f i ts data = s.ancTaken i data := by
  have htakes : s.takesData i = true := by simp [State.takesData, hhold, hrun]
  have hcurrent : s.dataFor i (s.assign i ts 32) = .current := by simp [State.dataFor, hrun, hframe]
  simp only [State.ancData, htakes, hcurrent, Pic.addAnc, if_pos hroom, Bool.not_true, Bool.false_eq_true, if_false]
  rfl

/-- An ancillary packet that is matched, admitted and kept is stored, and is no audio packet to hand on. -/
theorem packetIn_anc {s : State} {p : IngPacket} {f i n ts k : Nat} {data : List Nat} {nn : Int} {m : MergeSt} (hready : s.ready (fnIng p.port) = true)
    (hmatch : s.ingFlows.find? (s.ingMatch p) = some f)
    (hpolice : police (s.flowSt f).tok (s.flowSt f).tLast s.clk.stc (bitsOf (s.ftw f 10) 19 0) (bitsOf (s.ftw f 11) 23 0) p.len
      (s.f (F.ING_PORT_OVH_OVH p.port)) = (k, true))
    (hbody : p.body = .anc40 n ts false data) (htype : ftType (s.ftw f 0) = 1) (htarget : ftTarget (s.ftw f 1) = i)
    (hmerge : mergeStep 16 (s.merge 1 i) (ftLeg (s.ftw f 0)) (s.clk.vpos / s.clk.fu) s.clk.vpos f n = (.keep, nn, m))
    (hhold : s.clk.inHold = false) (hrun : s.on (F.ING_IN_STATUS_RUN i) = true) (hframe : s.assign i ts 32 = (s.inp i).idx)
    (hroom : ((s.inp i).cur.anc.map List.length).sum + data.length ≤ 65536) :
    s.packetIn p = ((s.flowAdmitted f k).setMerge 1 i m).ancTaken i data := by
  have hw0 := ftw_flowAdmitted s f k (w := 0) (by decide)
  have hw1 := ftw_flowAdmitted s f k (w := 1) (by decide)
  have hkept : (s.flowAdmitted f k).mergeFlow f 16 n = ((s.flowAdmitted f k).setMerge 1 i m, some nn) :=
    mergeFlow_of_keep (by rw [hw0, htype]) (by rw [hw1, htarget]) (by rw [hw0]; exact hmerge)
  have hstored : ((s.flowAdmitted f k).setMerge 1 i m).ancData f i ts data = ((s.flowAdmitted f k).setMerge 1 i m).ancTaken i data :=
    ancData_of_current hhold hrun ((assign_ing s _ i ts 32).trans hframe) hroom
  have hpacket : s.ingPacket p = (((s.flowAdmitted f k).setMerge 1 i m).ancTaken i data, none) := by
    simp [State.ingPacket, hready, hmatch, policeFlow_of_tokens hpolice, hbody, hw0, hw1, htype, htarget, hkept, hstored]
  rw [State.packetIn, hpacket]

/-- INGEST_PACKET_RECEIVE, for an ancillary packet of the frame in progress. -/
theorem ingestPacketReceive_completes {s : State} {p : IngPacket} {f i n ts k : Nat} {data : List Nat} {nn : Int} {m : MergeSt}
    (hready : s.ready (fnIng p.port) = true) (hmatch : s.ingFlows.find? (s.ingMatch p) = some f)
    (hpolice : police (s.flowSt f).tok (s.flowSt f).tLast s.clk.stc (bitsOf (s.ftw f 10) 19 0) (bitsOf (s.ftw f 11) 23 0) p.len
      (s.f (F.ING_PORT_OVH_OVH p.port)) = (k, true))
    (hbody : p.body = .anc40 n ts false data) (htype : ftType (s.ftw f 0) = 1) (htarget : ftTarget (s.ftw f 1) = i)
    (hmerge : mergeStep 16 (s.merge 1 i) (ftLeg (s.ftw f 0)) (s.clk.vpos / s.clk.fu) s.clk.vpos f n = (.keep, nn, m))
    (hhold : s.clk.inHold = false) (hrun : s.on (F.ING_IN_STATUS_RUN i) = true) (hframe : s.assign i ts 32 = (s.inp i).idx)
    (hroom : ((s.inp i).cur.anc.map List.length).sum + data.length ≤ 65536) :
    Completes (.ingestPacketReceive p) s fun t => (t.inp i).cur.anc = (s.inp i).cur.anc ++ [data] ∧ t.merge 1 i = m ∧ (t.flowSt f).tok = k ∧
      (t.flowSt f).tLast = s.clk.stc ∧ t.ftw f 12 = (s.ftw f 12 + 1) % 2 ^ 32 ∧ Keeps [] [] [.ing] s t := by
  have hop := packetIn_anc (s := s.begin) hready hmatch hpolice hbody htype htarget hmerge hhold hrun hframe hroom
  have hf := ((frame_flowAdmitted s.begin f k).trans (frame_setMerge _ 1 i m)).trans (frame_ancTaken _ i data)
  have hflow := flowSt_flowAdmitted s.begin f k
  refine completes_of_frame (op := (·.packetIn p)) rfl hop (hf.mono (by simp) (by simp) (by simp)) (.inl rfl) fun hkeeps =>
    ⟨anc_ancTaken _ i data, merge_setMerge_same (s.begin.flowAdmitted f k) 1 i m, congrArg FlowSt.tok hflow, congrArg FlowSt.tLast hflow, cnt_flowAdmitted s.begin f k, hkeeps⟩

/-! ## Writes of ING_FT_CMD (R85) -/

/-- A write of ING_FT_CMD reaches the flow table, with the flow and the two commands that were written. -/
theorem busWrite_ftCmd {s t : State} {v : Word} (hd : s.dark = false)
    (hrule : ∀ w : Word, bitsOf w.toNat 11 0 = bitsOf v.toNat 11 0 → bitsOf w.toNat 12 12 = bitsOf v.toNat 12 12 →
      bitsOf w.toNat 13 13 = bitsOf v.toNat 13 13 → s.ingReg R.ING_FT_CMD w = some t) :
    s.busWrite .pcie R.ING_FT_CMD v 4 = t := by
  have hfield (x : FieldDef) (hx : x ∈ [⟨11, 0, .wo, false, .any⟩, ⟨12, 12, .wo, false, .any⟩, ⟨13, 13, .wo, false, .any⟩]) (hwo : x.acc = .wo) :
      bitsOf (BitVec.ofNat 32 (mergeWord true [⟨11, 0, .wo, false, .any⟩, ⟨12, 12, .wo, false, .any⟩, ⟨13, 13, .wo, false, .any⟩]
        (s.oldWord .pcie R.ING_FT_CMD) v.toNat)).toNat x.hi x.lo = bitsOf v.toNat x.hi x.lo := by
    rw [bitsOf_mergeWord32 true _ _ (by decide) x hx, fieldNew, hwo]
    rfl
  rw [busWrite_reg v (by decide) hd (by decide) (by decide)]
  refine regWrite_unit (d := ⟨0x50080, [], 0x0, false, [⟨11, 0, .wo, false, .any⟩, ⟨12, 12, .wo, false, .any⟩, ⟨13, 13, .wo, false, .any⟩]⟩) rfl rfl
    (fieldsOk_any rfl _ _) (by decide) (by decide) (hrule _ ?_ ?_ ?_)
  · exact hfield ⟨11, 0, .wo, false, .any⟩ (by simp) rfl
  · exact hfield ⟨12, 12, .wo, false, .any⟩ (by simp) rfl
  · exact hfield ⟨13, 13, .wo, false, .any⟩ (by simp) rfl

/-- READ of ING_FT_CMD (R85). -/
theorem busWrite_ftRead {s : State} {f : Nat} (hd : s.dark = false) (hf : f < 4096) :
    s.busWrite .pcie R.ING_FT_CMD (BitVec.ofNat 32 (0x1000 + f)) 4 = s.ingFtRead f := by
  refine busWrite_ftCmd hd fun w hflow hread hwrite => ?_
  have hv : (BitVec.ofNat 32 (0x1000 + f)).toNat = 0x1000 + f := Nat.mod_eq_of_lt (by omega)
  have hflow' : bitsOf w.toNat 11 0 = f := by rw [hflow, hv, bitsOf]; omega
  have hread' : bitsOf w.toNat 12 12 = 1 := by rw [hread, hv, bitsOf]; omega
  have hwrite' : bitsOf w.toNat 13 13 = 0 := by rw [hwrite, hv, bitsOf]; omega
  simp [State.ingReg, hflow', hread', hwrite']

/-- WRITE of ING_FT_CMD; the joins follow the flows (R85, R286). -/
theorem busWrite_ftWrite {s : State} {f : Nat} (hd : s.dark = false) (hf : f < 4096) :
    s.busWrite .pcie R.ING_FT_CMD (BitVec.ofNat 32 (0x2000 + f)) 4 = (s.ingFtWrite f).joinAll := by
  refine busWrite_ftCmd hd fun w hflow hread hwrite => ?_
  have hv : (BitVec.ofNat 32 (0x2000 + f)).toNat = 0x2000 + f := Nat.mod_eq_of_lt (by omega)
  have hflow' : bitsOf w.toNat 11 0 = f := by rw [hflow, hv, bitsOf]; omega
  have hread' : bitsOf w.toNat 12 12 = 0 := by rw [hread, hv, bitsOf]; omega
  have hwrite' : bitsOf w.toNat 13 13 = 1 := by rw [hwrite, hv, bitsOf]; omega
  simp [State.ingReg, hflow', hread', hwrite']

/-! ## ING_FT_READ (R85) -/

/-- Of registers written in turn, each to its own value, each holds that value. -/
theorem rd_foldl_wrn {reg : Nat → Nat} (hreg : Function.Injective reg) (v : Nat → Nat) (l : List Nat) (s : State) {w : Nat} (hw : w ∈ l) :
    (l.foldl (fun t k => t.wrn (reg k) (v k)) s).rd (reg w) = BitVec.ofNat 32 (v w) := by
  induction l generalizing s with
  | nil => simp at hw
  | cons k r ih =>
    by_cases hr : w ∈ r
    · exact ih _ hr
    · obtain rfl : w = k := (List.mem_cons.mp hw).resolve_right hr
      have hout : reg w ∉ r.map reg := fun h => hr ((List.mem_map_of_injective hreg).mp h)
      have hrest := frame_foldl (op := fun t k => t.wrn (reg k) (v k)) (fun t k => frame_wrn t (reg k) (v k)) r (s.wrn (reg w) (v w))
      exact (hrest.rd_eq hout).trans (rd_wrn_same _ _ _)

theorem frame_ingFtRead (s : State) (f : Nat) : Frame ((List.range 16).map R.ING_FT_DATA) [] [] s (s.ingFtRead f) :=
  frame_foldl (op := fun t w => t.wrn (R.ING_FT_DATA w) (s.ftw f w)) (fun t w => frame_wrn t (R.ING_FT_DATA w) (s.ftw f w)) (List.range 16) s

theorem rd_ingFtRead (s : State) (f : Nat) {w : Nat} (hw : w < 16) : (s.ingFtRead f).rd (R.ING_FT_DATA w) = BitVec.ofNat 32 (s.ftw f w) :=
  rd_foldl_wrn (reg := R.ING_FT_DATA) (fun a b h => by simp only [R.ING_FT_DATA] at h; omega) (s.ftw f) (List.range 16) s (List.mem_range.mpr hw)

theorem foldl_wrn_evNow (reg v : Nat → Nat) (l : List Nat) (s : State) : (l.foldl (fun t k => t.wrn (reg k) (v k)) s).evNow = s.evNow := by
  induction l generalizing s with
  | nil => rfl
  | cons k r ih => exact ih _

/-- ING_FT_READ. -/
theorem ingFtRead_completes {s : State} {f : Nat} (hd : s.dark = false) (hf : f < 4096) :
    Completes (.ingFtRead f) s fun t => (∀ w : Nat, w < 16 → t.rd (R.ING_FT_DATA w) = BitVec.ofNat 32 (s.ftw f w)) ∧
      Keeps ((List.range 16).map R.ING_FT_DATA) [] [] s t :=
  completes_of_frame (op := (·.idx f 4096 (·.busWrite .pcie R.ING_FT_CMD (BitVec.ofNat 32 (0x1000 + f)) 4))) rfl
    ((idx_of_lt hf).trans (busWrite_ftRead (s := s.begin) hd hf)) (frame_ingFtRead s.begin f)
    (.inl (foldl_wrn_evNow R.ING_FT_DATA (s.begin.ftw f) (List.range 16) s.begin)) fun hkeeps => ⟨fun _ hw => (rd_finish _ _).trans (rd_ingFtRead s.begin f hw), hkeeps⟩

/-! ## ING_FT_WRITE (R85, R86) -/

/-- Words 0 to 11 of entry `f` are loaded from the buffer. -/
def State.ftLoaded (s : State) (f : Nat) : State := (List.range 12).foldl (fun t i => t.setFtw f i (s.rdn (R.ING_FT_DATA i))) s

theorem foldl_setFtw_ing (f : Nat) (w : Nat → Nat) (l : List Nat) (s : State) :
    ∃ g, l.foldl (fun t i => t.setFtw f i (w i)) s = { s with ing := { s.ing with ft := g } } := by
  induction l generalizing s with
  | nil => exact ⟨s.ing.ft, rfl⟩
  | cons k r ih => exact ih _

theorem ftw_foldl_setFtw (f : Nat) (w : Nat → Nat) (l : List Nat) (s : State) (u : Nat) :
    (l.foldl (fun t i => t.setFtw f i (w i)) s).ftw f u = if u ∈ l then w u % 2 ^ 32 else s.ftw f u := by
  induction l generalizing s with
  | nil => simp
  | cons k r ih =>
    rw [List.foldl_cons, ih]
    by_cases hr : u ∈ r
    · simp [hr]
    · by_cases hk : u = k
      · simp [hk]
      · simp [hr, hk, ftw_setFtw_word s f (w k) hk]

theorem ftw_ftLoaded (s : State) (f u : Nat) : (s.ftLoaded f).ftw f u = if u < 12 then s.rdn (R.ING_FT_DATA u) else s.ftw f u := by
  rw [State.ftLoaded, ftw_foldl_setFtw, Nat.mod_eq_of_lt (rdn_lt s _)]
  simp only [List.mem_range]

/-- Entry `f` is written from the buffer, its bucket full. -/
def State.ftStarted (s : State) (f : Nat) : State :=
  (s.ftLoaded f).setFlowSt f { s.flowSt f with tok := bitsOf (s.rdn (R.ING_FT_DATA 11)) 23 0 * 8000, tLast := s.clk.stc }

theorem ftStarted_ing (s : State) (f : Nat) : ∃ g, s.ftStarted f = { s with ing := g } := by
  obtain ⟨g, hg⟩ := foldl_setFtw_ing f (fun i => s.rdn (R.ING_FT_DATA i)) (List.range 12) s
  rw [State.ftStarted, State.ftLoaded, hg]
  exact ⟨_, rfl⟩

theorem frame_ftStarted (s : State) (f : Nat) : Frame [] [] [.ing] s (s.ftStarted f) := by
  obtain ⟨g, hg⟩ := ftStarted_ing s f
  rw [hg]
  exact frame_ing s g

theorem ftStarted_evNow (s : State) (f : Nat) : (s.ftStarted f).evNow = s.evNow := by
  obtain ⟨g, hg⟩ := ftStarted_ing s f
  rw [hg]

theorem ftw_ftStarted (s : State) (f u : Nat) : (s.ftStarted f).ftw f u = if u < 12 then s.rdn (R.ING_FT_DATA u) else s.ftw f u := by
  rw [State.ftStarted, ftw_setFlowSt, ftw_ftLoaded]

theorem flowSt_ftStarted (s : State) (f : Nat) :
    (s.ftStarted f).flowSt f = { s.flowSt f with tok := bitsOf (s.rdn (R.ING_FT_DATA 11)) 23 0 * 8000, tLast := s.clk.stc } :=
  flowSt_setFlowSt_same _ f _

/-- A write that enables an entry passes the checks and starts its flow (R85, R86). -/
theorem ingFtWrite_of_start {s : State} {f : Nat} (hwas : ftEn (s.ftw f 0) = false) (hok : s.ftWriteOk f (fun i => s.rdn (R.ING_FT_DATA i)) = true)
    (hen : ftEn (s.rdn (R.ING_FT_DATA 0)) = true) : s.ingFtWrite f = s.ftStarted f := by
  simp only [State.ingFtWrite, hok, hwas, hen, Bool.not_true, Bool.false_eq_true, if_false, Bool.not_false, Bool.and_self, if_true]
  rfl

/-- ING_FT_WRITE, of an entry that is enabled by it. -/
theorem ingFtWrite_completes {s : State} {f : Nat} (hd : s.dark = false) (hf : f < 4096) (hwas : ftEn (s.ftw f 0) = false)
    (hok : s.ftWriteOk f (fun i => s.rdn (R.ING_FT_DATA i)) = true) (hen : ftEn (s.rdn (R.ING_FT_DATA 0)) = true) :
    Completes (.ingFtWrite f) s fun t => (∀ w : Nat, w < 12 → t.ftw f w = s.rdn (R.ING_FT_DATA w)) ∧ (∀ w : Nat, 12 ≤ w → w < 16 → t.ftw f w = s.ftw f w) ∧
      (t.flowSt f).tok = bitsOf (s.rdn (R.ING_FT_DATA 11)) 23 0 * 8000 ∧ (t.flowSt f).tLast = s.clk.stc ∧
      Keeps ((List.range 8).map R.ETH_PORT_JOIN_CNT) [] [.ing, .eth] s t := by
  have hop : s.begin.idx f 4096 (·.busWrite .pcie R.ING_FT_CMD (BitVec.ofNat 32 (0x2000 + f)) 4) = (s.begin.ftStarted f).joinAll := by
    rw [idx_of_lt hf, busWrite_ftWrite (s := s.begin) hd hf, ingFtWrite_of_start (s := s.begin) hwas hok hen]
  have hjoin := frame_joinAll (s.begin.ftStarted f)
  have hframe := (frame_ftStarted s.begin f).trans hjoin
  have hword (u : Nat) : (s.begin.ftStarted f).joinAll.finish.ftw f u = if u < 12 then s.rdn (R.ING_FT_DATA u) else s.ftw f u := by
    rw [ftw_finish, hjoin.ftw_eq (by decide), ftw_ftStarted]
    rfl
  have hflow : (s.begin.ftStarted f).joinAll.finish.flowSt f =
      { s.flowSt f with tok := bitsOf (s.rdn (R.ING_FT_DATA 11)) 23 0 * 8000, tLast := s.clk.stc } := by
    rw [flowSt_finish, hjoin.flowSt_eq (by decide), flowSt_ftStarted]
    rfl
  refine completes_of_frame (op := (·.idx f 4096 (·.busWrite .pcie R.ING_FT_CMD (BitVec.ofNat 32 (0x2000 + f)) 4))) rfl hop
    (hframe.mono (by simp) (by simp) (by simp)) (.inl ((joinAll_evNow _).trans (ftStarted_evNow _ f))) fun hkeeps =>
      ⟨fun u hu => ?_, fun u hu _ => ?_, by rw [hflow], by rw [hflow], hkeeps⟩
  · rw [hword, if_pos hu]
  · rw [hword, if_neg (Nat.not_lt.mpr hu)]

/-! ## LEG_LOSS (R88) -/

/-- A leg that last admitted a packet in the frame before was heard in it; one that never did was not. -/
theorem heardBefore_last {fr : Nat} (h : 0 < fr) (before : Option Nat) : heardBefore (some (fr - 1)) before fr = true := by
  simp [heardBefore, Nat.pos_iff_ne_zero.mp h]

theorem heardBefore_never (before : Option Nat) (fr : Nat) : heardBefore none before fr = false := by simp [heardBefore]

/-- Both legs of a pair are enabled, and leg A alone was heard in the frame before. -/
theorem legLoss_of_silent {s : State} {y i : Nat} {q : Clock} (hpos : s.toPhase 2 0 = some { s with clk := q })
    (hA : s.ingFlows.any (fun f => ftType (s.ftw f 0) == y && ftTarget (s.ftw f 1) == i && ftLeg (s.ftw f 0) == 0) = true)
    (hB : s.ingFlows.any (fun f => ftType (s.ftw f 0) == y && ftTarget (s.ftw f 1) == i && ftLeg (s.ftw f 0) == 1) = true)
    (hlegA : (s.merge y i).legA = some (q.vpos / q.fu - 1)) (hlegB : (s.merge y i).legB = none) (hframe : 0 < q.vpos / q.fu) :
    s.legLoss y i = (State.setF { s with clk := q } F.ING_FLAGS_LEG_LOSS 1).raise 0x0506 i := by
  have hpair : [0, 1].all (fun leg => s.ingFlows.any (fun f => ftType (s.ftw f 0) == y && ftTarget (s.ftw f 1) == i && ftLeg (s.ftw f 0) == leg)) = true := by
    simp only [List.all_cons, List.all_nil, hA, hB, Bool.and_self]
  have hloss : (heardBefore (s.merge y i).legA (s.merge y i).legA1 (q.vpos / q.fu) != heardBefore (s.merge y i).legB (s.merge y i).legB1 (q.vpos / q.fu)) =
      true := by
    rw [hlegA, hlegB, heardBefore_last hframe, heardBefore_never]
    rfl
  rw [State.legLoss, hpos]
  exact if_pos (Bool.and_eq_true_iff.mpr ⟨hpair, hloss⟩)

/-- LEG_LOSS, of leg B. -/
theorem legLoss_completes {s : State} {y i : Nat} {q : Clock} (hi : i < 64) (hpos : s.begin.toPhase 2 0 = some { s.begin with clk := q })
    (hA : s.ingFlows.any (fun f => ftType (s.ftw f 0) == y && ftTarget (s.ftw f 1) == i && ftLeg (s.ftw f 0) == 0) = true)
    (hB : s.ingFlows.any (fun f => ftType (s.ftw f 0) == y && ftTarget (s.ftw f 1) == i && ftLeg (s.ftw f 0) == 1) = true)
    (hlegA : (s.merge y i).legA = some (q.vpos / q.fu - 1)) (hlegB : (s.merge y i).legB = none) (hframe : 0 < q.vpos / q.fu) :
    Completes (.legLoss y i) s fun t => t.on F.ING_FLAGS_LEG_LOSS = true ∧ t.clk = q ∧ Logged [⟨0x0506, i⟩] s t ∧ Keeps [R.ING_FLAGS] [] [.clk, .log] s t := by
  have hop := legLoss_of_silent (s := s.begin) hpos hA hB hlegA hlegB hframe
  have hf := ((frame_clk s.begin q).trans (frame_setF _ F.ING_FLAGS_LEG_LOSS 1)).trans (frame_raise _ 0x0506 i)
  refine completes_of_frame (op := (·.idx i 64 (·.legLoss y i))) rfl ((idx_of_lt hi).trans hop) (hf.mono (by simp) (by simp) (by simp)) (.inr (by simp))
    fun hkeeps => ⟨?_, rfl, finish_logged rfl ⟨rfl, rfl⟩ (by simp) (by simp; omega), hkeeps⟩
  rw [on_finish, on_raise]
  exact on_setF_same _ F.ING_FLAGS_LEG_LOSS (by decide) rfl

/-- Settles O12, clause by clause. -/
theorem ingestFlowCommandsComplete : Obligations.IngestFlowCommandsComplete := by
  unfold Obligations.IngestFlowCommandsComplete
  exact ⟨fun _ _ _ _ _ _ _ _ _ _ => ingestPacketReceive_completes, fun _ _ => ingFtRead_completes, fun _ _ => ingFtWrite_completes,
    fun _ _ _ _ => legLoss_completes⟩

end Sys2Proof.Machine
end

section
/-!
PROOFS. How an input and a decode context are enabled (R89, R97, R302): the word that a write of EN leaves in a control register, and what the checks of an
enable depend on.
-/

namespace Sys2Proof.Machine

/-! ## A control register with EN set -/

/-- The field EN of a control register. -/
def enField : FieldDef := ⟨0, 0, .rw, false, .any⟩

/-- Register `a`, with the fields `fs`, as it stands, with EN set. -/
def State.enWord (s : State) (a : Nat) (fs : List FieldDef) : Word :=
  BitVec.ofNat 32 (mergeWord true fs (s.rdn a) (BitVec.ofNat 32 (setBits (s.rdn a) 0 0 1)).toNat)

/-- Register `a` takes that word. -/
def State.enabledAt (s : State) (a : Nat) (fs : List FieldDef) : State := s.wr a (s.enWord a fs)

/-- Two states that differ at most in register `a`, whose fields `fs` are the same. -/
def State.AlikeAt (s t : State) (a : Nat) (fs : List FieldDef) : Prop :=
  Frame [a] [] [] s t ∧ ∀ x ∈ fs, t.f ⟨a, x.hi, x.lo⟩ = s.f ⟨a, x.hi, x.lo⟩

/-- The fields of a control register beside EN: writable, and above it in the word. -/
def restOk (r : List FieldDef) : Prop := fieldsApart (enField :: r) = true ∧ ∀ x ∈ r, 0 < x.lo ∧ x.hi < 32 ∧ x.acc = .rw

section
variable {s : State} {a : Nat} {r : List FieldDef}

theorem enWord_en (hr : restOk r) : bitsOf (s.enWord a (enField :: r)).toNat 0 0 = 1 := by
  obtain ⟨hapart, -⟩ := hr
  exact ctl_act_same _ _ 0 0 1 enField (by simp) ⟨rfl, rfl⟩ (by decide) hapart (.inr (.inl rfl))

theorem enWord_other (hr : restOk r) {x : FieldDef} (hx : x ∈ r) : bitsOf (s.enWord a (enField :: r)).toNat x.hi x.lo = s.f ⟨a, x.hi, x.lo⟩ := by
  obtain ⟨hapart, hrest⟩ := hr
  obtain ⟨hlo, hhi, hrw⟩ := hrest x hx
  exact ctl_act_other _ _ 0 0 1 x (List.mem_cons_of_mem _ hx) (by decide) hhi (.inl hlo) hapart (.inr (.inl hrw))

theorem on_en_enabledAt (hr : restOk r) : (s.enabledAt a (enField :: r)).on ⟨a, 0, 0⟩ = true := by
  rw [State.on, State.f, State.enabledAt, rdn_wr_same, enWord_en hr]
  rfl

theorem alikeAt_enabledAt (hr : restOk r) : s.AlikeAt (s.enabledAt a (enField :: r)) a r := by
  refine ⟨frame_wr s a _, fun x hx => ?_⟩
  rw [State.f, State.enabledAt, rdn_wr_same, enWord_other hr hx]

theorem alikeAt_setF_en (hr : restOk r) : s.AlikeAt (s.setF ⟨a, 0, 0⟩ 1) a r := by
  obtain ⟨-, hrest⟩ := hr
  refine ⟨frame_setF s ⟨a, 0, 0⟩ 1, fun x hx => ?_⟩
  obtain ⟨hlo, hhi, -⟩ := hrest x hx
  exact f_setF_bits (x := ⟨a, 0, 0⟩) (y := ⟨a, x.hi, x.lo⟩) s 1 rfl (Nat.le_refl 0) hhi (.inl hlo)

/-- The word written and the register with EN alone set agree in every field: they differ in reserved bits at most. -/
theorem alikeAt_setF_enabledAt (hr : restOk r) : (s.setF ⟨a, 0, 0⟩ 1).AlikeAt (s.enabledAt a (enField :: r)) a (enField :: r) := by
  obtain ⟨hframe, hset⟩ := alikeAt_setF_en (s := s) (a := a) hr
  obtain ⟨hframe', hword⟩ := alikeAt_enabledAt (s := s) (a := a) hr
  refine ⟨⟨fun b hb => ?_, fun _ _ => rfl, rfl, rfl, fun p _ => by cases p <;> rfl⟩, fun x hx => ?_⟩
  · rw [hframe'.rd_eq hb, hframe.rd_eq hb]
  · rcases List.mem_cons.mp hx with rfl | hx
    · have hset : (s.setF ⟨a, 0, 0⟩ 1).f ⟨a, 0, 0⟩ = 1 := f_setF_same s ⟨a, 0, 0⟩ 1 (Nat.zero_lt_succ 31)
      exact (beq_iff_eq.mp (on_en_enabledAt hr)).trans hset.symm
    · rw [hword x hx, hset x hx]

end

/-- A demand fits a pool that is as it was. -/
theorem Frame.poolFits_eq {regs fns : List Nat} {parts : List Part} {s t : State} (h : Frame regs fns parts s t) {st : Nat}
    (hneed : R.HBM_S_POOL_NEED st ∉ regs) (hsize : R.HBM_S_POOL st ∉ regs) (mib : Nat) : t.poolFits st mib = s.poolFits st mib := by
  rw [State.poolFits, State.poolFits, h.rdn_eq hneed, h.f_eq (y := F.HBM_S_POOL_SIZE st) hsize]

/-! ## INPUT_ENABLE: the checks (R89) -/

/-- The fields of ING_IN_i_CTL beside EN: SRC, CH, DELAY, POLICY, CLIP_LAYER, CONC_SUB, FMT, DEPTH, BPM, DEC_CTX, STACK. -/
def inCtlRest : List FieldDef :=
  [⟨1, 1, .rw, false, .any⟩, ⟨6, 2, .rw, false, .any⟩, ⟨9, 7, .rw, false, .any⟩, ⟨11, 10, .rw, true, .range 0 2⟩, ⟨12, 12, .rw, true, .any⟩,
    ⟨13, 13, .rw, true, .any⟩, ⟨15, 14, .rw, false, .any⟩, ⟨17, 16, .rw, false, .range 0 2⟩, ⟨18, 18, .rw, false, .any⟩, ⟨22, 19, .rw, false, .any⟩,
    ⟨24, 23, .rw, false, .any⟩]

theorem restOk_inCtlRest : restOk inCtlRest := by
  unfold restOk
  decide

/-- Two states that differ in EN of input `i` at most. -/
def State.InputAlike (s t : State) (i : Nat) : Prop := s.AlikeAt t (R.ING_IN_CTL i) inCtlRest

section
variable {s t : State} {i : Nat}

/-- A field of ING_IN_i_CTL beside EN. -/
theorem State.InputAlike.ctl_eq (h : s.InputAlike t i) (x : FieldDef) (hx : x ∈ inCtlRest) :
    t.f ⟨R.ING_IN_CTL i, x.hi, x.lo⟩ = s.f ⟨R.ING_IN_CTL i, x.hi, x.lo⟩ := by
  obtain ⟨-, hfields⟩ := h
  exact hfields x hx

theorem State.InputAlike.ch_eq (h : s.InputAlike t i) : t.f (F.ING_IN_CTL_CH i) = s.f (F.ING_IN_CTL_CH i) :=
  h.ctl_eq ⟨6, 2, .rw, false, .any⟩ (by decide)

theorem State.InputAlike.src_eq (h : s.InputAlike t i) : t.on (F.ING_IN_CTL_SRC i) = s.on (F.ING_IN_CTL_SRC i) := by
  rw [State.on, State.on, h.ctl_eq ⟨1, 1, .rw, false, .any⟩ (by decide)]

theorem State.InputAlike.fmt_eq (h : s.InputAlike t i) : t.f (F.ING_IN_CTL_FMT i) = s.f (F.ING_IN_CTL_FMT i) :=
  h.ctl_eq ⟨15, 14, .rw, false, .any⟩ (by decide)

theorem State.InputAlike.depth_eq (h : s.InputAlike t i) : t.f (F.ING_IN_CTL_DEPTH i) = s.f (F.ING_IN_CTL_DEPTH i) :=
  h.ctl_eq ⟨17, 16, .rw, false, .range 0 2⟩ (by decide)

theorem State.InputAlike.stack_eq (h : s.InputAlike t i) : t.f (F.ING_IN_CTL_STACK i) = s.f (F.ING_IN_CTL_STACK i) :=
  h.ctl_eq ⟨24, 23, .rw, false, .any⟩ (by decide)

/-- Every register but ING_IN_i_CTL. -/
theorem State.InputAlike.rdn_eq (h : s.InputAlike t i) {a : Nat} (ha : a ≠ R.ING_IN_CTL i) : t.rdn a = s.rdn a := by
  obtain ⟨hframe, -⟩ := h
  exact hframe.rdn_eq (by simpa using ha)

theorem State.InputAlike.f_eq (h : s.InputAlike t i) {y : Fld} (hy : y.addr ≠ R.ING_IN_CTL i) : t.f y = s.f y := by
  rw [State.f, State.f, h.rdn_eq hy]

theorem State.InputAlike.clk_eq (h : s.InputAlike t i) : t.clk = s.clk := by
  obtain ⟨hframe, -⟩ := h
  exact hframe.part (p := .clk) (by decide)

theorem State.InputAlike.ing_eq (h : s.InputAlike t i) : t.ing = s.ing := by
  obtain ⟨hframe, -⟩ := h
  exact hframe.part (p := .ing) (by decide)

/-- The rate of a channel lies in another block. -/
theorem encRate_ne_inCtl (i n : Nat) : R.ENC_CH_RATE n ≠ R.ING_IN_CTL i := by
  simp only [R.ENC_CH_RATE, R.ING_IN_CTL]
  omega

/-- EN is no part of the line unit. -/
theorem State.InputAlike.inputUnit_eq (h : s.InputAlike t i) : t.inputUnit i = s.inputUnit i := by
  have hlines : t.f (F.ING_IN_LINES_L_IN i) = s.f (F.ING_IN_LINES_L_IN i) := h.f_eq (by simp)
  have hheight : t.f (F.ING_IN_SIZE_H i) = s.f (F.ING_IN_SIZE_H i) := h.f_eq (by simp)
  have hnum (n : Nat) : t.f (F.ENC_CH_RATE_NUM n) = s.f (F.ENC_CH_RATE_NUM n) := h.f_eq (encRate_ne_inCtl i n)
  have hden (n : Nat) : t.f (F.ENC_CH_RATE_DEN n) = s.f (F.ENC_CH_RATE_DEN n) := h.f_eq (encRate_ne_inCtl i n)
  have hcadNum : t.rdn R.MER_CAD_NUM = s.rdn R.MER_CAD_NUM := h.rdn_eq (by simp only [R.MER_CAD_NUM, R.ING_IN_CTL]; omega)
  have hcadDen : t.rdn R.MER_CAD_DEN = s.rdn R.MER_CAD_DEN := h.rdn_eq (by simp only [R.MER_CAD_DEN, R.ING_IN_CTL]; omega)
  simp only [State.inputUnit, h.ch_eq, hlines, hheight, hnum, hden, hcadNum, hcadDen, h.clk_eq]

/-- EN is no part of the demand on the pool. -/
theorem State.InputAlike.inputDemand_eq (h : s.InputAlike t i) : t.inputDemand i = s.inputDemand i := by
  have hwidth : t.f (F.ING_IN_SIZE_W i) = s.f (F.ING_IN_SIZE_W i) := h.f_eq (by simp)
  have hheight : t.f (F.ING_IN_SIZE_H i) = s.f (F.ING_IN_SIZE_H i) := h.f_eq (by simp)
  have hflows : t.ingFlows = s.ingFlows := by rw [State.ingFlows, State.ingFlows, h.ing_eq]
  have hftw : t.ftw = s.ftw := by
    funext f w
    rw [State.ftw, State.ftw, h.ing_eq]
  simp only [State.inputDemand, hflows, hftw, hwidth, hheight, h.fmt_eq, h.depth_eq, h.src_eq]

/-- EN is no part of the divisor of a decoded input. -/
theorem State.InputAlike.ctxDivisor_eq (h : s.InputAlike t i) : t.ctxDivisor i = s.ctxDivisor i := by
  have hctx : t.f (F.ING_IN_CTL_DEC_CTX i) = s.f (F.ING_IN_CTL_DEC_CTX i) := h.ctl_eq ⟨22, 19, .rw, false, .any⟩ (by decide)
  have hrate (x : Nat) : R.DEC_CTX_RATE x ≠ R.ING_IN_CTL i := by
    simp only [R.DEC_CTX_RATE, R.ING_IN_CTL]
    omega
  have hnum (n : Nat) : t.f (F.ENC_CH_RATE_NUM n) = s.f (F.ENC_CH_RATE_NUM n) := h.f_eq (encRate_ne_inCtl i n)
  have hden (n : Nat) : t.f (F.ENC_CH_RATE_DEN n) = s.f (F.ENC_CH_RATE_DEN n) := h.f_eq (encRate_ne_inCtl i n)
  have hctxNum (x : Nat) : t.f (F.DEC_CTX_RATE_NUM x) = s.f (F.DEC_CTX_RATE_NUM x) := h.f_eq (hrate x)
  have hctxDen (x : Nat) : t.f (F.DEC_CTX_RATE_DEN x) = s.f (F.DEC_CTX_RATE_DEN x) := h.f_eq (hrate x)
  simp only [State.ctxDivisor, h.ch_eq, hctx, hnum, hden, hctxNum, hctxDen]

/-- EN is no part of the checks of an enable. -/
theorem State.InputAlike.inputOk_eq (h : s.InputAlike t i) : t.inputOk i = s.inputOk i := by
  have hactive (g : Nat) : t.active g = s.active g := h.1.active_eq (by simp)
  have hwidth : t.f (F.ING_IN_SIZE_W i) = s.f (F.ING_IN_SIZE_W i) := h.f_eq (by simp)
  have hheight : t.f (F.ING_IN_SIZE_H i) = s.f (F.ING_IN_SIZE_H i) := h.f_eq (by simp)
  have horigin : t.rdn (R.ING_IN_ORIGIN i) = s.rdn (R.ING_IN_ORIGIN i) := h.rdn_eq (by simp)
  have hthr : t.f (F.ING_IN_SUBST_PIC_THR i) = s.f (F.ING_IN_SUBST_PIC_THR i) := h.f_eq (by simp)
  have hpolicy : t.f (F.ING_IN_CTL_POLICY i) = s.f (F.ING_IN_CTL_POLICY i) := h.ctl_eq ⟨11, 10, .rw, true, .range 0 2⟩ (by decide)
  have hbpm : t.on (F.ING_IN_CTL_BPM i) = s.on (F.ING_IN_CTL_BPM i) := by
    rw [State.on, State.on, h.ctl_eq ⟨18, 18, .rw, false, .any⟩ (by decide)]
  have hpool (st mib : Nat) : t.poolFits st mib = s.poolFits st mib :=
    h.1.poolFits_eq (by simp only [List.mem_singleton, R.HBM_S_POOL_NEED, R.ING_IN_CTL]; omega)
      (by simp only [List.mem_singleton, R.HBM_S_POOL, R.ING_IN_CTL]; omega) mib
  simp only [State.inputOk, hwidth, hheight, h.src_eq, h.fmt_eq, h.inputUnit_eq, hactive, h.ch_eq, horigin, h.clk_eq, hpolicy, h.depth_eq, hthr, hbpm,
    h.ctxDivisor_eq, hpool, h.stack_eq, h.inputDemand_eq]

end

/-- A decoded input that may be enabled does not pack its samples (R97). -/
theorem bpm_of_inputOk {s : State} {i : Nat} (h : s.inputOk i = true) : ¬(s.f (F.ING_IN_CTL_BPM i) = 1 ∧ s.f (F.ING_IN_CTL_SRC i) = 1) := by
  rintro ⟨hbpm, hsrc⟩
  simp [State.inputOk, State.on, hbpm, hsrc] at h

/-- An input that may be enabled has a demand that fits its pool. -/
theorem poolFits_of_inputOk {s : State} {i : Nat} (h : s.inputOk i = true) : s.poolFits (s.f (F.ING_IN_CTL_STACK i)) (s.inputDemand i) = true := by
  simp only [State.inputOk, Bool.and_eq_true] at h
  obtain ⟨-, hpool⟩ := h
  exact hpool

/-! ## INPUT_ENABLE: the effect (R89, R302, R352) -/

/-- ING_IN_i_CTL is a control register whose unit has a rule of its own. -/
theorem inCtl_row {i : Nat} (hi : i < 64) : regDef (R.ING_IN_CTL i) = some ⟨0x51000, [(64, 64)], 0x0, false, enField :: inCtlRest⟩ := by
  interval_cases i <;> rfl

theorem inCtl_narrow : ∀ i, i < 64 → wideOf wideWrites (R.ING_IN_CTL i) = none := by decide +kernel

theorem inCtl_noLat : ∀ i, i < 64 → latInput (R.ING_IN_CTL i) = false := by decide

theorem blockOf_inCtl {i : Nat} (hi : i < 64) : blockOf (R.ING_IN_CTL i) = 5 := by
  have hb : R.ING_IN_CTL i / 0x10000 = 5 := by simp only [R.ING_IN_CTL]; omega
  simp [blockOf, hb]

theorem unitReg_inCtl (s : State) {i : Nat} (hi : i < 64) (v raw : Word) : s.unitReg .pcie (R.ING_IN_CTL i) v raw = some (s.inputWrite i v) := by
  have hctl : R.ING_IN_CTL i ≠ R.ING_CTL := by simp only [R.ING_IN_CTL, R.ING_CTL]; omega
  have hcmd : R.ING_IN_CTL i ≠ R.ING_FT_CMD := by simp only [R.ING_IN_CTL, R.ING_FT_CMD]; omega
  have hrange : R.ING_IN_CTL 0 ≤ R.ING_IN_CTL i ∧ R.ING_IN_CTL i < R.ING_IN_CTL 64 := by simp only [R.ING_IN_CTL]; omega
  have hidx : (R.ING_IN_CTL i - R.ING_IN_CTL 0) / 0x40 = i := by simp only [R.ING_IN_CTL]; omega
  have hofs : (R.ING_IN_CTL i - R.ING_IN_CTL 0) % 0x40 = 0 := by simp only [R.ING_IN_CTL]; omega
  simp only [State.unitReg, blockOf_inCtl hi, State.ingReg, if_neg hctl, if_neg hcmd, if_pos hrange, hidx, hofs]

theorem oldWord_inCtl (s : State) {i : Nat} (hi : i < 64) : s.oldWord .pcie (R.ING_IN_CTL i) = s.rdn (R.ING_IN_CTL i) := by
  have hwin : R.ING_IN_CTL i ≠ R.GLB_WIN_CTL := by simp only [R.ING_IN_CTL, R.GLB_WIN_CTL]; omega
  simp only [State.oldWord, if_neg hwin, State.liveWord, blockOf_inCtl hi]

/-- A write of EN to ING_IN_i_CTL reaches the input. -/
theorem ctlWrite_inputEn {s : State} {i : Nat} (hd : s.dark = false) (hi : i < 64) :
    s.ctlWrite (F.ING_IN_CTL_EN i) 1 = s.inputWrite i (s.enWord (R.ING_IN_CTL i) (enField :: inCtlRest)) := by
  refine ctlWrite_unit hd (by simp only [R.ING_IN_CTL]; omega) (inCtl_row hi) rfl ?_ (inCtl_narrow i hi) (inCtl_noLat i hi) ?_
  · rw [oldWord_inCtl s hi]
    exact fieldsOk_ctl _ 0 0 1 (by decide) (by decide)
  · rw [unitReg_inCtl s hi, oldWord_inCtl s hi]
    rfl

/-- Input `i`, enabled at `v`, waits for its first frame, with a line unit, an untrained threshold, and its demand on a pool. -/
def State.inputWaits (s : State) (i v unit st mib : Nat) : State :=
  (((s.setInp i { waiting := true, enV := some v }).jitReset i).wrn (R.ING_IN_UNIT i) unit).poolTake (1000 + i) st mib

/-- An input that is off, and passes the checks, waits. -/
theorem inputWrite_enable {s : State} {i : Nat} (hoff : s.on (F.ING_IN_CTL_EN i) = false) (hok : s.inputOk i = true) :
    s.inputWrite i (s.enWord (R.ING_IN_CTL i) (enField :: inCtlRest)) = (s.enabledAt (R.ING_IN_CTL i) (enField :: inCtlRest)).inputWaits i s.clk.vpos
      ((s.inputUnit i).getD 0) (s.f (F.ING_IN_CTL_STACK i)) (s.inputDemand i) := by
  have halike : s.InputAlike (s.enabledAt (R.ING_IN_CTL i) (enField :: inCtlRest)) i := alikeAt_enabledAt restOk_inCtlRest
  have hen := enWord_en (s := s) (a := R.ING_IN_CTL i) restOk_inCtlRest
  have hsrc : bitsOf (s.enWord (R.ING_IN_CTL i) (enField :: inCtlRest)).toNat 1 1 = s.f (F.ING_IN_CTL_SRC i) :=
    enWord_other (x := ⟨1, 1, .rw, false, .any⟩) restOk_inCtlRest (by decide)
  have hbpm : bitsOf (s.enWord (R.ING_IN_CTL i) (enField :: inCtlRest)).toNat 18 18 = s.f (F.ING_IN_CTL_BPM i) :=
    enWord_other (x := ⟨18, 18, .rw, false, .any⟩) restOk_inCtlRest (by decide)
  have hpass := halike.inputOk_eq.trans hok
  have hunit := halike.inputUnit_eq
  have hdemand := halike.inputDemand_eq
  have hstack := halike.stack_eq
  rw [State.enabledAt] at hpass hunit hdemand hstack
  simp only [State.inputWrite, hsrc, hbpm, if_neg (bpm_of_inputOk hok), hoff, hen, hpass, hunit, hdemand, hstack, Bool.false_and, Bool.false_eq_true, if_false,
    beq_self_eq_true, if_true, State.enabledAt, State.inputWaits]

theorem frame_jitReset (s : State) (i : Nat) : Frame [R.CAL_JIT_THR i] [] [.cal] s (s.jitReset i) := (frame_cal s _).trans (frame_wrn _ _ 0)

/-- What an enabled input changes. -/
theorem frame_inputWaits (s : State) (i v unit st mib : Nat) :
    Frame [R.CAL_JIT_THR i, R.ING_IN_UNIT i, R.HBM_S_POOL_NEED st] [] [.ing, .cal, .hbm] s (s.inputWaits i v unit st mib) :=
  (((frame_setInp s i _).trans (frame_jitReset _ i)).trans (frame_wrn _ (R.ING_IN_UNIT i) unit)).trans (frame_poolTake _ (1000 + i) st mib)

theorem inp_inputWaits (s : State) (i v unit st mib : Nat) : (s.inputWaits i v unit st mib).inp i = { waiting := true, enV := some v } :=
  inp_setInp_same s i _

theorem inputWaits_evNow (s : State) (i v unit st mib : Nat) : (s.inputWaits i v unit st mib).evNow = s.evNow := rfl

/-- The registers that an enabled input changes. -/
theorem rdn_inputWaits {s : State} {i v unit st mib : Nat} (hi : i < 64) (hfits : s.poolFits st mib = true) :
    (s.inputWaits i v unit st mib).rdn (R.ING_IN_UNIT i) = unit % 2 ^ 32 ∧ (s.inputWaits i v unit st mib).rdn (R.CAL_JIT_THR i) = 0 ∧
      (s.inputWaits i v unit st mib).rdn (R.HBM_S_POOL_NEED st) = s.rdn (R.HBM_S_POOL_NEED st) + mib := by
  have hbefore := ((frame_setInp s i { waiting := true, enV := some v }).trans (frame_jitReset _ i)).trans (frame_wrn _ (R.ING_IN_UNIT i) unit)
  have htake := frame_poolTake (((s.setInp i { waiting := true, enV := some v }).jitReset i).wrn (R.ING_IN_UNIT i) unit) (1000 + i) st mib
  have hneed : R.HBM_S_POOL_NEED st ∉ [] ++ [R.CAL_JIT_THR i] ++ [R.ING_IN_UNIT i] := by
    simp [R.HBM_S_POOL_NEED, R.CAL_JIT_THR, R.ING_IN_UNIT]
    omega
  have hsize : R.HBM_S_POOL st ∉ [] ++ [R.CAL_JIT_THR i] ++ [R.ING_IN_UNIT i] := by
    simp [R.HBM_S_POOL, R.CAL_JIT_THR, R.ING_IN_UNIT]
    omega
  have hunit : R.ING_IN_UNIT i ∉ [R.HBM_S_POOL_NEED st] := by
    simp only [List.mem_singleton, R.ING_IN_UNIT, R.HBM_S_POOL_NEED]
    omega
  have hthr : R.CAL_JIT_THR i ∉ [R.HBM_S_POOL_NEED st] := by
    simp only [List.mem_singleton, R.CAL_JIT_THR, R.HBM_S_POOL_NEED]
    omega
  have hthr' : R.CAL_JIT_THR i ≠ R.ING_IN_UNIT i := by
    simp only [R.CAL_JIT_THR, R.ING_IN_UNIT]
    omega
  refine ⟨(htake.rdn_eq hunit).trans (rdn_wrn_same _ _ unit), (htake.rdn_eq hthr).trans ((rdn_wrn_ne _ unit hthr').trans (rdn_wrn_same _ _ 0)), ?_⟩
  exact (rdn_poolTake_of_fits (1000 + i) ((hbefore.poolFits_eq hneed hsize mib).trans hfits)).trans (congrArg (· + mib) (hbefore.rdn_eq hneed))

/-- Every other register is as it was. -/
theorem on_en_inputWaits (s : State) {i : Nat} (v unit st mib : Nat) (hi : i < 64) :
    (s.inputWaits i v unit st mib).on (F.ING_IN_CTL_EN i) = s.on (F.ING_IN_CTL_EN i) := by
  refine (frame_inputWaits s i v unit st mib).on_eq ?_
  simp [R.ING_IN_CTL, R.CAL_JIT_THR, R.ING_IN_UNIT, R.HBM_S_POOL_NEED]
  omega

/-- A pool's registers lie in another block than the control registers of ingest and decode. -/
theorem pool_notMem {a : Nat} (ha : a < 0x100000) (st : Nat) : R.HBM_S_POOL_NEED st ∉ [a] ∧ R.HBM_S_POOL st ∉ [a] := by
  simp only [List.mem_singleton, R.HBM_S_POOL_NEED, R.HBM_S_POOL]
  omega

theorem inputUnit_begin (s : State) (i : Nat) : s.begin.inputUnit i = s.inputUnit i := rfl
theorem inputDemand_begin (s : State) (i : Nat) : s.begin.inputDemand i = s.inputDemand i := rfl
theorem inputOk_begin (s : State) (i : Nat) : s.begin.inputOk i = s.inputOk i := rfl

/-- INPUT_ENABLE, of an input that is off. -/
theorem inputEnable_completes {s : State} {i : Nat} (hd : s.dark = false) (hi : i < 64) (hoff : s.on (F.ING_IN_CTL_EN i) = false)
    (hok : (s.setF (F.ING_IN_CTL_EN i) 1).inputOk i = true) :
    Completes (.inputEnable i) s fun t => t.on (F.ING_IN_CTL_EN i) = true ∧ t.inp i = { waiting := true, enV := some s.clk.vpos } ∧
      t.rdn (R.ING_IN_UNIT i) = (s.inputUnit i).getD 0 % 2 ^ 32 ∧ t.rdn (R.CAL_JIT_THR i) = 0 ∧
      t.rdn (R.HBM_S_POOL_NEED (s.f (F.ING_IN_CTL_STACK i))) = s.rdn (R.HBM_S_POOL_NEED (s.f (F.ING_IN_CTL_STACK i))) + s.inputDemand i ∧
      Keeps [R.ING_IN_CTL i, R.ING_IN_UNIT i, R.CAL_JIT_THR i, R.HBM_S_POOL_NEED (s.f (F.ING_IN_CTL_STACK i))] [] [.ing, .cal, .hbm] s t := by
  have hset : s.InputAlike (s.setF (F.ING_IN_CTL_EN i) 1) i := alikeAt_setF_en restOk_inCtlRest
  have hok' : s.begin.inputOk i = true := (inputOk_begin s i).trans (hset.inputOk_eq.symm.trans hok)
  have hop := (ctlWrite_inputEn (s := s.begin) hd hi).trans (inputWrite_enable (s := s.begin) hoff hok')
  have hfits := poolFits_of_inputOk hok'
  rw [inputUnit_begin, inputDemand_begin, f_begin, begin_clk] at hop
  rw [inputDemand_begin, f_begin] at hfits
  have hword : Frame [R.ING_IN_CTL i] [] [] s.begin (s.begin.enabledAt (R.ING_IN_CTL i) (enField :: inCtlRest)) := frame_wr s.begin _ _
  have hwaits := frame_inputWaits (s.begin.enabledAt (R.ING_IN_CTL i) (enField :: inCtlRest)) i s.clk.vpos ((s.inputUnit i).getD 0)
    (s.f (F.ING_IN_CTL_STACK i)) (s.inputDemand i)
  obtain ⟨hneed, hsize⟩ := pool_notMem (a := R.ING_IN_CTL i) (by simp only [R.ING_IN_CTL]; omega) (s.f (F.ING_IN_CTL_STACK i))
  obtain ⟨hunit, hthr, hpool⟩ := rdn_inputWaits (s := s.begin.enabledAt (R.ING_IN_CTL i) (enField :: inCtlRest)) (v := s.clk.vpos)
    (unit := (s.inputUnit i).getD 0) hi ((hword.poolFits_eq hneed hsize _).trans hfits)
  refine completes_of_frame (op := (·.idx i 64 (·.ctlWrite (F.ING_IN_CTL_EN i) 1))) rfl ((idx_of_lt hi).trans hop)
    ((hword.trans hwaits).mono (by simp) (by simp) (by simp)) (.inl (inputWaits_evNow _ _ _ _ _ _)) fun hkeeps =>
      ⟨?_, (inp_finish _ i).trans (inp_inputWaits _ i _ _ _ _), (rdn_finish _ _).trans hunit, (rdn_finish _ _).trans hthr, ?_, hkeeps⟩
  · rw [on_finish, on_en_inputWaits _ _ _ _ _ hi]
    exact on_en_enabledAt restOk_inCtlRest
  · rw [rdn_finish, hpool, hword.rdn_eq hneed, rdn_begin]

/-! ## DECODE_CONTEXT_ENABLE: the checks (R97) -/

/-- The fields of DEC_CTX_x_CTL beside EN: CODEC, TS, ENGINE, STACK. -/
def ctxCtlRest : List FieldDef := [⟨1, 1, .rw, false, .any⟩, ⟨2, 2, .rw, false, .any⟩, ⟨4, 3, .rw, false, .any⟩, ⟨6, 5, .rw, false, .any⟩]

theorem restOk_ctxCtlRest : restOk ctxCtlRest := by
  unfold restOk
  decide

/-- Two states that differ at most in reserved bits of DEC_CTX_x_CTL. -/
def State.CtxAlike (s t : State) (x : Nat) : Prop := s.AlikeAt t (R.DEC_CTX_CTL x) (enField :: ctxCtlRest)

section
variable {s t : State} {x : Nat}

theorem State.CtxAlike.rdn_eq (h : s.CtxAlike t x) {a : Nat} (ha : a ≠ R.DEC_CTX_CTL x) : t.rdn a = s.rdn a := by
  obtain ⟨hframe, -⟩ := h
  exact hframe.rdn_eq (by simpa using ha)

theorem State.CtxAlike.f_eq (h : s.CtxAlike t x) {y : Fld} (hy : y.addr ≠ R.DEC_CTX_CTL x) : t.f y = s.f y := by
  rw [State.f, State.f, h.rdn_eq hy]

/-- Every field of a control register of any context. -/
theorem State.CtxAlike.ctl_eq (h : s.CtxAlike t x) (y : Nat) (d : FieldDef) (hd : d ∈ enField :: ctxCtlRest) :
    t.f ⟨R.DEC_CTX_CTL y, d.hi, d.lo⟩ = s.f ⟨R.DEC_CTX_CTL y, d.hi, d.lo⟩ := by
  by_cases hy : y = x
  · obtain ⟨-, hfields⟩ := h
    rw [hy, hfields d hd]
  · exact h.f_eq (by simp only [R.DEC_CTX_CTL]; omega)

theorem State.CtxAlike.engineLoad_eq (h : s.CtxAlike t x) (e : Nat) : t.engineLoad e = s.engineLoad e := by
  have hen (y : Nat) : t.on (F.DEC_CTX_CTL_EN y) = s.on (F.DEC_CTX_CTL_EN y) := by
    have hf : t.f (F.DEC_CTX_CTL_EN y) = s.f (F.DEC_CTX_CTL_EN y) := h.ctl_eq y enField (by simp)
    rw [State.on, State.on, hf]
  have hengine (y : Nat) : t.f (F.DEC_CTX_CTL_ENGINE y) = s.f (F.DEC_CTX_CTL_ENGINE y) := h.ctl_eq y ⟨4, 3, .rw, false, .any⟩ (by decide)
  have hsize (y : Nat) : R.DEC_CTX_SIZE y ≠ R.DEC_CTX_CTL x := by simp only [R.DEC_CTX_SIZE, R.DEC_CTX_CTL]; omega
  have hrate (y : Nat) : R.DEC_CTX_RATE y ≠ R.DEC_CTX_CTL x := by simp only [R.DEC_CTX_RATE, R.DEC_CTX_CTL]; omega
  have hload (y : Nat) : t.ctxLoad y = s.ctxLoad y := by
    rw [State.ctxLoad, State.ctxLoad, h.f_eq (y := F.DEC_CTX_SIZE_W y) (hsize y), h.f_eq (y := F.DEC_CTX_SIZE_H y) (hsize y),
      h.f_eq (y := F.DEC_CTX_RATE_NUM y) (hrate y), h.f_eq (y := F.DEC_CTX_RATE_DEN y) (hrate y)]
  simp only [State.engineLoad, hen, hengine, hload]

theorem State.CtxAlike.ctxType_eq (h : s.CtxAlike t x) : t.ctxType x = s.ctxType x := by
  have hts : t.on (F.DEC_CTX_CTL_TS x) = s.on (F.DEC_CTX_CTL_TS x) := by
    rw [State.on, State.on, h.ctl_eq x ⟨2, 2, .rw, false, .any⟩ (by decide)]
  have hcodec : t.f (F.DEC_CTX_CTL_CODEC x) = s.f (F.DEC_CTX_CTL_CODEC x) := h.ctl_eq x ⟨1, 1, .rw, false, .any⟩ (by decide)
  simp only [State.ctxType, hts, hcodec]

/-- Reserved bits are no part of the checks of an enable. -/
theorem State.CtxAlike.ctxOk_eq (h : s.CtxAlike t x) (hx : x < 16) : t.ctxOk x = s.ctxOk x := by
  have hing : t.ing = s.ing := h.1.part (p := .ing) (by decide)
  have hflows : t.ingFlows = s.ingFlows := by rw [State.ingFlows, State.ingFlows, hing]
  have hftw : t.ftw = s.ftw := by
    funext f w
    rw [State.ftw, State.ftw, hing]
  have hfeature (b : Nat) (hb : b < 128) : t.feature b = s.feature b := by
    have hlocked : t.f F.GLB_FEAT_CTL_LOCKED = s.f F.GLB_FEAT_CTL_LOCKED := h.f_eq (by simp only [R.GLB_FEAT_CTL, R.DEC_CTX_CTL]; omega)
    have haccept : t.rdn (R.GLB_FEAT_ACCEPT (b / 32)) = s.rdn (R.GLB_FEAT_ACCEPT (b / 32)) :=
      h.rdn_eq (by simp only [R.GLB_FEAT_ACCEPT, R.DEC_CTX_CTL]; omega)
    rw [State.feature, State.feature, State.on, State.on, hlocked, haccept]
  have hwidth : t.f (F.DEC_CTX_SIZE_W x) = s.f (F.DEC_CTX_SIZE_W x) := h.f_eq (by simp)
  have hheight : t.f (F.DEC_CTX_SIZE_H x) = s.f (F.DEC_CTX_SIZE_H x) := h.f_eq (by simp)
  have hnum : t.f (F.DEC_CTX_RATE_NUM x) = s.f (F.DEC_CTX_RATE_NUM x) := h.f_eq (by simp)
  have hden : t.f (F.DEC_CTX_RATE_DEN x) = s.f (F.DEC_CTX_RATE_DEN x) := h.f_eq (by simp)
  have hengine : t.f (F.DEC_CTX_CTL_ENGINE x) = s.f (F.DEC_CTX_CTL_ENGINE x) := h.ctl_eq x ⟨4, 3, .rw, false, .any⟩ (by decide)
  have hstack : t.f (F.DEC_CTX_CTL_STACK x) = s.f (F.DEC_CTX_CTL_STACK x) := h.ctl_eq x ⟨6, 5, .rw, false, .any⟩ (by decide)
  have hpool (st mib : Nat) : t.poolFits st mib = s.poolFits st mib :=
    h.1.poolFits_eq (by simp only [List.mem_singleton, R.HBM_S_POOL_NEED, R.DEC_CTX_CTL]; omega)
      (by simp only [List.mem_singleton, R.HBM_S_POOL, R.DEC_CTX_CTL]; omega) mib
  simp only [State.ctxOk, hfeature 7 (by decide), hwidth, hheight, hnum, hden, hengine, h.engineLoad_eq, hflows, hftw, h.ctxType_eq, hstack, hpool,
    State.ctxDemand]

end

/-- A context that may be enabled has a demand that fits its pool. -/
theorem poolFits_of_ctxOk {s : State} {x : Nat} (h : s.ctxOk x = true) : s.poolFits (s.f (F.DEC_CTX_CTL_STACK x)) (s.ctxDemand x) = true := by
  simp only [State.ctxOk, Bool.and_eq_true] at h
  obtain ⟨-, hpool⟩ := h
  exact hpool

/-! ## DECODE_CONTEXT_ENABLE: the effect (R97, R105, R302) -/

theorem ctxCtl_row {x : Nat} (hx : x < 16) : regDef (R.DEC_CTX_CTL x) = some ⟨0x60100, [(64, 16)], 0x0, false, enField :: ctxCtlRest⟩ := by
  interval_cases x <;> rfl

theorem ctxCtl_narrow : ∀ x, x < 16 → wideOf wideWrites (R.DEC_CTX_CTL x) = none := by decide +kernel

theorem ctxCtl_noLat : ∀ x, x < 16 → latInput (R.DEC_CTX_CTL x) = false := by decide

theorem blockOf_ctxCtl {x : Nat} (hx : x < 16) : blockOf (R.DEC_CTX_CTL x) = 6 := by
  have hb : R.DEC_CTX_CTL x / 0x10000 = 6 := by simp only [R.DEC_CTX_CTL]; omega
  simp [blockOf, hb]

theorem unitReg_ctxCtl (s : State) {x : Nat} (hx : x < 16) (v raw : Word) : s.unitReg .pcie (R.DEC_CTX_CTL x) v raw = some (s.ctxWrite x v) := by
  have hrange : R.DEC_CTX_CTL 0 ≤ R.DEC_CTX_CTL x ∧ R.DEC_CTX_CTL x < R.DEC_CTX_CTL 16 := by simp only [R.DEC_CTX_CTL]; omega
  have hidx : (R.DEC_CTX_CTL x - R.DEC_CTX_CTL 0) / 0x40 = x := by simp only [R.DEC_CTX_CTL]; omega
  have hofs : (R.DEC_CTX_CTL x - R.DEC_CTX_CTL 0) % 0x40 = 0 := by simp only [R.DEC_CTX_CTL]; omega
  simp only [State.unitReg, blockOf_ctxCtl hx, State.decReg, if_pos hrange, hidx, hofs, if_true]

theorem oldWord_ctxCtl (s : State) {x : Nat} (hx : x < 16) : s.oldWord .pcie (R.DEC_CTX_CTL x) = s.rdn (R.DEC_CTX_CTL x) := by
  have hwin : R.DEC_CTX_CTL x ≠ R.GLB_WIN_CTL := by simp only [R.DEC_CTX_CTL, R.GLB_WIN_CTL]; omega
  simp only [State.oldWord, if_neg hwin, State.liveWord, blockOf_ctxCtl hx]

/-- A write of EN to DEC_CTX_x_CTL reaches the context. -/
theorem ctlWrite_ctxEn {s : State} {x : Nat} (hd : s.dark = false) (hx : x < 16) :
    s.ctlWrite (F.DEC_CTX_CTL_EN x) 1 = s.ctxWrite x (s.enWord (R.DEC_CTX_CTL x) (enField :: ctxCtlRest)) := by
  refine ctlWrite_unit hd (by simp only [R.DEC_CTX_CTL]; omega) (ctxCtl_row hx) rfl ?_ (ctxCtl_narrow x hx) (ctxCtl_noLat x hx) ?_
  · rw [oldWord_ctxCtl s hx]
    exact fieldsOk_ctl _ 0 0 1 (by decide) (by decide)
  · rw [unitReg_ctxCtl s hx, oldWord_ctxCtl s hx]
    rfl

/-- Context `x` is STARTING with nothing received; its pool and the engines' loads are not yet brought up to date. -/
def State.ctxCleared (s : State) (x : Nat) : State := ((s.setCtx x {}).setF (F.DEC_CTX_STATUS_B2_0 x) 1).setFn (fnDec x) .starting

/-- Context `x` starts, with its demand on a pool. -/
def State.ctxStarted (s : State) (x st mib : Nat) : State := ((s.ctxCleared x).poolTake (fnDec x) st mib).engineLoads

/-- A context that is off, and passes the checks, starts. -/
theorem ctxWrite_enable {s : State} {x : Nat} (hx : x < 16) (hoff : s.on (F.DEC_CTX_CTL_EN x) = false)
    (hok : (s.setF (F.DEC_CTX_CTL_EN x) 1).ctxOk x = true) :
    s.ctxWrite x (s.enWord (R.DEC_CTX_CTL x) (enField :: ctxCtlRest)) =
      (s.enabledAt (R.DEC_CTX_CTL x) (enField :: ctxCtlRest)).ctxStarted x (s.f (F.DEC_CTX_CTL_STACK x)) (s.ctxDemand x) := by
  have hframe := frame_wr s (R.DEC_CTX_CTL x) (s.enWord (R.DEC_CTX_CTL x) (enField :: ctxCtlRest))
  have halike : (s.setF (F.DEC_CTX_CTL_EN x) 1).CtxAlike (s.enabledAt (R.DEC_CTX_CTL x) (enField :: ctxCtlRest)) x :=
    alikeAt_setF_enabledAt restOk_ctxCtlRest
  have hen := enWord_en (s := s) (a := R.DEC_CTX_CTL x) restOk_ctxCtlRest
  have hstack : (s.enabledAt (R.DEC_CTX_CTL x) (enField :: ctxCtlRest)).f (F.DEC_CTX_CTL_STACK x) = s.f (F.DEC_CTX_CTL_STACK x) :=
    (alikeAt_enabledAt restOk_ctxCtlRest).2 ⟨6, 5, .rw, false, .any⟩ (by decide)
  have hdemand : (s.wr (R.DEC_CTX_CTL x) (s.enWord (R.DEC_CTX_CTL x) (enField :: ctxCtlRest))).ctxDemand x = s.ctxDemand x := by
    rw [State.ctxDemand, State.ctxDemand, hframe.f_eq (y := F.DEC_CTX_SIZE_W x) (by simp), hframe.f_eq (y := F.DEC_CTX_SIZE_H x) (by simp)]
  have hpass := (halike.ctxOk_eq hx).trans hok
  rw [State.enabledAt] at hpass hstack
  simp only [State.ctxWrite, hoff, hen, hpass, hstack, hdemand, Bool.false_and, Bool.false_eq_true, if_false, beq_self_eq_true, if_true]
  rfl

theorem frame_ctxCleared {s : State} {x : Nat} (h : s.fn (fnDec x) = .off) :
    Frame [R.DEC_CTX_STATUS x] [fnDec x] [.ing, .fnAt] s (s.ctxCleared x) := by
  have hne : ((s.setCtx x {}).setF (F.DEC_CTX_STATUS_B2_0 x) 1).fn (fnDec x) ≠ .starting := by
    rw [fn_setF]
    exact fun hs => absurd (h.symm.trans hs) (by decide)
  exact ((frame_setCtx s x _).trans (frame_setF _ (F.DEC_CTX_STATUS_B2_0 x) 1)).trans (frame_setFn_starting hne)

theorem frame_engineLoads (s : State) : Frame ((List.range 4).map R.DEC_ENG_LOAD) [] [] s s.engineLoads :=
  frame_foldl (op := fun t e => t.wrn (R.DEC_ENG_LOAD e) (s.engineLoad e / 1000))
    (fun t e => frame_wrn t (R.DEC_ENG_LOAD e) (s.engineLoad e / 1000)) (List.range 4) s

/-- No register but those of the engines shows their loads. -/
theorem notMem_engLoad {a : Nat} (ha : a < 0x60010 ∨ 0x60020 ≤ a) : a ∉ (List.range 4).map R.DEC_ENG_LOAD := by
  simp only [List.mem_map, List.mem_range, not_exists, not_and, R.DEC_ENG_LOAD]
  omega

theorem engineLoads_evNow (s : State) : s.engineLoads.evNow = s.evNow :=
  foldl_wrn_evNow R.DEC_ENG_LOAD (fun e => s.engineLoad e / 1000) (List.range 4) s

theorem ctxCleared_spec {s : State} {x : Nat} (h : s.fn (fnDec x) = .off) : (s.ctxCleared x).fn (fnDec x) = .starting ∧
    (s.ctxCleared x).f (F.DEC_CTX_STATUS_B2_0 x) = 1 ∧ (s.ctxCleared x).ctx x = {} ∧ (s.ctxCleared x).evNow = s.evNow := by
  have hne : ((s.setCtx x {}).setF (F.DEC_CTX_STATUS_B2_0 x) 1).fn (fnDec x) ≠ .starting := by
    rw [fn_setF]
    exact fun hs => absurd (h.symm.trans hs) (by decide)
  have hfn := frame_setFn_starting hne
  refine ⟨fn_setFn_starting hne, (hfn.f_eq (by simp)).trans (f_setF_same _ (F.DEC_CTX_STATUS_B2_0 x) 1 (Nat.lt_of_sub_eq_succ rfl)), ?_, ?_⟩
  · exact (hfn.ctx_eq (by decide) x).trans (ctx_setCtx_same s x {})
  · rw [State.ctxCleared, setFn_starting hne]
    rfl

theorem frame_ctxStarted {s : State} {x : Nat} (st mib : Nat) (h : s.fn (fnDec x) = .off) :
    Frame ([R.DEC_CTX_STATUS x, R.HBM_S_POOL_NEED st] ++ (List.range 4).map R.DEC_ENG_LOAD) [fnDec x] [.ing, .fnAt, .hbm] s (s.ctxStarted x st mib) :=
  ((frame_ctxCleared h).trans (frame_poolTake _ (fnDec x) st mib)).trans (frame_engineLoads _)

/-- What a context that starts holds. -/
theorem ctxStarted_spec {s : State} {x st mib : Nat} (hx : x < 16) (h : s.fn (fnDec x) = .off) (hfits : s.poolFits st mib = true) :
    (s.ctxStarted x st mib).fn (fnDec x) = .starting ∧ (s.ctxStarted x st mib).f (F.DEC_CTX_STATUS_B2_0 x) = 1 ∧ (s.ctxStarted x st mib).ctx x = {} ∧
      (s.ctxStarted x st mib).rdn (R.HBM_S_POOL_NEED st) = s.rdn (R.HBM_S_POOL_NEED st) + mib := by
  obtain ⟨hfn, hstate, hctx, -⟩ := ctxCleared_spec h
  have hclear := frame_ctxCleared h
  have htake := frame_poolTake (s.ctxCleared x) (fnDec x) st mib
  have hloads := frame_engineLoads ((s.ctxCleared x).poolTake (fnDec x) st mib)
  obtain ⟨hneed, hsize⟩ := pool_notMem (a := R.DEC_CTX_STATUS x) (by simp only [R.DEC_CTX_STATUS]; omega) st
  have hstatus : R.DEC_CTX_STATUS x ∉ [R.HBM_S_POOL_NEED st] := by
    simp only [List.mem_singleton, R.DEC_CTX_STATUS, R.HBM_S_POOL_NEED]
    omega
  have hstatus' : R.DEC_CTX_STATUS x ∉ (List.range 4).map R.DEC_ENG_LOAD := notMem_engLoad (.inr (by simp only [R.DEC_CTX_STATUS]; omega))
  have hneed' : R.HBM_S_POOL_NEED st ∉ (List.range 4).map R.DEC_ENG_LOAD := notMem_engLoad (.inr (by simp only [R.HBM_S_POOL_NEED]; omega))
  refine ⟨((htake.trans hloads).fn_eq (by simp)).trans hfn, ((hloads.f_eq hstatus').trans (htake.f_eq hstatus)).trans hstate,
    ((htake.trans hloads).ctx_eq (by decide) x).trans hctx, ?_⟩
  rw [State.ctxStarted, hloads.rdn_eq hneed', rdn_poolTake_of_fits (fnDec x) ((hclear.poolFits_eq hneed hsize mib).trans hfits), hclear.rdn_eq hneed]

theorem ctxOk_begin (s : State) (x : Nat) : (s.begin.setF (F.DEC_CTX_CTL_EN x) 1).ctxOk x = (s.setF (F.DEC_CTX_CTL_EN x) 1).ctxOk x := rfl
theorem ctxDemand_begin (s : State) (x : Nat) : s.begin.ctxDemand x = s.ctxDemand x := rfl

/-- DECODE_CONTEXT_ENABLE, of a context that is off. -/
theorem decodeContextEnable_completes {s : State} {x : Nat} (hd : s.dark = false) (hx : x < 16) (hoff : s.on (F.DEC_CTX_CTL_EN x) = false)
    (hok : (s.setF (F.DEC_CTX_CTL_EN x) 1).ctxOk x = true) (hfn : s.fn (fnDec x) = .off) :
    Completes (.decodeContextEnable x) s fun t => t.on (F.DEC_CTX_CTL_EN x) = true ∧ t.fn (fnDec x) = .starting ∧ t.f (F.DEC_CTX_STATUS_B2_0 x) = 1 ∧
      t.ctx x = {} ∧
      t.rdn (R.HBM_S_POOL_NEED (s.f (F.DEC_CTX_CTL_STACK x))) = s.rdn (R.HBM_S_POOL_NEED (s.f (F.DEC_CTX_CTL_STACK x))) + s.ctxDemand x ∧
      Keeps ([R.DEC_CTX_CTL x, R.DEC_CTX_STATUS x, R.HBM_S_POOL_NEED (s.f (F.DEC_CTX_CTL_STACK x))] ++ (List.range 4).map R.DEC_ENG_LOAD) [fnDec x]
        [.ing, .hbm, .fnAt] s t := by
  have hop := (ctlWrite_ctxEn (s := s.begin) hd hx).trans (ctxWrite_enable (s := s.begin) hx hoff ((ctxOk_begin s x).trans hok))
  rw [ctxDemand_begin, f_begin] at hop
  have hword : Frame [R.DEC_CTX_CTL x] [] [] s.begin (s.begin.enabledAt (R.DEC_CTX_CTL x) (enField :: ctxCtlRest)) := frame_wr s.begin _ _
  have hset : Frame [R.DEC_CTX_CTL x] [] [] s (s.setF (F.DEC_CTX_CTL_EN x) 1) := frame_setF s (F.DEC_CTX_CTL_EN x) 1
  obtain ⟨hneed, hsize⟩ := pool_notMem (a := R.DEC_CTX_CTL x) (by simp only [R.DEC_CTX_CTL]; omega) (s.f (F.DEC_CTX_CTL_STACK x))
  have hfits : (s.begin.enabledAt (R.DEC_CTX_CTL x) (enField :: ctxCtlRest)).poolFits (s.f (F.DEC_CTX_CTL_STACK x)) (s.ctxDemand x) = true := by
    have hfits := poolFits_of_ctxOk hok
    have hstack : (s.setF (F.DEC_CTX_CTL_EN x) 1).f (F.DEC_CTX_CTL_STACK x) = s.f (F.DEC_CTX_CTL_STACK x) :=
      (alikeAt_setF_en restOk_ctxCtlRest).2 ⟨6, 5, .rw, false, .any⟩ (by decide)
    have hdemand : (s.setF (F.DEC_CTX_CTL_EN x) 1).ctxDemand x = s.ctxDemand x := by
      rw [State.ctxDemand, State.ctxDemand, hset.f_eq (y := F.DEC_CTX_SIZE_W x) (by simp), hset.f_eq (y := F.DEC_CTX_SIZE_H x) (by simp)]
    rw [hstack, hdemand, hset.poolFits_eq hneed hsize] at hfits
    exact (hword.poolFits_eq hneed hsize _).trans hfits
  have hoff' : (s.begin.enabledAt (R.DEC_CTX_CTL x) (enField :: ctxCtlRest)).fn (fnDec x) = .off := (hword.fn_eq (by simp)).trans hfn
  have hstart := frame_ctxStarted (s.f (F.DEC_CTX_CTL_STACK x)) (s.ctxDemand x) hoff'
  obtain ⟨hfn', hstate, hctx, hpool⟩ := ctxStarted_spec hx hoff' hfits
  have hev : ((s.begin.enabledAt (R.DEC_CTX_CTL x) (enField :: ctxCtlRest)).ctxStarted x (s.f (F.DEC_CTX_CTL_STACK x)) (s.ctxDemand x)).evNow = [] := by
    obtain ⟨-, -, -, hclear⟩ := ctxCleared_spec hoff'
    rw [State.ctxStarted, engineLoads_evNow, poolTake_evNow, hclear, State.enabledAt, wr_evNow, State.begin]
  refine completes_of_frame (op := (·.idx x 16 (·.ctlWrite (F.DEC_CTX_CTL_EN x) 1))) rfl ((idx_of_lt hx).trans hop)
    ((hword.trans hstart).mono (by simp) (by simp) (by simp)) (.inl hev) fun hkeeps =>
      ⟨?_, (fn_finish _ _).trans hfn', (f_finish _ _).trans hstate, (ctx_finish _ x).trans hctx, ?_, hkeeps⟩
  · have hout : R.DEC_CTX_CTL x ∉ [R.DEC_CTX_STATUS x, R.HBM_S_POOL_NEED (s.f (F.DEC_CTX_CTL_STACK x))] ++ (List.range 4).map R.DEC_ENG_LOAD := by
      have hload : R.DEC_CTX_CTL x ∉ (List.range 4).map R.DEC_ENG_LOAD := notMem_engLoad (.inr (by simp only [R.DEC_CTX_CTL]; omega))
      simp only [List.cons_append, List.nil_append, List.mem_cons, hload, or_false, not_or, R.DEC_CTX_CTL, R.DEC_CTX_STATUS, R.HBM_S_POOL_NEED]
      omega
    rw [on_finish, hstart.on_eq hout]
    exact on_en_enabledAt restOk_ctxCtlRest
  · rw [rdn_finish, hpool, hword.rdn_eq hneed, rdn_begin]

end Sys2Proof.Machine
end

section
/-!
PROOFS. The frames of an input and the units of a decode context: how an input starts and restarts (R90, R103), how a line is accepted (R92), how a unit is
taken and decoded (R96-R102), and how a decoded picture is accepted (R99).
-/

namespace Sys2Proof.Machine

/-! ## INPUT_START, INPUT_RESTART (R90, R103) -/

/-- Input `i` runs, with `x` as its state. -/
def State.inputRuns (s : State) (i : Nat) (x : InputSt) : State := (s.setInp i x).setF (F.ING_IN_STATUS_RUN i) 1

theorem frame_inputRuns (s : State) (i : Nat) (x : InputSt) : Frame [R.ING_IN_STATUS i] [] [.ing] s (s.inputRuns i x) :=
  (frame_setInp s i x).trans (frame_setF _ (F.ING_IN_STATUS_RUN i) 1)

theorem on_run_inputRuns (s : State) (i : Nat) (x : InputSt) : (s.inputRuns i x).on (F.ING_IN_STATUS_RUN i) = true :=
  on_setF_same _ (F.ING_IN_STATUS_RUN i) (Nat.lt_of_sub_eq_succ rfl) rfl

theorem inp_inputRuns (s : State) (i : Nat) (x : InputSt) : (s.inputRuns i x).inp i = x := inp_setInp_same s i x

theorem inputRuns_evNow (s : State) (i : Nat) (x : InputSt) : (s.inputRuns i x).evNow = s.evNow := rfl

/-- An input that waits starts at the first frame of its channel after its enable (R103). -/
theorem inputStart_after {s : State} {i k v e : Nat} {q : Clock} (hen : s.on (F.ING_IN_CTL_EN i) = true) (hwaits : (s.inp i).waiting = true)
    (hactive : s.active (fnEnc (s.f (F.ING_IN_CTL_CH i))) = true) (henV : (s.inp i).enV = some e)
    (hstart : s.toChanAfter 2 (s.f (F.ING_IN_CTL_CH i)) e = some ({ s with clk := q }, k, v)) :
    s.inputStart i = State.inputRuns { s with clk := q } i { (s.inp i).advance k v with waiting := false, runV := v } := by
  simp only [State.inputStart, hen, hwaits, hactive, henV, hstart, Bool.and_self, Bool.not_true, Bool.false_eq_true, if_false, State.inputRuns]

/-- One without a stamp of its enable starts at the next frame. -/
theorem inputStart_next {s : State} {i k v : Nat} {q : Clock} (hen : s.on (F.ING_IN_CTL_EN i) = true) (hwaits : (s.inp i).waiting = true)
    (hactive : s.active (fnEnc (s.f (F.ING_IN_CTL_CH i))) = true) (henV : (s.inp i).enV = none)
    (hstart : s.toChanStart 2 (s.f (F.ING_IN_CTL_CH i)) = some ({ s with clk := q }, k, v)) :
    s.inputStart i = State.inputRuns { s with clk := q } i { (s.inp i).advance k v with waiting := false, runV := v } := by
  simp only [State.inputStart, hen, hwaits, hactive, henV, hstart, Bool.and_self, Bool.not_true, Bool.false_eq_true, if_false, State.inputRuns]

/-- INPUT_START. -/
theorem inputStart_completes {s : State} {i k v e : Nat} {q : Clock} (hi : i < 64) (hen : s.on (F.ING_IN_CTL_EN i) = true)
    (hwaits : (s.inp i).waiting = true) (hactive : s.active (fnEnc (s.f (F.ING_IN_CTL_CH i))) = true) (henV : (s.inp i).enV = some e)
    (hstart : s.begin.toChanAfter 2 (s.f (F.ING_IN_CTL_CH i)) e = some ({ s.begin with clk := q }, k, v)) :
    Completes (.inputStart i) s fun t => t.on (F.ING_IN_STATUS_RUN i) = true ∧ (t.inp i).startV = v ∧ (t.inp i).idx = k ∧ (t.inp i).waiting = false ∧
      t.clk = q ∧ Keeps [R.ING_IN_STATUS i] [] [.ing, .clk] s t := by
  have hop := inputStart_after (s := s.begin) hen hwaits hactive henV hstart
  have hruns := frame_inputRuns { s.begin with clk := q } i { (s.begin.inp i).advance k v with waiting := false, runV := v }
  have hinp := inp_inputRuns { s.begin with clk := q } i { (s.begin.inp i).advance k v with waiting := false, runV := v }
  refine completes_of_frame (op := (·.idx i 64 (·.inputStart i))) rfl ((idx_of_lt hi).trans hop)
    (((frame_clk s.begin q).trans hruns).mono (by simp) (by simp) (by simp)) (.inl (inputRuns_evNow _ i _)) fun hkeeps =>
      ⟨(on_finish _ _).trans (on_run_inputRuns _ i _), ?_, ?_, ?_, (finish_clk _).trans (hruns.part (p := .clk) (by decide)), hkeeps⟩
  all_goals rw [inp_finish, hinp]
  all_goals rfl

/-- A stopped input whose channel has left OFF waits again, with the line unit of the rate now (R90). -/
def State.inputAgain (s : State) (i u : Nat) : State := (s.setInp i { waiting := true, enV := none }).wrn (R.ING_IN_UNIT i) u

theorem frame_inputAgain (s : State) (i u : Nat) : Frame [R.ING_IN_UNIT i] [] [.ing] s (s.inputAgain i u) :=
  (frame_setInp s i _).trans (frame_wrn _ (R.ING_IN_UNIT i) u)

theorem inp_inputAgain (s : State) (i u : Nat) : (s.inputAgain i u).inp i = { waiting := true, enV := none } := inp_setInp_same s i _

theorem inputAgain_evNow (s : State) (i u : Nat) : (s.inputAgain i u).evNow = s.evNow := rfl

theorem inputRestart_of_stopped {s : State} {i u : Nat} (hunit : s.inputUnit i = some u) (hen : s.on (F.ING_IN_CTL_EN i) = true)
    (hstop : s.on (F.ING_IN_STATUS_RUN i) = false) (hwaits : (s.inp i).waiting = false)
    (hactive : s.active (fnEnc (s.f (F.ING_IN_CTL_CH i))) = true) : s.inputRestart i = (s.inputAgain i u).inputStart i := by
  simp only [State.inputRestart, hunit, hen, hstop, hwaits, hactive, Bool.not_true, Bool.or_self, Bool.false_eq_true, if_false, State.inputAgain]

/-- A stopped input restarts at the next frame of its channel, with an empty picture. -/
theorem inputRestart_next {s : State} {i k v u : Nat} {q : Clock} (hi : i < 64) (hunit : s.inputUnit i = some u) (hen : s.on (F.ING_IN_CTL_EN i) = true)
    (hstop : s.on (F.ING_IN_STATUS_RUN i) = false) (hwaits : (s.inp i).waiting = false)
    (hactive : s.active (fnEnc (s.f (F.ING_IN_CTL_CH i))) = true)
    (hstart : s.toChanStart 2 (s.f (F.ING_IN_CTL_CH i)) = some ({ s with clk := q }, k, v)) :
    s.inputRestart i = State.inputRuns { s.inputAgain i u with clk := q } i { startV := v, idx := k, runV := v } := by
  have hagain := frame_inputAgain s i u
  have hinp := inp_inputAgain s i u
  have htiming : s.SameTiming (s.inputAgain i u) :=
    hagain.sameTiming (by decide) (by decide) (by simp only [List.mem_singleton, forall_eq, R.ING_IN_UNIT]; omega)
  have hch : (s.inputAgain i u).f (F.ING_IN_CTL_CH i) = s.f (F.ING_IN_CTL_CH i) := hagain.f_eq (by simp)
  have hen' : (s.inputAgain i u).on (F.ING_IN_CTL_EN i) = true := (hagain.on_eq (by simp)).trans hen
  have hactive' : (s.inputAgain i u).active (fnEnc ((s.inputAgain i u).f (F.ING_IN_CTL_CH i))) = true := by
    rw [hch, hagain.active_eq (by simp), hactive]
  have hstart' : (s.inputAgain i u).toChanStart 2 ((s.inputAgain i u).f (F.ING_IN_CTL_CH i)) = some ({ s.inputAgain i u with clk := q }, k, v) := by
    rw [hch]
    exact htiming.toChanStart_eq hstart
  rw [inputRestart_of_stopped hunit hen hstop hwaits hactive, inputStart_next hen' (by rw [hinp]) hactive' (by rw [hinp]) hstart', hinp]
  rfl

/-- INPUT_RESTART. -/
theorem inputRestart_completes {s : State} {i k v u : Nat} {q : Clock} (hunit : s.inputUnit i = some u) (hi : i < 64)
    (hen : s.on (F.ING_IN_CTL_EN i) = true) (hstop : s.on (F.ING_IN_STATUS_RUN i) = false) (hwaits : (s.inp i).waiting = false)
    (hactive : s.active (fnEnc (s.f (F.ING_IN_CTL_CH i))) = true)
    (hstart : s.begin.toChanStart 2 (s.f (F.ING_IN_CTL_CH i)) = some ({ s.begin with clk := q }, k, v)) :
    Completes (.inputRestart i) s fun t => t.on (F.ING_IN_STATUS_RUN i) = true ∧ t.inp i = { startV := v, idx := k, runV := v } ∧
      t.rdn (R.ING_IN_UNIT i) = u % 2 ^ 32 ∧ t.clk = q ∧ Keeps [R.ING_IN_STATUS i, R.ING_IN_UNIT i] [] [.ing, .clk] s t := by
  have hop := inputRestart_next (s := s.begin) hi ((inputUnit_begin s i).trans hunit) hen hstop hwaits hactive hstart
  have hclk := frame_clk (s.begin.inputAgain i u) q
  have hruns := frame_inputRuns { s.begin.inputAgain i u with clk := q } i { startV := v, idx := k, runV := v }
  refine completes_of_frame (op := (·.idx i 64 (·.inputRestart i))) rfl ((idx_of_lt hi).trans hop)
    ((((frame_inputAgain s.begin i u).trans hclk).trans hruns).mono (by simp) (by simp) (by simp))
    (.inl ((inputRuns_evNow _ i _).trans (inputAgain_evNow _ i u))) fun hkeeps =>
      ⟨(on_finish _ _).trans (on_run_inputRuns _ i _), (inp_finish _ i).trans (inp_inputRuns _ i _), ?_,
        (finish_clk _).trans (hruns.part (p := .clk) (by decide)), hkeeps⟩
  rw [rdn_finish, hruns.rdn_eq (by simp), hclk.rdn_eq (by simp), State.inputAgain, rdn_wrn_same]

/-! ## ACCEPTANCE_WINDOW_CLOSE (R92) -/

/-- An input that has taken what is in force for its frame takes no more (R15). -/
theorem inputLatch_of_latched {s : State} {i : Nat} (h : (s.inp i).latched = true) : s.inputLatch i = s := if_pos h

/-- Line `n` of the picture in progress is closed as `l`, with an arrival margin. -/
def InputSt.lineClosed (x : InputSt) (n : Nat) (l : LineSt) (margin : Int) : InputSt :=
  { x with jitMin := some margin, cur := { x.cur with lines := Tab.put (fun _ => ({} : LineSt)) x.cur.lines n { l with closed := true } } }

/-- The next line to close is `n`, of `h` lines. -/
def InputSt.toLine (x : InputSt) (n h : Nat) : InputSt := { x with nextLine := n, cur := { x.cur with full := decide (x.missing = h) } }

/-- Input `i` accepts a line, with `x` as its state, and goes on to line `n` of `h`. -/
def State.lineAccepted (s : State) (i n h : Nat) (x : InputSt) : State := ((s.setInp i x).bump (R.ING_IN_LINES_OK i)).setInp i (x.toLine n h)

theorem frame_lineAccepted (s : State) (i n h : Nat) (x : InputSt) : Frame [R.ING_IN_LINES_OK i] [] [.ing] s (s.lineAccepted i n h x) :=
  (((frame_setInp s i x).trans (frame_bump _ (R.ING_IN_LINES_OK i))).trans (frame_setInp _ i (x.toLine n h))).mono (by simp) (by simp) (by simp)

theorem inp_lineAccepted (s : State) (i n h : Nat) (x : InputSt) : (s.lineAccepted i n h x).inp i = x.toLine n h := inp_setInp_same _ i _

theorem rdn_lineAccepted (s : State) (i n h : Nat) (x : InputSt) :
    (s.lineAccepted i n h x).rdn (R.ING_IN_LINES_OK i) = (s.rdn (R.ING_IN_LINES_OK i) + 1) % 2 ^ 32 := by
  rw [State.lineAccepted, rdn_setInp, rdn_bump_same, rdn_setInp]

theorem lineAccepted_evNow (s : State) (i n h : Nat) (x : InputSt) : (s.lineAccepted i n h x).evNow = s.evNow := rfl

/-- The least margin of a picture whose lines so far had the margin `before`, with one more of `now` (R416). -/
def leastMargin (before : Option Int) (now : Int) : Int :=
  match before with
  | some m => min m now
  | none => now

/-- A line of which every sample arrived before its window's end is accepted, where no threshold of missing lines is set and it is not the last. -/
theorem windowClose_of_whole {s : State} {i n d : Nat} {q : Clock} {l : LineSt} (hrun : s.on (F.ING_IN_STATUS_RUN i) = true)
    (hsrc : s.on (F.ING_IN_CTL_SRC i) = false) (hline : (s.inp i).nextLine = n) (hmore : n + 1 < s.f (F.ING_IN_SIZE_H i))
    (hlatched : (s.inp i).latched = true) (hd : d = (s.inp i).startV + (s.inp i).org + (n + 1) * s.rdn (R.ING_IN_UNIT i))
    (hpos : s.toPos 4 d = some { s with clk := q }) (hl : Tab.get (fun _ => ({} : LineSt)) (s.inp i).cur.lines n = l)
    (hwhole : l.px.length = s.f (F.ING_IN_SIZE_W i)) (hearly : l.at_ < d) (hthr : s.f (F.ING_IN_SUBST_PIC_THR i) = 0) :
    s.windowClose i = State.lineAccepted { s with clk := q } i (n + 1) (s.f (F.ING_IN_SIZE_H i))
      ((s.inp i).lineClosed n l (leastMargin (s.inp i).jitMin (q.nsOf (d - l.at_)))) := by
  subst hline
  have hwidth : State.f { s with clk := q } (F.ING_IN_SIZE_W i) = s.f (F.ING_IN_SIZE_W i) := rfl
  have hthr' : State.f { s with clk := q } (F.ING_IN_SUBST_PIC_THR i) = 0 := hthr
  have hheight (x : InputSt) : ((State.setInp { s with clk := q } i x).bump (R.ING_IN_LINES_OK i)).f (F.ING_IN_SIZE_H i) = s.f (F.ING_IN_SIZE_H i) :=
    f_bump_ne _ (by simp)
  simp only [State.windowClose, hrun, hsrc, Bool.not_true, Bool.or_self, Bool.false_eq_true, if_false, inputLatch_of_latched hlatched, ← hd, hpos, hl,
    hwidth, hthr', hwhole, hearly, ne_eq, not_true_eq_false, decide_true, decide_false, Bool.false_and, Bool.not_false, Bool.and_self, if_true, hheight,
    Nat.ne_of_lt hmore, inp_bump, inp_setInp_same]
  rfl

/-- ACCEPTANCE_WINDOW_CLOSE, of a whole line that is not the last. -/
theorem acceptanceWindowClose_completes {s : State} {i n d : Nat} {q : Clock} {l : LineSt} (hi : i < 64) (hrun : s.on (F.ING_IN_STATUS_RUN i) = true)
    (hsrc : s.on (F.ING_IN_CTL_SRC i) = false) (hline : (s.inp i).nextLine = n) (hmore : n + 1 < s.f (F.ING_IN_SIZE_H i))
    (hlatched : (s.inp i).latched = true) (hd : d = (s.inp i).startV + (s.inp i).org + (n + 1) * s.rdn (R.ING_IN_UNIT i))
    (hpos : s.begin.toPos 4 d = some { s.begin with clk := q }) (hl : Tab.get (fun _ => ({} : LineSt)) (s.inp i).cur.lines n = l)
    (hwhole : l.px.length = s.f (F.ING_IN_SIZE_W i)) (hearly : l.at_ < d) (hthr : s.f (F.ING_IN_SUBST_PIC_THR i) = 0) :
    Completes (.acceptanceWindowClose i) s fun t => (t.inp i).nextLine = n + 1 ∧
      (Tab.get (fun _ => ({} : LineSt)) (t.inp i).cur.lines n).closed = true ∧ (Tab.get (fun _ => ({} : LineSt)) (t.inp i).cur.lines n).px = l.px ∧
      (t.inp i).missing = (s.inp i).missing ∧ t.rdn (R.ING_IN_LINES_OK i) = (s.rdn (R.ING_IN_LINES_OK i) + 1) % 2 ^ 32 ∧ t.clk = q ∧
      Keeps [R.ING_IN_LINES_OK i] [] [.ing, .clk] s t := by
  have hop := windowClose_of_whole (s := s.begin) hrun hsrc hline hmore hlatched hd hpos hl hwhole hearly hthr
  rw [f_begin, inp_begin] at hop
  have haccept := frame_lineAccepted { s.begin with clk := q } i (n + 1) (s.f (F.ING_IN_SIZE_H i))
    ((s.inp i).lineClosed n l (leastMargin (s.inp i).jitMin (q.nsOf (d - l.at_))))
  have hclosed (h : Nat) (m : Int) : Tab.get (fun _ => ({} : LineSt)) (((s.inp i).lineClosed n l m).toLine (n + 1) h).cur.lines n =
      { l with closed := true } := Tab.get_put_same _ _ n _
  have hinp := (inp_finish _ i).trans (inp_lineAccepted { s.begin with clk := q } i (n + 1) (s.f (F.ING_IN_SIZE_H i))
    ((s.inp i).lineClosed n l (leastMargin (s.inp i).jitMin (q.nsOf (d - l.at_)))))
  refine completes_of_frame (op := (·.idx i 64 (·.windowClose i))) rfl ((idx_of_lt hi).trans hop)
    (((frame_clk s.begin q).trans haccept).mono (by simp) (by simp) (by simp)) (.inl (lineAccepted_evNow _ i _ _ _)) fun hkeeps =>
      ⟨congrArg InputSt.nextLine hinp, ?_, ?_, (congrArg InputSt.missing hinp).trans rfl, (rdn_finish _ _).trans (rdn_lineAccepted _ i _ _ _),
        (finish_clk _).trans (haccept.part (p := .clk) (by decide)), hkeeps⟩
  · rw [hinp, hclosed]
  · rw [hinp, hclosed]

/-! ## ACCESS_UNIT_START (R98) -/

/-- The engine's only READY context starts its first complete unit. -/
theorem unitStart_of_alone {s : State} {e x : Nat} {u : AuSt}
    (halone : (List.range 16).filter (fun y => s.on (F.DEC_CTX_CTL_EN y) && s.f (F.DEC_CTX_CTL_ENGINE y) == e && s.ready (fnDec y)) = [x])
    (hidle : (s.ctx x).running = none) (hunit : (s.ctx x).units.find? (fun v => v.complete) = some u) :
    s.unitStart e = s.setCtx x { s.ctx x with running := some u, units := (s.ctx x).units.erase u, taken := (u.pkts.map (fun w => w.1)).getLast? } := by
  simp only [State.unitStart, halone]
  simp [hidle, hunit]

/-- ACCESS_UNIT_START, on an engine with one READY context. -/
theorem accessUnitStart_completes {s : State} {e x : Nat} {u : AuSt} (he : e < 4)
    (halone : (List.range 16).filter (fun y => s.on (F.DEC_CTX_CTL_EN y) && s.f (F.DEC_CTX_CTL_ENGINE y) == e && s.ready (fnDec y)) = [x])
    (hidle : (s.ctx x).running = none) (hunit : (s.ctx x).units.find? (fun v => v.complete) = some u) :
    Completes (.accessUnitStart e) s fun t => (t.ctx x).running = some u ∧ (t.ctx x).units = (s.ctx x).units.erase u ∧
      (t.ctx x).taken = (u.pkts.map (fun w => w.1)).getLast? ∧ Keeps [] [] [.ing] s t := by
  have hop := unitStart_of_alone (s := s.begin) halone hidle hunit
  refine completes_of_frame (op := (·.idx e 4 (·.unitStart e))) rfl ((idx_of_lt he).trans hop) (frame_setCtx _ x _) (.inl rfl) fun hkeeps =>
    ⟨?_, ?_, ?_, hkeeps⟩
  all_goals rw [ctx_finish, ctx_setCtx_same]
  all_goals rfl

/-! ## ACCESS_UNIT_DECODED (R96, R100, R101) -/

/-- The frame of a unit depends on no table of decode contexts (R91). -/
theorem unitFrame_setCtx (s : State) (x : Nat) (d : DecSt) (y : Nat) (u : AuSt) : (s.setCtx x d).unitFrame y u = s.unitFrame y u := rfl

/-- Context `x`, with `d` as its state, has decoded a picture that is not concealed. -/
def State.pictureKept (s : State) (x : Nat) (d : DecSt) : State :=
  (((s.setCtx x d).bump (R.DEC_CTX_PIC_CNT x)).setF (F.DEC_CTX_STATUS_B2_0 x) 2).setF (F.DEC_CTX_STATUS_LAST x) 0

theorem frame_pictureKept (s : State) (x : Nat) (d : DecSt) : Frame [R.DEC_CTX_PIC_CNT x, R.DEC_CTX_STATUS x] [] [.ing] s (s.pictureKept x d) :=
  ((((frame_setCtx s x d).trans (frame_bump _ (R.DEC_CTX_PIC_CNT x))).trans (frame_setF _ (F.DEC_CTX_STATUS_B2_0 x) 2)).trans
    (frame_setF _ (F.DEC_CTX_STATUS_LAST x) 0)).mono (by simp) (by simp) (by simp)

theorem ctx_pictureKept (s : State) (x : Nat) (d : DecSt) : (s.pictureKept x d).ctx x = d := ctx_setCtx_same s x d

theorem pictureKept_evNow (s : State) (x : Nat) (d : DecSt) : (s.pictureKept x d).evNow = s.evNow := rfl

/-- A picture without loss or error, at an entry point, is kept as it is, behind those decoded before (R100). -/
theorem unitDecoded_of_whole {s : State} {x : Nat} {a : AuInfo} {u : AuSt} (hunit : (s.ctx x).running = some u) (hready : s.ready (fnDec x) = true)
    (hroom : (s.ctx x).pics.length < 24) (hsupported : a.unsupported = false) (herror : a.error = false) (hslice : a.missingSlice = false)
    (hlost : a.lost = []) (hirap : a.irap = true) (hconceal : (s.ctx x).concealing = false) (hentry : (s.ctx x).entry = false)
    (hstate : s.f (F.DEC_CTX_STATUS_B2_0 x) = 2) :
    ∃ d p, s.unitDecoded x a = (s.setCtx x { s.ctx x with running := none }).pictureKept x d ∧ d.running = none ∧ d.pics = (s.ctx x).pics ++ [p] ∧
      (p.poc, p.frame, p.doneV, p.width, p.height, p.concealed) = (a.poc, s.unitFrame x u, s.clk.vpos, a.width, a.height, false) := by
  have hkeep : (s.ctx x).pics.length + 1 - 24 = 0 := by omega
  simp only [State.unitDecoded, hunit, hready, hsupported, herror, hslice, hlost, hirap, hconceal, hentry, f_setCtx, on_setCtx, hstate, hkeep,
    unitFrame_setCtx, ctx_setCtx_same, Bool.not_true, Bool.false_eq_true, ↓reduceIte, OfNat.ofNat_ne_one, Bool.true_or, Bool.true_eq_false, and_self,
    Bool.or_self, bne_self_eq_false, Nat.reduceBEq, Bool.or_false, Bool.and_self, Bool.not_false, Bool.and_true, Bool.false_and, BEq.rfl, List.foldl_nil,
    List.drop_zero, Prod.mk.injEq, exists_and_left]
  exact ⟨_, rfl, rfl, _, rfl, rfl, rfl, rfl, rfl, rfl, rfl⟩

theorem rdn_pictureKept (s : State) (x : Nat) (d : DecSt) :
    (s.pictureKept x d).rdn (R.DEC_CTX_PIC_CNT x) = (s.rdn (R.DEC_CTX_PIC_CNT x) + 1) % 2 ^ 32 := by
  have hstatus : R.DEC_CTX_PIC_CNT x ≠ R.DEC_CTX_STATUS x := by simp
  rw [State.pictureKept, rdn_setF_ne _ _ hstatus, rdn_setF_ne _ _ hstatus, rdn_bump_same, rdn_setCtx]

/-- The context is DECODING, its last picture not concealed (R100). -/
theorem status_pictureKept (s : State) (x : Nat) (d : DecSt) :
    (s.pictureKept x d).f (F.DEC_CTX_STATUS_B2_0 x) = 2 ∧ (s.pictureKept x d).f (F.DEC_CTX_STATUS_LAST x) = 0 :=
  ⟨(f_setF_bits (x := F.DEC_CTX_STATUS_LAST x) (y := F.DEC_CTX_STATUS_B2_0 x) _ 0 rfl (Nat.le_refl 3) (Nat.lt_of_sub_eq_succ rfl)
      (.inr (Nat.lt_succ_self 2))).trans (f_setF_same _ (F.DEC_CTX_STATUS_B2_0 x) 2 (Nat.lt_of_sub_eq_succ rfl)),
    f_setF_same _ (F.DEC_CTX_STATUS_LAST x) 0 (Nat.lt_of_sub_eq_succ rfl)⟩

theorem unitFrame_begin (s : State) (x : Nat) (u : AuSt) : s.begin.unitFrame x u = s.unitFrame x u := rfl

/-- ACCESS_UNIT_DECODED, of a whole picture at an entry point. -/
theorem accessUnitDecoded_completes {s : State} {x : Nat} {a : AuInfo} {u : AuSt} (hx : x < 16) (hunit : (s.ctx x).running = some u)
    (hready : s.ready (fnDec x) = true) (hroom : (s.ctx x).pics.length < 24) (hsupported : a.unsupported = false) (herror : a.error = false)
    (hslice : a.missingSlice = false) (hlost : a.lost = []) (hirap : a.irap = true) (hconceal : (s.ctx x).concealing = false)
    (hentry : (s.ctx x).entry = false) (hstate : s.f (F.DEC_CTX_STATUS_B2_0 x) = 2) :
    Completes (.accessUnitDecoded x a) s fun t => (t.ctx x).running = none ∧ (t.ctx x).pics.dropLast = (s.ctx x).pics ∧
      (t.ctx x).pics.getLast?.map (fun p => (p.poc, p.frame, p.doneV, p.width, p.height, p.concealed)) =
        some (a.poc, s.unitFrame x u, s.clk.vpos, a.width, a.height, false) ∧
      t.rdn (R.DEC_CTX_PIC_CNT x) = (s.rdn (R.DEC_CTX_PIC_CNT x) + 1) % 2 ^ 32 ∧ t.f (F.DEC_CTX_STATUS_B2_0 x) = 2 ∧ t.f (F.DEC_CTX_STATUS_LAST x) = 0 ∧
      Keeps [R.DEC_CTX_PIC_CNT x, R.DEC_CTX_STATUS x] [] [.ing, .fctr] s t := by
  obtain ⟨d, p, hop, hrunning, hpics, hp⟩ :=
    unitDecoded_of_whole (s := s.begin) hunit hready hroom hsupported herror hslice hlost hirap hconceal hentry hstate
  rw [unitFrame_begin] at hp
  have hctx := (ctx_finish _ x).trans (ctx_pictureKept (s.begin.setCtx x { s.begin.ctx x with running := none }) x d)
  obtain ⟨hdecoding, hlast⟩ := status_pictureKept (s.begin.setCtx x { s.begin.ctx x with running := none }) x d
  refine completes_of_frame (op := (·.idx x 16 (·.unitDecoded x a))) rfl ((idx_of_lt hx).trans hop)
    (((frame_setCtx s.begin x _).trans (frame_pictureKept _ x d)).mono (by simp) (by simp) (by simp)) (.inl (pictureKept_evNow _ x d)) fun hkeeps =>
      ⟨?_, ?_, ?_, (rdn_finish _ _).trans (rdn_pictureKept _ x d), (f_finish _ _).trans hdecoding, (f_finish _ _).trans hlast, hkeeps⟩
  · rw [hctx, hrunning]
  · rw [hctx, hpics, List.dropLast_concat, ctx_begin]
  · rw [hctx, hpics, List.getLast?_concat, Option.map_some, hp, begin_clk]

/-! ## DECODED_PICTURE_DECISION (R99, R90) -/

/-- The flags of a complete picture of input `i`: substituted, in full, concealed, and which legs were heard (R95). -/
def State.inputFlags (s : State) (i su fu co la lb : Nat) : State :=
  ((((s.setF (F.ING_IN_STATUS_SUBST i) su).setF (F.ING_IN_STATUS_FULL i) fu).setF (F.ING_IN_STATUS_CONCEALED i) co).setF (F.ING_IN_STATUS_LEG_A i) la).setF
    (F.ING_IN_STATUS_LEG_B i) lb

theorem frame_inputFlags (s : State) (i su fu co la lb : Nat) : Frame [R.ING_IN_STATUS i] [] [] s (s.inputFlags i su fu co la lb) :=
  (((((frame_setF s (F.ING_IN_STATUS_SUBST i) su).trans (frame_setF _ (F.ING_IN_STATUS_FULL i) fu)).trans (frame_setF _ (F.ING_IN_STATUS_CONCEALED i) co)).trans
    (frame_setF _ (F.ING_IN_STATUS_LEG_A i) la)).trans (frame_setF _ (F.ING_IN_STATUS_LEG_B i) lb)).mono (by simp) (by simp) (by simp)

theorem inputFlags_evNow (s : State) (i su fu co la lb : Nat) : (s.inputFlags i su fu co la lb).evNow = s.evNow := rfl

/-- The picture in progress of input `i` becomes the stored one, and the next frame of channel `ch` begins. -/
def State.inputAdvanced (s : State) (i ch : Nat) : State :=
  s.setInp i { (s.inp i).advance (s.chanFrom ch ((s.inp i).startV + 1)).1 (s.chanFrom ch ((s.inp i).startV + 1)).2 with
    jitMin := none, prev := some (s.inp i).cur }

theorem frame_inputAdvanced (s : State) (i ch : Nat) : Frame [] [] [.ing] s (s.inputAdvanced i ch) := frame_setInp s i _

theorem prev_inputAdvanced (s : State) (i ch : Nat) : ((s.inputAdvanced i ch).inp i).prev = some (s.inp i).cur := by
  rw [State.inputAdvanced, inp_setInp_same]

theorem startV_inputAdvanced (s : State) (i ch : Nat) :
    ((s.inputAdvanced i ch).inp i).startV = (s.chanFrom ch ((s.inp i).startV + 1)).2 := by
  rw [State.inputAdvanced, inp_setInp_same, InputSt.advance]

theorem inputAdvanced_evNow (s : State) (i ch : Nat) : (s.inputAdvanced i ch).evNow = s.evNow := rfl

/-- An input whose channel runs on goes on to the next frame, the flags of the complete picture reported (R90, R95). -/
theorem inputNext_of_running {s : State} {i : Nat} (hjit : (s.inp i).jitMin = none) (hstop : (s.inp i).stopV = none)
    (hactive : s.active (fnEnc (s.f (F.ING_IN_CTL_CH i))) = true) :
    ∃ su fu co la lb, s.inputNext i = (s.inputFlags i su fu co la lb).inputAdvanced i (s.f (F.ING_IN_CTL_CH i)) := by
  simp only [State.inputNext, hjit, hstop, hactive, active_setF, Option.isNone_none, Bool.and_self, if_true]
  exact ⟨_, _, _, _, _, rfl⟩

/-- Input `i` accepts a decoded picture of samples `src`, not concealed, as its picture in progress (R99). -/
def State.pictureAccepted (s : State) (i : Nat) (src : DecSrc) : State :=
  (s.setInp i { s.inp i with cur := { base := .decoded src, anc := (s.inp i).cur.anc } }).bumpBy (R.ING_IN_LINES_OK i)
    (s.f (F.ING_IN_SIZE_H i))

theorem frame_pictureAccepted (s : State) (i : Nat) (src : DecSrc) : Frame [R.ING_IN_LINES_OK i] [] [.ing] s (s.pictureAccepted i src) :=
  ((frame_setInp s i _).trans (frame_bumpBy _ (R.ING_IN_LINES_OK i) (s.f (F.ING_IN_SIZE_H i)))).mono (by simp) (by simp) (by simp)

theorem inp_pictureAccepted (s : State) (i : Nat) (src : DecSrc) :
    (s.pictureAccepted i src).inp i = { s.inp i with cur := { base := .decoded src, anc := (s.inp i).cur.anc } } :=
  inp_setInp_same s i _

theorem rdn_pictureAccepted (s : State) (i : Nat) (src : DecSrc) :
    (s.pictureAccepted i src).rdn (R.ING_IN_LINES_OK i) = (s.rdn (R.ING_IN_LINES_OK i) + s.f (F.ING_IN_SIZE_H i)) % 2 ^ 32 := by
  rw [State.pictureAccepted, rdn_bumpBy_same, rdn_setInp]

theorem pictureAccepted_evNow (s : State) (i : Nat) (src : DecSrc) : (s.pictureAccepted i src).evNow = s.evNow := rfl

/-- The one decoded picture of a context, of this frame's span, decoded before the decision, of the input's format and not concealed, is accepted. -/
theorem pictureDecision_of_fit {s : State} {i : Nat} {q : Clock} {p : DecPic} (hrun : s.on (F.ING_IN_STATUS_RUN i) = true)
    (hsrc : s.on (F.ING_IN_CTL_SRC i) = true) (hlatched : (s.inp i).latched = true)
    (hpos : s.toPos 4 ((s.inp i).startV + (s.inp i).org) = some { s with clk := q }) (hpics : (s.ctx (s.f (F.ING_IN_CTL_DEC_CTX i))).pics = [p])
    (hfrom : p.frame ≤ (s.inp i).idx) (hto : (s.inp i).idx < p.frame + (s.ctxDivisor i).getD 1) (hdone : p.doneV < (s.inp i).startV + (s.inp i).org)
    (hw : p.width = s.f (F.ING_IN_SIZE_W i)) (hh : p.height = s.f (F.ING_IN_SIZE_H i)) (hfmt : p.chroma422 = (s.f (F.ING_IN_CTL_FMT i) == 0))
    (hdepth : p.depth10 = (s.f (F.ING_IN_CTL_DEPTH i) == 1)) (hconc : p.concealed = false) :
    s.pictureDecision i = (State.pictureAccepted { s with clk := q } i p.src).inputNext i := by
  have hread (y : Fld) : State.f { s with clk := q } y = s.f y := rfl
  have hctx (x : Nat) : State.ctx { s with clk := q } x = s.ctx x := rfl
  have hspan : State.ctxDivisor { s with clk := q } i = s.ctxDivisor i := rfl
  have hfits : (p.width == s.f (F.ING_IN_SIZE_W i) && p.height == s.f (F.ING_IN_SIZE_H i) && p.chroma422 == (s.f (F.ING_IN_CTL_FMT i) == 0) &&
      p.depth10 == (s.f (F.ING_IN_CTL_DEPTH i) == 1)) = true := by
    simp only [hw, hh, hfmt, hdepth, BEq.rfl, Bool.and_self]
  simp only [State.pictureDecision, hrun, hsrc, inputLatch_of_latched hlatched, hpos, hread, hctx, hspan, hpics, List.filter_cons, List.filter_nil, hfrom, hto,
    hdone, decide_true, Bool.and_self, if_true, List.getLast?_singleton, hfits, hconc, Bool.not_true, Bool.or_self, Bool.false_and,
    Bool.false_eq_true, if_false]
  rfl

/-- DECODED_PICTURE_DECISION, of a picture that fits. -/
theorem decodedPictureDecision_completes {s : State} {i x : Nat} {q : Clock} {p : DecPic} (hi : i < 64) (hrun : s.on (F.ING_IN_STATUS_RUN i) = true)
    (hsrc : s.on (F.ING_IN_CTL_SRC i) = true) (hpos : s.begin.toPos 4 ((s.inp i).startV + (s.inp i).org) = some { s.begin with clk := q })
    (hx : s.f (F.ING_IN_CTL_DEC_CTX i) = x) (hpics : (s.ctx x).pics = [p]) (hlatched : (s.inp i).latched = true) (hstop : (s.inp i).stopV = none)
    (hfrom : p.frame ≤ (s.inp i).idx) (hto : (s.inp i).idx < p.frame + (s.ctxDivisor i).getD 1) (hdone : p.doneV < (s.inp i).startV + (s.inp i).org)
    (hw : p.width = s.f (F.ING_IN_SIZE_W i)) (hh : p.height = s.f (F.ING_IN_SIZE_H i)) (hfmt : p.chroma422 = (s.f (F.ING_IN_CTL_FMT i) == 0))
    (hdepth : p.depth10 = (s.f (F.ING_IN_CTL_DEPTH i) == 1)) (hconc : p.concealed = false) (hjit : (s.inp i).jitMin = none)
    (hactive : s.active (fnEnc (s.f (F.ING_IN_CTL_CH i))) = true) :
    Completes (.decodedPictureDecision i) s fun t => ((t.inp i).prev).map (fun c => (c.base, c.subst, c.conc)) = some (.decoded p.src, false, false) ∧
      (t.inp i).startV = (({ s with clk := q } : State).chanFrom (s.f (F.ING_IN_CTL_CH i)) ((s.inp i).startV + 1)).2 ∧
      t.rdn (R.ING_IN_LINES_OK i) = (s.rdn (R.ING_IN_LINES_OK i) + s.f (F.ING_IN_SIZE_H i)) % 2 ^ 32 ∧ t.clk = q ∧
      Keeps [R.ING_IN_LINES_OK i, R.ING_IN_STATUS i] [] [.ing, .clk] s t := by
  subst hx
  have hdecide := pictureDecision_of_fit (s := s.begin) hrun hsrc hlatched hpos hpics hfrom hto hdone hw hh hfmt hdepth hconc
  have hclk := frame_clk s.begin q
  have haccept := frame_pictureAccepted { s.begin with clk := q } i p.src
  have hinp := inp_pictureAccepted { s.begin with clk := q } i p.src
  have hch : (State.pictureAccepted { s.begin with clk := q } i p.src).f (F.ING_IN_CTL_CH i) = s.f (F.ING_IN_CTL_CH i) := haccept.f_eq (by simp)
  obtain ⟨su, fu, co, la, lb, hnext⟩ := inputNext_of_running (s := State.pictureAccepted { s.begin with clk := q } i p.src) (i := i)
    (by rw [hinp]; exact hjit) (by rw [hinp]; exact hstop) (by rw [hch]; exact hactive)
  have hflags := frame_inputFlags (State.pictureAccepted { s.begin with clk := q } i p.src) i su fu co la lb
  have hgo := frame_inputAdvanced ((State.pictureAccepted { s.begin with clk := q } i p.src).inputFlags i su fu co la lb) i (s.f (F.ING_IN_CTL_CH i))
  rw [hch] at hnext
  have htiming := (haccept.trans hflags).sameTiming (by decide) (by decide)
    (by simp only [List.cons_append, List.nil_append, List.mem_cons, List.not_mem_nil, or_false, forall_eq_or_imp, forall_eq, R.ING_IN_LINES_OK,
          R.ING_IN_STATUS]; omega)
  refine completes_of_frame (op := (·.idx i 64 (·.pictureDecision i))) rfl ((idx_of_lt hi).trans (hdecide.trans hnext))
    ((((hclk.trans haccept).trans hflags).trans hgo).mono (by simp) (by simp) (by simp))
    (.inl ((inputAdvanced_evNow _ i _).trans ((inputFlags_evNow _ i su fu co la lb).trans (pictureAccepted_evNow _ i p.src)))) fun hkeeps =>
      ⟨?_, ?_, ?_, (finish_clk _).trans (((haccept.trans hflags).trans hgo).part (p := .clk) (by decide)), hkeeps⟩
  · rw [inp_finish, prev_inputAdvanced, hflags.inp_eq (by decide), hinp]
    rfl
  · rw [inp_finish, startV_inputAdvanced, hflags.inp_eq (by decide), hinp, htiming.chanFrom_eq]
    rfl
  · rw [rdn_finish, (hflags.trans hgo).rdn_eq (by simp), rdn_pictureAccepted]
    rfl

/-- Settles O13, clause by clause. -/
theorem ingestInputCommandsComplete : Obligations.IngestInputCommandsComplete := by
  unfold Obligations.IngestInputCommandsComplete
  exact ⟨fun _ _ => inputEnable_completes, fun _ _ _ _ _ _ => inputStart_completes,
    fun _ _ _ _ _ _ hi hrun hsrc hline _ => acceptanceWindowClose_completes hi hrun hsrc hline, fun _ _ _ _ _ _ => inputRestart_completes,
    fun _ _ => decodeContextEnable_completes, fun _ _ _ _ => accessUnitStart_completes,
    fun _ _ _ _ hx hunit hready hroom hsupported herror hslice hlost hirap _ _ =>
      accessUnitDecoded_completes hx hunit hready hroom hsupported herror hslice hlost hirap,
    fun _ _ _ _ _ hi hrun hsrc _ => decodedPictureDecision_completes hi hrun hsrc⟩

end Sys2Proof.Machine
end

section
/-!
PROOFS. Why a COMMIT on a channel that is OFF need not make its set current (R108, R109, R114): a video layer whose source comes too late is refused there
too.
-/

namespace Sys2Proof.Machine

/-! ## A commit of a layer that is not available (R114) -/

/-- One set that may be in force and is not available with one warp that may govern fails the checks of the whole channel (R114). -/
theorem compAdmit_of_late {s : State} {c w g : Nat} {v warp : SetVal} (hg : g < 4) (hv : v ∈ (s.cmp c).vals g) (hwarp : warp ∈ (s.cmp c).vals 8)
    (hlate : s.layerReady c g v warp.en = false) : s.compAdmit c w = false := by
  rw [State.compAdmit, Bool.and_eq_false_iff]
  refine .inr (List.all_eq_false.mpr ⟨g, List.mem_range.mpr hg, ?_⟩)
  intro hall
  have hready := List.all_eq_true.mp (List.all_eq_true.mp hall v hv) warp hwarp
  rw [hlate] at hready
  exact Bool.noConfusion hready

/-- A COMMIT of a layer that is not available with the warp in force is refused, whether or not the channel is OFF (R109, R114). -/
theorem commit_of_late {s : State} {c j : Nat} (fence : Option Nat) (hj : j < 4)
    (hlate : s.layerReady c j (s.pendRegs c j) ((s.cmp c).current 8).en = false) : s.commit c j fence = s.refuse 0x07 := by
  have hadmit (p : PendSet) (hp : p.val = s.pendRegs c j) (n : Nat) :
      (s.setCmp c { (s.cmp c).setPend j (some p) with commits := n }).compAdmit c 32 = false := by
    have hcmp : (s.setCmp c { (s.cmp c).setPend j (some p) with commits := n }).cmp c = { (s.cmp c).setPend j (some p) with commits := n } :=
      Tab.get_put_same _ _ _ _
    refine compAdmit_of_late (g := j) (v := s.pendRegs c j) (warp := (s.cmp c).current 8) hj ?_ ?_ hlate
    · rw [hcmp]
      simp [CompCh.vals, CompCh.pendOf, CompCh.setPend, hp]
    · rw [hcmp]
      exact List.mem_cons_self
  simp [State.commit, hadmit]

/-- The fields of a COMMIT register: FENCE, USE_FENCE, COMMIT, CANCEL (R128). -/
def commitFields : List FieldDef := [⟨7, 0, .wo, false, .any⟩, ⟨8, 8, .wo, false, .any⟩, ⟨9, 9, .wo, false, .any⟩, ⟨10, 10, .wo, false, .any⟩]

/-- COMMIT without a fence of layer 0 of channel 5 reaches the composition of that channel. -/
theorem busWrite_commitLayer {s : State} (hd : s.dark = false) : s.busWrite .pcie (commitAddr 5 0) 0x200 4 = s.commit 5 0 none := by
  have hrow : regDef (commitAddr 5 0) = some ⟨0x72020, [(1024, 32), (128, 8)], 0x0, false, commitFields⟩ := rfl
  have hword (old : Nat) : BitVec.ofNat 32 (mergeWord true commitFields old (0x200 : Word).toNat) = 0x200 := by
    simp [mergeWord, commitFields, fieldNew, bitsOf]
  have hunit (raw : Word) : s.unitReg .pcie (commitAddr 5 0) 0x200 raw = some (s.commitWrite 5 0 (0x200 : Word).toNat) := rfl
  refine (busWrite_reg _ (by decide) hd (by decide) (by decide)).trans (regWrite_unit hrow rfl (fieldsOk_any rfl _ _) (by decide) (by decide) ?_)
  rw [hword, hunit]
  rfl

/-- Where layer 0 of channel 5 is not available, its COMMIT leaves composition as it was (R109, R114). -/
theorem commitLayer_late_completes {s : State} (hd : s.dark = false)
    (hlate : s.begin.layerReady 5 0 (s.begin.pendRegs 5 0) ((s.begin.cmp 5).current 8).en = false) :
    Completes (.commit 5 0 none) s fun t => t.comp = s.comp := by
  have hop := (busWrite_commitLayer (s := s.begin) hd).trans (commit_of_late none (by decide) hlate)
  exact run_of (op := fun s => s.idx 5 32 fun s => s.idx 0 9 fun s => s.busWrite .pcie (commitAddr 5 0) (commitWord none) 4) hop rfl rfl rfl

/-- Layer 0 of channel 5, which is OFF, is to show input 3 from the first line on. Both have lines of the same length, but the origin of the input lies one
line of the Meridian after that of the channel. -/
def lateLayer : State :=
  let channel := (((State.reset.setF (F.ENC_CH_SIZE_W 5) 64).setF (F.ENC_CH_SIZE_H 5) 128).setF (F.MER_CH_LINES_L_C 5) 150).setF (F.COMP_CH_CANVAS_H 5) 128
  let input := (((channel.setF (F.ING_IN_CTL_CH 3) 5).setF (F.ING_IN_SIZE_W 3) 64).setF (F.ING_IN_SIZE_H 3) 128).setF (F.ING_IN_LINES_L_IN 3) 150
  ((input.wrn (R.ING_IN_ORIGIN 3) 65536).wrn (R.COMP_CH_L_CTL 5 0) 0x3001).wrn (R.COMP_CH_L_SRC_WH 5 0) 0x800040

/-- The layer keeps its own rules (R107). -/
theorem lateLayer_ownRules : lateLayer.begin.setOk 5 0 (lateLayer.begin.pendRegs 5 0) = true := by decide +kernel

/-- Line 0 of the input is ready one line of the Meridian after it is due (R114). -/
theorem lateLayer_late : lateLayer.begin.layerReady 5 0 (lateLayer.begin.pendRegs 5 0) ((lateLayer.begin.cmp 5).current 8).en = false := by
  decide +kernel

theorem lateLayer_notDark : lateLayer.dark = false := by decide +kernel

/-- Refutes O14 by its clause of COMMIT: the clause asks for the own rules of the set alone, but a commit is also refused where it fails the checks of fetch
(R108) and of availability (R114), on a channel that is OFF as on any other. -/
theorem not_compositionSetCommandsComplete : ¬ Obligations.CompositionSetCommandsComplete := by
  unfold Obligations.CompositionSetCommandsComplete
  rintro ⟨-, hCommit, -⟩
  obtain ⟨t, ht, hhist, -⟩ := hCommit lateLayer 5 0 none (by simp) lateLayer_notDark (by decide) (by decide) rfl rfl rfl lateLayer_ownRules
  obtain ⟨u, hu, hcomp⟩ := commitLayer_late_completes lateLayer_notDark lateLayer_late
  obtain rfl : t = u := Host.Outcome.next.inj (ht.symm.trans hu)
  have hnone : (t.cmp 5).histOf 0 = [] := by
    rw [State.cmp, hcomp]
    rfl
  rw [hnone] at hhist
  exact List.cons_ne_nil _ _ hhist.symm

end Sys2Proof.Machine
end

section
/-!
PROOFS. The end of an encode channel's drain (R149) and the inputs that the channel times (R90).
-/

namespace Sys2Proof.Machine

/-! ## A channel that enters OFF while an input runs by it -/

/-- Channel 5 drains and holds nothing more to release; input 3, which it times, runs in the frame that started at position 0. -/
def drainingWithInput : State :=
  { ((State.reset.setF (F.ING_IN_CTL_EN 3) 1).setF (F.ING_IN_CTL_CH 3) 5).setF (F.ING_IN_STATUS_RUN 3) 1 with fns := [(fnEnc 5, .draining)] }

/-- The input has not been told to stop. -/
theorem drainingWithInput_runs : (drainingWithInput.inp 3).stopV = none := rfl

/-- Where channel 5 enters OFF, the input is to stop at the end of the frame in progress (R90). -/
theorem drainingWithInput_stops {t : State} (h : exec (.channelDrained 5) drainingWithInput = .next t) :
    (t.inp 3).stopV = some drainingWithInput.clk.vpos := by
  have hrun : (match exec (.channelDrained 5) drainingWithInput with | .next t => (t.inp 3).stopV | _ => none) =
      some drainingWithInput.clk.vpos := by decide +kernel
  rwa [h] at hrun

/-- Refutes O18 by its clause of CHANNEL_DRAINED: the clause keeps the units of ingest as they were, but a channel that enters OFF also stops the inputs
that it times (R90), so that they change where such an input runs. -/
theorem not_channelStartCommandsComplete : ¬ Obligations.ChannelStartCommandsComplete := by
  unfold Obligations.ChannelStartCommandsComplete
  rintro ⟨-, -, -, -, -, hDrained⟩
  obtain ⟨t, ht, -, -, -, -, -, -, -, -, hkeeps⟩ :=
    hDrained drainingWithInput 5 (by decide) rfl rfl rfl rfl (by decide +kernel) (by decide)
  obtain ⟨-, -, -, -, hparts⟩ := hkeeps
  have hing : t.ing = drainingWithInput.ing := hparts .ing (by decide)
  have hruns : (t.inp 3).stopV = none := by
    rw [State.inp, hing]
    exact drainingWithInput_runs
  rw [drainingWithInput_stops ht] at hruns
  exact Option.some_ne_none _ hruns

end Sys2Proof.Machine
end

section
/-!
SUPPORT. Encode channels, jobs and the Logbook after updates: rows and pictures of a channel whose rows change, what an operation writes into HBM beside
its frame, and which bytes the reconstruction and the Logbook take.
-/

namespace Sys2Proof.Machine

/-! ## Channels and jobs after updates -/

@[simp] theorem encCh_begin (s : State) (n : Nat) : s.begin.encCh n = s.encCh n := rfl
@[simp] theorem encCh_finish (s : State) (n : Nat) : s.finish.encCh n = s.encCh n := rfl
@[simp] theorem encCh_setEnc_same (s : State) (n : Nat) (x : EncCh) : (s.setEnc n x).encCh n = x := Tab.get_put_same _ _ n x

@[simp] theorem job_finish (s : State) (j : Nat) : s.finish.job j = s.job j := rfl
@[simp] theorem job_setEnc (s : State) (n : Nat) (x : EncCh) (j : Nat) : (s.setEnc n x).job j = s.job j := rfl
@[simp] theorem job_setJob_same (s : State) (j : Nat) (b : Option Job) : (s.setJob j b).job j = b := Tab.get_put_same _ _ j b

theorem frame_setEnc (s : State) (n : Nat) (x : EncCh) : Frame [] [] [.enc] s (s.setEnc n x) := by
  refine ⟨fun _ _ => rfl, fun _ _ => rfl, rfl, rfl, fun p hp => ?_⟩
  cases p
  case enc => simp at hp
  all_goals rfl

theorem frame_dis (s : State) (d : DisSt) : Frame [] [] [.dis] s { s with dis := d } := by
  refine ⟨fun _ _ => rfl, fun _ _ => rfl, rfl, rfl, fun p hp => ?_⟩
  cases p
  case dis => simp at hp
  all_goals rfl

theorem frame_setJob (s : State) (j : Nat) (b : Option Job) : Frame [] [] [.dis] s (s.setJob j b) := frame_dis s _

theorem frame_setLastPipe (s : State) (b : Job) (p : Option Nat) : Frame [] [] [.dis] s (s.setLastPipe b p) := frame_dis s _

/-- While tracking is disabled, nothing is tracked (R211). -/
theorem trk_off {s : State} (h : s.on F.DIS_TRK_CTL_EN = false) (kind pipe : Nat) (warm : Bool) (j : Option Job) (detail : Nat) :
    s.trk kind pipe warm j detail = s := by
  simp [State.trk, h]

section
variable {regs fns : List Nat} {parts : List Part} {s t : State}

theorem Frame.encCh_eq (h : Frame regs fns parts s t) (hp : .enc ∉ parts) (n : Nat) : t.encCh n = s.encCh n := by
  have henc : t.enc = s.enc := h.part hp
  rw [State.encCh, State.encCh, henc]

theorem Frame.job_eq (h : Frame regs fns parts s t) (hp : .dis ∉ parts) (j : Nat) : t.job j = s.job j := by
  have hdis : t.dis = s.dis := h.part hp
  rw [State.job, State.job, hdis]

theorem Frame.lbAddr_eq (h : Frame regs fns parts s t) (hlo : R.DIS_LB_ADDR_LO ∉ regs) (hhi : R.DIS_LB_ADDR_HI ∉ regs) : t.lbAddr = s.lbAddr := by
  rw [State.lbAddr, State.lbAddr, State.rd64, State.rd64, h.rdn_eq hlo, h.rdn_eq hhi]

end

/-! ## Rows and pictures of a channel -/

/-- A picture after a change of its rows of number `rho`. -/
def PicSt.mapRow (p : PicSt) (rho : Nat) (g : RowSt → RowSt) : PicSt := { p with rows := p.rows.map (fun r => if r.rho = rho then g r else r) }

theorem EncCh.mapRow_eq (x : EncCh) (rho : Nat) (g : RowSt → RowSt) : x.mapRow rho g = { x with pics := x.pics.map (fun p => p.mapRow rho g) } := rfl

theorem EncCh.rows_mapRow (x : EncCh) (rho : Nat) (g : RowSt → RowSt) :
    (x.mapRow rho g).rows = x.rows.map (fun r => if r.rho = rho then g r else r) := by
  rw [EncCh.mapRow_eq, EncCh.rows, EncCh.rows, List.map_flatMap, List.flatMap_map]
  rfl

section
variable {g : RowSt → RowSt} (hg : ∀ r, (g r).rho = r.rho)
include hg

theorem rho_mapped (rho : Nat) (r : RowSt) : (if r.rho = rho then g r else r).rho = r.rho := by
  split
  · exact hg r
  · rfl

/-- The first row of number `rho`, after a change of the rows of that number. -/
theorem EncCh.find_row_mapRow {x : EncCh} {rho : Nat} (h : ∃ r ∈ x.rows, r.rho = rho) :
    ∃ r, (x.mapRow rho g).rows.find? (fun y => y.rho == rho) = some (g r) := by
  obtain ⟨r, hmem, hrho⟩ := h
  have hsome : (x.rows.find? (fun y => y.rho == rho)).isSome = true := List.find?_isSome.mpr ⟨r, hmem, by simp [hrho]⟩
  obtain ⟨r', hr'⟩ := Option.isSome_iff_exists.mp hsome
  have hrho' : r'.rho = rho := by simpa using List.find?_some hr'
  have hpred : (fun y : RowSt => y.rho == rho) ∘ (fun r => if r.rho = rho then g r else r) = fun y => y.rho == rho :=
    funext fun r => by rw [Function.comp, rho_mapped hg]
  refine ⟨r', ?_⟩
  rw [EncCh.rows_mapRow, List.find?_map, hpred, hr', Option.map_some, if_pos hrho']

/-- The picture of a row, after a change of rows. -/
theorem EncCh.picOf_mapRow (x : EncCh) (rho k : Nat) : (x.mapRow rho g).picOf k = (x.picOf k).map (fun p => p.mapRow rho g) := by
  have hpred : (fun p : PicSt => p.rows.any (fun r => r.rho == k)) ∘ (fun p : PicSt => p.mapRow rho g) = fun p => p.rows.any (fun r => r.rho == k) := by
    funext p
    simp only [Function.comp_apply, PicSt.mapRow, List.any_map]
    exact congrArg p.rows.any (funext fun r => by rw [Function.comp, rho_mapped hg])
  rw [EncCh.mapRow_eq, EncCh.picOf, EncCh.picOf, List.find?_map, hpred]

end

/-- A row of the picture of a row number. -/
theorem EncCh.row_of_picOf {x : EncCh} {rho : Nat} {p : PicSt} (h : x.picOf rho = some p) : ∃ r ∈ x.rows, r.rho = rho := by
  unfold EncCh.picOf at h
  have hrows := List.find?_some h
  obtain ⟨r, hmem, hrho⟩ := List.any_eq_true.mp hrows
  exact ⟨r, List.mem_flatMap.mpr ⟨p, List.mem_of_find?_eq_some h, hmem⟩, by simpa using hrho⟩

/-! ## What an operation writes into HBM -/

theorem KeepsMem.refl (ranges : List (Nat × Nat)) (s : State) : KeepsMem ranges s s := fun _ _ _ => rfl

theorem KeepsMem.trans {ranges : List (Nat × Nat)} {s t u : State} (h₁ : KeepsMem ranges s t) (h₂ : KeepsMem ranges t u) : KeepsMem ranges s u :=
  fun b hb hout => (h₂ b hb hout).trans (h₁ b hb hout)

/-- Ranges that reach further keep less. -/
theorem KeepsMem.widen {r₁ r₂ : List (Nat × Nat)} {s t : State} (h : KeepsMem r₁ s t)
    (hsub : ∀ x ∈ r₁, ∃ y ∈ r₂, y.1 ≤ x.1 ∧ x.1 + x.2 ≤ y.1 + y.2) : KeepsMem r₂ s t := by
  refine fun b hb hout => h b hb fun x hx => ?_
  obtain ⟨y, hy, hlo, hhi⟩ := hsub x hx
  have := hout y hy
  omega

/-- What the operation of a command keeps, the command keeps. -/
theorem KeepsMem.command {ranges : List (Nat × Nat)} {s u : State} (h : KeepsMem ranges s.begin u) : KeepsMem ranges s u.finish := h

theorem Frame.keepsMem {regs fns : List Nat} {parts : List Part} {s t : State} (h : Frame regs fns parts s t) (hp : .mem ∉ parts)
    (ranges : List (Nat × Nat)) : KeepsMem ranges s t := by
  have hmem : t.hbm.mem = s.hbm.mem := h.part hp
  intro b _ _
  rw [State.hbmByte, State.hbmByte, hmem]

/-- An operation that raises no event and changes `parts` alone, of the bytes of HBM only those of `ranges`. -/
def Writes (parts : List Part) (ranges : List (Nat × Nat)) (s t : State) : Prop :=
  Frame [] [] parts s t ∧ t.evNow = s.evNow ∧ KeepsMem ranges s t

section
variable {parts : List Part} {ranges : List (Nat × Nat)} {s t u : State}

theorem Writes.frame (h : Writes parts ranges s t) : Frame [] [] parts s t := h.1
theorem Writes.evNow (h : Writes parts ranges s t) : t.evNow = s.evNow := h.2.1
theorem Writes.keepsMem (h : Writes parts ranges s t) : KeepsMem ranges s t := h.2.2

theorem Writes.refl (parts : List Part) (ranges : List (Nat × Nat)) (s : State) : Writes parts ranges s s :=
  ⟨(Frame.refl s).mono (by simp) (by simp) (by simp), rfl, KeepsMem.refl _ s⟩

theorem Writes.trans (h₁ : Writes parts ranges s t) (h₂ : Writes parts ranges t u) : Writes parts ranges s u :=
  ⟨(h₁.frame.trans h₂.frame).mono (by simp) (by simp) (by simp), h₂.evNow.trans h₁.evNow, h₁.keepsMem.trans h₂.keepsMem⟩

theorem Writes.mono {p₂ : List Part} {r₂ : List (Nat × Nat)} (h : Writes parts ranges s t) (hp : parts ⊆ p₂)
    (hr : ∀ x ∈ ranges, ∃ y ∈ r₂, y.1 ≤ x.1 ∧ x.1 + x.2 ≤ y.1 + y.2) : Writes p₂ r₂ s t :=
  ⟨h.frame.mono (by simp) (by simp) hp, h.evNow, h.keepsMem.widen hr⟩

/-- The same, where the ranges stay as they are. -/
theorem Writes.mono_parts {p₂ : List Part} (h : Writes parts ranges s t) (hp : parts ⊆ p₂) : Writes p₂ ranges s t :=
  h.mono hp fun x hx => ⟨x, hx, Nat.le_refl _, Nat.le_refl _⟩

/-- An operation that writes no byte of HBM. -/
theorem Frame.writes (h : Frame [] [] parts s t) (hev : t.evNow = s.evNow) (hp : .mem ∉ parts) (ranges : List (Nat × Nat)) :
    Writes parts ranges s t := ⟨h, hev, h.keepsMem hp ranges⟩

/-- Operations in turn, one for each member of a list, each judged in a state that those before it left. -/
theorem Writes.foldl {α : Type} {op : State → α → State} {l : List α} (h : ∀ t, Writes parts ranges s t → ∀ x ∈ l, Writes parts ranges t (op t x)) :
    Writes parts ranges s (l.foldl op s) := by
  have hfrom (t : State) (ht : Writes parts ranges s t) : Writes parts ranges s (l.foldl op t) := by
    induction l generalizing t with
    | nil => exact ht
    | cons x r ih =>
      exact ih (fun u hu y hy => h u hu y (List.mem_cons_of_mem _ hy)) (op t x) (ht.trans (h t ht x List.mem_cons_self))
  exact hfrom s (Writes.refl _ _ s)

end

theorem writes_hbmPut (s : State) {a n : Nat} (v : Nat) (h : a + n ≤ 2 ^ 38) : Writes [.hbm, .mem] [(a, n)] s (s.hbmPut a v n) := by
  rw [hbmPut_eq_putBytes]
  refine ⟨frame_hbmPutBytes _ s a, hbmPutBytes_evNow _ s a, fun b hb hout => ?_⟩
  exact hbmByte_hbmPutBytes_ne _ s a b hb (by simpa using h) (by simpa using hout _ (List.mem_singleton.mpr rfl))

/-- Words written one after another from a place that the writes leave where it is. -/
theorem writes_putWords {s : State} {place : State → Nat} (l : List Nat) (hplace : ∀ t, Frame [] [] [.hbm, .mem] s t → place t = place s)
    (hfit : place s + 4 * l.length ≤ 2 ^ 38) :
    Writes [.hbm, .mem] [(place s, 4 * l.length)] s (l.zipIdx.foldl (fun t e => t.hbmPut (place t + 4 * e.2) e.1 4) s) := by
  refine Writes.foldl fun t ht e he => ?_
  have hidx : e.2 < l.length := List.snd_lt_of_mem_zipIdx he
  rw [hplace t ht.frame]
  refine (writes_hbmPut t e.1 (by omega)).mono (List.Subset.refl _) fun x hx => ⟨_, List.mem_singleton.mpr rfl, ?_⟩
  rw [List.mem_singleton.mp hx]
  dsimp only
  omega

/-! ## The Logbook (R205, R207) -/

/-- The Logbook ends within the memory. -/
theorem lbAddr_fits {s : State} (h : oneStack s.lbAddr 0x1401000 = true) : s.lbAddr + 0x1401000 ≤ 2 ^ 38 := by
  simp only [oneStack, Bool.and_eq_true, Bool.or_eq_true, decide_eq_true_eq, beq_iff_eq] at h
  omega

theorem lbRec_fits {s : State} {j : Nat} (h : oneStack s.lbAddr 0x1401000 = true) (hj : j < 262144) : s.lbRec j + 64 ≤ 2 ^ 38 := by
  have := lbAddr_fits h
  rw [State.lbRec]
  omega

theorem Frame.lbRec_eq {regs fns : List Nat} {parts : List Part} {s t : State} (h : Frame regs fns parts s t) (hlo : R.DIS_LB_ADDR_LO ∉ regs)
    (hhi : R.DIS_LB_ADDR_HI ∉ regs) (i : Nat) : t.lbRec i = s.lbRec i := by
  rw [State.lbRec, State.lbRec, h.lbAddr_eq hlo hhi]

/-- A job's state changes, in the Dispatcher and in word 14 of its record. -/
theorem writes_updJob {s : State} {b : Job} (h : s.lbRec b.idx + 64 ≤ 2 ^ 38) :
    Writes [.dis, .hbm, .mem] [(s.lbRec b.idx + 56, 4)] s (s.updJob b) := by
  have hset : Writes [.dis] [(s.lbRec b.idx + 56, 4)] s (s.setJob b.idx (some b)) := (frame_setJob s _ _).writes rfl (by simp) _
  exact (hset.mono_parts (by simp)).trans ((writes_hbmPut _ b.word14 (by omega)).mono_parts (by simp))

@[simp] theorem job_updJob_same (s : State) (b : Job) : (s.updJob b).job b.idx = some b := by
  rw [State.updJob, hbmPut_eq_putBytes, (frame_hbmPutBytes _ _ _).job_eq (by simp), job_setJob_same]

/-- A record of 16 words. -/
theorem writes_writeRecord {s : State} {b : Job} (hlen : b.record.length = 14) (h : s.lbRec b.idx + 64 ≤ 2 ^ 38) :
    Writes [.hbm, .mem] [(s.lbRec b.idx, 64)] s (s.writeRecord b) := by
  have hwords := writes_putWords (s := s) (place := fun t => t.lbRec b.idx) (b.record ++ [b.word14, crcWords b.record])
    (fun t ht => ht.lbRec_eq (by simp) (by simp) _) (by simp [hlen]; omega)
  have hsize : (b.record ++ [b.word14, crcWords b.record]).length = 16 := by simp [hlen]
  rw [hsize] at hwords
  exact hwords

/-- The header holds the next record's index, which DIS_LB_HEAD shows. -/
theorem lbHeader_spec {s : State} {next wraps : Nat} (hnext : next < 262144) (h : s.lbAddr + 16 ≤ 2 ^ 38) :
    ∃ t, Writes [.hbm, .mem] [(s.lbAddr, 16)] s t ∧ s.lbHeader next wraps = t.wrn R.DIS_LB_HEAD next := by
  have hwords := writes_putWords (s := s) (place := State.lbAddr)
    ([0x4C420001, next % 262144, wraps % 2 ^ 32] ++ [crcWords [0x4C420001, next % 262144, wraps % 2 ^ 32]])
    (fun t ht => ht.lbAddr_eq (by simp) (by simp)) h
  refine ⟨_, hwords, ?_⟩
  simp only [State.lbHeader, Nat.mod_eq_of_lt hnext]

/-! ## Stored pictures (R164) -/

/-- A sample of a plane ends within it, where a line of samples fits the pitch. -/
theorem sample_in_plane {x y w h bps pitch : Nat} (hx : x < w) (hy : y < h) (hline : w * bps ≤ pitch) : y * pitch + x * bps + bps ≤ pitch * h :=
  calc y * pitch + x * bps + bps = y * pitch + (x + 1) * bps := by ring
    _ ≤ y * pitch + pitch := Nat.add_le_add_left ((Nat.mul_le_mul_right bps hx).trans hline) _
    _ = (y + 1) * pitch := by ring
    _ ≤ h * pitch := Nat.mul_le_mul_right pitch hy
    _ = pitch * h := Nat.mul_comm _ _

theorem le_ceilDiv_mul {a b : Nat} (hb : 0 < b) : a ≤ ceilDiv a b * b := by
  have hmod := Nat.mod_lt (a + b - 1) hb
  have hdiv := Nat.div_add_mod' (a + b - 1) b
  rw [ceilDiv]
  omega

/-- The planes of a stored picture: a line of samples fits the pitch, and the last plane ends within the picture's bytes. -/
theorem planeOf_fits (w h chroma depth : Nat) {comp : Nat} (hcomp : comp < 3) :
    (planeOf w h chroma depth comp).2.2.1 * (if depth = 0 then 1 else 2) ≤ (planeOf w h chroma depth comp).2.1 ∧
      (planeOf w h chroma depth comp).1 + (planeOf w h chroma depth comp).2.1 * (planeOf w h chroma depth comp).2.2.2 ≤ picBytes w h chroma depth := by
  have hwidth : (if chroma = 2 then w else w / 2) = w / subX chroma := by
    unfold subX
    split <;> simp
  have hheight : (if chroma = 0 then h / 2 else h) = h / subY chroma := by
    unfold subY
    split <;> simp
  have hround := le_ceilDiv_mul (a := ceilDiv (w * if depth = 0 then 1 else 2) 256 * 256 * h +
    2 * (ceilDiv (w / subX chroma * if depth = 0 then 1 else 2) 256 * 256 * (h / subY chroma))) (b := 4096) (by decide)
  simp only [planeOf, picBytes, hwidth, hheight]
  split
  case isTrue => exact ⟨le_ceilDiv_mul (by decide), by dsimp only; omega⟩
  case isFalse hne =>
    have hsecond : (comp - 1) * (ceilDiv (w / subX chroma * if depth = 0 then 1 else 2) 256 * 256 * (h / subY chroma)) ≤
        ceilDiv (w / subX chroma * if depth = 0 then 1 else 2) 256 * 256 * (h / subY chroma) :=
      (Nat.mul_le_mul_right _ (by omega : comp - 1 ≤ 1)).trans_eq (Nat.one_mul _)
    exact ⟨le_ceilDiv_mul (by decide), by dsimp only; omega⟩

/-- The scale of a component across and down: the luma samples that one of its samples stands for. -/
def State.scale (s : State) (n comp : Nat) : Nat × Nat :=
  (if comp = 0 then 1 else subX (s.f (F.ENC_CH_FORMAT_CHROMA n)), if comp = 0 then 1 else subY (s.f (F.ENC_CH_FORMAT_CHROMA n)))

theorem planeOf_size (w h chroma depth comp : Nat) : (planeOf w h chroma depth comp).2.2 =
    (w / (if comp = 0 then 1 else subX chroma), h / (if comp = 0 then 1 else subY chroma)) := by
  unfold planeOf
  dsimp only
  split <;> simp

/-- A sample of a stored picture lies in its buffer. -/
theorem refAt_in_buffer (s : State) (n buf : Nat) {comp x y : Nat} (hcomp : comp < 3) (hx : x < s.f (F.ENC_CH_SIZE_W n) / (s.scale n comp).1)
    (hy : y < s.f (F.ENC_CH_SIZE_H n) / (s.scale n comp).2) :
    s.bufAddr n buf ≤ s.refAt n buf comp y x ∧ s.refAt n buf comp y x + s.refBps n ≤ s.bufAddr n buf + s.encPicBytes n := by
  obtain ⟨hline, hend⟩ := planeOf_fits (s.f (F.ENC_CH_SIZE_W n)) (s.f (F.ENC_CH_SIZE_H n)) (s.f (F.ENC_CH_FORMAT_CHROMA n))
    (s.f (F.ENC_CH_FORMAT_DEPTH n)) hcomp
  have hsize := planeOf_size (s.f (F.ENC_CH_SIZE_W n)) (s.f (F.ENC_CH_SIZE_H n)) (s.f (F.ENC_CH_FORMAT_CHROMA n))
    (s.f (F.ENC_CH_FORMAT_DEPTH n)) comp
  rw [hsize] at hline hend
  have hsample := sample_in_plane hx hy hline
  simp only [State.refAt, State.refPlane, State.refBps, State.encPicBytes, State.scale] at *
  omega

section
variable {regs fns : List Nat} {parts : List Part} {s t : State}

/-- A frame that leaves a channel's registers and its reference region alone leaves the stored pictures where they are. -/
theorem Frame.buffers_eq (h : Frame [] [] parts s t) (hp : .enc ∉ parts) (n buf : Nat) :
    t.bufAddr n buf = s.bufAddr n buf ∧ t.encPicBytes n = s.encPicBytes n := by
  have hsize : t.encPicBytes n = s.encPicBytes n := by
    simp only [State.encPicBytes, h.f_eq (List.not_mem_nil)]
  have hregion : t.refAddr n = s.refAddr n := by
    simp only [State.refAddr, h.encCh_eq hp, State.refReg, State.rd64, h.rdn_eq (List.not_mem_nil)]
  exact ⟨by rw [State.bufAddr, State.bufAddr, hsize, hregion], hsize⟩

end

/-- A box of samples is written into its buffer alone. -/
theorem writes_putSamples {s : State} {n buf : Nat} {b : Box} (v : Nat → Nat → Nat → Nat) (hfit : s.bufAddr n buf + s.encPicBytes n ≤ 2 ^ 38)
    (hx : b.x0 < b.x1 → b.x1 ≤ s.f (F.ENC_CH_SIZE_W n)) (hy : b.y1 ≤ s.f (F.ENC_CH_SIZE_H n)) :
    Writes [.hbm, .mem] [(s.bufAddr n buf, s.encPicBytes n)] s (s.putSamples n buf b v) := by
  refine Writes.foldl fun t ht comp hcomp => Writes.foldl fun u hu j hj => Writes.foldl fun w hw i hi => ?_
  rw [List.mem_range] at hcomp hj hi
  have hframe := (ht.trans (hu.trans hw)).frame
  obtain ⟨hbuf, hbytes⟩ := hframe.buffers_eq (by simp) n buf
  have hscale : t.scale n comp = w.scale n comp := by
    simp only [State.scale, (hu.trans hw).frame.f_eq (List.not_mem_nil)]
  have hright : b.x0 / (t.scale n comp).1 + i < b.x1 / (t.scale n comp).1 := Nat.add_lt_of_lt_sub' hi
  have hdown : b.y0 / (t.scale n comp).2 + j < b.y1 / (t.scale n comp).2 := Nat.add_lt_of_lt_sub' hj
  have hne : b.x0 < b.x1 := by
    by_contra hle
    have := Nat.div_le_div_right (c := (t.scale n comp).1) (Nat.le_of_not_lt hle)
    omega
  have hwide : b.x1 / (t.scale n comp).1 ≤ w.f (F.ENC_CH_SIZE_W n) / (w.scale n comp).1 := by
    rw [hscale, hframe.f_eq (List.not_mem_nil)]
    exact Nat.div_le_div_right (hx hne)
  have hhigh : b.y1 / (t.scale n comp).2 ≤ w.f (F.ENC_CH_SIZE_H n) / (w.scale n comp).2 := by
    rw [hscale, hframe.f_eq (List.not_mem_nil)]
    exact Nat.div_le_div_right hy
  obtain ⟨hlo, hhi⟩ := refAt_in_buffer w n buf hcomp (hright.trans_le hwide) (hdown.trans_le hhigh)
  rw [hbuf, hbytes] at hhi
  rw [hbuf] at hlo
  refine (writes_hbmPut w _ (hhi.trans hfit)).mono (List.Subset.refl _) fun x hx => ⟨_, List.mem_singleton.mpr rfl, ?_⟩
  rw [List.mem_singleton.mp hx]
  exact ⟨hlo, hhi⟩

/-! ## The reconstruction of a job (R164) -/

/-- A column of a layout ends within the picture, where it holds any sample. -/
theorem lumaSpans_end (w : Nat) (l : List Nat) (x : Nat) : ∀ e ∈ lumaSpans w x l, e.1 < e.1 + e.2 → e.1 + e.2 ≤ w := by
  induction l generalizing x with
  | nil => simp [lumaSpans]
  | cons c r ih =>
    intro e he hne
    rcases List.mem_cons.mp he with rfl | hmem
    · dsimp only at hne ⊢
      omega
    · exact ih _ e hmem hne

/-- The rectangle of a subpicture lies in the picture, where it holds any sample (R133). -/
theorem subRect_in_picture (s : State) (n row col : Nat) :
    ((s.subRect n row col).x0 < (s.subRect n row col).x1 → (s.subRect n row col).x1 ≤ s.f (F.ENC_CH_SIZE_W n)) ∧
      (s.subRect n row col).y1 ≤ s.f (F.ENC_CH_SIZE_H n) := by
  refine ⟨fun hne => ?_, Nat.min_le_right _ _⟩
  rcases Nat.lt_or_ge col (s.colSpans n).length with hcol | hcol
  · have hspan := List.getD_eq_getElem (s.colSpans n) (0, 0) hcol
    simp only [State.subRect, hspan] at hne ⊢
    exact lumaSpans_end _ _ 0 _ (List.getElem_mem hcol) hne
  · have hspan := List.getD_eq_default (s.colSpans n) (0, 0) hcol
    simp only [State.subRect, hspan, Nat.add_zero, Nat.lt_irrefl] at hne

theorem writes_reconRow {s : State} {n : Nat} {p : PicSt} (r col : Nat) (hfit : s.bufAddr n p.buf + s.encPicBytes n ≤ 2 ^ 38) :
    Writes [.hbm, .mem] [(s.bufAddr n p.buf, s.encPicBytes n)] s (s.reconRow n p r col) := by
  obtain ⟨hright, hbottom⟩ := subRect_in_picture s n r col
  unfold State.reconRow
  dsimp only
  split
  · exact Writes.refl _ _ s
  · exact writes_putSamples _ hfit hright ((Nat.min_le_right _ _).trans hbottom)

/-- The reconstruction of a job is written into the buffer of its picture alone. -/
theorem writes_recon {s : State} {b : Job} {p : PicSt} (hpic : (s.encCh b.ch).picOf b.rho = some p)
    (hfit : s.bufAddr b.ch p.buf + s.encPicBytes b.ch ≤ 2 ^ 38) :
    Writes [.hbm, .mem] [(s.bufAddr b.ch p.buf, s.encPicBytes b.ch)] s (s.recon b) := by
  have hrow {t : State} (ht : Writes [.hbm, .mem] [(s.bufAddr b.ch p.buf, s.encPicBytes b.ch)] s t) (r : Nat) :
      Writes [.hbm, .mem] [(s.bufAddr b.ch p.buf, s.encPicBytes b.ch)] s (t.reconRow b.ch p r b.col) := by
    obtain ⟨hbuf, hbytes⟩ := ht.frame.buffers_eq (by simp) b.ch p.buf
    have hnext := writes_reconRow (s := t) r b.col (by rw [hbuf, hbytes]; exact hfit)
    rw [hbuf, hbytes] at hnext
    exact ht.trans hnext
  simp only [State.recon, hpic]
  split
  · exact hrow (hrow (Writes.refl _ _ s) _) _
  · exact hrow (hrow (hrow (Writes.refl _ _ s) _) _) _

end Sys2Proof.Machine
end

section
/-!
PROOFS. Budgets of rows, stand-ins, released and freed slices (R181, R200-R202).
-/

namespace Sys2Proof.Machine

/-! ## SEQUENCE_FREE (R200) -/

/-- A channel with one picture in flight has the rows of that picture. -/
theorem EncCh.rows_of_one {x : EncCh} {p : PicSt} (h : x.pics = [p]) : x.rows = p.rows := by
  rw [EncCh.rows, h, List.flatMap_singleton]

/-- The last picture in flight stays, so that its row is freed and no job goes. -/
theorem sequenceFree_of_one {s t : State} {n : Nat} {pc : PicSt} {ro : RowSt} (hpics : (s.encCh n).pics = [pc])
    (hrow : pc.rows.find? (fun r => r.released && !r.freed) = some ro) (hpos : s.toPos 8 (ro.rel + s.toFu 72000) = some t)
    (henc : t.encCh n = s.encCh n) : s.sequenceFree n = t.setEnc n ((s.encCh n).mapRow ro.rho (fun r => { r with freed := true })) := by
  have hone : (((s.encCh n).mapRow ro.rho (fun r => { r with freed := true })).pics).length = 1 := by
    rw [EncCh.mapRow_eq, List.length_map, hpics, List.length_singleton]
  simp only [State.sequenceFree, EncCh.rows_of_one hpics, hrow, hpos, henc, hone, Nat.lt_irrefl, decide_false, Bool.and_false, Bool.not_false,
    List.filter_true, List.filter_false, List.flatMap_nil, List.foldl_nil]

/-- SEQUENCE_FREE, with one picture in flight. -/
theorem sequenceFree_completes {s : State} {n : Nat} {ro : RowSt} {pc : PicSt} {q : Clock} (hn : n < 32) (hpics : (s.encCh n).pics = [pc])
    (hrow : pc.rows.find? (fun r => r.released && !r.freed) = some ro)
    (hpos : s.begin.toPos 8 (ro.rel + s.toFu 72000) = some { s.begin with clk := q }) :
    Completes (.sequenceFree n) s fun t => ((t.encCh n).rows.find? (fun x => x.rho == ro.rho)).map (fun x => x.freed) = some true ∧
      (t.encCh n).rows.map (fun x => x.rho) = pc.rows.map (fun x => x.rho) ∧ t.clk = q ∧ Keeps [] [] [.enc, .clk] s t := by
  have hop := sequenceFree_of_one (s := s.begin) hpics hrow hpos rfl
  refine completes_of_frame (op := (·.idx n 32 (·.sequenceFree n))) rfl ((idx_of_lt hn).trans hop)
    (((frame_clk s.begin q).trans (frame_setEnc _ n _)).mono (by simp) (by simp) (by simp)) (.inl rfl) fun hkeeps => ⟨?_, ?_, rfl, hkeeps⟩
  · have hmem : ∃ r ∈ (s.encCh n).rows, r.rho = ro.rho := by
      rw [EncCh.rows_of_one hpics]
      exact ⟨ro, List.mem_of_find?_eq_some hrow, rfl⟩
    obtain ⟨r, hr⟩ := EncCh.find_row_mapRow (g := fun r => { r with freed := true }) (fun _ => rfl) hmem
    rw [encCh_finish, encCh_setEnc_same, encCh_begin, hr, Option.map_some]
  · rw [encCh_finish, encCh_setEnc_same, encCh_begin, EncCh.rows_mapRow, EncCh.rows_of_one hpics, List.map_map]
    exact List.map_congr_left fun r _ => rho_mapped (g := fun r => { r with freed := true }) (fun _ => rfl) _ r

/-! ## SLICE_RELEASE (R201) -/

/-- A port that is still busy takes no packet (R225). -/
theorem pickAll_busy {s : State} (h : (List.range 8).all (fun p => decide (s.clk.ns < (s.eport p).busy)) = true) : s.pickAll = s := by
  have hnone (l : List Nat) (hl : ∀ p ∈ l, s.clk.ns < (s.eport p).busy) : l.foldl State.portPick s = s := by
    induction l with
    | nil => rfl
    | cons p r ih =>
      rw [List.foldl_cons, State.portPick, if_pos (hl p List.mem_cons_self)]
      exact ih fun k hk => hl k (List.mem_cons_of_mem _ hk)
  exact hnone _ (by simpa using h)

/-- A slice of a channel that is not twinned goes to no queue where no flow takes it (R201). -/
theorem releaseSlice_of_no_flow {s : State} {u : SliceUnits} (htwin : s.twinned u.ch = false) (hegs : s.egsAll = [])
    (hbusy : (List.range 8).all (fun p => decide (s.clk.ns < (s.eport p).busy)) = true) : s.releaseSlice u = s := by
  simp only [State.releaseSlice, State.slicePackets, hegs, List.filter_nil, List.foldl_nil, htwin, Bool.not_false, if_true, State.queueSlice,
    List.zipIdx_nil, pickAll_busy hbusy]

section
variable {regs fns : List Nat} {parts : List Part} {s t : State}

theorem Frame.twinned_eq (h : Frame regs fns parts s t) (hrole : R.TWN_STATUS ∉ regs) (hmask : R.TWN_CH_MASK ∉ regs) (c : Nat) :
    t.twinned c = s.twinned c := by
  rw [State.twinned, State.twinned, State.role, State.role, h.f_eq (y := F.TWN_STATUS_ROLE) hrole, h.rdn_eq hmask]

theorem Frame.egsAll_eq (h : Frame regs fns parts s t) (hp : .egs ∉ parts) : t.egsAll = s.egsAll := by
  have hegs : t.egs = s.egs := h.part hp
  rw [State.egsAll, State.egsAll, hegs]

theorem Frame.eport_eq (h : Frame regs fns parts s t) (hp : .egs ∉ parts) (p : Nat) : t.eport p = s.eport p := by
  have hegs : t.egs = s.egs := h.part hp
  rw [State.eport, State.eport, hegs]

end

/-- The job of a released slice, counted by its channel. -/
def State.sliceReleased (s : State) (n : Nat) (b : Job) : State := (s.bump (R.ENC_CH_SLICE_CNT n)).updJob { b with st := .released }

/-- The slice count of a channel is no register of the Dispatcher or of the twin. -/
theorem sliceCnt_lt {n : Nat} (hn : n < 32) : R.ENC_CH_SLICE_CNT n < 0xA0000 := by
  simp only [R.ENC_CH_SLICE_CNT]
  omega

theorem not_mem_sliceCnt {n a : Nat} (hn : n < 32) (ha : 0xA0000 ≤ a) : a ∉ [R.ENC_CH_SLICE_CNT n] := by
  have := sliceCnt_lt hn
  simp only [List.mem_singleton]
  omega

section
variable {s : State} {n : Nat} {b : Job} (hn : n < 32) (hfits : s.lbRec b.idx + 64 ≤ 2 ^ 38)
include hn hfits

theorem writes_sliceReleased : Writes [.dis, .hbm, .mem] [(s.lbRec b.idx + 56, 4)] (s.bump (R.ENC_CH_SLICE_CNT n)) (s.sliceReleased n b) := by
  have hrec : (s.bump (R.ENC_CH_SLICE_CNT n)).lbRec b.idx = s.lbRec b.idx :=
    (frame_bump s _).lbRec_eq (not_mem_sliceCnt hn (by decide)) (not_mem_sliceCnt hn (by decide)) _
  have hupd := writes_updJob (s := s.bump (R.ENC_CH_SLICE_CNT n)) (b := { b with st := .released }) (by rw [hrec]; exact hfits)
  rwa [hrec] at hupd

theorem frame_sliceReleased : Frame [R.ENC_CH_SLICE_CNT n] [] [.dis, .hbm, .mem] s (s.sliceReleased n b) :=
  ((frame_bump s _).trans (writes_sliceReleased hn hfits).frame).mono (by simp) (by simp) (by simp)

theorem keepsMem_sliceReleased : KeepsMem [(s.lbRec b.idx + 56, 4)] s (s.sliceReleased n b) :=
  ((frame_bump s _).keepsMem (by simp) _).trans (writes_sliceReleased hn hfits).keepsMem

theorem rdn_sliceReleased : (s.sliceReleased n b).rdn (R.ENC_CH_SLICE_CNT n) = (s.rdn (R.ENC_CH_SLICE_CNT n) + 1) % 2 ^ 32 := by
  rw [(writes_sliceReleased hn hfits).frame.rdn_eq (List.not_mem_nil), rdn_bump_same]

/-- The release of a job's own slice, where no flow takes it and nothing is tracked. -/
theorem releaseJob_of_done {p : PicSt} (hst : b.st = .done) (htwin : s.twinned n = false) (hegs : s.egsAll = [])
    (hbusy : (List.range 8).all (fun p => decide (s.clk.ns < (s.eport p).busy)) = true) (htrk : s.on F.DIS_TRK_CTL_EN = false) :
    s.releaseJob n p b = s.sliceReleased n b := by
  have hf := frame_sliceReleased hn hfits
  have hclk : (s.sliceReleased n b).clk = s.clk := hf.part (p := .clk) (by simp)
  have hown : b.st ≠ .standIn := by rw [hst]; decide
  have htrk' := hf.on_eq (y := F.DIS_TRK_CTL_EN) (not_mem_sliceCnt hn (by decide))
  rw [State.releaseJob, if_neg hown]
  change ((s.sliceReleased n b).trk _ _ _ _ _).releaseSlice _ = _
  rw [trk_off (htrk'.trans htrk), releaseSlice_of_no_flow]
  · exact (hf.twinned_eq (not_mem_sliceCnt hn (by decide)) (not_mem_sliceCnt hn (by decide)) n).trans htwin
  · exact (hf.egsAll_eq (by simp)).trans hegs
  · simpa only [hclk, hf.eport_eq (by simp : Part.egs ∉ [.dis, .hbm, .mem])] using hbusy

end

/-- Row `rho` of channel `n` is marked as released, at time `q`. -/
def State.rowReleased (s : State) (q : Clock) (n rho : Nat) : State :=
  State.setEnc { s with clk := q } n ((s.encCh n).mapRow rho (fun r => { r with released := true }))

theorem frame_rowReleased (s : State) (q : Clock) (n rho : Nat) : Frame [] [] [.enc, .clk] s (s.rowReleased q n rho) :=
  ((frame_clk s q).trans (frame_setEnc _ n _)).mono (by simp) (by simp) (by simp)

theorem encCh_rowReleased (s : State) (q : Clock) (n rho : Nat) :
    (s.rowReleased q n rho).encCh n = (s.encCh n).mapRow rho (fun r => { r with released := true }) := encCh_setEnc_same _ n _

/-- The next row of a channel that is not twinned releases its one slice. -/
theorem sliceRelease_of_one {s : State} {n j : Nat} {ro : RowSt} {pc : PicSt} {jb : Job} {q : Clock}
    (hrow : (s.encCh n).rows.find? (fun r => !r.released) = some ro) (hbud : ro.budgeted = true) (hcut : (s.encCh n).cut = false)
    (hjobs : ro.jobs = [j]) (hjob : s.job j = some jb) (hst : jb.st = .done) (hpic : (s.encCh n).picOf ro.rho = some pc)
    (hpos : s.toPos 8 ro.rel = some { s with clk := q }) (htwin : ((s.rowReleased q n ro.rho).releaseJob n pc jb).twinned n = false) :
    s.sliceRelease n = (s.rowReleased q n ro.rho).releaseJob n pc jb := by
  have hdone : jb.complete = true := by rw [Job.complete, hst]
  rw [State.rowReleased] at htwin ⊢
  simp [State.sliceRelease, hrow, hbud, hcut, hjobs, hjob, hdone, hpos, hpic, leaving, htwin]

/-- SLICE_RELEASE, of a row with one slice. -/
theorem sliceRelease_completes {s : State} {n j : Nat} {ro : RowSt} {pc : PicSt} {jb : Job} {q : Clock} (hn : n < 32)
    (hrow : (s.encCh n).rows.find? (fun r => !r.released) = some ro) (hbud : ro.budgeted = true) (hcut : (s.encCh n).cut = false)
    (hjobs : ro.jobs = [j]) (hjob : s.job j = some jb) (hidx : jb.idx = j) (hj : j < 262144) (hst : jb.st = .done)
    (hpic : (s.encCh n).picOf ro.rho = some pc) (hpos : s.begin.toPos 8 ro.rel = some { s.begin with clk := q }) (htwin : s.twinned n = false)
    (hegs : s.egsAll = []) (hbusy : (List.range 8).all (fun p => decide (q.ns < (s.eport p).busy)) = true) (htrk : s.on F.DIS_TRK_CTL_EN = false)
    (hlb : oneStack s.lbAddr 0x1401000 = true) :
    Completes (.sliceRelease n) s fun t => ((t.encCh n).rows.find? (fun x => x.rho == ro.rho)).map (fun x => x.released) = some true ∧
      (t.job j).map (fun x => (x.st, x.out)) = some (.released, jb.out) ∧
      t.rdn (R.ENC_CH_SLICE_CNT n) = (s.rdn (R.ENC_CH_SLICE_CNT n) + 1) % 2 ^ 32 ∧ t.clk = q ∧ KeepsMem [(s.lbRec j + 56, 4)] s t ∧
      Keeps [R.ENC_CH_SLICE_CNT n] [] [.enc, .dis, .hbm, .mem, .clk, .fctr] s t := by
  subst hidx
  have hmark := frame_rowReleased s.begin q n ro.rho
  have hfits : (s.begin.rowReleased q n ro.rho).lbRec jb.idx + 64 ≤ 2 ^ 38 := lbRec_fits (s := s) hlb hj
  have hf := frame_sliceReleased hn hfits
  have hrelease : (s.begin.rowReleased q n ro.rho).releaseJob n pc jb = _ := releaseJob_of_done hn hfits hst htwin hegs hbusy htrk
  have hstill := (hf.twinned_eq (not_mem_sliceCnt hn (by decide)) (not_mem_sliceCnt hn (by decide)) n).trans htwin
  rw [← hrelease] at hstill
  have hop := (sliceRelease_of_one (s := s.begin) hrow hbud hcut hjobs hjob hst hpic hpos hstill).trans hrelease
  refine completes_of_frame (op := (·.idx n 32 (·.sliceRelease n))) rfl ((idx_of_lt hn).trans hop)
    ((hmark.trans hf).mono (by simp) (by simp) (by simp)) (.inl (writes_sliceReleased hn hfits).evNow) fun hkeeps => ⟨?_, ?_, ?_, ?_, ?_, hkeeps⟩
  · obtain ⟨r, hr⟩ := EncCh.find_row_mapRow (g := fun r => { r with released := true }) (fun _ => rfl) (EncCh.row_of_picOf hpic)
    rw [encCh_finish, hf.encCh_eq (by simp), encCh_rowReleased, encCh_begin, hr, Option.map_some]
  · rw [job_finish, State.sliceReleased, job_updJob_same (b := { jb with st := .released })]
    rfl
  · exact (rdn_finish _ _).trans (rdn_sliceReleased hn hfits)
  · have hclk := hf.part (p := .clk) (by simp)
    exact (finish_clk _).trans hclk
  · have hmem := keepsMem_sliceReleased (b := jb) hn hfits
    rw [hmark.lbRec_eq (by simp) (by simp)] at hmem
    exact ((hmark.keepsMem (by simp) _).trans hmem).command

end Sys2Proof.Machine
end

section
/-!
PROOFS. The stand-in of a slice whose job did not complete in time (R202).
-/

namespace Sys2Proof.Machine

/-! ## What a stand-in is coded from -/

/-- Samples read from memory, where the bytes of HBM are the same. -/
theorem hbmNat_congr {s t : State} (h : t.hbm.mem = s.hbm.mem) (a n : Nat) : t.hbmNat a n = s.hbmNat a n := by
  induction n generalizing a with
  | zero => rfl
  | succ n ih => rw [State.hbmNat, State.hbmNat, ih, State.hbmByte, State.hbmByte, h]

/-- A change of a channel that leaves its reference region alone leaves its buffers where they are. -/
theorem bufAddr_setEnc (s : State) (n : Nat) (x : EncCh) (h : x.region = (s.encCh n).region) (buf : Nat) :
    (s.setEnc n x).bufAddr n buf = s.bufAddr n buf := by
  have hregion : (s.setEnc n x).refAddr n = s.refAddr n := by
    rw [State.refAddr, State.refAddr, encCh_setEnc_same, h]
    rfl
  rw [State.bufAddr, State.bufAddr, hregion]
  rfl

section
variable {s t : State} (hregs : t.regs = s.regs) (hmem : t.hbm.mem = s.hbm.mem)
include hregs

theorem f_congr (y : Fld) : t.f y = s.f y := by
  simp only [State.f, State.rdn, State.rd, hregs]

theorem colW_congr (n : Nat) : t.colW n = s.colW n := by
  simp only [State.colW, State.f, State.rdn, State.rd, hregs]

theorem rowH_congr (n : Nat) : t.rowH n = s.rowH n := by
  simp only [State.rowH, State.f, State.rdn, State.rd, hregs]

/-- What a pipe is given of a job depends on registers and on the picture alone. -/
theorem jobIn_congr (p : PicSt) (b : Job) : t.jobIn p b = s.jobIn p b := by
  simp only [State.jobIn, State.subRect, State.colSpans, colW_congr hregs, rowH_congr hregs, f_congr hregs]

include hmem

/-- The stored samples of a channel depend on registers, on memory and on the channel's buffers. -/
theorem refSamples_congr {n : Nat} (hbuf : ∀ buf, t.bufAddr n buf = s.bufAddr n buf) (buf comp : Nat) (b : Box) :
    t.refSamples n buf comp b = s.refSamples n buf comp b := by
  simp only [State.refSamples, State.refAt, State.refPlane, State.refBps, hbuf, f_congr hregs, hbmNat_congr hmem]

/-- So does the stand-in of a job. -/
theorem codeStandIn_congr (p : PicSt) {b : Job} (hbuf : ∀ buf, t.bufAddr b.ch buf = s.bufAddr b.ch buf) : t.codeStandIn p b = s.codeStandIn p b := by
  simp only [State.codeStandIn, State.sliceDesc, State.sliceHeader, State.ctuReads, jobIn_congr hregs, colW_congr hregs, rowH_congr hregs,
    refSamples_congr hregs hmem hbuf]

end

/-- A stand-in depends on no row of its picture. -/
theorem codeStandIn_mapRow (s : State) (p : PicSt) (rho : Nat) (g : RowSt → RowSt) (b : Job) :
    s.codeStandIn (p.mapRow rho g) b = s.codeStandIn p b := rfl

/-! ## A picture that is not yet whole (R186) -/

/-- While every picture has reported or has a row without a budget, none reports its bits. -/
theorem checkDip_none {s : State} {n : Nat} (h : ∀ p ∈ (s.encCh n).pics, p.dipDone = true ∨ ∃ r ∈ p.rows, r.budgeted = false) :
    s.checkDip n = s := by
  rw [State.checkDip]
  dsimp only
  split
  case h_1 => rfl
  case h_2 p hfind =>
    have hwhole := List.find?_some hfind
    simp only [Bool.and_eq_true, List.all_eq_true, Bool.not_eq_true'] at hwhole
    obtain ⟨⟨hnot, -⟩, hrows⟩ := hwhole
    rcases h p (List.mem_of_find?_eq_some hfind) with hdone | ⟨r, hr, hbud⟩
    · exact absurd (hnot.symm.trans hdone) (by decide)
    · obtain ⟨hhas, -⟩ := hrows r hr
      exact absurd (hbud.symm.trans hhas) (by decide)

/-- A change of rows that leaves their budgets alone leaves the pictures as whole as they were. -/
theorem budgets_due_mapRow {x : EncCh} {rho : Nat} {g : RowSt → RowSt} (hg : ∀ r, (g r).budgeted = r.budgeted)
    (h : ∀ p ∈ x.pics, p.dipDone = true ∨ ∃ r ∈ p.rows, r.budgeted = false) :
    ∀ p ∈ (x.mapRow rho g).pics, p.dipDone = true ∨ ∃ r ∈ p.rows, r.budgeted = false := by
  intro p hp
  obtain ⟨p₀, hp₀, rfl⟩ := List.mem_map.mp hp
  refine (h p₀ hp₀).imp id fun ⟨r, hr, hbud⟩ => ⟨_, List.mem_map_of_mem hr, ?_⟩
  split
  · rw [hg, hbud]
  · exact hbud

/-! ## STAND_IN_DECISION (R202) -/

/-- A channel whose row `rho` has passed P_s. -/
def EncCh.rowDecided (x : EncCh) (rho : Nat) : EncCh := x.mapRow rho (fun r => { r with psDone := true })

theorem EncCh.picOf_rowDecided {x : EncCh} {k : Nat} {p : PicSt} (rho : Nat) (h : x.picOf k = some p) :
    (x.rowDecided rho).picOf k = some (p.mapRow rho (fun r => { r with psDone := true })) := by
  rw [EncCh.rowDecided, EncCh.picOf_mapRow (g := fun r => { r with psDone := true }) (fun _ => rfl), h, Option.map_some]

/-- Row `rho` of channel `n` has passed P_s, at time `q`. -/
def State.rowDecided (s : State) (q : Clock) (n rho : Nat) : State := State.setEnc { s with clk := q } n ((s.encCh n).rowDecided rho)

theorem frame_rowDecided (s : State) (q : Clock) (n rho : Nat) : Frame [] [] [.enc, .clk] s (s.rowDecided q n rho) :=
  ((frame_clk s q).trans (frame_setEnc _ n _)).mono (by simp) (by simp) (by simp)

theorem encCh_rowDecided (s : State) (q : Clock) (n rho : Nat) : (s.rowDecided q n rho).encCh n = (s.encCh n).rowDecided rho :=
  encCh_setEnc_same _ n _

theorem bufAddr_rowDecided (s : State) (q : Clock) (n rho buf : Nat) : (s.rowDecided q n rho).bufAddr n buf = s.bufAddr n buf :=
  bufAddr_setEnc { s with clk := q } n ((s.encCh n).rowDecided rho) rfl buf

/-- Job `b` is reconstructed, and row `rho` of channel `n`, now `x`, charged with its budget. -/
def State.charged (s : State) (n : Nat) (x : EncCh) (rho : Nat) (b : Job) : State :=
  ((s.updJob b).recon b).setEnc n (x.mapRow rho (fun r => { r with charged := true }))

/-- A stand-in of channel `n` is counted and reported. -/
def State.standInCounted (s : State) (n : Nat) : State := ((s.bump R.DIS_STANDIN_CNT).setF F.DIS_FLAGS_STAND_IN 1).raise 0x0A04 n

/-- A stand-in is counted and reported, and a restart of its channel is requested at `ps`. -/
def State.standInReported (s : State) (n ps : Nat) : State := (s.standInCounted n).requestRestart n ps

theorem frame_standInCounted (s : State) (n : Nat) : Frame [R.DIS_STANDIN_CNT, R.DIS_FLAGS] [] [] s (s.standInCounted n) :=
  ((frame_bump s R.DIS_STANDIN_CNT).trans (frame_setF _ F.DIS_FLAGS_STAND_IN 1)).trans (frame_raise _ 0x0A04 n)

theorem frame_standInReported (s : State) (n ps : Nat) : Frame [R.DIS_STANDIN_CNT, R.DIS_FLAGS] [] [.enc] s (s.standInReported n ps) :=
  (frame_standInCounted s n).trans (frame_setEnc _ n _)

theorem standInReported_evNow (s : State) (n ps : Nat) : (s.standInReported n ps).evNow = s.evNow ++ [⟨0x0A04, n⟩] := rfl

theorem rdn_standInReported (s : State) (n ps : Nat) :
    (s.standInReported n ps).rdn R.DIS_STANDIN_CNT = (s.rdn R.DIS_STANDIN_CNT + 1) % 2 ^ 32 :=
  (rdn_setF_ne (s.bump R.DIS_STANDIN_CNT) 1 (by decide)).trans (rdn_bump_same s _)

theorem on_standInReported (s : State) (n ps : Nat) : (s.standInReported n ps).on F.DIS_FLAGS_STAND_IN = true :=
  on_setF_same (s.bump R.DIS_STANDIN_CNT) F.DIS_FLAGS_STAND_IN (by decide) rfl

theorem encCh_standInReported {s : State} {n : Nat} (ps : Nat) (h : (s.encCh n).restart = []) :
    (s.standInReported n ps).encCh n = { s.encCh n with restart := [ps] } := by
  have hsame : (s.standInCounted n).encCh n = s.encCh n := rfl
  rw [State.standInReported, State.requestRestart, encCh_setEnc_same, hsame, h]
  rfl

theorem writes_setEnc (s : State) (n : Nat) (x : EncCh) (ranges : List (Nat × Nat)) : Writes [.enc] ranges s (s.setEnc n x) :=
  (frame_setEnc s n x).writes rfl (by simp) ranges

theorem encCh_charged (s : State) (n : Nat) (x : EncCh) (rho : Nat) (b : Job) :
    (s.charged n x rho b).encCh n = x.mapRow rho (fun r => { r with charged := true }) := encCh_setEnc_same _ n _

section
variable {s : State} {n : Nat} {b : Job} {p : PicSt} (hch : b.ch = n) (hpic : (s.encCh n).picOf b.rho = some p)
  (hrec : s.lbRec b.idx + 64 ≤ 2 ^ 38) (hfit : s.bufAddr n p.buf + s.encPicBytes n ≤ 2 ^ 38)
include hch hpic hrec hfit

/-- The reconstruction of a job is written after its state, into the buffer of its picture. -/
theorem writes_updJob_recon : Writes [.hbm, .mem] [(s.bufAddr n p.buf, s.encPicBytes n)] (s.updJob b) ((s.updJob b).recon b) := by
  subst hch
  have hupd := (writes_updJob hrec).frame
  obtain ⟨hbuf, hbytes⟩ := hupd.buffers_eq (by simp) b.ch p.buf
  have hrecon := writes_recon (s := s.updJob b) (by rw [hupd.encCh_eq (by simp)]; exact hpic) (by rw [hbuf, hbytes]; exact hfit)
  rwa [hbuf, hbytes] at hrecon

/-- A stand-in is written into word 14 of the job's record and into the buffer of its picture. -/
theorem writes_charged (x : EncCh) (rho : Nat) :
    Writes [.enc, .dis, .hbm, .mem] [(s.lbRec b.idx + 56, 4), (s.bufAddr n p.buf, s.encPicBytes n)] s (s.charged n x rho b) := by
  have hupd := (writes_updJob hrec).mono (p₂ := [.enc, .dis, .hbm, .mem]) (r₂ := [(s.lbRec b.idx + 56, 4), (s.bufAddr n p.buf, s.encPicBytes n)])
    (by simp) (by simp)
  have hrecon := (writes_updJob_recon hch hpic hrec hfit).mono (p₂ := [.enc, .dis, .hbm, .mem])
    (r₂ := [(s.lbRec b.idx + 56, 4), (s.bufAddr n p.buf, s.encPicBytes n)]) (by simp) (by simp)
  rw [State.charged]
  exact (hupd.trans hrecon).trans ((writes_setEnc _ n _ _).mono_parts (by simp))

/-- The job holds what it was given. -/
theorem job_charged (x : EncCh) (rho : Nat) : (s.charged n x rho b).job b.idx = some b := by
  rw [State.charged, job_setEnc, (writes_updJob_recon hch hpic hrec hfit).frame.job_eq (by simp), job_updJob_same]

end

/-- Job `b`, which no pipe has, as a stand-in of output `o`, decided at `v`. -/
def Job.asStandIn (b : Job) (o : SliceOut) (v : Nat) : Job := { b with st := .standIn, pipe := none, out := some o, doneV := v }

/-- The channel after the decision on row `rho`: decided, charged, and to restart at `ps`. -/
def EncCh.stoodIn (x : EncCh) (rho ps : Nat) : EncCh :=
  { (x.rowDecided rho).mapRow rho (fun r => { r with charged := true }) with restart := [ps] }

/-- A decision leaves the pictures as whole as they were. -/
theorem budgets_due_stoodIn {x : EncCh} (rho ps : Nat) (h : ∀ p ∈ x.pics, p.dipDone = true ∨ ∃ r ∈ p.rows, r.budgeted = false) :
    ∀ p ∈ (x.stoodIn rho ps).pics, p.dipDone = true ∨ ∃ r ∈ p.rows, r.budgeted = false :=
  budgets_due_mapRow (g := fun r => { r with charged := true }) (fun _ => rfl)
    (budgets_due_mapRow (g := fun r => { r with psDone := true }) (fun _ => rfl) h)

/-- The stand-in that job `c` now is, decided at time `q`, is written and charged to row `rho`. -/
def State.stoodIn (s : State) (q : Clock) (n rho : Nat) (c : Job) : State := (s.rowDecided q n rho).charged n ((s.encCh n).rowDecided rho) rho c

/-- So that the channel is decided, charged and to restart once the stand-in is reported. -/
theorem encCh_stoodIn {s : State} {n : Nat} (q : Clock) (rho ps : Nat) (c : Job) (h : (s.encCh n).restart = []) :
    ((s.stoodIn q n rho c).standInReported n ps).encCh n = (s.encCh n).stoodIn rho ps := by
  rw [State.stoodIn, encCh_standInReported _ (by rw [encCh_charged]; exact h), encCh_charged, EncCh.stoodIn]

/-- A stand-in is written into word 14 of its job's record and into the buffer of its picture, and its job holds it. -/
theorem stoodIn_spec {s : State} {q : Clock} {n rho : Nat} {c : Job} {p : PicSt} (hch : c.ch = n) (hpic : (s.encCh n).picOf c.rho = some p)
    (hrec : s.lbRec c.idx + 64 ≤ 2 ^ 38) (hfit : s.bufAddr n p.buf + s.encPicBytes n ≤ 2 ^ 38) :
    Writes [.enc, .dis, .hbm, .mem] [(s.lbRec c.idx + 56, 4), (s.bufAddr n p.buf, s.encPicBytes n)] (s.rowDecided q n rho) (s.stoodIn q n rho c) ∧
      (s.stoodIn q n rho c).job c.idx = some c := by
  have hpic' : ((s.rowDecided q n rho).encCh n).picOf c.rho = some (p.mapRow rho (fun r => { r with psDone := true })) := by
    rw [encCh_rowDecided, EncCh.picOf_rowDecided rho hpic]
  have hlb : (s.rowDecided q n rho).lbRec c.idx = s.lbRec c.idx := (frame_rowDecided s q n rho).lbRec_eq (by simp) (by simp) _
  have hbuf := bufAddr_rowDecided s q n rho p.buf
  have hrec' : (s.rowDecided q n rho).lbRec c.idx + 64 ≤ 2 ^ 38 := by rw [hlb]; exact hrec
  have hfit' : (s.rowDecided q n rho).bufAddr n p.buf + s.encPicBytes n ≤ 2 ^ 38 := by rw [hbuf]; exact hfit
  have hwrites := writes_charged hch hpic' hrec' hfit' ((s.encCh n).rowDecided rho) rho
  have hjob := job_charged hch hpic' hrec' hfit' ((s.encCh n).rowDecided rho) rho
  rw [PicSt.mapRow, hbuf, hlb] at hwrites
  exact ⟨hwrites, hjob⟩

/-- Marking a row as decided changes no stand-in of its channel. -/
theorem codeStandIn_rowDecided (s : State) (q : Clock) (n rho : Nat) (p : PicSt) {b : Job} (hch : b.ch = n) (g : RowSt → RowSt) :
    (s.rowDecided q n rho).codeStandIn (p.mapRow rho g) b = State.codeStandIn { s with clk := q } p b :=
  (codeStandIn_mapRow _ p rho g b).trans
    (codeStandIn_congr (s := { s with clk := q }) (t := s.rowDecided q n rho) rfl rfl p (by rw [hch]; exact bufAddr_rowDecided s q n rho))

/-- The next row to decide gives its one slice, which no pipe has, a stand-in; nothing is tracked, and no picture is whole. -/
theorem standInDecision_of_one {s : State} {n j : Nat} {ro : RowSt} {jb c : Job} {pc : PicSt} {q : Clock}
    (hrow : (s.encCh n).rows.find? (fun r => r.budgeted && !r.psDone && !r.released) = some ro) (hjobs : ro.jobs = [j]) (hjob : s.job j = some jb)
    (hch : jb.ch = n) (hst : jb.st = .ready) (hpipe : jb.pipe = none) (hpic : (s.encCh n).picOf jb.rho = some pc)
    (hpos : s.toPos 7 jb.ps = some { s with clk := q }) (hc : c = jb.asStandIn (State.codeStandIn { s with clk := q } pc jb) q.vpos)
    (htrk : ((s.stoodIn q n ro.rho c).standInCounted n).on F.DIS_TRK_CTL_EN = false)
    (hdue : ∀ p ∈ (s.encCh n).pics, p.dipDone = true ∨ ∃ r ∈ p.rows, r.budgeted = false) (hrestart : (s.encCh n).restart = []) :
    s.standInDecision n = (s.stoodIn q n ro.rho c).standInReported n jb.ps := by
  subst hc
  have hcomplete : jb.complete = false := by rw [Job.complete, hst]
  have hkept : (jb.st == .dropped) = false := by rw [hst]; rfl
  have hjob' (x : EncCh) : (State.setEnc { s with clk := q } n x).job j = some jb := hjob
  have hpic' : ((s.encCh n).mapRow ro.rho (fun r => { r with psDone := true })).picOf jb.rho = _ := EncCh.picOf_rowDecided ro.rho hpic
  have hout : (State.setEnc { s with clk := q } n ((s.encCh n).mapRow ro.rho (fun r => { r with psDone := true }))).codeStandIn
      (pc.mapRow ro.rho (fun r => { r with psDone := true })) jb = _ := codeStandIn_rowDecided s q n ro.rho pc hch _
  have hchan : State.encCh { s with clk := q } n = s.encCh n := rfl
  rw [State.standInDecision]
  simp only [hrow, hjobs, List.head?_cons, hjob, hpos, List.foldl_cons, List.foldl_nil, hjob', hcomplete, hkept, hpipe, Bool.or_self,
    Bool.false_eq_true, if_false, hchan, encCh_setEnc_same, hpic', Option.getD_some, hout]
  generalize State.codeStandIn { s with clk := q } pc jb = o at htrk ⊢
  change ((((s.stoodIn q n ro.rho (jb.asStandIn o q.vpos)).standInCounted n).trk 7 0 false (some (jb.asStandIn o q.vpos)) 0).requestRestart n
    jb.ps).checkDip n = _
  rw [trk_off htrk]
  refine checkDip_none (s := (s.stoodIn q n ro.rho (jb.asStandIn o q.vpos)).standInReported n jb.ps) ?_
  rw [encCh_stoodIn _ _ _ _ hrestart]
  exact budgets_due_stoodIn _ _ hdue

/-- STAND_IN_DECISION, of a row with one slice, whose job no pipe has. -/
theorem standInDecision_completes {s : State} {n j : Nat} {ro : RowSt} {jb : Job} {pc : PicSt} {q : Clock} (hn : n < 32)
    (hrow : (s.encCh n).rows.find? (fun r => r.budgeted && !r.psDone && !r.released) = some ro) (hpic : (s.encCh n).picOf jb.rho = some pc)
    (hfit : s.bufAddr n pc.buf + s.encPicBytes n ≤ 2 ^ 38) (hjobs : ro.jobs = [j]) (hjob : s.job j = some jb) (hidx : jb.idx = j) (hj : j < 262144)
    (hch : jb.ch = n) (hst : jb.st = .ready) (hpipe : jb.pipe = none) (hpos : s.begin.toPos 7 jb.ps = some { s.begin with clk := q })
    (hrestart : (s.encCh n).restart = []) (hdue : (s.encCh n).pics.all (fun p => p.dipDone || p.rows.any (fun x => !x.budgeted)) = true)
    (htrk : s.on F.DIS_TRK_CTL_EN = false) (hlb : oneStack s.lbAddr 0x1401000 = true) :
    Completes (.standInDecision n) s fun t =>
      (t.job j).map (fun x => (x.st, x.out, x.doneV)) = some (.standIn, some (({ s with clk := q } : State).codeStandIn pc jb), q.vpos) ∧
      t.rdn R.DIS_STANDIN_CNT = (s.rdn R.DIS_STANDIN_CNT + 1) % 2 ^ 32 ∧ t.on F.DIS_FLAGS_STAND_IN = true ∧ (t.encCh n).restart = [jb.ps] ∧
      t.clk = q ∧ KeepsMem [(s.lbRec j + 56, 4), (s.bufAddr n pc.buf, s.encPicBytes n)] s t ∧ Logged [⟨0x0A04, n⟩] s t ∧
      Keeps [R.DIS_STANDIN_CNT, R.DIS_FLAGS] [] [.enc, .dis, .hbm, .mem, .clk, .log] s t := by
  subst hidx
  have hdue' : ∀ p ∈ (s.encCh n).pics, p.dipDone = true ∨ ∃ r ∈ p.rows, r.budgeted = false := by simpa using hdue
  have hdecided := frame_rowDecided s.begin q n ro.rho
  have hcode : State.codeStandIn { s.begin with clk := q } pc jb = State.codeStandIn { s with clk := q } pc jb :=
    codeStandIn_congr (s := { s with clk := q }) (t := { s.begin with clk := q }) rfl rfl pc fun _ => rfl
  obtain ⟨c, hc⟩ : ∃ c, c = jb.asStandIn (State.codeStandIn { s.begin with clk := q } pc jb) q.vpos := ⟨_, rfl⟩
  have hcidx : c.idx = jb.idx := by rw [hc, Job.asStandIn]
  obtain ⟨hwrites, hheld⟩ := stoodIn_spec (s := s.begin) (q := q) (rho := ro.rho) (c := c) (by rw [hc]; exact hch) (by rw [hc]; exact hpic)
    (by rw [hcidx]; exact lbRec_fits (s := s) hlb hj) hfit
  rw [hcidx] at hwrites hheld
  have hreported := frame_standInReported (s.begin.stoodIn q n ro.rho c) n jb.ps
  have htrk' : ((s.begin.stoodIn q n ro.rho c).standInCounted n).on F.DIS_TRK_CTL_EN = false := by
    rw [(frame_standInCounted _ n).on_eq (by decide), hwrites.frame.on_eq (List.not_mem_nil), hdecided.on_eq (List.not_mem_nil)]
    exact htrk
  have hop := standInDecision_of_one (s := s.begin) hrow hjobs hjob hch hst hpipe hpic hpos hc htrk' hdue' hrestart
  refine completes_of_frame (op := (·.idx n 32 (·.standInDecision n))) rfl ((idx_of_lt hn).trans hop)
    (((hdecided.trans hwrites.frame).trans hreported).mono (by simp) (by simp) (by simp)) (.inr (by simp)) fun hkeeps =>
      ⟨?_, ?_, ?_, ?_, ?_, ?_, ?_, hkeeps⟩
  · rw [job_finish, hreported.job_eq (by simp), hheld, hc, hcode]
    rfl
  · rw [rdn_finish, rdn_standInReported, hwrites.frame.rdn_eq (List.not_mem_nil)]
    rfl
  · rw [on_finish, on_standInReported]
  · rw [encCh_finish, encCh_stoodIn (s := s.begin) _ _ _ _ hrestart]
    rfl
  · have hclk := hreported.part (p := .clk) (by simp)
    have hclk' := hwrites.frame.part (p := .clk) (by simp)
    exact (finish_clk _).trans (hclk.trans hclk')
  · have hmem := hwrites.keepsMem.trans (hreported.keepsMem (by simp) _)
    exact ((hdecided.keepsMem (by simp) _).trans hmem).command
  · have hev : ((s.begin.stoodIn q n ro.rho c).standInReported n jb.ps).evNow = [⟨0x0A04, n⟩] := by
      rw [standInReported_evNow, hwrites.evNow]
      rfl
    have hlog : ((s.begin.stoodIn q n ro.rho c).standInReported n jb.ps).log = s.log :=
      ((hdecided.trans hwrites.frame).trans hreported).part (p := .log) (by simp)
    exact finish_logged (by rw [hev]; rfl) (by rw [hlog]; exact ⟨rfl, rfl⟩) (by simp) (by simp; omega)

end Sys2Proof.Machine
end

section
/-!
PROOFS. The budget of a row, and the jobs and records that it makes (R181-R183, R191, R207).
-/

namespace Sys2Proof.Machine

/-! ## Time that runs on keeps the cadence (R32) -/

theorem Clock.elapseNs_cadence (c : Clock) (n : Nat) : (c.elapseNs n).num = c.num ∧ (c.elapseNs n).lm = c.lm := by
  simp only [Clock.elapseNs]
  split
  · split
    · split <;> exact ⟨rfl, rfl⟩
    · exact ⟨rfl, rfl⟩
  · exact ⟨rfl, rfl⟩

/-- So the unit of the bucket's levels is the same at a position that time has run on to. -/
theorem zUnit_toPos {s : State} {cls v : Nat} {q : Clock} (h : s.toPos cls v = some { s with clk := q }) :
    State.zUnit { s with clk := q } = s.zUnit := by
  simp only [State.toPos, Option.ite_none_left_eq_some] at h
  obtain ⟨-, -, hq⟩ := h
  have hclk := congrArg State.clk (Option.some.inj hq)
  dsimp only at hclk
  obtain ⟨hnum, hlm⟩ := Clock.elapseNs_cadence s.clk (4 * s.clk.ticksTo v - s.clk.ns % 4)
  rw [State.zUnit, State.zUnit, ← hclk]
  change (s.clk.elapseNs _).num * (s.clk.elapseNs _).lm * 65536 = _
  rw [hnum, hlm]

/-! ## The pictures of a channel -/

/-- The checkpoint of the bucket is no part of the pictures (R182). -/
theorem bucket_pics (s : State) (n : Nat) (x : EncCh) (a : Nat) : (s.bucket n x a).1.pics = x.pics := by
  rw [State.bucket]
  dsimp only
  split <;> rfl

/-- A channel in which the picture of `p`'s number and start is `p`, with the rows that it has. -/
def EncCh.withPic (x : EncCh) (p : PicSt) : EncCh :=
  { x with pics := x.pics.map (fun (q : PicSt) => if q.k = p.k ∧ q.startV = p.startV then { p with rows := q.rows } else q) }

theorem rows_withPic (p q : PicSt) : (if q.k = p.k ∧ q.startV = p.startV then { p with rows := q.rows } else q).rows = q.rows := by
  split <;> rfl

/-- That picture is found where it stood. -/
theorem EncCh.picOf_withPic {x : EncCh} {rho : Nat} {p : PicSt} (h : x.picOf rho = some p) : (x.withPic p).picOf rho = some p := by
  have hpred : (fun q : PicSt => q.rows.any (fun r => r.rho == rho)) ∘
      (fun q : PicSt => if q.k = p.k ∧ q.startV = p.startV then { p with rows := q.rows } else q) = fun q => q.rows.any (fun r => r.rho == rho) :=
    funext fun q => by rw [Function.comp, rows_withPic]
  unfold EncCh.picOf at h ⊢
  rw [EncCh.withPic, List.find?_map, hpred, h, Option.map_some, if_pos ⟨rfl, rfl⟩]

/-! ## ROW_BUDGET (R181) -/

/-- A channel whose row `rho` has its budget and its jobs. -/
def EncCh.rowGiven (x : EncCh) (rho bud : Nat) (jobs : List Job) : EncCh :=
  x.mapRow rho (fun r => { r with bud := bud, budgeted := true, jobs := jobs.map (fun (b : Job) => b.idx) })

/-- Job `b` becomes ready, its record written (R207). -/
def State.giveJob (s : State) (pri : Nat) (b : Job) : State :=
  (((s.setJob b.idx (some b)).setLastPipe b none).writeRecord b).trk 1 0 false (some b) pri

/-- Channel `n` is now `x`, its largest bucket level `vr` at least, and its jobs are ready. -/
def State.jobsGiven (s : State) (n : Nat) (x : EncCh) (vr : Nat) (jobs : List Job) : State :=
  jobs.foldl (fun t b => t.giveJob (((s.setEnc n x).wrMax (R.ENC_CH_RC_VMAX n) vr).f (F.DIS_CH_CTL_PRI n)) b) ((s.setEnc n x).wrMax (R.ENC_CH_RC_VMAX n) vr)

/-- The next row of a picture in progress receives its budget, which the bucket does not limit. -/
theorem rowBudget_of_row {s : State} {n : Nat} {pc : PicSt} {ro : RowSt} {q : Clock} {B : EncCh × Nat} {bud : Nat × Bool}
    (hready : s.ready (fnEnc n) = true) (hpic : (s.encCh n).pics.find? (fun p => p.rows.any (fun r => !r.budgeted)) = some pc)
    (hpicOf : (s.encCh n).picOf ro.rho = some pc) (hrow : pc.rows.find? (fun r => !r.budgeted) = some ro) (hr : ro.r ≠ 0)
    (hpos : s.toPos 7 ro.a = some { s with clk := q }) (hB : State.bucket { s with clk := q } n (s.encCh n) ro.a = B)
    (hbud : State.budgetAt { s with clk := q } n pc ro (B.2 / State.zUnit { s with clk := q }) = bud) (hlimit : bud.2 = false) :
    ∃ u wraps, u = State.jobsGiven { s with clk := q } n
        ((B.1.withPic pc).rowGiven ro.rho bud.1 (State.rowJobs { s with clk := q } n pc ro bud.1)) (B.2 / State.zUnit { s with clk := q })
        (State.rowJobs { s with clk := q } n pc ro bud.1) ∧
      s.rowBudget n = u.lbHeader (u.rdn R.DIS_LB_HEAD + (State.rowJobs { s with clk := q } n pc ro bud.1).length) wraps := by
  have hpicOf' : (B.1.withPic pc).picOf ro.rho = some pc :=
    EncCh.picOf_withPic (by rw [EncCh.picOf, ← hB, bucket_pics]; exact hpicOf)
  rw [EncCh.withPic] at hpicOf'
  have hchan : State.encCh { s with clk := q } n = s.encCh n := rfl
  rw [State.rowBudget]
  simp only [hready, Bool.true_or, Bool.not_true, Bool.false_eq_true, if_false, hpic, hrow, hpos, if_neg hr, hchan, hB, hpicOf', Option.getD_some,
    hbud, hlimit]
  exact ⟨_, _, rfl, rfl⟩

/-! ## The jobs of a row (R181, R183, R191, R207) -/

theorem lumaSpans_length (w : Nat) (l : List Nat) (x : Nat) : (lumaSpans w x l).length = l.length := by
  induction l generalizing x with
  | nil => rfl
  | cons c r ih => rw [lumaSpans, List.length_cons, ih, List.length_cons]

/-- A list with its indices, seen from the indices. -/
theorem map_zipIdx_eq_map_range {α β : Type} (l : List α) (d : α) (g : α × Nat → β) :
    l.zipIdx.map g = (List.range l.length).map (fun i => g (l.getD i d, i)) := by
  refine List.ext_getElem (by simp) fun i hi hi' => ?_
  have hlt : i < l.length := by simpa using hi
  simp [List.getElem?_eq_getElem hlt]

/-- A row has one job per column, from the Logbook's next index on; each is ready, with a record of 14 words before its state. -/
theorem rowJobs_spec (s : State) (n : Nat) (p : PicSt) (r : RowSt) (bud : Nat) :
    ∃ g : Nat → Job, s.rowJobs n p r bud = (List.range (s.f (F.ENC_CH_LAYOUT_NCOL n))).map g ∧ ∀ i, (g i).idx = (s.rdn R.DIS_LB_HEAD + i) % 262144 ∧
      ([(g i).ch, (g i).k, (g i).row, (g i).col], (g i).st) = ([n, p.k, r.r, i], .ready) ∧ (g i).record.length = 14 := by
  have hlen : ((s.colW n).zip (s.colSpans n)).length = s.f (F.ENC_CH_LAYOUT_NCOL n) := by
    simp [State.colSpans, lumaSpans_length, State.colW, layoutWidths]
  rw [State.rowJobs]
  dsimp only
  rw [map_zipIdx_eq_map_range _ (0, 0, 0), hlen]
  exact ⟨_, rfl, fun i => ⟨rfl, rfl, rfl⟩⟩

section
variable {s : State} {b : Job} (htrk : s.on F.DIS_TRK_CTL_EN = false) (hlen : b.record.length = 14) (hfits : s.lbRec b.idx + 64 ≤ 2 ^ 38)
include htrk hlen hfits

theorem giveJob_spec (pri : Nat) : Writes [.dis, .hbm, .mem] [(s.lbRec b.idx, 64)] s (s.giveJob pri b) ∧
    ∀ j, (s.giveJob pri b).job j = if j = b.idx then some b else s.job j := by
  have hset : Frame [] [] [.dis] s ((s.setJob b.idx (some b)).setLastPipe b none) :=
    ((frame_setJob s _ _).trans (frame_setLastPipe _ b none)).mono (by simp) (by simp) (by simp)
  have hplace := hset.lbRec_eq (by simp) (by simp) b.idx
  have hrecord := writes_writeRecord (s := (s.setJob b.idx (some b)).setLastPipe b none) hlen (by rw [hplace]; exact hfits)
  have hoff : (((s.setJob b.idx (some b)).setLastPipe b none).writeRecord b).on F.DIS_TRK_CTL_EN = false := by
    rw [hrecord.frame.on_eq (List.not_mem_nil), hset.on_eq (List.not_mem_nil), htrk]
  rw [State.giveJob, trk_off hoff]
  rw [hplace] at hrecord
  refine ⟨((hset.writes rfl (by simp) _).mono_parts (by simp)).trans (hrecord.mono_parts (by simp)), fun j => ?_⟩
  rw [hrecord.frame.job_eq (by simp)]
  exact Tab.get_put (fun _ => (none : Option Job)) s.dis.jobs j b.idx (some b)

end

/-- The jobs of a row are ready one by one, their records one after another. -/
theorem giveJobs_spec {s : State} {g : Nat → Job} {head : Nat} (pri w : Nat) (htrk : s.on F.DIS_TRK_CTL_EN = false) (hhead : head + w < 262144)
    (hlb : oneStack s.lbAddr 0x1401000 = true) (hidx : ∀ i, i < w → (g i).idx = head + i) (hlen : ∀ i, (g i).record.length = 14) :
    Writes [.dis, .hbm, .mem] [(s.lbRec head, 64 * w)] s (((List.range w).map g).foldl (fun t b => t.giveJob pri b) s) ∧
      ∀ i, i < w → (((List.range w).map g).foldl (fun t b => t.giveJob pri b) s).job (head + i) = some (g i) := by
  induction w with
  | zero => exact ⟨Writes.refl _ _ s, by simp⟩
  | succ w ih =>
    obtain ⟨hbefore, hjobs⟩ := ih (by omega) (fun i hi => hidx i (by omega))
    have hlast := hidx w (by omega)
    have hplace := hbefore.frame.lbRec_eq (by simp) (by simp) (head + w)
    obtain ⟨hgiven, hjob⟩ := giveJob_spec (b := g w) ((hbefore.frame.on_eq (List.not_mem_nil)).trans htrk) (hlen w)
      (by rw [hlast, hplace]; exact lbRec_fits hlb (by omega)) pri
    rw [hlast, hplace] at hgiven
    rw [hlast] at hjob
    simp only [List.range_succ, List.map_append, List.map_singleton, List.foldl_append, List.foldl_cons, List.foldl_nil]
    refine ⟨(hbefore.mono (List.Subset.refl _) ?_).trans (hgiven.mono (List.Subset.refl _) ?_), fun i hi => ?_⟩
    · simp only [List.mem_singleton, forall_eq, exists_eq_left]
      omega
    · simp only [List.mem_singleton, forall_eq, exists_eq_left, State.lbRec]
      omega
    · rw [hjob]
      split
      · rw [show i = w by omega]
      · exact hjobs i (by omega)

/-! ## ROW_BUDGET (R181) -/

/-- The largest bucket level of a channel is no register of the Dispatcher. -/
theorem not_mem_vmax {n a : Nat} (hn : n < 32) (ha : 0xA0000 ≤ a) : a ∉ [R.ENC_CH_RC_VMAX n] := by
  simp only [List.mem_singleton, R.ENC_CH_RC_VMAX]
  omega

/-- What a channel and its jobs are after the jobs of a row are given, and what this leaves as it was. -/
theorem jobsGiven_spec {s : State} {n : Nat} {x : EncCh} {g : Nat → Job} {head w : Nat} (vr : Nat) (hn : n < 32)
    (htrk : s.on F.DIS_TRK_CTL_EN = false) (hhead : head + w < 262144) (hlb : oneStack s.lbAddr 0x1401000 = true)
    (hidx : ∀ i, i < w → (g i).idx = head + i) (hlen : ∀ i, (g i).record.length = 14) :
    Frame [R.ENC_CH_RC_VMAX n] [] [.enc, .dis, .hbm, .mem] s (s.jobsGiven n x vr ((List.range w).map g)) ∧
      (s.jobsGiven n x vr ((List.range w).map g)).evNow = s.evNow ∧
      KeepsMem [(s.lbRec head, 64 * w)] s (s.jobsGiven n x vr ((List.range w).map g)) ∧
      (s.jobsGiven n x vr ((List.range w).map g)).encCh n = x ∧
      ∀ i, i < w → (s.jobsGiven n x vr ((List.range w).map g)).job (head + i) = some (g i) := by
  have hmax : Frame [R.ENC_CH_RC_VMAX n] [] [.enc] s ((s.setEnc n x).wrMax (R.ENC_CH_RC_VMAX n) vr) :=
    ((frame_setEnc s n x).trans (frame_wrMax _ (R.ENC_CH_RC_VMAX n) vr)).mono (by simp) (by simp) (by simp)
  have hplace := hmax.lbRec_eq (not_mem_vmax hn (by decide)) (not_mem_vmax hn (by decide)) head
  obtain ⟨hgiven, hjobs⟩ := giveJobs_spec (s := (s.setEnc n x).wrMax (R.ENC_CH_RC_VMAX n) vr)
    (((s.setEnc n x).wrMax (R.ENC_CH_RC_VMAX n) vr).f (F.DIS_CH_CTL_PRI n)) w
    ((hmax.on_eq (y := F.DIS_TRK_CTL_EN) (not_mem_vmax hn (by decide))).trans htrk) hhead
    (by rw [hmax.lbAddr_eq (not_mem_vmax hn (by decide)) (not_mem_vmax hn (by decide))]; exact hlb) hidx hlen
  rw [hplace] at hgiven
  rw [State.jobsGiven]
  refine ⟨(hmax.trans hgiven.frame).mono (by simp) (by simp) (by simp), ?_, (hmax.keepsMem (by simp) _).trans hgiven.keepsMem, ?_, hjobs⟩
  · rw [hgiven.evNow, wrMax_evNow]
    rfl
  · rw [hgiven.frame.encCh_eq (by simp), (frame_wrMax _ _ vr).encCh_eq (by simp), encCh_setEnc_same]

/-- The row that has its budget. -/
theorem EncCh.find_rowGiven {x : EncCh} {rho : Nat} {p : PicSt} (h : x.picOf rho = some p) (bud : Nat) (jobs : List Job) :
    ((x.rowGiven rho bud jobs).rows.find? (fun y => y.rho == rho)).map (fun y => (y.budgeted, y.bud)) = some (true, bud) := by
  obtain ⟨r, hr⟩ := EncCh.find_row_mapRow (g := fun r => { r with bud := bud, budgeted := true, jobs := jobs.map (fun (b : Job) => b.idx) })
    (fun _ => rfl) (EncCh.row_of_picOf h)
  rw [EncCh.rowGiven, hr, Option.map_some]

/-- ROW_BUDGET, for a row after the first of its picture, where the bucket does not limit its budget. -/
theorem rowBudget_completes {s : State} {n w : Nat} {pc : PicSt} {ro : RowSt} {q : Clock} (hn : n < 32) (hready : s.ready (fnEnc n) = true)
    (hpic : (s.encCh n).pics.find? (fun p => p.rows.any (fun r => !r.budgeted)) = some pc) (hpicOf : (s.encCh n).picOf ro.rho = some pc)
    (hrow : pc.rows.find? (fun r => !r.budgeted) = some ro) (hr : ro.r ≠ 0) (hpos : s.begin.toPos 7 ro.a = some { s.begin with clk := q })
    (hlimit : (({ s with clk := q } : State).budgetAt n pc ro ((({ s with clk := q } : State).bucket n (s.encCh n) ro.a).2 / s.zUnit)).2 = false)
    (hncol : s.f (F.ENC_CH_LAYOUT_NCOL n) = w) (hhead : s.rdn R.DIS_LB_HEAD + w < 262144) (htrk : s.on F.DIS_TRK_CTL_EN = false)
    (hlb : oneStack s.lbAddr 0x1401000 = true) :
    Completes (.rowBudget n) s fun t =>
      ((t.encCh n).rows.find? (fun x => x.rho == ro.rho)).map (fun x => (x.budgeted, x.bud)) =
        some (true, (({ s with clk := q } : State).budgetAt n pc ro ((({ s with clk := q } : State).bucket n (s.encCh n) ro.a).2 / s.zUnit)).1) ∧
      t.rdn R.DIS_LB_HEAD = s.rdn R.DIS_LB_HEAD + w ∧ (∀ i : Nat, i < w →
        (t.job (s.rdn R.DIS_LB_HEAD + i)).map (fun b => ([b.ch, b.k, b.row, b.col], b.st)) = some ([n, pc.k, ro.r, i], .ready)) ∧ t.clk = q ∧
      KeepsMem [(s.lbAddr, 16), (s.lbRec (s.rdn R.DIS_LB_HEAD), 64 * w)] s t ∧
      Keeps [R.DIS_LB_HEAD, R.ENC_CH_RC_VMAX n] [] [.enc, .dis, .hbm, .mem, .clk] s t := by
  subst hncol
  have hunit : State.zUnit { s.begin with clk := q } = s.zUnit := zUnit_toPos (s := s.begin) hpos
  have hbud : State.budgetAt { s.begin with clk := q } n pc ro ((State.bucket { s with clk := q } n (s.encCh n) ro.a).2 /
      State.zUnit { s.begin with clk := q }) =
        State.budgetAt { s with clk := q } n pc ro ((State.bucket { s with clk := q } n (s.encCh n) ro.a).2 / s.zUnit) := by
    rw [hunit]
    rfl
  obtain ⟨u, wraps, hu, hop⟩ := rowBudget_of_row (s := s.begin) (B := State.bucket { s with clk := q } n (s.encCh n) ro.a) hready hpic hpicOf hrow hr
    hpos rfl hbud hlimit
  have hpicOf' : ((State.bucket { s with clk := q } n (s.encCh n) ro.a).1.withPic pc).picOf ro.rho = some pc :=
    EncCh.picOf_withPic (by rw [EncCh.picOf, bucket_pics]; exact hpicOf)
  obtain ⟨g, hjobs, hg⟩ := rowJobs_spec { s.begin with clk := q } n pc ro
    (State.budgetAt { s with clk := q } n pc ro ((State.bucket { s with clk := q } n (s.encCh n) ro.a).2 / s.zUnit)).1
  generalize State.budgetAt { s with clk := q } n pc ro ((State.bucket { s with clk := q } n (s.encCh n) ro.a).2 / s.zUnit) = bud at *
  have hidx (i : Nat) (hi : i < s.f (F.ENC_CH_LAYOUT_NCOL n)) : (g i).idx = s.rdn R.DIS_LB_HEAD + i :=
    (hg i).1.trans (Nat.mod_eq_of_lt (Nat.lt_trans (Nat.add_lt_add_left hi _) hhead))
  have hjobs' : State.rowJobs { s.begin with clk := q } n pc ro bud.1 = (List.range (s.f (F.ENC_CH_LAYOUT_NCOL n))).map g := hjobs
  rw [hjobs'] at hu hop
  obtain ⟨hframe, hev, hmem, henc, hready'⟩ := jobsGiven_spec (s := { s.begin with clk := q }) (n := n) (g := g)
    (x := ((State.bucket { s with clk := q } n (s.encCh n) ro.a).1.withPic pc).rowGiven ro.rho bud.1 ((List.range (s.f (F.ENC_CH_LAYOUT_NCOL n))).map g))
    ((State.bucket { s with clk := q } n (s.encCh n) ro.a).2 / State.zUnit { s.begin with clk := q }) hn htrk hhead hlb hidx (fun i => (hg i).2.2)
  rw [← hu] at hframe hev hmem henc hready'
  have hhead' : u.rdn R.DIS_LB_HEAD = s.rdn R.DIS_LB_HEAD := hframe.rdn_eq (not_mem_vmax hn (by decide))
  have hplace : u.lbAddr = s.lbAddr := hframe.lbAddr_eq (not_mem_vmax hn (by decide)) (not_mem_vmax hn (by decide))
  obtain ⟨t, ht, hheader⟩ := lbHeader_spec (s := u) (wraps := wraps) hhead (by rw [hplace]; have := lbAddr_fits hlb; omega)
  rw [List.length_map, List.length_range, hhead', hheader] at hop
  rw [hplace] at ht
  have hf := ((frame_clk s.begin q).trans (hframe.trans ht.frame)).trans (frame_wrn t R.DIS_LB_HEAD (s.rdn R.DIS_LB_HEAD + s.f (F.ENC_CH_LAYOUT_NCOL n)))
  refine completes_of_frame (op := (·.idx n 32 (·.rowBudget n))) rfl ((idx_of_lt hn).trans hop)
    (hf.mono (by simp) (by simp) (by simp)) (.inl (ht.evNow.trans hev)) fun hkeeps => ⟨?_, ?_, fun i hi => ?_, ?_, ?_, hkeeps⟩
  · rw [encCh_finish, (frame_wrn t _ _).encCh_eq (by simp), ht.frame.encCh_eq (by simp), henc, EncCh.find_rowGiven hpicOf']
  · rw [rdn_finish, rdn_wrn_same]
    exact Nat.mod_eq_of_lt (hhead.trans (by decide))
  · rw [job_finish, (frame_wrn t _ _).job_eq (by simp), ht.frame.job_eq (by simp), hready' i hi, Option.map_some, (hg i).2.1]
  · have hclk := ht.frame.part (p := .clk) (by simp)
    exact (finish_clk _).trans (hclk.trans (hframe.part (p := .clk) (by simp)))
  · have hjobsMem := hmem.widen (r₂ := [(s.lbAddr, 16), (s.lbRec (s.rdn R.DIS_LB_HEAD), 64 * s.f (F.ENC_CH_LAYOUT_NCOL n))])
      (fun y hy => ⟨y, List.mem_cons_of_mem _ hy, Nat.le_refl _, Nat.le_refl _⟩)
    have hheaderMem := ht.keepsMem.widen (r₂ := [(s.lbAddr, 16), (s.lbRec (s.rdn R.DIS_LB_HEAD), 64 * s.f (F.ENC_CH_LAYOUT_NCOL n))]) (by simp)
    have hstart := (frame_clk s.begin q).keepsMem (by simp) [(s.lbAddr, 16), (s.lbRec (s.rdn R.DIS_LB_HEAD), 64 * s.f (F.ENC_CH_LAYOUT_NCOL n))]
    exact (((hstart.trans hjobsMem).trans hheaderMem).trans ((frame_wrn t R.DIS_LB_HEAD _).keepsMem (by simp) _)).command

/-- Settles O19, clause by clause. -/
theorem channelRowCommandsComplete : Obligations.ChannelRowCommandsComplete := by
  unfold Obligations.ChannelRowCommandsComplete
  refine ⟨fun _ _ _ _ _ _ => rowBudget_completes, fun _ _ _ _ _ _ _ => standInDecision_completes, ?_, fun _ _ _ _ _ => sequenceFree_completes⟩
  intro s n j ro pc jb q hn hrow hbud hcut hjobs hjob hidx hj _ hst
  exact sliceRelease_completes hn hrow hbud hcut hjobs hjob hidx hj hst

end Sys2Proof.Machine
end

section
/-!
PROOFS. Why a quadrant need not park (R196, R197): the check covers the channels that are not shed, and the lag of fewer channels can be the longer one.
-/

namespace Sys2Proof.Machine

/-- Four channels are not OFF, channel 3 of them shed, and each may lag by 140 lines. With 47 pipes for first runs, channels 1 and 2 take a third of a pipe and
46 and two thirds. The longest picture time T is that of channel 3, 196,608 units, of which both shares are whole; without it T is that of channel 0, 65,536
units, and the shares, each rounded up, exceed the pipes by a unit. -/
def parkWithShed : State :=
  { State.reset with
    clk := { State.reset.clk with num := 1000000000, den := 768, lm := 3 }
    fns := [(fnEnc 0, .ready), (fnEnc 1, .ready), (fnEnc 2, .ready), (fnEnc 3, .ready)]
    regs := [(R.MER_CAD_NUM, 60), (R.MER_CH_LINES 0, 192), (R.MER_CH_LINES 1, 64), (R.MER_CH_LINES 2, 64), (R.MER_CH_LINES 3, 64),
      (R.ENC_CH_SIZE 0, 0x380000), (R.ENC_CH_RATE 0, 0x10003C), (R.ENC_CH_LAYOUT 0, 0x100), (R.ENC_CH_RC_LAT 0, 140),
      (R.ENC_CH_SIZE 1, 1), (R.ENC_CH_RATE 1, 0x10003C), (R.ENC_CH_RC_LAT 1, 140),
      (R.ENC_CH_SIZE 2, 140), (R.ENC_CH_RATE 2, 0x10003C), (R.ENC_CH_COLW 2 0, 2), (R.ENC_CH_RC_LAT 2, 140),
      (R.ENC_CH_SIZE 3, 0x380000), (R.ENC_CH_RATE 3, 0x10003C), (R.ENC_CH_LAYOUT 3, 0x100), (R.ENC_CH_RC_LAT 3, 140),
      (R.DIS_CH_CTL 3, 0x104)] }

/-- Over all four channels the lag is 140 lines, which each of them allows. -/
theorem parkWithShed_lagOk : (parkWithShed.setF (F.DIS_QUAD_CTL_PARK 0) 1).lagOk (parkWithShed.setF (F.DIS_QUAD_CTL_PARK 0) 1).firstRunPipes
    parkWithShed.liveChans = true := by decide +kernel

/-- Over the three channels that the check covers it is a line more, so that the write is refused. -/
theorem parkWithShed_refused {t : State} (h : exec (.park 0) parkWithShed = .next t) : t.on (F.DIS_QUAD_CTL_PARK 0) = false := by
  have hrun : (match exec (.park 0) parkWithShed with | .next t => t.on (F.DIS_QUAD_CTL_PARK 0) | _ => true) = false := by decide +kernel
  rwa [h] at hrun

/-- Refutes O22 by its clause of PARK: the clause has the lag check pass over all channels that are not OFF, but a park is checked over those of them that are
not shed (R199), and that check can fail where the wider one passes. -/
theorem not_pipeCommandsComplete : ¬ Obligations.PipeCommandsComplete := by
  unfold Obligations.PipeCommandsComplete
  rintro ⟨-, hPark, -⟩
  obtain ⟨t, ht, hparked, -⟩ :=
    hPark parkWithShed 0 (by decide +kernel) (by decide) (by decide +kernel) parkWithShed_lagOk (.inl (by decide)) rfl (by decide) (by decide +kernel)
  rw [parkWithShed_refused ht] at hparked
  exact Bool.false_ne_true hparked

end Sys2Proof.Machine
end

section
/-!
SUPPORT. Pipes and jobs after updates (R192-R195, R203, R213): what a pipe, a job and the status register of a pipe read after an update, and the frame, the
events and the bytes of an operation that changes registers and HBM.
-/

namespace Sys2Proof.Machine

/-! ## Operations that change registers and HBM and raise events -/

/-- An operation that changes `regs` and `parts` alone, of the bytes of HBM only those of `ranges`, and raises the events `evs`. -/
def Alters (regs : List Nat) (parts : List Part) (ranges : List (Nat × Nat)) (evs : List Ev) (s t : State) : Prop :=
  Frame regs [] parts s t ∧ t.evNow = s.evNow ++ evs ∧ KeepsMem ranges s t

section
variable {regs r₁ r₂ : List Nat} {parts p₁ p₂ : List Part} {ranges : List (Nat × Nat)} {evs e₁ e₂ : List Ev} {s t u : State}

theorem Alters.frame (h : Alters regs parts ranges evs s t) : Frame regs [] parts s t := h.1
theorem Alters.evNow (h : Alters regs parts ranges evs s t) : t.evNow = s.evNow ++ evs := h.2.1
theorem Alters.keepsMem (h : Alters regs parts ranges evs s t) : KeepsMem ranges s t := h.2.2

theorem Alters.trans (h₁ : Alters r₁ p₁ ranges e₁ s t) (h₂ : Alters r₂ p₂ ranges e₂ t u) : Alters (r₁ ++ r₂) (p₁ ++ p₂) ranges (e₁ ++ e₂) s u :=
  ⟨h₁.frame.trans h₂.frame, by rw [h₂.evNow, h₁.evNow, List.append_assoc], h₁.keepsMem.trans h₂.keepsMem⟩

theorem Alters.mono (h : Alters r₁ p₁ ranges evs s t) (hr : r₁ ⊆ r₂) (hp : p₁ ⊆ p₂) : Alters r₂ p₂ ranges evs s t :=
  ⟨h.frame.mono hr (List.Subset.refl _) hp, h.evNow, h.keepsMem⟩

/-- Ranges that reach further keep less. -/
theorem Alters.widen {wide : List (Nat × Nat)} (h : Alters regs parts ranges evs s t)
    (hsub : ∀ x ∈ ranges, ∃ y ∈ wide, y.1 ≤ x.1 ∧ x.1 + x.2 ≤ y.1 + y.2) : Alters regs parts wide evs s t := ⟨h.frame, h.evNow, h.keepsMem.widen hsub⟩

/-- An operation that writes no byte of HBM and raises no event. -/
theorem Frame.alters (h : Frame regs [] parts s t) (hev : t.evNow = s.evNow) (hp : .mem ∉ parts) (ranges : List (Nat × Nat)) :
    Alters regs parts ranges [] s t := ⟨h, by rw [hev, List.append_nil], h.keepsMem hp ranges⟩

theorem Writes.alters (h : Writes parts ranges s t) : Alters [] parts ranges [] s t := ⟨h.frame, by rw [h.evNow, List.append_nil], h.keepsMem⟩

theorem alters_wrn (s : State) (a n : Nat) (ranges : List (Nat × Nat)) : Alters [a] [] ranges [] s (s.wrn a n) := (frame_wrn s a n).alters rfl (by simp) _

theorem alters_bumpBy (s : State) (a n : Nat) (ranges : List (Nat × Nat)) : Alters [a] [] ranges [] s (s.bumpBy a n) := alters_wrn s a _ _

theorem alters_bump (s : State) (a : Nat) (ranges : List (Nat × Nat)) : Alters [a] [] ranges [] s (s.bump a) := alters_wrn s a _ _

theorem alters_setF (s : State) (x : Fld) (v : Nat) (ranges : List (Nat × Nat)) : Alters [x.addr] [] ranges [] s (s.setF x v) := alters_wrn s _ _ _

theorem alters_raise (s : State) (code detail : Nat) (ranges : List (Nat × Nat)) : Alters [] [] ranges [⟨code, detail⟩] s (s.raise code detail) :=
  ⟨frame_raise s code detail, rfl, (frame_raise s code detail).keepsMem (by simp) _⟩

/-- A command completes in what its operation leaves, with the operation's frame and the bytes of HBM that it keeps. -/
theorem completes_of_alters {i : Instr} {op : State → State} {P : State → Prop} (hx : exec i s = s.run op) (hop : op s.begin = u)
    (ha : Alters regs parts ranges evs s.begin u) (hlog : evs = [] ∨ .log ∈ parts)
    (hp : Keeps regs [] parts s u.finish → KeepsMem ranges s u.finish → P u.finish) : Completes i s P :=
  completes_of_frame hx hop ha.frame (hlog.imp_left fun h => by rw [ha.evNow, h]; rfl) fun hkeeps => hp hkeeps ha.keepsMem.command

/-- The events that an operation raised are those that its command logs, in their order (R418). -/
theorem Alters.logged {sorted : List Ev} (h : Alters regs parts ranges evs s.begin u) (hp : .log ∉ parts) (hsort : evSort evs = sorted)
    (hfew : sorted.length ≤ 4) (hdetail : ∀ e ∈ sorted, e.detail < 65536) : Logged sorted s u.finish := by
  have hlog : u.log = s.log := h.frame.part hp
  exact finish_logged (by rw [h.evNow]; exact hsort) (by rw [hlog]; exact ⟨rfl, rfl⟩) hfew hdetail

end

/-! ## Pipes and jobs after updates -/

@[simp] theorem job_setF (s : State) (x : Fld) (v j : Nat) : (s.setF x v).job j = s.job j := rfl
@[simp] theorem job_bump (s : State) (a j : Nat) : (s.bump a).job j = s.job j := rfl
@[simp] theorem job_bumpBy (s : State) (a n j : Nat) : (s.bumpBy a n).job j = s.job j := rfl
@[simp] theorem job_raise (s : State) (code detail j : Nat) : (s.raise code detail).job j = s.job j := rfl
@[simp] theorem job_setPipe (s : State) (p : Nat) (x : PipeSt) (j : Nat) : (s.setPipe p x).job j = s.job j := rfl
@[simp] theorem job_setLastPipe (s : State) (b : Job) (p : Option Nat) (j : Nat) : (s.setLastPipe b p).job j = s.job j := rfl

@[simp] theorem pipe_begin (s : State) (p : Nat) : s.begin.pipe p = s.pipe p := rfl
@[simp] theorem pipe_finish (s : State) (p : Nat) : s.finish.pipe p = s.pipe p := rfl
@[simp] theorem pipe_wrn (s : State) (a n p : Nat) : (s.wrn a n).pipe p = s.pipe p := rfl
@[simp] theorem pipe_setF (s : State) (x : Fld) (v p : Nat) : (s.setF x v).pipe p = s.pipe p := rfl
@[simp] theorem pipe_bump (s : State) (a p : Nat) : (s.bump a).pipe p = s.pipe p := rfl
@[simp] theorem pipe_bumpBy (s : State) (a n p : Nat) : (s.bumpBy a n).pipe p = s.pipe p := rfl
@[simp] theorem pipe_raise (s : State) (code detail p : Nat) : (s.raise code detail).pipe p = s.pipe p := rfl
@[simp] theorem pipe_setEnc (s : State) (n : Nat) (x : EncCh) (p : Nat) : (s.setEnc n x).pipe p = s.pipe p := rfl
@[simp] theorem pipe_setLastPipe (s : State) (b : Job) (o : Option Nat) (p : Nat) : (s.setLastPipe b o).pipe p = s.pipe p := rfl
@[simp] theorem pipe_setPipe_same (s : State) (p : Nat) (x : PipeSt) : (s.setPipe p x).pipe p = x := Tab.get_put_same _ _ p x

theorem Frame.pipe_eq {regs fns : List Nat} {parts : List Part} {s t : State} (h : Frame regs fns parts s t) (hp : .dis ∉ parts) (p : Nat) :
    t.pipe p = s.pipe p := by
  have hdis : t.dis = s.dis := h.part hp
  rw [State.pipe, State.pipe, hdis]

theorem frame_setPipe (s : State) (p : Nat) (x : PipeSt) : Frame [R.DIS_PIPE_STATUS p] [] [.dis] s (s.setPipe p x) :=
  ((((frame_dis s _).trans (frame_setF _ (F.DIS_PIPE_STATUS_RUN p) _)).trans (frame_setF _ (F.DIS_PIPE_STATUS_NEXT p) _)).trans
    (frame_setF _ (F.DIS_PIPE_STATUS_CH p) _)).mono (by simp) (by simp) (by simp)

theorem alters_setPipe (s : State) (p : Nat) (x : PipeSt) (ranges : List (Nat × Nat)) :
    Alters [R.DIS_PIPE_STATUS p] [.dis] ranges [] s (s.setPipe p x) := (frame_setPipe s p x).alters rfl (by simp) _

theorem alters_setLastPipe (s : State) (b : Job) (o : Option Nat) (ranges : List (Nat × Nat)) : Alters [] [.dis] ranges [] s (s.setLastPipe b o) :=
  (frame_setLastPipe s b o).alters rfl (by simp) _

theorem on_next_setPipe (s : State) (p : Nat) {x : PipeSt} (h : x.next.isSome = true) : (s.setPipe p x).on (F.DIS_PIPE_STATUS_NEXT p) = true := by
  rw [State.on, State.setPipe, h]
  exact beq_iff_eq.mpr ((f_setF_bits (x := F.DIS_PIPE_STATUS_CH p) (y := F.DIS_PIPE_STATUS_NEXT p) _ _ rfl (by simp) (by simp) (.inr (by simp))).trans
    (f_setF_same _ (F.DIS_PIPE_STATUS_NEXT p) 1 (by simp)))

/-- DIS_PIPE_p_STATUS names the channel of the running job (R213). -/
theorem f_ch_setPipe {s : State} {x : PipeSt} {j : Nat} {b : Job} (p : Nat) (hrun : x.running = some j) (hjob : s.job j = some b) :
    (s.setPipe p x).f (F.DIS_PIPE_STATUS_CH p) = b.ch % 32 := by
  have hjob' : (State.job { s with dis := { s.dis with pipes := Tab.put (fun _ => ({} : PipeSt)) s.dis.pipes p x } }) j = some b := hjob
  rw [State.setPipe, f_setF_same _ _ _ (by simp), hrun]
  simp only [job_setF, hjob']
  rfl

/-- Bytes written into HBM change nothing but the stacks. -/
theorem hbmPutBytes_eq_with_hbm (l : List Nat) (s : State) (a : Nat) : s.hbmPutBytes a l = { s with hbm := (s.hbmPutBytes a l).hbm } := by
  induction l generalizing s a with
  | nil => rfl
  | cons b r ih =>
    have hset : s.hbmSet a (BitVec.ofNat 8 b) = { s with hbm := (s.hbmSet a (BitVec.ofNat 8 b)).hbm } := by
      unfold State.hbmSet
      split <;> rfl
    rw [State.hbmPutBytes]
    refine (ih _ _).trans ?_
    generalize ((s.hbmSet a (BitVec.ofNat 8 b)).hbmPutBytes (a + 1) r).hbm = m
    rw [hset]

/-- The update of a job changes the Dispatcher's copy and the stacks alone. -/
theorem updJob_eq_with_hbm (s : State) (b : Job) : s.updJob b = { s.setJob b.idx (some b) with hbm := (s.updJob b).hbm } := by
  have hput (t : State) (a v n : Nat) : t.hbmPut a v n = { t with hbm := (t.hbmPut a v n).hbm } := by
    rw [hbmPut_eq_putBytes]
    exact hbmPutBytes_eq_with_hbm _ _ _
  exact hput (s.setJob b.idx (some b)) (s.lbRec b.idx + 56) b.word14 4

@[simp] theorem updJob_dis (s : State) (b : Job) : (s.updJob b).dis = (s.setJob b.idx (some b)).dis := by rw [updJob_eq_with_hbm]

@[simp] theorem pipe_updJob (s : State) (b : Job) (p : Nat) : (s.updJob b).pipe p = s.pipe p := by
  rw [State.pipe, updJob_dis]
  rfl

@[simp] theorem clk_updJob (s : State) (b : Job) : (s.updJob b).clk = s.clk := by rw [updJob_eq_with_hbm]; rfl

@[simp] theorem regs_updJob (s : State) (b : Job) : (s.updJob b).regs = s.regs := by rw [updJob_eq_with_hbm]; rfl

@[simp] theorem rdn_updJob (s : State) (b : Job) (a : Nat) : (s.updJob b).rdn a = s.rdn a := by rw [State.rdn, State.rd, regs_updJob]; rfl

@[simp] theorem on_updJob (s : State) (b : Job) (y : Fld) : (s.updJob b).on y = s.on y := by rw [State.on, f_congr (regs_updJob s b)]; rfl

/-- The window in which a job starts depends on registers alone. -/
theorem startBox_congr {s t : State} (h : t.regs = s.regs) (b : Job) : t.startBox b = s.startBox b := by
  simp only [State.startBox, State.subRect, State.colSpans, State.jobWidth, colW_congr h, rowH_congr h, f_congr h]
  rfl

@[simp] theorem lbRec_begin (s : State) (i : Nat) : s.begin.lbRec i = s.lbRec i := by
  have hplace : s.begin.lbAddr = s.lbAddr := rfl
  rw [State.lbRec, State.lbRec, hplace]

@[simp] theorem startBox_begin (s : State) (b : Job) : s.begin.startBox b = s.startBox b := startBox_congr rfl b

/-- The update of a job is written into word 14 of its record (R207). -/
theorem alters_updJob {s : State} {b : Job} {i : Nat} (hidx : b.idx = i) (hfits : s.lbRec i + 64 ≤ 2 ^ 38) :
    Alters [] [.dis, .hbm, .mem] [(s.lbRec i + 56, 4)] [] s (s.updJob b) := by
  subst hidx
  exact (writes_updJob hfits).alters

/-- The pipe noted for a job's row of its band (R194). -/
theorem lastPipe_setLastPipe (s : State) (b : Job) (o : Option Nat) :
    Tab.get (fun _ => (none : Option Nat)) (s.setLastPipe b o).dis.lastPipe (bandKey b.ch b.col b.rho) = o := Tab.get_put_same _ _ _ o

/-- Registers below those of the pipes. -/
theorem not_mem_pipeStatus {a : Nat} (p : Nat) (ha : a < 0xA0400) : a ∉ [R.DIS_PIPE_STATUS p] := by
  simp only [List.mem_singleton, R.DIS_PIPE_STATUS]
  omega

@[simp] theorem on_setLastPipe (s : State) (b : Job) (o : Option Nat) (y : Fld) : (s.setLastPipe b o).on y = s.on y := rfl

theorem on_setPipe (s : State) (p : Nat) (x : PipeSt) {y : Fld} (hy : y.addr < 0xA0400) : (s.setPipe p x).on y = s.on y :=
  (frame_setPipe s p x).on_eq (not_mem_pipeStatus p hy)

/-! ## Time that runs on -/

/-- The state at another time. -/
def State.setClk (s : State) (c : Clock) : State := { s with clk := c }

@[simp] theorem clk_setClk (s : State) (c : Clock) : (s.setClk c).clk = c := rfl
@[simp] theorem job_setClk (s : State) (c : Clock) (j : Nat) : (s.setClk c).job j = s.job j := rfl
@[simp] theorem pipe_setClk (s : State) (c : Clock) (p : Nat) : (s.setClk c).pipe p = s.pipe p := rfl
@[simp] theorem rdn_setClk (s : State) (c : Clock) (a : Nat) : (s.setClk c).rdn a = s.rdn a := rfl
@[simp] theorem on_setClk (s : State) (c : Clock) (y : Fld) : (s.setClk c).on y = s.on y := rfl

@[simp] theorem lbRec_setClk (s : State) (c : Clock) (i : Nat) : (s.setClk c).lbRec i = s.lbRec i := by
  have hplace : (s.setClk c).lbAddr = s.lbAddr := rfl
  rw [State.lbRec, State.lbRec, hplace]

theorem alters_setClk (s : State) (c : Clock) (ranges : List (Nat × Nat)) : Alters [] [.clk] ranges [] s (s.setClk c) :=
  (frame_clk s c).alters rfl (by simp) _

end Sys2Proof.Machine
end

section
/-!
PROOFS. How a job is named (R193, R194), starts (R195) and is found late (R195).
-/

namespace Sys2Proof.Machine

/-! ## JOB_NAMED (R193, R194) -/

/-- Job `b`, named to pipe `p` as no migration. -/
def Job.namedTo (b : Job) (p : Nat) : Job := { b with st := .named, pipe := some p, moved := false }

/-- Job `b` is in the next slot of pipe `p`, its start window in the staging store (R161). -/
def State.inNextSlot (s : State) (b : Job) (p : Nat) : State :=
  s.setPipe p { s.pipe p with next := some b.idx, stage := some (s.startBox b), namedNs := s.clk.ns }

/-- Job `b` is named to pipe `p`, and its record written. -/
def State.named (s : State) (b : Job) (p : Nat) : State := (s.updJob (b.namedTo p)).inNextSlot (b.namedTo p) p

theorem startBox_namedTo (s : State) (b : Job) (p : Nat) : s.startBox (b.namedTo p) = s.startBox b := rfl

theorem pipe_named (s : State) (b : Job) (p : Nat) :
    (s.named b p).pipe p = { s.pipe p with next := some b.idx, stage := some (s.startBox b), namedNs := s.clk.ns } := by
  rw [State.named, State.inNextSlot, pipe_setPipe_same, pipe_updJob, clk_updJob, startBox_congr (regs_updJob s (b.namedTo p)), startBox_namedTo,
    Job.namedTo]

theorem job_named (s : State) (b : Job) (p : Nat) : (s.named b p).job b.idx = some (b.namedTo p) := by
  rw [State.named, State.inNextSlot, job_setPipe]
  exact job_updJob_same s (b.namedTo p)

theorem on_next_named (s : State) (b : Job) (p : Nat) : (s.named b p).on (F.DIS_PIPE_STATUS_NEXT p) = true := on_next_setPipe _ p rfl

theorem on_named (s : State) (b : Job) (p : Nat) {y : Fld} (hy : y.addr < 0xA0400) : (s.named b p).on y = s.on y :=
  (on_setPipe _ p _ hy).trans (on_updJob s _ y)

theorem alters_named {s : State} {b : Job} (p : Nat) (hfits : s.lbRec b.idx + 64 ≤ 2 ^ 38) :
    Alters [R.DIS_PIPE_STATUS p] [.dis, .hbm, .mem] [(s.lbRec b.idx + 56, 4)] [] s (s.named b p) :=
  ((alters_updJob (b := b.namedTo p) rfl hfits).trans (alters_setPipe _ p _ _)).mono (by simp) (by simp)

/-- A job with no affinity pipe migrates nowhere, and while nothing is tracked no more than its band's pipe is noted. -/
theorem nameTo_first {s : State} {b : Job} {p : Nat} (hfirst : b.isReplay = false) (haff : s.affinity b = none) (htrk : s.on F.DIS_TRK_CTL_EN = false) :
    s.nameTo b p = (s.named b p).setLastPipe (b.namedTo p) (some p) := by
  have htrk' : ((s.named b p).setLastPipe (b.namedTo p) (some p)).on F.DIS_TRK_CTL_EN = false := by
    rw [on_setLastPipe, on_named s b p (by decide), htrk]
  simp only [State.named, State.inNextSlot, Job.namedTo, hfirst] at htrk' ⊢
  simp only [State.nameTo, hfirst, haff, Bool.not_false, Bool.and_false, Bool.false_eq_true, if_false, trk_off htrk']

/-- A replay is no migration, and its band's pipe stays the one of the first run. -/
theorem nameTo_replay {s : State} {b : Job} {p : Nat} (hreplay : b.isReplay = true) (htrk : s.on F.DIS_TRK_CTL_EN = false) :
    s.nameTo b p = s.named b p := by
  have htrk' : (s.named b p).on F.DIS_TRK_CTL_EN = false := (on_named s b p (by decide)).trans htrk
  simp only [State.named, State.inNextSlot, Job.namedTo, hreplay] at htrk' ⊢
  simp only [State.nameTo, hreplay, Bool.not_true, Bool.false_and, Bool.false_eq_true, if_false, if_true, trk_off htrk']

/-- The one job that waits is named to the one pipe whose next slot is empty. -/
theorem jobNamed_of_one {s : State} {b : Job} {p : Nat} (hjobs : s.allJobs = [b]) (hready : b.st = .ready) (hfirst : b.isReplay = false)
    (hspare : s.dis.spare.isSome = true) (hopen : s.openPipes = [p]) : s.jobNamed = s.nameTo b p := by
  have hnaming : s.spareNaming = s := by simp [State.spareNaming, hspare]
  have hreplay : s.nextReplay = none := by simp [State.nextReplay, hjobs, hfirst]
  simp [State.jobNamed, hnaming, hreplay, State.firstNamed, hopen, hjobs, hready, hfirst, State.bestJob]

/-- JOB_NAMED, of one job that waits, with one pipe open to it. -/
theorem jobNamed_completes {s : State} {j p : Nat} {jb : Job} (hjobs : s.allJobs = [jb]) (hidx : jb.idx = j) (hj : j < 262144) (hready : jb.st = .ready)
    (hfirst : jb.isReplay = false) (hspare : s.dis.spare.isSome = true) (hrow : jb.row = 0)
    (hopen : (List.range 64).filter (fun x => s.pipeAvail x && s.dis.spare != some x && (s.pipe x).next.isNone) = [p])
    (htrk : s.on F.DIS_TRK_CTL_EN = false) (hlb : oneStack s.lbAddr 0x1401000 = true) :
    Completes (.jobNamed) s fun t => (t.job j).map (fun x => (x.st, x.pipe, x.moved)) = some (.named, some p, false) ∧
      (t.pipe p).next = some j ∧ (t.pipe p).running = (s.pipe p).running ∧ t.on (F.DIS_PIPE_STATUS_NEXT p) = true ∧
      Tab.get (fun _ => (none : Option Nat)) t.dis.lastPipe (bandKey jb.ch jb.col jb.rho) = some p ∧ (t.pipe p).stage = some (s.startBox jb) ∧
      (t.pipe p).namedNs = s.clk.ns ∧ KeepsMem [(s.lbRec j + 56, 4)] s t ∧ Keeps [R.DIS_PIPE_STATUS p] [] [.dis, .hbm, .mem] s t := by
  subst hidx
  have haff : s.begin.affinity jb = none := if_pos (.inl hrow)
  have hop := (jobNamed_of_one (s := s.begin) hjobs hready hfirst hspare hopen).trans (nameTo_first (p := p) hfirst haff htrk)
  have hnamed := alters_named (s := s.begin) (b := jb) p (by rw [lbRec_begin]; exact lbRec_fits hlb hj)
  rw [lbRec_begin] at hnamed
  have halters := hnamed.trans (alters_setLastPipe _ (jb.namedTo p) (some p) _)
  have hpipe : (((s.begin.named jb p).setLastPipe (jb.namedTo p) (some p)).finish).pipe p =
      { s.pipe p with next := some jb.idx, stage := some (s.startBox jb), namedNs := s.clk.ns } := by
    rw [pipe_finish, pipe_setLastPipe, pipe_named, startBox_begin, pipe_begin, begin_clk]
  refine completes_of_alters (op := (·.jobNamed)) rfl hop (halters.mono (by simp) (by simp)) (.inl rfl) fun hkeeps hmem =>
    ⟨?_, by rw [hpipe], by rw [hpipe], ?_, ?_, by rw [hpipe], by rw [hpipe], hmem, hkeeps⟩
  · rw [job_finish, job_setLastPipe, job_named]
    rfl
  · rw [on_finish, on_setLastPipe, on_next_named]
  · rw [finish_dis]
    exact lastPipe_setLastPipe _ (jb.namedTo p) (some p)

/-! ## JOB_START (R195) -/

/-- Job `b`, coded by pipe `p` from source samples `src`. -/
def Job.runOn (b : Job) (p : Nat) (src : RowPix) : Job := { b with st := .running, pipe := some p, ran := p :: b.ran, src := src }

/-- Pipe `p`, now `y`, loads `smp` samples and starts cold (R160, R170). -/
def State.coldStarted (s : State) (p : Nat) (y : PipeSt) (smp : Nat) : State :=
  (((s.setPipe p y).countFill p smp).bump (R.ENC_PIPE_COLD_CNT p)).bump (R.DIS_PIPE_JOB_CNT p)

section
variable (s : State) (p : Nat) (y : PipeSt) (smp : Nat)

theorem alters_countFill (ranges : List (Nat × Nat)) :
    Alters [R.DIS_PIPE_STATUS p, R.ENC_PIPE_FILL_SMP p] [.dis] ranges [] s (s.countFill p smp) := by
  rw [State.countFill]
  exact (alters_setPipe s p _ ranges).trans (alters_bumpBy _ _ _ ranges)

@[simp] theorem pipe_countFill : (s.countFill p smp).pipe p = { s.pipe p with smpRem := ((s.pipe p).smpRem + smp) % 1024 } := by
  rw [State.countFill, pipe_bumpBy, pipe_setPipe_same]

@[simp] theorem job_countFill (j : Nat) : (s.countFill p smp).job j = s.job j := by rw [State.countFill, job_bumpBy, job_setPipe]

theorem alters_coldStarted (ranges : List (Nat × Nat)) :
    Alters [R.DIS_PIPE_STATUS p, R.ENC_PIPE_FILL_SMP p, R.ENC_PIPE_COLD_CNT p, R.DIS_PIPE_JOB_CNT p] [.dis] ranges [] s (s.coldStarted p y smp) := by
  rw [State.coldStarted]
  exact ((((alters_setPipe s p y ranges).trans (alters_countFill _ p smp ranges)).trans (alters_bump _ (R.ENC_PIPE_COLD_CNT p) ranges)).trans
    (alters_bump _ (R.DIS_PIPE_JOB_CNT p) ranges)).mono (by simp) (by simp)

@[simp] theorem job_coldStarted (j : Nat) : (s.coldStarted p y smp).job j = s.job j := by
  rw [State.coldStarted, job_bump, job_bump, job_countFill, job_setPipe]

@[simp] theorem pipe_coldStarted : (s.coldStarted p y smp).pipe p = { y with smpRem := (y.smpRem + smp) % 1024 } := by
  rw [State.coldStarted, pipe_bump, pipe_bump, pipe_countFill, pipe_setPipe_same]

theorem outside_coldStarted {a : Nat} (hlo : 0xA0000 ≤ a) (hhi : a < 0xA0400) (hp : p < 64) :
    a ∉ [R.DIS_PIPE_STATUS p, R.ENC_PIPE_FILL_SMP p, R.ENC_PIPE_COLD_CNT p, R.DIS_PIPE_JOB_CNT p] := by
  simp only [List.mem_cons, List.not_mem_nil, or_false, R.DIS_PIPE_STATUS, R.ENC_PIPE_FILL_SMP, R.ENC_PIPE_COLD_CNT, R.DIS_PIPE_JOB_CNT]
  omega

theorem on_coldStarted {z : Fld} (hlo : 0xA0000 ≤ z.addr) (hhi : z.addr < 0xA0400) (hp : p < 64) : (s.coldStarted p y smp).on z = s.on z :=
  (alters_coldStarted s p y smp []).frame.on_eq (outside_coldStarted p hlo hhi hp)

theorem rdn_coldStarted {a : Nat} (hlo : 0xA0000 ≤ a) (hhi : a < 0xA0400) (hp : p < 64) : (s.coldStarted p y smp).rdn a = s.rdn a :=
  (alters_coldStarted s p y smp []).frame.rdn_eq (outside_coldStarted p hlo hhi hp)

@[simp] theorem clk_coldStarted : (s.coldStarted p y smp).clk = s.clk := (alters_coldStarted s p y smp []).frame.part (p := .clk) (by simp)

theorem rdn_cold_coldStarted : (s.coldStarted p y smp).rdn (R.ENC_PIPE_COLD_CNT p) = (s.rdn (R.ENC_PIPE_COLD_CNT p) + 1) % 2 ^ 32 := by
  have hfill : ((s.setPipe p y).countFill p smp).rdn (R.ENC_PIPE_COLD_CNT p) = s.rdn (R.ENC_PIPE_COLD_CNT p) :=
    ((alters_setPipe s p y []).trans (alters_countFill _ p smp [])).frame.rdn_eq (by
      simp only [List.cons_append, List.nil_append, List.mem_cons, List.not_mem_nil, or_false, R.DIS_PIPE_STATUS, R.ENC_PIPE_FILL_SMP, R.ENC_PIPE_COLD_CNT]
      omega)
  rw [State.coldStarted, rdn_bump_ne _ (by simp only [R.ENC_PIPE_COLD_CNT, R.DIS_PIPE_JOB_CNT]; omega), rdn_bump_same, hfill]

theorem rdn_jobs_coldStarted : (s.coldStarted p y smp).rdn (R.DIS_PIPE_JOB_CNT p) = (s.rdn (R.DIS_PIPE_JOB_CNT p) + 1) % 2 ^ 32 := by
  have hfill : (((s.setPipe p y).countFill p smp).bump (R.ENC_PIPE_COLD_CNT p)).rdn (R.DIS_PIPE_JOB_CNT p) = s.rdn (R.DIS_PIPE_JOB_CNT p) :=
    (((alters_setPipe s p y []).trans (alters_countFill _ p smp [])).trans (alters_bump _ _ [])).frame.rdn_eq (by
      simp only [List.cons_append, List.nil_append, List.mem_cons, List.not_mem_nil, or_false, R.DIS_PIPE_STATUS, R.ENC_PIPE_FILL_SMP, R.ENC_PIPE_COLD_CNT,
        R.DIS_PIPE_JOB_CNT]
      omega)
  rw [State.coldStarted, rdn_bump_same, hfill]

/-- DIS_PIPE_p_STATUS names the channel of the job that the pipe runs. -/
theorem f_ch_coldStarted {j : Nat} {b : Job} (hrun : y.running = some j) (hjob : s.job j = some b) :
    (s.coldStarted p y smp).f (F.DIS_PIPE_STATUS_CH p) = b.ch % 32 := by
  rw [State.coldStarted, f_bump_ne _ (by simp only [R.DIS_PIPE_STATUS, R.DIS_PIPE_JOB_CNT]; omega),
    f_bump_ne _ (by simp only [R.DIS_PIPE_STATUS, R.ENC_PIPE_COLD_CNT]; omega), State.countFill, State.bumpBy,
    f_wrn_ne _ _ (by simp only [R.DIS_PIPE_STATUS, R.ENC_PIPE_FILL_SMP]; omega), pipe_setPipe_same]
  exact f_ch_setPipe p hrun hjob

end


/-- The source samples that job `b` codes: composed at its first start, kept for its replays (R204). -/
def State.sourceOf (s : State) (b : Job) : RowPix :=
  if b.src = {} then (match (s.encCh b.ch).picOf b.rho with | some q => s.composedRow b.ch q.startV b.row | none => {}) else b.src

/-- Pipe `p` as it runs job `b`, started cold now. -/
def State.coldPipe (s : State) (p : Nat) (b : Job) : PipeSt :=
  { s.pipe p with running := some b.idx, next := if (s.pipe p).next = some b.idx then none else (s.pipe p).next, stage := none,
                  store := some (s.startBox b), startV := s.clk.vpos, startNs := s.clk.ns, warm := false,
                  fillNs := max s.clk.ns ((s.pipe p).namedNs + tFill (s.startSamples b false)) }

/-- Pipe `p` starts job `b` cold. -/
def State.startCold (s : State) (p : Nat) (b : Job) : State :=
  (s.updJob (b.runOn p (s.sourceOf b))).coldStarted p (s.coldPipe p b) (s.startSamples b false)

theorem startBox_runOn (s : State) (b : Job) (p : Nat) (src : RowPix) :
    s.startBox { b with st := .running, pipe := some p, ran := p :: b.ran, src := src } = s.startBox b := rfl

section
variable {s : State} {p : Nat} {b : Job}

theorem alters_startCold (hfits : s.lbRec b.idx + 64 ≤ 2 ^ 38) :
    Alters [R.DIS_PIPE_STATUS p, R.ENC_PIPE_FILL_SMP p, R.ENC_PIPE_COLD_CNT p, R.DIS_PIPE_JOB_CNT p] [.dis, .hbm, .mem] [(s.lbRec b.idx + 56, 4)] []
      s (s.startCold p b) :=
  ((alters_updJob (b := b.runOn p (s.sourceOf b)) rfl hfits).trans (alters_coldStarted _ p _ _ _)).mono (by simp) (by simp)

theorem job_startCold : (s.startCold p b).job b.idx = some (b.runOn p (s.sourceOf b)) := by
  rw [State.startCold, job_coldStarted]
  exact job_updJob_same s (b.runOn p _)

theorem pipe_startCold :
    (s.startCold p b).pipe p = { s.coldPipe p b with smpRem := ((s.coldPipe p b).smpRem + s.startSamples b false) % 1024 } := by
  rw [State.startCold, pipe_coldStarted]

theorem on_startCold {z : Fld} (hlo : 0xA0000 ≤ z.addr) (hhi : z.addr < 0xA0400) (hp : p < 64) : (s.startCold p b).on z = s.on z := by
  rw [State.startCold, on_coldStarted _ _ _ _ hlo hhi hp, on_updJob]

theorem rdn_cold_startCold : (s.startCold p b).rdn (R.ENC_PIPE_COLD_CNT p) = (s.rdn (R.ENC_PIPE_COLD_CNT p) + 1) % 2 ^ 32 := by
  rw [State.startCold, rdn_cold_coldStarted, rdn_updJob]

theorem rdn_jobs_startCold : (s.startCold p b).rdn (R.DIS_PIPE_JOB_CNT p) = (s.rdn (R.DIS_PIPE_JOB_CNT p) + 1) % 2 ^ 32 := by
  rw [State.startCold, rdn_jobs_coldStarted, rdn_updJob]

theorem rdn_startCold {a : Nat} (hlo : 0xA0000 ≤ a) (hhi : a < 0xA0400) (hp : p < 64) : (s.startCold p b).rdn a = s.rdn a := by
  rw [State.startCold, rdn_coldStarted _ _ _ _ hlo hhi hp, rdn_updJob]

@[simp] theorem clk_startCold : (s.startCold p b).clk = s.clk := by rw [State.startCold, clk_coldStarted, clk_updJob]

theorem f_ch_startCold : (s.startCold p b).f (F.DIS_PIPE_STATUS_CH p) = b.ch % 32 :=
  f_ch_coldStarted _ p _ _ (b := b.runOn p (s.sourceOf b)) rfl (job_updJob_same s (b.runOn p (s.sourceOf b)))

theorem trk_start_off (htrk : s.on F.DIS_TRK_CTL_EN = false) (hp : p < 64) : (s.startCold p b).on F.DIS_TRK_CTL_EN = false :=
  (on_startCold (by decide) (by decide) hp).trans htrk

/-- A job that is neither warm nor late starts cold; the Track buffer records its start, and as a replay that too. -/
theorem startOn_cold (hjob : s.job b.idx = some b) (hwarm : b.isReplay = true ∨ b.row = 0) (hdue : b.isReplay = true ∨ s.clk.vpos ≤ b.latest) :
    s.startOn p b = (if b.isReplay then (s.startCold p b).trk 6 p false (some (b.runOn p (s.sourceOf b))) b.replays
      else (s.startCold p b).bump R.DIS_JOB_CNT).trk 3 p false (some (b.runOn p (s.sourceOf b))) 0 := by
  have hcold : (!b.isReplay && !b.moved && decide (s.jobWidth b ≤ 9) && decide (0 < b.row) && (s.pipe p).last == some (b.ch, b.k, b.row - 1, b.col)) =
      false := by rcases hwarm with h | h <;> simp [h]
  have hlate : (!b.isReplay && decide (b.latest < s.clk.vpos) && !s.clk.isAt b.latest && !b.missed) = false := by
    rcases hdue with h | h
    · simp [h]
    · simp [Nat.not_lt.mpr h]
  simp only [State.startCold, State.coldStarted, State.coldPipe, Job.runOn, State.sourceOf]
  simp only [State.startOn, hcold, hlate, hjob, Bool.false_eq_true, if_false, Option.getD_some, clk_updJob, startBox_congr (regs_updJob s _),
    startBox_runOn] <;> rfl

/-- A first run of the first row of its picture starts cold, in time. -/
theorem startOn_first_row (hp : p < 64) (hjob : s.job b.idx = some b) (hfirst : b.isReplay = false) (hrow : b.row = 0) (hdue : s.clk.vpos ≤ b.latest)
    (htrk : s.on F.DIS_TRK_CTL_EN = false) : s.startOn p b = (s.startCold p b).bump R.DIS_JOB_CNT := by
  have hoff : ((s.startCold p b).bump R.DIS_JOB_CNT).on F.DIS_TRK_CTL_EN = false := by
    rw [on_bump_ne _ (by decide), trk_start_off htrk hp]
  rw [startOn_cold hjob (.inr hrow) (.inr hdue), if_neg (Bool.eq_false_iff.mp hfirst), trk_off hoff]

/-- A replay starts cold. -/
theorem startOn_replay (hp : p < 64) (hjob : s.job b.idx = some b) (hreplay : b.isReplay = true) (htrk : s.on F.DIS_TRK_CTL_EN = false) :
    s.startOn p b = s.startCold p b := by
  have hoff : (s.startCold p b).on F.DIS_TRK_CTL_EN = false := trk_start_off htrk hp
  rw [startOn_cold hjob (.inl hreplay) (.inl hreplay), if_pos hreplay, trk_off hoff, trk_off hoff]

/-- A pipe that runs no job starts its next one once time has come to D. -/
theorem jobStart_of_next {j : Nat} {q : Clock} (hrun : (s.pipe p).running = none) (hnext : (s.pipe p).next = some j) (hjob : s.job j = some b)
    (hpos : s.toPos 7 b.dPos = some (s.setClk q)) : s.jobStart p = (s.setClk q).startOn p b := by
  simp only [State.jobStart, hrun, hnext, hjob, hpos]

end

/-- JOB_START, of a first run of the first row of its picture, in time. -/
theorem jobStart_completes {s : State} {p j : Nat} {jb : Job} {q : Clock} (hp : p < 64) (hrun : (s.pipe p).running = none)
    (hnext : (s.pipe p).next = some j) (hjob : s.job j = some jb) (hidx : jb.idx = j) (hj : j < 262144) (hfirst : jb.isReplay = false) (hrow : jb.row = 0)
    (hpos : s.begin.toPos 7 jb.dPos = some { s.begin with clk := q }) (hdue : q.vpos ≤ jb.latest) (htrk : s.on F.DIS_TRK_CTL_EN = false)
    (hlb : oneStack s.lbAddr 0x1401000 = true) :
    Completes (.jobStart p) s fun t => (t.job j).map (fun x => (x.st, x.pipe, x.ran)) = some (.running, some p, p :: jb.ran) ∧
      (t.pipe p).running = some j ∧ (t.pipe p).next = none ∧ (t.pipe p).startV = q.vpos ∧ (t.pipe p).warm = false ∧
      t.rdn (R.ENC_PIPE_COLD_CNT p) = (s.rdn (R.ENC_PIPE_COLD_CNT p) + 1) % 2 ^ 32 ∧
      t.rdn (R.DIS_PIPE_JOB_CNT p) = (s.rdn (R.DIS_PIPE_JOB_CNT p) + 1) % 2 ^ 32 ∧ t.rdn R.DIS_JOB_CNT = (s.rdn R.DIS_JOB_CNT + 1) % 2 ^ 32 ∧
      t.f (F.DIS_PIPE_STATUS_CH p) = jb.ch % 32 ∧ t.clk = q ∧ KeepsMem [(s.lbRec j + 56, 4)] s t ∧
      Keeps [R.DIS_PIPE_STATUS p, R.ENC_PIPE_FILL_SMP p, R.ENC_PIPE_COLD_CNT p, R.DIS_PIPE_JOB_CNT p, R.DIS_JOB_CNT] [] [.dis, .hbm, .mem, .clk] s t := by
  subst hidx
  have hop := (jobStart_of_next (s := s.begin) hrun hnext hjob hpos).trans
    (startOn_first_row (s := s.begin.setClk q) hp (by rwa [job_setClk]) hfirst hrow (by rwa [clk_setClk]) htrk)
  have hfits : (s.begin.setClk q).lbRec jb.idx + 64 ≤ 2 ^ 38 := by rw [lbRec_setClk, lbRec_begin]; exact lbRec_fits hlb hj
  have hcold := alters_startCold (p := p) hfits
  have hcount := alters_bump ((s.begin.setClk q).startCold p jb) R.DIS_JOB_CNT [(s.lbRec jb.idx + 56, 4)]
  rw [lbRec_setClk, lbRec_begin] at hcold
  refine completes_of_alters (op := (·.idx p 64 (·.jobStart p))) rfl ((idx_of_lt hp).trans hop)
    ((((alters_setClk _ q _).trans hcold).trans hcount).mono (by simp) (by simp)) (.inl rfl) fun hkeeps hmem =>
      ⟨?_, ?_, ?_, ?_, ?_, ?_, ?_, ?_, ?_, ?_, hmem, hkeeps⟩
  · rw [job_finish, job_bump, job_startCold]
    rfl
  · rw [pipe_finish, pipe_bump, pipe_startCold]
    rfl
  · rw [pipe_finish, pipe_bump, pipe_startCold]
    exact if_pos hnext
  · rw [pipe_finish, pipe_bump, pipe_startCold]
    rfl
  · rw [pipe_finish, pipe_bump, pipe_startCold]
    rfl
  · rw [rdn_finish, rdn_bump_ne _ (by simp only [R.ENC_PIPE_COLD_CNT, R.DIS_JOB_CNT]; omega), rdn_cold_startCold]
    rfl
  · rw [rdn_finish, rdn_bump_ne _ (by simp only [R.DIS_PIPE_JOB_CNT, R.DIS_JOB_CNT]; omega), rdn_jobs_startCold]
    rfl
  · rw [rdn_finish, rdn_bump_same, rdn_startCold (by decide) (by decide) hp, rdn_setClk, rdn_begin]
  · rw [f_finish, f_bump_ne _ (by simp only [R.DIS_PIPE_STATUS, R.DIS_JOB_CNT]; omega), f_ch_startCold]
  · rw [finish_clk, bump_clk, clk_startCold, clk_setClk]

/-! ## LATEST_START (R195) -/

/-- Job `b` has missed its latest start: it is marked, and the miss counted. -/
def State.missCounted (s : State) (b : Job) : State :=
  ((s.setJob b.idx (some { b with missed := true })).bump R.DIS_DLMISS_CNT).setF F.DIS_FLAGS_DL_MISS 1

/-- A miss of channel `n` in Meridian frame `fr` has been reported. -/
def State.missSaid (s : State) (n fr : Nat) : State :=
  { s with dis := { s.dis with missFrame := Tab.put (fun _ => (none : Option Nat)) s.dis.missFrame n (some fr) } }

theorem alters_missSaid (s : State) (n fr : Nat) : Alters [] [.dis] [] [] s (s.missSaid n fr) :=
  Frame.alters (t := s.missSaid n fr) (frame_dis s _) rfl (by simp) []

section
variable (s : State) (b : Job)

theorem alters_missCounted : Alters [R.DIS_DLMISS_CNT, R.DIS_FLAGS] [.dis] [] [] s (s.missCounted b) :=
  (((frame_setJob s _ _).alters rfl (by simp) []).trans (alters_bump _ _ _)).trans (alters_setF _ F.DIS_FLAGS_DL_MISS 1 _)

theorem job_missCounted : (s.missCounted b).job b.idx = some { b with missed := true } := job_setJob_same s _ _

theorem rdn_missCounted : (s.missCounted b).rdn R.DIS_DLMISS_CNT = (s.rdn R.DIS_DLMISS_CNT + 1) % 2 ^ 32 := by
  rw [State.missCounted, rdn_setF_ne _ _ (by decide), rdn_bump_same]
  rfl

theorem on_missCounted : (s.missCounted b).on F.DIS_FLAGS_DL_MISS = true := on_setF_same _ _ (by decide) (by decide)

end

/-- The first miss of a channel in a Meridian frame is reported. -/
theorem missedStart_first {s : State} {b : Job} (htrk : s.on F.DIS_TRK_CTL_EN = false)
    (hfirst : Tab.get (fun _ => (none : Option Nat)) s.dis.missFrame b.ch ≠ some (s.clk.vpos / s.clk.fu)) :
    s.missedStart b = ((s.missCounted b).raise 0x0A07 b.ch).missSaid b.ch (s.clk.vpos / s.clk.fu) := by
  have hoff : (s.missCounted b).on F.DIS_TRK_CTL_EN = false := by
    rw [(alters_missCounted s b).frame.on_eq (by decide), htrk]
  have hsaid : (Tab.get (fun _ => (none : Option Nat)) s.dis.missFrame b.ch == some (s.clk.vpos / s.clk.fu)) = false := beq_false_of_ne hfirst
  simp only [State.missCounted] at hoff ⊢
  simp only [State.missedStart, hsaid, trk_off hoff, Bool.false_eq_true, if_false]
  rfl

/-- A first run that waits at its latest start has missed it. -/
theorem latestStart_of_due {s : State} {b : Job} {j : Nat} {q : Clock} (hjob : s.job j = some b) (hfirst : b.isReplay = false) (hmissed : b.missed = false)
    (hready : b.st = .ready) (hpos : s.toPos 7 b.latest = some (s.setClk q)) : s.latestStart j = (s.setClk q).missedStart b := by
  simp [State.latestStart, hjob, hfirst, hmissed, hready, hpos]

/-- LATEST_START, of the first miss of a channel in its Meridian frame. -/
theorem latestStart_completes {s : State} {j : Nat} {jb : Job} {q : Clock} (hjob : s.job j = some jb) (hidx : jb.idx = j) (hfirst : jb.isReplay = false)
    (hmissed : jb.missed = false) (hready : jb.st = .ready) (hch : jb.ch < 32) (hpos : s.begin.toPos 7 jb.latest = some { s.begin with clk := q })
    (hsaid : Tab.get (fun _ => (none : Option Nat)) s.dis.missFrame jb.ch ≠ some (q.vpos / q.fu)) (htrk : s.on F.DIS_TRK_CTL_EN = false) :
    Completes (.latestStart j) s fun t => (t.job j).map (fun x => (x.missed, x.st)) = some (true, .ready) ∧
      t.rdn R.DIS_DLMISS_CNT = (s.rdn R.DIS_DLMISS_CNT + 1) % 2 ^ 32 ∧ t.on F.DIS_FLAGS_DL_MISS = true ∧ t.clk = q ∧ Logged [⟨0x0A07, jb.ch⟩] s t ∧
      Keeps [R.DIS_DLMISS_CNT, R.DIS_FLAGS] [] [.dis, .clk, .log] s t := by
  subst hidx
  have hop := (latestStart_of_due (s := s.begin) hjob hfirst hmissed hready hpos).trans (missedStart_first (s := s.begin.setClk q) (b := jb) htrk hsaid)
  have halters : Alters [R.DIS_DLMISS_CNT, R.DIS_FLAGS] [.dis, .clk] [] [⟨0x0A07, jb.ch⟩] s.begin _ :=
    ((((alters_setClk s.begin q []).trans (alters_missCounted _ jb)).trans (alters_raise _ 0x0A07 jb.ch [])).trans
      (alters_missSaid _ jb.ch (q.vpos / q.fu))).mono (by simp) (by simp)
  refine completes_of_alters (op := (·.latestStart jb.idx)) rfl hop
    (halters.mono (r₂ := [R.DIS_DLMISS_CNT, R.DIS_FLAGS]) (p₂ := [.dis, .clk, .log]) (by simp) (by simp)) (.inr (by simp)) fun hkeeps _ =>
      ⟨?_, ?_, ?_, ?_, halters.logged (by simp) ?_ ?_ ?_, hkeeps⟩
  · have hmark : (((s.begin.setClk q).missCounted jb).raise 0x0A07 jb.ch).job jb.idx = some { jb with missed := true } := by
      rw [job_raise, job_missCounted]
    rw [job_finish]
    refine (congrArg (Option.map _) hmark).trans ?_
    simp [hready]
  · rw [rdn_finish]
    exact rdn_missCounted (s.begin.setClk q) jb
  · rw [on_finish]
    exact on_missCounted (s.begin.setClk q) jb
  · rfl
  · rfl
  · simp
  · simp; omega

end Sys2Proof.Machine
end

section
/-!
PROOFS. Faults of pipes (R199, R203): a fault that retires no pipe, and the commands that detect one.
-/

namespace Sys2Proof.Machine

/-! ## A fault that retires no pipe (R203) -/

/-- Job `b` after a fault of class `cls` on pipe `p`: it waits as a replay, or has failed. -/
def Job.faulted (b : Job) (p cls : Nat) (again : Bool) : Job :=
  { b with st := if again then .ready else .failed, isReplay := again || b.isReplay, fault := cls, pipe := some p }

/-- The frames of the faults that count towards the retirement of pipe `p` after one of class `cls` now (R199). -/
def State.faultFrames (s : State) (p cls : Nat) : List Nat :=
  if cls ≤ 5 then (s.clk.vpos / s.clk.fu :: (s.pipe p).faults).filter (fun f => decide (s.clk.vpos / s.clk.fu < f + s.f F.DIS_RETIRE_WIN))
  else (s.pipe p).faults

/-- Pipe `p` after a fault of class `cls` of its job `b`, or of its staged job. -/
def State.faultedPipe (s : State) (p : Nat) (b : Job) (cls : Nat) (staged : Bool) : PipeSt :=
  let x := s.pipe p
  let x : PipeSt := if staged then { x with next := none, stage := none }
    else { x with running := none, last := if cls = 1 then none else some b.mark, store := if cls = 1 then none else x.store }
  { x with faults := s.faultFrames p cls }

/-- A fault of class `cls` is counted and reported, and pipe `p` is now `x`. -/
def State.faultCounted (s : State) (p : Nat) (x : PipeSt) (cls : Nat) : State :=
  ((((s.setPipe p x).bump (R.DIS_PIPE_FAULT_CNT p)).wrn (R.DIS_PIPE_LAST_FAULT p) cls).setF F.DIS_FLAGS_FAULT 1).raise 0x0A02 p

/-- A parity error is counted also in its own counter (R170). -/
def State.parityCounted (s : State) (p cls : Nat) : State := if cls = 1 then s.bump (R.ENC_PIPE_PAR_CNT p) else s

/-- A fault of job `b` that retires no pipe. -/
def State.faulted (s : State) (p : Nat) (b : Job) (cls : Nat) (staged again : Bool) : State :=
  ((s.faultCounted p (s.faultedPipe p b cls staged) cls).parityCounted p cls).updJob (b.faulted p cls again)

/-- The registers that a fault of class `cls` changes. -/
def faultRegs (p cls : Nat) : List Nat :=
  [R.DIS_PIPE_STATUS p, R.DIS_PIPE_FAULT_CNT p, R.DIS_PIPE_LAST_FAULT p, R.DIS_FLAGS] ++ if cls = 1 then [R.ENC_PIPE_PAR_CNT p] else []

section
variable (s : State) (p cls : Nat) (x : PipeSt) (b : Job) (staged again : Bool)

theorem alters_faultCounted (ranges : List (Nat × Nat)) :
    Alters [R.DIS_PIPE_STATUS p, R.DIS_PIPE_FAULT_CNT p, R.DIS_PIPE_LAST_FAULT p, R.DIS_FLAGS] [.dis] ranges [⟨0x0A02, p⟩] s (s.faultCounted p x cls) :=
  (((((alters_setPipe s p x ranges).trans (alters_bump _ _ ranges)).trans (alters_wrn _ _ cls ranges)).trans
    (alters_setF _ F.DIS_FLAGS_FAULT 1 ranges)).trans (alters_raise _ 0x0A02 p ranges)).mono (by simp) (by simp)

theorem alters_parityCounted (ranges : List (Nat × Nat)) :
    Alters (if cls = 1 then [R.ENC_PIPE_PAR_CNT p] else []) [] ranges [] s (s.parityCounted p cls) := by
  unfold State.parityCounted
  split
  · exact alters_bump s _ ranges
  · exact (Frame.refl s).alters rfl (by simp) ranges

theorem alters_counted (ranges : List (Nat × Nat)) :
    Alters (faultRegs p cls) [.dis] ranges [⟨0x0A02, p⟩] s ((s.faultCounted p x cls).parityCounted p cls) :=
  (alters_faultCounted s p cls x ranges).trans (alters_parityCounted _ p cls ranges)

@[simp] theorem pipe_parityCounted (i : Nat) : (s.parityCounted p cls).pipe i = s.pipe i := by
  unfold State.parityCounted
  split <;> rfl

theorem rdn_parityCounted {a : Nat} (ha : a ≠ R.ENC_PIPE_PAR_CNT p) : (s.parityCounted p cls).rdn a = s.rdn a := by
  unfold State.parityCounted
  split
  · exact rdn_bump_ne s ha
  · rfl

theorem not_mem_faultRegs {a : Nat} (hlo : 0xA0000 ≤ a) (hhi : a < 0xA0400) (hflags : a ≠ R.DIS_FLAGS) (hp : p < 64) : a ∉ faultRegs p cls := by
  have hpar : a ≠ R.ENC_PIPE_PAR_CNT p := by
    simp only [R.ENC_PIPE_PAR_CNT]
    omega
  have hpipe : a ≠ R.DIS_PIPE_STATUS p ∧ a ≠ R.DIS_PIPE_FAULT_CNT p ∧ a ≠ R.DIS_PIPE_LAST_FAULT p := by
    simp only [R.DIS_PIPE_STATUS, R.DIS_PIPE_FAULT_CNT, R.DIS_PIPE_LAST_FAULT]
    omega
  obtain ⟨hstatus, hcount, hlast⟩ := hpipe
  unfold faultRegs
  split <;> simp [hstatus, hcount, hlast, hflags, hpar]

theorem alters_faulted {i : Nat} (hidx : b.idx = i) (hfits : s.lbRec i + 64 ≤ 2 ^ 38) (hp : p < 64) :
    Alters (faultRegs p cls) [.dis, .hbm, .mem] [(s.lbRec i + 56, 4)] [⟨0x0A02, p⟩] s (s.faulted p b cls staged again) := by
  have hcount := alters_counted s p cls (s.faultedPipe p b cls staged) [(s.lbRec i + 56, 4)]
  have hrec := hcount.frame.lbRec_eq (not_mem_faultRegs p cls (by decide) (by decide) (by decide) hp)
    (not_mem_faultRegs p cls (by decide) (by decide) (by decide) hp) i
  have hupd := alters_updJob (b := b.faulted p cls again) hidx (hrec ▸ hfits)
  rw [hrec] at hupd
  exact (hcount.trans hupd).mono (by simp) (by simp)

@[simp] theorem pipe_faulted : (s.faulted p b cls staged again).pipe p = s.faultedPipe p b cls staged := by
  rw [State.faulted, pipe_updJob, pipe_parityCounted, State.faultCounted, pipe_raise, pipe_setF, pipe_wrn, pipe_bump, pipe_setPipe_same]

theorem job_faulted : (s.faulted p b cls staged again).job b.idx = some (b.faulted p cls again) := by
  rw [State.faulted]
  exact job_updJob_same _ (b.faulted p cls again)

@[simp] theorem clk_faulted : (s.faulted p b cls staged again).clk = s.clk := by
  rw [State.faulted, clk_updJob]
  exact (alters_counted s p cls _ []).frame.part (p := .clk) (by simp)

theorem rdn_count_faulted (hp : p < 64) :
    (s.faulted p b cls staged again).rdn (R.DIS_PIPE_FAULT_CNT p) = (s.rdn (R.DIS_PIPE_FAULT_CNT p) + 1) % 2 ^ 32 := by
  rw [State.faulted, rdn_updJob, rdn_parityCounted _ _ _ (by simp only [R.DIS_PIPE_FAULT_CNT, R.ENC_PIPE_PAR_CNT]; omega), State.faultCounted, rdn_raise,
    rdn_setF_ne _ _ (by simp only [R.DIS_PIPE_FAULT_CNT, R.DIS_FLAGS]; omega),
    rdn_wrn_ne _ _ (by simp only [R.DIS_PIPE_FAULT_CNT, R.DIS_PIPE_LAST_FAULT]; omega),
    rdn_bump_same, (frame_setPipe s p _).rdn_eq (by simp only [List.mem_singleton, R.DIS_PIPE_FAULT_CNT, R.DIS_PIPE_STATUS]; omega)]

theorem rdn_last_faulted (hp : p < 64) : (s.faulted p b cls staged again).rdn (R.DIS_PIPE_LAST_FAULT p) = cls % 2 ^ 32 := by
  rw [State.faulted, rdn_updJob, rdn_parityCounted _ _ _ (by simp only [R.DIS_PIPE_LAST_FAULT, R.ENC_PIPE_PAR_CNT]; omega), State.faultCounted, rdn_raise,
    rdn_setF_ne _ _ (by simp only [R.DIS_PIPE_LAST_FAULT, R.DIS_FLAGS]; omega), rdn_wrn_same]

theorem rdn_parity_faulted (hp : p < 64) :
    (s.faulted p b cls staged again).rdn (R.ENC_PIPE_PAR_CNT p) = (s.rdn (R.ENC_PIPE_PAR_CNT p) + if cls = 1 then 1 else 0) % 2 ^ 32 := by
  have hkept : (s.faultCounted p (s.faultedPipe p b cls staged) cls).rdn (R.ENC_PIPE_PAR_CNT p) = s.rdn (R.ENC_PIPE_PAR_CNT p) :=
    (alters_faultCounted s p cls _ []).frame.rdn_eq (by
      simp only [List.mem_cons, List.not_mem_nil, or_false, R.DIS_PIPE_STATUS, R.DIS_PIPE_FAULT_CNT, R.DIS_PIPE_LAST_FAULT, R.DIS_FLAGS, R.ENC_PIPE_PAR_CNT]
      omega)
  rw [State.faulted, rdn_updJob, State.parityCounted]
  split
  · rw [rdn_bump_same, hkept]
  · rw [hkept, Nat.add_zero, Nat.mod_eq_of_lt (rdn_lt s _)]

theorem on_flag_faulted (hp : p < 64) : (s.faulted p b cls staged again).on F.DIS_FLAGS_FAULT = true := by
  have hpar : R.DIS_FLAGS ∉ (if cls = 1 then [R.ENC_PIPE_PAR_CNT p] else []) := by
    split
    · simp only [List.mem_singleton, R.DIS_FLAGS, R.ENC_PIPE_PAR_CNT]
      omega
    · exact List.not_mem_nil
  rw [State.faulted, on_updJob, (alters_parityCounted _ p cls []).frame.on_eq hpar, State.faultCounted, on_raise]
  exact on_setF_same _ F.DIS_FLAGS_FAULT (by decide) (by decide)

end

/-- R203 in its steps: the fault is counted, its job takes it, and the pipe may be retired. -/
theorem faultOn_eq (s : State) (p : Nat) (b : Job) (cls : Nat) (staged : Bool) : s.faultOn p b cls staged =
    let u := ((s.faultCounted p (s.faultedPipe p b cls staged) cls).trk 5 p (s.faultedPipe p b cls staged).warm (some b) cls).parityCounted p cls
    let again := decide (cls ≤ 5) && decide (b.replays < u.f F.DIS_CTL_MAX_REPLAY)
    let v := if b.st == .dropped || b.complete then u
      else if again then (u.updJob (b.faulted p cls again)).trk 1 p false (some b) 0 else u.updJob (b.faulted p cls again)
    if decide (cls ≤ 5) && decide (v.f F.DIS_RETIRE_THR ≤ (s.faultFrames p cls).length) && !v.on (F.DIS_PIPE_STATUS_RETIRED p) then v.retire p else v := by
  cases staged <;> rfl

/-- A job that ran or was named takes the fault; the pipe is not retired. -/
theorem faultOn_eq_faulted {s : State} {p : Nat} {b : Job} {cls : Nat} {staged again : Bool} (hp : p < 64) (hst : b.st = .running ∨ b.st = .named)
    (hagain : again = (decide (cls ≤ 5) && decide (b.replays < s.f F.DIS_CTL_MAX_REPLAY)))
    (hfew : cls ≤ 5 → (s.faultFrames p cls).length < s.f F.DIS_RETIRE_THR) (htrk : s.on F.DIS_TRK_CTL_EN = false) :
    s.faultOn p b cls staged = s.faulted p b cls staged again := by
  subst hagain
  have hlow {a : Nat} (hlo : 0xA0000 ≤ a) (hhi : a < 0xA0400) (hflags : a ≠ R.DIS_FLAGS) : a ∉ faultRegs p cls := not_mem_faultRegs p cls hlo hhi hflags hp
  have hcount := (alters_counted s p cls (s.faultedPipe p b cls staged) []).frame
  have hcountOff : (s.faultCounted p (s.faultedPipe p b cls staged) cls).on F.DIS_TRK_CTL_EN = false := by
    rw [(alters_faultCounted s p cls _ []).frame.on_eq fun h => hlow (by decide) (by decide) (by decide) (List.mem_append_left _ h), htrk]
  have hmax := hcount.f_eq (y := F.DIS_CTL_MAX_REPLAY) (hlow (by decide) (by decide) (by decide))
  have hthr (j : Job) : (((s.faultCounted p (s.faultedPipe p b cls staged) cls).parityCounted p cls).updJob j).f F.DIS_RETIRE_THR = s.f F.DIS_RETIRE_THR := by
    rw [f_congr (regs_updJob _ j), hcount.f_eq (hlow (by decide) (by decide) (by decide))]
  have hoff (j : Job) : (((s.faultCounted p (s.faultedPipe p b cls staged) cls).parityCounted p cls).updJob j).on F.DIS_TRK_CTL_EN = false := by
    rw [on_updJob, hcount.on_eq (hlow (by decide) (by decide) (by decide)), htrk]
  have hopen : (b.st == .dropped || b.complete) = false := by rcases hst with h | h <;> simp [h, Job.complete]
  have hkept : (decide (cls ≤ 5) && decide (s.f F.DIS_RETIRE_THR ≤ (s.faultFrames p cls).length)) = false := by
    rw [Bool.and_eq_false_imp]
    exact fun h => decide_eq_false (Nat.not_le.mpr (hfew (of_decide_eq_true h)))
  rw [faultOn_eq]
  simp only [trk_off hcountOff, hmax, hopen, Bool.false_eq_true, if_false, trk_off (hoff _), ite_self, hthr, hkept, Bool.false_and]
  rfl

/-- The first fault of a pipe counts once at most. -/
theorem length_faultFrames_le {s : State} {p : Nat} (cls : Nat) (hnone : (s.pipe p).faults = []) : (s.faultFrames p cls).length ≤ 1 := by
  unfold State.faultFrames
  rw [hnone]
  split
  · exact List.length_filter_le _ _
  · exact Nat.zero_le _

/-- The first fault of a pipe, of a class that a replay follows: the job that runs waits as a replay, and the pipe stays in use. -/
theorem faultOn_first {s : State} {p cls : Nat} {b : Job} (hp : p < 64) (hst : b.st = .running) (hcls : cls ≤ 5)
    (hleft : b.replays < s.f F.DIS_CTL_MAX_REPLAY) (hnone : (s.pipe p).faults = []) (hthr : 1 < s.f F.DIS_RETIRE_THR)
    (htrk : s.on F.DIS_TRK_CTL_EN = false) : s.faultOn p b cls false = s.faulted p b cls false true :=
  faultOn_eq_faulted hp (.inl hst) (by simp [hcls, hleft]) (fun _ => (length_faultFrames_le cls hnone).trans_lt hthr) htrk

/-- A command that ends in a fault, after time has run on at most, which a replay follows. -/
theorem completes_of_faulted {i : Instr} {op : State → State} {s u : State} {p cls : Nat} {b : Job} {regs : List Nat} {parts wide : List Part}
    (hx : exec i s = s.run op) (hop : op s.begin = u.faulted p b cls false true) (hu : Alters [] parts [(s.lbRec b.idx + 56, 4)] [] s.begin u)
    (hp : p < 64) (hcls : cls ≤ 5) (hj : b.idx < 262144) (hlb : oneStack s.lbAddr 0x1401000 = true) (hlog : .log ∉ parts)
    (hregs : faultRegs p cls ⊆ regs) (hparts : parts ++ [.dis, .hbm, .mem] ⊆ wide) (hwide : .log ∈ wide) :
    Completes i s fun t => (t.pipe p).running = none ∧ (t.job b.idx).map (fun x => (x.st, x.isReplay, x.fault)) = some (.ready, true, cls) ∧
      t.rdn (R.DIS_PIPE_FAULT_CNT p) = (s.rdn (R.DIS_PIPE_FAULT_CNT p) + 1) % 2 ^ 32 ∧ t.rdn (R.DIS_PIPE_LAST_FAULT p) = cls ∧
      t.on F.DIS_FLAGS_FAULT = true ∧ t.rdn (R.ENC_PIPE_PAR_CNT p) = (s.rdn (R.ENC_PIPE_PAR_CNT p) + (if cls = 1 then 1 else 0)) % 2 ^ 32 ∧
      KeepsMem [(s.lbRec b.idx + 56, 4)] s t ∧ Logged [⟨0x0A02, p⟩] s t ∧ t.clk = u.clk ∧ Keeps regs [] wide s t := by
  have hrec : u.lbRec b.idx = s.lbRec b.idx := (hu.frame.lbRec_eq List.not_mem_nil List.not_mem_nil _).trans (lbRec_begin s _)
  have hfault := alters_faulted u p cls b false true rfl (hrec ▸ lbRec_fits hlb hj) hp
  rw [hrec] at hfault
  have halters := hu.trans hfault
  have hrdn (a : Nat) : u.rdn a = s.rdn a := hu.frame.rdn_eq List.not_mem_nil
  refine completes_of_alters hx hop (halters.mono hregs hparts) (.inr hwide) fun hkeeps hmem =>
    ⟨?_, ?_, ?_, ?_, ?_, ?_, hmem, halters.logged ?_ rfl ?_ ?_, ?_, hkeeps⟩
  · rw [pipe_finish, pipe_faulted]
    rfl
  · rw [job_finish, job_faulted]
    rfl
  · rw [rdn_finish, rdn_count_faulted _ _ _ _ _ _ hp, hrdn]
  · rw [rdn_finish, rdn_last_faulted _ _ _ _ _ _ hp, Nat.mod_eq_of_lt (by omega)]
  · rw [on_finish, on_flag_faulted _ _ _ _ _ _ hp]
  · rw [rdn_finish, rdn_parity_faulted _ _ _ _ _ _ hp, hrdn]
  · simp [hlog]
  · simp
  · simp; omega
  · rw [finish_clk, clk_faulted]

/-! ## COMPLETION_DEADLINE (R191, R203) -/

/-- A first run that still runs at its completion deadline is a fault of class 5. -/
theorem completionDeadline_of_running {s : State} {p : Nat} {b : Job} {q : Clock} (hjob : s.runningJob p = some b) (hfirst : b.isReplay = false)
    (hmissed : b.missed = false) (hpos : s.toPos 7 b.deadline = some (s.setClk q)) : s.completionDeadline p = (s.setClk q).faultOn p b 5 false := by
  have hdeadline : s.deadlineOf p b = b.deadline := if_neg (Bool.eq_false_iff.mp hmissed)
  simp [State.completionDeadline, hjob, hfirst, hdeadline, hpos]

/-- The job that a pipe runs. -/
theorem runningJob_of_running {s : State} {p j : Nat} {b : Job} (hrun : (s.pipe p).running = some j) (hjob : s.job j = some b) : s.runningJob p = some b := by
  simp only [State.runningJob, hrun, hjob]

/-- COMPLETION_DEADLINE, of a job with replays left, the first fault of its pipe. -/
theorem completionDeadline_completes {s : State} {p j : Nat} {jb : Job} {q : Clock} (hp : p < 64) (hrun : (s.pipe p).running = some j)
    (hjob : s.job j = some jb) (hidx : jb.idx = j) (hj : j < 262144) (hst : jb.st = .running) (hleft : jb.replays < s.f F.DIS_CTL_MAX_REPLAY)
    (hnone : (s.pipe p).faults = []) (hthr : 1 < s.f F.DIS_RETIRE_THR) (htrk : s.on F.DIS_TRK_CTL_EN = false) (hlb : oneStack s.lbAddr 0x1401000 = true)
    (hfirst : jb.isReplay = false) (hmissed : jb.missed = false) (hpos : s.begin.toPos 7 jb.deadline = some { s.begin with clk := q }) :
    Completes (.completionDeadline p) s fun t => (t.pipe p).running = none ∧
      (t.job j).map (fun x => (x.st, x.isReplay, x.fault)) = some (.ready, true, 5) ∧
      t.rdn (R.DIS_PIPE_FAULT_CNT p) = (s.rdn (R.DIS_PIPE_FAULT_CNT p) + 1) % 2 ^ 32 ∧ t.rdn (R.DIS_PIPE_LAST_FAULT p) = 5 ∧
      t.on F.DIS_FLAGS_FAULT = true ∧ KeepsMem [(s.lbRec j + 56, 4)] s t ∧ Logged [⟨0x0A02, p⟩] s t ∧ t.clk = q ∧
      Keeps [R.DIS_PIPE_STATUS p, R.DIS_PIPE_FAULT_CNT p, R.DIS_PIPE_LAST_FAULT p, R.DIS_FLAGS] [] [.dis, .hbm, .mem, .clk, .log] s t := by
  subst hidx
  have hfault := faultOn_first (s := s.begin.setClk q) (cls := 5) hp hst le_rfl hleft hnone hthr htrk
  have hop := (completionDeadline_of_running (s := s.begin) (runningJob_of_running hrun hjob) hfirst hmissed hpos).trans hfault
  exact (completes_of_faulted (op := (·.idx p 64 (·.completionDeadline p))) rfl ((idx_of_lt hp).trans hop) (alters_setClk _ q _) hp le_rfl hj hlb (by simp)
    (List.Subset.refl _) (by simp) (by simp)).imp fun t ⟨hidle, hwait, hcount, hlast, hflag, _, hmem, hlogged, hclk, hkeeps⟩ =>
      ⟨hidle, hwait, hcount, hlast, hflag, hmem, hlogged, hclk, hkeeps⟩

/-- Settles O20, command by command. -/
theorem jobStartCommandsComplete : Obligations.JobStartCommandsComplete := by
  unfold Obligations.JobStartCommandsComplete
  refine ⟨?_, ?_, ?_, ?_⟩
  · intro s j p jb hjobs hidx hj hready hfirst hspare hrow hopen htrk hlb
    exact jobNamed_completes hjobs hidx hj hready hfirst hspare hrow hopen htrk hlb
  · intro s p j jb q hp hrun hnext hjob hidx hj hfirst hrow hpos hdue htrk hlb
    exact jobStart_completes hp hrun hnext hjob hidx hj hfirst hrow hpos hdue htrk hlb
  · intro s j jb q hjob hidx hfirst hmissed hready hch hpos hsaid htrk
    exact latestStart_completes hjob hidx hfirst hmissed hready hch hpos hsaid htrk
  · intro s p j jb q hp hrun hjob hidx hj hst hleft hnone hthr htrk hlb hfirst hmissed hpos
    exact completionDeadline_completes hp hrun hjob hidx hj hst hleft hnone hthr htrk hlb hfirst hmissed hpos

end Sys2Proof.Machine
end

section
/-!
PROOFS. The faults that pipes (R203) and reference reads (R168) report, and a result with more bits than the budget of its job.
-/

namespace Sys2Proof.Machine

/-! ## JOB_COMPLETE with an overrun (R201, R203) -/

/-- Before its completion deadline a first run is not late. -/
theorem not_late_of_lt {s : State} {p v : Nat} {b : Job} (hfirst : b.isReplay = false) (hdue : v < s.deadlineOf p b) :
    (!b.isReplay && decide (s.deadlineOf p b ≤ v)) = false := by
  rw [hfirst, decide_eq_false (Nat.not_le.mpr hdue)]
  rfl

/-- A result in time, with more bits than the budget of its job, is a fault of class 4. -/
theorem jobComplete_overrun {s : State} {p j : Nat} {b : Job} (hrun : (s.pipe p).running = some j) (hjob : s.job j = some b) (hst : b.st = .running)
    (hfirst : b.isReplay = false) (hdue : (s.toNs (s.pipe p).fillNs).clk.vpos < s.deadlineOf p b) (hps : (s.toNs (s.pipe p).fillNs).clk.vpos < b.ps) :
    s.jobComplete p true = (s.toNs (s.pipe p).fillNs).faultOn p b 4 false := by
  have hrunning : (b.st != .running) = false := by rw [hst]; rfl
  have hlate := not_late_of_lt (s := s.toNs (s.pipe p).fillNs) hfirst hdue
  simp only [State.jobComplete, hrun, hjob, hrunning, hlate, if_neg (Nat.not_le.mpr hps), if_true, Bool.false_eq_true, if_false]

/-- JOB_COMPLETE with an overrun, of a job with replays left, the first fault of its pipe. -/
theorem jobComplete_overrun_completes {s : State} {p j : Nat} {jb : Job} (hp : p < 64) (hrun : (s.pipe p).running = some j) (hjob : s.job j = some jb)
    (hidx : jb.idx = j) (hj : j < 262144) (hst : jb.st = .running) (hleft : jb.replays < s.f F.DIS_CTL_MAX_REPLAY) (hnone : (s.pipe p).faults = [])
    (hthr : 1 < s.f F.DIS_RETIRE_THR) (htrk : s.on F.DIS_TRK_CTL_EN = false) (hlb : oneStack s.lbAddr 0x1401000 = true) (hfirst : jb.isReplay = false)
    (hdue : (s.toNs (s.pipe p).fillNs).clk.vpos < s.deadlineOf p jb) (hps : (s.toNs (s.pipe p).fillNs).clk.vpos < jb.ps) :
    Completes (.jobComplete p true) s fun t => (t.pipe p).running = none ∧
      (t.job j).map (fun x => (x.st, x.isReplay, x.fault)) = some (.ready, true, 4) ∧
      t.rdn (R.DIS_PIPE_FAULT_CNT p) = (s.rdn (R.DIS_PIPE_FAULT_CNT p) + 1) % 2 ^ 32 ∧ t.rdn (R.DIS_PIPE_LAST_FAULT p) = 4 ∧
      t.on F.DIS_FLAGS_FAULT = true ∧ KeepsMem [(s.lbRec j + 56, 4)] s t ∧ Logged [⟨0x0A02, p⟩] s t ∧ t.clk = (s.toNs (s.pipe p).fillNs).clk ∧
      Keeps [R.DIS_PIPE_STATUS p, R.DIS_PIPE_FAULT_CNT p, R.DIS_PIPE_LAST_FAULT p, R.DIS_FLAGS] [] [.dis, .hbm, .mem, .clk, .log] s t := by
  subst hidx
  have hfault := faultOn_first (s := s.begin.toNs (s.pipe p).fillNs) (cls := 4) hp hst (by decide) hleft hnone hthr htrk
  have hop := (jobComplete_overrun (s := s.begin) hrun hjob hst hfirst hdue hps).trans hfault
  exact (completes_of_faulted (op := (·.idx p 64 (·.jobComplete p true))) rfl ((idx_of_lt hp).trans hop)
    (alters_setClk s.begin (s.begin.toNs (s.pipe p).fillNs).clk _) hp (by decide) hj hlb (by simp) (List.Subset.refl _) (by simp) (by simp)).imp
    fun t ⟨hidle, hwait, hcount, hlast, hflag, _, hmem, hlogged, hclk, hkeeps⟩ => ⟨hidle, hwait, hcount, hlast, hflag, hmem, hlogged, hclk, hkeeps⟩

/-! ## PIPE_FAULT_REPORT (R203) -/

/-- PIPE_FAULT_REPORT, of a job with replays left, the first fault of its pipe. -/
theorem pipeFaultReport_completes {s : State} {p c j : Nat} {jb : Job} (hp : p < 64) (hrun : (s.pipe p).running = some j) (hjob : s.job j = some jb)
    (hidx : jb.idx = j) (hj : j < 262144) (hst : jb.st = .running) (hleft : jb.replays < s.f F.DIS_CTL_MAX_REPLAY) (hnone : (s.pipe p).faults = [])
    (hthr : 1 < s.f F.DIS_RETIRE_THR) (htrk : s.on F.DIS_TRK_CTL_EN = false) (hlb : oneStack s.lbAddr 0x1401000 = true) (hc : c = 1 ∨ c = 2 ∨ c = 3) :
    Completes (.pipeFaultReport p c) s fun t => (t.pipe p).running = none ∧
      (t.job j).map (fun x => (x.st, x.isReplay, x.fault)) = some (.ready, true, c) ∧
      t.rdn (R.DIS_PIPE_FAULT_CNT p) = (s.rdn (R.DIS_PIPE_FAULT_CNT p) + 1) % 2 ^ 32 ∧ t.rdn (R.DIS_PIPE_LAST_FAULT p) = c ∧
      t.on F.DIS_FLAGS_FAULT = true ∧ KeepsMem [(s.lbRec j + 56, 4)] s t ∧ Logged [⟨0x0A02, p⟩] s t ∧
      t.rdn (R.ENC_PIPE_PAR_CNT p) = (s.rdn (R.ENC_PIPE_PAR_CNT p) + (if c = 1 then 1 else 0)) % 2 ^ 32 ∧
      Keeps [R.DIS_PIPE_STATUS p, R.DIS_PIPE_FAULT_CNT p, R.DIS_PIPE_LAST_FAULT p, R.DIS_FLAGS, R.ENC_PIPE_PAR_CNT p] [] [.dis, .hbm, .mem, .log] s t := by
  subst hidx
  have hcls : c ≤ 5 := by omega
  have hreported : c = 1 ∨ c = 2 ∨ c = 3 ∨ c = 8 := by omega
  have hjob' : s.begin.runningJob p = some jb := runningJob_of_running hrun hjob
  have hop : s.begin.pipeFault p c = s.begin.faulted p jb c false true := by
    simp only [State.pipeFault, hjob', if_pos hreported]
    exact faultOn_first (s := s.begin) hp hst hcls hleft hnone hthr htrk
  have hregs : faultRegs p c ⊆ [R.DIS_PIPE_STATUS p, R.DIS_PIPE_FAULT_CNT p, R.DIS_PIPE_LAST_FAULT p, R.DIS_FLAGS, R.ENC_PIPE_PAR_CNT p] := by
    unfold faultRegs
    split <;> simp
  exact (completes_of_faulted (op := (·.idx p 64 (·.pipeFault p c))) rfl ((idx_of_lt hp).trans hop)
    ((Frame.refl s.begin).alters (parts := []) rfl (by simp) _) hp hcls hj hlb (by simp) hregs (by simp) (by simp)).imp
    fun t ⟨hidle, hwait, hcount, hlast, hflag, hpar, hmem, hlogged, _, hkeeps⟩ => ⟨hidle, hwait, hcount, hlast, hflag, hmem, hlogged, hpar, hkeeps⟩

/-! ## REFERENCE_READ_UNCORRECTABLE (R168) -/

/-- An uncorrectable reference read of job `b` is counted and reported, and its channel restarts with its next frame. -/
def State.readFaulted (s : State) (p : Nat) (b : Job) (staged : Bool) : State :=
  (((s.faulted p b 7 staged false).bump (R.ENC_CH_REF_ERR_CNT b.ch)).raise 0x0810 b.ch).requestRestart b.ch s.clk.vpos

section
variable {s : State} {p : Nat} {b : Job} {staged : Bool}

/-- The job that runs, or the one whose window is staged, fails with an uncorrectable reference read. -/
theorem refUncorrectable_of_job (hp : p < 64) (hst : b.st = .running ∨ b.st = .named)
    (hslot : (if staged then (s.pipe p).next else (s.pipe p).running) = some b.idx) (hjob : s.job b.idx = some b) (htrk : s.on F.DIS_TRK_CTL_EN = false) :
    s.refUncorrectable p staged = s.readFaulted p b staged := by
  have hfault : s.faultOn p b 7 staged = s.faulted p b 7 staged false := faultOn_eq_faulted hp hst (by simp) (fun h => absurd h (by decide)) htrk
  rw [State.readFaulted, ← hfault]
  cases staged
  case false =>
    have hrun : (s.pipe p).running = some b.idx := hslot
    simp only [State.refUncorrectable, State.runningJob, hrun, hjob, Bool.false_eq_true, if_false]
  case true =>
    have hnext : (s.pipe p).next = some b.idx := hslot
    simp only [State.refUncorrectable, hnext, hjob, if_true]

/-- Registers of encode channels are none of those that a fault changes. -/
theorem refErrCnt_not_mem_faultRegs {n : Nat} (cls : Nat) (hn : n < 32) : R.ENC_CH_REF_ERR_CNT n ∉ faultRegs p cls := by
  have hpipe : R.ENC_CH_REF_ERR_CNT n < R.ENC_PIPE_PAR_CNT p ∧ R.ENC_CH_REF_ERR_CNT n < R.DIS_FLAGS ∧ R.ENC_CH_REF_ERR_CNT n < R.DIS_PIPE_STATUS p ∧
      R.ENC_CH_REF_ERR_CNT n < R.DIS_PIPE_FAULT_CNT p ∧ R.ENC_CH_REF_ERR_CNT n < R.DIS_PIPE_LAST_FAULT p := by
    simp only [R.ENC_CH_REF_ERR_CNT, R.ENC_PIPE_PAR_CNT, R.DIS_FLAGS, R.DIS_PIPE_STATUS, R.DIS_PIPE_FAULT_CNT, R.DIS_PIPE_LAST_FAULT]
    omega
  obtain ⟨hpar, hflags, hstatus, hcount, hlast⟩ := hpipe
  unfold faultRegs
  split <;> simp [hpar.ne, hflags.ne, hstatus.ne, hcount.ne, hlast.ne]

theorem alters_readFaulted (hp : p < 64) (hfits : s.lbRec b.idx + 64 ≤ 2 ^ 38) :
    Alters (faultRegs p 7 ++ [R.ENC_CH_REF_ERR_CNT b.ch]) [.dis, .hbm, .mem, .enc] [(s.lbRec b.idx + 56, 4)] [⟨0x0A02, p⟩, ⟨0x0810, b.ch⟩]
      s (s.readFaulted p b staged) :=
  (((((alters_faulted s p 7 b staged false rfl hfits hp).trans (alters_bump _ (R.ENC_CH_REF_ERR_CNT b.ch) _)).trans
    (alters_raise _ 0x0810 b.ch _))).trans ((frame_setEnc _ b.ch _).alters rfl (by simp) _)).mono (by simp) (by simp)

@[simp] theorem pipe_readFaulted : (s.readFaulted p b staged).pipe p = s.faultedPipe p b 7 staged := by
  rw [State.readFaulted, State.requestRestart, pipe_setEnc, pipe_raise, pipe_bump, pipe_faulted]

theorem job_readFaulted : (s.readFaulted p b staged).job b.idx = some (b.faulted p 7 false) := by
  rw [State.readFaulted, State.requestRestart, job_setEnc, job_raise, job_bump, job_faulted]

theorem rdn_readFaulted {a : Nat} : (s.readFaulted p b staged).rdn a = ((s.faulted p b 7 staged false).bump (R.ENC_CH_REF_ERR_CNT b.ch)).rdn a := by
  rw [State.readFaulted, State.requestRestart, (frame_setEnc _ b.ch _).rdn_eq List.not_mem_nil, rdn_raise]

theorem rdn_last_readFaulted (hp : p < 64) : (s.readFaulted p b staged).rdn (R.DIS_PIPE_LAST_FAULT p) = 7 := by
  rw [rdn_readFaulted, rdn_bump_ne _ (by simp only [R.DIS_PIPE_LAST_FAULT, R.ENC_CH_REF_ERR_CNT]; omega), rdn_last_faulted _ _ _ _ _ _ hp]
  rfl

theorem rdn_err_readFaulted (hp : p < 64) (hch : b.ch < 32) (hfits : s.lbRec b.idx + 64 ≤ 2 ^ 38) :
    (s.readFaulted p b staged).rdn (R.ENC_CH_REF_ERR_CNT b.ch) = (s.rdn (R.ENC_CH_REF_ERR_CNT b.ch) + 1) % 2 ^ 32 := by
  rw [rdn_readFaulted, rdn_bump_same, (alters_faulted s p 7 b staged false rfl hfits hp).frame.rdn_eq (refErrCnt_not_mem_faultRegs 7 hch)]

theorem restart_readFaulted (hp : p < 64) (hfits : s.lbRec b.idx + 64 ≤ 2 ^ 38) (hnone : (s.encCh b.ch).restart = []) :
    ((s.readFaulted p b staged).encCh b.ch).restart = [s.clk.vpos] := by
  have hframe := (alters_faulted s p 7 b staged false rfl hfits hp).frame.trans (frame_bump _ (R.ENC_CH_REF_ERR_CNT b.ch))
  have henc := (hframe.trans (frame_raise _ 0x0810 b.ch)).encCh_eq (by simp) b.ch
  rw [State.readFaulted, State.requestRestart, encCh_setEnc_same, henc, hnone]
  rfl

/-- Both of its events are logged, by code (R418). -/
theorem evSort_readFault (p n : Nat) : evSort [⟨0x0A02, p⟩, ⟨0x0810, n⟩] = [⟨0x0810, n⟩, ⟨0x0A02, p⟩] := by
  simp [evSort, evInsert]

end

/-- REFERENCE_READ_UNCORRECTABLE, of the job that runs or of the one whose window is staged. -/
theorem referenceReadUncorrectable_completes {s : State} {p : Nat} {b : Job} {staged : Bool} (hp : p < 64) (hst : b.st = .running ∨ b.st = .named)
    (hslot : (if staged then (s.pipe p).next else (s.pipe p).running) = some b.idx) (hjob : s.job b.idx = some b) (hj : b.idx < 262144)
    (hch : b.ch < 32) (hnone : (s.encCh b.ch).restart = []) (htrk : s.on F.DIS_TRK_CTL_EN = false) (hlb : oneStack s.lbAddr 0x1401000 = true) :
    Completes (.referenceReadUncorrectable ⟨p, staged⟩) s fun t => t.pipe p = s.faultedPipe p b 7 staged ∧
      (t.job b.idx).map (fun x => (x.st, x.fault)) = some (.failed, 7) ∧ t.rdn (R.DIS_PIPE_LAST_FAULT p) = 7 ∧
      t.rdn (R.ENC_CH_REF_ERR_CNT b.ch) = (s.rdn (R.ENC_CH_REF_ERR_CNT b.ch) + 1) % 2 ^ 32 ∧ (t.encCh b.ch).restart = [s.clk.vpos] ∧
      KeepsMem [(s.lbRec b.idx + 56, 4)] s t ∧ Logged [⟨0x0810, b.ch⟩, ⟨0x0A02, p⟩] s t ∧
      Keeps [R.DIS_PIPE_STATUS p, R.DIS_PIPE_FAULT_CNT p, R.DIS_PIPE_LAST_FAULT p, R.DIS_FLAGS, R.ENC_CH_REF_ERR_CNT b.ch] [] [.dis, .enc, .hbm, .mem, .log]
        s t := by
  have hop := refUncorrectable_of_job (s := s.begin) hp hst hslot hjob htrk
  have hfits : s.begin.lbRec b.idx + 64 ≤ 2 ^ 38 := by
    rw [lbRec_begin]
    exact lbRec_fits hlb hj
  have halters := alters_readFaulted (staged := staged) hp hfits
  rw [lbRec_begin] at halters
  refine completes_of_alters (op := (·.idx p 64 (·.refUncorrectable p staged))) rfl ((idx_of_lt hp).trans hop) (halters.mono (by simp [faultRegs]) (by simp))
    (.inr (by simp)) fun hkeeps hmem => ⟨?_, ?_, ?_, ?_, ?_, hmem, halters.logged (by simp) (evSort_readFault p b.ch) ?_ ?_, hkeeps⟩
  · rw [pipe_finish, pipe_readFaulted]
    rfl
  · rw [job_finish, job_readFaulted]
    rfl
  · rw [rdn_finish, rdn_last_readFaulted hp]
  · rw [rdn_finish, rdn_err_readFaulted hp hch hfits]
    rfl
  · rw [encCh_finish, restart_readFaulted hp hfits hnone, begin_clk]
  · simp
  · simp
    omega

end Sys2Proof.Machine
end

section
/-!
PROOFS. How a pipe completes its job in time (R201): the slice that it coded, the reconstruction that it writes (R164), and the pipe idle again.
-/

namespace Sys2Proof.Machine

/-! ## What a slice is coded from -/

/-- The slice of a job depends on registers, on memory and on the channel's buffers. -/
theorem codeJob_congr {s t : State} (hregs : t.regs = s.regs) (hmem : t.hbm.mem = s.hbm.mem) (p : PicSt) {b : Job}
    (hbuf : ∀ buf, t.bufAddr b.ch buf = s.bufAddr b.ch buf) : t.codeJob p b = s.codeJob p b := by
  have hctu (x : JobIn) : t.ctuIn p b x = s.ctuIn p b x := funext fun c => by simp only [State.ctuIn, refSamples_congr hregs hmem hbuf]
  simp only [State.codeJob, hctu, State.sliceDesc, State.sliceHeader, State.ctuReads, jobIn_congr hregs, colW_congr hregs, rowH_congr hregs,
    refSamples_congr hregs hmem hbuf]

/-! ## The registers of a channel while a pipe changes -/

section
variable (s : State) (p : Nat) (x : PipeSt)

/-- The subpicture columns of a channel are in none of the registers of a pipe. -/
theorem colW_setPipe (hp : p < 64) (n : Nat) : (s.setPipe p x).colW n = s.colW n := by
  have hcount : (s.setPipe p x).f (F.ENC_CH_LAYOUT_NCOL n) = s.f (F.ENC_CH_LAYOUT_NCOL n) :=
    (frame_setPipe s p x).f_eq (by simp only [List.mem_singleton, R.ENC_CH_LAYOUT, R.DIS_PIPE_STATUS]; omega)
  have hfew : s.f (F.ENC_CH_LAYOUT_NCOL n) < 64 := Nat.mod_lt _ (Nat.two_pow_pos _)
  rw [State.colW, State.colW, hcount, layoutWidths, layoutWidths]
  refine List.map_congr_left fun c hc => ?_
  have hcol : c < 64 := (List.mem_range.mp hc).trans hfew
  rw [(frame_setPipe s p x).rdn_eq (by simp only [List.mem_singleton, R.ENC_CH_COLW, R.DIS_PIPE_STATUS]; omega)]

theorem jobWidth_setPipe (hp : p < 64) (b : Job) : (s.setPipe p x).jobWidth b = s.jobWidth b := by
  rw [State.jobWidth, State.jobWidth, colW_setPipe s p x hp]

/-- So are the places of its stored pictures. -/
theorem buffers_setPipe (n buf : Nat) :
    (s.setPipe p x).bufAddr n buf = s.bufAddr n buf ∧ (s.setPipe p x).encPicBytes n = s.encPicBytes n := by
  have hf {y : Fld} (hy : y.addr ∉ [R.DIS_PIPE_STATUS p]) : (s.setPipe p x).f y = s.f y := (frame_setPipe s p x).f_eq hy
  have hrdn {a : Nat} (ha : a ∉ [R.DIS_PIPE_STATUS p]) : (s.setPipe p x).rdn a = s.rdn a := (frame_setPipe s p x).rdn_eq ha
  have hsize : R.ENC_CH_SIZE n ∉ [R.DIS_PIPE_STATUS p] := by
    simp only [List.mem_singleton, R.ENC_CH_SIZE, R.DIS_PIPE_STATUS]
    omega
  have hformat : R.ENC_CH_FORMAT n ∉ [R.DIS_PIPE_STATUS p] := by
    simp only [List.mem_singleton, R.ENC_CH_FORMAT, R.DIS_PIPE_STATUS]
    omega
  have hlo : R.ENC_CH_REF_ADDR_LO n ∉ [R.DIS_PIPE_STATUS p] := by
    simp only [List.mem_singleton, R.ENC_CH_REF_ADDR_LO, R.DIS_PIPE_STATUS]
    omega
  have hhi : R.ENC_CH_REF_ADDR_HI n ∉ [R.DIS_PIPE_STATUS p] := by
    simp only [List.mem_singleton, R.ENC_CH_REF_ADDR_HI, R.DIS_PIPE_STATUS]
    omega
  have hbytes : (s.setPipe p x).encPicBytes n = s.encPicBytes n := by
    rw [State.encPicBytes, State.encPicBytes, hf hsize, hf hsize, hf hformat, hf hformat]
  have hregion : (s.setPipe p x).refAddr n = s.refAddr n := by
    rw [State.refAddr, State.refAddr, (frame_setPipe s p x).encCh_eq (by simp), State.refReg, State.refReg, State.rd64, State.rd64, hrdn hlo, hrdn hhi]
  exact ⟨by rw [State.bufAddr, State.bufAddr, hbytes, hregion], hbytes⟩

end

/-- The window of a narrow job does not slide. -/
theorem slideDone_narrow {s : State} {b : Job} (p : Nat) (h : s.jobWidth b ≤ 9) : s.slideDone p b = s := by
  simp only [State.slideDone, State.startBox, if_pos h, le_refl, if_true]

/-! ## JOB_COMPLETE in time (R201) -/

/-- Job `b`, its slice `o` coded at `v`. -/
def Job.doneAt (b : Job) (o : SliceOut) (v : Nat) : Job := { b with st := .done, out := some o, doneV := v }

/-- Pipe `p` runs no job, and `b` was its last one. -/
def State.idled (s : State) (p : Nat) (b : Job) : State := s.setPipe p { s.pipe p with running := none, last := some b.mark }

/-- Pipe `p` is idle, and the record of its job `b` says that slice `o` is complete. -/
def State.recordedDone (s : State) (p : Nat) (b : Job) (o : SliceOut) : State := (s.idled p b).updJob (b.doneAt o s.clk.vpos)

/-- Pipe `p` has completed job `b` with slice `o`. -/
def State.completed (s : State) (p : Nat) (b : Job) (o : SliceOut) : State := (s.recordedDone p b o).recon (b.doneAt o s.clk.vpos)

section
variable {s : State} {p : Nat} {b : Job} {o : SliceOut} {pc : PicSt}

theorem lbRec_idled (i : Nat) : (s.idled p b).lbRec i = s.lbRec i :=
  (frame_setPipe s p _).lbRec_eq (not_mem_pipeStatus p (by decide)) (not_mem_pipeStatus p (by decide)) i

theorem alters_recordedDone (hfits : s.lbRec b.idx + 64 ≤ 2 ^ 38) :
    Alters [R.DIS_PIPE_STATUS p] [.dis, .hbm, .mem] [(s.lbRec b.idx + 56, 4)] [] s (s.recordedDone p b o) := by
  have hupd := alters_updJob (s := s.idled p b) (b := b.doneAt o s.clk.vpos) (i := b.idx) rfl (by rw [lbRec_idled]; exact hfits)
  rw [lbRec_idled] at hupd
  exact ((alters_setPipe s p _ _).trans hupd).mono (by simp) (by simp)

/-- The picture of the job and its buffer, once the result is recorded. -/
theorem picture_recordedDone (hfits : s.lbRec b.idx + 64 ≤ 2 ^ 38) (buf : Nat) : (s.recordedDone p b o).encCh b.ch = s.encCh b.ch ∧
    (s.recordedDone p b o).bufAddr b.ch buf = s.bufAddr b.ch buf ∧ (s.recordedDone p b o).encPicBytes b.ch = s.encPicBytes b.ch := by
  have hupd := alters_updJob (s := s.idled p b) (b := b.doneAt o s.clk.vpos) (i := b.idx) rfl (by rw [lbRec_idled]; exact hfits)
  obtain ⟨haddr, hbytes⟩ := hupd.frame.buffers_eq (by simp) b.ch buf
  obtain ⟨haddr', hbytes'⟩ := buffers_setPipe s p { s.pipe p with running := none, last := some b.mark } b.ch buf
  exact ⟨(alters_recordedDone hfits).frame.encCh_eq (by simp) b.ch, haddr.trans haddr', hbytes.trans hbytes'⟩

/-- The reconstruction is written into the buffer of the job's picture alone. -/
theorem writes_completed (hpic : (s.encCh b.ch).picOf b.rho = some pc) (hfits : s.lbRec b.idx + 64 ≤ 2 ^ 38)
    (hbuf : s.bufAddr b.ch pc.buf + s.encPicBytes b.ch ≤ 2 ^ 38) :
    Writes [.hbm, .mem] [(s.bufAddr b.ch pc.buf, s.encPicBytes b.ch)] (s.recordedDone p b o) (s.completed p b o) := by
  obtain ⟨henc, haddr, hbytes⟩ := picture_recordedDone (p := p) (o := o) hfits pc.buf
  rw [State.completed]
  generalize s.recordedDone p b o = w at *
  rw [← haddr, ← hbytes] at hbuf ⊢
  exact writes_recon (b := b.doneAt o s.clk.vpos) (henc.symm ▸ hpic) hbuf

theorem alters_completed (hpic : (s.encCh b.ch).picOf b.rho = some pc) (hfits : s.lbRec b.idx + 64 ≤ 2 ^ 38)
    (hbuf : s.bufAddr b.ch pc.buf + s.encPicBytes b.ch ≤ 2 ^ 38) :
    Alters [R.DIS_PIPE_STATUS p] [.dis, .hbm, .mem] [(s.lbRec b.idx + 56, 4), (s.bufAddr b.ch pc.buf, s.encPicBytes b.ch)] []
      s (s.completed p b o) :=
  (((alters_recordedDone hfits).widen (by simp)).trans ((writes_completed hpic hfits hbuf).alters.widen (by simp))).mono (by simp) (by simp)

theorem job_completed (hpic : (s.encCh b.ch).picOf b.rho = some pc) (hfits : s.lbRec b.idx + 64 ≤ 2 ^ 38)
    (hbuf : s.bufAddr b.ch pc.buf + s.encPicBytes b.ch ≤ 2 ^ 38) : (s.completed p b o).job b.idx = some (b.doneAt o s.clk.vpos) := by
  rw [(writes_completed hpic hfits hbuf).frame.job_eq (by simp), State.recordedDone]
  exact job_updJob_same _ (b.doneAt o s.clk.vpos)

theorem pipe_completed (hpic : (s.encCh b.ch).picOf b.rho = some pc) (hfits : s.lbRec b.idx + 64 ≤ 2 ^ 38)
    (hbuf : s.bufAddr b.ch pc.buf + s.encPicBytes b.ch ≤ 2 ^ 38) :
    (s.completed p b o).pipe p = { s.pipe p with running := none, last := some b.mark } := by
  rw [(writes_completed hpic hfits hbuf).frame.pipe_eq (by simp), State.recordedDone, pipe_updJob, State.idled, pipe_setPipe_same]

/-- A first run that completes in time, with nothing tracked or monitored and no picture whole, leaves its slice. -/
theorem jobComplete_in_time {j : Nat} (hmon : s.NoMon) (hp : p < 64) (hrun : (s.pipe p).running = some j) (hjob : s.job j = some b) (hst : b.st = .running)
    (hfirst : b.isReplay = false) (hpic : (s.encCh b.ch).picOf b.rho = some pc) (hwidth : s.jobWidth b ≤ 9)
    (hdue : (s.toNs (s.pipe p).fillNs).clk.vpos < s.deadlineOf p b) (hps : (s.toNs (s.pipe p).fillNs).clk.vpos < b.ps)
    (hfits : s.lbRec b.idx + 64 ≤ 2 ^ 38) (hbuf : s.bufAddr b.ch pc.buf + s.encPicBytes b.ch ≤ 2 ^ 38)
    (hwhole : ∀ x ∈ (s.encCh b.ch).pics, x.dipDone = true ∨ ∃ r ∈ x.rows, r.budgeted = false) (htrk : s.on F.DIS_TRK_CTL_EN = false) :
    s.jobComplete p false = (s.toNs (s.pipe p).fillNs).completed p b (s.codeJob pc b) := by
  obtain ⟨c, hc⟩ : ∃ c, s.toNs (s.pipe p).fillNs = s.setClk c := ⟨_, rfl⟩
  rw [hc] at hdue hps ⊢
  have hrunning : (b.st != .running) = false := by rw [hst]; rfl
  have hlate := not_late_of_lt (s := s.setClk c) hfirst hdue
  have hcode : (s.setClk c).codeJob pc b = s.codeJob pc b := codeJob_congr (s := s) (t := s.setClk c) rfl rfl pc fun _ => rfl
  have hpic' : ((s.setClk c).encCh b.ch).picOf b.rho = some pc := hpic
  have hslide : ((s.setClk c).idled p b).slideDone p b = (s.setClk c).idled p b :=
    slideDone_narrow p ((jobWidth_setPipe (s.setClk c) p _ hp b).trans_le hwidth)
  have hprobe := probe_noMon (s := (s.setClk c).idled p b) ((frame_setPipe (s.setClk c) p _).noMon (by simp [R.DIS_PIPE_STATUS]; omega) hmon)
  have hclk : ((s.setClk c).idled p b).clk = (s.setClk c).clk := rfl
  have halters := alters_completed (s := s.setClk c) (p := p) (o := s.codeJob pc b) hpic hfits hbuf
  have hoff : ((s.setClk c).completed p b (s.codeJob pc b)).on F.DIS_TRK_CTL_EN = false :=
    (halters.frame.on_eq (not_mem_pipeStatus p (by decide))).trans htrk
  have hnone : ((s.setClk c).completed p b (s.codeJob pc b)).checkDip b.ch = (s.setClk c).completed p b (s.codeJob pc b) :=
    checkDip_none (by rw [halters.frame.encCh_eq (by simp)]; exact hwhole)
  simp only [State.jobComplete, hrun, hjob, hc, hrunning, hlate, if_neg (Nat.not_le.mpr hps), Bool.false_eq_true, if_false, hpic', Option.getD_some, hcode]
  generalize s.codeJob pc b = o at *
  simp only [State.completed, State.recordedDone, State.idled, Job.doneAt] at hslide hprobe hclk hoff hnone ⊢
  simp only [hslide, hprobe, hclk, trk_off hoff, if_neg (Bool.eq_false_iff.mp hfirst), hnone]

end

/-- JOB_COMPLETE, of a first run in time. -/
theorem jobComplete_completes {s : State} {p j : Nat} {jb : Job} {pc : PicSt} (hmon : s.NoMon) (hp : p < 64) (hrun : (s.pipe p).running = some j)
    (hjob : s.job j = some jb) (hidx : jb.idx = j) (hj : j < 262144) (hst : jb.st = .running) (hfirst : jb.isReplay = false)
    (hpic : (s.encCh jb.ch).picOf jb.rho = some pc) (hwidth : s.jobWidth jb ≤ 9) (hdue : (s.toNs (s.pipe p).fillNs).clk.vpos < s.deadlineOf p jb)
    (hps : (s.toNs (s.pipe p).fillNs).clk.vpos < jb.ps) (hbuf : s.bufAddr jb.ch pc.buf + s.encPicBytes jb.ch ≤ 2 ^ 38)
    (hwhole : (s.encCh jb.ch).pics.all (fun x => x.dipDone || x.rows.any (fun y => !y.budgeted)) = true) (htrk : s.on F.DIS_TRK_CTL_EN = false)
    (hlb : oneStack s.lbAddr 0x1401000 = true) :
    Completes (.jobComplete p false) s fun t =>
      (t.job j).map (fun x => (x.st, x.out, x.doneV)) = some (.done, some (s.codeJob pc jb), t.clk.vpos) ∧ (t.pipe p).running = none ∧
      (t.pipe p).last = some (jb.ch, jb.k, jb.row, jb.col) ∧ t.clk = (s.toNs (s.pipe p).fillNs).clk ∧
      KeepsMem [(s.lbRec j + 56, 4), (s.bufAddr jb.ch pc.buf, s.encPicBytes jb.ch)] s t ∧ Keeps [R.DIS_PIPE_STATUS p] [] [.dis, .hbm, .mem, .clk] s t := by
  subst hidx
  have hwhole' : ∀ x ∈ (s.encCh jb.ch).pics, x.dipDone = true ∨ ∃ r ∈ x.rows, r.budgeted = false := by simpa using hwhole
  have hfits : s.begin.lbRec jb.idx + 64 ≤ 2 ^ 38 := by
    rw [lbRec_begin]
    exact lbRec_fits hlb hj
  have hop := jobComplete_in_time (s := s.begin) hmon hp hrun hjob hst hfirst hpic hwidth hdue hps hfits hbuf hwhole' htrk
  have hcode : s.begin.codeJob pc jb = s.codeJob pc jb := codeJob_congr (s := s) (t := s.begin) rfl rfl pc fun _ => rfl
  obtain ⟨c, hc⟩ : ∃ c, s.begin.toNs (s.begin.pipe p).fillNs = s.begin.setClk c := ⟨_, rfl⟩
  have hclk : (s.toNs (s.pipe p).fillNs).clk = c := congrArg State.clk hc
  rw [hc, hcode] at hop
  rw [hclk]
  generalize s.codeJob pc jb = o at *
  have hrec : (s.begin.setClk c).lbRec jb.idx = s.lbRec jb.idx := (lbRec_setClk _ c _).trans (lbRec_begin s _)
  have haddr : (s.begin.setClk c).bufAddr jb.ch pc.buf = s.bufAddr jb.ch pc.buf := rfl
  have hbytes : (s.begin.setClk c).encPicBytes jb.ch = s.encPicBytes jb.ch := rfl
  have hpic' : ((s.begin.setClk c).encCh jb.ch).picOf jb.rho = some pc := hpic
  rw [lbRec_begin, ← hrec] at hfits
  rw [← haddr, ← hbytes] at hbuf ⊢
  rw [← hrec]
  have hdone := alters_completed (p := p) (o := o) hpic' hfits hbuf
  have hheld := job_completed (p := p) (o := o) hpic' hfits hbuf
  have hidle := pipe_completed (p := p) (o := o) hpic' hfits hbuf
  have htime : ((s.begin.setClk c).completed p jb o).clk = c := hdone.frame.part (p := .clk) (by simp)
  refine completes_of_alters (op := (·.idx p 64 (·.jobComplete p false))) rfl ((idx_of_lt hp).trans hop) (((alters_setClk _ c _).trans hdone).mono (by simp)
    (by simp)) (.inl rfl) fun hkeeps hmem => ⟨?_, ?_, ?_, ?_, hmem, hkeeps⟩
  · rw [job_finish, hheld, finish_clk, htime]
    rfl
  · rw [pipe_finish, hidle]
  · rw [pipe_finish, hidle, Job.mark]
  · rw [finish_clk, htime]

end Sys2Proof.Machine
end

section
/-!
PROOFS. The spare pipe is named (R192), and a replay starts where the record of its job reads well (R203, R204).
-/

namespace Sys2Proof.Machine

/-! ## SPARE_NAMING (R192) -/

theorem frame_setSpare (s : State) (o : Option Nat) : Frame [R.DIS_STATUS] [] [.dis] s (s.setSpare o) :=
  ((((((frame_dis s _).trans (frame_setF _ F.DIS_STATUS_P _)).trans (frame_setF _ F.DIS_STATUS_RETIRED _)).trans
    (frame_setF _ F.DIS_STATUS_COOLING _)).trans (frame_setF _ F.DIS_STATUS_SPARE _)).trans (frame_setF _ F.DIS_STATUS_SPARE_PIPE _)).mono
    (by simp) (by simp) (by simp)

theorem dis_setSpare (s : State) (o : Option Nat) : (s.setSpare o).dis = { s.dis with spare := o } := rfl

/-- DIS_STATUS shows that there is a spare, and which pipe it is (R213). -/
theorem on_setSpare (s : State) (p : Nat) : (s.setSpare (some p)).on F.DIS_STATUS_SPARE = true := by
  rw [State.setSpare, State.disUpdate, State.on]
  refine beq_iff_eq.mpr ((f_setF_bits (x := F.DIS_STATUS_SPARE_PIPE) (y := F.DIS_STATUS_SPARE) _ _ rfl (by decide) (by decide) (.inr (by decide))).trans ?_)
  exact f_setF_same _ F.DIS_STATUS_SPARE 1 (by decide)

theorem f_setSpare (s : State) (p : Nat) (hp : p < 64) : (s.setSpare (some p)).f F.DIS_STATUS_SPARE_PIPE = p := by
  rw [State.setSpare, State.disUpdate]
  exact (f_setF_same _ F.DIS_STATUS_SPARE_PIPE p (by decide)).trans (Nat.mod_eq_of_lt hp)

/-- SPARE_NAMING, with no spare and a free pipe. -/
theorem spareNaming_completes {s : State} {p : Nat} (hnone : s.dis.spare = none) (hact : s.active fnDis = true)
    (hfree : (List.range 64).find? s.pipeFree = some p) :
    Completes (.spareNaming) s fun t => t.dis.spare = some p ∧ t.on F.DIS_STATUS_SPARE = true ∧ t.f F.DIS_STATUS_SPARE_PIPE = p ∧ t.dis.jobs = s.dis.jobs ∧
      t.dis.pipes = s.dis.pipes ∧ Keeps [R.DIS_STATUS, R.DIS_LAG] [] [.dis] s t := by
  have hp : p < 64 := List.mem_range.mp (List.mem_of_find?_eq_some hfree)
  have hfree' : (List.range 64).find? s.begin.pipeFree = some p := hfree
  have hact' : s.begin.active fnDis = true := hact
  have hop : s.begin.spareNaming = s.begin.setSpare (some p) := by
    simp [State.spareNaming, hnone, hact', hfree']
  refine completes_of_frame (op := (·.spareNaming)) rfl hop ((frame_setSpare s.begin (some p)).mono (by simp) (by simp) (by simp)) (.inl rfl) fun hkeeps =>
    ⟨?_, ?_, ?_, ?_, ?_, hkeeps⟩
  · rw [finish_dis, dis_setSpare]
  · rw [on_finish, on_setSpare]
  · rw [f_finish, f_setSpare _ p hp]
  · rw [finish_dis, dis_setSpare]
    rfl
  · rw [finish_dis, dis_setSpare]
    rfl

/-! ## REPLAY_START (R193, R203, R204) -/

/-- Time runs on to a position in the same way at the same clock. -/
theorem toPos_of_clk_eq {s t : State} {cls v : Nat} {q : Clock} (hclk : t.clk = s.clk) (hs : s.toPos cls v = some (s.setClk q)) :
    t.toPos cls v = some (t.setClk q) := by
  simp only [State.toPos, Option.ite_none_left_eq_some] at hs ⊢
  obtain ⟨hrun, hhold, hq⟩ := hs
  have hc := congrArg State.clk (Option.some.inj hq)
  rw [hclk]
  exact ⟨hrun, hhold, congrArg some (congrArg t.setClk hc)⟩

/-- Job `b`, taken as a replay, with the record that it is read back from (R204). -/
def State.replayOf (s : State) (b : Job) : Job := { b with replays := b.replays + 1, record := s.hbmWords (s.lbRec b.idx) 14 }

/-- With no spare, a replay goes to one of the pipes for first runs. -/
theorem replayPipe_lt {s : State} {b : Job} {p : Nat} (hnone : s.dis.spare = none) (h : s.replayPipe b = some p) : p < 64 := by
  have hmem : p ∈ s.openPipes.filter (fun p => !b.ran.contains p) := by
    simp only [State.replayPipe, hnone] at h
    split at h
    case h_1 r hfind => exact Option.some.inj h ▸ List.mem_of_find?_eq_some hfind
    case h_2 => exact List.mem_of_head? h
  exact List.mem_range.mp (List.mem_of_mem_filter (List.mem_of_mem_filter hmem))

/-- The one job that waits as a replay is the next one. -/
theorem nextReplay_of_one {s : State} {b : Job} {p : Nat} (hjobs : s.allJobs = [b]) (hready : b.st = .ready) (hreplay : b.isReplay = true)
    (hpipe : s.replayPipe b = some p) : s.nextReplay = some (b, p) := by
  simp [State.nextReplay, hjobs, hready, hreplay, hpipe]

theorem spare_inNextSlot (s : State) (b : Job) (p : Nat) : (s.inNextSlot b p).dis.spare = s.dis.spare := rfl

theorem spare_named (s : State) (b : Job) (p : Nat) : (s.named b p).dis.spare = s.dis.spare := by
  have hupd : (s.updJob (b.namedTo p)).dis.spare = s.dis.spare := by
    rw [updJob_dis]
    rfl
  rw [State.named, ← hupd]
  exact spare_inNextSlot _ _ p

/-- A replay whose record reads well is named; while there is no spare, none leaves its role. -/
theorem nameReplay_of_readable {s : State} {b : Job} {p : Nat} (hreplay : b.isReplay = true) (hread : s.lbReadOk b = true) (hnone : s.dis.spare = none)
    (htrk : s.on F.DIS_TRK_CTL_EN = false) : s.nameReplay b p = s.named (s.replayOf b) p := by
  have hname := nameTo_replay (b := s.replayOf b) (p := p) hreplay htrk
  have hspare : (s.named (s.replayOf b) p).dis.spare ≠ some p := by
    rw [spare_named, hnone]
    exact nofun
  simp only [State.replayOf] at hname hspare ⊢
  simp only [State.nameReplay, hread, hname, if_neg hspare, Bool.not_true, Bool.false_eq_true, if_false]

/-- The replay of job `b` is named to pipe `p` and starts there cold at time `q`. -/
def State.replayed (s : State) (b : Job) (p : Nat) (q : Clock) : State :=
  ((s.named (s.replayOf b) p).setClk q).startCold p ((s.replayOf b).namedTo p)

section
variable {s : State} {b : Job} {p : Nat} {q : Clock}

/-- The one replay that waits starts on a pipe that runs no job. -/
theorem replayStart_of_one (hjobs : s.allJobs = [b]) (hready : b.st = .ready) (hreplay : b.isReplay = true) (hread : s.lbReadOk b = true)
    (hnone : s.dis.spare = none) (hpipe : s.replayPipe b = some p) (hrun : (s.pipe p).running = none) (hpos : s.toPos 7 b.dPos = some (s.setClk q))
    (htrk : s.on F.DIS_TRK_CTL_EN = false) (hfits : s.lbRec b.idx + 64 ≤ 2 ^ 38) : s.replayStart = s.replayed b p q := by
  have hp : p < 64 := replayPipe_lt hnone hpipe
  have hjob : (s.named (s.replayOf b) p).job b.idx = some ((s.replayOf b).namedTo p) := job_named s (s.replayOf b) p
  have hslot := pipe_named s (s.replayOf b) p
  have hclk : (s.named (s.replayOf b) p).clk = s.clk := (alters_named (b := s.replayOf b) p hfits).frame.part (p := .clk) (by simp)
  have hoff : (s.named (s.replayOf b) p).on F.DIS_TRK_CTL_EN = false := (on_named s _ p (by decide)).trans htrk
  simp only [State.replayStart, nextReplay_of_one hjobs hready hreplay hpipe, nameReplay_of_readable (p := p) hreplay hread hnone htrk]
  rw [State.replayed]
  generalize s.named (s.replayOf b) p = w at *
  rw [jobStart_of_next (j := b.idx) (by rw [hslot]; exact hrun) (by rw [hslot]; rfl) hjob (toPos_of_clk_eq hclk hpos)]
  exact startOn_replay hp ((job_setClk w q b.idx).trans hjob) hreplay ((on_setClk w q _).trans hoff)

theorem alters_replayed (hfits : s.lbRec b.idx + 64 ≤ 2 ^ 38) :
    Alters [R.DIS_PIPE_STATUS p, R.ENC_PIPE_FILL_SMP p, R.ENC_PIPE_COLD_CNT p, R.DIS_PIPE_JOB_CNT p] [.dis, .hbm, .mem, .clk] [(s.lbRec b.idx + 56, 4)] []
      s (s.replayed b p q) := by
  have hnamed := alters_named (b := s.replayOf b) p hfits
  have hrec : (s.named (s.replayOf b) p).lbRec b.idx = s.lbRec b.idx :=
    hnamed.frame.lbRec_eq (not_mem_pipeStatus p (by decide)) (not_mem_pipeStatus p (by decide)) _
  rw [State.replayed]
  generalize s.named (s.replayOf b) p = w at *
  have hrec' : (w.setClk q).lbRec ((s.replayOf b).namedTo p).idx = s.lbRec b.idx := (lbRec_setClk w q _).trans hrec
  have hcold := alters_startCold (s := w.setClk q) (p := p) (b := (s.replayOf b).namedTo p) (hrec' ▸ hfits)
  rw [hrec'] at hcold
  exact ((hnamed.trans (alters_setClk w q _)).trans hcold).mono (by simp) (by simp)

theorem job_replayed : ((s.replayed b p q).job b.idx).map (fun x => (x.st, x.pipe, x.replays)) = some (.running, some p, b.replays + 1) := by
  have hjob : (s.replayed b p q).job b.idx = some (((s.replayOf b).namedTo p).runOn p _) := job_startCold (b := (s.replayOf b).namedTo p)
  rw [hjob]
  rfl

/-- The pipe runs the replay, its next slot empty again. -/
theorem pipe_replayed : ((s.replayed b p q).pipe p).running = some b.idx ∧ ((s.replayed b p q).pipe p).next = none ∧
    ((s.replayed b p q).pipe p).warm = false ∧ ((s.replayed b p q).pipe p).startV = q.vpos := by
  rw [State.replayed, pipe_startCold, State.coldPipe, pipe_setClk, pipe_named]
  exact ⟨rfl, if_pos rfl, rfl, rfl⟩

/-- The cold start and the job are counted. -/
theorem rdn_replayed (hfits : s.lbRec b.idx + 64 ≤ 2 ^ 38) :
    (s.replayed b p q).rdn (R.ENC_PIPE_COLD_CNT p) = (s.rdn (R.ENC_PIPE_COLD_CNT p) + 1) % 2 ^ 32 ∧
      (s.replayed b p q).rdn (R.DIS_PIPE_JOB_CNT p) = (s.rdn (R.DIS_PIPE_JOB_CNT p) + 1) % 2 ^ 32 := by
  have hkept {a : Nat} (ha : a ≠ R.DIS_PIPE_STATUS p) : (s.named (s.replayOf b) p).rdn a = s.rdn a :=
    (alters_named (b := s.replayOf b) p hfits).frame.rdn_eq (by simp [ha])
  rw [State.replayed, rdn_cold_startCold, rdn_jobs_startCold, rdn_setClk, rdn_setClk, hkept (by simp only [R.ENC_PIPE_COLD_CNT, R.DIS_PIPE_STATUS]; omega),
    hkept (by simp only [R.DIS_PIPE_JOB_CNT, R.DIS_PIPE_STATUS]; omega)]
  exact ⟨rfl, rfl⟩

theorem clk_replayed : (s.replayed b p q).clk = q := by rw [State.replayed, clk_startCold, clk_setClk]

end

/-- REPLAY_START, of the one replay that waits, on a pipe that runs no job. -/
theorem replayStart_completes {s : State} {j p : Nat} {jb : Job} {q : Clock} (hjobs : s.allJobs = [jb]) (hidx : jb.idx = j) (hj : j < 262144)
    (hready : jb.st = .ready) (hreplay : jb.isReplay = true) (hread : s.lbReadOk jb = true) (hnone : s.dis.spare = none)
    (hpipe : s.replayPipe jb = some p) (hrun : (s.pipe p).running = none) (hpos : s.begin.toPos 7 jb.dPos = some { s.begin with clk := q })
    (htrk : s.on F.DIS_TRK_CTL_EN = false) (hlb : oneStack s.lbAddr 0x1401000 = true) :
    Completes (.replayStart) s fun t => (t.job j).map (fun x => (x.st, x.pipe, x.replays)) = some (.running, some p, jb.replays + 1) ∧
      (t.pipe p).running = some j ∧ (t.pipe p).warm = false ∧ (t.pipe p).startV = q.vpos ∧ (t.pipe p).next = none ∧ t.clk = q ∧
      t.rdn (R.ENC_PIPE_COLD_CNT p) = (s.rdn (R.ENC_PIPE_COLD_CNT p) + 1) % 2 ^ 32 ∧
      t.rdn (R.DIS_PIPE_JOB_CNT p) = (s.rdn (R.DIS_PIPE_JOB_CNT p) + 1) % 2 ^ 32 ∧ KeepsMem [(s.lbRec j + 56, 4)] s t ∧
      Keeps [R.DIS_PIPE_STATUS p, R.ENC_PIPE_FILL_SMP p, R.ENC_PIPE_COLD_CNT p, R.DIS_PIPE_JOB_CNT p] [] [.dis, .hbm, .mem, .clk] s t := by
  subst hidx
  have hread' : s.begin.lbReadOk jb = true := hread
  have hfits : s.begin.lbRec jb.idx + 64 ≤ 2 ^ 38 := by
    rw [lbRec_begin]
    exact lbRec_fits hlb hj
  have hop := replayStart_of_one (s := s.begin) hjobs hready hreplay hread' hnone hpipe hrun hpos htrk hfits
  have halters := alters_replayed (p := p) (q := q) hfits
  rw [lbRec_begin] at halters
  obtain ⟨hruns, hnext, hwarm, hstart⟩ := pipe_replayed (s := s.begin) (b := jb) (p := p) (q := q)
  obtain ⟨hcold, hcount⟩ := rdn_replayed (s := s.begin) (b := jb) (p := p) (q := q) hfits
  refine completes_of_alters (op := (·.replayStart)) rfl hop halters (.inl rfl) fun hkeeps hmem =>
    ⟨?_, ?_, ?_, ?_, ?_, ?_, ?_, ?_, hmem, hkeeps⟩
  · rw [job_finish, job_replayed]
  · rw [pipe_finish, hruns]
  · rw [pipe_finish, hwarm]
  · rw [pipe_finish, hstart]
  · rw [pipe_finish, hnext]
  · rw [finish_clk, clk_replayed]
  · rw [rdn_finish, hcold, rdn_begin]
  · rw [rdn_finish, hcount, rdn_begin]

/-- Settles O21, command by command. -/
theorem jobResultCommandsComplete : Obligations.JobResultCommandsComplete := by
  unfold Obligations.JobResultCommandsComplete
  refine ⟨?_, ?_, ?_, ?_, ?_, ?_, ?_⟩
  · intro s p j jb pc hmon hp hrun hjob hidx hj hst hfirst hpic hwidth hdue hps hbuf hwhole htrk hlb
    exact jobComplete_completes hmon hp hrun hjob hidx hj hst hfirst hpic hwidth hdue hps hbuf hwhole htrk hlb
  · intro s p j jb hp hrun hjob hidx hj hst hleft hnone hthr htrk hlb hfirst hdue hps
    exact jobComplete_overrun_completes hp hrun hjob hidx hj hst hleft hnone hthr htrk hlb hfirst hdue hps
  · intro s p c j jb hp hrun hjob hidx hj hst hleft hnone hthr htrk hlb hc
    exact pipeFaultReport_completes hp hrun hjob hidx hj hst hleft hnone hthr htrk hlb hc
  · intro s p j jb hp hrun hjob hidx hj hst hch hnone htrk hlb
    subst hidx
    refine (referenceReadUncorrectable_completes (staged := false) hp (.inl hst) hrun hjob hj hch hnone htrk hlb).imp fun t ⟨hpipe, hrest⟩ => ⟨?_, hrest⟩
    rw [hpipe]
    rfl
  · intro s p j jb hp hnext hjob hidx hj hst hch hnone htrk hlb
    subst hidx
    refine (referenceReadUncorrectable_completes (staged := true) hp (.inr hst) hnext hjob hj hch hnone htrk hlb).imp fun t ⟨hpipe, hrest⟩ =>
      ⟨?_, ?_, ?_, hrest⟩ <;> (rw [hpipe]; rfl)
  · intro s j p jb q hjobs _ hidx hj hready hreplay hread hnone hpipe hrun hpos htrk hlb
    exact replayStart_completes hjobs hidx hj hready hreplay hread hnone hpipe hrun hpos htrk hlb
  · intro s p hnone hact hfree
    exact spareNaming_completes hnone hact hfree

end Sys2Proof.Machine
end

section
/-!
PROOFS. Why a write of an egress flow entry need not leave every other register alone (R216, R248): the enable of a flow of a twinned channel also brings
TWN_REC_MAX up to date.
-/

namespace Sys2Proof.Machine

/-! ## EGS_FT_CMD with WRITE (R216) -/

/-- The fields of EGS_FT_CMD: FLOW, READ, WRITE (R216). -/
def egsFtCmdFields : List FieldDef := [⟨15, 0, .wo, false, .any⟩, ⟨16, 16, .wo, false, .any⟩, ⟨17, 17, .wo, false, .any⟩]

/-- The rule of EGS_FT_CMD for a WRITE without READ: the entry is written, and TWN_REC_MAX is then brought up to date (R216, R248). -/
theorem unitReg_egsFtWrite {s : State} {w raw : Word} {f : Nat} (hflow : bitsOf w.toNat 15 0 = f) (hread : bitsOf w.toNat 16 16 = 0)
    (hwrite : bitsOf w.toNat 17 17 = 1) :
    s.unitReg .pcie R.EGS_FT_CMD w raw = some ((s.egsWrite f (s.flowRecOk f)).recMaxShown s R.EGS_FT_CMD w) := by
  have hrule : s.unitReg .pcie R.EGS_FT_CMD w raw = (s.egsReg s.flowRecOk R.EGS_FT_CMD w).map (fun t => t.recMaxShown s R.EGS_FT_CMD w) := rfl
  simp [hrule, State.egsReg, hflow, hread, hwrite]

/-- A write of EGS_FT_CMD with WRITE reaches that rule, by a word that names the flow. -/
theorem busWrite_egsFtWrite {s : State} {f : Nat} (hd : s.dark = false) (hf : f < 65536) :
    ∃ w : Word, bitsOf w.toNat 15 0 = f ∧
      s.busWrite .pcie R.EGS_FT_CMD (BitVec.ofNat 32 (0x20000 + f)) 4 = (s.egsWrite f (s.flowRecOk f)).recMaxShown s R.EGS_FT_CMD w := by
  have hv : (BitVec.ofNat 32 (0x20000 + f)).toNat = 0x20000 + f := Nat.mod_eq_of_lt (by omega)
  have hfield (x : FieldDef) (hx : x ∈ egsFtCmdFields) (hwo : x.acc = .wo) :
      bitsOf (BitVec.ofNat 32 (mergeWord true egsFtCmdFields (s.oldWord .pcie R.EGS_FT_CMD) (BitVec.ofNat 32 (0x20000 + f)).toNat)).toNat x.hi x.lo =
        bitsOf (0x20000 + f) x.hi x.lo := by
    rw [bitsOf_mergeWord32 true _ _ (by decide) x hx, fieldNew, hwo, hv]
    rfl
  have hflow : bitsOf (0x20000 + f) 15 0 = f := by rw [bitsOf]; omega
  have hread : bitsOf (0x20000 + f) 16 16 = 0 := by rw [bitsOf]; omega
  have hwrite : bitsOf (0x20000 + f) 17 17 = 1 := by rw [bitsOf]; omega
  have hflow' := (hfield ⟨15, 0, .wo, false, .any⟩ (by simp [egsFtCmdFields]) rfl).trans hflow
  have hread' := (hfield ⟨16, 16, .wo, false, .any⟩ (by simp [egsFtCmdFields]) rfl).trans hread
  have hwrite' := (hfield ⟨17, 17, .wo, false, .any⟩ (by simp [egsFtCmdFields]) rfl).trans hwrite
  refine ⟨_, hflow', (busWrite_reg _ (by decide) hd (by decide) (by decide)).trans ?_⟩
  exact regWrite_unit (d := ⟨R.EGS_FT_CMD, [], 0x0, false, egsFtCmdFields⟩) rfl rfl (fieldsOk_any rfl _ _) (by decide) (by decide)
    (unitReg_egsFtWrite hflow' hread' hwrite')

/-- Where one more flow is enabled and its channel is twinned, the record check shows the largest record (R248). -/
theorem recMaxShown_of_enable {s t : State} {w : Word} {f : Nat} (hw : bitsOf w.toNat 15 0 = f) (hmore : s.egsFlows.length < t.egsFlows.length)
    (htwin : t.twinned (efCh (t.egWords f)) = true) : t.recMaxShown s R.EGS_FT_CMD w = t.wrn R.TWN_REC_MAX (t.recMax none) := by
  subst hw
  exact if_pos ⟨rfl, hmore, htwin⟩

/-! ## The first flow of a twinned channel -/

/-- Egress is on, and the buffer holds an enabled entry of TYPE 0 for channel 5, whose pictures of 64 × 128 at 60 Hz are one column of two rows. The module
is the Helm, channel 5 is twinned, and no flow is enabled yet: the largest record has the 45 words that TWN_REC_MAX shows. -/
def flowOfTwinned : State :=
  { State.reset with
    regs := [(R.EGS_CTL, 1), (R.EGS_FT_DATA 0, 0x60000051), (R.EGS_FT_DATA 4, 1400), (R.EGS_FT_DATA 6, 0x4000000 + 2000), (R.EGS_FT_DATA 7, 4000),
      (R.EGS_FT_DATA 8, 60000), (R.MER_CH_LINES 5, 150), (R.ENC_CH_SIZE 5, 0x800040), (R.ENC_CH_RATE 5, 0x10003C), (R.ENC_CH_LAYOUT 5, 0x101),
      (R.ENC_CH_ROWH 5 0, 2), (R.ENC_CH_RC_RATE 5, 20000), (R.TWN_STATUS, 4), (R.TWN_CH_MASK, 32), (R.TWN_ADOPT, 3), (R.TWN_REC_MAX, 45)] }

theorem flowOfTwinned_notDark : flowOfTwinned.dark = false := by decide +kernel

/-- The write of the buffer into entry 3 is accepted: the entry is in order, and the record with one more flow fits the adoption time. -/
theorem flowOfTwinned_writeOk :
    flowOfTwinned.egsWriteOk 3 (fun i => flowOfTwinned.rdn (R.EGS_FT_DATA i)) (flowOfTwinned.flowRecOk 3) = true := by decide +kernel

/-- The peak rate is not below PIR_MIN (R230). -/
theorem flowOfTwinned_pirMin :
    flowOfTwinned.pirMin (fun i => flowOfTwinned.rdn (R.EGS_FT_DATA i)) ≤ efPir (fun i => flowOfTwinned.rdn (R.EGS_FT_DATA i)) := by decide +kernel

/-- The state that holds the new entry, before the largest record is shown again. -/
def flowOfTwinnedLoaded : State := flowOfTwinned.begin.egsWrite 3 (flowOfTwinned.begin.flowRecOk 3)

theorem flowOfTwinnedLoaded_enabled : flowOfTwinned.begin.egsFlows.length < flowOfTwinnedLoaded.egsFlows.length := by decide +kernel

theorem flowOfTwinnedLoaded_twinned : flowOfTwinnedLoaded.twinned (efCh (flowOfTwinnedLoaded.egWords 3)) = true := by decide +kernel

/-- The new flow adds three words to the largest record (R248). -/
theorem flowOfTwinned_recMax : flowOfTwinned.recMax none = 45 ∧ flowOfTwinnedLoaded.recMax none = 48 := by decide +kernel

/-- EGS_FT_WRITE of the entry: TWN_REC_MAX shows the record with the new flow. -/
theorem flowOfTwinned_completes : Completes (.egsFtWrite 3) flowOfTwinned fun t => t.rdn R.TWN_REC_MAX = 48 := by
  obtain ⟨w, hflow, hbus⟩ := busWrite_egsFtWrite (s := flowOfTwinned.begin) (f := 3) flowOfTwinned_notDark (by decide)
  have hload : flowOfTwinned.begin.busWrite .pcie R.EGS_FT_CMD (BitVec.ofNat 32 (0x20000 + 3)) 4 =
      flowOfTwinnedLoaded.recMaxShown flowOfTwinned.begin R.EGS_FT_CMD w := hbus
  rw [recMaxShown_of_enable hflow flowOfTwinnedLoaded_enabled flowOfTwinnedLoaded_twinned] at hload
  have hpending : flowOfTwinnedLoaded.pending = flowOfTwinned.pending := by decide +kernel
  have hkeys : flowOfTwinnedLoaded.keys = flowOfTwinned.keys := by decide +kernel
  refine run_of (op := (·.idx 3 65536 (·.busWrite .pcie R.EGS_FT_CMD (BitVec.ofNat 32 (0x20000 + 3)) 4))) ((idx_of_lt (by decide)).trans hload)
    ((wrn_pending _ _ _).trans hpending) ((wrn_keys _ _ _).trans hkeys) ?_
  rw [rdn_finish, rdn_wrn_same]
  exact congrArg (· % 2 ^ 32) flowOfTwinned_recMax.2

/-- Refutes O23 by its clause of EGS_FT_WRITE: of the registers the clause lets only the figures of the ports change, but where the channel of the flow is
twinned, its enable also changes TWN_REC_MAX (R248). -/
theorem not_egressTableCommandsComplete : ¬ Obligations.EgressTableCommandsComplete := by
  unfold Obligations.EgressTableCommandsComplete
  rintro ⟨-, -, -, hWrite⟩
  obtain ⟨t, ht, -, -, -, -, -, hregs, -⟩ :=
    hWrite flowOfTwinned 3 flowOfTwinned_notDark (by decide) flowOfTwinned_writeOk rfl (by decide +kernel) (by decide +kernel) flowOfTwinned_pirMin
  obtain ⟨u, hu, hshows⟩ := flowOfTwinned_completes
  obtain rfl : t = u := Host.Outcome.next.inj (ht.symm.trans hu)
  have hshown : flowOfTwinned.rdn R.TWN_REC_MAX = 45 := rfl
  have hkept : t.rdn R.TWN_REC_MAX = flowOfTwinned.rdn R.TWN_REC_MAX := congrArg BitVec.toNat (hregs R.TWN_REC_MAX (by decide))
  rw [hshows, hshown] at hkept
  exact absurd hkept (by decide)

end Sys2Proof.Machine
end

section
/-!
PROOFS. Why a waiting packet need not start when its shaper is awaited (R60, R227): tokens count by the STC, and after a step back of the STC none are added
before it has come again to where they were last counted.
-/

namespace Sys2Proof.Machine

/-! ## A port whose queues hold no eligible packet -/

/-- A free port with no paced packet due and no eligible head packet sends no media packet (R225). -/
theorem portPick_of_ineligible {s : State} {p : Nat} (hfree : (s.eport p).busy ≤ s.clk.ns) (hready : s.ready (fnEgs p) = true)
    (hdue : (s.eport p).due = []) (hnone : (s.refillPort p).selectLeg p = none) : s.portPick p = (s.refillPort p).respPick p := by
  simp [State.portPick, Nat.not_lt.mpr hfree, hready, hdue, bestDue, hnone]

/-- A port at which no responder frame waits starts none (R285). -/
theorem respPick_of_none {s : State} {p : Nat} (hnone : (s.eport p).resp = []) : s.respPick p = s := by
  simp [State.respPick, hnone]

/-! ## A shaper after a step back of the STC -/

/-- A packet of flow 3 that waits in a queue: 70 bytes, 90 with the charged overhead of the port. -/
def shapedPacket : QEnt :=
  { len := 70, enq := 0, enqV := 0,
    pkt := { flow := 3, seq := 9, ts := 1, marker := false, pt := 96, ssrc := 7, size := 4, body := .nal none [1, 2, 3, 4] } }

/-- Port 2 is up and idle, and leg A of flow 3, of 4,000 Mb/s, holds one packet and no tokens. They were last counted at STC 1,000 ns, before the STC stepped back
to 0. -/
def shapedAfterStep : State :=
  { State.reset with
    regs := [(R.EGS_CTL, 1)]
    fns := [(fnEth 2, .ready), (fnEgs 2, .ready)]
    egs := { State.reset.egs with
      ft := [(96, 0x60000451), (102, 4000), (103, 4000)]
      legs := [(6, { queue := [shapedPacket], tLast := 1000, pir := 4000 })] } }

/-- The packet lacks 720,000 millibits, so the command runs on by 180 ns. -/
def shapedAfterWait : State := (shapedAfterStep.begin.refillPort 2).toStc 180

theorem shapedAfterStep_waits : shapedAfterStep.begin.shaperEligible 2 = shapedAfterWait.portPick 2 := by decide +kernel

/-- At STC 180 ns, before the 1,000 ns at which the tokens were last counted, the leg still has none. -/
theorem shapedAfterWait_ineligible : (shapedAfterWait.refillPort 2).selectLeg 2 = none := by decide +kernel

/-- SHAPER_ELIGIBLE starts no packet there. -/
theorem shapedAfterStep_completes : Completes (.shaperEligible 2) shapedAfterStep fun t => t.out = [] := by
  have hpick : shapedAfterWait.portPick 2 = shapedAfterWait.refillPort 2 :=
    (portPick_of_ineligible (by decide +kernel) rfl rfl shapedAfterWait_ineligible).trans (respPick_of_none rfl)
  have hop : shapedAfterStep.begin.idx 2 8 (·.shaperEligible 2) = shapedAfterWait.refillPort 2 :=
    (idx_of_lt (by decide)).trans (shapedAfterStep_waits.trans hpick)
  exact run_of (op := (·.idx 2 8 (·.shaperEligible 2))) hop rfl rfl rfl

/-- Refutes O24 by its clause of SHAPER_ELIGIBLE: the clause has the packet start once the tokens that it lacks have had their time at the peak rate, but a leg
whose tokens were last counted before the STC stepped back gets none of them by then. -/
theorem not_egressPortCommandsComplete : ¬ Obligations.EgressPortCommandsComplete := by
  unfold Obligations.EgressPortCommandsComplete
  rintro ⟨-, -, -, hShaper⟩
  obtain ⟨t, ht, hsent, -⟩ :=
    hShaper shapedAfterStep 2 3 shapedPacket (by decide) rfl (by decide) rfl (by decide) (by decide) (by decide) (by decide) rfl rfl (by decide +kernel)
      (by decide +kernel)
  obtain ⟨u, hu, hnothing⟩ := shapedAfterStep_completes
  obtain rfl : t = u := Host.Outcome.next.inj (ht.symm.trans hu)
  rw [hnothing] at hsent
  exact List.cons_ne_nil _ _ hsent.symm

end Sys2Proof.Machine
end

section
/-!
PROOFS. What every command does to the queue and to the one-time key slots (R405).
-/

namespace Sys2Proof.Machine

/-! ## The queue -/

/-- Every command answers a next state, and leaves the queue behind it as it is. -/
theorem exec_next (i : Instr) (s : State) : ∃ t, exec i s = .next t ∧ t.pending = s.pending := by
  by_cases h : i = .keyslotProgrammed
  · subst h
    exact ⟨_, rfl, rfl⟩
  · obtain ⟨t, ht, -, hq⟩ := exec_keys i s h
    exact ⟨t, ht, hq⟩

/-- Settles O1: a step takes the front command off the queue, and every command completes. -/
theorem stepRunsFront : Obligations.StepRunsFront := by
  unfold Obligations.StepRunsFront
  exact fun s c r => ⟨rfl, exec_next c _⟩

/-! ## The key slots -/

/-- Slot `k` after a digest has been programmed into it: one that holds a digest keeps it. -/
def State.keysProgrammed (s : State) (k : Nat) (d : List Nat) : Tab (List Nat) :=
  if (s.keySlot k).isEmpty then Tab.put keyBlank s.keys k d else s.keys

/-- What KEYSLOT_PROGRAMMED leaves in the slots, while a digest is being programmed. -/
theorem keys_keyslotDone {s : State} {k x : Nat} {d : List Nat} (h : s.isl.keyAt = some (k, d, x)) :
    s.keyslotDone.keys = s.keysProgrammed k d := by
  simp only [State.keyslotDone, h]
  rfl

theorem keyslotDone_of_none {s : State} (h : s.isl.keyAt = none) : s.keyslotDone = s := by simp [State.keyslotDone, h]

/-- Only the blank slot that is named changes, to the digest. -/
theorem keySlot_keysProgrammed (s : State) (k : Nat) (d : List Nat) (j : Nat) :
    Tab.get keyBlank (s.keysProgrammed k d) j = if j = k ∧ s.keySlot k = [] then d else s.keySlot j := by
  unfold State.keysProgrammed
  by_cases h : s.keySlot k = []
  · simp only [h, List.isEmpty_nil, if_true, Tab.get_put, and_true]
    rfl
  · simp only [List.isEmpty_iff, h, if_false, and_false]
    rfl

/-- The slots that KEYSLOT_PROGRAMMED leaves: as they were, or with one digest programmed. -/
theorem keys_exec_keyslotProgrammed (s : State) : ∃ t, exec .keyslotProgrammed s = .next t ∧ (t.keys = s.keys ∨
    ∃ k d x, s.isl.keyAt = some (k, d, x) ∧ t.keys = s.keysProgrammed k d) := by
  refine ⟨_, rfl, ?_⟩
  rcases h : s.isl.keyAt with - | ⟨k, d, x⟩
  · have hdone : s.begin.keyslotDone.keys = s.keys := by rw [keyslotDone_of_none (s := s.begin) h]; rfl
    exact .inl hdone
  · exact .inr ⟨k, d, x, rfl, keys_keyslotDone (s := s.begin) h⟩

/-- Every command keeps the canonical form of the slots, and changes at most a blank slot whose programming it ends. -/
theorem exec_keySlots (i : Instr) (s : State) : ∃ t, exec i s = .next t ∧ (s.KeysWf → t.KeysWf) ∧ ∀ k, t.keySlot k ≠ s.keySlot k →
    i = .keyslotProgrammed ∧ s.keySlot k = [] ∧ ∃ d x, s.isl.keyAt = some (k, d, x) ∧ t.keySlot k = d := by
  have same {t : State} (h : t.keys = s.keys) : (s.KeysWf → t.KeysWf) ∧ ∀ k, t.keySlot k = s.keySlot k :=
    ⟨by rw [State.KeysWf, State.KeysWf, h]; exact id, fun k => by rw [State.keySlot, State.keySlot, h]⟩
  by_cases hi : i = .keyslotProgrammed
  · subst hi
    obtain ⟨t, ht, hkeys | ⟨k, d, x, hat, hkeys⟩⟩ := keys_exec_keyslotProgrammed s
    · exact ⟨t, ht, (same hkeys).1, fun k hk => absurd ((same hkeys).2 k) hk⟩
    · refine ⟨t, ht, fun hwf => ?_, fun j hj => ?_⟩
      · rw [State.KeysWf, hkeys, State.keysProgrammed]
        split
        · exact Tab.wf_put _ _ _ _ hwf
        · exact hwf
      · have hslot : t.keySlot j = if j = k ∧ s.keySlot k = [] then d else s.keySlot j := by
          rw [← keySlot_keysProgrammed, ← hkeys]
          rfl
        rw [hslot] at hj ⊢
        obtain ⟨rfl, hblank⟩ : j = k ∧ s.keySlot k = [] := by
          by_contra hne
          exact hj (if_neg hne)
        exact ⟨rfl, hblank, d, x, hat, by simp [hblank]⟩
  · obtain ⟨t, ht, hkeys, -⟩ := exec_keys i s hi
    exact ⟨t, ht, (same hkeys).1, fun k hk => absurd ((same hkeys).2 k) hk⟩

/-- Every command keeps the digest of every programmed slot. -/
theorem exec_keysKept (i : Instr) (s : State) : Completes i s fun t => KeysKept s t := by
  obtain ⟨t, ht, -, hchange⟩ := exec_keySlots i s
  refine ⟨t, ht, fun k hk => ?_⟩
  by_contra hne
  obtain ⟨-, hblank, -⟩ := hchange k hne
  exact hk hblank

/-- Settles O56: a step is a tick, which touches no slot, or the front command with the rest of the queue behind it. -/
theorem everyStepKeepsKeySlots : Obligations.EveryStepKeepsKeySlots := by
  unfold Obligations.EveryStepKeepsKeySlots
  intro s hwf
  rcases hq : s.pending with - | ⟨c, r⟩
  case nil =>
    have hstep : step s = .next s.tick := by rw [step, hq]
    exact ⟨s.tick, hstep, hwf, fun _ _ => rfl, hq, fun _ h => absurd rfl h⟩
  case cons =>
    have hstep : step s = exec c { s with pending := r } := by rw [step, hq]
    obtain ⟨t, ht, hkeepWf, hchange⟩ := exec_keySlots c { s with pending := r }
    obtain ⟨u, hu, hpending⟩ := exec_next c { s with pending := r }
    obtain ⟨v, hv, hkept⟩ := exec_keysKept c { s with pending := r }
    obtain rfl : t = u := Host.Outcome.next.inj (ht.symm.trans hu)
    obtain rfl : t = v := Host.Outcome.next.inj (ht.symm.trans hv)
    refine ⟨t, hstep.trans ht, hkeepWf hwf, hkept, hpending, fun k hk => ?_⟩
    obtain ⟨rfl, -, hprog⟩ := hchange k hk
    exact ⟨rfl, hprog⟩

end Sys2Proof.Machine
end

section
/-!
PROOFS. The allocations of a canvas group (R267): the shares of a pass, and what the members whose caps bind leave to the others.
-/

namespace Sys2Proof.Machine

/-! ## One pass -/

theorem allocPass_map_fst (pool w cum : Nat) (l : List CnvReport) : (allocPass pool w cum l).map (·.1) = l := by
  induction l generalizing cum with
  | nil => rfl
  | cons r l ih => simp only [allocPass, List.map_cons, ih]

/-- The running quotient of the pool does not fall from one member to the next. -/
theorem quotient_mono (pool w cum n : Nat) : pool * cum / w ≤ pool * (cum + n) / w :=
  Nat.div_le_div_right (Nat.mul_le_mul_left pool (Nat.le_add_right cum n))

/-- No member receives less than its floor. -/
theorem floor_le_of_mem_allocPass {pool w cum : Nat} {l : List CnvReport} {e : CnvReport × Nat} (he : e ∈ allocPass pool w cum l) : e.1.floor ≤ e.2 := by
  induction l generalizing cum with
  | nil => cases he
  | cons r l ih =>
    rcases List.mem_cons.mp he with rfl | he
    · have := quotient_mono pool w cum (max r.x 1)
      simp only
      omega
    · exact ih he

/-- The shares of a pass telescope. -/
theorem allocPass_sum (pool w cum : Nat) (l : List CnvReport) : ((allocPass pool w cum l).map (·.2)).sum + pool * cum / w =
    (l.map (·.floor)).sum + pool * (cum + (l.map (fun r => max r.x 1)).sum) / w := by
  induction l generalizing cum with
  | nil => simp [allocPass]
  | cons r l ih =>
    have hstep := quotient_mono pool w cum (max r.x 1)
    have hrest := ih (cum + max r.x 1)
    simp only [allocPass, List.map_cons, List.sum_cons, ← Nat.add_assoc] at hrest ⊢
    omega

/-- A pass over members gives the floors and the whole pool. -/
theorem allocPass_total (pool : Nat) {l : List CnvReport} (hl : l ≠ []) :
    ((allocPass pool (max 1 (l.map (fun r => max r.x 1)).sum) 0 l).map (·.2)).sum = pool + (l.map (·.floor)).sum := by
  have hsum := allocPass_sum pool (max 1 (l.map (fun r => max r.x 1)).sum) 0 l
  have hpos : 1 ≤ (l.map (fun r => max r.x 1)).sum := by
    obtain ⟨r, l, rfl⟩ := List.exists_cons_of_ne_nil hl
    simp only [List.map_cons, List.sum_cons]
    omega
  rw [max_eq_right hpos, Nat.zero_add, Nat.mul_div_cancel _ hpos, Nat.mul_zero, Nat.zero_div] at hsum
  rw [max_eq_right hpos]
  omega

/-- With nothing above the floors, a pass gives the floors. -/
theorem allocPass_zero (w cum : Nat) (l : List CnvReport) : allocPass 0 w cum l = l.map (fun r => (r, r.floor)) := by
  induction l generalizing cum with
  | nil => rfl
  | cons r l ih => simp [allocPass, ih]

/-! ## The members whose caps bind, and the others -/

/-- The shares above and not above a cap, in one list, are those of the pass. -/
theorem perm_over_rest (as : List (CnvReport × Nat)) :
    (as.filter (fun e => decide (e.1.cap < e.2)) ++ as.filter (fun e => decide (¬ e.1.cap < e.2))).Perm as := by
  have h := List.filter_append_perm (fun e : CnvReport × Nat => decide (e.1.cap < e.2)) as
  simpa only [decide_not] using h

theorem sum_over_rest (as : List (CnvReport × Nat)) (f : CnvReport × Nat → Nat) :
    ((as.filter (fun e => decide (e.1.cap < e.2))).map f).sum + ((as.filter (fun e => decide (¬ e.1.cap < e.2))).map f).sum = (as.map f).sum := by
  rw [← List.sum_append, ← List.map_append]
  exact ((perm_over_rest as).map f).sum_eq

/-- What R267 asks of the allocations `al` of members `rs` from a pool: one for each, from floor to cap, the whole pool unless every cap binds. -/
def AllocOk (pool : Nat) (rs : List CnvReport) (al : List (Nat × Nat)) : Prop :=
  (al.map (fun e => e.1)).Perm (rs.map (fun r => r.member)) ∧
  (∀ e ∈ al, ∃ r ∈ rs, r.member = e.1 ∧ r.floor ≤ e.2 ∧ e.2 ≤ r.cap) ∧
  (al.map (fun e => e.2)).sum = min (pool + (rs.map (fun r => r.floor)).sum) (rs.map (fun r => r.cap)).sum

/-- A pass in which no cap binds. -/
theorem allocOk_of_pass {pool : Nat} {rs : List CnvReport} (hrs : rs ≠ []) {as : List (CnvReport × Nat)}
    (has : as = allocPass pool (max 1 (rs.map (fun r => max r.x 1)).sum) 0 rs) (hcap : ∀ e ∈ as, e.2 ≤ e.1.cap) :
    AllocOk pool rs (as.map (fun e => (e.1.member, e.2))) := by
  have hfst : as.map (·.1) = rs := by rw [has, allocPass_map_fst]
  have hmem (e) (he : e ∈ as) : e.1 ∈ rs := hfst ▸ List.mem_map_of_mem he
  have htotal : (as.map (·.2)).sum = pool + (rs.map (·.floor)).sum := has ▸ allocPass_total pool hrs
  have hcaps : (as.map (·.2)).sum ≤ (rs.map (·.cap)).sum := by
    rw [← hfst, List.map_map]
    exact List.sum_le_sum hcap
  refine ⟨?_, ?_, ?_⟩
  · rw [List.map_map, ← hfst, List.map_map]
    exact List.Perm.refl _
  · intro p hp
    obtain ⟨e, he, rfl⟩ := List.mem_map.mp hp
    exact ⟨e.1, hmem e he, rfl, floor_le_of_mem_allocPass (has ▸ he), hcap e he⟩
  · rw [List.map_map]
    exact htotal.trans (min_eq_left (htotal ▸ hcaps)).symm

/-- Where caps bind, those members receive their caps, and the rest of the pool goes to the others. -/
theorem allocOk_of_over {pool : Nat} {rs : List CnvReport} (hrs : rs ≠ []) (hle : ∀ r ∈ rs, r.floor ≤ r.cap) {as capped rest : List (CnvReport × Nat)}
    (has : as = allocPass pool (max 1 (rs.map (fun r => max r.x 1)).sum) 0 rs) (hcapped : capped = as.filter (fun e => decide (e.1.cap < e.2)))
    (hrest : rest = as.filter (fun e => decide (¬ e.1.cap < e.2))) {al : List (Nat × Nat)}
    (hal : AllocOk (pool + (capped.map (fun e => e.1.floor)).sum - (capped.map (fun e => e.1.cap)).sum) (rest.map (fun e => e.1)) al) :
    AllocOk pool rs (capped.map (fun e => (e.1.member, e.1.cap)) ++ al) := by
  have hfst : as.map (·.1) = rs := by rw [has, allocPass_map_fst]
  have hmem (e) (he : e ∈ as) : e.1 ∈ rs := hfst ▸ List.mem_map_of_mem he
  have hcappedas (e) (he : e ∈ capped) : e ∈ as := (List.mem_filter.mp (hcapped ▸ he)).1
  have hrestas (e) (he : e ∈ rest) : e ∈ as := (List.mem_filter.mp (hrest ▸ he)).1
  have hperm : (capped ++ rest).Perm as := by rw [hcapped, hrest]; exact perm_over_rest as
  have hsum (f : CnvReport → Nat) : (capped.map (fun e => f e.1)).sum + (rest.map (fun e => f e.1)).sum = (rs.map f).sum := by
    rw [hcapped, hrest, sum_over_rest as (fun e => f e.1), ← hfst, List.map_map]
    rfl
  have hshares : (capped.map (·.2)).sum + (rest.map (·.2)).sum = pool + (rs.map (·.floor)).sum := by
    rw [hcapped, hrest, sum_over_rest as (·.2), has]
    exact allocPass_total pool hrs
  have hcaps : (capped.map (fun e => e.1.cap)).sum ≤ (capped.map (·.2)).sum := List.sum_le_sum fun e he => by
    have h := (List.mem_filter.mp (hcapped ▸ he)).2
    exact Nat.le_of_lt (of_decide_eq_true h)
  have hfloors : (rest.map (fun e => e.1.floor)).sum ≤ (rest.map (·.2)).sum :=
    List.sum_le_sum fun e he => floor_le_of_mem_allocPass (has ▸ hrestas e he)
  obtain ⟨halone, halbounds, halsum⟩ := hal
  refine ⟨?_, ?_, ?_⟩
  · rw [List.map_append, List.map_map]
    refine (List.Perm.append_left _ halone).trans ?_
    rw [List.map_map, ← hfst, List.map_map]
    have h := hperm.map (fun e => e.1.member)
    rw [List.map_append] at h
    exact h
  · intro p hp
    rcases List.mem_append.mp hp with hp | hp
    · obtain ⟨e, he, rfl⟩ := List.mem_map.mp hp
      have hr := hmem e (hcappedas e he)
      exact ⟨e.1, hr, rfl, hle e.1 hr, Nat.le_refl _⟩
    · obtain ⟨r, hr, h⟩ := halbounds p hp
      obtain ⟨e, he, rfl⟩ := List.mem_map.mp hr
      exact ⟨e.1, hmem e (hrestas e he), h⟩
  · have hf := hsum (·.floor)
    have hc := hsum (·.cap)
    rw [List.map_map, List.map_map] at halsum
    rw [List.map_append, List.sum_append, List.map_map, halsum]
    simp only [Function.comp_def] at hf hc ⊢
    omega

/-! ## The allocation -/

theorem allocate_ok (n pool : Nat) (rs : List CnvReport) (hn : rs.length < n) (hle : ∀ r ∈ rs, r.floor ≤ r.cap) :
    AllocOk pool rs (allocate n pool rs).1 := by
  induction n generalizing pool rs with
  | zero => exact absurd hn (Nat.not_lt_zero _)
  | succ n ih =>
    by_cases hrs : rs = []
    · subst hrs
      simp [allocate, allocPass, AllocOk]
    · simp only [allocate]
      generalize has : allocPass pool (max 1 (rs.map (fun r => max r.x 1)).sum) 0 rs = as
      have hperm := perm_over_rest as
      have hlen : as.length = rs.length := by rw [← has, ← List.length_map (f := (·.1)), allocPass_map_fst]
      generalize hcapped : as.filter (fun e => decide (e.1.cap < e.2)) = capped at hperm ⊢
      generalize hrest : as.filter (fun e => decide (¬ e.1.cap < e.2)) = rest at hperm ⊢
      split
      case isTrue hnone =>
        have hcap (e) (he : e ∈ as) : e.2 ≤ e.1.cap := by
          have := List.filter_eq_nil_iff.mp (hcapped.trans hnone) e he
          simpa using this
        have hall : rest = as := by
          rw [← hrest]
          exact List.filter_eq_self.mpr fun e he => by simpa using hcap e he
        rw [hall]
        exact allocOk_of_pass hrs has.symm hcap
      case isFalse hsome =>
        have hmem (e) (he : e ∈ rest) : e.1 ∈ rs := by
          have h : e ∈ as := (List.mem_filter.mp (hrest ▸ he)).1
          have h1 := List.mem_map_of_mem (f := (·.1)) h
          rwa [← has, allocPass_map_fst] at h1
        refine allocOk_of_over hrs hle has.symm hcapped.symm hrest.symm (ih _ _ ?_ ?_)
        · have hsplit := hperm.length_eq
          have hpos := List.length_pos_of_ne_nil hsome
          rw [List.length_append] at hsplit
          rw [List.length_map]
          omega
        · intro r hr
          obtain ⟨e, he, rfl⟩ := List.mem_map.mp hr
          exact hle _ (hmem e he)

/-- With nothing above the floors, every member receives its floor. -/
theorem allocate_zero {n : Nat} {rs : List CnvReport} (hn : rs.length < n) (hle : ∀ r ∈ rs, r.floor ≤ r.cap) :
    (allocate n 0 rs).1 = rs.map (fun r => (r.member, r.floor)) := by
  obtain ⟨n, rfl⟩ := Nat.exists_eq_succ_of_ne_zero (Nat.ne_zero_of_lt hn)
  have hcapped : (rs.map (fun r => (r, r.floor))).filter (fun e => decide (e.1.cap < e.2)) = [] := by
    refine List.filter_eq_nil_iff.mpr fun e he => ?_
    obtain ⟨r, hr, rfl⟩ := List.mem_map.mp he
    simpa using hle r hr
  have hrest : (rs.map (fun r => (r, r.floor))).filter (fun e => decide (¬ e.1.cap < e.2)) = rs.map (fun r => (r, r.floor)) := by
    refine List.filter_eq_self.mpr fun e he => ?_
    obtain ⟨r, hr, rfl⟩ := List.mem_map.mp he
    simpa using hle r hr
  simp only [allocate, allocPass_zero, hcapped, hrest, if_true, List.map_map]
  rfl

/-- Settles O60: the shares of a pass telescope to the pool, and the members whose caps bind leave at least the floors of the others. -/
theorem canvasAllocations : Obligations.CanvasAllocations := by
  unfold Obligations.CanvasAllocations
  intro rs n pool hn hle
  obtain ⟨hone, hbounds, hsum⟩ := allocate_ok n pool rs hn hle
  exact ⟨hone, hbounds, hsum, fun hpool => hpool ▸ allocate_zero hn hle⟩

end Sys2Proof.Machine
end

section
/-!
SUPPORT. The frames of updates of one part of the state, and single bits of a word.
-/

namespace Sys2Proof.Machine

/-! ## One part -/

theorem frame_isl (s : State) (x : IslandSt) : Frame [] [] [.isl] s { s with isl := x } := by
  refine ⟨fun _ _ => rfl, fun _ _ => rfl, rfl, rfl, fun p hp => ?_⟩
  cases p
  case isl => simp at hp
  all_goals rfl

theorem frame_log (s : State) (x : LogSt) : Frame [] [] [.log] s { s with log := x } := by
  refine ⟨fun _ _ => rfl, fun _ _ => rfl, rfl, rfl, fun p hp => ?_⟩
  cases p
  case log => simp at hp
  all_goals rfl

theorem frame_twn (s : State) (x : TwnSt) : Frame [] [] [.twn] s { s with twn := x } := by
  refine ⟨fun _ _ => rfl, fun _ _ => rfl, rfl, rfl, fun p hp => ?_⟩
  cases p
  case twn => simp at hp
  all_goals rfl

theorem frame_cnv (s : State) (x : CnvSt) : Frame [] [] [.cnv] s { s with cnv := x } := by
  refine ⟨fun _ _ => rfl, fun _ _ => rfl, rfl, rfl, fun p hp => ?_⟩
  cases p
  case cnv => simp at hp
  all_goals rfl

theorem frame_links (s : State) (x : Tab LinkSt) : Frame [] [] [.links] s { s with links := x } := by
  refine ⟨fun _ _ => rfl, fun _ _ => rfl, rfl, rfl, fun p hp => ?_⟩
  cases p
  case links => simp at hp
  all_goals rfl

theorem frame_comp (s : State) (x : CompSt) : Frame [] [] [.comp] s { s with comp := x } := by
  refine ⟨fun _ _ => rfl, fun _ _ => rfl, rfl, rfl, fun p hp => ?_⟩
  cases p
  case comp => simp at hp
  all_goals rfl

theorem frame_lne (s : State) (x : LneSt) : Frame [] [] [.lne] s { s with lne := x } := by
  refine ⟨fun _ _ => rfl, fun _ _ => rfl, rfl, rfl, fun p hp => ?_⟩
  cases p
  case lne => simp at hp
  all_goals rfl

theorem frame_aud (s : State) (x : AudSt) : Frame [] [] [.aud] s { s with aud := x } := by
  refine ⟨fun _ _ => rfl, fun _ _ => rfl, rfl, rfl, fun p hp => ?_⟩
  cases p
  case aud => simp at hp
  all_goals rfl

theorem frame_cfg (s : State) (x : CfgSt) : Frame [] [] [.cfg] s { s with cfg := x } := by
  refine ⟨fun _ _ => rfl, fun _ _ => rfl, rfl, rfl, fun p hp => ?_⟩
  cases p
  case cfg => simp at hp
  all_goals rfl

theorem frame_sx (s : State) (x : SxSt) : Frame [] [] [.sx] s { s with sx := x } := by
  refine ⟨fun _ _ => rfl, fun _ _ => rfl, rfl, rfl, fun p hp => ?_⟩
  cases p
  case sx => simp at hp
  all_goals rfl

theorem frame_snap (s : State) (x : SnapSt) : Frame [] [] [.snap] s { s with snap := x } := by
  refine ⟨fun _ _ => rfl, fun _ _ => rfl, rfl, rfl, fun p hp => ?_⟩
  cases p
  case snap => simp at hp
  all_goals rfl

theorem frame_pins (s : State) (x : PinSt) : Frame [] [] [.pins] s { s with pins := x } := by
  refine ⟨fun _ _ => rfl, fun _ _ => rfl, rfl, rfl, fun p hp => ?_⟩
  cases p
  case pins => simp at hp
  all_goals rfl

theorem frame_souv (s : State) (x : Tab Nat) : Frame [] [] [.souv] s { s with souv := x } := by
  refine ⟨fun _ _ => rfl, fun _ _ => rfl, rfl, rfl, fun p hp => ?_⟩
  cases p
  case souv => simp at hp
  all_goals rfl

theorem frame_flash (s : State) (x : FlashSt) : Frame [] [] [.flash] s { s with flash := x } := by
  refine ⟨fun _ _ => rfl, fun _ _ => rfl, rfl, rfl, fun p hp => ?_⟩
  cases p
  case flash => simp at hp
  all_goals rfl

/-! ## Single bits -/

theorem bitsOf_bit (n b : Nat) : bitsOf n b b = (n.testBit b).toNat := by
  rw [Nat.toNat_testBit, bitsOf, Nat.add_sub_cancel_left]
  simp

/-- A bit of the word that a write of 1 to bit `b` alone leaves in a register whose bits it clears. -/
theorem bitsOf_clear {n b c : Nat} (hc : c < 32) : bitsOf (n &&& (0xFFFFFFFF ^^^ 2 ^ b)) c c = if c = b then 0 else bitsOf n c c := by
  have hones : Nat.testBit 0xFFFFFFFF c = true := by
    rw [show (0xFFFFFFFF : Nat) = 2 ^ 32 - 1 from rfl, Nat.testBit_two_pow_sub_one]
    exact decide_eq_true hc
  rw [bitsOf_bit, bitsOf_bit, Nat.testBit_and, Nat.testBit_xor, hones, Nat.testBit_two_pow]
  split
  case isTrue h => simp [h]
  case isFalse h => simp [Ne.symm h]

end Sys2Proof.Machine
end

section
/-!
PROOFS. SVC_ALERT_N (R406): the bit that pulls it low, the read of the Alert Response Address, and the clear of the bit.
-/

namespace Sys2Proof.Machine

/-! ## A BIN_FAULT bit sets -/

theorem faultSet_alert (s : State) (b : Nat) : (s.faultSet b).isl.alert =
    if bitsOf (s.rdn R.BIN_FAULT) b b = 0 ∧ bitsOf (s.rdn R.BIN_FAULT_MASK) b b = 1 then setBits s.isl.alert b b 1 else s.isl.alert := by
  simp [State.faultSet]

theorem faultSet_fault (s : State) {b : Nat} (hb : b < 32) : bitsOf ((s.faultSet b).rdn R.BIN_FAULT) b b = 1 := by
  have hword : (s.faultSet b).rdn R.BIN_FAULT = (s.wrn R.BIN_FAULT (setBits (s.rdn R.BIN_FAULT) b b 1)).rdn R.BIN_FAULT := rfl
  rw [hword, rdn_wrn_same, bitsOf_mod _ _ _ _ hb, bitsOf_setBits_same]
  simp

/-- A bit of BIN_FAULT that BIN_FAULT_MASK names pulls the line low when it sets. -/
theorem faultSet_alertN {s : State} {b : Nat} (hclear : bitsOf (s.rdn R.BIN_FAULT) b b = 0) (hmask : bitsOf (s.rdn R.BIN_FAULT_MASK) b b = 1) :
    (s.faultSet b).alertN = true := by
  have hne : setBits s.isl.alert b b 1 ≠ 0 := by
    intro h
    have hbit := bitsOf_setBits_same s.isl.alert b b 1
    rw [h, Nat.add_sub_cancel_left] at hbit
    simp [bitsOf] at hbit
  rw [State.alertN, faultSet_alert, if_pos ⟨hclear, hmask⟩]
  exact bne_iff_ne.mpr hne

/-- One that was set before, or that the mask does not name, leaves it. -/
theorem faultSet_alertN_same {s : State} {b : Nat} (h : bitsOf (s.rdn R.BIN_FAULT) b b = 1 ∨ bitsOf (s.rdn R.BIN_FAULT_MASK) b b = 0) :
    (s.faultSet b).alertN = s.alertN := by
  rw [State.alertN, State.alertN, faultSet_alert, if_neg (by omega)]

/-! ## The line is released -/

theorem alertResponse_completes {s : State} (hlow : s.alertN = true) : Completes .alertResponse s fun t =>
    t.alertN = false ∧ t.out = [.alertAddr (bitsOf (s.rdn R.BIN_SVC_CTL) 6 0)] ∧ t.isl = { s.isl with alert := 0 } ∧ Keeps [] [] [.isl, .out] s t := by
  have hop : s.begin.alertResponse = ({ s.begin with isl := { s.isl with alert := 0 } } : State).emit (.alertAddr (bitsOf (s.rdn R.BIN_SVC_CTL) 6 0)) :=
    if_pos hlow
  exact completes_of_frame rfl hop ((frame_isl s.begin _).trans (frame_emit _ _)) (.inl rfl) fun hk => ⟨rfl, rfl, rfl, hk⟩

/-- A write of ones to BIN_FAULT clears those bits. -/
theorem busWrite_fault {s : State} {path : BusPath} (v : Word) (hd : s.dark = false) (hp : path ≠ .service) :
    s.busWrite path R.BIN_FAULT v 4 = s.faultClear v.toNat :=
  (busWrite_reg v hp hd (by decide) (by decide)).trans (regWrite_unit rfl rfl (fieldsOk_any rfl _ _) (by decide) (by decide) rfl)

theorem frame_faultClear (s : State) (v : Nat) : Frame [R.BIN_FAULT] [] [.isl] s (s.faultClear v) :=
  (frame_wrn s R.BIN_FAULT _).trans (frame_isl _ _)

/-- The clear of the one bit that holds the line releases it, and leaves the other bits. -/
theorem faultBitClear_completes {s : State} {path : BusPath} {b : Nat} (hd : s.dark = false) (hp : path ≠ .service) (hb : b < 11) (halert : s.isl.alert = 2 ^ b) :
    Completes (.registerWrite path R.BIN_FAULT (BitVec.ofNat 32 (2 ^ b)) 4) s fun t =>
      t.alertN = false ∧ bitsOf (t.rdn R.BIN_FAULT) b b = 0 ∧ (∀ c, c < 11 → c ≠ b → bitsOf (t.rdn R.BIN_FAULT) c c = bitsOf (s.rdn R.BIN_FAULT) c c) ∧
      Keeps [R.BIN_FAULT] [] [.isl] s t := by
  have hv : (BitVec.ofNat 32 (2 ^ b)).toNat = 2 ^ b := by
    rw [BitVec.toNat_ofNat, Nat.mod_eq_of_lt (Nat.pow_lt_pow_right (by decide) (by omega))]
  have hop : s.begin.busWrite path R.BIN_FAULT (BitVec.ofNat 32 (2 ^ b)) 4 = s.begin.faultClear (2 ^ b) := by
    exact (busWrite_fault (s := s.begin) _ hd hp).trans (by rw [hv])
  have hnone : ∀ b < 11, 2 ^ b &&& (0xFFFFFFFF ^^^ 2 ^ b) = 0 := by decide
  have hbits (c : Nat) (hc : c < 11) : bitsOf ((s.begin.faultClear (2 ^ b)).finish.rdn R.BIN_FAULT) c c = if c = b then 0 else bitsOf (s.rdn R.BIN_FAULT) c c := by
    have hword : (s.begin.faultClear (2 ^ b)).finish.rdn R.BIN_FAULT = (s.rdn R.BIN_FAULT &&& (0xFFFFFFFF ^^^ 2 ^ b)) % 2 ^ 32 := rdn_wrn_same _ _ _
    rw [hword, bitsOf_mod _ _ _ _ (by omega), bitsOf_clear (by omega)]
  refine completes_of_frame (op := (·.busWrite path R.BIN_FAULT (BitVec.ofNat 32 (2 ^ b)) 4)) rfl hop (frame_faultClear _ _) (.inl rfl) fun hk => ⟨?_, ?_, fun c hc hcb => ?_, hk⟩
  · have hline : (s.begin.faultClear (2 ^ b)).finish.alertN = (s.isl.alert &&& (0xFFFFFFFF ^^^ 2 ^ b) != 0) := rfl
    rw [hline, halert, hnone b hb]
    rfl
  · rw [hbits b hb, if_pos rfl]
  · rw [hbits c hc, if_neg hcb]

/-- Settles O57, clause by clause. -/
theorem alertLine : Obligations.AlertLine := by
  unfold Obligations.AlertLine
  exact ⟨fun s _ hb hclear hmask => ⟨faultSet_alertN hclear hmask, faultSet_fault s hb⟩, fun _ _ _ h => faultSet_alertN_same h,
    fun _ => alertResponse_completes, fun _ _ _ => faultBitClear_completes⟩

end Sys2Proof.Machine
end

section
/-!
PROOFS. The sample that a monitor unit takes (R431): its bin, the counts and the extremes that it moves, and the saturation that it finds.
-/

namespace Sys2Proof.Machine

/-! ## The bin -/

theorem monBin_below {base v : Int} (shift : Nat) (log2 : Bool) (h : v < base) : monBin base v shift log2 = 0 := by
  have hneg : v - base < 0 := by omega
  exact if_pos hneg

/-- The bin of a sample `d` at or above the base. -/
theorem monBin_above (base : Int) (d shift : Nat) (log2 : Bool) : monBin base (base + d) shift log2 =
    if !log2 then min 31 (1 + d / 2 ^ shift) else if d / 2 ^ shift = 0 then 1 else min 31 (2 + Nat.log2 (d / 2 ^ shift)) := by
  have hd : base + (d : Int) - base = d := by omega
  have hnn : ¬ (d : Int) < 0 := by omega
  rw [monBin, hd]
  exact if_neg hnn

theorem monBin_log {base : Int} {d shift k : Nat} (hlo : 2 ^ k * 2 ^ shift ≤ d) (hhi : d < 2 ^ (k + 1) * 2 ^ shift) :
    monBin base (base + d) shift true = min 31 (2 + k) := by
  have hpos : 0 < 2 ^ shift := Nat.two_pow_pos shift
  have hlo' : 2 ^ k ≤ d / 2 ^ shift := (Nat.le_div_iff_mul_le hpos).mpr hlo
  have hhi' : d / 2 ^ shift < 2 ^ (k + 1) := (Nat.div_lt_iff_lt_mul hpos).mpr hhi
  have hne : d / 2 ^ shift ≠ 0 := Nat.ne_of_gt (Nat.lt_of_lt_of_le (Nat.two_pow_pos k) hlo')
  have hlog : Nat.log2 (d / 2 ^ shift) = k := (Nat.log2_eq_iff hne).mpr ⟨hlo', hhi'⟩
  rw [monBin_above, hlog, if_neg hne]
  rfl

theorem monBin_lt (base v : Int) (shift : Nat) (log2 : Bool) : monBin base v shift log2 < 32 := by
  by_cases h : v < base
  · rw [monBin_below shift log2 h]
    decide
  · obtain ⟨d, rfl⟩ := Int.le.dest (Int.not_lt.mp h)
    rw [monBin_above]
    split <;> [skip; split] <;> omega

/-! ## Counters that saturate, and the extremes -/

theorem bumpSat_full {s : State} {a : Nat} (h : s.rdn a = 0xFFFFFFFF) : s.bumpSat a = (s, true) := if_pos h

theorem bumpSat_free {s : State} {a : Nat} (h : s.rdn a ≠ 0xFFFFFFFF) : s.bumpSat a = (s.bump a, false) := if_neg h

theorem bumpSat_flag (s : State) (a : Nat) : (s.bumpSat a).2 = decide (s.rdn a = 0xFFFFFFFF) := by
  by_cases h : s.rdn a = 0xFFFFFFFF
  · rw [bumpSat_full h, decide_eq_true h]
  · rw [bumpSat_free h, decide_eq_false h]

theorem frame_bumpSat (s : State) (a : Nat) : Frame [a] [] [] s (s.bumpSat a).1 := by
  by_cases h : s.rdn a = 0xFFFFFFFF
  · rw [bumpSat_full h]
    exact (Frame.refl s).mono (by simp) (by simp) (by simp)
  · rw [bumpSat_free h]
    exact frame_bump s a

theorem evNow_bumpSat (s : State) (a : Nat) : (s.bumpSat a).1.evNow = s.evNow := by
  by_cases h : s.rdn a = 0xFFFFFFFF
  · rw [bumpSat_full h]
  · rw [bumpSat_free h]
    rfl

/-- The counter after one more count. -/
theorem rdn_bumpSat_same (s : State) (a : Nat) : (s.bumpSat a).1.rdn a = min 0xFFFFFFFF (s.rdn a + 1) := by
  have hlt : s.rdn a < 2 ^ 32 := (s.rd a).isLt
  by_cases h : s.rdn a = 0xFFFFFFFF
  · rw [bumpSat_full h, h]
    rfl
  · rw [bumpSat_free h, rdn_bump_same]
    omega

/-- A register of 32 signed bits that holds the value written. -/
theorem signedOf_ofSigned {v : Int} (hlo : -2 ^ 31 ≤ v) (hhi : v < 2 ^ 31) : signedOf 32 (ofSigned 32 v % 2 ^ 32) = v := by
  unfold signedOf ofSigned
  split <;> omega

/-- MIN and MAX take a sample that passes them. -/
def State.monMin (s : State) (m : Nat) (v : Int) : State :=
  if v < signedOf 32 (s.rdn (R.MON_MIN m)) then s.wrn (R.MON_MIN m) (ofSigned 32 v) else s

def State.monMax (s : State) (m : Nat) (v : Int) : State :=
  if signedOf 32 (s.rdn (R.MON_MAX m)) < v then s.wrn (R.MON_MAX m) (ofSigned 32 v) else s

theorem frame_monMin (s : State) (m : Nat) (v : Int) : Frame [R.MON_MIN m] [] [] s (s.monMin m v) := by
  unfold State.monMin
  split
  · exact frame_wrn s _ _
  · exact (Frame.refl s).mono (by simp) (by simp) (by simp)

theorem frame_monMax (s : State) (m : Nat) (v : Int) : Frame [R.MON_MAX m] [] [] s (s.monMax m v) := by
  unfold State.monMax
  split
  · exact frame_wrn s _ _
  · exact (Frame.refl s).mono (by simp) (by simp) (by simp)

theorem evNow_monMin (s : State) (m : Nat) (v : Int) : (s.monMin m v).evNow = s.evNow := by
  unfold State.monMin
  split <;> rfl

theorem evNow_monMax (s : State) (m : Nat) (v : Int) : (s.monMax m v).evNow = s.evNow := by
  unfold State.monMax
  split <;> rfl

theorem monMin_min (s : State) (m : Nat) {v : Int} (hlo : -2 ^ 31 ≤ v) (hhi : v < 2 ^ 31) :
    signedOf 32 ((s.monMin m v).rdn (R.MON_MIN m)) = min (signedOf 32 (s.rdn (R.MON_MIN m))) v := by
  unfold State.monMin
  split
  case isTrue h => rw [rdn_wrn_same, signedOf_ofSigned hlo hhi, min_eq_right (Int.le_of_lt h)]
  case isFalse h => rw [min_eq_left (Int.not_lt.mp h)]

theorem monMax_max (s : State) (m : Nat) {v : Int} (hlo : -2 ^ 31 ≤ v) (hhi : v < 2 ^ 31) :
    signedOf 32 ((s.monMax m v).rdn (R.MON_MAX m)) = max (signedOf 32 (s.rdn (R.MON_MAX m))) v := by
  unfold State.monMax
  split
  case isTrue h => rw [rdn_wrn_same, signedOf_ofSigned hlo hhi, max_eq_right (Int.le_of_lt h)]
  case isFalse h => rw [max_eq_left (Int.not_lt.mp h)]

/-! ## A sample -/

/-- The bin of unit m that a sample goes into. -/
def State.monBinOf (s : State) (m : Nat) (v : Int) : Nat :=
  monBin (signedOf 32 (s.rdn (R.MON_BASE m))) v (s.f (F.MON_CTL_SHIFT m)) (s.on (F.MON_CTL_LOG2 m))

/-- The sample is counted, in COUNT and in its bin. -/
def State.monCounted (s : State) (m b : Nat) : State := ((s.bumpSat (R.MON_COUNT m)).1.bumpSat (R.MON_HIST m b)).1

/-- SAT is shown (R431). -/
def State.monSaturated (s : State) (m : Nat) : State := ((s.setF (F.MON_STATUS_SAT m) 1).setF F.MON_FLAGS_SAT 1).raise 0x1703 m

/-- The sample is counted and moves MIN and MAX. -/
def State.monMoved (s : State) (m : Nat) (v : Int) : State := ((s.monCounted m (s.monBinOf m v)).monMin m v).monMax m v

theorem monHist_ne_count (m b : Nat) : R.MON_HIST m b ≠ R.MON_COUNT m := by simp only [R.MON_HIST, R.MON_COUNT]; omega

/-- A sample of 32 signed bits: SAT comes where COUNT or the bin is full and SAT is not set yet. -/
theorem monTake_eq {s : State} (m : Nat) {v : Int} (hlo : -2 ^ 31 ≤ v) (hhi : v < 2 ^ 31) : s.monTake m v =
    if (s.rdn (R.MON_COUNT m) = 0xFFFFFFFF ∨ s.rdn (R.MON_HIST m (s.monBinOf m v)) = 0xFFFFFFFF) ∧ s.on (F.MON_STATUS_SAT m) = false
    then (s.monMoved m v).monSaturated m else s.monMoved m v := by
  have hclamp : clampI (-2147483648) 2147483647 v = v := by unfold clampI; omega
  have hhist : (s.bumpSat (R.MON_COUNT m)).1.rdn (R.MON_HIST m (s.monBinOf m v)) = s.rdn (R.MON_HIST m (s.monBinOf m v)) :=
    (frame_bumpSat s _).rdn_eq (by simp [monHist_ne_count])
  have hsat : (s.monMoved m v).on (F.MON_STATUS_SAT m) = s.on (F.MON_STATUS_SAT m) := by
    refine (((frame_bumpSat s _).trans (frame_bumpSat _ _)).trans (frame_monMin _ m v) |>.trans (frame_monMax _ m v)).on_eq ?_
    simp only [R.MON_COUNT, R.MON_HIST, R.MON_MIN, R.MON_MAX, R.MON_STATUS, List.mem_append, List.mem_singleton, not_or]
    omega
  have htake : s.monTake m v = if ((s.bumpSat (R.MON_COUNT m)).2 || ((s.bumpSat (R.MON_COUNT m)).1.bumpSat (R.MON_HIST m (s.monBinOf m v))).2) &&
      !(s.monMoved m v).on (F.MON_STATUS_SAT m) then (s.monMoved m v).monSaturated m else s.monMoved m v := by
    rw [State.monTake, hclamp]
    rfl
  rw [htake, bumpSat_flag, bumpSat_flag, hhist, hsat]
  simp only [Bool.and_eq_true, Bool.or_eq_true, decide_eq_true_eq, Bool.not_eq_true']

/-- What a sample leaves besides SAT. -/
theorem frame_monMoved (s : State) (m : Nat) (v : Int) :
    Frame [R.MON_COUNT m, R.MON_HIST m (s.monBinOf m v), R.MON_MIN m, R.MON_MAX m] [] [] s (s.monMoved m v) :=
  (((frame_bumpSat s _).trans (frame_bumpSat _ _)).trans (frame_monMin _ m v)).trans (frame_monMax _ m v)

theorem frame_monSaturated (s : State) (m : Nat) : Frame [R.MON_STATUS m, R.MON_FLAGS] [] [] s (s.monSaturated m) :=
  ((frame_setF s (F.MON_STATUS_SAT m) 1).trans (frame_setF _ F.MON_FLAGS_SAT 1)).trans (frame_raise _ _ _)

theorem on_monSaturated (s : State) (m : Nat) : (s.monSaturated m).on (F.MON_STATUS_SAT m) = true ∧ (s.monSaturated m).on F.MON_FLAGS_SAT = true := by
  have hne : R.MON_STATUS m ≠ R.MON_FLAGS := by simp only [R.MON_STATUS, R.MON_FLAGS]; omega
  rw [State.monSaturated, on_raise, on_raise, on_setF_addr _ _ hne]
  exact ⟨on_setF_same s (F.MON_STATUS_SAT m) (show 1 < 32 by decide) rfl, on_setF_same _ F.MON_FLAGS_SAT (by decide) rfl⟩

/-- The registers of unit m below its histogram, and the flags, are apart. -/
theorem mon_apart (m b : Nat) : R.MON_COUNT m ∉ [R.MON_HIST m b, R.MON_MIN m, R.MON_MAX m, R.MON_STATUS m, R.MON_FLAGS] ∧
    R.MON_HIST m b ∉ [R.MON_MIN m, R.MON_MAX m, R.MON_STATUS m, R.MON_FLAGS] ∧ R.MON_MIN m ∉ [R.MON_COUNT m, R.MON_HIST m b, R.MON_MAX m, R.MON_STATUS m, R.MON_FLAGS] ∧
    R.MON_MAX m ∉ [R.MON_COUNT m, R.MON_HIST m b, R.MON_MIN m, R.MON_STATUS m, R.MON_FLAGS] := by
  simp only [R.MON_COUNT, R.MON_HIST, R.MON_MIN, R.MON_MAX, R.MON_STATUS, R.MON_FLAGS, List.mem_cons, List.not_mem_nil, or_false, not_or]
  omega

theorem sub_monApart {m : Nat} : [R.MON_MIN m, R.MON_MAX m] ⊆ [R.MON_MIN m, R.MON_MAX m, R.MON_STATUS m, R.MON_FLAGS] := by simp

/-- The extremes move beside the counts. -/
theorem frame_extremes (s : State) (m : Nat) (v : Int) : Frame [R.MON_MIN m, R.MON_MAX m] [] [] s ((s.monMin m v).monMax m v) :=
  (frame_monMin s m v).trans (frame_monMax _ m v)

theorem frame_monCounted (s : State) (m b : Nat) : Frame [R.MON_COUNT m, R.MON_HIST m b] [] [] s (s.monCounted m b) :=
  (frame_bumpSat s _).trans (frame_bumpSat _ _)

theorem rdn_monCounted_count (s : State) (m b : Nat) : (s.monCounted m b).rdn (R.MON_COUNT m) = min 0xFFFFFFFF (s.rdn (R.MON_COUNT m) + 1) := by
  rw [State.monCounted, (frame_bumpSat _ (R.MON_HIST m b)).rdn_eq (by simp [(monHist_ne_count m b).symm]), rdn_bumpSat_same]

theorem rdn_monCounted_hist (s : State) (m b : Nat) : (s.monCounted m b).rdn (R.MON_HIST m b) = min 0xFFFFFFFF (s.rdn (R.MON_HIST m b) + 1) := by
  rw [State.monCounted, rdn_bumpSat_same, (frame_bumpSat s (R.MON_COUNT m)).rdn_eq (by simp [monHist_ne_count m b])]

/-- The counts after a sample, SAT aside. -/
theorem rdn_monMoved_count (s : State) (m : Nat) (v : Int) : (s.monMoved m v).rdn (R.MON_COUNT m) = min 0xFFFFFFFF (s.rdn (R.MON_COUNT m) + 1) := by
  obtain ⟨hcount, -⟩ := mon_apart m 0
  rw [State.monMoved, (frame_extremes _ m v).rdn_eq (fun h => hcount (List.mem_cons_of_mem _ (sub_monApart h))), rdn_monCounted_count]

theorem rdn_monMoved_hist (s : State) (m : Nat) (v : Int) :
    (s.monMoved m v).rdn (R.MON_HIST m (s.monBinOf m v)) = min 0xFFFFFFFF (s.rdn (R.MON_HIST m (s.monBinOf m v)) + 1) := by
  obtain ⟨-, hhist, -⟩ := mon_apart m (s.monBinOf m v)
  rw [State.monMoved, (frame_extremes _ m v).rdn_eq (fun h => hhist (sub_monApart h)), rdn_monCounted_hist]

theorem monMoved_min (s : State) (m : Nat) {v : Int} (hlo : -2 ^ 31 ≤ v) (hhi : v < 2 ^ 31) :
    signedOf 32 ((s.monMoved m v).rdn (R.MON_MIN m)) = min (signedOf 32 (s.rdn (R.MON_MIN m))) v := by
  obtain ⟨-, -, hmin, -⟩ := mon_apart m (s.monBinOf m v)
  rw [State.monMoved, (frame_monMax _ m v).rdn_eq (fun h => hmin (by simp at h)), monMin_min _ m hlo hhi,
    (frame_monCounted s m _).rdn_eq (fun h => hmin (by simp at h; simp [h]))]

theorem monMoved_max (s : State) (m : Nat) {v : Int} (hlo : -2 ^ 31 ≤ v) (hhi : v < 2 ^ 31) :
    signedOf 32 ((s.monMoved m v).rdn (R.MON_MAX m)) = max (signedOf 32 (s.rdn (R.MON_MAX m))) v := by
  obtain ⟨-, -, -, hmax⟩ := mon_apart m (s.monBinOf m v)
  rw [State.monMoved, monMax_max _ m hlo hhi, (frame_monMin _ m v).rdn_eq (fun h => hmax (by simp at h)),
    (frame_monCounted s m _).rdn_eq (fun h => hmax (by simp at h; simp [h]))]

theorem monMoved_sat (s : State) (m : Nat) (v : Int) : (s.monMoved m v).on (F.MON_STATUS_SAT m) = s.on (F.MON_STATUS_SAT m) := by
  obtain ⟨hcount, hhist, hmin, hmax⟩ := mon_apart m (s.monBinOf m v)
  refine (frame_monMoved s m v).on_eq fun h => ?_
  simp only [List.mem_cons, List.not_mem_nil, or_false] at h
  rcases h with h | h | h | h
  · exact hcount (by simp [← h])
  · exact hhist (by simp [← h])
  · exact hmin (by simp [← h])
  · exact hmax (by simp [← h])

theorem evNow_monMoved (s : State) (m : Nat) (v : Int) : (s.monMoved m v).evNow = s.evNow := by
  rw [State.monMoved, evNow_monMax, evNow_monMin, State.monCounted, evNow_bumpSat, evNow_bumpSat]

/-- A unit that takes a sample. -/
theorem monTake_takes {s : State} {m : Nat} {v : Int} (hlo : -2 ^ 31 ≤ v) (hhi : v < 2 ^ 31) :
    let t := s.monTake m v
    let b := monBin (signedOf 32 (s.rdn (R.MON_BASE m))) v (s.f (F.MON_CTL_SHIFT m)) (s.on (F.MON_CTL_LOG2 m))
    let full := s.rdn (R.MON_COUNT m) = 0xFFFFFFFF ∨ s.rdn (R.MON_HIST m b) = 0xFFFFFFFF
    t.rdn (R.MON_COUNT m) = min 0xFFFFFFFF (s.rdn (R.MON_COUNT m) + 1) ∧ t.rdn (R.MON_HIST m b) = min 0xFFFFFFFF (s.rdn (R.MON_HIST m b) + 1) ∧
    signedOf 32 (t.rdn (R.MON_MIN m)) = min (signedOf 32 (s.rdn (R.MON_MIN m))) v ∧
    signedOf 32 (t.rdn (R.MON_MAX m)) = max (signedOf 32 (s.rdn (R.MON_MAX m))) v ∧
    (t.on (F.MON_STATUS_SAT m) = true ↔ s.on (F.MON_STATUS_SAT m) = true ∨ full) ∧
    t.evNow = (if full ∧ s.on (F.MON_STATUS_SAT m) = false then s.evNow ++ [⟨0x1703, m⟩] else s.evNow) ∧
    (full → s.on (F.MON_STATUS_SAT m) = false → t.on F.MON_FLAGS_SAT = true) ∧
    (∀ a, a ∉ [R.MON_COUNT m, R.MON_HIST m b, R.MON_MIN m, R.MON_MAX m, R.MON_STATUS m, R.MON_FLAGS] → t.rd a = s.rd a) := by
  intro t b full
  have ht : t = if full ∧ s.on (F.MON_STATUS_SAT m) = false then (s.monMoved m v).monSaturated m else s.monMoved m v := monTake_eq m hlo hhi
  obtain ⟨hcount, hhist, hmin, hmax⟩ := mon_apart m b
  have hkept : Frame [R.MON_STATUS m, R.MON_FLAGS] [] [] (s.monMoved m v) t := by
    rw [ht]
    split
    · exact frame_monSaturated _ m
    · exact (Frame.refl _).mono (by simp) (by simp) (by simp)
  refine ⟨?_, ?_, ?_, ?_, ?_, ?_, ?_, fun a ha => ?_⟩
  · exact (hkept.rdn_eq (fun h => hcount (by simp at h; simp [h]))).trans (rdn_monMoved_count s m v)
  · exact (hkept.rdn_eq (fun h => hhist (by simp at h; simp [h]))).trans (rdn_monMoved_hist s m v)
  · rw [hkept.rdn_eq (fun h => hmin (by simp at h; simp [h])), monMoved_min s m hlo hhi]
  · rw [hkept.rdn_eq (fun h => hmax (by simp at h; simp [h])), monMoved_max s m hlo hhi]
  · rw [ht]
    split
    case isTrue h => simp [on_monSaturated, h]
    case isFalse h =>
      rw [monMoved_sat]
      refine ⟨.inl, fun hor => hor.elim id fun hfull => ?_⟩
      exact Bool.not_eq_false _ ▸ fun hoff => h ⟨hfull, hoff⟩
  · rw [ht]
    split
    case isTrue h =>
      have hraised : ((s.monMoved m v).monSaturated m).evNow = (s.monMoved m v).evNow ++ [⟨0x1703, m⟩] := rfl
      rw [hraised, evNow_monMoved]
    case isFalse h => exact evNow_monMoved s m v
  · intro hfull hoff
    rw [ht, if_pos ⟨hfull, hoff⟩]
    exact (on_monSaturated _ m).2
  · exact ((frame_monMoved s m v).trans hkept).rd_eq ha

/-- Settles O59, clause by clause. -/
theorem monitorBins : Obligations.MonitorBins := by
  unfold Obligations.MonitorBins
  refine ⟨fun _ _ shift log2 h => monBin_below shift log2 h, fun base d shift => ?_, fun base d shift h => ?_, fun _ _ _ _ hlo hhi => monBin_log hlo hhi,
    fun _ _ _ _ hlo hhi => monTake_takes hlo hhi⟩
  · rw [monBin_above]
    rfl
  · rw [monBin_above, if_pos (Nat.div_eq_of_lt h)]
    rfl

end Sys2Proof.Machine
end

section
/-!
SUPPORT. The Binnacle island after updates: a mute, a fault record, HELM_OUT, giving up control (R250, R396, R397), and what a reset (R356, R357) and a
shutdown (R398) leave.
-/

namespace Sys2Proof.Machine

/-! ## Frames -/

theorem frame_faultSet (s : State) (b : Nat) : Frame [R.BIN_FAULT] [] [.log, .isl] s (s.faultSet b) := by
  refine ⟨fun a ha => rd_wr_ne s _ (by simpa using ha), fun _ _ => rfl, rfl, rfl, fun p hp => ?_⟩
  cases p
  case log | isl => simp at hp
  all_goals rfl

theorem frame_mute (s : State) (hold : Bool) : Frame [R.BIN_STATUS] [] [] s (s.mute hold) := by
  have hsoft : Frame [R.BIN_STATUS] [] [] s (if s.on F.BIN_STATUS_MUTED then s else (s.setF F.BIN_STATUS_MUTED 1).raise 0x0103 0) := by
    split
    · exact (Frame.refl s).mono (by simp) (by simp) (by simp)
    · exact (frame_setF s F.BIN_STATUS_MUTED 1).trans (frame_raise _ _ _)
  unfold State.mute
  cases hold
  case false => exact hsoft
  case true => exact (hsoft.trans (frame_setF _ F.BIN_STATUS_MUTE_HOLD 1)).mono (by simp) (by simp) (by simp)

/-- A record that finds room in the queue. -/
theorem frame_pushFault {s : State} (cause block event fn detail : Nat) (h : s.isl.queue.length < 8) :
    Frame [R.BIN_FAULT] [] [.log, .isl] s (s.pushFault cause block event fn detail) := by
  unfold State.pushFault
  cases hbit : faultBit cause with
  | none =>
    simp only [if_pos h]
    exact (frame_isl s _).mono (by simp) (by simp) (by simp)
  | some b =>
    have h' : (s.faultSet b).isl.queue.length < 8 := h
    simp only [if_pos h']
    exact ((frame_faultSet s b).trans (frame_isl _ _)).mono (by simp) (by simp) (by simp)

theorem frame_driveHelm (s : State) (hi : Bool) : Frame [R.BIN_STATUS, R.TWN_STATUS] [] [.out] s (s.driveHelm hi) := by
  unfold State.driveHelm
  split
  · exact (Frame.refl s).mono (by simp) (by simp) (by simp)
  · exact ((frame_setF s F.BIN_STATUS_HELM_OUT _).trans (frame_setF _ F.TWN_STATUS_HELM_OUT _)).trans (frame_emit _ _)

theorem mute_isl (s : State) (hold : Bool) : (s.mute hold).isl = s.isl := (frame_mute s hold).part (p := .isl) (by decide)

theorem frame_giveUp {s : State} (cause block event detail : Nat) (h : s.isl.queue.length < 8) :
    Frame [R.BIN_STATUS, R.BIN_FAULT, R.TWN_STATUS] [] [.isl, .log, .out] s (s.giveUp cause block event detail) := by
  have hroom : (s.mute true).isl.queue.length < 8 := by rwa [mute_isl]
  exact (((((frame_mute s true).trans (frame_pushFault cause block event 0x7F detail hroom)).trans (frame_driveHelm _ _)).trans (frame_setF _ F.BIN_STATUS_GIVEN_UP 1)).trans
    (frame_raise _ _ _)).mono (by simp) (by simp) (by simp)

/-! ## Records -/

/-- A record's cause and DETAIL. -/
def FaultRec.brief (r : FaultRec) : Nat × Nat := (r.cause, r.detail)

theorem pushFault_queue {s : State} (cause block event fn detail : Nat) (h : s.isl.queue.length < 8) :
    (s.pushFault cause block event fn detail).isl.queue.map FaultRec.brief = s.isl.queue.map FaultRec.brief ++ [(cause, detail)] := by
  unfold State.pushFault
  cases hbit : faultBit cause with
  | none =>
    simp only [if_pos h]
    simp [FaultRec.brief]
  | some b =>
    have h' : (s.faultSet b).isl.queue.length < 8 := h
    simp only [if_pos h']
    simp [FaultRec.brief, State.faultSet]

theorem pushFault_queue_length {s : State} (cause block event fn detail : Nat) (h : s.isl.queue.length < 8) :
    (s.pushFault cause block event fn detail).isl.queue.length = s.isl.queue.length + 1 := by
  have hlen := congrArg List.length (pushFault_queue cause block event fn detail h)
  simpa using hlen

/-- A record sets the BIN_FAULT bit of its cause. -/
theorem pushFault_bit {s : State} {cause b : Nat} (block event fn detail : Nat) (h : s.isl.queue.length < 8) (hbit : faultBit cause = some b) (hb : b < 32) :
    bitsOf ((s.pushFault cause block event fn detail).rdn R.BIN_FAULT) b b = 1 := by
  have h' : (s.faultSet b).isl.queue.length < 8 := h
  unfold State.pushFault
  simp only [hbit, if_pos h']
  exact faultSet_fault s hb

theorem pushFault_evNow {s : State} (cause block event fn detail : Nat) (h : s.isl.queue.length < 8) :
    (s.pushFault cause block event fn detail).evNow = s.evNow := by
  unfold State.pushFault
  cases hbit : faultBit cause with
  | none => simp only [if_pos h]
  | some b =>
    have h' : (s.faultSet b).isl.queue.length < 8 := h
    simp only [if_pos h']
    rfl

/-- A record leaves every island state but the queue and the alert line. -/
theorem pushFault_isl {s : State} (cause block event fn detail : Nat) (h : s.isl.queue.length < 8) :
    (s.pushFault cause block event fn detail).isl =
      { s.isl with queue := (s.pushFault cause block event fn detail).isl.queue, alert := (s.pushFault cause block event fn detail).isl.alert } := by
  unfold State.pushFault
  cases hbit : faultBit cause with
  | none => simp only [if_pos h]
  | some b =>
    have h' : (s.faultSet b).isl.queue.length < 8 := h
    simp only [if_pos h']
    rfl

/-- Its BIN_FAULT bit aside, a record leaves the log's entries. -/
theorem pushFault_log {s : State} (cause block event fn detail : Nat) (h : s.isl.queue.length < 8) :
    (s.pushFault cause block event fn detail).log.ring = s.log.ring ∧ (s.pushFault cause block event fn detail).log.head = s.log.head := by
  unfold State.pushFault
  cases hbit : faultBit cause with
  | none => simp only [if_pos h, and_self]
  | some b =>
    have h' : (s.faultSet b).isl.queue.length < 8 := h
    simp only [if_pos h']
    exact ⟨rfl, rfl⟩

/-! ## BIN_STATUS -/

theorem on_setF_one (s : State) {x : Fld} (h : x.hi < 32) (hw : x.hi = x.lo) : (s.setF x 1).on x = true := by
  rw [State.on, f_setF_same s x 1 h, hw, Nat.add_sub_cancel_left]
  rfl

theorem on_setF_zero (s : State) {x : Fld} (h : x.hi < 32) (hw : x.hi = x.lo) : (s.setF x 0).on x = false := by
  rw [State.on, f_setF_same s x 0 h, hw, Nat.add_sub_cancel_left]
  rfl

/-- Bits of BIN_STATUS that differ do not touch. -/
theorem on_setF_status (s : State) {i j : Nat} (v : Nat) (hij : i ≠ j) (hj : j < 32) :
    (s.setF ⟨R.BIN_STATUS, i, i⟩ v).on ⟨R.BIN_STATUS, j, j⟩ = s.on ⟨R.BIN_STATUS, j, j⟩ := by
  rw [State.on, State.on, f_setF_bits s (x := ⟨R.BIN_STATUS, i, i⟩) (y := ⟨R.BIN_STATUS, j, j⟩) v rfl (Nat.le_refl i) hj (Nat.lt_or_gt_of_ne hij)]

theorem mute_muted (s : State) (hold : Bool) : (s.mute hold).on F.BIN_STATUS_MUTED = true := by
  have hsoft : (if s.on F.BIN_STATUS_MUTED then s else (s.setF F.BIN_STATUS_MUTED 1).raise 0x0103 0).on F.BIN_STATUS_MUTED = true := by
    split
    case isTrue h => exact h
    case isFalse => exact on_setF_one s (x := F.BIN_STATUS_MUTED) (by decide) rfl
  unfold State.mute
  cases hold
  case false => exact hsoft
  case true => exact (on_setF_status _ 1 (by decide) (by decide)).trans hsoft

theorem mute_hold (s : State) : (s.mute true).on F.BIN_STATUS_MUTE_HOLD = true :=
  on_setF_one _ (x := F.BIN_STATUS_MUTE_HOLD) (by decide) rfl

theorem mute_of_unmuted {s : State} (h : s.on F.BIN_STATUS_MUTED = false) : s.mute false = (s.setF F.BIN_STATUS_MUTED 1).raise 0x0103 0 := by
  simp [State.mute, h]

theorem mute_evNow (s : State) (hold : Bool) : (s.mute hold).evNow = s.evNow ++ (if s.on F.BIN_STATUS_MUTED then [] else [⟨0x0103, 0⟩]) := by
  cases hold <;> cases h : s.on F.BIN_STATUS_MUTED <;> simp [State.mute, h, State.raise]

theorem driveHelm_evNow (s : State) (hi : Bool) : (s.driveHelm hi).evNow = s.evNow := by
  unfold State.driveHelm
  split <;> rfl

theorem driveHelm_out (s : State) (hi : Bool) : ∃ l, (s.driveHelm hi).out = s.out ++ l := by
  unfold State.driveHelm
  split
  · exact ⟨[], (List.append_nil _).symm⟩
  · exact ⟨[.helmOut hi], rfl⟩

theorem driveHelm_helm (s : State) (hi : Bool) : (s.driveHelm hi).on F.BIN_STATUS_HELM_OUT = hi := by
  unfold State.driveHelm
  split
  case isTrue h => exact h
  case isFalse =>
    refine (on_setF_addr (s.setF F.BIN_STATUS_HELM_OUT (if hi then 1 else 0)) (x := F.TWN_STATUS_HELM_OUT) _ (by decide)).trans ?_
    cases hi
    · exact on_setF_zero s (x := F.BIN_STATUS_HELM_OUT) (by decide) rfl
    · exact on_setF_one s (x := F.BIN_STATUS_HELM_OUT) (by decide) rfl

/-- HELM_OUT apart, the drive of HELM_OUT leaves BIN_STATUS. -/
theorem on_driveHelm (s : State) (hi : Bool) {j : Nat} (hj : j ≠ 2) (h32 : j < 32) :
    (s.driveHelm hi).on ⟨R.BIN_STATUS, j, j⟩ = s.on ⟨R.BIN_STATUS, j, j⟩ := by
  unfold State.driveHelm
  split
  · rfl
  · exact (on_setF_addr (s.setF F.BIN_STATUS_HELM_OUT (if hi then 1 else 0)) (x := F.TWN_STATUS_HELM_OUT) _ (show R.BIN_STATUS ≠ R.TWN_STATUS by decide)).trans
      (on_setF_status s _ hj.symm h32)

theorem driveHelm_low {s : State} (h : s.on F.BIN_STATUS_HELM_OUT = true) :
    s.driveHelm false = ((s.setF F.BIN_STATUS_HELM_OUT 0).setF F.TWN_STATUS_HELM_OUT 0).emit (.helmOut false) := by
  simp [State.driveHelm, h]

theorem on_pushFault {s : State} (cause block event fn detail : Nat) (h : s.isl.queue.length < 8) {y : Fld} (hy : y.addr ≠ R.BIN_FAULT) :
    (s.pushFault cause block event fn detail).on y = s.on y :=
  (frame_pushFault cause block event fn detail h).on_eq (by simpa using hy)

/-! ## Giving up control -/

section
variable {s : State} (cause block event detail : Nat) (h : s.isl.queue.length < 8)
include h

theorem giveUp_queue : (s.giveUp cause block event detail).isl.queue.map FaultRec.brief = s.isl.queue.map FaultRec.brief ++ [(cause, detail)] := by
  have hroom : (s.mute true).isl.queue.length < 8 := by rwa [mute_isl]
  have hdrive : (s.giveUp cause block event detail).isl = ((s.mute true).pushFault cause block event 0x7F detail).isl :=
    (frame_driveHelm ((s.mute true).pushFault cause block event 0x7F detail) false).part (p := .isl) (by decide)
  rw [hdrive, pushFault_queue cause block event 0x7F detail hroom, mute_isl]

theorem giveUp_isl : (s.giveUp cause block event detail).isl =
    { s.isl with queue := (s.giveUp cause block event detail).isl.queue, alert := (s.giveUp cause block event detail).isl.alert } := by
  have hroom : (s.mute true).isl.queue.length < 8 := by rwa [mute_isl]
  have hdrive : (s.giveUp cause block event detail).isl = ((s.mute true).pushFault cause block event 0x7F detail).isl :=
    (frame_driveHelm ((s.mute true).pushFault cause block event 0x7F detail) false).part (p := .isl) (by decide)
  rw [hdrive]
  exact (pushFault_isl cause block event 0x7F detail hroom).trans (by rw [mute_isl])

theorem giveUp_log : (s.giveUp cause block event detail).log.ring = s.log.ring ∧ (s.giveUp cause block event detail).log.head = s.log.head := by
  have hroom : (s.mute true).isl.queue.length < 8 := by rwa [mute_isl]
  have hdrive : (s.giveUp cause block event detail).log = ((s.mute true).pushFault cause block event 0x7F detail).log :=
    (frame_driveHelm ((s.mute true).pushFault cause block event 0x7F detail) false).part (p := .log) (by decide)
  have hmute : (s.mute true).log = s.log := (frame_mute s true).part (p := .log) (by decide)
  rw [hdrive, ← hmute]
  exact pushFault_log cause block event 0x7F detail hroom

theorem giveUp_evNow : (s.giveUp cause block event detail).evNow =
    s.evNow ++ (if s.on F.BIN_STATUS_MUTED then [] else [⟨0x0103, 0⟩]) ++ [⟨0x0102, 0⟩] := by
  have hroom : (s.mute true).isl.queue.length < 8 := by rwa [mute_isl]
  have hdrive : (((s.mute true).pushFault cause block event 0x7F detail).driveHelm false).evNow = (s.mute true).evNow :=
    (driveHelm_evNow _ _).trans (pushFault_evNow cause block event 0x7F detail hroom)
  rw [← mute_evNow s true, ← hdrive]
  rfl

theorem giveUp_bit {b : Nat} (hbit : faultBit cause = some b) (hb : b < 32) : bitsOf ((s.giveUp cause block event detail).rdn R.BIN_FAULT) b b = 1 := by
  have hroom : (s.mute true).isl.queue.length < 8 := by rwa [mute_isl]
  have hword : (s.giveUp cause block event detail).rdn R.BIN_FAULT = ((s.mute true).pushFault cause block event 0x7F detail).rdn R.BIN_FAULT :=
    congrArg BitVec.toNat (((frame_driveHelm _ false).trans (frame_setF _ F.BIN_STATUS_GIVEN_UP 1)).1 _ (by decide))
  rw [hword]
  exact pushFault_bit block event 0x7F detail hroom hbit hb

theorem giveUp_muted : (s.giveUp cause block event detail).on F.BIN_STATUS_MUTED = true := by
  have hroom : (s.mute true).isl.queue.length < 8 := by rwa [mute_isl]
  rw [State.giveUp, on_raise, on_setF_status _ _ (by decide) (by decide), on_driveHelm _ _ (by decide) (by decide),
    on_pushFault _ _ _ _ _ hroom (by decide), mute_muted]

theorem giveUp_hold : (s.giveUp cause block event detail).on F.BIN_STATUS_MUTE_HOLD = true := by
  have hroom : (s.mute true).isl.queue.length < 8 := by rwa [mute_isl]
  rw [State.giveUp, on_raise, on_setF_status _ _ (by decide) (by decide), on_driveHelm _ _ (by decide) (by decide),
    on_pushFault _ _ _ _ _ hroom (by decide), mute_hold]

omit h in
theorem giveUp_helm : (s.giveUp cause block event detail).on F.BIN_STATUS_HELM_OUT = false := by
  rw [State.giveUp, on_raise, on_setF_status _ _ (by decide) (by decide), driveHelm_helm]

omit h in
theorem giveUp_givenUp : (s.giveUp cause block event detail).on F.BIN_STATUS_GIVEN_UP = true :=
  on_setF_one _ (x := F.BIN_STATUS_GIVEN_UP) (by decide) rfl

/-- Giving up control leaves the shutdown bit. -/
theorem giveUp_shutdown : (s.giveUp cause block event detail).on F.BIN_STATUS_SHUTDOWN = s.on F.BIN_STATUS_SHUTDOWN := by
  have hroom : (s.mute true).isl.queue.length < 8 := by rwa [mute_isl]
  rw [State.giveUp, on_raise, on_setF_status _ _ (by decide) (by decide), on_driveHelm _ _ (by decide) (by decide),
    on_pushFault _ _ _ _ _ hroom (by decide)]
  unfold State.mute
  rw [if_pos rfl, on_setF_status _ _ (by decide) (by decide)]
  split
  · rfl
  · rw [on_raise, on_setF_status _ _ (by decide) (by decide)]

/-- A cause without a BIN_FAULT bit leaves BIN_FAULT. -/
theorem giveUp_fault (hbit : faultBit cause = none) : (s.giveUp cause block event detail).rd R.BIN_FAULT = s.rd R.BIN_FAULT := by
  have hroom : (s.mute true).isl.queue.length < 8 := by rwa [mute_isl]
  have hrecord : ((s.mute true).pushFault cause block event 0x7F detail).rd R.BIN_FAULT = (s.mute true).rd R.BIN_FAULT := by
    unfold State.pushFault
    simp only [hbit, if_pos hroom]
    rfl
  have hdrive : (s.giveUp cause block event detail).rd R.BIN_FAULT = ((s.mute true).pushFault cause block event 0x7F detail).rd R.BIN_FAULT :=
    ((frame_driveHelm _ false).trans (frame_setF _ F.BIN_STATUS_GIVEN_UP 1)).1 _ (by decide)
  exact hdrive.trans (hrecord.trans ((frame_mute s true).1 _ (by decide)))

/-- What giving up control gives out is at most HELM_OUT. -/
theorem giveUp_out : ∃ l, (s.giveUp cause block event detail).out = s.out ++ l := by
  have hroom : (s.mute true).isl.queue.length < 8 := by rwa [mute_isl]
  have hmute : (s.mute true).out = s.out := (frame_mute s true).part (p := .out) (by decide)
  have hrecord : ((s.mute true).pushFault cause block event 0x7F detail).out = s.out :=
    ((frame_pushFault cause block event 0x7F detail hroom).part (p := .out) (by decide)).trans hmute
  obtain ⟨l, hl⟩ := driveHelm_out ((s.mute true).pushFault cause block event 0x7F detail) false
  exact ⟨l, hl.trans (by rw [hrecord])⟩

end

end Sys2Proof.Machine
end

section
/-!
SUPPORT. What a reset of the core (R356, R357, R394) and a shutdown (R398) leave of the state before them.
-/

namespace Sys2Proof.Machine

theorem Tab.get_filter_key {α : Type} (d : Nat → α) (t : Tab α) (p : Nat → Bool) (a : Nat) :
    Tab.get d (t.filter (fun e => p e.1)) a = if p a = true then Tab.get d t a else d a := by
  induction t with
  | nil => simp [Tab.get]
  | cons e r ih =>
    by_cases hkey : e.1 = a
    · subst hkey
      cases hp : p e.1 with
      | true => simp [List.filter, hp, Tab.get]
      | false => simpa [List.filter, hp] using ih
    · cases hp : p e.1 with
      | true => simpa [List.filter, hp, Tab.get, hkey] using ih
      | false => simpa [List.filter, hp, Tab.get, hkey] using ih

/-! ## The core is lost -/

theorem rd_coreReset (s : State) (warm : Bool) (a : Nat) : (s.coreReset warm).rd a = if islandKept a = true then s.rd a else resetOf a :=
  Tab.get_filter_key _ _ _ _

theorem fn_coreReset (s : State) (warm : Bool) (f : Nat) : (s.coreReset warm).fn f = .off := rfl

/-- What every loss of the core keeps of the state before it, and the island's registers apart, that nothing else is left. -/
structure CoreLost (s : State) (warm : Bool) (t : State) : Prop where
  fns : ∀ f, t.fn f = .off
  stage : t.cfg.stage = 0
  mem : t.hbm.mem = if warm then s.hbm.mem else []
  souv : t.souv = s.souv
  keys : t.keys = s.keys
  flash : t.flash = s.flash
  pending : t.pending = s.pending
  run : t.clk.run = false

theorem coreReset_lost (s : State) (warm : Bool) : CoreLost s warm (s.coreReset warm) := ⟨fun _ => rfl, rfl, rfl, rfl, rfl, rfl, rfl, rfl⟩

/-- An operation that left memory, stores, keys and queue alone may come before. -/
theorem CoreLost.of_frame {regs fns : List Nat} {parts : List Part} {s v t : State} {warm : Bool} (h : CoreLost v warm t) (hframe : Frame regs fns parts s v)
    (hparts : parts ⊆ [.isl, .log, .out, .clk, .pins, .sx]) : CoreLost s warm t := by
  obtain ⟨hfns, hstage, hmem, hsouv, hkeys, hflash, hpending, hrun⟩ := h
  have hkept (p : Part) (hp : p ∉ [Part.isl, .log, .out, .clk, .pins, .sx]) : p.kept s v := hframe.part (fun hmem => hp (hparts hmem))
  have hhbm : v.hbm = s.hbm := hkept .hbm (by decide)
  refine ⟨hfns, hstage, hhbm ▸ hmem, hsouv.trans (hkept .souv (by decide)), hkeys.trans hframe.2.2.2.1, hflash.trans (hkept .flash (by decide)),
    hpending.trans hframe.2.2.1, hrun⟩

/-! ## A reset takes effect -/

/-- A module whose core a reset of a kind and source has lost at a time, its island as it was before but for BIN_STATUS and BIN_FAULT (R394). -/
structure ResetFrom (s : State) (kind source since : Nat) (t : State) : Prop extends CoreLost s (kind == 2) t where
  core : ∀ a, islandKept a = false → a ≠ R.GLB_RESET_CAUSE → t.rd a = resetOf a
  island : ∀ a, islandKept a = true → a ∉ [R.BIN_STATUS, R.BIN_FAULT] → t.rd a = s.rd a
  cause : t.rdn R.GLB_RESET_CAUSE = kind + 4 * source
  reset : t.cfg.reset = some { kind := kind, source := source, since := since }
  ns : t.clk.ns = since
  givenUp : t.on F.BIN_STATUS_GIVEN_UP = false

theorem ResetFrom.finish {s t : State} {kind source since : Nat} (h : ResetFrom s kind source since t) : ResetFrom s kind source since t.finish :=
  ⟨⟨h.fns, h.stage, h.mem, h.souv, h.keys, h.flash, h.pending, h.run⟩, h.core, h.island, h.cause, h.reset, h.ns, h.givenUp⟩

theorem rd_resetNow (s : State) (kind source : Nat) {a : Nat} (hs : a ≠ R.BIN_STATUS) (hc : a ≠ R.GLB_RESET_CAUSE) :
    (s.resetNow kind source).rd a = if islandKept a = true then s.rd a else resetOf a := by
  have hregs : (s.resetNow kind source).rd a = (((s.coreReset (kind == 2)).setF F.BIN_STATUS_GIVEN_UP 0).wrn R.GLB_RESET_CAUSE (kind + 4 * source)).rd a := rfl
  rw [hregs, rd_wrn_ne _ _ hc, rd_setF_ne _ _ hs, rd_coreReset]

/-- The bits of BIN_STATUS that a reset leaves: all but GIVEN_UP. -/
theorem on_resetNow (s : State) (kind source : Nat) {j : Nat} (hj : j ≠ 3) (h32 : j < 32) :
    (s.resetNow kind source).on ⟨R.BIN_STATUS, j, j⟩ = s.on ⟨R.BIN_STATUS, j, j⟩ := by
  have hregs : (s.resetNow kind source).on ⟨R.BIN_STATUS, j, j⟩ =
      (((s.coreReset (kind == 2)).setF F.BIN_STATUS_GIVEN_UP 0).wrn R.GLB_RESET_CAUSE (kind + 4 * source)).on ⟨R.BIN_STATUS, j, j⟩ := rfl
  have hword : (s.coreReset (kind == 2)).rd R.BIN_STATUS = s.rd R.BIN_STATUS := rd_coreReset _ _ _
  rw [hregs, on_wrn_ne _ _ (show R.BIN_STATUS ≠ R.GLB_RESET_CAUSE by decide), on_setF_status _ _ hj.symm h32, State.on, State.on, State.f, State.f,
    State.rdn, State.rdn, hword]

/-- A reset after an operation that left the core's memory and the island's other registers alone. -/
theorem resetNow_from {regs fns : List Nat} {parts : List Part} {s v : State} {kind source : Nat} (hframe : Frame regs fns parts s v)
    (hparts : parts ⊆ [.isl, .log, .out, .clk, .pins, .sx]) (hregs : ∀ a ∈ regs, islandKept a = true → a ∈ [R.BIN_STATUS, R.BIN_FAULT])
    (hword : kind + 4 * source < 2 ^ 32) : ResetFrom s kind source v.clk.ns (v.resetNow kind source) := by
  have hlost : CoreLost v (kind == 2) (v.resetNow kind source) := ⟨fun _ => rfl, rfl, rfl, rfl, rfl, rfl, rfl, rfl⟩
  refine ⟨hlost.of_frame hframe hparts, fun a hkept hcause => ?_, fun a hkept hin => ?_, ?_, rfl, rfl, ?_⟩
  · have hstatus : a ≠ R.BIN_STATUS := fun h => absurd (h ▸ hkept) (by decide)
    rw [rd_resetNow v kind source hstatus hcause, hkept, if_neg Bool.false_ne_true]
  · have hstatus : a ≠ R.BIN_STATUS := fun h => hin (h ▸ List.mem_cons_self)
    have hcause : a ≠ R.GLB_RESET_CAUSE := fun h => absurd (h ▸ hkept) (by decide)
    rw [rd_resetNow v kind source hstatus hcause, if_pos hkept, hframe.1 a (fun hmem => hin (hregs a hmem hkept))]
  · have hcell : (v.resetNow kind source).rdn R.GLB_RESET_CAUSE = (kind + 4 * source) % 2 ^ 32 := rdn_wrn_same _ _ _
    rw [hcell, Nat.mod_eq_of_lt hword]
  · have hbit : (v.resetNow kind source).on F.BIN_STATUS_GIVEN_UP =
        (((v.coreReset (kind == 2)).setF F.BIN_STATUS_GIVEN_UP 0).wrn R.GLB_RESET_CAUSE (kind + 4 * source)).on F.BIN_STATUS_GIVEN_UP := rfl
    rw [hbit, on_wrn_ne _ _ (show R.BIN_STATUS ≠ R.GLB_RESET_CAUSE by decide)]
    exact on_setF_zero _ (x := F.BIN_STATUS_GIVEN_UP) (by decide) rfl

/-! ## A trigger -/

/-- A module that is muted on hold, with HELM_OUT low. -/
structure Silenced (t : State) : Prop where
  muted : t.on F.BIN_STATUS_MUTED = true
  hold : t.on F.BIN_STATUS_MUTE_HOLD = true
  helm : t.on F.BIN_STATUS_HELM_OUT = false

section
variable {v : State} {kind source : Nat} (hshut : v.on F.BIN_STATUS_SHUTDOWN = false) (hreset : v.cfg.reset = none) (hroom : v.isl.queue.length < 8)
  (hstack : kind = 2 → v.anyStack = false)
include hshut hreset hroom hstack

/-- With no reset in progress and no stack to wait for, a trigger gives up control and resets. -/
theorem resetTrigger_now : v.resetTrigger kind source = (v.giveUp 11 0xFF 0 (kind + 4 * source)).resetNow kind source := by
  have hframe := frame_giveUp 11 0xFF 0 (kind + 4 * source) hroom
  have hcfg : (v.giveUp 11 0xFF 0 (kind + 4 * source)).cfg.reset = none := (congrArg CfgSt.reset (hframe.part (p := .cfg) (by decide))).trans hreset
  have hfns : (v.giveUp 11 0xFF 0 (kind + 4 * source)).anyStack = v.anyStack := by
    simp only [State.anyStack, State.ready, hframe.2.1 _ List.not_mem_nil]
  have hwait : ¬ (kind = 2 ∧ (v.giveUp 11 0xFF 0 (kind + 4 * source)).anyStack = true ∧ (v.giveUp 11 0xFF 0 (kind + 4 * source)).cfg.stage ≠ 0) := by
    rintro ⟨hkind, hany, -⟩
    rw [hfns, hstack hkind] at hany
    exact Bool.false_ne_true hany
  unfold State.resetTrigger
  simp only [giveUp_shutdown 11 0xFF 0 (kind + 4 * source) hroom, hshut, hcfg, if_neg hwait, Bool.false_eq_true, if_false]

/-- What a trigger leaves: the reset, the module silenced, a record of cause 11. -/
theorem resetTrigger_from {regs fns : List Nat} {parts : List Part} {s : State} (hframe : Frame regs fns parts s v)
    (hparts : parts ⊆ [.isl, .log, .out, .clk, .pins, .sx]) (hregs : ∀ a ∈ regs, islandKept a = true → a ∈ [R.BIN_STATUS, R.BIN_FAULT])
    (hword : kind + 4 * source < 2 ^ 32) : ResetFrom s kind source v.clk.ns (v.resetTrigger kind source) ∧ Silenced (v.resetTrigger kind source) ∧
      (v.resetTrigger kind source).isl.queue.map FaultRec.brief = v.isl.queue.map FaultRec.brief ++ [(11, kind + 4 * source)] := by
  rw [resetTrigger_now hshut hreset hroom hstack]
  have hgive := frame_giveUp 11 0xFF 0 (kind + 4 * source) hroom
  have hns : (v.giveUp 11 0xFF 0 (kind + 4 * source)).clk.ns = v.clk.ns := congrArg Clock.ns (hgive.part (p := .clk) (by decide))
  refine ⟨?_, ⟨?_, ?_, ?_⟩, giveUp_queue 11 0xFF 0 _ hroom⟩
  · rw [← hns]
    refine resetNow_from (hframe.trans hgive) ?_ ?_ hword
    · exact List.append_subset.mpr ⟨hparts, by decide⟩
    · intro a ha hkept
      rcases List.mem_append.mp ha with h | h
      · exact hregs a h hkept
      · simp only [List.mem_cons, List.not_mem_nil, or_false] at h ⊢
        rcases h with rfl | rfl | rfl
        · exact .inl rfl
        · exact .inr rfl
        · exact absurd hkept (by decide)
  · rw [on_resetNow _ _ _ (by decide) (by decide), giveUp_muted _ _ _ _ hroom]
  · rw [on_resetNow _ _ _ (by decide) (by decide), giveUp_hold _ _ _ _ hroom]
  · rw [on_resetNow _ _ _ (by decide) (by decide), giveUp_helm]

theorem resetTrigger_pins : (v.resetTrigger kind source).pins = v.pins := by
  rw [resetTrigger_now hshut hreset hroom hstack]
  exact (frame_giveUp 11 0xFF 0 (kind + 4 * source) hroom).part (p := .pins) (by decide)

/-- A trigger gives out at most HELM_OUT. -/
theorem resetTrigger_out : ∃ l, (v.resetTrigger kind source).out = v.out ++ l := by
  rw [resetTrigger_now hshut hreset hroom hstack]
  exact giveUp_out 11 0xFF 0 _ hroom

/-- A trigger leaves the island state but for the queue, the alert line and the watchdog. -/
theorem resetTrigger_isl : ∃ q a, (v.resetTrigger kind source).isl = { v.isl with queue := q, alert := a, wdogAt := none } := by
  rw [resetTrigger_now hshut hreset hroom hstack]
  have hisl : ((v.giveUp 11 0xFF 0 (kind + 4 * source)).resetNow kind source).isl = { (v.giveUp 11 0xFF 0 (kind + 4 * source)).isl with wdogAt := none } := rfl
  refine ⟨(v.giveUp 11 0xFF 0 (kind + 4 * source)).isl.queue, (v.giveUp 11 0xFF 0 (kind + 4 * source)).isl.alert, hisl.trans ?_⟩
  rw [giveUp_isl 11 0xFF 0 _ hroom]

/-- A record of cause 11 has no BIN_FAULT bit of its own. -/
theorem resetTrigger_fault : (v.resetTrigger kind source).rd R.BIN_FAULT = v.rd R.BIN_FAULT := by
  rw [resetTrigger_now hshut hreset hroom hstack, rd_resetNow _ _ _ (by decide) (by decide), if_pos (by decide)]
  exact giveUp_fault 11 0xFF 0 _ hroom rfl

/-- A trigger leaves a module that is not in shutdown. -/
theorem resetTrigger_shutdown : (v.resetTrigger kind source).on F.BIN_STATUS_SHUTDOWN = false := by
  rw [resetTrigger_now hshut hreset hroom hstack, on_resetNow _ _ _ (by decide) (by decide), giveUp_shutdown _ _ _ _ hroom, hshut]

end

end Sys2Proof.Machine
end

section
/-!
PROOFS. Why the third failure of an HBM stack's training need not leave the calibration alone (R315, R346): the Sightings of a stack that goes to FAULT are
abandoned.
-/

namespace Sys2Proof.Machine

/-- Stack 0 is STARTING and its training has failed twice. A Sighting of its pseudo-channel 0 is pending. -/
def trainingWithSighting : State :=
  { State.reset with
    fns := [(fnHbm 0, .starting)]
    hbm := { State.reset.hbm with stks := [(0, { fails := 2 })] }
    cal := { State.reset.cal with sights := [(256, some {})] } }

theorem trainingWithSighting_conditions : trainingWithSighting.fn (fnHbm 0) = .starting ∧ (trainingWithSighting.stk 0).fails = 2 ∧
    trainingWithSighting.isl.queue.length < 8 := by decide +kernel

/-- The state in which the training has failed a third time. -/
def trainingWithSightingEnd : State := trainingWithSighting.begin.hbmTrained 0 false 0 0

/-- The Sighting is abandoned there. -/
theorem trainingWithSightingEnd_abandons : trainingWithSightingEnd.finish.sight 1 0 = none := by decide +kernel

theorem trainingWithSightingEnd_keeps : trainingWithSightingEnd.pending = trainingWithSighting.pending ∧
    trainingWithSightingEnd.keys = trainingWithSighting.keys := by
  decide +kernel

theorem trainingWithSighting_completes : Completes (.hbmTrainingComplete 0 false 0 0) trainingWithSighting fun t => t.sight 1 0 = none :=
  run_of (op := (·.hbmTrained 0 false 0 0)) (u := trainingWithSightingEnd) rfl trainingWithSightingEnd_keeps.1 trainingWithSightingEnd_keeps.2
    trainingWithSightingEnd_abandons

/-- Refutes O16 by its clause of HBM_TRAINING_COMPLETE that fails a third time: the clause lets no Sighting change, but those of the stack are abandoned. -/
theorem not_memoryStackCommandsComplete : ¬ Obligations.MemoryStackCommandsComplete := by
  unfold Obligations.MemoryStackCommandsComplete
  rintro ⟨-, -, -, hFault, -⟩
  obtain ⟨hstarting, hfails, hqueue⟩ := trainingWithSighting_conditions
  obtain ⟨t, ht, -, -, -, -, -, -, -, -, -, -, hparts⟩ := hFault trainingWithSighting 0 0 (by decide) hstarting hfails hqueue
  obtain ⟨u, hu, habandons⟩ := trainingWithSighting_completes
  obtain rfl : t = u := Host.Outcome.next.inj (ht.symm.trans hu)
  have hcal : t.cal = trainingWithSighting.cal := hparts .cal (by decide)
  rw [State.sight, hcal] at habandons
  exact absurd habandons (by decide)

end Sys2Proof.Machine
end

section
/-!
PROOFS. Why the end of a claim need not leave the composition alone (R240, R246): the module that becomes Helm applies the flips of its own that it kept as
Lookout.
-/

namespace Sys2Proof.Machine

/-- A module in CLAIM for the twinned channel 0. Its composition channel keeps one own flip evaluation that is not yet applied. -/
def claimWithOwnFlip : State :=
  { State.reset with
    regs := [(R.TWN_STATUS, 3), (R.TWN_CH_MASK, 1)]
    fns := [(fnComp 0, .ready)]
    comp := { State.reset.comp with chs := [(0, { evals := [{ v := 0 }] })] }
    twn := { State.reset.twn with claim := some (0, 0) } }

theorem claimWithOwnFlip_conditions : claimWithOwnFlip.role = 3 ∧ claimWithOwnFlip.twn.takeover = false ∧
    (List.range 32).all (fun c => (claimWithOwnFlip.tch c).hold.isEmpty) = true := by decide +kernel

/-- The state in which the role is HELM. -/
def claimWithOwnFlipEnd : State := claimWithOwnFlip.begin.claimComplete

/-- The evaluation is applied there. -/
theorem claimWithOwnFlipEnd_applied : (claimWithOwnFlipEnd.finish.cmp 0).evals.map (·.done) = [true] := by decide +kernel

theorem claimWithOwnFlipEnd_keeps : claimWithOwnFlipEnd.pending = claimWithOwnFlip.pending ∧ claimWithOwnFlipEnd.keys = claimWithOwnFlip.keys := by
  decide +kernel

theorem claimWithOwnFlip_completes : Completes .claimComplete claimWithOwnFlip fun t => (t.cmp 0).evals.map (·.done) = [true] :=
  run_of (op := (·.claimComplete)) (u := claimWithOwnFlipEnd) rfl claimWithOwnFlipEnd_keeps.1 claimWithOwnFlipEnd_keeps.2 claimWithOwnFlipEnd_applied

/-- Refutes O25 by its clause of CLAIM_COMPLETE: the clause lets no part of the composition change, but the module that becomes Helm applies the own flip
evaluations that it kept. -/
theorem not_twinRoleCommandsComplete : ¬ Obligations.TwinRoleCommandsComplete := by
  unfold Obligations.TwinRoleCommandsComplete
  rintro ⟨-, -, -, hClaim, -⟩
  obtain ⟨hrole, htakeover, hheld⟩ := claimWithOwnFlip_conditions
  obtain ⟨t, ht, -, -, -, -, -, -, -, -, -, -, hparts⟩ := hClaim claimWithOwnFlip 0 0 rfl hrole htakeover hheld
  obtain ⟨u, hu, happlied⟩ := claimWithOwnFlip_completes
  obtain rfl : t = u := Host.Outcome.next.inj (ht.symm.trans hu)
  have hcomp : t.comp = claimWithOwnFlip.comp := hparts .comp (by decide)
  rw [State.cmp, hcomp] at happlied
  exact absurd happlied (by decide)

end Sys2Proof.Machine
end

section
/-!
SUPPORT. Command registers, whose fields are all write-only (R4): the word that reaches the unit's rule is the word written.
-/

namespace Sys2Proof.Machine

/-- The word written to write-only fields does not depend on what the register holds. -/
theorem mergeWord_wo {fs : List FieldDef} (h : fs.all (fun x => x.acc == .wo && x.rng == .any) = true) (act : Bool) (old new : Nat) :
    mergeWord act fs old new = mergeWord act fs 0 new := by
  unfold mergeWord
  refine List.foldl_ext _ _ _ fun t x hx => ?_
  have hwo := (Bool.and_eq_true_iff.mp (List.all_eq_true.mp h x hx)).1
  simp only [fieldNew, beq_iff_eq.mp hwo]

/-- A command register written with a word that spells its fields alone. -/
theorem regWrite_command {s t : State} {path : BusPath} {a : Nat} {v : Word} {d : RegDef} (hd : regDef a = some d)
    (hfs : d.fields.all (fun x => x.acc == .wo && x.rng == .any) = true) (hw : wideOf wideWrites a = none) (hn : latInput a = false)
    (hv : mergeWord true d.fields 0 v.toNat = v.toNat) (hu : s.unitReg path a v v = some t) : s.regWrite path a v = t := by
  have hmem (x : FieldDef) (hx : x ∈ d.fields) : x.acc = .wo ∧ x.rng = .any := by
    have h := Bool.and_eq_true_iff.mp (List.all_eq_true.mp hfs x hx)
    exact ⟨beq_iff_eq.mp h.1, beq_iff_eq.mp h.2⟩
  have hlock : d.fields.any (fun x => x.acc == .rwl) = false := by
    rw [List.any_eq_false]
    intro x hx
    simp [(hmem x hx).1]
  have hok : fieldsOk d.fields (s.oldWord path a) v.toNat = true := by
    refine fieldsOk_any (List.all_eq_true.mpr fun x hx => ?_) _ _
    simp [(hmem x hx).2]
  refine regWrite_unit hd hlock hok hw hn ?_
  rw [mergeWord_wo hfs, hv, BitVec.ofNat_toNat, BitVec.setWidth_eq]
  exact hu

/-- The same, by a host's path. -/
theorem busWrite_command {s t : State} {path : BusPath} {a : Nat} {v : Word} {d : RegDef} (hp : path ≠ .service) (hk : s.dark = false) (ha : a % 4 = 0)
    (hlt : a < 0x1A0000) (hd : regDef a = some d) (hfs : d.fields.all (fun x => x.acc == .wo && x.rng == .any) = true) (hw : wideOf wideWrites a = none)
    (hn : latInput a = false) (hv : mergeWord true d.fields 0 v.toNat = v.toNat) (hu : s.unitReg path a v v = some t) : s.busWrite path a v 4 = t :=
  (busWrite_reg v hp hk ha hlt).trans (regWrite_command hd hfs hw hn hv hu)

end Sys2Proof.Machine
end

section
/-!
SUPPORT. What giving up control (R250), the end of a mute (R397) and a shutdown (R398) leave as a whole, and the actions of BIN_CMD (R423).
-/

namespace Sys2Proof.Machine

/-! ## Giving up control from an unmuted module that drives HELM_OUT -/

/-- Mute and MUTE_HOLD apart, a mute leaves BIN_STATUS. -/
theorem on_mute (s : State) (hold : Bool) {j : Nat} (h0 : 0 ≠ j) (h1 : 1 ≠ j) (h32 : j < 32) :
    (s.mute hold).on ⟨R.BIN_STATUS, j, j⟩ = s.on ⟨R.BIN_STATUS, j, j⟩ := by
  have hsoft : (if s.on F.BIN_STATUS_MUTED then s else (s.setF F.BIN_STATUS_MUTED 1).raise 0x0103 0).on ⟨R.BIN_STATUS, j, j⟩ = s.on ⟨R.BIN_STATUS, j, j⟩ := by
    split
    · rfl
    · rw [on_raise, on_setF_status _ _ h0 h32]
  unfold State.mute
  cases hold
  case false => exact hsoft
  case true => exact (on_setF_status _ _ h1 h32).trans hsoft

/-- A module that has given up control, with a record of this cause and DETAIL. -/
structure GaveUp (s : State) (cause detail : Nat) (t : State) : Prop where
  muted : t.on F.BIN_STATUS_MUTED = true
  hold : t.on F.BIN_STATUS_MUTE_HOLD = true
  helm : t.on F.BIN_STATUS_HELM_OUT = false
  twin : t.on F.TWN_STATUS_HELM_OUT = false
  givenUp : t.on F.BIN_STATUS_GIVEN_UP = true
  queue : t.isl.queue.map FaultRec.brief = s.isl.queue.map FaultRec.brief ++ [(cause, detail)]
  evNow : t.evNow = s.evNow ++ [⟨0x0103, 0⟩, ⟨0x0102, 0⟩]
  out : t.out = s.out ++ [.helmOut false]
  log : t.log.ring = s.log.ring ∧ t.log.head = s.log.head

theorem giveUp_gaveUp {s : State} (cause block event detail : Nat) (h : s.isl.queue.length < 8) (hmuted : s.on F.BIN_STATUS_MUTED = false)
    (hhelm : s.on F.BIN_STATUS_HELM_OUT = true) : GaveUp s cause detail (s.giveUp cause block event detail) := by
  have hroom : (s.mute true).isl.queue.length < 8 := by rwa [mute_isl]
  have hhigh : ((s.mute true).pushFault cause block event 0x7F detail).on F.BIN_STATUS_HELM_OUT = true := by
    rw [on_pushFault _ _ _ _ _ hroom (by decide), on_mute _ _ (by decide) (by decide) (by decide), hhelm]
  have hout : ((s.mute true).pushFault cause block event 0x7F detail).out = s.out :=
    ((frame_pushFault cause block event 0x7F detail hroom).part (p := .out) (by decide)).trans ((frame_mute s true).part (p := .out) (by decide))
  have htwin : (s.giveUp cause block event detail).on F.TWN_STATUS_HELM_OUT = false := by
    rw [State.giveUp, on_raise, on_setF_addr _ (x := F.BIN_STATUS_GIVEN_UP) _ (by decide), driveHelm_low hhigh]
    exact on_setF_zero _ (x := F.TWN_STATUS_HELM_OUT) (by decide) rfl
  have hdriven : (s.giveUp cause block event detail).out = (((s.mute true).pushFault cause block event 0x7F detail).driveHelm false).out := rfl
  refine ⟨giveUp_muted _ _ _ _ h, giveUp_hold _ _ _ _ h, giveUp_helm _ _ _ _, htwin, giveUp_givenUp _ _ _ _, giveUp_queue _ _ _ _ h, ?_, ?_, giveUp_log _ _ _ _ h⟩
  · rw [giveUp_evNow _ _ _ _ h, hmuted]
    simp
  · rw [hdriven, driveHelm_low hhigh]
    exact congrArg (· ++ [Out.helmOut false]) hout

/-- The events of giving up control, in the order of the log. -/
theorem gaveUp_logged {s t : State} {cause detail : Nat} (h : GaveUp s.begin cause detail t) : Logged [⟨0x0102, 0⟩, ⟨0x0103, 0⟩] s t.finish := by
  refine finish_logged ?_ h.log (by decide) (by decide)
  rw [h.evNow]
  rfl

/-! ## Mutes -/

theorem unmute_of_muted {s : State} (hhold : s.on F.BIN_STATUS_MUTE_HOLD = false) (hmuted : s.on F.BIN_STATUS_MUTED = true) :
    s.unmute = (s.setF F.BIN_STATUS_MUTED 0).raise 0x0104 0 := by
  simp [State.unmute, hhold, hmuted]

/-- The bit MUTED after a write, and its event. -/
theorem frame_muted (s : State) (v code : Nat) : Frame [R.BIN_STATUS] [] [] s ((s.setF F.BIN_STATUS_MUTED v).raise code 0) :=
  (frame_setF s F.BIN_STATUS_MUTED v).trans (frame_raise _ _ _)

/-! ## A shutdown -/

/-- A module whose core a shutdown has lost, its island as it was before but for BIN_STATUS and BIN_FAULT (R398). -/
structure ShutFrom (s t : State) : Prop extends CoreLost s false t where
  core : ∀ a, islandKept a = false → t.rd a = resetOf a
  island : ∀ a, islandKept a = true → a ∉ [R.BIN_STATUS, R.BIN_FAULT] → t.rd a = s.rd a
  down : t.on F.BIN_STATUS_SHUTDOWN = true
  givenUp : t.on F.BIN_STATUS_GIVEN_UP = true
  muted : t.on F.BIN_STATUS_MUTED = true
  helm : t.on F.BIN_STATUS_HELM_OUT = false
  pwrGood : t.cfg.pwrGood = false
  reset : t.cfg.reset = none

/-- The state whose core a shutdown then resets. -/
def State.shutFlags (s : State) (cause event : Nat) (cmd : Bool) : State :=
  let s := s.raise event 0
  { s with isl := { s.isl with shutThermal := s.isl.shutThermal || (cause == 5 && !cmd)
                               shutPower := s.isl.shutPower || cause == 6
                               shutCmd := s.isl.shutCmd || cmd, hotRun := 0 } }

theorem frame_shutFlags (s : State) (cause event : Nat) (cmd : Bool) : Frame [] [] [.isl] s (s.shutFlags cause event cmd) :=
  (frame_raise s event 0).trans (frame_isl _ _)

/-- The bits of BIN_STATUS that a shutdown leaves after giving up control: all but SHUTDOWN. -/
theorem on_shutdown (s : State) (cause event detail : Nat) (cmd : Bool) {j : Nat} (hj : 4 ≠ j) (h32 : j < 32) :
    (s.shutdown cause event detail cmd).on ⟨R.BIN_STATUS, j, j⟩ = (s.giveUp cause 0x01 event detail).on ⟨R.BIN_STATUS, j, j⟩ := by
  have hset : (s.shutdown cause event detail cmd).on ⟨R.BIN_STATUS, j, j⟩ =
      ((((s.giveUp cause 0x01 event detail).shutFlags cause event cmd).coreReset false).setF F.BIN_STATUS_SHUTDOWN 1).on ⟨R.BIN_STATUS, j, j⟩ := rfl
  have hword : (((s.giveUp cause 0x01 event detail).shutFlags cause event cmd).coreReset false).rd R.BIN_STATUS =
      (s.giveUp cause 0x01 event detail).rd R.BIN_STATUS := rd_coreReset _ _ _
  rw [hset, on_setF_status _ _ hj h32, State.on, State.on, State.f, State.f, State.rdn, State.rdn, hword]

section
variable {s : State} (cause event detail : Nat) (cmd : Bool) (h : s.isl.queue.length < 8)
include h

theorem shutdown_from : ShutFrom s (s.shutdown cause event detail cmd) := by
  have hframe := (frame_giveUp cause 0x01 event detail h).trans (frame_shutFlags _ cause event cmd)
  have hlost : CoreLost ((s.giveUp cause 0x01 event detail).shutFlags cause event cmd) false (s.shutdown cause event detail cmd) :=
    ⟨fun _ => rfl, rfl, rfl, rfl, rfl, rfl, rfl, rfl⟩
  have hrd (a : Nat) (ha : a ≠ R.BIN_STATUS) : (s.shutdown cause event detail cmd).rd a =
      if islandKept a = true then ((s.giveUp cause 0x01 event detail).shutFlags cause event cmd).rd a else resetOf a := by
    have hset : (s.shutdown cause event detail cmd).rd a =
        ((((s.giveUp cause 0x01 event detail).shutFlags cause event cmd).coreReset false).setF F.BIN_STATUS_SHUTDOWN 1).rd a := rfl
    rw [hset, rd_setF_ne _ _ ha, rd_coreReset]
  refine ⟨hlost.of_frame hframe (by decide), fun a hkept => ?_, fun a hkept hin => ?_, ?_, ?_, ?_, ?_, rfl, rfl⟩
  · rw [hrd a (fun he => absurd (he ▸ hkept) (by decide)), hkept, if_neg Bool.false_ne_true]
  · have hout : a ∉ [R.BIN_STATUS, R.BIN_FAULT, R.TWN_STATUS] ++ [] := by
      intro hmem
      simp only [List.append_nil, List.mem_cons, List.not_mem_nil, or_false] at hmem hin
      rcases hmem with he | he | he
      · exact hin (.inl he)
      · exact hin (.inr he)
      · exact absurd (he ▸ hkept) (by decide)
    rw [hrd a (fun he => hin (he ▸ List.mem_cons_self)), if_pos hkept, hframe.1 a hout]
  · exact on_setF_one _ (x := F.BIN_STATUS_SHUTDOWN) (by decide) rfl
  · rw [on_shutdown _ _ _ _ _ (by decide) (by decide), giveUp_givenUp]
  · rw [on_shutdown _ _ _ _ _ (by decide) (by decide), giveUp_muted _ _ _ _ h]
  · rw [on_shutdown _ _ _ _ _ (by decide) (by decide), giveUp_helm]

theorem shutdown_queue : (s.shutdown cause event detail cmd).isl.queue.map FaultRec.brief = s.isl.queue.map FaultRec.brief ++ [(cause, detail)] :=
  giveUp_queue cause 0x01 event detail h

/-- What is kept of the reason of a shutdown. -/
theorem shutdown_flags : (s.shutdown cause event detail cmd).isl.shutPower = (s.isl.shutPower || cause == 6) ∧
    (s.shutdown cause event detail cmd).isl.shutCmd = (s.isl.shutCmd || cmd) := by
  have hisl := giveUp_isl cause 0x01 event detail h
  have hpower : (s.giveUp cause 0x01 event detail).isl.shutPower = s.isl.shutPower := by rw [hisl]
  have hcmd : (s.giveUp cause 0x01 event detail).isl.shutCmd = s.isl.shutCmd := by rw [hisl]
  exact ⟨congrArg (· || cause == 6) hpower, congrArg (· || cmd) hcmd⟩

omit h in
theorem shutdown_refusals : (s.shutdown cause event detail cmd).refusals = 0 := rfl

end

theorem ShutFrom.finish {s t : State} (h : ShutFrom s t) : ShutFrom s t.finish :=
  ⟨⟨h.fns, h.stage, h.mem, h.souv, h.keys, h.flash, h.pending, h.run⟩, h.core, h.island, h.down, h.givenUp, h.muted, h.helm, h.pwrGood, h.reset⟩

/-! ## The actions of BIN_CMD -/

theorem regDef_binCmd : ∃ d, regDef R.BIN_CMD = some d ∧ d.fields.all (fun x => x.acc == .wo && x.rng == .any) = true ∧
    ∀ v ∈ [(0xA5C30001 : Word), 0xA5C30002, 0xA5C30004, 0xA5C30008, 0xA5C30010, 0xA5C30020], mergeWord true d.fields 0 v.toNat = v.toNat :=
  ⟨_, rfl, rfl, List.forall_mem_cons.mpr ⟨rfl, List.forall_mem_cons.mpr ⟨rfl, List.forall_mem_cons.mpr ⟨rfl, List.forall_mem_cons.mpr ⟨rfl,
    List.forall_mem_cons.mpr ⟨rfl, List.forall_mem_cons.mpr ⟨rfl, List.forall_mem_nil _⟩⟩⟩⟩⟩⟩⟩

/-- A host's write of one action performs it with source 6. -/
theorem busWrite_binCmd {s : State} {v : Word} (hd : s.dark = false) (hv : v ∈ [(0xA5C30001 : Word), 0xA5C30002, 0xA5C30004, 0xA5C30008, 0xA5C30010, 0xA5C30020]) :
    s.busWrite .pcie R.BIN_CMD v 4 = s.binCmd 6 v.toNat := by
  obtain ⟨d, hdef, hfs, hmerge⟩ := regDef_binCmd
  exact busWrite_command (by decide) hd (by decide) (by decide) hdef hfs (by decide) (by decide) (hmerge v hv) rfl

/-- The service port's write of one action performs it with source 4. -/
theorem busWrite_service_binCmd {s : State} {v : Word} (hdead : s.isl.dead = false)
    (hv : v ∈ [(0xA5C30001 : Word), 0xA5C30002, 0xA5C30004, 0xA5C30008, 0xA5C30010, 0xA5C30020]) : s.busWrite .service R.BIN_CMD v 4 = s.binCmd 4 v.toNat := by
  obtain ⟨d, hdef, hfs, hmerge⟩ := regDef_binCmd
  have hreg : s.busWrite .service R.BIN_CMD v 4 = s.regWrite .service R.BIN_CMD v := by simp [State.busWrite, hdead, R.BIN_CMD]
  exact hreg.trans (regWrite_command hdef hfs (by decide) (by decide) (hmerge v hv) rfl)

end Sys2Proof.Machine
end

section
/-!
PROOFS. Why an evaluation of the audio clock loop need not log nothing (R73, R324): a steering target of CPLL_10 beyond 250 ppm raises event 0x0407.
-/

namespace Sys2Proof.Machine

/-- The audio function is STARTING, its loop follows the store level of an AES3 input (MODE 1), and no monitor unit runs. -/
def audioLoopFollows : State := { State.reset with fns := [(fnAud, .starting)], regs := [(R.AUD_CLK, 1)] }

theorem audioLoopFollows_noMon : audioLoopFollows.NoMon := by
  unfold State.NoMon
  decide +kernel

theorem audioLoopFollows_conditions : audioLoopFollows.active fnAud = true ∧ audioLoopFollows.f F.AUD_CLK_MODE = 1 ∧ audioLoopFollows.aud.okRun < 15 ∧
    audioLoopFollows.aud.badRun < 15 := by decide +kernel

/-- The state after an evaluation whose level is 10^9/256 frames off. -/
def audioLoopFollowsEnd : State := audioLoopFollows.begin.audLoop 1000000000

/-- The event is logged there. -/
theorem audioLoopFollowsEnd_logs : audioLoopFollowsEnd.finish.log.head = 1 := by decide +kernel

theorem audioLoopFollowsEnd_keeps : audioLoopFollowsEnd.pending = audioLoopFollows.pending ∧ audioLoopFollowsEnd.keys = audioLoopFollows.keys := by
  decide +kernel

theorem audioLoopFollows_completes : Completes (.audioLoopEvaluate 1000000000) audioLoopFollows fun t => t.log.head = 1 :=
  run_of (op := (·.audLoop 1000000000)) (u := audioLoopFollowsEnd) rfl audioLoopFollowsEnd_keeps.1 audioLoopFollowsEnd_keeps.2 audioLoopFollowsEnd_logs

/-- Refutes O35 by its clause of AUDIO_LOOP_EVALUATE: the clause lets no event be logged, but the evaluation clamps a target beyond 250 ppm and logs 0x0407. -/
theorem not_audioInputCommandsComplete : ¬ Obligations.AudioInputCommandsComplete := by
  unfold Obligations.AudioInputCommandsComplete
  rintro ⟨-, hLoop, -⟩
  obtain ⟨hactive, hmode, hok, hbad⟩ := audioLoopFollows_conditions
  obtain ⟨t, ht, -, -, -, -, -, -, -, -, -, -, -, hparts⟩ :=
    hLoop audioLoopFollows 1000000000 _ _ _ audioLoopFollows_noMon hactive hmode rfl rfl rfl hok hbad
  obtain ⟨u, hu, hlogs⟩ := audioLoopFollows_completes
  obtain rfl : t = u := Host.Outcome.next.inj (ht.symm.trans hu)
  have hlog : t.log = audioLoopFollows.log := hparts .log (by decide)
  rw [hlog] at hlogs
  exact absurd hlogs (by decide)

end Sys2Proof.Machine
end

section
/-!
PROOFS. Why a report that a canvas member receives need not be held (R262, R265): one that comes at or after the report deadline of the frame is discarded.
-/

namespace Sys2Proof.Machine

/-- The report of member 1. -/
def lateReport : CnvReport := { member := 1, x := 0, t := 0, floor := 0, cap := 0, prev := 0, gdig := 0 }

/-- It comes alone, for picture 1. -/
def lateReportFlit : BudgetFlit := { tag := 0, k16 := 1, reports := [lateReport], masks := [] }

/-- Member 0 of a row of two at line 30 of the frame. Its round for picture 1 is open; the report deadline, line 10 + 10, has passed. -/
def roundPastDeadline : State :=
  { State.reset with
    regs := [(R.CNV_CTL, 1), (R.CNV_GRID, 0x10), (R.CNV_TIMING, 0xA000A)]
    clk := { State.reset.clk with run := true, hpos := 30 * 65536 * 4294967296 }
    cnv := { State.reset.cnv with open_ := true, k1 := 1 } }

theorem roundPastDeadline_conditions : roundPastDeadline.on F.CNV_CTL_EN = true ∧ lateReportFlit.tag = roundPastDeadline.rdn R.CNV_GROUP_TAG ∧
    lateReportFlit.k16 = roundPastDeadline.cnvPic % 65536 ∧ roundPastDeadline.cnv.k1 = roundPastDeadline.cnvPic ∧ lateReport.member ≠ roundPastDeadline.cnvMe ∧
    lateReport.member < roundPastDeadline.cnvRows * roundPastDeadline.cnvCols ∧ lateReport.gdig = roundPastDeadline.rdn R.CNV_GDIGEST ∧
    roundPastDeadline.fromRow 3 = false ∧ roundPastDeadline.fromCol 3 = false := by decide +kernel

/-- The report is discarded. -/
theorem roundPastDeadline_discards : roundPastDeadline.begin.idx 3 8 (·.budgetReceive 3 lateReportFlit) = roundPastDeadline.begin := by decide +kernel

theorem roundPastDeadline_completes : Completes (.budgetFlitReceive 3 lateReportFlit) roundPastDeadline fun t => t.cnv.reps = [] :=
  run_of (op := (·.idx 3 8 (·.budgetReceive 3 lateReportFlit))) roundPastDeadline_discards rfl rfl rfl

/-- Refutes O29 by its clause of BUDGET_FLIT_RECEIVE: the clause has every report of the open round held, but one that comes at or after the report deadline of the
frame is discarded. -/
theorem not_canvasBudgetCommandsComplete : ¬ Obligations.CanvasBudgetCommandsComplete := by
  unfold Obligations.CanvasBudgetCommandsComplete
  rintro ⟨-, -, hReceive, -⟩
  obtain ⟨hon, htag, hpic, hround, hother, hmember, hdigest, hrow, hcol⟩ := roundPastDeadline_conditions
  obtain ⟨t, ht, hheld, -⟩ := hReceive roundPastDeadline 3 lateReportFlit lateReport (by decide) hon htag hpic hround rfl rfl rfl rfl hother hmember hdigest rfl
    hrow hcol
  obtain ⟨u, hu, hnone⟩ := roundPastDeadline_completes
  obtain rfl : t = u := Host.Outcome.next.inj (ht.symm.trans hu)
  rw [hnone] at hheld
  exact List.cons_ne_nil _ _ hheld.symm

end Sys2Proof.Machine
end

section
/-!
PROOFS. The actions of BIN_CMD (R423).
-/

namespace Sys2Proof.Machine

theorem busWrite_mute {s : State} (hd : s.dark = false) : s.busWrite .pcie R.BIN_CMD 0xA5C30001 4 = s.mute false := busWrite_binCmd hd (by decide)

theorem busWrite_unmute {s : State} (hd : s.dark = false) : s.busWrite .pcie R.BIN_CMD 0xA5C30002 4 = s.unmute := busWrite_binCmd hd (by decide)

theorem busWrite_giveUp {s : State} (hd : s.dark = false) : s.busWrite .pcie R.BIN_CMD 0xA5C30004 4 = s.giveUp 7 0xFF 0 6 := busWrite_binCmd hd (by decide)

theorem dark_shutdown {s : State} (hd : s.dark = false) : s.on F.BIN_STATUS_SHUTDOWN = false := (Bool.or_eq_false_iff.mp hd).1

theorem busWrite_warm {s : State} (hd : s.dark = false) : s.busWrite .pcie R.BIN_CMD 0xA5C30008 4 = s.resetTrigger 2 6 :=
  (busWrite_binCmd hd (by decide)).trans (if_neg (ne_true_of_eq_false (dark_shutdown hd)))

theorem busWrite_cold {s : State} (hd : s.dark = false) : s.busWrite .pcie R.BIN_CMD 0xA5C30010 4 = s.resetTrigger 1 6 :=
  (busWrite_binCmd hd (by decide)).trans (if_neg (ne_true_of_eq_false (dark_shutdown hd)))

theorem busWrite_shutdown {s : State} (hd : s.dark = false) : s.busWrite .pcie R.BIN_CMD 0xA5C30020 4 = s.shutdownCmd := busWrite_binCmd hd (by decide)

/-- Settles O46: each action from what its operation on the island leaves. -/
theorem binnacleActionCommandsComplete : Obligations.BinnacleActionCommandsComplete := by
  unfold Obligations.BinnacleActionCommandsComplete
  refine ⟨fun s hd hmuted => ?mute, fun s hd hhold hmuted => ?unmute, fun s hd hroom hmuted hhelm => ?giveUp, fun s hd hreset hroom hstack => ?warm,
    fun s hd hreset hroom => ?cold, fun s hd hroom => ?shutdown⟩
  case mute =>
    have hop : s.begin.busWrite .pcie R.BIN_CMD 0xA5C30001 4 = (s.begin.setF F.BIN_STATUS_MUTED 1).raise 0x0103 0 :=
      (busWrite_mute (s := s.begin) hd).trans (mute_of_unmuted (s := s.begin) hmuted)
    refine completes_of_frame (op := (·.busWrite .pcie R.BIN_CMD 0xA5C30001 4)) rfl hop ((frame_muted s.begin 1 0x0103).mono (by simp) (by simp) (by simp))
      (.inr (by simp)) fun hkeeps => ⟨?_, ?_, ?_, hkeeps⟩
    · exact on_setF_one s.begin (x := F.BIN_STATUS_MUTED) (by decide) rfl
    · exact on_setF_status s.begin (i := 0) (j := 1) 1 (by decide) (by decide)
    · exact finish_logged rfl ⟨rfl, rfl⟩ (by decide) (by decide)
  case unmute =>
    have hop : s.begin.busWrite .pcie R.BIN_CMD 0xA5C30002 4 = (s.begin.setF F.BIN_STATUS_MUTED 0).raise 0x0104 0 :=
      (busWrite_unmute (s := s.begin) hd).trans (unmute_of_muted (s := s.begin) hhold hmuted)
    refine completes_of_frame (op := (·.busWrite .pcie R.BIN_CMD 0xA5C30002 4)) rfl hop ((frame_muted s.begin 0 0x0104).mono (by simp) (by simp) (by simp))
      (.inr (by simp)) fun hkeeps => ⟨?_, ?_, hkeeps⟩
    · exact on_setF_zero s.begin (x := F.BIN_STATUS_MUTED) (by decide) rfl
    · exact finish_logged rfl ⟨rfl, rfl⟩ (by decide) (by decide)
  case giveUp =>
    have h := giveUp_gaveUp (s := s.begin) 7 0xFF 0 6 hroom hmuted hhelm
    exact completes_of_frame (op := (·.busWrite .pcie R.BIN_CMD 0xA5C30004 4)) rfl (busWrite_giveUp (s := s.begin) hd)
      (frame_giveUp (s := s.begin) 7 0xFF 0 6 hroom) (.inr (by simp)) fun hkeeps =>
      ⟨h.muted, h.hold, h.helm, h.twin, h.givenUp, h.queue, gaveUp_logged h, beq_iff_eq.mpr (giveUp_bit (s := s.begin) 7 0xFF 0 6 hroom rfl (by decide)), h.out, hkeeps⟩
  case warm =>
    obtain ⟨hr, hs, hq⟩ := resetTrigger_from (v := s.begin) (kind := 2) (source := 6) (dark_shutdown (s := s.begin) hd) hreset hroom (fun _ => hstack)
      (Frame.refl s.begin) (by simp) (by simp) (by decide)
    have h := hr.finish
    exact run_of (op := (·.busWrite .pcie R.BIN_CMD 0xA5C30008 4)) (busWrite_warm (s := s.begin) hd) h.pending h.keys
      ⟨h.core, h.island, h.fns, h.cause, h.reset, h.stage, h.mem, h.souv, h.keys, h.flash, h.pending, h.run, h.ns, hq, hs.muted, hs.hold, hs.helm, h.givenUp⟩
  case cold =>
    obtain ⟨hr, hs, hq⟩ := resetTrigger_from (v := s.begin) (kind := 1) (source := 6) (dark_shutdown (s := s.begin) hd) hreset hroom
      (fun hkind => absurd hkind (by decide)) (Frame.refl s.begin) (by simp) (by simp) (by decide)
    have h := hr.finish
    exact run_of (op := (·.busWrite .pcie R.BIN_CMD 0xA5C30010 4)) (busWrite_cold (s := s.begin) hd) h.pending h.keys
      ⟨h.core, h.island, h.fns, h.cause, h.reset, h.stage, h.mem, h.souv, h.keys, h.flash, h.pending, h.run, h.ns, hq, hs.muted, hs.hold, hs.helm, h.givenUp⟩
  case shutdown =>
    have h := (shutdown_from (s := s.begin) 5 0x0106 s.isl.hot true hroom).finish
    exact run_of (op := (·.busWrite .pcie R.BIN_CMD 0xA5C30020 4)) (u := s.begin.shutdown 5 0x0106 s.isl.hot true) (busWrite_shutdown (s := s.begin) hd) h.pending h.keys
      ⟨h.core, h.island, h.fns, h.down, h.givenUp, h.muted, h.helm, shutdown_queue (s := s.begin) 5 0x0106 s.isl.hot true hroom, h.pwrGood, h.reset, h.mem, h.souv,
        h.keys, h.flash, h.pending, h.run, (shutdown_flags (s := s.begin) 5 0x0106 s.isl.hot true hroom).2.trans (Bool.or_true _)⟩

end Sys2Proof.Machine
end

section
/-!
PROOFS. The one-time key slots (R405): KEYSLOT, what the end of its programming leaves, and the slots that govern image checks.
-/

namespace Sys2Proof.Machine

/-! ## KEYSLOT -/

/-- A transaction of the service port with a good PEC byte, from t0 + 5 ms on. -/
theorem svcDo_of_ready {s : State} (hdead : s.isl.dead = false) (hpec : s.on F.BIN_SVC_CTL_PEC = false) (pecOk : Bool) (op : State → State) :
    s.svcDo pecOk op = op (s.toNs 5000000) := by
  have hoff : (s.toNs 5000000).on F.BIN_SVC_CTL_PEC = false := by rw [← hpec, (frame_toNs s _).on_eq (by simp)]
  simp [State.svcDo, hdead, hoff]

theorem toNs_ns_past {s : State} {t : Nat} (h : t ≤ s.clk.ns) : (s.toNs t).clk.ns = s.clk.ns := (toNs_ns s t).trans (max_eq_left h)

theorem svcKeyslot_programmed {s : State} {k : Nat} (hk : k < 2) (hslot : s.keySlot k ≠ []) (d : List Nat) :
    s.svcKeyslot k d = s.emit (.svc svcRefused []) := by
  have hk' : ¬ 1 < k := by omega
  simp [State.svcKeyslot, hk', hslot]

theorem svcKeyslot_busy {s : State} {k : Nat} {x : Nat × List Nat × Nat} (hk : k < 2) (hslot : s.keySlot k = []) (hbusy : s.isl.keyAt = some x)
    (d : List Nat) : s.svcKeyslot k d = s.emit (.svc svcNotReady []) := by
  have hk' : ¬ 1 < k := by omega
  simp [State.svcKeyslot, hk', hslot, hbusy]

/-- The programming of a digest into slot `k` begins. -/
def State.keyslotBegun (s : State) (k : Nat) (d : List Nat) : State :=
  { s with isl := { s.isl with keyAt := some (k, (List.range 48).map (fun i => d.getD i 0 % 256), s.clk.ns + 20000000) } }

theorem svcKeyslot_blank {s : State} {k : Nat} (hk : k < 2) (hslot : s.keySlot k = []) (hfree : s.isl.keyAt = none) (d : List Nat) :
    s.svcKeyslot k d = (s.keyslotBegun k d).emit (.svc svcNotReady []) := by
  have hk' : ¬ 1 < k := by omega
  simp [State.svcKeyslot, hk', hslot, hfree, State.keyslotBegun]

section
variable {s : State} (hdead : s.isl.dead = false) (hpec : s.on F.BIN_SVC_CTL_PEC = false) (hns : 5000000 ≤ s.clk.ns)
include hdead hpec

theorem keyslot_op (k : Nat) (d : List Nat) : s.begin.svcDo false (·.svcKeyslot k d) = (s.begin.toNs 5000000).svcKeyslot k d :=
  svcDo_of_ready (s := s.begin) hdead hpec false _

theorem keyslot_refused_completes {k : Nat} (d : List Nat) (hk : k < 2) (hslot : s.keySlot k ≠ []) :
    Completes (.keyslot k d false) s fun t => t.out = [.svc svcRefused []] ∧ Keeps [] [] [.out, .clk] s t := by
  have hop := (keyslot_op hdead hpec k d).trans (svcKeyslot_programmed (s := s.begin.toNs 5000000) hk hslot d)
  refine completes_of_frame (op := (·.svcDo false (·.svcKeyslot k d))) rfl hop (((frame_toNs s.begin _).trans (frame_emit _ _)).mono (by simp) (by simp) (by simp))
    (.inl rfl) fun hkeeps => ⟨rfl, hkeeps⟩

theorem keyslot_notReady_completes {k : Nat} {x : Nat × List Nat × Nat} (d : List Nat) (hk : k < 2) (hslot : s.keySlot k = []) (hbusy : s.isl.keyAt = some x) :
    Completes (.keyslot k d false) s fun t => t.out = [.svc svcNotReady []] ∧ Keeps [] [] [.out, .clk] s t := by
  have hop := (keyslot_op hdead hpec k d).trans (svcKeyslot_busy (s := s.begin.toNs 5000000) hk hslot hbusy d)
  refine completes_of_frame (op := (·.svcDo false (·.svcKeyslot k d))) rfl hop (((frame_toNs s.begin _).trans (frame_emit _ _)).mono (by simp) (by simp) (by simp))
    (.inl rfl) fun hkeeps => ⟨rfl, hkeeps⟩

include hns in
theorem keyslot_begins_completes {k : Nat} (d : List Nat) (hk : k < 2) (hslot : s.keySlot k = []) (hfree : s.isl.keyAt = none) :
    Completes (.keyslot k d false) s fun t =>
      t.isl.keyAt = some (k, (List.range 48).map (fun i => d.getD i 0 % 256), s.clk.ns + 20000000) ∧ t.out = [.svc svcNotReady []] ∧
      Keeps [] [] [.isl, .out, .clk] s t := by
  have hop := (keyslot_op hdead hpec k d).trans (svcKeyslot_blank (s := s.begin.toNs 5000000) hk hslot hfree d)
  have hat : (s.begin.toNs 5000000).clk.ns = s.clk.ns := toNs_ns_past (s := s.begin) hns
  refine completes_of_frame (op := (·.svcDo false (·.svcKeyslot k d))) rfl hop
    ((((frame_toNs s.begin _).trans (frame_isl _ _)).trans (frame_emit _ _)).mono (by simp) (by simp) (by simp)) (.inl rfl) fun hkeeps => ⟨?_, rfl, hkeeps⟩
  rw [← hat]
  rfl

end

/-! ## The end of the programming -/

/-- CFG_KEYSLOT shows a programmed slot. -/
theorem view_keyslot {s : State} {k : Nat} (hk : k < 2) (hslot : s.keySlot k ≠ []) : bitsOf (s.view R.CFG_KEYSLOT).toNat k k = 1 := by
  have hview : s.view R.CFG_KEYSLOT = BitVec.ofNat 32 (showWord [⟨0, 0, .ro, false, .any⟩, ⟨1, 1, .ro, false, .any⟩]
      ((if (s.keySlot 0).isEmpty then 0 else 1) + (if (s.keySlot 1).isEmpty then 0 else 2))) := rfl
  rw [hview]
  have hcases : k = 0 ∨ k = 1 := by omega
  rcases hcases with rfl | rfl
  · rcases h : (s.keySlot 1).isEmpty <;> simp [hslot] <;> rfl
  · rcases h : (s.keySlot 0).isEmpty <;> simp [hslot] <;> rfl

/-- A command that may program a slot completes from the state that its operation leaves. -/
theorem runKey_of {s u : State} {op : State → State} {P : State → Prop} (e : op s.begin = u) (hp : P { u.finish with pending := s.pending }) :
    ∃ t, s.runKey op = .next t ∧ P t := by
  subst e
  exact ⟨_, rfl, hp⟩

theorem keyslotProgrammed_completes {s : State} {k x : Nat} {d : List Nat} (hat : s.isl.keyAt = some (k, d, x)) (hk : k < 2) (hslot : s.keySlot k = [])
    (hd : d ≠ []) : Completes .keyslotProgrammed s fun t => x ≤ t.clk.ns ∧ t.keySlot k = d ∧ (∀ j, j ≠ k → t.keySlot j = s.keySlot j) ∧
      bitsOf (t.view R.CFG_KEYSLOT).toNat k k = 1 ∧ t.cfg.keys1 = s.cfg.keys1 ∧ t.out = [.svc svcOk []] ∧ Logged [⟨0x010D, k⟩] s t := by
  have hdone : s.begin.keyslotDone = (({ s.begin.toNs x with isl := { (s.begin.toNs x).isl with keyAt := none }, keys := s.keysProgrammed k d } : State).raise
      0x010D k).emit (.svc svcOk []) := by
    have hat' : s.begin.isl.keyAt = some (k, d, x) := hat
    simp only [State.keyslotDone, hat']
    rfl
  refine runKey_of hdone ?_
  have hslots (j : Nat) := keySlot_keysProgrammed s k d j
  have hnew : Tab.get keyBlank (s.keysProgrammed k d) k = d := (hslots k).trans (if_pos ⟨rfl, hslot⟩)
  refine ⟨le_toNs _ _, hnew, fun j hj => (hslots j).trans (if_neg (fun h => hj h.1)), view_keyslot hk (fun h => hd (hnew.symm.trans h)), rfl, rfl, ?_⟩
  exact finish_logged (s := s) (evs := [⟨0x010D, k⟩]) rfl ⟨rfl, rfl⟩ (by simp) (by simp; omega)

/-! ## The slots that govern image checks -/

theorem cfg_svPut (s : State) (w v : Nat) : (s.svPut w v).cfg = s.cfg := by
  unfold State.svPut
  split <;> rfl

@[simp] theorem keys1_svPut (s : State) (w v : Nat) : (s.svPut w v).cfg.keys1 = s.cfg.keys1 := by rw [cfg_svPut]
@[simp] theorem keys1_svSet (s : State) (w hi lo v : Nat) : (s.svSet w hi lo v).cfg.keys1 = s.cfg.keys1 := keys1_svPut s w _
@[simp] theorem keys1_flashPut (s : State) (a : Nat) (l : List Nat) : (s.flashPut a l).cfg.keys1 = s.cfg.keys1 := rfl
@[simp] theorem keys1_flashCopy (s : State) (a b n : Nat) : (s.flashCopy a b n).cfg.keys1 = s.cfg.keys1 := rfl
@[simp] theorem keys1_updNone (s : State) : s.updNone.cfg.keys1 = s.cfg.keys1 := keys1_svPut s _ _

theorem keys1_startRelock (s : State) (m : Nat) : (s.startRelock m).cfg.keys1 = s.cfg.keys1 := by
  have hsight (t : State) : (t.relockSights m).cfg = t.cfg := by
    unfold State.relockSights
    split <;> [split <;> rfl; rfl]
  have hbegin : ((s.relockBegin m).relockSights m).cfg = s.cfg := hsight _
  unfold State.startRelock
  simp only
  split <;> [split; skip] <;> simp [hbegin]

@[simp] theorem keys1_pushFault (s : State) (cause block event fn detail : Nat) : (s.pushFault cause block event fn detail).cfg.keys1 = s.cfg.keys1 := by
  unfold State.pushFault
  simp only
  split <;> split <;> rfl

@[simp] theorem keys1_setFn (s : State) (g : Nat) (st : FnState) : (s.setFn g st).cfg.keys1 = s.cfg.keys1 := by
  unfold State.setFn
  split
  · rfl
  · cases st
    case fault => exact keys1_pushFault _ _ _ _ _ _
    all_goals rfl

@[simp] theorem keys1_mutesEnd (s : State) : s.mutesEnd.cfg.keys1 = s.cfg.keys1 := by
  unfold State.mutesEnd
  simp only
  split <;> rfl

@[simp] theorem keys1_updEnd (s : State) : s.updEnd.cfg.keys1 = s.cfg.keys1 := by simp [State.updEnd]

@[simp] theorem keys1_sessionCheck (s : State) : s.sessionCheck.cfg.keys1 = s.cfg.keys1 := by
  unfold State.sessionCheck
  split
  · exact keys1_updEnd s
  · rfl

@[simp] theorem keys1_installFail (s : State) (e : Nat) : (s.installFail e).cfg.keys1 = s.cfg.keys1 := by simp [State.installFail]

@[simp] theorem keys1_installDone (s : State) (staged : Option FwHdr) : (s.installDone staged).cfg.keys1 = s.cfg.keys1 := by
  unfold State.installDone
  simp only
  split <;> simp

@[simp] theorem keys1_installCopy (s : State) (staged : Option FwHdr) (copyOk : Bool) : (s.installCopy staged copyOk).cfg.keys1 = s.cfg.keys1 := by
  unfold State.installCopy
  simp only
  generalize ht : (s.svSet 64 5 3 3).flashPut (if (s.svSet 64 5 3 3).updKind = 0 then flashActive else flashConfig) s.hamperImage = t
  have hkeys : t.cfg.keys1 = s.cfg.keys1 := by rw [← ht, keys1_flashPut, keys1_svSet]
  split
  · exact (keys1_installDone t staged).trans hkeys
  · split <;> exact hkeys

@[simp] theorem keys1_installMove (s : State) (staged : Option FwHdr) (moveOk copyOk : Bool) :
    (s.installMove staged moveOk copyOk).cfg.keys1 = s.cfg.keys1 := by
  unfold State.installMove
  split
  · simp only
    generalize ht : (s.svSet 64 5 3 2).flashCopy flashActive flashFallback slotLen = t
    have hkeys : t.cfg.keys1 = s.cfg.keys1 := by rw [← ht, keys1_flashCopy, keys1_svSet]
    split
    · exact (keys1_installCopy _ staged copyOk).trans hkeys
    · exact hkeys
  · exact keys1_installCopy s staged copyOk

@[simp] theorem keys1_install (s : State) (staged : Option FwHdr) (moveOk copyOk : Bool) : (s.install staged moveOk copyOk).cfg.keys1 = s.cfg.keys1 := by
  unfold State.install
  split
  · rfl
  · split
    · exact keys1_installCopy s staged copyOk
    · split
      · exact keys1_installMove s staged moveOk copyOk
      · simp only
        split <;> simp

@[simp] theorem keys1_bootDecision (s : State) (bootOk : Bool) : (s.bootDecision bootOk).cfg.keys1 = s.cfg.keys1 := by
  unfold State.bootDecision
  split
  · rfl
  · split <;> simp

theorem keys1_relockAll (l : List Nat) (s : State) : (l.foldl State.startRelock s).cfg.keys1 = s.cfg.keys1 := by
  induction l generalizing s with
  | nil => rfl
  | cons m l ih => exact (ih _).trans (keys1_startRelock s m)

/-- The loader's start: its settings, with the slots that it finds, and the reset line. -/
def State.loaderBegun (s : State) (slots : Slot) : State :=
  { s with cfg := { s.cfg with reset := none, stage := 1, t1 := s.clk.ns, slots := slots, keys1 := s.keys }, pins := { s.pins with rstN := true } }

/-- The mutes end, the start is counted and the straps are sampled. -/
def State.strapsSampled (s : State) : State :=
  let s := (s.mutesEnd.bump R.BIN_BOOT_CNT).wrn R.GLB_MID s.pins.mid
  (s.setF F.TWN_STATUS_TWIN_FIRST (if s.pins.twinFirst then 1 else 0)).setF F.TWN_STATUS_HELM_IN (if s.pins.helmIn then 1 else 0)

/-- The boot identifier is drawn. -/
def State.bootIdDrawn (s : State) : State := { s with fctr := s.fctr + 1 }.wrn R.BIN_SX_BOOT_ID (Config.bootId s.fctr)

theorem loaderInit_eq (s : State) (slots : Slot) :
    s.loaderInit slots = ((List.range 11).foldl State.startRelock (s.loaderBegun slots).strapsSampled.bootIdDrawn).setFn fnCfg .starting := rfl

theorem cfg_bootIdDrawn (s : State) : s.bootIdDrawn.cfg = s.cfg := wrn_cfg _ _ _

theorem keys1_strapsSampled (s : State) : s.strapsSampled.cfg.keys1 = s.cfg.keys1 := by
  rw [State.strapsSampled, setF_cfg, setF_cfg, wrn_cfg, bump_cfg, keys1_mutesEnd]

/-- The loader samples the slots when it starts. -/
@[simp] theorem keys1_loaderInit (s : State) (slots : Slot) : (s.loaderInit slots).cfg.keys1 = s.keys := by
  rw [loaderInit_eq, keys1_setFn, keys1_relockAll, cfg_bootIdDrawn, keys1_strapsSampled]
  rfl

/-- The loader's start samples the slots, and what follows it leaves them. -/
theorem keys1_loaderStart {s : State} (slots : Slot) (staged : Option FwHdr) (moveOk copyOk bootOk : Bool) (hmay : s.loaderMay = true) :
    (s.loaderStart slots staged moveOk copyOk bootOk).cfg.keys1 = s.keys := by
  obtain ⟨r, hr⟩ : ∃ r, s.loaderStart slots staged moveOk copyOk bootOk = r := ⟨_, rfl⟩
  rw [hr]
  unfold State.loaderStart at hr
  split at hr
  case isTrue h => simp [hmay] at h
  case isFalse =>
    extract_lets u t at hr
    have hu : u.keys = s.keys := by
      simp only [u]
      split <;> [split <;> rfl; rfl]
    have ht : t.cfg.keys1 = s.keys := by rw [show t = u.loaderInit slots from rfl, keys1_loaderInit, hu]
    clear_value t
    split at hr
    · rw [← hr, keys1_setFn, keys1_sessionCheck, raise_cfg, setF_cfg, ht]
    next k _ =>
      extract_lets v at hr
      have hv : v.cfg.keys1 = s.keys := by rw [← ht, show v = (t.setF F.CFG_FLASH_DENSITY t.flash.density).setF F.CFG_FLASH_SECOND k from rfl, setF_cfg, setF_cfg]
      rw [← hr, keys1_bootDecision, keys1_install, keys1_sessionCheck, hv]

/-- What a command does to the settings is what its operation does. -/
theorem run_cfg (s : State) (op : State → State) : ∃ t, s.run op = .next t ∧ t.cfg = (op s.begin).cfg := ⟨_, rfl, rfl⟩

theorem loaderStart_completes {s : State} (slots : Slot) (staged : Option FwHdr) (moveOk copyOk bootOk : Bool) (hmay : s.loaderMay = true) :
    Completes (.loaderStart slots.active slots.fallback staged moveOk copyOk bootOk) s fun t => t.cfg.keys1 = s.keys := by
  obtain ⟨t, ht, hcfg⟩ := run_cfg s (·.loaderStart slots staged moveOk copyOk bootOk)
  exact ⟨t, ht, (congrArg CfgSt.keys1 hcfg).trans (keys1_loaderStart (s := s.begin) slots staged moveOk copyOk bootOk hmay)⟩

/-- Settles O55, clause by clause. -/
theorem keySlots : Obligations.KeySlots := by
  unfold Obligations.KeySlots
  exact ⟨fun _ _ d hdead hpec hns hk hslot hfree => keyslot_begins_completes hdead hpec hns d hk hslot hfree,
    fun _ _ d _ hdead hpec _ hk hslot hbusy => keyslot_notReady_completes hdead hpec d hk hslot hbusy,
    fun _ _ _ _ hat hk hslot hd => keyslotProgrammed_completes hat hk hslot hd,
    fun _ a e m c o hmay => loaderStart_completes a e m c o hmay, fun _ _ _ _ => rfl,
    fun _ _ d hdead hpec _ hk hslot => keyslot_refused_completes hdead hpec d hk hslot,
    fun i s hi => (exec_keys i s hi).imp fun _ h => ⟨h.1, h.2.1⟩, exec_keysKept⟩

end Sys2Proof.Machine
end

section
/-!
PROOFS. The actions of the service port (R404): each acts as BIN_CMD's bit does, and is answered OK.
-/

namespace Sys2Proof.Machine

/-- The service port acts where it need not check the PEC byte, or finds it good (R403). -/
theorem svcDo_of_good {s : State} {pecOk : Bool} (hdead : s.isl.dead = false) (hpec : s.on F.BIN_SVC_CTL_PEC = false ∨ pecOk = true) (op : State → State) :
    s.svcDo pecOk op = op (s.toNs 5000000) := by
  have hpass : ((s.toNs 5000000).on F.BIN_SVC_CTL_PEC && !pecOk) = false := by
    rw [on_toNs]
    rcases hpec with h | h <;> simp [h]
  simp only [State.svcDo, hdead, hpass, Bool.false_eq_true, if_false]

/-- The words that spell one action each. -/
theorem binCmdWord_word : ∀ action < 6, BitVec.ofNat 32 (binCmdWord action) ∈ [(0xA5C30001 : Word), 0xA5C30002, 0xA5C30004, 0xA5C30008, 0xA5C30010, 0xA5C30020] ∧
    (BitVec.ofNat 32 (binCmdWord action)).toNat = binCmdWord action := by decide

/-- An action that refuses nothing is answered OK. -/
theorem svcDo_action {s t : State} {pecOk : Bool} {action : Nat} (ha : action < 6) (hdead : s.isl.dead = false)
    (hpec : s.on F.BIN_SVC_CTL_PEC = false ∨ pecOk = true) (ht : (s.toNs 5000000).binCmd 4 (binCmdWord action) = t) (href : t.refusals = s.refusals) :
    s.svcDo pecOk (·.svcAction action 0xC3A5) = t.emit (.svc 0 []) := by
  obtain ⟨hword, hnat⟩ := binCmdWord_word action ha
  have hdead' : (s.toNs 5000000).isl.dead = false := hdead
  have hput : (s.toNs 5000000).busWrite .service R.BIN_CMD (BitVec.ofNat 32 (binCmdWord action)) 4 = t := by
    rw [busWrite_service_binCmd hdead' hword, hnat, ht]
  have hbefore : t.refusals = (s.toNs 5000000).refusals := href
  rw [svcDo_of_good hdead hpec, State.svcAction, if_pos rfl, State.svcPut, hput, if_pos hbefore]
  rfl

/-- Settles O48: each action from what its operation on the island leaves, 5 ms after the power came. -/
theorem serviceActionCommandsComplete : Obligations.ServiceActionCommandsComplete := by
  unfold Obligations.ServiceActionCommandsComplete
  refine ⟨fun s o hdead hpec hns hmuted => ?mute, fun s o hdead hpec hns hhold hmuted => ?unmute, fun s o hdead hpec hns hroom hmuted hhelm => ?giveUp,
    fun s o hdead hpec hns hdown hreset hroom hstack => ?warm, fun s o hdead hpec hns hdown hreset hroom => ?cold, fun s o hdead hpec hns hroom => ?shutdown⟩
  case mute =>
    have hop : s.begin.svcDo o (·.svcAction 0 0xC3A5) = (((s.begin.toNs 5000000).setF F.BIN_STATUS_MUTED 1).raise 0x0103 0).emit (.svc 0 []) :=
      svcDo_action (s := s.begin) (by decide) hdead hpec (mute_of_unmuted ((on_toNs s.begin _ _).trans hmuted)) rfl
    refine completes_of_frame (op := (·.svcDo o (·.svcAction 0 0xC3A5))) rfl hop
      ((((frame_toNs s.begin 5000000).trans (frame_muted _ 1 0x0103)).trans (frame_emit _ _)).mono (by simp) (by simp) (by simp)) (.inr (by simp))
      fun hkeeps => ⟨?_, ?_, ?_, rfl, hkeeps⟩
    · exact on_setF_one (s.begin.toNs 5000000) (x := F.BIN_STATUS_MUTED) (by decide) rfl
    · exact (on_setF_status (s.begin.toNs 5000000) (i := 0) (j := 1) 1 (by decide) (by decide)).trans (on_toNs _ _ _)
    · exact finish_logged rfl ⟨rfl, rfl⟩ (by decide) (by decide)
  case unmute =>
    have hop : s.begin.svcDo o (·.svcAction 1 0xC3A5) = (((s.begin.toNs 5000000).setF F.BIN_STATUS_MUTED 0).raise 0x0104 0).emit (.svc 0 []) :=
      svcDo_action (s := s.begin) (by decide) hdead hpec (unmute_of_muted ((on_toNs s.begin _ _).trans hhold) ((on_toNs s.begin _ _).trans hmuted)) rfl
    refine completes_of_frame (op := (·.svcDo o (·.svcAction 1 0xC3A5))) rfl hop
      ((((frame_toNs s.begin 5000000).trans (frame_muted _ 0 0x0104)).trans (frame_emit _ _)).mono (by simp) (by simp) (by simp)) (.inr (by simp))
      fun hkeeps => ⟨?_, ?_, rfl, hkeeps⟩
    · exact on_setF_zero (s.begin.toNs 5000000) (x := F.BIN_STATUS_MUTED) (by decide) rfl
    · exact finish_logged rfl ⟨rfl, rfl⟩ (by decide) (by decide)
  case giveUp =>
    have hroom' : (s.begin.toNs 5000000).isl.queue.length < 8 := hroom
    have h := giveUp_gaveUp 7 0xFF 0 4 hroom' ((on_toNs s.begin _ _).trans hmuted) ((on_toNs s.begin _ _).trans hhelm)
    have href : ((s.begin.toNs 5000000).giveUp 7 0xFF 0 4).refusals = s.begin.refusals := by
      rw [State.refusals, h.evNow]
      rfl
    have hop : s.begin.svcDo o (·.svcAction 2 0xC3A5) = ((s.begin.toNs 5000000).giveUp 7 0xFF 0 4).emit (.svc 0 []) :=
      svcDo_action (s := s.begin) (by decide) hdead hpec rfl href
    have hlogged : Logged [⟨0x0102, 0⟩, ⟨0x0103, 0⟩] s (((s.begin.toNs 5000000).giveUp 7 0xFF 0 4).emit (.svc 0 [])).finish := by
      refine finish_logged ?_ h.log (by decide) (by decide)
      rw [emit_evNow, h.evNow]
      rfl
    exact completes_of_frame (op := (·.svcDo o (·.svcAction 2 0xC3A5))) rfl hop
      ((((frame_toNs s.begin 5000000).trans (frame_giveUp 7 0xFF 0 4 hroom')).trans (frame_emit _ _)).mono (by simp) (by simp) (by simp)) (.inr (by simp))
      fun hkeeps => ⟨h.muted, h.hold, h.helm, h.twin, h.givenUp, h.queue, hlogged, congrArg (· ++ [Out.svc 0 []]) h.out, hkeeps⟩
  case warm =>
    have hat : (s.begin.toNs 5000000).clk.ns = s.clk.ns := toNs_ns_past (s := s.begin) hns
    have hdown' : (s.begin.toNs 5000000).on F.BIN_STATUS_SHUTDOWN = false := (on_toNs s.begin _ _).trans hdown
    obtain ⟨hr, hs, hq⟩ := resetTrigger_from (v := s.begin.toNs 5000000) (kind := 2) (source := 4) hdown' hreset hroom (fun _ => hstack)
      (frame_toNs s.begin 5000000) (by decide) (by simp) (by decide)
    have h := hr.finish
    rw [hat] at h
    have hbit : (s.begin.toNs 5000000).binCmd 4 (binCmdWord 3) = (s.begin.toNs 5000000).resetTrigger 2 4 := if_neg (ne_true_of_eq_false hdown')
    have href : ((s.begin.toNs 5000000).resetTrigger 2 4).refusals = s.begin.refusals := by
      rw [resetTrigger_now hdown' hreset hroom (fun _ => hstack)]
      rfl
    exact run_of (op := (·.svcDo o (·.svcAction 3 0xC3A5))) (svcDo_action (s := s.begin) (by decide) hdead hpec hbit href) h.pending h.keys
      ⟨h.core, h.island, h.fns, h.cause, h.reset, h.stage, h.mem, h.souv, h.keys, h.flash, h.pending, h.run, h.ns, hq, hs.muted, hs.hold, hs.helm, h.givenUp,
        List.getLast?_concat⟩
  case cold =>
    have hat : (s.begin.toNs 5000000).clk.ns = s.clk.ns := toNs_ns_past (s := s.begin) hns
    have hdown' : (s.begin.toNs 5000000).on F.BIN_STATUS_SHUTDOWN = false := (on_toNs s.begin _ _).trans hdown
    have hkind : 1 = 2 → (s.begin.toNs 5000000).anyStack = false := fun hk => absurd hk (by decide)
    obtain ⟨hr, hs, hq⟩ := resetTrigger_from (v := s.begin.toNs 5000000) (kind := 1) (source := 4) hdown' hreset hroom hkind
      (frame_toNs s.begin 5000000) (by decide) (by simp) (by decide)
    have h := hr.finish
    rw [hat] at h
    have hbit : (s.begin.toNs 5000000).binCmd 4 (binCmdWord 4) = (s.begin.toNs 5000000).resetTrigger 1 4 := if_neg (ne_true_of_eq_false hdown')
    have href : ((s.begin.toNs 5000000).resetTrigger 1 4).refusals = s.begin.refusals := by
      rw [resetTrigger_now hdown' hreset hroom hkind]
      rfl
    exact run_of (op := (·.svcDo o (·.svcAction 4 0xC3A5))) (svcDo_action (s := s.begin) (by decide) hdead hpec hbit href) h.pending h.keys
      ⟨h.core, h.island, h.fns, h.cause, h.reset, h.stage, h.mem, h.souv, h.keys, h.flash, h.pending, h.run, h.ns, hq, hs.muted, hs.hold, hs.helm, h.givenUp,
        List.getLast?_concat⟩
  case shutdown =>
    have hroom' : (s.begin.toNs 5000000).isl.queue.length < 8 := hroom
    have hshut := shutdown_from 5 0x0106 s.isl.hot true hroom'
    have h := hshut.finish
    have hlost := (hshut.toCoreLost.of_frame (frame_toNs s.begin 5000000) (by decide))
    have hop : s.begin.svcDo o (·.svcAction 5 0xC3A5) = ((s.begin.toNs 5000000).shutdown 5 0x0106 s.isl.hot true).emit (.svc 0 []) :=
      svcDo_action (s := s.begin) (by decide) hdead hpec rfl (shutdown_refusals _ _ _ _)
    have hisland (a : Nat) (hkept : islandKept a = true) (hin : a ∉ [R.BIN_STATUS, R.BIN_FAULT]) :=
      (hshut.island a hkept hin).trans (rd_toNs s.begin 5000000 a)
    exact run_of (op := (·.svcDo o (·.svcAction 5 0xC3A5))) hop hlost.pending hlost.keys
      ⟨h.core, hisland, h.fns, h.down, h.givenUp, h.muted, h.helm, shutdown_queue 5 0x0106 s.isl.hot true hroom', h.pwrGood, h.reset, h.mem, h.souv,
        h.keys, h.flash, h.pending, h.run, (shutdown_flags 5 0x0106 s.isl.hot true hroom').2.trans (Bool.or_true _), List.getLast?_concat⟩

end Sys2Proof.Machine
end

section
/-!
SUPPORT. One waiting request of Sextant, and a reply that fits one datagram (R408, R411, R413).
-/

namespace Sys2Proof.Machine

/-- The requests that waited are gone. -/
def State.sxTaken (s : State) : State := { s with sx := { s.sx with msgs := [] } }

theorem frame_sxTaken (s : State) : Frame [] [] [.sx] s s.sxTaken := frame_sx s _

/-- The one waiting request is served. -/
theorem sxServe_one {s : State} {m : SxMsg} {ty : Nat} {ok : List Nat → Bool} (hm : s.sx.msgs = [m]) (hty : m.ty = ty) (hok : ok m.body = true)
    (op : State → SxMsg → State) : s.sxServe ty ok op = op s.sxTaken m := by
  simp [State.sxServe, State.sxNext, State.sxTaken, hm, hty, hok]

theorem sxCut_short {l : List Nat} (h : l.length ≤ 1400) (n : Nat) : sxCut n l = [l] := by
  cases n with
  | zero => rfl
  | succ n => rw [sxCut, if_pos h]

/-- A body of at most 1,400 bytes goes in one datagram to a client on a management port. -/
theorem sxSend_short {s : State} {src : SxFrom} {body : List Nat} (hsrc : src.relay = none) (hlen : body.length ≤ 1400) (ver flags ty seq : Nat) :
    s.sxSend src ver flags ty seq body = s.emit (.datagram src.mgt src.ip src.udp (s.sxGram ver flags ty seq 128 body)) := by
  simp [State.sxSend, sxCut_short hlen, State.sxOut, hsrc]

/-- The same for a reply with its status. -/
theorem sxReply_short {s : State} {m : SxMsg} {body : List Nat} (hsrc : m.src.relay = none) (hlen : body.length ≤ 1396) (status : Nat) :
    s.sxReply m status body = s.emit (.datagram m.src.mgt m.src.ip m.src.udp (s.sxGram m.ver 1 m.ty m.seq 128 (leBytes status 4 ++ body))) := by
  refine sxSend_short hsrc ?_ m.ver 1 m.ty m.seq
  rw [List.length_append, leBytes_length]
  omega

/-- The acknowledgement of a request. -/
theorem sxReply_nil {s : State} {m : SxMsg} (hsrc : m.src.relay = none) (status : Nat) :
    s.sxReply m status [] = s.emit (.datagram m.src.mgt m.src.ip m.src.udp (s.sxGram m.ver 1 m.ty m.seq 128 (leBytes status 4))) := by
  rw [sxReply_short hsrc (Nat.zero_le _), List.append_nil]

/-- What a datagram says of the module: its MID, its key and its BOOT_ID. -/
theorem sxGram_congr {s t : State} (hkey : t.cfg.key = s.cfg.key) (hpins : t.pins.mid = s.pins.mid) (hboot : t.rd R.BIN_SX_BOOT_ID = s.rd R.BIN_SX_BOOT_ID)
    (ver flags ty seq frag : Nat) (body : List Nat) : t.sxGram ver flags ty seq frag body = s.sxGram ver flags ty seq frag body := by
  simp only [State.sxGram, State.sxTag, State.mgmtKey, State.keyId, State.rdn, hkey, hpins, hboot]

/-- An operation that leaves those sends the same datagrams. -/
theorem Frame.sxGram_eq {regs fns : List Nat} {parts : List Part} {s t : State} (h : Frame regs fns parts s t) (hcfg : .cfg ∉ parts) (hpins : .pins ∉ parts)
    (hboot : R.BIN_SX_BOOT_ID ∉ regs) (ver flags ty seq frag : Nat) (body : List Nat) : t.sxGram ver flags ty seq frag body = s.sxGram ver flags ty seq frag body :=
  sxGram_congr (congrArg CfgSt.key (h.part (p := .cfg) hcfg)) (congrArg PinSt.mid (h.part (p := .pins) hpins)) (h.1 _ hboot) ver flags ty seq frag body

end Sys2Proof.Machine
end

section
/-!
PROOFS. The resets and the Binnacle actions of Sextant (R413).
-/

namespace Sys2Proof.Machine

/-- The datagram that acknowledges a request. -/
def State.sxAck (s : State) (m : SxMsg) : Out := .datagram m.src.mgt m.src.ip m.src.udp (s.sxGram m.ver 1 m.ty m.seq 128 (leBytes 0 4))

/-- A reset is acknowledged before it starts. -/
theorem sxReset_one {s : State} {m : SxMsg} {code : Nat} (kind : Nat) (hm : s.sx.msgs = [m]) (hsrc : m.src.relay = none) (hty : m.ty = 0x20)
    (hcode : leNat m.body 0 2 = code) : s.sxReset code kind = (s.sxTaken.emit (s.sxAck m)).resetTrigger kind 3 := by
  rw [State.sxReset, sxServe_one hm hty (by simp [hcode]), sxReply_nil hsrc]
  rfl

/-- The Binnacle action of a code. -/
def State.sxAction (s : State) (code : Nat) : State :=
  match code with
  | 1 => s.mute false
  | 2 => s.unmute
  | _ => s.giveUp 7 0xFF 0 3

/-- A Binnacle action that is not refused is acknowledged after it. -/
theorem sxBinnacle_one {s t : State} {m : SxMsg} {code : Nat} (hm : s.sx.msgs = [m]) (hsrc : m.src.relay = none) (hty : m.ty = 0x21)
    (hcode : leNat m.body 0 4 = code) (ht : s.sxTaken.sxAction code = t) (href : t.refusals = s.refusals) : s.sxBinnacle code = t.emit (t.sxAck m) := by
  have href' : t.refusals = s.sxTaken.refusals := href
  have hserve : s.sxBinnacle code = (s.sxTaken.sxAction code).sxReply m (if (s.sxTaken.sxAction code).refusals = s.sxTaken.refusals then sxOk else sxRefused) [] :=
    sxServe_one hm hty (by simp [hcode]) _
  rw [hserve, ht, if_pos href', sxReply_nil hsrc]
  rfl

/-- What an acknowledged reset leaves. -/
theorem sxReset_from {s : State} {m : SxMsg} {kind : Nat} (hkind : kind ≤ 2) (hdown : s.on F.BIN_STATUS_SHUTDOWN = false) (hreset : s.cfg.reset = none)
    (hroom : s.isl.queue.length < 8) (hstack : kind = 2 → s.anyStack = false) :
    ResetFrom s kind 3 s.clk.ns ((s.sxTaken.emit (s.sxAck m)).resetTrigger kind 3).finish ∧
    Silenced ((s.sxTaken.emit (s.sxAck m)).resetTrigger kind 3) ∧
    ((s.sxTaken.emit (s.sxAck m)).resetTrigger kind 3).isl.queue.map FaultRec.brief = s.isl.queue.map FaultRec.brief ++ [(11, kind + 4 * 3)] ∧
    (s.out = [] → ((s.sxTaken.emit (s.sxAck m)).resetTrigger kind 3).out.head? = some (s.sxAck m)) := by
  obtain ⟨hr, hs, hq⟩ := resetTrigger_from (v := s.sxTaken.emit (s.sxAck m)) (kind := kind) (source := 3) hdown hreset hroom hstack
    ((frame_sxTaken s).trans (frame_emit _ _)) (by decide) (by simp) (by omega)
  refine ⟨hr.finish, hs, hq, fun hout => ?_⟩
  obtain ⟨l, hl⟩ := resetTrigger_out (v := s.sxTaken.emit (s.sxAck m)) (kind := kind) (source := 3) hdown hreset hroom hstack
  have hfirst : (s.sxTaken.emit (s.sxAck m)).out = [s.sxAck m] := congrArg (· ++ [s.sxAck m]) hout
  rw [hl, hfirst]
  rfl

/-- Settles O52: each request is acknowledged, before a reset and after an action of the island. -/
theorem sextantActionCommandsComplete : Obligations.SextantActionCommandsComplete := by
  unfold Obligations.SextantActionCommandsComplete
  refine ⟨fun s m hm hsrc hty hcode hdown hreset hroom hstack => ?warm, fun s m hm hsrc hty hcode hdown hreset hroom => ?cold,
    fun s m hm hsrc hty hcode hmuted => ?mute, fun s m hm hsrc hty hcode hmuted hhold => ?unmute, fun s m hm hsrc hty hcode hroom hmuted hhelm => ?giveUp⟩
  case warm =>
    obtain ⟨h, hs, hq, hout⟩ := sxReset_from (s := s.begin) (m := m) (kind := 2) (by decide) hdown hreset hroom (fun _ => hstack)
    exact run_of (op := (·.sxReset 1 2)) (sxReset_one (s := s.begin) 2 hm hsrc hty hcode) h.pending h.keys
      ⟨h.core, h.island, h.fns, h.cause, h.reset, h.stage, h.mem, h.souv, h.keys, h.flash, h.pending, h.run, h.ns, hq, hs.muted, hs.hold, hs.helm, h.givenUp, hout rfl⟩
  case cold =>
    obtain ⟨h, hs, hq, hout⟩ := sxReset_from (s := s.begin) (m := m) (kind := 1) (by decide) hdown hreset hroom (fun hkind => absurd hkind (by decide))
    exact run_of (op := (·.sxReset 2 1)) (sxReset_one (s := s.begin) 1 hm hsrc hty hcode) h.pending h.keys
      ⟨h.core, h.island, h.fns, h.cause, h.reset, h.stage, h.mem, h.souv, h.keys, h.flash, h.pending, h.run, h.ns, hq, hs.muted, hs.hold, hs.helm, h.givenUp, hout rfl⟩
  case mute =>
    have hop := sxBinnacle_one (s := s.begin) hm hsrc hty hcode (mute_of_unmuted (s := s.begin.sxTaken) hmuted) rfl
    refine completes_of_frame (op := (·.sxBinnacle 1)) rfl hop
      ((((frame_sxTaken s.begin).trans (frame_muted _ 1 0x0103)).trans (frame_emit _ _)).mono (by simp) (by simp) (by simp)) (.inr (by simp))
      fun hkeeps => ⟨?_, ?_, ?_, rfl, hkeeps⟩
    · exact on_setF_one s.begin.sxTaken (x := F.BIN_STATUS_MUTED) (by decide) rfl
    · exact finish_logged rfl ⟨rfl, rfl⟩ (by decide) (by decide)
    · refine congrArg (fun l => [Out.datagram _ _ _ l]) ?_
      exact ((frame_sxTaken s.begin).trans (frame_muted _ 1 0x0103)).sxGram_eq (by simp) (by simp) (by decide) _ _ _ _ _ _
  case unmute =>
    have hop := sxBinnacle_one (s := s.begin) hm hsrc hty hcode (unmute_of_muted (s := s.begin.sxTaken) hhold hmuted) rfl
    refine completes_of_frame (op := (·.sxBinnacle 2)) rfl hop
      ((((frame_sxTaken s.begin).trans (frame_muted _ 0 0x0104)).trans (frame_emit _ _)).mono (by simp) (by simp) (by simp)) (.inr (by simp))
      fun hkeeps => ⟨?_, ?_, ?_, rfl, hkeeps⟩
    · exact on_setF_zero s.begin.sxTaken (x := F.BIN_STATUS_MUTED) (by decide) rfl
    · exact finish_logged rfl ⟨rfl, rfl⟩ (by decide) (by decide)
    · refine congrArg (fun l => [Out.datagram _ _ _ l]) ?_
      exact ((frame_sxTaken s.begin).trans (frame_muted _ 0 0x0104)).sxGram_eq (by simp) (by simp) (by decide) _ _ _ _ _ _
  case giveUp =>
    have h := giveUp_gaveUp (s := s.begin.sxTaken) 7 0xFF 0 3 hroom hmuted hhelm
    have hframe := (frame_sxTaken s.begin).trans (frame_giveUp (s := s.begin.sxTaken) 7 0xFF 0 3 hroom)
    have href : (s.begin.sxTaken.giveUp 7 0xFF 0 3).refusals = s.begin.refusals := by
      rw [State.refusals, h.evNow]
      rfl
    have hop := sxBinnacle_one (s := s.begin) (t := s.begin.sxTaken.giveUp 7 0xFF 0 3) hm hsrc hty hcode rfl href
    have hlogged : Logged [⟨0x0102, 0⟩, ⟨0x0103, 0⟩] s ((s.begin.sxTaken.giveUp 7 0xFF 0 3).emit ((s.begin.sxTaken.giveUp 7 0xFF 0 3).sxAck m)).finish := by
      refine finish_logged ?_ h.log (by decide) (by decide)
      rw [emit_evNow, h.evNow]
      rfl
    refine completes_of_frame (op := (·.sxBinnacle 3)) rfl hop ((hframe.trans (frame_emit _ _)).mono (by simp) (by simp) (by simp)) (.inr (by simp))
      fun hkeeps => ⟨h.muted, h.hold, h.helm, h.givenUp, h.queue, hlogged, ?_, ?_, hkeeps⟩
    · have hack : (s.begin.sxTaken.giveUp 7 0xFF 0 3).sxAck m = s.sxAck m :=
        congrArg (Out.datagram _ _ _) (hframe.sxGram_eq (by simp) (by simp) (by decide) _ _ _ _ _ _)
      rw [hack]
      exact congrArg (· ++ [s.sxAck m]) h.out
    · exact (frame_giveUp (s := s.begin.sxTaken) 7 0xFF 0 3 hroom).part (p := .sx) (by decide)

end Sys2Proof.Machine
end

section
/-!
SUPPORT. The words of the Souvenir store (R386, R400).
-/

namespace Sys2Proof.Machine

theorem frame_svPut (s : State) (w v : Nat) : Frame [] [] [.souv] s (s.svPut w v) := by
  unfold State.svPut
  split
  · exact frame_souv s _
  · exact (Frame.refl s).mono (by simp) (by simp) (by simp)

@[simp] theorem evNow_svPut (s : State) (w v : Nat) : (s.svPut w v).evNow = s.evNow := by
  unfold State.svPut
  split <;> rfl

/-! ## The end of a command -/

@[simp] theorem sv_finish (s : State) (w : Nat) : s.finish.sv w = s.sv w := rfl
@[simp] theorem svf_finish (s : State) (w hi lo : Nat) : s.finish.svf w hi lo = s.svf w hi lo := rfl
@[simp] theorem svBytes_finish (s : State) (w n : Nat) : s.finish.svBytes w n = s.svBytes w n := rfl
@[simp] theorem sv_begin (s : State) (w : Nat) : s.begin.sv w = s.sv w := rfl
@[simp] theorem svf_begin (s : State) (w hi lo : Nat) : s.begin.svf w hi lo = s.svf w hi lo := rfl
@[simp] theorem svBytes_begin (s : State) (w n : Nat) : s.begin.svBytes w n = s.svBytes w n := rfl

/-! ## Word writes -/

/-- An operation that leaves the store leaves its words. -/
theorem Frame.sv_eq {regs fns : List Nat} {parts : List Part} {s t : State} (h : Frame regs fns parts s t) (hsouv : .souv ∉ parts) (w : Nat) : t.sv w = s.sv w :=
  congrArg (fun souv => Tab.get (fun _ => 0) souv w) (h.part (p := .souv) hsouv)

theorem Frame.svf_eq {regs fns : List Nat} {parts : List Part} {s t : State} (h : Frame regs fns parts s t) (hsouv : .souv ∉ parts) (w hi lo : Nat) :
    t.svf w hi lo = s.svf w hi lo := by
  rw [State.svf, State.svf, h.sv_eq hsouv]

/-- What a word of the store holds after a word write. -/
theorem sv_svPut {s : State} {w : Nat} (hw : w < 8192) (v x : Nat) : (s.svPut w v).sv x = if x = w then v % 2 ^ 64 else s.sv x := by
  rw [State.svPut, if_pos hw]
  exact Tab.get_put (fun _ => 0) s.souv x w (v % 2 ^ 64)

theorem sv_svPut_ne (s : State) {w x : Nat} (h : x ≠ w) (v : Nat) : (s.svPut w v).sv x = s.sv x := by
  unfold State.svPut
  split
  · exact Tab.get_put_ne (fun _ => 0) s.souv _ h
  · rfl

/-- The bytes of a word as the store holds it. -/
theorem leBytes_mod (v n : Nat) : leBytes (v % 2 ^ (8 * n)) n = leBytes v n := by
  induction n generalizing v with
  | zero => rfl
  | succ n ih =>
    have hlow : v % 2 ^ (8 * (n + 1)) % 256 = v % 256 := Nat.mod_mod_of_dvd v (Nat.pow_dvd_pow 2 (show 8 ≤ 8 * (n + 1) by omega))
    have hhigh : v % 2 ^ (8 * (n + 1)) / 256 = v / 256 % 2 ^ (8 * n) := by
      rw [show 8 * (n + 1) = 8 + 8 * n by omega, Nat.pow_add, show (2 : Nat) ^ 8 = 256 from rfl, Nat.mod_mul_right_div_self]
    rw [leBytes, leBytes, hlow, hhigh, ih]

/-- Consecutive words written in turn. -/
theorem frame_svPuts (s : State) (w : Nat) (g : Nat → Nat) (n : Nat) :
    Frame [] [] [.souv] s ((List.range n).foldl (fun (t : State) j => t.svPut (w + j) (g j)) s) := by
  induction n with
  | zero => exact (Frame.refl s).mono (by simp) (by simp) (by simp)
  | succ n ih =>
    rw [List.range_succ, List.foldl_append]
    exact (ih.trans (frame_svPut _ _ _)).mono (by simp) (by simp) (by simp)

theorem evNow_svPuts (s : State) (w : Nat) (g : Nat → Nat) (n : Nat) :
    ((List.range n).foldl (fun (t : State) j => t.svPut (w + j) (g j)) s).evNow = s.evNow := by
  induction n with
  | zero => rfl
  | succ n ih => simpa [List.range_succ] using ih

theorem sv_svPuts (s : State) {w n : Nat} (hw : w + n ≤ 8192) (g : Nat → Nat) (x : Nat) :
    ((List.range n).foldl (fun (t : State) j => t.svPut (w + j) (g j)) s).sv x = if w ≤ x ∧ x < w + n then g (x - w) % 2 ^ 64 else s.sv x := by
  induction n with
  | zero => simp
  | succ n ih =>
    rw [List.range_succ, List.foldl_append, List.foldl_cons, List.foldl_nil, sv_svPut (by omega), ih (by omega)]
    by_cases hx : x = w + n
    · subst hx
      simp
    · by_cases hin : w ≤ x ∧ x < w + n
      · rw [if_neg hx, if_pos hin, if_pos (by omega)]
      · rw [if_neg hx, if_neg hin, if_neg (by omega)]

end Sys2Proof.Machine
end

section
/-!
SUPPORT. The samples of the sensors while nothing is hot and no monitor unit runs (R398, R429).
-/

namespace Sys2Proof.Machine

/-! ## The die sensors -/

/-- The registers of die sensors `n` and on. -/
def senseRegs (n k : Nat) : List Nat := (List.range' n k).map R.CAL_SENSE

theorem senseRegs_low {n k : Nat} (h : n + k ≤ 8) : ∀ a ∈ senseRegs n k, a < 0x170000 := by
  simp only [senseRegs, List.mem_map, List.mem_range'_1]
  rintro a ⟨x, hx, rfl⟩
  simp only [R.CAL_SENSE]
  omega

/-- A die sensor's byte. -/
theorem dieRead_noMon {s : State} (h : s.NoMon) {x : Nat} (hx : x < 8) (t : Int) : s.sensorRead (64 + x) t =
    s.wrn (R.CAL_SENSE x) (setBits (s.rdn (R.CAL_SENSE x)) 7 0 (ofSigned 8 (clampI (-128) 127 (sar (s.sensed (64 + x) t) 3)))) := by
  have hreg : senseReg (64 + x) = R.CAL_SENSE x := by simp [senseReg]
  have hquiet (v : Nat) : (s.wrn (R.CAL_SENSE x) v).NoMon :=
    (frame_wrn s (R.CAL_SENSE x) v).noMon (senseRegs_low (n := x) (k := 1) (by omega)) h
  simp only [State.sensorRead, hreg]
  exact probe_noMon (hquiet _) _ _ _

/-- The die sensors from `n` on take their samples. -/
def State.dieSamples (s : State) (l : List Int) (n : Nat) : State := (l.zipIdx n).foldl (fun (t : State) e => t.sensorRead (64 + e.2) e.1) s

theorem frame_dieSamples {s : State} (h : s.NoMon) {l : List Int} {n : Nat} (hn : n + l.length ≤ 8) :
    Frame (senseRegs n l.length) [] [] s (s.dieSamples l n) ∧ (s.dieSamples l n).evNow = s.evNow := by
  induction l generalizing s n with
  | nil => exact ⟨Frame.refl s, rfl⟩
  | cons t l ih =>
    rw [List.length_cons] at hn
    have hframe := frame_wrn s (R.CAL_SENSE n) (setBits (s.rdn (R.CAL_SENSE n)) 7 0 (ofSigned 8 (clampI (-128) 127 (sar (s.sensed (64 + n) t) 3))))
    rw [← dieRead_noMon h (by omega)] at hframe
    obtain ⟨hrest, hev⟩ := ih (s := s.sensorRead (64 + n) t) (n := n + 1) (hframe.noMon (senseRegs_low (n := n) (k := 1) (by omega)) h) (by omega)
    refine ⟨(hframe.trans hrest).mono (List.append_subset.mpr ⟨?_, ?_⟩) (by simp) (by simp), hev.trans ?_⟩
    · simp [senseRegs, List.range'_succ]
    · rw [senseRegs, senseRegs, List.length_cons, List.range'_succ, List.map_cons]
      exact List.subset_cons_self _ _
    · rw [dieRead_noMon h (by omega)]
      rfl

theorem sensed_of_rd {s t : State} {x : Nat} (h : t.rd (R.CAL_SENSE x) = s.rd (R.CAL_SENSE x)) (v : Int) : t.sensed (64 + x) v = s.sensed (64 + x) v := by
  have hreg : senseReg (64 + x) = R.CAL_SENSE x := by simp [senseReg]
  simp only [State.sensed, hreg, State.rdn, h]

theorem ofSigned_lt (w : Nat) (i : Int) : ofSigned w i < 2 ^ w := by
  have hpos : (0 : Int) < (2 ^ w : Nat) := by exact_mod_cast Nat.two_pow_pos w
  have hlt := Int.emod_lt_of_pos i hpos
  have hge := Int.emod_nonneg i hpos.ne'
  rw [ofSigned]
  omega

/-- Each of them shows its sample. -/
theorem dieSamples_byte {s : State} (h : s.NoMon) {l : List Int} {n x : Nat} (hn : n + l.length ≤ 8) (hx : n ≤ x) (hlt : x < n + l.length) :
    bitsOf ((s.dieSamples l n).rdn (R.CAL_SENSE x)) 7 0 = ofSigned 8 (clampI (-128) 127 (sar (s.sensed (64 + x) (l.getD (x - n) 0)) 3)) := by
  induction l generalizing s n with
  | nil => exact absurd hlt (by simp; omega)
  | cons t l ih =>
    rw [List.length_cons] at hn hlt
    have hread := dieRead_noMon h (show n < 8 by omega) t
    have hframe := frame_wrn s (R.CAL_SENSE n) (setBits (s.rdn (R.CAL_SENSE n)) 7 0 (ofSigned 8 (clampI (-128) 127 (sar (s.sensed (64 + n) t) 3))))
    rw [← hread] at hframe
    have hquiet := hframe.noMon (senseRegs_low (n := n) (k := 1) (by omega)) h
    by_cases hxn : x = n
    · subst hxn
      have hout : R.CAL_SENSE x ∉ senseRegs (x + 1) l.length := by
        simp only [senseRegs, List.mem_map, List.mem_range'_1, R.CAL_SENSE]
        omega
      have hrd : (s.dieSamples (t :: l) x).rd (R.CAL_SENSE x) = (s.sensorRead (64 + x) t).rd (R.CAL_SENSE x) :=
        (frame_dieSamples hquiet (n := x + 1) (by omega)).1.1 _ hout
      rw [State.rdn, hrd, hread, ← State.rdn, rdn_wrn_same, bitsOf_mod _ _ _ _ (by decide), bitsOf_setBits_same, Nat.sub_self, List.getD_cons_zero]
      exact Nat.mod_eq_of_lt (ofSigned_lt 8 _)
    · have hrest : bitsOf (((s.sensorRead (64 + n) t).dieSamples l (n + 1)).rdn (R.CAL_SENSE x)) 7 0 = _ :=
        ih hquiet (by omega) (by omega) (by omega)
      have hkept : (s.sensorRead (64 + n) t).rd (R.CAL_SENSE x) = s.rd (R.CAL_SENSE x) :=
        hframe.1 _ (by simp only [List.mem_singleton, R.CAL_SENSE]; omega)
      have hget : (t :: l).getD (x - n) 0 = l.getD (x - (n + 1)) 0 := by
        rw [show x - n = x - (n + 1) + 1 by omega, List.getD_cons_succ]
      rw [hget, ← sensed_of_rd hkept]
      exact hrest

/-! ## The core's sensors, with no rail sampled -/

/-- A list of probes samples nothing. -/
theorem probes_noMon {s : State} (h : s.NoMon) (r : List (Int × Nat)) :
    r.foldl (fun (t : State) e => t.probe 8 (fun x => x == 72 + e.2) e.1) s = s := by
  induction r with
  | nil => rfl
  | cons e r ih => rw [List.foldl_cons, probe_noMon h, ih]

theorem coreSensors_noMon {s : State} (h : s.NoMon) {d : List Int} (hd : d.length ≤ 8) (l : List Int) (v w : Nat) :
    s.coreSensors d l v w [] = s.dieSamples d 0 := by
  have hquiet : (s.dieSamples d 0).NoMon := (frame_dieSamples h (n := 0) (by omega)).1.noMon (senseRegs_low (by omega)) h
  have hhbm (r : List (Int × Nat)) : r.foldl (fun (t : State) e => t.probe 8 (fun x => x == 72 + e.2) e.1) (s.dieSamples d 0) = s.dieSamples d 0 :=
    probes_noMon hquiet r
  have hfold : d.zipIdx.foldl (fun (t : State) e => t.sensorRead (64 + e.2) e.1) s = s.dieSamples d 0 := rfl
  simp only [State.coreSensors, hfold, hhbm, probe_noMon hquiet, List.zipIdx_nil, List.foldl_nil]

/-! ## A calm sample -/

/-- The island's registers show the hottest readings and the supplies. -/
def State.supplyShown (s : State) (hot hot15 v w : Nat) : State :=
  ((((s.setF F.BIN_TEMP_HOTTEST hot).setF F.BIN_TEMP_HOTTEST_15 hot15).setF F.BIN_VIN_VIN v).setF F.BIN_VIN_VSTBY w).setF F.BIN_STATUS_VSTBY (if 0 < w then 1 else 0)

theorem frame_supplyShown (s : State) (hot hot15 v w : Nat) : Frame [R.BIN_TEMP, R.BIN_VIN, R.BIN_STATUS] [] [] s (s.supplyShown hot hot15 v w) :=
  (((((frame_setF s F.BIN_TEMP_HOTTEST hot).trans (frame_setF _ F.BIN_TEMP_HOTTEST_15 hot15)).trans (frame_setF _ F.BIN_VIN_VIN v)).trans
    (frame_setF _ F.BIN_VIN_VSTBY w)).trans (frame_setF _ F.BIN_STATUS_VSTBY _)).mono (by simp) (by simp) (by simp)

@[simp] theorem evNow_supplyShown (s : State) (hot hot15 v w : Nat) : (s.supplyShown hot hot15 v w).evNow = s.evNow := by
  rw [State.supplyShown, setF_evNow, setF_evNow, setF_evNow, setF_evNow, setF_evNow]

theorem supplyShown_fields {s : State} {hot hot15 v w : Nat} (hh : hot < 256) (hh15 : hot15 < 256) (hv : v < 65536) (hw : w < 65536) :
    (s.supplyShown hot hot15 v w).f F.BIN_TEMP_HOTTEST = hot ∧ (s.supplyShown hot hot15 v w).f F.BIN_TEMP_HOTTEST_15 = hot15 ∧
    (s.supplyShown hot hot15 v w).f F.BIN_VIN_VIN = v ∧ (s.supplyShown hot hot15 v w).f F.BIN_VIN_VSTBY = w ∧
    (s.supplyShown hot hot15 v w).on F.BIN_STATUS_VSTBY = decide (0 < w) := by
  unfold State.supplyShown
  refine ⟨?_, ?_, ?_, ?_, ?_⟩
  · rw [f_setF_addr _ (x := F.BIN_STATUS_VSTBY) _ (by decide), f_setF_addr _ (x := F.BIN_VIN_VSTBY) _ (by decide), f_setF_addr _ (x := F.BIN_VIN_VIN) _ (by decide),
      f_setF_bits _ (x := F.BIN_TEMP_HOTTEST_15) (y := F.BIN_TEMP_HOTTEST) _ rfl (by decide) (by decide) (by decide), f_setF_same _ F.BIN_TEMP_HOTTEST _ (by decide)]
    exact Nat.mod_eq_of_lt hh
  · rw [f_setF_addr _ (x := F.BIN_STATUS_VSTBY) _ (by decide), f_setF_addr _ (x := F.BIN_VIN_VSTBY) _ (by decide), f_setF_addr _ (x := F.BIN_VIN_VIN) _ (by decide),
      f_setF_same _ F.BIN_TEMP_HOTTEST_15 _ (by decide)]
    exact Nat.mod_eq_of_lt hh15
  · rw [f_setF_addr _ (x := F.BIN_STATUS_VSTBY) _ (by decide),
      f_setF_bits _ (x := F.BIN_VIN_VSTBY) (y := F.BIN_VIN_VIN) _ rfl (by decide) (by decide) (by decide), f_setF_same _ F.BIN_VIN_VIN _ (by decide)]
    exact Nat.mod_eq_of_lt hv
  · rw [f_setF_addr _ (x := F.BIN_STATUS_VSTBY) _ (by decide), f_setF_same _ F.BIN_VIN_VSTBY _ (by decide)]
    exact Nat.mod_eq_of_lt hw
  · by_cases hpos : 0 < w
    · rw [if_pos hpos, decide_eq_true hpos]
      exact on_setF_one _ (x := F.BIN_STATUS_VSTBY) (by decide) rfl
    · rw [if_neg hpos, decide_eq_false hpos]
      exact on_setF_zero _ (x := F.BIN_STATUS_VSTBY) (by decide) rfl

/-- The state with another island. -/
def State.putIsl (s : State) (x : IslandSt) : State := { s with isl := x }

theorem frame_putIsl (s : State) (x : IslandSt) : Frame [] [] [.isl] s (s.putIsl x) := frame_isl s x

@[simp] theorem evNow_putIsl (s : State) (x : IslandSt) : (s.putIsl x).evNow = s.evNow := rfl

@[simp] theorem f_putIsl (s : State) (x : IslandSt) (y : Fld) : (s.putIsl x).f y = s.f y := (frame_putIsl s x).f_eq (by simp)

@[simp] theorem on_putIsl (s : State) (x : IslandSt) (y : Fld) : (s.putIsl x).on y = s.on y := (frame_putIsl s x).on_eq (by simp)

/-- A sample below WARN and SHUT with VIN at 4.5 V or more: the registers show it, and no record, mute or shutdown follows. -/
theorem sensorSample_calm {s : State} {d l : List Int} {v w i j k : Nat} {a b c : Int} (hq : s.NoMon) (hdead : s.isl.dead = false)
    (hdown : s.on F.BIN_STATUS_SHUTDOWN = false) (hd : d.length = 8) (hl : l.length = 4) (ha : hottestOf d 0 = some (i, a)) (hb : hottestOf l 8 = some (j, b))
    (hc : hottestOf (d ++ l) 0 = some (k, c)) (hwarn : c < 8 * (s.f F.BIN_THERM_WARN : Int)) (hshut : c < 8 * (s.f F.BIN_THERM_SHUT : Int)) (hv : 4500 ≤ v)
    (hv16 : v < 65536) (hw16 : w < 65536) : ∃ x : IslandSt, x.hot = k + 256 * degrees c ∧ x.hotRun = 0 ∧ x.queue = s.isl.queue ∧ x.vinLow = none ∧
    s.sensorSample d l v w [] = ((s.dieSamples d 0).supplyShown (degrees a) (degrees b) v w).putIsl x := by
  have hdie := (frame_dieSamples hq (l := d) (n := 0) (by omega)).1
  have hframe := hdie.trans (frame_supplyShown (s.dieSamples d 0) (degrees a) (degrees b) v w)
  have hout : R.BIN_THERM ∉ senseRegs 0 d.length ++ [R.BIN_TEMP, R.BIN_VIN, R.BIN_STATUS] := by
    rw [hd]
    decide
  have hwarn' : ((s.dieSamples d 0).supplyShown (degrees a) (degrees b) v w).f F.BIN_THERM_WARN = s.f F.BIN_THERM_WARN := hframe.f_eq hout
  have hshut' : ((s.dieSamples d 0).supplyShown (degrees a) (degrees b) v w).f F.BIN_THERM_SHUT = s.f F.BIN_THERM_SHUT := hframe.f_eq hout
  have hisl : ((s.dieSamples d 0).supplyShown (degrees a) (degrees b) v w).isl = s.isl := hframe.part (p := .isl) (by simp)
  have htake : d.take 8 = d := List.take_of_length_le (by omega)
  have htake' : l.take 4 = l := List.take_of_length_le (by omega)
  have hqueue := congrArg IslandSt.queue hisl
  generalize hu : (s.dieSamples d 0).supplyShown (degrees a) (degrees b) v w = u at hwarn' hshut' hqueue ⊢
  have hshown : ((((((s.dieSamples d 0).setF F.BIN_TEMP_HOTTEST (degrees a)).setF F.BIN_TEMP_HOTTEST_15 (degrees b)).setF F.BIN_VIN_VIN v).setF F.BIN_VIN_VSTBY w).setF
      F.BIN_STATUS_VSTBY (if 0 < w then 1 else 0)) = u := hu
  have hnotWarn : ¬ 8 * (s.f F.BIN_THERM_WARN : Int) ≤ c := by omega
  have hnotShut : ¬ 8 * (s.f F.BIN_THERM_SHUT : Int) ≤ c := by omega
  have hcalm : s.sensorSample d l v w [] = { u with isl := { u.isl with
      hot := k + 256 * degrees c
      coolSince := if decide (c < 8 * (u.f F.BIN_THERM_SHUT : Int) - 120) = true then some (u.isl.coolSince.getD s.clk.ns) else none
      vinSince := if (decide (5500 ≤ v) && decide (v ≤ 48000)) = true then some (u.isl.vinSince.getD s.clk.ns) else none
      vinLow := none
      hotRun := 0 } } := by
    have hthermWarn (x : IslandSt) : ({ u with isl := x } : State).f F.BIN_THERM_WARN = s.f F.BIN_THERM_WARN := ((frame_isl u x).f_eq (by simp)).trans hwarn'
    have hlow : ¬ v < 4500 := by omega
    simp only [State.sensorSample, htake, htake', hdead, hdown, Bool.false_eq_true, if_false, ha, hb, hc, coreSensors_noMon hq hd.le,
      show min 65535 v = v by omega, show min 65535 w = w by omega, hshown, hthermWarn, decide_eq_false hnotWarn, hshut', if_neg hnotShut, decide_eq_false hlow,
      Bool.false_and]
    rfl
  refine ⟨_, ?_, ?_, ?_, ?_, hcalm⟩
  · rfl
  · rfl
  · exact hqueue
  · rfl

end Sys2Proof.Machine
end

section
/-!
PROOFS. Sensors, watchdog and fault history of the Binnacle island (R398, R399, R401, R406).
-/

namespace Sys2Proof.Machine

/-! ## The fault history -/

/-- The state after the oldest record enters slot `i` of the ring with SEQ `n`. -/
def State.recordWritten (s : State) (i n : Nat) (r : FaultRec) : State :=
  ((List.range 4).foldl (fun (t : State) j => t.svPut (76 + 4 * i + j) ((r.words n).getD j 0)) s).svPut 72 ((i + 1) % 2029 + (n + 1) % 2 ^ 32 * 65536)

theorem frame_recordWritten (s : State) (i n : Nat) (r : FaultRec) : Frame [] [] [.souv] s (s.recordWritten i n r) :=
  ((frame_svPuts s (76 + 4 * i) _ 4).trans (frame_svPut _ _ _)).mono (by simp) (by simp) (by simp)

theorem sv_recordWritten {s : State} {i : Nat} (hi : i < 2029) (n : Nat) (r : FaultRec) (x : Nat) : (s.recordWritten i n r).sv x =
    if x = 72 then ((i + 1) % 2029 + (n + 1) % 2 ^ 32 * 65536) % 2 ^ 64
    else if 76 + 4 * i ≤ x ∧ x < 76 + 4 * i + 4 then (r.words n).getD (x - (76 + 4 * i)) 0 % 2 ^ 64 else s.sv x := by
  rw [State.recordWritten, sv_svPut (by omega), sv_svPuts s (show 76 + 4 * i + 4 ≤ 8192 by omega)]

/-- A list is the list of its entries. -/
theorem list_of_getD {l : List Nat} {k : Nat} (h : l.length = k) : l = (List.range k).map (fun j => l.getD j 0) := by
  refine List.ext_getElem (by simp [h]) fun j hj _ => ?_
  simp [hj]

/-- The ring then holds the bytes of the record. -/
theorem recordWritten_bytes {s : State} {i : Nat} (hi : i < 2029) (n : Nat) (r : FaultRec) :
    (s.recordWritten i n r).faultBytes i = (r.words n).flatMap (fun w => leBytes w 8) := by
  have hword (j : Nat) (hj : j < 4) : leBytes ((s.recordWritten i n r).sv (76 + 4 * i + j)) 8 = leBytes ((r.words n).getD j 0) 8 := by
    rw [sv_recordWritten hi, if_neg (by omega), if_pos (by omega), Nat.add_sub_cancel_left]
    exact leBytes_mod _ 8
  have hlist : r.words n = (List.range 4).map (fun j => (r.words n).getD j 0) := list_of_getD (by simp [FaultRec.words])
  rw [State.faultBytes, State.svBytes, hlist, List.flatMap_map]
  exact List.flatMap_congr fun j hj => hword j (List.mem_range.mp hj)

/-- The head of the ring and the next SEQ. -/
theorem recordWritten_head {s : State} {i : Nat} (hi : i < 2029) (n : Nat) (r : FaultRec) :
    (s.recordWritten i n r).svf 72 15 0 = (i + 1) % 2029 ∧ (s.recordWritten i n r).svf 72 47 16 = (n + 1) % 2 ^ 32 := by
  have hword : (s.recordWritten i n r).sv 72 = (i + 1) % 2029 + (n + 1) % 2 ^ 32 * 65536 := by
    rw [sv_recordWritten hi, if_pos rfl]
    omega
  rw [State.svf, State.svf, hword, bitsOf, bitsOf]
  omega

/-- The state whose queue of records is `l`. -/
def State.queued (s : State) (l : List FaultRec) : State := { s with isl := { s.isl with queue := l } }

theorem frame_queued (s : State) (l : List FaultRec) : Frame [] [] [.isl] s (s.queued l) := frame_isl s _

theorem faultWrite_ok {s : State} {r : FaultRec} {l : List FaultRec} (hq : s.isl.queue = r :: l) :
    s.faultWrite true = (s.queued l).recordWritten (s.svf 72 15 0) (s.svf 72 47 16) r := by
  simp only [State.faultWrite, hq, Bool.not_true, Bool.false_eq_true, if_false]
  rfl

theorem faultWrite_failed {s : State} {r : FaultRec} {l : List FaultRec} (hq : s.isl.queue = r :: l) : s.faultWrite false = (s.queued l).recordLost := by
  simp only [State.faultWrite, hq, Bool.not_false, if_true]
  rfl

theorem frame_recordLost (s : State) : Frame [R.BIN_FH_LOST, R.BIN_FAULT] [] [.isl, .log] s s.recordLost :=
  (((frame_faultSet s 10).trans (frame_bump _ R.BIN_FH_LOST)).trans (frame_raise _ 0x0109 0)).mono (by simp) (by simp) (by simp)

/-- A lost record is counted, with the bit FH_LOST. -/
theorem recordLost_regs (s : State) : s.recordLost.rdn R.BIN_FH_LOST = (s.rdn R.BIN_FH_LOST + 1) % 2 ^ 32 ∧ bitsOf (s.recordLost.rdn R.BIN_FAULT) 10 10 = 1 := by
  have hcount : (s.faultSet 10).rd R.BIN_FH_LOST = s.rd R.BIN_FH_LOST := (frame_faultSet s 10).1 _ (by decide)
  refine ⟨?_, ?_⟩
  · rw [State.recordLost, rdn_raise, rdn_bump_same, State.rdn, hcount, ← State.rdn]
  · rw [State.recordLost, rdn_raise, rdn_bump_ne _ (by decide), faultSet_fault s (by decide)]

/-! ## A supply fault -/

/-- With VIN shown, the shutdown keeps it. -/
theorem supplyFault_from {s : State} {v : Nat} (hv : v < 65536) (hroom : s.isl.queue.length < 8) :
    ShutFrom (s.setF F.BIN_VIN_VIN v) ((s.setF F.BIN_VIN_VIN v).shutdown 6 0x0107 v false) ∧ ((s.setF F.BIN_VIN_VIN v).shutdown 6 0x0107 v false).f F.BIN_VIN_VIN = v := by
  have h := shutdown_from (s := s.setF F.BIN_VIN_VIN v) 6 0x0107 v false hroom
  refine ⟨h, ?_⟩
  have hrd : ((s.setF F.BIN_VIN_VIN v).shutdown 6 0x0107 v false).rd R.BIN_VIN = (s.setF F.BIN_VIN_VIN v).rd R.BIN_VIN := h.island R.BIN_VIN (by decide) (by decide)
  rw [State.f, State.rdn, hrd]
  exact (f_setF_same s F.BIN_VIN_VIN v (by decide)).trans (Nat.mod_eq_of_lt hv)

/-! ## Recovery -/

/-- The module after a shutdown whose cause its record of cause 13 names, before the cold reset. -/
def State.restored (s : State) (detail : Nat) : State :=
  let s := (s.pushFault 13 0xFF 0 0x7F detail).setF F.BIN_STATUS_SHUTDOWN 0
  { s with isl := { s.isl with shutThermal := false, shutPower := false, shutCmd := false } }

theorem frame_restored {s : State} (hroom : s.isl.queue.length < 8) (detail : Nat) : Frame [R.BIN_FAULT, R.BIN_STATUS] [] [.log, .isl] s (s.restored detail) :=
  (((frame_pushFault 13 0xFF 0 0x7F detail hroom).trans (frame_setF _ F.BIN_STATUS_SHUTDOWN 0)).trans (frame_isl _ _)).mono (by simp) (by simp) (by simp)

theorem restored_up (s : State) (detail : Nat) : (s.restored detail).on F.BIN_STATUS_SHUTDOWN = false :=
  ((frame_isl ((s.pushFault 13 0xFF 0 0x7F detail).setF F.BIN_STATUS_SHUTDOWN 0) _).on_eq (by simp)).trans
    (on_setF_zero _ (x := F.BIN_STATUS_SHUTDOWN) (by decide) rfl)

theorem restored_queue {s : State} (hroom : s.isl.queue.length < 8) (detail : Nat) :
    (s.restored detail).isl.queue.map FaultRec.brief = s.isl.queue.map FaultRec.brief ++ [(13, detail)] := pushFault_queue 13 0xFF 0 0x7F detail hroom

/-- A module that is back from a thermal shutdown. -/
theorem recover_thermal {s : State} {source : Nat} (hthermal : s.isl.shutThermal = true) : s.recover source = (s.restored 5).resetTrigger 1 source := by
  simp only [State.recover, hthermal, Bool.true_or, if_true]
  rfl

/-- Settles O47, clause by clause. -/
theorem binnacleSensorCommandsComplete : Obligations.BinnacleSensorCommandsComplete := by
  unfold Obligations.BinnacleSensorCommandsComplete
  refine ⟨fun s i n r l hq hi hlt hn => ?record, fun s r l hq => ?lost, fun s d h v w i j k a b c hq hdead hdown hd hh ha hb hc hwarn hshut hv hv16 hw16 => ?sensor,
    fun s v rail hdead hbad hv hroom => ?supply, fun s x hdown hauto hcmd hthermal hpower hcool hreset hroom => ?recovery,
    fun s x hat haction hperiod hroom hmuted hhelm => ?expiry, fun s hd hperiod => ?kick, fun s halert => ?alert⟩
  case record =>
    have hop : s.begin.faultWrite true = (s.begin.queued l).recordWritten i n r := by
      have hat : s.begin.svf 72 15 0 = i := hi
      have hseq : s.begin.svf 72 47 16 = n := hn
      rw [faultWrite_ok (s := s.begin) hq, hat, hseq]
    obtain ⟨hhead, hseq⟩ := recordWritten_head (s := s.begin.queued l) hlt n r
    have hwritten := frame_recordWritten (s.begin.queued l) i n r
    refine completes_of_frame (op := (·.faultWrite true)) rfl hop (((frame_queued s.begin l).trans hwritten).mono (by simp) (by simp) (by simp))
      (.inl ?_) fun hkeeps => ⟨hwritten.part (p := .isl) (by simp), (svBytes_finish _ _ _).trans (recordWritten_bytes hlt n r),
        (svf_finish _ _ _ _).trans hhead, (svf_finish _ _ _ _).trans hseq, fun x hx hout => ?_, hkeeps⟩
    · rw [State.recordWritten, evNow_svPut, evNow_svPuts]
      rfl
    · rw [sv_finish, sv_recordWritten hlt, if_neg hx, if_neg (by omega), (frame_queued s.begin l).sv_eq (by simp), sv_begin]
  case lost =>
    obtain ⟨hcount, hbit⟩ := recordLost_regs (s.begin.queued l)
    exact completes_of_frame (op := (·.faultWrite false)) rfl (faultWrite_failed (s := s.begin) hq)
      (((frame_queued s.begin l).trans (frame_recordLost _)).mono (by simp) (by simp) (by simp)) (.inr (by simp))
      fun hkeeps => ⟨rfl, hcount, hbit, finish_logged rfl ⟨rfl, rfl⟩ (by decide) (by decide), hkeeps⟩
  case sensor =>
    obtain ⟨x, hhot, hrun, hqueue, hlow, hop⟩ := sensorSample_calm (s := s.begin) hq hdead hdown hd hh ha hb hc hwarn hshut hv hv16 hw16
    obtain ⟨hdie, hev⟩ := frame_dieSamples (s := s.begin) hq (l := d) (n := 0) (by omega)
    obtain ⟨hf1, hf2, hf3, hf4, hon⟩ := supplyShown_fields (s := s.begin.dieSamples d 0) (hot := degrees a) (hot15 := degrees b) (ofSigned_lt 8 _) (ofSigned_lt 8 _)
      hv16 hw16
    have hregs : senseRegs 0 d.length = (List.range 8).map R.CAL_SENSE := by rw [hd]; rfl
    rw [hregs] at hdie
    refine completes_of_frame (op := (·.sensorSample d h v w [])) rfl hop
      (((hdie.trans (frame_supplyShown _ (degrees a) (degrees b) v w)).trans (frame_putIsl _ x)).mono ?_ (by simp) (by simp)) (.inl (by rw [evNow_putIsl, evNow_supplyShown, hev]; rfl))
      fun hkeeps => ⟨?_, ?_, ?_, ?_, ?_, fun y hy => ?_, hhot, hrun, hqueue, hlow, hkeeps⟩
    · rw [List.append_nil]
      exact List.append_subset.mpr ⟨List.subset_append_right _ _, List.subset_append_left _ _⟩
    · rw [f_finish, f_putIsl, hf1]
    · rw [f_finish, f_putIsl, hf2]
    · rw [f_finish, f_putIsl, hf3]
    · rw [f_finish, f_putIsl, hf4]
    · rw [on_finish, on_putIsl, hon]
    · have hbyte := dieSamples_byte (s := s.begin) hq (l := d) (n := 0) (x := y) (by omega) (by omega) (by omega)
      have hrd := ((frame_supplyShown (s.begin.dieSamples d 0) (degrees a) (degrees b) v w).trans (frame_putIsl _ x)).1 (R.CAL_SENSE y)
        (by simp only [List.append_nil, List.mem_cons, List.not_mem_nil, or_false, R.CAL_SENSE, R.BIN_TEMP, R.BIN_VIN, R.BIN_STATUS]; omega)
      rw [Nat.sub_zero, sensed_of_rd (rd_begin s _)] at hbyte
      rw [rdn_finish, State.rdn, hrd]
      exact hbyte
  case supply =>
    have hop : s.begin.supplyFault v rail = (s.begin.setF F.BIN_VIN_VIN v).shutdown 6 0x0107 v false := by
      have hcond : (!s.begin.isl.dead && (rail || decide (v < 5200) || decide (52000 < v))) = true := by
        have hdead' : s.begin.isl.dead = false := hdead
        simp only [hdead', Bool.not_false, Bool.true_and, Bool.or_eq_true, decide_eq_true_eq]
        tauto
      rw [State.supplyFault, if_pos hcond, show min 65535 v = v by omega]
    obtain ⟨hshut, hvin⟩ := supplyFault_from (s := s.begin) hv hroom
    have h := hshut.finish
    have hlost := hshut.toCoreLost.of_frame (frame_setF s.begin F.BIN_VIN_VIN v) (by simp)
    refine run_of (op := (·.supplyFault v rail)) hop hlost.pending hlost.keys ⟨h.core, fun a hkept hin => ?_, h.fns, h.down, h.givenUp, h.muted, h.helm,
      shutdown_queue (s := s.begin.setF F.BIN_VIN_VIN v) 6 0x0107 v false hroom, h.pwrGood, h.reset, h.mem, hlost.souv, hlost.keys, hlost.flash, hlost.pending, h.run,
      hvin, (shutdown_flags (s := s.begin.setF F.BIN_VIN_VIN v) 6 0x0107 v false hroom).1.trans (Bool.or_true _)⟩
    simp only [List.mem_cons, List.not_mem_nil, or_false, not_or] at hin
    obtain ⟨hstatus, hfault, hvinreg⟩ := hin
    exact (hshut.island a hkept (by simp [hstatus, hfault])).trans (rd_setF_ne _ _ hvinreg)
  case recovery =>
    have hop : s.begin.shutdownRecovery = ((s.begin.toNs (x + 10000000000)).restored 5).resetTrigger 1 5 := by
      have hd : s.begin.on F.BIN_STATUS_SHUTDOWN = true := hdown
      have ha : s.begin.on F.BIN_THERM_AUTO_REC = true := hauto
      have hc : s.begin.isl.shutCmd = false := hcmd
      have ht : s.begin.isl.shutThermal = true := hthermal
      have hp : s.begin.isl.shutPower = false := hpower
      have hx : s.begin.isl.coolSince = some x := hcool
      simp only [State.shutdownRecovery, hd, ha, hc, ht, hp, hx, since, Bool.not_true, Bool.or_self, Bool.false_eq_true, if_false, if_true, Option.map_some, Nat.max_zero]
      exact recover_thermal (s := s.begin.toNs (x + 10000000000)) hthermal
    have hroom8 : (s.begin.toNs (x + 10000000000)).isl.queue.length < 8 := Nat.lt_of_lt_of_le hroom (by decide)
    have hlen : ((s.begin.toNs (x + 10000000000)).restored 5).isl.queue.length < 8 := by
      have hone := congrArg List.length (restored_queue hroom8 5)
      rw [List.length_map, List.length_append, List.length_map] at hone
      have hsame : (s.begin.toNs (x + 10000000000)).isl.queue.length < 7 := hroom
      rw [hone]
      exact Nat.succ_lt_succ hsame
    have hframe := (frame_toNs s.begin (x + 10000000000)).trans (frame_restored hroom8 5)
    have hnone : ((s.begin.toNs (x + 10000000000)).restored 5).cfg.reset = none :=
      (congrArg CfgSt.reset (hframe.part (p := .cfg) (by decide))).trans hreset
    have hkind : 1 = 2 → ((s.begin.toNs (x + 10000000000)).restored 5).anyStack = false := fun hk => absurd hk (by decide)
    obtain ⟨hr, hs, hqueue⟩ := resetTrigger_from (kind := 1) (source := 5) (restored_up _ 5) hnone hlen hkind hframe (by decide) (by decide) (by decide)
    have hclk : ((s.begin.toNs (x + 10000000000)).restored 5).clk.ns = max s.clk.ns (x + 10000000000) :=
      (congrArg Clock.ns ((frame_restored hroom8 5).part (p := .clk) (by decide))).trans (toNs_ns s.begin _)
    rw [hclk] at hr
    have h := hr.finish
    have hq := hqueue
    rw [restored_queue hroom8 5, List.append_assoc] at hq
    obtain ⟨q, al, hisl⟩ := resetTrigger_isl (kind := 1) (source := 5) (restored_up (s.begin.toNs (x + 10000000000)) 5) hnone hlen hkind
    exact run_of (op := (·.shutdownRecovery)) hop h.pending h.keys
      ⟨h.core, h.island, h.fns, h.cause, h.reset, h.stage, h.mem, h.souv, h.keys, h.flash, h.pending, h.run, h.ns, hq, hs.muted, hs.hold, hs.helm, h.givenUp,
        resetTrigger_shutdown (kind := 1) (source := 5) (restored_up (s.begin.toNs (x + 10000000000)) 5) hnone hlen hkind,
        (congrArg IslandSt.shutThermal hisl).trans rfl⟩
  case expiry =>
    have hperiod' : s.begin.f F.BIN_WDOG_PERIOD ≠ 0 := hperiod
    have harm : (s.begin.toNs x).wdogArm = { s.begin.toNs x with isl := { s.isl with wdogAt := some ((s.begin.toNs x).clk.ns + 1000000 * s.f F.BIN_WDOG_PERIOD) } } := by
      rw [State.wdogArm, f_toNs]
      simp only [if_neg hperiod']
      rfl
    generalize hu : ({ s.begin.toNs x with isl := { s.isl with wdogAt := some ((s.begin.toNs x).clk.ns + 1000000 * s.f F.BIN_WDOG_PERIOD) } } : State) = u at harm
    have hframe : Frame [] [] [.clk, .isl] s.begin u := hu ▸ (frame_toNs s.begin x).trans (frame_isl _ _)
    have hisl : u.isl = { s.isl with wdogAt := some (u.clk.ns + 1000000 * s.f F.BIN_WDOG_PERIOD) } := by rw [← hu]
    have hle : x ≤ u.clk.ns := by
      rw [← hu]
      exact le_toNs _ _
    have hroom' : (u.raise 0x0108 0).isl.queue.length < 8 := by
      have hqueue : (u.raise 0x0108 0).isl.queue = s.isl.queue := by rw [raise_isl, hisl]
      rwa [hqueue]
    have h := giveUp_gaveUp 8 0x01 0x0108 1 hroom' ((hframe.on_eq (by simp)).trans hmuted) ((hframe.on_eq (by simp)).trans hhelm)
    have hop : s.begin.wdogExpiry = (u.raise 0x0108 0).giveUp 8 0x01 0x0108 1 := by
      have hat' : s.begin.isl.wdogAt = some x := hat
      have hact : u.f F.BIN_WDOG_ACTION = 1 := (hframe.f_eq (by simp)).trans haction
      simp only [State.wdogExpiry, hat', harm, hact, if_true]
    have hgive := frame_giveUp 8 0x01 0x0108 1 hroom'
    have hclk : ((u.raise 0x0108 0).giveUp 8 0x01 0x0108 1).clk = u.clk := hgive.part (p := .clk) (by decide)
    have hev : u.evNow = [] := by rw [← hu]; rfl
    have hlog : u.log = s.log := hframe.part (p := .log) (by decide)
    refine completes_of_frame (op := (·.wdogExpiry)) rfl hop (((hframe.trans (frame_raise u _ _)).trans hgive).mono (by simp) (by simp) (by simp)) (.inr (by simp))
      fun hkeeps => ⟨h.muted, h.hold, h.helm, h.twin, h.givenUp, ?_, ?_, beq_iff_eq.mpr (giveUp_bit 8 0x01 0x0108 1 hroom' rfl (by decide)), ?_, ?_, hkeeps⟩
    · have hqueue := h.queue
      have hsame : (u.raise 0x0108 0).isl.queue = s.isl.queue := by rw [raise_isl, hisl]
      rw [hsame] at hqueue
      exact hqueue
    · refine finish_logged ?_ (hlog ▸ h.log) (by decide) (by decide)
      have hraised : (u.raise 0x0108 0).evNow = u.evNow ++ [⟨0x0108, 0⟩] := rfl
      rw [h.evNow, hraised, hev]
      rfl
    · exact hle.trans_eq (congrArg Clock.ns hclk).symm
    · have hwdog : ((u.raise 0x0108 0).giveUp 8 0x01 0x0108 1).isl.wdogAt = u.isl.wdogAt := by rw [giveUp_isl 8 0x01 0x0108 1 hroom']; rfl
      have hwant : ((u.raise 0x0108 0).giveUp 8 0x01 0x0108 1).isl.wdogAt = some (((u.raise 0x0108 0).giveUp 8 0x01 0x0108 1).clk.ns + 1000000 * s.f F.BIN_WDOG_PERIOD) := by
        rw [hwdog, hclk, hisl]
      exact hwant
  case kick =>
    have hop : s.begin.busWrite .pcie R.BIN_WDOG_KICK 0 4 = { s.begin with isl := { s.isl with wdogAt := some (s.clk.ns + 1000000 * s.f F.BIN_WDOG_PERIOD) } } := by
      have harm : s.begin.busWrite .pcie R.BIN_WDOG_KICK 0 4 = s.begin.wdogArm :=
        busWrite_command (s := s.begin) (by decide) hd (by decide) (by decide) rfl rfl (by decide) (by decide) rfl rfl
      have hperiod' : s.begin.f F.BIN_WDOG_PERIOD ≠ 0 := hperiod
      rw [harm, State.wdogArm]
      simp only [if_neg hperiod']
      rfl
    exact completes_of_frame (op := (·.busWrite .pcie R.BIN_WDOG_KICK 0 4)) rfl hop (frame_isl s.begin _) (.inl rfl) fun hkeeps => ⟨rfl, hkeeps⟩
  case alert =>
    obtain ⟨t, ht, hlow, hout, hisl, hkeeps⟩ := alertResponse_completes (s := s) (bne_iff_ne.mpr halert)
    exact ⟨t, ht, hlow, hisl, hout, hkeeps⟩

end Sys2Proof.Machine
end

section
/-!
SUPPORT. Bits of a word of the Souvenir store (R386).
-/

namespace Sys2Proof.Machine

theorem frame_svSet (s : State) (w hi lo v : Nat) : Frame [] [] [.souv] s (s.svSet w hi lo v) := frame_svPut s w _

@[simp] theorem evNow_svSet (s : State) (w hi lo v : Nat) : (s.svSet w hi lo v).evNow = s.evNow := evNow_svPut s w _

theorem sv_svSet_ne (s : State) {w x : Nat} (h : x ≠ w) (hi lo v : Nat) : (s.svSet w hi lo v).sv x = s.sv x := sv_svPut_ne s h _

theorem svf_svSet_ne (s : State) {w x : Nat} (h : x ≠ w) (hi lo v hi' lo' : Nat) : (s.svSet w hi lo v).svf x hi' lo' = s.svf x hi' lo' := by
  rw [State.svf, State.svf, sv_svSet_ne s h]

/-- The bits of a word that was written. -/
theorem svf_svPut {s : State} {w hi : Nat} (hw : w < 8192) (hhi : hi < 64) (v lo : Nat) : (s.svPut w v).svf w hi lo = bitsOf v hi lo := by
  rw [State.svf, sv_svPut hw, if_pos rfl, bitsOf_mod _ _ _ _ hhi]

theorem svf_svSet_same {s : State} {w hi : Nat} (hw : w < 8192) (hhi : hi < 64) (lo v : Nat) : (s.svSet w hi lo v).svf w hi lo = v % 2 ^ (hi + 1 - lo) := by
  rw [State.svSet, svf_svPut hw hhi, bitsOf_setBits_same]

/-- Bits below or above those set. -/
theorem svf_svSet_bits {s : State} {w hi lo hi' lo' : Nat} (hw : w < 8192) (hhi' : hi' < 64) (hlo : lo ≤ hi) (h : hi < lo' ∨ hi' < lo) (v : Nat) :
    (s.svSet w hi lo v).svf w hi' lo' = s.svf w hi' lo' := by
  rw [State.svSet, svf_svPut hw hhi', State.svf]
  rcases h with h | h
  · exact bitsOf_above _ _ _ _ _ _ hlo h
  · exact bitsOf_below _ _ _ _ _ _ h

end Sys2Proof.Machine
end

section
/-!
PROOFS. The trial of new firmware (R388, R390), and the resets that end one (R388, R389).
-/

namespace Sys2Proof.Machine

/-! ## The actions of UPD_CMD -/

theorem evNow_raise (s : State) (code detail : Nat) : (s.raise code detail).evNow = s.evNow ++ [⟨code, detail⟩] := rfl

theorem busWrite_confirm {s : State} (hd : s.dark = false) : s.busWrite .pcie R.UPD_CMD 0x5A3C0002 4 = s.updCmd 0x5A3C0002 :=
  busWrite_command (by decide) hd (by decide) (by decide) rfl rfl (by decide) (by decide) rfl rfl

theorem busWrite_reject {s : State} (hd : s.dark = false) : s.busWrite .pcie R.UPD_CMD 0x5A3C0004 4 = s.updCmd 0x5A3C0004 :=
  busWrite_command (by decide) hd (by decide) (by decide) rfl rfl (by decide) (by decide) rfl rfl

theorem updCmd_confirm {s : State} (htrial : s.trial = 1) (hhealthy : s.healthy = true) (hstate : s.f F.CFG_STATUS_STATE ≠ 6) :
    s.updCmd 0x5A3C0002 = s.trialConfirm := by
  have hallowed : ¬ (s.trial ≠ 1 ∨ s.healthy = false ∨ s.f F.CFG_STATUS_STATE = 6) := by simp [htrial, hhealthy, hstate]
  exact if_neg hallowed

theorem updCmd_reject {s : State} (htrial : s.trial = 1) : s.updCmd 0x5A3C0004 = s.svSet 64 9 6 s.trialK := if_pos htrial

/-! ## The reset that ends a trial -/

/-- A record of cause 9, then the cold reset. -/
theorem trialReset_from {s : State} (x : Nat) (hdown : s.on F.BIN_STATUS_SHUTDOWN = false) (hreset : s.cfg.reset = none) (hroom : s.isl.queue.length < 7) :
    ResetFrom s 1 8 (max s.clk.ns x) (s.toNs x).trialReset ∧ Silenced (s.toNs x).trialReset ∧
    (s.toNs x).trialReset.isl.queue.map FaultRec.brief = s.isl.queue.map FaultRec.brief ++ [(9, s.attempts), (11, 33)] ∧
    (s.toNs x).trialReset.on F.BIN_FAULT_TRIAL_WD = true := by
  have hroom8 : (s.toNs x).isl.queue.length < 8 := Nat.lt_of_lt_of_le hroom (by decide)
  have hpush := frame_pushFault 9 0xFF 0 0x7F (s.toNs x).attempts hroom8
  have hframe := (frame_toNs s x).trans hpush
  have hlen : ((s.toNs x).pushFault 9 0xFF 0 0x7F (s.toNs x).attempts).isl.queue.length < 8 := by
    have hroom7 : (s.toNs x).isl.queue.length < 7 := hroom
    rw [pushFault_queue_length _ _ _ _ _ hroom8]
    exact Nat.succ_lt_succ hroom7
  have hup : ((s.toNs x).pushFault 9 0xFF 0 0x7F (s.toNs x).attempts).on F.BIN_STATUS_SHUTDOWN = false := (hframe.on_eq (by decide)).trans hdown
  have hnone : ((s.toNs x).pushFault 9 0xFF 0 0x7F (s.toNs x).attempts).cfg.reset = none :=
    (congrArg CfgSt.reset (hframe.part (p := .cfg) (by decide))).trans hreset
  have hkind : 1 = 2 → ((s.toNs x).pushFault 9 0xFF 0 0x7F (s.toNs x).attempts).anyStack = false := fun hk => absurd hk (by decide)
  obtain ⟨hr, hs, hqueue⟩ := resetTrigger_from (kind := 1) (source := 8) hup hnone hlen hkind hframe (by decide) (by decide) (by decide)
  have hclk : ((s.toNs x).pushFault 9 0xFF 0 0x7F (s.toNs x).attempts).clk.ns = max s.clk.ns x :=
    (congrArg Clock.ns (hpush.part (p := .clk) (by decide))).trans (toNs_ns s x)
  have hattempts : (s.toNs x).attempts = s.attempts := (frame_toNs s x).svf_eq (by decide) 64 9 6
  rw [hclk] at hr
  rw [pushFault_queue _ _ _ _ _ hroom8, List.append_assoc] at hqueue
  refine ⟨hr, hs, by rw [← hattempts]; exact hqueue, ?_⟩
  have hword := resetTrigger_fault (kind := 1) (source := 8) hup hnone hlen hkind
  have hbit := pushFault_bit (s := s.toNs x) (cause := 9) 0xFF 0 0x7F (s.toNs x).attempts hroom8 rfl (by decide)
  rw [State.rdn, ← hword] at hbit
  exact beq_iff_eq.mpr hbit

/-! ## Word 64 of the store -/

/-- A trial that has become healthy. -/
def healthyWord (n : Nat) : Nat := setBits (setBits n 14 14 1) 9 6 0

theorem healthyWord_bits (n : Nat) : bitsOf (healthyWord n) 14 14 = 1 ∧ bitsOf (healthyWord n) 9 6 = 0 ∧ bitsOf (healthyWord n) 1 0 = bitsOf n 1 0 := by
  refine ⟨?_, bitsOf_setBits_same _ _ _ _, ?_⟩
  · rw [healthyWord, bitsOf_above _ _ _ _ _ _ (by decide) (by decide), bitsOf_setBits_same]
    rfl
  · rw [healthyWord, bitsOf_below _ _ _ _ _ _ (by decide), bitsOf_below _ _ _ _ _ _ (by decide)]

/-! ## A healthy minute -/

/-- A minute that ended at time `t` is counted. -/
def State.minuteCounted (s : State) (t : Nat) : State := { (s.svSet 65 63 32 (s.trialElapsed + 1)) with cfg := { s.cfg with healthyAt := t } }

theorem frame_minuteCounted (s : State) (t : Nat) : Frame [] [] [.souv, .cfg] s (s.minuteCounted t) := (frame_svSet s 65 63 32 _).trans (frame_cfg _ _)

theorem sv_minuteCounted (s : State) (t w : Nat) : (s.minuteCounted t).sv w = (s.svSet 65 63 32 (s.trialElapsed + 1)).sv w :=
  (frame_cfg (s.svSet 65 63 32 (s.trialElapsed + 1)) { s.cfg with healthyAt := t }).sv_eq (by decide) w

theorem trialMinute_unlimited {s : State} (hstage : s.cfg.stage = 2) (htrial : s.trial = 1) (hhealthy : s.healthy = true) (hlimit : s.trialLimit = 0) :
    s.trialMinute = (s.toNs (s.cfg.healthyAt + 60000000000)).minuteCounted (s.cfg.healthyAt + 60000000000) ∧
    ((s.toNs (s.cfg.healthyAt + 60000000000)).minuteCounted (s.cfg.healthyAt + 60000000000)).trialLimit = 0 := by
  have hnone : ((s.toNs (s.cfg.healthyAt + 60000000000)).minuteCounted (s.cfg.healthyAt + 60000000000)).trialLimit = 0 := by
    rw [State.trialLimit, State.svf, sv_minuteCounted, ← State.svf, svf_svSet_bits (by decide) (by decide) (by decide) (by decide)]
    exact ((frame_toNs s _).svf_eq (by decide) 65 31 0).trans hlimit
  refine ⟨?_, hnone⟩
  rw [State.trialMinute, if_pos ⟨hstage, htrial, hhealthy⟩]
  exact if_neg fun hdone => hdone.1 hnone

/-- Settles O45, clause by clause. -/
theorem trialCommandsComplete : Obligations.TrialCommandsComplete := by
  unfold Obligations.TrialCommandsComplete
  refine ⟨fun s hd htrial hhealthy hstate => ?confirm, fun s hd htrial => ?reject, fun s hstage htrial hsaid hstate hintime => ?healthy,
    fun s hstage htrial hhealthy hdown hreset hroom => ?watchdog, fun s hstage htrial hhealthy hlimit helapsed => ?minute,
    fun s x hat hdown hreset hroom => ?unreadable⟩
  case confirm =>
    have hop : s.begin.busWrite .pcie R.UPD_CMD 0x5A3C0002 4 = (s.begin.svSet 64 1 0 0).raise 0x1609 0 :=
      (busWrite_confirm (s := s.begin) hd).trans (updCmd_confirm (s := s.begin) htrial hhealthy hstate)
    have hset := frame_svSet s.begin 64 1 0 0
    refine completes_of_frame (op := (·.busWrite .pcie R.UPD_CMD 0x5A3C0002 4)) rfl hop ((hset.trans (frame_raise _ _ _)).mono (by simp) (by simp) (by simp))
      (.inr (by simp)) fun hkeeps => ⟨?_, ?_, ?_, fun w hw => ?_, ?_, hkeeps⟩
    · exact svf_svSet_same (s := s.begin) (by decide) (by decide) 0 0
    · exact svf_svSet_bits (s := s.begin) (by decide) (by decide) (by decide) (by decide) 0
    · exact congrArg (· == 1) (svf_svSet_bits (s := s.begin) (hi' := 2) (lo' := 2) (by decide) (by decide) (by decide) (by decide) 0)
    · exact sv_svSet_ne s.begin hw 1 0 0
    · exact finish_logged (by rw [evNow_raise, evNow_svSet]; rfl) (by rw [raise_log, hset.part (p := .log) (by decide)]; exact ⟨rfl, rfl⟩) (by decide) (by decide)
  case reject =>
    have hop : s.begin.busWrite .pcie R.UPD_CMD 0x5A3C0004 4 = s.begin.svSet 64 9 6 s.trialK :=
      (busWrite_reject (s := s.begin) hd).trans (updCmd_reject (s := s.begin) htrial)
    have hk : s.trialK < 2 ^ 4 := Nat.mod_lt _ (by decide)
    refine completes_of_frame (op := (·.busWrite .pcie R.UPD_CMD 0x5A3C0004 4)) rfl hop (frame_svSet s.begin 64 9 6 s.trialK)
      (.inl (evNow_svSet _ _ _ _ _)) fun hkeeps => ⟨?_, ?_, ?_, ?_, fun w hw => ?_, hkeeps⟩
    · exact (svf_svSet_bits (s := s.begin) (by decide) (by decide) (by decide) (by decide) s.trialK).trans htrial
    · exact (svf_svSet_same (s := s.begin) (by decide) (by decide) 6 s.trialK).trans (Nat.mod_eq_of_lt hk)
    · exact svf_svSet_bits (s := s.begin) (by decide) (by decide) (by decide) (by decide) s.trialK
    · exact congrArg (· == 1) (svf_svSet_bits (s := s.begin) (hi' := 14) (lo' := 14) (by decide) (by decide) (by decide) (by decide) s.trialK)
    · exact sv_svSet_ne s.begin hw 9 6 s.trialK
  case healthy =>
    have hop : s.begin.trialHealthy = ({ (s.begin.svPut 64 (healthyWord (s.sv 64))) with
        cfg := { s.cfg with healthyAt := (if s.healthy then s.cfg.healthyAt else s.clk.ns), healthySaid := true } } : State).raise 0x1608 0 :=
      if_pos ⟨hstage, htrial, hsaid, hstate, hintime⟩
    have hput := frame_svPut s.begin 64 (healthyWord (s.sv 64))
    have hcfg := hput.trans (frame_cfg _ { s.cfg with healthyAt := (if s.healthy then s.cfg.healthyAt else s.clk.ns), healthySaid := true })
    obtain ⟨hbit, hattempts, htrialBits⟩ := healthyWord_bits (s.sv 64)
    refine completes_of_frame (op := (·.trialHealthy)) rfl hop ((hcfg.trans (frame_raise _ _ _)).mono (by simp) (by simp) (by simp)) (.inr (by simp))
      fun hkeeps => ⟨?_, ?_, ?_, rfl, fun w hw => ?_, ?_, hkeeps⟩
    · exact beq_iff_eq.mpr ((svf_svPut (s := s.begin) (by decide) (by decide) _ 14).trans hbit)
    · exact (svf_svPut (s := s.begin) (by decide) (by decide) _ 6).trans hattempts
    · exact ((svf_svPut (s := s.begin) (by decide) (by decide) _ 0).trans htrialBits).trans htrial
    · exact sv_svPut_ne s.begin hw _
    · exact finish_logged rfl ⟨rfl, rfl⟩ (by decide) (by decide)
  case watchdog =>
    obtain ⟨hr, hs, hq, hbit⟩ := trialReset_from (s := s.begin) (s.cfg.fwAt + 1000000000 * s.healthS) hdown hreset hroom
    have hop : s.begin.trialWatchdog = (s.begin.toNs (s.cfg.fwAt + 1000000000 * s.healthS)).trialReset := if_pos ⟨hstage, htrial, hhealthy⟩
    have h := hr.finish
    exact run_of (op := (·.trialWatchdog)) hop h.pending h.keys ⟨h.core, h.island, h.fns, h.cause, h.reset, h.stage, h.mem, h.souv, h.keys, h.flash, h.pending,
      h.run, h.ns, hq, hs.muted, hs.hold, hs.helm, h.givenUp, hbit⟩
  case minute =>
    obtain ⟨hop, hnone⟩ := trialMinute_unlimited (s := s.begin) hstage htrial hhealthy hlimit
    have hat : (s.begin.toNs (s.begin.cfg.healthyAt + 60000000000)).trialElapsed = s.trialElapsed := (frame_toNs s.begin _).svf_eq (by decide) 65 63 32
    refine completes_of_frame (op := (·.trialMinute)) rfl hop (((frame_toNs s.begin _).trans (frame_minuteCounted _ _)).mono (by simp) (by simp) (by simp))
      (.inl (evNow_svSet _ _ _ _ _)) fun hkeeps => ⟨?_, hnone, ?_, ?_, rfl, fun w hw => ?_, hkeeps⟩
    · rw [State.trialElapsed, svf_finish, State.svf, sv_minuteCounted, ← State.svf, svf_svSet_same (by decide) (by decide), hat]
      exact Nat.mod_eq_of_lt helapsed
    · rw [State.trial, svf_finish, State.svf, sv_minuteCounted, sv_svSet_ne _ (by decide), (frame_toNs s.begin _).sv_eq (by decide)]
      exact htrial
    · have hclk : ((s.begin.toNs (s.begin.cfg.healthyAt + 60000000000)).minuteCounted (s.cfg.healthyAt + 60000000000)).clk = (s.begin.toNs (s.cfg.healthyAt + 60000000000)).clk :=
        (frame_minuteCounted _ _).part (p := .clk) (by decide)
      exact (le_toNs s.begin _).trans_eq (congrArg Clock.ns hclk).symm
    · rw [sv_finish, sv_minuteCounted, sv_svSet_ne _ hw, (frame_toNs s.begin _).sv_eq (by decide), sv_begin]
  case unreadable =>
    obtain ⟨hr, hs, hq, hbit⟩ := trialReset_from (s := s.begin) (x + 1000000000) hdown hreset hroom
    have hop : s.begin.unreadableReset = (s.begin.toNs (x + 1000000000)).trialReset := by
      have hat' : s.begin.cfg.unreadAt = some x := hat
      simp only [State.unreadableReset, hat']
    have h := hr.finish
    exact run_of (op := (·.unreadableReset)) hop h.pending h.keys ⟨h.core, h.island, h.fns, h.cause, h.reset, h.stage, h.mem, h.souv, h.keys, h.flash, h.pending,
      h.run, h.ns, hq, hs.muted, hs.hold, hs.helm, h.givenUp, hbit⟩

end Sys2Proof.Machine
end

section
/-!
SUPPORT. Bytes and words (R10), the CRC-32C's range (R206), and what the configuration flash holds after a write (R361).
-/

namespace Sys2Proof.Machine

/-! ## Little-endian numbers -/

theorem byteAt_drop (l : List Nat) (k i : Nat) : byteAt (l.drop k) i = byteAt l (k + i) := by
  simp [byteAt, List.getD_eq_getElem?_getD]

theorem leNat_drop (l : List Nat) (k i n : Nat) : leNat (l.drop k) i n = leNat l (k + i) n := by
  induction n generalizing i with
  | zero => rfl
  | succ n ih => rw [leNat, leNat, byteAt_drop, ih, Nat.add_assoc]

theorem leNat_of_drop {l r : List Nat} {k : Nat} (h : l.drop k = r) (n : Nat) : leNat l k n = leNat r 0 n := by
  rw [← h, leNat_drop, Nat.add_zero]

theorem leNat_cons_succ (b : Nat) (l : List Nat) (i n : Nat) : leNat (b :: l) (i + 1) n = leNat l i n := by
  have h := leNat_drop (b :: l) 1 i n
  rw [Nat.add_comm i 1, ← h]
  rfl

/-- A number read back from its bytes. -/
theorem leNat_leBytes_append (v n : Nat) (r : List Nat) : leNat (leBytes v n ++ r) 0 n = v % 2 ^ (8 * n) := by
  induction n generalizing v with
  | zero => rw [leNat, Nat.mul_zero, Nat.pow_zero, Nat.mod_one]
  | succ n ih =>
    have hpow : (2 : Nat) ^ (8 * (n + 1)) = 256 * 2 ^ (8 * n) := by
      rw [show 8 * (n + 1) = 8 + 8 * n by omega, Nat.pow_add]
    rw [leBytes, List.cons_append, leNat, leNat_cons_succ, ih, hpow, Nat.mod_mul]
    rfl

theorem leNat_leBytes (v n : Nat) : leNat (leBytes v n) 0 n = v % 2 ^ (8 * n) := by
  have h := leNat_leBytes_append v n []
  rwa [List.append_nil] at h

theorem byteAt_lt {l : List Nat} (h : ∀ b ∈ l, b < 256) (k : Nat) : byteAt l k < 256 := by
  rw [byteAt, List.getD_eq_getElem?_getD]
  cases hk : l[k]? with
  | none => decide
  | some b => exact h b (List.mem_of_getElem? hk)

theorem leNat_lt {l : List Nat} (h : ∀ b ∈ l, b < 256) (i n : Nat) : leNat l i n < 2 ^ (8 * n) := by
  induction n generalizing i with
  | zero => exact Nat.lt_of_lt_of_eq Nat.zero_lt_one (by rfl)
  | succ n ih =>
    have hpow : (2 : Nat) ^ (8 * (n + 1)) = 256 * 2 ^ (8 * n) := by
      rw [show 8 * (n + 1) = 8 + 8 * n by omega, Nat.pow_add]
    have hlow := byteAt_lt h i
    have hhigh := ih (i + 1)
    rw [leNat, hpow]
    omega

/-- The bytes of the number that some bytes spell. -/
theorem leBytes_leNat {l : List Nat} (h : ∀ k, byteAt l k < 256) (i n : Nat) : leBytes (leNat l i n) n = (List.range n).map (fun j => byteAt l (i + j)) := by
  induction n generalizing i with
  | zero => rfl
  | succ n ih =>
    have hmod : (byteAt l i + 256 * leNat l (i + 1) n) % 256 = byteAt l i := by
      rw [Nat.add_mul_mod_self_left, Nat.mod_eq_of_lt (h i)]
    have hdiv : (byteAt l i + 256 * leNat l (i + 1) n) / 256 = leNat l (i + 1) n := by
      rw [Nat.add_mul_div_left _ _ (by decide), Nat.div_eq_of_lt (h i), Nat.zero_add]
    rw [leNat, leBytes, hmod, hdiv, ih, List.range_succ_eq_map, List.map_cons, List.map_map]
    congr 1
    exact List.map_congr_left fun j _ => congrArg (byteAt l) (Nat.add_right_comm i 1 j |>.trans (Nat.add_assoc i j 1))

theorem range_flatMap_eight (g : Nat → Nat) (n : Nat) : (List.range n).flatMap (fun i => (List.range 8).map (fun j => g (8 * i + j))) = (List.range (8 * n)).map g := by
  induction n with
  | zero => rfl
  | succ n ih =>
    rw [List.range_succ (n := n), List.flatMap_append, ih, Nat.mul_succ, List.range_add, List.map_append, List.map_map]
    simp [Function.comp_def]

theorem map_byteAt (l : List Nat) : (List.range l.length).map (byteAt l) = l := by
  refine List.ext_getElem (by simp) fun j hj _ => ?_
  have hlt : j < l.length := by simpa using hj
  simp [byteAt, hlt]

/-- Words of the Souvenir store that spell a list of bytes. -/
theorem svBytes_of_words {s : State} {w n : Nat} {l : List Nat} (hlen : l.length = 8 * n) (hb : ∀ b ∈ l, b < 256)
    (h : ∀ i, i < n → s.sv (w + i) = leNat l (8 * i) 8 % 2 ^ 64) : s.svBytes w n = l := by
  have hword (i : Nat) (hi : i ∈ List.range n) : leBytes (s.sv (w + i)) 8 = (List.range 8).map (fun j => byteAt l (8 * i + j)) := by
    rw [h i (List.mem_range.mp hi), ← leBytes_leNat (byteAt_lt hb) (8 * i) 8]
    exact leBytes_mod _ 8
  rw [State.svBytes, List.flatMap_congr hword, range_flatMap_eight, ← hlen, map_byteAt]

theorem sv_svPutBytes (s : State) {w n : Nat} (hw : w + n ≤ 8192) (l : List Nat) (x : Nat) :
    (s.svPutBytes w n l).sv x = if w ≤ x ∧ x < w + n then leNat l (8 * (x - w)) 8 % 2 ^ 64 else s.sv x :=
  sv_svPuts s hw (fun i => leNat l (8 * i) 8) x

theorem frame_svPutBytes (s : State) (w n : Nat) (l : List Nat) : Frame [] [] [.souv] s (s.svPutBytes w n l) := frame_svPuts s w _ n

@[simp] theorem evNow_svPutBytes (s : State) (w n : Nat) (l : List Nat) : (s.svPutBytes w n l).evNow = s.evNow := evNow_svPuts s w _ n

/-! ## The CRC -/

theorem crcStep_lt {c : Nat} (h : c < 2 ^ 32) (n : Nat) : crcStep n c < 2 ^ 32 := by
  induction n generalizing c with
  | zero => exact h
  | succ n ih =>
    have hhalf : c / 2 < 2 ^ 32 := Nat.lt_of_le_of_lt (Nat.div_le_self c 2) h
    refine ih ?_
    split
    · exact Nat.xor_lt_two_pow hhalf (by decide)
    · exact hhalf

theorem crc32c_lt (l : List Nat) : crc32c l < 2 ^ 32 := by
  have hfold (c : Nat) (hc : c < 2 ^ 32) : l.foldl (fun c b => crcStep 8 (c ^^^ (b % 256))) c < 2 ^ 32 := by
    induction l generalizing c with
    | nil => exact hc
    | cons b l ih =>
      have hbyte : b % 256 < 2 ^ 32 := Nat.lt_trans (Nat.mod_lt b (by decide)) (by decide)
      exact ih _ (crcStep_lt (Nat.xor_lt_two_pow hc hbyte) 8)
  exact Nat.xor_lt_two_pow (hfold _ (by decide)) (by decide)

/-! ## The flash -/

theorem Tab.get_putList {α : Type} [DecidableEq α] (d : Nat → α) (l : List α) (t : Tab α) (k x : Nat) :
    Tab.get d (Tab.putList d t k l) x = if k ≤ x ∧ x < k + l.length then l.getD (x - k) (d x) else Tab.get d t x := by
  induction l generalizing t k with
  | nil => simp [Tab.putList]
  | cons v l ih =>
    rw [Tab.putList, ih, Tab.get_put, List.length_cons]
    by_cases hx : x = k
    · subst hx
      simp
    · by_cases hin : k + 1 ≤ x ∧ x < k + 1 + l.length
      · rw [if_pos hin, if_pos (by omega), show x - k = x - (k + 1) + 1 by omega, List.getD_cons_succ]
      · rw [if_neg hin, if_neg hx, if_neg (by omega)]

/-- What a byte of the flash holds after a write. -/
theorem flashByte_flashPut (s : State) (a : Nat) (l : List Nat) (x : Nat) :
    (s.flashPut a l).flashByte x = if a ≤ x ∧ x < a + l.length then l.getD (x - a) 0 % 256 else s.flashByte x := by
  have hget := Tab.get_putList flashEmpty (l.map (BitVec.ofNat 8)) s.flash.mem a x
  rw [State.flashByte, State.flashPut, hget, List.length_map]
  split
  case isTrue hin =>
    have hlt : x - a < l.length := by omega
    simp [hlt]
  case isFalse => rfl

theorem frame_flashPut (s : State) (a : Nat) (l : List Nat) : Frame [] [] [.flash] s (s.flashPut a l) := frame_flash s _

/-- A run of bytes of the flash. -/
theorem flashBytes_eq_map (s : State) (a n : Nat) : s.flashBytes a n = (List.range n).map (fun j => s.flashByte (a + j)) := by
  induction n generalizing a with
  | zero => rfl
  | succ n ih =>
    rw [State.flashBytes, ih, List.range_succ_eq_map, List.map_cons, List.map_map]
    congr 1
    exact List.map_congr_left fun j _ => congrArg s.flashByte (Nat.add_right_comm a 1 j |>.trans (Nat.add_assoc a j 1))

theorem Frame.flashByte_eq {regs fns : List Nat} {parts : List Part} {s t : State} (h : Frame regs fns parts s t) (hflash : .flash ∉ parts) (a : Nat) :
    t.flashByte a = s.flashByte a :=
  congrArg (fun x => (Tab.get flashEmpty x a).toNat) (congrArg FlashSt.mem (h.part (p := .flash) hflash))

end Sys2Proof.Machine
end

section
/-!
SUPPORT. The record of a new update session (R382, R386).
-/

namespace Sys2Proof.Machine

/-- The record of a session before its CRC and its state: words 0 to 14 and an empty bitmap. -/
def State.sessionRecord (s : State) (first source : Nat) (digest nonce ks : List Nat) : State :=
  let s := ((s.svPut 0 first).svPut 1 source).svPut 2 (source / 2 ^ 64)
  let s := ((s.svPutBytes 3 6 digest).svPutBytes 9 2 nonce).svPutBytes 11 4 ks
  (List.range 48).foldl (fun (t : State) i => t.svPut (16 + i) 0) s

section
variable (s : State) (first source : Nat) (digest nonce ks : List Nat)

theorem frame_sessionRecord : Frame [] [] [.souv] s (s.sessionRecord first source digest nonce ks) := by
  have hwords := ((frame_svPut s 0 first).trans (frame_svPut _ 1 source)).trans (frame_svPut _ 2 (source / 2 ^ 64))
  have hbytes := ((hwords.trans (frame_svPutBytes _ 3 6 digest)).trans (frame_svPutBytes _ 9 2 nonce)).trans (frame_svPutBytes _ 11 4 ks)
  exact (hbytes.trans (frame_svPuts _ 16 (fun _ => 0) 48)).mono (by simp) (by simp) (by simp)

theorem evNow_sessionRecord : (s.sessionRecord first source digest nonce ks).evNow = s.evNow := by
  rw [State.sessionRecord, evNow_svPuts, evNow_svPutBytes, evNow_svPutBytes, evNow_svPutBytes, evNow_svPut, evNow_svPut, evNow_svPut]

/-- What each word holds. -/
theorem sv_sessionRecord (x : Nat) : (s.sessionRecord first source digest nonce ks).sv x =
    if 16 ≤ x ∧ x < 16 + 48 then 0 % 2 ^ 64
    else if 11 ≤ x ∧ x < 11 + 4 then leNat ks (8 * (x - 11)) 8 % 2 ^ 64
    else if 9 ≤ x ∧ x < 9 + 2 then leNat nonce (8 * (x - 9)) 8 % 2 ^ 64
    else if 3 ≤ x ∧ x < 3 + 6 then leNat digest (8 * (x - 3)) 8 % 2 ^ 64
    else if x = 2 then source / 2 ^ 64 % 2 ^ 64
    else if x = 1 then source % 2 ^ 64
    else if x = 0 then first % 2 ^ 64
    else s.sv x := by
  rw [State.sessionRecord, sv_svPuts _ (by decide), sv_svPutBytes _ (by decide), sv_svPutBytes _ (by decide), sv_svPutBytes _ (by decide), sv_svPut (by decide),
    sv_svPut (by decide), sv_svPut (by decide)]

end

/-- The record sealed: its CRC in word 66, STATE OPEN in word 15. -/
def State.sessionOpened (s : State) : State := ((s.svPut 66 s.updCrc).svPut 15 1).raise 0x1602 0

theorem frame_sessionOpened (s : State) : Frame [] [] [.souv] s s.sessionOpened :=
  (((frame_svPut s 66 s.updCrc).trans (frame_svPut _ 15 1)).trans (frame_raise _ _ _)).mono (by simp) (by simp) (by simp)

theorem evNow_sessionOpened (s : State) : s.sessionOpened.evNow = s.evNow ++ [⟨0x1602, 0⟩] := by
  rw [State.sessionOpened, evNow_raise, evNow_svPut, evNow_svPut]

theorem sv_sessionOpened (s : State) (x : Nat) : s.sessionOpened.sv x = if x = 15 then 1 else if x = 66 then s.updCrc % 2 ^ 64 else s.sv x := by
  have hraise : s.sessionOpened.sv x = ((s.svPut 66 s.updCrc).svPut 15 1).sv x := (frame_raise _ _ _).sv_eq (by simp) x
  rw [hraise, sv_svPut (by decide), sv_svPut (by decide)]
  rfl

/-- Words outside 15 and 66 spell what they spelt. -/
theorem svBytes_congr {s t : State} {w n : Nat} (h : ∀ i, i < n → t.sv (w + i) = s.sv (w + i)) : t.svBytes w n = s.svBytes w n := by
  rw [State.svBytes, State.svBytes]
  exact List.flatMap_congr fun i hi => by rw [h i (List.mem_range.mp hi)]

theorem updStart_eq (s : State) (src : Nat × Nat) (kind len : Nat) (digest : List Nat) : s.updStart src kind len digest =
    (s.drawNonce.2.sessionRecord (kind + src.1 * 2 + ceilDiv len 16384 * 4 + len * 2 ^ 32) src.2 digest s.drawNonce.1
      ((List.range 32).map (fun i => (Config.hmac s.mgmtKey ([0x48, 0x58, 0x55, 0x50, 0x44, kind] ++ digest ++ s.drawNonce.1)).getD i 0 % 256))).sessionOpened := rfl

end Sys2Proof.Machine
end

section
/-!
PROOFS. The OPEN of an update session (R379, R382, R385).
-/

namespace Sys2Proof.Machine

/-! ## Replies -/

theorem wordBytes_length (l : List Nat) : (wordBytes l).length = 4 * l.length := by
  induction l with
  | nil => rfl
  | cons w l ih =>
    rw [wordBytes, List.flatMap_cons, List.length_append, leBytes_length, ← wordBytes, ih, List.length_cons]
    omega

theorem sessionReply_length (s : State) (st : Nat) : (s.sessionReply st).length = 102 := by
  simp [State.sessionReply, List.length_flatMap]

/-! ## The session -/

/-- A session that has just opened. -/
structure SessionOpen (s : State) (kind len : Nat) (digest : List Nat) (source : Nat) (u : State) : Prop where
  state_eq : u.updState = 1
  idle_eq : u.updIdle = 0
  kind_eq : u.updKind = kind
  len_eq : u.updLen = len
  parcels_eq : u.updParcels = ceilDiv len 16384
  digest_eq : u.updDigest = digest
  source_eq : u.updSource = source
  srcKind_eq : u.updSrcKind = 0
  held_eq : u.updHeld = 0
  nonce_eq : u.updNonce = (List.range 16).map (fun i => (Config.nonce s.fctr).getD i 0 % 256)
  ks_eq : u.updKs = (List.range 32).map (fun i => (Config.hmac s.mgmtKey ([0x48, 0x58, 0x55, 0x50, 0x44, u.updKind] ++ u.updDigest ++ u.updNonce)).getD i 0 % 256)
  crc_eq : u.svf 66 31 0 = u.updCrc % 2 ^ 32
  others : ∀ w, 67 ≤ w ∨ w = 64 ∨ w = 65 → u.sv w = s.sv w

/-- The fields of word 0. -/
theorem sessionWord_fields {kind parcels len : Nat} (hk : kind < 2) (hp : parcels < 2 ^ 12) (hl : len < 2 ^ 32) :
    (kind + 0 * 2 + parcels * 4 + len * 2 ^ 32) % 2 ^ 64 = kind + 0 * 2 + parcels * 4 + len * 2 ^ 32 ∧
    bitsOf (kind + 0 * 2 + parcels * 4 + len * 2 ^ 32) 0 0 = kind ∧ bitsOf (kind + 0 * 2 + parcels * 4 + len * 2 ^ 32) 1 1 = 0 ∧
    bitsOf (kind + 0 * 2 + parcels * 4 + len * 2 ^ 32) 13 2 = parcels ∧ bitsOf (kind + 0 * 2 + parcels * 4 + len * 2 ^ 32) 63 32 = len := by
  simp only [bitsOf]
  omega

theorem getD_bytes (l : List Nat) (n : Nat) : ∀ b ∈ (List.range n).map (fun i => l.getD i 0 % 256), b < 256 := by
  intro b hb
  obtain ⟨i, -, rfl⟩ := List.mem_map.mp hb
  exact Nat.mod_lt _ (by decide)

theorem updStart_open {s : State} {kind len source : Nat} {digest : List Nat} (hk : kind < 2) (hl : len ≤ 50331648) (hdigest : digest.length = 48)
    (hbytes : ∀ b ∈ digest, b < 256) (hsource : source < 2 ^ 128) : SessionOpen s kind len digest source (s.updStart (0, source) kind len digest) := by
  have hparcels : ceilDiv len 16384 < 2 ^ 12 := by
    rw [ceilDiv]
    omega
  obtain ⟨hword, hkind, hsrc, hpar, hlen⟩ := sessionWord_fields (parcels := ceilDiv len 16384) hk hparcels (show len < 2 ^ 32 by omega)
  rw [updStart_eq]
  generalize hks : (List.range 32).map (fun i => (Config.hmac s.mgmtKey ([0x48, 0x58, 0x55, 0x50, 0x44, kind] ++ digest ++ s.drawNonce.1)).getD i 0 % 256) = ks
  have hksBytes : ∀ b ∈ ks, b < 256 := hks ▸ getD_bytes _ _
  have hksLen : ks.length = 8 * 4 := by rw [← hks, List.length_map, List.length_range]
  have hnonceBytes : ∀ b ∈ s.drawNonce.1, b < 256 := getD_bytes _ _
  have hnonceLen : s.drawNonce.1.length = 8 * 2 := by simp [State.drawNonce]
  have hdrawn (w : Nat) : s.drawNonce.2.sv w = s.sv w := rfl
  generalize hr : s.drawNonce.2.sessionRecord (kind + 0 * 2 + ceilDiv len 16384 * 4 + len * 2 ^ 32) source digest s.drawNonce.1 ks = r
  have hrecord (x : Nat) : r.sv x = _ := hr ▸ sv_sessionRecord _ _ _ _ _ _ x
  have hopen (x : Nat) (h15 : x ≠ 15) (h66 : x ≠ 66) : r.sessionOpened.sv x = r.sv x := by rw [sv_sessionOpened, if_neg h15, if_neg h66]
  have h0 : r.sessionOpened.sv 0 = kind + 0 * 2 + ceilDiv len 16384 * 4 + len * 2 ^ 32 := by
    rw [hopen 0 (by decide) (by decide), hrecord, if_neg (by decide), if_neg (by decide), if_neg (by decide), if_neg (by decide), if_neg (by decide), if_neg (by decide), if_pos rfl,
      hword]
  have h15 : r.sessionOpened.sv 15 = 1 := by rw [sv_sessionOpened, if_pos rfl]
  have hdig : r.sessionOpened.updDigest = digest := by
    refine svBytes_of_words hdigest hbytes fun i hi => ?_
    rw [hopen _ (by omega) (by omega), hrecord, if_neg (by omega), if_neg (by omega), if_neg (by omega), if_pos (by omega), Nat.add_sub_cancel_left]
  have hnon : r.sessionOpened.updNonce = s.drawNonce.1 := by
    refine svBytes_of_words hnonceLen hnonceBytes fun i hi => ?_
    rw [hopen _ (by omega) (by omega), hrecord, if_neg (by omega), if_neg (by omega), if_pos (by omega), Nat.add_sub_cancel_left]
  have hkey : r.sessionOpened.updKs = ks := by
    refine svBytes_of_words hksLen hksBytes fun i hi => ?_
    rw [hopen _ (by omega) (by omega), hrecord, if_neg (by omega), if_pos (by omega), Nat.add_sub_cancel_left]
  have hkind' : r.sessionOpened.updKind = kind := by rw [State.updKind, State.svf, h0, hkind]
  have hpar' : r.sessionOpened.updParcels = ceilDiv len 16384 := by rw [State.updParcels, State.svf, h0, hpar]
  have hhas (i : Nat) (hi : i < 3072) : r.sessionOpened.updHas i = false := by
    have hzero : r.sessionOpened.sv (16 + i / 64) = 0 := by
      rw [hopen _ (by omega) (by omega), hrecord, if_pos (by omega)]
      rfl
    rw [State.updHas, State.svf, hzero, bitsOf, Nat.zero_div, Nat.zero_mod]
    rfl
  have hcrc : r.sessionOpened.updCrc = r.updCrc := by
    rw [State.updCrc, State.updCrc, svBytes_congr (s := r) (t := r.sessionOpened) fun i hi => hopen _ (by omega) (by omega)]
  refine ⟨?_, ?_, hkind', ?_, hpar', hdig, ?_, ?_, ?_, hnon, ?_, ?_, fun w hw => ?_⟩
  · rw [State.updState, State.svf, h15]
    rfl
  · rw [State.updIdle, State.svf, h15]
    rfl
  · rw [State.updLen, State.svf, h0, hlen]
  · have h1 : r.sessionOpened.sv 1 = source % 2 ^ 64 := by
      rw [hopen 1 (by decide) (by decide), hrecord, if_neg (by decide), if_neg (by decide), if_neg (by decide), if_neg (by decide), if_neg (by decide), if_pos rfl]
    have h2 : r.sessionOpened.sv 2 = source / 2 ^ 64 % 2 ^ 64 := by
      rw [hopen 2 (by decide) (by decide), hrecord, if_neg (by decide), if_neg (by decide), if_neg (by decide), if_neg (by decide), if_pos rfl]
    rw [State.updSource, h1, h2]
    omega
  · rw [State.updSrcKind, State.svf, h0, hsrc]
  · rw [State.updHeld, hpar', List.length_eq_zero_iff, List.filter_eq_nil_iff]
    intro i hi
    have hlt : i < ceilDiv len 16384 := List.mem_range.mp hi
    rw [ceilDiv] at hlt
    rw [hhas i (by omega)]
    exact Bool.false_ne_true
  · rw [hkey, hkind', hdig, hnon, hks]
  · rw [State.svf, sv_sessionOpened, if_neg (by decide), if_pos rfl, hcrc, bitsOf_mod _ _ _ _ (by decide), bitsOf, Nat.pow_zero, Nat.div_one]
  · rw [hopen w (by omega) (by omega), hrecord, if_neg (by omega), if_neg (by omega), if_neg (by omega), if_neg (by omega), if_neg (by omega), if_neg (by omega),
      if_neg (by omega), hdrawn]

theorem frame_updStart (s : State) (src : Nat × Nat) (kind len : Nat) (digest : List Nat) :
    Frame [] [] [.souv, .fctr] s (s.updStart src kind len digest) := by
  rw [updStart_eq]
  exact (((frame_free s).trans (frame_sessionRecord _ _ _ _ _ _)).trans (frame_sessionOpened _)).mono (by simp) (by simp) (by simp)

theorem evNow_updStart (s : State) (src : Nat × Nat) (kind len : Nat) (digest : List Nat) : (s.updStart src kind len digest).evNow = s.evNow ++ [⟨0x1602, 0⟩] := by
  rw [updStart_eq, evNow_sessionOpened, evNow_sessionRecord]
  rfl

/-- An OPEN with no session open begins one. -/
theorem updOpen_fresh {s : State} {src : Nat × Nat} {body : List Nat} {n : Nat} (hn : leNat body 4 4 = n) (h1 : 1 ≤ n) (hmax : n ≤ 50331648)
    (haccept : s.on F.UPD_CTL_ACCEPT = true) (htrial : s.trial ≠ 1) (hstate : s.updState = 0) : s.updOpen src body true =
    (upOk, s.updStart src (byteAt body 0 % 2) n ((List.range 48).map (fun i => byteAt body (8 + i)))) := by
  have hsize : ¬ (n = 0 ∨ 50331648 < n) := by omega
  simp only [State.updOpen, hn, haccept, Bool.not_true, Bool.false_eq_true, if_false, if_neg htrial, if_neg hsize, hstate, ne_eq, not_true_eq_false]
  rfl

end Sys2Proof.Machine
end

section
/-!
PROOFS. Why an audio output that has drained need not have reached the media time of its last frame (R91, R323, R336): with a PTP offset that puts the media
time before 0, the command runs too short a time.
-/

namespace Sys2Proof.Machine

/-- Output 0 drains at 48 kHz from position 0 on. The Meridian follows PTP domain A, which is 10 ms behind an STC of 0. -/
def drainBeforeMediaZero : State :=
  { State.reset with
    regs := [(R.AUD_CTL, 2), (R.MER_STATUS, 1)]
    ptp := { State.reset.ptp with doms := [(0, { ofs := -10000000 })] }
    aud := { State.reset.aud with outs := [(0, { st := .draining, stopX := some 0 })] } }

theorem drainBeforeMediaZero_conditions : (drainBeforeMediaZero.aout 0).stopX = some 0 ∧ (drainBeforeMediaZero.aout 0).st = .draining ∧
    (drainBeforeMediaZero.aout 0).blks = [] ∧ drainBeforeMediaZero.held = [] := by decide +kernel

/-- The state in which the output is OFF. -/
def drainBeforeMediaZeroEnd : State := drainBeforeMediaZero.begin.outDrained 0

/-- Its media time lies before that of position 64. -/
theorem drainBeforeMediaZeroEnd_early : drainBeforeMediaZeroEnd.finish.mediaTime < drainBeforeMediaZero.timeOf (0 + 64) := by decide +kernel

theorem drainBeforeMediaZeroEnd_keeps : drainBeforeMediaZeroEnd.pending = drainBeforeMediaZero.pending ∧
    drainBeforeMediaZeroEnd.keys = drainBeforeMediaZero.keys := by
  decide +kernel

theorem drainBeforeMediaZero_completes : Completes (.audioOutputDrained 0) drainBeforeMediaZero fun t =>
    t.mediaTime < drainBeforeMediaZero.timeOf (0 + 64) :=
  run_of (op := (·.outDrained 0)) (u := drainBeforeMediaZeroEnd) rfl drainBeforeMediaZeroEnd_keeps.1 drainBeforeMediaZeroEnd_keeps.2
    drainBeforeMediaZeroEnd_early

/-- Refutes O36 by its clause of AUDIO_OUTPUT_DRAINED: the media time of the next state need not have reached that of the position 64 frames on. -/
theorem not_audioOutputCommandsComplete : ¬ Obligations.AudioOutputCommandsComplete := by
  unfold Obligations.AudioOutputCommandsComplete
  rintro ⟨-, -, -, hDrained⟩
  obtain ⟨hstop, hdrains, hblocks, hheld⟩ := drainBeforeMediaZero_conditions
  obtain ⟨t, ht, -, -, -, htime, -⟩ := hDrained drainBeforeMediaZero 0 0 (by decide) hstop hdrains hblocks hheld
  obtain ⟨u, hu, hearly⟩ := drainBeforeMediaZero_completes
  obtain rfl : t = u := Host.Outcome.next.inj (ht.symm.trans hu)
  exact absurd htime (Nat.not_le.mpr hearly)

end Sys2Proof.Machine
end

section
/-!
PROOFS. Why an audio packet need not have left at the media time of its block's end (R91, R323, R337): with a PTP offset that puts the media time before 0,
the command runs too short a time.
-/

namespace Sys2Proof.Machine

/-- A block of position 63 that reads no source. -/
def block63 : AudBlk := { x0 := 63, x1 := 64, d := 0, srcs := [], cs := [], csSrc := false, crcGen := false, masks := [] }

/-- The audio function and port 0 are READY at 48 kHz, and transmit stream 0 holds a decided block. The Meridian follows PTP domain A, which is 10 ms behind
an STC of 0. -/
def departBeforeMediaZero : State :=
  { State.reset with
    regs := [(R.AUD_CTL, 2), (R.MER_STATUS, 1)]
    fns := [(fnAud, .ready), (fnEgs 0, .ready)]
    ptp := { State.reset.ptp with doms := [(0, { ofs := -10000000 })] }
    egs := { State.reset.egs with ports := [(0, { busy := 10 ^ 17 })] }
    aud := { State.reset.aud with outs := [(16, { blks := [block63] })] } }

theorem departBeforeMediaZero_conditions : (departBeforeMediaZero.aout (16 + 0)).blks = [block63] ∧ departBeforeMediaZero.ready fnAud = true ∧
    departBeforeMediaZero.f (F.AUD_TXS_FLOW_FLOW 0) = 0 ∧ efLegs (departBeforeMediaZero.egWords 0) = [(0, 0)] ∧
    departBeforeMediaZero.ready (fnEgs 0) = true ∧ (departBeforeMediaZero.outFrames (departBeforeMediaZero.aout (16 + 0)) block63).2 = 0 := by
  decide +kernel

theorem departBeforeMediaZero_port : (departBeforeMediaZero.eport 0).due = [] ∧ 10 ^ 17 ≤ (departBeforeMediaZero.eport 0).busy ∧
    departBeforeMediaZero.clk.ns + 4 * ceilDiv (departBeforeMediaZero.timeOf block63.x1 - departBeforeMediaZero.mediaTime) 4 < 10 ^ 17 ∧ 0 ≤ block63.d := by
  decide +kernel

/-- The state in which the packet has left. -/
def departBeforeMediaZeroEnd : State := departBeforeMediaZero.begin.audDepart 0

/-- Its media time lies before that of the block's end. -/
theorem departBeforeMediaZeroEnd_early : departBeforeMediaZeroEnd.finish.mediaTime < departBeforeMediaZero.timeOf block63.x1 := by decide +kernel

theorem departBeforeMediaZeroEnd_keeps : departBeforeMediaZeroEnd.pending = departBeforeMediaZero.pending ∧
    departBeforeMediaZeroEnd.keys = departBeforeMediaZero.keys := by
  decide +kernel

theorem departBeforeMediaZero_completes : Completes (.audioPacketDeparture 0) departBeforeMediaZero fun t =>
    t.mediaTime < departBeforeMediaZero.timeOf block63.x1 :=
  run_of (op := (·.audDepart 0)) (u := departBeforeMediaZeroEnd) rfl departBeforeMediaZeroEnd_keeps.1 departBeforeMediaZeroEnd_keeps.2
    departBeforeMediaZeroEnd_early

/-- Refutes O37 by its clause of AUDIO_PACKET_DEPARTURE: the media time of the next state need not have reached that of the block's end. -/
theorem not_audioStreamCommandsComplete : ¬ Obligations.AudioStreamCommandsComplete := by
  unfold Obligations.AudioStreamCommandsComplete
  rintro ⟨-, -, -, hDeparture⟩
  obtain ⟨hblocks, haud, hflow, hlegs, hport, hsamples⟩ := departBeforeMediaZero_conditions
  obtain ⟨hdue, hbusy, hclock, hd⟩ := departBeforeMediaZero_port
  obtain ⟨t, ht, -, -, htime, -⟩ :=
    hDeparture departBeforeMediaZero 0 0 0 block63 (by decide) hblocks haud hflow hlegs hport hsamples hdue hbusy hclock hd
  obtain ⟨u, hu, hearly⟩ := departBeforeMediaZero_completes
  obtain rfl : t = u := Host.Outcome.next.inj (ht.symm.trans hu)
  exact absurd htime (Nat.not_le.mpr hearly)

end Sys2Proof.Machine
end

section
/-!
PROOFS. Why the end of a slot's programming need not log the slot's number (R405, R418): an event's detail has 16 bits.
-/

namespace Sys2Proof.Machine

/-- The reset state, with a digest on its way to a slot whose number does not fit in an event's detail. -/
def keyBeyondDetail : State := { State.reset with isl := { State.reset.isl with keyAt := some (65536, [1], 0) } }

theorem keyBeyondDetail_conditions : keyBeyondDetail.isl.keyAt = some (65536, [1], 0) ∧ keyBeyondDetail.keySlot 65536 = [] := ⟨rfl, rfl⟩

/-- The end of the programming. -/
def keyBeyondDetailEnd : State := keyBeyondDetail.begin.keyslotDone

theorem keyBeyondDetailEnd_logs : keyBeyondDetailEnd.finish.log.evAt 0 = ⟨0x010D, 0⟩ := by decide +kernel

theorem keyBeyondDetail_completes : Completes .keyslotProgrammed keyBeyondDetail fun t => t.log.evAt 0 = ⟨0x010D, 0⟩ :=
  runKey_of (op := (·.keyslotDone)) (u := keyBeyondDetailEnd) rfl keyBeyondDetailEnd_logs

/-- Refutes O49 by its clause of KEYSLOT_PROGRAMMED: the clause logs the slot's number whatever it is, but the log keeps 16 bits of it. -/
theorem not_servicePortCommandsComplete : ¬ Obligations.ServicePortCommandsComplete := by
  unfold Obligations.ServicePortCommandsComplete
  rintro ⟨-, -, -, -, hProgrammed, -⟩
  obtain ⟨hat, hblank⟩ := keyBeyondDetail_conditions
  obtain ⟨t, ht, -, -, -, -, -, -, -, -, -, hlogged⟩ := hProgrammed keyBeyondDetail 65536 0 [1] hat hblank (by decide)
  obtain ⟨u, hu, hshort⟩ := keyBeyondDetail_completes
  obtain rfl : t = u := Host.Outcome.next.inj (ht.symm.trans hu)
  have hfull : t.log.evAt 0 = ⟨0x010D, 65536⟩ := hlogged.2 0 _ rfl
  exact absurd (hshort.symm.trans hfull) (by decide)

end Sys2Proof.Machine
end

section
/-!
PROOFS. A good parcel of an update session (R383, R384).
-/

namespace Sys2Proof.Machine

/-! ## The bytes of a parcel -/

/-- The header of parcel `i` without the digest. -/
def parcelStart (len i : Nat) : List Nat := leBytes 0x4C435250 4 ++ leBytes i 4 ++ leBytes (min 16384 (len - 16384 * i)) 4 ++ [0, 0, 0, 0]

/-- The tag of parcel `i`. -/
def parcelTag (len : Nat) (digest ks : List Nat) (i : Nat) (d : List Nat) : List Nat := gcmTag16 ks (parcelIv i) (parcelStart len i ++ digest) d

theorem parcelTag_length (len : Nat) (digest ks : List Nat) (i : Nat) (d : List Nat) : (parcelTag len digest ks i d).length = 16 := by
  simp [parcelTag, gcmTag16]

theorem parcelTag_bytes (len : Nat) (digest ks : List Nat) (i : Nat) (d : List Nat) : ∀ b ∈ parcelTag len digest ks i d, b < 256 := getD_bytes _ 16

theorem parcelStart_length (len i : Nat) : (parcelStart len i).length = 16 := by simp [parcelStart]

/-- A parcel: header, digest, data, tag, CRC. -/
theorem parcelBytes_eq (len : Nat) (digest ks : List Nat) (i : Nat) (d : List Nat) : parcelBytes len digest ks i d =
    (parcelStart len i ++ digest ++ d ++ parcelTag len digest ks i d) ++
      leBytes (crc32c (parcelStart len i ++ digest ++ d ++ parcelTag len digest ks i d)) 4 := rfl

section
variable {start digest d tag c : List Nat} (hstart : start.length = 16) (hdigest : digest.length = 48) (hd : d.length = 16384) (htag : tag.length = 16)
include hstart hdigest hd htag

/-- The pieces of a parcel, read back. -/
theorem parcel_pieces (hc : c.length = 4) : (start ++ digest ++ d ++ tag ++ c).length = 16468 ∧ (start ++ digest ++ d ++ tag ++ c).take 16464 = start ++ digest ++ d ++ tag ∧
    (start ++ digest ++ d ++ tag ++ c).drop 16464 = c ∧ (start ++ digest ++ d ++ tag ++ c).take 64 = start ++ digest ∧
    ((start ++ digest ++ d ++ tag ++ c).drop 64).take 16384 = d ∧ ((start ++ digest ++ d ++ tag ++ c).drop 16448).take 16 = tag ∧
    ((start ++ digest ++ d ++ tag ++ c).drop 16).take 48 = digest := by
  have h64 : (start ++ digest).length = 64 := by rw [List.length_append]; omega
  have h16448 : (start ++ digest ++ d).length = 16448 := by rw [List.length_append]; omega
  have h16464 : (start ++ digest ++ d ++ tag).length = 16464 := by rw [List.length_append]; omega
  refine ⟨?_, List.take_left' h16464, List.drop_left' h16464, ?_, ?_, ?_, ?_⟩
  · rw [List.length_append]
    omega
  · rw [List.append_assoc _ tag, List.append_assoc _ d]
    exact List.take_left' h64
  · rw [List.append_assoc _ tag, List.append_assoc _ d, List.drop_left' h64]
    exact List.take_left' hd
  · rw [List.append_assoc _ tag, List.drop_left' h16448]
    exact List.take_left' htag
  · rw [List.append_assoc _ tag, List.append_assoc _ d, List.append_assoc start, List.drop_left' hstart]
    exact List.take_left' hdigest

end

/-- The numbers of a parcel's header. -/
theorem parcelStart_numbers {len i : Nat} (hi : i < 2 ^ 32) (r : List Nat) : leNat (parcelStart len i ++ r) 0 4 = 0x4C435250 ∧
    leNat (parcelStart len i ++ r) 4 4 = i ∧ leNat (parcelStart len i ++ r) 8 4 = min 16384 (len - 16384 * i) := by
  have hparts : parcelStart len i ++ r = leBytes 0x4C435250 4 ++ (leBytes i 4 ++ (leBytes (min 16384 (len - 16384 * i)) 4 ++ ([0, 0, 0, 0] ++ r))) := by
    simp only [parcelStart, List.append_assoc]
  have hdrop4 : (parcelStart len i ++ r).drop 4 = leBytes i 4 ++ (leBytes (min 16384 (len - 16384 * i)) 4 ++ ([0, 0, 0, 0] ++ r)) := by
    rw [hparts]
    exact List.drop_left' (leBytes_length _ _)
  have hdrop8 : (parcelStart len i ++ r).drop 8 = leBytes (min 16384 (len - 16384 * i)) 4 ++ ([0, 0, 0, 0] ++ r) := by
    rw [show 8 = 4 + 4 from rfl, ← List.drop_drop, hdrop4]
    exact List.drop_left' (leBytes_length _ _)
  refine ⟨?_, ?_, ?_⟩
  · rw [hparts, leNat_leBytes_append, Nat.mod_eq_of_lt (by decide)]
  · rw [leNat_of_drop hdrop4, leNat_leBytes_append, Nat.mod_eq_of_lt hi]
  · rw [leNat_of_drop hdrop8, leNat_leBytes_append]
    exact Nat.mod_eq_of_lt (Nat.lt_of_le_of_lt (Nat.min_le_left _ _) (by decide))

theorem updDigest_length (s : State) : s.updDigest.length = 48 := by simp [State.updDigest, State.svBytes, List.length_flatMap]

/-- A good parcel passes the checks. -/
theorem parcelStatus_good {s : State} {src : Nat × Nat} {i : Nat} {d : List Nat} (hd : d.length = 16384) (haccept : s.on F.UPD_CTL_ACCEPT = true)
    (hstate : s.updState = 1) (hi : i < s.updParcels) (howner : s.updOwner src = true) :
    s.parcelStatus src (parcelBytes s.updLen s.updDigest s.updKs i d) = upOk := by
  have hi32 : i < 2 ^ 32 := Nat.lt_trans hi (Nat.lt_trans (Nat.mod_lt _ (by decide)) (show 2 ^ (13 + 1 - 2) < 2 ^ 32 by decide))
  rw [parcelBytes_eq]
  generalize htag : parcelTag s.updLen s.updDigest s.updKs i d = tag
  have htagLen : tag.length = 16 := htag ▸ parcelTag_length _ _ _ _ _
  generalize hc : leBytes (crc32c (parcelStart s.updLen i ++ s.updDigest ++ d ++ tag)) 4 = c
  have hcLen : c.length = 4 := hc ▸ leBytes_length _ _
  obtain ⟨hlen, htake, hdrop, h64, hdata, htagOf, hdigest⟩ := parcel_pieces (parcelStart_length s.updLen i) (updDigest_length s) hd htagLen hcLen
  obtain ⟨hmagic, hseq, hsize⟩ := parcelStart_numbers (len := s.updLen) hi32 (s.updDigest ++ d ++ tag ++ c)
  have hassoc : parcelStart s.updLen i ++ (s.updDigest ++ d ++ tag ++ c) = parcelStart s.updLen i ++ s.updDigest ++ d ++ tag ++ c := by simp only [List.append_assoc]
  rw [hassoc] at hmagic hseq hsize
  have hcrc : leNat (parcelStart s.updLen i ++ s.updDigest ++ d ++ tag ++ c) 16464 4 = crc32c (parcelStart s.updLen i ++ s.updDigest ++ d ++ tag) := by
    rw [leNat_of_drop hdrop, ← hc, leNat_leBytes]
    exact Nat.mod_eq_of_lt (crc32c_lt _)
  have htagGood : gcmTag16 s.updKs (parcelIv i) (parcelStart s.updLen i ++ s.updDigest) d = tag := htag
  have hopen : ¬ s.updState = 0 := by rw [hstate]; decide
  have hin : ¬ s.updParcels ≤ i := Nat.not_le.mpr hi
  simp only [State.parcelStatus, hseq, hmagic, hsize, hlen, htake, hcrc, hdigest, h64, hdata, htagOf, htagGood, haccept, howner, Bool.not_true, Bool.false_eq_true,
    if_false, ne_eq, not_true_eq_false, or_self, if_neg hopen, hin, Bool.true_eq_false]

/-! ## A parcel in its slot -/

/-- The state that holds parcel `i`: the time, its data and tag in the flash, its bit, an idle count of 0. -/
def State.parcelKept (s : State) (i : Nat) (d tag : List Nat) : State :=
  (((({ s with cfg := { s.cfg with parcelAt := some s.clk.ns } } : State).flashPut (hamperSlot i) d).flashPut (hamperTag i) tag).svSet
    (16 + i / 64) (i % 64) (i % 64) 1).svSet 15 63 32 0

section
variable (s : State) (i : Nat) (d tag : List Nat)

theorem frame_parcelStored : Frame [] [] [.cfg, .flash] s
    ((({ s with cfg := { s.cfg with parcelAt := some s.clk.ns } } : State).flashPut (hamperSlot i) d).flashPut (hamperTag i) tag) :=
  (((frame_cfg s _).trans (frame_flashPut _ _ _)).trans (frame_flashPut _ _ _)).mono (by simp) (by simp) (by simp)

theorem frame_parcelKept : Frame [] [] [.cfg, .flash, .souv] s (s.parcelKept i d tag) :=
  (((frame_parcelStored s i d tag).trans (frame_svSet _ _ _ _ _)).trans (frame_svSet _ _ _ _ _)).mono (by simp) (by simp) (by simp)

theorem evNow_parcelKept : (s.parcelKept i d tag).evNow = s.evNow := by
  rw [State.parcelKept, evNow_svSet, evNow_svSet]
  rfl

/-- Words other than the state and the bitmap's. -/
theorem sv_parcelKept_ne {w : Nat} (h15 : w ≠ 15) (h : w ≠ 16 + i / 64) : (s.parcelKept i d tag).sv w = s.sv w := by
  rw [State.parcelKept, sv_svSet_ne _ h15, sv_svSet_ne _ h, (frame_parcelStored s i d tag).sv_eq (by decide)]

theorem svf_parcelKept_state : (s.parcelKept i d tag).updState = s.updState ∧ (s.parcelKept i d tag).updIdle = 0 := by
  refine ⟨?_, ?_⟩
  · rw [State.updState, State.parcelKept, svf_svSet_bits (by decide) (by decide) (by decide) (by decide), svf_svSet_ne _ (by omega),
      (frame_parcelStored s i d tag).svf_eq (by decide)]
    rfl
  · rw [State.updIdle, State.parcelKept, svf_svSet_same (by decide) (by decide), Nat.zero_mod]

/-- The bitmap: bit `i` sets, the others stay. -/
theorem updHas_parcelKept (hi : i < 3072) : (s.parcelKept i d tag).updHas i = true ∧ ∀ j, j ≠ i → j < 3072 → (s.parcelKept i d tag).updHas j = s.updHas j := by
  have hmod (k : Nat) : k % 64 < 64 := Nat.mod_lt k (by decide)
  refine ⟨?_, fun j hj hlt => ?_⟩
  · rw [State.updHas, State.parcelKept, svf_svSet_ne _ (by omega), svf_svSet_same (by omega) (hmod i), Nat.add_sub_cancel_left]
    rfl
  · rw [State.updHas, State.updHas, State.parcelKept, svf_svSet_ne _ (by omega)]
    by_cases hword : j / 64 = i / 64
    · rw [hword, svf_svSet_bits (by omega) (hmod j) (Nat.le_refl _) (by omega), (frame_parcelStored s i d tag).svf_eq (by decide)]
    · rw [svf_svSet_ne _ (by omega), (frame_parcelStored s i d tag).svf_eq (by decide)]

end

/-- A list of flags counts one more where one more is set. -/
theorem filter_range_succ {f g : Nat → Bool} {i n : Nat} (hi : i < n) (hf : f i = false) (hg : g i = true) (h : ∀ j, j ≠ i → j < n → g j = f j) :
    ((List.range n).filter g).length = ((List.range n).filter f).length + 1 := by
  induction n with
  | zero => exact absurd hi (Nat.not_lt_zero i)
  | succ n ih =>
    rw [List.range_succ, List.filter_append, List.filter_append, List.length_append, List.length_append]
    by_cases hin : i = n
    · subst hin
      have hsame : (List.range i).filter g = (List.range i).filter f := List.filter_congr fun j hj => by
        have hlt := List.mem_range.mp hj
        exact h j (by omega) (by omega)
      simp [hsame, hf, hg]
    · have hlast : [n].filter g = [n].filter f := List.filter_congr fun j hj => by
        rw [List.mem_singleton] at hj
        exact h j (by omega) (by omega)
      rw [ih (by omega) fun j hj hlt => h j hj (by omega), hlast]
      omega

theorem updHeld_parcelKept {s : State} {i : Nat} (d tag : List Nat) (hi : i < s.updParcels) (hmax : s.updParcels ≤ 3072) (hhas : s.updHas i = false) :
    (s.parcelKept i d tag).updHeld = s.updHeld + 1 ∧ (s.parcelKept i d tag).updParcels = s.updParcels := by
  obtain ⟨hset, hothers⟩ := updHas_parcelKept s i d tag (by omega)
  have hparcels : (s.parcelKept i d tag).updParcels = s.updParcels := by
    rw [State.updParcels, State.updParcels, State.svf, State.svf, sv_parcelKept_ne _ _ _ _ (by decide) (by omega)]
  refine ⟨?_, hparcels⟩
  rw [State.updHeld, State.updHeld, hparcels]
  exact filter_range_succ hi hhas hset fun j hj hlt => hothers j hj (by omega)

/-- The parcel's data and tag are in its slot. -/
theorem flash_parcelKept {s : State} {i : Nat} {d tag : List Nat} (hi : i < 3072) (hd : d.length = 16384) (htag : tag.length = 16)
    (hdBytes : ∀ b ∈ d, b < 256) (htagBytes : ∀ b ∈ tag, b < 256) :
    (∀ j : Nat, j < 16384 → (s.parcelKept i d tag).flashByte (hamperSlot i + j) = d.getD j 0) ∧ (s.parcelKept i d tag).flashBytes (hamperTag i) 16 = tag := by
  have hsv (a : Nat) : (s.parcelKept i d tag).flashByte a =
      ((({ s with cfg := { s.cfg with parcelAt := some s.clk.ns } } : State).flashPut (hamperSlot i) d).flashPut (hamperTag i) tag).flashByte a :=
    ((frame_svSet _ _ _ _ _).trans (frame_svSet _ _ _ _ _)).flashByte_eq (by decide) a
  refine ⟨fun j hj => ?_, ?_⟩
  · rw [hsv, flashByte_flashPut, if_neg (by simp only [hamperSlot, hamperTag]; omega), flashByte_flashPut, if_pos (by omega), Nat.add_sub_cancel_left]
    exact Nat.mod_eq_of_lt (byteAt_lt hdBytes j)
  · rw [flashBytes_eq_map]
    have hbyte (j : Nat) (hj : j ∈ List.range 16) : (s.parcelKept i d tag).flashByte (hamperTag i + j) = byteAt tag j := by
      have hlt := List.mem_range.mp hj
      rw [hsv, flashByte_flashPut, if_pos (by omega), Nat.add_sub_cancel_left]
      exact Nat.mod_eq_of_lt (byteAt_lt htagBytes j)
    rw [List.map_congr_left hbyte, ← htag, map_byteAt]

/-- The store was written. -/
theorem svSpoil_written (s : State) : s.svSpoil true = s := if_pos rfl

/-- A good parcel that is not the last one. -/
theorem updParcel_good {s : State} {src : Nat × Nat} {p : List Nat} {i : Nat} (hst : s.parcelStatus src p = upOk) (hseq : leNat p 4 4 = i)
    (hi : i < s.updParcels) (hmax : s.updParcels ≤ 3072) (hhas : s.updHas i = false) (hmore : s.updHeld + 1 < s.updParcels) :
    s.updParcel src p true true = (upOk, s.parcelKept i ((p.drop 64).take 16384) ((p.drop 16448).take 16)) := by
  obtain ⟨hheld, hparcels⟩ := updHeld_parcelKept ((p.drop 64).take 16384) ((p.drop 16448).take 16) hi hmax hhas
  have hnot : ¬ s.parcelStatus src p ≠ upOk := fun h => h hst
  have hkept : s.updParcel src p true true = (upOk, (if (s.parcelKept i ((p.drop 64).take 16384) ((p.drop 16448).take 16)).updHeld =
      (s.parcelKept i ((p.drop 64).take 16384) ((p.drop 16448).take 16)).updParcels
      then (s.parcelKept i ((p.drop 64).take 16384) ((p.drop 16448).take 16)).updStage
      else s.parcelKept i ((p.drop 64).take 16384) ((p.drop 16448).take 16)).svSpoil true) := by
    rw [State.updParcel, if_neg hnot, hseq, if_neg (ne_true_of_eq_false hhas), if_neg (by decide)]
    rfl
  rw [hkept, svSpoil_written, hheld, hparcels, if_neg (by omega)]

end Sys2Proof.Machine
end

section
/-!
PROOFS. The commands of an update session (R379 to R386).
-/

namespace Sys2Proof.Machine

/-! ## States with the same words -/

section
variable {s t : State} (h : ∀ w, t.sv w = s.sv w)
include h

theorem updHas_congr (i : Nat) : t.updHas i = s.updHas i := by rw [State.updHas, State.updHas, State.svf, State.svf, h]

theorem updParcels_congr : t.updParcels = s.updParcels := by rw [State.updParcels, State.updParcels, State.svf, State.svf, h]

theorem updHeld_congr : t.updHeld = s.updHeld := by
  rw [State.updHeld, State.updHeld, updParcels_congr h, List.filter_congr fun i _ => updHas_congr h i]

theorem sessionReply_congr (st : Nat) : t.sessionReply st = s.sessionReply st := by
  simp only [State.sessionReply, State.updState, State.updKind, State.updNonce, State.svBytes, State.svf, updParcels_congr h, updHeld_congr h, h]

theorem updCrc_congr : t.updCrc = s.updCrc := by rw [State.updCrc, State.updCrc, svBytes_congr fun _ _ => h _]

end

/-- The facts of a new session, between states with the same words. -/
theorem SessionOpen.of_sv {r s u t : State} {kind len source : Nat} {digest : List Nat} (h : SessionOpen r kind len digest source u) (hsv : ∀ w, t.sv w = u.sv w)
    (hstart : ∀ w, r.sv w = s.sv w) (hfctr : r.fctr = s.fctr) (hkey : r.mgmtKey = s.mgmtKey) : SessionOpen s kind len digest source t := by
  have hbytes (w n : Nat) : t.svBytes w n = u.svBytes w n := svBytes_congr fun i _ => hsv (w + i)
  have hbits (w hi lo : Nat) : t.svf w hi lo = u.svf w hi lo := by rw [State.svf, State.svf, hsv]
  have hcrc := updCrc_congr hsv
  obtain ⟨hstate, hidle, hkind, hlen, hparcels, hdigest, hsource, hsrcKind, hheld, hnonce, hks, hseal, hothers⟩ := h
  refine ⟨(hbits 15 2 0).trans hstate, (hbits 15 63 32).trans hidle, (hbits 0 0 0).trans hkind, (hbits 0 63 32).trans hlen, (updParcels_congr hsv).trans hparcels,
    (hbytes 3 6).trans hdigest, ?_, (hbits 0 1 1).trans hsrcKind, (updHeld_congr hsv).trans hheld, ?_, ?_, ?_,
    fun w hw => ((hsv w).trans (hothers w hw)).trans (hstart w)⟩
  · rw [State.updSource, hsv, hsv]
    exact hsource
  · rw [← hfctr]
    exact (hbytes 9 2).trans hnonce
  · rw [← hkey, show t.updKs = u.updKs from hbytes 11 4, show t.updKind = u.updKind from hbits 0 0 0, show t.updDigest = u.updDigest from hbytes 3 6,
      show t.updNonce = u.updNonce from hbytes 9 2]
    exact hks
  · rw [hbits, hcrc]
    exact hseal

/-! ## The end of a session -/

theorem frame_updEnd (s : State) : Frame [] [] [.souv] s s.updEnd :=
  (((frame_svPut s 15 0).trans (frame_svSet _ 64 5 3 0)).trans (frame_raise _ _ _)).mono (by simp) (by simp) (by simp)

theorem evNow_updEnd (s : State) : s.updEnd.evNow = s.evNow ++ [⟨0x1605, 0⟩] := by
  rw [State.updEnd, evNow_raise, evNow_svSet, State.updNone, evNow_svPut]

/-- No session, no install to repeat, the trial as it was. -/
theorem updEnd_words (s : State) : s.updEnd.updState = 0 ∧ s.updEnd.updStep = 0 ∧ s.updEnd.trial = s.trial ∧ ∀ w, w ≠ 15 → w ≠ 64 → s.updEnd.sv w = s.sv w := by
  have hraise (w : Nat) : s.updEnd.sv w = ((s.svPut 15 0).svSet 64 5 3 0).sv w := (frame_raise _ _ _).sv_eq (by simp) w
  have hbits (w hi lo : Nat) : s.updEnd.svf w hi lo = ((s.svPut 15 0).svSet 64 5 3 0).svf w hi lo := by rw [State.svf, State.svf, hraise]
  refine ⟨?_, ?_, ?_, fun w h15 h64 => ?_⟩
  · rw [State.updState, hbits, svf_svSet_ne _ (by decide), svf_svPut (by decide) (by decide)]
    rfl
  · rw [State.updStep, hbits, svf_svSet_same (by decide) (by decide), Nat.zero_mod]
  · rw [State.trial, State.trial, hbits, svf_svSet_bits (by decide) (by decide) (by decide) (by decide), State.svf, State.svf, sv_svPut_ne _ (by decide)]
  · rw [hraise, sv_svSet_ne _ h64, sv_svPut_ne _ h15]

theorem busWrite_cancel {s : State} (hd : s.dark = false) (hstate : s.updState ≠ 0) : s.busWrite .pcie R.UPD_CMD 0x5A3C0001 4 = s.updEnd := by
  have hcmd : s.busWrite .pcie R.UPD_CMD 0x5A3C0001 4 = s.updCmd 0x5A3C0001 :=
    busWrite_command (by decide) hd (by decide) (by decide) rfl rfl (by decide) (by decide) rfl rfl
  have hact : s.updCmd 0x5A3C0001 = if s.updState = 0 then s else s.updEnd := rfl
  rw [hcmd, hact, if_neg hstate]

/-! ## An idle minute -/

/-- The state at the end of the running minute of uptime, with an idle count of `n`. -/
def State.minuteIdle (s : State) (n : Nat) : State := (s.toNs ((s.clk.ns / 60000000000 + 1) * 60000000000)).svSet 15 63 32 n

theorem frame_svSpoil (s : State) (ok : Bool) : Frame [] [] [.souv] s (s.svSpoil ok) := by
  unfold State.svSpoil
  split
  · exact (Frame.refl s).mono (by simp) (by simp) (by simp)
  · exact frame_svPut s 66 _

theorem evNow_svSpoil (s : State) (ok : Bool) : (s.svSpoil ok).evNow = s.evNow := by
  unfold State.svSpoil
  split
  · rfl
  · exact evNow_svPut s 66 _

theorem sv_svSpoil_ne (s : State) (ok : Bool) {w : Nat} (h : w ≠ 66) : (s.svSpoil ok).sv w = s.sv w := by
  unfold State.svSpoil
  split
  · rfl
  · exact sv_svPut_ne s h _

/-- A spoilt record fails its CRC. -/
theorem svSpoil_crc (s : State) : (s.svSpoil false).svf 66 31 0 ≠ (s.svSpoil false).updCrc % 2 ^ 32 := by
  have hcrc : (s.svSpoil false).updCrc = s.updCrc := by
    rw [State.updCrc, State.updCrc, svBytes_congr fun i hi => sv_svSpoil_ne s false (by omega)]
  have hput : s.svSpoil false = s.svPut 66 (0xFFFFFFFF - s.updCrc) := if_neg Bool.false_ne_true
  have hlt : s.updCrc < 2 ^ 32 := crc32c_lt _
  rw [hcrc, hput, svf_svPut (by decide) (by decide), bitsOf]
  generalize s.updCrc = c at hlt
  omega

theorem frame_minuteIdle (s : State) (n : Nat) (ok : Bool) : Frame [] [] [.clk, .souv] s ((s.minuteIdle n).svSpoil ok) :=
  (((frame_toNs s _).trans (frame_svSet _ 15 63 32 n)).trans (frame_svSpoil _ ok)).mono (by simp) (by simp) (by simp)

/-- A minute below the limit with no parcel in it. -/
theorem idleMinute_waits {s : State} {ok : Bool} (hdead : s.isl.dead = false) (hstate : s.updState = 1) (hparcel : s.cfg.parcelAt = none)
    (hlimit : s.updIdle + 1 < 60 * s.rdn R.UPD_IDLE) : s.idleMinute ok = (s.minuteIdle (s.updIdle + 1)).svSpoil ok := by
  have hopen : (s.toNs ((s.clk.ns / 60000000000 + 1) * 60000000000)).updState = 1 := ((frame_toNs s _).svf_eq (by decide) 15 2 0).trans hstate
  have hidle : (s.toNs ((s.clk.ns / 60000000000 + 1) * 60000000000)).updIdle = s.updIdle := (frame_toNs s _).svf_eq (by decide) 15 63 32
  have hquiet : (s.toNs ((s.clk.ns / 60000000000 + 1) * 60000000000)).cfg.parcelAt = none := hparcel
  have hminutes : ((s.minuteIdle (s.updIdle + 1)).svSpoil ok).rdn R.UPD_IDLE = s.rdn R.UPD_IDLE := (frame_minuteIdle s (s.updIdle + 1) ok).rdn_eq (by simp)
  have hbelow : ¬ 60 * ((s.minuteIdle (s.updIdle + 1)).svSpoil ok).rdn R.UPD_IDLE ≤ s.updIdle + 1 := by
    rw [hminutes]
    omega
  rw [State.minuteIdle] at hbelow ⊢
  simp only [State.idleMinute, hdead, Bool.false_eq_true, if_false, hopen, hquiet, ne_eq, not_true_eq_false, or_self, hidle, if_neg hbelow]

/-- What such a minute leaves. -/
theorem minuteIdle_words {s : State} {n : Nat} (ok : Bool) (hn : n < 2 ^ 32) : ((s.minuteIdle n).svSpoil ok).updIdle = n ∧
    ((s.minuteIdle n).svSpoil ok).updState = s.updState ∧ (s.clk.ns / 60000000000 + 1) * 60000000000 ≤ ((s.minuteIdle n).svSpoil ok).clk.ns ∧
    ((s.minuteIdle n).svSpoil ok).evNow = s.evNow ∧ ∀ w, w ≠ 15 → w ≠ 66 → ((s.minuteIdle n).svSpoil ok).sv w = s.sv w := by
  have hword : ((s.minuteIdle n).svSpoil ok).sv 15 = (s.minuteIdle n).sv 15 := sv_svSpoil_ne _ ok (by decide)
  refine ⟨?_, ?_, ?_, ?_, fun w h15 h66 => ?_⟩
  · rw [State.updIdle, State.svf, hword, ← State.svf, State.minuteIdle, svf_svSet_same (by decide) (by decide)]
    exact Nat.mod_eq_of_lt hn
  · rw [State.updState, State.svf, hword, ← State.svf, State.minuteIdle, svf_svSet_bits (by decide) (by decide) (by decide) (by decide),
      (frame_toNs s _).svf_eq (by decide)]
    rfl
  · have hclk : ((s.minuteIdle n).svSpoil ok).clk = (s.toNs ((s.clk.ns / 60000000000 + 1) * 60000000000)).clk :=
      ((frame_svSet _ 15 63 32 n).trans (frame_svSpoil _ ok)).part (p := .clk) (by decide)
    rw [hclk]
    exact le_toNs s _
  · rw [evNow_svSpoil, State.minuteIdle, evNow_svSet, toNs_evNow]
  · rw [sv_svSpoil_ne _ ok h66, State.minuteIdle, sv_svSet_ne _ h15, (frame_toNs s _).sv_eq (by decide)]

/-! ## The messages -/

theorem emit_out_of_none {u : State} (h : u.out = []) (o : Out) : (u.emit o).out = [o] := congrArg (· ++ [o]) h

/-- A datagram that was sent changes nothing that the next one says of the module. -/
theorem sxGram_sent (u : State) (o : Out) (ver flags ty seq frag : Nat) (body : List Nat) :
    (u.emit o).finish.sxGram ver flags ty seq frag body = u.sxGram ver flags ty seq frag body := by
  have hkey : (u.emit o).finish.cfg.key = u.cfg.key := by rw [finish_cfg, emit_cfg]
  have hpins : (u.emit o).finish.pins.mid = u.pins.mid := by rw [finish_pins, emit_pins]
  have hboot : (u.emit o).finish.rd R.BIN_SX_BOOT_ID = u.rd R.BIN_SX_BOOT_ID := by rw [rd_finish, rd_emit]
  exact sxGram_congr hkey hpins hboot ver flags ty seq frag body

theorem updOpen_completes {s : State} {m : SxMsg} {n : Nat} (hm : s.sx.msgs = [m]) (hsrc : m.src.relay = none) (hty : m.ty = 0x40)
    (hbytes : m.body.all (fun b => decide (b < 256)) = true) (hn : leNat m.body 4 4 = n) (h1 : 1 ≤ n) (hmax : n ≤ 50331648)
    (hip : m.src.ip < 2 ^ 128) (haccept : s.on F.UPD_CTL_ACCEPT = true) (htrial : s.trial ≠ 1) (hstate : s.updState = 0) :
    Completes (.updOpen true) s fun t => SessionOpen s (byteAt m.body 0 % 2) n ((List.range 48).map (fun i => byteAt m.body (8 + i))) m.src.ip t ∧
    t.out = [.datagram m.src.mgt m.src.ip m.src.udp (t.sxGram m.ver 1 m.ty m.seq 128 (wordBytes (t.sessionReply 0)))] ∧ t.sx = { s.sx with msgs := [] } ∧
    Logged [⟨0x1602, 0⟩] s t ∧ Keeps [] [] [.sx, .souv, .fctr, .out, .log] s t := by
  have hall : ∀ b ∈ m.body, b < 256 := fun b hb => of_decide_eq_true (List.all_eq_true.mp hbytes b hb)
  have hdigest : ∀ b ∈ (List.range 48).map (fun i => byteAt m.body (8 + i)), b < 256 := by
    intro b hb
    obtain ⟨i, -, rfl⟩ := List.mem_map.mp hb
    exact byteAt_lt hall _
  have hsession := updStart_open (s := s.begin.sxTaken) (source := m.src.ip) (Nat.mod_lt (byteAt m.body 0) (by decide)) hmax (by simp) hdigest hip
  have hfresh := updOpen_fresh (s := s.begin.sxTaken) (src := (0, m.src.ip)) hn h1 hmax haccept htrial hstate
  have hframe := (frame_sxTaken s.begin).trans (frame_updStart s.begin.sxTaken (0, m.src.ip) (byteAt m.body 0 % 2) n ((List.range 48).map (fun i => byteAt m.body (8 + i))))
  have hsx : (s.begin.sxTaken.updStart (0, m.src.ip) (byteAt m.body 0 % 2) n ((List.range 48).map (fun i => byteAt m.body (8 + i)))).sx = { s.sx with msgs := [] } :=
    (frame_updStart s.begin.sxTaken _ _ _ _).part (p := .sx) (by decide)
  have hev := evNow_updStart s.begin.sxTaken (0, m.src.ip) (byteAt m.body 0 % 2) n ((List.range 48).map (fun i => byteAt m.body (8 + i)))
  generalize s.begin.sxTaken.updStart (0, m.src.ip) (byteAt m.body 0 % 2) n ((List.range 48).map (fun i => byteAt m.body (8 + i))) = u
    at hsession hfresh hframe hsx hev
  have hsource : sxSource m.src = (0, m.src.ip) := by rw [sxSource, hsrc]
  have hop : s.begin.sxUpdOpen true = u.emit (.datagram m.src.mgt m.src.ip m.src.udp (u.sxGram m.ver 1 m.ty m.seq 128 (wordBytes (u.sessionReply 0)))) := by
    rw [State.sxUpdOpen, sxServe_one (s := s.begin) hm hty rfl]
    simp only [hsource, hfresh]
    refine sxSend_short hsrc ?_ m.ver 1 m.ty m.seq
    rw [wordBytes_length, sessionReply_length]
    decide
  have hsv (o : Out) (w : Nat) : (u.emit o).finish.sv w = u.sv w := by rw [sv_finish, (frame_emit u o).sv_eq (by simp)]
  refine completes_of_frame (op := (·.sxUpdOpen true)) rfl hop ((hframe.trans (frame_emit u _)).mono (by simp) (by simp) (by simp)) (.inr (by simp))
    fun hkeeps => ⟨hsession.of_sv (hsv _) (fun _ => rfl) rfl rfl, ?_, ?_, ?_, hkeeps⟩
  · rw [sessionReply_congr (hsv _), sxGram_sent, finish_out]
    exact emit_out_of_none (hframe.part (p := .out) (by decide)) _
  · rw [finish_sx, emit_sx]
    exact hsx
  · refine finish_logged ?_ ?_ (by decide) (by decide)
    · rw [emit_evNow, hev]
      rfl
    · rw [emit_log, hframe.part (p := .log) (by decide)]
      exact ⟨rfl, rfl⟩

theorem flashByte_finish (s : State) (a : Nat) : s.finish.flashByte a = s.flashByte a := by rw [State.flashByte, State.flashByte, finish_flash]

/-- The pieces of a parcel that the module keeps. -/
theorem parcelBytes_pieces {len i : Nat} {digest ks d : List Nat} (hi : i < 2 ^ 32) (hdigest : digest.length = 48) (hd : d.length = 16384) :
    leNat (parcelBytes len digest ks i d) 4 4 = i ∧ ((parcelBytes len digest ks i d).drop 64).take 16384 = d ∧
    ((parcelBytes len digest ks i d).drop 16448).take 16 = parcelTag len digest ks i d := by
  rw [parcelBytes_eq]
  generalize hc : leBytes (crc32c (parcelStart len i ++ digest ++ d ++ parcelTag len digest ks i d)) 4 = c
  have hcLen : c.length = 4 := hc ▸ leBytes_length _ _
  obtain ⟨-, -, -, -, hdata, htag, -⟩ := parcel_pieces (parcelStart_length len i) hdigest hd (parcelTag_length len digest ks i d) hcLen
  obtain ⟨-, hseq, -⟩ := parcelStart_numbers (len := len) hi (digest ++ d ++ parcelTag len digest ks i d ++ c)
  refine ⟨?_, hdata, htag⟩
  simpa only [List.append_assoc] using hseq

/-- A good parcel is kept and acknowledged with the number held. -/
theorem sxUpdParcel_good {s : State} {m : SxMsg} {i : Nat} (hm : s.sx.msgs = [m]) (hsrc : m.src.relay = none) (hty : m.ty = 0x41)
    (hst : s.sxTaken.parcelStatus (0, m.src.ip) m.body = upOk) (hseq : leNat m.body 4 4 = i) (hstate : s.updState = 1) (hi : i < s.updParcels)
    (hmax : s.updParcels ≤ 3072) (hhas : s.updHas i = false) (hmore : s.updHeld + 1 < s.updParcels) :
    s.sxUpdParcel true true = (s.sxTaken.parcelKept i ((m.body.drop 64).take 16384) ((m.body.drop 16448).take 16)).emit
      (.datagram m.src.mgt m.src.ip m.src.udp ((s.sxTaken.parcelKept i ((m.body.drop 64).take 16384) ((m.body.drop 16448).take 16)).sxGram m.ver 1 m.ty m.seq 128
        (wordBytes [65536 * (i % 4096), s.updHeld + 1]))) := by
  have hsource : sxSource m.src = (0, m.src.ip) := by rw [sxSource, hsrc]
  have hgood := updParcel_good (s := s.sxTaken) hst hseq hi hmax hhas hmore
  obtain ⟨hheld, -⟩ := updHeld_parcelKept (s := s.sxTaken) ((m.body.drop 64).take 16384) ((m.body.drop 16448).take 16) hi hmax hhas
  obtain ⟨hopen, -⟩ := svf_parcelKept_state s.sxTaken i ((m.body.drop 64).take 16384) ((m.body.drop 16448).take 16)
  have hone : (s.sxTaken.parcelKept i ((m.body.drop 64).take 16384) ((m.body.drop 16448).take 16)).updState = 1 := hopen.trans hstate
  have hcount : s.sxTaken.updHeld = s.updHeld := updHeld_congr fun _ => rfl
  have hwords : [upOk + 65536 * (i % 4096), s.updHeld + 1] = [65536 * (i % 4096), s.updHeld + 1] := by rw [upOk, Nat.zero_add]
  rw [State.sxUpdParcel, sxServe_one hm hty rfl]
  simp only [hsource, hgood, hseq, hone, Nat.one_ne_zero, if_false, hheld, hcount, hwords]
  exact sxSend_short hsrc (by simp [wordBytes_length]) m.ver 1 m.ty m.seq

theorem updParcel_completes {s : State} {m : SxMsg} {i : Nat} {d : List Nat} (hm : s.sx.msgs = [m]) (hsrc : m.src.relay = none) (hty : m.ty = 0x41)
    (hd : d.length = 16384) (hbytes : d.all (fun b => decide (b < 256)) = true) (hbody : m.body = parcelBytes s.updLen s.updDigest s.updKs i d)
    (haccept : s.on F.UPD_CTL_ACCEPT = true) (hstate : s.updState = 1) (hi : i < s.updParcels) (hhas : s.updHas i = false) (hmore : s.updHeld + 1 < s.updParcels)
    (hlen : s.updLen ≤ 50331648) (hparcels : s.updParcels = ceilDiv s.updLen 16384) (howner : s.updOwner (0, m.src.ip) = true) :
    Completes (.updParcel true true) s fun t => t.updHas i = true ∧ (∀ j, j ≠ i → j < 3072 → t.updHas j = s.updHas j) ∧
    (∀ j : Nat, j < 16384 → t.flashByte (hamperSlot i + j) = d.getD j 0) ∧ t.flashBytes (hamperTag i) 16 = (m.body.drop 16448).take 16 ∧ t.updState = 1 ∧
    t.updIdle = 0 ∧ t.updHeld = s.updHeld + 1 ∧ t.cfg = { s.cfg with parcelAt := some s.clk.ns } ∧ (∀ w, w ≠ 15 → w ≠ 16 + i / 64 → t.sv w = s.sv w) ∧
    t.out = [.datagram m.src.mgt m.src.ip m.src.udp (s.sxGram m.ver 1 m.ty m.seq 128 (wordBytes [65536 * (i % 4096), s.updHeld + 1]))] ∧
    t.sx = { s.sx with msgs := [] } ∧ Keeps [] [] [.sx, .souv, .flash, .cfg, .out] s t := by
  have hmax : s.updParcels ≤ 3072 := by
    rw [hparcels, ceilDiv]
    omega
  have hdBytes : ∀ b ∈ d, b < 256 := fun b hb => of_decide_eq_true (List.all_eq_true.mp hbytes b hb)
  have hbody' : m.body = parcelBytes s.begin.sxTaken.updLen s.begin.sxTaken.updDigest s.begin.sxTaken.updKs i d := hbody
  have hst := parcelStatus_good (s := s.begin.sxTaken) (src := (0, m.src.ip)) hd haccept hstate hi howner
  rw [← hbody'] at hst
  obtain ⟨hseq, hdata, htag⟩ := parcelBytes_pieces (len := s.updLen) (ks := s.updKs) (i := i) (by omega) (updDigest_length s) hd
  rw [← hbody] at hseq hdata htag
  have htagLen : ((m.body.drop 16448).take 16).length = 16 := by rw [htag, parcelTag_length]
  have htagBytes : ∀ b ∈ (m.body.drop 16448).take 16, b < 256 := by
    rw [htag]
    exact parcelTag_bytes _ _ _ _ _
  have hop := sxUpdParcel_good (s := s.begin) hm hsrc hty hst hseq hstate hi hmax hhas hmore
  rw [hdata] at hop
  generalize (m.body.drop 16448).take 16 = tag at hop htagLen htagBytes
  have hframe := (frame_sxTaken s.begin).trans (frame_parcelKept s.begin.sxTaken i d tag)
  have hev := evNow_parcelKept s.begin.sxTaken i d tag
  obtain ⟨hset, hothers⟩ := updHas_parcelKept s.begin.sxTaken i d tag (by omega)
  obtain ⟨hopen, hidle⟩ := svf_parcelKept_state s.begin.sxTaken i d tag
  obtain ⟨hheld, -⟩ := updHeld_parcelKept (s := s.begin.sxTaken) d tag hi hmax hhas
  obtain ⟨hslot, htagAt⟩ := flash_parcelKept (s := s.begin.sxTaken) (i := i) (by omega) hd htagLen hdBytes htagBytes
  have hwords (w : Nat) (h15 : w ≠ 15) (h : w ≠ 16 + i / 64) := sv_parcelKept_ne s.begin.sxTaken i d tag h15 h
  have hcfg : (s.begin.sxTaken.parcelKept i d tag).cfg = { s.cfg with parcelAt := some s.clk.ns } :=
    ((frame_svSet _ _ _ _ _).trans (frame_svSet _ 15 63 32 0)).part (p := .cfg) (by decide)
  have hkey : (s.begin.sxTaken.parcelKept i d tag).cfg.key = s.cfg.key := by simp only [hcfg]
  have hsx : (s.begin.sxTaken.parcelKept i d tag).sx = { s.sx with msgs := [] } := (frame_parcelKept s.begin.sxTaken i d tag).part (p := .sx) (by decide)
  have hgram (ver flags ty seq frag : Nat) (body : List Nat) :
      (s.begin.sxTaken.parcelKept i d tag).sxGram ver flags ty seq frag body = s.sxGram ver flags ty seq frag body :=
    sxGram_congr hkey (congrArg PinSt.mid (hframe.part (p := .pins) (by decide))) (hframe.1 _ (by decide)) _ _ _ _ _ _
  generalize s.begin.sxTaken.parcelKept i d tag = u at hop hframe hev hset hothers hopen hidle hheld hslot htagAt hwords hcfg hsx hgram
  rw [hgram] at hop
  have hsv (o : Out) (w : Nat) : (u.emit o).finish.sv w = u.sv w := by rw [sv_finish, (frame_emit u o).sv_eq (by simp)]
  have hflash (o : Out) (a : Nat) : (u.emit o).finish.flashByte a = u.flashByte a := by rw [flashByte_finish, (frame_emit u o).flashByte_eq (by simp)]
  refine completes_of_frame (op := (·.sxUpdParcel true true)) rfl hop ((hframe.trans (frame_emit u _)).mono (by simp) (by simp) (by simp)) (.inl (by rw [emit_evNow, hev]; rfl))
    fun hkeeps => ⟨?_, fun j hj hlt => ?_, fun j hj => ?_, ?_, ?_, ?_, ?_, ?_, fun w h15 h => ?_, ?_, ?_, hkeeps⟩
  · rw [updHas_congr (hsv _), hset]
  · rw [updHas_congr (hsv _)]
    exact hothers j hj hlt
  · rw [hflash, hslot j hj]
  · rw [flashBytes_eq_map, List.map_congr_left fun j _ => hflash _ _, ← flashBytes_eq_map, htagAt]
  · rw [State.updState, State.svf, hsv]
    exact hopen.trans hstate
  · rw [State.updIdle, State.svf, hsv]
    exact hidle
  · rw [updHeld_congr (hsv _), hheld]
    exact congrArg (· + 1) (updHeld_congr fun _ => rfl)
  · rw [finish_cfg, emit_cfg, hcfg]
  · rw [hsv, hwords w h15 h]
    rfl
  · rw [finish_out]
    exact emit_out_of_none (hframe.part (p := .out) (by decide)) _
  · exact (finish_sx _).trans ((emit_sx _ _).trans hsx)

end Sys2Proof.Machine
end

section
/-!
PROOFS. The commands of an update session, settled (R379 to R386).
-/

namespace Sys2Proof.Machine

/-- Settles O44: a session's commands by what they write in the Souvenir store and the Hamper. -/
theorem updateSessionCommandsComplete : Obligations.UpdateSessionCommandsComplete := by
  unfold Obligations.UpdateSessionCommandsComplete
  refine ⟨fun s m n hm hsrc hty _ hbytes hn h1 hmax hip haccept htrial hstate => ?opening,
    fun s m i d hm hsrc hty hd hbytes hbody haccept hstate hi hhas hmore hlen hparcels howner =>
      updParcel_completes hm hsrc hty hd hbytes hbody haccept hstate hi hhas hmore hlen hparcels howner,
    fun s m hm hsrc hty => ?status, fun s m hm hsrc hty hstate howner hdigest => ?cancel, fun s hd hstate => ?command,
    fun s hdead hstate hparcel hlimit hn => ?minute, fun s hdead hstate hparcel hlimit hn => ?spoilt⟩
  case opening =>
    obtain ⟨t, ht, hsession, hrest⟩ := updOpen_completes hm hsrc hty hbytes hn h1 hmax hip haccept htrial hstate
    obtain ⟨hstate', hidle, hkind, hlen', hparcels, hdigest, hsource, hsrcKind, hheld, hnonce, hks, hseal, hothers⟩ := hsession
    exact ⟨t, ht, hstate', hidle, hkind, hlen', hparcels, hdigest, hsource, hsrcKind, hheld, hnonce, hks, hseal, hothers, hrest⟩
  case status =>
    have hop : s.begin.sxUpdStatus = s.begin.sxTaken.emit (.datagram m.src.mgt m.src.ip m.src.udp (s.sxGram m.ver 1 m.ty m.seq 128 (wordBytes (s.sessionReply 0)))) := by
      have hreply : s.begin.sxTaken.sessionReply upOk = s.sessionReply 0 := sessionReply_congr (fun _ => rfl) 0
      have hgram (body : List Nat) : s.begin.sxTaken.sxGram m.ver 1 m.ty m.seq 128 body = s.sxGram m.ver 1 m.ty m.seq 128 body :=
        (frame_sxTaken s.begin).sxGram_eq (by simp) (by simp) (by simp) _ _ _ _ _ _
      rw [State.sxUpdStatus, sxServe_one (s := s.begin) hm hty rfl, sxSend_short hsrc (by rw [wordBytes_length, sessionReply_length]; decide), hreply, hgram]
    exact completes_of_frame (op := (·.sxUpdStatus)) rfl hop ((frame_sxTaken s.begin).trans (frame_emit _ _)) (.inl rfl) fun hkeeps => ⟨rfl, rfl, hkeeps⟩
  case cancel =>
    have howner' : s.begin.sxTaken.updOwner (0, m.src.ip) = true := howner
    have hdigest' : s.begin.sxTaken.updDigest = m.body.take 48 := hdigest
    have hstate' : ¬ s.begin.sxTaken.updState = 0 := hstate
    have hframe := (frame_sxTaken s.begin).trans (frame_updEnd s.begin.sxTaken)
    have hop : s.begin.sxUpdCancel = s.begin.sxTaken.updEnd.emit (.datagram m.src.mgt m.src.ip m.src.udp (s.sxGram m.ver 1 m.ty m.seq 128 (leBytes 0 4))) := by
      have hsource : sxSource m.src = (0, m.src.ip) := by rw [sxSource, hsrc]
      have hend : s.begin.sxTaken.updCancel (0, m.src.ip) m.body = (upOk, s.begin.sxTaken.updEnd) := by
        simp only [State.updCancel, if_neg hstate', howner', hdigest', beq_self_eq_true, Bool.and_self, if_true]
      have hgram (body : List Nat) : s.begin.sxTaken.updEnd.sxGram m.ver 1 m.ty m.seq 128 body = s.sxGram m.ver 1 m.ty m.seq 128 body :=
        hframe.sxGram_eq (by decide) (by decide) (by decide) _ _ _ _ _ _
      rw [State.sxUpdCancel, sxServe_one (s := s.begin) hm hty rfl]
      simp only [hsource, hend]
      rw [sxReply_nil hsrc, hgram, upOk]
    have hsx : s.begin.sxTaken.updEnd.sx = { s.sx with msgs := [] } := (frame_updEnd s.begin.sxTaken).part (p := .sx) (by decide)
    have hev := evNow_updEnd s.begin.sxTaken
    obtain ⟨hnone, hstep, htrial, hwords⟩ := updEnd_words s.begin.sxTaken
    generalize s.begin.sxTaken.updEnd = u at hop hframe hsx hev hnone hstep htrial hwords
    have hsv (o : Out) (w : Nat) : (u.emit o).finish.sv w = u.sv w := by rw [sv_finish, (frame_emit u o).sv_eq (by simp)]
    have hbits (o : Out) (w hi lo : Nat) : (u.emit o).finish.svf w hi lo = u.svf w hi lo := by rw [State.svf, State.svf, hsv]
    refine completes_of_frame (op := (·.sxUpdCancel)) rfl hop ((hframe.trans (frame_emit u _)).mono (by simp) (by simp) (by simp)) (.inr (by simp))
      fun hkeeps => ⟨(hbits _ 15 2 0).trans hnone, (hbits _ 64 5 3).trans hstep, (hbits _ 64 1 0).trans htrial, fun w h15 h64 => (hsv _ w).trans (hwords w h15 h64),
        ?_, ?_, ?_, hkeeps⟩
    · rw [finish_out]
      exact emit_out_of_none (hframe.part (p := .out) (by decide)) _
    · rw [finish_sx, emit_sx, hsx]
    · refine finish_logged ?_ ?_ (by decide) (by decide)
      · rw [emit_evNow, hev]
        rfl
      · rw [emit_log, hframe.part (p := .log) (by decide)]
        exact ⟨rfl, rfl⟩
  case command =>
    have hframe := frame_updEnd s.begin
    have hev := evNow_updEnd s.begin
    have hop := busWrite_cancel (s := s.begin) hd hstate
    obtain ⟨hnone, hstep, htrial, hwords⟩ := updEnd_words s.begin
    generalize s.begin.updEnd = u at hop hframe hev hnone hstep htrial hwords
    refine completes_of_frame (op := (·.busWrite .pcie R.UPD_CMD 0x5A3C0001 4)) rfl hop (hframe.mono (by simp) (by simp) (by simp)) (.inr (by simp))
      fun hkeeps => ⟨(svf_finish _ _ _ _).trans hnone, (svf_finish _ _ _ _).trans hstep, (svf_finish _ _ _ _).trans htrial, fun w h15 h64 => (sv_finish _ _).trans (hwords w h15 h64), ?_, hkeeps⟩
    refine finish_logged ?_ ?_ (by decide) (by decide)
    · rw [hev]
      rfl
    · rw [hframe.part (p := .log) (by decide)]
      exact ⟨rfl, rfl⟩
  case minute =>
    obtain ⟨hidle, hstate', hns, hev, hwords⟩ := minuteIdle_words (s := s.begin) (n := s.begin.updIdle + 1) true hn
    have hop := idleMinute_waits (s := s.begin) (ok := true) hdead hstate hparcel hlimit
    rw [svSpoil_written] at hop hidle hstate' hns hev hwords
    have hframe := (frame_toNs s.begin ((s.clk.ns / 60000000000 + 1) * 60000000000)).trans (frame_svSet _ 15 63 32 (s.updIdle + 1))
    refine completes_of_frame (op := (·.idleMinute true)) rfl hop (hframe.mono (by simp) (by simp) (by simp)) (.inl hev) fun hkeeps =>
      ⟨(svf_finish _ _ _ _).trans hidle, ((svf_finish _ _ _ _).trans hstate').trans hstate, hns, fun w h15 => ?_, hkeeps⟩
    rw [sv_finish, State.minuteIdle, sv_svSet_ne _ h15, (frame_toNs _ _).sv_eq (by decide), sv_begin]
  case spoilt =>
    obtain ⟨hidle, hstate', hns, hev, hwords⟩ := minuteIdle_words (s := s.begin) (n := s.begin.updIdle + 1) false hn
    have hop := idleMinute_waits (s := s.begin) (ok := false) hdead hstate hparcel hlimit
    have hframe := frame_minuteIdle s.begin (s.begin.updIdle + 1) false
    have hcrc := svSpoil_crc (s.begin.minuteIdle (s.begin.updIdle + 1))
    generalize (s.begin.minuteIdle (s.begin.updIdle + 1)).svSpoil false = u at hidle hstate' hns hev hwords hop hframe hcrc
    refine completes_of_frame (op := (·.idleMinute false)) rfl hop (hframe.mono (by simp) (by simp) (by simp)) (.inl hev) fun hkeeps =>
      ⟨(svf_finish _ _ _ _).trans hidle, ((svf_finish _ _ _ _).trans hstate').trans hstate, ?_, ?_,
        fun w h15 h66 => (sv_finish _ _).trans (hwords w h15 h66), hkeeps⟩
    · rw [finish_clk]
      exact hns
    · rw [svf_finish, updCrc_congr (sv_finish u)]
      exact hcrc

end Sys2Proof.Machine
end

section
/-!
PROOFS. Power-on (R356, R394), the time limits of resets (R395), and the end of the island's hold-up time (R394).
-/

namespace Sys2Proof.Machine

/-- The module 200 µs after VIN fell at `x`, HELM_OUT low, just before the island stops. -/
def State.heldUp (s : State) (x : Nat) : State := (s.toNs (x + 200000)).driveHelm false

theorem frame_heldUp (s : State) (x : Nat) : Frame [R.BIN_STATUS, R.TWN_STATUS] [] [.clk, .out] s (s.heldUp x) :=
  (frame_toNs s (x + 200000)).trans (frame_driveHelm _ false)

theorem heldUp_ns (s : State) (x : Nat) : x + 200000 ≤ (s.heldUp x).clk.ns := by
  have hclk : (s.heldUp x).clk = (s.toNs (x + 200000)).clk := (frame_driveHelm (s.toNs (x + 200000)) false).part (p := .clk) (by decide)
  rw [hclk]
  exact le_toNs _ _

/-- Settles O41: power-on and the end of the hold-up time leave the stores alone, and a warm reset that waits is carried out as itself or, at its time limit, as
a cold one. -/
theorem supplyResetCommandsComplete : Obligations.SupplyResetCommandsComplete := by
  unfold Obligations.SupplyResetCommandsComplete
  refine ⟨fun s => ?powerOn, fun s x n hreset hwaits hx => ?confirm, fun s x n hreset hwaits hx => ?timeout, fun s x hlow hvstby => ?holdUp⟩
  case powerOn =>
    exact run_of (op := (·.powerOn)) (u := s.begin.powerOn) rfl rfl rfl
      ⟨fun _ => rfl, fun _ => rfl, rfl, rfl, rfl, rfl, rfl, rfl, rfl, rfl, rfl⟩
  case confirm =>
    have hop : s.begin.selfRefreshConfirm = s.begin.resetNow 2 x := by
      have hbegin : s.begin.cfg.reset = some { kind := 2, source := x, since := n } := hreset
      have hw : s.begin.warmWaits = true := hwaits
      simp only [State.selfRefreshConfirm, hbegin, hw, if_true]
    have h := (resetNow_from (kind := 2) (source := x) (Frame.refl s.begin) (by simp) (by simp) (by omega)).finish
    exact run_of (op := (·.selfRefreshConfirm)) hop rfl rfl
      ⟨h.core, h.island, h.fns, h.cause, h.reset, h.stage, h.mem, h.souv, h.keys, h.flash, h.pending, h.run, h.ns, h.givenUp⟩
  case timeout =>
    have hop : s.begin.selfRefreshTimeout = (s.begin.toNs (n + 1000000)).resetNow 1 x := by
      have hbegin : s.begin.cfg.reset = some { kind := 2, source := x, since := n } := hreset
      have hw : s.begin.warmWaits = true := hwaits
      simp only [State.selfRefreshTimeout, hbegin, hw, if_true]
    have h := (resetNow_from (kind := 1) (source := x) (frame_toNs s.begin (n + 1000000)) (by decide) (by simp) (by omega)).finish
    rw [toNs_ns] at h
    exact run_of (op := (·.selfRefreshTimeout)) hop rfl rfl
      ⟨h.core, h.island, h.fns, h.cause, h.reset, h.stage, h.mem, h.souv, h.keys, h.flash, h.pending, h.run, h.ns, h.givenUp⟩
  case holdUp =>
    have hframe := frame_heldUp s.begin x
    have hop : s.begin.holdUpEnd = { (s.begin.heldUp x).powerOn with
        out := (s.begin.heldUp x).out
        clk := { (s.begin.heldUp x).powerOn.clk with ns := (s.begin.heldUp x).clk.ns }
        isl := { (s.begin.heldUp x).powerOn.isl with dead := true } } := by
      have hbegin : s.begin.isl.vinLow = some x := hlow
      have hv : s.begin.on F.BIN_STATUS_VSTBY = false := hvstby
      simp only [State.holdUpEnd, hbegin, hv, Bool.false_eq_true, if_false]
      rfl
    exact run_of (op := (·.holdUpEnd)) hop hframe.2.2.1 hframe.2.2.2.1
      ⟨rfl, fun _ => rfl, fun _ => rfl, hframe.part (p := .souv) (by decide), hframe.2.2.2.1, hframe.part (p := .flash) (by decide), rfl, heldUp_ns _ _,
        hframe.2.2.1, rfl⟩

end Sys2Proof.Machine
end

section
/-!
SUPPORT. What a read shows does not depend on what is on its way out, on the events of the step or on the waiting requests of Sextant (R4, R9, R413).
-/

namespace Sys2Proof.Machine

/-- A state with other messages on their way out, other events of the step and other tables of Sextant. -/
def State.mail (s : State) (o : List Out) (e : List Ev) (x : SxSt) : State := { s with out := o, evNow := e, sx := x }

section Mail
variable (s : State) (o : List Out) (e : List Ev) (x : SxSt)

@[simp] theorem rd_mail (a : Nat) : (s.mail o e x).rd a = s.rd a := rfl
@[simp] theorem rdn_mail (a : Nat) : (s.mail o e x).rdn a = s.rdn a := rfl
@[simp] theorem f_mail (y : Fld) : (s.mail o e x).f y = s.f y := rfl
@[simp] theorem on_mail (y : Fld) : (s.mail o e x).on y = s.on y := rfl
@[simp] theorem fn_mail (n : Nat) : (s.mail o e x).fn n = s.fn n := rfl
@[simp] theorem active_mail (n : Nat) : (s.mail o e x).active n = s.active n := rfl
@[simp] theorem encUnit_mail (c : Nat) : (s.mail o e x).encUnit c = s.encUnit c := rfl
@[simp] theorem phaseError_mail (c : Nat) : (s.mail o e x).phaseError c = s.phaseError c := rfl
@[simp] theorem compLoad_mail (c : Nat) : (s.mail o e x).compLoad c = s.compLoad c := rfl
@[simp] theorem compShare_mail (c : Nat) : (s.mail o e x).compShare c = s.compShare c := rfl
@[simp] theorem dcoNow_mail : (s.mail o e x).dcoNow = s.dcoNow := rfl
@[simp] theorem tin_mail (j : Nat) : (s.mail o e x).tin j = s.tin j := rfl
@[simp] theorem pllShown_mail (m : Nat) : (s.mail o e x).pllShown m = s.pllShown m := rfl
@[simp] theorem portFigure_mail (p k : Nat) : (s.mail o e x).portFigure p k = s.portFigure p k := rfl
@[simp] theorem sight_mail (k m : Nat) : (s.mail o e x).sight k m = s.sight k m := rfl
@[simp] theorem faultN_mail : (s.mail o e x).faultN = s.faultN := rfl
@[simp] theorem svf_mail (w hi lo : Nat) : (s.mail o e x).svf w hi lo = s.svf w hi lo := rfl
@[simp] theorem faultBytes_mail (i : Nat) : (s.mail o e x).faultBytes i = s.faultBytes i := rfl
@[simp] theorem updView_mail (a : Nat) : (s.mail o e x).updView a = s.updView a := rfl
@[simp] theorem audView_mail (a : Nat) : (s.mail o e x).audView a = s.audView a := rfl
@[simp] theorem mail_clk : (s.mail o e x).clk = s.clk := rfl
@[simp] theorem mail_cfg : (s.mail o e x).cfg = s.cfg := rfl
@[simp] theorem mail_keys : (s.mail o e x).keys = s.keys := rfl
@[simp] theorem mail_log : (s.mail o e x).log = s.log := rfl
@[simp] theorem mail_sx : (s.mail o e x).sx = x := rfl
@[simp] theorem mail_latch : (s.mail o e x).latch = s.latch := rfl

theorem tinPop_mail (j : Nat) : (s.mail o e x).tinPop j = ((s.tinPop j).1, (s.tinPop j).2.mail o e x) := by
  cases h : (s.tin j).fifo with
  | nil => simp only [State.tinPop, tin_mail, h]
  | cons c r =>
    rw [tinPop_cons h, tinPop_cons (s := s.mail o e x) h]
    rfl

variable {s x} (hgroups : x.groups.length = s.sx.groups.length) (hsubs : x.subs.length = s.sx.subs.length)
include hgroups hsubs

theorem binView_mail (a : Nat) : (s.mail o e x).binView a = s.binView a := by
  simp only [State.binView, mail_log, mail_clk, mail_cfg, mail_sx, rdn_mail, f_mail, faultN_mail, svf_mail, faultBytes_mail, hgroups, hsubs] <;> rfl

/-- Every register shows the same word. -/
theorem liveWord_mail (a : Nat) : (s.mail o e x).liveWord a = s.liveWord a := by
  simp only [State.liveWord, binView_mail o e hgroups hsubs, tinPop_mail, rdn_mail, fn_mail, mail_clk, active_mail, encUnit_mail, f_mail, phaseError_mail, compLoad_mail, compShare_mail,
    dcoNow_mail, tin_mail, pllShown_mail, portFigure_mail, audView_mail, sight_mail, updView_mail, mail_keys] <;> rfl

theorem view_mail (a : Nat) : (s.mail o e x).view a = s.view a := by
  simp only [State.view, liveWord_mail o e hgroups hsubs]

end Mail

/-- A read clears the RC fields of a register (R4). -/
def State.readClear (s : State) (a : Nat) (d : RegDef) : State :=
  if d.fields.any (fun x => x.acc == .rc) then
    s.wrn a (d.fields.foldl (fun t x => t + (if x.acc = .rc then 0 else bitsOf (s.rdn a) x.hi x.lo) * 2 ^ x.lo) 0)
  else s

/-- A read of PTP_TIN_j_CAP_0 pops a capture (R65). -/
def State.readPop (s : State) (a : Nat) : State :=
  if a = R.PTP_TIN_CTL 0 + 4 then (s.tinPop 0).2 else if a = R.PTP_TIN_CTL 1 + 4 then (s.tinPop 1).2 else s

/-- A read of the lowest word of a wide value latches the others (R9). -/
def State.readLatch (s : State) (a : Nat) : State :=
  match wideOf (wideReads ++ wideWrites) a with
  | some (lo, n) =>
    if a = lo then { s with latch := (upperWords lo n).foldl (fun t b => Tab.put (fun _ => (none : Option Word)) t b (some (s.view b))) s.latch } else s
  | none => s

theorem readEffect_of_none {a : Nat} (h : regDef a = none) (s : State) : s.readEffect a = s := by simp only [State.readEffect, h]

theorem readEffect_of_some {a : Nat} {d : RegDef} (h : regDef a = some d) (s : State) : s.readEffect a = ((s.readClear a d).readPop a).readLatch a := by
  simp only [State.readEffect, h, State.readClear, State.readPop, State.readLatch] <;> rfl

theorem readClear_mail (s : State) (o : List Out) (e : List Ev) (x : SxSt) (a : Nat) (d : RegDef) :
    (s.mail o e x).readClear a d = (s.readClear a d).mail o e x := by
  unfold State.readClear
  split <;> rfl

theorem readPop_mail (s : State) (o : List Out) (e : List Ev) (x : SxSt) (a : Nat) : (s.mail o e x).readPop a = (s.readPop a).mail o e x := by
  unfold State.readPop
  split
  · rw [tinPop_mail]
  · split
    · rw [tinPop_mail]
    · rfl

theorem readLatch_mail {s : State} (o : List Out) (e : List Ev) {x : SxSt} (hgroups : x.groups.length = s.sx.groups.length)
    (hsubs : x.subs.length = s.sx.subs.length) (a : Nat) : (s.mail o e x).readLatch a = (s.readLatch a).mail o e x := by
  unfold State.readLatch
  cases wideOf (wideReads ++ wideWrites) a with
  | none => rfl
  | some w =>
    simp only [view_mail o e hgroups hsubs]
    split <;> rfl

theorem sx_readClear (s : State) (a : Nat) (d : RegDef) : (s.readClear a d).sx = s.sx := by
  unfold State.readClear
  split <;> rfl

theorem sx_tinPop (s : State) (j : Nat) : (s.tinPop j).2.sx = s.sx := by
  cases h : (s.tin j).fifo with
  | nil => simp only [State.tinPop, h]
  | cons c r =>
    rw [tinPop_cons h]
    rfl

theorem sx_readPop (s : State) (a : Nat) : (s.readPop a).sx = s.sx := by
  unfold State.readPop
  split
  · exact sx_tinPop s 0
  · split
    · exact sx_tinPop s 1
    · rfl

/-- What a read does beside showing a register. -/
theorem readEffect_mail {s : State} (o : List Out) (e : List Ev) {x : SxSt} (hgroups : x.groups.length = s.sx.groups.length)
    (hsubs : x.subs.length = s.sx.subs.length) (a : Nat) : (s.mail o e x).readEffect a = (s.readEffect a).mail o e x := by
  cases h : regDef a with
  | none => rw [readEffect_of_none h, readEffect_of_none h]
  | some d =>
    have hsx : ((s.readClear a d).readPop a).sx = s.sx := (sx_readPop _ a).trans (sx_readClear s a d)
    rw [readEffect_of_some h, readEffect_of_some h, readClear_mail, readPop_mail, readLatch_mail o e (by rw [hsx, hgroups]) (by rw [hsx, hsubs])]

/-- The word of a READ by Sextant. -/
theorem readWord_mail {s : State} (o : List Out) (e : List Ev) {x : SxSt} (hgroups : x.groups.length = s.sx.groups.length)
    (hsubs : x.subs.length = s.sx.subs.length) (hclients : x.clients = s.sx.clients) (ip a : Nat) :
    (s.mail o e x).readWord (.sextant ip) a = s.readWord (.sextant ip) a := by
  simp only [State.readWord, State.winCtl, mail_sx, mail_latch, hclients, view_mail o e hgroups hsubs]

end Sys2Proof.Machine
end

section
/-!
SUPPORT. A write of CAL_STEP, and the pairs of a WRITE of Sextant (R7, R415).
-/

namespace Sys2Proof.Machine

/-- The end of a step that raised no event. -/
theorem finish_of_none {s : State} (h : s.evNow = []) : s.finish = s := by
  have hlog : s.finish.log = s.log := finish_log_nil h
  have hform : s.finish = { s with log := s.finish.log, evNow := [] } := rfl
  rw [hform, hlog, ← h]

/-- The row of CAL_STEP: STEP_US from 4 to 255. -/
def calStepDef : RegDef := ⟨R.CAL_STEP, [], 0x4, false, [⟨7, 0, .rw, false, .range 4 255⟩]⟩

/-- A write of CAL_STEP. -/
theorem regWrite_calStep (s : State) (path : BusPath) {v : Nat} (hmin : 4 ≤ v) (hmax : v ≤ 255) :
    s.regWrite path R.CAL_STEP (BitVec.ofNat 32 v) = s.wrn R.CAL_STEP v := by
  have hv : (BitVec.ofNat 32 v).toNat = v := by
    rw [BitVec.toNat_ofNat]
    omega
  have hlow : bitsOf v 7 0 = v := by
    simp only [bitsOf]
    omega
  have hok (n : Nat) : fieldsOk calStepDef.fields n (BitVec.ofNat 32 v).toNat = true := by
    simp [fieldsOk, calStepDef, FieldDef.sets, rngOk, hv, hlow, hmin, hmax]
  have hmerge (n : Nat) : mergeWord false calStepDef.fields n (BitVec.ofNat 32 v).toNat = v := by
    simp [mergeWord, calStepDef, fieldNew, hv, hlow]
  rw [regWrite_plain (d := calStepDef) (by rfl) (by rfl) (hok _) (by decide) (by decide) (by rfl) (by rfl), hmerge]

/-- It can be written on any path but the service port. -/
theorem busWrite_calStep {s : State} {path : BusPath} {v : Nat} (hpath : path ≠ .service) (hdark : s.dark = false) (hmin : 4 ≤ v) (hmax : v ≤ 255) :
    s.busWrite path R.CAL_STEP (BitVec.ofNat 32 v) 4 = s.wrn R.CAL_STEP v := by
  rw [busWrite_reg _ hpath hdark (by decide) (by decide), regWrite_calStep s path hmin hmax]

/-- One pair, CAL_STEP, written and acknowledged. -/
theorem sxCommit_calStep {s : State} {m : SxMsg} {v : Nat} (hsrc : m.src.relay = none) (hev : s.evNow = []) (hdark : s.dark = false) (hstage : s.cfg.stage ≠ 0)
    (hmin : 4 ≤ v) (hmax : v ≤ 255) :
    s.sxCommit m [(R.CAL_STEP, v)] = (s.wrn R.CAL_STEP v).emit (.datagram m.src.mgt m.src.ip m.src.udp (s.sxGram m.ver 1 m.ty m.seq 128 (leBytes 0 4 ++ leBytes 1 4))) := by
  have hwrite : s.finish.busWrite (.sextant m.src.ip) R.CAL_STEP (BitVec.ofNat 32 v) 4 = s.wrn R.CAL_STEP v := by
    rw [finish_of_none hev, busWrite_calStep (by simp) hdark hmin hmax]
  have hdone : s.sxWrites m.src.ip 0 [(R.CAL_STEP, v)] = (s.wrn R.CAL_STEP v, 1, true) := by
    have href : (s.wrn R.CAL_STEP v).refusals = 0 := by
      rw [State.refusals, show (s.wrn R.CAL_STEP v).evNow = [] from hev]
      rfl
    simp only [State.sxWrites, hwrite, href, ne_eq, not_true_eq_false, if_false]
  simp only [State.sxCommit, hdone, if_true]
  rw [if_neg (show (s.wrn R.CAL_STEP v).cfg.stage ≠ 0 from hstage), sxReply_short hsrc (by rw [leBytes_length]; decide)]
  exact congrArg (fun l => (s.wrn R.CAL_STEP v).emit (.datagram _ _ _ l)) ((frame_wrn s _ v).sxGram_eq (by simp) (by simp) (by decide) _ _ _ _ _ _)

end Sys2Proof.Machine
end

section
/-!
PROOFS. Group writes and events of Sextant (R413, R416, R419).
-/

namespace Sys2Proof.Machine

/-- A datagram to a client, with the header a reply to its request has. -/
def State.sxReplyTo (s : State) (m : SxMsg) (body : List Nat) : Out :=
  .datagram m.src.mgt m.src.ip m.src.udp (s.sxGram m.ver 1 m.ty m.seq 128 (leBytes 0 4 ++ body))

/-- An operation on the one waiting request that answers OK, with other tables of Sextant behind it. -/
theorem completes_reply {i : Instr} {s : State} {op : State → State} {P : State → Prop} {m : SxMsg} {body : List Nat} {x : SxSt} (hx : exec i s = s.run op)
    (hop : op s.begin = ({ s.begin with sx := x } : State).sxReply m sxOk body) (hsrc : m.src.relay = none) (hlen : body.length ≤ 1396)
    (hp : ∀ t : State, t.out = [s.sxReplyTo m body] → t.sx = x → t.clk = s.clk → Keeps [] [] [.sx, .out] s t → P t) : Completes i s P := by
  have hgram : ({ s.begin with sx := x } : State).sxReplyTo m body = s.sxReplyTo m body :=
    congrArg (Out.datagram _ _ _) ((frame_sx s.begin x).sxGram_eq (by simp) (by simp) (by decide) _ _ _ _ _ _)
  refine completes_of_frame hx (hop.trans (sxReply_short hsrc hlen sxOk))
    (((frame_sx s.begin x).trans (frame_emit _ _)).mono (by simp) (by simp) (by simp)) (.inl rfl) fun hkeeps => hp _ ?_ rfl rfl hkeeps
  exact congrArg (fun o => [o]) hgram

/-- A group write taken at its position. -/
def State.groupTaken (s : State) (q : Clock) : State := { s with clk := q, sx := { s.sx with groups := [] } }

theorem frame_groupTaken (s : State) (q : Clock) : Frame [] [] [.clk, .sx] s (s.groupTaken q) := (frame_clk s q).trans (frame_sx _ _)

theorem groupApply_one {s : State} {m : SxMsg} {p v : Nat} {q : Clock} (hgroups : s.sx.groups = [{ pos := p, msg := m, pairs := [(R.CAL_STEP, v)] }])
    (hpos : s.toPos 11 p = some { s with clk := q }) : s.groupApply = (s.groupTaken q).sxCommit m [(R.CAL_STEP, v)] := by
  have hfirst : firstGroup s.sx.groups = some { pos := p, msg := m, pairs := [(R.CAL_STEP, v)] } := by
    rw [hgroups]
    rfl
  have herase : s.sx.groups.erase { pos := p, msg := m, pairs := [(R.CAL_STEP, v)] } = [] := by
    rw [hgroups, List.erase_cons_head]
  unfold State.groupApply
  rw [hfirst]
  simp only [hpos, herase]
  rfl

/-! ## The entries that wait for a subscriber -/

/-- The entries from a SEQ on that a mask names. -/
def State.eventsFrom (s : State) (first n mask : Nat) : List LogEntry :=
  ((List.range n).filterMap (fun k => s.logAt (first + k))).filter (fun e => bitsOf mask (e.code / 256) (e.code / 256) == 1)

theorem eventsFrom_length (s : State) (first n mask : Nat) : (s.eventsFrom first n mask).length ≤ n := by
  refine (List.length_filter_le _ _).trans ((List.length_filterMap_le _ _).trans ?_)
  rw [List.length_range]

/-- The subscriber when its entries have gone out. -/
def State.subSent (s : State) (x : SxSub) : SxSub := { x with next := s.log.head, sent := some s.clk.ns }

/-- The state behind an EVENT message, before it goes out. -/
def State.eventTaken (s : State) (i : Nat) (x : SxSub) : State := ({ s with sx := { s.sx with subs := s.sx.subs.set i (s.subSent x) } } : State).free.2

theorem frame_eventTaken (s : State) (i : Nat) (x : SxSub) : Frame [] [] [.sx, .fctr] s (s.eventTaken i x) := (frame_sx s _).trans (frame_free _)

theorem words_length (l : List LogEntry) : (l.flatMap LogEntry.words).length = 4 * l.length := by
  induction l with
  | nil => rfl
  | cons e l ih =>
    rw [List.flatMap_cons, List.length_append, ih, List.length_cons]
    simp only [LogEntry.words, List.length_cons, List.length_nil]
    omega

/-- How many entries of the ring the subscriber has not had, and the SEQ of the first of them. -/
def State.behind (s : State) (x : SxSub) : Nat := min 1024 ((s.log.head + 2 ^ 32 - x.next) % 2 ^ 32)

def State.firstBehind (s : State) (x : SxSub) : Nat := (s.log.head + 2 ^ 32 - s.behind x) % 2 ^ 32

/-- The entries that wait for a subscriber. -/
def State.eventsWaiting (s : State) (x : SxSub) : List LogEntry :=
  (((List.range (s.behind x)).map (fun k => (s.firstBehind x + k) % 2 ^ 32)).filterMap s.logAt).filter (fun e => bitsOf x.mask (e.code / 256) (e.code / 256) == 1)

/-- They are those from the subscriber's next SEQ on, where those are few. -/
theorem eventsWaiting_of_few {s : State} {x : SxSub} (hnext : x.next ≤ s.log.head) (hfew : s.log.head < x.next + 65) (hhead : s.log.head < 2 ^ 32) :
    s.eventsWaiting x = s.eventsFrom x.next (s.log.head - x.next) x.mask := by
  have hbehind : s.behind x = s.log.head - x.next := by
    unfold State.behind
    omega
  have hfirst : s.firstBehind x = x.next := by
    rw [State.firstBehind, hbehind]
    omega
  have hseqs : (List.range (s.log.head - x.next)).map (fun k => (x.next + k) % 2 ^ 32) = (List.range (s.log.head - x.next)).map (fun k => x.next + k) := by
    refine List.map_congr_left fun k hk => ?_
    have := List.mem_range.mp hk
    omega
  unfold State.eventsWaiting State.eventsFrom
  rw [hbehind, hfirst, hseqs, List.filterMap_map]
  rfl

/-- At most 64 entries wait: all go out in one message. -/
theorem eventSend_few {s : State} {i : Nat} {x : SxSub} {l : List LogEntry} (hi : s.sx.subs[i]? = some x) (hsrc : x.src.relay = none) (hsent : x.sent = none)
    (hl : s.eventsWaiting x = l) (hshort : l.length ≤ 64) (hsome : l ≠ []) :
    s.eventSend i = (s.eventTaken i x).emit (.datagram x.src.mgt x.src.ip x.src.udp (s.sxGram x.ver 2 0x12 (Config.freeNat s.fctr % 2 ^ 64) 128
      (leBytes 0 4 ++ wordBytes (l.flatMap LogEntry.words)))) := by
  obtain ⟨e, he⟩ : ∃ e, l.getLast? = some e := ⟨_, List.getLast?_eq_some_getLast hsome⟩
  have hbody : (leBytes sxOk 4 ++ wordBytes (l.flatMap LogEntry.words)).length ≤ 1400 := by
    rw [List.length_append, leBytes_length, wordBytes_length, words_length]
    omega
  have hop : s.eventSend i = (s.eventTaken i x).sxSend x.src x.ver 2 0x12 (Config.freeNat s.fctr % 2 ^ 64) (leBytes sxOk 4 ++ wordBytes (l.flatMap LogEntry.words)) := by
    unfold State.eventSend
    rw [hi]
    rw [State.eventsWaiting, State.firstBehind, State.behind] at hl
    -- the kernel must not count the modulus down by one: it stays a variable in a lemma of its own
    generalize 2 ^ 32 = modulus at hl ⊢
    as_aux_lemma =>
      simp only [hl, List.take_of_length_le hshort, he, hsent, if_pos hshort]
      rfl
  rw [hop, sxSend_short hsrc hbody]
  exact congrArg (fun l => (s.eventTaken i x).emit (.datagram _ _ _ l)) ((frame_eventTaken s i x).sxGram_eq (by simp) (by simp) (by simp) _ _ _ _ _ _)

theorem leaseExpiry_one {s : State} {x : SxSub} (hsubs : s.sx.subs = [x]) :
    s.leaseExpiry = { s.toNs x.until_ with sx := { s.sx with subs := [] } } := by
  have hdue : decide ((s.toNs x.until_).clk.ns < x.until_) = false := decide_eq_false (Nat.not_lt.mpr (le_toNs _ _))
  simp only [State.leaseExpiry, hsubs, List.map_nil, List.foldl_nil, toNs_sx, List.filter_cons, List.filter_nil, hdue]
  rfl

/-- A group write that is neither late nor too early waits for its position. -/
theorem groupWrite_held {s : State} {m : SxMsg} {p : Nat} (hm : s.sx.msgs = [m]) (hty : m.ty = 0x04) (hrun : s.clk.run = true) (hline : leNat m.body 6 2 < s.clk.lm)
    (hpos : ((leNat m.body 0 6 : Nat) - s.clk.frameOfs) * (s.clk.fu : Int) + (65536 * leNat m.body 6 2 : Nat) = (p : Int)) (hlate : s.clk.vpos < p)
    (hsoon : p ≤ s.clk.vpos + 1024 * s.clk.fu) (hroom : s.sx.groups.length < 16) :
    s.groupWrite = { s with sx := { s.sx with msgs := [], groups := s.sx.groups ++ [{ pos := p, msg := m, pairs := bodyPairs m.body 3 (leNat m.body 8 4) }] } } := by
  have hrange : ¬ ((!s.sxTaken.clk.run) = true ∨ s.sxTaken.clk.lm ≤ leNat m.body 6 2 ∨ ((s.sxTaken.clk.vpos + 1024 * s.sxTaken.clk.fu : Nat) : Int) < (p : Int)) := by
    have hrun' : s.sxTaken.clk.run = true := hrun
    rintro (h | h | h)
    · rw [hrun'] at h
      exact absurd h (by decide)
    · exact absurd hline (Nat.not_lt.mpr h)
    · exact absurd (Int.ofNat_lt.mp h) (Nat.not_lt.mpr hsoon)
  have hpos' : ((leNat m.body 0 6 : Nat) - s.sxTaken.clk.frameOfs) * (s.sxTaken.clk.fu : Int) + (65536 * leNat m.body 6 2 : Nat) = (p : Int) := hpos
  have hlate' : ¬ (p : Int) ≤ (s.sxTaken.clk.vpos : Int) := fun h => absurd (Int.ofNat_le.mp h) (Nat.not_le.mpr hlate)
  rw [State.groupWrite, sxServe_one hm hty rfl]
  simp only [hpos', if_neg hrange, if_neg hlate', Int.toNat_natCast]
  rw [if_neg (show ¬ 16 ≤ s.sxTaken.sx.groups.length from Nat.not_le.mpr hroom)]
  rfl

/-- Settles O51: a group write is held and applied at its position, and each message of the events is answered in one datagram. -/
theorem groupWriteAndEventCommandsComplete : Obligations.GroupWriteAndEventCommandsComplete := by
  unfold Obligations.GroupWriteAndEventCommandsComplete
  refine ⟨fun s m p hm hsrc hty hrun hline hpos hlate hsoon hroom => ?write, fun s m p v q hdark hgroups hsrc hpos hmin hmax hstage => ?apply,
    fun s m k n hm hsrc hty hk hn hn0 hsubs => ?subscribe, fun s m a n hm hsrc hty ha hn hmax => ?read,
    fun s i x l hi hsrc hsent hnext hfew hl hsome hhead => ?send, fun s x hsubs => ?lease⟩
  case write =>
    exact completes_of_frame (op := (·.groupWrite)) rfl (groupWrite_held (s := s.begin) hm hty hrun hline hpos hlate hsoon hroom) (frame_sx s.begin _) (.inl rfl)
      fun hkeeps => ⟨rfl, hkeeps⟩
  case apply =>
    have hop := (groupApply_one (s := s.begin) hgroups hpos).trans
      (sxCommit_calStep (s := s.begin.groupTaken q) hsrc rfl hdark hstage hmin hmax)
    have hframe := frame_groupTaken s.begin q
    have hout : (s.begin.groupTaken q).out = [] := rfl
    have hsx : (s.begin.groupTaken q).sx = { s.sx with groups := [] } := rfl
    have hclk : (s.begin.groupTaken q).clk = q := rfl
    have hgram := hframe.sxGram_eq (by simp) (by simp) (by simp) m.ver 1 m.ty m.seq 128 (leBytes 0 4 ++ leBytes 1 4)
    have hev : (s.begin.groupTaken q).evNow = [] := rfl
    generalize s.begin.groupTaken q = u at hop hframe hout hsx hclk hgram hev
    refine completes_of_frame (op := (·.groupApply)) rfl hop ((hframe.trans ((frame_wrn u _ v).trans (frame_emit _ _))).mono (by simp) (by simp) (by simp)) (.inl hev)
      fun hkeeps => ⟨?_, hsx, hclk, ?_, hkeeps⟩
    · rw [rdn_finish, rdn_emit, rdn_wrn_same]
      omega
    · rw [hgram]
      exact congrArg (· ++ _) hout
  case subscribe =>
    refine completes_reply (op := (·.eventSubscribe)) (m := m) (body := leBytes n 4)
      (x := { s.sx with msgs := [], subs := [{ src := m.src, ver := m.ver, mask := k, until_ := s.clk.ns + 1000000000 * n, next := s.log.head, sent := none }] })
      rfl ?_ hsrc (by rw [leBytes_length]; decide) fun t hout hsx hclk hkeeps => ⟨hsx, hout, hkeeps⟩
    have hsubs' : s.begin.sxTaken.sx.subs = [] := hsubs
    show s.begin.eventSubscribe = _
    rw [State.eventSubscribe, sxServe_one (s := s.begin) hm hty rfl]
    simp only [hk, hn, hsubs', if_neg hn0, List.find?_nil, List.filter_nil, List.length_nil, List.nil_append]
    rfl
  case read =>
    have hlen : (wordBytes (((List.range n).filterMap (fun i => s.logAt ((a + i) % 2 ^ 32))).flatMap LogEntry.words)).length ≤ 1396 := by
      have := List.length_filterMap_le (fun i => s.logAt ((a + i) % 2 ^ 32)) (List.range n)
      rw [List.length_range] at this
      rw [wordBytes_length, words_length]
      omega
    refine completes_reply (op := (·.eventRead)) (m := m) (x := { s.sx with msgs := [] }) rfl ?_ hsrc hlen fun t hout hsx hclk hkeeps => ⟨hout, hsx, hkeeps⟩
    show s.begin.eventRead = _
    rw [State.eventRead, sxServe_one (s := s.begin) hm hty rfl]
    simp only [ha, hn]
    rfl
  case send =>
    subst hl
    have hshort := eventsFrom_length s x.next (s.log.head - x.next) x.mask
    have hop := eventSend_few (s := s.begin) hi hsrc hsent (eventsWaiting_of_few (s := s.begin) hnext hfew hhead) (hshort.trans (by omega)) hsome
    exact completes_of_frame (op := (·.eventSend i)) rfl hop (((frame_eventTaken s.begin i x).trans (frame_emit _ _)).mono (by simp) (by simp) (by simp)) (.inl rfl)
      fun hkeeps => ⟨congrArg (fun g => [Out.datagram _ _ _ g]) (sxGram_congr rfl rfl rfl _ _ _ _ _ _), rfl, rfl, hkeeps⟩
  case lease =>
    exact completes_of_frame (op := (·.leaseExpiry)) rfl (leaseExpiry_one (s := s.begin) hsubs)
      (((frame_toNs s.begin x.until_).trans (frame_sx _ _)).mono (by simp) (by simp) (by simp)) (.inl rfl) fun hkeeps => ⟨rfl, by
        rw [finish_clk]
        exact le_toNs s.begin x.until_, hkeeps⟩

end Sys2Proof.Machine
end

section
/-!
PROOFS. The datagrams, reads and writes of Sextant (R409 to R413, R415).
-/

namespace Sys2Proof.Machine

/-! ## A datagram that is taken -/

theorem sxTag_length (s : State) (l : List Nat) : (s.sxTag l).length = 16 := by
  simp [State.sxTag]

/-- A client whose last SEQ is known. -/
def State.sxClient (s : State) (ip seq : Nat) : SxClient :=
  { ip := ip, seq := seq, win := match s.sx.clients.find? (fun c => c.ip == ip) with | some o => o.win | none => 0 }

/-- The clients when a request of one has been accepted. -/
def State.sxClients (s : State) (ip seq : Nat) : List SxClient := s.sx.clients.filter (fun c => c.ip != ip) ++ [s.sxClient ip seq]

/-- The table of clients is not full. -/
theorem sxTake_room {s : State} {ip : Nat} (seq : Nat) (hroom : s.sx.clients.length < 64) :
    s.sxTake ip seq = { s with sx := { s.sx with clients := s.sxClients ip seq } } := by
  have hrest : (s.sx.clients.filter (fun c => c.ip != ip)).length < 64 := (List.length_filter_le _ _).trans_lt hroom
  simp only [State.sxTake, if_pos hrest]
  rfl

/-- The SEQ of a client is the one of its request accepted last. -/
theorem sxFloor_of_clients {s t : State} {ip seq : Nat} (h : t.sx.clients = s.sxClients ip seq) : t.sxFloor ip = seq := by
  have hrest : (s.sx.clients.filter (fun c => c.ip != ip)).find? (fun c => c.ip == ip) = none := by
    rw [List.find?_eq_none]
    intro c hc
    have := (List.mem_filter.mp hc).2
    simpa using this
  have hfind : (s.sxClients ip seq).find? (fun c => c.ip == ip) = some (s.sxClient ip seq) := by
    rw [State.sxClients, List.find?_append, hrest]
    simp [State.sxClient]
  rw [State.sxFloor, h, hfind]
  rfl

/-- The state when a whole request waits. -/
def State.sxQueued (s : State) (c : SxFrom) (g : SxGram) : State :=
  ({ s with sx := { s.sx with clients := s.sxClients c.ip g.seq, msgs := s.sx.msgs ++ [{ src := c, ver := g.ver, ty := g.ty, seq := g.seq, body := g.body }] } } : State).bump R.BIN_SX_RX_CNT

theorem frame_sxQueued (s : State) (c : SxFrom) (g : SxGram) : Frame [R.BIN_SX_RX_CNT] [] [.sx] s (s.sxQueued c g) :=
  ((frame_sx s _).trans (frame_bump _ _)).mono (by simp) (by simp) (by simp)

/-- A whole request whose version, key, type and fields pass their checks waits for the engine. -/
theorem sxRequest_waits {s : State} {m : SxMsg} {v : Nat} (hkey : s.cfg.key.isSome = true ∨ sxKeyless m.ty = true) (hty : sxTypeVer m.ty = some v) (hver : v ≤ m.ver)
    (hbody : sxBodyOk m.ty m.body = true) : s.sxRequest m = { s.bump R.BIN_SX_RX_CNT with sx := { s.sx with msgs := s.sx.msgs ++ [m] } } := by
  have hkey' : ((s.bump R.BIN_SX_RX_CNT).cfg.key.isNone && !sxKeyless m.ty) = false := by
    have hsame : (s.bump R.BIN_SX_RX_CNT).cfg.key = s.cfg.key := rfl
    rw [hsame, ← Option.not_isSome]
    rcases hkey with h | h
    · rw [h]
      rfl
    · rw [h, Bool.not_true, Bool.and_false]
  simp only [State.sxRequest, hkey', hty, if_neg (Nat.not_lt.mpr hver), hbody, Bool.false_eq_true, if_false, Bool.not_true]
  rfl

/-- A whole request with a new SEQ is taken. -/
theorem sxAccept_taken {s : State} {c : SxFrom} {g : SxGram} {v : Nat} (hboot : g.ty = 0x01 ∨ g.boot = s.rdn R.BIN_SX_BOOT_ID) (hasms : s.sx.asms = [])
    (hseq : s.sxFloor c.ip < g.seq) (hroom : s.sx.clients.length < 64) (hverOk : s.sxVerOk g.ver = true) (hfrag : g.frag = 0) (hlast : g.last = true)
    (hkey : s.cfg.key.isSome = true ∨ sxKeyless g.ty = true) (hty : sxTypeVer g.ty = some v) (hver : v ≤ g.ver) (hbody : sxBodyOk g.ty g.body = true) :
    s.sxAccept c g = s.sxQueued c g := by
  have hboot' : ¬ (g.ty ≠ 0x01 ∧ g.boot ≠ s.rdn R.BIN_SX_BOOT_ID) := fun h => hboot.elim h.1 h.2
  have hverOk' (x : SxSt) : ({ s with sx := x } : State).sxVerOk g.ver = true := hverOk
  have hfirst : s.sx.asms.find? (fun x => x.msg.src.ip == c.ip && x.msg.seq == g.seq && x.msg.ty == g.ty) = none := by
    rw [hasms]
    rfl
  simp only [State.sxAccept, if_neg hboot', hfirst, if_neg (Nat.not_le.mpr hseq), sxTake_room g.seq hroom, hverOk', hfrag, hlast, Bool.not_true,
    Bool.false_eq_true, if_false, and_self, if_true]
  exact sxRequest_waits (s := { s with sx := { s.sx with clients := s.sxClients c.ip g.seq } })
    (m := { src := c, ver := g.ver, ty := g.ty, seq := g.seq, body := g.body }) hkey hty hver hbody

/-- A datagram for this module that is authenticated. -/
theorem sxReceive_taken {s : State} {c : SxFrom} {h : List Nat} {g : SxGram} (hlisten : s.mgtListens c = true) (hparse : sxParse (h ++ s.sxTag h) = some g)
    (hreply : bitsOf g.flags 0 0 = 0) (hevent : bitsOf g.flags 1 1 = 0) (hdest : g.dest = s.pins.mid) (hall : s.pins.mid ≠ 0x3FF) (hkey : g.key = s.keyId) :
    s.sxReceive c (h ++ s.sxTag h) = s.sxAccept c g := by
  have hlen : (h ++ s.sxTag h).length - 16 = h.length := by
    rw [List.length_append, sxTag_length]
    omega
  have hflags : ¬ (bitsOf g.flags 0 0 = 1 ∨ bitsOf g.flags 1 1 = 1) := by omega
  have hown : ¬ (g.dest ≠ s.pins.mid ∧ g.dest ≠ 0x3FE ∧ g.dest ≠ 0x3FF) := fun h => h.1 hdest
  have hone : ¬ (g.dest = 0x3FF ∧ c.relay.isNone = true) := fun h => hall (hdest.symm.trans h.1)
  have hauth : ¬ ((h ++ s.sxTag h).drop h.length ≠ s.sxTag ((h ++ s.sxTag h).take h.length) ∨ g.key ≠ s.keyId) := by
    rw [List.drop_left, List.take_left]
    exact fun x => x.elim (fun n => n rfl) (fun n => n hkey)
  simp only [State.sxReceive, hlisten, hparse, if_neg hflags, if_neg hown, if_neg hone, hlen, if_neg hauth, Bool.not_true, Bool.false_eq_true, if_false]

/-! ## Reads and writes -/

/-- What the one waiting request leaves shows the same registers. -/
theorem view_sxTaken (s : State) (a : Nat) : s.begin.sxTaken.view a = s.view a := view_mail (s := s) [] [] (x := { s.sx with msgs := [] }) rfl rfl a

/-- A READ of one word that has no effect of its own. -/
theorem sxReads_one {s : State} {ip a : Nat} (hdark : s.dark = false) (ha : a < 0x1A0000) (hword : a % 4 = 0) (heffect : s.readEffect a = s) :
    s.sxReads ip a 1 [] = ([(s.readWord (.sextant ip) a).toNat], s) := by
  have hdead : s.isl.dead = false := by
    simp only [State.dark, Bool.or_eq_false_iff] at hdark
    exact hdark.2
  have ha4 : a / 4 * 4 = a := by omega
  simp [State.sxReads, State.busRead, ha4, hdead, hdark, ha, heffect]

theorem wordBytes_one (w : Nat) : wordBytes [w] = leBytes w 4 := by
  rw [wordBytes, List.flatMap_cons, List.flatMap_nil, List.append_nil]

/-- The one pair of a WRITE's body. -/
theorem bodyPairs_one {a v : Nat} (ha : a < 2 ^ 32) (hv : v < 2 ^ 32) : bodyPairs (leBytes 1 4 ++ leBytes a 4 ++ leBytes v 4) 1 1 = [(a, v)] := by
  have hfirst : leNat (leBytes 1 4 ++ leBytes a 4 ++ leBytes v 4) 4 4 = a := by
    rw [leNat_of_drop (r := leBytes a 4 ++ leBytes v 4) (by rfl), leNat_leBytes_append, Nat.mod_eq_of_lt ha]
  have hsecond : leNat (leBytes 1 4 ++ leBytes a 4 ++ leBytes v 4) 8 4 = v := by
    rw [leNat_of_drop (r := leBytes v 4) (by rfl), leNat_leBytes, Nat.mod_eq_of_lt hv]
  rw [bodyPairs, List.range_one, List.map_cons, List.map_nil]
  exact congrArg (fun p => [p]) (Prod.ext hfirst hsecond)

theorem svBytes_length (s : State) (w n : Nat) : (s.svBytes w n).length = 8 * n := by
  simp [State.svBytes, List.length_flatMap, leBytes_length, Nat.mul_comm]

theorem faultBytes_length (s : State) (i : Nat) : (s.faultBytes i).length = 32 := svBytes_length s _ 4

/-- The one message under reassembly is discarded. -/
theorem sxReassemblyTimeout_one {s : State} {a : SxAsm} (hasms : s.sx.asms = [a]) :
    s.sxReassemblyTimeout = { s.toNs (a.at_ + 100000000) with sx := { s.sx with asms := [] } } := by
  have hdue : decide ((s.toNs (a.at_ + 100000000)).clk.ns < a.at_ + 100000000) = false := decide_eq_false (Nat.not_lt.mpr (le_toNs _ _))
  simp only [State.sxReassemblyTimeout, hasms, List.map_nil, List.foldl_nil, toNs_sx, List.filter_cons, List.filter_nil, hdue]
  rfl

/-- The one block of the image that has an identifier, in whatever format the firmware asks for. -/
theorem settingsRead_one {s : State} {m : SxMsg} {x b o n : Nat} (hm : s.sx.msgs = [m]) (hty : m.ty = 0x30) (himg : s.cfg.img = true) (hx : leNat m.body 0 4 = x)
    (hset : settingsOf s.pins.mid ((recsFrom s.imgByte (imgLen s.imgByte) 256 (imgLen s.imgByte / 16 + 1)).getD []) = [(x, b, o, n)]) (hmax : n ≤ 1392) :
    s.settingsRead = s.sxTaken.sxReply m sxOk (leBytes b 4 ++ imgBytes s.imgByte o n) := by
  have himg' : s.sxTaken.cfg.img = true := himg
  have hset' : settingsOf s.sxTaken.pins.mid ((recsFrom s.sxTaken.imgByte (imgLen s.sxTaken.imgByte) 256 (imgLen s.sxTaken.imgByte / 16 + 1)).getD []) = [(x, b, o, n)] := hset
  have hpick (v : Nat) : ([(x, b, o, n)].find? (fun y => y.2.1 == v)).orElse (fun _ => [(x, b, o, n)].head?) = some (x, b, o, n) := by
    rw [List.find?_cons]
    split <;> rfl
  have hfit : ¬ (if m.ver = 1 then 1392 else 30200) < n := by
    split <;> omega
  rw [State.settingsRead, sxServe_one hm hty rfl]
  simp only [hset', hx, List.filter_cons, List.filter_nil, beq_self_eq_true, if_true, himg', hpick, if_neg hfit]
  rfl

/-- Settles O50: a datagram is taken, and each request is answered in one datagram. -/
theorem sextantAccessCommandsComplete : Obligations.SextantAccessCommandsComplete := by
  unfold Obligations.SextantAccessCommandsComplete
  refine ⟨fun s c l h g v hl hlisten hrelay hparse hreply hevent hdest hall hkeyId hboot hasms hseq hroom hverOk hfrag hlast hkey hty hver hbody => ?datagram,
    fun s a hasms => ?timeout, fun s m hm hsrc hty hlocked => ?hello, fun s m a hdark hm hsrc hty hbody ha hword heffect => ?read,
    fun s m v hdark hm hsrc hty hbody hmin hmax hstage => ?write, fun s m i n hm hsrc hty hi hn hmax => ?fault, fun s m x b o n hm hsrc hty himg hx hset hmax => ?settings⟩
  case datagram =>
    subst hl
    have hop : s.begin.sxReceive c (h ++ s.begin.sxTag h) = s.begin.sxQueued c g := by
      rw [sxReceive_taken (s := s.begin) hlisten hparse hreply hevent hdest hall hkeyId]
      exact sxAccept_taken (s := s.begin) hboot hasms hseq hroom hverOk hfrag hlast hkey hty hver hbody
    have hclients : (s.begin.sxQueued c g).sx.clients = s.sxClients c.ip g.seq := rfl
    refine completes_of_frame (op := (·.sxReceive c (h ++ s.sxTag h))) rfl hop (frame_sxQueued s.begin c g) (.inl rfl)
      fun hkeeps => ⟨rfl, sxFloor_of_clients hclients, ?_, rfl, hkeeps⟩
    rw [rdn_finish, State.sxQueued, rdn_bump_same]
    rfl
  case timeout =>
    exact completes_of_frame (op := (·.sxReassemblyTimeout)) rfl (sxReassemblyTimeout_one (s := s.begin) hasms)
      (((frame_toNs s.begin (a.at_ + 100000000)).trans (frame_sx _ _)).mono (by simp) (by simp) (by simp)) (.inl rfl) fun hkeeps => ⟨rfl, by
        rw [finish_clk]
        exact le_toNs s.begin (a.at_ + 100000000), hkeeps⟩
  case hello =>
    have hbody : (wordBytes [(s.view R.GLB_ID_PART).toNat, (s.view R.GLB_ID_REV).toNat, (s.view R.GLB_MID).toNat, (s.view R.GLB_SERIAL_LO).toNat,
        (s.view R.GLB_SERIAL_HI).toNat, (s.view R.GLB_FW_VERSION).toNat, (s.view R.BIN_SX_BOOT_ID).toNat, (s.view (R.GLB_FEAT_ACCEPT 0)).toNat,
        (s.view (R.GLB_FEAT_ACCEPT 1)).toNat, (s.view (R.GLB_FEAT_ACCEPT 2)).toNat, (s.view (R.GLB_FEAT_ACCEPT 3)).toNat, (s.view R.CFG_STATUS).toNat,
        (s.view R.BIN_SX_KEY).toNat]).length ≤ 1396 := by
      rw [wordBytes_length]
      exact Nat.le_of_ble_eq_true rfl
    refine completes_reply (op := (·.hello)) (m := m) (x := { s.sx with msgs := [] }) rfl ?_ hsrc hbody fun t hout hsx hclk hkeeps => ⟨hout, hsx, hkeeps⟩
    have hlocked' : s.begin.sxTaken.on F.GLB_FEAT_CTL_LOCKED = true := hlocked
    show s.begin.hello = _
    rw [State.hello, sxServe_one (s := s.begin) hm hty rfl]
    simp only [hlocked', if_true, view_sxTaken]
    rfl
  case read =>
    have hstart : leNat m.body 0 4 = a := by
      rw [hbody, leNat_leBytes_append]
      omega
    have hcount : leNat m.body 4 4 = 1 := by
      rw [hbody, leNat_of_drop (r := leBytes 1 4) (by rfl), leNat_leBytes]
      rfl
    have hword' : s.begin.sxTaken.readWord (.sextant m.src.ip) a = s.readWord (.sextant m.src.ip) a :=
      readWord_mail (s := s) [] [] (x := { s.sx with msgs := [] }) rfl rfl rfl _ _
    have heffect' : s.begin.sxTaken.readEffect a = s.begin.sxTaken := by
      have hmail := readEffect_mail (s := s) [] [] (x := { s.sx with msgs := [] }) rfl rfl a
      rw [heffect] at hmail
      exact hmail
    refine completes_reply (op := (·.sxRead)) (m := m) (x := { s.sx with msgs := [] }) rfl ?_ hsrc (body := leBytes (s.readWord (.sextant m.src.ip) a).toNat 4)
      (by rw [leBytes_length]; decide) fun t hout hsx hclk hkeeps => ⟨hout, hsx, hkeeps⟩
    show s.begin.sxRead = _
    rw [State.sxRead, sxServe_one (s := s.begin) hm hty rfl]
    simp only [hstart, hcount, sxReads_one (s := s.begin.sxTaken) hdark ha hword heffect', hword', wordBytes_one]
    rfl
  case write =>
    have hpairs : bodyPairs m.body 1 (leNat m.body 0 4) = [(R.CAL_STEP, v)] := by
      have hcount : leNat m.body 0 4 = 1 := by
        rw [hbody, List.append_assoc, leNat_leBytes_append]
        rfl
      rw [hcount, hbody, bodyPairs_one (by decide) (by omega)]
    have hop : s.begin.sxWrite = s.begin.sxTaken.sxCommit m [(R.CAL_STEP, v)] := by
      rw [State.sxWrite, sxServe_one (s := s.begin) hm hty rfl, hpairs]
    have hop := hop.trans (sxCommit_calStep (s := s.begin.sxTaken) hsrc rfl hdark hstage hmin hmax)
    have hframe := frame_sxTaken s.begin
    have hout : s.begin.sxTaken.out = [] := rfl
    have hsx : s.begin.sxTaken.sx = { s.sx with msgs := [] } := rfl
    have hgram := hframe.sxGram_eq (by simp) (by simp) (by simp) m.ver 1 m.ty m.seq 128 (leBytes 0 4 ++ leBytes 1 4)
    have hev : s.begin.sxTaken.evNow = [] := rfl
    generalize s.begin.sxTaken = u at hop hframe hout hsx hgram hev
    refine completes_of_frame (op := (·.sxWrite)) rfl hop ((hframe.trans ((frame_wrn u _ v).trans (frame_emit _ _))).mono (by simp) (by simp) (by simp)) (.inl hev)
      fun hkeeps => ⟨?_, ?_, hsx, hkeeps⟩
    · rw [rdn_finish, rdn_emit, rdn_wrn_same]
      omega
    · rw [hgram]
      exact congrArg (· ++ _) hout
  case fault =>
    have hlen : ((List.range n).flatMap (fun k => s.faultBytes (i + k))).length ≤ 1396 := by
      simp only [List.length_flatMap, faultBytes_length, List.map_const', List.length_range, List.sum_replicate, smul_eq_mul]
      omega
    refine completes_reply (op := (·.faultRead)) (m := m) (x := { s.sx with msgs := [] }) rfl ?_ hsrc hlen fun t hout hsx hclk hkeeps => ⟨hout, hsx, hkeeps⟩
    show s.begin.faultRead = _
    rw [State.faultRead, sxServe_one (s := s.begin) hm hty rfl]
    simp only [hi, hn]
    rfl
  case settings =>
    have hlen : (leBytes b 4 ++ imgBytes s.imgByte o n).length ≤ 1396 := by
      rw [List.length_append, leBytes_length, imgBytes, List.length_map, List.length_range]
      omega
    refine completes_reply (op := (·.settingsRead)) (m := m) (x := { s.sx with msgs := [] }) rfl
      (settingsRead_one (s := s.begin) hm hty himg hx hset hmax) hsrc hlen fun t hout hsx hclk hkeeps => ⟨hout.trans ?_, hsx, hkeeps⟩
    rw [State.sxReplyTo, ← List.append_assoc]
    rfl

end Sys2Proof.Machine
end

section
/-!
SUPPORT. A function that moves to another state (R372, R373).
-/

namespace Sys2Proof.Machine

/-- A function stands in a state, which it entered now. -/
def State.fnPut (s : State) (g : Nat) (st : FnState) : State :=
  { s with fns := Tab.put (fun _ => FnState.off) s.fns g st, fnAt := Tab.put (fun _ => 0) s.fnAt g s.clk.vpos }

theorem frame_fnPut (s : State) (g : Nat) (st : FnState) : Frame [] [g] [.fnAt] s (s.fnPut g st) := by
  refine ⟨fun _ _ => rfl, fun f hf => Tab.get_put_ne (fun _ => FnState.off) s.fns st (List.ne_of_not_mem_cons hf), rfl, rfl, fun p hp => ?_⟩
  cases p
  case fnAt => simp at hp
  all_goals rfl

@[simp] theorem fn_fnPut_same (s : State) (g : Nat) (st : FnState) : (s.fnPut g st).fn g = st := Tab.get_put_same (fun _ => FnState.off) s.fns g st

section Moves
variable {s : State} {g : Nat}

theorem setFn_ready (h : s.fn g ≠ .ready) : s.setFn g .ready = (s.fnPut g .ready).raise 0x0003 g := if_neg h

theorem setFn_off (h : s.fn g ≠ .off) : s.setFn g .off = s.fnPut g .off := if_neg h

theorem setFn_draining (h : s.fn g ≠ .draining) : s.setFn g .draining = s.fnPut g .draining := if_neg h

/-- A function in FAULT, before its fault record. -/
def State.fnFaulted (s : State) (g : Nat) : State := ((s.fnPut g .fault).raise 0x0002 g).wrn R.GLB_LAST_FAULT_FN g

theorem setFn_fault (h : s.fn g ≠ .fault) : s.setFn g .fault = (s.fnFaulted g).pushFault 10 0 0x0002 g 0 := if_neg h

theorem frame_setFn_ready (h : s.fn g ≠ .ready) : Frame [] [g] [.fnAt] s (s.setFn g .ready) := by
  rw [setFn_ready h]
  exact (frame_fnPut s g .ready).trans (frame_raise _ _ _)

theorem fn_setFn_ready (h : s.fn g ≠ .ready) : (s.setFn g .ready).fn g = .ready := by
  rw [setFn_ready h, fn_raise, fn_fnPut_same]

theorem evNow_setFn_ready (h : s.fn g ≠ .ready) : (s.setFn g .ready).evNow = s.evNow ++ [⟨0x0003, g⟩] := by
  rw [setFn_ready h]
  rfl

theorem frame_fnFaulted (s : State) (g : Nat) : Frame [R.GLB_LAST_FAULT_FN] [g] [.fnAt] s (s.fnFaulted g) :=
  ((frame_fnPut s g .fault).trans ((frame_raise _ _ _).trans (frame_wrn _ _ _))).mono (by simp) (by simp) (by simp)

variable (hroom : s.isl.queue.length < 8)
include hroom

theorem frame_setFn_fault (h : s.fn g ≠ .fault) : Frame [R.GLB_LAST_FAULT_FN, R.BIN_FAULT] [g] [.fnAt, .log, .isl] s (s.setFn g .fault) := by
  rw [setFn_fault h]
  exact ((frame_fnFaulted s g).trans (frame_pushFault (s := s.fnFaulted g) 10 0 0x0002 g 0 hroom)).mono (by simp) (by simp) (by simp)

theorem fn_setFn_fault (h : s.fn g ≠ .fault) : (s.setFn g .fault).fn g = .fault := by
  rw [setFn_fault h, (frame_pushFault (s := s.fnFaulted g) 10 0 0x0002 g 0 hroom).2.1 g (by simp), State.fnFaulted, fn_wrn, fn_raise, fn_fnPut_same]

theorem rdn_setFn_fault (h : s.fn g ≠ .fault) (hg : g < 2 ^ 32) : (s.setFn g .fault).rdn R.GLB_LAST_FAULT_FN = g := by
  rw [setFn_fault h, (frame_pushFault (s := s.fnFaulted g) 10 0 0x0002 g 0 hroom).rdn_eq (by decide), State.fnFaulted, rdn_wrn_same, Nat.mod_eq_of_lt hg]

theorem evNow_setFn_fault (h : s.fn g ≠ .fault) : (s.setFn g .fault).evNow = s.evNow ++ [⟨0x0002, g⟩] := by
  rw [setFn_fault h, pushFault_evNow (s := s.fnFaulted g) 10 0 0x0002 g 0 hroom]
  rfl

theorem log_setFn_fault (h : s.fn g ≠ .fault) : (s.setFn g .fault).log.ring = s.log.ring ∧ (s.setFn g .fault).log.head = s.log.head := by
  rw [setFn_fault h]
  exact pushFault_log (s := s.fnFaulted g) 10 0 0x0002 g 0 hroom

end Moves

end Sys2Proof.Machine
end

section
/-!
PROOFS. The records of a Basgar image and the configuration lock (R364, R365, R368).
-/

namespace Sys2Proof.Machine

/-! ## A record that takes effect -/

/-- The next record is due. -/
def State.recordDone (s : State) (r : BasRec) : State := { s with cfg := { s.cfg with off := r.off + 16 + r.len, idx := s.cfg.idx + 1, wait := none } }

theorem frame_recordDone (s : State) (r : BasRec) : Frame [] [] [.cfg] s (s.recordDone r) := frame_cfg s _

/-- A record that applies, takes effect at once and is not the last. -/
theorem recordApply_next {s t : State} {r : BasRec} (happ : s.applying = true) (hr : r = recAt s.imgByte s.cfg.off) (hmid : r.applies s.pins.mid = true)
    (hmore : r.off + 16 + r.len < imgLen s.imgByte) (hx : s.applyRecord s.imgByte r = (t, true)) (hgo : t.applying = true) :
    s.recordApply = (t.bump R.CFG_REC_CNT).recordDone r := by
  subst hr
  simp only [State.recordApply, happ, hmid, hx, hgo, Bool.not_true, Bool.false_eq_true, if_false, State.nextRecord, if_neg (Nat.not_le.mpr hmore)]
  rfl

theorem applying_stage {s : State} (h : s.applying = true) : s.cfg.stage = 2 := by
  simp only [State.applying, Bool.and_eq_true, beq_iff_eq] at h
  exact h.1.1.1

/-- A management key is taken over. -/
def State.keyTaken (s : State) (r : BasRec) : State := { s with cfg := { s.cfg with key := some (r.param % 256, imgBytes s.imgByte (r.off + 16) 32) } }

theorem frame_keyTaken (s : State) (r : BasRec) : Frame [] [] [.cfg] s (s.keyTaken r) := frame_cfg s _

/-- A record of one register write. -/
theorem applyRecord_calStep {s : State} {r : BasRec} {v : Nat} (hev : s.evNow = []) (hstage : s.cfg.stage = 2) (hty : r.ty = 2)
    (hwords : r.words s.imgByte = [R.CAL_STEP, v]) (hmin : 4 ≤ v) (hmax : v ≤ 255) : s.applyRecord s.imgByte r = (s.wrn R.CAL_STEP v, true) := by
  have hwrite : s.imgWrite R.CAL_STEP (BitVec.ofNat 32 v) = (s.wrn R.CAL_STEP v, false) := by
    have href : (s.wrn R.CAL_STEP v).refusals = 0 := by
      rw [State.refusals, show (s.wrn R.CAL_STEP v).evNow = [] from hev]
      rfl
    simp only [State.imgWrite, finish_of_none hev, regWrite_calStep s .basgar hmin hmax, href, bne_self_eq_false]
  have hplace : ¬ (R.CAL_STEP % 4 ≠ 0 ∨ 0x800000 ≤ R.CAL_STEP) := by decide
  have hstage' : ¬ (s.wrn R.CAL_STEP v).cfg.stage ≠ 2 := fun h => h hstage
  have hwrites : s.imgWrites s.cfg.idx [(R.CAL_STEP, v)] = s.wrn R.CAL_STEP v := by
    simp only [State.imgWrites, if_neg hplace, if_pos (show R.CAL_STEP < 0x1A0000 by decide), hwrite, Bool.false_eq_true, if_false, if_neg hstage']
  simp only [State.applyRecord, hty, hwords, pairsOf, hwrites]

/-! ## A record that fails -/

/-- What the firmware shows of the record that it stops at (R368). -/
def State.failShown (s : State) (rec_ addr code : Nat) : State :=
  (((((s.setF F.CFG_STATUS_STATE 4).setF F.CFG_FLAGS_FAILED 1).wrn R.CFG_ERR_REC rec_).wrn R.CFG_ERR_ADDR addr).wrn R.CFG_ERR_CODE code).raise 0x1904 0

theorem frame_failShown (s : State) (rec_ addr code : Nat) :
    Frame [R.CFG_STATUS, R.CFG_FLAGS, R.CFG_ERR_REC, R.CFG_ERR_ADDR, R.CFG_ERR_CODE] [] [] s (s.failShown rec_ addr code) :=
  ((frame_setF s F.CFG_STATUS_STATE 4).trans ((frame_setF _ F.CFG_FLAGS_FAILED 1).trans ((frame_wrn _ R.CFG_ERR_REC rec_).trans
    ((frame_wrn _ R.CFG_ERR_ADDR addr).trans ((frame_wrn _ R.CFG_ERR_CODE code).trans (frame_raise _ _ _)))))).mono (by simp) (by simp) (by simp)

/-- The application has halted. -/
def State.halted (s : State) (c : CfgSt) : State := { s with cfg := { c with halt := true, wait := none } }

theorem frame_halted (s : State) (c : CfgSt) : Frame [] [] [.cfg] s (s.halted c) := frame_cfg s _

theorem applyFail_eq (s : State) (rec_ addr code : Nat) : s.applyFail rec_ addr code = ((s.failShown rec_ addr code).setFn fnCfg .fault).halted s.cfg := rfl

/-- What a record that fails leaves. -/
structure ApplyFailed (s : State) (rec_ addr code : Nat) (t : State) : Prop where
  state : t.f F.CFG_STATUS_STATE = 4
  failed : t.on F.CFG_FLAGS_FAILED = true
  errRec : t.rdn R.CFG_ERR_REC = rec_ % 2 ^ 32
  errAddr : t.rdn R.CFG_ERR_ADDR = addr % 2 ^ 32
  errCode : t.rdn R.CFG_ERR_CODE = code % 2 ^ 32
  cfg : t.cfg = { s.cfg with halt := true, wait := none }
  fn : t.fn fnCfg = .fault
  lastFault : t.rdn R.GLB_LAST_FAULT_FN = 7
  evNow : t.evNow = s.evNow ++ [⟨0x1904, 0⟩, ⟨0x0002, 7⟩]
  log : t.log.ring = s.log.ring ∧ t.log.head = s.log.head
  clk : t.clk = s.clk
  frame : Frame [R.CFG_STATUS, R.CFG_FLAGS, R.CFG_ERR_REC, R.CFG_ERR_ADDR, R.CFG_ERR_CODE, R.GLB_LAST_FAULT_FN, R.BIN_FAULT] [fnCfg] [.fnAt, .log, .isl, .cfg] s t

theorem applyFail_failed {s : State} (rec_ addr code : Nat) (hroom : s.isl.queue.length < 8) (hfn : s.fn fnCfg ≠ .fault) :
    ApplyFailed s rec_ addr code (s.applyFail rec_ addr code) := by
  have hshown := frame_failShown s rec_ addr code
  have hstate : (s.failShown rec_ addr code).f F.CFG_STATUS_STATE = 4 := by
    rw [State.failShown, f_raise, f_wrn_ne _ _ (by decide), f_wrn_ne _ _ (by decide), f_wrn_ne _ _ (by decide), f_setF_addr _ _ (by decide), f_setF_same _ _ _ (by decide)]
    rfl
  have hfailed : (s.failShown rec_ addr code).on F.CFG_FLAGS_FAILED = true := by
    rw [State.failShown, on_raise, on_wrn_ne _ _ (by decide), on_wrn_ne _ _ (by decide), on_wrn_ne _ _ (by decide), on_setF_same _ _ (by decide) rfl]
  have hrec : (s.failShown rec_ addr code).rdn R.CFG_ERR_REC = rec_ % 2 ^ 32 := by
    rw [State.failShown, rdn_raise, rdn_wrn_ne _ _ (by decide), rdn_wrn_ne _ _ (by decide), rdn_wrn_same]
  have haddr : (s.failShown rec_ addr code).rdn R.CFG_ERR_ADDR = addr % 2 ^ 32 := by
    rw [State.failShown, rdn_raise, rdn_wrn_ne _ _ (by decide), rdn_wrn_same]
  have hcode : (s.failShown rec_ addr code).rdn R.CFG_ERR_CODE = code % 2 ^ 32 := by
    rw [State.failShown, rdn_raise, rdn_wrn_same]
  have hev : (s.failShown rec_ addr code).evNow = s.evNow ++ [⟨0x1904, 0⟩] := rfl
  have hroom' : (s.failShown rec_ addr code).isl.queue.length < 8 := hroom
  have hfn' : (s.failShown rec_ addr code).fn fnCfg ≠ .fault := hfn
  have hlog : (s.failShown rec_ addr code).log = s.log := rfl
  have hclk : (s.failShown rec_ addr code).clk = s.clk := rfl
  rw [applyFail_eq]
  generalize s.failShown rec_ addr code = u at *
  have hframe := frame_setFn_fault hroom' hfn'
  have hlast := rdn_setFn_fault hroom' hfn' (by decide)
  have hfault := fn_setFn_fault hroom' hfn'
  have hevents := evNow_setFn_fault hroom' hfn'
  have hring := log_setFn_fault hroom' hfn'
  generalize u.setFn fnCfg .fault = w at *
  refine ⟨?_, ?_, ?_, ?_, ?_, ?_, hfault, hlast, ?_, ?_, ?_, ((hshown.trans hframe).trans (frame_halted w s.cfg)).mono (by simp) (by simp) (by simp)⟩
  · exact (hframe.f_eq (y := F.CFG_STATUS_STATE) (by decide)).trans hstate
  · exact (hframe.on_eq (y := F.CFG_FLAGS_FAILED) (by decide)).trans hfailed
  · exact (hframe.rdn_eq (a := R.CFG_ERR_REC) (by decide)).trans hrec
  · exact (hframe.rdn_eq (a := R.CFG_ERR_ADDR) (by decide)).trans haddr
  · exact (hframe.rdn_eq (a := R.CFG_ERR_CODE) (by decide)).trans hcode
  · rfl
  · have hsame : w.evNow = s.evNow ++ [⟨0x1904, 0⟩, ⟨0x0002, 7⟩] := by
      rw [hevents, hev, List.append_assoc]
      rfl
    exact hsame
  · rw [← hlog]
    exact hring
  · exact (hframe.part (p := .clk) (by decide)).trans hclk

/-- A record that waits too long fails at the end of its time. -/
theorem waiting_completes {i : Instr} {s : State} {op : State → State} {P : State → Prop} {x addr code : Nat} (hx : exec i s = s.run op)
    (hop : op s.begin = (s.begin.toNs x).applyFail s.cfg.idx addr code) (hfn : s.fn fnCfg = .starting) (hroom : s.isl.queue.length < 8)
    (hp : ∀ t : State, t.f F.CFG_STATUS_STATE = 4 → t.on F.CFG_FLAGS_FAILED = true → t.rdn R.CFG_ERR_REC = s.cfg.idx % 2 ^ 32 → t.rdn R.CFG_ERR_ADDR = addr % 2 ^ 32 →
      t.rdn R.CFG_ERR_CODE = code % 2 ^ 32 → t.cfg = { s.cfg with halt := true, wait := none } → t.fn fnCfg = .fault → t.rdn R.GLB_LAST_FAULT_FN = 7 → x ≤ t.clk.ns →
      Logged [⟨0x0002, 7⟩, ⟨0x1904, 0⟩] s t →
      Keeps [R.CFG_STATUS, R.CFG_FLAGS, R.CFG_ERR_REC, R.CFG_ERR_ADDR, R.CFG_ERR_CODE, R.GLB_LAST_FAULT_FN, R.BIN_FAULT, R.BIN_FH_LOST] [fnCfg]
        [.cfg, .isl, .clk, .fnAt, .log] s t → P t) : Completes i s P := by
  have hfn' : (s.begin.toNs x).fn fnCfg ≠ .fault := by
    rw [show (s.begin.toNs x).fn fnCfg = .starting from hfn]
    decide
  have h := applyFail_failed (s := s.begin.toNs x) s.cfg.idx addr code hroom hfn'
  have hns : x ≤ (s.begin.toNs x).clk.ns := le_toNs _ _
  have hframe := (frame_toNs s.begin x).trans h.frame
  generalize (s.begin.toNs x).applyFail s.cfg.idx addr code = u at hop h hframe
  refine completes_of_frame hx hop (hframe.mono (by simp) (by simp) (by simp)) (.inr (by simp)) fun hkeeps =>
    hp _ ((f_finish _ _).trans h.state) ((on_finish _ _).trans h.failed) ((rdn_finish _ _).trans h.errRec) ((rdn_finish _ _).trans h.errAddr)
      ((rdn_finish _ _).trans h.errCode) ?_ ((fn_finish _ _).trans h.fn) ((rdn_finish _ _).trans h.lastFault) ?_ ?_ hkeeps
  · exact h.cfg
  · rw [finish_clk, h.clk]
    exact hns
  · exact finish_logged (by rw [h.evNow]; rfl) h.log (by simp) (by simp)

/-! ## The lock -/

/-- A write of LOCK to CFG_CMD. -/
theorem ctlWrite_cfgLock {s : State} (hk : s.dark = false) : s.ctlWrite F.CFG_CMD_LOCK 1 = s.cfgCmdLock := by
  have hlock := ctl_act_same (fs := [⟨0, 0, .wo, false, .any⟩]) (s.oldWord .pcie R.CFG_CMD) (s.rdn R.CFG_CMD) 0 0 1 ⟨0, 0, .wo, false, .any⟩
    (by simp) ⟨rfl, rfl⟩ (by decide) (by decide) (.inl rfl)
  refine ctlWrite_unit hk (by decide) (d := ⟨R.CFG_CMD, [], 0x0, false, [⟨0, 0, .wo, false, .any⟩]⟩) rfl rfl (fieldsOk_any rfl _ _) (by decide) (by decide) ?_
  exact congrArg some (if_pos hlock)

/-- The lock as the registers show it. -/
def State.lockShown (s : State) : State := ((s.setF F.CFG_STATUS_STATE 3).setF F.CFG_FLAGS_LOCKED 1).raise 0x1905 0

theorem frame_lockShown (s : State) : Frame [R.CFG_STATUS, R.CFG_FLAGS] [] [] s s.lockShown :=
  ((frame_setF s F.CFG_STATUS_STATE 3).trans ((frame_setF _ F.CFG_FLAGS_LOCKED 1).trans (frame_raise _ _ _))).mono (by simp) (by simp) (by simp)

theorem lockConfig_applied {s : State} (h : s.f F.CFG_STATUS_STATE = 2) : s.lockConfig = s.lockShown.setFn fnCfg .ready :=
  if_neg (by rw [h]; decide)

/-- Settles O43: a record that takes effect, one that waits too long, and the lock. -/
theorem imageRecordCommandsComplete : Obligations.ImageRecordCommandsComplete := by
  unfold Obligations.ImageRecordCommandsComplete
  refine ⟨fun s r happ hr hmid hmore hty => ?key, fun s r v happ hr hmid hmore hty hwords hmin hmax => ?write, fun s r x hwait hfn hroom => ?regWait,
    fun s r x hwait hfn hroom => ?tableLoad, fun s hk hstate hfn => ?lock⟩
  case key =>
    have hoff : r.off = s.cfg.off := by rw [hr]; rfl
    have hx : s.begin.applyRecord s.begin.imgByte r = (s.begin.keyTaken r, true) := by
      simp only [State.applyRecord, hty]
      rfl
    have hop := recordApply_next (s := s.begin) happ hr hmid (by rw [hoff]; exact hmore) hx happ
    refine completes_of_frame (op := (·.recordApply)) rfl hop
      (((frame_keyTaken s.begin r).trans ((frame_bump _ _).trans (frame_recordDone _ r))).mono (by simp) (by simp) (by simp)) (.inl rfl) fun hkeeps => ⟨?_, ?_, hkeeps⟩
    · rw [← hoff]
      rfl
    · rw [rdn_finish, (frame_recordDone _ r).rdn_eq (by simp), rdn_bump_same]
      rfl
  case write =>
    have hoff : r.off = s.cfg.off := by rw [hr]; rfl
    have hgo : (s.begin.wrn R.CAL_STEP v).applying = true := by
      have hsame : (s.begin.wrn R.CAL_STEP v).f F.CFG_STATUS_STATE = s.f F.CFG_STATUS_STATE := f_wrn_ne _ _ (by decide)
      rw [State.applying, hsame]
      exact happ
    have hop := recordApply_next (s := s.begin) happ hr hmid (by rw [hoff]; exact hmore)
      (applyRecord_calStep (s := s.begin) rfl (applying_stage happ) hty hwords hmin hmax) hgo
    refine completes_of_frame (op := (·.recordApply)) rfl hop
      (((frame_wrn s.begin R.CAL_STEP v).trans ((frame_bump _ R.CFG_REC_CNT).trans (frame_recordDone _ r))).mono (by simp) (by simp) (by simp)) (.inl rfl)
      fun hkeeps => ⟨?_, ?_, ?_, hkeeps⟩
    · rw [rdn_finish, (frame_recordDone _ r).rdn_eq (by simp), rdn_bump_ne _ (by decide), rdn_wrn_same]
      omega
    · rw [← hoff]
      rfl
    · rw [rdn_finish, (frame_recordDone _ r).rdn_eq (by simp), rdn_bump_same, rdn_wrn_ne _ _ (by decide)]
      rfl
  case regWait =>
    have hop : s.begin.regWaitTimeout = (s.begin.toNs x).applyFail s.cfg.idx ((r.words s.imgByte).getD 0 0) 7 := by
      simp only [State.regWaitTimeout, show s.begin.waitingRecord 0x03 = some (r, x) from hwait]
      rfl
    exact waiting_completes (op := (·.regWaitTimeout)) rfl hop hfn hroom fun t h1 h2 h3 h4 h5 h6 h7 h8 h9 h10 h11 => ⟨h1, h2, h3, h4, h5, h6, h7, h8, h9, h10, h11⟩
  case tableLoad =>
    have hop : s.begin.tableLoadTimeout = (s.begin.toNs x).applyFail s.cfg.idx ((r.words s.imgByte).getD 0 0) 8 := by
      simp only [State.tableLoadTimeout, show s.begin.waitingRecord 0x04 = some (r, x) from hwait]
      rfl
    exact waiting_completes (op := (·.tableLoadTimeout)) rfl hop hfn hroom fun t h1 h2 h3 h4 h5 h6 h7 h8 h9 h10 h11 => ⟨h1, h2, h3, h4, h5, h6, h7, h8, h9, h10, h11⟩
  case lock =>
    have hopen : s.begin.cfgLocked = false := by
      rw [State.cfgLocked, show s.begin.f F.CFG_STATUS_STATE = 2 from hstate]
      rfl
    have hop : s.begin.ctlWrite F.CFG_CMD_LOCK 1 = s.begin.lockShown.setFn fnCfg .ready := by
      rw [ctlWrite_cfgLock (s := s.begin) hk, State.cfgCmdLock, hopen]
      exact lockConfig_applied (s := s.begin) hstate
    have hshown := frame_lockShown s.begin
    have hfn' : s.begin.lockShown.fn fnCfg ≠ .ready := by
      rw [show s.begin.lockShown.fn fnCfg = .starting from hfn]
      decide
    have hlock : s.begin.lockShown.f F.CFG_STATUS_STATE = 3 := by
      rw [State.lockShown, f_raise, f_setF_addr _ _ (by decide), f_setF_same _ _ _ (by decide)]
      rfl
    have hflag : s.begin.lockShown.on F.CFG_FLAGS_LOCKED = true := by
      rw [State.lockShown, on_raise, on_setF_same _ _ (by decide) rfl]
    have hev : s.begin.lockShown.evNow = [⟨0x1905, 0⟩] := rfl
    have hlog : s.begin.lockShown.log = s.log := rfl
    generalize s.begin.lockShown = u at hop hshown hfn' hlock hflag hev hlog
    have hframe := frame_setFn_ready hfn'
    refine completes_of_frame (op := (·.ctlWrite F.CFG_CMD_LOCK 1)) rfl hop ((hshown.trans hframe).mono (by simp) (by simp) (by simp)) (.inr (by simp))
      fun hkeeps => ⟨hopen, ?_, ?_, ?_, ?_, hkeeps⟩
    · rw [State.cfgLocked, f_finish, hframe.f_eq (y := F.CFG_STATUS_STATE) (by decide), hlock]
      rfl
    · rw [on_finish, hframe.on_eq (y := F.CFG_FLAGS_LOCKED) (by decide), hflag]
    · rw [fn_finish, fn_setFn_ready hfn']
    · refine finish_logged ?_ ?_ (by simp) (by simp)
      · rw [evNow_setFn_ready hfn', hev]
        rfl
      · rw [hframe.part (p := .log) (by decide), hlog]
        exact ⟨rfl, rfl⟩

end Sys2Proof.Machine
end

section
/-!
PROOFS. Snapshots (R425, R426) and check units (R432-R434).
-/

namespace Sys2Proof.Machine

/-! ## Values of two words -/

theorem rd64_wr64 (s : State) {lo hi : Nat} (n : Nat) (h : lo ≠ hi) : (s.wr64 lo hi n).rd64 lo hi = n % 2 ^ 64 := by
  have hlow : (s.wr64 lo hi n).rdn lo = n % 2 ^ 32 := by
    rw [State.rdn, rd_wr64_lo s n h, BitVec.toNat_ofNat]
  have hhigh : (s.wr64 lo hi n).rdn hi = n / 4294967296 % 2 ^ 32 := by
    rw [State.rdn, rd_wr64_hi, BitVec.toNat_ofNat]
  rw [State.rd64, hlow, hhigh]
  omega

theorem Frame.rd64_eq {regs fns : List Nat} {parts : List Part} {s t : State} (h : Frame regs fns parts s t) {lo hi : Nat} (hlo : lo ∉ regs) (hhi : hi ∉ regs) :
    t.rd64 lo hi = s.rd64 lo hi := by
  rw [State.rd64, State.rd64, h.rdn_eq hlo, h.rdn_eq hhi]

/-- A register that takes the value it has is in no frame. -/
theorem frame_wrn_self (s : State) (a : Nat) : Frame [] [] [] s (s.wrn a (s.rdn a)) := by
  refine (frame_wrn s a (s.rdn a)).drop ?_
  rw [rd_wrn_same, State.rdn, BitVec.ofNat_toNat, BitVec.setWidth_eq]

/-! ## SNAPSHOT_COMMAND (R425) -/

/-- A snapshot command waits. -/
def State.snapWaits (s : State) (x : SnapTake) : State := { (s.setF F.GLB_SNAP_STATUS_PENDING 1) with snap := { s.snap with cmd := some x } }

theorem frame_snapWaits (s : State) (x : SnapTake) : Frame [R.GLB_SNAP_STATUS] [] [.snap] s (s.snapWaits x) :=
  (frame_setF s F.GLB_SNAP_STATUS_PENDING 1).trans (frame_snap _ _)

theorem ctlWrite_snapNow {s : State} (hk : s.dark = false) : s.ctlWrite F.GLB_SNAP_CMD_NOW 1 = s.snapNow := by
  have hnow := ctl_act_same (fs := [⟨0, 0, .wo, false, .any⟩]) (s.oldWord .pcie R.GLB_SNAP_CMD) (s.rdn R.GLB_SNAP_CMD) 0 0 1 ⟨0, 0, .wo, false, .any⟩
    (by simp) ⟨rfl, rfl⟩ (by decide) (by decide) (.inl rfl)
  refine ctlWrite_unit hk (by decide) (d := ⟨R.GLB_SNAP_CMD, [], 0x0, false, [⟨0, 0, .wo, false, .any⟩]⟩) rfl rfl (fieldsOk_any rfl _ _) (by decide) (by decide) ?_
  exact congrArg some (if_pos hnow)

/-- The first command after the start waits for the next line. -/
theorem snapNow_first {s : State} (hcmd : s.snap.cmd = none) (hlast : s.snap.last = none) (hrun : s.merRuns = true) :
    s.snapNow = s.snapWaits { pos := some ((s.clk.vpos / 65536 + 1) * 65536), cmd := true } := by
  have hnone : s.snap.cmd.isSome = false := by rw [hcmd]; rfl
  simp only [State.snapNow, hnone, Bool.false_eq_true, if_false, hlast, hrun, if_true, State.snapWaits, ceilDiv, Nat.zero_add, Nat.reduceSub, Nat.reduceDiv, zero_mul,
    Nat.max_zero]

/-! ## SNAPSHOT (R426) -/

/-- With no monitor enabled a snapshot position restarts none. -/
theorem monRestart_none {s : State} (h : (List.range 64).all (fun m => !s.on (F.MON_CTL_EN m)) = true) : s.monRestart = s := by
  rw [State.monRestart]
  generalize List.range 64 = units at h ⊢
  induction units with
  | nil => rfl
  | cons m rest ih =>
    simp only [List.all_cons, Bool.and_eq_true] at h
    obtain ⟨hm, hrest⟩ := h
    rw [List.foldl_cons, if_pos hm]
    exact ih hrest

/-- With nothing held there is nothing to put into force. -/
theorem applyHeld_nil {s : State} (a d : Nat) (h : s.held = []) : s.applyHeld a d = s := by
  have hput : Tab.put (fun _ => ({} : Held)) s.held a {} = s.held := by
    rw [h]
    rfl
  have hget : Tab.get (fun _ => ({} : Held)) s.held a = {} := by
    rw [h]
    rfl
  simp only [State.applyHeld, hget, List.filter_nil, if_true, hput]

/-- A latched register in the bank of a snapshot. -/
theorem get_latchedRegs (s : State) {a : Nat} (hl : isLatched a = true) (ha : a ≠ R.BIN_EVT_LOST) : Tab.get resetOf s.latchedRegs a = s.rd a := by
  rw [State.latchedRegs, Tab.get_put_ne _ _ _ ha, Tab.get_filter_key resetOf s.regs isLatched a, if_pos hl]
  rfl

/-- The counters go to the odd bank. -/
def State.banksOdd (s : State) : State :=
  { s with ing := { s.ing with ftSnap1 := s.ing.ft.filter (fun e => decide (12 ≤ e.1 % 16)) }
           snap := { s.snap with bank1 := some s.latchedRegs, egs1 := s.egs.ft.filter (fun e => decide (24 ≤ e.1 % 32) && decide (e.1 % 32 ≤ 26)) } }

/-- The counters go to the even bank. -/
def State.banksEven (s : State) : State :=
  { s with ing := { s.ing with ftSnap0 := s.ing.ft.filter (fun e => decide (12 ≤ e.1 % 16)) }
           snap := { s.snap with bank0 := some s.latchedRegs, egs0 := s.egs.ft.filter (fun e => decide (24 ≤ e.1 % 32) && decide (e.1 % 32 ≤ 26)) } }

/-- The snapshot is noted, with the bank as `b` holds it. -/
def State.snapTaken (s b : State) (x : SnapTake) : State := { s with snap := { b.snap with taken := some x, last := some b.clk.vpos } }

theorem latchAll_eq (s : State) (x : SnapTake) :
    s.latchAll x = (fun b : State => b.monRestart.snapTaken b x) (if (s.rdn R.GLB_SNAP_EPOCH + 1) % 2 = 1 then s.banksOdd else s.banksEven) := by
  simp only [State.latchAll]
  rfl

/-- The units latch into the odd bank. -/
def State.latchedOdd (s : State) (x : SnapTake) : State := s.banksOdd.snapTaken s.banksOdd x

theorem frame_banksOdd (s : State) : Frame [] [] [.ing, .snap] s s.banksOdd :=
  (frame_ing s { s.ing with ftSnap1 := s.ing.ft.filter (fun e => decide (12 ≤ e.1 % 16)) }).trans (frame_snap _ s.banksOdd.snap)

theorem frame_latchedOdd (s : State) (x : SnapTake) : Frame [] [] [.snap, .ing] s (s.latchedOdd x) :=
  ((frame_banksOdd s).trans (frame_snap s.banksOdd _)).mono (by simp) (by simp) (by simp)

theorem latchAll_odd {s : State} (x : SnapTake) (hodd : (s.rdn R.GLB_SNAP_EPOCH + 1) % 2 = 1)
    (hmon : (List.range 64).all (fun m => !s.on (F.MON_CTL_EN m)) = true) : s.latchAll x = s.latchedOdd x := by
  rw [latchAll_eq, if_pos hodd]
  exact congrArg (fun t : State => t.snapTaken s.banksOdd x) (monRestart_none (s := s.banksOdd) hmon)

/-- The clock has run on to `q`. -/
def State.clkAt (s : State) (q : Clock) : State := { s with clk := q }

/-- The waiting command is served at its position. -/
theorem snapshot_served {s : State} {p : Nat} {q : Clock} (htaken : s.snap.taken = none) (hcmd : s.snap.cmd = some { pos := some p, cmd := true })
    (hauto : s.nextAuto = none) (hpos : s.toPos 3 p = some (s.clkAt q)) (hheld : s.held = []) :
    s.snapshot = (s.clkAt q).snapServed.latchAll { pos := some p, cmd := true } := by
  have hepoch : s.epochAdvance = s := by
    simp only [State.epochAdvance, htaken]
  simp only [State.snapshot, hepoch, hcmd, hauto, hpos]
  rw [applyHeld_nil (s := s.clkAt q) _ _ hheld, if_true]

theorem frame_snapServed (s : State) : Frame [R.GLB_SNAP_STATUS] [] [.snap] s s.snapServed :=
  (frame_setF s F.GLB_SNAP_STATUS_PENDING 0).trans (frame_snap _ _)

/-! ## SNAPSHOT_EPOCH_ADVANCE (R426) -/

/-- The epoch, the bank and the source of the snapshot as the registers show them. -/
def State.epochShown (s : State) (c : Bool) : State :=
  ((s.wrn R.GLB_SNAP_EPOCH (s.rdn R.GLB_SNAP_EPOCH + 1)).setF F.GLB_SNAP_STATUS_BANK ((s.rdn R.GLB_SNAP_EPOCH + 1) % 2)).setF F.GLB_SNAP_STATUS_SOURCE
    (if c then 1 else 0)

/-- The position of the snapshot as the registers show it. -/
def State.snapPosShown (s : State) (frame line : Nat) : State := (s.wr64 R.GLB_SNAP_FRAME_LO R.GLB_SNAP_FRAME_HI (frame % 2 ^ 48)).wrn R.GLB_SNAP_LINE line

/-- Every unit has latched. -/
def State.snapDone (s : State) : State := { s with snap := { s.snap with taken := none } }

theorem epochAdvance_taken {s : State} {p : Nat} {c : Bool} (h : s.snap.taken = some { pos := some p, cmd := c }) :
    s.epochAdvance = ((s.epochShown c).snapPosShown (s.clk.frameOf p) (p % s.clk.fu / 65536 * 65536 + p % 65536)).snapDone := by
  simp only [State.epochAdvance, h]
  rfl

theorem frame_epochShown (s : State) (c : Bool) : Frame [R.GLB_SNAP_EPOCH, R.GLB_SNAP_STATUS] [] [] s (s.epochShown c) :=
  ((frame_wrn s R.GLB_SNAP_EPOCH _).trans ((frame_setF _ F.GLB_SNAP_STATUS_BANK _).trans (frame_setF _ F.GLB_SNAP_STATUS_SOURCE _))).mono (by simp) (by simp) (by simp)

theorem frame_snapPosShown (s : State) (frame line : Nat) :
    Frame [R.GLB_SNAP_FRAME_LO, R.GLB_SNAP_FRAME_HI, R.GLB_SNAP_LINE] [] [] s (s.snapPosShown frame line) :=
  (frame_wr64 s _ _ _).trans (frame_wrn _ _ _)

theorem frame_snapDone (s : State) : Frame [] [] [.snap] s s.snapDone := frame_snap s _

theorem rdn_epochShown (s : State) (c : Bool) : (s.epochShown c).rdn R.GLB_SNAP_EPOCH = (s.rdn R.GLB_SNAP_EPOCH + 1) % 2 ^ 32 := by
  rw [State.epochShown, (frame_setF _ F.GLB_SNAP_STATUS_SOURCE _).rdn_eq (by decide), (frame_setF _ F.GLB_SNAP_STATUS_BANK _).rdn_eq (by decide), rdn_wrn_same]

theorem bank_epochShown (s : State) (c : Bool) : (s.epochShown c).f F.GLB_SNAP_STATUS_BANK = (s.rdn R.GLB_SNAP_EPOCH + 1) % 2 := by
  rw [State.epochShown, f_setF_bits _ (y := F.GLB_SNAP_STATUS_BANK) (x := F.GLB_SNAP_STATUS_SOURCE) _ rfl (by decide) (by decide) (by decide),
    f_setF_same _ _ _ (by decide)]
  exact Nat.mod_mod _ _

theorem source_epochShown (s : State) (c : Bool) : (s.epochShown c).on F.GLB_SNAP_STATUS_SOURCE = c := by
  rw [State.on, State.epochShown, f_setF_same _ _ _ (by decide)]
  cases c <;> rfl

/-- The line and the fraction of a position within its frame. -/
theorem line_snapPosShown (s : State) (frame p lm : Nat) :
    (s.snapPosShown frame (p % (lm * 65536) / 65536 * 65536 + p % 65536)).f F.GLB_SNAP_LINE_LINE = p % (lm * 65536) / 65536 % 65536 ∧
    (s.snapPosShown frame (p % (lm * 65536) / 65536 * 65536 + p % 65536)).f F.GLB_SNAP_LINE_FRACTION = p % (lm * 65536) % 65536 := by
  have hfraction : p % (lm * 65536) % 65536 = p % 65536 := Nat.mod_mod_of_dvd p (Nat.dvd_mul_left _ _)
  have hword : (s.snapPosShown frame (p % (lm * 65536) / 65536 * 65536 + p % 65536)).rdn R.GLB_SNAP_LINE =
      (p % (lm * 65536) / 65536 * 65536 + p % 65536) % 2 ^ 32 := rdn_wrn_same _ _ _
  rw [State.f, State.f, hword, hfraction]
  generalize p % (lm * 65536) / 65536 = l
  constructor <;> simp only [bitsOf] <;> omega

/-! ## Check units (R433, R434) -/

theorem ctlWrite_chk {s : State} {u b v : Nat} (hk : s.dark = false) (hu : u < 4) (hb : b < 2) :
    ∃ w : Word, s.ctlWrite ⟨R.CHK_CMD u, b, b⟩ v = s.checkCmd u w.toNat ∧ bitsOf w.toNat b b = v % 2 ∧
      bitsOf w.toNat (1 - b) (1 - b) = bitsOf (s.rdn (R.CHK_CMD u)) (1 - b) (1 - b) := by
  have hrow : regDef (R.CHK_CMD u) = some ⟨1573148, [(64, 4)], 0, false, [⟨0, 0, .wo, false, .any⟩, ⟨1, 1, .wo, false, .any⟩]⟩ := by interval_cases u <;> rfl
  have hunit (v raw : Word) : s.unitReg .pcie (R.CHK_CMD u) v raw = some (s.checkCmd u v.toNat) := by interval_cases u <;> rfl
  have haddr : R.CHK_CMD u % 4 = 0 ∧ R.CHK_CMD u < 0x1A0000 := by interval_cases u <;> decide
  have hplain : wideOf wideWrites (R.CHK_CMD u) = none := by interval_cases u <;> decide
  have hnarrow : latInput (R.CHK_CMD u) = false := by interval_cases u <;> decide
  refine ⟨_, ctlWrite_unit hk haddr hrow rfl (fieldsOk_any rfl _ _) hplain hnarrow (hunit _ _), ?_, ?_⟩
  · have hsame := ctl_act_same (fs := [⟨0, 0, .wo, false, .any⟩, ⟨1, 1, .wo, false, .any⟩]) (s.oldWord .pcie (R.CHK_CMD u)) (s.rdn (R.CHK_CMD u)) b b v
      ⟨b, b, .wo, false, .any⟩ (by interval_cases b <;> simp) ⟨rfl, rfl⟩ (by omega) (by decide) (.inl rfl)
    rw [hsame, Nat.add_sub_cancel_left, pow_one]
  · exact ctl_act_other (fs := [⟨0, 0, .wo, false, .any⟩, ⟨1, 1, .wo, false, .any⟩]) _ _ b b v ⟨1 - b, 1 - b, .wo, false, .any⟩
      (by interval_cases b <;> simp) (le_refl b) (by show 1 - b < 32; omega) (by show b < 1 - b ∨ 1 - b < b; omega) (by decide) (.inl rfl)

/-- A check unit at work on a new job. -/
def State.checkStarted (s : State) (u : Nat) : State :=
  (((s.setF (F.CHK_STATUS_STATE u) 1).wrn (R.CHK_SEQ_USED u) (s.rdn (R.CHK_SEQ u))).wrn (R.CHK_DONE_BYTES u) 0).bump (R.CHK_RUN_CNT u)

theorem checkCmd_start {s : State} {u v : Nat} (hstart : bitsOf v 0 0 = 1) (habort : bitsOf v 1 1 = 0) (hok : s.checkOk u = true) :
    s.checkCmd u v = s.checkStarted u := by
  simp only [State.checkCmd, hstart, habort, hok, Bool.not_true, Bool.false_eq_true, if_false]
  rfl

theorem checkCmd_abort {s : State} {u v : Nat} (hstart : bitsOf v 0 0 = 0) (habort : bitsOf v 1 1 = 1) (hbusy : s.chkBusy u = true) :
    s.checkCmd u v = s.checkEnd u 4 (s.rdn (R.CHK_DONE_BYTES u)) 0x1804 F.CHK_FLAGS_ABORTED := by
  simp only [State.checkCmd, hstart, habort, hbusy, if_true]

theorem frame_checkStarted (s : State) (u : Nat) :
    Frame [R.CHK_STATUS u, R.CHK_SEQ_USED u, R.CHK_DONE_BYTES u, R.CHK_RUN_CNT u] [] [] s (s.checkStarted u) :=
  ((frame_setF s (F.CHK_STATUS_STATE u) 1).trans ((frame_wrn _ _ _).trans ((frame_wrn _ _ _).trans (frame_bump _ _)))).mono (by simp) (by simp) (by simp)

theorem state_checkEnd (s : State) (u done st event : Nat) : (s.checkEnd u st done event F.CHK_FLAGS_ABORTED).f (F.CHK_STATUS_STATE u) = st % 8 := by
  have hlast := (frame_wr64 (s.setF (F.CHK_STATUS_STATE u) st) (R.CHK_RESULT_LO u) (R.CHK_RESULT_HI u) 0).trans ((frame_wrn _ (R.CHK_DONE_BYTES u) done).trans
    ((frame_setF _ F.CHK_FLAGS_ABORTED 1).trans (frame_raise _ event u)))
  exact (hlast.f_eq (y := F.CHK_STATUS_STATE u) (by simp only [R.CHK_STATUS, R.CHK_FLAGS]; simp; omega)).trans (f_setF_same s (F.CHK_STATUS_STATE u) st (by decide : 2 < 32))

theorem result_checkEnd (s : State) (u done st event : Nat) :
    (s.checkEnd u st done event F.CHK_FLAGS_ABORTED).rd64 (R.CHK_RESULT_LO u) (R.CHK_RESULT_HI u) = 0 := by
  have hlast := (frame_wrn ((s.setF (F.CHK_STATUS_STATE u) st).wr64 (R.CHK_RESULT_LO u) (R.CHK_RESULT_HI u) 0) (R.CHK_DONE_BYTES u) done).trans
    ((frame_setF _ F.CHK_FLAGS_ABORTED 1).trans (frame_raise _ event u))
  exact (hlast.rd64_eq (by simp only [R.CHK_RESULT_LO, R.CHK_FLAGS]; simp; omega) (by simp only [R.CHK_RESULT_HI, R.CHK_FLAGS]; simp; omega)).trans
    (rd64_wr64 _ _ (by simp))

theorem flag_checkEnd (s : State) (u done st event : Nat) : (s.checkEnd u st done event F.CHK_FLAGS_ABORTED).on F.CHK_FLAGS_ABORTED = true := by
  rw [State.checkEnd, on_raise, on_setF_same _ _ (by decide) rfl]

/-- A job that ends without a result and with as many bytes done as before. -/
theorem frame_checkAborted (s : State) (u : Nat) : Frame [R.CHK_STATUS u, R.CHK_RESULT_LO u, R.CHK_RESULT_HI u, R.CHK_FLAGS] [] [] s
    (s.checkEnd u 4 (s.rdn (R.CHK_DONE_BYTES u)) 0x1804 F.CHK_FLAGS_ABORTED) := by
  have hopen := (frame_setF s (F.CHK_STATUS_STATE u) 4).trans (frame_wr64 _ (R.CHK_RESULT_LO u) (R.CHK_RESULT_HI u) 0)
  have hdone : s.rdn (R.CHK_DONE_BYTES u) = ((s.setF (F.CHK_STATUS_STATE u) 4).wr64 (R.CHK_RESULT_LO u) (R.CHK_RESULT_HI u) 0).rdn (R.CHK_DONE_BYTES u) :=
    (hopen.rdn_eq (by simp)).symm
  rw [State.checkEnd, hdone]
  exact (hopen.trans ((frame_wrn_self _ _).trans ((frame_setF _ F.CHK_FLAGS_ABORTED 1).trans (frame_raise _ _ _)))).mono (by simp) (by simp) (by simp)

/-- What CHECK_COMPLETE leaves in the registers. -/
def State.checkDone (s : State) (u : Nat) : State :=
  (((s.wr64 (R.CHK_RESULT_LO u) (R.CHK_RESULT_HI u) (s.checkResult u)).wrn (R.CHK_DONE_BYTES u) (s.chkLen u)).bump (R.CHK_SEQ u)).setF (F.CHK_STATUS_STATE u) 2

theorem checkComplete_inc {s : State} {u : Nat} (hbusy : s.chkBusy u = true) (hinc : s.on (F.CHK_CTL_SEQ_INC u) = true) :
    s.checkComplete u = (s.checkDone u).raise 0x1802 u := by
  have hframe := (frame_wr64 s (R.CHK_RESULT_LO u) (R.CHK_RESULT_HI u) (s.checkResult u)).trans (frame_wrn _ (R.CHK_DONE_BYTES u) (s.chkLen u))
  have hinc' := (hframe.on_eq (y := F.CHK_CTL_SEQ_INC u) (by simp)).trans hinc
  simp only [State.checkComplete, hbusy, Bool.not_true, Bool.false_eq_true, if_false, hinc', if_true]
  rfl

theorem frame_checkDone (s : State) (u : Nat) :
    Frame [R.CHK_STATUS u, R.CHK_RESULT_LO u, R.CHK_RESULT_HI u, R.CHK_DONE_BYTES u, R.CHK_SEQ u] [] [] s (s.checkDone u) :=
  ((frame_wr64 s _ _ _).trans ((frame_wrn _ _ _).trans ((frame_bump _ _).trans (frame_setF _ (F.CHK_STATUS_STATE u) 2)))).mono (by simp) (by simp) (by simp)

theorem checkRun_begin (s : State) (alg : Nat) (flash : Bool) (a n c : Nat) : s.begin.checkRun alg flash a n c = s.checkRun alg flash a n c := by
  induction n generalizing a c with
  | zero => rfl
  | succ n ih =>
    rw [State.checkRun, ih]
    rfl

theorem checkResult_begin (s : State) (u : Nat) : s.begin.checkResult u = s.checkResult u := by
  simp only [State.checkResult, checkRun_begin]
  rfl

theorem state_checkDone (s : State) (u : Nat) : (s.checkDone u).f (F.CHK_STATUS_STATE u) = 2 := by
  rw [State.checkDone, f_setF_same _ (F.CHK_STATUS_STATE u) _ (by decide : 2 < 32)]
  rfl

theorem result_checkDone (s : State) (u : Nat) : (s.checkDone u).rd64 (R.CHK_RESULT_LO u) (R.CHK_RESULT_HI u) = s.checkResult u % 2 ^ 64 := by
  have hlast := (frame_wrn (s.wr64 (R.CHK_RESULT_LO u) (R.CHK_RESULT_HI u) (s.checkResult u)) (R.CHK_DONE_BYTES u) (s.chkLen u)).trans
    ((frame_bump _ (R.CHK_SEQ u)).trans (frame_setF _ (F.CHK_STATUS_STATE u) 2))
  exact (hlast.rd64_eq (by simp) (by simp)).trans (rd64_wr64 _ _ (by simp))

theorem bytes_checkDone (s : State) (u : Nat) : (s.checkDone u).rd (R.CHK_DONE_BYTES u) = s.rd (R.CHK_LEN u) := by
  have hlast := (frame_bump ((s.wr64 (R.CHK_RESULT_LO u) (R.CHK_RESULT_HI u) (s.checkResult u)).wrn (R.CHK_DONE_BYTES u) (s.chkLen u)) (R.CHK_SEQ u)).trans
    (frame_setF _ (F.CHK_STATUS_STATE u) 2)
  refine (hlast.rd_eq (a := R.CHK_DONE_BYTES u) (by simp)).trans ?_
  rw [rd_wrn_same, State.chkLen, State.rdn, BitVec.ofNat_toNat, BitVec.setWidth_eq]

theorem seq_checkDone (s : State) (u : Nat) : (s.checkDone u).rdn (R.CHK_SEQ u) = (s.rdn (R.CHK_SEQ u) + 1) % 2 ^ 32 := by
  have hfirst := (frame_wr64 s (R.CHK_RESULT_LO u) (R.CHK_RESULT_HI u) (s.checkResult u)).trans (frame_wrn _ (R.CHK_DONE_BYTES u) (s.chkLen u))
  rw [State.checkDone, (frame_setF _ (F.CHK_STATUS_STATE u) 2).rdn_eq (by simp), rdn_bump_same, hfirst.rdn_eq (by simp)]

/-- A job of a check unit that is done. -/
theorem checkComplete_completes {s : State} {u : Nat} (hu : u < 4) (hbusy : s.chkBusy u = true) (hinc : s.on (F.CHK_CTL_SEQ_INC u) = true) :
    Completes (.checkComplete u) s fun t => t.f (F.CHK_STATUS_STATE u) = 2 ∧
      t.rd64 (R.CHK_RESULT_LO u) (R.CHK_RESULT_HI u) = s.checkResult u % 2 ^ 64 ∧ t.rd (R.CHK_DONE_BYTES u) = s.rd (R.CHK_LEN u) ∧
      t.rdn (R.CHK_SEQ u) = (s.rdn (R.CHK_SEQ u) + 1) % 2 ^ 32 ∧ Logged [⟨0x1802, u⟩] s t ∧
      Keeps [R.CHK_STATUS u, R.CHK_RESULT_LO u, R.CHK_RESULT_HI u, R.CHK_DONE_BYTES u, R.CHK_SEQ u] [] [.log] s t := by
  have hop : s.begin.idx u 4 (fun s => s.checkComplete u) = (s.begin.checkDone u).raise 0x1802 u := by
    rw [idx_of_lt hu]
    exact checkComplete_inc (s := s.begin) hbusy hinc
  have hdone := frame_checkDone s.begin u
  have hstate := state_checkDone s.begin u
  have hresult := (result_checkDone s.begin u).trans (by rw [checkResult_begin])
  have hbytes := bytes_checkDone s.begin u
  have hseq := seq_checkDone s.begin u
  have hev : (s.begin.checkDone u).evNow = [] := rfl
  have hlog : (s.begin.checkDone u).log = s.log := rfl
  generalize s.begin.checkDone u = w at hop hdone hstate hresult hbytes hseq hev hlog
  have hev' : (w.raise 0x1802 u).evNow = [⟨0x1802, u⟩] := by
    rw [State.raise, hev]
    rfl
  refine completes_of_frame (op := (·.idx u 4 fun s => s.checkComplete u)) rfl hop ((hdone.trans (frame_raise _ _ _)).mono (by simp) (by simp) (by simp))
    (.inr (by simp)) fun hkeeps => ⟨hstate, hresult, hbytes, hseq, finish_logged (by rw [hev']; rfl) ?_ (by simp) (by simp; omega), hkeeps⟩
  rw [← hlog]
  exact ⟨rfl, rfl⟩

/-- Settles O54: snapshots and the jobs of a check unit. -/
theorem snapshotAndCheckCommandsComplete : Obligations.SnapshotAndCheckCommandsComplete := by
  unfold Obligations.SnapshotAndCheckCommandsComplete
  refine ⟨fun s hk hcmd hlast hrun => ?command, fun s p q htaken hcmd hauto hpos hheld hmon hbank => ?snapshot, fun s p c htaken => ?epoch,
    fun s u hk hu hok hzero => ?start, fun s u hk hu hbusy hzero => ?abort, fun s u hu hbusy hinc => ?complete⟩
  case command =>
    have hop : s.begin.ctlWrite F.GLB_SNAP_CMD_NOW 1 = s.begin.snapWaits { pos := some ((s.clk.vpos / 65536 + 1) * 65536), cmd := true } :=
      (ctlWrite_snapNow (s := s.begin) hk).trans (snapNow_first (s := s.begin) hcmd hlast hrun)
    refine completes_of_frame (op := (·.ctlWrite F.GLB_SNAP_CMD_NOW 1)) rfl hop (frame_snapWaits _ _) (.inl rfl) fun hkeeps => ⟨?_, rfl, hkeeps⟩
    exact on_setF_same s.begin F.GLB_SNAP_STATUS_PENDING (by decide) rfl
  case snapshot =>
    have hserved := (frame_clk s.begin q).trans (frame_snapServed (s.begin.clkAt q))
    have hop := snapshot_served (s := s.begin) htaken hcmd hauto hpos hheld
    have hpending : (s.begin.clkAt q).snapServed.on F.GLB_SNAP_STATUS_PENDING = false := by
      have hzero : (s.begin.clkAt q).snapServed.f F.GLB_SNAP_STATUS_PENDING = 0 :=
        f_setF_same (s.begin.clkAt q) F.GLB_SNAP_STATUS_PENDING 0 (by decide)
      rw [State.on, hzero]
      rfl
    have hodd : ((s.begin.clkAt q).snapServed.rdn R.GLB_SNAP_EPOCH + 1) % 2 = 1 := by
      have heven : s.rdn R.GLB_SNAP_EPOCH % 2 ≠ 1 := by
        simpa [State.bankOdd] using hbank
      rw [hserved.rdn_eq (by decide), rdn_begin]
      omega
    have hmon' : (List.range 64).all (fun m => !(s.begin.clkAt q).snapServed.on (F.MON_CTL_EN m)) = true := by
      rw [← hmon]
      congr 1
      funext m
      rw [hserved.on_eq (y := F.MON_CTL_EN m) (by simp only [R.MON_CTL, R.GLB_SNAP_STATUS]; simp; omega)]
      rfl
    rw [latchAll_odd _ hodd hmon'] at hop
    have hsnap : (s.begin.clkAt q).snapServed.snap = { s.snap with cmd := none } := rfl
    have hing : (s.begin.clkAt q).snapServed.ing = s.ing := rfl
    have hegs : (s.begin.clkAt q).snapServed.egs = s.egs := rfl
    have hclk : (s.begin.clkAt q).snapServed.clk = q := rfl
    have hev : (s.begin.clkAt q).snapServed.evNow = [] := rfl
    generalize (s.begin.clkAt q).snapServed = u at *
    have hframe := (hserved.trans (frame_latchedOdd u { pos := some p, cmd := true })).mono (r₂ := [R.GLB_SNAP_STATUS]) (f₂ := []) (p₂ := [.snap, .ing, .clk])
      (by simp) (by simp) (by simp)
    refine completes_of_frame (op := (·.snapshot)) rfl hop hframe (.inl hev) fun hkeeps => ⟨fun a hl hlost hstatus => ?_, ?_, ?_, rfl, ?_, ?_, ?_, ?_, ?_, hkeeps⟩
    · have hbank1 : (u.latchedOdd { pos := some p, cmd := true }).finish.snap.bank1 = some u.latchedRegs := rfl
      rw [hbank1, Option.map_some, get_latchedRegs u hl hlost, hserved.rd_eq (by simpa using hstatus)]
      rfl
    · have hbank0 : (u.latchedOdd { pos := some p, cmd := true }).finish.snap.bank0 = u.snap.bank0 := rfl
      rw [hbank0, hsnap]
    · rw [on_finish, (frame_latchedOdd u _).on_eq (by simp)]
      exact hpending
    · exact congrArg (fun c => some (Clock.vpos c)) hclk
    · have hsame : (u.latchedOdd { pos := some p, cmd := true }).finish.snap.cmd = u.snap.cmd := rfl
      rw [hsame, hsnap]
    · have hft : (u.latchedOdd { pos := some p, cmd := true }).finish.ing.ft = u.ing.ft := rfl
      rw [hft, hing]
    · exact hegs
    · exact hclk
  case epoch =>
    have hop := epochAdvance_taken (s := s.begin) htaken
    have hshown := frame_epochShown s.begin c
    have hepoch := rdn_epochShown s.begin c
    have hbank := bank_epochShown s.begin c
    have hsource := source_epochShown s.begin c
    have hsnap : (s.begin.epochShown c).snap = s.snap := rfl
    have hev : (s.begin.epochShown c).evNow = [] := rfl
    generalize s.begin.epochShown c = u at hop hshown hepoch hbank hsource hsnap hev
    have hpos := frame_snapPosShown u (s.clk.frameOf p) (p % s.clk.fu / 65536 * 65536 + p % 65536)
    have hline := line_snapPosShown u (s.clk.frameOf p) p s.clk.lm
    have hcount : (u.snapPosShown (s.clk.frameOf p) (p % s.clk.fu / 65536 * 65536 + p % 65536)).rd64 R.GLB_SNAP_FRAME_LO R.GLB_SNAP_FRAME_HI =
        s.clk.frameOf p % 2 ^ 48 := by
      rw [State.snapPosShown, (frame_wrn _ R.GLB_SNAP_LINE _).rd64_eq (by decide) (by decide), rd64_wr64 _ _ (by decide)]
      omega
    rw [← Clock.fu] at hline
    have hsnap' : (u.snapPosShown (s.clk.frameOf p) (p % s.clk.fu / 65536 * 65536 + p % 65536)).snap = s.snap := hsnap
    have hev' : (u.snapPosShown (s.clk.frameOf p) (p % s.clk.fu / 65536 * 65536 + p % 65536)).evNow = [] := hev
    have hop' : s.begin.epochAdvance = (u.snapPosShown (s.clk.frameOf p) (p % s.clk.fu / 65536 * 65536 + p % 65536)).snapDone := hop
    generalize u.snapPosShown (s.clk.frameOf p) (p % s.clk.fu / 65536 * 65536 + p % 65536) = w at *
    obtain ⟨hl, hfr⟩ := hline
    have hend := frame_snapDone w
    refine completes_of_frame (op := (·.epochAdvance)) rfl hop' ((hshown.trans (hpos.trans hend)).mono (by simp) (by simp) (by simp)) (.inl hev')
      fun hkeeps => ⟨?_, ?_, ?_, ?_, ?_, ?_, ?_, hkeeps⟩
    · rw [rdn_finish, hend.rdn_eq (by simp), hpos.rdn_eq (by decide), hepoch]
      rfl
    · rw [f_finish, hend.f_eq (by simp), hpos.f_eq (by decide), hbank]
      rfl
    · rw [on_finish, hend.on_eq (by simp), hpos.on_eq (by decide), hsource]
    · exact (hend.rd64_eq (by simp) (by simp)).trans hcount
    · exact (hend.f_eq (by simp)).trans hl
    · exact (hend.f_eq (by simp)).trans hfr
    · rw [← hsnap']
      rfl
  case start =>
    obtain ⟨w, hwrite, hbit, hother⟩ := ctlWrite_chk (s := s.begin) (b := 0) (v := 1) hk hu (by decide)
    have hop : s.begin.idx u 4 (fun s => s.ctlWrite (F.CHK_CMD_START u) 1) = s.begin.checkStarted u := by
      rw [idx_of_lt hu]
      refine hwrite.trans (checkCmd_start (s := s.begin) hbit ?_ hok)
      rw [hother, show s.begin.rdn (R.CHK_CMD u) = 0 from hzero]
      rfl
    refine completes_of_frame (op := (·.idx u 4 fun s => s.ctlWrite (F.CHK_CMD_START u) 1)) rfl hop (frame_checkStarted _ _) (.inl rfl)
      fun hkeeps => ⟨?_, ?_, ?_, ?_, hkeeps⟩
    · rw [f_finish, State.checkStarted, f_bump_ne _ (by simp), f_wrn_ne _ _ (by simp), f_wrn_ne _ _ (by simp), f_setF_same _ _ _ (by decide : 2 < 32)]
      rfl
    · rw [rd_finish, State.checkStarted, rd_bump_ne _ (by simp), rd_wrn_ne _ _ (by simp), rd_wrn_same, State.rdn, BitVec.ofNat_toNat, BitVec.setWidth_eq]
      rfl
    · rw [rdn_finish, State.checkStarted, rdn_bump_ne _ (by simp), rdn_wrn_same]
      rfl
    · rw [rdn_finish, State.checkStarted, rdn_bump_same, rdn_wrn_ne _ _ (by simp), rdn_wrn_ne _ _ (by simp), (frame_setF _ (F.CHK_STATUS_STATE u) _).rdn_eq (by simp)]
      rfl
  case abort =>
    obtain ⟨w, hwrite, hbit, hother⟩ := ctlWrite_chk (s := s.begin) (b := 1) (v := 1) hk hu (by decide)
    have hop : s.begin.idx u 4 (fun s => s.ctlWrite (F.CHK_CMD_ABORT u) 1) =
        s.begin.checkEnd u 4 (s.begin.rdn (R.CHK_DONE_BYTES u)) 0x1804 F.CHK_FLAGS_ABORTED := by
      rw [idx_of_lt hu]
      refine hwrite.trans (checkCmd_abort (s := s.begin) ?_ hbit hbusy)
      refine hother.trans ?_
      rw [show s.begin.rdn (R.CHK_CMD u) = 0 from hzero]
      rfl
    have hend := frame_checkAborted s.begin u
    have hstate := state_checkEnd s.begin u (s.begin.rdn (R.CHK_DONE_BYTES u)) 4 0x1804
    have hresult := result_checkEnd s.begin u (s.begin.rdn (R.CHK_DONE_BYTES u)) 4 0x1804
    have hflag := flag_checkEnd s.begin u (s.begin.rdn (R.CHK_DONE_BYTES u)) 4 0x1804
    have hev : (s.begin.checkEnd u 4 (s.begin.rdn (R.CHK_DONE_BYTES u)) 0x1804 F.CHK_FLAGS_ABORTED).evNow = [⟨0x1804, u⟩] := rfl
    have hlog : (s.begin.checkEnd u 4 (s.begin.rdn (R.CHK_DONE_BYTES u)) 0x1804 F.CHK_FLAGS_ABORTED).log = s.log := rfl
    generalize s.begin.checkEnd u 4 (s.begin.rdn (R.CHK_DONE_BYTES u)) 0x1804 F.CHK_FLAGS_ABORTED = w at hop hend hstate hresult hflag hev hlog
    refine completes_of_frame (op := (·.idx u 4 fun s => s.ctlWrite (F.CHK_CMD_ABORT u) 1)) rfl hop (hend.mono (by simp) (by simp) (by simp)) (.inr (by simp))
      fun hkeeps => ⟨hstate, hresult, hflag, finish_logged (by rw [hev]; rfl) ?_ (by simp) (by simp; omega), hkeeps⟩
    rw [hlog]
    exact ⟨rfl, rfl⟩
  case complete => exact checkComplete_completes hu hbusy hinc

end Sys2Proof.Machine
end

section
/-!
PROOFS. Giving up control for a reason of twin operation (R250).
-/

namespace Sys2Proof.Machine

theorem ctlWrite_giveUp {s : State} (hk : s.dark = false) : s.ctlWrite F.TWN_CMD_GIVE_UP 1 = s.giveUp 7 0xFF 0 9 := by
  have hbit := ctl_act_same (fs := [⟨0, 0, .wo, false, .any⟩]) (s.oldWord .pcie R.TWN_CMD) (s.rdn R.TWN_CMD) 0 0 1 ⟨0, 0, .wo, false, .any⟩
    (by simp) ⟨rfl, rfl⟩ (by decide) (by decide) (.inl rfl)
  refine ctlWrite_unit hk (by decide) (d := ⟨R.TWN_CMD, [], 0x0, false, [⟨0, 0, .wo, false, .any⟩]⟩) rfl rfl (fieldsOk_any rfl _ _) (by decide) (by decide) ?_
  exact congrArg some (if_pos hbit)

/-- One record is written, of this cause and DETAIL. -/
theorem GaveUp.record {s t : State} {cause detail : Nat} (h : GaveUp s cause detail t) : t.isl.queue.length = s.isl.queue.length + 1 ∧
    t.isl.queue.getLast?.map (fun r => (r.cause, r.detail)) = some (cause, detail) := by
  constructor
  · have hlength := congrArg List.length h.queue
    rwa [List.length_map, List.length_append, List.length_map, List.length_singleton] at hlength
  · have hlast := congrArg List.getLast? h.queue
    rwa [List.getLast?_map, List.getLast?_append, List.getLast?_singleton, Option.some_or] at hlast

/-- A command that gives up control, of a module that is unmuted and drives HELM_OUT. -/
theorem giveUp_completes {i : Instr} {s : State} {op : State → State} (cause b detail : Nat) (hx : exec i s = s.run op)
    (hop : op s.begin = s.begin.giveUp cause 0xFF 0 detail) (hbit : faultBit cause = some b) (hb : b < 32) (hmuted : s.on F.BIN_STATUS_MUTED = false)
    (hhelm : s.on F.BIN_STATUS_HELM_OUT = true) (hroom : s.isl.queue.length < 8) :
    Completes i s fun t => t.on F.BIN_STATUS_GIVEN_UP = true ∧ t.on F.BIN_STATUS_MUTED = true ∧ t.on F.BIN_STATUS_MUTE_HOLD = true ∧
      t.on F.BIN_STATUS_HELM_OUT = false ∧ t.out = [.helmOut false] ∧ t.on ⟨R.BIN_FAULT, b, b⟩ = true ∧ t.isl.queue.length = s.isl.queue.length + 1 ∧
      t.isl.queue.getLast?.map (fun r => (r.cause, r.detail)) = some (cause, detail) ∧ Logged [⟨0x0102, 0⟩, ⟨0x0103, 0⟩] s t ∧
      Keeps [R.BIN_STATUS, R.TWN_STATUS, R.BIN_FAULT] [] [.isl, .log, .out] s t := by
  have h := giveUp_gaveUp (s := s.begin) cause 0xFF 0 detail hroom hmuted hhelm
  have hfault := giveUp_bit (s := s.begin) cause 0xFF 0 detail hroom hbit hb
  have hframe := frame_giveUp (s := s.begin) cause 0xFF 0 detail hroom
  obtain ⟨hlength, hlast⟩ := h.record
  generalize s.begin.giveUp cause 0xFF 0 detail = u at hop h hfault hframe hlength hlast
  exact completes_of_frame hx hop (hframe.mono (by simp) (by simp) (by simp)) (.inr (by simp)) fun hkeeps =>
    ⟨h.givenUp, h.muted, h.hold, h.helm, h.out, beq_iff_eq.mpr hfault, hlength, hlast, gaveUp_logged h, hkeeps⟩

/-- Settles O28: the command, the watchdog and the disagreement give up control, each with its cause. -/
theorem twinFaultCommandsComplete : Obligations.TwinFaultCommandsComplete := by
  unfold Obligations.TwinFaultCommandsComplete
  refine ⟨fun s hk _ hmuted hhelm hroom _ => ?command, fun s hrole hmuted hhelm hroom _ => ?watchdog, fun s n hn htwinned hmuted hhelm hroom _ => ?disagreement⟩
  case command =>
    exact giveUp_completes (op := (·.ctlWrite F.TWN_CMD_GIVE_UP 1)) 7 6 9 rfl (ctlWrite_giveUp (s := s.begin) hk) rfl (by decide) hmuted hhelm hroom
  case watchdog =>
    exact giveUp_completes (op := (·.twinWatchdog)) 1 0 0 rfl (if_neg hrole) rfl (by decide) hmuted hhelm hroom
  case disagreement =>
    have hop : s.begin.idx n 32 (fun s => s.digestDisagree n) = s.begin.giveUp 3 0xFF 0 n := (idx_of_lt hn).trans (if_pos htwinned)
    exact giveUp_completes (op := (·.idx n 32 fun s => s.digestDisagree n)) 3 2 n rfl hop rfl (by decide) hmuted hhelm hroom

end Sys2Proof.Machine
end

section
/-!
SUPPORT. Frames of the responders that wait at a busy port (R225, R285), and the receive half of a port (R287).
-/

namespace Sys2Proof.Machine

theorem frame_egs (s : State) (x : EgsSt) : Frame [] [] [.egs] s { s with egs := x } := by
  refine ⟨fun _ _ => rfl, fun _ _ => rfl, rfl, rfl, fun p hp => ?_⟩
  cases p
  case egs => simp at hp
  all_goals rfl

/-! ## A busy port -/

/-- A frame of a responder waits at its port. -/
def State.respQueued (s : State) (p len : Nat) (r : Resp) : State := s.setEport p { s.eport p with resp := (s.eport p).resp ++ [(len, r)] }

theorem frame_respQueued (s : State) (p len : Nat) (r : Resp) : Frame [] [] [.egs] s (s.respQueued p len r) := frame_egs s _

theorem eport_respQueued (s : State) (p len : Nat) (r : Resp) :
    (s.respQueued p len r).eport p = { s.eport p with resp := (s.eport p).resp ++ [(len, r)] } := Tab.get_put_same _ _ p _

/-- A busy port takes no packet, so the frame waits. -/
theorem respond_busy {s : State} {p : Nat} (len : Nat) (r : Resp) (h : s.clk.ns < (s.eport p).busy) : s.respond p len r = s.respQueued p len r := by
  have hbusy : (s.respQueued p len r).clk.ns < ((s.respQueued p len r).eport p).busy := by
    rw [eport_respQueued]
    exact h
  exact if_pos hbusy

/-- What waits at a port to which a frame was added. -/
theorem respQueued_waits (s : State) (p len : Nat) (r : Resp) : ((s.respQueued p len r).eport p).resp = (s.eport p).resp ++ [(len, r)] ∧
    ((s.respQueued p len r).eport p).busy = (s.eport p).busy ∧ ((s.respQueued p len r).eport p).due = (s.eport p).due := by
  rw [eport_respQueued]
  exact ⟨rfl, rfl, rfl⟩

theorem eth_setEth (s : State) (p : Nat) (x : EthSt) : (s.setEth p x).eth_ p = x := Tab.get_put_same _ _ p x

theorem Frame.eth_eq {regs fns : List Nat} {parts : List Part} {s t : State} (h : Frame regs fns parts s t) (hp : .eth ∉ parts) (p : Nat) : t.eth_ p = s.eth_ p := by
  have heth : t.eth = s.eth := h.part hp
  rw [State.eth_, State.eth_, heth]

/-! ## The receive half of a port -/

theorem frame_rxUpdate (s : State) (p : Nat) : Frame [R.ETH_PORT_STATUS p] [] [] s (s.rxUpdate p) := frame_setF s (F.ETH_PORT_STATUS_RX_UP p) _

/-- RX_UP apart, the receive half leaves ETH_PORT_p_STATUS. -/
theorem on_rxUpdate (s : State) (p : Nat) {j : Nat} (h1 : 1 ≠ j) (h32 : j < 32) : (s.rxUpdate p).on ⟨R.ETH_PORT_STATUS p, j, j⟩ = s.on ⟨R.ETH_PORT_STATUS p, j, j⟩ := by
  have hbits := f_setF_bits s (x := F.ETH_PORT_STATUS_RX_UP p) (y := ⟨R.ETH_PORT_STATUS p, j, j⟩)
    (if s.f (F.LNE_EPORT_STATUS_STATE p) = 4 ∧ s.on (F.ETH_PORT_STATUS_LOCAL_FAULT p) = false ∧ s.on (F.ETH_PORT_STATUS_REMOTE_FAULT p) = false then 1 else 0)
    rfl (le_refl 1) h32 (by show 1 < j ∨ j < 1; omega)
  rw [State.on, State.on, ← hbits]
  rfl

theorem rxUp_rxUpdate (s : State) (p : Nat) : (s.rxUpdate p).rxUp p =
    (s.f (F.LNE_EPORT_STATUS_STATE p) == 4 && !s.on (F.ETH_PORT_STATUS_REMOTE_FAULT p) && !s.on (F.ETH_PORT_STATUS_LOCAL_FAULT p)) := by
  have hset (v : Nat) : (s.setF (F.ETH_PORT_STATUS_RX_UP p) v).f (F.ETH_PORT_STATUS_RX_UP p) = v % 2 := f_setF_same s _ v (by decide : 1 < 32)
  rw [State.rxUp, State.on, State.rxUpdate, hset]
  by_cases h4 : s.f (F.LNE_EPORT_STATUS_STATE p) = 4
  · cases s.on (F.ETH_PORT_STATUS_REMOTE_FAULT p) <;> cases s.on (F.ETH_PORT_STATUS_LOCAL_FAULT p) <;> simp [h4]
  · simp [h4]

end Sys2Proof.Machine
end

section
/-!
PROOFS. Ethernet frames, the responders and the faults of a port (R284, R285, R287).
-/

namespace Sys2Proof.Machine

/-- A request that a port answers while it is busy. -/
theorem respQueued_completes {i : Instr} {s : State} {op : State → State} {p : Nat} (len : Nat) (r : Resp) (hx : exec i s = s.run op)
    (hop : op s.begin = s.begin.respond p len r) (hbusy : s.clk.ns < (s.eport p).busy) :
    Completes i s fun t => (t.eport p).resp = (s.eport p).resp ++ [(len, r)] ∧ (t.eport p).busy = (s.eport p).busy ∧ (t.eport p).due = (s.eport p).due ∧
      Keeps [] [] [.egs] s t :=
  completes_of_frame hx (hop.trans (respond_busy (s := s.begin) len r hbusy)) (frame_respQueued s.begin p len r) (.inl rfl) fun hkeeps => by
    obtain ⟨hresp, hbusy', hdue⟩ := respQueued_waits s.begin p len r
    exact ⟨hresp, hbusy', hdue, hkeeps⟩

/-! ## Echo requests -/

/-- An echo request counted within the rate of its port. -/
def State.echoCounted (s : State) (p : Nat) : State := s.setEth p { s.eth_ p with echoCnt := (s.eth_ p).echoCnt + 1 }

theorem frame_echoCounted (s : State) (p : Nat) : Frame [] [] [.eth] s (s.echoCounted p) := frame_setEth s p _

theorem echoRequest_answered {s : State} {p a n : Nat} {v6 : Bool} (v x : Nat) (hup : s.rxUp p = true) (hon : s.on (F.ETH_PORT_CTL_ICMP_EN p) = true)
    (hown : s.ownAddr p v6 a = true) (hn : n ≤ 1500) (hnow : s.clk.ns < (s.eth_ p).echoNs + 1000000000)
    (hrate : (s.eth_ p).echoCnt < s.f F.ETH_IGMP_ICMP_RATE) :
    s.echoRequest p v v6 a x n = (s.echoCounted p).respond p (max 64 (n + 18) + tagLen v) (.echoReply v x n) := by
  simp only [State.echoRequest, hup, hon, hown, Bool.not_true, Bool.or_self, Bool.false_eq_true, if_false, if_neg (Nat.not_lt.mpr hn), if_neg (Nat.not_le.mpr hnow),
    if_pos hrate]
  rfl

theorem echo_completes {s : State} {p a n : Nat} {v6 : Bool} (v x : Nat) (hp : p < 8) (hup : s.rxUp p = true) (hon : s.on (F.ETH_PORT_CTL_ICMP_EN p) = true)
    (hown : s.ownAddr p v6 a = true) (hn : n ≤ 1500) (hnow : s.clk.ns < (s.eth_ p).echoNs + 1000000000)
    (hrate : (s.eth_ p).echoCnt < s.f F.ETH_IGMP_ICMP_RATE) (hbusy : s.clk.ns < (s.eport p).busy) :
    Completes (.echoRequest p v v6 a x n) s fun t => (t.eport p).resp = (s.eport p).resp ++ [(max 64 (n + 18) + tagLen v, .echoReply v x n)] ∧
      (t.eport p).busy = (s.eport p).busy ∧ (t.eport p).due = (s.eport p).due ∧ t.eth_ p = { s.eth_ p with echoCnt := (s.eth_ p).echoCnt + 1 } ∧
      Keeps [] [] [.egs, .eth] s t := by
  have hcounted := frame_echoCounted s.begin p
  have hport : (s.begin.echoCounted p).eport p = s.eport p := hcounted.eport_eq (by simp) p
  have hbusy' : (s.begin.echoCounted p).clk.ns < ((s.begin.echoCounted p).eport p).busy := by
    rw [hport]
    exact hbusy
  have hop : s.begin.idx p 10 (fun s => s.echoIn p v v6 a x n) =
      (s.begin.echoCounted p).respQueued p (max 64 (n + 18) + tagLen v) (.echoReply v x n) := by
    rw [idx_of_lt (by omega), State.echoIn, if_pos hp, echoRequest_answered (s := s.begin) v x hup hon hown hn hnow hrate, respond_busy _ _ hbusy']
  have heth : (s.begin.echoCounted p).eth_ p = { s.eth_ p with echoCnt := (s.eth_ p).echoCnt + 1 } := eth_setEth _ _ _
  have hev : (s.begin.echoCounted p).evNow = [] := rfl
  generalize s.begin.echoCounted p = u at hcounted hport hbusy' hop heth hev
  have hqueued := frame_respQueued u p (max 64 (n + 18) + tagLen v) (.echoReply v x n)
  obtain ⟨hresp, hsame, hdue⟩ := respQueued_waits u p (max 64 (n + 18) + tagLen v) (.echoReply v x n)
  rw [hport] at hresp hsame hdue
  exact completes_of_frame (op := (·.idx p 10 fun s => s.echoIn p v v6 a x n)) rfl hop ((hcounted.trans hqueued).mono (by simp) (by simp) (by simp)) (.inl hev)
    fun hkeeps => ⟨hresp, hsame, hdue, (hqueued.eth_eq (by simp) p).trans heth, hkeeps⟩

/-! ## Faults of a port -/

/-- A fault, bit `j` of ETH_PORT_p_STATUS, begins or ends. -/
def State.faultShown (s : State) (p j : Nat) (x : Bool) : State :=
  ((s.setF ⟨R.ETH_PORT_STATUS p, j, j⟩ (if x then 1 else 0)).setF F.ETH_FLAGS_FAULT 1).raise 0x0F02 p

theorem frame_faultShown (s : State) (p j : Nat) (x : Bool) : Frame [R.ETH_PORT_STATUS p, R.ETH_FLAGS] [] [] s (s.faultShown p j x) :=
  (frame_setF s ⟨R.ETH_PORT_STATUS p, j, j⟩ _).trans ((frame_setF _ F.ETH_FLAGS_FAULT 1).trans (frame_raise _ _ _))

theorem portStatus_ne_ethFlags (p : Nat) : R.ETH_PORT_STATUS p ≠ R.ETH_FLAGS := by
  simp only [R.ETH_PORT_STATUS, R.ETH_FLAGS]
  omega

theorem on_faultShown_same (s : State) (p : Nat) {j : Nat} (x : Bool) (h32 : j < 32) : (s.faultShown p j x).on ⟨R.ETH_PORT_STATUS p, j, j⟩ = x := by
  rw [State.faultShown, on_raise, on_setF_addr _ (x := F.ETH_FLAGS_FAULT) _ (portStatus_ne_ethFlags p), State.on, f_setF_same _ _ _ h32, Nat.add_sub_cancel_left]
  cases x <;> rfl

theorem on_faultShown_ne (s : State) (p : Nat) {i j : Nat} (x : Bool) (hij : i ≠ j) (h32 : j < 32) :
    (s.faultShown p i x).on ⟨R.ETH_PORT_STATUS p, j, j⟩ = s.on ⟨R.ETH_PORT_STATUS p, j, j⟩ := by
  rw [State.faultShown, on_raise, on_setF_addr _ (x := F.ETH_FLAGS_FAULT) _ (portStatus_ne_ethFlags p), State.on, State.on,
    f_setF_bits s (x := ⟨R.ETH_PORT_STATUS p, i, i⟩) (y := ⟨R.ETH_PORT_STATUS p, j, j⟩) _ rfl (le_refl _) h32 (by show i < j ∨ j < i; omega)]

theorem on_faultShown_flag (s : State) (p j : Nat) (x : Bool) : (s.faultShown p j x).on F.ETH_FLAGS_FAULT = true := by
  rw [State.faultShown, on_raise, on_setF_same _ _ (by decide) rfl]

/-- A fault that changes, seen at bit 2 or 3 of the port's status. -/
theorem fault_completes {s : State} {p j : Nat} {r x : Bool} (hp : p < 8) (hj : 2 ≤ j ∧ j ≤ 3)
    (hop : s.begin.ethFault p r x = (s.begin.faultShown p j x).rxUpdate p) :
    Completes (.ethFault p r x) s fun t => t.on ⟨R.ETH_PORT_STATUS p, j, j⟩ = x ∧ t.on (F.ETH_PORT_STATUS_TX_READY p) = s.on (F.ETH_PORT_STATUS_TX_READY p) ∧
      t.rxUp p = (s.f (F.LNE_EPORT_STATUS_STATE p) == 4 && !t.on (F.ETH_PORT_STATUS_REMOTE_FAULT p) && !t.on (F.ETH_PORT_STATUS_LOCAL_FAULT p)) ∧
      t.on F.ETH_FLAGS_FAULT = true ∧ Logged [⟨0x0F02, p⟩] s t ∧ Keeps [R.ETH_PORT_STATUS p, R.ETH_FLAGS] [] [.log] s t := by
  have hop' : s.begin.idx p 8 (fun s => s.ethFault p r x) = (s.begin.faultShown p j x).rxUpdate p := (idx_of_lt hp).trans hop
  have hshown := frame_faultShown s.begin p j x
  have hsame := on_faultShown_same s.begin p x (show j < 32 by omega)
  have htx := on_faultShown_ne s.begin p (i := j) (j := 0) x (by omega) (by decide)
  have hflag := on_faultShown_flag s.begin p j x
  have hev : (s.begin.faultShown p j x).evNow = [⟨0x0F02, p⟩] := rfl
  have hlog : (s.begin.faultShown p j x).log = s.log := rfl
  generalize s.begin.faultShown p j x = u at hop' hshown hsame htx hflag hev hlog
  have hrx := frame_rxUpdate u p
  have hup := rxUp_rxUpdate u p
  rw [← on_rxUpdate u p (j := 3) (by decide) (by decide), ← on_rxUpdate u p (j := 2) (by decide) (by decide),
    hshown.f_eq (y := F.LNE_EPORT_STATUS_STATE p) (by simp only [R.LNE_EPORT_STATUS, R.ETH_PORT_STATUS, R.ETH_FLAGS]; simp; omega)] at hup
  refine completes_of_frame (op := (·.idx p 8 fun s => s.ethFault p r x)) rfl hop' ((hshown.trans hrx).mono (by simp) (by simp) (by simp)) (.inr (by simp))
    fun hkeeps => ⟨?_, ?_, hup, ?_, ?_, hkeeps⟩
  · rw [on_finish, on_rxUpdate u p (by omega) (by omega), hsame]
  · rw [on_finish, on_rxUpdate u p (by decide) (by decide), htx]
    rfl
  · rw [on_finish, hrx.on_eq (by simpa using (portStatus_ne_ethFlags p).symm), hflag]
  · refine finish_logged (evs := [⟨0x0F02, p⟩]) ?_ ?_ (by simp) (by simp; omega)
    · rw [State.rxUpdate, setF_evNow, hev]
      rfl
    · rw [State.rxUpdate, setF_log, hlog]
      exact ⟨rfl, rfl⟩

/-- Settles O33: frames that are counted, requests that are answered, and a fault of a port. -/
theorem responderCommandsComplete : Obligations.ResponderCommandsComplete := by
  unfold Obligations.ResponderCommandsComplete
  refine ⟨fun s p n v a hp hup hmin hmax hvlan hmac => ?good, fun s p n v a hp hup => ?bad, fun s p v a x hp hup hon ha hbusy => ?arp,
    fun s p v a x hp hup hon ha hbusy => ?neighbour, fun s p v a x n hp hup hon ha hn hnow hrate hbusy => ?echo4,
    fun s p v a x n hp hup hon ha hn hnow hrate hbusy => ?echo6, fun s p r x hp hx => ?fault⟩
  case good =>
    have hop : s.begin.idx p 8 (fun s => s.ethFrame p true n v a) = s.begin.bump (R.ETH_PORT_RX_FRAME_CNT p) := by
      have hup' : s.begin.rxUp p = true := hup
      have hvlan' : s.begin.vlanNamed p v = true := hvlan
      have hmac' : s.begin.macOk p a = true := hmac
      rw [idx_of_lt hp, State.ethFrame]
      simp only [hup', Bool.not_true, Bool.false_eq_true, if_false, hmin, hmax, decide_true, hvlan', hmac', Bool.and_self, if_true]
    exact completes_of_frame (op := (·.idx p 8 fun s => s.ethFrame p true n v a)) rfl hop (frame_bump _ _) (.inl rfl) fun hkeeps =>
      ⟨rdn_bump_same s.begin _, hkeeps⟩
  case bad =>
    have hop : s.begin.idx p 8 (fun s => s.ethFrame p false n v a) = s.begin.bump (R.ETH_PORT_RX_FCS_CNT p) := by
      have hup' : s.begin.rxUp p = true := hup
      rw [idx_of_lt hp, State.ethFrame]
      simp only [hup', Bool.not_true, Bool.false_eq_true, if_false, Bool.not_false, if_true]
    exact completes_of_frame (op := (·.idx p 8 fun s => s.ethFrame p false n v a)) rfl hop (frame_bump _ _) (.inl rfl) fun hkeeps =>
      ⟨rdn_bump_same s.begin _, hkeeps⟩
  case arp =>
    refine respQueued_completes (op := (·.idx p 10 fun s => s.arpIn p v a x)) _ _ rfl ?_ hbusy
    have hup' : s.begin.rxUp p = true := hup
    have hon' : s.begin.on (F.ETH_PORT_CTL_ARP_EN p) = true := hon
    have ha' : (a != s.begin.rdn (R.ETH_PORT_IPV4 p)) = false := bne_eq_false_iff_eq.mpr ha
    rw [idx_of_lt (by omega), State.arpIn, if_pos hp, State.arpRequest, hup', hon', ha']
    rfl
  case neighbour =>
    refine respQueued_completes (op := (·.idx p 10 fun s => s.solicitIn p v a x)) _ _ rfl ?_ hbusy
    have hup' : s.begin.rxUp p = true := hup
    have hon' : s.begin.on (F.ETH_PORT_CTL_ND_EN p) = true := hon
    have ha' : (a == s.begin.portV6 p false || a == s.begin.portV6 p true) = true := by
      rw [Bool.or_eq_true, beq_iff_eq, beq_iff_eq]
      exact ha
    rw [idx_of_lt (by omega), State.solicitIn, if_pos hp, State.neighbourSol, hup', hon', ha']
    rfl
  case echo4 => exact echo_completes v x hp hup hon (beq_iff_eq.mpr ha) hn hnow hrate hbusy
  case echo6 =>
    have hown : s.ownAddr p true a = true := by simpa [State.ownAddr] using ha
    exact echo_completes v x hp hup hon hown hn hnow hrate hbusy
  case fault =>
    cases r with
    | false =>
      refine fault_completes (j := 2) hp (by decide) ?_
      exact if_neg (fun h : s.begin.on (F.ETH_PORT_STATUS_LOCAL_FAULT p) = x => by
        have hx' : s.begin.on (F.ETH_PORT_STATUS_LOCAL_FAULT p) = !x := hx
        rw [h] at hx'
        cases x <;> cases hx')
    | true =>
      refine fault_completes (j := 3) hp (by decide) ?_
      exact if_neg (fun h : s.begin.on (F.ETH_PORT_STATUS_REMOTE_FAULT p) = x => by
        have hx' : s.begin.on (F.ETH_PORT_STATUS_REMOTE_FAULT p) = !x := hx
        rw [h] at hx'
        cases x <;> cases hx')

end Sys2Proof.Machine
end

section
/-!
PROOFS. Multicast joins: queries, responses, reports and older queriers (R286).
-/

namespace Sys2Proof.Machine

/-! ## The joined groups -/

section
variable {regs fns : List Nat} {parts : List Part} {s t : State}

theorem Frame.flowJoin_eq (h : Frame regs fns parts s t) (hp : .ing ∉ parts) (f : Nat) : t.flowJoin f = s.flowJoin f := by
  have hw : t.ftw f = s.ftw f := funext fun w => h.ftw_eq hp f w
  rw [State.flowJoin, State.flowJoin, hw]

theorem Frame.domJoins_eq (h : Frame regs fns parts s t) {x : Nat} (hx : R.PTP_X_CTL x ∉ regs) : t.domJoins x = s.domJoins x := by
  simp only [State.domJoins, h.f_eq (y := F.PTP_X_CTL_VLAN x) hx, h.f_eq (y := F.PTP_X_CTL_DELAY x) hx, h.f_eq (y := F.PTP_X_CTL_TRANSPORT x) hx]

/-- What is asked of a port depends on the flows and on the control registers of the two domains. -/
theorem Frame.portJoins_eq (h : Frame regs fns parts s t) (hp : .ing ∉ parts) (hx : ∀ x, x < 2 → R.PTP_X_CTL x ∉ regs) (p : Nat) : t.portJoins p = s.portJoins p := by
  have hing : t.ing = s.ing := h.part hp
  have hflows : t.ingFlows = s.ingFlows := by rw [State.ingFlows, State.ingFlows, hing]
  have hjoin : t.flowJoin = s.flowJoin := funext fun f => h.flowJoin_eq hp f
  have hw (f : Nat) : t.ftw f 0 = s.ftw f 0 := h.ftw_eq hp f 0
  have hdoms : (List.range 2).filter (fun x => t.on (F.PTP_X_CTL_EN x) && t.f (F.PTP_X_CTL_PORT x) == p) =
      (List.range 2).filter (fun x => s.on (F.PTP_X_CTL_EN x) && s.f (F.PTP_X_CTL_PORT x) == p) := by
    refine List.filter_congr fun x hmem => ?_
    have hlt := hx x (List.mem_range.mp hmem)
    rw [h.on_eq (y := F.PTP_X_CTL_EN x) hlt, h.f_eq (y := F.PTP_X_CTL_PORT x) hlt]
  simp only [State.portJoins, hflows, hjoin, hw, hdoms]
  congr 1
  refine List.flatMap_congr fun x hmem => ?_
  exact h.domJoins_eq (hx x (List.mem_range.mp (List.mem_of_mem_filter hmem)))

end

/-- Where nothing is asked of a port it joins nothing. -/
theorem groupsOf_of_no_joins {s : State} {p : Nat} (h : s.portJoins p = []) : s.groupsOf p = [] := by
  rw [State.groupsOf, h]
  rfl

/-- A port that joins nothing joins nothing whatever its querier, while the same is asked of it. -/
theorem groupsOf_nil_of_joins {s t : State} {p : Nat} (h : t.portJoins p = s.portJoins p) (hnil : s.groupsOf p = []) : t.groupsOf p = [] := by
  rw [State.groupsOf] at hnil ⊢
  rw [h, List.map_eq_nil_iff.mp hnil]
  rfl

/-- Without an older querier, the joined groups are those asked for. -/
theorem groupsOf_of_no_querier {s t : State} {p : Nat} (h : t.portJoins p = s.portJoins p) (hs : (s.eth_ p).old4 = none ∧ (s.eth_ p).old6 = none)
    (ht : (t.eth_ p).old4 = none ∧ (t.eth_ p).old6 = none) : t.groupsOf p = s.groupsOf p := by
  have hold {x : EthSt} (hx : x.old4 = none ∧ x.old6 = none) (v6 : Bool) (ns : Nat) : x.old v6 ns = false := by
    obtain ⟨h4, h6⟩ := hx
    cases v6 <;> simp [EthSt.old, h4, h6]
  rw [State.groupsOf, State.groupsOf, h]
  simp only [hold hs, hold ht]

theorem joinUpdate_same {s : State} {p : Nat} (h : s.groupsOf p = (s.eth_ p).groups) : s.joinUpdate p = s := if_pos h

/-! ## MEMBERSHIP_QUERY -/

/-- A response is due within `ms` milliseconds. -/
def State.answerDue (s : State) (p ms : Nat) (gs : List Group) : State :=
  s.free.2.setEth p { s.eth_ p with resps := (s.eth_ p).resps ++ [(s.clk.ns + s.free.1 % (ms * 1000000 + 1), gs)] }

theorem frame_answerDue (s : State) (p ms : Nat) (gs : List Group) : Frame [] [] [.fctr, .eth] s (s.answerDue p ms gs) := (frame_free s).trans (frame_setEth _ p _)

theorem eth_answerDue (s : State) (p ms : Nat) (gs : List Group) : (s.answerDue p ms gs).eth_ p =
    { s.eth_ p with resps := (s.eth_ p).resps ++ [(s.clk.ns + s.free.1 % (ms * 1000000 + 1), gs)] } := eth_setEth _ p _

theorem membershipQuery_answered {s : State} {p : Nat} {w : Bool} {d : Option Nat} {v x : Nat} {g : Group} {gs : List Group} (y : Nat) (hup : s.rxUp p = true)
    (hon : s.mcastOn p w = true) (hjoined : s.groupsOf p = (s.eth_ p).groups)
    (hasked : (s.eth_ p).groups.filter (fun h => h.vlan == v && h.ipv6 == w && (match d with | some a => h.addr == a | none => true)) = g :: gs) :
    s.membershipQuery p v w false d x y = s.answerDue p x (g :: gs) := by
  have hne : ¬ (g :: gs : List Group) = [] := List.cons_ne_nil _ _
  simp only [State.membershipQuery, hup, hon, Bool.not_true, Bool.or_self, Bool.not_false, Bool.false_eq_true, if_false, if_true, joinUpdate_same hjoined]
  exact (congrArg (fun l : List Group => if l = [] then s else
    s.free.2.setEth p { s.eth_ p with resps := (s.eth_ p).resps ++ [(s.clk.ns + s.free.1 % (x * 1000000 + 1), l)] }) hasked).trans (if_neg hne)

/-- An older-version querier of IPv4 is in force until `till`. -/
def State.olderHeard (s : State) (p till : Nat) : State := ((s.setEth p { s.eth_ p with old4 := some till }).setF F.ETH_FLAGS_OLD_QUERIER 1).raise 0x0F03 p

theorem frame_olderHeard (s : State) (p till : Nat) : Frame [R.ETH_FLAGS] [] [.eth] s (s.olderHeard p till) :=
  (frame_setEth s p _).trans ((frame_setF _ F.ETH_FLAGS_OLD_QUERIER 1).trans (frame_raise _ _ _))

theorem membershipQuery_older {s : State} {p : Nat} (v x y : Nat) (d : Option Nat) (hup : s.rxUp p = true) (hon : s.mcastOn p false = true)
    (hjoined : s.groupsOf p = []) (hnone : (s.eth_ p).groups = []) :
    s.membershipQuery p v false true d x y = s.olderHeard p (s.clk.ns + y * 1000000) := by
  have heth : (s.olderHeard p (s.clk.ns + y * 1000000)).eth_ p = { s.eth_ p with old4 := some (s.clk.ns + y * 1000000) } := eth_setEth _ _ _
  have hgroups : ((s.olderHeard p (s.clk.ns + y * 1000000)).eth_ p).groups = [] := by
    rw [heth]
    exact hnone
  have hjoins := (frame_olderHeard s p (s.clk.ns + y * 1000000)).portJoins_eq (by simp) (by decide) p
  have hsame : (s.olderHeard p (s.clk.ns + y * 1000000)).joinUpdate p = s.olderHeard p (s.clk.ns + y * 1000000) :=
    joinUpdate_same ((groupsOf_nil_of_joins hjoins hjoined).trans hgroups.symm)
  have hshape : s.membershipQuery p v false true d x y = (fun t : State =>
      if ((t.eth_ p).groups.filter (fun g => g.vlan == v && g.ipv6 == false && (match d with | some a => g.addr == a | none => true))) = [] then t
      else t.answerDue p x ((t.eth_ p).groups.filter (fun g => g.vlan == v && g.ipv6 == false && (match d with | some a => g.addr == a | none => true))))
        ((s.olderHeard p (s.clk.ns + y * 1000000)).joinUpdate p) := by
    rw [State.membershipQuery, hup, hon]
    rfl
  rw [hshape, hsame]
  exact if_pos (by rw [hgroups]; rfl)

/-! ## Reports -/

/-- A report of one group, at a busy port with no older querier. -/
theorem sendReport_single {s : State} {p : Nat} {g : Group} (hon : s.mcastOn p g.ipv6 = true) (hbusy : s.clk.ns < (s.eport p).busy)
    (h4 : (s.eth_ p).old4 = none) (h6 : (s.eth_ p).old6 = none) :
    s.sendReport p [g] = s.respQueued p (64 + tagLen g.vlan) (.membershipReport g.vlan g.ipv6 false [g]) := by
  have hold : (s.eth_ p).old g.ipv6 s.clk.ns = false := by
    cases g.ipv6 <;> simp [EthSt.old, h4, h6]
  have hkeys : ([g].map (fun h => (h.vlan, h.ipv6))).dedup = [(g.vlan, g.ipv6)] := rfl
  have hsame : [g].filter (fun h => h.vlan == g.vlan && h.ipv6 == g.ipv6) = [g] := by
    simp
  rw [State.sendReport, hkeys, List.foldl_cons, List.foldl_nil]
  simp only [hon, Bool.not_true, Bool.false_eq_true, if_false, hold, hsame]
  exact respond_busy _ _ hbusy

/-- The port's multicast state after the clock has run to `a`. -/
def State.reportFrom (s : State) (p a : Nat) (x : Nat → EthSt) : State := (s.toNs a).setEth p (x (s.toNs a).clk.ns)

theorem frame_reportFrom (s : State) (p a : Nat) (x : Nat → EthSt) : Frame [] [] [.clk, .eth] s (s.reportFrom p a x) :=
  ((frame_toNs s a).trans (frame_setEth _ p _)).mono (by simp) (by simp) (by simp)

theorem eth_reportFrom (s : State) (p a : Nat) (x : Nat → EthSt) : (s.reportFrom p a x).eth_ p = x (s.toNs a).clk.ns := eth_setEth _ p _

theorem ns_reportFrom (s : State) (p a : Nat) (x : Nat → EthSt) : (s.reportFrom p a x).clk.ns = max s.clk.ns a := toNs_ns s a

/-- A command that runs to a time `a` and sends the report of one group. -/
theorem report_completes {i : Instr} {s : State} {op : State → State} {p a : Nat} {g : Group} {x : Nat → EthSt} (hx : exec i s = s.run op)
    (hop : op s.begin = (s.begin.reportFrom p a x).sendReport p [g]) (hon : s.mcastOn p g.ipv6 = true) (hbusy : max s.clk.ns a + 4 ≤ (s.eport p).busy)
    (hold : ∀ ns, (x ns).old4 = none ∧ (x ns).old6 = none) :
    Completes i s fun t => t.eth_ p = x t.clk.ns ∧ a ≤ t.clk.ns ∧
      (t.eport p).resp = (s.eport p).resp ++ [(64 + tagLen g.vlan, .membershipReport g.vlan g.ipv6 false [g])] ∧ Keeps [] [] [.eth, .egs, .clk] s t := by
  have hfrom := frame_reportFrom s.begin p a x
  have hport : (s.begin.reportFrom p a x).eport p = s.eport p := hfrom.eport_eq (by simp) p
  have heth : (s.begin.reportFrom p a x).eth_ p = x (s.begin.reportFrom p a x).clk.ns := eth_reportFrom s.begin p a x
  have hns : (s.begin.reportFrom p a x).clk.ns = max s.clk.ns a := ns_reportFrom s.begin p a x
  have hev : (s.begin.reportFrom p a x).evNow = [] := rfl
  have hon' : (s.begin.reportFrom p a x).mcastOn p g.ipv6 = true := hon
  generalize s.begin.reportFrom p a x = u at hop hfrom hport heth hns hev hon'
  have hbusy' : u.clk.ns < (u.eport p).busy := by
    rw [hport, hns]
    omega
  obtain ⟨h4, h6⟩ := hold u.clk.ns
  rw [sendReport_single hon' hbusy' (by rw [heth]; exact h4) (by rw [heth]; exact h6)] at hop
  have hqueued := frame_respQueued u p (64 + tagLen g.vlan) (.membershipReport g.vlan g.ipv6 false [g])
  obtain ⟨hresp, -, -⟩ := respQueued_waits u p (64 + tagLen g.vlan) (.membershipReport g.vlan g.ipv6 false [g])
  rw [hport] at hresp
  refine completes_of_frame hx hop ((hfrom.trans hqueued).mono (by simp) (by simp) (by simp)) (.inl hev)
    fun hkeeps => ⟨(hqueued.eth_eq (by simp) p).trans heth, ?_, hresp, hkeeps⟩
  have hclk : a ≤ u.clk.ns := by
    rw [hns]
    exact le_max_right _ _
  exact hclk

/-- Settles O34: queries, the reports that answer them or follow a change, and the end of an older querier. -/
theorem multicastCommandsComplete : Obligations.MulticastCommandsComplete := by
  unfold Obligations.MulticastCommandsComplete
  refine ⟨fun s p v x y w d g gs hp hup hon hjoined hasked => ?query, fun s p v x y d hp hup hon hjoined hnone => ?older,
    fun s p a g hp hresps hon hstill hbusy h4 h6 => ?response, fun s p g hp hreports hgroups hon hbusy h4 h6 => ?report,
    fun s p a hp h4 h6 hjoins hgroups => ?timeout⟩
  case query =>
    have hop : s.begin.idx p 8 (fun s => s.membershipQuery p v w false d x y) = s.begin.answerDue p x (g :: gs) :=
      (idx_of_lt hp).trans (membershipQuery_answered (s := s.begin) y hup hon hjoined hasked)
    have heth := eth_answerDue s.begin p x (g :: gs)
    have hframe := frame_answerDue s.begin p x (g :: gs)
    have hev : (s.begin.answerDue p x (g :: gs)).evNow = [] := rfl
    generalize s.begin.answerDue p x (g :: gs) = u at hop heth hframe hev
    have hresps : (u.eth_ p).resps = (s.eth_ p).resps ++ [(s.clk.ns + s.begin.free.1 % (x * 1000000 + 1), g :: gs)] := by
      rw [heth]
      rfl
    have hdue : s.begin.free.1 % (x * 1000000 + 1) ≤ x * 1000000 := Nat.le_of_lt_succ (Nat.mod_lt _ (Nat.succ_pos _))
    generalize s.begin.free.1 % (x * 1000000 + 1) = delay at hresps hdue
    refine completes_of_frame (op := (·.idx p 8 fun s => s.membershipQuery p v w false d x y)) rfl hop (hframe.mono (by simp) (by simp) (by simp)) (.inl hev)
      fun hkeeps => ⟨?_, ?_, ?_, hkeeps⟩
    · have hmap := congrArg (List.map Prod.snd) hresps
      rwa [List.map_append] at hmap
    · have hlast := congrArg List.getLast? hresps
      rw [List.getLast?_append, List.getLast?_singleton, Option.some_or] at hlast
      refine (congrArg (Option.map _) hlast).trans ?_
      simp only [Option.map_some, Nat.le_add_right, decide_true, Nat.add_le_add_iff_left, hdue, Bool.and_self]
    · have hsame : (u.eth_ p).groups = (s.eth_ p).groups := by
        rw [heth]
        rfl
      exact hsame
  case older =>
    have hop : s.begin.idx p 8 (fun s => s.membershipQuery p v false true d x y) = s.begin.olderHeard p (s.clk.ns + y * 1000000) :=
      (idx_of_lt hp).trans (membershipQuery_older (s := s.begin) v x y d hup hon (hjoined.trans hnone) hnone)
    refine completes_of_frame (op := (·.idx p 8 fun s => s.membershipQuery p v false true d x y)) rfl hop ((frame_olderHeard s.begin p _).mono (by simp) (by simp) (by simp))
      (.inr (by simp)) fun hkeeps => ⟨eth_setEth _ _ _, ?_, finish_logged rfl ⟨rfl, rfl⟩ (by simp) (by simp; omega), hkeeps⟩
    rw [on_finish, State.olderHeard, on_raise, on_setF_same _ _ (by decide) rfl]
  case response =>
    have hjoins := (frame_reportFrom s.begin p a fun _ => { s.eth_ p with resps := [] }).portJoins_eq (by simp) (by simp) p
    have hgroups : (s.begin.reportFrom p a fun _ => { s.eth_ p with resps := [] }).groupsOf p = s.groupsOf p :=
      groupsOf_of_no_querier (s := s.begin) hjoins ⟨h4, h6⟩ (by rw [eth_reportFrom]; exact ⟨h4, h6⟩)
    have hop : s.begin.idx p 8 (fun s => s.queryResponse p) = (s.begin.reportFrom p a fun _ => { s.eth_ p with resps := [] }).sendReport p [g] := by
      have herase : [(a, [g])].erase (a, [g]) = [] := List.erase_cons_head _ _
      have hkept : [g].filter (fun g => ((s.begin.reportFrom p a fun _ => { s.eth_ p with resps := [] }).groupsOf p).any
          (fun h => h.vlan == g.vlan && h.ipv6 == g.ipv6 && h.addr == g.addr)) = [g] := by
        rw [hgroups]
        exact List.filter_cons_of_pos hstill
      rw [idx_of_lt hp, State.queryResponse]
      simp only [show (s.begin.eth_ p).resps = [(a, [g])] from hresps, List.foldl_nil, herase]
      exact congrArg (State.sendReport _ p) hkept
    refine (report_completes (op := (·.idx p 8 fun s => s.queryResponse p)) rfl hop hon hbusy fun _ => ⟨h4, h6⟩).imp ?_
    rintro t ⟨heth, hclk, hresp, hkeeps⟩
    exact ⟨by rw [heth], hclk, hresp, hkeeps⟩
  case report =>
    have hop : s.begin.idx p 8 (fun s => s.stateChangeReport p) = (s.begin.reportFrom p (s.eth_ p).reportAt fun ns =>
        { s.eth_ p with reports := (s.eth_ p).reports - 1, reportAt := ns + s.f F.ETH_IGMP_URI * 100000000 }).sendReport p [g] := by
      have hsome : ¬ (s.begin.eth_ p).reports = 0 := Nat.pos_iff_ne_zero.mp hreports
      exact (idx_of_lt hp).trans ((if_neg hsome).trans (congrArg (State.sendReport _ p) hgroups))
    refine (report_completes (op := (·.idx p 8 fun s => s.stateChangeReport p)) rfl hop hon hbusy fun _ => ⟨h4, h6⟩).imp ?_
    rintro t ⟨heth, hclk, hresp, hkeeps⟩
    exact ⟨by rw [heth], hclk, by rw [heth], hresp, hkeeps⟩
  case timeout =>
    have hfrom := frame_reportFrom s.begin p a fun _ => { s.eth_ p with old4 := none, old6 := none }
    have heth := eth_reportFrom s.begin p a fun _ => { s.eth_ p with old4 := none, old6 := none }
    have hsame : (s.begin.reportFrom p a fun _ => { s.eth_ p with old4 := none, old6 := none }).joinUpdate p = s.begin.reportFrom p a fun _ => { s.eth_ p with old4 := none, old6 := none } := by
      refine joinUpdate_same ((groupsOf_of_no_joins ((hfrom.portJoins_eq (by simp) (by simp) p).trans hjoins)).trans ?_)
      rw [heth]
      exact hgroups.symm
    have hop : s.begin.idx p 8 (fun s => s.olderTimeout p) = s.begin.reportFrom p a fun _ => { s.eth_ p with old4 := none, old6 := none } := by
      rw [idx_of_lt hp, State.olderTimeout]
      simp only [show (s.begin.eth_ p).old4 = some a from h4, show (s.begin.eth_ p).old6 = none from h6]
      exact hsame
    refine completes_of_frame (op := (·.idx p 8 fun s => s.olderTimeout p)) rfl hop (hfrom.mono (by simp) (by simp) (by simp)) (.inl rfl)
      fun hkeeps => ⟨?_, le_toNs s.begin a, ?_, hkeeps⟩
    · exact (congrArg EthSt.old4 heth).trans rfl
    · exact (congrArg EthSt.resps heth).trans rfl

end Sys2Proof.Machine
end

section
/-!
PROOFS. Sightings and calibration windows (R342-R346).
-/

namespace Sys2Proof.Machine

/-! ## One Sighting -/

theorem frame_setSight (s : State) (k i : Nat) (x : Option Sight) : Frame [] [] [.cal] s (s.setSight k i x) := frame_cal s _

theorem sight_setSight_ne (s : State) {k i j : Nat} (x : Option Sight) (h : j ≠ i) : (s.setSight k i x).sight k j = s.sight k j :=
  Tab.get_put_ne _ _ _ (by omega)

theorem sightCodes_setSight (s : State) (k i : Nat) (x : Option Sight) : (s.setSight k i x).sightCodes k i = s.sightCodes k i := rfl

/-! ## Triggers (R342) -/

/-- A trigger of a lane or a sensor without a Sighting makes one pending. -/
theorem sightBegin_new {s : State} {k i : Nat} (hk : k = 0 ∨ k = 3) (h : s.sight k i = none) : s.sightBegin k i = s.setSight k i (some {}) := by
  rcases hk with rfl | rfl <;> simp [State.sightBegin, State.sightTrigger, h]

/-- CAL_CMD with RUN set reaches the trigger. -/
theorem busWrite_calRun {s : State} {k i : Nat} (hd : s.dark = false) (hk : k < 4) (hok : sightOk k i = true) (hi : i < 128) :
    s.busWrite .pcie R.CAL_CMD (BitVec.ofNat 32 (0x8000 + 4 * i + k)) 4 = s.sightBegin k i := by
  have hword : (BitVec.ofNat 32 (0x8000 + 4 * i + k)).toNat = 0x8000 + 4 * i + k := by
    rw [BitVec.toNat_ofNat, Nat.mod_eq_of_lt (by omega)]
  have hbits (y : FieldDef) (hy : y ∈ [⟨1, 0, .wo, false, .any⟩, ⟨8, 2, .wo, false, .any⟩, ⟨15, 15, .wo, false, .any⟩]) :
      bitsOf (BitVec.ofNat 32 (mergeWord true [⟨1, 0, .wo, false, .any⟩, ⟨8, 2, .wo, false, .any⟩, ⟨15, 15, .wo, false, .any⟩]
        (s.oldWord .pcie R.CAL_CMD) (BitVec.ofNat 32 (0x8000 + 4 * i + k)).toNat)).toNat y.hi y.lo = bitsOf (0x8000 + 4 * i + k) y.hi y.lo := by
    have hwo : y.acc = .wo := by
      simp only [List.mem_cons, List.not_mem_nil, or_false] at hy
      rcases hy with rfl | rfl | rfl <;> rfl
    rw [bitsOf_mergeWord32 true _ _ (by decide) y hy, hword]
    simp only [fieldNew, hwo, if_true]
  have hkind := hbits ⟨1, 0, .wo, false, .any⟩ (by simp)
  have hinst := hbits ⟨8, 2, .wo, false, .any⟩ (by simp)
  have hrun := hbits ⟨15, 15, .wo, false, .any⟩ (by simp)
  rw [show bitsOf (0x8000 + 4 * i + k) 1 0 = k by simp only [bitsOf]; omega] at hkind
  rw [show bitsOf (0x8000 + 4 * i + k) 8 2 = i by simp only [bitsOf]; omega] at hinst
  rw [show bitsOf (0x8000 + 4 * i + k) 15 15 = 1 by simp only [bitsOf]; omega] at hrun
  rw [busWrite_reg _ (by decide) hd (by decide) (by decide)]
  refine regWrite_unit (d := ⟨1376280, [], 0, false, [⟨1, 0, .wo, false, .any⟩, ⟨8, 2, .wo, false, .any⟩, ⟨15, 15, .wo, false, .any⟩]⟩) rfl rfl (fieldsOk_any rfl _ _)
    (by decide) (by decide) ?_
  refine (congrArg some ?_ : some (s.calCmd _) = _)
  simp only [State.calCmd, hkind, hinst, hrun, hok, Bool.not_true, Bool.false_eq_true, if_false, if_true]

/-! ## Windows (R343) -/

/-- The window of a frame is open from `v` on. -/
def State.winOpened (s : State) (v : Nat) : State := { s with cal := { s.cal with winAt := some v } }.setF F.CAL_STATUS_WINDOW 1

theorem frame_winOpened (s : State) (v : Nat) : Frame [R.CAL_STATUS] [] [.cal] s (s.winOpened v) := (frame_cal s _).trans (frame_setF _ F.CAL_STATUS_WINDOW 1)

/-- A fold of which one step alone does anything. -/
theorem foldl_eq_of_only {α β : Type} {f : α → β → α} {l : List β} {b : β} {s t : α} (hmem : b ∈ l) (hnodup : l.Nodup) (hrun : f s b = t)
    (hs : ∀ x ∈ l, x ≠ b → f s x = s) (ht : ∀ x ∈ l, x ≠ b → f t x = t) : l.foldl f s = t := by
  have hrest (r : List β) (hr : ∀ x ∈ r, f t x = t) : r.foldl f t = t := by
    induction r with
    | nil => rfl
    | cons x r ih =>
      rw [List.foldl_cons, hr x List.mem_cons_self]
      exact ih fun y hy => hr y (List.mem_cons_of_mem x hy)
  induction l with
  | nil => cases hmem
  | cons x r ih =>
    obtain ⟨hx, hr⟩ := List.nodup_cons.mp hnodup
    rw [List.foldl_cons]
    by_cases hxb : x = b
    · rw [hxb, hrun]
      exact hrest r fun y hy => ht y (List.mem_cons_of_mem x hy) fun hyb => hx (hxb ▸ hyb ▸ hy)
    · rw [hs x List.mem_cons_self hxb]
      exact ih ((List.mem_cons.mp hmem).resolve_left (Ne.symm hxb)) hr (fun y hy => hs y (List.mem_cons_of_mem x hy))
        (fun y hy => ht y (List.mem_cons_of_mem x hy))

/-- The pseudo channels of a stack. -/
def stackGs (st : Nat) : List Nat := (List.range 32).map (fun p => 32 * st + p)

theorem mem_stackGs {st g : Nat} : g ∈ stackGs st ↔ g / 32 = st := by
  simp only [stackGs, List.mem_map, List.mem_range]
  constructor
  · rintro ⟨p, hp, rfl⟩
    omega
  · intro h
    exact ⟨g % 32, Nat.mod_lt _ (by decide), by omega⟩

/-- One stack in an open window: its pending HBM Sighting with the lowest index runs. -/
def State.hbmSighting (t : State) (st : Nat) : State :=
  if !t.ready (fnHbm st) || (stackGs st).any (fun g => match t.sight 1 g with | some x => x.run && x.goal.isEmpty | none => false) then t
  else match (stackGs st).find? (fun g => match t.sight 1 g with | some x => x.goal.isEmpty | none => false) with
    | some g => (match t.sight 1 g with | some x => t.setSight 1 g (some { x with run := true }) | none => t)
    | none => t

theorem hbmSightings_open {s : State} (h : s.on F.CAL_STATUS_WINDOW = true) : s.hbmSightings = (List.range 4).foldl State.hbmSighting s := by
  rw [State.hbmSightings, h]
  rfl

/-- A stack without a Sighting is left as it is. -/
theorem hbmSighting_none {t : State} {st : Nat} (h : ∀ g, g / 32 = st → t.sight 1 g = none) : t.hbmSighting st = t := by
  have hfind : (stackGs st).find? (fun g => match t.sight 1 g with | some x => x.goal.isEmpty | none => false) = none := by
    refine List.find?_eq_none.mpr fun g hg => ?_
    rw [h g (mem_stackGs.mp hg)]
    decide
  rw [State.hbmSighting, hfind]
  exact ite_self t

/-- The one pending Sighting of a READY stack runs. -/
theorem hbmSighting_pending {t : State} {g : Nat} (hready : t.ready (fnHbm (g / 32)) = true) (hg : t.sight 1 g = some {})
    (honly : ∀ h, h ≠ g → t.sight 1 h = none) : t.hbmSighting (g / 32) = t.setSight 1 g (some { run := true }) := by
  have hidle : (stackGs (g / 32)).any (fun h => match t.sight 1 h with | some x => x.run && x.goal.isEmpty | none => false) = false := by
    refine List.any_eq_false.mpr fun h _ => ?_
    by_cases heq : h = g
    · rw [heq, hg]
      decide
    · rw [honly h heq]
      decide
  have hfind : (stackGs (g / 32)).find? (fun h => match t.sight 1 h with | some x => x.goal.isEmpty | none => false) = some g := by
    cases hf : (stackGs (g / 32)).find? (fun h => match t.sight 1 h with | some x => x.goal.isEmpty | none => false) with
    | none =>
      have hnot := List.find?_eq_none.mp hf g (mem_stackGs.mpr rfl)
      rw [hg] at hnot
      exact absurd rfl hnot
    | some h =>
      have hyes := List.find?_some hf
      by_cases heq : h = g
      · rw [heq]
      · rw [honly h heq] at hyes
        cases hyes
  rw [State.hbmSighting, hready, hidle, hfind]
  simp only [Bool.not_true, Bool.or_self, Bool.false_eq_true, if_false, hg]

/-- With one Sighting pending, of a READY stack, an open window runs it. -/
theorem hbmSightings_one {s : State} {g : Nat} (hopen : s.on F.CAL_STATUS_WINDOW = true) (hg : g < 128) (hready : s.ready (fnHbm (g / 32)) = true)
    (hpend : s.sight 1 g = some {}) (honly : ∀ h, h ≠ g → s.sight 1 h = none) : s.hbmSightings = s.setSight 1 g (some { run := true }) := by
  rw [hbmSightings_open hopen]
  refine foldl_eq_of_only (List.mem_range.mpr (show g / 32 < 4 by omega)) List.nodup_range (hbmSighting_pending hready hpend honly) (fun st _ hne => ?_) (fun st _ hne => ?_)
  · exact hbmSighting_none fun h hh => honly h fun he => hne (by rw [← hh, he])
  · refine hbmSighting_none fun h hh => ?_
    have hother : h ≠ g := fun he => hne (by rw [← hh, he])
    rw [sight_setSight_ne _ _ hother, honly h hother]

/-- The Sightings of a kind of which one alone waits. -/
theorem sight_of_single {s : State} {k i : Nat} {x : Sight} (h : s.cal.sights = [(256 * k + i, some x)]) :
    s.sight k i = some x ∧ ∀ j, j ≠ i → s.sight k j = none := by
  simp only [State.sight, h, Tab.get, if_true, true_and]
  exact fun j hj => if_neg (by omega)

/-- The window of a frame is closed. -/
def State.winShut (s : State) : State := { s with cal := { s.cal with winAt := none, shutNs := s.clk.ns } }.setF F.CAL_STATUS_WINDOW 0

theorem frame_winShut (s : State) : Frame [R.CAL_STATUS] [] [.cal] s s.winShut := (frame_cal s _).trans (frame_setF _ F.CAL_STATUS_WINDOW 0)

/-! ## Results (R344) -/

/-- The temperature, the counter and the event of an accepted result. -/
def State.sightNoted (s : State) (k i : Nat) (temp : Int) : State :=
  (({ s with cal := { s.cal with temps := Tab.put (fun _ => (none : Option Int)) s.cal.temps (256 * k + i) (some temp) } } : State).bump R.CAL_RUN_CNT).raise 0x1502 i

theorem frame_sightNoted (s : State) (k i : Nat) (temp : Int) : Frame [R.CAL_RUN_CNT] [] [.cal] s (s.sightNoted k i temp) :=
  (frame_cal s _).trans ((frame_bump _ _).trans (frame_raise _ _ _))

theorem temps_sightNoted (s : State) (k i : Nat) (temp : Int) :
    Tab.get (fun _ => (none : Option Int)) (s.sightNoted k i temp).cal.temps (256 * k + i) = some temp :=
  Tab.get_put_same (fun _ => (none : Option Int)) s.cal.temps (256 * k + i) (some temp)

theorem rdn_sightNoted (s : State) (k i : Nat) (temp : Int) : (s.sightNoted k i temp).rdn R.CAL_RUN_CNT = (s.rdn R.CAL_RUN_CNT + 1) % 2 ^ 32 := by
  rw [State.sightNoted, rdn_raise, rdn_bump_same]
  rfl

theorem senseReg_ne {i a : Nat} (hi : i < 72) (ha : a < 0x150400) : senseReg i ≠ a := by
  unfold senseReg
  split <;> simp only [R.CAL_PIPE_TEMP, R.CAL_SENSE] <;> omega

theorem sightCodes_sensor (s : State) (i : Nat) : s.sightCodes 3 i = [signedOf 8 (bitsOf (s.rdn (senseReg i)) 15 8)] := rfl

theorem Frame.sightCodes_eq {regs fns : List Nat} {parts : List Part} {s t : State} (h : Frame regs fns parts s t) {i : Nat} (hi : senseReg i ∉ regs) :
    t.sightCodes 3 i = s.sightCodes 3 i := by
  rw [sightCodes_sensor, sightCodes_sensor, h.rdn_eq hi]

theorem sightComplete_sensor {s : State} {i : Nat} {a b : List Int} {x : Int} {y : Sight} (hi : i < 72) (hsight : s.sight 3 i = some y) (hgoal : y.goal = [])
    (hstart : y.start = false) (ha : a.length = 1) (hb : b.length = 1) (hne : a ≠ s.sightCodes 3 i) (hpass : s.sightPasses 3 i false a b [] = true)
    (hwin : s.on F.CAL_STATUS_WINDOW = false) : s.sightComplete 3 i a b [] x = (s.sightNoted 3 i x).setSight 3 i (some { goal := a, stepNs := s.clk.ns }) := by
  obtain ⟨a₀, rfl⟩ := List.length_eq_one_iff.mp ha
  obtain ⟨b₀, rfl⟩ := List.length_eq_one_iff.mp hb
  have hok : sightOk 3 i = true := by simp [sightOk, hi]
  have hruns : s.sightRunning 3 i = some false := by
    have hrunning : s.sightRunning 3 i = match s.sight 3 i with | some y => if y.goal.isEmpty then some y.start else none | none => none := rfl
    rw [hrunning, hsight]
    simp only [hgoal, hstart, List.isEmpty_nil, if_true]
  have hframe := frame_sightNoted s 3 i x
  have hcodes : (s.sightNoted 3 i x).sightCodes 3 i = s.sightCodes 3 i := hframe.sightCodes_eq (by simpa using senseReg_ne hi (by decide))
  have haccept : s.sightAccept 3 i false [a₀] x = (s.sightNoted 3 i x).setSight 3 i (some { goal := [a₀], stepNs := s.clk.ns }) := by
    have hshape : s.sightAccept 3 i false [a₀] x = if [a₀] = (s.sightNoted 3 i x).sightCodes 3 i then (s.sightNoted 3 i x).setSight 3 i none
        else (s.sightNoted 3 i x).setSight 3 i (some { goal := [a₀], stepNs := s.clk.ns }) := rfl
    rw [hshape, hcodes, if_neg hne]
  have hshut : ((s.sightNoted 3 i x).setSight 3 i (some { goal := [a₀], stepNs := s.clk.ns })).hbmSightings =
      (s.sightNoted 3 i x).setSight 3 i (some { goal := [a₀], stepNs := s.clk.ns }) := by
    have hclosed : ((s.sightNoted 3 i x).setSight 3 i (some { goal := [a₀], stepNs := s.clk.ns })).on F.CAL_STATUS_WINDOW = false :=
      ((hframe.trans (frame_setSight _ 3 i _)).on_eq (y := F.CAL_STATUS_WINDOW) (by decide)).trans hwin
    rw [State.hbmSightings, hclosed]
    rfl
  have hshape : s.sightComplete 3 i [a₀] [b₀] [] x = if !sightOk 3 i then s else match s.sightRunning 3 i with
      | none => s
      | some start => if s.sightPasses 3 i start [a₀] [b₀] [] then (s.sightAccept 3 i start [a₀] x).hbmSightings else (s.sightReject 3 i).hbmSightings := by
    simp only [State.sightComplete, sightCodes_sensor, List.length_singleton]
    rfl
  rw [hshape, hok, hruns]
  simp only [Bool.not_true, Bool.false_eq_true, if_false, hpass, if_true, haccept, hshut]

/-! ## Steps (R345) -/

theorem signedOf_bounds (n : Nat) : -128 ≤ signedOf 8 n ∧ signedOf 8 n < 128 := by
  unfold signedOf
  split <;> omega

theorem signedByte_ofSigned {c : Int} (hlow : -128 ≤ c) (hhigh : c < 128) : signedOf 8 (ofSigned 8 c % 256) = c := by
  unfold signedOf ofSigned
  split <;> omega

/-- The code of a sensor, once set. -/
theorem sightCodes_setCodes (s : State) (i : Nat) {c : Int} (hlow : -128 ≤ c) (hhigh : c < 128) : (s.setCodes 3 i [c]).sightCodes 3 i = [c] := by
  have hword : (s.setCodes 3 i [c]).rdn (senseReg i) = setBits (s.rdn (senseReg i)) 15 8 (ofSigned 8 c) % 2 ^ 32 := rdn_wrn_same _ _ _
  rw [sightCodes_sensor, hword, bitsOf_mod _ _ _ _ (by decide), bitsOf_setBits_same]
  exact congrArg (fun v : Int => [v]) (signedByte_ofSigned hlow hhigh)

theorem frame_setCodes (s : State) (i : Nat) (c : List Int) : Frame [senseReg i] [] [] s (s.setCodes 3 i c) := frame_wrn s _ _

/-- The code moves by one toward its goal. -/
def codeStep (a g : Int) : Int := if a < g then a + 1 else a - 1

/-- What is left of a Sighting whose code moved from `a` by one toward `g`. -/
def sightLeft (y : Sight) (a g : Int) (ns : Nat) : Option Sight := if (a - g).natAbs = 1 then none else some { y with stepNs := ns }

theorem sightStep_sensor {s : State} {i : Nat} {a g : Int} {y : Sight} (hsight : s.sight 3 i = some y) (hgoal : y.goal = [g]) (hagain : y.again = false)
    (hcodes : s.sightCodes 3 i = [a]) (hne : a ≠ g) :
    s.sightStep 3 i = ((s.toNs (y.stepNs + s.f F.CAL_STEP_STEP_US * 1000)).setCodes 3 i [codeStep a g]).setSight 3 i
      (sightLeft y a g (s.toNs (y.stepNs + s.f F.CAL_STEP_STEP_US * 1000)).clk.ns) := by
  have hsome : ([g] : List Int).isEmpty = false := rfl
  have hstep : stepCodes [a] [g] = [codeStep a g] := if_neg hne
  have hcodes' : (s.toNs (y.stepNs + s.f F.CAL_STEP_STEP_US * 1000)).sightCodes 3 i = [a] := hcodes
  simp only [State.sightStep, hsight, hgoal, hsome, Bool.false_eq_true, if_false, hcodes', hstep, hagain, sightLeft]
  by_cases hlast : (a - g).natAbs = 1
  · have hgoal' : [codeStep a g] = [g] := by
      rw [codeStep]
      split <;> congr 1 <;> omega
    rw [if_pos hgoal', if_pos hlast]
  · have hmore : ¬ [codeStep a g] = [g] := by
      rw [codeStep, List.cons.injEq]
      rintro ⟨h, -⟩
      split at h <;> omega
    rw [if_neg hmore, if_neg hlast]
    rfl

/-! ## PLL Sightings (R343) -/

/-- The Sighting of core PLL `m` goes into its relock. -/
def State.pllMeasured (s : State) (m : Nat) : State :=
  ((({ s with cal := { s.cal with pllSaid := s.cal.pllSaid.filter (· != m) } } : State).setSight 2 m (some { run := true })).relockBegin m).setSight 2 m (some { run := true })

/-- The relock of core PLL `m` as the registers show it. -/
def State.relockShown (s : State) (m : Nat) : State :=
  ((s.setF (F.CKG_CPLL_STATUS_STATE m) 1).setF ⟨R.CKG_CORE_STATUS, m, m⟩ 0).setF ⟨R.CKG_CORE_STATUS, 16 + m, 16 + m⟩ 1

theorem frame_pllMeasured (s : State) (m : Nat) : Frame [] [] [.cal, .ckg] s (s.pllMeasured m) :=
  ((frame_cal s _).trans ((frame_setSight _ 2 m _).trans ((frame_ckg _ _).trans (frame_setSight _ 2 m _)))).mono (by simp) (by simp) (by simp)

theorem frame_relockShown (s : State) (m : Nat) : Frame [R.CKG_CPLL_STATUS m, R.CKG_CORE_STATUS] [] [] s (s.relockShown m) :=
  ((frame_setF s (F.CKG_CPLL_STATUS_STATE m) 1).trans ((frame_setF _ ⟨R.CKG_CORE_STATUS, m, m⟩ 0).trans (frame_setF _ ⟨R.CKG_CORE_STATUS, 16 + m, 16 + m⟩ 1))).mono
    (by simp) (by simp) (by simp)

theorem f_relockShown_state (s : State) {m : Nat} (hm : m ≤ 10) : (s.relockShown m).f (F.CKG_CPLL_STATUS_STATE m) = 1 := by
  have hne : R.CKG_CPLL_STATUS m ≠ R.CKG_CORE_STATUS := by
    simp only [R.CKG_CPLL_STATUS, R.CKG_CORE_STATUS]
    omega
  have hset : (s.setF (F.CKG_CPLL_STATUS_STATE m) 1).f (F.CKG_CPLL_STATUS_STATE m) = 1 := f_setF_same _ _ 1 (by decide : 2 < 32)
  rw [State.relockShown, f_setF_addr _ _ hne, f_setF_addr _ _ hne, hset]

theorem f_relockShown_busy (s : State) {m : Nat} (hm : m ≤ 10) : (s.relockShown m).f ⟨R.CKG_CORE_STATUS, 16 + m, 16 + m⟩ = 1 := by
  rw [State.relockShown, f_setF_same _ _ _ (by show 16 + m < 32; omega), Nat.add_sub_cancel_left]
  rfl

theorem f_relockShown_locked (s : State) {m : Nat} (hm : m ≤ 10) : (s.relockShown m).f ⟨R.CKG_CORE_STATUS, m, m⟩ = 0 := by
  have hbits := f_setF_bits ((s.setF (F.CKG_CPLL_STATUS_STATE m) 1).setF ⟨R.CKG_CORE_STATUS, m, m⟩ 0) (x := ⟨R.CKG_CORE_STATUS, 16 + m, 16 + m⟩)
    (y := ⟨R.CKG_CORE_STATUS, m, m⟩) 1 rfl (le_refl _) (by show m < 32; omega) (by show 16 + m < m ∨ m < 16 + m; omega)
  rw [State.relockShown, hbits, f_setF_same _ _ _ (by show m < 32; omega), Nat.zero_mod]

/-- A PLL without a Sighting, and without a park to end, is left as it is. -/
theorem pllStep_none {s : State} {m : Nat} (hparked : s.cal.parked = []) (h : s.sight 2 m = none) : (s.pllUnpark m).pllTry m = s := by
  have hunpark : s.pllUnpark m = s := by
    simp only [State.pllUnpark, State.unparkDue, hparked, List.contains_nil, Bool.false_and, Bool.false_eq_true, if_false]
  rw [hunpark, State.pllTry, h]

/-- A pending Sighting of a PLL above CPLL_5 that R77 accepts runs. -/
theorem pllStep_pending {s : State} {m : Nat} (hm : 6 ≤ m) (hparked : s.cal.parked = []) (h : s.sight 2 m = some {}) (hok : s.relockOk m = true) :
    (s.pllUnpark m).pllTry m = (s.pllMeasured m).relockShown m := by
  have hunpark : s.pllUnpark m = s := by
    simp only [State.pllUnpark, State.unparkDue, hparked, List.contains_nil, Bool.false_and, Bool.false_eq_true, if_false]
  have hquad : ¬ (2 ≤ m ∧ m ≤ 5) := by omega
  have hidle : (false || !([] : List Int).isEmpty) = false := rfl
  rw [hunpark]
  simp only [State.pllTry, h, hidle, Bool.false_eq_true, if_false, hok, if_true, State.startRelock, if_neg hquad, State.relockSights]
  have hbegun : ((({ s with cal := { s.cal with pllSaid := s.cal.pllSaid.filter (· != m) } } : State).setSight 2 m (some { run := true })).relockBegin m).sight 2 m =
      some { run := true } := sight_setSight_same _ 2 m _
  rw [hbegun]
  rfl

theorem pllSightings_one {s : State} {m : Nat} (hactive : s.active fnCal = true) (hlow : 6 ≤ m) (hhigh : m ≤ 10) (hsights : s.cal.sights = [(512 + m, some {})])
    (hparked : s.cal.parked = []) (hok : s.relockOk m = true) : s.pllSightings = (s.pllMeasured m).relockShown m := by
  obtain ⟨hpend, honly⟩ := sight_of_single (s := s) (k := 2) (i := m) hsights
  have hmem : m ∈ List.range 11 := List.mem_range.mpr (by omega)
  have hwaits : s.pllWaits m = true := by
    rw [State.pllWaits, hpend]
    rfl
  have hany : (List.range 11).any (fun m => (s.pllWaits m && s.relockOk m) || s.unparkDue m) = true :=
    List.any_eq_true.mpr ⟨m, hmem, by rw [hwaits, hok]; rfl⟩
  have hstep := pllStep_pending (s := s) hlow hparked hpend hok
  have hsight (x : Nat) (hx : x ≠ m) : ((s.pllMeasured m).relockShown m).sight 2 x = none := by
    have hkept : ((s.pllMeasured m).relockShown m).sight 2 x = (s.pllMeasured m).sight 2 x := rfl
    rw [hkept, State.pllMeasured, sight_setSight_ne _ _ hx]
    have hinner : (((({ s with cal := { s.cal with pllSaid := s.cal.pllSaid.filter (· != m) } } : State).setSight 2 m (some { run := true })).relockBegin m)).sight 2 x =
        (({ s with cal := { s.cal with pllSaid := s.cal.pllSaid.filter (· != m) } } : State).setSight 2 m (some { run := true })).sight 2 x := rfl
    rw [hinner, sight_setSight_ne _ _ hx]
    exact honly x hx
  simp only [State.pllSightings, hactive, Bool.not_true, Bool.false_eq_true, if_false, hany, if_true]
  exact foldl_eq_of_only hmem List.nodup_range hstep (fun x _ hx => pllStep_none hparked (honly x hx)) (fun x _ hx => pllStep_none hparked (hsight x hx))

/-- Settles O38: triggers, windows, results, steps and relocks of Sightings. -/
theorem sightingCommandsComplete : Obligations.SightingCommandsComplete := by
  unfold Obligations.SightingCommandsComplete
  refine ⟨fun s k i hd hk hok hnone => ?run, fun s k i x a hk hok hnone htemp hdelta => ?trigger, fun s g q hactive hwin hpos hg hsights hready => ?open_,
    fun s v q hat hpos => ?close, fun s i a b x y hi hsight hgoal hstart ha hb hne hpass hwin => ?complete,
    fun s i a g y hi hsight hgoal hagain hcodes hne ⟨hlow, hhigh⟩ => ?step, fun s m hactive hlow hhigh _ hsights hparked hok => ?park⟩
  case run =>
    have hk4 : k < 4 := by omega
    have hi : i < 128 := by
      rcases hk with rfl | rfl <;> simp [sightOk] at hok <;> omega
    have hop : s.begin.idx k 4 (fun s => s.idx i 128 fun s => s.busWrite .pcie R.CAL_CMD (BitVec.ofNat 32 (0x8000 + 4 * i + k)) 4) = s.begin.setSight k i (some {}) := by
      rw [idx_of_lt hk4, idx_of_lt hi, busWrite_calRun (s := s.begin) hd hk4 hok hi, sightBegin_new (s := s.begin) hk hnone]
    exact completes_of_frame (op := (·.idx k 4 fun s => s.idx i 128 fun s => s.busWrite .pcie R.CAL_CMD (BitVec.ofNat 32 (0x8000 + 4 * i + k)) 4)) rfl hop
      (frame_setSight _ k i _) (.inl rfl) fun hkeeps => ⟨sight_setSight_same s.begin k i _, sightCodes_setSight s.begin k i _, hkeeps⟩
  case trigger =>
    have hk4 : k < 4 := by omega
    have hi : i < 128 := by
      rcases hk with rfl | rfl <;> simp [sightOk] at hok <;> omega
    have hop : s.begin.idx k 4 (fun s => s.idx i 128 fun s => s.tempTrigger k i x) = s.begin.setSight k i (some {}) := by
      have htemp' : Tab.get (fun _ => (none : Option Int)) s.begin.cal.temps (256 * k + i) = some a := htemp
      have hdelta' : s.begin.f F.CAL_TRIG_TEMP_DELTA < (x - a).natAbs := hdelta
      rw [idx_of_lt hk4, idx_of_lt hi]
      simp only [State.tempTrigger, hok, Bool.not_true, Bool.false_eq_true, if_false, htemp', if_pos hdelta']
      exact sightBegin_new (s := s.begin) hk hnone
    exact completes_of_frame (op := (·.idx k 4 fun s => s.idx i 128 fun s => s.tempTrigger k i x)) rfl hop (frame_setSight _ k i _) (.inl rfl)
      fun hkeeps => ⟨sight_setSight_same s.begin k i _, rfl, hkeeps⟩
  case open_ =>
    obtain ⟨hpend, honly⟩ := sight_of_single (s := s) (k := 1) (i := g) hsights
    have hclk := frame_clk s.begin q
    have hopened := frame_winOpened ({ s.begin with clk := q } : State) q.vpos
    have hop : s.begin.windowOpen = (({ s.begin with clk := q } : State).winOpened q.vpos).hbmSightings := by
      have hactive' : s.begin.active fnCal = true := hactive
      have hwin' : s.begin.on F.CAL_STATUS_WINDOW = false := hwin
      have hpos' : s.begin.toPhase 6 (s.begin.f F.CAL_WIN_START * 65536) = some { s.begin with clk := q } := hpos
      simp only [State.windowOpen, hactive', hwin', Bool.not_true, Bool.or_self, Bool.false_eq_true, if_false, hpos']
      rfl
    have hon : (({ s.begin with clk := q } : State).winOpened q.vpos).on F.CAL_STATUS_WINDOW = true := on_setF_same _ _ (by decide) rfl
    have hready' : (({ s.begin with clk := q } : State).winOpened q.vpos).ready (fnHbm (g / 32)) = true := hready
    have hpend' : (({ s.begin with clk := q } : State).winOpened q.vpos).sight 1 g = some {} := hpend
    have honly' : ∀ h, h ≠ g → (({ s.begin with clk := q } : State).winOpened q.vpos).sight 1 h = none := honly
    have hev : (({ s.begin with clk := q } : State).winOpened q.vpos).evNow = [] := rfl
    have hcal : (({ s.begin with clk := q } : State).winOpened q.vpos).cal.winAt = some q.vpos := rfl
    have hclock : (({ s.begin with clk := q } : State).winOpened q.vpos).clk = q := rfl
    rw [hbmSightings_one hon hg hready' hpend' honly'] at hop
    have hframe := hclk.trans hopened
    generalize ({ s.begin with clk := q } : State).winOpened q.vpos = u at *
    have hend := frame_setSight u 1 g (some { run := true })
    refine completes_of_frame (op := (·.windowOpen)) rfl hop ((hframe.trans hend).mono (by simp) (by simp) (by simp)) (.inl hev)
      fun hkeeps => ⟨?_, hcal, sight_setSight_same u 1 g _, hclock, hkeeps⟩
    rw [on_finish, hend.on_eq (by simp), hon]
  case close =>
    have hop : s.begin.windowShut = ({ s.begin with clk := q } : State).winShut := by
      have hat' : s.begin.cal.winAt = some v := hat
      have hpos' : s.begin.toPos 6 (v + s.begin.f F.CAL_WIN_LEN * 65536) = some { s.begin with clk := q } := hpos
      simp only [State.windowShut, hat', hpos']
      rfl
    have hframe := (frame_clk s.begin q).trans (frame_winShut ({ s.begin with clk := q } : State))
    refine completes_of_frame (op := (·.windowShut)) rfl hop (hframe.mono (by simp) (by simp) (by simp)) (.inl rfl) fun hkeeps => ⟨?_, rfl, rfl, hkeeps⟩
    have hzero : ({ s.begin with clk := q } : State).winShut.f F.CAL_STATUS_WINDOW = 0 := f_setF_same _ _ 0 (by decide)
    rw [on_finish, State.on, hzero]
    rfl
  case complete =>
    have hop : s.begin.idx 3 4 (fun s => s.idx i 128 fun s => s.sightComplete 3 i a b [] x) =
        (s.begin.sightNoted 3 i x).setSight 3 i (some { goal := a, stepNs := s.clk.ns }) := by
      rw [idx_of_lt (by decide), idx_of_lt (by omega)]
      exact sightComplete_sensor (s := s.begin) hi hsight hgoal hstart ha hb hne hpass hwin
    have hnoted := frame_sightNoted s.begin 3 i x
    have hcodes : (s.begin.sightNoted 3 i x).sightCodes 3 i = s.sightCodes 3 i := hnoted.sightCodes_eq (by simpa using senseReg_ne hi (by decide))
    have htemps := temps_sightNoted s.begin 3 i x
    have hcount := rdn_sightNoted s.begin 3 i x
    have hev : (s.begin.sightNoted 3 i x).evNow = [⟨0x1502, i⟩] := rfl
    have hlog : (s.begin.sightNoted 3 i x).log = s.log := rfl
    generalize s.begin.sightNoted 3 i x = u at *
    have hend := frame_setSight u 3 i (some { goal := a, stepNs := s.clk.ns })
    refine completes_of_frame (op := (·.idx 3 4 fun s => s.idx i 128 fun s => s.sightComplete 3 i a b [] x)) rfl hop ((hnoted.trans hend).mono (by simp) (by simp) (by simp))
      (.inr (by simp)) fun hkeeps => ⟨sight_setSight_same u 3 i _, hcodes, htemps, hcount, ?_, hkeeps⟩
    refine finish_logged (u := u.setSight 3 i (some { goal := a, stepNs := s.clk.ns })) (evs := [⟨0x1502, i⟩]) ?_ ?_ (by simp) (by simp; omega)
    · have hsame : (u.setSight 3 i (some { goal := a, stepNs := s.clk.ns })).evNow = u.evNow := rfl
      rw [hsame, hev]
      rfl
    · have hsame : (u.setSight 3 i (some { goal := a, stepNs := s.clk.ns })).log = u.log := rfl
      rw [hsame, hlog]
      exact ⟨rfl, rfl⟩
  case step =>
    have hop : s.begin.idx 3 4 (fun s => s.idx i 128 fun s => s.sightStep 3 i) =
        ((s.begin.toNs (y.stepNs + s.f F.CAL_STEP_STEP_US * 1000)).setCodes 3 i [codeStep a g]).setSight 3 i
          (sightLeft y a g (s.begin.toNs (y.stepNs + s.f F.CAL_STEP_STEP_US * 1000)).clk.ns) := by
      rw [idx_of_lt (by decide), idx_of_lt (by omega)]
      exact sightStep_sensor (s := s.begin) hsight hgoal hagain hcodes hne
    have hbounds : -128 ≤ codeStep a g ∧ codeStep a g < 128 := by
      have ha := signedOf_bounds (bitsOf (s.rdn (senseReg i)) 15 8)
      rw [sightCodes_sensor, List.cons.injEq] at hcodes
      rw [hcodes.1] at ha
      unfold codeStep
      split <;> omega
    have htime := frame_toNs s.begin (y.stepNs + s.f F.CAL_STEP_STEP_US * 1000)
    have hns := le_toNs s.begin (y.stepNs + s.f F.CAL_STEP_STEP_US * 1000)
    have hev : (s.begin.toNs (y.stepNs + s.f F.CAL_STEP_STEP_US * 1000)).evNow = [] := rfl
    generalize s.begin.toNs (y.stepNs + s.f F.CAL_STEP_STEP_US * 1000) = u at *
    have hset := frame_setCodes u i [codeStep a g]
    have hcodes' := sightCodes_setCodes u i hbounds.1 hbounds.2
    have hclk : (u.setCodes 3 i [codeStep a g]).clk = u.clk := rfl
    have hev' : (u.setCodes 3 i [codeStep a g]).evNow = [] := hev
    generalize u.setCodes 3 i [codeStep a g] = w at *
    have hend := frame_setSight w 3 i (sightLeft y a g u.clk.ns)
    refine completes_of_frame (op := (·.idx 3 4 fun s => s.idx i 128 fun s => s.sightStep 3 i)) rfl hop ((htime.trans (hset.trans hend)).mono (by simp) (by simp) (by simp))
      (.inl hev') fun hkeeps => ⟨hcodes', ?_, ?_, hkeeps⟩
    · have hsame : w.clk.ns = u.clk.ns := by rw [hclk]
      exact hns.trans_eq hsame.symm
    · have hleft : (w.setSight 3 i (sightLeft y a g u.clk.ns)).finish.clk.ns = u.clk.ns := by
        rw [finish_clk]
        exact congrArg Clock.ns hclk
      rw [hleft]
      exact sight_setSight_same w 3 i _
  case park =>
    have hop := pllSightings_one (s := s.begin) hactive hlow hhigh hsights hparked hok
    have hmeasured := frame_pllMeasured s.begin m
    have hsight : (s.begin.pllMeasured m).sight 2 m = some { run := true } := sight_setSight_same _ 2 m _
    have hat : Tab.get (fun _ => 0) (s.begin.pllMeasured m).ckg.relockAt m = s.clk.ns := Tab.get_put_same _ _ m _
    have hev : (s.begin.pllMeasured m).evNow = [] := rfl
    generalize s.begin.pllMeasured m = u at *
    have hshown := frame_relockShown u m
    have hstate := f_relockShown_state u hhigh
    have hbusy := f_relockShown_busy u hhigh
    have hlocked := f_relockShown_locked u hhigh
    have hcal : (u.relockShown m).cal = u.cal := hshown.part (p := .cal) (by simp)
    have hckg : (u.relockShown m).ckg = u.ckg := hshown.part (p := .ckg) (by simp)
    have hev' : (u.relockShown m).evNow = [] := hev
    generalize u.relockShown m = w at *
    refine completes_of_frame (op := (·.pllSightings)) rfl hop ((hmeasured.trans hshown).mono (by simp) (by simp) (by simp)) (.inl hev')
      fun hkeeps => ⟨?_, hstate, hbusy, hlocked, ?_, hkeeps⟩
    · have hsame : w.sight 2 m = u.sight 2 m := by rw [State.sight, State.sight, hcal]
      exact hsame.trans hsight
    · have hsame : Tab.get (fun _ => 0) w.ckg.relockAt m = s.clk.ns := by rw [hckg, hat]
      exact hsame

end Sys2Proof.Machine
end

section
/-!
PROOFS. The Staord link layer and relayed messages (R273-R275).
-/

namespace Sys2Proof.Machine

/-! ## A link -/

theorem frame_setLink (s : State) (p : Nat) (x : LinkSt) : Frame [] [] [.links] s (s.setLink p x) := frame_links s _

theorem link_setLink (s : State) (p : Nat) (x : LinkSt) : (s.setLink p x).link p = x := Tab.get_put_same _ _ p x

theorem Frame.link_eq {regs fns : List Nat} {parts : List Part} {s t : State} (h : Frame regs fns parts s t) (hp : .links ∉ parts) (p : Nat) : t.link p = s.link p := by
  have hlinks : t.links = s.links := h.part hp
  rw [State.link, State.link, hlinks]

/-- `n` flits have gone out on port `p`. -/
structure FlitsSent (p n : Nat) (s t : State) : Prop where
  frame : Frame [R.CNV_LINK_TX_CNT p] [] [.out, .clk] s t
  out : t.out.length = s.out.length + n
  count : t.rdn (R.CNV_LINK_TX_CNT p) = (s.rdn (R.CNV_LINK_TX_CNT p) + n) % 2 ^ 32
  evNow : t.evNow = s.evNow
  ns : s.clk.ns ≤ t.clk.ns

theorem FlitsSent.refl (p : Nat) (s : State) : FlitsSent p 0 s s := by
  refine ⟨(Frame.refl s).mono (by simp) (by simp) (by simp), rfl, ?_, rfl, le_refl _⟩
  rw [Nat.add_zero, State.rdn, Nat.mod_eq_of_lt (BitVec.isLt _)]

theorem FlitsSent.trans {p m n : Nat} {s t u : State} (h : FlitsSent p m s t) (h' : FlitsSent p n t u) : FlitsSent p (m + n) s u := by
  refine ⟨(h.frame.trans h'.frame).mono (by simp) (by simp) (by simp), ?_, ?_, h'.evNow.trans h.evNow, h.ns.trans h'.ns⟩
  · rw [h'.out, h.out, Nat.add_assoc]
  · rw [h'.count, h.count, Nat.mod_add_mod, Nat.add_assoc]

theorem flitsSent_putFlit (s : State) (p fold : Nat) (f : Flit) : FlitsSent p 1 s (s.putFlit p fold f) := by
  obtain ⟨g, hput⟩ : ∃ g, s.putFlit p fold f = (s.bump (R.CNV_LINK_TX_CNT p)).emit (.flit p g) := ⟨_, rfl⟩
  rw [hput]
  refine ⟨((frame_bump s (R.CNV_LINK_TX_CNT p)).trans (frame_emit _ _)).mono (by simp) (by simp) (by simp), List.length_append, ?_, rfl, le_refl _⟩
  rw [rdn_emit, rdn_bump_same]

theorem flitsSent_toNs (s : State) (p x : Nat) : FlitsSent p 0 s (s.toNs x) := by
  refine ⟨(frame_toNs s x).mono (by simp) (by simp) (by simp), rfl, ?_, rfl, by rw [toNs_ns]; exact le_max_left _ _⟩
  rw [(frame_toNs s x).rdn_eq (by simp), Nat.add_zero, State.rdn, Nat.mod_eq_of_lt (BitVec.isLt _)]

/-- A replay sends every flit of the buffer once. -/
theorem flitsSent_replayed (p : Nat) (l : List Flit) (s : State) : FlitsSent p l.length s (l.foldl (fun (t : State) f => t.putFlit p f.seq f) s) := by
  induction l generalizing s with
  | nil => exact FlitsSent.refl p s
  | cons f r ih =>
    rw [List.foldl_cons, List.length_cons, Nat.add_comm]
    exact (flitsSent_putFlit s p f.seq f).trans (ih _)

/-! ## FLIT_RECEIVE (R272, R273) -/

/-- A sequenced flit of module `mid` is taken. -/
def State.flitTaken (s : State) (p mid : Nat) : State :=
  (s.setLink p { s.link p with peerMid := some mid, rx := ((s.link p).rx + 1) % 2 ^ 32, rxAny := true, nakAt := none }).bump (R.CNV_LINK_RX_CNT p)

theorem frame_flitTaken (s : State) (p mid : Nat) : Frame [R.CNV_LINK_RX_CNT p] [] [.links] s (s.flitTaken p mid) := (frame_setLink s p _).trans (frame_bump _ _)

theorem link_flitTaken (s : State) (p mid : Nat) :
    (s.flitTaken p mid).link p = { s.link p with peerMid := some mid, rx := ((s.link p).rx + 1) % 2 ^ 32, rxAny := true, nakAt := none } :=
  ((frame_bump _ _).link_eq (by simp) p).trans (link_setLink s p _)

theorem flitReceive_plain {s : State} {p : Nat} {g : Flit} (hup : s.linkUp p = true) (hcrc : g.crc = flitCrc (s.link p).rx g) (hty : g.ty = 1) (hnak : g.nak = false)
    (hack : g.ackValid = false) (hrole : s.f F.TWN_STATUS_ROLE = 0) : s.flitReceive p g = s.flitTaken p g.mid := by
  have hrole' : (s.flitTaken p g.mid).f F.TWN_STATUS_ROLE = 0 := by
    rw [(frame_flitTaken s p g.mid).f_eq (y := F.TWN_STATUS_ROLE) (by simp only [R.TWN_STATUS, R.CNV_LINK_RX_CNT]; simp; omega), hrole]
  have hsame : (s.flitTaken p g.mid).takeAck p g = s.flitTaken p g.mid := by
    simp only [State.takeAck, hack, Bool.not_false, if_true]
  have hseq : flitSequenced g.ty = true := by rw [hty]; rfl
  have hshape : s.flitReceive p g = (fun t : State => if g.nak = true then t.replay p else t)
      ((fun t : State => if (g.ty = 1 ∨ g.ty = 2) ∧ t.f F.TWN_CTL_PORT = p ∧ t.f F.TWN_STATUS_ROLE ≠ 0 then { t with twn := { t.twn with lastRx := t.clk.ns } } else t)
        ((s.flitTaken p g.mid).takeAck p g)) := by
    have hgood : ¬ g.crc ≠ flitCrc (s.link p).rx g := fun h => h hcrc
    have hknown : ¬ 7 ≤ g.ty := by omega
    have htime : ¬ g.ty = 4 := by omega
    simp only [State.flitReceive, hup, hseq, Bool.not_true, Bool.false_eq_true, if_false, if_true, if_neg hgood, if_neg hknown, if_neg htime]
    rfl
  rw [hshape, hsame]
  simp only [hrole', ne_eq, not_true_eq_false, and_false, if_false, hnak, Bool.false_eq_true]

/-! ## REPLAY_TIMEOUT (R273) -/

/-- A replay is noted. -/
def State.replayNoted (s : State) (p : Nat) : State :=
  ((s.setLink p { s.link p with retries := (s.link p).retries + 1, lastAdv := s.clk.ns }).bump (R.CNV_LINK_REPLAY_CNT p)).raise 0x0D06 p

theorem frame_replayNoted (s : State) (p : Nat) : Frame [R.CNV_LINK_REPLAY_CNT p] [] [.links] s (s.replayNoted p) :=
  (frame_setLink s p _).trans ((frame_bump _ _).trans (frame_raise _ _ _))

theorem link_replayNoted (s : State) (p : Nat) : (s.replayNoted p).link p = { s.link p with retries := (s.link p).retries + 1, lastAdv := s.clk.ns } :=
  (((frame_bump _ (R.CNV_LINK_REPLAY_CNT p)).trans (frame_raise _ 0x0D06 p)).link_eq (by simp) p).trans (link_setLink s p _)

theorem replay_again {s : State} {p : Nat} (hbuf : (s.link p).buf ≠ []) (hretry : (s.link p).retries < s.f (F.CNV_LINK_CTL_RETRY p)) :
    s.replay p = (s.link p).buf.foldl (fun (t : State) f => t.putFlit p f.seq f) (s.replayNoted p) := by
  simp only [State.replay, if_neg hbuf, if_neg (Nat.not_le.mpr hretry)]
  rfl

/-! ## LINK_DELAY_MEASURE (R274) -/

/-- The `n` time flits of a bring-up, a microsecond apart. -/
def State.timeFlits (s : State) (p n : Nat) : State :=
  (List.range n).foldl (fun (t : State) i => let t := if i = 0 then t else t.toNs (t.clk.ns + 1000); t.sendPlain p 4 false (t.timeFlit p)) s

theorem timeFlits_succ (s : State) (p n : Nat) : s.timeFlits p (n + 1) =
    (if n = 0 then s.timeFlits p n else (s.timeFlits p n).toNs ((s.timeFlits p n).clk.ns + 1000)).sendPlain p 4 false
      ((if n = 0 then s.timeFlits p n else (s.timeFlits p n).toNs ((s.timeFlits p n).clk.ns + 1000)).timeFlit p) := by
  rw [State.timeFlits, List.range_succ, List.foldl_append]
  rfl

theorem flitsSent_timeFlits (s : State) (p n : Nat) : FlitsSent p n s (s.timeFlits p n) := by
  induction n with
  | zero => exact FlitsSent.refl p s
  | succ n ih =>
    rw [timeFlits_succ]
    by_cases hfirst : n = 0
    · rw [if_pos hfirst]
      exact ih.trans (flitsSent_putFlit _ p _ _)
    · rw [if_neg hfirst]
      exact (ih.trans (flitsSent_toNs _ p _)).trans (flitsSent_putFlit _ p _ _)

theorem ns_timeFlits (s : State) (p n : Nat) : (s.timeFlits p n).clk.ns = s.clk.ns + (n - 1) * 1000 := by
  induction n with
  | zero => rfl
  | succ n ih =>
    have hplain (t : State) (payload : List Nat) : (t.sendPlain p 4 false payload).clk.ns = t.clk.ns := rfl
    rw [timeFlits_succ, hplain]
    split
    case isTrue h0 => rw [ih, h0]
    case isFalse h0 =>
      rw [toNs_ns, ih]
      omega

/-- The measured delay, and the link READY. -/
def State.delaySet (s : State) (p d : Nat) : State := (s.wrn (R.CNV_LINK_DELAY p) d).setF (F.CNV_LINK_STATUS_B1_0 p) 2

/-- The link READY with nothing sent yet. -/
def State.delayShown (s : State) (p d : Nat) : State :=
  (s.delaySet p d).setLink p { lastAdv := (s.delaySet p d).clk.ns, lastTime := ((s.delaySet p d).link p).lastTime }

theorem frame_delayShown (s : State) (p d : Nat) : Frame [R.CNV_LINK_DELAY p, R.CNV_LINK_STATUS p] [] [.links] s (s.delayShown p d) :=
  (frame_wrn s _ d).trans ((frame_setF _ (F.CNV_LINK_STATUS_B1_0 p) 2).trans (frame_setLink _ p _))

theorem linkUp_delayShown (s : State) (p d : Nat) : (s.delayShown p d).linkUp p = true := by
  have hset : ((s.wrn (R.CNV_LINK_DELAY p) d).setF (F.CNV_LINK_STATUS_B1_0 p) 2).f (F.CNV_LINK_STATUS_B1_0 p) = 2 := f_setF_same _ _ 2 (by decide : 1 < 32)
  rw [State.linkUp, State.delayShown, State.delaySet, (frame_setLink _ p _).f_eq (by simp), hset]
  rfl

theorem rdn_delayShown (s : State) (p d : Nat) : (s.delayShown p d).rdn (R.CNV_LINK_DELAY p) = d % 2 ^ 32 := by
  rw [State.delayShown, State.delaySet, (frame_setLink _ p _).rdn_eq (by simp), (frame_setF _ (F.CNV_LINK_STATUS_B1_0 p) 2).rdn_eq (by simp), rdn_wrn_same]

theorem link_delayShown (s : State) (p d : Nat) : ((s.delayShown p d).link p).tx = 0 ∧ ((s.delayShown p d).link p).buf = [] := by
  rw [State.delayShown, link_setLink]
  exact ⟨rfl, rfl⟩

theorem evNow_delayShown (s : State) (p d : Nat) : (s.delayShown p d).evNow = s.evNow := rfl

/-- The mean half round trip (R274). -/
def delayOf (rx : List (Nat × Nat × Nat)) : Nat :=
  ((rx.map (fun e => ((e.1 : Int) - (e.2.1 : Int) - (e.2.2 : Int)) % 4294967296)).sum / ((2 * rx.length : Nat) : Int)).toNat

theorem linkMeasure_eq {s : State} {p : Nat} {rx : List (Nat × Nat × Nat)} (hstate : s.f (F.CNV_LINK_STATUS_B1_0 p) = 1) (hrx : rx ≠ [])
    (hfn : ((s.timeFlits p 16).delayShown p (delayOf rx)).fn (fnStaord p) = .starting) :
    s.linkMeasure p rx = ((s.timeFlits p 16).delayShown p (delayOf rx)).setFn (fnStaord p) .ready := by
  have hlength : max 1 rx.length = rx.length := by
    have hpos := List.length_pos_iff.mpr hrx
    omega
  have hshape : s.linkMeasure p rx = (fun t : State => if t.fn (fnStaord p) == .starting then t.setFn (fnStaord p) .ready else t)
      ((s.timeFlits p 16).delayShown p (delayOf rx)) := by
    rw [State.linkMeasure, if_neg (fun h => h hstate), hlength, ← State.timeFlits]
    generalize s.timeFlits p 16 = u
    rfl
  rw [hshape]
  exact if_pos (by rw [hfn]; rfl)

/-! ## Relayed messages (R275) -/

/-- The assemblers of another message. -/
def otherAsms (g : RelayFlit) (l : List Assembler) : List Assembler := l.filter (fun a => !(a.orig == g.orig && a.msg == g.msg))

/-- A message of one fragment is delivered. -/
def State.relayDone (s : State) (g : RelayFlit) : State :=
  ({ s with cnv := { s.cnv with asms := otherAsms g s.cnv.asms } } : State).emit (.relayed g.ty g.orig g.msg g.data)

theorem frame_relayDone (s : State) (g : RelayFlit) : Frame [] [] [.cnv, .out] s (s.relayDone g) := (frame_cnv s _).trans (frame_emit _ _)

theorem relayReceive_single {s : State} {g : RelayFlit} (p : Nat) (hdest : g.dest = s.pins.mid) (hone : g.dest ≠ 0x3FF) (hfrag : g.frag = 0) (hlast : g.last = true)
    (hroom : s.cnv.asms.length < 16) (hnew : s.cnv.asms.find? (fun a => a.orig == g.orig && a.msg == g.msg) = none) : s.relayReceive p g = s.relayDone g := by
  have hfull : decide (16 ≤ s.cnv.asms.length) = false := decide_eq_false (by omega)
  rw [State.relayReceive, if_neg hone, if_pos hdest, State.assemble, hnew]
  simp only [hfrag, ne_eq, not_true_eq_false, if_false, hfull, Bool.and_false, Bool.false_eq_true, hlast, if_true, List.nil_append]
  rfl

/-- The assemblers that still wait. -/
def State.asmsKept (s : State) (l : List Assembler) : State := { s with cnv := { s.cnv with asms := l } }

theorem frame_asmsKept (s : State) (l : List Assembler) : Frame [] [] [.cnv] s (s.asmsKept l) := frame_cnv s _

theorem relayTimeout_single {s : State} {a : Assembler} (h : s.cnv.asms = [a]) : s.relayTimeout = (s.toNs (a.at_ + 10000000)).asmsKept [] := by
  have hpast : decide ((s.toNs (a.at_ + 10000000)).clk.ns < a.at_ + 10000000) = false := decide_eq_false (Nat.not_lt.mpr (le_toNs s _))
  have hasms : (s.toNs (a.at_ + 10000000)).cnv.asms = [a] := h
  simp only [State.relayTimeout, h, List.map_nil, List.foldl_nil, hasms, List.filter_cons, hpast, Bool.false_eq_true, if_false, List.filter_nil]
  rfl

/-- A replay after the time without progress. -/
theorem replayTimeout_completes {s : State} {p : Nat} (hp : p < 8) (hup : s.linkUp p = true) (hbuf : (s.link p).buf ≠ [])
    (hretry : (s.link p).retries < s.f (F.CNV_LINK_CTL_RETRY p)) :
    Completes (.replayTimeout p) s fun t => (s.link p).lastAdv + s.f (F.CNV_LINK_CTL_REPLAY_TO p) ≤ t.clk.ns ∧ (t.link p).retries = (s.link p).retries + 1 ∧
      (t.link p).buf = (s.link p).buf ∧ t.out.length = (s.link p).buf.length ∧ t.rdn (R.CNV_LINK_REPLAY_CNT p) = (s.rdn (R.CNV_LINK_REPLAY_CNT p) + 1) % 2 ^ 32 ∧
      t.rdn (R.CNV_LINK_TX_CNT p) = (s.rdn (R.CNV_LINK_TX_CNT p) + (s.link p).buf.length) % 2 ^ 32 ∧ Logged [⟨0x0D06, p⟩] s t ∧
      Keeps [R.CNV_LINK_REPLAY_CNT p, R.CNV_LINK_TX_CNT p] [] [.links, .out, .clk, .log] s t := by
  have htime := frame_toNs s.begin ((s.link p).lastAdv + s.f (F.CNV_LINK_CTL_REPLAY_TO p))
  have hns := le_toNs s.begin ((s.link p).lastAdv + s.f (F.CNV_LINK_CTL_REPLAY_TO p))
  have hop : s.begin.idx p 8 (fun s => s.replayTimeout p) = (s.begin.toNs ((s.link p).lastAdv + s.f (F.CNV_LINK_CTL_REPLAY_TO p))).replay p := by
    have hwaits : ((s.begin.link p).buf == []) = false := beq_eq_false_iff_ne.mpr hbuf
    rw [idx_of_lt hp, State.replayTimeout, show s.begin.linkUp p = true from hup, hwaits]
    rfl
  have hout : (s.begin.toNs ((s.link p).lastAdv + s.f (F.CNV_LINK_CTL_REPLAY_TO p))).out = [] := rfl
  have hev : (s.begin.toNs ((s.link p).lastAdv + s.f (F.CNV_LINK_CTL_REPLAY_TO p))).evNow = [] := rfl
  have hlog : (s.begin.toNs ((s.link p).lastAdv + s.f (F.CNV_LINK_CTL_REPLAY_TO p))).log = s.log := rfl
  have hlink : (s.begin.toNs ((s.link p).lastAdv + s.f (F.CNV_LINK_CTL_REPLAY_TO p))).link p = s.link p := rfl
  have hretry' : (s.link p).retries < (s.begin.toNs ((s.link p).lastAdv + s.f (F.CNV_LINK_CTL_REPLAY_TO p))).f (F.CNV_LINK_CTL_RETRY p) := hretry
  generalize s.begin.toNs ((s.link p).lastAdv + s.f (F.CNV_LINK_CTL_REPLAY_TO p)) = u at *
  rw [replay_again (by rw [hlink]; exact hbuf) (by rw [hlink]; exact hretry'), hlink] at hop
  have hnoted := frame_replayNoted u p
  have hnotedLink := link_replayNoted u p
  have hcount : (u.replayNoted p).rdn (R.CNV_LINK_REPLAY_CNT p) = (u.rdn (R.CNV_LINK_REPLAY_CNT p) + 1) % 2 ^ 32 := by
    rw [State.replayNoted, rdn_raise, rdn_bump_same, (frame_setLink _ p _).rdn_eq (by simp)]
  have hev' : (u.replayNoted p).evNow = [⟨0x0D06, p⟩] := by
    have hraised : (u.replayNoted p).evNow = u.evNow ++ [⟨0x0D06, p⟩] := rfl
    rw [hraised, hev]
    rfl
  have hout' : (u.replayNoted p).out = [] := hout
  have hclk : (u.replayNoted p).clk = u.clk := rfl
  rw [hlink] at hnotedLink
  generalize u.replayNoted p = w at *
  have hsent := flitsSent_replayed p (s.link p).buf w
  generalize (s.link p).buf.foldl (fun (t : State) f => t.putFlit p f.seq f) w = e at hop hsent
  have hend := hsent.frame
  refine completes_of_frame (op := (·.idx p 8 fun s => s.replayTimeout p)) rfl hop ((htime.trans (hnoted.trans hend)).mono (by simp) (by simp) (by simp))
    (.inr (by simp)) fun hkeeps => ⟨?_, ?_, ?_, ?_, ?_, ?_, finish_logged (by rw [hsent.evNow, hev']; rfl) ?_ (by simp) (by simp; omega), hkeeps⟩
  · rw [finish_clk]
    exact hns.trans (hclk ▸ hsent.ns)
  · exact (congrArg LinkSt.retries ((hend.link_eq (by simp) p).trans hnotedLink)).trans rfl
  · exact (congrArg LinkSt.buf ((hend.link_eq (by simp) p).trans hnotedLink)).trans rfl
  · rw [finish_out, hsent.out, hout', List.length_nil, Nat.zero_add]
  · rw [rdn_finish, hend.rdn_eq (by simp), hcount, htime.rdn_eq (by simp)]
    rfl
  · rw [rdn_finish, hsent.count, hnoted.rdn_eq (by simp), htime.rdn_eq (by simp)]
    rfl
  · have hsame : e.log = s.log := (hend.part (p := .log) (by simp)).trans ((hnoted.part (p := .log) (by simp)).trans hlog)
    rw [hsame]
    exact ⟨rfl, rfl⟩

/-- A bring-up that is measured. -/
theorem linkMeasure_completes {s : State} {p : Nat} {rx : List (Nat × Nat × Nat)} (hp : p < 8) (hstate : s.f (F.CNV_LINK_STATUS_B1_0 p) = 1)
    (hfn : s.fn (fnStaord p) = .starting) (hrx : rx ≠ []) :
    Completes (.linkDelayMeasure p rx) s fun t => t.rdn (R.CNV_LINK_DELAY p) = delayOf rx % 2 ^ 32 ∧
      t.linkUp p = true ∧ t.fn (fnStaord p) = .ready ∧ t.out.length = 16 ∧ (t.link p).tx = 0 ∧ (t.link p).buf = [] ∧
      t.rdn (R.CNV_LINK_TX_CNT p) = (s.rdn (R.CNV_LINK_TX_CNT p) + 16) % 2 ^ 32 ∧ Logged [⟨0x0003, fnStaord p⟩] s t ∧ t.clk.ns = s.clk.ns + 15000 ∧
      Keeps [R.CNV_LINK_DELAY p, R.CNV_LINK_STATUS p, R.CNV_LINK_TX_CNT p] [fnStaord p] [.links, .out, .clk, .fnAt, .log] s t := by
  have hsent := flitsSent_timeFlits s.begin p 16
  have hns := ns_timeFlits s.begin p 16
  have hmeasure := linkMeasure_eq (s := s.begin) (rx := rx) hstate hrx
  have hlog : (s.begin.timeFlits p 16).log = s.log := hsent.frame.part (p := .log) (by simp)
  have hfn' : (s.begin.timeFlits p 16).fn (fnStaord p) = .starting := (hsent.frame.2.1 _ (by simp)).trans hfn
  generalize s.begin.timeFlits p 16 = u at *
  have hshown := frame_delayShown u p (delayOf rx)
  have hdelay := rdn_delayShown u p (delayOf rx)
  have hup := linkUp_delayShown u p (delayOf rx)
  have hlink := link_delayShown u p (delayOf rx)
  have hfn'' : (u.delayShown p (delayOf rx)).fn (fnStaord p) = .starting := (hshown.2.1 _ (by simp)).trans hfn'
  have hop : s.begin.idx p 8 (fun s => s.linkMeasure p rx) = (u.delayShown p (delayOf rx)).setFn (fnStaord p) .ready := (idx_of_lt hp).trans (hmeasure hfn'')
  have hev : (u.delayShown p (delayOf rx)).evNow = [] := (evNow_delayShown u p (delayOf rx)).trans hsent.evNow
  have hclk : (u.delayShown p (delayOf rx)).clk = u.clk := hshown.part (p := .clk) (by simp)
  have hout : (u.delayShown p (delayOf rx)).out = u.out := hshown.part (p := .out) (by simp)
  generalize u.delayShown p (delayOf rx) = w at *
  have hne : w.fn (fnStaord p) ≠ .ready := by
    rw [hfn'']
    decide
  have hready := frame_setFn_ready hne
  have hfnEnd := fn_setFn_ready hne
  have hevEnd := evNow_setFn_ready hne
  generalize w.setFn (fnStaord p) .ready = e at hop hready hfnEnd hevEnd
  refine completes_of_frame (op := (·.idx p 8 fun s => s.linkMeasure p rx)) rfl hop ((hsent.frame.trans (hshown.trans hready)).mono (by simp) (by simp) (by simp))
    (.inr (by simp)) fun hkeeps => ⟨?_, ?_, hfnEnd, ?_, ?_, ?_, ?_, finish_logged (by rw [hevEnd, hev]; rfl) ?_ (by simp) ?_, ?_, hkeeps⟩
  · exact (hready.rdn_eq (by simp)).trans hdelay
  · exact (congrArg (· == 2) (hready.f_eq (y := F.CNV_LINK_STATUS_B1_0 p) (by simp))).trans hup
  · rw [finish_out, hready.part (p := .out) (by simp), hout, hsent.out]
    rfl
  · exact (congrArg LinkSt.tx (hready.link_eq (by simp) p)).trans hlink.1
  · exact (congrArg LinkSt.buf (hready.link_eq (by simp) p)).trans hlink.2
  · rw [rdn_finish, hready.rdn_eq (by simp), hshown.rdn_eq (by simp), hsent.count]
    rfl
  · have hsame : e.log = s.log := (hready.part (p := .log) (by simp)).trans ((hshown.part (p := .log) (by simp)).trans hlog)
    rw [hsame]
    exact ⟨rfl, rfl⟩
  · simp only [List.mem_singleton, forall_eq, fnStaord]
    omega
  · rw [finish_clk, hready.part (p := .clk) (by simp), hclk, hns]
    rfl

/-- Settles O30: a flit taken, a replay, a bring-up measured, a message delivered and one given up. -/
theorem linkFlitCommandsComplete : Obligations.LinkFlitCommandsComplete := by
  unfold Obligations.LinkFlitCommandsComplete
  refine ⟨fun s p g hp hup hcrc hty hnak hack hrole => ?receive, fun s p hp hup hbuf hretry => ?replay, fun s p rx hp hstate hfn hrx => ?measure,
    fun s p g hp hdest hone hfrag hlast hroom hnew => ?relay, fun s a hasms => ?timeout⟩
  case receive =>
    have hop : s.begin.idx p 8 (fun s => s.flitReceive p g) = s.begin.flitTaken p g.mid :=
      (idx_of_lt hp).trans (flitReceive_plain (s := s.begin) hup hcrc hty hnak hack hrole)
    have hlink := link_flitTaken s.begin p g.mid
    refine completes_of_frame (op := (·.idx p 8 fun s => s.flitReceive p g)) rfl hop (frame_flitTaken _ p g.mid) (.inl rfl) fun hkeeps =>
      ⟨(congrArg LinkSt.rx hlink).trans rfl, (congrArg LinkSt.rxAny hlink).trans rfl, (congrArg LinkSt.peerMid hlink).trans rfl, (congrArg LinkSt.buf hlink).trans rfl,
        ?_, hkeeps⟩
    rw [rdn_finish, State.flitTaken, rdn_bump_same, (frame_setLink _ p _).rdn_eq (by simp)]
    rfl
  case replay => exact replayTimeout_completes hp hup hbuf hretry
  case measure => exact linkMeasure_completes hp hstate hfn hrx
  case relay =>
    have hop : s.begin.idx p 8 (fun s => s.relayReceive p g) = s.begin.relayDone g :=
      (idx_of_lt hp).trans (relayReceive_single (s := s.begin) p hdest hone hfrag hlast hroom hnew)
    exact completes_of_frame (op := (·.idx p 8 fun s => s.relayReceive p g)) rfl hop (frame_relayDone _ g) (.inl rfl) fun hkeeps => ⟨rfl, rfl, rfl, hkeeps⟩
  case timeout =>
    have hop := relayTimeout_single (s := s.begin) hasms
    have hframe := (frame_toNs s.begin (a.at_ + 10000000)).trans (frame_asmsKept _ [])
    exact completes_of_frame (op := (·.relayTimeout)) rfl hop (hframe.mono (by simp) (by simp) (by simp)) (.inl rfl)
      fun hkeeps => ⟨rfl, le_toNs s.begin _, rfl, hkeeps⟩

end Sys2Proof.Machine
end

section
/-!
SUPPORT. Twinned channels, TWN_STATUS and the notes of the twin function (R242, R243, R256).
-/

namespace Sys2Proof.Machine

/-! ## A twinned channel -/

theorem frame_setTch (s : State) (c : Nat) (x : TwinCh) : Frame [] [] [.twn] s (s.setTch c x) := frame_twn s _

theorem tch_setTch (s : State) (c : Nat) (x : TwinCh) : (s.setTch c x).tch c = x := Tab.get_put_same _ _ c x

theorem Frame.tch_eq {regs fns : List Nat} {parts : List Part} {s t : State} (h : Frame regs fns parts s t) (hp : .twn ∉ parts) (c : Nat) : t.tch c = s.tch c := by
  have htwn : t.twn = s.twn := h.part hp
  rw [State.tch, State.tch, htwn]

theorem frame_mapHold (s : State) (c : Nat) (f : HeldSlice → HeldSlice) : Frame [] [] [.twn] s (s.mapHold c f) := frame_setTch s c _

theorem hold_mapHold (s : State) (c : Nat) (f : HeldSlice → HeldSlice) : ((s.mapHold c f).tch c).hold = (s.tch c).hold.map f := by
  rw [State.mapHold, tch_setTch]

/-! ## A counter, a flag and an event -/

theorem frame_twnNote (s : State) (cnt : Nat) (flag : Fld) (code ch : Nat) : Frame [cnt, flag.addr] [] [] s (s.twnNote cnt flag code ch) :=
  (frame_bump s cnt).trans ((frame_setF _ flag 1).trans (frame_raise _ _ _))

theorem count_twnNote (s : State) {cnt : Nat} {flag : Fld} (code ch : Nat) (h : cnt ≠ flag.addr) :
    (s.twnNote cnt flag code ch).rdn cnt = (s.rdn cnt + 1) % 2 ^ 32 := by
  rw [State.twnNote, rdn_raise, rdn_setF_ne _ _ h, rdn_bump_same]

theorem flag_twnNote (s : State) (cnt : Nat) {flag : Fld} (code ch : Nat) (h : flag.hi < 32) (hw : flag.hi = flag.lo) :
    (s.twnNote cnt flag code ch).on flag = true := by
  rw [State.twnNote, on_raise, on_setF_same _ _ h hw]

theorem evNow_twnNote (s : State) (cnt : Nat) (flag : Fld) (code ch : Nat) : (s.twnNote cnt flag code ch).evNow = s.evNow ++ [⟨code, ch⟩] := rfl

/-! ## TWN_STATUS -/

/-- LINK (R256). -/
def State.twnLink (s : State) : Bool := decide (s.role ≠ 0) && !s.twn.lost

/-- PARTNER_SYNC. -/
def State.twnPartner (s : State) : Bool := match s.twn.peer with | some p => p.sync | none => false

/-- REDUNDANT. -/
def State.twnRedundant (s : State) : Bool :=
  if s.role = 4 then s.twnLink && (match s.twn.peer with | some p => p.role == 1 | none => false) && s.twnPartner
  else if s.role = 2 then s.twnLink && s.pins.helmIn && s.twinSync else false

theorem twnUpdate_eq (s : State) : s.twnUpdate =
    (((s.setF F.TWN_STATUS_LINK (if s.twnLink then 1 else 0)).setF F.TWN_STATUS_PARTNER_SYNC (if s.twnPartner then 1 else 0)).setF F.TWN_STATUS_HELM_IN
      (if s.pins.helmIn then 1 else 0)).setF F.TWN_STATUS_REDUNDANT (if s.twnRedundant then 1 else 0) := rfl

theorem frame_twnUpdate (s : State) : Frame [R.TWN_STATUS] [] [] s s.twnUpdate := by
  rw [twnUpdate_eq]
  exact ((frame_setF s F.TWN_STATUS_LINK _).trans ((frame_setF _ F.TWN_STATUS_PARTNER_SYNC _).trans ((frame_setF _ F.TWN_STATUS_HELM_IN _).trans
    (frame_setF _ F.TWN_STATUS_REDUNDANT _)))).mono (by simp) (by simp) (by simp)

theorem evNow_twnUpdate (s : State) : s.twnUpdate.evNow = s.evNow := by rw [twnUpdate_eq]; rfl

theorem on_setF_bool (s : State) (x : Fld) (b : Bool) (h : x.hi < 32) (hw : x.hi = x.lo) : (s.setF x (if b then 1 else 0)).on x = b := by
  cases b
  case true => exact on_setF_same s x h hw
  case false => rw [State.on, if_neg (by decide), f_setF_same _ _ _ h, Nat.zero_mod]; rfl

/-- A bit of TWN_STATUS that another field's update does not touch. -/
theorem on_setF_bits (s : State) (x y : Fld) (v : Nat) (ha : y.addr = x.addr) (hx : x.lo ≤ x.hi) (hy : y.hi < 32) (h : x.hi < y.lo ∨ y.hi < x.lo) :
    (s.setF x v).on y = s.on y := by
  rw [State.on, State.on, f_setF_bits s v ha hx hy h]

theorem link_twnUpdate (s : State) : s.twnUpdate.on F.TWN_STATUS_LINK = s.twnLink := by
  rw [twnUpdate_eq, on_setF_bits _ F.TWN_STATUS_REDUNDANT F.TWN_STATUS_LINK _ rfl (by decide) (by decide) (by decide),
    on_setF_bits _ F.TWN_STATUS_HELM_IN F.TWN_STATUS_LINK _ rfl (by decide) (by decide) (by decide),
    on_setF_bits _ F.TWN_STATUS_PARTNER_SYNC F.TWN_STATUS_LINK _ rfl (by decide) (by decide) (by decide), on_setF_bool _ _ _ (by decide) rfl]

theorem partner_twnUpdate (s : State) : s.twnUpdate.on F.TWN_STATUS_PARTNER_SYNC = s.twnPartner := by
  rw [twnUpdate_eq, on_setF_bits _ F.TWN_STATUS_REDUNDANT F.TWN_STATUS_PARTNER_SYNC _ rfl (by decide) (by decide) (by decide),
    on_setF_bits _ F.TWN_STATUS_HELM_IN F.TWN_STATUS_PARTNER_SYNC _ rfl (by decide) (by decide) (by decide), on_setF_bool _ _ _ (by decide) rfl]

theorem redundant_twnUpdate (s : State) : s.twnUpdate.on F.TWN_STATUS_REDUNDANT = s.twnRedundant := by
  rw [twnUpdate_eq, on_setF_bool _ _ _ (by decide) rfl]

/-- The role lies below the bits that are updated. -/
theorem role_twnUpdate (s : State) : s.twnUpdate.role = s.role := by
  simp only [State.role]
  rw [twnUpdate_eq, f_setF_bits (x := F.TWN_STATUS_REDUNDANT) (y := F.TWN_STATUS_ROLE) _ _ rfl (by decide) (by decide) (by decide),
    f_setF_bits (x := F.TWN_STATUS_HELM_IN) (y := F.TWN_STATUS_ROLE) _ _ rfl (by decide) (by decide) (by decide),
    f_setF_bits (x := F.TWN_STATUS_PARTNER_SYNC) (y := F.TWN_STATUS_ROLE) _ _ rfl (by decide) (by decide) (by decide),
    f_setF_bits (x := F.TWN_STATUS_LINK) (y := F.TWN_STATUS_ROLE) _ _ rfl (by decide) (by decide) (by decide)]

end Sys2Proof.Machine
end

section
/-!
PROOFS. Twin digests (R242, R243).
-/

namespace Sys2Proof.Machine

/-! ## EMPTY_DIGEST_FLIT (R242) -/

/-- A flit takes its place in the replay buffer. -/
def State.flitKept (s : State) (p : Nat) (f : Flit) : State :=
  s.setLink p { s.link p with tx := ((s.link p).tx + 1) % 2 ^ 32, buf := (s.link p).buf ++ [f], lastAdv := if (s.link p).buf = [] then s.clk.ns else (s.link p).lastAdv }

/-- The flit that carries a payload first. -/
def State.newFlit (s : State) (p ty : Nat) (payload : List Nat) : Flit :=
  { ty := ty, seq := (s.link p).tx, ack := 0, nak := false, ackValid := false, mid := 0, payload := payload, crc := 0 }

theorem linkSend_new {s : State} {p : Nat} (ty : Nat) (payload : List Nat) (hup : s.linkUp p = true) (hroom : (s.link p).buf.length < 1024) :
    s.linkSend p ty payload = (s.flitKept p (s.newFlit p ty payload)).putFlit p (s.link p).tx (s.newFlit p ty payload) := by
  simp only [State.linkSend, hup, Bool.not_true, Bool.false_eq_true, if_false, if_pos hroom]
  rfl

/-- The Twin digest flit without entries. -/
def State.roleFlit (s : State) : TwinFlit :=
  { role := s.roleWord, helmOut := s.on F.BIN_STATUS_HELM_OUT, helmIn := s.pins.helmIn, first := s.pins.twinFirst, sync := s.twinSync,
    tag := s.rdn R.TWN_PAIR_TAG, entries := [] }

theorem digestWords_roleFlit (s : State) : ∃ w, digestWords s.roleFlit = [w, s.rdn R.TWN_PAIR_TAG] := ⟨_, rfl⟩

/-- A Twin flit has gone out now. -/
def State.twinSent (s : State) : State := { s with twn := { s.twn with lastTx := s.clk.ns } }

theorem frame_twinSent (s : State) : Frame [] [] [.twn] s s.twinSent := frame_twn s _

theorem sendDigest_nil (s : State) : s.sendDigest [] = (s.linkSend (s.f F.TWN_CTL_PORT) 2 (digestWords s.roleFlit)).twinSent := rfl

/-- A digest flit without entries goes out. -/
theorem emptyDigest_completes {s : State} {p : Nat} (hrole : s.role ≠ 0) (hport : s.f F.TWN_CTL_PORT = p) (hup : s.linkUp p = true)
    (hroom : (s.link p).buf.length < 1024) :
    Completes (.emptyDigestFlit) s fun t => s.twn.lastTx + 4000 ≤ t.clk.ns ∧ t.twn.lastTx = t.clk.ns ∧ (t.link p).tx = ((s.link p).tx + 1) % 2 ^ 32 ∧
      (t.link p).buf.length = (s.link p).buf.length + 1 ∧
      (t.link p).buf.getLast?.map (fun f => [f.ty, f.seq, f.payload.length, f.payload.getD 1 0]) = some [2, (s.link p).tx, 2, s.rdn R.TWN_PAIR_TAG] ∧
      t.rdn (R.CNV_LINK_TX_CNT p) = (s.rdn (R.CNV_LINK_TX_CNT p) + 1) % 2 ^ 32 ∧ t.out.length = 1 ∧ Keeps [R.CNV_LINK_TX_CNT p] [] [.twn, .links, .clk, .out] s t := by
  have hop : s.begin.emptyDigest = (s.begin.toNs (s.twn.lastTx + 4000)).sendDigest [] := by
    rw [State.emptyDigest, if_neg (show ¬ s.begin.role = 0 from hrole)]
    rfl
  have hns := le_toNs s.begin (s.twn.lastTx + 4000)
  have htime := frame_toNs s.begin (s.twn.lastTx + 4000)
  have hlink : (s.begin.toNs (s.twn.lastTx + 4000)).link p = s.link p := htime.link_eq (by simp) p
  have hup' : (s.begin.toNs (s.twn.lastTx + 4000)).linkUp p = true := (congrArg (· == 2) (htime.f_eq (y := F.CNV_LINK_STATUS_B1_0 p) (by simp))).trans hup
  have hport' : (s.begin.toNs (s.twn.lastTx + 4000)).f F.TWN_CTL_PORT = p := (htime.f_eq (by simp)).trans hport
  have htag : (s.begin.toNs (s.twn.lastTx + 4000)).rdn R.TWN_PAIR_TAG = s.rdn R.TWN_PAIR_TAG := htime.rdn_eq (by simp)
  have hcount : (s.begin.toNs (s.twn.lastTx + 4000)).rdn (R.CNV_LINK_TX_CNT p) = s.rdn (R.CNV_LINK_TX_CNT p) := htime.rdn_eq (by simp)
  have hout : (s.begin.toNs (s.twn.lastTx + 4000)).out = [] := rfl
  have hev : (s.begin.toNs (s.twn.lastTx + 4000)).evNow = [] := rfl
  generalize s.begin.toNs (s.twn.lastTx + 4000) = u at *
  obtain ⟨w, hwords⟩ := digestWords_roleFlit u
  rw [sendDigest_nil, hport', linkSend_new 2 _ hup' (by rw [hlink]; exact hroom), hwords] at hop
  have hkept := frame_setLink u p { u.link p with tx := ((u.link p).tx + 1) % 2 ^ 32, buf := (u.link p).buf ++ [u.newFlit p 2 [w, u.rdn R.TWN_PAIR_TAG]],
                                                   lastAdv := if (u.link p).buf = [] then u.clk.ns else (u.link p).lastAdv }
  have hlink' := link_setLink u p { u.link p with tx := ((u.link p).tx + 1) % 2 ^ 32, buf := (u.link p).buf ++ [u.newFlit p 2 [w, u.rdn R.TWN_PAIR_TAG]],
                                                  lastAdv := if (u.link p).buf = [] then u.clk.ns else (u.link p).lastAdv }
  rw [← State.flitKept] at hkept hlink'
  have hout' : (u.flitKept p (u.newFlit p 2 [w, u.rdn R.TWN_PAIR_TAG])).out = u.out := hkept.part (p := .out) (by simp)
  have hev' : (u.flitKept p (u.newFlit p 2 [w, u.rdn R.TWN_PAIR_TAG])).evNow = u.evNow := rfl
  have hseq : (u.newFlit p 2 [w, u.rdn R.TWN_PAIR_TAG]).seq = (s.link p).tx := congrArg LinkSt.tx hlink
  have hpay : (u.newFlit p 2 [w, u.rdn R.TWN_PAIR_TAG]).payload = [w, s.rdn R.TWN_PAIR_TAG] := by rw [State.newFlit, htag]
  have hty : (u.newFlit p 2 [w, u.rdn R.TWN_PAIR_TAG]).ty = 2 := rfl
  generalize u.newFlit p 2 [w, u.rdn R.TWN_PAIR_TAG] = f at *
  have hsent := flitsSent_putFlit (u.flitKept p f) p (u.link p).tx f
  generalize u.flitKept p f = v at *
  generalize v.putFlit p (u.link p).tx f = e at *
  have hclk : u.clk = v.clk := (hkept.part (p := .clk) (by simp)).symm
  have hend := (frame_twinSent e)
  have hlinkEnd : e.twinSent.link p = _ := (hend.link_eq (by simp) p).trans ((hsent.frame.link_eq (by simp) p).trans hlink')
  refine completes_of_frame (op := (·.emptyDigest)) rfl hop ((htime.trans (hkept.trans (hsent.frame.trans hend))).mono (by simp) (by simp) (by simp))
    (.inl ((show e.twinSent.evNow = e.evNow from rfl).trans (hsent.evNow.trans (hev'.trans hev)))) fun hkeeps => ⟨?_, rfl, ?_, ?_, ?_, ?_, ?_, hkeeps⟩
  · exact (hns.trans (le_of_eq (congrArg Clock.ns hclk))).trans hsent.ns
  · exact (congrArg LinkSt.tx hlinkEnd).trans (congrArg (fun l : LinkSt => (l.tx + 1) % 2 ^ 32) hlink)
  · refine (congrArg (fun l : LinkSt => l.buf.length) hlinkEnd).trans ?_
    rw [List.length_append, hlink]
    rfl
  · refine (congrArg (fun l : LinkSt => l.buf.getLast?.map (fun f => [f.ty, f.seq, f.payload.length, f.payload.getD 1 0])) hlinkEnd).trans ?_
    rw [List.getLast?_append_of_ne_nil _ (by simp), List.getLast?_singleton, Option.map_some, hty, hseq, hpay]
    rfl
  · exact (hend.rdn_eq (by simp)).trans (hsent.count.trans (by rw [hkept.rdn_eq (by simp), hcount]))
  · exact (congrArg List.length (hend.part (p := .out) (by simp))).trans (hsent.out.trans (by rw [hout', hout]; rfl))

/-! ## DIGEST_FLIT_RECEIVE (R243) -/

/-- The partner's role word is taken. -/
def State.partnerHeard (s : State) (g : TwinFlit) : State :=
  { s with twn := { s.twn with lastRx := s.clk.ns, lost := false, peer := some { role := g.role, sync := g.sync, first := g.first, tag := g.tag } } }

theorem frame_partnerHeard (s : State) (g : TwinFlit) : Frame [] [] [.twn] s (s.partnerHeard g) := frame_twn s _

/-- An entry whose slice is still to come is kept. -/
def State.entryKept (s : State) (e : TwinEntry) : State := s.setTch e.ch { s.tch e.ch with early := (s.tch e.ch).early ++ [(s.clk.ns, e)] }

theorem takeEntry_early {s : State} {e : TwinEntry} (hrole : s.role = 2) (htwin : s.twinned e.ch = true) (hjobs : s.allJobs = []) (hown : (s.tch e.ch).own = []) :
    s.takeEntry e = s.entryKept e := by
  have hsame : s.helmSizes e = s := by rw [State.helmSizes, hjobs]; rfl
  have hclaim : ¬ s.role = 3 := by omega
  simp only [State.takeEntry, htwin, Bool.not_true, Bool.false_eq_true, if_false, if_neg hclaim, if_pos hrole, hsame]
  split
  case h_1 o ho => rw [hown] at ho; cases ho
  case h_2 => rfl

theorem digestReceive_early {s : State} {g : TwinFlit} {e : TwinEntry} (hrole : s.role = 2) (htag : g.tag = s.rdn R.TWN_PAIR_TAG) (hfirst : g.first ≠ s.pins.twinFirst)
    (hentry : g.entries = [e]) : s.digestReceive g = (s.partnerHeard g).twnUpdate.takeEntry e := by
  have hon : ¬ s.role = 0 := by omega
  have htagGood : (g.tag != s.rdn R.TWN_PAIR_TAG) = false := by rw [htag, bne_self_eq_false]
  have hstrapGood : (g.first == s.pins.twinFirst) = false := beq_eq_false_iff_ne.mpr hfirst
  have hshape : s.digestReceive g = (fun t : State => g.entries.foldl State.takeEntry
      (if (g.role == 2 || g.role == 3) && (t.role == 3 || t.role == 4) then t.contend else t)) (s.partnerHeard g).twnUpdate := by
    simp only [State.digestReceive, if_neg hon, htagGood, hstrapGood, Bool.false_and, Bool.false_eq_true, if_false, Bool.or_self]
    rfl
  have hrole' : (s.partnerHeard g).twnUpdate.role = 2 := (role_twnUpdate _).trans hrole
  rw [hshape, hentry]
  simp only [hrole', Nat.reduceBEq, Bool.or_self, Bool.and_false, Bool.false_eq_true, if_false, List.foldl_cons, List.foldl_nil]

/-! ## The hold of a channel -/

/-- A slice that stands alone in the hold and is to be dropped leaves it. -/
theorem drain_dropped {s : State} {c : Nat} {h : HeldSlice} (hhold : (s.tch c).hold = [h]) (hst : h.st = .drop) :
    s.drain c = (s.wrMax R.TWN_HOLD_MAX (s.clk.ns - h.ns)).setTch c { (s.wrMax R.TWN_HOLD_MAX (s.clk.ns - h.ns)).tch c with hold := [] } := by
  have hok : ¬ h.st = .ok := by rw [hst]; decide
  rw [State.drain, hhold, State.drainHold, if_neg hok, if_pos hst, State.drainHold]

theorem find_wait {h : HeldSlice} (hst : h.st = .wait) : [h].find? (fun q => q.st == .wait) = some h := by
  rw [List.find?_cons_of_pos (by rw [hst]; rfl)]

theorem find_late {h : HeldSlice} (hst : h.st = .late) : [h].find? (fun q => q.st == .late) = some h := by
  rw [List.find?_cons_of_pos (by rw [hst]; rfl)]

/-- The held slice `h` stands as `st`. -/
def restand (h : HeldSlice) (st : HoldState) (q : HeldSlice) : HeldSlice := if q.u.k = h.u.k ∧ q.u.slice = h.u.slice then { q with st := st } else q

theorem restand_self (h : HeldSlice) (st : HoldState) : restand h st h = { h with st := st } := if_pos ⟨rfl, rfl⟩

theorem digestTimeout_late {s : State} {n : Nat} {h : HeldSlice} (hrole : s.role = 2) (hhold : (s.tch n).hold = [h]) (hst : h.st = .wait) (hhelm : s.pins.helmIn = true) :
    s.digestTimeout n = ((s.toNs (h.ns + s.f F.TWN_DIG_TO_T_D * 1000)).mapHold n (restand h .late)).twnNote R.TWN_LATE_CNT F.TWN_FLAGS_LATE 0x0C04 n := by
  have hhelm' : (s.toNs (h.ns + s.f F.TWN_DIG_TO_T_D * 1000)).pins.helmIn = true := hhelm
  rw [State.digestTimeout, if_neg (fun hne => hne hrole), hhold, find_wait hst]
  simp only [hhelm', Bool.not_true, Bool.false_and, Bool.false_eq_true, if_false]
  rfl

theorem lateWindowEnd_dropped {s : State} {n : Nat} {h : HeldSlice} (hrole : s.role = 2) (hhold : (s.tch n).hold = [h]) (hst : h.st = .late) :
    s.lateWindowEnd n = (((s.toNs (h.ns + (s.f F.TWN_DIG_TO_T_D * 1000 + 32000))).mapHold n (restand h .drop)).twnNote R.TWN_DISCARD_CNT F.TWN_FLAGS_DISCARD 0x0C05 n).drain n := by
  rw [State.lateWindowEnd, if_neg (fun hne => hne hrole), hhold, find_late hst]
  rfl

/-! ## TWIN_LINK_LOST (R242) -/

/-- The loss of the link is noted. -/
def State.lossNoted (s : State) : State :=
  { ((s.setF F.TWN_FLAGS_LINK_LOST 1).raise 0x0C0A 0) with twn := { ((s.setF F.TWN_FLAGS_LINK_LOST 1).raise 0x0C0A 0).twn with lost := true } }

theorem frame_lossNoted (s : State) : Frame [R.TWN_FLAGS] [] [.twn] s s.lossNoted :=
  (frame_setF s F.TWN_FLAGS_LINK_LOST 1).trans ((frame_raise _ 0x0C0A 0).trans (frame_twn _ _))

theorem twinLinkLost_other {s : State} (hrole : s.role ≠ 0) (hother : s.role ≠ 2) (hlost : s.twn.lost = false) :
    s.twinLinkLost = (s.toNs (s.twn.lastRx + 16000)).lossNoted.twnUpdate := by
  have hkept : (s.toNs (s.twn.lastRx + 16000)).lossNoted.role = s.role :=
    ((frame_toNs s _).trans (frame_lossNoted _)).f_eq (y := F.TWN_STATUS_ROLE) (by simp)
  have hlookout : ((s.toNs (s.twn.lastRx + 16000)).lossNoted.role == 2) = false := by rw [hkept]; exact beq_eq_false_iff_ne.mpr hother
  have hshape : s.twinLinkLost = (fun t : State => (if t.role == 2 then t.twinChans.foldl (fun (t : State) c => t.quiet c 2) t else t).twnUpdate)
      (s.toNs (s.twn.lastRx + 16000)).lossNoted := by
    simp only [State.twinLinkLost, hlost, Bool.or_false, decide_eq_true_eq, if_neg hrole]
    rfl
  rw [hshape]
  simp only [hlookout, Bool.false_eq_true, if_false]

/-- A digest that arrives before its slice. -/
theorem digestReceive_completes {s : State} {g : TwinFlit} {e : TwinEntry} (hrole : s.role = 2) (htag : g.tag = s.rdn R.TWN_PAIR_TAG) (hfirst : g.first ≠ s.pins.twinFirst)
    (hentry : g.entries = [e]) (htwin : s.twinned e.ch = true) (hjobs : s.allJobs = []) (hown : (s.tch e.ch).own = []) :
    Completes (.digestFlitReceive g) s fun t => (t.tch e.ch).early = (s.tch e.ch).early ++ [(s.clk.ns, e)] ∧
      t.twn.peer = some { role := g.role, sync := g.sync, first := g.first, tag := g.tag } ∧ t.twn.lastRx = s.clk.ns ∧ t.twn.lost = false ∧ t.on F.TWN_STATUS_LINK = true ∧
      t.on F.TWN_STATUS_PARTNER_SYNC = g.sync ∧ Keeps [R.TWN_STATUS] [] [.twn] s t := by
  have hheard := frame_partnerHeard s.begin g
  have hshown := frame_twnUpdate (s.begin.partnerHeard g)
  have hpair := hheard.trans hshown
  have htch : (s.begin.partnerHeard g).twnUpdate.tch e.ch = s.tch e.ch := hshown.tch_eq (by simp) e.ch
  have hrole' : (s.begin.partnerHeard g).twnUpdate.role = 2 := (role_twnUpdate _).trans hrole
  have hmask : (s.begin.partnerHeard g).twnUpdate.twinned e.ch = true := by
    have hword : (s.begin.partnerHeard g).twnUpdate.rdn R.TWN_CH_MASK = s.rdn R.TWN_CH_MASK := hpair.rdn_eq (by simp)
    rw [State.twinned, hrole] at htwin
    rw [State.twinned, hrole', hword]
    exact htwin
  have hjobs' : (s.begin.partnerHeard g).twnUpdate.allJobs = [] := by
    have hsame : (s.begin.partnerHeard g).twnUpdate.dis = s.dis := hpair.part (p := .dis) (by simp)
    rw [State.allJobs, hsame]
    exact hjobs
  have hop : s.begin.digestReceive g = (s.begin.partnerHeard g).twnUpdate.entryKept e :=
    (digestReceive_early (s := s.begin) hrole htag hfirst hentry).trans (takeEntry_early hrole' hmask hjobs' (by rw [htch]; exact hown))
  have hlink : (s.begin.partnerHeard g).twnUpdate.on F.TWN_STATUS_LINK = true := by
    have hon : (s.begin.partnerHeard g).role ≠ 0 := by
      rw [show (s.begin.partnerHeard g).role = s.role from rfl, hrole]
      decide
    rw [link_twnUpdate, State.twnLink, decide_eq_true hon]
    rfl
  have hpartner : (s.begin.partnerHeard g).twnUpdate.on F.TWN_STATUS_PARTNER_SYNC = g.sync := partner_twnUpdate _
  have htwn : (s.begin.partnerHeard g).twnUpdate.twn = (s.begin.partnerHeard g).twn := hshown.part (p := .twn) (by simp)
  have hclk : (s.begin.partnerHeard g).twnUpdate.clk = s.clk := hpair.part (p := .clk) (by simp)
  have hev : (s.begin.partnerHeard g).twnUpdate.evNow = [] := evNow_twnUpdate _
  generalize (s.begin.partnerHeard g).twnUpdate = u at *
  have hkept := frame_setTch u e.ch { u.tch e.ch with early := (u.tch e.ch).early ++ [(u.clk.ns, e)] }
  have hearly : ((u.entryKept e).tch e.ch).early = (s.tch e.ch).early ++ [(s.clk.ns, e)] := by
    rw [State.entryKept, tch_setTch, htch, hclk]
  refine completes_of_frame (op := (·.digestReceive g)) rfl hop ((hpair.trans hkept).mono (by simp) (by simp) (by simp)) (.inl hev) fun hkeeps =>
    ⟨hearly, (congrArg TwnSt.peer htwn).trans rfl, (congrArg TwnSt.lastRx htwn).trans rfl, (congrArg TwnSt.lost htwn).trans rfl, hlink, hpartner, hkeeps⟩

/-- The link is lost. -/
theorem twinLinkLost_completes {s : State} (hrole : s.role ≠ 0) (hother : s.role ≠ 2) (hlost : s.twn.lost = false) :
    Completes (.twinLinkLost) s fun t => t.twn.lost = true ∧ t.on F.TWN_FLAGS_LINK_LOST = true ∧
      s.twn.lastRx + 16000 ≤ t.clk.ns ∧ t.on F.TWN_STATUS_LINK = false ∧ t.on F.TWN_STATUS_REDUNDANT = false ∧ t.twn.chs = s.twn.chs ∧ Logged [⟨0x0C0A, 0⟩] s t ∧
      Keeps [R.TWN_FLAGS, R.TWN_STATUS] [] [.twn, .clk, .log] s t := by
  have hop := twinLinkLost_other (s := s.begin) hrole hother hlost
  have hns := le_toNs s.begin (s.twn.lastRx + 16000)
  have htime := frame_toNs s.begin (s.twn.lastRx + 16000)
  have hlogNow : (s.begin.toNs (s.twn.lastRx + 16000)).log = s.log := rfl
  have hevNow : (s.begin.toNs (s.twn.lastRx + 16000)).evNow = [] := rfl
  have htwn : (s.begin.toNs (s.twn.lastRx + 16000)).twn = s.twn := rfl
  rw [show s.begin.twn = s.twn from rfl] at hop
  generalize s.begin.toNs (s.twn.lastRx + 16000) = u at *
  have hnoted := frame_lossNoted u
  have hflag : u.lossNoted.on F.TWN_FLAGS_LINK_LOST = true := on_setF_same u F.TWN_FLAGS_LINK_LOST (by decide) rfl
  have hgone : u.lossNoted.twn.lost = true := rfl
  have hchs : u.lossNoted.twn.chs = s.twn.chs := (show u.lossNoted.twn.chs = u.twn.chs from rfl).trans (congrArg TwnSt.chs htwn)
  have hev : u.lossNoted.evNow = [⟨0x0C0A, 0⟩] := congrArg (· ++ [(⟨0x0C0A, 0⟩ : Ev)]) hevNow
  have hlog : u.lossNoted.log = s.log := hlogNow
  have hclk : u.lossNoted.clk = u.clk := hnoted.part (p := .clk) (by simp)
  generalize u.lossNoted = v at *
  have hshown := frame_twnUpdate v
  have hlink : v.twnLink = false := by rw [State.twnLink, hgone, Bool.not_true, Bool.and_false]
  have hredundant : v.twnRedundant = false := by
    rw [State.twnRedundant, hlink]
    simp only [Bool.false_and, ite_self]
  have hlinkEnd := (link_twnUpdate v).trans hlink
  have hredEnd := (redundant_twnUpdate v).trans hredundant
  have hevEnd := (evNow_twnUpdate v).trans hev
  generalize v.twnUpdate = e at *
  have htwnEnd : e.twn = v.twn := hshown.part (p := .twn) (by simp)
  have hlogEnd : e.log = s.log := (hshown.part (p := .log) (by simp)).trans hlog
  have hclkEnd : e.clk = u.clk := (hshown.part (p := .clk) (by simp)).trans hclk
  refine completes_of_frame (op := (·.twinLinkLost)) rfl hop ((htime.trans (hnoted.trans hshown)).mono (by simp) (by simp) (by simp)) (.inr (by simp)) fun hkeeps =>
    ⟨(congrArg TwnSt.lost htwnEnd).trans hgone, (hshown.on_eq (y := F.TWN_FLAGS_LINK_LOST) (by simp)).trans hflag, ?_, hlinkEnd, hredEnd,
      (congrArg TwnSt.chs htwnEnd).trans hchs, finish_logged (by rw [hevEnd]; rfl) (by rw [hlogEnd]; exact ⟨rfl, rfl⟩) (by simp) (by simp), hkeeps⟩
  rw [finish_clk, hclkEnd]
  exact hns

/-- A waiting slice is late. -/
theorem digestTimeout_completes {s : State} {n : Nat} {h : HeldSlice} (hn : n < 32) (hrole : s.role = 2) (hhold : (s.tch n).hold = [h]) (hst : h.st = .wait)
    (hhelm : s.pins.helmIn = true) :
    Completes (.digestTimeout n) s fun t => (t.tch n).hold = [{ h with st := .late }] ∧ h.ns + s.f F.TWN_DIG_TO_T_D * 1000 ≤ t.clk.ns ∧
      t.rdn R.TWN_LATE_CNT = (s.rdn R.TWN_LATE_CNT + 1) % 2 ^ 32 ∧ t.on F.TWN_FLAGS_LATE = true ∧ Logged [⟨0x0C04, n⟩] s t ∧
      Keeps [R.TWN_LATE_CNT, R.TWN_FLAGS] [] [.twn, .clk, .log] s t := by
  have hop : s.begin.idx n 32 (fun s => s.digestTimeout n) = _ := (idx_of_lt hn).trans (digestTimeout_late (s := s.begin) hrole hhold hst hhelm)
  rw [show s.begin.f F.TWN_DIG_TO_T_D = s.f F.TWN_DIG_TO_T_D from rfl] at hop
  have hns := le_toNs s.begin (h.ns + s.f F.TWN_DIG_TO_T_D * 1000)
  have htime := frame_toNs s.begin (h.ns + s.f F.TWN_DIG_TO_T_D * 1000)
  have hlog : (s.begin.toNs (h.ns + s.f F.TWN_DIG_TO_T_D * 1000)).log = s.log := rfl
  have hev : (s.begin.toNs (h.ns + s.f F.TWN_DIG_TO_T_D * 1000)).evNow = [] := rfl
  have htch : (s.begin.toNs (h.ns + s.f F.TWN_DIG_TO_T_D * 1000)).tch n = s.tch n := rfl
  generalize s.begin.toNs (h.ns + s.f F.TWN_DIG_TO_T_D * 1000) = u at *
  have hheld := frame_mapHold u n (restand h .late)
  have hholdNow := hold_mapHold u n (restand h .late)
  have hev' : (u.mapHold n (restand h .late)).evNow = [] := hev
  rw [htch, hhold, List.map_singleton, restand_self] at hholdNow
  generalize u.mapHold n (restand h .late) = v at *
  have hnote := frame_twnNote v R.TWN_LATE_CNT F.TWN_FLAGS_LATE 0x0C04 n
  have hcount := count_twnNote v (cnt := R.TWN_LATE_CNT) (flag := F.TWN_FLAGS_LATE) 0x0C04 n (by decide)
  have hflag := flag_twnNote v R.TWN_LATE_CNT (flag := F.TWN_FLAGS_LATE) 0x0C04 n (by decide) rfl
  have hevEnd := evNow_twnNote v R.TWN_LATE_CNT F.TWN_FLAGS_LATE 0x0C04 n
  generalize v.twnNote R.TWN_LATE_CNT F.TWN_FLAGS_LATE 0x0C04 n = e at *
  have hlogEnd : e.log = s.log := (hnote.part (p := .log) (by simp)).trans ((hheld.part (p := .log) (by simp)).trans hlog)
  have hclkEnd : e.clk = u.clk := (hnote.part (p := .clk) (by simp)).trans (hheld.part (p := .clk) (by simp))
  refine completes_of_frame (op := (·.idx n 32 fun s => s.digestTimeout n)) rfl hop ((htime.trans (hheld.trans hnote)).mono (by simp) (by simp) (by simp)) (.inr (by simp))
    fun hkeeps => ⟨(congrArg TwinCh.hold (hnote.tch_eq (by simp) n)).trans hholdNow, ?_, hcount.trans ?_, hflag,
      finish_logged (by rw [hevEnd, hev']; rfl) (by rw [hlogEnd]; exact ⟨rfl, rfl⟩) (by simp) (by simp; omega), hkeeps⟩
  · rw [finish_clk, hclkEnd]
    exact hns
  · rw [hheld.rdn_eq (by simp), htime.rdn_eq (by simp)]
    rfl

/-- A late slice is discarded. -/
theorem lateWindowEnd_completes {s : State} {n : Nat} {h : HeldSlice} (hn : n < 32) (hrole : s.role = 2) (hhold : (s.tch n).hold = [h]) (hst : h.st = .late) :
    Completes (.lateWindowEnd n) s fun t => (t.tch n).hold = [] ∧
      h.ns + s.f F.TWN_DIG_TO_T_D * 1000 + 32000 ≤ t.clk.ns ∧ t.rdn R.TWN_DISCARD_CNT = (s.rdn R.TWN_DISCARD_CNT + 1) % 2 ^ 32 ∧ t.on F.TWN_FLAGS_DISCARD = true ∧
      Logged [⟨0x0C05, n⟩] s t ∧ Keeps [R.TWN_DISCARD_CNT, R.TWN_FLAGS, R.TWN_HOLD_MAX] [] [.twn, .clk, .log] s t := by
  have hop : s.begin.idx n 32 (fun s => s.lateWindowEnd n) = _ := (idx_of_lt hn).trans (lateWindowEnd_dropped (s := s.begin) hrole hhold hst)
  rw [show s.begin.f F.TWN_DIG_TO_T_D = s.f F.TWN_DIG_TO_T_D from rfl] at hop
  have hns := le_toNs s.begin (h.ns + (s.f F.TWN_DIG_TO_T_D * 1000 + 32000))
  have htime := frame_toNs s.begin (h.ns + (s.f F.TWN_DIG_TO_T_D * 1000 + 32000))
  have hlog : (s.begin.toNs (h.ns + (s.f F.TWN_DIG_TO_T_D * 1000 + 32000))).log = s.log := rfl
  have hev : (s.begin.toNs (h.ns + (s.f F.TWN_DIG_TO_T_D * 1000 + 32000))).evNow = [] := rfl
  have htch : (s.begin.toNs (h.ns + (s.f F.TWN_DIG_TO_T_D * 1000 + 32000))).tch n = s.tch n := rfl
  generalize s.begin.toNs (h.ns + (s.f F.TWN_DIG_TO_T_D * 1000 + 32000)) = u at *
  have hheld := frame_mapHold u n (restand h .drop)
  have hholdNow := hold_mapHold u n (restand h .drop)
  have hev' : (u.mapHold n (restand h .drop)).evNow = [] := hev
  rw [htch, hhold, List.map_singleton, restand_self] at hholdNow
  generalize u.mapHold n (restand h .drop) = v at *
  have hnote := frame_twnNote v R.TWN_DISCARD_CNT F.TWN_FLAGS_DISCARD 0x0C05 n
  have hcount := count_twnNote v (cnt := R.TWN_DISCARD_CNT) (flag := F.TWN_FLAGS_DISCARD) 0x0C05 n (by decide)
  have hflag := flag_twnNote v R.TWN_DISCARD_CNT (flag := F.TWN_FLAGS_DISCARD) 0x0C05 n (by decide) rfl
  have hevNote := evNow_twnNote v R.TWN_DISCARD_CNT F.TWN_FLAGS_DISCARD 0x0C05 n
  generalize v.twnNote R.TWN_DISCARD_CNT F.TWN_FLAGS_DISCARD 0x0C05 n = w at *
  rw [drain_dropped ((congrArg TwinCh.hold (hnote.tch_eq (by simp) n)).trans hholdNow) rfl] at hop
  have hmax := frame_wrMax w R.TWN_HOLD_MAX (w.clk.ns - h.ns)
  have hevMax : (w.wrMax R.TWN_HOLD_MAX (w.clk.ns - h.ns)).evNow = w.evNow := by
    unfold State.wrMax
    split <;> rfl
  dsimp only at hop
  generalize w.wrMax R.TWN_HOLD_MAX (w.clk.ns - h.ns) = x at *
  have hempty := frame_setTch x n { x.tch n with hold := [] }
  have hholdEnd : ((x.setTch n { x.tch n with hold := [] }).tch n).hold = [] := by rw [tch_setTch]
  have hevEnd : (x.setTch n { x.tch n with hold := [] }).evNow = x.evNow := rfl
  generalize x.setTch n { x.tch n with hold := [] } = e at *
  have hlast := hmax.trans hempty
  have hlogEnd : e.log = s.log := (hlast.part (p := .log) (by simp)).trans ((hnote.part (p := .log) (by simp)).trans ((hheld.part (p := .log) (by simp)).trans hlog))
  have hclkEnd : e.clk = u.clk := (hlast.part (p := .clk) (by simp)).trans ((hnote.part (p := .clk) (by simp)).trans (hheld.part (p := .clk) (by simp)))
  refine completes_of_frame (op := (·.idx n 32 fun s => s.lateWindowEnd n)) rfl hop ((htime.trans (hheld.trans (hnote.trans hlast))).mono (by simp) (by simp) (by simp))
    (.inr (by simp)) fun hkeeps => ⟨hholdEnd, ?_, (hlast.rdn_eq (by simp)).trans (hcount.trans ?_), (hlast.on_eq (y := F.TWN_FLAGS_DISCARD) (by simp)).trans hflag,
      finish_logged (by rw [hevEnd, hevMax, hevNote, hev']; rfl) (by rw [hlogEnd]; exact ⟨rfl, rfl⟩) (by simp) (by simp; omega), hkeeps⟩
  · rw [finish_clk, hclkEnd, Nat.add_assoc]
    exact hns
  · rw [hheld.rdn_eq (by simp), htime.rdn_eq (by simp)]
    rfl

/-- Settles O26: the empty digest flit, an early digest, a lost link, a slice that is late and one that is discarded. -/
theorem twinDigestCommandsComplete : Obligations.TwinDigestCommandsComplete := by
  unfold Obligations.TwinDigestCommandsComplete
  exact ⟨fun s p hrole hport hup hroom => emptyDigest_completes hrole hport hup hroom,
    fun s g e hrole htag hfirst hentry htwin hjobs hown => digestReceive_completes hrole htag hfirst hentry htwin hjobs hown,
    fun s hrole hother hlost => twinLinkLost_completes hrole hother hlost,
    fun s n h hn hrole hhold hst hhelm => digestTimeout_completes hn hrole hhold hst hhelm,
    fun s n h hn hrole hhold hst => lateWindowEnd_completes hn hrole hhold hst⟩

end Sys2Proof.Machine
end

section
/-!
PROOFS. The Cycle record (R245, R246, R249), and channels that come back to LOOKOUT (R254).
-/

namespace Sys2Proof.Machine

/-! ## CYCLE_RECORD_CUT (R245) -/

/-- The record `w` is cut at `v`. -/
def State.recordCut (s : State) (w : List Nat) (v : Nat) : State :=
  { (s.wrn R.TWN_REC_WORDS w.length) with twn := { (s.wrn R.TWN_REC_WORDS w.length).twn with own := some (v, w), adopted := false } }

theorem frame_recordCut (s : State) (w : List Nat) (v : Nat) : Frame [R.TWN_REC_WORDS] [] [.twn] s (s.recordCut w v) := (frame_wrn s _ _).trans (frame_twn _ _)

theorem words_recordCut (s : State) (w : List Nat) (v : Nat) : (s.recordCut w v).rdn R.TWN_REC_WORDS = w.length % 2 ^ 32 := by
  rw [(frame_twn (s.wrn R.TWN_REC_WORDS w.length) _).rdn_eq (by simp) (t := s.recordCut w v), rdn_wrn_same]

/-- Time stands where the clock `q` says. -/
def State.timed (s : State) (q : Clock) : State := { s with clk := q }

theorem frame_timed (s : State) (q : Clock) : Frame [] [] [.clk] s (s.timed q) := frame_clk s q

/-- What becomes of a record that has been cut: a Helm sends it. -/
def State.recordSent (s : State) (w : List Nat) : State :=
  if s.role = 4 && !s.hasGivenUp then
    { ((cut61 w.length w).foldl (fun (t : State) l => t.linkSend (t.f F.TWN_CTL_PORT) 1 l) s) with
      twn := { ((cut61 w.length w).foldl (fun (t : State) l => t.linkSend (t.f F.TWN_CTL_PORT) 1 l) s).twn with
        recSeq := ((cut61 w.length w).foldl (fun (t : State) l => t.linkSend (t.f F.TWN_CTL_PORT) 1 l) s).twn.recSeq + 1 } }
  else s

/-- The record that is built at the clock `q`. -/
def State.recordAt (s : State) (q : Clock) : List Nat := (s.timed q).buildRecord ((q.frame + 2 ^ 48 - 1) % 2 ^ 48) q.vpos

theorem cycleCut_eq {s : State} {q : Clock} (h : s.toPhase 0 0 = some (s.timed q)) :
    s.cycleCut = ((s.timed q).recordCut (s.recordAt q) q.vpos).recordSent (s.recordAt q) := by
  rw [State.cycleCut, h]
  rfl

theorem recordAt_begin (s : State) (q : Clock) : s.begin.recordAt q = ({ s with clk := q } : State).buildRecord ((q.frame + 2 ^ 48 - 1) % 2 ^ 48) q.vpos := rfl

theorem cut61_single {w : List Nat} (hw : w ≠ []) (h : w.length ≤ 61) : cut61 w.length w = [w] := by
  obtain ⟨n, hn⟩ : ∃ n, w.length = n + 1 := ⟨w.length - 1, by have hpos := List.length_pos_iff.mpr hw; omega⟩
  have hrest : cut61 n (w.drop 61) = [] := by
    rw [List.drop_eq_nil_of_le h]
    cases n <;> rfl
  rw [hn, cut61, if_neg hw, List.take_of_length_le h, hrest]

theorem recordAt_ne_nil (s : State) (q : Clock) : s.recordAt q ≠ [] := List.append_ne_nil_of_right_ne_nil _ (List.cons_ne_nil _ _)

/-- A Lookout cuts its record and sends nothing. -/
theorem cycleCut_lookout {s : State} {w : List Nat} {q : Clock} (hphase : s.begin.toPhase 0 0 = some (s.begin.timed q)) (hrole : s.role = 2) (hw : w = s.begin.recordAt q) :
    Completes (.cycleRecordCut) s fun t => t.twn.own = some (q.vpos, w) ∧
      t.twn.adopted = false ∧ t.rdn R.TWN_REC_WORDS = w.length % 2 ^ 32 ∧ t.twn.recSeq = s.twn.recSeq ∧ t.clk = q ∧ Keeps [R.TWN_REC_WORDS] [] [.twn, .clk] s t := by
  have hop := cycleCut_eq hphase
  rw [← hw] at hop
  have htime := frame_timed s.begin q
  have hrole' : (s.begin.timed q).role = 2 := hrole
  have hev : (s.begin.timed q).evNow = [] := rfl
  have hseq : (s.begin.timed q).twn.recSeq = s.twn.recSeq := rfl
  have hclk : (s.begin.timed q).clk = q := rfl
  generalize s.begin.timed q = u at *
  have hcut := frame_recordCut u w q.vpos
  have hwords := words_recordCut u w q.vpos
  have hroleCut : ¬ (decide ((u.recordCut w q.vpos).role = 4) && !(u.recordCut w q.vpos).hasGivenUp) = true := by
    rw [show (u.recordCut w q.vpos).role = 2 from (hcut.f_eq (y := F.TWN_STATUS_ROLE) (by simp)).trans hrole']
    exact Bool.false_ne_true
  rw [State.recordSent, if_neg hroleCut] at hop
  exact completes_of_frame (op := (·.cycleCut)) rfl hop ((htime.trans hcut).mono (by simp) (by simp) (by simp)) (.inl hev) fun hkeeps =>
    ⟨rfl, rfl, hwords, hseq, (hcut.part (p := .clk) (by simp)).trans hclk, hkeeps⟩

/-- One more record has gone out. -/
def State.seqTaken (s : State) : State := { s with twn := { s.twn with recSeq := s.twn.recSeq + 1 } }

theorem frame_seqTaken (s : State) : Frame [] [] [.twn] s s.seqTaken := frame_twn s _

theorem recordSent_helm {s : State} {w : List Nat} (hrole : s.role = 4) (hheld : s.hasGivenUp = false) (hw : w ≠ []) (hlen : w.length ≤ 61) :
    s.recordSent w = (s.linkSend (s.f F.TWN_CTL_PORT) 1 w).seqTaken := by
  have hsends : (decide (s.role = 4) && !s.hasGivenUp) = true := by rw [hrole, hheld]; rfl
  rw [State.recordSent, if_pos hsends, cut61_single hw hlen]
  rfl

/-- A payload that finds room goes out at once. -/
structure FlitTaken (p ty : Nat) (payload : List Nat) (s t : State) : Prop where
  frame : Frame [R.CNV_LINK_TX_CNT p] [] [.links, .clk, .out] s t
  last : (t.link p).buf.getLast?.map (fun f => (f.ty, f.seq, f.payload)) = some (ty, (s.link p).tx, payload)
  out : t.out.length = s.out.length + 1
  evNow : t.evNow = s.evNow
  clk : t.clk = s.clk

theorem flitTaken_linkSend {s : State} {p : Nat} (ty : Nat) (payload : List Nat) (hup : s.linkUp p = true) (hroom : (s.link p).buf.length < 1024) :
    FlitTaken p ty payload s (s.linkSend p ty payload) := by
  rw [linkSend_new ty payload hup hroom]
  have hkept : Frame [] [] [.links] s (s.flitKept p (s.newFlit p ty payload)) := frame_setLink s p _
  have hlink : (s.flitKept p (s.newFlit p ty payload)).link p = _ := link_setLink s p _
  have hev : (s.flitKept p (s.newFlit p ty payload)).evNow = s.evNow := rfl
  have hclk : ((s.flitKept p (s.newFlit p ty payload)).putFlit p (s.link p).tx (s.newFlit p ty payload)).clk = s.clk := rfl
  have hsent := flitsSent_putFlit (s.flitKept p (s.newFlit p ty payload)) p (s.link p).tx (s.newFlit p ty payload)
  generalize s.flitKept p (s.newFlit p ty payload) = u at *
  generalize u.putFlit p (s.link p).tx (s.newFlit p ty payload) = e at *
  refine ⟨(hkept.trans hsent.frame).mono (by simp) (by simp) (by simp), ?_, hsent.out.trans (by rw [hkept.part (p := .out) (by simp)]), hsent.evNow.trans hev, hclk⟩
  refine (congrArg (fun l : LinkSt => l.buf.getLast?.map (fun f => (f.ty, f.seq, f.payload))) ((hsent.frame.link_eq (by simp) p).trans hlink)).trans ?_
  rw [List.getLast?_append_of_ne_nil _ (by simp), List.getLast?_singleton, Option.map_some]
  rfl

/-- A Helm cuts its record and sends it. -/
theorem cycleCut_helm {s : State} {w : List Nat} {p : Nat} {q : Clock} (hphase : s.begin.toPhase 0 0 = some (s.begin.timed q)) (hrole : s.role = 4)
    (hheld : s.hasGivenUp = false) (hport : s.f F.TWN_CTL_PORT = p) (hup : s.linkUp p = true) (hroom : (s.link p).buf.length < 1024) (hw : w = s.begin.recordAt q)
    (hlen : w.length ≤ 61) :
    Completes (.cycleRecordCut) s fun t => t.twn.own = some (q.vpos, w) ∧ t.twn.recSeq = s.twn.recSeq + 1 ∧
      (t.link p).buf.getLast?.map (fun f => (f.ty, f.seq, f.payload)) = some (1, (s.link p).tx, w) ∧ t.out.length = 1 ∧ t.rdn R.TWN_REC_WORDS = w.length % 2 ^ 32 ∧
      t.clk = q ∧ Keeps [R.TWN_REC_WORDS, R.CNV_LINK_TX_CNT p] [] [.twn, .links, .comp, .clk, .out] s t := by
  have hsome : w ≠ [] := hw ▸ recordAt_ne_nil s.begin q
  have hop := cycleCut_eq hphase
  rw [← hw] at hop
  have htime := frame_timed s.begin q
  have hclk : (s.begin.timed q).clk = q := rfl
  have hev : (s.begin.timed q).evNow = [] := rfl
  have hout : (s.begin.timed q).out = [] := rfl
  have htwn : (s.begin.timed q).twn = s.twn := rfl
  have hroleNow : (s.begin.timed q).role = 4 := hrole
  have hheldNow : (s.begin.timed q).hasGivenUp = false := hheld
  have hportNow : (s.begin.timed q).f F.TWN_CTL_PORT = p := hport
  have hupNow : (s.begin.timed q).linkUp p = true := hup
  have hlinkNow : (s.begin.timed q).link p = s.link p := rfl
  generalize s.begin.timed q = u at *
  have hcut := frame_recordCut u w q.vpos
  have hwords := words_recordCut u w q.vpos
  have hown : (u.recordCut w q.vpos).twn.own = some (q.vpos, w) := rfl
  have hseq : (u.recordCut w q.vpos).twn.recSeq = u.twn.recSeq := rfl
  have hevCut : (u.recordCut w q.vpos).evNow = u.evNow := rfl
  generalize u.recordCut w q.vpos = v at *
  have hrole' : v.role = 4 := (hcut.f_eq (y := F.TWN_STATUS_ROLE) (by simp)).trans hroleNow
  have hheld' : v.hasGivenUp = false := (hcut.on_eq (y := F.BIN_STATUS_GIVEN_UP) (by simp)).trans hheldNow
  have hport' : v.f F.TWN_CTL_PORT = p := (hcut.f_eq (by simp)).trans hportNow
  have hup' : v.linkUp p = true := (congrArg (· == 2) (hcut.f_eq (y := F.CNV_LINK_STATUS_B1_0 p) (by simp [R.CNV_LINK_STATUS, R.TWN_REC_WORDS]; omega))).trans hupNow
  have hlink' : v.link p = s.link p := (hcut.link_eq (by simp) p).trans hlinkNow
  rw [recordSent_helm hrole' hheld' hsome hlen, hport'] at hop
  obtain ⟨hflit, hlast, hone, hevSent, hclkSent⟩ := flitTaken_linkSend 1 w hup' (by rw [hlink']; exact hroom)
  generalize v.linkSend p 1 w = e at *
  have hend := frame_seqTaken e
  have htwnEnd : e.seqTaken.twn = { v.twn with recSeq := v.twn.recSeq + 1 } := by
    rw [State.seqTaken, show e.twn = v.twn from hflit.part (p := .twn) (by simp)]
  refine completes_of_frame (op := (·.cycleCut)) rfl hop ((htime.trans (hcut.trans (hflit.trans hend))).mono (by simp) (by simp) (by simp))
    (.inl ((show e.seqTaken.evNow = e.evNow from rfl).trans (hevSent.trans (hevCut.trans hev)))) fun hkeeps =>
      ⟨(congrArg TwnSt.own htwnEnd).trans hown, (congrArg TwnSt.recSeq htwnEnd).trans ?_,
        (congrArg (fun l : LinkSt => l.buf.getLast?.map (fun f => (f.ty, f.seq, f.payload))) (hend.link_eq (by simp) p)).trans (hlast.trans ?_), ?_,
        ((hflit.trans hend).rdn_eq (by simp [R.CNV_LINK_TX_CNT, R.TWN_REC_WORDS]; omega)).trans hwords,
        (hend.part (p := .clk) (by simp)).trans (hclkSent.trans ((hcut.part (p := .clk) (by simp)).trans hclk)), hkeeps⟩
  · rw [hseq, htwn]
  · rw [hlink']
  · exact (congrArg List.length (hend.part (p := .out) (by simp))).trans (hone.trans (by rw [hcut.part (p := .out) (by simp), hout]; rfl))

/-! ## CYCLE_RECORD_RECEIVE (R245) -/

/-- A Twin flit is heard. -/
def State.twinHeard (s : State) : State := { s with twn := { s.twn with lastRx := s.clk.ns, lost := false } }

theorem frame_twinHeard (s : State) : Frame [] [] [.twn] s s.twinHeard := frame_twn s _

/-- A record is kept until its frame is adopted. -/
def State.recordKept (s : State) (l : List Nat) : State :=
  { s with twn := { s.twn with rx := (s.twn.rx.filter (fun e => decide (recFrame l ≤ e.1 + 1))) ++ [(recFrame l, s.clk.vpos, l)] } }

theorem frame_recordKept (s : State) (l : List Nat) : Frame [] [] [.twn] s (s.recordKept l) := frame_twn s _

theorem cycleReceive_kept {s : State} {l : List Nat} (hrole : s.role ≠ 0) (hgood : recGood l = true) (htag : l.getD 4 0 = s.twinHeard.twnUpdate.rdn R.TWN_PAIR_TAG)
    (hlate : s.twinHeard.twnUpdate.twn.late = none) : s.cycleReceive l = s.twinHeard.twnUpdate.recordKept l := by
  have hshape : s.cycleReceive l = (fun t : State => if (!recGood l || l.getD 4 0 != t.rdn R.TWN_PAIR_TAG) = true then t
      else match t.twn.late.filter (fun e => e.1 == recFrame l) with
        | some e => t.lateCompare e.2 l
        | none => t.recordKept l) s.twinHeard.twnUpdate := by
    rw [State.cycleReceive, if_neg hrole]
    rfl
  rw [hshape]
  simp only [hgood, htag, hlate, Bool.not_true, Bool.false_or, bne_self_eq_false, Bool.false_eq_true, if_false, Option.filter_none]

/-- A good record is kept. -/
theorem cycleReceive_completes {s : State} {w : List Nat} (hrole : s.role ≠ 0) (hgood : recGood w = true) (htag : w.getD 4 0 = s.rdn R.TWN_PAIR_TAG)
    (hlate : s.twn.late = none) :
    Completes (.cycleRecordReceive w) s fun t => t.twn.rx = (s.twn.rx.filter (fun e => decide (recFrame w ≤ e.1 + 1))) ++ [(recFrame w, s.clk.vpos, w)] ∧
      t.twn.lastRx = s.clk.ns ∧ t.twn.lost = false ∧ t.twn.chs = s.twn.chs ∧ Keeps [R.TWN_STATUS] [] [.twn] s t := by
  have hheard := frame_twinHeard s.begin
  have hshown := frame_twnUpdate s.begin.twinHeard
  have htwn : s.begin.twinHeard.twnUpdate.twn = { s.twn with lastRx := s.clk.ns, lost := false } := hshown.part (p := .twn) (by simp)
  have hclk : s.begin.twinHeard.twnUpdate.clk = s.clk := (hheard.trans hshown).part (p := .clk) (by simp)
  have hword : s.begin.twinHeard.twnUpdate.rdn R.TWN_PAIR_TAG = s.rdn R.TWN_PAIR_TAG := (hheard.trans hshown).rdn_eq (by simp)
  have hev : s.begin.twinHeard.twnUpdate.evNow = [] := evNow_twnUpdate _
  have hop := cycleReceive_kept (s := s.begin) hrole hgood (htag.trans hword.symm) ((congrArg TwnSt.late htwn).trans hlate)
  generalize s.begin.twinHeard.twnUpdate = u at *
  have hkept := frame_recordKept u w
  have htwnEnd : (u.recordKept w).twn = { u.twn with rx := (u.twn.rx.filter (fun e => decide (recFrame w ≤ e.1 + 1))) ++ [(recFrame w, u.clk.vpos, w)] } := rfl
  rw [htwn, hclk] at htwnEnd
  exact completes_of_frame (op := (·.cycleReceive w)) rfl hop ((hheard.trans (hshown.trans hkept)).mono (by simp) (by simp) (by simp)) (.inl hev) fun hkeeps =>
    ⟨(congrArg TwnSt.rx htwnEnd).trans rfl, (congrArg TwnSt.lastRx htwnEnd).trans rfl, (congrArg TwnSt.lost htwnEnd).trans rfl, (congrArg TwnSt.chs htwnEnd).trans rfl, hkeeps⟩

/-! ## CHANNEL_RESYNC (R254) -/

/-- Channel `n` is LOOKOUT again. -/
def State.rejoined (s : State) (n : Nat) : State :=
  ((s.setTch n { s.tch n with resync := false, pics := [] }).setF (F.TWN_CH_STATUS_STATE n) 1).raise 0x0C07 n

theorem frame_rejoined (s : State) (n : Nat) : Frame [R.TWN_CH_STATUS n] [] [.twn] s (s.rejoined n) :=
  (frame_setTch s n _).trans ((frame_setF _ (F.TWN_CH_STATUS_STATE n) 1).trans (frame_raise _ _ _))

theorem tch_rejoined (s : State) (n : Nat) : (s.rejoined n).tch n = { s.tch n with resync := false, pics := [] } :=
  (((frame_setF _ (F.TWN_CH_STATUS_STATE n) 1).trans (frame_raise _ 0x0C07 n)).tch_eq (by simp) n).trans (tch_setTch s n _)

theorem state_rejoined (s : State) (n : Nat) : (s.rejoined n).twinState n = 1 := by
  rw [State.twinState, State.rejoined, f_raise, f_setF_same _ (F.TWN_CH_STATUS_STATE n) 1 (by decide : 1 < 32)]
  rfl

theorem channelResync_eq {s t : State} {n k v : Nat} (hrole : s.role = 2) (hquiet : s.twinState n = 3) (hsync : (s.tch n).resync = true)
    (hstart : s.toChanStart 2 n = some (t, k, v)) : s.channelResync n = (t.rejoined n).twnUpdate := by
  simp only [State.channelResync, hrole, hquiet, hsync, hstart, ne_eq, not_true_eq_false, decide_false, Bool.not_true, Bool.or_self, Bool.false_eq_true, if_false]
  rfl

/-- A channel that has matched enough pictures. -/
theorem channelResync_completes {s : State} {n k v : Nat} {q : Clock} (hn : n < 32) (hrole : s.role = 2) (hquiet : s.twinState n = 3) (hsync : (s.tch n).resync = true)
    (hstart : s.begin.toChanStart 2 n = some (s.begin.timed q, k, v)) :
    Completes (.channelResync n) s fun t => t.twinState n = 1 ∧ (t.tch n).resync = false ∧
      (t.tch n).hold = (s.tch n).hold ∧ t.clk = q ∧ Logged [⟨0x0C07, n⟩] s t ∧ Keeps [R.TWN_CH_STATUS n, R.TWN_STATUS] [] [.twn, .clk, .log] s t := by
  have hop : s.begin.idx n 32 (fun s => s.channelResync n) = _ := (idx_of_lt hn).trans (channelResync_eq (s := s.begin) hrole hquiet hsync hstart)
  have htime := frame_timed s.begin q
  have hclk : (s.begin.timed q).clk = q := rfl
  have hevNow : (s.begin.timed q).evNow = [] := rfl
  have hlogNow : (s.begin.timed q).log = s.log := rfl
  have htchNow : (s.begin.timed q).tch n = s.tch n := rfl
  generalize s.begin.timed q = u at *
  have hback := frame_rejoined u n
  have hev : (u.rejoined n).evNow = u.evNow ++ [⟨0x0C07, n⟩] := rfl
  have htch := tch_rejoined u n
  have hstate := state_rejoined u n
  rw [htchNow] at htch
  generalize u.rejoined n = v at *
  have hshown := frame_twnUpdate v
  have hevEnd := evNow_twnUpdate v
  generalize v.twnUpdate = e at *
  have hpair := hback.trans hshown
  have htchEnd := (hshown.tch_eq (by simp) n).trans htch
  refine completes_of_frame (op := (·.idx n 32 fun s => s.channelResync n)) rfl hop ((htime.trans hpair).mono (by simp) (by simp) (by simp)) (.inr (by simp)) fun hkeeps =>
    ⟨(hshown.f_eq (y := F.TWN_CH_STATUS_STATE n) (by simp [R.TWN_CH_STATUS, R.TWN_STATUS]; omega)).trans hstate, (congrArg TwinCh.resync htchEnd).trans rfl, (congrArg TwinCh.hold htchEnd).trans rfl,
      (hpair.part (p := .clk) (by simp)).trans hclk, finish_logged (by rw [hevEnd, hev, hevNow]; rfl) ?_ (by simp) (by simp; omega), hkeeps⟩
  rw [show e.log = s.log from (hpair.part (p := .log) (by simp)).trans hlogNow]
  exact ⟨rfl, rfl⟩

/-! ## CYCLE_RECORD_ADOPT (R112, R246) -/

theorem frame_setCmp (s : State) (c : Nat) (x : CompCh) : Frame [] [] [.comp] s (s.setCmp c x) := frame_comp s _

theorem cmp_setCmp (s : State) (c : Nat) (x : CompCh) : (s.setCmp c x).cmp c = x := Tab.get_put_same _ _ c x

theorem Frame.cmp_eq {regs fns : List Nat} {parts : List Part} {s t : State} (h : Frame regs fns parts s t) (hp : .comp ∉ parts) (c : Nat) : t.cmp c = s.cmp c := by
  have hcomp : t.comp = s.comp := h.part hp
  rw [State.cmp, State.cmp, hcomp]

/-- Set `j` after its flip to `val`. -/
def CompCh.flipped (x : CompCh) (j v : Nat) (val : SetVal) : CompCh := (x.setHist j (x.histOf j ++ [(v, val)])).setPend j none

theorem histOf_flipped (x : CompCh) (j v : Nat) (val : SetVal) : (x.flipped j v val).histOf j = x.histOf j ++ [(v, val)] := Tab.get_put_same _ _ j _

theorem pendOf_flipped (x : CompCh) (j v : Nat) (val : SetVal) : (x.flipped j v val).pendOf j = none := Tab.get_put_same (fun _ => none) _ j none

theorem evals_flipped (x : CompCh) (j v : Nat) (val : SetVal) : (x.flipped j v val).evals = x.evals := rfl

theorem endV_flipped (x : CompCh) (j v : Nat) (val : SetVal) : (x.flipped j v val).endV = x.endV := rfl

/-- A set that flips shows its new state. -/
def State.flipShown (s : State) (c j : Nat) (en : Bool) : State := ((s.setStat c j 0 false).setStat c j 1 en).setStat c j 2 false

theorem frame_flipShown (s : State) (c j : Nat) (en : Bool) : Frame [setStatusReg c j] [] [] s (s.flipShown c j en) :=
  ((frame_setF s ⟨setStatusReg c j, 0, 0⟩ _).trans ((frame_setF _ ⟨setStatusReg c j, 1, 1⟩ _).trans (frame_setF _ ⟨setStatusReg c j, 2, 2⟩ _))).mono
    (by simp) (by simp) (by simp)

theorem pending_flipShown (s : State) (c j : Nat) (en : Bool) : (s.flipShown c j en).f ⟨setStatusReg c j, 0, 0⟩ = 0 := by
  rw [State.flipShown, State.setStat, State.setStat, f_setF_bits (x := ⟨setStatusReg c j, 2, 2⟩) (y := ⟨setStatusReg c j, 0, 0⟩) _ _ rfl (le_refl 2) (by decide : 0 < 32) (.inr (by decide : 0 < 2)),
    f_setF_bits (x := ⟨setStatusReg c j, 1, 1⟩) (y := ⟨setStatusReg c j, 0, 0⟩) _ _ rfl (le_refl 1) (by decide : 0 < 32) (.inr (by decide : 0 < 1)),
    State.setStat, f_setF_same _ ⟨setStatusReg c j, 0, 0⟩ _ (by decide : 0 < 32)]
  rfl

theorem flipSet_eq {s : State} {c j : Nat} {p : PendSet} (v : Nat) (h : (s.cmp c).pendOf j = some p) :
    s.flipSet c j v = (s.setCmp c ((s.cmp c).flipped j v p.val)).flipShown c j p.val.en := by
  rw [State.flipSet, h]
  rfl

/-- What an evaluation does to set `j`. -/
def State.flipOne (c : Nat) (e : FlipEval) (govern : Nat) (s : State) (j : Nat) : State :=
  match (s.cmp c).pendOf j with
  | none => s
  | some p =>
    if bitsOf e.flips j j = 1 then (if p.num = e.nums.getD j 0 then s.flipSet c j govern else s)
    else if bitsOf e.held j j = 1 ∧ p.stamp < e.v then s.holdSet c j (if j = 8 ∧ e.chk = true then 0x0703 else 0x0702)
    else s

theorem flipOne_other {c : Nat} {e : FlipEval} {govern j : Nat} (hflip : bitsOf e.flips j j = 0) (hheld : bitsOf e.held j j = 0) (s : State) :
    State.flipOne c e govern s j = s := by
  rw [State.flipOne, hflip, hheld]
  cases (s.cmp c).pendOf j <;> rfl

theorem flipOne_named {c : Nat} {e : FlipEval} {govern j : Nat} {s : State} {p : PendSet} (hflip : bitsOf e.flips j j = 1) (hpend : (s.cmp c).pendOf j = some p)
    (hnum : p.num = e.nums.getD j 0) : State.flipOne c e govern s j = s.flipSet c j govern := by
  simp only [State.flipOne, hpend, if_pos hflip, if_pos hnum]

/-- The evaluations at `v` are applied. -/
def CompCh.applied (x : CompCh) (v : Nat) : CompCh := { x with evals := x.evals.map (fun (q : FlipEval) => if q.v = v then { q with done := true } else q) }

theorem applyFlips_eq (s : State) (c : Nat) (e : FlipEval) (govern : Nat) : s.applyFlips c e govern =
    (fun t : State => if (t.cmp c).endV.isSome then t else t.retireBefore c (t.compNext c).startV)
      (((List.range 9).foldl (State.flipOne c e govern) s).setCmp c ((((List.range 9).foldl (State.flipOne c e govern) s).cmp c).applied e.v)) := rfl

theorem bitsOf_zero (j : Nat) : bitsOf 0 j j = 0 := by rw [bitsOf_bit, Nat.zero_testBit]; rfl

theorem bitsOf_one (j : Nat) : bitsOf 1 j j = if j = 0 then 1 else 0 := by
  rw [bitsOf_bit, show (1 : Nat) = 2 ^ 0 from rfl, Nat.testBit_two_pow]
  by_cases hj : j = 0
  · rw [if_pos hj, decide_eq_true hj.symm]; rfl
  · rw [if_neg hj, decide_eq_false (Ne.symm hj)]; rfl

/-- A channel that stops flips its set 0 alone. -/
theorem applyFlips_first {s : State} {c : Nat} {e : FlipEval} {govern : Nat} {p : PendSet} (hflips : e.flips = 1) (hheld : e.held = 0)
    (hpend : (s.cmp c).pendOf 0 = some p) (hnum : p.num = e.nums.getD 0 0) (hend : (s.cmp c).endV.isSome = true) :
    s.applyFlips c e govern = (s.flipSet c 0 govern).setCmp c (((s.flipSet c 0 govern).cmp c).applied e.v) := by
  have hother (j : Nat) (hj : j ≠ 0) (t : State) : State.flipOne c e govern t j = t := by
    refine flipOne_other ?_ (by rw [hheld, bitsOf_zero]) t
    rw [hflips, bitsOf_one, if_neg hj]
  have hfirst : State.flipOne c e govern s 0 = s.flipSet c 0 govern := flipOne_named (by rw [hflips]; rfl) hpend hnum
  have hfold : (List.range 9).foldl (State.flipOne c e govern) s = s.flipSet c 0 govern :=
    foldl_eq_of_only (b := 0) (by simp) List.nodup_range hfirst (fun j _ hj => hother j hj s) (fun j _ hj => hother j hj _)
  have hstops : (((s.flipSet c 0 govern).setCmp c (((s.flipSet c 0 govern).cmp c).applied e.v)).cmp c).endV.isSome = true := by
    rw [cmp_setCmp, flipSet_eq govern hpend, (frame_flipShown _ c 0 p.val.en).cmp_eq (by simp) c, cmp_setCmp]
    exact hend
  rw [applyFlips_eq, hfold]
  exact if_pos hstops

/-- The Helm's outcome of the evaluation of the record's frame. -/
def State.helmEval (s : State) (c : Nat) (r : RecSec) (govern : Nat) : FlipEval :=
  { v := (((s.cmp c).evalIn s.clk.fu govern).getD { v := govern }).v, flips := bitsOf (r.w.getD 14 0) 8 0, held := bitsOf (r.w.getD 14 0) 17 9,
    nums := (List.range 9).map (fun j => r.w.getD (15 + j / 2) 0 / 65536 ^ (j % 2) % 65536),
    chk := (((s.cmp c).evalIn s.clk.fu govern).getD {}).chk }

/-- Every set that the Helm flipped is pending here under the same commit number. -/
def State.helmMatches (s : State) (c : Nat) (e : FlipEval) : Bool :=
  (List.range 9).all (fun j => bitsOf e.flips j j == 0 || (match (s.cmp c).pendOf j with | some p => p.num == e.nums.getD j 0 | none => false))

theorem adoptFlips_eq (s : State) (c : Nat) (r : RecSec) (govern : Nat) :
    s.adoptFlips c r govern = (s.applyFlips c (s.helmEval c r govern) govern, s.helmMatches c (s.helmEval c r govern)) := rfl

theorem helmMatches_first {s : State} {c : Nat} {e : FlipEval} {p : PendSet} (hflips : e.flips = 1) (hpend : (s.cmp c).pendOf 0 = some p) (hnum : p.num = e.nums.getD 0 0) :
    s.helmMatches c e = true := by
  refine List.all_eq_true.mpr fun j _ => ?_
  rw [hflips, bitsOf_one]
  by_cases hj : j = 0
  · rw [hj, hpend]
    exact (congrArg (fun b : Bool => _ || b) (beq_iff_eq.mpr hnum)).trans (Bool.or_true _)
  · rw [if_neg hj]
    rfl

theorem num_helmEval (s : State) (c : Nat) (r : RecSec) (govern : Nat) : (s.helmEval c r govern).nums.getD 0 0 = r.w.getD 15 0 % 65536 :=
  congrArg (· % 65536) (Nat.div_one (r.w.getD 15 0))

theorem v_helmEval {s : State} {c : Nat} {r : RecSec} {govern : Nat} {ev : FlipEval} (hevals : (s.cmp c).evals = [ev]) (hfrom : govern ≤ ev.v + s.clk.fu) (hto : ev.v < govern) :
    (s.helmEval c r govern).v = ev.v := by
  have hfind : (s.cmp c).evalIn s.clk.fu govern = some ev := by
    rw [CompCh.evalIn, hevals, List.find?_cons_of_pos (by rw [decide_eq_true hfrom, decide_eq_true hto]; rfl)]
  rw [State.helmEval, hfind, Option.getD_some]

theorem adoptChan_agreed {s : State} {v c : Nat} {o l : List Nat} {r y : RecSec} (hr : recOf l c = some r) (hy : recOf o c = some y) (hagree : y.agree r = true)
    (hcanvas : r.w.getD 23 0 % 2 = 0) (hmatch : s.helmMatches c (s.helmEval c r v) = true) (hstate : (s.applyFlips c (s.helmEval c r v) v).twinState c ≠ 3) :
    s.adoptChan v o l c = s.applyFlips c (s.helmEval c r v) v := by
  have hkept (t : State) : t.adoptCanvas c r = t := if_pos (by rw [decide_eq_true hcanvas, Bool.true_or])
  simp only [State.adoptChan, hr, hy, adoptFlips_eq, hkept, hagree, hmatch, Bool.and_self, if_true, if_pos hstate]

theorem adoptAudio_none {l : List Nat} (h : recAudio l = []) (s : State) (o : List Nat) : s.adoptAudio o l = s := by
  rw [State.adoptAudio, h]
  rfl

/-- The record of this frame is looked for. -/
def State.adoptNow (s : State) : State := { s with twn := { s.twn with adopted := true } }

/-- The records that were received are done. -/
def State.recordsDone (s : State) : State := { s with twn := { s.twn with late := none, rx := [] } }

theorem frame_adoptNow (s : State) : Frame [] [] [.twn] s s.adoptNow := frame_twn s _

theorem frame_recordsDone (s : State) : Frame [] [] [.twn] s s.recordsDone := frame_twn s _

/-- Without the record the own outcomes hold. -/
def State.adoptOwn (s : State) (v : Nat) (own : List Nat) : State :=
  let n := recFrame own
  let s := s.twnNote R.TWN_REC_LATE_CNT F.TWN_FLAGS_REC_LATE 0x0C08 0
  let s := s.twinChans.foldl (fun (t : State) c => match (t.cmp c).evalIn t.clk.fu v with
    | some e => if t.active (fnComp c) then t.applyFlips c e v else t
    | none => t) s
  match s.twn.rx.find? (fun e => e.1 == n) with
  | some e => s.lateCompare own e.2.2
  | none => { s with twn := { s.twn with late := some (n, own) } }

/-- The record that came in time. -/
def State.timelyRec (s : State) (v : Nat) (own : List Nat) : Option (Nat × Nat × List Nat) :=
  s.twn.rx.find? (fun e => e.1 == recFrame own && decide (e.2.1 < v + s.f F.TWN_ADOPT_ADOPT * 65536))

theorem cycleAdopt_eq {s : State} {v st : Nat} {o l : List Nat} {q : Clock} (hown : s.twn.own = some (v, o)) (hrole : s.role = 2) (hnew : s.twn.adopted = false)
    (hpos : s.toPos 1 (v + s.f F.TWN_ADOPT_ADOPT * 65536) = some (s.timed q)) (hrx : s.twn.rx = [(recFrame o, st, l)]) (hst : st < v + s.f F.TWN_ADOPT_ADOPT * 65536) :
    s.cycleAdopt = ((s.timed q).adoptNow.recordsDone.twinChans.foldl (fun (t : State) c => t.adoptChan v o l c) (s.timed q).adoptNow.recordsDone).adoptAudio o l := by
  have hfind : (s.timed q).adoptNow.timelyRec v o = some (recFrame o, st, l) := by
    rw [State.timelyRec, show (s.timed q).adoptNow.twn.rx = [(recFrame o, st, l)] from hrx,
      List.find?_cons_of_pos (by rw [beq_self_eq_true, decide_eq_true (show st < v + (s.timed q).adoptNow.f F.TWN_ADOPT_ADOPT * 65536 from hst)]; rfl)]
  have hon : ¬ (decide (s.role ≠ 2) || s.twn.adopted) = true := by
    rw [hrole, hnew]
    exact Bool.false_ne_true
  have hshape : s.cycleAdopt = match (s.timed q).adoptNow.timelyRec v o with
      | some e => ((s.timed q).adoptNow.recordsDone.twinChans.foldl (fun (t : State) c => t.adoptChan v o e.2.2 c) (s.timed q).adoptNow.recordsDone).adoptAudio o e.2.2
      | none => (s.timed q).adoptNow.adoptOwn v o := by
    simp only [State.cycleAdopt, hown, if_neg hon, hpos]
    rfl
  rw [hshape, hfind]

/-- What an adoption leaves of channel `c` whose set 0 flips to `val`. -/
structure ChanAdopted (c v : Nat) (x : CompCh) (p : PendSet) (ev : FlipEval) (s t : State) : Prop where
  frame : Frame [setStatusReg c 0] [] [.comp] s t
  hist : (t.cmp c).histOf 0 = x.histOf 0 ++ [(v, p.val)]
  pend : (t.cmp c).pendOf 0 = none
  evals : (t.cmp c).evals = [{ ev with done := true }]
  pending : t.f ⟨setStatusReg c 0, 0, 0⟩ = 0
  evNow : t.evNow = s.evNow

theorem applied_adopted {s : State} {c v : Nat} {p : PendSet} {ev : FlipEval} (hpend : (s.cmp c).pendOf 0 = some p) (hevals : (s.cmp c).evals = [ev]) :
    ChanAdopted c v (s.cmp c) p ev s ((s.flipSet c 0 v).setCmp c (((s.flipSet c 0 v).cmp c).applied ev.v)) := by
  rw [flipSet_eq v hpend]
  have hset := frame_setCmp s c ((s.cmp c).flipped 0 v p.val)
  have hcmp := cmp_setCmp s c ((s.cmp c).flipped 0 v p.val)
  have hevSet : (s.setCmp c ((s.cmp c).flipped 0 v p.val)).evNow = s.evNow := rfl
  generalize s.setCmp c ((s.cmp c).flipped 0 v p.val) = u at *
  have hshown := frame_flipShown u c 0 p.val.en
  have hbit := pending_flipShown u c 0 p.val.en
  have hevShown : (u.flipShown c 0 p.val.en).evNow = u.evNow := rfl
  generalize u.flipShown c 0 p.val.en = w at *
  have hcmpNow : w.cmp c = (s.cmp c).flipped 0 v p.val := (hshown.cmp_eq (by simp) c).trans hcmp
  rw [hcmpNow]
  have hlast := frame_setCmp w c (((s.cmp c).flipped 0 v p.val).applied ev.v)
  have hcmpEnd := cmp_setCmp w c (((s.cmp c).flipped 0 v p.val).applied ev.v)
  have hevEnd : (w.setCmp c (((s.cmp c).flipped 0 v p.val).applied ev.v)).evNow = w.evNow := rfl
  generalize w.setCmp c (((s.cmp c).flipped 0 v p.val).applied ev.v) = e at *
  refine ⟨(hset.trans (hshown.trans hlast)).mono (by simp) (by simp) (by simp), ?_, ?_, ?_, (hlast.f_eq (by simp)).trans hbit, hevEnd.trans (hevShown.trans hevSet)⟩
  · rw [hcmpEnd]
    exact histOf_flipped (s.cmp c) 0 v p.val
  · rw [hcmpEnd]
    exact pendOf_flipped (s.cmp c) 0 v p.val
  · rw [hcmpEnd, CompCh.applied, evals_flipped, hevals, List.map_singleton, if_pos rfl]

theorem setStatusReg_zero (c : Nat) : setStatusReg c 0 = R.COMP_CH_L_STATUS c 0 := rfl

/-- One channel adopts the Helm's flip of its set 0. -/
theorem adoptChan_adopted {s : State} {v c : Nat} {o l : List Nat} {r y : RecSec} {p : PendSet} {ev : FlipEval} (hc : c < 32) (hr : recOf l c = some r)
    (hy : recOf o c = some y) (hagree : y.agree r = true) (hflips : bitsOf (r.w.getD 14 0) 8 0 = 1) (hcanvas : r.w.getD 23 0 % 2 = 0) (hheld : r.w.getD 14 0 < 512)
    (hstate : s.twinState c ≠ 3) (hend : (s.cmp c).endV.isSome = true) (hevals : (s.cmp c).evals = [ev]) (hfrom : v ≤ ev.v + s.clk.fu) (hto : ev.v < v)
    (hpend : (s.cmp c).pendOf 0 = some p) (hnum : p.num = r.w.getD 15 0 % 65536) : ChanAdopted c v (s.cmp c) p ev s (s.adoptChan v o l c) := by
  have hnum' : p.num = (s.helmEval c r v).nums.getD 0 0 := hnum.trans (num_helmEval s c r v).symm
  have hheld' : (s.helmEval c r v).held = 0 := by
    show bitsOf (r.w.getD 14 0) 17 9 = 0
    rw [bitsOf, Nat.div_eq_of_lt (show r.w.getD 14 0 < 2 ^ 9 from hheld), Nat.zero_mod]
  have hadopted := applied_adopted (v := v) hpend hevals
  have happly := applyFlips_first (govern := v) hflips hheld' hpend hnum' hend
  rw [v_helmEval hevals hfrom hto] at happly
  rw [← happly] at hadopted
  have hkept : (s.applyFlips c (s.helmEval c r v) v).twinState c ≠ 3 := by
    have hsame : (s.applyFlips c (s.helmEval c r v) v).twinState c = s.twinState c :=
      hadopted.frame.f_eq (y := F.TWN_CH_STATUS_STATE c) (by simp [setStatusReg_zero, R.TWN_CH_STATUS, R.COMP_CH_L_STATUS]; omega)
    rw [hsame]
    exact hstate
  rw [adoptChan_agreed hr hy hagree hcanvas (helmMatches_first hflips hpend hnum') hkept]
  exact hadopted

/-- A Lookout adopts the Helm's record. -/
theorem cycleAdopt_completes {s : State} {c v st : Nat} {o l : List Nat} {x : PendSet} {ev : FlipEval} {r y : RecSec} {q : Clock} (hown : s.twn.own = some (v, o))
    (hrole : s.role = 2) (hnew : s.twn.adopted = false) (hpos : s.begin.toPos 1 (v + s.f F.TWN_ADOPT_ADOPT * 65536) = some (s.begin.timed q))
    (hrx : s.twn.rx = [(recFrame o, st, l)]) (hst : st < v + s.f F.TWN_ADOPT_ADOPT * 65536) (hchans : s.twinChans = [c]) (hr : recOf l c = some r)
    (hy : recOf o c = some y) (hagree : y.agree r = true) (hflips : bitsOf (r.w.getD 14 0) 8 0 = 1) (hcanvas : r.w.getD 23 0 % 2 = 0) (hheld : r.w.getD 14 0 < 512)
    (hstate : s.twinState c ≠ 3) (hend : (s.cmp c).endV.isSome = true) (hevals : (s.cmp c).evals = [ev]) (hfrom : v ≤ ev.v + q.fu) (hto : ev.v < v)
    (hpend : (s.cmp c).pendOf 0 = some x) (hnum : x.num = r.w.getD 15 0 % 65536) (haudio : recAudio l = []) :
    Completes (.cycleRecordAdopt) s fun t => (t.cmp c).histOf 0 = (s.cmp c).histOf 0 ++ [(v, x.val)] ∧ (t.cmp c).pendOf 0 = none ∧
      t.f ⟨setStatusReg c 0, 0, 0⟩ = 0 ∧ (t.cmp c).evals = [{ ev with done := true }] ∧ t.twn.adopted = true ∧ t.twn.rx = [] ∧ t.twinState c = s.twinState c ∧ t.clk = q ∧
      Keeps ([setStatusReg c 0, R.COMP_LOAD] ++ (List.range 32).map R.COMP_CH_LOAD) [] [.twn, .comp, .clk] s t := by
  have hc : c < 32 := by
    have hmem : c ∈ s.twinChans := hchans ▸ List.mem_singleton_self c
    exact List.mem_range.mp (List.mem_filter.mp hmem).1
  have hop := cycleAdopt_eq (s := s.begin) hown hrole hnew hpos hrx hst
  have htime := frame_timed s.begin q
  have hbefore := htime.trans ((frame_adoptNow (s.begin.timed q)).trans (frame_recordsDone _))
  have hchansNow : (s.begin.timed q).adoptNow.recordsDone.twinChans = [c] := hchans
  have hstateNow : (s.begin.timed q).adoptNow.recordsDone.twinState c = s.twinState c := rfl
  have hcmpNow : (s.begin.timed q).adoptNow.recordsDone.cmp c = s.cmp c := rfl
  have hclk : (s.begin.timed q).adoptNow.recordsDone.clk = q := rfl
  have htwn : (s.begin.timed q).adoptNow.recordsDone.twn = { s.twn with adopted := true, late := none, rx := [] } := rfl
  have hev : (s.begin.timed q).adoptNow.recordsDone.evNow = [] := rfl
  generalize (s.begin.timed q).adoptNow.recordsDone = u at *
  obtain ⟨hframe, hhist, hpendEnd, hevalsEnd, hbit, hevEnd⟩ := adoptChan_adopted (s := u) (v := v) (o := o) (l := l) (p := x) (ev := ev) hc hr hy hagree hflips hcanvas hheld
    (by rw [hstateNow]; exact hstate) (by rw [hcmpNow]; exact hend) (by rw [hcmpNow]; exact hevals) (by rw [hclk]; exact hfrom) hto (by rw [hcmpNow]; exact hpend) hnum
  rw [hchansNow, List.foldl_cons, List.foldl_nil, adoptAudio_none haudio] at hop
  rw [hcmpNow] at hhist
  generalize u.adoptChan v o l c = e at *
  have htwnEnd : e.twn = _ := (hframe.part (p := .twn) (by simp)).trans htwn
  refine completes_of_frame (op := (·.cycleAdopt)) rfl hop ((hbefore.trans hframe).mono (by simp) (by simp) (by simp)) (.inl (hevEnd.trans hev)) fun hkeeps =>
    ⟨hhist, hpendEnd, hbit, hevalsEnd, (congrArg TwnSt.adopted htwnEnd).trans rfl, (congrArg TwnSt.rx htwnEnd).trans rfl,
      (hframe.f_eq (y := F.TWN_CH_STATUS_STATE c) (by simp [setStatusReg_zero, R.TWN_CH_STATUS, R.COMP_CH_L_STATUS]; omega)).trans hstateNow,
      (hframe.part (p := .clk) (by simp)).trans hclk, hkeeps⟩

/-- Settles O27: a record cut by a Lookout and by a Helm, one received, one adopted, and a channel that is LOOKOUT again. -/
theorem cycleRecordCommandsComplete : Obligations.CycleRecordCommandsComplete := by
  unfold Obligations.CycleRecordCommandsComplete
  exact ⟨fun s w q hphase hrole _ hw => cycleCut_lookout hphase hrole hw,
    fun s w p q hphase hrole hheld hport hup hroom hw hlen => cycleCut_helm hphase hrole hheld hport hup hroom hw hlen,
    fun s w hrole hgood htag hlate => cycleReceive_completes hrole hgood htag hlate,
    fun s c v st o l x ev r y q hown hrole hnew hpos hrx hst hchans hr hy hagree hflips hcanvas hheld hstate hend hevals hfrom hto hpend hnum haudio =>
      cycleAdopt_completes hown hrole hnew hpos hrx hst hchans hr hy hagree hflips hcanvas hheld hstate hend hevals hfrom hto hpend hnum haudio,
    fun s n k v q hn hrole hquiet hsync hstart => channelResync_completes hn hrole hquiet hsync hstart⟩

end Sys2Proof.Machine
end

section
/-!
PROOFS. HBM throttles, promotion, corrected and uncorrectable bursts, scrubbing and parity (R305, R309, R312-R316).
-/

namespace Sys2Proof.Machine

/-! ## A stack and its schedulers -/

theorem frame_setStk (s : State) (n : Nat) (x : StackSt) : Frame [] [] [.hbm] s (s.setStk n x) := by
  refine ⟨fun _ _ => rfl, fun _ _ => rfl, rfl, rfl, fun p hp => ?_⟩
  cases p
  case hbm => simp at hp
  all_goals rfl

theorem stk_setStk (s : State) (n : Nat) (x : StackSt) : (s.setStk n x).stk n = x := Tab.get_put_same _ _ n x

theorem Frame.stk_eq {regs fns : List Nat} {parts : List Part} {s t : State} (h : Frame regs fns parts s t) (hp : .hbm ∉ parts) (n : Nat) : t.stk n = s.stk n := by
  have hhbm : t.hbm = s.hbm := h.part hp
  rw [State.stk, State.stk, hhbm]

theorem Frame.pcSt_eq {regs fns : List Nat} {parts : List Part} {s t : State} (h : Frame regs fns parts s t) (hp : .hbm ∉ parts) (n p : Nat) : t.pcSt n p = s.pcSt n p := by
  rw [State.pcSt, State.pcSt, h.stk_eq hp n]

theorem frame_setPcSt (s : State) (n p : Nat) (x : PcSt) : Frame [] [] [.hbm] s (s.setPcSt n p x) := frame_setStk s n _

theorem stk_setPcSt (s : State) (n p : Nat) (x : PcSt) :
    (s.setPcSt n p x).stk n = { s.stk n with pcs := Tab.put (fun _ => ({} : PcSt)) (s.stk n).pcs p x } := stk_setStk s n _

theorem pcSt_setPcSt (s : State) (n p : Nat) (x : PcSt) : (s.setPcSt n p x).pcSt n p = x := by
  rw [State.pcSt, stk_setPcSt]
  exact Tab.get_put_same _ _ p x

/-! ## A scheduler that waits for an RFM (R304, R308) -/

/-- The request `y` waits alone, at a closed bank where an RFM is due. -/
structure Waits (g : SchedCfg) (x : PcSt) (y : HbmReq) : Prop where
  queue : x.queue = [y]
  row : (x.bank (bankOf y.ofs)).row = none
  due : rfmDue g (x.bank (bankOf y.ofs)) = true

theorem Waits.next {g : SchedCfg} {x : PcSt} {y : HbmReq} (h : Waits g x y) (m : Nat) : Waits g { x with next := m } y := ⟨h.queue, h.row, h.due⟩

theorem Waits.hits {g : SchedCfg} {x : PcSt} {y : HbmReq} (h : Waits g x y) (t : Nat) : hits g x t y = false := by
  have hclosed : openRow g x (bankOf y.ofs) t = none := by simp only [openRow, h.row]
  rw [Sys2Proof.Machine.hits, hclosed]
  rfl

theorem Waits.pick {g : SchedCfg} {pc : Nat} {w : SchedRun} {y : HbmReq} (h : Waits g w.x y) (t : Nat) : pick g pc w t = none := by
  have hready : readyAt g pc w t y = false := by
    rw [readyAt, h.hits t, mayActivate, h.due]
    simp only [Bool.not_true, Bool.false_and, Bool.or_self, Bool.and_false]
  have htop : topClass g pc w t = [] := by
    rw [topClass, h.queue, List.filter_cons_of_neg (by rw [hready]; exact Bool.false_ne_true)]
    rfl
  rw [Sys2Proof.Machine.pick, htop]
  rfl

/-- The scheduler passes time and issues nothing. -/
theorem upTo_waits {g : SchedCfg} (pc now : Nat) {y : HbmReq} (n : Nat) (w : SchedRun) (h : Waits g w.x y) :
    ∃ m, SchedRun.upTo g pc now n w = { w with x := { w.x with next := m } } := by
  induction n generalizing w with
  | zero => exact ⟨w.x.next, rfl⟩
  | succ n ih =>
    by_cases hnow : now ≤ w.x.next
    · exact ⟨w.x.next, by rw [SchedRun.upTo, if_pos hnow]⟩
    · have hshape : SchedRun.upTo g pc now (n + 1) w = match w.x.queue.foldl (fun a q => sooner a (wakeAt g pc w w.x.next q)) none with
          | none => w
          | some t => SchedRun.upTo g pc now n { w with x := { w.x with next := t } } := by
        rw [SchedRun.upTo, if_neg hnow, h.pick] <;> rfl
      rw [hshape]
      cases w.x.queue.foldl (fun a q => sooner a (wakeAt g pc w w.x.next q)) none with
      | none => exact ⟨w.x.next, rfl⟩
      | some t => exact ih { w with x := { w.x with next := t } } (h.next t)

theorem frame_bumpBy_zero (s : State) (a : Nat) : Frame [] [] [] s (s.bumpBy a 0) := by
  refine (frame_bumpBy s a 0).drop ?_
  rw [State.bumpBy, rd_wrn_same, Nat.add_zero, State.rdn, BitVec.ofNat_toNat, BitVec.setWidth_eq]

/-- The stack takes what its scheduler has done. -/
def State.schedTaken (s : State) (n p : Nat) (w : SchedRun) : State :=
  let s := (s.setStk n { s.stk n with throttles := w.thr }).setPcSt n p w.x
  let s := s.bumpBy (R.HBM_S_PC_ACT_CNT n p) w.acts
  let s := w.cols.reverse.foldl (fun (t : State) e => t.readSample n e) s
  if w.cols.isEmpty then s else s.emit (.columns n p w.cols.reverse)

theorem hbmServe_none {s : State} {n p : Nat} {reqs : List HbmAcc} (hreqs : hbmReqs p reqs = []) :
    s.hbmServe n p reqs = s.schedTaken n p (SchedRun.upTo (s.schedCfg n) p (s.hcycle s.clk.ns) (3 * (s.pcSt n p).queue.length + 8)
      { x := s.pcSt n p, thr := (s.stk n).throttles }) := by
  have hshape : s.hbmServe n p reqs = (fun q : List HbmReq => s.schedTaken n p (SchedRun.upTo (s.schedCfg n) p (s.hcycle s.clk.ns) (3 * q.length + 8)
      { x := { s.pcSt n p with queue := q }, thr := (s.stk n).throttles }))
      ((s.pcSt n p).queue ++ (hbmReqs p reqs).map (fun r => { id := r.id, ofs := r.ofs, write := r.write, arr := s.hcycle (s.clk.ns - r.ago) })) := rfl
  rw [hshape, hreqs, List.map_nil, List.append_nil]

/-- A stack that served nothing keeps the pseudo-channel but for its cycle. -/
structure Passed (n p : Nat) (s t : State) : Prop where
  frame : Frame [] [] [.hbm] s t
  throttles : (t.stk n).throttles = (s.stk n).throttles
  pcSt : ∃ m, t.pcSt n p = { s.pcSt n p with next := m }
  evNow : t.evNow = s.evNow
  out : t.out = s.out

theorem passed_schedTaken (s : State) (n p m : Nat) :
    Passed n p s (s.schedTaken n p { x := { s.pcSt n p with next := m }, thr := (s.stk n).throttles }) := by
  have hput := frame_setStk s n { s.stk n with throttles := (s.stk n).throttles }
  have hstk := stk_setStk s n { s.stk n with throttles := (s.stk n).throttles }
  have hev : (s.setStk n { s.stk n with throttles := (s.stk n).throttles }).evNow = s.evNow := rfl
  have hshape : s.schedTaken n p { x := { s.pcSt n p with next := m }, thr := (s.stk n).throttles } =
    ((s.setStk n { s.stk n with throttles := (s.stk n).throttles }).setPcSt n p { s.pcSt n p with next := m }).bumpBy (R.HBM_S_PC_ACT_CNT n p) 0 := rfl
  rw [hshape]
  generalize s.setStk n { s.stk n with throttles := (s.stk n).throttles } = u at *
  have hset := frame_setPcSt u n p { s.pcSt n p with next := m }
  have hpc := pcSt_setPcSt u n p { s.pcSt n p with next := m }
  have hstk' := stk_setPcSt u n p { s.pcSt n p with next := m }
  have hev' : (u.setPcSt n p { s.pcSt n p with next := m }).evNow = u.evNow := rfl
  generalize u.setPcSt n p { s.pcSt n p with next := m } = v at *
  have hcount := frame_bumpBy_zero v (R.HBM_S_PC_ACT_CNT n p)
  have hframe := hput.trans (hset.trans hcount)
  refine ⟨hframe.mono (by simp) (by simp) (by simp), ?_, ⟨m, (hcount.pcSt_eq (by simp) n p).trans hpc⟩, hev'.trans hev, hframe.part (p := .out) (by simp)⟩
  rw [hcount.stk_eq (by simp), hstk', hstk]

theorem passed_hbmServe {s : State} {n p : Nat} {reqs : List HbmAcc} {y : HbmReq} (hreqs : hbmReqs p reqs = []) (h : Waits (s.schedCfg n) (s.pcSt n p) y) :
    Passed n p s (s.hbmServe n p reqs) := by
  obtain ⟨m, hm⟩ := upTo_waits p (s.hcycle s.clk.ns) (3 * (s.pcSt n p).queue.length + 8) { x := s.pcSt n p, thr := (s.stk n).throttles } h
  rw [hbmServe_none hreqs, hm]
  exact passed_schedTaken s n p m

theorem schedCfg_eq {regs fns : List Nat} {parts : List Part} {s t : State} (h : Frame regs fns parts s t) (hregs : regs = []) (n : Nat) : t.schedCfg n = s.schedCfg n := by
  subst hregs
  have hword (y : Fld) : t.f y = s.f y := h.f_eq (by simp)
  rw [State.schedCfg, State.schedCfg, h.rdn_eq (by simp)]
  simp only [hword]

theorem hcycle_eq {regs fns : List Nat} {parts : List Part} {s t : State} (h : Frame regs fns parts s t) (hregs : regs = []) (ns : Nat) : t.hcycle ns = s.hcycle ns := by
  subst hregs
  rw [State.hcycle, State.hcycle, h.rdn_eq (by simp)]

/-- The last state of a promotion: the oldest request that is not yet promoted waits until it is. -/
def State.promoteAt (s : State) (n p r : Nat) (q : HbmReq) : State :=
  let s := s.toNs (ceilDiv ((q.arr + (s.schedCfg n).age (requesterClass r)) * 1000000000) (max 1 (s.schedCfg n).hz))
  let s := s.hbmServe n p []
  if (s.pcSt n p).queue.contains q && !s.waitsToken n p q then s.emit (.promoted n p r) else s

theorem promote_eq {s : State} {n p r : Nat} {reqs : List HbmAcc} {q : HbmReq} (hready : s.ready (fnHbm n) = true) (hclass : requesterClass r ≠ 0)
    (hold : oldest (((s.hbmServe n p reqs).pcSt n p).queue.filter (fun q => q.id == r &&
      !promotedAt ((s.hbmServe n p reqs).schedCfg n) ((s.hbmServe n p reqs).hcycle (s.hbmServe n p reqs).clk.ns) q)) = some q) :
    s.promote n p r reqs = (s.hbmServe n p reqs).promoteAt n p r q := by
  have hclass' : (requesterClass r == 0) = false := beq_eq_false_iff_ne.mpr hclass
  simp only [State.promote, hready, hclass', Bool.not_true, Bool.or_self, Bool.false_eq_true, if_false, hold]
  rfl

/-- A request is promoted while its bank waits for an RFM. -/
theorem promotion_completes {s : State} {n p r : Nat} {reqs : List HbmAcc} {y : HbmReq} (hn : n < 4) (hp : p < 32) (hready : s.ready (fnHbm n) = true)
    (hclass : requesterClass r ≠ 0) (hreqs : hbmReqs p reqs = []) (hqueue : (s.pcSt n p).queue = [y]) (hid : y.id = r)
    (hearly : promotedAt (s.schedCfg n) (s.hcycle s.clk.ns) y = false) (hthr : (s.stk n).throttles = []) (hrow : ((s.pcSt n p).bank (bankOf y.ofs)).row = none)
    (hdue : rfmDue (s.schedCfg n) ((s.pcSt n p).bank (bankOf y.ofs)) = true) :
    Completes (.promotion n p ⟨r, reqs⟩) s fun t => t.out = [.promoted n p r] ∧ (t.pcSt n p).queue = [y] ∧
      t.clk.ns = max s.clk.ns (ceilDiv ((y.arr + (s.schedCfg n).age (requesterClass r)) * 1000000000) (max 1 (s.schedCfg n).hz)) ∧ Keeps [] [] [.out, .hbm, .clk] s t := by
  have hwaits : Waits (s.begin.schedCfg n) (s.begin.pcSt n p) y := ⟨hqueue, hrow, hdue⟩
  have hfirst := passed_hbmServe (s := s.begin) hreqs hwaits
  have hop := promote_eq (s := s.begin) (n := n) (p := p) (r := r) (reqs := reqs) (q := y) hready hclass
  generalize s.begin.hbmServe n p reqs = u at *
  obtain ⟨hframe, hthr1, ⟨m, hpc⟩, hev, hout⟩ := hfirst
  have hcfg : u.schedCfg n = s.schedCfg n := schedCfg_eq hframe rfl n
  have hcycle : u.hcycle u.clk.ns = s.hcycle s.clk.ns := by
    rw [hcycle_eq hframe rfl, show u.clk = s.clk from hframe.part (p := .clk) (by simp)]
    rfl
  have hqueue1 : (u.pcSt n p).queue = [y] := by rw [hpc]; exact hqueue
  have hwaits1 : Waits (u.schedCfg n) (u.pcSt n p) y := by
    rw [hpc, hcfg]
    exact hwaits.next m
  have hfound : oldest ((u.pcSt n p).queue.filter (fun q => q.id == r && !promotedAt (u.schedCfg n) (u.hcycle u.clk.ns) q)) = some y := by
    rw [hqueue1, hcfg, hcycle, List.filter_cons_of_pos (by rw [hid, hearly, beq_self_eq_true]; rfl)]
    rfl
  have hop' := hop hfound
  rw [State.promoteAt] at hop'
  rw [hcfg] at hop'
  have hclk : u.clk = s.clk := hframe.part (p := .clk) (by simp)
  have hlast := frame_toNs u (ceilDiv ((y.arr + (s.schedCfg n).age (requesterClass r)) * 1000000000) (max 1 (s.schedCfg n).hz))
  have hns := toNs_ns u (ceilDiv ((y.arr + (s.schedCfg n).age (requesterClass r)) * 1000000000) (max 1 (s.schedCfg n).hz))
  have hev2 : (u.toNs (ceilDiv ((y.arr + (s.schedCfg n).age (requesterClass r)) * 1000000000) (max 1 (s.schedCfg n).hz))).evNow = u.evNow := rfl
  rw [hclk] at hns
  generalize u.toNs (ceilDiv ((y.arr + (s.schedCfg n).age (requesterClass r)) * 1000000000) (max 1 (s.schedCfg n).hz)) = v at *
  have hpcv : v.pcSt n p = u.pcSt n p := hlast.pcSt_eq (by simp) n p
  have hstkv : v.stk n = u.stk n := hlast.stk_eq (by simp) n
  have hwaits2 : Waits (v.schedCfg n) (v.pcSt n p) y := by
    rw [hpcv, schedCfg_eq hlast rfl]
    exact hwaits1
  have hsecond := passed_hbmServe (reqs := []) rfl hwaits2
  generalize v.hbmServe n p [] = w at *
  obtain ⟨hframe3, hthr3, ⟨m3, hpc3⟩, hev3, hout3⟩ := hsecond
  have hqueue3 : (w.pcSt n p).queue = [y] := by rw [hpc3, hpcv]; exact hqueue1
  have hfree : w.waitsToken n p y = false := by
    rw [State.waitsToken, hthr3, hstkv, hthr1, show (s.begin.stk n).throttles = [] from hthr]
    exact Bool.and_false _
  have hsent : ((w.pcSt n p).queue.contains y && !w.waitsToken n p y) = true := by
    rw [hqueue3, hfree, List.contains_cons, beq_self_eq_true]
    rfl
  rw [if_pos hsent] at hop'
  have hemit := frame_emit w (.promoted n p r)
  have hall := hframe.trans (hlast.trans (hframe3.trans hemit))
  refine completes_of_frame (op := (·.idx n 4 fun s => s.idx p 32 fun s => s.promote n p r reqs)) rfl ((idx_of_lt hn).trans ((idx_of_lt hp).trans hop'))
    (hall.mono (by simp) (by simp) (by simp)) (.inl (hev3.trans (hev2.trans hev))) fun hkeeps => ⟨?_, hqueue3, ?_, hkeeps⟩
  · have hempty : w.out = [] := hout3.trans ((hlast.part (p := .out) (by simp)).trans hout)
    exact congrArg (· ++ [Out.promoted n p r]) hempty
  · exact (congrArg Clock.ns (hframe3.part (p := .clk) (by simp))).trans hns

/-! ## THROTTLE_END (R309) -/

/-- A throttle of the stack ends. -/
def State.throttleOff (s : State) (n : Nat) (l : List Throttle) : State := (s.setStk n { s.stk n with throttles := l }).setF (F.HBM_S_THROTTLED_THROTTLES n) l.length

theorem frame_throttleOff (s : State) (n : Nat) (l : List Throttle) : Frame [R.HBM_S_THROTTLED n] [] [.hbm] s (s.throttleOff n l) :=
  (frame_setStk s n _).trans (frame_setF _ (F.HBM_S_THROTTLED_THROTTLES n) _)

theorem stk_throttleOff (s : State) (n : Nat) (l : List Throttle) : (s.throttleOff n l).stk n = { s.stk n with throttles := l } :=
  ((frame_setF _ (F.HBM_S_THROTTLED_THROTTLES n) _).stk_eq (by simp) n).trans (stk_setStk s n _)

theorem count_throttleOff (s : State) (n : Nat) (l : List Throttle) : (s.throttleOff n l).f (F.HBM_S_THROTTLED_THROTTLES n) = l.length % 16 :=
  f_setF_same _ (F.HBM_S_THROTTLED_THROTTLES n) l.length (by decide : 11 < 32)

/-- A throttle ends. -/
theorem throttleEnd_completes {s : State} {n p r : Nat} {x : Throttle} (hn : n < 4) (hp : p < 32)
    (hfind : (s.stk n).throttles.find? (fun y => y.id == r && y.pc == p) = some x) :
    Completes (.throttleEnd n p r) s fun t => (t.stk n).throttles = (s.stk n).throttles.erase x ∧
      t.f (F.HBM_S_THROTTLED_THROTTLES n) = ((s.stk n).throttles.erase x).length % 16 ∧ x.since + s.f (F.HBM_S_RH_HOLD_HOLD n) * s.refreshWindow n ≤ t.clk.ns ∧
      Keeps [R.HBM_S_THROTTLED n] [] [.hbm, .clk] s t := by
  have hop : s.begin.throttleEnd n p r = (s.begin.toNs (x.since + s.f (F.HBM_S_RH_HOLD_HOLD n) * s.refreshWindow n)).throttleOff n ((s.stk n).throttles.erase x) := by
    rw [State.throttleEnd, show (s.begin.stk n).throttles.find? (fun y => y.id == r && y.pc == p) = some x from hfind]
    rfl
  have htime := frame_toNs s.begin (x.since + s.f (F.HBM_S_RH_HOLD_HOLD n) * s.refreshWindow n)
  have hns := le_toNs s.begin (x.since + s.f (F.HBM_S_RH_HOLD_HOLD n) * s.refreshWindow n)
  have hev : (s.begin.toNs (x.since + s.f (F.HBM_S_RH_HOLD_HOLD n) * s.refreshWindow n)).evNow = [] := rfl
  generalize s.begin.toNs (x.since + s.f (F.HBM_S_RH_HOLD_HOLD n) * s.refreshWindow n) = u at *
  have hoff := frame_throttleOff u n ((s.stk n).throttles.erase x)
  refine completes_of_frame (op := (·.idx n 4 fun s => s.idx p 32 fun s => s.throttleEnd n p r)) rfl ((idx_of_lt hn).trans ((idx_of_lt hp).trans hop))
    ((htime.trans hoff).mono (by simp) (by simp) (by simp)) (.inl hev) fun hkeeps =>
      ⟨(congrArg StackSt.throttles (stk_throttleOff u n _)).trans rfl, count_throttleOff u n _, ?_, hkeeps⟩
  rw [finish_clk, hoff.part (p := .clk) (by simp)]
  exact hns

/-! ## Bursts (R312, R313) -/

/-- The counts and the flag of a corrected burst. -/
def State.burstCounted (s : State) (a : Nat) : State :=
  ((s.bump (R.HBM_S_CE_CNT (stackOf a))).bump (R.HBM_S_PC_CE_CNT (stackOf a) (pcOf a))).setF (F.HBM_S_FLAGS_CE (stackOf a)) 1

theorem frame_burstCounted (s : State) (a : Nat) :
    Frame [R.HBM_S_CE_CNT (stackOf a), R.HBM_S_PC_CE_CNT (stackOf a) (pcOf a), R.HBM_S_FLAGS (stackOf a)] [] [] s (s.burstCounted a) :=
  (frame_bump s _).trans ((frame_bump _ _).trans (frame_setF _ (F.HBM_S_FLAGS_CE (stackOf a)) 1))

theorem pcOf_lt (a : Nat) : pcOf a < 32 := by
  rw [pcOf]
  exact lt_of_le_of_lt Nat.and_le_right (by decide)

theorem stackOf_lt (a : Nat) : stackOf a < 4 := Nat.mod_lt _ (by decide)

theorem counts_burstCounted (s : State) (a : Nat) : (s.burstCounted a).rdn (R.HBM_S_CE_CNT (stackOf a)) = (s.rdn (R.HBM_S_CE_CNT (stackOf a)) + 1) % 2 ^ 32 ∧
    (s.burstCounted a).rdn (R.HBM_S_PC_CE_CNT (stackOf a) (pcOf a)) = (s.rdn (R.HBM_S_PC_CE_CNT (stackOf a) (pcOf a)) + 1) % 2 ^ 32 := by
  have hpc := pcOf_lt a
  have hst := stackOf_lt a
  generalize hp : pcOf a = p at *
  generalize hq : stackOf a = n at *
  rw [State.burstCounted, hp, hq]
  constructor
  · rw [rdn_setF_ne _ _ (by simp), rdn_bump_ne _ (by simp [R.HBM_S_CE_CNT, R.HBM_S_PC_CE_CNT]; omega), rdn_bump_same]
  · rw [rdn_setF_ne _ _ (by simp [R.HBM_S_FLAGS, R.HBM_S_PC_CE_CNT]; omega), rdn_bump_same, rdn_bump_ne _ (by simp [R.HBM_S_CE_CNT, R.HBM_S_PC_CE_CNT]; omega)]

/-- The frame of the latest event of a pseudo-channel. -/
def State.burstFrame (s : State) (a fr : Nat) : State :=
  s.setStk (stackOf a) { s.stk (stackOf a) with ceFrame := Tab.put (fun _ => (none : Option Nat)) (s.stk (stackOf a)).ceFrame (pcOf a) (some fr) }

theorem frame_burstFrame (s : State) (a fr : Nat) : Frame [] [] [.hbm] s (s.burstFrame a fr) := frame_setStk s _ _

theorem ceFrame_burstFrame (s : State) (a fr : Nat) :
    Tab.get (fun _ => (none : Option Nat)) ((s.burstFrame a fr).stk (stackOf a)).ceFrame (pcOf a) = some fr := by
  rw [State.burstFrame, stk_setStk]
  exact Tab.get_put_same (fun _ => (none : Option Nat)) (s.stk (stackOf a)).ceFrame (pcOf a) (some fr)

theorem eccCorrect_first {s : State} {a : Nat} (h : Tab.get (fun _ => (none : Option Nat)) (s.stk (stackOf a)).ceFrame (pcOf a) ≠ some (s.clk.vpos / s.clk.fu)) :
    s.eccCorrect a = ((s.burstCounted a).burstFrame a (s.clk.vpos / s.clk.fu)).raise 0x1004 (32 * stackOf a + pcOf a) := by
  rw [State.eccCorrect, if_neg h]
  rfl

/-- A corrected burst, the first of its frame. -/
theorem eccCorrection_completes {s : State} {a : Nat} (hin : s.burstIn a = true)
    (hframe : Tab.get (fun _ => (none : Option Nat)) (s.stk (stackOf a)).ceFrame (pcOf a) ≠ some (s.clk.vpos / s.clk.fu)) :
    Completes (.eccCorrection a) s fun t => t.rdn (R.HBM_S_CE_CNT (stackOf a)) = (s.rdn (R.HBM_S_CE_CNT (stackOf a)) + 1) % 2 ^ 32 ∧
      t.rdn (R.HBM_S_PC_CE_CNT (stackOf a) (pcOf a)) = (s.rdn (R.HBM_S_PC_CE_CNT (stackOf a) (pcOf a)) + 1) % 2 ^ 32 ∧ t.on (F.HBM_S_FLAGS_CE (stackOf a)) = true ∧
      Tab.get (fun _ => (none : Option Nat)) (t.stk (stackOf a)).ceFrame (pcOf a) = some (s.clk.vpos / s.clk.fu) ∧ Logged [⟨0x1004, 32 * stackOf a + pcOf a⟩] s t ∧
      Keeps [R.HBM_S_CE_CNT (stackOf a), R.HBM_S_PC_CE_CNT (stackOf a) (pcOf a), R.HBM_S_FLAGS (stackOf a)] [] [.hbm, .log] s t := by
  have hop : (if s.begin.burstIn a then s.begin.eccCorrect a else s.begin) =
      ((s.begin.burstCounted a).burstFrame a (s.clk.vpos / s.clk.fu)).raise 0x1004 (32 * stackOf a + pcOf a) :=
    (if_pos (show s.begin.burstIn a = true from hin)).trans (eccCorrect_first (s := s.begin) hframe)
  have hcounted := frame_burstCounted s.begin a
  obtain ⟨hcount, hpcCount⟩ := counts_burstCounted s.begin a
  have hflag : (s.begin.burstCounted a).on (F.HBM_S_FLAGS_CE (stackOf a)) = true := on_setF_same _ (F.HBM_S_FLAGS_CE (stackOf a)) (by decide : 0 < 32) rfl
  have hev : (s.begin.burstCounted a).evNow = [] := rfl
  have hlog : (s.begin.burstCounted a).log = s.log := hcounted.part (p := .log) (by simp)
  have hdetail : 32 * stackOf a + pcOf a < 65536 := by
    have hpc := pcOf_lt a
    have hst := stackOf_lt a
    omega
  generalize s.begin.burstCounted a = u at *
  have hkept := frame_burstFrame u a (s.clk.vpos / s.clk.fu)
  have hshown := ceFrame_burstFrame u a (s.clk.vpos / s.clk.fu)
  have hev' : (u.burstFrame a (s.clk.vpos / s.clk.fu)).evNow = [] := hev
  have hlog' : (u.burstFrame a (s.clk.vpos / s.clk.fu)).log = s.log := (hkept.part (p := .log) (by simp)).trans hlog
  generalize u.burstFrame a (s.clk.vpos / s.clk.fu) = v at *
  have hraise := frame_raise v 0x1004 (32 * stackOf a + pcOf a)
  refine completes_of_frame (op := fun s => if s.burstIn a then s.eccCorrect a else s) rfl hop ((hcounted.trans (hkept.trans hraise)).mono (by simp) (by simp) (by simp))
    (.inr (by simp)) fun hkeeps => ⟨(hkept.rdn_eq (by simp)).trans hcount, (hkept.rdn_eq (by simp)).trans hpcCount, (hkept.on_eq (by simp)).trans hflag, hshown,
      finish_logged (congrArg (fun l => evSort (l ++ [(⟨0x1004, 32 * stackOf a + pcOf a⟩ : Ev)])) hev') ⟨congrArg LogSt.ring hlog', congrArg LogSt.head hlog'⟩
        (by simp) (by simpa using hdetail), hkeeps⟩

/-- The record of an uncorrectable burst. -/
def State.burstRecorded (s : State) (n a r : Nat) : State :=
  (((s.wrn (R.HBM_S_UE_ADDR_LO n) a).wrn (R.HBM_S_UE_ADDR_HI n) (a / 2 ^ 32 % 64 + r % 128 * 256)).bump (R.HBM_S_UE_CNT n)).setF (F.HBM_S_FLAGS_UE n) 1

theorem frame_burstRecorded (s : State) (n a r : Nat) :
    Frame [R.HBM_S_UE_ADDR_LO n, R.HBM_S_UE_ADDR_HI n, R.HBM_S_UE_CNT n, R.HBM_S_FLAGS n] [] [] s (s.burstRecorded n a r) :=
  (frame_wrn s _ a).trans ((frame_wrn _ _ _).trans ((frame_bump _ _).trans (frame_setF _ (F.HBM_S_FLAGS_UE n) 1)))

theorem rd_burstRecorded (s : State) (n a r : Nat) : (s.burstRecorded n a r).rd (R.HBM_S_UE_ADDR_LO n) = BitVec.ofNat 32 a := by
  rw [State.burstRecorded, rd_setF_ne _ _ (by simp), rd_bump_ne _ (by simp), rd_wrn_ne _ _ (by simp), rd_wrn_same]

theorem hi_burstRecorded (s : State) (n a : Nat) {r : Nat} (hr : r < 128) : (s.burstRecorded n a r).rdn (R.HBM_S_UE_ADDR_HI n) = a / 2 ^ 32 % 64 + r * 256 := by
  rw [State.burstRecorded, rdn_setF_ne _ _ (by simp), rdn_bump_ne _ (by simp), rdn_wrn_same, Nat.mod_eq_of_lt hr]
  exact Nat.mod_eq_of_lt (by omega)

theorem count_burstRecorded (s : State) (n a r : Nat) : (s.burstRecorded n a r).rdn (R.HBM_S_UE_CNT n) = (s.rdn (R.HBM_S_UE_CNT n) + 1) % 2 ^ 32 := by
  rw [State.burstRecorded, rdn_setF_ne _ _ (by simp), rdn_bump_same, rdn_wrn_ne _ _ (by simp), rdn_wrn_ne _ _ (by simp)]

theorem poisoned_eq {s : State} {a r : Nat} (hin : s.burstIn a = true) (hr : r ≠ 74) :
    s.poisoned a r = ((s.burstRecorded (stackOf a) a r).raise 0x1005 (stackOf a)).hbmPutBytes (a / 32 * 32) (List.replicate 32 0) := by
  rw [State.poisoned, hin]
  exact if_neg hr

/-- An uncorrectable burst reads as zeros. -/
theorem uncorrectableRead_completes {s : State} {a r : Nat} (hin : s.burstIn a = true) (hcheck : r ≠ 74) (hr : r < 128) :
    Completes (.uncorrectableRead a r) s fun t => (∀ b : Nat, a / 32 * 32 ≤ b → b < a / 32 * 32 + 32 →
      t.hbmByte b = 0) ∧ KeepsMem [(a / 32 * 32, 32)] s t ∧ t.rd (R.HBM_S_UE_ADDR_LO (stackOf a)) = BitVec.ofNat 32 a ∧
      t.rdn (R.HBM_S_UE_ADDR_HI (stackOf a)) = a / 2 ^ 32 % 64 + r * 256 ∧ t.rdn (R.HBM_S_UE_CNT (stackOf a)) = (s.rdn (R.HBM_S_UE_CNT (stackOf a)) + 1) % 2 ^ 32 ∧
      t.on (F.HBM_S_FLAGS_UE (stackOf a)) = true ∧ Logged [⟨0x1005, stackOf a⟩] s t ∧
      Keeps [R.HBM_S_UE_ADDR_LO (stackOf a), R.HBM_S_UE_ADDR_HI (stackOf a), R.HBM_S_UE_CNT (stackOf a), R.HBM_S_FLAGS (stackOf a)] [] [.hbm, .mem, .log] s t := by
  have hfits : a / 32 * 32 + (List.replicate 32 0).length ≤ 2 ^ 38 := by
    have hlow : a < 2 ^ 38 := by
      simp only [State.burstIn, Bool.and_eq_true, decide_eq_true_eq] at hin
      obtain ⟨⟨hlow, -⟩, -⟩ := hin
      exact hlow
    rw [List.length_replicate]
    omega
  have hop := poisoned_eq (s := s.begin) hin hcheck
  have hrecorded := frame_burstRecorded s.begin (stackOf a) a r
  have hlo := rd_burstRecorded s.begin (stackOf a) a r
  have hhi := hi_burstRecorded s.begin (stackOf a) a hr
  have hcount := count_burstRecorded s.begin (stackOf a) a r
  have hflag : (s.begin.burstRecorded (stackOf a) a r).on (F.HBM_S_FLAGS_UE (stackOf a)) = true := on_setF_same _ (F.HBM_S_FLAGS_UE (stackOf a)) (by decide : 1 < 32) rfl
  have hev : (s.begin.burstRecorded (stackOf a) a r).evNow = [] := rfl
  have hlog : (s.begin.burstRecorded (stackOf a) a r).log = s.log := hrecorded.part (p := .log) (by simp)
  have hkeepsMem := hrecorded.keepsMem (by simp) [(a / 32 * 32, 32)]
  generalize s.begin.burstRecorded (stackOf a) a r = u at *
  have hraise := frame_raise u 0x1005 (stackOf a)
  have hev' : (u.raise 0x1005 (stackOf a)).evNow = [⟨0x1005, stackOf a⟩] := congrArg (· ++ [(⟨0x1005, stackOf a⟩ : Ev)]) hev
  have hlog' : (u.raise 0x1005 (stackOf a)).log = s.log := hlog
  have hkeepsRaise := hraise.keepsMem (by simp) [(a / 32 * 32, 32)]
  generalize u.raise 0x1005 (stackOf a) = v at *
  have hput := frame_hbmPutBytes (List.replicate 32 0) v (a / 32 * 32)
  have hzero : ∀ b : Nat, a / 32 * 32 ≤ b → b < a / 32 * 32 + 32 → (v.hbmPutBytes (a / 32 * 32) (List.replicate 32 0)).hbmByte b = 0 := by
    intro b hle hlt
    by_cases hhole : inHole b = true
    · rw [State.hbmByte, if_pos hhole]
    · obtain ⟨i, rfl⟩ : ∃ i, b = a / 32 * 32 + i := ⟨b - a / 32 * 32, by omega⟩
      have hi : i < 32 := by omega
      rw [hbmByte_hbmPutBytes_get _ v _ i hfits (by rw [List.length_replicate]; exact hi) (Bool.not_eq_true _ ▸ hhole), List.getD_eq_getElem _ _ (by rw [List.length_replicate]; exact hi),
        List.getElem_replicate]
      rfl
  have hkeepsPut : KeepsMem [(a / 32 * 32, 32)] v (v.hbmPutBytes (a / 32 * 32) (List.replicate 32 0)) := fun b hb hout =>
    hbmByte_hbmPutBytes_ne _ v _ b hb hfits (hout _ (List.mem_singleton.mpr rfl))
  have hevPut := hbmPutBytes_evNow (List.replicate 32 0) v (a / 32 * 32)
  generalize v.hbmPutBytes (a / 32 * 32) (List.replicate 32 0) = e at *
  have hlast := hraise.trans hput
  have hlogEnd : e.log = s.log := (hput.part (p := .log) (by simp)).trans hlog'
  exact completes_of_frame (op := (·.poisoned a r)) rfl hop ((hrecorded.trans hlast).mono (by simp) (by simp) (by simp)) (.inr (by simp)) fun hkeeps =>
    ⟨hzero, (hkeepsMem.trans (hkeepsRaise.trans hkeepsPut)).command, (hlast.rd_eq (by simp)).trans hlo, (hlast.rdn_eq (by simp)).trans hhi,
      (hlast.rdn_eq (by simp)).trans hcount, (hlast.on_eq (by simp)).trans hflag,
      finish_logged (by rw [hevPut, hev']; rfl) ⟨congrArg LogSt.ring hlogEnd, congrArg LogSt.head hlogEnd⟩ (by simp) (by have hst := stackOf_lt a; simp; omega), hkeeps⟩

/-! ## PATROL_SCRUB (R314) -/

/-- The scrubber goes on to the next granule. -/
def State.scrubNext (s : State) (n : Nat) : State :=
  s.setStk n { s.stk n with scrub := ((s.stk n).scrub + 1) % 150994944, scrubAt := s.clk.ns + s.f (F.HBM_S_SCRUB_HOURS n) * 3600000000000 / 150994944 }

/-- The reads of a granule. -/
def scrubReads (o arr : Nat) : List HbmReq := (List.range 8).map (fun i => { id := 77, ofs := o + 32 * i, write := false, arr := arr })

/-- Requests join the queue of a pseudo-channel. -/
def State.readsQueued (s : State) (n p : Nat) (l : List HbmReq) : State := s.setPcSt n p { s.pcSt n p with queue := (s.pcSt n p).queue ++ l }

theorem patrolScrub_clean {s : State} {n : Nat} (hready : s.ready (fnHbm n) = true) (hhours : s.f (F.HBM_S_SCRUB_HOURS n) ≠ 0) :
    s.patrolScrub n .clean = ((s.toNs (s.stk n).scrubAt).scrubNext n).readsQueued n (pcOf (n * 2 ^ 36 + (s.stk n).scrub * 256))
      (scrubReads ((s.stk n).scrub * 256) (s.hcycle (s.toNs (s.stk n).scrubAt).clk.ns)) := by
  have hhours' : (s.f (F.HBM_S_SCRUB_HOURS n) == 0) = false := beq_eq_false_iff_ne.mpr hhours
  simp only [State.patrolScrub, hready, hhours', Bool.not_true, Bool.or_self, Bool.false_eq_true, if_false]
  rfl

/-- A clean granule. -/
theorem patrolScrub_completes {s : State} {n p : Nat} (hn : n < 4) (hready : s.ready (fnHbm n) = true) (hhours : s.f (F.HBM_S_SCRUB_HOURS n) ≠ 0)
    (hp : p = pcOf (n * 2 ^ 36 + (s.stk n).scrub * 256)) :
    Completes (.patrolScrub n .clean) s fun t => (t.stk n).scrub = ((s.stk n).scrub + 1) % 150994944 ∧ (t.stk n).throttles = (s.stk n).throttles ∧
      t.clk.ns = max s.clk.ns (s.stk n).scrubAt ∧ (t.stk n).scrubAt = t.clk.ns + s.f (F.HBM_S_SCRUB_HOURS n) * 3600000000000 / 150994944 ∧
      (t.pcSt n p).queue.map (fun w => (w.id, w.ofs)) = (s.pcSt n p).queue.map (fun w => (w.id, w.ofs)) ++ (List.range 8).map (fun w => (77, (s.stk n).scrub * 256 + 32 * w)) ∧
      Keeps [] [] [.hbm, .clk] s t := by
  have hop := patrolScrub_clean (s := s.begin) hready hhours
  rw [show s.begin.stk n = s.stk n from rfl, ← hp] at hop
  generalize s.begin.hcycle (s.begin.toNs (s.stk n).scrubAt).clk.ns = cycle at hop
  have htime := frame_toNs s.begin (s.stk n).scrubAt
  have hns := toNs_ns s.begin (s.stk n).scrubAt
  have hev : (s.begin.toNs (s.stk n).scrubAt).evNow = [] := rfl
  have hstk : (s.begin.toNs (s.stk n).scrubAt).stk n = s.stk n := rfl
  have hpc : (s.begin.toNs (s.stk n).scrubAt).pcSt n p = s.pcSt n p := rfl
  have hhoursNow : (s.begin.toNs (s.stk n).scrubAt).f (F.HBM_S_SCRUB_HOURS n) = s.f (F.HBM_S_SCRUB_HOURS n) := rfl
  generalize s.begin.toNs (s.stk n).scrubAt = u at *
  have hnext : Frame [] [] [.hbm] u (u.scrubNext n) := frame_setStk u n _
  have hstkNext : (u.scrubNext n).stk n = _ := stk_setStk u n _
  have hpcNext : (u.scrubNext n).pcSt n p = s.pcSt n p := by
    rw [State.pcSt, hstkNext]
    exact hpc
  have hevNext : (u.scrubNext n).evNow = [] := hev
  generalize u.scrubNext n = v at *
  have hput : Frame [] [] [.hbm] v (v.readsQueued n p (scrubReads ((s.stk n).scrub * 256) cycle)) := frame_setPcSt v n p _
  have hstkEnd : (v.readsQueued n p (scrubReads ((s.stk n).scrub * 256) cycle)).stk n = _ := stk_setPcSt v n p _
  have hpcEnd : (v.readsQueued n p (scrubReads ((s.stk n).scrub * 256) cycle)).pcSt n p = _ := pcSt_setPcSt v n p _
  have hevEnd : (v.readsQueued n p (scrubReads ((s.stk n).scrub * 256) cycle)).evNow = [] := hevNext
  rw [hstkNext, hstk, hhoursNow] at hstkEnd
  rw [hpcNext] at hpcEnd
  generalize v.readsQueued n p (scrubReads ((s.stk n).scrub * 256) cycle) = e at *
  have hclk : e.clk = u.clk := (hput.part (p := .clk) (by simp)).trans (hnext.part (p := .clk) (by simp))
  refine completes_of_frame (op := (·.idx n 4 fun s => s.patrolScrub n .clean)) rfl ((idx_of_lt hn).trans hop) ((htime.trans (hnext.trans hput)).mono (by simp) (by simp) (by simp))
    (.inl hevEnd) fun hkeeps => ⟨(congrArg StackSt.scrub hstkEnd).trans rfl, (congrArg StackSt.throttles hstkEnd).trans rfl, (congrArg Clock.ns hclk).trans hns,
      (congrArg StackSt.scrubAt hstkEnd).trans ?_, (congrArg (fun x : PcSt => x.queue.map (fun w => (w.id, w.ofs))) hpcEnd).trans ?_, hkeeps⟩
  · rw [finish_clk, hclk]
  · simp only [scrubReads, List.map_append, List.map_map, Function.comp_def]

/-! ## CA_PARITY_ERROR (R316) -/

/-- A parity error is noted. -/
def State.parityNoted (s : State) (n p : Nat) (l : List Nat) : State :=
  (s.setF (F.HBM_S_FLAGS_CA_PARITY n) 1).setStk n { s.stk n with parity := Tab.put (fun _ => ([] : List Nat)) (s.stk n).parity p l }

theorem frame_parityNoted (s : State) (n p : Nat) (l : List Nat) : Frame [R.HBM_S_FLAGS n] [] [.hbm] s (s.parityNoted n p l) :=
  (frame_setF s (F.HBM_S_FLAGS_CA_PARITY n) 1).trans (frame_setStk _ n _)

theorem caParity_first {s : State} {n p : Nat} (hready : s.ready (fnHbm n) = true) (hnone : Tab.get (fun _ => ([] : List Nat)) (s.stk n).parity p = []) :
    s.caParity n p = s.parityNoted n p [s.clk.ns] := by
  have hfew : ¬ 16 < [s.clk.ns].length := by simp
  simp only [State.caParity, hready, hnone, Bool.not_true, Bool.false_eq_true, if_false, List.filter_nil, if_neg hfew]
  rfl

/-- The first parity error of a pseudo-channel. -/
theorem caParityError_completes {s : State} {n p : Nat} (hn : n < 4) (hp : p < 32) (hready : s.ready (fnHbm n) = true)
    (hnone : Tab.get (fun _ => ([] : List Nat)) (s.stk n).parity p = []) :
    Completes (.caParityError n p) s fun t => t.on (F.HBM_S_FLAGS_CA_PARITY n) = true ∧ Tab.get (fun _ => ([] : List Nat)) (t.stk n).parity p = [s.clk.ns] ∧
      t.fn (fnHbm n) = .ready ∧ Keeps [R.HBM_S_FLAGS n] [] [.hbm] s t := by
  have hop := caParity_first (s := s.begin) hready hnone
  have hframe := frame_parityNoted s.begin n p [s.clk.ns]
  have hparity : Tab.get (fun _ => ([] : List Nat)) ((s.begin.parityNoted n p [s.clk.ns]).stk n).parity p = [s.clk.ns] := by
    rw [State.parityNoted, stk_setStk]
    exact Tab.get_put_same (fun _ => ([] : List Nat)) (s.begin.stk n).parity p [s.clk.ns]
  refine completes_of_frame (op := (·.idx n 4 fun s => s.idx p 32 fun s => s.caParity n p)) rfl ((idx_of_lt hn).trans ((idx_of_lt hp).trans hop)) hframe (.inl rfl) fun hkeeps =>
    ⟨?_, hparity, (hframe.2.1 _ (by simp)).trans (beq_iff_eq.mp hready), hkeeps⟩
  exact ((frame_setStk (s.begin.setF (F.HBM_S_FLAGS_CA_PARITY n) 1) n _).on_eq (by simp)).trans (on_setF_same s.begin (F.HBM_S_FLAGS_CA_PARITY n) (by decide : 5 < 32) rfl)

/-- Settles O17: a throttle that ends, a promotion, bursts corrected and not, a granule scrubbed and a parity error. -/
theorem memoryErrorCommandsComplete : Obligations.MemoryErrorCommandsComplete := by
  unfold Obligations.MemoryErrorCommandsComplete
  exact ⟨fun s n p r x hn hp hfind => throttleEnd_completes hn hp hfind,
    fun s n p r reqs y hn hp hready hclass hreqs hqueue hid hearly hthr hrow hdue => promotion_completes hn hp hready hclass hreqs hqueue hid hearly hthr hrow hdue,
    fun s a hin hframe => eccCorrection_completes hin hframe,
    fun s a r hin hcheck hr => uncorrectableRead_completes hin hcheck hr,
    fun s n p hn hready hhours hp => patrolScrub_completes hn hready hhours hp,
    fun s n p hn hp hready hnone => caParityError_completes hn hp hready hnone⟩

end Sys2Proof.Machine
end

section
/-!
SUPPORT. Lanes and ports of serial links that move to another stage or state (R288, R291), and links that start again (R273).
-/

namespace Sys2Proof.Machine

/-! ## Lanes -/

theorem frame_setLane (s : State) (l : Nat) (x : LaneSt) : Frame [] [] [.lne] s (s.setLane l x) := frame_lne s _

theorem lane_setLane (s : State) (l : Nat) (x : LaneSt) : (s.setLane l x).lane l = x := Tab.get_put_same _ _ l x

theorem frame_setLport (s : State) (st : Bool) (p : Nat) (x : LPortSt) : Frame [] [] [.lne] s (s.setLport st p x) := frame_lne s _

theorem lport_setLport (s : State) (st : Bool) (p : Nat) (x : LPortSt) : (s.setLport st p x).lport st p = x := Tab.get_put_same _ _ _ x

theorem lane_setLport (s : State) (st : Bool) (p : Nat) (x : LPortSt) (l : Nat) : (s.setLport st p x).lane l = s.lane l := rfl

theorem Frame.lane_eq {regs fns : List Nat} {parts : List Part} {s t : State} (h : Frame regs fns parts s t) (hp : .lne ∉ parts) (l : Nat) : t.lane l = s.lane l := by
  have hlne : t.lne = s.lne := h.part hp
  rw [State.lane, State.lane, hlne]

theorem Frame.lport_eq {regs fns : List Nat} {parts : List Part} {s t : State} (h : Frame regs fns parts s t) (hp : .lne ∉ parts) (st : Bool) (p : Nat) :
    t.lport st p = s.lport st p := by
  have hlne : t.lne = s.lne := h.part hp
  rw [State.lport, State.lport, hlne]

theorem Frame.stage_eq {regs fns : List Nat} {parts : List Part} {s t : State} (h : Frame regs fns parts s t) {l : Nat} (hr : R.LNE_LANE_STATUS l ∉ regs) :
    t.stage_ l = s.stage_ l := h.f_eq (y := F.LNE_LANE_STATUS_STAGE l) hr

/-- Lane `l` leaves its Sighting; a lane that is DONE has none. -/
def State.laneSight (s : State) (l n : Nat) : State := if n = 4 then s else s.sightDrop 0 l

theorem frame_laneSight (s : State) (l n : Nat) : Frame [] [] [.cal] s (s.laneSight l n) := by
  unfold State.laneSight
  split
  · exact (Frame.refl s).mono (by simp) (by simp) (by simp)
  · exact frame_setSight s 0 l none

theorem toStage_eq (s : State) (l n : Nat) :
    s.toStage l n = ((s.laneSight l n).setF (F.LNE_LANE_STATUS_STAGE l) n).setLane l { at_ := s.clk.ns, idx := (s.lane l).idx } := rfl

theorem frame_toStage (s : State) (l n : Nat) : Frame [R.LNE_LANE_STATUS l] [] [.cal, .lne] s (s.toStage l n) := by
  rw [toStage_eq]
  exact (frame_laneSight s l n).trans ((frame_setF _ (F.LNE_LANE_STATUS_STAGE l) n).trans (frame_setLane _ l _))

theorem stage_toStage (s : State) (l : Nat) {n : Nat} (hn : n < 8) : (s.toStage l n).stage_ l = n := by
  rw [toStage_eq, (frame_setLane _ l _).stage_eq (by simp), State.stage_, f_setF_same _ (F.LNE_LANE_STATUS_STAGE l) n (by decide : 2 < 32)]
  exact Nat.mod_eq_of_lt hn

theorem lane_toStage (s : State) (l n : Nat) : (s.toStage l n).lane l = { at_ := s.clk.ns, idx := (s.lane l).idx } := by
  rw [toStage_eq, lane_setLane]

theorem evNow_toStage (s : State) (l n : Nat) : (s.toStage l n).evNow = s.evNow := by
  rw [toStage_eq, State.laneSight]
  split <;> rfl

/-- The bits of a lane's STATUS above STAGE. -/
theorem on_toStage (s : State) (l n : Nat) {j : Nat} (hj : 2 < j) (h32 : j < 32) :
    (s.toStage l n).on ⟨R.LNE_LANE_STATUS l, j, j⟩ = s.on ⟨R.LNE_LANE_STATUS l, j, j⟩ := by
  have hbits := f_setF_bits (s.laneSight l n) (x := F.LNE_LANE_STATUS_STAGE l) (y := ⟨R.LNE_LANE_STATUS l, j, j⟩) n rfl (Nat.zero_le 2) h32 (.inl hj)
  rw [toStage_eq, (frame_setLane _ l _).on_eq (by simp), State.on, hbits, ← State.on, (frame_laneSight s l n).on_eq (by simp)]

theorem sight_toStage (s : State) (l : Nat) {n : Nat} (hn : n ≠ 4) : (s.toStage l n).sight 0 l = none := by
  rw [toStage_eq, State.laneSight, if_neg hn]
  exact Tab.get_put_same (fun _ => (none : Option Sight)) s.cal.sights (256 * 0 + l) none

theorem laneRestart_eq (s : State) (l : Nat) :
    s.laneRestart l = ((s.toStage l 1).setF (F.LNE_LANE_STATUS_SIG l) 0).setF (F.LNE_LANE_STATUS_CDR_LOCK l) 0 := rfl

theorem frame_laneRestart (s : State) (l : Nat) : Frame [R.LNE_LANE_STATUS l] [] [.cal, .lne] s (s.laneRestart l) := by
  rw [laneRestart_eq]
  exact ((frame_toStage s l 1).trans ((frame_setF _ (F.LNE_LANE_STATUS_SIG l) 0).trans (frame_setF _ (F.LNE_LANE_STATUS_CDR_LOCK l) 0))).mono (by simp) (by simp) (by simp)

theorem stage_laneRestart (s : State) (l : Nat) : (s.laneRestart l).stage_ l = 1 := by
  rw [laneRestart_eq, State.stage_,
    f_setF_bits (x := F.LNE_LANE_STATUS_CDR_LOCK l) (y := F.LNE_LANE_STATUS_STAGE l) _ _ rfl (le_refl 5) (by decide : 2 < 32) (.inr (by decide : 2 < 5)),
    f_setF_bits (x := F.LNE_LANE_STATUS_SIG l) (y := F.LNE_LANE_STATUS_STAGE l) _ _ rfl (le_refl 4) (by decide : 2 < 32) (.inr (by decide : 2 < 4))]
  exact stage_toStage s l (by decide)

theorem signal_laneRestart (s : State) (l : Nat) : (s.laneRestart l).on (F.LNE_LANE_STATUS_SIG l) = false ∧ (s.laneRestart l).on (F.LNE_LANE_STATUS_CDR_LOCK l) = false := by
  rw [laneRestart_eq]
  constructor
  · rw [State.on, f_setF_bits (x := F.LNE_LANE_STATUS_CDR_LOCK l) (y := F.LNE_LANE_STATUS_SIG l) _ _ rfl (le_refl 5) (by decide : 4 < 32) (.inr (by decide : 4 < 5)), ← State.on]
    exact on_setF_zero _ (x := F.LNE_LANE_STATUS_SIG l) (by decide : 4 < 32) rfl
  · exact on_setF_zero _ (x := F.LNE_LANE_STATUS_CDR_LOCK l) (by decide : 5 < 32) rfl

theorem evNow_laneRestart (s : State) (l : Nat) : (s.laneRestart l).evNow = s.evNow := evNow_toStage s l 1

/-- The lanes of a list stand at stage `n`. -/
structure LanesAt (n : Nat) (ls : List Nat) (s t : State) : Prop where
  frame : Frame (ls.map R.LNE_LANE_STATUS) [] [.cal, .lne] s t
  stage : ∀ l ∈ ls, t.stage_ l = n
  evNow : t.evNow = s.evNow

theorem laneStatus_inj {l m : Nat} (h : R.LNE_LANE_STATUS l = R.LNE_LANE_STATUS m) : l = m := by
  simp only [R.LNE_LANE_STATUS] at h
  omega

/-- An operation that moves one lane to stage `n`, done for each lane of a list. -/
theorem lanesAt_foldl {op : State → Nat → State} {n : Nat} (h : ∀ (u : State) (l : Nat), LanesAt n [l] u (op u l)) (ls : List Nat) (s : State) :
    LanesAt n ls s (ls.foldl op s) := by
  induction ls generalizing s with
  | nil => exact ⟨(Frame.refl s).mono (by simp) (by simp) (by simp), by simp, rfl⟩
  | cons l r ih =>
    obtain ⟨hframe, hstage, hev⟩ := h s l
    obtain ⟨hframe', hstage', hev'⟩ := ih (op s l)
    refine ⟨(hframe.trans hframe').mono (by simp) (by simp) (by simp), fun m hm => ?_, hev'.trans hev⟩
    by_cases hr : m ∈ r
    · exact hstage' m hr
    · obtain rfl : m = l := (List.mem_cons.mp hm).resolve_right hr
      have hout : R.LNE_LANE_STATUS m ∉ r.map R.LNE_LANE_STATUS := fun hin => by
        obtain ⟨k, hk, hkm⟩ := List.mem_map.mp hin
        exact hr (laneStatus_inj hkm ▸ hk)
      rw [List.foldl_cons, hframe'.stage_eq hout]
      exact hstage m (List.mem_singleton_self m)

theorem lanesAt_laneRestart (ls : List Nat) (s : State) : LanesAt 1 ls s (ls.foldl State.laneRestart s) :=
  lanesAt_foldl (fun u l => ⟨frame_laneRestart u l, fun m hm => by rw [List.mem_singleton.mp hm]; exact stage_laneRestart u l, evNow_laneRestart u l⟩) ls s

theorem lanesAt_toStage {n : Nat} (hn : n < 8) (ls : List Nat) (s : State) : LanesAt n ls s (ls.foldl (fun (t : State) l => t.toStage l n) s) :=
  lanesAt_foldl (fun u l => ⟨frame_toStage u l n, fun m hm => by rw [List.mem_singleton.mp hm]; exact stage_toStage u l hn, evNow_toStage u l n⟩) ls s

/-! ## Ports -/

/-- A port stands in state `n`. -/
def State.portMoved (s : State) (st : Bool) (p n : Nat) : State :=
  (s.setF (portStateF st p) n).setLport st p
    { s.lport st p with at_ := s.clk.ns, ok := decide (3 ≤ n) && (s.lport st p).ok, switch := decide (2 ≤ n) && (s.lport st p).switch }

/-- A port that leaves READY. -/
def State.portLeft (s : State) (st : Bool) (p : Nat) : State :=
  ((s.bump (portReg st p 0x14)).setF F.LNE_FLAGS_PORT_DOWN 1).raise 0x0E05 (if st then 8 + p else p)

/-- An Ethernet port shows whether it receives. -/
def State.portShown (s : State) (st : Bool) (p : Nat) : State := if st then s else s.rxUpdate p

theorem portTo_kept {s : State} {st : Bool} {p n : Nat} (hwas : s.f (portStateF st p) ≠ 4) (hn : n ≠ 4) : s.portTo st p n = (s.portMoved st p n).portShown st p := by
  have hstay : ¬ (s.f (portStateF st p) = 4 ∧ n ≠ 4) := fun h => hwas h.1
  have hlock : ¬ (n = 4 ∧ s.f (portStateF st p) ≠ 4) := fun h => hn h.1
  simp only [State.portTo, if_neg hstay, if_neg hlock]
  rfl

theorem portTo_ready {s : State} {st : Bool} {p n : Nat} (hwas : s.f (portStateF st p) ≠ 4) (hn : n = 4) :
    s.portTo st p n = ((s.portMoved st p n).portShown st p).raise 0x0E04 (if st then 8 + p else p) := by
  have hstay : ¬ (s.f (portStateF st p) = 4 ∧ n ≠ 4) := fun h => hwas h.1
  have hlock : n = 4 ∧ s.f (portStateF st p) ≠ 4 := ⟨hn, hwas⟩
  simp only [State.portTo, if_neg hstay, if_pos hlock]
  rfl

theorem portTo_left {s : State} {st : Bool} {p n : Nat} (hwas : s.f (portStateF st p) = 4) (hn : n ≠ 4) :
    s.portTo st p n = if st then ((s.portMoved st p n).portLeft st p).linkReset p else ((s.portMoved st p n).portLeft st p).rxUpdate p := by
  have hleft : s.f (portStateF st p) = 4 ∧ n ≠ 4 := ⟨hwas, hn⟩
  have hlock : ¬ (n = 4 ∧ s.f (portStateF st p) ≠ 4) := fun h => hn h.1
  simp only [State.portTo, if_pos hleft, if_neg hlock]
  rfl

theorem frame_portMoved (s : State) (st : Bool) (p n : Nat) : Frame [(portStateF st p).addr] [] [.lne] s (s.portMoved st p n) :=
  (frame_setF s _ n).trans (frame_setLport _ st p _)

theorem state_portMoved (s : State) (st : Bool) (p : Nat) {n : Nat} (hn : n < 8) : (s.portMoved st p n).f (portStateF st p) = n := by
  have hset : (s.setF (portStateF st p) n).f (portStateF st p) = n := by
    cases st
    case true => exact (f_setF_same s (F.LNE_SPORT_STATUS_STATE p) n (by decide : 2 < 32)).trans (Nat.mod_eq_of_lt hn)
    case false => exact (f_setF_same s (F.LNE_EPORT_STATUS_STATE p) n (by decide : 2 < 32)).trans (Nat.mod_eq_of_lt hn)
  rw [State.portMoved, (frame_setLport _ st p _).f_eq (by simp), hset]

theorem frame_portLeft (s : State) (st : Bool) (p : Nat) : Frame [portReg st p 0x14, R.LNE_FLAGS] [] [] s (s.portLeft st p) :=
  (frame_bump s _).trans ((frame_setF _ F.LNE_FLAGS_PORT_DOWN 1).trans (frame_raise _ _ _))

theorem flag_portLeft (s : State) (st : Bool) (p : Nat) : (s.portLeft st p).on F.LNE_FLAGS_PORT_DOWN = true := on_setF_one _ (x := F.LNE_FLAGS_PORT_DOWN) (by decide) rfl

theorem portReg_ne_flags (st : Bool) (p o : Nat) : portReg st p o ≠ R.LNE_FLAGS := by
  cases st <;> simp only [portReg, R.LNE_SPORT_STATUS, R.LNE_EPORT_STATUS, R.LNE_FLAGS, Bool.false_eq_true, if_false, if_true] <;> omega

theorem count_portLeft (s : State) (st : Bool) (p : Nat) : (s.portLeft st p).rdn (portReg st p 0x14) = (s.rdn (portReg st p 0x14) + 1) % 2 ^ 32 := by
  rw [State.portLeft, rdn_raise, rdn_setF_ne _ _ (portReg_ne_flags st p 0x14), rdn_bump_same]

/-! ## Links -/

/-- A link holds nothing and is DOWN. -/
def State.linkCleared (s : State) (p : Nat) : State :=
  ({ s with links := Tab.put (fun _ => ({} : LinkSt)) s.links p {} } : State).setF (F.CNV_LINK_STATUS_B1_0 p) 0

theorem frame_linkCleared (s : State) (p : Nat) : Frame [R.CNV_LINK_STATUS p] [] [.links] s (s.linkCleared p) :=
  (frame_links s _).trans (frame_setF _ (F.CNV_LINK_STATUS_B1_0 p) 0)

theorem link_linkCleared (s : State) (p : Nat) : (s.linkCleared p).link p = {} :=
  ((frame_setF _ (F.CNV_LINK_STATUS_B1_0 p) 0).link_eq (by simp) p).trans (Tab.get_put_same (fun _ => ({} : LinkSt)) s.links p {})

theorem down_linkCleared (s : State) (p : Nat) : (s.linkCleared p).f (F.CNV_LINK_STATUS_B1_0 p) = 0 :=
  f_setF_same _ (F.CNV_LINK_STATUS_B1_0 p) 0 (by decide : 1 < 32)

theorem linkReset_eq (s : State) (p : Nat) :
    s.linkReset p = if (s.linkCleared p).fn (fnStaord p) == .ready then (s.linkCleared p).setFn (fnStaord p) .starting else s.linkCleared p := rfl

theorem linkReset_starting {s : State} {p : Nat} (h : s.fn (fnStaord p) = .starting) : s.linkReset p = s.linkCleared p := by
  have hfn : (s.linkCleared p).fn (fnStaord p) = .starting := h
  rw [linkReset_eq, hfn]
  rfl

theorem linkReset_ready {s : State} {p : Nat} (h : s.fn (fnStaord p) = .ready) : s.linkReset p = (s.linkCleared p).setFn (fnStaord p) .starting := by
  have hfn : (s.linkCleared p).fn (fnStaord p) = .ready := h
  rw [linkReset_eq, hfn]
  rfl

end Sys2Proof.Machine
end

section
/-!
PROOFS. The lock and the loss of lanes and ports (R288, R290, R291).
-/

namespace Sys2Proof.Machine

/-! ## A port of one kind -/

section
variable (s : State) (p n : Nat)

theorem frame_sportMoved : Frame [R.LNE_SPORT_STATUS p] [] [.lne] s (s.portMoved true p n) := frame_portMoved s true p n

theorem frame_eportMoved : Frame [R.LNE_EPORT_STATUS p] [] [.lne] s (s.portMoved false p n) := frame_portMoved s false p n

theorem state_sportMoved {n : Nat} (hn : n < 8) : (s.portMoved true p n).f (F.LNE_SPORT_STATUS_STATE p) = n := state_portMoved s true p hn

theorem state_eportMoved {n : Nat} (hn : n < 8) : (s.portMoved false p n).f (F.LNE_EPORT_STATUS_STATE p) = n := state_portMoved s false p hn

theorem evNow_portMoved (st : Bool) : (s.portMoved st p n).evNow = s.evNow := rfl

theorem frame_eportLeft : Frame [portReg false p 0x14, R.LNE_FLAGS] [] [] s (s.portLeft false p) := frame_portLeft s false p

theorem portReg_sport (o : Nat) : portReg true p o = R.LNE_SPORT_STATUS p + o := rfl

theorem portReg_eport (o : Nat) : portReg false p o = R.LNE_EPORT_STATUS p + o := rfl

end

/-- An Ethernet port that is not READY does not receive. -/
theorem rxUp_down {s : State} {p : Nat} (h : s.f (F.LNE_EPORT_STATUS_STATE p) ≠ 4) : (s.rxUpdate p).on (F.ETH_PORT_STATUS_RX_UP p) = false := by
  have hup := rxUp_rxUpdate s p
  rw [beq_eq_false_iff_ne.mpr h] at hup
  exact hup

/-- An Ethernet port that is READY and sees no fault receives. -/
theorem rxUp_ready {s : State} {p : Nat} (h : s.f (F.LNE_EPORT_STATUS_STATE p) = 4) (hlocal : s.on (F.ETH_PORT_STATUS_LOCAL_FAULT p) = false)
    (hremote : s.on (F.ETH_PORT_STATUS_REMOTE_FAULT p) = false) : (s.rxUpdate p).on (F.ETH_PORT_STATUS_RX_UP p) = true := by
  have hup := rxUp_rxUpdate s p
  rw [h, hlocal, hremote] at hup
  exact hup

theorem state_rxUpdate (s : State) {p : Nat} (hp : p < 8) : (s.rxUpdate p).f (F.LNE_EPORT_STATUS_STATE p) = s.f (F.LNE_EPORT_STATUS_STATE p) :=
  (frame_rxUpdate s p).f_eq (y := F.LNE_EPORT_STATUS_STATE p) (by simp [R.LNE_EPORT_STATUS, R.ETH_PORT_STATUS]; omega)

theorem evNow_rxUpdate (s : State) (p : Nat) : (s.rxUpdate p).evNow = s.evNow := rfl

/-! ## FEC_LOCK (R290) -/

/-- A Staord port locks. -/
theorem fecLock_sport {s : State} {p : Nat} (hp : p < 8) (hstate : s.f (F.LNE_SPORT_STATUS_STATE p) = 3) (hfn : s.fn (fnStaord p) = .starting) :
    Completes (.fecLock true p) s fun t => t.f (F.LNE_SPORT_STATUS_STATE p) = 4 ∧ t.f (F.CNV_LINK_STATUS_B1_0 p) = 1 ∧ t.link p = {} ∧ t.fn (fnStaord p) = .starting ∧
      Logged [⟨0x0E04, 8 + p⟩] s t ∧ Keeps [R.LNE_SPORT_STATUS p, R.CNV_LINK_STATUS p] [] [.lne, .links, .log] s t := by
  have hstate' : s.begin.f (portStateF true p) = 3 := hstate
  have hready : s.begin.portTo true p 4 = (s.begin.portMoved true p 4).raise 0x0E04 (8 + p) := portTo_ready (by rw [hstate']; decide) rfl
  have hop : s.begin.fecLock true p = ((s.begin.portTo true p 4).linkReset p).setF (F.CNV_LINK_STATUS_B1_0 p) 1 := by
    rw [State.fecLock, if_neg (fun hne => hne hstate')]
    rfl
  rw [hready] at hop
  have hmoved := (frame_sportMoved s.begin p 4).trans (frame_raise (s.begin.portMoved true p 4) 0x0E04 (8 + p))
  have hnow : ((s.begin.portMoved true p 4).raise 0x0E04 (8 + p)).f (F.LNE_SPORT_STATUS_STATE p) = 4 := state_sportMoved s.begin p (by decide)
  have hev : ((s.begin.portMoved true p 4).raise 0x0E04 (8 + p)).evNow = [⟨0x0E04, 8 + p⟩] := rfl
  have hfn' : ((s.begin.portMoved true p 4).raise 0x0E04 (8 + p)).fn (fnStaord p) = .starting := (hmoved.2.1 _ (by simp)).trans hfn
  generalize (s.begin.portMoved true p 4).raise 0x0E04 (8 + p) = u at *
  rw [linkReset_starting hfn'] at hop
  have hclear := frame_linkCleared u p
  have hlink := link_linkCleared u p
  have hevClear : (u.linkCleared p).evNow = u.evNow := rfl
  generalize u.linkCleared p = v at *
  have hset := frame_setF v (F.CNV_LINK_STATUS_B1_0 p) 1
  have hdelay : (v.setF (F.CNV_LINK_STATUS_B1_0 p) 1).f (F.CNV_LINK_STATUS_B1_0 p) = 1 := f_setF_same v (F.CNV_LINK_STATUS_B1_0 p) 1 (by decide : 1 < 32)
  have hevSet : (v.setF (F.CNV_LINK_STATUS_B1_0 p) 1).evNow = v.evNow := rfl
  generalize v.setF (F.CNV_LINK_STATUS_B1_0 p) 1 = e at *
  have hlast := hclear.trans hset
  have hframe := hmoved.trans hlast
  have hlog : e.log = s.log := hframe.part (p := .log) (by simp)
  exact completes_of_frame (op := (·.idx p 8 fun s => s.fecLock true p)) rfl ((idx_of_lt hp).trans hop) (hframe.mono (by simp) (by simp) (by simp)) (.inr (by simp)) fun hkeeps =>
    ⟨(hlast.f_eq (y := F.LNE_SPORT_STATUS_STATE p) (by simp [R.LNE_SPORT_STATUS, R.CNV_LINK_STATUS]; omega)).trans hnow, hdelay, (hset.link_eq (by simp) p).trans hlink,
      (hlast.2.1 _ (by simp)).trans hfn', finish_logged (by rw [hevSet, hevClear, hev]; rfl) ⟨congrArg LogSt.ring hlog, congrArg LogSt.head hlog⟩ (by simp) (by simp; omega), hkeeps⟩

/-- An Ethernet port locks. -/
theorem fecLock_eport {s : State} {p : Nat} (hp : p < 8) (hstate : s.f (F.LNE_EPORT_STATUS_STATE p) = 3) (hlocal : s.on (F.ETH_PORT_STATUS_LOCAL_FAULT p) = false)
    (hremote : s.on (F.ETH_PORT_STATUS_REMOTE_FAULT p) = false) :
    Completes (.fecLock false p) s fun t => t.f (F.LNE_EPORT_STATUS_STATE p) = 4 ∧ t.on (F.ETH_PORT_STATUS_RX_UP p) = true ∧ Logged [⟨0x0E04, p⟩] s t ∧
      Keeps [R.LNE_EPORT_STATUS p, R.ETH_PORT_STATUS p] [] [.lne, .log] s t := by
  have hstate' : s.begin.f (portStateF false p) = 3 := hstate
  have hop : s.begin.fecLock false p = ((s.begin.portMoved false p 4).rxUpdate p).raise 0x0E04 p := by
    rw [State.fecLock, if_neg (fun hne => hne hstate')]
    exact portTo_ready (st := false) (by rw [hstate']; decide) rfl
  have hmoved := frame_eportMoved s.begin p 4
  have hnow := state_eportMoved s.begin p (n := 4) (by decide)
  have hev : (s.begin.portMoved false p 4).evNow = [] := rfl
  generalize s.begin.portMoved false p 4 = u at *
  have hrx := frame_rxUpdate u p
  have hup := rxUp_ready hnow ((hmoved.on_eq (y := F.ETH_PORT_STATUS_LOCAL_FAULT p) (by simp [R.LNE_EPORT_STATUS, R.ETH_PORT_STATUS]; omega)).trans hlocal)
    ((hmoved.on_eq (y := F.ETH_PORT_STATUS_REMOTE_FAULT p) (by simp [R.LNE_EPORT_STATUS, R.ETH_PORT_STATUS]; omega)).trans hremote)
  have hstill := (state_rxUpdate u hp).trans hnow
  have hevRx := evNow_rxUpdate u p
  generalize u.rxUpdate p = v at *
  have hraise := frame_raise v 0x0E04 p
  have hframe := hmoved.trans (hrx.trans hraise)
  have hlog : (v.raise 0x0E04 p).log = s.log := hframe.part (p := .log) (by simp)
  exact completes_of_frame (op := (·.idx p 8 fun s => s.fecLock false p)) rfl ((idx_of_lt hp).trans hop) (hframe.mono (by simp) (by simp) (by simp)) (.inr (by simp)) fun hkeeps =>
    ⟨hstill, hup, finish_logged (congrArg (fun l => evSort (l ++ [(⟨0x0E04, p⟩ : Ev)])) (hevRx.trans hev)) ⟨congrArg LogSt.ring hlog, congrArg LogSt.head hlog⟩
      (by simp) (by simp; omega), hkeeps⟩

/-! ## FEC_LOSS (R290) -/

/-- An Ethernet port that misses its skip codewords. -/
theorem fecLoss_eport {s : State} {p m : Nat} (hp : p < 8) (hstate : s.f (F.LNE_EPORT_STATUS_STATE p) = 4) (hloss : s.f F.LNE_FEC_LOSS_CNT ≤ m) :
    Completes (.fecLoss false p m ⟨0, 0⟩) s fun t => t.f (F.LNE_EPORT_STATUS_STATE p) = 2 ∧ t.on (F.ETH_PORT_STATUS_RX_UP p) = false ∧ t.on F.LNE_FLAGS_PORT_DOWN = true ∧
      t.rdn (portReg false p 0x14) = (s.rdn (portReg false p 0x14) + 1) % 2 ^ 32 ∧ Logged [⟨0x0E05, p⟩] s t ∧
      Keeps [R.LNE_EPORT_STATUS p, portReg false p 0x14, R.LNE_FLAGS, R.ETH_PORT_STATUS p] [] [.lne, .log] s t := by
  have hstate' : s.begin.f (portStateF false p) = 4 := hstate
  have hlimit : s.begin.f F.LNE_FEC_LOSS_CNT ≤ m ∨ s.begin.f F.LNE_FEC_UNCORR ≤ 0 := .inl hloss
  have hop : s.begin.fecLoss false p m 0 0 = ((s.begin.portMoved false p 2).portLeft false p).rxUpdate p := by
    have hshape : s.begin.fecLoss false p m 0 0 = s.begin.portTo false p 2 := by
      simp only [State.fecLoss, hstate', ne_eq, not_true_eq_false, if_false, if_true, if_pos hlimit, Bool.not_false]
    rw [hshape]
    exact portTo_left (st := false) hstate' (by decide)
  have hmoved := frame_eportMoved s.begin p 2
  have hnow := state_eportMoved s.begin p (n := 2) (by decide)
  have hev : (s.begin.portMoved false p 2).evNow = [] := rfl
  generalize s.begin.portMoved false p 2 = u at *
  have hleft := frame_eportLeft u p
  have hflag := flag_portLeft u false p
  have hcount := count_portLeft u false p
  have hevLeft : (u.portLeft false p).evNow = u.evNow ++ [⟨0x0E05, p⟩] := rfl
  generalize u.portLeft false p = v at *
  have hnow' : v.f (F.LNE_EPORT_STATUS_STATE p) = 2 :=
    (hleft.f_eq (y := F.LNE_EPORT_STATUS_STATE p) (by simp [portReg_eport, R.LNE_EPORT_STATUS, R.LNE_FLAGS]; omega)).trans hnow
  have hrx := frame_rxUpdate v p
  have hdown := rxUp_down (s := v) (p := p) (by rw [hnow']; decide)
  have hstill := (state_rxUpdate v hp).trans hnow'
  have hevRx := evNow_rxUpdate v p
  generalize v.rxUpdate p = e at *
  have hframe := hmoved.trans (hleft.trans hrx)
  have hlog : e.log = s.log := hframe.part (p := .log) (by simp)
  exact completes_of_frame (op := (·.idx p 8 fun s => s.fecLoss false p m 0 0)) rfl ((idx_of_lt hp).trans hop) (hframe.mono (by simp) (by simp) (by simp)) (.inr (by simp))
    fun hkeeps => ⟨hstill, hdown, (hrx.on_eq (y := F.LNE_FLAGS_PORT_DOWN) (by simp [R.LNE_FLAGS, R.ETH_PORT_STATUS]; omega)).trans hflag,
      (hrx.rdn_eq (by simp [portReg_eport, R.LNE_EPORT_STATUS, R.ETH_PORT_STATUS]; omega)).trans (hcount.trans (by
        rw [hmoved.rdn_eq (by simp [portReg_eport])]
        rfl)),
      finish_logged (by rw [hevRx, hevLeft, hev]; rfl) ⟨congrArg LogSt.ring hlog, congrArg LogSt.head hlog⟩ (by simp) (by simp; omega), hkeeps⟩

/-- A Staord port sends TRAINING. -/
def State.trainingSent (s : State) (p : Nat) : State := (s.setLport true p { s.lport true p with ok := false, switch := false }).emit (.training p 1)

theorem frame_trainingSent (s : State) (p : Nat) : Frame [] [] [.lne, .out] s (s.trainingSent p) := (frame_setLport s true p _).trans (frame_emit _ _)

theorem portQuads_eq {regs fns : List Nat} {parts : List Part} {s t : State} (h : Frame regs fns parts s t) (hr : ∀ q, q < 16 → R.LNE_QUAD_CTL q ∉ regs) (st : Bool) (p : Nat) :
    t.portQuads st p = s.portQuads st p := by
  refine List.filter_congr fun q hq => ?_
  have hq16 := hr q (List.mem_range.mp hq)
  rw [h.on_eq (y := F.LNE_QUAD_CTL_EN q) hq16, h.f_eq (y := F.LNE_QUAD_CTL_ROLE q) hq16, h.f_eq (y := F.LNE_QUAD_CTL_PORT q) hq16]

theorem portLanes_eq {regs fns : List Nat} {parts : List Part} {s t : State} (h : Frame regs fns parts s t) (hr : ∀ q, q < 16 → R.LNE_QUAD_CTL q ∉ regs) (st : Bool) (p : Nat) :
    t.portLanes st p = s.portLanes st p := by
  rw [State.portLanes, State.portLanes, portQuads_eq h hr]

theorem mem_portLanes {s : State} {st : Bool} {p l : Nat} (h : l ∈ s.portLanes st p) : l < 64 := by
  obtain ⟨q, hq, hl⟩ := List.mem_flatMap.mp h
  obtain ⟨i, hi, rfl⟩ := List.mem_map.mp hl
  have hq16 := List.mem_range.mp (List.mem_filter.mp hq).1
  have hi4 := List.mem_range.mp hi
  omega

theorem stages_of_lanesAt {n : Nat} {ls : List Nat} {s t : State} (h : LanesAt n ls s t) : ls.all (fun l => t.stage_ l == n) = true :=
  List.all_eq_true.mpr fun l hl => beq_iff_eq.mpr (h.stage l hl)

/-- What a lane's STATUS is not. -/
theorem notMem_lanes {s : State} {st : Bool} {p a : Nat} (h : ∀ l, l < 64 → a ≠ R.LNE_LANE_STATUS l) : a ∉ (s.portLanes st p).map R.LNE_LANE_STATUS := fun hin => by
  obtain ⟨l, hl, hla⟩ := List.mem_map.mp hin
  exact h l (mem_portLanes hl) hla.symm

/-- Every lane of a Staord port is in training. -/
def State.lanesTrained (s : State) (p : Nat) : State := (s.portLanes true p).foldl (fun (t : State) l => t.toStage l 3) s

theorem fecLoss_sport_eq {s : State} {p m : Nat} (hstate : s.f (F.LNE_SPORT_STATUS_STATE p) = 4) (hloss : s.f F.LNE_FEC_LOSS_CNT ≤ m) :
    s.fecLoss true p m 0 0 = ((((s.portMoved true p 2).portLeft true p).linkReset p).trainingSent p).lanesTrained p := by
  have hstate' : s.f (portStateF true p) = 4 := hstate
  have hlimit : s.f F.LNE_FEC_LOSS_CNT ≤ m ∨ s.f F.LNE_FEC_UNCORR ≤ 0 := .inl hloss
  have hmoved : s.portTo true p 2 = ((s.portMoved true p 2).portLeft true p).linkReset p := portTo_left (st := true) hstate' (by decide)
  have hshape : s.fecLoss true p m 0 0 = ((s.portTo true p 2).trainingSent p).lanesTrained p := by
    simp only [State.fecLoss, hstate', ne_eq, not_true_eq_false, if_false, if_true, if_pos hlimit, Bool.not_true, Bool.false_eq_true]
    rfl
  rw [hshape, hmoved]

/-- A Staord port that misses its skip codewords. -/
theorem fecLoss_sport {s : State} {p m : Nat} (hp : p < 8) (hstate : s.f (F.LNE_SPORT_STATUS_STATE p) = 4) (hloss : s.f F.LNE_FEC_LOSS_CNT ≤ m)
    (hfn : s.fn (fnStaord p) = .ready) :
    Completes (.fecLoss true p m ⟨0, 0⟩) s fun t => t.f (F.LNE_SPORT_STATUS_STATE p) = 2 ∧ (s.portLanes true p).all (fun l => t.stage_ l == 3) = true ∧ t.link p = {} ∧
      t.f (F.CNV_LINK_STATUS_B1_0 p) = 0 ∧ t.fn (fnStaord p) = .starting ∧ t.on F.LNE_FLAGS_PORT_DOWN = true ∧
      t.rdn (portReg true p 0x14) = (s.rdn (portReg true p 0x14) + 1) % 2 ^ 32 ∧ t.out = [.training p 1] ∧ Logged [⟨0x0E05, 8 + p⟩] s t ∧
      Keeps ([R.LNE_SPORT_STATUS p, portReg true p 0x14, R.LNE_FLAGS, R.CNV_LINK_STATUS p] ++ (s.portLanes true p).map R.LNE_LANE_STATUS) [fnStaord p]
        [.lne, .links, .cal, .fnAt, .out, .log] s t := by
  have hop := fecLoss_sport_eq (s := s.begin) hstate hloss
  have hmoved := frame_sportMoved s.begin p 2
  have hnow := state_sportMoved s.begin p (n := 2) (by decide)
  have hev : (s.begin.portMoved true p 2).evNow = [] := rfl
  have hout : (s.begin.portMoved true p 2).out = [] := rfl
  have hfn1 : (s.begin.portMoved true p 2).fn (fnStaord p) = .ready := hfn
  generalize s.begin.portMoved true p 2 = u at *
  have hleft := frame_portLeft u true p
  have hflag := flag_portLeft u true p
  have hcount := count_portLeft u true p
  have hevLeft : (u.portLeft true p).evNow = u.evNow ++ [⟨0x0E05, 8 + p⟩] := rfl
  have hfn2 : (u.portLeft true p).fn (fnStaord p) = .ready := hfn1
  generalize u.portLeft true p = v at *
  rw [linkReset_ready hfn2] at hop
  have hclear := frame_linkCleared v p
  have hlink := link_linkCleared v p
  have hdownLink := down_linkCleared v p
  have hevClear : (v.linkCleared p).evNow = v.evNow := rfl
  have hne : (v.linkCleared p).fn (fnStaord p) ≠ .starting := by
    rw [hclear.2.1 _ (by simp), hfn2]
    decide
  generalize v.linkCleared p = w at *
  have hstart := frame_setFn_starting hne
  have hfn3 := fn_setFn_starting hne
  have hevStart : (w.setFn (fnStaord p) .starting).evNow = w.evNow := by rw [setFn_starting hne]
  generalize w.setFn (fnStaord p) .starting = x at *
  have hsent := frame_trainingSent x p
  have hevSent : (x.trainingSent p).evNow = x.evNow := rfl
  have houtSent : (x.trainingSent p).out = x.out ++ [.training p 1] := rfl
  generalize x.trainingSent p = y at *
  have hbefore := hmoved.trans (hleft.trans (hclear.trans (hstart.trans hsent)))
  have hlanes : y.portLanes true p = s.portLanes true p := portLanes_eq hbefore
    (fun q hq => by simp [portReg_sport, R.LNE_QUAD_CTL, R.LNE_SPORT_STATUS, R.LNE_FLAGS, R.CNV_LINK_STATUS]; omega) true p
  rw [State.lanesTrained, hlanes] at hop
  have hat := lanesAt_toStage (n := 3) (by decide) (s.portLanes true p) y
  have hstages := stages_of_lanesAt hat
  generalize (s.portLanes true p).foldl (fun (t : State) l => t.toStage l 3) y = e at *
  have hlast := hat.frame
  have hframe := hbefore.trans hlast
  have hlog : e.log = s.log := hframe.part (p := .log) (by simp)
  have houtEnd : e.out = [.training p 1] := by
    rw [hlast.part (p := .out) (by simp), houtSent, hstart.part (p := .out) (by simp), hclear.part (p := .out) (by simp), hleft.part (p := .out) (by simp), hout]
    rfl
  have htail := hclear.trans (hstart.trans (hsent.trans hlast))
  have hflags : R.LNE_FLAGS ∉ (s.portLanes true p).map R.LNE_LANE_STATUS := notMem_lanes fun l _ => by simp only [R.LNE_FLAGS, R.LNE_LANE_STATUS]; omega
  have hreg : portReg true p 0x14 ∉ (s.portLanes true p).map R.LNE_LANE_STATUS :=
    notMem_lanes fun l hl => by simp only [portReg_sport, R.LNE_SPORT_STATUS, R.LNE_LANE_STATUS]; omega
  have hsport : R.LNE_SPORT_STATUS p ∉ (s.portLanes true p).map R.LNE_LANE_STATUS :=
    notMem_lanes fun l hl => by simp only [R.LNE_SPORT_STATUS, R.LNE_LANE_STATUS]; omega
  have hcnv : R.CNV_LINK_STATUS p ∉ (s.portLanes true p).map R.LNE_LANE_STATUS :=
    notMem_lanes fun l hl => by simp only [R.CNV_LINK_STATUS, R.LNE_LANE_STATUS]; omega
  refine completes_of_frame (op := (·.idx p 8 fun s => s.fecLoss true p m 0 0)) rfl ((idx_of_lt hp).trans hop) (hframe.mono ?_ (by simp) (by simp)) (.inr (by simp))
    fun hkeeps => ⟨?_, hstages, ?_, ?_, ?_, ?_, ?_, houtEnd, finish_logged ?_ ⟨congrArg LogSt.ring hlog, congrArg LogSt.head hlog⟩ (by simp) (by simp; omega), hkeeps⟩
  · simp
  · refine ((hleft.trans htail).f_eq (y := F.LNE_SPORT_STATUS_STATE p) ?_).trans hnow
    simp only [List.nil_append, List.cons_append, List.mem_cons, not_or]
    exact ⟨by simp [portReg_sport], by simp [R.LNE_SPORT_STATUS, R.LNE_FLAGS]; omega, by simp [R.LNE_SPORT_STATUS, R.CNV_LINK_STATUS]; omega, hsport⟩
  · exact ((hstart.trans (hsent.trans hlast)).link_eq (by simp) p).trans hlink
  · exact ((hstart.trans (hsent.trans hlast)).f_eq (y := F.CNV_LINK_STATUS_B1_0 p) (by simpa using hcnv)).trans hdownLink
  · exact ((hsent.trans hlast).2.1 _ (by simp)).trans hfn3
  · refine (htail.on_eq (y := F.LNE_FLAGS_PORT_DOWN) ?_).trans hflag
    simp only [List.nil_append, List.cons_append, List.mem_cons, not_or]
    exact ⟨by simp [R.LNE_FLAGS, R.CNV_LINK_STATUS]; omega, hflags⟩
  · refine (htail.rdn_eq ?_).trans (hcount.trans ?_)
    · simp only [List.nil_append, List.cons_append, List.mem_cons, not_or]
      exact ⟨by simp [portReg_sport, R.LNE_SPORT_STATUS, R.CNV_LINK_STATUS]; omega, hreg⟩
    · rw [hmoved.rdn_eq (by simp [portReg_sport])]
      rfl
  · rw [hat.evNow, hevSent, hevStart, hevClear, hevLeft, hev]
    rfl

/-- Corrected codewords are counted. -/
theorem fecLoss_corrected {s : State} {p m c : Nat} (hp : p < 8) (hstate : s.f (F.LNE_EPORT_STATUS_STATE p) = 4) (hloss : m < s.f F.LNE_FEC_LOSS_CNT)
    (huncorr : 0 < s.f F.LNE_FEC_UNCORR) :
    Completes (.fecLoss false p m ⟨0, c⟩) s fun t => t.f (F.LNE_EPORT_STATUS_STATE p) = 4 ∧ t.rdn (portReg false p 0x0C) = (s.rdn (portReg false p 0x0C) + c) % 2 ^ 32 ∧
      Keeps [portReg false p 0x0C] [] [] s t := by
  have hstate' : s.begin.f (portStateF false p) = 4 := hstate
  have hshape : s.begin.fecLoss false p m 0 c = (fun t : State => if t.f F.LNE_FEC_LOSS_CNT ≤ m ∨ t.f F.LNE_FEC_UNCORR ≤ 0 then t.portTo false p 2 else t)
      (if c = 0 then s.begin else s.begin.bumpBy (portReg false p 0x0C) c) := by
    simp only [State.fecLoss, hstate', ne_eq, not_true_eq_false, if_false, if_true, Bool.not_false]
  have hcounted : Frame [portReg false p 0x0C] [] [] s.begin (if c = 0 then s.begin else s.begin.bumpBy (portReg false p 0x0C) c) := by
    split
    · exact (Frame.refl _).mono (by simp) (by simp) (by simp)
    · exact frame_bumpBy _ _ _
  have hcount : (if c = 0 then s.begin else s.begin.bumpBy (portReg false p 0x0C) c).rdn (portReg false p 0x0C) = (s.rdn (portReg false p 0x0C) + c) % 2 ^ 32 := by
    split
    case isTrue h => rw [h, Nat.add_zero, State.rdn, State.rdn, Nat.mod_eq_of_lt (BitVec.isLt _)]; rfl
    case isFalse h => exact rdn_bumpBy_same _ _ _
  have hev : (if c = 0 then s.begin else s.begin.bumpBy (portReg false p 0x0C) c).evNow = [] := by split <;> rfl
  generalize (if c = 0 then s.begin else s.begin.bumpBy (portReg false p 0x0C) c) = e at *
  have hfec : ∀ y : Fld, y.addr = R.LNE_FEC → e.f y = s.f y := fun y hy => hcounted.f_eq (by rw [hy]; simp [portReg_eport, R.LNE_EPORT_STATUS, R.LNE_FEC]; omega)
  have hkept : ¬ (e.f F.LNE_FEC_LOSS_CNT ≤ m ∨ e.f F.LNE_FEC_UNCORR ≤ 0) := by
    rw [hfec _ rfl, hfec _ rfl]
    omega
  have hop : s.begin.fecLoss false p m 0 c = e := hshape.trans (if_neg hkept)
  exact completes_of_frame (op := (·.idx p 8 fun s => s.fecLoss false p m 0 c)) rfl ((idx_of_lt hp).trans hop) hcounted (.inl hev) fun hkeeps =>
    ⟨(hcounted.f_eq (y := F.LNE_EPORT_STATUS_STATE p) (by simp [portReg_eport])).trans hstate, hcount, hkeeps⟩

/-! ## STAGE_TIMEOUT (R288) -/

/-- A restart of a port is noted. -/
def State.timeoutNoted (s : State) (st : Bool) (p : Nat) : State :=
  ((s.bump (portReg st p 0x14)).setF F.LNE_FLAGS_TIMEOUT 1).raise 0x0E06 (if st then 8 + p else p)

theorem frame_timeoutNoted (s : State) (st : Bool) (p : Nat) : Frame [portReg st p 0x14, R.LNE_FLAGS] [] [] s (s.timeoutNoted st p) :=
  (frame_bump s _).trans ((frame_setF _ F.LNE_FLAGS_TIMEOUT 1).trans (frame_raise _ _ _))

theorem flag_timeoutNoted (s : State) (st : Bool) (p : Nat) : (s.timeoutNoted st p).on F.LNE_FLAGS_TIMEOUT = true :=
  on_setF_one _ (x := F.LNE_FLAGS_TIMEOUT) (by decide) rfl

theorem count_timeoutNoted (s : State) (st : Bool) (p : Nat) : (s.timeoutNoted st p).rdn (portReg st p 0x14) = (s.rdn (portReg st p 0x14) + 1) % 2 ^ 32 := by
  rw [State.timeoutNoted, rdn_raise, rdn_setF_ne _ _ (portReg_ne_flags st p 0x14), rdn_bump_same]

/-- A port that stays in DESKEW too long. -/
theorem stageTimeout_eq {s : State} {st : Bool} {p : Nat} (hstate : s.f (portStateF st p) = 2) :
    s.stageTimeout st p = ((s.toNs ((s.lport st p).at_ + s.f F.LNE_TRAIN_TIMEOUT * 1000000)).portRestart st p).timeoutNoted st p := by
  simp only [State.stageTimeout, hstate, show ¬ ((2 : Nat) = 0 ∨ (2 : Nat) = 4) by decide, if_false, show ¬ (2 : Nat) = 1 by decide]
  rfl

theorem portRestart_eq {s : State} {st : Bool} {p : Nat} (hstate : s.f (portStateF st p) = 2) :
    s.portRestart st p = (s.portLanes st p).foldl State.laneRestart ((s.portMoved st p 1).portShown st p) := by
  rw [State.portRestart, portTo_kept (by rw [hstate]; decide) (by decide)]

/-- A Staord port that stays in DESKEW too long. -/
theorem stageTimeout_sport {s : State} {p : Nat} (hp : p < 8) (hstate : s.f (F.LNE_SPORT_STATUS_STATE p) = 2) :
    Completes (.stageTimeout true p) s fun t => t.f (F.LNE_SPORT_STATUS_STATE p) = 1 ∧
      (s.portLanes true p).all (fun l => t.stage_ l == 1) = true ∧ (s.lport true p).at_ + s.f F.LNE_TRAIN_TIMEOUT * 1000000 ≤ t.clk.ns ∧ t.on F.LNE_FLAGS_TIMEOUT = true ∧
      t.rdn (portReg true p 0x14) = (s.rdn (portReg true p 0x14) + 1) % 2 ^ 32 ∧ Logged [⟨0x0E06, 8 + p⟩] s t ∧
      Keeps ([R.LNE_SPORT_STATUS p, portReg true p 0x14, R.LNE_FLAGS] ++ (s.portLanes true p).map R.LNE_LANE_STATUS) [] [.lne, .cal, .clk, .log] s t := by
  have hop := stageTimeout_eq (s := s.begin) (st := true) (p := p) hstate
  have htime := frame_toNs s.begin ((s.lport true p).at_ + s.f F.LNE_TRAIN_TIMEOUT * 1000000)
  have hns := le_toNs s.begin ((s.lport true p).at_ + s.f F.LNE_TRAIN_TIMEOUT * 1000000)
  have hev : (s.begin.toNs ((s.lport true p).at_ + s.f F.LNE_TRAIN_TIMEOUT * 1000000)).evNow = [] := rfl
  have hstate1 : (s.begin.toNs ((s.lport true p).at_ + s.f F.LNE_TRAIN_TIMEOUT * 1000000)).f (portStateF true p) = 2 := hstate
  have hlanes : (s.begin.toNs ((s.lport true p).at_ + s.f F.LNE_TRAIN_TIMEOUT * 1000000)).portLanes true p = s.portLanes true p := rfl
  rw [show s.begin.lport true p = s.lport true p from rfl, show s.begin.f F.LNE_TRAIN_TIMEOUT = s.f F.LNE_TRAIN_TIMEOUT from rfl] at hop
  generalize s.begin.toNs ((s.lport true p).at_ + s.f F.LNE_TRAIN_TIMEOUT * 1000000) = u at *
  rw [portRestart_eq hstate1, hlanes] at hop
  have hmoved : Frame [R.LNE_SPORT_STATUS p] [] [.lne] u ((u.portMoved true p 1).portShown true p) := frame_sportMoved u p 1
  have hnow : ((u.portMoved true p 1).portShown true p).f (F.LNE_SPORT_STATUS_STATE p) = 1 := state_sportMoved u p (n := 1) (by decide)
  have hev1 : ((u.portMoved true p 1).portShown true p).evNow = u.evNow := rfl
  generalize (u.portMoved true p 1).portShown true p = v at *
  have hat := lanesAt_laneRestart (s.portLanes true p) v
  generalize (s.portLanes true p).foldl State.laneRestart v = w at *
  have hat' := hat.frame
  have hnoted := frame_timeoutNoted w true p
  have hflag := flag_timeoutNoted w true p
  have hcount := count_timeoutNoted w true p
  have hevEnd : (w.timeoutNoted true p).evNow = w.evNow ++ [⟨0x0E06, 8 + p⟩] := rfl
  generalize w.timeoutNoted true p = e at *
  have hstages : (s.portLanes true p).all (fun l => e.stage_ l == 1) = true := List.all_eq_true.mpr fun l hl => beq_iff_eq.mpr <|
    (hnoted.stage_eq (by simp [portReg_sport, R.LNE_SPORT_STATUS, R.LNE_LANE_STATUS, R.LNE_FLAGS]; omega)).trans (hat.stage l hl)
  have hframe := htime.trans (hmoved.trans (hat'.trans hnoted))
  have hlog : e.log = s.log := hframe.part (p := .log) (by simp)
  have hclk : e.clk = u.clk := (hmoved.trans (hat'.trans hnoted)).part (p := .clk) (by simp)
  have hreg : portReg true p 0x14 ∉ (s.portLanes true p).map R.LNE_LANE_STATUS :=
    notMem_lanes fun l hl => by simp only [portReg_sport, R.LNE_SPORT_STATUS, R.LNE_LANE_STATUS]; omega
  have hsport : R.LNE_SPORT_STATUS p ∉ (s.portLanes true p).map R.LNE_LANE_STATUS :=
    notMem_lanes fun l hl => by simp only [R.LNE_SPORT_STATUS, R.LNE_LANE_STATUS]; omega
  refine completes_of_frame (op := (·.idx p 8 fun s => s.stageTimeout true p)) rfl ((idx_of_lt hp).trans hop) (hframe.mono ?_ (by simp) (by simp)) (.inr (by simp))
    fun hkeeps => ⟨?_, hstages, ?_, hflag, ?_, finish_logged ?_ ⟨congrArg LogSt.ring hlog, congrArg LogSt.head hlog⟩ (by simp) (by simp; omega), hkeeps⟩
  · intro a ha
    simp only [List.nil_append, List.cons_append, List.mem_cons, List.mem_append, List.not_mem_nil, or_false] at ha ⊢
    tauto
  · refine ((hat'.trans hnoted).f_eq (y := F.LNE_SPORT_STATUS_STATE p) ?_).trans hnow
    simp only [List.mem_append, List.mem_cons, List.not_mem_nil, or_false, not_or]
    exact ⟨hsport, by simp [portReg_sport], by simp [R.LNE_SPORT_STATUS, R.LNE_FLAGS]; omega⟩
  · rw [finish_clk, hclk]
    exact hns
  · refine hcount.trans ?_
    rw [hat'.rdn_eq hreg, hmoved.rdn_eq (by simp [portReg_sport]), htime.rdn_eq (by simp)]
    rfl
  · rw [hevEnd, hat.evNow, hev1, hev]
    rfl

/-- An Ethernet port that stays in DESKEW too long. -/
theorem stageTimeout_eport {s : State} {p : Nat} (hp : p < 8) (hstate : s.f (F.LNE_EPORT_STATUS_STATE p) = 2) :
    Completes (.stageTimeout false p) s fun t => t.f (F.LNE_EPORT_STATUS_STATE p) = 1 ∧
      (s.portLanes false p).all (fun l => t.stage_ l == 1) = true ∧ (s.lport false p).at_ + s.f F.LNE_TRAIN_TIMEOUT * 1000000 ≤ t.clk.ns ∧ t.on F.LNE_FLAGS_TIMEOUT = true ∧
      t.rdn (portReg false p 0x14) = (s.rdn (portReg false p 0x14) + 1) % 2 ^ 32 ∧ t.on (F.ETH_PORT_STATUS_RX_UP p) = false ∧ Logged [⟨0x0E06, p⟩] s t ∧
      Keeps ([R.LNE_EPORT_STATUS p, portReg false p 0x14, R.LNE_FLAGS, R.ETH_PORT_STATUS p] ++ (s.portLanes false p).map R.LNE_LANE_STATUS) [] [.lne, .cal, .clk, .log] s t := by
  have hop := stageTimeout_eq (s := s.begin) (st := false) (p := p) hstate
  have htime := frame_toNs s.begin ((s.lport false p).at_ + s.f F.LNE_TRAIN_TIMEOUT * 1000000)
  have hns := le_toNs s.begin ((s.lport false p).at_ + s.f F.LNE_TRAIN_TIMEOUT * 1000000)
  have hev : (s.begin.toNs ((s.lport false p).at_ + s.f F.LNE_TRAIN_TIMEOUT * 1000000)).evNow = [] := rfl
  have hstate1 : (s.begin.toNs ((s.lport false p).at_ + s.f F.LNE_TRAIN_TIMEOUT * 1000000)).f (portStateF false p) = 2 := hstate
  have hlanes : (s.begin.toNs ((s.lport false p).at_ + s.f F.LNE_TRAIN_TIMEOUT * 1000000)).portLanes false p = s.portLanes false p := rfl
  rw [show s.begin.lport false p = s.lport false p from rfl, show s.begin.f F.LNE_TRAIN_TIMEOUT = s.f F.LNE_TRAIN_TIMEOUT from rfl] at hop
  generalize s.begin.toNs ((s.lport false p).at_ + s.f F.LNE_TRAIN_TIMEOUT * 1000000) = u at *
  rw [portRestart_eq hstate1, hlanes, show (u.portMoved false p 1).portShown false p = (u.portMoved false p 1).rxUpdate p from rfl] at hop
  have hmoved := frame_eportMoved u p 1
  have hnow := state_eportMoved u p (n := 1) (by decide)
  have hev1 := evNow_portMoved u p 1 false
  generalize u.portMoved false p 1 = x at *
  have hrx := frame_rxUpdate x p
  have hdown := rxUp_down (s := x) (p := p) (by rw [hnow]; decide)
  have hstill := (state_rxUpdate x hp).trans hnow
  have hevRx := evNow_rxUpdate x p
  generalize x.rxUpdate p = v at *
  have hat := lanesAt_laneRestart (s.portLanes false p) v
  generalize (s.portLanes false p).foldl State.laneRestart v = w at *
  have hat' := hat.frame
  have hnoted := frame_timeoutNoted w false p
  have hflag := flag_timeoutNoted w false p
  have hcount := count_timeoutNoted w false p
  have hevEnd : (w.timeoutNoted false p).evNow = w.evNow ++ [⟨0x0E06, p⟩] := rfl
  generalize w.timeoutNoted false p = e at *
  have hstages : (s.portLanes false p).all (fun l => e.stage_ l == 1) = true := List.all_eq_true.mpr fun l hl => beq_iff_eq.mpr <|
    (hnoted.stage_eq (by simp [portReg_eport, R.LNE_EPORT_STATUS, R.LNE_LANE_STATUS, R.LNE_FLAGS]; omega)).trans (hat.stage l hl)
  have hlast := hat'.trans hnoted
  have hframe := htime.trans (hmoved.trans (hrx.trans hlast))
  have hlog : e.log = s.log := hframe.part (p := .log) (by simp)
  have hclk : e.clk = u.clk := (hmoved.trans (hrx.trans hlast)).part (p := .clk) (by simp)
  have hreg : portReg false p 0x14 ∉ (s.portLanes false p).map R.LNE_LANE_STATUS :=
    notMem_lanes fun l hl => by simp only [portReg_eport, R.LNE_EPORT_STATUS, R.LNE_LANE_STATUS]; omega
  have heport : R.LNE_EPORT_STATUS p ∉ (s.portLanes false p).map R.LNE_LANE_STATUS :=
    notMem_lanes fun l hl => by simp only [R.LNE_EPORT_STATUS, R.LNE_LANE_STATUS]; omega
  have heth : R.ETH_PORT_STATUS p ∉ (s.portLanes false p).map R.LNE_LANE_STATUS :=
    notMem_lanes fun l hl => by simp only [R.ETH_PORT_STATUS, R.LNE_LANE_STATUS]; omega
  refine completes_of_frame (op := (·.idx p 8 fun s => s.stageTimeout false p)) rfl ((idx_of_lt hp).trans hop) (hframe.mono ?_ (by simp) (by simp)) (.inr (by simp))
    fun hkeeps => ⟨?_, hstages, ?_, hflag, ?_, ?_, finish_logged ?_ ⟨congrArg LogSt.ring hlog, congrArg LogSt.head hlog⟩ (by simp) (by simp; omega), hkeeps⟩
  · intro a ha
    simp only [List.nil_append, List.cons_append, List.mem_cons, List.mem_append, List.not_mem_nil, or_false] at ha ⊢
    tauto
  · refine (hlast.f_eq (y := F.LNE_EPORT_STATUS_STATE p) ?_).trans hstill
    simp only [List.mem_append, List.mem_cons, List.not_mem_nil, or_false, not_or]
    exact ⟨heport, by simp [portReg_eport], by simp [R.LNE_EPORT_STATUS, R.LNE_FLAGS]; omega⟩
  · rw [finish_clk, hclk]
    exact hns
  · refine hcount.trans ?_
    rw [hat'.rdn_eq hreg, hrx.rdn_eq (by simp [portReg_eport, R.LNE_EPORT_STATUS, R.ETH_PORT_STATUS]; omega), hmoved.rdn_eq (by simp [portReg_eport]), htime.rdn_eq (by simp)]
    rfl
  · refine (hlast.on_eq (y := F.ETH_PORT_STATUS_RX_UP p) ?_).trans hdown
    simp only [List.mem_append, List.mem_cons, List.not_mem_nil, or_false, not_or]
    exact ⟨heth, by simp [portReg_eport, R.LNE_EPORT_STATUS, R.ETH_PORT_STATUS]; omega, by simp [R.ETH_PORT_STATUS, R.LNE_FLAGS]; omega⟩
  · rw [hevEnd, hat.evNow, hevRx, hev1, hev]
    rfl

/-! ## LANE_LOSS (R291) -/

/-- The loss of a lane is noted. -/
def State.laneLossNoted (s : State) (l : Nat) : State := ((s.bump (R.LNE_LANE_LOSS_CNT l)).setF F.LNE_FLAGS_LANE_LOSS 1).raise 0x0E03 l

theorem frame_laneLossNoted (s : State) (l : Nat) : Frame [R.LNE_LANE_LOSS_CNT l, R.LNE_FLAGS] [] [] s (s.laneLossNoted l) :=
  (frame_bump s _).trans ((frame_setF _ F.LNE_FLAGS_LANE_LOSS 1).trans (frame_raise _ _ _))

theorem lanePort_eq {regs fns : List Nat} {parts : List Part} {s t : State} (h : Frame regs fns parts s t) {l : Nat} (hr : R.LNE_QUAD_CTL (l / 4) ∉ regs) :
    t.lanePort l = s.lanePort l := by
  rw [State.lanePort, State.lanePort, h.on_eq (y := F.LNE_QUAD_CTL_EN (l / 4)) hr, h.f_eq (y := F.LNE_QUAD_CTL_ROLE (l / 4)) hr, h.f_eq (y := F.LNE_QUAD_CTL_PORT (l / 4)) hr]

theorem laneLoss_eport_eq {s : State} {l p : Nat} (hstage : 2 ≤ s.stage_ l) (hport : (s.laneLossNoted l).lanePort l = some (false, p)) :
    s.laneLoss l = ((s.laneLossNoted l).portTo false p 1).laneRestart l := by
  have hshape : s.laneLoss l = match (s.laneLossNoted l).lanePort l with
      | none => (s.laneLossNoted l).laneRestart l
      | some (st, p) => if st then (((((s.laneLossNoted l).portTo st p 1).laneRestart l).portLanes true p).filter
          (fun m => m != l && decide (3 ≤ (((s.laneLossNoted l).portTo st p 1).laneRestart l).stage_ m))).foldl (fun (t : State) m => t.toStage m 3)
            (((s.laneLossNoted l).portTo st p 1).laneRestart l) else ((s.laneLossNoted l).portTo st p 1).laneRestart l := by
    rw [State.laneLoss, if_neg (Nat.not_lt.mpr hstage)]
    rfl
  rw [hshape, hport]
  rfl

/-- An Ethernet lane is lost while its port brings up its lanes. -/
theorem laneLoss_eport {s : State} {l p : Nat} (hl : l < 64) (hstage : 2 ≤ s.stage_ l) (hport : s.lanePort l = some (false, p)) (hp : p < 8)
    (hstate : s.f (F.LNE_EPORT_STATUS_STATE p) = 1) :
    Completes (.laneLoss l) s fun t => t.stage_ l = 1 ∧ t.f (F.LNE_EPORT_STATUS_STATE p) = 1 ∧ t.on (F.LNE_LANE_STATUS_SIG l) = false ∧
      t.on (F.LNE_LANE_STATUS_CDR_LOCK l) = false ∧ t.on F.LNE_FLAGS_LANE_LOSS = true ∧ t.rdn (R.LNE_LANE_LOSS_CNT l) = (s.rdn (R.LNE_LANE_LOSS_CNT l) + 1) % 2 ^ 32 ∧
      Logged [⟨0x0E03, l⟩] s t ∧ Keeps [R.LNE_LANE_STATUS l, R.LNE_LANE_LOSS_CNT l, R.LNE_FLAGS, R.LNE_EPORT_STATUS p, R.ETH_PORT_STATUS p] [] [.lne, .cal, .log] s t := by
  have hnoted := frame_laneLossNoted s.begin l
  have hop := laneLoss_eport_eq (s := s.begin) hstage ((lanePort_eq hnoted (by simp [R.LNE_QUAD_CTL, R.LNE_LANE_LOSS_CNT, R.LNE_FLAGS]; omega)).trans hport)
  have hflag : (s.begin.laneLossNoted l).on F.LNE_FLAGS_LANE_LOSS = true := on_setF_one _ (x := F.LNE_FLAGS_LANE_LOSS) (by decide) rfl
  have hcount : (s.begin.laneLossNoted l).rdn (R.LNE_LANE_LOSS_CNT l) = (s.rdn (R.LNE_LANE_LOSS_CNT l) + 1) % 2 ^ 32 := by
    rw [State.laneLossNoted, rdn_raise, rdn_setF_ne _ _ (by simp [R.LNE_LANE_LOSS_CNT, R.LNE_FLAGS]; omega), rdn_bump_same]
    rfl
  have hev : (s.begin.laneLossNoted l).evNow = [⟨0x0E03, l⟩] := rfl
  have hstate1 : (s.begin.laneLossNoted l).f (portStateF false p) = 1 :=
    (hnoted.f_eq (y := F.LNE_EPORT_STATUS_STATE p) (by simp [R.LNE_EPORT_STATUS, R.LNE_LANE_LOSS_CNT, R.LNE_FLAGS]; omega)).trans hstate
  generalize s.begin.laneLossNoted l = u at *
  rw [portTo_kept (by rw [hstate1]; decide) (by decide), show (u.portMoved false p 1).portShown false p = (u.portMoved false p 1).rxUpdate p from rfl] at hop
  have hmoved := frame_eportMoved u p 1
  have hnow := state_eportMoved u p (n := 1) (by decide)
  have hev1 := evNow_portMoved u p 1 false
  generalize u.portMoved false p 1 = x at *
  have hrx := frame_rxUpdate x p
  have hstill := (state_rxUpdate x hp).trans hnow
  have hevRx := evNow_rxUpdate x p
  generalize x.rxUpdate p = v at *
  have hlane := frame_laneRestart v l
  have hstageEnd := stage_laneRestart v l
  obtain ⟨hsig, hcdr⟩ := signal_laneRestart v l
  have hevEnd := evNow_laneRestart v l
  generalize v.laneRestart l = e at *
  have hlast := hmoved.trans (hrx.trans hlane)
  have hframe := hnoted.trans hlast
  have hlog : e.log = s.log := hframe.part (p := .log) (by simp)
  exact completes_of_frame (op := (·.idx l 64 fun s => s.laneLoss l)) rfl ((idx_of_lt hl).trans hop) (hframe.mono (by simp) (by simp) (by simp)) (.inr (by simp)) fun hkeeps =>
    ⟨hstageEnd, (hlane.f_eq (y := F.LNE_EPORT_STATUS_STATE p) (by simp [R.LNE_EPORT_STATUS, R.LNE_LANE_STATUS]; omega)).trans hstill, hsig, hcdr,
      (hlast.on_eq (y := F.LNE_FLAGS_LANE_LOSS) (by simp [R.LNE_EPORT_STATUS, R.LNE_LANE_STATUS, R.ETH_PORT_STATUS, R.LNE_FLAGS]; omega)).trans hflag,
      (hlast.rdn_eq (by simp [R.LNE_EPORT_STATUS, R.LNE_LANE_STATUS, R.ETH_PORT_STATUS, R.LNE_LANE_LOSS_CNT]; omega)).trans hcount,
      finish_logged (by rw [hevEnd, hevRx, hev1, hev]; rfl) ⟨congrArg LogSt.ring hlog, congrArg LogSt.head hlog⟩ (by simp) (by simp; omega), hkeeps⟩

/-! ## ALIGNMENT_MARKER_LOCK (R288) -/

/-- A lane is DONE. -/
def State.laneAligned (s : State) (l : Nat) (v : Bool) : State := (s.setF (F.LNE_LANE_STATUS_RX_INV l) (if v then 1 else 0)).laneDone l

theorem frame_laneAligned (s : State) (l : Nat) (v : Bool) : Frame [R.LNE_LANE_STATUS l] [] [] s (s.laneAligned l v) :=
  ((frame_setF s (F.LNE_LANE_STATUS_RX_INV l) _).trans ((frame_setF _ (F.LNE_LANE_STATUS_STAGE l) 4).trans (frame_raise _ _ _))).mono (by simp) (by simp) (by simp)

theorem stage_laneAligned (s : State) (l : Nat) (v : Bool) : (s.laneAligned l v).stage_ l = 4 := f_setF_same _ (F.LNE_LANE_STATUS_STAGE l) 4 (by decide : 2 < 32)

theorem inv_laneAligned (s : State) (l : Nat) (v : Bool) : (s.laneAligned l v).on (F.LNE_LANE_STATUS_RX_INV l) = v := by
  rw [State.laneAligned, State.laneDone, on_raise, State.on,
    f_setF_bits (x := F.LNE_LANE_STATUS_STAGE l) (y := F.LNE_LANE_STATUS_RX_INV l) _ _ rfl (Nat.zero_le 2) (by decide : 3 < 32) (.inl (by decide : 2 < 3)), ← State.on]
  cases v
  case true => exact on_setF_one _ (x := F.LNE_LANE_STATUS_RX_INV l) (by decide : 3 < 32) rfl
  case false => exact on_setF_zero _ (x := F.LNE_LANE_STATUS_RX_INV l) (by decide : 3 < 32) rfl

theorem alignmentLock_waits {s : State} {l p : Nat} {v : Bool} (hport : s.lanePort l = some (false, p)) (hstage : s.stage_ l = 3)
    (hdone : (s.laneAligned l v).lanesDone false p = false) : s.alignmentLock l v = s.laneAligned l v := by
  have hshape : s.alignmentLock l v = match s.lanePort l with
      | some (false, p) => if s.stage_ l ≠ 3 then s else
        if (s.laneAligned l v).lanesDone false p && (s.laneAligned l v).f (F.LNE_EPORT_STATUS_STATE p) == 1 then (s.laneAligned l v).portTo false p 2 else s.laneAligned l v
      | _ => s := rfl
  rw [hshape, hport]
  simp only [hstage, ne_eq, not_true_eq_false, if_false, hdone, Bool.false_and, Bool.false_eq_true]

/-- A lane finds its markers before others of its port. -/
theorem alignmentLock_completes {s : State} {l p : Nat} {v : Bool} (hl : l < 64) (hport : s.lanePort l = some (false, p)) (hstage : s.stage_ l = 3)
    (hothers : (s.portLanes false p).any (fun m => m != l && s.stage_ m != 4) = true) :
    Completes (.alignmentMarkerLock l v) s fun t => t.stage_ l = 4 ∧ t.on (F.LNE_LANE_STATUS_RX_INV l) = v ∧
      t.f (F.LNE_EPORT_STATUS_STATE p) = s.f (F.LNE_EPORT_STATUS_STATE p) ∧ Logged [⟨0x0E02, l⟩] s t ∧ Keeps [R.LNE_LANE_STATUS l] [] [.log] s t := by
  have haligned := frame_laneAligned s.begin l v
  have hp : p < 8 := by
    simp only [State.lanePort] at hport
    split at hport
    case isFalse => cases hport
    case isTrue =>
      have hpf : s.f (F.LNE_QUAD_CTL_PORT (l / 4)) = p := by
        split at hport
        · exact congrArg Prod.snd (Option.some.inj hport)
        · cases congrArg Prod.fst (Option.some.inj hport)
        · cases hport
      rw [← hpf]
      exact Nat.mod_lt _ (show 0 < 2 ^ 3 by decide)
  have hdone : (s.begin.laneAligned l v).lanesDone false p = false := by
    obtain ⟨m, hm, hnot⟩ := List.any_eq_true.mp hothers
    obtain ⟨hml, hm4⟩ := Bool.and_eq_true_iff.mp hnot
    refine List.all_eq_false.mpr ⟨m, ?_, ?_⟩
    · rw [portLanes_eq haligned (fun q hq => by simp [R.LNE_QUAD_CTL, R.LNE_LANE_STATUS]; omega)]
      exact hm
    · rw [haligned.stage_eq (by simpa using fun h => bne_iff_ne.mp hml (laneStatus_inj h))]
      have hstill : s.begin.stage_ m ≠ 4 := bne_iff_ne.mp hm4
      simpa using hstill
  have hop : s.begin.idx l 64 (fun s => s.alignmentLock l v) = s.begin.laneAligned l v := (idx_of_lt hl).trans (alignmentLock_waits hport hstage hdone)
  exact completes_of_frame (op := (·.idx l 64 fun s => s.alignmentLock l v)) rfl hop (haligned.mono (by simp) (by simp) (by simp)) (.inr (by simp)) fun hkeeps =>
    ⟨stage_laneAligned s.begin l v, inv_laneAligned s.begin l v,
      haligned.f_eq (y := F.LNE_EPORT_STATUS_STATE p) (by simp [R.LNE_EPORT_STATUS, R.LNE_LANE_STATUS]; omega),
      finish_logged rfl ⟨rfl, rfl⟩ (by simp) (by simp; omega), hkeeps⟩

/-- Settles O32: ports that lock and lose their lock, stages that take too long, a lost lane and one that is aligned. -/
theorem laneLockCommandsComplete : Obligations.LaneLockCommandsComplete := by
  unfold Obligations.LaneLockCommandsComplete
  exact ⟨fun s p hp hstate hfn => fecLock_sport hp hstate hfn,
    fun s p hp hstate hlocal hremote => fecLock_eport hp hstate hlocal hremote,
    fun s p m hp hstate hloss => fecLoss_eport hp hstate hloss,
    fun s p m hp hstate hloss hfn => fecLoss_sport hp hstate hloss hfn,
    fun s p m c hp hstate hloss huncorr => fecLoss_corrected hp hstate hloss huncorr,
    fun s p hp hstate => stageTimeout_sport hp hstate,
    fun s p hp hstate => stageTimeout_eport hp hstate,
    fun s l p hl hstage hport hp hstate => laneLoss_eport hl hstage hport hp hstate,
    fun s l p v hl hport hstage hothers => alignmentLock_completes hl hport hstage hothers⟩

end Sys2Proof.Machine
end

section
/-!
PROOFS. Lanes that train (R288, R289).
-/

namespace Sys2Proof.Machine

/-! ## SIGNAL_DETECT (R288) -/

/-- A lane with a signal. -/
theorem signalDetect_completes {s : State} {l : Nat} (hl : l < 64) (hstage : s.stage_ l = 1) :
    Completes (.signalDetect l) s fun t => t.stage_ l = 2 ∧ t.on (F.LNE_LANE_STATUS_SIG l) = true ∧
      (s.lane l).at_ + 100000 ≤ t.clk.ns ∧ (t.lane l).at_ = t.clk.ns ∧ Keeps [R.LNE_LANE_STATUS l] [] [.lne, .cal, .clk] s t := by
  have hop : s.begin.signalDetect l = ((s.begin.toNs ((s.lane l).at_ + 100000)).setF (F.LNE_LANE_STATUS_SIG l) 1).toStage l 2 := if_pos hstage
  have htime := frame_toNs s.begin ((s.lane l).at_ + 100000)
  have hns := le_toNs s.begin ((s.lane l).at_ + 100000)
  have hev : (s.begin.toNs ((s.lane l).at_ + 100000)).evNow = [] := rfl
  generalize s.begin.toNs ((s.lane l).at_ + 100000) = u at *
  have hset := frame_setF u (F.LNE_LANE_STATUS_SIG l) 1
  have hsig : (u.setF (F.LNE_LANE_STATUS_SIG l) 1).on (F.LNE_LANE_STATUS_SIG l) = true := on_setF_one u (x := F.LNE_LANE_STATUS_SIG l) (by decide : 4 < 32) rfl
  have hevSet : (u.setF (F.LNE_LANE_STATUS_SIG l) 1).evNow = u.evNow := rfl
  generalize u.setF (F.LNE_LANE_STATUS_SIG l) 1 = v at *
  have hmove := frame_toStage v l 2
  have hstageEnd := stage_toStage v l (n := 2) (by decide)
  have hlane := lane_toStage v l 2
  have hsigEnd := on_toStage v l 2 (j := 4) (by decide) (by decide)
  have hevEnd := evNow_toStage v l 2
  generalize v.toStage l 2 = e at *
  have hclk : e.clk = v.clk := hmove.part (p := .clk) (by simp)
  have hclk' : e.clk = u.clk := hclk.trans (hset.part (p := .clk) (by simp))
  refine completes_of_frame (op := (·.idx l 64 fun s => s.signalDetect l)) rfl ((idx_of_lt hl).trans hop) ((htime.trans (hset.trans hmove)).mono (by simp) (by simp) (by simp))
    (.inl (hevEnd.trans (hevSet.trans hev))) fun hkeeps => ⟨hstageEnd, hsigEnd.trans hsig, ?_, ?_, hkeeps⟩
  · rw [finish_clk, hclk']
    exact hns
  · rw [finish_clk, hclk]
    exact congrArg LaneSt.at_ hlane

/-! ## CDR_LOCK (R280, R344) -/

/-- The CDR of a lane locks, and its Sighting reports. -/
def State.cdrReported (s : State) (l : Nat) (q : List Nat) : State :=
  (s.setF (F.LNE_LANE_STATUS_CDR_LOCK l) 1).wrn (R.LNE_LANE_EYE l) (byteAt q 0 % 65536 + byteAt q 1 % 65536 * 65536)

theorem frame_cdrReported (s : State) (l : Nat) (q : List Nat) : Frame [R.LNE_LANE_STATUS l, R.LNE_LANE_EYE l] [] [] s (s.cdrReported l q) :=
  (frame_setF s (F.LNE_LANE_STATUS_CDR_LOCK l) 1).trans (frame_wrn _ _ _)

theorem lock_cdrReported (s : State) (l : Nat) (q : List Nat) : (s.cdrReported l q).on (F.LNE_LANE_STATUS_CDR_LOCK l) = true := by
  rw [State.cdrReported, (frame_wrn _ (R.LNE_LANE_EYE l) _).on_eq (by simp)]
  exact on_setF_one s (x := F.LNE_LANE_STATUS_CDR_LOCK l) (by decide : 5 < 32) rfl

/-- A start Sighting is judged by the limits alone. -/
theorem sightPasses_start {s t : State} (h : ∀ y : Fld, R.CAL_CHK 0 = y.addr → t.f y = s.f y) (l : Nat) (a b : List Int) (q : List Nat) :
    t.sightPasses 0 l true a b q = s.sightPasses 0 l true a b q := by
  simp only [State.sightPasses, h (F.CAL_CHK_MODE 0) rfl, h (F.CAL_CHK_TOL 0) rfl, h (F.CAL_CHK_QMIN 0) rfl, Bool.true_or]

/-- The temperature and the count of an accepted start Sighting. -/
def State.sightTaken (s : State) (l : Nat) (temp : Int) : State :=
  (({ s with cal := { s.cal with temps := Tab.put (fun _ => (none : Option Int)) s.cal.temps (256 * 0 + l) (some temp) } } : State).bump R.CAL_RUN_CNT).raise 0x1502 l

theorem frame_sightTaken (s : State) (l : Nat) (temp : Int) : Frame [R.CAL_RUN_CNT] [] [.cal] s (s.sightTaken l temp) :=
  (frame_cal s _).trans ((frame_bump _ _).trans (frame_raise _ _ _))

theorem count_sightTaken (s : State) (l : Nat) (temp : Int) : (s.sightTaken l temp).rdn R.CAL_RUN_CNT = (s.rdn R.CAL_RUN_CNT + 1) % 2 ^ 32 := by
  rw [State.sightTaken, rdn_raise, rdn_bump_same]
  rfl

/-- The trim of a lane. -/
def State.laneTrimmed (s : State) (l : Nat) (a : List Int) : State :=
  (s.setF (F.LNE_LANE_TRIM_PHASE l) (ofSigned 8 (a.getD 0 0))).setF (F.LNE_LANE_TRIM_OFFSET l) (ofSigned 8 (a.getD 1 0))

theorem frame_laneTrimmed (s : State) (l : Nat) (a : List Int) : Frame [R.LNE_LANE_TRIM l] [] [] s (s.laneTrimmed l a) :=
  ((frame_setF s (F.LNE_LANE_TRIM_PHASE l) _).trans (frame_setF _ (F.LNE_LANE_TRIM_OFFSET l) _)).mono (by simp) (by simp) (by simp)

theorem trim_laneTrimmed (s : State) (l : Nat) (a : List Int) : (s.laneTrimmed l a).f (F.LNE_LANE_TRIM_PHASE l) = ofSigned 8 (a.getD 0 0) ∧
    (s.laneTrimmed l a).f (F.LNE_LANE_TRIM_OFFSET l) = ofSigned 8 (a.getD 1 0) := by
  rw [State.laneTrimmed]
  constructor
  · rw [f_setF_bits (x := F.LNE_LANE_TRIM_OFFSET l) (y := F.LNE_LANE_TRIM_PHASE l) _ _ rfl (by decide : 8 ≤ 15) (by decide : 7 < 32) (.inr (by decide : 7 < 8)),
      f_setF_same s (F.LNE_LANE_TRIM_PHASE l) _ (by decide : 7 < 32)]
    exact Nat.mod_eq_of_lt (ofSigned_lt 8 _)
  · rw [f_setF_same _ (F.LNE_LANE_TRIM_OFFSET l) _ (by decide : 15 < 32)]
    exact Nat.mod_eq_of_lt (ofSigned_lt 8 _)

theorem cdrLock_accepted {s : State} {l : Nat} {a b : List Int} {e : List Nat} {c : Int} (hstage : s.stage_ l = 2) (hpll : s.lanePllRuns l = true)
    (hpass : (s.cdrReported l e).sightPasses 0 l true a b e = true) :
    s.cdrLock l a b e c = ((((s.cdrReported l e).sightTaken l c).laneTrimmed l a).setSight 0 l none).toStage l 3 := by
  have hready : ¬ (decide (s.stage_ l ≠ 2) || !s.lanePllRuns l) = true := by
    rw [hstage, hpll]
    exact Bool.false_ne_true
  have hshape : s.cdrLock l a b e c = if (s.cdrReported l e).sightPasses 0 l true a b e = true
      then ((((s.cdrReported l e).sightTaken l c).laneTrimmed l a).setSight 0 l none).toStage l 3
      else ((s.cdrReported l e).sightReject 0 l).laneRestart l := by
    rw [State.cdrLock, if_neg hready]
    rfl
  rw [hshape, if_pos hpass]

/-- The CDR of a lane locks. -/
theorem cdrLock_completes {s : State} {l : Nat} {a b : List Int} {e : List Nat} {c : Int} (hl : l < 64) (hstage : s.stage_ l = 2) (hpll : s.lanePllRuns l = true)
    (hpass : s.sightPasses 0 l true a b e = true) :
    Completes (.cdrLock l a b e c) s fun t => t.stage_ l = 3 ∧ t.on (F.LNE_LANE_STATUS_CDR_LOCK l) = true ∧ t.sight 0 l = none ∧
      t.f (F.LNE_LANE_TRIM_PHASE l) = ofSigned 8 (a.getD 0 0) ∧ t.f (F.LNE_LANE_TRIM_OFFSET l) = ofSigned 8 (a.getD 1 0) ∧
      t.rdn R.CAL_RUN_CNT = (s.rdn R.CAL_RUN_CNT + 1) % 2 ^ 32 ∧ Logged [⟨0x1502, l⟩] s t ∧
      Keeps [R.LNE_LANE_STATUS l, R.LNE_LANE_EYE l, R.LNE_LANE_TRIM l, R.CAL_RUN_CNT] [] [.lne, .cal, .log] s t := by
  have hreported := frame_cdrReported s.begin l e
  have hpass' : (s.begin.cdrReported l e).sightPasses 0 l true a b e = true := by
    rw [sightPasses_start (s := s.begin) (fun y hy => hreported.f_eq (by rw [← hy]; simp [R.CAL_CHK, R.LNE_LANE_STATUS, R.LNE_LANE_EYE]; omega))]
    exact hpass
  have hop := cdrLock_accepted (s := s.begin) (c := c) hstage hpll hpass'
  have hlock := lock_cdrReported s.begin l e
  have hev : (s.begin.cdrReported l e).evNow = [] := rfl
  have hlog : (s.begin.cdrReported l e).log = s.log := hreported.part (p := .log) (by simp)
  generalize s.begin.cdrReported l e = u at *
  have htaken := frame_sightTaken u l c
  have hcount := count_sightTaken u l c
  have hevTaken : (u.sightTaken l c).evNow = u.evNow ++ [⟨0x1502, l⟩] := rfl
  generalize u.sightTaken l c = v at *
  have htrimmed := frame_laneTrimmed v l a
  obtain ⟨hphase, hoffset⟩ := trim_laneTrimmed v l a
  have hevTrim : (v.laneTrimmed l a).evNow = v.evNow := rfl
  generalize v.laneTrimmed l a = w at *
  have hsight := frame_setSight w 0 l none
  have hevSight : (w.setSight 0 l none).evNow = w.evNow := rfl
  generalize w.setSight 0 l none = x at *
  have hmove := frame_toStage x l 3
  have hstageEnd := stage_toStage x l (n := 3) (by decide)
  have hlockEnd := on_toStage x l 3 (j := 5) (by decide) (by decide)
  have hsightEnd := sight_toStage x l (n := 3) (by decide)
  have hevEnd := evNow_toStage x l 3
  generalize x.toStage l 3 = z at *
  have hlast := hsight.trans hmove
  have hframe := hreported.trans (htaken.trans (htrimmed.trans hlast))
  have hlogEnd : z.log = s.log := hframe.part (p := .log) (by simp)
  refine completes_of_frame (op := (·.idx l 64 fun s => s.cdrLock l a b e c)) rfl ((idx_of_lt hl).trans hop) (hframe.mono (by simp) (by simp) (by simp)) (.inr (by simp))
    fun hkeeps => ⟨hstageEnd, hlockEnd.trans (((htaken.trans (htrimmed.trans hsight)).on_eq ?_).trans hlock), hsightEnd, (hlast.f_eq ?_).trans hphase, (hlast.f_eq ?_).trans hoffset,
      ((htrimmed.trans hlast).rdn_eq ?_).trans (hcount.trans ?_),
      finish_logged (by rw [hevEnd, hevSight, hevTrim, hevTaken, hev]; rfl) ⟨congrArg LogSt.ring hlogEnd, congrArg LogSt.head hlogEnd⟩ (by simp) (by simp; omega), hkeeps⟩
  · simp [R.LNE_LANE_STATUS, R.LNE_LANE_TRIM, R.CAL_RUN_CNT]
    omega
  · simp [R.LNE_LANE_STATUS, R.LNE_LANE_TRIM]
  · simp [R.LNE_LANE_STATUS, R.LNE_LANE_TRIM]
  · simp [R.LNE_LANE_STATUS, R.LNE_LANE_TRIM, R.CAL_RUN_CNT]
    omega
  · rw [hreported.rdn_eq (by simp [R.LNE_LANE_STATUS, R.LNE_LANE_EYE, R.CAL_RUN_CNT]; omega)]
    rfl

/-! ## DESKEW_COMPLETE (R288, R292) -/

theorem deskew_done {s : State} {st : Bool} {p k x : Nat} {ok : Bool} (hstate : s.f (portStateF st p) = 2) (hlanes : s.lanesDone st p = true)
    (hok : (if st then decide (k ≤ 128000) else ok) = true) :
    s.deskew st p k x ok = ((s.wrn (portReg st p 0x04) k).wrn (portReg st p 0x08) x).portTo st p 3 := by
  simp only [State.deskew, hstate, hlanes, Bool.not_true, Bool.or_false, ne_eq, not_true_eq_false, decide_false, Bool.false_eq_true, if_false, hok, if_true]

theorem deskew_wide {s : State} {st : Bool} {p k x : Nat} {ok : Bool} (hstate : s.f (portStateF st p) = 2) (hlanes : s.lanesDone st p = true)
    (hok : (if st then decide (k ≤ 128000) else ok) = false) :
    s.deskew st p k x ok = ((s.wrn (portReg st p 0x04) k).setF F.LNE_FLAGS_SKEW 1).raise 0x0E08 (if st then 8 + p else p) := by
  simp only [State.deskew, hstate, hlanes, Bool.not_true, Bool.or_false, ne_eq, not_true_eq_false, decide_false, Bool.false_eq_true, if_false, hok]

/-- The measures of a deskew. -/
def State.skewKept (s : State) (st : Bool) (p k x : Nat) : State := (s.wrn (portReg st p 0x04) k).wrn (portReg st p 0x08) x

theorem frame_skewKept (s : State) (st : Bool) (p k x : Nat) : Frame [portReg st p 0x04, portReg st p 0x08] [] [] s (s.skewKept st p k x) :=
  (frame_wrn s _ k).trans (frame_wrn _ _ x)

theorem rdn_skewKept (s : State) (st : Bool) (p k x : Nat) :
    (s.skewKept st p k x).rdn (portReg st p 0x04) = k % 2 ^ 32 ∧ (s.skewKept st p k x).rdn (portReg st p 0x08) = x % 2 ^ 32 := by
  rw [State.skewKept]
  exact ⟨by rw [rdn_wrn_ne _ _ (by simp [portReg]), rdn_wrn_same], rdn_wrn_same _ _ _⟩

/-- A Staord port is deskewed. -/
theorem deskew_sport {s : State} {p k x : Nat} (hp : p < 8) (hstate : s.f (F.LNE_SPORT_STATUS_STATE p) = 2) (hlanes : s.lanesDone true p = true) (hk : k ≤ 128000) :
    Completes (.deskewComplete true p k x true) s fun t => t.f (F.LNE_SPORT_STATUS_STATE p) = 3 ∧ t.rdn (portReg true p 0x04) = k ∧ t.rdn (portReg true p 0x08) = x % 2 ^ 32 ∧
      Keeps [R.LNE_SPORT_STATUS p, portReg true p 0x04, portReg true p 0x08] [] [.lne] s t := by
  have hop := deskew_done (s := s.begin) (st := true) (x := x) (ok := true) hstate hlanes (decide_eq_true hk)
  rw [← State.skewKept] at hop
  have hkept := frame_skewKept s.begin true p k x
  obtain ⟨hskew, hlat⟩ := rdn_skewKept s.begin true p k x
  have hstate' : (s.begin.skewKept true p k x).f (portStateF true p) = 2 := (hkept.f_eq (y := F.LNE_SPORT_STATUS_STATE p) (by simp [portReg_sport])).trans hstate
  have hev : (s.begin.skewKept true p k x).evNow = [] := rfl
  generalize s.begin.skewKept true p k x = u at *
  rw [portTo_kept (by rw [hstate']; decide) (by decide), show (u.portMoved true p 3).portShown true p = u.portMoved true p 3 from rfl] at hop
  have hmoved := frame_sportMoved u p 3
  have hnow := state_sportMoved u p (n := 3) (by decide)
  have hevEnd := evNow_portMoved u p 3 true
  generalize u.portMoved true p 3 = e at *
  exact completes_of_frame (op := (·.idx p 8 fun s => s.deskew true p k x true)) rfl ((idx_of_lt hp).trans hop) ((hkept.trans hmoved).mono (by simp) (by simp) (by simp))
    (.inl (hevEnd.trans hev)) fun hkeeps => ⟨hnow, (hmoved.rdn_eq (by simp [portReg_sport])).trans (hskew.trans (Nat.mod_eq_of_lt (by omega))),
      (hmoved.rdn_eq (by simp [portReg_sport])).trans hlat, hkeeps⟩

/-- An Ethernet port is deskewed. -/
theorem deskew_eport {s : State} {p k x : Nat} (hp : p < 8) (hstate : s.f (F.LNE_EPORT_STATUS_STATE p) = 2) (hlanes : s.lanesDone false p = true) :
    Completes (.deskewComplete false p k x true) s fun t => t.f (F.LNE_EPORT_STATUS_STATE p) = 3 ∧ t.rdn (portReg false p 0x04) = k % 2 ^ 32 ∧
      t.rdn (portReg false p 0x08) = x % 2 ^ 32 ∧ t.on (F.ETH_PORT_STATUS_RX_UP p) = false ∧
      Keeps [R.LNE_EPORT_STATUS p, portReg false p 0x04, portReg false p 0x08, R.ETH_PORT_STATUS p] [] [.lne] s t := by
  have hop := deskew_done (s := s.begin) (st := false) (p := p) (k := k) (x := x) (ok := true) hstate hlanes rfl
  rw [← State.skewKept] at hop
  have hkept := frame_skewKept s.begin false p k x
  obtain ⟨hskew, hlat⟩ := rdn_skewKept s.begin false p k x
  have hstate' : (s.begin.skewKept false p k x).f (portStateF false p) = 2 := (hkept.f_eq (y := F.LNE_EPORT_STATUS_STATE p) (by simp [portReg_eport])).trans hstate
  have hev : (s.begin.skewKept false p k x).evNow = [] := rfl
  generalize s.begin.skewKept false p k x = u at *
  rw [portTo_kept (by rw [hstate']; decide) (by decide), show (u.portMoved false p 3).portShown false p = (u.portMoved false p 3).rxUpdate p from rfl] at hop
  have hmoved := frame_eportMoved u p 3
  have hnow := state_eportMoved u p (n := 3) (by decide)
  have hevMoved := evNow_portMoved u p 3 false
  generalize u.portMoved false p 3 = v at *
  have hrx := frame_rxUpdate v p
  have hdown := rxUp_down (s := v) (p := p) (by rw [hnow]; decide)
  have hstill := (state_rxUpdate v hp).trans hnow
  have hevEnd := evNow_rxUpdate v p
  generalize v.rxUpdate p = e at *
  have hlast := hmoved.trans hrx
  have hreg (o : Nat) (ho : 0 < o ∧ o < 32) : portReg false p o ∉ [R.LNE_EPORT_STATUS p] ++ [R.ETH_PORT_STATUS p] := by
    simp only [portReg_eport, R.LNE_EPORT_STATUS, R.ETH_PORT_STATUS, List.mem_append, List.mem_singleton]
    omega
  exact completes_of_frame (op := (·.idx p 8 fun s => s.deskew false p k x true)) rfl ((idx_of_lt hp).trans hop) ((hkept.trans hlast).mono (by simp) (by simp) (by simp))
    (.inl (hevEnd.trans (hevMoved.trans hev))) fun hkeeps => ⟨hstill, (hlast.rdn_eq (hreg 0x04 (by decide))).trans hskew, (hlast.rdn_eq (hreg 0x08 (by decide))).trans hlat, hdown, hkeeps⟩

/-- A Staord port whose skew is too wide. -/
theorem deskew_sport_wide {s : State} {p k x : Nat} {o : Bool} (hp : p < 8) (hstate : s.f (F.LNE_SPORT_STATUS_STATE p) = 2) (hlanes : s.lanesDone true p = true)
    (hk : 128000 < k) :
    Completes (.deskewComplete true p k x o) s fun t => t.f (F.LNE_SPORT_STATUS_STATE p) = 2 ∧ t.rdn (portReg true p 0x04) = k % 2 ^ 32 ∧ t.on F.LNE_FLAGS_SKEW = true ∧
      Logged [⟨0x0E08, 8 + p⟩] s t ∧ Keeps [R.LNE_FLAGS, portReg true p 0x04] [] [.log] s t := by
  have hop : s.begin.deskew true p k x o = ((s.begin.wrn (portReg true p 0x04) k).setF F.LNE_FLAGS_SKEW 1).raise 0x0E08 (8 + p) :=
    deskew_wide (s := s.begin) (st := true) (x := x) (ok := o) hstate hlanes (decide_eq_false (by omega))
  have hframe := (frame_wrn s.begin (portReg true p 0x04) k).trans ((frame_setF _ F.LNE_FLAGS_SKEW 1).trans (frame_raise _ 0x0E08 (8 + p)))
  refine completes_of_frame (op := (·.idx p 8 fun s => s.deskew true p k x o)) rfl ((idx_of_lt hp).trans hop) (hframe.mono (by simp) (by simp) (by simp)) (.inr (by simp))
    fun hkeeps => ⟨(hframe.f_eq (y := F.LNE_SPORT_STATUS_STATE p) ?_).trans hstate, ?_, ?_, finish_logged rfl ⟨rfl, rfl⟩ (by simp) (by simp; omega), hkeeps⟩
  · simp [portReg_sport, R.LNE_SPORT_STATUS, R.LNE_FLAGS]
    omega
  · rw [rdn_finish, rdn_raise, rdn_setF_ne _ _ (portReg_ne_flags true p 0x04), rdn_wrn_same]
  · exact on_setF_one _ (x := F.LNE_FLAGS_SKEW) (by decide) rfl

/-! ## TRAINING_WORD_RECEIVE (R289) -/

theorem mem_portLanes_of_lanePort {s : State} {l p : Nat} (h : s.lanePort l = some (true, p)) : l ∈ s.portLanes true p := by
  simp only [State.lanePort] at h
  split at h
  case isFalse => cases h
  case isTrue hon =>
    obtain ⟨hl, hen⟩ := hon
    refine List.mem_flatMap.mpr ⟨l / 4, List.mem_filter.mpr ⟨List.mem_range.mpr (by omega), ?_⟩, List.mem_map.mpr ⟨l % 4, List.mem_range.mpr (Nat.mod_lt _ (by decide)), by omega⟩⟩
    split at h
    case h_1 => cases congrArg Prod.fst (Option.some.inj h)
    case h_3 => cases h
    case h_2 hrole =>
      have hport : s.f (F.LNE_QUAD_CTL_PORT (l / 4)) = p := congrArg Prod.snd (Option.some.inj h)
      rw [hen, hrole, hport]
      simp

theorem lanesDone_of_lane {s : State} {l p : Nat} (hmem : l ∈ s.portLanes true p) (hstage : s.stage_ l ≠ 4) : s.lanesDone true p = false :=
  List.all_eq_false.mpr ⟨l, hmem, by simpa using hstage⟩

theorem trainPort_waits {s : State} {p : Nat} (h : s.lanesDone true p = false) : s.trainPort p = s := by
  simp only [State.trainPort, h, Bool.not_false, Bool.or_true, Bool.true_or, if_true]

/-- A word of a lane that is not inverted, read upright. -/
theorem trainingWord_eq {s : State} {l p : Nat} {m : List Nat} {e : Nat} (hport : s.lanePort l = some (true, p)) (hstage : s.stage_ l = 3)
    (hstate : s.f (F.LNE_SPORT_STATUS_STATE p) = 1) (hswitch : (s.lport true p).switch = false) (hinv : s.on (F.LNE_LANE_STATUS_RX_INV l) = false)
    (hbytes : m.all (fun b => decide (b < 256)) = true) (hsync : m.take 4 = syncBytes) :
    s.trainingWord l m e = (fun u : State => if !markerGood m || e != 0 then u.trainAgain l p
      else (fun v : State => (if v.stage_ l = 3 ∧ v.f F.LNE_TRAIN_MARKERS ≤ (u.lane l).good + 1 ∧ 2 ^ v.f F.LNE_TRAIN_BITS_LOG2 ≤ (u.lane l).bits + 32704 then v.laneDone l
        else v).trainPort p) (u.setLane l { u.lane l with good := (u.lane l).good + 1, bits := (u.lane l).bits + 32704, idx := byteAt m 4, said := byteAt m 6 }))
          (s.bumpBy (R.LNE_LANE_PRBS_ERR l) e) := by
  have hsame : m.map (fun b => b % 256) = m := by
    refine (List.map_congr_left fun b hb => ?_).trans (List.map_id m)
    exact Nat.mod_eq_of_lt (of_decide_eq_true (List.all_eq_true.mp hbytes b hb))
  have hupright : (m.take 4 == syncBytes.map (fun b => 255 - b)) = false := by
    rw [hsync]
    decide
  have htrains : ¬ (!(s.stage_ l == 3 || s.stage_ l == 4) || !(s.f (F.LNE_SPORT_STATUS_STATE p) == 1 || s.f (F.LNE_SPORT_STATUS_STATE p) == 2) || (s.lport true p).switch) = true := by
    rw [hstage, hstate, hswitch]
    decide
  simp only [State.trainingWord, hport, if_neg htrains, hinv, hsame, hupright, Bool.false_eq_true, if_false]

/-- A good word of a lane that needs more of them. -/
theorem trainingWord_good {s : State} {l p : Nat} {m : List Nat} (hl : l < 64) (hport : s.lanePort l = some (true, p)) (hstage : s.stage_ l = 3)
    (hstate : s.f (F.LNE_SPORT_STATUS_STATE p) = 1) (hswitch : (s.lport true p).switch = false) (hinv : s.on (F.LNE_LANE_STATUS_RX_INV l) = false)
    (hbytes : m.all (fun b => decide (b < 256)) = true) (hgood : markerGood m = true) (hmore : (s.lane l).good + 1 < s.f F.LNE_TRAIN_MARKERS) :
    Completes (.trainingWordReceive l m 0) s fun t => (t.lane l).good = (s.lane l).good + 1 ∧
      (t.lane l).bits = (s.lane l).bits + 32704 ∧ (t.lane l).idx = byteAt m 4 ∧ (t.lane l).said = byteAt m 6 ∧ t.stage_ l = 3 ∧ Keeps [] [] [.lne] s t := by
  have hsync : m.take 4 = syncBytes := by
    simp only [markerGood, Bool.and_eq_true, beq_iff_eq] at hgood
    obtain ⟨⟨⟨⟨hsync, -⟩, -⟩, -⟩, -⟩ := hgood
    exact hsync
  have hop := trainingWord_eq (s := s.begin) (e := 0) hport hstage hstate hswitch hinv hbytes hsync
  have hcounted := frame_bumpBy_zero s.begin (R.LNE_LANE_PRBS_ERR l)
  have hlane : (s.begin.bumpBy (R.LNE_LANE_PRBS_ERR l) 0).lane l = s.lane l := hcounted.lane_eq (by simp) l
  have hev : (s.begin.bumpBy (R.LNE_LANE_PRBS_ERR l) 0).evNow = [] := rfl
  generalize s.begin.bumpBy (R.LNE_LANE_PRBS_ERR l) 0 = u at *
  simp only [hgood, bne_self_eq_false, Bool.not_true, Bool.or_self, Bool.false_eq_true, if_false] at hop
  rw [hlane] at hop
  have hset := frame_setLane u l { s.lane l with good := (s.lane l).good + 1, bits := (s.lane l).bits + 32704, idx := byteAt m 4, said := byteAt m 6 }
  have hlaneEnd := lane_setLane u l { s.lane l with good := (s.lane l).good + 1, bits := (s.lane l).bits + 32704, idx := byteAt m 4, said := byteAt m 6 }
  have hevEnd : (u.setLane l { s.lane l with good := (s.lane l).good + 1, bits := (s.lane l).bits + 32704, idx := byteAt m 4, said := byteAt m 6 }).evNow = u.evNow := rfl
  generalize u.setLane l { s.lane l with good := (s.lane l).good + 1, bits := (s.lane l).bits + 32704, idx := byteAt m 4, said := byteAt m 6 } = v at *
  have hframe := hcounted.trans hset
  have hstageEnd : v.stage_ l = 3 := (hframe.stage_eq (by simp)).trans hstage
  have hfew : ¬ (v.stage_ l = 3 ∧ v.f F.LNE_TRAIN_MARKERS ≤ (s.lane l).good + 1 ∧ 2 ^ v.f F.LNE_TRAIN_BITS_LOG2 ≤ (s.lane l).bits + 32704) := by
    rintro ⟨-, hmarkers, -⟩
    have hsame : v.f F.LNE_TRAIN_MARKERS = s.f F.LNE_TRAIN_MARKERS := hframe.f_eq (by simp)
    omega
  have hmem : l ∈ v.portLanes true p := by
    rw [portLanes_eq hframe (fun q hq => by simp)]
    exact mem_portLanes_of_lanePort hport
  rw [if_neg hfew, trainPort_waits (lanesDone_of_lane hmem (by rw [hstageEnd]; decide))] at hop
  exact completes_of_frame (op := (·.idx l 64 fun s => s.trainingWord l m 0)) rfl ((idx_of_lt hl).trans hop) (hframe.mono (by simp) (by simp) (by simp)) (.inl (hevEnd.trans hev))
    fun hkeeps => ⟨(congrArg LaneSt.good hlaneEnd).trans rfl, (congrArg LaneSt.bits hlaneEnd).trans rfl, (congrArg LaneSt.idx hlaneEnd).trans rfl,
      (congrArg LaneSt.said hlaneEnd).trans rfl, hstageEnd, hkeeps⟩

/-- A lane returns to the start of stage 3. -/
def State.laneAgain (s : State) (l p : Nat) : State := (s.toStage l 3).setLport true p { s.lport true p with ok := false }

theorem frame_laneAgain (s : State) (l p : Nat) : Frame [R.LNE_LANE_STATUS l] [] [.cal, .lne] s (s.laneAgain l p) :=
  ((frame_toStage s l 3).trans (frame_setLport _ true p _)).mono (by simp) (by simp) (by simp)

theorem trainAgain_eq {s : State} {l p : Nat} (h : (s.lport true p).ok = false) : s.trainAgain l p = s.laneAgain l p := by
  simp only [State.trainAgain, h, Bool.false_eq_true, if_false]
  rfl

theorem lane_laneAgain (s : State) (l p : Nat) : (s.laneAgain l p).lane l = { at_ := s.clk.ns, idx := (s.lane l).idx } := lane_toStage s l 3

theorem setBits_self (n hi lo : Nat) : setBits n hi lo (bitsOf n hi lo) = n := by
  have hlow := Nat.mod_add_div n (2 ^ lo)
  have hhigh := Nat.mod_add_div (n / 2 ^ lo) (2 ^ (hi + 1 - lo))
  rw [setBits, bitsOf, Nat.mod_mod, Nat.pow_add, ← Nat.div_div_eq_div_mul]
  conv_rhs => rw [← hlow, ← hhigh]
  ring

/-- A field that is written again as it stands. -/
theorem rd_setF_self {s : State} {x : Fld} {v : Nat} (h : s.f x = v) : (s.setF x v).rd x.addr = s.rd x.addr := by
  rw [← h, State.setF, State.f, setBits_self, rd_wrn_same, State.rdn, BitVec.ofNat_toNat, BitVec.setWidth_eq]

/-- A lane that trains stays in its stage. -/
theorem frame_laneAgain_training {s : State} {l : Nat} (p : Nat) (h : s.stage_ l = 3) : Frame [] [] [.cal, .lne] s (s.laneAgain l p) := by
  refine (frame_laneAgain s l p).drop ?_
  rw [State.laneAgain, toStage_eq, (frame_setLport _ true p _).rd_eq (by simp), (frame_setLane _ l _).rd_eq (by simp),
    rd_setF_self (x := F.LNE_LANE_STATUS_STAGE l) (((frame_laneSight s l 3).stage_eq (by simp)).trans h), (frame_laneSight s l 3).rd_eq (by simp)]

theorem evNow_laneAgain (s : State) (l p : Nat) : (s.laneAgain l p).evNow = s.evNow := evNow_toStage s l 3

/-- PRBS errors of a lane whose port has not yet sent LANES_OK. -/
theorem trainingWord_errors {s : State} {l p e : Nat} {m : List Nat} (hl : l < 64) (hport : s.lanePort l = some (true, p)) (hstage : s.stage_ l = 3)
    (hstate : s.f (F.LNE_SPORT_STATUS_STATE p) = 1) (hswitch : (s.lport true p).switch = false) (hok : (s.lport true p).ok = false)
    (hinv : s.on (F.LNE_LANE_STATUS_RX_INV l) = false) (hbytes : m.all (fun b => decide (b < 256)) = true) (hsync : m.take 4 = [0x4D, 0xB2, 0x69, 0x1E]) (he : e ≠ 0) :
    Completes (.trainingWordReceive l m e) s fun t => (t.lane l).good = 0 ∧ (t.lane l).bits = 0 ∧ t.stage_ l = 3 ∧
      t.rdn (R.LNE_LANE_PRBS_ERR l) = (s.rdn (R.LNE_LANE_PRBS_ERR l) + e) % 2 ^ 32 ∧ Keeps [R.LNE_LANE_PRBS_ERR l] [] [.lne, .cal] s t := by
  have hop := trainingWord_eq (s := s.begin) (e := e) hport hstage hstate hswitch hinv hbytes hsync
  have hcounted := frame_bumpBy s.begin (R.LNE_LANE_PRBS_ERR l) e
  have hcount : (s.begin.bumpBy (R.LNE_LANE_PRBS_ERR l) e).rdn (R.LNE_LANE_PRBS_ERR l) = (s.rdn (R.LNE_LANE_PRBS_ERR l) + e) % 2 ^ 32 := rdn_bumpBy_same _ _ _
  have hev : (s.begin.bumpBy (R.LNE_LANE_PRBS_ERR l) e).evNow = [] := rfl
  have hbad : (!markerGood m || e != 0) = true := by
    rw [bne_iff_ne.mpr he, Bool.or_true]
  generalize s.begin.bumpBy (R.LNE_LANE_PRBS_ERR l) e = u at *
  have hokNow : (u.lport true p).ok = false := (congrArg LPortSt.ok (hcounted.lport_eq (by simp) true p)).trans hok
  simp only [hbad, if_true, trainAgain_eq hokNow] at hop
  have hagain := frame_laneAgain_training p ((hcounted.stage_eq (by simp [R.LNE_LANE_STATUS, R.LNE_LANE_PRBS_ERR])).trans hstage)
  have hlane := lane_laneAgain u l p
  have hstageEnd : (u.laneAgain l p).stage_ l = 3 := stage_toStage u l (n := 3) (by decide)
  have hevEnd := evNow_laneAgain u l p
  generalize u.laneAgain l p = v at *
  exact completes_of_frame (op := (·.idx l 64 fun s => s.trainingWord l m e)) rfl ((idx_of_lt hl).trans hop) ((hcounted.trans hagain).mono (by simp) (by simp) (by simp))
    (.inl (hevEnd.trans hev)) fun hkeeps => ⟨(congrArg LaneSt.good hlane).trans rfl, (congrArg LaneSt.bits hlane).trans rfl, hstageEnd, (hagain.rdn_eq (by simp)).trans hcount, hkeeps⟩

end Sys2Proof.Machine
end

section
/-!
PROOFS. Quads that are enabled and disabled (R278), and the commands of lanes that train.
-/

namespace Sys2Proof.Machine

/-! ## LNE_QUAD_q_CTL (R278) -/

/-- The fields of LNE_QUAD_q_CTL beside EN: ROLE and PORT. -/
def quadRest : List FieldDef := [⟨2, 1, .rw, false, .any⟩, ⟨6, 4, .rw, false, .any⟩]

/-- LNE_QUAD_q_CTL as it stands, with EN = `v`. -/
def State.quadWord (s : State) (q v : Nat) : Word :=
  BitVec.ofNat 32 (mergeWord true (enField :: quadRest) (s.rdn (R.LNE_QUAD_CTL q)) (BitVec.ofNat 32 (setBits (s.rdn (R.LNE_QUAD_CTL q)) 0 0 v)).toNat)

theorem quadCtl_row {q : Nat} (hq : q < 16) : regDef (R.LNE_QUAD_CTL q) = some ⟨0xE0100, [(4, 16)], 0x0, false, enField :: quadRest⟩ := by
  interval_cases q <;> rfl

theorem quadCtl_narrow : ∀ q, q < 16 → wideOf wideWrites (R.LNE_QUAD_CTL q) = none := by decide +kernel

theorem quadCtl_noLat : ∀ q, q < 16 → latInput (R.LNE_QUAD_CTL q) = false := by decide

theorem blockOf_quadCtl {q : Nat} (hq : q < 16) : blockOf (R.LNE_QUAD_CTL q) = 0x0E := by
  have hb : R.LNE_QUAD_CTL q / 0x10000 = 0x0E := by simp only [R.LNE_QUAD_CTL]; omega
  simp [blockOf, hb]

theorem unitReg_quadCtl (s : State) {q : Nat} (hq : q < 16) (v raw : Word) : s.unitReg .pcie (R.LNE_QUAD_CTL q) v raw = some (s.quadWriteLne q v) := by
  have hrange : R.LNE_QUAD_CTL 0 ≤ R.LNE_QUAD_CTL q ∧ R.LNE_QUAD_CTL q < R.LNE_QUAD_CTL 16 := by simp only [R.LNE_QUAD_CTL]; omega
  have hidx : (R.LNE_QUAD_CTL q - R.LNE_QUAD_CTL 0) / 4 = q := by simp only [R.LNE_QUAD_CTL]; omega
  simp only [State.unitReg, blockOf_quadCtl hq, State.lneReg, if_pos hrange, hidx]

theorem oldWord_quadCtl (s : State) {q : Nat} (hq : q < 16) : s.oldWord .pcie (R.LNE_QUAD_CTL q) = s.rdn (R.LNE_QUAD_CTL q) := by
  have hwin : R.LNE_QUAD_CTL q ≠ R.GLB_WIN_CTL := by simp only [R.LNE_QUAD_CTL, R.GLB_WIN_CTL]; omega
  simp only [State.oldWord, if_neg hwin, State.liveWord, blockOf_quadCtl hq]

/-- A write of EN to LNE_QUAD_q_CTL reaches the quad. -/
theorem ctlWrite_quadEn {s : State} {q : Nat} (v : Nat) (hd : s.dark = false) (hq : q < 16) : s.ctlWrite (F.LNE_QUAD_CTL_EN q) v = s.quadWriteLne q (s.quadWord q v) := by
  refine ctlWrite_unit hd (by simp only [R.LNE_QUAD_CTL]; omega) (quadCtl_row hq) rfl ?_ (quadCtl_narrow q hq) (quadCtl_noLat q hq) ?_
  · rw [oldWord_quadCtl s hq]
    exact fieldsOk_ctl _ 0 0 v (by decide) (by decide)
  · rw [unitReg_quadCtl s hq, oldWord_quadCtl s hq]
    rfl

theorem quadWord_en (s : State) (q v : Nat) : bitsOf (s.quadWord q v).toNat 0 0 = v % 2 :=
  ctl_act_same _ _ 0 0 v enField (by simp) ⟨rfl, rfl⟩ (by decide) (by decide) (.inr (.inl rfl))

theorem quadWord_role (s : State) (q v : Nat) : bitsOf (s.quadWord q v).toNat 2 1 = s.f (F.LNE_QUAD_CTL_ROLE q) :=
  ctl_act_other _ _ 0 0 v ⟨2, 1, .rw, false, .any⟩ (by simp [quadRest]) (by decide) (by decide) (.inl (by decide)) (by decide) (.inr (.inl rfl))

theorem quadWord_port (s : State) (q v : Nat) : bitsOf (s.quadWord q v).toNat 6 4 = s.f (F.LNE_QUAD_CTL_PORT q) :=
  ctl_act_other _ _ 0 0 v ⟨6, 4, .rw, false, .any⟩ (by simp [quadRest]) (by decide) (by decide) (.inl (by decide)) (by decide) (.inr (.inl rfl))

/-- LNE_QUAD_q_CTL takes the word. -/
def State.quadSet (s : State) (q v : Nat) : State := s.wr (R.LNE_QUAD_CTL q) (s.quadWord q v)

theorem frame_quadSet (s : State) (q v : Nat) : Frame [R.LNE_QUAD_CTL q] [] [] s (s.quadSet q v) := frame_wr s _ _

theorem quadSet_ctl (s : State) (q v : Nat) : (s.quadSet q v).f (F.LNE_QUAD_CTL_EN q) = v % 2 ∧ (s.quadSet q v).f (F.LNE_QUAD_CTL_ROLE q) = s.f (F.LNE_QUAD_CTL_ROLE q) ∧
    (s.quadSet q v).f (F.LNE_QUAD_CTL_PORT q) = s.f (F.LNE_QUAD_CTL_PORT q) := by
  simp only [State.f, State.quadSet, rdn_wr_same]
  exact ⟨quadWord_en s q v, quadWord_role s q v, quadWord_port s q v⟩

theorem quadWriteLne_enable {s : State} {q p : Nat} (hoff : s.on (F.LNE_QUAD_CTL_EN q) = false) (hrole : s.f (F.LNE_QUAD_CTL_ROLE q) = 2)
    (hport : s.f (F.LNE_QUAD_CTL_PORT q) = p) (hok : s.quadOk q 2 p = true) : s.quadWriteLne q (s.quadWord q 1) = (s.quadSet q 1).quadStart q 2 p := by
  simp only [State.quadWriteLne, quadWord_en, quadWord_role, quadWord_port, hoff, hrole, hport, hok, Nat.one_mod, Bool.false_and, Bool.false_eq_true, if_false,
    beq_self_eq_true, Bool.not_false, Bool.and_self, if_true]
  rfl

theorem quadWriteLne_disable {s : State} {q p : Nat} (hon : s.on (F.LNE_QUAD_CTL_EN q) = true) (hrole : s.f (F.LNE_QUAD_CTL_ROLE q) = 2)
    (hport : s.f (F.LNE_QUAD_CTL_PORT q) = p) (hfree : s.quadUsed q = false) : s.quadWriteLne q (s.quadWord q 0) = (s.quadSet q 0).quadStop q 2 p := by
  simp only [State.quadWriteLne, quadWord_en, quadWord_role, quadWord_port, hon, hrole, hport, hfree, decide_true, Bool.and_self, Bool.not_true, Bool.and_false,
    Bool.false_eq_true, if_false, Nat.zero_mod, Nat.reduceBEq, Bool.not_false, if_true]
  rfl

/-! ## QUAD_ENABLE (R278, R288) -/

/-- The lanes of a quad. -/
def quadLanes (q : Nat) : List Nat := (List.range 4).map (fun i => 4 * q + i)

theorem mem_quadLanes {q l : Nat} : l ∈ quadLanes q ↔ l / 4 = q := by
  simp only [quadLanes, List.mem_map, List.mem_range]
  constructor
  · rintro ⟨i, hi, rfl⟩
    omega
  · intro h
    exact ⟨l % 4, Nat.mod_lt _ (by decide), by omega⟩

/-- The first quad of a Staord port is shown. -/
def State.sportShaped (s : State) (p q : Nat) : State := s.setF (F.LNE_SPORT_STATUS_QUAD p) q

theorem portShape_sport (s : State) (p : Nat) : s.portShape true p = s.sportShaped p ((s.portQuads true p).headD 0) := rfl

theorem frame_sportShaped (s : State) (p q : Nat) : Frame [R.LNE_SPORT_STATUS p] [] [] s (s.sportShaped p q) := frame_setF s (F.LNE_SPORT_STATUS_QUAD p) q

theorem quad_sportShaped (s : State) (p : Nat) {q : Nat} (hq : q < 16) : (s.sportShaped p q).f (F.LNE_SPORT_STATUS_QUAD p) = q :=
  (f_setF_same s (F.LNE_SPORT_STATUS_QUAD p) q (by decide : 15 < 32)).trans (Nat.mod_eq_of_lt hq)

theorem state_sportShaped (s : State) (p q : Nat) : (s.sportShaped p q).f (F.LNE_SPORT_STATUS_STATE p) = s.f (F.LNE_SPORT_STATUS_STATE p) :=
  f_setF_bits s (x := F.LNE_SPORT_STATUS_QUAD p) (y := F.LNE_SPORT_STATUS_STATE p) q rfl (by decide : 12 ≤ 15) (by decide : 2 < 32) (.inr (by decide : 2 < 12))

theorem startFn_off {s : State} {g : Nat} (h : s.fn g = .off) : s.startFn g = s.setFn g .starting := by
  rw [State.startFn, h]
  rfl

/-- A Staord port has one quad: no other enabled quad carries the port that a quad may take. -/
theorem others_of_quadOk {s : State} {q p r : Nat} (h : s.quadOk q 2 p = true) (hr : r < 16) (hne : r ≠ q) :
    (s.on (F.LNE_QUAD_CTL_EN r) && s.f (F.LNE_QUAD_CTL_ROLE r) == 2 && s.f (F.LNE_QUAD_CTL_PORT r) == p) = false := by
  simp only [State.quadOk, Bool.and_eq_true] at h
  obtain ⟨⟨-, hstaord⟩, -⟩ := h
  have hsame := (Bool.or_eq_true_iff.mp hstaord).resolve_left (by decide)
  obtain ⟨hnone, -⟩ := Bool.and_eq_true_iff.mp hsame
  rw [List.isEmpty_iff] at hnone
  by_contra hin
  rw [Bool.not_eq_false, Bool.and_eq_true, Bool.and_eq_true] at hin
  obtain ⟨⟨hen, hrole⟩, hport⟩ := hin
  refine (List.filter_eq_nil_iff.mp hnone) r (List.mem_filter.mpr ⟨List.mem_range.mpr hr, ?_⟩) hport
  rw [hen, hrole, bne_iff_ne.mpr hne]
  rfl

theorem filter_range_single {q : Nat} (hq : q < 16) : (List.range 16).filter (fun r => r == q) = [q] := by
  interval_cases q <;> rfl

theorem portQuads_enabled {s t : State} {q p : Nat} {regs fns : List Nat} {parts : List Part} (hq : q < 16) (hok : s.quadOk q 2 p = true)
    (hframe : Frame regs fns parts s t) (hr : ∀ r, r < 16 → r ≠ q → R.LNE_QUAD_CTL r ∉ regs) (hen : t.on (F.LNE_QUAD_CTL_EN q) = true)
    (hrole : t.f (F.LNE_QUAD_CTL_ROLE q) = 2) (hport : t.f (F.LNE_QUAD_CTL_PORT q) = p) : t.portQuads true p = [q] := by
  refine Eq.trans (List.filter_congr fun r hmem => ?_) (filter_range_single hq)
  have hr16 := List.mem_range.mp hmem
  by_cases hrq : r = q
  · rw [hrq, hen, hrole, hport]
    simp
  · have hout := hr r hr16 hrq
    rw [hframe.on_eq (y := F.LNE_QUAD_CTL_EN r) hout, hframe.f_eq (y := F.LNE_QUAD_CTL_ROLE r) hout, hframe.f_eq (y := F.LNE_QUAD_CTL_PORT r) hout,
      beq_eq_false_iff_ne.mpr hrq]
    exact others_of_quadOk hok hr16 hrq

/-- The lanes of a quad that starts. -/
def State.quadLit (s : State) (q : Nat) : State := (quadLanes q).foldl State.laneRestart (s.setF (F.CKG_LPLL_STATUS_STATE q) 2)

theorem quadStart_sport (s : State) (q p : Nat) : s.quadStart q 2 p = (((s.quadLit q).portTo true p 1).portShape true p).startFn (fnStaord p) := rfl

theorem lanesAt_quadLit (s : State) (q : Nat) : LanesAt 1 (quadLanes q) (s.setF (F.CKG_LPLL_STATUS_STATE q) 2) (s.quadLit q) := lanesAt_laneRestart _ _

theorem frame_quadLit (s : State) (q : Nat) : Frame (R.CKG_LPLL_STATUS q :: (quadLanes q).map R.LNE_LANE_STATUS) [] [.cal, .lne] s (s.quadLit q) :=
  ((frame_setF s (F.CKG_LPLL_STATUS_STATE q) 2).trans (lanesAt_quadLit s q).frame).mono (by simp) (by simp) (by simp)

theorem notMem_quadLanes {q a : Nat} (h : ∀ l, l / 4 = q → a ≠ R.LNE_LANE_STATUS l) : a ∉ (quadLanes q).map R.LNE_LANE_STATUS := fun hin => by
  obtain ⟨l, hl, hla⟩ := List.mem_map.mp hin
  exact h l (mem_quadLanes.mp hl) hla.symm

theorem lpll_quadLit (s : State) (q : Nat) : (s.quadLit q).f (F.CKG_LPLL_STATUS_STATE q) = 2 := by
  rw [(lanesAt_quadLit s q).frame.f_eq (y := F.CKG_LPLL_STATUS_STATE q) (notMem_quadLanes fun l hl => by simp only [R.CKG_LPLL_STATUS, R.LNE_LANE_STATUS]; omega)]
  exact f_setF_same s (F.CKG_LPLL_STATUS_STATE q) 2 (by decide : 2 < 32)

/-- A quad of a Staord port is enabled. -/
theorem quadEnable_completes {s : State} {q p : Nat} (hdark : s.dark = false) (hq : q < 16) (hoff : s.on (F.LNE_QUAD_CTL_EN q) = false)
    (hrole : s.f (F.LNE_QUAD_CTL_ROLE q) = 2) (hport : s.f (F.LNE_QUAD_CTL_PORT q) = p) (hok : s.quadOk q 2 p = true)
    (hstate : s.f (F.LNE_SPORT_STATUS_STATE p) ≠ 4) (hfn : s.fn (fnStaord p) = .off) :
    Completes (.quadEnable q) s fun t => t.on (F.LNE_QUAD_CTL_EN q) = true ∧ t.f (F.CKG_LPLL_STATUS_STATE q) = 2 ∧ (∀ i : Nat, i < 4 → t.stage_ (4 * q + i) = 1) ∧
      t.f (F.LNE_SPORT_STATUS_STATE p) = 1 ∧ t.f (F.LNE_SPORT_STATUS_QUAD p) = q ∧ t.fn (fnStaord p) = .starting ∧
      Keeps ([R.LNE_QUAD_CTL q, R.CKG_LPLL_STATUS q, R.LNE_SPORT_STATUS p] ++ (List.range 4).map (fun i => R.LNE_LANE_STATUS (4 * q + i))) [fnStaord p]
        [.lne, .cal, .fnAt] s t := by
  have hp : p < 8 := by
    rw [← hport]
    exact Nat.mod_lt _ (Nat.two_pow_pos 3)
  have hop : s.begin.ctlWrite (F.LNE_QUAD_CTL_EN q) 1 = (s.begin.quadSet q 1).quadStart q 2 p :=
    (ctlWrite_quadEn (s := s.begin) 1 hdark hq).trans (quadWriteLne_enable (s := s.begin) hoff hrole hport hok)
  rw [quadStart_sport] at hop
  have hset := frame_quadSet s.begin q 1
  obtain ⟨hen, hroleSet, hportSet⟩ := quadSet_ctl s.begin q 1
  rw [show s.begin.f (F.LNE_QUAD_CTL_ROLE q) = 2 from hrole] at hroleSet
  rw [show s.begin.f (F.LNE_QUAD_CTL_PORT q) = p from hport] at hportSet
  have hev : (s.begin.quadSet q 1).evNow = [] := rfl
  generalize s.begin.quadSet q 1 = a at *
  have hlit := frame_quadLit a q
  have hlpll := lpll_quadLit a q
  obtain ⟨-, hstages, hevLit⟩ := lanesAt_quadLit a q
  rw [show (a.setF (F.CKG_LPLL_STATUS_STATE q) 2).evNow = a.evNow from rfl] at hevLit
  generalize a.quadLit q = b at *
  have hlanes : R.LNE_SPORT_STATUS p ∉ (quadLanes q).map R.LNE_LANE_STATUS := notMem_quadLanes fun l hl => by simp only [R.LNE_SPORT_STATUS, R.LNE_LANE_STATUS]; omega
  have hctl (r : Nat) (hr : r < 16) : R.LNE_QUAD_CTL r ∉ R.CKG_LPLL_STATUS q :: (quadLanes q).map R.LNE_LANE_STATUS := by
    rw [List.mem_cons, not_or]
    exact ⟨by simp only [R.LNE_QUAD_CTL, R.CKG_LPLL_STATUS]; omega, notMem_quadLanes fun l hl => by simp only [R.LNE_QUAD_CTL, R.LNE_LANE_STATUS]; omega⟩
  have hstateNow : b.f (portStateF true p) ≠ 4 := by
    have hsame : b.f (F.LNE_SPORT_STATUS_STATE p) = a.f (F.LNE_SPORT_STATUS_STATE p) := hlit.f_eq (y := F.LNE_SPORT_STATUS_STATE p) (by
      rw [List.mem_cons, not_or]
      exact ⟨by simp only [R.LNE_SPORT_STATUS, R.CKG_LPLL_STATUS]; omega, hlanes⟩)
    have hsame' : a.f (F.LNE_SPORT_STATUS_STATE p) = s.f (F.LNE_SPORT_STATUS_STATE p) := hset.f_eq (y := F.LNE_SPORT_STATUS_STATE p)
      (by simp [R.LNE_SPORT_STATUS, R.LNE_QUAD_CTL]; omega)
    show b.f (F.LNE_SPORT_STATUS_STATE p) ≠ 4
    rw [hsame, hsame']
    exact hstate
  rw [portTo_kept hstateNow (by decide), show (b.portMoved true p 1).portShown true p = b.portMoved true p 1 from rfl, portShape_sport] at hop
  have hmoved := frame_sportMoved b p 1
  have hnow := state_sportMoved b p (n := 1) (by decide)
  have hevMoved := evNow_portMoved b p 1 true
  generalize b.portMoved true p 1 = d at *
  have hnear := hlit.trans hmoved
  have hquads : d.portQuads true p = [q] := by
    have hctl' (r : Nat) (hr : r < 16) : R.LNE_QUAD_CTL r ∉ (R.CKG_LPLL_STATUS q :: (quadLanes q).map R.LNE_LANE_STATUS) ++ [R.LNE_SPORT_STATUS p] := by
      rw [List.mem_append, not_or]
      exact ⟨hctl r hr, by simp [R.LNE_QUAD_CTL, R.LNE_SPORT_STATUS]; omega⟩
    have henNow : d.on (F.LNE_QUAD_CTL_EN q) = true := by
      rw [hnear.on_eq (y := F.LNE_QUAD_CTL_EN q) (hctl' q hq), State.on, hen]
      rfl
    have hroleNow := (hnear.f_eq (y := F.LNE_QUAD_CTL_ROLE q) (hctl' q hq)).trans hroleSet
    have hportNow := (hnear.f_eq (y := F.LNE_QUAD_CTL_PORT q) (hctl' q hq)).trans hportSet
    refine portQuads_enabled (s := s.begin) hq hok (hset.trans hnear) (fun r hr hrq => ?_) henNow hroleNow hportNow
    rw [List.mem_append, not_or]
    exact ⟨by simp [R.LNE_QUAD_CTL]; omega, hctl' r hr⟩
  rw [hquads, List.headD_cons] at hop
  have hshaped := frame_sportShaped d p q
  have hquad := quad_sportShaped d p hq
  have hstill := (state_sportShaped d p q).trans hnow
  have hevShaped : (d.sportShaped p q).evNow = d.evNow := rfl
  generalize d.sportShaped p q = e at *
  have hbefore := hset.trans (hnear.trans hshaped)
  have hfnNow : e.fn (fnStaord p) = .off := (hbefore.2.1 _ (by simp)).trans hfn
  have hne : e.fn (fnStaord p) ≠ .starting := by
    rw [hfnNow]
    decide
  rw [startFn_off hfnNow] at hop
  have hstart := frame_setFn_starting hne
  have hfnEnd := fn_setFn_starting hne
  have hevEnd : (e.setFn (fnStaord p) .starting).evNow = e.evNow := by rw [setFn_starting hne]
  generalize e.setFn (fnStaord p) .starting = f at *
  have hlast := hmoved.trans (hshaped.trans hstart)
  have hlastRegs {x : Nat} (hx : x ≠ R.LNE_SPORT_STATUS p) : x ∉ [R.LNE_SPORT_STATUS p] ++ ([R.LNE_SPORT_STATUS p] ++ []) := by simpa using hx
  have hlpllEnd := (hlast.f_eq (y := F.CKG_LPLL_STATUS_STATE q) (hlastRegs (by simp only [R.CKG_LPLL_STATUS, R.LNE_SPORT_STATUS]; omega))).trans hlpll
  have hstateEnd := (hstart.f_eq (y := F.LNE_SPORT_STATUS_STATE p) (by simp)).trans hstill
  have hquadEnd := (hstart.f_eq (y := F.LNE_SPORT_STATUS_QUAD p) (by simp)).trans hquad
  have hquiet : f.evNow = [] := hevEnd.trans (hevShaped.trans (hevMoved.trans (hevLit.trans hev)))
  have henEnd : f.finish.on (F.LNE_QUAD_CTL_EN q) = true := by
    have hsame : f.on (F.LNE_QUAD_CTL_EN q) = a.on (F.LNE_QUAD_CTL_EN q) := (hlast.on_eq (y := F.LNE_QUAD_CTL_EN q)
      (hlastRegs (by simp only [R.LNE_QUAD_CTL, R.LNE_SPORT_STATUS]; omega))).trans (hlit.on_eq (y := F.LNE_QUAD_CTL_EN q) (hctl q hq))
    rw [on_finish, hsame, State.on, hen]
    rfl
  have hstagesEnd (i : Nat) (hi : i < 4) : f.stage_ (4 * q + i) = 1 :=
    (hlast.stage_eq (hlastRegs (by simp only [R.LNE_LANE_STATUS, R.LNE_SPORT_STATUS]; omega))).trans (hstages _ (mem_quadLanes.mpr (by omega)))
  refine completes_of_frame (op := (·.idx q 16 fun s => s.ctlWrite (F.LNE_QUAD_CTL_EN q) 1)) rfl ((idx_of_lt hq).trans hop) ((hbefore.trans hstart).mono ?_ (by simp) (by simp))
    (.inl hquiet) fun hkeeps => ⟨henEnd, hlpllEnd, hstagesEnd, hstateEnd, hquadEnd, hfnEnd, hkeeps⟩
  intro x hx
  simp only [quadLanes, List.map_map, Function.comp_def, List.nil_append, List.append_nil, List.cons_append, List.mem_cons, List.mem_append, List.not_mem_nil, or_false] at hx ⊢
  tauto

/-! ## QUAD_DISABLE (R278) -/

/-- A lane that forgets its bring-up. -/
def State.laneBlank (s : State) (l : Nat) : State := (s.wrn (R.LNE_LANE_STATUS l) 0).setLane l {}

theorem frame_laneBlank (s : State) (l : Nat) : Frame [R.LNE_LANE_STATUS l] [] [.lne] s (s.laneBlank l) := (frame_wrn _ _ _).trans (frame_setLane _ l _)

theorem status_laneBlank (s : State) (l : Nat) : (s.laneBlank l).rdn (R.LNE_LANE_STATUS l) = 0 :=
  ((frame_setLane _ l _).rdn_eq (by simp)).trans (rdn_wrn_same s _ 0)

/-- The lanes of a list are blank. -/
structure LanesBlank (ls : List Nat) (s t : State) : Prop where
  frame : Frame (ls.map R.LNE_LANE_STATUS) [] [.lne] s t
  status : ∀ l ∈ ls, t.rdn (R.LNE_LANE_STATUS l) = 0
  evNow : t.evNow = s.evNow

theorem lanesBlank_foldl (ls : List Nat) (s : State) : LanesBlank ls s (ls.foldl State.laneBlank s) := by
  induction ls generalizing s with
  | nil => exact ⟨(Frame.refl s).mono (by simp) (by simp) (by simp), by simp, rfl⟩
  | cons l r ih =>
    obtain ⟨hframe, hstatus, hev⟩ := ih (s.laneBlank l)
    refine ⟨((frame_laneBlank s l).trans hframe).mono (by simp) (by simp) (by simp), fun m hm => ?_, hev⟩
    by_cases hr : m ∈ r
    · exact hstatus m hr
    · obtain rfl : m = l := (List.mem_cons.mp hm).resolve_right hr
      have hout : R.LNE_LANE_STATUS m ∉ r.map R.LNE_LANE_STATUS := fun hin => by
        obtain ⟨k, hk, hkm⟩ := List.mem_map.mp hin
        exact hr (laneStatus_inj hkm ▸ hk)
      exact (hframe.rdn_eq hout).trans (status_laneBlank s m)

/-- The PLL of a quad and its clocks stop. -/
def State.quadUnclocked (s : State) (q : Nat) : State := (s.setF (F.CKG_LPLL_STATUS_STATE q) 0).setF ⟨R.CKG_LANE_STATUS, q, q⟩ 0

theorem frame_quadUnclocked (s : State) (q : Nat) : Frame [R.CKG_LPLL_STATUS q, R.CKG_LANE_STATUS] [] [] s (s.quadUnclocked q) :=
  (frame_setF s (F.CKG_LPLL_STATUS_STATE q) 0).trans (frame_setF _ ⟨R.CKG_LANE_STATUS, q, q⟩ 0)

theorem lpll_quadUnclocked (s : State) {q : Nat} (hq : q < 16) : (s.quadUnclocked q).f (F.CKG_LPLL_STATUS_STATE q) = 0 := by
  rw [State.quadUnclocked, (frame_setF _ ⟨R.CKG_LANE_STATUS, q, q⟩ 0).f_eq (y := F.CKG_LPLL_STATUS_STATE q) (by simp [R.CKG_LPLL_STATUS, R.CKG_LANE_STATUS]; omega)]
  exact f_setF_same s (F.CKG_LPLL_STATUS_STATE q) 0 (by decide : 2 < 32)

/-- A quad that stops. -/
def State.quadDark (s : State) (q : Nat) : State := (quadLanes q).foldl State.laneBlank (s.quadUnclocked q)

theorem quadStop_sport (s : State) (q p : Nat) : s.quadStop q 2 p = ((((s.quadDark q).portTo true p 0).portShape true p).linkReset p).setFn (fnStaord p) .off := by
  rw [State.quadDark, quadLanes, List.foldl_map]
  rfl

theorem lanesBlank_quadDark (s : State) (q : Nat) : LanesBlank (quadLanes q) (s.quadUnclocked q) (s.quadDark q) := lanesBlank_foldl _ _

theorem frame_quadDark (s : State) (q : Nat) : Frame ([R.CKG_LPLL_STATUS q, R.CKG_LANE_STATUS] ++ (quadLanes q).map R.LNE_LANE_STATUS) [] [.lne] s (s.quadDark q) :=
  ((frame_quadUnclocked s q).trans (lanesBlank_quadDark s q).frame).mono (by simp) (by simp) (by simp)

theorem lpll_quadDark (s : State) {q : Nat} (hq : q < 16) : (s.quadDark q).f (F.CKG_LPLL_STATUS_STATE q) = 0 := by
  rw [(lanesBlank_quadDark s q).frame.f_eq (y := F.CKG_LPLL_STATUS_STATE q) (notMem_quadLanes fun l hl => by simp only [R.CKG_LPLL_STATUS, R.LNE_LANE_STATUS]; omega)]
  exact lpll_quadUnclocked s hq

/-- A quad of a Staord port is disabled. -/
theorem quadDisable_completes {s : State} {q p : Nat} (hdark : s.dark = false) (hq : q < 16) (hon : s.on (F.LNE_QUAD_CTL_EN q) = true)
    (hrole : s.f (F.LNE_QUAD_CTL_ROLE q) = 2) (hport : s.f (F.LNE_QUAD_CTL_PORT q) = p) (hfree : s.quadUsed q = false)
    (hstate : s.f (F.LNE_SPORT_STATUS_STATE p) ≠ 4) (hfn : s.fn (fnStaord p) = .starting) :
    Completes (.quadDisable q) s fun t => t.on (F.LNE_QUAD_CTL_EN q) = false ∧ t.f (F.CKG_LPLL_STATUS_STATE q) = 0 ∧ (∀ i : Nat, i < 4 →
      t.rdn (R.LNE_LANE_STATUS (4 * q + i)) = 0) ∧ t.f (F.LNE_SPORT_STATUS_STATE p) = 0 ∧ t.fn (fnStaord p) = .off ∧ t.link p = {} ∧
      Keeps ([R.LNE_QUAD_CTL q, R.CKG_LPLL_STATUS q, R.CKG_LANE_STATUS, R.LNE_SPORT_STATUS p, R.CNV_LINK_STATUS p] ++ (List.range 4).map (fun i => R.LNE_LANE_STATUS (4 * q + i)))
        [fnStaord p] [.lne, .links, .fnAt] s t := by
  have hp : p < 8 := by
    rw [← hport]
    exact Nat.mod_lt _ (Nat.two_pow_pos 3)
  have hop : s.begin.ctlWrite (F.LNE_QUAD_CTL_EN q) 0 = (s.begin.quadSet q 0).quadStop q 2 p :=
    (ctlWrite_quadEn (s := s.begin) 0 hdark hq).trans (quadWriteLne_disable (s := s.begin) hon hrole hport hfree)
  rw [quadStop_sport] at hop
  have hset := frame_quadSet s.begin q 0
  obtain ⟨hen, -, -⟩ := quadSet_ctl s.begin q 0
  have hev : (s.begin.quadSet q 0).evNow = [] := rfl
  generalize s.begin.quadSet q 0 = a at *
  have hdarkQuad := frame_quadDark a q
  have hlpll := lpll_quadDark a hq
  obtain ⟨-, hstatus, hevDark⟩ := lanesBlank_quadDark a q
  rw [show (a.quadUnclocked q).evNow = a.evNow from rfl] at hevDark
  generalize a.quadDark q = b at *
  have hnear := hset.trans hdarkQuad
  have hlanes : R.LNE_SPORT_STATUS p ∉ (quadLanes q).map R.LNE_LANE_STATUS := notMem_quadLanes fun l hl => by simp only [R.LNE_SPORT_STATUS, R.LNE_LANE_STATUS]; omega
  have hstateNow : b.f (portStateF true p) ≠ 4 := by
    have hsame : b.f (F.LNE_SPORT_STATUS_STATE p) = s.f (F.LNE_SPORT_STATUS_STATE p) := hnear.f_eq (y := F.LNE_SPORT_STATUS_STATE p) (by
      simp only [List.cons_append, List.nil_append, List.mem_cons, not_or]
      exact ⟨by simp only [R.LNE_SPORT_STATUS, R.LNE_QUAD_CTL]; omega, by simp only [R.LNE_SPORT_STATUS, R.CKG_LPLL_STATUS]; omega,
        by simp only [R.LNE_SPORT_STATUS, R.CKG_LANE_STATUS]; omega, hlanes⟩)
    show b.f (F.LNE_SPORT_STATUS_STATE p) ≠ 4
    rw [hsame]
    exact hstate
  rw [portTo_kept hstateNow (by decide), show (b.portMoved true p 0).portShown true p = b.portMoved true p 0 from rfl, portShape_sport] at hop
  have hmoved := frame_sportMoved b p 0
  have hnow := state_sportMoved b p (n := 0) (by decide)
  have hevMoved := evNow_portMoved b p 0 true
  generalize b.portMoved true p 0 = d at *
  generalize (d.portQuads true p).headD 0 = q' at *
  have hshaped := frame_sportShaped d p q'
  have hstill := (state_sportShaped d p q').trans hnow
  have hevShaped : (d.sportShaped p q').evNow = d.evNow := rfl
  generalize d.sportShaped p q' = e at *
  have hbefore := hnear.trans (hmoved.trans hshaped)
  have hfnNow : e.fn (fnStaord p) = .starting := (hbefore.2.1 _ (by simp)).trans hfn
  rw [linkReset_starting hfnNow] at hop
  have hclear := frame_linkCleared e p
  have hlink := link_linkCleared e p
  have hevClear : (e.linkCleared p).evNow = e.evNow := rfl
  have hne : (e.linkCleared p).fn (fnStaord p) ≠ .off := by
    rw [hclear.2.1 _ (by simp), hfnNow]
    decide
  generalize e.linkCleared p = f at *
  rw [setFn_off hne] at hop
  have hput := frame_fnPut f (fnStaord p) .off
  have hfnEnd := fn_fnPut_same f (fnStaord p) .off
  have hevPut : (f.fnPut (fnStaord p) .off).evNow = f.evNow := rfl
  generalize f.fnPut (fnStaord p) .off = g at *
  have hend := hclear.trans hput
  have hlast := hmoved.trans (hshaped.trans hend)
  have hlastRegs {x : Nat} (hx : x ≠ R.LNE_SPORT_STATUS p) (hx' : x ≠ R.CNV_LINK_STATUS p) :
      x ∉ [R.LNE_SPORT_STATUS p] ++ ([R.LNE_SPORT_STATUS p] ++ ([R.CNV_LINK_STATUS p] ++ [])) := by simpa using ⟨hx, hx'⟩
  have hlpllEnd := (hlast.f_eq (y := F.CKG_LPLL_STATUS_STATE q) (hlastRegs (by simp only [R.CKG_LPLL_STATUS, R.LNE_SPORT_STATUS]; omega)
    (by simp only [R.CKG_LPLL_STATUS, R.CNV_LINK_STATUS]; omega))).trans hlpll
  have hstateEnd := (hend.f_eq (y := F.LNE_SPORT_STATUS_STATE p) (by simp [R.LNE_SPORT_STATUS, R.CNV_LINK_STATUS]; omega)).trans hstill
  have hlinkEnd := (hput.link_eq (by simp) p).trans hlink
  have hquiet : g.evNow = [] := hevPut.trans (hevClear.trans (hevShaped.trans (hevMoved.trans (hevDark.trans hev))))
  have henEnd : g.finish.on (F.LNE_QUAD_CTL_EN q) = false := by
    have hsame : g.on (F.LNE_QUAD_CTL_EN q) = a.on (F.LNE_QUAD_CTL_EN q) := (hlast.on_eq (y := F.LNE_QUAD_CTL_EN q)
      (hlastRegs (by simp only [R.LNE_QUAD_CTL, R.LNE_SPORT_STATUS]; omega) (by simp only [R.LNE_QUAD_CTL, R.CNV_LINK_STATUS]; omega))).trans
        (hdarkQuad.on_eq (y := F.LNE_QUAD_CTL_EN q) (by
          simp only [List.cons_append, List.nil_append, List.mem_cons, not_or]
          exact ⟨by simp only [R.LNE_QUAD_CTL, R.CKG_LPLL_STATUS]; omega, by simp only [R.LNE_QUAD_CTL, R.CKG_LANE_STATUS]; omega,
            notMem_quadLanes fun l hl => by simp only [R.LNE_QUAD_CTL, R.LNE_LANE_STATUS]; omega⟩))
    rw [on_finish, hsame, State.on, hen]
    rfl
  have hstatusEnd (i : Nat) (hi : i < 4) : g.rdn (R.LNE_LANE_STATUS (4 * q + i)) = 0 :=
    (hlast.rdn_eq (hlastRegs (by simp only [R.LNE_LANE_STATUS, R.LNE_SPORT_STATUS]; omega) (by simp only [R.LNE_LANE_STATUS, R.CNV_LINK_STATUS]; omega))).trans
      (hstatus _ (mem_quadLanes.mpr (by omega)))
  refine completes_of_frame (op := (·.idx q 16 fun s => s.ctlWrite (F.LNE_QUAD_CTL_EN q) 0)) rfl ((idx_of_lt hq).trans hop) ((hbefore.trans hend).mono ?_ (by simp) (by simp))
    (.inl hquiet) fun hkeeps => ⟨henEnd, hlpllEnd, hstatusEnd, hstateEnd, hfnEnd, hlinkEnd, hkeeps⟩
  intro x hx
  simp only [quadLanes, List.map_map, Function.comp_def, List.nil_append, List.append_nil, List.cons_append, List.mem_cons, List.mem_append, List.not_mem_nil, or_false] at hx ⊢
  tauto

/-- Settles O31: a quad starts and stops its lanes and its Staord port, and a lane trains as its bring-up stages say. -/
theorem laneTrainingCommandsComplete : Obligations.LaneTrainingCommandsComplete :=
  ⟨fun _ _ _ hdark hq hoff hrole hport hok hstate hfn _ => quadEnable_completes hdark hq hoff hrole hport hok hstate hfn,
   fun _ _ _ hdark hq hon hrole hport hfree hstate _ hfn _ => quadDisable_completes hdark hq hon hrole hport hfree hstate hfn,
   fun _ _ hl hstage => signalDetect_completes hl hstage,
   fun _ _ _ _ _ _ hl hstage hpll hpass => cdrLock_completes hl hstage hpll hpass,
   fun _ _ _ _ hl hport hstage hstate hswitch hinv hbytes hgood hmore => trainingWord_good hl hport hstage hstate hswitch hinv hbytes hgood hmore,
   fun _ _ _ _ _ hl hport hstage hstate hswitch hok hinv hbytes hsync he => trainingWord_errors hl hport hstage hstate hswitch hok hinv hbytes hsync he,
   fun _ _ _ _ hp hstate hlanes hk => deskew_sport hp hstate hlanes hk,
   fun _ _ _ _ hp hstate hlanes => deskew_eport hp hstate hlanes,
   fun _ _ _ _ _ hp hstate hlanes hk => deskew_sport_wide hp hstate hlanes hk⟩

end Sys2Proof.Machine
end

section
/-!
PROOFS. Why an evaluation of the voltage loop need not end inside VMIN to VMAX (R348): the supply moves by 2.5 mV at most, toward a new VMAX too.
-/

namespace Sys2Proof.Machine

/-- The voltage loop runs; quadrant 0 has VMIN = VMAX = 0 and its supply is at 850 mV. -/
def supplyAboveVmax : State := { State.reset with fns := [(fnCal, .ready)], regs := [(R.CAL_AVS_CTL 0, 0), (R.CAL_CTL, 3)] }

theorem supplyAboveVmax_conditions : supplyAboveVmax.avsOn = true ∧ supplyAboveVmax.f (F.CAL_AVS_CTL_TARGET 0) = 0 ∧ supplyAboveVmax.volt 0 = 1700 ∧
    supplyAboveVmax.f (F.CAL_AVS_CTL_VMIN 0) = 0 ∧ supplyAboveVmax.f (F.CAL_AVS_CTL_VMAX 0) = 0 ∧ Tab.get (fun _ => 0) supplyAboveVmax.cal.vmaxRun 0 < 999 := by
  decide +kernel

/-- The state after an evaluation whose margin is the target. -/
def supplyAboveVmaxEnd : State := supplyAboveVmax.begin.avsEvaluate 0 0

/-- The supply is 2.5 mV lower there. -/
theorem supplyAboveVmaxEnd_volt : supplyAboveVmaxEnd.finish.volt 0 = 1695 := by decide +kernel

theorem supplyAboveVmaxEnd_keeps : supplyAboveVmaxEnd.pending = supplyAboveVmax.pending ∧ supplyAboveVmaxEnd.keys = supplyAboveVmax.keys := by decide +kernel

theorem supplyAboveVmax_completes : Completes (.avsEvaluate 0 0) supplyAboveVmax fun t => t.volt 0 = 1695 :=
  run_of (op := (·.avsEvaluate 0 0)) (u := supplyAboveVmaxEnd) rfl supplyAboveVmaxEnd_keeps.1 supplyAboveVmaxEnd_keeps.2 supplyAboveVmaxEnd_volt

/-- Refutes O39 by its clause of AVS_EVALUATE: the clause puts the supply between VMIN and VMAX at once, the model moves it 2.5 mV toward them. -/
theorem not_adaptiveLoopCommandsComplete : ¬ Obligations.AdaptiveLoopCommandsComplete := by
  unfold Obligations.AdaptiveLoopCommandsComplete
  rintro ⟨hEvaluate, -⟩
  obtain ⟨hloop, htarget, hvolt, hvmin, hvmax, hrun⟩ := supplyAboveVmax_conditions
  obtain ⟨t, ht, hclamped, -⟩ := hEvaluate supplyAboveVmax 0 0 1700 0 (by decide) hloop (by rw [htarget]; rfl) hvolt.symm hrun
  obtain ⟨u, hu, hslow⟩ := supplyAboveVmax_completes
  obtain rfl : t = u := Host.Outcome.next.inj (ht.symm.trans hu)
  rw [hvmin, hvmax, hslow] at hclamped
  exact absurd hclamped (by decide)

end Sys2Proof.Machine
end

section
/-!
PROOFS. Why the reset of a function need not leave every other address alone (R358): it clears the four bytes of the register, and a state may list a word at
one of the addresses between two registers.
-/

namespace Sys2Proof.Machine

/-- A state that lists a word one byte after the register of ingest port 0. -/
def wordBesideRegister : State := { State.reset with regs := [(R.ING_PORT_OVH 0 + 1, 1)] }

theorem wordBesideRegister_conditions : wordBesideRegister.dark = false ∧ wordBesideRegister.cfg.reset = none ∧ wordBesideRegister.held = [] ∧
    wordBesideRegister.wpend = [] ∧ wordBesideRegister.latch = [] ∧ wordBesideRegister.rd (R.ING_PORT_OVH 0 + 1) = 1 := by decide +kernel

/-- The write to GLB_FRESET that resets function `f`. -/
def State.freset (s : State) (f : Nat) : State := s.idx f 128 fun s => s.busWrite .pcie (R.GLB_FRESET (f / 32)) (BitVec.ofNat 32 (2 ^ (f % 32))) 4

/-- The state in which ingest port 0 is reset. -/
def wordBesideRegisterEnd : State := wordBesideRegister.begin.freset 28

/-- The word is gone there. -/
theorem wordBesideRegisterEnd_lost : wordBesideRegisterEnd.finish.rd (R.ING_PORT_OVH 0 + 1) = 0 := by decide +kernel

theorem wordBesideRegisterEnd_keeps : wordBesideRegisterEnd.pending = wordBesideRegister.pending ∧ wordBesideRegisterEnd.keys = wordBesideRegister.keys := by
  decide +kernel

theorem wordBesideRegister_completes : Completes (.functionReset 28) wordBesideRegister fun t => t.rd (R.ING_PORT_OVH 0 + 1) = 0 := by
  refine run_of (op := (·.freset 28)) (u := wordBesideRegisterEnd) ?_ wordBesideRegisterEnd_keeps.1 wordBesideRegisterEnd_keeps.2 wordBesideRegisterEnd_lost
  rw [wordBesideRegisterEnd]

/-- Refutes O40 by its clause of FUNCTION_RESET: the clause keeps the word at every other address, but the reset clears all four bytes of the register. -/
theorem not_coreResetCommandsComplete : ¬ Obligations.CoreResetCommandsComplete := by
  unfold Obligations.CoreResetCommandsComplete
  rintro ⟨-, -, -, -, hReset⟩
  obtain ⟨hdark, hreset, hheld, hwpend, hlatch, hword⟩ := wordBesideRegister_conditions
  obtain ⟨t, ht, -, -, hregs, -⟩ := hReset wordBesideRegister 28 hdark (by decide) (by decide) hreset hheld hwpend hlatch
  obtain ⟨u, hu, hlost⟩ := wordBesideRegister_completes
  obtain rfl : t = u := Host.Outcome.next.inj (ht.symm.trans hu)
  have hkept := hregs (R.ING_PORT_OVH 0 + 1) (by decide)
  rw [hlost, hword] at hkept
  exact absurd hkept (by decide)

end Sys2Proof.Machine
end

section
/-!
PROOFS. Why the loader's start need not leave the calibration alone (R76, R343): the relock of a core PLL whose Sighting is waiting is that Sighting.
-/

namespace Sys2Proof.Machine

/-! ## The relocks of a start and the Sightings of the PLLs (R76) -/

/-- Core PLLs 2 to 5 relock at D = 4. -/
def State.stepsBack (s : State) (m : Nat) : State :=
  if 2 ≤ m ∧ m ≤ 5 then
    let s := if s.f (F.CAL_FS_STATUS_D (m - 2)) = 4 then s else (s.bump (R.CAL_FS_CHG_CNT (m - 2))).raise 0x1506 (m - 2)
    (s.setF (F.CKG_CPLL_STATUS_DIV m) 4).setF (F.CAL_FS_STATUS_D (m - 2)) 4
  else s

theorem startRelock_eq (s : State) (m : Nat) : s.startRelock m = (((s.relockBegin m).relockSights m).relockShown m).stepsBack m := rfl

theorem frame_stepsBack (s : State) (m : Nat) : Frame [R.CAL_FS_CHG_CNT (m - 2), R.CKG_CPLL_STATUS m, R.CAL_FS_STATUS (m - 2)] [] [] s (s.stepsBack m) := by
  unfold State.stepsBack
  split
  · have hcount : Frame [R.CAL_FS_CHG_CNT (m - 2)] [] [] s (if s.f (F.CAL_FS_STATUS_D (m - 2)) = 4 then s else (s.bump (R.CAL_FS_CHG_CNT (m - 2))).raise 0x1506 (m - 2)) := by
      split
      · exact (Frame.refl s).mono (by simp) (by simp) (by simp)
      · exact (frame_bump s _).trans (frame_raise _ _ _)
    exact hcount.trans ((frame_setF _ (F.CKG_CPLL_STATUS_DIV m) 4).trans (frame_setF _ (F.CAL_FS_STATUS_D (m - 2)) 4))
  · exact (Frame.refl s).mono (by simp) (by simp) (by simp)

/-- The registers that a relock of core PLL `m` may change. -/
def relockRegs (m : Nat) : List Nat := [R.CKG_CPLL_STATUS m, R.CKG_CORE_STATUS, R.CAL_FS_CHG_CNT (m - 2), R.CAL_FS_STATUS (m - 2)]

theorem frame_relockTail (s : State) (m : Nat) : Frame (relockRegs m) [] [] s ((s.relockShown m).stepsBack m) :=
  ((frame_relockShown s m).trans (frame_stepsBack _ m)).mono (by simp [relockRegs]) (by simp) (by simp)

theorem frame_relockSights (s : State) (m : Nat) : Frame [] [] [.cal] s (s.relockSights m) := by
  unfold State.relockSights
  split
  · split
    · exact frame_setSight s 2 m _
    · exact (Frame.refl s).mono (by simp) (by simp) (by simp)
  · exact (Frame.refl s).mono (by simp) (by simp) (by simp)

theorem frame_relockBegin (s : State) (m : Nat) : Frame [] [] [.ckg] s (s.relockBegin m) :=
  frame_ckg s _

theorem frame_startRelock (s : State) (m : Nat) : Frame (relockRegs m) [] [.ckg, .cal] s (s.startRelock m) := by
  rw [startRelock_eq]
  exact ((frame_relockBegin s m).trans ((frame_relockSights _ m).trans (frame_relockTail _ m))).mono (by simp) (by simp) (by simp)

theorem sight_relockSights_ne (s : State) {m n : Nat} (h : n ≠ m) : (s.relockSights m).sight 2 n = s.sight 2 n := by
  unfold State.relockSights
  split
  · split
    · exact sight_setSight_ne s _ h
    · rfl
  · rfl

theorem sight_of_cal {s t : State} (h : t.cal = s.cal) (k i : Nat) : t.sight k i = s.sight k i := by rw [State.sight, State.sight, h]

theorem Frame.sight_eq {regs fns : List Nat} {parts : List Part} {s t : State} (h : Frame regs fns parts s t) (hp : .cal ∉ parts) (k i : Nat) : t.sight k i = s.sight k i :=
  sight_of_cal (h.part (p := .cal) hp) k i

theorem sight_startRelock_ne (s : State) {m n : Nat} (h : n ≠ m) : (s.startRelock m).sight 2 n = s.sight 2 n := by
  rw [startRelock_eq, (frame_relockTail _ m).sight_eq (by simp), sight_relockSights_ne _ h, (frame_relockBegin s m).sight_eq (by simp)]

/-- The relock of a PLL whose Sighting is waiting is that Sighting. -/
theorem sight_startRelock {s : State} {m : Nat} {x : Sight} (h : s.sight 2 m = some x) (hgoal : x.goal = []) : (s.startRelock m).sight 2 m = some { x with run := true } := by
  have hbegun : (s.relockBegin m).sight 2 m = some x := ((frame_relockBegin s m).sight_eq (by simp) 2 m).trans h
  have hsights : (s.relockBegin m).relockSights m = (s.relockBegin m).setSight 2 m (some { x with run := true }) := by
    simp only [State.relockSights, hbegun, hgoal, List.isEmpty_nil, if_true]
  rw [startRelock_eq, (frame_relockTail _ m).sight_eq (by simp), hsights]
  exact sight_setSight_same _ 2 m _

/-- The relocks of other PLLs. -/
theorem sight_relockAll_ne (l : List Nat) (s : State) {n : Nat} (h : n ∉ l) : (l.foldl State.startRelock s).sight 2 n = s.sight 2 n := by
  induction l generalizing s with
  | nil => rfl
  | cons m l ih =>
    rw [List.mem_cons, not_or] at h
    exact (ih (s.startRelock m) h.2).trans (sight_startRelock_ne s h.1)

theorem frame_relockAll (l : List Nat) (s : State) : Frame (l.flatMap relockRegs) [] [.ckg, .cal] s (l.foldl State.startRelock s) := by
  induction l generalizing s with
  | nil => exact (Frame.refl s).mono (by simp) (by simp) (by simp)
  | cons m l ih => exact ((frame_startRelock s m).trans (ih _)).mono (by simp) (by simp) (by simp)

/-! ## The loader's start (R359) -/

theorem frame_strapsSampled (s : State) : Frame [R.BIN_STATUS, R.BIN_BOOT_CNT, R.GLB_MID, R.TWN_STATUS] [] [] s s.strapsSampled := by
  have hmutes : Frame [R.BIN_STATUS] [] [] s s.mutesEnd := by
    unfold State.mutesEnd
    dsimp only
    split
    · exact ((frame_raise s _ _).trans ((frame_setF _ F.BIN_STATUS_MUTED 0).trans (frame_setF _ F.BIN_STATUS_MUTE_HOLD 0))).mono (by simp) (by simp) (by simp)
    · exact ((frame_setF s F.BIN_STATUS_MUTED 0).trans (frame_setF _ F.BIN_STATUS_MUTE_HOLD 0)).mono (by simp) (by simp) (by simp)
  exact (hmutes.trans ((frame_bump _ R.BIN_BOOT_CNT).trans ((frame_wrn _ R.GLB_MID _).trans ((frame_setF _ F.TWN_STATUS_TWIN_FIRST _).trans
    (frame_setF _ F.TWN_STATUS_HELM_IN _))))).mono (by simp) (by simp) (by simp)

theorem frame_loaderBegun (s : State) (slots : Slot) : Frame [] [] [.cfg, .pins] s (s.loaderBegun slots) := by
  refine ⟨fun _ _ => rfl, fun _ _ => rfl, rfl, rfl, fun p hp => ?_⟩
  cases p
  case cfg | pins => simp at hp
  all_goals rfl

theorem frame_bootIdDrawn (s : State) : Frame [R.BIN_SX_BOOT_ID] [] [.fctr] s s.bootIdDrawn := (frame_free s).trans (frame_wrn _ _ _)

/-- The straps and the boot identifier of a start. -/
theorem frame_loaderSampled (s : State) (slots : Slot) :
    Frame [R.BIN_STATUS, R.BIN_BOOT_CNT, R.GLB_MID, R.TWN_STATUS, R.BIN_SX_BOOT_ID] [] [.cfg, .pins, .fctr] s (s.loaderBegun slots).strapsSampled.bootIdDrawn :=
  (frame_loaderBegun s slots).trans ((frame_strapsSampled _).trans (frame_bootIdDrawn _))

/-- What the loader's start leaves before it reads the flash. -/
theorem frame_loaderInit (s : State) (slots : Slot) (h : s.fn fnCfg ≠ .starting) :
    ∃ regs, Frame regs [fnCfg] [.cfg, .pins, .fctr, .ckg, .cal, .fnAt] s (s.loaderInit slots) := by
  rw [loaderInit_eq]
  have hbefore := (frame_loaderSampled s slots).trans (frame_relockAll (List.range 11) _)
  generalize (List.range 11).foldl State.startRelock (s.loaderBegun slots).strapsSampled.bootIdDrawn = t at *
  have hfn : t.fn fnCfg ≠ .starting := by
    rw [hbefore.2.1 _ (by simp)]
    exact h
  exact ⟨_, (hbefore.trans (frame_setFn_starting hfn)).mono (fun _ hx => hx) (by simp) (by simp)⟩

/-- The Sighting of core PLL 0 that is waiting runs when the loader starts. -/
theorem sight_loaderInit {s : State} (slots : Slot) {x : Sight} (h : s.fn fnCfg ≠ .starting) (hsight : s.sight 2 0 = some x) (hgoal : x.goal = []) :
    (s.loaderInit slots).sight 2 0 = some { x with run := true } := by
  have hsampled := frame_loaderSampled s slots
  rw [loaderInit_eq]
  generalize (s.loaderBegun slots).strapsSampled.bootIdDrawn = u at *
  have hall := hsampled.trans (frame_relockAll (List.range 11) u)
  have hfn : ((List.range 11).foldl State.startRelock u).fn fnCfg ≠ .starting := by
    rw [hall.2.1 _ (by simp)]
    exact h
  have hrange : List.range 11 = 0 :: (List.range 10).map (· + 1) := rfl
  rw [(frame_setFn_starting hfn).sight_eq (by simp), hrange, List.foldl_cons, sight_relockAll_ne _ _ (by simp)]
  exact sight_startRelock ((hsampled.sight_eq (by simp) 2 0).trans hsight) hgoal

theorem dirCopy_of_flash {s t : State} (h : t.flash = s.flash) : t.dirCopy = s.dirCopy := by
  have hbytes (n a : Nat) : t.flashBytes a n = s.flashBytes a n := by
    induction n generalizing a with
    | zero => rfl
    | succ n ih => rw [State.flashBytes, State.flashBytes, ih, State.flashByte, State.flashByte, h]
  have hgood (a : Nat) : t.dirGood a = s.dirGood a := by simp only [State.dirGood, State.flashWord, hbytes, h]
  rw [State.dirCopy, State.dirCopy, hgood, hgood]

theorem sv_of_souv {s t : State} (h : t.souv = s.souv) (w : Nat) : t.sv w = s.sv w := by rw [State.sv, State.sv, h]

/-- The directory's fields of CFG_FLASH. -/
def State.flashFound (s : State) (k : Nat) : State := (s.setF F.CFG_FLASH_DENSITY s.flash.density).setF F.CFG_FLASH_SECOND k

theorem frame_flashFound (s : State) (k : Nat) : Frame [R.CFG_FLASH] [] [] s (s.flashFound k) :=
  ((frame_setF s F.CFG_FLASH_DENSITY _).trans (frame_setF _ F.CFG_FLASH_SECOND k)).mono (by simp) (by simp) (by simp)

/-- Without a session and without a trial nothing is installed and nothing is decided. -/
theorem installed_plain {s : State} {e : Option FwHdr} {m c o : Bool} (hupd : s.updState = 0) (htrial : s.trial ≠ 1) :
    (s.sessionCheck.install e m c).bootDecision o = s := by
  have hcheck : s.sessionCheck = s := if_neg fun hbad => hbad.1 hupd
  have hinstall : s.install e m c = s := if_pos (by rw [hupd]; decide)
  rw [hcheck, hinstall]
  exact if_pos htrial


theorem loaderStart_found {s : State} {slots : Slot} {e : Option FwHdr} {m c o : Bool} {k : Nat} (hmay : s.loaderMay = true) (hreset : s.cfg.reset = none)
    (hdir : (s.loaderInit slots).dirCopy = some k) :
    s.loaderStart slots e m c o = ((((s.loaderInit slots).flashFound k).sessionCheck).install e m c).bootDecision o := by
  unfold State.loaderStart
  rw [if_neg (by rw [hmay]; decide)]
  extract_lets u t
  have hu : u = s := by
    simp only [u, hreset]
  have ht : t = s.loaderInit slots := by
    simp only [t, hu]
  clear_value t
  subst ht
  rw [hdir]
  rfl

/-- A start runs the Sighting of core PLL 0 that is waiting. -/
theorem sight_loaderStart {s : State} (slots : Slot) (e : Option FwHdr) (m c o : Bool) {k : Nat} {x : Sight} (hmay : s.loaderMay = true) (hreset : s.cfg.reset = none)
    (hdir : s.dirCopy = some k) (hupd : s.updState = 0) (htrial : s.trial ≠ 1) (hfn : s.fn fnCfg = .off) (hsight : s.sight 2 0 = some x) (hgoal : x.goal = []) :
    (s.loaderStart slots e m c o).sight 2 0 = some { x with run := true } := by
  have hne : s.fn fnCfg ≠ .starting := by
    rw [hfn]
    decide
  obtain ⟨regs, hinit⟩ := frame_loaderInit s slots hne
  have hruns := sight_loaderInit slots hne hsight hgoal
  have hdirNow := (dirCopy_of_flash (hinit.part (p := .flash) (by simp))).trans hdir
  rw [loaderStart_found hmay hreset hdirNow]
  generalize s.loaderInit slots = t at *
  have hfound := frame_flashFound t k
  have hsv := sv_of_souv ((hinit.trans hfound).part (p := .souv) (by simp))
  have hupdNow : (t.flashFound k).updState = 0 := by
    rw [State.updState, State.svf, hsv]
    exact hupd
  have htrialNow : (t.flashFound k).trial ≠ 1 := by
    rw [State.trial, State.svf, hsv]
    exact htrial
  rw [installed_plain hupdNow htrialNow, hfound.sight_eq (by simp)]
  exact hruns

/-- What a command does to the calibration is what its operation does. -/
theorem run_cal (s : State) (op : State → State) : ∃ t, s.run op = .next t ∧ t.cal = (op s.begin).cal := ⟨_, rfl, rfl⟩

theorem loaderStart_runs {s : State} (slots : Slot) (e : Option FwHdr) (m c o : Bool) {k : Nat} {x : Sight} (hmay : s.loaderMay = true) (hreset : s.cfg.reset = none)
    (hdir : s.dirCopy = some k) (hupd : s.updState = 0) (htrial : s.trial ≠ 1) (hfn : s.fn fnCfg = .off) (hsight : s.sight 2 0 = some x) (hgoal : x.goal = []) :
    Completes (.loaderStart slots.active slots.fallback e m c o) s fun t => t.sight 2 0 = some { x with run := true } := by
  have hdirNow : s.begin.dirCopy = some k := (dirCopy_of_flash (s := s) rfl).trans hdir
  have hsv (w : Nat) : s.begin.sv w = s.sv w := sv_of_souv (s := s) rfl w
  have hupdNow : s.begin.updState = 0 := by
    rw [State.updState, State.svf, hsv]
    exact hupd
  have htrialNow : s.begin.trial ≠ 1 := by
    rw [State.trial, State.svf, hsv]
    exact htrial
  have hruns := sight_loaderStart (s := s.begin) slots e m c o hmay hreset hdirNow hupdNow htrialNow hfn hsight hgoal
  obtain ⟨t, ht, hcal⟩ := run_cal s (·.loaderStart slots e m c o)
  exact ⟨t, ht, (sight_of_cal hcal 2 0).trans hruns⟩

/-- The first copy of a flash directory for a device of density 2, with its CRC (R361). -/
def flashDirectory : List Byte := [0x58, 0x44, 0x49, 0x52, 1, 2, 0, 0, 0, 0, 0, 0, 0x7D, 0x1A, 0xDC, 0x9D]

/-- A module with power good, at which nothing runs. A Sighting of core PLL 0, which is its relock, is waiting. -/
def startWithSighting : State :=
  { State.reset with
    flash := { State.reset.flash with mem := (List.range 16).zip flashDirectory }
    cfg := { State.reset.cfg with pwrGood := true }
    cal := { State.reset.cal with sights := [(512, some {})] } }

theorem startWithSighting_conditions : startWithSighting.loaderMay = true ∧ startWithSighting.cfg.reset = none ∧ startWithSighting.updState = 0 ∧ startWithSighting.trial ≠ 1 ∧
    startWithSighting.dirCopy = some 0 ∧ startWithSighting.fn fnCfg = .off ∧ startWithSighting.sight 2 0 = some {} := by decide +kernel

/-- Refutes O42 by its clause of LOADER_START: the clause lets no Sighting change, but the core PLLs relock, and the one whose Sighting is waiting runs it. -/
theorem not_startCommandsComplete : ¬ Obligations.StartCommandsComplete := by
  unfold Obligations.StartCommandsComplete
  rintro ⟨-, hStart, -⟩
  obtain ⟨hmay, hreset, hupd, htrial, hdir, hfn, hsight⟩ := startWithSighting_conditions
  generalize startWithSighting = s at *
  obtain ⟨t, ht, -, -, -, -, -, -, -, -, -, -, -, hkeeps⟩ := hStart s none none none true true true 0 hmay hreset hupd htrial hdir hfn
  obtain ⟨-, -, -, -, hparts⟩ := hkeeps
  have hruns := loaderStart_runs {} none true true true hmay hreset hdir hupd htrial hfn hsight rfl
  obtain ⟨u, hu, hsightEnd⟩ := hruns
  obtain rfl : t = u := Host.Outcome.next.inj (ht.symm.trans hu)
  rw [sight_of_cal (hparts .cal (by decide)) 2 0, hsight] at hsightEnd
  exact absurd hsightEnd (by decide)

end Sys2Proof.Machine
end
